-- ==== Sys2Proof/Word.lean ====
section
/-! DEFINITION. The words of the machine, and the finite maps in which the state holds its collections. -/

namespace Sys2Proof

/-- One byte, the smallest addressable unit (R9). -/
abbrev Byte := BitVec 8

/-- One 32-bit word: an instruction word (R44) or a v element (R56). -/
abbrev W32 := BitVec 32

/-- A 64-bit value: a PC, an address, a k or a w register (R23, R56, R177). -/
abbrev W64 := BitVec 64

/-- A finite map from numbers, held as its list of entries. A number without an entry has no value. -/
abbrev Map (α : Type) := List (Nat × α)

namespace Map

variable {α : Type}

/-- The value at a number, if there is one. -/
def find? : Map α → Nat → Option α
  | [], _ => none
  | (k, v) :: t, j => if k = j then some v else find? t j

/-- The value at a number, or `d` where there is none. -/
def get (m : Map α) (k : Nat) (d : α) : α := (find? m k).getD d

/-- The map without the entry at `k`. -/
def del : Map α → Nat → Map α
  | [], _ => []
  | (j, v) :: t, k => if j = k then del t k else (j, v) :: del t k

/-- An entry placed before the first entry of a higher number. -/
def insert : Map α → Nat → α → Map α
  | [], k, v => [(k, v)]
  | (j, u) :: t, k, v => if k < j then (k, v) :: (j, u) :: t else (j, u) :: insert t k v

/-- The map with `v` at `k`. -/
def put (m : Map α) (k : Nat) (v : α) : Map α := insert (del m k) k v

/-- The map with `f` applied to the value at `k`, or to `d` where there is none. -/
def upd (m : Map α) (k : Nat) (d : α) (f : α → α) : Map α := put m k (f (get m k d))

/-- The map with `f` applied to the value at `k`, where there is one. -/
def adjust : Map α → Nat → (α → α) → Map α
  | [], _, _ => []
  | (j, u) :: t, k, f => if j = k then (j, f u) :: adjust t k f else (j, u) :: adjust t k f

/-- Every value with its number changed by `f`. -/
def mapVals {β : Type} (m : Map α) (f : Nat → α → β) : Map β := List.map (fun p => (p.1, f p.1 p.2)) m

/-- The entries that satisfy `p`. -/
def keep (m : Map α) (p : Nat → α → Bool) : Map α := List.filter (fun e => p e.1 e.2) m

/-- The numbers that have an entry. -/
def keys (m : Map α) : List Nat := List.map Prod.fst m

/-- The values, in the order of the entries. -/
def vals (m : Map α) : List α := List.map Prod.snd m

/-- The numbers of the entries rise strictly. -/
def rising : Map α → Bool
  | [] => true
  | [_] => true
  | a :: b :: t => decide (a.1 < b.1) && rising (b :: t)

end Map

/-- 1 for true. -/
def bit (b : Bool) : BitVec 1 := if b then 1#1 else 0#1

/-- The bytes of a value, low byte first (R9). -/
def bytesOf : Nat → Nat → List Byte
  | 0, _ => []
  | n + 1, x => BitVec.ofNat 8 x :: bytesOf n (x / 256)

/-- The value of bytes, low byte first (R9). -/
def ofBytes : List Byte → Nat
  | [] => 0
  | b :: t => b.toNat + 256 * ofBytes t

/-- The numbers below `n`, ascending. -/
def upTo (n : Nat) : List Nat := List.range n

/-- Bits [hi:lo] of a number (R9). -/
def bitsAt (x hi lo : Nat) : Nat := (x / 2 ^ lo) % 2 ^ (hi + 1 - lo)

/-- One bit of a number. -/
def bitAt (x i : Nat) : Bool := (x / 2 ^ i) % 2 = 1

/-- A `w`-bit pattern read as a two's-complement number. -/
def toSigned (w x : Nat) : Int := if x % 2 ^ w < 2 ^ (w - 1) then ((x % 2 ^ w : Nat) : Int) else ((x % 2 ^ w : Nat) : Int) - ((2 ^ w : Nat) : Int)

/-- The `w`-bit pattern of an integer, modulo 2^w. -/
def ofInt (w : Nat) (x : Int) : Nat := (x % ((2 ^ w : Nat) : Int)).toNat

/-- The first value of a list of options that is there. -/
def firstSome {α : Type} : List (Option α) → Option α
  | [] => none
  | some a :: _ => some a
  | none :: t => firstSome t

end Sys2Proof
end

