-- ==== Sys2Proof/Prefix.lean ====
section
/-! DEFINITION. The two prefixes that may stand before a base word: the immediate prefix and the operand prefix (R44, R49, R52). -/

namespace Sys2Proof

/-- The fields of an operand prefix (R52), its bits [2:0] being 0. -/
structure Opx where
  /-- The mask predicate q1 to q7, or 0 for none (R53). -/
  mask : BitVec 3
  /-- 1: a masked-off fibre writes 0 with its tags clear; 0: it keeps its destination (R53). -/
  mz : BitVec 1
  /-- The rounding mode (R53, R150). -/
  rm : BitVec 3
  /-- The fourth register operand (R53). -/
  c : BitVec 7
  /-- 1: saturation (R53). -/
  sat : BitVec 1
  /-- The last-use bits of a, b and c, a on top (R54). -/
  last : BitVec 3
  /-- The reuse bits of a, b and c, a on top (R55). -/
  reuse : BitVec 3
  deriving DecidableEq, Repr

/-- The prefixes of an instruction (R44): at most one IMX, whose 24 bits it holds, and at most one OPX. -/
structure Mods where
  imx : Option (BitVec 24)
  opx : Option Opx
  deriving DecidableEq, Repr

/-- No prefix. -/
def Mods.none : Mods := ⟨Option.none, Option.none⟩

/-- An operand prefix of all-zero fields, which an instruction without one behaves as having (R53). -/
def Opx.zero : Opx := ⟨0, 0, 0, 0, 0, 0, 0⟩

/-- The operand prefix in force: the one given, or all zeros (R53). -/
def Mods.eff (m : Mods) : Opx := m.opx.getD Opx.zero

end Sys2Proof
end

