-- ==== Sys2Proof/Syntax.lean ====
section
/-! DEFINITION. The instructions: one constructor per row of the opcode table. A row with an encoding carries the fields of its
word, as R47 lays them out, behind the prefixes that stand before it (R44); a row without one, an event of the machine, carries what
its occurrence brings. -/

namespace Sys2Proof

/-- The instructions and events of the machine (R61, and the rules named at each constructor). -/
inductive Instr where
  /-- NOP: Does nothing except advance the PCs of the issue set (R80) -/
  | nop (mods : Mods)
  /-- BRA: Sets the PC of every fibre of the issue set to the PC-relative target (R70) -/
  | bra (mods : Mods) (o : BitVec 24)
  /-- BRQ: Branches each fibre whose predicate q equals sense; a guessed predicate is demanded and a poisoned one traps (R70) -/
  | brq (mods : Mods) (q : BitVec 3) (s : BitVec 1) (o : BitVec 20)
  /-- JMP: Sets each fibre's PC to k[a], or to the instruction address plus k[a] for .rel, after checking alignment (R71) -/
  | jmp (mods : Mods) (f : BitVec 3) (a : BitVec 7)
  /-- CALL: Pushes the return address, spilling the oldest entry to memory when four are on chip, and jumps to the target (R73) -/
  | call (mods : Mods) (o : BitVec 24)
  /-- CALLR: Calls through a k-register target, absolute or relative, pushing the return address as CALL does (R71) -/
  | callr (mods : Mods) (f : BitVec 3) (a : BitVec 7)
  /-- RET: Pops a return address from the on-chip stack or fills it from the spill area, and transfers to it (R74) -/
  | ret (mods : Mods)
  /-- RETURN_FILL_ARRIVAL: When every fill of a RET's issue set has landed or faulted, all members pop and transfer together or the RET faults (R74) -/
  | returnFillArrival (g : Nat) (pc : W64)
  /-- JCT: Sets JA in each fibre of the issue set and holds it at the junction (R76) -/
  | jct (mods : Mods)
  /-- JUNCTION_RELEASE: On an issue cycle with no live fibre below the junction PC, the waiting fibres are released together past the JCT (R32) -/
  | junctionRelease (g : Nat) (pc : W64)
  /-- JUNCTION_TIMEOUT: 1,024 clocks after the earliest arrival, the fibres waiting at a junction are released (R32) -/
  | junctionTimeout (g : Nat) (pc : W64)
  /-- FORK: Creates a new fibre in a free lane of the group for each active fibre, zeroed or copying the parent, and returns its lane (R77) -/
  | fork (mods : Mods) (f : BitVec 3) (d : BitVec 7) (a : BitVec 7) (b : BitVec 7)
  /-- QUIT: Ends each active fibre of the issue set and frees its lane (R78) -/
  | quit (mods : Mods)
  /-- YIELD: Moves the group to the lay-by when a ready lay-by group fits, else does nothing (R79) -/
  | yield (mods : Mods)
  /-- WIN: Sets the window base of each fibre to an immediate, faulting STACK if out of budget (R81) -/
  | win (mods : Mods) (i : BitVec 7)
  /-- WIN_K: Sets the window base of each fibre from a k register, faulting STACK if out of budget (R81) -/
  | winK (mods : Mods) (a : BitVec 7)
  /-- WADD: Adds a signed immediate to each fibre's window base, faulting STACK if out of budget (R81) -/
  | wadd (mods : Mods) (i : BitVec 7)
  /-- KLI: Loads a sign-extended immediate into a k register (R88) -/
  | kli (mods : Mods) (d : BitVec 7) (i : BitVec 7)
  /-- KHI: Replaces one 16-bit field of a k value with an immediate (R88) -/
  | khi (mods : Mods) (n : BitVec 2) (d : BitVec 7) (a : BitVec 7) (i : BitVec 7)
  /-- KMOV: Copies a scalar source into a k register (R88) -/
  | kmov (mods : Mods) (d : BitVec 7) (a : BitVec 7)
  /-- KADD: Scalar add, wrapping or saturating (R84) -/
  | kadd (mods : Mods) (t : BitVec 2) (d : BitVec 7) (a : BitVec 7) (b : BitVec 7)
  /-- KSUB: Scalar subtract, wrapping or saturating (R84) -/
  | ksub (mods : Mods) (t : BitVec 2) (d : BitVec 7) (a : BitVec 7) (b : BitVec 7)
  /-- KMUL: Scalar multiply, low bits or saturated (R84) -/
  | kmul (mods : Mods) (t : BitVec 2) (d : BitVec 7) (a : BitVec 7) (b : BitVec 7)
  /-- KMULH: High half of the scalar double-width product (R84) -/
  | kmulh (mods : Mods) (t : BitVec 2) (d : BitVec 7) (a : BitVec 7) (b : BitVec 7)
  /-- KDIV: Scalar divide truncating toward zero; a zero divisor gives all ones and sets WARN.DIVZ (R85) -/
  | kdiv (mods : Mods) (t : BitVec 2) (d : BitVec 7) (a : BitVec 7) (b : BitVec 7)
  /-- KREM: Scalar remainder with the dividend's sign; a zero divisor gives all ones and sets WARN.DIVZ (R85) -/
  | krem (mods : Mods) (t : BitVec 2) (d : BitVec 7) (a : BitVec 7) (b : BitVec 7)
  /-- KAND: Bitwise AND of 64-bit scalars (R84) -/
  | kand (mods : Mods) (d : BitVec 7) (a : BitVec 7) (b : BitVec 7)
  /-- KOR: Bitwise OR of 64-bit scalars (R84) -/
  | kor (mods : Mods) (d : BitVec 7) (a : BitVec 7) (b : BitVec 7)
  /-- KXOR: Bitwise XOR of 64-bit scalars (R84) -/
  | kxor (mods : Mods) (d : BitVec 7) (a : BitVec 7) (b : BitVec 7)
  /-- KSHL: Scalar shift left by B mod width (R84) -/
  | kshl (mods : Mods) (t : BitVec 1) (d : BitVec 7) (a : BitVec 7) (b : BitVec 7)
  /-- KSHR: Scalar logical shift right by B mod width (R84) -/
  | kshr (mods : Mods) (t : BitVec 1) (d : BitVec 7) (a : BitVec 7) (b : BitVec 7)
  /-- KSRA: Scalar arithmetic shift right by B mod width (R84) -/
  | ksra (mods : Mods) (t : BitVec 1) (d : BitVec 7) (a : BitVec 7) (b : BitVec 7)
  /-- KMIN: Smaller of two scalars, signed or natural (R84) -/
  | kmin (mods : Mods) (t : BitVec 2) (d : BitVec 7) (a : BitVec 7) (b : BitVec 7)
  /-- KMAX: Larger of two scalars, signed or natural (R84) -/
  | kmax (mods : Mods) (t : BitVec 2) (d : BitVec 7) (a : BitVec 7) (b : BitVec 7)
  /-- KCMP: Compares two 64-bit scalars and writes a predicate bit (R86) -/
  | kcmp (mods : Mods) (c : BitVec 3) (d : BitVec 7) (a : BitVec 7) (b : BitVec 7)
  /-- KSEL: Selects one of two scalars by a predicate without demanding a guess (R87) -/
  | ksel (mods : Mods) (q : BitVec 3) (d : BitVec 7) (a : BitVec 7) (b : BitVec 7)
  /-- KCLZ: Counts leading zeros of a scalar within its width (R84) -/
  | kclz (mods : Mods) (t : BitVec 1) (d : BitVec 7) (a : BitVec 7)
  /-- KPOPC: Counts the ones of a scalar within its width (R84) -/
  | kpopc (mods : Mods) (t : BitVec 1) (d : BitVec 7) (a : BitVec 7)
  /-- KFROMV: Moves the fibre's own v element or pair into a k register, extended (R88) -/
  | kfromv (mods : Mods) (f : BitVec 3) (d : BitVec 7) (a : BitVec 7)
  /-- KFROMQ: Moves the predicate word, or the low 24 bits of the fibre control word, into a k register (R88) -/
  | kfromq (mods : Mods) (f : BitVec 1) (d : BitVec 7)
  /-- KTOQ: Sets a predicate from a scalar being non-zero or from its bit 0 (R88) -/
  | ktoq (mods : Mods) (f : BitVec 1) (d : BitVec 7) (a : BitVec 7)
  /-- WAITC: Blocks the issue set until every group counter is at or below its given count (R112) -/
  | waitc (mods : Mods) (l : BitVec 6) (s : BitVec 6) (c : BitVec 6) (t : BitVec 6)
  /-- GBAR: Arrives at the group barrier as a release and waits for the phase to complete (R115) -/
  | gbar (mods : Mods)
  /-- TARR: Arrives at the team barrier, returns the phase number and lets the fibre continue (R116) -/
  | tarr (mods : Mods) (d : BitVec 7)
  /-- TWAIT: Blocks the fibre until the phase of its latest team-barrier arrival completes (R116) -/
  | twait (mods : Mods)
  /-- MBAR: Arrives at the grid's milestone barrier, allowed only in co-scheduled grids (R117) -/
  | mbar (mods : Mods)
  /-- BARRIER_ARRIVAL: Once the fibre's stores are performed at the scope and its tickets hold their truths, the fibre arrives at the barrier (R114) -/
  | barrierArrival (g : Nat) (lane : Nat)
  /-- MBAR_RELEASE_STEP: Every 256 clocks after a milestone phase completes, the next K cores' waiting fibres are released (R117) -/
  | mbarReleaseStep (grid : Nat)
  /-- LEASE: Declares the group's lease from an immediate, or returns it to measured with 0, and returns the granted lease (R118) -/
  | lease (mods : Mods) (d : BitVec 7) (i : BitVec 7)
  /-- LEASE_K: Declares the group's lease from a k register and returns the granted lease (R118) -/
  | leaseK (mods : Mods) (d : BitVec 7) (a : BitVec 7)
  /-- LEASE_RD: Returns the group's current lease without changing it (R118) -/
  | leaseRd (mods : Mods) (d : BitVec 7)
  /-- LNCH: After a release, reads a launch record and appends it to a launch queue of the context's VF, returning a status (R119) -/
  | lnch (mods : Mods) (d : BitVec 7) (a : BitVec 7) (b : BitVec 7)
  /-- TRAP: Completes and raises the BREAK cause group with SUB 1 and its code (R142) -/
  | trap (mods : Mods) (i : BitVec 7)
  /-- ASSERT: Halts the context for the debugger with REASON 4 when the predicate fails in any active fibre (R143) -/
  | assertQ (mods : Mods) (f : BitVec 1) (a : BitVec 7) (b : BitVec 7)
  /-- TRET: When all live fibres have issued it, restores their state from the trap registers and releases the context's halt (R144) -/
  | tret (mods : Mods)
  /-- TMSK: Sets or clears the group's trap mask, returns the old mask and may take a latched pre-emption (R141) -/
  | tmsk (mods : Mods) (d : BitVec 7) (i : BitVec 1)
  /-- SRD: Reads a system register into a k register (R140) -/
  | srd (mods : Mods) (d : BitVec 7) (n : BitVec 7)
  /-- SWR: Writes a system register from a k register, subject to its write rights and per-register checks (R140) -/
  | swr (mods : Mods) (a : BitVec 7) (n : BitVec 7)
  /-- SWR_OR: ORs a k register into a system register (R140) -/
  | swrOr (mods : Mods) (a : BitVec 7) (n : BitVec 7)
  /-- SWR_CLR: Clears the bits of a system register that are set in a k register (R140) -/
  | swrClr (mods : Mods) (a : BitVec 7) (n : BitVec 7)
  /-- BREAK: Takes effect in no fibre and raises BREAK SUB 0, or halts for the supervisor when TVEC.D is 1 (R142) -/
  | brk (mods : Mods) (i : BitVec 7)
  /-- HALT: Completes and halts the context for the supervisor with REASON 3 (R145) -/
  | halt (mods : Mods)
  /-- VADD: Per-lane integer add, wrapping or saturating (R157) -/
  | vadd (mods : Mods) (t : BitVec 3) (d : BitVec 7) (a : BitVec 7) (b : BitVec 7)
  /-- VSUB: Per-lane integer subtract (R157) -/
  | vsub (mods : Mods) (t : BitVec 3) (d : BitVec 7) (a : BitVec 7) (b : BitVec 7)
  /-- VMUL: Per-lane integer multiply, low bits or saturated (R157) -/
  | vmul (mods : Mods) (t : BitVec 3) (d : BitVec 7) (a : BitVec 7) (b : BitVec 7)
  /-- VMULH: High half of the per-lane double-width product (R157) -/
  | vmulh (mods : Mods) (t : BitVec 3) (d : BitVec 7) (a : BitVec 7) (b : BitVec 7)
  /-- VMAD: Per-lane integer multiply-add with one optional clamp (R157) -/
  | vmad (mods : Mods) (t : BitVec 3) (d : BitVec 7) (a : BitVec 7) (b : BitVec 7)
  /-- VDIV: Per-lane integer divide; a zero divisor gives all ones and sets WARN.DIVZ (R158) -/
  | vdiv (mods : Mods) (t : BitVec 3) (d : BitVec 7) (a : BitVec 7) (b : BitVec 7)
  /-- VREM: Per-lane integer remainder; a zero divisor gives all ones and sets WARN.DIVZ (R158) -/
  | vrem (mods : Mods) (t : BitVec 3) (d : BitVec 7) (a : BitVec 7) (b : BitVec 7)
  /-- VMIN: Per-lane integer minimum (R157) -/
  | vmin (mods : Mods) (t : BitVec 3) (d : BitVec 7) (a : BitVec 7) (b : BitVec 7)
  /-- VMAX: Per-lane integer maximum (R157) -/
  | vmax (mods : Mods) (t : BitVec 3) (d : BitVec 7) (a : BitVec 7) (b : BitVec 7)
  /-- VABS: Per-lane integer absolute value (R157) -/
  | vabs (mods : Mods) (t : BitVec 3) (d : BitVec 7) (a : BitVec 7)
  /-- VAND: Per-lane bitwise AND (R159) -/
  | vand (mods : Mods) (t : BitVec 3) (d : BitVec 7) (a : BitVec 7) (b : BitVec 7)
  /-- VOR: Per-lane bitwise OR (R159) -/
  | vor (mods : Mods) (t : BitVec 3) (d : BitVec 7) (a : BitVec 7) (b : BitVec 7)
  /-- VXOR: Per-lane bitwise XOR (R159) -/
  | vxor (mods : Mods) (t : BitVec 3) (d : BitVec 7) (a : BitVec 7) (b : BitVec 7)
  /-- VNOT: Per-lane bitwise complement (R159) -/
  | vnot (mods : Mods) (t : BitVec 3) (d : BitVec 7) (a : BitVec 7)
  /-- VSHL: Per-lane shift left, optionally saturating (R159) -/
  | vshl (mods : Mods) (t : BitVec 3) (d : BitVec 7) (a : BitVec 7) (b : BitVec 7)
  /-- VSHR: Per-lane logical shift right (R159) -/
  | vshr (mods : Mods) (t : BitVec 3) (d : BitVec 7) (a : BitVec 7) (b : BitVec 7)
  /-- VSRA: Per-lane arithmetic shift right (R159) -/
  | vsra (mods : Mods) (t : BitVec 3) (d : BitVec 7) (a : BitVec 7) (b : BitVec 7)
  /-- VROT: Per-lane rotate left (R159) -/
  | vrot (mods : Mods) (t : BitVec 3) (d : BitVec 7) (a : BitVec 7) (b : BitVec 7)
  /-- VCLZ: Per-lane count of leading zeros (R159) -/
  | vclz (mods : Mods) (t : BitVec 3) (d : BitVec 7) (a : BitVec 7)
  /-- VPOPC: Per-lane population count (R159) -/
  | vpopc (mods : Mods) (t : BitVec 3) (d : BitVec 7) (a : BitVec 7)
  /-- VBREV: Per-lane bit reversal within the width (R159) -/
  | vbrev (mods : Mods) (t : BitVec 3) (d : BitVec 7) (a : BitVec 7)
  /-- VSEL: Per-lane select of two sources by a predicate (R161) -/
  | vsel (mods : Mods) (q : BitVec 3) (d : BitVec 7) (a : BitVec 7) (b : BitVec 7)
  /-- VMOV: Per-lane copy of a 32-bit or 64-bit source (R161) -/
  | vmov (mods : Mods) (w : BitVec 1) (d : BitVec 7) (a : BitVec 7)
  /-- VLI: Loads a sign-extended immediate into every element (R161) -/
  | vli (mods : Mods) (d : BitVec 7) (i : BitVec 7)
  /-- VLI_HI: Replaces bits 31:16 of each element with an immediate (R161) -/
  | vliHi (mods : Mods) (d : BitVec 7) (i : BitVec 7)
  /-- VCMP_EQ: Per-lane integer equality compare into a predicate (R160) -/
  | vcmpEq (mods : Mods) (t : BitVec 3) (d : BitVec 7) (a : BitVec 7) (b : BitVec 7)
  /-- VCMP_NE: Per-lane integer inequality compare into a predicate (R160) -/
  | vcmpNe (mods : Mods) (t : BitVec 3) (d : BitVec 7) (a : BitVec 7) (b : BitVec 7)
  /-- VCMP_LT: Per-lane integer less-than compare into a predicate (R160) -/
  | vcmpLt (mods : Mods) (t : BitVec 3) (d : BitVec 7) (a : BitVec 7) (b : BitVec 7)
  /-- VCMP_LE: Per-lane integer less-or-equal compare into a predicate (R160) -/
  | vcmpLe (mods : Mods) (t : BitVec 3) (d : BitVec 7) (a : BitVec 7) (b : BitVec 7)
  /-- VCMP_GT: Per-lane integer greater-than compare into a predicate (R160) -/
  | vcmpGt (mods : Mods) (t : BitVec 3) (d : BitVec 7) (a : BitVec 7) (b : BitVec 7)
  /-- VCMP_GE: Per-lane integer greater-or-equal compare into a predicate (R160) -/
  | vcmpGe (mods : Mods) (t : BitVec 3) (d : BitVec 7) (a : BitVec 7) (b : BitVec 7)
  /-- VBCAST: Copies the fibre's own scalar into its vector element or pair (R161) -/
  | vbcast (mods : Mods) (w : BitVec 1) (d : BitVec 7) (a : BitVec 7)
  /-- VCVTI: Converts between integer types, wrapping or clamping (R162) -/
  | vcvti (mods : Mods) (t : BitVec 3) (d : BitVec 7) (a : BitVec 7) (s : BitVec 3)
  /-- QAND: AND of two predicates (R172) -/
  | qand (mods : Mods) (d : BitVec 7) (a : BitVec 7) (b : BitVec 7)
  /-- QOR: OR of two predicates (R172) -/
  | qor (mods : Mods) (d : BitVec 7) (a : BitVec 7) (b : BitVec 7)
  /-- QXOR: XOR of two predicates (R172) -/
  | qxor (mods : Mods) (d : BitVec 7) (a : BitVec 7) (b : BitVec 7)
  /-- QNOT: Complement of a predicate (R172) -/
  | qnot (mods : Mods) (d : BitVec 7) (a : BitVec 7)
  /-- QMOV: Copy of a predicate (R172) -/
  | qmov (mods : Mods) (d : BitVec 7) (a : BitVec 7)
  /-- FADD: Floating-point add with one rounding (R163) -/
  | fadd (mods : Mods) (t : BitVec 2) (d : BitVec 7) (a : BitVec 7) (b : BitVec 7)
  /-- FSUB: Floating-point subtract with one rounding (R163) -/
  | fsub (mods : Mods) (t : BitVec 2) (d : BitVec 7) (a : BitVec 7) (b : BitVec 7)
  /-- FMUL: Floating-point multiply with one rounding (R163) -/
  | fmul (mods : Mods) (t : BitVec 2) (d : BitVec 7) (a : BitVec 7) (b : BitVec 7)
  /-- FFMA: Fused multiply-add with one rounding (R163) -/
  | ffma (mods : Mods) (t : BitVec 2) (d : BitVec 7) (a : BitVec 7) (b : BitVec 7)
  /-- FMIN: IEEE 754-2019 minimum (R164) -/
  | fmin (mods : Mods) (t : BitVec 2) (d : BitVec 7) (a : BitVec 7) (b : BitVec 7)
  /-- FMAX: IEEE 754-2019 maximum (R164) -/
  | fmax (mods : Mods) (t : BitVec 2) (d : BitVec 7) (a : BitVec 7) (b : BitVec 7)
  /-- FSGN: Copies A with the sign of B (R165) -/
  | fsgn (mods : Mods) (t : BitVec 2) (d : BitVec 7) (a : BitVec 7) (b : BitVec 7)
  /-- FSGN_NEG: Copies A with the complement of B's sign (R165) -/
  | fsgnNeg (mods : Mods) (t : BitVec 2) (d : BitVec 7) (a : BitVec 7) (b : BitVec 7)
  /-- FSGN_XOR: Copies A with the XOR of both signs (R165) -/
  | fsgnXor (mods : Mods) (t : BitVec 2) (d : BitVec 7) (a : BitVec 7) (b : BitVec 7)
  /-- FCMP_EQ: Floating-point equality compare into a predicate (R166) -/
  | fcmpEq (mods : Mods) (t : BitVec 2) (d : BitVec 7) (a : BitVec 7) (b : BitVec 7)
  /-- FCMP_NE: Floating-point inequality compare into a predicate (R166) -/
  | fcmpNe (mods : Mods) (t : BitVec 2) (d : BitVec 7) (a : BitVec 7) (b : BitVec 7)
  /-- FCMP_LT: Ordered floating-point less-than compare (R166) -/
  | fcmpLt (mods : Mods) (t : BitVec 2) (d : BitVec 7) (a : BitVec 7) (b : BitVec 7)
  /-- FCMP_LE: Ordered floating-point less-or-equal compare (R166) -/
  | fcmpLe (mods : Mods) (t : BitVec 2) (d : BitVec 7) (a : BitVec 7) (b : BitVec 7)
  /-- FCMP_GT: Ordered floating-point greater-than compare (R166) -/
  | fcmpGt (mods : Mods) (t : BitVec 2) (d : BitVec 7) (a : BitVec 7) (b : BitVec 7)
  /-- FCMP_GE: Ordered floating-point greater-or-equal compare (R166) -/
  | fcmpGe (mods : Mods) (t : BitVec 2) (d : BitVec 7) (a : BitVec 7) (b : BitVec 7)
  /-- FCMP_UN: Tests whether either operand is a NaN (R166) -/
  | fcmpUn (mods : Mods) (t : BitVec 2) (d : BitVec 7) (a : BitVec 7) (b : BitVec 7)
  /-- FCMP_OR: Tests whether neither operand is a NaN (R166) -/
  | fcmpOr (mods : Mods) (t : BitVec 2) (d : BitVec 7) (a : BitVec 7) (b : BitVec 7)
  /-- FCLASS: Writes a one-hot class mask of A (R167) -/
  | fclass (mods : Mods) (t : BitVec 2) (d : BitVec 7) (a : BitVec 7)
  /-- FCVT: Converts between floating-point formats under rm and sat (R169) -/
  | fcvt (mods : Mods) (f : BitVec 3) (d : BitVec 7) (a : BitVec 7) (s : BitVec 3)
  /-- FCVT_TO_INT: Converts a floating-point value to an integer type (R169) -/
  | fcvtToInt (mods : Mods) (f : BitVec 3) (d : BitVec 7) (a : BitVec 7) (s : BitVec 3)
  /-- FCVT_FROM_INT: Converts an integer to a floating-point format (R169) -/
  | fcvtFromInt (mods : Mods) (f : BitVec 3) (d : BitVec 7) (a : BitVec 7) (s : BitVec 3)
  /-- FRND: Rounds to an integral value in the same format (R168) -/
  | frnd (mods : Mods) (t : BitVec 2) (d : BitVec 7) (a : BitVec 7)
  /-- HADD2: Packed add of two 16-bit halves (R170) -/
  | hadd2 (mods : Mods) (f : BitVec 1) (d : BitVec 7) (a : BitVec 7) (b : BitVec 7)
  /-- HMUL2: Packed multiply of two 16-bit halves (R170) -/
  | hmul2 (mods : Mods) (f : BitVec 1) (d : BitVec 7) (a : BitVec 7) (b : BitVec 7)
  /-- HFMA2: Packed fused multiply-add of two 16-bit halves (R170) -/
  | hfma2 (mods : Mods) (f : BitVec 1) (d : BitVec 7) (a : BitVec 7) (b : BitVec 7)
  /-- HCMP2: Packed compare writing a 16-bit mask per half (R171) -/
  | hcmp2 (mods : Mods) (c : BitVec 2) (f : BitVec 1) (d : BitVec 7) (a : BitVec 7) (b : BitVec 7)
  /-- SRCP: Special-function reciprocal (R173) -/
  | srcp (mods : Mods) (t : BitVec 2) (d : BitVec 7) (a : BitVec 7)
  /-- SRSQ: Special-function reciprocal square root (R173) -/
  | srsq (mods : Mods) (t : BitVec 2) (d : BitVec 7) (a : BitVec 7)
  /-- SSQRT: Special-function square root (R173) -/
  | ssqrt (mods : Mods) (t : BitVec 2) (d : BitVec 7) (a : BitVec 7)
  /-- SEXP2: Special-function base-2 exponential (R173) -/
  | sexp2 (mods : Mods) (t : BitVec 2) (d : BitVec 7) (a : BitVec 7)
  /-- SLOG2: Special-function base-2 logarithm (R173) -/
  | slog2 (mods : Mods) (t : BitVec 2) (d : BitVec 7) (a : BitVec 7)
  /-- SSIN: Special-function sine in half-turns (R173) -/
  | ssin (mods : Mods) (t : BitVec 2) (d : BitVec 7) (a : BitVec 7)
  /-- SCOS: Special-function cosine in half-turns (R173) -/
  | scos (mods : Mods) (t : BitVec 2) (d : BitVec 7) (a : BitVec 7)
  /-- STANH: Special-function hyperbolic tangent (R173) -/
  | stanh (mods : Mods) (t : BitVec 2) (d : BitVec 7) (a : BitVec 7)
  /-- WMAD: Multiplies two sources and accumulates into a 64-bit accumulator (R179) -/
  | wmad (mods : Mods) (f : BitVec 3) (w : BitVec 4) (a : BitVec 7) (b : BitVec 7)
  /-- WDOT4: Adds four 8-bit or two 16-bit products to an INT64 accumulator (R180) -/
  | wdot4 (mods : Mods) (f : BitVec 3) (w : BitVec 4) (a : BitVec 7) (b : BitVec 7)
  /-- WADD_ACCUMULATOR: Adds two accumulators as binary64 or INT64 (R181) -/
  | waddAccumulator (mods : Mods) (f : BitVec 1) (d : BitVec 4) (a : BitVec 4) (b : BitVec 4)
  /-- WCLR: Clears an accumulator (R181) -/
  | wclr (mods : Mods) (d : BitVec 4)
  /-- NARROW: Writes a v element or pair from an accumulator, rounding or clamping (R182) -/
  | narrow (mods : Mods) (f : BitVec 3) (d : BitVec 7) (a : BitVec 4)
  /-- WIDEN: Writes an accumulator from a v element or pair, exactly (R183) -/
  | widen (mods : Mods) (f : BitVec 3) (d : BitVec 4) (a : BitVec 7)
  /-- SHFL: Each active lane takes A from lane B mod 32 (R188) -/
  | shfl (mods : Mods) (w : BitVec 1) (d : BitVec 7) (a : BitVec 7) (b : BitVec 7)
  /-- SHFLX: Each active lane takes A from its lane XOR B (R188) -/
  | shflx (mods : Mods) (w : BitVec 1) (d : BitVec 7) (a : BitVec 7) (b : BitVec 7)
  /-- SHFLU: Each active lane takes A from its lane minus B (R188) -/
  | shflu (mods : Mods) (w : BitVec 1) (d : BitVec 7) (a : BitVec 7) (b : BitVec 7)
  /-- SHFLD: Each active lane takes A from its lane plus B (R188) -/
  | shfld (mods : Mods) (w : BitVec 1) (d : BitVec 7) (a : BitVec 7) (b : BitVec 7)
  /-- VOTE: Gathers a predicate across active lanes as any, all, ballot or count (R189) -/
  | vote (mods : Mods) (f : BitVec 3) (d : BitVec 7) (a : BitVec 7)
  /-- REDG: Reduces over the active lanes and writes the result to each (R190) -/
  | redg (mods : Mods) (f : BitVec 3) (d : BitVec 7) (a : BitVec 7)
  /-- SCANG: Writes the inclusive prefix over the active lanes to each (R190) -/
  | scang (mods : Mods) (f : BitVec 3) (d : BitVec 7) (a : BitVec 7)
  /-- MATCH: Writes the mask of active lanes whose A equals the lane's own (R191) -/
  | matchLanes (mods : Mods) (f : BitVec 1) (d : BitVec 7) (a : BitVec 7)
  /-- VKEY: Writes an order-preserving natural key of a floating-point value (R192) -/
  | vkey (mods : Mods) (t : BitVec 2) (d : BitVec 7) (a : BitVec 7)
  /-- LD_N8: Loads a zero-extended byte with a guess limit (R226) -/
  | ldN8 (mods : Mods) (l : BitVec 3) (d : BitVec 7) (b : BitVec 7) (p : BitVec 2) (o : BitVec 5)
  /-- LD_S8: Loads a sign-extended byte with a guess limit (R226) -/
  | ldS8 (mods : Mods) (l : BitVec 3) (d : BitVec 7) (b : BitVec 7) (p : BitVec 2) (o : BitVec 5)
  /-- LD_N16: Loads a zero-extended half with a guess limit (R226) -/
  | ldN16 (mods : Mods) (l : BitVec 3) (d : BitVec 7) (b : BitVec 7) (p : BitVec 2) (o : BitVec 5)
  /-- LD_S16: Loads a sign-extended half with a guess limit (R226) -/
  | ldS16 (mods : Mods) (l : BitVec 3) (d : BitVec 7) (b : BitVec 7) (p : BitVec 2) (o : BitVec 5)
  /-- LD_32: Loads a 32-bit word with a guess limit (R226) -/
  | ld32 (mods : Mods) (l : BitVec 3) (d : BitVec 7) (b : BitVec 7) (p : BitVec 2) (o : BitVec 5)
  /-- LD_64: Loads a 64-bit value into a v pair with a guess limit (R226) -/
  | ld64 (mods : Mods) (l : BitVec 3) (d : BitVec 7) (b : BitVec 7) (p : BitVec 2) (o : BitVec 5)
  /-- LDV: Loads 16 bytes into four consecutive v registers with a guess limit (R226) -/
  | ldv (mods : Mods) (l : BitVec 3) (d : BitVec 7) (b : BitVec 7) (p : BitVec 2) (o : BitVec 5)
  /-- LDK: Loads a 64-bit value into a k register with a guess limit (R226) -/
  | ldk (mods : Mods) (l : BitVec 3) (d : BitVec 7) (b : BitVec 7) (p : BitVec 2) (o : BitVec 5)
  /-- LDX: Loads a word and decodes it by its page's format into BF16 values (R227) -/
  | ldx (mods : Mods) (l : BitVec 3) (d : BitVec 7) (b : BitVec 7) (p : BitVec 2) (o : BitVec 5)
  /-- PF: Requests lines into the cache levels allowed, without destination or faults (R229) -/
  | pf (mods : Mods) (l : BitVec 3) (b : BitVec 7) (p : BitVec 2) (o : BitVec 5)
  /-- LDS: Loads from the core's scratch window; never guesses on time (R228) -/
  | lds (mods : Mods) (f : BitVec 3) (d : BitVec 7) (b : BitVec 7) (o : BitVec 5)
  /-- GTEST: Writes the G bit of a register into a predicate (R240) -/
  | gtest (mods : Mods) (d : BitVec 7) (a : BitVec 7) (s : BitVec 7)
  /-- GACC: Accepts a guessed element, releasing its holder and clearing G (R240) -/
  | gacc (mods : Mods) (a : BitVec 7) (s : BitVec 7)
  /-- GDEM: Demands a guessed element's truth, or faults GUESS SUB 3 on a guess miss (R240) -/
  | gdem (mods : Mods) (a : BitVec 7) (s : BitVec 7)
  /-- GCHK: Waits for the truth and writes whether a guess was wrong into a predicate (R240) -/
  | gchk (mods : Mods) (d : BitVec 7) (a : BitVec 7) (s : BitVec 7)
  /-- PTEST: Writes the P bit of a register into a predicate (R240) -/
  | ptest (mods : Mods) (d : BitVec 7) (a : BitVec 7) (s : BitVec 7)
  /-- ST: Stores 1-8 bytes per lane after poison and guess checks; poisoned data mark the line (R244) -/
  | st (mods : Mods) (w : BitVec 2) (d : BitVec 7) (b : BitVec 7) (p : BitVec 2) (o : BitVec 5)
  /-- STV: Stores 16 bytes from four consecutive v registers per lane (R244) -/
  | stv (mods : Mods) (d : BitVec 7) (b : BitVec 7) (p : BitVec 2) (o : BitVec 5)
  /-- STG: Stores the value of a possibly guessed element without tags (R244) -/
  | stg (mods : Mods) (w : BitVec 2) (d : BitVec 7) (b : BitVec 7) (p : BitVec 2) (o : BitVec 5)
  /-- STS: Stores 1-16 bytes per lane into scratch (R244) -/
  | sts (mods : Mods) (w : BitVec 3) (d : BitVec 7) (b : BitVec 7) (o : BitVec 5)
  /-- AADD: Atomic add returning the old value (R249) -/
  | aadd (mods : Mods) (w : BitVec 1) (d : BitVec 7) (k : BitVec 4) (s : BitVec 3) (b : BitVec 7)
  /-- AMIN: Atomic signed minimum returning the old value (R249) -/
  | amin (mods : Mods) (w : BitVec 1) (d : BitVec 7) (k : BitVec 4) (s : BitVec 3) (b : BitVec 7)
  /-- AMAX: Atomic signed maximum returning the old value (R249) -/
  | amax (mods : Mods) (w : BitVec 1) (d : BitVec 7) (k : BitVec 4) (s : BitVec 3) (b : BitVec 7)
  /-- AAND: Atomic AND returning the old value (R249) -/
  | aand (mods : Mods) (w : BitVec 1) (d : BitVec 7) (k : BitVec 4) (s : BitVec 3) (b : BitVec 7)
  /-- AOR: Atomic OR returning the old value (R249) -/
  | aor (mods : Mods) (w : BitVec 1) (d : BitVec 7) (k : BitVec 4) (s : BitVec 3) (b : BitVec 7)
  /-- AXOR: Atomic XOR returning the old value (R249) -/
  | axor (mods : Mods) (w : BitVec 1) (d : BitVec 7) (k : BitVec 4) (s : BitVec 3) (b : BitVec 7)
  /-- AXCHG: Atomic exchange returning the old value (R249) -/
  | axchg (mods : Mods) (w : BitVec 1) (d : BitVec 7) (k : BitVec 4) (s : BitVec 3) (b : BitVec 7)
  /-- ACAS: Atomic compare-and-swap against d's value, returning the old value (R249) -/
  | acas (mods : Mods) (w : BitVec 1) (d : BitVec 7) (k : BitVec 4) (s : BitVec 3) (b : BitVec 7)
  /-- AMIN_N: Atomic natural minimum returning the old value (R249) -/
  | aminN (mods : Mods) (w : BitVec 1) (d : BitVec 7) (k : BitVec 4) (s : BitVec 3) (b : BitVec 7)
  /-- AMAX_N: Atomic natural maximum returning the old value (R249) -/
  | amaxN (mods : Mods) (w : BitVec 1) (d : BitVec 7) (k : BitVec 4) (s : BitVec 3) (b : BitVec 7)
  /-- AFADD: Atomic floating-point add in FP32 or FP64 with RNE (R248) -/
  | afadd (mods : Mods) (w : BitVec 1) (d : BitVec 7) (k : BitVec 4) (s : BitVec 3) (b : BitVec 7)
  /-- AFADD_PAIR: Atomic packed FP16 or BF16 pair add (R248) -/
  | afaddPair (mods : Mods) (t : BitVec 1) (d : BitVec 7) (k : BitVec 4) (s : BitVec 3) (b : BitVec 7)
  /-- LDAQ: Demand load with acquire semantics, optionally with remote-scope promotion of a victim core (R253) -/
  | ldaq (mods : Mods) (w : BitVec 1) (d : BitVec 7) (k : BitVec 4) (s : BitVec 3) (v : BitVec 7)
  /-- STRL: Store with cumulative release semantics at its scope (R255) -/
  | strl (mods : Mods) (w : BitVec 2) (k : BitVec 4) (s : BitVec 3) (b : BitVec 7)
  /-- FENCE: Orders the fibre's LS-path accesses as release, acquire or both at a scope (R257) -/
  | fence (mods : Mods) (n : BitVec 2) (s : BitVec 3)
  /-- RFENCE: Fence restricted to accesses overlapping a byte range (R258) -/
  | rfence (mods : Mods) (n : BitVec 2) (s : BitVec 3) (a : BitVec 7) (b : BitVec 7)
  /-- XFENCE: Orders later accesses on the named paths after earlier ones on them (R259) -/
  | xfence (mods : Mods) (s : BitVec 3) (p : BitVec 5)
  /-- LOCK: Pins a line in the die's L2 and returns a status (R261) -/
  | lock (mods : Mods) (d : BitVec 7) (b : BitVec 7) (o : BitVec 5)
  /-- UNLOCK: Unpins a line held by the context and returns a status (R261) -/
  | unlock (mods : Mods) (d : BitVec 7) (b : BitVec 7) (o : BitVec 5)
  /-- CINV: Removes a line from L1 and drops or writes back the L2 copy (R262) -/
  | cinv (mods : Mods) (b : BitVec 7) (o : BitVec 5)
  /-- CWB: Writes a dirty L2 line back and keeps a clean copy (R262) -/
  | cwb (mods : Mods) (b : BitVec 7) (o : BitVec 5)
  /-- HALLOC: Makes a handle owned of a kind with no mapping (R308) -/
  | halloc (mods : Mods) (d : BitVec 6) (k : BitVec 2)
  /-- HREL: Frees a handle and sets its released bit (R308) -/
  | hrel (mods : Mods) (d : BitVec 6)
  /-- HGIVE: Places a handle's kind and mapping in a team hand-over channel for n takers (R309) -/
  | hgive (mods : Mods) (k : BitVec 1) (a : BitVec 6) (n : BitVec 6) (c : BitVec 6)
  /-- HTAKE: Takes a handle from a hand-over channel (R309) -/
  | htake (mods : Mods) (d : BitVec 6) (c : BitVec 6)
  /-- HINFO: Returns a handle's state word into a k register (R310) -/
  | hinfo (mods : Mods) (k : BitVec 4) (a : BitVec 6)
  /-- TLD: Loads a tile from global memory into a fresh slot, or binds a streamed handle (R314) -/
  | tld (mods : Mods) (f : BitVec 3) (h : BitVec 6) (b : BitVec 7) (p : BitVec 2) (o : BitVec 5)
  /-- TLDS: Loads a tile from scratch, optionally transposed (R315) -/
  | tlds (mods : Mods) (f : BitVec 3) (h : BitVec 6) (b : BitVec 7) (t : BitVec 1) (o : BitVec 5)
  /-- TSTO: Stores a tile slot to global memory (R314) -/
  | tsto (mods : Mods) (h : BitVec 6) (b : BitVec 7) (p : BitVec 2) (o : BitVec 5)
  /-- TSTS: Stores a tile slot to scratch, optionally transposed (R315) -/
  | tsts (mods : Mods) (h : BitVec 6) (b : BitVec 7) (t : BitVec 1) (o : BitVec 5)
  /-- TRD: Reads an accumulator element per lane, converted to a format (R319) -/
  | trd (mods : Mods) (f : BitVec 3) (d : BitVec 7) (h : BitVec 6) (i : BitVec 7)
  /-- TWR: Writes accumulator elements per lane into a fresh slot (R320) -/
  | twr (mods : Mods) (f : BitVec 3) (h : BitVec 6) (a : BitVec 7) (i : BitVec 7)
  /-- TZERO: Writes a zero tile of a mode into a fresh slot (R317) -/
  | tzero (mods : Mods) (d : BitVec 6) (m : BitVec 6)
  /-- MMA: Dense matrix multiply-accumulate, one quarter operation per quarter in the issue set (R322) -/
  | mma (mods : Mods) (d : BitVec 6) (a : BitVec 6) (b : BitVec 6) (y : BitVec 2) (x : BitVec 3)
  /-- MMAS: 2:4-sparse matrix multiply-accumulate (R322) -/
  | mmas (mods : Mods) (d : BitVec 6) (a : BitVec 6) (b : BitVec 6) (y : BitVec 2) (x : BitVec 3)
  /-- MMAC: Matrix multiply-accumulate with a CB2 codebook B operand (R322) -/
  | mmac (mods : Mods) (d : BitVec 6) (a : BitVec 6) (b : BitVec 6) (h : BitVec 1) (x : BitVec 3)
  /-- TSCL: Scales an accumulator tile by a power of two (R323) -/
  | tscl (mods : Mods) (d : BitVec 6) (a : BitVec 6) (e : BitVec 6)
  /-- TACC: Adds two accumulator tiles (R323) -/
  | tacc (mods : Mods) (d : BitVec 6) (a : BitVec 6) (b : BitVec 6)
  /-- CPY: Starts a copy of a contiguous byte range between global memory and scratch (R339) -/
  | cpy (mods : Mods) (f : BitVec 3) (d : BitVec 7) (a : BitVec 7) (b : BitVec 7)
  /-- CPY2: Starts a two-dimensional copy of rows with pitches (R340) -/
  | cpy2 (mods : Mods) (f : BitVec 3) (d : BitVec 7) (a : BitVec 7) (b : BitVec 7)
  /-- GATH: Starts a gather of indexed elements into a contiguous destination (R341) -/
  | gath (mods : Mods) (s : BitVec 1) (z : BitVec 2) (d : BitVec 7) (a : BitVec 7) (b : BitVec 7)
  /-- SCAT: Starts a scatter of a contiguous source to indexed addresses (R341) -/
  | scat (mods : Mods) (s : BitVec 1) (z : BitVec 2) (d : BitVec 7) (a : BitVec 7) (b : BitVec 7)
  /-- CFILL: Starts a fill of a range from a 64-bit pattern (R342) -/
  | cfill (mods : Mods) (f : BitVec 1) (d : BitVec 7) (a : BitVec 7) (b : BitVec 7)
  /-- CSTAT: Returns the group's copy state (R343) -/
  | cstat (mods : Mods) (d : BitVec 7)
  /-- COLL: Starts a collective or put described by a 64-byte record (R356) -/
  | coll (mods : Mods) (d : BitVec 7) (a : BitVec 7)
  /-- CSIG_ADD: Sends a releasing remote atomic add to a word of a target rank (R360) -/
  | csigAdd (mods : Mods) (d : BitVec 7) (a : BitVec 7) (b : BitVec 7)
  /-- CSIG_SET: Sends a releasing remote atomic write to a word of a target rank (R360) -/
  | csigSet (mods : Mods) (d : BitVec 7) (a : BitVec 7) (b : BitVec 7)
  /-- CWAIT_REC: Blocks each fibre until a record's STATUS word is not 0xFFFF_FFFF (R361) -/
  | cwaitRec (mods : Mods) (d : BitVec 7) (a : BitVec 7)
  /-- CWAIT_GE: Blocks each fibre until a 64-bit word is at least a value (R361) -/
  | cwaitGe (mods : Mods) (d : BitVec 7) (a : BitVec 7) (b : BitVec 7)
  /-- STEP: Asks for a clock ratio to take effect at a time on the grid's tracks (R363) -/
  | step (mods : Mods) (d : BitVec 7) (a : BitVec 7) (b : BitVec 7)
  /-- RPOST: Sends a remote command message to a target with release semantics (R362) -/
  | rpost (mods : Mods) (d : BitVec 7) (a : BitVec 7) (b : BitVec 7)
  /-- AGE_COUNTER_EXPIRY: A slice's age counter reaches 256 and the next issue set is drawn from that slice (R29) -/
  | ageCounterExpiry (g : Nat) (slice : Nat)
  /-- LAUNCH_RECORD_TAKE: The device takes the next record of a non-empty launch queue, rejecting malformed ones with a completion record (R95) -/
  | launchRecordTake (vf : Nat) (queue : Nat)
  /-- TEAM_PLACEMENT: The work distributor places a waiting team on cores and tracks once it fits whole (R98) -/
  | teamPlacement (grid : Nat)
  /-- LAYBY_MOVE: A carriageway group whose fibres are all blocked or in long waits moves to the lay-by at the end of a clock (R101) -/
  | laybyMove (g : Nat)
  /-- CARRIAGEWAY_ADMISSION: Each clock a track admits at most one ready lay-by group whose lease fits (R102) -/
  | carriagewayAdmission (g : Nat)
  /-- LAYBY_PENDING: A ready lay-by group not admitted for 4,096 clocks becomes pending (R103) -/
  | laybyPending (g : Nat)
  /-- PENDING_EVICTION: After a further 4,096 clocks, carriageway groups are moved out until the pending group fits and it is admitted (R103) -/
  | pendingEviction (g : Nat)
  /-- LEASE_WINDOW_END: At the end of a 4,096-issue-cycle window the measured lease becomes S + V KiB (R107) -/
  | leaseWindowEnd (g : Nat)
  /-- GROUP_END: After its last fibre quits and its counters and tickets settle, the group frees rows, lease and handles (R42) -/
  | groupEnd (g : Nat)
  /-- GRID_END: When the last team ends and all guesses settle, the device writes the grid's completion record (R94) -/
  | gridEnd (grid : Nat)
  /-- PREEMPTION_REQUEST: A pre-emption request halts the context at once or is latched while a group is masked (R139) -/
  | preemptionRequest (ctx : Nat)
  /-- PREEMPTION_TIMEOUT: 50 µs after a latched pre-emption request the context halts as it stands (R139) -/
  | preemptionTimeout (ctx : Nat)
  /-- SUPERVISOR_STOP: The supervisor stops a context, which halts with REASON 2 (R127) -/
  | supervisorStop (ctx : Nat)
  /-- HALT_LINE_ARRIVAL: The context's halt line reaches a core, which stops issuing the context's instructions (R120) -/
  | haltLineArrival (ctx : Nat) (core : Nat)
  /-- ENGINE_STOP: An engine with work of the halted context comes to rest within its skid and writes its stop record (R121) -/
  | engineStop (ctx : Nat) (core : Nat) (track : Nat) (engine : Nat)
  /-- HALT_COMPLETION: When every engine has stopped, the stop area header is written and the handler is entered or the supervisor is told (R120) -/
  | haltCompletion (ctx : Nat)
  /-- CONTEXT_RESUME: The supervisor resumes a halted context from its context image (R124) -/
  | contextResume (ctx : Nat)
  /-- CONTEXT_END: The supervisor ends a context and its grids are abandoned (R138) -/
  | contextEnd (ctx : Nat)
  /-- PAGE_WALK: A page-table walk completes with a translation, a translation fault, a walk error or poison (R206) -/
  | pageWalk (ctx : Nat) (core : Nat) (va : W64)
  /-- TRANSLATION_FAULT_RESOLVED: The supervisor maps a faulting page and the waiting translation, copy or access retries (R208) -/
  | translationFaultResolved (ctx : Nat) (va : W64)
  /-- TRANSLATION_FAULT_UNRESOLVED: The supervisor declares a translation fault unresolved and the instruction or copy faults MEMORY SUB 0 (R208) -/
  | translationFaultUnresolved (ctx : Nat) (va : W64)
  /-- INVALIDATION: The supervisor posts a mapping change on the VF's invalidation queue and TLBs drop the entries (R211) -/
  | invalidation (ctx : Nat) (va : W64) (len : Nat) (writes : List (Nat × W64))
  /-- BIAS_FLIP: A page's bias flips after pausing copies, draining accesses and moving dirty lines (R283) -/
  | biasFlip (ctx : Nat) (va : W64) (bias : Bool)
  /-- DEADLINE_EXPIRY: At a lane's deadline without data, it takes a ticket and a predicted guess, or the load falls back to demand (R224) -/
  | deadlineExpiry (core : Nat) (load : Nat) (lane : Nat)
  /-- LOAD_DATA_ARRIVAL: A lane's loaded data arrive and are written as truth with poison marked (R226) -/
  | loadDataArrival (core : Nat) (load : Nat) (lane : Nat)
  /-- TICKET_TRUTH_ARRIVAL: A guessed load's truth reaches its ticket, which compares it and sets guess-miss bits (R232) -/
  | ticketTruthArrival (core : Nat) (ticket : Nat)
  /-- STORE_PERFORMED: A store or write-back is performed at its scope and completes for the counters (R241) -/
  | storePerformed (core : Nat) (store : Nat)
  /-- ATOMIC_PERFORMED: An atomic reaches its place and is performed, or is refused on a poisoned line with a deferred fault (R250) -/
  | atomicPerformed (core : Nat) (op : Nat) (lane : Nat)
  /-- PROMOTION_DRAIN: A victim core performs its accepted stores at .die and invalidates its L1 for a promoting LDAQ (R254) -/
  | promotionDrain (core : Nat) (load : Nat) (victim : Nat)
  /-- L1_INVALIDATION_ARRIVAL: An invalidation from the L2 reaches a core and is applied to its L1 (R273) -/
  | l1InvalidationArrival (core : Nat) (line : Nat)
  /-- L1_FILL_ARRIVAL: A fill reaches L1 and its waiting loads consume it, installed unless an invalidation overtook it (R279) -/
  | l1FillArrival (core : Nat) (line : Nat)
  /-- HOST_SHARED_REQUEST: A host chiplet requests a half line shared and device L2s write back owned copies (R280) -/
  | hostSharedRequest (addr : Nat)
  /-- HOST_EXCLUSIVE_REQUEST: A host chiplet requests a half line exclusive and device caches write back and drop the line (R280) -/
  | hostExclusiveRequest (addr : Nat)
  /-- HOST_WRITE_BACK: A host writes back a half line, a poisoned one marking the whole line poisoned (R281) -/
  | hostWriteBack (addr : Nat) (data : List Byte) (poisoned : Bool)
  /-- HOST_MEMORY_ACCESS: A host CXL.mem access to an MTYPE 1 page is served at the LLC after device copies are written back (R213) -/
  | hostMemoryAccess (addr : Nat) (len : Nat) (data : List Byte)
  /-- DIE_LINK_REQUEST: A request arriving over a die-to-die link is checked against DFW and refused requests are dropped or return poison (R368) -/
  | dieLinkRequest (src : Nat) (dst : Nat) (kind : Nat) (addr : Nat) (data : List Byte)
  /-- COPY_PIECE: The copy engine moves one piece of a copy, or pauses or ends it on a fault (R332) -/
  | copyPiece (core : Nat) (copy : Nat)
  /-- COPY_RETIRE: A copy whose pieces are all performed leaves the scoreboard and decrements the copy counter (R335) -/
  | copyRetire (core : Nat) (copy : Nat)
  /-- MATRIX_PASS: The matrix unit runs one pass of up to four fused quarter operations (R325) -/
  | matrixPass (core : Nat) (quarters : List Nat)
  /-- TILE_OPERATION_RETIRE: A tile operation's last part retires on the handle scoreboard and the tile counter decrements (R324) -/
  | tileOperationRetire (core : Nat) (op : Nat)
  /-- CAUSEWAY_ABANDON: A Causeway request with no reply after 2,000,000 ticks is abandoned with a deferred FABRIC fault (R349); `request` is its number and lane -/
  | causewayAbandon (core : Nat) (request : Nat × Nat)
  /-- NODE_ERROR_REPLY: A pooled memory node refuses a request and it ends with FABRIC SUB 1 (R349); `request` is its number and lane -/
  | nodeErrorReply (core : Nat) (request : Nat × Nat)
  /-- NOTIFY_MESSAGE: A remote notify message makes the device read TAIL of a launch queue (R352); `queue` is its queue, its reserved bytes and its body -/
  | notifyMessage (vf : Nat) (endpoint : Nat) (id : Nat) (queue : Nat × Nat × List Byte)
  /-- LAUNCH_MESSAGE: A remote launch message appends its record to a launch queue as LNCH does (R352); `queue` is its queue and its reserved bytes -/
  | launchMessage (vf : Nat) (endpoint : Nat) (id : Nat) (queue : Nat × Nat) (rec : List Byte)
  /-- RPOST_REPLY: The reply to an RPOST arrives and its status is written to d (R362) -/
  | rpostReply (id : Nat) (status : Nat)
  /-- RPOST_TIMEOUT: No reply within 2,000,000 ticks writes status 5 to the RPOST's d (R362) -/
  | rpostTimeout (id : Nat)
  /-- COLL_COMPLETION: When all ranks join a call, it is checked for mismatch, carried out and STATUS written with release (R357) -/
  | collCompletion (vf : Nat) (comm : Nat) (seq : Nat) (others : List (Nat × List Byte))
  /-- COLL_TIMEOUT: A call not joined by all ranks within TMO ends with STATUS 2 and FABRIC SUB 0 (R357) -/
  | collTimeout (vf : Nat) (comm : Nat) (seq : Nat) (ctx : Nat)
  /-- REMOTE_PUT_ARRIVAL: A put from another device is written at its destination in the target context (R357); `src` is its endpoint and number, `dst` its context and address, and `data` its bytes and their poison markers -/
  | remotePutArrival (src : Nat × Nat) (dst : Nat × W64) (data : List Byte × List Byte)
  /-- REMOTE_SIGNAL_ARRIVAL: A signal from another device is performed as an atomic on the target word (R360); `src` and `dst` are as of a put -/
  | remoteSignalArrival (src : Nat × Nat) (dst : Nat × W64) (value : W64) (add : Bool)
  /-- CWAIT_REREAD: A waiting CWAIT re-reads its word on invalidation or every 1,000 ticks and completes when its condition holds (R361) -/
  | cwaitReread (g : Nat) (lane : Nat)
  /-- STEP_APPLY: At the requested time a track applies a STEP ratio and returns the granted ratio (R363) -/
  | stepApply (core : Nat) (track : Nat)
  /-- BUCKET_REFILL: Every 1,024 clocks a core port refills its VF token buckets from the pool (R371) -/
  | bucketRefill (core : Nat)
  /-- VF_BRINGUP: The supervisor brings up a VF and a fresh owner key is generated (R372) -/
  | vfBringup (vf : Nat) (part : List Nat) (queues : List (List W64))
  /-- VF_TEARDOWN: The supervisor revokes a VF's key, raises its halt lines and frees its resources (R375) -/
  | vfTeardown (vf : Nat)
  /-- ALLOWANCE_RECLAIM: 100 µs after teardown the VF's send allowances and reply reservations are reclaimed (R375) -/
  | allowanceReclaim (vf : Nat)
  /-- QUARANTINE_END: 10 ms after teardown the VF number leaves quarantine (R375) -/
  | quarantineEnd (vf : Nat)
  /-- DEAD_OWNER_PACKET: A packet or reply bearing a dead owner tag is dropped and reported to the supervisor ring (R375) -/
  | deadOwnerPacket (vf : Nat) (info : W64)
  /-- UNCORRECTABLE_MEMORY_ERROR: An uncorrectable memory error marks the line poisoned and is reported (R373) -/
  | uncorrectableMemoryError (addr : Nat)
  /-- CORRECTED_MEMORY_ERROR: A corrected memory error is reported to the ring (R373) -/
  | correctedMemoryError (addr : Nat)
  /-- PALLOW_SET_WRITE: Power firmware writes SET; a raise takes effect in EFF at once (R376) -/
  | pallowSetWrite (watts : Nat)
  /-- PALLOW_TRIP_CLEAR: Firmware writes 1 to TRIP to clear it (R376) -/
  | pallowTripClear (mask : Nat)
  /-- ALLOWANCE_CUT: Within 100 µs of a cut of SET, EFF moves down to SET (R376) -/
  | allowanceCut
  /-- POWER_CONTROL_STEP: Every 10 µs power is compared with EFF and grant rates and ratio ceilings move (R377) -/
  | powerControlStep (milliwatts : Nat)
  /-- CURRENT_LIMITER: Power over EFF by 10% for 20 µs forces GR to 2 on every track (R377) -/
  | currentLimiter (milliwatts : Nat)
  /-- RATIO_CHANGE: A change of a track's ratio takes effect at the next 16-clock boundary (R379) -/
  | ratioChange (core : Nat) (track : Nat)
  /-- ENERGY_CHARGE: Every 1,024 clocks tracks and ports charge energy to grids (R380) -/
  | energyCharge (charges : List (Nat × Nat))
  /-- ENERGY_SCALING: Every 1 ms the interval's charges are scaled to the measured energy (R380) -/
  | energyScaling (microjoules : Nat)
  /-- SRAM_RAIL_STEP: Every 100 ms a die lowers or raises its SRAM rail by its corrected-error count (R381); `corrected` is that count and those of single cores -/
  | sramRailStep (die : Nat) (corrected : Nat × List (Nat × Nat))
  /-- UNCORRECTABLE_SRAM_ERROR: An uncorrectable SRAM error returns the rail to nominal and holds it (R381) -/
  | uncorrectableSramError (die : Nat) (core : Nat) (array : Nat) (va : W64)
  /-- RAIL_HOLD_END: One second after an uncorrectable SRAM error the rail hold ends (R381) -/
  | railHoldEnd (die : Nat)
  /-- HBM_TEMPERATURE_SAMPLE: Every 1 ms each stack's temperature sets refresh rate, bandwidth cap and TRIP (R382) -/
  | hbmTemperatureSample (die : Nat) (stack : Nat) (degrees : Nat)
  /-- DIE_THERMAL_TRIP: A compute die at 110 °C sets TRIP and forces CEIL to 4/16 until below 100 °C (R382) -/
  | dieThermalTrip (die : Nat)
  /-- HEARTBEAT_WRITE: Firmware writes PHB, clearing HUNG and restoring EFF to SET (R383) -/
  | heartbeatWrite
  /-- HEARTBEAT_MISS: After 2 ms with no PHB write HUNG is set and EFF decays to its floor (R383) -/
  | heartbeatMiss
  /-- CORE_RETIREMENT: A failing core halts its contexts, saves state, and a spare takes its number (R384) -/
  | coreRetirement (core : Nat)
  /-- HBM_CHANNEL_SPARING: A failing HBM channel is drained into the spare channel (R385); `channel` is its number and the addresses that cannot be read -/
  | hbmChannelSparing (die : Nat) (stack : Nat) (channel : Nat × List Nat)
  /-- LLC_WAY_DISABLE: An LLC way that shows errors is written back and disabled (R385); `way` is its set group and its number -/
  | llcWayDisable (die : Nat) (way : Nat × Nat)
  /-- CAUSEWAY_LANE_SPARE: A failed Causeway lane is replaced by the spare lane (R385); `lane` is its direction and its number -/
  | causewayLaneSpare (port : Nat) (lane : Nat × Nat)
  /-- PORT_FAILOVER: A failed Ultra Ethernet port's flows move to the remaining ports (R351) -/
  | portFailover (port : Nat)
  /-- COLD_RESET: A cold reset brings the module up through rails, boot, self-test, training and VF bring-up (R386) -/
  | coldReset
  /-- RAIL_POWER_DOWN: Powering down a rail ends every context and requires a cold reset (R387) -/
  | railPowerDown
  /-- LEASEW_WRITE: The supervisor writes track weights, effective for admissions from the next clock (R104) -/
  | leasewWrite (core : Nat) (value : W32)
  /-- DFW_WRITE: The supervisor writes a die firewall, own-die bits staying 1 (R367) -/
  | dfwWrite (die : Nat) (value : W32)
  /-- VUES_CLEAR: The tenant writes 1 to VUES status bits to clear them (R374) -/
  | vuesClear (vf : Nat) (value : W32)
  /-- VOVF_CLEAR: A write of any value clears VOVF (R374) -/
  | vovfClear (vf : Nat) (value : W32)
  /-- REGISTER_WRITE: Supervisor or firmware write to a device register with no row of its own, reserved bits ignored (R11) -/
  | registerWrite (reg : Nat) (index : Nat) (value : W64)
  /-- PENDING_RESULT_RETIRE: A vector, SFU, accumulator or cross-lane result retires after its latency, releasing its interlock, setting flags, or raising a trapping SFU exception (R195) -/
  | pendingResultRetire (core : Nat) (res : Nat)
  /-- CONTEXT_SETUP: The supervisor sets up a context with its page-table root, stop area, scratch window reading 0 and stop-area SEQ at 0 (R197) -/
  | contextSetup (ctx : Nat) (vf : Nat) (ptroot : W64) (stopa : W64) (scratch : Nat) (lockLimit : Nat) (tvec : W64)
  /-- RDMA_ACCESS: A remote host reads or writes device memory by RDMA, for example appending launch records and writing TAIL (R90) -/
  | rdmaAccess (vf : Nat) (addr : Nat) (len : Nat) (data : List Byte)
  /-- REMOTE_MESSAGE_DROPPED: A remote command message with a malformed KIND or from an unbound endpoint is answered with status 2 or 4, dropped, and counted as TYPE 9 where bound checks fail (R352); `kind` is its KIND, its reserved bytes and its body -/
  | remoteMessageDropped (vf : Nat) (endpoint : Nat) (id : Nat) (kind : Nat × Nat × List Byte)
  /-- TAG_CHECK_FAILURE: A Causeway packet on a confidential page fails its GCM tag check and is resent, the third failure ending the request with FABRIC SUB 1 (R350); `request` is its number and lane -/
  | tagCheckFailure (core : Nat) (request : Nat × Nat)
  /-- CSIG_REPLY: The reply or error for an outstanding CSIG signal lands, ending the request the fabric skid waits for (R360) -/
  | csigReply (id : Nat) (status : Nat)
  /-- CSIG_TIMEOUT: A CSIG signal with no reply after 2,000,000 ticks is abandoned with a deferred FABRIC trap (R360) -/
  | csigTimeout (id : Nat)
  /-- DIE_THERMAL_RECOVERY: A compute die that tripped at 110 °C falls below 100 °C and its forced ceiling of 4/16 is lifted (R382) -/
  | dieThermalRecovery (die : Nat)
  deriving DecidableEq, Repr

end Sys2Proof
end

