-- ==== Sys2Proof/WellFormed.lean ====
section
/-! DEFINITION. When an instruction is well formed: the registers each field names and the classes it accepts (R56, R57), and the checks
of R62 that concern the values of fields. -/

namespace Sys2Proof

/-- The reasons for which a word is ILLEGAL, in the order in which R62 lists them after a prefix sequence. -/
inductive Reason where
  /-- A prefix sequence that R45 marks ILLEGAL. -/
  | prefixSequence
  /-- A base opcode byte that R61 marks reserved. -/
  | opcode
  /-- An fn value that R61 or the entry does not assign. -/
  | fn
  /-- A non-zero reserved field, OPX rm = 7 and A-format scope 5 to 7 among them. -/
  | reserved
  /-- A type or conversion code, or another code of the entry, that the instruction does not accept. -/
  | typeCode
  /-- Register code 127. -/
  | code127
  /-- A register outside the class of its field (R57); for a source, the class its entry gives (DEDUCED, log entry 9). -/
  | registerClass
  /-- An odd v code for a 64-bit operand. -/
  | oddPair
  /-- A v code of a 16-byte access that is not a multiple of 4. -/
  | quad
  /-- A base field that holds neither k nor z. -/
  | base
  /-- A w or handle field with its high bits set. -/
  | highBits
  deriving DecidableEq, Repr

/-- The place of a reason in the order of R62. -/
def Reason.rank : Reason → Nat
  | .prefixSequence => 0 | .opcode => 1 | .fn => 2 | .reserved => 3 | .typeCode => 4 | .code127 => 5
  | .registerClass => 6 | .oddPair => 7 | .quad => 8 | .base => 9 | .highBits => 10

/-- One check of R62: the reason it reports, the field code of R133 and whether it is passed. -/
structure Check where
  reason : Reason
  field : Nat
  ok : Bool
  deriving DecidableEq, Repr

/-- The classes of registers a field may name (R56, R57). -/
inductive Cls where
  /-- Any source of R146: v, k, q, z or codes 121 to 126. -/
  | src
  /-- A scalar source: k, z or codes 121 to 126 (R83). -/
  | ksrc
  /-- A VBCAST source, the same codes (R161). -/
  | bcast
  /-- k0 to k15. -/
  | k
  /-- k or z. -/
  | kz
  /-- v. -/
  | v
  /-- v or z. -/
  | vz
  /-- q0 to q7. -/
  | qs
  /-- q or z. -/
  | qz
  /-- v, k or z. -/
  | vkz
  /-- A base field: k or z (R48). -/
  | bs
  /-- An accumulator index (R177). -/
  | w
  deriving DecidableEq, Repr

/-- Whether a class contains a register code. -/
def Cls.has (c : Cls) (n : Nat) : Bool :=
  match c with
  | .src => n < 127
  | .ksrc => (96 ≤ n && n ≤ 111) || (120 ≤ n && n ≤ 126)
  | .bcast => (96 ≤ n && n ≤ 111) || (120 ≤ n && n ≤ 126)
  | .k => 96 ≤ n && n ≤ 111
  | .kz => (96 ≤ n && n ≤ 111) || n = 120
  | .v => n < 96
  | .vz => n < 96 || n = 120
  | .qs => 112 ≤ n && n ≤ 119
  | .qz => 112 ≤ n && n ≤ 120
  | .vkz => n < 112 || n = 120
  | .bs => (96 ≤ n && n ≤ 111) || n = 120
  | .w => n < 16

/-- A register that an instruction names in one of its fields. -/
structure Operand where
  /-- The register code, or the index of an accumulator register. -/
  code : Nat
  /-- The field code of R133. -/
  field : Nat
  /-- The operand position of R53: 0 for a, 1 for b, 2 for c. -/
  pos : Option Nat
  cls : Cls
  /-- How many consecutive v registers it names: 1, 2 for a 64-bit operand, 4 for a 16-byte access (R57). -/
  rows : Nat
  read : Bool
  write : Bool
  deriving DecidableEq, Repr

/-- A d field that is written. -/
def dst (d : BitVec n) (c : Cls) (r : Nat) : Operand := ⟨d.toNat, 3, none, c, r, false, true⟩
/-- A d field that is read. -/
def rdD (d : BitVec n) (c : Cls) (r : Nat) : Operand := ⟨d.toNat, 3, none, c, r, true, false⟩
/-- A d field that is read and written. -/
def rwD (d : BitVec n) (c : Cls) (r : Nat) : Operand := ⟨d.toNat, 3, none, c, r, true, true⟩
/-- The d field of ACAS, the compare value in position c (R53). -/
def rwC (d : BitVec n) (c : Cls) (r : Nat) : Operand := ⟨d.toNat, 3, some 2, c, r, true, true⟩
/-- A source in the a field. -/
def srcA (a : BitVec n) (c : Cls) (r : Nat) : Operand := ⟨a.toNat, 0, some 0, c, r, true, false⟩
/-- A register in the a field that is read and written. -/
def srcAW (a : BitVec n) (c : Cls) (r : Nat) : Operand := ⟨a.toNat, 0, some 0, c, r, true, true⟩
/-- A source in the b field that an IMX never replaces (R49). -/
def srcB (b : BitVec n) (c : Cls) (r : Nat) : Operand := ⟨b.toNat, 1, some 1, c, r, true, false⟩
/-- A source in the b field, which an IMX replaces by an immediate (R49). -/
def immB (m : Mods) (b : BitVec n) (c : Cls) (r : Nat) : List Operand := if m.imx.isSome then [] else [srcB b c r]
/-- The fourth operand: the c field of the OPX, or d without one (R53). -/
def srcC (m : Mods) (d : BitVec 7) (c : Cls) (r : Nat) : Operand :=
  match m.opx with
  | some o => ⟨o.c.toNat, 2, some 2, c, r, true, false⟩
  | none => ⟨d.toNat, 3, none, c, r, true, false⟩
/-- The base of the M and MF layouts (R48). -/
def base (b : BitVec 7) : Operand := ⟨b.toNat, 5, some 0, .bs, 1, true, false⟩
/-- The kbase of the A layout (R48). -/
def kbase (k : BitVec 4) : Operand := ⟨96 + k.toNat, 5, some 0, .k, 1, true, false⟩
/-- The data of a store, the d/s field in position b (R53). -/
def data (d : BitVec 7) (c : Cls) (r : Nat) : Operand := ⟨d.toNat, 3, some 1, c, r, true, false⟩
/-- A predicate that another field selects. -/
def selQ (q : BitVec 3) : Operand := ⟨112 + q.toNat, 9, none, .qs, 1, true, false⟩
/-- The eight predicates, which KFROMQ reads. -/
def allQ : List Operand := (upTo 8).map (fun i => ⟨112 + i, 9, none, .qs, 1, true, false⟩)
/-- The register whose tags GTEST, GCHK and PTEST test, by the form in b (R240). -/
def tagA (a s : BitVec 7) : Operand :=
  if s = 1#7 then srcA a .v 2 else if s = 2#7 then srcA a .w 1 else srcA a .src 1
/-- The register whose tags GACC and GDEM change (R240). -/
def tagAW (a s : BitVec 7) : Operand :=
  if s = 1#7 then srcAW a .v 2 else if s = 2#7 then srcAW a .w 1 else srcAW a .src 1
/-- The data of STS (R242). -/
def stsData (d : BitVec 7) (w : BitVec 3) : Operand :=
  if w = 4#3 then data d .v 4 else if w = 3#3 then data d .src 2 else data d .src 1

/-- Rows of an operand of an integer type (R57, R59). -/
def ityRows (t : BitVec 3) : Nat := if t = 3#3 ∨ t = 7#3 then 2 else 1
/-- Rows of an operand of a floating-point type 0 to 3 (R57, R59). -/
def ftyRows (t : BitVec 2) : Nat := if t = 0#2 then 2 else 1
/-- Rows of an operand of any floating-point type code. -/
def ftyRows3 (t : BitVec 3) : Nat := if t = 0#3 then 2 else 1
/-- Rows where one bit selects the 64-bit form. -/
def rows64 (w : BitVec 1) : Nat := if w = 1#1 then 2 else 1
/-- Ones in the path mask of XFENCE. -/
def ones5 (p : BitVec 5) : Nat := ((upTo 5).filter (fun i => bitAt p.toNat i)).length
/-- The operand types MMA accepts (R321). -/
def mmaTypes (y : BitVec 2) (x : BitVec 3) : Bool :=
  (x = 1 || x = 2 || x = 3 || x = 4 || x = 7) && (y = 0 || (y = 1 && (x = 1 || x = 2)))
/-- The number an SRD or SWR names: its imm7, or with IMX the extended immediate (R49, R140). -/
def sysImm (m : Mods) (n : BitVec 7) : BitVec 31 :=
  match m.imx with | some x => x ++ n | none => n.signExtend 31
/-- Whether it is a number of the table of R140. -/
def sysNumber (m : Mods) (n : BitVec 7) : Bool :=
  (sysImm m n).toNat ≤ 9 || (0x10 ≤ (sysImm m n).toNat && (sysImm m n).toNat ≤ 0x19)

/-- The registers an instruction names, but for its mask predicate (R56, R57 and the entries). The source of KHI and KTOQ admits codes 120 to 126, as that of
KMOV does (R88, log entry 117). -/
def Instr.operands : Instr → List Operand
  | .nop _ => []
  | .bra _ _ => []
  | .brq _ q _ _ => [selQ q]
  | .jmp _ _ a => [srcA a .k 1]
  | .call _ _ => []
  | .callr _ _ a => [srcA a .k 1]
  | .ret _ => []
  | .jct _ => []
  | .fork _ _ d a b => [dst d .kz 1, srcA a .k 1, srcB b .k 1]
  | .quit _ => []
  | .yield _ => []
  | .win _ _ => []
  | .winK _ a => [srcA a .k 1]
  | .wadd _ _ => []
  | .kli _ d _ => [dst d .kz 1]
  | .khi _ _ d a _ => [dst d .kz 1, srcA a .ksrc 1]
  | .kmov _ d a => [dst d .kz 1, srcA a .ksrc 1]
  | .kadd mods _ d a b => [dst d .kz 1, srcA a .ksrc 1] ++ immB mods b .ksrc 1
  | .ksub mods _ d a b => [dst d .kz 1, srcA a .ksrc 1] ++ immB mods b .ksrc 1
  | .kmul mods _ d a b => [dst d .kz 1, srcA a .ksrc 1] ++ immB mods b .ksrc 1
  | .kmulh mods _ d a b => [dst d .kz 1, srcA a .ksrc 1] ++ immB mods b .ksrc 1
  | .kdiv mods _ d a b => [dst d .kz 1, srcA a .ksrc 1] ++ immB mods b .ksrc 1
  | .krem mods _ d a b => [dst d .kz 1, srcA a .ksrc 1] ++ immB mods b .ksrc 1
  | .kand mods d a b => [dst d .kz 1, srcA a .ksrc 1] ++ immB mods b .ksrc 1
  | .kor mods d a b => [dst d .kz 1, srcA a .ksrc 1] ++ immB mods b .ksrc 1
  | .kxor mods d a b => [dst d .kz 1, srcA a .ksrc 1] ++ immB mods b .ksrc 1
  | .kshl mods _ d a b => [dst d .kz 1, srcA a .ksrc 1] ++ immB mods b .ksrc 1
  | .kshr mods _ d a b => [dst d .kz 1, srcA a .ksrc 1] ++ immB mods b .ksrc 1
  | .ksra mods _ d a b => [dst d .kz 1, srcA a .ksrc 1] ++ immB mods b .ksrc 1
  | .kmin mods _ d a b => [dst d .kz 1, srcA a .ksrc 1] ++ immB mods b .ksrc 1
  | .kmax mods _ d a b => [dst d .kz 1, srcA a .ksrc 1] ++ immB mods b .ksrc 1
  | .kcmp mods _ d a b => [dst d .qz 1, srcA a .ksrc 1] ++ immB mods b .ksrc 1
  | .ksel mods q d a b => [dst d .kz 1, selQ q, srcA a .ksrc 1] ++ immB mods b .ksrc 1
  | .kclz _ _ d a => [dst d .kz 1, srcA a .ksrc 1]
  | .kpopc _ _ d a => [dst d .kz 1, srcA a .ksrc 1]
  | .kfromv _ f d a => [dst d .kz 1] ++ [srcA a .v (if f = 2#3 then 2 else 1)]
  | .kfromq _ _ d => [dst d .kz 1] ++ allQ
  | .ktoq _ _ d a => [dst d .qz 1, srcA a .ksrc 1]
  | .waitc _ _ _ _ _ => []
  | .gbar _ => []
  | .tarr _ d => [dst d .kz 1]
  | .twait _ => []
  | .mbar _ => []
  | .lease _ d _ => [dst d .kz 1]
  | .leaseK _ d a => [dst d .kz 1, srcA a .k 1]
  | .leaseRd _ d => [dst d .kz 1]
  | .lnch mods d a b => [dst d .kz 1, srcA a .k 1] ++ immB mods b .k 1
  | .trap _ _ => []
  | .assertQ _ _ a b => [srcA a .qs 1, srcB b .kz 1]
  | .tret _ => []
  | .tmsk _ d _ => [dst d .kz 1]
  | .srd _ d _ => [dst d .kz 1]
  | .swr _ a _ => [srcA a .k 1]
  | .swrOr _ a _ => [srcA a .k 1]
  | .swrClr _ a _ => [srcA a .k 1]
  | .brk _ _ => []
  | .halt _ => []
  | .vadd mods t d a b => [dst d .vz (ityRows t), srcA a .src (ityRows t)] ++ immB mods b .src (ityRows t)
  | .vsub mods t d a b => [dst d .vz (ityRows t), srcA a .src (ityRows t)] ++ immB mods b .src (ityRows t)
  | .vmul mods t d a b => [dst d .vz (ityRows t), srcA a .src (ityRows t)] ++ immB mods b .src (ityRows t)
  | .vmulh mods t d a b => [dst d .vz (ityRows t), srcA a .src (ityRows t)] ++ immB mods b .src (ityRows t)
  | .vmad mods t d a b => [dst d .vz (ityRows t), srcA a .src (ityRows t)] ++ immB mods b .src (ityRows t) ++ [srcC mods d .src (ityRows t)]
  | .vdiv mods t d a b => [dst d .vz (ityRows t), srcA a .src (ityRows t)] ++ immB mods b .src (ityRows t)
  | .vrem mods t d a b => [dst d .vz (ityRows t), srcA a .src (ityRows t)] ++ immB mods b .src (ityRows t)
  | .vmin mods t d a b => [dst d .vz (ityRows t), srcA a .src (ityRows t)] ++ immB mods b .src (ityRows t)
  | .vmax mods t d a b => [dst d .vz (ityRows t), srcA a .src (ityRows t)] ++ immB mods b .src (ityRows t)
  | .vabs _ t d a => [dst d .vz (ityRows t), srcA a .src (ityRows t)]
  | .vand mods t d a b => [dst d .vz (ityRows t), srcA a .src (ityRows t)] ++ immB mods b .src (ityRows t)
  | .vor mods t d a b => [dst d .vz (ityRows t), srcA a .src (ityRows t)] ++ immB mods b .src (ityRows t)
  | .vxor mods t d a b => [dst d .vz (ityRows t), srcA a .src (ityRows t)] ++ immB mods b .src (ityRows t)
  | .vnot _ t d a => [dst d .vz (ityRows t), srcA a .src (ityRows t)]
  | .vshl mods t d a b => [dst d .vz (ityRows t), srcA a .src (ityRows t)] ++ immB mods b .src 1
  | .vshr mods t d a b => [dst d .vz (ityRows t), srcA a .src (ityRows t)] ++ immB mods b .src 1
  | .vsra mods t d a b => [dst d .vz (ityRows t), srcA a .src (ityRows t)] ++ immB mods b .src 1
  | .vrot mods t d a b => [dst d .vz (ityRows t), srcA a .src (ityRows t)] ++ immB mods b .src 1
  | .vclz _ t d a => [dst d .vz 1, srcA a .src (ityRows t)]
  | .vpopc _ t d a => [dst d .vz 1, srcA a .src (ityRows t)]
  | .vbrev _ t d a => [dst d .vz (ityRows t), srcA a .src (ityRows t)]
  | .vsel mods q d a b => [dst d .vz 1, selQ q, srcA a .src 1] ++ immB mods b .src 1
  | .vmov _ w d a => [dst d .vz (rows64 w), srcA a .src (rows64 w)]
  | .vli _ d _ => [dst d .vz 1]
  | .vliHi _ d _ => [rwD d .vz 1]
  | .vcmpEq mods t d a b => [dst d .qz 1, srcA a .src (ityRows t)] ++ immB mods b .src (ityRows t)
  | .vcmpNe mods t d a b => [dst d .qz 1, srcA a .src (ityRows t)] ++ immB mods b .src (ityRows t)
  | .vcmpLt mods t d a b => [dst d .qz 1, srcA a .src (ityRows t)] ++ immB mods b .src (ityRows t)
  | .vcmpLe mods t d a b => [dst d .qz 1, srcA a .src (ityRows t)] ++ immB mods b .src (ityRows t)
  | .vcmpGt mods t d a b => [dst d .qz 1, srcA a .src (ityRows t)] ++ immB mods b .src (ityRows t)
  | .vcmpGe mods t d a b => [dst d .qz 1, srcA a .src (ityRows t)] ++ immB mods b .src (ityRows t)
  | .vbcast _ w d a => [dst d .vz (rows64 w), srcA a .bcast 1]
  | .vcvti _ t d a s => [dst d .vz (ityRows t), srcA a .src (ityRows s)]
  | .qand _ d a b => [dst d .qz 1, srcA a .qz 1, srcB b .qz 1]
  | .qor _ d a b => [dst d .qz 1, srcA a .qz 1, srcB b .qz 1]
  | .qxor _ d a b => [dst d .qz 1, srcA a .qz 1, srcB b .qz 1]
  | .qnot _ d a => [dst d .qz 1, srcA a .qz 1]
  | .qmov _ d a => [dst d .qz 1, srcA a .qz 1]
  | .fadd mods t d a b => [dst d .vz (ftyRows t), srcA a .src (ftyRows t)] ++ immB mods b .src (ftyRows t)
  | .fsub mods t d a b => [dst d .vz (ftyRows t), srcA a .src (ftyRows t)] ++ immB mods b .src (ftyRows t)
  | .fmul mods t d a b => [dst d .vz (ftyRows t), srcA a .src (ftyRows t)] ++ immB mods b .src (ftyRows t)
  | .ffma mods t d a b => [dst d .vz (ftyRows t), srcA a .src (ftyRows t)] ++ immB mods b .src (ftyRows t) ++ [srcC mods d .src (ftyRows t)]
  | .fmin mods t d a b => [dst d .vz (ftyRows t), srcA a .src (ftyRows t)] ++ immB mods b .src (ftyRows t)
  | .fmax mods t d a b => [dst d .vz (ftyRows t), srcA a .src (ftyRows t)] ++ immB mods b .src (ftyRows t)
  | .fsgn mods t d a b => [dst d .vz (ftyRows t), srcA a .src (ftyRows t)] ++ immB mods b .src (ftyRows t)
  | .fsgnNeg mods t d a b => [dst d .vz (ftyRows t), srcA a .src (ftyRows t)] ++ immB mods b .src (ftyRows t)
  | .fsgnXor mods t d a b => [dst d .vz (ftyRows t), srcA a .src (ftyRows t)] ++ immB mods b .src (ftyRows t)
  | .fcmpEq mods t d a b => [dst d .qz 1, srcA a .src (ftyRows t)] ++ immB mods b .src (ftyRows t)
  | .fcmpNe mods t d a b => [dst d .qz 1, srcA a .src (ftyRows t)] ++ immB mods b .src (ftyRows t)
  | .fcmpLt mods t d a b => [dst d .qz 1, srcA a .src (ftyRows t)] ++ immB mods b .src (ftyRows t)
  | .fcmpLe mods t d a b => [dst d .qz 1, srcA a .src (ftyRows t)] ++ immB mods b .src (ftyRows t)
  | .fcmpGt mods t d a b => [dst d .qz 1, srcA a .src (ftyRows t)] ++ immB mods b .src (ftyRows t)
  | .fcmpGe mods t d a b => [dst d .qz 1, srcA a .src (ftyRows t)] ++ immB mods b .src (ftyRows t)
  | .fcmpUn mods t d a b => [dst d .qz 1, srcA a .src (ftyRows t)] ++ immB mods b .src (ftyRows t)
  | .fcmpOr mods t d a b => [dst d .qz 1, srcA a .src (ftyRows t)] ++ immB mods b .src (ftyRows t)
  | .fclass _ t d a => [dst d .vz 1, srcA a .src (ftyRows t)]
  | .fcvt _ f d a s => [dst d .vz (ftyRows3 f), srcA a .src (ftyRows3 s)]
  | .fcvtToInt _ f d a s => [dst d .vz (ityRows f), srcA a .src (ftyRows3 s)]
  | .fcvtFromInt _ f d a s => [dst d .vz (ftyRows3 f), srcA a .src (ityRows s)]
  | .frnd _ t d a => [dst d .vz (ftyRows t), srcA a .src (ftyRows t)]
  | .hadd2 mods _ d a b => [dst d .vz 1, srcA a .src 1] ++ immB mods b .src 1
  | .hmul2 mods _ d a b => [dst d .vz 1, srcA a .src 1] ++ immB mods b .src 1
  | .hfma2 mods _ d a b => [dst d .vz 1, srcA a .src 1] ++ immB mods b .src 1 ++ [srcC mods d .src 1]
  | .hcmp2 mods _ _ d a b => [dst d .vz 1, srcA a .src 1] ++ immB mods b .src 1
  | .srcp _ _ d a => [dst d .vz 1, srcA a .src 1]
  | .srsq _ _ d a => [dst d .vz 1, srcA a .src 1]
  | .ssqrt _ _ d a => [dst d .vz 1, srcA a .src 1]
  | .sexp2 _ _ d a => [dst d .vz 1, srcA a .src 1]
  | .slog2 _ _ d a => [dst d .vz 1, srcA a .src 1]
  | .ssin _ _ d a => [dst d .vz 1, srcA a .src 1]
  | .scos _ _ d a => [dst d .vz 1, srcA a .src 1]
  | .stanh _ _ d a => [dst d .vz 1, srcA a .src 1]
  | .wmad mods _ w a b => [rwD w .w 1, srcA a .src 1] ++ immB mods b .src 1
  | .wdot4 mods _ w a b => [rwD w .w 1, srcA a .src 1] ++ immB mods b .src 1
  | .waddAccumulator _ _ d a b => [rwD d .w 1, srcA a .w 1, srcB b .w 1]
  | .wclr _ d => [dst d .w 1]
  | .narrow _ f d a => [dst d .vz (rows64 (bit (f = 0#3))), srcA a .w 1]
  | .widen _ f d a => [dst d .w 1, srcA a .src (rows64 (bit (f = 0#3)))]
  | .shfl mods w d a b => [dst d .vz (rows64 w), srcA a .src (rows64 w)] ++ immB mods b .src 1
  | .shflx mods w d a b => [dst d .vz (rows64 w), srcA a .src (rows64 w)] ++ immB mods b .src 1
  | .shflu mods w d a b => [dst d .vz (rows64 w), srcA a .src (rows64 w)] ++ immB mods b .src 1
  | .shfld mods w d a b => [dst d .vz (rows64 w), srcA a .src (rows64 w)] ++ immB mods b .src 1
  | .vote _ _ d a => [dst d .vz 1, srcA a .qs 1]
  | .redg _ _ d a => [dst d .vz 1, srcA a .src 1]
  | .scang _ _ d a => [dst d .vz 1, srcA a .src 1]
  | .matchLanes _ f d a => [dst d .vz 1, srcA a .src (rows64 f)]
  | .vkey _ t d a => [dst d .vz (ftyRows t), srcA a .src (ftyRows t)]
  | .ldN8 _ _ d b _ _ => [dst d .vz 1, base b]
  | .ldS8 _ _ d b _ _ => [dst d .vz 1, base b]
  | .ldN16 _ _ d b _ _ => [dst d .vz 1, base b]
  | .ldS16 _ _ d b _ _ => [dst d .vz 1, base b]
  | .ld32 _ _ d b _ _ => [dst d .vz 1, base b]
  | .ld64 _ _ d b _ _ => [dst d .vz 2, base b]
  | .ldv _ _ d b _ _ => [dst d .vz 4, base b]
  | .ldk _ _ d b _ _ => [dst d .kz 1, base b]
  | .ldx _ _ d b _ _ => [dst d .vz 1, base b]
  | .pf _ _ b _ _ => [base b]
  | .lds _ f d b _ => [dst d .vz (if f = 5#3 then 2 else 1), base b]
  | .gtest _ d a s => [dst d .qz 1] ++ [tagA a s]
  | .gacc _ a s => [tagAW a s]
  | .gdem _ a s => [tagAW a s]
  | .gchk _ d a s => [dst d .qz 1] ++ [tagA a s]
  | .ptest _ d a s => [dst d .qz 1] ++ [tagA a s]
  | .st _ w d b _ _ => [data d .src (if w = 3#2 then 2 else 1), base b]
  | .stv _ d b _ _ => [data d .v 4, base b]
  | .stg _ w d b _ _ => [data d .src (if w = 3#2 then 2 else 1), base b]
  | .sts _ w d b _ => [base b] ++ [stsData d w]
  | .aadd mods w d k _ b => [dst d .vkz (rows64 w), kbase k] ++ immB mods b .src (rows64 w)
  | .amin mods w d k _ b => [dst d .vkz (rows64 w), kbase k] ++ immB mods b .src (rows64 w)
  | .amax mods w d k _ b => [dst d .vkz (rows64 w), kbase k] ++ immB mods b .src (rows64 w)
  | .aand mods w d k _ b => [dst d .vkz (rows64 w), kbase k] ++ immB mods b .src (rows64 w)
  | .aor mods w d k _ b => [dst d .vkz (rows64 w), kbase k] ++ immB mods b .src (rows64 w)
  | .axor mods w d k _ b => [dst d .vkz (rows64 w), kbase k] ++ immB mods b .src (rows64 w)
  | .axchg mods w d k _ b => [dst d .vkz (rows64 w), kbase k] ++ immB mods b .src (rows64 w)
  | .acas mods w d k _ b => [rwC d .vkz (rows64 w), kbase k] ++ immB mods b .src (rows64 w)
  | .aminN mods w d k _ b => [dst d .vkz (rows64 w), kbase k] ++ immB mods b .src (rows64 w)
  | .amaxN mods w d k _ b => [dst d .vkz (rows64 w), kbase k] ++ immB mods b .src (rows64 w)
  | .afadd mods w d k _ b => [dst d .vkz (rows64 w), kbase k] ++ immB mods b .src (rows64 w)
  | .afaddPair mods _ d k _ b => [dst d .vkz 1, kbase k] ++ immB mods b .src 1
  | .ldaq _ w d k _ v => [dst d .vkz (rows64 w), kbase k, srcB v .kz 1]
  | .strl mods w k _ b => [kbase k] ++ immB mods b .src (if w = 3#2 then 2 else 1)
  | .fence _ _ _ => []
  | .rfence _ _ _ a b => [srcA a .k 1, srcB b .k 1]
  | .xfence _ _ _ => []
  | .lock _ d b _ => [dst d .kz 1, base b]
  | .unlock _ d b _ => [dst d .kz 1, base b]
  | .cinv _ b _ => [base b]
  | .cwb _ b _ => [base b]
  | .halloc _ _ _ => []
  | .hrel _ _ => []
  | .hgive _ _ _ _ _ => []
  | .htake _ _ _ => []
  | .hinfo _ k _ => [dst (96#7 + k.setWidth 7) .kz 1]
  | .tld _ _ _ b _ _ => [base b]
  | .tlds _ _ _ b _ _ => [base b]
  | .tsto _ _ b _ _ => [base b]
  | .tsts _ _ b _ _ => [base b]
  | .trd mods _ d _ i => [dst d .vz 1] ++ immB mods i .src 1
  | .twr mods _ _ a i => [srcA a .src 1] ++ immB mods i .src 1
  | .tzero _ _ _ => []
  | .mma _ _ _ _ _ _ => []
  | .mmas _ _ _ _ _ _ => []
  | .mmac _ _ _ _ _ _ => []
  | .tscl _ _ _ _ => []
  | .tacc _ _ _ _ => []
  | .cpy mods _ d a b => [rdD d .k 1, srcA a .k 1] ++ immB mods b .k 1
  | .cpy2 mods _ d a b => [rdD d .k 1, srcA a .k 1, srcB b .k 1] ++ [srcC mods d .k 1]
  | .gath mods _ _ d a b => [rdD d .k 1, srcA a .k 1, srcB b .k 1] ++ [srcC mods d .k 1]
  | .scat mods _ _ d a b => [rdD d .k 1, srcA a .k 1, srcB b .k 1] ++ [srcC mods d .k 1]
  | .cfill mods _ d a b => [rdD d .k 1, srcA a .k 1] ++ immB mods b .k 1
  | .cstat _ d => [dst d .kz 1]
  | .coll _ d a => [dst d .kz 1, srcA a .k 1]
  | .csigAdd mods d a b => [rdD d .k 1, srcA a .k 1] ++ immB mods b .k 1
  | .csigSet mods d a b => [rdD d .k 1, srcA a .k 1] ++ immB mods b .k 1
  | .cwaitRec _ d a => [dst d .kz 1, srcA a .k 1]
  | .cwaitGe mods d a b => [dst d .kz 1, srcA a .k 1] ++ immB mods b .k 1
  | .step mods d a b => [dst d .kz 1, srcA a .k 1] ++ immB mods b .k 1
  | .rpost _ d a b => [dst d .kz 1, srcA a .k 1, srcB b .k 1]
  | .returnFillArrival .. | .junctionRelease .. | .junctionTimeout .. | .barrierArrival .. | .mbarReleaseStep ..
  | .ageCounterExpiry .. | .launchRecordTake .. | .teamPlacement .. | .laybyMove .. | .carriagewayAdmission ..
  | .laybyPending .. | .pendingEviction .. | .leaseWindowEnd .. | .groupEnd .. | .gridEnd .. | .preemptionRequest ..
  | .preemptionTimeout .. | .supervisorStop .. | .haltLineArrival .. | .engineStop .. | .haltCompletion .. | .contextResume ..
  | .contextEnd .. | .pageWalk .. | .translationFaultResolved .. | .translationFaultUnresolved .. | .invalidation ..
  | .biasFlip .. | .deadlineExpiry .. | .loadDataArrival .. | .ticketTruthArrival .. | .storePerformed .. | .atomicPerformed ..
  | .promotionDrain .. | .l1InvalidationArrival .. | .l1FillArrival .. | .hostSharedRequest .. | .hostExclusiveRequest ..
  | .hostWriteBack .. | .hostMemoryAccess .. | .dieLinkRequest .. | .copyPiece .. | .copyRetire .. | .matrixPass ..
  | .tileOperationRetire .. | .causewayAbandon .. | .nodeErrorReply .. | .notifyMessage .. | .launchMessage .. | .rpostReply ..
  | .rpostTimeout .. | .collCompletion .. | .collTimeout .. | .remotePutArrival .. | .remoteSignalArrival .. | .cwaitReread ..
  | .stepApply .. | .bucketRefill .. | .vfBringup .. | .vfTeardown .. | .allowanceReclaim .. | .quarantineEnd ..
  | .deadOwnerPacket .. | .uncorrectableMemoryError .. | .correctedMemoryError .. | .pallowSetWrite .. | .pallowTripClear ..
  | .allowanceCut | .powerControlStep .. | .currentLimiter .. | .ratioChange .. | .energyCharge .. | .energyScaling ..
  | .sramRailStep .. | .uncorrectableSramError .. | .railHoldEnd .. | .hbmTemperatureSample .. | .dieThermalTrip ..
  | .heartbeatWrite | .heartbeatMiss | .coreRetirement .. | .hbmChannelSparing .. | .llcWayDisable .. | .causewayLaneSpare ..
  | .portFailover .. | .coldReset | .railPowerDown | .leasewWrite .. | .dfwWrite .. | .vuesClear .. | .vovfClear ..
  | .registerWrite .. | .pendingResultRetire .. | .contextSetup .. | .rdmaAccess .. | .remoteMessageDropped ..
  | .tagCheckFailure .. | .csigReply .. | .csigTimeout .. | .dieThermalRecovery .. => []

/-- The checks of R62 on the values of an instruction's fields that do not name registers. -/
def Instr.fieldChecks : Instr → List Check
  | .jmp _ f _ => [⟨.fn, 10, decide (f ≤ 1)⟩]
  | .callr _ f _ => [⟨.fn, 10, decide (f ≤ 1)⟩]
  | .fork _ f _ _ _ => [⟨.fn, 10, decide (f ≤ 1)⟩]
  | .kcmp _ c _ _ _ => [⟨.fn, 10, decide (c ≤ 5)⟩]
  | .kfromv _ f _ _ => [⟨.fn, 10, decide (f ≤ 2)⟩]
  | .tmsk mods _ _ => [⟨.typeCode, 12, decide (mods.imx = none ∨ mods.imx = some 0)⟩]
  | .srd mods _ n => [⟨.typeCode, 12, decide (sysNumber mods n)⟩]
  | .swr mods _ n => [⟨.typeCode, 12, decide (sysNumber mods n)⟩]
  | .swrOr mods _ n => [⟨.typeCode, 12, decide (sysNumber mods n)⟩]
  | .swrClr mods _ n => [⟨.typeCode, 12, decide (sysNumber mods n)⟩]
  | .fcvt _ f _ _ s => [⟨.typeCode, 1, decide (s ≤ 5)⟩, ⟨.typeCode, 10, decide (f ≤ 5)⟩]
  | .fcvtToInt _ _ _ _ s => [⟨.typeCode, 1, decide (s ≤ 5)⟩]
  | .fcvtFromInt _ f _ _ _ => [⟨.typeCode, 10, decide (f ≤ 5)⟩]
  | .srcp _ t _ _ => [⟨.typeCode, 10, decide (t ≠ 0)⟩]
  | .srsq _ t _ _ => [⟨.typeCode, 10, decide (t ≠ 0)⟩]
  | .ssqrt _ t _ _ => [⟨.typeCode, 10, decide (t ≠ 0)⟩]
  | .sexp2 _ t _ _ => [⟨.typeCode, 10, decide (t ≠ 0)⟩]
  | .slog2 _ t _ _ => [⟨.typeCode, 10, decide (t ≠ 0)⟩]
  | .ssin _ t _ _ => [⟨.typeCode, 10, decide (t ≠ 0)⟩]
  | .scos _ t _ _ => [⟨.typeCode, 10, decide (t ≠ 0)⟩]
  | .stanh _ t _ _ => [⟨.typeCode, 10, decide (t ≠ 0)⟩]
  | .wdot4 _ f _ _ _ => [⟨.fn, 10, decide (f ≤ 4)⟩]
  | .vote _ f _ _ => [⟨.fn, 10, decide (f ≤ 3)⟩]
  | .lds _ f _ _ _ => [⟨.fn, 10, decide (f ≤ 5)⟩]
  | .gtest _ _ _ s => [⟨.typeCode, 1, decide (s ≤ 2)⟩]
  | .gacc _ _ s => [⟨.typeCode, 1, decide (s ≤ 2)⟩]
  | .gdem _ _ s => [⟨.typeCode, 1, decide (s ≤ 2)⟩]
  | .gchk _ _ _ s => [⟨.typeCode, 1, decide (s ≤ 2)⟩]
  | .ptest _ _ _ s => [⟨.typeCode, 1, decide (s ≤ 2)⟩]
  | .sts _ w _ _ _ => [⟨.fn, 10, decide (w ≤ 4)⟩]
  | .aadd _ _ _ _ s _ => [⟨.reserved, 12, decide (s ≤ 4)⟩]
  | .amin _ _ _ _ s _ => [⟨.reserved, 12, decide (s ≤ 4)⟩]
  | .amax _ _ _ _ s _ => [⟨.reserved, 12, decide (s ≤ 4)⟩]
  | .aand _ _ _ _ s _ => [⟨.reserved, 12, decide (s ≤ 4)⟩]
  | .aor _ _ _ _ s _ => [⟨.reserved, 12, decide (s ≤ 4)⟩]
  | .axor _ _ _ _ s _ => [⟨.reserved, 12, decide (s ≤ 4)⟩]
  | .axchg _ _ _ _ s _ => [⟨.reserved, 12, decide (s ≤ 4)⟩]
  | .acas _ _ _ _ s _ => [⟨.reserved, 12, decide (s ≤ 4)⟩]
  | .aminN _ _ _ _ s _ => [⟨.reserved, 12, decide (s ≤ 4)⟩]
  | .amaxN _ _ _ _ s _ => [⟨.reserved, 12, decide (s ≤ 4)⟩]
  | .afadd _ _ _ _ s _ => [⟨.reserved, 12, decide (s ≤ 4)⟩]
  | .afaddPair _ _ _ _ s _ => [⟨.reserved, 12, decide (s ≤ 4)⟩]
  | .ldaq _ _ _ _ s _ => [⟨.reserved, 12, decide (s ≤ 4)⟩]
  | .strl _ _ _ s _ => [⟨.reserved, 12, decide (s ≤ 4)⟩]
  | .fence _ n s => [⟨.typeCode, 3, decide (n ≤ 2)⟩, ⟨.reserved, 3, decide (s ≤ 4)⟩]
  | .rfence _ n s _ _ => [⟨.typeCode, 3, decide (n ≤ 2)⟩, ⟨.reserved, 3, decide (s ≤ 4)⟩]
  | .xfence _ s p => [⟨.reserved, 3, decide (s ≤ 4)⟩, ⟨.typeCode, 1, decide (2 ≤ ones5 p)⟩]
  | .hgive _ _ _ n _ => [⟨.typeCode, 8, decide (n ≠ 0)⟩]
  | .tld _ f _ _ _ _ => [⟨.fn, 10, decide (f ≠ 6)⟩]
  | .tlds _ f _ _ t _ => [⟨.fn, 10, decide (f ≠ 6)⟩, ⟨.typeCode, 12, decide (¬ (f = 5 ∧ t = 1))⟩]
  | .trd _ f _ _ _ => [⟨.fn, 10, decide (f ≤ 5)⟩]
  | .twr _ f _ _ _ => [⟨.fn, 10, decide (f ≤ 2)⟩]
  | .tzero _ _ m => [⟨.typeCode, 12, decide (m < 8 ∧ m ≠ 6)⟩]
  | .mma _ _ _ _ y x => [⟨.typeCode, 12, decide (mmaTypes y x)⟩]
  | .mmas _ _ _ _ y x => [⟨.typeCode, 12, decide (mmaTypes y x)⟩]
  | .mmac _ _ _ _ _ x => [⟨.typeCode, 12, decide (x = 1 ∨ x = 2)⟩]
  | .cpy _ f _ _ _ => [⟨.fn, 10, decide (f ≤ 3)⟩]
  | .cpy2 _ f _ _ _ => [⟨.fn, 10, decide (f ≤ 3)⟩]
  | .nop .. | .bra .. | .brq .. | .call .. | .ret .. | .jct .. | .quit .. | .yield .. | .win .. | .winK .. | .wadd .. | .kli ..
  | .khi .. | .kmov .. | .kadd .. | .ksub .. | .kmul .. | .kmulh .. | .kdiv .. | .krem .. | .kand .. | .kor .. | .kxor ..
  | .kshl .. | .kshr .. | .ksra .. | .kmin .. | .kmax .. | .ksel .. | .kclz .. | .kpopc .. | .kfromq .. | .ktoq .. | .waitc ..
  | .gbar .. | .tarr .. | .twait .. | .mbar .. | .lease .. | .leaseK .. | .leaseRd .. | .lnch .. | .trap .. | .assertQ ..
  | .tret .. | .brk .. | .halt .. | .vadd .. | .vsub .. | .vmul .. | .vmulh .. | .vmad .. | .vdiv .. | .vrem .. | .vmin ..
  | .vmax .. | .vabs .. | .vand .. | .vor .. | .vxor .. | .vnot .. | .vshl .. | .vshr .. | .vsra .. | .vrot .. | .vclz ..
  | .vpopc .. | .vbrev .. | .vsel .. | .vmov .. | .vli .. | .vliHi .. | .vcmpEq .. | .vcmpNe .. | .vcmpLt .. | .vcmpLe ..
  | .vcmpGt .. | .vcmpGe .. | .vbcast .. | .vcvti .. | .qand .. | .qor .. | .qxor .. | .qnot .. | .qmov .. | .fadd ..
  | .fsub .. | .fmul .. | .ffma .. | .fmin .. | .fmax .. | .fsgn .. | .fsgnNeg .. | .fsgnXor .. | .fcmpEq .. | .fcmpNe ..
  | .fcmpLt .. | .fcmpLe .. | .fcmpGt .. | .fcmpGe .. | .fcmpUn .. | .fcmpOr .. | .fclass .. | .frnd .. | .hadd2 .. | .hmul2 ..
  | .hfma2 .. | .hcmp2 .. | .wmad .. | .waddAccumulator .. | .wclr .. | .narrow .. | .widen .. | .shfl .. | .shflx ..
  | .shflu .. | .shfld .. | .redg .. | .scang .. | .matchLanes .. | .vkey .. | .ldN8 .. | .ldS8 .. | .ldN16 .. | .ldS16 ..
  | .ld32 .. | .ld64 .. | .ldv .. | .ldk .. | .ldx .. | .pf .. | .st .. | .stv .. | .stg .. | .lock .. | .unlock .. | .cinv ..
  | .cwb .. | .halloc .. | .hrel .. | .htake .. | .hinfo .. | .tsto .. | .tsts .. | .tscl .. | .tacc .. | .gath .. | .scat ..
  | .cfill .. | .cstat .. | .coll .. | .csigAdd .. | .csigSet .. | .cwaitRec .. | .cwaitGe .. | .step .. | .rpost .. => []
  | .returnFillArrival .. | .junctionRelease .. | .junctionTimeout .. | .barrierArrival .. | .mbarReleaseStep ..
  | .ageCounterExpiry .. | .launchRecordTake .. | .teamPlacement .. | .laybyMove .. | .carriagewayAdmission ..
  | .laybyPending .. | .pendingEviction .. | .leaseWindowEnd .. | .groupEnd .. | .gridEnd .. | .preemptionRequest ..
  | .preemptionTimeout .. | .supervisorStop .. | .haltLineArrival .. | .engineStop .. | .haltCompletion .. | .contextResume ..
  | .contextEnd .. | .pageWalk .. | .translationFaultResolved .. | .translationFaultUnresolved .. | .invalidation ..
  | .biasFlip .. | .deadlineExpiry .. | .loadDataArrival .. | .ticketTruthArrival .. | .storePerformed .. | .atomicPerformed ..
  | .promotionDrain .. | .l1InvalidationArrival .. | .l1FillArrival .. | .hostSharedRequest .. | .hostExclusiveRequest ..
  | .hostWriteBack .. | .hostMemoryAccess .. | .dieLinkRequest .. | .copyPiece .. | .copyRetire .. | .matrixPass ..
  | .tileOperationRetire .. | .causewayAbandon .. | .nodeErrorReply .. | .notifyMessage .. | .launchMessage .. | .rpostReply ..
  | .rpostTimeout .. | .collCompletion .. | .collTimeout .. | .remotePutArrival .. | .remoteSignalArrival .. | .cwaitReread ..
  | .stepApply .. | .bucketRefill .. | .vfBringup .. | .vfTeardown .. | .allowanceReclaim .. | .quarantineEnd ..
  | .deadOwnerPacket .. | .uncorrectableMemoryError .. | .correctedMemoryError .. | .pallowSetWrite .. | .pallowTripClear ..
  | .allowanceCut | .powerControlStep .. | .currentLimiter .. | .ratioChange .. | .energyCharge .. | .energyScaling ..
  | .sramRailStep .. | .uncorrectableSramError .. | .railHoldEnd .. | .hbmTemperatureSample .. | .dieThermalTrip ..
  | .heartbeatWrite | .heartbeatMiss | .coreRetirement .. | .hbmChannelSparing .. | .llcWayDisable .. | .causewayLaneSpare ..
  | .portFailover .. | .coldReset | .railPowerDown | .leasewWrite .. | .dfwWrite .. | .vuesClear .. | .vovfClear ..
  | .registerWrite .. | .pendingResultRetire .. | .contextSetup .. | .rdmaAccess .. | .remoteMessageDropped ..
  | .tagCheckFailure .. | .csigReply .. | .csigTimeout .. | .dieThermalRecovery .. => []

/-- The prefixes that an instruction accepts: an IMX, and the fields of an OPX (R61; for the forms that do not round or saturate R64, R178, R182, R190). -/
structure Accept where
  /-- An IMX before it is used, or has no effect without a fallback (R49, R64). -/
  imx : Bool
  /-- It accepts an OPX at all. -/
  opx : Bool
  mask : Bool
  rm : Bool
  c : Bool
  sat : Bool
  lu : Bool
  deriving DecidableEq, Repr

/-- The OPX column of R61, and whether an IMX is used or accepted (R49). One before WIN.k, LEASE.k and LEASE.rd, which use no immediate, is accepted and
changes nothing (log entry 115). -/
def Instr.accepts : Instr → Accept
  | .wmad _ f _ _ _ => ⟨true, true, true, decide (f < 3#3), false, true, true⟩
  | .waddAccumulator _ f _ _ _ => ⟨false, true, true, decide (f = 0#1), false, true, true⟩
  | .narrow _ f _ _ => ⟨false, true, true, decide ((f = 1#3 ∨ f = 2#3 ∨ f = 3#3)), false, decide (f ≠ 0#3), true⟩
  | .redg _ f _ _ => ⟨false, true, true, decide (f = 5#3), false, decide ((f = 0#3 ∨ f = 5#3)), true⟩
  | .scang _ f _ _ => ⟨false, true, true, decide (f = 5#3), false, decide ((f = 0#3 ∨ f = 5#3)), true⟩
  | .nop .. | .ret .. | .jct .. | .yield .. | .waitc .. | .gbar .. | .tarr .. | .twait .. | .mbar .. | .assertQ .. | .tret ..
  | .halt .. | .fence .. | .rfence .. | .xfence .. | .halloc .. | .hrel .. | .hgive .. | .htake .. | .hinfo .. | .tzero ..
  | .mma .. | .mmas .. | .mmac .. | .tscl .. | .tacc .. => ⟨false, false, false, false, false, false, false⟩
  | .bra .. | .brq .. | .call .. | .win .. | .winK .. | .wadd .. | .lease .. | .leaseK .. | .leaseRd .. | .trap .. | .tmsk ..
  | .srd .. | .swr .. | .swrOr .. | .swrClr .. | .brk .. | .lock .. | .unlock .. | .cinv .. | .cwb .. | .tld .. | .tlds ..
  | .tsto .. | .tsts .. => ⟨true, false, false, false, false, false, false⟩
  | .jmp .. | .callr .. | .cstat .. | .coll .. | .cwaitRec .. | .rpost .. => ⟨false, true, false, false, false, false, true⟩
  | .fork .. | .kmov .. | .kclz .. | .kpopc .. | .kfromv .. | .kfromq .. | .ktoq .. | .vnot .. | .vclz .. | .vpopc ..
  | .vbrev .. | .vmov .. | .vbcast .. | .fclass .. | .srcp .. | .srsq .. | .ssqrt .. | .sexp2 .. | .slog2 .. | .ssin ..
  | .scos .. | .stanh .. | .widen .. | .matchLanes .. | .vkey .. | .ldaq .. => ⟨false, true, true, false, false, false, true⟩
  | .quit .. | .qand .. | .qor .. | .qxor .. | .qnot .. | .qmov .. | .wclr .. | .vote .. | .gtest .. | .gacc .. | .gdem ..
  | .gchk .. | .ptest .. => ⟨false, true, true, false, false, false, false⟩
  | .kli .. | .khi .. | .vli .. | .vliHi .. | .pf .. => ⟨true, true, true, false, false, false, false⟩
  | .kadd .. | .ksub .. | .kmul .. | .vadd .. | .vsub .. | .vmul .. | .vshl .. | .wdot4 .. => ⟨true, true, true, false, false, true, true⟩
  | .kmulh .. | .kdiv .. | .krem .. | .kand .. | .kor .. | .kxor .. | .kshl .. | .kshr .. | .ksra .. | .kmin .. | .kmax ..
  | .kcmp .. | .ksel .. | .vmulh .. | .vdiv .. | .vrem .. | .vmin .. | .vmax .. | .vand .. | .vor .. | .vxor .. | .vshr ..
  | .vsra .. | .vrot .. | .vsel .. | .vcmpEq .. | .vcmpNe .. | .vcmpLt .. | .vcmpLe .. | .vcmpGt .. | .vcmpGe .. | .fmin ..
  | .fmax .. | .fsgn .. | .fsgnNeg .. | .fsgnXor .. | .fcmpEq .. | .fcmpNe .. | .fcmpLt .. | .fcmpLe .. | .fcmpGt ..
  | .fcmpGe .. | .fcmpUn .. | .fcmpOr .. | .hcmp2 .. | .shfl .. | .shflx .. | .shflu .. | .shfld .. | .ldN8 .. | .ldS8 ..
  | .ldN16 .. | .ldS16 .. | .ld32 .. | .ld64 .. | .ldv .. | .ldk .. | .ldx .. | .lds .. | .st .. | .stv .. | .stg .. | .sts ..
  | .aadd .. | .amin .. | .amax .. | .aand .. | .aor .. | .axor .. | .axchg .. | .acas .. | .aminN .. | .amaxN .. | .afadd ..
  | .afaddPair .. | .strl .. | .twr .. => ⟨true, true, true, false, false, false, true⟩
  | .lnch .. | .cpy .. | .cfill .. | .csigAdd .. | .csigSet .. | .cwaitGe .. | .step .. => ⟨true, true, false, false, false, false, true⟩
  | .vmad .. => ⟨true, true, true, false, true, true, true⟩
  | .vabs .. | .vcvti .. => ⟨false, true, true, false, false, true, true⟩
  | .fadd .. | .fsub .. | .fmul .. | .hadd2 .. | .hmul2 .. | .trd .. => ⟨true, true, true, true, false, true, true⟩
  | .ffma .. | .hfma2 .. => ⟨true, true, true, true, true, true, true⟩
  | .fcvt .. | .fcvtToInt .. | .fcvtFromInt .. => ⟨false, true, true, true, false, true, true⟩
  | .frnd .. => ⟨false, true, true, true, false, false, true⟩
  | .cpy2 .. | .gath .. | .scat .. => ⟨false, true, false, false, true, false, true⟩
  | .returnFillArrival .. | .junctionRelease .. | .junctionTimeout .. | .barrierArrival .. | .mbarReleaseStep ..
  | .ageCounterExpiry .. | .launchRecordTake .. | .teamPlacement .. | .laybyMove .. | .carriagewayAdmission ..
  | .laybyPending .. | .pendingEviction .. | .leaseWindowEnd .. | .groupEnd .. | .gridEnd .. | .preemptionRequest ..
  | .preemptionTimeout .. | .supervisorStop .. | .haltLineArrival .. | .engineStop .. | .haltCompletion .. | .contextResume ..
  | .contextEnd .. | .pageWalk .. | .translationFaultResolved .. | .translationFaultUnresolved .. | .invalidation ..
  | .biasFlip .. | .deadlineExpiry .. | .loadDataArrival .. | .ticketTruthArrival .. | .storePerformed .. | .atomicPerformed ..
  | .promotionDrain .. | .l1InvalidationArrival .. | .l1FillArrival .. | .hostSharedRequest .. | .hostExclusiveRequest ..
  | .hostWriteBack .. | .hostMemoryAccess .. | .dieLinkRequest .. | .copyPiece .. | .copyRetire .. | .matrixPass ..
  | .tileOperationRetire .. | .causewayAbandon .. | .nodeErrorReply .. | .notifyMessage .. | .launchMessage .. | .rpostReply ..
  | .rpostTimeout .. | .collCompletion .. | .collTimeout .. | .remotePutArrival .. | .remoteSignalArrival .. | .cwaitReread ..
  | .stepApply .. | .bucketRefill .. | .vfBringup .. | .vfTeardown .. | .allowanceReclaim .. | .quarantineEnd ..
  | .deadOwnerPacket .. | .uncorrectableMemoryError .. | .correctedMemoryError .. | .pallowSetWrite .. | .pallowTripClear ..
  | .allowanceCut | .powerControlStep .. | .currentLimiter .. | .ratioChange .. | .energyCharge .. | .energyScaling ..
  | .sramRailStep .. | .uncorrectableSramError .. | .railHoldEnd .. | .hbmTemperatureSample .. | .dieThermalTrip ..
  | .heartbeatWrite | .heartbeatMiss | .coreRetirement .. | .hbmChannelSparing .. | .llcWayDisable .. | .causewayLaneSpare ..
  | .portFailover .. | .coldReset | .railPowerDown | .leasewWrite .. | .dfwWrite .. | .vuesClear .. | .vovfClear ..
  | .registerWrite .. | .pendingResultRetire .. | .contextSetup .. | .rdmaAccess .. | .remoteMessageDropped ..
  | .tagCheckFailure .. | .csigReply .. | .csigTimeout .. | .dieThermalRecovery .. => ⟨false, false, false, false, false, false, false⟩

/-- Whether the instruction is one of the encoded ones (an event has no word). -/
def Instr.encoded : Instr → Bool
  | .nop .. | .bra .. | .brq .. | .jmp .. | .call .. | .callr .. | .ret .. | .jct .. | .fork .. | .quit .. | .yield ..
  | .win .. | .winK .. | .wadd .. | .kli .. | .khi .. | .kmov .. | .kadd .. | .ksub .. | .kmul .. | .kmulh .. | .kdiv ..
  | .krem .. | .kand .. | .kor .. | .kxor .. | .kshl .. | .kshr .. | .ksra .. | .kmin .. | .kmax .. | .kcmp .. | .ksel ..
  | .kclz .. | .kpopc .. | .kfromv .. | .kfromq .. | .ktoq .. | .waitc .. | .gbar .. | .tarr .. | .twait .. | .mbar ..
  | .lease .. | .leaseK .. | .leaseRd .. | .lnch .. | .trap .. | .assertQ .. | .tret .. | .tmsk .. | .srd .. | .swr ..
  | .swrOr .. | .swrClr .. | .brk .. | .halt .. | .vadd .. | .vsub .. | .vmul .. | .vmulh .. | .vmad .. | .vdiv .. | .vrem ..
  | .vmin .. | .vmax .. | .vabs .. | .vand .. | .vor .. | .vxor .. | .vnot .. | .vshl .. | .vshr .. | .vsra .. | .vrot ..
  | .vclz .. | .vpopc .. | .vbrev .. | .vsel .. | .vmov .. | .vli .. | .vliHi .. | .vcmpEq .. | .vcmpNe .. | .vcmpLt ..
  | .vcmpLe .. | .vcmpGt .. | .vcmpGe .. | .vbcast .. | .vcvti .. | .qand .. | .qor .. | .qxor .. | .qnot .. | .qmov ..
  | .fadd .. | .fsub .. | .fmul .. | .ffma .. | .fmin .. | .fmax .. | .fsgn .. | .fsgnNeg .. | .fsgnXor .. | .fcmpEq ..
  | .fcmpNe .. | .fcmpLt .. | .fcmpLe .. | .fcmpGt .. | .fcmpGe .. | .fcmpUn .. | .fcmpOr .. | .fclass .. | .fcvt ..
  | .fcvtToInt .. | .fcvtFromInt .. | .frnd .. | .hadd2 .. | .hmul2 .. | .hfma2 .. | .hcmp2 .. | .srcp .. | .srsq ..
  | .ssqrt .. | .sexp2 .. | .slog2 .. | .ssin .. | .scos .. | .stanh .. | .wmad .. | .wdot4 .. | .waddAccumulator .. | .wclr ..
  | .narrow .. | .widen .. | .shfl .. | .shflx .. | .shflu .. | .shfld .. | .vote .. | .redg .. | .scang .. | .matchLanes ..
  | .vkey .. | .ldN8 .. | .ldS8 .. | .ldN16 .. | .ldS16 .. | .ld32 .. | .ld64 .. | .ldv .. | .ldk .. | .ldx .. | .pf ..
  | .lds .. | .gtest .. | .gacc .. | .gdem .. | .gchk .. | .ptest .. | .st .. | .stv .. | .stg .. | .sts .. | .aadd ..
  | .amin .. | .amax .. | .aand .. | .aor .. | .axor .. | .axchg .. | .acas .. | .aminN .. | .amaxN .. | .afadd ..
  | .afaddPair .. | .ldaq .. | .strl .. | .fence .. | .rfence .. | .xfence .. | .lock .. | .unlock .. | .cinv .. | .cwb ..
  | .halloc .. | .hrel .. | .hgive .. | .htake .. | .hinfo .. | .tld .. | .tlds .. | .tsto .. | .tsts .. | .trd .. | .twr ..
  | .tzero .. | .mma .. | .mmas .. | .mmac .. | .tscl .. | .tacc .. | .cpy .. | .cpy2 .. | .gath .. | .scat .. | .cfill ..
  | .cstat .. | .coll .. | .csigAdd .. | .csigSet .. | .cwaitRec .. | .cwaitGe .. | .step .. | .rpost .. => true
  | .returnFillArrival .. | .junctionRelease .. | .junctionTimeout .. | .barrierArrival .. | .mbarReleaseStep ..
  | .ageCounterExpiry .. | .launchRecordTake .. | .teamPlacement .. | .laybyMove .. | .carriagewayAdmission ..
  | .laybyPending .. | .pendingEviction .. | .leaseWindowEnd .. | .groupEnd .. | .gridEnd .. | .preemptionRequest ..
  | .preemptionTimeout .. | .supervisorStop .. | .haltLineArrival .. | .engineStop .. | .haltCompletion .. | .contextResume ..
  | .contextEnd .. | .pageWalk .. | .translationFaultResolved .. | .translationFaultUnresolved .. | .invalidation ..
  | .biasFlip .. | .deadlineExpiry .. | .loadDataArrival .. | .ticketTruthArrival .. | .storePerformed .. | .atomicPerformed ..
  | .promotionDrain .. | .l1InvalidationArrival .. | .l1FillArrival .. | .hostSharedRequest .. | .hostExclusiveRequest ..
  | .hostWriteBack .. | .hostMemoryAccess .. | .dieLinkRequest .. | .copyPiece .. | .copyRetire .. | .matrixPass ..
  | .tileOperationRetire .. | .causewayAbandon .. | .nodeErrorReply .. | .notifyMessage .. | .launchMessage .. | .rpostReply ..
  | .rpostTimeout .. | .collCompletion .. | .collTimeout .. | .remotePutArrival .. | .remoteSignalArrival .. | .cwaitReread ..
  | .stepApply .. | .bucketRefill .. | .vfBringup .. | .vfTeardown .. | .allowanceReclaim .. | .quarantineEnd ..
  | .deadOwnerPacket .. | .uncorrectableMemoryError .. | .correctedMemoryError .. | .pallowSetWrite .. | .pallowTripClear ..
  | .allowanceCut | .powerControlStep .. | .currentLimiter .. | .ratioChange .. | .energyCharge .. | .energyScaling ..
  | .sramRailStep .. | .uncorrectableSramError .. | .railHoldEnd .. | .hbmTemperatureSample .. | .dieThermalTrip ..
  | .heartbeatWrite | .heartbeatMiss | .coreRetirement .. | .hbmChannelSparing .. | .llcWayDisable .. | .causewayLaneSpare ..
  | .portFailover .. | .coldReset | .railPowerDown | .leasewWrite .. | .dfwWrite .. | .vuesClear .. | .vovfClear ..
  | .registerWrite .. | .pendingResultRetire .. | .contextSetup .. | .rdmaAccess .. | .remoteMessageDropped ..
  | .tagCheckFailure .. | .csigReply .. | .csigTimeout .. | .dieThermalRecovery .. => false

/-- The checks of R62 on one operand, in the order of its reasons. -/
def Operand.checks (o : Operand) : List Check :=
  match o.cls with
  | .w => [⟨.highBits, o.field, decide (o.code < 16)⟩]
  | .bs => [⟨.code127, o.field, o.code != 127⟩, ⟨.base, o.field, o.code == 127 || Cls.bs.has o.code⟩]
  | c => [⟨.code127, o.field, o.code != 127⟩, ⟨.registerClass, o.field, o.code == 127 || c.has o.code⟩,
      ⟨.oddPair, o.field, !(o.rows == 2 && decide (o.code < 96)) || o.code % 2 == 0⟩,
      ⟨.quad, o.field, !(o.rows == 4 && decide (o.code < 96)) || o.code % 4 == 0⟩]

/-- The check of the rounding field of an OPX (R53, R62). -/
def Mods.checks (m : Mods) : List Check :=
  match m.opx with | some o => [⟨.reserved, 11, o.rm != 7#3⟩] | .none => []

/-- The prefixes of an instruction. -/
def Instr.mods : Instr → Mods
  | .nop m | .bra m .. | .brq m .. | .jmp m .. | .call m .. | .callr m .. | .ret m | .jct m | .fork m .. | .quit m | .yield m
  | .win m .. | .winK m .. | .wadd m .. | .kli m .. | .khi m .. | .kmov m .. | .kadd m .. | .ksub m .. | .kmul m ..
  | .kmulh m .. | .kdiv m .. | .krem m .. | .kand m .. | .kor m .. | .kxor m .. | .kshl m .. | .kshr m .. | .ksra m ..
  | .kmin m .. | .kmax m .. | .kcmp m .. | .ksel m .. | .kclz m .. | .kpopc m .. | .kfromv m .. | .kfromq m .. | .ktoq m ..
  | .waitc m .. | .gbar m | .tarr m .. | .twait m | .mbar m | .lease m .. | .leaseK m .. | .leaseRd m .. | .lnch m ..
  | .trap m .. | .assertQ m .. | .tret m | .tmsk m .. | .srd m .. | .swr m .. | .swrOr m .. | .swrClr m .. | .brk m ..
  | .halt m | .vadd m .. | .vsub m .. | .vmul m .. | .vmulh m .. | .vmad m .. | .vdiv m .. | .vrem m .. | .vmin m ..
  | .vmax m .. | .vabs m .. | .vand m .. | .vor m .. | .vxor m .. | .vnot m .. | .vshl m .. | .vshr m .. | .vsra m ..
  | .vrot m .. | .vclz m .. | .vpopc m .. | .vbrev m .. | .vsel m .. | .vmov m .. | .vli m .. | .vliHi m .. | .vcmpEq m ..
  | .vcmpNe m .. | .vcmpLt m .. | .vcmpLe m .. | .vcmpGt m .. | .vcmpGe m .. | .vbcast m .. | .vcvti m .. | .qand m ..
  | .qor m .. | .qxor m .. | .qnot m .. | .qmov m .. | .fadd m .. | .fsub m .. | .fmul m .. | .ffma m .. | .fmin m ..
  | .fmax m .. | .fsgn m .. | .fsgnNeg m .. | .fsgnXor m .. | .fcmpEq m .. | .fcmpNe m .. | .fcmpLt m .. | .fcmpLe m ..
  | .fcmpGt m .. | .fcmpGe m .. | .fcmpUn m .. | .fcmpOr m .. | .fclass m .. | .fcvt m .. | .fcvtToInt m .. | .fcvtFromInt m ..
  | .frnd m .. | .hadd2 m .. | .hmul2 m .. | .hfma2 m .. | .hcmp2 m .. | .srcp m .. | .srsq m .. | .ssqrt m .. | .sexp2 m ..
  | .slog2 m .. | .ssin m .. | .scos m .. | .stanh m .. | .wmad m .. | .wdot4 m .. | .waddAccumulator m .. | .wclr m ..
  | .narrow m .. | .widen m .. | .shfl m .. | .shflx m .. | .shflu m .. | .shfld m .. | .vote m .. | .redg m .. | .scang m ..
  | .matchLanes m .. | .vkey m .. | .ldN8 m .. | .ldS8 m .. | .ldN16 m .. | .ldS16 m .. | .ld32 m .. | .ld64 m .. | .ldv m ..
  | .ldk m .. | .ldx m .. | .pf m .. | .lds m .. | .gtest m .. | .gacc m .. | .gdem m .. | .gchk m .. | .ptest m .. | .st m ..
  | .stv m .. | .stg m .. | .sts m .. | .aadd m .. | .amin m .. | .amax m .. | .aand m .. | .aor m .. | .axor m ..
  | .axchg m .. | .acas m .. | .aminN m .. | .amaxN m .. | .afadd m .. | .afaddPair m .. | .ldaq m .. | .strl m ..
  | .fence m .. | .rfence m .. | .xfence m .. | .lock m .. | .unlock m .. | .cinv m .. | .cwb m .. | .halloc m .. | .hrel m ..
  | .hgive m .. | .htake m .. | .hinfo m .. | .tld m .. | .tlds m .. | .tsto m .. | .tsts m .. | .trd m .. | .twr m ..
  | .tzero m .. | .mma m .. | .mmas m .. | .mmac m .. | .tscl m .. | .tacc m .. | .cpy m .. | .cpy2 m .. | .gath m ..
  | .scat m .. | .cfill m .. | .cstat m .. | .coll m .. | .csigAdd m .. | .csigSet m .. | .cwaitRec m .. | .cwaitGe m ..
  | .step m .. | .rpost m .. => m
  | .returnFillArrival .. | .junctionRelease .. | .junctionTimeout .. | .barrierArrival .. | .mbarReleaseStep ..
  | .ageCounterExpiry .. | .launchRecordTake .. | .teamPlacement .. | .laybyMove .. | .carriagewayAdmission ..
  | .laybyPending .. | .pendingEviction .. | .leaseWindowEnd .. | .groupEnd .. | .gridEnd .. | .preemptionRequest ..
  | .preemptionTimeout .. | .supervisorStop .. | .haltLineArrival .. | .engineStop .. | .haltCompletion .. | .contextResume ..
  | .contextEnd .. | .pageWalk .. | .translationFaultResolved .. | .translationFaultUnresolved .. | .invalidation ..
  | .biasFlip .. | .deadlineExpiry .. | .loadDataArrival .. | .ticketTruthArrival .. | .storePerformed .. | .atomicPerformed ..
  | .promotionDrain .. | .l1InvalidationArrival .. | .l1FillArrival .. | .hostSharedRequest .. | .hostExclusiveRequest ..
  | .hostWriteBack .. | .hostMemoryAccess .. | .dieLinkRequest .. | .copyPiece .. | .copyRetire .. | .matrixPass ..
  | .tileOperationRetire .. | .causewayAbandon .. | .nodeErrorReply .. | .notifyMessage .. | .launchMessage .. | .rpostReply ..
  | .rpostTimeout .. | .collCompletion .. | .collTimeout .. | .remotePutArrival .. | .remoteSignalArrival .. | .cwaitReread ..
  | .stepApply .. | .bucketRefill .. | .vfBringup .. | .vfTeardown .. | .allowanceReclaim .. | .quarantineEnd ..
  | .deadOwnerPacket .. | .uncorrectableMemoryError .. | .correctedMemoryError .. | .pallowSetWrite .. | .pallowTripClear ..
  | .allowanceCut | .powerControlStep .. | .currentLimiter .. | .ratioChange .. | .energyCharge .. | .energyScaling ..
  | .sramRailStep .. | .uncorrectableSramError .. | .railHoldEnd .. | .hbmTemperatureSample .. | .dieThermalTrip ..
  | .heartbeatWrite | .heartbeatMiss | .coreRetirement .. | .hbmChannelSparing .. | .llcWayDisable .. | .causewayLaneSpare ..
  | .portFailover .. | .coldReset | .railPowerDown | .leasewWrite .. | .dfwWrite .. | .vuesClear .. | .vovfClear ..
  | .registerWrite .. | .pendingResultRetire .. | .contextSetup .. | .rdmaAccess .. | .remoteMessageDropped ..
  | .tagCheckFailure .. | .csigReply .. | .csigTimeout .. | .dieThermalRecovery .. => Mods.none

/-- Every check of R62 that concerns the values of an instruction's fields. -/
def Instr.checks (i : Instr) : List Check := i.mods.checks ++ i.fieldChecks ++ i.operands.flatMap Operand.checks

/-- An instruction is well formed when it has an encoding and passes every check of R62. -/
def Instr.wf (i : Instr) : Bool := i.encoded && i.checks.all Check.ok

end Sys2Proof
end

