-- ==== Sys2Proof/Decode.lean ====
section
/-! DEFINITION. The decoder, total on any words and any bytes, which rejects by name what is not an instruction (R44, R45, R61, R62); and
the encoder, written from the same layouts (R47, R49, R52). -/

namespace Sys2Proof

/-- Bits [lo+n-1:lo] of a word. -/
def fld (w : W32) (lo n : Nat) : BitVec n := w.extractLsb' lo n

/-- What a base word gives: its reserved fields and high bits to be checked, with the instruction it stands for; or no instruction, with
the reason and the field. -/
inductive Raw where
  | row (checks : List Check) (i : Instr)
  | bad (reason : Reason) (field : Nat)
  deriving DecidableEq, Repr

/-- The check that bits [lo+n-1:lo] of the base word are 0. -/
def zero (w : W32) (r : Reason) (field lo n : Nat) : Check := ⟨r, field, fld w lo n == 0⟩

/-- The instruction of a base word with an opcode byte (R61 and the encoding tables of the entries). -/
def decodeOpcode (mods : Mods) (w : W32) (op : Nat) : Raw :=
  match op with
  | 0x00 =>
    if fld w 21 3 = 0#3 then .row [zero w .reserved 3 14 7, zero w .reserved 0 7 7, zero w .reserved 1 0 7] (.nop mods)
    else .bad .fn 10
  | 0x01 => .row [] (.bra mods (fld w 0 24))
  | 0x02 => .row [] (.brq mods (fld w 21 3) (fld w 20 1) (fld w 0 20))
  | 0x03 => .row [zero w .reserved 3 14 7, zero w .reserved 1 0 7] (.jmp mods (fld w 21 3) (fld w 7 7))
  | 0x04 => .row [] (.call mods (fld w 0 24))
  | 0x05 => .row [zero w .reserved 3 14 7, zero w .reserved 1 0 7] (.callr mods (fld w 21 3) (fld w 7 7))
  | 0x06 =>
    if fld w 21 3 = 0#3 then .row [zero w .reserved 3 14 7, zero w .reserved 0 7 7, zero w .reserved 1 0 7] (.ret mods)
    else .bad .fn 10
  | 0x07 =>
    if fld w 21 3 = 0#3 then .row [zero w .reserved 3 14 7, zero w .reserved 0 7 7, zero w .reserved 1 0 7] (.jct mods)
    else .bad .fn 10
  | 0x08 => .row [] (.fork mods (fld w 21 3) (fld w 14 7) (fld w 7 7) (fld w 0 7))
  | 0x09 =>
    if fld w 21 3 = 0#3 then .row [zero w .reserved 3 14 7, zero w .reserved 0 7 7, zero w .reserved 1 0 7] (.quit mods)
    else .bad .fn 10
  | 0x0A =>
    if fld w 21 3 = 0#3 then .row [zero w .reserved 3 14 7, zero w .reserved 0 7 7, zero w .reserved 1 0 7] (.yield mods)
    else .bad .fn 10
  | 0x0B =>
    if fld w 21 3 = 0#3 then .row [zero w .reserved 3 14 7, zero w .reserved 0 7 7] (.win mods (fld w 0 7))
    else if fld w 21 3 = 1#3 then .row [zero w .reserved 3 14 7, zero w .reserved 12 0 7] (.winK mods (fld w 7 7))
    else .bad .fn 10
  | 0x0C =>
    if fld w 21 3 = 0#3 then .row [zero w .reserved 3 14 7, zero w .reserved 0 7 7] (.wadd mods (fld w 0 7))
    else .bad .fn 10
  | 0x10 =>
    if fld w 21 3 = 0#3 then .row [zero w .reserved 0 7 7] (.kli mods (fld w 14 7) (fld w 0 7))
    else .bad .fn 10
  | 0x11 =>
    if fld w 23 1 = 0#1 then .row [] (.khi mods (fld w 21 2) (fld w 14 7) (fld w 7 7) (fld w 0 7))
    else .bad .fn 10
  | 0x12 =>
    if fld w 21 3 = 0#3 then .row [zero w .reserved 1 0 7] (.kmov mods (fld w 14 7) (fld w 7 7))
    else .bad .fn 10
  | 0x13 =>
    if fld w 23 1 = 0#1 then .row [] (.kadd mods (fld w 21 2) (fld w 14 7) (fld w 7 7) (fld w 0 7))
    else .bad .fn 10
  | 0x14 =>
    if fld w 23 1 = 0#1 then .row [] (.ksub mods (fld w 21 2) (fld w 14 7) (fld w 7 7) (fld w 0 7))
    else .bad .fn 10
  | 0x15 =>
    if fld w 23 1 = 0#1 then .row [] (.kmul mods (fld w 21 2) (fld w 14 7) (fld w 7 7) (fld w 0 7))
    else .bad .fn 10
  | 0x16 =>
    if fld w 23 1 = 0#1 then .row [] (.kmulh mods (fld w 21 2) (fld w 14 7) (fld w 7 7) (fld w 0 7))
    else .bad .fn 10
  | 0x17 =>
    if fld w 23 1 = 0#1 then .row [] (.kdiv mods (fld w 21 2) (fld w 14 7) (fld w 7 7) (fld w 0 7))
    else .bad .fn 10
  | 0x18 =>
    if fld w 23 1 = 0#1 then .row [] (.krem mods (fld w 21 2) (fld w 14 7) (fld w 7 7) (fld w 0 7))
    else .bad .fn 10
  | 0x19 =>
    if fld w 21 3 = 0#3 then .row [] (.kand mods (fld w 14 7) (fld w 7 7) (fld w 0 7))
    else .bad .fn 10
  | 0x1A =>
    if fld w 21 3 = 0#3 then .row [] (.kor mods (fld w 14 7) (fld w 7 7) (fld w 0 7))
    else .bad .fn 10
  | 0x1B =>
    if fld w 21 3 = 0#3 then .row [] (.kxor mods (fld w 14 7) (fld w 7 7) (fld w 0 7))
    else .bad .fn 10
  | 0x1C =>
    if fld w 23 1 = 0#1 ∧ fld w 21 1 = 1#1 then .row [] (.kshl mods (fld w 22 1) (fld w 14 7) (fld w 7 7) (fld w 0 7))
    else .bad .fn 10
  | 0x1D =>
    if fld w 23 1 = 0#1 ∧ fld w 21 1 = 1#1 then .row [] (.kshr mods (fld w 22 1) (fld w 14 7) (fld w 7 7) (fld w 0 7))
    else .bad .fn 10
  | 0x1E =>
    if fld w 23 1 = 0#1 ∧ fld w 21 1 = 0#1 then .row [] (.ksra mods (fld w 22 1) (fld w 14 7) (fld w 7 7) (fld w 0 7))
    else .bad .fn 10
  | 0x1F =>
    if fld w 23 1 = 0#1 then .row [] (.kmin mods (fld w 21 2) (fld w 14 7) (fld w 7 7) (fld w 0 7))
    else .bad .fn 10
  | 0x20 =>
    if fld w 23 1 = 0#1 then .row [] (.kmax mods (fld w 21 2) (fld w 14 7) (fld w 7 7) (fld w 0 7))
    else .bad .fn 10
  | 0x21 => .row [] (.kcmp mods (fld w 21 3) (fld w 14 7) (fld w 7 7) (fld w 0 7))
  | 0x22 => .row [] (.ksel mods (fld w 21 3) (fld w 14 7) (fld w 7 7) (fld w 0 7))
  | 0x23 =>
    if fld w 23 1 = 0#1 ∧ fld w 21 1 = 1#1 then .row [zero w .reserved 1 0 7] (.kclz mods (fld w 22 1) (fld w 14 7) (fld w 7 7))
    else .bad .fn 10
  | 0x24 =>
    if fld w 23 1 = 0#1 ∧ fld w 21 1 = 1#1 then .row [zero w .reserved 1 0 7] (.kpopc mods (fld w 22 1) (fld w 14 7) (fld w 7 7))
    else .bad .fn 10
  | 0x25 => .row [zero w .reserved 1 0 7] (.kfromv mods (fld w 21 3) (fld w 14 7) (fld w 7 7))
  | 0x26 =>
    if fld w 22 2 = 0#2 then .row [zero w .reserved 0 7 7, zero w .reserved 1 0 7] (.kfromq mods (fld w 21 1) (fld w 14 7))
    else .bad .fn 10
  | 0x27 =>
    if fld w 22 2 = 0#2 then .row [zero w .reserved 1 0 7] (.ktoq mods (fld w 21 1) (fld w 14 7) (fld w 7 7))
    else .bad .fn 10
  | 0x28 => .row [] (.waitc mods (fld w 18 6) (fld w 12 6) (fld w 6 6) (fld w 0 6))
  | 0x29 =>
    if fld w 21 3 = 0#3 then .row [zero w .reserved 3 14 7, zero w .reserved 0 7 7, zero w .reserved 1 0 7] (.gbar mods)
    else .bad .fn 10
  | 0x2A =>
    if fld w 21 3 = 0#3 then .row [zero w .reserved 0 7 7, zero w .reserved 1 0 7] (.tarr mods (fld w 14 7))
    else .bad .fn 10
  | 0x2B =>
    if fld w 21 3 = 0#3 then .row [zero w .reserved 3 14 7, zero w .reserved 0 7 7, zero w .reserved 1 0 7] (.twait mods)
    else .bad .fn 10
  | 0x2C =>
    if fld w 21 3 = 0#3 then .row [zero w .reserved 3 14 7, zero w .reserved 0 7 7, zero w .reserved 1 0 7] (.mbar mods)
    else .bad .fn 10
  | 0x2D =>
    if fld w 21 3 = 0#3 then .row [zero w .reserved 0 7 7] (.lease mods (fld w 14 7) (fld w 0 7))
    else if fld w 21 3 = 1#3 then .row [zero w .reserved 12 0 7] (.leaseK mods (fld w 14 7) (fld w 7 7))
    else if fld w 21 3 = 2#3 then .row [zero w .reserved 0 7 7, zero w .reserved 12 0 7] (.leaseRd mods (fld w 14 7))
    else .bad .fn 10
  | 0x2E =>
    if fld w 21 3 = 0#3 then .row [] (.lnch mods (fld w 14 7) (fld w 7 7) (fld w 0 7))
    else .bad .fn 10
  | 0x30 =>
    if fld w 21 3 = 0#3 then .row [zero w .reserved 3 14 7, zero w .reserved 0 7 7] (.trap mods (fld w 0 7))
    else .bad .fn 10
  | 0x31 =>
    if fld w 22 2 = 0#2 then .row [zero w .reserved 3 14 7] (.assertQ mods (fld w 21 1) (fld w 7 7) (fld w 0 7))
    else .bad .fn 10
  | 0x32 =>
    if fld w 21 3 = 0#3 then .row [zero w .reserved 3 14 7, zero w .reserved 0 7 7, zero w .reserved 1 0 7] (.tret mods)
    else .bad .fn 10
  | 0x33 =>
    if fld w 21 3 = 0#3 then .row [zero w .reserved 0 7 7, zero w .typeCode 12 1 6] (.tmsk mods (fld w 14 7) (fld w 0 1))
    else .bad .fn 10
  | 0x34 =>
    if fld w 21 3 = 0#3 then .row [zero w .reserved 0 7 7] (.srd mods (fld w 14 7) (fld w 0 7))
    else .bad .fn 10
  | 0x35 =>
    if fld w 21 3 = 0#3 then .row [zero w .reserved 3 14 7] (.swr mods (fld w 7 7) (fld w 0 7))
    else if fld w 21 3 = 1#3 then .row [zero w .reserved 3 14 7] (.swrOr mods (fld w 7 7) (fld w 0 7))
    else if fld w 21 3 = 2#3 then .row [zero w .reserved 3 14 7] (.swrClr mods (fld w 7 7) (fld w 0 7))
    else .bad .fn 10
  | 0x36 =>
    if fld w 21 3 = 0#3 then .row [zero w .reserved 3 14 7, zero w .reserved 0 7 7] (.brk mods (fld w 0 7))
    else .bad .fn 10
  | 0x37 =>
    if fld w 21 3 = 0#3 then .row [zero w .reserved 3 14 7, zero w .reserved 0 7 7, zero w .reserved 1 0 7] (.halt mods)
    else .bad .fn 10
  | 0x40 => .row [] (.vadd mods (fld w 21 3) (fld w 14 7) (fld w 7 7) (fld w 0 7))
  | 0x41 => .row [] (.vsub mods (fld w 21 3) (fld w 14 7) (fld w 7 7) (fld w 0 7))
  | 0x42 => .row [] (.vmul mods (fld w 21 3) (fld w 14 7) (fld w 7 7) (fld w 0 7))
  | 0x43 => .row [] (.vmulh mods (fld w 21 3) (fld w 14 7) (fld w 7 7) (fld w 0 7))
  | 0x44 => .row [] (.vmad mods (fld w 21 3) (fld w 14 7) (fld w 7 7) (fld w 0 7))
  | 0x45 => .row [] (.vdiv mods (fld w 21 3) (fld w 14 7) (fld w 7 7) (fld w 0 7))
  | 0x46 => .row [] (.vrem mods (fld w 21 3) (fld w 14 7) (fld w 7 7) (fld w 0 7))
  | 0x47 => .row [] (.vmin mods (fld w 21 3) (fld w 14 7) (fld w 7 7) (fld w 0 7))
  | 0x48 => .row [] (.vmax mods (fld w 21 3) (fld w 14 7) (fld w 7 7) (fld w 0 7))
  | 0x49 => .row [zero w .reserved 1 0 7] (.vabs mods (fld w 21 3) (fld w 14 7) (fld w 7 7))
  | 0x4A => .row [] (.vand mods (fld w 21 3) (fld w 14 7) (fld w 7 7) (fld w 0 7))
  | 0x4B => .row [] (.vor mods (fld w 21 3) (fld w 14 7) (fld w 7 7) (fld w 0 7))
  | 0x4C => .row [] (.vxor mods (fld w 21 3) (fld w 14 7) (fld w 7 7) (fld w 0 7))
  | 0x4D => .row [zero w .reserved 1 0 7] (.vnot mods (fld w 21 3) (fld w 14 7) (fld w 7 7))
  | 0x4E => .row [] (.vshl mods (fld w 21 3) (fld w 14 7) (fld w 7 7) (fld w 0 7))
  | 0x4F => .row [] (.vshr mods (fld w 21 3) (fld w 14 7) (fld w 7 7) (fld w 0 7))
  | 0x50 => .row [] (.vsra mods (fld w 21 3) (fld w 14 7) (fld w 7 7) (fld w 0 7))
  | 0x51 => .row [] (.vrot mods (fld w 21 3) (fld w 14 7) (fld w 7 7) (fld w 0 7))
  | 0x52 => .row [zero w .reserved 1 0 7] (.vclz mods (fld w 21 3) (fld w 14 7) (fld w 7 7))
  | 0x53 => .row [zero w .reserved 1 0 7] (.vpopc mods (fld w 21 3) (fld w 14 7) (fld w 7 7))
  | 0x54 => .row [zero w .reserved 1 0 7] (.vbrev mods (fld w 21 3) (fld w 14 7) (fld w 7 7))
  | 0x55 => .row [] (.vsel mods (fld w 21 3) (fld w 14 7) (fld w 7 7) (fld w 0 7))
  | 0x56 =>
    if fld w 22 2 = 0#2 then .row [zero w .reserved 1 0 7] (.vmov mods (fld w 21 1) (fld w 14 7) (fld w 7 7))
    else .bad .fn 10
  | 0x57 =>
    if fld w 21 3 = 0#3 then .row [zero w .reserved 0 7 7] (.vli mods (fld w 14 7) (fld w 0 7))
    else if fld w 21 3 = 1#3 then .row [zero w .reserved 0 7 7] (.vliHi mods (fld w 14 7) (fld w 0 7))
    else .bad .fn 10
  | 0x58 => .row [] (.vcmpEq mods (fld w 21 3) (fld w 14 7) (fld w 7 7) (fld w 0 7))
  | 0x59 => .row [] (.vcmpNe mods (fld w 21 3) (fld w 14 7) (fld w 7 7) (fld w 0 7))
  | 0x5A => .row [] (.vcmpLt mods (fld w 21 3) (fld w 14 7) (fld w 7 7) (fld w 0 7))
  | 0x5B => .row [] (.vcmpLe mods (fld w 21 3) (fld w 14 7) (fld w 7 7) (fld w 0 7))
  | 0x5C => .row [] (.vcmpGt mods (fld w 21 3) (fld w 14 7) (fld w 7 7) (fld w 0 7))
  | 0x5D => .row [] (.vcmpGe mods (fld w 21 3) (fld w 14 7) (fld w 7 7) (fld w 0 7))
  | 0x5E =>
    if fld w 22 2 = 0#2 then .row [zero w .reserved 1 0 7] (.vbcast mods (fld w 21 1) (fld w 14 7) (fld w 7 7))
    else .bad .fn 10
  | 0x5F => .row [zero w .reserved 1 3 4] (.vcvti mods (fld w 21 3) (fld w 14 7) (fld w 7 7) (fld w 0 3))
  | 0x60 =>
    if fld w 21 3 = 0#3 then .row [] (.qand mods (fld w 14 7) (fld w 7 7) (fld w 0 7))
    else .bad .fn 10
  | 0x61 =>
    if fld w 21 3 = 0#3 then .row [] (.qor mods (fld w 14 7) (fld w 7 7) (fld w 0 7))
    else .bad .fn 10
  | 0x62 =>
    if fld w 21 3 = 0#3 then .row [] (.qxor mods (fld w 14 7) (fld w 7 7) (fld w 0 7))
    else .bad .fn 10
  | 0x63 =>
    if fld w 21 3 = 0#3 then .row [zero w .reserved 1 0 7] (.qnot mods (fld w 14 7) (fld w 7 7))
    else .bad .fn 10
  | 0x64 =>
    if fld w 21 3 = 0#3 then .row [zero w .reserved 1 0 7] (.qmov mods (fld w 14 7) (fld w 7 7))
    else .bad .fn 10
  | 0x70 => .row [zero w .typeCode 10 23 1] (.fadd mods (fld w 21 2) (fld w 14 7) (fld w 7 7) (fld w 0 7))
  | 0x71 => .row [zero w .typeCode 10 23 1] (.fsub mods (fld w 21 2) (fld w 14 7) (fld w 7 7) (fld w 0 7))
  | 0x72 => .row [zero w .typeCode 10 23 1] (.fmul mods (fld w 21 2) (fld w 14 7) (fld w 7 7) (fld w 0 7))
  | 0x73 => .row [zero w .typeCode 10 23 1] (.ffma mods (fld w 21 2) (fld w 14 7) (fld w 7 7) (fld w 0 7))
  | 0x74 => .row [zero w .typeCode 10 23 1] (.fmin mods (fld w 21 2) (fld w 14 7) (fld w 7 7) (fld w 0 7))
  | 0x75 => .row [zero w .typeCode 10 23 1] (.fmax mods (fld w 21 2) (fld w 14 7) (fld w 7 7) (fld w 0 7))
  | 0x76 => .row [zero w .typeCode 10 23 1] (.fsgn mods (fld w 21 2) (fld w 14 7) (fld w 7 7) (fld w 0 7))
  | 0x77 => .row [zero w .typeCode 10 23 1] (.fsgnNeg mods (fld w 21 2) (fld w 14 7) (fld w 7 7) (fld w 0 7))
  | 0x78 => .row [zero w .typeCode 10 23 1] (.fsgnXor mods (fld w 21 2) (fld w 14 7) (fld w 7 7) (fld w 0 7))
  | 0x79 => .row [zero w .typeCode 10 23 1] (.fcmpEq mods (fld w 21 2) (fld w 14 7) (fld w 7 7) (fld w 0 7))
  | 0x7A => .row [zero w .typeCode 10 23 1] (.fcmpNe mods (fld w 21 2) (fld w 14 7) (fld w 7 7) (fld w 0 7))
  | 0x7B => .row [zero w .typeCode 10 23 1] (.fcmpLt mods (fld w 21 2) (fld w 14 7) (fld w 7 7) (fld w 0 7))
  | 0x7C => .row [zero w .typeCode 10 23 1] (.fcmpLe mods (fld w 21 2) (fld w 14 7) (fld w 7 7) (fld w 0 7))
  | 0x7D => .row [zero w .typeCode 10 23 1] (.fcmpGt mods (fld w 21 2) (fld w 14 7) (fld w 7 7) (fld w 0 7))
  | 0x7E => .row [zero w .typeCode 10 23 1] (.fcmpGe mods (fld w 21 2) (fld w 14 7) (fld w 7 7) (fld w 0 7))
  | 0x7F => .row [zero w .typeCode 10 23 1] (.fcmpUn mods (fld w 21 2) (fld w 14 7) (fld w 7 7) (fld w 0 7))
  | 0x80 => .row [zero w .typeCode 10 23 1] (.fcmpOr mods (fld w 21 2) (fld w 14 7) (fld w 7 7) (fld w 0 7))
  | 0x81 => .row [zero w .typeCode 10 23 1, zero w .reserved 1 0 7] (.fclass mods (fld w 21 2) (fld w 14 7) (fld w 7 7))
  | 0x82 =>
    if fld w 3 2 = 0#2 then .row [zero w .reserved 1 5 2] (.fcvt mods (fld w 21 3) (fld w 14 7) (fld w 7 7) (fld w 0 3))
    else if fld w 3 2 = 1#2 then .row [zero w .reserved 1 5 2] (.fcvtToInt mods (fld w 21 3) (fld w 14 7) (fld w 7 7) (fld w 0 3))
    else if fld w 3 2 = 2#2 then .row [zero w .reserved 1 5 2] (.fcvtFromInt mods (fld w 21 3) (fld w 14 7) (fld w 7 7) (fld w 0 3))
    else .row [zero w .reserved 1 5 2, ⟨.typeCode, 1, false⟩] (.fcvt mods (fld w 21 3) (fld w 14 7) (fld w 7 7) (fld w 0 3))
  | 0x83 => .row [zero w .typeCode 10 23 1, zero w .reserved 1 0 7] (.frnd mods (fld w 21 2) (fld w 14 7) (fld w 7 7))
  | 0x84 =>
    if fld w 22 2 = 0#2 then .row [] (.hadd2 mods (fld w 21 1) (fld w 14 7) (fld w 7 7) (fld w 0 7))
    else .bad .fn 10
  | 0x85 =>
    if fld w 22 2 = 0#2 then .row [] (.hmul2 mods (fld w 21 1) (fld w 14 7) (fld w 7 7) (fld w 0 7))
    else .bad .fn 10
  | 0x86 =>
    if fld w 22 2 = 0#2 then .row [] (.hfma2 mods (fld w 21 1) (fld w 14 7) (fld w 7 7) (fld w 0 7))
    else .bad .fn 10
  | 0x87 => .row [] (.hcmp2 mods (fld w 22 2) (fld w 21 1) (fld w 14 7) (fld w 7 7) (fld w 0 7))
  | 0x90 => .row [zero w .typeCode 10 23 1, zero w .reserved 1 0 7] (.srcp mods (fld w 21 2) (fld w 14 7) (fld w 7 7))
  | 0x91 => .row [zero w .typeCode 10 23 1, zero w .reserved 1 0 7] (.srsq mods (fld w 21 2) (fld w 14 7) (fld w 7 7))
  | 0x92 => .row [zero w .typeCode 10 23 1, zero w .reserved 1 0 7] (.ssqrt mods (fld w 21 2) (fld w 14 7) (fld w 7 7))
  | 0x93 => .row [zero w .typeCode 10 23 1, zero w .reserved 1 0 7] (.sexp2 mods (fld w 21 2) (fld w 14 7) (fld w 7 7))
  | 0x94 => .row [zero w .typeCode 10 23 1, zero w .reserved 1 0 7] (.slog2 mods (fld w 21 2) (fld w 14 7) (fld w 7 7))
  | 0x95 => .row [zero w .typeCode 10 23 1, zero w .reserved 1 0 7] (.ssin mods (fld w 21 2) (fld w 14 7) (fld w 7 7))
  | 0x96 => .row [zero w .typeCode 10 23 1, zero w .reserved 1 0 7] (.scos mods (fld w 21 2) (fld w 14 7) (fld w 7 7))
  | 0x97 => .row [zero w .typeCode 10 23 1, zero w .reserved 1 0 7] (.stanh mods (fld w 21 2) (fld w 14 7) (fld w 7 7))
  | 0x98 => .row [zero w .highBits 3 18 3] (.wmad mods (fld w 21 3) (fld w 14 4) (fld w 7 7) (fld w 0 7))
  | 0x99 => .row [zero w .highBits 3 18 3] (.wdot4 mods (fld w 21 3) (fld w 14 4) (fld w 7 7) (fld w 0 7))
  | 0x9A =>
    if fld w 22 2 = 0#2 then .row [zero w .highBits 3 18 3, zero w .highBits 0 11 3, zero w .highBits 1 4 3] (.waddAccumulator mods (fld w 21 1) (fld w 14 4) (fld w 7 4) (fld w 0 4))
    else .bad .fn 10
  | 0x9B =>
    if fld w 21 3 = 0#3 then .row [zero w .highBits 3 18 3, zero w .reserved 0 7 7, zero w .reserved 1 0 7] (.wclr mods (fld w 14 4))
    else .bad .fn 10
  | 0x9C => .row [zero w .highBits 0 11 3, zero w .reserved 1 0 7] (.narrow mods (fld w 21 3) (fld w 14 7) (fld w 7 4))
  | 0x9D => .row [zero w .highBits 3 18 3, zero w .reserved 1 0 7] (.widen mods (fld w 21 3) (fld w 14 4) (fld w 7 7))
  | 0xA0 =>
    if fld w 21 2 = 0#2 then .row [] (.shfl mods (fld w 23 1) (fld w 14 7) (fld w 7 7) (fld w 0 7))
    else if fld w 21 2 = 1#2 then .row [] (.shflx mods (fld w 23 1) (fld w 14 7) (fld w 7 7) (fld w 0 7))
    else if fld w 21 2 = 2#2 then .row [] (.shflu mods (fld w 23 1) (fld w 14 7) (fld w 7 7) (fld w 0 7))
    else if fld w 21 2 = 3#2 then .row [] (.shfld mods (fld w 23 1) (fld w 14 7) (fld w 7 7) (fld w 0 7))
    else .bad .fn 10
  | 0xA1 => .row [zero w .reserved 1 0 7] (.vote mods (fld w 21 3) (fld w 14 7) (fld w 7 7))
  | 0xA2 => .row [zero w .reserved 1 0 7] (.redg mods (fld w 21 3) (fld w 14 7) (fld w 7 7))
  | 0xA3 => .row [zero w .reserved 1 0 7] (.scang mods (fld w 21 3) (fld w 14 7) (fld w 7 7))
  | 0xA4 =>
    if fld w 22 2 = 0#2 then .row [zero w .reserved 1 0 7] (.matchLanes mods (fld w 21 1) (fld w 14 7) (fld w 7 7))
    else .bad .fn 10
  | 0xA5 => .row [zero w .typeCode 10 23 1, zero w .reserved 1 0 7] (.vkey mods (fld w 21 2) (fld w 14 7) (fld w 7 7))
  | 0xA8 => .row [] (.ldN8 mods (fld w 21 3) (fld w 14 7) (fld w 7 7) (fld w 5 2) (fld w 0 5))
  | 0xA9 => .row [] (.ldS8 mods (fld w 21 3) (fld w 14 7) (fld w 7 7) (fld w 5 2) (fld w 0 5))
  | 0xAA => .row [] (.ldN16 mods (fld w 21 3) (fld w 14 7) (fld w 7 7) (fld w 5 2) (fld w 0 5))
  | 0xAB => .row [] (.ldS16 mods (fld w 21 3) (fld w 14 7) (fld w 7 7) (fld w 5 2) (fld w 0 5))
  | 0xAC => .row [] (.ld32 mods (fld w 21 3) (fld w 14 7) (fld w 7 7) (fld w 5 2) (fld w 0 5))
  | 0xAD => .row [] (.ld64 mods (fld w 21 3) (fld w 14 7) (fld w 7 7) (fld w 5 2) (fld w 0 5))
  | 0xAE => .row [] (.ldv mods (fld w 21 3) (fld w 14 7) (fld w 7 7) (fld w 5 2) (fld w 0 5))
  | 0xAF => .row [] (.ldk mods (fld w 21 3) (fld w 14 7) (fld w 7 7) (fld w 5 2) (fld w 0 5))
  | 0xB0 => .row [] (.ldx mods (fld w 21 3) (fld w 14 7) (fld w 7 7) (fld w 5 2) (fld w 0 5))
  | 0xB1 => .row [zero w .reserved 3 14 7] (.pf mods (fld w 21 3) (fld w 7 7) (fld w 5 2) (fld w 0 5))
  | 0xB2 => .row [zero w .reserved 12 5 2] (.lds mods (fld w 21 3) (fld w 14 7) (fld w 7 7) (fld w 0 5))
  | 0xB3 =>
    if fld w 21 3 = 0#3 then .row [] (.gtest mods (fld w 14 7) (fld w 7 7) (fld w 0 7))
    else if fld w 21 3 = 1#3 then .row [zero w .reserved 3 14 7] (.gacc mods (fld w 7 7) (fld w 0 7))
    else if fld w 21 3 = 2#3 then .row [zero w .reserved 3 14 7] (.gdem mods (fld w 7 7) (fld w 0 7))
    else if fld w 21 3 = 3#3 then .row [] (.gchk mods (fld w 14 7) (fld w 7 7) (fld w 0 7))
    else if fld w 21 3 = 4#3 then .row [] (.ptest mods (fld w 14 7) (fld w 7 7) (fld w 0 7))
    else .bad .fn 10
  | 0xB4 =>
    if fld w 23 1 = 0#1 then .row [] (.st mods (fld w 21 2) (fld w 14 7) (fld w 7 7) (fld w 5 2) (fld w 0 5))
    else .bad .fn 10
  | 0xB5 =>
    if fld w 21 3 = 0#3 then .row [] (.stv mods (fld w 14 7) (fld w 7 7) (fld w 5 2) (fld w 0 5))
    else .bad .fn 10
  | 0xB6 =>
    if fld w 23 1 = 0#1 then .row [] (.stg mods (fld w 21 2) (fld w 14 7) (fld w 7 7) (fld w 5 2) (fld w 0 5))
    else .bad .fn 10
  | 0xB7 => .row [zero w .reserved 12 5 2] (.sts mods (fld w 21 3) (fld w 14 7) (fld w 7 7) (fld w 0 5))
  | 0xB8 =>
    if fld w 21 3 = 0#3 then .row [] (.aadd mods (fld w 24 1) (fld w 14 7) (fld w 10 4) (fld w 7 3) (fld w 0 7))
    else if fld w 21 3 = 1#3 then .row [] (.amin mods (fld w 24 1) (fld w 14 7) (fld w 10 4) (fld w 7 3) (fld w 0 7))
    else if fld w 21 3 = 2#3 then .row [] (.amax mods (fld w 24 1) (fld w 14 7) (fld w 10 4) (fld w 7 3) (fld w 0 7))
    else if fld w 21 3 = 3#3 then .row [] (.aand mods (fld w 24 1) (fld w 14 7) (fld w 10 4) (fld w 7 3) (fld w 0 7))
    else if fld w 21 3 = 4#3 then .row [] (.aor mods (fld w 24 1) (fld w 14 7) (fld w 10 4) (fld w 7 3) (fld w 0 7))
    else if fld w 21 3 = 5#3 then .row [] (.axor mods (fld w 24 1) (fld w 14 7) (fld w 10 4) (fld w 7 3) (fld w 0 7))
    else if fld w 21 3 = 6#3 then .row [] (.axchg mods (fld w 24 1) (fld w 14 7) (fld w 10 4) (fld w 7 3) (fld w 0 7))
    else if fld w 21 3 = 7#3 then .row [] (.acas mods (fld w 24 1) (fld w 14 7) (fld w 10 4) (fld w 7 3) (fld w 0 7))
    else .bad .fn 10
  | 0xB9 =>
    if fld w 21 3 = 0#3 then .row [] (.aadd mods (fld w 24 1) (fld w 14 7) (fld w 10 4) (fld w 7 3) (fld w 0 7))
    else if fld w 21 3 = 1#3 then .row [] (.amin mods (fld w 24 1) (fld w 14 7) (fld w 10 4) (fld w 7 3) (fld w 0 7))
    else if fld w 21 3 = 2#3 then .row [] (.amax mods (fld w 24 1) (fld w 14 7) (fld w 10 4) (fld w 7 3) (fld w 0 7))
    else if fld w 21 3 = 3#3 then .row [] (.aand mods (fld w 24 1) (fld w 14 7) (fld w 10 4) (fld w 7 3) (fld w 0 7))
    else if fld w 21 3 = 4#3 then .row [] (.aor mods (fld w 24 1) (fld w 14 7) (fld w 10 4) (fld w 7 3) (fld w 0 7))
    else if fld w 21 3 = 5#3 then .row [] (.axor mods (fld w 24 1) (fld w 14 7) (fld w 10 4) (fld w 7 3) (fld w 0 7))
    else if fld w 21 3 = 6#3 then .row [] (.axchg mods (fld w 24 1) (fld w 14 7) (fld w 10 4) (fld w 7 3) (fld w 0 7))
    else if fld w 21 3 = 7#3 then .row [] (.acas mods (fld w 24 1) (fld w 14 7) (fld w 10 4) (fld w 7 3) (fld w 0 7))
    else .bad .fn 10
  | 0xBA =>
    if fld w 23 1 = 0#1 ∧ fld w 21 1 = 0#1 then .row [] (.aminN mods (fld w 22 1) (fld w 14 7) (fld w 10 4) (fld w 7 3) (fld w 0 7))
    else if fld w 23 1 = 0#1 ∧ fld w 21 1 = 1#1 then .row [] (.amaxN mods (fld w 22 1) (fld w 14 7) (fld w 10 4) (fld w 7 3) (fld w 0 7))
    else if fld w 22 2 = 2#2 then .row [] (.afadd mods (fld w 21 1) (fld w 14 7) (fld w 10 4) (fld w 7 3) (fld w 0 7))
    else if fld w 22 2 = 3#2 then .row [] (.afaddPair mods (fld w 21 1) (fld w 14 7) (fld w 10 4) (fld w 7 3) (fld w 0 7))
    else .bad .fn 10
  | 0xBB =>
    if fld w 22 2 = 0#2 then .row [] (.ldaq mods (fld w 21 1) (fld w 14 7) (fld w 10 4) (fld w 7 3) (fld w 0 7))
    else .bad .fn 10
  | 0xBC =>
    if fld w 23 1 = 0#1 then .row [zero w .reserved 3 14 7] (.strl mods (fld w 21 2) (fld w 10 4) (fld w 7 3) (fld w 0 7))
    else .bad .fn 10
  | 0xBD =>
    if fld w 21 3 = 0#3 then .row [zero w .reserved 3 19 2, zero w .reserved 0 7 7, zero w .reserved 1 0 7] (.fence mods (fld w 17 2) (fld w 14 3))
    else if fld w 21 3 = 1#3 then .row [zero w .reserved 3 19 2] (.rfence mods (fld w 17 2) (fld w 14 3) (fld w 7 7) (fld w 0 7))
    else if fld w 21 3 = 2#3 then .row [zero w .reserved 3 17 4, zero w .reserved 0 7 7, zero w .reserved 1 5 2] (.xfence mods (fld w 14 3) (fld w 0 5))
    else .bad .fn 10
  | 0xBE =>
    if fld w 21 3 = 0#3 then .row [zero w .reserved 12 5 2] (.lock mods (fld w 14 7) (fld w 7 7) (fld w 0 5))
    else if fld w 21 3 = 1#3 then .row [zero w .reserved 12 5 2] (.unlock mods (fld w 14 7) (fld w 7 7) (fld w 0 5))
    else if fld w 21 3 = 2#3 then .row [zero w .reserved 3 14 7, zero w .reserved 12 5 2] (.cinv mods (fld w 7 7) (fld w 0 5))
    else if fld w 21 3 = 3#3 then .row [zero w .reserved 3 14 7, zero w .reserved 12 5 2] (.cwb mods (fld w 7 7) (fld w 0 5))
    else .bad .fn 10
  | 0xC0 => .row [zero w .reserved 7 12 6, zero w .reserved 8 6 6, zero w .reserved 12 2 4] (.halloc mods (fld w 18 6) (fld w 0 2))
  | 0xC1 => .row [zero w .reserved 7 12 6, zero w .reserved 8 6 6, zero w .reserved 12 0 6] (.hrel mods (fld w 18 6))
  | 0xC2 => .row [zero w .reserved 6 19 5] (.hgive mods (fld w 18 1) (fld w 12 6) (fld w 6 6) (fld w 0 6))
  | 0xC3 => .row [zero w .reserved 7 12 6, zero w .reserved 8 6 6] (.htake mods (fld w 18 6) (fld w 0 6))
  | 0xC4 => .row [zero w .reserved 6 22 2, zero w .reserved 8 6 6, zero w .reserved 12 0 6] (.hinfo mods (fld w 18 4) (fld w 12 6))
  | 0xC5 => .row [zero w .highBits 3 20 1] (.tld mods (fld w 21 3) (fld w 14 6) (fld w 7 7) (fld w 5 2) (fld w 0 5))
  | 0xC6 => .row [zero w .highBits 3 20 1, zero w .reserved 12 6 1] (.tlds mods (fld w 21 3) (fld w 14 6) (fld w 7 7) (fld w 5 1) (fld w 0 5))
  | 0xC7 =>
    if fld w 21 3 = 0#3 then .row [zero w .highBits 3 20 1] (.tsto mods (fld w 14 6) (fld w 7 7) (fld w 5 2) (fld w 0 5))
    else .bad .fn 10
  | 0xC8 =>
    if fld w 21 3 = 0#3 then .row [zero w .highBits 3 20 1, zero w .reserved 12 6 1] (.tsts mods (fld w 14 6) (fld w 7 7) (fld w 5 1) (fld w 0 5))
    else .bad .fn 10
  | 0xC9 => .row [zero w .highBits 0 13 1] (.trd mods (fld w 21 3) (fld w 14 7) (fld w 7 6) (fld w 0 7))
  | 0xCA => .row [zero w .highBits 3 20 1] (.twr mods (fld w 21 3) (fld w 14 6) (fld w 7 7) (fld w 0 7))
  | 0xCB => .row [zero w .reserved 7 12 6, zero w .reserved 8 6 6] (.tzero mods (fld w 18 6) (fld w 0 6))
  | 0xCC =>
    if fld w 5 1 = 0#1 then .row [] (.mma mods (fld w 18 6) (fld w 12 6) (fld w 6 6) (fld w 3 2) (fld w 0 3))
    else if fld w 5 1 = 1#1 then .row [] (.mmas mods (fld w 18 6) (fld w 12 6) (fld w 6 6) (fld w 3 2) (fld w 0 3))
    else .bad .fn 10
  | 0xCD => .row [zero w .reserved 12 4 2] (.mmac mods (fld w 18 6) (fld w 12 6) (fld w 6 6) (fld w 3 1) (fld w 0 3))
  | 0xCE => .row [zero w .reserved 8 6 6] (.tscl mods (fld w 18 6) (fld w 12 6) (fld w 0 6))
  | 0xCF => .row [zero w .reserved 12 0 6] (.tacc mods (fld w 18 6) (fld w 12 6) (fld w 6 6))
  | 0xD0 => .row [] (.cpy mods (fld w 21 3) (fld w 14 7) (fld w 7 7) (fld w 0 7))
  | 0xD1 => .row [] (.cpy2 mods (fld w 21 3) (fld w 14 7) (fld w 7 7) (fld w 0 7))
  | 0xD2 => .row [] (.gath mods (fld w 23 1) (fld w 21 2) (fld w 14 7) (fld w 7 7) (fld w 0 7))
  | 0xD3 => .row [] (.scat mods (fld w 23 1) (fld w 21 2) (fld w 14 7) (fld w 7 7) (fld w 0 7))
  | 0xD4 =>
    if fld w 22 2 = 0#2 then .row [] (.cfill mods (fld w 21 1) (fld w 14 7) (fld w 7 7) (fld w 0 7))
    else .bad .fn 10
  | 0xD5 =>
    if fld w 21 3 = 0#3 then .row [zero w .reserved 0 7 7, zero w .reserved 1 0 7] (.cstat mods (fld w 14 7))
    else .bad .fn 10
  | 0xD8 =>
    if fld w 21 3 = 0#3 then .row [zero w .reserved 1 0 7] (.coll mods (fld w 14 7) (fld w 7 7))
    else .bad .fn 10
  | 0xD9 =>
    if fld w 21 3 = 0#3 then .row [] (.csigAdd mods (fld w 14 7) (fld w 7 7) (fld w 0 7))
    else if fld w 21 3 = 1#3 then .row [] (.csigSet mods (fld w 14 7) (fld w 7 7) (fld w 0 7))
    else .bad .fn 10
  | 0xDA =>
    if fld w 21 3 = 0#3 then .row [zero w .reserved 1 0 7] (.cwaitRec mods (fld w 14 7) (fld w 7 7))
    else if fld w 21 3 = 1#3 then .row [] (.cwaitGe mods (fld w 14 7) (fld w 7 7) (fld w 0 7))
    else .bad .fn 10
  | 0xDB =>
    if fld w 21 3 = 0#3 then .row [] (.step mods (fld w 14 7) (fld w 7 7) (fld w 0 7))
    else .bad .fn 10
  | 0xDC =>
    if fld w 21 3 = 0#3 then .row [] (.rpost mods (fld w 14 7) (fld w 7 7) (fld w 0 7))
    else .bad .fn 10
  | _ => .bad .opcode 15

/-- The instruction of a base word (R47, R61). -/
def decodeBase (mods : Mods) (w : W32) : Raw := decodeOpcode mods w (fld w 24 8).toNat

/-- The operand prefix of a word with opcode byte 0xFF (R52). -/
def decodeOpx (w : W32) : Opx := ⟨fld w 21 3, fld w 20 1, fld w 17 3, fld w 10 7, fld w 9 1, fld w 6 3, fld w 3 3⟩

/-- A rejection: the reason and the field code that DET0.INFO holds (R62, R133). -/
structure Reject where
  reason : Reason
  field : Nat
  deriving DecidableEq, Repr

/-- Whether one failed check is reported before another: by the order of R62, and within one reason by the lowest field code. -/
def Check.before (a b : Check) : Bool :=
  decide (a.reason.rank < b.reason.rank) || (a.reason.rank == b.reason.rank && decide (a.field < b.field))

/-- The failed check that R62 reports, if any. -/
def firstBad : List Check → Option Check
  | [] => none
  | c :: t =>
    match firstBad t with
    | none => if c.ok then none else some c
    | some d => if c.ok then some d else if d.before c then some d else some c

/-- What the words at an instruction address give. -/
inductive Decoded where
  /-- An instruction and its number of words. -/
  | ins (i : Instr) (words : Nat)
  /-- ILLEGAL, with the number of words read (R62). -/
  | illegal (r : Reject) (words : Nat)
  /-- The instruction goes on beyond the words given. -/
  | short
  deriving DecidableEq, Repr

/-- The base word after its prefixes. `opx` holds the OPX word, whose bits [2:0] must be 0 (R52). -/
def finish (mods : Mods) (opx : Option W32) (w : W32) (n : Nat) : Decoded :=
  match decodeBase mods w with
  | .bad r f => .illegal ⟨r, f⟩ n
  | .row cs i =>
    match firstBad (cs ++ (opx.map (fun o => zero o .reserved 11 0 3)).toList ++ i.checks) with
    | some c => .illegal ⟨c.reason, c.field⟩ n
    | none => .ins i n

/-- Whether a word is a base word, an IMX or an OPX (R45). -/
def isImx (w : W32) : Bool := fld w 24 8 == 0xFE#8
/-- See `isImx`. -/
def isOpx (w : W32) : Bool := fld w 24 8 == 0xFF#8

/-- The words that follow an OPX. -/
def decodeAfterOpx (imx : Option (BitVec 24)) (o : W32) (n : Nat) : List W32 → Decoded
  | [] => .short
  | w :: _ => if isImx w || isOpx w then .illegal ⟨.prefixSequence, 15⟩ (n + 1) else finish ⟨imx, some (decodeOpx o)⟩ (some o) w (n + 1)

/-- The words that follow an IMX. -/
def decodeAfterImx (x : BitVec 24) : List W32 → Decoded
  | [] => .short
  | w :: t =>
    if isImx w then .illegal ⟨.prefixSequence, 15⟩ 2
    else if isOpx w then decodeAfterOpx (some x) w 2 t
    else finish ⟨some x, none⟩ none w 2

/-- The instruction that stands at the start of a list of words (R44, R45). -/
def decodeWords : List W32 → Decoded
  | [] => .short
  | w :: t =>
    if isImx w then decodeAfterImx (fld w 0 24) t
    else if isOpx w then decodeAfterOpx none w 1 t
    else finish Mods.none none w 1

/-- The word of four bytes, low byte first (R9). -/
def wordOf (a b c d : Byte) : W32 := d ++ c ++ b ++ a

/-- The words of a list of bytes; bytes that do not fill a word are left out. -/
def wordsOf : List Byte → List W32
  | a :: b :: c :: d :: t => wordOf a b c d :: wordsOf t
  | _ => []

/-- The decoder on bytes: the instruction, and the bytes behind it. -/
def decodeBytes (l : List Byte) : Option (Instr × List Byte) :=
  match decodeWords (wordsOf l) with
  | .ins i n => some (i, l.drop (4 * n))
  | _ => none

/-- The instruction that the decoder reads from the bits of an opcode-table row, in `nbits` bits: bit 0 is the least significant bit of
the first word, words stand low byte first, and zero bytes follow. -/
def decodeTableWord (nbits w : Nat) : Option Instr :=
  (decodeBytes (bytesOf 12 (w % 2 ^ nbits))).map Prod.fst

/-- The OPX word of an operand prefix (R52). -/
def Opx.word (o : Opx) : W32 := 0xFF#8 ++ o.mask ++ o.mz ++ o.rm ++ o.c ++ o.sat ++ o.last ++ o.reuse ++ 0#3

/-- The IMX word of a 24-bit immediate (R44). -/
def imxWord (x : BitVec 24) : W32 := 0xFE#8 ++ x

/-- The base word of an instruction (R47 and the encoding tables of the entries). An event has none. -/
def Instr.word : Instr → W32
  | .nop _ => 0x0#8 ++ 0#3 ++ 0#7 ++ 0#7 ++ 0#7
  | .bra _ o => 0x1#8 ++ o
  | .brq _ q s o => 0x2#8 ++ q ++ s ++ o
  | .jmp _ f a => 0x3#8 ++ f ++ 0#7 ++ a ++ 0#7
  | .call _ o => 0x4#8 ++ o
  | .callr _ f a => 0x5#8 ++ f ++ 0#7 ++ a ++ 0#7
  | .ret _ => 0x6#8 ++ 0#3 ++ 0#7 ++ 0#7 ++ 0#7
  | .jct _ => 0x7#8 ++ 0#3 ++ 0#7 ++ 0#7 ++ 0#7
  | .fork _ f d a b => 0x8#8 ++ f ++ d ++ a ++ b
  | .quit _ => 0x9#8 ++ 0#3 ++ 0#7 ++ 0#7 ++ 0#7
  | .yield _ => 0xA#8 ++ 0#3 ++ 0#7 ++ 0#7 ++ 0#7
  | .win _ i => 0xB#8 ++ 0#3 ++ 0#7 ++ 0#7 ++ i
  | .winK _ a => 0xB#8 ++ 1#3 ++ 0#7 ++ a ++ 0#7
  | .wadd _ i => 0xC#8 ++ 0#3 ++ 0#7 ++ 0#7 ++ i
  | .kli _ d i => 0x10#8 ++ 0#3 ++ d ++ 0#7 ++ i
  | .khi _ n d a i => 0x11#8 ++ 0#1 ++ n ++ d ++ a ++ i
  | .kmov _ d a => 0x12#8 ++ 0#3 ++ d ++ a ++ 0#7
  | .kadd _ t d a b => 0x13#8 ++ 0#1 ++ t ++ d ++ a ++ b
  | .ksub _ t d a b => 0x14#8 ++ 0#1 ++ t ++ d ++ a ++ b
  | .kmul _ t d a b => 0x15#8 ++ 0#1 ++ t ++ d ++ a ++ b
  | .kmulh _ t d a b => 0x16#8 ++ 0#1 ++ t ++ d ++ a ++ b
  | .kdiv _ t d a b => 0x17#8 ++ 0#1 ++ t ++ d ++ a ++ b
  | .krem _ t d a b => 0x18#8 ++ 0#1 ++ t ++ d ++ a ++ b
  | .kand _ d a b => 0x19#8 ++ 0#3 ++ d ++ a ++ b
  | .kor _ d a b => 0x1A#8 ++ 0#3 ++ d ++ a ++ b
  | .kxor _ d a b => 0x1B#8 ++ 0#3 ++ d ++ a ++ b
  | .kshl _ t d a b => 0x1C#8 ++ 0#1 ++ t ++ 1#1 ++ d ++ a ++ b
  | .kshr _ t d a b => 0x1D#8 ++ 0#1 ++ t ++ 1#1 ++ d ++ a ++ b
  | .ksra _ t d a b => 0x1E#8 ++ 0#1 ++ t ++ 0#1 ++ d ++ a ++ b
  | .kmin _ t d a b => 0x1F#8 ++ 0#1 ++ t ++ d ++ a ++ b
  | .kmax _ t d a b => 0x20#8 ++ 0#1 ++ t ++ d ++ a ++ b
  | .kcmp _ c d a b => 0x21#8 ++ c ++ d ++ a ++ b
  | .ksel _ q d a b => 0x22#8 ++ q ++ d ++ a ++ b
  | .kclz _ t d a => 0x23#8 ++ 0#1 ++ t ++ 1#1 ++ d ++ a ++ 0#7
  | .kpopc _ t d a => 0x24#8 ++ 0#1 ++ t ++ 1#1 ++ d ++ a ++ 0#7
  | .kfromv _ f d a => 0x25#8 ++ f ++ d ++ a ++ 0#7
  | .kfromq _ f d => 0x26#8 ++ 0#2 ++ f ++ d ++ 0#7 ++ 0#7
  | .ktoq _ f d a => 0x27#8 ++ 0#2 ++ f ++ d ++ a ++ 0#7
  | .waitc _ l s c t => 0x28#8 ++ l ++ s ++ c ++ t
  | .gbar _ => 0x29#8 ++ 0#3 ++ 0#7 ++ 0#7 ++ 0#7
  | .tarr _ d => 0x2A#8 ++ 0#3 ++ d ++ 0#7 ++ 0#7
  | .twait _ => 0x2B#8 ++ 0#3 ++ 0#7 ++ 0#7 ++ 0#7
  | .mbar _ => 0x2C#8 ++ 0#3 ++ 0#7 ++ 0#7 ++ 0#7
  | .lease _ d i => 0x2D#8 ++ 0#3 ++ d ++ 0#7 ++ i
  | .leaseK _ d a => 0x2D#8 ++ 1#3 ++ d ++ a ++ 0#7
  | .leaseRd _ d => 0x2D#8 ++ 2#3 ++ d ++ 0#7 ++ 0#7
  | .lnch _ d a b => 0x2E#8 ++ 0#3 ++ d ++ a ++ b
  | .trap _ i => 0x30#8 ++ 0#3 ++ 0#7 ++ 0#7 ++ i
  | .assertQ _ f a b => 0x31#8 ++ 0#2 ++ f ++ 0#7 ++ a ++ b
  | .tret _ => 0x32#8 ++ 0#3 ++ 0#7 ++ 0#7 ++ 0#7
  | .tmsk _ d i => 0x33#8 ++ 0#3 ++ d ++ 0#7 ++ 0#6 ++ i
  | .srd _ d n => 0x34#8 ++ 0#3 ++ d ++ 0#7 ++ n
  | .swr _ a n => 0x35#8 ++ 0#3 ++ 0#7 ++ a ++ n
  | .swrOr _ a n => 0x35#8 ++ 1#3 ++ 0#7 ++ a ++ n
  | .swrClr _ a n => 0x35#8 ++ 2#3 ++ 0#7 ++ a ++ n
  | .brk _ i => 0x36#8 ++ 0#3 ++ 0#7 ++ 0#7 ++ i
  | .halt _ => 0x37#8 ++ 0#3 ++ 0#7 ++ 0#7 ++ 0#7
  | .vadd _ t d a b => 0x40#8 ++ t ++ d ++ a ++ b
  | .vsub _ t d a b => 0x41#8 ++ t ++ d ++ a ++ b
  | .vmul _ t d a b => 0x42#8 ++ t ++ d ++ a ++ b
  | .vmulh _ t d a b => 0x43#8 ++ t ++ d ++ a ++ b
  | .vmad _ t d a b => 0x44#8 ++ t ++ d ++ a ++ b
  | .vdiv _ t d a b => 0x45#8 ++ t ++ d ++ a ++ b
  | .vrem _ t d a b => 0x46#8 ++ t ++ d ++ a ++ b
  | .vmin _ t d a b => 0x47#8 ++ t ++ d ++ a ++ b
  | .vmax _ t d a b => 0x48#8 ++ t ++ d ++ a ++ b
  | .vabs _ t d a => 0x49#8 ++ t ++ d ++ a ++ 0#7
  | .vand _ t d a b => 0x4A#8 ++ t ++ d ++ a ++ b
  | .vor _ t d a b => 0x4B#8 ++ t ++ d ++ a ++ b
  | .vxor _ t d a b => 0x4C#8 ++ t ++ d ++ a ++ b
  | .vnot _ t d a => 0x4D#8 ++ t ++ d ++ a ++ 0#7
  | .vshl _ t d a b => 0x4E#8 ++ t ++ d ++ a ++ b
  | .vshr _ t d a b => 0x4F#8 ++ t ++ d ++ a ++ b
  | .vsra _ t d a b => 0x50#8 ++ t ++ d ++ a ++ b
  | .vrot _ t d a b => 0x51#8 ++ t ++ d ++ a ++ b
  | .vclz _ t d a => 0x52#8 ++ t ++ d ++ a ++ 0#7
  | .vpopc _ t d a => 0x53#8 ++ t ++ d ++ a ++ 0#7
  | .vbrev _ t d a => 0x54#8 ++ t ++ d ++ a ++ 0#7
  | .vsel _ q d a b => 0x55#8 ++ q ++ d ++ a ++ b
  | .vmov _ w d a => 0x56#8 ++ 0#2 ++ w ++ d ++ a ++ 0#7
  | .vli _ d i => 0x57#8 ++ 0#3 ++ d ++ 0#7 ++ i
  | .vliHi _ d i => 0x57#8 ++ 1#3 ++ d ++ 0#7 ++ i
  | .vcmpEq _ t d a b => 0x58#8 ++ t ++ d ++ a ++ b
  | .vcmpNe _ t d a b => 0x59#8 ++ t ++ d ++ a ++ b
  | .vcmpLt _ t d a b => 0x5A#8 ++ t ++ d ++ a ++ b
  | .vcmpLe _ t d a b => 0x5B#8 ++ t ++ d ++ a ++ b
  | .vcmpGt _ t d a b => 0x5C#8 ++ t ++ d ++ a ++ b
  | .vcmpGe _ t d a b => 0x5D#8 ++ t ++ d ++ a ++ b
  | .vbcast _ w d a => 0x5E#8 ++ 0#2 ++ w ++ d ++ a ++ 0#7
  | .vcvti _ t d a s => 0x5F#8 ++ t ++ d ++ a ++ 0#4 ++ s
  | .qand _ d a b => 0x60#8 ++ 0#3 ++ d ++ a ++ b
  | .qor _ d a b => 0x61#8 ++ 0#3 ++ d ++ a ++ b
  | .qxor _ d a b => 0x62#8 ++ 0#3 ++ d ++ a ++ b
  | .qnot _ d a => 0x63#8 ++ 0#3 ++ d ++ a ++ 0#7
  | .qmov _ d a => 0x64#8 ++ 0#3 ++ d ++ a ++ 0#7
  | .fadd _ t d a b => 0x70#8 ++ 0#1 ++ t ++ d ++ a ++ b
  | .fsub _ t d a b => 0x71#8 ++ 0#1 ++ t ++ d ++ a ++ b
  | .fmul _ t d a b => 0x72#8 ++ 0#1 ++ t ++ d ++ a ++ b
  | .ffma _ t d a b => 0x73#8 ++ 0#1 ++ t ++ d ++ a ++ b
  | .fmin _ t d a b => 0x74#8 ++ 0#1 ++ t ++ d ++ a ++ b
  | .fmax _ t d a b => 0x75#8 ++ 0#1 ++ t ++ d ++ a ++ b
  | .fsgn _ t d a b => 0x76#8 ++ 0#1 ++ t ++ d ++ a ++ b
  | .fsgnNeg _ t d a b => 0x77#8 ++ 0#1 ++ t ++ d ++ a ++ b
  | .fsgnXor _ t d a b => 0x78#8 ++ 0#1 ++ t ++ d ++ a ++ b
  | .fcmpEq _ t d a b => 0x79#8 ++ 0#1 ++ t ++ d ++ a ++ b
  | .fcmpNe _ t d a b => 0x7A#8 ++ 0#1 ++ t ++ d ++ a ++ b
  | .fcmpLt _ t d a b => 0x7B#8 ++ 0#1 ++ t ++ d ++ a ++ b
  | .fcmpLe _ t d a b => 0x7C#8 ++ 0#1 ++ t ++ d ++ a ++ b
  | .fcmpGt _ t d a b => 0x7D#8 ++ 0#1 ++ t ++ d ++ a ++ b
  | .fcmpGe _ t d a b => 0x7E#8 ++ 0#1 ++ t ++ d ++ a ++ b
  | .fcmpUn _ t d a b => 0x7F#8 ++ 0#1 ++ t ++ d ++ a ++ b
  | .fcmpOr _ t d a b => 0x80#8 ++ 0#1 ++ t ++ d ++ a ++ b
  | .fclass _ t d a => 0x81#8 ++ 0#1 ++ t ++ d ++ a ++ 0#7
  | .fcvt _ f d a s => 0x82#8 ++ f ++ d ++ a ++ 0#2 ++ 0#2 ++ s
  | .fcvtToInt _ f d a s => 0x82#8 ++ f ++ d ++ a ++ 0#2 ++ 1#2 ++ s
  | .fcvtFromInt _ f d a s => 0x82#8 ++ f ++ d ++ a ++ 0#2 ++ 2#2 ++ s
  | .frnd _ t d a => 0x83#8 ++ 0#1 ++ t ++ d ++ a ++ 0#7
  | .hadd2 _ f d a b => 0x84#8 ++ 0#2 ++ f ++ d ++ a ++ b
  | .hmul2 _ f d a b => 0x85#8 ++ 0#2 ++ f ++ d ++ a ++ b
  | .hfma2 _ f d a b => 0x86#8 ++ 0#2 ++ f ++ d ++ a ++ b
  | .hcmp2 _ c f d a b => 0x87#8 ++ c ++ f ++ d ++ a ++ b
  | .srcp _ t d a => 0x90#8 ++ 0#1 ++ t ++ d ++ a ++ 0#7
  | .srsq _ t d a => 0x91#8 ++ 0#1 ++ t ++ d ++ a ++ 0#7
  | .ssqrt _ t d a => 0x92#8 ++ 0#1 ++ t ++ d ++ a ++ 0#7
  | .sexp2 _ t d a => 0x93#8 ++ 0#1 ++ t ++ d ++ a ++ 0#7
  | .slog2 _ t d a => 0x94#8 ++ 0#1 ++ t ++ d ++ a ++ 0#7
  | .ssin _ t d a => 0x95#8 ++ 0#1 ++ t ++ d ++ a ++ 0#7
  | .scos _ t d a => 0x96#8 ++ 0#1 ++ t ++ d ++ a ++ 0#7
  | .stanh _ t d a => 0x97#8 ++ 0#1 ++ t ++ d ++ a ++ 0#7
  | .wmad _ f w a b => 0x98#8 ++ f ++ 0#3 ++ w ++ a ++ b
  | .wdot4 _ f w a b => 0x99#8 ++ f ++ 0#3 ++ w ++ a ++ b
  | .waddAccumulator _ f d a b => 0x9A#8 ++ 0#2 ++ f ++ 0#3 ++ d ++ 0#3 ++ a ++ 0#3 ++ b
  | .wclr _ d => 0x9B#8 ++ 0#3 ++ 0#3 ++ d ++ 0#7 ++ 0#7
  | .narrow _ f d a => 0x9C#8 ++ f ++ d ++ 0#3 ++ a ++ 0#7
  | .widen _ f d a => 0x9D#8 ++ f ++ 0#3 ++ d ++ a ++ 0#7
  | .shfl _ w d a b => 0xA0#8 ++ w ++ 0#2 ++ d ++ a ++ b
  | .shflx _ w d a b => 0xA0#8 ++ w ++ 1#2 ++ d ++ a ++ b
  | .shflu _ w d a b => 0xA0#8 ++ w ++ 2#2 ++ d ++ a ++ b
  | .shfld _ w d a b => 0xA0#8 ++ w ++ 3#2 ++ d ++ a ++ b
  | .vote _ f d a => 0xA1#8 ++ f ++ d ++ a ++ 0#7
  | .redg _ f d a => 0xA2#8 ++ f ++ d ++ a ++ 0#7
  | .scang _ f d a => 0xA3#8 ++ f ++ d ++ a ++ 0#7
  | .matchLanes _ f d a => 0xA4#8 ++ 0#2 ++ f ++ d ++ a ++ 0#7
  | .vkey _ t d a => 0xA5#8 ++ 0#1 ++ t ++ d ++ a ++ 0#7
  | .ldN8 _ l d b p o => 0xA8#8 ++ l ++ d ++ b ++ p ++ o
  | .ldS8 _ l d b p o => 0xA9#8 ++ l ++ d ++ b ++ p ++ o
  | .ldN16 _ l d b p o => 0xAA#8 ++ l ++ d ++ b ++ p ++ o
  | .ldS16 _ l d b p o => 0xAB#8 ++ l ++ d ++ b ++ p ++ o
  | .ld32 _ l d b p o => 0xAC#8 ++ l ++ d ++ b ++ p ++ o
  | .ld64 _ l d b p o => 0xAD#8 ++ l ++ d ++ b ++ p ++ o
  | .ldv _ l d b p o => 0xAE#8 ++ l ++ d ++ b ++ p ++ o
  | .ldk _ l d b p o => 0xAF#8 ++ l ++ d ++ b ++ p ++ o
  | .ldx _ l d b p o => 0xB0#8 ++ l ++ d ++ b ++ p ++ o
  | .pf _ l b p o => 0xB1#8 ++ l ++ 0#7 ++ b ++ p ++ o
  | .lds _ f d b o => 0xB2#8 ++ f ++ d ++ b ++ 0#2 ++ o
  | .gtest _ d a s => 0xB3#8 ++ 0#3 ++ d ++ a ++ s
  | .gacc _ a s => 0xB3#8 ++ 1#3 ++ 0#7 ++ a ++ s
  | .gdem _ a s => 0xB3#8 ++ 2#3 ++ 0#7 ++ a ++ s
  | .gchk _ d a s => 0xB3#8 ++ 3#3 ++ d ++ a ++ s
  | .ptest _ d a s => 0xB3#8 ++ 4#3 ++ d ++ a ++ s
  | .st _ w d b p o => 0xB4#8 ++ 0#1 ++ w ++ d ++ b ++ p ++ o
  | .stv _ d b p o => 0xB5#8 ++ 0#3 ++ d ++ b ++ p ++ o
  | .stg _ w d b p o => 0xB6#8 ++ 0#1 ++ w ++ d ++ b ++ p ++ o
  | .sts _ w d b o => 0xB7#8 ++ w ++ d ++ b ++ 0#2 ++ o
  | .aadd _ w d k s b => 0x5C#7 ++ w ++ 0#3 ++ d ++ k ++ s ++ b
  | .amin _ w d k s b => 0x5C#7 ++ w ++ 1#3 ++ d ++ k ++ s ++ b
  | .amax _ w d k s b => 0x5C#7 ++ w ++ 2#3 ++ d ++ k ++ s ++ b
  | .aand _ w d k s b => 0x5C#7 ++ w ++ 3#3 ++ d ++ k ++ s ++ b
  | .aor _ w d k s b => 0x5C#7 ++ w ++ 4#3 ++ d ++ k ++ s ++ b
  | .axor _ w d k s b => 0x5C#7 ++ w ++ 5#3 ++ d ++ k ++ s ++ b
  | .axchg _ w d k s b => 0x5C#7 ++ w ++ 6#3 ++ d ++ k ++ s ++ b
  | .acas _ w d k s b => 0x5C#7 ++ w ++ 7#3 ++ d ++ k ++ s ++ b
  | .aminN _ w d k s b => 0xBA#8 ++ 0#1 ++ w ++ 0#1 ++ d ++ k ++ s ++ b
  | .amaxN _ w d k s b => 0xBA#8 ++ 0#1 ++ w ++ 1#1 ++ d ++ k ++ s ++ b
  | .afadd _ w d k s b => 0xBA#8 ++ 2#2 ++ w ++ d ++ k ++ s ++ b
  | .afaddPair _ t d k s b => 0xBA#8 ++ 3#2 ++ t ++ d ++ k ++ s ++ b
  | .ldaq _ w d k s v => 0xBB#8 ++ 0#2 ++ w ++ d ++ k ++ s ++ v
  | .strl _ w k s b => 0xBC#8 ++ 0#1 ++ w ++ 0#7 ++ k ++ s ++ b
  | .fence _ n s => 0xBD#8 ++ 0#3 ++ 0#2 ++ n ++ s ++ 0#7 ++ 0#7
  | .rfence _ n s a b => 0xBD#8 ++ 1#3 ++ 0#2 ++ n ++ s ++ a ++ b
  | .xfence _ s p => 0xBD#8 ++ 2#3 ++ 0#4 ++ s ++ 0#7 ++ 0#2 ++ p
  | .lock _ d b o => 0xBE#8 ++ 0#3 ++ d ++ b ++ 0#2 ++ o
  | .unlock _ d b o => 0xBE#8 ++ 1#3 ++ d ++ b ++ 0#2 ++ o
  | .cinv _ b o => 0xBE#8 ++ 2#3 ++ 0#7 ++ b ++ 0#2 ++ o
  | .cwb _ b o => 0xBE#8 ++ 3#3 ++ 0#7 ++ b ++ 0#2 ++ o
  | .halloc _ d k => 0xC0#8 ++ d ++ 0#6 ++ 0#6 ++ 0#4 ++ k
  | .hrel _ d => 0xC1#8 ++ d ++ 0#6 ++ 0#6 ++ 0#6
  | .hgive _ k a n c => 0xC2#8 ++ 0#5 ++ k ++ a ++ n ++ c
  | .htake _ d c => 0xC3#8 ++ d ++ 0#6 ++ 0#6 ++ c
  | .hinfo _ k a => 0xC4#8 ++ 0#2 ++ k ++ a ++ 0#6 ++ 0#6
  | .tld _ f h b p o => 0xC5#8 ++ f ++ 0#1 ++ h ++ b ++ p ++ o
  | .tlds _ f h b t o => 0xC6#8 ++ f ++ 0#1 ++ h ++ b ++ 0#1 ++ t ++ o
  | .tsto _ h b p o => 0xC7#8 ++ 0#3 ++ 0#1 ++ h ++ b ++ p ++ o
  | .tsts _ h b t o => 0xC8#8 ++ 0#3 ++ 0#1 ++ h ++ b ++ 0#1 ++ t ++ o
  | .trd _ f d h i => 0xC9#8 ++ f ++ d ++ 0#1 ++ h ++ i
  | .twr _ f h a i => 0xCA#8 ++ f ++ 0#1 ++ h ++ a ++ i
  | .tzero _ d m => 0xCB#8 ++ d ++ 0#6 ++ 0#6 ++ m
  | .mma _ d a b y x => 0xCC#8 ++ d ++ a ++ b ++ 0#1 ++ y ++ x
  | .mmas _ d a b y x => 0xCC#8 ++ d ++ a ++ b ++ 1#1 ++ y ++ x
  | .mmac _ d a b h x => 0xCD#8 ++ d ++ a ++ b ++ 0#2 ++ h ++ x
  | .tscl _ d a e => 0xCE#8 ++ d ++ a ++ 0#6 ++ e
  | .tacc _ d a b => 0xCF#8 ++ d ++ a ++ b ++ 0#6
  | .cpy _ f d a b => 0xD0#8 ++ f ++ d ++ a ++ b
  | .cpy2 _ f d a b => 0xD1#8 ++ f ++ d ++ a ++ b
  | .gath _ s z d a b => 0xD2#8 ++ s ++ z ++ d ++ a ++ b
  | .scat _ s z d a b => 0xD3#8 ++ s ++ z ++ d ++ a ++ b
  | .cfill _ f d a b => 0xD4#8 ++ 0#2 ++ f ++ d ++ a ++ b
  | .cstat _ d => 0xD5#8 ++ 0#3 ++ d ++ 0#7 ++ 0#7
  | .coll _ d a => 0xD8#8 ++ 0#3 ++ d ++ a ++ 0#7
  | .csigAdd _ d a b => 0xD9#8 ++ 0#3 ++ d ++ a ++ b
  | .csigSet _ d a b => 0xD9#8 ++ 1#3 ++ d ++ a ++ b
  | .cwaitRec _ d a => 0xDA#8 ++ 0#3 ++ d ++ a ++ 0#7
  | .cwaitGe _ d a b => 0xDA#8 ++ 1#3 ++ d ++ a ++ b
  | .step _ d a b => 0xDB#8 ++ 0#3 ++ d ++ a ++ b
  | .rpost _ d a b => 0xDC#8 ++ 0#3 ++ d ++ a ++ b
  | .returnFillArrival .. | .junctionRelease .. | .junctionTimeout .. | .barrierArrival .. | .mbarReleaseStep ..
  | .ageCounterExpiry .. | .launchRecordTake .. | .teamPlacement .. | .laybyMove .. | .carriagewayAdmission ..
  | .laybyPending .. | .pendingEviction .. | .leaseWindowEnd .. | .groupEnd .. | .gridEnd .. | .preemptionRequest ..
  | .preemptionTimeout .. | .supervisorStop .. | .haltLineArrival .. | .engineStop .. | .haltCompletion .. | .contextResume ..
  | .contextEnd .. | .pageWalk .. | .translationFaultResolved .. | .translationFaultUnresolved .. | .invalidation ..
  | .biasFlip .. | .deadlineExpiry .. | .loadDataArrival .. | .ticketTruthArrival .. | .storePerformed .. | .atomicPerformed ..
  | .promotionDrain .. | .l1InvalidationArrival .. | .l1FillArrival .. | .hostSharedRequest .. | .hostExclusiveRequest ..
  | .hostWriteBack .. | .hostMemoryAccess .. | .dieLinkRequest .. | .copyPiece .. | .copyRetire .. | .matrixPass ..
  | .tileOperationRetire .. | .causewayAbandon .. | .nodeErrorReply .. | .notifyMessage .. | .launchMessage .. | .rpostReply ..
  | .rpostTimeout .. | .collCompletion .. | .collTimeout .. | .remotePutArrival .. | .remoteSignalArrival .. | .cwaitReread ..
  | .stepApply .. | .bucketRefill .. | .vfBringup .. | .vfTeardown .. | .allowanceReclaim .. | .quarantineEnd ..
  | .deadOwnerPacket .. | .uncorrectableMemoryError .. | .correctedMemoryError .. | .pallowSetWrite .. | .pallowTripClear ..
  | .allowanceCut | .powerControlStep .. | .currentLimiter .. | .ratioChange .. | .energyCharge .. | .energyScaling ..
  | .sramRailStep .. | .uncorrectableSramError .. | .railHoldEnd .. | .hbmTemperatureSample .. | .dieThermalTrip ..
  | .heartbeatWrite | .heartbeatMiss | .coreRetirement .. | .hbmChannelSparing .. | .llcWayDisable .. | .causewayLaneSpare ..
  | .portFailover .. | .coldReset | .railPowerDown | .leasewWrite .. | .dfwWrite .. | .vuesClear .. | .vovfClear ..
  | .registerWrite .. | .pendingResultRetire .. | .contextSetup .. | .rdmaAccess .. | .remoteMessageDropped ..
  | .tagCheckFailure .. | .csigReply .. | .csigTimeout .. | .dieThermalRecovery .. => 0

/-- The prefix words of an instruction, in the order of R44. -/
def Mods.words (m : Mods) : List W32 := (m.imx.map imxWord).toList ++ (m.opx.map Opx.word).toList

/-- The words of an instruction: its prefixes and its base word (R44). -/
def encode (i : Instr) : List W32 := i.mods.words ++ [i.word]

end Sys2Proof
end

