-- ==== Sys2Proof/Config.lean ====
section
/-! DEFINITION. What is fixed for the FK9, and the free values: constants without a body where the manual leaves a value open. -/

namespace Sys2Proof.Config

/-- Compute dies of the package (R2). -/
def dies : Nat := 4

/-- Enabled cores per die, numbered 0 to 79 (R2, R98). -/
def coresPerDie : Nat := 80

/-- Spare cores per die (R2). -/
def sparesPerDie : Nat := 4

/-- Tracks per core (R2). -/
def tracksPerCore : Nat := 8

/-- Lanes of a group (R26). -/
def lanes : Nat := 32

/-- Resident groups per track (R96). -/
def groupsPerTrack : Nat := 32

/-- Groups on the carriageway of a track (R100). -/
def carriagewayGroups : Nat := 8

/-- Guess tickets per core (R230). -/
def tickets : Nat := 4096

/-- Copies in flight per core (R335). -/
def copies : Nat := 256

/-- Ranges of a core's scoreboard (R336). -/
def ranges : Nat := 256

/-- Operand slots of a core's tile store (R303). -/
def operandSlots : Nat := 1024

/-- Slots of a core's accumulator store (R303). -/
def accumulatorSlots : Nat := 768

/-- Slot versions one group may hold (R303). -/
def slotsPerGroup : Nat := 256

/-- Bytes of a line (R199). -/
def line : Nat := 128

/-- Lines of the L1, 256 KiB (R2). -/
def l1Lines : Nat := 2048

/-- Lines of the instruction cache, 64 KiB (R3). -/
def icacheLines : Nat := 512

/-- Lines of a die's LLC, 256 MiB (R4). -/
def llcLines : Nat := 2097152

/-- Memory stacks of a die (R4). -/
def stacksPerDie : Nat := 3

/-- Bytes of the register cache of a track, and of the scratch of a core (R3). -/
def registerCache : Nat := 196608
/-- See `registerCache`. -/
def scratchBytes : Nat := 262144

/-- Ways of a set of the L2 (R201). -/
def l2Ways : Nat := 16

/-- Sticky bound of an operation counter (R19). -/
def counterMax : Nat := 63

/-- L1 lease budget of a core in KiB (R104). -/
def leaseBudget : Nat := 192

/-- Entries of a core's L1 TLB (R207). -/
def coreTlb : Nat := 256

/-- Entries of a die's L2 TLB (R207). -/
def dieTlb : Nat := 16384

/-- Ticks after which an unanswered remote request is abandoned (R349, R362). -/
def abandonTicks : Nat := 2000000

/-- What a byte of memory that nothing has written reads as. DESIGN CHOICE, log entry 5: a cold reset keeps no data (R386) and
the manual names no contents; unsafe. -/
def unlistedByte : Byte := 0#8

/-- FREE VALUE. The draws of the stochastic-rounding generators (R150), by the number of the draw; log entry 3. -/
opaque rand : Nat → BitVec 16

/-- FREE VALUE. The unpublished SFU function (R175): operation code, format code and input bits to result bits. A result outside
the bounds of R175 is not used; log entry 6. -/
opaque sfu : Nat → Nat → Nat → Nat

/-- FREE VALUE. Bytes whose contents carry no meaning: data of an uncorrectable error (R245), lines read under another owner's key
(R218, R372); by the number of the byte; log entry 3. -/
opaque openByte : Nat → Byte

/-- FREE VALUE. The hash that chooses a line's L2 set (R201), a number below 32,768 after reduction; log entry 7. -/
opaque l2Set : Nat → Nat

/-- FREE VALUE. Which of the candidates a cache replaces (R201, R214), by the number of the choice; log entry 7. -/
opaque replaced : Nat → Nat

/-- FREE VALUE. The combining tree of one element of a collective (R357): by the number of the choice, a number from which each
pairing is taken; log entry 8. -/
opaque collTree : Nat → Nat

/-- FREE VALUE. The place and length of a tile save image (R128), by the number of the record; log entry 3. -/
opaque saveImage : Nat → W64

/-- FREE VALUE. A new owner key (R372), by the number of the bring-up; no agent can read it; log entry 3. -/
opaque ownerKey : Nat → BitVec 512

/-- FREE VALUE. A new AES-256-GCM key (R350, R365), by the number of the bring-up; no agent can read it; log entry 3. -/
opaque portKey : Nat → BitVec 256

/-- FREE VALUE. The set group of the LLC in which a line lies (R385); log entry 69. -/
opaque llcGroup : Nat → Nat

/-- FREE VALUE. The way of the LLC that a line takes (R385); log entry 69. -/
opaque llcWay : Nat → Nat

/-- FREE VALUE. The SEV of a ring entry (R373) of a TYPE for which the manual names none; log entry 3. -/
opaque severity : Nat → Nat

/-- FREE VALUE. The TYPE of the supervisor ring entry of a sparing event (R385), for which the manual names none: 0 a memory channel, 1 an LLC
way, 2 a Causeway lane, 3 an Ultra Ethernet port; log entry 3. -/
opaque sparingType : Nat → Nat

/-- FREE VALUE. Whether a request that was abandoned or refused had been performed at its node (R349), by the number of the choice; log
entry 3. -/
opaque performed : Nat → Bool

/-- FREE VALUE. Whether the checks of a cold reset pass (R386), by the number of the reset; log entry 103. -/
opaque bringUp : Nat → Bool

/-- FREE VALUE. The cores that the self-test of a cold reset finds bad (R386), by the number of the reset; log entry 103. -/
opaque badCores : Nat → List Nat

/-- FREE VALUE. The channels that training at a cold reset finds bad (R386), by die, stack and channel; log entry 103. -/
opaque badChannels : Nat → List (Nat × Nat × Nat)

end Sys2Proof.Config
end

