-- ==== Sys2Proof/Machine/State.lean ====
section
/-! DEFINITION. The state of the machine as plain data, the reasons a step can stop, and the machine right after reset. A collection is a
map from numbers (`Map`); a number without an entry has the value its docstring names, so the reset state lists only what differs. -/

namespace Sys2Proof.Machine

/-- Why the machine stops. -/
inductive Fault where
  /-- Raised by `step` for any action but a cold reset while the rails are powered down (R387): a package without power does nothing.
  Safe: no run goes on from it. -/
  | noPower
  deriving DecidableEq, Repr

/-- Why an instruction is refused. -/
inductive Refusal where
  /-- Raised by an arm of `exec` whose instruction has no meaning yet. Safe: no run goes on from it. -/
  | notModelled (mnemonic : String)
  deriving DecidableEq, Repr

/-- A register element with its guess and poison tags (R58). -/
structure Elem (n : Nat) where
  val : BitVec n
  g : Bool
  p : Bool
  deriving DecidableEq, Repr

/-- The value 0 with clear tags, which a register reads at launch and after it is freed (R54, R93). -/
def Elem.zero (n : Nat) : Elem n := ⟨0, false, false⟩

/-- The register files that the interlock follows (R16). -/
inductive File where
  | v | k | w | q
  deriving DecidableEq, Repr

/-- One register of a fibre: the row of a v register, or the number of a k, w or q register. -/
structure Reg where
  file : File
  idx : Nat
  deriving DecidableEq, Repr

/-- A register that an issued, unfinished instruction will write (R16), whether the wait for it is long (R101), and the clock of issue. -/
structure Lock where
  reg : Reg
  long : Bool
  since : Nat
  deriving DecidableEq, Repr

/-- The fibre control word (R24), without its reserved bits, which are 0. -/
structure Fcw where
  /-- The execute bit: the lane holds a live fibre. -/
  x : Bool
  /-- The fibre waits at the junction at its PC. -/
  ja : Bool
  /-- The window base. -/
  wb : BitVec 4
  qp : BitVec 8
  qg : BitVec 8
  q : BitVec 8
  deriving DecidableEq, Repr

/-- The reset value of R24: X = 1, every other field 0. -/
def Fcw.reset : Fcw := ⟨true, false, 0, 0, 0, 0⟩

/-- The barriers of R113. -/
inductive Bar where
  | group | team | grid
  deriving DecidableEq, Repr

/-- What a fibre that is not ready waits for (R28), beside its junction and its interlocks. A fibre whose wait is over issues its
instruction again, which then goes on; the waits of BARRIER_ARRIVAL, MBAR_RELEASE_STEP, RETURN_FILL_ARRIVAL and CWAIT_REREAD
end by those events. -/
inductive Wait where
  /-- It waits for nothing. -/
  | free
  /-- WAITC of this many words: until a clock on which the four counters are at or below these counts (R112). -/
  | counters (loads stores copies tiles words : Nat)
  /-- It has issued GBAR, TARR or MBAR, of this many words, and has not yet arrived (R114). `d` is the destination code of TARR, and `upto` the
  number of the first access that came after. -/
  | arriving (bar : Bar) (words : Nat) (d : Nat) (upto : Nat)
  /-- It has arrived and waits for the phase to complete (R115, R117). -/
  | arrived (bar : Bar) (words : Nat)
  /-- TWAIT, which blocks (R101), or TARR in a phase it has already arrived in: until the team's phase is past this one (R116). -/
  | phase (n : Nat) (blocks : Bool)
  /-- The implicit demand of R69, and the wait of R238: until every ticket linked to it holds its truth. -/
  | tickets
  /-- GDEM, which blocks (R101), or GCHK: until these tickets hold their truth, and every ticket linked to one of these fibres does, of every fibre that
  waits with it (R240). -/
  | truths (tickets : List Nat) (fibres : List Nat) (blocks : Bool)
  /-- STRL, LNCH or a releasing fence: until its earlier accesses, and those of its core (R276), are performed at the level, its loads have
  their values and its tickets their truths (R238, R255, R257). `upto` is the number of the first access that came after, and `range` the bytes of
  an RFENCE (R258). -/
  | release (level : Nat) (upto : Nat) (range : Option (W64 × Nat))
  /-- An acquiring fence: until its earlier loads and value-returning atomics have their values (R257, R258). -/
  | acquire (upto : Nat) (range : Option (W64 × Nat))
  /-- CSIG or RPOST: until what the fibre with this number and its group have to do before it is done for this target (R238, R360). -/
  | send (uid : Nat) (upto : Nat) (target : Nat)
  /-- XFENCE: until its earlier accesses on the named paths are performed at the level (R259). -/
  | paths (mask : Nat) (level : Nat) (upto : Nat)
  /-- RET: until the fills of its issue set have landed (R74); since a clock. -/
  | fill (words : Nat) (since : Nat)
  /-- CWAIT: until it re-reads its word and its condition holds (R361). `last` are the registers with a last-use bit, freed as it ends. -/
  | word (addr : W64) (value : Option W64) (d : Nat) (words : Nat) (last : List Reg)
  /-- TRET: until every live fibre of the group has issued it (R144). -/
  | handler
  /-- A translation of its instruction is before the supervisor (R208). -/
  | translation (va : W64)
  /-- A write of a tile slot waits until its group holds fewer slot versions (R303). -/
  | slots
  deriving DecidableEq, Repr

/-- A fibre (R23). -/
structure Fibre where
  /-- A number of its own: a lane forked again holds another fibre. -/
  uid : Nat
  pc : W64
  cw : Fcw
  /-- Rows of v registers; a row without an entry reads 0 with clear tags (R54, R56, R93). -/
  v : Map (Elem 32)
  /-- k0 to k15, likewise (R56). -/
  k : Map (Elem 64)
  /-- w0 to w15, likewise (R177). -/
  w : Map (Elem 64)
  /-- The on-chip return stack, newest first, at most four entries (R72). -/
  stack : List W64
  /-- FSTK.BASE (R72). -/
  stackBase : BitVec 52
  /-- FSTK.DEPTH (R72). -/
  depth : BitVec 9
  /-- GLIM.LIMIT (R223). -/
  glim : BitVec 24
  /-- The guess-miss bit (R69, R232). -/
  gm : Bool
  /-- Interlocked registers (R16). -/
  locks : List Lock
  wait : Wait
  /-- The clock of its arrival at the junction, where JA is set (R32), and the number of words of the JCT it issued, 0 where it has issued none
  (a handler's SWR to FCW may set JA, R140). -/
  junctionSince : Nat
  junctionWords : Nat
  /-- The phase of its latest TARR (R116). -/
  lastPhase : Option Nat
  /-- EPC (R134). -/
  epc : W64
  /-- The FCW trap register (R134). -/
  fcw : Fcw
  /-- TSC0 and TSC1 with their kept tags (R134). -/
  tsc0 : Elem 64
  tsc1 : Elem 64
  /-- TSTAT.F (R130). -/
  faulted : Bool
  /-- What it waited for, and its junction arrival, when its group entered the handler (R123, R144). -/
  savedWait : Wait
  savedJunction : Nat
  savedWords : Nat
  deriving DecidableEq, Repr

/-- A trap: cause group, subcode, INFO, lowest faulting lane, reporting engine, words of the instruction, VAL, and whether it was
deferred (R131 to R133). -/
structure Trap where
  cause : Nat
  sub : Nat
  info : Nat
  lane : Nat
  eng : Nat
  wc : Nat
  val : W64
  deferred : Bool
  deriving DecidableEq, Repr

/-- A handle of a group (R301). -/
structure Handle where
  owned : Bool
  /-- The released bit of a free handle. -/
  released : Bool
  /-- 0 A, 1 B, 2 accumulator, 3 streamed. -/
  kind : Nat
  /-- The slot version it maps to, if any. -/
  slot : Option Nat
  deriving DecidableEq, Repr

/-- A free handle that was never released. -/
def Handle.free : Handle := ⟨false, false, 0, none⟩

/-- The instruction in execution: its group, issue set, address, number of words, and its words. -/
structure Issue where
  g : Nat
  lanes : List Nat
  pc : W64
  words : Nat
  base : W32
  opx : Option W32
  imx : Option W32
  deriving DecidableEq, Repr

/-- A memory instruction that waits for the supervisor's answers while its fibres run on (R208, log entry 19). -/
structure Held where
  ins : Instr
  issue : Issue
  /-- The number and the clock from which its fibres run on. -/
  id : Nat
  since : Nat
  /-- The fibres of its issue set as they stood at it, by lane. -/
  fibres : Map Fibre
  /-- The registers that instructions which the fibres ran on in name, by lane. -/
  named : Map (List Reg)
  /-- The addresses that the supervisor has still to answer. -/
  vas : List W64
  /-- It counts as a load; otherwise as a store (R19). -/
  load : Bool
  deriving DecidableEq, Repr

/-- The sets of a track's scheduler (R100). -/
inductive GSet where
  | carriageway | layby | neither
  deriving DecidableEq, Repr

/-- What a fibre waits to read at a Causeway node: its address at the time and that of the line, when the request was first sent (R349), and its failed
tag checks (R350). -/
structure Asked where
  pc : W64
  line : Nat
  sent : Nat
  fails : Nat
  deriving DecidableEq, Repr

/-- A resident group (R26). -/
structure Group where
  core : Nat
  track : Nat
  slot : Nat
  ctx : Nat
  grid : Nat
  team : Nat
  /-- Its index in the team (R39). -/
  grp : Nat
  /-- 0 producer, 1 consumer (R38). -/
  role : Nat
  /-- The register budget of its role in v registers (R38). -/
  budget : Nat
  /-- Its live fibres by lane (R25); a lane without an entry has X = 0. -/
  fibres : Map Fibre
  warn : W32
  fpmode : W32
  cause : W32
  det0 : W32
  det1 : W32
  det2 : W32
  /-- TSTAT.H and TSTAT.M (R130). -/
  h : Bool
  m : Bool
  /-- The four counters of R19. -/
  loads : Nat
  stores : Nat
  copies : Nat
  tiles : Nat
  /-- Handles h0 to h63; one without an entry is free (R301). -/
  handles : Map Handle
  /-- Age counters of the slices, 0 without an entry, and the slices that reached 256, in order (R29). -/
  ages : Map Nat
  aged : List Nat
  set : GSet
  /-- When it entered its set, and since when it has been a ready lay-by group not admitted (R101 to R103). -/
  entered : Nat
  readySince : Option Nat
  pendingSince : Option Nat
  /-- It has issued YIELD and leaves the carriageway at the end of the clock (R79). -/
  yielding : Bool
  /-- The clock at whose end it left the carriageway of itself (R79, R101). -/
  left : Option Nat
  /-- The clock of its latest LEASE, and the lease that is in force on that clock (R118). -/
  leaseWas : Option (Nat × Nat)
  /-- The declared lease, if any, and the measured one, in KiB (R106). -/
  declared : Option Nat
  measured : Nat
  /-- The measuring window: issue cycles, sampled lines, misses on victim tags, and the victim tags (R107). -/
  windowIssues : Nat
  sampled : List Nat
  misses : Nat
  victims : List Nat
  /-- Lanes that have arrived at the group barrier (R115). -/
  arrivals : List Nat
  /-- The arrivals as the group entered its handler (R123, R137). -/
  savedArrivals : List Nat
  /-- Faults kept pending, and their lanes (R122, R135). -/
  pend : List (Trap × List Nat)
  /-- Those that were pending as the group entered its handler: they are raised once the halt is released (R122). -/
  savedPend : List (Trap × List Nat)
  /-- The first clock on which it may issue again: the one after its latest issue or its admission (R27, R102). -/
  lastIssue : Nat
  /-- The port that its next instruction is ready for, and the clock since when, as noted while a clock passes (R109). -/
  readyPort : Option (Nat × Nat)
  /-- Its register rows have been written to the context image, as a newcomer claimed their place in the register cache (R369). -/
  imaged : Bool
  /-- What its fibres wait to read at Causeway nodes, by lane (R349). -/
  asked : Map Asked
  /-- Its memory instructions whose fibres run on while a translation fault stands (R208). -/
  held : List Held
  deriving DecidableEq, Repr

/-- What a hand-over channel of a team holds (R309): the slot version of the handle, if it maps one. -/
structure Given where
  slot : Option Nat
  kind : Nat
  takers : Nat
  deriving DecidableEq, Repr

/-- A placed team (R37). -/
structure Team where
  groups : List Nat
  /-- The cores that hold it. -/
  cores : List Nat
  /-- The phase of its barrier in progress (R116); a fibre has arrived in it when its latest TARR names it. -/
  phase : Nat
  /-- Its hand-over channels (R309). -/
  channels : Map Given
  deriving DecidableEq, Repr

/-- A launch record (R91). -/
structure Record where
  entry : W64
  args : W64
  stack : W64
  done : W64
  teams : Nat
  fibres : Nat
  prod : Nat
  budp : Nat
  budc : Nat
  limit : Nat
  lease : Nat
  temporal : Bool
  serial : Bool
  cosched : Bool
  cores : Nat
  deriving DecidableEq, Repr

/-- A STEP of a grid that some track has still to apply (R363): its time, its ratio, the tracks as core × 8 + track, and where the granted
ratio goes: the issuing track, group and the lanes' fibres and registers. -/
structure Pending where
  time : W64
  ratio : Nat
  tracks : List Nat
  home : Nat
  group : Nat
  dst : List (Nat × Nat × Reg)
  deriving DecidableEq, Repr

/-- A grid (R41). -/
structure Grid where
  ctx : Nat
  vf : Nat
  queue : Nat
  /-- The count of its record in the queue (R90). -/
  number : Nat
  record : Record
  /-- Teams not yet placed start at this index (R96). -/
  nextTeam : Nat
  /-- Placed teams by index; one that has ended is dropped. -/
  teams : Map Team
  /-- A milestone release in progress: the clock of completion, the cores listed, and how many steps are done. -/
  releasing : Option (Nat × List Nat × Nat)
  /-- The on-ramp offset O. -/
  offset : Nat
  warn : W32
  residue : Nat
  /-- Its energy counter in microjoule, which never decreases, the charges of the interval, and the energy as scaled so far (R380). -/
  energy : Nat
  charge : Nat
  exact : Nat
  /-- The STEP that is not yet applied everywhere (R363). -/
  step : Option Pending
  deriving DecidableEq, Repr

/-- How far a halt has come (R120). -/
inductive Phase where
  /-- The halt line is raised, and engines come to rest. -/
  | stopping
  /-- The group is in its handler. -/
  | handler (g : Nat)
  /-- The context waits for the supervisor. -/
  | supervisor
  deriving DecidableEq, Repr

/-- An engine of a core that had work of the context as the halt line reached it (R120, R128): its track (255 for a shared engine), its
engine code, and the figure from which its stop record counts. -/
structure Due where
  core : Nat
  track : Nat
  eng : Nat
  count : Nat
  deriving DecidableEq, Repr

/-- A stop record: its engine as in `Due`, the clock on which the engine stopped, and its fields state, A, B and C (R126, R128). -/
structure Stop where
  core : Nat
  track : Nat
  eng : Nat
  clock : Nat
  fields : Nat × Nat × Nat × Nat
  deriving DecidableEq, Repr

/-- A halt of a context (R120). -/
structure Halt where
  /-- REASON of R127, without bit 31. -/
  reason : Nat
  /-- The taking group, its trap, the faulting issue set and whether its instruction did not complete (R136). -/
  group : Nat
  trap : Trap
  lanes : List Nat
  incomplete : Bool
  /-- The group that was in its handler, the only one of the context that was running (bit 31 of REASON). -/
  running : Option Nat
  /-- The EPC field of the header. -/
  epc : W64
  phase : Phase
  /-- The clock on which it was raised (R123). -/
  since : Nat
  /-- Cores that the halt line has reached, and the clock on which it did. -/
  reached : List (Nat × Nat)
  /-- Where groups stood halted as it was raised: the clock up to which that time is taken out of their bounds, and the one group that ran on (R123). -/
  stood : Option (Nat × Nat)
  /-- Groups that have issued a HALT on the same clock as its group: they stop as it does (R127, R145). -/
  others : List Nat
  /-- Engines that have to stop, and the records of those that have, in the order of R126 (R120). -/
  due : List Due
  stopped : List Stop
  /-- The number below which an operation had issued as the handler that runs was entered: copies below it stay stopped (R121), and the group's tile
  operations below it go first (R328). -/
  mark : Nat
  deriving DecidableEq, Repr

/-- The save image of a track in a context image: its header, of which the length is at most 16 KiB, and one record for each quarter that was in
flight, by its operation and number (R326). -/
structure SaveImage where
  version : Nat
  length : Nat
  records : List (Nat × Nat)
  deriving DecidableEq, Repr

/-- A context (R41). -/
structure Ctx where
  vf : Nat
  /-- PTROOT.ROOT as an address (R203). -/
  ptroot : Nat
  /-- TVEC.ENTRY and TVEC.D (R129). -/
  entry : BitVec 62
  d : Bool
  /-- STOPA.BASE as an address and STOPA.SZ (R125). -/
  stopBase : W64
  stopSize : Nat
  /-- LOCKQ (R219). -/
  lockLimit : Nat
  lockUsed : Nat
  /-- The scratch size in bytes (R197). -/
  scratch : Nat
  /-- The tick of a latched pre-emption request: PL = 1 (R130, R139). -/
  pl : Option Nat
  halt : Option Halt
  /-- SEQ of the stop area (R127). -/
  seq : W32
  /-- Stop records written and lost at this halt (R127). -/
  nrec : Nat
  lost : Nat
  /-- Addresses whose translation fault is before the supervisor (R208), and those it has declared unresolved. -/
  faults : List W64
  unresolved : List W64
  /-- Deferred faults of groups that have ended, kept while a halt is on its way (R135). -/
  pend : List (Nat × Trap)
  /-- Ranges of addresses, by first byte and length, whose bias flip is in progress: what has not translated there waits (R283). -/
  flips : List (Nat × Nat)
  /-- The save images of its tracks, by core × 8 + track (R326). -/
  images : Map SaveImage
  /-- The supervisor is ending the context, and its issued stores and atomics are still to be performed (R287). -/
  ending : Bool
  deriving DecidableEq, Repr

/-- A translation (R205): the attributes of a leaf and the pages it maps. -/
structure Page where
  ctx : Nat
  /-- The virtual page: address and log2 of its size. -/
  va : Nat
  bits : Nat
  pa : Nat
  fmt : Nat
  geo : Nat
  owner : Nat
  conf : Bool
  bias : Bool
  alloc : Nat
  lk : Bool
  x : Bool
  w : Bool
  rd : Bool
  mtype : Nat
  deriving DecidableEq, Repr

/-- A line of the L1 (R200). -/
structure L1Line where
  data : List Byte
  poison : Bool
  deriving DecidableEq, Repr

/-- A line of an L2 (R201), with the context that holds it pinned (R220) and the streamed bindings on it (R311). -/
structure L2Line where
  data : List Byte
  poison : Bool
  /-- The L2 holds it owned and memory is older. -/
  dirty : Bool
  pin : Option Nat
  bound : Nat
  /-- 0 default, 1 stream, 2 keep (R214). -/
  pol : Nat
  /-- An access under a confidential page brought it in or wrote it (R216). -/
  conf : Bool
  deriving DecidableEq, Repr

/-- A fill on its way to the L1 (R279): its data once the L2 has sent them, and whether it may be installed. -/
structure Fill where
  sent : Option L1Line
  install : Bool
  /-- The group that asked, whose victim tags the install concerns (R107), and the policies in force (R214). -/
  g : Nat
  pol : Nat
  l2 : Bool
  /-- Its page consults the host chiplets (R217), and the context whose request it is (R370). -/
  host : Bool
  ctx : Nat
  /-- Its page is confidential (R216). -/
  conf : Bool
  deriving DecidableEq, Repr

/-- The result form of a load (R225, R227, R228, R252). -/
inductive LoadForm where
  /-- A v element of so many bytes, sign- or zero-extended. -/
  | v (bytes : Nat) (signed : Bool)
  /-- A v pair. -/
  | pair
  /-- Four v elements. -/
  | quad
  /-- A k register of so many bytes, zero-extended. -/
  | k (bytes : Nat)
  /-- LDX, decoded by the FMT of the page. -/
  | x (fmt : Nat)
  deriving DecidableEq, Repr

/-- The state of one lane of a load in flight. -/
inductive LaneState where
  /-- Its data have not arrived. -/
  | waiting
  /-- It has guessed and holds the ticket. -/
  | ticket (t : Nat)
  /-- It has its result. -/
  | landed
  deriving DecidableEq, Repr

/-- One lane of a load in flight. -/
structure LaneLoad where
  uid : Nat
  va : W64
  /-- The physical address, or the scratch offset; none for a guessed-address lane that does not translate (R209). -/
  pa : Option Nat
  mtype : Nat
  /-- L1 may be read and filled, and the L2 filled; the policy in force is 0 default, 1 stream or 2 keep (R214). -/
  l1 : Bool
  l2 : Bool
  pol : Nat
  /-- The physical address of the scale byte of an LDX of FMT 6 (R295). -/
  scale : Option Nat
  /-- The address carries G = 1. -/
  guessed : Bool
  limit : Nat
  form : LoadForm
  /-- The first register it writes, a v register by its row at issue (R82); none for z. -/
  reg : Option Reg
  mg : Bool
  mp : Bool
  state : LaneState
  /-- It has fallen back to demand (R230). -/
  demand : Bool
  /-- It waits on the fill of its line (R279). -/
  onFill : Bool
  /-- Its truth, once known (R234). -/
  truth : Option Nat
  /-- Its page consults the host chiplets (R217), and is confidential (R216). -/
  host : Bool
  conf : Bool
  /-- When its request to a Causeway node was first sent (R349), and how often its packet has failed a tag check (R350). -/
  sent : Option Nat
  fails : Nat
  deriving DecidableEq, Repr

/-- A load in flight (R226, R253). -/
structure Load where
  g : Nat
  ctx : Nat
  pc : W64
  /-- Its place among the accesses of the core. -/
  seq : Nat
  scratch : Bool
  bytes : Nat
  /-- The tick T0 (R222). -/
  t0 : Nat
  /-- It updates the value-guess table (R234). -/
  updates : Bool
  /-- The scope level of an LDAQ; none for an ordinary load. -/
  acquire : Option Nat
  /-- Victim cores still to be drained (R254). -/
  victims : List Nat
  lanes : Map LaneLoad
  deriving DecidableEq, Repr

/-- One lane's store in the load-store engine (R241). -/
structure Store where
  /-- The instruction it belongs to, for the counter. -/
  op : Nat
  g : Nat
  ctx : Nat
  uid : Nat
  seq : Nat
  scratch : Bool
  va : W64
  pa : Nat
  data : List Byte
  poison : Bool
  mtype : Nat
  /-- 0 issued, 1 accepted (`.grp`), 2 `.die`, 3 `.pkg`, 4 `.sys`. -/
  level : Nat
  /-- A write-back of a line (CINV, CWB) rather than a store of bytes. -/
  writeBack : Bool
  /-- It is counted by the stores counter (R19). -/
  counted : Bool
  /-- The level at which it completes: `.pkg`, or the scope of a STRL (R19, R241). -/
  need : Nat
  /-- Its policy, and whether its page lets the L2 allocate (R214, R242). -/
  pol : Nat
  l2 : Bool
  /-- Its page consults the host chiplets (R217), and is confidential (R216). -/
  host : Bool
  conf : Bool
  /-- The grid of its group (R287). -/
  grid : Nat
  /-- When its request to a Causeway node was first sent (R349), and its failed tag checks (R350). -/
  sent : Option Nat
  fails : Nat
  deriving DecidableEq, Repr

/-- The atomics of R248. -/
inductive AtomicOp where
  | add | minS | maxS | and | or | xor | xchg | cas | minN | maxN | f32 | f64 | f16x2 | bf16x2
  deriving DecidableEq, Repr

/-- One lane of an atomic in flight. -/
structure LaneAtomic where
  uid : Nat
  va : W64
  pa : Nat
  mtype : Nat
  b : Nat
  d : Nat
  /-- The register that receives the old value, a v register by its row at issue; none for z. -/
  reg : Option Reg
  /-- Its number among what the core has accepted, once it is accepted (R241, R269). -/
  order : Option Nat
  /-- Its page consults the host chiplets (R217), and is confidential (R216). -/
  host : Bool
  conf : Bool
  /-- When its request to a Causeway node was first sent (R349), and its failed tag checks (R350). -/
  sent : Option Nat
  fails : Nat
  deriving DecidableEq, Repr

/-- An atomic in flight (R249, R250): the lanes not yet performed. -/
structure Atomic where
  g : Nat
  ctx : Nat
  seq : Nat
  op : AtomicOp
  bytes : Nat
  level : Nat
  /-- Its d is not z, so it returns the old values (R19). -/
  returns : Bool
  lanes : Map LaneAtomic
  /-- The lowest lane that met a poisoned line (R251). -/
  refused : Option (Nat × W64)
  /-- The grid of its group (R287). -/
  grid : Nat
  deriving DecidableEq, Repr

/-- An element that holds a ticket (R231): its fibre, its registers from the lowest on, and which bytes of the ticket's value it holds. -/
structure Holder where
  g : Nat
  uid : Nat
  reg : Reg
  rows : Nat
  /-- The element's guess, and how many bits it has. -/
  guess : Nat
  /-- Which element of an LDV it is, 0 otherwise. -/
  part : Nat
  deriving DecidableEq, Repr

/-- A ticket (R230). -/
structure Ticket where
  g : Nat
  /-- The groups that were ever linked to it (R42). -/
  load : Nat
  lane : Nat
  seq : Nat
  pa : Nat
  bytes : Nat
  mtype : Nat
  form : LoadForm
  truth : Option (Nat × Bool)
  holders : List Holder
  deriving DecidableEq, Repr

/-- An entry of the value-guess table (R233). -/
structure Guess where
  ctx : Nat
  base : W64
  stride : W64
  deriving DecidableEq, Repr

/-- A vector result that has not retired (R156): its interlocked registers by lane and fibre, and the flags it sets when it retires. Its
values stand in the registers from its issue on, behind the interlock (log entry 10). -/
structure Result where
  g : Nat
  ctx : Nat
  /-- It is an SFU result (R176, R195). -/
  sfu : Bool
  locks : List (Nat × Nat × Reg)
  flags : W32
  /-- The trap it raises in place of retiring, and its issue set (R176). -/
  trap : Option (Trap × List Nat)
  deriving DecidableEq, Repr

/-- A streamed binding (R311): the physical addresses of the 16 rows, the GEO of the first page and, for a `.cb2` row on an FMT 6 page,
the address of its four scales. -/
structure Binding where
  rows : List Nat
  geo : Nat
  scales : List (Option Nat)
  /-- Its pages consult the host chiplets (R217). -/
  host : Bool
  deriving DecidableEq, Repr

/-- A slot version (R302), with its tag (0 for an accumulator), data, sideband and poison mark, the operation that is still to write it and
the version its handle maps if that operation writes nothing (R289). -/
structure Slot where
  ctx : Nat
  core : Nat
  acc : Bool
  tag : Nat
  data : List Byte
  side : List Byte
  poison : Bool
  writer : Option Nat
  prev : Option Nat
  /-- It is held in the core's store, and the clock of its latest use (R303). -/
  res : Bool
  used : Nat
  bound : Option Binding
  deriving DecidableEq, Repr

/-- The tile operations (R313 to R323). -/
inductive TileKind where
  | ld | lds | sto | sts | zero | rd | wr | mma | mmas | mmac | scl | acc
  deriving DecidableEq, Repr

/-- A quarter operation (R305, R322, R323): the slot versions it reads, the accumulator's old version, and the version it writes. -/
structure Quarter where
  a : List (Option Nat)
  b : Option Nat
  old : Option Nat
  new : Nat
  aHandle : Nat
  bHandle : Nat
  done : Bool
  /-- The rows of a sparse A tile that had an illegal group (R297). -/
  bad : Nat
  deriving DecidableEq, Repr

/-- One lane of TRD or TWR (R319, R320): its element, and for TRD the register it writes, for TWR the FP32 value. -/
structure TileLane where
  lane : Nat
  uid : Nat
  reg : Option Reg
  index : Nat
  bits : Nat
  g : Bool
  p : Bool
  deriving DecidableEq, Repr

/-- A tile operation that has issued and not retired (R324). -/
structure TileOp where
  g : Nat
  ctx : Nat
  seq : Nat
  kind : TileKind
  /-- The fn, mode or exponent field of the instruction; of a store, 1 for an accumulator. -/
  mode : Nat
  pol : Nat
  /-- The handle is of kind streamed (R311). -/
  streamed : Bool
  /-- The lowest lane of its issue set. -/
  lowest : Nat
  handle : Nat
  /-- The slot version it reads and the one it writes. -/
  src : Option Nat
  dst : Option Nat
  addr : W64
  pitch : W64
  transposed : Bool
  /-- Rounding mode and sat of TRD, and FPMODE.spt at issue. -/
  rm : Nat
  sat : Bool
  spt : Bool
  lanes : List TileLane
  quarters : Map Quarter
  /-- The exceptions raised so far, as the flags [14:10] of FPMODE (R298). -/
  flags : Nat
  /-- When its request to a Causeway node was first sent (R349), and its failed tag checks (R350). -/
  sent : Option Nat
  fails : Nat
  deriving DecidableEq, Repr

/-- A copy that has issued and not retired (R332): its kind, its two sides, its shape, and the position of its next piece. -/
structure Copy where
  g : Nat
  ctx : Nat
  seq : Nat
  /-- The lowest lane of its issue set. -/
  lane : Nat
  /-- 0 CPY, 1 CPY2, 2 GATH, 3 SCAT, 4 CFILL. -/
  kind : Nat
  dstScratch : Bool
  srcScratch : Bool
  dst : W64
  src : W64
  rows : Nat
  rowBytes : Nat
  dstPitch : Nat
  srcPitch : Nat
  /-- The index table (R341), or the pattern (R342) with its poison. -/
  table : W64
  poison : Bool
  row : Nat
  off : Nat
  /-- Lines of global memory it has written. -/
  lines : List Nat
  /-- It waits on a translation fault of this address, or on a bias flip (R337, R283). -/
  paused : Option W64
  flip : Bool
  /-- Every piece is written, or the copy has ended on a fault. -/
  ended : Bool
  /-- When the request of its piece to a Causeway node was first sent (R349), and its failed tag checks (R350). -/
  sent : Option Nat
  fails : Nat
  deriving DecidableEq, Repr

/-- A request at a core port: what it belongs to (0 a lane of a load, 1 a fill, 2 a store, 3 a lane of an atomic, 4 a copy, 5 a tile operation,
6 a COLL call, 7 a fibre of a group at CWAIT, 8 what a group reads as it issues an instruction or fetches it, by the address of the instruction, 9 the
fill of a RET), the number of that, and the lane (R370). -/
structure Ask where
  kind : Nat
  id : Nat
  lane : Nat
  deriving DecidableEq, Repr

/-- A token bucket of a VF at a core port, and whether the VF has sent a request in this interval (R370, R371). -/
structure Bucket where
  balance : Nat
  sent : Bool
  deriving DecidableEq, Repr

/-- A request that waits at a core port: its VF, its tokens, and what it belongs to (R370). -/
structure Wanted where
  vf : Nat
  tokens : Nat
  ask : Ask
  deriving DecidableEq, Repr

/-- A track of a core. -/
structure Track where
  /-- GR, the operand grants per clock (R111). -/
  gr : Nat
  /-- The ratios its contexts have asked for (R363). -/
  asks : Map Nat
  /-- The ceiling of power control and CUR of RATIO (R377, R379); the die's thermal trip lowers the ceiling in force (R382). -/
  ceil : Nat
  cur : Nat
  /-- A step of the ceiling that firmware has scheduled: its time and the ceiling (R379). -/
  ceilAt : Option (Nat × Nat)
  /-- The pass of each context at each port, by port × 2^32 + context (R110). -/
  passes : Map W32
  /-- The first clock on which each port is free again (R34, R109). -/
  portFree : Map Nat
  deriving DecidableEq, Repr

/-- A track after reset: 12 grants, full ratio (R111, R379). -/
def Track.reset : Track := ⟨12, [], 16, 16, none, [], []⟩

/-- A core. -/
structure Core where
  /-- The L1 TLB (R207), latest first. -/
  tlb : List Page
  /-- The L1, by line address (R200). -/
  l1 : Map L1Line
  /-- The group that filled each line of the L1, and its policy (R107, R214). -/
  l1Info : Map (Nat × Nat)
  /-- Fills in flight to the L1, by line address (R279). -/
  fills : Map Fill
  /-- Invalidations on their way to the core (R273), oldest first. -/
  invalidations : List Nat
  loads : Map Load
  stores : Map Store
  atomics : Map Atomic
  /-- Tickets in use (R230). -/
  tickets : Map Ticket
  /-- The value-guess table; an entry that is not listed is invalid (R233). -/
  guesses : Map Guess
  /-- The scratch window of each context, bytes not listed being 0, and its flagged words (R197, R228). -/
  scratch : Map (Map Byte)
  flagged : Map (List Nat)
  results : Map Result
  /-- Tile operations and copies that have issued and not retired (R324, R335). -/
  tileOps : Map TileOp
  copies : Map Copy
  /-- Token buckets by VF; under 64, the balances of removed buckets, which the next refill shares out (R370). -/
  buckets : Map Bucket
  /-- The requests that wait at the port, oldest first (R370). -/
  waiting : List Wanted
  /-- Tokens' worth of traffic of the port in this interval (R371). -/
  carried : Nat
  /-- The clock of the latest refill boundary (R371). -/
  refilled : Nat
  /-- Lines whose copy in the instruction cache has an uncorrectable error (R44). -/
  badLines : List Nat
  /-- Lines that the instruction cache holds, latest first (R3). -/
  icache : List Nat
  /-- The 4 KiB units of each context's scratch window that have been written to its image for a newcomer (R369). -/
  imaged : Map (List Nat)
  /-- Since when its corrected-error rate stays above 64 times the set point, and whether it has raised an uncorrectable error that cannot be contained
  (R384). -/
  noisy : Option Nat
  failed : Bool
  /-- The number is not assigned to a working core any more (R384). -/
  retired : Bool
  /-- LEASEW, and the clock of its latest change with the value in force for admissions on that clock (R104). -/
  leasew : W32
  leasewWas : Option (Nat × W32)
  tracks : Map Track
  deriving DecidableEq, Repr

/-- A core after reset. -/
def Core.reset : Core := ⟨[], [], [], [], [], [], [], [], [], [], [], [], [], [], [], [], [], 0, 0, [], [], [], none, false, false, 0x11111111#32, none, []⟩

/-- A memory stack of a die (R382): its refresh rate, its cap in percent, and for each step's threshold since when the code has stayed 3 °C
below it. -/
structure Stack where
  refresh : Nat
  cap : Nat
  cool : Map Nat
  /-- The spare channel stands for this one (R385). -/
  spared : Option Nat
  deriving DecidableEq, Repr

/-- A stack below 85 °C (R382). -/
def Stack.reset : Stack := ⟨1, 100, [], none⟩

/-- An entry of a die's page-walk caches: the entry of a table of level 3, 2 or 1 that leads on, by the context, the level and the address
divided by what one entry of that level maps, and the next table (R207). -/
structure WalkStep where
  ctx : Nat
  level : Nat
  part : Nat
  table : Nat
  deriving DecidableEq, Repr

/-- A die. -/
structure Die where
  /-- The L2, by line address (R201). -/
  l2 : Map L2Line
  /-- The L2 TLB, and the page-walk caches (R207). -/
  tlb : List Page
  walks : List WalkStep
  /-- DFW: SNOOP and ALLOW (R367). -/
  snoop : BitVec 4
  allow : BitVec 4
  /-- The SRAM rail: millivolts below nominal, corrected errors of the latest interval, set point, and the tick of the error that holds it
  (R381). -/
  railDrop : Int
  corrected : Nat
  setPoint : Nat
  railHold : Option Nat
  /-- The junction has reached 110 °C and not yet fallen below 100 °C (R382). -/
  hot : Bool
  memStacks : Map Stack
  /-- Spare cores taken, and LLC ways disabled, by set group and way (R384, R385). -/
  sparesUsed : Nat
  waysOff : List (Nat × Nat)
  /-- Lines that the memory-side LLC holds, latest first (R4). -/
  llc : List Nat
  deriving DecidableEq, Repr

/-- A die after reset (R367, R381; log entry 4). -/
def Die.reset : Die := ⟨[], [], [], 15, 15, 0, 0, 1, none, false, [], 0, [], []⟩

/-- An entry of an error ring (R373). -/
structure Event where
  type : Nat
  vf : Nat
  sev : Nat
  count : Nat
  addr : W64
  clk : Nat
  place : W32
  deriving DecidableEq, Repr

/-- An error ring of 2^bits entries of 32 bytes: the entries written and those its reader has taken, the entry most recently written, and the bytes of
each place written so far (R373). -/
structure Ring where
  bits : Nat
  written : Nat
  taken : Nat
  latest : Option Event
  slots : Map (List Byte)
  deriving DecidableEq, Repr

/-- An error ring of a size without an entry. -/
def Ring.empty (bits : Nat) : Ring := ⟨bits, 0, 0, none, []⟩

/-- A communicator of a VF (R355): the VF's own rank, and each rank's endpoint and remote VF. -/
structure Comm where
  rank : Nat
  ranks : List (Nat × Nat)
  deriving DecidableEq, Repr

/-- A virtual function (R365). -/
structure Vf where
  alive : Bool
  /-- The tick of its teardown, while its number is quarantined, and whether its allowances are reclaimed (R375). -/
  dead : Option Nat
  reclaimed : Bool
  /-- The dies of its partition (R366). -/
  dies : List Nat
  /-- The physical addresses of its queue descriptors (R90, log entry 12). -/
  queues : List Nat
  /-- The context in which the records of each queue run, and those appended by LNCH or a fibre's message: queue, count and context
  (R119, log entry 14). -/
  contexts : List Nat
  children : List (Nat × Nat × Nat)
  /-- TAIL of each queue as the device last read it (R90). -/
  tails : Map Nat
  /-- Issue weight (R110) and share weight (R370). -/
  weight : Nat
  share : Nat
  ring : Ring
  /-- VUES, VMASK and VOVF (R374). -/
  vues : W32
  vmask : W32
  vovf : W32
  comms : Map Comm
  /-- Endpoints bound to it (R352). -/
  bound : List Nat
  /-- The number of its owner key, the AES-256-XTS key at the memory controllers (R372) and the AES-256-GCM key at the Causeway ports (R350, R365). -/
  generation : Nat
  key : BitVec 512
  portKey : BitVec 256
  deriving DecidableEq, Repr

/-- A VF that is not up (log entry 4: weights 1). -/
def Vf.none : Vf := ⟨false, Option.none, false, [], [], [], [], [], 1, 1, Ring.empty 6, 0, 0, 0, [], [], 0, 0, 0⟩

/-- An open COLL call (R356). -/
structure Call where
  g : Nat
  ctx : Nat
  /-- The lowest lane of its issue set. -/
  lane : Nat
  vf : Nat
  core : Nat
  op : Nat
  type : Nat
  src : W64
  dst : W64
  count : Nat
  comm : Nat
  peer : Nat
  seq : Nat
  tmo : Nat
  addr : W64
  since : Nat
  /-- The bytes of SRC read so far, with their poison (R358). -/
  got : List (Byte × Bool)
  /-- Once every rank has joined: the bytes of the result still to be written at DST. A put that has been sent has none left (R357). -/
  out : Option (List (Byte × Bool))
  /-- When the request of its piece to a Causeway node was first sent (R349), and its failed tag checks (R350). -/
  sent : Option Nat
  fails : Nat
  deriving DecidableEq, Repr

/-- A CSIG without its reply (R360). -/
structure Signal where
  g : Nat
  ctx : Nat
  core : Nat
  /-- The lowest lane of its issue set. -/
  lane : Nat
  comm : Nat
  rank : Nat
  addr : W64
  since : Nat
  deriving DecidableEq, Repr

/-- An RPOST without its reply (R362): the lanes' fibres and registers that its status goes to. -/
structure Post where
  g : Nat
  ctx : Nat
  core : Nat
  dst : List (Nat × Nat × Reg)
  since : Nat
  deriving DecidableEq, Repr

/-- What the device has sent to the outside (R352, R357, R360, R362, R402): a reply to a remote message, an answer to a put or a signal that says whether
it met an error, a signal, a message, a put with the poison of its bytes, an interrupt, or the data of a host's read with their poison (R281). -/
inductive Sent where
  | reply (endpoint id status : Nat)
  | answer (endpoint id : Nat) (error : Bool)
  | signal (endpoint vf : Nat) (addr value : W64) (add : Bool)
  | message (endpoint vf : Nat) (data : List Byte)
  | put (endpoint vf : Nat) (addr : W64) (data : List Byte) (poison : List Bool)
  | interrupt (vf : Nat)
  | hostRead (addr : Nat) (data : List Byte) (poisoned : Bool)
  deriving DecidableEq, Repr

/-- A Causeway port: the session number and the packet counter that make up the nonce of its cipher packets (R350). -/
structure Port where
  session : W32
  counter : W64
  deriving DecidableEq, Repr

/-- The state of the package: PALLOW (R376), the heartbeat (R383), RAMP (R117), the supervisor ring (R373), the rails (R387) and links. -/
structure Package where
  set : Nat
  eff : Nat
  hung : Bool
  trip : Bool
  /-- The tick of the last PHB write, and EFF as HUNG was set (R383). -/
  phb : Nat
  hangEff : Nat
  /-- Since when the power exceeds EFF by more than 10% (R377). -/
  overSince : Option Nat
  ramp : BitVec 9
  ring : Ring
  railsUp : Bool
  /-- The charges to the idle account in the interval, and the account as scaled so far (R380). -/
  idle : Nat
  account : Nat
  /-- Failed Ultra Ethernet ports (R351), and the failed Causeway lanes for which a spare stands, by port, direction and lane (R385). -/
  uePorts : List Nat
  lanes : List (Nat × Nat × Nat)
  /-- The Causeway ports (R350); one that is not listed has session and counter 0. -/
  ports : Map Port
  /-- The clock of the latest charge, and the tick of the latest scaling, of energy (R380). -/
  charged : Nat
  scaled : Nat
  /-- Bring-up has passed its checks; the ports are closed otherwise (R386). -/
  booted : Bool
  deriving DecidableEq, Repr

/-- The package after reset (R117, R376; log entry 4). -/
def Package.reset : Package := ⟨3200, 3200, false, false, 0, 3200, none, 32, Ring.empty 16, true, 0, 0, [], [], [], 0, 0, true⟩

/-- One action of an agent: which moves next is plain data of the state (log entry 1). -/
inductive Action where
  /-- The group issues its next instruction (R27). -/
  | issue (g : Nat)
  /-- An event of the table happens. -/
  | event (i : Instr)
  /-- So many core clocks pass. -/
  | clock (n : Nat)
  /-- A memory instruction of the group whose translation faults are answered is tried again (R208). -/
  | replay (g : Nat)
  deriving DecidableEq, Repr

/-- No instruction in execution. -/
def Issue.none : Issue := ⟨0, [], 0, 0, 0, Option.none, Option.none⟩

/-- The whole machine. -/
structure State where
  /-- What happens next, first action first; when it is empty a default action is computed (log entry 1). -/
  agenda : List Action
  /-- Core clocks passed (R10, log entry 2). -/
  clocks : Nat
  /-- The number of the next free value (log entry 3). -/
  free : Nat
  cur : Issue
  /-- The next number given to a group, a grid, a fibre or a record in flight (log entry 1). -/
  ids : Nat
  groups : Map Group
  grids : Map Grid
  ctxs : Map Ctx
  /-- Cores by die × 80 + number; one that is not listed is as after reset (R98). -/
  cores : Map Core
  /-- Dies 0 to 3; one that is not listed is as after reset. -/
  dies : Map Die
  /-- VFs 0 to 63; one that is not listed is not up (R365). -/
  vfs : Map Vf
  /-- Memory by physical address, in its canonical form (R198). -/
  mem : Map Byte
  /-- Lines of memory that are marked poisoned (R245). -/
  poison : List Nat
  /-- The number of the owner key under which a line was last written, if any (R372). -/
  seals : Map Nat
  /-- Halves of lines that a host chiplet holds, by address: 1 shared, 2 exclusive (R280). -/
  host : Map Nat
  /-- Slot versions of the context images (R302). -/
  slots : Map Slot
  calls : Map Call
  signals : Map Signal
  posts : Map Post
  sent : List Sent
  pkg : Package
  deriving DecidableEq, Repr

/-- The machine right after reset. -/
def State.reset : State := ⟨[], 0, 0, Issue.none, 0, [], [], [], [], [], [], [], [], [], [], [], [], [], [], [], Package.reset⟩

end Sys2Proof.Machine
end

