-- ==== Sys2Proof/Machine/Rings.lean ====
section
/-! DEFINITION. The clock of the reference ticks, and the error rings (R10, R373, R374). -/

namespace Sys2Proof.Machine

/-- The reference ticks that have passed: 1.7 core clocks to a tick of 1 ns (R10). -/
def State.ticks (s : State) : Nat := s.clocks * 10 / 17

/-- The SEV of an event: a corrected error is 0 and created poison is contained (R384). -/
def severityOf (type : Nat) : Nat := match type with | 1 => 0 | 2 => 1 | _ => Config.severity type
/-- The bit of VUES of a TYPE (R374); none for a TYPE without one. -/
def vuesBit (type : Nat) : W32 :=
  match type with | 1 => 2 | 2 => 4 | 3 => 8 | 4 => 16 | 5 => 32 | 11 => 64 | 9 => 512 | 10 => 1024 | _ => 0
/-- The 32 bytes of an entry (R373). -/
def Event.bytes (e : Event) : List Byte :=
  bytesOf 2 e.type ++ bytesOf 1 e.vf ++ bytesOf 1 e.sev ++ bytesOf 4 e.count ++ bytesOf 8 e.addr.toNat ++ bytesOf 8 e.clk ++ bytesOf 4 e.place.toNat ++ bytesOf 4 0
/-- The place of an entry by its number. -/
def Ring.place (r : Ring) (n : Nat) : Nat := n % 2 ^ r.bits
/-- Whether a ring is full: its reader has as many entries to take as it has places (R373). -/
def Ring.full (r : Ring) : Bool := decide (r.written - r.taken ≥ 2 ^ r.bits)
/-- A ring with a new entry. -/
def Ring.push (r : Ring) (e : Event) : Ring :=
  { r with written := r.written + 1, latest := some e, slots := r.slots.put (r.place r.written) e.bytes }
/-- A ring with one more event coalesced into the entry most recently written (R373). -/
def Ring.coalesce (r : Ring) (l : Event) : Ring :=
  let l := { l with count := Nat.min (l.count + 1) 0xFFFFFFFF }
  { r with latest := some l, slots := r.slots.put (r.place (r.written - 1)) l.bytes }
/-- An event put into a ring: coalesced into the entry most recently written, a new entry, or lost where the ring is full; whether it was lost
(R373). -/
def Ring.add (r : Ring) (e : Event) : Ring × Bool :=
  match r.latest with
  | some l => if l.type = e.type ∧ l.vf = e.vf ∧ l.addr = e.addr then (r.coalesce l, false) else if r.full then (r, true) else (r.push e, false)
  | none => if r.full then (r, true) else (r.push e, false)

/-- An event reported to the supervisor ring (R373). -/
def State.reportSupervisor (s : State) (type vf sev : Nat) (addr : W64) (place : W32) : State :=
  { s with pkg := { s.pkg with ring := (s.pkg.ring.add ⟨type, vf, sev, 1, addr, s.ticks, place⟩).1 } }

end Sys2Proof.Machine
end

