-- ==== Sys2Proof/Machine/Memory.lean ====
section
/-! DEFINITION. Memory and its hierarchy: the physical map, bytes and lines of memory, the L2 of a die, and translation
(R198 to R211). -/

namespace Sys2Proof.Machine

/-- The core with a number. -/
def State.core (s : State) (c : Nat) : Core := s.cores.get c Core.reset
/-- The state with a core changed. -/
def State.updCore (s : State) (c : Nat) (f : Core → Core) : State := { s with cores := s.cores.upd c Core.reset f }
/-- The die with a number. -/
def State.die (s : State) (d : Nat) : Die := s.dies.get d Die.reset
/-- The state with a die changed. -/
def State.updDie (s : State) (d : Nat) (f : Die → Die) : State := { s with dies := s.dies.upd d Die.reset f }
/-- The VF with a number. -/
def State.vf (s : State) (v : Nat) : Vf := s.vfs.get v Vf.none
/-- The die of a core (R98). -/
def dieOf (core : Nat) : Nat := core / Config.coresPerDie

/-- The first byte of the line that holds an address (R199). -/
def lineOf (a : Nat) : Nat := a / Config.line * Config.line

/-- The regions of the physical map (R198). -/
inductive Region where
  | hbm (die : Nat)
  | lpddr (die : Nat)
  | causeway (port : Nat)
  deriving DecidableEq, Repr

/-- The region of a physical address; none for a hole (R198). -/
def region (a : Nat) : Option Region :=
  if a < 4 * 0x3000000000 then some (.hbm (a / 0x3000000000))
  else if 0x10000000000 ≤ a ∧ a < 0x10000000000 + 4 * 0x4000000000 then some (.lpddr ((a - 0x10000000000) / 0x4000000000))
  else if 0x100000000000 ≤ a ∧ a < 0x100000000000 + 12 * 0x40000000000 then some (.causeway ((a - 0x100000000000) / 0x40000000000))
  else none

/-- The home die of a region (R198). -/
def Region.home : Region → Nat
  | .hbm d => d
  | .lpddr d => d
  | .causeway p => p / 3

/-- Whether a host chiplet holds a half of a line exclusive, whose data a device access must wait for (R280). -/
def State.hostHolds (s : State) (la : Nat) : Bool := s.host.get la 0 == 2 || s.host.get (la + 64) 0 == 2

/-- Whether a die's firewall takes a request of another die: a coherence message under SNOOP, any other request under ALLOW (R367). -/
def Die.takes (d : Die) (src dst : Nat) (snoop : Bool) : Bool := src == dst || (if snoop then d.snoop else d.allow).getLsbD src

/-- Whether a request of a die for a line is accepted at the line's home (R367). -/
def State.linkOk (s : State) (d la : Nat) : Bool :=
  match region la with | some r => (s.die r.home).takes d r.home false | none => true

/-- Whether a coherence message of a line's directory is accepted at a die (R367). -/
def State.snoopOk (s : State) (d la : Nat) : Bool :=
  match region la with | some r => (s.die d).takes r.home d true | none => true

/-- What a refused read returns: 0 with P = 1 (R368). -/
def refusedLine : L1Line := ⟨List.replicate 128 0, true⟩

/-- The Causeway port of an address, if it lies in a window. -/
def portOf (a : Nat) : Option Nat := match region a with | some (.causeway p) => some p | _ => none

/-- A packet of a line sent at its Causeway port: under a confidential page its nonce takes the next count (R216, R350). -/
def State.countPacket (s : State) (la : Nat) (conf : Bool) : State :=
  match if conf then portOf la else none with
  | some port => { s with pkg := { s.pkg with ports := s.pkg.ports.upd port ⟨0, 0⟩ (fun p => { p with counter := p.counter + 1 }) } }
  | none => s

/-- Whether an address lies in a Causeway window. -/
def isCauseway (a : Nat) : Bool :=
  match region a with | some (.causeway _) => true | _ => false

/-- The canonical form of memory: addresses strictly rising, and no entry equal to what an unlisted address reads as. -/
def Memory.wf (m : Map Byte) : Bool := m.rising && m.vals.all (fun b => b != Config.unlistedByte)

/-- The byte of memory at an address. -/
def Memory.read (m : Map Byte) (a : Nat) : Byte := m.get a Config.unlistedByte
/-- Memory with a byte written; a byte equal to what an unlisted address reads as is not listed. -/
def Memory.write (m : Map Byte) (a : Nat) (b : Byte) : Map Byte := if b = Config.unlistedByte then m.del a else m.put a b
/-- The `n` bytes of memory from an address. -/
def Memory.readN (m : Map Byte) (a n : Nat) : List Byte := (upTo n).map (fun i => Memory.read m (a + i))
/-- Memory with bytes written from an address on. -/
def Memory.writeN (m : Map Byte) (a : Nat) : List Byte → Map Byte
  | [] => m
  | b :: t => Memory.writeN (Memory.write m a b) (a + 1) t

/-- Whether a number is in a list. -/
def has (l : List Nat) (n : Nat) : Bool := l.any (fun x => x == n)
/-- A number put into a list, once. -/
def addOnce (l : List Nat) (n : Nat) : List Nat := if has l n then l else l ++ [n]
/-- A list without a number. -/
def drop (l : List Nat) (n : Nat) : List Nat := l.filter (fun x => x != n)

/-- A line of memory (R199). -/
def State.memLine (s : State) (la : Nat) : L1Line := ⟨Memory.readN s.mem la 128, has s.poison la⟩

/-- A line written into memory with its poison mark (R245). -/
def State.writeLine (s : State) (la : Nat) (data : List Byte) (poison : Bool) : State :=
  { s with mem := Memory.writeN s.mem la data, poison := if poison then addOnce s.poison la else drop s.poison la }

/-- The dies other than `d`, then `d` itself is left out: where a line may be held owned (R201). -/
def State.ownerOf (s : State) (la : Nat) : Option Nat :=
  (upTo Config.dies).find? (fun d => match (s.die d).l2.find? la with | some l => l.dirty | none => false)

/-- The value of a line that the directory gives a requester: the owning L2's, or memory's (R201, R278). -/
def State.directoryLine (s : State) (la : Nat) : L1Line :=
  match s.ownerOf la with
  | some d => (match (s.die d).l2.find? la with | some l => ⟨l.data, l.poison⟩ | none => s.memLine la)
  | none => s.memLine la

/-- Whether a firewall refuses what a die asks of a line's home: that of the home refuses the request, or, where another die owns the line, that die's
refuses the directory's message for its copy, and so what the die has asked for is not performed (R367, R368, log entry 113). -/
def State.barred (s : State) (d la : Nat) : Bool :=
  match s.ownerOf la with
  | some o => o != d && !(s.linkOk d la && s.snoopOk o la)
  | none => !s.linkOk d la

/-- Whether a firewall refuses a die's read of a line, which its L2 does not hold (R368). -/
def State.refusedRead (s : State) (d la : Nat) : Bool := ((s.die d).l2.find? la).isNone && s.barred d la

/-- Whether a die holds a copy of a line, in its L2 or on its way to or in an L1. -/
def State.holds (s : State) (d la : Nat) : Bool :=
  ((s.die d).l2.find? la).isSome || s.cores.any (fun p => dieOf p.1 == d && ((p.2.l1.find? la).isSome || (p.2.fills.find? la).isSome))

/-- Refusals of the firewalls at some dies reported to the supervisor ring: messages of a line's directory and a die's own write-backs bear no owner tag
(R368, R373, log entry 113). -/
def State.reportDies (s : State) (la : Nat) (dies : List Nat) : State :=
  dies.foldl (fun t d => t.reportSupervisor 6 0xFF (severityOf 6) (BitVec.ofNat 64 la) (BitVec.ofNat 32 d)) s

/-- The dies among some that hold a line and whose firewalls refuse its directory's messages (R367). -/
def State.deafDies (s : State) (la : Nat) (dies : List Nat) : List Nat := dies.filter (fun d => !s.snoopOk d la && s.holds d la)

/-- A line as a read at a die's L2 finds it (R274, R278); one that a firewall refuses reads 0 with P = 1 (R368). -/
def State.l2Line (s : State) (d la : Nat) : L1Line :=
  match (s.die d).l2.find? la with
  | some l => ⟨l.data, l.poison⟩
  | none => if s.barred d la then refusedLine else s.directoryLine la

/-- A line as its home finds it: its owner's copy, where that die's firewall lets the directory have it, or memory's (R201, R368). -/
def State.homeView (s : State) (la : Nat) : L1Line :=
  match s.ownerOf la with
  | some o => if s.snoopOk o la then s.directoryLine la else refusedLine
  | none => s.memLine la

/-- The bytes of a list of lines from an address on. -/
def sliceLine (l : L1Line) (a n : Nat) : List Byte := (l.data.drop (a % 128)).take n

/-- The lines that an access touches. -/
def linesOf (a n : Nat) : List Nat :=
  if n = 0 then [] else (upTo ((a + n - 1) / 128 - a / 128 + 1)).map (fun i => (a / 128 + i) * 128)

/-- Bytes as a read at a die's L2 finds them, and whether a line of them is poisoned. -/
def State.l2Read (s : State) (d a n : Nat) : List Byte × Bool :=
  ((upTo n).map (fun i => ((s.l2Line d (lineOf (a + i))).data.getD ((a + i) % 128) 0)), (linesOf a n).any (fun la => (s.l2Line d la).poison))

/-- Bytes replaced in a line from an offset on. -/
def patch (data : List Byte) (off : Nat) (new : List Byte) : List Byte := data.take off ++ new ++ data.drop (off + new.length)

/-- A line that passes its home's memory-side LLC kept there, unless its way is disabled (R4, R385, log entry 69). -/
def State.noteLlc (s : State) (la : Nat) : State :=
  match region la with
  | some (.causeway _) | none => s
  | some r => s.updDie r.home (fun x =>
      if x.waysOff.any (fun w => w.1 == Config.llcGroup la && w.2 == Config.llcWay la) then x else { x with llc := (la :: drop x.llc la).take Config.llcLines })

/-- The dirty copy of another die given up: memory takes its data, and the L2 keeps it clean (R201). -/
def State.cleanLine (s : State) (d la : Nat) : State :=
  match (s.die d).l2.find? la with
  | some l =>
    if l.dirty then (((s.writeLine la l.data l.poison).updDie d (fun x => { x with l2 := x.l2.put la { l with dirty := false } })).noteLlc la).countPacket la l.conf
    else s
  | none => s

/-- A die's own write-back of a line: where the firewall of the line's home refuses it, it is dropped and reported (R201, R368). -/
def State.giveBack (s : State) (d la : Nat) : State :=
  if s.linkOk d la then s.cleanLine d la
  else if s.ownerOf la = some d then s.reportDies la [d] else s

/-- The set of the L2 that holds a line (R201). -/
def l2SetOf (la : Nat) : Nat := Config.l2Set la % 32768

/-- The line that gives way, from the candidates with their policies: stream lines first, keep lines last, and within one class a free
choice (R214). -/
def victimOf (lines : List (Nat × Nat)) (n : Nat) : Option Nat :=
  let stream := lines.filter (fun p => p.2 == 1)
  let plain := lines.filter (fun p => p.2 == 0)
  let from' := if !stream.isEmpty then stream else if !plain.isEmpty then plain else lines
  (from'[Config.replaced n % from'.length]?).map Prod.fst

/-- Room made in a die's L2 for a line it does not hold: where the set's ways are in use, one line that is not pinned is written back if it
is dirty, and dropped (R201, R220). -/
def State.l2Room (s : State) (d la : Nat) : State :=
  let x := s.die d
  if x.l2.length < Config.l2Ways then s
  else
    let set := x.l2.filter (fun p => l2SetOf p.1 == l2SetOf la)
    if set.length < Config.l2Ways then s
    else match victimOf ((set.filter (fun p => p.2.pin.isNone && p.2.bound == 0)).map (fun p => (p.1, p.2.pol))) s.free with
      | none => s
      | some v => { (s.giveBack d v).updDie d (fun x => { x with l2 := x.l2.del v }) with free := s.free + 1 }

/-- The policy under which a line enters a die's L2: keep lines fill at most half of a set's ways (R214). -/
def State.l2Policy (s : State) (d la pol : Nat) : Nat :=
  let keeps := (s.die d).l2.filter (fun p => p.2.pol == 2)
  if pol = 2 ∧ keeps.length ≥ Config.l2Ways / 2 ∧ (keeps.filter (fun p => l2SetOf p.1 == l2SetOf la)).length ≥ Config.l2Ways / 2 then 0 else pol

/-- A line brought into a die's L2, unless it is there or a firewall refuses the request (R201, R368). -/
def State.l2Fetch (s : State) (d la pol : Nat) (conf : Bool) : State :=
  match (s.die d).l2.find? la with
  | some _ => s
  | none =>
    if s.barred d la then s else
    let s := s.l2Room d la
    let line : L2Line := ⟨(s.directoryLine la).data, (s.directoryLine la).poison, false, none, 0, s.l2Policy d la pol, conf⟩
    ((s.updDie d (fun x => { x with l2 := x.l2.put la line })).noteLlc la).countPacket la conf

/-- A line read through a die's L2, which keeps it where its page allows that (R201, R214). -/
def State.readLine (s : State) (d la pol : Nat) (alloc conf : Bool) : State :=
  if alloc then s.l2Fetch d la pol conf else if ((s.die d).l2.find? la).isNone then s.countPacket la conf else s

/-- Every dirty copy of a line written back, as its directory asks; a die whose firewall refuses the directory's message keeps its copy, which is reported
(R201, R368). -/
def State.cleanAll (s : State) (la : Nat) : State :=
  (upTo Config.dies).foldl (fun t d => if t.snoopOk d la then t.cleanLine d la else t.reportDies la (if t.ownerOf la = some d then [d] else [])) s

/-- The cores of a die, but one, whose L1 holds a line or has a fill of it in flight, receive an invalidation (R273, R279). -/
def State.invalidateL1s (s : State) (d la except : Nat) : State :=
  { s with cores := s.cores.mapVals (fun c x =>
      if dieOf c = d ∧ c ≠ except ∧ ((x.l1.find? la).isSome ∨ (x.fills.find? la).isSome) then { x with invalidations := x.invalidations ++ [la] } else x) }

/-- Bytes written at the home of a line of MTYPE 2 (R213, R241). -/
def State.homeWrite (s : State) (a : Nat) (data : List Byte) (poison conf : Bool) : State :=
  let la := lineOf a
  let s := s.countPacket la conf
  let full := a % 128 == 0 && data.length == 128
  { s with mem := Memory.writeN s.mem a data, poison := if poison then addOnce s.poison la else if full then drop s.poison la else s.poison }

/-- The L2 copies of a line dropped in every die, a pinned copy being updated in place (R221), and the L1s told (R273). A die whose firewall refuses the
directory's message keeps its copies, which is reported (R368). -/
def State.refreshCopies (s : State) (la : Nat) : State :=
  let now := s.memLine la
  let s := s.reportDies la (s.deafDies la (upTo Config.dies))
  { s with
    dies := s.dies.mapVals (fun e x => if !s.snoopOk e la then x else match x.l2.find? la with
        | some l => if l.pin.isSome || l.bound != 0 then { x with l2 := x.l2.put la { l with data := now.data, poison := now.poison, dirty := false } }
                    else { x with l2 := x.l2.del la }
        | none => x),
    cores := s.cores.mapVals (fun c x =>
      if s.snoopOk (dieOf c) la ∧ ((x.l1.find? la).isSome ∨ (x.fills.find? la).isSome) then { x with invalidations := x.invalidations ++ [la] } else x) }

/-- Bytes of one line written into a die's L2, which then holds the line owned (R241, R273): other dirty copies are taken over, and the L1s
of the die's other cores receive invalidations. A poisoned store marks the line; one of all 128 bytes clears the mark (R245). A line that the L2
does not hold enters it under a policy, or where its page forbids that is written at its home (R214, R242). A request that a firewall
refuses is dropped (R368). -/
def State.l2WriteLine (s : State) (d core la off : Nat) (data : List Byte) (poison : Bool) (pol : Nat) (alloc conf : Bool) : State :=
  let line := s.directoryLine la
  let keep := (s.die d).l2.find? la
  if s.barred d la then s
  else if keep.isNone && !alloc then ((s.cleanAll la).homeWrite (la + off) data poison conf).refreshCopies la
  else
    let s := if s.ownerOf la = some d then s else s.cleanAll la
    let full := off == 0 && data.length == 128
    let s := if keep.isSome then s else if full then s.l2Room d la else (s.l2Room d la).countPacket la conf
    let new : L2Line := ⟨patch line.data off data, poison || (line.poison && !full), true,
      (match keep with | some l => l.pin | none => none), (match keep with | some l => l.bound | none => 0),
      (match keep with | some l => l.pol | none => s.l2Policy d la pol), conf || (match keep with | some l => l.conf | none => false)⟩
    (s.updDie d (fun x => { x with l2 := x.l2.put la new })).invalidateL1s d la core

/-- Bytes written through a die's L2, line by line. -/
def State.l2Write (s : State) (d core : Nat) (pol : Nat) (alloc conf : Bool) : Nat → List Byte → Bool → State
  | _, [], _ => s
  | a, data, poison =>
    let n := 128 - a % 128
    if data.length ≤ n then s.l2WriteLine d core (lineOf a) (a % 128) data poison pol alloc conf
    else
      let t := s.l2WriteLine d core (lineOf a) (a % 128) (data.take n) poison pol alloc conf
      t.l2WriteLine d core (lineOf a + 128) 0 (data.drop n) poison pol alloc conf

/-- The stale copies of a line in the L2s of other dies dropped, which performs a store of a die at `.pkg` (R278): the copy of the owner
stays, and the L1s of those dies are told (R273). Pinned copies are updated in place (R221). A die whose firewall refuses the line's directory
keeps its copies, which is reported (R368). -/
def State.dropCopies (s : State) (d la : Nat) : State :=
  let now := s.directoryLine la
  let s := s.reportDies la (s.deafDies la (drop (upTo Config.dies) d))
  { s with
    cores := s.cores.mapVals (fun c x =>
      if dieOf c ≠ d ∧ s.snoopOk (dieOf c) la ∧ ((x.l1.find? la).isSome ∨ (x.fills.find? la).isSome) then { x with invalidations := x.invalidations ++ [la] } else x),
    dies := s.dies.mapVals (fun e x =>
      if e = d ∨ !s.snoopOk e la then x
      else match x.l2.find? la with
        | some l => if l.dirty then x
                    else if l.pin.isSome || l.bound != 0 then { x with l2 := x.l2.put la { l with data := now.data, poison := now.poison } }
                    else { x with l2 := x.l2.del la }
        | none => x) }

/-- Bytes written at `.sys` scope by the device or an agent outside the cores: every device copy is written back first, then memory takes
the bytes, and host copies of the halves written are invalidated (R213, R241, R280, R281). -/
def State.sysWrite (s : State) (a : Nat) (data : List Byte) (poison : Bool) : State :=
  let lines := linesOf a data.length
  let s := lines.foldl (fun t la => t.cleanAll la) s
  let full := fun la => decide (a ≤ la ∧ la + 128 ≤ a + data.length)
  let s := { s with mem := Memory.writeN s.mem a data,
                    poison := lines.foldl (fun p la => if poison then addOnce p la else if full la then drop p la else p) s.poison,
                    host := s.host.keep (fun h _ => !decide (h < a + data.length ∧ a < h + 64)) }
  lines.foldl (fun t la => t.refreshCopies la) s

/-- Bytes read at `.sys` scope, and whether a line of them is poisoned. -/
def State.sysRead (s : State) (a n : Nat) : List Byte × Bool :=
  ((upTo n).map (fun i => ((s.homeView (lineOf (a + i))).data.getD ((a + i) % 128) 0)), (linesOf a n).any (fun la => (s.homeView la).poison))

/-- How a walk ends (R206). -/
inductive Walk where
  | page (p : Page)
  /-- An entry with V = 0: replayable. -/
  | missing
  | error
  | poisoned
  /-- A host chiplet holds an entry's line exclusive: the walk waits, as a coherent demand read does (R205, R280). -/
  | held
  deriving DecidableEq, Repr

/-- The leaf of an entry at a level, for an address (R204, R205). -/
def leafPage (ctx va level e : Nat) : Walk :=
  let bits := if level = 2 then 30 else if level = 1 then 21 else 16
  let pa := bitsAt e 47 16 * 2 ^ 16
  if bitsAt e 63 60 > 6 ∨ bitsAt e 59 58 = 3 ∨ bitsAt e 7 6 = 3 ∨ bitsAt e 15 12 ≠ 0 ∨ bitsAt e 5 2 ≠ 0
      ∨ pa % 2 ^ bits ≠ 0 ∨ (bitsAt e 49 48 ≠ 0 ∧ bitsAt e 7 6 = 2) ∨ (region pa).isNone then .error
  else .page ⟨ctx, va / 2 ^ bits * 2 ^ bits, bits, pa, bitsAt e 63 60, bitsAt e 59 58, bitsAt e 57 52, bitAt e 51, bitAt e 50,
    bitsAt e 49 48, bitAt e 11, bitAt e 10, bitAt e 9, bitAt e 8, bitsAt e 7 6⟩

/-- The address of the entry of a table of a level, 0 the lowest, for a virtual address (R204). -/
def entryAddr (va level table : Nat) : Nat := table + 8 * (if level = 0 then bitsAt va 20 16 else bitsAt va (20 + 9 * level) (12 + 9 * level))
/-- The next table that a non-leaf entry of a level names (R205). -/
def nextTable (level e : Nat) : Nat := if level = 1 then bitsAt e 47 8 * 2 ^ 8 else bitsAt e 47 12 * 2 ^ 12
/-- Whether an entry of a level is a well-formed non-leaf entry (R205, R206). -/
def leadsOn (level e : Nat) : Bool :=
  decide (level ≠ 0) && bitAt e 0 && !bitAt e 1 && bitsAt e 63 48 == 0 && bitsAt e (if level = 1 then 7 else 11) 2 == 0

/-- A walk from the table of a level (R204, R206); reads go through the die's L2 as coherent demand reads (R205). -/
def State.walkFrom (s : State) (d ctx va : Nat) : Nat → Nat → Walk
  | 0, table =>
    let a := entryAddr va 0 table
    if (region a).isNone then .error
    else if s.hostHolds (lineOf a) then .held
    else
      let (bytes, bad) := s.l2Read d a 8
      let e := ofBytes bytes
      if bad then .poisoned else if !bitAt e 0 then .missing else if !bitAt e 1 then .error else leafPage ctx va 0 e
  | n + 1, table =>
    let a := entryAddr va (n + 1) table
    if (region a).isNone then .error
    else if s.hostHolds (lineOf a) then .held
    else
      let (bytes, bad) := s.l2Read d a 8
      let e := ofBytes bytes
      if bad then .poisoned
      else if !bitAt e 0 then .missing
      else if bitAt e 1 then (if n = 2 then .error else leafPage ctx va (n + 1) e)
      else if leadsOn (n + 1) e then s.walkFrom d ctx va n (nextTable (n + 1) e)
      else .error

/-- The lines that a walk reads, up to the first that a firewall refuses its die (R206, R368). -/
def State.walkLines (s : State) (d va : Nat) : Nat → Nat → List Nat
  | 0, table => [lineOf (entryAddr va 0 table)]
  | n + 1, table =>
    let a := entryAddr va (n + 1) table
    let r := s.l2Read d a 8
    lineOf a :: (if !r.2 && leadsOn (n + 1) (ofBytes r.1) then s.walkLines d va n (nextTable (n + 1) (ofBytes r.1)) else [])

/-- The non-leaf entries that a walk passes, which the die's page-walk caches keep (R207). -/
def State.walkSteps (s : State) (d ctx va : Nat) : Nat → Nat → List WalkStep
  | 0, _ => []
  | n + 1, table =>
    let e := ofBytes (s.l2Read d (entryAddr va (n + 1) table) 8).1
    if leadsOn (n + 1) e then ⟨ctx, n + 1, va / 2 ^ (12 + 9 * (n + 1)), nextTable (n + 1) e⟩ :: s.walkSteps d ctx va n (nextTable (n + 1) e) else []

/-- Where a walk starts: the level and table that the page-walk caches of a die lead to, the lowest first, or the root (R203, R207). -/
def Die.walkStart (x : Die) (ctx va root : Nat) : Nat × Nat :=
  let at' := fun (level : Nat) => (x.walks.find? (fun w => w.ctx == ctx && w.level == level && w.part == va / 2 ^ (12 + 9 * level))).map (fun w => (level - 1, w.table))
  (firstSome [at' 1, at' 2, at' 3]).getD (3, root)

/-- The context with a number, or one without anything. -/
def Ctx.none : Ctx := ⟨0, 0, 0, false, 0, 13, 0, 0, 4096, Option.none, Option.none, 0, 0, 0, [], [], [], [], [], false⟩
/-- The context with a number. -/
def State.ctx (s : State) (c : Nat) : Ctx := s.ctxs.get c Ctx.none

/-- Whether the accesses of a page consult the host chiplets: it is in host bias, and the directory gives them no copies of an MTYPE 1 page (R213,
R217). -/
def Page.consults (p : Page) : Bool := p.bias && p.mtype != 1

/-- Whether a page allows allocation in the L1, and in the L2 (R214). -/
def Page.l1Ok (p : Page) : Bool := p.mtype != 2 && decide (p.alloc ≤ 1)
/-- See `Page.l1Ok`. -/
def Page.l2Ok (p : Page) : Bool := p.mtype != 2 && decide (p.alloc ≤ 2)

/-- The page of a list that maps an address of a context. -/
def findPage (l : List Page) (ctx va : Nat) : Option Page := l.find? (fun p => p.ctx == ctx && va / 2 ^ p.bits * 2 ^ p.bits == p.va)

/-- The kind of an access (R210). -/
inductive Kind where
  | read | write | fetch
  deriving DecidableEq, Repr

/-- How the translation of one access ends (R202 to R210). -/
inductive Xlate where
  | ok (pa : Nat) (page : Page)
  /-- A precise MEMORY trap with this subcode. -/
  | trap (sub : Nat)
  /-- HWERR with SUB 1: a walk read poison (R206). -/
  | poisoned
  /-- A translation fault, which the supervisor may resolve (R208). -/
  | replay
  /-- The walk, or the bias flip of the page, is not done: the access has not translated yet (R205, R207, R283). -/
  | held
  deriving DecidableEq, Repr

/-- The page of an address, by the TLBs or a walk (R206, R207). -/
def State.pageOf (s : State) (ctx core : Nat) (va : W64) : Walk :=
  match findPage (s.core core).tlb ctx va.toNat with
  | some p => .page p
  | none =>
    match findPage (s.die (dieOf core)).tlb ctx va.toNat with
    | some p => .page p
    | none =>
      let from' := (s.die (dieOf core)).walkStart ctx va.toNat (s.ctx ctx).ptroot
      s.walkFrom (dieOf core) ctx va.toNat from'.1 from'.2

/-- The translation of an address for an access of a kind, whatever bias flips are in progress (R202, R206, R208, R210). -/
def State.xlateNow (s : State) (ctx core : Nat) (va : W64) (kind : Kind) : Xlate :=
  if va.toNat ≥ 2 ^ 48 then .trap 1
  else
    match s.pageOf ctx core va with
    | .error => .trap 3
    | .poisoned => .poisoned
    | .held => .held
    | .missing => if (s.ctx ctx).unresolved.any (fun a => a == va) then .trap 0 else .replay
    | .page p =>
      let c := s.ctx ctx
      let pa := p.pa + va.toNat % 2 ^ p.bits
      let allowed := match kind with | .read => p.rd | .write => p.w | .fetch => p.x
      let home := match region pa with | some r => r.home | none => 0
      if !allowed || p.owner != c.vf || !has (s.vf c.vf).dies home then .trap 1 else .ok pa p

/-- Whether a bias flip of the page of an address is in progress (R283). -/
def Ctx.flipping (c : Ctx) (va : W64) : Bool := c.flips.any (fun f => decide (f.1 ≤ va.toNat ∧ va.toNat < f.1 + f.2))

/-- The translation of an address for an access of a kind: on a page whose bias flip is in progress it waits (R283). -/
def State.xlate (s : State) (ctx core : Nat) (va : W64) (kind : Kind) : Xlate :=
  if (s.ctx ctx).flipping va then .held else s.xlateNow ctx core va kind

/-- The translation of an address kept in the TLBs of the core and its die, and what its walk passed in the page-walk caches (R207). -/
def State.fillTlb (s : State) (ctx core : Nat) (va : W64) : State :=
  let d := dieOf core
  let known := (findPage (s.core core).tlb ctx va.toNat).isSome || (findPage (s.die d).tlb ctx va.toNat).isSome
  match s.pageOf ctx core va with
  | .page p =>
    let from' := (s.die d).walkStart ctx va.toNat (s.ctx ctx).ptroot
    let steps := if known then [] else s.walkSteps d ctx va.toNat from'.1 from'.2
    let s := s.updCore core (fun x => if (findPage x.tlb ctx va.toNat).isSome then x else { x with tlb := (p :: x.tlb).take Config.coreTlb })
    s.updDie d (fun x => { x with
      tlb := if (findPage x.tlb ctx va.toNat).isSome then x.tlb else (p :: x.tlb).take Config.dieTlb, walks := steps ++ x.walks })
  | _ => s

/-- A translation fault put before the supervisor (R208). -/
def State.askSupervisor (s : State) (ctx : Nat) (va : W64) : State :=
  { s with ctxs := s.ctxs.adjust ctx (fun c => if c.faults.any (fun a => a == va) then c else { c with faults := c.faults ++ [va] }) }

/-- An address declared unresolved is taken off the list as its fault is raised (R208). -/
def State.forget (s : State) (ctx : Nat) (va : W64) : State :=
  { s with ctxs := s.ctxs.adjust ctx (fun c => { c with unresolved := c.unresolved.filter (fun a => a != va) }) }

end Sys2Proof.Machine
end

