-- ==== Sys2Proof/Machine/Ops.lean ====
section
/-! DEFINITION. The operations that the meanings share: reaching groups and fibres, reading and writing registers, tickets, advancing the
PCs of an issue set, raising a fault, taking a trap and returning from one. -/

namespace Sys2Proof.Machine

/-- A group that is not resident. -/
def Group.none : Group :=
  ⟨0, 0, 0, 0, 0, 0, 0, 0, 96, [], 0, 0, 0, 0, 0, 0, false, false, 0, 0, 0, 0, [], [], [], .neither, 0, Option.none, Option.none, false, Option.none, Option.none,
    Option.none, 4, 0, [], 0, [], [], [], [], [], 0, Option.none, false, [], []⟩

/-- The group with a number. -/
def State.group (s : State) (g : Nat) : Group := s.groups.get g Group.none
/-- The state with a resident group changed. -/
def State.updGroup (s : State) (g : Nat) (f : Group → Group) : State := { s with groups := s.groups.adjust g f }
/-- The group in execution. -/
def State.here (s : State) : Group := s.group s.cur.g
/-- The group with the fibres of some lanes changed. -/
def Group.mapLanes (x : Group) (lanes : List Nat) (f : Nat → Fibre → Fibre) : Group :=
  { x with fibres := x.fibres.mapVals (fun l b => if has lanes l then f l b else b) }
/-- The state with the fibres of some lanes of a group changed. -/
def State.mapLanes (s : State) (g : Nat) (lanes : List Nat) (f : Nat → Fibre → Fibre) : State := s.updGroup g (fun x => x.mapLanes lanes f)
/-- The state with one fibre changed. -/
def State.updFibre (s : State) (g lane : Nat) (f : Fibre → Fibre) : State := s.mapLanes g [lane] (fun _ b => f b)

/-- A fibre as it is created, with a number, an address and a window base (R93, R134). -/
def Fibre.new (uid : Nat) (pc : W64) (wb : BitVec 4) : Fibre :=
  ⟨uid, pc, { Fcw.reset with wb := wb }, [], [], [], [], 0, 0, 0, false, [], .free, 0, 0, none, 0, ⟨false, false, 0, 0, 0, 0⟩, Elem.zero 64, Elem.zero 64, false, .free, 0, 0⟩

/-- The fibre of a lane, or an empty one where the lane is free. -/
def Group.fibre (x : Group) (lane : Nat) : Fibre := x.fibres.get lane (Fibre.new 0 0 0)
/-- The live lanes, ascending. -/
def Group.live (x : Group) : List Nat := x.fibres.keys

/-- The grid of a group. -/
def Record.none : Record := ⟨0, 0, 0, 0, 1, 1, 0, 3, 3, 0, 0, false, false, false, 1⟩
/-- A grid that is not there. -/
def Grid.none : Grid := ⟨0, 0, 0, 0, Record.none, 0, [], Option.none, 0, 0, 0, 0, 0, 0, Option.none⟩
/-- The grid with a number. -/
def State.grid (s : State) (n : Nat) : Grid := s.grids.get n Grid.none
/-- The state with a grid changed. -/
def State.updGrid (s : State) (n : Nat) (f : Grid → Grid) : State := { s with grids := s.grids.adjust n f }

-- ## Registers

/-- An operand value: its bits, as a natural number, and its tags. -/
structure Val where
  bits : Nat
  g : Bool
  p : Bool
  deriving DecidableEq, Repr

/-- The value 0 with clear tags. -/
def Val.zero : Val := ⟨0, false, false⟩
/-- A value with clear tags. -/
def Val.of (n : Nat) : Val := ⟨n, false, false⟩

/-- The row of v register code `c` of a fibre (R56). -/
def Fibre.row (b : Fibre) (c : Nat) : Nat := b.cw.wb.toNat * 32 + c
/-- One v element. -/
def Fibre.vRow (b : Fibre) (r : Nat) : Elem 32 := b.v.get r (Elem.zero 32)
/-- One k register. -/
def Fibre.kReg (b : Fibre) (i : Nat) : Elem 64 := b.k.get i (Elem.zero 64)
/-- One w register. -/
def Fibre.wReg (b : Fibre) (i : Nat) : Elem 64 := b.w.get i (Elem.zero 64)
/-- One predicate bit as a value with its tags (R58). -/
def Fibre.qBit (b : Fibre) (i : Nat) : Val := ⟨if b.cw.q.getLsbD i then 1 else 0, b.cw.qg.getLsbD i, b.cw.qp.getLsbD i⟩

/-- `n` consecutive v elements as one value, the lowest register lowest, with their tags ORed (R58). -/
def Fibre.vRows (b : Fibre) : Nat → Nat → Val
  | _, 0 => Val.zero
  | r, n + 1 =>
    let e := b.vRow r
    let t := b.vRows (r + 1) n
    ⟨e.val.toNat + 2 ^ 32 * t.bits, e.g || t.g, e.p || t.p⟩

/-- The value of a register code as a source, a v register being the first of `rows` (R39, R56). -/
def State.readCode (s : State) (x : Group) (lane : Nat) (b : Fibre) (code rows : Nat) : Val :=
  if code < 96 then b.vRows (b.row code) rows
  else if code < 112 then ⟨(b.kReg (code - 96)).val.toNat, (b.kReg (code - 96)).g, (b.kReg (code - 96)).p⟩
  else if code < 120 then b.qBit (code - 112)
  else Val.of ((match code with
    | 121 => lane | 122 => x.grp * 32 + lane | 123 => x.team | 124 => x.grp | 125 => x.role | 126 => s.ticks | _ => 0) % 2 ^ 64)

/-- `n` consecutive v elements written from one value (R58). -/
def Fibre.writeRows (b : Fibre) (v : Val) : Nat → Nat → Nat → Fibre
  | _, _, 0 => b
  | r, bits, n + 1 => ({ b with v := b.v.put r ⟨BitVec.ofNat 32 bits, v.g, v.p⟩ } : Fibre).writeRows v (r + 1) (bits / 2 ^ 32) n

/-- A k register written. -/
def Fibre.writeK (b : Fibre) (i : Nat) (v : Val) : Fibre := { b with k := b.k.put i ⟨BitVec.ofNat 64 v.bits, v.g, v.p⟩ }
/-- A w register written. -/
def Fibre.writeW (b : Fibre) (i : Nat) (v : Val) : Fibre := { b with w := b.w.put i ⟨BitVec.ofNat 64 v.bits, v.g, v.p⟩ }
/-- One bit of a byte written. -/
def setBit8 (x : BitVec 8) (i : Nat) (b : Bool) : BitVec 8 := if b then x ||| (1#8 <<< i) else x &&& ~~~(1#8 <<< i)
/-- A predicate written with its tags (R58). -/
def Fibre.writeQ (b : Fibre) (i : Nat) (v : Val) : Fibre :=
  { b with cw := { b.cw with q := setBit8 b.cw.q i (v.bits % 2 = 1), qg := setBit8 b.cw.qg i v.g, qp := setBit8 b.cw.qp i v.p } }

/-- The destination of an instruction. -/
inductive Dst where
  /-- A v code, the first of so many registers, or z. -/
  | v (code rows : Nat)
  /-- A v, k or z code; a v code names so many registers (R247). -/
  | vk (code rows : Nat)
  /-- A k code or z. -/
  | k (code : Nat)
  /-- A q code or z. -/
  | q (code : Nat)
  | w (idx : Nat)
  /-- No destination. -/
  | none
  deriving DecidableEq, Repr

/-- The registers that a destination names, in a fibre. -/
def Dst.regs (d : Dst) (b : Fibre) : List Reg :=
  match d with
  | .v c n => if c < 96 then (upTo n).map (fun i => ⟨.v, b.row c + i⟩) else []
  | .vk c n => if c < 96 then (upTo n).map (fun i => ⟨.v, b.row c + i⟩) else if c < 112 then [⟨.k, c - 96⟩] else []
  | .k c => if 96 ≤ c ∧ c < 112 then [⟨.k, c - 96⟩] else []
  | .q c => if 112 ≤ c ∧ c < 120 then [⟨.q, c - 112⟩] else []
  | .w i => [⟨.w, i⟩]
  | .none => []

/-- A destination written; z discards (R56). -/
def Dst.write (d : Dst) (b : Fibre) (v : Val) : Fibre :=
  match d with
  | .v c n => if c < 96 then b.writeRows v (b.row c) v.bits n else b
  | .vk c n => if c < 96 then b.writeRows v (b.row c) v.bits n else if c < 112 then b.writeK (c - 96) v else b
  | .k c => if 96 ≤ c ∧ c < 112 then b.writeK (c - 96) v else b
  | .q c => if 112 ≤ c ∧ c < 120 then b.writeQ (c - 112) v else b
  | .w i => b.writeW i v
  | .none => b

/-- The value a destination holds. -/
def Dst.read (d : Dst) (b : Fibre) : Val :=
  match d with
  | .v c n => if c < 96 then b.vRows (b.row c) n else Val.zero
  | .vk c n => if c < 96 then b.vRows (b.row c) n
      else if c < 112 then ⟨(b.kReg (c - 96)).val.toNat, (b.kReg (c - 96)).g, (b.kReg (c - 96)).p⟩ else Val.zero
  | .k c => if 96 ≤ c ∧ c < 112 then ⟨(b.kReg (c - 96)).val.toNat, (b.kReg (c - 96)).g, (b.kReg (c - 96)).p⟩ else Val.zero
  | .q c => if 112 ≤ c ∧ c < 120 then b.qBit (c - 112) else Val.zero
  | .w i => ⟨(b.wReg i).val.toNat, (b.wReg i).g, (b.wReg i).p⟩
  | .none => Val.zero

/-- One register's tags, ORed with two bits, its value kept (R155: a mask predicate's tags fall on a kept element). -/
def Fibre.tagReg (b : Fibre) (r : Reg) (g p : Bool) : Fibre :=
  match r.file with
  | .v => { b with v := b.v.put r.idx { b.vRow r.idx with g := (b.vRow r.idx).g || g, p := (b.vRow r.idx).p || p } }
  | .k => { b with k := b.k.put r.idx { b.kReg r.idx with g := (b.kReg r.idx).g || g, p := (b.kReg r.idx).p || p } }
  | .w => { b with w := b.w.put r.idx { b.wReg r.idx with g := (b.wReg r.idx).g || g, p := (b.wReg r.idx).p || p } }
  | .q => { b with cw := { b.cw with qg := setBit8 b.cw.qg r.idx (b.cw.qg.getLsbD r.idx || g), qp := setBit8 b.cw.qp r.idx (b.cw.qp.getLsbD r.idx || p) } }

/-- One register's G bit cleared. -/
def Fibre.clearG (b : Fibre) (r : Reg) : Fibre :=
  match r.file with
  | .v => { b with v := b.v.put r.idx { b.vRow r.idx with g := false } }
  | .k => { b with k := b.k.put r.idx { b.kReg r.idx with g := false } }
  | .w => { b with w := b.w.put r.idx { b.wReg r.idx with g := false } }
  | .q => { b with cw := { b.cw with qg := setBit8 b.cw.qg r.idx false } }

/-- One register freed: it reads 0 with clear tags (R54). -/
def Fibre.freeReg (b : Fibre) (r : Reg) : Fibre :=
  match r.file with
  | .v => { b with v := b.v.del r.idx }
  | .k => { b with k := b.k.del r.idx }
  | .w => { b with w := b.w.del r.idx }
  | .q => b

/-- One register of a fibre as it stands in another. -/
def Fibre.takeReg (b old : Fibre) (r : Reg) : Fibre :=
  match r.file with
  | .v => { b with v := match old.v.find? r.idx with | some e => b.v.put r.idx e | none => b.v.del r.idx }
  | .k => { b with k := match old.k.find? r.idx with | some e => b.k.put r.idx e | none => b.k.del r.idx }
  | .w => { b with w := match old.w.find? r.idx with | some e => b.w.put r.idx e | none => b.w.del r.idx }
  | .q => { b with cw := { b.cw with q := setBit8 b.cw.q r.idx (old.cw.q.getLsbD r.idx), qg := setBit8 b.cw.qg r.idx (old.cw.qg.getLsbD r.idx),
                                     qp := setBit8 b.cw.qp r.idx (old.cw.qp.getLsbD r.idx) } }

/-- Whether a register carries G. -/
def Fibre.guessed (b : Fibre) (r : Reg) : Bool :=
  match r.file with
  | .v => (b.vRow r.idx).g | .k => (b.kReg r.idx).g | .w => (b.wReg r.idx).g | .q => b.cw.qg.getLsbD r.idx

/-- The registers behind a source code (R56); z and codes 121 to 126 have none. -/
def codeRegs (b : Fibre) (code rows : Nat) : List Reg :=
  if code < 96 then (upTo rows).map (fun i => ⟨.v, b.row code + i⟩)
  else if code < 112 then [⟨.k, code - 96⟩]
  else if code < 120 then [⟨.q, code - 112⟩]
  else []

/-- A register is in a list. -/
def hasReg (l : List Reg) (r : Reg) : Bool := l.any (fun x => x == r)

/-- Whether any register of a fibre carries G (R232). -/
def Fibre.anyG (b : Fibre) : Bool :=
  b.v.vals.any Elem.g || b.k.vals.any Elem.g || b.w.vals.any Elem.g || b.cw.qg != 0

-- ## Tickets and holders

/-- The registers of a holder. -/
def Holder.regs (h : Holder) : List Reg := (upTo h.rows).map (fun i => ⟨h.reg.file, h.reg.idx + i⟩)
/-- Whether a holder is an element of a fibre. -/
def Holder.of (h : Holder) (g uid : Nat) : Bool := h.g == g && h.uid == uid
/-- The tickets linked to a fibre (R231). -/
def Core.linked (c : Core) (g uid : Nat) : List (Nat × Ticket) := c.tickets.filter (fun t => t.2.holders.any (fun h => h.of g uid))
/-- Whether every ticket linked to a fibre holds its truth (R238). -/
def Core.truthful (c : Core) (g uid : Nat) : Bool := (c.linked g uid).all (fun t => t.2.truth.isSome)
/-- Whether a holder of a fibre touches one of some registers. -/
def Core.touches (c : Core) (g uid : Nat) (regs : List Reg) : Bool :=
  c.tickets.vals.any (fun t => t.holders.any (fun h => h.of g uid && h.regs.any (fun r => hasReg regs r)))
/-- The tickets that are still in use: those whose truth is out or that have a holder (R230). -/
def Core.reapTickets (c : Core) : Core := { c with tickets := c.tickets.keep (fun _ t => t.truth.isNone || !t.holders.isEmpty) }

/-- The holders of a fibre that touch one of the registers, released; `counts` says whether they count in the residue (R231). -/
def State.releaseHolders (s : State) (g uid : Nat) (regs : List Reg) (counts : Bool) : State :=
  let x := s.group g
  let c := s.core x.core
  let hit := fun (h : Holder) => h.of g uid && h.regs.any (fun r => hasReg regs r)
  if c.tickets.vals.any (fun t => t.holders.any hit) then
    let n := (c.tickets.vals.map (fun t => (t.holders.filter hit).length)).sum
    let s := s.updCore x.core (fun c => { c with tickets := c.tickets.mapVals (fun _ t => { t with holders := t.holders.filter (fun h => !hit h) }) }.reapTickets)
    if counts then s.updGrid x.grid (fun r => { r with residue := r.residue + n }) else s
  else s

/-- Every holder of a fibre released, with residue: its lane quits (R231). -/
def State.releaseFibre (s : State) (g uid : Nat) : State :=
  let x := s.group g
  let hit := fun (h : Holder) => h.of g uid
  let n := ((s.core x.core).tickets.vals.map (fun t => (t.holders.filter hit).length)).sum
  if n = 0 then s
  else (s.updCore x.core (fun c => { c with tickets := c.tickets.mapVals (fun _ t => { t with holders := t.holders.filter (fun h => !hit h) }) }.reapTickets)).updGrid
    x.grid (fun r => { r with residue := r.residue + n })

/-- The guess-miss bits of a group brought up to date: GM is clear where a fibre holds no G element and no link (R232). -/
def State.settleGm (s : State) (g : Nat) : State :=
  let x := s.group g
  if x.fibres.vals.any (fun b => b.gm) then
    s.mapLanes g x.live (fun _ b => if b.gm && !b.anyG && ((s.core x.core).linked g b.uid).isEmpty then { b with gm := false } else b)
  else s

-- ## Advancing and warnings

/-- The address of the next instruction (R44). -/
def State.nextPc (s : State) : W64 := s.cur.pc + BitVec.ofNat 64 (4 * s.cur.words)

/-- The PCs of some lanes of the issuing group moved past its instruction, their waits ended. -/
def State.advance (s : State) (lanes : List Nat) : State :=
  s.mapLanes s.cur.g lanes (fun _ b => { b with pc := s.nextPc, wait := .free })

/-- Bits of WARN set (R65, R66). -/
def State.warn (s : State) (w : W32) : State := s.updGroup s.cur.g (fun x => { x with warn := x.warn ||| w })

/-- Lanes of the issuing group made to wait at the instruction. -/
def State.wait (s : State) (lanes : List Nat) (w : Wait) : State := s.mapLanes s.cur.g lanes (fun _ b => { b with wait := w })

-- ## Memory instructions whose fibres run on (R208)

/-- A fibre that has run on, back at the instruction: the registers that the instructions since name stand as they stood, and the interlocks
put on since are gone. -/
def Held.back (h : Held) (lane : Nat) (b : Fibre) : Fibre :=
  let old := h.fibres.get lane b
  let r := (h.named.get lane []).foldl (fun b r => b.takeReg old r) b
  { r with pc := h.issue.pc, locks := r.locks.filter (fun k => hasReg (old.locks.map Lock.reg) k.reg) }

/-- What a fibre becomes as the instruction has taken effect in it: it goes on from where it had run on to, with what it did since. -/
def Held.forth (h : Held) (lane : Nat) (ran done : Fibre) : Fibre :=
  let regs := h.named.get lane []
  let r := regs.foldl (fun b r => b.takeReg ran r) done
  { r with pc := ran.pc, locks := r.locks ++ ran.locks.filter (fun k => hasReg regs k.reg) }

/-- The instruction counted in its group, or no longer (R19). -/
def Held.count (h : Held) (up : Bool) (x : Group) : Group :=
  let f := fun (n : Nat) => if up then n + 1 else n - 1
  if h.load then { x with loads := f x.loads } else { x with stores := f x.stores }

/-- The fibres of an instruction back at it, not counted. -/
def Held.undo (h : Held) (x : Group) : Group := h.count false (x.mapLanes h.issue.lanes h.back)

/-- The results that its fibres have still to see retire since they ran on hold none of their registers any longer. -/
def State.dropLater (s : State) (g : Nat) (h : Held) : State :=
  s.updCore (s.group g).core (fun c => { c with results := c.results.mapVals (fun id r =>
    if r.g = g ∧ h.id ≤ id then { r with locks := r.locks.filter (fun p => !has h.issue.lanes p.1) } else r) })

/-- Every fibre of a group that has run on back at its instruction, which waits there (R122, R208). -/
def State.undoHeld (s : State) (g : Nat) : State :=
  let l := (s.group g).held
  let t := l.foldl (fun (t : State) h => (t.dropLater g h).updGroup g (fun x =>
    (h.undo x).mapLanes h.issue.lanes (fun _ b => { b with wait := match h.vas with | va :: _ => .translation va | [] => .free }))) s
  if l.isEmpty then s else t.updGroup g (fun x => { x with held := [] })

-- ## Device accesses by virtual address

/-- A byte whose contents carry no meaning, by its address and the number of the reader's key (R218). -/
def openAt (a generation : Nat) : Byte := Config.openByte (2 * (a + 2 ^ 48 * generation))

/-- The bytes of a line outside a range replaced by values of no use under a key (R372). -/
def scrubbed (la a n generation : Nat) (data : List Byte) : List Byte :=
  (upTo 128).map (fun i => if a ≤ la + i ∧ la + i < a + n then data.getD i 0 else openAt (la + i) generation)

/-- The bytes of a line outside a range become values of no use in memory and in every copy: the line was under another key, and is now under this one
(R372). -/
def State.scrub (s : State) (la a n generation : Nat) : State :=
  let f := scrubbed la a n generation
  { s with
    mem := Memory.writeN s.mem la (f (Memory.readN s.mem la 128)),
    dies := s.dies.mapVals (fun _ x => { x with l2 := x.l2.adjust la (fun l => { l with data := f l.data }) }),
    cores := s.cores.mapVals (fun _ x => { x with
      l1 := x.l1.adjust la (fun l => { l with data := f l.data }),
      fills := x.fills.adjust la (fun q => { q with sent := q.sent.map (fun l => { l with data := f l.data }) }) }) }

/-- The lines of some bytes written under an owner key: a line that another key had sealed keeps nothing but those bytes (R372). -/
def State.sealFor (s : State) (generation a n : Nat) : State :=
  (linesOf a n).foldl (fun t la =>
    let t := match t.seals.find? la with | some g => if g = generation then t else t.scrub la a n generation | none => t
    { t with seals := t.seals.put la generation }) s

/-- Lines written by a context carry its owner's key from now on (R372). -/
def State.seal (s : State) (ctx a n : Nat) : State := s.sealFor (s.vf (s.ctx ctx).vf).generation a n

/-- WHERE of an event (R373). -/
def eventPlace (core ctx : Nat) : W32 := BitVec.ofNat 32 (dieOf core + core % Config.coresPerDie * 2 ^ 8 + ctx % 2 ^ 16 * 2 ^ 16)

/-- Requests of a context on a core for some lines, which a firewall refuses, reported to the supervisor ring (R368, R373). -/
def State.reportRefused (s : State) (ctx core : Nat) (lines : List Nat) : State :=
  lines.foldl (fun t la => t.reportSupervisor 6 (s.ctx ctx).vf (severityOf 6) (BitVec.ofNat 64 la) (eventPlace core ctx)) s
/-- The reads among a core's requests for some lines that a firewall refuses reported (R368). -/
def State.reportReads (s : State) (ctx core : Nat) (lines : List Nat) : State := s.reportRefused ctx core (lines.filter (s.refusedRead (dieOf core)))
/-- The writes and atomics among a core's requests for some lines that a firewall refuses reported (R368). -/
def State.reportWrites (s : State) (ctx core : Nat) (lines : List Nat) : State := s.reportRefused ctx core (lines.filter (s.barred (dieOf core)))
/-- The reads of a walk for an address that a firewall refuses reported (R205, R368). -/
def State.reportWalk (s : State) (ctx core : Nat) (va : W64) : State :=
  let start := (s.die (dieOf core)).walkStart ctx va.toNat (s.ctx ctx).ptroot
  s.reportReads ctx core (s.walkLines (dieOf core) va.toNat start.1 start.2)

/-- A write of the device through a context's translation, at `.sys` scope; lost where the page does not take it (log entry 11). -/
def State.deviceWrite (s : State) (ctx : Nat) (va : W64) (data : List Byte) : State :=
  match s.xlateNow ctx 0 va .write with
  | .ok pa _ => (s.sysWrite pa data false).seal ctx pa data.length
  | .poisoned => s.reportWalk ctx 0 va
  | _ => s

/-- Whether a host chiplet holds a half of the lines of some bytes exclusive, so that an access of the device to them waits until the half comes back
(R280). -/
def State.bytesHeld (s : State) (a n : Nat) : Bool := (linesOf a n).any s.hostHolds

/-- Whether an access of the device by a context's address waits for a host's exclusive half, or for a walk (R205, R280). A VF that is torn down makes
none (R375). -/
def State.deviceHeld (s : State) (ctx : Nat) (va : W64) (n : Nat) : Bool :=
  (s.vf (s.ctx ctx).vf).alive && match s.xlateNow ctx 0 va .write with
  | .ok pa p => p.consults && s.bytesHeld pa n
  | .held => true
  | _ => false

-- ## Raising a fault (R120, R135)

/-- The mask of a list of lanes. -/
def maskOf (lanes : List Nat) : Nat := ((upTo 32).map (fun i => if has lanes i then 2 ^ i else 0)).sum

/-- The first lane of an ascending list. -/
def firstLane (l : List Nat) : Nat := l.headD 0

/-- No trap. -/
def Trap.none : Trap := ⟨0, 0, 0, 0, 0, 0, 0, false⟩

/-- The group of a context that is in its handler and runs, or ran when the halt in progress was raised. -/
def Ctx.handlerGroup (c : Ctx) : Option Nat :=
  match c.halt with
  | some h => (match h.phase with | .handler g => some g | _ => h.running)
  | _ => Option.none

/-- The clock from which a core's groups stand still for a halt: on which the halt line reached it, at most 64 clocks after it was raised; a core that it
has not reached runs until now (R120). -/
def State.reachClock (s : State) (h : Halt) (core : Nat) : Nat :=
  Nat.min ((h.reached.find? (fun p => p.1 == core)).map Prod.snd |>.getD s.clocks) (h.since + 64)

/-- Whether the halt line has reached a core: it arrives within 64 clocks (R120). -/
def State.lineReached (s : State) (h : Halt) (core : Nat) : Bool := h.reached.any (fun p => p.1 == core) || decide (h.since + 64 ≤ s.clocks)

/-- The clocks for which a group has stood halted and that are not taken out of its bounds yet: since the halt line reached its core, or where it stood
already as the halt was raised since then (R123). -/
def State.stoodFor (s : State) (h : Halt) (g core : Nat) : Nat :=
  s.clocks - (match h.stood with | some (t, e) => if e = g then s.reachClock h core else t | none => s.reachClock h core)

/-- The wait of a RET on its fill, which began so many clocks later (R101). -/
def Wait.later (w : Wait) (d : Nat) : Wait := match w with | .fill words since => .fill words (since + d) | w => w

/-- The time a context has been halted taken out of the clock-based bounds of its groups and grids (R123). Of a group that ran in its handler
only the bounds kept from before its entry are moved. What an on-ramp release counts from after the halt was raised stands (R117). -/
def State.shiftTimes (s : State) (ctx : Nat) : State :=
  match (s.ctx ctx).halt with
  | none => s
  | some h =>
    let runs := fun (g : Nat) => match h.phase with | .handler e => e == g | _ => false
    { s with
      groups := s.groups.mapVals (fun g x => if x.ctx = ctx then
        let d := s.stoodFor h g x.core
        let kept := match h.stood with | some (t, _) => s.clocks - t | none => d
        { x with
          entered := if runs g then x.entered else x.entered + d,
          readySince := if runs g then x.readySince else x.readySince.map (· + d),
          pendingSince := if runs g then x.pendingSince else x.pendingSince.map (· + d),
          fibres := x.fibres.mapVals (fun _ b =>
            { b with
              junctionSince := if runs g then b.junctionSince else b.junctionSince + d, savedJunction := b.savedJunction + kept,
              wait := if runs g then b.wait else b.wait.later d, savedWait := b.savedWait.later kept,
              locks := if runs g then b.locks else b.locks.map (fun k => { k with since := k.since + d }) }) } else x),
      grids := s.grids.mapVals (fun _ r => if r.ctx = ctx then { r with releasing := r.releasing.map (fun p => (p.1 + (s.clocks - Nat.max p.1 h.since), p.2)) } else r) }

/-- A halt raised for a context: the halt line starts on its way (R120). Groups that were at rest already stay so, and copies and tile
operations that an earlier halt has stopped do too (R121). -/
def State.raiseHalt (s : State) (ctx reason g : Nat) (t : Trap) (lanes : List Nat) (incomplete : Bool) (epc : W64) : State :=
  let s := s.shiftTimes ctx
  { s with ctxs := s.ctxs.adjust ctx (fun c =>
      { c with halt := some ⟨reason, g, t, lanes, incomplete, c.handlerGroup, epc, .stopping, s.clocks, [],
        c.handlerGroup.map (fun e => (s.clocks, e)), [], [], [], (c.halt.map Halt.mark).getD 0⟩,
               nrec := 0, lost := 0, pl := if reason = 1 then Option.none else c.pl }) }

/-- Whether a context is running as far as a group is concerned: not halted, or the group is in its handler (R120, R136). -/
def State.runs (s : State) (ctx g : Nat) : Bool :=
  match (s.ctx ctx).halt with
  | none => true
  | some h => (match h.phase with | .handler e => e == g | _ => false)

/-- Whether a context can be halted now: nothing halts it, or a group of it is in its handler. -/
def State.canHalt (s : State) (ctx : Nat) : Bool :=
  match (s.ctx ctx).halt with
  | none => true
  | some h => (match h.phase with | .handler _ => true | _ => false)

/-- Whether a halt was raised by an instruction of its group, which stops there (R135, R142, R145): neither a pre-emption nor a stop of the
supervisor nor a deferred fault. -/
def Halt.taken (h : Halt) : Bool := h.reason != 1 && h.reason != 2 && !h.trap.deferred

/-- Whether a group may issue: its context runs, or a halt line is on its way that has not reached its core and that the group has not
raised itself (R120). -/
def State.mayIssue (s : State) (g : Nat) : Bool :=
  let x := s.group g
  !(s.core x.core).retired && match (s.ctx x.ctx).halt with
  | none => true
  | some h => (match h.phase with
    | .handler e => e == g
    | .stopping => !s.lineReached h x.core && !(h.taken && (h.group == g || has h.others g)) && (match h.running with | some e => e == g | none => true)
    | .supervisor => false)

/-- Whether an engine has written its stop record at a halt (R120). -/
def Halt.hasStopped (h : Halt) (core track eng : Nat) : Bool := h.stopped.any (fun t => t.core == core && t.track == track && t.eng == eng)

/-- The skid bound of an engine in clocks, of those whose work ends with it (R121). -/
def skidBound (eng : Nat) : Option Nat := match eng with | 3 => some 8 | 4 => some 256 | _ => none

/-- Whether an engine of a core is within its skid bound of a halt (R121). -/
def State.inSkid (s : State) (h : Halt) (core eng : Nat) : Bool :=
  !s.lineReached h core || match skidBound eng with | some n => decide (s.clocks < s.reachClock h core + n) | none => true

/-- Whether the engine of a core still works for a group of a context: no halt has stopped it, and its skid bound has not passed, but for what it has to
bring to its state at rest (R121, R136). Of a context that the supervisor is ending the load-store engine accepts what has been issued (R287). -/
def State.engineRuns (s : State) (ctx g core track eng : Nat) (finishing : Bool) : Bool :=
  match (s.ctx ctx).halt with
  | none => true
  | some h => (match h.phase with
    | .handler e => e == g
    | .stopping => !h.hasStopped core track eng && (s.inSkid h core eng || finishing) && (match h.running with | some e => e == g | none => true)
    | .supervisor => eng == 2 && (s.ctx ctx).ending)

/-- Whether an engine works on an operation: it works for its group, and for a copy no halt whose handler is running has stopped it before (R121,
R328); `finishing` says that the operation is still to reach the state at rest in which a halt stops it. -/
def State.opRuns (s : State) (ctx g seq core eng : Nat) (finishing : Bool) : Bool :=
  s.engineRuns ctx g core 255 eng finishing && (eng != 4 || match (s.ctx ctx).halt with | some h => decide (h.mark ≤ seq) | none => true)

/-- Whether a copy is where a halt can stop it: between two pieces, a gather or scatter where its contiguous side is at a line's start, or
where it is paused (R121, R338, R341). -/
def Copy.atBoundary (c : Copy) : Bool :=
  c.ended || c.paused.isSome || c.flip || !(c.kind == 2 || c.kind == 3)
    || ((if c.kind = 2 then c.dst else c.src).toNat + c.row * c.rowBytes) % 128 == 0

/-- Whether the copy engine works on a copy: a halt stops it at its next boundary (R121). -/
def State.copyRuns (s : State) (core : Nat) (c : Copy) : Bool := s.opRuns c.ctx c.g c.seq core 4 (!c.atBoundary)

/-- The place of a group in (die, core, track, slot) order. -/
def Group.place (x : Group) : Nat := (x.core * 8 + x.track) * 64 + x.slot

/-- A fault or a HALT kept pending in its group until it next issues after the halt is released (R122, R135). -/
def State.keep (s : State) (g : Nat) (t : Trap) (lanes : List Nat) : State := s.updGroup g (fun x => { x with pend := x.pend ++ [(t, lanes)] })

/-- The halt of a context that was raised on this clock, that is still on its way and that a group which ran then may share (R127, R135). -/
def State.sameClock (s : State) (ctx g : Nat) : Option Halt :=
  match (s.ctx ctx).halt with
  | some h => if h.phase = .stopping ∧ h.since = s.clocks ∧ h.running.all (fun e => e == g) then some h else none
  | none => none

/-- The halt of a context changed. -/
def State.updHalt (s : State) (ctx : Nat) (f : Halt → Halt) : State :=
  { s with ctxs := s.ctxs.adjust ctx (fun c => { c with halt := c.halt.map f }) }

/-- The REASON of a fault's halt: BREAK for the supervisor, a double fault where the group's traps are masked or the context has no handler,
or the handler (R135, R142). -/
def State.faultReason (s : State) (x : Group) (t : Trap) : Nat :=
  if t.cause = 10 ∧ t.sub = 0 ∧ (s.ctx x.ctx).d then 6 else if x.m ∨ (s.ctx x.ctx).entry = 0 then 5 else 0

/-- A fault of a group, raised. While the context is already coming to rest, or another group is in its handler, the fault is kept pending in
the group (R122); of faults on one clock the one from the lowest place is taken, and the other stays pending (R135). -/
def State.fault (s : State) (g : Nat) (t : Trap) (lanes : List Nat) (incomplete : Bool) : State :=
  let x := s.group g
  if s.runs x.ctx g then s.raiseHalt x.ctx (s.faultReason x t) g t lanes incomplete (x.fibre t.lane).pc
  else match s.sameClock x.ctx g with
    | some h =>
      if (h.reason = 0 ∨ h.reason = 5 ∨ h.reason = 6) ∧ (s.groups.find? h.group).isSome ∧ x.place < (s.group h.group).place then
        (s.updHalt x.ctx (fun h => { h with
          reason := s.faultReason x t, group := g, trap := t, lanes := lanes, incomplete := incomplete, epc := (x.fibre t.lane).pc })).keep h.group h.trap h.lanes
      else s.keep g t lanes
    | none => s.keep g t lanes

/-- A precise fault of the instruction in execution: it takes effect in no fibre (R135). Its WARN bits stand (R63). -/
def State.precise (s : State) (cause sub info eng : Nat) (lanes : List Nat) (val : W64) : State :=
  s.fault s.cur.g ⟨cause, sub, info, firstLane lanes, eng, s.cur.words, val, false⟩ s.cur.lanes true

/-- The fault of a walk that read poison (R206); the field code is that of the address. -/
def State.walkPoison (s : State) (eng field lane : Nat) (va : W64) : State := (s.reportWalk s.here.ctx s.here.core va).precise 8 1 field eng [lane] va

/-- A deferred fault charged to a group (R135). Where the group has no live fibre any more it escalates as a double fault of its context, at once
or as a halt of the context in progress is released. -/
def State.deferred (s : State) (ctx g cause sub info eng lane : Nat) (val : W64) : State :=
  let t : Trap := ⟨cause, sub, info, lane, eng, 0, val, true⟩
  if (s.group g).fibres.isEmpty then
    if (s.ctx ctx).halt.isNone then s.raiseHalt ctx 5 g t [] false 0
    else { s with ctxs := s.ctxs.adjust ctx (fun c => { c with pend := c.pend ++ [(g, t)] }) }
  else s.fault g t (s.group g).live false

/-- The faults kept pending in a group, the first of which is raised as the group next issues (R122, R135); one of cause 0 is a HALT that
issued while another halt was on its way, and VAL its resume address (R145). -/
def State.raisePending (s : State) (g : Nat) : State :=
  match (s.group g).pend with
  | (t, lanes) :: rest =>
    let s := s.updGroup g (fun x => { x with pend := rest })
    if t.cause = 0 then s.raiseHalt (s.group g).ctx 3 g Trap.none lanes false t.val
    else s.fault g t lanes (!t.deferred && !(t.cause == 10 && t.sub == 1))
  | [] => s

-- ## Error rings (R373, R374)

/-- An event reported to the ring of its owner, or to the supervisor ring where the VF is not up, with VUES and the error interrupt
(R373, R374). -/
def State.report (s : State) (vf type : Nat) (addr : W64) (place : W32) : State :=
  let v := s.vf vf
  if !v.alive then s.reportSupervisor type vf (severityOf type) addr place
  else
    let r := v.ring.add ⟨type, vf, severityOf type, 1, addr, s.ticks, place⟩
    let bit := vuesBit type
    let vovf := if r.2 && v.vovf != 0xFFFFFFFF#32 then v.vovf + 1 else v.vovf
    let s := { s with vfs := s.vfs.adjust vf (fun v => { v with ring := r.1, vovf := vovf, vues := v.vues ||| bit }) }
    if bit &&& ~~~v.vmask = 0 then s else { s with sent := s.sent ++ [.interrupt vf] }

-- ## The stop area and the handler (R125 to R138)

/-- CAUSE as a register (R131). -/
def Trap.causeWord (t : Trap) (dbl : Bool) : W32 := BitVec.ofNat 32 (t.cause + (if t.deferred then 64 else 0) + (if dbl then 128 else 0))
/-- DET0 (R132). -/
def Trap.det0 (t : Trap) : W32 := BitVec.ofNat 32 (t.info % 2 ^ 14 + t.wc * 2 ^ 14 + t.eng * 2 ^ 16 + t.lane * 2 ^ 19 + t.sub * 2 ^ 24)

/-- The group of a context that is lowest in (die, core, track, group slot) order (R127). -/
def State.lowestGroup (s : State) (ctx : Nat) : Option Group :=
  (s.groups.vals.filter (fun x => x.ctx == ctx)).foldl (fun m x => match m with | none => some x | some y => if x.place < y.place then some x else some y) none

/-- The resume address of the lowest live lane of that group (R127). -/
def State.lowestEpc (s : State) (ctx : Nat) : W64 :=
  match s.lowestGroup ctx with | some x => (x.fibre (firstLane x.live)).pc | none => 0

/-- WHERE of a group (R127). -/
def Group.whereWord (x : Group) : Nat :=
  dieOf x.core + (x.core % Config.coresPerDie) * 2 ^ 8 + x.track * 2 ^ 16 + x.slot * 2 ^ 24 + (x.grp % 2 ^ 16) * 2 ^ 32 + (x.team % 2 ^ 16) * 2 ^ 48

/-- The bytes of the stop area header from NREC on, and SEQ (R127). -/
def State.header (s : State) (ctx : Nat) (h : Halt) : List Byte × List Byte :=
  let c := s.ctx ctx
  let x := s.group h.group
  let place := match h.reason with | 1 => 0 | 2 => 0 | _ => x.whereWord
  let epc := match h.reason with
    | 1 => s.lowestEpc ctx | 2 => s.lowestEpc ctx | 3 => h.epc
    | 0 => (x.fibre h.trap.lane).epc | _ => (x.fibre h.trap.lane).pc
  let cause := match h.reason with
    | 1 => 12#32 | 2 => 0#32 | 3 => 0#32 | r => h.trap.causeWord (r == 5)
  let det := match h.reason with
    | 1 => bytesOf 12 0 | 2 => bytesOf 12 0 | 3 => bytesOf 12 0
    | _ => bytesOf 4 h.trap.det0.toNat ++ bytesOf 8 h.trap.val.toNat
  (bytesOf 4 c.nrec ++ bytesOf 4 c.lost ++ bytesOf 4 (h.reason + (if h.running.isSome then 2 ^ 31 else 0)) ++ bytesOf 8 place ++ bytesOf 8 epc.toNat
      ++ bytesOf 4 cause.toNat ++ det ++ bytesOf 16 0,
    bytesOf 4 (c.seq.toNat + 1))

/-- The header written: its fields, then SEQ with release semantics (R127). -/
def State.writeHeader (s : State) (ctx : Nat) (h : Halt) : State :=
  let (rest, seq) := s.header ctx h
  let base := (s.ctx ctx).stopBase
  let s := s.deviceWrite ctx (base + 4) rest
  let s := s.deviceWrite ctx base seq
  { s with ctxs := s.ctxs.adjust ctx (fun c => { c with seq := c.seq + 1 }) }

/-- The state of one fibre as its group enters the handler (R136). -/
def Fibre.enter (b : Fibre) (save : W64) (entry : BitVec 62) (faulted : Bool) : Fibre :=
  { b with epc := b.pc, fcw := b.cw, tsc0 := b.kReg 14, tsc1 := b.kReg 15,
           k := (b.k.put 14 ⟨save, false, false⟩).put 15 ⟨0, false, false⟩,
           cw := { b.cw with ja := false }, pc := entry ++ 0#2, faulted := faulted, wait := .free, junctionWords := 0,
           savedWait := b.wait, savedJunction := b.junctionSince, savedWords := b.junctionWords }

/-- The links of a fibre's k registers moved to other numbers: TSC0 and TSC1 stand at 16 and 17, so that a kept tag keeps its link. -/
def State.moveLinks (s : State) (g uid : Nat) (f : Nat → Nat) : State :=
  s.updCore (s.group g).core (fun c => { c with tickets := c.tickets.mapVals (fun _ t =>
    { t with holders := t.holders.map (fun h => if h.of g uid ∧ h.reg.file = .k then { h with reg := ⟨.k, f h.reg.idx⟩ } else h) }) })

/-- The groups of a halted context, but one, on neither set of their tracks (R100). -/
def State.parkGroups (s : State) (ctx : Nat) (but : Option Nat) : State :=
  { s with groups := s.groups.mapVals (fun g x => if x.ctx = ctx ∧ but ≠ some g then { x with set := .neither } else x) }

/-- The groups of a context that were on neither set back in the lay-by, their age counters at 0 (R29, R100). -/
def State.unparkGroups (s : State) (ctx : Nat) : State :=
  { s with groups := s.groups.mapVals (fun _ x => if x.ctx = ctx ∧ x.set = .neither then { x with set := .layby, entered := s.clocks, ages := [], aged := [] } else x) }

/-- TAKING A TRAP: the entry of a group into its handler (R136), after every engine has come to rest. The group keeps its set, its age counters and its
place in the order of admission, as one that runs on (log entry 105). -/
def State.enterHandler (s : State) (ctx : Nat) (h : Halt) : State :=
  let s := (s.shiftTimes ctx).undoHeld h.group
  let c := s.ctx ctx
  let x := s.group h.group
  let s := x.live.foldl (fun t l => (t.releaseHolders h.group (x.fibre l).uid [⟨.k, 16⟩, ⟨.k, 17⟩] true).moveLinks h.group (x.fibre l).uid
    (fun i => if i = 14 then 16 else if i = 15 then 17 else i)) s
  let s := s.mapLanes h.group x.live (fun l b =>
    b.enter (c.stopBase + BitVec.ofNat 64 (0x800 + 64 * l)) c.entry (h.incomplete && has h.lanes l))
  let s := s.updGroup h.group (fun x =>
    { x with cause := h.trap.causeWord false, det0 := h.trap.det0, det1 := h.trap.val.setWidth 32, det2 := (h.trap.val >>> 32).setWidth 32,
             h := true, m := true, arrivals := [], savedArrivals := if x.h then x.savedArrivals else x.arrivals,
             pend := [], savedPend := x.savedPend ++ x.pend })
  let s := (s.writeHeader ctx h).parkGroups ctx (some h.group)
  { s with ctxs := s.ctxs.adjust ctx (fun c => { c with halt := some { h with phase := .handler h.group, mark := s.ids, stood := some (s.clocks, h.group) } }) }

/-- The state of one fibre as its group leaves the handler (R144): a fibre whose resume address is unchanged goes on waiting for what it
waited for. -/
def Fibre.leave (b : Fibre) : Fibre :=
  { b with cw := b.fcw, pc := b.epc, k := (b.k.put 14 b.tsc0).put 15 b.tsc1, wait := b.savedWait, junctionSince := b.savedJunction,
           junctionWords := b.savedWords, savedWait := .free }

/-- Whether a group of the context has its traps masked (R139). -/
def State.anyMasked (s : State) (ctx : Nat) : Bool := s.groups.vals.any (fun x => x.ctx == ctx && x.m)

/-- A latched pre-emption request taken, where no group is masked any more and no halt is on its way (R139). -/
def State.serveLatched (s : State) (ctx : Nat) : State :=
  if (s.ctx ctx).pl.isSome ∧ !s.anyMasked ctx ∧ s.canHalt ctx then s.raiseHalt ctx 1 0 Trap.none [] false 0 else s

/-- The fibres of some lanes ended: X = 0, their elements releasing their tickets (R78). -/
def State.quitLanes (s : State) (g : Nat) (lanes : List Nat) : State :=
  let x := s.group g
  let s := lanes.foldl (fun t l => t.releaseFibre g (x.fibre l).uid) s
  s.updGroup g (fun x => { x with fibres := x.fibres.keep (fun l _ => !has lanes l), arrivals := x.arrivals.filter (fun l => !has lanes l), savedArrivals := x.savedArrivals.filter (fun l => !has lanes l) })

/-- A deferred fault of an ended group that was kept while its context was halted escalates as a double fault (R135). -/
def State.raiseEnded (s : State) (ctx : Nat) : State :=
  match (s.ctx ctx).pend with
  | (g, t) :: rest =>
    if (s.ctx ctx).halt.isSome then s
    else ({ s with ctxs := s.ctxs.adjust ctx (fun c => { c with pend := rest }) } : State).raiseHalt ctx 5 g t [] false 0
  | [] => s

/-- The halt of a context released: every group and engine resumes, unless a latched request or a fault kept in the context is taken before
any issue (R124, R139, R144). A core that the halt line had reached is reached at once by the next. -/
def State.releaseHalt (s : State) (ctx : Nat) : State :=
  let cores := match (s.ctx ctx).halt with | some h => h.reached.map (fun p => (p.1, s.clocks)) | none => []
  let s := s.unparkGroups ctx
  let s := { s with ctxs := s.ctxs.adjust ctx (fun c => { c with halt := none }) }
  let s := (s.serveLatched ctx).raiseEnded ctx
  s.updHalt ctx (fun h => { h with reached := cores })

/-- The halt of a group's handler ended as the group returns: released, or where another halt of the context is on its way already, that one goes on with
no group in a handler (R120, R144, log entry 106). -/
def State.endHandler (s : State) (ctx g : Nat) : State :=
  match (s.ctx ctx).halt with
  | some h => if h.phase = .stopping then s.updHalt ctx (fun h => { h with running := none, stood := some (s.clocks, g) }) else s.releaseHalt ctx
  | none => s

/-- RETURNING FROM A TRAP: every live fibre of the group is restored, and the halt is released (R144). -/
def State.leaveHandler (s : State) (g : Nat) : State :=
  let ctx := (s.group g).ctx
  let s := s.shiftTimes ctx
  let x := s.group g
  let s := x.live.foldl (fun t l => (t.releaseHolders g (x.fibre l).uid [⟨.k, 14⟩, ⟨.k, 15⟩] true).moveLinks g (x.fibre l).uid
    (fun i => if i = 16 then 14 else if i = 17 then 15 else i)) s
  let s := s.mapLanes g x.live (fun _ b => b.leave)
  let s := s.updGroup g (fun x => { x with h := false, m := false, arrivals := x.savedArrivals, savedArrivals := [], pend := x.savedPend ++ x.pend, savedPend := [] })
  let s := s.quitLanes g (x.live.filter (fun l => !(x.fibre l).fcw.x))
  s.endHandler ctx g

end Sys2Proof.Machine
end

