-- ==== Sys2Proof/Machine/Operands.lean ====
section
/-! DEFINITION. Operands and modifiers: the fallbacks of R64, sources and immediates, masks, last-use, control operands under R68 and R69,
and the common execution of R83 and R155. -/

namespace Sys2Proof.Machine

/-- The WARN bits of the fallbacks (R65). -/
def warnOpx : W32 := 1
/-- See R65. -/
def warnRm : W32 := 2
/-- See R65. -/
def warnSat : W32 := 4
/-- See R65. -/
def warnLu : W32 := 8
/-- See R65. -/
def warnImx : W32 := 16
/-- See R65. -/
def warnImm : W32 := 32
/-- See R65. -/
def warnDivz : W32 := 64
/-- See R65. -/
def warnSparse : W32 := 128
/-- See R65. -/
def warnPol : W32 := 256

/-- A WARN bit where a condition holds. -/
def warnIf (c : Bool) (w : W32) : W32 := if c then w else 0

/-- The modifiers that take effect, after the fallbacks (R64). -/
structure Eff where
  mask : Nat
  mz : Bool
  rm : Nat
  sat : Bool
  /-- The operand positions whose last-use bit takes effect, as registers read (R54). -/
  last : List Operand
  deriving DecidableEq, Repr

/-- Whether the instruction has a register destination other than z (R64). -/
def hasDest (i : Instr) : Bool := i.operands.any (fun o => o.write && o.field == 3 && (o.cls == .w || o.code != 120))

/-- The operand in a position, where it is read as a v, k or w register (R53, R64). -/
def luOperand (i : Instr) (pos : Nat) : Option Operand :=
  i.operands.find? (fun o => o.pos == some pos && o.read && (o.cls == .w || decide (o.code < 112)))

/-- One bit of a three-bit field that stands for positions a, b and c, a on top (R52). -/
def posBit (x : BitVec 3) (pos : Nat) : Bool := x.getLsbD (2 - pos)

/-- The last-use and reuse bits of one position: the fallback and the register to be freed (R54, R64). -/
def lastUse (i : Instr) (o : Opx) (pos : Nat) : W32 × List Operand :=
  if !posBit o.last pos && !posBit o.reuse pos then (0, [])
  else
    match (if i.accepts.lu then luOperand i pos else none) with
    | none => (warnLu, [])
    | some r => (warnIf (posBit o.last pos && posBit o.reuse pos) warnLu, if posBit o.last pos then [r] else [])

/-- The instructions of R353, before which an mz is ignored with WARN.OPX whatever their d and their mask (log entry 109). -/
def Instr.noMz (i : Instr) : Bool :=
  match i with
  | .coll .. | .csigAdd .. | .csigSet .. | .cwaitRec .. | .cwaitGe .. | .step .. | .rpost .. => true
  | _ => false

/-- The fallbacks of an instruction (R64): the WARN bits they set and the modifiers that take effect. An OPX before an instruction that accepts none
is ignored in full and sets OPX alone (log entry 108). -/
def fallback (i : Instr) : W32 × Eff :=
  let a := i.accepts
  let imx := warnIf (i.mods.imx.isSome && !a.imx) warnImx
  match i.mods.opx with
  | none => (imx, ⟨0, false, 0, false, []⟩)
  | some o =>
    if !a.opx then (imx ||| warnOpx, ⟨0, false, 0, false, []⟩)
    else
      let la := lastUse i o 0
      let lb := lastUse i o 1
      let lc := lastUse i o 2
      let mz := o.mz == 1#1
      (imx ||| warnIf ((o.c != 0 && !a.c) || (o.mask != 0 && !a.mask) || (mz && (!hasDest i || Instr.noMz i))) warnOpx
          ||| warnIf (o.rm != 0 && !a.rm) warnRm ||| warnIf (o.sat == 1#1 && !a.sat) warnSat ||| la.1 ||| lb.1 ||| lc.1,
        ⟨if a.mask then o.mask.toNat else 0, mz && a.mask && hasDest i, if a.rm then o.rm.toNat else 0, o.sat == 1#1 && a.sat, la.2 ++ lb.2 ++ lc.2⟩)

-- ## Immediates (R49, R50)

/-- The immediate that replaces b (R49): the sign-extended IMX ∥ b, as 64 bits. -/
def immOf (x : BitVec 24) (b : BitVec 7) : Nat := ((x ++ b).signExtend 64).toNat

/-- The immediate of the RI layout (R49), as 64 bits. -/
def riImm (m : Mods) (i : BitVec 7) : BitVec 64 :=
  match m.imx with | some x => (x ++ i).signExtend 64 | none => i.signExtend 64

/-- The byte offset of the M and MF layouts, scaled (R49, R51). -/
def offImm (m : Mods) (o : BitVec 5) (scale : Nat) : W64 :=
  (match m.imx with | some x => (x ++ o).signExtend 64 | none => o.signExtend 64) * BitVec.ofNat 64 scale

/-- A source of an instruction. -/
inductive Src where
  | none
  /-- A register code; a v code names so many registers. -/
  | reg (code rows : Nat)
  /-- An accumulator register. -/
  | acc (idx : Nat)
  /-- An immediate. -/
  | imm (bits : Nat)
  deriving DecidableEq, Repr

/-- The value of a source in one fibre. -/
def State.src (s : State) (x : Group) (lane : Nat) (b : Fibre) : Src → Val
  | .none => Val.zero
  | .reg c r => s.readCode x lane b c r
  | .acc i => ⟨(b.wReg i).val.toNat, (b.wReg i).g, (b.wReg i).p⟩
  | .imm n => Val.of n

/-- A source register. -/
def srcR (a : BitVec 7) (rows : Nat) : Src := .reg a.toNat rows
/-- A b source: its register, or the immediate (R49). -/
def srcB' (m : Mods) (b : BitVec 7) (rows : Nat) : Src :=
  match m.imx with | some x => .imm (immOf x b) | none => .reg b.toNat rows
/-- The fourth source: OPX c, or d (R53). -/
def srcC' (m : Mods) (d : BitVec 7) (rows : Nat) : Src :=
  match m.opx with | some o => .reg o.c.toNat rows | none => .reg d.toNat rows

-- ## Masks and lanes

/-- The mask predicate of a fibre: its value and tags; 1 with clear tags when there is no mask (R53). -/
def Fibre.maskBit (b : Fibre) (mask : Nat) : Val := if mask = 0 then ⟨1, false, false⟩ else b.qBit mask

/-- Whether a fibre is active: not masked off (R53). -/
def Fibre.active (b : Fibre) (mask : Nat) : Bool := (b.maskBit mask).bits == 1

/-- The active lanes of the issue set (R185). -/
def activeLanes (s : State) (e : Eff) : List Nat := s.cur.lanes.filter (fun l => (s.here.fibre l).active e.mask)

/-- The registers that an operand names in a fibre. -/
def operandRegs (o : Operand) (b : Fibre) : List Reg := if o.cls = .w then [⟨.w, o.code⟩] else codeRegs b o.code o.rows

/-- The sources with a last-use bit freed in every fibre of the issue set, but for registers that the instruction writes (R54). `old` is
the group as the sources were read. -/
def State.freeLast (s : State) (old : Group) (e : Eff) (written : Fibre → List Reg) : State :=
  if e.last.isEmpty then s
  else
    let regs := fun (b : Fibre) => (e.last.flatMap (fun o => operandRegs o b)).filter (fun r => !hasReg (written b) r)
    let s := s.cur.lanes.foldl (fun t l => t.releaseHolders s.cur.g (old.fibre l).uid (regs (old.fibre l)) true) s
    s.mapLanes s.cur.g s.cur.lanes (fun l b => (regs (old.fibre l)).foldl Fibre.freeReg b)

/-- The end of every completing instruction: last uses, the PCs, the guess-miss bits (R54, R28, R232). -/
def State.complete (s : State) (old : Group) (e : Eff) (written : Fibre → List Reg) : State :=
  ((s.freeLast old e written).advance s.cur.lanes).settleGm s.cur.g

-- ## Control operands (R68, R69)

/-- A control operand of one fibre: its field code, its value and the registers that hold it. -/
structure Ctl where
  field : Nat
  val : Val
  regs : List Reg
  deriving DecidableEq, Repr

/-- A k register as a control operand. -/
def ctlK (b : Fibre) (field : Nat) (c : Nat) : Ctl := ⟨field, ⟨(b.kReg (c - 96)).val.toNat, (b.kReg (c - 96)).g, (b.kReg (c - 96)).p⟩, [⟨.k, c - 96⟩]⟩
/-- A predicate as a control operand. -/
def ctlQ (b : Fibre) (field : Nat) (q : Nat) : Ctl := ⟨field, b.qBit q, [⟨.q, q⟩]⟩
/-- A mask predicate as a control operand. -/
def ctlMask (b : Fibre) (mask : Nat) : List Ctl := if mask = 0 then [] else [ctlQ b 4 mask]

/-- The state with the issue set narrowed to some lanes; the others stay where they are (R69). -/
def State.narrow (s : State) (lanes : List Nat) : State := { s with cur := { s.cur with lanes := lanes } }

/-- The field code of the first control operand that satisfies a condition, in the lowest lane that has one. -/
def ctlField (ops : List (List Ctl)) (bad : Ctl → Bool) : Nat :=
  match (ops.flatMap (fun l => l.filter bad)) with | c :: _ => c.field | [] => 0

/-- The control operands of an issue set checked (R68, R69), before `go` executes the instruction for the lanes that act. A poisoned
operand raises HWERR with SUB 0. A fibre with a guessed one leaves the issue set and waits for its tickets, or, where no other fibre is
left, is examined: GUESS with SUB 3 where its guess-miss bit is set, and otherwise G is cleared on the operand. -/
def State.control (s : State) (eng : Nat) (ops : Group → Nat → Fibre → List Ctl) (go : State → State) : State :=
  let x := s.here
  let at' := fun l => ops x l (x.fibre l)
  let poisoned := s.cur.lanes.filter (fun l => (at' l).any (fun c => c.val.p))
  let guessed := s.cur.lanes.filter (fun l => (at' l).any (fun c => c.val.g))
  let clean := s.cur.lanes.filter (fun l => !(at' l).any (fun c => c.val.g))
  if !poisoned.isEmpty then s.precise 8 0 (ctlField (poisoned.map at') (fun c => c.val.p)) eng poisoned 0
  else if guessed.isEmpty then go s
  else if !clean.isEmpty then go ((s.wait guessed .tickets).narrow clean)
  else
    let known := guessed.filter (fun l => (s.core x.core).truthful s.cur.g (x.fibre l).uid)
    let unknown := guessed.filter (fun l => !(s.core x.core).truthful s.cur.g (x.fibre l).uid)
    let missed := known.filter (fun l => (x.fibre l).gm)
    if known.isEmpty then s.wait guessed .tickets
    else
      let s := (s.wait unknown .tickets).narrow known
      if !missed.isEmpty then s.precise 3 3 (ctlField (missed.map at') (fun c => c.val.g)) eng missed (BitVec.ofNat 64 (maskOf missed))
      else
        let regs := fun l => ((at' l).filter (fun c => c.val.g)).flatMap Ctl.regs
        let s := known.foldl (fun t l => t.releaseHolders s.cur.g (x.fibre l).uid (regs l) false) s
        let s := s.mapLanes s.cur.g known (fun l b => (regs l).foldl Fibre.clearG b)
        go s

-- ## The common execution (R83, R155, R185)

/-- What one active lane reads. -/
structure Env where
  lane : Nat
  a : Val
  b : Val
  c : Val
  d : Val
  /-- The value of the predicate that fn selects (R87, R161). -/
  q : Val
  rm : Nat
  sat : Bool
  /-- The draws of this lane, the second for the high half of a packed element (R150). -/
  rand0 : Nat
  rand1 : Nat
  deriving DecidableEq, Repr

/-- What one active lane gives: a value with its tags, the exceptions raised as the flags [14:10] of FPMODE, and whether a divisor was 0. -/
structure Out where
  val : Val
  flags : Nat
  divz : Bool
  deriving DecidableEq, Repr

/-- A result whose tags are those of the sources ORed (R83, R155). -/
def Out.of (bits flags : Nat) (srcs : List Val) : Out := ⟨⟨bits, srcs.any Val.g, srcs.any Val.p⟩, flags, false⟩

/-- An instruction of the common execution. `op` gives the result of one lane from what every active lane reads. -/
structure Alu where
  ins : Instr
  dst : Dst
  a : Src
  b : Src
  c : Src
  /-- The predicate that fn selects. -/
  q : Option Nat
  /-- The reporting engine of a floating-point trap, and the register code of a (R153). -/
  eng : Nat
  fp : Bool
  sfu : Bool
  /-- The result is written at issue and nothing is left pending (the scalar family). -/
  now : Bool
  /-- WARN bits of the immediate (R50). -/
  warn : W32
  op : List Env → Env → Out

/-- The rounding mode in force: rm 6 takes FPMODE.RM (R53, R150, R154). -/
def Group.rounding (x : Group) (rm : Nat) : Nat := if rm = 6 then (x.fpmode.toNat % 8) else rm

/-- What a lane reads. -/
def State.env (s : State) (x : Group) (z : Alu) (e : Eff) (lane : Nat) : Env :=
  let b := x.fibre lane
  ⟨lane, s.src x lane b z.a, s.src x lane b z.b, s.src x lane b z.c, z.dst.read b, match z.q with | some q => b.qBit q | none => Val.zero,
    x.rounding e.rm, e.sat, (Config.rand (s.free + 2 * lane)).toNat, (Config.rand (s.free + 2 * lane + 1)).toNat⟩

/-- One fibre of the issue set after the common execution (R155). -/
def aluFibre (z : Alu) (e : Eff) (envs : List Env) (b : Fibre) (env : Env) : Fibre :=
  let m := b.maskBit e.mask
  if m.bits = 1 then
    let o := (z.op envs env).val
    z.dst.write b ⟨o.bits, o.g || m.g, o.p || m.p⟩
  else if e.mz then z.dst.write b ⟨0, m.g, m.p⟩
  else (z.dst.regs b).foldl (fun b r => b.tagReg r m.g m.p) b

/-- The exceptions that trap, lowest first: NV 1, DZ 2, OF 3, UF 4, as (number, flag bit of FPMODE, enable bit) (R153, R154). -/
def trapBits : List (Nat × Nat × Nat) := [(1, 14, 7), (2, 13, 6), (3, 12, 5), (4, 11, 4)]

/-- The exception of R153 that traps: its number and the lanes that raised it with clean results. -/
def fpTrap (fpmode : W32) (outs : List (Nat × Out × Bool)) : Option (Nat × List Nat) :=
  firstSome (trapBits.map (fun t =>
    let lanes := (outs.filter (fun o => o.2.2 && bitAt o.2.1.flags t.2.1)).map Prod.fst
    if fpmode.getLsbD t.2.2 && !lanes.isEmpty then some (t.1, lanes) else none))

/-- A result made pending, or its flags set at once where nothing is interlocked (R16, R156). -/
def State.pending (s : State) (z : Alu) (old : Group) (lanes : List Nat) (flags : W32) (trap : Option (Trap × List Nat)) : State :=
  let locks := lanes.flatMap (fun l => (z.dst.regs (old.fibre l)).map (fun r => (l, (old.fibre l).uid, r)))
  let s := s.mapLanes s.cur.g lanes (fun _ b => { b with locks := b.locks ++ (z.dst.regs b).map (fun r => ⟨r, false, s.clocks⟩) })
  let s := s.updCore old.core (fun c => { c with results := c.results.put s.ids ⟨s.cur.g, old.ctx, z.sfu, locks, flags, trap⟩ })
  { s with ids := s.ids + 1 }

/-- The bits [14:10] of FPMODE that lanes raise. -/
def flagWord (outs : List (Nat × Out × Bool)) : W32 := BitVec.ofNat 32 ((outs.map (fun o => o.2.1.flags)).foldl Nat.lor 0)

/-- THE COMMON EXECUTION of the scalar family (R83), the vector instructions (R155), the SFU, the accumulators and the cross-lane network
(R173, R178, R185): fallbacks first (R63), then the result of every active lane, masks, exceptions (R153), last uses and the PCs. -/
def State.alu (s : State) (z : Alu) : State :=
  let fb := fallback z.ins
  let e := fb.2
  let s := s.warn (fb.1 ||| z.warn)
  let x := s.here
  let act := activeLanes s e
  let env := s.env x z e
  let envs := act.map env
  let outs := envs.map (fun v => let o := z.op envs v
    let m := (x.fibre v.lane).maskBit e.mask
    (v.lane, o, !(o.val.g || m.g) && !(o.val.p || m.p)))
  let s := s.warn (warnIf (outs.any (fun o => o.2.1.divz)) warnDivz)
  let s := if z.fp then { s with free := s.free + 64 } else s
  match (if z.fp then fpTrap x.fpmode outs else none) with
  | some (n, lanes) =>
    let t : Trap := ⟨2, n, match z.a with | .reg c _ => c | .acc i => i | _ => 0, firstLane lanes, z.eng, s.cur.words, BitVec.ofNat 64 (maskOf lanes), false⟩
    if z.sfu && s.cur.lanes.any (fun l => !(z.dst.regs (x.fibre l)).isEmpty) then s.pending z x s.cur.lanes 0 (some (t, s.cur.lanes)) else s.fault s.cur.g t s.cur.lanes true
  | none =>
    let s := s.cur.lanes.foldl (fun t l => if (x.fibre l).active e.mask || e.mz then t.releaseHolders s.cur.g (x.fibre l).uid (z.dst.regs (x.fibre l)) true else t) s
    let t := s.mapLanes s.cur.g s.cur.lanes (fun l b => aluFibre z e envs b (env l))
    let t := if z.now then t else t.pending z x s.cur.lanes (flagWord outs) none
    t.complete x e z.dst.regs

end Sys2Proof.Machine
end

