-- ==== Sys2Proof/Machine/Barriers.lean ====
section
/-! DEFINITION. What a release waits for and what an acquire does at the L1, and the phases of the three barriers (R113 to R117, R238, R253,
R257, R270, R276). -/

namespace Sys2Proof.Machine

/-- The level of a scope field (R48, R241): 1 `.grp`, 2 `.team` and `.die`, 3 `.pkg`, 4 `.sys`. -/
def scopeLevel (scope : Nat) : Nat := match scope with | 0 => 1 | 1 => 2 | 2 => 2 | 3 => 3 | _ => 4

/-- The level at which an arrival of a barrier releases (R113, R114). -/
def Bar.level : Bar → Nat | .group => 1 | .team => 2 | .grid => 3

/-- Whether a load has its value in a lane, or a ticket that keeps it (R238). -/
def LaneLoad.done (l : LaneLoad) : Bool := l.state != .waiting

/-- Whether bytes overlap a range, modulo 2^64. -/
def overlap (a : W64) (n : Nat) (b : W64) (k : Nat) : Bool := decide (n ≠ 0 ∧ k ≠ 0) && (decide ((a - b).toNat < k) || decide ((b - a).toNat < n))

/-- Whether an access is one that a fence orders: every one, or those whose bytes overlap the range of an RFENCE (R258). -/
def inRange (r : Option (W64 × Nat)) (scratch : Bool) (va : W64) (n : Nat) : Bool :=
  match r with | none => true | some (b, k) => !scratch && overlap va n b k

/-- The virtual address of the scale byte that a lane of an LDX reads beside its word (R295). -/
def LaneLoad.scaleVa (e : LaneLoad) (a : Nat) : W64 := e.va + (BitVec.ofNat 64 a - BitVec.ofNat 64 (e.pa.getD 0))

/-- Whether a fence orders a lane of a load: its bytes or its scale byte overlap the range (R258, R295). -/
def LaneLoad.inRange (e : LaneLoad) (r : Option (W64 × Nat)) (scratch : Bool) (bytes : Nat) : Bool :=
  Sys2Proof.Machine.inRange r scratch e.va bytes || match e.scale with | some a => Sys2Proof.Machine.inRange r scratch (e.scaleVa a) 1 | none => false

/-- Whether every load of a fibre before a number has its value, or a ticket for it. -/
def Core.loadsDone (c : Core) (g uid upto : Nat) (r : Option (W64 × Nat)) : Bool :=
  c.loads.vals.all (fun l => !(l.g == g && decide (l.seq < upto)) ||
    l.lanes.vals.all (fun e => e.uid != uid || e.done || !e.inRange r l.scratch l.bytes))

/-- Whether every value-returning atomic of a fibre before a number has its value. -/
def Core.atomicsDone (c : Core) (g uid upto : Nat) (r : Option (W64 × Nat)) : Bool :=
  c.atomics.vals.all (fun a => !(a.g == g && a.returns && decide (a.seq < upto)) ||
    a.lanes.vals.all (fun e => e.uid != uid || !inRange r false e.va a.bytes))

/-- Whether the stores and atomics that a release at a level orders are performed there: the fibre's own before a number and, beyond
`.grp`, every one the core had accepted by then (R255, R269, R276). -/
def Core.storesDone (c : Core) (g uid level upto : Nat) (r : Option (W64 × Nat)) : Bool :=
  c.stores.vals.all (fun t => !decide (t.seq < upto) || !inRange r t.scratch t.va t.data.length || !((t.g == g && t.uid == uid) || (decide (level > 1) && decide (t.level ≥ 1))) ||
    decide (t.level ≥ level) || (t.scratch && decide (t.level ≥ 1)))
  && c.atomics.vals.all (fun a => a.lanes.vals.all (fun e => !inRange r false e.va a.bytes ||
      if a.g == g && e.uid == uid && decide (a.seq < upto) then decide (level ≤ 1) && e.order.isSome
      else decide (level ≤ 1) || (match e.order with | some o => decide (o ≥ upto) | none => true)))

/-- Whether a release of a fibre at a level may take effect (R238, R255, R276). -/
def Core.released (c : Core) (g uid level upto : Nat) (r : Option (W64 × Nat)) : Bool :=
  c.truthful g uid && c.loadsDone g uid upto r && c.storesDone g uid level upto r

/-- Whether the stores that a release wider than `.die` orders beyond its own core are performed at its level: those of any core that an L2
already shows, since the releasing fibre may have read them (R276). -/
def State.shownDone (s : State) (level upto : Nat) (r : Option (W64 × Nat)) : Bool :=
  decide (level ≤ 2) || s.cores.vals.all (fun c => c.stores.vals.all (fun t =>
    !decide (t.seq < upto) || !inRange r t.scratch t.va t.data.length || decide (t.level < 2) || decide (t.level ≥ level)))

/-- Whether a release of a fibre on a core may take effect: see `Core.released` and `State.shownDone` (R276). -/
def State.releaseDone (s : State) (core g uid level upto : Nat) (r : Option (W64 × Nat)) : Bool :=
  (s.core core).released g uid level upto r && s.shownDone level upto r

/-- The L1 invalidated whole, fills in flight marked as not to be installed (R253, R257, R279). -/
def Core.flushL1 (c : Core) : Core :=
  { c with l1 := [], fills := c.fills.mapVals (fun _ f => { f with install := false }), invalidations := [] }

/-- The fills in flight to the L1 marked as not to be installed (R279). -/
def Core.markFills (c : Core) : Core := { c with fills := c.fills.mapVals (fun _ f => { f with install := false }) }

/-- Whether an acquire of a scope invalidates the L1: at `.die` and wider, and at `.team` for a team on more than one core (R253, R257). -/
def flushes (scope teamCores : Nat) : Bool := decide (scope ≥ 2 ∨ (scope = 1 ∧ teamCores > 1))

/-- What an acquire does at the L1 of its core (R253, R257, R270): at the wider scopes the L1 is invalidated. An invalidation is applied as it
reaches the core (R273), so that at every scope those that have reached it are applied already. -/
def State.acquireL1 (s : State) (core scope : Nat) (teamCores : Nat) : State :=
  if flushes scope teamCores then s.updCore core Core.flushL1 else s

/-- The team of a group. -/
def Team.none : Team := ⟨[], [], 0, []⟩
/-- See `Team.none`. -/
def State.teamOf (s : State) (x : Group) : Team := (s.grid x.grid).teams.get x.team Team.none
/-- The state with the team of a group changed. -/
def State.updTeam (s : State) (x : Group) (f : Team → Team) : State :=
  s.updGrid x.grid (fun r => { r with teams := r.teams.adjust x.team f })

/-- The group barrier's phase completed where every live fibre has arrived (R40, R115). -/
def State.checkGroup (s : State) (g : Nat) : State :=
  let x := s.group g
  if x.arrivals.isEmpty || !x.live.all (fun l => has x.arrivals l) then s
  else
    let s := s.mapLanes g x.arrivals (fun _ b => match b.wait with
      | .arrived .group w => { b with pc := b.pc + BitVec.ofNat 64 (4 * w), wait := .free }
      | _ => b)
    (s.updGroup g (fun x => { x with arrivals := [] })).acquireL1 x.core 0 1

/-- The team barrier's phase completed where every live fibre of the team has arrived in it, with the acquire of R114 on every core of the team
(R40, R116, R270). -/
def State.checkTeam (s : State) (g : Nat) : State :=
  let x := s.group g
  let t := s.teamOf x
  let fibres := t.groups.flatMap (fun h => (s.group h).fibres.vals)
  if fibres.isEmpty || (s.ctx x.ctx).halt.isSome || !fibres.all (fun b => b.lastPhase == some t.phase) then s
  else t.cores.foldl (fun u c => u.acquireL1 c 1 t.cores.length) (s.updTeam x (fun t => { t with phase := t.phase + 1 }))

/-- Whether a fibre waits at the milestone barrier. -/
def Fibre.atMilestone (b : Fibre) : Bool := match b.wait with | .arrived .grid _ => true | _ => false

/-- The groups of a grid. -/
def State.groupsOf (s : State) (grid : Nat) : List (Nat × Group) := s.groups.filter (fun p => p.2.grid == grid)

/-- Numbers in ascending order, each once. -/
def ascending (l : List Nat) : List Nat := ((l.map (fun n => (n, ()))).foldl (fun (m : Map Unit) p => m.put p.1 ()) []).keys

/-- The milestone phase completed where every live fibre of the grid has arrived: the release by on-ramp metering begins (R40, R117). -/
def State.checkGrid (s : State) (grid : Nat) : State :=
  let r := s.grid grid
  let gs := s.groupsOf grid
  let fibres := gs.flatMap (fun p => p.2.fibres.vals)
  if r.releasing.isSome || fibres.isEmpty || (s.ctx r.ctx).halt.isSome || !fibres.all Fibre.atMilestone then s
  else s.updGrid grid (fun r => { r with releasing := some (s.clocks, ascending ((gs.filter (fun p => !p.2.fibres.isEmpty)).map (fun p => p.2.core)), 0) })

/-- Every barrier that a change of a group's live fibres may complete (R40). -/
def State.checkBarriers (s : State) (g : Nat) : State := ((s.checkGroup g).checkTeam g).checkGrid (s.group g).grid

/-- Every barrier of a context that its return to running may complete (R40, R123). -/
def State.checkContext (s : State) (ctx : Nat) : State :=
  (s.groups.filter (fun p => p.2.ctx == ctx)).foldl (fun t p => t.checkBarriers p.1) s

/-- What a change of a group's live fibres may bring about: the return from its handler, where every live fibre has issued TRET (R144), and
the barriers (R40). A handler whose fibres have all quit does not return: its context stays halted (log entry 119). -/
def State.checkReturn (s : State) (g : Nat) : State :=
  let x := s.group g
  if x.h && !x.fibres.isEmpty && x.fibres.vals.all (fun b => b.wait == .handler) then (s.leaveHandler g).checkContext x.ctx
  else s.checkBarriers g

end Sys2Proof.Machine
end

