-- ==== Sys2Proof/Machine/Access.lean ====
section
/-! DEFINITION. What the accesses of the load-store engine share: translating the lanes of an instruction, the ranges of copies in flight,
what a read of a core finds, the order of one fibre's accesses, and the L1 of a core (R17, R200, R208, R213, R246, R265, R269, R336). -/

namespace Sys2Proof.Machine

/-- A store of nothing. -/
def Store.none : Store := ⟨0, 0, 0, 0, 0, false, 0, 0, [], false, 0, 0, false, false, 3, 0, true, false, false, 0, Option.none, 0⟩

/-- A store put into the load-store engine, not yet accepted. -/
def State.pushStore (s : State) (core : Nat) (t : Store) : State :=
  { s.updCore core (fun c => { c with stores := c.stores.put s.ids t }) with ids := s.ids + 1 }

-- ## The port of a core (R370, R371)

/-- The tokens of a request that carries so many bytes (R370). -/
def tokens (bytes : Nat) : Nat := Nat.max 1 ((bytes + 63) / 64)

/-- Whether a request that waited at a port is still to be served: what has ended, paused or stopped asks no more. -/
def State.asking (s : State) (core : Nat) (a : Ask) : Bool :=
  let c := s.core core
  match a.kind with
  | 0 => (match c.loads.find? a.id with
      | some l => (match l.lanes.find? a.lane with | some e => e.state != LaneState.landed && !e.onFill | none => false)
      | none => false)
  | 1 => (match c.fills.find? a.id with | some f => f.sent.isNone | none => false)
  | 2 => (c.stores.find? a.id).isSome
  | 3 => (match c.atomics.find? a.id with | some o => (o.lanes.find? a.lane).isSome | none => false)
  | 4 => (match c.copies.find? a.id with | some o => !o.ended && o.paused.isNone && !o.flip && s.copyRuns core o | none => false)
  | 5 => (match c.tileOps.find? a.id with | some o => s.opRuns o.ctx o.g o.seq core 3 false | none => false)
  | 6 => (match s.calls.find? a.id with | some q => q.core == core | none => false)
  | 7 => (match (s.group a.id).fibres.find? a.lane with | some b => (match b.wait with | .word .. => true | _ => false) | none => false)
  | 8 => s.runs (s.group a.id).ctx a.id && ((s.group a.id).fibres.vals.any (fun b => b.pc.toNat == a.lane && b.wait == .free && !b.cw.ja)
      || (s.group a.id).held.any (fun h => h.issue.pc.toNat == a.lane))
  | _ => s.runs (s.group a.id).ctx a.id && (match (s.group a.id).fibres.find? a.lane with | some b => (match b.wait with | .fill .. => true | _ => false) | none => false)

/-- The requests that wait at a core's port, oldest first (R370). -/
def State.wanted (s : State) (core : Nat) : List Wanted := (s.core core).waiting.filter (fun q => s.asking core q.ask)

/-- Whether a VF has a request that waits at a core's port (R370). -/
def State.waitsAt (s : State) (core vf : Nat) : Bool := (s.wanted core).any (fun q => q.vf == vf)

/-- Whether a core's port has room for so many tokens of a VF: its bucket holds them and the port has not carried 1,024 tokens' worth in the interval
(R370, R371). -/
def Core.affords (c : Core) (vf n : Nat) : Bool :=
  match c.buckets.find? vf with | some b => decide (n ≤ b.balance ∧ c.carried + n ≤ 1024) | none => false

/-- Whether a request goes out now: its VF's older requests have gone, there is room for it, and no VF that holds the tokens of its own oldest request has
waited longer (R370). A VF without a bucket has no group there. -/
def State.portTurn (s : State) (ctx core n : Nat) (a : Ask) : Bool :=
  let vf := (s.ctx ctx).vf
  let c := s.core core
  let older := (s.wanted core).takeWhile (fun q => q.ask != a)
  (c.buckets.find? vf).isNone || (c.affords vf n && older.all (fun q => q.vf != vf
    && !(((older.find? (fun r => r.vf == q.vf)) == some q) && c.affords q.vf q.tokens)))

/-- A request that goes out: its tokens are spent, and it waits no more (R370, R371). -/
def State.portTake (s : State) (ctx core n : Nat) (a : Ask) : State :=
  let vf := (s.ctx ctx).vf
  match (s.core core).buckets.find? vf with
  | none => s
  | some b => s.updCore core (fun c => { c with
      buckets := c.buckets.put vf ⟨b.balance - n, true⟩, carried := c.carried + n, waiting := (s.wanted core).filter (fun q => q.ask != a) })

/-- A request put behind those that wait at the port (R370). -/
def State.portQueue (s : State) (ctx core n : Nat) (a : Ask) : State :=
  if (s.wanted core).any (fun q => q.ask == a) then s
  else s.updCore core (fun c => { c with waiting := s.wanted core ++ [⟨(s.ctx ctx).vf, n, a⟩] })

/-- A request of so many tokens at a core's port: it goes out, or it waits in its place (R370, R371). -/
def State.port (s : State) (ctx core n : Nat) (a : Ask) : State × Bool :=
  if s.portTurn ctx core n a then (s.portTake ctx core n a, true) else (s.portQueue ctx core n a, false)

/-- The lines of the requests among some reads of 64 bytes or fewer that leave a core: those that its L1 does not hold, or may not (R200, R370). -/
def State.outside (s : State) (core : Nat) (pas : List (Nat × Nat × Page)) : List Nat :=
  (pas.filter (fun p => p.2.2.mtype == 2 || ((s.core core).l1.find? (lineOf p.2.1)).isNone)).map (fun p => lineOf p.2.1)

/-- Whether a line's fill in flight is the request of a context. -/
def Core.fillOf (c : Core) (ctx la : Nat) : Bool := match c.fills.find? la with | some f => f.ctx == ctx | none => false

/-- A core with nothing of a context left in flight; lanes of others that waited on its fills go their own way. -/
def Core.forget (c : Core) (ctx : Nat) (mine : Nat → Bool) : Core :=
  { c with
    tlb := c.tlb.filter (fun p => p.ctx != ctx),
    loads := (c.loads.keep (fun _ l => l.ctx != ctx)).mapVals (fun _ l => { l with lanes := l.lanes.mapVals (fun _ e =>
      if c.fillOf ctx (lineOf (e.pa.getD 0)) then { e with onFill := false } else e) }),
    stores := c.stores.keep (fun _ t => t.ctx != ctx),
    atomics := c.atomics.keep (fun _ a => a.ctx != ctx), tickets := c.tickets.keep (fun _ t => !mine t.g), fills := c.fills.keep (fun _ f => f.ctx != ctx),
    guesses := c.guesses.keep (fun _ q => q.ctx != ctx), scratch := c.scratch.del ctx, flagged := c.flagged.del ctx, imaged := c.imaged.del ctx,
    results := c.results.keep (fun _ r => r.ctx != ctx), tileOps := c.tileOps.keep (fun _ o => o.ctx != ctx),
    copies := c.copies.keep (fun _ o => o.ctx != ctx) }

/-- Whether a group is one of a context's. -/
def State.owns (s : State) (ctx g : Nat) : Bool := (s.group g).ctx == ctx && (s.groups.find? g).isSome

/-- The lines that the requests of a context in flight on a core are for. -/
def Core.tagged (c : Core) (ctx : Nat) : List Nat :=
  (c.loads.vals.flatMap (fun l => if l.ctx = ctx ∧ !l.scratch then (l.lanes.vals.filter (fun e => e.state != LaneState.landed)).map (fun e => lineOf (e.pa.getD 0)) else [])
    ++ (c.fills.keep (fun _ f => f.ctx == ctx)).keys
    ++ c.stores.vals.flatMap (fun t => if t.ctx = ctx ∧ !t.scratch then [lineOf t.pa] else [])
    ++ c.atomics.vals.flatMap (fun a => if a.ctx = ctx then a.lanes.vals.map (fun e => lineOf e.pa) else [])).foldl addOnce []

/-- Requests of a context on a core that bear the tag of a VF that is torn down reported to the supervisor ring (R375). -/
def State.reportDead (s : State) (ctx core : Nat) (lines : List Nat) : State :=
  lines.foldl (fun t la => t.reportSupervisor 7 (s.ctx ctx).vf (severityOf 7) (BitVec.ofNat 64 la) (eventPlace core ctx)) s

/-- A core drops what a context has in flight there: it bears the tag of a VF that is torn down. A request of which the line is not known is reported with
address 0 (R375, log entry 110). -/
def State.dropRequests (s : State) (ctx core : Nat) : State :=
  let lines := (s.core core).tagged ctx
  (s.reportDead ctx core (if lines.isEmpty then [0] else lines)).updCore core (fun c => c.forget ctx (s.owns ctx))

/-- Whether the VF of a context is up. -/
def State.vfUp (s : State) (ctx : Nat) : Bool := (s.vf (s.ctx ctx).vf).alive

/-- What follows where a request has gone out, or the state in which it waits. One that bears the tag of a VF that is torn down is dropped with what its
context has in flight on the core (R375). -/
def State.send (s : State) (ctx core n : Nat) (a : Ask) (go : State → State) : State :=
  if n = 0 then go s
  else if !s.vfUp ctx then s.dropRequests ctx core
  else
    let r := s.port ctx core n a
    if r.2 then go r.1 else r.1

/-- What follows where what an instruction reads as it issues has gone out; otherwise the instruction issues again (R370). -/
def State.throughPort (s : State) (ctx core n : Nat) (go : State → State) : State := s.send ctx core n ⟨8, s.cur.g, s.cur.pc.toNat⟩ go

-- ## Translating the lanes of an instruction (R208, R210)

/-- How the translations of a list of lanes end: the first lane that traps with its subcode, the first that meets poison, or the lanes that
wait for the supervisor; with no lane named, some walk or bias flip is not done. -/
inductive Reach where
  | ok (pas : List (Nat × Nat × Page))
  | trap (lane sub : Nat)
  | poisoned (lane : Nat)
  | replay (lanes : List Nat)

/-- The translation of one address with its range (R202), its alignment to `n` bytes (R210) and a check of the page. -/
def State.xlateAt (s : State) (ctx core : Nat) (kind : Kind) (n : Nat) (check : W64 → Page → Option Nat) (va : W64) : Xlate :=
  if va.toNat ≥ 2 ^ 48 then .trap 1
  else if va.toNat % n ≠ 0 then .trap 2
  else match s.xlate ctx core va kind with
    | .ok pa p => (match check va p with | some sub => .trap sub | none => .ok pa p)
    | r => r

/-- The lanes of an access translated and checked, ascending (R208): the lowest lane that faults gives the fault. -/
def State.reachWith (s : State) (ctx core : Nat) (kind : Kind) (n : Nat) (check : W64 → Page → Option Nat) (lanes : List (Nat × W64)) : Reach :=
  let r := lanes.map (fun p => (p.1, s.xlateAt ctx core kind n check p.2))
  let bad := r.filter (fun p => match p.2 with | .trap _ => true | .poisoned => true | _ => false)
  if r.any (fun p => p.2 == .held) then .replay []
  else match bad with
  | (l, .trap sub) :: _ => .trap l sub
  | (l, _) :: _ => .poisoned l
  | [] =>
    let wait := (r.filter (fun p => p.2 == .replay)).map Prod.fst
    if wait.isEmpty then .ok (r.filterMap (fun p => match p.2 with | .ok pa pg => some (p.1, pa, pg) | _ => none)) else .replay wait

/-- The lanes of an access of any alignment translated. -/
def State.reach (s : State) (ctx core : Nat) (kind : Kind) (lanes : List (Nat × W64)) : Reach :=
  s.reachWith ctx core kind 1 (fun _ _ => none) lanes

/-- The whole issue set made to wait for the supervisor's answers, its own faulting addresses being put before it (R208). Where none is named its
lanes are not translated yet, and it issues again (R207, R283). -/
def State.waitReplay (s : State) (ctx : Nat) (addrs : List (Nat × W64)) (faulting : List Nat) : State :=
  let s := (addrs.filter (fun p => has faulting p.1)).foldl (fun t p => t.askSupervisor ctx p.2) s
  match (addrs.filter (fun p => has faulting p.1)) with
  | p :: _ => s.wait s.cur.lanes (.translation p.2)
  | [] => s

/-- A memory instruction whose translation faults are put before the supervisor: its fibres run on, with the registers that it writes or frees interlocked,
until they need its result (R16, R208, log entry 19). One that is tried again waits for its new faults. Where no lane is named its lanes are not
translated yet, and it issues again (R207, R283). -/
def State.suspend (s : State) (i : Instr) (e : Eff) (load : Bool) (dst : Fibre → List Reg) (ctx : Nat) (addrs : List (Nat × W64)) (faulting : List Nat) : State :=
  let vas := (addrs.filter (fun p => has faulting p.1)).map Prod.snd
  let s := vas.foldl (fun t va => t.askSupervisor ctx va) s
  if vas.isEmpty then s
  else if s.here.held.any (fun h => h.issue == s.cur) then
    s.updGroup s.cur.g (fun x => { x with held := x.held.map (fun h => if h.issue == s.cur then { h with vas := vas } else h) })
  else
    let locked := fun (b : Fibre) => dst b ++ e.last.flatMap (fun o => operandRegs o b)
    let h : Held := ⟨i, s.cur, s.ids, s.clocks, s.here.fibres.keep (fun l _ => has s.cur.lanes l), [], vas, load⟩
    let t := s.updGroup s.cur.g (fun x => h.count true { x with held := x.held ++ [h] })
    (t.mapLanes s.cur.g s.cur.lanes (fun _ b => { b with locks := b.locks ++ (locked b).map (fun r => ⟨r, true, s.clocks⟩) })).advance s.cur.lanes

/-- The address named for a lane of a list. -/
def addrOf (l : List (Nat × W64)) (lane : Nat) : W64 := match l.find? (fun p => p.1 == lane) with | some p => p.2 | none => 0

/-- The translation of a lane of a list. -/
def pageOfLane (l : List (Nat × Nat × Page)) (lane : Nat) : Option (Nat × Page) := (l.find? (fun p => p.1 == lane)).map Prod.snd

-- ## The range scoreboard (R17, R336)

/-- The ranges that a copy records: the space, the first byte and the length (R336). -/
def Copy.ranges (c : Copy) : List (Bool × W64 × Nat) :=
  let side := fun (pitch : Nat) => (c.rows - 1) * pitch + c.rowBytes
  if c.rows * c.rowBytes = 0 then []
  else match c.kind with
    | 0 => [(c.srcScratch, c.src, c.rowBytes), (c.dstScratch, c.dst, c.rowBytes)]
    | 1 => [(c.srcScratch, c.src, side c.srcPitch), (c.dstScratch, c.dst, side c.dstPitch)]
    | 2 => [(c.dstScratch, c.dst, c.rows * c.rowBytes), (false, c.table, 4 * c.rows)]
    | 3 => [(c.srcScratch, c.src, c.rows * c.rowBytes), (false, c.table, 4 * c.rows)]
    | _ => [(c.dstScratch, c.dst, c.rowBytes)]

/-- Whether an access of a context is held behind a copy in flight whose range it overlaps, by its virtual address or scratch offset (R17, R336). -/
def Core.held (c : Core) (ctx : Nat) (scratch : Bool) (va : W64) (n : Nat) : Bool :=
  c.copies.vals.any (fun o => o.ctx == ctx && o.ranges.any (fun r => r.1 == scratch && overlap va n r.2.1 r.2.2))

-- ## What a read finds

/-- Whether a line was last written under the key of another owner than a context's (R218, R372). -/
def State.sealed (s : State) (ctx la : Nat) : Bool :=
  match s.seals.find? la with | some g => g != (s.vf (s.ctx ctx).vf).generation | none => false

/-- The bytes a context reads from a line: without meaning where the line is another owner's (R218). -/
def State.ownBytes (s : State) (ctx a : Nat) (bytes : List Byte) : List Byte :=
  (upTo bytes.length).map (fun i => if s.sealed ctx (lineOf (a + i)) then openAt (a + i) (s.vf (s.ctx ctx).vf).generation else bytes.getD i 0)

/-- A line of MTYPE 2 as a die reads it at its home (R213, R368). -/
def State.homeLine (s : State) (d la : Nat) : L1Line := if s.linkOk d la then s.memLine la else refusedLine

/-- What a read of a core finds under its accepted stores: the L1 where it holds the line and may be read, or the L2; an MTYPE 2 line is read
at its home (R213, R274). -/
def State.lineFor (s : State) (core la mtype : Nat) (useL1 : Bool) : L1Line :=
  if mtype = 2 then s.homeLine (dieOf core) la
  else match (if useL1 then (s.core core).l1.find? la else none) with
    | some l => l
    | none => s.l2Line (dieOf core) la

/-- The youngest accepted store of a core's queue over a byte (R269). -/
def Core.queued (c : Core) (a : Nat) : Option Byte :=
  c.stores.vals.foldl (fun m t => if !t.scratch && !t.writeBack && t.level == 1 && decide (t.pa ≤ a ∧ a < t.pa + t.data.length) then some (t.data.getD (a - t.pa) 0) else m) none

/-- Whether an accepted store of a core's queue poisons a line that bytes touch. -/
def Core.queuedPoison (c : Core) (a n : Nat) : Bool :=
  c.stores.vals.any (fun t => !t.scratch && t.level == 1 && t.poison && (linesOf a n).any (fun la => has (linesOf t.pa t.data.length) la))

/-- Bytes of lines with the core's accepted stores over them, and whether they are poisoned. -/
def State.overlay (s : State) (ctx core pa n : Nat) (line : Nat → L1Line) : List Byte × Bool :=
  let c := s.core core
  let under := s.ownBytes ctx pa ((upTo n).map (fun i => (line (lineOf (pa + i))).data.getD ((pa + i) % 128) 0))
  ((upTo n).map (fun i => (c.queued (pa + i)).getD (under.getD i 0)), c.queuedPoison pa n || (linesOf pa n).any (fun la => (line la).poison))

/-- The value a load of a core finds (R269, R274). -/
def State.coreRead (s : State) (ctx core pa n : Nat) (mtype : Nat) (useL1 : Bool) : List Byte × Bool :=
  s.overlay ctx core pa n (fun la => s.lineFor core la mtype useL1)

-- ## The order of one fibre's accesses (R246, R253, R265)

/-- Whether two ranges of physical addresses or of scratch offsets share a byte. -/
def shares (a n b k : Nat) : Bool := decide (a < b + k ∧ b < a + n)

/-- The bytes that a lane of a load reads: its own, and the scale byte of an LDX (R265, R295). -/
def LaneLoad.spans (e : LaneLoad) (bytes : Nat) : List (Nat × Nat) :=
  (match e.pa with | some a => [(a, bytes)] | none => []) ++ (match e.scale with | some a => [(a, 1)] | none => [])

/-- Whether every earlier access of a fibre that overlaps some bytes has been performed as far as a later one needs (R246, R265): its
loads have read, its stores are accepted, and its atomics and write-backs are done. -/
def Core.overlapsDone (c : Core) (g uid seq pa n : Nat) (scratch : Bool) : Bool :=
  c.loads.vals.all (fun l => !(l.g == g && decide (l.seq < seq) && l.scratch == scratch) ||
      l.lanes.vals.all (fun e => e.uid != uid || e.state == .landed || !(e.spans l.bytes).any (fun r => shares r.1 r.2 pa n)))
  && c.stores.vals.all (fun t => !(t.g == g && t.uid == uid && decide (t.seq < seq) && t.scratch == scratch && shares t.pa t.data.length pa n) ||
      (decide (t.level ≥ 1) && !t.writeBack))
  && c.atomics.vals.all (fun a => scratch || !(a.g == g && decide (a.seq < seq)) || a.lanes.vals.all (fun e => e.uid != uid || !shares e.pa a.bytes pa n))

/-- Whether an atomic that the core has accepted, with a number below `upto`, is still to be performed over some bytes (R269). -/
def Core.atomicBefore (c : Core) (upto pa n : Nat) : Bool :=
  c.atomics.vals.any (fun a => a.lanes.vals.any (fun e => (match e.order with | some o => decide (o < upto) | none => false) && shares e.pa a.bytes pa n))

/-- Whether every earlier LDAQ of a fibre has its value (R253). -/
def Core.acquired (c : Core) (g uid seq : Nat) : Bool :=
  c.loads.vals.all (fun l => l.acquire.isNone || !(l.g == g && decide (l.seq < seq)) || l.lanes.vals.all (fun e => e.uid != uid || e.state == .landed))

/-- Whether a read of a fibre may be performed as far as LS accesses go: its overlapping accesses and its acquires are done, and no accepted atomic of
the core is still to be performed over its bytes (R246, R253, R265, R269). `upto` is above every number given so far. -/
def Core.mayLook (c : Core) (g uid seq : Nat) (scratch : Bool) (pa n upto : Nat) : Bool :=
  c.overlapsDone g uid seq pa n scratch && c.acquired g uid seq && (scratch || !c.atomicBefore upto pa n)

/-- Whether a read of a fibre may be performed: see `Core.mayLook`, and no copy in flight holds it (R17). -/
def Core.mayRead (c : Core) (ctx g uid seq : Nat) (scratch : Bool) (va : W64) (pa n upto : Nat) : Bool :=
  c.mayLook g uid seq scratch pa n upto && !c.held ctx scratch va n

/-- Whether the data of a lane may arrive now: its fibre's earlier accesses, accepted atomics and the copies in flight are out of the way of its
bytes, and for an LDX of its scale byte. -/
def State.laneReady (s : State) (core : Nat) (l : Load) (e : LaneLoad) : Bool :=
  let c := s.core core
  let pa := e.pa.getD 0
  e.pa.isSome && !e.onFill && e.state != LaneState.landed
    && c.mayRead l.ctx l.g e.uid l.seq l.scratch (if l.scratch then BitVec.ofNat 64 pa else e.va) pa l.bytes s.ids
    && (match e.scale with
      | some a => c.mayRead l.ctx l.g e.uid l.seq false (e.scaleVa a) a 1 s.ids
      | none => true)

/-- Whether a lane of a load has been sent and its data are still out: it waits on a fill, or nothing holds it back, and for an LDAQ the accesses
it comes after are done (R17, R121, R253). -/
def State.laneSent (s : State) (core : Nat) (l : Load) (e : LaneLoad) : Bool :=
  e.state == LaneState.waiting && (e.onFill || (s.laneReady core l e &&
    (l.acquire.isNone || (l.victims.isEmpty && (s.core core).loadsDone l.g e.uid l.seq none && (s.core core).atomicsDone l.g e.uid l.seq none))))

-- ## Scratch of a core (R3, R369)

/-- Whether a context is halted and waits for the supervisor. -/
def State.asleep (s : State) (ctx : Nat) : Bool := match (s.ctx ctx).halt with | some h => h.phase == .supervisor | none => false

/-- The units of 4 KiB of a context's scratch window that a core's scratch holds. -/
def State.scratchUnits (s : State) (core ctx : Nat) : List Nat :=
  (upTo ((s.ctx ctx).scratch / 4096)).filter (fun u => !has ((s.core core).imaged.get ctx []) u)

/-- The contexts whose windows a core's scratch may hold: those that have written there, and those of its groups. -/
def State.scratchUsers (s : State) (core : Nat) : List Nat :=
  ascending ((s.core core).scratch.keys ++ (s.groups.vals.filter (fun x => x.core == core)).map Group.ctx)

/-- A context claims scratch of a core, and some units of its own window must stay: where the windows there do not all fit, units are written to their
context images, those of halted contexts first and its own last (R3, R369). -/
def State.claimScratch (s : State) (core ctx : Nat) (keep : List Nat) : State :=
  let users := s.scratchUsers core
  let others := users.filter (fun c => c != ctx)
  let order := others.filter s.asleep ++ others.filter (fun c => !s.asleep c) ++ [ctx]
  let here := order.flatMap (fun c => ((s.scratchUnits core c).filter (fun u => !(c == ctx && has keep u))).map (fun u => (c, u)))
  let over' := ((users.map (fun c => (s.scratchUnits core c).length)).sum - Config.scratchBytes / 4096)
  if over' = 0 then s
  else s.updCore core (fun k => { k with imaged := (here.take over').foldl (fun m p => m.upd p.1 [] (fun l => addOnce l p.2)) k.imaged })

/-- The units of a context's window that some bytes lie in read back from its image where a newcomer had claimed them (R369). -/
def State.recallScratch (s : State) (core ctx off n : Nat) : State :=
  let units := (upTo ((off + n - 1) / 4096 + 1 - off / 4096)).map (fun i => off / 4096 + i)
  let gone := (s.core core).imaged.get ctx []
  if units.any (has gone) then
    (s.updCore core (fun k => { k with imaged := k.imaged.put ctx (gone.filter (fun u => !has units u)) })).claimScratch core ctx units
  else s

-- ## Leases (R104, R106)

/-- The weight of a track in LEASEW (R104). -/
def weight (w : W32) (t : Nat) : Nat := w.toNat / 2 ^ (4 * t) % 16
/-- The budget of a track in KiB (R104). -/
def trackBudget (w : W32) (t : Nat) : Nat :=
  let sum := ((upTo 8).map (weight w)).sum
  if sum = 0 then Config.leaseBudget / 8 else Config.leaseBudget * weight w t / sum
/-- A lease clamped to the range 1 KiB to the budget of a group's track (R106). -/
def State.clampLease (s : State) (x : Group) (n : Nat) : Nat := Nat.max 1 (Nat.min n (trackBudget (s.core x.core).leasew x.track))

-- ## The L1 (R200, R107, R279)

/-- Bytes that the core itself writes at the L2 or a node put into its L1's copy of the line and into fills on their way (R200, R265). -/
def State.patchL1 (s : State) (core a : Nat) (data : List Byte) (poison : Bool) : State :=
  let put := fun (la : Nat) (l : L1Line) =>
    let full := decide (a ≤ la ∧ la + 128 ≤ a + data.length)
    (⟨(upTo 128).map (fun i => if a ≤ la + i ∧ la + i < a + data.length then data.getD (la + i - a) 0 else l.data.getD i 0), poison || (l.poison && !full)⟩ : L1Line)
  let lines := linesOf a data.length
  s.updCore core (fun c =>
    if (lines.any (fun la => (c.l1.find? la).isSome || (c.fills.find? la).isSome)) then
      { c with l1 := c.l1.mapVals (fun la l => if has lines la then put la l else l),
               fills := c.fills.mapVals (fun la f => if has lines la then { f with sent := f.sent.map (put la) } else f) }
    else c)

/-- A line of the L1 accessed by a group, and a miss on a line of its victim tags counted (R107). -/
def State.sample (s : State) (core g la : Nat) : State :=
  let inSample := (bitsAt la 9 7 ^^^ bitsAt la 12 10 ^^^ bitsAt la 15 13) == 0
  let miss := ((s.core core).l1.find? la).isNone
  s.updGroup g (fun x =>
    let x := if inSample then { x with sampled := addOnce x.sampled la } else x
    if miss && has x.victims la then { x with misses := x.misses + 1, measured := s.clampLease x (x.measured + 1), victims := drop x.victims la } else x)

/-- A fill installed in the L1: where it is full, one line gives way and enters the victim tags of the group that had filled it (R107, R214). Keep
lines fill at most half of it (R214, log entry 93). -/
def State.install (s : State) (core la : Nat) (l : L1Line) (g pol : Nat) : State :=
  let c := s.core core
  let full := decide (c.l1.length ≥ Config.l1Lines) && (c.l1.find? la).isNone
  let s := if !full then s
    else match victimOf (c.l1.keys.map (fun k => (k, (c.l1Info.get k (0, 0)).2))) s.free with
      | none => s
      | some v =>
        let s := { s.updCore core (fun c => { c with l1 := c.l1.del v, l1Info := c.l1Info.del v }) with free := s.free + 1 }
        s.updGroup (c.l1Info.get v (0, 0)).1 (fun x => { x with victims := (v :: x.victims).take 16 })
  let keeps := (c.l1Info.keep (fun k i => i.2 == 2 && (c.l1.find? k).isSome)).length
  s.updCore core (fun c => { c with l1 := c.l1.put la l, l1Info := c.l1Info.put la (g, if pol = 2 ∧ keeps ≥ Config.l1Lines / 2 then 0 else pol) })

/-- One line of a core's L1 dropped, with the invalidations of it on their way, and its fill in flight marked as not to be installed: the core has read
the line past its L1 (R265, R279). -/
def Core.dropLine (c : Core) (la : Nat) : Core :=
  { c with l1 := c.l1.del la, fills := c.fills.adjust la (fun f => { f with install := false }), invalidations := drop c.invalidations la }

/-- A line read past the L1 of a core: the L1's own copy gives way, and where the read may allocate the line takes its place, as the L2 holds it (R200,
R265). -/
def State.allocL1 (s : State) (core la g pol : Nat) (l1 : Bool) : State :=
  let s := s.updCore core (fun c => c.dropLine la)
  if l1 && !s.refusedRead (dieOf core) la then s.install core la (s.l2Line (dieOf core) la) g pol else s

/-- The invalidations of one line that are on their way to a core applied to its L1 (R273, R279). -/
def Core.applyInvalidation (c : Core) (la : Nat) : Core :=
  if has c.invalidations la then
    { c with l1 := c.l1.del la, fills := c.fills.adjust la (fun f => { f with install := false }), invalidations := drop c.invalidations la }
  else c

end Sys2Proof.Machine
end

