-- ==== Sys2Proof/Machine/Flags.lean ====
section
/-! DEFINITION. Integer types and floating-point arithmetic: formats, exact values, the one rounding, overflow, underflow and the flags
(R59, R146 to R152). -/

namespace Sys2Proof.Machine

-- ## Integer types

/-- The width of an ity code (R59, R147). -/
def ityWidth (t : Nat) : Nat := match t % 4 with | 0 => 8 | 1 => 16 | 2 => 32 | _ => 64
/-- Whether an ity code is signed. -/
def itySigned (t : Nat) : Bool := t < 4
/-- A source value as an integer of a width and signedness (R146). -/
def intVal (w : Nat) (signed : Bool) (x : Nat) : Int := if signed then toSigned w x else ((x % 2 ^ w : Nat) : Int)
/-- The least value of a type. -/
def intMin (w : Nat) (signed : Bool) : Int := if signed then -((2 ^ (w - 1) : Nat) : Int) else 0
/-- The greatest value of a type. -/
def intMax (w : Nat) (signed : Bool) : Int := if signed then ((2 ^ (w - 1) : Nat) : Int) - 1 else ((2 ^ w : Nat) : Int) - 1
/-- An exact integer clamped to a type's range (R157). -/
def clamp (w : Nat) (signed : Bool) (x : Int) : Int := if x < intMin w signed then intMin w signed else if x > intMax w signed then intMax w signed else x
/-- An integer result in its element: 8 and 16 bits are extended to 32 (R146). -/
def intElem (w : Nat) (signed : Bool) (x : Int) : Nat := if w < 32 then ofInt 32 (if signed then toSigned w (ofInt w x) else ((ofInt w x : Nat) : Int)) else ofInt w x
/-- A result wrapped or, with sat, clamped (R157). -/
def narrowInt (w : Nat) (signed sat : Bool) (x : Int) : Nat := intElem w signed (if sat then clamp w signed x else x)

-- ## Flags (R154)

/-- NV of FPMODE. -/
def nv : Nat := 2 ^ 14
/-- DZ of FPMODE. -/
def dz : Nat := 2 ^ 13
/-- OF of FPMODE. -/
def ovf : Nat := 2 ^ 12
/-- UF of FPMODE. -/
def unf : Nat := 2 ^ 11
/-- NX of FPMODE. -/
def nx : Nat := 2 ^ 10

-- ## Formats (R148)

/-- A floating-point format: exponent and fraction bits and whether it is E4M3, which has no infinity and one NaN. -/
structure Fmt where
  ebits : Nat
  fbits : Nat
  e4m3 : Bool
  deriving DecidableEq, Repr

/-- binary64. -/
def f64 : Fmt := ⟨11, 52, false⟩
/-- binary32. -/
def f32 : Fmt := ⟨8, 23, false⟩
/-- binary16. -/
def f16 : Fmt := ⟨5, 10, false⟩
/-- bfloat16. -/
def bf16 : Fmt := ⟨8, 7, false⟩
/-- E4M3. -/
def e4m3 : Fmt := ⟨4, 3, true⟩
/-- E5M2. -/
def e5m2 : Fmt := ⟨5, 2, false⟩

/-- The format of an fty code (R59). -/
def ftyFmt (t : Nat) : Fmt := match t with | 0 => f64 | 1 => f32 | 2 => f16 | 3 => bf16 | 4 => e4m3 | _ => e5m2
/-- The width of a format. -/
def Fmt.width (f : Fmt) : Nat := 1 + f.ebits + f.fbits
/-- The bias. -/
def Fmt.bias (f : Fmt) : Int := ((2 ^ (f.ebits - 1) : Nat) : Int) - 1
/-- The exponent of the smallest normal. -/
def Fmt.emin (f : Fmt) : Int := 1 - f.bias
/-- The exponent field of all ones. -/
def Fmt.eones (f : Fmt) : Nat := 2 ^ f.ebits - 1
/-- The canonical NaN. -/
def Fmt.nan (f : Fmt) : Nat := if f.e4m3 then 0x7F else f.eones * 2 ^ f.fbits + 2 ^ (f.fbits - 1)
/-- The bits of an infinity. -/
def Fmt.inf (f : Fmt) (neg : Bool) : Nat := (if neg then 2 ^ (f.ebits + f.fbits) else 0) + f.eones * 2 ^ f.fbits
/-- The bits of the largest finite value. -/
def Fmt.maxBits (f : Fmt) (neg : Bool) : Nat :=
  (if neg then 2 ^ (f.ebits + f.fbits) else 0) + (if f.e4m3 then 0x7E else f.eones * 2 ^ f.fbits - 1)
/-- The bits of a zero. -/
def Fmt.zero (f : Fmt) (neg : Bool) : Nat := if neg then 2 ^ (f.ebits + f.fbits) else 0

/-- A value: a NaN, quiet or signalling; an infinity; or (-1)^neg × m × 2^e. -/
inductive Num where
  | nan (signalling : Bool)
  | inf (neg : Bool)
  | fin (neg : Bool) (m : Nat) (e : Int)
  deriving DecidableEq, Repr

/-- The value of a bit pattern (R148). -/
def Fmt.num (f : Fmt) (x : Nat) : Num :=
  let neg := bitAt x (f.ebits + f.fbits)
  let ex := x / 2 ^ f.fbits % 2 ^ f.ebits
  let fr := x % 2 ^ f.fbits
  if f.e4m3 && ex == 15 && fr == 7 then .nan false
  else if !f.e4m3 && ex == f.eones then (if fr = 0 then .inf neg else .nan (!bitAt fr (f.fbits - 1)))
  else if ex = 0 then .fin neg fr (f.emin - f.fbits)
  else .fin neg (2 ^ f.fbits + fr) ((ex : Int) - f.bias - f.fbits)

/-- Whether a value is a signalling NaN. -/
def Num.snan : Num → Bool | .nan s => s | _ => false
/-- Whether a value is a NaN. -/
def Num.isNan : Num → Bool | .nan _ => true | _ => false
/-- Whether a value is zero. -/
def Num.isZero : Num → Bool | .fin _ m _ => m == 0 | _ => false
/-- The sign. -/
def Num.neg : Num → Bool | .nan _ => false | .inf n => n | .fin n _ _ => n

/-- Whether the magnitude is rounded up to x₁, from the kept part q and the rest r of 2^k (R150). -/
def roundsUp (rm : Nat) (neg : Bool) (q r k rand : Nat) : Bool :=
  if r = 0 then false
  else match rm with
    | 0 => decide (2 * r > 2 ^ k) || (decide (2 * r = 2 ^ k) && q % 2 == 1)
    | 1 => false
    | 2 => !neg
    | 3 => neg
    | 4 => decide (2 * r ≥ 2 ^ k)
    | _ => decide (r * 65536 / 2 ^ k > rand)

/-- The overflowed result (R151). -/
def Fmt.overflow (f : Fmt) (rm : Nat) (sat neg : Bool) : Nat :=
  let infinite := if f.e4m3 then f.nan else f.inf neg
  if sat then f.maxBits neg
  else match rm with
    | 1 => f.maxBits neg
    | 2 => if neg then f.maxBits neg else infinite
    | 3 => if neg then infinite else f.maxBits neg
    | _ => infinite

/-- THE ROUNDING of an exact non-zero value m × 2^e to a format (R150 to R152): the bits and the flags. -/
def Fmt.roundNz (f : Fmt) (rm : Nat) (sat : Bool) (rand : Nat) (neg : Bool) (m : Nat) (e : Int) : Nat × Nat :=
  let top : Int := (Nat.log2 m : Int) + e
  let qe : Int := if top - f.fbits < f.emin - f.fbits then f.emin - f.fbits else top - f.fbits
  let k : Nat := (qe - e).toNat
  let q0 := if e < qe then m / 2 ^ k else m * 2 ^ (e - qe).toNat
  let r := if e < qe then m % 2 ^ k else 0
  let q := if roundsUp rm neg q0 r k rand then q0 + 1 else q0
  let inexact := r != 0
  -- q × 2^qe with q up to 2^(fbits + 1)
  let q' := if q = 2 ^ (f.fbits + 1) then q / 2 else q
  let qe' := if q = 2 ^ (f.fbits + 1) then qe + 1 else qe
  let ex : Int := if q' < 2 ^ f.fbits then 0 else qe' + f.fbits + f.bias
  let bits := ex.toNat * 2 ^ f.fbits + q' % 2 ^ f.fbits
  let big := decide (ex > 0) && decide (bits > f.maxBits false)
  let tiny := decide (ex = 0)
  if big then (f.overflow rm sat neg, ovf + nx)
  else ((if neg then 2 ^ (f.ebits + f.fbits) else 0) + bits, if inexact then (if tiny then unf + nx else nx) else 0)

/-- The rounding of an exact value whose sign is known, zero included. -/
def Fmt.round (f : Fmt) (rm : Nat) (sat : Bool) (rand : Nat) (neg : Bool) (m : Nat) (e : Int) : Nat × Nat :=
  if m = 0 then (f.zero neg, 0) else f.roundNz rm sat rand neg m e

/-- The sum of two exact values: its sign, and its magnitude over a power of two. A zero sum takes the sign of R152. -/
def exactAdd (rm : Nat) (n1 : Bool) (m1 : Nat) (e1 : Int) (n2 : Bool) (m2 : Nat) (e2 : Int) : Bool × Nat × Int :=
  let e := if e1 < e2 then e1 else e2
  let a : Int := (if n1 then -1 else 1) * ((m1 * 2 ^ (e1 - e).toNat : Nat) : Int)
  let b : Int := (if n2 then -1 else 1) * ((m2 * 2 ^ (e2 - e).toNat : Nat) : Int)
  let x := a + b
  (if x = 0 then (if n1 = n2 then n1 else rm == 3) else decide (x < 0), x.natAbs, e)

/-- A sum of two values, rounded once (R163). -/
def Fmt.add (f : Fmt) (rm : Nat) (sat : Bool) (rand : Nat) (a b : Num) : Nat × Nat :=
  if a.snan || b.snan then (f.nan, nv)
  else match a, b with
    | .nan _, _ => (f.nan, 0)
    | _, .nan _ => (f.nan, 0)
    | .inf n, .inf k => if n = k then (f.inf n, 0) else (f.nan, nv)
    | .inf n, _ => (f.inf n, 0)
    | _, .inf n => (f.inf n, 0)
    | .fin n m e, .fin n' m' e' =>
      let x := exactAdd rm n m e n' m' e'
      f.round rm sat rand x.1 x.2.1 x.2.2

/-- A value with its sign changed. -/
def Num.negate : Num → Num
  | .nan s => .nan s | .inf n => .inf (!n) | .fin n m e => .fin (!n) m e

/-- A product, rounded once (R163). -/
def Fmt.mul (f : Fmt) (rm : Nat) (sat : Bool) (rand : Nat) (a b : Num) : Nat × Nat :=
  if a.snan || b.snan then (f.nan, nv)
  else match a, b with
    | .nan _, _ => (f.nan, 0)
    | _, .nan _ => (f.nan, 0)
    | .inf n, y => if y.isZero then (f.nan, nv) else (f.inf (n != y.neg), 0)
    | x, .inf n => if x.isZero then (f.nan, nv) else (f.inf (n != x.neg), 0)
    | .fin n m e, .fin n' m' e' => f.round rm sat rand (n != n') (m * m') (e + e')

/-- A product plus an addend, with one rounding (R163, R179). -/
def Fmt.fma (f : Fmt) (rm : Nat) (sat : Bool) (rand : Nat) (a b c : Num) : Nat × Nat :=
  let zeroInf := match a, b with
    | .inf _, y => y.isZero
    | x, .inf _ => x.isZero
    | _, _ => false
  if a.snan || b.snan || c.snan || zeroInf then (f.nan, nv)
  else match a, b, c with
    | .fin n m e, .fin n' m' e', .fin n'' m'' e'' =>
      let x := exactAdd rm (n != n') (m * m') (e + e') n'' m'' e''
      f.round rm sat rand x.1 x.2.1 x.2.2
    | _, _, _ =>
      if a.isNan || b.isNan || c.isNan then (f.nan, 0)
      else
        let pinf := match a, b with | .inf _, _ => true | _, .inf _ => true | _, _ => false
        let pneg := a.neg != b.neg
        match c with
        | .inf n => if pinf && pneg != n then (f.nan, nv) else (f.inf n, 0)
        | _ => (f.inf pneg, 0)

/-- The order of two values that are not NaN: less, or equal with -0 equal to +0 (R166). -/
def Num.lt (a b : Num) : Bool :=
  match a, b with
  | .inf n, .inf k => n && !k
  | .inf n, _ => n
  | _, .inf k => !k
  | .fin n m e, .fin n' m' e' =>
    let d := if e < e' then e else e'
    let x : Int := (if n then -1 else 1) * ((m * 2 ^ (e - d).toNat : Nat) : Int)
    let y : Int := (if n' then -1 else 1) * ((m' * 2 ^ (e' - d).toNat : Nat) : Int)
    decide (x < y)
  | _, _ => false

/-- Equality of two values that are not NaN. -/
def Num.eq (a b : Num) : Bool := !a.isNan && !b.isNan && !a.lt b && !b.lt a

/-- The minimum or maximum of IEEE 754-2019 (R164). -/
def Fmt.minmax (f : Fmt) (max : Bool) (x y : Nat) : Nat × Nat :=
  let a := f.num x
  let b := f.num y
  if a.isNan || b.isNan then (f.nan, if a.snan || b.snan then nv else 0)
  else
    let less := a.lt b || (a.eq b && a.neg && !b.neg)
    (if max then (if less then y else x) else (if less then x else y), 0)

/-- The conditions of FCMP and HCMP2 (R166, R171): 0 eq, 1 ne, 2 lt, 3 le, 4 gt, 5 ge, 6 un, 7 or. -/
def fcompare (c : Nat) (a b : Num) : Bool × Nat :=
  let un := a.isNan || b.isNan
  let sn := a.snan || b.snan
  let ordered := c == 2 || c == 3 || c == 4 || c == 5
  let flags := if sn || (ordered && un) then nv else 0
  (match c with
    | 0 => a.eq b
    | 1 => !a.eq b
    | 2 => !un && a.lt b
    | 3 => !un && (a.lt b || a.eq b)
    | 4 => !un && b.lt a
    | 5 => !un && (b.lt a || a.eq b)
    | 6 => un
    | _ => !un, flags)

/-- The class mask of FCLASS (R167). -/
def Fmt.classOf (f : Fmt) (x : Nat) : Nat :=
  match f.num x with
  | .inf n => if n then 2 ^ 0 else 2 ^ 7
  | .nan s => if s then 2 ^ 8 else 2 ^ 9
  | .fin n m _ =>
    if m = 0 then (if n then 2 ^ 3 else 2 ^ 4)
    else if m < 2 ^ f.fbits then (if n then 2 ^ 2 else 2 ^ 5)
    else if n then 2 ^ 1 else 2 ^ 6

/-- An exact magnitude rounded to an integer: the integer and whether it was inexact (R168, R169). -/
def roundInt (rm : Nat) (rand : Nat) (neg : Bool) (m : Nat) (e : Int) : Nat × Bool :=
  if e ≥ 0 then (m * 2 ^ e.toNat, false)
  else
    let k := (-e).toNat
    let q := m / 2 ^ k
    let r := m % 2 ^ k
    (if roundsUp rm neg q r k rand then q + 1 else q, r != 0)

/-- FRND (R168). -/
def Fmt.rint (f : Fmt) (rm rand : Nat) (x : Nat) : Nat × Nat :=
  match f.num x with
  | .nan s => (f.nan, if s then nv else 0)
  | .inf n => (f.inf n, 0)
  | .fin n m e => ((f.round 1 false 0 n (roundInt rm rand n m e).1 0).1, 0)

/-- A value converted to a format (R169, R151). -/
def Fmt.convert (f : Fmt) (rm : Nat) (sat : Bool) (rand : Nat) (a : Num) : Nat × Nat :=
  match a with
  | .nan s => (f.nan, if s then nv else 0)
  | .inf n => if f.e4m3 then (if sat then (f.maxBits n, 0) else (f.nan, nv)) else (f.inf n, 0)
  | .fin n m e => f.round rm sat rand n m e

/-- A value converted to an integer type (R169): the integer and the flags. -/
def toInteger (w : Nat) (signed : Bool) (rm : Nat) (sat : Bool) (rand : Nat) (a : Num) : Int × Nat :=
  let bad : Int := if signed then intMin w true else intMax w false
  match a with
  | .nan _ => (if sat then 0 else bad, nv)
  | .inf n => (if sat then (if n then intMin w signed else intMax w signed) else bad, nv)
  | .fin n m e =>
    let r := roundInt rm rand n m e
    let x : Int := if n then -(r.1 : Int) else (r.1 : Int)
    if x < intMin w signed ∨ x > intMax w signed then (if sat then clamp w signed x else bad, nv)
    else (x, if r.2 then nx else 0)

/-- An integer converted to a format (R169). -/
def Fmt.ofInteger (f : Fmt) (rm : Nat) (sat : Bool) (rand : Nat) (x : Int) : Nat × Nat := f.round rm sat rand (decide (x < 0)) x.natAbs 0

/-- The immediate of a floating-point operation in its format, and whether it was inexact (R50). A signalling NaN becomes the NaN of the format and sets
no flag (log entry 116). -/
def fpImm (f : Fmt) (x : BitVec 24) (b : BitVec 7) : Nat × Bool :=
  let bits := (x ++ b).toNat * 2
  if f = f32 then (bits, false)
  else
    let r := f.convert 0 false 0 (f32.num bits)
    (r.1, r.2 / nx % 2 == 1)

/-- A b source of a floating-point operation (R49, R50). -/
def srcF (m : Mods) (b : BitVec 7) (f : Fmt) : Src :=
  match m.imx with | some x => .imm (fpImm f x b).1 | none => .reg b.toNat (if f = f64 then 2 else 1)

/-- The immediate of a packed instruction stands in both halves (R50). -/
def srcH (m : Mods) (b : BitVec 7) (f : Fmt) : Src :=
  match m.imx with | some x => .imm ((fpImm f x b).1 * (2 ^ 16 + 1)) | none => .reg b.toNat 1

/-- The WARN bit of an inexact immediate (R50, R64). -/
def immWarn (m : Mods) (b : BitVec 7) (f : Fmt) : W32 :=
  match m.imx with | some x => warnIf (fpImm f x b).2 warnImm | none => 0

/-- The value of a source in a format. -/
def Fmt.of (f : Fmt) (v : Val) : Num := f.num (v.bits % 2 ^ f.width)

end Sys2Proof.Machine
end

