-- ==== Sys2Proof/Machine/Formats.lean ====
section
/-! DEFINITION. Narrow formats: E8M0 block scales, the CB2 codebook, the words of LDX, and the products and sums of a matrix instruction
(R227, R291 to R299). -/

namespace Sys2Proof.Machine

/-- Weight `j` of a CB2 index in halves, exactly (R292). -/
def cb2Halves (x j : Nat) : Int :=
  let m : Int := if bitAt x (8 + j) then 3 else 1
  let sign := fun (i : Nat) => bitAt x (1 + i)
  let s := if j < 7 then sign j else (upTo 7).foldl (fun b i => b != sign i) false
  (if s then -m else m) + (if bitAt x 0 then 1 else 0)

/-- Weight `j` of a CB2 index; a zero is +0 (R292). -/
def cb2Weight (x j : Nat) : Num := .fin (decide (cb2Halves x j < 0)) (cb2Halves x j).natAbs (-1)

/-- A value times the value of an E8M0 scale; 0xFF is a NaN (R291, R294). -/
def scaled (s : Nat) (v : Num) : Num :=
  if s = 0xFF then .nan false
  else match v with
    | .fin n m e => .fin n m (e + (s : Int) - 127)
    | r => r

/-- A value as BF16, rounded with RNE, its NaN canonical (R227). -/
def toBf16 (v : Num) : Nat :=
  match v with
  | .fin n m e => (bf16.round 0 false 0 n m e).1
  | .inf n => bf16.inf n
  | .nan _ => bf16.nan

/-- What lane `lane` receives of the word that LDX reads, by the FMT of its page and, for FMT 6, the scale byte (R227). -/
def ldxWord (fmt lane word scale : Nat) : Nat :=
  let pair := fun (f : Nat → Nat) => f 0 + 2 ^ 16 * f 1
  let weight := fun (i : Nat) => let k := 2 * (lane % 8) + i; cb2Weight (word / 2 ^ (16 * (k / 8)) % 2 ^ 16) (k % 8)
  match fmt with
  | 1 => pair (fun i => toBf16 (e4m3.num (word / 2 ^ (8 * (2 * (lane % 2) + i)) % 256)))
  | 2 => pair (fun i => toBf16 (e5m2.num (word / 2 ^ (8 * (2 * (lane % 2) + i)) % 256)))
  | 4 => pair (fun i => toBf16 (f16.num (word / 2 ^ (16 * i) % 2 ^ 16)))
  | 5 => pair (fun i => toBf16 (weight i))
  | 6 => pair (fun i => toBf16 (scaled scale (weight i)))
  | _ => word

-- ## Matrix sums (R298, R299)

/-- An exact product with its invalid cases: its value and whether it raises NV (R298). -/
def product (a b : Num) : Num × Bool :=
  match a, b with
  | .nan s, .nan t => (.nan false, s || t)
  | .nan s, _ => (.nan false, s)
  | _, .nan t => (.nan false, t)
  | .inf n, y => if y.isZero then (.nan false, true) else (.inf (n != y.neg), false)
  | x, .inf n => if x.isZero then (.nan false, true) else (.inf (n != x.neg), false)
  | .fin n m e, .fin n' m' e' => (.fin (n != n') (m * m') (e + e'), false)

/-- A product of `.s8` elements, which is an integer: a zero has no sign (R298). -/
def intProduct (a b : Num) : Num × Bool :=
  let p := product a b
  if p.1.isZero then (.fin false 0 0, p.2) else p

/-- The exact sum of two values; a zero sum takes the sign of R152 under RNE, and opposite infinities give a NaN. -/
def sumExact (a b : Num) : Num :=
  match a, b with
  | .nan _, _ => .nan false
  | _, .nan _ => .nan false
  | .inf n, .inf k => if n = k then .inf n else .nan false
  | .inf n, _ => .inf n
  | _, .inf n => .inf n
  | .fin n m e, .fin n' m' e' => let x := exactAdd 0 n m e n' m' e'; .fin x.1 x.2.1 x.2.2

/-- The exact sum of a group's products; no products sum to +0 (R299). -/
def groupSum : List Num → Num
  | [] => .fin false 0 0
  | [p] => p
  | p :: t => sumExact p (groupSum t)

/-- Whether a group sum raises NV: one of its products does, or infinities of both signs meet (R298). -/
def groupInvalid (products : List (Num × Bool)) : Bool :=
  products.any Prod.snd || (products.any (fun p => p.1 == .inf true) && products.any (fun p => p.1 == .inf false))

/-- One output element: the group sum rounded once to FP32 with RNE and added to the accumulator element, which is rounded with RNE: the
bits and the flags (R299). -/
def accumulate (acc : Nat) (products : List (Num × Bool)) : Nat × Nat :=
  let r := f32.convert 0 false 0 (groupSum (products.map Prod.fst))
  let t := f32.add 0 false 0 (f32.num acc) (f32.num r.1)
  (t.1, (if groupInvalid products then nv else 0) ||| r.2 ||| t.2)

end Sys2Proof.Machine
end

