-- ==== Sys2Proof/Machine/Control.lean ====
section
/-! DEFINITION. Control flow, the return stack, junctions, creating and ending fibres, and the register window (R70 to R82), with the
events that release junctions and land return-stack fills (R32, R74). -/

namespace Sys2Proof.Machine

/-- An instruction that has no mask and no destination: fallbacks, its effect, and nothing freed. -/
def State.plain (s : State) (i : Instr) (go : Eff → State → State) : State := go (fallback i).2 (s.warn (fallback i).1)

/-- An instruction whose only effect is to advance the PCs. -/
def State.only (s : State) (i : Instr) : State := s.plain i (fun e s => s.complete s.here e (fun _ => []))

/-- The PCs of the issue set set per fibre. -/
def State.jump (s : State) (target : Nat → Fibre → W64) : State :=
  s.mapLanes s.cur.g s.cur.lanes (fun l b => { b with pc := target l b, wait := .free })

/-- The target of a BR or BQ offset (R49). -/
def branchTarget (m : Mods) (pc : W64) (o : BitVec n) : W64 :=
  pc + 4 * (match m.imx with | some x => (x ++ o).signExtend 64 | none => o.signExtend 64)

/-- NOP (R80). -/
def execNop (m : Mods) (s : State) : Host.Outcome State Fault Refusal := .next (s.only (.nop m))

/-- BRA (R70). -/
def execBra (m : Mods) (o : BitVec 24) (s : State) : Host.Outcome State Fault Refusal :=
  .next (s.plain (.bra m o) (fun _ s => s.jump (fun _ _ => branchTarget m s.cur.pc o)))

/-- BRQ (R70). -/
def execBrq (m : Mods) (q : BitVec 3) (sense : BitVec 1) (o : BitVec 20) (s : State) : Host.Outcome State Fault Refusal :=
  .next (s.plain (.brq m q sense o) (fun _ s => s.control 0 (fun _ _ b => [ctlQ b 9 q.toNat]) (fun s =>
    (s.jump (fun _ b => if b.cw.q.getLsbD q.toNat = (sense == 1#1) then branchTarget m s.cur.pc o else s.nextPc)).settleGm s.cur.g)))

/-- The target of JMP and CALLR (R71). -/
def jumpTarget (f : BitVec 3) (pc : W64) (b : Fibre) (a : BitVec 7) : W64 :=
  if f = 1#3 then pc + (b.kReg (a.toNat - 96)).val else (b.kReg (a.toNat - 96)).val

/-- JMP and CALLR up to the transfer: the target is a control operand and must be word-aligned (R71). -/
def State.checkTarget (s : State) (f : BitVec 3) (a : BitVec 7) (go : State → State) : State :=
  s.control 0 (fun _ _ b => [ctlK b 0 a.toNat]) (fun s =>
    let x := s.here
    let bad := s.cur.lanes.filter (fun l => (jumpTarget f s.cur.pc (x.fibre l) a).toNat % 4 != 0)
    if bad.isEmpty then go s else s.precise 4 2 2 0 bad (jumpTarget f s.cur.pc (x.fibre (firstLane bad)) a))

/-- JMP (R71). -/
def execJmp (m : Mods) (f : BitVec 3) (a : BitVec 7) (s : State) : Host.Outcome State Fault Refusal :=
  .next (s.plain (.jmp m f a) (fun e s => s.checkTarget f a (fun s =>
    let x := s.here
    (((s.jump (fun l _ => jumpTarget f s.cur.pc (x.fibre l) a)).freeLast x e (fun _ => [])).settleGm s.cur.g))))

/-- FSTK as a register (R72). -/
def Fibre.fstk (b : Fibre) : W64 := b.stackBase ++ b.depth ++ 0#3
/-- The address of a spilled entry (R73). -/
def spillAddr (base : BitVec 52) (depth : BitVec 9) : W64 := (base ++ 0#12) + BitVec.ofNat 64 (8 * depth.toNat)

/-- A return address pushed on a fibre's stack: the oldest on-chip entry gives way when four are held (R73). -/
def Fibre.push (b : Fibre) (ret : W64) : Fibre :=
  if b.stack.length = 4 then { b with stack := (ret :: b.stack).take 4, depth := b.depth + 1 } else { b with stack := ret :: b.stack }

/-- CALL, and CALLR once its target is checked (R73, R75): a full stack in any fibre stops the call for every fibre; spills are stores of
the fibre on the LS path, not counted. `last` is done where the call is made. -/
def State.call (s : State) (target : Nat → W64) (last : State → State) : State :=
  let x := s.here
  let limit := (s.grid x.grid).record.limit
  let spilling := s.cur.lanes.filter (fun l => (x.fibre l).stack.length == 4)
  let full := spilling.filter (fun l => decide ((x.fibre l).depth.toNat ≥ limit))
  if !full.isEmpty then s.precise 11 0 0 0 full (x.fibre (firstLane full)).fstk
  else
    let addrs := spilling.map (fun l => (l, spillAddr (x.fibre l).stackBase (x.fibre l).depth))
    match s.reach x.ctx x.core .write addrs with
    | .trap l _ => (s.precise 4 4 1 0 [l] (addrOf addrs l)).forget x.ctx (addrOf addrs l)
    | .poisoned l => s.walkPoison 0 0 l (addrOf addrs l)
    | .replay ls => s.waitReplay x.ctx addrs ls
    | .ok pas =>
      let s := addrs.foldl (fun t p => t.fillTlb x.ctx x.core p.2) s
      let s := pas.foldl (fun t p => (t.sample x.core t.cur.g (lineOf p.2.1)).pushStore x.core
        { Store.none with
          op := t.ids, g := t.cur.g, ctx := x.ctx, uid := (x.fibre p.1).uid, seq := t.ids, va := addrOf addrs p.1, pa := p.2.1,
          data := bytesOf 8 ((x.fibre p.1).stack.getD 3 0).toNat, mtype := p.2.2.mtype, l2 := p.2.2.l2Ok, host := p.2.2.consults,
          conf := p.2.2.conf, grid := x.grid }) s
      last (s.mapLanes s.cur.g s.cur.lanes (fun l b => { b.push s.nextPc with pc := target l, wait := .free }))

/-- CALL (R73). -/
def execCall (m : Mods) (o : BitVec 24) (s : State) : Host.Outcome State Fault Refusal :=
  .next (s.plain (.call m o) (fun _ s => s.call (fun _ => branchTarget m s.cur.pc o) id))

/-- CALLR (R71, R73). -/
def execCallr (m : Mods) (f : BitVec 3) (a : BitVec 7) (s : State) : Host.Outcome State Fault Refusal :=
  .next (s.plain (.callr m f a) (fun e s => s.checkTarget f a (fun s =>
    let x := s.here
    s.call (fun l => jumpTarget f s.cur.pc (x.fibre l) a) (fun t => (t.freeLast x e (fun _ => [])).settleGm s.cur.g))))

/-- The fills a RET needs: the lanes whose on-chip stack is empty, with their addresses (R74). -/
def Group.fills (x : Group) (lanes : List Nat) : List (Nat × W64) :=
  (lanes.filter (fun l => (x.fibre l).stack.isEmpty)).map (fun l => (l, spillAddr (x.fibre l).stackBase ((x.fibre l).depth - 1)))

/-- A return taken by a fibre: on-chip, or with a filled address (R74). -/
def Fibre.pop (b : Fibre) (filled : W64) : Fibre :=
  match b.stack with
  | r :: t => { b with stack := t, pc := r, wait := .free }
  | [] => { b with depth := b.depth - 1, pc := filled, wait := .free }

/-- RET (R74): an empty stack faults; where no fibre needs a fill all pop at once; otherwise every member waits for the fills. -/
def execRet (m : Mods) (s : State) : Host.Outcome State Fault Refusal :=
  .next (s.plain (.ret m) (fun _ s =>
    let x := s.here
    let empty := s.cur.lanes.filter (fun l => (x.fibre l).stack.isEmpty && (x.fibre l).depth == 0)
    let fills := x.fills s.cur.lanes
    let bad := s.cur.lanes.filter (fun l => ((x.fibre l).stack.headD 0).toNat % 4 != 0)
    if !empty.isEmpty then s.precise 11 1 0 0 empty (x.fibre (firstLane empty)).fstk
    else if fills.isEmpty then
      if bad.isEmpty then s.mapLanes s.cur.g s.cur.lanes (fun _ b => b.pop 0)
      else s.precise 4 2 2 0 bad ((x.fibre (firstLane bad)).stack.headD 0)
    else
      match s.reach x.ctx x.core .read fills with
      | .trap l _ => (s.precise 4 4 0 0 [l] (addrOf fills l)).forget x.ctx (addrOf fills l)
      | .poisoned l => s.walkPoison 0 0 l (addrOf fills l)
      | .replay ls => s.waitReplay x.ctx fills ls
      | .ok _ => (fills.foldl (fun t p => t.fillTlb x.ctx x.core p.2) s).wait s.cur.lanes (.fill s.cur.words s.clocks)))

/-- The issue sets of a group that wait on the fills of a RET at an address: the clock on which each issued, and its lanes (R74). -/
def Group.fillSets (x : Group) (pc : W64) : List (Nat × List Nat) :=
  let since := fun (l : Nat) => match (x.fibre l).wait with | .fill _ t => if (x.fibre l).pc = pc then some t else Option.none | _ => Option.none
  (ascending (x.live.filterMap since)).map (fun t => (t, x.live.filter (fun l => since l == some t)))

/-- The line of a fill of a RET accessed by its group, and brought into the L2 and the L1 as far as its page allows where the L1 does not hold it
(R107, R200, R214). -/
def State.fillL1 (s : State) (core g la : Nat) (p : Page) : State :=
  let s := s.sample core g la
  if p.mtype = 2 then s.countPacket la p.conf
  else if ((s.core core).l1.find? la).isSome then s
  else
    let t := s.readLine (dieOf core) la 0 p.l2Ok p.conf
    if p.l1Ok then t.allocL1 core la g 0 true else t

/-- The fills of one issue set of a RET land, or one faults (R74, R75); none while one of them cannot be read yet (R17, R265, R280). What the L1 does not
hold goes out at the core's port, a token for each fill (R370). Of the
faults of one set, an untranslated or poisoned walk comes first, then a poisoned line, then a misaligned destination (log entry 91). -/
def State.landFills (s : State) (g : Nat) (pc : W64) (lanes : List Nat) : Option State :=
  let x := s.group g
  let words := match (x.fibre (firstLane lanes)).wait with | .fill w _ => w | _ => 1
  let fills := x.fills lanes
  let old := s
  let s := { s with cur := ⟨g, lanes, pc, words, s.cur.base, none, none⟩ }
  let free := s.wait lanes .free
  match s.reach x.ctx x.core .read fills with
  | .ok pas =>
    let out := s.outside x.core pas
    let ask : Ask := ⟨9, g, firstLane lanes⟩
    if pas.any (fun p => !(s.core x.core).mayRead x.ctx g (x.fibre p.1).uid s.ids false (addrOf fills p.1) p.2.1 8 s.ids
        || (p.2.2.consults && s.hostHolds (lineOf p.2.1))) then none
    else if !out.isEmpty ∧ !s.vfUp x.ctx then some (old.dropRequests x.ctx x.core)
    else if !out.isEmpty ∧ !s.portTurn x.ctx x.core out.length ask then some (old.portQueue x.ctx x.core out.length ask)
    else some (
      let s := (if out.isEmpty then s else s.portTake x.ctx x.core out.length ask).reportReads x.ctx x.core out
      let s := pas.foldl (fun t p => t.fillL1 x.core g (lineOf p.2.1) p.2.2) s
      let free := s.wait lanes .free
      let read := fun (l : Nat) => match pas.find? (fun p => p.1 == l) with | some p => s.coreRead x.ctx x.core p.2.1 8 p.2.2.mtype true | none => ([], false)
      let dest := fun (l : Nat) => match (x.fibre l).stack with | r :: _ => r | [] => BitVec.ofNat 64 (ofBytes (read l).1)
      let bad := lanes.filter (fun l => (read l).2)
      let odd := lanes.filter (fun l => (dest l).toNat % 4 != 0)
      if !bad.isEmpty then free.precise 8 5 0 0 bad (addrOf fills (firstLane bad) &&& ~~~127)
      else if !odd.isEmpty then free.precise 4 2 2 0 odd (dest (firstLane odd))
      else s.mapLanes g lanes (fun l b => b.pop (dest l)))
  | .trap l _ => some ((free.precise 4 4 0 0 [l] (addrOf fills l)).forget x.ctx (addrOf fills l))
  | .poisoned l => some (free.walkPoison 0 0 l (addrOf fills l))
  | .replay ls => some (s.waitReplay x.ctx fills ls)

/-- RETURN_FILL_ARRIVAL: the fills of the issue sets of a RET at an address land, the earliest first that can (R74, R75). -/
def execReturnFillArrival (g : Nat) (pc : W64) (s : State) : Host.Outcome State Fault Refusal :=
  let x := s.group g
  if !s.runs x.ctx g then .next s
  else .next ((firstSome ((x.fillSets pc).map (fun p => s.landFills g pc p.2))).getD s)

-- ## Junctions

/-- JCT: the fibres wait at the junction, their PCs unchanged (R76). -/
def execJct (m : Mods) (s : State) : Host.Outcome State Fault Refusal :=
  .next (s.plain (.jct m) (fun _ s => s.mapLanes s.cur.g s.cur.lanes (fun _ b =>
    { b with cw := { b.cw with ja := true }, junctionSince := s.clocks, junctionWords := s.cur.words, wait := .free })))

/-- The lanes of a group that wait at the junction at an address (R31). -/
def Group.waitingAt (x : Group) (pc : W64) : List Nat := x.live.filter (fun l => (x.fibre l).cw.ja && (x.fibre l).pc == pc)

/-- The number of words of the instruction at an address, read from its bytes where the core's translation reaches them; one otherwise (R44). -/
def State.wordsAt (s : State) (x : Group) (pc : W64) : Nat :=
  let word := fun (a : W64) => match s.xlate x.ctx x.core a .fetch with
    | .ok pa _ => BitVec.ofNat 32 (ofBytes (s.l2Read (dieOf x.core) pa 4).1)
    | _ => 0#32
  let w0 := word pc
  if isImx w0 then (if isOpx (word (pc + 4)) then 3 else 2) else if isOpx w0 then 2 else 1

/-- The words of the JCT at which a fibre waits: those it issued with, or else those at its PC. -/
def State.junctionLength (s : State) (x : Group) (b : Fibre) : Nat := if b.junctionWords = 0 then s.wordsAt x b.pc else b.junctionWords

/-- The fibres that wait at a junction released past it (R32). -/
def State.releaseJunction (s : State) (g : Nat) (pc : W64) : State :=
  let x := s.group g
  s.mapLanes g (x.waitingAt pc) (fun _ b =>
    { b with cw := { b.cw with ja := false }, pc := pc + BitVec.ofNat 64 (4 * s.junctionLength x b), junctionWords := 0 })

/-- JUNCTION_RELEASE: no live fibre of the group has a PC below the junction (R32 rule 1). -/
def execJunctionRelease (g : Nat) (pc : W64) (s : State) : Host.Outcome State Fault Refusal :=
  let x := s.group g
  if s.runs x.ctx g && x.live.all (fun l => decide (pc.toNat ≤ (x.fibre l).pc.toNat)) then .next (s.releaseJunction g pc) else .next s

/-- JUNCTION_TIMEOUT: 1,024 clocks have passed since the earliest arrival (R32 rule 2). -/
def execJunctionTimeout (g : Nat) (pc : W64) (s : State) : Host.Outcome State Fault Refusal :=
  let x := s.group g
  if s.runs x.ctx g && (x.waitingAt pc).any (fun l => decide ((x.fibre l).junctionSince + 1024 ≤ s.clocks)) then .next (s.releaseJunction g pc) else .next s

-- ## Creating and ending fibres

/-- ILLEGAL with SUB 1: not allowed in this state (R133); the field named is the opcode, or the register number of a SWR (log entry 13). -/
def State.illegalHere (s : State) (info : Nat) : State :=
  s.precise 1 1 info 0 s.cur.lanes (BitVec.ofNat 64 (s.cur.base.toNat + 2 ^ 32 * (match s.cur.opx with | some o => o.toNat | none => (match s.cur.imx with | some x => x.toNat | none => 0))))

/-- The holders of a fibre's elements given to its copy too (R77, R231). -/
def State.copyHolders (s : State) (core g uid new : Nat) : State :=
  s.updCore core (fun c => { c with tickets := c.tickets.mapVals (fun _ t =>
    { t with holders := t.holders ++ (t.holders.filter (fun h => h.of g uid && !(h.reg.file == .k && decide (h.reg.idx ≥ 16)))).map (fun h => { h with uid := new }) }) })

/-- One active fibre of a FORK: a new fibre in the lowest free lane, or all ones when none is free (R77). -/
def State.forkOne (s : State) (f : BitVec 3) (d a b : BitVec 7) (x : Group) (lane : Nat) : State :=
  let p := x.fibre lane
  match ((upTo Config.lanes).filter (fun l => (s.here.fibres.find? l).isNone)) with
  | [] => (s.releaseHolders s.cur.g p.uid ((Dst.k d.toNat).regs p) true).updFibre s.cur.g lane (fun q => (Dst.k d.toNat).write q (Val.of (2 ^ 64 - 1)))
  | n :: _ =>
    let fresh : Fibre := { Fibre.new s.ids (p.kReg (a.toNat - 96)).val p.cw.wb with
      stackBase := ((p.kReg (b.toNat - 96)).val >>> 12).setWidth 52, glim := p.glim }
    let new := if f = 1#3 then
        { fresh with v := p.v, k := p.k, w := p.w, cw := { fresh.cw with q := p.cw.q, qg := p.cw.qg, qp := p.cw.qp } }
      else fresh
    let s := if f = 1#3 then s.copyHolders x.core s.cur.g p.uid s.ids else s
    let s := s.releaseHolders s.cur.g p.uid ((Dst.k d.toNat).regs p) true
    let s := s.updGroup s.cur.g (fun y => { y with fibres := y.fibres.put n new })
    let s := s.updFibre s.cur.g lane (fun q => (Dst.k d.toNat).write q (Val.of n))
    { s with ids := s.ids + 1 }

/-- The masked-off lanes of an instruction zeroed under mz (R53). -/
def State.zeroMasked (s : State) (e : Eff) (act : List Nat) (d : Dst) (old : Group) : State :=
  if e.mz then
    let off := s.cur.lanes.filter (fun l => !has act l)
    let s := off.foldl (fun t l => t.releaseHolders s.cur.g (old.fibre l).uid (d.regs (old.fibre l)) true) s
    s.mapLanes s.cur.g off (fun _ b => d.write b Val.zero)
  else s

/-- FORK (R77): not allowed in a handler (R137). -/
def execFork (m : Mods) (f : BitVec 3) (d a b : BitVec 7) (s : State) : Host.Outcome State Fault Refusal :=
  .next (s.plain (.fork m f d a b) (fun e s =>
    if s.here.h then s.illegalHere 15
    else s.control 0 (fun _ _ p => ctlMask p e.mask ++ (if p.active e.mask then [ctlK p 0 a.toNat, ctlK p 1 b.toNat] else [])) (fun s =>
      let x := s.here
      let act := activeLanes s e
      let bad := act.filter (fun l => ((x.fibre l).kReg (a.toNat - 96)).val.toNat % 4 != 0)
      if !bad.isEmpty then s.precise 4 2 2 0 bad ((x.fibre (firstLane bad)).kReg (a.toNat - 96)).val
      else
        let s := act.foldl (fun t l => t.forkOne f d a b x l) s
        (s.zeroMasked e act (.k d.toNat) x).complete x e (Dst.k d.toNat).regs)))

/-- QUIT (R78): the active fibres end, the masked-off ones go on. -/
def execQuit (m : Mods) (s : State) : Host.Outcome State Fault Refusal :=
  .next (s.plain (.quit m) (fun e s => s.control 0 (fun _ _ b => ctlMask b e.mask) (fun s =>
    let act := activeLanes s e
    ((s.complete s.here e (fun _ => [])).quitLanes s.cur.g act).checkReturn s.cur.g)))

/-- The lease of a group (R106): the declared one, or the measured one, between 1 KiB and its track's budget. -/
def State.leaseOf (s : State) (x : Group) : Nat :=
  s.clampLease x (match x.declared with | some d => d | none => x.measured)

/-- LEASEW of a core as admissions of this clock see it: a change counts from the next clock (R104). -/
def State.leasewNow (s : State) (core : Nat) : W32 :=
  match (s.core core).leasewWas with | some (t, w) => if t = s.clocks then w else (s.core core).leasew | none => (s.core core).leasew

/-- The lease of a group as admissions of this clock see it: a LEASE counts from the next clock (R118). -/
def State.leaseNow (s : State) (x : Group) : Nat :=
  match x.leaseWas with | some (t, n) => if t = s.clocks then n else s.leaseOf x | none => s.leaseOf x

/-- The groups on the carriageway of a group's track. -/
def State.carriageway (s : State) (x : Group) : List (Nat × Group) :=
  s.groups.filter (fun p => p.2.core == x.core && p.2.track == x.track && p.2.set == .carriageway)

/-- Whether a group leaves the carriageway at the end of this clock, so that it stands there until then (R79, R101). -/
def State.leaving (s : State) (x : Group) : Bool := x.left == some s.clocks

/-- The groups that take up the carriageway of a group's track on this clock (R101). -/
def State.occupied (s : State) (x : Group) : List (Nat × Group) :=
  s.groups.filter (fun p => p.2.core == x.core && p.2.track == x.track && (p.2.set == .carriageway || s.leaving p.2))

/-- Whether a lay-by group's lease fits beside some groups of its track (R102). -/
def State.fitsBeside (s : State) (x : Group) (l : List (Nat × Group)) : Bool :=
  decide ((l.map (fun p => s.leaseNow p.2)).sum + s.leaseNow x ≤ trackBudget (s.leasewNow x.core) x.track)

/-- Whether a lay-by group's lease fits beside the carriageway, but for one group that leaves it (R79, R102). -/
def State.leaseFits (s : State) (x : Group) (leaving : Nat) : Bool := s.fitsBeside x ((s.occupied x).filter (fun p => p.1 != leaving))

-- ## The register window

/-- WIN and WADD once their source is known (R81). A requested base that is wider than INFO is reduced to its 14 bits (log entry 112). -/
def State.window (s : State) (e : Eff) (base : Fibre → Int) (req : Fibre → W64) : State :=
  let x := s.here
  let bad := s.cur.lanes.filter (fun l => let n := base (x.fibre l); decide (n < 0 ∨ n > 15 ∨ n * 32 + 96 > (x.budget : Int)))
  if !bad.isEmpty then s.precise 11 2 ((req (x.fibre (firstLane bad))).toNat % 2 ^ 14) 0 bad (x.fibre (firstLane bad)).fstk
  else (s.mapLanes s.cur.g s.cur.lanes (fun _ b => { b with cw := { b.cw with wb := BitVec.ofInt 4 (base b) } })).complete x e (fun _ => [])

/-- WIN with an immediate (R81). -/
def execWin (m : Mods) (i : BitVec 7) (s : State) : Host.Outcome State Fault Refusal :=
  .next (s.plain (.win m i) (fun e s => s.window e (fun _ => (riImm m i).toInt) (fun _ => riImm m i)))
/-- WIN `.k` (R81). -/
def execWinK (m : Mods) (a : BitVec 7) (s : State) : Host.Outcome State Fault Refusal :=
  .next (s.plain (.winK m a) (fun e s => s.control 0 (fun _ _ b => [ctlK b 0 a.toNat]) (fun s =>
    s.window e (fun b => (b.kReg (a.toNat - 96)).val.toInt) (fun b => (b.kReg (a.toNat - 96)).val))))
/-- WADD of the window (R81). -/
def execWadd (m : Mods) (i : BitVec 7) (s : State) : Host.Outcome State Fault Refusal :=
  .next (s.plain (.wadd m i) (fun e s => s.window e (fun b => (b.cw.wb.toNat : Int) + (riImm m i).toInt)
    (fun b => BitVec.ofNat 64 b.cw.wb.toNat + riImm m i)))

end Sys2Proof.Machine
end

