-- ==== Sys2Proof/Machine/System.lean ====
section
/-! DEFINITION. The system instructions and registers (R129 to R145), and the events of a halt: the halt line, engines at rest, the stop
area, pre-emption and resumption (R120 to R139). -/

namespace Sys2Proof.Machine

/-- A destination written in every fibre of the issue set, its holders released first (R231). -/
def State.setDest (s : State) (d : Dst) (v : Nat → Fibre → Val) : State :=
  let x := s.here
  let s := s.cur.lanes.foldl (fun t l => t.releaseHolders s.cur.g (x.fibre l).uid (d.regs (x.fibre l)) true) s
  s.mapLanes s.cur.g s.cur.lanes (fun l b => d.write b (v l (x.fibre l)))

-- ## System registers

/-- The fibre control word as 64 bits (R24). -/
def Fcw.word (c : Fcw) : W64 := 0#32 ++ bit c.x ++ bit c.ja ++ c.wb ++ 0#2 ++ c.qp ++ c.qg ++ c.q
/-- A control word from 64 bits; reserved bits are ignored (R140). -/
def Fcw.ofWord (w : W64) : Fcw :=
  ⟨w.getLsbD 31, w.getLsbD 30, w.extractLsb' 26 4, w.extractLsb' 16 8, w.extractLsb' 8 8, w.extractLsb' 0 8⟩

/-- ASK of RATIO: the smallest ratio asked for (R363, R379). -/
def Track.ask (t : Track) : Nat := t.asks.vals.foldl Nat.min 16
/-- A track of a core. -/
def Core.track (c : Core) (t : Nat) : Track := c.tracks.get t Track.reset
/-- CEIL of a track: the ceiling of power control, or 4 while its die is too hot (R379, R382). -/
def State.ceilOf (s : State) (core track : Nat) : Nat := if (s.die (dieOf core)).hot then 4 else ((s.core core).track track).ceil
/-- RATIO (R379). -/
def State.ratioWord (s : State) (core track : Nat) : W64 :=
  let t := (s.core core).track track
  BitVec.ofNat 64 (t.ask * 2 ^ 16 + s.ceilOf core track * 2 ^ 8 + t.cur)
/-- TSTAT (R130). -/
def tstat (pl h m f : Bool) : W64 := 0#60 ++ bit pl ++ bit h ++ bit m ++ bit f

/-- A system register as SRD reads it in one fibre (R140). -/
def State.sysReg (s : State) (x : Group) (b : Fibre) (n : Nat) : W64 :=
  let c := s.ctx x.ctx
  match n with
  | 0x00 => x.fpmode.setWidth 64
  | 0x01 => b.glim.setWidth 64
  | 0x02 => b.fstk
  | 0x03 => x.warn.setWidth 64
  | 0x04 => BitVec.ofNat 64 (s.grid x.grid).energy
  | 0x05 => BitVec.ofNat 64 (c.lockLimit * 2 ^ 16 + c.lockUsed)
  | 0x06 => BitVec.ofNat 64 (x.ctx % 2 ^ 32)
  | 0x07 => BitVec.ofNat 64 c.vf
  | 0x08 => s.ratioWord x.core x.track
  | 0x09 => c.stopBase ||| BitVec.ofNat 64 c.stopSize
  | 0x10 => c.entry ++ 0#1 ++ bit c.d
  | 0x11 => tstat c.pl.isSome x.h x.m b.faulted
  | 0x12 => x.cause.setWidth 64
  | 0x13 => x.det0.setWidth 64
  | 0x14 => x.det1.setWidth 64
  | 0x15 => x.det2.setWidth 64
  | 0x16 => b.epc
  | 0x17 => b.fcw.word
  | 0x18 => b.tsc0.val
  | 0x19 => b.tsc1.val
  | _ => 0

/-- The rights of R140: 0 always, 1 in the handler, 2 never. -/
def sysRight (n : Nat) : Nat :=
  if n = 0 ∨ n = 1 ∨ n = 3 then 0 else if n = 2 ∨ n = 0x10 ∨ (0x12 ≤ n ∧ n ≤ 0x19) then 1 else 2

/-- FPMODE as it is written: reserved bits are ignored and a mode of 6 or 7 stores 0 (R154). -/
def fpmodeWord (w : W32) : W32 := if w &&& 7 = 6 ∨ w &&& 7 = 7 then w &&& 0x7DF0 else w &&& 0x7DF7

/-- One fibre with a register of its own written (R140). -/
def Fibre.writeSys (b : Fibre) (n : Nat) (v : W64) : Fibre :=
  match n with
  | 0x01 => { b with glim := v.setWidth 24 }
  | 0x02 => { b with stackBase := (v >>> 12).setWidth 52, depth := (v >>> 3).setWidth 9 }
  | 0x16 => if v = b.epc then b else { b with epc := v, fcw := { b.fcw with ja := false }, savedWait := .free, savedWords := 0 }
  | 0x17 =>
    let c := Fcw.ofWord v
    { b with fcw := if c.q = b.fcw.q ∧ c.qg = b.fcw.qg ∧ c.qp = b.fcw.qp then c else { c with ja := false } }
  | 0x18 => { b with tsc0 := ⟨v, false, false⟩ }
  | 0x19 => { b with tsc1 := ⟨v, false, false⟩ }
  | _ => b

/-- A group with a register of its own written (R140). -/
def Group.writeSys (x : Group) (n : Nat) (v : W64) : Group :=
  match n with
  | 0x00 => { x with fpmode := fpmodeWord (v.setWidth 32) }
  | 0x03 => { x with warn := v.setWidth 32 &&& 0x1FF }
  | 0x12 => { x with cause := (x.cause &&& 0xC0) ||| (v.setWidth 32 &&& 0x1F) }
  | 0x13 => { x with det0 := v.setWidth 32 }
  | 0x14 => { x with det1 := v.setWidth 32 }
  | 0x15 => { x with det2 := v.setWidth 32 }
  | _ => x

/-- A system register written for one lane of the issuing group (R140). -/
def State.writeSys (s : State) (n lane : Nat) (v : W64) : State :=
  if n = 0x10 then
    { s with ctxs := s.ctxs.adjust s.here.ctx (fun c => { c with entry := (v >>> 2).setWidth 62 }) }
  else
    let links := match n with | 0x18 => [⟨.k, 16⟩] | 0x19 => [⟨.k, 17⟩] | _ => []
    let s := s.releaseHolders s.cur.g (s.here.fibre lane).uid links true
    (s.updGroup s.cur.g (fun x => x.writeSys n v)).updFibre s.cur.g lane (fun b => b.writeSys n v)

/-- The register number of SRD and SWR (R49, R140). -/
def sysNumberOf (m : Mods) (n : BitVec 7) : Nat := (riImm m n).toNat

/-- SRD (R140). -/
def execSrd (m : Mods) (d n : BitVec 7) (s : State) : Host.Outcome State Fault Refusal :=
  .next (s.plain (.srd m d n) (fun e s =>
    let x := s.here
    (s.setDest (.k d.toNat) (fun _ b => Val.of (s.sysReg x b (sysNumberOf m n)).toNat)).complete x e (Dst.k d.toNat).regs))

/-- The three writes of SWR (R140): the rights first, then the source, then the window base of FCW; `f` combines the register and the
source. -/
def State.swr (s : State) (i : Instr) (m : Mods) (a n : BitVec 7) (f : W64 → W64 → W64) : State :=
  s.plain i (fun e s =>
    let r := sysNumberOf m n
    if sysRight r = 2 ∨ (sysRight r = 1 ∧ !s.here.h) then s.illegalHere 12
    else s.control 0 (fun _ _ b => [ctlK b 0 a.toNat]) (fun s =>
      let x := s.here
      let new := fun (l : Nat) => f (s.sysReg x (x.fibre l) r) ((x.fibre l).kReg (a.toNat - 96)).val
      let bad := s.cur.lanes.filter (fun l => r == 0x17 && decide ((Fcw.ofWord (new l)).wb.toNat * 32 + 96 > x.budget))
      if !bad.isEmpty then s.precise 11 2 (Fcw.ofWord (new (firstLane bad))).wb.toNat 0 bad (x.fibre (firstLane bad)).fstk
      else
        (s.cur.lanes.foldl (fun (t : State) l =>
          t.writeSys r l (f (t.sysReg t.here (t.here.fibre l) r) ((x.fibre l).kReg (a.toNat - 96)).val)) s).complete x e (fun _ => [])))

/-- SWR (R140). -/
def execSwr (m : Mods) (a n : BitVec 7) (s : State) : Host.Outcome State Fault Refusal :=
  .next (s.swr (.swr m a n) m a n (fun _ v => v))
/-- SWR `.or` (R140). -/
def execSwrOr (m : Mods) (a n : BitVec 7) (s : State) : Host.Outcome State Fault Refusal :=
  .next (s.swr (.swrOr m a n) m a n (fun r v => r ||| v))
/-- SWR `.clr` (R140). -/
def execSwrClr (m : Mods) (a n : BitVec 7) (s : State) : Host.Outcome State Fault Refusal :=
  .next (s.swr (.swrClr m a n) m a n (fun r v => r &&& ~~~v))

-- ## TMSK, TRAP, BREAK, ASSERT, TRET, HALT

/-- TMSK (R141). -/
def execTmsk (m : Mods) (d : BitVec 7) (i : BitVec 1) (s : State) : Host.Outcome State Fault Refusal :=
  .next (s.plain (.tmsk m d i) (fun e s =>
    let x := s.here
    let s := (s.setDest (.k d.toNat) (fun _ _ => Val.of (if x.m then 1 else 0))).complete x e (Dst.k d.toNat).regs
    let s := s.updGroup s.cur.g (fun x => { x with m := i == 1#1 })
    if i = 0#1 then s.serveLatched x.ctx else s))

/-- TRAP (R142): it completes, and its EPC is the next instruction. -/
def execTrap (m : Mods) (i : BitVec 7) (s : State) : Host.Outcome State Fault Refusal :=
  .next (s.plain (.trap m i) (fun e s =>
    let x := s.here
    let n := s.wordsAt x s.nextPc
    (s.complete x e (fun _ => [])).fault s.cur.g ⟨10, 1, 0, firstLane s.cur.lanes, 0, n, riImm m i, false⟩ s.cur.lanes false))

/-- BREAK (R142): a precise fault; with TVEC.D = 1 the supervisor takes it. -/
def execBrk (m : Mods) (i : BitVec 7) (s : State) : Host.Outcome State Fault Refusal :=
  .next (s.plain (.brk m i) (fun _ s => s.precise 10 0 0 0 s.cur.lanes (riImm m i)))

/-- ASSERT (R143). While a halt of the context is on its way it waits, and issues again afterwards. -/
def execAssertQ (m : Mods) (f : BitVec 1) (a b : BitVec 7) (s : State) : Host.Outcome State Fault Refusal :=
  .next (s.plain (.assertQ m f a b) (fun e s => s.control 0 (fun _ _ c => [ctlQ c 0 (a.toNat - 112)]) (fun s =>
    let x := s.here
    let fail := s.cur.lanes.filter (fun l => (x.fibre l).cw.q.getLsbD (a.toNat - 112) != (f == 0#1))
    if fail.isEmpty then s.complete x e (fun _ => [])
    else if !s.runs x.ctx s.cur.g then s
    else
      let l := firstLane fail
      let v := BitVec.ofNat 64 (s.readCode x l (x.fibre l) b.toNat 1).bits
      s.raiseHalt x.ctx 4 s.cur.g ⟨9, 0, l, l, 0, s.cur.words, v, false⟩ s.cur.lanes true s.cur.pc)))

/-- TRET (R144): each fibre waits until every live fibre of the group has issued it. -/
def execTret (m : Mods) (s : State) : Host.Outcome State Fault Refusal :=
  .next (s.plain (.tret m) (fun _ s =>
    if !s.here.h then s.illegalHere 15 else (s.wait s.cur.lanes .handler).checkReturn s.cur.g))

/-- HALT (R145): it completes, and then halts the context. Of several on one clock the header names the lowest group (R127). Where another halt is
on its way already, the context halts for it as its group next issues after the release (log entry 89). -/
def execHalt (m : Mods) (s : State) : Host.Outcome State Fault Refusal :=
  .next (s.plain (.halt m) (fun e s =>
    let x := s.here
    let ret := s.nextPc
    let later : Trap := { Trap.none with val := ret }
    let s := s.complete x e (fun _ => [])
    if s.runs x.ctx s.cur.g then s.raiseHalt x.ctx 3 s.cur.g Trap.none s.cur.lanes false ret
    else match s.sameClock x.ctx s.cur.g with
      | some h =>
        if h.reason = 3 then
          if x.place < (s.group h.group).place then s.updHalt x.ctx (fun h => { h with
            group := s.cur.g, lanes := s.cur.lanes, epc := ret, others := h.group :: h.others })
          else s.updHalt x.ctx (fun h => { h with others := s.cur.g :: h.others })
        else s.keep s.cur.g later s.cur.lanes
      | none => s.keep s.cur.g later s.cur.lanes))

-- ## The events of a halt (R120 to R128, R139)

/-- The signals and posts of a context that a core has sent and that have no reply. -/
def State.fabricWork (s : State) (ctx core : Nat) : Nat :=
  ((s.signals.vals.filter (fun q => q.ctx == ctx && q.core == core)).length)
    + ((s.posts.vals.filter (fun q => q.ctx == ctx && q.core == core)).length)

/-- The engines of a core with work of a context (R120, R128). -/
def State.engines (s : State) (ctx core : Nat) : List Due :=
  let c := s.core core
  let tracks := ascending ((s.groups.vals.filter (fun x => x.ctx == ctx && x.core == core)).map Group.track)
  let sfu := (c.results.vals.filter (fun r => r.ctx == ctx)).length
  let ls := c.loads.vals.any (fun l => l.ctx == ctx) || c.stores.vals.any (fun t => t.ctx == ctx) || c.atomics.vals.any (fun a => a.ctx == ctx)
    || c.tickets.vals.any (fun t => (s.group t.g).ctx == ctx)
  let fabric := s.fabricWork ctx core
  let open' := (s.calls.vals.filter (fun q => q.ctx == ctx && q.core == core)).length
  tracks.map (fun t => ⟨core, t, 0, 0⟩)
    ++ (if sfu = 0 then [] else [⟨core, 255, 1, (c.results.vals.filter (fun r => r.ctx == ctx && r.sfu)).length⟩])
    ++ (if ls then [⟨core, 255, 2, s.ids⟩] else [])
    ++ (if c.tileOps.vals.any (fun o => o.ctx == ctx) then [⟨core, 255, 3, 0⟩] else [])
    ++ (if c.copies.vals.any (fun o => o.ctx == ctx) then [⟨core, 255, 4, 0⟩] else [])
    ++ (if fabric + open' = 0 then [] else [⟨core, 255, 5, fabric⟩])

/-- The cores that a halt of a context has to bring to rest: those that hold a group of it or have work of it in flight (R120, R128). -/
def State.haltCores (s : State) (ctx : Nat) : List Nat :=
  ascending ((s.groups.vals.filter (fun x => x.ctx == ctx)).map Group.core ++ (s.signals.vals.filter (fun q => q.ctx == ctx)).map Signal.core
    ++ (s.posts.vals.filter (fun q => q.ctx == ctx)).map Post.core ++ (s.calls.vals.filter (fun q => q.ctx == ctx)).map Call.core
    ++ s.cores.keys.filter (fun n => !(s.engines ctx n).isEmpty))

/-- A halt in progress whose engines are coming to rest. -/
def State.stopping (s : State) (ctx : Nat) : Option Halt :=
  match (s.ctx ctx).halt with
  | some h => if h.phase = .stopping then some h else none
  | none => none

/-- HALT_LINE_ARRIVAL: from this clock the core issues nothing of the context (R120). -/
def execHaltLineArrival (ctx core : Nat) (s : State) : Host.Outcome State Fault Refusal :=
  match s.stopping ctx with
  | none => .next s
  | some h =>
    let new := (s.engines ctx core).filter (fun d => !h.due.any (fun e => e == d))
    let known := h.reached.any (fun p => p.1 == core)
    .next (if known ∧ h.due.any (fun d => d.core == core) then s
      else s.updHalt ctx (fun h => { h with reached := if known then h.reached else h.reached ++ [(core, s.clocks)], due := h.due ++ new }))

/-- A pending vector result retired (R156, R176, R195): its registers are released and its flags set, or the trap it holds is raised. -/
def State.retireResult (s : State) (core id : Nat) : State :=
  match (s.core core).results.find? id with
  | none => s
  | some r =>
    let s := s.updCore core (fun c => { c with results := c.results.del id })
    let s := r.locks.foldl (fun (t : State) p => t.updFibre r.g p.1 (fun b =>
      if b.uid = p.2.1 then { b with locks := b.locks.filter (fun k => !(k.reg == p.2.2)) } else b)) s
    let s := s.updGroup r.g (fun x => { x with fpmode := x.fpmode ||| r.flags })
    match r.trap with
    | some (t, lanes) => s.fault r.g t lanes true
    | none => s

/-- Whether the load-store engine of a core is at rest for a context: loads sent have landed, and accepted stores and atomics are performed
(R121). -/
def State.lsAtRest (s : State) (core ctx : Nat) : Bool :=
  let c := s.core core
  c.loads.vals.all (fun l => l.ctx != ctx || l.lanes.vals.all (fun e => !s.laneSent core l e))
  && c.stores.vals.all (fun t => t.ctx != ctx || t.level == 0 || decide (t.level ≥ 3) || t.scratch)
  && c.atomics.vals.all (fun a => a.ctx != ctx || a.lanes.vals.all (fun e => e.order.isNone))

/-- The tickets of a context's groups on a core. -/
def State.ticketsOf (s : State) (ctx core : Nat) : Map Ticket := (s.core core).tickets.keep (fun _ t => (s.group t.g).ctx == ctx)

/-- The index of the next element of a gather or scatter, as its table holds it (R341); 0 where the table cannot be read. -/
def State.nextIndex (s : State) (core : Nat) (c : Copy) : Nat :=
  match s.xlateNow c.ctx core (c.table + BitVec.ofNat 64 (4 * c.row)) .read with
  | .ok pa _ => ofBytes (s.ownBytes c.ctx pa (s.l2Read (dieOf core) pa 4).1)
  | _ => 0

/-- The next addresses of a copy: source, destination and what remains; the scattered side of a gather or scatter is at its next index (R338,
R341). -/
def State.position (s : State) (core : Nat) (c : Copy) : W64 × W64 × Nat :=
  let done := c.row * c.rowBytes + c.off
  let row := fun (base : W64) (pitch : Nat) => base + BitVec.ofNat 64 (c.row * pitch + c.off)
  let at' := fun (base : W64) => base + BitVec.ofNat 64 (s.nextIndex core c * c.rowBytes)
  (if c.kind = 2 then at' c.src else row c.src c.srcPitch, if c.kind = 3 then at' c.dst else row c.dst c.dstPitch, c.rows * c.rowBytes - done)

/-- The fields of a stop record: state, A, B and C (R128). -/
def State.stopFields (s : State) (ctx : Nat) (d : Due) : Nat × Nat × Nat × Nat :=
  let c := s.core d.core
  match d.eng with
  | 0 =>
    let gs := s.groups.vals.filter (fun x => x.ctx == ctx && x.core == d.core && x.track == d.track)
    let pcs := gs.flatMap (fun x => x.fibres.vals.map (fun b => b.pc.toNat))
    (gs.length, pcs.foldl Nat.min (pcs.headD 0), 0, 0)
  | 1 => (d.count, 0, 0, 0)
  | 2 =>
    let t := s.ticketsOf ctx d.core
    (t.length, (t.filter (fun p => p.1 ≥ d.count)).length, 0, 0)
  | 3 =>
    let i := match ((s.ctx ctx).images.keep (fun k _ => k / 8 == d.core)).vals with | i :: _ => i | [] => ⟨1, 0, []⟩
    ((c.tileOps.vals.filter (fun o => o.ctx == ctx)).length, (Config.saveImage s.free).toNat, i.version + i.length * 2 ^ 16, 0)
  | 4 =>
    let cs := c.copies.vals.filter (fun o => o.ctx == ctx)
    match cs with
    | o :: _ => let p := s.position d.core o; (cs.length, p.1.toNat, p.2.1.toNat, p.2.2)
    | [] => (0, 0, 0, 0)
  | _ => (d.count, (s.calls.vals.filter (fun q => q.ctx == ctx && q.core == d.core)).length, 0, 0)

/-- The quarters in flight on each track of a core scanned into the track's save image as the tile engine stops: those whose operands are written (R326).
The length is the header's, at most 16 KiB. -/
def State.freezeTiles (s : State) (ctx core : Nat) : State :=
  let written := fun (q : Quarter) => (q.b :: q.old :: q.a).all (fun r => match r with
    | some id => (match s.slots.find? id with | some v => v.writer.isNone | none => true) | none => true)
  let ops := (s.core core).tileOps.filter (fun p => p.2.ctx == ctx)
  let tracks := ascending ((s.groups.vals.filter (fun x => x.ctx == ctx && x.core == core)).map Group.track)
  let records := fun (t : Nat) => ops.flatMap (fun p => if (s.group p.2.g).track = t then
    (p.2.quarters.filter (fun q => !q.2.done && written q.2)).map (fun q => (p.1, q.1)) else [])
  let image := fun (t : Nat) => (⟨1, (Config.saveImage (s.free + 1 + t)).toNat % 16385, records t⟩ : SaveImage)
  { s with ctxs := s.ctxs.adjust ctx (fun c => { c with images := tracks.foldl (fun m t => m.put (core * 8 + t) (image t)) c.images }) }

/-- Whether an engine that is due can stop: what R121 lets complete has completed. -/
def State.canStop (s : State) (ctx : Nat) (d : Due) : Bool :=
  match d.eng with
  | 2 => s.lsAtRest d.core ctx
  | 4 => (s.core d.core).copies.vals.all (fun o => o.ctx != ctx || o.atBoundary)
  | 5 => s.fabricWork ctx d.core == 0
  | _ => true

/-- A stop record as one number by its engine: (die, core, track, engine) order (R126). -/
def Stop.place (t : Stop) : Nat := (t.core * 256 + t.track) * 8 + t.eng

/-- Whether a stop record stands before another: its engine stopped on an earlier clock, or on the same one and comes first (R126). -/
def Stop.precedes (r q : Stop) : Bool := decide (r.clock < q.clock ∨ (r.clock = q.clock ∧ r.place < q.place))

/-- A stop record put in its place (R126). -/
def insertStop : List Stop → Stop → List Stop
  | [], r => [r]
  | q :: t, r => if r.precedes q then r :: q :: t else q :: insertStop t r

/-- The bytes of a stop record (R128). -/
def Stop.bytes (t : Stop) : List Byte :=
  bytesOf 1 t.eng ++ bytesOf 1 (dieOf t.core) ++ bytesOf 1 (t.core % Config.coresPerDie) ++ bytesOf 1 t.track ++ bytesOf 4 t.fields.1
    ++ bytesOf 8 t.fields.2.1 ++ bytesOf 8 t.fields.2.2.1 ++ bytesOf 8 t.fields.2.2.2

/-- SZ of STOPA (R125). -/
def stopSizeOf (w : W64) : Nat := if 13 ≤ w.toNat % 32 ∧ w.toNat % 32 ≤ 20 then w.toNat % 32 else 13

/-- The stop records that fit in a stop area (R126). -/
def Ctx.stopRoom (c : Ctx) : Nat := (2 ^ c.stopSize - 0x1000) / 32

/-- The stop records of a halt written from a place on, as far as they fit and while the VF is alive; those without room are counted (R126, R127,
R375). -/
def State.writeStops (s : State) (ctx : Nat) (l : List Stop) (first : Nat) : State :=
  let c := s.ctx ctx
  let fit := Nat.min l.length c.stopRoom
  let due := (upTo fit).filter (fun i => decide (first ≤ i))
  let s := if (s.vf c.vf).alive then
      due.foldl (fun t i => match l[i]? with
        | some r => t.deviceWrite ctx (c.stopBase + BitVec.ofNat 64 (0x1000 + 32 * i)) r.bytes
        | none => t) s
    else s
  { s with ctxs := s.ctxs.adjust ctx (fun c => { c with nrec := fit, lost := l.length - fit }) }

/-- Whether a line of some bytes of the stop area of a context is held exclusive by a host, so that the device's writes to it wait (R280). -/
def State.stopHeld (s : State) (ctx off n : Nat) : Bool :=
  (linesOf off n).any (fun o => s.deviceHeld ctx ((s.ctx ctx).stopBase + BitVec.ofNat 64 o) 128)

/-- ENGINE_STOP: the engine comes to rest, its pending results retire, and it writes its stop record; records that belong after it move up (R121, R126 to
R128). -/
def execEngineStop (ctx core track engine : Nat) (s : State) : Host.Outcome State Fault Refusal :=
  match s.stopping ctx with
  | none => .next s
  | some h =>
    match h.due.find? (fun d => d.core == core && d.track == track && d.eng == engine) with
    | none => .next s
    | some d =>
      if h.hasStopped core track engine || !s.canStop ctx d || s.stopHeld ctx 0x1000 (32 * (h.stopped.length + 1)) then .next s
      else
        let s := if engine = 1 then ((s.core core).results.keep (fun _ r => r.ctx == ctx)).keys.foldl (fun t i => t.retireResult core i) s else s
        let s := if engine = 3 then s.freezeTiles ctx core else s
        let clock := match skidBound engine with | some n => Nat.min s.clocks (s.reachClock h core + n) | none => s.clocks
        let r : Stop := ⟨core, track, engine, clock, s.stopFields ctx d⟩
        let s := { s with free := s.free + 9 }
        let l := insertStop h.stopped r
        let s := s.updHalt ctx (fun h => { h with stopped := l })
        .next (s.writeStops ctx l (l.length - 1 - (h.stopped.filter r.precedes).length))

/-- Whether every engine of a halted context has stopped (R120). -/
def State.atRest (s : State) (ctx : Nat) (h : Halt) : Bool :=
  (s.haltCores ctx).all (fun n => h.reached.any (fun p => p.1 == n) && h.due.any (fun d => d.core == n))
  && h.due.all (fun d => h.hasStopped d.core d.track d.eng)

/-- The ring TYPE that a halt of a REASON reports (R373); none for the others. -/
def haltEvent (reason : Nat) : Option Nat := match reason with | 3 => some 4 | 4 => some 5 | 5 => some 3 | _ => none

/-- HALT_COMPLETION: the header is written, and the handler is entered or the supervisor is told (R120, R136, R138). -/
def execHaltCompletion (ctx : Nat) (s : State) : Host.Outcome State Fault Refusal :=
  match s.stopping ctx with
  | none => .next s
  | some h =>
    if !s.atRest ctx h || s.stopHeld ctx 0 64 then .next s
    else if h.reason = 0 then .next (s.enterHandler ctx h)
    else
      let s := if (s.vf (s.ctx ctx).vf).alive then s.writeHeader ctx h else s
      let s := (s.updHalt ctx (fun h => { h with phase := .supervisor })).parkGroups ctx none
      .next (match haltEvent h.reason with
        | some t => s.report (s.ctx ctx).vf t 0 (eventPlace (s.group h.group).core ctx)
        | none => s)

/-- CONTEXT_RESUME: a context that waits for the supervisor runs on, inside its handler where it halted there (R124, R139, R145); what newcomers have claimed
of its state is read back on demand (R369). One that the supervisor is ending does not run on. -/
def execContextResume (ctx : Nat) (s : State) : Host.Outcome State Fault Refusal :=
  match (s.ctx ctx).halt with
  | none => .next s
  | some h =>
    if h.phase ≠ .supervisor || (s.ctx ctx).ending then .next s
    else
      let s := s.shiftTimes ctx
      match h.running with
      | some g =>
        let s := s.updGroup g (fun x => if x.set = .neither then { x with set := .layby, entered := s.clocks, ages := [], aged := [] } else x)
        .next ((s.updHalt ctx (fun h => { h with phase := .handler g, since := s.clocks, stood := some (s.clocks, g), reached := h.reached.map (fun p => (p.1, s.clocks)) })).serveLatched ctx)
      | none => .next ((s.releaseHalt ctx).checkContext ctx)

/-- PREEMPTION_REQUEST (R139). One that finds another halt of the context on its way, or waiting for the supervisor, is latched too (log entry 120). -/
def execPreemptionRequest (ctx : Nat) (s : State) : Host.Outcome State Fault Refusal :=
  .next (if (s.ctxs.find? ctx).isNone then s
    else if s.canHalt ctx ∧ !s.anyMasked ctx then s.raiseHalt ctx 1 0 Trap.none [] false 0
    else { s with ctxs := s.ctxs.adjust ctx (fun c => { c with pl := some (c.pl.getD s.ticks) }) })

/-- PREEMPTION_TIMEOUT: 50,000 ticks after the request was latched (R139). -/
def execPreemptionTimeout (ctx : Nat) (s : State) : Host.Outcome State Fault Refusal :=
  match (s.ctx ctx).pl with
  | some t => .next (if s.ticks ≥ t + 50000 ∧ s.canHalt ctx then s.raiseHalt ctx 1 0 Trap.none [] false 0 else s)
  | none => .next s

/-- SUPERVISOR_STOP: the supervisor stops a context, with REASON 2 (R127). -/
def execSupervisorStop (ctx : Nat) (s : State) : Host.Outcome State Fault Refusal :=
  .next (if (s.ctxs.find? ctx).isSome ∧ s.canHalt ctx then s.raiseHalt ctx 2 0 Trap.none [] false 0 else s)

/-- PENDING_RESULT_RETIRE: a result retires after its latency (R156, R176, R195). -/
def execPendingResultRetire (core res : Nat) (s : State) : Host.Outcome State Fault Refusal := .next (s.retireResult core res)

end Sys2Proof.Machine
end

