-- ==== Sys2Proof/Machine/Loads.lean ====
section
/-! DEFINITION. Loads, limits and guesses: the load instructions, PF, and the events by which their data, their deadlines, their truths and
the fills of the L1 arrive (R222 to R235, R273, R279). -/

namespace Sys2Proof.Machine

-- ## Forms (R225, R233)

/-- How many consecutive registers a form writes. -/
def LoadForm.rows : LoadForm → Nat
  | .pair => 2 | .quad => 4 | _ => 1

/-- The value placed in the destination, from the bytes read and the scale byte (R225, R227). -/
def LoadForm.value (f : LoadForm) (lane raw scale : Nat) : Nat :=
  match f with
  | .v bytes signed => if signed then ofInt 32 (toSigned (8 * bytes) raw) else raw
  | .x fmt => ldxWord fmt lane raw scale
  | _ => raw

/-- The guess placed in the destination (R233). -/
def LoadForm.guess (f : LoadForm) (g : Nat) : Nat :=
  match f with
  | .v bytes signed => if signed then ofInt 32 (toSigned (8 * bytes) g) else g % 2 ^ (8 * bytes)
  | .pair => g % 2 ^ 64
  | .quad => (upTo 4).foldl (fun v i => v + g % 2 ^ 32 * 2 ^ (32 * i)) 0
  | .k bytes => g % 2 ^ (8 * bytes)
  | .x _ => g % 2 ^ 32

/-- A truth as the value-guess table takes it: element 0 of an LDV (R234). -/
def LoadForm.first (f : LoadForm) (v : Nat) : Nat := match f with | .quad => v % 2 ^ 32 | _ => v

/-- The part of a ticket's truth that belongs to one holder (R231). -/
def LoadForm.part (f : LoadForm) (v i : Nat) : Nat := match f with | .quad => v / 2 ^ (32 * i) % 2 ^ 32 | _ => v

/-- The registers a form writes from the first one on. -/
def LoadForm.regs (f : LoadForm) (r : Reg) : List Reg := (upTo f.rows).map (fun i => ⟨r.file, r.idx + i⟩)

/-- A value written from a register on. -/
def Fibre.land (b : Fibre) (r : Reg) (rows : Nat) (v : Val) : Fibre :=
  match r.file with
  | .v => b.writeRows v r.idx v.bits rows
  | .k => b.writeK r.idx v
  | .w => b.writeW r.idx v
  | .q => b.writeQ r.idx v

-- ## Loads in flight

/-- A load in flight changed. -/
def State.updLoad (s : State) (core id : Nat) (f : Load → Load) : State := s.updCore core (fun c => { c with loads := c.loads.adjust id f })
/-- One lane of a load changed. -/
def State.updLane (s : State) (core id lane : Nat) (f : LaneLoad → LaneLoad) : State :=
  s.updLoad core id (fun l => { l with lanes := l.lanes.adjust lane f })

/-- A result written in the lane's fibre, if it is still the one that issued the load, and its interlock released (R16). -/
def State.landReg (s : State) (g lane uid : Nat) (r : Option Reg) (form : LoadForm) (v : Val) : State :=
  match r with
  | none => s
  | some r =>
    let s := s.releaseHolders g uid (form.regs r) true
    s.updFibre g lane (fun b =>
      if b.uid = uid then { b.land r form.rows v with locks := b.locks.filter (fun k => !hasReg (form.regs r) k.reg) } else b)

/-- The value-guess table updated by a load whose truths are in (R234). -/
def State.updateGuess (s : State) (core : Nat) (l : Load) : State :=
  let idx := l.pc.toNat / 4 % 1024
  let ts := (l.lanes.filter (fun p => !p.2.guessed)).map (fun p => (p.1, p.2.form.first (p.2.truth.getD 0)))
  match ts with
  | [] => s
  | (l0, t0) :: rest =>
    let old := match (s.core core).guesses.find? idx with | some e => e.stride | none => 0
    let stride := match rest with | (_, t1) :: _ => BitVec.ofNat 64 t1 - BitVec.ofNat 64 t0 | [] => old
    let base := BitVec.ofNat 64 t0 - stride * BitVec.ofNat 64 l0
    s.updCore core (fun c => { c with guesses := c.guesses.put idx ⟨l.ctx, base, stride⟩ })

/-- Whether a lane of a load still waits for its value. -/
def Load.open (l : Load) : Bool := l.lanes.vals.any (fun e => e.state == LaneState.waiting)

/-- What follows once a lane of a load has changed: the counter, where the last destination has been written (R19); the value-guess table,
where the last truth is in (R234); and the end of the load. `was` says whether a destination was open before. -/
def State.settleLoad (s : State) (core id : Nat) (was : Bool) : State :=
  match (s.core core).loads.find? id with
  | none => s
  | some l =>
    let s := if was && !l.open then s.updGroup l.g (fun x => { x with loads := x.loads - 1 }) else s
    let known := l.updates && l.lanes.vals.all (fun e => e.guessed || e.truth.isSome)
    let s := if known then (s.updateGuess core l).updLoad core id (fun l => { l with updates := false }) else s
    if l.lanes.vals.all (fun e => e.state == LaneState.landed) then s.updCore core (fun c => { c with loads := c.loads.del id }) else s

/-- VGuess of a lane (R233). -/
def Core.vguess (c : Core) (l : Load) (lane : Nat) : Nat :=
  match c.guesses.find? (l.pc.toNat / 4 % 1024) with
  | some e => if e.ctx = l.ctx then (e.base + e.stride * BitVec.ofNat 64 lane).toNat else 0
  | none => 0

/-- The holders of a lane that guesses (R231). -/
def LaneLoad.holders (e : LaneLoad) (g guess : Nat) : List Holder :=
  match e.reg with
  | none => []
  | some r => match e.form with
    | .quad => (upTo 4).map (fun i => ⟨g, e.uid, ⟨r.file, r.idx + i⟩, 1, guess / 2 ^ (32 * i) % 2 ^ 32, i⟩)
    | f => [⟨g, e.uid, r, f.rows, guess, 0⟩]

/-- One lane that has no ticket yet takes one, with its guess (R226, R230, R231); an element of a fibre that has quit holds none. -/
def State.takeTicket (s : State) (core id : Nat) (l : Load) (lane : Nat) (e : LaneLoad) : State :=
  let g := e.form.guess ((s.core core).vguess l lane)
  let live := (s.group l.g).fibres.vals.any (fun b => b.uid == e.uid)
  let t : Ticket := ⟨l.g, id, lane, l.seq, e.pa.getD 0, l.bytes, e.mtype, e.form, none, if live then e.holders l.g g else []⟩
  let s := s.landReg l.g lane e.uid e.reg e.form ⟨g, true, e.mp⟩
  let s := s.updCore core (fun c => { c with tickets := c.tickets.put s.ids t })
  { s.updLane core id lane (fun e => { e with state := .ticket s.ids }) with ids := s.ids + 1 }

/-- What happens at a deadline of a load (R224, R230): its guessed-address lanes receive VGuess, its other lanes that have no data receive
guesses with tickets, or all fall back to demand where too few tickets are free. A lane without a destination waits on. -/
def State.expire (s : State) (core id limit : Nat) : State :=
  match (s.core core).loads.find? id with
  | none => s
  | some l =>
    let due : List (Nat × LaneLoad) := l.lanes.filter (fun p => p.2.limit == limit && p.2.state == LaneState.waiting && !p.2.demand)
    let s := due.foldl (fun t p => if p.2.guessed && p.2.reg.isSome then
        (t.landReg l.g p.1 p.2.uid p.2.reg p.2.form ⟨p.2.form.guess ((s.core core).vguess l p.1), true, p.2.mp⟩).updLane core id p.1 (fun e => { e with state := .landed })
      else t) s
    let need := due.filter (fun p => !p.2.guessed && p.2.reg.isSome)
    let none' := due.filter (fun p => p.2.reg.isNone)
    let s := none'.foldl (fun t p => t.updLane core id p.1 (fun e => { e with demand := true })) s
    let s := if (s.core core).tickets.length + need.length ≤ Config.tickets then need.foldl (fun t p => t.takeTicket core id l p.1 p.2) s
      else need.foldl (fun t p => t.updLane core id p.1 (fun e => { e with demand := true })) s
    s.settleLoad core id l.open

/-- Whether the deadline of a lane has passed (R224). -/
def LaneLoad.late (e : LaneLoad) (ticks t0 : Nat) : Bool := e.limit != 0 && !e.demand && decide (ticks > t0 + e.limit)

/-- The truth of a ticket arrives: the holders whose guess differs set the guess-miss bits of their fibres (R232). -/
def State.truthFor (s : State) (core ticket v : Nat) (p : Bool) : State :=
  match (s.core core).tickets.find? ticket with
  | none => s
  | some t =>
    let wrong := t.holders.filter (fun h => p || t.form.part v h.part != h.guess)
    let s := wrong.foldl (fun u h => u.mapLanes h.g (u.group h.g).live (fun _ b => if b.uid = h.uid then { b with gm := true } else b)) s
    s.updCore core (fun c => { c with tickets := c.tickets.put ticket { t with truth := some (v, p) } }.reapTickets)

/-- The lanes of a fibre's loads after a number that wait on a fill sent on their own way: an acquire orders them after itself (R279). -/
def State.unhookAfter (s : State) (core g uid seq : Nat) : State :=
  s.updCore core (fun c => { c with loads := c.loads.mapVals (fun _ l => if l.g = g ∧ seq < l.seq then
    { l with lanes := l.lanes.mapVals (fun _ e => if e.uid = uid then { e with onFill := false } else e) } else l) })

/-- The data of a lane reach the load-store engine: they are written as the truth, kept by its ticket, or discarded (R226). -/
def State.deliver (s : State) (core id lane v : Nat) (p : Bool) : State :=
  match (s.core core).loads.find? id with
  | none => s
  | some l0 =>
    let s := match l0.lanes.find? lane with
      | some e => if e.state == LaneState.waiting && e.late s.ticks l0.t0 then s.expire core id e.limit else s
      | none => s
    match (s.core core).loads.find? id with
    | none => s
    | some l => match l.lanes.find? lane with
      | none => s
      | some e =>
        let s := match e.state with
          | .waiting => (s.landReg l.g lane e.uid e.reg e.form ⟨v, e.guessed || e.mg, p || e.mp⟩).settleGm l.g
          | .ticket t => s.truthFor core t v p
          | .landed => s
        let s := s.updLane core id lane (fun e => { e with state := .landed, truth := some v, onFill := false })
        let cores := (s.teamOf (s.group l.g)).cores.length
        let s := match l.acquire with
          | some scope => (s.acquireL1 core scope cores).unhookAfter core l.g e.uid l.seq
          | none => s
        s.settleLoad core id l.open

-- ## Reading

/-- Bytes of the scratch window of a context, and whether a word of them is flagged (R197, R228). -/
def State.scratchRead (s : State) (core ctx off n : Nat) : List Byte × Bool :=
  let c := s.core core
  ((upTo n).map (fun i => (c.scratch.get ctx []).get (off + i) 0), (upTo n).any (fun i => has (c.flagged.get ctx []) ((off + i) / 4 * 4)))

/-- The value of one lane, from the lines that `line` gives. -/
def State.laneValue (s : State) (core : Nat) (l : Load) (lane : Nat) (e : LaneLoad) (line : Nat → L1Line) : Nat × Bool :=
  let pa := e.pa.getD 0
  if l.scratch then
    let r := s.scratchRead core l.ctx pa l.bytes
    (e.form.value lane (ofBytes r.1) 0, r.2)
  else
    let r := s.overlay l.ctx core pa l.bytes line
    let k := match e.scale with | some a => s.coreRead l.ctx core a 1 e.mtype e.l1 | none => ([], false)
    (e.form.value lane (ofBytes r.1) (ofBytes k.1), r.2 || k.2)

/-- The lanes of a fibre that wait on the fill of a line sent on their own way, since the fibre has read the L2 past it (R265). -/
def State.unhook (s : State) (core la uid : Nat) : State :=
  s.updCore core (fun c => { c with loads := c.loads.mapVals (fun _ l => { l with lanes := l.lanes.mapVals (fun _ e =>
    if e.uid = uid && e.onFill && lineOf (e.pa.getD 0) == la then { e with onFill := false } else e) }) })

/-- The lines that a lane reads beyond the L1: those of its bytes and of its scale byte that the L1 does not give it (R274, R295). -/
def Core.missed (c : Core) (e : LaneLoad) : List Nat :=
  ((e.spans 1).map (fun r => lineOf r.1)).filter (fun la => !(e.l1 && (c.l1.find? la).isSome))

/-- The data of one lane of an ordinary load arrive from scratch, the L1, or through the core's port the L2 or the home (R224, R226, R269, R274,
R280, R370). -/
def State.arrive (s : State) (core id lane : Nat) : State :=
  match (s.core core).loads.find? id with
  | none => s
  | some l => match l.lanes.find? lane with
    | none => s
    | some e =>
      if !s.laneReady core l e then s
      else
        let out := if l.scratch then [] else ((s.core core).missed e).foldl addOnce []
        let finish := fun (s : State) =>
          let r := s.laneValue core l lane e (fun la => s.lineFor core la e.mtype e.l1)
          (if l.scratch then s.recallScratch core l.ctx (e.pa.getD 0) l.bytes else s).deliver core id lane r.1 r.2
        if out.isEmpty then finish s
        else if e.host && out.any s.hostHolds then s
        else s.send l.ctx core ((tokens l.bytes) * out.length) ⟨0, id, lane⟩ (fun s =>
          let s := s.reportReads l.ctx core out
          finish (if e.mtype = 2 then out.foldl (fun t la => t.countPacket la e.conf) s else out.foldl (fun t la =>
            ((t.readLine (dieOf core) la e.pol e.l2 e.conf).allocL1 core la l.g e.pol e.l1).unhook core la e.uid) s))

-- ## The instructions

/-- What a load instruction gives the common execution of R226. -/
structure LoadIns where
  ins : Instr
  lim : Nat
  base : Nat
  pol : Nat
  off : W64
  bytes : Nat
  form : LoadForm
  dst : Dst
  scratch : Bool

/-- The limit of a class (R222). -/
def limitOf (lim : Nat) (b : Fibre) : Nat :=
  match lim with | 0 => 0 | 1 => 64 | 2 => 128 | 3 => 256 | 4 => 512 | 5 => 1024 | 6 => 4096 | _ => b.glim.toNat

/-- The WARN bit of a load's policy that its page does not allow (R214). -/
def loadPolWarn (p : Page) (pol : Nat) : Bool := (pol == 1 && !p.l1Ok) || (pol == 2 && !(p.l1Ok && p.alloc == 0))
/-- The policy in force (R214). -/
def polIn (p : Page) (pol : Nat) : Nat := if pol = 2 ∧ p.alloc = 1 then 0 else if pol = 3 then 0 else pol

/-- The check of an LDX on an FMT 6 page: its word lies below the scales (R293). -/
def ldxCheck (form : LoadForm) (va : W64) (p : Page) : Option Nat :=
  match form with
  | .x _ => if p.fmt = 6 ∧ va.toNat % 2 ^ p.bits + 4 > 7 * 2 ^ p.bits / 8 then some 3 else none
  | _ => none

/-- The form with the FMT of the page (R227). -/
def LoadForm.on (f : LoadForm) (p : Page) : LoadForm := match f with | .x _ => .x p.fmt | r => r

/-- The fault of a scratch offset: alignment, then range (R197). -/
def scratchFault (size n : Nat) (off : W64) : Option Nat :=
  if off.toNat % n ≠ 0 then some 2 else if off.toNat + n > size then some 1 else none

/-- The first lane of a list that has a scratch fault: every lane's alignment is checked before a range (R197). -/
def scratchBad (size n : Nat) (lanes : List (Nat × W64)) : Option (Nat × Nat) :=
  match lanes.filter (fun p => scratchFault size n p.2 == some 2), lanes.filter (fun p => (scratchFault size n p.2).isSome) with
  | p :: _, _ => some (p.1, 2)
  | [], p :: _ => some (p.1, 1)
  | [], [] => none

/-- The fault of a translation that failed, raised for one lane (R133, R206, R210). -/
def State.memFault (s : State) (ctx eng info lane sub : Nat) (va : W64) : State := (s.precise 4 sub info eng [lane] va).forget ctx va
/-- One active lane of a load as it is sent. -/
def State.sendLane (s : State) (z : LoadIns) (e : Eff) (x : Group) (t : Option (Nat × Page)) (lane : Nat) (a : Val) : LaneLoad :=
  let b := x.fibre lane
  let m := b.maskBit e.mask
  let p := t.map Prod.snd
  let pa := if z.scratch then (if (scratchFault (s.ctx x.ctx).scratch z.bytes (BitVec.ofNat 64 a.bits)).isSome then none else some a.bits) else t.map Prod.fst
  { uid := b.uid, va := BitVec.ofNat 64 a.bits, pa := pa, mtype := (p.map Page.mtype).getD 0,
    l1 := (p.map Page.l1Ok).getD false && z.pol != 3, l2 := (p.map Page.l2Ok).getD false, pol := (p.map (fun p => polIn p z.pol)).getD 0,
    scale := match p, z.form with
      | some p, .x _ => if p.fmt = 6 then some (p.pa + 7 * 2 ^ p.bits / 8 + a.bits % 2 ^ p.bits / 8) else none
      | _, _ => none,
    guessed := a.g, limit := limitOf z.lim b, form := match p with | some p => z.form.on p | none => z.form,
    reg := (z.dst.regs b).head?, mg := m.g, mp := m.p, state := .waiting, demand := false, onFill := false, truth := none,
    host := (p.map Page.consults).getD false, conf := (p.map Page.conf).getD false, sent := none, fails := 0 }

/-- The fills a load asks for: each line of its lanes that the L1 may hold and does not (R200, R279). -/
def State.askFills (s : State) (core id : Nat) : State :=
  match (s.core core).loads.find? id with
  | none => s
  | some l => l.lanes.foldl (fun t p =>
      let e := p.2
      let la := lineOf (e.pa.getD 0)
      if l.scratch || e.pa.isNone || e.state == LaneState.landed then t
      else
        let t := t.sample core l.g la
        if !e.l1 || ((t.core core).l1.find? la).isSome then t
        else match (t.core core).fills.find? la with
          | some f => if f.install then t.updLane core id p.1 (fun e => { e with onFill := true }) else t
          | none => (t.updCore core (fun c => { c with fills := c.fills.put la ⟨none, true, l.g, e.pol, e.l2, e.host, l.ctx, e.conf⟩ })).updLane core id p.1 (fun e => { e with onFill := true })) s

/-- The masked-off fibres of a load: zeroed under mz, and tagged by their mask predicate (R53, R236). -/
def State.maskedOff (s : State) (e : Eff) (act : List Nat) (d : Dst) (old : Group) : State :=
  let off := s.cur.lanes.filter (fun l => !has act l)
  let s := s.zeroMasked e act d old
  s.mapLanes s.cur.g off (fun l b =>
    let m := (old.fibre l).maskBit e.mask
    if m.g || m.p then (d.regs b).foldl (fun b r => b.tagReg r m.g m.p) b else b)

/-- The load in flight made, with its interlocks, its counter and its fills, and VGuess at once for the guessed-address lanes that cannot read
(R16, R19, R209, R226). -/
def State.sendLoad (s : State) (z : LoadIns) (e : Eff) (x : Group) (act : List Nat) (pas : List (Nat × Nat × Page)) (addr : Nat → Val) : State :=
  let id := s.ids
  let lanes := act.map (fun l => (l, s.sendLane z e x (pageOfLane pas l) l (addr l)))
  let demand := lanes.all (fun p => p.2.limit == 0)
  let load : Load := ⟨s.cur.g, x.ctx, s.cur.pc, id, z.scratch, z.bytes, s.ticks, !z.scratch && z.lim != 0 && !demand && lanes.any (fun p => p.2.reg.isSome),
    none, [], lanes⟩
  if act.isEmpty then s
  else
    let s := { s.updCore x.core (fun c => { c with loads := c.loads.put id load }) with ids := id + 1 }
    let s := s.updGroup s.cur.g (fun x => { x with loads := x.loads + 1 })
    let s := s.mapLanes s.cur.g act (fun _ b => { b with locks := b.locks ++ (z.dst.regs b).map (fun r => ⟨r, true, s.clocks⟩) })
    let s := s.askFills x.core id
    let stuck := lanes.filter (fun p => p.2.pa.isNone)
    let s := stuck.foldl (fun t p =>
      (t.landReg load.g p.1 p.2.uid p.2.reg p.2.form ⟨p.2.form.guess ((t.core x.core).vguess load p.1), true, p.2.mp⟩).updLane x.core id p.1
        (fun e => { e with state := .landed })) s
    s.settleLoad x.core id true

/-- THE LOADS (R226, R228): a poisoned base first, then every lane that is not guessed translates and is checked, and then the load is
sent. -/
def State.load (s : State) (z : LoadIns) : State :=
  s.plain z.ins (fun e s =>
    let x := s.here
    let act := activeLanes s e
    let addr := fun (l : Nat) => let v := s.readCode x l (x.fibre l) z.base 1; (⟨(v.bits + z.off.toNat) % 2 ^ 64, v.g, v.p⟩ : Val)
    let va := fun (l : Nat) => BitVec.ofNat 64 (addr l).bits
    let poisoned := act.filter (fun l => (addr l).p)
    let sure := (act.filter (fun l => !(addr l).g)).map (fun l => (l, va l))
    let go := fun (pas : List (Nat × Nat × Page)) (s : State) =>
      let s := s.warn (warnIf (pas.any (fun p => loadPolWarn p.2.2 z.pol)) warnPol)
      let s := pas.foldl (fun t p => t.fillTlb x.ctx x.core (va p.1)) s
      let s := s.maskedOff e act z.dst x
      (s.sendLoad z e x act pas addr).complete x e z.dst.regs
    if !poisoned.isEmpty then s.precise 8 1 5 2 poisoned 0
    else if z.scratch then
      match scratchBad (s.ctx x.ctx).scratch z.bytes sure with
      | some (l, sub) => s.memFault x.ctx 2 0 l sub (va l)
      | none => go [] s
    else
      match s.reachWith x.ctx x.core .read z.bytes (ldxCheck z.form) sure with
      | .trap l sub => s.memFault x.ctx 2 0 l sub (va l)
      | .poisoned l => s.walkPoison 2 5 l (va l)
      | .replay ls => s.suspend z.ins e true z.dst.regs x.ctx sure ls
      | .ok pas =>
        if (act.filter (fun l => (addr l).g)).any (fun l => s.xlateAt x.ctx x.core .read z.bytes (ldxCheck z.form) (va l) == .held) then s else
        let free := (act.filter (fun l => (addr l).g)).filterMap (fun l =>
          match s.xlateAt x.ctx x.core .read z.bytes (ldxCheck z.form) (va l) with | .ok pa p => some (l, pa, p) | _ => none)
        go (pas ++ free) s)

/-- A load of the M layout. -/
def loadM (i : Instr) (m : Mods) (l : BitVec 3) (b : BitVec 7) (p : BitVec 2) (o : BitVec 5) (bytes : Nat) (form : LoadForm) (dst : Dst) : LoadIns :=
  ⟨i, l.toNat, b.toNat, p.toNat, offImm m o bytes, bytes, form, dst, false⟩

/-- LD .n8 (R225, R226). -/
def execLdN8 (m : Mods) (l : BitVec 3) (d b : BitVec 7) (p : BitVec 2) (o : BitVec 5) (s : State) : Host.Outcome State Fault Refusal :=
  .next (s.load (loadM (.ldN8 m l d b p o) m l b p o 1 (.v 1 false) (.v d.toNat 1)))
/-- LD .s8 (R225, R226). -/
def execLdS8 (m : Mods) (l : BitVec 3) (d b : BitVec 7) (p : BitVec 2) (o : BitVec 5) (s : State) : Host.Outcome State Fault Refusal :=
  .next (s.load (loadM (.ldS8 m l d b p o) m l b p o 1 (.v 1 true) (.v d.toNat 1)))
/-- LD .n16 (R225, R226). -/
def execLdN16 (m : Mods) (l : BitVec 3) (d b : BitVec 7) (p : BitVec 2) (o : BitVec 5) (s : State) : Host.Outcome State Fault Refusal :=
  .next (s.load (loadM (.ldN16 m l d b p o) m l b p o 2 (.v 2 false) (.v d.toNat 1)))
/-- LD .s16 (R225, R226). -/
def execLdS16 (m : Mods) (l : BitVec 3) (d b : BitVec 7) (p : BitVec 2) (o : BitVec 5) (s : State) : Host.Outcome State Fault Refusal :=
  .next (s.load (loadM (.ldS16 m l d b p o) m l b p o 2 (.v 2 true) (.v d.toNat 1)))
/-- LD, 32 bits (R225, R226). -/
def execLd32 (m : Mods) (l : BitVec 3) (d b : BitVec 7) (p : BitVec 2) (o : BitVec 5) (s : State) : Host.Outcome State Fault Refusal :=
  .next (s.load (loadM (.ld32 m l d b p o) m l b p o 4 (.v 4 false) (.v d.toNat 1)))
/-- LD, 64 bits (R225, R226). -/
def execLd64 (m : Mods) (l : BitVec 3) (d b : BitVec 7) (p : BitVec 2) (o : BitVec 5) (s : State) : Host.Outcome State Fault Refusal :=
  .next (s.load (loadM (.ld64 m l d b p o) m l b p o 8 .pair (.v d.toNat 2)))
/-- LDV (R225, R226). -/
def execLdv (m : Mods) (l : BitVec 3) (d b : BitVec 7) (p : BitVec 2) (o : BitVec 5) (s : State) : Host.Outcome State Fault Refusal :=
  .next (s.load (loadM (.ldv m l d b p o) m l b p o 16 .quad (.v d.toNat 4)))
/-- LDK (R225, R226). -/
def execLdk (m : Mods) (l : BitVec 3) (d b : BitVec 7) (p : BitVec 2) (o : BitVec 5) (s : State) : Host.Outcome State Fault Refusal :=
  .next (s.load (loadM (.ldk m l d b p o) m l b p o 8 (.k 8) (.k d.toNat)))
/-- LDX (R225 to R227). -/
def execLdx (m : Mods) (l : BitVec 3) (d b : BitVec 7) (p : BitVec 2) (o : BitVec 5) (s : State) : Host.Outcome State Fault Refusal :=
  .next (s.load (loadM (.ldx m l d b p o) m l b p o 4 (.x 0) (.v d.toNat 1)))

/-- The size and form that fn of LDS selects (R228). -/
def ldsForm (f : Nat) : Nat × LoadForm :=
  match f with | 0 => (1, .v 1 false) | 1 => (1, .v 1 true) | 2 => (2, .v 2 false) | 3 => (2, .v 2 true) | 4 => (4, .v 4 false) | _ => (8, .pair)

/-- LDS (R228). -/
def execLds (m : Mods) (f : BitVec 3) (d b : BitVec 7) (o : BitVec 5) (s : State) : Host.Outcome State Fault Refusal :=
  let z := ldsForm f.toNat
  .next (s.load ⟨.lds m f d b o, 0, b.toNat, 0, offImm m o z.1, z.1, z.2, .v d.toNat z.2.rows, true⟩)

/-- PF (R229): lines requested into the caches that the policy and the page allow, a line for the L2 alone as a fill that the L1 does not install; a
lane that cannot be served is dropped. -/
def execPf (m : Mods) (l : BitVec 3) (b : BitVec 7) (p : BitVec 2) (o : BitVec 5) (s : State) : Host.Outcome State Fault Refusal :=
  .next (s.plain (.pf m l b p o) (fun e s =>
    let x := s.here
    let act := activeLanes s e
    let addr := fun (l : Nat) => s.readCode x l (x.fibre l) b.toNat 1
    let poisoned := act.filter (fun l => (addr l).p)
    if !poisoned.isEmpty then s.precise 8 1 5 2 poisoned 0
    else
      let served := (act.filter (fun l => !(addr l).g)).filterMap (fun l =>
        match s.xlate x.ctx x.core (BitVec.ofNat 64 ((addr l).bits + (offImm m o 128).toNat)) .read with | .ok pa pg => some (pa, pg) | _ => none)
      let s := s.warn (warnIf (served.any (fun t => loadPolWarn t.2 p.toNat)) warnPol)
      let s := served.foldl (fun (t : State) q =>
        let la := lineOf q.1
        let t := t.sample x.core s.cur.g la
        let here := ((t.core x.core).l1.find? la).isSome || ((t.core x.core).fills.find? la).isSome
        let l1 := q.2.l1Ok && p != 3#2
        if here || !(l1 || q.2.l2Ok) then t
        else t.updCore x.core (fun c => { c with fills := c.fills.put la ⟨none, l1, s.cur.g, polIn q.2 p.toNat, q.2.l2Ok, q.2.consults, x.ctx, q.2.conf⟩ })) s
      s.complete x e (fun _ => [])))

-- ## The events of loads

/-- LOAD_DATA_ARRIVAL of an ordinary load (R226); a lane that waits on a fill has its data by L1_FILL_ARRIVAL. -/
def State.dataArrives (s : State) (core id lane : Nat) : State :=
  match (s.core core).loads.find? id with
  | some l => (match l.lanes.find? lane with | some e => if e.state == LaneState.waiting then s.arrive core id lane else s | none => s)
  | none => s

/-- DEADLINE_EXPIRY (R224, R230). -/
def execDeadlineExpiry (core load lane : Nat) (s : State) : Host.Outcome State Fault Refusal :=
  match (s.core core).loads.find? load with
  | none => .next s
  | some l => match l.lanes.find? lane with
    | none => .next s
    | some e => .next (if e.state == LaneState.waiting && e.late s.ticks l.t0 then s.expire core load e.limit else s)

/-- TICKET_TRUTH_ARRIVAL (R232): the access of a guessed load is performed. -/
def execTicketTruthArrival (core ticket : Nat) (s : State) : Host.Outcome State Fault Refusal :=
  match (s.core core).tickets.find? ticket with
  | none => .next s
  | some t => .next (if t.truth.isSome then s else s.arrive core t.load t.lane)

/-- L1_INVALIDATION_ARRIVAL (R273). -/
def execL1InvalidationArrival (core line : Nat) (s : State) : Host.Outcome State Fault Refusal :=
  .next (s.updCore core (fun c => c.applyInvalidation line))

/-- The lanes of a core that wait on the fill of a line. -/
def Core.onFill (c : Core) (la : Nat) : List (Nat × Nat) :=
  c.loads.flatMap (fun p => (p.2.lanes.filter (fun q => q.2.onFill && lineOf (q.2.pa.getD 0) == la)).map (fun q => (p.1, q.1)))

/-- A lane that waits on a fill consumes its data, or goes its own way where an earlier access of its fibre is not done, or its scale byte lies in
another line that the L1 does not hold (R279, R295). -/
def State.consume (s : State) (core la id lane : Nat) (line : L1Line) : State :=
  let s := s.updLane core id lane (fun e => { e with onFill := false })
  match (s.core core).loads.find? id with
  | none => s
  | some l => match l.lanes.find? lane with
    | none => s
    | some e =>
      let scaleHere := match e.scale with
        | some a => lineOf a == la || ((s.core core).l1.find? (lineOf a)).isSome
        | none => true
      if !s.laneReady core l e || !scaleHere then s
      else
        let r := s.laneValue core l lane e (fun a => if a = la then line else s.lineFor core a e.mtype e.l1)
        s.deliver core id lane r.1 r.2

/-- L1_FILL_ARRIVAL: the request goes out at the port and the L2 sends the line, and next it reaches the L1, where the waiting loads consume it and
it is installed unless an invalidation has overtaken it (R279, R370). -/
def execL1FillArrival (core line : Nat) (s : State) : Host.Outcome State Fault Refusal :=
  match (s.core core).fills.find? line with
  | none => .next s
  | some f => match f.sent with
    | none =>
      if f.host && s.hostHolds line then .next s
      else .next (s.send f.ctx core 2 ⟨1, line, 0⟩ (fun s =>
        let s := s.reportReads f.ctx core [line]
        let s := s.readLine (dieOf core) line f.pol f.l2 f.conf
        let refused := s.refusedRead (dieOf core) line
        s.updCore core (fun c => { c with fills := c.fills.adjust line (fun f =>
          { f with sent := some (s.l2Line (dieOf core) line), install := f.install && !refused }) })))
    | some l =>
      let waiting := (s.core core).onFill line
      let s := s.updCore core (fun c => { c with fills := c.fills.del line })
      let s := if f.install then s.install core line l f.g f.pol else s
      .next (waiting.foldl (fun t p => t.consume core line p.1 p.2 l) s)

-- ## Translation (R206 to R211)

/-- PAGE_WALK: a walk completes (R206); none is made for an address above 48 bits (R202). -/
def execPageWalk (ctx core : Nat) (va : W64) (s : State) : Host.Outcome State Fault Refusal :=
  .next (if va.toNat ≥ 2 ^ 48 then s else match s.pageOf ctx core va with
    | .page _ => s.fillTlb ctx core va
    | .missing => s.askSupervisor ctx va
    | _ => s)

/-- TRANSLATION_FAULT_RESOLVED: the waiting translations and the paused copies try again (R208, R337). -/
def execTranslationFaultResolved (ctx : Nat) (va : W64) (s : State) : Host.Outcome State Fault Refusal :=
  .next { s with
    ctxs := s.ctxs.adjust ctx (fun c => { c with faults := c.faults.filter (fun a => a != va), unresolved := c.unresolved.filter (fun a => a != va) }),
    cores := s.cores.mapVals (fun _ c => { c with copies := c.copies.mapVals (fun _ o => if o.ctx = ctx ∧ o.paused = some va then { o with paused := none } else o) }) }

/-- TRANSLATION_FAULT_UNRESOLVED: the instruction or copy that waits raises MEMORY with SUB 0 as it tries again (R208). -/
def execTranslationFaultUnresolved (ctx : Nat) (va : W64) (s : State) : Host.Outcome State Fault Refusal :=
  .next (if !(s.ctx ctx).faults.any (fun a => a == va) then s
    else { s with
      ctxs := s.ctxs.adjust ctx (fun c => { c with faults := c.faults.filter (fun a => a != va), unresolved := c.unresolved ++ [va] }),
      cores := s.cores.mapVals (fun _ c => { c with copies := c.copies.mapVals (fun _ o => if o.ctx = ctx ∧ o.paused = some va then { o with paused := none } else o) }) })

end Sys2Proof.Machine
end

