-- ==== Sys2Proof/Machine/Guess.lean ====
section
/-! DEFINITION. The guess instructions: GTEST, GACC, GDEM, GCHK and PTEST (R239, R240). -/

namespace Sys2Proof.Machine

/-- The registers that a and b name (R239). -/
def tagRegs (b : Fibre) (a s : BitVec 7) : List Reg :=
  if s = 1#7 then codeRegs b a.toNat 2 else if s = 2#7 then [⟨.w, a.toNat⟩] else codeRegs b a.toNat 1

/-- The element or pair that a and b name, as a value with its tags; codes 121 to 126 and z have clear tags (R239). -/
def State.tagged (s : State) (x : Group) (lane : Nat) (a b : BitVec 7) : Val :=
  let f := x.fibre lane
  if b = 2#7 then ⟨(f.wReg a.toNat).val.toNat, (f.wReg a.toNat).g, (f.wReg a.toNat).p⟩
  else s.readCode x lane f a.toNat (if b = 1#7 then 2 else 1)

/-- The holders linked in the registers of a fibre, with their tickets; a pair's link stands at its low half (R231). -/
def Core.links (c : Core) (g uid : Nat) (regs : List Reg) : List (Nat × Ticket × Holder) :=
  c.tickets.flatMap (fun p => (p.2.holders.filter (fun h => h.of g uid && hasReg regs h.reg)).map (fun h => (p.1, p.2, h)))

/-- The holders linked in the registers of a fibre released as accepted or demanded, without residue (R231). -/
def State.accept (s : State) (g uid : Nat) (regs : List Reg) : State :=
  s.updCore (s.group g).core (fun c =>
    { c with tickets := c.tickets.mapVals (fun _ t => { t with holders := t.holders.filter (fun h => !(h.of g uid && hasReg regs h.reg)) }) }.reapTickets)

/-- The active lanes with something written from their element into a predicate, their tags clear (R240); a predicate that is kept or zeroed under the
mask takes the tags of the mask (R236). -/
def State.testTags (s : State) (i : Instr) (d a b : BitVec 7) (f : Val → Bool) : State :=
  s.plain i (fun e s =>
    let x := s.here
    let act := activeLanes s e
    let dst := Dst.q d.toNat
    let s := s.mapLanes s.cur.g s.cur.lanes (fun l q =>
      let m := q.maskBit e.mask
      if has act l then dst.write q (Val.of (if f (s.tagged x l a b) then 1 else 0))
      else if e.mz then dst.write q ⟨0, m.g, m.p⟩
      else (dst.regs q).foldl (fun q r => q.tagReg r m.g m.p) q)
    s.complete x e dst.regs)

/-- GTEST (R240). -/
def execGtest (m : Mods) (d a sel : BitVec 7) (s : State) : Host.Outcome State Fault Refusal :=
  .next (s.testTags (.gtest m d a sel) d a sel Val.g)
/-- PTEST (R240). -/
def execPtest (m : Mods) (d a sel : BitVec 7) (s : State) : Host.Outcome State Fault Refusal :=
  .next (s.testTags (.ptest m d a sel) d a sel Val.p)

/-- GACC (R240): the guess is accepted. -/
def execGacc (m : Mods) (a sel : BitVec 7) (s : State) : Host.Outcome State Fault Refusal :=
  .next (s.plain (.gacc m a sel) (fun e s => s.control 2 (fun _ _ b => ctlMask b e.mask) (fun s =>
    let x := s.here
    let act := activeLanes s e
    let s := act.foldl (fun t l => t.accept s.cur.g (x.fibre l).uid (tagRegs (x.fibre l) a sel)) s
    (s.mapLanes s.cur.g act (fun _ b => (tagRegs b a sel).foldl Fibre.clearG b)).complete x e (fun _ => []))))

/-- Whether a ticket holds its truth, or is gone. -/
def Core.known (c : Core) (t : Nat) : Bool := match c.tickets.find? t with | some k => k.truth.isSome | none => true

/-- GDEM and GCHK up to their effect: the lanes whose element is guessed and whose truths are still out leave the issue set and wait together; the
others, of which `finish` is told the guessed ones, go on at once (R240). `blocks` says whether the wait counts for the lay-by (R101). -/
def State.demand (s : State) (e : Eff) (a sel : BitVec 7) (blocks : Bool) (finish : List Nat → State → State) : State :=
  let x := s.here
  let c := s.core x.core
  let guessed := (activeLanes s e).filter (fun l => (s.tagged x l a sel).g)
  let uid := fun (l : Nat) => (x.fibre l).uid
  let links := fun (l : Nat) => (c.links s.cur.g (uid l) (tagRegs (x.fibre l) a sel)).map Prod.fst
  let known := fun (l : Nat) => if (links l).isEmpty then c.truthful s.cur.g (uid l) else (links l).all c.known
  let held := guessed.filter (fun l => !known l)
  let go := s.cur.lanes.filter (fun l => !has held l)
  let s := s.wait held (.truths (held.flatMap links) ((held.filter (fun l => (links l).isEmpty)).map uid) blocks)
  if go.isEmpty then s else finish (guessed.filter (fun l => has go l)) (s.narrow go)

/-- Some lanes of the issue set completed. -/
def State.finishLanes (s : State) (lanes : List Nat) : State := (s.advance lanes).settleGm s.cur.g

/-- Whether one of some registers of a fibre carries P. -/
def Fibre.poisonIn (b : Fibre) (r : Reg) (rows : Nat) : Bool :=
  match r.file with
  | .v => (b.vRows r.idx rows).p
  | .k => (b.kReg r.idx).p
  | .w => (b.wReg r.idx).p
  | .q => b.cw.qp.getLsbD r.idx

/-- The truth of the links of one lane's element written into it, and the links released; P is set by a poisoned truth and not changed otherwise (R231,
R240). -/
def State.writeTruth (s : State) (lane : Nat) (regs : List Reg) : State :=
  let x := s.here
  let uid := (x.fibre lane).uid
  let ls := (s.core x.core).links s.cur.g uid regs
  let s := s.mapLanes s.cur.g [lane] (fun _ b => ls.foldl (fun b p =>
    match p.2.1.truth with
    | some (v, poison) =>
      let rows := Nat.min p.2.2.rows regs.length
      b.land p.2.2.reg rows ⟨p.2.1.form.part v p.2.2.part, false, poison || b.poisonIn p.2.2.reg rows⟩
    | none => b) b)
  s.accept s.cur.g uid regs

/-- GDEM (R240). -/
def execGdem (m : Mods) (a sel : BitVec 7) (s : State) : Host.Outcome State Fault Refusal :=
  .next (s.plain (.gdem m a sel) (fun e s => s.control 2 (fun _ _ b => ctlMask b e.mask) (fun s =>
    s.demand e a sel true (fun lanes s =>
      let x := s.here
      let c := s.core x.core
      let regs := fun (l : Nat) => tagRegs (x.fibre l) a sel
      let missed := lanes.filter (fun l => (c.links s.cur.g (x.fibre l).uid (regs l)).isEmpty && (x.fibre l).gm)
      if !missed.isEmpty then s.precise 3 3 0 2 missed (BitVec.ofNat 64 (maskOf missed))
      else
        let s := lanes.foldl (fun t l =>
          if (c.links s.cur.g (x.fibre l).uid (regs l)).isEmpty then t.mapLanes s.cur.g [l] (fun _ b => (regs l).foldl Fibre.clearG b)
          else t.writeTruth l (regs l)) s
        s.finishLanes s.cur.lanes))))

/-- Whether the guess of a lane's element was wrong (R240). -/
def State.guessWrong (s : State) (x : Group) (lane : Nat) (regs : List Reg) : Bool :=
  let b := x.fibre lane
  let ls := (s.core x.core).links s.cur.g b.uid regs
  if ls.isEmpty then b.gm
  else ls.any (fun p => match p.2.1.truth with
    | some (v, poison) =>
      let rows := Nat.min p.2.2.rows regs.length
      let now := if p.2.2.reg.file = .k then (b.kReg p.2.2.reg.idx).val.toNat else (b.vRows p.2.2.reg.idx rows).bits
      poison || decide (now ≠ (if p.2.2.reg.file = .k then p.2.1.form.part v p.2.2.part else p.2.1.form.part v p.2.2.part % 2 ^ (32 * rows)))
    | none => false)

/-- GCHK (R240): the lanes whose element is not guessed write 0. -/
def execGchk (m : Mods) (d a sel : BitVec 7) (s : State) : Host.Outcome State Fault Refusal :=
  .next (s.plain (.gchk m d a sel) (fun e s => s.control 2 (fun _ _ b => ctlMask b e.mask) (fun s =>
    s.demand e a sel false (fun lanes s =>
      let x := s.here
      let act := activeLanes s e
      let off := if e.mz then s.cur.lanes.filter (fun l => !has act l) else []
      let q := Dst.q d.toNat
      let s := s.mapLanes s.cur.g (off ++ act.filter (fun l => !has lanes l)) (fun _ b => q.write b Val.zero)
      (s.mapLanes s.cur.g lanes (fun l b => q.write b (Val.of (if s.guessWrong x l (tagRegs (x.fibre l) a sel) then 1 else 0)))).finishLanes s.cur.lanes))))

end Sys2Proof.Machine
end

