-- ==== Sys2Proof/Machine/Stores.lean ====
section
/-! DEFINITION. Stores and the points at which they are performed (R241 to R246). -/

namespace Sys2Proof.Machine

/-- What a store instruction gives the common execution of R244. -/
structure StoreIns where
  ins : Instr
  base : Nat
  off : W64
  bytes : Nat
  data : Src
  /-- The field code of the data. -/
  field : Nat
  /-- It stores a guessed element as it stands (STG). -/
  guess : Bool
  scratch : Bool
  pol : Nat

/-- The WARN bit of a store's policy that its page does not allow (R242). -/
def storePolWarn (p : Page) (pol : Nat) : Bool := ((pol == 1 || pol == 2) && !p.l2Ok) || (pol == 2 && p.alloc == 1)

/-- One fault of a list of lanes raised where there is one, or what follows (R244: each check is made for every active fibre first). -/
def State.check (s : State) (cause sub info eng : Nat) (lanes : List Nat) (go : State → State) : State :=
  if lanes.isEmpty then go s
  else s.precise cause sub info eng lanes (if cause = 3 then BitVec.ofNat 64 (maskOf lanes) else 0)

/-- The address of one lane. -/
def State.lsAddr (s : State) (x : Group) (base : Nat) (off : W64) (l : Nat) : Val :=
  let v := s.readCode x l (x.fibre l) base 1
  ⟨(v.bits + off.toNat) % 2 ^ 64, v.g, v.p⟩

/-- The checks of R244 up to the translation of the active lanes: then `go` with their physical addresses, or scratch offsets. Data that are both
guessed and poisoned are stored as poisoned (R236). -/
def State.storeChecks (s : State) (z : StoreIns) (e : Eff) (go : List (Nat × Nat × Option Page) → State → State) : State :=
  s.control 2 (fun _ _ b => ctlMask b e.mask) (fun s =>
    let x := s.here
    let act := activeLanes s e
    let a := fun (l : Nat) => s.lsAddr x z.base z.off l
    let d := fun (l : Nat) => s.src x l (x.fibre l) z.data
    let va := fun (l : Nat) => BitVec.ofNat 64 (a l).bits
    let addrs := act.map (fun l => (l, va l))
    s.check 8 1 5 2 (act.filter (fun l => (a l).p)) (fun s =>
    s.check 3 0 5 2 (act.filter (fun l => (a l).g)) (fun s =>
    s.check 3 1 z.field 2 (if z.guess then [] else act.filter (fun l => (d l).g && !(d l).p)) (fun s =>
      if z.scratch then
        match scratchBad (s.ctx x.ctx).scratch z.bytes addrs with
        | some (l, sub) => s.memFault x.ctx 2 1 l sub (va l)
        | none => go (act.map (fun l => (l, (a l).bits, none))) s
      else match s.reachWith x.ctx x.core .write z.bytes (fun _ _ => none) addrs with
        | .trap l sub => s.memFault x.ctx 2 1 l sub (va l)
        | .poisoned l => s.walkPoison 2 5 l (va l)
        | .replay ls => s.suspend z.ins e false (fun _ => []) x.ctx addrs ls
        | .ok pas => go (pas.map (fun p => (p.1, p.2.1, some p.2.2))) (addrs.foldl (fun t p => t.fillTlb x.ctx x.core p.2) s)))))

/-- The stores of an instruction put into the load-store engine, one for each active lane, and the counter (R19, R244). They complete at the level
`need`. -/
def State.sendStores (s : State) (z : StoreIns) (need : Nat) (x : Group) (lanes : List (Nat × Nat × Option Page)) : State :=
  let op := s.ids
  let s := if lanes.isEmpty then s else s.updGroup s.cur.g (fun x => { x with stores := x.stores + 1 })
  lanes.foldl (fun t p =>
    let v := s.src x p.1 (x.fibre p.1) z.data
    let t := if z.scratch then t else t.sample x.core s.cur.g (lineOf p.2.1)
    let pg := p.2.2
    t.pushStore x.core { Store.none with
      op := op, g := s.cur.g, ctx := x.ctx, uid := (x.fibre p.1).uid, seq := op, scratch := z.scratch,
      va := BitVec.ofNat 64 (s.lsAddr x z.base z.off p.1).bits, pa := p.2.1, data := bytesOf z.bytes v.bits, poison := v.p,
      mtype := (pg.map Page.mtype).getD 0, counted := true, need := need, pol := (pg.map (fun q => polIn q z.pol)).getD 0,
      l2 := (pg.map Page.l2Ok).getD true, host := (pg.map Page.consults).getD false, conf := (pg.map Page.conf).getD false, grid := x.grid }) s

/-- THE STORES (R244). -/
def State.store (s : State) (z : StoreIns) : State :=
  s.plain z.ins (fun e s => s.storeChecks z e (fun lanes s =>
    let x := s.here
    let s := s.warn (warnIf (lanes.any (fun p => match p.2.2 with | some pg => storePolWarn pg z.pol | none => false)) warnPol)
    (s.sendStores z 3 x lanes).complete x e (fun _ => [])))

/-- The bytes that fn of a store selects (R242). -/
def storeBytes (w : Nat) : Nat := match w with | 0 => 1 | 1 => 2 | 2 => 4 | 3 => 8 | _ => 16
/-- The v registers that data of so many bytes take. -/
def dataRows (n : Nat) : Nat := if n = 16 then 4 else if n = 8 then 2 else 1

/-- ST (R242, R244). -/
def execSt (m : Mods) (w : BitVec 2) (d b : BitVec 7) (p : BitVec 2) (o : BitVec 5) (s : State) : Host.Outcome State Fault Refusal :=
  let n := storeBytes w.toNat
  .next (s.store ⟨.st m w d b p o, b.toNat, offImm m o n, n, srcR d (dataRows n), 3, false, false, p.toNat⟩)
/-- STV (R242, R244). -/
def execStv (m : Mods) (d b : BitVec 7) (p : BitVec 2) (o : BitVec 5) (s : State) : Host.Outcome State Fault Refusal :=
  .next (s.store ⟨.stv m d b p o, b.toNat, offImm m o 16, 16, srcR d 4, 3, false, false, p.toNat⟩)
/-- STG (R242, R244). -/
def execStg (m : Mods) (w : BitVec 2) (d b : BitVec 7) (p : BitVec 2) (o : BitVec 5) (s : State) : Host.Outcome State Fault Refusal :=
  let n := storeBytes w.toNat
  .next (s.store ⟨.stg m w d b p o, b.toNat, offImm m o n, n, srcR d (dataRows n), 3, true, false, p.toNat⟩)
/-- STS (R242, R244). -/
def execSts (m : Mods) (w : BitVec 3) (d b : BitVec 7) (o : BitVec 5) (s : State) : Host.Outcome State Fault Refusal :=
  let n := storeBytes w.toNat
  .next (s.store ⟨.sts m w d b o, b.toNat, offImm m o n, n, srcR d (dataRows n), 3, false, true, 0⟩)

-- ## Where a store is performed (R241)

/-- Bytes written into a core's scratch window, each word written in part or in full taking the flag as R245 gives. -/
def State.scratchWrite (s : State) (core ctx off : Nat) (data : List Byte) (poison : Bool) : State :=
  let words := ascending ((upTo data.length).map (fun i => (off + i) / 4 * 4))
  let full := fun (w : Nat) => decide (off ≤ w ∧ w + 4 ≤ off + data.length)
  s.updCore core (fun c => { c with
    scratch := c.scratch.upd ctx [] (fun m => (upTo data.length).foldl (fun m i =>
      if data.getD i 0 = 0 then m.del (off + i) else m.put (off + i) (data.getD i 0)) m),
    flagged := c.flagged.upd ctx [] (fun f => words.foldl (fun f w => if poison then addOnce f w else if full w then drop f w else f) f) })

/-- The host's shared copies of the halves that bytes touch invalidated (R280, R281). -/
def State.dropHost (s : State) (a n : Nat) : State :=
  { s with host := s.host.keep (fun h _ => !decide (h < a + n ∧ a < h + 64)) }

/-- Whether a store may be accepted: the fibre's earlier stores and atomics are accepted, a lower lane of its instruction that shares a byte with it
is, and nothing it overlaps stands in its way (R17, R241, R244, R246, R263, R266). -/
def Core.mayAccept (c : Core) (id : Nat) (t : Store) : Bool :=
  c.stores.all (fun p => decide (p.2.level ≥ 1) || !(p.2.g == t.g && ((p.2.uid == t.uid && decide (p.2.seq < t.seq))
      || (p.2.op == t.op && decide (p.1 < id) && shares p.2.pa p.2.data.length t.pa t.data.length))))
    && c.atomics.vals.all (fun a => !(a.g == t.g && decide (a.seq < t.seq)) || a.lanes.vals.all (fun e => e.uid != t.uid || e.order.isSome))
    && c.overlapsDone t.g t.uid t.seq t.pa t.data.length t.scratch && c.acquired t.g t.uid t.seq
    && !c.held t.ctx t.scratch (if t.scratch then BitVec.ofNat 64 t.pa else t.va) t.data.length

/-- Whether a store or an atomic that the core accepted before a number stands over some of the bytes and is not yet performed at `.die` (R269). -/
def Core.queuedBefore (c : Core) (id a n : Nat) : Bool :=
  c.stores.any (fun p => decide (p.1 < id) && !p.2.scratch && p.2.level == 1 && shares p.2.pa p.2.data.length a n) || c.atomicBefore id a n

/-- The stores counter of a group, where no store of an instruction is still short of the level at which it completes (R19, R241). -/
def State.settleStore (s : State) (core op g : Nat) : State :=
  if (s.core core).stores.vals.any (fun t => t.op == op && t.counted && decide (t.level < t.need)) then s
  else s.updGroup g (fun x => { x with stores := x.stores - 1 })

/-- A store kept under a number at a level it has reached (R241). -/
def State.raiseStore (s : State) (core id : Nat) (t : Store) (level : Nat) : State :=
  let s := s.updCore core (fun c => { c with stores := c.stores.put id { t with level := level } })
  if t.counted && decide (t.level < t.need ∧ t.need ≤ level) then s.settleStore core t.op t.g else s

/-- A store leaves the load-store engine, performed as far as its lines need. -/
def State.endStore (s : State) (core id : Nat) (t : Store) : State :=
  let s := s.updCore core (fun c => { c with stores := c.stores.del id })
  if t.counted && decide (t.level < t.need) then s.settleStore core t.op t.g else s

/-- The write-back of CINV or CWB done at the L2 of the die: memory or the node takes the line's data, and for CINV, whose mark is `mtype` 3,
an unpinned copy is dropped with the L1's (R262). -/
def State.writeBackLine (s : State) (core la : Nat) (drop' : Bool) : State :=
  let d := dieOf core
  let s := s.giveBack d la
  if !drop' then s
  else
    let s := s.updCore core (fun c => { c with l1 := c.l1.del la, fills := c.fills.adjust la (fun f => { f with install := false }) })
    match (s.die d).l2.find? la with
    | some l => if l.pin.isSome || l.bound != 0 then s else s.updDie d (fun x => { x with l2 := x.l2.del la })
    | none => s

/-- The bytes of a store written at the die's L2, or for MTYPE 2 at the home (R213, R241, R242, R368). -/
def State.writeStore (s : State) (core : Nat) (t : Store) : State :=
  let d := dieOf core
  let n := t.data.length
  if (linesOf t.pa n).any (s.barred d) then s.reportWrites t.ctx core (linesOf t.pa n)
  else
    let s := if t.mtype = 2 then s.homeWrite t.pa t.data t.poison t.conf else s.l2Write d core t.pol t.l2 t.conf t.pa t.data t.poison
    let s := s.patchL1 core t.pa t.data t.poison
    (if t.host then s.dropHost t.pa n else s).seal t.ctx t.pa n

/-- A store performed at the next level of R241: accepted; through the core's port at the die's L2 or the home; for every die; and at the node. -/
def State.performStore (s : State) (core id : Nat) (t : Store) : State :=
  let n := t.data.length
  match t.level with
  | 0 =>
    if !((s.core core).mayAccept id t && s.engineRuns t.ctx t.g core 255 2 false) then s
    else if t.scratch then ((s.recallScratch core t.ctx t.pa n).scratchWrite core t.ctx t.pa t.data t.poison).endStore core id t
    else
      let s := s.updCore core (fun c => { c with stores := c.stores.del id })
      ({ s with ids := s.ids + 1 } : State).raiseStore core s.ids t 1
  | 1 =>
    if (s.core core).queuedBefore id t.pa n || (t.host && (linesOf t.pa n).any s.hostHolds) then s
    else s.send t.ctx core (tokens n) ⟨2, id, 0⟩ (fun s =>
      if t.writeBack then (s.writeBackLine core t.pa (t.mtype == 3)).endStore core id t
      else (s.writeStore core t).raiseStore core id t 2)
  | 2 =>
    let s := if t.mtype = 2 then s else (linesOf t.pa n).foldl (fun u la => u.dropCopies (dieOf core) la) s
    if isCauseway t.pa && t.mtype != 2 then s.raiseStore core id t 3 else s.endStore core id t
  | _ => ((linesOf t.pa n).foldl (fun u la => u.cleanAll la) s).endStore core id t

/-- STORE_PERFORMED (R241). -/
def execStorePerformed (core store : Nat) (s : State) : Host.Outcome State Fault Refusal :=
  match (s.core core).stores.find? store with
  | none => .next s
  | some t => .next (s.performStore core store t)

end Sys2Proof.Machine
end

