-- ==== Sys2Proof/Machine/Atomics.lean ====
section
/-! DEFINITION. Atomics: their checks, the value each computes, and the place where they are performed (R247 to R251). -/

namespace Sys2Proof.Machine

/-- The new memory value of `w` bits, from the memory value, the operand and the value of d before (R248). -/
def AtomicOp.apply (op : AtomicOp) (w m b d : Nat) : Nat :=
  let b := b % 2 ^ w
  let pick := fun (signed max : Bool) =>
    if (if max then decide (intVal w signed m < intVal w signed b) else decide (intVal w signed b < intVal w signed m)) then b else m
  let halves := fun (f : Fmt) => (upTo 2).foldl (fun v i => v + (f.add 0 false 0 (f.num (m / 2 ^ (16 * i) % 2 ^ 16)) (f.num (b / 2 ^ (16 * i) % 2 ^ 16))).1 * 2 ^ (16 * i)) 0
  match op with
  | .add => (m + b) % 2 ^ w
  | .minS => pick true false
  | .maxS => pick true true
  | .minN => pick false false
  | .maxN => pick false true
  | .and => Nat.land m b
  | .or => Nat.lor m b
  | .xor => Nat.xor m b
  | .xchg => b
  | .cas => if m = d % 2 ^ w then b else m
  | .f32 => (Machine.f32.add 0 false 0 (Machine.f32.num m) (Machine.f32.num b)).1
  | .f64 => (Machine.f64.add 0 false 0 (Machine.f64.num m) (Machine.f64.num b)).1
  | .f16x2 => halves Machine.f16
  | .bf16x2 => halves Machine.bf16

/-- What an atomic instruction gives the common execution of R249. -/
structure AtomicIns where
  ins : Instr
  op : AtomicOp
  bytes : Nat
  d : BitVec 7
  k : BitVec 4
  scope : BitVec 3
  b : BitVec 7

/-- The destination of an atomic. -/
def AtomicIns.dst (z : AtomicIns) : Dst := .vk z.d.toNat (z.bytes / 4)
/-- The operand of an atomic: an immediate of AFADD is one of its format (R49, R50). -/
def AtomicIns.src (z : AtomicIns) : Src :=
  match z.op with
  | .f32 => srcF z.ins.mods z.b Machine.f32
  | .f64 => srcF z.ins.mods z.b Machine.f64
  | .f16x2 => srcH z.ins.mods z.b Machine.f16
  | .bf16x2 => srcH z.ins.mods z.b Machine.bf16
  | _ => srcB' z.ins.mods z.b (z.bytes / 4)
/-- The WARN bit of an inexact immediate of an atomic (R50, R64). -/
def AtomicIns.warns (z : AtomicIns) : W32 :=
  match z.op with
  | .f16x2 => immWarn z.ins.mods z.b Machine.f16
  | .bf16x2 => immWarn z.ins.mods z.b Machine.bf16
  | _ => 0
/-- The result form of a register that receives so many bytes. -/
def resultForm (d : BitVec 7) (bytes : Nat) : LoadForm := if d.toNat < 96 then (if bytes = 8 then .pair else .v 4 false) else .k bytes

/-- The base checks of LDAQ and cache control (R253, R260): a poisoned base, then a guessed one. -/
def State.baseChecks (s : State) (act : List Nat) (addr : Nat → Val) (go : State → State) : State :=
  let poisoned := act.filter (fun l => (addr l).p)
  let guessed := act.filter (fun l => (addr l).g)
  if !poisoned.isEmpty then s.precise 8 1 5 2 poisoned 0
  else if !guessed.isEmpty then s.precise 3 0 5 2 guessed (BitVec.ofNat 64 (maskOf guessed))
  else go s

/-- The field code of the data of an atomic in its lowest lane that `bad` selects: b, or d of a compare-and-swap. -/
def dataField (lanes : List Nat) (inB : Nat → Bool) : Nat := if inB (firstLane lanes) then 1 else 3

/-- The atomic of an issue set put into the load-store engine, with its interlocks and its counter (R16, R19). -/
def State.sendAtomic (s : State) (z : AtomicIns) (x : Group) (pas : List (Nat × Nat × Page)) (va : Nat → W64) : State :=
  if pas.isEmpty then s
  else
    let returns := z.d.toNat != 120
    let lane := fun (p : Nat × Nat × Page) =>
      let b := x.fibre p.1
      (p.1, (⟨b.uid, va p.1, p.2.1, p.2.2.mtype, (s.src x p.1 b z.src).bits, (z.dst.read b).bits, (z.dst.regs b).head?,
        none, p.2.2.consults, p.2.2.conf, none, 0⟩ : LaneAtomic))
    let a : Atomic := ⟨s.cur.g, x.ctx, s.ids, z.op, z.bytes, scopeLevel z.scope.toNat, returns, pas.map lane, none, x.grid⟩
    let s := pas.foldl (fun t p => t.sample x.core s.cur.g (lineOf p.2.1)) s
    let s := { s.updCore x.core (fun c => { c with atomics := c.atomics.put s.ids a }) with ids := s.ids + 1 }
    let s := s.mapLanes s.cur.g (pas.map Prod.fst) (fun _ b => { b with locks := b.locks ++ (z.dst.regs b).map (fun r => ⟨r, true, s.clocks⟩) })
    s.updGroup s.cur.g (fun x => if returns then { x with loads := x.loads + 1 } else { x with stores := x.stores + 1 })

/-- THE ATOMICS (R249): the checks in order, then the atomic is sent. -/
def State.atomic (s : State) (z : AtomicIns) : State :=
  (s.warn z.warns).plain z.ins (fun e s => s.control 2 (fun _ _ b => ctlMask b e.mask) (fun s =>
    let x := s.here
    let act := activeLanes s e
    let cas := z.op == .cas
    let base := fun (l : Nat) => s.readCode x l (x.fibre l) (96 + z.k.toNat) 1
    let b := fun (l : Nat) => s.src x l (x.fibre l) z.src
    let d := fun (l : Nat) => z.dst.read (x.fibre l)
    let va := fun (l : Nat) => BitVec.ofNat 64 (base l).bits
    let addrs := act.map (fun l => (l, va l))
    let poisoned := act.filter (fun l => (base l).p)
    let dirty := act.filter (fun l => (b l).p || (cas && (d l).p))
    let guessedBase := act.filter (fun l => (base l).g)
    let guessed := act.filter (fun l => (b l).g || (cas && (d l).g))
    if !poisoned.isEmpty then s.precise 8 1 5 2 poisoned 0
    else if !dirty.isEmpty then s.precise 8 2 (dataField dirty (fun l => (b l).p)) 2 dirty 0
    else if !guessedBase.isEmpty then s.precise 3 0 5 2 guessedBase (BitVec.ofNat 64 (maskOf guessedBase))
    else if !guessed.isEmpty then s.precise 3 1 (dataField guessed (fun l => (b l).g)) 2 guessed (BitVec.ofNat 64 (maskOf guessed))
    else match s.reachWith x.ctx x.core .write z.bytes (fun _ p => if p.rd then none else some 1) addrs with
      | .trap l sub => s.memFault x.ctx 2 1 l sub (va l)
      | .poisoned l => s.walkPoison 2 5 l (va l)
      | .replay ls => s.suspend z.ins e (z.d.toNat != 120) z.dst.regs x.ctx addrs ls
      | .ok pas =>
        let s := addrs.foldl (fun t p => t.fillTlb x.ctx x.core p.2) s
        let s := s.zeroMasked e act z.dst x
        (s.sendAtomic z x pas va).complete x e z.dst.regs))

/-- AADD (R248). -/
def execAadd (m : Mods) (w : BitVec 1) (d : BitVec 7) (k : BitVec 4) (sc : BitVec 3) (b : BitVec 7) (s : State) : Host.Outcome State Fault Refusal :=
  .next (s.atomic ⟨.aadd m w d k sc b, .add, 4 * (w.toNat + 1), d, k, sc, b⟩)
/-- AMIN `.s32` and `.s64` (R248). -/
def execAmin (m : Mods) (w : BitVec 1) (d : BitVec 7) (k : BitVec 4) (sc : BitVec 3) (b : BitVec 7) (s : State) : Host.Outcome State Fault Refusal :=
  .next (s.atomic ⟨.amin m w d k sc b, .minS, 4 * (w.toNat + 1), d, k, sc, b⟩)
/-- AMAX `.s32` and `.s64` (R248). -/
def execAmax (m : Mods) (w : BitVec 1) (d : BitVec 7) (k : BitVec 4) (sc : BitVec 3) (b : BitVec 7) (s : State) : Host.Outcome State Fault Refusal :=
  .next (s.atomic ⟨.amax m w d k sc b, .maxS, 4 * (w.toNat + 1), d, k, sc, b⟩)
/-- AAND (R248). -/
def execAand (m : Mods) (w : BitVec 1) (d : BitVec 7) (k : BitVec 4) (sc : BitVec 3) (b : BitVec 7) (s : State) : Host.Outcome State Fault Refusal :=
  .next (s.atomic ⟨.aand m w d k sc b, .and, 4 * (w.toNat + 1), d, k, sc, b⟩)
/-- AOR (R248). -/
def execAor (m : Mods) (w : BitVec 1) (d : BitVec 7) (k : BitVec 4) (sc : BitVec 3) (b : BitVec 7) (s : State) : Host.Outcome State Fault Refusal :=
  .next (s.atomic ⟨.aor m w d k sc b, .or, 4 * (w.toNat + 1), d, k, sc, b⟩)
/-- AXOR (R248). -/
def execAxor (m : Mods) (w : BitVec 1) (d : BitVec 7) (k : BitVec 4) (sc : BitVec 3) (b : BitVec 7) (s : State) : Host.Outcome State Fault Refusal :=
  .next (s.atomic ⟨.axor m w d k sc b, .xor, 4 * (w.toNat + 1), d, k, sc, b⟩)
/-- AXCHG (R248). -/
def execAxchg (m : Mods) (w : BitVec 1) (d : BitVec 7) (k : BitVec 4) (sc : BitVec 3) (b : BitVec 7) (s : State) : Host.Outcome State Fault Refusal :=
  .next (s.atomic ⟨.axchg m w d k sc b, .xchg, 4 * (w.toNat + 1), d, k, sc, b⟩)
/-- ACAS (R248). -/
def execAcas (m : Mods) (w : BitVec 1) (d : BitVec 7) (k : BitVec 4) (sc : BitVec 3) (b : BitVec 7) (s : State) : Host.Outcome State Fault Refusal :=
  .next (s.atomic ⟨.acas m w d k sc b, .cas, 4 * (w.toNat + 1), d, k, sc, b⟩)
/-- AMIN `.n32` and `.n64` (R248). -/
def execAminN (m : Mods) (w : BitVec 1) (d : BitVec 7) (k : BitVec 4) (sc : BitVec 3) (b : BitVec 7) (s : State) : Host.Outcome State Fault Refusal :=
  .next (s.atomic ⟨.aminN m w d k sc b, .minN, 4 * (w.toNat + 1), d, k, sc, b⟩)
/-- AMAX `.n32` and `.n64` (R248). -/
def execAmaxN (m : Mods) (w : BitVec 1) (d : BitVec 7) (k : BitVec 4) (sc : BitVec 3) (b : BitVec 7) (s : State) : Host.Outcome State Fault Refusal :=
  .next (s.atomic ⟨.amaxN m w d k sc b, .maxN, 4 * (w.toNat + 1), d, k, sc, b⟩)
/-- AFADD `.f32` and `.f64` (R248). -/
def execAfadd (m : Mods) (w : BitVec 1) (d : BitVec 7) (k : BitVec 4) (sc : BitVec 3) (b : BitVec 7) (s : State) : Host.Outcome State Fault Refusal :=
  .next (s.atomic ⟨.afadd m w d k sc b, if w = 0#1 then .f32 else .f64, 4 * (w.toNat + 1), d, k, sc, b⟩)
/-- AFADD of a pair of `.f16` or `.bf16` (R248). -/
def execAfaddPair (m : Mods) (t : BitVec 1) (d : BitVec 7) (k : BitVec 4) (sc : BitVec 3) (b : BitVec 7) (s : State) : Host.Outcome State Fault Refusal :=
  .next (s.atomic ⟨.afaddPair m t d k sc b, if t = 0#1 then .f16x2 else .bf16x2, 4, d, k, sc, b⟩)

-- ## Where an atomic is performed (R250, R251)

/-- An atomic in flight changed. -/
def State.updAtomic (s : State) (core id : Nat) (f : Atomic → Atomic) : State := s.updCore core (fun c => { c with atomics := c.atomics.adjust id f })

/-- Whether a lane of an atomic may be accepted: what its fibre issued before it is accepted, the lower lanes that share a byte with it are, and
nothing it overlaps stands in its way (R17, R241, R246, R249, R263, R266). -/
def Core.laneAccepts (c : Core) (a : Atomic) (lane : Nat) (e : LaneAtomic) : Bool :=
  c.stores.vals.all (fun t => decide (t.level ≥ 1) || !(t.g == a.g && t.uid == e.uid && decide (t.seq < a.seq)))
    && c.atomics.vals.all (fun o => !(o.g == a.g && decide (o.seq < a.seq)) || o.lanes.vals.all (fun f => f.uid != e.uid || f.order.isSome))
    && a.lanes.all (fun p => p.2.order.isSome || !decide (p.1 < lane) || !shares p.2.pa a.bytes e.pa a.bytes)
    && c.overlapsDone a.g e.uid a.seq e.pa a.bytes false && c.acquired a.g e.uid a.seq && !c.held a.ctx false e.va a.bytes

/-- The counter of a group decremented for an atomic that completes (R19). -/
def State.countAtomic (s : State) (a : Atomic) : State :=
  s.updGroup a.g (fun x => if a.returns then { x with loads := x.loads - 1 } else { x with stores := x.stores - 1 })

/-- Whether an atomic completes as its last lane is accepted: it returns nothing and its scope is `.grp` (R250). -/
def Atomic.early (a : Atomic) : Bool := !a.returns && a.level == 1

/-- The bytes at the place of an atomic and whether their line is poisoned: the home of an MTYPE 2 line, or a pooled node or the L2 of the die,
which have the line's current value: the L2 takes it owned (R201, R250). -/
def State.atPlace (s : State) (a mtype n : Nat) : List Byte × Bool :=
  if mtype = 2 then (Memory.readN s.mem a n, has s.poison (lineOf a)) else s.sysRead a n

/-- Bytes written at that place, every copy of the line following (R250, R278). -/
def State.writeAtPlace (s : State) (core : Nat) (a mtype : Nat) (conf : Bool) (data : List Byte) : State :=
  let s := if mtype = 2 then s.homeWrite a data false conf
    else if isCauseway a then (s.sysWrite a data false).countPacket (lineOf a) conf
    else (s.l2Write (dieOf core) core 0 true conf a data false).dropCopies (dieOf core) (lineOf a)
  s.patchL1 core a data false

/-- The end of an atomic, where no lane is left: its counter, and the deferred fault of a lane that met poison (R251). -/
def State.endAtomic (s : State) (core id : Nat) : State :=
  match (s.core core).atomics.find? id with
  | none => s
  | some a =>
    if !a.lanes.isEmpty then s
    else
      let s := s.updCore core (fun c => { c with atomics := c.atomics.del id })
      let s := if a.early then s else s.countAtomic a
      match a.refused with
      | some (l, va) => s.deferred a.ctx a.g 8 2 5 2 l (va &&& ~~~127)
      | none => s

/-- The interlock of a lane of an atomic released without a value (R251). -/
def State.unlock (s : State) (g lane uid : Nat) (regs : List Reg) : State :=
  s.updFibre g lane (fun b => if b.uid = uid then { b with locks := b.locks.filter (fun k => !hasReg regs k.reg) } else b)

/-- The form in which a lane's register receives the old value. -/
def LaneAtomic.form (e : LaneAtomic) (bytes : Nat) : LoadForm :=
  match e.reg with | some ⟨.v, _⟩ => (if bytes = 8 then .pair else .v 4 false) | _ => .k bytes

/-- One lane of an atomic performed at its place, or refused on a poisoned line (R249, R251). One that a firewall refuses is dropped, and its
register receives 0 with P = 1 (R368). -/
def State.performLane (s : State) (core id lane : Nat) (a : Atomic) (e : LaneAtomic) : State :=
  let read := s.atPlace e.pa e.mtype a.bytes
  let la := lineOf e.pa
  let s := s.updAtomic core id (fun a => { a with lanes := a.lanes.del lane })
  let s := if s.barred (dieOf core) la then
      ((s.reportWrites a.ctx core [la]).landReg a.g lane e.uid e.reg (e.form a.bytes) ⟨0, false, true⟩).settleGm a.g
    else if read.2 then
      (s.updAtomic core id (fun a => { a with refused := match a.refused with
        | some (l, va) => if lane < l then some (lane, e.va) else some (l, va)
        | none => some (lane, e.va) })).unlock a.g lane e.uid (match e.reg with | some r => (e.form a.bytes).regs r | none => [])
    else
      let old := ofBytes (s.ownBytes a.ctx e.pa read.1)
      let s := s.writeAtPlace core e.pa e.mtype e.conf (bytesOf a.bytes (a.op.apply (8 * a.bytes) old e.b e.d))
      let s := (if e.host then s.dropHost e.pa a.bytes else s).seal a.ctx e.pa a.bytes
      (s.landReg a.g lane e.uid e.reg (e.form a.bytes) ⟨old, false, false⟩).settleGm a.g
  s.endAtomic core id

/-- A lane of an atomic accepted; with the last of them an early atomic completes (R241, R250). -/
def State.acceptLane (s : State) (core id lane : Nat) (a : Atomic) : State :=
  let lanes := a.lanes.adjust lane (fun e => { e with order := some s.ids })
  let s := s.updAtomic core id (fun a => { a with lanes := lanes })
  let s := { s with ids := s.ids + 1 }
  if a.early && lanes.vals.all (fun e => e.order.isSome) then s.countAtomic a else s

/-- A lane that was accepted with a number performed through the core's port, after everything that the core accepted before it over those bytes and once
no host holds its half exclusive (R249, R250, R269, R280, R370). -/
def State.atomicAtPort (s : State) (core op lane n : Nat) (a : Atomic) (e : LaneAtomic) : State :=
  if (s.core core).queuedBefore n e.pa a.bytes || (e.host && s.hostHolds (lineOf e.pa)) then s
  else s.send a.ctx core (tokens a.bytes) ⟨3, op, lane⟩ (fun s => s.performLane core op lane a e)

/-- ATOMIC_PERFORMED: a lane is accepted; then it is performed through the core's port, after everything that the core accepted before it over those
bytes (R249, R250, R269, R370). -/
def execAtomicPerformed (core op lane : Nat) (s : State) : Host.Outcome State Fault Refusal :=
  match (s.core core).atomics.find? op with
  | none => .next s
  | some a => match a.lanes.find? lane with
    | none => .next s
    | some e => match e.order with
      | none => .next (if (s.core core).laneAccepts a lane e && s.engineRuns a.ctx a.g core 255 2 false then s.acceptLane core op lane a else s)
      | some n => .next (s.atomicAtPort core op lane n a e)

end Sys2Proof.Machine
end

