-- ==== Sys2Proof/Machine/Slots.lean ====
section
/-! DEFINITION. Slot versions of the tile engine: which are referred to, freeing them, taking a write back, and the stores of a core
(R301 to R303, R311). -/

namespace Sys2Proof.Machine

/-- A slot version changed. -/
def State.updSlot (s : State) (id : Nat) (f : Slot → Slot) : State := { s with slots := s.slots.adjust id f }

/-- The lines that a streamed binding pins (R311). -/
def Binding.lines (b : Binding) : List Nat := ((b.rows ++ b.scales.filterMap id).map lineOf).foldl addOnce []

/-- The slot versions that a quarter operation reads or writes. -/
def Quarter.slots (q : Quarter) : List Nat := q.new :: ((q.b :: q.old :: q.a).filterMap id)
/-- The slot versions that an operation reads or writes. -/
def TileOp.slots (o : TileOp) : List Nat := [o.src, o.dst].filterMap id ++ o.quarters.vals.flatMap Quarter.slots
/-- The slot versions that an operation in flight is reading or writing: a load or TZERO reads none, and TSCL and TACC do not read the old version of
their destination (R303). -/
def TileOp.busy (o : TileOp) : List Nat :=
  let reads := match o.kind with | .ld | .lds | .zero => false | _ => true
  let olds := match o.kind with | .scl | .acc => false | _ => true
  ((if reads then [o.src] else []) ++ [o.dst]).filterMap id
    ++ o.quarters.vals.flatMap (fun q => q.new :: ((q.b :: q.a) ++ (if olds then [q.old] else [])).filterMap id)
/-- The slot versions that a group's handles map. -/
def Group.slots (x : Group) : List Nat := x.handles.vals.filterMap Handle.slot

/-- The slot versions that something refers to: a handle map, a hand-over channel, an operation that has not retired, or the version that a
write in flight would be taken back to (R289, R302). -/
def State.heldSlots (s : State) : List Nat :=
  s.groups.vals.flatMap Group.slots
    ++ s.grids.vals.flatMap (fun r => r.teams.vals.flatMap (fun t => t.channels.vals.filterMap Given.slot))
    ++ s.cores.vals.flatMap (fun c => c.tileOps.vals.flatMap TileOp.slots)
    ++ s.slots.vals.filterMap (fun v => if v.writer.isSome then v.prev else none)

/-- The lines of a binding unpinned (R311). -/
def State.unbind (s : State) (v : Slot) : State :=
  match v.bound with
  | none => s
  | some b => b.lines.foldl (fun t la => t.updDie (dieOf v.core) (fun d => { d with l2 := d.l2.adjust la (fun l => { l with bound := l.bound - 1 }) })) s

/-- Every slot version that nothing refers to freed (R302). -/
def State.reapSlots (s : State) : State :=
  let held := s.heldSlots
  let free := s.slots.filter (fun p => !has held p.1)
  if free.isEmpty then s
  else free.foldl (fun (t : State) p => { t.unbind p.2 with slots := t.slots.del p.1 }) s

/-- A reference to a slot version redirected. -/
def redirect (new : Nat) (old : Option Nat) (r : Option Nat) : Option Nat := if r = some new then old else r

/-- A write that writes no slot: whatever refers to its version refers to the version before it (R289). -/
def State.takeBack (s : State) (new : Nat) : State :=
  let old := match s.slots.find? new with | some v => v.prev | none => none
  let f := redirect new old
  { s with
    groups := s.groups.mapVals (fun _ x => { x with handles := x.handles.mapVals (fun _ h => { h with slot := f h.slot }) }),
    grids := s.grids.mapVals (fun _ r => { r with teams := r.teams.mapVals (fun _ t =>
      { t with channels := t.channels.mapVals (fun _ c => { c with slot := f c.slot }) }) }),
    cores := s.cores.mapVals (fun _ c => { c with tileOps := c.tileOps.mapVals (fun _ o => { o with
      src := f o.src, quarters := o.quarters.mapVals (fun _ q => { q with a := q.a.map f, b := f q.b, old := f q.old }) }) }),
    slots := (s.slots.mapVals (fun _ v => { v with prev := f v.prev })).del new }

/-- The slot versions that one group holds (R303). -/
def State.versionsOf (s : State) (g : Nat) : List Nat :=
  let x := s.group g
  (x.slots ++ ((s.core x.core).tileOps.vals.filter (fun o => o.g == g)).flatMap TileOp.slots).foldl addOnce []

/-- Room in a core's store for one more version: the least recently used one that no operation in flight reads or writes is evicted; none
where every slot is busy (R303). -/
def State.makeRoom (s : State) (core : Nat) (acc : Bool) : Option State :=
  let here := s.slots.filter (fun p => p.2.res && p.2.core == core && p.2.acc == acc)
  if here.length < (if acc then Config.accumulatorSlots else Config.operandSlots) then some s
  else
    let busy := s.cores.vals.flatMap (fun c => c.tileOps.vals.flatMap TileOp.busy)
    match (here.filter (fun p => !has busy p.1)).foldl (fun (m : Option (Nat × Slot)) p => match m with
        | none => some p
        | some q => if p.2.used < q.2.used then some p else some q) none with
    | none => none
    | some p => some (s.updSlot p.1 (fun v => { v with res := false }))

/-- A slot version read by a core: its use is noted, and it is brought into the core's store where there is room (R303). -/
def State.touchSlot (s : State) (core : Nat) (r : Option Nat) : State :=
  match r with
  | none => s
  | some id => match s.slots.find? id with
    | none => s
    | some v =>
      if v.bound.isSome then s
      else if v.res && v.core == core then s.updSlot id (fun v => { v with used := s.clocks })
      else match s.makeRoom core v.acc with
        | none => s
        | some t => t.updSlot id (fun v => { v with res := true, core := core, used := s.clocks })

end Sys2Proof.Machine
end

