-- ==== Sys2Proof/Machine/Sync.lean ====
section
/-! DEFINITION. WAITC, the barrier instructions, LEASE, and the events of barriers (R29, R104, R107, R112 to R118). -/

namespace Sys2Proof.Machine

/-- Whether the four counters of a group are at or below four counts (R112). -/
def Group.countersBelow (x : Group) (l st c t : Nat) : Bool := decide (x.loads ≤ l ∧ x.stores ≤ st ∧ x.copies ≤ c ∧ x.tiles ≤ t)

/-- The fibres of a group that wait at a WAITC released past it, where the counters are now at or below its counts: a later rise does not hold
them again (R112). -/
def Group.releaseCounters (x : Group) : Group :=
  { x with fibres := x.fibres.mapVals (fun _ b => match b.wait with
      | .counters l st c t words => if x.countersBelow l st c t then { b with pc := b.pc + BitVec.ofNat 64 (4 * words), wait := .free } else b
      | _ => b) }

/-- WAITC (R112). -/
def execWaitc (m : Mods) (l st c t : BitVec 6) (s : State) : Host.Outcome State Fault Refusal :=
  .next (s.plain (.waitc m l st c t) (fun e s =>
    if s.here.countersBelow l.toNat st.toNat c.toNat t.toNat then s.complete s.here e (fun _ => [])
    else s.wait s.cur.lanes (.counters l.toNat st.toNat c.toNat t.toNat s.cur.words)))

-- ## Barriers

/-- The fibres of the issue set begin to arrive at a barrier (R114). -/
def State.arriving (s : State) (bar : Bar) (d : Nat) : State := s.wait s.cur.lanes (.arriving bar s.cur.words d s.ids)

/-- GBAR (R115). -/
def execGbar (m : Mods) (s : State) : Host.Outcome State Fault Refusal :=
  .next (s.plain (.gbar m) (fun _ s => s.arriving .group 120))

/-- TARR (R116): a fibre whose earlier arrival's phase is still in progress waits for it first. -/
def execTarr (m : Mods) (d : BitVec 7) (s : State) : Host.Outcome State Fault Refusal :=
  .next (s.plain (.tarr m d) (fun _ s =>
    if s.here.h then s.illegalHere 15
    else
      let p := (s.teamOf s.here).phase
      let early := s.cur.lanes.filter (fun l => (s.here.fibre l).lastPhase == some p)
      let rest := s.cur.lanes.filter (fun l => (s.here.fibre l).lastPhase != some p)
      ((s.wait early (.phase p false)).narrow rest).arriving .team d.toNat))

/-- TWAIT (R116): it does nothing where the phase of the latest arrival has completed, or where there is none. -/
def execTwait (m : Mods) (s : State) : Host.Outcome State Fault Refusal :=
  .next (s.plain (.twait m) (fun e s =>
    if s.here.h then s.illegalHere 15
    else
      let p := (s.teamOf s.here).phase
      let held := s.cur.lanes.filter (fun l => (s.here.fibre l).lastPhase == some p)
      let rest := s.cur.lanes.filter (fun l => (s.here.fibre l).lastPhase != some p)
      let s := (s.wait held (.phase p true)).narrow rest
      s.complete s.here e (fun _ => [])))

/-- MBAR (R117): only in a co-scheduled grid (R97), and not in a handler (R137). -/
def execMbar (m : Mods) (s : State) : Host.Outcome State Fault Refusal :=
  .next (s.plain (.mbar m) (fun _ s =>
    if s.here.h || !(s.grid s.here.grid).record.cosched then s.illegalHere 15 else s.arriving .grid 120))

/-- BARRIER_ARRIVAL: the release of R114 is done, the value-returning atomics have their values, which the acquire of the phase orders later accesses
behind (R114, R270), and the fibre arrives; TARR then writes the phase number and goes on. -/
def execBarrierArrival (g lane : Nat) (s : State) : Host.Outcome State Fault Refusal :=
  let x := s.group g
  let b := x.fibre lane
  match b.wait with
  | .arriving bar w d upto =>
    if !s.runs x.ctx g || !s.releaseDone x.core g b.uid bar.level upto none || !(s.core x.core).atomicsDone g b.uid upto none then .next s
    else match bar with
      | .group =>
        let s := s.updFibre g lane (fun b => { b with wait := .arrived .group w })
        .next ((s.updGroup g (fun x => { x with arrivals := addOnce x.arrivals lane })).checkGroup g)
      | .team =>
        let p := (s.teamOf x).phase
        let s := s.releaseHolders g b.uid ((Dst.k d).regs b) true
        let s := s.updFibre g lane (fun b =>
          { (Dst.k d).write b (Val.of p) with pc := b.pc + BitVec.ofNat 64 (4 * w), wait := .free, lastPhase := some p })
        .next ((s.settleGm g).checkTeam g)
      | .grid => .next ((s.updFibre g lane (fun b => { b with wait := .arrived .grid w })).checkGrid x.grid)
  | _ => .next s

/-- K of RAMP: 0 reads as 1, values above 320 as 320 (R117). -/
def rampK (k : BitVec 9) : Nat := if k = 0 then 1 else Nat.min k.toNat 320

/-- The fibres of a grid that wait at the milestone barrier on one core released, with the acquire of R114 (R117). -/
def State.releaseCore (s : State) (grid core : Nat) : State :=
  let s := (s.groupsOf grid).foldl (fun t p =>
    if p.2.core = core then t.mapLanes p.1 p.2.live (fun _ b => match b.wait with
      | .arrived .grid w => { b with pc := b.pc + BitVec.ofNat 64 (4 * w), wait := .free }
      | _ => b) else t) s
  s.acquireL1 core 3 1

/-- MBAR_RELEASE_STEP: the next K cores are released, 256 clocks after the step before (R117). -/
def execMbarReleaseStep (grid : Nat) (s : State) : Host.Outcome State Fault Refusal :=
  let r := s.grid grid
  match r.releasing with
  | none => .next s
  | some (t, cores, done) =>
    let k := rampK s.pkg.ramp
    let n := cores.length
    if (s.ctx r.ctx).halt.isSome || decide (s.clocks < t + 256 * ((done + k - 1) / k)) then .next s
    else
      let now := (upTo (Nat.min k (n - done))).map (fun i => cores.getD ((r.offset + done + i) % n) 0)
      let s := now.foldl (fun t c => t.releaseCore grid c) s
      .next (s.updGrid grid (fun r =>
        if done + k ≥ n then { r with releasing := none, offset := r.offset + Nat.min k n } else { r with releasing := some (t, cores, done + k) }))

-- ## LEASE

/-- LEASE (R118): the group's lease set from a value, where there is one, and the granted lease returned. Admissions see it from the next clock. -/
def State.lease (s : State) (e : Eff) (d : BitVec 7) (v : Option Nat) : State :=
  let x := s.here
  let was := some (s.clocks, s.leaseNow x)
  let s := match v with
    | none => s
    | some 0 => s.updGroup s.cur.g (fun x => { x with declared := none, leaseWas := was })
    | some n => s.updGroup s.cur.g (fun y => { y with declared := some (Nat.min n (trackBudget (s.core x.core).leasew x.track)), leaseWas := was })
  let g := s.leaseOf s.here
  (s.setDest (.k d.toNat) (fun _ _ => Val.of g)).complete x e (Dst.k d.toNat).regs

/-- LEASE with an immediate (R118). -/
def execLease (m : Mods) (d i : BitVec 7) (s : State) : Host.Outcome State Fault Refusal :=
  .next (s.plain (.lease m d i) (fun e s => s.lease e d (some (riImm m i).toNat)))
/-- LEASE `.k` (R118). -/
def execLeaseK (m : Mods) (d a : BitVec 7) (s : State) : Host.Outcome State Fault Refusal :=
  .next (s.plain (.leaseK m d a) (fun e s => s.control 0 (fun _ _ b => [ctlK b 0 a.toNat]) (fun s =>
    s.lease e d (some ((s.cur.lanes.map (fun l => ((s.here.fibre l).kReg (a.toNat - 96)).val.toNat)).foldl Nat.max 0)))))
/-- LEASE `.rd` (R118). -/
def execLeaseRd (m : Mods) (d : BitVec 7) (s : State) : Host.Outcome State Fault Refusal :=
  .next (s.plain (.leaseRd m d) (fun e s => s.lease e d none))

-- ## Windows, age counters and weights (R29, R104, R107)

/-- LEASE_WINDOW_END: after 4,096 issue cycles the measured lease is S + V KiB clamped (R107). -/
def execLeaseWindowEnd (g : Nat) (s : State) : Host.Outcome State Fault Refusal :=
  .next (s.updGroup g (fun x => if x.windowIssues ≥ 4096 then
    { x with measured := s.clampLease x (x.sampled.length + x.misses), windowIssues := 0, sampled := [], misses := 0 } else x))

/-- AGE_COUNTER_EXPIRY: the age counter of a slice has reached 256, and the next issue set is drawn from it (R29). -/
def execAgeCounterExpiry (g slice : Nat) (s : State) : Host.Outcome State Fault Refusal :=
  .next (s.updGroup g (fun x => if x.ages.get slice 0 ≥ 256 then { x with aged := addOnce x.aged slice } else x))

/-- LEASEW_WRITE: admissions see the change from the next clock (R104). -/
def execLeasewWrite (core : Nat) (value : W32) (s : State) : Host.Outcome State Fault Refusal :=
  .next (s.updCore core (fun c => { c with leasew := value, leasewWas := some (s.clocks, s.leasewNow core) }))

end Sys2Proof.Machine
end

