-- ==== Sys2Proof/Machine/Launch.lean ====
section
/-! DEFINITION. Launch queues and records, placement, and the ends of groups, grids and contexts (R90 to R99, R42, R138). -/

namespace Sys2Proof.Machine

-- ## Queues (R90)

/-- A queue descriptor as it stands in memory (R90). -/
structure Queue where
  base : Nat
  size : Nat
  head : Nat
  tail : Nat
  deriving DecidableEq, Repr

/-- The physical address of a queue's descriptor; none where the VF has no such queue. -/
def Vf.descriptor (v : Vf) (q : Nat) : Option Nat := v.queues[q]?

/-- Whether the descriptor of a queue is in a line that a host holds exclusive (R280). -/
def State.queueHeld (s : State) (vf q : Nat) : Bool := match (s.vf vf).descriptor q with | some a => s.bytesHeld a 32 | none => false

/-- The descriptor of a queue; none where the queue is disabled (R90). -/
def State.queue (s : State) (vf q : Nat) : Option Queue :=
  match (s.vf vf).descriptor q with
  | none => none
  | some a =>
    let w := fun (i : Nat) => ofBytes (s.sysRead (a + 8 * i) 8).1
    if 4 ≤ w 1 ∧ w 1 ≤ 16 then some ⟨w 0, w 1, w 2, w 3⟩ else none

/-- HEAD or TAIL of a queue written (R90). -/
def State.writeQueue (s : State) (vf q field value : Nat) : State :=
  match (s.vf vf).descriptor q with
  | none => s
  | some a => s.sysWrite (a + 8 * field) (bytesOf 8 value) false

/-- Whether the counts of a queue are in range (R90). -/
def Queue.inRange (q : Queue) : Bool := decide (q.head ≤ q.tail ∧ q.tail ≤ q.head + 2 ^ q.size)
/-- Whether a queue is full (R90). -/
def Queue.full (q : Queue) : Bool := decide (q.tail - q.head = 2 ^ q.size)

/-- TAIL of a queue read by the device: counts out of range make the queue empty and report TYPE 12 (R90). -/
def State.readTail (s : State) (vf q : Nat) : State :=
  match s.queue vf q with
  | none => s
  | some d =>
    let s := if d.inRange then s else s.report vf 12 (BitVec.ofNat 64 (((s.vf vf).descriptor q).getD 0)) (eventPlace 0 ((s.vf vf).contexts.getD q 0))
    { s with vfs := s.vfs.adjust vf (fun v => { v with tails := v.tails.put q (if d.inRange then d.tail else d.head) }) }

-- ## Records (R91, R92)

/-- A launch record from its 64 bytes (R91). -/
def recordOf (l : List Byte) : Record :=
  let f := fun (i n : Nat) => ofBytes ((l.drop i).take n)
  ⟨BitVec.ofNat 64 (f 0 8), BitVec.ofNat 64 (f 8 8), BitVec.ofNat 64 (f 16 8), BitVec.ofNat 64 (f 24 8), f 32 4 + 1, f 36 4 + 1, f 40 2, f 42 1, f 43 1,
    f 44 2, f 46 1, bitAt (f 47 1) 0, bitAt (f 47 1) 1, bitAt (f 47 1) 2, f 48 2⟩

/-- The groups of a team (R37). -/
def Record.groups (r : Record) : Nat := (r.fibres + 31) / 32

/-- What placement sees of a core: its number, its resident groups, and its eligible tracks with their groups (R98, R99). -/
structure Room where
  core : Nat
  resident : Nat
  tracks : List (Nat × Nat)
  deriving DecidableEq, Repr

/-- The groups a core can still take (R98). -/
def Room.free (r : Room) : Nat := (r.tracks.map (fun t => Config.groupsPerTrack - t.2)).sum

/-- The track that takes the next group: the fewest groups, ties to the lowest (R99). -/
def Room.pick (r : Room) : Nat :=
  match r.tracks.foldl (fun (m : Option (Nat × Nat)) t => match m with | none => some t | some u => if t.2 < u.2 then some t else some u) none with
  | some t => t.1
  | none => 0

/-- A core with one more group on a track. -/
def Room.add (r : Room) (t : Nat) : Room := { r with resident := r.resident + 1, tracks := r.tracks.map (fun u => if u.1 = t then (t, u.2 + 1) else u) }

/-- One group placed on a core: its track, and the cores afterwards. -/
def placeGroup (rooms : List Room) (core : Nat) : Nat × List Room :=
  match rooms.find? (fun r => r.core == core) with
  | none => (0, rooms)
  | some r => (r.pick, rooms.map (fun q => if q.core = core then q.add r.pick else q))

/-- The groups of a team placed one after the other: each one's core and track. -/
def placeGroups : List Room → List Nat → List (Nat × Nat) × List Room
  | rooms, [] => ([], rooms)
  | rooms, c :: t =>
    let p := placeGroup rooms c
    let q := placeGroups p.2 t
    ((c, p.1) :: q.1, q.2)

/-- A core put into a list in the order of resident groups, then number (R98). -/
def insertRoom : List Room → Room → List Room
  | [], r => [r]
  | q :: t, r => if r.resident < q.resident ∨ (r.resident = q.resident ∧ r.core < q.core) then r :: q :: t else q :: insertRoom t r

/-- The cores of a team of several cores on one die: the chosen ones with their resident groups in total (R98). -/
def dieChoice (rooms : List Room) (die n groups : Nat) : Option (Nat × List Nat) :=
  let ok := (rooms.filter (fun r => dieOf r.core == die && decide (r.free ≥ (groups + n - 1) / n))).foldl insertRoom []
  if ok.length < n then none else some (((ok.take n).map Room.resident).sum, (ok.take n).map Room.core)

/-- The core of each group of a team (R98); none where the team finds no place. -/
def chooseCores (rooms : List Room) (cores groups : Nat) : Option (List Nat) :=
  if cores = 1 then
    match (rooms.filter (fun r => decide (r.free ≥ groups))).foldl insertRoom [] with
    | r :: _ => some ((upTo groups).map (fun _ => r.core))
    | [] => none
  else
    let best := (upTo Config.dies).foldl (fun (m : Option (Nat × List Nat)) d =>
      match dieChoice rooms d cores groups, m with
      | some c, some b => if c.1 < b.1 then some c else some b
      | some c, none => some c
      | none, b => b) none
    best.map (fun b => (upTo groups).map (fun g => b.2.getD (g * cores / groups) 0))

/-- Teams placed one after the other; none where one of them finds no place. -/
def placeTeams : Nat → List Room → Nat → Nat → Option (List (List (Nat × Nat)))
  | 0, _, _, _ => some []
  | n + 1, rooms, cores, groups =>
    match chooseCores rooms cores groups with
    | none => none
    | some cs =>
      let p := placeGroups rooms cs
      (placeTeams n p.2 cores groups).map (fun t => p.1 :: t)

/-- The enabled cores of a VF's partition (R98, R384). -/
def State.partition (s : State) (vf : Nat) : List Nat :=
  (ascending (s.vf vf).dies).flatMap (fun d => ((upTo Config.coresPerDie).map (fun c => d * Config.coresPerDie + c)).filter (fun c => !(s.core c).retired))

/-- The cores as placement sees them now (R98, R99). -/
def State.rooms (s : State) (vf : Nat) : List Room :=
  (s.partition vf).map (fun c =>
    let here := s.groups.vals.filter (fun x => x.core == c)
    let w := (s.core c).leasew
    let all := ((upTo 8).map (weight w)).sum = 0
    ⟨c, here.length, ((upTo 8).filter (fun t => all || weight w t != 0)).map (fun t => (t, (here.filter (fun x => x.track == t)).length))⟩)

/-- The cores of a partition with nothing resident and every track open, as the tests of R92 and R97 count them (R99). -/
def State.emptyRooms (s : State) (vf : Nat) : List Room := (s.partition vf).map (fun c => ⟨c, 0, (upTo 8).map (fun t => (t, 0))⟩)

/-- Whether a record is malformed (R92). -/
def State.malformed (s : State) (vf : Nat) (l : List Byte) : Bool :=
  let f := fun (i n : Nat) => ofBytes ((l.drop i).take n)
  let r := recordOf l
  f 0 8 % 4 != 0 || f 16 8 % 4096 != 0 || f 24 8 % 64 != 0 || decide (f 36 4 > 65535) || decide (r.prod > r.groups)
    || decide (r.budp < 3 ∨ 16 < r.budp ∨ r.budc < 3 ∨ 16 < r.budc) || decide (r.limit > 511) || decide (r.lease > 192) || decide (f 47 1 ≥ 8)
    || decide (r.cores < 1 ∨ 80 < r.cores) || decide (r.cores * 256 < r.groups) || f 50 14 != 0
    || (r.cosched && (placeTeams r.teams (s.emptyRooms vf) r.cores r.groups).isNone)

-- ## Completion records (R94)

/-- The bytes of a completion record from byte 4 on (R94). -/
def Grid.completion (r : Grid) (ticks : Nat) : List Byte :=
  bytesOf 4 r.warn.toNat ++ bytesOf 8 r.exact ++ bytesOf 8 r.residue ++ bytesOf 8 ticks ++ bytesOf 32 0

/-- A completion record written, or reported as unwritable; none where its translation waits for the supervisor (R94). A VF that has been
torn down gets none (R375). -/
def State.writeCompletion (s : State) (ctx : Nat) (r : Grid) (status : Nat) : Option State :=
  let c := s.ctx ctx
  if !(s.vf c.vf).alive then some s
  else match s.xlateNow ctx 0 r.record.done .write with
    | .ok pa _ => some (((s.sysWrite (pa + 4) (r.completion s.ticks) false).sysWrite pa (bytesOf 4 status) false).seal ctx pa 64)
    | .replay => none
    | .held => none
    | _ => some (s.report c.vf 11 r.record.done (eventPlace 0 ctx))

-- ## LNCH (R119)

/-- The number before which accesses count as earlier for a wait of a release (R238). -/
def Fibre.upto (b : Fibre) (ids : Nat) : Nat :=
  match b.wait with | .release _ u _ => u | .paths _ _ u => u | .acquire u _ => u | .send _ u _ => u | _ => ids

/-- Whether the releases of the issue set at a level are done; otherwise the state in which it waits for them (R238, R255, R257). -/
def State.released (s : State) (level : Nat) (lanes : List Nat) (go : State → State) : State :=
  let x := s.here
  if lanes.all (fun l => s.releaseDone x.core s.cur.g (x.fibre l).uid level ((x.fibre l).upto s.ids) none) then go s
  else s.mapLanes s.cur.g s.cur.lanes (fun _ b => { b with wait := .release level (b.upto s.ids) none })

/-- A record appended to a queue of a VF for a context: the status, and the state (R119, R352). -/
def State.appendRecord (s : State) (vf ctx : Nat) (rec : List Byte) (q : Nat) : Nat × State :=
  match (if q > 7 then none else s.queue vf q) with
  | none => (3, s)
  | some d =>
    if s.malformed vf rec then (2, s)
    else if d.full then (1, s)
    else
      let s := s.sysWrite (d.base + 64 * (d.tail % 2 ^ d.size)) rec false
      let s := s.writeQueue vf q 3 (d.tail + 1)
      let s := { s with vfs := s.vfs.adjust vf (fun v => { v with children := v.children ++ [(q, d.tail, ctx)] }) }
      (0, s.readTail vf q)

/-- A control operand from b, a k register or an immediate. -/
def ctlB (m : Mods) (b : Fibre) (c : BitVec 7) : List Ctl := match m.imx with | some _ => [] | none => [ctlK b 1 c.toNat]
/-- The value of b, a k register or an immediate (R49). -/
def kOrImm (m : Mods) (b : Fibre) (c : BitVec 7) : Nat := match m.imx with | some x => immOf x c | none => (b.kReg (c.toNat - 96)).val.toNat

/-- LNCH (R119): not in a handler (R137); checks, release, record reads, and then the appends in ascending lane order. -/
def execLnch (m : Mods) (d a b : BitVec 7) (s : State) : Host.Outcome State Fault Refusal :=
  .next (s.plain (.lnch m d a b) (fun e s =>
    if s.here.h then s.illegalHere 15
    else s.control 0 (fun _ _ p => ctlK p 0 a.toNat :: ctlB m p b) (fun s =>
      let x := s.here
      let addrs := s.cur.lanes.map (fun l => (l, ((x.fibre l).kReg (a.toNat - 96)).val))
      let bad := (addrs.filter (fun p => p.2.toNat % 64 != 0)).map Prod.fst
      if !bad.isEmpty then s.precise 4 2 0 0 bad (addrOf addrs (firstLane bad))
      else s.released 3 s.cur.lanes (fun s =>
        match s.reach x.ctx x.core .read addrs with
        | .trap l sub => s.precise 4 sub 0 0 [l] (addrOf addrs l)
        | .poisoned l => s.walkPoison 0 0 l (addrOf addrs l)
        | .replay ls => s.waitReplay x.ctx addrs ls
        | .ok pas =>
          if !s.vfUp x.ctx then s.dropRequests x.ctx x.core
          else if pas.any (fun p => p.2.2.consults && s.bytesHeld p.2.1 64) || (s.vf (s.ctx x.ctx).vf).queues.any (fun a => s.bytesHeld a 32) then s
          else s.throughPort x.ctx x.core (s.outside x.core pas).length (fun s =>
          let s := s.reportReads x.ctx x.core (s.outside x.core pas)
          let s := pas.foldl (fun t p => if ((s.core x.core).l1.find? (lineOf p.2.1)).isSome then t else t.readLine (dieOf x.core) (lineOf p.2.1) 0 false p.2.2.conf) s
          let data := pas.map (fun p => (p.1, s.coreRead x.ctx x.core p.2.1 64 p.2.2.mtype true))
          let poisoned := (data.filter (fun p => p.2.2)).map Prod.fst
          if !poisoned.isEmpty then s.precise 8 1 0 0 poisoned (addrOf addrs (firstLane poisoned) &&& ~~~127)
          else
            let r := data.foldl (fun (t : List (Nat × Nat) × State) p =>
              let u := t.2.appendRecord (t.2.ctx x.ctx).vf x.ctx p.2.1 (kOrImm m (x.fibre p.1) b)
              (t.1 ++ [(p.1, u.1)], u.2)) ([], s)
            (r.2.setDest (.k d.toNat) (fun l _ => Val.of ((r.1.filter (fun p => p.1 == l)).map Prod.snd).sum)).complete x e (Dst.k d.toNat).regs)))))

-- ## Taking records and placing teams

/-- LAUNCH_RECORD_TAKE: the next record of a queue, in ring order (R90, R92, R95). A record of a context that is gone is not taken, and the queue stays at
it (log entry 118). -/
def execLaunchRecordTake (vf queue : Nat) (s : State) : Host.Outcome State Fault Refusal :=
  match s.queue vf queue with
  | none => .next s
  | some d =>
    let v := s.vf vf
    if !v.alive || decide (v.tails.get queue 0 ≤ d.head) || s.queueHeld vf queue || s.bytesHeld (d.base + 64 * (d.head % 2 ^ d.size)) 64 then .next s
    else
      let rec' := (s.sysRead (d.base + 64 * (d.head % 2 ^ d.size)) 64).1
      let r := recordOf rec'
      let ctx := match v.children.find? (fun c => c.1 == queue && c.2.1 == d.head) with
        | some c => c.2.2
        | none => v.contexts.getD queue 0
      let grid : Grid := { Grid.none with ctx := ctx, vf := vf, queue := queue, number := d.head, record := r }
      if (s.ctxs.find? ctx).isNone then .next s
      else
        let next := fun (t : State) => (t.writeQueue vf queue 2 (d.head + 1))
        if s.malformed vf rec' then
          if r.done.toNat % 64 ≠ 0 then .next (next (s.report vf 11 r.done (eventPlace 0 ctx)))
          else if s.deviceHeld ctx r.done 64 then .next s
          else match s.writeCompletion ctx grid 1 with
            | some t => .next (next t)
            | none => .next (s.askSupervisor ctx r.done)
        else .next (next { s with grids := s.grids.put s.ids grid, ids := s.ids + 1 })

/-- The lowest pass of the contexts resident on a track at a port, or 0 (R110). -/
def Track.lowestPass (t : Track) (port : Nat) : W32 :=
  match (t.passes.filter (fun p => p.1 / 2 ^ 32 == port)).map Prod.snd with
  | [] => 0
  | p :: rest => rest.foldl (fun a b => if (a - b).msb then a else b) p

/-- A context that becomes resident on a track (R110). -/
def Track.join (t : Track) (ctx : Nat) : Track :=
  (upTo 4).foldl (fun (u : Track) port =>
    if (u.passes.find? (port * 2 ^ 32 + ctx)).isSome then u else { u with passes := u.passes.put (port * 2 ^ 32 + ctx) (u.lowestPass port) }) t

/-- One group created on its core and track, in the lay-by (R25, R93, R99, R106). -/
def State.newGroup (s : State) (grid : Nat) (team index core track : Nat) : State :=
  let r := s.grid grid
  let rec' := r.record
  let used := (s.groups.vals.filter (fun x => x.core == core && x.track == track)).map Group.slot
  let slot := (((upTo Config.groupsPerTrack).filter (fun n => !has used n))).headD 0
  let n := Nat.min 32 (rec'.fibres - 32 * index)
  let fibre := fun (l : Nat) =>
    let b := Fibre.new (s.ids + 1 + l) rec'.entry 0
    { b with k := [(0, ⟨rec'.args, false, false⟩)],
             stackBase := ((rec'.stack + BitVec.ofNat 64 (4096 * (team * rec'.fibres + 32 * index + l))) >>> 12).setWidth 52 }
  let role := if index < rec'.prod then 0 else 1
  let x : Group := { Group.none with
    core := core, track := track, slot := slot, ctx := r.ctx, grid := grid, team := team, grp := index, role := role,
    budget := 32 * (if role = 0 then rec'.budp else rec'.budc), fibres := (upTo n).map (fun l => (l, fibre l)),
    set := .layby, entered := s.clocks, declared := if rec'.lease = 0 then none else some rec'.lease }
  let s := { s with groups := s.groups.put s.ids x, ids := s.ids + 1 + n }
  s.updCore core (fun c => { c with
    tracks := c.tracks.upd track Track.reset (fun t => t.join r.ctx),
    buckets := if (c.buckets.find? r.vf).isSome then c.buckets else c.buckets.put r.vf ⟨0, false⟩ })

/-- The bytes of the register cache that a group's rows take: its v registers, k, w and the fibre control words (R3, R369, log entry 94). -/
def Group.rowBytes (x : Group) : Nat := 32 * (4 * x.budget + 8 * 16 + 8 * 16 + 8)

/-- The groups of a track whose rows are in its register cache. -/
def State.cached (s : State) (core track : Nat) : List (Nat × Group) :=
  s.groups.filter (fun p => p.2.core == core && p.2.track == track && !p.2.imaged)

/-- A group claims register rows of its track: where the rows there do not all fit, those of other groups are written to their context images, of halted
ones first (R3, R369). -/
def State.claimRows (s : State) (core track g : Nat) : State :=
  let others := (s.cached core track).filter (fun p => p.1 != g)
  (others.filter (fun p => s.asleep p.2.ctx) ++ others.filter (fun p => !s.asleep p.2.ctx)).foldl (fun t p =>
    if ((t.cached core track).map (fun q => q.2.rowBytes)).sum > Config.registerCache then t.updGroup p.1 (fun x => { x with imaged := true }) else t) s

/-- The rows of a group read back from its context image as it issues (R3, R369). -/
def State.recallRows (s : State) (g : Nat) : State :=
  let x := s.group g
  if x.imaged then (s.updGroup g (fun x => { x with imaged := false })).claimRows x.core x.track g else s

/-- A team placed where placement has put its groups. -/
def State.placeTeam (s : State) (grid : Nat) (where' : List (Nat × Nat)) : State :=
  let team := (s.grid grid).nextTeam
  let r := where'.foldl (fun (t : State × List Nat × Nat) p => (t.1.newGroup grid team t.2.2 p.1 p.2, t.2.1 ++ [t.1.ids], t.2.2 + 1)) (s, [], 0)
  let s := r.1.updGrid grid (fun q =>
    { q with nextTeam := q.nextTeam + 1, teams := q.teams.put team ⟨r.2.1, ascending (where'.map Prod.fst), 0, []⟩ })
  (r.2.1.zip where').foldl (fun t p => (t.claimRows p.2.1 p.2.2 p.1).claimScratch p.2.1 (s.grid grid).ctx []) s

/-- Whether a grid may be placed: earlier records of its queue are placed whole and, for a SERIAL record, the one just before it is done (R95). -/
def State.mayPlace (s : State) (r : Grid) : Bool :=
  (s.grids.vals.filter (fun q => q.vf == r.vf && q.queue == r.queue && decide (q.number < r.number))).all (fun q =>
    decide (q.nextTeam ≥ q.record.teams) && !(r.record.serial && q.number + 1 == r.number))

/-- TEAM_PLACEMENT: the next team of a grid, or a co-scheduled grid whole (R96, R97, R98). -/
def execTeamPlacement (grid : Nat) (s : State) : Host.Outcome State Fault Refusal :=
  match s.grids.find? grid with
  | none => .next s
  | some r =>
    if !s.mayPlace r || (s.ctx r.ctx).halt.isSome || (s.ctx r.ctx).ending || decide (r.nextTeam ≥ r.record.teams) then .next s
    else
      let n := if r.record.cosched then r.record.teams else 1
      match placeTeams n (s.rooms r.vf) r.record.cores r.record.groups with
      | none => .next s
      | some l => .next (l.foldl (fun t p => t.placeTeam grid p) s)

-- ## Ends (R42)

/-- What a group leaves behind on its core as it is removed: the state without it (R42, R110, R370). -/
def State.removeGroup (s : State) (g : Nat) : State :=
  let x := s.group g
  let s := { s with groups := s.groups.del g }
  let rest := s.groups.vals.filter (fun y => y.core == x.core)
  let vf := (s.grid x.grid).vf
  let mine := rest.any (fun y => (s.grid y.grid).vf == vf)
  s.updCore x.core (fun c => { c with
    buckets := (match (if mine then none else c.buckets.find? vf) with
      | some b => if s.waitsAt x.core vf then c.buckets
          else (c.buckets.del vf).upd 64 ⟨0, false⟩ (fun p => ⟨p.balance + b.balance, false⟩)
      | none => c.buckets),
    tracks := if rest.any (fun y => y.track == x.track && y.ctx == x.ctx) then c.tracks else c.tracks.adjust x.track (fun t =>
      { t with passes := t.passes.keep (fun k _ => k % 2 ^ 32 != x.ctx), asks := t.asks.del x.ctx }) })

/-- GROUP_END: the last fibre has quit, the counters are 0 and every ticket ever linked holds its truth (R42). Where it was
the last with its traps masked, a latched pre-emption request is taken (R139). -/
def execGroupEnd (g : Nat) (s : State) : Host.Outcome State Fault Refusal :=
  match s.groups.find? g with
  | none => .next s
  | some x =>
    let c := s.core x.core
    let settled := c.tickets.vals.all (fun t => t.g != g || t.truth.isSome)
    if !x.fibres.isEmpty || x.loads + x.stores + x.copies + x.tiles != 0 || !settled || !s.runs x.ctx g then .next s
    else
      let s := s.updGrid x.grid (fun r => { r with warn := r.warn ||| x.warn })
      let s := s.removeGroup g
      let last := ((s.grid x.grid).teams.get x.team Team.none).groups.all (fun h => (s.groups.find? h).isNone)
      .next ((if last then s.updGrid x.grid (fun r => { r with teams := r.teams.del x.team }) else s).reapSlots.serveLatched x.ctx)

/-- Whether every store and atomic of a grid is performed at `.sys` (R287). -/
def State.gridSettled (s : State) (grid : Nat) : Bool :=
  s.cores.vals.all (fun c => c.stores.vals.all (fun t => t.grid != grid) && c.atomics.vals.all (fun a => a.grid != grid))

/-- GRID_END: the last team has ended, its stores and atomics are performed at `.sys` (R287), the charges of its last interval are scaled (R380), and the completion record is written (R42, R94). TAIL of its queue is read again (R90). -/
def execGridEnd (grid : Nat) (s : State) : Host.Outcome State Fault Refusal :=
  match s.grids.find? grid with
  | none => .next s
  | some r =>
    if decide (r.nextTeam < r.record.teams) || !r.teams.isEmpty || r.charge != 0 || !s.gridSettled grid || s.deviceHeld r.ctx r.record.done 64 || s.queueHeld r.vf r.queue then .next s
    else match s.writeCompletion r.ctx r 0 with
      | none => .next (s.askSupervisor r.ctx r.record.done)
      | some t => .next (({ t with grids := t.grids.del grid }).readTail r.vf r.queue)

/-- A context's pins of a die's L2 given up (R221). -/
def Die.unpin (d : Die) (ctx : Nat) : Die :=
  { d with l2 := d.l2.mapVals (fun _ l => if l.pin = some ctx then { l with pin := none } else l), tlb := d.tlb.filter (fun p => p.ctx != ctx), walks := d.walks.filter (fun w => w.ctx != ctx) }

/-- A context removed with everything that is its own. -/
def State.removeContext (s : State) (ctx : Nat) : State :=
  let s := { s with
    cores := s.cores.mapVals (fun _ c => c.forget ctx (s.owns ctx)),
    dies := s.dies.mapVals (fun _ d => d.unpin ctx),
    calls := s.calls.keep (fun _ q => q.ctx != ctx),
    signals := s.signals.keep (fun _ q => q.ctx != ctx), posts := s.posts.keep (fun _ q => q.ctx != ctx),
    grids := s.grids.keep (fun _ r => r.ctx != ctx) }
  let s := ((s.groups.filter (fun p => p.2.ctx == ctx)).map Prod.fst).foldl (fun t g => t.removeGroup g) s
  { s with ctxs := s.ctxs.del ctx }.reapSlots

/-- CONTEXT_SETUP: the supervisor sets up a context under a number of 32 bits (R365), with a scratch size of 4 KiB to 256 KiB in units of 4 KiB (R125, R129, R197, R203, R219). -/
def execContextSetup (ctx vf : Nat) (ptroot stopa : W64) (scratch lockLimit : Nat) (tvec : W64) (s : State) : Host.Outcome State Fault Refusal :=
  if decide (ctx ≥ 2 ^ 32) || (s.ctxs.find? ctx).isSome || !(s.vf vf).alive || decide ((s.ctxs.vals.filter (fun c => c.vf == vf)).length ≥ 16)
      || decide (scratch % 4096 ≠ 0 ∨ scratch < 4096 ∨ 262144 < scratch) then .next s
  else
    .next { s with ctxs := s.ctxs.put ctx { Ctx.none with
      vf := vf, ptroot := bitsAt ptroot.toNat 47 12 * 4096, stopBase := stopa &&& ~~~0xFFF, stopSize := stopSizeOf stopa, scratch := scratch,
      lockLimit := lockLimit % 2 ^ 16, entry := (tvec >>> 2).setWidth 62, d := tvec.getLsbD 0 } }

end Sys2Proof.Machine
end

