-- ==== Sys2Proof/Machine/Orders.lean ====
section
/-! DEFINITION. Acquire, release and promotion, fences, cache control and pinning (R252 to R262), with the events of an acquiring load and of
a promotion. -/

namespace Sys2Proof.Machine

-- ## LDAQ (R252 to R254)

/-- The core that a victim operand names (R254). -/
def victimCore (v : Nat) : Nat := v / 2 ^ 8 % 2 ^ 8 * Config.coresPerDie + v % 2 ^ 8

/-- Whether a victim operand names an enabled core of a context's partition (R98, R254). -/
def State.victimOk (s : State) (ctx v : Nat) : Bool :=
  decide (v < 2 ^ 16 ∧ v % 2 ^ 8 < Config.coresPerDie) && has (s.vf (s.ctx ctx).vf).dies (v / 2 ^ 8) && !(s.core (victimCore v)).retired

/-- The scope at which an LDAQ acts, as a scope code (R254). -/
def acquireScope (scope core : Nat) (victims : List Nat) : Nat :=
  if victims.isEmpty then scope
  else Nat.max scope (if victims.any (fun v => dieOf v != dieOf core) then 3 else 2)

/-- The load of an LDAQ put into the load-store engine; at the scopes that invalidate the L1 it marks the fills in flight as it issues (R253,
R279). -/
def State.sendAcquire (s : State) (x : Group) (dst : Dst) (form : LoadForm) (bytes scope : Nat) (victims : List Nat)
    (pas : List (Nat × Nat × Page)) (va : Nat → W64) : State :=
  if pas.isEmpty then s
  else
    let sc := acquireScope scope x.core victims
    let lane := fun (p : Nat × Nat × Page) =>
      let b := x.fibre p.1
      (p.1, (⟨b.uid, va p.1, some p.2.1, p.2.2.mtype, decide (sc = 0) && p.2.2.l1Ok, p.2.2.l2Ok, 0, none, false, 0, form, (dst.regs b).head?,
        false, false, .waiting, true, false, none, p.2.2.consults, p.2.2.conf, none, 0⟩ : LaneLoad))
    let load : Load := ⟨s.cur.g, x.ctx, s.cur.pc, s.ids, false, bytes, s.ticks, false, some sc, victims, pas.map lane⟩
    let s := pas.foldl (fun t p => t.sample x.core s.cur.g (lineOf p.2.1)) s
    let s := { s.updCore x.core (fun c => { c with loads := c.loads.put s.ids load }) with ids := s.ids + 1 }
    let s := s.mapLanes s.cur.g (pas.map Prod.fst) (fun _ b => { b with locks := b.locks ++ (dst.regs b).map (fun r => ⟨r, true, s.clocks⟩) })
    let s := if flushes sc (s.teamOf x).cores.length then s.updCore x.core Core.markFills else s
    s.updGroup s.cur.g (fun x => { x with loads := x.loads + 1 })

/-- LDAQ (R253, R254). -/
def execLdaq (m : Mods) (w : BitVec 1) (d : BitVec 7) (k : BitVec 4) (sc : BitVec 3) (v : BitVec 7) (s : State) : Host.Outcome State Fault Refusal :=
  .next (s.plain (.ldaq m w d k sc v) (fun e s =>
    let named := v.toNat != 120
    s.control 2 (fun _ _ b => ctlMask b e.mask ++ (if named && b.active e.mask then [ctlK b 1 v.toNat] else [])) (fun s =>
    let x := s.here
    let act := activeLanes s e
    let base := fun (l : Nat) => s.readCode x l (x.fibre l) (96 + k.toNat) 1
    let va := fun (l : Nat) => BitVec.ofNat 64 (base l).bits
    let victim := fun (l : Nat) => ((x.fibre l).kReg (v.toNat - 96)).val.toNat
    let dst := Dst.vk d.toNat (w.toNat + 1)
    let bytes := 4 * (w.toNat + 1)
    s.baseChecks act base (fun s =>
    let bad := act.filter (fun l => named && !s.victimOk x.ctx (victim l))
    if !bad.isEmpty then s.precise 6 0 1 2 bad (BitVec.ofNat 64 (victim (firstLane bad)))
    else
      let addrs := act.map (fun l => (l, va l))
      match s.reachWith x.ctx x.core .read bytes (fun _ _ => none) addrs with
      | .trap l sub => s.memFault x.ctx 2 0 l sub (va l)
      | .poisoned l => s.walkPoison 2 5 l (va l)
      | .replay ls => s.suspend (.ldaq m w d k sc v) e true dst.regs x.ctx addrs ls
      | .ok pas =>
        let s := addrs.foldl (fun t p => t.fillTlb x.ctx x.core p.2) s
        let s := s.zeroMasked e act dst x
        let victims := if named then ascending (act.map (fun l => victimCore (victim l))) else []
        (s.sendAcquire x dst (resultForm d bytes) bytes sc.toNat victims pas va).complete x e dst.regs))))

/-- Whether some store of any core to a line, or a line that a copy has written, is written into an L2 and not yet performed at `.pkg` (R278,
R335). -/
def State.unacknowledged (s : State) (a n : Nat) : Bool :=
  s.cores.vals.any (fun c => c.stores.vals.any (fun t => !t.scratch && t.level == 2 && shares t.pa t.data.length a n)
    || c.copies.vals.any (fun o => o.lines.any (fun la => shares la 128 a n)))

/-- The line that an LDAQ of a scope reads, and the state it leaves (R253, R278, R284). A read that a firewall refuses is reported (R368). -/
def State.acquireLine (s : State) (ctx core la mtype scope : Nat) (l2 conf : Bool) : State × L1Line :=
  if mtype = 2 then (if s.linkOk (dieOf core) la then s.countPacket la conf else s.reportRefused ctx core [la], s.homeLine (dieOf core) la)
  else if s.barred (dieOf core) la && (decide (scope ≥ 3) || ((s.die (dieOf core)).l2.find? la).isNone) then (s.reportRefused ctx core [la], refusedLine)
  else if scope ≥ 4 && isCauseway la then let t := s.cleanAll la; (t.countPacket la conf, t.memLine la)
  else if scope ≥ 3 then (s.readLine (dieOf core) la 0 false conf, s.directoryLine la)
  else let t := s.readLine (dieOf core) la 0 l2 conf; (t, t.l2Line (dieOf core) la)

/-- The data of one lane of an LDAQ arrive (R253, R254, R270): its victims are drained, the fibre's earlier loads have their values, and it
reads where a store of its scope is performed. Beyond `.grp` that is past the L1, whose own copy of the line gives way (R265, R275). -/
def State.acquireArrives (s : State) (core id lane scope : Nat) (l : Load) (e : LaneLoad) : State :=
  let c := s.core core
  let pa := e.pa.getD 0
  let la := lineOf pa
  if !l.victims.isEmpty || !c.loadsDone l.g e.uid l.seq none || !c.atomicsDone l.g e.uid l.seq none then s
  else if scope = 0 then s.arrive core id lane
  else if !s.laneReady core l e || c.queuedBefore s.ids pa l.bytes || (e.host && s.hostHolds la) || (scope ≥ 3 && s.unacknowledged la 128) then s
  else s.send l.ctx core (tokens l.bytes) ⟨0, id, lane⟩ (fun s =>
    let r := s.acquireLine l.ctx core la e.mtype scope e.l2 e.conf
    let v := r.1.laneValue core l lane e (fun _ => r.2)
    (r.1.updCore core (fun c => c.dropLine la)).deliver core id lane v.1 v.2)

/-- LOAD_DATA_ARRIVAL (R226, R253). -/
def execLoadDataArrival (core load lane : Nat) (s : State) : Host.Outcome State Fault Refusal :=
  match (s.core core).loads.find? load with
  | none => .next s
  | some l => match l.acquire, l.lanes.find? lane with
    | some scope, some e => .next (if e.state == LaneState.waiting then s.acquireArrives core load lane scope l e else s)
    | _, _ => .next (s.dataArrives core load lane)

/-- Every store and atomic that a core has accepted performed as far as a level, each as far as it can be now (R254). -/
def State.drainCore (s : State) (core level : Nat) : State :=
  let step := fun (t : State) (id : Nat) => match (t.core core).stores.find? id with
    | some r => if decide (r.level ≥ 1 ∧ r.level < level) && !r.scratch then t.performStore core id r else t
    | none => t
  let pass := fun (t : State) => (t.core core).stores.keys.foldl step t
  let s := if level ≥ 3 then pass (pass s) else pass s
  (s.core core).atomics.foldl (fun t p => p.2.lanes.foldl (fun t q =>
    match q.2.order with
    | some n => t.atomicAtPort core p.1 q.1 n p.2 q.2
    | none => t) t) s

/-- Whether a core has nothing accepted that is not yet performed at a level. -/
def Core.drained (c : Core) (level : Nat) : Bool :=
  c.stores.vals.all (fun t => t.level == 0 || decide (t.level ≥ level)) && c.atomics.vals.all (fun a => a.lanes.vals.all (fun e => e.order.isNone))

/-- PROMOTION_DRAIN: the victim performs what its load-store engine had accepted, and its L1 is invalidated (R254). -/
def execPromotionDrain (core load victim : Nat) (s : State) : Host.Outcome State Fault Refusal :=
  match (s.core core).loads.find? load with
  | none => .next s
  | some l =>
    if !has l.victims victim then .next s
    else
      let level := if dieOf victim = dieOf core then 2 else 3
      let t := s.drainCore victim level
      if !(t.core victim).drained level then .next t
      else .next ((t.updCore victim Core.flushL1).updLoad core load (fun l => { l with victims := drop l.victims victim }))

-- ## STRL and the fences (R255 to R259)

/-- STRL (R255): the checks of a store, the release, and then the store. -/
def execStrl (m : Mods) (w : BitVec 2) (k : BitVec 4) (sc : BitVec 3) (b : BitVec 7) (s : State) : Host.Outcome State Fault Refusal :=
  let n := storeBytes w.toNat
  let z : StoreIns := ⟨.strl m w k sc b, 96 + k.toNat, 0, n, srcB' m b (dataRows n), 1, false, false, 0⟩
  .next (s.plain z.ins (fun e s => s.storeChecks z e (fun lanes s =>
    s.released (scopeLevel sc.toNat) s.cur.lanes (fun s =>
      let x := s.here
      (s.sendStores z (scopeLevel sc.toNat) x lanes).complete x e (fun _ => [])))))

/-- The wait of a fence for one fibre, if it has one: the release, then the acquire (R257, R258). -/
def State.fenceWait (s : State) (x : Group) (kind level lane : Nat) (r : Option (W64 × Nat)) : Option Wait :=
  let b := x.fibre lane
  let u := b.upto s.ids
  if kind ≠ 1 && !s.releaseDone x.core s.cur.g b.uid level u r then some (.release level u r)
  else if kind ≠ 2 && !((s.core x.core).loadsDone s.cur.g b.uid u r && (s.core x.core).atomicsDone s.cur.g b.uid u r) then some (.acquire u r)
  else none

/-- FENCE and RFENCE (R257, R258): each fibre waits until what it orders is done, and an acquire acts on the L1. -/
def State.fence (s : State) (e : Eff) (kind scope : Nat) (range : Fibre → Option (W64 × Nat)) : State :=
  let x := s.here
  let w := fun (l : Nat) => s.fenceWait x kind (scopeLevel scope) l (range (x.fibre l))
  let go := s.cur.lanes.filter (fun l => (w l).isNone)
  let s := s.mapLanes s.cur.g s.cur.lanes (fun l b => match w l with | some t => { b with wait := t } | none => b)
  if go.isEmpty then s
  else
    let s := s.narrow go
    let s := if kind = 2 then s else s.acquireL1 x.core scope (s.teamOf x).cores.length
    s.complete x e (fun _ => [])

/-- FENCE (R257). -/
def execFence (m : Mods) (n : BitVec 2) (sc : BitVec 3) (s : State) : Host.Outcome State Fault Refusal :=
  .next (s.plain (.fence m n sc) (fun e s => s.fence e n.toNat sc.toNat (fun _ => none)))

/-- RFENCE (R258). -/
def execRfence (m : Mods) (n : BitVec 2) (sc : BitVec 3) (a b : BitVec 7) (s : State) : Host.Outcome State Fault Refusal :=
  .next (s.plain (.rfence m n sc a b) (fun e s => s.control 2 (fun _ _ f => [ctlK f 0 a.toNat, ctlK f 1 b.toNat]) (fun s =>
    s.fence e n.toNat sc.toNat (fun f => some ((f.kReg (a.toNat - 96)).val, (f.kReg (b.toNat - 96)).val.toNat)))))

/-- The level at which an XFENCE acts (R259, R345). -/
def pathLevel (mask level : Nat) : Nat := if bitAt mask 1 || bitAt mask 2 || bitAt mask 3 then Nat.max level 2 else level

/-- Whether the earlier accesses of a fibre on the named paths are performed at a level (R259, R344, R345): the LS path with the wait of
R238; the copies and tile operations of its group, and its group's requests on the FABRIC path. -/
def State.pathsDone (s : State) (g uid mask level upto : Nat) : Bool :=
  let x := s.group g
  let c := s.core x.core
  let early := fun (p : Copy) => p.g == g && decide (p.seq < upto)
  let open' := fun (p : Copy) => !(p.ended && decide (level ≤ 2))
  (!bitAt mask 0 || s.releaseDone x.core g uid (pathLevel mask level) upto none)
    && (!bitAt mask 1 || c.copies.vals.all (fun p => !(early p && (p.kind == 0 || p.kind == 1 || p.kind == 4) && open' p)))
    && (!bitAt mask 2 || c.tileOps.vals.all (fun o => !(o.g == g && decide (o.seq < upto))))
    && (!bitAt mask 3 || c.copies.vals.all (fun p => !(early p && (p.kind == 2 || p.kind == 3) && open' p)))
    && (!bitAt mask 4 || (s.signals.all (fun p => !(p.2.g == g && decide (p.1 < upto))) && s.posts.all (fun p => !(p.2.g == g && decide (p.1 < upto)))
      && s.calls.all (fun p => !(p.2.g == g && decide (p.1 < upto)))))

/-- XFENCE (R259). -/
def execXfence (m : Mods) (sc : BitVec 3) (p : BitVec 5) (s : State) : Host.Outcome State Fault Refusal :=
  .next (s.plain (.xfence m sc p) (fun e s =>
    let x := s.here
    let level := scopeLevel sc.toNat
    let done := fun (l : Nat) => s.pathsDone s.cur.g (x.fibre l).uid p.toNat level ((x.fibre l).upto s.ids)
    let go := s.cur.lanes.filter done
    let s := s.mapLanes s.cur.g s.cur.lanes (fun l b => if done l then b else { b with wait := .paths p.toNat level (b.upto s.ids) })
    if go.isEmpty then s else (s.narrow go).complete x e (fun _ => [])))

-- ## Cache control and pinning (R219 to R221, R260 to R262)

/-- The context that holds a line pinned, and the die in whose L2 it does (R221). -/
def State.pinOf (s : State) (la : Nat) : Option (Nat × Nat) :=
  firstSome ((upTo Config.dies).map (fun d => match (s.die d).l2.find? la with | some l => l.pin.map (fun c => (d, c)) | none => none))

/-- Whether a quarter of the ways of a line's set in a die's L2 are pinned, by LOCK or by streamed bindings (R220). -/
def State.quarterPinned (s : State) (d la : Nat) : Bool :=
  let pinned := (s.die d).l2.filter (fun p => p.2.pin.isSome || p.2.bound != 0)
  decide (pinned.length ≥ Config.l2Ways / 4) && decide ((pinned.filter (fun p => l2SetOf p.1 == l2SetOf la)).length ≥ Config.l2Ways / 4)

/-- LOCK of one line: a line that is absent, and that the context holds pinned in no die, is first read into the L2 of the issuing die, as far as
its page lets it be cached; then its status (R220, R261). A line that a firewall refuses is not there to pin: status 1 (log entry 96). -/
def State.lockLine (s : State) (ctx core la : Nat) (p : Page) : Nat × State :=
  let c := s.ctx ctx
  let d := dieOf core
  let mine := match s.pinOf la with | some (_, o) => o == ctx | none => false
  let s := if p.l2Ok && !mine then (s.reportReads ctx core [la]).l2Fetch d la 0 p.conf else s
  if !p.lk || p.alloc = 3 || p.mtype = 2 || isCauseway la then (3, s)
  else match s.pinOf la with
    | some (_, o) => (if o = ctx then 0 else 2, s)
    | none =>
      if c.lockUsed ≥ c.lockLimit || s.quarterPinned d la || ((s.die d).l2.find? la).isNone then (1, s)
      else
        let s := s.updDie d (fun x => { x with l2 := x.l2.adjust la (fun l => { l with pin := some ctx }) })
        (0, { s with ctxs := s.ctxs.adjust ctx (fun c => { c with lockUsed := c.lockUsed + 1 }) })

/-- UNLOCK of one line: its status (R261). -/
def State.unlockLine (s : State) (ctx la : Nat) : Nat × State :=
  match s.pinOf la with
  | some (d, o) =>
    if o ≠ ctx then (1, s)
    else
      let s := s.updDie d (fun x => { x with l2 := x.l2.adjust la (fun l => { l with pin := none }) })
      (0, { s with ctxs := s.ctxs.adjust ctx (fun c => { c with lockUsed := c.lockUsed - 1 }) })
  | none => (1, s)

/-- The checks of R260 up to the translation of every fibre of the issue set, then `go` with the lines. -/
def State.cacheOp (s : State) (i : Instr) (load : Bool) (dst : Fibre → List Reg) (b : BitVec 7) (off : W64) (go : Eff → List (Nat × Nat × Page) → State → State) : State :=
  s.plain i (fun e s =>
    let x := s.here
    let addr := fun (l : Nat) => s.lsAddr x b.toNat off l
    let va := fun (l : Nat) => BitVec.ofNat 64 (addr l).bits
    s.baseChecks s.cur.lanes addr (fun s =>
      let addrs := s.cur.lanes.map (fun l => (l, va l))
      match s.reach x.ctx x.core .read addrs with
      | .trap l sub => s.memFault x.ctx 2 0 l sub (va l)
      | .poisoned l => s.walkPoison 2 5 l (va l)
      | .replay ls => s.suspend i e load dst x.ctx addrs ls
      | .ok pas => go e (pas.map (fun p => (p.1, lineOf p.2.1, p.2.2))) (addrs.foldl (fun t p => t.fillTlb x.ctx x.core p.2) s)))

/-- LOCK and UNLOCK: each fibre's line in ascending lane order, then the statuses (R261). A line whose half a host holds exclusive is
waited for (R280), and so is an earlier LDAQ of a fibre without its value (R253). The lines that are read go out at the core's port (R370). -/
def State.pinOp (s : State) (i : Instr) (d b : BitVec 7) (off : W64) (reads : Nat → Page → Bool) (op : State → Nat → Page → Nat × State) : State :=
  s.cacheOp i true (Dst.k d.toNat).regs b off (fun e lines s =>
    let x := s.here
    let early := s.cur.lanes.any (fun l => !(s.core x.core).acquired s.cur.g (x.fibre l).uid s.ids)
    let out := (lines.filter (fun p => reads p.2.1 p.2.2)).map (fun p => p.2.1) |>.foldl addOnce []
    if !s.vfUp x.ctx then s.dropRequests x.ctx x.core
    else if early || lines.any (fun p => p.2.2.consults && s.hostHolds p.2.1) then s
    else s.throughPort x.ctx x.core (2 * out.length) (fun s =>
      let r := lines.foldl (fun (t : List (Nat × Nat) × State) p => let u := op t.2 p.2.1 p.2.2; (t.1 ++ [(p.1, u.1)], u.2)) ([], s)
      (r.2.setDest (.k d.toNat) (fun l _ => Val.of ((r.1.filter (fun p => p.1 == l)).map Prod.snd).sum)).complete x e (Dst.k d.toNat).regs))

/-- Whether LOCK reads a line into the L2 of its die: its page lets it be there, it is not there yet, and the context holds it pinned in no die (R220). -/
def State.lockReads (s : State) (ctx core la : Nat) (p : Page) : Bool :=
  p.l2Ok && ((s.die (dieOf core)).l2.find? la).isNone && !(match s.pinOf la with | some (_, o) => o == ctx | none => false)

/-- LOCK (R261). -/
def execLock (m : Mods) (d b : BitVec 7) (o : BitVec 5) (s : State) : Host.Outcome State Fault Refusal :=
  .next (s.pinOp (.lock m d b o) d b (offImm m o 128) (fun la p => s.lockReads s.here.ctx s.here.core la p) (fun t la p => t.lockLine s.here.ctx s.here.core la p))
/-- UNLOCK (R261). -/
def execUnlock (m : Mods) (d b : BitVec 7) (o : BitVec 5) (s : State) : Host.Outcome State Fault Refusal :=
  .next (s.pinOp (.unlock m d b o) d b (offImm m o 128) (fun _ _ => false) (fun t la _ => t.unlockLine s.here.ctx la))

/-- Whether a write-back of a line has work to do: the L2 of the die holds it, a store to it is on its way, or, for CINV, the L1 holds it or
a fill of it is in flight (R262). -/
def State.writeBackDue (s : State) (core la : Nat) (inv : Bool) : Bool :=
  let c := s.core core
  ((s.die (dieOf core)).l2.find? la).isSome
    || c.stores.vals.any (fun t => !t.scratch && decide (t.pa < la + 128 ∧ la < t.pa + t.data.length))
    || (inv && ((c.l1.find? la).isSome || (c.fills.find? la).isSome))

/-- CINV and CWB: one write-back for each line that needs work, counted as a store (R19, R260, R262). -/
def State.writeBacks (s : State) (i : Instr) (b : BitVec 7) (off : W64) (inv : Bool) : State :=
  s.cacheOp i false (fun _ => []) b off (fun e lines s =>
    let x := s.here
    let due := lines.filter (fun p => p.2.2.mtype != 2 && s.writeBackDue x.core p.2.1 inv)
    let op := s.ids
    let s := if due.isEmpty then s else s.updGroup s.cur.g (fun x => { x with stores := x.stores + 1 })
    let s := due.foldl (fun t p => t.pushStore x.core { Store.none with
      op := op, g := s.cur.g, ctx := x.ctx, uid := (x.fibre p.1).uid, seq := op,
      va := BitVec.ofNat 64 (s.lsAddr x b.toNat off p.1).bits &&& ~~~127, pa := p.2.1, data := List.replicate 128 0,
      mtype := if inv then 3 else p.2.2.mtype, writeBack := true, counted := true, host := p.2.2.consults, conf := p.2.2.conf, grid := x.grid }) s
    s.complete x e (fun _ => []))

/-- CINV (R262). -/
def execCinv (m : Mods) (b : BitVec 7) (o : BitVec 5) (s : State) : Host.Outcome State Fault Refusal :=
  .next (s.writeBacks (.cinv m b o) b (offImm m o 128) true)
/-- CWB (R262). -/
def execCwb (m : Mods) (b : BitVec 7) (o : BitVec 5) (s : State) : Host.Outcome State Fault Refusal :=
  .next (s.writeBacks (.cwb m b o) b (offImm m o 128) false)

end Sys2Proof.Machine
end

