-- ==== Sys2Proof/Machine/Copies.lean ====
section
/-! DEFINITION. The copy engine: CPY, CPY2, GATH, SCAT, CFILL and CSTAT, and the events by which a copy moves a piece and retires (R330 to R343). -/

namespace Sys2Proof.Machine

-- ## Issue (R330, R331)

/-- The control operands of an instruction that acts once for its issue set, read in the lowest lane: the whole set waits as one (R69, R331). -/
def State.controlUnit (s : State) (eng : Nat) (ops : Fibre → List Ctl) (go : State → State) : State :=
  let x := s.here
  let l := firstLane s.cur.lanes
  let b := x.fibre l
  let c := ops b
  let regs := (c.filter (fun o => o.val.g)).flatMap Ctl.regs
  if c.any (fun o => o.val.p) then s.precise 8 0 (ctlField [c] (fun o => o.val.p)) eng [l] 0
  else if !c.any (fun o => o.val.g) then go s
  else if !(s.core x.core).truthful s.cur.g b.uid then s.wait s.cur.lanes (.truths [] [b.uid] false)
  else if b.gm then s.precise 3 3 (ctlField [c] (fun o => o.val.g)) eng [l] (BitVec.ofNat 64 (maskOf [l]))
  else go ((s.releaseHolders s.cur.g b.uid regs false).mapLanes s.cur.g [l] (fun _ b => regs.foldl Fibre.clearG b))

/-- What a copy instruction gives the checks of R331: its address operands and its control operands with their field codes, and what they
ask for. -/
structure CopyIns where
  ins : Instr
  addrs : List (Nat × Nat)
  ctls : List (Nat × Nat)
  /-- The register of a fill pattern. -/
  pattern : Option Nat
  /-- The limits: field code, value and whether it is within them; the alignments: whether it is the destination's address, the value, and
  what it must be a multiple of; and the copy. -/
  limits : Fibre → List (Nat × Nat × Bool)
  aligned : Fibre → List (Bool × Nat × Nat)
  copy : Fibre → Copy

/-- The scratch ranges of a copy that reach beyond the scratch size: whether it is the destination, and where it starts (R331). -/
def Copy.scratchBad (c : Copy) (size : Nat) : List (Bool × W64) :=
  let dst := if c.kind ≤ 1 then 1 else if c.kind = 3 then 2 else 0
  (c.ranges.zipIdx.filter (fun r => r.1.1 && decide (r.1.2.1.toNat + r.1.2.2 > size))).map (fun r => (r.2 == dst, r.1.2.1))

/-- Whether a core has no room for a copy: its copy engine or its range scoreboard is full (R331, R336). -/
def Core.copyFull (c : Core) (o : Copy) : Bool :=
  decide (c.copies.length ≥ Config.copies ∨ ((c.copies.vals.map (fun o => o.ranges.length)).sum + o.ranges.length) > Config.ranges)

/-- The copy that an instruction asks for in a fibre, charged to its group (R331). -/
def CopyIns.make (z : CopyIns) (s : State) (g lane : Nat) (x : Group) : Copy :=
  { z.copy (x.fibre lane) with g := g, ctx := x.ctx, seq := s.ids, lane := lane }

/-- THE COPIES (R330, R331, R335, R336): the checks in order, and then the copy is in flight. A copy of nothing retires at issue; one that
finds the copy engine or the range scoreboard full stalls at issue. -/
def State.copy (s : State) (z : CopyIns) : State :=
  s.plain z.ins (fun e s =>
    let l := firstLane s.cur.lanes
    let k := fun (f c : Nat) => ctlK (s.here.fibre l) f c
    let ops := z.addrs.map (fun p => k p.1 p.2)
    let bad := ops.filter (fun o => o.val.p)
    let guessed := ops.filter (fun o => o.val.g)
    if !bad.isEmpty then s.precise 8 1 (ctlField [bad] (fun _ => true)) 4 [l] 0
    else if !guessed.isEmpty then s.precise 3 0 (ctlField [guessed] (fun _ => true)) 4 [l] (BitVec.ofNat 64 (maskOf [l]))
    else s.controlUnit 4 (fun b => z.ctls.map (fun p => ctlK b p.1 p.2)) (fun s =>
      let x := s.here
      let b := x.fibre l
      let c := z.make s s.cur.g l x
      let guessedPattern := match z.pattern with | some r => (b.kReg (r - 96)).g && !(b.kReg (r - 96)).p | none => false
      match guessedPattern, (z.limits b).filter (fun p => !p.2.2), (z.aligned b).filter (fun p => p.2.1 % p.2.2 != 0), c.scratchBad (s.ctx x.ctx).scratch with
      | true, _, _, _ => s.precise 3 1 0 4 [l] (BitVec.ofNat 64 (maskOf [l]))
      | false, p :: _, _, _ => s.precise 6 1 p.1 4 [l] (BitVec.ofNat 64 p.2.1)
      | false, [], p :: _, _ => s.precise 4 2 (if p.1 then 1 else 0) 4 [l] (BitVec.ofNat 64 p.2.1)
      | false, [], [], p :: _ => s.precise 4 1 (if p.1 then 1 else 0) 4 [l] p.2
      | false, [], [], [] =>
        if c.rows * c.rowBytes = 0 then s.complete x e (fun _ => [])
        else if (s.core x.core).copyFull c then s
        else
          let s := { s.updCore x.core (fun o => { o with copies := o.copies.put s.ids c }) with ids := s.ids + 1 }
          (s.updGroup s.cur.g (fun x => { x with copies := x.copies + 1 })).complete x e (fun _ => [])))

/-- Whether a copy that passes the checks of R331 in the lowest lane of its issue set is stalled at issue by a full copy engine or range scoreboard (R28, R331). -/
def State.copyStalls (s : State) (z : CopyIns) (g lane : Nat) (x : Group) : Bool :=
  let b := x.fibre lane
  let c := z.make s g lane x
  let ops := (z.addrs ++ z.ctls).map (fun p => ctlK b p.1 p.2)
  let guessedPattern := match z.pattern with | some r => (b.kReg (r - 96)).g && !(b.kReg (r - 96)).p | none => false
  c.rows * c.rowBytes != 0 && ops.all (fun o => !o.val.p && !o.val.g) && !guessedPattern && (z.limits b).all (fun p => p.2.2)
    && (z.aligned b).all (fun p => p.2.1 % p.2.2 == 0) && (c.scratchBad (s.ctx x.ctx).scratch).isEmpty && (s.core x.core).copyFull c

/-- A copy with nothing in it. -/
def Copy.none : Copy := ⟨0, 0, 0, 0, 0, false, false, 0, 0, 0, 0, 0, 0, 0, false, 0, 0, [], Option.none, false, false, Option.none, 0⟩

/-- A k register of a fibre as a number. -/
def Fibre.kNat (b : Fibre) (c : BitVec 7) : Nat := (b.kReg (c.toNat - 96)).val.toNat
/-- The fourth operand's code (R53). -/
def codeC (m : Mods) (d : BitVec 7) : BitVec 7 := match m.opx with | some o => o.c | none => d
/-- The control operands of a length in b. -/
def lengthCtl (m : Mods) (b : BitVec 7) : List (Nat × Nat) := match m.imx with | some _ => [] | none => [(1, b.toNat)]

/-- CPY as a copy (R339). -/
def cpyIns (m : Mods) (f : BitVec 3) (d a b : BitVec 7) : CopyIns :=
  ⟨.cpy m f d a b, [(3, d.toNat), (0, a.toNat)], lengthCtl m b, none,
    fun x => [(1, kOrImm m x b, decide (kOrImm m x b ≤ 2 ^ 24))],
    fun x => [(true, x.kNat d, 4), (false, x.kNat a, 4), (false, kOrImm m x b, 4)],
    fun x => { Copy.none with
      kind := 0, dstScratch := f.toNat % 2 == 1, srcScratch := decide (f.toNat ≥ 2), dst := BitVec.ofNat 64 (x.kNat d),
      src := BitVec.ofNat 64 (x.kNat a), rows := 1, rowBytes := kOrImm m x b }⟩

/-- CPY (R339). -/
def execCpy (m : Mods) (f : BitVec 3) (d a b : BitVec 7) (s : State) : Host.Outcome State Fault Refusal :=
  .next (s.copy (cpyIns m f d a b))

/-- CPY2 as a copy (R340). -/
def cpy2Ins (m : Mods) (f : BitVec 3) (d a b : BitVec 7) : CopyIns :=
  let c := codeC m d
  let rowb := fun (x : Fibre) => bitsAt (x.kNat b) 31 0
  let dp := fun (x : Fibre) => bitsAt (x.kNat c) 63 32
  let sp := fun (x : Fibre) => bitsAt (x.kNat c) 31 0
  ⟨.cpy2 m f d a b, [(3, d.toNat), (0, a.toNat)], [(1, b.toNat), (2, c.toNat)], none,
    fun x => [(1, x.kNat b, decide (bitsAt (x.kNat b) 63 48 = 0 ∧ rowb x ≤ 2 ^ 24))],
    fun x => [(true, x.kNat d, 4), (false, x.kNat a, 4), (false, rowb x, 4), (false, dp x, 4), (false, sp x, 4)],
    fun x => { Copy.none with
      kind := 1, dstScratch := f.toNat % 2 == 1, srcScratch := decide (f.toNat ≥ 2), dst := BitVec.ofNat 64 (x.kNat d),
      src := BitVec.ofNat 64 (x.kNat a), rows := bitsAt (x.kNat b) 47 32, rowBytes := rowb x, dstPitch := dp x, srcPitch := sp x }⟩

/-- CPY2 (R340). -/
def execCpy2 (m : Mods) (f : BitVec 3) (d a b : BitVec 7) (s : State) : Host.Outcome State Fault Refusal :=
  .next (s.copy (cpy2Ins m f d a b))

/-- The size of an element of GATH and SCAT (R341). -/
def elementSize (z : BitVec 2) : Nat := match z.toNat with | 0 => 4 | 1 => 8 | 2 => 16 | _ => 128

/-- GATH as a copy (R341). -/
def gathIns (m : Mods) (sc : BitVec 1) (z : BitVec 2) (d a b : BitVec 7) : CopyIns :=
  let c := codeC m d
  let n := elementSize z
  ⟨.gath m sc z d a b, [(3, d.toNat), (0, a.toNat), (1, b.toNat)], [(2, c.toNat)], none,
    fun x => [(2, x.kNat c, decide (x.kNat c ≤ 65536))],
    fun x => [(true, x.kNat d, n), (false, x.kNat a, 4), (false, x.kNat b, 4)],
    fun x => { Copy.none with
      kind := 2, dstScratch := sc == 1#1, dst := BitVec.ofNat 64 (x.kNat d), src := BitVec.ofNat 64 (x.kNat a),
      rows := x.kNat c, rowBytes := n, dstPitch := n, table := BitVec.ofNat 64 (x.kNat b) }⟩

/-- GATH (R341). -/
def execGath (m : Mods) (sc : BitVec 1) (z : BitVec 2) (d a b : BitVec 7) (s : State) : Host.Outcome State Fault Refusal :=
  .next (s.copy (gathIns m sc z d a b))

/-- SCAT as a copy (R341). -/
def scatIns (m : Mods) (sc : BitVec 1) (z : BitVec 2) (d a b : BitVec 7) : CopyIns :=
  let c := codeC m d
  let n := elementSize z
  ⟨.scat m sc z d a b, [(3, d.toNat), (0, a.toNat), (1, b.toNat)], [(2, c.toNat)], none,
    fun x => [(2, x.kNat c, decide (x.kNat c ≤ 65536))],
    fun x => [(false, x.kNat a, n), (true, x.kNat d, 4), (false, x.kNat b, 4)],
    fun x => { Copy.none with
      kind := 3, srcScratch := sc == 1#1, dst := BitVec.ofNat 64 (x.kNat d), src := BitVec.ofNat 64 (x.kNat a),
      rows := x.kNat c, rowBytes := n, srcPitch := n, table := BitVec.ofNat 64 (x.kNat b) }⟩

/-- SCAT (R341). -/
def execScat (m : Mods) (sc : BitVec 1) (z : BitVec 2) (d a b : BitVec 7) (s : State) : Host.Outcome State Fault Refusal :=
  .next (s.copy (scatIns m sc z d a b))

/-- CFILL as a copy (R342). -/
def cfillIns (m : Mods) (f : BitVec 1) (d a b : BitVec 7) : CopyIns :=
  ⟨.cfill m f d a b, [(3, d.toNat)], lengthCtl m b, some a.toNat,
    fun x => [(1, kOrImm m x b, decide (kOrImm m x b ≤ 2 ^ 24))],
    fun x => [(true, x.kNat d, 4), (false, kOrImm m x b, 4)],
    fun x => { Copy.none with
      kind := 4, dstScratch := f == 1#1, dst := BitVec.ofNat 64 (x.kNat d), rows := 1, rowBytes := kOrImm m x b,
      table := (x.kReg (a.toNat - 96)).val, poison := (x.kReg (a.toNat - 96)).p }⟩

/-- CFILL (R342). -/
def execCfill (m : Mods) (f : BitVec 1) (d a b : BitVec 7) (s : State) : Host.Outcome State Fault Refusal :=
  .next (s.copy (cfillIns m f d a b))

/-- The copy that an instruction is, if it is one. -/
def Instr.copyIns (i : Instr) : Option CopyIns :=
  match i with
  | .cpy m f d a b => some (cpyIns m f d a b)
  | .cpy2 m f d a b => some (cpy2Ins m f d a b)
  | .gath m sc z d a b => some (gathIns m sc z d a b)
  | .scat m sc z d a b => some (scatIns m sc z d a b)
  | .cfill m f d a b => some (cfillIns m f d a b)
  | _ => none

-- ## CSTAT (R343)

/-- The oldest copy of a group. -/
def Core.oldestCopy (c : Core) (g : Nat) : Option Copy := c.copies.vals.find? (fun o => o.g == g)
/-- What remains of a copy: bytes, or elements of a gather or scatter (R343). -/
def Copy.remaining (c : Copy) : Nat := if c.kind = 2 ∨ c.kind = 3 then c.rows - c.row else c.rows * c.rowBytes - (c.row * c.rowBytes + c.off)
/-- Whether a copy waits on a translation fault or a bias flip. -/
def Copy.waits (c : Copy) : Bool := !c.ended && (c.paused.isSome || c.flip)

/-- Whether an access of a group is held behind a copy (R17, R343). -/
def Core.groupHeld (c : Core) (g : Nat) : Bool :=
  c.loads.vals.any (fun l => l.g == g && l.lanes.vals.any (fun e => e.state != LaneState.landed &&
      (c.held l.ctx l.scratch (if l.scratch then BitVec.ofNat 64 (e.pa.getD 0) else e.va) l.bytes
        || match e.scale with | some a => c.held l.ctx false (e.scaleVa a) 1 | none => false)))
  || c.stores.vals.any (fun t => t.g == g && t.level == 0 && c.held t.ctx t.scratch (if t.scratch then BitVec.ofNat 64 t.pa else t.va) t.data.length)
  || c.atomics.vals.any (fun a => a.g == g && a.lanes.vals.any (fun e => e.order.isNone && c.held a.ctx false e.va a.bytes))

/-- Whether a RET fill of a group is held behind a copy (R17, R75, R343). -/
def State.fillHeld (s : State) (g : Nat) : Bool :=
  let x := s.group g
  x.live.any (fun l => match (x.fibre l).wait with
    | .fill _ _ => (x.fills [l]).any (fun p => (s.core x.core).held x.ctx false p.2 8)
    | _ => false)

/-- The copy state of the issuing group (R343). -/
def State.copyState (s : State) : Nat :=
  let c := s.core s.here.core
  (match c.oldestCopy s.cur.g with | some o => o.remaining % 2 ^ 32 | none => 0) * 2 ^ 32 + s.here.copies * 2 ^ 16
    + (if c.copies.vals.any (fun o => o.g == s.cur.g && o.waits) then 2 else 0) + (if c.groupHeld s.cur.g || s.fillHeld s.cur.g then 1 else 0)

/-- CSTAT (R343). -/
def execCstat (m : Mods) (d : BitVec 7) (s : State) : Host.Outcome State Fault Refusal :=
  .next (s.plain (.cstat m d) (fun e s =>
    let x := s.here
    (s.setDest (.k d.toNat) (fun _ _ => Val.of s.copyState)).complete x e (Dst.k d.toNat).regs))

-- ## Pieces (R332 to R334, R337)

/-- Where some bytes are: so many from a physical address on, with the page; or from a scratch offset on. -/
structure Seg where
  pa : Nat
  n : Nat
  page : Option Page
  deriving DecidableEq, Repr

/-- How the translation of a side of a piece ends. -/
inductive Span where
  | ok (segs : List Seg)
  | trap (sub : Nat) (va : W64)
  | poisoned (va : W64)
  | replay (va : W64)
  /-- A walk or a bias flip is not done: the piece waits (R205, R283). -/
  | held

/-- One side of a piece translated, line by line (R333); at most 128 bytes, so in at most two lines. `going` says that a bias flip in progress does not hold
the piece back, since its copy is still to reach the boundary at which it pauses (R283). -/
def State.span (s : State) (ctx core : Nat) (kind : Kind) (scratch : Bool) (va : W64) (n : Nat) (going : Bool) : Span :=
  if scratch then .ok [⟨va.toNat, n, none⟩]
  else
    let n0 := Nat.min n (128 - va.toNat % 128)
    let one := fun (a : W64) (k : Nat) => match (if going then s.xlateNow ctx core a kind else s.xlate ctx core a kind) with
      | .ok pa p => Span.ok [⟨pa, k, some p⟩]
      | .trap sub => .trap sub a
      | .poisoned => .poisoned a
      | .replay => .replay a
      | .held => .held
    match one va n0 with
    | .ok l => if n = n0 then .ok l else
        (match one (va + BitVec.ofNat 64 n0) (n - n0) with | .ok k => .ok (l ++ k) | r => r)
    | r => r

/-- The physical address of each byte of a list of segments. -/
def segBytes (l : List Seg) : List (Nat × Option Page) := l.flatMap (fun g => (upTo g.n).map (fun i => (g.pa + i, g.page)))

/-- The lines of the global segments of a list. -/
def segLines (l : List Seg) : List Nat := l.flatMap (fun g => if g.page.isSome then linesOf g.pa g.n else [])

/-- The lines that a read of the copy engine brings into the L2 of the die (R333). -/
def State.fetchSegs (s : State) (core : Nat) (l : List Seg) : State :=
  l.foldl (fun t g => match g.page with
    | some p => (linesOf g.pa g.n).foldl (fun t la => t.readLine (dieOf core) la 0 p.l2Ok p.conf) t
    | none => t) s

/-- The lines of a list of segments whose pages consult the host chiplets and of which a host holds a half exclusive (R217, R280). -/
def State.segsHeld (s : State) (l : List Seg) : Bool := l.any (fun g => g.page.any Page.consults && (linesOf g.pa g.n).any s.hostHolds)

/-- The reads or writes of a list of segments that a firewall refuses reported (R368). -/
def State.reportSegs (s : State) (ctx core : Nat) (write : Bool) (l : List Seg) : State :=
  if write then s.reportWrites ctx core (segLines l) else s.reportReads ctx core (segLines l)

/-- One byte as the copy engine reads it, with its poison (R333, R334). -/
def State.engineByte (s : State) (ctx core : Nat) (a : Nat × Option Page) : Byte × Bool :=
  match a.2 with
  | none => let r := s.scratchRead core ctx a.1 1; (r.1.headD 0, r.2)
  | some p =>
    let l := if p.mtype = 2 then s.homeLine (dieOf core) (lineOf a.1) else s.l2Line (dieOf core) (lineOf a.1)
    ((s.ownBytes ctx a.1 [l.data.getD (a.1 % 128) 0]).headD 0, l.poison)

/-- The bytes of a piece moved one at a time: each is read after every earlier one is written (R332). -/
def forwardBytes (read : Nat × Option Page → Byte × Bool) : List (Nat × Option Page) → List (Nat × Option Page) → List ((Nat × Bool) × (Byte × Bool)) → List (Byte × Bool)
  | a :: src, d :: dst, done =>
    let v := match done.find? (fun p => p.1 == (a.1, a.2.isSome)) with | some p => p.2 | none => read a
    v :: forwardBytes read src dst (((d.1, d.2.isSome), v) :: done)
  | _, _, _ => []

/-- Bytes with their poison written by an engine that works at the L2 (R333, R334): every L1 of the die is told; a line written in full from
clean sources loses its mark; a scratch word takes the state of its source. A line that the L2 does not hold enters it under a policy, where its page
lets it (R214, R313). -/
def State.engineWrite (s : State) (ctx core pol : Nat) : List Seg → List (Byte × Bool) → State
  | [], _ => s
  | g :: rest, l =>
    let now := l.take g.n
    let data := now.map Prod.fst
    let bad := now.any Prod.snd
    let s := match g.page with
      | none => (upTo ((g.n + 3) / 4)).foldl (fun (t : State) i =>
          let w := (now.drop (4 * i)).take 4
          t.scratchWrite core ctx (g.pa + 4 * i) (w.map Prod.fst) (w.any Prod.snd)) s
      | some p =>
        if s.barred (dieOf core) (lineOf g.pa) then s
        else
          let t := if p.mtype = 2 then s.homeWrite g.pa data bad p.conf
            else s.l2WriteLine (dieOf core) (2 ^ 32) (lineOf g.pa) (g.pa % 128) data bad (polIn p pol) p.l2Ok p.conf
          (if p.consults then t.dropHost g.pa g.n else t).seal ctx g.pa g.n
    s.engineWrite ctx core pol rest (l.drop g.n)

/-- A copy changed. -/
def State.updCopy (s : State) (core id : Nat) (f : Copy → Copy) : State := s.updCore core (fun c => { c with copies := c.copies.adjust id f })

/-- Lines that an engine has written made the value that every die and node reads (R241, R335). -/
def State.publish (s : State) (core : Nat) (lines : List Nat) : State :=
  lines.foldl (fun t la =>
    let t := t.dropCopies (dieOf core) la
    if isCauseway la then t.cleanAll la else t) s

/-- A copy leaves the scoreboard, its lines performed at `.pkg`, and the counter falls (R335). -/
def State.retireCopy (s : State) (core id : Nat) (c : Copy) : State :=
  let s := s.publish core c.lines
  let s := s.updCore core (fun k => { k with copies := k.copies.del id })
  s.updGroup c.g (fun x => { x with copies := x.copies - 1 })

/-- A copy ended by a fault before a piece: it retires at once, and the trap is then raised (R337). -/
def State.endCopy (s : State) (core id : Nat) (c : Copy) (cause sub info : Nat) (val : W64) : State :=
  let s := s.updCore core (fun k => c.lines.foldl (fun k la => k.applyInvalidation la) k)
  ((s.retireCopy core id c).deferred c.ctx c.g cause sub info 4 c.lane val).forget c.ctx val

/-- The source and destination addresses and the length of the next piece; an element's scattered side is at its index (R332, R341). -/
def Copy.piece (c : Copy) (index : Nat) : W64 × W64 × Nat :=
  let row := fun (base : W64) (pitch : Nat) => base + BitVec.ofNat 64 (c.row * pitch + c.off)
  let at' := fun (base : W64) => base + BitVec.ofNat 64 (index * c.rowBytes)
  if c.kind = 2 then (at' c.src, row c.dst c.dstPitch, c.rowBytes)
  else if c.kind = 3 then (row c.src c.srcPitch, at' c.dst, c.rowBytes)
  else
    let d := row c.dst c.dstPitch
    (row c.src c.srcPitch, d, Nat.min (c.rowBytes - c.off) (128 - d.toNat % 128))

/-- A copy past one more piece. -/
def Copy.next (c : Copy) (n : Nat) (lines : List Nat) : Copy :=
  let c := { c with lines := lines.foldl addOnce c.lines, sent := Option.none, fails := 0 }
  let c := if c.off + n ≥ c.rowBytes then { c with row := c.row + 1, off := 0 } else { c with off := c.off + n }
  { c with ended := decide (c.row ≥ c.rows) }

/-- How many sides of a copy's piece leave the core (R370). -/
def Copy.sides (c : Copy) : Nat := (if c.dstScratch then 0 else 1) + (if c.srcScratch || c.kind == 4 then 0 else 1)

/-- The next piece of a copy moved through the core's port, its index known; `extra` are the tokens of the read of its index (R332 to R334, R337,
R370). -/
def State.movePiece (s : State) (core id : Nat) (c : Copy) (index extra : Nat) : State :=
  let (src, dst, n) := c.piece index
  let from' := if c.kind = 4 then Span.ok [] else s.span c.ctx core .read c.srcScratch src n (!c.atBoundary)
  let pause := fun (va : W64) => (s.askSupervisor c.ctx va).updCopy core id (fun c => { c with paused := some va })
  match from' with
  | .held => s
  | .trap sub va => s.endCopy core id c 4 sub 0 va
  | .poisoned va => (s.reportWalk c.ctx core va).endCopy core id c 8 1 0 va
  | .replay va => pause va
  | .ok sl => match s.span c.ctx core .write c.dstScratch dst n (!c.atBoundary) with
    | .trap sub va => s.endCopy core id c 4 sub 1 va
    | .poisoned va => (s.reportWalk c.ctx core va).endCopy core id c 8 1 3 va
    | .replay va => pause va
    | .held => s
    | .ok dl =>
      if s.segsHeld (sl ++ dl) then s
      else s.send c.ctx core (tokens n * c.sides + extra) ⟨4, id, 0⟩ (fun s =>
        let s := ((s.reportSegs c.ctx core false sl).fetchSegs core sl).reportSegs c.ctx core true dl
        let s := if c.dstScratch then s.recallScratch core c.ctx dst.toNat n else s.fillTlb c.ctx core dst
        let s := if c.kind = 4 then s else if c.srcScratch then s.recallScratch core c.ctx src.toNat n else s.fillTlb c.ctx core src
        let bytes := if c.kind = 4 then (upTo n).map (fun i => ((c.table >>> (8 * ((dst.toNat + i) % 8))).setWidth 8, c.poison))
          else forwardBytes (s.engineByte c.ctx core) (segBytes sl) (segBytes dl) []
        (s.engineWrite c.ctx core 0 dl bytes).updCopy core id (fun c => c.next n (segLines dl)))

/-- COPY_PIECE: the next piece of a copy is moved, after its index is read, or the copy pauses or ends (R332, R337, R341). -/
def execCopyPiece (core copy : Nat) (s : State) : Host.Outcome State Fault Refusal :=
  match (s.core core).copies.find? copy with
  | none => .next s
  | some c =>
    if c.ended || c.waits || !s.copyRuns core c then .next s
    else if c.kind = 2 ∨ c.kind = 3 then
      let va := c.table + BitVec.ofNat 64 (4 * c.row)
      match s.span c.ctx core .read false va 4 (!c.atBoundary) with
      | .trap sub va => .next (s.endCopy core copy c 4 sub 0 va)
      | .poisoned va => .next ((s.reportWalk c.ctx core va).endCopy core copy c 8 1 1 va)
      | .replay va => .next ((s.askSupervisor c.ctx va).updCopy core copy (fun c => { c with paused := some va }))
      | .held => .next s
      | .ok l =>
        if s.segsHeld l then .next s
        else
          let s := (s.reportSegs c.ctx core false l).fetchSegs core l
          let bytes := (segBytes l).map (s.engineByte c.ctx core)
          if bytes.any Prod.snd then .next (s.endCopy core copy c 8 1 1 (va &&& ~~~127))
          else .next (s.movePiece core copy c (ofBytes (bytes.map Prod.fst)) 1)
    else .next (s.movePiece core copy c 0 0)

/-- COPY_RETIRE: every piece is written, and the core's L1 has applied the invalidations of its lines (R335). -/
def execCopyRetire (core copy : Nat) (s : State) : Host.Outcome State Fault Refusal :=
  match (s.core core).copies.find? copy with
  | none => .next s
  | some c =>
    if !c.ended || !s.copyRuns core c || c.lines.any (fun la => has (s.core core).invalidations la) then .next s
    else .next (s.retireCopy core copy c)

end Sys2Proof.Machine
end

