-- ==== Sys2Proof/Machine/Tile.lean ====
section
/-! DEFINITION. The tile engine: handles and hand-over, loading and storing tiles, element access and matrix instructions, and the events by
which tile operations are performed (R301 to R329). -/

namespace Sys2Proof.Machine

-- ## Handles (R301, R306 to R310)

/-- The handle with a number. -/
def Group.handle (x : Group) (h : Nat) : Handle := x.handles.get h Handle.free
/-- A handle of the issuing group set. -/
def State.setHandle (s : State) (h : Nat) (v : Handle) : State := s.updGroup s.cur.g (fun x => { x with handles := x.handles.put h v })

/-- A check of R306: the handle, the kinds accepted, the kind reported, and the lane reported. -/
structure HandleCheck where
  h : Nat
  kinds : List Nat
  expected : Nat
  lane : Nat

/-- The SUB of a failed check (R306). -/
def Group.checkHandle (x : Group) (c : HandleCheck) : Option Nat :=
  if c.h > 63 then some 1
  else
    let v := x.handle c.h
    if !v.owned then some (if v.released then 0 else 1)
    else if !has c.kinds v.kind then some 2
    else Option.none

/-- A HANDLE trap (R133, R306). -/
def State.handleFault (s : State) (sub : Nat) (c : HandleCheck) : State := s.precise 5 sub (c.h % 64 + c.expected * 64) 3 [c.lane] 0

/-- The handles of an instruction checked in order before it issues (R306). -/
def State.checkHandles (s : State) (checks : List HandleCheck) (go : State → State) : State :=
  match checks.filterMap (fun c => (s.here.checkHandle c).map (fun sub => (c, sub))) with
  | (c, sub) :: _ => s.handleFault sub c
  | [] => go s

/-- Every kind. -/
def anyKind : List Nat := [0, 1, 2, 3]

/-- HALLOC (R308). -/
def execHalloc (m : Mods) (d : BitVec 6) (k : BitVec 2) (s : State) : Host.Outcome State Fault Refusal :=
  .next (s.plain (.halloc m d k) (fun e s =>
    if (s.here.handle d.toNat).owned then s.handleFault 3 ⟨d.toNat, [], k.toNat, firstLane s.cur.lanes⟩
    else ((s.setHandle d.toNat ⟨true, false, k.toNat, none⟩).complete s.here e (fun _ => [])).reapSlots))

/-- HREL (R308). -/
def execHrel (m : Mods) (d : BitVec 6) (s : State) : Host.Outcome State Fault Refusal :=
  .next (s.plain (.hrel m d) (fun e s => s.checkHandles [⟨d.toNat, anyKind, 0, firstLane s.cur.lanes⟩] (fun s =>
    ((s.setHandle d.toNat ⟨false, true, 0, none⟩).complete s.here e (fun _ => [])).reapSlots)))

/-- HGIVE (R309). -/
def execHgive (m : Mods) (k : BitVec 1) (a n c : BitVec 6) (s : State) : Host.Outcome State Fault Refusal :=
  .next (s.plain (.hgive m k a n c) (fun e s => s.checkHandles [⟨a.toNat, anyKind, 0, firstLane s.cur.lanes⟩] (fun s =>
    let x := s.here
    let v := x.handle a.toNat
    if ((s.teamOf x).channels.find? c.toNat).isSome then s.handleFault 3 ⟨a.toNat, [], 0, firstLane s.cur.lanes⟩
    else
      let s := s.updTeam x (fun t => { t with channels := t.channels.put c.toNat ⟨v.slot, v.kind, n.toNat⟩ })
      let s := if k = 0#1 then s.setHandle a.toNat ⟨false, true, 0, none⟩ else s
      s.complete x e (fun _ => []))))

/-- HTAKE (R309). -/
def execHtake (m : Mods) (d c : BitVec 6) (s : State) : Host.Outcome State Fault Refusal :=
  .next (s.plain (.htake m d c) (fun e s =>
    let x := s.here
    let check : HandleCheck := ⟨d.toNat, [], 0, firstLane s.cur.lanes⟩
    if (x.handle d.toNat).owned then s.handleFault 3 check
    else match (s.teamOf x).channels.find? c.toNat with
      | none => s.handleFault 1 check
      | some v =>
        let s := s.setHandle d.toNat ⟨true, false, v.kind, v.slot⟩
        let s := s.updTeam x (fun t => { t with channels := if v.takers ≤ 1 then t.channels.del c.toNat else t.channels.put c.toNat { v with takers := v.takers - 1 } })
        s.complete x e (fun _ => [])))

/-- The handle maps and channel entries that refer to a slot version (R310). -/
def State.sharers (s : State) (id : Nat) : Nat :=
  ((s.groups.vals.flatMap Group.slots ++ s.grids.vals.flatMap (fun r => r.teams.vals.flatMap (fun t => t.channels.vals.filterMap Given.slot))).filter (fun n => n == id)).length

/-- The state word of a handle of a group on a core (R310). -/
def State.handleWord (s : State) (core : Nat) (h : Handle) : Nat :=
  if !h.owned then (if h.released then 2 ^ 16 else 0)
  else
    let flag := fun (b : Bool) (n : Nat) => if b then 2 ^ n else 0
    1 + 16 * h.kind + (match h.slot with
      | none => 0
      | some id => match s.slots.find? id with
        | none => 0
        | some v => 2 * (if v.acc then 0 else v.tag % 8) + flag (v.res && v.core == core) 6 + flag v.bound.isSome 7 + flag v.poison 8 + flag v.writer.isSome 9
            + Nat.min (s.sharers id) 63 * 2 ^ 10)

/-- HINFO (R310). -/
def execHinfo (m : Mods) (k : BitVec 4) (a : BitVec 6) (s : State) : Host.Outcome State Fault Refusal :=
  .next (s.plain (.hinfo m k a) (fun e s =>
    let x := s.here
    let dst := Dst.k (96 + k.toNat)
    (s.setDest dst (fun _ _ => Val.of (s.handleWord x.core (x.handle a.toNat)))).complete x e dst.regs))

-- ## Issue of tile operations (R302, R303, R314 to R320)

/-- A slot version that is still to be written. -/
def Slot.fresh (ctx core : Nat) (acc : Bool) (tag writer : Nat) (prev : Option Nat) : Slot :=
  ⟨ctx, core, acc, tag, [], [], false, some writer, prev, false, 0, none⟩

/-- Nothing. -/
def TileOp.none : TileOp := ⟨0, 0, 0, .zero, 0, 0, false, 0, 0, Option.none, Option.none, 0, 0, false, 0, false, false, [], [], 0, Option.none, 0⟩

/-- A tile operation issued: it waits where its group would hold too many slot versions (R303); otherwise it is counted (R19), and `fresh`
gives the kind of store and the tag of the version it writes to its handle, if it writes one. -/
def State.sendTile (s : State) (e : Eff) (o : TileOp) (fresh : Option (Bool × Nat)) (written : Fibre → List Reg) : State :=
  let x := s.here
  if fresh.isSome && decide ((s.versionsOf s.cur.g).length ≥ Config.slotsPerGroup) then s.wait s.cur.lanes .slots
  else
    let id := s.ids
    let h := x.handle o.handle
    let o := { o with g := s.cur.g, ctx := x.ctx, seq := id, lowest := firstLane s.cur.lanes, src := h.slot }
    let s := { s with ids := id + 2 }
    let s := match fresh with
      | none => s
      | some (acc, tag) => { s.setHandle o.handle { h with slot := some (id + 1) } with slots := s.slots.put (id + 1) (Slot.fresh x.ctx x.core acc tag id h.slot) }
    let s := s.updCore x.core (fun c => { c with tileOps := c.tileOps.put id { o with dst := if fresh.isSome then some (id + 1) else none } })
    (s.updGroup s.cur.g (fun x => { x with tiles := x.tiles + 1 })).complete x e written

/-- The checks of the base and the pitch of TLD and TSTO, read in the lowest lane, then `go` with the address and the pitch (R304, R314). -/
def State.tileBase (s : State) (b : BitVec 7) (off : W64) (rowBytes : Nat) (write : Bool) (go : W64 → W64 → State → State) : State :=
  let l := firstLane s.cur.lanes
  let base := s.readCode s.here l (s.here.fibre l) b.toNat 1
  let pitch := if 96 ≤ b.toNat ∧ b.toNat < 111 then s.readCode s.here l (s.here.fibre l) (b.toNat + 1) 1 else Val.of rowBytes
  let x := BitVec.ofNat 64 base.bits + off
  if base.p || pitch.p then s.precise 8 1 5 3 [l] 0
  else if base.g || pitch.g then s.precise 3 0 5 3 [l] (BitVec.ofNat 64 (maskOf [l]))
  else if x.toNat % 32 ≠ 0 then s.precise 4 2 (if write then 1 else 0) 3 [l] x
  else if pitch.bits % 32 ≠ 0 then s.precise 4 2 (if write then 1 else 0) 3 [l] (BitVec.ofNat 64 pitch.bits)
  else go x (BitVec.ofNat 64 pitch.bits) s

/-- TLD (R313, R314). -/
def execTld (m : Mods) (f : BitVec 3) (h : BitVec 6) (b : BitVec 7) (p : BitVec 2) (o : BitVec 5) (s : State) : Host.Outcome State Fault Refusal :=
  let acc := f == 0#3
  .next (s.plain (.tld m f h b p o) (fun e s =>
    s.checkHandles [⟨h.toNat, if acc then [2] else [0, 1, 3], if acc then 2 else 0, firstLane s.cur.lanes⟩] (fun s =>
    s.tileBase b (offImm m o 512) (if acc then 64 else 32) false (fun x pitch s =>
      s.sendTile e { TileOp.none with kind := .ld, mode := f.toNat, pol := p.toNat, streamed := (s.here.handle h.toNat).kind == 3, handle := h.toNat,
                                      addr := x, pitch := pitch } (some (acc, f.toNat)) (fun _ => [])))))

/-- TSTO (R313, R314). -/
def execTsto (m : Mods) (h : BitVec 6) (b : BitVec 7) (p : BitVec 2) (o : BitVec 5) (s : State) : Host.Outcome State Fault Refusal :=
  .next (s.plain (.tsto m h b p o) (fun e s => s.checkHandles [⟨h.toNat, [0, 1, 2], 0, firstLane s.cur.lanes⟩] (fun s =>
    let acc := (s.here.handle h.toNat).kind == 2
    s.tileBase b (offImm m o 512) (if acc then 64 else 32) true (fun x pitch s =>
      s.sendTile e { TileOp.none with kind := .sto, mode := if acc then 1 else 0, pol := p.toNat, handle := h.toNat, addr := x, pitch := pitch }
        none (fun _ => [])))))

/-- The bytes of an element of a tag; 0 stands for an accumulator (R288). -/
def tagWidth (tag : Nat) : Nat := if tag = 0 then 4 else if tag = 3 ∨ tag = 4 ∨ tag = 5 then 2 else 1
/-- The elements of a row (R288). -/
def tagRow (tag : Nat) : Nat := if tag = 0 then 16 else 32 / tagWidth tag
/-- The bytes from X on within which a scratch tile lies (R315). -/
def scratchExtent (tag : Nat) (transposed : Bool) : Nat :=
  if transposed then 256 * (tagRow tag - 1) + 16 * tagWidth tag else 256 * 15 + tagRow tag * tagWidth tag

/-- The checks of the base of TLDS and TSTS and of the window, then `go` with the address (R315). An unwritten operand handle moves no byte. -/
def State.scratchBase (s : State) (b : BitVec 7) (off : W64) (tag : Option Nat) (transposed write : Bool) (go : W64 → State → State) : State :=
  let l := firstLane s.cur.lanes
  let base := s.readCode s.here l (s.here.fibre l) b.toNat 1
  let x := BitVec.ofNat 64 base.bits + off
  let info := if write then 1 else 0
  let beyond := match tag with | some t => decide (x.toNat + scratchExtent t transposed > (s.ctx s.here.ctx).scratch) | none => false
  if base.p then s.precise 8 1 5 3 [l] 0
  else if base.g then s.precise 3 0 5 3 [l] (BitVec.ofNat 64 (maskOf [l]))
  else if x.toNat % 4 ≠ 0 then s.precise 4 2 info 3 [l] x
  else if beyond then s.precise 4 1 info 3 [l] x
  else go x s

/-- TLDS (R313, R315). -/
def execTlds (m : Mods) (f : BitVec 3) (h : BitVec 6) (b : BitVec 7) (t : BitVec 1) (o : BitVec 5) (s : State) : Host.Outcome State Fault Refusal :=
  let acc := f == 0#3
  .next (s.plain (.tlds m f h b t o) (fun e s =>
    s.checkHandles [⟨h.toNat, if acc then [2] else [0, 1], if acc then 2 else 0, firstLane s.cur.lanes⟩] (fun s =>
    s.scratchBase b (offImm m o 512) (some f.toNat) (t == 1#1) false (fun x s =>
      s.sendTile e { TileOp.none with kind := .lds, mode := f.toNat, handle := h.toNat, addr := x, transposed := t == 1#1 } (some (acc, f.toNat)) (fun _ => [])))))

/-- TSTS (R313, R315). -/
def execTsts (m : Mods) (h : BitVec 6) (b : BitVec 7) (t : BitVec 1) (o : BitVec 5) (s : State) : Host.Outcome State Fault Refusal :=
  .next (s.plain (.tsts m h b t o) (fun e s => s.checkHandles [⟨h.toNat, [0, 1, 2], 0, firstLane s.cur.lanes⟩] (fun s =>
    let v := s.here.handle h.toNat
    let acc := v.kind == 2
    let tag := if acc then some 0 else match v.slot with | some id => (s.slots.find? id).map Slot.tag | none => none
    s.scratchBase b (offImm m o 512) tag (t == 1#1) true (fun x s =>
      s.sendTile e { TileOp.none with kind := .sts, mode := if acc then 1 else 0, handle := h.toNat, addr := x, transposed := t == 1#1 } none (fun _ => [])))))

/-- TZERO (R317). -/
def execTzero (m : Mods) (d mo : BitVec 6) (s : State) : Host.Outcome State Fault Refusal :=
  let acc := mo == 0#6
  .next (s.plain (.tzero m d mo) (fun e s =>
    s.checkHandles [⟨d.toNat, if acc then [2] else [0, 1], if acc then 2 else 0, firstLane s.cur.lanes⟩] (fun s =>
      s.sendTile e { TileOp.none with kind := .zero, mode := mo.toNat, handle := d.toNat } (some (acc, mo.toNat)) (fun _ => []))))

/-- TRD (R318, R319): the masked-off fibres as R155 gives, and the active ones interlocked until the read is done. -/
def execTrd (m : Mods) (f : BitVec 3) (d : BitVec 7) (h : BitVec 6) (i : BitVec 7) (s : State) : Host.Outcome State Fault Refusal :=
  .next (s.plain (.trd m f d h i) (fun e s => s.checkHandles [⟨h.toNat, [2], 2, firstLane s.cur.lanes⟩] (fun s =>
    let x := s.here
    let act := activeLanes s e
    let dst := Dst.v d.toNat 1
    let off := s.cur.lanes.filter (fun l => !has act l)
    let lane := fun (l : Nat) =>
      let b := x.fibre l
      let k := s.src x l b (srcB' m i 1)
      let q := b.maskBit e.mask
      (⟨l, b.uid, (dst.regs b).head?, k.bits % 256, 0, k.g || q.g, k.p || q.p⟩ : TileLane)
    let s := if e.mz then off.foldl (fun t l => t.releaseHolders s.cur.g (x.fibre l).uid (dst.regs (x.fibre l)) true) s else s
    let s := s.mapLanes s.cur.g off (fun l b =>
      let q := (x.fibre l).maskBit e.mask
      if e.mz then dst.write b ⟨0, q.g, q.p⟩ else (dst.regs b).foldl (fun b r => b.tagReg r q.g q.p) b)
    let s := s.mapLanes s.cur.g act (fun _ b => { b with locks := b.locks ++ (dst.regs b).map (fun r => ⟨r, true, s.clocks⟩) })
    s.sendTile e { TileOp.none with kind := .rd, mode := f.toNat, handle := h.toNat, rm := x.rounding e.rm, sat := e.sat, lanes := act.map lane } none dst.regs)))

/-- The FP32 bits that TWR writes, and NV for a signalling NaN that is widened (R183, R320). -/
def widenElement (f : BitVec 3) (x : Nat) : Nat × Nat :=
  match f.toNat with
  | 1 => f32.convert 0 false 0 (f16.num (x % 2 ^ 16))
  | 2 => f32.convert 0 false 0 (bf16.num (x % 2 ^ 16))
  | _ => (x % 2 ^ 32, 0)

/-- TWR (R318, R320). -/
def execTwr (m : Mods) (f : BitVec 3) (h : BitVec 6) (a i : BitVec 7) (s : State) : Host.Outcome State Fault Refusal :=
  .next (s.plain (.twr m f h a i) (fun e s => s.checkHandles [⟨h.toNat, [2], 2, firstLane s.cur.lanes⟩] (fun s =>
    s.control 3 (fun _ _ b => ctlMask b e.mask) (fun s =>
    let x := s.here
    let act := activeLanes s e
    let idx := fun (l : Nat) => s.src x l (x.fibre l) (srcB' m i 1)
    let data := fun (l : Nat) => s.readCode x l (x.fibre l) a.toNat 1
    let lane := fun (l : Nat) =>
      (⟨l, (x.fibre l).uid, none, (idx l).bits % 256, (widenElement f (data l).bits).1, false, (data l).p⟩ : TileLane)
    s.check 8 1 1 3 (act.filter (fun l => (idx l).p)) (fun s =>
    s.check 3 0 1 3 (act.filter (fun l => (idx l).g)) (fun s =>
    s.check 3 2 0 3 (act.filter (fun l => (data l).g && !(data l).p)) (fun s =>
      s.sendTile e { TileOp.none with kind := .wr, mode := f.toNat, handle := h.toNat, lanes := act.map lane,
                                      flags := (act.map (fun l => (widenElement f (data l).bits).2)).foldl Nat.lor 0 } (some (true, 0)) (fun _ => []))))))))

-- ## Issue of matrix instructions (R305, R321, R324)

/-- The quarters that hold a member of a list of lanes (R36). -/
def quartersOf (lanes : List Nat) : List Nat := (upTo 4).filter (fun n => lanes.any (fun l => l / 8 == n))

/-- What a matrix instruction gives its issue: for each quarter the checks in the order hD, hA, hB, of which the first is the destination. -/
structure MatrixIns where
  ins : Instr
  kind : TileKind
  mode : Nat
  checks : Nat → List HandleCheck
  /-- How many of the checks are A operands. -/
  aCount : Nat

/-- One quarter operation of an issue put in place: its versions are those of `old`, the group before the issue, and a fresh one (R302,
R324). -/
def State.sendQuarter (s : State) (z : MatrixIns) (old : Group) (id n : Nat) : State :=
  match z.checks n with
  | [] => s
  | d :: src =>
    let slotOf := fun (c : HandleCheck) => (old.handle c.h).slot
    let a := src.take z.aCount
    let b := (src.drop z.aCount).head?
    let new := s.ids
    let q : Quarter := ⟨a.map slotOf, b.bind slotOf, slotOf d, new, (a.head?.map HandleCheck.h).getD 0, (b.map HandleCheck.h).getD 0, false, 0⟩
    let s := { s.setHandle d.h { old.handle d.h with slot := some new } with
      slots := s.slots.put new (Slot.fresh old.ctx old.core true 0 id (slotOf d)), ids := new + 1 }
    s.updCore old.core (fun c => { c with tileOps := c.tileOps.adjust id (fun o => { o with quarters := o.quarters.put n q }) })

/-- THE MATRIX INSTRUCTIONS at issue (R305, R306, R321, R324). -/
def State.matrix (s : State) (z : MatrixIns) : State :=
  s.plain z.ins (fun e s =>
    let qs := quartersOf s.cur.lanes
    s.checkHandles (qs.flatMap z.checks) (fun s =>
      if (s.versionsOf s.cur.g).length + qs.length > Config.slotsPerGroup then s.wait s.cur.lanes .slots
      else
        let x := s.here
        let id := s.ids
        let o := { TileOp.none with g := s.cur.g, ctx := x.ctx, seq := id, kind := z.kind, mode := z.mode, lowest := firstLane s.cur.lanes, spt := x.fpmode.getLsbD 8 }
        let s := { s.updCore x.core (fun c => { c with tileOps := c.tileOps.put id o }) with ids := id + 1 }
        let s := qs.foldl (fun t n => t.sendQuarter z x id n) s
        (s.updGroup s.cur.g (fun x => { x with tiles := x.tiles + 1 })).complete x e (fun _ => [])))

/-- The checks of a quarter of MMA and MMAS (R321). -/
def mmaChecks (d a b : BitVec 6) (n : Nat) : List HandleCheck :=
  [⟨d.toNat + n, [2], 2, 8 * n⟩, ⟨a.toNat + n, [0, 3], 0, 8 * n⟩, ⟨b.toNat, [1, 3], 1, 8 * n⟩]

/-- MMA (R321, R322). -/
def execMma (m : Mods) (d a b : BitVec 6) (y : BitVec 2) (x : BitVec 3) (s : State) : Host.Outcome State Fault Refusal :=
  .next (s.matrix ⟨.mma m d a b y x, .mma, x.toNat + 8 * y.toNat, mmaChecks d a b, 1⟩)
/-- MMAS (R321, R322). -/
def execMmas (m : Mods) (d a b : BitVec 6) (y : BitVec 2) (x : BitVec 3) (s : State) : Host.Outcome State Fault Refusal :=
  .next (s.matrix ⟨.mmas m d a b y x, .mmas, x.toNat + 8 * y.toNat, mmaChecks d a b, 1⟩)
/-- MMAC (R321, R322). -/
def execMmac (m : Mods) (d a b : BitVec 6) (h : BitVec 1) (x : BitVec 3) (s : State) : Host.Outcome State Fault Refusal :=
  .next (s.matrix ⟨.mmac m d a b h x, .mmac, x.toNat + 8 * h.toNat, fun n =>
    [⟨d.toNat + n, [2], 2, 8 * n⟩, ⟨a.toNat + 2 * n, [0, 3], 0, 8 * n⟩, ⟨a.toNat + 2 * n + 1, [0, 3], 0, 8 * n⟩, ⟨b.toNat, [1, 3], 1, 8 * n⟩], 2⟩)
/-- TSCL (R321, R323). -/
def execTscl (m : Mods) (d a ex : BitVec 6) (s : State) : Host.Outcome State Fault Refusal :=
  .next (s.matrix ⟨.tscl m d a ex, .scl, ex.toNat, fun n => [⟨d.toNat + n, [2], 2, 8 * n⟩, ⟨a.toNat + n, [2], 2, 8 * n⟩], 1⟩)
/-- TACC (R321, R323). -/
def execTacc (m : Mods) (d a b : BitVec 6) (s : State) : Host.Outcome State Fault Refusal :=
  .next (s.matrix ⟨.tacc m d a b, .acc, 0, fun n =>
    [⟨d.toNat + n, [2], 2, 8 * n⟩, ⟨a.toNat + n, [2], 2, 8 * n⟩, ⟨b.toNat + n, [2], 2, 8 * n⟩], 1⟩)

-- ## What tile operations read (R288 to R290, R294, R312)

/-- A block in the row order of R288, from the bytes as they lie under a GEO (R290). -/
def fromGeo (geo w : Nat) (raw : List Byte) : List Byte :=
  if geo ≠ 2 then raw
  else (upTo 512).map (fun i => raw.getD (w * (16 * (i / w % (32 / w)) + i / w / (32 / w)) + i % w) 0)
/-- A block as it lies under a GEO, from its row order (R290). -/
def toGeo (geo w : Nat) (data : List Byte) : List Byte :=
  if geo ≠ 2 then data
  else (upTo 512).map (fun i => data.getD (w * (32 / w * (i / w % 16) + i / w / 16) + i % w) 0)

/-- The bytes of an accumulator slot; one never written reads +0 (R319, R322). -/
def State.accBytes (s : State) (r : Option Nat) : List Byte :=
  match r with
  | some id => (match s.slots.find? id with | some v => if v.data.isEmpty then List.replicate 1024 0 else v.data | none => List.replicate 1024 0)
  | none => List.replicate 1024 0

/-- The elements of an accumulator slot, 16 rows of 16. -/
def State.accElems (s : State) (r : Option Nat) : List Nat :=
  let d := s.accBytes r
  (upTo 256).map (fun i => ofBytes ((d.drop (4 * i)).take 4))

/-- Whether a slot version is marked poisoned. -/
def State.slotPoison (s : State) (r : Option Nat) : Bool :=
  match r with | some id => (match s.slots.find? id with | some v => v.poison | none => false) | none => false

/-- Bytes of memory as the tile engine reads them at the L2 of its die, with their poison (R314). -/
def State.tileRead (s : State) (ctx core a n mtype : Nat) : List Byte × Bool :=
  let l := if mtype = 2 then s.homeLine (dieOf core) (lineOf a) else s.l2Line (dieOf core) (lineOf a)
  (s.ownBytes ctx a (sliceLine l a n), l.poison)

/-- An operand as a matrix instruction reads it: its bytes in row order, its sideband and whether it is poisoned; a streamed one is read
from its lines now (R311, R312). -/
def State.operand (s : State) (ctx core id : Nat) : List Byte × List Byte × Bool :=
  match s.slots.find? id with
  | none => ([], [], false)
  | some v => match v.bound with
    | none => (v.data, v.side, v.poison)
    | some b =>
      let rows := b.rows.map (fun a => s.tileRead ctx core a 32 0)
      let sides := b.scales.map (fun a => match a with | some a => s.tileRead ctx core a 4 0 | none => (List.replicate 4 0x7F#8, false))
      (fromGeo b.geo (tagWidth v.tag) (rows.flatMap Prod.fst), sides.flatMap Prod.fst, (rows ++ sides).any Prod.snd)

/-- Whether every slot version of a list has been written (R18). -/
def State.written (s : State) (l : List (Option Nat)) : Bool :=
  l.all (fun r => match r with | some id => (match s.slots.find? id with | some v => v.writer.isNone | none => true) | none => true)

-- ## Retiring (R19, R289, R298, R324)

/-- A tile operation leaves the scoreboard: its counter falls and its flags enter FPMODE, and what R297 raises after it is raised. -/
def State.endTile (s : State) (core id : Nat) (o : TileOp) : State :=
  let s := s.updCore core (fun c => { c with tileOps := c.tileOps.del id })
  let s := s.updGroup o.g (fun x => { x with tiles := x.tiles - 1, fpmode := x.fpmode ||| BitVec.ofNat 32 o.flags })
  let s := if !o.spt then s
    else o.quarters.foldl (fun t p => if p.2.bad = 0 then t else t.deferred o.ctx o.g 2 0 (p.2.aHandle % 64) 3 (8 * p.1) (BitVec.ofNat 64 p.2.bad)) s
  s.reapSlots

/-- A tile operation that faults writes no slot and no byte; its fault is deferred (R289, R314). -/
def State.failTile (s : State) (core id : Nat) (o : TileOp) (cause sub info : Nat) (val : W64) : State :=
  let s := match o.dst with | some n => s.takeBack n | none => s
  ((s.endTile core id o).deferred o.ctx o.g cause sub info 3 o.lowest val).forget o.ctx val

/-- A tile operation that faults as its rows translate; a walk that a firewall refuses is reported (R289, R314, R368). -/
def State.failRows (s : State) (core id : Nat) (o : TileOp) (cause sub info : Nat) (va : W64) : State :=
  (if cause = 8 then s.reportWalk o.ctx core va else s).failTile core id o cause sub info va

/-- A slot version written by its operation and brought into the core's store; none where every slot there is busy (R302, R303). -/
def State.fillSlot (s : State) (core new : Nat) (data side : List Byte) (poison : Bool) (bound : Option Binding) : Option State :=
  match s.slots.find? new with
  | none => some s
  | some v =>
    let put := fun (t : State) (res : Bool) => t.updSlot new (fun v =>
      { v with core := core, data := data, side := side, poison := poison, writer := none, prev := none, res := res, used := s.clocks, bound := bound })
    if bound.isSome then some (put s false) else (s.makeRoom core v.acc).map (fun t => put t true)

/-- The sideband of scale bytes that stand for 1 (R294). -/
def plainSide : List Byte := List.replicate 64 0x7F#8

-- ## TLD and TSTO (R290, R293, R294, R311, R314)

/-- One piece of 32 bytes of a tile in global memory: the address of its row, its physical address and page, and the address of its
scales. -/
structure Piece where
  va : W64
  pa : Nat
  page : Page
  scale : Option Nat
  deriving DecidableEq, Repr

/-- How the rows of a tile are found. -/
inductive Rows where
  | ok (geo : Nat) (pieces : List Piece)
  | fault (cause sub info : Nat) (va : W64)
  | replay (va : W64)
  /-- A walk or a bias flip is not done (R205, R283). -/
  | held

/-- Whether the FMT of a page agrees with a tag (R289). -/
def fmtAgrees (fmt tag : Nat) : Bool := fmt == 0 || fmt == tag || (fmt == 6 && tag == 5)

/-- The scales of a row of a `.cb2` tile on an FMT 6 page (R293). -/
def rowScale (tag : Nat) (va : W64) (p : Page) : Option Nat :=
  if tag = 5 ∧ p.fmt = 6 then some (p.pa + 7 * 2 ^ p.bits / 8 + va.toNat % 2 ^ p.bits / 8) else none

/-- What is wrong with a row under its own page: the FMT, a GEO along which the scales of a `.cb2` row do not run, or its place on an FMT 6 page (R289,
R290, R293, R314). -/
def Piece.bad (q : Piece) (tag info handle : Nat) : Option (Nat × Nat × Nat) :=
  if tag = 0 then (if q.page.fmt ≠ 0 ∨ q.page.geo ≠ 0 then some (6, 1, handle) else none)
  else if !fmtAgrees q.page.fmt tag ∨ (tag = 5 ∧ q.page.fmt = 6 ∧ q.page.geo = 2) then some (6, 1, handle)
  else if tag = 5 ∧ q.page.fmt = 6 ∧ q.va.toNat % 2 ^ q.page.bits + 32 > 7 * 2 ^ q.page.bits / 8 then some (4, 3, info)
  else none

/-- The rows of a tile translated and checked (R290, R314); a tag of 0 stands for an accumulator. -/
def State.tileRows (s : State) (core : Nat) (o : TileOp) (tag : Nat) (write : Bool) : Rows :=
  let kind := if write then Kind.write else .read
  let info := if write then 1 else 0
  match s.xlate o.ctx core o.addr kind with
  | .trap sub => .fault 4 sub info o.addr
  | .poisoned => .fault 8 1 5 o.addr
  | .replay => .replay o.addr
  | .held => .held
  | .ok _ first =>
    let geo := if tag = 0 then 0 else first.geo
    if geo ≠ 0 ∧ o.addr.toNat % 512 ≠ 0 then .fault 6 1 o.handle o.addr
    else
      let row := fun (r : Nat) => if geo ≠ 0 then o.addr + BitVec.ofNat 64 (32 * r) else o.addr + BitVec.ofNat 64 r * o.pitch
      let addrs := (upTo 16).flatMap (fun r => if tag = 0 then [(row r, row r), (row r, row r + 32)] else [(row r, row r)])
      let got := addrs.map (fun p => (p, s.xlate o.ctx core p.2 kind))
      if got.any (fun p => p.2 == .held) then .held
      else match got.find? (fun p => match p.2 with | .ok _ _ => false | _ => true) with
      | some (p, .trap sub) => .fault 4 sub info p.2
      | some (p, .replay) => .replay p.2
      | some (p, _) => .fault 8 1 5 p.2
      | none =>
        let pieces := got.filterMap (fun p => match p.2 with | .ok pa pg => some ⟨p.1.1, pa, pg, rowScale tag p.1.1 pg⟩ | _ => none)
        match pieces.filterMap (fun q => (q.bad tag info o.handle).map (fun f => (q.va, f))) with
        | (va, f) :: _ => .fault f.1 f.2.1 f.2.2 va
        | [] => .ok geo pieces

/-- The lines that the pieces of a tile and their scales lie in. -/
def pieceLines (l : List Piece) : List Nat := (l.flatMap (fun q => lineOf q.pa :: (q.scale.map lineOf).toList)).foldl addOnce []

/-- The lines of the pieces of a tile that consult the host chiplets and of which a host holds a half exclusive (R217, R280). -/
def State.piecesHeld (s : State) (l : List Piece) : Bool := (pieceLines (l.filter (fun q => q.page.consults))).any s.hostHolds

/-- The tokens of a tile's rows and scales at the port (R370). -/
def pieceTokens (l : List Piece) : Nat := (l.map (fun q => if q.scale.isSome then 2 else 1)).sum

/-- The lines of a streamed block pinned in the L2 of the die, each fetched under its policy; none where one of them cannot be (R311, R313). -/
def State.pinLines (s : State) (d : Nat) : List (Nat × Nat) → Option State
  | [] => some s
  | (la, pol) :: rest =>
    let s := s.l2Fetch d la pol false
    match (s.die d).l2.find? la with
    | none => none
    | some l =>
      if l.pin.isNone && l.bound == 0 && s.quarterPinned d la then none
      else (s.updDie d (fun x => { x with l2 := x.l2.adjust la (fun l => { l with bound := l.bound + 1 }) })).pinLines d rest

/-- The binding of a streamed TLD, where its pages let their lines be pinned (R205, R311). -/
def State.bindTile (s : State) (core pol : Nat) (geo : Nat) (l : List Piece) : Option (State × Binding) :=
  let polOf := fun (la : Nat) => match l.find? (fun q => has (pieceLines [q]) la) with | some q => polIn q.page pol | none => 0
  if l.all (fun q => q.page.lk && q.page.l2Ok && !isCauseway q.pa) then
    (s.pinLines (dieOf core) ((pieceLines l).map (fun la => (la, polOf la)))).map (fun t =>
      (t, ⟨l.map Piece.pa, geo, l.map Piece.scale, l.any (fun q => q.page.consults)⟩))
  else none

/-- Bits of WARN set in a group by an operation of the tile engine. -/
def State.warnGroup (s : State) (g : Nat) (w : W32) : State := s.updGroup g (fun x => { x with warn := x.warn ||| w })

/-- The rows of a TLD read through the port, their lines brought into the L2 as their pages allow, and the operand slot written (R311, R314). -/
def State.loadTile (s : State) (core id : Nat) (o : TileOp) (geo : Nat) (l : List Piece) : State :=
  let s := s.warnGroup o.g (warnIf (l.any (fun q => loadPolWarn q.page o.pol)) warnPol)
  match if o.streamed then s.bindTile core o.pol geo l else none with
  | some (t, b) => ((t.fillSlot core (o.dst.getD 0) [] [] false (some b)).getD t).endTile core id o
  | none =>
    let s := s.reportReads o.ctx core (pieceLines l)
    let s := l.foldl (fun t q => (pieceLines [q]).foldl (fun t la => t.readLine (dieOf core) la (polIn q.page o.pol) q.page.l2Ok q.page.conf) t) s
    let rows := l.map (fun q => s.tileRead o.ctx core q.pa 32 q.page.mtype)
    let sides := l.map (fun q => match q.scale with | some a => s.tileRead o.ctx core a 4 q.page.mtype | none => (List.replicate 4 0x7F#8, false))
    let raw := rows.flatMap Prod.fst
    match s.fillSlot core (o.dst.getD 0) (if o.mode = 0 then raw else fromGeo geo (tagWidth o.mode) raw) (if o.mode = 5 then sides.flatMap Prod.fst else [])
        (rows.any Prod.snd || (o.mode == 5 && sides.any Prod.snd)) none with
    | some t => t.endTile core id o
    | none => s

/-- TLD performed: it waits for the halves that a host holds exclusive, and for room in the store where it takes a slot (R303, R311, R314). -/
def State.performTld (s : State) (core id : Nat) (o : TileOp) : State :=
  match s.tileRows core o o.mode false with
  | .fault c sub info va => s.failRows core id o c sub info va
  | .replay va => s.askSupervisor o.ctx va
  | .held => s
  | .ok geo l =>
    let bound := o.streamed && (s.bindTile core o.pol geo l).isSome
    if s.piecesHeld l || (!bound && (s.makeRoom core (o.mode == 0)).isNone) then s
    else s.send o.ctx core (pieceTokens l) ⟨5, id, 0⟩ (fun s => s.loadTile core id o geo l)

/-- The poison mark of a line that has been written in full cleared (R245, R314). -/
def State.clearMark (s : State) (core la : Nat) : State :=
  match (s.die (dieOf core)).l2.find? la with
  | some l => s.updDie (dieOf core) (fun x => { x with l2 := x.l2.put la { l with poison := false } })
  | none => { s with poison := drop s.poison la }

/-- TSTO performed: its rows are written at the L2, and the lines it writes in full lose their marks unless the slot is poisoned (R314); a line that a firewall refuses keeps all it has (R368). -/
def State.performTsto (s : State) (core id : Nat) (o : TileOp) : State :=
  let acc := o.mode == 1
  let tag := if acc then some 0 else match o.src with | some n => (s.slots.find? n).map Slot.tag | none => none
  match tag with
  | none => s.failTile core id o 6 1 o.handle 0
  | some tag => match s.tileRows core o tag true with
    | .fault c sub info va => s.failRows core id o c sub info va
    | .replay va => s.askSupervisor o.ctx va
    | .held => s
    | .ok geo l =>
      if s.piecesHeld l then s
      else s.send o.ctx core (pieceTokens l) ⟨5, id, 0⟩ (fun s =>
        let s := s.reportWrites o.ctx core (pieceLines l)
        let barred := s.barred (dieOf core)
        let s := (s.touchSlot core o.src).warnGroup o.g (warnIf (l.any (fun q => storePolWarn q.page o.pol)) warnPol)
        let v := if acc then (s.accBytes o.src, [], s.slotPoison o.src) else s.operand o.ctx core (o.src.getD 0)
        let bytes := if acc then v.1 else toGeo geo (tagWidth tag) v.1
        let write := fun (t : State) (pa n : Nat) (p : Page) (data : List Byte) =>
          t.engineWrite o.ctx core o.pol [⟨pa, n, some p⟩] (data.map (fun b => (b, v.2.2)))
        let s := (l.zip (upTo l.length)).foldl (fun t q =>
          let t := write t q.1.pa 32 q.1.page ((bytes.drop (32 * q.2)).take 32)
          match q.1.scale with
          | some a => write t a 4 q.1.page ((v.2.1.drop (4 * q.2)).take 4)
          | none => t) s
        let full := fun (la : Nat) => (upTo 4).all (fun i => l.any (fun q => q.pa == la + 32 * i))
        let s := if v.2.2 then s else ((pieceLines l).filter (fun la => full la && !barred la)).foldl (fun t la => t.clearMark core la) s
        (s.publish core ((l.filter (fun q => q.page.mtype != 2)).flatMap (fun q => lineOf q.pa :: (q.scale.map lineOf).toList) |>.foldl addOnce [])).endTile core id o)

-- ## TLDS, TSTS, TZERO, TRD and TWR (R315 to R320)

/-- The scratch offset of each byte of a tile, in the order of R288 (R315). -/
def scratchOffsets (x tag : Nat) (transposed : Bool) : List Nat :=
  let w := tagWidth tag
  (upTo 16).flatMap (fun r => (upTo (tagRow tag)).flatMap (fun j => (upTo w).map (fun k =>
    (if transposed then x + 256 * j + w * r else x + 256 * r + w * j) + k)))

/-- The parts of a scratch window that a tile lies in read back where a newcomer had claimed them (R369). -/
def State.recallTile (s : State) (core ctx : Nat) (offs : List Nat) : State :=
  (ascending (offs.map (fun a => a / 4096))).foldl (fun t u => t.recallScratch core ctx (4096 * u) 1) s

/-- TLDS performed (R315). -/
def State.performTlds (s : State) (core id : Nat) (o : TileOp) : State :=
  let offs := scratchOffsets o.addr.toNat o.mode o.transposed
  let bytes := offs.map (fun a => s.scratchRead core o.ctx a 1)
  let s := s.recallTile core o.ctx offs
  match s.fillSlot core (o.dst.getD 0) (bytes.flatMap Prod.fst) (if o.mode = 5 then plainSide else []) (bytes.any Prod.snd) none with
  | some t => t.endTile core id o
  | none => s

/-- TSTS performed (R315): every word it writes takes the slot's poison state. -/
def State.performTsts (s : State) (core id : Nat) (o : TileOp) : State :=
  let acc := o.mode == 1
  let tag := if acc then some 0 else match o.src with | some n => (s.slots.find? n).map Slot.tag | none => none
  match tag with
  | none => s.failTile core id o 6 1 o.handle 0
  | some tag =>
    if tag = 5 ∧ o.transposed then s.failTile core id o 6 1 o.handle o.addr
    else
      let offs := scratchOffsets o.addr.toNat tag o.transposed
      let s := (s.recallTile core o.ctx offs).touchSlot core o.src
      let v := if acc then (s.accBytes o.src, [], s.slotPoison o.src) else s.operand o.ctx core (o.src.getD 0)
      let inside := (offs.zip v.1).filter (fun p => decide (p.1 < (s.ctx o.ctx).scratch))
      let s := inside.foldl (fun (t : State) p => t.scratchWrite core o.ctx p.1 [p.2] v.2.2) s
      let words := (inside.map (fun p => p.1 / 4 * 4)).foldl addOnce []
      let s := if v.2.2 then s else s.updCore core (fun c => { c with flagged := c.flagged.upd o.ctx [] (fun f => f.filter (fun w => !has words w)) })
      s.endTile core id o

/-- TZERO performed (R317). -/
def State.performTzero (s : State) (core id : Nat) (o : TileOp) : State :=
  let data := if o.mode = 0 then List.replicate 1024 0#8 else if o.mode = 5 then (List.replicate 256 [0xFF#8, 0x00#8]).flatten else List.replicate 512 0#8
  match s.fillSlot core (o.dst.getD 0) data (if o.mode = 5 then plainSide else []) false none with
  | some t => t.endTile core id o
  | none => s

/-- The element of an accumulator as TRD converts it, and the exceptions (R319). -/
def readElement (f rm : Nat) (sat : Bool) (rand x : Nat) : Nat × Nat :=
  if f = 5 then
    let r := toInteger 32 true rm sat rand (f32.num x)
    (ofInt 32 r.1, r.2)
  else (match f with | 0 => f32 | 1 => f16 | 2 => bf16 | 3 => e4m3 | _ => e5m2).convert rm sat rand (f32.num x)

/-- TRD performed (R319). -/
def State.performTrd (s : State) (core id : Nat) (o : TileOp) : State :=
  let s := s.touchSlot core o.src
  let elems := s.accElems o.src
  let poison := s.slotPoison o.src
  let r := o.lanes.map (fun l => (l, readElement o.mode o.rm o.sat (Config.rand (s.free + l.lane)).toNat (elems.getD l.index 0)))
  let s := { s with free := s.free + 32 }
  let s := r.foldl (fun (t : State) p => t.landReg o.g p.1.lane p.1.uid p.1.reg (.v 4 false) ⟨p.2.1, p.1.g, p.1.p || poison⟩) s
  (s.settleGm o.g).endTile core id { o with flags := (r.map (fun p => p.2.2)).foldl Nat.lor 0 }

/-- TWR performed (R320): the old contents with each active lane's element, ascending. -/
def State.performTwr (s : State) (core id : Nat) (o : TileOp) : State :=
  let s := s.touchSlot core o.src
  let data := o.lanes.foldl (fun d l => patch d (4 * l.index) (bytesOf 4 l.bits)) (s.accBytes o.src)
  match s.fillSlot core (o.dst.getD 0) data [] (s.slotPoison o.src || o.lanes.any TileLane.p) none with
  | some t => t.endTile core id o
  | none => s

-- ## Matrix passes (R296 to R299, R322, R323, R325)

/-- The value of an operand element of a tag at a byte of its slot (R288). -/
def tileNum (tag : Nat) (data : List Byte) (off : Nat) : Num :=
  let w := tagWidth tag
  let x := ofBytes ((data.drop off).take w)
  match tag with
  | 1 => e4m3.num x | 2 => e5m2.num x | 3 => bf16.num x | 4 => f16.num x
  | _ => let v := toSigned 8 x; .fin (decide (v < 0)) v.natAbs 0

/-- A row of a dense operand tile, in ascending K order (R288). -/
def denseRow (tag : Nat) (data : List Byte) (r : Nat) : List (Option Num) :=
  (upTo (tagRow tag)).map (fun k => some (tileNum tag data (32 * r + tagWidth tag * k)))

/-- A row of a 2:4-sparse A tile: its values by K, absent ones left out, and whether a group of it is illegal (R296, R297). -/
def sparseRow (tag : Nat) (data : List Byte) (r : Nat) : List (Option Num) × Bool :=
  let w := tagWidth tag
  let meta' := ofBytes ((data.drop (256 + 4 * r)).take 4)
  let groups := upTo (if w = 1 then 8 else 4)
  let p0 := fun (q : Nat) => bitsAt meta' (4 * q + 1) (4 * q)
  let p1 := fun (q : Nat) => bitsAt meta' (4 * q + 3) (4 * q + 2)
  (groups.flatMap (fun q => (upTo 4).map (fun p =>
      if p0 q ≥ p1 q then none
      else if p = p0 q then some (tileNum tag data (16 * r + 2 * w * q))
      else if p = p1 q then some (tileNum tag data (16 * r + 2 * w * q + w))
      else none)),
    groups.any (fun q => decide (p0 q ≥ p1 q)))

/-- A row of the named half of a CB2 tile: each weight with its scale byte (R292, R294). -/
def codebookRow (data side : List Byte) (j half : Nat) : List (Num × Nat) :=
  (upTo 64).map (fun k =>
    let n := 64 * half + k
    let s := (side.getD (4 * j + n / 32) 0x7F#8).toNat
    (scaled s (cb2Weight (ofBytes ((data.drop (32 * j + 2 * (n / 8))).take 2)) (n % 8)), s))

/-- The products of a row of A and a row of scaled weights; a scale of 0xFF makes a quiet NaN whatever A holds (R294, R298). -/
def scaledProducts (a : List (Option Num)) (b : List (Num × Nat)) : List (Num × Bool) :=
  (a.zip b).filterMap (fun p => p.1.map (fun x => if p.2.2 = 0xFF then (.nan false, false) else product x p.2.1))

/-- The products of a row of A and a row of B; absent positions are left out (R298, R299). -/
def plainProducts (tag : Nat) (a b : List (Option Num)) : List (Num × Bool) :=
  (a.zip b).filterMap (fun p => match p.1, p.2 with | some x, some y => some (if tag = 7 then intProduct x y else product x y) | _, _ => none)

/-- The tags that a matrix operation wants of A and of B (R321). -/
def TileOp.wants (o : TileOp) : Nat × Nat :=
  let a := o.mode % 8
  (a, if o.kind = .mmac then 5 else if o.mode / 8 % 4 = 1 then 3 - a else a)

/-- The first operand of a quarter whose tag is not the one wanted; one never written has none (R289, R322). -/
def State.wrongTag (s : State) (o : TileOp) (q : Quarter) : Option Nat :=
  let w := o.wants
  let ok := fun (r : Option Nat) (t : Nat) => match r with | some id => (match s.slots.find? id with | some v => !v.acc && v.tag == t | none => false) | none => false
  let a := (q.a.zip (upTo q.a.length)).filter (fun p => !ok p.1 w.1)
  match a with
  | p :: _ => some (q.aHandle + p.2)
  | [] => if ok q.b w.2 then none else some q.bHandle

/-- The result of a quarter operation: its elements with their flags, the illegal rows, and the poison of its operands (R322, R323). -/
def State.quarterResult (s : State) (core : Nat) (o : TileOp) (q : Quarter) : List (Nat × Nat) × Nat × Bool :=
  let old := s.accElems q.old
  let src := fun (r : Option Nat) => s.operand o.ctx core (r.getD 0)
  match o.kind with
  | .scl =>
    let e := toSigned 6 o.mode
    ((s.accElems (q.a.headD none)).map (fun x => f32.convert 0 false 0 (match f32.num x with | .fin n m k => .fin n m (k + e) | v => v)), 0,
      s.slotPoison (q.a.headD none))
  | .acc =>
    (((s.accElems (q.a.headD none)).zip (s.accElems q.b)).map (fun p => f32.add 0 false 0 (f32.num p.1) (f32.num p.2)), 0,
      s.slotPoison (q.a.headD none) || s.slotPoison q.b)
  | _ =>
    let tags := o.wants
    let a := q.a.map src
    let b := src q.b
    let rowsA := (upTo 16).map (fun r => match o.kind with
      | .mmas => sparseRow tags.1 (a.headD ([], [], false)).1 r
      | _ => (a.flatMap (fun t => denseRow tags.1 t.1 r), false))
    let out := if o.kind = .mmac then
        let rowsB := (upTo 16).map (fun j => codebookRow b.1 b.2.1 j (o.mode / 8 % 2))
        rowsA.flatMap (fun x => rowsB.map (fun y => scaledProducts x.1 y))
      else
        let rowsB := (upTo 16).map (fun j => denseRow tags.2 b.1 j)
        rowsA.flatMap (fun x => rowsB.map (fun y => plainProducts tags.1 x.1 y))
    ((old.zip out).map (fun p => accumulate p.1 p.2), maskOf ((upTo 16).filter (fun r => (rowsA.getD r ([], false)).2)),
      s.slotPoison q.old || a.any (fun t => t.2.2) || b.2.2)

/-- One quarter of an operation changed. -/
def State.updQuarter (s : State) (core id n : Nat) (f : Quarter → Quarter) : State :=
  s.updCore core (fun c => { c with tileOps := c.tileOps.adjust id (fun o => { o with quarters := o.quarters.adjust n f }) })

/-- The bindings of the streamed operands among some slot versions (R311). -/
def State.bindings (s : State) (l : List (Option Nat)) : List Binding :=
  l.filterMap (fun r => match r with | some i => (s.slots.find? i).bind Slot.bound | none => none)

/-- The tokens for which the rows and scales of streamed operands are read (R311, R370). -/
def bindingTokens (l : List Binding) : Nat := (l.map (fun b => b.rows.length + (b.scales.filterMap (fun a => a)).length)).sum

/-- A quarter that had been frozen leaves the save image of its track (R327). -/
def State.thaw (s : State) (ctx id n : Nat) : State :=
  { s with ctxs := s.ctxs.adjust ctx (fun c =>
      { c with images := c.images.mapVals (fun _ i => { i with records := i.records.filter (fun r => r != (id, n)) }) }) }

/-- Whether it is the turn of a tile operation of a group: its frozen quarters come before every later operation of it, and while its handler runs so do
the operations it had queued, in issue order (R327, R328). -/
def State.tileTurn (s : State) (core : Nat) (o : TileOp) : Bool :=
  let c := s.ctx o.ctx
  let mine := fun (id : Nat) => match (s.core core).tileOps.find? id with | some p => p.g == o.g && decide (id < o.seq) | none => false
  let mark := match c.halt with | some h => h.mark | none => 0
  !c.images.vals.any (fun i => i.records.any (fun r => mine r.1))
    && !(s.core core).tileOps.vals.any (fun p => p.g == o.g && decide (p.seq < o.seq ∧ p.seq < mark))

/-- A quarter operation run, once the versions it reads are written; a streamed operand is read through the port (R18, R311, R322, R323, R370), but for B
where `paid` says that the pass has read it already (R325). -/
def State.runQuarter (s : State) (core id n : Nat) (paid : Bool) : State :=
  match (s.core core).tileOps.find? id with
  | none => s
  | some o => match o.quarters.find? n with
    | none => s
    | some q =>
      let bound := s.bindings (q.b :: q.a)
      if q.done || bound.any (fun b => b.host && b.lines.any s.hostHolds) || !s.written (q.b :: q.old :: q.a) then s
      else
        let bad := match o.kind with | .scl => none | .acc => none | _ => s.wrongTag o q
        match bad with
        | some h =>
          (((s.thaw o.ctx id n).updQuarter core id n (fun q => { q with done := true })).takeBack q.new).deferred o.ctx o.g 6 2 (h % 64) 3 (8 * n) 0
        | none =>
          if (((q.b :: q.old :: q.a).foldl (fun t r => t.touchSlot core r) s).makeRoom core true).isNone then s else
          s.send o.ctx core (bindingTokens (if paid then s.bindings q.a else bound)) ⟨5, id, n⟩ (fun s =>
          let s := s.thaw o.ctx id n
          let s := (q.b :: q.old :: q.a).foldl (fun t r => t.touchSlot core r) s
          let r := s.quarterResult core o q
          match s.fillSlot core q.new (r.1.flatMap (fun p => bytesOf 4 p.1)) [] r.2.2 none with
          | none => s
          | some t =>
            let t := t.warnGroup o.g (warnIf (r.2.1 != 0) warnSparse)
            let t := t.updQuarter core id n (fun q => { q with done := true, bad := r.2.1 })
            t.updCore core (fun c => { c with tileOps := c.tileOps.adjust id (fun o => { o with flags := (r.1.map Prod.snd).foldl Nat.lor o.flags }) }))

/-- Whether quarter operations, coded as operation × 4 + quarter, may run in one pass: one alone, or up to four of one track with the same
opcode and mode on the same B version (R325). -/
def State.mayFuse (s : State) (core : Nat) (l : List Nat) : Bool :=
  let c := s.core core
  let at' := fun (k : Nat) => match c.tileOps.find? (k / 4) with
    | some o => (o.quarters.find? (k % 4)).map (fun (q : Quarter) => (o.kind, o.mode, q.b, (s.group o.g).track))
    | none => none
  match l with
  | [] => false
  | [_] => true
  | k :: rest => decide (l.length ≤ 4) && rest.all (fun j => at' j == at' k)
      && (match at' k with | some (.mma, _) => true | some (.mmas, _) => true | some (.mmac, _) => true | _ => false)

/-- Whether a quarter operation has read its operands between two states: it had still to run, its tags were right, and it is done (R322). -/
def State.hasRun (s t : State) (core id n : Nat) : Bool :=
  match (s.core core).tileOps.find? id, (t.core core).tileOps.find? id with
  | some o, some p => (match o.quarters.find? n, p.quarters.find? n with
    | some q, some r => !q.done && (s.wrongTag o q).isNone && r.done
    | _, _ => false)
  | _, _ => false

/-- A quarter operation of a pass run where it may; with whether the pass has read its B (R325). -/
def passStep (core : Nat) (r : State × Bool) (k : Nat) : State × Bool :=
  match (r.1.core core).tileOps.find? (k / 4) with
  | some o =>
    if r.1.opRuns o.ctx o.g o.seq core 3 false && r.1.tileTurn core o then
      let t := r.1.runQuarter core (k / 4) (k % 4) r.2
      (t, r.2 || r.1.hasRun t core (k / 4) (k % 4))
    else r
  | none => r

/-- MATRIX_PASS: one pass of up to four quarter operations, which reads B once (R325). -/
def execMatrixPass (core : Nat) (quarters : List Nat) (s : State) : Host.Outcome State Fault Refusal :=
  .next (if !s.mayFuse core quarters then s else (quarters.foldl (passStep core) (s, false)).1)

/-- TILE_OPERATION_RETIRE: the operation is performed once the version it reads is written, or, for a matrix instruction, its last quarter has
run; and it retires (R18, R324). -/
def execTileOperationRetire (core op : Nat) (s : State) : Host.Outcome State Fault Refusal :=
  match (s.core core).tileOps.find? op with
  | none => .next s
  | some o =>
    if !s.opRuns o.ctx o.g o.seq core 3 false || !s.tileTurn core o then .next s
    else match o.kind with
      | .mma | .mmas | .mmac | .scl | .acc => .next (if o.quarters.vals.all Quarter.done then s.endTile core op o else s)
      | .zero => .next (s.performTzero core op o)
      | .lds => .next (s.performTlds core op o)
      | .ld => .next (s.performTld core op o)
      | .sto => .next (if s.written [o.src] then s.performTsto core op o else s)
      | .sts => .next (if s.written [o.src] then s.performTsts core op o else s)
      | .rd => .next (if s.written [o.src] then s.performTrd core op o else s)
      | .wr => .next (if s.written [o.src] then s.performTwr core op o else s)

end Sys2Proof.Machine
end

