-- ==== Sys2Proof/Machine/Hosts.lean ====
section
/-! DEFINITION. The events of the supervisor's mapping changes, the host chiplets, the die-to-die links, RDMA, and memory errors (R211, R213,
R245, R280 to R283, R351, R367, R368, R373). -/

namespace Sys2Proof.Machine

-- ## Mapping changes (R211, R283)

/-- Whether an access of a context that has translated and is not yet performed touches an address of a range: a load without its value or
truth, a store or an atomic (R211, R283). -/
def State.inFlight (s : State) (ctx : Nat) (va : W64) (len : Nat) : Bool :=
  s.cores.vals.any (fun c =>
    c.loads.vals.any (fun l => l.ctx == ctx && !l.scratch &&
      l.lanes.vals.any (fun e => e.state != LaneState.landed && e.truth.isNone && overlap e.va l.bytes va len))
    || c.stores.vals.any (fun t => t.ctx == ctx && !t.scratch && overlap t.va t.data.length va len)
    || c.atomics.vals.any (fun a => a.ctx == ctx && a.lanes.vals.any (fun e => overlap e.va a.bytes va len)))

/-- Whether a page shares bytes with a range of a context's addresses. -/
def Page.touches (p : Page) (ctx : Nat) (va : W64) (len : Nat) : Bool :=
  p.ctx == ctx && decide (p.va < va.toNat + len ∧ va.toNat < p.va + 2 ^ p.bits)

/-- Whether a page-walk cache entry leads to addresses of a range of a context. -/
def WalkStep.touches (w : WalkStep) (ctx : Nat) (va : W64) (len : Nat) : Bool :=
  let size := 2 ^ (12 + 9 * w.level)
  w.ctx == ctx && decide (w.part * size < va.toNat + len ∧ va.toNat < (w.part + 1) * size)

/-- Every TLB and page-walk cache entry of a range of a context's addresses dropped (R211). -/
def State.dropTlb (s : State) (ctx : Nat) (va : W64) (len : Nat) : State :=
  { s with
    cores := s.cores.mapVals (fun _ c => { c with tlb := c.tlb.filter (fun p => !p.touches ctx va len) }),
    dies := s.dies.mapVals (fun _ d => { d with
      tlb := d.tlb.filter (fun p => !p.touches ctx va len), walks := d.walks.filter (fun w => !w.touches ctx va len) }) }

/-- What the copies of a context have written so far performed for every agent (R211). -/
def State.publishCopies (s : State) (ctx : Nat) : State :=
  s.cores.foldl (fun t p => (p.2.copies.vals.filter (fun o => o.ctx == ctx)).foldl (fun t o => t.publish p.1 o.lines) t) s

/-- The copies of a context ended where they stand, as the supervisor ends it: what they have written is performed for every agent (R211, R335). -/
def State.endCopies (s : State) (ctx : Nat) : State :=
  let s := s.publishCopies ctx
  { s with cores := s.cores.mapVals (fun _ c => { c with copies := c.copies.keep (fun _ o => o.ctx != ctx) }) }

/-- Whether a context has stores or atomics that are not performed at `.sys` (R287). -/
def State.unsettled (s : State) (ctx : Nat) : Bool :=
  s.cores.vals.any (fun c => c.stores.vals.any (fun t => t.ctx == ctx) || c.atomics.vals.any (fun a => a.ctx == ctx))

/-- The WARN summary of a grid that is abandoned, with the bits of its groups that have not ended (R66). -/
def State.abandonedGrid (s : State) (r : Grid) : Grid :=
  let mine := s.groups.vals.filter (fun x => x.ctx == r.ctx && (s.grid x.grid).number == r.number && (s.grid x.grid).queue == r.queue)
  { r with warn := mine.foldl (fun w x => w ||| x.warn) r.warn }

/-- CONTEXT_END: the supervisor ends a halted or idle context, and its grids are abandoned with STATUS 2 (R94, R138), once every store and atomic of its
fibres is performed at `.sys` (R287) and the charges of its grids are scaled (R380). -/
def execContextEnd (ctx : Nat) (s : State) : Host.Outcome State Fault Refusal :=
  let c := s.ctx ctx
  let idle := match c.halt with | some h => h.phase == .supervisor | none => !s.groups.vals.any (fun x => x.ctx == ctx)
  if (s.ctxs.find? ctx).isNone || !idle then .next s
  else
    let s := if c.ending then s else { s.endCopies ctx with ctxs := s.ctxs.adjust ctx (fun c => { c with ending := true }) }
    let mine := s.grids.vals.filter (fun r => r.ctx == ctx)
    if s.unsettled ctx || mine.any (fun r => r.charge != 0 || s.deviceHeld ctx r.record.done 64 || s.queueHeld r.vf r.queue) then .next s
    else match mine.find? (fun r => (s.writeCompletion ctx r 2).isNone) with
      | some r => .next (s.askSupervisor ctx r.record.done)
      | none =>
        let s := mine.foldl (fun (t : State) r => (t.writeCompletion ctx (s.abandonedGrid r) 2).getD t) s
        let t := s.removeContext ctx
        .next (mine.foldl (fun t r => t.readTail r.vf r.queue) t)

/-- INVALIDATION: the supervisor changes entries of the page tables, and the translations of a range are dropped, once every access that
used them is performed (R211). A line of them that a host holds exclusive comes back first (R280). -/
def execInvalidation (ctx : Nat) (va : W64) (len : Nat) (writes : List (Nat × W64)) (s : State) : Host.Outcome State Fault Refusal :=
  if (s.ctxs.find? ctx).isNone || s.inFlight ctx va len || writes.any (fun w => s.bytesHeld w.1 8) then .next s
  else
    let s := writes.foldl (fun t w => t.sysWrite w.1 (bytesOf 8 w.2.toNat) false) (s.publishCopies ctx)
    .next (s.dropTlb ctx va len)

/-- The address of the leaf entry of an address and its level, from the table of a level on (R204, R206). -/
def State.leafFrom (s : State) (va : Nat) : Nat → Nat → Option (Nat × Nat)
  | 0, table => some (table + 8 * bitsAt va 20 16, 0)
  | n + 1, table =>
    let a := table + 8 * bitsAt va (29 + 9 * n) (21 + 9 * n)
    let e := ofBytes (s.sysRead a 8).1
    if !bitAt e 0 then none
    else if bitAt e 1 then some (a, n + 1)
    else s.leafFrom va n (if n = 0 then bitsAt e 47 8 * 2 ^ 8 else bitsAt e 47 12 * 2 ^ 12)

/-- Whether a copy has a side on a range of a context's addresses. -/
def Copy.touches (c : Copy) (ctx : Nat) (va : W64) (len : Nat) : Bool :=
  c.ctx == ctx && (c.ranges.any (fun r => !r.1 && overlap r.2.1 r.2.2 va len) || ((c.kind == 2 || c.kind == 3) && !c.ended))

/-- The copies that touch a page paused, each at a boundary, or going on again (R283). -/
def State.flipCopies (s : State) (ctx : Nat) (va : W64) (len : Nat) (on : Bool) : State :=
  { s with cores := s.cores.mapVals (fun _ c => { c with copies := c.copies.mapVals (fun _ o =>
      if o.touches ctx va len ∧ o.atBoundary then { o with flip := on } else o) }) }

/-- The lines that some L2 holds dirty, in a range of physical addresses. -/
def State.dirtyLines (s : State) (pa len : Nat) : List Nat :=
  (s.dies.vals.flatMap (fun d => (d.l2.filter (fun p => p.2.dirty && decide (pa ≤ p.1 ∧ p.1 < pa + len))).map Prod.fst)).foldl addOnce []

/-- A line written back and dropped from every L1, and from every L2 that does not hold it pinned, of the dies whose firewalls take the directory's message
(R221, R280, R283, R368). -/
def State.evictLine (s : State) (la : Nat) : State :=
  let s := s.cleanAll la
  let s := s.reportDies la (s.deafDies la (upTo Config.dies))
  { s with
    dies := s.dies.mapVals (fun e d => if !s.snoopOk e la then d else match d.l2.find? la with
      | some l => if l.pin.isSome || l.bound != 0 then d else { d with l2 := d.l2.del la }
      | none => d),
    cores := s.cores.mapVals (fun k c => if !s.snoopOk (dieOf k) la then c else
      { c with l1 := c.l1.del la, fills := c.fills.adjust la (fun f => { f with install := false }), invalidations := drop c.invalidations la }) }

/-- The translations of a range of a context's addresses held back, or let go on (R283). -/
def Ctx.setFlip (c : Ctx) (va len : Nat) (on : Bool) : Ctx :=
  if on then (if c.flips.any (fun f => f == (va, len)) then c else { c with flips := c.flips ++ [(va, len)] })
  else { c with flips := c.flips.filter (fun f => f != (va, len)) }

/-- A leaf entry with its BIAS bit set or cleared (R205). -/
def withBias (e : Nat) (bias : Bool) : Nat := e % 2 ^ 50 + (if bias then 2 ^ 50 else 0) + e / 2 ^ 51 * 2 ^ 51

/-- BIAS_FLIP: while it is in progress no lane translates on the page and copies on it pause; once every access is performed, dirty lines or host halves
are moved, and the leaf's BIAS bit changes (R217, R283). Host halves held exclusive come back by HOST_WRITE_BACK first. -/
def execBiasFlip (ctx : Nat) (va : W64) (bias : Bool) (s : State) : Host.Outcome State Fault Refusal :=
  if (s.ctxs.find? ctx).isNone then .next s
  else match s.leafFrom va.toNat 3 (s.ctx ctx).ptroot with
  | none => .next s
  | some (a, level) =>
    let e := ofBytes (s.sysRead a 8).1
    match leafPage ctx va.toNat level e with
    | .page p =>
      let base := BitVec.ofNat 64 p.va
      let len := 2 ^ p.bits
      let inPage := fun (h : Nat) => decide (p.pa ≤ h ∧ h < p.pa + len)
      if !bitAt e 0 || !bitAt e 1 then .next s
      else
        let s := { s.flipCopies ctx base len true with ctxs := s.ctxs.adjust ctx (fun c => c.setFlip p.va len true) }
        let moving := s.cores.vals.any (fun c => c.copies.vals.any (fun o => o.touches ctx base len && !o.ended && !o.flip))
        if moving || s.inFlight ctx base len || (!bias && s.host.any (fun h => inPage h.1 && h.2 == 2)) || s.bytesHeld a 8 then .next s
        else
          let s := s.publishCopies ctx
          let s := if bias then (s.dirtyLines p.pa len).foldl State.evictLine s else { s with host := s.host.keep (fun h _ => !inPage h) }
          let s := ((s.sysWrite a (bytesOf 8 (withBias e bias)) false).dropTlb ctx base len).flipCopies ctx base len false
          .next { s with ctxs := s.ctxs.adjust ctx (fun c => c.setFlip p.va len false) }
    | _ => .next s

-- ## The pages of a line (R205)

/-- The addresses of the entries of a table of so many bytes that are not all zero, in memory or in a line that an L2 holds dirty (R204). -/
def State.entriesIn (s : State) (table size : Nat) : List Nat :=
  let inTable := fun (a : Nat) => decide (table ≤ a ∧ a < table + size)
  let owned := s.dies.vals.flatMap (fun d => (d.l2.filter (fun p => p.2.dirty && decide (lineOf table ≤ p.1 ∧ p.1 < table + size))).flatMap (fun p =>
    (upTo 16).map (fun i => p.1 + 8 * i)))
  ascending (((s.mem.keys.filter inTable).map (fun a => a / 8 * 8)) ++ owned.filter inTable)

/-- The leaf pages that a table of a level leads to (R204, R205). -/
def State.leaves (s : State) (ctx : Nat) : Nat → Nat → List Page
  | 0, table => (s.entriesIn table 256).filterMap (fun a =>
      let e := ofBytes (s.sysRead a 8).1
      if bitAt e 0 && bitAt e 1 then (match leafPage ctx 0 0 e with | .page p => some p | _ => none) else none)
  | n + 1, table => (s.entriesIn table 4096).flatMap (fun a =>
      let e := ofBytes (s.sysRead a 8).1
      if leadsOn (n + 1) e then s.leaves ctx n (nextTable (n + 1) e)
      else if bitAt e 0 && bitAt e 1 && decide (n < 2) then (match leafPage ctx 0 (n + 1) e with | .page p => [p] | _ => [])
      else [])

/-- The pages of every context that map a physical address. -/
def State.pagesAt (s : State) (a : Nat) : List Page :=
  s.ctxs.flatMap (fun c => (s.leaves c.1 3 c.2.ptroot).filter (fun p => decide (p.pa ≤ a ∧ a < p.pa + 2 ^ p.bits)))

/-- The owner key under which a host's bytes at an address are written: that of their page's owner, if a page maps them (R372). -/
def State.hostKey (s : State) (a : Nat) : Option Nat := (s.pagesAt a).head?.map (fun p => (s.vf p.owner).generation)

/-- Bytes that a host has written sealed under the key of their page's owner (R372); without a page they are under no owner's key. -/
def State.sealHost (s : State) (key : Option Nat) (a n : Nat) : State :=
  match key with
  | some k => s.sealFor k a n
  | none => { s with seals := (linesOf a n).foldl (fun m la => m.del la) s.seals }

-- ## Host chiplets (R213, R280 to R282)

/-- The half of a line that an address lies in (R199). -/
def halfOf (a : Nat) : Nat := a / 64 * 64

/-- Whether a host may hold copies of an address: it lies in memory of the package, and every page that maps it is in host bias and gives host chiplets
copies (R213, R217). -/
def State.hostMay (s : State) (a : Nat) : Bool :=
  (region a).isSome && !isCauseway a && (s.pagesAt a).all (fun p => p.consults)

/-- Whether a host's access to bytes waits: a store to one of their lines is not yet performed at `.pkg` (R282). -/
def State.hostWaits (s : State) (a n : Nat) : Bool := (linesOf a n).any (fun la => s.unacknowledged la 128)

/-- The bytes that a host reads at the home: of no use where the line was last written under another key than that of its page's owner (R372). -/
def State.hostBytes (s : State) (a n : Nat) : List Byte :=
  (upTo n).map (fun i =>
    let key := s.hostKey (a + i)
    match s.seals.find? (lineOf (a + i)) with
    | some g => if key = some g then Memory.read s.mem (a + i) else openAt (a + i) (key.getD 0)
    | none => Memory.read s.mem (a + i))

/-- A host's read answered from the home, with CXL poison where the line is poisoned (R281). -/
def State.answerHost (s : State) (a n : Nat) : State :=
  { s with sent := s.sent ++ [Sent.hostRead a (s.hostBytes a n) ((linesOf a n).any (fun la => has s.poison la))] }

/-- HOST_SHARED_REQUEST: every L2 writes back an owned copy and keeps it clean (R280), and the half is sent (R281). -/
def execHostSharedRequest (addr : Nat) (s : State) : Host.Outcome State Fault Refusal :=
  .next (if !s.hostMay addr || s.hostWaits addr 1 || s.host.get (halfOf addr) 0 == 2 then s
    else
      let s := s.cleanAll (lineOf addr)
      ({ s with host := s.host.put (halfOf addr) 1 } : State).answerHost (halfOf addr) 64)

/-- HOST_EXCLUSIVE_REQUEST: every L2 and L1 writes back and drops the line, and the half is sent (R280, R281); a pinned copy stays in its place
(R221). -/
def execHostExclusiveRequest (addr : Nat) (s : State) : Host.Outcome State Fault Refusal :=
  .next (if !s.hostMay addr || s.hostWaits addr 1 || s.host.get (halfOf addr) 0 == 2 then s
    else
      let s := s.evictLine (lineOf addr)
      ({ s with host := s.host.put (halfOf addr) 2 } : State).answerHost (halfOf addr) 64)

/-- HOST_WRITE_BACK: the data of an exclusive half enter memory, and the host keeps it shared; poison marks the whole line (R280, R281). The other half
stays as the host holds it. -/
def execHostWriteBack (addr : Nat) (data : List Byte) (poisoned : Bool) (s : State) : Host.Outcome State Fault Refusal :=
  let h := halfOf addr
  .next (if s.host.get h 0 ≠ 2 ∨ data.length ≠ 64 then s
    else
      let t := s.sysWrite h data poisoned
      ({ t with host := t.host.put h 1 } : State).sealHost (s.hostKey h) h 64)

/-- HOST_MEMORY_ACCESS: a CXL.mem access to an MTYPE 1 page at the LLC: every device copy is written back first; without data it is a read and is
answered, and a write takes effect (R213, R281, R282). -/
def execHostMemoryAccess (addr len : Nat) (data : List Byte) (s : State) : Host.Outcome State Fault Refusal :=
  let n := Nat.max len data.length
  .next (if !(linesOf addr n).all (fun la => (region la).isSome) || s.hostWaits addr n then s
    else
      let key := s.hostKey addr
      let s := (linesOf addr n).foldl State.cleanAll s
      if data.isEmpty then (if len = 0 then s else s.answerHost addr len) else (s.sysWrite addr data false).sealHost key addr data.length)

/-- RDMA_ACCESS: a remote host reads, or with data writes, memory of a VF's partition (R90, R352). -/
def execRdmaAccess (vf addr len : Nat) (data : List Byte) (s : State) : Host.Outcome State Fault Refusal :=
  let v := s.vf vf
  let lines := linesOf addr (Nat.max len data.length)
  let inside := fun (la : Nat) => match region la with | some r => has v.dies r.home | none => false
  .next (if !v.alive || !lines.all inside || lines.any s.hostHolds then s
    else (s.sysWrite addr data false).sealFor v.generation addr data.length)

-- ## The die-to-die links (R367, R368)

/-- DIE_LINK_REQUEST: a request of die `src` arrives at die `dst`: 0 a read, 1 a write, 2 an atomic addition, 3 a coherence message for a line
homed on `src`. One that DFW refuses is not performed and reported to the supervisor ring (R367, R368). -/
def execDieLinkRequest (src dst kind addr : Nat) (data : List Byte) (s : State) : Host.Outcome State Fault Refusal :=
  let la := lineOf addr
  let home := match region addr with | some r => some r.home | none => none
  .next (if src ≥ Config.dies ∨ dst ≥ Config.dies ∨ src = dst then s
    else if !(s.die dst).takes src dst (kind == 3) then s.reportSupervisor 6 0xFF (severityOf 6) (BitVec.ofNat 64 la) (BitVec.ofNat 32 dst)
    else match kind with
      | 0 => if home = some dst ∧ !s.hostHolds la then s.l2Fetch src la 0 false else s
      | 1 => if home = some dst ∧ !(linesOf addr data.length).any s.hostHolds then s.sysWrite addr data false else s
      | 2 => if home = some dst ∧ !s.hostHolds la ∧ addr % 128 + data.length ≤ 128 then
          let n := data.length
          s.sysWrite addr (bytesOf n ((ofBytes (s.sysRead addr n).1 + ofBytes data) % 2 ^ (8 * n))) false
        else s
      | 3 =>
        if home ≠ some src then s
        else
          let t := (s.cleanLine dst la).updDie dst (fun d => match d.l2.find? la with
            | some l => if l.pin.isSome || l.bound != 0 then d else { d with l2 := d.l2.del la }
            | none => d)
          t.invalidateL1s dst la (2 ^ 32)
      | _ => s)

-- ## Memory errors (R245, R373)

/-- The VF under whose key a line was last written, if it is up (R372, R373). -/
def State.lineOwner (s : State) (la : Nat) : Option Nat :=
  match s.seals.find? la with
  | none => none
  | some g => (List.find? (fun (p : Nat × Vf) => p.2.alive && p.2.generation == g) s.vfs).map Prod.fst

/-- An event of a line of memory put into the ring of its owner, or the supervisor ring (R373). -/
def State.reportLine (s : State) (type la : Nat) : State :=
  let place := BitVec.ofNat 32 (match region la with | some r => r.home | none => 0)
  match s.lineOwner la with
  | some v => s.report v type (BitVec.ofNat 64 la) place
  | none => s.reportSupervisor type 0xFF (severityOf type) (BitVec.ofNat 64 la) place

/-- A line of memory whose data are lost: its bytes carry no meaning and it is marked poisoned (R245). -/
def State.loseLine (s : State) (la : Nat) : State :=
  let data := (upTo 128).map (fun i => Config.openByte (2 * (s.free + i) + 1))
  { s.writeLine la data true with free := s.free + 128 }

/-- UNCORRECTABLE_MEMORY_ERROR: the line is marked poisoned and the event is reported (R245, R373). -/
def execUncorrectableMemoryError (addr : Nat) (s : State) : Host.Outcome State Fault Refusal :=
  .next (if (region addr).isNone then s else (s.loseLine (lineOf addr)).reportLine 2 (lineOf addr))

/-- CORRECTED_MEMORY_ERROR: the event is reported (R373). -/
def execCorrectedMemoryError (addr : Nat) (s : State) : Host.Outcome State Fault Refusal :=
  .next (if (region addr).isNone then s else s.reportLine 1 (lineOf addr))

end Sys2Proof.Machine
end

