-- ==== Sys2Proof/Machine/Fabric.lean ====
section
/-! DEFINITION. The fabric engine: COLL, CSIG, CWAIT, RPOST and STEP, remote command messages, and the ends of requests to Causeway nodes and
remote devices (R347 to R364, R402). -/

namespace Sys2Proof.Machine

-- ## Issue (R354, R355)

/-- What an instruction that acts once for its issue set gives the checks of R354. -/
structure FabricIns where
  ins : Instr
  a : Nat
  /-- k[a] is an address, which must be a multiple of this; 0 where it is none. -/
  align : Nat
  /-- The address is written (R133). -/
  write : Bool
  /-- The value that leaves the device, read in the lowest lane. -/
  value : Fibre → Val
  ctls : Fibre → List Ctl
  /-- The limits: field code, value and whether it is within them. -/
  limits : State → Fibre → List (Nat × Nat × Bool)

/-- The checks of R354 in order, in the lowest lane of the issue set; then `go`. -/
def State.fabric (s : State) (z : FabricIns) (go : Eff → State → State) : State :=
  s.plain z.ins (fun e s =>
    let l := firstLane s.cur.lanes
    let b := s.here.fibre l
    let ad := (ctlK b 0 z.a).val
    let mask := BitVec.ofNat 64 (maskOf [l])
    if z.align ≠ 0 ∧ ad.p then s.precise 8 1 0 5 [l] 0
    else if z.align ≠ 0 ∧ ad.g then s.precise 3 0 0 5 [l] mask
    else if (z.value b).p then s.precise 8 3 1 5 [l] 0
    else if (z.value b).g then s.precise 3 1 1 5 [l] mask
    else s.controlUnit 5 z.ctls (fun s =>
      if z.align ≠ 0 ∧ ad.bits % z.align ≠ 0 then s.precise 4 2 (if z.write then 1 else 0) 5 [l] (BitVec.ofNat 64 ad.bits)
      else match (z.limits s (s.here.fibre l)).filter (fun p => !p.2.2) with
        | p :: _ => s.precise 6 1 p.1 5 [l] (BitVec.ofNat 64 p.2.1)
        | [] => go e s))

/-- The communicator and rank of a target (R355): the endpoint and the remote VF. -/
def State.target (s : State) (ctx v : Nat) : Option (Nat × Nat) :=
  match (s.vf (s.ctx ctx).vf).comms.find? (v / 2 ^ 32) with
  | none => none
  | some c => c.ranks[v % 2 ^ 32]?

/-- What the fabric engine reads at the L2 of a die (R344): the bytes of one line, and whether it is poisoned. -/
def State.fabricRead (s : State) (ctx core pa n : Nat) (p : Page) : List Byte × Bool :=
  let l := if p.mtype = 2 then s.homeLine (dieOf core) (lineOf pa) else s.l2Line (dieOf core) (lineOf pa)
  (s.ownBytes ctx pa ((upTo n).map (fun i => l.data.getD ((pa + i) % 128) 0)), l.poison)

/-- A read at issue of bytes within one line (R402), for the lowest lane of the issue set. It goes out at the core's port (R370), and until it can the
instruction stalls at issue. -/
def State.readAtIssue (s : State) (va : W64) (n : Nat) (go : List Byte → State → State) : State :=
  let x := s.here
  let l := firstLane s.cur.lanes
  match s.xlate x.ctx x.core va .read with
  | .trap sub => s.memFault x.ctx 5 0 l sub va
  | .poisoned => s.walkPoison 5 0 l va
  | .replay => s.waitReplay x.ctx [(l, va)] [l]
  | .held => s
  | .ok pa p =>
    if p.consults && s.hostHolds (lineOf pa) then s
    else s.throughPort x.ctx x.core (tokens n) (fun s =>
      let s := (s.reportReads x.ctx x.core [lineOf pa]).readLine (dieOf x.core) (lineOf pa) 0 false p.conf
      let r := s.fabricRead x.ctx x.core pa n p
      if r.2 then s.precise 8 1 0 5 [l] (va &&& ~~~127) else go r.1 (s.fillTlb x.ctx x.core va))

-- ## COLL (R356)

/-- The size of an element of an operation (R356). -/
def collSize (op type : Nat) : Nat := if op = 0 then (if type = 1 then 2 else 4) else 1

/-- A record of 64 bytes as a call of a group (R356). -/
def callOf (l : List Byte) (g : Nat) (x : Group) (vf lane : Nat) (addr : W64) (ticks : Nat) : Call :=
  let f := fun (i n : Nat) => ofBytes ((l.drop i).take n)
  ⟨g, x.ctx, lane, vf, x.core, f 4 1, f 5 1, BitVec.ofNat 64 (f 8 8), BitVec.ofNat 64 (f 16 8), f 24 8, f 32 4, f 36 4, f 40 4, f 44 4, addr, ticks, [], none, none, 0⟩

/-- Whether a record is malformed (R356). -/
def State.malformedCall (s : State) (l : List Byte) (c : Call) : Bool :=
  let f := fun (i n : Nat) => ofBytes ((l.drop i).take n)
  let ranks := match (s.vf c.vf).comms.find? c.comm with | some m => m.ranks.length | none => 0
  let es := collSize c.op c.type
  decide (c.op > 3) || (c.op == 0 && decide (c.type > 3)) || f 6 2 != 0 || f 48 16 != 0 || decide (c.count = 0 ∨ c.count > 2 ^ 32)
    || ((s.vf c.vf).comms.find? c.comm).isNone || ((c.op == 2 || c.op == 3) && decide (c.peer ≥ ranks)) || ((c.op == 0 || c.op == 1) && c.peer != 0)
    || (c.op == 0 && (c.src.toNat % es != 0 || c.dst.toNat % es != 0))

/-- STATUS of a call written with release semantics at `.sys`, where the VF is alive (R358, R375). -/
def State.writeStatus (s : State) (ctx : Nat) (addr : W64) (status : Nat) : State :=
  if (s.vf (s.ctx ctx).vf).alive then s.deviceWrite ctx addr (bytesOf 4 status) else s

/-- COLL (R356): a malformed record or a duplicate gives 2, a full engine 1, and otherwise the call starts. -/
def execColl (m : Mods) (d a : BitVec 7) (s : State) : Host.Outcome State Fault Refusal :=
  .next (s.fabric ⟨.coll m d a, a.toNat, 64, false, fun _ => Val.zero, fun _ => [], fun _ _ => []⟩ (fun e s =>
    let va := ((s.here.fibre (firstLane s.cur.lanes)).kReg (a.toNat - 96)).val
    s.readAtIssue va 64 (fun bytes s =>
      let x := s.here
      let c := callOf bytes s.cur.g x (s.ctx x.ctx).vf (firstLane s.cur.lanes) va s.ticks
      let duplicate := s.calls.vals.any (fun o => o.vf == c.vf && o.comm == c.comm && o.seq == c.seq)
      let full := decide ((s.calls.vals.filter (fun o => o.ctx == x.ctx)).length ≥ 64)
      let status : Nat := if s.malformedCall bytes c || duplicate then 2 else if full then 1 else 0
      let s := if status = 2 then s.writeStatus x.ctx va 3
        else if status = 0 then { s with calls := s.calls.put s.ids c, ids := s.ids + 1 } else s
      (s.setDest (.k d.toNat) (fun _ _ => Val.of status)).complete x e (Dst.k d.toNat).regs)))

-- ## The course of a call (R357, R358, R402)

/-- The pieces of a range, one for each line it touches (R402). -/
def piecesOf (va : W64) (n : Nat) : List (W64 × Nat) :=
  (linesOf va.toNat n).map (fun la =>
    let lo := Nat.max la va.toNat
    (BitVec.ofNat 64 lo, Nat.min (va.toNat + n) (la + 128) - lo))

/-- A range translated piece by piece (R402). -/
def State.spanAll (s : State) (ctx core : Nat) (kind : Kind) (va : W64) (n : Nat) : Span :=
  (piecesOf va n).foldl (fun r p => match r with
    | .ok l => (match s.span ctx core kind false p.1 p.2 false with | .ok k => .ok (l ++ k) | e => e)
    | e => e) (.ok [])

/-- A value formed by combining a list pairwise over a tree that a number gives (R357). -/
def combineTree (f : Nat → Nat → Nat) : Nat → Nat → List Nat → Nat
  | 0, _, l => l.headD 0
  | n + 1, p, l =>
    let k := l.length
    if k ≤ 1 then l.headD 0
    else
      let i := p % k
      let rest := l.eraseIdx i
      let j := p / k % (k - 1)
      combineTree f n (p / (k * (k - 1))) (rest.eraseIdx j ++ [f (l.getD i 0) (rest.getD j 0)])

/-- One combining step of an all-reduce (R357). -/
def collCombine (type a b : Nat) : Nat :=
  match type with
  | 0 => (f32.add 0 false 0 (f32.num a) (f32.num b)).1
  | 1 => (bf16.add 0 false 0 (bf16.num a) (bf16.num b)).1
  | 2 => (a + b) % 2 ^ 32
  | _ => (f32.minmax true a b).1

/-- An element of a rank's contribution, with its poison. -/
def elementAt (l : List (Byte × Bool)) (es i : Nat) : Nat × Bool :=
  let e := (l.drop (es * i)).take es
  (ofBytes (e.map Prod.fst), e.any Prod.snd)

/-- What a remote rank brings to a call: 64 bytes as of its record, then its SRC data and, where some of them are poisoned, a mark for each. -/
def contribution (b : List Byte) (size : Nat) : List (Byte × Bool) :=
  let data := (b.drop 64).take size
  let marks := b.drop (64 + size)
  (upTo size).map (fun i => (data.getD i 0, marks.getD i 0 != 0))

/-- The bytes that a call puts at DST, from each rank's contribution by rank (R357); `n` numbers the first combining tree. -/
def collResult (c : Call) (ranks : List (List (Byte × Bool))) (n : Nat) : List (Byte × Bool) :=
  let es := collSize c.op c.type
  match c.op with
  | 0 => (upTo c.count).flatMap (fun i =>
      let es' := ranks.map (fun l => elementAt l es i)
      let v := combineTree (collCombine c.type) ranks.length (Config.collTree (n + i)) (es'.map Prod.fst)
      (bytesOf es v).map (fun b => (b, es'.any Prod.snd)))
  | 1 => ranks.flatMap (fun l => l.take c.count)
  | _ => (ranks.getD c.peer []).take c.count

/-- A call ended with a STATUS (R357, R358). -/
def State.endCall (s : State) (id : Nat) (c : Call) (status : Nat) : State :=
  ({ s with calls := s.calls.del id }).writeStatus c.ctx c.addr status

/-- A call ended at this rank by an access that is refused (R402). -/
def State.failCall (s : State) (id : Nat) (c : Call) (cause sub info : Nat) (va : W64) : State :=
  ((s.endCall id c 5).deferred c.ctx c.g cause sub info 5 c.lane va).forget c.ctx va

/-- The first line of a contribution that is poisoned, as an address from `va` on (R358). -/
def poisonedLine (va : W64) (l : List (Byte × Bool)) : Option W64 :=
  ((upTo l.length).find? (fun i => (l.getD i (0, false)).2)).map (fun i => (va + BitVec.ofNat 64 i) &&& ~~~127)

/-- A call changed. -/
def State.updCall (s : State) (id : Nat) (f : Call → Call) : State := { s with calls := s.calls.adjust id f }

/-- The bytes that each rank brings to a call. -/
def Call.size (c : Call) : Nat := c.count * collSize c.op c.type
/-- Whether a rank's SRC is read: of a broadcast only the root's (R357). -/
def Call.reads (c : Call) (me : Nat) : Bool := c.op != 2 || c.peer == me

/-- The next piece of so many bytes, of which some are done: its address and its length, within one line (R358, R402). -/
def pieceAt (va : W64) (total done : Nat) : W64 × Nat :=
  let a := va + BitVec.ofNat 64 done
  (a, Nat.min (128 - a.toNat % 128) (total - done))

/-- One piece of a call's SRC or DST accessed through the core's port, or the call ended at this rank where it is refused (R370, R402). -/
def State.callPiece (s : State) (id : Nat) (c : Call) (kind : Kind) (p : W64 × Nat) (go : List Seg → State → State) : State :=
  let write := kind == .write
  match s.span c.ctx c.core kind false p.1 p.2 false with
  | .trap sub va => s.failCall id c 4 sub (if write then 1 else 0) va
  | .poisoned va => (s.reportWalk c.ctx c.core va).failCall id c 8 1 (if write then 3 else 0) va
  | .replay va => s.askSupervisor c.ctx va
  | .held => s
  | .ok l => if s.segsHeld l then s else s.send c.ctx c.core (tokens p.2) ⟨6, id, 0⟩ (fun s => go l (s.reportSegs c.ctx c.core write l))

/-- The next piece of SRC read at the L2 of the issuing die (R358). -/
def State.readPiece (s : State) (id : Nat) (c : Call) : State :=
  s.callPiece id c .read (pieceAt c.src c.size c.got.length) (fun l s =>
    let s := s.fetchSegs c.core l
    s.updCall id (fun c => { c with got := c.got ++ (segBytes l).map (s.engineByte c.ctx c.core), sent := none, fails := 0 }))

/-- A call whose bytes are written, or a put that its target has performed, ends: with STATUS 4 where SRC had poison, else 0 (R358). -/
def State.finishCall (s : State) (id : Nat) (c : Call) : State :=
  match poisonedLine c.src c.got with
  | some va => (s.endCall id c 4).deferred c.ctx c.g 8 3 0 5 c.lane va
  | none => s.endCall id c 0

/-- The next piece of the result written at DST, performed for every agent; after the last the call ends (R357, R358). -/
def State.writePiece (s : State) (id : Nat) (c : Call) (ranks : Nat) (out : List (Byte × Bool)) : State :=
  let total := if c.op = 1 then c.size * ranks else c.size
  let p := pieceAt c.dst total (total - out.length)
  s.callPiece id c .write p (fun l s =>
    let s := (s.engineWrite c.ctx c.core 0 l (out.take p.2)).publish c.core (segLines l)
    let s := s.updCall id (fun c => { c with out := some (out.drop p.2), sent := none, fails := 0 })
    if (out.drop p.2).isEmpty then s.finishCall id c else s)

/-- A put sent to its target with the poison of its bytes (R357, R358). -/
def State.sendPut (s : State) (id : Nat) (c : Call) (m : Comm) : State :=
  match m.ranks[c.peer]? with
  | some t => ({ s with sent := s.sent ++ [Sent.put t.1 t.2 c.dst (c.got.map Prod.fst) (c.got.map Prod.snd)] } : State).updCall id (fun c => { c with out := some [] })
  | none => s

/-- What this rank does next for a call: it reads SRC, sends a put, and writes DST, piece by piece (R357, R358). -/
def State.advanceCall (s : State) (id : Nat) (c : Call) (m : Comm) : State :=
  if c.reads m.rank ∧ c.got.length < c.size then s.readPiece id c
  else match c.out with
    | none => if c.op = 3 then s.sendPut id c m else s
    | some [] => s
    | some out => s.writePiece id c m.ranks.length out

/-- A call that every rank has joined: what is to be written at DST (R357). -/
def State.joinCall (s : State) (id : Nat) (c : Call) (m : Comm) (others : List (Nat × List Byte)) : State :=
  let of := fun (r : Nat) => if r = m.rank then c.got else contribution (((others.find? (fun o => o.1 == r)).map Prod.snd).getD []) c.size
  { s.updCall id (fun c => { c with out := some (collResult c ((upTo m.ranks.length).map of) s.free) }) with free := s.free + c.count }

/-- Whether a joined record agrees with a call in OP, TYPE, COUNT and PEER (R357). -/
def Call.agrees (c : Call) (b : List Byte) : Bool :=
  let f := fun (i n : Nat) => ofBytes ((b.drop i).take n)
  f 4 1 == c.op && f 5 1 == c.type && f 24 8 == c.count && f 36 4 == c.peer

/-- The open call of a VF with a communicator and a number. -/
def State.openCall (s : State) (vf comm seq : Nat) : Option (Nat × Call) :=
  List.find? (fun (p : Nat × Call) => p.2.vf == vf && p.2.comm == comm && p.2.seq == seq) s.calls

/-- COLL_COMPLETION: this rank reads the next piece of SRC, or sends its put; the other ranks have joined with their records and data, and the result is
written piece by piece; or the target of a put answers: a first byte other than 0 is an error of the remote device (R357, R358, R402). It waits while a host
holds the half of STATUS exclusive (R280). -/
def execCollCompletion (vf comm seq : Nat) (others : List (Nat × List Byte)) (s : State) : Host.Outcome State Fault Refusal :=
  match s.openCall vf comm seq, (s.vf vf).comms.find? comm with
  | some (id, c), some m =>
    if s.deviceHeld c.ctx c.addr 4 then .next s
    else if c.op = 3 then
      .next (if c.out.isNone || !others.any (fun o => o.1 == c.peer) then s.advanceCall id c m
        else if others.any (fun o => o.1 == c.peer && o.2.headD 0 != 0) then s.failCall id c 7 1 0 c.dst
        else s.finishCall id c)
    else if c.out.isNone && others.any (fun o => o.1 != m.rank && !c.agrees o.2) then
      .next ((s.endCall id c 1).deferred c.ctx c.g 7 2 0 5 c.lane c.addr)
    else if c.out.isNone && !(c.reads m.rank && decide (c.got.length < c.size))
        && (upTo m.ranks.length).all (fun r => r == m.rank || others.any (fun o => o.1 == r)) then .next (s.joinCall id c m others)
    else .next (s.advanceCall id c m)
  | _, _ => .next s

/-- Whether the next piece that a joined call writes at DST waits for its translation (R402). -/
def State.callStuck (s : State) (c : Call) (ranks : Nat) : Bool :=
  match c.out with
  | some (_ :: _) =>
    let total := if c.op = 1 then c.size * ranks else c.size
    let p := pieceAt c.dst total (total - (c.out.getD []).length)
    (match s.span c.ctx c.core .write false p.1 p.2 false with | .replay _ => true | _ => false)
  | _ => false

/-- COLL_TIMEOUT: TMO has passed and not every rank has joined, the target of a put has not answered, or a piece waits for its translation (R356, R357,
R402). -/
def execCollTimeout (vf comm seq ctx : Nat) (s : State) : Host.Outcome State Fault Refusal :=
  match s.openCall vf comm seq with
  | some (id, c) =>
    let tmo := (if c.tmo = 0 then 1000000 else c.tmo) * 1000
    if c.ctx = ctx ∧ s.ticks ≥ c.since + tmo ∧ (c.out.isNone ∨ c.op = 3 ∨ s.callStuck c (((s.vf vf).comms.find? comm).map (fun m => m.ranks.length) |>.getD 0)) ∧ s.deviceHeld c.ctx c.addr 4 = false then .next ((s.endCall id c 2).deferred c.ctx c.g 7 0 0 5 c.lane c.addr) else .next s
  | none => .next s

-- ## CSIG and RPOST (R360, R362)

/-- Whether a signal or message of a fibre may be sent: its release at `.sys` is done, and so are its group's earlier puts to the same rank (R360).
`upto` is the number of the first access that came after. -/
def State.sendDone (s : State) (g uid upto target : Nat) : Bool :=
  s.releaseDone (s.group g).core g uid 4 upto none
    && !s.calls.any (fun p => p.2.g == g && decide (p.1 < upto) && p.2.op == 3 && p.2.comm == target / 2 ^ 32 && p.2.peer == target % 2 ^ 32)

/-- What follows where the lowest fibre of the issue set may send to a target; otherwise the set waits, not ready (R238, R360). A VF that is torn down
sends nothing (R375). -/
def State.sending (s : State) (target : Nat) (go : State → State) : State :=
  let b := s.here.fibre (firstLane s.cur.lanes)
  let u := b.upto s.ids
  if !s.vfUp s.here.ctx then s.dropRequests s.here.ctx s.here.core
  else if s.sendDone s.cur.g b.uid u target then go s else s.wait s.cur.lanes (.send b.uid u target)

/-- The limit of a target operand (R355). -/
def targetLimit (s : State) (field v : Nat) : Nat × Nat × Bool := (field, v, (s.target s.here.ctx v).isSome)

/-- CSIG (R360): it waits until its release is done, and the signal is then sent. -/
def State.csig (s : State) (i : Instr) (m : Mods) (d a b : BitVec 7) (add : Bool) : State :=
  let value := fun (f : Fibre) => match m.imx with | some x => Val.of (immOf x b) | none => (ctlK f 1 b.toNat).val
  s.fabric ⟨i, a.toNat, 8, true, value, fun f => [ctlK f 3 d.toNat], fun s f => [targetLimit s 3 (f.kNat d)]⟩ (fun e s =>
    let x := s.here
    let l := firstLane s.cur.lanes
    let f := x.fibre l
    let t := f.kNat d
    let va := (f.kReg (a.toNat - 96)).val
    s.sending t (fun s => match s.target x.ctx t with
      | none => s
      | some r =>
        ({ s with
          sent := s.sent ++ [Sent.signal r.1 r.2 va (BitVec.ofNat 64 (value f).bits) add],
          signals := s.signals.put s.ids ⟨s.cur.g, x.ctx, x.core, l, t / 2 ^ 32, t % 2 ^ 32, va, s.ticks⟩, ids := s.ids + 1 }).complete x e (fun _ => [])))

/-- CSIG `.add` (R360). -/
def execCsigAdd (m : Mods) (d a b : BitVec 7) (s : State) : Host.Outcome State Fault Refusal := .next (s.csig (.csigAdd m d a b) m d a b true)
/-- CSIG `.set` (R360). -/
def execCsigSet (m : Mods) (d a b : BitVec 7) (s : State) : Host.Outcome State Fault Refusal := .next (s.csig (.csigSet m d a b) m d a b false)

/-- A destination interlocked in every fibre of the issue set until a reply (R16): the lanes, fibres and registers. -/
def State.lockDest (s : State) (d : Nat) : State × List (Nat × Nat × Reg) :=
  let x := s.here
  let dst := s.cur.lanes.flatMap (fun l => ((Dst.k d).regs (x.fibre l)).map (fun r => (l, (x.fibre l).uid, r)))
  (s.mapLanes s.cur.g s.cur.lanes (fun _ b => { b with locks := b.locks ++ ((Dst.k d).regs b).map (fun r => ⟨r, true, s.clocks⟩) }), dst)

/-- RPOST (R362): the message is read and sent with the release of R360. -/
def execRpost (m : Mods) (d a b : BitVec 7) (s : State) : Host.Outcome State Fault Refusal :=
  .next (s.fabric ⟨.rpost m d a b, a.toNat, 128, false, fun _ => Val.zero, fun f => [ctlK f 1 b.toNat], fun s f => [targetLimit s 1 (f.kNat b)]⟩ (fun e s =>
    let f := s.here.fibre (firstLane s.cur.lanes)
    let t := f.kNat b
    s.sending t (fun s => s.readAtIssue (f.kReg (a.toNat - 96)).val 80 (fun bytes s =>
      let x := s.here
      match s.target x.ctx t with
      | none => s
      | some r =>
        let (u, dst) := s.lockDest d.toNat
        ({ u with sent := u.sent ++ [Sent.message r.1 r.2 bytes], posts := u.posts.put u.ids ⟨u.cur.g, x.ctx, x.core, dst, u.ticks⟩, ids := u.ids + 1 }).complete x e (Dst.k d.toNat).regs))))

/-- A value written to a destination that waited for it, and its interlock released (R16). -/
def State.answer (s : State) (g : Nat) (dst : List (Nat × Nat × Reg)) (v : Nat) : State :=
  (dst.foldl (fun t p => t.landReg g p.1 p.2.1 (some p.2.2) (.k 8) (Val.of v)) s).settleGm g

/-- RPOST_REPLY: the status of the reply reaches d (R362). -/
def execRpostReply (id status : Nat) (s : State) : Host.Outcome State Fault Refusal :=
  match s.posts.find? id with
  | none => .next s
  | some p => .next (({ s with posts := s.posts.del id }).answer p.g p.dst (status % 256))

/-- RPOST_TIMEOUT: no reply within 2,000,000 ticks gives 5 (R362). -/
def execRpostTimeout (id : Nat) (s : State) : Host.Outcome State Fault Refusal :=
  match s.posts.find? id with
  | none => .next s
  | some p => .next (if s.ticks ≥ p.since + Config.abandonTicks then ({ s with posts := s.posts.del id }).answer p.g p.dst 5 else s)

/-- CSIG_REPLY: the signal is performed, or the remote device answers with an error (R349, R360, R402). -/
def execCsigReply (id status : Nat) (s : State) : Host.Outcome State Fault Refusal :=
  match s.signals.find? id with
  | none => .next s
  | some q =>
    let s := { s with signals := s.signals.del id }
    .next (if status = 0 then s else s.deferred q.ctx q.g 7 1 0 5 q.lane q.addr)

/-- CSIG_TIMEOUT: a signal without a reply after 2,000,000 ticks (R349, R360). -/
def execCsigTimeout (id : Nat) (s : State) : Host.Outcome State Fault Refusal :=
  match s.signals.find? id with
  | none => .next s
  | some q => .next (if s.ticks ≥ q.since + Config.abandonTicks then
      ({ s with signals := s.signals.del id }).deferred q.ctx q.g 7 0 0 5 q.lane q.addr else s)

-- ## CWAIT (R361)

/-- CWAIT (R354, R361, R402): the checks of every fibre of the issue set, and then each fibre waits for its word. -/
def State.cwait (s : State) (i : Instr) (d a : BitVec 7) (n : Nat) (ctls : Fibre → List Ctl) (value : Fibre → Option W64) : State :=
  s.plain i (fun e s =>
    let x := s.here
    let ad := fun (l : Nat) => (ctlK (x.fibre l) 0 a.toNat).val
    let poisoned := s.cur.lanes.filter (fun l => (ad l).p)
    let guessed := s.cur.lanes.filter (fun l => (ad l).g)
    if !poisoned.isEmpty then s.precise 8 1 0 5 poisoned 0
    else if !guessed.isEmpty then s.precise 3 0 0 5 guessed (BitVec.ofNat 64 (maskOf guessed))
    else s.control 5 (fun _ _ b => ctls b) (fun s =>
      let x := s.here
      let addrs := s.cur.lanes.map (fun l => (l, ((x.fibre l).kReg (a.toNat - 96)).val))
      let bad := (addrs.filter (fun p => p.2.toNat % n != 0)).map Prod.fst
      if !bad.isEmpty then s.precise 4 2 0 5 bad (addrOf addrs (firstLane bad))
      else match s.reach x.ctx x.core .read addrs with
      | .trap l sub => s.memFault x.ctx 5 0 l sub (addrOf addrs l)
      | .poisoned l => s.walkPoison 5 0 l (addrOf addrs l)
      | .replay ls => s.waitReplay x.ctx addrs ls
      | .ok pas =>
        let bad := (pas.filter (fun p => (s.fabricRead x.ctx x.core p.2.1 n p.2.2).2)).map Prod.fst
        if !bad.isEmpty then s.precise 8 1 0 5 [firstLane bad] (addrOf addrs (firstLane bad) &&& ~~~127)
        else
          let s := addrs.foldl (fun t p => t.fillTlb x.ctx x.core p.2) s
          s.mapLanes s.cur.g s.cur.lanes (fun l b => { b with
            wait := .word (addrOf addrs l) (value b) d.toNat s.cur.words (e.last.flatMap (fun o => operandRegs o b)) })))

/-- CWAIT `.rec` (R361). -/
def execCwaitRec (m : Mods) (d a : BitVec 7) (s : State) : Host.Outcome State Fault Refusal :=
  .next (s.cwait (.cwaitRec m d a) d a 4 (fun _ => []) (fun _ => none))
/-- CWAIT `.ge` (R361). -/
def execCwaitGe (m : Mods) (d a b : BitVec 7) (s : State) : Host.Outcome State Fault Refusal :=
  .next (s.cwait (.cwaitGe m d a b) d a 8 (fun f => match m.imx with | some _ => [] | none => [ctlK f 1 b.toNat])
    (fun f => some (BitVec.ofNat 64 (kOrImm m f b))))

/-- A CWAIT whose condition holds ends: its acquire, its d, its last uses and its PC (R253, R361). -/
def State.endWait (s : State) (g lane core : Nat) (b : Fibre) (d words v : Nat) (last : List Reg) : State :=
  let s := s.acquireL1 core 4 1
  let written := (Dst.k d).regs b
  let freed := last.filter (fun r => !hasReg written r)
  let s := (s.releaseHolders g b.uid written true).releaseHolders g b.uid freed true
  (s.updFibre g lane (fun b =>
    { freed.foldl Fibre.freeReg ((Dst.k d).write b (Val.of v)) with pc := b.pc + BitVec.ofNat 64 (4 * words), wait := .free })).settleGm g

/-- What a fibre waited to read at a node has come (R349). -/
def State.unasked (s : State) (g lane : Nat) : State := s.updGroup g (fun x => { x with asked := x.asked.del lane })

/-- CWAIT_REREAD: the word is read as LDAQ at `.sys` reads it, and where the condition holds the read goes out at the core's port and the fibre goes on
(R253, R361, R370). A fault of the read is precise, in the fibre alone (R402). The range scoreboard does not check it (R17). -/
def execCwaitReread (g lane : Nat) (s : State) : Host.Outcome State Fault Refusal :=
  let x := s.group g
  let b := x.fibre lane
  match b.wait with
  | .word va value d words last =>
    if !s.runs x.ctx g then .next s
    else
      let n := if value.isSome then 8 else 4
      let t := ({ s with cur := ⟨g, [lane], b.pc, words, s.cur.base, none, none⟩ } : State)
      let free := t.wait [lane] .free
      match s.xlate x.ctx x.core va .read with
      | .trap sub => .next (free.memFault x.ctx 5 0 lane sub va)
      | .poisoned => .next (free.walkPoison 5 0 lane va)
      | .replay => .next (s.askSupervisor x.ctx va)
      | .held => .next s
      | .ok pa p =>
        let c := s.core x.core
        let la := lineOf pa
        if !c.loadsDone g b.uid s.ids none || !c.atomicsDone g b.uid s.ids none || !c.mayLook g b.uid s.ids false pa n s.ids
            || c.queuedBefore s.ids pa n || (p.consults && s.hostHolds la) || s.unacknowledged la 128 then .next s
        else
          let r := s.acquireLine x.ctx x.core la p.mtype 4 p.l2Ok p.conf
          if r.2.poison then .next ((free.reportReads x.ctx x.core [la]).precise 8 1 0 5 [lane] (va &&& ~~~127))
          else
            let v := ofBytes (s.ownBytes x.ctx pa ((upTo n).map (fun i => r.2.data.getD ((pa + i) % 128) 0)))
            let holds := match value with | some k => decide (v ≥ k.toNat) | none => v != 0xFFFFFFFF
            .next (if holds then s.send x.ctx x.core (tokens n) ⟨7, g, lane⟩ (fun s =>
                (s.acquireLine x.ctx x.core la p.mtype 4 p.l2Ok p.conf).1.endWait g lane x.core b d words v last)
              else s.unasked g lane)
  | _ => .next s

-- ## Clock steps (R363, R379)

/-- The tracks that hold a group of a grid, as core × 8 + track (R363). -/
def State.tracksOf (s : State) (grid : Nat) : List Nat := ascending ((s.groupsOf grid).map (fun p => p.2.core * 8 + p.2.track))

/-- The ratio that a track grants (R363, R379). -/
def State.granted (s : State) (core track : Nat) : Nat := Nat.min ((s.core core).track track).ask (s.ceilOf core track)

/-- A STEP that is not yet applied completed: its d receives the ratio granted for its track (R363). -/
def State.finishStep (s : State) (p : Pending) : State := s.answer p.group p.dst (s.granted (p.home / 8) (p.home % 8))

/-- STEP (R363): the step of the grid, in place of one that is still pending. -/
def execStep (m : Mods) (d a b : BitVec 7) (s : State) : Host.Outcome State Fault Refusal :=
  .next (s.fabric ⟨.step m d a b, a.toNat, 0, false, fun _ => Val.zero,
      fun f => ctlK f 0 a.toNat :: (match m.imx with | some _ => [] | none => [ctlK f 1 b.toNat]),
      fun _ f => [(1, kOrImm m f b, decide (4 ≤ kOrImm m f b ∧ kOrImm m f b ≤ 16))]⟩ (fun e s =>
    let x := s.here
    let f := x.fibre (firstLane s.cur.lanes)
    let s := match (s.grid x.grid).step with
      | some p => if p.dst.isEmpty then s else s.finishStep p
      | none => s
    let (u, dst) := s.lockDest d.toNat
    let step : Pending := ⟨(f.kReg (a.toNat - 96)).val, kOrImm m f b, u.tracksOf x.grid, x.core * 8 + x.track, s.cur.g, dst⟩
    (u.updGrid x.grid (fun r => { r with step := some step })).complete x e (Dst.k d.toNat).regs))

/-- The steps of a grid that are due applied by one track (R363). -/
def State.applyStep (s : State) (core track grid : Nat) : State :=
  let r := s.grid grid
  match r.step with
  | none => s
  | some p =>
    let here := core * 8 + track
    if !has p.tracks here || decide (p.time.toNat > s.ticks) then s
    else
      let s := if s.groups.vals.any (fun x => x.ctx == r.ctx && x.core == core && x.track == track) then
          s.updCore core (fun c => { c with tracks := c.tracks.upd track Track.reset (fun t => { t with asks := t.asks.put r.ctx p.ratio }) })
        else s
      let rest := drop p.tracks here
      let s := if p.home = here then s.finishStep p else s
      let p := if p.home = here then { p with dst := [] } else p
      s.updGrid grid (fun r => { r with step := if rest.isEmpty then none else some { p with tracks := rest } })

/-- The ceiling of a track after a step that firmware has scheduled, where its time has come; it does not rise while HUNG (R379, R383). -/
def Track.stepCeil (t : Track) (ticks : Nat) (hung : Bool) : Track :=
  match t.ceilAt with
  | some (time, n) => if time ≤ ticks then { t with ceil := if hung then Nat.min t.ceil n else n, ceilAt := none } else t
  | none => t

/-- STEP_APPLY: a track applies the steps whose time has come (R363, R379). -/
def execStepApply (core track : Nat) (s : State) : Host.Outcome State Fault Refusal :=
  let s := s.updCore core (fun c => { c with tracks := c.tracks.adjust track (fun t => t.stepCeil s.ticks s.pkg.hung) })
  .next (s.grids.keys.foldl (fun t g => t.applyStep core track g) s)

-- ## Remote messages, puts and signals (R352, R357, R360)

/-- A reply to a remote message (R352). -/
def State.reply (s : State) (endpoint id status : Nat) : State := { s with sent := s.sent ++ [Sent.reply endpoint id status] }

/-- Whether a message is accepted from an endpoint: the supervisor has bound it to the VF (R352). -/
def State.boundTo (s : State) (vf endpoint : Nat) : Bool := decide (vf ≤ 63) && has (s.vf vf).bound endpoint

/-- A message that is not bound: answered with status 4, dropped, and reported with TYPE 9 (R352). -/
def State.refuseMessage (s : State) (vf endpoint id : Nat) : State :=
  let s := if vf ≤ 63 then s.report vf 9 0 0 else s.reportSupervisor 9 0xFF (severityOf 9) 0 0
  s.reply endpoint id 4

/-- Whether the reserved bytes of a message, which must be 0, are not (R352). -/
def badBytes (reserved : Nat) (body : List Byte) : Bool := reserved != 0 || body.any (fun b => b != 0)

/-- NOTIFY_MESSAGE: the device reads TAIL of the queue (R90, R352); a line of it that a host holds exclusive comes back first (R280). -/
def execNotifyMessage (vf endpoint id : Nat) (queue : Nat × Nat × List Byte) (s : State) : Host.Outcome State Fault Refusal :=
  .next (if !s.pkg.booted then s
    else if !s.boundTo vf endpoint then s.refuseMessage vf endpoint id
    else if badBytes queue.2.1 queue.2.2 then s.reply endpoint id 2
    else if s.queueHeld vf queue.1 then s
    else if queue.1 > 7 ∨ (s.queue vf queue.1).isNone then s.reply endpoint id 3
    else (s.readTail vf queue.1).reply endpoint id 0)

/-- Whether a host holds a line exclusive that an append to a queue accesses (R280). -/
def State.appendHeld (s : State) (vf queue : Nat) : Bool :=
  s.queueHeld vf queue || (match s.queue vf queue with | some d => s.bytesHeld (d.base + 64 * (d.tail % 2 ^ d.size)) 64 | none => false)

/-- LAUNCH_MESSAGE: the record is appended as LNCH appends it (R119, R352). -/
def execLaunchMessage (vf endpoint id : Nat) (queue : Nat × Nat) (rec : List Byte) (s : State) : Host.Outcome State Fault Refusal :=
  .next (if !s.pkg.booted then s
    else if !s.boundTo vf endpoint then s.refuseMessage vf endpoint id
    else if rec.length ≠ 64 ∨ queue.2 ≠ 0 then s.reply endpoint id 2
    else if s.appendHeld vf queue.1 then s
    else
      let r := s.appendRecord vf ((s.vf vf).contexts.getD queue.1 0) rec queue.1
      r.2.reply endpoint id r.1)

/-- REMOTE_MESSAGE_DROPPED: a message that is not bound, or is malformed (R352); a well-formed one is not dropped. -/
def execRemoteMessageDropped (vf endpoint id : Nat) (kind : Nat × Nat × List Byte) (s : State) : Host.Outcome State Fault Refusal :=
  .next (if !s.pkg.booted then s
    else if !s.boundTo vf endpoint then s.refuseMessage vf endpoint id
    else if (kind.1 = 1 ∧ !badBytes kind.2.1 kind.2.2) ∨ (kind.1 = 2 ∧ kind.2.1 = 0) then s
    else s.reply endpoint id 2)

/-- An answer to the sender of a put or a signal: it is performed, or it has met an error here (R402). -/
def State.answerTo (s : State) (endpoint id : Nat) (error : Bool) : State := { s with sent := s.sent ++ [Sent.answer endpoint id error] }

/-- The bytes of a put written segment by segment at `.sys`, a line marked poisoned where one of its bytes is a poison marker (R357, R358). -/
def State.writePut (s : State) (ctx : Nat) : List Seg → List Byte → List Byte → State
  | [], _, _ => s
  | g :: rest, data, marks =>
    ((s.sysWrite g.pa (data.take g.n) ((marks.take g.n).any (fun b => b != 0))).seal ctx g.pa g.n).writePut ctx rest (data.drop g.n) (marks.drop g.n)

/-- REMOTE_PUT_ARRIVAL: the bytes of a put from an endpoint that is bound to the target's VF are written in the target context at `.sys` (R357). A fault is
reported by the device as an error and writes nothing (R402). -/
def execRemotePutArrival (src : Nat × Nat) (dst : Nat × W64) (data : List Byte × List Byte) (s : State) : Host.Outcome State Fault Refusal :=
  if !s.pkg.booted then .next s
  else if (s.ctxs.find? dst.1).isNone || !s.boundTo (s.ctx dst.1).vf src.1 then .next (s.answerTo src.1 src.2 true)
  else match s.spanAll dst.1 0 .write dst.2 data.1.length with
    | .ok l => .next (if s.segsHeld l then s else (s.writePut dst.1 l data.1 data.2).answerTo src.1 src.2 false)
    | .held => .next s
    | .replay a => .next (s.askSupervisor dst.1 a)
    | .trap _ a => .next ((s.forget dst.1 a).answerTo src.1 src.2 true)
    | .poisoned a => .next ((s.reportWalk dst.1 0 a).answerTo src.1 src.2 true)

/-- REMOTE_SIGNAL_ARRIVAL: the signal is performed as an atomic on its word (R250, R360); on a poisoned line it is refused (R251), and a refused one is
answered as an error (R402). -/
def execRemoteSignalArrival (src : Nat × Nat) (dst : Nat × W64) (value : W64) (add : Bool) (s : State) : Host.Outcome State Fault Refusal :=
  if !s.pkg.booted then .next s
  else if (s.ctxs.find? dst.1).isNone || dst.2.toNat % 8 != 0 then .next (s.answerTo src.1 src.2 true)
  else match s.xlate dst.1 0 dst.2 .write with
    | .ok pa p =>
      let r := s.sysRead pa 8
      if p.consults && s.hostHolds (lineOf pa) then .next s
      else if r.2 then .next (s.answerTo src.1 src.2 true)
      else
        let old := BitVec.ofNat 64 (ofBytes (s.ownBytes dst.1 pa r.1))
        .next (((s.sysWrite pa (bytesOf 8 (if add then old + value else value).toNat) false).seal dst.1 pa 8).answerTo src.1 src.2 false)
    | .held => .next s
    | .replay => .next (s.askSupervisor dst.1 dst.2)
    | .trap _ => .next ((s.forget dst.1 dst.2).answerTo src.1 src.2 true)
    | .poisoned => .next ((s.reportWalk dst.1 0 dst.2).answerTo src.1 src.2 true)

-- ## Sparing (R351, R385)

/-- A sparing event reported to the supervisor ring (R385). -/
def State.reportSparing (s : State) (what : Nat) (addr : W64) (place : Nat) : State :=
  s.reportSupervisor (Config.sparingType what) 0xFF (severityOf (Config.sparingType what)) addr (BitVec.ofNat 32 place)

/-- PORT_FAILOVER: the flows of a failed Ultra Ethernet port move to the others (R351, R385). -/
def execPortFailover (port : Nat) (s : State) : Host.Outcome State Fault Refusal :=
  .next (if port > 7 ∨ has s.pkg.uePorts port then s
    else ({ s with pkg := { s.pkg with uePorts := addOnce s.pkg.uePorts port } }).reportSparing 3 0 (port * 2 ^ 8))

end Sys2Proof.Machine
end

