-- ==== Sys2Proof/Machine/Fetch.lean ====
section
/-! DEFINITION. Fetching and decoding the instructions of a group (R44, R45). -/

namespace Sys2Proof.Machine

/-- What a fetch at an instruction address gives. -/
inductive Fetch where
  /-- The words of one instruction, decoded. -/
  | done (d : Decoded) (words : List W32)
  /-- A precise trap: its cause, subcode, INFO and VAL, and the number of words up to the one it met. -/
  | fault (cause sub info : Nat) (val : W64) (words : Nat)
  /-- The translation waits for the supervisor (R208). -/
  | replay (va : W64)
  /-- The line waits for a host chiplet, for a walk, or for tokens of the core's port (R205, R280, R370). -/
  | held
  deriving DecidableEq, Repr

/-- Whether a line of instructions may be read: the instruction cache holds it, or it can be asked for after so many others at the core's port (R370,
log entry 24). -/
def State.fetchOpen (s : State) (x : Group) (ask : Ask) (la : Nat) (missed : List Nat) : Bool :=
  has (s.core x.core).icache la || has missed la || (s.vfUp x.ctx && s.portTurn x.ctx x.core (2 * (missed.length + 1)) ask)

/-- Words read from an instruction address on until they decode, at most three (R44, R45); `missed` are the lines so far that the instruction cache does
not hold. -/
def State.fetchFrom (s : State) (x : Group) (ask : Ask) (pc : W64) : Nat → List W32 → List Nat → Fetch
  | 0, l, _ => .done (decodeWords l) l
  | n + 1, l, missed =>
    match decodeWords l with
    | .short =>
      let va := pc + BitVec.ofNat 64 (4 * l.length)
      let k := l.length + 1
      match s.xlate x.ctx x.core va .fetch with
      | .trap sub => .fault 4 sub 2 va k
      | .poisoned => .fault 8 1 0 va k
      | .replay => .replay va
      | .held => .held
      | .ok pa p =>
        let la := lineOf pa
        let r := s.fabricRead x.ctx x.core pa 4 p
        if (p.consults && s.hostHolds la) || !s.fetchOpen x ask la missed then .held
        else if r.2 || has (s.core x.core).badLines la then .fault 8 6 0 (va &&& ~~~127) k
        else s.fetchFrom x ask pc n (l ++ [BitVec.ofNat 32 (ofBytes r.1)]) (if has (s.core x.core).icache la then missed else addOnce missed la)
    | d => .done d l

/-- The lines of some words at an instruction address that the instruction cache does not hold, and whether their pages are confidential. -/
def State.fetchMissed (s : State) (x : Group) (pc : W64) (n : Nat) : List (Nat × Bool) :=
  ((upTo n).filterMap (fun i => match s.xlate x.ctx x.core (pc + BitVec.ofNat 64 (4 * i)) .fetch with
    | .ok pa p => if has (s.core x.core).icache (lineOf pa) then none else some (lineOf pa, p.conf)
    | _ => none)).foldl (fun l q => if l.any (fun r => r.1 == q.1) then l else l ++ [q]) []

/-- A core's instruction cache with lines brought into it, but for those that a firewall refuses, which are reported (R3, R216, R368). -/
def State.cacheCode (s : State) (x : Group) (l : List (Nat × Bool)) : State :=
  let t := l.foldl (fun t q => t.readLine (dieOf x.core) q.1 0 false q.2) (s.reportReads x.ctx x.core (l.map Prod.fst))
  t.updCore x.core (fun c =>
    { c with icache := ((l.map Prod.fst).filter (fun la => !s.refusedRead (dieOf x.core) la) ++ c.icache).take Config.icacheLines })

/-- The lines of an instruction brought into the instruction cache, at the cost of their tokens (R3, R370). -/
def State.fetched (s : State) (g : Nat) (x : Group) (pc : W64) (n : Nat) : State :=
  let l := s.fetchMissed x pc n
  if l.isEmpty then s else (s.portTake x.ctx x.core (2 * l.length) ⟨8, g, pc.toNat⟩).cacheCode x l

/-- What a fetch that ends in a fault has read and walked: the lines up to the word it met, and a walk that a firewall refuses reported (R44, R368). -/
def State.fetchTried (s : State) (g : Nat) (x : Group) (pc val : W64) (cause sub n : Nat) : State :=
  let t := s.fetched g x pc (if sub = 6 then n else n - 1)
  if cause = 8 ∧ sub = 1 then t.reportWalk x.ctx x.core val else t

/-- The instruction that a group meets at an address (R44): a misaligned address faults before anything is fetched. -/
def State.fetch (s : State) (g : Nat) (x : Group) (pc : W64) : Fetch :=
  if pc.toNat % 4 ≠ 0 then .fault 4 2 2 pc 1 else s.fetchFrom x ⟨8, g, pc.toNat⟩ pc 3 [] []

/-- The line of instructions that a fetch at an address needs next and that the instruction cache does not hold, if it can be asked for, and whether its
page is confidential (R44). -/
def State.fetchGap (s : State) (x : Group) (pc : W64) : Nat → List W32 → Option (Nat × Bool)
  | 0, _ => none
  | n + 1, l =>
    match decodeWords l with
    | .short => (match s.xlate x.ctx x.core (pc + BitVec.ofNat 64 (4 * l.length)) .fetch with
      | .ok pa p =>
        if has (s.core x.core).icache (lineOf pa) then s.fetchGap x pc n (l ++ [BitVec.ofNat 32 (ofBytes (s.fabricRead x.ctx x.core pa 4 p).1)])
        else if p.consults && s.hostHolds (lineOf pa) then none else some (lineOf pa, p.conf)
      | _ => none)
    | _ => none

/-- The lines that the fibres of a group wait for asked for at the core's port, and brought into the instruction cache where their turn has come (R370). One
that a firewall refuses, or that a pooled node has to send, keeps its place until the instruction meets it (R44, R349). -/
def State.fetchAhead (s : State) (g : Nat) : State :=
  let x := s.group g
  if !s.runs x.ctx g then s
  else (ascending ((x.live.filter (fun l => (x.fibre l).wait == .free && !(x.fibre l).cw.ja)).map (fun l => (x.fibre l).pc.toNat))).foldl (fun t p =>
    if p % 4 ≠ 0 then t
    else match t.fetchGap x (BitVec.ofNat 64 p) 3 [] with
      | some q =>
        let d := dieOf x.core
        if t.vfUp x.ctx && (t.refusedRead d q.1 || (isCauseway q.1 && ((t.die d).l2.find? q.1).isNone)) then t.portQueue x.ctx x.core 2 ⟨8, g, p⟩
        else t.send x.ctx x.core 2 ⟨8, g, p⟩ (fun t => t.cacheCode x [q])
      | none => t) s

end Sys2Proof.Machine
end

