-- ==== Sys2Proof/Machine/Nodes.lean ====
section
/-! DEFINITION. The requests to pooled nodes that end without their reply (R349, R350). -/

namespace Sys2Proof.Machine

/-- A request to a pooled node that waits for its reply: since when and whether it is out now, its failed tag checks, whether its page is
confidential, the group, context and lane that its end is charged to, and the addresses. -/
structure Request where
  since : Option Nat
  out : Bool
  fails : Nat
  conf : Bool
  g : Nat
  ctx : Nat
  lane : Nat
  va : W64
  pa : Nat

/-- The port of a request. -/
def Request.port (r : Request) : Nat := (portOf r.pa).getD 0

/-- The lane of a group's fibre with a number. -/
def Group.laneOf (x : Group) (uid : Nat) : Nat := match x.fibres.filter (fun p => p.2.uid == uid) with | p :: _ => p.1 | [] => 0

-- ## What goes to a node

/-- Whether the read of a line goes to a pooled node: it lies in a window, and neither the L2 nor, where it may be read, the L1 holds it (R201). -/
def State.goesOut (s : State) (core la : Nat) (l1 : Bool) : Bool :=
  isCauseway la && ((s.die (dieOf core)).l2.find? la).isNone && !(l1 && ((s.core core).l1.find? la).isSome)

/-- The first table entry of the walk for an address that a node has to send (R205). -/
def State.walkWindow (s : State) (ctx core : Nat) (va : W64) : Option Nat :=
  let d := dieOf core
  if va.toNat ≥ 2 ^ 48 ∨ (findPage (s.core core).tlb ctx va.toNat).isSome ∨ (findPage (s.die d).tlb ctx va.toNat).isSome then none
  else
    let start := (s.die d).walkStart ctx va.toNat (s.ctx ctx).ptroot
    (s.walkLines d va.toNat start.1 start.2).find? (fun la => s.goesOut core la false)

/-- What an access to an address of a context waits for at a node, as a physical address with whether its page is confidential: an entry of its walk,
or its own line. -/
def State.windowOf (s : State) (ctx core : Nat) (va : W64) (write : Bool) : Option (Nat × Bool) :=
  match s.walkWindow ctx core va with
  | some la => some (la, false)
  | none => match s.pageOf ctx core va with
    | .page p =>
      let pa := p.pa + va.toNat % 2 ^ p.bits
      if (if write then isCauseway pa else s.goesOut core (lineOf pa) false) then some (pa, p.conf) else none
    | _ => none

/-- Whether a store waits for a node: it is performed within the package and not yet there, or goes there uncached. -/
def Store.remote (t : Store) : Bool := !t.scratch && isCauseway t.pa && (decide (t.level ≥ 2) || (t.mtype == 2 && t.level == 1))

/-- The line of a lane of a load that comes from a node: that of its bytes or of its scale byte; an acquire at `.sys` reads there always (R253). -/
def State.laneWindow (s : State) (core : Nat) (l : Load) (e : LaneLoad) : Option Nat :=
  if l.scratch || e.state == LaneState.landed then none
  else ((e.spans l.bytes).map Prod.fst).find? (fun a => if l.acquire.any (fun sc => decide (sc ≥ 4)) then isCauseway a else s.goesOut core (lineOf a) e.l1)

/-- The global addresses that the next piece of a copy accesses, and whether it writes there (R332, R341). -/
def State.copyAddrs (s : State) (core : Nat) (c : Copy) : List (W64 × Bool) :=
  let p := s.position core c
  if c.ended || c.waits then []
  else (if c.kind = 2 ∨ c.kind = 3 then [(c.table + BitVec.ofNat 64 (4 * c.row), false)] else [])
    ++ (if c.srcScratch || c.kind == 4 then [] else [(p.1, false)]) ++ (if c.dstScratch then [] else [(p.2.1, true)])

/-- The addresses of the rows of a tile load or store of global memory (R314). -/
def TileOp.rowAddrs (o : TileOp) : List (W64 × Bool) :=
  match o.kind with
  | .ld => (upTo 16).map (fun i => (o.addr + BitVec.ofNat 64 i * o.pitch, false))
  | .sto => (upTo 16).map (fun i => (o.addr + BitVec.ofNat 64 i * o.pitch, true))
  | _ => []

/-- The address that the next piece of a call accesses, and whether it writes there (R358, R402). -/
def State.callAddr (s : State) (c : Call) : Option (W64 × Bool) :=
  match (s.vf c.vf).comms.find? c.comm with
  | none => none
  | some m =>
    if c.reads m.rank ∧ c.got.length < c.size then some ((pieceAt c.src c.size c.got.length).1, false)
    else match c.out with
      | some (b :: rest) =>
        let total := if c.op = 1 then c.size * m.ranks.length else c.size
        some ((pieceAt c.dst total (total - (b :: rest).length)).1, true)
      | _ => none

/-- The request for the first of some addresses that waits for a node. -/
def State.engineRequest (s : State) (core : Nat) (since : Option Nat) (out : Bool) (fails g ctx lane : Nat) (l : List (W64 × Bool)) : Option Request :=
  firstSome (l.map (fun p => (s.windowOf ctx core p.1 p.2).map (fun r => ⟨since, out, fails, r.2, g, ctx, lane, p.1, r.1⟩)))

-- ## What a fibre waits to read

/-- A read that a fibre waits for: its address, the physical address and whether its page is confidential, and the HWERR trap that poison in it gives:
its subcode, field, engine, word count and VAL. -/
structure Reading where
  va : W64
  pa : Nat
  conf : Bool
  sub : Nat
  field : Nat
  eng : Nat
  words : Nat
  val : W64

/-- A read of a fibre of which an entry of the walk, or the line itself where `line` names the subcode of its poison, comes from a node. -/
def State.reading (s : State) (x : Group) (va : W64) (line : Option Nat) (field eng words : Nat) : Option Reading :=
  match s.walkWindow x.ctx x.core va with
  | some la => some ⟨va, la, false, 1, field, eng, words, va⟩
  | none => line.bind (fun sub => (s.windowOf x.ctx x.core va false).map (fun r => ⟨va, r.1, r.2, sub, 0, eng, words, va &&& ~~~127⟩))

/-- The base register code and the offset of what an instruction of the load-store engine accesses (R225, R242, R247, R252, R260). -/
def Instr.lsBase (i : Instr) : Option (Nat × W64) :=
  match i with
  | .ldN8 m _ _ b _ o | .ldS8 m _ _ b _ o => some (b.toNat, offImm m o 1)
  | .ldN16 m _ _ b _ o | .ldS16 m _ _ b _ o => some (b.toNat, offImm m o 2)
  | .ld32 m _ _ b _ o | .ldx m _ _ b _ o => some (b.toNat, offImm m o 4)
  | .ld64 m _ _ b _ o | .ldk m _ _ b _ o => some (b.toNat, offImm m o 8)
  | .ldv m _ _ b _ o => some (b.toNat, offImm m o 16)
  | .st m w _ b _ o | .stg m w _ b _ o => some (b.toNat, offImm m o (storeBytes w.toNat))
  | .stv m _ b _ o => some (b.toNat, offImm m o 16)
  | .ldaq _ _ _ k _ _ | .strl _ _ k _ _ => some (96 + k.toNat, 0)
  | .aadd _ _ _ k _ _ | .amin _ _ _ k _ _ | .amax _ _ _ k _ _ | .aand _ _ _ k _ _ | .aor _ _ _ k _ _ | .axor _ _ _ k _ _ | .axchg _ _ _ k _ _
  | .acas _ _ _ k _ _ | .aminN _ _ _ k _ _ | .amaxN _ _ _ k _ _ | .afadd _ _ _ k _ _ | .afaddPair _ _ _ k _ _ => some (96 + k.toNat, 0)
  | .lock m _ b o | .unlock m _ b o | .cinv m b o | .cwb m b o => some (b.toNat, offImm m o 128)
  | _ => none

/-- What an instruction of a fibre reads at a node as it issues: an entry of the walk of its address, or the record of LNCH, COLL or RPOST (R119, R356,
R362). -/
def State.issueReading (s : State) (x : Group) (lane words : Nat) (i : Instr) : Option Reading :=
  let b := x.fibre lane
  let k := fun (c : BitVec 7) => (b.kReg (c.toNat - 96)).val
  match i with
  | .lnch _ _ a _ => s.reading x (k a) (some 1) 0 0 words
  | .coll _ _ a | .rpost _ _ a _ => s.reading x (k a) (some 1) 0 5 words
  | .cwaitRec _ _ a | .cwaitGe _ _ a _ => s.reading x (k a) none 0 5 words
  | .call .. | .callr .. => if b.stack.length = 4 then s.reading x (spillAddr b.stackBase b.depth) none 0 0 words else none
  | _ => (Instr.lsBase i).bind (fun p => s.reading x (BitVec.ofNat 64 ((s.readCode x lane b p.1 1).bits + p.2.toNat)) none 5 2 words)

/-- The word of an instruction that waits for a node: an entry of its walk, or its line where the instruction cache does not hold it (R44). -/
def State.fetchReading (s : State) (x : Group) (pc : W64) : Nat → List W32 → Option Reading
  | 0, _ => none
  | n + 1, l =>
    match decodeWords l with
    | .short =>
      let va := pc + BitVec.ofNat 64 (4 * l.length)
      match s.walkWindow x.ctx x.core va with
      | some la => some ⟨va, la, false, 1, 0, 0, l.length + 1, va⟩
      | none => match s.xlate x.ctx x.core va .fetch with
        | .ok pa p =>
          if has (s.core x.core).icache (lineOf pa) then s.fetchReading x pc n (l ++ [BitVec.ofNat 32 (ofBytes (s.fabricRead x.ctx x.core pa 4 p).1)])
          else if s.goesOut x.core (lineOf pa) false then some ⟨va, pa, p.conf, 6, 0, 0, l.length + 1, va &&& ~~~127⟩ else none
        | _ => none
    | _ => none

/-- What a fibre of a group waits to read at a node: the word of its CWAIT, the fill of its RET, its instruction, or what that reads as it issues. -/
def State.fibreReading (s : State) (g : Nat) (x : Group) (lane : Nat) : Option Reading :=
  let b := x.fibre lane
  match b.wait with
  | .word va _ _ words _ => s.reading x va (some 1) 0 5 words
  | .fill words _ => (match x.fills [lane] with | p :: _ => s.reading x p.2 (some 5) 0 0 words | [] => none)
  | .free =>
    if b.cw.ja || b.pc.toNat % 4 != 0 then none
    else (s.fetchReading x b.pc 3 []).or (match s.fetch g x b.pc with
      | .done (.ins i n) _ => s.issueReading x lane n i
      | _ => none)
  | _ => none

/-- The note of what a fibre waits for, if it is still this. -/
def Group.askedFor (x : Group) (lane : Nat) (r : Reading) : Option Asked :=
  match x.asked.find? lane with | some a => if a.pc = (x.fibre lane).pc ∧ a.line = lineOf r.pa then some a else .none | .none => .none

-- ## Requests by number

/-- The request of a fibre of a group (R349). -/
def State.fibreRequest (s : State) (g : Nat) (x : Group) (lane : Nat) : Option Request :=
  if (x.fibres.find? lane).isNone then none
  else (s.fibreReading g x lane).map (fun r =>
    ⟨(x.askedFor lane r).map Asked.sent, s.runs x.ctx g, ((x.askedFor lane r).map Asked.fails).getD 0, r.conf, g, x.ctx, lane, r.va, r.pa⟩)

/-- The Causeway request of a core by its number and lane: a load's lane, a store, an atomic's lane, a copy, a tile operation, the piece of a call, or what
a fibre of a group waits to read (R349). -/
def State.request (s : State) (core id lane : Nat) : Option Request :=
  let c := s.core core
  match c.loads.find? id, c.stores.find? id, c.atomics.find? id, c.copies.find? id, c.tileOps.find? id with
  | some l, _, _, _, _ => (l.lanes.find? lane).bind (fun e => (s.laneWindow core l e).map (fun pa =>
      ⟨e.sent, e.state != LaneState.waiting || s.laneSent core l e, e.fails, e.conf, l.g, l.ctx, lane, e.va, pa⟩))
  | none, some t, _, _, _ => if t.remote then some ⟨t.sent, true, t.fails, t.conf, t.g, t.ctx, (s.group t.g).laneOf t.uid, t.va, t.pa⟩ else none
  | none, none, some a, _, _ => (a.lanes.find? lane).bind (fun e =>
      if e.order.isSome && isCauseway e.pa then some ⟨e.sent, true, e.fails, e.conf, a.g, a.ctx, lane, e.va, e.pa⟩ else none)
  | none, none, none, some o, _ => s.engineRequest core o.sent (s.opRuns o.ctx o.g o.seq core 4 false) o.fails o.g o.ctx o.lane (s.copyAddrs core o)
  | none, none, none, none, some o => s.engineRequest core o.sent (s.opRuns o.ctx o.g o.seq core 3 false) o.fails o.g o.ctx o.lowest o.rowAddrs
  | none, none, none, none, none => match s.calls.find? id, s.groups.find? id with
    | some q, _ => if q.core = core then s.engineRequest core q.sent true q.fails q.g q.ctx q.lane (s.callAddr q).toList else none
    | none, some x => if x.core = core then s.fibreRequest id x lane else none
    | none, none => none

/-- When the request was first sent and its failed tag checks, changed. -/
def Core.updRequest (c : Core) (id lane : Nat) (f : Option Nat → Option Nat) (n : Nat) : Core :=
  { c with
    loads := c.loads.adjust id (fun l => { l with lanes := l.lanes.adjust lane (fun e => { e with sent := f e.sent, fails := e.fails + n }) }),
    stores := c.stores.adjust id (fun t => { t with sent := f t.sent, fails := t.fails + n }),
    atomics := c.atomics.adjust id (fun a => { a with lanes := a.lanes.adjust lane (fun e => { e with sent := f e.sent, fails := e.fails + n }) }),
    copies := c.copies.adjust id (fun o => { o with sent := f o.sent, fails := o.fails + n }),
    tileOps := c.tileOps.adjust id (fun o => { o with sent := f o.sent, fails := o.fails + n }) }

/-- The numbers and lanes of a core's operations that may have a Causeway request. -/
def Core.requestKeys (c : Core) : List (Nat × Nat) :=
  c.loads.flatMap (fun p => p.2.lanes.keys.map (fun n => (p.1, n))) ++ c.stores.keys.map (fun i => (i, 0))
    ++ c.atomics.flatMap (fun p => p.2.lanes.keys.map (fun n => (p.1, n))) ++ (c.copies.keys ++ c.tileOps.keys).map (fun i => (i, 0))

/-- The notes of what a group's fibres wait to read at nodes, brought up to date (R349). -/
def State.noteAsked (s : State) (g : Nat) (x : Group) : Map Asked :=
  x.live.filterMap (fun l => (s.fibreReading g x l).map (fun r => (l, (x.askedFor l r).getD ⟨(x.fibre l).pc, lineOf r.pa, s.ticks, 0⟩)))

/-- See `Core.updRequest`; of a call or a fibre too. The failed check of a fibre's read is counted in the note of it. -/
def State.updRequest (s : State) (core id lane : Nat) (f : Option Nat → Option Nat) (n : Nat) : State :=
  ((s.updCore core (fun c => c.updRequest id lane f n)).updCall id (fun q => { q with sent := f q.sent, fails := q.fails + n })).updGroup id (fun x =>
    { x with asked := if n = 0 then x.asked else (s.noteAsked id x).adjust lane (fun a => { a with fails := a.fails + n }) })

/-- The requests that have gone out to a node noted with the present tick (R349, log entry 95). -/
def State.noteSent (s : State) : State :=
  let first := fun (t : State) (core id lane : Nat) => match s.request core id lane with
    | some r => if r.since.isNone && r.out then t.updRequest core id lane (fun _ => some s.ticks) 0 else t
    | none => t
  let t := s.cores.foldl (fun t p => p.2.requestKeys.foldl (fun t k => first t p.1 k.1 k.2) t) s
  let t := s.calls.foldl (fun t p => first t p.2.core p.1 0) t
  { t with groups := t.groups.mapVals (fun g x => if s.runs x.ctx g then { x with asked := s.noteAsked g x } else x) }

-- ## How a request ends

/-- The read of a fibre ended without its reply: the fibres that wait for it as this one does meet a poisoned line, and the deferred FABRIC trap follows
(R349, log entry 114). -/
def State.failReading (s : State) (g : Nat) (x : Group) (lane sub port : Nat) (r : Reading) : State :=
  let b := x.fibre lane
  let lanes := x.live.filter (fun l => (x.fibre l).pc == b.pc && (x.fibre l).wait == b.wait && !(x.fibre l).cw.ja)
  let s := s.updGroup g (fun x => { x with asked := x.asked.keep (fun l _ => !has lanes l) })
  let s := ({ s with cur := ⟨g, lanes, b.pc, r.words, s.cur.base, none, none⟩ } : State).wait lanes .free
  (s.precise 8 r.sub r.field r.eng lanes r.val).deferred x.ctx g 7 sub port 2 lane r.va

/-- The piece of a call ended without its reply, and the call goes on: what was to be read are zeros with poison, and whether what was to be written has
been is open (R349, log entry 114). -/
def State.failPiece (s : State) (id : Nat) (q : Call) : State :=
  match s.callAddr q with
  | some (_, false) =>
    let n := (pieceAt q.src q.size q.got.length).2
    s.updCall id (fun q => { q with got := q.got ++ List.replicate n (0, true), sent := none, fails := 0 })
  | some (va, true) =>
    let out := q.out.getD []
    let n := Nat.min (128 - va.toNat % 128) out.length
    let s := { s with free := s.free + 1 }
    let s := if !Config.performed (s.free - 1) then s
      else match s.span q.ctx q.core .write false va n false with
        | .ok l => (s.engineWrite q.ctx q.core 0 l (out.take n)).publish q.core (segLines l)
        | _ => s
    let s := s.updCall id (fun q => { q with out := some (out.drop n), sent := none, fails := 0 })
    if (out.drop n).isEmpty then s.finishCall id q else s
  | none => s

/-- A Causeway request ended without its reply, its packet counted where no write-back counts it, with a deferred FABRIC trap (R349, R350): a load's lane receives 0 with P = 1; whether a store or atomic was
performed is open, and an atomic's d receives 0 with P = 1; a copy ends before the piece, and a tile operation without its effect. -/
def State.failRequest (s : State) (core id lane sub : Nat) (r : Request) : State :=
  let cached := match (s.core core).stores.find? id with | some t => t.mtype != 2 && Config.performed s.free | none => false
  let s := if cached then s else s.countPacket r.pa r.conf
  let c := s.core core
  let trap := fun (t : State) => t.deferred r.ctx r.g 7 sub r.port 2 r.lane r.va
  match c.loads.find? id, c.stores.find? id, c.atomics.find? id, c.copies.find? id, c.tileOps.find? id with
  | some _, _, _, _, _ => trap (s.deliver core id lane 0 true)
  | none, some t, _, _, _ =>
    let s := { s with free := s.free + 1 }
    let s := if !Config.performed (s.free - 1) then s
      else if t.mtype = 2 then (s.homeWrite t.pa t.data t.poison false).seal t.ctx t.pa t.data.length
      else (linesOf t.pa t.data.length).foldl (fun u la => u.cleanAll la) s
    trap (s.endStore core id t)
  | none, none, some a, _, _ => (match a.lanes.find? lane with
      | some e =>
        let s := { s with free := s.free + 1 }
        let s := if Config.performed (s.free - 1) then s.performLane core id lane a { e with reg := none, conf := false }
          else (s.updAtomic core id (fun a => { a with lanes := a.lanes.del lane })).endAtomic core id
        trap ((s.landReg a.g lane e.uid e.reg (e.form a.bytes) ⟨0, false, true⟩).settleGm a.g)
      | none => s)
  | none, none, none, some o, _ => s.endCopy core id o 7 sub r.port r.va
  | none, none, none, none, some o => s.failTile core id o 7 sub r.port r.va
  | none, none, none, none, none => match s.calls.find? id, s.groups.find? id with
    | some q, _ => (s.failPiece id q).deferred r.ctx r.g 7 sub r.port 5 r.lane r.va
    | none, some x => (match s.fibreReading id x lane with | some q => s.failReading id x lane sub r.port q | none => s)
    | none, none => s

/-- CAUSEWAY_ABANDON: no reply for 2,000,000 ticks since it was first sent (R349, R373). -/
def execCausewayAbandon (core : Nat) (request : Nat × Nat) (s : State) : Host.Outcome State Fault Refusal :=
  match s.request core request.1 request.2 with
  | none => .next s
  | some r => match r.since with
    | none => .next s
    | some t =>
      if s.ticks < t + Config.abandonTicks then .next s
      else .next ((s.failRequest core request.1 request.2 0 r).report (s.ctx r.ctx).vf 10 (BitVec.ofNat 64 (lineOf r.pa)) (eventPlace core r.ctx))

/-- NODE_ERROR_REPLY: the node refuses the request (R349). -/
def execNodeErrorReply (core : Nat) (request : Nat × Nat) (s : State) : Host.Outcome State Fault Refusal :=
  match s.request core request.1 request.2 with
  | none => .next s
  | some r => .next (if r.out then s.failRequest core request.1 request.2 1 r else s)

/-- TAG_CHECK_FAILURE: a packet of a confidential page is sent again, and a third failure ends the request (R350). -/
def execTagCheckFailure (core : Nat) (request : Nat × Nat) (s : State) : Host.Outcome State Fault Refusal :=
  match s.request core request.1 request.2 with
  | none => .next s
  | some r =>
    .next (if !r.conf || !r.out then s
      else if r.fails ≥ 2 then s.failRequest core request.1 request.2 1 r
      else (s.updRequest core request.1 request.2 id 1).countPacket r.pa true)

end Sys2Proof.Machine
end

