-- ==== Sys2Proof/Machine/Supervisor.lean ====
section
/-! DEFINITION. The events of the supervisor, of power and thermal control, of errors and sparing, and of reset (R365 to R387). -/

namespace Sys2Proof.Machine

-- ## Virtual functions (R365, R366, R372, R375)

/-- VF_BRINGUP: the supervisor brings up a VF on a partition, with a fresh owner key; each of its eight queues is given by its descriptor's
address and the context its records run in (R90, R365, R366, R372). The number must be out of quarantine, its partition agree with those in use, and
bring-up have passed its checks (R386). -/
def execVfBringup (vf : Nat) (part : List Nat) (queues : List (List W64)) (s : State) : Host.Outcome State Fault Refusal :=
  let dies := ascending part
  let fits := s.vfs.vals.all (fun v => !v.alive || ascending v.dies == dies || !dies.any (fun d => has v.dies d))
  if vf > 63 ∨ (s.vf vf).alive ∨ (s.vf vf).dead.isSome ∨ dies.isEmpty ∨ dies.any (fun d => decide (d ≥ Config.dies)) ∨ !fits
      ∨ s.ctxs.vals.any (fun c => c.vf == vf) ∨ queues.length ≠ 8 ∨ !s.pkg.booted then .next s
  else
    let v : Vf := { Vf.none with
      alive := true, dies := dies, queues := queues.map (fun q => (q.headD 0).toNat), contexts := queues.map (fun q => (q.getD 1 0).toNat),
      generation := s.ids + 1, key := Config.ownerKey s.ids, portKey := Config.portKey s.ids }
    .next { s with vfs := s.vfs.put vf v, ids := s.ids + 1 }

/-- What a context of a VF that is torn down loses: everything in flight, of which each request is reported, its tickets, its pins and its open calls
(R375). -/
def State.revokeContext (s : State) (ctx : Nat) : State :=
  let s := s.cores.foldl (fun t p => t.reportDead ctx p.1 (p.2.tagged ctx)) s
  { s with
    cores := s.cores.mapVals (fun _ c => c.forget ctx (s.owns ctx)),
    dies := s.dies.mapVals (fun _ d => d.unpin ctx),
    grids := s.grids.mapVals (fun _ r => if r.ctx = ctx then { r with teams := r.teams.mapVals (fun _ t => { t with channels := [] }) } else r),
    calls := s.calls.keep (fun _ q => q.ctx != ctx), signals := s.signals.keep (fun _ q => q.ctx != ctx), posts := s.posts.keep (fun _ q => q.ctx != ctx),
    ctxs := s.ctxs.adjust ctx (fun c => { c with lockUsed := 0 }) }

/-- The halt line of a context raised as its VF is torn down; a halt on its way for a handler ends at the supervisor instead (R375). -/
def State.haltDead (s : State) (ctx : Nat) : State :=
  if s.canHalt ctx then s.raiseHalt ctx 2 0 Trap.none [] false 0
  else s.updHalt ctx (fun h => if h.phase = .stopping ∧ h.reason = 0 then { h with reason := 2 } else h)

/-- VF_TEARDOWN: the keys are revoked, the halt lines of the VF's contexts are raised, and what they have in flight is dropped (R375). -/
def execVfTeardown (vf : Nat) (s : State) : Host.Outcome State Fault Refusal :=
  if !(s.vf vf).alive then .next s
  else
    let ctxs := (s.ctxs.keep (fun _ c => c.vf == vf)).keys
    let s := { s with vfs := s.vfs.adjust vf (fun v =>
      { v with alive := false, dead := some s.ticks, reclaimed := false, key := 0, portKey := 0, bound := [], comms := [], children := [], tails := [] }) }
    .next (ctxs.foldl (fun (t : State) c => (t.haltDead c).revokeContext c) s).reapSlots

/-- ALLOWANCE_RECLAIM: 100 µs after the teardown (R375). -/
def execAllowanceReclaim (vf : Nat) (s : State) : Host.Outcome State Fault Refusal :=
  match (s.vf vf).dead with
  | some t => .next (if s.ticks ≥ t + 100000 then { s with vfs := s.vfs.adjust vf (fun v => { v with reclaimed := true }) } else s)
  | none => .next s

/-- QUARANTINE_END: 10 ms after the teardown the number may be used again (R375). -/
def execQuarantineEnd (vf : Nat) (s : State) : Host.Outcome State Fault Refusal :=
  match (s.vf vf).dead with
  | some t => .next (if s.ticks ≥ t + 10000000 then { s with vfs := s.vfs.del vf } else s)
  | none => .next s

/-- DEAD_OWNER_PACKET: a packet that bears a dead owner tag is dropped and reported with TYPE 7; a reply, marked by bit 63 of its address, is
dropped and counted with TYPE 8 once its reservation is freed (R375). -/
def execDeadOwnerPacket (vf : Nat) (info : W64) (s : State) : Host.Outcome State Fault Refusal :=
  let v := s.vf vf
  let addr := BitVec.ofNat 64 (lineOf (info.toNat % 2 ^ 48))
  .next (if v.dead.isNone then s
    else if info.getLsbD 63 then (if v.reclaimed then s.reportSupervisor 8 vf (severityOf 8) addr 0 else s)
    else s.reportSupervisor 7 vf (severityOf 7) addr 0)

/-- DFW_WRITE: the bits of the die's own number stay 1 (R367). -/
def execDfwWrite (die : Nat) (value : W32) (s : State) : Host.Outcome State Fault Refusal :=
  .next (if die ≥ Config.dies then s
    else s.updDie die (fun d => { d with allow := value.extractLsb' 0 4 ||| (1#4 <<< die), snoop := value.extractLsb' 4 4 ||| (1#4 <<< die) }))

/-- VUES_CLEAR: a write of 1 to a status bit clears it (R374). -/
def execVuesClear (vf : Nat) (value : W32) (s : State) : Host.Outcome State Fault Refusal :=
  .next { s with vfs := s.vfs.adjust vf (fun v => { v with vues := v.vues &&& ~~~value }) }

/-- VOVF_CLEAR: a write of any value clears it (R374). -/
def execVovfClear (vf : Nat) (_value : W32) (s : State) : Host.Outcome State Fault Refusal :=
  .next { s with vfs := s.vfs.adjust vf (fun v => { v with vovf := 0 }) }

/-- A VF changed where it is up. -/
def State.updVf (s : State) (vf : Nat) (f : Vf → Vf) : State := { s with vfs := s.vfs.adjust vf (fun v => if v.alive then f v else v) }

/-- The size of an error ring as it is written (R373). -/
def ringBits (v : Nat) : Nat := Nat.max 6 (Nat.min v 16)

/-- A ring of which its reader has taken so many more entries. -/
def Ring.take (r : Ring) (n : Nat) : Ring := { r with taken := Nat.min r.written (r.taken + n) }

/-- The registers that REGISTER_WRITE names (log entry 15): 0 RAMP; of VF `index`, 1 its issue weight, 2 its share weight, 3 VMASK, 9 the size
of its error ring, 11 an endpoint bound, 12 one unbound; 4 the SRAM set point of a die; of a context, 5 LOCKQ.LIMIT, 6 STOPA, 7 TVEC,
8 PTROOT; 10 the size of the supervisor ring; of VF × 2^32 + COMM, 13 a communicator set up with its own rank, 14 a rank added as
endpoint × 64 + VF, 17 a communicator removed; 15 entries taken from the ring of a VF, or of the supervisor under 64; 16 the context of
queue `index` mod 8 of VF `index` / 8; 18 a step of CEIL scheduled for track `index` mod 2^32, as core × 8 + track, to `index` / 2^32 sixteenths, at
the time written (R379). -/
def execRegisterWrite (reg index : Nat) (value : W64) (s : State) : Host.Outcome State Fault Refusal :=
  let n := value.toNat
  let ctx := fun (f : Ctx → Ctx) => { s with ctxs := s.ctxs.adjust index f }
  let vf := index / 2 ^ 32
  let comm := index % 2 ^ 32
  .next (match reg with
    | 0 => { s with pkg := { s.pkg with ramp := value.setWidth 9 } }
    | 1 => s.updVf index (fun v => { v with weight := Nat.max 1 (n % 256) })
    | 2 => s.updVf index (fun v => { v with share := Nat.max 1 (n % 256) })
    | 3 => s.updVf index (fun v => { v with vmask := value.setWidth 32 &&& 0x67E })
    | 4 => if index < Config.dies ∧ 1 ≤ n ∧ n ≤ 255 then s.updDie index (fun d => { d with setPoint := n }) else s
    | 5 => ctx (fun c => { c with lockLimit := n % 2 ^ 16 })
    | 6 => ctx (fun c => { c with stopBase := value &&& ~~~0xFFF, stopSize := stopSizeOf value })
    | 7 => ctx (fun c => { c with entry := (value >>> 2).setWidth 62, d := value.getLsbD 0 })
    | 8 => ctx (fun c => { c with ptroot := bitsAt n 47 12 * 4096 })
    | 9 => s.updVf index (fun v => { v with ring := Ring.empty (ringBits n) })
    | 10 => { s with pkg := { s.pkg with ring := Ring.empty (ringBits n) } }
    | 11 => s.updVf index (fun v => { v with bound := addOnce v.bound n })
    | 12 => s.updVf index (fun v => { v with bound := drop v.bound n })
    | 13 => s.updVf vf (fun v => if v.comms.length ≥ 256 ∧ (v.comms.find? comm).isNone then v else { v with comms := v.comms.put comm ⟨n, []⟩ })
    | 14 => s.updVf vf (fun v => { v with comms := v.comms.adjust comm (fun c =>
        if c.ranks.length ≥ 4096 then c else { c with ranks := c.ranks ++ [(n / 64, n % 64)] }) })
    | 15 => if index = 64 then { s with pkg := { s.pkg with ring := s.pkg.ring.take n } }
        else s.updVf index (fun v => { v with ring := v.ring.take n })
    | 16 => s.updVf (index / 8) (fun v => { v with contexts := v.contexts.set (index % 8) n })
    | 17 => s.updVf vf (fun v => { v with comms := v.comms.del comm })
    | 18 => if comm / 8 < Config.dies * Config.coresPerDie then s.updCore (comm / 8) (fun c =>
        { c with tracks := c.tracks.upd (comm % 8) Track.reset (fun t => { t with ceilAt := some (n, Nat.max 4 (Nat.min vf 16)) }) }) else s
    | _ => s)

-- ## Token buckets (R370, R371)

/-- Whether a VF has a request that waits at a core's port, or has sent one in the interval (R370, R371). -/
def State.activeAt (s : State) (core vf : Nat) (b : Bucket) : Bool := decide (vf < 64) && (b.sent || s.waitsAt core vf)

/-- The buckets of a core after a refill (R371), from the VFs that are active and their share weights. -/
def refill (buckets : Map Bucket) (active : List Nat) (share : Nat → Nat) : Map Bucket :=
  match active with
  | [] => buckets.mapVals (fun _ b => { b with sent := false })
  | first :: _ =>
    let idle := buckets.keep (fun v _ => !has active v)
    let pool := 1024 + (idle.vals.map Bucket.balance).sum
    let total := (active.map share).sum
    let part := fun (v : Nat) => pool * share v / total
    let rest := pool - (active.map part).sum
    (buckets.mapVals (fun v b =>
      { b with balance := if has active v then Nat.min 2048 (b.balance + part v + (if v = first then rest else 0)) else 0, sent := false })).del 64

/-- Whether a VF keeps its bucket at a core: it has a group there, or a request that waits (R370). -/
def State.keepsBucket (s : State) (core vf : Nat) : Bool :=
  vf == 64 || s.waitsAt core vf || s.groups.vals.any (fun x => x.core == core && (s.ctx x.ctx).vf == vf)

/-- A core's port refilled at a boundary (R371). The bucket of a VF that has left and waits for nothing is removed, and its balance goes to the pool of the
next refill (R370). -/
def State.refillPort (s : State) (core boundary : Nat) : State :=
  let c := s.core core
  let b := refill c.buckets (c.buckets.keep (s.activeAt core)).keys (fun v => Nat.max 1 (s.vf v).share)
  let kept := b.keep (fun v _ => s.keepsBucket core v)
  let rest := ((b.keep (fun v _ => !s.keepsBucket core v)).vals.map Bucket.balance).sum
  s.updCore core (fun c => { c with
    buckets := if rest = 0 then kept else kept.upd 64 ⟨0, false⟩ (fun p => ⟨p.balance + rest, false⟩), carried := 0, refilled := boundary })

/-- A core's port refilled at a boundary at which it has not been yet (R371). -/
def State.refillAt (s : State) (boundary core : Nat) : State := if (s.core core).refilled < boundary then s.refillPort core boundary else s

/-- BUCKET_REFILL: the refill of a core's port on the clock of a boundary (R371). -/
def execBucketRefill (core : Nat) (s : State) : Host.Outcome State Fault Refusal :=
  .next (if s.clocks % 1024 = 0 then s.refillAt s.clocks core else s)

/-- The refills of the boundaries that lie in the next so many clocks, from this one on, which no event has made (R371). -/
def State.refillDue (s : State) (n : Nat) : State :=
  let first := (s.clocks + 1023) / 1024
  (upTo ((s.clocks + n + 1023) / 1024 - first)).foldl (fun t i => t.cores.keys.foldl (fun u c => u.refillAt ((first + i) * 1024) c) t) s

-- ## Power (R376 to R383)

/-- EFF while the heartbeat is missed: it falls linearly above 10 ms to its floor (R383). -/
def Package.decayed (p : Package) (ticks : Nat) : Nat :=
  let floor := Nat.min p.hangEff (Nat.max 600 (p.hangEff * 40 / 100))
  p.hangEff - (p.hangEff - floor) * Nat.min (ticks - (p.phb + 2000000)) 10000000 / 10000000

/-- The package with EFF brought to where it has to be: the decay while HUNG, else SET (R376, R383). -/
def Package.settleEff (p : Package) (ticks : Nat) : Package := { p with eff := if p.hung then p.decayed ticks else p.set }

/-- The package changed. -/
def State.updPkg (s : State) (f : Package → Package) : State := { s with pkg := f s.pkg }

/-- PALLOW_SET_WRITE: a raise takes effect at once, unless HUNG (R376, R383). -/
def execPallowSetWrite (watts : Nat) (s : State) : Host.Outcome State Fault Refusal :=
  let w := Nat.max 600 (Nat.min watts 3200)
  .next (s.updPkg (fun p => { p with set := w, eff := if !p.hung && decide (w > p.eff) then w else p.eff }))

/-- PALLOW_TRIP_CLEAR: a write with bit 30 set clears TRIP (R376). -/
def execPallowTripClear (mask : Nat) (s : State) : Host.Outcome State Fault Refusal :=
  .next (s.updPkg (fun p => if bitAt mask 30 then { p with trip := false } else p))

/-- ALLOWANCE_CUT: EFF comes down to SET; while HUNG it follows the decay (R376, R383). -/
def execAllowanceCut (s : State) : Host.Outcome State Fault Refusal := .next (s.updPkg (fun p => p.settleEff s.ticks))

/-- HEARTBEAT_WRITE: HUNG is cleared, and EFF returns from where it has decayed to SET, at once if SET is higher (R383). -/
def execHeartbeatWrite (s : State) : Host.Outcome State Fault Refusal :=
  .next (s.updPkg (fun p => { p with hung := false, phb := s.ticks, eff := if p.hung then Nat.max (p.decayed s.ticks) p.set else p.eff }))

/-- HEARTBEAT_MISS: no write for 2 ms sets HUNG (R383). -/
def execHeartbeatMiss (s : State) : Host.Outcome State Fault Refusal :=
  .next (s.updPkg (fun p => if p.hung || decide (s.ticks < p.phb + 2000000) then p else { p with hung := true, hangEff := p.eff }))

/-- The cores of the package, by number. -/
def allCores : List Nat := upTo (Config.dies * Config.coresPerDie)
/-- The tracks of every core. -/
def State.allTracks (s : State) : List Track := allCores.flatMap (fun c => (upTo Config.tracksPerCore).map (fun t => (s.core c).track t))
/-- Every track of some cores changed. -/
def State.mapTracks (s : State) (cores : List Nat) (f : Track → Track) : State :=
  cores.foldl (fun t c => t.updCore c (fun k => { k with tracks := (upTo Config.tracksPerCore).foldl (fun m n => m.upd n Track.reset f) k.tracks })) s

/-- Power above EFF by more than 10%, noted from when (R377). -/
def Package.noteOver (p : Package) (mw ticks : Nat) : Package :=
  { p with overSince := if mw * 10 > p.eff * 11000 then some (p.overSince.getD ticks) else none }

/-- POWER_CONTROL_STEP: grant rationing, then the ratio ceiling (R377); CEIL does not rise while HUNG (R383). -/
def execPowerControlStep (milliwatts : Nat) (s : State) : Host.Outcome State Fault Refusal :=
  let s := s.updPkg (fun p => (if p.hung then p.settleEff s.ticks else p).noteOver milliwatts s.ticks)
  let eff := s.pkg.eff
  let above := decide (milliwatts > eff * 1000)
  let low := decide (milliwatts ≤ eff * 950)
  let tracks := s.allTracks
  let down := above && tracks.all (fun t => t.gr == 2)
  let up := low && !s.pkg.hung && tracks.all (fun t => t.gr == 12)
  .next (if !above && !low then s
    else s.mapTracks allCores (fun t => { t with
      gr := if above then Nat.max 2 (t.gr - 1) else Nat.min 12 (t.gr + 1),
      ceil := if down then Nat.max 4 (t.ceil - 1) else if up then Nat.min 16 (t.ceil + 1) else t.ceil }))

/-- CURRENT_LIMITER: power above EFF, as it has decayed while HUNG, by more than 10% for 20 µs sets GR to 2 on every track (R377, R383). -/
def execCurrentLimiter (milliwatts : Nat) (s : State) : Host.Outcome State Fault Refusal :=
  let s := s.updPkg (fun p => (if p.hung then p.settleEff s.ticks else p).noteOver milliwatts s.ticks)
  .next (match s.pkg.overSince with
    | some t => if s.ticks ≥ t + 20000 then s.mapTracks allCores (fun t => { t with gr := 2 }) else s
    | none => s)

/-- RATIO_CHANGE: the ratio in force becomes the smaller of ASK and CEIL, at a 16-clock boundary (R379). -/
def execRatioChange (core track : Nat) (s : State) : Host.Outcome State Fault Refusal :=
  .next (if s.clocks % 16 = 0 ∧ track < Config.tracksPerCore then
    let n := s.granted core track
    s.updCore core (fun c => { c with tracks := c.tracks.upd track Track.reset (fun t => { t with cur := n }) }) else s)

/-- A grid charged so many microjoules (R380). -/
def Grid.charged (r : Grid) (n : Nat) : Grid := { r with charge := r.charge + n, energy := Nat.max r.energy (r.exact + r.charge + n) }

/-- Whether a grid takes charges: it has a group on a track, or a request at a port (R380). -/
def State.takesCharge (s : State) (grid : Nat) : Bool :=
  (s.grids.find? grid).isSome && (s.groups.vals.any (fun x => x.grid == grid) || !s.gridSettled grid)

/-- ENERGY_CHARGE: once for each 1,024 clocks, each grid or the idle account is charged so many microjoules (R380). -/
def execEnergyCharge (charges : List (Nat × Nat)) (s : State) : Host.Outcome State Fault Refusal :=
  let boundary := s.clocks / 1024 * 1024
  .next (if boundary ≤ s.pkg.charged then s
    else charges.foldl (fun (t : State) p =>
      if s.takesCharge p.1 then t.updGrid p.1 (fun r => r.charged p.2) else t.updPkg (fun k => { k with idle := k.idle + p.2 }))
      (s.updPkg (fun k => { k with charged := boundary })))

/-- The charges of a grid in the interval scaled by what was measured over what was charged in total (R380). -/
def Grid.share (r : Grid) (measured total : Nat) : Nat := if total = 0 then 0 else r.charge * measured / total

/-- A grid whose charges of the interval are scaled (R380). -/
def Grid.scaled (r : Grid) (measured total : Nat) : Grid :=
  let n := r.exact + r.share measured total
  { r with exact := n, charge := 0, energy := Nat.max r.energy n }

/-- ENERGY_SCALING: once for each 1 ms, the charges of the interval are scaled so that with what the idle account takes they make up the measured energy; no
counter falls. What the shares leave over by rounding goes to the idle account (R380). -/
def execEnergyScaling (microjoules : Nat) (s : State) : Host.Outcome State Fault Refusal :=
  let total := s.pkg.idle + (s.grids.vals.map Grid.charge).sum
  let boundary := s.ticks / 1000000 * 1000000
  .next (if boundary ≤ s.pkg.scaled then s
    else
      let shares := (s.grids.vals.map (fun r => r.share microjoules total)).sum
      let t := s.updPkg (fun p => { p with idle := 0, account := p.account + (microjoules - shares), scaled := boundary })
      { t with grids := s.grids.mapVals (fun _ r => r.scaled microjoules total) })

-- ## SRAM rails and temperature (R381, R382)

/-- The cores of a die with their corrected errors of an interval of 100 ms: since when each one's rate stays above 64 times the set point (R384). -/
def State.noteNoise (s : State) (die : Nat) (cores : List (Nat × Nat)) : State :=
  { s with cores := s.cores.mapVals (fun n c => if dieOf n = die ∧ !cores.any (fun p => p.1 == n && decide (p.2 > 64 * (s.die die).setPoint)) then { c with noisy := none } else c) }
  |> fun t => (cores.filter (fun p => decide (dieOf p.1 = die ∧ p.2 > 64 * (s.die die).setPoint))).foldl (fun t p =>
    t.updCore p.1 (fun c => { c with noisy := some (c.noisy.getD (s.ticks - 100000000)) })) t

/-- SRAM_RAIL_STEP: the rail follows the corrected errors of the interval, but while it is held (R381); `cores` gives those of single cores (R384). -/
def execSramRailStep (die : Nat) (corrected : Nat × List (Nat × Nat)) (s : State) : Host.Outcome State Fault Refusal :=
  .next (if die ≥ Config.dies then s else (s.noteNoise die corrected.2).updDie die (fun d =>
    let d := { d with corrected := corrected.1 }
    if d.railHold.isSome then d
    else if corrected.1 < d.setPoint then { d with railDrop := if d.railDrop + 5 > 200 then 200 else d.railDrop + 5 }
    else if corrected.1 > 2 * d.setPoint then { d with railDrop := d.railDrop - 10 }
    else d))

/-- RAIL_HOLD_END: one second after the error (R381). -/
def execRailHoldEnd (die : Nat) (s : State) : Host.Outcome State Fault Refusal :=
  .next (s.updDie die (fun d => match d.railHold with
    | some t => if s.ticks ≥ t + 1000000000 then { d with railHold := none } else d
    | none => d))

/-- What an uncorrectable error does in the array that it strikes: 0 the data of a tile slot, 1 the handle map of a group, 2 a scratch word at
context × 2^32 + offset, 3 an instruction-cache line, 4 a line of the L1, 5 a line of the L2 (R44, R228, R245, R329); any other is not contained in one slot or line, and the core fails (R384). -/
def State.strikeArray (s : State) (die core array : Nat) (va : W64) : State :=
  let n := va.toNat
  let la := lineOf n
  match array with
  | 0 => s.updSlot n (fun v => { v with poison := true })
  | 1 => match s.groups.find? n with
    | some x => s.deferred x.ctx n 8 4 0 3 0 0
    | none => s
  | 2 => s.updCore core (fun c => { c with flagged := c.flagged.upd (n / 2 ^ 32) [] (fun l => addOnce l (n % 2 ^ 32 / 4 * 4)) })
  | 3 => s.updCore core (fun c => { c with badLines := addOnce c.badLines la })
  | 4 => s.updCore core (fun c => { c with l1 := c.l1.adjust la (fun l => { l with poison := true }) })
  | 5 => if ((s.die die).l2.find? la).isSome then
      ({ s.updDie die (fun d => { d with l2 := d.l2.adjust la (fun l =>
          { l with poison := true, data := (upTo 128).map (fun i => Config.openByte (2 * (s.free + i) + 1)) }) }) with free := s.free + 128 }).reportLine 2 la
    else s
  | _ => s.updCore core (fun c => { c with failed := true })

/-- UNCORRECTABLE_SRAM_ERROR: the rail returns to nominal and is held there, and the error is contained where it struck (R381). -/
def execUncorrectableSramError (die core array : Nat) (va : W64) (s : State) : Host.Outcome State Fault Refusal :=
  .next ((s.updDie die (fun d => { d with railDrop := 0, railHold := some s.ticks })).strikeArray die core array va)

/-- The thresholds of the steps of R382. -/
def heatSteps : List Nat := [85, 95, 105]
/-- The step that a temperature calls for. -/
def heatLevel (degrees : Nat) : Nat := (heatSteps.filter (fun t => decide (t ≤ degrees))).length
/-- The step that a stack is in. -/
def Stack.level (k : Stack) : Nat := if k.cap = 25 then 3 else if k.refresh = 4 then 2 else if k.refresh = 2 then 1 else 0
/-- A stack put into a step. -/
def Stack.atLevel (k : Stack) (n : Nat) : Stack :=
  { k with refresh := (match n with | 0 => 1 | 1 => 2 | _ => 4), cap := (match n with | 3 => 25 | 2 => 50 | _ => 100) }
/-- The step that a stack falls back to, from one above what its temperature calls for: each step is left once the code has stayed 3 °C below its
threshold for 10 ms. -/
def Stack.fallTo (k : Stack) (ticks want : Nat) : Nat → Nat
  | 0 => 0
  | n + 1 =>
    if n + 1 ≤ want then n + 1
    else match k.cool.find? (heatSteps.getD n 0) with
      | some t => if ticks ≥ t + 10000000 then k.fallTo ticks want n else n + 1
      | none => n + 1

/-- HBM_TEMPERATURE_SAMPLE: refresh rate and cap of a stack (R382). -/
def execHbmTemperatureSample (die stack degrees : Nat) (s : State) : Host.Outcome State Fault Refusal :=
  if die ≥ Config.dies ∨ stack ≥ Config.stacksPerDie then .next s else
  let want := heatLevel degrees
  let next := fun (k : Stack) =>
    let k := { k with cool := heatSteps.foldl (fun m t => if degrees + 3 ≤ t then m.put t (m.get t s.ticks) else m.del t) k.cool }
    if want ≥ k.level then k.atLevel want else k.atLevel (k.fallTo s.ticks want k.level)
  let t := s.updDie die (fun d => { d with memStacks := d.memStacks.upd stack Stack.reset next })
  .next (if want = 3 then t.updPkg (fun p => { p with trip := true }) else t)

/-- DIE_THERMAL_TRIP: a compute die at 110 °C sets TRIP, and CEIL is 4/16 on its tracks (R382). -/
def execDieThermalTrip (die : Nat) (s : State) : Host.Outcome State Fault Refusal :=
  .next (if die ≥ Config.dies then s else (s.updDie die (fun d => { d with hot := true })).updPkg (fun p => { p with trip := true }))

/-- The cores of a die, by number. -/
def coresOf (die : Nat) : List Nat := (upTo Config.coresPerDie).map (fun c => die * Config.coresPerDie + c)

/-- DIE_THERMAL_RECOVERY: the die has fallen below 100 °C (R382). While HUNG the ceiling does not rise (R383). -/
def execDieThermalRecovery (die : Nat) (s : State) : Host.Outcome State Fault Refusal :=
  .next (if die ≥ Config.dies ∨ !(s.die die).hot then s
    else
      let t := s.updDie die (fun d => { d with hot := false })
      if s.pkg.hung then t.mapTracks (coresOf die) (fun k => { k with ceil := Nat.min k.ceil 4 }) else t)

-- ## Sparing (R384, R385)

/-- The buckets of a core's port as the core is retired: their balances go to the pool of the next refill (R370). -/
def emptied (b : Map Bucket) : Map Bucket :=
  let pool := (b.vals.map Bucket.balance).sum
  (b.mapVals (fun _ b => { b with balance := 0 })).put 64 ⟨pool, false⟩

/-- What the spare core that takes a number starts with: its caches, TLB and value-guess table are empty, the scratch windows stand in their
context images, and loads that waited for a fill read again (R233, R235, R369, R384). -/
def Core.replaced (c : Core) : Core :=
  { c with
    icache := [], imaged := c.scratch.mapVals (fun _ _ => upTo (Config.scratchBytes / 4096)), noisy := none, failed := false, buckets := emptied c.buckets,
    tlb := [], l1 := [], l1Info := [], fills := [], invalidations := [], guesses := [], badLines := [], waiting := [],
    loads := c.loads.mapVals (fun _ l => { l with lanes := l.lanes.mapVals (fun _ e => { e with onFill := false }) }) }

/-- Whether a core is to be retired: it has raised an error that cannot be contained, or its corrected-error rate has stayed too high for 1 s (R384). -/
def Core.worn (c : Core) (ticks : Nat) : Bool := c.failed || (match c.noisy with | some t => decide (ticks ≥ t + 1000000000) | none => false)

/-- CORE_RETIREMENT of a core that is worn: the contexts on the core halt; once they have, a spare takes its number, or the number stays unassigned where the die has
used its four spares (R384). -/
def execCoreRetirement (core : Nat) (s : State) : Host.Outcome State Fault Refusal :=
  let ctxs := ascending ((s.groups.vals.filter (fun x => x.core == core)).map Group.ctx)
  let halted := fun (c : Nat) => match (s.ctx c).halt with | some h => h.phase == .supervisor | none => false
  let die := dieOf core
  if core ≥ Config.dies * Config.coresPerDie ∨ (s.core core).retired ∨ !(s.core core).worn s.ticks then .next s
  else if !ctxs.all halted then .next (ctxs.foldl (fun (t : State) c => if t.canHalt c then t.raiseHalt c 2 0 Trap.none [] false 0 else t) s)
  else
    let s := if (s.die die).sparesUsed < Config.sparesPerDie then
        let t := (s.updDie die (fun d => { d with sparesUsed := d.sparesUsed + 1 })).updCore core Core.replaced
        { t with groups := t.groups.mapVals (fun _ x => if x.core = core then { x with imaged := true } else x) }
      else s.updCore core (fun c => { c with retired := true })
    .next (s.reportSupervisor 2 0xFF 1 0 (eventPlace core 0))

/-- HBM_CHANNEL_SPARING: the spare channel of the stack stands for a failing one, and of its lines those that cannot be read are marked poisoned in the
spare (R385). -/
def execHbmChannelSparing (die stack : Nat) (channel : Nat × List Nat) (s : State) : Host.Outcome State Fault Refusal :=
  .next (if die ≥ Config.dies ∨ stack ≥ Config.stacksPerDie ∨ (((s.die die).memStacks.get stack Stack.reset).spared).isSome then s
    else
      let s := (s.updDie die (fun d => { d with memStacks := d.memStacks.upd stack Stack.reset (fun k => { k with spared := some channel.1 }) })).reportSparing 0 0 die
      (channel.2.filter (fun a => region a == some (.hbm die))).foldl (fun t a => t.loseLine (lineOf a)) s)

/-- LLC_WAY_DISABLE: the way is disabled in its set group; what it held is first written back to memory (R385). -/
def execLlcWayDisable (die : Nat) (way : Nat × Nat) (s : State) : Host.Outcome State Fault Refusal :=
  .next (if die ≥ Config.dies ∨ (s.die die).waysOff.any (fun w => w == way) then s
    else (s.updDie die (fun d => { d with
      waysOff := d.waysOff ++ [way],
      llc := d.llc.filter (fun la => !(Config.llcGroup la == way.1 && Config.llcWay la == way.2)) })).reportSparing 1 0 die)

/-- CAUSEWAY_LANE_SPARE: the spare lane of a port's direction replaces a failed one (R347, R385). -/
def execCausewayLaneSpare (port : Nat) (lane : Nat × Nat) (s : State) : Host.Outcome State Fault Refusal :=
  .next (if port > 11 ∨ lane.1 > 1 ∨ s.pkg.lanes.any (fun p => p.1 == port && p.2.1 == lane.1) then s
    else (s.updPkg (fun p => { p with lanes := p.lanes ++ [(port, lane.1, lane.2)] })).reportSparing 2 0 (port * 2 ^ 8))

-- ## Reset (R386, R387)

/-- A core that the self-test finds bad: a spare takes its number, or the number stays unassigned (R384, R386). -/
def State.selfTest (s : State) (core : Nat) : State :=
  if core ≥ Config.dies * Config.coresPerDie then s
  else if (s.die (dieOf core)).sparesUsed < Config.sparesPerDie then s.updDie (dieOf core) (fun d => { d with sparesUsed := d.sparesUsed + 1 })
  else s.updCore core (fun c => { c with retired := true })

/-- A channel of a stack that training finds bad: the spare channel stands for it (R386). -/
def State.train (s : State) (c : Nat × Nat × Nat) : State :=
  if c.1 ≥ Config.dies ∨ c.2.1 ≥ Config.stacksPerDie then s
  else s.updDie c.1 (fun d => { d with memStacks := d.memStacks.upd c.2.1 Stack.reset (fun k => { k with spared := some (k.spared.getD c.2.2) }) })

/-- COLD_RESET: the machine is as after reset, but for the numbers of the free values already used; the self-test has assigned spare cores and training
spare channels. Where a check fails, bring-up stops with the ports closed (R386). What the tests find is free (log entry 103). -/
def execColdReset (s : State) : Host.Outcome State Fault Refusal :=
  let t : State := { State.reset with agenda := s.agenda, free := s.free + 1, ids := s.ids }
  let ok := Config.bringUp s.free
  let u := if ok then (Config.badChannels s.free).foldl State.train ((Config.badCores s.free).foldl State.selfTest t) else t
  .next { t with cores := u.cores, dies := u.dies, pkg := { t.pkg with booted := ok } }

/-- RAIL_POWER_DOWN: every context ends, and nothing runs before a cold reset (R387). -/
def execRailPowerDown (s : State) : Host.Outcome State Fault Refusal :=
  .next { s with
    groups := [], grids := [], ctxs := [], cores := s.cores.mapVals (fun _ c => { Core.reset with leasew := c.leasew, retired := c.retired }),
    dies := s.dies.mapVals (fun _ d => { d with l2 := [], tlb := [], walks := [], llc := [] }), mem := [], poison := [], seals := [], host := [], slots := [],
    calls := [], signals := [], posts := [], pkg := { s.pkg with railsUp := false } }

end Sys2Proof.Machine
end

