-- ==== Sys2Proof/Machine/Issue.lean ====
section
/-! DEFINITION. How a group issues: readiness, the choice of the issue set, junction releases and one issue cycle (R16, R19, R27 to R32, R62,
R63, R110). -/

namespace Sys2Proof.Machine

-- ## Readiness (R28)

/-- Whether what a fibre waits for has come; a wait that an event ends is not over. -/
def State.waitOver (s : State) (g : Nat) (x : Group) (b : Fibre) : Bool :=
  let c := s.core x.core
  match b.wait with
  | .free => true
  | .counters l st cp t _ => x.countersBelow l st cp t
  | .phase n blocks => (s.teamOf x).phase != n && (!blocks || (c.loadsDone g b.uid s.ids none && c.atomicsDone g b.uid s.ids none))
  | .tickets => c.truthful g b.uid
  | .truths l fs _ => l.all c.known && fs.all (c.truthful g)
  | .release level upto r => s.releaseDone x.core g b.uid level upto r
  | .acquire upto r => c.loadsDone g b.uid upto r && c.atomicsDone g b.uid upto r
  | .send uid upto target => s.sendDone g uid upto target
  | .paths mask level upto => s.pathsDone g b.uid mask level upto
  | .translation va => !(s.ctx x.ctx).faults.any (fun a => a == va)
  | .slots => decide ((s.versionsOf g).length + 4 ≤ Config.slotsPerGroup)
  | .arriving .. | .arrived .. | .fill .. | .word .. | .handler => false

/-- The operation counter that an instruction uses, as it stands (R19). -/
def Instr.counter (i : Instr) (x : Group) : Nat :=
  let atomic := fun (d : BitVec 7) => if d.toNat = 120 then x.stores else x.loads
  match i with
  | .ldN8 .. | .ldS8 .. | .ldN16 .. | .ldS16 .. | .ld32 .. | .ld64 .. | .ldv .. | .ldk .. | .ldx .. | .lds .. | .ldaq .. | .lock .. | .unlock .. => x.loads
  | .aadd _ _ d .. | .amin _ _ d .. | .amax _ _ d .. | .aand _ _ d .. | .aor _ _ d .. | .axor _ _ d .. | .axchg _ _ d .. | .acas _ _ d ..
  | .aminN _ _ d .. | .amaxN _ _ d .. | .afadd _ _ d .. | .afaddPair _ _ d .. => atomic d
  | .st .. | .stv .. | .stg .. | .sts .. | .strl .. | .cinv .. | .cwb .. => x.stores
  | .cpy .. | .cpy2 .. | .gath .. | .scat .. | .cfill .. => x.copies
  | .tld .. | .tlds .. | .tsto .. | .tsts .. | .tzero .. | .trd .. | .twr .. | .mma .. | .mmas .. | .mmac .. | .tscl .. | .tacc .. => x.tiles
  | _ => 0

/-- The pitch register of TLD and TSTO, which they read beside the operands that they name (R314). -/
def Instr.pitchRegs (i : Instr) : List Reg :=
  match i with
  | .tld _ _ _ b .. | .tsto _ _ b .. => if 96 ≤ b.toNat ∧ b.toNat < 111 then [⟨.k, b.toNat - 95⟩] else []
  | _ => []

/-- The registers that an instruction reads or writes in a fibre, its mask predicate among them. -/
def Instr.regs (i : Instr) (b : Fibre) : List Reg :=
  i.operands.flatMap (fun o => operandRegs o b) ++ Instr.pitchRegs i ++ (if (fallback i).2.mask = 0 then [] else [⟨.q, (fallback i).2.mask⟩])

/-- The interlocks that an instruction meets in a fibre: on a register that it reads or writes, or for FORK `.copy` on any (R16, R77). -/
def lockHits (i : Instr) (b : Fibre) : List Lock :=
  match i with
  | .fork _ f .. => b.locks.filter (fun l => f == 1#3 || hasReg (Instr.regs i b) l.reg)
  | _ => b.locks.filter (fun l => hasReg (Instr.regs i b) l.reg)

/-- The fibres of a group at one PC: those that wait for nothing, those of them that are ready, and what stands at the PC. -/
structure Cand where
  pc : W64
  lanes : List Nat
  ready : List Nat
  fetch : Fetch

/-- Whether a fibre is stalled at an instruction, by an interlock or a full counter (R16, R19). -/
def stalled (x : Group) (f : Fetch) (lane : Nat) : Bool :=
  match f with
  | .done (.ins i _) _ => !(lockHits i (x.fibre lane)).isEmpty || decide (Instr.counter i x ≥ Config.counterMax)
  | .held => true
  | _ => false

/-- The opcodes whose instructions change nothing but registers and the PC of their own fibre: NOP, BRA and BRQ, the scalar and vector families, the SFU,
the accumulators and VKEY. -/
def undoable (op : Nat) : Bool := decide (op ≤ 0x02 ∨ (0x10 ≤ op ∧ op ≤ 0x27) ∨ (0x40 ≤ op ∧ op ≤ 0x9D) ∨ op = 0xA5)

/-- Whether a fibre may run on in an instruction while a memory instruction of it waits for the supervisor: what it does can be undone and raises
nothing, and it meets no register whose value was still to come as that instruction issued (R16, R208, log entry 19). -/
def State.runsOn (s : State) (g : Nat) (x : Group) (h : Held) (lane : Nat) (i : Instr) (w : W32) : Bool :=
  let b := x.fibre lane
  let op := (fld w 24 8).toNat
  let regs := Instr.regs i b
  undoable op && (decide (op < 0x70) || decide (x.fpmode.toNat / 16 % 16 = 0)) && (op != 2 || b.cw.qp == 0) && (lockHits i (h.fibres.get lane b)).isEmpty
    && !regs.any b.guessed && !(s.core x.core).touches g b.uid regs

/-- The memory instruction of a lane that waits for the supervisor while the lane's fibre runs on. -/
def Group.heldBy (x : Group) (lane : Nat) : Option Held := x.held.find? (fun h => has h.issue.lanes lane)

/-- Whether a fibre stands still before an instruction for a memory instruction that waits for the supervisor (R208). -/
def State.heldStalls (s : State) (g : Nat) (x : Group) (f : Fetch) (lane : Nat) : Bool :=
  match x.heldBy lane, f with
  | none, _ => false
  | some h, .done (.ins i _) words => !s.runsOn g x h lane i (words.getLast?.getD 0)
  | some _, _ => true

/-- Whether some fibres that would issue an instruction together are all stalled by a full copy engine or range scoreboard: a copy acts once for its
issue set, as its lowest lane asks (R17, R28, R330, R331). -/
def State.setStalled (s : State) (g : Nat) (x : Group) (f : Fetch) (lanes : List Nat) : Bool :=
  match f with
  | .done (.ins i _) _ => (match Instr.copyIns i with | some z => s.copyStalls z g (firstLane lanes) x | none => false)
  | _ => false

/-- The PCs of a group whose fibres wait for nothing, lowest first (R27). -/
def State.cands (s : State) (g : Nat) (x : Group) : List Cand :=
  let free := x.live.filter (fun l => !(x.fibre l).cw.ja && s.waitOver g x (x.fibre l))
  (ascending (free.map (fun l => (x.fibre l).pc.toNat))).map (fun p =>
    let pc := BitVec.ofNat 64 p
    let lanes := free.filter (fun l => (x.fibre l).pc == pc)
    let f := s.fetch g x pc
    let ready := lanes.filter (fun l => !stalled x f l && !s.heldStalls g x f l)
    ⟨pc, lanes, if s.setStalled g x f ready then [] else ready, f⟩)

/-- The ready fibres of a group (R28). -/
def State.readyLanes (s : State) (g : Nat) : List Nat := (s.cands g (s.group g)).flatMap Cand.ready

/-- The slice of a lane (R26). -/
def sliceOf (lane : Nat) : Nat := lane / 4

/-- The choice of R27 and R29: the lowest PC with a ready fibre, of the aged slice that comes first where one has a ready fibre. -/
def choosePc (cs : List Cand) (aged : List Nat) : Option Cand :=
  let of := fun (sl : Nat) => cs.find? (fun c => c.ready.any (fun l => sliceOf l == sl))
  match firstSome (aged.map of) with
  | some c => some c
  | none => cs.find? (fun c => !c.ready.isEmpty)

/-- The age counters after one issue cycle (R29). -/
def Group.countAges (x : Group) (ready issued : List Nat) : Group :=
  (upTo 8).foldl (fun (x : Group) sl =>
    if issued.any (fun l => sliceOf l == sl) then { x with ages := x.ages.del sl, aged := drop x.aged sl }
    else if ready.any (fun l => sliceOf l == sl) then
      let n := x.ages.get sl 0 + 1
      { x with ages := x.ages.put sl n, aged := if n ≥ 256 then addOnce x.aged sl else x.aged }
    else x) x

-- ## Ports (R109, R110)

/-- The port of an opcode range (R13): 0 ALU, 1 MEM, 2 TILE, 3 CTRL and SFU. -/
def portOfWord (w : W32) : Nat :=
  let op := (fld w 24 8).toNat
  if (0x40 ≤ op ∧ op < 0x90) ∨ (0x98 ≤ op ∧ op < 0xA8) then 0
  else if (0xA8 ≤ op ∧ op < 0xC0) ∨ (0xD0 ≤ op ∧ op < 0xE0) then 1
  else if 0xC0 ≤ op ∧ op < 0xD0 then 2
  else 3

/-- The passes of a track after an issue of a context at a port (R110): the context's pass grows by its stride, and a context without a
candidate catches up. -/
def Track.issued (t : Track) (port ctx weight : Nat) (candidate : Nat → Bool) : Track :=
  let key := port * 2 ^ 32 + ctx
  let pass := t.passes.get key 0 + BitVec.ofNat 32 (65536 / weight)
  { t with passes := (t.passes.put key pass).mapVals (fun k p =>
      if k / 2 ^ 32 = port ∧ k ≠ key ∧ !candidate (k % 2 ^ 32) ∧ (p - pass).msb then pass else p) }

/-- The junctions of a group that release on an issue cycle (R32), each judged on the state before. -/
def State.releaseJunctions (s : State) (g : Nat) : State :=
  let x := s.group g
  let pcs := ascending ((x.live.filter (fun l => (x.fibre l).cw.ja)).map (fun l => (x.fibre l).pc.toNat))
  let due := pcs.filter (fun p =>
    x.live.all (fun l => decide (p ≤ (x.fibre l).pc.toNat))
      || (x.waitingAt (BitVec.ofNat 64 p)).any (fun l => decide ((x.fibre l).junctionSince + 1024 ≤ s.clocks)))
  due.foldl (fun t p => t.releaseJunction g (BitVec.ofNat 64 p)) s

/-- What a group issues next: its PC and issue set, once its junctions have released. -/
def State.choice (s : State) (g : Nat) : Option Cand :=
  let s := s.releaseJunctions g
  choosePc (s.cands g (s.group g)) (s.group g).aged

/-- The port that what stands at a PC needs; none where it is no instruction. -/
def Cand.port (c : Cand) : Option Nat :=
  match c.fetch with
  | .done (.ins _ _) words => some (portOfWord (words.getLast?.getD 0))
  | _ => none

/-- Whether a track runs on a core clock: on as many of every 16 as its ratio says, spread evenly (R378, log entry 111). -/
def Track.runsOn (t : Track) (clock : Nat) : Bool := decide (clock * t.cur % 16 < t.cur)

/-- The first core clock after so many clocks of a track, of which this one is the first (R378). -/
def Track.after (t : Track) (clock n : Nat) : Nat := (16 * (clock * t.cur / 16 + n - 1) + t.cur - 1) / t.cur + 1

/-- Whether a group may issue on this clock, as far as its track, its context and its own issue are concerned (R27, R79, R120, R378). -/
def State.upNow (s : State) (g : Nat) : Bool :=
  let x := s.group g
  (s.groups.find? g).isSome && x.set == GSet.carriageway && !x.yielding && s.mayIssue g && decide (x.lastIssue ≤ s.clocks)
    && ((s.core x.core).track x.track).runsOn s.clocks

/-- Whether another group of the track is a candidate for a port (R109). -/
def State.wants (s : State) (g port : Nat) : Bool :=
  s.upNow g && (s.group g).pend.isEmpty && (match s.choice g with | some c => c.port == some port | none => false)

/-- Since when a group's next instruction has been ready for a port: not before the clock after its latest issue (R27, R109). -/
def State.readyFor (s : State) (x : Group) (port : Nat) : Nat := match x.readyPort with | some (p, t) => if p = port ∧ x.lastIssue ≤ t then t else s.clocks | none => s.clocks

/-- Whether one candidate for a port of a track goes before another (R109, R110): of two contexts the one with the lower pass, then the lower VF, then
the lower number; of two groups of one context the one that has been ready longer, then the lower slot. -/
def State.before (s : State) (port : Nat) (x y : Group) : Bool :=
  if x.ctx ≠ y.ctx then
    let t := ((s.core x.core).tracks.get x.track Track.reset).passes
    let a := t.get (port * 2 ^ 32 + x.ctx) 0
    let b := t.get (port * 2 ^ 32 + y.ctx) 0
    (a - b).msb || (a == b && decide ((s.ctx x.ctx).vf < (s.ctx y.ctx).vf ∨ ((s.ctx x.ctx).vf = (s.ctx y.ctx).vf ∧ x.ctx < y.ctx)))
  else decide (s.readyFor x port < s.readyFor y port ∨ (s.readyFor x port = s.readyFor y port ∧ x.slot < y.slot))

/-- Whether the port that an instruction needs grants it to a group: it is free, and no other group of the track goes before (R27, R109, R110).
What is no instruction needs no port. -/
def State.grants (s : State) (g : Nat) (c : Cand) : Bool :=
  let x := s.group g
  match c.port with
  | none => true
  | some port =>
    decide (((s.core x.core).tracks.get x.track Track.reset).portFree.get port 0 ≤ s.clocks)
      && (s.carriageway x).all (fun p => p.1 == g || !(s.before port p.2 x && s.wants p.1 port))

/-- The clocks of its track for which an instruction occupies its port: one, but for the ALU port and SFU instructions of a grid in temporal mode (R30, R34). -/
def State.occupancy (s : State) (x : Group) (w : W32) (lanes : Nat) : Nat :=
  let op := (fld w 24 8).toNat
  if (s.grid x.grid).record.temporal && (portOfWord w == 0 || decide (0x90 ≤ op ∧ op < 0x98)) then (lanes + 3) / 4 else 1

/-- An issue counted at its port: the port is taken, and the context's stride is added (R34, R109, R110). -/
def State.countPort (s : State) (g : Nat) (w : W32) (lanes : Nat) : State :=
  let x := s.group g
  let port := portOfWord w
  let stride := Nat.max 1 (s.vf (s.ctx x.ctx).vf).weight
  let candidate := fun (c : Nat) => (s.carriageway x).any (fun p => p.1 != g && p.2.ctx == c && s.wants p.1 port)
  let free := ((s.core x.core).track x.track).after s.clocks (s.occupancy x w lanes)
  s.updCore x.core (fun k => { k with tracks := k.tracks.upd x.track Track.reset (fun t =>
    { t.issued port x.ctx stride candidate with portFree := t.portFree.put port free }) })

-- ## One issue cycle

/-- What an issue cycle comes to: an instruction to execute, in a state that names its issue set, or a next state. -/
inductive Prepared where
  | run (i : Instr) (s : State)
  | idle (s : State)

/-- An ILLEGAL trap (R62, R133): VAL holds the base word and, above it, the OPX word, else the IMX word, else 0. -/
def State.illegal (s : State) (r : Reject) (words : List W32) : State :=
  let before := words.dropLast
  let second := match before.filter isOpx, before with | o :: _, _ => o | [], x :: _ => x | [], [] => 0
  s.precise 1 0 r.field 0 s.cur.lanes (second ++ (words.getLast?.getD 0))

/-- What an instruction that issues names noted of the fibres that run on in it (R208). -/
def Group.noteNamed (x : Group) (i : Instr) (lanes : List Nat) : Group :=
  { x with held := x.held.map (fun h => { h with named := (lanes.filter (has h.issue.lanes)).foldl (fun m l => m.upd l [] (fun r => r ++ Instr.regs i (x.fibre l))) h.named }) }

/-- The instruction that a chosen PC gives its issue set (R44, R62, R208). -/
def State.start (s : State) (g : Nat) (c : Cand) : Prepared :=
  let x := s.group g
  let at' := fun (words : List W32) (n : Nat) => ({ s with cur :=
    ⟨g, c.ready, c.pc, n, words.getLast?.getD 0, (words.dropLast.filter isOpx).head?, (words.dropLast.filter isImx).head?⟩ } : State)
  match c.fetch with
  | .done (.ins i n) words =>
    let t := ((at' words n).fetched g x c.pc words.length).countPort g (words.getLast?.getD 0) c.ready.length
    .run i (if x.held.isEmpty then t else t.updGroup g (fun x => x.noteNamed i c.ready))
  | .done (.illegal r n) words => .idle ((at' words n).illegal r words)
  | .done .short words => .idle (at' words words.length)
  | .fault cause sub info val n => .idle ((((at' [] n).fetchTried g x c.pc val cause sub n).precise cause sub info 0 c.ready val).forget x.ctx val)
  | .replay va => .idle (((at' [] 0).askSupervisor x.ctx va).wait c.ready (.translation va))
  | .held => .idle s

/-- The fibres of a group that wait at a WAITC whose counts are met, released (R112). -/
def State.releaseCounters (s : State) (g : Nat) : State := s.updGroup g Group.releaseCounters

/-- ONE ISSUE CYCLE OF A GROUP (R27): it must be on the carriageway and not about to leave it, its context must run, it issues once in a clock, and
the port must grant it. A fault kept pending in it is raised first (R122). -/
def State.prepare (s : State) (g : Nat) : Prepared :=
  let x := s.group g
  if !s.upNow g then .idle s
  else if !x.pend.isEmpty then .idle (if s.runs x.ctx g then s.raisePending g else s)
  else
    let t := (s.releaseCounters g).releaseJunctions g
    let x := t.group g
    let cs := t.cands g x
    match choosePc cs x.aged with
    | none => .idle t
    | some c =>
      if !t.grants g c then .idle s
      else
        let ready := cs.flatMap Cand.ready
        let t := t.updGroup g (fun x => { (x.countAges ready c.ready) with lastIssue := t.clocks + 1, windowIssues := x.windowIssues + 1 })
        (t.recallRows g).start g c

-- ## Memory instructions tried again (R208)

/-- A memory instruction of a group whose faults are all answered, the oldest of them, with the state in which it is tried again: its fibres stand at it. -/
def State.replay (s : State) (g : Nat) : Option (Held × State) :=
  let x := s.group g
  let answered := fun (h : Held) => h.vas.all (fun va => !(s.ctx x.ctx).faults.any (fun a => a == va))
  match (if s.runs x.ctx g then x.held.find? answered else none) with
  | some h => some (h, ({ s with cur := h.issue } : State).updGroup g h.undo)
  | none => none

/-- What trying a memory instruction again comes to, `ran` being the state before, `t` that in which it was tried and `u` that which it answered: it has
taken effect, and its fibres go on from where they had run on to; it has raised a fault, and they stand at it (R122); or it waits on. -/
def State.settleReplay (ran t u : State) (h : Held) : State :=
  let g := h.issue.g
  let lane := firstLane h.issue.lanes
  let done := ((u.group g).fibre lane).pc != h.issue.pc
  let raised := !(decide ((u.ctx (t.group g).ctx).halt = (t.ctx (t.group g).ctx).halt) && decide ((u.group g).pend = (t.group g).pend))
  let over' := fun (x : Group) => { x with held := x.held.filter (fun k => k.issue != h.issue) }
  if done then u.updGroup g (fun x => over' (x.mapLanes h.issue.lanes (fun l b => h.forth l ((ran.group g).fibre l) b)))
  else if raised then (u.dropLater g h).updGroup g over'
  else { u.updGroup g (fun x => h.count true (x.mapLanes h.issue.lanes (fun l _ => (ran.group g).fibre l))) with cur := ran.cur }

-- ## The passing of clocks

/-- What a clock leaves noted in a group that runs: WAITC releases (R112), the port that it is ready for on the carriageway (R109), and since when it is
ready in the lay-by (R103). -/
def State.noteReady (s : State) (g : Nat) (x : Group) : Group :=
  if !s.runs x.ctx g then x
  else
    let y := x.releaseCounters
    let now := Nat.max s.clocks x.lastIssue
    let port := if x.set = .carriageway then (match s.choice g with | some c => c.port | none => none) else none
    let ready := x.set == GSet.layby && !(s.readyLanes g).isEmpty
    { y with
      readyPort := port.map (fun p => (p, match x.readyPort with | some (q, t) => if q = p ∧ x.lastIssue ≤ t then t else now | none => now)),
      readySince := if ready then some (x.readySince.getD s.clocks) else none,
      pendingSince := if ready then x.pendingSince else none }

/-- So many clocks pass: the requests to pooled nodes that are out are noted (R349), lines of instructions are asked for (R370), and the ports are refilled
at the boundaries among the clocks (R371). -/
def State.tick (s : State) (n : Nat) : State :=
  let t := (s.noteSent.groups.keys.foldl State.fetchAhead s.noteSent).refillDue n
  { t with groups := s.groups.mapVals s.noteReady, clocks := s.clocks + n }

end Sys2Proof.Machine
end

