-- ==== Sys2Proof/Machine/Schedule.lean ====
section
/-! DEFINITION. YIELD and the events of the two-level scheduler (R79, R100 to R103). -/

namespace Sys2Proof.Machine

/-- Whether a group holds a ready fibre (R28). -/
def State.hasReady (s : State) (g : Nat) : Bool := !(s.readyLanes g).isEmpty

/-- Whether a ready lay-by group of the issuing group's track fits in its place on the carriageway (R79). -/
def State.mayYield (s : State) : Bool :=
  s.groups.any (fun p => p.1 != s.cur.g && p.2.core == s.here.core && p.2.track == s.here.track && p.2.set == .layby
    && s.hasReady p.1 && !s.leaving p.2 && s.leaseFits p.2 s.cur.g)

/-- YIELD (R79): it leaves the carriageway where a ready lay-by group of its track fits. -/
def execYield (m : Mods) (s : State) : Host.Outcome State Fault Refusal :=
  let other := s.mayYield
  .next (s.plain (.yield m) (fun e s => (s.updGroup s.cur.g (fun y => { y with yielding := other })).complete s.here e (fun _ => [])))

/-- Whether a wait is at one of the blocking instructions of R101, or is a RET that has waited on its fill for 64 clocks. -/
def Wait.long (w : Wait) (clocks : Nat) : Bool :=
  match w with
  | .counters .. | .arrived .. | .word .. => true
  | .phase _ blocks | .truths _ _ blocks => blocks
  | .arriving bar _ _ _ => bar != .team
  | .fill _ since => decide (since + 64 ≤ clocks)
  | _ => false

/-- Whether every live fibre of a group is blocked, or stalled by a long wait of 64 clocks or more, and none is ready (R101). -/
def State.allStalled (s : State) (g : Nat) (x : Group) : Bool :=
  let cs := s.cands g x
  let long := fun (l : Nat) =>
    let b := x.fibre l
    b.wait.long s.clocks && !s.waitOver g x b
      || cs.any (fun c => has c.lanes l && (match c.fetch with
        | .done (.ins i _) _ => (lockHits i b).any (fun k => k.long && decide (k.since + 64 ≤ s.clocks))
        | _ => false))
      || cs.any (fun c => has c.lanes l) && (match x.heldBy l with | some h => decide (h.since + 64 ≤ s.clocks) | none => false)
  cs.all (fun c => c.ready.isEmpty) && x.live.all long

/-- A group moved between the sets of its track (R100); one that is admitted issues from the next clock (R102). -/
def State.moveGroup (s : State) (g : Nat) (set : GSet) : State :=
  s.updGroup g (fun x => { x with set := set, entered := s.clocks, lastIssue := s.clocks + 1, yielding := false, left := none, readySince := none, pendingSince := none })

/-- LAYBY_MOVE: YIELD moves it, or every fibre is blocked or in a long wait, at the end of the clock (R101). -/
def execLaybyMove (g : Nat) (s : State) : Host.Outcome State Fault Refusal :=
  let x := s.group g
  .next (if x.set = .carriageway && (x.yielding || (!x.fibres.isEmpty && s.allStalled g x)) then
    (s.moveGroup g .layby).updGroup g (fun x => { x with left := some s.clocks }) else s)

/-- Whether a group of a group's track has been admitted on this clock (R102). -/
def State.admitted (s : State) (x : Group) : Bool := (s.carriageway x).any (fun p => p.2.entered == s.clocks)

/-- The pending group of a group's track: of several the one that became pending first (R103). -/
def State.pendingOn (s : State) (x : Group) : Option Nat :=
  ((s.groups.filter (fun p => p.2.core == x.core && p.2.track == x.track && p.2.set == .layby && s.runs p.2.ctx p.1)).foldl
    (fun (m : Option (Nat × Nat)) p => match p.2.pendingSince, m with
      | some t, some q => if t < q.2 then some (p.1, t) else m
      | some t, none => some (p.1, t)
      | none, _ => m) none).map Prod.fst

/-- CARRIAGEWAY_ADMISSION: a lay-by group with a ready fibre whose lease fits, the earliest of them, one on a clock (R102). A place that is given up on
this clock is free from the next (R101); of two that entered the lay-by on one clock the lower number goes first (log entry 107). -/
def execCarriagewayAdmission (g : Nat) (s : State) : Host.Outcome State Fault Refusal :=
  let x := s.group g
  let fits := fun (p : Nat × Group) => p.2.set == .layby && p.2.core == x.core && p.2.track == x.track && s.leaseFits p.2 p.1 && s.hasReady p.1
    && s.runs p.2.ctx p.1 && !s.leaving p.2
  let earlier := s.groups.any (fun p => fits p && decide (p.2.entered < x.entered ∨ (p.2.entered = x.entered ∧ p.1 < g)))
  let turn := match s.pendingOn x with | some q => q == g | none => !earlier
  .next (if fits (g, x) && turn && !s.admitted x && decide ((s.occupied x).length < Config.carriagewayGroups) then s.moveGroup g .carriageway else s)

/-- LAYBY_PENDING: a ready lay-by group not admitted for 4,096 clocks (R103). The clock from which it is ready is noted when it is first seen, here or
as a clock passes. -/
def execLaybyPending (g : Nat) (s : State) : Host.Outcome State Fault Refusal :=
  let x := s.group g
  if x.set ≠ .layby || !s.hasReady g then .next (s.updGroup g (fun x => { x with readySince := none, pendingSince := none }))
  else match x.readySince with
    | none => .next (s.updGroup g (fun x => { x with readySince := some s.clocks }))
    | some t => .next (if x.pendingSince.isNone && decide (t + 4096 ≤ s.clocks) then
        s.updGroup g (fun x => { x with pendingSince := some s.clocks }) else s)

/-- Carriageway groups moved out, most recently admitted first, until a group fits (R103). -/
def State.evictFor (s : State) (g : Nat) : Nat → State
  | 0 => s
  | n + 1 =>
    let x := s.group g
    let c := s.carriageway x
    if s.fitsBeside x (c.filter (fun p => p.1 != g)) && decide (c.length < Config.carriagewayGroups) then s
    else match c.foldl (fun (m : Option (Nat × Group)) p => match m with
        | none => some p
        | some q => if q.2.entered ≤ p.2.entered then some p else some q) none with
      | none => s
      | some p => (s.moveGroup p.1 .layby).evictFor g n

/-- PENDING_EVICTION: a pending group that is still ready, after a further 4,096 clocks, one group on a clock (R102, R103). -/
def execPendingEviction (g : Nat) (s : State) : Host.Outcome State Fault Refusal :=
  match (s.group g).pendingSince with
  | some t => .next (if t + 4096 ≤ s.clocks ∧ (s.group g).set = .layby ∧ s.runs (s.group g).ctx g ∧ s.hasReady g ∧ !s.admitted (s.group g) then (s.evictFor g Config.carriagewayGroups).moveGroup g .carriageway else s)
  | none => .next s

end Sys2Proof.Machine
end

