-- ==== Sys2Proof/Machine/Agenda.lean ====
section
/-! DEFINITION. What may happen next when the agenda names nothing (log entry 1), and the placing of one instruction for a machine that has
no program yet. -/

namespace Sys2Proof.Machine

/-- Something that the device does of itself: the meaning of one of its events. -/
abbrev Happening := State → Host.Outcome State Fault Refusal

/-- The events of halts in progress (R120, R121, R139). -/
def State.haltEvents (s : State) : List Happening :=
  (s.ctxs.flatMap (fun p =>
    match s.stopping p.1 with
    | some h => ((s.haltCores p.1).map (fun n => execHaltLineArrival p.1 n))
        ++ h.due.map (fun d => execEngineStop p.1 d.core d.track d.eng) ++ [execHaltCompletion p.1]
    | none => if p.2.pl.isSome then [execPreemptionTimeout p.1] else []))

/-- What the engines of a core have to do next. -/
def Core.events (c : Core) (n : Nat) : List Happening :=
  (    c.results.keys.map (fun i => execPendingResultRetire n i)
    ++ c.loads.flatMap (fun p => (p.2.lanes.filter (fun q => q.2.state == LaneState.waiting)).flatMap (fun q =>
        [execLoadDataArrival n p.1 q.1, execDeadlineExpiry n p.1 q.1]))
    ++ c.loads.flatMap (fun p => p.2.victims.map (fun v => execPromotionDrain n p.1 v))
    ++ c.fills.keys.map (fun la => execL1FillArrival n la)
    ++ (c.tickets.keep (fun _ t => t.truth.isNone)).keys.map (fun t => execTicketTruthArrival n t)
    ++ c.stores.keys.map (fun i => execStorePerformed n i)
    ++ c.atomics.flatMap (fun p => p.2.lanes.map (fun q => execAtomicPerformed n p.1 q.1))
    ++ c.invalidations.map (fun la => execL1InvalidationArrival n la)
    ++ c.copies.keys.flatMap (fun i => [execCopyRetire n i, execCopyPiece n i])
    ++ c.tileOps.flatMap (fun p => (p.2.quarters.filter (fun q => !q.2.done)).map (fun q => execMatrixPass n [p.1 * 4 + q.1]))
    ++ c.tileOps.keys.map (fun i => execTileOperationRetire n i))

/-- The pieces of collectives to be read, sent and written (R357, R358). -/
def State.callEvents (s : State) : List Happening := s.calls.vals.map (fun q => execCollCompletion q.vf q.comm q.seq [])

/-- The requests that no reply has ended for the time after which they are abandoned (R349, R357, R360, R362). -/
def State.abandoned (s : State) : List Happening :=
  (s.cores.flatMap (fun p => p.2.requestKeys.map (fun k => execCausewayAbandon p.1 k))
    ++ s.calls.map (fun p => execCausewayAbandon p.2.core (p.1, 0))
    ++ s.groups.flatMap (fun p => p.2.asked.keys.map (fun l => execCausewayAbandon p.2.core (p.1, l)))
    ++ s.posts.keys.map execRpostTimeout ++ s.signals.keys.map execCsigTimeout
    ++ s.calls.vals.map (fun q => execCollTimeout q.vf q.comm q.seq q.ctx))

/-- The waits of a group's fibres that an event ends (R74, R114, R361), and its junctions while it does not issue (R32). -/
def Group.events (x : Group) (g : Nat) : List Happening :=
  (x.fibres.flatMap (fun p => match p.2.wait with
    | .arriving .. => [execBarrierArrival g p.1]
    | .fill .. => [execReturnFillArrival g p.2.pc]
    | .word .. => [execCwaitReread g p.1]
    | _ => if p.2.cw.ja && x.set != .carriageway then [execJunctionRelease g p.2.pc, execJunctionTimeout g p.2.pc] else []))

/-- The events of grids: barrier releases and clock steps (R117, R363, R379), and their ends (R94). -/
def State.gridEvents (s : State) : List Happening :=
  (s.grids.flatMap (fun p =>
    [execMbarReleaseStep p.1] ++ (match p.2.step with | some q => q.tracks.map (fun t => execStepApply (t / 8) (t % 8)) | none => []))
    ++ s.cores.flatMap (fun p => (p.2.tracks.filter (fun t => t.2.ceilAt.isSome)).map (fun t => execStepApply p.1 t.1))
    ++ s.cores.flatMap (fun p => (p.2.tracks.filter (fun t => t.2.cur != s.granted p.1 t.1)).map (fun t => execRatioChange p.1 t.1))
    ++ s.groups.keys.flatMap (fun g => [execGroupEnd g, execLeaseWindowEnd g]) ++ s.grids.keys.map execGridEnd)

/-- The events of launch queues and placement (R95, R96), of the schedulers (R101 to R103), and the clocked events of the package (R371, R375,
R376, R381, R383, R384). -/
def State.deviceEvents (s : State) : List Happening :=
  (s.vfs.flatMap (fun p => (upTo p.2.queues.length).map (fun q => execLaunchRecordTake p.1 q))
    ++ s.grids.keys.map execTeamPlacement
    ++ s.groups.keys.flatMap (fun g => [execLaybyMove g, execCarriagewayAdmission g, execLaybyPending g, execPendingEviction g])
    ++ (s.vfs.keep (fun _ v => v.dead.isSome)).keys.flatMap (fun v => [execAllowanceReclaim v, execQuarantineEnd v])
    ++ s.cores.keys.map execBucketRefill ++ (s.cores.keep (fun _ c => c.worn s.ticks)).keys.map execCoreRetirement ++ s.dies.keys.map execRailHoldEnd ++ [execHeartbeatMiss, execAllowanceCut])

/-- What the device may do of itself, in the order in which one of these is chosen where the agenda names nothing (log entry 1). -/
def State.candidates (s : State) : List Happening :=
  s.haltEvents ++ s.cores.flatMap (fun p => p.2.events p.1) ++ s.callEvents ++ s.abandoned ++ s.groups.flatMap (fun p => p.2.events p.1) ++ s.gridEvents
    ++ s.deviceEvents

/-- The groups that hold a memory instruction whose fibres run on (R208). -/
def State.replayers (s : State) : List Nat := (s.groups.filter (fun p => !p.2.held.isEmpty)).map Prod.fst

/-- The groups that may issue on this clock. -/
def State.issuers (s : State) : List Nat :=
  (s.groups.filter (fun p => p.2.set == GSet.carriageway && decide (p.2.lastIssue ≤ s.clocks))).map Prod.fst

-- ## One instruction placed (log entry 16)

/-- A page of 64 KiB at the lowest addresses, readable, writable and executable, with its physical addresses the same. -/
def placedPage (ctx : Nat) : Page :=
  { ctx := ctx, va := 0, bits := 16, pa := 0, fmt := 0, geo := 0, owner := 0, conf := false, bias := false, alloc := 0, lk := false, x := true,
    w := true, rd := true, mtype := 0 }

/-- Where the placed instruction stands. -/
def placedAt : Nat := 0x8000

/-- A group of one fibre on core 0 whose next instruction stands at `placedAt`, in a context and a grid of its own, and the words of that
instruction; it issues next, with the ports of its track free and no other group on its carriageway. Every number taken is fresh. -/
def State.place (s : State) (code : List Byte) : State :=
  let n := s.ids
  let b := Fibre.new (n + 3) (BitVec.ofNat 64 placedAt) 0
  let x : Group := { Group.none with
    core := 0, track := 0, ctx := n + 1, grid := n + 2, budget := 512, fibres := [(0, b)], set := .carriageway, lastIssue := s.clocks }
  let r : Grid := { Grid.none with ctx := n + 1, nextTeam := 1, teams := [(0, { Team.none with groups := [n], cores := [0] })] }
  let s := s.sysWrite placedAt code false
  let s := s.updCore 0 (fun c => { c with
    retired := false, tlb := placedPage (n + 1) :: c.tlb, badLines := drop c.badLines placedAt, icache := addOnce c.icache placedAt,
    tracks := c.tracks.upd 0 Track.reset (fun t => { t.join (n + 1) with portFree := [], cur := 16 }) })
  { s with
    agenda := [Action.issue n], ids := n + 4, groups := (s.groups.mapVals (fun _ y => if y.core = 0 ∧ y.track = 0 ∧ y.set = .carriageway then { y with set := .layby } else y)).put n x, grids := s.grids.put (n + 2) r,
    ctxs := s.ctxs.put (n + 1) { Ctx.none with stopSize := 13 },
    vfs := s.vfs.upd 0 Vf.none (fun v => { v with alive := true, dies := addOnce v.dies 0 }),
    poison := drop s.poison placedAt, host := (s.host.del placedAt).del (placedAt + 64), pkg := { s.pkg with railsUp := true } }

end Sys2Proof.Machine
end

