-- ==== Sys2Proof/Machine/Scalar.lean ====
section
/-! DEFINITION. The scalar family: one 64-bit value per fibre (R83 to R88). -/

namespace Sys2Proof.Machine

/-- The width of a kty code (R83). -/
def ktyWidth (t : Nat) : Nat := if t < 2 then 64 else 32
/-- Whether a kty code is signed (R83). -/
def ktySigned (t : Nat) : Bool := t % 2 == 0
/-- A scalar source at the type's width and signedness (R84). -/
def kval (t : Nat) (v : Val) : Int := intVal (ktyWidth t) (ktySigned t) v.bits
/-- A scalar result: its low bits or, with sat, clamped, and extended to 64 bits (R83, R84). -/
def kres (t : Nat) (sat : Bool) (x : Int) : Nat :=
  let w := ktyWidth t
  let y := if sat then clamp w (ktySigned t) x else x
  ofInt 64 (intVal w (ktySigned t) (ofInt w y))

/-- A scalar instruction: a k destination (R83). -/
def scalar (i : Instr) (dst : Dst) (a b : Src) (q : Option Nat) (op : Env → Out) (s : State) : State :=
  s.alu ⟨i, dst, a, b, .none, q, 0, false, false, true, 0, fun _ e => op e⟩

/-- A scalar instruction on two integers of a kty type. -/
def scalar2 (i : Instr) (m : Mods) (t : BitVec 2) (d a b : BitVec 7) (op : Bool → Int → Int → Nat) (s : State) : State :=
  scalar i (.k d.toNat) (srcR a 1) (srcB' m b 1) none (fun e => Out.of (op e.sat (kval t.toNat e.a) (kval t.toNat e.b)) 0 [e.a, e.b]) s

/-- Quotient and remainder truncated toward zero, with the fixed results for a zero divisor and for the overflowing quotient (R85, R158). -/
def divRem (w : Nat) (signed : Bool) (a b : Int) : Int × Int :=
  if b = 0 then (-1, -1)
  else if signed ∧ a = intMin w true ∧ b = -1 then (a, 0)
  else (Int.tdiv a b, a - Int.tdiv a b * b)

/-- Leading zeros of a value within a width. -/
def leadingZeros (w x : Nat) : Nat := if x = 0 then w else w - 1 - Nat.log2 x
/-- Ones of a value within a width. -/
def ones (w x : Nat) : Nat := ((upTo w).filter (fun i => bitAt x i)).length

/-- KADD (R84). -/
def execKadd (m : Mods) (t : BitVec 2) (d a b : BitVec 7) (s : State) : Host.Outcome State Fault Refusal :=
  .next (scalar2 (.kadd m t d a b) m t d a b (fun sat x y => kres t.toNat sat (x + y)) s)
/-- KSUB (R84). -/
def execKsub (m : Mods) (t : BitVec 2) (d a b : BitVec 7) (s : State) : Host.Outcome State Fault Refusal :=
  .next (scalar2 (.ksub m t d a b) m t d a b (fun sat x y => kres t.toNat sat (x - y)) s)
/-- KMUL (R84). -/
def execKmul (m : Mods) (t : BitVec 2) (d a b : BitVec 7) (s : State) : Host.Outcome State Fault Refusal :=
  .next (scalar2 (.kmul m t d a b) m t d a b (fun sat x y => kres t.toNat sat (x * y)) s)
/-- KMULH: the high half of the double-width product (R84). -/
def execKmulh (m : Mods) (t : BitVec 2) (d a b : BitVec 7) (s : State) : Host.Outcome State Fault Refusal :=
  .next (scalar2 (.kmulh m t d a b) m t d a b (fun _ x y => kres t.toNat false (x * y / ((2 ^ ktyWidth t.toNat : Nat) : Int))) s)
/-- KDIV (R85). -/
def execKdiv (m : Mods) (t : BitVec 2) (d a b : BitVec 7) (s : State) : Host.Outcome State Fault Refusal :=
  .next (scalar (.kdiv m t d a b) (.k d.toNat) (srcR a 1) (srcB' m b 1) none (fun e =>
    { Out.of (kres t.toNat false (divRem (ktyWidth t.toNat) (ktySigned t.toNat) (kval t.toNat e.a) (kval t.toNat e.b)).1) 0 [e.a, e.b]
        with divz := kval t.toNat e.b == 0 }) s)
/-- KREM (R85). -/
def execKrem (m : Mods) (t : BitVec 2) (d a b : BitVec 7) (s : State) : Host.Outcome State Fault Refusal :=
  .next (scalar (.krem m t d a b) (.k d.toNat) (srcR a 1) (srcB' m b 1) none (fun e =>
    { Out.of (kres t.toNat false (divRem (ktyWidth t.toNat) (ktySigned t.toNat) (kval t.toNat e.a) (kval t.toNat e.b)).2) 0 [e.a, e.b]
        with divz := kval t.toNat e.b == 0 }) s)
/-- A 64-bit bitwise scalar instruction (R84). -/
def scalarBits (i : Instr) (m : Mods) (d a b : BitVec 7) (op : Nat → Nat → Nat) (s : State) : State :=
  scalar i (.k d.toNat) (srcR a 1) (srcB' m b 1) none (fun e => Out.of (op e.a.bits e.b.bits) 0 [e.a, e.b]) s
/-- KAND (R84). -/
def execKand (m : Mods) (d a b : BitVec 7) (s : State) : Host.Outcome State Fault Refusal := .next (scalarBits (.kand m d a b) m d a b Nat.land s)
/-- KOR (R84). -/
def execKor (m : Mods) (d a b : BitVec 7) (s : State) : Host.Outcome State Fault Refusal := .next (scalarBits (.kor m d a b) m d a b Nat.lor s)
/-- KXOR (R84). -/
def execKxor (m : Mods) (d a b : BitVec 7) (s : State) : Host.Outcome State Fault Refusal := .next (scalarBits (.kxor m d a b) m d a b Nat.xor s)
/-- A scalar shift by B mod width (R84). -/
def scalarShift (i : Instr) (m : Mods) (kty : Nat) (d a b : BitVec 7) (op : Int → Nat → Int) (s : State) : State :=
  scalar i (.k d.toNat) (srcR a 1) (srcB' m b 1) none (fun e =>
    Out.of (kres kty false (op (kval kty e.a) (e.b.bits % ktyWidth kty))) 0 [e.a, e.b]) s
/-- KSHL (R84): fn 1 `.n64`, 3 `.n32`. -/
def execKshl (m : Mods) (t : BitVec 1) (d a b : BitVec 7) (s : State) : Host.Outcome State Fault Refusal :=
  .next (scalarShift (.kshl m t d a b) m (2 * t.toNat + 1) d a b (fun x n => x * ((2 ^ n : Nat) : Int)) s)
/-- KSHR (R84): fn 1 `.n64`, 3 `.n32`. -/
def execKshr (m : Mods) (t : BitVec 1) (d a b : BitVec 7) (s : State) : Host.Outcome State Fault Refusal :=
  .next (scalarShift (.kshr m t d a b) m (2 * t.toNat + 1) d a b (fun x n => x / ((2 ^ n : Nat) : Int)) s)
/-- KSRA (R84): fn 0 `.s64`, 2 `.s32`. -/
def execKsra (m : Mods) (t : BitVec 1) (d a b : BitVec 7) (s : State) : Host.Outcome State Fault Refusal :=
  .next (scalarShift (.ksra m t d a b) m (2 * t.toNat) d a b (fun x n => x / ((2 ^ n : Nat) : Int)) s)
/-- KMIN (R84). -/
def execKmin (m : Mods) (t : BitVec 2) (d a b : BitVec 7) (s : State) : Host.Outcome State Fault Refusal :=
  .next (scalar2 (.kmin m t d a b) m t d a b (fun _ x y => kres t.toNat false (if x ≤ y then x else y)) s)
/-- KMAX (R84). -/
def execKmax (m : Mods) (t : BitVec 2) (d a b : BitVec 7) (s : State) : Host.Outcome State Fault Refusal :=
  .next (scalar2 (.kmax m t d a b) m t d a b (fun _ x y => kres t.toNat false (if x ≤ y then y else x)) s)
/-- The condition of KCMP (R86). -/
def kcompare (c : Nat) (a b : Nat) : Bool :=
  match c with
  | 0 => a == b
  | 1 => a != b
  | 2 => decide (toSigned 64 a < toSigned 64 b)
  | 3 => decide (toSigned 64 a ≤ toSigned 64 b)
  | 4 => decide (a < b)
  | _ => decide (a ≤ b)
/-- KCMP (R86). -/
def execKcmp (m : Mods) (c : BitVec 3) (d a b : BitVec 7) (s : State) : Host.Outcome State Fault Refusal :=
  .next (scalar (.kcmp m c d a b) (.q d.toNat) (srcR a 1) (srcB' m b 1) none (fun e =>
    Out.of (if kcompare c.toNat e.a.bits e.b.bits then 1 else 0) 0 [e.a, e.b]) s)
/-- KSEL (R87): the tags of the selecting predicate and of the selected source. -/
def execKsel (m : Mods) (q : BitVec 3) (d a b : BitVec 7) (s : State) : Host.Outcome State Fault Refusal :=
  .next (scalar (.ksel m q d a b) (.k d.toNat) (srcR a 1) (srcB' m b 1) (some q.toNat) (fun e =>
    let x := if e.q.bits = 1 then e.a else e.b
    Out.of x.bits 0 [e.q, x]) s)
/-- KCLZ (R84). -/
def execKclz (m : Mods) (t : BitVec 1) (d a : BitVec 7) (s : State) : Host.Outcome State Fault Refusal :=
  .next (scalar (.kclz m t d a) (.k d.toNat) (srcR a 1) .none none (fun e =>
    let w := ktyWidth (2 * t.toNat + 1)
    Out.of (leadingZeros w (e.a.bits % 2 ^ w)) 0 [e.a]) s)
/-- KPOPC (R84). -/
def execKpopc (m : Mods) (t : BitVec 1) (d a : BitVec 7) (s : State) : Host.Outcome State Fault Refusal :=
  .next (scalar (.kpopc m t d a) (.k d.toNat) (srcR a 1) .none none (fun e =>
    Out.of (ones (ktyWidth (2 * t.toNat + 1)) e.a.bits) 0 [e.a]) s)
/-- KLI (R88): tags clear. -/
def execKli (m : Mods) (d i : BitVec 7) (s : State) : Host.Outcome State Fault Refusal :=
  .next (scalar (.kli m d i) (.k d.toNat) .none .none none (fun _ => Out.of (riImm m i).toNat 0 []) s)
/-- KHI (R88): 16 bits of A replaced by the immediate's low 16. -/
def execKhi (m : Mods) (n : BitVec 2) (d a i : BitVec 7) (s : State) : Host.Outcome State Fault Refusal :=
  .next (scalar (.khi m n d a i) (.k d.toNat) (srcR a 1) .none none (fun e =>
    let lo := 2 ^ (16 * n.toNat)
    Out.of (e.a.bits / (lo * 2 ^ 16) * (lo * 2 ^ 16) + (riImm m i).toNat % 2 ^ 16 * lo + e.a.bits % lo) 0 [e.a]) s)
/-- KMOV (R88). -/
def execKmov (m : Mods) (d a : BitVec 7) (s : State) : Host.Outcome State Fault Refusal :=
  .next (scalar (.kmov m d a) (.k d.toNat) (srcR a 1) .none none (fun e => Out.of e.a.bits 0 [e.a]) s)
/-- KFROMV (R88): 0 `.n32`, 1 `.s32`, 2 `.b64`. -/
def execKfromv (m : Mods) (f : BitVec 3) (d a : BitVec 7) (s : State) : Host.Outcome State Fault Refusal :=
  .next (scalar (.kfromv m f d a) (.k d.toNat) (srcR a (if f = 2#3 then 2 else 1)) .none none (fun e =>
    Out.of (if f = 1#3 then ofInt 64 (toSigned 32 e.a.bits) else e.a.bits) 0 [e.a]) s)
/-- Bits [23:0] of the fibre control word (R24). -/
def Fcw.low (c : Fcw) : Nat := c.q.toNat + c.qg.toNat * 2 ^ 8 + c.qp.toNat * 2 ^ 16
/-- KFROMQ (R88): fn 0 reads Q with the ORed tags of all predicates; fn 1 reads the low control word as data. -/
def execKfromq (m : Mods) (f : BitVec 1) (d : BitVec 7) (s : State) : Host.Outcome State Fault Refusal :=
  let x := s.here
  .next (scalar (.kfromq m f d) (.k d.toNat) .none .none none (fun e =>
    let c := (x.fibre e.lane).cw
    if f = 1#1 then Out.of c.low 0 [] else ⟨⟨c.q.toNat, c.qg != 0, c.qp != 0⟩, 0, false⟩) s)
/-- KTOQ (R88): A ≠ 0, or with `.lsb` its low bit. -/
def execKtoq (m : Mods) (f : BitVec 1) (d a : BitVec 7) (s : State) : Host.Outcome State Fault Refusal :=
  .next (scalar (.ktoq m f d a) (.q d.toNat) (srcR a 1) .none none (fun e =>
    Out.of (if f = 1#1 then e.a.bits % 2 else if e.a.bits = 0 then 0 else 1) 0 [e.a]) s)

end Sys2Proof.Machine
end

