-- ==== Sys2Proof/Machine/VecInt.lean ====
section
/-! DEFINITION. Vector integer and predicate instructions (R157 to R162, R172). -/

namespace Sys2Proof.Machine

/-- A vector instruction of integer kind (R155). -/
def vec (i : Instr) (dst : Dst) (a b c : Src) (q : Option Nat) (op : Env → Out) (s : State) : State :=
  s.alu ⟨i, dst, a, b, c, q, 1, false, false, false, 0, fun _ e => op e⟩

/-- A source as an integer of an ity code (R146). -/
def ival (t : BitVec 3) (v : Val) : Int := intVal (ityWidth t.toNat) (itySigned t.toNat) v.bits
/-- A source as the bit pattern of an ity code's width. -/
def ibits (t : BitVec 3) (v : Val) : Nat := v.bits % 2 ^ ityWidth t.toNat
/-- A result of an ity code in its element (R146, R157). -/
def ires (t : BitVec 3) (sat : Bool) (x : Int) : Nat := narrowInt (ityWidth t.toNat) (itySigned t.toNat) sat x

/-- Two integer sources of an ity code and a result of it. -/
def vec2 (i : Instr) (m : Mods) (t : BitVec 3) (d a b : BitVec 7) (op : Bool → Int → Int → Int) (s : State) : State :=
  vec i (.v d.toNat (ityRows t)) (srcR a (ityRows t)) (srcB' m b (ityRows t)) .none none
    (fun e => Out.of (ires t e.sat (op e.sat (ival t e.a) (ival t e.b))) 0 [e.a, e.b]) s
/-- One integer source of an ity code and a result of it. -/
def vec1 (i : Instr) (t : BitVec 3) (d a : BitVec 7) (op : Int → Int) (s : State) : State :=
  vec i (.v d.toNat (ityRows t)) (srcR a (ityRows t)) .none .none none (fun e => Out.of (ires t e.sat (op (ival t e.a))) 0 [e.a]) s
/-- A bitwise instruction on patterns of the width (R159). -/
def vecBits (i : Instr) (m : Mods) (t : BitVec 3) (d a b : BitVec 7) (op : Nat → Nat → Nat) (s : State) : State :=
  vec i (.v d.toNat (ityRows t)) (srcR a (ityRows t)) (srcB' m b (ityRows t)) .none none
    (fun e => Out.of (ires t false ((op (ibits t e.a) (ibits t e.b) : Nat) : Int)) 0 [e.a, e.b]) s
/-- A shift or rotate by B mod w, the count being one element (R146, R159). -/
def vecShift (i : Instr) (m : Mods) (t : BitVec 3) (d a b : BitVec 7) (op : Nat → Nat → Int) (s : State) : State :=
  vec i (.v d.toNat (ityRows t)) (srcR a (ityRows t)) (srcB' m b 1) .none none
    (fun e => Out.of (ires t e.sat (op (ibits t e.a) (e.b.bits % ityWidth t.toNat))) 0 [e.a, e.b]) s
/-- A count, which is one element (R146, R159). -/
def vecCount (i : Instr) (t : BitVec 3) (d a : BitVec 7) (op : Nat → Nat → Nat) (s : State) : State :=
  vec i (.v d.toNat 1) (srcR a (ityRows t)) .none .none none (fun e => Out.of (op (ityWidth t.toNat) (ibits t e.a)) 0 [e.a]) s
/-- A compare, which writes a predicate (R160). -/
def vecCmp (i : Instr) (m : Mods) (t : BitVec 3) (d a b : BitVec 7) (op : Int → Int → Bool) (s : State) : State :=
  vec i (.q d.toNat) (srcR a (ityRows t)) (srcB' m b (ityRows t)) .none none
    (fun e => Out.of (if op (ival t e.a) (ival t e.b) then 1 else 0) 0 [e.a, e.b]) s
/-- Bit i of the result is bit w - 1 - i of the value (R159). -/
def bitReverse (w x : Nat) : Nat := ((upTo w).map (fun i => if bitAt x (w - 1 - i) then 2 ^ i else 0)).sum

/-- VADD (R157). -/
def execVadd (m : Mods) (t : BitVec 3) (d a b : BitVec 7) (s : State) : Host.Outcome State Fault Refusal :=
  .next (vec2 (.vadd m t d a b) m t d a b (fun _ x y => x + y) s)
/-- VSUB (R157). -/
def execVsub (m : Mods) (t : BitVec 3) (d a b : BitVec 7) (s : State) : Host.Outcome State Fault Refusal :=
  .next (vec2 (.vsub m t d a b) m t d a b (fun _ x y => x - y) s)
/-- VMUL (R157). -/
def execVmul (m : Mods) (t : BitVec 3) (d a b : BitVec 7) (s : State) : Host.Outcome State Fault Refusal :=
  .next (vec2 (.vmul m t d a b) m t d a b (fun _ x y => x * y) s)
/-- VMULH (R157). The high half of the double-width product. -/
def execVmulh (m : Mods) (t : BitVec 3) (d a b : BitVec 7) (s : State) : Host.Outcome State Fault Refusal :=
  .next (vec2 (.vmulh m t d a b) m t d a b (fun _ x y => x * y / ((2 ^ ityWidth t.toNat : Nat) : Int)) s)
/-- VMAD (R157). One clamp of the exact value with sat. -/
def execVmad (m : Mods) (t : BitVec 3) (d a b : BitVec 7) (s : State) : Host.Outcome State Fault Refusal :=
  .next (vec (.vmad m t d a b) (.v d.toNat (ityRows t)) (srcR a (ityRows t)) (srcB' m b (ityRows t)) (srcC' m d (ityRows t)) none
    (fun e => Out.of (ires t e.sat (ival t e.a * ival t e.b + ival t e.c)) 0 [e.a, e.b, e.c]) s)
/-- VDIV (R158). -/
def execVdiv (m : Mods) (t : BitVec 3) (d a b : BitVec 7) (s : State) : Host.Outcome State Fault Refusal :=
  .next (vec (.vdiv m t d a b) (.v d.toNat (ityRows t)) (srcR a (ityRows t)) (srcB' m b (ityRows t)) .none none
    (fun e => { Out.of (ires t false (divRem (ityWidth t.toNat) (itySigned t.toNat) (ival t e.a) (ival t e.b)).1) 0 [e.a, e.b] with
      divz := ival t e.b == 0 }) s)
/-- VREM (R158). -/
def execVrem (m : Mods) (t : BitVec 3) (d a b : BitVec 7) (s : State) : Host.Outcome State Fault Refusal :=
  .next (vec (.vrem m t d a b) (.v d.toNat (ityRows t)) (srcR a (ityRows t)) (srcB' m b (ityRows t)) .none none
    (fun e => { Out.of (ires t false (divRem (ityWidth t.toNat) (itySigned t.toNat) (ival t e.a) (ival t e.b)).2) 0 [e.a, e.b] with
      divz := ival t e.b == 0 }) s)
/-- VMIN (R157). -/
def execVmin (m : Mods) (t : BitVec 3) (d a b : BitVec 7) (s : State) : Host.Outcome State Fault Refusal :=
  .next (vec2 (.vmin m t d a b) m t d a b (fun _ x y => if x ≤ y then x else y) s)
/-- VMAX (R157). -/
def execVmax (m : Mods) (t : BitVec 3) (d a b : BitVec 7) (s : State) : Host.Outcome State Fault Refusal :=
  .next (vec2 (.vmax m t d a b) m t d a b (fun _ x y => if x ≤ y then y else x) s)
/-- VABS (R157). The least signed value gives itself, or with sat the greatest. -/
def execVabs (m : Mods) (t : BitVec 3) (d a : BitVec 7) (s : State) : Host.Outcome State Fault Refusal :=
  .next (vec1 (.vabs m t d a) t d a (fun x => if x < 0 then -x else x) s)
/-- VAND (R159). -/
def execVand (m : Mods) (t : BitVec 3) (d a b : BitVec 7) (s : State) : Host.Outcome State Fault Refusal :=
  .next (vecBits (.vand m t d a b) m t d a b Nat.land s)
/-- VOR (R159). -/
def execVor (m : Mods) (t : BitVec 3) (d a b : BitVec 7) (s : State) : Host.Outcome State Fault Refusal :=
  .next (vecBits (.vor m t d a b) m t d a b Nat.lor s)
/-- VXOR (R159). -/
def execVxor (m : Mods) (t : BitVec 3) (d a b : BitVec 7) (s : State) : Host.Outcome State Fault Refusal :=
  .next (vecBits (.vxor m t d a b) m t d a b Nat.xor s)
/-- VNOT (R159). The complement of a two's-complement pattern. -/
def execVnot (m : Mods) (t : BitVec 3) (d a : BitVec 7) (s : State) : Host.Outcome State Fault Refusal :=
  .next (vec1 (.vnot m t d a) t d a (fun x => -x - 1) s)
/-- VSHL (R159). -/
def execVshl (m : Mods) (t : BitVec 3) (d a b : BitVec 7) (s : State) : Host.Outcome State Fault Refusal :=
  .next (vec (.vshl m t d a b) (.v d.toNat (ityRows t)) (srcR a (ityRows t)) (srcB' m b 1) .none none
    (fun e => Out.of (ires t e.sat (ival t e.a * ((2 ^ (e.b.bits % ityWidth t.toNat) : Nat) : Int))) 0 [e.a, e.b]) s)
/-- VSHR (R159). -/
def execVshr (m : Mods) (t : BitVec 3) (d a b : BitVec 7) (s : State) : Host.Outcome State Fault Refusal :=
  .next (vecShift (.vshr m t d a b) m t d a b (fun x n => ((x / 2 ^ n : Nat) : Int)) s)
/-- VSRA (R159). -/
def execVsra (m : Mods) (t : BitVec 3) (d a b : BitVec 7) (s : State) : Host.Outcome State Fault Refusal :=
  .next (vecShift (.vsra m t d a b) m t d a b (fun x n => toSigned (ityWidth t.toNat) x / ((2 ^ n : Nat) : Int)) s)
/-- VROT (R159). -/
def execVrot (m : Mods) (t : BitVec 3) (d a b : BitVec 7) (s : State) : Host.Outcome State Fault Refusal :=
  .next (vecShift (.vrot m t d a b) m t d a b (fun x n => ((x * 2 ^ n + x / 2 ^ (ityWidth t.toNat - n) : Nat) : Int)) s)
/-- VCLZ (R159). -/
def execVclz (m : Mods) (t : BitVec 3) (d a : BitVec 7) (s : State) : Host.Outcome State Fault Refusal :=
  .next (vecCount (.vclz m t d a) t d a leadingZeros s)
/-- VPOPC (R159). -/
def execVpopc (m : Mods) (t : BitVec 3) (d a : BitVec 7) (s : State) : Host.Outcome State Fault Refusal :=
  .next (vecCount (.vpopc m t d a) t d a ones s)
/-- VBREV (R159). -/
def execVbrev (m : Mods) (t : BitVec 3) (d a : BitVec 7) (s : State) : Host.Outcome State Fault Refusal :=
  .next (vec (.vbrev m t d a) (.v d.toNat (ityRows t)) (srcR a (ityRows t)) .none .none none
    (fun e => Out.of (ires t false ((bitReverse (ityWidth t.toNat) (ibits t e.a) : Nat) : Int)) 0 [e.a]) s)
/-- VSEL (R161). Tags come from the predicate and the selected source only. -/
def execVsel (m : Mods) (q : BitVec 3) (d a b : BitVec 7) (s : State) : Host.Outcome State Fault Refusal :=
  .next (vec (.vsel m q d a b) (.v d.toNat 1) (srcR a 1) (srcB' m b 1) .none (some q.toNat)
    (fun e => let x := if e.q.bits = 1 then e.a else e.b
      Out.of x.bits 0 [e.q, x]) s)
/-- VMOV (R161). -/
def execVmov (m : Mods) (w : BitVec 1) (d a : BitVec 7) (s : State) : Host.Outcome State Fault Refusal :=
  .next (vec (.vmov m w d a) (.v d.toNat (rows64 w)) (srcR a (rows64 w)) .none .none none (fun e => Out.of e.a.bits 0 [e.a]) s)
/-- VBCAST (R161). -/
def execVbcast (m : Mods) (w : BitVec 1) (d a : BitVec 7) (s : State) : Host.Outcome State Fault Refusal :=
  .next (vec (.vbcast m w d a) (.v d.toNat (rows64 w)) (srcR a 1) .none .none none (fun e => Out.of e.a.bits 0 [e.a]) s)
/-- VLI (R161). Tags clear. -/
def execVli (m : Mods) (d i : BitVec 7) (s : State) : Host.Outcome State Fault Refusal :=
  .next (vec (.vli m d i) (.v d.toNat 1) .none .none .none none (fun _ => Out.of (riImm m i).toNat 0 []) s)
/-- VLI_HI (R161). Bits [15:0] and the tags of d are kept. -/
def execVliHi (m : Mods) (d i : BitVec 7) (s : State) : Host.Outcome State Fault Refusal :=
  .next (vec (.vliHi m d i) (.v d.toNat 1) .none .none .none none
    (fun e => Out.of ((riImm m i).toNat % 2 ^ 16 * 2 ^ 16 + e.d.bits % 2 ^ 16) 0 [e.d]) s)
/-- VCMP_EQ (R160). -/
def execVcmpEq (m : Mods) (t : BitVec 3) (d a b : BitVec 7) (s : State) : Host.Outcome State Fault Refusal :=
  .next (vecCmp (.vcmpEq m t d a b) m t d a b (fun x y => decide (x = y)) s)
/-- VCMP_NE (R160). -/
def execVcmpNe (m : Mods) (t : BitVec 3) (d a b : BitVec 7) (s : State) : Host.Outcome State Fault Refusal :=
  .next (vecCmp (.vcmpNe m t d a b) m t d a b (fun x y => decide (x ≠ y)) s)
/-- VCMP_LT (R160). -/
def execVcmpLt (m : Mods) (t : BitVec 3) (d a b : BitVec 7) (s : State) : Host.Outcome State Fault Refusal :=
  .next (vecCmp (.vcmpLt m t d a b) m t d a b (fun x y => decide (x < y)) s)
/-- VCMP_LE (R160). -/
def execVcmpLe (m : Mods) (t : BitVec 3) (d a b : BitVec 7) (s : State) : Host.Outcome State Fault Refusal :=
  .next (vecCmp (.vcmpLe m t d a b) m t d a b (fun x y => decide (x ≤ y)) s)
/-- VCMP_GT (R160). -/
def execVcmpGt (m : Mods) (t : BitVec 3) (d a b : BitVec 7) (s : State) : Host.Outcome State Fault Refusal :=
  .next (vecCmp (.vcmpGt m t d a b) m t d a b (fun x y => decide (x > y)) s)
/-- VCMP_GE (R160). -/
def execVcmpGe (m : Mods) (t : BitVec 3) (d a b : BitVec 7) (s : State) : Host.Outcome State Fault Refusal :=
  .next (vecCmp (.vcmpGe m t d a b) m t d a b (fun x y => decide (x ≥ y)) s)
/-- VCVTI (R162). -/
def execVcvti (m : Mods) (t : BitVec 3) (d a : BitVec 7) (src : BitVec 3) (s : State) : Host.Outcome State Fault Refusal :=
  .next (vec (.vcvti m t d a src) (.v d.toNat (ityRows t)) (srcR a (ityRows src)) .none .none none
    (fun e => Out.of (ires t e.sat (ival src e.a)) 0 [e.a]) s)

/-- A predicate instruction on two predicates (R172). -/
def pred (i : Instr) (d a b : BitVec 7) (op : Nat → Nat → Nat) (s : State) : State :=
  vec i (.q d.toNat) (srcR a 1) (srcR b 1) .none none (fun e => Out.of (op e.a.bits e.b.bits) 0 [e.a, e.b]) s
/-- QAND (R172). -/
def execQand (m : Mods) (d a b : BitVec 7) (s : State) : Host.Outcome State Fault Refusal :=
  .next (pred (.qand m d a b) d a b Nat.land s)
/-- QOR (R172). -/
def execQor (m : Mods) (d a b : BitVec 7) (s : State) : Host.Outcome State Fault Refusal :=
  .next (pred (.qor m d a b) d a b Nat.lor s)
/-- QXOR (R172): of a predicate with itself into itself it clears the predicate together with its tags. -/
def execQxor (m : Mods) (d a b : BitVec 7) (s : State) : Host.Outcome State Fault Refusal :=
  .next (vec (.qxor m d a b) (.q d.toNat) (srcR a 1) (srcR b 1) .none none
    (fun e => Out.of (Nat.xor e.a.bits e.b.bits) 0 (if d = a ∧ a = b then [] else [e.a, e.b])) s)
/-- QNOT (R172). -/
def execQnot (m : Mods) (d a : BitVec 7) (s : State) : Host.Outcome State Fault Refusal :=
  .next (vec (.qnot m d a) (.q d.toNat) (srcR a 1) .none .none none (fun e => Out.of (1 - e.a.bits) 0 [e.a]) s)
/-- QMOV (R172). -/
def execQmov (m : Mods) (d a : BitVec 7) (s : State) : Host.Outcome State Fault Refusal :=
  .next (vec (.qmov m d a) (.q d.toNat) (srcR a 1) .none .none none (fun e => Out.of e.a.bits 0 [e.a]) s)

end Sys2Proof.Machine
end

