-- ==== Sys2Proof/Machine/VecFloat.lean ====
section
/-! DEFINITION. Vector floating-point and packed instructions (R163 to R171). -/

namespace Sys2Proof.Machine

/-- A floating-point instruction (R153, R155). -/
def flt (i : Instr) (dst : Dst) (a b c : Src) (warn : W32) (op : Env → Out) (s : State) : State :=
  s.alu ⟨i, dst, a, b, c, none, 1, true, false, false, warn, fun _ e => op e⟩

/-- The format of a two-bit fty code. -/
def fty (t : BitVec 2) : Fmt := ftyFmt t.toNat
/-- A result with its flags and the tags of its sources. -/
def Out.fp (r : Nat × Nat) (srcs : List Val) : Out := Out.of r.1 r.2 srcs

/-- A floating-point instruction on A and B whose result has the format of its sources. -/
def flt2 (i : Instr) (m : Mods) (t : BitVec 2) (d a b : BitVec 7) (op : Env → Num → Num → Nat × Nat) (s : State) : State :=
  flt i (.v d.toNat (ftyRows t)) (srcR a (ftyRows t)) (srcF m b (fty t)) .none (immWarn m b (fty t))
    (fun e => Out.fp (op e ((fty t).of e.a) ((fty t).of e.b)) [e.a, e.b]) s
/-- An instruction on the bit patterns of A and B (R164, R165). -/
def fltBits (i : Instr) (m : Mods) (t : BitVec 2) (d a b : BitVec 7) (op : Nat → Nat → Nat × Nat) (s : State) : State :=
  flt i (.v d.toNat (ftyRows t)) (srcR a (ftyRows t)) (srcF m b (fty t)) .none (immWarn m b (fty t))
    (fun e => Out.fp (op (e.a.bits % 2 ^ (fty t).width) (e.b.bits % 2 ^ (fty t).width)) [e.a, e.b]) s
/-- A compare, which writes a predicate (R166). -/
def fltCmp (i : Instr) (m : Mods) (t : BitVec 2) (d a b : BitVec 7) (c : Nat) (s : State) : State :=
  flt i (.q d.toNat) (srcR a (ftyRows t)) (srcF m b (fty t)) .none (immWarn m b (fty t))
    (fun e => let r := fcompare c ((fty t).of e.a) ((fty t).of e.b)
      Out.fp (if r.1 then 1 else 0, r.2) [e.a, e.b]) s
/-- The sign bit of a pattern replaced (R165). -/
def withSign (f : Fmt) (x : Nat) (neg : Bool) : Nat := x % 2 ^ (f.width - 1) + (if neg then 2 ^ (f.width - 1) else 0)

/-- FADD (R163). -/
def execFadd (m : Mods) (t : BitVec 2) (d a b : BitVec 7) (s : State) : Host.Outcome State Fault Refusal :=
  .next (flt2 (.fadd m t d a b) m t d a b (fun e x y => (fty t).add e.rm e.sat e.rand0 x y) s)
/-- FSUB (R163). -/
def execFsub (m : Mods) (t : BitVec 2) (d a b : BitVec 7) (s : State) : Host.Outcome State Fault Refusal :=
  .next (flt2 (.fsub m t d a b) m t d a b (fun e x y => (fty t).add e.rm e.sat e.rand0 x y.negate) s)
/-- FMUL (R163). -/
def execFmul (m : Mods) (t : BitVec 2) (d a b : BitVec 7) (s : State) : Host.Outcome State Fault Refusal :=
  .next (flt2 (.fmul m t d a b) m t d a b (fun e x y => (fty t).mul e.rm e.sat e.rand0 x y) s)
/-- FFMA (R163). One rounding. -/
def execFfma (m : Mods) (t : BitVec 2) (d a b : BitVec 7) (s : State) : Host.Outcome State Fault Refusal :=
  .next (flt (.ffma m t d a b) (.v d.toNat (ftyRows t)) (srcR a (ftyRows t)) (srcF m b (fty t)) (srcC' m d (ftyRows t)) (immWarn m b (fty t))
    (fun e => Out.fp ((fty t).fma e.rm e.sat e.rand0 ((fty t).of e.a) ((fty t).of e.b) ((fty t).of e.c)) [e.a, e.b, e.c]) s)
/-- FMIN (R164). -/
def execFmin (m : Mods) (t : BitVec 2) (d a b : BitVec 7) (s : State) : Host.Outcome State Fault Refusal :=
  .next (fltBits (.fmin m t d a b) m t d a b (fun x y => (fty t).minmax false x y) s)
/-- FMAX (R164). -/
def execFmax (m : Mods) (t : BitVec 2) (d a b : BitVec 7) (s : State) : Host.Outcome State Fault Refusal :=
  .next (fltBits (.fmax m t d a b) m t d a b (fun x y => (fty t).minmax true x y) s)
/-- FSGN (R165). -/
def execFsgn (m : Mods) (t : BitVec 2) (d a b : BitVec 7) (s : State) : Host.Outcome State Fault Refusal :=
  .next (fltBits (.fsgn m t d a b) m t d a b (fun x y => (withSign (fty t) x (bitAt y ((fty t).width - 1)), 0)) s)
/-- FSGN_NEG (R165). -/
def execFsgnNeg (m : Mods) (t : BitVec 2) (d a b : BitVec 7) (s : State) : Host.Outcome State Fault Refusal :=
  .next (fltBits (.fsgnNeg m t d a b) m t d a b (fun x y => (withSign (fty t) x (!bitAt y ((fty t).width - 1)), 0)) s)
/-- FSGN_XOR (R165). -/
def execFsgnXor (m : Mods) (t : BitVec 2) (d a b : BitVec 7) (s : State) : Host.Outcome State Fault Refusal :=
  .next (fltBits (.fsgnXor m t d a b) m t d a b (fun x y => (withSign (fty t) x (bitAt x ((fty t).width - 1) != bitAt y ((fty t).width - 1)), 0)) s)
/-- FCMP_EQ (R166). -/
def execFcmpEq (m : Mods) (t : BitVec 2) (d a b : BitVec 7) (s : State) : Host.Outcome State Fault Refusal :=
  .next (fltCmp (.fcmpEq m t d a b) m t d a b 0 s)
/-- FCMP_NE (R166). -/
def execFcmpNe (m : Mods) (t : BitVec 2) (d a b : BitVec 7) (s : State) : Host.Outcome State Fault Refusal :=
  .next (fltCmp (.fcmpNe m t d a b) m t d a b 1 s)
/-- FCMP_LT (R166). -/
def execFcmpLt (m : Mods) (t : BitVec 2) (d a b : BitVec 7) (s : State) : Host.Outcome State Fault Refusal :=
  .next (fltCmp (.fcmpLt m t d a b) m t d a b 2 s)
/-- FCMP_LE (R166). -/
def execFcmpLe (m : Mods) (t : BitVec 2) (d a b : BitVec 7) (s : State) : Host.Outcome State Fault Refusal :=
  .next (fltCmp (.fcmpLe m t d a b) m t d a b 3 s)
/-- FCMP_GT (R166). -/
def execFcmpGt (m : Mods) (t : BitVec 2) (d a b : BitVec 7) (s : State) : Host.Outcome State Fault Refusal :=
  .next (fltCmp (.fcmpGt m t d a b) m t d a b 4 s)
/-- FCMP_GE (R166). -/
def execFcmpGe (m : Mods) (t : BitVec 2) (d a b : BitVec 7) (s : State) : Host.Outcome State Fault Refusal :=
  .next (fltCmp (.fcmpGe m t d a b) m t d a b 5 s)
/-- FCMP_UN (R166). -/
def execFcmpUn (m : Mods) (t : BitVec 2) (d a b : BitVec 7) (s : State) : Host.Outcome State Fault Refusal :=
  .next (fltCmp (.fcmpUn m t d a b) m t d a b 6 s)
/-- FCMP_OR (R166). -/
def execFcmpOr (m : Mods) (t : BitVec 2) (d a b : BitVec 7) (s : State) : Host.Outcome State Fault Refusal :=
  .next (fltCmp (.fcmpOr m t d a b) m t d a b 7 s)
/-- FCLASS (R167). -/
def execFclass (m : Mods) (t : BitVec 2) (d a : BitVec 7) (s : State) : Host.Outcome State Fault Refusal :=
  .next (flt (.fclass m t d a) (.v d.toNat 1) (srcR a (ftyRows t)) .none .none 0
    (fun e => Out.of ((fty t).classOf (e.a.bits % 2 ^ (fty t).width)) 0 [e.a]) s)
/-- FCVT (R169). -/
def execFcvt (m : Mods) (f : BitVec 3) (d a : BitVec 7) (src : BitVec 3) (s : State) : Host.Outcome State Fault Refusal :=
  .next (flt (.fcvt m f d a src) (.v d.toNat (ftyRows3 f)) (srcR a (ftyRows3 src)) .none .none 0
    (fun e => Out.fp ((ftyFmt f.toNat).convert e.rm e.sat e.rand0 ((ftyFmt src.toNat).of e.a)) [e.a]) s)
/-- FCVT_TO_INT (R169). -/
def execFcvtToInt (m : Mods) (f : BitVec 3) (d a : BitVec 7) (src : BitVec 3) (s : State) : Host.Outcome State Fault Refusal :=
  .next (flt (.fcvtToInt m f d a src) (.v d.toNat (ityRows f)) (srcR a (ftyRows3 src)) .none .none 0
    (fun e => let r := toInteger (ityWidth f.toNat) (itySigned f.toNat) e.rm e.sat e.rand0 ((ftyFmt src.toNat).of e.a)
      Out.of (ires f false r.1) r.2 [e.a]) s)
/-- FCVT_FROM_INT (R169). -/
def execFcvtFromInt (m : Mods) (f : BitVec 3) (d a : BitVec 7) (src : BitVec 3) (s : State) : Host.Outcome State Fault Refusal :=
  .next (flt (.fcvtFromInt m f d a src) (.v d.toNat (ftyRows3 f)) (srcR a (ityRows src)) .none .none 0
    (fun e => Out.fp ((ftyFmt f.toNat).ofInteger e.rm e.sat e.rand0 (ival src e.a)) [e.a]) s)
/-- FRND (R168). -/
def execFrnd (m : Mods) (t : BitVec 2) (d a : BitVec 7) (s : State) : Host.Outcome State Fault Refusal :=
  .next (flt (.frnd m t d a) (.v d.toNat (ftyRows t)) (srcR a (ftyRows t)) .none .none 0
    (fun e => Out.fp ((fty t).rint e.rm e.rand0 (e.a.bits % 2 ^ (fty t).width)) [e.a]) s)

/-- The format of a packed instruction (R170). -/
def packFmt (f : BitVec 1) : Fmt := if f = 1#1 then bf16 else f16
/-- A half of an element. -/
def half (v : Val) (hi : Bool) : Nat := if hi then v.bits / 2 ^ 16 % 2 ^ 16 else v.bits % 2 ^ 16
/-- Two halves computed independently, their flags ORed (R170). -/
def packed (i : Instr) (m : Mods) (f : BitVec 1) (d a b : BitVec 7) (c : Src) (srcs : Env → List Val) (op : Env → Bool → Nat × Nat) (s : State) : State :=
  flt i (.v d.toNat 1) (srcR a 1) (srcH m b (packFmt f)) c (immWarn m b (packFmt f))
    (fun e => Out.fp ((op e false).1 + (op e true).1 * 2 ^ 16, Nat.lor (op e false).2 (op e true).2) (srcs e)) s
/-- The draw of a half (R150). -/
def Env.draw (e : Env) (hi : Bool) : Nat := if hi then e.rand1 else e.rand0
/-- HADD2 (R170). -/
def execHadd2 (m : Mods) (f : BitVec 1) (d a b : BitVec 7) (s : State) : Host.Outcome State Fault Refusal :=
  .next (packed (.hadd2 m f d a b) m f d a b .none (fun e => [e.a, e.b]) (fun e h => (packFmt f).add e.rm e.sat (e.draw h) ((packFmt f).num (half e.a h)) ((packFmt f).num (half e.b h))) s)
/-- HMUL2 (R170). -/
def execHmul2 (m : Mods) (f : BitVec 1) (d a b : BitVec 7) (s : State) : Host.Outcome State Fault Refusal :=
  .next (packed (.hmul2 m f d a b) m f d a b .none (fun e => [e.a, e.b]) (fun e h => (packFmt f).mul e.rm e.sat (e.draw h) ((packFmt f).num (half e.a h)) ((packFmt f).num (half e.b h))) s)
/-- HFMA2 (R170). -/
def execHfma2 (m : Mods) (f : BitVec 1) (d a b : BitVec 7) (s : State) : Host.Outcome State Fault Refusal :=
  .next (packed (.hfma2 m f d a b) m f d a b (srcC' m d 1) (fun e => [e.a, e.b, e.c])
    (fun e h => (packFmt f).fma e.rm e.sat (e.draw h) ((packFmt f).num (half e.a h)) ((packFmt f).num (half e.b h)) ((packFmt f).num (half e.c h))) s)
/-- The condition of HCMP2 as one of FCMP (R171): 0 eq, 1 lt, 2 le, 3 un. -/
def halfCond (c : BitVec 2) : Nat := match c.toNat with | 0 => 0 | 1 => 2 | 2 => 3 | _ => 6
/-- HCMP2 (R171). -/
def execHcmp2 (m : Mods) (c : BitVec 2) (f : BitVec 1) (d a b : BitVec 7) (s : State) : Host.Outcome State Fault Refusal :=
  .next (packed (.hcmp2 m c f d a b) m f d a b .none (fun e => [e.a, e.b])
    (fun e h => let r := fcompare (halfCond c) ((packFmt f).num (half e.a h)) ((packFmt f).num (half e.b h))
      (if r.1 then 0xFFFF else 0, r.2)) s)

end Sys2Proof.Machine
end

