-- ==== Sys2Proof/Machine/Lanes.lean ====
section
/-! DEFINITION. The accumulator file (R177 to R183) and the cross-lane network (R185 to R192). -/

namespace Sys2Proof.Machine

/-- A 64-bit sum wrapped or, with sat, clamped to .s64 (R179 to R181). -/
def wrap64 (sat : Bool) (x : Int) : Nat := ofInt 64 (if sat then clamp 64 true x else x)
/-- The format of WMAD's fn, where it names one (R178). -/
def wmadFmt (f : BitVec 3) : Fmt := match f.toNat with | 0 => f32 | 1 => f16 | _ => bf16
/-- The width and signedness of WMAD's integer fn (R178): 3 .s8, 4 .s16, 5 .n16, 6 .s32, 7 .n32. -/
def wmadInt (f : BitVec 3) (v : Val) : Int :=
  match f.toNat with | 3 => intVal 8 true v.bits | 4 => intVal 16 true v.bits | 5 => intVal 16 false v.bits | 6 => intVal 32 true v.bits | _ => intVal 32 false v.bits

/-- WMAD (R179). The product is exact, and the sum is rounded once to binary64, or is an INT64. -/
def execWmad (m : Mods) (f : BitVec 3) (w : BitVec 4) (a b : BitVec 7) (s : State) : Host.Outcome State Fault Refusal :=
  .next ((if f < 3#3 then
      flt (.wmad m f w a b) (.w w.toNat) (srcR a 1) (srcF m b (wmadFmt f)) .none (immWarn m b (wmadFmt f))
        (fun e => Out.fp (f64.fma e.rm e.sat e.rand0 ((wmadFmt f).of e.a) ((wmadFmt f).of e.b) (f64.of e.d)) [e.a, e.b, e.d])
    else
      vec (.wmad m f w a b) (.w w.toNat) (srcR a 1) (srcB' m b 1) .none none
        (fun e => Out.of (wrap64 e.sat (toSigned 64 e.d.bits + wmadInt f e.a * wmadInt f e.b)) 0 [e.a, e.b, e.d])) s)
/-- The products of WDOT4 (R180): 0 .s8, 1 .n8, 2 .s8n8, 3 .s16, 4 .n16. -/
def dotProducts (f : BitVec 3) (a b : Nat) : Int :=
  let part := fun (w i x : Nat) (signed : Bool) => intVal w signed (x / 2 ^ (w * i))
  match f.toNat with
  | 0 => ((upTo 4).map (fun i => part 8 i a true * part 8 i b true)).sum
  | 1 => ((upTo 4).map (fun i => part 8 i a false * part 8 i b false)).sum
  | 2 => ((upTo 4).map (fun i => part 8 i a true * part 8 i b false)).sum
  | 3 => ((upTo 2).map (fun i => part 16 i a true * part 16 i b true)).sum
  | _ => ((upTo 2).map (fun i => part 16 i a false * part 16 i b false)).sum
/-- WDOT4 (R180). -/
def execWdot4 (m : Mods) (f : BitVec 3) (w : BitVec 4) (a b : BitVec 7) (s : State) : Host.Outcome State Fault Refusal :=
  .next (vec (.wdot4 m f w a b) (.w w.toNat) (srcR a 1) (srcB' m b 1) .none none
    (fun e => Out.of (wrap64 e.sat (toSigned 64 e.d.bits + dotProducts f e.a.bits e.b.bits)) 0 [e.a, e.b, e.d]) s)
/-- WADD_ACCUMULATOR (R181). The destination's own tags are among the sources (R178). -/
def execWaddAccumulator (m : Mods) (f : BitVec 1) (d a b : BitVec 4) (s : State) : Host.Outcome State Fault Refusal :=
  .next (flt (.waddAccumulator m f d a b) (.w d.toNat) (.acc a.toNat) (.acc b.toNat) .none 0
    (fun e => if f = 0#1 then Out.fp (f64.add e.rm e.sat e.rand0 (f64.of e.a) (f64.of e.b)) [e.a, e.b, e.d]
      else Out.of (wrap64 e.sat (toSigned 64 e.a.bits + toSigned 64 e.b.bits)) 0 [e.a, e.b, e.d]) s)
/-- WCLR (R181). -/
def execWclr (m : Mods) (d : BitVec 4) (s : State) : Host.Outcome State Fault Refusal :=
  .next (vec (.wclr m d) (.w d.toNat) .none .none .none none (fun _ => Out.of 0 0 []) s)
/-- The format of NARROW's and WIDEN's fn 1 to 3 (R182, R183). -/
def narrowFmt (f : BitVec 3) : Fmt := match f.toNat with | 1 => f32 | 2 => f16 | _ => bf16
/-- The width of NARROW's and WIDEN's fn 4 to 7. -/
def narrowWidth (f : BitVec 3) : Nat := if f.toNat ≤ 5 then 32 else 16
/-- Whether that fn is signed. -/
def narrowSigned (f : BitVec 3) : Bool := f.toNat % 2 == 0
/-- NARROW (R182). -/
def execNarrow (m : Mods) (f : BitVec 3) (d : BitVec 7) (a : BitVec 4) (s : State) : Host.Outcome State Fault Refusal :=
  .next (flt (.narrow m f d a) (.v d.toNat (rows64 (bit (f = 0#3)))) (.acc a.toNat) .none .none 0
    (fun e => match f.toNat with
      | 0 => Out.of e.a.bits 0 [e.a]
      | 1 | 2 | 3 => Out.fp ((narrowFmt f).convert e.rm e.sat e.rand0 (f64.of e.a)) [e.a]
      | _ => Out.of (narrowInt (narrowWidth f) (narrowSigned f) e.sat (toSigned 64 e.a.bits)) 0 [e.a]) s)
/-- WIDEN (R183). -/
def execWiden (m : Mods) (f : BitVec 3) (d : BitVec 4) (a : BitVec 7) (s : State) : Host.Outcome State Fault Refusal :=
  .next (flt (.widen m f d a) (.w d.toNat) (srcR a (rows64 (bit (f = 0#3)))) .none .none 0
    (fun e => match f.toNat with
      | 0 => Out.of e.a.bits 0 [e.a]
      | 1 | 2 | 3 => Out.fp (f64.convert 0 false 0 ((narrowFmt f).of e.a)) [e.a]
      | _ => Out.of (ofInt 64 (intVal (narrowWidth f) (narrowSigned f) e.a.bits)) 0 [e.a]) s)

/-- A cross-lane instruction (R185, R186): the result of a lane from what every active lane reads, with the ORed tags of all sources of all
active lanes, mask predicates included. -/
def cross (i : Instr) (dst : Dst) (a b : Src) (fp : Bool) (srcs : Env → List Val) (op : List Env → Env → Nat × Nat) (s : State) : State :=
  let mask := (fallback i).2.mask
  let x := s.here
  let m := fun (e : Env) => (x.fibre e.lane).maskBit mask
  s.alu ⟨i, dst, a, b, .none, none, 1, fp, false, false, 0, fun all e =>
    let r := op all e
    ⟨⟨r.1, all.any (fun v => (srcs v).any Val.g || (m v).g), all.any (fun v => (srcs v).any Val.p || (m v).p)⟩, r.2, false⟩⟩

/-- What an active lane of a shuffle receives: the A of the source lane where that is active, else its own (R188). -/
def shuffle (from' : Nat → Nat → Int) (all : List Env) (e : Env) : Nat × Nat :=
  let j := from' e.lane (e.b.bits % 2 ^ 32)
  match all.find? (fun v => (v.lane : Int) == j) with
  | some v => (v.a.bits, 0)
  | none => (e.a.bits, 0)
/-- SHFL (R188). -/
def execShfl (m : Mods) (w : BitVec 1) (d a b : BitVec 7) (s : State) : Host.Outcome State Fault Refusal :=
  .next (cross (.shfl m w d a b) (.v d.toNat (rows64 w)) (srcR a (rows64 w)) (srcB' m b 1) false (fun e => [e.a, e.b])
    (shuffle (fun _ n => ((n % 32 : Nat) : Int))) s)
/-- SHFLX (R188). -/
def execShflx (m : Mods) (w : BitVec 1) (d a b : BitVec 7) (s : State) : Host.Outcome State Fault Refusal :=
  .next (cross (.shflx m w d a b) (.v d.toNat (rows64 w)) (srcR a (rows64 w)) (srcB' m b 1) false (fun e => [e.a, e.b])
    (shuffle (fun l n => ((Nat.xor l (n % 32) : Nat) : Int))) s)
/-- SHFLU (R188). -/
def execShflu (m : Mods) (w : BitVec 1) (d a b : BitVec 7) (s : State) : Host.Outcome State Fault Refusal :=
  .next (cross (.shflu m w d a b) (.v d.toNat (rows64 w)) (srcR a (rows64 w)) (srcB' m b 1) false (fun e => [e.a, e.b])
    (shuffle (fun l n => (l : Int) - (n : Int))) s)
/-- SHFLD (R188). -/
def execShfld (m : Mods) (w : BitVec 1) (d a b : BitVec 7) (s : State) : Host.Outcome State Fault Refusal :=
  .next (cross (.shfld m w d a b) (.v d.toNat (rows64 w)) (srcR a (rows64 w)) (srcB' m b 1) false (fun e => [e.a, e.b])
    (shuffle (fun l n => (l : Int) + (n : Int))) s)
/-- VOTE (R189). -/
def execVote (m : Mods) (f : BitVec 3) (d a : BitVec 7) (s : State) : Host.Outcome State Fault Refusal :=
  .next (cross (.vote m f d a) (.v d.toNat 1) (srcR a 1) .none false (fun e => [e.a])
    (fun all _ =>
      let set := all.filter (fun v => v.a.bits == 1)
      (match f.toNat with
        | 0 => if set.isEmpty then 0 else 1
        | 1 => if set.length = all.length then 1 else 0
        | 2 => maskOf (set.map Env.lane)
        | _ => set.length, 0)) s)
/-- The exact sum of binary32 values, rounded once (R190): NaN and infinities, zero signs, and a single contribution returned exact. -/
def sumF32 (rm : Nat) (sat : Bool) (rand : Nat) (l : List Num) : Nat × Nat :=
  let pos := l.any (fun v => v == .inf false)
  let neg := l.any (fun v => v == .inf true)
  if l.any Num.snan || (pos && neg) then (f32.nan, nv)
  else if l.any Num.isNan then (f32.nan, 0)
  else if pos then (f32.inf false, 0)
  else if neg then (f32.inf true, 0)
  else
    -- every finite binary32 value is an integer multiple of 2^-149
    let x : Int := (l.map (fun v => match v with | .fin n m e => (if n then (-1 : Int) else 1) * ((m * 2 ^ (e + 149).toNat : Nat) : Int) | _ => 0)).sum
    if x = 0 then (f32.zero (if l.all (fun v => v.isZero && v.neg) then true else if l.all (fun v => v.isZero && !v.neg) then false else rm == 3), 0)
    else f32.round rm sat rand (decide (x < 0)) x.natAbs (-149)

/-- One reduction (R190): 0 .add.s32, 1 .min.s32, 2 .max.s32, 3 .min.n32, 4 .max.n32, 5 .add.f32, 6 .min.f32, 7 .max.f32. -/
def reduce (f : BitVec 3) (rm : Nat) (sat : Bool) (rand : Nat) (l : List Nat) : Nat × Nat :=
  let fold := fun (signed : Bool) (max : Bool) =>
    ofInt 32 ((l.map (intVal 32 signed)).foldl (fun a x => if max then (if a < x then x else a) else (if x < a then x else a)) (intVal 32 signed (l.headD 0)))
  match f.toNat with
  | 0 => (narrowInt 32 true sat ((l.map (intVal 32 true)).sum), 0)
  | 1 => (fold true false, 0)
  | 2 => (fold true true, 0)
  | 3 => (fold false false, 0)
  | 4 => (fold false true, 0)
  | 5 => sumF32 rm sat rand (l.map f32.num)
  | k =>
    let flags := if l.any (fun x => (f32.num x).snan) then nv else 0
    if l.any (fun x => (f32.num x).isNan) then (f32.nan, flags)
    else (l.foldl (fun a x => (f32.minmax (k == 7) a x).1) (l.headD 0), 0)
/-- REDG (R190). One draw serves its single result. -/
def execRedg (m : Mods) (f : BitVec 3) (d a : BitVec 7) (s : State) : Host.Outcome State Fault Refusal :=
  .next (cross (.redg m f d a) (.v d.toNat 1) (srcR a 1) .none true (fun e => [e.a])
    (fun all e => reduce f e.rm e.sat ((all.map Env.rand0).headD 0) (all.map (fun v => v.a.bits % 2 ^ 32))) s)
/-- SCANG (R190). Each prefix has its own draw. -/
def execScang (m : Mods) (f : BitVec 3) (d a : BitVec 7) (s : State) : Host.Outcome State Fault Refusal :=
  .next (cross (.scang m f d a) (.v d.toNat 1) (srcR a 1) .none true (fun e => [e.a])
    (fun all e => reduce f e.rm e.sat e.rand0 ((all.filter (fun v => v.lane ≤ e.lane)).map (fun v => v.a.bits % 2 ^ 32))) s)
/-- MATCH (R191). -/
def execMatchLanes (m : Mods) (f : BitVec 1) (d a : BitVec 7) (s : State) : Host.Outcome State Fault Refusal :=
  .next (cross (.matchLanes m f d a) (.v d.toNat 1) (srcR a (rows64 f)) .none false (fun e => [e.a])
    (fun all e => let w := if f = 1#1 then 64 else 32
      (maskOf ((all.filter (fun v => v.a.bits % 2 ^ w == e.a.bits % 2 ^ w)).map Env.lane), 0)) s)
/-- The order-preserving key of a value (R192). -/
def orderKey (f : Fmt) (x : Nat) : Nat :=
  if (f.num x).isNan then 2 ^ f.width - 1 else if bitAt x (f.width - 1) then 2 ^ f.width - 1 - x else x + 2 ^ (f.width - 1)
/-- VKEY (R192). It reads its own lane only. -/
def execVkey (m : Mods) (t : BitVec 2) (d a : BitVec 7) (s : State) : Host.Outcome State Fault Refusal :=
  .next (vec (.vkey m t d a) (.v d.toNat (ftyRows t)) (srcR a (ftyRows t)) .none .none none
    (fun e => Out.of (orderKey (fty t) (e.a.bits % 2 ^ (fty t).width)) 0 [e.a]) s)

end Sys2Proof.Machine
end

