-- ==== Sys2Proof/Machine/Sfu.lean ====
section
/-! DEFINITION. The special-function unit (R173 to R176): the fixed results, the exact cases, and for every other input a result within the
bound, which is a free value (log entry 6). -/

namespace Sys2Proof.Machine

/-- The special functions (R173). -/
inductive Special where
  | rcp | rsq | sqrt | exp2 | log2 | sin | cos | tanh
  deriving DecidableEq, Repr

/-- The number of an operation in `Config.sfu`. -/
def Special.code : Special → Nat | .rcp => 0 | .rsq => 1 | .sqrt => 2 | .exp2 => 3 | .log2 => 4 | .sin => 5 | .cos => 6 | .tanh => 7

-- ## Fixed-point approximations, with 128 fraction bits

/-- 1 in fixed point. -/
def one128 : Nat := 2 ^ 128
/-- π in fixed point. -/
def pi128 : Nat := 1069028584064966747859680373161870783300
/-- The natural logarithm of 2 in fixed point. -/
def ln2 : Nat := 235865763225513294137944142764154484399
/-- The logarithm to base 2 of e in fixed point. -/
def log2e : Nat := 490923683258796565746369346286093237521

/-- The integer square root, from `n` bits of result downwards. -/
def isqrt (x : Nat) : Nat → Nat → Nat
  | 0, r => r
  | n + 1, r => let t := r + 2 ^ n; isqrt x n (if t * t ≤ x then t else r)

/-- The terms of the exponential series of a fixed-point number from the term `t` on. -/
def expTerms (x : Nat) : Nat → Nat → Nat → Nat
  | 0, _, _ => 0
  | n + 1, i, t => t + expTerms x n (i + 1) (t * x / one128 / (i + 1))

/-- 2 to a fixed-point power below 1, in fixed point. -/
def exp2Frac (f : Nat) : Nat := expTerms (f * ln2 / one128) 48 0 one128

/-- The alternating terms of a sine or cosine series: `i` is the degree of the term `t`. -/
def trigTerms (x : Nat) : Nat → Nat → Int → Int
  | 0, _, _ => 0
  | n + 1, i, t => t + trigTerms x n (i + 2) (-(t * ((x * x / one128 : Nat) : Int) / ((one128 * ((i + 1) * (i + 2)) : Nat) : Int)))

/-- The binary digits of the logarithm of a fixed-point number in [1, 2): `n` of them. -/
def logDigits : Nat → Nat → Nat
  | 0, _ => 0
  | n + 1, y => let z := y * y / one128; if z ≥ 2 * one128 then 2 ^ n + logDigits n (z / 2) else logDigits n z

/-- An exact number m × 2^e as a fixed-point number, rounded down. -/
def toFixed (m : Nat) (e : Int) : Nat := if e + 128 ≥ 0 then m * 2 ^ (e + 128).toNat else m / 2 ^ (-(e + 128)).toNat

/-- The sine of π/2 × a fixed-point number of at most 1. -/
def sinQuarter (x : Nat) : Int := let t := x * pi128 / (2 * one128); trigTerms t 24 1 (t : Int)
/-- The cosine likewise. -/
def cosQuarter (x : Nat) : Int := trigTerms (x * pi128 / (2 * one128)) 24 0 (one128 : Int)

/-- The sine of π × m × 2^e for a positive number, in fixed point: the number is reduced modulo 2 exactly. -/
def sinPi (m : Nat) (e : Int) (quarters : Nat) : Int :=
  let x := if e ≥ 1 then 0 else toFixed (m % 2 ^ (1 - e).toNat) e
  let q := (x / (one128 / 2) + quarters) % 4
  let r := 2 * (x % (one128 / 2))
  match q with | 0 => sinQuarter r | 1 => cosQuarter r | 2 => -sinQuarter r | _ => -cosQuarter r

/-- 2 to a power given by sign and fixed point, as a magnitude and exponent; powers far outside every format are cut. -/
def exp2Approx (neg : Bool) (x : Nat) : Nat × Int :=
  let i := x / one128
  let f := x % one128
  if i > 400 then (1, if neg then -400 else 400)
  else if neg then (if f = 0 then (one128, -(i : Int) - 128) else (exp2Frac (one128 - f), -(i : Int) - 129))
  else (exp2Frac f, (i : Int) - 128)

/-- The value of a special function of a finite non-zero number outside the fixed cases, as (negative, magnitude, exponent), to well within
the bounds of R175. -/
def Special.approx (k : Special) (n : Bool) (m : Nat) (e : Int) : Bool × Nat × Int :=
  match k with
  | .rcp => (n, 2 ^ 200 / m, -200 - e)
  | .sqrt =>
    let e' := if e % 2 = 0 then e else e - 1
    let m' := if e % 2 = 0 then m else 2 * m
    (false, isqrt (m' * 2 ^ 200) 140 0, (e' - 200) / 2)
  | .rsq =>
    let e' := if e % 2 = 0 then e else e - 1
    let m' := if e % 2 = 0 then m else 2 * m
    (false, isqrt (2 ^ 260 / m') 140 0, (-e' - 260) / 2)
  | .exp2 =>
    let x := toFixed m (if e > 20 then 20 else e)
    let r := exp2Approx n (if n && x == 0 then 1 else x)
    (false, r.1, r.2)
  | .log2 =>
    let top := Nat.log2 m
    let d := logDigits 100 (m * one128 / 2 ^ top)
    let x : Int := ((top : Int) + e) * ((2 ^ 100 : Nat) : Int) + (d : Int)
    (decide (x < 0), x.natAbs, -100)
  | .sin => let x := sinPi m e 0; (decide (x < 0) != n, x.natAbs, -128)
  | .cos => let x := sinPi m e 1; (decide (x < 0), x.natAbs, -128)
  | .tanh =>
    let x := toFixed m e
    if x > 40 * one128 then (n, one128 - 1, -128)
    else
      let p := exp2Approx false (2 * x * log2e / one128)
      let y := toFixed p.1 p.2
      (n, (y - one128) * one128 / (y + one128), -128)

-- ## Results

/-- Whether a finite value is an integer, and whether it is an even one. -/
def isIntegral (m : Nat) (e : Int) : Bool := decide (e ≥ 0) || m % 2 ^ (-e).toNat == 0
/-- See `isIntegral`. -/
def isEven (m : Nat) (e : Int) : Bool := decide (e ≥ 1) || m % 2 ^ (1 - e).toNat == 0
/-- Whether a finite value is an odd multiple of 0.5. -/
def isHalf (m : Nat) (e : Int) : Bool := !isIntegral m e && isIntegral (2 * m) e
/-- Whether a magnitude is a power of two, and its exponent. -/
def isPow2 (m : Nat) : Bool := m != 0 && m == 2 ^ Nat.log2 m
/-- Whether a magnitude is below 2^-12. -/
def isSmall (m : Nat) (e : Int) : Bool := decide ((Nat.log2 m : Int) + e < -12)

/-- The fixed results of R174: bits and flags in a format; none for the inputs of R175. -/
def Special.fixed (k : Special) (f : Fmt) (bits : Nat) : Option (Nat × Nat) :=
  let one := fun (n : Bool) => (f.convert 0 false 0 (.fin n 1 0)).1
  match f.num bits with
  | .nan s => some (f.nan, if s then nv else 0)
  | .inf n =>
    match k with
    | .rcp => some (f.zero n, 0)
    | .rsq => some (if n then (f.nan, nv) else (f.zero false, 0))
    | .sqrt => some (if n then (f.nan, nv) else (f.inf false, 0))
    | .exp2 => some (if n then f.zero false else f.inf false, 0)
    | .log2 => some (if n then (f.nan, nv) else (f.inf false, 0))
    | .sin => some (f.nan, nv)
    | .cos => some (f.nan, nv)
    | .tanh => some (one n, 0)
  | .fin n 0 _ =>
    match k with
    | .rcp => some (f.inf n, dz)
    | .rsq => some (f.inf n, dz)
    | .sqrt => some (f.zero n, 0)
    | .exp2 => some (one false, 0)
    | .log2 => some (f.inf true, dz)
    | .sin => some (f.zero n, 0)
    | .cos => some (one false, 0)
    | .tanh => some (f.zero n, 0)
  | .fin n m e =>
    match k with
    | .rsq => if n then some (f.nan, nv) else none
    | .sqrt => if n then some (f.nan, nv) else none
    | .log2 => if n then some (f.nan, nv) else if isPow2 m ∧ (Nat.log2 m : Int) + e = 0 then some (f.zero false, 0) else none
    | .sin => if isIntegral m e then some (f.zero n, 0) else none
    | .cos => if isHalf m e then some (f.zero false, 0) else if isIntegral m e then some (one (!isEven m e), 0) else none
    | .tanh => if isSmall m e then some (bits, 0) else none
    | _ => none

/-- The exact cases of R175 other than those that need a normal result, and those that do. -/
def Special.exact (k : Special) (n : Bool) (m : Nat) (e : Int) (normal : Bool) : Bool :=
  match k with
  | .rcp => isPow2 m && normal
  | .rsq => !n && isPow2 m && decide (((Nat.log2 m : Int) + e) % 2 = 0) && normal
  | .sqrt => !n && isPow2 m && decide (((Nat.log2 m : Int) + e) % 2 = 0) && normal
  | .exp2 => isIntegral m e && normal
  | .log2 => isPow2 m
  | _ => false

/-- Whether a binary32 result lies within the bound of R175 of a value. -/
def Special.within (k : Special) (input : Nat × Int) (r : Nat) (v : Bool × Nat × Int) : Bool :=
  match f32.num r with
  | .fin n m e =>
    let d := exactAdd 0 n m e (!v.1) v.2.1 v.2.2
    let top : Int := (Nat.log2 v.2.1 : Int) + v.2.2
    let ulp : Int := (if top < f32.emin then f32.emin else top) - 23
    let mid := k = .log2 ∧ (Nat.log2 input.1 : Int) + input.2 ≥ -1 ∧ ((Nat.log2 input.1 : Int) + input.2 < 1 ∨ (isPow2 input.1 ∧ (Nat.log2 input.1 : Int) + input.2 = 1))
    let bound : Int := match k with
      | .rcp => ulp | .rsq => ulp | .sqrt => ulp
      | .sin => -22 | .cos => -22
      | .log2 => if mid then -22 else ulp + 1
      | _ => ulp + 1
    let lo := if d.2.2 < bound then d.2.2 else bound
    decide (d.2.1 * 2 ^ (d.2.2 - lo).toNat ≤ 2 ^ (bound - lo).toNat)
  | _ => false

/-- The binary32 result outside the fixed cases (R175): exact where R175 makes it so, else the free value where it lies within the bound, and
the nearest value where it does not. -/
def Special.single (k : Special) (n : Bool) (m : Nat) (e : Int) (bits : Nat) : Nat :=
  let v := k.approx n m e
  let near := (f32.round 0 false 0 v.1 v.2.1 v.2.2).1
  let normal := decide (2 ^ f32.fbits ≤ near % 2 ^ 31 ∧ near % 2 ^ 31 < f32.inf false)
  let free := Config.sfu k.code 1 bits
  if k.exact n m e normal then near
  else if near % 2 ^ 31 = f32.inf false then near
  else if k.within (m, e) free v then free else near

/-- The result and flags of a special function (R174 to R176). -/
def Special.result (k : Special) (f : Fmt) (bits : Nat) : Nat × Nat :=
  match k.fixed f bits with
  | some r => r
  | none =>
    match f.num bits with
    | .fin n m e =>
      let wide := (f32.convert 0 false 0 (.fin n m e)).1
      let r32 := k.single n m e wide
      let r := if f = f32 then r32 else (f.convert 0 false 0 (f32.num r32)).1
      let mag := r % 2 ^ (f.width - 1)
      let normal := decide (mag ≥ 2 ^ f.fbits) && decide (mag < f.inf false)
      (r, if k.exact n m e normal then 0
        else if mag ≥ f.inf false then ovf + nx
        else if mag < 2 ^ f.fbits then unf + nx else nx)
    | _ => (f.nan, 0)

/-- An SFU instruction (R173). -/
def sfu (i : Instr) (k : Special) (t : BitVec 2) (d a : BitVec 7) (s : State) : State :=
  s.alu ⟨i, .v d.toNat 1, srcR a 1, .none, .none, none, 1, true, true, false, 0,
    fun _ e => let r := k.result (ftyFmt t.toNat) (e.a.bits % 2 ^ (ftyFmt t.toNat).width)
      Out.of r.1 r.2 [e.a]⟩

/-- SRCP (R173). -/
def execSrcp (m : Mods) (t : BitVec 2) (d a : BitVec 7) (s : State) : Host.Outcome State Fault Refusal := .next (sfu (.srcp m t d a) .rcp t d a s)
/-- SRSQ (R173). -/
def execSrsq (m : Mods) (t : BitVec 2) (d a : BitVec 7) (s : State) : Host.Outcome State Fault Refusal := .next (sfu (.srsq m t d a) .rsq t d a s)
/-- SSQRT (R173). -/
def execSsqrt (m : Mods) (t : BitVec 2) (d a : BitVec 7) (s : State) : Host.Outcome State Fault Refusal := .next (sfu (.ssqrt m t d a) .sqrt t d a s)
/-- SEXP2 (R173). -/
def execSexp2 (m : Mods) (t : BitVec 2) (d a : BitVec 7) (s : State) : Host.Outcome State Fault Refusal := .next (sfu (.sexp2 m t d a) .exp2 t d a s)
/-- SLOG2 (R173). -/
def execSlog2 (m : Mods) (t : BitVec 2) (d a : BitVec 7) (s : State) : Host.Outcome State Fault Refusal := .next (sfu (.slog2 m t d a) .log2 t d a s)
/-- SSIN (R173). -/
def execSsin (m : Mods) (t : BitVec 2) (d a : BitVec 7) (s : State) : Host.Outcome State Fault Refusal := .next (sfu (.ssin m t d a) .sin t d a s)
/-- SCOS (R173). -/
def execScos (m : Mods) (t : BitVec 2) (d a : BitVec 7) (s : State) : Host.Outcome State Fault Refusal := .next (sfu (.scos m t d a) .cos t d a s)
/-- STANH (R173). -/
def execStanh (m : Mods) (t : BitVec 2) (d a : BitVec 7) (s : State) : Host.Outcome State Fault Refusal := .next (sfu (.stanh m t d a) .tanh t d a s)

end Sys2Proof.Machine
end

