-- ==== Sys2Proof/Machine/Dispatch.lean ====
section
/-! DEFINITION. The dispatch: one arm per constructor of `Instr`, each a call of that instruction's meaning. -/

namespace Sys2Proof.Machine

/-- The meaning of an instruction or event. -/
def exec (i : Instr) (s : State) : Host.Outcome State Fault Refusal :=
  match i with
  | .nop m => Sys2Proof.Machine.execNop m s
  | .bra m o => Sys2Proof.Machine.execBra m o s
  | .brq m q sel o => Sys2Proof.Machine.execBrq m q sel o s
  | .jmp m f a => Sys2Proof.Machine.execJmp m f a s
  | .call m o => Sys2Proof.Machine.execCall m o s
  | .callr m f a => Sys2Proof.Machine.execCallr m f a s
  | .ret m => Sys2Proof.Machine.execRet m s
  | .returnFillArrival g pc => Sys2Proof.Machine.execReturnFillArrival g pc s
  | .jct m => Sys2Proof.Machine.execJct m s
  | .junctionRelease g pc => Sys2Proof.Machine.execJunctionRelease g pc s
  | .junctionTimeout g pc => Sys2Proof.Machine.execJunctionTimeout g pc s
  | .fork m f d a b => Sys2Proof.Machine.execFork m f d a b s
  | .quit m => Sys2Proof.Machine.execQuit m s
  | .yield m => Sys2Proof.Machine.execYield m s
  | .win m imm => Sys2Proof.Machine.execWin m imm s
  | .winK m a => Sys2Proof.Machine.execWinK m a s
  | .wadd m imm => Sys2Proof.Machine.execWadd m imm s
  | .kli m d imm => Sys2Proof.Machine.execKli m d imm s
  | .khi m n d a imm => Sys2Proof.Machine.execKhi m n d a imm s
  | .kmov m d a => Sys2Proof.Machine.execKmov m d a s
  | .kadd m t d a b => Sys2Proof.Machine.execKadd m t d a b s
  | .ksub m t d a b => Sys2Proof.Machine.execKsub m t d a b s
  | .kmul m t d a b => Sys2Proof.Machine.execKmul m t d a b s
  | .kmulh m t d a b => Sys2Proof.Machine.execKmulh m t d a b s
  | .kdiv m t d a b => Sys2Proof.Machine.execKdiv m t d a b s
  | .krem m t d a b => Sys2Proof.Machine.execKrem m t d a b s
  | .kand m d a b => Sys2Proof.Machine.execKand m d a b s
  | .kor m d a b => Sys2Proof.Machine.execKor m d a b s
  | .kxor m d a b => Sys2Proof.Machine.execKxor m d a b s
  | .kshl m t d a b => Sys2Proof.Machine.execKshl m t d a b s
  | .kshr m t d a b => Sys2Proof.Machine.execKshr m t d a b s
  | .ksra m t d a b => Sys2Proof.Machine.execKsra m t d a b s
  | .kmin m t d a b => Sys2Proof.Machine.execKmin m t d a b s
  | .kmax m t d a b => Sys2Proof.Machine.execKmax m t d a b s
  | .kcmp m c d a b => Sys2Proof.Machine.execKcmp m c d a b s
  | .ksel m q d a b => Sys2Proof.Machine.execKsel m q d a b s
  | .kclz m t d a => Sys2Proof.Machine.execKclz m t d a s
  | .kpopc m t d a => Sys2Proof.Machine.execKpopc m t d a s
  | .kfromv m f d a => Sys2Proof.Machine.execKfromv m f d a s
  | .kfromq m f d => Sys2Proof.Machine.execKfromq m f d s
  | .ktoq m f d a => Sys2Proof.Machine.execKtoq m f d a s
  | .waitc m l sel c t => Sys2Proof.Machine.execWaitc m l sel c t s
  | .gbar m => Sys2Proof.Machine.execGbar m s
  | .tarr m d => Sys2Proof.Machine.execTarr m d s
  | .twait m => Sys2Proof.Machine.execTwait m s
  | .mbar m => Sys2Proof.Machine.execMbar m s
  | .barrierArrival g lane => Sys2Proof.Machine.execBarrierArrival g lane s
  | .mbarReleaseStep grid => Sys2Proof.Machine.execMbarReleaseStep grid s
  | .lease m d imm => Sys2Proof.Machine.execLease m d imm s
  | .leaseK m d a => Sys2Proof.Machine.execLeaseK m d a s
  | .leaseRd m d => Sys2Proof.Machine.execLeaseRd m d s
  | .lnch m d a b => Sys2Proof.Machine.execLnch m d a b s
  | .trap m imm => Sys2Proof.Machine.execTrap m imm s
  | .assertQ m f a b => Sys2Proof.Machine.execAssertQ m f a b s
  | .tret m => Sys2Proof.Machine.execTret m s
  | .tmsk m d imm => Sys2Proof.Machine.execTmsk m d imm s
  | .srd m d n => Sys2Proof.Machine.execSrd m d n s
  | .swr m a n => Sys2Proof.Machine.execSwr m a n s
  | .swrOr m a n => Sys2Proof.Machine.execSwrOr m a n s
  | .swrClr m a n => Sys2Proof.Machine.execSwrClr m a n s
  | .brk m imm => Sys2Proof.Machine.execBrk m imm s
  | .halt m => Sys2Proof.Machine.execHalt m s
  | .vadd m t d a b => Sys2Proof.Machine.execVadd m t d a b s
  | .vsub m t d a b => Sys2Proof.Machine.execVsub m t d a b s
  | .vmul m t d a b => Sys2Proof.Machine.execVmul m t d a b s
  | .vmulh m t d a b => Sys2Proof.Machine.execVmulh m t d a b s
  | .vmad m t d a b => Sys2Proof.Machine.execVmad m t d a b s
  | .vdiv m t d a b => Sys2Proof.Machine.execVdiv m t d a b s
  | .vrem m t d a b => Sys2Proof.Machine.execVrem m t d a b s
  | .vmin m t d a b => Sys2Proof.Machine.execVmin m t d a b s
  | .vmax m t d a b => Sys2Proof.Machine.execVmax m t d a b s
  | .vabs m t d a => Sys2Proof.Machine.execVabs m t d a s
  | .vand m t d a b => Sys2Proof.Machine.execVand m t d a b s
  | .vor m t d a b => Sys2Proof.Machine.execVor m t d a b s
  | .vxor m t d a b => Sys2Proof.Machine.execVxor m t d a b s
  | .vnot m t d a => Sys2Proof.Machine.execVnot m t d a s
  | .vshl m t d a b => Sys2Proof.Machine.execVshl m t d a b s
  | .vshr m t d a b => Sys2Proof.Machine.execVshr m t d a b s
  | .vsra m t d a b => Sys2Proof.Machine.execVsra m t d a b s
  | .vrot m t d a b => Sys2Proof.Machine.execVrot m t d a b s
  | .vclz m t d a => Sys2Proof.Machine.execVclz m t d a s
  | .vpopc m t d a => Sys2Proof.Machine.execVpopc m t d a s
  | .vbrev m t d a => Sys2Proof.Machine.execVbrev m t d a s
  | .vsel m q d a b => Sys2Proof.Machine.execVsel m q d a b s
  | .vmov m w d a => Sys2Proof.Machine.execVmov m w d a s
  | .vli m d imm => Sys2Proof.Machine.execVli m d imm s
  | .vliHi m d imm => Sys2Proof.Machine.execVliHi m d imm s
  | .vcmpEq m t d a b => Sys2Proof.Machine.execVcmpEq m t d a b s
  | .vcmpNe m t d a b => Sys2Proof.Machine.execVcmpNe m t d a b s
  | .vcmpLt m t d a b => Sys2Proof.Machine.execVcmpLt m t d a b s
  | .vcmpLe m t d a b => Sys2Proof.Machine.execVcmpLe m t d a b s
  | .vcmpGt m t d a b => Sys2Proof.Machine.execVcmpGt m t d a b s
  | .vcmpGe m t d a b => Sys2Proof.Machine.execVcmpGe m t d a b s
  | .vbcast m w d a => Sys2Proof.Machine.execVbcast m w d a s
  | .vcvti m t d a sel => Sys2Proof.Machine.execVcvti m t d a sel s
  | .qand m d a b => Sys2Proof.Machine.execQand m d a b s
  | .qor m d a b => Sys2Proof.Machine.execQor m d a b s
  | .qxor m d a b => Sys2Proof.Machine.execQxor m d a b s
  | .qnot m d a => Sys2Proof.Machine.execQnot m d a s
  | .qmov m d a => Sys2Proof.Machine.execQmov m d a s
  | .fadd m t d a b => Sys2Proof.Machine.execFadd m t d a b s
  | .fsub m t d a b => Sys2Proof.Machine.execFsub m t d a b s
  | .fmul m t d a b => Sys2Proof.Machine.execFmul m t d a b s
  | .ffma m t d a b => Sys2Proof.Machine.execFfma m t d a b s
  | .fmin m t d a b => Sys2Proof.Machine.execFmin m t d a b s
  | .fmax m t d a b => Sys2Proof.Machine.execFmax m t d a b s
  | .fsgn m t d a b => Sys2Proof.Machine.execFsgn m t d a b s
  | .fsgnNeg m t d a b => Sys2Proof.Machine.execFsgnNeg m t d a b s
  | .fsgnXor m t d a b => Sys2Proof.Machine.execFsgnXor m t d a b s
  | .fcmpEq m t d a b => Sys2Proof.Machine.execFcmpEq m t d a b s
  | .fcmpNe m t d a b => Sys2Proof.Machine.execFcmpNe m t d a b s
  | .fcmpLt m t d a b => Sys2Proof.Machine.execFcmpLt m t d a b s
  | .fcmpLe m t d a b => Sys2Proof.Machine.execFcmpLe m t d a b s
  | .fcmpGt m t d a b => Sys2Proof.Machine.execFcmpGt m t d a b s
  | .fcmpGe m t d a b => Sys2Proof.Machine.execFcmpGe m t d a b s
  | .fcmpUn m t d a b => Sys2Proof.Machine.execFcmpUn m t d a b s
  | .fcmpOr m t d a b => Sys2Proof.Machine.execFcmpOr m t d a b s
  | .fclass m t d a => Sys2Proof.Machine.execFclass m t d a s
  | .fcvt m f d a sel => Sys2Proof.Machine.execFcvt m f d a sel s
  | .fcvtToInt m f d a sel => Sys2Proof.Machine.execFcvtToInt m f d a sel s
  | .fcvtFromInt m f d a sel => Sys2Proof.Machine.execFcvtFromInt m f d a sel s
  | .frnd m t d a => Sys2Proof.Machine.execFrnd m t d a s
  | .hadd2 m f d a b => Sys2Proof.Machine.execHadd2 m f d a b s
  | .hmul2 m f d a b => Sys2Proof.Machine.execHmul2 m f d a b s
  | .hfma2 m f d a b => Sys2Proof.Machine.execHfma2 m f d a b s
  | .hcmp2 m c f d a b => Sys2Proof.Machine.execHcmp2 m c f d a b s
  | .srcp m t d a => Sys2Proof.Machine.execSrcp m t d a s
  | .srsq m t d a => Sys2Proof.Machine.execSrsq m t d a s
  | .ssqrt m t d a => Sys2Proof.Machine.execSsqrt m t d a s
  | .sexp2 m t d a => Sys2Proof.Machine.execSexp2 m t d a s
  | .slog2 m t d a => Sys2Proof.Machine.execSlog2 m t d a s
  | .ssin m t d a => Sys2Proof.Machine.execSsin m t d a s
  | .scos m t d a => Sys2Proof.Machine.execScos m t d a s
  | .stanh m t d a => Sys2Proof.Machine.execStanh m t d a s
  | .wmad m f w a b => Sys2Proof.Machine.execWmad m f w a b s
  | .wdot4 m f w a b => Sys2Proof.Machine.execWdot4 m f w a b s
  | .waddAccumulator m f d a b => Sys2Proof.Machine.execWaddAccumulator m f d a b s
  | .wclr m d => Sys2Proof.Machine.execWclr m d s
  | .narrow m f d a => Sys2Proof.Machine.execNarrow m f d a s
  | .widen m f d a => Sys2Proof.Machine.execWiden m f d a s
  | .shfl m w d a b => Sys2Proof.Machine.execShfl m w d a b s
  | .shflx m w d a b => Sys2Proof.Machine.execShflx m w d a b s
  | .shflu m w d a b => Sys2Proof.Machine.execShflu m w d a b s
  | .shfld m w d a b => Sys2Proof.Machine.execShfld m w d a b s
  | .vote m f d a => Sys2Proof.Machine.execVote m f d a s
  | .redg m f d a => Sys2Proof.Machine.execRedg m f d a s
  | .scang m f d a => Sys2Proof.Machine.execScang m f d a s
  | .matchLanes m f d a => Sys2Proof.Machine.execMatchLanes m f d a s
  | .vkey m t d a => Sys2Proof.Machine.execVkey m t d a s
  | .ldN8 m l d b p o => Sys2Proof.Machine.execLdN8 m l d b p o s
  | .ldS8 m l d b p o => Sys2Proof.Machine.execLdS8 m l d b p o s
  | .ldN16 m l d b p o => Sys2Proof.Machine.execLdN16 m l d b p o s
  | .ldS16 m l d b p o => Sys2Proof.Machine.execLdS16 m l d b p o s
  | .ld32 m l d b p o => Sys2Proof.Machine.execLd32 m l d b p o s
  | .ld64 m l d b p o => Sys2Proof.Machine.execLd64 m l d b p o s
  | .ldv m l d b p o => Sys2Proof.Machine.execLdv m l d b p o s
  | .ldk m l d b p o => Sys2Proof.Machine.execLdk m l d b p o s
  | .ldx m l d b p o => Sys2Proof.Machine.execLdx m l d b p o s
  | .pf m l b p o => Sys2Proof.Machine.execPf m l b p o s
  | .lds m f d b o => Sys2Proof.Machine.execLds m f d b o s
  | .gtest m d a sel => Sys2Proof.Machine.execGtest m d a sel s
  | .gacc m a sel => Sys2Proof.Machine.execGacc m a sel s
  | .gdem m a sel => Sys2Proof.Machine.execGdem m a sel s
  | .gchk m d a sel => Sys2Proof.Machine.execGchk m d a sel s
  | .ptest m d a sel => Sys2Proof.Machine.execPtest m d a sel s
  | .st m w d b p o => Sys2Proof.Machine.execSt m w d b p o s
  | .stv m d b p o => Sys2Proof.Machine.execStv m d b p o s
  | .stg m w d b p o => Sys2Proof.Machine.execStg m w d b p o s
  | .sts m w d b o => Sys2Proof.Machine.execSts m w d b o s
  | .aadd m w d k sel b => Sys2Proof.Machine.execAadd m w d k sel b s
  | .amin m w d k sel b => Sys2Proof.Machine.execAmin m w d k sel b s
  | .amax m w d k sel b => Sys2Proof.Machine.execAmax m w d k sel b s
  | .aand m w d k sel b => Sys2Proof.Machine.execAand m w d k sel b s
  | .aor m w d k sel b => Sys2Proof.Machine.execAor m w d k sel b s
  | .axor m w d k sel b => Sys2Proof.Machine.execAxor m w d k sel b s
  | .axchg m w d k sel b => Sys2Proof.Machine.execAxchg m w d k sel b s
  | .acas m w d k sel b => Sys2Proof.Machine.execAcas m w d k sel b s
  | .aminN m w d k sel b => Sys2Proof.Machine.execAminN m w d k sel b s
  | .amaxN m w d k sel b => Sys2Proof.Machine.execAmaxN m w d k sel b s
  | .afadd m w d k sel b => Sys2Proof.Machine.execAfadd m w d k sel b s
  | .afaddPair m t d k sel b => Sys2Proof.Machine.execAfaddPair m t d k sel b s
  | .ldaq m w d k sel v => Sys2Proof.Machine.execLdaq m w d k sel v s
  | .strl m w k sel b => Sys2Proof.Machine.execStrl m w k sel b s
  | .fence m n sel => Sys2Proof.Machine.execFence m n sel s
  | .rfence m n sel a b => Sys2Proof.Machine.execRfence m n sel a b s
  | .xfence m sel p => Sys2Proof.Machine.execXfence m sel p s
  | .lock m d b o => Sys2Proof.Machine.execLock m d b o s
  | .unlock m d b o => Sys2Proof.Machine.execUnlock m d b o s
  | .cinv m b o => Sys2Proof.Machine.execCinv m b o s
  | .cwb m b o => Sys2Proof.Machine.execCwb m b o s
  | .halloc m d k => Sys2Proof.Machine.execHalloc m d k s
  | .hrel m d => Sys2Proof.Machine.execHrel m d s
  | .hgive m k a n c => Sys2Proof.Machine.execHgive m k a n c s
  | .htake m d c => Sys2Proof.Machine.execHtake m d c s
  | .hinfo m k a => Sys2Proof.Machine.execHinfo m k a s
  | .tld m f h b p o => Sys2Proof.Machine.execTld m f h b p o s
  | .tlds m f h b t o => Sys2Proof.Machine.execTlds m f h b t o s
  | .tsto m h b p o => Sys2Proof.Machine.execTsto m h b p o s
  | .tsts m h b t o => Sys2Proof.Machine.execTsts m h b t o s
  | .trd m f d h imm => Sys2Proof.Machine.execTrd m f d h imm s
  | .twr m f h a imm => Sys2Proof.Machine.execTwr m f h a imm s
  | .tzero m d mo => Sys2Proof.Machine.execTzero m d mo s
  | .mma m d a b y x => Sys2Proof.Machine.execMma m d a b y x s
  | .mmas m d a b y x => Sys2Proof.Machine.execMmas m d a b y x s
  | .mmac m d a b h x => Sys2Proof.Machine.execMmac m d a b h x s
  | .tscl m d a e => Sys2Proof.Machine.execTscl m d a e s
  | .tacc m d a b => Sys2Proof.Machine.execTacc m d a b s
  | .cpy m f d a b => Sys2Proof.Machine.execCpy m f d a b s
  | .cpy2 m f d a b => Sys2Proof.Machine.execCpy2 m f d a b s
  | .gath m sel z d a b => Sys2Proof.Machine.execGath m sel z d a b s
  | .scat m sel z d a b => Sys2Proof.Machine.execScat m sel z d a b s
  | .cfill m f d a b => Sys2Proof.Machine.execCfill m f d a b s
  | .cstat m d => Sys2Proof.Machine.execCstat m d s
  | .coll m d a => Sys2Proof.Machine.execColl m d a s
  | .csigAdd m d a b => Sys2Proof.Machine.execCsigAdd m d a b s
  | .csigSet m d a b => Sys2Proof.Machine.execCsigSet m d a b s
  | .cwaitRec m d a => Sys2Proof.Machine.execCwaitRec m d a s
  | .cwaitGe m d a b => Sys2Proof.Machine.execCwaitGe m d a b s
  | .step m d a b => Sys2Proof.Machine.execStep m d a b s
  | .rpost m d a b => Sys2Proof.Machine.execRpost m d a b s
  | .ageCounterExpiry g slice => Sys2Proof.Machine.execAgeCounterExpiry g slice s
  | .launchRecordTake vf queue => Sys2Proof.Machine.execLaunchRecordTake vf queue s
  | .teamPlacement grid => Sys2Proof.Machine.execTeamPlacement grid s
  | .laybyMove g => Sys2Proof.Machine.execLaybyMove g s
  | .carriagewayAdmission g => Sys2Proof.Machine.execCarriagewayAdmission g s
  | .laybyPending g => Sys2Proof.Machine.execLaybyPending g s
  | .pendingEviction g => Sys2Proof.Machine.execPendingEviction g s
  | .leaseWindowEnd g => Sys2Proof.Machine.execLeaseWindowEnd g s
  | .groupEnd g => Sys2Proof.Machine.execGroupEnd g s
  | .gridEnd grid => Sys2Proof.Machine.execGridEnd grid s
  | .preemptionRequest ctx => Sys2Proof.Machine.execPreemptionRequest ctx s
  | .preemptionTimeout ctx => Sys2Proof.Machine.execPreemptionTimeout ctx s
  | .supervisorStop ctx => Sys2Proof.Machine.execSupervisorStop ctx s
  | .haltLineArrival ctx core => Sys2Proof.Machine.execHaltLineArrival ctx core s
  | .engineStop ctx core track engine => Sys2Proof.Machine.execEngineStop ctx core track engine s
  | .haltCompletion ctx => Sys2Proof.Machine.execHaltCompletion ctx s
  | .contextResume ctx => Sys2Proof.Machine.execContextResume ctx s
  | .contextEnd ctx => Sys2Proof.Machine.execContextEnd ctx s
  | .pageWalk ctx core va => Sys2Proof.Machine.execPageWalk ctx core va s
  | .translationFaultResolved ctx va => Sys2Proof.Machine.execTranslationFaultResolved ctx va s
  | .translationFaultUnresolved ctx va => Sys2Proof.Machine.execTranslationFaultUnresolved ctx va s
  | .invalidation ctx va len writes => Sys2Proof.Machine.execInvalidation ctx va len writes s
  | .biasFlip ctx va bias => Sys2Proof.Machine.execBiasFlip ctx va bias s
  | .deadlineExpiry core load lane => Sys2Proof.Machine.execDeadlineExpiry core load lane s
  | .loadDataArrival core load lane => Sys2Proof.Machine.execLoadDataArrival core load lane s
  | .ticketTruthArrival core ticket => Sys2Proof.Machine.execTicketTruthArrival core ticket s
  | .storePerformed core store => Sys2Proof.Machine.execStorePerformed core store s
  | .atomicPerformed core op lane => Sys2Proof.Machine.execAtomicPerformed core op lane s
  | .promotionDrain core load victim => Sys2Proof.Machine.execPromotionDrain core load victim s
  | .l1InvalidationArrival core line => Sys2Proof.Machine.execL1InvalidationArrival core line s
  | .l1FillArrival core line => Sys2Proof.Machine.execL1FillArrival core line s
  | .hostSharedRequest addr => Sys2Proof.Machine.execHostSharedRequest addr s
  | .hostExclusiveRequest addr => Sys2Proof.Machine.execHostExclusiveRequest addr s
  | .hostWriteBack addr data poisoned => Sys2Proof.Machine.execHostWriteBack addr data poisoned s
  | .hostMemoryAccess addr len data => Sys2Proof.Machine.execHostMemoryAccess addr len data s
  | .dieLinkRequest src dst kind addr data => Sys2Proof.Machine.execDieLinkRequest src dst kind addr data s
  | .copyPiece core copy => Sys2Proof.Machine.execCopyPiece core copy s
  | .copyRetire core copy => Sys2Proof.Machine.execCopyRetire core copy s
  | .matrixPass core quarters => Sys2Proof.Machine.execMatrixPass core quarters s
  | .tileOperationRetire core op => Sys2Proof.Machine.execTileOperationRetire core op s
  | .causewayAbandon core request => Sys2Proof.Machine.execCausewayAbandon core request s
  | .nodeErrorReply core request => Sys2Proof.Machine.execNodeErrorReply core request s
  | .notifyMessage vf endpoint id queue => Sys2Proof.Machine.execNotifyMessage vf endpoint id queue s
  | .launchMessage vf endpoint id queue rec => Sys2Proof.Machine.execLaunchMessage vf endpoint id queue rec s
  | .rpostReply id status => Sys2Proof.Machine.execRpostReply id status s
  | .rpostTimeout id => Sys2Proof.Machine.execRpostTimeout id s
  | .collCompletion vf comm seq others => Sys2Proof.Machine.execCollCompletion vf comm seq others s
  | .collTimeout vf comm seq ctx => Sys2Proof.Machine.execCollTimeout vf comm seq ctx s
  | .remotePutArrival src dst data => Sys2Proof.Machine.execRemotePutArrival src dst data s
  | .remoteSignalArrival src dst value add => Sys2Proof.Machine.execRemoteSignalArrival src dst value add s
  | .cwaitReread g lane => Sys2Proof.Machine.execCwaitReread g lane s
  | .stepApply core track => Sys2Proof.Machine.execStepApply core track s
  | .bucketRefill core => Sys2Proof.Machine.execBucketRefill core s
  | .vfBringup vf part queues => Sys2Proof.Machine.execVfBringup vf part queues s
  | .vfTeardown vf => Sys2Proof.Machine.execVfTeardown vf s
  | .allowanceReclaim vf => Sys2Proof.Machine.execAllowanceReclaim vf s
  | .quarantineEnd vf => Sys2Proof.Machine.execQuarantineEnd vf s
  | .deadOwnerPacket vf info => Sys2Proof.Machine.execDeadOwnerPacket vf info s
  | .uncorrectableMemoryError addr => Sys2Proof.Machine.execUncorrectableMemoryError addr s
  | .correctedMemoryError addr => Sys2Proof.Machine.execCorrectedMemoryError addr s
  | .pallowSetWrite watts => Sys2Proof.Machine.execPallowSetWrite watts s
  | .pallowTripClear mask => Sys2Proof.Machine.execPallowTripClear mask s
  | .allowanceCut => Sys2Proof.Machine.execAllowanceCut s
  | .powerControlStep milliwatts => Sys2Proof.Machine.execPowerControlStep milliwatts s
  | .currentLimiter milliwatts => Sys2Proof.Machine.execCurrentLimiter milliwatts s
  | .ratioChange core track => Sys2Proof.Machine.execRatioChange core track s
  | .energyCharge charges => Sys2Proof.Machine.execEnergyCharge charges s
  | .energyScaling microjoules => Sys2Proof.Machine.execEnergyScaling microjoules s
  | .sramRailStep die corrected => Sys2Proof.Machine.execSramRailStep die corrected s
  | .uncorrectableSramError die core array va => Sys2Proof.Machine.execUncorrectableSramError die core array va s
  | .railHoldEnd die => Sys2Proof.Machine.execRailHoldEnd die s
  | .hbmTemperatureSample die stack degrees => Sys2Proof.Machine.execHbmTemperatureSample die stack degrees s
  | .dieThermalTrip die => Sys2Proof.Machine.execDieThermalTrip die s
  | .heartbeatWrite => Sys2Proof.Machine.execHeartbeatWrite s
  | .heartbeatMiss => Sys2Proof.Machine.execHeartbeatMiss s
  | .coreRetirement core => Sys2Proof.Machine.execCoreRetirement core s
  | .hbmChannelSparing die stack channel => Sys2Proof.Machine.execHbmChannelSparing die stack channel s
  | .llcWayDisable die way => Sys2Proof.Machine.execLlcWayDisable die way s
  | .causewayLaneSpare port lane => Sys2Proof.Machine.execCausewayLaneSpare port lane s
  | .portFailover port => Sys2Proof.Machine.execPortFailover port s
  | .coldReset => Sys2Proof.Machine.execColdReset s
  | .railPowerDown => Sys2Proof.Machine.execRailPowerDown s
  | .leasewWrite core value => Sys2Proof.Machine.execLeasewWrite core value s
  | .dfwWrite die value => Sys2Proof.Machine.execDfwWrite die value s
  | .vuesClear vf value => Sys2Proof.Machine.execVuesClear vf value s
  | .vovfClear vf value => Sys2Proof.Machine.execVovfClear vf value s
  | .registerWrite reg index value => Sys2Proof.Machine.execRegisterWrite reg index value s
  | .pendingResultRetire core res => Sys2Proof.Machine.execPendingResultRetire core res s
  | .contextSetup ctx vf ptroot stopa scratch lockLimit tvec => Sys2Proof.Machine.execContextSetup ctx vf ptroot stopa scratch lockLimit tvec s
  | .rdmaAccess vf addr len data => Sys2Proof.Machine.execRdmaAccess vf addr len data s
  | .remoteMessageDropped vf endpoint id kind => Sys2Proof.Machine.execRemoteMessageDropped vf endpoint id kind s
  | .tagCheckFailure core request => Sys2Proof.Machine.execTagCheckFailure core request s
  | .csigReply id status => Sys2Proof.Machine.execCsigReply id status s
  | .csigTimeout id => Sys2Proof.Machine.execCsigTimeout id s
  | .dieThermalRecovery die => Sys2Proof.Machine.execDieThermalRecovery die s

end Sys2Proof.Machine
end

