-- ==== Sys2Proof/Machine/Step.lean ====
section
/-! DEFINITION. One step of the machine: the next action of its agents. -/

namespace Sys2Proof.Machine

/-- One action carried out: a group issues and its instruction is executed, an event happens, clocks pass, or a memory instruction that waited for the
supervisor is tried again. An encoded instruction is no
event, and does nothing as one. -/
def State.act (a : Action) (s : State) : Host.Outcome State Fault Refusal :=
  match a with
  | .issue g =>
    match s.prepare g with
    | .run i t => exec i t
    | .idle t => .next t
  | .event i => if i.encoded then .next s else exec i s
  | .clock n => .next (s.tick n)
  | .replay g =>
    match s.replay g with
    | some (h, t) => (match exec h.ins t with | .next u => .next (s.settleReplay t u h) | o => o)
    | none => .next s

/-- Whether an action is a cold reset (R387). -/
def Action.isReset (a : Action) : Bool := match a with | .event (.coldReset) => true | _ => false

/-- The first of some happenings that changes the state; where none does, one clock passes. -/
def State.firstChange (s : State) : List Happening → Host.Outcome State Fault Refusal
  | [] => s.act (.clock 1)
  | a :: rest =>
    match a s with
    | .next t => if t = s then s.firstChange rest else .next t
    | o => o

/-- One step: the action at the head of the agenda; or else the first of what the device does of itself and of the issue cycles that changes the
state; or else a clock (log entry 1). With the rails powered down nothing happens but a cold reset (R387). -/
def step (s : State) : Host.Outcome State Fault Refusal :=
  match s.agenda with
  | a :: rest => if s.pkg.railsUp || a.isReset then ({ s with agenda := rest }).act a else .fault .noPower
  | [] => if s.pkg.railsUp then s.firstChange (s.candidates ++ s.replayers.map (fun g t => t.act (.replay g)) ++ s.issuers.map (fun g t => t.act (.issue g))) else .fault .noPower

/-- A state whose next step runs the instruction of an opcode-table row: its words are stored where the next issue cycle fetches, in a group
of one fibre that issues next (log entry 16). Bits above `nbits` are 0, up to three words. -/
def State.withFetchWord (s : State) (nbits w : Nat) : State := s.place (bytesOf 12 (w % 2 ^ nbits))

end Sys2Proof.Machine
end

