-- ==== Sys2Proof/Safety.lean ====
section
/-! DEFINITION. The vocabulary of the statements: the fibre a lane holds, what a destination holds after an instruction, the values that the
rules of the manual give, and the states that a run keeps to. -/

namespace Sys2Proof.Machine

-- ## Lanes and registers

/-- The fibre of a lane of a group. -/
def State.lane (s : State) (g l : Nat) : Fibre := (s.group g).fibre l

/-- A lane of a group holds a live fibre (R24, R25). -/
def State.liveAt (s : State) (g l : Nat) : Prop := ((s.group g).fibres.find? l).isSome = true

/-- A lane of the issue set holds a live fibre (R28). -/
def State.live (s : State) (l : Nat) : Prop := l ∈ s.cur.lanes ∧ s.liveAt s.cur.g l

/-- A lane of the issue set has passed the instruction: its PC is that of the next instruction (R28, R44) and it waits for nothing. -/
def State.passed (s t : State) (l : Nat) : Prop :=
  (t.lane s.cur.g l).pc = s.cur.pc + BitVec.ofNat 64 (4 * s.cur.words) ∧ (t.lane s.cur.g l).wait = .free

/-- A lane of the issue set is where it was, with the registers it had. -/
def State.stays (s t : State) (l : Nat) : Prop :=
  (t.lane s.cur.g l).pc = (s.lane s.cur.g l).pc ∧ (t.lane s.cur.g l).v = (s.lane s.cur.g l).v ∧ (t.lane s.cur.g l).k = (s.lane s.cur.g l).k ∧
    (t.lane s.cur.g l).w = (s.lane s.cur.g l).w ∧ (t.lane s.cur.g l).cw = (s.lane s.cur.g l).cw

/-- The value and tags of one register of a fibre (R56, R58, R177). -/
def Fibre.regVal (b : Fibre) (r : Reg) : Val :=
  match r.file with
  | .v => ⟨(b.vRow r.idx).val.toNat, (b.vRow r.idx).g, (b.vRow r.idx).p⟩
  | .k => ⟨(b.kReg r.idx).val.toNat, (b.kReg r.idx).g, (b.kReg r.idx).p⟩
  | .w => ⟨(b.wReg r.idx).val.toNat, (b.wReg r.idx).g, (b.wReg r.idx).p⟩
  | .q => b.qBit r.idx

/-- What a source gives in a lane of the issue set (R39, R49, R53, R56). -/
def State.opnd (s : State) (l : Nat) (x : Src) : Val := s.src s.here l (s.lane s.cur.g l) x

/-- What a destination reads as once a value has been written to it: its low bits, with its tags; z discards (R56, R58). -/
def Dst.holds (d : Dst) (v : Val) : Val :=
  match d with
  | .v c n => if c < 96 then ⟨v.bits % 2 ^ (32 * n), v.g, v.p⟩ else Val.zero
  | .vk c n => if c < 96 then ⟨v.bits % 2 ^ (32 * n), v.g, v.p⟩ else if c < 112 then ⟨v.bits % 2 ^ 64, v.g, v.p⟩ else Val.zero
  | .k c => if 96 ≤ c ∧ c < 112 then ⟨v.bits % 2 ^ 64, v.g, v.p⟩ else Val.zero
  | .q c => if 112 ≤ c ∧ c < 120 then ⟨v.bits % 2, v.g, v.p⟩ else Val.zero
  | .w _ => ⟨v.bits % 2 ^ 64, v.g, v.p⟩
  | .none => Val.zero

/-- The mask of an instruction, and whether it zeroes (R53, R64). -/
def Instr.maskBit (i : Instr) (b : Fibre) : Val := b.maskBit (fallback i).2.mask
/-- See `Instr.maskBit`. -/
def Instr.zeroes (i : Instr) : Bool := (fallback i).2.mz

/-- A value whose tags are those of some operands ORed (R83, R155). -/
def withTags (bits : Nat) (srcs : List Val) : Val := ⟨bits, srcs.any Val.g, srcs.any Val.p⟩

/-- A lane of the issue set has passed the instruction and its destination holds what R155 gives. Where the lane is active, that is the result
`v` with the mask predicate's tags ORed in. Where it is masked off, it is 0 with the mask's tags under mz, and otherwise the old value with the
mask's tags ORed in; z holds nothing. -/
def State.delivers (s t : State) (i : Instr) (d : Dst) (l : Nat) (v : Val) : Prop :=
  let b := s.lane s.cur.g l
  let m := Instr.maskBit i b
  s.passed t l ∧
    d.read (t.lane s.cur.g l) =
      if m.bits = 1 then d.holds ⟨v.bits, v.g || m.g, v.p || m.p⟩
      else if Instr.zeroes i then d.holds ⟨0, m.g, m.p⟩
      else d.holds ⟨(d.read b).bits, (d.read b).g || m.g, (d.read b).p || m.p⟩

/-- An instruction completes in every live fibre of the issue set, the destination holding `v` of the lane (R83, R155). -/
def State.results (s : State) (i : Instr) (d : Dst) (v : Nat → Val) : Prop :=
  ∃ t, exec i s = .next t ∧ ∀ l, s.live l → s.delivers t i d l (v l)

-- ## Integers (R83, R84, R146, R157)

/-- The number that the low `w` bits of a value stand for in a signed or unsigned type. -/
def numOf (w : Nat) (signed : Bool) (x : Nat) : Int := if signed then (BitVec.ofNat w x).toInt else ((BitVec.ofNat w x).toNat : Int)

/-- A `w`-bit pattern of a signed or unsigned type, sign- or zero-extended to `n` bits (R83, R146). -/
def extended {w : Nat} (signed : Bool) (n : Nat) (x : BitVec w) : Nat := if signed then (x.signExtend n).toNat else (x.setWidth n).toNat

/-- The low `w` bits of an exact integer, extended to `n` bits. -/
def patternOf (w : Nat) (signed : Bool) (n : Nat) (x : Int) : Nat := extended signed n (BitVec.ofInt w x)

/-- An exact integer clamped to the range of a type where `sat` holds (R83, R157). -/
def saturated (w : Nat) (signed sat : Bool) (x : Int) : Int :=
  if sat then (if signed then max (-(2 ^ (w - 1) : Int)) (min (2 ^ (w - 1) - 1) x) else max 0 (min (2 ^ w - 1) x)) else x

/-- Quotient and remainder of R85 and R158. -/
def quoRem (w : Nat) (signed : Bool) (a b : Int) : Int × Int :=
  if b = 0 then (2 ^ w - 1, 2 ^ w - 1)
  else if signed = true ∧ a = -(2 ^ (w - 1) : Int) ∧ b = -1 then (a, 0)
  else (a.tdiv b, a.tmod b)

/-- The width of a kty code and whether it is signed: .s64, .n64, .s32, .n32 (R83). -/
def ktyOf (t : BitVec 2) : Nat × Bool := (if t.toNat < 2 then 64 else 32, t.toNat % 2 = 0)

/-- The width of an ity code and whether it is signed: .s8 to .s64, then .n8 to .n64 (R59). -/
def ityOf (t : BitVec 3) : Nat × Bool := (8 * 2 ^ (t.toNat % 4), t.toNat < 4)

/-- A scalar result on two sources whose exact value is `f` of them (R83, R84). -/
def scalarVal (t : BitVec 2) (sat : Bool) (f : Int → Int → Int) (a b : Val) : Val :=
  let (w, sg) := ktyOf t
  withTags (patternOf w sg 64 (saturated w sg sat (f (numOf w sg a.bits) (numOf w sg b.bits)))) [a, b]

/-- A vector integer result on its sources whose exact value is `x` (R146, R157). -/
def vectorVal (t : BitVec 3) (sat : Bool) (x : Int) (srcs : List Val) : Val :=
  let (w, sg) := ityOf t
  withTags (patternOf w sg (max 32 w) (saturated w sg sat x)) srcs

/-- A source at the width and signedness of an ity code (R146). -/
def vectorNum (t : BitVec 3) (v : Val) : Int := numOf (ityOf t).1 (ityOf t).2 v.bits

/-- Leading zeros of a value within a width (R84, R159). -/
def leadingZerosOf (w x : Nat) : Nat := w - (x % 2 ^ w).size

/-- Ones of a value within a width (R84, R159). -/
def onesOf (w x : Nat) : Nat := ((List.range w).filter x.testBit).length

-- ## Modifiers in force (R53, R64)

/-- OPX sat, where the instruction takes it. -/
def Instr.sat (i : Instr) : Bool := (fallback i).2.sat

/-- The rounding mode: OPX rm where the instruction takes it, RM of FPMODE for rm 6, else RNE (R53, R150). -/
def State.rm (s : State) (i : Instr) : Nat := if (fallback i).2.rm = 6 then s.here.fpmode.toNat % 8 else (fallback i).2.rm

/-- The draws of a lane for stochastic rounding, the second for the high half of a packed element (R150). -/
def State.drawn (s : State) (l k : Nat) : Nat := (Config.rand (s.free + 2 * l + k)).toNat

/-- No exception that FPMODE enables is raised by an active lane whose result carries neither G nor P: the instruction does not trap (R153).
`r` is each lane's result with the flags it raises, and `v` its sources. -/
def State.untrapped (s : State) (i : Instr) (r : Nat → Nat × Nat) (v : Nat → List Val) : Prop :=
  ∀ l ∈ s.cur.lanes, (Instr.maskBit i (s.lane s.cur.g l)).bits = 1 →
    (withTags 0 (Instr.maskBit i (s.lane s.cur.g l) :: v l)).g = false → (withTags 0 (Instr.maskBit i (s.lane s.cur.g l) :: v l)).p = false →
    (s.here.fpmode.getLsbD 7 = true → bitAt (r l).2 14 = false) ∧ (s.here.fpmode.getLsbD 6 = true → bitAt (r l).2 13 = false) ∧
      (s.here.fpmode.getLsbD 5 = true → bitAt (r l).2 12 = false) ∧ (s.here.fpmode.getLsbD 4 = true → bitAt (r l).2 11 = false)

/-- The value of a finite number. -/
def Num.value : Num → ℚ
  | .fin n m e => (if n then -1 else 1) * m * 2 ^ e
  | _ => 0

/-- The values of a format's precision, with subnormal spacing below the smallest normal and no upper exponent bound (R150). -/
def Fmt.spaced (f : Fmt) (v : ℚ) : Prop := ∃ n e : ℤ, f.emin - f.fbits ≤ e ∧ |n| < 2 ^ (f.fbits + 1) ∧ v = n * 2 ^ e

/-- x₀ of R150: the nearest of those values toward zero. -/
def Fmt.inward (f : Fmt) (x v : ℚ) : Prop := f.spaced v ∧ 0 ≤ v * x ∧ |v| ≤ |x| ∧ ∀ w, f.spaced w → |w| ≤ |x| → |w| ≤ |v|

/-- x₁ of R150: the nearest of those values away from zero. -/
def Fmt.outward (f : Fmt) (x v : ℚ) : Prop := f.spaced v ∧ 0 ≤ v * x ∧ |x| ≤ |v| ∧ ∀ w, f.spaced w → |x| ≤ |w| → |v| ≤ |w|

/-- The choice of a rounding mode between x₀ and x₁ (R150). On a tie of RNE the one with an even last fraction bit is the even multiple of their distance. -/
def chosen (rm rand : Nat) (x x₀ x₁ v : ℚ) : Prop :=
  let d := |x₁| - |x₀|
  let part := |x| - |x₀|
  if x₀ = x₁ then v = x₀
  else match rm with
    | 0 => (2 * part < d → v = x₀) ∧ (d < 2 * part → v = x₁) ∧ (2 * part = d → (v = x₀ ∨ v = x₁) ∧ ∃ k : ℤ, v = 2 * k * d)
    | 1 => v = x₀
    | 2 => v = max x₀ x₁
    | 3 => v = min x₀ x₁
    | 4 => v = if 2 * part < d then x₀ else x₁
    | _ => v = if (rand : ℤ) < ⌊part / d * 65536⌋ then x₁ else x₀

/-- A result and its flags are the exact value rounded once to a format (R150 to R152): OF is 2^12, UF 2^11 and NX 2^10. -/
def Fmt.rounds (f : Fmt) (rm : Nat) (sat : Bool) (rand : Nat) (x : ℚ) (zeroNeg : Bool) (r : Nat × Nat) : Prop :=
  (x = 0 → r = (f.zero zeroNeg, 0)) ∧
  (x ≠ 0 → ∃ x₀ x₁ v : ℚ, f.inward x x₀ ∧ f.outward x x₁ ∧ chosen rm rand x x₀ x₁ v ∧
    let largest := (f.num (f.maxBits false)).value
    (largest < |v| → r = (if sat = true ∨ rm = 1 ∨ (rm = 2 ∧ x < 0) ∨ (rm = 3 ∧ 0 < x) then f.maxBits (decide (x < 0)) else if f.e4m3 then 0x7F else f.inf (decide (x < 0)),
      2 ^ 12 + 2 ^ 10)) ∧
    (|v| ≤ largest → r.1 < 2 ^ f.width ∧ (∃ m e, f.num r.1 = .fin (decide (x < 0)) m e) ∧ (f.num r.1).value = v ∧
      r.2 = if v = x then 0 else if |v| < 2 ^ f.emin then 2 ^ 11 + 2 ^ 10 else 2 ^ 10))

/-- A floating-point instruction that does not trap completes in every live fibre of the issue set (R153, R155). -/
def State.resultsFp (s : State) (i : Instr) (d : Dst) (r : Nat → Nat × Nat) (v : Nat → List Val) : Prop :=
  s.untrapped i r v → s.results i d (fun l => withTags (r l).1 (v l))

-- ## Cross-lane work (R185, R186)

/-- The active lanes of an instruction: the members of the issue set whose mask predicate is 1. -/
def State.actives (s : State) (i : Instr) : List Nat := s.cur.lanes.filter (fun l => (Instr.maskBit i (s.lane s.cur.g l)).bits = 1)

/-- Every source that a cross-lane instruction reads in an active lane, mask predicates included: the ORed tags of all of them go to every lane it
writes. `v` gives the sources of one lane. -/
def State.spread (s : State) (i : Instr) (v : Nat → List Val) : List Val := (s.actives i).flatMap (fun l => v l ++ [Instr.maskBit i (s.lane s.cur.g l)])

/-- The 32-bit mask of some lanes. -/
def laneMask (p : Nat → Bool) : Nat := (((List.range 32).filter p).map (2 ^ ·)).sum

-- ## Frames

/-- The destination of the instructions of the common execution: the scalar family, the vector instructions, the special functions, the accumulators
and the cross-lane network (R83, R155, R173, R178, R185); none for the others. -/
def Instr.dest : Instr → Option Dst
  | .kadd _ _ d _ _ => some (.k d.toNat)
  | .ksub _ _ d _ _ => some (.k d.toNat)
  | .kmul _ _ d _ _ => some (.k d.toNat)
  | .kmulh _ _ d _ _ => some (.k d.toNat)
  | .kdiv _ _ d _ _ => some (.k d.toNat)
  | .krem _ _ d _ _ => some (.k d.toNat)
  | .kand _ d _ _ => some (.k d.toNat)
  | .kor _ d _ _ => some (.k d.toNat)
  | .kxor _ d _ _ => some (.k d.toNat)
  | .kshl _ _ d _ _ => some (.k d.toNat)
  | .kshr _ _ d _ _ => some (.k d.toNat)
  | .ksra _ _ d _ _ => some (.k d.toNat)
  | .kmin _ _ d _ _ => some (.k d.toNat)
  | .kmax _ _ d _ _ => some (.k d.toNat)
  | .kcmp _ _ d _ _ => some (.q d.toNat)
  | .ksel _ _ d _ _ => some (.k d.toNat)
  | .kclz _ _ d _ => some (.k d.toNat)
  | .kpopc _ _ d _ => some (.k d.toNat)
  | .kli _ d _ => some (.k d.toNat)
  | .khi _ _ d _ _ => some (.k d.toNat)
  | .kmov _ d _ => some (.k d.toNat)
  | .kfromv _ _ d _ => some (.k d.toNat)
  | .kfromq _ _ d => some (.k d.toNat)
  | .ktoq _ _ d _ => some (.q d.toNat)
  | .vadd _ t d _ _ => some (.v d.toNat (ityRows t))
  | .vsub _ t d _ _ => some (.v d.toNat (ityRows t))
  | .vmul _ t d _ _ => some (.v d.toNat (ityRows t))
  | .vmulh _ t d _ _ => some (.v d.toNat (ityRows t))
  | .vmad _ t d _ _ => some (.v d.toNat (ityRows t))
  | .vdiv _ t d _ _ => some (.v d.toNat (ityRows t))
  | .vrem _ t d _ _ => some (.v d.toNat (ityRows t))
  | .vmin _ t d _ _ => some (.v d.toNat (ityRows t))
  | .vmax _ t d _ _ => some (.v d.toNat (ityRows t))
  | .vabs _ t d _ => some (.v d.toNat (ityRows t))
  | .vand _ t d _ _ => some (.v d.toNat (ityRows t))
  | .vor _ t d _ _ => some (.v d.toNat (ityRows t))
  | .vxor _ t d _ _ => some (.v d.toNat (ityRows t))
  | .vnot _ t d _ => some (.v d.toNat (ityRows t))
  | .vshl _ t d _ _ => some (.v d.toNat (ityRows t))
  | .vshr _ t d _ _ => some (.v d.toNat (ityRows t))
  | .vsra _ t d _ _ => some (.v d.toNat (ityRows t))
  | .vrot _ t d _ _ => some (.v d.toNat (ityRows t))
  | .vclz _ _ d _ => some (.v d.toNat 1)
  | .vpopc _ _ d _ => some (.v d.toNat 1)
  | .vbrev _ t d _ => some (.v d.toNat (ityRows t))
  | .vsel _ _ d _ _ => some (.v d.toNat 1)
  | .vmov _ w d _ => some (.v d.toNat (rows64 w))
  | .vbcast _ w d _ => some (.v d.toNat (rows64 w))
  | .vli _ d _ => some (.v d.toNat 1)
  | .vliHi _ d _ => some (.v d.toNat 1)
  | .vcmpEq _ _ d _ _ => some (.q d.toNat)
  | .vcmpNe _ _ d _ _ => some (.q d.toNat)
  | .vcmpLt _ _ d _ _ => some (.q d.toNat)
  | .vcmpLe _ _ d _ _ => some (.q d.toNat)
  | .vcmpGt _ _ d _ _ => some (.q d.toNat)
  | .vcmpGe _ _ d _ _ => some (.q d.toNat)
  | .vcvti _ t d _ _ => some (.v d.toNat (ityRows t))
  | .qand _ d _ _ => some (.q d.toNat)
  | .qor _ d _ _ => some (.q d.toNat)
  | .qxor _ d _ _ => some (.q d.toNat)
  | .qnot _ d _ => some (.q d.toNat)
  | .qmov _ d _ => some (.q d.toNat)
  | .fadd _ t d _ _ => some (.v d.toNat (ftyRows t))
  | .fsub _ t d _ _ => some (.v d.toNat (ftyRows t))
  | .fmul _ t d _ _ => some (.v d.toNat (ftyRows t))
  | .ffma _ t d _ _ => some (.v d.toNat (ftyRows t))
  | .fmin _ t d _ _ => some (.v d.toNat (ftyRows t))
  | .fmax _ t d _ _ => some (.v d.toNat (ftyRows t))
  | .fsgn _ t d _ _ => some (.v d.toNat (ftyRows t))
  | .fsgnNeg _ t d _ _ => some (.v d.toNat (ftyRows t))
  | .fsgnXor _ t d _ _ => some (.v d.toNat (ftyRows t))
  | .fcmpEq _ _ d _ _ => some (.q d.toNat)
  | .fcmpNe _ _ d _ _ => some (.q d.toNat)
  | .fcmpLt _ _ d _ _ => some (.q d.toNat)
  | .fcmpLe _ _ d _ _ => some (.q d.toNat)
  | .fcmpGt _ _ d _ _ => some (.q d.toNat)
  | .fcmpGe _ _ d _ _ => some (.q d.toNat)
  | .fcmpUn _ _ d _ _ => some (.q d.toNat)
  | .fcmpOr _ _ d _ _ => some (.q d.toNat)
  | .fclass _ _ d _ => some (.v d.toNat 1)
  | .fcvt _ f d _ _ => some (.v d.toNat (ftyRows3 f))
  | .fcvtToInt _ f d _ _ => some (.v d.toNat (ityRows f))
  | .fcvtFromInt _ f d _ _ => some (.v d.toNat (ftyRows3 f))
  | .frnd _ t d _ => some (.v d.toNat (ftyRows t))
  | .hadd2 _ _ d _ _ => some (.v d.toNat 1)
  | .hmul2 _ _ d _ _ => some (.v d.toNat 1)
  | .hfma2 _ _ d _ _ => some (.v d.toNat 1)
  | .hcmp2 _ _ _ d _ _ => some (.v d.toNat 1)
  | .wmad _ _ w _ _ => some (.w w.toNat)
  | .wdot4 _ _ w _ _ => some (.w w.toNat)
  | .waddAccumulator _ _ d _ _ => some (.w d.toNat)
  | .wclr _ d => some (.w d.toNat)
  | .narrow _ f d _ => some (.v d.toNat (rows64 (bit (f = 0#3))))
  | .widen _ _ d _ => some (.w d.toNat)
  | .shfl _ w d _ _ => some (.v d.toNat (rows64 w))
  | .shflx _ w d _ _ => some (.v d.toNat (rows64 w))
  | .shflu _ w d _ _ => some (.v d.toNat (rows64 w))
  | .shfld _ w d _ _ => some (.v d.toNat (rows64 w))
  | .vote _ _ d _ => some (.v d.toNat 1)
  | .redg _ _ d _ => some (.v d.toNat 1)
  | .scang _ _ d _ => some (.v d.toNat 1)
  | .matchLanes _ _ d _ => some (.v d.toNat 1)
  | .vkey _ t d _ => some (.v d.toNat (ftyRows t))
  | .srcp _ _ d _ => some (.v d.toNat 1)
  | .srsq _ _ d _ => some (.v d.toNat 1)
  | .ssqrt _ _ d _ => some (.v d.toNat 1)
  | .sexp2 _ _ d _ => some (.v d.toNat 1)
  | .slog2 _ _ d _ => some (.v d.toNat 1)
  | .ssin _ _ d _ => some (.v d.toNat 1)
  | .scos _ _ d _ => some (.v d.toNat 1)
  | .stanh _ _ d _ => some (.v d.toNat 1)
  | _ => none

/-- Two fibres agree in everything a program reads, but for the PC and the register `r` of `but`: the registers with their tags, the window base, the
predicates, the return stack, the guess limit and the trap registers. -/
def Fibre.agree (b c : Fibre) (but : List Reg) : Prop :=
  (∀ r, r ∉ but → b.regVal r = c.regVal r) ∧ b.cw.x = c.cw.x ∧ b.cw.ja = c.cw.ja ∧ b.cw.wb = c.cw.wb ∧ b.stack = c.stack ∧ b.stackBase = c.stackBase ∧ b.depth = c.depth ∧
    b.glim = c.glim ∧ b.epc = c.epc ∧ b.fcw = c.fcw ∧ b.tsc0 = c.tsc0 ∧ b.tsc1 = c.tsc1 ∧ b.faulted = c.faulted

/-- The registers that the last-use bits in force free in a fibre, but for those the instruction writes (R54). -/
def Instr.frees (i : Instr) (d : Dst) (b : Fibre) : List Reg :=
  ((fallback i).2.last.flatMap (fun o => operandRegs o b)).filter (fun r => r ∉ d.regs b)

/-- Two groups agree in their own registers: FPMODE, the trap registers, the handles and the four counters (R19, R130 to R134, R154, R301). -/
def Group.agree (x y : Group) : Prop :=
  x.fpmode = y.fpmode ∧ x.cause = y.cause ∧ x.det0 = y.det0 ∧ x.det1 = y.det1 ∧ x.det2 = y.det2 ∧ x.h = y.h ∧ x.m = y.m ∧ x.handles = y.handles ∧
    x.loads = y.loads ∧ x.stores = y.stores ∧ x.copies = y.copies ∧ x.tiles = y.tiles ∧ x.declared = y.declared ∧ x.arrivals = y.arrivals

/-- Memory and everything beside the groups that a program can read is as before: every byte, the poison marks, the host's halves, the slots and the
channels. -/
def State.quiet (s t : State) : Prop :=
  (∀ a, Memory.read t.mem a = Memory.read s.mem a) ∧ t.poison = s.poison ∧ t.host = s.host ∧ t.slots = s.slots ∧ t.calls = s.calls ∧ t.signals = s.signals ∧
    t.posts = s.posts ∧ t.sent = s.sent ∧ t.pkg = s.pkg ∧ t.vfs = s.vfs ∧ t.dies = s.dies

/-- FPMODE of the issuing group enables no trap (R154). -/
def State.noFpTraps (s : State) : Prop := s.here.fpmode &&& 0xF0#32 = 0#32

-- ## Traps (R120, R130 to R135)

/-- The context of the issuing group is there and nothing halts it. -/
def State.running (s : State) : Prop := (s.ctxs.find? s.here.ctx).isSome = true ∧ (s.ctx s.here.ctx).halt = none

/-- REASON of a trap: 5, a double fault, where the group's traps are masked or the context has no handler, 6 for BRK in a context that is debugged,
else 0 (R127, R129, R135). -/
def State.reasonOf (s : State) (t : Trap) : Nat :=
  if t.cause = 10 ∧ t.sub = 0 ∧ (s.ctx s.here.ctx).d then 6 else if s.here.m ∨ (s.ctx s.here.ctx).entry = 0 then 5 else 0

/-- A trap of the instruction in execution has been raised: the halt of its context starts, with the trap, the issue set and the PC of the lowest
faulting lane, and the fibres keep their PCs and registers: a precise trap takes effect in no fibre (R120, R135). -/
def State.trapsTo (s t : State) (tr : Trap) : Prop :=
  (∃ h, (t.ctx s.here.ctx).halt = some h ∧ h.reason = s.reasonOf tr ∧ h.group = s.cur.g ∧ h.trap = tr ∧ h.lanes = s.cur.lanes ∧ h.incomplete = true ∧
    h.epc = (s.lane s.cur.g tr.lane).pc ∧ h.phase = .stopping ∧ h.since = s.clocks ∧ h.reached = [] ∧ h.stopped = []) ∧
  (∀ l, s.liveAt s.cur.g l → s.stays t l) ∧ t.mem = s.mem

/-- The active lanes that raise an exception, by its flag in FPMODE, with results that carry neither G nor P (R153). -/
def State.raisers (s : State) (i : Instr) (r : Nat → Nat × Nat) (v : Nat → List Val) (flag : Nat) : List Nat :=
  s.cur.lanes.filter (fun l => (Instr.maskBit i (s.lane s.cur.g l)).bits = 1 ∧ (withTags 0 (Instr.maskBit i (s.lane s.cur.g l) :: v l)).g = false ∧
    (withTags 0 (Instr.maskBit i (s.lane s.cur.g l) :: v l)).p = false ∧ bitAt (r l).2 flag = true)

/-- The enabled exception of the lowest number that an instruction raises with clean results, and the lanes that raise it (R153, R154). -/
def State.raised (s : State) (i : Instr) (r : Nat → Nat × Nat) (v : Nat → List Val) : Option (Nat × List Nat) :=
  if s.here.fpmode.getLsbD 7 ∧ s.raisers i r v 14 ≠ [] then some (1, s.raisers i r v 14)
  else if s.here.fpmode.getLsbD 6 ∧ s.raisers i r v 13 ≠ [] then some (2, s.raisers i r v 13)
  else if s.here.fpmode.getLsbD 5 ∧ s.raisers i r v 12 ≠ [] then some (3, s.raisers i r v 12)
  else if s.here.fpmode.getLsbD 4 ∧ s.raisers i r v 11 ≠ [] then some (4, s.raisers i r v 11)
  else none

/-- DET1 of lanes: the mask of those that faulted (R133). -/
def laneBits (l : List Nat) : W64 := BitVec.ofNat 64 (laneMask (fun i => i ∈ l))

-- ## Completion and frames of the other instructions

/-- No value among some operands of the issue set carries a tag (R68, R69). -/
def State.untagged (s : State) (ops : Nat → List Val) : Prop := ∀ l ∈ s.cur.lanes, ∀ v ∈ ops l, v.g = false ∧ v.p = false

/-- A k register by its code, with its tags. -/
def Fibre.kOf (b : Fibre) (c : BitVec 7) : Val := b.regVal ⟨.k, c.toNat - 96⟩

/-- The 64-bit value of a k register by its code. -/
def Fibre.kAddr (b : Fibre) (c : BitVec 7) : W64 := BitVec.ofNat 64 (b.kOf c).bits

/-- A lane stands at an address and waits for nothing. -/
def State.standsAt (t : State) (g l : Nat) (pc : W64) : Prop := (t.lane g l).pc = pc ∧ (t.lane g l).wait = .free

/-- Fibres are as they were, but for what an instruction does to the issue set: its PCs, its waits and the registers `regs`. -/
def State.lanesKept (s t : State) (regs : Nat → List Reg) : Prop :=
  (∀ g l, g ≠ s.cur.g → (t.lane g l).pc = (s.lane g l).pc ∧ (t.lane g l).agree (s.lane g l) []) ∧
  (∀ l, s.liveAt s.cur.g l → (l ∉ s.cur.lanes → (t.lane s.cur.g l).pc = (s.lane s.cur.g l).pc) ∧
    (t.lane s.cur.g l).agree (s.lane s.cur.g l) (if l ∈ s.cur.lanes then regs l else []))

/-- The whole machine is as it was, but for what an instruction does to the issue set: its PCs, its waits and the registers `regs`. -/
def State.framed (s t : State) (regs : Nat → List Reg) : Prop := s.quiet t ∧ (∀ g, (t.group g).agree (s.group g)) ∧ s.lanesKept t regs

/-- Memory and everything beside the groups that a program can read is as before, but for the translations that the dies hold, and
what their walks passed (R207). -/
def State.still (s t : State) : Prop :=
  (∀ a, Memory.read t.mem a = Memory.read s.mem a) ∧ t.poison = s.poison ∧ t.host = s.host ∧ t.slots = s.slots ∧ t.calls = s.calls ∧ t.signals = s.signals ∧
    t.posts = s.posts ∧ t.sent = s.sent ∧ t.pkg = s.pkg ∧ t.vfs = s.vfs ∧ ∀ d, { t.die d with tlb := [], walks := [] } = { s.die d with tlb := [], walks := [] }

/-- Every byte of memory and what the L2s hold owned is as before, and so is everything beside groups, slots and translations that a program can read: an
instruction that may free a slot version, and with it the pins of a streamed block (R302, R311). -/
def State.calm (s t : State) : Prop :=
  (∀ a, Memory.read t.mem a = Memory.read s.mem a) ∧ (∀ a, (t.directoryLine (lineOf a)).data.getD (a % 128) 0 = (s.directoryLine (lineOf a)).data.getD (a % 128) 0) ∧
    t.poison = s.poison ∧ t.host = s.host ∧ t.calls = s.calls ∧ t.signals = s.signals ∧ t.posts = s.posts ∧ t.sent = s.sent ∧ t.pkg = s.pkg ∧ t.vfs = s.vfs

/-- The groups agree in all their own registers, but for the handles, and the count of tile operations, of the issuing group. -/
def State.handlesOnly (s t : State) (tiles : Nat) : Prop :=
  (∀ g, g ≠ s.cur.g → (t.group g).agree (s.group g)) ∧ t.here.agree { s.here with handles := t.here.handles, tiles := tiles }

/-- A deferred fault charged to a group that has live fibres and whose context runs: the halt of the context starts, with every live fibre of the group and
REASON 5 where its traps are masked or there is no handler, else 0 (R135). -/
def State.defersTo (s t : State) (g : Nat) (tr : Trap) : Prop :=
  let x := s.group g
  (s.ctxs.find? x.ctx).isSome = true → s.runs x.ctx g = true → (∃ l, s.liveAt g l) →
    ∃ h, (t.ctx x.ctx).halt = some h ∧ h.trap = tr ∧ tr.deferred = true ∧ h.group = g ∧ (∀ l, l ∈ h.lanes ↔ s.liveAt g l) ∧ h.incomplete = false ∧ h.phase = .stopping ∧
      h.reason = if x.m ∨ (s.ctx x.ctx).entry = 0 then 5 else 0

/-- The registers that an instruction without a destination frees in a lane (R54). -/
def State.freed (s : State) (i : Instr) (l : Nat) : List Reg := Instr.frees i .none (s.lane s.cur.g l)

/-- The issue set is some of the live fibres of its group, each once (R27). -/
def State.issued (s : State) : Prop := s.cur.lanes.Nodup ∧ ∀ l ∈ s.cur.lanes, s.liveAt s.cur.g l

-- ## Memory accesses

/-- The address of a lane of an access: a register and a byte offset, modulo 2^64, with the register's tags (R49, R226, R242). -/
def State.addr (s : State) (base : Src) (off : W64) (l : Nat) : Val := ⟨((s.opnd l base).bits + off.toNat) % 2 ^ 64, (s.opnd l base).g, (s.opnd l base).p⟩

/-- A lane of the group in execution waits with an interlock on a register (R16). -/
def Fibre.locked (b : Fibre) (r : Reg) : Prop := ∃ k ∈ b.locks, k.reg = r

/-- The limit that a load takes from its lim field, in ticks (R222). -/
def limitTicks (lim : Nat) (b : Fibre) : Nat :=
  if lim = 0 then 0 else if lim = 7 then b.glim.toNat else if lim = 6 then 4096 else 32 * 2 ^ lim

/-- What a masked-off fibre's destination holds after an instruction that writes its result later: 0 under mz, else what it held, the mask predicate's tags
ORed in (R53, R155, R236). -/
def State.maskedRead (s : State) (i : Instr) (d : Dst) (l : Nat) : Val :=
  let b := s.lane s.cur.g l
  let m := Instr.maskBit i b
  if Instr.zeroes i then d.holds ⟨0, m.g, m.p⟩ else d.holds ⟨(d.read b).bits, (d.read b).g || m.g, (d.read b).p || m.p⟩

/-- The lines of a lane's data, its bytes and for an LDX its scale byte, are in the L1 of its core and may be read there (R200, R274, R295). -/
def State.hits (s : State) (core : Nat) (e : LaneLoad) : Prop :=
  e.l1 = true ∧ ((s.core core).l1.find? (lineOf (e.pa.getD 0))).isSome = true ∧ ∀ a, e.scale = some a → ((s.core core).l1.find? (lineOf a)).isSome = true

/-- The port of a core serves a request of so many tokens of a context's VF at once: the VF is up, no request waits there before this one, its bucket
holds the tokens, and the port has room for them in the interval (R370, R371, R375). -/
def State.serves (s : State) (ctx core n : Nat) (a : Ask) : Prop :=
  (s.vf (s.ctx ctx).vf).alive = true ∧
    ∀ b, (s.core core).buckets.find? (s.ctx ctx).vf = some b → (∀ q, (s.wanted core).head? = some q → q.ask = a) ∧ n ≤ b.balance ∧ (s.core core).carried + n ≤ 1024

/-- The port of a core has room for so many tokens of a context's VF, which is up, and no request waits there (R370, R371, R375). -/
def State.roomy (s : State) (ctx core n : Nat) : Prop :=
  (s.vf (s.ctx ctx).vf).alive = true ∧
    ∀ b, (s.core core).buckets.find? (s.ctx ctx).vf = some b → s.wanted core = [] ∧ n ≤ b.balance ∧ (s.core core).carried + n ≤ 1024

/-- The data of a lane can be read at once: nothing of its fibre stands before it, and the L1 holds it, or no host holds its line, the port serves the
request, the home's firewall takes it, and the L2 holds the line, has room for it or does not take it (R224, R246, R265, R280, R368, R370). -/
def State.readable (s : State) (core id lane : Nat) (w : Load) (e : LaneLoad) : Prop :=
  let pa := e.pa.getD 0
  let l2 := (s.die (dieOf core)).l2
  s.laneReady core w e = true ∧ (w.scratch = true ∨ s.hits core e ∨ (e.scale = none ∧ (e.host = true → s.hostHolds (lineOf pa) = false) ∧
    s.serves w.ctx core (tokens w.bytes) ⟨0, id, lane⟩ ∧ s.barred (dieOf core) (lineOf pa) = false ∧ (e.mtype = 2 ∨
      (w.bytes ∈ [1, 2, 4, 8, 16] ∧ pa % w.bytes = 0 ∧ (e.l2 = false ∨ (l2.find? (lineOf pa)).isSome = true ∨ l2.length < Config.l2Ways)))))

/-- What a lane of a load finds, and whether it is poisoned: its bytes of the scratch window, or those of memory as its core sees them, in its result form
(R225, R227, R228, R269, R274). -/
def State.loaded (s : State) (core : Nat) (w : Load) (lane : Nat) (e : LaneLoad) : Nat × Bool :=
  let pa := e.pa.getD 0
  if w.scratch then
    let r := s.scratchRead core w.ctx pa w.bytes
    (e.form.value lane (ofBytes r.1) 0, r.2)
  else
    let r := s.coreRead w.ctx core pa w.bytes e.mtype e.l1
    match e.scale with
    | none => (e.form.value lane (ofBytes r.1) 0, r.2)
    | some k => let q := s.coreRead w.ctx core k 1 e.mtype e.l1; (e.form.value lane (ofBytes r.1) (ofBytes q.1), r.2 || q.2)

/-- A register, or a run of v registers, holds a value with its tags (R58, R225). -/
def Fibre.holdsAt (b : Fibre) (r : Reg) (rows : Nat) (v : Val) : Prop :=
  match r.file with
  | .v => b.vRows r.idx rows = ⟨v.bits % 2 ^ (32 * rows), v.g, v.p⟩
  | .k => b.regVal r = ⟨v.bits % 2 ^ 64, v.g, v.p⟩
  | .w => b.regVal r = ⟨v.bits % 2 ^ 64, v.g, v.p⟩
  | .q => r.idx < 8 → b.regVal r = ⟨v.bits % 2, v.g, v.p⟩

/-- VGuess of a lane of a load: its entry of the value-guess table, which one context fills at a time, or 0 (R233). -/
def State.vguess (s : State) (core ctx : Nat) (pc : W64) (lane : Nat) : Nat :=
  match (s.core core).guesses.find? (pc.toNat / 4 % 1024) with
  | some e => if e.ctx = ctx then (e.base + e.stride * BitVec.ofNat 64 lane).toNat else 0
  | none => 0

/-- The fibre of a lane is still the one with a number. -/
def State.holdsFibre (s : State) (g lane uid : Nat) : Prop := s.liveAt g lane ∧ (s.lane g lane).uid = uid

/-- The current value of a byte of memory: that of the L2 which holds its line owned, or of memory (R201, R278). -/
def State.byteAt (s : State) (a : Nat) : Byte := (s.directoryLine (lineOf a)).data.getD (a % 128) 0

/-- The owner key of a context's VF, by its number (R372). -/
def State.keyOf (s : State) (ctx : Nat) : Nat := (s.vf (s.ctx ctx).vf).generation

/-- The bytes of memory whose value is known after a write of `n` bytes at `f i` under an owner key: those written, those of other lines, and those of lines
that no other key had sealed (R372). -/
def State.keeps (s : State) (key : Nat) (f : Nat → Nat) (n a : Nat) : Prop :=
  (∃ i, i < n ∧ f i = a) ∨ (∀ i, i < n → lineOf (f i) ≠ lineOf a) ∨ ∀ g, s.seals.find? (lineOf a) = some g → g = key

/-- The L2s hold a line whole, at most one of them owned, the L2 of a die holds it or has room for it, and no firewall refuses what the die asks of it
(R201, R278, R367). -/
def State.lineSound (s : State) (d la : Nat) : Prop :=
  d < Config.dies ∧ (∀ e y, (s.die e).l2.find? la = some y → y.data.length = 128) ∧
    (∀ e f y z, (s.die e).l2.find? la = some y → (s.die f).l2.find? la = some z → y.dirty = true → z.dirty = true → e = f) ∧
    (((s.die d).l2.find? la).isSome = true ∨ (s.die d).l2.length < Config.l2Ways) ∧ s.barred d la = false

/-- The L2s hold a line whole, and at most one of them owns it, whose die's firewall takes the directory's messages (R201, R278, R367). -/
def State.wholeLine (s : State) (la : Nat) : Prop :=
  (∀ e y, (s.die e).l2.find? la = some y → y.data.length = 128) ∧
    (∀ e f y z, (s.die e).l2.find? la = some y → (s.die f).l2.find? la = some z → y.dirty = true → z.dirty = true → e = f) ∧
    ∀ e y, (s.die e).l2.find? la = some y → y.dirty = true → s.snoopOk e la = true

/-- A ring after an event: it is coalesced into the entry most recently written where type, VF and address are the same, is lost where the ring is full,
and else is written as the next entry (R373). -/
def Ring.takes (r q : Ring) (e : Event) : Prop :=
  q.bits = r.bits ∧ q.taken = r.taken ∧
    if ∃ y, r.latest = some y ∧ y.type = e.type ∧ y.vf = e.vf ∧ y.addr = e.addr then
      ∃ y, r.latest = some y ∧ q.written = r.written ∧ q.latest = some { y with count := min (y.count + 1) (2 ^ 32 - 1) } ∧
        q.slots.find? ((r.written - 1) % 2 ^ r.bits) = some (Event.bytes { y with count := min (y.count + 1) (2 ^ 32 - 1) }) ∧
        ∀ n, n ≠ (r.written - 1) % 2 ^ r.bits → q.slots.find? n = r.slots.find? n
    else if 2 ^ r.bits ≤ r.written - r.taken then q = r
    else q.written = r.written + 1 ∧ q.latest = some e ∧ q.slots.find? (r.written % 2 ^ r.bits) = some e.bytes ∧
      ∀ n, n ≠ r.written % 2 ^ r.bits → q.slots.find? n = r.slots.find? n

/-- An event of a VF is put into its ring, and its bit into VUES, or into the ring of the supervisor where the VF is not up (R373, R374). -/
def State.reports (s t : State) (vf type : Nat) (addr : W64) (place : W32) : Prop :=
  let e : Event := ⟨type, vf, severityOf type, 1, addr, s.ticks, place⟩
  if (s.vf vf).alive then Ring.takes (s.vf vf).ring (t.vf vf).ring e ∧ (t.vf vf).vues = (s.vf vf).vues ||| vuesBit type ∧ t.pkg.ring = s.pkg.ring
  else Ring.takes s.pkg.ring t.pkg.ring e ∧ t.vfs = s.vfs

/-- An event of a VF, or of none with 0xFF, is put into the ring of the supervisor (R373). -/
def State.reportsUp (s t : State) (vf type : Nat) (addr : W64) (place : W32) : Prop :=
  Ring.takes s.pkg.ring t.pkg.ring ⟨type, vf, severityOf type, 1, addr, s.ticks, place⟩

/-- The value that an atomic writes, from the `w` bits of memory `x`, the operand `y` and the value `z` of d before (R248). -/
def atomicNew (op : AtomicOp) (w x y z : Nat) : Nat :=
  let m := BitVec.ofNat w x
  let b := BitVec.ofNat w y
  match op with
  | .add => (m + b).toNat
  | .minS => (if b.slt m then b else m).toNat
  | .maxS => (if m.slt b then b else m).toNat
  | .minN => (if b.ult m then b else m).toNat
  | .maxN => (if m.ult b then b else m).toNat
  | .and => (m &&& b).toNat
  | .or => (m ||| b).toNat
  | .xor => (m ^^^ b).toNat
  | .xchg => b.toNat
  | .cas => (if m = BitVec.ofNat w z then b else m).toNat
  | .f32 => (Machine.f32.add 0 false 0 (Machine.f32.num m.toNat) (Machine.f32.num b.toNat)).1
  | .f64 => (Machine.f64.add 0 false 0 (Machine.f64.num m.toNat) (Machine.f64.num b.toNat)).1
  | .f16x2 => (Machine.f16.add 0 false 0 (Machine.f16.num (x % 2 ^ 16)) (Machine.f16.num (y % 2 ^ 16))).1
      + 2 ^ 16 * (Machine.f16.add 0 false 0 (Machine.f16.num (x / 2 ^ 16 % 2 ^ 16)) (Machine.f16.num (y / 2 ^ 16 % 2 ^ 16))).1
  | .bf16x2 => (Machine.bf16.add 0 false 0 (Machine.bf16.num (x % 2 ^ 16)) (Machine.bf16.num (y % 2 ^ 16))).1
      + 2 ^ 16 * (Machine.bf16.add 0 false 0 (Machine.bf16.num (x / 2 ^ 16 % 2 ^ 16)) (Machine.bf16.num (y / 2 ^ 16 % 2 ^ 16))).1

/-- The states that a run keeps to: memory stands in its canonical form (R198). -/
def State.Inv (s : State) : Prop := Memory.wf s.mem = true

end Sys2Proof.Machine
end

