-- ==== Sys2Proof/Certificates/Slice0/Obligations.lean ====
section
/-! DEFINITION. The statements: one proposition each, from the numbered rules of the manual. -/

open Sys2Proof Sys2Proof.Machine

/-- R44, R45, R46, R47, R49, R51, R52, R61, R247, R339, R353. Words that the manual writes out decode to the instructions it writes them for: one or more of every family of the opcode table. -/
def Obligations.DecodesSpecWords : Prop :=
  decodeWords [0x00000000#32] = .ins (.nop Mods.none) 1 ∧
  decodeWords [0x02300007#32] = .ins (.brq Mods.none 1 1 7) 1 ∧
  decodeWords [0x04FFFFFB#32] = .ins (.call Mods.none 0xFFFFFB) 1 ∧
  decodeWords [0xFE000020#32, 0x10184000#32] = .ins (.kli ⟨some 0x20, none⟩ 97 0) 2 ∧
  decodeWords [0x1338B160#32] = .ins (.kadd Mods.none 1 98 98 96) 1 ∧
  decodeWords [0x2803F03F#32] = .ins (.waitc Mods.none 0 63 0 63) 1 ∧
  decodeWords [0x2D184001#32] = .ins (.lease Mods.none 97 1) 1 ∧
  decodeWords [0x33184001#32] = .ins (.tmsk Mods.none 97 1) 1 ∧
  decodeWords [0x341B8016#32] = .ins (.srd Mods.none 110 0x16) 1 ∧
  decodeWords [0xFE000000#32, 0x40414181#32] = .ins (.vadd ⟨some 0, none⟩ 2 5 3 1) 2 ∧
  decodeWords [0x58DC7CF8#32] = .ins (.vcmpEq Mods.none 6 113 121 120) 1 ∧
  decodeWords [0xFF521D10#32, 0x73210286#32] = .ins (.ffma ⟨none, some ⟨2, 1, 1, 7, 0, 4, 2⟩⟩ 1 4 5 6) 2 ∧
  decodeWords [0x82238712#32] = .ins (.fcvtFromInt Mods.none 1 14 14 2) 1 ∧
  decodeWords [0x90208180#32] = .ins (.srcp Mods.none 1 2 3) 1 ∧
  decodeWords [0x9800C205#32] = .ins (.wmad Mods.none 0 3 4 5) 1 ∧
  decodeWords [0xFE000000#32, 0xA0218284#32] = .ins (.shflx ⟨some 0, none⟩ 0 6 5 4) 2 ∧
  decodeWords [0xACA0F082#32] = .ins (.ld32 Mods.none 5 3 97 0 2) 1 ∧
  decodeWords [0xFE000001#32, 0xFF200000#32, 0xB4427402#32] = .ins (.st ⟨some 1, some ⟨1, 0, 0, 0, 0, 0, 0⟩⟩ 2 9 104 0 2) 3 ∧
  decodeWords [0xB31C4200#32] = .ins (.gtest Mods.none 113 4 0) 1 ∧
  decodeWords [0xBD24F265#32] = .ins (.rfence Mods.none 2 3 100 101) 1 ∧
  decodeWords [0xC2048083#32] = .ins (.hgive Mods.none 1 8 2 3) 1 ∧
  decodeWords [0xCC108301#32] = .ins (.mma Mods.none 4 8 12 0 1) 1 ∧
  decodeWords [0x631CB880#32] = .ins (.qnot Mods.none 114 113) 1 ∧
  decodeWords [0xB8010C85#32] = .ins (.aadd Mods.none 0 4 3 1 5) 1 ∧
  decodeWords [0xD0393163#32] = .ins (.cpy Mods.none 1 100 98 99) 1 ∧
  decodeWords [0xD8187100#32] = .ins (.coll Mods.none 97 98) 1

/-- R9, R44, R45, R47, R49, R52, R61. Decoding and encoding agree: every well-formed instruction, with its prefixes, whatever its operands, is what
the decoder reads from its words, and from its bytes, whatever follows them. -/
def Obligations.DecodeEncode : Prop :=
  ∀ (i : Instr) (words : List W32) (bytes : List Byte), i.wf = true →
    decodeWords (encode i ++ words) = .ins i (encode i).length ∧ decodeBytes ((encode i).flatMap (fun w => bytesOf 4 w.toNat) ++ bytes) = some (i, bytes)

/-- R45, R61, R62, R133. A word is ILLEGAL with field code 15 where its opcode byte is reserved, where a second IMX follows an IMX, or where a prefix
follows an OPX; and an OPX with a bit of [2:0] set never leads to an instruction. Whatever the decoder accepts is well formed and at most three words
long. -/
def Obligations.ReservedEncodings : Prop :=
  ∀ (w v u : W32) (t : List W32),
    let op := fun (x : W32) => (x.extractLsb' 24 8).toNat
    let reserved := fun (n : Nat) => (0x0D ≤ n ∧ n ≤ 0x0F) ∨ n = 0x2F ∨ (0x38 ≤ n ∧ n ≤ 0x3F) ∨ (0x65 ≤ n ∧ n ≤ 0x6F) ∨ (0x88 ≤ n ∧ n ≤ 0x8F) ∨ n = 0x9E ∨ n = 0x9F ∨ n = 0xA6 ∨ n = 0xA7 ∨
      n = 0xBF ∨ n = 0xD6 ∨ n = 0xD7 ∨ (0xDD ≤ n ∧ n ≤ 0xFD)
    let imx := fun (x : W32) => op x = 0xFE
    let opx := fun (x : W32) => op x = 0xFF
    (reserved (op w) → decodeWords (w :: t) = .illegal ⟨.opcode, 15⟩ 1) ∧
    (imx w → imx v → decodeWords (w :: v :: t) = .illegal ⟨.prefixSequence, 15⟩ 2) ∧
    (opx w → imx v ∨ opx v → decodeWords (w :: v :: t) = .illegal ⟨.prefixSequence, 15⟩ 2) ∧
    (imx w → opx v → imx u ∨ opx u → decodeWords (w :: v :: u :: t) = .illegal ⟨.prefixSequence, 15⟩ 3) ∧
    (opx w → w.extractLsb' 0 3 ≠ 0#3 → ∀ i n, decodeWords (w :: t) ≠ .ins i n) ∧
    (∀ (l : List W32) (i : Instr) (n : Nat), decodeWords l = .ins i n → i.wf = true ∧ 1 ≤ n ∧ n ≤ 3 ∧ n ≤ l.length)

/-- R27, R29, R44, R45, R62, R109, R110, R112, R133, R370. An issue cycle of a group whose context runs, that is on the carriageway, has not issued on
this clock, whose track runs on it (log entry 111) and that is granted its port. The words at the chosen PC are fetched from memory through the context's translation until they decode. The PC is
the lowest with a ready fibre, unless a slice has aged, and every ready fibre at it is issued. Where the words are an instruction, the step executes
it, and changes nothing of itself but junctions and counter waits that release, age counters, the port and passes of the track, the rows that the register
cache holds, what is noted of fibres that run on (log entry 19), and the lines of instructions that are brought in through the core's port, with the
count of their packets. Where they are not, it raises ILLEGAL. Log entry 25: DET1, DET2
and the word count that an illegal sequence of prefixes leaves. -/
def Obligations.StepRunsDecoded : Prop :=
  (∀ (s : State) (g : Nat) (x : Group) (pc : W64) (words : List W32) (i : Instr) (pa : Nat → Nat) (pg : Nat → Page), pc.toNat % 4 = 0 → decodeWords words = .ins i words.length →
    (∀ k w, words[k]? = some w → s.xlate x.ctx x.core (pc + BitVec.ofNat 64 (4 * k)) .fetch = .ok (pa k) (pg k) ∧ s.fabricRead x.ctx x.core (pa k) 4 (pg k) = (bytesOf 4 w.toNat, false) ∧
      lineOf (pa k) ∉ (s.core x.core).badLines ∧ ((pg k).consults = true → s.hostHolds (lineOf (pa k)) = false) ∧
      (lineOf (pa k) ∈ (s.core x.core).icache ∨ (s.vfUp x.ctx = true ∧ s.portTurn x.ctx x.core 6 ⟨8, g, pc.toNat⟩ = true))) →
    s.fetch g x pc = .done (.ins i words.length) words) ∧
  (∀ (g : Nat) (rest : List Action) (words : List W32) (c : Cand) (s : State),
    let u := (({ s with agenda := rest } : State).releaseCounters g).releaseJunctions g
    let x := u.group g
    s.agenda = .issue g :: rest → s.pkg.railsUp = true → (s.groups.find? g).isSome = true → (s.group g).set = .carriageway → (s.group g).yielding = false → s.mayIssue g = true → (s.group g).lastIssue ≤ s.clocks →
      ((s.core (s.group g).core).track (s.group g).track).runsOn s.clocks = true → (s.group g).pend = [] → choosePc (u.cands g x) x.aged = some c → u.grants g c = true →
      let cur := fun (n : Nat) => (⟨g, c.ready, c.pc, n, words.getLast?.getD 0, (words.dropLast.filter isOpx).head?, (words.dropLast.filter isImx).head?⟩ : Issue)
      let kept := fun (t : State) => (∀ h, h ≠ g → (t.groups.find? h).map (fun y => { y with imaged := false }) = (s.groups.find? h).map (fun y => { y with imaged := false })) ∧
        t.group g = { x with ages := (t.group g).ages, aged := (t.group g).aged, lastIssue := s.clocks + 1, windowIssues := x.windowIssues + 1, imaged := false, held := (t.group g).held } ∧
        (t.group g).held.map (fun h => { h with named := [] }) = x.held.map (fun h => { h with named := [] }) ∧
        (∀ k, { t.core k with tracks := [], icache := [], buckets := [], carried := 0, waiting := [] } = { s.core k with tracks := [], icache := [], buckets := [], carried := 0, waiting := [] }) ∧
        t = { s with agenda := rest, cur := t.cur, groups := t.groups, cores := t.cores, pkg := t.pkg } ∧
        ((∀ la, s.barred (dieOf x.core) la = false) → t.pkg = { s.pkg with ports := t.pkg.ports })
      c.ready ≠ [] ∧ (∀ l ∈ c.ready, l ∈ x.live ∧ (x.fibre l).pc = c.pc ∧ (x.fibre l).cw.ja = false) ∧ c.fetch = u.fetch g x c.pc ∧
      (x.aged = [] → ∀ d ∈ u.cands g x, d.ready ≠ [] → c.pc.toNat ≤ d.pc.toNat) ∧
      ((∀ l ∈ (s.group g).live, ((s.group g).fibre l).cw.ja = false) → x = (s.group g).releaseCounters) ∧
      (∀ i n, c.fetch = .done (.ins i n) words → ∃ t, step s = exec i t ∧ t.cur = cur n ∧ kept t) ∧
      (∀ r n, c.fetch = .done (.illegal r n) words → ∃ v t : State, step s = .next t ∧ v.cur = cur n ∧ kept v ∧
        (v.running → v.trapsTo t ⟨1, 0, r.field, c.ready.headD 0, 0, n, ((words.dropLast.filter isOpx ++ words.dropLast).head?.getD 0 : W32) ++ (words.getLast?.getD 0 : W32), false⟩)))

/-- R104, R111, R198, R201, R233, R367, R376, R379, R386. What reset leaves: no group, grid or context; SET and EFF at 3,200 W, HUNG and TRIP clear;
on every core the weights of LEASEW at 1, GR of every track at 12 and its ratios at 16/16, nothing in the caches, and the value-guess table invalid;
DFW open on every die. Memory stands in its canonical form at reset: addresses rise strictly, and no byte is listed that has the value of an unlisted
one. -/
def Obligations.ResetState : Prop :=
  (let s := State.reset
  s.groups = [] ∧ s.grids = [] ∧ s.ctxs = [] ∧ s.pkg.set = 3200 ∧ s.pkg.eff = 3200 ∧ s.pkg.hung = false ∧ s.pkg.trip = false ∧
    (∀ c, (s.core c).leasew = 0x11111111#32 ∧ (s.core c).guesses = [] ∧ (s.core c).l1 = [] ∧ (s.core c).retired = false ∧
      ∀ t, let u := (s.core c).tracks.get t Track.reset; u.gr = 12 ∧ u.asks = [] ∧ u.ceil = 16 ∧ u.cur = 16) ∧
    ∀ d, (s.die d).allow = 0xF#4 ∧ (s.die d).snoop = 0xF#4 ∧ (s.die d).l2 = []) ∧
  (State.Inv State.reset)

/-- R198. Every step keeps memory in its canonical form: from any state in which it stands so, whatever the step does, it stands so in the next. -/
def Obligations.StepKeepsInvariant : Prop :=
 ∀ s t : State, State.Inv s → step s = .next t → State.Inv t

/-- R83, R84. KADD, KSUB and KMUL keep the low bits of the exact sum, difference or product, or with OPX sat take it clamped; KMULH takes the high
half of the double-width product, KMIN and KMAX the smaller and the larger source. A 32-bit result is extended. Every live fibre of the issue set
passes the instruction, and its destination holds the result with the ORed tags of the sources, or what a mask makes of it. KAND, KOR and KXOR work on
64 bits; KSHL, KSHR and KSRA shift A by B modulo the width of 64 or 32, zero- or sign-filled, and extend a 32-bit result; KCLZ and KPOPC count within
the width. -/
def Obligations.ScalarInteger : Prop :=
  (∀ (m : Mods) (t : BitVec 2) (d a b : BitVec 7) (s : State),
    let A := fun l => s.opnd l (srcR a 1)
    let B := fun l => s.opnd l (srcB' m b 1)
    s.results (.kadd m t d a b) (.k d.toNat) (fun l => scalarVal t (Instr.sat (.kadd m t d a b)) (fun x y => x + y) (A l) (B l)) ∧
    s.results (.ksub m t d a b) (.k d.toNat) (fun l => scalarVal t (Instr.sat (.ksub m t d a b)) (fun x y => x - y) (A l) (B l)) ∧
    s.results (.kmul m t d a b) (.k d.toNat) (fun l => scalarVal t (Instr.sat (.kmul m t d a b)) (fun x y => x * y) (A l) (B l)) ∧
    s.results (.kmulh m t d a b) (.k d.toNat) (fun l => scalarVal t false (fun x y => x * y / 2 ^ (ktyOf t).1) (A l) (B l)) ∧
    s.results (.kmin m t d a b) (.k d.toNat) (fun l => scalarVal t false (fun x y => min x y) (A l) (B l)) ∧
    s.results (.kmax m t d a b) (.k d.toNat) (fun l => scalarVal t false (fun x y => max x y) (A l) (B l))) ∧
  (∀ (m : Mods) (n : BitVec 1) (d a b : BitVec 7) (s : State),
    let A := fun l => s.opnd l (srcR a 1)
    let B := fun l => s.opnd l (srcB' m b 1)
    let w := if n = 0#1 then 64 else 32
    s.results (.kand m d a b) (.k d.toNat) (fun l => withTags (BitVec.ofNat 64 (A l).bits &&& BitVec.ofNat 64 (B l).bits).toNat [A l, B l]) ∧
    s.results (.kor m d a b) (.k d.toNat) (fun l => withTags (BitVec.ofNat 64 (A l).bits ||| BitVec.ofNat 64 (B l).bits).toNat [A l, B l]) ∧
    s.results (.kxor m d a b) (.k d.toNat) (fun l => withTags (BitVec.ofNat 64 (A l).bits ^^^ BitVec.ofNat 64 (B l).bits).toNat [A l, B l]) ∧
    s.results (.kshl m n d a b) (.k d.toNat) (fun l => withTags (extended false 64 (BitVec.ofNat w (A l).bits <<< ((B l).bits % w))) [A l, B l]) ∧
    s.results (.kshr m n d a b) (.k d.toNat) (fun l => withTags (extended false 64 (BitVec.ofNat w (A l).bits >>> ((B l).bits % w))) [A l, B l]) ∧
    s.results (.ksra m n d a b) (.k d.toNat) (fun l => withTags (extended true 64 ((BitVec.ofNat w (A l).bits).sshiftRight ((B l).bits % w))) [A l, B l]) ∧
    s.results (.kclz m n d a) (.k d.toNat) (fun l => withTags (leadingZerosOf w (A l).bits) [A l]) ∧
    s.results (.kpopc m n d a) (.k d.toNat) (fun l => withTags (onesOf w (A l).bits) [A l]))

/-- R85, R158. KDIV, KREM, VDIV and VREM: the quotient truncated toward zero and the remainder with A's sign; all ones in the width for a zero divisor,
with WARN.DIVZ set where an active lane has one; A and 0 where the least value is divided by -1. -/
def Obligations.Division : Prop :=
  (∀ (m : Mods) (t : BitVec 2) (d a b : BitVec 7) (s : State),
    let A := fun l => s.opnd l (srcR a 1)
    let B := fun l => s.opnd l (srcB' m b 1)
    let zero := fun (i : Instr) l => (Instr.maskBit i (s.lane s.cur.g l)).bits = 1 ∧ numOf (ktyOf t).1 (ktyOf t).2 (B l).bits = 0
    s.results (.kdiv m t d a b) (.k d.toNat) (fun l => scalarVal t false (fun x y => (quoRem (ktyOf t).1 (ktyOf t).2 x y).1) (A l) (B l)) ∧
    s.results (.krem m t d a b) (.k d.toNat) (fun l => scalarVal t false (fun x y => (quoRem (ktyOf t).1 (ktyOf t).2 x y).2) (A l) (B l)) ∧
    ∀ i ∈ [Instr.kdiv m t d a b, Instr.krem m t d a b], ∀ u, exec i s = .next u → ∀ l, s.live l →
      ((∃ j ∈ s.cur.lanes, zero i j) → u.here.warn.getLsbD 6 = true) ∧
      ((∀ j ∈ s.cur.lanes, ¬ zero i j) → u.here.warn.getLsbD 6 = s.here.warn.getLsbD 6)) ∧
  (∀ (m : Mods) (t : BitVec 3) (d a b : BitVec 7) (s : State),
    let r := if t.toNat % 4 = 3 then 2 else 1
    let A := fun l => s.opnd l (srcR a r)
    let B := fun l => s.opnd l (srcB' m b r)
    let qr := fun l => quoRem (ityOf t).1 (ityOf t).2 (vectorNum t (A l)) (vectorNum t (B l))
    let zero := fun (i : Instr) l => (Instr.maskBit i (s.lane s.cur.g l)).bits = 1 ∧ vectorNum t (B l) = 0
    s.results (.vdiv m t d a b) (.v d.toNat r) (fun l => vectorVal t false (qr l).1 [A l, B l]) ∧
    s.results (.vrem m t d a b) (.v d.toNat r) (fun l => vectorVal t false (qr l).2 [A l, B l]) ∧
    ∀ i ∈ [Instr.vdiv m t d a b, Instr.vrem m t d a b], ∀ u, exec i s = .next u → ∀ l, s.live l →
      ((∃ j ∈ s.cur.lanes, zero i j) → u.here.warn.getLsbD 6 = true) ∧
      ((∀ j ∈ s.cur.lanes, ¬ zero i j) → u.here.warn.getLsbD 6 = s.here.warn.getLsbD 6))

/-- R86, R87, R88. KCMP compares 64-bit values into a predicate; KSEL selects by a predicate, with the tags of the predicate and of the selected
source only; the moves, constants and transfers. KFROMQ with fn 1 reads the low control word as data, with clear tags. -/
def Obligations.ScalarMoves : Prop :=
  ∀ (m : Mods) (c q f3 : BitVec 3) (h : BitVec 2) (f : BitVec 1) (d a b : BitVec 7) (s : State),
    let A := fun l => s.opnd l (srcR a 1)
    let B := fun l => s.opnd l (srcB' m b 1)
    let V := fun l => s.opnd l (srcR a (if f3 = 2#3 then 2 else 1))
    let Q := fun l => s.lane s.cur.g l |>.qBit q.toNat
    let cw := fun l => (s.lane s.cur.g l).cw
    let x := fun l => BitVec.ofNat 64 (A l).bits
    let y := fun l => BitVec.ofNat 64 (B l).bits
    s.results (.kcmp m c d a b) (.q d.toNat) (fun l => withTags
      (if (match c.toNat with | 0 => x l == y l | 1 => x l != y l | 2 => (x l).slt (y l) | 3 => (x l).sle (y l) | 4 => (x l).ult (y l) | _ => (x l).ule (y l)) then 1 else 0)
      [A l, B l]) ∧
    s.results (.ksel m q d a b) (.k d.toNat) (fun l => if (Q l).bits = 1 then withTags (A l).bits [Q l, A l] else withTags (B l).bits [Q l, B l]) ∧
    s.results (.kli m d a) (.k d.toNat) (fun _ => withTags (riImm m a).toNat []) ∧
    s.results (.khi m h d a b) (.k d.toNat) (fun l => withTags
      ((x l &&& ~~~(0xFFFF#64 <<< (16 * h.toNat))) ||| ((riImm m b &&& 0xFFFF#64) <<< (16 * h.toNat))).toNat [A l]) ∧
    s.results (.kmov m d a) (.k d.toNat) (fun l => withTags (A l).bits [A l]) ∧
    s.results (.kfromv m f3 d a) (.k d.toNat) (fun l => withTags (if f3 = 1#3 then extended true 64 (BitVec.ofNat 32 (V l).bits) else (V l).bits) [V l]) ∧
    s.results (.kfromq m f d) (.k d.toNat) (fun l =>
      if f = 0#1 then ⟨(cw l).q.toNat, (cw l).qg != 0, (cw l).qp != 0⟩ else withTags ((cw l).qp ++ (cw l).qg ++ (cw l).q).toNat []) ∧
    s.results (.ktoq m f d a) (.q d.toNat) (fun l => withTags (if f = 0#1 then (if (A l).bits = 0 then 0 else 1) else (A l).bits % 2) [A l])

/-- R157, R158, R159. The vector integer arithmetic on every type: low bits of the exact value, or with OPX sat the value clamped; VMAD clamps once;
VABS gives the least value itself, or with sat the greatest. The vector logic, shift, bit and count instructions: the shift amount is B modulo the
width; VSHL with sat clamps A × 2^s; an 8- or 16-bit result is extended by the signedness of its type. -/
def Obligations.VectorInteger : Prop :=
  (∀ (m : Mods) (t : BitVec 3) (d a b : BitVec 7) (s : State),
    let r := if t.toNat % 4 = 3 then 2 else 1
    let A := fun l => s.opnd l (srcR a r)
    let B := fun l => s.opnd l (srcB' m b r)
    let C := fun l => s.opnd l (srcC' m d r)
    let x := fun l => vectorNum t (A l)
    let y := fun l => vectorNum t (B l)
    s.results (.vadd m t d a b) (.v d.toNat r) (fun l => vectorVal t (Instr.sat (.vadd m t d a b)) (x l + y l) [A l, B l]) ∧
    s.results (.vsub m t d a b) (.v d.toNat r) (fun l => vectorVal t (Instr.sat (.vsub m t d a b)) (x l - y l) [A l, B l]) ∧
    s.results (.vmul m t d a b) (.v d.toNat r) (fun l => vectorVal t (Instr.sat (.vmul m t d a b)) (x l * y l) [A l, B l]) ∧
    s.results (.vmulh m t d a b) (.v d.toNat r) (fun l => vectorVal t false (x l * y l / 2 ^ (ityOf t).1) [A l, B l]) ∧
    s.results (.vmad m t d a b) (.v d.toNat r) (fun l => vectorVal t (Instr.sat (.vmad m t d a b)) (x l * y l + vectorNum t (C l)) [A l, B l, C l]) ∧
    s.results (.vmin m t d a b) (.v d.toNat r) (fun l => vectorVal t false (min (x l) (y l)) [A l, B l]) ∧
    s.results (.vmax m t d a b) (.v d.toNat r) (fun l => vectorVal t false (max (x l) (y l)) [A l, B l]) ∧
    s.results (.vabs m t d a) (.v d.toNat r) (fun l => vectorVal t (Instr.sat (.vabs m t d a)) |x l| [A l])) ∧
  (∀ (m : Mods) (t : BitVec 3) (d a b : BitVec 7) (s : State),
    let r := if t.toNat % 4 = 3 then 2 else 1
    let w := (ityOf t).1
    let ext := fun (x : BitVec w) => extended (ityOf t).2 (max 32 w) x
    let A := fun l => s.opnd l (srcR a r)
    let B := fun l => s.opnd l (srcB' m b r)
    let N := fun l => s.opnd l (srcB' m b 1)
    let x := fun l => BitVec.ofNat w (A l).bits
    let y := fun l => BitVec.ofNat w (B l).bits
    let n := fun l => (N l).bits % w
    s.results (.vand m t d a b) (.v d.toNat r) (fun l => withTags (ext (x l &&& y l)) [A l, B l]) ∧
    s.results (.vor m t d a b) (.v d.toNat r) (fun l => withTags (ext (x l ||| y l)) [A l, B l]) ∧
    s.results (.vxor m t d a b) (.v d.toNat r) (fun l => withTags (ext (x l ^^^ y l)) [A l, B l]) ∧
    s.results (.vnot m t d a) (.v d.toNat r) (fun l => withTags (ext (~~~ x l)) [A l]) ∧
    s.results (.vshl m t d a b) (.v d.toNat r) (fun l => vectorVal t (Instr.sat (.vshl m t d a b)) (vectorNum t (A l) * 2 ^ n l) [A l, N l]) ∧
    s.results (.vshr m t d a b) (.v d.toNat r) (fun l => withTags (ext (x l >>> n l)) [A l, N l]) ∧
    s.results (.vsra m t d a b) (.v d.toNat r) (fun l => withTags (ext ((x l).sshiftRight (n l))) [A l, N l]) ∧
    s.results (.vrot m t d a b) (.v d.toNat r) (fun l => withTags (ext ((x l).rotateLeft (n l))) [A l, N l]) ∧
    s.results (.vclz m t d a) (.v d.toNat 1) (fun l => withTags (leadingZerosOf w (A l).bits) [A l]) ∧
    s.results (.vpopc m t d a) (.v d.toNat 1) (fun l => withTags (onesOf w (A l).bits) [A l]) ∧
    s.results (.vbrev m t d a) (.v d.toNat r) (fun l => withTags (ext (x l).reverse) [A l]))

/-- R150, R151, R152, R163, R169. What rounding once to a format is, over the rational numbers: of the two values of the format's precision nearest the
exact one, toward zero and away from it, the mode chooses one; where its magnitude exceeds the largest finite value the result overflows, and otherwise
the result has that value and the sign of the exact one, with NX where it is inexact, and UF too where it is tiny. FADD, FSUB, FMUL and FFMA, the
accumulators, and the conversions to a format from another and from an integer, round the exact sum, product or value so; an exact zero takes the sign
of R152. -/
def Obligations.Rounding : Prop :=
  ∀ f ∈ [f64, f32, f16, bf16, e4m3, e5m2], ∀ (rm : Nat) (sat : Bool) (rand : Nat) (m n o : Bool) (x y z : Nat) (i j k : Int) (v : Int), rm < 6 →
    let a := Num.fin m x i
    let b := Num.fin n y j
    let c := Num.fin o z k
    let zeroSum := fun (p q : Bool) => if p = q then p else rm == 3
    f.rounds rm sat rand (a.value + b.value) (zeroSum m n) (f.add rm sat rand a b) ∧
    f.rounds rm sat rand (a.value - b.value) (zeroSum m (!n)) (f.add rm sat rand a b.negate) ∧
    f.rounds rm sat rand (a.value * b.value) (m != n) (f.mul rm sat rand a b) ∧
    f.rounds rm sat rand (a.value * b.value + c.value) (zeroSum (m != n) o) (f.fma rm sat rand a b c) ∧
    f.rounds rm sat rand a.value m (f.convert rm sat rand a) ∧
    f.rounds rm sat rand v false (f.ofInteger rm sat rand v)

/-- R160, R161, R162, R172. VCMP writes a predicate; VSEL takes the tags of the predicate and of the selected source only; the vector moves, constants
and broadcast; VCVTI converts exactly, then reduces or clamps; the predicate instructions, QXOR of a predicate with itself clearing its tags with it.
-/
def Obligations.VectorSelectsAndPredicates : Prop :=
  ∀ (m : Mods) (t u q : BitVec 3) (w : BitVec 1) (d a b : BitVec 7) (s : State),
    let r := if t.toNat % 4 = 3 then 2 else 1
    let A := fun l => s.opnd l (srcR a r)
    let B := fun l => s.opnd l (srcB' m b r)
    let x := fun l => vectorNum t (A l)
    let y := fun l => vectorNum t (B l)
    let E := fun l => s.opnd l (srcR a 1)
    let F := fun l => s.opnd l (srcB' m b 1)
    let G := fun l => s.opnd l (srcR b 1)
    let P := fun l => s.opnd l (srcR a (if w = 1#1 then 2 else 1))
    let Q := fun l => s.lane s.cur.g l |>.qBit q.toNat
    let D := fun l => (Dst.v d.toNat 1).read (s.lane s.cur.g l)
    let S := fun l => s.opnd l (srcR a (if u.toNat % 4 = 3 then 2 else 1))
    let is := fun (c : Bool) => if c then 1 else 0
    s.results (.vcmpEq m t d a b) (.q d.toNat) (fun l => withTags (is (x l = y l)) [A l, B l]) ∧
    s.results (.vcmpNe m t d a b) (.q d.toNat) (fun l => withTags (is (x l ≠ y l)) [A l, B l]) ∧
    s.results (.vcmpLt m t d a b) (.q d.toNat) (fun l => withTags (is (x l < y l)) [A l, B l]) ∧
    s.results (.vcmpLe m t d a b) (.q d.toNat) (fun l => withTags (is (x l ≤ y l)) [A l, B l]) ∧
    s.results (.vcmpGt m t d a b) (.q d.toNat) (fun l => withTags (is (x l > y l)) [A l, B l]) ∧
    s.results (.vcmpGe m t d a b) (.q d.toNat) (fun l => withTags (is (x l ≥ y l)) [A l, B l]) ∧
    s.results (.vsel m q d a b) (.v d.toNat 1) (fun l => if (Q l).bits = 1 then withTags (E l).bits [Q l, E l] else withTags (F l).bits [Q l, F l]) ∧
    s.results (.vmov m w d a) (.v d.toNat (if w = 1#1 then 2 else 1)) (fun l => withTags (P l).bits [P l]) ∧
    s.results (.vbcast m w d a) (.v d.toNat (if w = 1#1 then 2 else 1)) (fun l => withTags (E l).bits [E l]) ∧
    s.results (.vli m d a) (.v d.toNat 1) (fun _ => withTags (riImm m a).toNat []) ∧
    s.results (.vliHi m d a) (.v d.toNat 1) (fun l => withTags ((riImm m a).setWidth 16 ++ BitVec.ofNat 16 (D l).bits).toNat [D l]) ∧
    s.results (.vcvti m t d a u) (.v d.toNat r) (fun l => vectorVal t (Instr.sat (.vcvti m t d a u)) (vectorNum u (S l)) [S l]) ∧
    s.results (.qand m d a b) (.q d.toNat) (fun l => withTags (Nat.land (E l).bits (G l).bits) [E l, G l]) ∧
    s.results (.qor m d a b) (.q d.toNat) (fun l => withTags (Nat.lor (E l).bits (G l).bits) [E l, G l]) ∧
    s.results (.qxor m d a b) (.q d.toNat) (fun l => withTags (Nat.xor (E l).bits (G l).bits) (if d = a ∧ a = b then [] else [E l, G l])) ∧
    s.results (.qnot m d a) (.q d.toNat) (fun l => withTags (1 - (E l).bits) [E l]) ∧
    s.results (.qmov m d a) (.q d.toNat) (fun l => withTags (E l).bits [E l])

/-- R150, R151, R152, R153, R155, R163. FADD, FSUB, FMUL and FFMA round the exact value once to the format of the instruction, with its rounding mode
and sat; where no exception traps, every live fibre of the issue set completes. -/
def Obligations.FloatArithmetic : Prop :=
  ∀ (m : Mods) (t : BitVec 2) (d a b : BitVec 7) (s : State),
    let r := if t = 0#2 then 2 else 1
    let A := fun l => s.opnd l (srcR a r)
    let B := fun l => s.opnd l (srcF m b (fty t))
    let C := fun l => s.opnd l (srcC' m d r)
    let x := fun l => (fty t).of (A l)
    let y := fun l => (fty t).of (B l)
    let z := fun l => (fty t).of (C l)
    s.resultsFp (.fadd m t d a b) (.v d.toNat r)
      (fun l => (fty t).add (s.rm (.fadd m t d a b)) (Instr.sat (.fadd m t d a b)) (s.drawn l 0) (x l) (y l)) (fun l => [A l, B l]) ∧
    s.resultsFp (.fsub m t d a b) (.v d.toNat r)
      (fun l => (fty t).add (s.rm (.fsub m t d a b)) (Instr.sat (.fsub m t d a b)) (s.drawn l 0) (x l) (y l).negate) (fun l => [A l, B l]) ∧
    s.resultsFp (.fmul m t d a b) (.v d.toNat r)
      (fun l => (fty t).mul (s.rm (.fmul m t d a b)) (Instr.sat (.fmul m t d a b)) (s.drawn l 0) (x l) (y l)) (fun l => [A l, B l]) ∧
    s.resultsFp (.ffma m t d a b) (.v d.toNat r)
      (fun l => (fty t).fma (s.rm (.ffma m t d a b)) (Instr.sat (.ffma m t d a b)) (s.drawn l 0) (x l) (y l) (z l)) (fun l => [A l, B l, C l])

/-- R164, R165, R166, R167, R168, R169, R170, R171. Minimum and maximum, the sign operations, the compares and the class of a value, on bit patterns
of the format. FRND and the conversions between floating-point formats, from them to integers and back. The packed instructions treat each half
independently, with one rounding each and the flags of both halves. -/
def Obligations.FloatOthers : Prop :=
  (∀ (m : Mods) (t : BitVec 2) (d a b : BitVec 7) (s : State),
    let f := fty t
    let r := if t = 0#2 then 2 else 1
    let A := fun l => s.opnd l (srcR a r)
    let B := fun l => s.opnd l (srcF m b f)
    let x := fun l => BitVec.ofNat f.width (A l).bits
    let y := fun l => BitVec.ofNat f.width (B l).bits
    let sign := fun (l : Nat) (c : Bool) => ((BitVec.ofBool c ++ (x l).setWidth (f.width - 1)).toNat, 0)
    let cmp := fun (c : Nat) (l : Nat) => let q := fcompare c (f.of (A l)) (f.of (B l)); (if q.1 then 1 else 0, q.2)
    s.resultsFp (.fmin m t d a b) (.v d.toNat r) (fun l => f.minmax false (x l).toNat (y l).toNat) (fun l => [A l, B l]) ∧
    s.resultsFp (.fmax m t d a b) (.v d.toNat r) (fun l => f.minmax true (x l).toNat (y l).toNat) (fun l => [A l, B l]) ∧
    s.resultsFp (.fsgn m t d a b) (.v d.toNat r) (fun l => sign l (y l).msb) (fun l => [A l, B l]) ∧
    s.resultsFp (.fsgnNeg m t d a b) (.v d.toNat r) (fun l => sign l (!(y l).msb)) (fun l => [A l, B l]) ∧
    s.resultsFp (.fsgnXor m t d a b) (.v d.toNat r) (fun l => sign l ((x l).msb ^^ (y l).msb)) (fun l => [A l, B l]) ∧
    s.resultsFp (.fcmpEq m t d a b) (.q d.toNat) (cmp 0) (fun l => [A l, B l]) ∧
    s.resultsFp (.fcmpNe m t d a b) (.q d.toNat) (cmp 1) (fun l => [A l, B l]) ∧
    s.resultsFp (.fcmpLt m t d a b) (.q d.toNat) (cmp 2) (fun l => [A l, B l]) ∧
    s.resultsFp (.fcmpLe m t d a b) (.q d.toNat) (cmp 3) (fun l => [A l, B l]) ∧
    s.resultsFp (.fcmpGt m t d a b) (.q d.toNat) (cmp 4) (fun l => [A l, B l]) ∧
    s.resultsFp (.fcmpGe m t d a b) (.q d.toNat) (cmp 5) (fun l => [A l, B l]) ∧
    s.resultsFp (.fcmpUn m t d a b) (.q d.toNat) (cmp 6) (fun l => [A l, B l]) ∧
    s.resultsFp (.fcmpOr m t d a b) (.q d.toNat) (cmp 7) (fun l => [A l, B l]) ∧
    s.resultsFp (.fclass m t d a) (.v d.toNat 1) (fun l => (f.classOf (x l).toNat, 0)) (fun l => [A l])) ∧
  (∀ (m : Mods) (t : BitVec 2) (f g : BitVec 3) (d a : BitVec 7) (s : State),
    let rows := fun (c : Bool) => if c then 2 else 1
    let F := fun l => s.opnd l (srcR a (rows (g = 0#3)))
    let I := fun l => s.opnd l (srcR a (rows (g.toNat % 4 = 3)))
    let T := fun l => s.opnd l (srcR a (rows (t = 0#2)))
    s.resultsFp (.frnd m t d a) (.v d.toNat (rows (t = 0#2)))
      (fun l => (fty t).rint (s.rm (.frnd m t d a)) (s.drawn l 0) ((T l).bits % 2 ^ (fty t).width)) (fun l => [T l]) ∧
    s.resultsFp (.fcvt m f d a g) (.v d.toNat (rows (f = 0#3)))
      (fun l => (ftyFmt f.toNat).convert (s.rm (.fcvt m f d a g)) (Instr.sat (.fcvt m f d a g)) (s.drawn l 0) ((ftyFmt g.toNat).of (F l))) (fun l => [F l]) ∧
    s.resultsFp (.fcvtToInt m f d a g) (.v d.toNat (rows (f.toNat % 4 = 3)))
      (fun l => let z := toInteger (ityOf f).1 (ityOf f).2 (s.rm (.fcvtToInt m f d a g)) (Instr.sat (.fcvtToInt m f d a g)) (s.drawn l 0) ((ftyFmt g.toNat).of (F l))
        ((vectorVal f false z.1 []).bits, z.2)) (fun l => [F l]) ∧
    s.resultsFp (.fcvtFromInt m f d a g) (.v d.toNat (rows (f = 0#3)))
      (fun l => (ftyFmt f.toNat).ofInteger (s.rm (.fcvtFromInt m f d a g)) (Instr.sat (.fcvtFromInt m f d a g)) (s.drawn l 0) (vectorNum g (I l))) (fun l => [I l])) ∧
  (∀ (m : Mods) (c : BitVec 2) (f : BitVec 1) (d a b : BitVec 7) (s : State),
    let F := if f = 1#1 then bf16 else f16
    let A := fun l => s.opnd l (srcR a 1)
    let B := fun l => s.opnd l (srcH m b F)
    let C := fun l => s.opnd l (srcC' m d 1)
    let lo := fun (v : Val) => F.num (bitsAt v.bits 15 0)
    let hi := fun (v : Val) => F.num (bitsAt v.bits 31 16)
    let both := fun (x y : Nat × Nat) => (x.1 + 2 ^ 16 * y.1, Nat.lor x.2 y.2)
    let cond := match c.toNat with | 0 => 0 | 1 => 2 | 2 => 3 | _ => 6
    let mask := fun (q : Bool × Nat) => (if q.1 then 0xFFFF else 0, q.2)
    (let i := Instr.hadd2 m f d a b
     s.resultsFp i (.v d.toNat 1) (fun l => both (F.add (s.rm i) (Instr.sat i) (s.drawn l 0) (lo (A l)) (lo (B l)))
       (F.add (s.rm i) (Instr.sat i) (s.drawn l 1) (hi (A l)) (hi (B l)))) (fun l => [A l, B l])) ∧
    (let i := Instr.hmul2 m f d a b
     s.resultsFp i (.v d.toNat 1) (fun l => both (F.mul (s.rm i) (Instr.sat i) (s.drawn l 0) (lo (A l)) (lo (B l)))
       (F.mul (s.rm i) (Instr.sat i) (s.drawn l 1) (hi (A l)) (hi (B l)))) (fun l => [A l, B l])) ∧
    (let i := Instr.hfma2 m f d a b
     s.resultsFp i (.v d.toNat 1) (fun l => both (F.fma (s.rm i) (Instr.sat i) (s.drawn l 0) (lo (A l)) (lo (B l)) (lo (C l)))
       (F.fma (s.rm i) (Instr.sat i) (s.drawn l 1) (hi (A l)) (hi (B l)) (hi (C l)))) (fun l => [A l, B l, C l])) ∧
    s.resultsFp (.hcmp2 m c f d a b) (.v d.toNat 1) (fun l => both (mask (fcompare cond (lo (A l)) (lo (B l)))) (mask (fcompare cond (hi (A l)) (hi (B l)))))
      (fun l => [A l, B l]))

/-- R173, R174, R175, R176, R177, R178, R179, R180, R181, R182, R183. The special functions read one element and write one, with the fixed results of
R174 and otherwise the function's value (the unpublished bits within the bound of R175 are a free value, log entry 6). The accumulator instructions:
an exact product added with one rounding or as an INT64 sum, four or two products added, sums of accumulators, clearing, narrowing and widening. -/
def Obligations.SfuAndAccumulators : Prop :=
  (∀ (m : Mods) (t : BitVec 2) (d a : BitVec 7) (s : State),
    let f := ftyFmt t.toNat
    let A := fun l => s.opnd l (srcR a 1)
    let r := fun (k : Special) l => k.result f ((A l).bits % 2 ^ f.width)
    s.resultsFp (.srcp m t d a) (.v d.toNat 1) (r .rcp) (fun l => [A l]) ∧
    s.resultsFp (.srsq m t d a) (.v d.toNat 1) (r .rsq) (fun l => [A l]) ∧
    s.resultsFp (.ssqrt m t d a) (.v d.toNat 1) (r .sqrt) (fun l => [A l]) ∧
    s.resultsFp (.sexp2 m t d a) (.v d.toNat 1) (r .exp2) (fun l => [A l]) ∧
    s.resultsFp (.slog2 m t d a) (.v d.toNat 1) (r .log2) (fun l => [A l]) ∧
    s.resultsFp (.ssin m t d a) (.v d.toNat 1) (r .sin) (fun l => [A l]) ∧
    s.resultsFp (.scos m t d a) (.v d.toNat 1) (r .cos) (fun l => [A l]) ∧
    s.resultsFp (.stanh m t d a) (.v d.toNat 1) (r .tanh) (fun l => [A l])) ∧
  (∀ (m : Mods) (f : BitVec 3) (h : BitVec 1) (w u v : BitVec 4) (d a b : BitVec 7) (s : State),
    let W := fun (n : BitVec 4) l => (s.lane s.cur.g l).regVal ⟨.w, n.toNat⟩
    let A := fun l => s.opnd l (srcR a 1)
    let B := fun l => s.opnd l (srcB' m b 1)
    let num := fun (n : Nat) (sg : Bool) (v : Val) => numOf n sg v.bits
    let sum := fun (i : Instr) (x : Int) => patternOf 64 true 64 (saturated 64 true (Instr.sat i) x)
    let part := fun (n k : Nat) (sg : Bool) (v : Val) => numOf n sg (v.bits / 2 ^ (n * k))
    let dot := fun (n : Nat) (x y : Bool) (p q : Val) => ((List.range (32 / n)).map (fun k => part n k x p * part n k y q)).sum
    (f.toNat < 3 →
      let F := match f.toNat with | 0 => f32 | 1 => f16 | _ => bf16
      let i := Instr.wmad m f w a b
      let B' := fun l => s.opnd l (srcF m b F)
      s.resultsFp i (.w w.toNat) (fun l => f64.fma (s.rm i) (Instr.sat i) (s.drawn l 0) (F.of (A l)) (F.of (B' l)) (f64.of (W w l))) (fun l => [A l, B' l, W w l])) ∧
    (3 ≤ f.toNat →
      let n := match f.toNat with | 3 => 8 | 4 => 16 | 5 => 16 | _ => 32
      let sg := f.toNat = 3 ∨ f.toNat = 4 ∨ f.toNat = 6
      let i := Instr.wmad m f w a b
      s.results i (.w w.toNat) (fun l => withTags (sum i (num 64 true (W w l) + num n sg (A l) * num n sg (B l))) [A l, B l, W w l])) ∧
    s.results (.wdot4 m f w a b) (.w w.toNat) (fun l => withTags (sum (.wdot4 m f w a b) (num 64 true (W w l) +
      (match f.toNat with
        | 0 => dot 8 true true (A l) (B l) | 1 => dot 8 false false (A l) (B l) | 2 => dot 8 true false (A l) (B l)
        | 3 => dot 16 true true (A l) (B l) | _ => dot 16 false false (A l) (B l)))) [A l, B l, W w l]) ∧
    (let i := Instr.waddAccumulator m h w u v
     s.resultsFp i (.w w.toNat) (fun l => if h = 0#1 then f64.add (s.rm i) (Instr.sat i) (s.drawn l 0) (f64.of (W u l)) (f64.of (W v l))
       else (sum i (num 64 true (W u l) + num 64 true (W v l)), 0)) (fun l => [W u l, W v l, W w l])) ∧
    s.results (.wclr m w) (.w w.toNat) (fun _ => withTags 0 []) ∧
    (let i := Instr.narrow m f d u
     s.resultsFp i (.v d.toNat (if f = 0#3 then 2 else 1)) (fun l => match f.toNat with
       | 0 => ((W u l).bits, 0)
       | 1 => f32.convert (s.rm i) (Instr.sat i) (s.drawn l 0) (f64.of (W u l))
       | 2 => f16.convert (s.rm i) (Instr.sat i) (s.drawn l 0) (f64.of (W u l))
       | 3 => bf16.convert (s.rm i) (Instr.sat i) (s.drawn l 0) (f64.of (W u l))
       | k => let n := if k ≤ 5 then 32 else 16
         (patternOf n (k % 2 = 0) 32 (saturated n (k % 2 = 0) (Instr.sat i) (num 64 true (W u l))), 0)) (fun l => [W u l])) ∧
    (let i := Instr.widen m f w a
     let P := fun l => s.opnd l (srcR a (if f = 0#3 then 2 else 1))
     s.resultsFp i (.w w.toNat) (fun l => match f.toNat with
       | 0 => ((P l).bits, 0)
       | 1 => f64.convert 0 false 0 (f32.of (P l))
       | 2 => f64.convert 0 false 0 (f16.of (P l))
       | 3 => f64.convert 0 false 0 (bf16.of (P l))
       | k => let n := if k ≤ 5 then 32 else 16
         (patternOf 64 true 64 (num n (k % 2 = 0) (P l)), 0)) (fun l => [P l])))

/-- R185, R186, R187, R188, R189, R190, R191, R192. The shuffles give each active lane the A of its source lane, or its own where that lane is not
active; VOTE gathers a predicate; every lane written receives the ORed tags of all sources of all active lanes. REDG reduces over the active lanes
with one draw, SCANG over those of a number up to the lane's own, each with its own draw; MATCH gives the mask of active lanes whose A is equal; VKEY
the order-preserving key, from its own lane only. The integer reductions are the sum, the least or the greatest of the contributions, and neither they
nor the floating-point sum depends on the order of the lanes. -/
def Obligations.CrossLane : Prop :=
  (∀ (m : Mods) (w : BitVec 1) (f : BitVec 3) (d a b : BitVec 7) (s : State),
    let r := if w = 1#1 then 2 else 1
    let A := fun l => s.opnd l (srcR a r)
    let B := fun l => s.opnd l (srcB' m b 1)
    let n := fun l => (B l).bits % 2 ^ 32
    let take := fun (i : Instr) (from' : Nat → Int) l => withTags (if ∃ j ∈ s.actives i, (j : Int) = from' l then (A (from' l).toNat).bits else (A l).bits)
      (s.spread i (fun l => [A l, B l]))
    let Q := fun l => s.opnd l (srcR a 1)
    let S := (s.actives (.vote m f d a)).filter (fun l => (Q l).bits = 1)
    s.results (.shfl m w d a b) (.v d.toNat r) (take (.shfl m w d a b) (fun l => ((n l % 32 : Nat) : Int))) ∧
    s.results (.shflx m w d a b) (.v d.toNat r) (take (.shflx m w d a b) (fun l => ((Nat.xor l (n l % 32) : Nat) : Int))) ∧
    s.results (.shflu m w d a b) (.v d.toNat r) (take (.shflu m w d a b) (fun l => (l : Int) - (n l : Int))) ∧
    s.results (.shfld m w d a b) (.v d.toNat r) (take (.shfld m w d a b) (fun l => (l : Int) + (n l : Int))) ∧
    s.results (.vote m f d a) (.v d.toNat 1) (fun _ => withTags
      (match f.toNat with
        | 0 => if S = [] then 0 else 1
        | 1 => if ∀ l ∈ s.actives (.vote m f d a), (Q l).bits = 1 then 1 else 0
        | 2 => laneMask (fun l => l ∈ S)
        | _ => S.length)
      (s.spread (.vote m f d a) (fun l => [Q l])))) ∧
  (∀ (m : Mods) (w : BitVec 1) (f : BitVec 3) (t : BitVec 2) (d a : BitVec 7) (s : State),
    let A := fun l => s.opnd l (srcR a 1)
    let P := fun l => s.opnd l (srcR a (if w = 1#1 then 2 else 1))
    let K := fun l => s.opnd l (srcR a (if t = 0#2 then 2 else 1))
    let e := fun l => (A l).bits % 2 ^ 32
    (let i := Instr.redg m f d a
     s.resultsFp i (.v d.toNat 1) (fun _ => reduce f (s.rm i) (Instr.sat i) (((s.actives i).map (fun l => s.drawn l 0)).headD 0) ((s.actives i).map e))
       (fun _ => s.spread i (fun l => [A l]))) ∧
    (let i := Instr.scang m f d a
     s.resultsFp i (.v d.toNat 1) (fun l => reduce f (s.rm i) (Instr.sat i) (s.drawn l 0) (((s.actives i).filter (· ≤ l)).map e))
       (fun _ => s.spread i (fun l => [A l]))) ∧
    (let i := Instr.matchLanes m w d a
     let n := if w = 1#1 then 64 else 32
     s.results i (.v d.toNat 1) (fun l => withTags (laneMask (fun j => j ∈ s.actives i ∧ BitVec.ofNat n (P j).bits = BitVec.ofNat n (P l).bits))
       (s.spread i (fun l => [P l])))) ∧
    (let n := (fty t).width
     let x := fun l => BitVec.ofNat n (K l).bits
     s.results (.vkey m t d a) (.v d.toNat (if t = 0#2 then 2 else 1)) (fun l => withTags
       (if ((fty t).num (x l).toNat).isNan then BitVec.allOnes n else if (x l).msb then ~~~ (x l) else x l ||| BitVec.ofNat n (2 ^ (n - 1))).toNat [K l]))) ∧
  ((∀ (rm : Nat) (sat : Bool) (draw : Nat) (x : Nat) (l : List Nat), (∀ y ∈ x :: l, y < 2 ^ 32) →
    (reduce 0#3 rm sat draw (x :: l)).1 = patternOf 32 true 32 (saturated 32 true sat ((x :: l).map (numOf 32 true)).sum) ∧
    ∀ f ∈ [1#3, 2#3, 3#3, 4#3],
      let num := numOf 32 (f = 1#3 ∨ f = 2#3)
      let r := (reduce f rm sat draw (x :: l)).1
      r ∈ x :: l ∧ ∀ y ∈ x :: l, if f = 1#3 ∨ f = 3#3 then num r ≤ num y else num y ≤ num r) ∧
  (∀ (f : BitVec 3) (rm : Nat) (sat : Bool) (draw : Nat) (l k : List Nat), f.toNat < 6 → (∀ y ∈ l, y < 2 ^ 32) → l.Perm k →
    reduce f rm sat draw l = reduce f rm sat draw k))

/-- R53, R54, R64, R65, R83, R155. The fallbacks: which modifiers take effect, and the WARN bit of each that does not; and the instructions of the
common execution set those bits in WARN of their group. What an instruction of the common execution leaves alone, whether it completes or traps:
memory and the rest of the machine; in every group the trap registers, FPMODE, the handles and the counters; in every fibre all that a program reads,
but for the PC and, in the issue set, the destination and the registers with a last-use bit. A source with a last-use bit in force reads 0 with clear
tags afterwards in every live fibre of the issue set, masked off or not, unless the instruction writes it. (FPMODE enables no trap.) Log entries 87, 90, 108
and 109: a last-use source that is the destination, an mz that nothing heeds, and an OPX that stands alone. -/
def Obligations.FrameOfResults : Prop :=
  ((∀ (i : Instr), (i.mods.imx.isSome = true ∧ i.accepts.imx = false → (fallback i).1.getLsbD 4 = true) ∧
    (i.mods.opx = none → (fallback i).2 = ⟨0, false, 0, false, []⟩) ∧
    ∀ o, i.mods.opx = some o →
      (i.accepts.opx = false → (fallback i).1.getLsbD 0 = true ∧ (fallback i).2 = ⟨0, false, 0, false, []⟩) ∧
      (i.accepts.opx = true →
        (fallback i).2.mask = (if i.accepts.mask then o.mask.toNat else 0) ∧
        (fallback i).2.mz = (i.accepts.mask && hasDest i && o.mz == 1#1) ∧
        (fallback i).2.rm = (if i.accepts.rm then o.rm.toNat else 0) ∧
        (fallback i).2.sat = (i.accepts.sat && o.sat == 1#1) ∧
        (fallback i).1.getLsbD 0 = ((!i.accepts.c && o.c != 0) || (!i.accepts.mask && o.mask != 0) || ((!hasDest i || Instr.noMz i) && o.mz == 1#1)) ∧
        (fallback i).1.getLsbD 1 = (!i.accepts.rm && o.rm != 0) ∧ (fallback i).1.getLsbD 2 = (!i.accepts.sat && o.sat == 1#1) ∧
        (let last := fun (p : Nat) => o.last.getLsbD (2 - p)
        let reuse := fun (p : Nat) => o.reuse.getLsbD (2 - p)
        let taken := fun (p : Nat) => i.accepts.lu && i.operands.any (fun r => r.pos == some p && r.read && (r.cls == .w || decide (r.code < 112)))
        (fallback i).1.getLsbD 3 = [0, 1, 2].any (fun p => (last p && reuse p) || ((last p || reuse p) && !taken p)) ∧
          ((fallback i).2.last = [] ↔ ∀ p ∈ [0, 1, 2], last p = true → taken p = false)))) ∧
  (∀ (i : Instr) (d : Dst) (s t : State) (l : Nat), Instr.dest i = some d → exec i s = .next t → s.live l → t.here.warn &&& (fallback i).1 = (fallback i).1) ∧
  (∀ (m : Mods) (t : BitVec 2) (f : BitVec 1) (g : BitVec 3) (w : BitVec 4) (d a b : BitVec 7) (x : BitVec 24) (s u : State) (l : Nat), m.imx = some x → s.live l →
    let single := f32.num ((x ++ b).toNat * 2)
    let inexact := fun (F : Fmt) => F ≠ f32 ∧ bitAt (F.convert 0 false 0 single).2 10 = true
    let tells := fun (i : Instr) (F : Fmt) => exec i s = .next u → (u.here.warn.getLsbD 5 = true ↔ s.here.warn.getLsbD 5 = true ∨ inexact F)
    (∀ i ∈ [Instr.fadd m t d a b, .fsub m t d a b, .fmul m t d a b, .ffma m t d a b, .fmin m t d a b, .fmax m t d a b, .fsgn m t d a b, .fsgnNeg m t d a b,
      .fsgnXor m t d a b, .fcmpEq m t d a b, .fcmpNe m t d a b, .fcmpLt m t d a b, .fcmpLe m t d a b, .fcmpGt m t d a b, .fcmpGe m t d a b, .fcmpUn m t d a b,
      .fcmpOr m t d a b], tells i (fty t)) ∧
    (∀ i ∈ [Instr.hadd2 m f d a b, .hmul2 m f d a b, .hfma2 m f d a b, .hcmp2 m t f d a b], tells i (if f = 1#1 then bf16 else f16)) ∧
    (g.toNat < 3 → tells (.wmad m g w a b) (match g.toNat with | 0 => f32 | 1 => f16 | _ => bf16)))) ∧
  (∀ (i : Instr) (d : Dst) (s t : State), Instr.dest i = some d → exec i s = .next t →
    s.quiet t ∧ (∀ g, (t.group g).agree (s.group g)) ∧
    (∀ g l, g ≠ s.cur.g → (t.lane g l).pc = (s.lane g l).pc ∧ (t.lane g l).agree (s.lane g l) []) ∧
    (∀ l, s.liveAt s.cur.g l → let b := s.lane s.cur.g l
      (l ∉ s.cur.lanes → (t.lane s.cur.g l).pc = b.pc) ∧
      (t.lane s.cur.g l).agree b (if l ∈ s.cur.lanes then d.regs b ++ Instr.frees i d b else []))) ∧
  (∀ (i : Instr) (d : Dst) (s : State), Instr.dest i = some d → s.noFpTraps →
    ∃ t, exec i s = .next t ∧ ∀ l, s.live l → ∀ r ∈ Instr.frees i d (s.lane s.cur.g l), r.file ≠ .q → (t.lane s.cur.g l).regVal r = Val.zero)

/-- R16, R135, R153, R156, R176. Where FPMODE enables an exception that an active lane raises with a clean result, an instruction of the arithmetic, the
accumulators or the packed halves traps instead: ARITH with the lowest such exception, the register code of a, the lanes that raised it, and engine 1;
the flags do not change. A special function is held back before it writes anything, and its trap is raised as it retires. A result stays pending until
PENDING_RESULT_RETIRE: that event releases its registers in the fibres it was issued for and ORs the exceptions raised into FPMODE. -/
def Obligations.FloatTrapsAndRetirement : Prop :=
  (∀ (m : Mods) (t : BitVec 2) (d a b : BitVec 7) (s : State) (n : Nat) (lanes : List Nat), s.running →
    let r := if t = 0#2 then 2 else 1
    let A := fun l => s.opnd l (srcR a r)
    let B := fun l => s.opnd l (srcF m b (fty t))
    let C := fun l => s.opnd l (srcC' m d r)
    let x := fun l => (fty t).of (A l)
    let y := fun l => (fty t).of (B l)
    let z := fun l => (fty t).of (C l)
    let traps := fun (i : Instr) (r : Nat → Nat × Nat) (v : Nat → List Val) => s.raised i r v = some (n, lanes) →
      ∃ u, exec i s = .next u ∧ u.here.fpmode = s.here.fpmode ∧ s.trapsTo u ⟨2, n, a.toNat, lanes.headD 0, 1, s.cur.words, laneBits lanes, false⟩
    traps (.fadd m t d a b) (fun l => (fty t).add (s.rm (.fadd m t d a b)) (Instr.sat (.fadd m t d a b)) (s.drawn l 0) (x l) (y l)) (fun l => [A l, B l]) ∧
    traps (.fsub m t d a b) (fun l => (fty t).add (s.rm (.fsub m t d a b)) (Instr.sat (.fsub m t d a b)) (s.drawn l 0) (x l) (y l).negate) (fun l => [A l, B l]) ∧
    traps (.fmul m t d a b) (fun l => (fty t).mul (s.rm (.fmul m t d a b)) (Instr.sat (.fmul m t d a b)) (s.drawn l 0) (x l) (y l)) (fun l => [A l, B l]) ∧
    traps (.ffma m t d a b) (fun l => (fty t).fma (s.rm (.ffma m t d a b)) (Instr.sat (.ffma m t d a b)) (s.drawn l 0) (x l) (y l) (z l)) (fun l => [A l, B l, C l]) ∧
    traps (.frnd m t d a) (fun l => (fty t).rint (s.rm (.frnd m t d a)) (s.drawn l 0) ((A l).bits % 2 ^ (fty t).width)) (fun l => [A l])) ∧
  (∀ (m : Mods) (f : BitVec 3) (g : BitVec 1) (c : BitVec 2) (w u' v' : BitVec 4) (d a b : BitVec 7) (s : State) (n : Nat) (lanes : List Nat), s.running →
    let traps := fun (i : Instr) (code : Nat) (r : Nat → Nat × Nat) (v : Nat → List Val) => s.raised i r v = some (n, lanes) →
      ∃ u, exec i s = .next u ∧ u.here.fpmode = s.here.fpmode ∧ s.trapsTo u ⟨2, n, code, lanes.headD 0, 1, s.cur.words, laneBits lanes, false⟩
    let W := fun (n : BitVec 4) l => (s.lane s.cur.g l).regVal ⟨.w, n.toNat⟩
    let A := fun l => s.opnd l (srcR a 1)
    let F := match f.toNat with | 0 => f32 | 1 => f16 | _ => bf16
    let N := match f.toNat with | 1 => f32 | 2 => f16 | _ => bf16
    let M := fun l => s.opnd l (srcF m b F)
    let H := if g = 1#1 then bf16 else f16
    let B := fun l => s.opnd l (srcH m b H)
    let C := fun l => s.opnd l (srcC' m d 1)
    let lo := fun (v : Val) => H.num (bitsAt v.bits 15 0)
    let hi := fun (v : Val) => H.num (bitsAt v.bits 31 16)
    let both := fun (x y : Nat × Nat) => (x.1 + 2 ^ 16 * y.1, Nat.lor x.2 y.2)
    let cond := match c.toNat with | 0 => 0 | 1 => 2 | 2 => 3 | _ => 6
    let rm := s.rm
    let sat := Instr.sat
    let r := s.drawn
    (f.toNat < 3 → let i := Instr.wmad m f w a b
      traps i a.toNat (fun l => f64.fma (rm i) (sat i) (r l 0) (F.of (A l)) (F.of (M l)) (f64.of (W w l))) (fun l => [A l, M l, W w l])) ∧
    (let i := Instr.waddAccumulator m 0 w u' v'
     traps i u'.toNat (fun l => f64.add (rm i) (sat i) (r l 0) (f64.of (W u' l)) (f64.of (W v' l))) (fun l => [W u' l, W v' l, W w l])) ∧
    (1 ≤ f.toNat → f.toNat ≤ 3 →
      (let i := Instr.narrow m f d u'; traps i u'.toNat (fun l => N.convert (rm i) (sat i) (r l 0) (f64.of (W u' l))) (fun l => [W u' l])) ∧
      (let i := Instr.widen m f w a; traps i a.toNat (fun l => f64.convert 0 false 0 (N.of (A l))) (fun l => [A l]))) ∧
    (let i := Instr.hadd2 m g d a b
     traps i a.toNat (fun l => both (H.add (rm i) (sat i) (r l 0) (lo (A l)) (lo (B l))) (H.add (rm i) (sat i) (r l 1) (hi (A l)) (hi (B l)))) (fun l => [A l, B l])) ∧
    (let i := Instr.hmul2 m g d a b
     traps i a.toNat (fun l => both (H.mul (rm i) (sat i) (r l 0) (lo (A l)) (lo (B l))) (H.mul (rm i) (sat i) (r l 1) (hi (A l)) (hi (B l)))) (fun l => [A l, B l])) ∧
    (let i := Instr.hfma2 m g d a b
     traps i a.toNat (fun l => both (H.fma (rm i) (sat i) (r l 0) (lo (A l)) (lo (B l)) (lo (C l))) (H.fma (rm i) (sat i) (r l 1) (hi (A l)) (hi (B l)) (hi (C l))))
        (fun l => [A l, B l, C l])) ∧
    traps (.hcmp2 m c g d a b) a.toNat (fun l => (0, Nat.lor (fcompare cond (lo (A l)) (lo (B l))).2 (fcompare cond (hi (A l)) (hi (B l))).2)) (fun l => [A l, B l])) ∧
  (∀ (m : Mods) (t : BitVec 2) (d a : BitVec 7) (s : State) (n : Nat) (lanes : List Nat), d.toNat < 96 →
    let f := ftyFmt t.toNat
    let A := fun l => s.opnd l (srcR a 1)
    let held := fun (i : Instr) (k : Special) => s.raised i (fun l => k.result f ((A l).bits % 2 ^ f.width)) (fun l => [A l]) = some (n, lanes) →
      ∃ u p, exec i s = .next u ∧ u.here.fpmode = s.here.fpmode ∧ (u.core s.here.core).results.find? s.ids = some p ∧ p.g = s.cur.g ∧ p.flags = 0 ∧
        p.trap = some (⟨2, n, a.toNat, lanes.headD 0, 1, s.cur.words, laneBits lanes, false⟩, s.cur.lanes) ∧ ∀ l, s.liveAt s.cur.g l → s.stays u l
    held (.srcp m t d a) .rcp ∧ held (.srsq m t d a) .rsq ∧ held (.ssqrt m t d a) .sqrt ∧ held (.sexp2 m t d a) .exp2 ∧ held (.slog2 m t d a) .log2 ∧
      held (.ssin m t d a) .sin ∧ held (.scos m t d a) .cos ∧ held (.stanh m t d a) .tanh) ∧
  (∀ (core n : Nat) (p : Result) (tr : Trap) (lanes : List Nat) (s : State),
    let x := s.group p.g
    (s.core core).results.find? n = some p → p.trap = some (tr, lanes) → p.flags = 0 → (s.ctxs.find? x.ctx).isSome = true → s.runs x.ctx p.g = true →
      ∃ u h, exec (.pendingResultRetire core n) s = .next u ∧ (u.core core).results.find? n = none ∧ (u.ctx x.ctx).halt = some h ∧ h.trap = tr ∧ h.group = p.g ∧
        h.lanes = lanes ∧ h.incomplete = true ∧ h.phase = .stopping ∧ (u.group p.g).fpmode = x.fpmode ∧
        ∀ g l, s.liveAt g l → (u.lane g l).pc = (s.lane g l).pc ∧ (u.lane g l).agree (s.lane g l) []) ∧
  ((∀ (m : Mods) (t : BitVec 2) (d a b : BitVec 7) (s : State), s.noFpTraps →
    let i := Instr.fadd m t d a b
    let r := if t = 0#2 then 2 else 1
    let flags := fun l => ((fty t).add (s.rm i) (Instr.sat i) (s.drawn l 0) ((fty t).of (s.opnd l (srcR a r))) ((fty t).of (s.opnd l (srcF m b (fty t))))).2
    ∃ u p, exec i s = .next u ∧ (u.core s.here.core).results.find? s.ids = some p ∧ p.g = s.cur.g ∧
      p.flags = BitVec.ofNat 32 (((s.actives i).map flags).foldl Nat.lor 0) ∧
      ∀ l, s.live l → ∀ q ∈ (Dst.v d.toNat r).regs (s.lane s.cur.g l),
        (l, (s.lane s.cur.g l).uid, q) ∈ p.locks ∧ ∃ k ∈ (u.lane s.cur.g l).locks, k.reg = q) ∧
  (∀ (core n : Nat) (p : Result) (s : State), (s.core core).results.find? n = some p → p.trap = none →
    ∃ u, exec (.pendingResultRetire core n) s = .next u ∧ (u.core core).results.find? n = none ∧
      ((s.groups.find? p.g).isSome = true → (u.group p.g).fpmode = (s.group p.g).fpmode ||| p.flags) ∧
      (∀ l uid q, (l, uid, q) ∈ p.locks → s.liveAt p.g l → (s.lane p.g l).uid = uid → ∀ k ∈ (u.lane p.g l).locks, k.reg ≠ q) ∧
      (∀ g l, s.liveAt g l → (u.lane g l).pc = (s.lane g l).pc ∧ (u.lane g l).agree (s.lane g l) [])))

/-- R49, R70, R71, R72, R73, R74, R75, R135. BRA goes to PC + 4 × the signed offset, and BRQ does where the predicate equals its sense and goes on
otherwise; JMP goes to the k register, or with fn 1 to PC plus it, where every target is aligned. Nothing else changes. CALL and CALLR push the return
address, the address of the next instruction, in every fibre. A fibre with four on-chip entries spills the oldest: it goes to memory as a store of 8
bytes at FSTK.BASE × 4096 + 8 × DEPTH, which no counter counts, and DEPTH grows. Where that would exceed the stack limit in some fibre, no fibre
calls, and STACK with SUB 0 and FSTK as VAL is raised. RET pops the newest on-chip entry of every fibre. Where some stack is empty with nothing
spilled, every fibre faults: STACK with SUB 1. Where some fibre must fill, the issue set waits for its fills, and RETURN_FILL_ARRIVAL pops in every
fibre at once: an on-chip entry, or the 8 bytes at the top of the spill area, DEPTH then falling by 1. The issue set that waits there longest lands,
once nothing holds its fills and the port takes them: each line stands in the L1, or all are one line that the L2 holds or has room for (log entries 43, 91
and 92: the port, the order of a RET's faults, and a DEPTH above the limit). -/
def Obligations.BranchesCallsReturns : Prop :=
  (∀ (m : Mods) (o : BitVec 24) (p : BitVec 20) (q f : BitVec 3) (e : BitVec 1) (a : BitVec 7) (s : State),
    let b := s.lane s.cur.g
    let far := fun (off : W64) => s.cur.pc + 4 * off
    let target := fun l => if f = 1#3 then s.cur.pc + (b l).kAddr a else (b l).kAddr a
    let goes := fun (i : Instr) (dest : Nat → W64) => ∃ t, exec i s = .next t ∧ (∀ l, s.live l → t.standsAt s.cur.g l (dest l)) ∧ s.framed t (s.freed i)
    goes (.bra m o) (fun _ => far (match m.imx with | some x => (x ++ o).signExtend 64 | none => o.signExtend 64)) ∧
    (s.untagged (fun l => [(b l).qBit q.toNat]) → goes (.brq m q e p) (fun l =>
      if ((b l).qBit q.toNat).bits = e.toNat then far (match m.imx with | some x => (x ++ p).signExtend 64 | none => p.signExtend 64) else s.nextPc)) ∧
    (s.untagged (fun l => [(b l).kOf a]) → (∀ l ∈ s.cur.lanes, (target l).toNat % 4 = 0) → goes (.jmp m f a) target)) ∧
  (∀ (m : Mods) (o : BitVec 24) (f : BitVec 3) (a : BitVec 7) (s : State),
    let x := s.here
    let b := s.lane s.cur.g
    let limit := (s.grid x.grid).record.limit
    let slot := fun l => ((b l).stackBase ++ 0#12) + BitVec.ofNat 64 (8 * (b l).depth.toNat)
    let full := s.cur.lanes.filter (fun l => (b l).stack.length = 4 ∧ limit ≤ (b l).depth.toNat)
    let reaches := ∀ l ∈ s.cur.lanes, (b l).stack.length ≤ 4 ∧ ((b l).stack.length = 4 → ∃ pa p, s.xlate x.ctx x.core (slot l) .write = .ok pa p)
    let near := fun (_ : Nat) => s.cur.pc + 4 * (match m.imx with | some x => (x ++ o).signExtend 64 | none => o.signExtend 64)
    let target := fun l => if f = 1#3 then s.cur.pc + (b l).kAddr a else (b l).kAddr a
    let calls := fun (i : Instr) (dest : Nat → W64) =>
      (full = [] → reaches → ∃ t, exec i s = .next t ∧ (∀ l, s.live l → t.standsAt s.cur.g l (dest l) ∧
          (t.lane s.cur.g l).stack = (s.nextPc :: (b l).stack).take 4 ∧
          (t.lane s.cur.g l).depth = (if (b l).stack.length = 4 then (b l).depth + 1 else (b l).depth) ∧ (t.lane s.cur.g l).stackBase = (b l).stackBase ∧
          ∀ r, r ∉ s.freed i l → (t.lane s.cur.g l).regVal r = (b l).regVal r) ∧
        (∀ l ∈ s.cur.lanes, (b l).stack.length = 4 → ∃ n w pa p, s.xlate x.ctx x.core (slot l) .write = .ok pa p ∧ (t.core x.core).stores.find? n = some w ∧
          w.g = s.cur.g ∧ w.uid = (b l).uid ∧ w.va = slot l ∧ w.pa = pa ∧ w.data = bytesOf 8 ((b l).stack.getD 3 0).toNat ∧ w.level = 0 ∧ w.scratch = false ∧ w.counted = false) ∧
        s.still t ∧ ∀ g, (t.group g).agree (s.group g)) ∧
      (full ≠ [] → s.running → ∃ t, exec i s = .next t ∧
        s.trapsTo t ⟨11, 0, 0, full.headD 0, 0, s.cur.words, (b (full.headD 0)).stackBase ++ (b (full.headD 0)).depth ++ 0#3, false⟩)
    calls (.call m o) near ∧
      (s.untagged (fun l => [(b l).kOf a]) → (∀ l ∈ s.cur.lanes, (target l).toNat % 4 = 0) → calls (.callr m f a) target)) ∧
  ((∀ (m : Mods) (s : State),
    let x := s.here
    let b := s.lane s.cur.g
    let top := fun l => ((b l).stackBase ++ 0#12) + BitVec.ofNat 64 (8 * ((b l).depth - 1).toNat)
    let empty := s.cur.lanes.filter (fun l => (b l).stack = [] ∧ (b l).depth = 0)
    (empty = [] → (∀ l ∈ s.cur.lanes, (b l).stack ≠ [] ∧ ((b l).stack.headD 0).toNat % 4 = 0) → ∃ t, exec (.ret m) s = .next t ∧ s.quiet t ∧
      (∀ l, s.live l → t.standsAt s.cur.g l ((b l).stack.headD 0) ∧ (t.lane s.cur.g l).stack = (b l).stack.tail ∧ (t.lane s.cur.g l).depth = (b l).depth ∧
        ∀ r, (t.lane s.cur.g l).regVal r = (b l).regVal r)) ∧
    (empty = [] → (∃ l ∈ s.cur.lanes, (b l).stack = []) → (∀ l ∈ s.cur.lanes, (b l).stack = [] → ∃ pa p, s.xlate x.ctx x.core (top l) .read = .ok pa p) →
      ∃ t, exec (.ret m) s = .next t ∧ s.still t ∧ ∀ l, s.live l → s.stays t l ∧ (t.lane s.cur.g l).wait = .fill s.cur.words s.clocks) ∧
    (empty ≠ [] → s.running → ∃ t, exec (.ret m) s = .next t ∧
      s.trapsTo t ⟨11, 1, 0, empty.headD 0, 0, s.cur.words, (b (empty.headD 0)).stackBase ++ (b (empty.headD 0)).depth ++ 0#3, false⟩)) ∧
  (∀ (g c : Nat) (pc : W64) (la : Option Nat) (s : State),
    let x := s.group g
    let b := s.lane g
    let waits := fun l => s.liveAt g l ∧ (b l).pc = pc ∧ ∃ w, (b l).wait = .fill w c
    let top := fun l => ((b l).stackBase ++ 0#12) + BitVec.ofNat 64 (8 * ((b l).depth - 1).toNat)
    let filled := fun l v => ∃ pa p, s.xlate x.ctx x.core (top l) .read = .ok pa p ∧ (s.core x.core).mayRead x.ctx g (b l).uid s.ids false (top l) pa 8 s.ids = true ∧
      (p.consults = true → s.hostHolds (lineOf pa) = false) ∧ s.coreRead x.ctx x.core pa 8 p.mtype true = (bytesOf 8 v, false) ∧ p.mtype ≠ 2 ∧
      (la = none → ((s.core x.core).l1.find? (lineOf pa)).isSome = true) ∧
      (∀ y, la = some y → lineOf pa = y ∧ (s.core x.core).l1.find? y = none ∧ s.barred (dieOf x.core) y = false ∧
        (p.l2Ok = false ∨ ((s.die (dieOf x.core)).l2.find? y).isSome = true ∨ (s.die (dieOf x.core)).l2.length < Config.l2Ways))
    ∀ (v : Nat → Nat), s.runs x.ctx g = true → (∃ l, waits l) → (∀ l w e, s.liveAt g l → (b l).pc = pc → (b l).wait = .fill w e → c ≤ e) → s.roomy x.ctx x.core x.fibres.length → (∀ l, waits l → v l < 2 ^ 64 ∧ v l % 4 = 0 ∧
        if (b l).stack = [] then filled l (v l) else ((b l).stack.headD 0).toNat = v l) →
      ∃ t, exec (.returnFillArrival g pc) s = .next t ∧ (la = none → s.quiet t) ∧ t.mem = s.mem ∧ ∀ l, waits l → t.standsAt g l (BitVec.ofNat 64 (v l)) ∧
        (t.lane g l).stack = (b l).stack.tail ∧ (t.lane g l).depth = (if (b l).stack = [] then (b l).depth - 1 else (b l).depth) ∧
        ∀ r, (t.lane g l).regVal r = (b l).regVal r))

/-- R68, R69, R71, R97, R120, R133, R135, R137, R140, R144, R232, R238. Where some fibre's target of JMP, CALLR or FORK is not a multiple of 4, every
fibre faults: MEMORY with SUB 2, INFO 2 and the target of the lowest such lane; the fibres keep their PCs and registers. A poisoned control operand
raises HWERR with SUB 0 and the code of its field, and no fibre executes the instruction: the k target of JMP and CALLR, the predicate of BRQ, the
window base of WIN, the operand of LEASE, the source of SWR, the predicate of ASSERT, the mask of QUIT, and the mask and the active fibres' operands of
FORK. A guessed one: where some fibre's operands are certain, the guessed fibres stay at the instruction and wait for their tickets, and it acts with the
others as its issue set. Where every fibre's are guessed, those whose tickets all hold their truths are examined: with a guess-miss bit set GUESS with
SUB 3 is raised, and otherwise G is cleared on the operands and it acts with them as its issue set (log entries 13, 27 and 28: INFO and VAL of these traps).
Instructions that are not allowed in a state raise ILLEGAL with SUB 1: FORK, TARR, TWAIT, MBAR and LNCH in a handler, MBAR in a grid that is not
co-scheduled, TRET outside a handler, and a write of a system register without the right to it. VAL holds the base word and above it the OPX word,
else the IMX word, else 0. -/
def Obligations.ControlOperandFaults : Prop :=
  (∀ (m : Mods) (f : BitVec 3) (d a c : BitVec 7) (s : State), s.running → s.untagged (fun l => [(s.lane s.cur.g l).kOf a, (s.lane s.cur.g l).kOf c]) →
    let target := fun l => if f = 1#3 then s.cur.pc + (s.lane s.cur.g l).kAddr a else (s.lane s.cur.g l).kAddr a
    let fresh := fun l => (s.lane s.cur.g l).kAddr a
    let traps := fun (i : Instr) (lanes : List Nat) (x : Nat → W64) => (lanes.filter (fun l => (x l).toNat % 4 ≠ 0)) ≠ [] →
      ∃ t, exec i s = .next t ∧
        let l := (lanes.filter (fun l => (x l).toNat % 4 ≠ 0)).headD 0
        s.trapsTo t ⟨4, 2, 2, l, 0, s.cur.words, x l, false⟩
    traps (.jmp m f a) s.cur.lanes target ∧ traps (.callr m f a) s.cur.lanes target ∧
      (s.here.h = false → s.untagged (fun l => [Instr.maskBit (.fork m f d a c) (s.lane s.cur.g l)]) → traps (.fork m f d a c) (s.actives (.fork m f d a c)) fresh)) ∧
  (∀ (m : Mods) (f : BitVec 3) (p : BitVec 20) (q : BitVec 3) (e : BitVec 1) (d a c : BitVec 7) (s : State),
    let g := s.cur.g
    let known := fun l => (s.core s.here.core).truthful g (s.lane g l).uid
    let first := fun (ops : List (Nat × Val)) (tag : Val → Bool) => ((ops.find? (fun o => tag o.2)).map Prod.fst).getD 0
    let checks := fun (i : Instr) (ops : State → Nat → List (Nat × Val)) =>
      let poisoned := s.cur.lanes.filter (fun l => (ops s l).any (fun o => o.2.p))
      let guessed := s.cur.lanes.filter (fun l => (ops s l).any (fun o => o.2.g))
      let sure := s.cur.lanes.filter (fun l => !(ops s l).any (fun o => o.2.g))
      let told := guessed.filter known
      let missed := told.filter (fun l => (s.lane g l).gm)
      (poisoned ≠ [] → s.running → ∃ t, exec i s = .next t ∧ s.trapsTo t ⟨8, 0, first (ops s (poisoned.headD 0)) Val.p, poisoned.headD 0, 0, s.cur.words, 0, false⟩) ∧
      (poisoned = [] → guessed ≠ [] →
        (sure ≠ [] → exec i s = exec i ((s.wait guessed .tickets).narrow sure)) ∧
        (sure = [] → told = [] → ∃ t, exec i s = .next t ∧ s.quiet t ∧ ∀ l, s.live l → s.stays t l ∧ (t.lane g l).wait = .tickets) ∧
        (sure = [] → told ≠ [] → missed = [] → ∃ u, exec i s = exec i u ∧ u.cur = { s.cur with lanes := told } ∧ s.quiet u ∧ ∀ l, s.live l →
          (u.lane g l).pc = (s.lane g l).pc ∧ if known l then ops u l = (ops s l).map (fun o => (o.1, { o.2 with g := false })) ∧ (u.lane g l).wait = (s.lane g l).wait
            else s.stays u l ∧ (u.lane g l).wait = .tickets) ∧
        (sure = [] → missed ≠ [] → s.running → ∃ t h, exec i s = .next t ∧ (t.ctx s.here.ctx).halt = some h ∧
          h.trap = ⟨3, 3, first (ops s (missed.headD 0)) Val.g, missed.headD 0, 0, s.cur.words, laneBits missed, false⟩ ∧ h.epc = (s.lane g (missed.headD 0)).pc ∧
          ∀ l, s.live l → (t.lane g l).pc = (s.lane g l).pc))
    let k := fun (u : State) (l : Nat) => [(0, (u.lane g l).kOf a)]
    let mask := fun (i : Instr) (u : State) (l : Nat) => [(4, Instr.maskBit i (u.lane g l))]
    checks (.brq m q e p) (fun u l => [(9, (u.lane g l).qBit q.toNat)]) ∧ checks (.jmp m f a) k ∧ checks (.callr m f a) k ∧ checks (.winK m a) k ∧
      checks (.leaseK m d a) k ∧ checks (.assertQ m e a c) (fun u l => [(0, (u.lane g l).qBit (a.toNat - 112))]) ∧ ((riImm m c).toNat ≤ 1 → checks (.swr m a c) k) ∧
      checks (.quit m) (mask (.quit m)) ∧
      (s.here.h = false → let i := Instr.fork m f d a c
        checks i (fun u l => mask i u l ++ if (Instr.maskBit i (u.lane g l)).bits = 1 then [(0, (u.lane g l).kOf a), (1, (u.lane g l).kOf c)] else []))) ∧
  (∀ (m : Mods) (f : BitVec 3) (d a c : BitVec 7) (s : State), s.running →
    let r := (riImm m c).toNat
    let second := match s.cur.opx with | some o => o.toNat | none => match s.cur.imx with | some y => y.toNat | none => 0
    let illegal := fun (i : Instr) (info : Nat) => ∃ t, exec i s = .next t ∧
      s.trapsTo t ⟨1, 1, info, s.cur.lanes.headD 0, 0, s.cur.words, BitVec.ofNat 64 (s.cur.base.toNat + 2 ^ 32 * second), false⟩
    (s.here.h = true → illegal (.fork m f d a c) 15 ∧ illegal (.tarr m d) 15 ∧ illegal (.twait m) 15 ∧ illegal (.mbar m) 15 ∧ illegal (.lnch m d a c) 15) ∧
    ((s.grid s.here.grid).record.cosched = false → illegal (.mbar m) 15) ∧ (s.here.h = false → illegal (.tret m) 15) ∧
    (¬ (r = 0 ∨ r = 1 ∨ r = 3) → ¬ (s.here.h = true ∧ (r = 2 ∨ r = 16 ∨ (18 ≤ r ∧ r ≤ 25))) →
      illegal (.swr m a c) 12 ∧ illegal (.swrOr m a c) 12 ∧ illegal (.swrClr m a c) 12))

/-- R32, R76. JCT makes every fibre of the issue set wait at the junction, its PC unchanged. The fibres that wait at a junction are released together,
with JA clear and the PC past the JCT, where no live fibre of the group has a PC below the junction or 1,024 clocks have passed since the earliest of
them arrived, and not before (log entries 83 and 85: the length of the JCT, and groups in the lay-by). -/
def Obligations.Junctions : Prop :=
  (∀ (m : Mods) (s : State), ∃ t, exec (.jct m) s = .next t ∧ s.quiet t ∧ ∀ l, s.live l →
    (t.lane s.cur.g l).pc = (s.lane s.cur.g l).pc ∧ (t.lane s.cur.g l).cw = { (s.lane s.cur.g l).cw with ja := true } ∧
    (t.lane s.cur.g l).junctionSince = s.clocks ∧ (t.lane s.cur.g l).junctionWords = s.cur.words ∧ ∀ r, r.file ≠ .q → (t.lane s.cur.g l).regVal r = (s.lane s.cur.g l).regVal r) ∧
  (∀ (g : Nat) (pc : W64) (s : State),
    let b := s.lane g
    let waits := fun l => s.liveAt g l ∧ (b l).cw.ja = true ∧ (b l).pc = pc
    let released := fun (t : State) => s.quiet t ∧ ∀ l, s.liveAt g l →
      (waits l → (t.lane g l).pc = pc + BitVec.ofNat 64 (4 * s.junctionLength (s.group g) (b l)) ∧ (t.lane g l).cw = { (b l).cw with ja := false }) ∧
      (¬ waits l → t.lane g l = b l)
    s.runs (s.group g).ctx g = true →
      ((∀ l, s.liveAt g l → pc.toNat ≤ (b l).pc.toNat) → ∃ t, exec (.junctionRelease g pc) s = .next t ∧ released t) ∧
      ((∃ l, s.liveAt g l ∧ (b l).pc.toNat < pc.toNat) → exec (.junctionRelease g pc) s = .next s) ∧
      ((∃ l, waits l ∧ (b l).junctionSince + 1024 ≤ s.clocks) → ∃ t, exec (.junctionTimeout g pc) s = .next t ∧ released t) ∧
      ((∀ l, waits l → s.clocks < (b l).junctionSince + 1024) → exec (.junctionTimeout g pc) s = .next s))

/-- R53, R56, R77, R78, R93. FORK creates one fibre for each active fibre, in ascending order, in the lowest free lane at that point: PC from a,
FSTK.BASE from b with DEPTH 0, an empty stack, the parent's window base and GLIM, and with `.copy` the parent's v, k and w registers and predicates
with their tags; d receives the lane. Where no lane is free, d receives all ones and nothing is created. QUIT ends every active fibre, and the
masked-off fibres of the issue set go on; other groups keep their fibres. -/
def Obligations.ForkAndQuit : Prop :=
  (∀ (m : Mods) (f : BitVec 3) (d a c : BitVec 7) (s : State),
    let i := Instr.fork m f d a c
    let b := s.lane s.cur.g
    let act := s.actives i
    let free := (List.range 32).filter (fun l => ((s.group s.cur.g).fibres.find? l).isNone)
    s.issued → s.here.h = false → s.untagged (fun l => Instr.maskBit i (b l) :: if l ∈ act then [(b l).kOf a, (b l).kOf c] else []) →
      (∀ l ∈ act, ((b l).kAddr a).toNat % 4 = 0) →
      ∃ t, exec i s = .next t ∧ s.quiet t ∧ ∀ (j l : Nat), act[j]? = some l → s.passed t l ∧
        match free[j]? with
        | none => (Dst.k d.toNat).read (t.lane s.cur.g l) = (Dst.k d.toNat).holds (Val.of (2 ^ 64 - 1))
        | some n =>
          (Dst.k d.toNat).read (t.lane s.cur.g l) = (Dst.k d.toNat).holds (Val.of n) ∧
          let y := t.lane s.cur.g n
          t.liveAt s.cur.g n ∧ y.pc = (b l).kAddr a ∧ y.stackBase = ((b l).kAddr c >>> 12).setWidth 52 ∧ y.depth = 0 ∧ y.stack = [] ∧ y.glim = (b l).glim ∧
            y.cw.x = true ∧ y.cw.ja = false ∧ y.cw.wb = (b l).cw.wb ∧ y.wait = .free ∧
            ∀ r, y.regVal r = if f = 1#3 then (b l).regVal r else (Fibre.new 0 0 0).regVal r) ∧
  (∀ (m : Mods) (s : State), s.untagged (fun l => [Instr.maskBit (.quit m) (s.lane s.cur.g l)]) →
    ∃ t, exec (.quit m) s = .next t ∧ (∀ l ∈ s.actives (.quit m), ¬ t.liveAt s.cur.g l) ∧
      (∀ l, s.live l → l ∉ s.actives (.quit m) → t.liveAt s.cur.g l ∧ s.passed t l) ∧
      (∀ g l, g ≠ s.cur.g → (t.liveAt g l ↔ s.liveAt g l)))

/-- R81, R104, R106, R118. WIN sets the window base of every fibre to its operand and WADD adds its immediate; where the base would leave 0 to 15 or
the window the group's register budget in some fibre, no base changes: STACK with SUB 2 is raised, with the low 14 bits of the base that was asked for
in INFO and FSTK in VAL. LEASE sets the declared lease of the group to its operand, at most the track's budget, and to none where it is 0; the `.k`
form takes the greatest of the fibres' values and `.rd` changes nothing. d receives the granted lease: the declared or measured one, within 1 KiB and
the budget, which is the track's share of the core's by the weights of LEASEW. -/
def Obligations.WindowAndLeases : Prop :=
  (∀ (m : Mods) (i a : BitVec 7) (s : State),
    let b := s.lane s.cur.g
    let moves := fun (ins : Instr) (base : Nat → Int) =>
      let bad := s.cur.lanes.filter (fun l => base l < 0 ∨ 15 < base l ∨ (s.here.budget : Int) < 32 * base l + 96)
      (bad = [] → ∃ t, exec ins s = .next t ∧ s.quiet t ∧ (∀ g, (t.group g).agree (s.group g)) ∧ ∀ l, s.live l → s.passed t l ∧
        ((t.lane s.cur.g l).cw.wb.toNat : Int) = base l ∧ ∀ r, r ∉ s.freed ins l → (t.lane s.cur.g l).regVal r = (b l).regVal r) ∧
      (bad ≠ [] → s.running → ∃ t, exec ins s = .next t ∧
        s.trapsTo t ⟨11, 2, (base (bad.headD 0) % 2 ^ 14).toNat, bad.headD 0, 0, s.cur.words, (b (bad.headD 0)).stackBase ++ (b (bad.headD 0)).depth ++ 0#3, false⟩)
    moves (.win m i) (fun _ => (riImm m i).toInt) ∧
    (s.untagged (fun l => [(b l).kOf a]) → moves (.winK m a) (fun l => ((b l).kAddr a).toInt)) ∧
    moves (.wadd m i) (fun l => ((b l).cw.wb.toNat : Int) + (riImm m i).toInt)) ∧
  (∀ (m : Mods) (d i a : BitVec 7) (s : State),
    let x := s.here
    let b := s.lane s.cur.g
    let w := fun k => (s.core x.core).leasew.toNat / 2 ^ (4 * k) % 16
    let sum := w 0 + w 1 + w 2 + w 3 + w 4 + w 5 + w 6 + w 7
    let budget := if sum = 0 then Config.leaseBudget / 8 else Config.leaseBudget * w x.track / sum
    let declare := fun (v : Nat) => if v = 0 then none else some (min v budget)
    let grants := fun (ins : Instr) (decl : Option Nat) => ∃ t, exec ins s = .next t ∧ s.quiet t ∧
      s.lanesKept t (fun l => (Dst.k d.toNat).regs (b l) ++ Instr.frees ins (.k d.toNat) (b l)) ∧
      ∀ l, s.live l → s.passed t l ∧ t.here.declared = decl ∧
        (Dst.k d.toNat).read (t.lane s.cur.g l) = (Dst.k d.toNat).holds (Val.of (max 1 (min (decl.getD x.measured) budget)))
    grants (.lease m d i) (declare (riImm m i).toNat) ∧
    (s.untagged (fun l => [(b l).kOf a]) → grants (.leaseK m d a) (declare ((s.cur.lanes.map (fun l => ((b l).kOf a).bits)).foldl max 0))) ∧
    grants (.leaseRd m d) x.declared)

/-- R19, R79, R80, R112. NOP only advances the PCs. YIELD does, and the group gives up its place on the carriageway at the end of the clock where a
ready lay-by group of its track fits in it (log entry 99: its own lease left out). WAITC goes on where the four counters are at or below its counts, and otherwise waits until they are. -/
def Obligations.WaitsAndYields : Prop :=
  ∀ (m : Mods) (n st c k : BitVec 6) (s : State),
    let x := s.here
    let below := x.loads ≤ n.toNat ∧ x.stores ≤ st.toNat ∧ x.copies ≤ c.toNat ∧ x.tiles ≤ k.toNat
    let fits := ∃ g y, (g, y) ∈ s.groups ∧ g ≠ s.cur.g ∧ y.core = x.core ∧ y.track = x.track ∧ y.set = .layby ∧ s.hasReady g = true ∧ s.leaving y = false ∧ s.leaseFits y s.cur.g = true
    (∃ t, exec (.nop m) s = .next t ∧ (∀ l, s.live l → s.passed t l) ∧ s.framed t (s.freed (.nop m))) ∧
    (∃ t, exec (.yield m) s = .next t ∧ (∀ l, s.live l → s.passed t l ∧ (t.here.yielding = true ↔ fits)) ∧ s.framed t (s.freed (.yield m))) ∧
    (below → ∃ t, exec (.waitc m n st c k) s = .next t ∧ (∀ l, s.live l → s.passed t l) ∧ s.framed t (s.freed (.waitc m n st c k))) ∧
    (¬ below → ∃ t, exec (.waitc m n st c k) s = .next t ∧ s.framed t (fun _ => []) ∧
      ∀ l, s.live l → s.stays t l ∧ (t.lane s.cur.g l).wait = .counters n.toNat st.toNat c.toNat k.toNat s.cur.words)

/-- R40, R97, R114, R115, R116, R117, R270. GBAR, TARR and MBAR begin an arrival: the fibre waits at the instruction until its release is done. A
fibre that issues TARR again in the phase of its latest arrival waits for that phase first. TWAIT waits while the phase of the latest arrival is in
progress and else does nothing. TARR, TWAIT and MBAR are meant outside a handler, and MBAR in a co-scheduled grid. BARRIER_ARRIVAL of a fibre whose
release is done and whose value-returning atomics have their values. At the group barrier the fibre has arrived, and once every live fibre has, all
pass and the arrivals are empty. TARR writes the phase number to d and goes on, and once every live fibre of the team has arrived in the phase the
next begins, the L1s of a team on several cores being invalidated. Before that nothing happens. The milestone barrier. Its phase is complete as the
last live fibre of the grid arrives; the release then begins with the cores that hold live fibres. MBAR_RELEASE_STEP releases the next K of them in a
ring that starts at the offset, K being RAMP between 1 and 320, not earlier than 256 clocks after the step before, and after the last one the offset
has advanced. -/
def Obligations.Barriers : Prop :=
  (∀ (m : Mods) (d : BitVec 7) (s : State),
    let phase := (s.teamOf s.here).phase
    let early := fun l => (s.lane s.cur.g l).lastPhase = some phase
    let waits := fun (i : Instr) (w : Nat → Wait) => ∃ t, exec i s = .next t ∧ s.framed t (fun _ => []) ∧
      ∀ l, s.live l → s.stays t l ∧ (t.lane s.cur.g l).wait = w l
    waits (.gbar m) (fun _ => .arriving .group s.cur.words 120 s.ids) ∧
    (s.here.h = false → waits (.tarr m d) (fun l => if early l then .phase phase false else .arriving .team s.cur.words d.toNat s.ids)) ∧
    (s.here.h = false → ∃ t, exec (.twait m) s = .next t ∧ s.framed t (s.freed (.twait m)) ∧ ∀ l, s.live l →
      if early l then s.stays t l ∧ (t.lane s.cur.g l).wait = .phase phase true else s.passed t l) ∧
    (s.here.h = false → (s.grid s.here.grid).record.cosched = true → waits (.mbar m) (fun _ => .arriving .grid s.cur.words 120 s.ids))) ∧
  (∀ (g l w d upto : Nat) (bar : Bar) (s : State),
    let x := s.group g
    let b := s.lane g l
    let phase := (s.teamOf x).phase
    s.liveAt g l → b.wait = .arriving bar w d upto → s.runs x.ctx g = true →
      (s.releaseDone x.core g b.uid bar.level upto none = false ∨ (s.core x.core).atomicsDone g b.uid upto none = false → exec (.barrierArrival g l) s = .next s) ∧
      (s.releaseDone x.core g b.uid bar.level upto none = true → (s.core x.core).atomicsDone g b.uid upto none = true → ∃ t, exec (.barrierArrival g l) s = .next t ∧ s.quiet t ∧
        match bar with
        | .group =>
          ((∀ k, s.liveAt g k → k = l ∨ k ∈ x.arrivals) → (t.group g).arrivals = [] ∧ t.standsAt g l (b.pc + BitVec.ofNat 64 (4 * w)) ∧
            ∀ k n, s.liveAt g k → k ∈ x.arrivals → k ≠ l → (s.lane g k).wait = .arrived .group n → t.standsAt g k ((s.lane g k).pc + BitVec.ofNat 64 (4 * n))) ∧
          (¬ (∀ k, s.liveAt g k → k = l ∨ k ∈ x.arrivals) →
            (t.lane g l).wait = .arrived .group w ∧ (t.lane g l).pc = b.pc ∧ (∀ k, k ∈ (t.group g).arrivals ↔ k = l ∨ k ∈ x.arrivals))
        | .team =>
          t.standsAt g l (b.pc + BitVec.ofNat 64 (4 * w)) ∧ (t.lane g l).lastPhase = some phase ∧ (Dst.k d).read (t.lane g l) = (Dst.k d).holds (Val.of phase) ∧
          ((∀ h, (s.group h).fibres.rising = true) → g ∈ (s.teamOf x).groups → ((s.grid x.grid).teams.find? x.team).isSome = true → (s.ctx x.ctx).halt = none →
            let all := ∀ h ∈ (s.teamOf x).groups, ∀ k, s.liveAt h k → (h = g ∧ k = l) ∨ (s.lane h k).lastPhase = some phase
            (all → (t.teamOf x).phase = phase + 1 ∧ (1 < (s.teamOf x).cores.length → ∀ c ∈ (s.teamOf x).cores, (t.core c).l1 = [])) ∧ (¬ all → (t.teamOf x).phase = phase))
        | .grid => (t.lane g l).wait = .arrived .grid w ∧ (t.lane g l).pc = b.pc)) ∧
  ((∀ (g l w d upto : Nat) (s : State),
    let x := s.group g
    let b := s.lane g l
    s.liveAt g l → b.wait = .arriving .grid w d upto → (s.ctx x.ctx).halt = none → (s.grid x.grid).ctx = x.ctx → (s.grids.find? x.grid).isSome = true →
      s.releaseDone x.core g b.uid 3 upto none = true → (s.core x.core).atomicsDone g b.uid upto none = true → s.groups.rising = true → (∀ h, (s.group h).fibres.rising = true) →
      let all := ∀ h k, (s.group h).grid = x.grid → s.liveAt h k → (h = g ∧ k = l) ∨ (s.lane h k).atMilestone = true
      ∃ t, exec (.barrierArrival g l) s = .next t ∧
        ((s.grid x.grid).releasing = none → all → ∃ cores, (t.grid x.grid).releasing = some (s.clocks, cores, 0) ∧
          ∀ c, c ∈ cores ↔ ∃ h k, (s.group h).grid = x.grid ∧ (s.group h).core = c ∧ s.liveAt h k) ∧
        ((s.grid x.grid).releasing ≠ none ∨ ¬ all → (t.grid x.grid).releasing = (s.grid x.grid).releasing)) ∧
  (∀ (n t0 done : Nat) (cores : List Nat) (s : State),
    let r := s.grid n
    let K := Nat.max 1 (Nat.min s.pkg.ramp.toNat 320)
    let now := (List.range (Nat.min K (cores.length - done))).map (fun i => cores.getD ((r.offset + done + i) % cores.length) 0)
    r.releasing = some (t0, cores, done) → (s.ctx r.ctx).halt = none → s.groups.rising = true →
      (s.clocks < t0 + 256 * ((done + K - 1) / K) → exec (.mbarReleaseStep n) s = .next s) ∧
      (t0 + 256 * ((done + K - 1) / K) ≤ s.clocks → ∃ t, exec (.mbarReleaseStep n) s = .next t ∧ s.quiet t ∧
        (t.grid n).releasing = (if cores.length ≤ done + K then none else some (t0, cores, done + K)) ∧
        (t.grid n).offset = (if cores.length ≤ done + K then r.offset + Nat.min K cores.length else r.offset) ∧
        ∀ h k, s.liveAt h k → match (s.lane h k).wait with
          | .arrived .grid w => if (s.group h).grid = n ∧ (s.group h).core ∈ now then t.standsAt h k ((s.lane h k).pc + BitVec.ofNat 64 (4 * w)) else t.lane h k = s.lane h k
          | _ => t.lane h k = s.lane h k)))

/-- R24, R25, R38, R90, R91, R92, R93, R94, R95, R96, R98, R99, R119. LNCH appends each fibre's 64-byte record to the queue that b names, in ascending
lane order, and returns a status: 3 for a queue that is not there or disabled, 2 for a malformed record, 1 for a full queue, 0 where the record stands
at BASE + 64 × (TAIL mod 2^SIZE) and TAIL is one more. The records are aligned, their reads are allowed, no host holds them or a queue, the port takes
the reads and no firewall refuses them, and the fibres' earlier accesses are performed for every core. The device takes the next record of a queue whose TAIL it has read and
advances HEAD: a grid that is not placed yet, or, of a malformed one, no grid, its completion record with STATUS 1, or an event of TYPE 11 where DONE
is not aligned. A SERIAL record waits for the one just before it. TEAM_PLACEMENT places the next team of a grid whose turn it is: a team of one core
on the enabled core of the partition that has room and the fewest groups, the lowest number among equals, a single group on the eligible track with
the fewest; a team of n > 1 cores on one die, on the n cores there with the fewest groups among those with room for ⌈G/n⌉, the die being the one where they
have the fewest groups in total, the lowest number among equals, with group g on the ⌊g × n / G⌋-th of them; a co-scheduled grid whole. Its groups start in
the lay-by, each fibre at ENTRY with ARGS in k0 and all else zero. The model's choices here: log entries 12 and 14 (contexts and queues), 43 and 61 (one step
appends all records and places a whole team), 67 (a context that is ending places nothing) and 118 (a record of a context that is gone stays). -/
def Obligations.LaunchAndPlacement : Prop :=
  ((∀ (m : Mods) (d a c : BitVec 7) (s : State) (pa : Nat → Nat) (pg : Nat → Page),
    let i := Instr.lnch m d a c
    let x := s.here
    let b := s.lane s.cur.g
    let queue := fun l => match m.imx with | some n => immOf n c | none => ((b l).kOf c).bits
    let data := fun l => s.coreRead x.ctx x.core (pa l) 64 (pg l).mtype true
    s.issued → x.h = false → s.untagged (fun l => (b l).kOf a :: if m.imx.isSome then [] else [(b l).kOf c]) →
      (∀ l ∈ s.cur.lanes, ((b l).kAddr a).toNat % 64 = 0 ∧ s.xlate x.ctx x.core ((b l).kAddr a) .read = .ok (pa l) (pg l) ∧ (data l).2 = false ∧
        s.refusedRead (dieOf x.core) (lineOf (pa l)) = false ∧ s.releaseDone x.core s.cur.g (b l).uid 3 ((b l).upto s.ids) none = true ∧ ((pg l).consults = true → s.bytesHeld (pa l) 64 = false)) →
      (∀ q ∈ (s.vf (s.ctx x.ctx).vf).queues, s.bytesHeld q 32 = false) → s.roomy x.ctx x.core s.cur.lanes.length →
      let r := s.cur.lanes.foldl (fun (p : List (Nat × Nat) × State) l =>
        let u := p.2.appendRecord (s.ctx x.ctx).vf x.ctx (data l).1 (queue l)
        (p.1 ++ [(l, u.1)], u.2)) ([], s.warn (fallback i).1)
      ∃ t, exec i s = .next t ∧ t.mem = r.2.mem ∧ t.vfs = r.2.vfs ∧ t.sent = r.2.sent ∧
        ∀ l, s.live l → s.passed t l ∧ ∀ n, (l, n) ∈ r.1 → (Dst.k d.toNat).read (t.lane s.cur.g l) = (Dst.k d.toNat).holds (Val.of n)) ∧
  (∀ (vf ctx q : Nat) (rec : List Byte) (s : State),
    let u := s.appendRecord vf ctx rec q
    (7 < q ∨ s.queue vf q = none → u.1 = 3 ∧ u.2 = s) ∧
    ∀ (z : Queue), q ≤ 7 → s.queue vf q = some z →
      (s.malformed vf rec = true → u.1 = 2 ∧ u.2 = s) ∧ (s.malformed vf rec = false → z.tail - z.head = 2 ^ z.size → u.1 = 1 ∧ u.2 = s) ∧
      (s.malformed vf rec = false → z.tail - z.head ≠ 2 ^ z.size → u.1 = 0 ∧ ∀ e, (s.vf vf).queues[q]? = some e → z.tail + 1 < 2 ^ 64 → rec.length = 64 →
        (∀ y la n, (s.die y).l2.find? la = some n → n.dirty = false) →
        (∀ k, k < 64 → ∀ j, j < 32 → z.base + 64 * (z.tail % 2 ^ z.size) + k ≠ e + j) →
        (u.2.sysRead (z.base + 64 * (z.tail % 2 ^ z.size)) 64).1 = rec ∧ u.2.queue vf q = some { z with tail := z.tail + 1 }))) ∧
  ((∀ (vf queue : Nat) (d : Queue) (e : Nat) (s : State), s.queue vf queue = some d → (s.vf vf).queues[queue]? = some e → (∀ la, s.wholeLine la) →
    let v := s.vf vf
    let rec' := (s.sysRead (d.base + 64 * (d.head % 2 ^ d.size)) 64).1
    let ctx := match v.children.find? (fun c => c.1 == queue && c.2.1 == d.head) with | some c => c.2.2 | none => v.contexts.getD queue 0
    let r := recordOf rec'
    let run := Instr.launchRecordTake vf queue
    let headed := fun (t : State) => ∀ a, t.byteAt a = if e + 16 ≤ a ∧ a < e + 24 then (bytesOf 8 (d.head + 1)).getD (a - (e + 16)) 0 else s.byteAt a
    let held := s.queueHeld vf queue = true ∨ s.bytesHeld (d.base + 64 * (d.head % 2 ^ d.size)) 64 = true
    (v.alive = false ∨ v.tails.get queue 0 ≤ d.head ∨ s.ctxs.find? ctx = none ∨ held → exec run s = .next s) ∧
    (v.alive = true → d.head < v.tails.get queue 0 → (s.ctxs.find? ctx).isSome = true → ¬ held →
      (s.malformed vf rec' = false → ∃ t id g, exec run s = .next t ∧ headed t ∧ t.groups = s.groups ∧ t.grids = s.grids.put id g ∧ g.ctx = ctx ∧ g.vf = vf ∧ g.queue = queue ∧ g.number = d.head ∧
        g.record = r ∧ g.nextTeam = 0 ∧ g.teams = [] ∧ g.warn = 0 ∧ g.residue = 0 ∧ g.energy = 0 ∧ g.exact = 0 ∧ g.step = none) ∧
      (s.malformed vf rec' = true → r.done.toNat % 64 ≠ 0 → ∃ t, exec run s = .next t ∧ headed t ∧ t.groups = s.groups ∧ t.grids = s.grids ∧
        s.reports t vf 11 r.done (BitVec.ofNat 32 (ctx % 2 ^ 16 * 2 ^ 16))) ∧
      (s.malformed vf rec' = true → r.done.toNat % 64 = 0 → (s.ctx ctx).vf = vf → s.deviceHeld ctx r.done 64 = false →
        ∀ pa pg, s.xlateNow ctx 0 r.done .write = .ok pa pg → pa + 4 ≤ e + 16 ∨ e + 24 ≤ pa → ∃ t, exec run s = .next t ∧ t.groups = s.groups ∧ t.grids = s.grids ∧
          ∀ i, i < 4 → t.byteAt (pa + i) = (bytesOf 4 1).getD i 0))) ∧
  (∀ (grid : Nat) (r : Grid) (s : State), s.grids.find? grid = some r →
    let run := Instr.teamPlacement grid
    let turn := ∀ q ∈ s.grids.vals, q.vf = r.vf → q.queue = r.queue → q.number < r.number → q.record.teams ≤ q.nextTeam ∧ (r.record.serial = true → q.number + 1 ≠ r.number)
    let G := (r.record.fibres + 31) / 32
    let on := fun (c t : Nat) => (s.groups.vals.filter (fun x => x.core == c && x.track == t)).length
    let resident := fun (c : Nat) => (s.groups.vals.filter (fun x => x.core == c)).length
    let weight := fun (c t : Nat) => (s.core c).leasew.toNat / 2 ^ (4 * t) % 16
    let eligible := fun (c t : Nat) => t < 8 ∧ (weight c t ≠ 0 ∨ (s.core c).leasew = 0)
    let free := fun (c : Nat) => (((List.range 8).filter (fun t => decide (weight c t ≠ 0 ∨ (s.core c).leasew = 0))).map (fun t => 32 - on c t)).sum
    let mine := fun (c : Nat) => c / 80 ∈ (s.vf r.vf).dies ∧ (s.core c).retired = false
    let placed := fun (t : State) (core track : Nat → Nat → Prop) => ∃ r' team, t.grids.find? grid = some r' ∧ r'.nextTeam = r.nextTeam + 1 ∧ r'.record = r.record ∧ r'.teams.find? r.nextTeam = some team ∧
      team.groups.length = G ∧ ∀ j, j < G → ∃ x, t.groups.find? (team.groups.getD j 0) = some x ∧ core j x.core ∧ track x.core x.track ∧ x.grid = grid ∧ x.ctx = r.ctx ∧ x.team = r.nextTeam ∧ x.grp = j ∧
        x.set = .layby ∧ x.role = (if j < r.record.prod then 0 else 1) ∧ x.budget = 32 * (if j < r.record.prod then r.record.budp else r.record.budc) ∧ x.loads = 0 ∧ x.fpmode = 0 ∧ x.handles = [] ∧
        ∀ l, ((x.fibres.find? l).isSome = true ↔ l < 32 ∧ 32 * j + l < r.record.fibres) ∧ ∀ b, x.fibres.find? l = some b → b.pc = r.record.entry ∧ b.cw = Fcw.reset ∧ b.wait = .free ∧
          b.regVal ⟨.k, 0⟩ = Val.of r.record.args.toNat ∧ (∀ q, q ≠ ⟨.k, 0⟩ → q.file ≠ .q → b.regVal q = Val.zero) ∧ b.depth = 0 ∧ b.glim = 0
    let places := turn ∧ (s.ctx r.ctx).halt = none ∧ (s.ctx r.ctx).ending = false ∧ r.nextTeam < r.record.teams
    (¬ places → exec run s = .next s) ∧
    (places → r.record.cosched = false → r.record.cores = 1 →
      ((∀ c, mine c → free c < G) → exec run s = .next s) ∧
      ((∃ c, mine c ∧ G ≤ free c) → ∃ t c, exec run s = .next t ∧ t.mem = s.mem ∧ mine c ∧ G ≤ free c ∧
        (∀ e, mine e → G ≤ free e → resident c < resident e ∨ (resident c = resident e ∧ c ≤ e)) ∧
        placed t (fun _ x => x = c) (fun x n => eligible x n ∧ (G = 1 → ∀ k, eligible x k → on x n < on x k ∨ (on x n = on x k ∧ n ≤ k))))) ∧
    (places → r.record.cosched = false → 1 < r.record.cores →
      let n := r.record.cores
      let before := fun (c e : Nat) => resident c < resident e ∨ (resident c = resident e ∧ c < e)
      let fits := fun (d c : Nat) => mine c ∧ c / 80 = d ∧ (G + n - 1) / n ≤ free c
      let chosen := fun (d : Nat) (l : List Nat) => d < 4 ∧ l.length = n ∧ l.Pairwise before ∧ (∀ c ∈ l, fits d c) ∧ ∀ e, fits d e → e ∉ l → ∀ c ∈ l, before c e
      let total := fun (l : List Nat) => (l.map resident).sum
      ((∀ d l, ¬ chosen d l) → exec run s = .next s) ∧
      ∀ d l, chosen d l → (∀ e m, chosen e m → total l < total m ∨ (total l = total m ∧ d ≤ e)) →
        ∃ t, exec run s = .next t ∧ t.mem = s.mem ∧ placed t (fun j x => x = l.getD (j * n / G) 0) eligible) ∧
    (places → r.record.cosched = true → exec run s = .next s ∨
      ∃ t r', exec run s = .next t ∧ t.grids.find? grid = some r' ∧ r'.nextTeam = r.nextTeam + r.record.teams)))

/-- R42, R94, R110, R125, R129, R138, R197, R203, R219, R280, R287, R302, R375. The ends. A group whose fibres have quit, whose counters are 0 and
whose tickets hold their truths leaves its core, its WARN going to its grid, and a team goes with its last group. A grid whose last team has ended,
and whose stores and atomics are all performed at `.sys`, writes its completion record, STATUS 0, and is gone. The supervisor ends a context that is
halted or idle: its copies end where they stand, and once its stores and atomics are performed at `.sys` and the energy charges of its grids are counted
nothing of it is left in flight, and its grids end with STATUS 2. It sets up a context of a VF that is up and has fewer than 16, under a number of 32 bits,
with scratch of 4 to 256 KiB in units of 4. Log entries 61 and 67: what a record waits for, and what a record and the end of a context hold. -/
def Obligations.EndsAndContexts : Prop :=
  (∀ (g : Nat) (x : Group) (s : State), s.groups.find? g = some x →
    let ready := x.fibres = [] ∧ x.loads = 0 ∧ x.stores = 0 ∧ x.copies = 0 ∧ x.tiles = 0 ∧ (∀ k ∈ (s.core x.core).tickets.vals, k.g = g → k.truth.isSome = true) ∧ s.runs x.ctx g = true
    (¬ ready → exec (.groupEnd g) s = .next s) ∧
    (ready → ∃ t, exec (.groupEnd g) s = .next t ∧ s.calm t ∧ t.groups.find? g = none ∧ (∀ h, h ≠ g → t.groups.find? h = s.groups.find? h) ∧
      ((s.grids.find? x.grid).isSome = true → (t.grid x.grid).warn = (s.grid x.grid).warn ||| x.warn ∧
        ((∀ h ∈ ((s.grid x.grid).teams.get x.team Team.none).groups, h = g ∨ s.groups.find? h = none) → (t.grid x.grid).teams.find? x.team = none) ∧
        ((∃ h ∈ ((s.grid x.grid).teams.get x.team Team.none).groups, h ≠ g ∧ (s.groups.find? h).isSome = true) → ((t.grid x.grid).teams.find? x.team).isSome = true)))) ∧
  (∀ (n : Nat) (r : Grid) (s : State), s.grids.find? n = some r → (∀ la, s.wholeLine la) →
    let settled := (∀ c, ∀ w ∈ (s.core c).stores.vals, w.grid ≠ n) ∧ ∀ c, ∀ w ∈ (s.core c).atomics.vals, w.grid ≠ n
    let held := s.deviceHeld r.ctx r.record.done 64 = true ∨ s.queueHeld r.vf r.queue = true
    (r.nextTeam < r.record.teams ∨ r.teams ≠ [] ∨ r.charge ≠ 0 ∨ ¬ settled ∨ held → exec (.gridEnd n) s = .next s) ∧
    (r.record.teams ≤ r.nextTeam → r.teams = [] → r.charge = 0 → settled → ¬ held → (s.vf (s.ctx r.ctx).vf).alive = true →
      (∀ pa pg, s.xlateNow r.ctx 0 r.record.done .write = .ok pa pg → ∃ t, exec (.gridEnd n) s = .next t ∧ t.grids.find? n = none ∧ t.groups = s.groups ∧
        ∀ a, s.keeps (s.keyOf r.ctx) (fun i => pa + i) 64 a → t.byteAt a = if pa ≤ a ∧ a < pa + 64 then
          (bytesOf 4 0 ++ bytesOf 4 r.warn.toNat ++ bytesOf 8 r.exact ++ bytesOf 8 r.residue ++ bytesOf 8 s.ticks ++ List.replicate 32 0#8).getD (a - pa) 0 else s.byteAt a) ∧
      (s.xlateNow r.ctx 0 r.record.done .write = .replay → ∃ t, exec (.gridEnd n) s = .next t ∧ t.grids = s.grids ∧ t.mem = s.mem ∧ ((s.ctxs.find? r.ctx).isSome = true → r.record.done ∈ (t.ctx r.ctx).faults)) ∧
      (∀ sub, s.xlateNow r.ctx 0 r.record.done .write = .trap sub → ∃ t, exec (.gridEnd n) s = .next t ∧ t.grids.find? n = none ∧ t.mem = s.mem))) ∧
  (∀ (ctx : Nat) (s : State), (s.ctxs.find? ctx).isSome = true → s.groups.rising = true →
    let idle := match (s.ctx ctx).halt with | some h => h.phase = .supervisor | none => ∀ x ∈ s.groups.vals, x.ctx ≠ ctx
    let waits := (∃ c, (∃ w ∈ (s.core c).stores.vals, w.ctx = ctx) ∨ ∃ w ∈ (s.core c).atomics.vals, w.ctx = ctx) ∨
      ∃ r ∈ s.grids.vals, r.ctx = ctx ∧ (r.charge ≠ 0 ∨ s.deviceHeld ctx r.record.done 64 = true ∨ s.queueHeld r.vf r.queue = true)
    let ending := (s.ctx ctx).ending = true
    (¬ idle → exec (.contextEnd ctx) s = .next s) ∧
    (idle → ¬ ending → ∃ u, exec (.contextEnd ctx) s = exec (.contextEnd ctx) u ∧ u.ctxs = s.ctxs.adjust ctx (fun c => { c with ending := true }) ∧ u.groups = s.groups ∧ u.grids = s.grids ∧
      ∀ c, (∀ w ∈ (u.core c).copies.vals, w.ctx ≠ ctx) ∧ (u.core c).stores = (s.core c).stores ∧ (u.core c).atomics = (s.core c).atomics) ∧
    (idle → ending → waits → exec (.contextEnd ctx) s = .next s) ∧
    (idle → ending → ¬ waits → (∀ r ∈ s.grids.vals, r.ctx = ctx → (s.vf (s.ctx ctx).vf).alive = false ∨ s.xlateNow ctx 0 r.record.done .write ≠ .replay) → ∃ t, exec (.contextEnd ctx) s = .next t ∧
      t.ctxs.find? ctx = none ∧ (∀ k, k ≠ ctx → t.ctxs.find? k = s.ctxs.find? k) ∧ (∀ g x, t.groups.find? g = some x → x.ctx ≠ ctx) ∧ (∀ g x, s.groups.find? g = some x → x.ctx ≠ ctx → t.groups.find? g = some x) ∧
      (∀ n r, t.grids.find? n = some r → r.ctx ≠ ctx) ∧ (∀ c, (t.core c).scratch.find? ctx = none ∧ (∀ l ∈ (t.core c).loads.vals, l.ctx ≠ ctx) ∧ (∀ w ∈ (t.core c).stores.vals, w.ctx ≠ ctx) ∧
        (∀ w ∈ (t.core c).atomics.vals, w.ctx ≠ ctx) ∧ (∀ w ∈ (t.core c).copies.vals, w.ctx ≠ ctx) ∧ (∀ w ∈ (t.core c).tileOps.vals, w.ctx ≠ ctx)) ∧
      (∀ d la y, (t.die d).l2.find? la = some y → y.pin ≠ some ctx) ∧
      ∀ n r pa pg, s.grids = [(n, r)] → r.ctx = ctx → (s.vf (s.ctx ctx).vf).alive = true → s.xlateNow ctx 0 r.record.done .write = .ok pa pg → (∀ la, s.wholeLine la) →
        ∀ i, i < 4 ∨ (8 ≤ i ∧ i < 32) → t.byteAt (pa + i) = (bytesOf 4 2 ++ bytesOf 4 0 ++ bytesOf 8 r.exact ++ bytesOf 8 r.residue ++ bytesOf 8 s.ticks).getD i 0)) ∧
  (∀ (ctx vf scratch lockLimit : Nat) (ptroot stopa tvec : W64) (s : State),
    let run := Instr.contextSetup ctx vf ptroot stopa scratch lockLimit tvec
    let fits := ctx < 2 ^ 32 ∧ s.ctxs.find? ctx = none ∧ (s.vf vf).alive = true ∧ (s.ctxs.vals.filter (fun c => c.vf == vf)).length < 16 ∧ scratch % 4096 = 0 ∧ 4096 ≤ scratch ∧ scratch ≤ 262144
    (¬ fits → exec run s = .next s) ∧
    (fits → ∃ t c, exec run s = .next t ∧ t.ctxs = s.ctxs.put ctx c ∧ t.groups = s.groups ∧ t.mem = s.mem ∧ c.vf = vf ∧ c.ptroot = ptroot.toNat / 2 ^ 12 % 2 ^ 36 * 2 ^ 12 ∧
      c.stopBase = stopa &&& ~~~0xFFF#64 ∧ c.stopSize = (if 13 ≤ stopa.toNat % 32 ∧ stopa.toNat % 32 ≤ 20 then stopa.toNat % 32 else 13) ∧ c.scratch = scratch ∧ c.lockLimit = lockLimit % 2 ^ 16 ∧
      c.lockUsed = 0 ∧ c.entry = tvec.extractLsb' 2 62 ∧ c.d = tvec.getLsbD 0 ∧ c.pl = none ∧ c.halt = none ∧ c.ending = false))

/-- R29, R100, R101, R102, R103, R104, R107, R370, R371. LAYBY_MOVE takes a group off the carriageway that has issued YIELD, or none of whose live
fibres is ready, each being blocked or in a long wait of 64 clocks; one with a ready fibre, or with a fibre at a junction, stays. Its place is free from the next clock. A track of
fewer than eight groups there admits a lay-by group with a ready fibre whose lease fits, one on a clock: the pending one, or the one that entered earliest
(log entry 107: of two the lower number). A ready one becomes pending after 4,096 clocks, and where it is still ready after 4,096 more the carriageway's
groups give way, the most recently admitted first, until it fits. A change of a lease or of LEASEW counts for admissions from the next clock. A slice whose age counter has reached 256 joins the aged ones. A lease window of 4,096 issue cycles ends with the measured lease at S + V KiB,
at least 1 and at most the budget of its track. LEASEW holds what the supervisor writes. On the clock of a refill boundary, once in 1,024 clocks, the
balances of idle VFs and 1,024 tokens are shared out among the active VFs by share weight, the rest to the lowest number, at most 2,048 in a bucket; with
none active the balances stay, and that of a VF that has left and waits for nothing goes to the next pool. -/
def Obligations.Scheduling : Prop :=
  (∀ (g : Nat) (s : State), (s.groups.find? g).isSome = true → s.groups.rising = true →
    let x := s.group g
    let only := fun (t : State) => t = { s with groups := t.groups } ∧ ∀ h, h ≠ g → t.groups.find? h = s.groups.find? h
    let moved := fun (t : State) (h : Nat) (to' : GSet) (gone : Option Nat) => (t.group h).set = to' ∧ (t.group h).left = gone ∧ (t.group h).entered = s.clocks ∧ (t.group h).lastIssue = s.clocks + 1 ∧ (t.group h).yielding = false ∧
      (t.group h).pendingSince = none ∧ (t.group h).readySince = none ∧ (t.group h).fibres = (s.group h).fibres ∧ (t.group h).agree (s.group h)
    let there := fun (y : Group) => y.core == x.core && y.track == x.track && (y.set == .carriageway || y.left == some s.clocks)
    let fits := fun (h : Nat) (y : Group) => y.set = .layby ∧ y.left ≠ some s.clocks ∧ y.core = x.core ∧ y.track = x.track ∧ s.readyLanes h ≠ [] ∧ s.runs y.ctx h = true ∧
      ((s.groups.filter (fun p => there p.2 && p.1 != h)).map (fun p => s.leaseNow p.2)).sum + s.leaseNow y ≤ trackBudget (s.leasewNow x.core) x.track
    let turn := match s.pendingOn x with | some q => q = g | none => ∀ h y, s.groups.find? h = some y → fits h y → x.entered < y.entered ∨ (x.entered = y.entered ∧ g ≤ h)
    let first := ∀ p ∈ s.carriageway x, p.2.entered ≠ s.clocks
    let admitted := fits g x ∧ turn ∧ first ∧ (s.groups.filter (fun p => there p.2)).length < 8
    (x.set = .carriageway → (x.yielding = true ∨ (x.fibres ≠ [] ∧ s.allStalled g x = true)) → ∃ t, exec (.laybyMove g) s = .next t ∧ only t ∧ moved t g .layby (some s.clocks)) ∧
    (x.fibres ≠ [] → (∀ l ∈ x.live, (x.fibre l).wait.long s.clocks = true ∧ s.waitOver g x (x.fibre l) = false) → s.allStalled g x = true) ∧
    (x.set ≠ .carriageway ∨ (x.yielding = false ∧ (x.fibres = [] ∨ s.readyLanes g ≠ [] ∨ ∃ l ∈ x.live, (x.fibre l).cw.ja = true ∧ (x.fibre l).wait = .free)) → exec (.laybyMove g) s = .next s) ∧
    (admitted → ∃ t, exec (.carriagewayAdmission g) s = .next t ∧ only t ∧ moved t g .carriageway none) ∧ (¬ admitted → exec (.carriagewayAdmission g) s = .next s) ∧
    (x.set ≠ .layby ∨ s.readyLanes g = [] → ∃ t, exec (.laybyPending g) s = .next t ∧ only t ∧ t.group g = { x with readySince := none, pendingSince := none }) ∧
    (x.set = .layby → s.readyLanes g ≠ [] →
      (x.readySince = none → ∃ t, exec (.laybyPending g) s = .next t ∧ only t ∧ t.group g = { x with readySince := some s.clocks }) ∧
      ∀ c, x.readySince = some c →
        (x.pendingSince = none → c + 4096 ≤ s.clocks → ∃ t, exec (.laybyPending g) s = .next t ∧ only t ∧ t.group g = { x with pendingSince := some s.clocks }) ∧
        (x.pendingSince ≠ none ∨ s.clocks < c + 4096 → exec (.laybyPending g) s = .next s)) ∧
    (x.pendingSince = none ∨ x.set ≠ .layby ∨ ¬ first ∨ s.runs x.ctx g = false ∨ s.readyLanes g = [] ∨ (∃ c, x.pendingSince = some c ∧ s.clocks < c + 4096) → exec (.pendingEviction g) s = .next s) ∧
    (∀ c, x.pendingSince = some c → c + 4096 ≤ s.clocks → x.set = .layby → first → s.runs x.ctx g = true → s.readyLanes g ≠ [] →
      ∃ t, exec (.pendingEviction g) s = .next t ∧ t = { s with groups := t.groups } ∧ moved t g .carriageway none ∧
      let left := fun (h : Nat) => moved t h .layby none
      let mine := fun (h : Nat) => ∃ y, (h, y) ∈ s.carriageway x
      (∀ h, h ≠ g → t.groups.find? h = s.groups.find? h ∨ (mine h ∧ left h)) ∧
      (∀ h k, mine h → mine k → (s.group h).entered < (s.group k).entered → (t.group h).set = .layby → left k) ∧
      (((s.carriageway x).map (fun p => s.leaseNow p.2)).sum + s.leaseNow x ≤ trackBudget (s.leasewNow x.core) x.track → (s.carriageway x).length < 8 → only t) ∧
      ((s.carriageway x).length ≤ 8 → let rest := (t.carriageway x).filter (fun p => p.1 ≠ g)
        rest = [] ∨ ((rest.map (fun p => s.leaseNow p.2)).sum + s.leaseNow x ≤ trackBudget (s.leasewNow x.core) x.track ∧ rest.length < 8)))) ∧
  (∀ (g slice core : Nat) (value : W32) (s : State),
    let x := s.group g
    let groupIs := fun (t : State) (y : Group) => t = { s with groups := t.groups } ∧ (∀ h, h ≠ g → t.groups.find? h = s.groups.find? h) ∧ t.group g = y
    let coreIs := fun (t : State) (c : Core) => t = { s with cores := t.cores } ∧ ∀ k, t.core k = if k = core then c else s.core k
    ((s.groups.find? g).isSome = true → ∃ t, exec (.ageCounterExpiry g slice) s = .next t ∧
      groupIs t (if 256 ≤ x.ages.get slice 0 ∧ slice ∉ x.aged then { x with aged := x.aged ++ [slice] } else x)) ∧
    ((s.groups.find? g).isSome = true → ∃ t, exec (.leaseWindowEnd g) s = .next t ∧
      groupIs t (if 4096 ≤ x.windowIssues then { x with measured := max 1 (min (x.sampled.length + x.misses) (trackBudget (s.core x.core).leasew x.track)), windowIssues := 0, sampled := [], misses := 0 } else x)) ∧
    (∃ t, exec (.leasewWrite core value) s = .next t ∧ coreIs t { s.core core with leasew := value, leasewWas := some (s.clocks, s.leasewNow core) } ∧
      t.leasewNow core = s.leasewNow core) ∧
    ((s.core core).buckets.rising = true →
      let c := s.core core
      let boundary := s.clocks / 1024 * 1024
      let waits := fun (v : Nat) => ∃ q ∈ c.waiting, q.vf = v ∧ s.asking core q.ask = true
      let asks := fun (v : Nat) => ∃ b, c.buckets.find? v = some b ∧ (b.sent = true ∨ waits v)
      let keeps := fun (v : Nat) => waits v ∨ ∃ x ∈ s.groups.vals, x.core = core ∧ (s.ctx x.ctx).vf = v
      ∀ active : List Nat, active.Pairwise (· < ·) → (∀ v, v ∈ active ↔ v < 64 ∧ asks v) →
      let share := fun (v : Nat) => max 1 (s.vf v).share
      let pool := 1024 + ((c.buckets.filter (fun p => p.1 ∉ active)).map (fun p => p.2.balance)).sum
      let part := fun (v : Nat) => pool * share v / (active.map share).sum
      let gets := fun (t : State) (v n : Nat) => v ≠ 64 → keeps v → (t.core core).buckets.find? v = some ⟨n, false⟩
      (s.clocks ≠ boundary ∨ boundary ≤ c.refilled → exec (.bucketRefill core) s = .next s) ∧
      (s.clocks = boundary → c.refilled < boundary → ∃ t, exec (.bucketRefill core) s = .next t ∧ coreIs t { c with buckets := (t.core core).buckets, carried := 0, refilled := boundary } ∧
        (∀ v, v ≠ 64 → ¬ keeps v → (t.core core).buckets.find? v = none) ∧
        (active = [] → ((t.core core).buckets.vals.map Bucket.balance).sum = (c.buckets.vals.map Bucket.balance).sum) ∧
        ∀ v b, c.buckets.find? v = some b →
          (active = [] → gets t v b.balance) ∧
          (active ≠ [] → v ∉ active → gets t v 0) ∧
          (v ∈ active → gets t v (min 2048 (b.balance + part v + if ∀ u ∈ active, v ≤ u then pool - (active.map part).sum else 0))))))

/-- R19, R24, R41, R65, R72, R125, R129, R130, R140, R154, R379. SRD gives the register that its number names, each field at its place and every other
bit 0, with clear tags; a number without a register reads 0. WARN shows the bits that SRD itself sets. SWR writes its k register, SWR `.or` sets and
SWR `.clr` clears its bits: GLIM, FSTK, EPC, FCW, TSC0 and TSC1 in each fibre; FPMODE, WARN, CAUSE, the DET registers and TVEC for each fibre in
ascending order. Reserved bits are not stored, an FPMODE rounding mode of 6 or 7 stores 0, of CAUSE only CAUSE[4:0] is written, and D of TVEC stays. Numbers 0, 1 and 3
may be written anywhere, 2, 0x10 and 0x12 to 0x19 in the handler. Every other register, of these and of the fibres, is as it was, but for the JA of
FCW where EPC or the predicates of FCW are written. -/
def Obligations.SystemRegisters : Prop :=
  (∀ (m : Mods) (d n : BitVec 7) (s : State),
    let i := Instr.srd m d n
    let x := s.here
    let c := s.ctx x.ctx
    let k := (s.core x.core).track x.track
    let b := s.lane s.cur.g
    let flag := fun (v : Bool) => if v then 1#1 else 0#1
    let word := fun (v : Fcw) => 0#32 ++ flag v.x ++ flag v.ja ++ v.wb ++ 0#2 ++ v.qp ++ v.qg ++ v.q
    let value := fun l : Nat => match (riImm m n).toNat with
      | 0 => x.fpmode.setWidth 64
      | 1 => (b l).glim.setWidth 64
      | 2 => (b l).stackBase ++ (b l).depth ++ 0#3
      | 3 => (x.warn ||| (fallback i).1).setWidth 64
      | 4 => BitVec.ofNat 64 (s.grid x.grid).energy
      | 5 => BitVec.ofNat 64 (c.lockLimit * 2 ^ 16 + c.lockUsed)
      | 6 => BitVec.ofNat 64 (x.ctx % 2 ^ 32)
      | 7 => BitVec.ofNat 64 c.vf
      | 8 => BitVec.ofNat 64 (k.asks.vals.foldl min 16 * 2 ^ 16 + (if (s.die (dieOf x.core)).hot then 4 else k.ceil) * 2 ^ 8 + k.cur)
      | 9 => c.stopBase ||| BitVec.ofNat 64 c.stopSize
      | 16 => c.entry ++ 0#1 ++ flag c.d
      | 17 => 0#60 ++ flag c.pl.isSome ++ flag x.h ++ flag x.m ++ flag (b l).faulted
      | 18 => x.cause.setWidth 64
      | 19 => x.det0.setWidth 64
      | 20 => x.det1.setWidth 64
      | 21 => x.det2.setWidth 64
      | 22 => (b l).epc
      | 23 => word (b l).fcw
      | 24 => (b l).tsc0.val
      | 25 => (b l).tsc1.val
      | _ => 0#64
    ∃ t, exec i s = .next t ∧ s.framed t (fun l => (Dst.k d.toNat).regs (b l) ++ Instr.frees i (.k d.toNat) (b l)) ∧
      ∀ l, s.live l → s.passed t l ∧ (Dst.k d.toNat).read (t.lane s.cur.g l) = (Dst.k d.toNat).holds (Val.of (value l).toNat)) ∧
  (∀ (m : Mods) (a n : BitVec 7) (s : State),
    let r := (riImm m n).toNat
    let x := s.here
    let b := s.lane s.cur.g
    let mode := fun (v : W32) => if v.toNat % 8 < 6 then v &&& 0x7DF7#32 else v &&& 0x7DF0#32
    let fcw := fun (v : W64) => (⟨v.getLsbD 31, v.getLsbD 30, v.extractLsb' 26 4, v.extractLsb' 16 8, v.extractLsb' 8 8, v.extractLsb' 0 8⟩ : Fcw)
    let word := fun (v : Fcw) => 0#32 ++ bit v.x ++ bit v.ja ++ v.wb ++ 0#2 ++ v.qp ++ v.qg ++ v.q
    let writes := fun (i : Instr) (f : W64 → W64 → W64) =>
      let each := fun (old : W32) (store : W32 → W64 → W32) => s.cur.lanes.foldl (fun v l => store v (f (v.setWidth 64) ((b l).kAddr a))) old
      let own := fun (l : Nat) (old : W64) => f old ((b l).kAddr a)
      s.untagged (fun l => [(b l).kOf a]) → (r = 23 → ∀ l ∈ s.cur.lanes, (fcw (own l (word (b l).fcw))).wb.toNat * 32 + 96 ≤ x.budget) →
        ∃ t, exec i s = .next t ∧ s.quiet t ∧ (∀ g, g ≠ s.cur.g → (t.group g).agree (s.group g)) ∧ (r ≠ 16 → t.ctxs = s.ctxs) ∧
          t.here.agree { x with
            fpmode := if r = 0 then t.here.fpmode else x.fpmode
            cause := if r = 18 then t.here.cause else x.cause
            det0 := if r = 19 then t.here.det0 else x.det0
            det1 := if r = 20 then t.here.det1 else x.det1
            det2 := if r = 21 then t.here.det2 else x.det2 } ∧ ∀ l, s.live l → s.passed t l ∧
          (let z := t.lane s.cur.g l
           z.agree { b l with
             stackBase := if r = 2 then z.stackBase else (b l).stackBase
             depth := if r = 2 then z.depth else (b l).depth
             glim := if r = 1 then z.glim else (b l).glim
             epc := if r = 22 then z.epc else (b l).epc
             fcw := if r = 22 ∨ r = 23 then z.fcw else (b l).fcw
             tsc0 := if r = 24 then z.tsc0 else (b l).tsc0
             tsc1 := if r = 25 then z.tsc1 else (b l).tsc1 } (s.freed i l)) ∧
          match r with
          | 0 => t.here.fpmode = each x.fpmode (fun _ v => mode (v.setWidth 32))
          | 1 => (t.lane s.cur.g l).glim = (own l ((b l).glim.setWidth 64)).setWidth 24
          | 2 => let v := own l ((b l).stackBase ++ (b l).depth ++ 0#3)
                 (t.lane s.cur.g l).stackBase = (v >>> 12).setWidth 52 ∧ (t.lane s.cur.g l).depth = (v >>> 3).setWidth 9
          | 3 => t.here.warn = each (x.warn ||| (fallback i).1) (fun _ v => v.setWidth 32 &&& 0x1FF#32)
          | 16 => let tvec := fun (c : Ctx) => (c.entry ++ 0#1 ++ bit c.d : W64)
                 (s.ctxs.find? x.ctx).isSome = true → tvec (t.ctx x.ctx) =
                   s.cur.lanes.foldl (fun v l => (f v ((b l).kAddr a) &&& ~~~3#64) ||| (v &&& 1#64)) (tvec (s.ctx x.ctx))
          | 18 => t.here.cause = each x.cause (fun old v => (old &&& 0xC0#32) ||| (v.setWidth 32 &&& 0x1F#32))
          | 19 => t.here.det0 = each x.det0 (fun _ v => v.setWidth 32)
          | 20 => t.here.det1 = each x.det1 (fun _ v => v.setWidth 32)
          | 21 => t.here.det2 = each x.det2 (fun _ v => v.setWidth 32)
          | 22 => (t.lane s.cur.g l).epc = own l (b l).epc
          | 23 => (t.lane s.cur.g l).fcw.x = (fcw (own l (word (b l).fcw))).x ∧ (t.lane s.cur.g l).fcw.wb = (fcw (own l (word (b l).fcw))).wb ∧
                 (t.lane s.cur.g l).fcw.q = (fcw (own l (word (b l).fcw))).q
          | 24 => (t.lane s.cur.g l).tsc0 = ⟨own l (b l).tsc0.val, false, false⟩
          | 25 => (t.lane s.cur.g l).tsc1 = ⟨own l (b l).tsc1.val, false, false⟩
          | _ => True
    s.issued → r = 0 ∨ r = 1 ∨ r = 3 ∨ (x.h = true ∧ (r = 2 ∨ r = 16 ∨ (18 ≤ r ∧ r ≤ 25))) →
      writes (.swr m a n) (fun _ v => v) ∧ writes (.swrOr m a n) (fun old v => old ||| v) ∧ writes (.swrClr m a n) (fun old v => old &&& ~~~v))

/-- R140, R154, R219, R365, R367, R373, R374, R381. Every form that reads or writes a system register completes. SRD does in every state; SWR, SWR
`.or` and SWR `.clr` where the group has the right to the register, their sources carry no tag and a written window base is in the budget: every live
fibre of the issue set passes the instruction. A write of DFW to a die of the package, of VUES and VOVF of a VF, and of a register that the supervisor
names by number completes, and RAMP, a share weight, a set point or a lock limit holds what was written, less what cannot be stored (log entries 15 and 70: the numbers of
these registers, and a weight of 0). -/
def Obligations.SystemFormsComplete : Prop :=
  (∀ (m : Mods) (d n : BitVec 7) (s : State), ∃ t, exec (.srd m d n) s = .next t ∧ ∀ l, s.live l → s.passed t l ∧
    ((riImm m n).toNat = 1 → (Dst.k d.toNat).read (t.lane s.cur.g l) = (Dst.k d.toNat).holds (Val.of (s.lane s.cur.g l).glim.toNat))) ∧
  (∀ (m : Mods) (a n : BitVec 7) (s : State),
    let r := (riImm m n).toNat
    let x := s.here
    s.issued → s.untagged (fun l => [(s.lane s.cur.g l).kOf a]) → r = 0 ∨ r = 1 ∨ r = 3 ∨ (x.h = true ∧ (r = 2 ∨ r = 16 ∨ (18 ≤ r ∧ r ≤ 25 ∧ r ≠ 23))) →
      let k := fun (l : Nat) => (s.lane s.cur.g l).kAddr a
      let old := fun (l : Nat) => (s.lane s.cur.g l).glim.setWidth 64
      (∃ t, exec (.swr m a n) s = .next t ∧ ∀ l, s.live l → s.passed t l ∧ (r = 1 → (t.lane s.cur.g l).glim = (k l).setWidth 24)) ∧
      (∃ t, exec (.swrOr m a n) s = .next t ∧ ∀ l, s.live l → s.passed t l ∧ (r = 1 → (t.lane s.cur.g l).glim = (old l ||| k l).setWidth 24)) ∧
      (∃ t, exec (.swrClr m a n) s = .next t ∧ ∀ l, s.live l → s.passed t l ∧ (r = 1 → (t.lane s.cur.g l).glim = (old l &&& ~~~(k l)).setWidth 24))) ∧
  (∀ (die : Nat) (w : W32) (s : State), die < 4 → ∃ t, exec (.dfwWrite die w) s = .next t ∧ t.groups = s.groups ∧ t.mem = s.mem ∧
    ∀ j, j < 4 → (t.die die).allow.getLsbD j = (w.getLsbD j || j == die) ∧ (t.die die).snoop.getLsbD j = (w.getLsbD (4 + j) || j == die)) ∧
  (∀ (vf : Nat) (w : W32) (s : State), (s.vfs.find? vf).isSome = true →
    (∃ t, exec (.vuesClear vf w) s = .next t ∧ t.groups = s.groups ∧ t.mem = s.mem ∧ ∀ j, (t.vf vf).vues.getLsbD j = ((s.vf vf).vues.getLsbD j && !w.getLsbD j)) ∧
    (∃ t, exec (.vovfClear vf w) s = .next t ∧ t.groups = s.groups ∧ t.mem = s.mem ∧ (t.vf vf).vovf = 0#32 ∧ (t.vf vf).vues = (s.vf vf).vues)) ∧
  (∀ (reg index : Nat) (value : W64) (s : State), ∃ t, exec (.registerWrite reg index value) s = .next t ∧ t.groups = s.groups ∧ t.mem = s.mem ∧ t.grids = s.grids ∧
    (reg = 0 → t.pkg.ramp = value.setWidth 9) ∧
    (reg = 2 → (s.vf index).alive = true → (t.vf index).share = max 1 (value.toNat % 256)) ∧
    (reg = 4 → index < 4 → 1 ≤ value.toNat → value.toNat ≤ 255 → (t.die index).setPoint = value.toNat) ∧
    (reg = 5 → (s.ctxs.find? index).isSome = true → (t.ctx index).lockLimit = value.toNat % 65536))

/-- R120, R129, R135, R139, R141, R142, R143, R144, R145. TRAP completes and then traps; BREAK traps and does not complete. ASSERT goes on where the
predicate has the sense of fn in every fibre, and otherwise halts the context with REASON 4: the trap names the lowest failing lane and VAL is its
message pointer. HALT completes and halts the context with REASON 3; it completes too while another halt is on its way. TMSK returns the mask bit of
the group's traps and sets it to its immediate. TRET: a fibre that issues it waits until every live fibre of the group has, and then the group leaves
its handler: each fibre gets its control word and PC from FCW and EPC and k14 and k15 from TSC0 and TSC1; a fibre whose FCW has X = 0 ends; H and M
are clear and the halt is over, unless a pre-emption request was latched or a fault of an ended group was kept; another halt of the context that is on its
way already goes on. Log entries 49, 51, 83 and 89: what a second HALT, a junction, a fault of an ended group and a changed resume address come to; 106 and
119: TRET under another halt, and a handler all of whose fibres have quit. -/
def Obligations.TrapsAndReturns : Prop :=
  ((∀ (m : Mods) (s : State), ∃ t, exec (.halt m) s = .next t ∧ ∀ l, s.live l → s.passed t l) ∧
  ∀ (m : Mods) (n a c : BitVec 7) (f : BitVec 1) (s : State), s.running →
    let b := s.lane s.cur.g
    let low := s.cur.lanes.headD 0
    let fail := s.cur.lanes.filter (fun l => ((b l).qBit (a.toNat - 112)).bits = f.toNat)
    (∃ t, exec (.trap m n) s = .next t ∧ (∀ l, s.live l → s.passed t l) ∧ ∃ h, (t.ctx s.here.ctx).halt = some h ∧ h.incomplete = false ∧ h.group = s.cur.g ∧
      h.lanes = s.cur.lanes ∧ (s.live low → h.epc = s.nextPc) ∧ h.phase = .stopping ∧
      h.trap = ⟨10, 1, 0, low, 0, s.wordsAt s.here s.nextPc, riImm m n, false⟩ ∧ h.reason = s.reasonOf h.trap) ∧
    (∃ t, exec (.brk m n) s = .next t ∧ s.trapsTo t ⟨10, 0, 0, low, 0, s.cur.words, riImm m n, false⟩) ∧
    (s.untagged (fun l => [(b l).qBit (a.toNat - 112)]) →
      (fail = [] → ∃ t, exec (.assertQ m f a c) s = .next t ∧ (∀ l, s.live l → s.passed t l) ∧ s.framed t (s.freed (.assertQ m f a c))) ∧
      (fail ≠ [] → ∃ t, exec (.assertQ m f a c) s = .next t ∧ (∀ l, s.live l → s.stays t l) ∧ ∃ h, (t.ctx s.here.ctx).halt = some h ∧ h.reason = 4 ∧
        h.incomplete = true ∧ h.group = s.cur.g ∧ h.lanes = s.cur.lanes ∧ h.epc = s.cur.pc ∧ h.phase = .stopping ∧
        h.trap = ⟨9, 0, fail.headD 0, fail.headD 0, 0, s.cur.words, BitVec.ofNat 64 (s.opnd (fail.headD 0) (srcR c 1)).bits, false⟩)) ∧
    (∃ t, exec (.halt m) s = .next t ∧ (∀ l, s.live l → s.passed t l) ∧ ∃ h, (t.ctx s.here.ctx).halt = some h ∧ h.reason = 3 ∧ h.incomplete = false ∧
      h.group = s.cur.g ∧ h.epc = s.nextPc ∧ h.phase = .stopping)) ∧
  ((∀ (m : Mods) (d : BitVec 7) (v : BitVec 1) (s : State), ∃ t, exec (.tmsk m d v) s = .next t ∧ ∀ l, s.live l → s.passed t l ∧ t.here.m = (v == 1#1) ∧
    (Dst.k d.toNat).read (t.lane s.cur.g l) = (Dst.k d.toNat).holds (Val.of (if s.here.m then 1 else 0)) ∧
    (v = 1#1 → s.quiet t ∧ t.ctxs = s.ctxs ∧
      s.lanesKept t (fun l => (Dst.k d.toNat).regs (s.lane s.cur.g l) ++ Instr.frees (.tmsk m d v) (.k d.toNat) (s.lane s.cur.g l)))) ∧
  (∀ (m : Mods) (s : State),
    let b := s.lane s.cur.g
    let others := ∀ l, s.liveAt s.cur.g l → l ∈ s.cur.lanes ∨ (b l).wait = .handler
    s.here.h = true → (∃ l, s.live l) → s.here.fibres.rising = true →
      (¬ others → ∃ t, exec (.tret m) s = .next t ∧ t.here.h = true ∧ ∀ l, s.live l → (t.lane s.cur.g l).wait = .handler ∧ (t.lane s.cur.g l).pc = (b l).pc) ∧
      (others → ∃ t, exec (.tret m) s = .next t ∧ t.here.h = false ∧ t.here.m = false ∧ t.mem = s.mem ∧
        ((s.ctx s.here.ctx).pl = none → (s.ctx s.here.ctx).pend = [] → (∀ h, (s.ctx s.here.ctx).halt = some h → h.phase ≠ .stopping) → (t.ctx s.here.ctx).halt = none) ∧
        (∀ h, (s.ctx s.here.ctx).halt = some h → h.phase = .stopping → ∃ k, (t.ctx s.here.ctx).halt = some k ∧ k.reason = h.reason ∧ k.phase = .stopping ∧ k.since = h.since ∧
          k.reached = h.reached ∧ k.running = none) ∧
        ∀ l, s.liveAt s.cur.g l → (t.liveAt s.cur.g l ↔ (b l).fcw.x = true) ∧ ((b l).fcw.x = true →
          (t.lane s.cur.g l).cw = (b l).fcw ∧ ((b l).savedWait = .free → t.standsAt s.cur.g l (b l).epc) ∧
          (t.lane s.cur.g l).kReg 14 = (b l).tsc0 ∧ (t.lane s.cur.g l).kReg 15 = (b l).tsc1 ∧
          ∀ r, r.file ≠ .q → r ≠ ⟨.k, 14⟩ → r ≠ ⟨.k, 15⟩ → (t.lane s.cur.g l).regVal r = (b l).regVal r))))

/-- R120, R121, R127, R131, R132, R136, R138, R139, R145. TAKING A TRAP. Once every engine of a context halted by a trap is at rest, and no host holds
the header's line, the group enters its handler: every live fibre saves its PC in EPC, its control word in FCW and k14 and k15 with their tags in TSC0
and TSC1, receives its save slot in k14 and 0 in k15, and goes to TVEC; CAUSE and DET describe the trap, H and M are set, and every other group of the
context stays halted. A fibre that had run on from a memory instruction which waits for the supervisor resumes at that instruction (log entry 19). THE COURSE OF A HALT. From HALT_LINE_ARRIVAL on, no group of the context on that core issues, and its sequencers have to stop;
64 clocks after the halt was raised none issues anywhere. ENGINE_STOP stops an engine that is at rest, a tile engine 8 and a copy engine 256 clocks after the
line reached its core at the latest, and puts its record after those of earlier clocks and in engine order among those of its clock; NREC counts the records that fit in the stop area and LOST the others; when all have stopped, a
halt for another reason than a trap waits for the supervisor, and CONTEXT_RESUME ends it or goes on in the handler, unless the context is ending. A pre-emption request halts the
context where no group of it is masked, and is latched otherwise, and is taken 50,000 ticks after it was latched (log entry 120: one that finds another halt is latched too). -/
def Obligations.HandlerEntryAndHalts : Prop :=
  (∀ (ctx : Nat) (h : Halt) (s : State),
    let c := s.ctx ctx
    let x := s.group h.group
    c.halt = some h → h.phase = .stopping → h.reason = 0 → s.atRest ctx h = true → s.stopHeld ctx 0 64 = false → ∃ t, exec (.haltCompletion ctx) s = .next t ∧
      (t.ctx ctx).halt = some { h with phase := .handler h.group, mark := s.ids, stood := some (s.clocks, h.group) } ∧ (t.ctx ctx).seq = c.seq + 1 ∧
      (∀ k, x.held = [k] → k.issue.lanes.Nodup → ∀ l ∈ k.issue.lanes, s.liveAt h.group l → (t.lane h.group l).epc = k.issue.pc) ∧
      (∀ g, g ≠ h.group → (∀ l, (t.lane g l).pc = (s.lane g l).pc ∧ (t.lane g l).agree (s.lane g l) []) ∧ (t.group g).agree (s.group g) ∧ ((s.groups.find? g).isSome = true → (s.group g).ctx = ctx → (t.group g).set = .neither)) ∧
      (x.held = [] → ∀ l, s.liveAt h.group l →
        let b := s.lane h.group l
        let y := t.lane h.group l
        let z := t.group h.group
        y.epc = b.pc ∧ y.fcw = b.cw ∧ y.tsc0 = b.kReg 14 ∧ y.tsc1 = b.kReg 15 ∧ y.pc = c.entry ++ 0#2 ∧ y.wait = .free ∧ y.cw = { b.cw with ja := false } ∧
          y.kReg 14 = ⟨c.stopBase + BitVec.ofNat 64 (0x800 + 64 * l), false, false⟩ ∧ y.kReg 15 = ⟨0, false, false⟩ ∧
          (y.faulted = true ↔ h.incomplete = true ∧ l ∈ h.lanes) ∧ (∀ r, r ≠ ⟨.k, 14⟩ → r ≠ ⟨.k, 15⟩ → y.regVal r = b.regVal r) ∧
          z.h = true ∧ z.m = true ∧ z.cause = BitVec.ofNat 32 (h.trap.cause + if h.trap.deferred then 64 else 0) ∧
          z.det0 = BitVec.ofNat 32 (h.trap.info % 2 ^ 14 + h.trap.wc * 2 ^ 14 + h.trap.eng * 2 ^ 16 + h.trap.lane * 2 ^ 19 + h.trap.sub * 2 ^ 24) ∧
          z.det1 = h.trap.val.setWidth 32 ∧ z.det2 = (h.trap.val >>> 32).setWidth 32 ∧ z.fpmode = x.fpmode ∧ z.handles = x.handles ∧ z.loads = x.loads ∧
          z.stores = x.stores ∧ z.copies = x.copies ∧ z.tiles = x.tiles ∧ z.declared = x.declared)) ∧
  (∀ (ctx : Nat) (s : State),
    let c := s.ctx ctx
    let halted := fun (reason : Nat) (t : State) => ∃ h, (t.ctx ctx).halt = some h ∧ h.reason = reason ∧ h.phase = .stopping ∧ h.incomplete = false ∧ h.since = s.clocks ∧
      h.running = (match c.halt with | some k => (match k.phase with | .handler g => some g | _ => k.running) | none => none)
    let may := c.halt = none ∨ ∃ h g, c.halt = some h ∧ h.phase = .handler g
    let masked := ∃ g y, (g, y) ∈ s.groups ∧ y.ctx = ctx ∧ y.m = true
    (∀ (core : Nat) (h : Halt), c.halt = some h → h.phase = .stopping → (∀ p ∈ h.reached, p.1 ≠ core) → ∃ t k, exec (.haltLineArrival ctx core) s = .next t ∧ (t.ctx ctx).halt = some k ∧
      k.phase = .stopping ∧ k.reached = h.reached ++ [(core, s.clocks)] ∧ t.groups = s.groups ∧ (∀ d ∈ h.due, d ∈ k.due) ∧
      ∀ g x, (g, x) ∈ s.groups → x.ctx = ctx → x.core = core → (s.groups.find? g = some x → t.mayIssue g = false) ∧ ⟨core, x.track, 0, 0⟩ ∈ k.due) ∧
    (∀ (core track eng : Nat) (h : Halt) (d : Due), c.halt = some h → h.phase = .stopping → h.due.find? (fun d => d.core == core && d.track == track && d.eng == eng) = some d →
      h.hasStopped core track eng = false → s.stopHeld ctx 0x1000 (32 * (h.stopped.length + 1)) = false →
      (s.canStop ctx d = false → exec (.engineStop ctx core track eng) s = .next s) ∧
      (s.canStop ctx d = true → ∃ t k, exec (.engineStop ctx core track eng) s = .next t ∧ (t.ctx ctx).halt = some k ∧
        (∃ r before after, h.stopped = before ++ after ∧ k.stopped = before ++ r :: after ∧ r.core = core ∧ r.track = track ∧ r.eng = eng ∧
          r.clock = (match eng with | 3 => min s.clocks (s.reachClock h core + 8) | 4 => min s.clocks (s.reachClock h core + 256) | _ => s.clocks) ∧
          let first := fun (q : Stop) => r.clock < q.clock ∨ (r.clock = q.clock ∧ r.place < q.place)
          (∀ q ∈ before, ¬ first q) ∧ ∀ q, after.head? = some q → first q) ∧
        let room := (2 ^ c.stopSize - 0x1000) / 32
        (t.ctx ctx).nrec = min (h.stopped.length + 1) room ∧ (t.ctx ctx).lost = h.stopped.length + 1 - room)) ∧
    (∀ (h : Halt) (g : Nat), c.halt = some h → h.phase = .stopping → (s.group g).ctx = ctx → h.since + 64 ≤ s.clocks → s.mayIssue g = false) ∧
    (∀ (h : Halt), c.halt = some h → h.phase = .stopping → (s.atRest ctx h = false → exec (.haltCompletion ctx) s = .next s) ∧
      (h.reason ≠ 0 → s.atRest ctx h = true → s.stopHeld ctx 0 64 = false → ∃ t, exec (.haltCompletion ctx) s = .next t ∧ (t.ctx ctx).halt = some { h with phase := .supervisor } ∧
        ((s.vf c.vf).alive = true → (t.ctx ctx).seq = c.seq + 1) ∧ ∀ g, (s.groups.find? g).isSome = true → (s.group g).ctx = ctx →
          (t.group g).set = .neither ∧ (t.group g).fibres = (s.group g).fibres ∧ (t.group g).agree (s.group g))) ∧
    (c.ending = true → exec (.contextResume ctx) s = .next s) ∧
    (∀ (h : Halt), c.halt = some h → h.phase = .supervisor → c.ending = false → ∃ t, exec (.contextResume ctx) s = .next t ∧
      match h.running with
      | some g => c.pl = none → ∃ k, (t.ctx ctx).halt = some k ∧ k.phase = .handler g ∧ k.reason = h.reason ∧ k.group = h.group ∧ k.mark = h.mark ∧ k.since = s.clocks
      | none => (c.pl = none → c.pend = [] → (t.ctx ctx).halt = none) ∧ ∀ g, (s.groups.find? g).isSome = true → (s.group g).ctx = ctx → (s.group g).set = .neither → (t.group g).set = .layby) ∧
    ((s.ctxs.find? ctx).isSome = true →
      (may → ¬ masked → ∃ t, exec (.preemptionRequest ctx) s = .next t ∧ halted 1 t ∧ (t.ctx ctx).pl = none) ∧
      (¬ may ∨ masked → ∃ t, exec (.preemptionRequest ctx) s = .next t ∧ (t.ctx ctx).pl = some (c.pl.getD s.ticks) ∧ (t.ctx ctx).halt = c.halt) ∧
      (may → ∃ t, exec (.supervisorStop ctx) s = .next t ∧ halted 2 t)) ∧
    (∀ n, c.pl = some n → (s.ticks < n + 50000 → exec (.preemptionTimeout ctx) s = .next s) ∧
      (n + 50000 ≤ s.ticks → may → ∃ t, exec (.preemptionTimeout ctx) s = .next t ∧ halted 1 t ∧ (t.ctx ctx).pl = none)))

/-- R16, R19, R197, R200, R210, R214, R222, R225, R226, R227, R228, R229, R236. A load whose base carries no poison and whose certain lanes translate,
aligned, or lie in the scratch window, is sent: every fibre passes it, one load is counted, the registers of the active lanes are interlocked, and the
load-store engine holds for each of them its address, its place, its result form and its limit. Memory and every other register are as before. PF only
asks for lines: every fibre passes it, and each active lane whose address is certain and translates has its line in the L1 of the core, or on its way
as far as page and policy allow. No register, memory byte, die or counter changes, and a lane that cannot be served is dropped (log entry 22). -/
def Obligations.LoadsIssue : Prop :=
  (∀ (m : Mods) (lim f : BitVec 3) (d b : BitVec 7) (p : BitVec 2) (o : BitVec 5) (s : State),
    let x := s.here
    let loads := fun (i : Instr) (bytes : Nat) (form : LoadForm) (dst : Dst) (scratch : Bool) (lim : Nat) =>
      let act := s.actives i
      let off := (match m.imx with | some y => (y ++ o).signExtend 64 | none => o.signExtend 64) * BitVec.ofNat 64 bytes
      let a := s.addr (srcR b 1) off
      let va := fun l => BitVec.ofNat 64 (a l).bits
      let reaches := fun (l pa : Nat) (g : LoadForm) => (a l).bits % bytes = 0 ∧
        if scratch then pa = (a l).bits ∧ pa + bytes ≤ (s.ctx x.ctx).scratch ∧ g = form
        else ∃ pg, s.xlate x.ctx x.core (va l) .read = .ok pa pg ∧ (form = .x 0 → pg.fmt = 6 → (a l).bits % 2 ^ pg.bits + 4 ≤ 7 * 2 ^ pg.bits / 8) ∧
          g = if form = .x 0 then .x pg.fmt else form
      let sure := act.filter (fun l => (a l).g = false)
      s.issued → (∀ l ∈ act, (a l).p = false) → (∀ l ∈ sure, ∃ pa g, reaches l pa g) →
        (scratch = false → ∀ l ∈ act, (a l).g = true → s.xlate x.ctx x.core (va l) .read ≠ .held) → ∃ t, exec i s = .next t ∧ s.still t ∧
        (∀ g, g ≠ s.cur.g → (t.group g).agree (s.group g)) ∧
        (∀ l, s.live l → s.passed t l ∧ (∀ r, r ∉ dst.regs (s.lane s.cur.g l) → r ∉ Instr.frees i dst (s.lane s.cur.g l) →
            (t.lane s.cur.g l).regVal r = (s.lane s.cur.g l).regVal r) ∧
          (l ∉ act → dst.read (t.lane s.cur.g l) = s.maskedRead i dst l) ∧ (l ∈ sure → ∀ r ∈ dst.regs (s.lane s.cur.g l), (t.lane s.cur.g l).locked r)) ∧
        (act = [] → t.here.loads = x.loads) ∧
        (sure ≠ [] → t.here.loads = x.loads + 1 ∧ ∃ w, (t.core x.core).loads.find? s.ids = some w ∧ w.g = s.cur.g ∧ w.ctx = x.ctx ∧ w.pc = s.cur.pc ∧
          w.bytes = bytes ∧ w.scratch = scratch ∧ w.t0 = s.ticks ∧ w.acquire = none ∧ ∀ l ∈ sure, ∃ e pa, w.lanes.find? l = some e ∧ reaches l pa e.form ∧
            e.pa = some pa ∧ e.va = va l ∧ e.uid = (s.lane s.cur.g l).uid ∧ e.limit = limitTicks lim (s.lane s.cur.g l) ∧ e.state = .waiting ∧
            e.reg = (dst.regs (s.lane s.cur.g l)).head?)
    loads (.ldN8 m lim d b p o) 1 (.v 1 false) (.v d.toNat 1) false lim.toNat ∧ loads (.ldS8 m lim d b p o) 1 (.v 1 true) (.v d.toNat 1) false lim.toNat ∧
    loads (.ldN16 m lim d b p o) 2 (.v 2 false) (.v d.toNat 1) false lim.toNat ∧ loads (.ldS16 m lim d b p o) 2 (.v 2 true) (.v d.toNat 1) false lim.toNat ∧
    loads (.ld32 m lim d b p o) 4 (.v 4 false) (.v d.toNat 1) false lim.toNat ∧ loads (.ld64 m lim d b p o) 8 .pair (.v d.toNat 2) false lim.toNat ∧
    loads (.ldv m lim d b p o) 16 .quad (.v d.toNat 4) false lim.toNat ∧ loads (.ldk m lim d b p o) 8 (.k 8) (.k d.toNat) false lim.toNat ∧
    loads (.ldx m lim d b p o) 4 (.x 0) (.v d.toNat 1) false lim.toNat ∧
    (match f.toNat with
      | 0 => loads (.lds m f d b o) 1 (.v 1 false) (.v d.toNat 1) true 0
      | 1 => loads (.lds m f d b o) 1 (.v 1 true) (.v d.toNat 1) true 0
      | 2 => loads (.lds m f d b o) 2 (.v 2 false) (.v d.toNat 1) true 0
      | 3 => loads (.lds m f d b o) 2 (.v 2 true) (.v d.toNat 1) true 0
      | 4 => loads (.lds m f d b o) 4 (.v 4 false) (.v d.toNat 1) true 0
      | _ => loads (.lds m f d b o) 8 .pair (.v d.toNat 2) true 0)) ∧
  (∀ (m : Mods) (lim : BitVec 3) (b : BitVec 7) (p : BitVec 2) (o : BitVec 5) (s : State),
    let i := Instr.pf m lim b p o
    let a := s.addr (srcR b 1) ((match m.imx with | some y => (y ++ o).signExtend 64 | none => o.signExtend 64) * 128#64)
    let x := s.here
    (∀ l ∈ s.actives i, (s.opnd l (srcR b 1)).p = false) → ∃ t, exec i s = .next t ∧ (∀ l, s.live l → s.passed t l) ∧ s.lanesKept t (s.freed i) ∧
      (∀ g, (t.group g).agree (s.group g)) ∧ s.still t ∧ t.dies = s.dies ∧
      (∀ l ∈ s.actives i, (s.opnd l (srcR b 1)).g = false → ∀ pa pg, s.xlate x.ctx x.core (BitVec.ofNat 64 (a l).bits) .read = .ok pa pg →
        pg.mtype ≠ 2 → pg.alloc ≤ 2 →
        ((t.core x.core).l1.find? (lineOf pa)).isSome = true ∨ ((t.core x.core).fills.find? (lineOf pa)).isSome = true) ∧
      ∀ la f, (t.core x.core).fills.find? la = some f → (s.core x.core).fills.find? la = none → f.sent = none ∧ f.g = s.cur.g ∧ f.ctx = x.ctx)

/-- R16, R19, R58, R224, R226, R228, R230, R231, R232, R233, R236, R269, R274. LOAD_DATA_ARRIVAL writes a lane that still waits: its register holds
the value with the tags of the mask predicate and its own poison, and its interlock ends. With the last lane the load's counter falls by one. On a
page that consults the hosts, a lane whose line a host holds exclusive waits on. Where the limit of a lane passes before its data arrive, every lane
of that limit receives its guess with G = 1 and takes a ticket that is linked to the element, or, where fewer tickets are free than that needs, all of
them fall back to demand. Once the truth of a ticket is there, every fibre that holds an element with another guess has its guess-miss bit set, as it
has where the truth is poisoned. -/
def Obligations.LoadDataAndGuesses : Prop :=
  (∀ (core id lane : Nat) (w : Load) (e : LaneLoad) (s : State), (s.core core).loads.find? id = some w → w.lanes.find? lane = some e → w.acquire = none →
    e.state = .waiting → w.lanes.rising = true →
    (w.scratch = false → e.host = true → (e.l1 = false ∨ (s.core core).l1.find? (lineOf (e.pa.getD 0)) = none) → s.hostHolds (lineOf (e.pa.getD 0)) = true → exec (.loadDataArrival core id lane) s = .next s) ∧
    (s.readable core id lane w e → ¬ (e.limit ≠ 0 ∧ e.demand = false ∧ w.t0 + e.limit < s.ticks) → ∃ t, exec (.loadDataArrival core id lane) s = .next t ∧ t.mem = s.mem ∧
      (s.holdsFibre w.g lane e.uid → ∀ r, e.reg = some r →
        (t.lane w.g lane).holdsAt r e.form.rows ⟨(s.loaded core w lane e).1, e.guessed || e.mg, (s.loaded core w lane e).2 || e.mp⟩ ∧
        (∀ q ∈ e.form.regs r, ¬ (t.lane w.g lane).locked q) ∧
        ∀ q, q ∉ e.form.regs r → (t.lane w.g lane).regVal q = (s.lane w.g lane).regVal q) ∧
      (t.group w.g).loads = (s.group w.g).loads - (if ∀ p ∈ w.lanes, p.1 ≠ lane → p.2.state ≠ .waiting then 1 else 0))) ∧
  ((∀ (core id lane : Nat) (w : Load) (e : LaneLoad) (s : State), (s.core core).loads.find? id = some w → w.lanes.find? lane = some e → e.state = .waiting →
    let late := e.limit ≠ 0 ∧ e.demand = false ∧ w.t0 + e.limit < s.ticks
    let due := w.lanes.filter (fun p => p.2.limit == e.limit && p.2.state == LaneState.waiting && !p.2.demand)
    let need := due.filter (fun p => !p.2.guessed && p.2.reg.isSome)
    (¬ late → exec (.deadlineExpiry core id lane) s = .next s) ∧
    (late → w.lanes.rising = true → (w.lanes.map (fun p => p.2.uid)).Nodup → ∃ t, exec (.deadlineExpiry core id lane) s = .next t ∧ s.quiet t ∧
      ((s.core core).tickets.length + need.length ≤ Config.tickets → ∀ k f, (k, f) ∈ need → s.holdsFibre w.g k f.uid → ∀ r, f.reg = some r →
        (t.lane w.g k).holdsAt r f.form.rows ⟨f.form.guess (s.vguess core w.ctx w.pc k), true, f.mp⟩ ∧ (∀ q ∈ f.form.regs r, ¬ (t.lane w.g k).locked q) ∧
        ∃ n z, (t.core core).tickets.find? n = some z ∧ z.load = id ∧ z.lane = k ∧ z.truth = none ∧ ∃ h ∈ z.holders, h.g = w.g ∧ h.uid = f.uid ∧ h.reg = r) ∧
      (Config.tickets < (s.core core).tickets.length + need.length → (∀ p ∈ due, p.2.guessed = false) → ∀ k f, (k, f) ∈ need → s.liveAt w.g k →
        (∀ r, (t.lane w.g k).regVal r = (s.lane w.g k).regVal r) ∧ ∃ v f', (t.core core).loads.find? id = some v ∧ v.lanes.find? k = some f' ∧ f'.demand = true))) ∧
  (∀ (core n : Nat) (z : Ticket) (w : Load) (e : LaneLoad) (s : State), (s.core core).tickets.find? n = some z → z.truth = none →
    (s.core core).loads.find? z.load = some w → w.lanes.find? z.lane = some e → e.state = .ticket n → w.acquire = none → s.readable core z.load z.lane w e →
    let v := s.loaded core w z.lane e
    ∃ t, exec (.ticketTruthArrival core n) s = .next t ∧ t.mem = s.mem ∧
      ((t.core core).tickets.find? n = if z.holders = [] then none else some { z with truth := some v }) ∧
      (∀ h ∈ z.holders, (v.2 = true ∨ z.form.part v.1 h.part ≠ h.guess) → ∀ k, s.holdsFibre h.g k h.uid → (t.lane h.g k).gm = true) ∧
      (∀ g k, s.liveAt g k → (∀ h ∈ z.holders, h.g = g → h.uid = (s.lane g k).uid → v.2 = false ∧ z.form.part v.1 h.part = h.guess) →
        t.lane g k = s.lane g k)))

/-- R202, R206, R207, R208, R273, R279, R280, R337, R368, R370. A fill goes out at the core's port and carries the line that the L2 sends to the L1,
where it is installed unless an invalidation has overtaken it; it waits while a host holds the line exclusive, and one that the home's firewall
refuses brings 0 with P = 1 and installs nothing. An invalidation removes the line and marks a fill of it. PAGE_WALK puts a page into the TLBs, or a
missing one before the supervisor; the answers of the supervisor end the wait and let the paused copies go on, and after an unresolved one the access
raises MEMORY with SUB 0. -/
def Obligations.FillsAndWalks : Prop :=
  (∀ (core la : Nat) (f : Fill) (s : State), (s.core core).fills.find? la = some f →
    let d := s.die (dieOf core)
    (f.sent = none → f.host = true → s.hostHolds la = true → exec (.l1FillArrival core la) s = .next s) ∧
    (f.sent = none → (f.host = true → s.hostHolds la = false) → s.serves f.ctx core 2 ⟨1, la, 0⟩ →
      (s.refusedRead (dieOf core) la = false → (d.l2.find? la).isSome = true ∨ d.l2.length < Config.l2Ways ∨ f.l2 = false →
        ∃ t, exec (.l1FillArrival core la) s = .next t ∧ (t.core core).fills.find? la = some { f with sent := some (s.l2Line (dieOf core) la) } ∧ t.mem = s.mem ∧
          (f.l2 = true → ((t.die (dieOf core)).l2.find? la).isSome = true) ∧ t.groups = s.groups) ∧
      (s.refusedRead (dieOf core) la = true → ∃ t, exec (.l1FillArrival core la) s = .next t ∧ t.mem = s.mem ∧ t.groups = s.groups ∧
        (t.core core).fills.find? la = some { f with sent := some refusedLine, install := false } ∧
        s.reportsUp t (s.ctx f.ctx).vf 6 (BitVec.ofNat 64 la) (eventPlace core f.ctx))) ∧
    (∀ y, f.sent = some y → (s.core core).onFill la = [] → ∃ t, exec (.l1FillArrival core la) s = .next t ∧ (t.core core).fills.find? la = none ∧ t.mem = s.mem ∧
      (f.install = false → (t.core core).l1 = (s.core core).l1) ∧
      (f.install = true → (t.core core).l1.find? la = some y ∧ ∀ k, k ≠ la → (s.core core).l1.length < Config.l1Lines → (t.core core).l1.find? k = (s.core core).l1.find? k))) ∧
  (∀ (core la : Nat) (s : State), ∃ t, exec (.l1InvalidationArrival core la) s = .next t ∧ t.mem = s.mem ∧ t.groups = s.groups ∧
    (la ∈ (s.core core).invalidations → (t.core core).l1.find? la = none ∧ la ∉ (t.core core).invalidations ∧
      (∀ f, (t.core core).fills.find? la = some f → f.install = false) ∧ ∀ k, k ≠ la → (t.core core).l1.find? k = (s.core core).l1.find? k)) ∧
  (∀ (ctx core : Nat) (va : W64) (s : State), ∃ t, exec (.pageWalk ctx core va) s = .next t ∧ s.still t ∧ t.groups = s.groups ∧
    if 2 ^ 48 ≤ va.toNat then t = s
    else match s.pageOf ctx core va with
      | .page p => p.ctx = ctx → va.toNat / 2 ^ p.bits * 2 ^ p.bits = p.va → findPage (t.core core).tlb ctx va.toNat = some p
      | .missing => (s.ctxs.find? ctx).isSome = true → va ∈ (t.ctx ctx).faults
      | _ => t = s) ∧
  (∀ (ctx : Nat) (va : W64) (s : State), va ∈ (s.ctx ctx).faults →
    let free := fun (t : State) => va ∉ (t.ctx ctx).faults ∧ t.groups = s.groups ∧ t.mem = s.mem ∧
      ∀ core k o, (s.core core).copies.find? k = some o → ∃ o', (t.core core).copies.find? k = some o' ∧ o'.paused = if o.ctx = ctx ∧ o.paused = some va then none else o.paused
    (∃ t, exec (.translationFaultResolved ctx va) s = .next t ∧ free t ∧ va ∉ (t.ctx ctx).unresolved) ∧
    (∃ t, exec (.translationFaultUnresolved ctx va) s = .next t ∧ free t ∧ va ∈ (t.ctx ctx).unresolved ∧
      ∀ core kind, s.xlate ctx core va kind = .replay → t.xlate ctx core va kind = .trap 0))

/-- R120, R133, R197, R202, R206, R208, R210, R226, R228, R243, R244, R249. What a load, a store or an atomic faults on, each before anything takes effect
and charged to the lowest lane. A poisoned base raises HWERR with SUB 1. A guessed base raises GUESS with SUB 0 at a store or an atomic, and none at a
load. Guessed data raise GUESS with SUB 1, but at STG, and poisoned data of an atomic HWERR with SUB 2 before that; data of a store that carry both
bits count as poisoned. Then the lanes translate: MEMORY with SUB 1 for a page that does not allow the access, 2 for a misaligned address, 3 for a table that
is not well formed or a word of FMT 6 among the scales, SUB 1 also for an address above 48 bits, whatever its alignment; HWERR with SUB 1 where a walk reads
poison. In the scratch window the alignment of every lane comes before the range of any. While a walk is not done the instruction issues again. Where some
lane's translation is missing and none faults, the addresses are put before the supervisor, the instruction is counted and its fibres run on, with
interlocks on the registers that it writes or frees (log entries 18 and 19: the order of lanes that fault and wait, and how far fibres run on). -/
def Obligations.AccessFaults : Prop :=
  ∀ (m : Mods) (lim f : BitVec 3) (w : BitVec 2) (w3 sc : BitVec 3) (v : BitVec 1) (d b : BitVec 7) (k : BitVec 4) (p : BitVec 2) (o : BitVec 5) (s : State), s.running →
    let x := s.here
    let fib := s.lane s.cur.g
    let off := fun (n : Nat) => (match m.imx with | some y => (y ++ o).signExtend 64 | none => o.signExtend 64) * BitVec.ofNat 64 n
    let raises := fun (i : Instr) (cause sub : Nat) (info : Nat → Nat) (bad : Nat → Bool) =>
      let l := (s.actives i).filter bad
      l ≠ [] → ∃ t, exec i s = .next t ∧ s.trapsTo t ⟨cause, sub, info (l.headD 0), l.headD 0, 2, s.cur.words, if cause = 3 then laneBits l else 0#64, false⟩
    let clean := fun (i : Instr) (bad : Nat → Bool) => ∀ l ∈ s.actives i, bad l = false
    let faults := fun (i : Instr) (base : Src) (off : W64) (n : Nat) (kind : Kind) (bars : W64 → Page → Option Nat) (dst : Dst) (load : Bool) =>
      let va := fun l => BitVec.ofNat 64 (s.addr base off l).bits
      let sure := (s.actives i).filter (fun l => !(s.addr base off l).g)
      let xl := fun l => if 2 ^ 48 ≤ (va l).toNat then Xlate.trap 1 else if (va l).toNat % n ≠ 0 then .trap 2 else
        match s.xlate x.ctx x.core (va l) kind with
        | .ok pa pg => (match bars (va l) pg with | some sub => .trap sub | none => .ok pa pg)
        | r => r
      let fine := fun (y : Xlate) => y = .replay ∨ ∃ pa pg, y = .ok pa pg
      ((∃ l ∈ sure, xl l = .held) → ∃ t, exec i s = .next t ∧ t.mem = s.mem ∧ ∀ l, s.live l → s.stays t l ∧ (t.lane s.cur.g l).wait = (fib l).wait) ∧
      (∀ (before : List Nat) (l : Nat) (after : List Nat), sure = before ++ l :: after → (∀ j ∈ before, fine (xl j)) → (∀ j ∈ after, xl j ≠ .held) →
        (∀ sub, xl l = .trap sub → ∃ t, exec i s = .next t ∧ s.trapsTo t ⟨4, sub, if kind = .write then 1 else 0, l, 2, s.cur.words, va l, false⟩) ∧
        (xl l = .poisoned → ∃ t, exec i s = .next t ∧ s.trapsTo t ⟨8, 1, 5, l, 2, s.cur.words, va l, false⟩)) ∧
      ((∃ l ∈ sure, xl l = .replay) → (∀ l ∈ sure, fine (xl l)) → x.held = [] → ∃ t h, exec i s = .next t ∧ t.mem = s.mem ∧ t.here.held = [h] ∧ h.ins = i ∧ h.issue = s.cur ∧
        (∀ l ∈ sure, xl l = .replay → va l ∈ h.vas ∧ ((s.ctxs.find? x.ctx).isSome = true → va l ∈ (t.ctx x.ctx).faults)) ∧
        t.here.agree { x with loads := if load then x.loads + 1 else x.loads, stores := if load then x.stores else x.stores + 1 } ∧
        ∀ l, s.live l → s.passed t l ∧ (t.lane s.cur.g l).agree (fib l) [] ∧ ∀ r ∈ dst.regs (fib l) ++ Instr.frees i dst (fib l), (t.lane s.cur.g l).locked r)
    let window := fun (i : Instr) (off : W64) (n info : Nat) =>
      let va := fun l => BitVec.ofNat 64 (s.addr (srcR b 1) off l).bits
      let sure := (s.actives i).filter (fun l => !(s.addr (srcR b 1) off l).g)
      let skew := sure.filter (fun l => (va l).toNat % n != 0)
      let far := sure.filter (fun l => decide ((s.ctx x.ctx).scratch < (va l).toNat + n))
      (skew ≠ [] → ∃ t, exec i s = .next t ∧ s.trapsTo t ⟨4, 2, info, skew.headD 0, 2, s.cur.words, va (skew.headD 0), false⟩) ∧
      (skew = [] → far ≠ [] → ∃ t, exec i s = .next t ∧ s.trapsTo t ⟨4, 1, info, far.headD 0, 2, s.cur.words, va (far.headD 0), false⟩)
    let every := fun (_ : W64) (_ : Page) => (none : Option Nat)
    let loads := fun (i : Instr) (n : Nat) (dst : Dst) (bars : W64 → Page → Option Nat) =>
      let P := fun l => (s.opnd l (srcR b 1)).p
      raises i 8 1 (fun _ => 5) P ∧ (clean i P → faults i (srcR b 1) (off n) n .read bars dst true)
    let stores := fun (i : Instr) (n : Nat) (base : Src) (off : W64) (data : Src) (field : Nat) (guess scratch : Bool) =>
      let P := fun l => (s.opnd l base).p
      let G := fun l => (s.opnd l base).g
      let D := fun l => !guess && (s.opnd l data).g && !(s.opnd l data).p
      s.untagged (fun l => [Instr.maskBit i (fib l)]) → raises i 8 1 (fun _ => 5) P ∧ (clean i P → raises i 3 0 (fun _ => 5) G) ∧
        (clean i P → clean i G → raises i 3 1 (fun _ => field) D) ∧
        (clean i P → clean i G → clean i D → if scratch then window i off n 1 else faults i base off n .write every .none false)
    let atomics := fun (i : Instr) (n : Nat) (data : Src) (cas : Bool) =>
      let base := Src.reg (96 + k.toNat) 1
      let dst := Dst.vk d.toNat (n / 4)
      let P := fun l => (s.opnd l base).p
      let G := fun l => (s.opnd l base).g
      let DP := fun l => (s.opnd l data).p || (cas && (dst.read (fib l)).p)
      let DG := fun l => (s.opnd l data).g || (cas && (dst.read (fib l)).g)
      s.untagged (fun l => [Instr.maskBit i (fib l)]) → raises i 8 1 (fun _ => 5) P ∧ (clean i P → raises i 8 2 (fun l => if (s.opnd l data).p then 1 else 3) DP) ∧
        (clean i P → clean i DP → raises i 3 0 (fun _ => 5) G) ∧
        (clean i P → clean i DP → clean i G → raises i 3 1 (fun l => if (s.opnd l data).g then 1 else 3) DG) ∧
        (clean i P → clean i DP → clean i G → clean i DG → faults i base 0 n .write (fun _ pg => if pg.rd then none else some 1) dst (d != 120#7))
    let size := fun (e : Nat) => if e < 4 then 2 ^ e else 16
    let rows := fun (n : Nat) => if n = 16 then 4 else if n = 8 then 2 else 1
    let n := 4 * (v.toNat + 1)
    let y := srcB' m b (v.toNat + 1)
    let P := fun l => (s.opnd l (srcR b 1)).p
    (loads (.ldN8 m lim d b p o) 1 (.v d.toNat 1) every ∧ loads (.ldS8 m lim d b p o) 1 (.v d.toNat 1) every ∧ loads (.ldN16 m lim d b p o) 2 (.v d.toNat 1) every ∧
      loads (.ldS16 m lim d b p o) 2 (.v d.toNat 1) every ∧ loads (.ld32 m lim d b p o) 4 (.v d.toNat 1) every ∧ loads (.ld64 m lim d b p o) 8 (.v d.toNat 2) every ∧
      loads (.ldv m lim d b p o) 16 (.v d.toNat 4) every ∧ loads (.ldk m lim d b p o) 8 (.k d.toNat) every ∧
      loads (.ldx m lim d b p o) 4 (.v d.toNat 1) (fun a pg => if pg.fmt = 6 ∧ 7 * 2 ^ pg.bits / 8 < a.toNat % 2 ^ pg.bits + 4 then some 3 else none) ∧
      raises (.lds m f d b o) 8 1 (fun _ => 5) P ∧ raises (.pf m lim b p o) 8 1 (fun _ => 5) P ∧
      (clean (.lds m f d b o) P → let n := match f.toNat with | 0 => 1 | 1 => 1 | 2 => 2 | 3 => 2 | 4 => 4 | _ => 8
        window (.lds m f d b o) (off n) n 0)) ∧
    (stores (.st m w d b p o) (size w.toNat) (srcR b 1) (off (size w.toNat)) (srcR d (rows (size w.toNat))) 3 false false ∧
      stores (.stv m d b p o) 16 (srcR b 1) (off 16) (srcR d 4) 3 false false ∧
      stores (.stg m w d b p o) (size w.toNat) (srcR b 1) (off (size w.toNat)) (srcR d (rows (size w.toNat))) 3 true false ∧
      stores (.sts m w3 d b o) (size w3.toNat) (srcR b 1) (off (size w3.toNat)) (srcR d (rows (size w3.toNat))) 3 false true ∧
      stores (.strl m w k sc b) (size w.toNat) (.reg (96 + k.toNat) 1) 0 (srcB' m b (rows (size w.toNat))) 1 false false) ∧
    (∀ i ∈ [Instr.aadd m v d k sc b, .amin m v d k sc b, .amax m v d k sc b, .aand m v d k sc b, .aor m v d k sc b, .axor m v d k sc b, .axchg m v d k sc b,
      .aminN m v d k sc b, .amaxN m v d k sc b], atomics i n y false) ∧
    atomics (.acas m v d k sc b) n y true ∧ atomics (.afadd m v d k sc b) n (srcF m b (if v = 0#1 then f32 else f64)) false ∧
    atomics (.afaddPair m v d k sc b) 4 (srcH m b (if v = 0#1 then f16 else bf16)) false

/-- R231, R239, R240. GTEST and PTEST write the G or the P bit of an element into a predicate whose tags are clear. GACC accepts the guess: it clears
G, and the element's links are released. GDEM demands the truth: where every linked ticket has it, the element receives it, with the truth's poison;
an element without a link keeps its value, unless the fibre has missed a guess, which raises GUESS with SUB 3. GCHK tells into a predicate whether the
guess was wrong, and 0 for an element without G. The lanes whose truths are still out wait for their tickets, and the others go on. A predicate that GTEST
or PTEST leaves or zeroes under the mask takes the mask's tags; those that GCHK leaves have none but their own (log entry 21). -/
def Obligations.GuessInstructions : Prop :=
  ∀ (m : Mods) (d a sel : BitVec 7) (s : State),
    let b := s.lane s.cur.g
    let c := s.core s.here.core
    let el := fun l => if sel = 2#7 then (b l).regVal ⟨.w, a.toNat⟩ else s.opnd l (srcR a (if sel = 1#7 then 2 else 1))
    let regs := fun l => if sel = 2#7 then [⟨.w, a.toNat⟩] else codeRegs (b l) a.toNat (if sel = 1#7 then 2 else 1)
    let links := fun l => c.links s.cur.g (b l).uid (regs l)
    let known := fun l => if links l = [] then c.truthful s.cur.g (b l).uid = true else ∀ p ∈ links l, c.known p.1 = true
    let q := Dst.q d.toNat
    let tests := fun (i : Instr) (f : Val → Bool) => ∃ t, exec i s = .next t ∧ s.framed t (fun l => q.regs (b l) ++ Instr.frees i q (b l)) ∧ ∀ l, s.live l → s.passed t l ∧
      q.read (t.lane s.cur.g l) = if l ∈ s.actives i then q.holds (Val.of (if f (el l) then 1 else 0)) else s.maskedRead i q l
    let guessed := fun (i : Instr) => (s.actives i).filter (fun l => (el l).g)
    let ready := fun (i : Instr) => s.issued ∧ (s.cur.lanes.map (fun l => (b l).uid)).Nodup ∧ s.untagged (fun l => [Instr.maskBit i (b l)]) ∧ (∀ l ∈ s.cur.lanes, (b l).wait = .free) ∧
      ∀ l ∈ guessed i, known l
    tests (.gtest m d a sel) Val.g ∧ tests (.ptest m d a sel) Val.p ∧
    (s.issued → s.untagged (fun l => [Instr.maskBit (.gacc m a sel) (b l)]) → ∃ t, exec (.gacc m a sel) s = .next t ∧ ∀ l, s.live l → s.passed t l ∧
      (l ∈ s.actives (.gacc m a sel) → (∀ r ∈ regs l, r.file ≠ .q ∨ r.idx < 8 → ((t.lane s.cur.g l).regVal r).g = false ∧ ((t.lane s.cur.g l).regVal r).bits = ((b l).regVal r).bits) ∧
        (t.core s.here.core).links s.cur.g (b l).uid (regs l) = [])) ∧
    (ready (.gdem m a sel) → (∀ l ∈ guessed (.gdem m a sel), links l = [] → (b l).gm = false) → ∃ t, exec (.gdem m a sel) s = .next t ∧ t.mem = s.mem ∧ ∀ l, s.live l → s.passed t l ∧
      (l ∈ guessed (.gdem m a sel) →
        (links l = [] → ∀ r ∈ regs l, r.file ≠ .q ∨ r.idx < 8 → ((t.lane s.cur.g l).regVal r).g = false ∧ ((t.lane s.cur.g l).regVal r).bits = ((b l).regVal r).bits) ∧
        (∀ n z h v p, links l = [(n, z, h)] → z.truth = some (v, p) → h.rows ≤ (regs l).length → 0 < h.rows →
          let old := if h.reg.file = .v then ((b l).vRows h.reg.idx h.rows).p else ((b l).regVal h.reg).p
          (t.lane s.cur.g l).holdsAt h.reg h.rows ⟨z.form.part v h.part, false, p || old⟩)) ∧
      (l ∉ guessed (.gdem m a sel) → ∀ r, (t.lane s.cur.g l).regVal r = (b l).regVal r)) ∧
    (ready (.gdem m a sel) → s.running → let missed := (guessed (.gdem m a sel)).filter (fun l => decide (links l = []) && (b l).gm)
      missed ≠ [] → ∃ t, exec (.gdem m a sel) s = .next t ∧ s.trapsTo t ⟨3, 3, 0, missed.headD 0, 2, s.cur.words, laneBits missed, false⟩) ∧
    (ready (.gchk m d a sel) → ∃ t, exec (.gchk m d a sel) s = .next t ∧ t.mem = s.mem ∧ ∀ l, s.live l → s.passed t l ∧
      (l ∈ guessed (.gchk m d a sel) →
        (links l = [] → q.read (t.lane s.cur.g l) = q.holds (Val.of (if (b l).gm then 1 else 0))) ∧
        (∀ n z h v p, links l = [(n, z, h)] → z.truth = some (v, p) → h.rows ≤ (regs l).length → 0 < h.rows →
          let now := if h.reg.file = .k then ((b l).regVal h.reg).bits else ((b l).vRows h.reg.idx h.rows).bits
          let truth := if h.reg.file = .k then z.form.part v h.part else z.form.part v h.part % 2 ^ (32 * h.rows)
          q.read (t.lane s.cur.g l) = q.holds (Val.of (if p = true ∨ now ≠ truth then 1 else 0)))) ∧
      (l ∉ guessed (.gchk m d a sel) → q.read (t.lane s.cur.g l) =
        if l ∈ s.actives (.gchk m d a sel) ∨ Instr.zeroes (.gchk m d a sel) then Val.zero else q.read (b l)) ∧
      ∀ r, r.file ≠ .q → (t.lane s.cur.g l).regVal r = (b l).regVal r) ∧
    (∀ i blocks, (i, blocks) ∈ [(Instr.gdem m a sel, true), (.gchk m d a sel, false)] → s.issued → s.untagged (fun l => [Instr.maskBit i (b l)]) →
      (∀ l ∈ s.cur.lanes, (b l).wait = .free) → let out := fun l => ¬ known l
      (∀ l ∈ guessed i, links l = [] → (b l).gm = false) → ∃ t, exec i s = .next t ∧ ∀ l, s.live l →
        (l ∈ guessed i → out l → s.stays t l ∧ ∃ w k, (t.lane s.cur.g l).wait = .truths w k blocks) ∧ (¬ (l ∈ guessed i ∧ out l) → s.passed t l))

/-- R19, R197, R201, R213, R214, R241, R242, R244, R245, R255, R278, R280, R370, R372. A store whose active fibres have certain, unpoisoned addresses
that translate for a write, aligned, and data that are not guessed (STG takes guessed data) is put into the load-store engine: for each active fibre a
store of the low bytes of its data, marked as poisoned where they are, at its address, to complete at the package, and one store is counted. Nothing
is written yet. STRL does so once the release of its scope is done in every fibre, and its store completes at that scope. STORE_PERFORMED takes a
store one level on. Accepted, a scratch store has its bytes in the window. At the die, which it reaches through the core's port, the L2 holds the line
owned where page and policy let it be there, and for an MTYPE 2 line its home has the bytes: of all memory exactly the bytes of the store change, and
they hold its data; a line that another owner key had sealed keeps nothing else, and where a firewall refuses a line of it nothing is written. At the package the store is done, or for a pooled line at its node,
and as the last one of its instruction reaches the level at which it completes, the counter falls. -/
def Obligations.Stores : Prop :=
  (∀ (m : Mods) (w : BitVec 2) (w3 sc : BitVec 3) (d b : BitVec 7) (k : BitVec 4) (p : BitVec 2) (o : BitVec 5) (s : State),
    let x := s.here
    let stores := fun (i : Instr) (bytes : Nat) (base : Src) (off : W64) (data : Src) (guess scratch : Bool) (need : Nat) =>
      let act := s.actives i
      let a := s.addr base off
      let va := fun l => BitVec.ofNat 64 (a l).bits
      let reaches := fun (l pa : Nat) => (a l).bits % bytes = 0 ∧
        if scratch then pa = (a l).bits ∧ pa + bytes ≤ (s.ctx x.ctx).scratch else ∃ pg, s.xlate x.ctx x.core (va l) .write = .ok pa pg
      s.issued → s.untagged (fun l => [Instr.maskBit i (s.lane s.cur.g l)]) →
        (∀ l ∈ act, (a l).p = false ∧ (a l).g = false ∧ (guess = false → (s.opnd l data).g = false ∨ (s.opnd l data).p = true) ∧ ∃ pa, reaches l pa) →
        ∃ t, exec i s = .next t ∧ s.still t ∧ (∀ l, s.live l → s.passed t l) ∧ s.lanesKept t (s.freed i) ∧ (∀ g, g ≠ s.cur.g → (t.group g).agree (s.group g)) ∧
          (act ≠ [] → t.here.stores = x.stores + 1) ∧ (act = [] → t.here.stores = x.stores) ∧ t.here.loads = x.loads ∧ t.here.copies = x.copies ∧ t.here.tiles = x.tiles ∧
          t.here.fpmode = x.fpmode ∧ t.here.handles = x.handles ∧
          ∀ l ∈ act, ∃ n y pa, (t.core x.core).stores.find? n = some y ∧ reaches l pa ∧ y.pa = pa ∧ y.va = va l ∧ y.g = s.cur.g ∧ y.uid = (s.lane s.cur.g l).uid ∧
            y.ctx = x.ctx ∧ y.data = bytesOf bytes (s.opnd l data).bits ∧ y.poison = (s.opnd l data).p ∧ y.scratch = scratch ∧ y.level = 0 ∧ y.counted = true ∧ y.writeBack = false ∧ y.need = need
    let off := fun (n : Nat) => (match m.imx with | some y => (y ++ o).signExtend 64 | none => o.signExtend 64) * BitVec.ofNat 64 n
    let size := fun (f : Nat) => if f < 4 then 2 ^ f else 16
    let rows := fun (n : Nat) => if n = 16 then 4 else if n = 8 then 2 else 1
    stores (.st m w d b p o) (size w.toNat) (srcR b 1) (off (size w.toNat)) (srcR d (rows (size w.toNat))) false false 3 ∧
    stores (.stv m d b p o) 16 (srcR b 1) (off 16) (srcR d 4) false false 3 ∧
    stores (.stg m w d b p o) (size w.toNat) (srcR b 1) (off (size w.toNat)) (srcR d (rows (size w.toNat))) true false 3 ∧
    stores (.sts m w3 d b o) (size w3.toNat) (srcR b 1) (off (size w3.toNat)) (srcR d (rows (size w3.toNat))) false true 3 ∧
    let level := if sc = 0#3 then 1 else if sc.toNat ≤ 2 then 2 else if sc = 3#3 then 3 else 4
    ((∀ l ∈ s.cur.lanes, s.releaseDone x.core s.cur.g (s.lane s.cur.g l).uid level
        ((s.lane s.cur.g l).upto s.ids) none = true) →
      stores (.strl m w k sc b) (size w.toNat) (.reg (96 + k.toNat) 1) 0 (srcB' m b (rows (size w.toNat))) false false level)) ∧
  (∀ (core id : Nat) (w : Store) (s : State), (s.core core).stores.find? id = some w →
    let n := w.data.length
    let la := lineOf w.pa
    let d := dieOf core
    let inside := fun (a : Nat) => w.pa ≤ a ∧ a < w.pa + n
    let known := s.keeps (s.keyOf w.ctx) (fun i => w.pa + i) n
    let last := ∀ k y, (k, y) ∈ (s.core core).stores.del id → y.op = w.op → y.counted = true → y.need ≤ y.level
    let counts := fun (t : State) (done : Prop) => (w.counted = true ∧ done ∧ last → (t.group w.g).stores = (s.group w.g).stores - 1) ∧
      (¬ (w.counted = true ∧ done ∧ last) → (t.group w.g).stores = (s.group w.g).stores)
    (w.level = 0 → ¬ ((s.core core).mayAccept id w = true ∧ s.engineRuns w.ctx w.g core 255 2 false = true) → exec (.storePerformed core id) s = .next s) ∧
    (w.level = 0 → (s.core core).mayAccept id w = true → s.engineRuns w.ctx w.g core 255 2 false = true → ∃ t, exec (.storePerformed core id) s = .next t ∧ t.mem = s.mem ∧ t.dies = s.dies ∧
      (w.scratch = false → (t.core core).stores.find? s.ids = some { w with level := 1 } ∧ ((s.core core).stores.find? s.ids = none → counts t (w.need = 1))) ∧
      (w.scratch = true → (t.core core).stores.find? id = none ∧ counts t (0 < w.need) ∧
        ∀ a, ((t.core core).scratch.get w.ctx []).get a 0 = if inside a then w.data.getD (a - w.pa) 0 else ((s.core core).scratch.get w.ctx []).get a 0)) ∧
    (w.level = 1 → w.writeBack = false → w.host = true → (∃ l ∈ linesOf w.pa n, s.hostHolds l = true) → exec (.storePerformed core id) s = .next s) ∧
    (w.level = 1 → w.writeBack = false → (s.core core).queuedBefore id w.pa n = false → (w.host = true → ∀ l ∈ linesOf w.pa n, s.hostHolds l = false) →
      s.serves w.ctx core (tokens n) ⟨2, id, 0⟩ →
      ∃ t, exec (.storePerformed core id) s = .next t ∧ (t.core core).stores.find? id = some { w with level := 2 } ∧ counts t (w.need = 2) ∧
        ((∃ l ∈ linesOf w.pa n, s.barred d l = true) → t.mem = s.mem ∧ t.dies = s.dies) ∧
        ((∀ l ∈ linesOf w.pa n, s.barred d l = false) → w.mtype = 2 →
          ((∀ l ∈ linesOf w.pa n, ∀ g, s.seals.find? l = some g → g = s.keyOf w.ctx) → t.dies = s.dies) ∧ ∀ a, known a → Memory.read t.mem a = if inside a then w.data.getD (a - w.pa) 0 else Memory.read s.mem a) ∧
        (w.mtype ≠ 2 → 0 < n → w.pa % 128 + n ≤ 128 → s.lineSound d la →
          (∀ a, known a → t.byteAt a = if inside a then w.data.getD (a - w.pa) 0 else s.byteAt a) ∧
          (w.l2 = true → ∃ y, (t.die d).l2.find? la = some y ∧ y.dirty = true ∧ (w.poison = true → y.poison = true)))) ∧
    (w.level = 2 → ∃ t, exec (.storePerformed core id) s = .next t ∧ t.mem = s.mem ∧
      (w.mtype = 2 ∨ isCauseway w.pa = false → (t.core core).stores.find? id = none ∧ counts t (2 < w.need)) ∧
      (w.mtype ≠ 2 → isCauseway w.pa = true → (t.core core).stores.find? id = some { w with level := 3 } ∧ counts t (w.need = 3))) ∧
    (w.level = 3 → ∃ t, exec (.storePerformed core id) s = .next t ∧ (t.core core).stores.find? id = none ∧ counts t (3 < w.need) ∧
      (0 < n → w.pa % 128 + n ≤ 128 → s.wholeLine la → ∀ a, lineOf a = la → Memory.read t.mem a = s.byteAt a)))

/-- R16, R19, R50, R243, R247, R248, R249, R250, R251, R280, R370. An atomic whose active fibres have clean bases and operands (and a clean d for
ACAS) and pages that allow reading and writing, aligned, is sent (an immediate of AFADD is one of its format): every fibre passes it, its destination
is interlocked, it is counted with the loads, or with the stores where d is z, and the load-store engine holds for each active fibre its place, its
operand and the value of d. Nothing is written yet. ATOMIC_PERFORMED accepts a lane of an atomic and then performs it. A lane replaces the value at
its place by the new one, and its register receives the old one with clear tags: no other byte of memory changes. On a poisoned line it is not
performed and its register is not written. A lane is accepted after the lower lanes that share a byte with it, and waits for what its core had
accepted before it over those bytes and while a host holds its line exclusive. With the last lane the atomic is done and its counter falls. Log entries 40
and 102: lanes that share a byte, and what a lane is accepted after. -/
def Obligations.Atomics : Prop :=
  (∀ (m : Mods) (w : BitVec 1) (d b : BitVec 7) (k : BitVec 4) (sc : BitVec 3) (s : State),
    let x := s.here
    let sends := fun (i : Instr) (op : AtomicOp) (bytes : Nat) (src : Src) =>
      let act := s.actives i
      let dst := Dst.vk d.toNat (bytes / 4)
      let base := fun l => (s.lane s.cur.g l).regVal ⟨.k, k.toNat⟩
      let data := fun l => s.opnd l src
      let va := fun l => BitVec.ofNat 64 (base l).bits
      s.issued → s.untagged (fun l => [Instr.maskBit i (s.lane s.cur.g l)]) →
        (∀ l ∈ act, ∀ v ∈ [base l, data l] ++ (if op = .cas then [dst.read (s.lane s.cur.g l)] else []), v.g = false ∧ v.p = false) →
        (∀ l ∈ act, (base l).bits % bytes = 0 ∧ ∃ pa pg, s.xlate x.ctx x.core (va l) .write = .ok pa pg ∧ pg.rd = true) →
        ∃ t, exec i s = .next t ∧ s.still t ∧ (∀ g, g ≠ s.cur.g → (t.group g).agree (s.group g)) ∧
          s.lanesKept t (fun l => dst.regs (s.lane s.cur.g l) ++ Instr.frees i dst (s.lane s.cur.g l)) ∧
          (∀ l, s.live l → s.passed t l ∧ (l ∈ act → ∀ r ∈ dst.regs (s.lane s.cur.g l), (t.lane s.cur.g l).locked r) ∧
            (l ∉ act → dst.read (t.lane s.cur.g l) = if Instr.zeroes i then Val.zero else dst.read (s.lane s.cur.g l))) ∧
          (act ≠ [] → (d = 120#7 → t.here.stores = x.stores + 1 ∧ t.here.loads = x.loads) ∧ (d ≠ 120#7 → t.here.loads = x.loads + 1 ∧ t.here.stores = x.stores) ∧
            ∃ a, (t.core x.core).atomics.find? s.ids = some a ∧ a.g = s.cur.g ∧ a.ctx = x.ctx ∧ a.op = op ∧ a.bytes = bytes ∧ (a.returns = true ↔ d ≠ 120#7) ∧
              a.level = (if sc = 0#3 then 1 else if sc.toNat ≤ 2 then 2 else if sc = 3#3 then 3 else 4) ∧
              ∀ l ∈ act, ∃ e pg, a.lanes.find? l = some e ∧ e.uid = (s.lane s.cur.g l).uid ∧ e.va = va l ∧ s.xlate x.ctx x.core (va l) .write = .ok e.pa pg ∧
                e.mtype = pg.mtype ∧ e.b = (data l).bits ∧ e.d = (dst.read (s.lane s.cur.g l)).bits ∧ e.reg = (dst.regs (s.lane s.cur.g l)).head? ∧ e.order = none)
    let n := 4 * (w.toNat + 1)
    let y := srcB' m b (w.toNat + 1)
    sends (.aadd m w d k sc b) .add n y ∧ sends (.amin m w d k sc b) .minS n y ∧ sends (.amax m w d k sc b) .maxS n y ∧ sends (.aand m w d k sc b) .and n y ∧
    sends (.aor m w d k sc b) .or n y ∧ sends (.axor m w d k sc b) .xor n y ∧ sends (.axchg m w d k sc b) .xchg n y ∧ sends (.acas m w d k sc b) .cas n y ∧
    sends (.aminN m w d k sc b) .minN n y ∧ sends (.amaxN m w d k sc b) .maxN n y ∧
    sends (.afadd m w d k sc b) (if w = 0#1 then .f32 else .f64) n (srcF m b (if w = 0#1 then f32 else f64)) ∧
    sends (.afaddPair m w d k sc b) (if w = 0#1 then .f16x2 else .bf16x2) 4 (srcH m b (if w = 0#1 then f16 else bf16))) ∧
  (∀ (core id lane : Nat) (a : Atomic) (e : LaneAtomic) (s : State), (s.core core).atomics.find? id = some a → a.lanes.find? lane = some e →
    let early := a.returns = false ∧ a.level = 1
    let lower := ∃ k f, a.lanes.find? k = some f ∧ f.order = none ∧ k < lane ∧ f.pa < e.pa + a.bytes ∧ e.pa < f.pa + a.bytes
    (e.order = none → (lower ∨ (s.core core).laneAccepts a lane e = false ∨ s.engineRuns a.ctx a.g core 255 2 false = false) → exec (.atomicPerformed core id lane) s = .next s) ∧
    (e.order = none → (s.core core).laneAccepts a lane e = true → s.engineRuns a.ctx a.g core 255 2 false = true → ∃ t, exec (.atomicPerformed core id lane) s = .next t ∧
      (t.core core).atomics.find? id = some { a with lanes := a.lanes.adjust lane (fun f => { f with order := some s.ids }) } ∧ t.mem = s.mem ∧ t.dies = s.dies ∧
      let all := ∀ p ∈ a.lanes, p.1 ≠ lane → p.2.order.isSome = true
      (early ∧ all → (t.group a.g).stores = (s.group a.g).stores - 1) ∧ (¬ (early ∧ all) → t.groups = s.groups)) ∧
    (∀ q, e.order = some q →
      let la := lineOf e.pa
      let inside := fun (n : Nat) => e.pa ≤ n ∧ n < e.pa + a.bytes
      let at' := fun (n : Nat) => if e.mtype = 2 then Memory.read s.mem n else s.byteAt n
      let old := ofBytes ((List.range a.bytes).map (fun i => at' (e.pa + i)))
      let poisoned := if e.mtype = 2 then la ∈ s.poison else (s.directoryLine la).poison = true
      let held := (s.core core).queuedBefore q e.pa a.bytes = true ∨ (e.host = true ∧ s.hostHolds la = true)
      let form := match e.reg with | some ⟨.v, _⟩ => (if a.bytes = 8 then LoadForm.pair else .v 4 false) | _ => .k a.bytes
      let ends := fun (t : State) => a.lanes.length = 1 → (t.core core).atomics.find? id = none ∧ (a.refused = none → ¬ poisoned →
        (a.returns = true → (t.group a.g).loads = (s.group a.g).loads - 1) ∧ (a.returns = false → a.level ≠ 1 → (t.group a.g).stores = (s.group a.g).stores - 1))
      (held → exec (.atomicPerformed core id lane) s = .next s) ∧
      (¬ held → s.serves a.ctx core 1 ⟨3, id, lane⟩ → (isCauseway la = true → s.wholeLine la) → a.bytes = 4 ∨ a.bytes = 8 → e.pa % a.bytes = 0 → s.lineSound (dieOf core) la →
        ∃ t, exec (.atomicPerformed core id lane) s = .next t ∧ ends t ∧
        (poisoned → t.mem = s.mem ∧ t.dies = s.dies ∧ (s.liveAt a.g lane → ∀ r, (t.lane a.g lane).regVal r = (s.lane a.g lane).regVal r)) ∧
        (¬ poisoned → s.sealed a.ctx la = false → (s.holdsFibre a.g lane e.uid → ∀ r, e.reg = some r →
            (t.lane a.g lane).holdsAt r form.rows ⟨old, false, false⟩ ∧ ∀ q ∈ form.regs r, ¬ (t.lane a.g lane).locked q) ∧
          ∀ n, (if e.mtype = 2 then Memory.read t.mem n else t.byteAt n) =
            if inside n then BitVec.ofNat 8 (atomicNew a.op (8 * a.bytes) old e.b e.d / 2 ^ (8 * (n - e.pa))) else at' n))))

/-- R19, R98, R238, R252, R253, R254, R256, R257, R258, R259, R276, R278. LDAQ with clean operands, victims of the partition and pages that may be
read, aligned, is sent and counted; its scope is that of its field, and with victims at least `.die`, or `.pkg` for one on another die. Each victim
core performs what it had accepted, and its L1 is then invalidated. Only then, and after the fibre's earlier loads, does LDAQ read: at `.pkg` and
`.sys` the current value, once every store to the line is performed for all dies; and at `.die` and wider the L1 of its core is then empty. FENCE: a
fibre passes it once what it orders is done, and waits otherwise: for a release its accesses, and for a wider scope those its core has accepted, are
performed at the scope and its tickets hold their truths; for an acquire its earlier loads and value-returning atomics have their values, and at
`.die` and wider the L1 of the core is then invalidated. RFENCE does so for the accesses that overlap its range, and XFENCE waits for the fibre's
accesses and its group's operations on the paths it names. At a scope beyond `.grp` the L1's own copy of the line that LDAQ has read is gone. Log entries 36,
39 and 41: when victims are drained, what a fence waits for, and the scopes of a wait. -/
def Obligations.AcquiresAndFences : Prop :=
  ((∀ (m : Mods) (w : BitVec 1) (d v : BitVec 7) (k : BitVec 4) (sc : BitVec 3) (s : State),
    let i := Instr.ldaq m w d k sc v
    let x := s.here
    let act := s.actives i
    let named := v ≠ 120#7
    let dst := Dst.vk d.toNat (w.toNat + 1)
    let base := fun l => (s.lane s.cur.g l).regVal ⟨.k, k.toNat⟩
    let core := fun l => ((s.lane s.cur.g l).kOf v).bits / 2 ^ 8 * Config.coresPerDie + ((s.lane s.cur.g l).kOf v).bits % 2 ^ 8
    s.issued → s.untagged (fun l => Instr.maskBit i (s.lane s.cur.g l) :: if named ∧ l ∈ act then [(s.lane s.cur.g l).kOf v] else []) →
      (∀ l ∈ act, (base l).p = false ∧ (base l).g = false ∧ (base l).bits % (4 * (w.toNat + 1)) = 0 ∧
        (∃ pa pg, s.xlate x.ctx x.core (BitVec.ofNat 64 (base l).bits) .read = .ok pa pg) ∧
        (named → ((s.lane s.cur.g l).kOf v).bits < 2 ^ 16 ∧ ((s.lane s.cur.g l).kOf v).bits % 2 ^ 8 < Config.coresPerDie ∧
          ((s.lane s.cur.g l).kOf v).bits / 2 ^ 8 ∈ (s.vf (s.ctx x.ctx).vf).dies ∧ (s.core (core l)).retired = false)) →
      ∃ t, exec i s = .next t ∧ s.still t ∧ s.lanesKept t (fun l => dst.regs (s.lane s.cur.g l) ++ Instr.frees i dst (s.lane s.cur.g l)) ∧
        (∀ l, s.live l → s.passed t l ∧ (l ∈ act → ∀ r ∈ dst.regs (s.lane s.cur.g l), (t.lane s.cur.g l).locked r)) ∧
        (act ≠ [] → t.here.loads = x.loads + 1 ∧ ∃ y, (t.core x.core).loads.find? s.ids = some y ∧ y.g = s.cur.g ∧ y.bytes = 4 * (w.toNat + 1) ∧ y.scratch = false ∧
          (∀ c, c ∈ y.victims ↔ named ∧ ∃ l ∈ act, core l = c) ∧
          y.acquire = some (if named then max sc.toNat (if ∃ l ∈ act, dieOf (core l) ≠ dieOf x.core then 3 else 2) else sc.toNat) ∧
          ∀ l ∈ act, ∃ e pa pg, y.lanes.find? l = some e ∧ s.xlate x.ctx x.core e.va .read = .ok pa pg ∧ e.va = BitVec.ofNat 64 (base l).bits ∧ e.pa = some pa ∧ e.limit = 0)) ∧
  (∀ (core id victim : Nat) (y : Load) (s : State), (s.core core).loads.find? id = some y → victim ∈ y.victims →
    let level := if dieOf victim = dieOf core then 2 else 3
    ∃ t, exec (.promotionDrain core id victim) s = .next t ∧
      ((s.core victim).drained level = true → (t.core victim).l1 = [] ∧ t.mem = s.mem ∧ ∃ z, (t.core core).loads.find? id = some z ∧ ∀ c, c ∈ z.victims ↔ c ∈ y.victims ∧ c ≠ victim) ∧
      ((t.core victim).drained level = false → ∀ z, (t.core core).loads.find? id = some z → victim ∈ z.victims)) ∧
  (∀ (core id lane scope : Nat) (y : Load) (e : LaneLoad) (s : State), (s.core core).loads.find? id = some y → y.lanes.find? lane = some e → y.acquire = some scope →
    e.state = .waiting → e.limit = 0 → y.scratch = false →
    let c := s.core core
    let pa := e.pa.getD 0
    (y.victims ≠ [] ∨ c.loadsDone y.g e.uid y.seq none = false ∨ c.atomicsDone y.g e.uid y.seq none = false → exec (.loadDataArrival core id lane) s = .next s) ∧
    (3 ≤ scope → s.unacknowledged (lineOf pa) 128 = true → exec (.loadDataArrival core id lane) s = .next s) ∧
    let goes := y.victims = [] ∧ c.loadsDone y.g e.uid y.seq none = true ∧ c.atomicsDone y.g e.uid y.seq none = true ∧ s.laneReady core y e = true ∧
      c.queuedBefore s.ids pa y.bytes = false ∧ (e.host = true → s.hostHolds (lineOf pa) = false) ∧ s.serves y.ctx core 1 ⟨0, id, lane⟩ ∧ y.bytes ∈ [4, 8]
    (1 ≤ scope → goes → (3 ≤ scope → s.unacknowledged (lineOf pa) 128 = false) → ∃ t, exec (.loadDataArrival core id lane) s = .next t ∧ (t.core core).l1.find? (lineOf pa) = none) ∧
    (3 ≤ scope → goes → s.barred (dieOf core) (lineOf pa) = false → s.unacknowledged (lineOf pa) 128 = false → e.mtype ≠ 2 → (scope = 3 ∨ isCauseway (lineOf pa) = false) →
      e.scale = none → s.sealed y.ctx (lineOf pa) = false → pa % y.bytes = 0 → (∀ n, c.queued n = none) → (∀ n, c.queuedPoison n y.bytes = false) →
      ∃ t, exec (.loadDataArrival core id lane) s = .next t ∧ t.mem = s.mem ∧ (t.core core).l1 = [] ∧ (s.holdsFibre y.g lane e.uid → ∀ r, e.reg = some r →
        (t.lane y.g lane).holdsAt r e.form.rows ⟨e.form.value lane (ofBytes ((List.range y.bytes).map (fun n => s.byteAt (pa + n)))) 0, e.guessed || e.mg,
          (s.directoryLine (lineOf pa)).poison || e.mp⟩)))) ∧
  (∀ (m : Mods) (n : BitVec 2) (sc : BitVec 3) (p : BitVec 5) (a c : BitVec 7) (s : State),
    let x := s.here
    let b := s.lane s.cur.g
    let k := s.core x.core
    let level := if sc = 0#3 then 1 else if sc.toNat ≤ 2 then 2 else if sc = 3#3 then 3 else 4
    let upto := fun l => (b l).upto s.ids
    let ordered := fun (r : Nat → Option (W64 × Nat)) (l : Nat) =>
      (n ≠ 1#2 → s.releaseDone x.core s.cur.g (b l).uid level (upto l) (r l) = true) ∧
      (n ≠ 2#2 → k.loadsDone s.cur.g (b l).uid (upto l) (r l) = true ∧ k.atomicsDone s.cur.g (b l).uid (upto l) (r l) = true)
    let fences := fun (i : Instr) (done : Nat → Prop) (acquires : Prop) => ∃ t, exec i s = .next t ∧ s.framed t (s.freed i) ∧
      (∀ l, s.live l → (done l → s.passed t l) ∧ (¬ done l → s.stays t l ∧ (t.lane s.cur.g l).wait ≠ .free)) ∧
      (acquires → (∃ l ∈ s.cur.lanes, done l) → (2 ≤ sc.toNat ∨ (sc = 1#3 ∧ 1 < (s.teamOf x).cores.length)) → (t.core x.core).l1 = []) ∧
      (¬ acquires → (t.core x.core).l1 = k.l1)
    fences (.fence m n sc) (ordered (fun _ => none)) (n ≠ 2#2) ∧
    (s.untagged (fun l => [(b l).kOf a, (b l).kOf c]) →
      fences (.rfence m n sc a c) (ordered (fun l => some ((b l).kAddr a, ((b l).kOf c).bits))) (n ≠ 2#2)) ∧
    fences (.xfence m sc p) (fun l => s.pathsDone s.cur.g (b l).uid p.toNat level (upto l) = true) False)

/-- R19, R219, R220, R221, R253, R260, R261, R262, R280, R370. Cache control with certain, unpoisoned addresses that may be read, past the fibre's
acquires. LOCK reads each fibre's line into the L2 of its die where it is absent, pins it there for its context and returns 0; it returns 3 where the
page allows no pin, 2 where another context holds it, and 1 past the quota or a quarter of the set. UNLOCK gives a pin of the context up and returns
0, else 1. CWB and CINV send one write-back for each line that has work to do and count one store; performed, it writes an owned line to memory, and
CINV drops the copies in the L1 and, unless pinned, in the L2. Log entries 42 and 96: LOCK and UNLOCK act as they issue, and status 1 for a line that a
firewall refuses. -/
def Obligations.CacheControl : Prop :=
  (∀ (m : Mods) (d b : BitVec 7) (o : BitVec 5) (s : State),
    let x := s.here
    let a := s.addr (srcR b 1) ((match m.imx with | some y => (y ++ o).signExtend 64 | none => o.signExtend 64) * 128#64)
    let dst := Dst.k d.toNat
    let ok := fun (pa : Nat → Nat) (pg : Nat → Page) => ∀ l ∈ s.cur.lanes, (a l).p = false ∧ (a l).g = false ∧ s.xlate x.ctx x.core (BitVec.ofNat 64 (a l).bits) .read = .ok (pa l) (pg l)
    ∀ (pa : Nat → Nat) (pg : Nat → Page), s.issued → ok pa pg →
      (s.roomy x.ctx x.core (2 * s.cur.lanes.length) → (∀ l ∈ s.cur.lanes, ((pg l).consults = true → s.hostHolds (lineOf (pa l)) = false) ∧ (s.core x.core).acquired s.cur.g (s.lane s.cur.g l).uid s.ids = true) → (∃ t, exec (.lock m d b o) s = .next t ∧ ∀ l, s.live l → s.passed t l) ∧
        (∃ t, exec (.unlock m d b o) s = .next t ∧ t.mem = s.mem ∧ ∀ l, s.live l → s.passed t l) ∧
        ∀ l, s.cur.lanes = [l] → (s.pinOf (lineOf (pa l)) = none → ((s.die (dieOf x.core)).l2.find? (lineOf (pa l))).isSome = true ∨
            ((pg l).alloc ≤ 3 ∧ s.barred (dieOf x.core) (lineOf (pa l)) = false ∧ (s.die (dieOf x.core)).l2.length < Config.l2Ways)) →
          ∀ t u, exec (.lock m d b o) s = .next t → exec (.unlock m d b o) s = .next u →
          let la := lineOf (pa l)
          let c := s.ctx x.ctx
          let status := if (pg l).lk = false ∨ (pg l).alloc = 3 ∨ (pg l).mtype = 2 ∨ isCauseway la = true then 3
            else match s.pinOf la with
              | some (_, o) => if o = x.ctx then 0 else 2
              | none => if c.lockLimit ≤ c.lockUsed ∨ s.quarterPinned (dieOf x.core) la = true then 1 else 0
          dst.read (t.lane s.cur.g l) = dst.holds (Val.of status) ∧
          (status = 0 → s.pinOf la = none → (∃ y, (t.die (dieOf x.core)).l2.find? la = some y ∧ y.pin = some x.ctx) ∧
            ((s.ctxs.find? x.ctx).isSome = true → (t.ctx x.ctx).lockUsed = c.lockUsed + 1)) ∧
          dst.read (u.lane s.cur.g l) = dst.holds (Val.of (match s.pinOf la with | some (_, o) => if o = x.ctx then 0 else 1 | none => 1)) ∧
          (∀ e, s.pinOf la = some (e, x.ctx) → ∃ y, (u.die e).l2.find? la = some y ∧ y.pin = none)) ∧
      (∀ inv : Bool, let i := if inv then Instr.cinv m b o else Instr.cwb m b o
        let due := s.cur.lanes.filter (fun l => (pg l).mtype ≠ 2 ∧ s.writeBackDue x.core (lineOf (pa l)) inv = true)
        ∃ t, exec i s = .next t ∧ s.still t ∧ (∀ l, s.live l → s.passed t l) ∧ s.lanesKept t (s.freed i) ∧ (due = [] → t.here.stores = x.stores) ∧ (due ≠ [] → t.here.stores = x.stores + 1) ∧
          ∀ l ∈ due, ∃ n w, (t.core x.core).stores.find? n = some w ∧ w.writeBack = true ∧ w.pa = lineOf (pa l) ∧ w.g = s.cur.g ∧ w.uid = (s.lane s.cur.g l).uid ∧ w.counted = true ∧ w.level = 0 ∧
            (w.mtype = 3 ↔ inv = true ∨ (pg l).mtype = 3))) ∧
  (∀ (core id : Nat) (w : Store) (s : State), (s.core core).stores.find? id = some w → w.level = 1 → w.writeBack = true → w.data.length = 128 → w.pa % 128 = 0 →
    (s.core core).queuedBefore id w.pa 128 = false → (w.host = true → s.hostHolds w.pa = false) → s.serves w.ctx core 2 ⟨2, id, 0⟩ → s.linkOk (dieOf core) w.pa = true → ∃ t, exec (.storePerformed core id) s = .next t ∧ (t.core core).stores.find? id = none ∧
      (∀ y, (s.die (dieOf core)).l2.find? w.pa = some y → y.dirty = true → y.data.length = 128 → ∀ n, Memory.read t.mem n = if w.pa ≤ n ∧ n < w.pa + 128 then y.data.getD (n - w.pa) 0 else Memory.read s.mem n) ∧
      ((∀ y, (s.die (dieOf core)).l2.find? w.pa = some y → y.dirty = false) → t.mem = s.mem) ∧
      (w.mtype = 3 → (t.core core).l1.find? w.pa = none ∧ ∀ y, (t.die (dieOf core)).l2.find? w.pa = some y → y.pin.isSome = true ∨ y.bound ≠ 0))

/-- R301, R302, R304, R307, R308, R309, R310. The handle instructions act once for their issue set and take effect at issue. HALLOC makes a free
handle owned, of its kind and without a mapping; HREL makes an owned one free and released, and a version that nothing else refers to is freed. HGIVE
puts kind and mapping of a handle into an empty channel of the team, and gives the handle up unless it keeps it; HTAKE makes a free handle what the
channel holds, of which the last taker empties it. HINFO gives the state word of a handle. Nothing else changes. Log entry 29: the tag and the flags that the
state word gives for a version not written yet. -/
def Obligations.HandleInstructions : Prop :=
  ∀ (m : Mods) (d a n c : BitVec 6) (k : BitVec 2) (e : BitVec 1) (r : BitVec 4) (s : State),
    let x := s.here
    let h := x.handle
    let team := s.teamOf x
    let channels := fun (t : State) => (t.teamOf t.here).channels
    let done := fun (i : Instr) (hd : Nat → Handle) (ch : Nat → Option Given) (also : State → Prop) => ∃ t, exec i s = .next t ∧ (∀ l, s.live l → s.passed t l) ∧
      s.lanesKept t (s.freed i) ∧ s.calm t ∧ s.handlesOnly t x.tiles ∧ (∀ j, t.here.handle j = hd j) ∧ (∀ j, (channels t).find? j = ch j) ∧ also t
    let set := fun (i : Nat) (v : Handle) (j : Nat) => if j = i then v else h j
    (∃ l, s.live l) →
      ((h d.toNat).owned = false → done (.halloc m d k) (set d.toNat ⟨true, false, k.toNat, none⟩) team.channels.find? (fun _ => True)) ∧
      ((h d.toNat).owned = true → done (.hrel m d) (set d.toNat ⟨false, true, 0, none⟩) team.channels.find? (fun t =>
        (∀ j ∈ t.heldSlots, t.slots.find? j = s.slots.find? j) ∧
        ∀ j, (h d.toNat).slot = some j → s.sharers j = 1 → (∀ y ∈ s.cores.vals, ∀ o ∈ y.tileOps.vals, j ∉ o.slots) →
          (∀ v ∈ s.slots.vals, v.writer.isSome = true → v.prev ≠ some j) → t.slots.find? j = none)) ∧
      ((h a.toNat).owned = true → team.channels.find? c.toNat = none → ((s.grid x.grid).teams.find? x.team).isSome = true → (s.grids.find? x.grid).isSome = true →
        done (.hgive m e a n c) (if e = 0#1 then set a.toNat ⟨false, true, 0, none⟩ else h)
          (fun j => if j = c.toNat then some ⟨(h a.toNat).slot, (h a.toNat).kind, n.toNat⟩ else team.channels.find? j) (fun t => t.slots = s.slots)) ∧
      ((h d.toNat).owned = false → ∀ v, team.channels.find? c.toNat = some v →
        done (.htake m d c) (set d.toNat ⟨true, false, v.kind, v.slot⟩)
          (fun j => if j = c.toNat then (if v.takers ≤ 1 then none else some ⟨v.slot, v.kind, v.takers - 1⟩) else team.channels.find? j) (fun t => t.slots = s.slots)) ∧
      (∃ t, exec (.hinfo m r a) s = .next t ∧ s.framed t (fun l => [⟨.k, r.toNat⟩] ++ Instr.frees (.hinfo m r a) (.k (96 + r.toNat)) (s.lane s.cur.g l)) ∧
        let flag := fun (p : Prop) [Decidable p] (w : Nat) => if p then 2 ^ w else 0
        let word := if (h a.toNat).owned then 1 + 16 * (h a.toNat).kind + (match (h a.toNat).slot.bind (fun j => (s.slots.find? j).map (fun v => (j, v))) with
            | none => 0
            | some (j, v) => (if v.acc then 0 else v.tag % 8 * 2) + flag (v.res = true ∧ v.core = x.core) 6 + flag (v.bound.isSome = true) 7 + flag (v.poison = true) 8 + flag (v.writer.isSome = true) 9 +
                1024 * min 63 (List.count j (s.groups.vals.flatMap Group.slots ++ s.grids.vals.flatMap (fun g => g.teams.vals.flatMap (fun t => t.channels.vals.filterMap Given.slot)))))
          else flag ((h a.toNat).released = true) 16
        ∀ l, s.live l → s.passed t l ∧ (Dst.k (96 + r.toNat)).read (t.lane s.cur.g l) = (Dst.k (96 + r.toNat)).holds (Val.of word))

/-- R133, R135, R306, R331, R354, R355, R402. The checks of the handles. A handle that must be owned and is not raises HANDLE with SUB 0 where its
released bit is set, else 1; one of a kind that the instruction does not accept SUB 2; a handle number above 63 SUB 1; HALLOC and HTAKE of an owned
handle and HGIVE to a channel that has takers SUB 3; HTAKE from an empty channel SUB 1. Of a matrix instruction the first failure counts, quarter by
quarter, D before A before B. INFO holds the handle and the expected kind, and nothing takes effect. The checks of CPY, CPY2, GATH, SCAT and CFILL, in
their order, in the lowest lane: a poisoned address raises HWERR with SUB 1 and a guessed one GUESS with SUB 0; a poisoned length, shape, pitch or count
HWERR with SUB 0; a guessed pattern that is not poisoned GUESS with SUB 1; a value beyond its limit ENGINE with SUB 1 and its field; a wrong alignment
MEMORY with SUB 2, a scratch range beyond the window SUB 1, with INFO 1 for the destination. Nothing of the copy takes effect. The
checks of the fabric instructions, in their order, in the lowest lane of the issue set: a poisoned address raises HWERR with SUB 1 and a guessed one
GUESS with SUB 0; a poisoned CSIG value HWERR with SUB 3 and a guessed one GUESS with SUB 1; a poisoned target HWERR with SUB 0; an address that is
not aligned MEMORY with SUB 2; a target that is not set up, or a ratio of STEP outside 4 to 16, ENGINE with SUB 1. A record that cannot be read raises
MEMORY, or HWERR with SUB 1 where its line is poisoned. Log entries 28, 29 and 52: VAL of a poisoned operand, INFO and LANE of the handle faults, and
the field of a record whose line is poisoned. -/
def Obligations.EngineOperandFaults : Prop :=
  (∀ (m : Mods) (f3 : BitVec 3) (v b : BitVec 7) (d a c y : BitVec 6) (p k : BitVec 2) (e : BitVec 1) (o : BitVec 5) (s : State), s.running →
    let x := s.here
    let low := s.cur.lanes.headD 0
    let trap := fun (i : Instr) (sub h expected lane : Nat) => ∃ t, exec i s = .next t ∧ s.trapsTo t ⟨5, sub, h % 64 + 64 * expected, lane, 3, s.cur.words, 0, false⟩
    let fails := fun (h : Nat) (kinds : List Nat) => if 63 < h then some 1 else if (x.handle h).owned = false then some (if (x.handle h).released then 0 else 1)
      else if (x.handle h).kind ∉ kinds then some 2 else none
    let one := fun (i : Instr) (h : Nat) (kinds : List Nat) (expected : Nat) => ∀ sub, fails h kinds = some sub → trap i sub h expected low
    let all := fun (i : Instr) (of : Nat → List (Nat × List Nat × Nat)) =>
      ∀ (before after : List (Nat × List Nat × Nat × Nat)) (z : Nat × List Nat × Nat × Nat) (sub : Nat),
        ((List.range 4).filter (fun n => s.cur.lanes.any (fun l => l / 8 = n))).flatMap (fun n => (of n).map (fun q => (q.1, q.2.1, q.2.2, 8 * n))) = before ++ z :: after →
        (∀ q ∈ before, fails q.1 q.2.1 = none) → fails z.1 z.2.1 = some sub → trap i sub z.1 z.2.2.1 z.2.2.2
    let any := [0, 1, 2, 3]
    let acc := fun (w : Nat) => if w = 0 then 2 else 0
    ((x.handle d.toNat).owned = true → trap (.halloc m d k) 3 d.toNat k.toNat low ∧ trap (.htake m d c) 3 d.toNat 0 low) ∧
    one (.hrel m d) d.toNat any 0 ∧ one (.hgive m e a y c) a.toNat any 0 ∧
    ((x.handle a.toNat).owned = true → (x.handle a.toNat).kind < 4 → ((s.teamOf x).channels.find? c.toNat).isSome = true → trap (.hgive m e a y c) 3 a.toNat 0 low) ∧
    ((x.handle d.toNat).owned = false → (s.teamOf x).channels.find? c.toNat = none → trap (.htake m d c) 1 d.toNat 0 low) ∧
    one (.tld m f3 d b p o) d.toNat (if f3 = 0#3 then [2] else [0, 1, 3]) (acc f3.toNat) ∧ one (.tlds m f3 d b e o) d.toNat (if f3 = 0#3 then [2] else [0, 1]) (acc f3.toNat) ∧
    one (.tsto m d b p o) d.toNat [0, 1, 2] 0 ∧ one (.tsts m d b e o) d.toNat [0, 1, 2] 0 ∧ one (.tzero m d a) d.toNat (if a = 0#6 then [2] else [0, 1]) (acc a.toNat) ∧
    one (.trd m f3 v d b) d.toNat [2] 2 ∧ one (.twr m f3 d v b) d.toNat [2] 2 ∧
    all (.mma m d a c k f3) (fun n => [(d.toNat + n, [2], 2), (a.toNat + n, [0, 3], 0), (c.toNat, [1, 3], 1)]) ∧
    all (.mmas m d a c k f3) (fun n => [(d.toNat + n, [2], 2), (a.toNat + n, [0, 3], 0), (c.toNat, [1, 3], 1)]) ∧
    all (.mmac m d a c e f3) (fun n => [(d.toNat + n, [2], 2), (a.toNat + 2 * n, [0, 3], 0), (a.toNat + 2 * n + 1, [0, 3], 0), (c.toNat, [1, 3], 1)]) ∧
    all (.tscl m d a y) (fun n => [(d.toNat + n, [2], 2), (a.toNat + n, [2], 2)]) ∧
    all (.tacc m d a c) (fun n => [(d.toNat + n, [2], 2), (a.toNat + n, [2], 2), (c.toNat + n, [2], 2)])) ∧
  (∀ (m : Mods) (f : BitVec 3) (g : BitVec 1) (z : BitVec 2) (d a b : BitVec 7) (s : State), s.running →
    let lane := s.cur.lanes.headD 0
    let low := s.lane s.cur.g lane
    let k := fun (r : BitVec 7) => (low.kOf r).bits
    let c := match m.opx with | some o => o.c | none => d
    let len := match m.imx with | some y => ((y ++ b).signExtend 64).toNat | none => k b
    let lenOp := if m.imx = none then [(1, b)] else []
    let part := fun (r : BitVec 7) (lo n : Nat) => k r / 2 ^ lo % 2 ^ n
    let size := match z.toNat with | 0 => 4 | 1 => 8 | 2 => 16 | _ => 128
    let trap := fun (i : Instr) (cause sub info : Nat) (val : W64) => ∃ t, exec i s = .next t ∧ s.trapsTo t ⟨cause, sub, info, lane, 4, s.cur.words, val, false⟩
    let field := fun (ops : List (Nat × BitVec 7)) (bad : Val → Bool) => (ops.find? (fun q => bad (low.kOf q.2))).map Prod.fst
    let within := fun (q : Bool × Nat × Nat) => q.2.1 + q.2.2 ≤ (s.ctx s.here.ctx).scratch
    let checks := fun (i : Instr) (addrs ctls : List (Nat × BitVec 7)) (pattern : Bool) (limit : Nat × Nat × Bool) (aligned scratch : List (Bool × Nat × Nat)) =>
      let clean := field (addrs ++ ctls) Val.p = none ∧ field (addrs ++ ctls) Val.g = none ∧ pattern = false
      let fits := clean ∧ limit.2.2 = true
      (∀ n, field addrs Val.p = some n → trap i 8 1 n 0) ∧
      (field addrs Val.p = none → ∀ n, field addrs Val.g = some n → trap i 3 0 n (laneBits [lane])) ∧
      (field addrs Val.p = none → field addrs Val.g = none → ∀ n, field ctls Val.p = some n → trap i 8 0 n 0) ∧
      (field (addrs ++ ctls) Val.p = none → field (addrs ++ ctls) Val.g = none → pattern = true → trap i 3 1 0 (laneBits [lane])) ∧
      (clean → limit.2.2 = false → trap i 6 1 limit.1 (BitVec.ofNat 64 limit.2.1)) ∧
      (fits → ∀ before q after, aligned = before ++ q :: after → (∀ y ∈ before, y.2.1 % y.2.2 = 0) → q.2.1 % q.2.2 ≠ 0 → trap i 4 2 (if q.1 then 1 else 0) (BitVec.ofNat 64 q.2.1)) ∧
      (fits → (∀ y ∈ aligned, y.2.1 % y.2.2 = 0) → ∀ before q after, scratch = before ++ q :: after → (∀ y ∈ before, within y) → ¬ within q →
        trap i 4 1 (if q.1 then 1 else 0) (BitVec.ofNat 64 q.2.1))
    let sides := fun (src dst : Nat) => if src = 0 ∨ dst = 0 then [] else (if 2 ≤ f.toNat then [(false, k a, src)] else []) ++ (if f.toNat % 2 = 1 then [(true, k d, dst)] else [])
    let rows := part b 32 16
    let rowb := part b 0 32
    let extent := fun (pitch : Nat) => if rows * rowb = 0 then 0 else (rows - 1) * pitch + rowb
    checks (.cpy m f d a b) [(3, d), (0, a)] lenOp false (1, len, decide (len ≤ 2 ^ 24)) [(true, k d, 4), (false, k a, 4), (false, len, 4)] (sides len len) ∧
    checks (.cpy2 m f d a b) [(3, d), (0, a)] [(1, b), (2, c)] false (1, k b, decide (part b 48 16 = 0 ∧ rowb ≤ 2 ^ 24))
      [(true, k d, 4), (false, k a, 4), (false, rowb, 4), (false, part c 32 32, 4), (false, part c 0 32, 4)] (sides (extent (part c 0 32)) (extent (part c 32 32))) ∧
    checks (.gath m g z d a b) [(3, d), (0, a), (1, b)] [(2, c)] false (2, k c, decide (k c ≤ 65536)) [(true, k d, size), (false, k a, 4), (false, k b, 4)]
      (if g = 1#1 ∧ k c ≠ 0 then [(true, k d, k c * size)] else []) ∧
    checks (.scat m g z d a b) [(3, d), (0, a), (1, b)] [(2, c)] false (2, k c, decide (k c ≤ 65536)) [(false, k a, size), (true, k d, 4), (false, k b, 4)]
      (if g = 1#1 ∧ k c ≠ 0 then [(false, k a, k c * size)] else []) ∧
    checks (.cfill m g d a b) [(3, d)] lenOp ((low.kOf a).g && !(low.kOf a).p) (1, len, decide (len ≤ 2 ^ 24)) [(true, k d, 4), (false, len, 4)]
      (if g = 1#1 ∧ len ≠ 0 then [(true, k d, len)] else [])) ∧
  (∀ (m : Mods) (d a b : BitVec 7) (add : Bool) (s : State), s.running →
    let lane := s.cur.lanes.headD 0
    let low := s.lane s.cur.g lane
    let x := s.here
    let k := fun (r : BitVec 7) => (low.kOf r).bits
    let clean := fun (r : BitVec 7) => (low.kOf r).p = false ∧ (low.kOf r).g = false
    let traps := fun (i : Instr) (cause sub info : Nat) (val : W64) => ∃ t, exec i s = .next t ∧ s.trapsTo t ⟨cause, sub, info, lane, 5, s.cur.words, val, false⟩
    let vf := s.vf (s.ctx x.ctx).vf
    let rank := fun (v : Nat) => (vf.comms.find? (v / 2 ^ 32)).bind (fun c => c.ranks[v % 2 ^ 32]?)
    let csig := if add then Instr.csigAdd m d a b else Instr.csigSet m d a b
    let value := m.imx = none → clean b
    (∀ i, i = Instr.coll m d a ∨ i = csig ∨ i = .rpost m d a b → ((low.kOf a).p = true → traps i 8 1 0 0) ∧ ((low.kOf a).p = false → (low.kOf a).g = true → traps i 3 0 0 (laneBits [lane]))) ∧
    (clean a → m.imx = none → ((low.kOf b).p = true → traps csig 8 3 1 0) ∧ ((low.kOf b).p = false → (low.kOf b).g = true → traps csig 3 1 1 (laneBits [lane]))) ∧
    (clean a → value → (low.kOf d).p = true → traps csig 8 0 3 0) ∧ (clean a → (low.kOf b).p = true → traps (.rpost m d a b) 8 0 1 0) ∧
    (clean a → k a % 64 ≠ 0 → traps (.coll m d a) 4 2 0 (low.kAddr a)) ∧ (clean a → value → clean d → k a % 8 ≠ 0 → traps csig 4 2 1 (low.kAddr a)) ∧
    (clean a → clean b → k a % 128 ≠ 0 → traps (.rpost m d a b) 4 2 0 (low.kAddr a)) ∧
    (clean a → value → clean d → k a % 8 = 0 → rank (k d) = none → traps csig 6 1 3 (low.kAddr d)) ∧
    (clean a → clean b → k a % 128 = 0 → rank (k b) = none → traps (.rpost m d a b) 6 1 1 (low.kAddr b)) ∧
    (clean a → value → (let v := match m.imx with | some y => ((y ++ b).signExtend 64).toNat | none => k b
      (v < 4 ∨ 16 < v) → traps (.step m d a b) 6 1 1 (BitVec.ofNat 64 v))) ∧
    (clean a → k a % 64 = 0 → (∀ sub, s.xlate x.ctx x.core (low.kAddr a) .read = .trap sub → traps (.coll m d a) 4 sub 0 (low.kAddr a)) ∧
      ∀ pa pg, s.xlate x.ctx x.core (low.kAddr a) .read = .ok pa pg → (pg.consults = true → s.hostHolds (lineOf pa) = false) → s.roomy x.ctx x.core 1 → (s.fabricRead x.ctx x.core pa 64 pg).2 = true →
        traps (.coll m d a) 8 1 0 (low.kAddr a &&& ~~~127#64)))

/-- R19, R155, R302, R303, R304, R305, R313, R314, R315, R317, R318, R319, R320, R321, R324. A tile operation whose handle is owned and of a kind it
accepts, with clean and aligned operands, is put into the tile engine and counted. TLD, TLDS, TZERO and TWR map their handle to a fresh version of the
store of its kind, to be written by the operation and tagged with its format, unless their group holds 256 versions, for which they wait; TSTO, TSTS
and TRD read the version that it maps. Base and pitch are those of the lowest lane. TRD locks the destination of each active fibre. A matrix
instruction whose handles, in each quarter that holds a member of the issue set, are owned and of kinds it accepts is put into the tile engine as one
operation of a quarter each, and counted once. Quarter n reads the versions that its handles mapped before, and the handle D + n is mapped to a fresh
accumulator version; it waits where the group would hold more than 256 versions. -/
def Obligations.TileOperationsIssue : Prop :=
  (∀ (m : Mods) (f : BitVec 3) (v b : BitVec 7) (d z : BitVec 6) (p : BitVec 2) (e : BitVec 1) (o : BitVec 5) (s : State),
    let x := s.here
    let low := s.cur.lanes.headD 0
    let h := x.handle d.toNat
    let base := s.opnd low (srcR b 1)
    let addr := BitVec.ofNat 64 base.bits + (match m.imx with | some y => (y ++ o).signExtend 64 | none => o.signExtend 64) * 512#64
    let pitch := fun (row : Nat) => if 96 ≤ b.toNat ∧ b.toNat < 111 then s.opnd low (.reg (b.toNat + 1) 1) else Val.of row
    let version := fun (t : State) (q : TileOp) (id : Nat) (new : Option (Bool × Nat)) => match new with
      | none => t.here.handles = x.handles ∧ t.slots = s.slots ∧ q.dst = none
      | some (acc, tag) => ∃ n w, q.dst = some n ∧ (∀ j, t.here.handle j = if j = d.toNat then { h with slot := some n } else x.handle j) ∧ t.slots.find? n = some w ∧
          w.acc = acc ∧ w.tag = tag ∧ w.writer = some id ∧ w.prev = h.slot ∧ ∀ j, j ≠ n → t.slots.find? j = s.slots.find? j
    let issues := fun (i : Instr) (kinds : List Nat) (new : Option (Bool × Nat)) (op : TileOp → Prop) (regs : Nat → List Reg) (lanes : State → Prop) =>
      (∃ l, s.live l) → h.owned = true → h.kind ∈ kinds →
      ((new = none ∨ (s.versionsOf s.cur.g).length < 256) → ∃ t id q, exec i s = .next t ∧ (∀ l, s.live l → s.passed t l) ∧ s.lanesKept t regs ∧ s.calm t ∧ t.dies = s.dies ∧
        s.handlesOnly t (x.tiles + 1) ∧ (t.core x.core).tileOps.find? id = some q ∧ q.g = s.cur.g ∧ q.ctx = x.ctx ∧ q.handle = d.toNat ∧ q.src = h.slot ∧ q.lowest = low ∧
        q.quarters = [] ∧ op q ∧ version t q id new ∧ lanes t) ∧
      (new ≠ none → 256 ≤ (s.versionsOf s.cur.g).length → ∃ t, exec i s = .next t ∧ s.quiet t ∧ ∀ l, s.live l → (t.lane s.cur.g l).wait = .slots ∧ (t.lane s.cur.g l).pc = (s.lane s.cur.g l).pc)
    let memory := fun (i : Instr) (kinds : List Nat) (new : Option (Bool × Nat)) (row : Nat) (op : TileOp → Prop) =>
      base.p = false → base.g = false → (pitch row).p = false → (pitch row).g = false → addr.toNat % 32 = 0 → (pitch row).bits % 32 = 0 →
      issues i kinds new (fun q => q.addr = addr ∧ q.pitch = BitVec.ofNat 64 (pitch row).bits ∧ op q) (s.freed i) (fun _ => True)
    let width := fun (tag : Nat) => if tag = 0 then 4 else if 3 ≤ tag ∧ tag ≤ 5 then 2 else 1
    let row := fun (tag : Nat) => if tag = 0 then 16 else 32 / width tag
    let extent := fun (tag : Nat) => if e = 1#1 then 256 * (row tag - 1) + 16 * width tag else 256 * 15 + row tag * width tag
    let scratch := fun (i : Instr) (kinds : List Nat) (new : Option (Bool × Nat)) (tag : Option Nat) (op : TileOp → Prop) =>
      base.p = false → base.g = false → addr.toNat % 4 = 0 → (∀ n, tag = some n → addr.toNat + extent n ≤ (s.ctx x.ctx).scratch) →
      issues i kinds new (fun q => q.addr = addr ∧ q.transposed = (e == 1#1) ∧ op q) (s.freed i) (fun _ => True)
    let code := f.toNat
    let held := if h.kind = 2 then some 0 else h.slot.bind (fun n => (s.slots.find? n).map Slot.tag)
    let index := fun l => s.opnd l (srcB' m b 1)
    let data := fun l => s.opnd l (srcR v 1)
    memory (.tld m f d b p o) (if code = 0 then [2] else [0, 1, 3]) (some (f == 0#3, code)) (if code = 0 then 64 else 32)
      (fun q => q.kind = .ld ∧ q.mode = code ∧ q.pol = p.toNat ∧ q.streamed = (h.kind == 3)) ∧
    memory (.tsto m d b p o) [0, 1, 2] none (if h.kind = 2 then 64 else 32) (fun q => q.kind = .sto ∧ (q.mode = 1 ↔ h.kind = 2) ∧ q.pol = p.toNat) ∧
    scratch (.tlds m f d b e o) (if code = 0 then [2] else [0, 1]) (some (f == 0#3, code)) (some code) (fun q => q.kind = .lds ∧ q.mode = code) ∧
    scratch (.tsts m d b e o) [0, 1, 2] none held (fun q => q.kind = .sts ∧ (q.mode = 1 ↔ h.kind = 2)) ∧
    issues (.tzero m d z) (if z = 0#6 then [2] else [0, 1]) (some (z == 0#6, z.toNat)) (fun q => q.kind = .zero ∧ q.mode = z.toNat) (s.freed (.tzero m d z)) (fun _ => True) ∧
    (let i := Instr.trd m f v d b
     let dst := Dst.v v.toNat 1
     s.issued → issues i [2] none (fun q => q.kind = .rd ∧ q.mode = code ∧ q.rm = s.rm i ∧ q.sat = Instr.sat i ∧
        q.lanes = (s.actives i).map (fun l => ⟨l, (s.lane s.cur.g l).uid, (dst.regs (s.lane s.cur.g l)).head?, (index l).bits % 256, 0,
          (index l).g || (Instr.maskBit i (s.lane s.cur.g l)).g, (index l).p || (Instr.maskBit i (s.lane s.cur.g l)).p⟩))
      (fun l => dst.regs (s.lane s.cur.g l) ++ Instr.frees i dst (s.lane s.cur.g l))
      (fun t => ∀ l, s.live l → if l ∈ s.actives i then ∀ r ∈ dst.regs (s.lane s.cur.g l), (t.lane s.cur.g l).locked r else dst.read (t.lane s.cur.g l) = s.maskedRead i dst l)) ∧
    (let i := Instr.twr m f d v b
     s.issued → s.untagged (fun l => [Instr.maskBit i (s.lane s.cur.g l)]) → (∀ l ∈ s.actives i, (index l).p = false ∧ (index l).g = false ∧ ((data l).g = false ∨ (data l).p = true)) →
       issues i [2] (some (true, 0)) (fun q => q.kind = .wr ∧ q.lanes.length = (s.actives i).length ∧ ∀ l ∈ s.actives i, ∃ y ∈ q.lanes, y.lane = l ∧ y.index = (index l).bits % 256 ∧ y.p = (data l).p ∧
         y.bits = (match code with | 1 => (Machine.f32.convert 0 false 0 (Machine.f16.num ((data l).bits % 2 ^ 16))).1 | 2 => (Machine.f32.convert 0 false 0 (Machine.bf16.num ((data l).bits % 2 ^ 16))).1 | _ => (data l).bits % 2 ^ 32))
       (s.freed i) (fun _ => True))) ∧
  (∀ (m : Mods) (d a c ex : BitVec 6) (k : BitVec 2) (e : BitVec 1) (f : BitVec 3) (s : State),
    let x := s.here
    let issues := fun (i : Instr) (kind : TileKind) (mode : Nat) (as : Nat → List Nat) (b : Nat → Option Nat) (aKinds bKinds : List Nat) =>
      let quarters := (List.range 4).filter (fun n => s.cur.lanes.any (fun l => l / 8 = n))
      let ok := fun (h : Nat) (kinds : List Nat) => h ≤ 63 ∧ (x.handle h).owned = true ∧ (x.handle h).kind ∈ kinds
      (∃ l, s.live l) → (∀ n ∈ quarters, ok (d.toNat + n) [2] ∧ (∀ h ∈ as n, ok h aKinds) ∧ ∀ h, b n = some h → ok h bKinds) →
      ((s.versionsOf s.cur.g).length + quarters.length ≤ 256 → ∃ t id q, exec i s = .next t ∧ (∀ l, s.live l → s.passed t l) ∧ s.lanesKept t (s.freed i) ∧ s.calm t ∧ t.dies = s.dies ∧
        s.handlesOnly t (x.tiles + 1) ∧ (t.core x.core).tileOps.find? id = some q ∧ q.g = s.cur.g ∧ q.ctx = x.ctx ∧ q.kind = kind ∧ q.mode = mode ∧ q.spt = x.fpmode.getLsbD 8 ∧ q.flags = 0 ∧
        (∀ n, n ∉ quarters → q.quarters.find? n = none ∧ t.here.handle (d.toNat + n) = x.handle (d.toNat + n)) ∧
        ∀ n ∈ quarters, ∃ y w, q.quarters.find? n = some y ∧ y.a = (as n).map (fun h => (x.handle h).slot) ∧ y.b = (b n).bind (fun h => (x.handle h).slot) ∧
          y.old = (x.handle (d.toNat + n)).slot ∧ y.done = false ∧ t.here.handle (d.toNat + n) = { x.handle (d.toNat + n) with slot := some y.new } ∧
          t.slots.find? y.new = some w ∧ w.acc = true ∧ w.writer = some id ∧ w.prev = y.old) ∧
      (256 < (s.versionsOf s.cur.g).length + quarters.length → ∃ t, exec i s = .next t ∧ s.quiet t ∧
        ∀ l, s.live l → (t.lane s.cur.g l).wait = .slots ∧ (t.lane s.cur.g l).pc = (s.lane s.cur.g l).pc)
    issues (.mma m d a c k f) .mma (f.toNat + 8 * k.toNat) (fun n => [a.toNat + n]) (fun _ => some c.toNat) [0, 3] [1, 3] ∧
    issues (.mmas m d a c k f) .mmas (f.toNat + 8 * k.toNat) (fun n => [a.toNat + n]) (fun _ => some c.toNat) [0, 3] [1, 3] ∧
    issues (.mmac m d a c e f) .mmac (f.toNat + 8 * e.toNat) (fun n => [a.toNat + 2 * n, a.toNat + 2 * n + 1]) (fun _ => some c.toNat) [0, 3] [1, 3] ∧
    issues (.tscl m d a ex) .scl ex.toNat (fun n => [a.toNat + n]) (fun _ => none) [2] [] ∧
    issues (.tacc m d a c) .acc 0 (fun n => [a.toNat + n]) (fun n => some (c.toNat + n)) [2] [2])

/-- R18, R289, R292, R294, R296, R297, R298, R299, R305, R322, R323, R325, R327. MATRIX_PASS runs a quarter operation once the versions it reads are
written and the frozen quarters of its group's earlier operations have run. Each of its 256 elements is the old one plus the group sum of the exact
products over K, a dense row of A against a row of B; of MMAS the two of four that the metadata names, an illegal group giving none; of MMAC 64
weights of the half of the codebook tile, scaled. TSCL scales and TACC adds elements. The new version is marked poisoned where one that is read is,
and the flags are kept for the end of the operation. A and B whose tags are not those wanted raise ENGINE with SUB 2, deferred, and write no version.
Quarters that may not fuse do not run together. Log entries 31 and 104: LANE of a deferred fault is the quarter's lowest lane, and operations of different
groups keep the order of the versions they read. -/
def Obligations.MatrixPasses : Prop :=
  (∀ (core : Nat) (l : List Nat) (s : State), s.mayFuse core l = false → exec (.matrixPass core l) s = .next s) ∧
  ∀ (core id n : Nat) (o : TileOp) (q : Quarter) (v0 : Slot) (s : State), (s.core core).tileOps.find? id = some o → o.quarters.find? n = some q → n < 4 → q.done = false →
    s.engineRuns o.ctx o.g core 255 3 false = true → s.slots.find? q.new = some v0 → v0.acc = true → s.slots.rising = true →
    (s.slots.filter (fun p => p.2.res && p.2.core == core && p.2.acc)).length + q.a.length + 3 ≤ 768 →
    let slot := fun (r : Option Nat) => r.bind s.slots.find?
    let prod := if o.mode % 8 = 7 then intProduct else product
    let all := q.b :: q.old :: q.a
    let pass := Instr.matrixPass core [4 * id + n]
    let a := o.mode % 8
    let tagB := if o.kind = .mmac then 5 else if o.mode / 8 % 4 = 1 then 3 - a else a
    let right := fun (r : Option Nat) (tag : Nat) => ∃ w, slot r = some w ∧ w.acc = false ∧ w.tag = tag
    let arithmetic := o.kind = .mma ∨ o.kind = .mmas ∨ o.kind = .mmac
    let w := if a = 3 ∨ a = 4 ∨ a = 5 then 2 else 1
    let num := fun (x : Nat) => match a with | 1 => Machine.e4m3.num x | 2 => Machine.e5m2.num x | 3 => Machine.bf16.num x | 4 => Machine.f16.num x | _ => Num.fin (decide (toSigned 8 x < 0)) (toSigned 8 x).natAbs 0
    let numB := fun (x : Nat) => match tagB with | 1 => Machine.e4m3.num x | 2 => Machine.e5m2.num x | 3 => Machine.bf16.num x | 4 => Machine.f16.num x | _ => Num.fin (decide (toSigned 8 x < 0)) (toSigned 8 x).natAbs 0
    let bytes := fun (r : Option Nat) => match slot r with | some v => v.data | none => []
    let side := fun (r : Option Nat) => match slot r with | some v => v.side | none => []
    let elemA := fun (i off : Nat) => num (ofBytes (((bytes (q.a.getD i none)).drop off).take w))
    let elemB := fun (off : Nat) => numB (ofBytes (((bytes q.b).drop off).take w))
    let f32at := fun (r : Option Nat) (k : Nat) => match slot r with | some v => if v.data = [] then 0 else ofBytes ((v.data.drop (4 * k)).take 4) | none => 0
    let nibble := fun (m g : Nat) => ofBytes (((bytes (q.a.getD 0 none)).drop (256 + 4 * m)).take 4) / 2 ^ (4 * g) % 16
    let products := fun (m j : Nat) => match o.kind with
      | .mma => (List.range (32 / w)).map (fun k => prod (elemA 0 (32 * m + w * k)) (elemB (32 * j + w * k)))
      | .mmas => (List.range (8 / w)).flatMap (fun g => if nibble m g % 4 < nibble m g / 4 then
          [prod (elemA 0 (16 * m + 2 * w * g)) (elemB (32 * j + w * (4 * g + nibble m g % 4))),
           prod (elemA 0 (16 * m + 2 * w * g + w)) (elemB (32 * j + w * (4 * g + nibble m g / 4)))] else [])
      | _ => (List.range 64).map (fun k =>
          let x := 64 * (o.mode / 8 % 2) + k
          let scale := ((side q.b).getD (4 * j + x / 32) 0x7F#8).toNat
          let weight := cb2Weight (ofBytes (((bytes q.b).drop (32 * j + 2 * (x / 8))).take 2)) (x % 8)
          if scale = 255 then (Num.nan false, false) else product (elemA (k / 32) (32 * m + k % 32)) (scaled scale weight))
    let element := fun (k : Nat) => match o.kind with
      | .scl => Machine.f32.convert 0 false 0 (match Machine.f32.num (f32at (q.a.headD none) k) with | .fin b m e => .fin b m (e + (BitVec.ofNat 6 o.mode).toInt) | r => r)
      | .acc => Machine.f32.add 0 false 0 (Machine.f32.num (f32at (q.a.headD none) k)) (Machine.f32.num (f32at q.b k))
      | _ => accumulate (f32at q.old k) (products (k / 16) (k % 16))
    let reads := match o.kind with | .scl => [q.a.headD none] | .acc => [q.a.headD none, q.b] | _ => all
    ((∃ r ∈ all, ∃ v, slot r = some v ∧ v.writer ≠ none) → exec pass s = .next s) ∧
    ((∃ c i r p, (s.ctx o.ctx).images.find? c = some i ∧ r ∈ i.records ∧ (s.core core).tileOps.find? r.1 = some p ∧ p.g = o.g ∧ r.1 < o.seq) → exec pass s = .next s) ∧
    (s.tileTurn core o = true → (∀ r ∈ all, ∀ v, slot r = some v → v.writer = none ∧ v.bound = none) →
      (arithmetic → ∀ i, i < q.a.length → ¬ right (q.a.getD i none) a → (∀ j, j < i → right (q.a.getD j none) a) →
        ∃ t, exec pass s = .next t ∧ t.slots.find? q.new = none ∧ s.defersTo t o.g ⟨6, 2, (q.aHandle + i) % 64, 8 * n, 3, 0, 0, true⟩) ∧
      (arithmetic → (∀ r ∈ q.a, right r a) → ¬ right q.b tagB →
        ∃ t, exec pass s = .next t ∧ t.slots.find? q.new = none ∧ s.defersTo t o.g ⟨6, 2, q.bHandle % 64, 8 * n, 3, 0, 0, true⟩) ∧
      ((arithmetic → (∀ r ∈ q.a, right r a) ∧ right q.b tagB ∧ q.a.length = if o.kind = .mmac then 2 else 1) → (arithmetic → a ≠ 0 ∧ (o.kind = .mmac ∨ o.mode / 8 % 4 = 1 → a = 1 ∨ a = 2)) →
        (arithmetic ∨ o.kind = .scl ∨ o.kind = .acc) → ∃ t v y, exec pass s = .next t ∧ s.calm t ∧
          t.slots.find? q.new = some v ∧ v.data = (List.range 256).flatMap (fun k => bytesOf 4 (element k).1) ∧ v.writer = none ∧ v.acc = true ∧ v.tag = v0.tag ∧
          (v.poison = true ↔ ∃ r ∈ reads, ∃ u, slot r = some u ∧ u.poison = true) ∧
          (t.core core).tileOps.find? id = some y ∧ (∃ z, y.quarters.find? n = some z ∧ z.done = true) ∧
          y.flags = (List.range 256).foldl (fun f k => f ||| (element k).2) o.flags ∧ ∀ g, (t.group g).agree (s.group g)))

/-- R18, R19, R237, R245, R288, R289, R290, R293, R294, R297, R311, R312, R314, R315, R317, R319, R320, R324, R327, R328. TILE_OPERATION_RETIRE
performs an operation whose turn it is and takes it from the scoreboard: its counter falls and its flags enter FPMODE. A matrix operation retires with
its last quarter, and an illegal group is then raised where FPMODE asks for it. A store or an access waits for the version it reads. TZERO, TLDS, TLD
and TWR write their version, TLD reading the rows at the L2, or binding their lines; TSTS and TSTO write the elements at their places; TRD gives each
lane its element, converted. Log entries 30, 31, 33 and 37: an operation performs in one event, LANE of a quarter's fault, what a streamed TLD needs, and
when the lines of a TSTO are seen. -/
def Obligations.TileOperationsPerformed : Prop :=
  ∀ (core id : Nat) (o : TileOp) (s : State), (s.core core).tileOps.find? id = some o →
    let run := Instr.tileOperationRetire core id
    let slot := fun (r : Option Nat) => r.bind s.slots.find?
    let width := fun (tag : Nat) => if tag = 0 then 4 else if 3 ≤ tag ∧ tag ≤ 5 then 2 else 1
    let row := fun (tag : Nat) => if tag = 0 then 16 else 32 / width tag
    let scratch := (s.core core).scratch.get o.ctx []
    let flagged := (s.core core).flagged.get o.ctx []
    let held := fun (k : Nat) => match slot o.src with | some v => if v.data = [] then 0#8 else v.data.getD k 0#8 | none => 0#8
    let element := fun (k : Nat) => ofBytes ((List.range 4).map (fun i => held (4 * k + i)))
    let poisoned := ∃ v, slot o.src = some v ∧ v.poison = true
    let retired := fun (t : State) (flags : Nat) => (t.core core).tileOps.find? id = none ∧ (t.group o.g).agree { s.group o.g with tiles := (s.group o.g).tiles - 1, fpmode := (s.group o.g).fpmode ||| BitVec.ofNat 32 flags } ∧ ∀ g, g ≠ o.g → (t.group g).agree (s.group g)
    let writes := fun (packets : Bool) (data : List Byte) (side : List Byte) (poison : Prop) => ∀ n v, o.dst = some n → s.slots.find? n = some v → n ∈ s.groups.vals.flatMap Group.slots →
      s.slots.rising = true → (s.slots.filter (fun p => p.2.res && p.2.core == core && p.2.acc == v.acc)).length + 2 ≤ (if v.acc then 768 else 1024) →
      ∃ t w, exec run s = .next t ∧ (if packets then ({ s with pkg := { s.pkg with ports := t.pkg.ports } } : State).calm t else s.calm t) ∧ retired t o.flags ∧ t.slots.find? n = some w ∧ w.data = data ∧ w.side = side ∧ w.tag = v.tag ∧ w.writer = none ∧ (w.poison = true ↔ poison)
    let side := if o.mode = 5 then List.replicate 64 0x7F#8 else []
    let place := fun (tag : Nat) (k : Nat) => let e := k / width tag
      o.addr.toNat + (if o.transposed then 256 * (e % row tag) + width tag * (e / row tag) else 256 * (e / row tag) + width tag * (e % row tag)) + k % width tag
    let size := fun (tag : Nat) => if tag = 0 then 1024 else 512
    (s.engineRuns o.ctx o.g core 255 3 false = false ∨ s.tileTurn core o = false → exec run s = .next s) ∧
    (o.kind ∈ [.sto, .sts, .rd, .wr] → (∃ v, slot o.src = some v ∧ v.writer ≠ none) → exec run s = .next s) ∧
    (s.engineRuns o.ctx o.g core 255 3 false = true → s.tileTurn core o = true → (∀ v, slot o.src = some v → v.writer = none ∧ v.bound = none) → (s.groups.find? o.g).isSome = true →
      (o.kind ∈ [.mma, .mmas, .mmac, .scl, .acc] →
        ((∃ q ∈ o.quarters.vals, q.done = false) → exec run s = .next s) ∧
        ((∀ q ∈ o.quarters.vals, q.done = true) →
          ((o.spt = false ∨ ∀ q ∈ o.quarters.vals, q.bad = 0) → ∃ t, exec run s = .next t ∧ s.calm t ∧ retired t o.flags) ∧
          (∀ n q, o.spt = true → o.quarters = [(n, q)] → q.bad ≠ 0 →
            ∃ t, exec run s = .next t ∧ s.defersTo t o.g ⟨2, 0, q.aHandle % 64, 8 * n, 3, 0, BitVec.ofNat 64 q.bad, true⟩))) ∧
      (o.kind = .zero → writes false (if o.mode = 5 then (List.range 512).map (fun k => if k % 2 = 0 then 0xFF#8 else 0#8) else List.replicate (size o.mode) 0#8) side False) ∧
      (o.kind = .lds → writes false ((List.range (size o.mode)).map (fun k => scratch.get (place o.mode k) 0)) side (∃ k, k < size o.mode ∧ place o.mode k / 4 * 4 ∈ flagged)) ∧
      (o.kind = .wr → (o.lanes.map TileLane.index).Nodup → (∀ l ∈ o.lanes, l.index < 256) → (∀ v, slot o.src = some v → v.data = [] ∨ v.data.length = 1024) →
        writes false ((List.range 1024).map (fun k => match o.lanes.find? (fun l => l.index == k / 4) with | some l => (bytesOf 4 l.bits).getD (k % 4) 0 | none => held k)) []
          (poisoned ∨ ∃ l ∈ o.lanes, l.p = true)) ∧
      (o.kind = .ld →
        let at' := fun (r : Nat) => if o.mode = 0 then (o.addr + BitVec.ofNat 64 (r / 2) * o.pitch + BitVec.ofNat 64 (32 * (r % 2))) else o.addr + BitVec.ofNat 64 r * o.pitch
        let rows := if o.mode = 0 then 32 else 16
        ∀ (pa : Nat → Nat) (pg : Nat → Page), (∀ r, r < rows → s.xlate o.ctx core (at' r) .read = .ok (pa r) (pg r) ∧ (pg r).geo = 0 ∧ (pg r).fmt ∈ (if o.mode = 0 then [0] else [0, o.mode]) ∧
            ((pg r).consults = true → s.hostHolds (lineOf (pa r)) = false) ∧ s.barred (dieOf core) (lineOf (pa r)) = false ∧ ((pg r).mtype = 2 ∨ (pg r).l2Ok = false ∨ ((s.die (dieOf core)).l2.find? (lineOf (pa r))).isSome = true)) → s.serves o.ctx core rows ⟨5, id, 0⟩ →
          let read := fun (r : Nat) => s.tileRead o.ctx core (pa r) 32 (pg r).mtype
          (o.streamed = false → writes true ((List.range rows).flatMap (fun r => (read r).1)) (if o.mode = 5 then side else []) (∃ r, r < rows ∧ (read r).2 = true)) ∧
          (o.streamed = true → (∀ r, r < rows → (pg r).lk = true ∧ (pg r).l2Ok = true ∧ isCauseway (pa r) = false ∧ ∃ y, (s.die (dieOf core)).l2.find? (lineOf (pa r)) = some y ∧ y.bound ≠ 0) →
            ∀ n v, o.dst = some n → s.slots.find? n = some v → n ∈ s.groups.vals.flatMap Group.slots → ∃ t w, exec run s = .next t ∧ retired t o.flags ∧ t.slots.find? n = some w ∧
              w.bound = some ⟨(List.range rows).map pa, 0, (List.range rows).map (fun _ => none), (List.range rows).any (fun r => (pg r).consults)⟩ ∧ w.data = [] ∧ w.res = false ∧ w.writer = none)) ∧
      (o.kind = .sts → ∀ tag, (if o.mode = 1 then some 0 else (slot o.src).map Slot.tag) = some tag → ¬ (tag = 5 ∧ o.transposed = true) →
        (∀ k, k < size tag → place tag k < (s.ctx o.ctx).scratch) → (∀ v, slot o.src = some v → v.data.length = size tag ∨ (o.mode = 1 ∧ v.data = [])) →
        ∃ t, exec run s = .next t ∧ s.calm t ∧ retired t o.flags ∧
          (∀ k, k < size tag → ((t.core core).scratch.get o.ctx []).get (place tag k) 0 = held k ∧ (place tag k / 4 * 4 ∈ (t.core core).flagged.get o.ctx [] ↔ poisoned)) ∧
          ∀ a, (∀ k, k < size tag → place tag k ≠ a) → ((t.core core).scratch.get o.ctx []).get a 0 = scratch.get a 0) ∧
      (o.kind = .sto → ∀ tag, (if o.mode = 1 then some 0 else (slot o.src).map Slot.tag) = some tag →
        let at' := fun (r : Nat) => if tag = 0 then (o.addr + BitVec.ofNat 64 (r / 2) * o.pitch + BitVec.ofNat 64 (32 * (r % 2))) else o.addr + BitVec.ofNat 64 r * o.pitch
        let rows := if tag = 0 then 32 else 16
        ∀ (pa : Nat → Nat) (pg : Nat → Page), (∀ r, r < rows → s.xlate o.ctx core (at' r) .write = .ok (pa r) (pg r) ∧ (pg r).geo = 0 ∧ (pg r).fmt ∈ (if tag = 0 then [0] else [0, tag]) ∧
            ((pg r).consults = true → s.hostHolds (lineOf (pa r)) = false) ∧ s.barred (dieOf core) (lineOf (pa r)) = false ∧ pa r % 32 = 0) → s.serves o.ctx core rows ⟨5, id, 0⟩ → (∀ r q, r < rows → q < rows → r ≠ q → pa r ≠ pa q) →
          (∀ v, slot o.src = some v → v.data.length = size tag ∨ (o.mode = 1 ∧ v.data = [])) →
          let known := s.keeps (s.keyOf o.ctx) (fun i => pa (i / 32) + i % 32) (32 * rows)
          let new := fun (a : Nat) (old : Byte) => match (List.range rows).find? (fun r => decide (pa r ≤ a ∧ a < pa r + 32)) with | some r => held (32 * r + (a - pa r)) | none => old
          ((∀ r, r < rows → (pg r).mtype = 2) → ∃ t, exec run s = .next t ∧ retired t o.flags ∧ ∀ a, known a → Memory.read t.mem a = new a (Memory.read s.mem a)) ∧
          ((∀ r, r < rows → (pg r).mtype ≠ 2 ∧ s.lineSound (dieOf core) (lineOf (pa r)) ∧ ((s.die (dieOf core)).l2.find? (lineOf (pa r))).isSome = true) →
            ∃ t, exec run s = .next t ∧ retired t o.flags ∧ ∀ a, known a → t.byteAt a = new a (s.byteAt a))) ∧
      (o.kind = .rd → (∀ v, slot o.src = some v → v.data = [] ∨ v.data.length = 1024) → (o.lanes.map TileLane.lane).Nodup → (o.lanes.map TileLane.uid).Nodup →
        let result := fun (l : TileLane) =>
          let x := Machine.f32.num (element l.index)
          let rand := (Config.rand (s.free + l.lane)).toNat
          match o.mode with
          | 0 => Machine.f32.convert o.rm o.sat rand x
          | 1 => Machine.f16.convert o.rm o.sat rand x
          | 2 => Machine.bf16.convert o.rm o.sat rand x
          | 3 => Machine.e4m3.convert o.rm o.sat rand x
          | 5 => (ofInt 32 (toInteger 32 true o.rm o.sat rand x).1, (toInteger 32 true o.rm o.sat rand x).2)
          | _ => Machine.e5m2.convert o.rm o.sat rand x
        ∃ t, exec run s = .next t ∧ s.calm t ∧ retired t (o.lanes.foldl (fun f l => f ||| (result l).2) 0) ∧
          ∀ l ∈ o.lanes, s.holdsFibre o.g l.lane l.uid → ∀ r, l.reg = some r → r.file = .v →
            (t.lane o.g l.lane).holdsAt r 1 ⟨(result l).1, l.g, l.p || (match slot o.src with | some v => v.poison | none => false)⟩ ∧ ¬ (t.lane o.g l.lane).locked r))

/-- R19, R53, R330, R331, R335, R336, R339, R340, R341, R342, R343. The copies act once for their issue set, on the registers of its lowest lane. With
certain and clean operands within their limits and alignments and scratch ranges within the window, a copy is in flight and counted; nothing moves
yet. One of nothing retires at issue, and one that finds 256 copies or ranges in flight stays at its instruction. CSTAT gives the state of the group's
copies. -/
def Obligations.CopiesIssue : Prop :=
  ∀ (m : Mods) (f : BitVec 3) (v : BitVec 1) (z : BitVec 2) (d a b : BitVec 7) (s : State),
    let x := s.here
    let core := s.core x.core
    let low := s.lane s.cur.g (s.cur.lanes.headD 0)
    let k := fun (r : BitVec 7) => (low.kOf r).bits
    let c := match m.opx with | some o => o.c | none => d
    let len := match m.imx with | some y => ((y ++ b).signExtend 64).toNat | none => k b
    let lenOps := match m.imx with | some _ => [] | none => [b]
    let n := match z.toNat with | 0 => 4 | 1 => 8 | 2 => 16 | _ => 128
    let issues := fun (i : Instr) (ops : List (BitVec 7)) (limits aligned : Prop) (windows : List (Bool × Nat × Nat)) (ranges rows rowBytes : Nat) (copy : Copy → Prop) =>
      (∀ r ∈ ops, (low.kOf r).p = false ∧ (low.kOf r).g = false) → limits → aligned → (∀ w ∈ windows, w.1 = true → rows * rowBytes ≠ 0 → w.2.1 + w.2.2 ≤ (s.ctx x.ctx).scratch) → (∃ l, s.live l) →
        let passes := fun (t : State) => (∀ l, s.live l → s.passed t l) ∧ s.lanesKept t (s.freed i) ∧ s.quiet t ∧ ∀ g, g ≠ s.cur.g → (t.group g).agree (s.group g)
        (rows * rowBytes = 0 → ∃ t, exec i s = .next t ∧ passes t ∧ t.here.agree x) ∧
        (rows * rowBytes ≠ 0 → core.copies.length < 256 → (core.copies.vals.map (fun o => o.ranges.length)).sum + ranges ≤ 256 → ∃ t id y, exec i s = .next t ∧ passes t ∧
          t.here.agree { x with copies := x.copies + 1 } ∧ (t.core x.core).copies.find? id = some y ∧ y.g = s.cur.g ∧ y.ctx = x.ctx ∧ y.lane = s.cur.lanes.headD 0 ∧ y.rows = rows ∧ y.rowBytes = rowBytes ∧
          y.row = 0 ∧ y.off = 0 ∧ y.lines = [] ∧ y.paused = none ∧ y.flip = false ∧ y.ended = false ∧ copy y) ∧
        (rows * rowBytes ≠ 0 → 256 ≤ core.copies.length ∨ 256 < (core.copies.vals.map (fun o => o.ranges.length)).sum + ranges → ∃ t, exec i s = .next t ∧ s.framed t (fun _ => []) ∧
          ∀ l, s.live l → s.stays t l)
    let dst := fun (y : Copy) => y.dst = BitVec.ofNat 64 (k d)
    let src := fun (y : Copy) => y.src = BitVec.ofNat 64 (k a)
    let spaces := fun (y : Copy) => y.dstScratch = (f.toNat % 2 == 1) ∧ (y.srcScratch = true ↔ 2 ≤ f.toNat)
    issues (.cpy m f d a b) (d :: a :: lenOps) (len ≤ 2 ^ 24) (k d % 4 = 0 ∧ k a % 4 = 0 ∧ len % 4 = 0)
      [(f.toNat % 2 == 1, k d, len), (decide (2 ≤ f.toNat), k a, len)] 2 1 len (fun y => y.kind = 0 ∧ dst y ∧ src y ∧ spaces y) ∧
    (let rows := k b / 2 ^ 32 % 2 ^ 16
     let rowb := k b % 2 ^ 32
     let dp := k c / 2 ^ 32
     let sp := k c % 2 ^ 32
     issues (.cpy2 m f d a b) [d, a, b, c] (k b < 2 ^ 48 ∧ rowb ≤ 2 ^ 24) (k d % 4 = 0 ∧ k a % 4 = 0 ∧ rowb % 4 = 0 ∧ dp % 4 = 0 ∧ sp % 4 = 0)
      [(f.toNat % 2 == 1, k d, (rows - 1) * dp + rowb), (decide (2 ≤ f.toNat), k a, (rows - 1) * sp + rowb)] 2 rows rowb (fun y => y.kind = 1 ∧ dst y ∧ src y ∧ spaces y ∧ y.dstPitch = dp ∧ y.srcPitch = sp)) ∧
    issues (.gath m v z d a b) [d, a, b, c] (k c ≤ 65536) (k d % n = 0 ∧ k a % 4 = 0 ∧ k b % 4 = 0) [(v == 1#1, k d, k c * n)] 2 (k c) n
      (fun y => y.kind = 2 ∧ dst y ∧ src y ∧ y.dstScratch = (v == 1#1) ∧ y.srcScratch = false ∧ y.table = BitVec.ofNat 64 (k b) ∧ y.dstPitch = n) ∧
    issues (.scat m v z d a b) [d, a, b, c] (k c ≤ 65536) (k a % n = 0 ∧ k d % 4 = 0 ∧ k b % 4 = 0) [(v == 1#1, k a, k c * n)] 2 (k c) n
      (fun y => y.kind = 3 ∧ dst y ∧ src y ∧ y.srcScratch = (v == 1#1) ∧ y.dstScratch = false ∧ y.table = BitVec.ofNat 64 (k b) ∧ y.srcPitch = n) ∧
    ((low.kOf a).g = false ∨ (low.kOf a).p = true → issues (.cfill m v d a b) (d :: lenOps) (len ≤ 2 ^ 24) (k d % 4 = 0 ∧ len % 4 = 0) [(v == 1#1, k d, len)] 1 1 len
      (fun y => y.kind = 4 ∧ dst y ∧ y.dstScratch = (v == 1#1) ∧ y.table = BitVec.ofNat 64 (k a) ∧ y.poison = (low.kOf a).p)) ∧
    (let i := Instr.cstat m d
     ∃ t, exec i s = .next t ∧ s.framed t (fun l => (Dst.k d.toNat).regs (s.lane s.cur.g l) ++ Instr.frees i (.k d.toNat) (s.lane s.cur.g l)) ∧
      let mine := core.copies.vals.filter (fun o => o.g == s.cur.g)
      let rem := match mine.head? with | some o => (if o.kind = 2 ∨ o.kind = 3 then o.rows - o.row else o.rows * o.rowBytes - (o.row * o.rowBytes + o.off)) % 2 ^ 32 | none => 0
      ∀ l, s.live l → s.passed t l ∧ (Dst.k d.toNat).read (t.lane s.cur.g l) = (Dst.k d.toNat).holds (Val.of (rem * 2 ^ 32 + x.copies * 2 ^ 16 +
        (if ∃ o ∈ mine, o.ended = false ∧ (o.paused.isSome = true ∨ o.flip = true) then 2 else 0) + (if core.groupHeld s.cur.g = true ∨ s.fillHeld s.cur.g = true then 1 else 0))))

/-- R19, R121, R206, R208, R211, R283, R332, R333, R334, R335, R337, R338, R341, R342, R370. COPY_PIECE moves the next piece of a copy through the
core's port: the bytes of one row up to the next 128-byte boundary of the destination, or one element at its index. Each byte is read after every
earlier one is written. A piece whose translation is missing on its index, its source or its destination pauses its copy; another fault ends the copy
before the piece and is deferred, with INFO 1, for HWERR 3, on the destination side. A gather or scatter between two boundaries goes on through a bias
flip. Log entries 37 and 38: when the bytes are seen, and INFO.
COPY_RETIRE takes a copy whose pieces are all written from the scoreboard once the L1 of its core has applied its invalidations. -/
def Obligations.CopyProgress : Prop :=
  ∀ (core id : Nat) (c : Copy) (s : State), (s.core core).copies.find? id = some c →
    let die := s.die (dieOf core)
    let indexed := c.kind = 2 ∨ c.kind = 3
    let run := Instr.copyPiece core id
    let reached := fun (kind : Kind) (va : W64) => if c.atBoundary then s.xlate c.ctx core va kind else s.xlateNow c.ctx core va kind
    let pauses := fun (va : W64) => ∃ t, exec run s = .next t ∧ s.quiet t ∧ (t.core core).copies.find? id = some { c with paused := some va } ∧
      ((s.ctxs.find? c.ctx).isSome = true → va ∈ (t.ctx c.ctx).faults)
    let ends := fun (cause sub info : Nat) (va : W64) => ∃ t, exec run s = .next t ∧ (t.core core).copies.find? id = none ∧
      s.defersTo t c.g ⟨cause, sub, info, c.lane, 4, 0, va, true⟩ ∧ ((s.groups.find? c.g).isSome = true → (t.group c.g).copies = (s.group c.g).copies - 1)
    let faults := fun (kind : Kind) (va : W64) (side field : Nat) => (reached kind va = .replay → pauses va) ∧
      (∀ sub, reached kind va = .trap sub → ends 4 sub side va) ∧ (reached kind va = .poisoned → ends 8 1 field va)
    let lies := fun (scratch : Bool) (kind : Kind) (va : W64) (n : Nat) (f : Nat → Nat) (pg : Nat → Page) =>
      if scratch then ∀ i, i < n → f i = va.toNat + i
      else ∀ i, i < n → f i % 128 = (va.toNat + i) % 128 ∧ ((pg i).consults = true → s.hostHolds (lineOf (f i)) = false) ∧
        (kind = .write → s.barred (dieOf core) (lineOf (f i)) = false) ∧
        let k := if i < 128 - va.toNat % 128 then 0 else 128 - va.toNat % 128
        ∃ p, reached kind (va + BitVec.ofNat 64 k) = .ok p (pg i) ∧ f i = p + (i - k)
    let ready := fun (n : Nat) (f : Nat → Nat) (pg : Nat → Page) => ∀ i, i < n → (pg i).l2Ok = true → (die.l2.find? (lineOf (f i))).isSome = true
    let read := fun (scratch : Bool) (f : Nat → Nat) (pg : Nat → Page) (i : Nat) => (s.engineByte c.ctx core (f i, if scratch then none else some (pg i)))
    let scratch := fun (t : State) => (t.core core).scratch.get c.ctx []
    (c.ended = true ∨ c.paused ≠ none ∨ c.flip = true ∨ s.copyRuns core c = false → exec run s = .next s) ∧
    (c.ended = false → c.paused = none → c.flip = false → s.copyRuns core c = true →
      (indexed → faults .read (c.table + BitVec.ofNat 64 (4 * c.row)) 0 1 ∧
        ∀ (f : Nat → Nat) (pg : Nat → Page), lies false .read (c.table + BitVec.ofNat 64 (4 * c.row)) 4 f pg → ready 4 f pg → (∃ i, i < 4 ∧ (read false f pg i).2 = true) →
          ends 8 1 1 ((c.table + BitVec.ofNat 64 (4 * c.row)) &&& ~~~127#64)) ∧
      ∀ (index : Nat), (¬ indexed → index = 0) →
        (indexed → ∃ (f : Nat → Nat) (pg : Nat → Page), lies false .read (c.table + BitVec.ofNat 64 (4 * c.row)) 4 f pg ∧ ready 4 f pg ∧ (∀ i, i < 4 → (read false f pg i).2 = false) ∧
          index = ofBytes ((List.range 4).map (fun i => (read false f pg i).1))) →
        let src := c.src + BitVec.ofNat 64 (if c.kind = 2 then index * c.rowBytes else c.row * c.srcPitch + c.off)
        let dst := c.dst + BitVec.ofNat 64 (if c.kind = 3 then index * c.rowBytes else c.row * c.dstPitch + c.off)
        let n := if indexed then c.rowBytes else min (c.rowBytes - c.off) (128 - dst.toNat % 128)
        let cost := tokens n * ((if c.dstScratch then 0 else 1) + if c.srcScratch = true ∨ c.kind = 4 then 0 else 1) + if indexed then 1 else 0
        0 < n → n ≤ 128 →
        (∀ (sf df : Nat → Nat) (sp dp : Nat → Page), (c.kind ≠ 4 → lies c.srcScratch .read src n sf sp ∧ (c.srcScratch = false → ready n sf sp)) → lies c.dstScratch .write dst n df dp →
          (∀ i j, i < n → j < n → i ≠ j → df i ≠ df j) → (cost = 0 ∨ s.serves c.ctx core cost ⟨4, id, 0⟩) →
          ∃ (t : State) (c' : Copy) (v : Nat → Byte), exec run s = .next t ∧ (t.core core).copies.find? id = some c' ∧
            (if c.rowBytes ≤ c.off + n then c'.row = c.row + 1 ∧ c'.off = 0 else c'.row = c.row ∧ c'.off = c.off + n) ∧ (c'.ended = true ↔ c.rows ≤ c'.row) ∧
            (∀ g, (t.group g).agree (s.group g)) ∧
            (∀ i, i < n → v i = if c.kind = 4 then (c.table >>> (8 * ((dst.toNat + i) % 8))).setWidth 8
              else match (List.range i).find? (fun j => df j == sf i && c.dstScratch == c.srcScratch) with | some j => v j | none => (read c.srcScratch sf sp i).1) ∧
            let known := s.keeps (s.keyOf c.ctx) df n
            let new := fun (a : Nat) (old : Byte) => match (List.range n).find? (fun i => df i == a) with | some i => v i | none => old
            (c.dstScratch = true → (∀ a, (scratch t).get a 0 = new a ((scratch s).get a 0)) ∧ ∀ a, t.byteAt a = s.byteAt a) ∧
            (c.dstScratch = false → scratch t = scratch s ∧
              ((∀ i, i < n → (dp i).mtype = 2) → ∀ a, known a → Memory.read t.mem a = new a (Memory.read s.mem a)) ∧
              ((∀ i, i < n → (dp i).mtype ≠ 2 ∧ s.lineSound (dieOf core) (lineOf (df i)) ∧ (die.l2.find? (lineOf (df i))).isSome = true) → ∀ a, known a → t.byteAt a = new a (s.byteAt a)))) ∧
        (c.kind ≠ 4 → c.srcScratch = false → if indexed then (∀ sub, reached .read src = .trap sub → ends 4 sub 0 src) else faults .read src 0 0) ∧
        (∀ (sf : Nat → Nat) (sp : Nat → Page), (c.kind ≠ 4 → lies c.srcScratch .read src n sf sp) → c.dstScratch = false →
          if indexed then (∀ sub, reached .write dst = .trap sub → ends 4 sub 1 dst) else faults .write dst 1 3)) ∧
    (c.ended = false ∨ s.copyRuns core c = false ∨ (∃ la ∈ c.lines, la ∈ (s.core core).invalidations) → exec (.copyRetire core id) s = .next s) ∧
    (c.ended = true → s.copyRuns core c = true → (∀ la ∈ c.lines, la ∉ (s.core core).invalidations ∧ la % 128 = 0 ∧ (isCauseway la = true → s.wholeLine la)) →
      ∃ t, exec (.copyRetire core id) s = .next t ∧ (t.core core).copies.find? id = none ∧ (∀ a, t.byteAt a = s.byteAt a) ∧
        ((s.groups.find? c.g).isSome = true → (t.group c.g).agree { s.group c.g with copies := (s.group c.g).copies - 1 }) ∧ (∀ g, g ≠ c.g → (t.group g).agree (s.group g)) ∧
        ∀ la ∈ c.lines, isCauseway la = false → ∀ e y, e ≠ dieOf core → s.snoopOk e la = true → (t.die e).l2.find? la = some y → y.dirty = true ∨ y.pin.isSome = true ∨ y.bound ≠ 0)

/-- R16, R253, R353, R354, R355, R356, R360, R361, R362, R363, R370, R402. COLL, CSIG, RPOST and STEP act once for their issue set, on the registers
of its lowest lane; CWAIT acts per fibre. COLL reads its record and answers 2 for one that is malformed or a duplicate, whose STATUS becomes 3, 1 with
64 open records, and else 0, and the call has started. CSIG sends its signal and RPOST its message, once the release at `.sys` is done and no put of
the group to that rank is open; RPOST and STEP lock d for their answer. A read at issue goes out at the core's port. CWAIT waits for its word at the
instruction. STEP is pending on every track of the grid, in place of an earlier one. A torn-down VF sends nothing. Log entries 20 and 54: what an
instruction waits for at issue, and the tracks of a STEP. -/
def Obligations.FabricInstructions : Prop :=
  ∀ (m : Mods) (d a b : BitVec 7) (s : State),
    let x := s.here
    let lane := s.cur.lanes.headD 0
    let low := s.lane s.cur.g lane
    let k := fun (r : BitVec 7) => (low.kOf r).bits
    let clean := fun (r : BitVec 7) => (low.kOf r).p = false ∧ (low.kOf r).g = false
    let imm := fun (l : Nat) => match m.imx with | some y => ((y ++ b).signExtend 64).toNat | none => ((s.lane s.cur.g l).kOf b).bits
    let va := low.kAddr a
    let dst := Dst.k d.toNat
    let vf := s.vf (s.ctx x.ctx).vf
    let rank := fun (v : Nat) => (vf.comms.find? (v / 2 ^ 32)).bind (fun c => c.ranks[v % 2 ^ 32]?)
    let others := fun (t : State) => (∀ g, (t.group g).agree (s.group g)) ∧ t.slots = s.slots
    let waitsFor := fun (t : State) (l : Nat) => ∀ r ∈ dst.regs (s.lane s.cur.g l), (t.lane s.cur.g l).locked r
    let dsts := s.cur.lanes.flatMap (fun l => (dst.regs (s.lane s.cur.g l)).map (fun r => (l, (s.lane s.cur.g l).uid, r)))
    let withDst := fun (i : Instr) (l : Nat) => dst.regs (s.lane s.cur.g l) ++ Instr.frees i dst (s.lane s.cur.g l)
    let upto := low.upto s.ids
    let released := fun (t : Nat) => vf.alive = true ∧ s.releaseDone x.core s.cur.g low.uid 4 upto none = true ∧
      ∀ c ∈ s.calls, ¬ (c.1 < upto ∧ c.2.g = s.cur.g ∧ c.2.op = 3 ∧ c.2.comm = t / 2 ^ 32 ∧ c.2.peer = t % 2 ^ 32)
    let waits := fun (i : Instr) (r : Nat) => ∃ t, exec i s = .next t ∧ s.framed t (fun _ => []) ∧
      ∀ l, s.live l → (t.lane s.cur.g l).pc = (s.lane s.cur.g l).pc ∧ (t.lane s.cur.g l).wait = .send low.uid upto r
    let silent := fun (i : Instr) => vf.alive = false → ∃ t, exec i s = .next t ∧ t.sent = s.sent ∧ t.signals = s.signals ∧ t.posts = s.posts ∧ t.mem = s.mem
    s.issued → s.cur.lanes ≠ [] →
    (let i := Instr.coll m d a
     clean a → k a % 64 = 0 → ∀ pa pg, s.xlate x.ctx x.core va .read = .ok pa pg → (pg.consults = true → s.hostHolds (lineOf pa) = false) → s.roomy x.ctx x.core 1 → (s.fabricRead x.ctx x.core pa 64 pg).2 = false →
      let bytes := (s.fabricRead x.ctx x.core pa 64 pg).1
      let f := fun (i n : Nat) => ofBytes ((bytes.drop i).take n)
      let ranks := match vf.comms.find? (f 32 4) with | some c => c.ranks.length | none => 0
      let size := if f 5 1 = 1 then 2 else 4
      let malformed := 3 < f 4 1 ∨ (f 4 1 = 0 ∧ 3 < f 5 1) ∨ f 6 2 ≠ 0 ∨ f 48 16 ≠ 0 ∨ f 24 8 = 0 ∨ 2 ^ 32 < f 24 8 ∨ vf.comms.find? (f 32 4) = none ∨ ((f 4 1 = 2 ∨ f 4 1 = 3) ∧ ranks ≤ f 36 4) ∨
        (f 4 1 ≤ 1 ∧ f 36 4 ≠ 0) ∨ (f 4 1 = 0 ∧ (f 8 8 % size ≠ 0 ∨ f 16 8 % size ≠ 0))
      let duplicate := ∃ c ∈ s.calls.vals, c.vf = (s.ctx x.ctx).vf ∧ c.comm = f 32 4 ∧ c.seq = f 40 4
      let full := 64 ≤ (s.calls.vals.filter (fun c => c.ctx == x.ctx)).length
      let ends := fun (status : Nat) (then' : State → Prop) => ∃ t, exec i s = .next t ∧ others t ∧ t.signals = s.signals ∧ t.posts = s.posts ∧ t.sent = s.sent ∧ s.lanesKept t (withDst i) ∧
        (∀ l, s.live l → s.passed t l ∧ dst.read (t.lane s.cur.g l) = dst.holds (Val.of status)) ∧ then' t
      (malformed ∨ duplicate → ends 2 (fun t => t.calls = s.calls ∧ ∀ c, t.byteAt c = (if vf.alive then (s.fillTlb x.ctx x.core va).deviceWrite x.ctx va [3, 0, 0, 0] else s).byteAt c)) ∧
      (¬ malformed → ¬ duplicate → full → ends 1 (fun t => t.calls = s.calls ∧ t.mem = s.mem)) ∧
      (¬ malformed → ¬ duplicate → ¬ full → ends 0 (fun t => t.mem = s.mem ∧ ∃ id, t.calls = s.calls.put id
        ⟨s.cur.g, x.ctx, lane, (s.ctx x.ctx).vf, x.core, f 4 1, f 5 1, BitVec.ofNat 64 (f 8 8), BitVec.ofNat 64 (f 16 8), f 24 8, f 32 4, f 36 4, f 40 4, f 44 4, va, s.ticks, [], none, none, 0⟩))) ∧
    (∀ add : Bool, let i := if add then Instr.csigAdd m d a b else Instr.csigSet m d a b
      clean a → clean d → (m.imx = none → clean b) → k a % 8 = 0 → ∀ r, rank (k d) = some r → silent i ∧
        (vf.alive = true → ¬ released (k d) → waits i (k d)) ∧
        (released (k d) → ∃ t id, exec i s = .next t ∧ others t ∧ t.mem = s.mem ∧ t.calls = s.calls ∧ t.posts = s.posts ∧ (∀ l, s.live l → s.passed t l) ∧ s.lanesKept t (s.freed i) ∧
          t.sent = s.sent ++ [Sent.signal r.1 r.2 va (BitVec.ofNat 64 (imm lane)) add] ∧
          t.signals = s.signals.put id ⟨s.cur.g, x.ctx, x.core, lane, k d / 2 ^ 32, k d % 2 ^ 32, va, s.ticks⟩)) ∧
    (let i := Instr.rpost m d a b
     clean a → clean b → k a % 128 = 0 → ∀ r, rank (k b) = some r → silent i ∧
        (vf.alive = true → ¬ released (k b) → waits i (k b)) ∧
        (released (k b) → ∀ pa pg, s.xlate x.ctx x.core va .read = .ok pa pg → (pg.consults = true → s.hostHolds (lineOf pa) = false) → s.roomy x.ctx x.core 2 → (s.fabricRead x.ctx x.core pa 80 pg).2 = false →
          ∃ t id, exec i s = .next t ∧ others t ∧ t.mem = s.mem ∧ t.calls = s.calls ∧ t.signals = s.signals ∧ s.lanesKept t (withDst i) ∧ (∀ l, s.live l → s.passed t l ∧ waitsFor t l) ∧
            t.sent = s.sent ++ [Sent.message r.1 r.2 (s.fabricRead x.ctx x.core pa 80 pg).1] ∧ t.posts = s.posts.put id ⟨s.cur.g, x.ctx, x.core, dsts, s.ticks⟩)) ∧
    (∀ ge : Bool, let i := if ge then Instr.cwaitGe m d a b else Instr.cwaitRec m d a
      let n := if ge then 8 else 4
      let ad := fun l => (s.lane s.cur.g l).kOf a
      (∀ l ∈ s.cur.lanes, (ad l).p = false ∧ (ad l).g = false ∧ (ge = true → m.imx = none → ((s.lane s.cur.g l).kOf b).p = false ∧ ((s.lane s.cur.g l).kOf b).g = false) ∧ (ad l).bits % n = 0 ∧
        ∃ pa pg, s.xlate x.ctx x.core (BitVec.ofNat 64 (ad l).bits) .read = .ok pa pg ∧ (s.fabricRead x.ctx x.core pa n pg).2 = false) →
        ∃ t, exec i s = .next t ∧ s.still t ∧ others t ∧ ∀ l, s.live l → s.stays t l ∧
          ∃ last, (t.lane s.cur.g l).wait = .word (BitVec.ofNat 64 (ad l).bits) (if ge then some (BitVec.ofNat 64 (imm l)) else none) d.toNat s.cur.words last) ∧
    (let i := Instr.step m d a b
     clean a → (m.imx = none → clean b) → 4 ≤ imm lane → imm lane ≤ 16 → (s.grids.find? x.grid).isSome = true →
       ∃ t p, exec i s = .next t ∧ others t ∧ t.mem = s.mem ∧ t.sent = s.sent ∧ (t.grid x.grid).step = some p ∧ p.time = va ∧ p.ratio = imm lane ∧ p.home = x.core * 8 + x.track ∧ p.group = s.cur.g ∧
         p.dst = dsts ∧ (s.groups.rising = true → ∀ c, c ∈ p.tracks ↔ ∃ h y, s.groups.find? h = some y ∧ y.grid = x.grid ∧ y.core * 8 + y.track = c) ∧
         (∀ l, s.live l → s.passed t l ∧ waitsFor t l) ∧
         ((∀ q, (s.grid x.grid).step = some q → q.dst = []) → s.lanesKept t (withDst i)) ∧
         ∀ q, (s.grid x.grid).step = some q → q.group ≠ s.cur.g → (q.dst.map Prod.fst).Nodup → ∀ z ∈ q.dst, s.holdsFibre q.group z.1 z.2.1 → z.2.2.file = .k →
           (t.lane q.group z.1).regVal z.2.2 = Val.of (s.granted (q.home / 8) (q.home % 8)))

/-- R16, R19, R280, R300, R349, R356, R357, R358, R360, R362, R370, R402. How calls, signals and messages end. A call reads its SRC piece by piece
through the core's port; a put then sends its bytes with their poison, and of the others, once every rank has joined, each byte at DST is that of the
gathered, broadcast or combined contributions, written piece by piece, after which STATUS is 0, or 4 where SRC had poison. A call whose joined records
differ ends with STATUS 1 and FABRIC SUB 2; one past its timeout, unless it is writing DST and no piece of that waits for its translation, with STATUS 2
and FABRIC SUB 0; one whose SRC or DST is refused with STATUS 5 and MEMORY, or HWERR where the walk is poisoned. A piece that has no translation yet
waits. Log entries 8, 64, 65 and 66: the combining tree, the order of the pieces, what answers a put, and LANE. A signal that is refused or has no reply raises FABRIC; a message gives its status, or 5. -/
def Obligations.FabricOutcomes : Prop :=
  (∀ (vf comm seq id : Nat) (c : Call) (m : Comm) (l : List (Nat × List Byte)) (s : State), s.openCall vf comm seq = some (id, c) → s.calls.rising = true → (s.vf vf).comms.find? comm = some m →
    let run := Instr.collCompletion vf comm seq l
    let ends := fun (t : State) (u : State) (status : Nat) => (t.calls.find? id = none) ∧
      ∀ a, t.byteAt a = (if (s.vf (s.ctx c.ctx).vf).alive then u.deviceWrite c.ctx c.addr (bytesOf 4 status) else u).byteAt a
    let fields := fun (b : List Byte) (i n : Nat) => ofBytes ((b.drop i).take n)
    let agree := fun (b : List Byte) => fields b 4 1 = c.op ∧ fields b 5 1 = c.type ∧ fields b 24 8 = c.count ∧ fields b 36 4 = c.peer
    let n := m.ranks.length
    let size := c.count * collSize c.op c.type
    let reads := c.op ≠ 2 ∨ c.peer = m.rank
    let piece := fun (va : W64) (total done : Nat) => (va + BitVec.ofNat 64 done, min (128 - (va + BitVec.ofNat 64 done).toNat % 128) (total - done))
    let open' := fun (p : W64 × Nat) (pa : Nat) (pg : Page) => s.serves c.ctx c.core (tokens p.2) ⟨6, id, 0⟩ ∧ pa % 128 = p.1.toNat % 128 ∧
      (pg.consults = true → s.hostHolds (lineOf pa) = false) ∧ ((s.die (dieOf c.core)).l2.find? (lineOf pa)).isSome = true
    let refused := fun (kind : Kind) (va : W64) (info field : Nat) =>
      (∀ sub, s.xlate c.ctx c.core va kind = .trap sub → ∃ t, exec run s = .next t ∧ ends t s 5 ∧ s.defersTo t c.g ⟨4, sub, info, c.lane, 5, 0, va, true⟩) ∧
      (s.xlate c.ctx c.core va kind = .poisoned → ∃ t, exec run s = .next t ∧ ends t s 5 ∧ s.defersTo t c.g ⟨8, 1, field, c.lane, 5, 0, va, true⟩) ∧
      (s.xlate c.ctx c.core va kind = .replay → ∃ t, exec run s = .next t ∧ t.calls = s.calls ∧ t.mem = s.mem ∧ t.groups = s.groups ∧
        ((s.ctxs.find? c.ctx).isSome = true → va ∈ (t.ctx c.ctx).faults))
    let joined := (∀ o ∈ l, o.1 ≠ m.rank → agree o.2) ∧ ∀ r, r < n → r = m.rank ∨ ∃ o ∈ l, o.1 = r
    (s.deviceHeld c.ctx c.addr 4 = true → exec run s = .next s) ∧
    (s.deviceHeld c.ctx c.addr 4 = false →
      (c.op ≠ 3 → c.out = none → (∃ o ∈ l, o.1 ≠ m.rank ∧ ¬ agree o.2) → ∃ t, exec run s = .next t ∧ ends t s 1 ∧ s.defersTo t c.g ⟨7, 2, 0, c.lane, 5, 0, c.addr, true⟩) ∧
      (c.op = 3 → c.out ≠ none → (∃ o ∈ l, o.1 = c.peer ∧ o.2.headD 0 ≠ 0) → ∃ t, exec run s = .next t ∧ ends t s 5 ∧ s.defersTo t c.g ⟨7, 1, 0, c.lane, 5, 0, c.dst, true⟩) ∧
      (c.op ≠ 3 → c.out = none → (reads → size ≤ c.got.length) → (∀ o ∈ l, o.1 ≠ m.rank → agree o.2) → (∃ r, r < n ∧ r ≠ m.rank ∧ ∀ o ∈ l, o.1 ≠ r) → exec run s = .next s) ∧
      (c.out = none → reads → c.got.length < size → (c.op ≠ 3 → ∀ o ∈ l, o.1 ≠ m.rank → agree o.2) →
        let p := piece c.src size c.got.length
        refused .read p.1 0 0 ∧
        ∀ pa pg, s.xlate c.ctx c.core p.1 .read = .ok pa pg → open' p pa pg → ∃ t, exec run s = .next t ∧ t.mem = s.mem ∧ t.groups = s.groups ∧
          t.calls.find? id = some { c with got := c.got ++ (List.range p.2).map (fun i => s.engineByte c.ctx c.core (pa + i, some pg)), sent := none, fails := 0 }) ∧
      (c.op = 3 → c.out = none → size ≤ c.got.length → ∀ r, m.ranks[c.peer]? = some r → ∃ t, exec run s = .next t ∧ t.mem = s.mem ∧ t.groups = s.groups ∧
        t.sent = s.sent ++ [Sent.put r.1 r.2 c.dst (c.got.map Prod.fst) (c.got.map Prod.snd)] ∧ t.calls.find? id = some { c with out := some [] }) ∧
      (c.op = 3 → c.out ≠ none → (∃ o ∈ l, o.1 = c.peer) → (∀ o ∈ l, o.1 = c.peer → o.2.headD 0 = 0) → (∀ q ∈ c.got, q.2 = false) → ∃ t, exec run s = .next t ∧ ends t s 0 ∧ t.groups = s.groups) ∧
      (c.op < 3 → c.out = none → joined → (reads → c.got.length = size) →
        let part := fun (r i : Nat) => if r = m.rank then c.got.getD i (0, false)
          else let b := ((l.find? (fun o => o.1 == r)).map Prod.snd).getD []; (b.getD (64 + i) 0, b.getD (64 + size + i) 0 != 0)
        let es := collSize 0 c.type
        let element := fun (r i : Nat) => ofBytes ((List.range es).map (fun b => (part r (es * i + b)).1))
        ∃ t v, exec run s = .next t ∧ t.mem = s.mem ∧ t.groups = s.groups ∧ t.calls.find? id = some { c with out := some v } ∧
          (c.op = 1 → v = (List.range n).flatMap (fun r => (List.range c.count).map (part r))) ∧ (c.op = 2 → c.peer < n → v = (List.range c.count).map (part c.peer)) ∧
          (c.op = 0 → v.length = size ∧ ∀ i, i < c.count →
            let got := ofBytes ((List.range es).map (fun b => (v.getD (es * i + b) (0, false)).1))
            (∃ p, got = combineTree (collCombine c.type) n p ((List.range n).map (fun r => element r i)) % 2 ^ (8 * es)) ∧
            (c.type = 2 → got = ((List.range n).map (fun r => element r i)).sum % 2 ^ 32) ∧
            ∀ b, b < es → ((v.getD (es * i + b) (0, false)).2 = true ↔ ∃ r k, r < n ∧ k < es ∧ (part r (es * i + k)).2 = true))) ∧
      (∀ v, c.op < 3 → c.out = some v → v ≠ [] → (reads → size ≤ c.got.length) →
        let total := if c.op = 1 then size * n else size
        let p := piece c.dst total (total - v.length)
        v.length ≤ total →
        refused .write p.1 1 3 ∧
        ∀ pa pg, s.xlate c.ctx c.core p.1 .write = .ok pa pg → open' p pa pg → pg.mtype ≠ 2 → s.lineSound (dieOf c.core) (lineOf pa) →
          ∃ t u, exec run s = .next t ∧ (∀ a, s.keeps (s.keyOf c.ctx) (fun i => pa + i) p.2 a → u.byteAt a = if pa ≤ a ∧ a < pa + p.2 then (v.getD (a - pa) (0, false)).1 else s.byteAt a) ∧
            (p.2 < v.length → t.calls.find? id = some { c with out := some (v.drop p.2), sent := none, fails := 0 } ∧ t.groups = s.groups ∧ ∀ a, t.byteAt a = u.byteAt a) ∧
            (v.length ≤ p.2 → (∀ q ∈ c.got, q.2 = false) → ends t u 0 ∧ t.groups = s.groups) ∧
            ∀ q, v.length ≤ p.2 → c.got.find? (fun b => b.2) = some q → ends t u 4 ∧
              s.defersTo t c.g ⟨8, 3, 0, c.lane, 5, 0, (c.src + BitVec.ofNat 64 (c.got.findIdx (fun b => b.2))) &&& ~~~127#64, true⟩))) ∧
  (∀ (vf comm seq ctx id : Nat) (c : Call) (s : State), s.openCall vf comm seq = some (id, c) → s.calls.rising = true →
    let due := c.since + (if c.tmo = 0 then 1000000 else c.tmo) * 1000
    let ranks := match (s.vf vf).comms.find? comm with | some m => m.ranks.length | none => 0
    let total := (if c.op = 1 then ranks else 1) * (c.count * collSize c.op c.type)
    let stuck := ∃ v, c.out = some v ∧ v ≠ [] ∧ s.xlate c.ctx c.core (c.dst + BitVec.ofNat 64 (total - v.length)) .write = .replay
    (∀ v, c.out = some v → v.length ≤ total) →
    (c.ctx ≠ ctx ∨ s.ticks < due ∨ (c.out ≠ none ∧ c.op ≠ 3 ∧ ¬ stuck) → exec (.collTimeout vf comm seq ctx) s = .next s) ∧
    (c.ctx = ctx → due ≤ s.ticks → c.out = none ∨ c.op = 3 ∨ stuck → s.deviceHeld ctx c.addr 4 = false →
      ∃ t, exec (.collTimeout vf comm seq ctx) s = .next t ∧ t.calls.find? id = none ∧ s.defersTo t c.g ⟨7, 0, 0, c.lane, 5, 0, c.addr, true⟩ ∧
      ∀ a, t.byteAt a = (if (s.vf (s.ctx ctx).vf).alive then s.deviceWrite ctx c.addr [2, 0, 0, 0] else s).byteAt a)) ∧
  (∀ (id status : Nat) (q : Signal) (s : State), s.signals.find? id = some q →
    (status = 0 → ∃ t, exec (.csigReply id status) s = .next t ∧ t.signals.find? id = none ∧ t.groups = s.groups ∧ t.ctxs = s.ctxs ∧ t.mem = s.mem) ∧
    (status ≠ 0 → ∃ t, exec (.csigReply id status) s = .next t ∧ t.signals.find? id = none ∧ s.defersTo t q.g ⟨7, 1, 0, q.lane, 5, 0, q.addr, true⟩ ∧ t.mem = s.mem) ∧
    (s.ticks < q.since + 2000000 → exec (.csigTimeout id) s = .next s) ∧
    (q.since + 2000000 ≤ s.ticks → ∃ t, exec (.csigTimeout id) s = .next t ∧ t.signals.find? id = none ∧ s.defersTo t q.g ⟨7, 0, 0, q.lane, 5, 0, q.addr, true⟩ ∧ t.mem = s.mem)) ∧
  (∀ (id status : Nat) (q : Post) (s : State), s.posts.find? id = some q → (q.dst.map Prod.fst).Nodup →
    let answered := fun (t : State) (v : Nat) => t.posts.find? id = none ∧ t.mem = s.mem ∧ (∀ g, (t.group g).agree (s.group g)) ∧
      ∀ z ∈ q.dst, s.holdsFibre q.g z.1 z.2.1 → z.2.2.file = .k → (t.lane q.g z.1).regVal z.2.2 = Val.of v ∧ ¬ (t.lane q.g z.1).locked z.2.2
    (∃ t, exec (.rpostReply id status) s = .next t ∧ answered t (status % 256)) ∧
    (s.ticks < q.since + 2000000 → exec (.rpostTimeout id) s = .next s) ∧
    (q.since + 2000000 ≤ s.ticks → ∃ t, exec (.rpostTimeout id) s = .next t ∧ answered t 5))

/-- R17, R28, R253, R361, R363, R370, R379, R402. CWAIT_REREAD reads the word of a fibre as LDAQ at `.sys` does, once nothing of the fibre stands
before it: where the condition holds the fibre goes on with the word in d, and else waits on. STEP_APPLY makes a track that holds a group of its
context ask for the ratio of each step whose time has come; d of the fibres that issued it receives the ratio granted for their track as it applies
the step there. It also applies a step of CEIL that is due. Log entry 54: a track that holds no group of the context takes no ratio. -/
def Obligations.WaitsAndSteps : Prop :=
  (∀ (g l d words : Nat) (va : W64) (value : Option W64) (last : List Reg) (s : State), s.liveAt g l → (s.lane g l).wait = .word va value d words last →
    let x := s.group g
    let b := s.lane g l
    let c := s.core x.core
    let n := if value.isSome then 8 else 4
    let dst := Dst.k d
    (s.runs x.ctx g = false → exec (.cwaitReread g l) s = .next s) ∧
    (s.runs x.ctx g = true → ∀ pa pg, s.xlate x.ctx x.core va .read = .ok pa pg →
      let la := lineOf pa
      ((pg.consults = true ∧ s.hostHolds la = true) ∨ s.unacknowledged la 128 = true ∨ c.loadsDone g b.uid s.ids none = false → exec (.cwaitReread g l) s = .next s) ∧
      (c.loadsDone g b.uid s.ids none = true → c.atomicsDone g b.uid s.ids none = true → c.mayLook g b.uid s.ids false pa n s.ids = true → c.queuedBefore s.ids pa n = false →
        (pg.consults = true → s.hostHolds la = false) → s.unacknowledged la 128 = false → s.serves x.ctx x.core 1 ⟨7, g, l⟩ → s.barred (dieOf x.core) la = false → pg.mtype ≠ 2 → isCauseway la = false → s.sealed x.ctx la = false → pa % n = 0 → (s.directoryLine la).poison = false →
        let v := ofBytes ((List.range n).map (fun i => s.byteAt (pa + i)))
        let holds := match value with | some y => y.toNat ≤ v | none => v ≠ 2 ^ 32 - 1
        (holds → ∃ t, exec (.cwaitReread g l) s = .next t ∧ t.mem = s.mem ∧ t.standsAt g l (b.pc + BitVec.ofNat 64 (4 * words)) ∧ dst.read (t.lane g l) = dst.holds (Val.of v) ∧
          (t.core x.core).l1 = [] ∧ (t.lane g l).agree b (dst.regs b ++ last)) ∧
        (¬ holds → ∃ t, exec (.cwaitReread g l) s = .next t ∧ t.mem = s.mem ∧ ∀ h, (t.group h).agree (s.group h) ∧ ∀ j, t.lane h j = s.lane h j)))) ∧
  (∀ (core track n : Nat) (p : Pending) (s : State), (s.grid n).step = some p → (∀ k, k ≠ n → (s.grid k).step = none) → s.grids.rising = true →
    let here := core * 8 + track
    (here ∉ p.tracks ∨ s.ticks < p.time.toNat → ((s.core core).track track).ceilAt = none → ∃ t, exec (.stepApply core track) s = .next t ∧ (∀ k, t.core k = s.core k) ∧ t.grids = s.grids ∧ t.groups = s.groups) ∧
    (here ∈ p.tracks → p.time.toNat ≤ s.ticks → ∃ t, exec (.stepApply core track) s = .next t ∧ t.mem = s.mem ∧
      ((∃ g y, (g, y) ∈ s.groups ∧ y.ctx = (s.grid n).ctx ∧ y.core = core ∧ y.track = track) → ((t.core core).track track).asks.find? (s.grid n).ctx = some p.ratio) ∧
      ((∀ g y, (g, y) ∈ s.groups → ¬ (y.ctx = (s.grid n).ctx ∧ y.core = core ∧ y.track = track)) → ((t.core core).track track).asks = ((s.core core).track track).asks) ∧
      ((∀ k ∈ p.tracks, k = here) → (t.grid n).step = none) ∧
      ((∃ k ∈ p.tracks, k ≠ here) → ∃ q, (t.grid n).step = some q ∧ q.time = p.time ∧ q.ratio = p.ratio ∧ (∀ k, k ∈ q.tracks ↔ k ∈ p.tracks ∧ k ≠ here) ∧ (p.home ≠ here → q.dst = p.dst ∧ q.home = p.home)) ∧
      (p.home ≠ here → t.groups = s.groups) ∧
      (p.home = here → track < 8 → (p.dst.map Prod.fst).Nodup → ∀ z ∈ p.dst, s.holdsFibre p.group z.1 z.2.1 → z.2.2.file = .k →
        (t.lane p.group z.1).regVal z.2.2 = Val.of (t.granted core track) ∧ ¬ (t.lane p.group z.1).locked z.2.2))) ∧
  (∀ (core track : Nat) (k : Track) (time : W64) (v : Nat) (s : State), (s.core core).tracks.find? track = some k → k.ceilAt = some (time.toNat, v) → ∃ t, exec (.stepApply core track) s = .next t ∧
    (s.ticks < time.toNat → ((t.core core).track track).ceil = k.ceil) ∧ (time.toNat ≤ s.ticks → ((t.core core).track track).ceil = if s.pkg.hung then min k.ceil v else v))

/-- R90, R119, R250, R251, R280, R352, R357, R358, R360, R386, R402. Remote messages, puts and signals, once the device is up. A message from an
endpoint that is not bound to its VF is answered with 4 and reported with TYPE 9; a malformed one with 2; a well-formed launch with the status of its
append; a notify of a queue that is not there with 3, else with 0. A put from a bound endpoint writes its bytes in the target's context, and marks the
lines of poisoned ones; a signal adds to or sets its aligned word. They are answered once performed, or with an error where they are refused. Log entries
14 and 103: the context of a launch message, and that nothing is taken before the device has booted. -/
def Obligations.RemoteArrivals : Prop :=
  (∀ (vf endpoint id queue kind reserved : Nat) (rec body : List Byte) (s : State),
    let v := s.vf vf
    let bound := vf ≤ 63 ∧ endpoint ∈ v.bound
    let launch := Instr.launchMessage vf endpoint id (queue, reserved) rec
    let notify := Instr.notifyMessage vf endpoint id (queue, reserved, body)
    let dropped := Instr.remoteMessageDropped vf endpoint id (kind, reserved, body)
    let refused := fun (i : Instr) => ∃ t, exec i s = .next t ∧ t.mem = s.mem ∧ t.groups = s.groups ∧ t.grids = s.grids ∧ t.sent.getLast? = some (.reply endpoint id 4) ∧
      (vf ≤ 63 → s.reports t vf 9 0 0) ∧ (63 < vf → s.reportsUp t 0xFF 9 0 0)
    let answers := fun (i : Instr) (u : State) (status : Nat) => ∃ t, exec i s = .next t ∧ t = { u with sent := u.sent ++ [.reply endpoint id status] }
    let clean := reserved = 0 ∧ ∀ b ∈ body, b = 0
    (s.pkg.booted = false → exec launch s = .next s ∧ exec notify s = .next s ∧ exec dropped s = .next s) ∧
    (s.pkg.booted = true → ¬ bound → refused launch ∧ refused notify ∧ refused dropped) ∧
    (s.pkg.booted = true → bound →
      (rec.length ≠ 64 ∨ reserved ≠ 0 → answers launch s 2) ∧
      (rec.length = 64 → reserved = 0 → s.appendHeld vf queue = true → exec launch s = .next s) ∧
      (rec.length = 64 → reserved = 0 → s.appendHeld vf queue = false → (7 < queue ∨ s.queue vf queue = none → answers launch s 3) ∧
        ∀ q, queue ≤ 7 → s.queue vf queue = some q →
          (s.malformed vf rec = true → answers launch s 2) ∧ (s.malformed vf rec = false → q.full = true → answers launch s 1) ∧
          (s.malformed vf rec = false → q.full = false → answers launch (s.appendRecord vf (v.contexts.getD queue 0) rec queue).2 0)) ∧
      (¬ clean → answers notify s 2) ∧ (clean → s.queueHeld vf queue = true → exec notify s = .next s) ∧
      (clean → s.queueHeld vf queue = false → (7 < queue ∨ s.queue vf queue = none → answers notify s 3) ∧
        (queue ≤ 7 → s.queue vf queue ≠ none → answers notify (s.readTail vf queue) 0)) ∧
      ((kind = 1 ∧ clean) ∨ (kind = 2 ∧ reserved = 0) → exec dropped s = .next s) ∧ (¬ ((kind = 1 ∧ clean) ∨ (kind = 2 ∧ reserved = 0)) → answers dropped s 2))) ∧
  (∀ (endpoint id ctx : Nat) (va : W64) (data marks : List Byte) (s : State), s.pkg.booted = true →
    let put := Instr.remotePutArrival (endpoint, id) (ctx, va) (data, marks)
    let bound := (s.ctxs.find? ctx).isSome = true ∧ (s.ctx ctx).vf ≤ 63 ∧ endpoint ∈ (s.vf (s.ctx ctx).vf).bound
    let error := ∃ t, exec put s = .next t ∧ t.mem = s.mem ∧ t.dies = s.dies ∧ t.groups = s.groups ∧ t.sent = s.sent ++ [.answer endpoint id true]
    (¬ bound → error) ∧ (bound → 0 < data.length → ∀ sub, s.xlate ctx 0 va .write = .trap sub → error) ∧
    (bound → (∀ la, s.wholeLine la) →
      ∀ (f : Nat → Nat) (pg : Nat → Page), (∀ i, i < data.length → f i % 128 = (va.toNat + i) % 128 ∧ ((pg i).consults = true → s.hostHolds (lineOf (f i)) = false) ∧
          let start := (va.toNat + i) / 128 * 128 - va.toNat
          ∃ p, s.xlate ctx 0 (va + BitVec.ofNat 64 start) .write = .ok p (pg i) ∧ f i = p + (i - start)) → (∀ i j, i < data.length → j < data.length → i ≠ j → f i ≠ f j) →
        ∃ t, exec put s = .next t ∧ t.groups = s.groups ∧ t.sent = s.sent ++ [.answer endpoint id false] ∧
          (∀ i, i < data.length → marks.getD i 0 ≠ 0 → (t.directoryLine (lineOf (f i))).poison = true) ∧
          ∀ a, s.keeps (s.keyOf ctx) f data.length a → t.byteAt a = match (List.range data.length).find? (fun i => f i == a) with | some i => data.getD i 0 | none => s.byteAt a)) ∧
  (∀ (endpoint id ctx : Nat) (va value : W64) (add : Bool) (s : State), s.pkg.booted = true → (∀ la, s.wholeLine la) →
    let signal := Instr.remoteSignalArrival (endpoint, id) (ctx, va) value add
    let error := ∃ t, exec signal s = .next t ∧ t.mem = s.mem ∧ t.dies = s.dies ∧ t.groups = s.groups ∧ t.sent = s.sent ++ [.answer endpoint id true]
    (s.ctxs.find? ctx = none ∨ va.toNat % 8 ≠ 0 → error) ∧
    ((s.ctxs.find? ctx).isSome = true → va.toNat % 8 = 0 → (∀ sub, s.xlate ctx 0 va .write = .trap sub → error) ∧
      ∀ pa pg, s.xlate ctx 0 va .write = .ok pa pg → pa % 8 = 0 →
        let la := lineOf pa
        let held := pg.consults = true ∧ s.hostHolds la = true
        (held → exec signal s = .next s) ∧ (¬ held → (s.directoryLine la).poison = true → error) ∧
        (¬ held → (s.directoryLine la).poison = false → s.sealed ctx la = false → ∃ t, exec signal s = .next t ∧ t.groups = s.groups ∧ t.sent = s.sent ++ [.answer endpoint id false] ∧
          let old := ofBytes ((List.range 8).map (fun i => s.byteAt (pa + i)))
          let new := if add then (BitVec.ofNat 64 old + value).toNat else value.toNat
          ∀ a, t.byteAt a = if pa ≤ a ∧ a < pa + 8 then (bytesOf 8 new).getD (a - pa) 0 else s.byteAt a)))

/-- R216, R349, R350, R351, R373, R385. A request to a Causeway node ends without its reply where it has none for 2,000,000 ticks since it was first
sent, where the node refuses it, or, on a confidential page, where its packet fails a tag check the third time: a load's lane receives 0 with P = 1, a
store, an atomic's lane, a copy or a tile operation leaves its engine, the piece of SRC of a call reads as 0 with poison, and a deferred FABRIC trap is
raised, SUB 0 or 1, with the port and the address. A fibre that waits for an instruction, a word of CWAIT, a fill or a walk meets a poisoned line, and the
deferred trap is kept behind that precise one. An abandoned request is reported. Before that nothing happens, but that a failed check is counted and the
packet sent again. A failed Ultra Ethernet port is left out. Log entries 66, 95 and 114: LANE, when a request was first sent, and how one of a fibre or a
call ends. -/
def Obligations.CausewayEnds : Prop :=
  (∀ (core id lane : Nat) (r : Request) (s : State), s.request core id lane = some r →
    let c := s.core core
    let ls := (c.loads.find? id).isSome || (c.stores.find? id).isSome || (c.atomics.find? id).isSome
    let eng := if ls then 2 else if (c.copies.find? id).isSome then 4 else if (c.tileOps.find? id).isSome then 3 else 5
    let engines := ls || (c.copies.find? id).isSome || (c.tileOps.find? id).isSome
    let fibres := engines = false ∧ s.calls.find? id = none
    let plain := (∀ w e, c.loads.find? id = none → c.stores.find? id = none → c.atomics.find? id = some w → w.lanes.find? lane = some e →
        w.refused = none ∧ (s.atPlace e.pa e.mtype w.bytes).2 = false ∧ s.barred (dieOf core) (lineOf e.pa) = false) ∧ (∀ o, c.tileOps.find? id = some o → o.spt = false) ∧
        ¬ fibres ∧ ∀ q, s.calls.find? id = some q → ∀ y ∈ q.got, y.2 = false
    let ends := fun (i : Instr) (sub : Nat) (also : State → Prop) => ∃ t, exec i s = .next t ∧ (plain → s.defersTo t r.g ⟨7, sub, r.port, r.lane, eng, 0, r.va, true⟩ ∧ also t) ∧
      (∀ w e, c.loads.find? id = some w → w.lanes.find? lane = some e → w.lanes.rising = true → w.acquire = none → e.state = .waiting → (e.limit = 0 ∨ e.demand = true) →
        s.holdsFibre w.g lane e.uid → ∀ q, e.reg = some q → (t.lane w.g lane).holdsAt q e.form.rows ⟨0, e.guessed || e.mg, true⟩) ∧
      (∀ w, c.loads.find? id = none → c.stores.find? id = some w → (t.core core).stores.find? id = none) ∧
      (∀ w, c.loads.find? id = none → c.stores.find? id = none → c.atomics.find? id = some w → ∀ y, (t.core core).atomics.find? id = some y → y.lanes.find? lane = none) ∧
      (∀ o, ls = false → c.copies.find? id = some o → (t.core core).copies.find? id = none) ∧
      (∀ o, ls = false → c.copies.find? id = none → c.tileOps.find? id = some o → (t.core core).tileOps.find? id = none) ∧
      (∀ q va, engines = false → s.calls.find? id = some q → s.callAddr q = some (va, false) →
        t.calls.find? id = some { q with got := q.got ++ List.replicate (min (128 - va.toNat % 128) (q.size - q.got.length)) (0, true), sent := none, fails := 0 }) ∧
      (∀ x q, fibres → s.groups.find? id = some x → s.fibreReading id x lane = some q → (x.fibre lane).cw.ja = false → (s.ctxs.find? x.ctx).isSome = true → s.runs x.ctx id = true →
        (∃ h, (t.ctx x.ctx).halt = some h ∧ h.phase = .stopping ∧ h.group = id ∧ lane ∈ h.lanes ∧ h.incomplete = true ∧ h.trap = ⟨8, q.sub, q.field, h.trap.lane, q.eng, q.words, q.val, false⟩) ∧
        (∃ p ∈ (t.group id).pend, p.1 = ⟨7, sub, r.port, lane, 2, 0, r.va, true⟩) ∧ ∀ l, s.liveAt id l → (t.lane id l).pc = (s.lane id l).pc)
    (∀ t0, r.since = none ∨ (r.since = some t0 ∧ s.ticks < t0 + 2000000) → exec (.causewayAbandon core (id, lane)) s = .next s) ∧
    (∀ t0, r.since = some t0 → t0 + 2000000 ≤ s.ticks → ends (.causewayAbandon core (id, lane)) 0 (fun t => ∃ u : State, u.vfs = s.vfs ∧ ((c.loads.find? id).isSome = true → u.pkg.ring = s.pkg.ring) ∧ u.clocks = s.clocks ∧
      u.reports t (s.ctx r.ctx).vf 10 (BitVec.ofNat 64 (lineOf r.pa)) (BitVec.ofNat 32 (dieOf core + core % 80 * 2 ^ 8 + r.ctx % 2 ^ 16 * 2 ^ 16)))) ∧
    (r.out = false → exec (.nodeErrorReply core (id, lane)) s = .next s) ∧ (r.out = true → ends (.nodeErrorReply core (id, lane)) 1 (fun _ => True)) ∧
    (r.conf = false ∨ r.out = false → exec (.tagCheckFailure core (id, lane)) s = .next s) ∧
    (r.conf = true → r.out = true →
      (2 ≤ r.fails → ends (.tagCheckFailure core (id, lane)) 1 (fun _ => True)) ∧
      (r.fails < 2 → ∃ t q, exec (.tagCheckFailure core (id, lane)) s = .next t ∧ t.mem = s.mem ∧ (∀ h, (t.group h).agree (s.group h) ∧ ∀ j, t.lane h j = s.lane h j) ∧ t.ctxs = s.ctxs ∧
        (t.pkg.ports.get r.port ⟨0, 0⟩).counter = (s.pkg.ports.get r.port ⟨0, 0⟩).counter + 1 ∧
        t.request core id lane = some q ∧ q.fails = r.fails + 1 ∧ (r.since ≠ none → q.since = r.since)))) ∧
  (∀ (port : Nat) (s : State), (7 < port ∨ port ∈ s.pkg.uePorts → exec (.portFailover port) s = .next s) ∧
    (port ≤ 7 → port ∉ s.pkg.uePorts → ∃ t, exec (.portFailover port) s = .next t ∧ (∀ p, p ∈ t.pkg.uePorts ↔ p = port ∨ p ∈ s.pkg.uePorts) ∧ t.groups = s.groups ∧ t.mem = s.mem))

/-- R90, R201, R213, R217, R221, R280, R281, R282, R367, R368, R372. The requests of the host chiplets, of other dies and of RDMA. A host chiplet may
hold copies of a half in memory whose pages are in host bias and not of MTYPE 1, and its requests wait while a store to the line is not performed for
every die. A shared request has every owned copy written back and kept clean; an exclusive one has every copy dropped, but for a pinned one that
stays, and those of a die whose firewall refuses the message; both are answered with the half's bytes, which are of no use where the line is under
another key than its page's owner's. A write-back of an exclusive half puts its 64 bytes into memory, a host or RDMA write its bytes, after
what the dies own, and a host read is answered from there. A request of another die that DFW refuses is not performed and reported with TYPE 6; else
it reads the line into the L2 of its die, writes, adds, or takes the copy of a line of its own away. Log entries 60, 62 and 63: which pages are asked,
pinned copies, and the half that a host keeps after a write-back. -/
def Obligations.HostsAndLinks : Prop :=
  ∀ (addr len vf src dst kind : Nat) (data : List Byte) (poisoned : Bool) (s : State), (∀ la, s.wholeLine la) →
    let la := lineOf addr
    let half := addr / 64 * 64
    let may := (region addr).isSome = true ∧ isCauseway addr = false ∧ (∀ p ∈ s.pagesAt addr, p.bias = true ∧ p.mtype ≠ 1) ∧ s.unacknowledged la 128 = false ∧ s.host.get half 0 ≠ 2
    let answers := fun (t : State) (a n : Nat) => ∃ bytes, t.sent = s.sent ++ [.hostRead a bytes ((linesOf a n).any (fun l => (s.directoryLine l).poison))] ∧ bytes.length = n ∧
      ∀ i, i < n → (∀ g, s.seals.find? (lineOf (a + i)) = some g → s.hostKey (a + i) = some g) → bytes.getD i 0 = s.byteAt (a + i)
    let same := fun (t : State) => ∀ a, t.byteAt a = s.byteAt a
    let clean := fun (t : State) => ∀ d y, d < 4 → (t.die d).l2.find? la = some y → y.dirty = false
    let wrote := fun (t : State) (key at' : Nat) (bytes : List Byte) => ∀ a, s.keeps key (fun i => at' + i) bytes.length a → t.byteAt a = if at' ≤ a ∧ a < at' + bytes.length then bytes.getD (a - at') 0 else s.byteAt a
    let plain := fun (t : State) (at' : Nat) (bytes : List Byte) => ∀ a, t.byteAt a = if at' ≤ a ∧ a < at' + bytes.length then bytes.getD (a - at') 0 else s.byteAt a
    let lines := linesOf addr (max len data.length)
    (¬ may → exec (.hostSharedRequest addr) s = .next s ∧ exec (.hostExclusiveRequest addr) s = .next s) ∧
    (may → ∃ t, exec (.hostSharedRequest addr) s = .next t ∧ same t ∧ clean t ∧ (∀ a, lineOf a = la → Memory.read t.mem a = s.byteAt a) ∧ t.groups = s.groups ∧
      t.host = s.host.put half 1 ∧ answers t half 64) ∧
    (may → ∃ t, exec (.hostExclusiveRequest addr) s = .next t ∧ same t ∧ (∀ a, lineOf a = la → Memory.read t.mem a = s.byteAt a) ∧ t.host = s.host.put half 2 ∧ answers t half 64 ∧ t.groups = s.groups ∧
      (∀ c, s.snoopOk (dieOf c) la = true → (t.core c).l1.find? la = none) ∧
      ∀ d y, d < 4 → (t.die d).l2.find? la = some y → y.dirty = false ∧ (s.snoopOk d la = true → y.pin.isSome = true ∨ y.bound ≠ 0)) ∧
    (s.host.get half 0 ≠ 2 ∨ data.length ≠ 64 → exec (.hostWriteBack addr data poisoned) s = .next s) ∧
    (s.host.get half 0 = 2 → data.length = 64 → ∃ t, exec (.hostWriteBack addr data poisoned) s = .next t ∧ (∀ k, s.hostKey half = some k → wrote t k half data) ∧ (s.hostKey half = none → plain t half data) ∧ t.host.get half 0 = 1 ∧ (∀ h, h % 64 = 0 → h ≠ half → t.host.find? h = s.host.find? h) ∧ t.groups = s.groups ∧
      (poisoned = true → la ∈ t.poison)) ∧
    ((∀ l ∈ lines, (region l).isSome = true ∧ s.unacknowledged l 128 = false) → ∃ t, exec (.hostMemoryAccess addr len data) s = .next t ∧ (∀ k, s.hostKey addr = some k → wrote t k addr data) ∧
      (s.hostKey addr = none → plain t addr data) ∧ t.groups = s.groups ∧ (data = [] → 0 < len → answers t addr len) ∧ ∀ l ∈ lines, ∀ d y, d < 4 → (t.die d).l2.find? l = some y → y.dirty = false) ∧
    ((∃ l ∈ lines, region l = none ∨ s.unacknowledged l 128 = true) → exec (.hostMemoryAccess addr len data) s = .next s) ∧
    (let v := s.vf vf
     let inside := ∀ l ∈ lines, s.hostHolds l = false ∧ ∃ r, region l = some r ∧ r.home ∈ v.dies
     (v.alive = true → inside → ∃ t, exec (.rdmaAccess vf addr len data) s = .next t ∧ wrote t v.generation addr data ∧ t.groups = s.groups ∧ ∀ l ∈ linesOf addr data.length, t.seals.find? l = some v.generation) ∧
     (¬ (v.alive = true ∧ inside) → exec (.rdmaAccess vf addr len data) s = .next s)) ∧
    (let run := Instr.dieLinkRequest src dst kind addr data
     let home := (region addr).map (fun r => r.home)
     let d := s.die dst
     (4 ≤ src ∨ 4 ≤ dst ∨ src = dst → exec run s = .next s) ∧
     (src < 4 → dst < 4 → src ≠ dst →
       let takes := (if kind = 3 then d.snoop else d.allow).getLsbD src = true
       (¬ takes → ∃ t, exec run s = .next t ∧ s.reportsUp t 0xFF 6 (BitVec.ofNat 64 la) (BitVec.ofNat 32 dst) ∧ t.mem = s.mem ∧ t.dies = s.dies ∧ t.groups = s.groups) ∧
       (takes → (kind < 3 → home ≠ some dst → exec run s = .next s) ∧ (kind = 3 → home ≠ some src → exec run s = .next s) ∧
         (kind = 0 → home = some dst → s.hostHolds la = false → ((s.die src).l2.find? la).isSome = true ∨ (s.die src).l2.length < Config.l2Ways →
           ∃ t, exec run s = .next t ∧ same t ∧ ((t.die src).l2.find? la).isSome = true) ∧
         (kind = 1 → home = some dst → (∀ l ∈ linesOf addr data.length, s.hostHolds l = false) → ∃ t, exec run s = .next t ∧ plain t addr data) ∧
         (kind = 2 → home = some dst → s.hostHolds la = false → addr % 128 + data.length ≤ 128 → ∃ t, exec run s = .next t ∧
           let n := data.length
           plain t addr (bytesOf n ((ofBytes ((List.range n).map (fun i => s.byteAt (addr + i))) + ofBytes data) % 2 ^ (8 * n)))) ∧
         (kind = 3 → home = some src → ∃ t, exec run s = .next t ∧ same t ∧ ∀ y, (t.die dst).l2.find? la = some y → y.dirty = false ∧ (y.pin.isSome = true ∨ y.bound ≠ 0)))))

/-- R211, R217, R221, R283. INVALIDATION waits for the accesses of the range that have translated and are not performed; then the entries are written
and every TLB has lost the translations of the range. BIAS_FLIP waits for those accesses, and on the way to device bias for the host halves of the
page too, and while it waits no lane translates on the page; then the BIAS bit of the leaf is as asked, no L2 owns a line of a page in host bias, no
host half of a page in device bias is left, and the translations of the page are dropped. Log entries 80 and 81: what a flip and an invalidation wait
for. -/
def Obligations.MappingChanges : Prop :=
  ∀ (ctx len : Nat) (va : W64) (s : State), (s.ctxs.find? ctx).isSome = true → (∀ la, s.wholeLine la) → (∀ d y la, (s.die d).l2.find? la = some y → la % 128 = 0) →
    (∀ c ∈ s.cores.vals, ∀ o ∈ c.copies.vals, ∀ la ∈ o.lines, la % 128 = 0) →
    let dropped := fun (t : State) (va : W64) (len : Nat) => (∀ c, ∀ p ∈ (t.core c).tlb, p.touches ctx va len = false) ∧ ∀ d, (∀ p ∈ (t.die d).tlb, p.touches ctx va len = false) ∧
      ∀ w ∈ (t.die d).walks, w.touches ctx va len = false
    (∀ writes, s.inFlight ctx va len = true ∨ (∃ w ∈ writes, s.bytesHeld w.1 8 = true) → exec (.invalidation ctx va len writes) s = .next s) ∧
    (∀ writes, s.inFlight ctx va len = false → (∀ w ∈ writes, s.bytesHeld w.1 8 = false) → ∃ t, exec (.invalidation ctx va len writes) s = .next t ∧ dropped t va len ∧ t.groups = s.groups) ∧
    (∀ (at' : Nat) (v : W64), s.inFlight ctx va len = false → s.bytesHeld at' 8 = false → ∃ t, exec (.invalidation ctx va len [(at', v)]) s = .next t ∧
      ∀ a, t.byteAt a = if at' ≤ a ∧ a < at' + 8 then (bytesOf 8 v.toNat).getD (a - at') 0 else s.byteAt a) ∧
    (∀ (bias : Bool) (leaf level : Nat) (p : Page), s.leafFrom va.toNat 3 (s.ctx ctx).ptroot = some (leaf, level) →
      let e := ofBytes ((List.range 8).map (fun i => s.byteAt (leaf + i)))
      leafPage ctx va.toNat level e = .page p → e % 4 = 3 →
      let base := BitVec.ofNat 64 p.va
      let size := 2 ^ p.bits
      (∀ c ∈ s.cores.vals, ∀ o ∈ c.copies.vals, o.touches ctx base size = false) →
      (s.inFlight ctx base size = true ∨ s.bytesHeld leaf 8 = true ∨ (bias = false ∧ ∃ h ∈ s.host, p.pa ≤ h.1 ∧ h.1 < p.pa + size ∧ h.2 = 2) → ∃ t, exec (.biasFlip ctx va bias) s = .next t ∧ t.mem = s.mem ∧ t.dies = s.dies ∧ t.host = s.host ∧
        t.groups = s.groups ∧ ∀ core (v : W64) kind, p.va ≤ v.toNat → v.toNat < p.va + size → t.xlate ctx core v kind = .held) ∧
      (s.inFlight ctx base size = false → s.bytesHeld leaf 8 = false → (bias = false → ∀ h ∈ s.host, p.pa ≤ h.1 → h.1 < p.pa + size → h.2 ≠ 2) → ∃ t, exec (.biasFlip ctx va bias) s = .next t ∧ dropped t base size ∧
        t.groups = s.groups ∧ (p.va, size) ∉ (t.ctx ctx).flips ∧
        (∀ a, t.byteAt a = if leaf ≤ a ∧ a < leaf + 8 then (bytesOf 8 (e % 2 ^ 50 + (if bias then 2 ^ 50 else 0) + e / 2 ^ 51 * 2 ^ 51)).getD (a - leaf) 0 else s.byteAt a) ∧
        (bias = true → ∀ d la y, d < 4 → (t.die d).l2.find? la = some y → p.pa ≤ la → la < p.pa + size → y.dirty = false) ∧
        (bias = false → ∀ h ∈ t.host, ¬ (p.pa ≤ h.1 ∧ h.1 < p.pa + size))))

/-- R218, R365, R366, R372, R375. The life of a VF. VF_BRINGUP takes a number below 64 that is neither up nor in quarantine, eight queues and a
non-empty partition that is that of another VF or apart from all others; the VF starts with a fresh key, with nothing bound, and with clear registers.
VF_TEARDOWN revokes the key at once, raises the halt lines of the VF's contexts with REASON 2, and drops what they have in flight, their pins, calls
and signals. The allowances return 100 µs later and the number 10 ms later. In between a packet with the dead tag is reported with TYPE 7, and a
reply, once its reservation is freed, with TYPE 8. Log entries 73, 74 and 75: what a VF starts with, how far work in flight goes, and the word that a
packet brings. -/
def Obligations.VirtualFunctions : Prop :=
  ∀ (vf : Nat) (s : State),
    let v := s.vf vf
    let vfIs := fun (t : State) (w : Vf) => t = { s with vfs := t.vfs } ∧ ∀ j, t.vf j = if j = vf then w else s.vf j
    (∀ (part : List Nat) (queues : List (List W64)),
      let run := Instr.vfBringup vf part queues
      let fits := vf < 64 ∧ v.alive = false ∧ v.dead = none ∧ part ≠ [] ∧ (∀ d ∈ part, d < 4) ∧ (∀ c ∈ s.ctxs.vals, c.vf ≠ vf) ∧ queues.length = 8 ∧ s.pkg.booted = true ∧
        ∀ w ∈ s.vfs.vals, w.alive = true → (∀ d, d ∈ w.dies ↔ d ∈ part) ∨ ∀ d ∈ part, d ∉ w.dies
      (¬ fits → exec run s = .next s) ∧
      (fits → ∃ t w, exec run s = .next t ∧ vfIs { t with ids := s.ids } w ∧ w.alive = true ∧ (∀ d, d ∈ w.dies ↔ d ∈ part) ∧ w.key = Config.ownerKey s.ids ∧ w.portKey = Config.portKey s.ids ∧ w.dead = none ∧
        (∀ (q : Nat) (l : List W64), queues[q]? = some l → w.queues[q]? = some (l.headD 0).toNat ∧ w.contexts[q]? = some (l.getD 1 0).toNat) ∧
        w.bound = [] ∧ w.comms = [] ∧ w.children = [] ∧ w.vues = 0 ∧ w.vmask = 0 ∧ w.vovf = 0 ∧ w.ring = Ring.empty 6)) ∧
    (v.alive = false → exec (.vfTeardown vf) s = .next s) ∧
    (v.alive = true → ∃ t, exec (.vfTeardown vf) s = .next t ∧ t.mem = s.mem ∧
      (∀ j, t.vf j = if j = vf then { v with alive := false, dead := some s.ticks, reclaimed := false, key := 0, portKey := 0, bound := [], comms := [], children := [], tails := [] } else s.vf j) ∧
      ∀ k c, s.ctxs.find? k = some c →
        (c.vf = vf → (c.halt = none → ∃ h, (t.ctx k).halt = some h ∧ h.reason = 2 ∧ h.phase = .stopping) ∧
          (∀ h, c.halt = some h → h.phase = .stopping → h.reason = 0 → (t.ctx k).halt = some { h with reason := 2 }) ∧ (t.ctx k).lockUsed = 0 ∧
          (∀ i y, t.calls.find? i = some y → y.ctx ≠ k) ∧ (∀ i y, t.signals.find? i = some y → y.ctx ≠ k) ∧ (∀ i y, t.posts.find? i = some y → y.ctx ≠ k) ∧
          (∀ d la y, (t.die d).l2.find? la = some y → y.pin ≠ some k) ∧
          (∀ n, (∀ w ∈ (t.core n).loads.vals, w.ctx ≠ k) ∧ (∀ w ∈ (t.core n).stores.vals, w.ctx ≠ k) ∧ (∀ w ∈ (t.core n).atomics.vals, w.ctx ≠ k) ∧ (∀ w ∈ (t.core n).copies.vals, w.ctx ≠ k) ∧
            (∀ w ∈ (t.core n).tileOps.vals, w.ctx ≠ k) ∧ ∀ w ∈ (t.core n).tickets.vals, (s.groups.find? w.g).isSome = true → (s.group w.g).ctx ≠ k) ∧
          ∀ n r m e, t.grids.find? n = some r → r.ctx = k → r.teams.find? m = some e → e.channels = []) ∧
        (c.vf ≠ vf → (t.ctx k).halt = c.halt ∧ (t.ctx k).lockUsed = c.lockUsed)) ∧
    (match v.dead with
      | none => exec (.allowanceReclaim vf) s = .next s ∧ exec (.quarantineEnd vf) s = .next s
      | some d =>
        (s.ticks < d + 100000 → exec (.allowanceReclaim vf) s = .next s) ∧ (d + 100000 ≤ s.ticks → ∃ t, exec (.allowanceReclaim vf) s = .next t ∧ vfIs t { v with reclaimed := true }) ∧
        (s.ticks < d + 10000000 → exec (.quarantineEnd vf) s = .next s) ∧ (d + 10000000 ≤ s.ticks → ∃ t, exec (.quarantineEnd vf) s = .next t ∧ vfIs t Vf.none)) ∧
    (∀ info : W64,
      let line := BitVec.ofNat 64 (info.toNat % 2 ^ 48 / 128 * 128)
      let ringed := fun (type : Nat) => ∃ t, exec (.deadOwnerPacket vf info) s = .next t ∧ t = { s with pkg := t.pkg } ∧ Ring.takes s.pkg.ring t.pkg.ring ⟨type, vf, severityOf type, 1, line, s.ticks, 0⟩
      (v.dead = none → exec (.deadOwnerPacket vf info) s = .next s) ∧
      (v.dead ≠ none → (info.getLsbD 63 = false → ringed 7) ∧ (info.getLsbD 63 = true → (v.reclaimed = true → ringed 8) ∧ (v.reclaimed = false → exec (.deadOwnerPacket vf info) s = .next s))))

/-- R110, R125, R129, R203, R219, R352, R355, R367, R370, R373, R374, R379, R381. The registers of the supervisor, of power firmware and of the
tenant, by the numbers of log entry 15: DFW, in which the die's own bits stay 1; VUES, whose bits a 1 clears; VOVF, cleared by any write; weights, of
which 0 stores 1; VMASK; LOCKQ, STOPA, TVEC and PTROOT of a context; the set point and RAMP; ring sizes of 2^6 to 2^16 and entries taken; a step of
CEIL at a time; endpoints; communicators of at most 4,096 ranks, 256 in a VF. Log entries 14, 46 and 70: the context of a queue, that a size write empties
a ring, and that an issue weight of 0 stores 1. -/
def Obligations.SupervisorRegisters : Prop :=
  ∀ (index : Nat) (value : W64) (w : W32) (s : State),
    let n := value.toNat
    let run := fun (reg : Nat) => exec (.registerWrite reg index value) s
    let dieIs := fun (o : Host.Outcome State Fault Refusal) (y : Die) => ∃ t, o = .next t ∧ t = { s with dies := t.dies } ∧ ∀ d, t.die d = if d = index then y else s.die d
    let vfIs := fun (o : Host.Outcome State Fault Refusal) (i : Nat) (y : Vf) => ∃ t, o = .next t ∧ t = { s with vfs := t.vfs } ∧ ∀ j, t.vf j = if j = i then y else s.vf j
    let ofVf := fun (reg i : Nat) (f : Vf → Vf) => vfIs (run reg) i (if (s.vf i).alive then f (s.vf i) else s.vf i)
    let ctxIs := fun (reg : Nat) (f : Ctx → Ctx) => ∃ t, run reg = .next t ∧ t = { s with ctxs := t.ctxs } ∧ ∀ k, t.ctxs.find? k = if k = index then (s.ctxs.find? k).map f else s.ctxs.find? k
    let pkgIs := fun (reg : Nat) (p : Package) => run reg = .next { s with pkg := p }
    let size := max 6 (min n 16)
    let comm := index % 2 ^ 32
    (4 ≤ index → exec (.dfwWrite index w) s = .next s) ∧
    (index < 4 → dieIs (exec (.dfwWrite index w) s) { s.die index with
      allow := BitVec.ofNat 4 (laneMask (fun j => j < 4 ∧ (w.getLsbD j = true ∨ j = index))), snoop := BitVec.ofNat 4 (laneMask (fun j => j < 4 ∧ (w.getLsbD (4 + j) = true ∨ j = index))) }) ∧
    ((s.vfs.find? index).isSome = true → vfIs (exec (.vuesClear index w) s) index { s.vf index with vues := (s.vf index).vues &&& ~~~w } ∧
      vfIs (exec (.vovfClear index w) s) index { s.vf index with vovf := 0 }) ∧
    pkgIs 0 { s.pkg with ramp := BitVec.ofNat 9 n } ∧
    ofVf 1 index (fun v => { v with weight := if n % 256 = 0 then 1 else n % 256 }) ∧ ofVf 2 index (fun v => { v with share := if n % 256 = 0 then 1 else n % 256 }) ∧
    ofVf 3 index (fun v => { v with vmask := BitVec.ofNat 32 n &&& 0x67E }) ∧
    (if index < 4 ∧ 1 ≤ n ∧ n ≤ 255 then dieIs (run 4) { s.die index with setPoint := n } else run 4 = .next s) ∧
    ctxIs 5 (fun c => { c with lockLimit := n % 65536 }) ∧
    ctxIs 6 (fun c => { c with stopBase := BitVec.ofNat 64 (n / 4096 * 4096), stopSize := if 13 ≤ n % 32 ∧ n % 32 ≤ 20 then n % 32 else 13 }) ∧
    ctxIs 7 (fun c => { c with entry := BitVec.ofNat 62 (n / 4), d := n % 2 = 1 }) ∧ ctxIs 8 (fun c => { c with ptroot := n / 4096 % 2 ^ 36 * 4096 }) ∧
    ofVf 9 index (fun v => { v with ring := Ring.empty size }) ∧ pkgIs 10 { s.pkg with ring := Ring.empty size } ∧
    ofVf 11 index (fun v => { v with bound := if n ∈ v.bound then v.bound else v.bound ++ [n] }) ∧ ofVf 12 index (fun v => { v with bound := v.bound.filter (fun e => e ≠ n) }) ∧
    (∀ v, s.vf (index / 2 ^ 32) = v → v.alive = true →
      (256 ≤ v.comms.length → v.comms.find? comm = none → vfIs (run 13) (index / 2 ^ 32) v) ∧
      (v.comms.length < 256 ∨ v.comms.find? comm ≠ none → vfIs (run 13) (index / 2 ^ 32) { v with comms := v.comms.put comm ⟨n, []⟩ }) ∧
      vfIs (run 14) (index / 2 ^ 32) { v with comms := v.comms.adjust comm (fun c => if 4096 ≤ c.ranks.length then c else { c with ranks := c.ranks ++ [(n / 64, n % 64)] }) } ∧
      vfIs (run 17) (index / 2 ^ 32) { v with comms := v.comms.del comm }) ∧
    (index ≠ 64 → ofVf 15 index (fun v => { v with ring := { v.ring with taken := min v.ring.written (v.ring.taken + n) } })) ∧
    (index = 64 → pkgIs 15 { s.pkg with ring := { s.pkg.ring with taken := min s.pkg.ring.written (s.pkg.ring.taken + n) } }) ∧
    ofVf 16 (index / 8) (fun v => { v with contexts := v.contexts.set (index % 8) n }) ∧
    (2560 ≤ comm → run 18 = .next s) ∧
    (comm < 2560 → ∃ t, run 18 = .next t ∧ t = { s with cores := t.cores } ∧ ∀ c, t.core c = if c = comm / 8 then { s.core c with
      tracks := (s.core c).tracks.put (comm % 8) { (s.core c).tracks.get (comm % 8) Track.reset with ceilAt := some (n, max 4 (min (index / 2 ^ 32) 16)) } } else s.core c) ∧
    ∀ reg, 18 < reg → run reg = .next s

/-- R44, R228, R245, R329, R373, R381, R384, R385. Errors and sparing. An uncorrectable memory error leaves its line poisoned, with nothing else
changed, and is reported with TYPE 2 to the ring of the line's owner, a corrected one with TYPE 1. An uncorrectable SRAM error returns the rail to
nominal, holds it there, and is contained in the slot, handle map, scratch word or line that it struck. A core that an uncontained error has struck,
or whose corrected-error rate has been over 64 times the set point for 1 s, retires once the contexts on it have halted for the supervisor, a spare
taking its number while the die has one. Spare channels, ways and lanes are taken once. Log entries 71 and 72: the numbers of the arrays, and when a core
counts as noisy. -/
def Obligations.ErrorsAndSparing : Prop :=
  (∀ (addr : Nat) (s : State),
    let la := lineOf addr
    let place := match region la with | some r => BitVec.ofNat 32 r.home | none => 0#32
    let owned := fun (type : Nat) (t : State) => match s.lineOwner la with
      | some v => s.reports t v type (BitVec.ofNat 64 la) place
      | none => s.reportsUp t 0xFF type (BitVec.ofNat 64 la) place
    (region addr = none → exec (.uncorrectableMemoryError addr) s = .next s ∧ exec (.correctedMemoryError addr) s = .next s) ∧
    (region addr ≠ none →
      (∃ t, exec (.uncorrectableMemoryError addr) s = .next t ∧ owned 2 t ∧ t.groups = s.groups ∧ t.dies = s.dies ∧ (∀ l, l ∈ t.poison ↔ l = la ∨ l ∈ s.poison) ∧
        ∀ a, lineOf a ≠ la → Memory.read t.mem a = Memory.read s.mem a) ∧
      (∃ t, exec (.correctedMemoryError addr) s = .next t ∧ owned 1 t ∧ t.groups = s.groups ∧ t.dies = s.dies ∧ t.poison = s.poison ∧ t.mem = s.mem))) ∧
  (∀ (die core array : Nat) (va : W64) (s : State),
    let n := va.toNat
    let la := lineOf n
    ∃ t, exec (.uncorrectableSramError die core array va) s = .next t ∧ t.mem = s.mem ∧ (t.die die).railDrop = 0 ∧ (t.die die).railHold = some s.ticks ∧
      (array = 0 → t.slots.find? n = (s.slots.find? n).map (fun v => { v with poison := true }) ∧ t.cores = s.cores) ∧
      (array = 1 → (s.groups.find? n).isSome = true → s.defersTo t n ⟨8, 4, 0, 0, 3, 0, 0, true⟩) ∧
      (array = 2 → n % 2 ^ 32 / 4 * 4 ∈ (t.core core).flagged.get (n / 2 ^ 32) [] ∧ t.slots = s.slots) ∧
      (array = 3 → la ∈ (t.core core).badLines ∧ t.slots = s.slots) ∧
      (array = 4 → (t.core core).l1.find? la = ((s.core core).l1.find? la).map (fun l => { l with poison := true }) ∧ t.slots = s.slots) ∧
      (array = 5 → ((s.die die).l2.find? la).isSome = true → ∃ y, (t.die die).l2.find? la = some y ∧ y.poison = true ∧ t.slots = s.slots ∧ t.cores = s.cores) ∧
      (5 < array → t = { s with dies := t.dies, cores := t.cores } ∧ (t.die die).l2 = (s.die die).l2 ∧ ∀ c, t.core c = if c = core then { s.core c with failed := true } else s.core c)) ∧
  (∀ (core : Nat) (s : State),
    let run := exec (.coreRetirement core) s
    let settled := ∀ x ∈ s.groups.vals, x.core = core → ∃ h, (s.ctx x.ctx).halt = some h ∧ h.phase = .supervisor
    let worn := (s.core core).failed = true ∨ ∃ c, (s.core core).noisy = some c ∧ c + 1000000000 ≤ s.ticks
    (320 ≤ core ∨ (s.core core).retired = true ∨ ¬ worn → run = .next s) ∧
    (core < 320 → (s.core core).retired = false → worn →
      (¬ settled → ∃ t, run = .next t ∧ t.cores = s.cores ∧ t.dies = s.dies ∧ t.mem = s.mem ∧ t.pkg = s.pkg ∧
        ∀ x ∈ s.groups.vals, x.core = core → (s.ctxs.find? x.ctx).isSome = true → (s.ctx x.ctx).halt = none → ∃ h, (t.ctx x.ctx).halt = some h ∧ h.reason = 2 ∧ h.phase = .stopping) ∧
      (settled → ∃ t, run = .next t ∧ t = { s with cores := t.cores, dies := t.dies, pkg := t.pkg, groups := t.groups } ∧
        (∀ g, (t.group g).agree (s.group g) ∧ ∀ l, t.lane g l = s.lane g l) ∧ s.reportsUp t 0xFF 2 0 (BitVec.ofNat 32 (core / 80 + core % 80 * 2 ^ 8)) ∧
        (∀ c, c ≠ core → t.core c = s.core c) ∧
        (4 ≤ (s.die (core / 80)).sparesUsed → (t.core core).retired = true ∧ t.dies = s.dies) ∧
        ((s.die (core / 80)).sparesUsed < 4 → (t.core core).retired = false ∧ (t.die (core / 80)).sparesUsed = (s.die (core / 80)).sparesUsed + 1 ∧ (t.core core).tlb = [] ∧ (t.core core).l1 = [] ∧
          (t.core core).guesses = [] ∧ (t.core core).scratch = (s.core core).scratch ∧ (t.core core).tickets = (s.core core).tickets ∧ (t.core core).stores = (s.core core).stores)))) ∧
  (∀ (die stack channel group way port dir lane : Nat) (lost : List Nat) (s : State),
    let d := s.die die
    let k := d.memStacks.get stack Stack.reset
    let spare := Instr.hbmChannelSparing die stack (channel, lost)
    let disable := Instr.llcWayDisable die (group, way)
    let place := Instr.causewayLaneSpare port (dir, lane)
    let inStack := fun (a : Nat) => a ∈ lost ∧ region a = some (.hbm die)
    let reported := fun (t : State) (what : Nat) (at' : Nat) => s.reportsUp t 0xFF (Config.sparingType what) 0 (BitVec.ofNat 32 at')
    (4 ≤ die ∨ 3 ≤ stack ∨ k.spared ≠ none → exec spare s = .next s) ∧
    (die < 4 → stack < 3 → k.spared = none → ∃ t, exec spare s = .next t ∧ reported t 0 die ∧ t.groups = s.groups ∧ t.cores = s.cores ∧
      t.die die = { d with memStacks := d.memStacks.put stack { k with spared := some channel } } ∧ (∀ l, l ∈ t.poison ↔ l ∈ s.poison ∨ ∃ a, inStack a ∧ lineOf a = l) ∧
      ∀ a, (∀ b, inStack b → lineOf b ≠ lineOf a) → Memory.read t.mem a = Memory.read s.mem a) ∧
    (4 ≤ die ∨ (group, way) ∈ d.waysOff → exec disable s = .next s) ∧
    (die < 4 → (group, way) ∉ d.waysOff → ∃ t, exec disable s = .next t ∧ t = { s with dies := t.dies, pkg := t.pkg } ∧ reported t 1 die ∧
      t.die die = { d with waysOff := d.waysOff ++ [(group, way)], llc := (t.die die).llc } ∧ ∀ la, la ∈ (t.die die).llc ↔ la ∈ d.llc ∧ ¬ (Config.llcGroup la = group ∧ Config.llcWay la = way)) ∧
    (11 < port ∨ 1 < dir ∨ (∃ l, (port, dir, l) ∈ s.pkg.lanes) → exec place s = .next s) ∧
    (port ≤ 11 → dir ≤ 1 → (∀ l, (port, dir, l) ∉ s.pkg.lanes) → ∃ t, exec place s = .next t ∧ t = { s with pkg := t.pkg } ∧ reported t 2 (port * 2 ^ 8) ∧
      t.pkg.lanes = s.pkg.lanes ++ [(port, dir, lane)]))

/-- R376, R377, R379, R380, R382, R383. Power. SET is held between 600 and 3,200; a raise reaches EFF at once and a cut by ALLOWANCE_CUT, neither
while HUNG, when EFF falls linearly over 10 ms to 40% of what it was, at least 600. A control step above EFF lowers GR by 1 to 2 on every track, and
CEIL to 4 where GR was 2 on all; one 5% or more below raises GR to 12, and CEIL to 16 where GR was 12 on all and the machine is not HUNG. Power over
EFF by more than 10% for 20 µs sets GR to 2. At a 16-clock boundary the ratio in force is the smaller of ASK and CEIL, which is 4 on a die that is too
hot. Charges add to the energy of their grids, and scaling makes them and the idle account add up to the measured energy, no counter falling. Log entries
67 and 68: the exact energy beside the counter, and that CEIL moves only after GR stands at its limit. -/
def Obligations.Power : Prop :=
  ∀ (watts mask mw core track uj : Nat) (charges : List (Nat × Nat)) (s : State),
    let p := s.pkg
    let pkgIs := fun (i : Instr) (q : Package) => exec i s = .next { s with pkg := q }
    let bottom := min p.hangEff (max 600 (p.hangEff * 2 / 5))
    let decayed := p.hangEff - (p.hangEff - bottom) * min (s.ticks - (p.phb + 2000000)) 10000000 / 10000000
    let since := fun (eff : Nat) => if eff * 1100 < mw then some (p.overSince.getD s.ticks) else none
    let tracksAre := fun (t : State) (f : Track → Track) => (∀ c, { t.core c with tracks := [] } = { s.core c with tracks := [] }) ∧
      ∀ c k, c < 320 → k < 8 → (t.core c).tracks.get k Track.reset = f ((s.core c).tracks.get k Track.reset)
    let all := fun (gr : Nat) => ∀ c k, c < 320 → k < 8 → ((s.core c).tracks.get k Track.reset).gr = gr
    let want := max 600 (min watts 3200)
    pkgIs (.pallowSetWrite watts) { p with set := want, eff := if p.hung = false ∧ p.eff < want then want else p.eff } ∧
    pkgIs (.pallowTripClear mask) { p with trip := p.trip && !mask.testBit 30 } ∧
    pkgIs .allowanceCut { p with eff := if p.hung then decayed else p.set } ∧
    pkgIs .heartbeatWrite { p with hung := false, phb := s.ticks, eff := if p.hung then max decayed p.set else p.eff } ∧
    (p.hung = true ∨ s.ticks < p.phb + 2000000 → exec .heartbeatMiss s = .next s) ∧
    (p.hung = false → p.phb + 2000000 ≤ s.ticks → pkgIs .heartbeatMiss { p with hung := true, hangEff := p.eff }) ∧
    (let eff := if p.hung then decayed else p.eff
     ∃ t, exec (.powerControlStep mw) s = .next t ∧ t = { s with cores := t.cores, pkg := t.pkg } ∧ t.pkg = { p with eff := eff, overSince := since eff } ∧
      (eff * 1000 < mw → all 2 → tracksAre t (fun u => { u with gr := max 2 (u.gr - 1), ceil := max 4 (u.ceil - 1) })) ∧
      (eff * 1000 < mw → ¬ all 2 → tracksAre t (fun u => { u with gr := max 2 (u.gr - 1) })) ∧
      (mw ≤ eff * 950 → all 12 → p.hung = false → tracksAre t (fun u => { u with gr := min 12 (u.gr + 1), ceil := min 16 (u.ceil + 1) })) ∧
      (mw ≤ eff * 950 → ¬ all 12 ∨ p.hung = true → tracksAre t (fun u => { u with gr := min 12 (u.gr + 1) })) ∧
      (eff * 950 < mw → mw ≤ eff * 1000 → t.cores = s.cores)) ∧
    (let eff := if p.hung then decayed else p.eff
     ∃ t, exec (.currentLimiter mw) s = .next t ∧ t = { s with cores := t.cores, pkg := t.pkg } ∧ t.pkg = { p with eff := eff, overSince := since eff } ∧
      (match since eff with
        | some c => (c + 20000 ≤ s.ticks → tracksAre t (fun u => { u with gr := 2 })) ∧ (s.ticks < c + 20000 → t.cores = s.cores)
        | none => t.cores = s.cores)) ∧
    (s.clocks % 16 ≠ 0 ∨ 8 ≤ track → exec (.ratioChange core track) s = .next s) ∧
    (s.clocks % 16 = 0 → track < 8 → ∃ t, exec (.ratioChange core track) s = .next t ∧
      let u := (s.core core).tracks.get track Track.reset
      let ceil := if (s.die (core / 80)).hot then 4 else u.ceil
      t = { s with cores := t.cores } ∧ (∀ c, c ≠ core → t.core c = s.core c) ∧
      t.core core = { s.core core with tracks := (s.core core).tracks.put track { u with cur := u.asks.vals.foldl min (min 16 ceil) } }) ∧
    (let boundary := s.clocks / 1024 * 1024
     let sum := fun (b : Nat → Bool) => ((charges.filter (fun q => b q.1)).map Prod.snd).sum
     (boundary ≤ p.charged → exec (.energyCharge charges) s = .next s) ∧
     (p.charged < boundary → ∃ t, exec (.energyCharge charges) s = .next t ∧ t = { s with grids := t.grids, pkg := t.pkg } ∧
      (∀ n r, s.grids.find? n = some r → (s.takesCharge n = true → charges.any (fun q => q.1 == n) = true →
          t.grids.find? n = some { r with charge := r.charge + sum (fun m => m == n), energy := max r.energy (r.exact + r.charge + sum (fun m => m == n)) }) ∧
        (s.takesCharge n = false ∨ charges.any (fun q => q.1 == n) = false → t.grids.find? n = some r)) ∧
      t.pkg = { p with charged := boundary, idle := p.idle + sum (fun m => !s.takesCharge m) })) ∧
    (let boundary := s.ticks / 1000000 * 1000000
     (boundary ≤ p.scaled → exec (.energyScaling uj) s = .next s) ∧
     (p.scaled < boundary → ∃ t, exec (.energyScaling uj) s = .next t ∧ 
      let total := p.idle + (s.grids.vals.map Grid.charge).sum
      let shares := (s.grids.vals.map (fun r => if total = 0 then 0 else r.charge * uj / total)).sum
      t = { s with grids := t.grids, pkg := { p with idle := 0, account := p.account + (uj - shares), scaled := boundary } } ∧ ∀ n r, s.grids.find? n = some r →
        let exact := r.exact + if total = 0 then 0 else r.charge * uj / total
        t.grids.find? n = some { r with charge := 0, exact := exact, energy := max r.energy exact }))

/-- R381, R382, R384, R386, R387. Rails, temperature and reset. The SRAM rail of a die falls by 5 mV, to 200 below nominal at most, where the
corrected errors are below the set point, and rises by 10 above twice the set point, but not in the second after an uncorrectable error. A stack
refreshes at 1×, 2× from 85 °C, 4× from 95 °C with a cap of 50%, of 25% from 105 °C, where TRIP is set; a step falls back once its threshold has been
missed by 3 °C for 10 ms. A die at 110 °C sets TRIP. A core whose corrected errors are over 64 times the set point is noted. A cold reset leaves the
machine as after reset, but for what stands in the agenda and the numbers used and for the spares that its tests assign, or with its ports closed
where a check fails (what the tests find is a free value, log entry 103); a rail powered down ends everything, and only a cold reset follows. Log entries
72, 76 and 77: the noise noted since the last 100 ms, what a reset keeps, and the stop after a rail is down. -/
def Obligations.RailsHeatAndReset : Prop :=
  (∀ (die n : Nat) (cores : List (Nat × Nat)) (s : State),
    let d := s.die die
    let diesAre := fun (t : State) (y : Die) => ∀ k, t.die k = if k = die then y else s.die k
    let dieIs := fun (i : Instr) (y : Die) => ∃ t, exec i s = .next t ∧ t = { s with dies := t.dies } ∧ diesAre t y
    (4 ≤ die → exec (.sramRailStep die (n, cores)) s = .next s ∧ exec (.dieThermalTrip die) s = .next s ∧ exec (.dieThermalRecovery die) s = .next s) ∧
    (die < 4 →
      (∃ t, exec (.sramRailStep die (n, cores)) s = .next t ∧ t = { s with cores := t.cores, dies := t.dies } ∧
        diesAre t { d with corrected := n, railDrop :=
          (if d.railHold.isSome then d.railDrop else if n < d.setPoint then min 200 (d.railDrop + 5) else if 2 * d.setPoint < n then d.railDrop - 10 else d.railDrop) } ∧
        ∀ c, let noisy := cores.any (fun q => q.1 == c && decide (64 * d.setPoint < q.2))
          let since := if noisy then some ((s.core c).noisy.getD (s.ticks - 100000000)) else none
          t.core c = if c / 80 = die then { s.core c with noisy := since } else s.core c) ∧
      (∃ t, exec (.dieThermalTrip die) s = .next t ∧ t = { s with dies := t.dies, pkg := { s.pkg with trip := true } } ∧ diesAre t { d with hot := true }) ∧
      (d.hot = false → exec (.dieThermalRecovery die) s = .next s) ∧
      (d.hot = true → s.pkg.hung = false → dieIs (.dieThermalRecovery die) { d with hot := false }) ∧
      (d.hot = true → s.pkg.hung = true → ∃ t, exec (.dieThermalRecovery die) s = .next t ∧ t = { s with dies := t.dies, cores := t.cores } ∧ diesAre t { d with hot := false } ∧
        ∀ c k, c / 80 = die → k < 8 → ((t.core c).tracks.get k Track.reset).ceil = min ((s.core c).tracks.get k Track.reset).ceil 4)) ∧
    dieIs (.railHoldEnd die) { d with railHold := d.railHold.bind (fun t => if t + 1000000000 ≤ s.ticks then none else some t) }) ∧
  (∀ (die stack degrees n : Nat) (s : State),
    let k := (s.die die).memStacks.get stack Stack.reset
    let step' := fun (u : Stack) (m : Nat) => (u.refresh = if m = 0 then 1 else if m = 1 then 2 else 4) ∧ u.cap = if m = 3 then 25 else if m = 2 then 50 else 100
    let threshold := fun (m : Nat) => 75 + 10 * m
    let want := if degrees < 85 then 0 else if degrees < 95 then 1 else if degrees < 105 then 2 else 3
    (4 ≤ die ∨ 3 ≤ stack → exec (.hbmTemperatureSample die stack degrees) s = .next s) ∧
    (die < 4 → stack < 3 → ∃ t u, exec (.hbmTemperatureSample die stack degrees) s = .next t ∧ t = { s with dies := t.dies, pkg := { s.pkg with trip := s.pkg.trip || want = 3 } } ∧
      (∀ e, t.die e = if e = die then { s.die die with memStacks := (s.die die).memStacks.put stack u } else s.die e) ∧ u.spared = k.spared ∧
      (∀ m, 1 ≤ m → m ≤ 3 → u.cool.find? (threshold m) = if degrees + 3 ≤ threshold m then some (k.cool.get (threshold m) s.ticks) else none) ∧
      (n ≤ 3 → step' k n →
        (n ≤ want → step' u want) ∧
        (want < n → ∃ m, want ≤ m ∧ m ≤ n ∧ step' u m ∧ (∀ j, m < j → j ≤ n → ∃ c, u.cool.find? (threshold j) = some c ∧ c + 10000000 ≤ s.ticks) ∧
          (want < m → ∀ c, u.cool.find? (threshold m) = some c → s.ticks < c + 10000000))))) ∧
  (∀ (s : State),
    let ok := Config.bringUp s.free
    let bad := Config.badCores s.free
    let channels := Config.badChannels s.free
    (∃ t, exec .coldReset s = .next t ∧ t.pkg = { State.reset.pkg with booted := ok } ∧
      { t with agenda := [], free := 0, ids := 0, cores := [], dies := [], pkg := State.reset.pkg } = State.reset ∧
      (ok = false ∨ (bad = [] ∧ channels = []) → t.cores = [] ∧ t.dies = []) ∧
      (ok = true → (∀ c, (t.core c).retired = true → c ∈ bad) ∧ (∀ d, d < 4 → (t.die d).sparesUsed = min 4 (bad.filter (fun c => decide (c < 320 ∧ c / 80 = d))).length) ∧
        ∀ q ∈ channels, q.1 < 4 → q.2.1 < 3 → (((t.die q.1).memStacks.get q.2.1 Stack.reset).spared).isSome = true)) ∧
    (∃ t, exec .railPowerDown s = .next t ∧ t.groups = [] ∧ t.grids = [] ∧ t.ctxs = [] ∧ t.calls = [] ∧ t.pkg.railsUp = false) ∧
    (s.pkg.railsUp = false → (s.agenda.head? ≠ some (.event .coldReset) → step s = .fault .noPower) ∧
      (∀ rest, s.agenda = .event .coldReset :: rest → ∃ t, step s = .next t ∧ t.pkg.railsUp = true ∧ t.agenda = rest)))
end

