-- ==== Sys2Proof/Laws/Map.lean ====
section
/-! SUPPORT. The finite maps: reading after a change, and that every change keeps the numbers strictly rising. -/

namespace Sys2Proof

variable {α : Type}

-- ## Reading after a change

@[simp] theorem Map.find?_del_self (m : Map α) (k : Nat) : (m.del k).find? k = none := by
  induction m with
  | nil => rfl
  | cons p t ih => obtain ⟨j, v⟩ := p; by_cases h : j = k <;> simp [Map.del, Map.find?, h, ih]

theorem Map.find?_del_ne (m : Map α) {j k : Nat} (h : j ≠ k) : (m.del k).find? j = m.find? j := by
  induction m with
  | nil => rfl
  | cons p t ih =>
    obtain ⟨i, v⟩ := p
    by_cases hk : i = k
    · have : ¬ i = j := fun e => h (e.symm.trans hk)
      simp [Map.del, Map.find?, hk, ih, show ¬ k = j from fun e => h e.symm]
    · by_cases hj : i = j
      · subst hj; simp [Map.del, Map.find?, hk]
      · simp [Map.del, Map.find?, hk, hj, ih]

theorem Map.find?_insert_self (m : Map α) (k : Nat) (v : α) (h : m.find? k = none) : (m.insert k v).find? k = some v := by
  induction m with
  | nil => simp [Map.insert, Map.find?]
  | cons p t ih =>
    obtain ⟨j, u⟩ := p
    have hj : ¬ j = k := by intro e; simp [Map.find?, e] at h
    have ht : Map.find? t k = none := by simpa [Map.find?, hj] using h
    by_cases hk : k < j
    · simp [Map.insert, Map.find?, hk]
    · simp [Map.insert, Map.find?, hk, hj, ih ht]

theorem Map.find?_insert_ne (m : Map α) {j k : Nat} (v : α) (h : j ≠ k) : (m.insert k v).find? j = m.find? j := by
  induction m with
  | nil => simp [Map.insert, Map.find?, Ne.symm h]
  | cons p t ih =>
    obtain ⟨i, u⟩ := p
    by_cases hk : k < i
    · simp [Map.insert, Map.find?, hk, Ne.symm h]
    · by_cases hj : i = j
      · subst hj; simp [Map.insert, Map.find?, hk]
      · simp [Map.insert, Map.find?, hk, hj, ih]

@[simp] theorem Map.find?_put_self (m : Map α) (k : Nat) (v : α) : (m.put k v).find? k = some v :=
  Map.find?_insert_self _ _ _ (Map.find?_del_self _ _)

theorem Map.find?_put_ne (m : Map α) {j k : Nat} (v : α) (h : j ≠ k) : (m.put k v).find? j = m.find? j :=
  (Map.find?_insert_ne _ _ h).trans (Map.find?_del_ne _ h)

@[simp] theorem Map.get_put_self (m : Map α) (k : Nat) (v d : α) : (m.put k v).get k d = v := by simp [Map.get]

theorem Map.get_put_ne (m : Map α) {j k : Nat} (v d : α) (h : j ≠ k) : (m.put k v).get j d = m.get j d := by
  simp [Map.get, Map.find?_put_ne m v h]

@[simp] theorem Map.get_del_self (m : Map α) (k : Nat) (d : α) : (m.del k).get k d = d := by simp [Map.get]

theorem Map.get_del_ne (m : Map α) {j k : Nat} (d : α) (h : j ≠ k) : (m.del k).get j d = m.get j d := by
  simp [Map.get, Map.find?_del_ne m h]

@[simp] theorem Map.get_upd_self (m : Map α) (k : Nat) (d : α) (f : α → α) : (m.upd k d f).get k d = f (m.get k d) := by simp [Map.upd]

theorem Map.get_upd_ne (m : Map α) {j k : Nat} (d : α) (f : α → α) (h : j ≠ k) : (m.upd k d f).get j d = m.get j d := by
  simp [Map.upd, Map.get_put_ne m _ _ h]

theorem Map.find?_adjust_self (m : Map α) (k : Nat) (f : α → α) : (m.adjust k f).find? k = (m.find? k).map f := by
  induction m with
  | nil => rfl
  | cons p t ih => obtain ⟨j, u⟩ := p; by_cases h : j = k <;> simp [Map.adjust, Map.find?, h, ih]

theorem Map.find?_adjust_ne (m : Map α) {j k : Nat} (f : α → α) (h : j ≠ k) : (m.adjust k f).find? j = m.find? j := by
  induction m with
  | nil => rfl
  | cons p t ih =>
    obtain ⟨i, u⟩ := p
    by_cases hk : i = k
    · have : ¬ k = j := fun e => h e.symm
      simp [Map.adjust, Map.find?, hk, this, ih]
    · by_cases hj : i = j
      · subst hj; simp [Map.adjust, Map.find?, hk]
      · simp [Map.adjust, Map.find?, hk, hj, ih]

@[simp] theorem Map.find?_mapVals {β : Type} (m : Map α) (f : Nat → α → β) (k : Nat) : (m.mapVals f).find? k = (m.find? k).map (f k) := by
  induction m with
  | nil => rfl
  | cons p t ih =>
    obtain ⟨j, u⟩ := p
    by_cases h : j = k
    · subst h; simp [Map.mapVals, Map.find?]
    · have := ih; simp only [Map.mapVals] at this; simp [Map.mapVals, Map.find?, h, this]

theorem Map.get_adjust_ne (m : Map α) {j k : Nat} (d : α) (f : α → α) (h : j ≠ k) : (m.adjust k f).get j d = m.get j d := by
  simp [Map.get, Map.find?_adjust_ne m f h]

theorem Map.get_adjust_self (m : Map α) (k : Nat) (d : α) (f : α → α) (h : (m.find? k).isSome) : (m.adjust k f).get k d = f (m.get k d) := by
  obtain ⟨v, hv⟩ := Option.isSome_iff_exists.1 h
  simp [Map.get, Map.find?_adjust_self, hv]

@[simp] theorem Map.keys_mapVals {β : Type} (m : Map α) (f : Nat → α → β) : (m.mapVals f).keys = m.keys := by
  simp [Map.keys, Map.mapVals, Function.comp_def]

@[simp] theorem Map.keys_adjust (m : Map α) (k : Nat) (f : α → α) : (m.adjust k f).keys = m.keys := by
  induction m with
  | nil => rfl
  | cons p t ih =>
    obtain ⟨j, u⟩ := p
    have := ih
    simp only [Map.keys] at this ⊢
    by_cases h : j = k <;> simp [Map.adjust, h, this]

-- ## The canonical form

theorem Map.rising_cons (p : Nat × α) (t : Map α) : Map.rising (p :: t) = true ↔ (∀ q ∈ t.head?, p.1 < q.1) ∧ Map.rising t = true := by
  cases t with
  | nil => simp [Map.rising]
  | cons q r => simp [Map.rising]

theorem Map.rising_lt {p : Nat × α} {t : Map α} (h : Map.rising (p :: t) = true) : ∀ q ∈ t, p.1 < q.1 := by
  induction t generalizing p with
  | nil => simp
  | cons q r ih =>
    have h' := (Map.rising_cons p _).1 h
    have hq : p.1 < q.1 := h'.1 q (by simp)
    intro x hx
    rcases List.mem_cons.1 hx with e | e
    · exact e ▸ hq
    · exact Nat.lt_trans hq (ih h'.2 x e)

theorem Map.mem_del {m : Map α} {k : Nat} {p : Nat × α} (h : p ∈ m.del k) : p ∈ m ∧ p.1 ≠ k := by
  induction m with
  | nil => simp [Map.del] at h
  | cons q t ih =>
    obtain ⟨j, v⟩ := q
    by_cases hj : j = k
    · have := ih (by simpa [Map.del, hj] using h); exact ⟨List.mem_cons_of_mem _ this.1, this.2⟩
    · rcases List.mem_cons.1 (by simpa [Map.del, hj] using h) with e | e
      · subst e; exact ⟨List.mem_cons_self .., hj⟩
      · have := ih e; exact ⟨List.mem_cons_of_mem _ this.1, this.2⟩

theorem Map.rising_of_lt {p : Nat × α} {t : Map α} (h : ∀ q ∈ t, p.1 < q.1) (ht : Map.rising t = true) : Map.rising (p :: t) = true :=
  (Map.rising_cons p t).2 ⟨fun q hq => h q (List.mem_of_mem_head? hq), ht⟩

theorem Map.rising_tail {p : Nat × α} {t : Map α} (h : Map.rising (p :: t) = true) : Map.rising t = true := ((Map.rising_cons p t).1 h).2

theorem Map.rising_del {m : Map α} (k : Nat) (h : m.rising = true) : (m.del k).rising = true := by
  induction m with
  | nil => rfl
  | cons p t ih =>
    obtain ⟨j, v⟩ := p
    by_cases hj : j = k
    · simpa [Map.del, hj] using ih (Map.rising_tail h)
    · simp only [Map.del, hj, if_false]
      exact Map.rising_of_lt (fun q hq => Map.rising_lt h q (Map.mem_del hq).1) (ih (Map.rising_tail h))

theorem Map.mem_insert {m : Map α} {k : Nat} {v : α} {p : Nat × α} (h : p ∈ m.insert k v) : p = (k, v) ∨ p ∈ m := by
  induction m with
  | nil => simpa [Map.insert] using h
  | cons q t ih =>
    obtain ⟨j, u⟩ := q
    by_cases hk : k < j
    · simpa [Map.insert, hk] using h
    · rcases List.mem_cons.1 (by simpa [Map.insert, hk] using h) with e | e
      · exact .inr (e ▸ List.mem_cons_self ..)
      · rcases ih e with e | e
        · exact .inl e
        · exact .inr (List.mem_cons_of_mem _ e)

theorem Map.rising_insert {m : Map α} (k : Nat) (v : α) (h : m.rising = true) (hk : ∀ p ∈ m, p.1 ≠ k) : (m.insert k v).rising = true := by
  induction m with
  | nil => rfl
  | cons p t ih =>
    obtain ⟨j, u⟩ := p
    by_cases hj : k < j
    · simp only [Map.insert, hj, if_true]
      refine Map.rising_of_lt (fun q hq => ?_) h
      rcases List.mem_cons.1 hq with e | e
      · exact e ▸ hj
      · exact Nat.lt_trans hj (Map.rising_lt h q e)
    · simp only [Map.insert, hj, if_false]
      refine Map.rising_of_lt (fun q hq => ?_) (ih (Map.rising_tail h) (fun p hp => hk p (List.mem_cons_of_mem _ hp)))
      rcases Map.mem_insert hq with e | e
      · subst e
        have : j ≠ k := hk (j, u) (List.mem_cons_self ..)
        show j < k
        omega
      · exact Map.rising_lt h q e

theorem Map.rising_put {m : Map α} (k : Nat) (v : α) (h : m.rising = true) : (m.put k v).rising = true :=
  Map.rising_insert k v (Map.rising_del k h) (fun _ hp => (Map.mem_del hp).2)

theorem Map.mem_put {m : Map α} {k : Nat} {v : α} {p : Nat × α} (h : p ∈ m.put k v) : p = (k, v) ∨ p ∈ m :=
  (Map.mem_insert h).imp_right (fun h => (Map.mem_del h).1)

end Sys2Proof
end

