-- ==== Sys2Proof/Laws/KeepCur.lean ====
section
/-! SUPPORT. The operations that leave the instruction in execution as it was, one lemma for each. -/

set_option linter.all false

namespace Sys2Proof.Machine

theorem foldl_cur {α : Type} (f : State → α → State) (l : List α) (s : State) (h : ∀ t a, (f t a).cur = t.cur) : (l.foldl f s).cur = s.cur := by
  induction l generalizing s with
  | nil => rfl
  | cons a l ih => exact (ih _).trans (h _ _)

theorem foldl_fst_cur {α β : Type} (f : State × β → α → State × β) (l : List α) (s : State × β) (h : ∀ t a, (f t a).1.cur = t.1.cur) : (l.foldl f s).1.cur = s.1.cur := by
  induction l generalizing s with
  | nil => rfl
  | cons a l ih => exact (ih _).trans (h _ _)

theorem foldl_snd_cur {α β : Type} (f : β × State → α → β × State) (l : List α) (s : β × State) (h : ∀ t a, (f t a).2.cur = t.2.cur) : (l.foldl f s).2.cur = s.2.cur := by
  induction l generalizing s with
  | nil => rfl
  | cons a l ih => exact (ih _).trans (h _ _)

theorem State.reportSupervisor_cur (s : State) (type vf sev : Nat) (addr : W64) (place : W32) : (State.reportSupervisor s type vf sev addr place).cur = s.cur := by
  unfold State.reportSupervisor
  repeat' (first | with_reducible rfl | intro _ | with_reducible refine (foldl_cur _ _ _ ?_).trans ?_ | dsimp only | split)

theorem State.updCore_cur (s : State) (c : Nat) (f : Core → Core) : (State.updCore s c f).cur = s.cur := by
  unfold State.updCore
  repeat' (first | with_reducible rfl | intro _ | with_reducible refine (foldl_cur _ _ _ ?_).trans ?_ | dsimp only | split)

theorem State.updDie_cur (s : State) (d : Nat) (f : Die → Die) : (State.updDie s d f).cur = s.cur := by
  unfold State.updDie
  repeat' (first | with_reducible rfl | intro _ | with_reducible refine (foldl_cur _ _ _ ?_).trans ?_ | dsimp only | split)

theorem State.countPacket_cur (s : State) (la : Nat) (conf : Bool) : (State.countPacket s la conf).cur = s.cur := by
  unfold State.countPacket
  repeat' (first | with_reducible rfl | intro _ | with_reducible refine (foldl_cur _ _ _ ?_).trans ?_ | dsimp only | split)

theorem State.writeLine_cur (s : State) (la : Nat) (data : List Byte) (poison : Bool) : (State.writeLine s la data poison).cur = s.cur := by
  unfold State.writeLine
  repeat' (first | with_reducible rfl | intro _ | with_reducible refine (foldl_cur _ _ _ ?_).trans ?_ | dsimp only | split)

theorem State.reportDies_cur (s : State) (la : Nat) (dies : List Nat) : (State.reportDies s la dies).cur = s.cur := by
  unfold State.reportDies
  repeat' (first | with_reducible rfl | intro _ | with_reducible refine (foldl_cur _ _ _ ?_).trans ?_ | with_reducible refine (State.reportSupervisor_cur _ _ _ _ _ _).trans ?_ | dsimp only | split)

theorem State.noteLlc_cur (s : State) (la : Nat) : (State.noteLlc s la).cur = s.cur := by
  unfold State.noteLlc
  repeat' (first | with_reducible rfl | intro _ | with_reducible refine (foldl_cur _ _ _ ?_).trans ?_ | with_reducible refine (State.updDie_cur _ _ _).trans ?_ | dsimp only | split)

theorem State.cleanLine_cur (s : State) (d la : Nat) : (State.cleanLine s d la).cur = s.cur := by
  unfold State.cleanLine
  repeat' (first | with_reducible rfl | intro _ | with_reducible refine (foldl_cur _ _ _ ?_).trans ?_ | with_reducible refine (State.countPacket_cur _ _ _).trans ?_ | with_reducible refine (State.noteLlc_cur _ _).trans ?_ | with_reducible refine (State.updDie_cur _ _ _).trans ?_ | with_reducible refine (State.writeLine_cur _ _ _ _).trans ?_ | dsimp only | split)

theorem State.giveBack_cur (s : State) (d la : Nat) : (State.giveBack s d la).cur = s.cur := by
  unfold State.giveBack
  repeat' (first | with_reducible rfl | intro _ | with_reducible refine (foldl_cur _ _ _ ?_).trans ?_ | with_reducible refine (State.cleanLine_cur _ _ _).trans ?_ | with_reducible refine (State.reportDies_cur _ _ _).trans ?_ | dsimp only | split)

theorem State.l2Room_cur (s : State) (d la : Nat) : (State.l2Room s d la).cur = s.cur := by
  unfold State.l2Room
  repeat' (first | with_reducible rfl | intro _ | with_reducible refine (foldl_cur _ _ _ ?_).trans ?_ | with_reducible refine (State.giveBack_cur _ _ _).trans ?_ | with_reducible refine (State.updDie_cur _ _ _).trans ?_ | dsimp only | split)

theorem State.l2Fetch_cur (s : State) (d la pol : Nat) (conf : Bool) : (State.l2Fetch s d la pol conf).cur = s.cur := by
  unfold State.l2Fetch
  repeat' (first | with_reducible rfl | intro _ | with_reducible refine (foldl_cur _ _ _ ?_).trans ?_ | with_reducible refine (State.countPacket_cur _ _ _).trans ?_ | with_reducible refine (State.l2Room_cur _ _ _).trans ?_ | with_reducible refine (State.noteLlc_cur _ _).trans ?_ | with_reducible refine (State.updDie_cur _ _ _).trans ?_ | dsimp only | split)

theorem State.readLine_cur (s : State) (d la pol : Nat) (alloc conf : Bool) : (State.readLine s d la pol alloc conf).cur = s.cur := by
  unfold State.readLine
  repeat' (first | with_reducible rfl | intro _ | with_reducible refine (foldl_cur _ _ _ ?_).trans ?_ | with_reducible refine (State.countPacket_cur _ _ _).trans ?_ | with_reducible refine (State.l2Fetch_cur _ _ _ _ _).trans ?_ | dsimp only | split)

theorem State.cleanAll_cur (s : State) (la : Nat) : (State.cleanAll s la).cur = s.cur := by
  unfold State.cleanAll
  repeat' (first | with_reducible rfl | intro _ | with_reducible refine (foldl_cur _ _ _ ?_).trans ?_ | with_reducible refine (State.cleanLine_cur _ _ _).trans ?_ | with_reducible refine (State.reportDies_cur _ _ _).trans ?_ | dsimp only | split)

theorem State.invalidateL1s_cur (s : State) (d la except : Nat) : (State.invalidateL1s s d la except).cur = s.cur := by
  unfold State.invalidateL1s
  repeat' (first | with_reducible rfl | intro _ | with_reducible refine (foldl_cur _ _ _ ?_).trans ?_ | dsimp only | split)

theorem State.homeWrite_cur (s : State) (a : Nat) (data : List Byte) (poison conf : Bool) : (State.homeWrite s a data poison conf).cur = s.cur := by
  unfold State.homeWrite
  repeat' (first | with_reducible rfl | intro _ | with_reducible refine (foldl_cur _ _ _ ?_).trans ?_ | with_reducible refine (State.countPacket_cur _ _ _).trans ?_ | dsimp only | split)

theorem State.refreshCopies_cur (s : State) (la : Nat) : (State.refreshCopies s la).cur = s.cur := by
  unfold State.refreshCopies
  repeat' (first | with_reducible rfl | intro _ | with_reducible refine (foldl_cur _ _ _ ?_).trans ?_ | with_reducible refine (State.reportDies_cur _ _ _).trans ?_ | dsimp only | split)

theorem State.l2WriteLine_cur (s : State) (d core la off : Nat) (data : List Byte) (poison : Bool) (pol : Nat) (alloc conf : Bool) : (State.l2WriteLine s d core la off data poison pol alloc conf).cur = s.cur := by
  unfold State.l2WriteLine
  repeat' (first | with_reducible rfl | intro _ | with_reducible refine (foldl_cur _ _ _ ?_).trans ?_ | with_reducible refine (State.cleanAll_cur _ _).trans ?_ | with_reducible refine (State.countPacket_cur _ _ _).trans ?_ | with_reducible refine (State.homeWrite_cur _ _ _ _ _).trans ?_ | with_reducible refine (State.invalidateL1s_cur _ _ _ _).trans ?_ | with_reducible refine (State.l2Room_cur _ _ _).trans ?_ | with_reducible refine (State.refreshCopies_cur _ _).trans ?_ | with_reducible refine (State.updDie_cur _ _ _).trans ?_ | dsimp only | split)

theorem State.l2Write_cur (s : State) (d core pol : Nat) (alloc conf : Bool) (a : Nat) (data : List Byte) (poison : Bool) : (s.l2Write d core pol alloc conf a data poison).cur = s.cur := by
  unfold State.l2Write
  split
  · rfl
  · dsimp only
    split
    · exact State.l2WriteLine_cur ..
    · exact (State.l2WriteLine_cur ..).trans (State.l2WriteLine_cur ..)

theorem State.dropCopies_cur (s : State) (d la : Nat) : (State.dropCopies s d la).cur = s.cur := by
  unfold State.dropCopies
  repeat' (first | with_reducible rfl | intro _ | with_reducible refine (foldl_cur _ _ _ ?_).trans ?_ | with_reducible refine (State.reportDies_cur _ _ _).trans ?_ | dsimp only | split)

theorem State.sysWrite_cur (s : State) (a : Nat) (data : List Byte) (poison : Bool) : (State.sysWrite s a data poison).cur = s.cur := by
  unfold State.sysWrite
  repeat' (first | with_reducible rfl | intro _ | with_reducible refine (foldl_cur _ _ _ ?_).trans ?_ | with_reducible refine (State.cleanAll_cur _ _).trans ?_ | with_reducible refine (State.refreshCopies_cur _ _).trans ?_ | dsimp only | split)

theorem State.fillTlb_cur (s : State) (ctx core : Nat) (va : W64) : (State.fillTlb s ctx core va).cur = s.cur := by
  unfold State.fillTlb
  repeat' (first | with_reducible rfl | intro _ | with_reducible refine (foldl_cur _ _ _ ?_).trans ?_ | with_reducible refine (State.updCore_cur _ _ _).trans ?_ | with_reducible refine (State.updDie_cur _ _ _).trans ?_ | dsimp only | split)

theorem State.askSupervisor_cur (s : State) (ctx : Nat) (va : W64) : (State.askSupervisor s ctx va).cur = s.cur := by
  unfold State.askSupervisor
  repeat' (first | with_reducible rfl | intro _ | with_reducible refine (foldl_cur _ _ _ ?_).trans ?_ | dsimp only | split)

theorem State.forget_cur (s : State) (ctx : Nat) (va : W64) : (State.forget s ctx va).cur = s.cur := by
  unfold State.forget
  repeat' (first | with_reducible rfl | intro _ | with_reducible refine (foldl_cur _ _ _ ?_).trans ?_ | dsimp only | split)

theorem State.updGroup_cur (s : State) (g : Nat) (f : Group → Group) : (State.updGroup s g f).cur = s.cur := by
  unfold State.updGroup
  repeat' (first | with_reducible rfl | intro _ | with_reducible refine (foldl_cur _ _ _ ?_).trans ?_ | dsimp only | split)

theorem State.mapLanes_cur (s : State) (g : Nat) (lanes : List Nat) (f : Nat → Fibre → Fibre) : (State.mapLanes s g lanes f).cur = s.cur := by
  unfold State.mapLanes
  repeat' (first | with_reducible rfl | intro _ | with_reducible refine (foldl_cur _ _ _ ?_).trans ?_ | with_reducible refine (State.updGroup_cur _ _ _).trans ?_ | dsimp only | split)

theorem State.updFibre_cur (s : State) (g lane : Nat) (f : Fibre → Fibre) : (State.updFibre s g lane f).cur = s.cur := by
  unfold State.updFibre
  repeat' (first | with_reducible rfl | intro _ | with_reducible refine (foldl_cur _ _ _ ?_).trans ?_ | with_reducible refine (State.mapLanes_cur _ _ _ _).trans ?_ | dsimp only | split)

theorem State.updGrid_cur (s : State) (n : Nat) (f : Grid → Grid) : (State.updGrid s n f).cur = s.cur := by
  unfold State.updGrid
  repeat' (first | with_reducible rfl | intro _ | with_reducible refine (foldl_cur _ _ _ ?_).trans ?_ | dsimp only | split)

theorem State.releaseHolders_cur (s : State) (g uid : Nat) (regs : List Reg) (counts : Bool) : (State.releaseHolders s g uid regs counts).cur = s.cur := by
  unfold State.releaseHolders
  repeat' (first | with_reducible rfl | intro _ | with_reducible refine (foldl_cur _ _ _ ?_).trans ?_ | with_reducible refine (State.updCore_cur _ _ _).trans ?_ | with_reducible refine (State.updGrid_cur _ _ _).trans ?_ | dsimp only | split)

theorem State.releaseFibre_cur (s : State) (g uid : Nat) : (State.releaseFibre s g uid).cur = s.cur := by
  unfold State.releaseFibre
  repeat' (first | with_reducible rfl | intro _ | with_reducible refine (foldl_cur _ _ _ ?_).trans ?_ | with_reducible refine (State.updCore_cur _ _ _).trans ?_ | with_reducible refine (State.updGrid_cur _ _ _).trans ?_ | dsimp only | split)

theorem State.settleGm_cur (s : State) (g : Nat) : (State.settleGm s g).cur = s.cur := by
  unfold State.settleGm
  repeat' (first | with_reducible rfl | intro _ | with_reducible refine (foldl_cur _ _ _ ?_).trans ?_ | with_reducible refine (State.mapLanes_cur _ _ _ _).trans ?_ | dsimp only | split)

theorem State.advance_cur (s : State) (lanes : List Nat) : (State.advance s lanes).cur = s.cur := by
  unfold State.advance
  repeat' (first | with_reducible rfl | intro _ | with_reducible refine (foldl_cur _ _ _ ?_).trans ?_ | with_reducible refine (State.mapLanes_cur _ _ _ _).trans ?_ | dsimp only | split)

theorem State.warn_cur (s : State) (w : W32) : (State.warn s w).cur = s.cur := by
  unfold State.warn
  repeat' (first | with_reducible rfl | intro _ | with_reducible refine (foldl_cur _ _ _ ?_).trans ?_ | with_reducible refine (State.updGroup_cur _ _ _).trans ?_ | dsimp only | split)

theorem State.wait_cur (s : State) (lanes : List Nat) (w : Wait) : (State.wait s lanes w).cur = s.cur := by
  unfold State.wait
  repeat' (first | with_reducible rfl | intro _ | with_reducible refine (foldl_cur _ _ _ ?_).trans ?_ | with_reducible refine (State.mapLanes_cur _ _ _ _).trans ?_ | dsimp only | split)

theorem State.dropLater_cur (s : State) (g : Nat) (h : Held) : (State.dropLater s g h).cur = s.cur := by
  unfold State.dropLater
  repeat' (first | with_reducible rfl | intro _ | with_reducible refine (foldl_cur _ _ _ ?_).trans ?_ | with_reducible refine (State.updCore_cur _ _ _).trans ?_ | dsimp only | split)

theorem State.undoHeld_cur (s : State) (g : Nat) : (State.undoHeld s g).cur = s.cur := by
  unfold State.undoHeld
  repeat' (first | with_reducible rfl | intro _ | with_reducible refine (foldl_cur _ _ _ ?_).trans ?_ | with_reducible refine (State.dropLater_cur _ _ _).trans ?_ | with_reducible refine (State.mapLanes_cur _ _ _ _).trans ?_ | with_reducible refine (State.updGroup_cur _ _ _).trans ?_ | with_reducible refine (State.wait_cur _ _ _).trans ?_ | dsimp only | split)

theorem State.scrub_cur (s : State) (la a n generation : Nat) : (State.scrub s la a n generation).cur = s.cur := by
  unfold State.scrub
  repeat' (first | with_reducible rfl | intro _ | with_reducible refine (foldl_cur _ _ _ ?_).trans ?_ | dsimp only | split)

theorem State.sealFor_cur (s : State) (generation a n : Nat) : (State.sealFor s generation a n).cur = s.cur := by
  unfold State.sealFor
  repeat' (first | with_reducible rfl | intro _ | with_reducible refine (foldl_cur _ _ _ ?_).trans ?_ | with_reducible refine (State.scrub_cur _ _ _ _ _).trans ?_ | dsimp only | split)

theorem State.seal_cur (s : State) (ctx a n : Nat) : (State.seal s ctx a n).cur = s.cur := by
  unfold State.seal
  repeat' (first | with_reducible rfl | intro _ | with_reducible refine (foldl_cur _ _ _ ?_).trans ?_ | with_reducible refine (State.sealFor_cur _ _ _ _).trans ?_ | dsimp only | split)

theorem State.reportRefused_cur (s : State) (ctx core : Nat) (lines : List Nat) : (State.reportRefused s ctx core lines).cur = s.cur := by
  unfold State.reportRefused
  repeat' (first | with_reducible rfl | intro _ | with_reducible refine (foldl_cur _ _ _ ?_).trans ?_ | with_reducible refine (State.reportSupervisor_cur _ _ _ _ _ _).trans ?_ | dsimp only | split)

theorem State.reportReads_cur (s : State) (ctx core : Nat) (lines : List Nat) : (State.reportReads s ctx core lines).cur = s.cur := by
  unfold State.reportReads
  repeat' (first | with_reducible rfl | intro _ | with_reducible refine (foldl_cur _ _ _ ?_).trans ?_ | with_reducible refine (State.reportRefused_cur _ _ _ _).trans ?_ | dsimp only | split)

theorem State.reportWrites_cur (s : State) (ctx core : Nat) (lines : List Nat) : (State.reportWrites s ctx core lines).cur = s.cur := by
  unfold State.reportWrites
  repeat' (first | with_reducible rfl | intro _ | with_reducible refine (foldl_cur _ _ _ ?_).trans ?_ | with_reducible refine (State.reportRefused_cur _ _ _ _).trans ?_ | dsimp only | split)

theorem State.reportWalk_cur (s : State) (ctx core : Nat) (va : W64) : (State.reportWalk s ctx core va).cur = s.cur := by
  unfold State.reportWalk
  repeat' (first | with_reducible rfl | intro _ | with_reducible refine (foldl_cur _ _ _ ?_).trans ?_ | with_reducible refine (State.reportReads_cur _ _ _ _).trans ?_ | dsimp only | split)

theorem State.deviceWrite_cur (s : State) (ctx : Nat) (va : W64) (data : List Byte) : (State.deviceWrite s ctx va data).cur = s.cur := by
  unfold State.deviceWrite
  repeat' (first | with_reducible rfl | intro _ | with_reducible refine (foldl_cur _ _ _ ?_).trans ?_ | with_reducible refine (State.reportWalk_cur _ _ _ _).trans ?_ | with_reducible refine (State.seal_cur _ _ _ _).trans ?_ | with_reducible refine (State.sysWrite_cur _ _ _ _).trans ?_ | dsimp only | split)

theorem State.shiftTimes_cur (s : State) (ctx : Nat) : (State.shiftTimes s ctx).cur = s.cur := by
  unfold State.shiftTimes
  repeat' (first | with_reducible rfl | intro _ | with_reducible refine (foldl_cur _ _ _ ?_).trans ?_ | with_reducible refine (State.wait_cur _ _ _).trans ?_ | dsimp only | split)

theorem State.raiseHalt_cur (s : State) (ctx reason g : Nat) (t : Trap) (lanes : List Nat) (incomplete : Bool) (epc : W64) : (State.raiseHalt s ctx reason g t lanes incomplete epc).cur = s.cur := by
  unfold State.raiseHalt
  repeat' (first | with_reducible rfl | intro _ | with_reducible refine (foldl_cur _ _ _ ?_).trans ?_ | with_reducible refine (State.shiftTimes_cur _ _).trans ?_ | dsimp only | split)

theorem State.keep_cur (s : State) (g : Nat) (t : Trap) (lanes : List Nat) : (State.keep s g t lanes).cur = s.cur := by
  unfold State.keep
  repeat' (first | with_reducible rfl | intro _ | with_reducible refine (foldl_cur _ _ _ ?_).trans ?_ | with_reducible refine (State.updGroup_cur _ _ _).trans ?_ | dsimp only | split)

theorem State.updHalt_cur (s : State) (ctx : Nat) (f : Halt → Halt) : (State.updHalt s ctx f).cur = s.cur := by
  unfold State.updHalt
  repeat' (first | with_reducible rfl | intro _ | with_reducible refine (foldl_cur _ _ _ ?_).trans ?_ | dsimp only | split)

theorem State.fault_cur (s : State) (g : Nat) (t : Trap) (lanes : List Nat) (incomplete : Bool) : (State.fault s g t lanes incomplete).cur = s.cur := by
  unfold State.fault
  repeat' (first | with_reducible rfl | intro _ | with_reducible refine (foldl_cur _ _ _ ?_).trans ?_ | with_reducible refine (State.keep_cur _ _ _ _).trans ?_ | with_reducible refine (State.raiseHalt_cur _ _ _ _ _ _ _ _).trans ?_ | with_reducible refine (State.updHalt_cur _ _ _).trans ?_ | dsimp only | split)

theorem State.precise_cur (s : State) (cause sub info eng : Nat) (lanes : List Nat) (val : W64) : (State.precise s cause sub info eng lanes val).cur = s.cur := by
  unfold State.precise
  repeat' (first | with_reducible rfl | intro _ | with_reducible refine (foldl_cur _ _ _ ?_).trans ?_ | with_reducible refine (State.fault_cur _ _ _ _ _).trans ?_ | dsimp only | split)

theorem State.walkPoison_cur (s : State) (eng field lane : Nat) (va : W64) : (State.walkPoison s eng field lane va).cur = s.cur := by
  unfold State.walkPoison
  repeat' (first | with_reducible rfl | intro _ | with_reducible refine (foldl_cur _ _ _ ?_).trans ?_ | with_reducible refine (State.precise_cur _ _ _ _ _ _ _).trans ?_ | with_reducible refine (State.reportWalk_cur _ _ _ _).trans ?_ | dsimp only | split)

theorem State.deferred_cur (s : State) (ctx g cause sub info eng lane : Nat) (val : W64) : (State.deferred s ctx g cause sub info eng lane val).cur = s.cur := by
  unfold State.deferred
  repeat' (first | with_reducible rfl | intro _ | with_reducible refine (foldl_cur _ _ _ ?_).trans ?_ | with_reducible refine (State.fault_cur _ _ _ _ _).trans ?_ | with_reducible refine (State.raiseHalt_cur _ _ _ _ _ _ _ _).trans ?_ | dsimp only | split)

theorem State.raisePending_cur (s : State) (g : Nat) : (State.raisePending s g).cur = s.cur := by
  unfold State.raisePending
  repeat' (first | with_reducible rfl | intro _ | with_reducible refine (foldl_cur _ _ _ ?_).trans ?_ | with_reducible refine (State.deferred_cur _ _ _ _ _ _ _ _ _).trans ?_ | with_reducible refine (State.fault_cur _ _ _ _ _).trans ?_ | with_reducible refine (State.raiseHalt_cur _ _ _ _ _ _ _ _).trans ?_ | with_reducible refine (State.updGroup_cur _ _ _).trans ?_ | dsimp only | split)

theorem State.report_cur (s : State) (vf type : Nat) (addr : W64) (place : W32) : (State.report s vf type addr place).cur = s.cur := by
  unfold State.report
  repeat' (first | with_reducible rfl | intro _ | with_reducible refine (foldl_cur _ _ _ ?_).trans ?_ | with_reducible refine (State.reportSupervisor_cur _ _ _ _ _ _).trans ?_ | dsimp only | split)

theorem State.writeHeader_cur (s : State) (ctx : Nat) (h : Halt) : (State.writeHeader s ctx h).cur = s.cur := by
  unfold State.writeHeader
  repeat' (first | with_reducible rfl | intro _ | with_reducible refine (foldl_cur _ _ _ ?_).trans ?_ | with_reducible refine (State.deviceWrite_cur _ _ _ _).trans ?_ | dsimp only | split)

theorem State.moveLinks_cur (s : State) (g uid : Nat) (f : Nat → Nat) : (State.moveLinks s g uid f).cur = s.cur := by
  unfold State.moveLinks
  repeat' (first | with_reducible rfl | intro _ | with_reducible refine (foldl_cur _ _ _ ?_).trans ?_ | with_reducible refine (State.updCore_cur _ _ _).trans ?_ | dsimp only | split)

theorem State.parkGroups_cur (s : State) (ctx : Nat) (but : Option Nat) : (State.parkGroups s ctx but).cur = s.cur := by
  unfold State.parkGroups
  repeat' (first | with_reducible rfl | intro _ | with_reducible refine (foldl_cur _ _ _ ?_).trans ?_ | dsimp only | split)

theorem State.unparkGroups_cur (s : State) (ctx : Nat) : (State.unparkGroups s ctx).cur = s.cur := by
  unfold State.unparkGroups
  repeat' (first | with_reducible rfl | intro _ | with_reducible refine (foldl_cur _ _ _ ?_).trans ?_ | dsimp only | split)

theorem State.enterHandler_cur (s : State) (ctx : Nat) (h : Halt) : (State.enterHandler s ctx h).cur = s.cur := by
  unfold State.enterHandler
  repeat' (first | with_reducible rfl | intro _ | with_reducible refine (foldl_cur _ _ _ ?_).trans ?_ | with_reducible refine (State.mapLanes_cur _ _ _ _).trans ?_ | with_reducible refine (State.moveLinks_cur _ _ _ _).trans ?_ | with_reducible refine (State.parkGroups_cur _ _ _).trans ?_ | with_reducible refine (State.releaseHolders_cur _ _ _ _ _).trans ?_ | with_reducible refine (State.shiftTimes_cur _ _).trans ?_ | with_reducible refine (State.undoHeld_cur _ _).trans ?_ | with_reducible refine (State.updGroup_cur _ _ _).trans ?_ | with_reducible refine (State.writeHeader_cur _ _ _).trans ?_ | dsimp only | split)

theorem State.serveLatched_cur (s : State) (ctx : Nat) : (State.serveLatched s ctx).cur = s.cur := by
  unfold State.serveLatched
  repeat' (first | with_reducible rfl | intro _ | with_reducible refine (foldl_cur _ _ _ ?_).trans ?_ | with_reducible refine (State.raiseHalt_cur _ _ _ _ _ _ _ _).trans ?_ | dsimp only | split)

theorem State.quitLanes_cur (s : State) (g : Nat) (lanes : List Nat) : (State.quitLanes s g lanes).cur = s.cur := by
  unfold State.quitLanes
  repeat' (first | with_reducible rfl | intro _ | with_reducible refine (foldl_cur _ _ _ ?_).trans ?_ | with_reducible refine (State.keep_cur _ _ _ _).trans ?_ | with_reducible refine (State.releaseFibre_cur _ _ _).trans ?_ | with_reducible refine (State.updGroup_cur _ _ _).trans ?_ | dsimp only | split)

theorem State.raiseEnded_cur (s : State) (ctx : Nat) : (State.raiseEnded s ctx).cur = s.cur := by
  unfold State.raiseEnded
  repeat' (first | with_reducible rfl | intro _ | with_reducible refine (foldl_cur _ _ _ ?_).trans ?_ | with_reducible refine (State.raiseHalt_cur _ _ _ _ _ _ _ _).trans ?_ | dsimp only | split)

theorem State.releaseHalt_cur (s : State) (ctx : Nat) : (State.releaseHalt s ctx).cur = s.cur := by
  unfold State.releaseHalt
  repeat' (first | with_reducible rfl | intro _ | with_reducible refine (foldl_cur _ _ _ ?_).trans ?_ | with_reducible refine (State.raiseEnded_cur _ _).trans ?_ | with_reducible refine (State.serveLatched_cur _ _).trans ?_ | with_reducible refine (State.unparkGroups_cur _ _).trans ?_ | with_reducible refine (State.updHalt_cur _ _ _).trans ?_ | dsimp only | split)

theorem State.endHandler_cur (s : State) (ctx g : Nat) : (State.endHandler s ctx g).cur = s.cur := by
  unfold State.endHandler
  repeat' (first | with_reducible rfl | intro _ | with_reducible refine (foldl_cur _ _ _ ?_).trans ?_ | with_reducible refine (State.releaseHalt_cur _ _).trans ?_ | with_reducible refine (State.updHalt_cur _ _ _).trans ?_ | dsimp only | split)

theorem State.leaveHandler_cur (s : State) (g : Nat) : (State.leaveHandler s g).cur = s.cur := by
  unfold State.leaveHandler
  repeat' (first | with_reducible rfl | intro _ | with_reducible refine (foldl_cur _ _ _ ?_).trans ?_ | with_reducible refine (State.endHandler_cur _ _ _).trans ?_ | with_reducible refine (State.mapLanes_cur _ _ _ _).trans ?_ | with_reducible refine (State.moveLinks_cur _ _ _ _).trans ?_ | with_reducible refine (State.quitLanes_cur _ _ _).trans ?_ | with_reducible refine (State.releaseHolders_cur _ _ _ _ _).trans ?_ | with_reducible refine (State.shiftTimes_cur _ _).trans ?_ | with_reducible refine (State.updGroup_cur _ _ _).trans ?_ | dsimp only | split)

theorem State.freeLast_cur (s : State) (old : Group) (e : Eff) (written : Fibre → List Reg) : (State.freeLast s old e written).cur = s.cur := by
  unfold State.freeLast
  repeat' (first | with_reducible rfl | intro _ | with_reducible refine (foldl_cur _ _ _ ?_).trans ?_ | with_reducible refine (State.mapLanes_cur _ _ _ _).trans ?_ | with_reducible refine (State.releaseHolders_cur _ _ _ _ _).trans ?_ | dsimp only | split)

theorem State.complete_cur (s : State) (old : Group) (e : Eff) (written : Fibre → List Reg) : (State.complete s old e written).cur = s.cur := by
  unfold State.complete
  repeat' (first | with_reducible rfl | intro _ | with_reducible refine (foldl_cur _ _ _ ?_).trans ?_ | with_reducible refine (State.advance_cur _ _).trans ?_ | with_reducible refine (State.freeLast_cur _ _ _ _).trans ?_ | with_reducible refine (State.settleGm_cur _ _).trans ?_ | dsimp only | split)

theorem State.pending_cur (s : State) (z : Alu) (old : Group) (lanes : List Nat) (flags : W32) (trap : Option (Trap × List Nat)) : (State.pending s z old lanes flags trap).cur = s.cur := by
  unfold State.pending
  repeat' (first | with_reducible rfl | intro _ | with_reducible refine (foldl_cur _ _ _ ?_).trans ?_ | with_reducible refine (State.mapLanes_cur _ _ _ _).trans ?_ | with_reducible refine (State.updCore_cur _ _ _).trans ?_ | dsimp only | split)

theorem State.alu_cur (s : State) (z : Alu) : (State.alu s z).cur = s.cur := by
  unfold State.alu
  repeat' (first | with_reducible rfl | intro _ | with_reducible refine (foldl_cur _ _ _ ?_).trans ?_ | with_reducible refine (State.complete_cur _ _ _ _).trans ?_ | with_reducible refine (State.fault_cur _ _ _ _ _).trans ?_ | with_reducible refine (State.mapLanes_cur _ _ _ _).trans ?_ | with_reducible refine (State.pending_cur _ _ _ _ _ _).trans ?_ | with_reducible refine (State.releaseHolders_cur _ _ _ _ _).trans ?_ | with_reducible refine (State.warn_cur _ _).trans ?_ | dsimp only | split)

theorem State.acquireL1_cur (s : State) (core scope : Nat) (teamCores : Nat) : (State.acquireL1 s core scope teamCores).cur = s.cur := by
  unfold State.acquireL1
  repeat' (first | with_reducible rfl | intro _ | with_reducible refine (foldl_cur _ _ _ ?_).trans ?_ | with_reducible refine (State.updCore_cur _ _ _).trans ?_ | dsimp only | split)

theorem State.updTeam_cur (s : State) (x : Group) (f : Team → Team) : (State.updTeam s x f).cur = s.cur := by
  unfold State.updTeam
  repeat' (first | with_reducible rfl | intro _ | with_reducible refine (foldl_cur _ _ _ ?_).trans ?_ | with_reducible refine (State.updGrid_cur _ _ _).trans ?_ | dsimp only | split)

theorem State.checkGroup_cur (s : State) (g : Nat) : (State.checkGroup s g).cur = s.cur := by
  unfold State.checkGroup
  repeat' (first | with_reducible rfl | intro _ | with_reducible refine (foldl_cur _ _ _ ?_).trans ?_ | with_reducible refine (State.acquireL1_cur _ _ _ _).trans ?_ | with_reducible refine (State.mapLanes_cur _ _ _ _).trans ?_ | with_reducible refine (State.updGroup_cur _ _ _).trans ?_ | with_reducible refine (State.wait_cur _ _ _).trans ?_ | dsimp only | split)

theorem State.checkTeam_cur (s : State) (g : Nat) : (State.checkTeam s g).cur = s.cur := by
  unfold State.checkTeam
  repeat' (first | with_reducible rfl | intro _ | with_reducible refine (foldl_cur _ _ _ ?_).trans ?_ | with_reducible refine (State.acquireL1_cur _ _ _ _).trans ?_ | with_reducible refine (State.updTeam_cur _ _ _).trans ?_ | dsimp only | split)

theorem State.checkGrid_cur (s : State) (grid : Nat) : (State.checkGrid s grid).cur = s.cur := by
  unfold State.checkGrid
  repeat' (first | with_reducible rfl | intro _ | with_reducible refine (foldl_cur _ _ _ ?_).trans ?_ | with_reducible refine (State.updGrid_cur _ _ _).trans ?_ | dsimp only | split)

theorem State.checkBarriers_cur (s : State) (g : Nat) : (State.checkBarriers s g).cur = s.cur := by
  unfold State.checkBarriers
  repeat' (first | with_reducible rfl | intro _ | with_reducible refine (foldl_cur _ _ _ ?_).trans ?_ | with_reducible refine (State.checkGrid_cur _ _).trans ?_ | with_reducible refine (State.checkGroup_cur _ _).trans ?_ | with_reducible refine (State.checkTeam_cur _ _).trans ?_ | dsimp only | split)

theorem State.checkContext_cur (s : State) (ctx : Nat) : (State.checkContext s ctx).cur = s.cur := by
  unfold State.checkContext
  repeat' (first | with_reducible rfl | intro _ | with_reducible refine (foldl_cur _ _ _ ?_).trans ?_ | with_reducible refine (State.checkBarriers_cur _ _).trans ?_ | dsimp only | split)

theorem State.checkReturn_cur (s : State) (g : Nat) : (State.checkReturn s g).cur = s.cur := by
  unfold State.checkReturn
  repeat' (first | with_reducible rfl | intro _ | with_reducible refine (foldl_cur _ _ _ ?_).trans ?_ | with_reducible refine (State.checkBarriers_cur _ _).trans ?_ | with_reducible refine (State.checkContext_cur _ _).trans ?_ | with_reducible refine (State.leaveHandler_cur _ _).trans ?_ | with_reducible refine (State.wait_cur _ _ _).trans ?_ | dsimp only | split)

theorem State.pushStore_cur (s : State) (core : Nat) (t : Store) : (State.pushStore s core t).cur = s.cur := by
  unfold State.pushStore
  repeat' (first | with_reducible rfl | intro _ | with_reducible refine (foldl_cur _ _ _ ?_).trans ?_ | with_reducible refine (State.updCore_cur _ _ _).trans ?_ | dsimp only | split)

theorem State.portTake_cur (s : State) (ctx core n : Nat) (a : Ask) : (State.portTake s ctx core n a).cur = s.cur := by
  unfold State.portTake
  repeat' (first | with_reducible rfl | intro _ | with_reducible refine (foldl_cur _ _ _ ?_).trans ?_ | with_reducible refine (State.updCore_cur _ _ _).trans ?_ | dsimp only | split)

theorem State.portQueue_cur (s : State) (ctx core n : Nat) (a : Ask) : (State.portQueue s ctx core n a).cur = s.cur := by
  unfold State.portQueue
  repeat' (first | with_reducible rfl | intro _ | with_reducible refine (foldl_cur _ _ _ ?_).trans ?_ | with_reducible refine (State.updCore_cur _ _ _).trans ?_ | dsimp only | split)

theorem State.port_cur (s : State) (ctx core n : Nat) (a : Ask) : (s.port ctx core n a).1.cur = s.cur := by
  unfold State.port
  split
  · exact State.portTake_cur ..
  · exact State.portQueue_cur ..

theorem State.reportDead_cur (s : State) (ctx core : Nat) (lines : List Nat) : (State.reportDead s ctx core lines).cur = s.cur := by
  unfold State.reportDead
  repeat' (first | with_reducible rfl | intro _ | with_reducible refine (foldl_cur _ _ _ ?_).trans ?_ | with_reducible refine (State.reportSupervisor_cur _ _ _ _ _ _).trans ?_ | dsimp only | split)

theorem State.dropRequests_cur (s : State) (ctx core : Nat) : (State.dropRequests s ctx core).cur = s.cur := by
  unfold State.dropRequests
  repeat' (first | with_reducible rfl | intro _ | with_reducible refine (foldl_cur _ _ _ ?_).trans ?_ | with_reducible refine (State.forget_cur _ _ _).trans ?_ | with_reducible refine (State.reportDead_cur _ _ _ _).trans ?_ | with_reducible refine (State.updCore_cur _ _ _).trans ?_ | dsimp only | split)

theorem State.send_cur (s : State) (ctx core n : Nat) (a : Ask) (go : State → State) (hgo : ∀ x0, (go x0).cur = x0.cur) : (State.send s ctx core n a go).cur = s.cur := by
  unfold State.send
  repeat' (first | with_reducible rfl | intro _ | with_reducible refine (foldl_cur _ _ _ ?_).trans ?_ | with_reducible refine (State.dropRequests_cur _ _ _).trans ?_ | with_reducible refine (State.port_cur _ _ _ _ _).trans ?_ | with_reducible refine (hgo _).trans ?_ | dsimp only | split)

theorem State.throughPort_cur (s : State) (ctx core n : Nat) (go : State → State) (hgo : ∀ x0, (go x0).cur = x0.cur) : (State.throughPort s ctx core n go).cur = s.cur := by
  unfold State.throughPort
  repeat' (first | with_reducible rfl | intro _ | with_reducible refine (foldl_cur _ _ _ ?_).trans ?_ | with_reducible refine (State.send_cur _ _ _ _ _ _ ?_).trans ?_ | with_reducible refine (hgo _).trans ?_ | dsimp only | split)

theorem State.waitReplay_cur (s : State) (ctx : Nat) (addrs : List (Nat × W64)) (faulting : List Nat) : (State.waitReplay s ctx addrs faulting).cur = s.cur := by
  unfold State.waitReplay
  repeat' (first | with_reducible rfl | intro _ | with_reducible refine (foldl_cur _ _ _ ?_).trans ?_ | with_reducible refine (State.askSupervisor_cur _ _ _).trans ?_ | with_reducible refine (State.wait_cur _ _ _).trans ?_ | dsimp only | split)

theorem State.suspend_cur (s : State) (i : Instr) (e : Eff) (load : Bool) (dst : Fibre → List Reg) (ctx : Nat) (addrs : List (Nat × W64)) (faulting : List Nat) : (State.suspend s i e load dst ctx addrs faulting).cur = s.cur := by
  unfold State.suspend
  repeat' (first | with_reducible rfl | intro _ | with_reducible refine (foldl_cur _ _ _ ?_).trans ?_ | with_reducible refine (State.advance_cur _ _).trans ?_ | with_reducible refine (State.askSupervisor_cur _ _ _).trans ?_ | with_reducible refine (State.keep_cur _ _ _ _).trans ?_ | with_reducible refine (State.mapLanes_cur _ _ _ _).trans ?_ | with_reducible refine (State.updGroup_cur _ _ _).trans ?_ | dsimp only | split)

theorem State.claimScratch_cur (s : State) (core ctx : Nat) (keep : List Nat) : (State.claimScratch s core ctx keep).cur = s.cur := by
  unfold State.claimScratch
  repeat' (first | with_reducible rfl | intro _ | with_reducible refine (foldl_cur _ _ _ ?_).trans ?_ | with_reducible refine (State.keep_cur _ _ _ _).trans ?_ | with_reducible refine (State.updCore_cur _ _ _).trans ?_ | dsimp only | split)

theorem State.recallScratch_cur (s : State) (core ctx off n : Nat) : (State.recallScratch s core ctx off n).cur = s.cur := by
  unfold State.recallScratch
  repeat' (first | with_reducible rfl | intro _ | with_reducible refine (foldl_cur _ _ _ ?_).trans ?_ | with_reducible refine (State.claimScratch_cur _ _ _ _).trans ?_ | with_reducible refine (State.updCore_cur _ _ _).trans ?_ | dsimp only | split)

theorem State.patchL1_cur (s : State) (core a : Nat) (data : List Byte) (poison : Bool) : (State.patchL1 s core a data poison).cur = s.cur := by
  unfold State.patchL1
  repeat' (first | with_reducible rfl | intro _ | with_reducible refine (foldl_cur _ _ _ ?_).trans ?_ | with_reducible refine (State.updCore_cur _ _ _).trans ?_ | dsimp only | split)

theorem State.sample_cur (s : State) (core g la : Nat) : (State.sample s core g la).cur = s.cur := by
  unfold State.sample
  repeat' (first | with_reducible rfl | intro _ | with_reducible refine (foldl_cur _ _ _ ?_).trans ?_ | with_reducible refine (State.updGroup_cur _ _ _).trans ?_ | dsimp only | split)

theorem State.install_cur (s : State) (core la : Nat) (l : L1Line) (g pol : Nat) : (State.install s core la l g pol).cur = s.cur := by
  unfold State.install
  repeat' (first | with_reducible rfl | intro _ | with_reducible refine (foldl_cur _ _ _ ?_).trans ?_ | with_reducible refine (State.keep_cur _ _ _ _).trans ?_ | with_reducible refine (State.updCore_cur _ _ _).trans ?_ | with_reducible refine (State.updGroup_cur _ _ _).trans ?_ | dsimp only | split)

theorem State.allocL1_cur (s : State) (core la g pol : Nat) (l1 : Bool) : (State.allocL1 s core la g pol l1).cur = s.cur := by
  unfold State.allocL1
  repeat' (first | with_reducible rfl | intro _ | with_reducible refine (foldl_cur _ _ _ ?_).trans ?_ | with_reducible refine (State.install_cur _ _ _ _ _ _).trans ?_ | with_reducible refine (State.updCore_cur _ _ _).trans ?_ | dsimp only | split)

theorem State.plain_cur (s : State) (i : Instr) (go : Eff → State → State) (hgo : ∀ x0 x1, (go x0 x1).cur = x1.cur) : (State.plain s i go).cur = s.cur := by
  unfold State.plain
  repeat' (first | with_reducible rfl | intro _ | with_reducible refine (foldl_cur _ _ _ ?_).trans ?_ | with_reducible refine (State.warn_cur _ _).trans ?_ | with_reducible refine (hgo _ _).trans ?_ | dsimp only | split)

theorem State.only_cur (s : State) (i : Instr) : (State.only s i).cur = s.cur := by
  unfold State.only
  repeat' (first | with_reducible rfl | intro _ | with_reducible refine (foldl_cur _ _ _ ?_).trans ?_ | with_reducible refine (State.complete_cur _ _ _ _).trans ?_ | with_reducible refine (State.plain_cur _ _ _ ?_).trans ?_ | dsimp only | split)

theorem State.jump_cur (s : State) (target : Nat → Fibre → W64) : (State.jump s target).cur = s.cur := by
  unfold State.jump
  repeat' (first | with_reducible rfl | intro _ | with_reducible refine (foldl_cur _ _ _ ?_).trans ?_ | with_reducible refine (State.mapLanes_cur _ _ _ _).trans ?_ | with_reducible refine (State.wait_cur _ _ _).trans ?_ | dsimp only | split)

theorem State.call_cur (s : State) (target : Nat → W64) (last : State → State) (hlast : ∀ x0, (last x0).cur = x0.cur) : (State.call s target last).cur = s.cur := by
  unfold State.call
  repeat' (first | with_reducible rfl | intro _ | with_reducible refine (foldl_cur _ _ _ ?_).trans ?_ | with_reducible refine (State.fillTlb_cur _ _ _ _).trans ?_ | with_reducible refine (State.forget_cur _ _ _).trans ?_ | with_reducible refine (State.mapLanes_cur _ _ _ _).trans ?_ | with_reducible refine (State.precise_cur _ _ _ _ _ _ _).trans ?_ | with_reducible refine (State.pushStore_cur _ _ _).trans ?_ | with_reducible refine (State.sample_cur _ _ _ _).trans ?_ | with_reducible refine (State.wait_cur _ _ _).trans ?_ | with_reducible refine (State.waitReplay_cur _ _ _ _).trans ?_ | with_reducible refine (State.walkPoison_cur _ _ _ _ _).trans ?_ | with_reducible refine (hlast _).trans ?_ | dsimp only | split)

theorem State.fillL1_cur (s : State) (core g la : Nat) (p : Page) : (State.fillL1 s core g la p).cur = s.cur := by
  unfold State.fillL1
  repeat' (first | with_reducible rfl | intro _ | with_reducible refine (foldl_cur _ _ _ ?_).trans ?_ | with_reducible refine (State.allocL1_cur _ _ _ _ _ _).trans ?_ | with_reducible refine (State.countPacket_cur _ _ _).trans ?_ | with_reducible refine (State.readLine_cur _ _ _ _ _ _).trans ?_ | with_reducible refine (State.sample_cur _ _ _ _).trans ?_ | dsimp only | split)

theorem State.releaseJunction_cur (s : State) (g : Nat) (pc : W64) : (State.releaseJunction s g pc).cur = s.cur := by
  unfold State.releaseJunction
  repeat' (first | with_reducible rfl | intro _ | with_reducible refine (foldl_cur _ _ _ ?_).trans ?_ | with_reducible refine (State.mapLanes_cur _ _ _ _).trans ?_ | dsimp only | split)

theorem State.illegalHere_cur (s : State) (info : Nat) : (State.illegalHere s info).cur = s.cur := by
  unfold State.illegalHere
  repeat' (first | with_reducible rfl | intro _ | with_reducible refine (foldl_cur _ _ _ ?_).trans ?_ | with_reducible refine (State.precise_cur _ _ _ _ _ _ _).trans ?_ | dsimp only | split)

theorem State.copyHolders_cur (s : State) (core g uid new : Nat) : (State.copyHolders s core g uid new).cur = s.cur := by
  unfold State.copyHolders
  repeat' (first | with_reducible rfl | intro _ | with_reducible refine (foldl_cur _ _ _ ?_).trans ?_ | with_reducible refine (State.updCore_cur _ _ _).trans ?_ | dsimp only | split)

theorem State.forkOne_cur (s : State) (f : BitVec 3) (d a b : BitVec 7) (x : Group) (lane : Nat) : (State.forkOne s f d a b x lane).cur = s.cur := by
  unfold State.forkOne
  repeat' (first | with_reducible rfl | intro _ | with_reducible refine (foldl_cur _ _ _ ?_).trans ?_ | with_reducible refine (State.copyHolders_cur _ _ _ _ _).trans ?_ | with_reducible refine (State.releaseHolders_cur _ _ _ _ _).trans ?_ | with_reducible refine (State.updFibre_cur _ _ _ _).trans ?_ | with_reducible refine (State.updGroup_cur _ _ _).trans ?_ | dsimp only | split)

theorem State.zeroMasked_cur (s : State) (e : Eff) (act : List Nat) (d : Dst) (old : Group) : (State.zeroMasked s e act d old).cur = s.cur := by
  unfold State.zeroMasked
  repeat' (first | with_reducible rfl | intro _ | with_reducible refine (foldl_cur _ _ _ ?_).trans ?_ | with_reducible refine (State.mapLanes_cur _ _ _ _).trans ?_ | with_reducible refine (State.releaseHolders_cur _ _ _ _ _).trans ?_ | dsimp only | split)

theorem State.window_cur (s : State) (e : Eff) (base : Fibre → Int) (req : Fibre → W64) : (State.window s e base req).cur = s.cur := by
  unfold State.window
  repeat' (first | with_reducible rfl | intro _ | with_reducible refine (foldl_cur _ _ _ ?_).trans ?_ | with_reducible refine (State.complete_cur _ _ _ _).trans ?_ | with_reducible refine (State.mapLanes_cur _ _ _ _).trans ?_ | with_reducible refine (State.precise_cur _ _ _ _ _ _ _).trans ?_ | dsimp only | split)

theorem State.setDest_cur (s : State) (d : Dst) (v : Nat → Fibre → Val) : (State.setDest s d v).cur = s.cur := by
  unfold State.setDest
  repeat' (first | with_reducible rfl | intro _ | with_reducible refine (foldl_cur _ _ _ ?_).trans ?_ | with_reducible refine (State.mapLanes_cur _ _ _ _).trans ?_ | with_reducible refine (State.releaseHolders_cur _ _ _ _ _).trans ?_ | dsimp only | split)

theorem State.writeSys_cur (s : State) (n lane : Nat) (v : W64) : (State.writeSys s n lane v).cur = s.cur := by
  unfold State.writeSys
  repeat' (first | with_reducible rfl | intro _ | with_reducible refine (foldl_cur _ _ _ ?_).trans ?_ | with_reducible refine (State.releaseHolders_cur _ _ _ _ _).trans ?_ | with_reducible refine (State.updFibre_cur _ _ _ _).trans ?_ | with_reducible refine (State.updGroup_cur _ _ _).trans ?_ | dsimp only | split)

theorem State.retireResult_cur (s : State) (core id : Nat) : (State.retireResult s core id).cur = s.cur := by
  unfold State.retireResult
  repeat' (first | with_reducible rfl | intro _ | with_reducible refine (foldl_cur _ _ _ ?_).trans ?_ | with_reducible refine (State.fault_cur _ _ _ _ _).trans ?_ | with_reducible refine (State.updCore_cur _ _ _).trans ?_ | with_reducible refine (State.updFibre_cur _ _ _ _).trans ?_ | with_reducible refine (State.updGroup_cur _ _ _).trans ?_ | dsimp only | split)

theorem State.freezeTiles_cur (s : State) (ctx core : Nat) : (State.freezeTiles s ctx core).cur = s.cur := by
  unfold State.freezeTiles
  repeat' (first | with_reducible rfl | intro _ | with_reducible refine (foldl_cur _ _ _ ?_).trans ?_ | dsimp only | split)

theorem State.writeStops_cur (s : State) (ctx : Nat) (l : List Stop) (first : Nat) : (State.writeStops s ctx l first).cur = s.cur := by
  unfold State.writeStops
  repeat' (first | with_reducible rfl | intro _ | with_reducible refine (foldl_cur _ _ _ ?_).trans ?_ | with_reducible refine (State.deviceWrite_cur _ _ _ _).trans ?_ | dsimp only | split)

theorem State.updLoad_cur (s : State) (core id : Nat) (f : Load → Load) : (State.updLoad s core id f).cur = s.cur := by
  unfold State.updLoad
  repeat' (first | with_reducible rfl | intro _ | with_reducible refine (foldl_cur _ _ _ ?_).trans ?_ | with_reducible refine (State.updCore_cur _ _ _).trans ?_ | dsimp only | split)

theorem State.updLane_cur (s : State) (core id lane : Nat) (f : LaneLoad → LaneLoad) : (State.updLane s core id lane f).cur = s.cur := by
  unfold State.updLane
  repeat' (first | with_reducible rfl | intro _ | with_reducible refine (foldl_cur _ _ _ ?_).trans ?_ | with_reducible refine (State.updLoad_cur _ _ _ _).trans ?_ | dsimp only | split)

theorem State.landReg_cur (s : State) (g lane uid : Nat) (r : Option Reg) (form : LoadForm) (v : Val) : (State.landReg s g lane uid r form v).cur = s.cur := by
  unfold State.landReg
  repeat' (first | with_reducible rfl | intro _ | with_reducible refine (foldl_cur _ _ _ ?_).trans ?_ | with_reducible refine (State.releaseHolders_cur _ _ _ _ _).trans ?_ | with_reducible refine (State.updFibre_cur _ _ _ _).trans ?_ | dsimp only | split)

theorem State.updateGuess_cur (s : State) (core : Nat) (l : Load) : (State.updateGuess s core l).cur = s.cur := by
  unfold State.updateGuess
  repeat' (first | with_reducible rfl | intro _ | with_reducible refine (foldl_cur _ _ _ ?_).trans ?_ | with_reducible refine (State.updCore_cur _ _ _).trans ?_ | dsimp only | split)

theorem State.settleLoad_cur (s : State) (core id : Nat) (was : Bool) : (State.settleLoad s core id was).cur = s.cur := by
  unfold State.settleLoad
  repeat' (first | with_reducible rfl | intro _ | with_reducible refine (foldl_cur _ _ _ ?_).trans ?_ | with_reducible refine (State.updCore_cur _ _ _).trans ?_ | with_reducible refine (State.updGroup_cur _ _ _).trans ?_ | with_reducible refine (State.updLoad_cur _ _ _ _).trans ?_ | with_reducible refine (State.updateGuess_cur _ _ _).trans ?_ | dsimp only | split)

theorem State.takeTicket_cur (s : State) (core id : Nat) (l : Load) (lane : Nat) (e : LaneLoad) : (State.takeTicket s core id l lane e).cur = s.cur := by
  unfold State.takeTicket
  repeat' (first | with_reducible rfl | intro _ | with_reducible refine (foldl_cur _ _ _ ?_).trans ?_ | with_reducible refine (State.landReg_cur _ _ _ _ _ _ _).trans ?_ | with_reducible refine (State.updCore_cur _ _ _).trans ?_ | with_reducible refine (State.updLane_cur _ _ _ _ _).trans ?_ | dsimp only | split)

theorem State.expire_cur (s : State) (core id limit : Nat) : (State.expire s core id limit).cur = s.cur := by
  unfold State.expire
  repeat' (first | with_reducible rfl | intro _ | with_reducible refine (foldl_cur _ _ _ ?_).trans ?_ | with_reducible refine (State.landReg_cur _ _ _ _ _ _ _).trans ?_ | with_reducible refine (State.settleLoad_cur _ _ _ _).trans ?_ | with_reducible refine (State.takeTicket_cur _ _ _ _ _ _).trans ?_ | with_reducible refine (State.updLane_cur _ _ _ _ _).trans ?_ | dsimp only | split)

theorem State.truthFor_cur (s : State) (core ticket v : Nat) (p : Bool) : (State.truthFor s core ticket v p).cur = s.cur := by
  unfold State.truthFor
  repeat' (first | with_reducible rfl | intro _ | with_reducible refine (foldl_cur _ _ _ ?_).trans ?_ | with_reducible refine (State.mapLanes_cur _ _ _ _).trans ?_ | with_reducible refine (State.updCore_cur _ _ _).trans ?_ | dsimp only | split)

theorem State.unhookAfter_cur (s : State) (core g uid seq : Nat) : (State.unhookAfter s core g uid seq).cur = s.cur := by
  unfold State.unhookAfter
  repeat' (first | with_reducible rfl | intro _ | with_reducible refine (foldl_cur _ _ _ ?_).trans ?_ | with_reducible refine (State.updCore_cur _ _ _).trans ?_ | dsimp only | split)

theorem State.deliver_cur (s : State) (core id lane v : Nat) (p : Bool) : (State.deliver s core id lane v p).cur = s.cur := by
  unfold State.deliver
  repeat' (first | with_reducible rfl | intro _ | with_reducible refine (foldl_cur _ _ _ ?_).trans ?_ | with_reducible refine (State.acquireL1_cur _ _ _ _).trans ?_ | with_reducible refine (State.expire_cur _ _ _ _).trans ?_ | with_reducible refine (State.landReg_cur _ _ _ _ _ _ _).trans ?_ | with_reducible refine (State.settleGm_cur _ _).trans ?_ | with_reducible refine (State.settleLoad_cur _ _ _ _).trans ?_ | with_reducible refine (State.truthFor_cur _ _ _ _ _).trans ?_ | with_reducible refine (State.unhookAfter_cur _ _ _ _ _).trans ?_ | with_reducible refine (State.updLane_cur _ _ _ _ _).trans ?_ | dsimp only | split)

theorem State.unhook_cur (s : State) (core la uid : Nat) : (State.unhook s core la uid).cur = s.cur := by
  unfold State.unhook
  repeat' (first | with_reducible rfl | intro _ | with_reducible refine (foldl_cur _ _ _ ?_).trans ?_ | with_reducible refine (State.updCore_cur _ _ _).trans ?_ | dsimp only | split)

theorem State.arrive_cur (s : State) (core id lane : Nat) : (State.arrive s core id lane).cur = s.cur := by
  unfold State.arrive
  repeat' (first | with_reducible rfl | intro _ | with_reducible refine (foldl_cur _ _ _ ?_).trans ?_ | with_reducible refine (State.allocL1_cur _ _ _ _ _ _).trans ?_ | with_reducible refine (State.countPacket_cur _ _ _).trans ?_ | with_reducible refine (State.deliver_cur _ _ _ _ _ _).trans ?_ | with_reducible refine (State.readLine_cur _ _ _ _ _ _).trans ?_ | with_reducible refine (State.recallScratch_cur _ _ _ _ _).trans ?_ | with_reducible refine (State.reportReads_cur _ _ _ _).trans ?_ | with_reducible refine (State.send_cur _ _ _ _ _ _ ?_).trans ?_ | with_reducible refine (State.unhook_cur _ _ _ _).trans ?_ | dsimp only | split)

theorem State.memFault_cur (s : State) (ctx eng info lane sub : Nat) (va : W64) : (State.memFault s ctx eng info lane sub va).cur = s.cur := by
  unfold State.memFault
  repeat' (first | with_reducible rfl | intro _ | with_reducible refine (foldl_cur _ _ _ ?_).trans ?_ | with_reducible refine (State.forget_cur _ _ _).trans ?_ | with_reducible refine (State.precise_cur _ _ _ _ _ _ _).trans ?_ | dsimp only | split)

theorem State.askFills_cur (s : State) (core id : Nat) : (State.askFills s core id).cur = s.cur := by
  unfold State.askFills
  repeat' (first | with_reducible rfl | intro _ | with_reducible refine (foldl_cur _ _ _ ?_).trans ?_ | with_reducible refine (State.install_cur _ _ _ _ _ _).trans ?_ | with_reducible refine (State.sample_cur _ _ _ _).trans ?_ | with_reducible refine (State.updCore_cur _ _ _).trans ?_ | with_reducible refine (State.updLane_cur _ _ _ _ _).trans ?_ | dsimp only | split)

theorem State.maskedOff_cur (s : State) (e : Eff) (act : List Nat) (d : Dst) (old : Group) : (State.maskedOff s e act d old).cur = s.cur := by
  unfold State.maskedOff
  repeat' (first | with_reducible rfl | intro _ | with_reducible refine (foldl_cur _ _ _ ?_).trans ?_ | with_reducible refine (State.mapLanes_cur _ _ _ _).trans ?_ | with_reducible refine (State.zeroMasked_cur _ _ _ _ _).trans ?_ | dsimp only | split)

theorem State.sendLoad_cur (s : State) (z : LoadIns) (e : Eff) (x : Group) (act : List Nat) (pas : List (Nat × Nat × Page)) (addr : Nat → Val) : (State.sendLoad s z e x act pas addr).cur = s.cur := by
  unfold State.sendLoad
  repeat' (first | with_reducible rfl | intro _ | with_reducible refine (foldl_cur _ _ _ ?_).trans ?_ | with_reducible refine (State.askFills_cur _ _ _).trans ?_ | with_reducible refine (State.landReg_cur _ _ _ _ _ _ _).trans ?_ | with_reducible refine (State.mapLanes_cur _ _ _ _).trans ?_ | with_reducible refine (State.settleLoad_cur _ _ _ _).trans ?_ | with_reducible refine (State.updCore_cur _ _ _).trans ?_ | with_reducible refine (State.updGroup_cur _ _ _).trans ?_ | with_reducible refine (State.updLane_cur _ _ _ _ _).trans ?_ | dsimp only | split)

theorem State.load_cur (s : State) (z : LoadIns) : (State.load s z).cur = s.cur := by
  unfold State.load
  repeat' (first | with_reducible rfl | intro _ | with_reducible refine (foldl_cur _ _ _ ?_).trans ?_ | with_reducible refine (State.complete_cur _ _ _ _).trans ?_ | with_reducible refine (State.fillTlb_cur _ _ _ _).trans ?_ | with_reducible refine (State.maskedOff_cur _ _ _ _ _).trans ?_ | with_reducible refine (State.memFault_cur _ _ _ _ _ _ _).trans ?_ | with_reducible refine (State.plain_cur _ _ _ ?_).trans ?_ | with_reducible refine (State.precise_cur _ _ _ _ _ _ _).trans ?_ | with_reducible refine (State.sendLoad_cur _ _ _ _ _ _ _).trans ?_ | with_reducible refine (State.suspend_cur _ _ _ _ _ _ _ _).trans ?_ | with_reducible refine (State.walkPoison_cur _ _ _ _ _).trans ?_ | with_reducible refine (State.warn_cur _ _).trans ?_ | dsimp only | split)

theorem State.dataArrives_cur (s : State) (core id lane : Nat) : (State.dataArrives s core id lane).cur = s.cur := by
  unfold State.dataArrives
  repeat' (first | with_reducible rfl | intro _ | with_reducible refine (foldl_cur _ _ _ ?_).trans ?_ | with_reducible refine (State.arrive_cur _ _ _ _).trans ?_ | dsimp only | split)

theorem State.consume_cur (s : State) (core la id lane : Nat) (line : L1Line) : (State.consume s core la id lane line).cur = s.cur := by
  unfold State.consume
  repeat' (first | with_reducible rfl | intro _ | with_reducible refine (foldl_cur _ _ _ ?_).trans ?_ | with_reducible refine (State.deliver_cur _ _ _ _ _ _).trans ?_ | with_reducible refine (State.updLane_cur _ _ _ _ _).trans ?_ | dsimp only | split)

theorem State.accept_cur (s : State) (g uid : Nat) (regs : List Reg) : (State.accept s g uid regs).cur = s.cur := by
  unfold State.accept
  repeat' (first | with_reducible rfl | intro _ | with_reducible refine (foldl_cur _ _ _ ?_).trans ?_ | with_reducible refine (State.updCore_cur _ _ _).trans ?_ | dsimp only | split)

theorem State.testTags_cur (s : State) (i : Instr) (d a b : BitVec 7) (f : Val → Bool) : (State.testTags s i d a b f).cur = s.cur := by
  unfold State.testTags
  repeat' (first | with_reducible rfl | intro _ | with_reducible refine (foldl_cur _ _ _ ?_).trans ?_ | with_reducible refine (State.complete_cur _ _ _ _).trans ?_ | with_reducible refine (State.mapLanes_cur _ _ _ _).trans ?_ | with_reducible refine (State.plain_cur _ _ _ ?_).trans ?_ | dsimp only | split)

theorem State.finishLanes_cur (s : State) (lanes : List Nat) : (State.finishLanes s lanes).cur = s.cur := by
  unfold State.finishLanes
  repeat' (first | with_reducible rfl | intro _ | with_reducible refine (foldl_cur _ _ _ ?_).trans ?_ | with_reducible refine (State.advance_cur _ _).trans ?_ | with_reducible refine (State.settleGm_cur _ _).trans ?_ | dsimp only | split)

theorem State.writeTruth_cur (s : State) (lane : Nat) (regs : List Reg) : (State.writeTruth s lane regs).cur = s.cur := by
  unfold State.writeTruth
  repeat' (first | with_reducible rfl | intro _ | with_reducible refine (foldl_cur _ _ _ ?_).trans ?_ | with_reducible refine (State.accept_cur _ _ _ _).trans ?_ | with_reducible refine (State.mapLanes_cur _ _ _ _).trans ?_ | dsimp only | split)

theorem State.check_cur (s : State) (cause sub info eng : Nat) (lanes : List Nat) (go : State → State) (hgo : ∀ x0, (go x0).cur = x0.cur) : (State.check s cause sub info eng lanes go).cur = s.cur := by
  unfold State.check
  repeat' (first | with_reducible rfl | intro _ | with_reducible refine (foldl_cur _ _ _ ?_).trans ?_ | with_reducible refine (State.precise_cur _ _ _ _ _ _ _).trans ?_ | with_reducible refine (hgo _).trans ?_ | dsimp only | split)

theorem State.sendStores_cur (s : State) (z : StoreIns) (need : Nat) (x : Group) (lanes : List (Nat × Nat × Option Page)) : (State.sendStores s z need x lanes).cur = s.cur := by
  unfold State.sendStores
  repeat' (first | with_reducible rfl | intro _ | with_reducible refine (foldl_cur _ _ _ ?_).trans ?_ | with_reducible refine (State.pushStore_cur _ _ _).trans ?_ | with_reducible refine (State.sample_cur _ _ _ _).trans ?_ | with_reducible refine (State.updGroup_cur _ _ _).trans ?_ | dsimp only | split)

theorem State.scratchWrite_cur (s : State) (core ctx off : Nat) (data : List Byte) (poison : Bool) : (State.scratchWrite s core ctx off data poison).cur = s.cur := by
  unfold State.scratchWrite
  repeat' (first | with_reducible rfl | intro _ | with_reducible refine (foldl_cur _ _ _ ?_).trans ?_ | with_reducible refine (State.updCore_cur _ _ _).trans ?_ | dsimp only | split)

theorem State.dropHost_cur (s : State) (a n : Nat) : (State.dropHost s a n).cur = s.cur := by
  unfold State.dropHost
  repeat' (first | with_reducible rfl | intro _ | with_reducible refine (foldl_cur _ _ _ ?_).trans ?_ | with_reducible refine (State.keep_cur _ _ _ _).trans ?_ | dsimp only | split)

theorem State.settleStore_cur (s : State) (core op g : Nat) : (State.settleStore s core op g).cur = s.cur := by
  unfold State.settleStore
  repeat' (first | with_reducible rfl | intro _ | with_reducible refine (foldl_cur _ _ _ ?_).trans ?_ | with_reducible refine (State.updGroup_cur _ _ _).trans ?_ | dsimp only | split)

theorem State.raiseStore_cur (s : State) (core id : Nat) (t : Store) (level : Nat) : (State.raiseStore s core id t level).cur = s.cur := by
  unfold State.raiseStore
  repeat' (first | with_reducible rfl | intro _ | with_reducible refine (foldl_cur _ _ _ ?_).trans ?_ | with_reducible refine (State.settleStore_cur _ _ _ _).trans ?_ | with_reducible refine (State.updCore_cur _ _ _).trans ?_ | dsimp only | split)

theorem State.endStore_cur (s : State) (core id : Nat) (t : Store) : (State.endStore s core id t).cur = s.cur := by
  unfold State.endStore
  repeat' (first | with_reducible rfl | intro _ | with_reducible refine (foldl_cur _ _ _ ?_).trans ?_ | with_reducible refine (State.settleStore_cur _ _ _ _).trans ?_ | with_reducible refine (State.updCore_cur _ _ _).trans ?_ | dsimp only | split)

theorem State.writeBackLine_cur (s : State) (core la : Nat) (drop' : Bool) : (State.writeBackLine s core la drop').cur = s.cur := by
  unfold State.writeBackLine
  repeat' (first | with_reducible rfl | intro _ | with_reducible refine (foldl_cur _ _ _ ?_).trans ?_ | with_reducible refine (State.giveBack_cur _ _ _).trans ?_ | with_reducible refine (State.install_cur _ _ _ _ _ _).trans ?_ | with_reducible refine (State.updCore_cur _ _ _).trans ?_ | with_reducible refine (State.updDie_cur _ _ _).trans ?_ | dsimp only | split)

theorem State.baseChecks_cur (s : State) (act : List Nat) (addr : Nat → Val) (go : State → State) (hgo : ∀ x0, (go x0).cur = x0.cur) : (State.baseChecks s act addr go).cur = s.cur := by
  unfold State.baseChecks
  repeat' (first | with_reducible rfl | intro _ | with_reducible refine (foldl_cur _ _ _ ?_).trans ?_ | with_reducible refine (State.precise_cur _ _ _ _ _ _ _).trans ?_ | with_reducible refine (hgo _).trans ?_ | dsimp only | split)

theorem State.sendAtomic_cur (s : State) (z : AtomicIns) (x : Group) (pas : List (Nat × Nat × Page)) (va : Nat → W64) : (State.sendAtomic s z x pas va).cur = s.cur := by
  unfold State.sendAtomic
  repeat' (first | with_reducible rfl | intro _ | with_reducible refine (foldl_cur _ _ _ ?_).trans ?_ | with_reducible refine (State.mapLanes_cur _ _ _ _).trans ?_ | with_reducible refine (State.sample_cur _ _ _ _).trans ?_ | with_reducible refine (State.updCore_cur _ _ _).trans ?_ | with_reducible refine (State.updGroup_cur _ _ _).trans ?_ | dsimp only | split)

theorem State.updAtomic_cur (s : State) (core id : Nat) (f : Atomic → Atomic) : (State.updAtomic s core id f).cur = s.cur := by
  unfold State.updAtomic
  repeat' (first | with_reducible rfl | intro _ | with_reducible refine (foldl_cur _ _ _ ?_).trans ?_ | with_reducible refine (State.updCore_cur _ _ _).trans ?_ | dsimp only | split)

theorem State.countAtomic_cur (s : State) (a : Atomic) : (State.countAtomic s a).cur = s.cur := by
  unfold State.countAtomic
  repeat' (first | with_reducible rfl | intro _ | with_reducible refine (foldl_cur _ _ _ ?_).trans ?_ | with_reducible refine (State.updGroup_cur _ _ _).trans ?_ | dsimp only | split)

theorem State.endAtomic_cur (s : State) (core id : Nat) : (State.endAtomic s core id).cur = s.cur := by
  unfold State.endAtomic
  repeat' (first | with_reducible rfl | intro _ | with_reducible refine (foldl_cur _ _ _ ?_).trans ?_ | with_reducible refine (State.countAtomic_cur _ _).trans ?_ | with_reducible refine (State.deferred_cur _ _ _ _ _ _ _ _ _).trans ?_ | with_reducible refine (State.updCore_cur _ _ _).trans ?_ | dsimp only | split)

theorem State.unlock_cur (s : State) (g lane uid : Nat) (regs : List Reg) : (State.unlock s g lane uid regs).cur = s.cur := by
  unfold State.unlock
  repeat' (first | with_reducible rfl | intro _ | with_reducible refine (foldl_cur _ _ _ ?_).trans ?_ | with_reducible refine (State.updFibre_cur _ _ _ _).trans ?_ | dsimp only | split)

theorem State.acceptLane_cur (s : State) (core id lane : Nat) (a : Atomic) : (State.acceptLane s core id lane a).cur = s.cur := by
  unfold State.acceptLane
  repeat' (first | with_reducible rfl | intro _ | with_reducible refine (foldl_cur _ _ _ ?_).trans ?_ | with_reducible refine (State.countAtomic_cur _ _).trans ?_ | with_reducible refine (State.updAtomic_cur _ _ _ _).trans ?_ | dsimp only | split)

theorem State.updSlot_cur (s : State) (id : Nat) (f : Slot → Slot) : (State.updSlot s id f).cur = s.cur := by
  unfold State.updSlot
  repeat' (first | with_reducible rfl | intro _ | with_reducible refine (foldl_cur _ _ _ ?_).trans ?_ | dsimp only | split)

theorem State.unbind_cur (s : State) (v : Slot) : (State.unbind s v).cur = s.cur := by
  unfold State.unbind
  repeat' (first | with_reducible rfl | intro _ | with_reducible refine (foldl_cur _ _ _ ?_).trans ?_ | with_reducible refine (State.updDie_cur _ _ _).trans ?_ | dsimp only | split)

theorem State.reapSlots_cur (s : State) : (State.reapSlots s).cur = s.cur := by
  unfold State.reapSlots
  repeat' (first | with_reducible rfl | intro _ | with_reducible refine (foldl_cur _ _ _ ?_).trans ?_ | with_reducible refine (State.unbind_cur _ _).trans ?_ | dsimp only | split)

theorem State.takeBack_cur (s : State) (new : Nat) : (State.takeBack s new).cur = s.cur := by
  unfold State.takeBack
  repeat' (first | with_reducible rfl | intro _ | with_reducible refine (foldl_cur _ _ _ ?_).trans ?_ | dsimp only | split)

theorem State.arriving_cur (s : State) (bar : Bar) (d : Nat) : (State.arriving s bar d).cur = s.cur := by
  unfold State.arriving
  repeat' (first | with_reducible rfl | intro _ | with_reducible refine (foldl_cur _ _ _ ?_).trans ?_ | with_reducible refine (State.wait_cur _ _ _).trans ?_ | dsimp only | split)

theorem State.releaseCore_cur (s : State) (grid core : Nat) : (State.releaseCore s grid core).cur = s.cur := by
  unfold State.releaseCore
  repeat' (first | with_reducible rfl | intro _ | with_reducible refine (foldl_cur _ _ _ ?_).trans ?_ | with_reducible refine (State.acquireL1_cur _ _ _ _).trans ?_ | with_reducible refine (State.mapLanes_cur _ _ _ _).trans ?_ | with_reducible refine (State.wait_cur _ _ _).trans ?_ | dsimp only | split)

theorem State.lease_cur (s : State) (e : Eff) (d : BitVec 7) (v : Option Nat) : (State.lease s e d v).cur = s.cur := by
  unfold State.lease
  repeat' (first | with_reducible rfl | intro _ | with_reducible refine (foldl_cur _ _ _ ?_).trans ?_ | with_reducible refine (State.complete_cur _ _ _ _).trans ?_ | with_reducible refine (State.setDest_cur _ _ _).trans ?_ | with_reducible refine (State.updGroup_cur _ _ _).trans ?_ | dsimp only | split)

theorem State.writeQueue_cur (s : State) (vf q field value : Nat) : (State.writeQueue s vf q field value).cur = s.cur := by
  unfold State.writeQueue
  repeat' (first | with_reducible rfl | intro _ | with_reducible refine (foldl_cur _ _ _ ?_).trans ?_ | with_reducible refine (State.sysWrite_cur _ _ _ _).trans ?_ | dsimp only | split)

theorem State.readTail_cur (s : State) (vf q : Nat) : (State.readTail s vf q).cur = s.cur := by
  unfold State.readTail
  repeat' (first | with_reducible rfl | intro _ | with_reducible refine (foldl_cur _ _ _ ?_).trans ?_ | with_reducible refine (State.report_cur _ _ _ _ _).trans ?_ | dsimp only | split)

theorem State.released_cur (s : State) (level : Nat) (lanes : List Nat) (go : State → State) (hgo : ∀ x0, (go x0).cur = x0.cur) : (State.released s level lanes go).cur = s.cur := by
  unfold State.released
  repeat' (first | with_reducible rfl | intro _ | with_reducible refine (foldl_cur _ _ _ ?_).trans ?_ | with_reducible refine (State.mapLanes_cur _ _ _ _).trans ?_ | with_reducible refine (State.wait_cur _ _ _).trans ?_ | with_reducible refine (hgo _).trans ?_ | dsimp only | split)

theorem State.newGroup_cur (s : State) (grid : Nat) (team index core track : Nat) : (State.newGroup s grid team index core track).cur = s.cur := by
  unfold State.newGroup
  repeat' (first | with_reducible rfl | intro _ | with_reducible refine (foldl_cur _ _ _ ?_).trans ?_ | with_reducible refine (State.lease_cur _ _ _ _).trans ?_ | with_reducible refine (State.updCore_cur _ _ _).trans ?_ | dsimp only | split)

theorem State.claimRows_cur (s : State) (core track g : Nat) : (State.claimRows s core track g).cur = s.cur := by
  unfold State.claimRows
  repeat' (first | with_reducible rfl | intro _ | with_reducible refine (foldl_cur _ _ _ ?_).trans ?_ | with_reducible refine (State.updGroup_cur _ _ _).trans ?_ | dsimp only | split)

theorem State.recallRows_cur (s : State) (g : Nat) : (State.recallRows s g).cur = s.cur := by
  unfold State.recallRows
  repeat' (first | with_reducible rfl | intro _ | with_reducible refine (foldl_cur _ _ _ ?_).trans ?_ | with_reducible refine (State.claimRows_cur _ _ _ _).trans ?_ | with_reducible refine (State.updGroup_cur _ _ _).trans ?_ | dsimp only | split)

theorem State.removeGroup_cur (s : State) (g : Nat) : (State.removeGroup s g).cur = s.cur := by
  unfold State.removeGroup
  repeat' (first | with_reducible rfl | intro _ | with_reducible refine (foldl_cur _ _ _ ?_).trans ?_ | with_reducible refine (State.keep_cur _ _ _ _).trans ?_ | with_reducible refine (State.updCore_cur _ _ _).trans ?_ | dsimp only | split)

theorem State.removeContext_cur (s : State) (ctx : Nat) : (State.removeContext s ctx).cur = s.cur := by
  unfold State.removeContext
  repeat' (first | with_reducible rfl | intro _ | with_reducible refine (foldl_cur _ _ _ ?_).trans ?_ | with_reducible refine (State.forget_cur _ _ _).trans ?_ | with_reducible refine (State.keep_cur _ _ _ _).trans ?_ | with_reducible refine (State.reapSlots_cur _).trans ?_ | with_reducible refine (State.removeGroup_cur _ _).trans ?_ | dsimp only | split)

theorem State.sendAcquire_cur (s : State) (x : Group) (dst : Dst) (form : LoadForm) (bytes scope : Nat) (victims : List Nat) (pas : List (Nat × Nat × Page)) (va : Nat → W64) : (State.sendAcquire s x dst form bytes scope victims pas va).cur = s.cur := by
  unfold State.sendAcquire
  repeat' (first | with_reducible rfl | intro _ | with_reducible refine (foldl_cur _ _ _ ?_).trans ?_ | with_reducible refine (State.load_cur _ _).trans ?_ | with_reducible refine (State.mapLanes_cur _ _ _ _).trans ?_ | with_reducible refine (State.sample_cur _ _ _ _).trans ?_ | with_reducible refine (State.updCore_cur _ _ _).trans ?_ | with_reducible refine (State.updGroup_cur _ _ _).trans ?_ | dsimp only | split)

theorem State.acquireLine_cur (s : State) (ctx core la mtype scope : Nat) (l2 conf : Bool) : (s.acquireLine ctx core la mtype scope l2 conf).1.cur = s.cur := by
  unfold State.acquireLine
  (repeat' (first | with_reducible rfl | with_reducible refine (State.countPacket_cur _ _ _).trans ?_ | with_reducible refine (State.reportRefused_cur _ _ _ _).trans ?_ | with_reducible refine (State.cleanAll_cur _ _).trans ?_ | with_reducible refine (State.readLine_cur _ _ _ _ _ _).trans ?_ | dsimp only | split))

theorem State.acquireArrives_cur (s : State) (core id lane scope : Nat) (l : Load) (e : LaneLoad) : (State.acquireArrives s core id lane scope l e).cur = s.cur := by
  unfold State.acquireArrives
  repeat' (first | with_reducible rfl | intro _ | with_reducible refine (foldl_cur _ _ _ ?_).trans ?_ | with_reducible refine (State.acquireLine_cur _ _ _ _ _ _ _ _).trans ?_ | with_reducible refine (State.arrive_cur _ _ _ _).trans ?_ | with_reducible refine (State.deliver_cur _ _ _ _ _ _).trans ?_ | with_reducible refine (State.send_cur _ _ _ _ _ _ ?_).trans ?_ | with_reducible refine (State.updCore_cur _ _ _).trans ?_ | dsimp only | split)

theorem State.lockLine_cur (s : State) (ctx core la : Nat) (p : Page) : (s.lockLine ctx core la p).2.cur = s.cur := by
  unfold State.lockLine
  dsimp only
  (repeat' (first | with_reducible rfl | with_reducible refine (State.l2Fetch_cur _ _ _ _ _).trans ?_ | with_reducible refine (State.reportReads_cur _ _ _ _).trans ?_ | with_reducible refine (State.updDie_cur _ _ _).trans ?_ | dsimp only | split))

theorem State.unlockLine_cur (s : State) (ctx la : Nat) : (s.unlockLine ctx la).2.cur = s.cur := by
  unfold State.unlockLine
  (repeat' split) <;> rfl

theorem State.cacheOp_cur (s : State) (i : Instr) (load : Bool) (dst : Fibre → List Reg) (b : BitVec 7) (off : W64) (go : Eff → List (Nat × Nat × Page) → State → State) (hgo : ∀ x0 x1 x2, (go x0 x1 x2).cur = x2.cur) : (State.cacheOp s i load dst b off go).cur = s.cur := by
  unfold State.cacheOp
  repeat' (first | with_reducible rfl | intro _ | with_reducible refine (foldl_cur _ _ _ ?_).trans ?_ | with_reducible refine (State.baseChecks_cur _ _ _ _ ?_).trans ?_ | with_reducible refine (State.fillTlb_cur _ _ _ _).trans ?_ | with_reducible refine (State.load_cur _ _).trans ?_ | with_reducible refine (State.memFault_cur _ _ _ _ _ _ _).trans ?_ | with_reducible refine (State.plain_cur _ _ _ ?_).trans ?_ | with_reducible refine (State.suspend_cur _ _ _ _ _ _ _ _).trans ?_ | with_reducible refine (State.walkPoison_cur _ _ _ _ _).trans ?_ | with_reducible refine (hgo _ _ _).trans ?_ | dsimp only | split)

theorem State.writeBacks_cur (s : State) (i : Instr) (b : BitVec 7) (off : W64) (inv : Bool) : (State.writeBacks s i b off inv).cur = s.cur := by
  unfold State.writeBacks
  repeat' (first | with_reducible rfl | intro _ | with_reducible refine (foldl_cur _ _ _ ?_).trans ?_ | with_reducible refine (State.cacheOp_cur _ _ _ _ _ _ _ ?_).trans ?_ | with_reducible refine (State.complete_cur _ _ _ _).trans ?_ | with_reducible refine (State.pushStore_cur _ _ _).trans ?_ | with_reducible refine (State.updGroup_cur _ _ _).trans ?_ | dsimp only | split)

theorem State.controlUnit_cur (s : State) (eng : Nat) (ops : Fibre → List Ctl) (go : State → State) (hgo : ∀ x0, (go x0).cur = x0.cur) : (State.controlUnit s eng ops go).cur = s.cur := by
  unfold State.controlUnit
  repeat' (first | with_reducible rfl | intro _ | with_reducible refine (foldl_cur _ _ _ ?_).trans ?_ | with_reducible refine (State.mapLanes_cur _ _ _ _).trans ?_ | with_reducible refine (State.precise_cur _ _ _ _ _ _ _).trans ?_ | with_reducible refine (State.releaseHolders_cur _ _ _ _ _).trans ?_ | with_reducible refine (State.wait_cur _ _ _).trans ?_ | with_reducible refine (hgo _).trans ?_ | dsimp only | split)

theorem State.copy_cur (s : State) (z : CopyIns) : (State.copy s z).cur = s.cur := by
  unfold State.copy
  repeat' (first | with_reducible rfl | intro _ | with_reducible refine (foldl_cur _ _ _ ?_).trans ?_ | with_reducible refine (State.complete_cur _ _ _ _).trans ?_ | with_reducible refine (State.controlUnit_cur _ _ _ _ ?_).trans ?_ | with_reducible refine (State.plain_cur _ _ _ ?_).trans ?_ | with_reducible refine (State.precise_cur _ _ _ _ _ _ _).trans ?_ | with_reducible refine (State.updCore_cur _ _ _).trans ?_ | with_reducible refine (State.updGroup_cur _ _ _).trans ?_ | dsimp only | split)

theorem State.fetchSegs_cur (s : State) (core : Nat) (l : List Seg) : (State.fetchSegs s core l).cur = s.cur := by
  unfold State.fetchSegs
  repeat' (first | with_reducible rfl | intro _ | with_reducible refine (foldl_cur _ _ _ ?_).trans ?_ | with_reducible refine (State.readLine_cur _ _ _ _ _ _).trans ?_ | dsimp only | split)

theorem State.reportSegs_cur (s : State) (ctx core : Nat) (write : Bool) (l : List Seg) : (State.reportSegs s ctx core write l).cur = s.cur := by
  unfold State.reportSegs
  repeat' (first | with_reducible rfl | intro _ | with_reducible refine (foldl_cur _ _ _ ?_).trans ?_ | with_reducible refine (State.reportReads_cur _ _ _ _).trans ?_ | with_reducible refine (State.reportWrites_cur _ _ _ _).trans ?_ | dsimp only | split)

theorem State.updCopy_cur (s : State) (core id : Nat) (f : Copy → Copy) : (State.updCopy s core id f).cur = s.cur := by
  unfold State.updCopy
  repeat' (first | with_reducible rfl | intro _ | with_reducible refine (foldl_cur _ _ _ ?_).trans ?_ | with_reducible refine (State.updCore_cur _ _ _).trans ?_ | dsimp only | split)

theorem State.publish_cur (s : State) (core : Nat) (lines : List Nat) : (State.publish s core lines).cur = s.cur := by
  unfold State.publish
  repeat' (first | with_reducible rfl | intro _ | with_reducible refine (foldl_cur _ _ _ ?_).trans ?_ | with_reducible refine (State.cleanAll_cur _ _).trans ?_ | with_reducible refine (State.dropCopies_cur _ _ _).trans ?_ | dsimp only | split)

theorem State.retireCopy_cur (s : State) (core id : Nat) (c : Copy) : (State.retireCopy s core id c).cur = s.cur := by
  unfold State.retireCopy
  repeat' (first | with_reducible rfl | intro _ | with_reducible refine (foldl_cur _ _ _ ?_).trans ?_ | with_reducible refine (State.publish_cur _ _ _).trans ?_ | with_reducible refine (State.updCore_cur _ _ _).trans ?_ | with_reducible refine (State.updGroup_cur _ _ _).trans ?_ | dsimp only | split)

theorem State.endCopy_cur (s : State) (core id : Nat) (c : Copy) (cause sub info : Nat) (val : W64) : (State.endCopy s core id c cause sub info val).cur = s.cur := by
  unfold State.endCopy
  repeat' (first | with_reducible rfl | intro _ | with_reducible refine (foldl_cur _ _ _ ?_).trans ?_ | with_reducible refine (State.deferred_cur _ _ _ _ _ _ _ _ _).trans ?_ | with_reducible refine (State.forget_cur _ _ _).trans ?_ | with_reducible refine (State.retireCopy_cur _ _ _ _).trans ?_ | with_reducible refine (State.updCore_cur _ _ _).trans ?_ | dsimp only | split)

theorem State.setHandle_cur (s : State) (h : Nat) (v : Handle) : (State.setHandle s h v).cur = s.cur := by
  unfold State.setHandle
  repeat' (first | with_reducible rfl | intro _ | with_reducible refine (foldl_cur _ _ _ ?_).trans ?_ | with_reducible refine (State.updGroup_cur _ _ _).trans ?_ | dsimp only | split)

theorem State.handleFault_cur (s : State) (sub : Nat) (c : HandleCheck) : (State.handleFault s sub c).cur = s.cur := by
  unfold State.handleFault
  repeat' (first | with_reducible rfl | intro _ | with_reducible refine (foldl_cur _ _ _ ?_).trans ?_ | with_reducible refine (State.precise_cur _ _ _ _ _ _ _).trans ?_ | dsimp only | split)

theorem State.checkHandles_cur (s : State) (checks : List HandleCheck) (go : State → State) (hgo : ∀ x0, (go x0).cur = x0.cur) : (State.checkHandles s checks go).cur = s.cur := by
  unfold State.checkHandles
  repeat' (first | with_reducible rfl | intro _ | with_reducible refine (foldl_cur _ _ _ ?_).trans ?_ | with_reducible refine (State.handleFault_cur _ _ _).trans ?_ | with_reducible refine (hgo _).trans ?_ | dsimp only | split)

theorem State.sendTile_cur (s : State) (e : Eff) (o : TileOp) (fresh : Option (Bool × Nat)) (written : Fibre → List Reg) : (State.sendTile s e o fresh written).cur = s.cur := by
  unfold State.sendTile
  repeat' (first | with_reducible rfl | intro _ | with_reducible refine (foldl_cur _ _ _ ?_).trans ?_ | with_reducible refine (State.complete_cur _ _ _ _).trans ?_ | with_reducible refine (State.setHandle_cur _ _ _).trans ?_ | with_reducible refine (State.updCore_cur _ _ _).trans ?_ | with_reducible refine (State.updGroup_cur _ _ _).trans ?_ | with_reducible refine (State.wait_cur _ _ _).trans ?_ | dsimp only | split)

theorem State.tileBase_cur (s : State) (b : BitVec 7) (off : W64) (rowBytes : Nat) (write : Bool) (go : W64 → W64 → State → State) (hgo : ∀ x0 x1 x2, (go x0 x1 x2).cur = x2.cur) : (State.tileBase s b off rowBytes write go).cur = s.cur := by
  unfold State.tileBase
  repeat' (first | with_reducible rfl | intro _ | with_reducible refine (foldl_cur _ _ _ ?_).trans ?_ | with_reducible refine (State.precise_cur _ _ _ _ _ _ _).trans ?_ | with_reducible refine (hgo _ _ _).trans ?_ | dsimp only | split)

theorem State.scratchBase_cur (s : State) (b : BitVec 7) (off : W64) (tag : Option Nat) (transposed write : Bool) (go : W64 → State → State) (hgo : ∀ x0 x1, (go x0 x1).cur = x1.cur) : (State.scratchBase s b off tag transposed write go).cur = s.cur := by
  unfold State.scratchBase
  repeat' (first | with_reducible rfl | intro _ | with_reducible refine (foldl_cur _ _ _ ?_).trans ?_ | with_reducible refine (State.precise_cur _ _ _ _ _ _ _).trans ?_ | with_reducible refine (hgo _ _).trans ?_ | dsimp only | split)

theorem State.sendQuarter_cur (s : State) (z : MatrixIns) (old : Group) (id n : Nat) : (State.sendQuarter s z old id n).cur = s.cur := by
  unfold State.sendQuarter
  repeat' (first | with_reducible rfl | intro _ | with_reducible refine (foldl_cur _ _ _ ?_).trans ?_ | with_reducible refine (State.setHandle_cur _ _ _).trans ?_ | with_reducible refine (State.updCore_cur _ _ _).trans ?_ | dsimp only | split)

theorem State.matrix_cur (s : State) (z : MatrixIns) : (State.matrix s z).cur = s.cur := by
  unfold State.matrix
  repeat' (first | with_reducible rfl | intro _ | with_reducible refine (foldl_cur _ _ _ ?_).trans ?_ | with_reducible refine (State.checkHandles_cur _ _ _ ?_).trans ?_ | with_reducible refine (State.complete_cur _ _ _ _).trans ?_ | with_reducible refine (State.plain_cur _ _ _ ?_).trans ?_ | with_reducible refine (State.sendQuarter_cur _ _ _ _ _).trans ?_ | with_reducible refine (State.updCore_cur _ _ _).trans ?_ | with_reducible refine (State.updGroup_cur _ _ _).trans ?_ | with_reducible refine (State.wait_cur _ _ _).trans ?_ | dsimp only | split)

theorem State.endTile_cur (s : State) (core id : Nat) (o : TileOp) : (State.endTile s core id o).cur = s.cur := by
  unfold State.endTile
  repeat' (first | with_reducible rfl | intro _ | with_reducible refine (foldl_cur _ _ _ ?_).trans ?_ | with_reducible refine (State.deferred_cur _ _ _ _ _ _ _ _ _).trans ?_ | with_reducible refine (State.reapSlots_cur _).trans ?_ | with_reducible refine (State.updCore_cur _ _ _).trans ?_ | with_reducible refine (State.updGroup_cur _ _ _).trans ?_ | dsimp only | split)

theorem State.failTile_cur (s : State) (core id : Nat) (o : TileOp) (cause sub info : Nat) (val : W64) : (State.failTile s core id o cause sub info val).cur = s.cur := by
  unfold State.failTile
  repeat' (first | with_reducible rfl | intro _ | with_reducible refine (foldl_cur _ _ _ ?_).trans ?_ | with_reducible refine (State.deferred_cur _ _ _ _ _ _ _ _ _).trans ?_ | with_reducible refine (State.endTile_cur _ _ _ _).trans ?_ | with_reducible refine (State.forget_cur _ _ _).trans ?_ | with_reducible refine (State.takeBack_cur _ _).trans ?_ | dsimp only | split)

theorem State.failRows_cur (s : State) (core id : Nat) (o : TileOp) (cause sub info : Nat) (va : W64) : (State.failRows s core id o cause sub info va).cur = s.cur := by
  unfold State.failRows
  repeat' (first | with_reducible rfl | intro _ | with_reducible refine (foldl_cur _ _ _ ?_).trans ?_ | with_reducible refine (State.failTile_cur _ _ _ _ _ _ _ _).trans ?_ | with_reducible refine (State.reportWalk_cur _ _ _ _).trans ?_ | dsimp only | split)

theorem State.warnGroup_cur (s : State) (g : Nat) (w : W32) : (State.warnGroup s g w).cur = s.cur := by
  unfold State.warnGroup
  repeat' (first | with_reducible rfl | intro _ | with_reducible refine (foldl_cur _ _ _ ?_).trans ?_ | with_reducible refine (State.updGroup_cur _ _ _).trans ?_ | with_reducible refine (State.warn_cur _ _).trans ?_ | dsimp only | split)

theorem State.clearMark_cur (s : State) (core la : Nat) : (State.clearMark s core la).cur = s.cur := by
  unfold State.clearMark
  repeat' (first | with_reducible rfl | intro _ | with_reducible refine (foldl_cur _ _ _ ?_).trans ?_ | with_reducible refine (State.updDie_cur _ _ _).trans ?_ | dsimp only | split)

theorem State.recallTile_cur (s : State) (core ctx : Nat) (offs : List Nat) : (State.recallTile s core ctx offs).cur = s.cur := by
  unfold State.recallTile
  repeat' (first | with_reducible rfl | intro _ | with_reducible refine (foldl_cur _ _ _ ?_).trans ?_ | with_reducible refine (State.recallScratch_cur _ _ _ _ _).trans ?_ | dsimp only | split)

theorem State.updQuarter_cur (s : State) (core id n : Nat) (f : Quarter → Quarter) : (State.updQuarter s core id n f).cur = s.cur := by
  unfold State.updQuarter
  repeat' (first | with_reducible rfl | intro _ | with_reducible refine (foldl_cur _ _ _ ?_).trans ?_ | with_reducible refine (State.updCore_cur _ _ _).trans ?_ | dsimp only | split)

theorem State.thaw_cur (s : State) (ctx id n : Nat) : (State.thaw s ctx id n).cur = s.cur := by
  unfold State.thaw
  repeat' (first | with_reducible rfl | intro _ | with_reducible refine (foldl_cur _ _ _ ?_).trans ?_ | dsimp only | split)

theorem State.dropTlb_cur (s : State) (ctx : Nat) (va : W64) (len : Nat) : (State.dropTlb s ctx va len).cur = s.cur := by
  unfold State.dropTlb
  repeat' (first | with_reducible rfl | intro _ | with_reducible refine (foldl_cur _ _ _ ?_).trans ?_ | dsimp only | split)

theorem State.publishCopies_cur (s : State) (ctx : Nat) : (State.publishCopies s ctx).cur = s.cur := by
  unfold State.publishCopies
  repeat' (first | with_reducible rfl | intro _ | with_reducible refine (foldl_cur _ _ _ ?_).trans ?_ | with_reducible refine (State.publish_cur _ _ _).trans ?_ | dsimp only | split)

theorem State.endCopies_cur (s : State) (ctx : Nat) : (State.endCopies s ctx).cur = s.cur := by
  unfold State.endCopies
  repeat' (first | with_reducible rfl | intro _ | with_reducible refine (foldl_cur _ _ _ ?_).trans ?_ | with_reducible refine (State.keep_cur _ _ _ _).trans ?_ | with_reducible refine (State.publishCopies_cur _ _).trans ?_ | dsimp only | split)

theorem State.flipCopies_cur (s : State) (ctx : Nat) (va : W64) (len : Nat) (on : Bool) : (State.flipCopies s ctx va len on).cur = s.cur := by
  unfold State.flipCopies
  repeat' (first | with_reducible rfl | intro _ | with_reducible refine (foldl_cur _ _ _ ?_).trans ?_ | dsimp only | split)

theorem State.evictLine_cur (s : State) (la : Nat) : (State.evictLine s la).cur = s.cur := by
  unfold State.evictLine
  repeat' (first | with_reducible rfl | intro _ | with_reducible refine (foldl_cur _ _ _ ?_).trans ?_ | with_reducible refine (State.cleanAll_cur _ _).trans ?_ | with_reducible refine (State.install_cur _ _ _ _ _ _).trans ?_ | with_reducible refine (State.reportDies_cur _ _ _).trans ?_ | dsimp only | split)

theorem State.sealHost_cur (s : State) (key : Option Nat) (a n : Nat) : (State.sealHost s key a n).cur = s.cur := by
  unfold State.sealHost
  repeat' (first | with_reducible rfl | intro _ | with_reducible refine (foldl_cur _ _ _ ?_).trans ?_ | with_reducible refine (State.sealFor_cur _ _ _ _).trans ?_ | dsimp only | split)

theorem State.answerHost_cur (s : State) (a n : Nat) : (State.answerHost s a n).cur = s.cur := by
  unfold State.answerHost
  repeat' (first | with_reducible rfl | intro _ | with_reducible refine (foldl_cur _ _ _ ?_).trans ?_ | dsimp only | split)

theorem State.reportLine_cur (s : State) (type la : Nat) : (State.reportLine s type la).cur = s.cur := by
  unfold State.reportLine
  repeat' (first | with_reducible rfl | intro _ | with_reducible refine (foldl_cur _ _ _ ?_).trans ?_ | with_reducible refine (State.report_cur _ _ _ _ _).trans ?_ | with_reducible refine (State.reportSupervisor_cur _ _ _ _ _ _).trans ?_ | dsimp only | split)

theorem State.loseLine_cur (s : State) (la : Nat) : (State.loseLine s la).cur = s.cur := by
  unfold State.loseLine
  repeat' (first | with_reducible rfl | intro _ | with_reducible refine (foldl_cur _ _ _ ?_).trans ?_ | with_reducible refine (State.writeLine_cur _ _ _ _).trans ?_ | dsimp only | split)

theorem State.fabric_cur (s : State) (z : FabricIns) (go : Eff → State → State) (hgo : ∀ x0 x1, (go x0 x1).cur = x1.cur) : (State.fabric s z go).cur = s.cur := by
  unfold State.fabric
  repeat' (first | with_reducible rfl | intro _ | with_reducible refine (foldl_cur _ _ _ ?_).trans ?_ | with_reducible refine (State.controlUnit_cur _ _ _ _ ?_).trans ?_ | with_reducible refine (State.plain_cur _ _ _ ?_).trans ?_ | with_reducible refine (State.precise_cur _ _ _ _ _ _ _).trans ?_ | with_reducible refine (hgo _ _).trans ?_ | dsimp only | split)

theorem State.readAtIssue_cur (s : State) (va : W64) (n : Nat) (go : List Byte → State → State) (hgo : ∀ x0 x1, (go x0 x1).cur = x1.cur) : (State.readAtIssue s va n go).cur = s.cur := by
  unfold State.readAtIssue
  repeat' (first | with_reducible rfl | intro _ | with_reducible refine (foldl_cur _ _ _ ?_).trans ?_ | with_reducible refine (State.fillTlb_cur _ _ _ _).trans ?_ | with_reducible refine (State.memFault_cur _ _ _ _ _ _ _).trans ?_ | with_reducible refine (State.precise_cur _ _ _ _ _ _ _).trans ?_ | with_reducible refine (State.readLine_cur _ _ _ _ _ _).trans ?_ | with_reducible refine (State.reportReads_cur _ _ _ _).trans ?_ | with_reducible refine (State.throughPort_cur _ _ _ _ _ ?_).trans ?_ | with_reducible refine (State.waitReplay_cur _ _ _ _).trans ?_ | with_reducible refine (State.walkPoison_cur _ _ _ _ _).trans ?_ | with_reducible refine (hgo _ _).trans ?_ | dsimp only | split)

theorem State.writeStatus_cur (s : State) (ctx : Nat) (addr : W64) (status : Nat) : (State.writeStatus s ctx addr status).cur = s.cur := by
  unfold State.writeStatus
  repeat' (first | with_reducible rfl | intro _ | with_reducible refine (foldl_cur _ _ _ ?_).trans ?_ | with_reducible refine (State.deviceWrite_cur _ _ _ _).trans ?_ | dsimp only | split)

theorem State.endCall_cur (s : State) (id : Nat) (c : Call) (status : Nat) : (State.endCall s id c status).cur = s.cur := by
  unfold State.endCall
  repeat' (first | with_reducible rfl | intro _ | with_reducible refine (foldl_cur _ _ _ ?_).trans ?_ | with_reducible refine (State.writeStatus_cur _ _ _ _).trans ?_ | dsimp only | split)

theorem State.failCall_cur (s : State) (id : Nat) (c : Call) (cause sub info : Nat) (va : W64) : (State.failCall s id c cause sub info va).cur = s.cur := by
  unfold State.failCall
  repeat' (first | with_reducible rfl | intro _ | with_reducible refine (foldl_cur _ _ _ ?_).trans ?_ | with_reducible refine (State.deferred_cur _ _ _ _ _ _ _ _ _).trans ?_ | with_reducible refine (State.endCall_cur _ _ _ _).trans ?_ | with_reducible refine (State.forget_cur _ _ _).trans ?_ | dsimp only | split)

theorem State.updCall_cur (s : State) (id : Nat) (f : Call → Call) : (State.updCall s id f).cur = s.cur := by
  unfold State.updCall
  repeat' (first | with_reducible rfl | intro _ | with_reducible refine (foldl_cur _ _ _ ?_).trans ?_ | dsimp only | split)

theorem State.callPiece_cur (s : State) (id : Nat) (c : Call) (kind : Kind) (p : W64 × Nat) (go : List Seg → State → State) (hgo : ∀ x0 x1, (go x0 x1).cur = x1.cur) : (State.callPiece s id c kind p go).cur = s.cur := by
  unfold State.callPiece
  repeat' (first | with_reducible rfl | intro _ | with_reducible refine (foldl_cur _ _ _ ?_).trans ?_ | with_reducible refine (State.askSupervisor_cur _ _ _).trans ?_ | with_reducible refine (State.failCall_cur _ _ _ _ _ _ _).trans ?_ | with_reducible refine (State.reportSegs_cur _ _ _ _ _).trans ?_ | with_reducible refine (State.reportWalk_cur _ _ _ _).trans ?_ | with_reducible refine (State.send_cur _ _ _ _ _ _ ?_).trans ?_ | with_reducible refine (hgo _ _).trans ?_ | dsimp only | split)

theorem State.readPiece_cur (s : State) (id : Nat) (c : Call) : (State.readPiece s id c).cur = s.cur := by
  unfold State.readPiece
  repeat' (first | with_reducible rfl | intro _ | with_reducible refine (foldl_cur _ _ _ ?_).trans ?_ | with_reducible refine (State.callPiece_cur _ _ _ _ _ _ ?_).trans ?_ | with_reducible refine (State.fetchSegs_cur _ _ _).trans ?_ | with_reducible refine (State.updCall_cur _ _ _).trans ?_ | dsimp only | split)

theorem State.finishCall_cur (s : State) (id : Nat) (c : Call) : (State.finishCall s id c).cur = s.cur := by
  unfold State.finishCall
  repeat' (first | with_reducible rfl | intro _ | with_reducible refine (foldl_cur _ _ _ ?_).trans ?_ | with_reducible refine (State.deferred_cur _ _ _ _ _ _ _ _ _).trans ?_ | with_reducible refine (State.endCall_cur _ _ _ _).trans ?_ | dsimp only | split)

theorem State.sendPut_cur (s : State) (id : Nat) (c : Call) (m : Comm) : (State.sendPut s id c m).cur = s.cur := by
  unfold State.sendPut
  repeat' (first | with_reducible rfl | intro _ | with_reducible refine (foldl_cur _ _ _ ?_).trans ?_ | with_reducible refine (State.updCall_cur _ _ _).trans ?_ | dsimp only | split)

theorem State.joinCall_cur (s : State) (id : Nat) (c : Call) (m : Comm) (others : List (Nat × List Byte)) : (State.joinCall s id c m others).cur = s.cur := by
  unfold State.joinCall
  repeat' (first | with_reducible rfl | intro _ | with_reducible refine (foldl_cur _ _ _ ?_).trans ?_ | with_reducible refine (State.updCall_cur _ _ _).trans ?_ | dsimp only | split)

theorem State.sending_cur (s : State) (target : Nat) (go : State → State) (hgo : ∀ x0, (go x0).cur = x0.cur) : (State.sending s target go).cur = s.cur := by
  unfold State.sending
  repeat' (first | with_reducible rfl | intro _ | with_reducible refine (foldl_cur _ _ _ ?_).trans ?_ | with_reducible refine (State.dropRequests_cur _ _ _).trans ?_ | with_reducible refine (State.send_cur _ _ _ _ _ _ ?_).trans ?_ | with_reducible refine (State.wait_cur _ _ _).trans ?_ | with_reducible refine (hgo _).trans ?_ | dsimp only | split)

theorem State.csig_cur (s : State) (i : Instr) (m : Mods) (d a b : BitVec 7) (add : Bool) : (State.csig s i m d a b add).cur = s.cur := by
  unfold State.csig
  repeat' (first | with_reducible rfl | intro _ | with_reducible refine (foldl_cur _ _ _ ?_).trans ?_ | with_reducible refine (State.complete_cur _ _ _ _).trans ?_ | with_reducible refine (State.fabric_cur _ _ _ ?_).trans ?_ | with_reducible refine (State.sending_cur _ _ _ ?_).trans ?_ | dsimp only | split)

theorem State.answer_cur (s : State) (g : Nat) (dst : List (Nat × Nat × Reg)) (v : Nat) : (State.answer s g dst v).cur = s.cur := by
  unfold State.answer
  repeat' (first | with_reducible rfl | intro _ | with_reducible refine (foldl_cur _ _ _ ?_).trans ?_ | with_reducible refine (State.landReg_cur _ _ _ _ _ _ _).trans ?_ | with_reducible refine (State.settleGm_cur _ _).trans ?_ | dsimp only | split)

theorem State.endWait_cur (s : State) (g lane core : Nat) (b : Fibre) (d words v : Nat) (last : List Reg) : (State.endWait s g lane core b d words v last).cur = s.cur := by
  unfold State.endWait
  repeat' (first | with_reducible rfl | intro _ | with_reducible refine (foldl_cur _ _ _ ?_).trans ?_ | with_reducible refine (State.acquireL1_cur _ _ _ _).trans ?_ | with_reducible refine (State.releaseHolders_cur _ _ _ _ _).trans ?_ | with_reducible refine (State.settleGm_cur _ _).trans ?_ | with_reducible refine (State.updFibre_cur _ _ _ _).trans ?_ | with_reducible refine (State.wait_cur _ _ _).trans ?_ | dsimp only | split)

theorem State.unasked_cur (s : State) (g lane : Nat) : (State.unasked s g lane).cur = s.cur := by
  unfold State.unasked
  repeat' (first | with_reducible rfl | intro _ | with_reducible refine (foldl_cur _ _ _ ?_).trans ?_ | with_reducible refine (State.updGroup_cur _ _ _).trans ?_ | dsimp only | split)

theorem State.finishStep_cur (s : State) (p : Pending) : (State.finishStep s p).cur = s.cur := by
  unfold State.finishStep
  repeat' (first | with_reducible rfl | intro _ | with_reducible refine (foldl_cur _ _ _ ?_).trans ?_ | with_reducible refine (State.answer_cur _ _ _ _).trans ?_ | dsimp only | split)

theorem State.applyStep_cur (s : State) (core track grid : Nat) : (State.applyStep s core track grid).cur = s.cur := by
  unfold State.applyStep
  repeat' (first | with_reducible rfl | intro _ | with_reducible refine (foldl_cur _ _ _ ?_).trans ?_ | with_reducible refine (State.finishStep_cur _ _).trans ?_ | with_reducible refine (State.updCore_cur _ _ _).trans ?_ | with_reducible refine (State.updGrid_cur _ _ _).trans ?_ | dsimp only | split)

theorem State.reply_cur (s : State) (endpoint id status : Nat) : (State.reply s endpoint id status).cur = s.cur := by
  unfold State.reply
  repeat' (first | with_reducible rfl | intro _ | with_reducible refine (foldl_cur _ _ _ ?_).trans ?_ | dsimp only | split)

theorem State.refuseMessage_cur (s : State) (vf endpoint id : Nat) : (State.refuseMessage s vf endpoint id).cur = s.cur := by
  unfold State.refuseMessage
  repeat' (first | with_reducible rfl | intro _ | with_reducible refine (foldl_cur _ _ _ ?_).trans ?_ | with_reducible refine (State.reply_cur _ _ _ _).trans ?_ | with_reducible refine (State.report_cur _ _ _ _ _).trans ?_ | with_reducible refine (State.reportSupervisor_cur _ _ _ _ _ _).trans ?_ | dsimp only | split)

theorem State.answerTo_cur (s : State) (endpoint id : Nat) (error : Bool) : (State.answerTo s endpoint id error).cur = s.cur := by
  unfold State.answerTo
  repeat' (first | with_reducible rfl | intro _ | with_reducible refine (foldl_cur _ _ _ ?_).trans ?_ | with_reducible refine (State.answer_cur _ _ _ _).trans ?_ | dsimp only | split)

theorem State.reportSparing_cur (s : State) (what : Nat) (addr : W64) (place : Nat) : (State.reportSparing s what addr place).cur = s.cur := by
  unfold State.reportSparing
  repeat' (first | with_reducible rfl | intro _ | with_reducible refine (foldl_cur _ _ _ ?_).trans ?_ | with_reducible refine (State.reportSupervisor_cur _ _ _ _ _ _).trans ?_ | dsimp only | split)

theorem State.cacheCode_cur (s : State) (x : Group) (l : List (Nat × Bool)) : (State.cacheCode s x l).cur = s.cur := by
  unfold State.cacheCode
  repeat' (first | with_reducible rfl | intro _ | with_reducible refine (foldl_cur _ _ _ ?_).trans ?_ | with_reducible refine (State.readLine_cur _ _ _ _ _ _).trans ?_ | with_reducible refine (State.reportReads_cur _ _ _ _).trans ?_ | with_reducible refine (State.updCore_cur _ _ _).trans ?_ | dsimp only | split)

theorem State.fetched_cur (s : State) (g : Nat) (x : Group) (pc : W64) (n : Nat) : (State.fetched s g x pc n).cur = s.cur := by
  unfold State.fetched
  repeat' (first | with_reducible rfl | intro _ | with_reducible refine (foldl_cur _ _ _ ?_).trans ?_ | with_reducible refine (State.cacheCode_cur _ _ _).trans ?_ | with_reducible refine (State.portTake_cur _ _ _ _ _).trans ?_ | dsimp only | split)

theorem State.fetchTried_cur (s : State) (g : Nat) (x : Group) (pc val : W64) (cause sub n : Nat) : (State.fetchTried s g x pc val cause sub n).cur = s.cur := by
  unfold State.fetchTried
  repeat' (first | with_reducible rfl | intro _ | with_reducible refine (foldl_cur _ _ _ ?_).trans ?_ | with_reducible refine (State.fetched_cur _ _ _ _ _).trans ?_ | with_reducible refine (State.reportWalk_cur _ _ _ _).trans ?_ | dsimp only | split)

theorem State.fetchAhead_cur (s : State) (g : Nat) : (State.fetchAhead s g).cur = s.cur := by
  unfold State.fetchAhead
  repeat' (first | with_reducible rfl | intro _ | with_reducible refine (foldl_cur _ _ _ ?_).trans ?_ | with_reducible refine (State.cacheCode_cur _ _ _).trans ?_ | with_reducible refine (State.portQueue_cur _ _ _ _ _).trans ?_ | with_reducible refine (State.send_cur _ _ _ _ _ _ ?_).trans ?_ | with_reducible refine (State.wait_cur _ _ _).trans ?_ | dsimp only | split)

theorem State.updRequest_cur (s : State) (core id lane : Nat) (f : Option Nat → Option Nat) (n : Nat) : (State.updRequest s core id lane f n).cur = s.cur := by
  unfold State.updRequest
  repeat' (first | with_reducible rfl | intro _ | with_reducible refine (foldl_cur _ _ _ ?_).trans ?_ | with_reducible refine (State.updCall_cur _ _ _).trans ?_ | with_reducible refine (State.updCore_cur _ _ _).trans ?_ | with_reducible refine (State.updGroup_cur _ _ _).trans ?_ | dsimp only | split)

theorem State.noteSent_cur (s : State) : (State.noteSent s).cur = s.cur := by
  unfold State.noteSent
  repeat' (first | with_reducible rfl | intro _ | with_reducible refine (foldl_cur _ _ _ ?_).trans ?_ | with_reducible refine (State.updRequest_cur _ _ _ _ _ _).trans ?_ | dsimp only | split)

theorem State.revokeContext_cur (s : State) (ctx : Nat) : (State.revokeContext s ctx).cur = s.cur := by
  unfold State.revokeContext
  repeat' (first | with_reducible rfl | intro _ | with_reducible refine (foldl_cur _ _ _ ?_).trans ?_ | with_reducible refine (State.forget_cur _ _ _).trans ?_ | with_reducible refine (State.keep_cur _ _ _ _).trans ?_ | with_reducible refine (State.reportDead_cur _ _ _ _).trans ?_ | dsimp only | split)

theorem State.haltDead_cur (s : State) (ctx : Nat) : (State.haltDead s ctx).cur = s.cur := by
  unfold State.haltDead
  repeat' (first | with_reducible rfl | intro _ | with_reducible refine (foldl_cur _ _ _ ?_).trans ?_ | with_reducible refine (State.raiseHalt_cur _ _ _ _ _ _ _ _).trans ?_ | with_reducible refine (State.updHalt_cur _ _ _).trans ?_ | dsimp only | split)

theorem State.updVf_cur (s : State) (vf : Nat) (f : Vf → Vf) : (State.updVf s vf f).cur = s.cur := by
  unfold State.updVf
  repeat' (first | with_reducible rfl | intro _ | with_reducible refine (foldl_cur _ _ _ ?_).trans ?_ | dsimp only | split)

theorem State.refillPort_cur (s : State) (core boundary : Nat) : (State.refillPort s core boundary).cur = s.cur := by
  unfold State.refillPort
  repeat' (first | with_reducible rfl | intro _ | with_reducible refine (foldl_cur _ _ _ ?_).trans ?_ | with_reducible refine (State.keep_cur _ _ _ _).trans ?_ | with_reducible refine (State.updCore_cur _ _ _).trans ?_ | dsimp only | split)

theorem State.refillAt_cur (s : State) (boundary core : Nat) : (State.refillAt s boundary core).cur = s.cur := by
  unfold State.refillAt
  repeat' (first | with_reducible rfl | intro _ | with_reducible refine (foldl_cur _ _ _ ?_).trans ?_ | with_reducible refine (State.refillPort_cur _ _ _).trans ?_ | dsimp only | split)

theorem State.refillDue_cur (s : State) (n : Nat) : (State.refillDue s n).cur = s.cur := by
  unfold State.refillDue
  repeat' (first | with_reducible rfl | intro _ | with_reducible refine (foldl_cur _ _ _ ?_).trans ?_ | with_reducible refine (State.refillAt_cur _ _ _).trans ?_ | dsimp only | split)

theorem State.updPkg_cur (s : State) (f : Package → Package) : (State.updPkg s f).cur = s.cur := by
  unfold State.updPkg
  repeat' (first | with_reducible rfl | intro _ | with_reducible refine (foldl_cur _ _ _ ?_).trans ?_ | dsimp only | split)

theorem State.mapTracks_cur (s : State) (cores : List Nat) (f : Track → Track) : (State.mapTracks s cores f).cur = s.cur := by
  unfold State.mapTracks
  repeat' (first | with_reducible rfl | intro _ | with_reducible refine (foldl_cur _ _ _ ?_).trans ?_ | with_reducible refine (State.updCore_cur _ _ _).trans ?_ | dsimp only | split)

theorem State.noteNoise_cur (s : State) (die : Nat) (cores : List (Nat × Nat)) : (State.noteNoise s die cores).cur = s.cur := by
  unfold State.noteNoise
  repeat' (first | with_reducible rfl | intro _ | with_reducible refine (foldl_cur _ _ _ ?_).trans ?_ | with_reducible refine (State.updCore_cur _ _ _).trans ?_ | dsimp only | split)

theorem State.strikeArray_cur (s : State) (die core array : Nat) (va : W64) : (State.strikeArray s die core array va).cur = s.cur := by
  unfold State.strikeArray
  repeat' (first | with_reducible rfl | intro _ | with_reducible refine (foldl_cur _ _ _ ?_).trans ?_ | with_reducible refine (State.deferred_cur _ _ _ _ _ _ _ _ _).trans ?_ | with_reducible refine (State.reportLine_cur _ _ _).trans ?_ | with_reducible refine (State.updCore_cur _ _ _).trans ?_ | with_reducible refine (State.updDie_cur _ _ _).trans ?_ | with_reducible refine (State.updSlot_cur _ _ _).trans ?_ | dsimp only | split)

theorem State.selfTest_cur (s : State) (core : Nat) : (State.selfTest s core).cur = s.cur := by
  unfold State.selfTest
  repeat' (first | with_reducible rfl | intro _ | with_reducible refine (foldl_cur _ _ _ ?_).trans ?_ | with_reducible refine (State.updCore_cur _ _ _).trans ?_ | with_reducible refine (State.updDie_cur _ _ _).trans ?_ | dsimp only | split)

theorem State.train_cur (s : State) (c : Nat × Nat × Nat) : (State.train s c).cur = s.cur := by
  unfold State.train
  repeat' (first | with_reducible rfl | intro _ | with_reducible refine (foldl_cur _ _ _ ?_).trans ?_ | with_reducible refine (State.updDie_cur _ _ _).trans ?_ | dsimp only | split)

theorem State.releaseJunctions_cur (s : State) (g : Nat) : (State.releaseJunctions s g).cur = s.cur := by
  unfold State.releaseJunctions
  repeat' (first | with_reducible rfl | intro _ | with_reducible refine (foldl_cur _ _ _ ?_).trans ?_ | with_reducible refine (State.releaseJunction_cur _ _ _).trans ?_ | dsimp only | split)

theorem State.countPort_cur (s : State) (g : Nat) (w : W32) (lanes : Nat) : (State.countPort s g w lanes).cur = s.cur := by
  unfold State.countPort
  repeat' (first | with_reducible rfl | intro _ | with_reducible refine (foldl_cur _ _ _ ?_).trans ?_ | with_reducible refine (State.port_cur _ _ _ _ _).trans ?_ | with_reducible refine (State.updCore_cur _ _ _).trans ?_ | dsimp only | split)

theorem State.illegal_cur (s : State) (r : Reject) (words : List W32) : (State.illegal s r words).cur = s.cur := by
  unfold State.illegal
  repeat' (first | with_reducible rfl | intro _ | with_reducible refine (foldl_cur _ _ _ ?_).trans ?_ | with_reducible refine (State.precise_cur _ _ _ _ _ _ _).trans ?_ | dsimp only | split)

theorem State.releaseCounters_cur (s : State) (g : Nat) : (State.releaseCounters s g).cur = s.cur := by
  unfold State.releaseCounters
  repeat' (first | with_reducible rfl | intro _ | with_reducible refine (foldl_cur _ _ _ ?_).trans ?_ | with_reducible refine (State.updGroup_cur _ _ _).trans ?_ | dsimp only | split)

theorem State.tick_cur (s : State) (n : Nat) : (State.tick s n).cur = s.cur := by
  unfold State.tick
  repeat' (first | with_reducible rfl | intro _ | with_reducible refine (foldl_cur _ _ _ ?_).trans ?_ | with_reducible refine (State.fetchAhead_cur _ _).trans ?_ | with_reducible refine (State.noteSent_cur _).trans ?_ | with_reducible refine (State.refillDue_cur _ _).trans ?_ | dsimp only | split)

theorem State.moveGroup_cur (s : State) (g : Nat) (set : GSet) : (State.moveGroup s g set).cur = s.cur := by
  unfold State.moveGroup
  repeat' (first | with_reducible rfl | intro _ | with_reducible refine (foldl_cur _ _ _ ?_).trans ?_ | with_reducible refine (State.updGroup_cur _ _ _).trans ?_ | dsimp only | split)

theorem State.place_cur (s : State) (code : List Byte) : (State.place s code).cur = s.cur := by
  unfold State.place
  repeat' (first | with_reducible rfl | intro _ | with_reducible refine (foldl_cur _ _ _ ?_).trans ?_ | with_reducible refine (State.sysWrite_cur _ _ _ _).trans ?_ | with_reducible refine (State.updCore_cur _ _ _).trans ?_ | dsimp only | split)

theorem scalar_cur (i : Instr) (dst : Dst) (a b : Src) (q : Option Nat) (op : Env → Out) (s : State) : (scalar i dst a b q op s).cur = s.cur := by
  unfold scalar
  repeat' (first | with_reducible rfl | intro _ | with_reducible refine (foldl_cur _ _ _ ?_).trans ?_ | with_reducible refine (State.alu_cur _ _).trans ?_ | dsimp only | split)

theorem scalar2_cur (i : Instr) (m : Mods) (t : BitVec 2) (d a b : BitVec 7) (op : Bool → Int → Int → Nat) (s : State) : (scalar2 i m t d a b op s).cur = s.cur := by
  unfold scalar2
  repeat' (first | with_reducible rfl | intro _ | with_reducible refine (foldl_cur _ _ _ ?_).trans ?_ | with_reducible refine (scalar_cur _ _ _ _ _ _ _).trans ?_ | dsimp only | split)

theorem scalarBits_cur (i : Instr) (m : Mods) (d a b : BitVec 7) (op : Nat → Nat → Nat) (s : State) : (scalarBits i m d a b op s).cur = s.cur := by
  unfold scalarBits
  repeat' (first | with_reducible rfl | intro _ | with_reducible refine (foldl_cur _ _ _ ?_).trans ?_ | with_reducible refine (scalar_cur _ _ _ _ _ _ _).trans ?_ | dsimp only | split)

theorem scalarShift_cur (i : Instr) (m : Mods) (kty : Nat) (d a b : BitVec 7) (op : Int → Nat → Int) (s : State) : (scalarShift i m kty d a b op s).cur = s.cur := by
  unfold scalarShift
  repeat' (first | with_reducible rfl | intro _ | with_reducible refine (foldl_cur _ _ _ ?_).trans ?_ | with_reducible refine (scalar_cur _ _ _ _ _ _ _).trans ?_ | dsimp only | split)

theorem vec_cur (i : Instr) (dst : Dst) (a b c : Src) (q : Option Nat) (op : Env → Out) (s : State) : (vec i dst a b c q op s).cur = s.cur := by
  unfold vec
  repeat' (first | with_reducible rfl | intro _ | with_reducible refine (foldl_cur _ _ _ ?_).trans ?_ | with_reducible refine (State.alu_cur _ _).trans ?_ | dsimp only | split)

theorem vec2_cur (i : Instr) (m : Mods) (t : BitVec 3) (d a b : BitVec 7) (op : Bool → Int → Int → Int) (s : State) : (vec2 i m t d a b op s).cur = s.cur := by
  unfold vec2
  repeat' (first | with_reducible rfl | intro _ | with_reducible refine (foldl_cur _ _ _ ?_).trans ?_ | with_reducible refine (vec_cur _ _ _ _ _ _ _ _).trans ?_ | dsimp only | split)

theorem vec1_cur (i : Instr) (t : BitVec 3) (d a : BitVec 7) (op : Int → Int) (s : State) : (vec1 i t d a op s).cur = s.cur := by
  unfold vec1
  repeat' (first | with_reducible rfl | intro _ | with_reducible refine (foldl_cur _ _ _ ?_).trans ?_ | with_reducible refine (vec_cur _ _ _ _ _ _ _ _).trans ?_ | dsimp only | split)

theorem vecBits_cur (i : Instr) (m : Mods) (t : BitVec 3) (d a b : BitVec 7) (op : Nat → Nat → Nat) (s : State) : (vecBits i m t d a b op s).cur = s.cur := by
  unfold vecBits
  repeat' (first | with_reducible rfl | intro _ | with_reducible refine (foldl_cur _ _ _ ?_).trans ?_ | with_reducible refine (vec_cur _ _ _ _ _ _ _ _).trans ?_ | dsimp only | split)

theorem vecShift_cur (i : Instr) (m : Mods) (t : BitVec 3) (d a b : BitVec 7) (op : Nat → Nat → Int) (s : State) : (vecShift i m t d a b op s).cur = s.cur := by
  unfold vecShift
  repeat' (first | with_reducible rfl | intro _ | with_reducible refine (foldl_cur _ _ _ ?_).trans ?_ | with_reducible refine (vec_cur _ _ _ _ _ _ _ _).trans ?_ | dsimp only | split)

theorem vecCount_cur (i : Instr) (t : BitVec 3) (d a : BitVec 7) (op : Nat → Nat → Nat) (s : State) : (vecCount i t d a op s).cur = s.cur := by
  unfold vecCount
  repeat' (first | with_reducible rfl | intro _ | with_reducible refine (foldl_cur _ _ _ ?_).trans ?_ | with_reducible refine (vec_cur _ _ _ _ _ _ _ _).trans ?_ | dsimp only | split)

theorem vecCmp_cur (i : Instr) (m : Mods) (t : BitVec 3) (d a b : BitVec 7) (op : Int → Int → Bool) (s : State) : (vecCmp i m t d a b op s).cur = s.cur := by
  unfold vecCmp
  repeat' (first | with_reducible rfl | intro _ | with_reducible refine (foldl_cur _ _ _ ?_).trans ?_ | with_reducible refine (vec_cur _ _ _ _ _ _ _ _).trans ?_ | dsimp only | split)

theorem pred_cur (i : Instr) (d a b : BitVec 7) (op : Nat → Nat → Nat) (s : State) : (pred i d a b op s).cur = s.cur := by
  unfold pred
  repeat' (first | with_reducible rfl | intro _ | with_reducible refine (foldl_cur _ _ _ ?_).trans ?_ | with_reducible refine (vec_cur _ _ _ _ _ _ _ _).trans ?_ | dsimp only | split)

theorem flt_cur (i : Instr) (dst : Dst) (a b c : Src) (warn : W32) (op : Env → Out) (s : State) : (flt i dst a b c warn op s).cur = s.cur := by
  unfold flt
  repeat' (first | with_reducible rfl | intro _ | with_reducible refine (foldl_cur _ _ _ ?_).trans ?_ | with_reducible refine (State.alu_cur _ _).trans ?_ | with_reducible refine (State.warn_cur _ _).trans ?_ | dsimp only | split)

theorem flt2_cur (i : Instr) (m : Mods) (t : BitVec 2) (d a b : BitVec 7) (op : Env → Num → Num → Nat × Nat) (s : State) : (flt2 i m t d a b op s).cur = s.cur := by
  unfold flt2
  repeat' (first | with_reducible rfl | intro _ | with_reducible refine (foldl_cur _ _ _ ?_).trans ?_ | with_reducible refine (flt_cur _ _ _ _ _ _ _ _).trans ?_ | dsimp only | split)

theorem fltBits_cur (i : Instr) (m : Mods) (t : BitVec 2) (d a b : BitVec 7) (op : Nat → Nat → Nat × Nat) (s : State) : (fltBits i m t d a b op s).cur = s.cur := by
  unfold fltBits
  repeat' (first | with_reducible rfl | intro _ | with_reducible refine (foldl_cur _ _ _ ?_).trans ?_ | with_reducible refine (flt_cur _ _ _ _ _ _ _ _).trans ?_ | dsimp only | split)

theorem fltCmp_cur (i : Instr) (m : Mods) (t : BitVec 2) (d a b : BitVec 7) (c : Nat) (s : State) : (fltCmp i m t d a b c s).cur = s.cur := by
  unfold fltCmp
  repeat' (first | with_reducible rfl | intro _ | with_reducible refine (foldl_cur _ _ _ ?_).trans ?_ | with_reducible refine (flt_cur _ _ _ _ _ _ _ _).trans ?_ | dsimp only | split)

theorem packed_cur (i : Instr) (m : Mods) (f : BitVec 1) (d a b : BitVec 7) (c : Src) (srcs : Env → List Val) (op : Env → Bool → Nat × Nat) (s : State) : (packed i m f d a b c srcs op s).cur = s.cur := by
  unfold packed
  repeat' (first | with_reducible rfl | intro _ | with_reducible refine (foldl_cur _ _ _ ?_).trans ?_ | with_reducible refine (flt_cur _ _ _ _ _ _ _ _).trans ?_ | dsimp only | split)

theorem cross_cur (i : Instr) (dst : Dst) (a b : Src) (fp : Bool) (srcs : Env → List Val) (op : List Env → Env → Nat × Nat) (s : State) : (cross i dst a b fp srcs op s).cur = s.cur := by
  unfold cross
  repeat' (first | with_reducible rfl | intro _ | with_reducible refine (foldl_cur _ _ _ ?_).trans ?_ | with_reducible refine (State.alu_cur _ _).trans ?_ | dsimp only | split)

theorem sfu_cur (i : Instr) (k : Special) (t : BitVec 2) (d a : BitVec 7) (s : State) : (sfu i k t d a s).cur = s.cur := by
  unfold sfu
  repeat' (first | with_reducible rfl | intro _ | with_reducible refine (foldl_cur _ _ _ ?_).trans ?_ | with_reducible refine (State.alu_cur _ _).trans ?_ | dsimp only | split)

end Sys2Proof.Machine
end

