-- ==== Sys2Proof/Laws/KeepGroups.lean ====
section
/-! SUPPORT. The operations that leave the groups as they were, one lemma for each. -/

set_option linter.all false

namespace Sys2Proof.Machine

theorem foldl_groups {α : Type} (f : State → α → State) (l : List α) (s : State) (h : ∀ t a, (f t a).groups = t.groups) : (l.foldl f s).groups = s.groups := by
  induction l generalizing s with
  | nil => rfl
  | cons a l ih => exact (ih _).trans (h _ _)

theorem foldl_fst_groups {α β : Type} (f : State × β → α → State × β) (l : List α) (s : State × β) (h : ∀ t a, (f t a).1.groups = t.1.groups) : (l.foldl f s).1.groups = s.1.groups := by
  induction l generalizing s with
  | nil => rfl
  | cons a l ih => exact (ih _).trans (h _ _)

theorem foldl_snd_groups {α β : Type} (f : β × State → α → β × State) (l : List α) (s : β × State) (h : ∀ t a, (f t a).2.groups = t.2.groups) : (l.foldl f s).2.groups = s.2.groups := by
  induction l generalizing s with
  | nil => rfl
  | cons a l ih => exact (ih _).trans (h _ _)

theorem State.reportSupervisor_groups (s : State) (type vf sev : Nat) (addr : W64) (place : W32) : (State.reportSupervisor s type vf sev addr place).groups = s.groups := by
  unfold State.reportSupervisor
  repeat' (first | with_reducible rfl | intro _ | with_reducible refine (foldl_groups _ _ _ ?_).trans ?_ | dsimp only | split)

theorem State.updCore_groups (s : State) (c : Nat) (f : Core → Core) : (State.updCore s c f).groups = s.groups := by
  unfold State.updCore
  repeat' (first | with_reducible rfl | intro _ | with_reducible refine (foldl_groups _ _ _ ?_).trans ?_ | dsimp only | split)

theorem State.updDie_groups (s : State) (d : Nat) (f : Die → Die) : (State.updDie s d f).groups = s.groups := by
  unfold State.updDie
  repeat' (first | with_reducible rfl | intro _ | with_reducible refine (foldl_groups _ _ _ ?_).trans ?_ | dsimp only | split)

theorem State.countPacket_groups (s : State) (la : Nat) (conf : Bool) : (State.countPacket s la conf).groups = s.groups := by
  unfold State.countPacket
  repeat' (first | with_reducible rfl | intro _ | with_reducible refine (foldl_groups _ _ _ ?_).trans ?_ | dsimp only | split)

theorem State.writeLine_groups (s : State) (la : Nat) (data : List Byte) (poison : Bool) : (State.writeLine s la data poison).groups = s.groups := by
  unfold State.writeLine
  repeat' (first | with_reducible rfl | intro _ | with_reducible refine (foldl_groups _ _ _ ?_).trans ?_ | dsimp only | split)

theorem State.reportDies_groups (s : State) (la : Nat) (dies : List Nat) : (State.reportDies s la dies).groups = s.groups := by
  unfold State.reportDies
  repeat' (first | with_reducible rfl | intro _ | with_reducible refine (foldl_groups _ _ _ ?_).trans ?_ | with_reducible refine (State.reportSupervisor_groups _ _ _ _ _ _).trans ?_ | dsimp only | split)

theorem State.noteLlc_groups (s : State) (la : Nat) : (State.noteLlc s la).groups = s.groups := by
  unfold State.noteLlc
  repeat' (first | with_reducible rfl | intro _ | with_reducible refine (foldl_groups _ _ _ ?_).trans ?_ | with_reducible refine (State.updDie_groups _ _ _).trans ?_ | dsimp only | split)

theorem State.cleanLine_groups (s : State) (d la : Nat) : (State.cleanLine s d la).groups = s.groups := by
  unfold State.cleanLine
  repeat' (first | with_reducible rfl | intro _ | with_reducible refine (foldl_groups _ _ _ ?_).trans ?_ | with_reducible refine (State.countPacket_groups _ _ _).trans ?_ | with_reducible refine (State.noteLlc_groups _ _).trans ?_ | with_reducible refine (State.updDie_groups _ _ _).trans ?_ | with_reducible refine (State.writeLine_groups _ _ _ _).trans ?_ | dsimp only | split)

theorem State.giveBack_groups (s : State) (d la : Nat) : (State.giveBack s d la).groups = s.groups := by
  unfold State.giveBack
  repeat' (first | with_reducible rfl | intro _ | with_reducible refine (foldl_groups _ _ _ ?_).trans ?_ | with_reducible refine (State.cleanLine_groups _ _ _).trans ?_ | with_reducible refine (State.reportDies_groups _ _ _).trans ?_ | dsimp only | split)

theorem State.l2Room_groups (s : State) (d la : Nat) : (State.l2Room s d la).groups = s.groups := by
  unfold State.l2Room
  repeat' (first | with_reducible rfl | intro _ | with_reducible refine (foldl_groups _ _ _ ?_).trans ?_ | with_reducible refine (State.giveBack_groups _ _ _).trans ?_ | with_reducible refine (State.updDie_groups _ _ _).trans ?_ | dsimp only | split)

theorem State.l2Fetch_groups (s : State) (d la pol : Nat) (conf : Bool) : (State.l2Fetch s d la pol conf).groups = s.groups := by
  unfold State.l2Fetch
  repeat' (first | with_reducible rfl | intro _ | with_reducible refine (foldl_groups _ _ _ ?_).trans ?_ | with_reducible refine (State.countPacket_groups _ _ _).trans ?_ | with_reducible refine (State.l2Room_groups _ _ _).trans ?_ | with_reducible refine (State.noteLlc_groups _ _).trans ?_ | with_reducible refine (State.updDie_groups _ _ _).trans ?_ | dsimp only | split)

theorem State.readLine_groups (s : State) (d la pol : Nat) (alloc conf : Bool) : (State.readLine s d la pol alloc conf).groups = s.groups := by
  unfold State.readLine
  repeat' (first | with_reducible rfl | intro _ | with_reducible refine (foldl_groups _ _ _ ?_).trans ?_ | with_reducible refine (State.countPacket_groups _ _ _).trans ?_ | with_reducible refine (State.l2Fetch_groups _ _ _ _ _).trans ?_ | dsimp only | split)

theorem State.cleanAll_groups (s : State) (la : Nat) : (State.cleanAll s la).groups = s.groups := by
  unfold State.cleanAll
  repeat' (first | with_reducible rfl | intro _ | with_reducible refine (foldl_groups _ _ _ ?_).trans ?_ | with_reducible refine (State.cleanLine_groups _ _ _).trans ?_ | with_reducible refine (State.reportDies_groups _ _ _).trans ?_ | dsimp only | split)

theorem State.invalidateL1s_groups (s : State) (d la except : Nat) : (State.invalidateL1s s d la except).groups = s.groups := by
  unfold State.invalidateL1s
  repeat' (first | with_reducible rfl | intro _ | with_reducible refine (foldl_groups _ _ _ ?_).trans ?_ | dsimp only | split)

theorem State.homeWrite_groups (s : State) (a : Nat) (data : List Byte) (poison conf : Bool) : (State.homeWrite s a data poison conf).groups = s.groups := by
  unfold State.homeWrite
  repeat' (first | with_reducible rfl | intro _ | with_reducible refine (foldl_groups _ _ _ ?_).trans ?_ | with_reducible refine (State.countPacket_groups _ _ _).trans ?_ | dsimp only | split)

theorem State.refreshCopies_groups (s : State) (la : Nat) : (State.refreshCopies s la).groups = s.groups := by
  unfold State.refreshCopies
  repeat' (first | with_reducible rfl | intro _ | with_reducible refine (foldl_groups _ _ _ ?_).trans ?_ | with_reducible refine (State.reportDies_groups _ _ _).trans ?_ | dsimp only | split)

theorem State.l2WriteLine_groups (s : State) (d core la off : Nat) (data : List Byte) (poison : Bool) (pol : Nat) (alloc conf : Bool) : (State.l2WriteLine s d core la off data poison pol alloc conf).groups = s.groups := by
  unfold State.l2WriteLine
  repeat' (first | with_reducible rfl | intro _ | with_reducible refine (foldl_groups _ _ _ ?_).trans ?_ | with_reducible refine (State.cleanAll_groups _ _).trans ?_ | with_reducible refine (State.countPacket_groups _ _ _).trans ?_ | with_reducible refine (State.homeWrite_groups _ _ _ _ _).trans ?_ | with_reducible refine (State.invalidateL1s_groups _ _ _ _).trans ?_ | with_reducible refine (State.l2Room_groups _ _ _).trans ?_ | with_reducible refine (State.refreshCopies_groups _ _).trans ?_ | with_reducible refine (State.updDie_groups _ _ _).trans ?_ | dsimp only | split)

theorem State.l2Write_groups (s : State) (d core pol : Nat) (alloc conf : Bool) (a : Nat) (data : List Byte) (poison : Bool) : (s.l2Write d core pol alloc conf a data poison).groups = s.groups := by
  unfold State.l2Write
  split
  · rfl
  · dsimp only
    split
    · exact State.l2WriteLine_groups ..
    · exact (State.l2WriteLine_groups ..).trans (State.l2WriteLine_groups ..)

theorem State.dropCopies_groups (s : State) (d la : Nat) : (State.dropCopies s d la).groups = s.groups := by
  unfold State.dropCopies
  repeat' (first | with_reducible rfl | intro _ | with_reducible refine (foldl_groups _ _ _ ?_).trans ?_ | with_reducible refine (State.reportDies_groups _ _ _).trans ?_ | dsimp only | split)

theorem State.sysWrite_groups (s : State) (a : Nat) (data : List Byte) (poison : Bool) : (State.sysWrite s a data poison).groups = s.groups := by
  unfold State.sysWrite
  repeat' (first | with_reducible rfl | intro _ | with_reducible refine (foldl_groups _ _ _ ?_).trans ?_ | with_reducible refine (State.cleanAll_groups _ _).trans ?_ | with_reducible refine (State.refreshCopies_groups _ _).trans ?_ | dsimp only | split)

theorem State.fillTlb_groups (s : State) (ctx core : Nat) (va : W64) : (State.fillTlb s ctx core va).groups = s.groups := by
  unfold State.fillTlb
  repeat' (first | with_reducible rfl | intro _ | with_reducible refine (foldl_groups _ _ _ ?_).trans ?_ | with_reducible refine (State.updCore_groups _ _ _).trans ?_ | with_reducible refine (State.updDie_groups _ _ _).trans ?_ | dsimp only | split)

theorem State.askSupervisor_groups (s : State) (ctx : Nat) (va : W64) : (State.askSupervisor s ctx va).groups = s.groups := by
  unfold State.askSupervisor
  repeat' (first | with_reducible rfl | intro _ | with_reducible refine (foldl_groups _ _ _ ?_).trans ?_ | dsimp only | split)

theorem State.forget_groups (s : State) (ctx : Nat) (va : W64) : (State.forget s ctx va).groups = s.groups := by
  unfold State.forget
  repeat' (first | with_reducible rfl | intro _ | with_reducible refine (foldl_groups _ _ _ ?_).trans ?_ | dsimp only | split)

theorem State.updGrid_groups (s : State) (n : Nat) (f : Grid → Grid) : (State.updGrid s n f).groups = s.groups := by
  unfold State.updGrid
  repeat' (first | with_reducible rfl | intro _ | with_reducible refine (foldl_groups _ _ _ ?_).trans ?_ | dsimp only | split)

theorem State.releaseHolders_groups (s : State) (g uid : Nat) (regs : List Reg) (counts : Bool) : (State.releaseHolders s g uid regs counts).groups = s.groups := by
  unfold State.releaseHolders
  repeat' (first | with_reducible rfl | intro _ | with_reducible refine (foldl_groups _ _ _ ?_).trans ?_ | with_reducible refine (State.updCore_groups _ _ _).trans ?_ | with_reducible refine (State.updGrid_groups _ _ _).trans ?_ | dsimp only | split)

theorem State.releaseFibre_groups (s : State) (g uid : Nat) : (State.releaseFibre s g uid).groups = s.groups := by
  unfold State.releaseFibre
  repeat' (first | with_reducible rfl | intro _ | with_reducible refine (foldl_groups _ _ _ ?_).trans ?_ | with_reducible refine (State.updCore_groups _ _ _).trans ?_ | with_reducible refine (State.updGrid_groups _ _ _).trans ?_ | dsimp only | split)

theorem State.dropLater_groups (s : State) (g : Nat) (h : Held) : (State.dropLater s g h).groups = s.groups := by
  unfold State.dropLater
  repeat' (first | with_reducible rfl | intro _ | with_reducible refine (foldl_groups _ _ _ ?_).trans ?_ | with_reducible refine (State.updCore_groups _ _ _).trans ?_ | dsimp only | split)

theorem State.scrub_groups (s : State) (la a n generation : Nat) : (State.scrub s la a n generation).groups = s.groups := by
  unfold State.scrub
  repeat' (first | with_reducible rfl | intro _ | with_reducible refine (foldl_groups _ _ _ ?_).trans ?_ | dsimp only | split)

theorem State.sealFor_groups (s : State) (generation a n : Nat) : (State.sealFor s generation a n).groups = s.groups := by
  unfold State.sealFor
  repeat' (first | with_reducible rfl | intro _ | with_reducible refine (foldl_groups _ _ _ ?_).trans ?_ | with_reducible refine (State.scrub_groups _ _ _ _ _).trans ?_ | dsimp only | split)

theorem State.seal_groups (s : State) (ctx a n : Nat) : (State.seal s ctx a n).groups = s.groups := by
  unfold State.seal
  repeat' (first | with_reducible rfl | intro _ | with_reducible refine (foldl_groups _ _ _ ?_).trans ?_ | with_reducible refine (State.sealFor_groups _ _ _ _).trans ?_ | dsimp only | split)

theorem State.reportRefused_groups (s : State) (ctx core : Nat) (lines : List Nat) : (State.reportRefused s ctx core lines).groups = s.groups := by
  unfold State.reportRefused
  repeat' (first | with_reducible rfl | intro _ | with_reducible refine (foldl_groups _ _ _ ?_).trans ?_ | with_reducible refine (State.reportSupervisor_groups _ _ _ _ _ _).trans ?_ | dsimp only | split)

theorem State.reportReads_groups (s : State) (ctx core : Nat) (lines : List Nat) : (State.reportReads s ctx core lines).groups = s.groups := by
  unfold State.reportReads
  repeat' (first | with_reducible rfl | intro _ | with_reducible refine (foldl_groups _ _ _ ?_).trans ?_ | with_reducible refine (State.reportRefused_groups _ _ _ _).trans ?_ | dsimp only | split)

theorem State.reportWrites_groups (s : State) (ctx core : Nat) (lines : List Nat) : (State.reportWrites s ctx core lines).groups = s.groups := by
  unfold State.reportWrites
  repeat' (first | with_reducible rfl | intro _ | with_reducible refine (foldl_groups _ _ _ ?_).trans ?_ | with_reducible refine (State.reportRefused_groups _ _ _ _).trans ?_ | dsimp only | split)

theorem State.reportWalk_groups (s : State) (ctx core : Nat) (va : W64) : (State.reportWalk s ctx core va).groups = s.groups := by
  unfold State.reportWalk
  repeat' (first | with_reducible rfl | intro _ | with_reducible refine (foldl_groups _ _ _ ?_).trans ?_ | with_reducible refine (State.reportReads_groups _ _ _ _).trans ?_ | dsimp only | split)

theorem State.deviceWrite_groups (s : State) (ctx : Nat) (va : W64) (data : List Byte) : (State.deviceWrite s ctx va data).groups = s.groups := by
  unfold State.deviceWrite
  repeat' (first | with_reducible rfl | intro _ | with_reducible refine (foldl_groups _ _ _ ?_).trans ?_ | with_reducible refine (State.reportWalk_groups _ _ _ _).trans ?_ | with_reducible refine (State.seal_groups _ _ _ _).trans ?_ | with_reducible refine (State.sysWrite_groups _ _ _ _).trans ?_ | dsimp only | split)

theorem State.updHalt_groups (s : State) (ctx : Nat) (f : Halt → Halt) : (State.updHalt s ctx f).groups = s.groups := by
  unfold State.updHalt
  repeat' (first | with_reducible rfl | intro _ | with_reducible refine (foldl_groups _ _ _ ?_).trans ?_ | dsimp only | split)

theorem State.report_groups (s : State) (vf type : Nat) (addr : W64) (place : W32) : (State.report s vf type addr place).groups = s.groups := by
  unfold State.report
  repeat' (first | with_reducible rfl | intro _ | with_reducible refine (foldl_groups _ _ _ ?_).trans ?_ | with_reducible refine (State.reportSupervisor_groups _ _ _ _ _ _).trans ?_ | dsimp only | split)

theorem State.writeHeader_groups (s : State) (ctx : Nat) (h : Halt) : (State.writeHeader s ctx h).groups = s.groups := by
  unfold State.writeHeader
  repeat' (first | with_reducible rfl | intro _ | with_reducible refine (foldl_groups _ _ _ ?_).trans ?_ | with_reducible refine (State.deviceWrite_groups _ _ _ _).trans ?_ | dsimp only | split)

theorem State.moveLinks_groups (s : State) (g uid : Nat) (f : Nat → Nat) : (State.moveLinks s g uid f).groups = s.groups := by
  unfold State.moveLinks
  repeat' (first | with_reducible rfl | intro _ | with_reducible refine (foldl_groups _ _ _ ?_).trans ?_ | with_reducible refine (State.updCore_groups _ _ _).trans ?_ | dsimp only | split)

theorem State.narrow_groups (s : State) (lanes : List Nat) : (State.narrow s lanes).groups = s.groups := by
  unfold State.narrow
  repeat' (first | with_reducible rfl | intro _ | with_reducible refine (foldl_groups _ _ _ ?_).trans ?_ | dsimp only | split)

theorem State.acquireL1_groups (s : State) (core scope : Nat) (teamCores : Nat) : (State.acquireL1 s core scope teamCores).groups = s.groups := by
  unfold State.acquireL1
  repeat' (first | with_reducible rfl | intro _ | with_reducible refine (foldl_groups _ _ _ ?_).trans ?_ | with_reducible refine (State.updCore_groups _ _ _).trans ?_ | dsimp only | split)

theorem State.updTeam_groups (s : State) (x : Group) (f : Team → Team) : (State.updTeam s x f).groups = s.groups := by
  unfold State.updTeam
  repeat' (first | with_reducible rfl | intro _ | with_reducible refine (foldl_groups _ _ _ ?_).trans ?_ | with_reducible refine (State.updGrid_groups _ _ _).trans ?_ | dsimp only | split)

theorem State.checkTeam_groups (s : State) (g : Nat) : (State.checkTeam s g).groups = s.groups := by
  unfold State.checkTeam
  repeat' (first | with_reducible rfl | intro _ | with_reducible refine (foldl_groups _ _ _ ?_).trans ?_ | with_reducible refine (State.acquireL1_groups _ _ _ _).trans ?_ | with_reducible refine (State.updTeam_groups _ _ _).trans ?_ | dsimp only | split)

theorem State.checkGrid_groups (s : State) (grid : Nat) : (State.checkGrid s grid).groups = s.groups := by
  unfold State.checkGrid
  repeat' (first | with_reducible rfl | intro _ | with_reducible refine (foldl_groups _ _ _ ?_).trans ?_ | with_reducible refine (State.updGrid_groups _ _ _).trans ?_ | dsimp only | split)

theorem State.pushStore_groups (s : State) (core : Nat) (t : Store) : (State.pushStore s core t).groups = s.groups := by
  unfold State.pushStore
  repeat' (first | with_reducible rfl | intro _ | with_reducible refine (foldl_groups _ _ _ ?_).trans ?_ | with_reducible refine (State.updCore_groups _ _ _).trans ?_ | dsimp only | split)

theorem State.portTake_groups (s : State) (ctx core n : Nat) (a : Ask) : (State.portTake s ctx core n a).groups = s.groups := by
  unfold State.portTake
  repeat' (first | with_reducible rfl | intro _ | with_reducible refine (foldl_groups _ _ _ ?_).trans ?_ | with_reducible refine (State.updCore_groups _ _ _).trans ?_ | dsimp only | split)

theorem State.portQueue_groups (s : State) (ctx core n : Nat) (a : Ask) : (State.portQueue s ctx core n a).groups = s.groups := by
  unfold State.portQueue
  repeat' (first | with_reducible rfl | intro _ | with_reducible refine (foldl_groups _ _ _ ?_).trans ?_ | with_reducible refine (State.updCore_groups _ _ _).trans ?_ | dsimp only | split)

theorem State.port_groups (s : State) (ctx core n : Nat) (a : Ask) : (s.port ctx core n a).1.groups = s.groups := by
  unfold State.port
  split
  · exact State.portTake_groups ..
  · exact State.portQueue_groups ..

theorem State.reportDead_groups (s : State) (ctx core : Nat) (lines : List Nat) : (State.reportDead s ctx core lines).groups = s.groups := by
  unfold State.reportDead
  repeat' (first | with_reducible rfl | intro _ | with_reducible refine (foldl_groups _ _ _ ?_).trans ?_ | with_reducible refine (State.reportSupervisor_groups _ _ _ _ _ _).trans ?_ | dsimp only | split)

theorem State.dropRequests_groups (s : State) (ctx core : Nat) : (State.dropRequests s ctx core).groups = s.groups := by
  unfold State.dropRequests
  repeat' (first | with_reducible rfl | intro _ | with_reducible refine (foldl_groups _ _ _ ?_).trans ?_ | with_reducible refine (State.forget_groups _ _ _).trans ?_ | with_reducible refine (State.reportDead_groups _ _ _ _).trans ?_ | with_reducible refine (State.updCore_groups _ _ _).trans ?_ | dsimp only | split)

theorem State.send_groups (s : State) (ctx core n : Nat) (a : Ask) (go : State → State) (hgo : ∀ x0, (go x0).groups = x0.groups) : (State.send s ctx core n a go).groups = s.groups := by
  unfold State.send
  repeat' (first | with_reducible rfl | intro _ | with_reducible refine (foldl_groups _ _ _ ?_).trans ?_ | with_reducible refine (State.dropRequests_groups _ _ _).trans ?_ | with_reducible refine (State.port_groups _ _ _ _ _).trans ?_ | with_reducible refine (hgo _).trans ?_ | dsimp only | split)

theorem State.throughPort_groups (s : State) (ctx core n : Nat) (go : State → State) (hgo : ∀ x0, (go x0).groups = x0.groups) : (State.throughPort s ctx core n go).groups = s.groups := by
  unfold State.throughPort
  repeat' (first | with_reducible rfl | intro _ | with_reducible refine (foldl_groups _ _ _ ?_).trans ?_ | with_reducible refine (State.send_groups _ _ _ _ _ _ ?_).trans ?_ | with_reducible refine (hgo _).trans ?_ | dsimp only | split)

theorem State.claimScratch_groups (s : State) (core ctx : Nat) (keep : List Nat) : (State.claimScratch s core ctx keep).groups = s.groups := by
  unfold State.claimScratch
  repeat' (first | with_reducible rfl | intro _ | with_reducible refine (foldl_groups _ _ _ ?_).trans ?_ | with_reducible refine (State.updCore_groups _ _ _).trans ?_ | dsimp only | split)

theorem State.recallScratch_groups (s : State) (core ctx off n : Nat) : (State.recallScratch s core ctx off n).groups = s.groups := by
  unfold State.recallScratch
  repeat' (first | with_reducible rfl | intro _ | with_reducible refine (foldl_groups _ _ _ ?_).trans ?_ | with_reducible refine (State.claimScratch_groups _ _ _ _).trans ?_ | with_reducible refine (State.updCore_groups _ _ _).trans ?_ | dsimp only | split)

theorem State.patchL1_groups (s : State) (core a : Nat) (data : List Byte) (poison : Bool) : (State.patchL1 s core a data poison).groups = s.groups := by
  unfold State.patchL1
  repeat' (first | with_reducible rfl | intro _ | with_reducible refine (foldl_groups _ _ _ ?_).trans ?_ | with_reducible refine (State.updCore_groups _ _ _).trans ?_ | dsimp only | split)

theorem State.copyHolders_groups (s : State) (core g uid new : Nat) : (State.copyHolders s core g uid new).groups = s.groups := by
  unfold State.copyHolders
  repeat' (first | with_reducible rfl | intro _ | with_reducible refine (foldl_groups _ _ _ ?_).trans ?_ | with_reducible refine (State.updCore_groups _ _ _).trans ?_ | dsimp only | split)

theorem State.freezeTiles_groups (s : State) (ctx core : Nat) : (State.freezeTiles s ctx core).groups = s.groups := by
  unfold State.freezeTiles
  repeat' (first | with_reducible rfl | intro _ | with_reducible refine (foldl_groups _ _ _ ?_).trans ?_ | dsimp only | split)

theorem State.writeStops_groups (s : State) (ctx : Nat) (l : List Stop) (first : Nat) : (State.writeStops s ctx l first).groups = s.groups := by
  unfold State.writeStops
  repeat' (first | with_reducible rfl | intro _ | with_reducible refine (foldl_groups _ _ _ ?_).trans ?_ | with_reducible refine (State.deviceWrite_groups _ _ _ _).trans ?_ | dsimp only | split)

theorem State.updLoad_groups (s : State) (core id : Nat) (f : Load → Load) : (State.updLoad s core id f).groups = s.groups := by
  unfold State.updLoad
  repeat' (first | with_reducible rfl | intro _ | with_reducible refine (foldl_groups _ _ _ ?_).trans ?_ | with_reducible refine (State.updCore_groups _ _ _).trans ?_ | dsimp only | split)

theorem State.updLane_groups (s : State) (core id lane : Nat) (f : LaneLoad → LaneLoad) : (State.updLane s core id lane f).groups = s.groups := by
  unfold State.updLane
  repeat' (first | with_reducible rfl | intro _ | with_reducible refine (foldl_groups _ _ _ ?_).trans ?_ | with_reducible refine (State.updLoad_groups _ _ _ _).trans ?_ | dsimp only | split)

theorem State.updateGuess_groups (s : State) (core : Nat) (l : Load) : (State.updateGuess s core l).groups = s.groups := by
  unfold State.updateGuess
  repeat' (first | with_reducible rfl | intro _ | with_reducible refine (foldl_groups _ _ _ ?_).trans ?_ | with_reducible refine (State.updCore_groups _ _ _).trans ?_ | dsimp only | split)

theorem State.unhookAfter_groups (s : State) (core g uid seq : Nat) : (State.unhookAfter s core g uid seq).groups = s.groups := by
  unfold State.unhookAfter
  repeat' (first | with_reducible rfl | intro _ | with_reducible refine (foldl_groups _ _ _ ?_).trans ?_ | with_reducible refine (State.updCore_groups _ _ _).trans ?_ | dsimp only | split)

theorem State.unhook_groups (s : State) (core la uid : Nat) : (State.unhook s core la uid).groups = s.groups := by
  unfold State.unhook
  repeat' (first | with_reducible rfl | intro _ | with_reducible refine (foldl_groups _ _ _ ?_).trans ?_ | with_reducible refine (State.updCore_groups _ _ _).trans ?_ | dsimp only | split)

theorem State.accept_groups (s : State) (g uid : Nat) (regs : List Reg) : (State.accept s g uid regs).groups = s.groups := by
  unfold State.accept
  repeat' (first | with_reducible rfl | intro _ | with_reducible refine (foldl_groups _ _ _ ?_).trans ?_ | with_reducible refine (State.updCore_groups _ _ _).trans ?_ | dsimp only | split)

theorem State.scratchWrite_groups (s : State) (core ctx off : Nat) (data : List Byte) (poison : Bool) : (State.scratchWrite s core ctx off data poison).groups = s.groups := by
  unfold State.scratchWrite
  repeat' (first | with_reducible rfl | intro _ | with_reducible refine (foldl_groups _ _ _ ?_).trans ?_ | with_reducible refine (State.updCore_groups _ _ _).trans ?_ | dsimp only | split)

theorem State.dropHost_groups (s : State) (a n : Nat) : (State.dropHost s a n).groups = s.groups := by
  unfold State.dropHost
  repeat' (first | with_reducible rfl | intro _ | with_reducible refine (foldl_groups _ _ _ ?_).trans ?_ | dsimp only | split)

theorem State.writeBackLine_groups (s : State) (core la : Nat) (drop' : Bool) : (State.writeBackLine s core la drop').groups = s.groups := by
  unfold State.writeBackLine
  repeat' (first | with_reducible rfl | intro _ | with_reducible refine (foldl_groups _ _ _ ?_).trans ?_ | with_reducible refine (State.giveBack_groups _ _ _).trans ?_ | with_reducible refine (State.updCore_groups _ _ _).trans ?_ | with_reducible refine (State.updDie_groups _ _ _).trans ?_ | dsimp only | split)

theorem State.updAtomic_groups (s : State) (core id : Nat) (f : Atomic → Atomic) : (State.updAtomic s core id f).groups = s.groups := by
  unfold State.updAtomic
  repeat' (first | with_reducible rfl | intro _ | with_reducible refine (foldl_groups _ _ _ ?_).trans ?_ | with_reducible refine (State.updCore_groups _ _ _).trans ?_ | dsimp only | split)

theorem State.updSlot_groups (s : State) (id : Nat) (f : Slot → Slot) : (State.updSlot s id f).groups = s.groups := by
  unfold State.updSlot
  repeat' (first | with_reducible rfl | intro _ | with_reducible refine (foldl_groups _ _ _ ?_).trans ?_ | dsimp only | split)

theorem State.unbind_groups (s : State) (v : Slot) : (State.unbind s v).groups = s.groups := by
  unfold State.unbind
  repeat' (first | with_reducible rfl | intro _ | with_reducible refine (foldl_groups _ _ _ ?_).trans ?_ | with_reducible refine (State.updDie_groups _ _ _).trans ?_ | dsimp only | split)

theorem State.reapSlots_groups (s : State) : (State.reapSlots s).groups = s.groups := by
  unfold State.reapSlots
  repeat' (first | with_reducible rfl | intro _ | with_reducible refine (foldl_groups _ _ _ ?_).trans ?_ | with_reducible refine (State.unbind_groups _ _).trans ?_ | dsimp only | split)

theorem State.writeQueue_groups (s : State) (vf q field value : Nat) : (State.writeQueue s vf q field value).groups = s.groups := by
  unfold State.writeQueue
  repeat' (first | with_reducible rfl | intro _ | with_reducible refine (foldl_groups _ _ _ ?_).trans ?_ | with_reducible refine (State.sysWrite_groups _ _ _ _).trans ?_ | dsimp only | split)

theorem State.readTail_groups (s : State) (vf q : Nat) : (State.readTail s vf q).groups = s.groups := by
  unfold State.readTail
  repeat' (first | with_reducible rfl | intro _ | with_reducible refine (foldl_groups _ _ _ ?_).trans ?_ | with_reducible refine (State.report_groups _ _ _ _ _).trans ?_ | dsimp only | split)

theorem State.acquireLine_groups (s : State) (ctx core la mtype scope : Nat) (l2 conf : Bool) : (s.acquireLine ctx core la mtype scope l2 conf).1.groups = s.groups := by
  unfold State.acquireLine
  (repeat' (first | with_reducible rfl | with_reducible refine (State.countPacket_groups _ _ _).trans ?_ | with_reducible refine (State.reportRefused_groups _ _ _ _).trans ?_ | with_reducible refine (State.cleanAll_groups _ _).trans ?_ | with_reducible refine (State.readLine_groups _ _ _ _ _ _).trans ?_ | dsimp only | split))

theorem State.lockLine_groups (s : State) (ctx core la : Nat) (p : Page) : (s.lockLine ctx core la p).2.groups = s.groups := by
  unfold State.lockLine
  dsimp only
  (repeat' (first | with_reducible rfl | with_reducible refine (State.l2Fetch_groups _ _ _ _ _).trans ?_ | with_reducible refine (State.reportReads_groups _ _ _ _).trans ?_ | with_reducible refine (State.updDie_groups _ _ _).trans ?_ | dsimp only | split))

theorem State.unlockLine_groups (s : State) (ctx la : Nat) : (s.unlockLine ctx la).2.groups = s.groups := by
  unfold State.unlockLine
  (repeat' split) <;> rfl

theorem State.fetchSegs_groups (s : State) (core : Nat) (l : List Seg) : (State.fetchSegs s core l).groups = s.groups := by
  unfold State.fetchSegs
  repeat' (first | with_reducible rfl | intro _ | with_reducible refine (foldl_groups _ _ _ ?_).trans ?_ | with_reducible refine (State.readLine_groups _ _ _ _ _ _).trans ?_ | dsimp only | split)

theorem State.reportSegs_groups (s : State) (ctx core : Nat) (write : Bool) (l : List Seg) : (State.reportSegs s ctx core write l).groups = s.groups := by
  unfold State.reportSegs
  repeat' (first | with_reducible rfl | intro _ | with_reducible refine (foldl_groups _ _ _ ?_).trans ?_ | with_reducible refine (State.reportReads_groups _ _ _ _).trans ?_ | with_reducible refine (State.reportWrites_groups _ _ _ _).trans ?_ | dsimp only | split)

theorem State.updCopy_groups (s : State) (core id : Nat) (f : Copy → Copy) : (State.updCopy s core id f).groups = s.groups := by
  unfold State.updCopy
  repeat' (first | with_reducible rfl | intro _ | with_reducible refine (foldl_groups _ _ _ ?_).trans ?_ | with_reducible refine (State.updCore_groups _ _ _).trans ?_ | dsimp only | split)

theorem State.publish_groups (s : State) (core : Nat) (lines : List Nat) : (State.publish s core lines).groups = s.groups := by
  unfold State.publish
  repeat' (first | with_reducible rfl | intro _ | with_reducible refine (foldl_groups _ _ _ ?_).trans ?_ | with_reducible refine (State.cleanAll_groups _ _).trans ?_ | with_reducible refine (State.dropCopies_groups _ _ _).trans ?_ | dsimp only | split)

theorem State.clearMark_groups (s : State) (core la : Nat) : (State.clearMark s core la).groups = s.groups := by
  unfold State.clearMark
  repeat' (first | with_reducible rfl | intro _ | with_reducible refine (foldl_groups _ _ _ ?_).trans ?_ | with_reducible refine (State.updDie_groups _ _ _).trans ?_ | dsimp only | split)

theorem State.recallTile_groups (s : State) (core ctx : Nat) (offs : List Nat) : (State.recallTile s core ctx offs).groups = s.groups := by
  unfold State.recallTile
  repeat' (first | with_reducible rfl | intro _ | with_reducible refine (foldl_groups _ _ _ ?_).trans ?_ | with_reducible refine (State.recallScratch_groups _ _ _ _ _).trans ?_ | dsimp only | split)

theorem State.updQuarter_groups (s : State) (core id n : Nat) (f : Quarter → Quarter) : (State.updQuarter s core id n f).groups = s.groups := by
  unfold State.updQuarter
  repeat' (first | with_reducible rfl | intro _ | with_reducible refine (foldl_groups _ _ _ ?_).trans ?_ | with_reducible refine (State.updCore_groups _ _ _).trans ?_ | dsimp only | split)

theorem State.thaw_groups (s : State) (ctx id n : Nat) : (State.thaw s ctx id n).groups = s.groups := by
  unfold State.thaw
  repeat' (first | with_reducible rfl | intro _ | with_reducible refine (foldl_groups _ _ _ ?_).trans ?_ | dsimp only | split)

theorem State.dropTlb_groups (s : State) (ctx : Nat) (va : W64) (len : Nat) : (State.dropTlb s ctx va len).groups = s.groups := by
  unfold State.dropTlb
  repeat' (first | with_reducible rfl | intro _ | with_reducible refine (foldl_groups _ _ _ ?_).trans ?_ | dsimp only | split)

theorem State.publishCopies_groups (s : State) (ctx : Nat) : (State.publishCopies s ctx).groups = s.groups := by
  unfold State.publishCopies
  repeat' (first | with_reducible rfl | intro _ | with_reducible refine (foldl_groups _ _ _ ?_).trans ?_ | with_reducible refine (State.publish_groups _ _ _).trans ?_ | dsimp only | split)

theorem State.endCopies_groups (s : State) (ctx : Nat) : (State.endCopies s ctx).groups = s.groups := by
  unfold State.endCopies
  repeat' (first | with_reducible rfl | intro _ | with_reducible refine (foldl_groups _ _ _ ?_).trans ?_ | with_reducible refine (State.publishCopies_groups _ _).trans ?_ | dsimp only | split)

theorem State.flipCopies_groups (s : State) (ctx : Nat) (va : W64) (len : Nat) (on : Bool) : (State.flipCopies s ctx va len on).groups = s.groups := by
  unfold State.flipCopies
  repeat' (first | with_reducible rfl | intro _ | with_reducible refine (foldl_groups _ _ _ ?_).trans ?_ | dsimp only | split)

theorem State.evictLine_groups (s : State) (la : Nat) : (State.evictLine s la).groups = s.groups := by
  unfold State.evictLine
  repeat' (first | with_reducible rfl | intro _ | with_reducible refine (foldl_groups _ _ _ ?_).trans ?_ | with_reducible refine (State.cleanAll_groups _ _).trans ?_ | with_reducible refine (State.reportDies_groups _ _ _).trans ?_ | dsimp only | split)

theorem State.sealHost_groups (s : State) (key : Option Nat) (a n : Nat) : (State.sealHost s key a n).groups = s.groups := by
  unfold State.sealHost
  repeat' (first | with_reducible rfl | intro _ | with_reducible refine (foldl_groups _ _ _ ?_).trans ?_ | with_reducible refine (State.sealFor_groups _ _ _ _).trans ?_ | dsimp only | split)

theorem State.answerHost_groups (s : State) (a n : Nat) : (State.answerHost s a n).groups = s.groups := by
  unfold State.answerHost
  repeat' (first | with_reducible rfl | intro _ | with_reducible refine (foldl_groups _ _ _ ?_).trans ?_ | dsimp only | split)

theorem State.reportLine_groups (s : State) (type la : Nat) : (State.reportLine s type la).groups = s.groups := by
  unfold State.reportLine
  repeat' (first | with_reducible rfl | intro _ | with_reducible refine (foldl_groups _ _ _ ?_).trans ?_ | with_reducible refine (State.report_groups _ _ _ _ _).trans ?_ | with_reducible refine (State.reportSupervisor_groups _ _ _ _ _ _).trans ?_ | dsimp only | split)

theorem State.loseLine_groups (s : State) (la : Nat) : (State.loseLine s la).groups = s.groups := by
  unfold State.loseLine
  repeat' (first | with_reducible rfl | intro _ | with_reducible refine (foldl_groups _ _ _ ?_).trans ?_ | with_reducible refine (State.writeLine_groups _ _ _ _).trans ?_ | dsimp only | split)

theorem State.writeStatus_groups (s : State) (ctx : Nat) (addr : W64) (status : Nat) : (State.writeStatus s ctx addr status).groups = s.groups := by
  unfold State.writeStatus
  repeat' (first | with_reducible rfl | intro _ | with_reducible refine (foldl_groups _ _ _ ?_).trans ?_ | with_reducible refine (State.deviceWrite_groups _ _ _ _).trans ?_ | dsimp only | split)

theorem State.endCall_groups (s : State) (id : Nat) (c : Call) (status : Nat) : (State.endCall s id c status).groups = s.groups := by
  unfold State.endCall
  repeat' (first | with_reducible rfl | intro _ | with_reducible refine (foldl_groups _ _ _ ?_).trans ?_ | with_reducible refine (State.writeStatus_groups _ _ _ _).trans ?_ | dsimp only | split)

theorem State.updCall_groups (s : State) (id : Nat) (f : Call → Call) : (State.updCall s id f).groups = s.groups := by
  unfold State.updCall
  repeat' (first | with_reducible rfl | intro _ | with_reducible refine (foldl_groups _ _ _ ?_).trans ?_ | dsimp only | split)

theorem State.sendPut_groups (s : State) (id : Nat) (c : Call) (m : Comm) : (State.sendPut s id c m).groups = s.groups := by
  unfold State.sendPut
  repeat' (first | with_reducible rfl | intro _ | with_reducible refine (foldl_groups _ _ _ ?_).trans ?_ | with_reducible refine (State.updCall_groups _ _ _).trans ?_ | dsimp only | split)

theorem State.joinCall_groups (s : State) (id : Nat) (c : Call) (m : Comm) (others : List (Nat × List Byte)) : (State.joinCall s id c m others).groups = s.groups := by
  unfold State.joinCall
  repeat' (first | with_reducible rfl | intro _ | with_reducible refine (foldl_groups _ _ _ ?_).trans ?_ | with_reducible refine (State.updCall_groups _ _ _).trans ?_ | dsimp only | split)

theorem State.reply_groups (s : State) (endpoint id status : Nat) : (State.reply s endpoint id status).groups = s.groups := by
  unfold State.reply
  repeat' (first | with_reducible rfl | intro _ | with_reducible refine (foldl_groups _ _ _ ?_).trans ?_ | dsimp only | split)

theorem State.refuseMessage_groups (s : State) (vf endpoint id : Nat) : (State.refuseMessage s vf endpoint id).groups = s.groups := by
  unfold State.refuseMessage
  repeat' (first | with_reducible rfl | intro _ | with_reducible refine (foldl_groups _ _ _ ?_).trans ?_ | with_reducible refine (State.reply_groups _ _ _ _).trans ?_ | with_reducible refine (State.report_groups _ _ _ _ _).trans ?_ | with_reducible refine (State.reportSupervisor_groups _ _ _ _ _ _).trans ?_ | dsimp only | split)

theorem State.answerTo_groups (s : State) (endpoint id : Nat) (error : Bool) : (State.answerTo s endpoint id error).groups = s.groups := by
  unfold State.answerTo
  repeat' (first | with_reducible rfl | intro _ | with_reducible refine (foldl_groups _ _ _ ?_).trans ?_ | dsimp only | split)

theorem State.reportSparing_groups (s : State) (what : Nat) (addr : W64) (place : Nat) : (State.reportSparing s what addr place).groups = s.groups := by
  unfold State.reportSparing
  repeat' (first | with_reducible rfl | intro _ | with_reducible refine (foldl_groups _ _ _ ?_).trans ?_ | with_reducible refine (State.reportSupervisor_groups _ _ _ _ _ _).trans ?_ | dsimp only | split)

theorem State.cacheCode_groups (s : State) (x : Group) (l : List (Nat × Bool)) : (State.cacheCode s x l).groups = s.groups := by
  unfold State.cacheCode
  repeat' (first | with_reducible rfl | intro _ | with_reducible refine (foldl_groups _ _ _ ?_).trans ?_ | with_reducible refine (State.readLine_groups _ _ _ _ _ _).trans ?_ | with_reducible refine (State.reportReads_groups _ _ _ _).trans ?_ | with_reducible refine (State.updCore_groups _ _ _).trans ?_ | dsimp only | split)

theorem State.fetched_groups (s : State) (g : Nat) (x : Group) (pc : W64) (n : Nat) : (State.fetched s g x pc n).groups = s.groups := by
  unfold State.fetched
  repeat' (first | with_reducible rfl | intro _ | with_reducible refine (foldl_groups _ _ _ ?_).trans ?_ | with_reducible refine (State.cacheCode_groups _ _ _).trans ?_ | with_reducible refine (State.portTake_groups _ _ _ _ _).trans ?_ | dsimp only | split)

theorem State.fetchTried_groups (s : State) (g : Nat) (x : Group) (pc val : W64) (cause sub n : Nat) : (State.fetchTried s g x pc val cause sub n).groups = s.groups := by
  unfold State.fetchTried
  repeat' (first | with_reducible rfl | intro _ | with_reducible refine (foldl_groups _ _ _ ?_).trans ?_ | with_reducible refine (State.fetched_groups _ _ _ _ _).trans ?_ | with_reducible refine (State.reportWalk_groups _ _ _ _).trans ?_ | dsimp only | split)

theorem State.fetchAhead_groups (s : State) (g : Nat) : (State.fetchAhead s g).groups = s.groups := by
  unfold State.fetchAhead
  repeat' (first | with_reducible rfl | intro _ | with_reducible refine (foldl_groups _ _ _ ?_).trans ?_ | with_reducible refine (State.cacheCode_groups _ _ _).trans ?_ | with_reducible refine (State.portQueue_groups _ _ _ _ _).trans ?_ | with_reducible refine (State.send_groups _ _ _ _ _ _ ?_).trans ?_ | dsimp only | split)

theorem State.revokeContext_groups (s : State) (ctx : Nat) : (State.revokeContext s ctx).groups = s.groups := by
  unfold State.revokeContext
  repeat' (first | with_reducible rfl | intro _ | with_reducible refine (foldl_groups _ _ _ ?_).trans ?_ | with_reducible refine (State.forget_groups _ _ _).trans ?_ | with_reducible refine (State.reportDead_groups _ _ _ _).trans ?_ | dsimp only | split)

theorem State.updVf_groups (s : State) (vf : Nat) (f : Vf → Vf) : (State.updVf s vf f).groups = s.groups := by
  unfold State.updVf
  repeat' (first | with_reducible rfl | intro _ | with_reducible refine (foldl_groups _ _ _ ?_).trans ?_ | dsimp only | split)

theorem State.refillPort_groups (s : State) (core boundary : Nat) : (State.refillPort s core boundary).groups = s.groups := by
  unfold State.refillPort
  repeat' (first | with_reducible rfl | intro _ | with_reducible refine (foldl_groups _ _ _ ?_).trans ?_ | with_reducible refine (State.updCore_groups _ _ _).trans ?_ | dsimp only | split)

theorem State.refillAt_groups (s : State) (boundary core : Nat) : (State.refillAt s boundary core).groups = s.groups := by
  unfold State.refillAt
  repeat' (first | with_reducible rfl | intro _ | with_reducible refine (foldl_groups _ _ _ ?_).trans ?_ | with_reducible refine (State.refillPort_groups _ _ _).trans ?_ | dsimp only | split)

theorem State.refillDue_groups (s : State) (n : Nat) : (State.refillDue s n).groups = s.groups := by
  unfold State.refillDue
  repeat' (first | with_reducible rfl | intro _ | with_reducible refine (foldl_groups _ _ _ ?_).trans ?_ | with_reducible refine (State.refillAt_groups _ _ _).trans ?_ | dsimp only | split)

theorem State.updPkg_groups (s : State) (f : Package → Package) : (State.updPkg s f).groups = s.groups := by
  unfold State.updPkg
  repeat' (first | with_reducible rfl | intro _ | with_reducible refine (foldl_groups _ _ _ ?_).trans ?_ | dsimp only | split)

theorem State.mapTracks_groups (s : State) (cores : List Nat) (f : Track → Track) : (State.mapTracks s cores f).groups = s.groups := by
  unfold State.mapTracks
  repeat' (first | with_reducible rfl | intro _ | with_reducible refine (foldl_groups _ _ _ ?_).trans ?_ | with_reducible refine (State.updCore_groups _ _ _).trans ?_ | dsimp only | split)

theorem State.noteNoise_groups (s : State) (die : Nat) (cores : List (Nat × Nat)) : (State.noteNoise s die cores).groups = s.groups := by
  unfold State.noteNoise
  repeat' (first | with_reducible rfl | intro _ | with_reducible refine (foldl_groups _ _ _ ?_).trans ?_ | with_reducible refine (State.updCore_groups _ _ _).trans ?_ | dsimp only | split)

theorem State.selfTest_groups (s : State) (core : Nat) : (State.selfTest s core).groups = s.groups := by
  unfold State.selfTest
  repeat' (first | with_reducible rfl | intro _ | with_reducible refine (foldl_groups _ _ _ ?_).trans ?_ | with_reducible refine (State.updCore_groups _ _ _).trans ?_ | with_reducible refine (State.updDie_groups _ _ _).trans ?_ | dsimp only | split)

theorem State.train_groups (s : State) (c : Nat × Nat × Nat) : (State.train s c).groups = s.groups := by
  unfold State.train
  repeat' (first | with_reducible rfl | intro _ | with_reducible refine (foldl_groups _ _ _ ?_).trans ?_ | with_reducible refine (State.updDie_groups _ _ _).trans ?_ | dsimp only | split)

theorem State.countPort_groups (s : State) (g : Nat) (w : W32) (lanes : Nat) : (State.countPort s g w lanes).groups = s.groups := by
  unfold State.countPort
  repeat' (first | with_reducible rfl | intro _ | with_reducible refine (foldl_groups _ _ _ ?_).trans ?_ | with_reducible refine (State.port_groups _ _ _ _ _).trans ?_ | with_reducible refine (State.updCore_groups _ _ _).trans ?_ | dsimp only | split)

end Sys2Proof.Machine
end

