-- ==== Sys2Proof/Laws/State.lean ====
section
/-! SUPPORT. The named updates of the state, field by field: what each leaves and what it changes. -/

namespace Sys2Proof.Machine

variable (s : State)

@[simp] theorem State.updGroup_agenda_kept (g : Nat) (f : Group → Group) : (s.updGroup g f).agenda = s.agenda := rfl
@[simp] theorem State.updGroup_clocks_kept (g : Nat) (f : Group → Group) : (s.updGroup g f).clocks = s.clocks := rfl
@[simp] theorem State.updGroup_free_kept (g : Nat) (f : Group → Group) : (s.updGroup g f).free = s.free := rfl
@[simp] theorem State.updGroup_cur_kept (g : Nat) (f : Group → Group) : (s.updGroup g f).cur = s.cur := rfl
@[simp] theorem State.updGroup_ids_kept (g : Nat) (f : Group → Group) : (s.updGroup g f).ids = s.ids := rfl
@[simp] theorem State.updGroup_groups_eq (g : Nat) (f : Group → Group) : (s.updGroup g f).groups = s.groups.adjust g f := rfl
@[simp] theorem State.updGroup_grids_kept (g : Nat) (f : Group → Group) : (s.updGroup g f).grids = s.grids := rfl
@[simp] theorem State.updGroup_ctxs_kept (g : Nat) (f : Group → Group) : (s.updGroup g f).ctxs = s.ctxs := rfl
@[simp] theorem State.updGroup_cores_kept (g : Nat) (f : Group → Group) : (s.updGroup g f).cores = s.cores := rfl
@[simp] theorem State.updGroup_dies_kept (g : Nat) (f : Group → Group) : (s.updGroup g f).dies = s.dies := rfl
@[simp] theorem State.updGroup_vfs_kept (g : Nat) (f : Group → Group) : (s.updGroup g f).vfs = s.vfs := rfl
@[simp] theorem State.updGroup_mem_kept (g : Nat) (f : Group → Group) : (s.updGroup g f).mem = s.mem := rfl
@[simp] theorem State.updGroup_poison_kept (g : Nat) (f : Group → Group) : (s.updGroup g f).poison = s.poison := rfl
@[simp] theorem State.updGroup_seals_kept (g : Nat) (f : Group → Group) : (s.updGroup g f).seals = s.seals := rfl
@[simp] theorem State.updGroup_host_kept (g : Nat) (f : Group → Group) : (s.updGroup g f).host = s.host := rfl
@[simp] theorem State.updGroup_slots_kept (g : Nat) (f : Group → Group) : (s.updGroup g f).slots = s.slots := rfl
@[simp] theorem State.updGroup_calls_kept (g : Nat) (f : Group → Group) : (s.updGroup g f).calls = s.calls := rfl
@[simp] theorem State.updGroup_signals_kept (g : Nat) (f : Group → Group) : (s.updGroup g f).signals = s.signals := rfl
@[simp] theorem State.updGroup_posts_kept (g : Nat) (f : Group → Group) : (s.updGroup g f).posts = s.posts := rfl
@[simp] theorem State.updGroup_sent_kept (g : Nat) (f : Group → Group) : (s.updGroup g f).sent = s.sent := rfl
@[simp] theorem State.updGroup_pkg_kept (g : Nat) (f : Group → Group) : (s.updGroup g f).pkg = s.pkg := rfl
@[simp] theorem State.mapLanes_agenda_kept (g : Nat) (lanes : List Nat) (f : Nat → Fibre → Fibre) : (s.mapLanes g lanes f).agenda = s.agenda := rfl
@[simp] theorem State.mapLanes_clocks_kept (g : Nat) (lanes : List Nat) (f : Nat → Fibre → Fibre) : (s.mapLanes g lanes f).clocks = s.clocks := rfl
@[simp] theorem State.mapLanes_free_kept (g : Nat) (lanes : List Nat) (f : Nat → Fibre → Fibre) : (s.mapLanes g lanes f).free = s.free := rfl
@[simp] theorem State.mapLanes_cur_kept (g : Nat) (lanes : List Nat) (f : Nat → Fibre → Fibre) : (s.mapLanes g lanes f).cur = s.cur := rfl
@[simp] theorem State.mapLanes_ids_kept (g : Nat) (lanes : List Nat) (f : Nat → Fibre → Fibre) : (s.mapLanes g lanes f).ids = s.ids := rfl
@[simp] theorem State.mapLanes_groups_eq (g : Nat) (lanes : List Nat) (f : Nat → Fibre → Fibre) : (s.mapLanes g lanes f).groups = s.groups.adjust g (fun x => x.mapLanes lanes f) := rfl
@[simp] theorem State.mapLanes_grids_kept (g : Nat) (lanes : List Nat) (f : Nat → Fibre → Fibre) : (s.mapLanes g lanes f).grids = s.grids := rfl
@[simp] theorem State.mapLanes_ctxs_kept (g : Nat) (lanes : List Nat) (f : Nat → Fibre → Fibre) : (s.mapLanes g lanes f).ctxs = s.ctxs := rfl
@[simp] theorem State.mapLanes_cores_kept (g : Nat) (lanes : List Nat) (f : Nat → Fibre → Fibre) : (s.mapLanes g lanes f).cores = s.cores := rfl
@[simp] theorem State.mapLanes_dies_kept (g : Nat) (lanes : List Nat) (f : Nat → Fibre → Fibre) : (s.mapLanes g lanes f).dies = s.dies := rfl
@[simp] theorem State.mapLanes_vfs_kept (g : Nat) (lanes : List Nat) (f : Nat → Fibre → Fibre) : (s.mapLanes g lanes f).vfs = s.vfs := rfl
@[simp] theorem State.mapLanes_mem_kept (g : Nat) (lanes : List Nat) (f : Nat → Fibre → Fibre) : (s.mapLanes g lanes f).mem = s.mem := rfl
@[simp] theorem State.mapLanes_poison_kept (g : Nat) (lanes : List Nat) (f : Nat → Fibre → Fibre) : (s.mapLanes g lanes f).poison = s.poison := rfl
@[simp] theorem State.mapLanes_seals_kept (g : Nat) (lanes : List Nat) (f : Nat → Fibre → Fibre) : (s.mapLanes g lanes f).seals = s.seals := rfl
@[simp] theorem State.mapLanes_host_kept (g : Nat) (lanes : List Nat) (f : Nat → Fibre → Fibre) : (s.mapLanes g lanes f).host = s.host := rfl
@[simp] theorem State.mapLanes_slots_kept (g : Nat) (lanes : List Nat) (f : Nat → Fibre → Fibre) : (s.mapLanes g lanes f).slots = s.slots := rfl
@[simp] theorem State.mapLanes_calls_kept (g : Nat) (lanes : List Nat) (f : Nat → Fibre → Fibre) : (s.mapLanes g lanes f).calls = s.calls := rfl
@[simp] theorem State.mapLanes_signals_kept (g : Nat) (lanes : List Nat) (f : Nat → Fibre → Fibre) : (s.mapLanes g lanes f).signals = s.signals := rfl
@[simp] theorem State.mapLanes_posts_kept (g : Nat) (lanes : List Nat) (f : Nat → Fibre → Fibre) : (s.mapLanes g lanes f).posts = s.posts := rfl
@[simp] theorem State.mapLanes_sent_kept (g : Nat) (lanes : List Nat) (f : Nat → Fibre → Fibre) : (s.mapLanes g lanes f).sent = s.sent := rfl
@[simp] theorem State.mapLanes_pkg_kept (g : Nat) (lanes : List Nat) (f : Nat → Fibre → Fibre) : (s.mapLanes g lanes f).pkg = s.pkg := rfl
@[simp] theorem State.updFibre_agenda_kept (g lane : Nat) (f : Fibre → Fibre) : (s.updFibre g lane f).agenda = s.agenda := rfl
@[simp] theorem State.updFibre_clocks_kept (g lane : Nat) (f : Fibre → Fibre) : (s.updFibre g lane f).clocks = s.clocks := rfl
@[simp] theorem State.updFibre_free_kept (g lane : Nat) (f : Fibre → Fibre) : (s.updFibre g lane f).free = s.free := rfl
@[simp] theorem State.updFibre_cur_kept (g lane : Nat) (f : Fibre → Fibre) : (s.updFibre g lane f).cur = s.cur := rfl
@[simp] theorem State.updFibre_ids_kept (g lane : Nat) (f : Fibre → Fibre) : (s.updFibre g lane f).ids = s.ids := rfl
@[simp] theorem State.updFibre_groups_eq (g lane : Nat) (f : Fibre → Fibre) : (s.updFibre g lane f).groups = s.groups.adjust g (fun x => x.mapLanes [lane] (fun _ b => f b)) := rfl
@[simp] theorem State.updFibre_grids_kept (g lane : Nat) (f : Fibre → Fibre) : (s.updFibre g lane f).grids = s.grids := rfl
@[simp] theorem State.updFibre_ctxs_kept (g lane : Nat) (f : Fibre → Fibre) : (s.updFibre g lane f).ctxs = s.ctxs := rfl
@[simp] theorem State.updFibre_cores_kept (g lane : Nat) (f : Fibre → Fibre) : (s.updFibre g lane f).cores = s.cores := rfl
@[simp] theorem State.updFibre_dies_kept (g lane : Nat) (f : Fibre → Fibre) : (s.updFibre g lane f).dies = s.dies := rfl
@[simp] theorem State.updFibre_vfs_kept (g lane : Nat) (f : Fibre → Fibre) : (s.updFibre g lane f).vfs = s.vfs := rfl
@[simp] theorem State.updFibre_mem_kept (g lane : Nat) (f : Fibre → Fibre) : (s.updFibre g lane f).mem = s.mem := rfl
@[simp] theorem State.updFibre_poison_kept (g lane : Nat) (f : Fibre → Fibre) : (s.updFibre g lane f).poison = s.poison := rfl
@[simp] theorem State.updFibre_seals_kept (g lane : Nat) (f : Fibre → Fibre) : (s.updFibre g lane f).seals = s.seals := rfl
@[simp] theorem State.updFibre_host_kept (g lane : Nat) (f : Fibre → Fibre) : (s.updFibre g lane f).host = s.host := rfl
@[simp] theorem State.updFibre_slots_kept (g lane : Nat) (f : Fibre → Fibre) : (s.updFibre g lane f).slots = s.slots := rfl
@[simp] theorem State.updFibre_calls_kept (g lane : Nat) (f : Fibre → Fibre) : (s.updFibre g lane f).calls = s.calls := rfl
@[simp] theorem State.updFibre_signals_kept (g lane : Nat) (f : Fibre → Fibre) : (s.updFibre g lane f).signals = s.signals := rfl
@[simp] theorem State.updFibre_posts_kept (g lane : Nat) (f : Fibre → Fibre) : (s.updFibre g lane f).posts = s.posts := rfl
@[simp] theorem State.updFibre_sent_kept (g lane : Nat) (f : Fibre → Fibre) : (s.updFibre g lane f).sent = s.sent := rfl
@[simp] theorem State.updFibre_pkg_kept (g lane : Nat) (f : Fibre → Fibre) : (s.updFibre g lane f).pkg = s.pkg := rfl
@[simp] theorem State.warn_agenda_kept (w : W32) : (s.warn w).agenda = s.agenda := rfl
@[simp] theorem State.warn_clocks_kept (w : W32) : (s.warn w).clocks = s.clocks := rfl
@[simp] theorem State.warn_free_kept (w : W32) : (s.warn w).free = s.free := rfl
@[simp] theorem State.warn_cur_kept (w : W32) : (s.warn w).cur = s.cur := rfl
@[simp] theorem State.warn_ids_kept (w : W32) : (s.warn w).ids = s.ids := rfl
@[simp] theorem State.warn_groups_eq (w : W32) : (s.warn w).groups = s.groups.adjust s.cur.g (fun x => { x with warn := x.warn ||| w }) := rfl
@[simp] theorem State.warn_grids_kept (w : W32) : (s.warn w).grids = s.grids := rfl
@[simp] theorem State.warn_ctxs_kept (w : W32) : (s.warn w).ctxs = s.ctxs := rfl
@[simp] theorem State.warn_cores_kept (w : W32) : (s.warn w).cores = s.cores := rfl
@[simp] theorem State.warn_dies_kept (w : W32) : (s.warn w).dies = s.dies := rfl
@[simp] theorem State.warn_vfs_kept (w : W32) : (s.warn w).vfs = s.vfs := rfl
@[simp] theorem State.warn_mem_kept (w : W32) : (s.warn w).mem = s.mem := rfl
@[simp] theorem State.warn_poison_kept (w : W32) : (s.warn w).poison = s.poison := rfl
@[simp] theorem State.warn_seals_kept (w : W32) : (s.warn w).seals = s.seals := rfl
@[simp] theorem State.warn_host_kept (w : W32) : (s.warn w).host = s.host := rfl
@[simp] theorem State.warn_slots_kept (w : W32) : (s.warn w).slots = s.slots := rfl
@[simp] theorem State.warn_calls_kept (w : W32) : (s.warn w).calls = s.calls := rfl
@[simp] theorem State.warn_signals_kept (w : W32) : (s.warn w).signals = s.signals := rfl
@[simp] theorem State.warn_posts_kept (w : W32) : (s.warn w).posts = s.posts := rfl
@[simp] theorem State.warn_sent_kept (w : W32) : (s.warn w).sent = s.sent := rfl
@[simp] theorem State.warn_pkg_kept (w : W32) : (s.warn w).pkg = s.pkg := rfl
@[simp] theorem State.wait_agenda_kept (lanes : List Nat) (w : Wait) : (s.wait lanes w).agenda = s.agenda := rfl
@[simp] theorem State.wait_clocks_kept (lanes : List Nat) (w : Wait) : (s.wait lanes w).clocks = s.clocks := rfl
@[simp] theorem State.wait_free_kept (lanes : List Nat) (w : Wait) : (s.wait lanes w).free = s.free := rfl
@[simp] theorem State.wait_cur_kept (lanes : List Nat) (w : Wait) : (s.wait lanes w).cur = s.cur := rfl
@[simp] theorem State.wait_ids_kept (lanes : List Nat) (w : Wait) : (s.wait lanes w).ids = s.ids := rfl
@[simp] theorem State.wait_groups_eq (lanes : List Nat) (w : Wait) : (s.wait lanes w).groups = s.groups.adjust s.cur.g (fun x => x.mapLanes lanes (fun _ b => { b with wait := w })) := rfl
@[simp] theorem State.wait_grids_kept (lanes : List Nat) (w : Wait) : (s.wait lanes w).grids = s.grids := rfl
@[simp] theorem State.wait_ctxs_kept (lanes : List Nat) (w : Wait) : (s.wait lanes w).ctxs = s.ctxs := rfl
@[simp] theorem State.wait_cores_kept (lanes : List Nat) (w : Wait) : (s.wait lanes w).cores = s.cores := rfl
@[simp] theorem State.wait_dies_kept (lanes : List Nat) (w : Wait) : (s.wait lanes w).dies = s.dies := rfl
@[simp] theorem State.wait_vfs_kept (lanes : List Nat) (w : Wait) : (s.wait lanes w).vfs = s.vfs := rfl
@[simp] theorem State.wait_mem_kept (lanes : List Nat) (w : Wait) : (s.wait lanes w).mem = s.mem := rfl
@[simp] theorem State.wait_poison_kept (lanes : List Nat) (w : Wait) : (s.wait lanes w).poison = s.poison := rfl
@[simp] theorem State.wait_seals_kept (lanes : List Nat) (w : Wait) : (s.wait lanes w).seals = s.seals := rfl
@[simp] theorem State.wait_host_kept (lanes : List Nat) (w : Wait) : (s.wait lanes w).host = s.host := rfl
@[simp] theorem State.wait_slots_kept (lanes : List Nat) (w : Wait) : (s.wait lanes w).slots = s.slots := rfl
@[simp] theorem State.wait_calls_kept (lanes : List Nat) (w : Wait) : (s.wait lanes w).calls = s.calls := rfl
@[simp] theorem State.wait_signals_kept (lanes : List Nat) (w : Wait) : (s.wait lanes w).signals = s.signals := rfl
@[simp] theorem State.wait_posts_kept (lanes : List Nat) (w : Wait) : (s.wait lanes w).posts = s.posts := rfl
@[simp] theorem State.wait_sent_kept (lanes : List Nat) (w : Wait) : (s.wait lanes w).sent = s.sent := rfl
@[simp] theorem State.wait_pkg_kept (lanes : List Nat) (w : Wait) : (s.wait lanes w).pkg = s.pkg := rfl
@[simp] theorem State.advance_agenda_kept (lanes : List Nat) : (s.advance lanes).agenda = s.agenda := rfl
@[simp] theorem State.advance_clocks_kept (lanes : List Nat) : (s.advance lanes).clocks = s.clocks := rfl
@[simp] theorem State.advance_free_kept (lanes : List Nat) : (s.advance lanes).free = s.free := rfl
@[simp] theorem State.advance_cur_kept (lanes : List Nat) : (s.advance lanes).cur = s.cur := rfl
@[simp] theorem State.advance_ids_kept (lanes : List Nat) : (s.advance lanes).ids = s.ids := rfl
@[simp] theorem State.advance_groups_eq (lanes : List Nat) : (s.advance lanes).groups = s.groups.adjust s.cur.g (fun x => x.mapLanes lanes (fun _ b => { b with pc := s.nextPc, wait := .free })) := rfl
@[simp] theorem State.advance_grids_kept (lanes : List Nat) : (s.advance lanes).grids = s.grids := rfl
@[simp] theorem State.advance_ctxs_kept (lanes : List Nat) : (s.advance lanes).ctxs = s.ctxs := rfl
@[simp] theorem State.advance_cores_kept (lanes : List Nat) : (s.advance lanes).cores = s.cores := rfl
@[simp] theorem State.advance_dies_kept (lanes : List Nat) : (s.advance lanes).dies = s.dies := rfl
@[simp] theorem State.advance_vfs_kept (lanes : List Nat) : (s.advance lanes).vfs = s.vfs := rfl
@[simp] theorem State.advance_mem_kept (lanes : List Nat) : (s.advance lanes).mem = s.mem := rfl
@[simp] theorem State.advance_poison_kept (lanes : List Nat) : (s.advance lanes).poison = s.poison := rfl
@[simp] theorem State.advance_seals_kept (lanes : List Nat) : (s.advance lanes).seals = s.seals := rfl
@[simp] theorem State.advance_host_kept (lanes : List Nat) : (s.advance lanes).host = s.host := rfl
@[simp] theorem State.advance_slots_kept (lanes : List Nat) : (s.advance lanes).slots = s.slots := rfl
@[simp] theorem State.advance_calls_kept (lanes : List Nat) : (s.advance lanes).calls = s.calls := rfl
@[simp] theorem State.advance_signals_kept (lanes : List Nat) : (s.advance lanes).signals = s.signals := rfl
@[simp] theorem State.advance_posts_kept (lanes : List Nat) : (s.advance lanes).posts = s.posts := rfl
@[simp] theorem State.advance_sent_kept (lanes : List Nat) : (s.advance lanes).sent = s.sent := rfl
@[simp] theorem State.advance_pkg_kept (lanes : List Nat) : (s.advance lanes).pkg = s.pkg := rfl
@[simp] theorem State.jump_agenda_kept (f : Nat → Fibre → W64) : (s.jump f).agenda = s.agenda := rfl
@[simp] theorem State.jump_clocks_kept (f : Nat → Fibre → W64) : (s.jump f).clocks = s.clocks := rfl
@[simp] theorem State.jump_free_kept (f : Nat → Fibre → W64) : (s.jump f).free = s.free := rfl
@[simp] theorem State.jump_cur_kept (f : Nat → Fibre → W64) : (s.jump f).cur = s.cur := rfl
@[simp] theorem State.jump_ids_kept (f : Nat → Fibre → W64) : (s.jump f).ids = s.ids := rfl
@[simp] theorem State.jump_groups_eq (f : Nat → Fibre → W64) : (s.jump f).groups = s.groups.adjust s.cur.g (fun x => x.mapLanes s.cur.lanes (fun l b => { b with pc := f l b, wait := .free })) := rfl
@[simp] theorem State.jump_grids_kept (f : Nat → Fibre → W64) : (s.jump f).grids = s.grids := rfl
@[simp] theorem State.jump_ctxs_kept (f : Nat → Fibre → W64) : (s.jump f).ctxs = s.ctxs := rfl
@[simp] theorem State.jump_cores_kept (f : Nat → Fibre → W64) : (s.jump f).cores = s.cores := rfl
@[simp] theorem State.jump_dies_kept (f : Nat → Fibre → W64) : (s.jump f).dies = s.dies := rfl
@[simp] theorem State.jump_vfs_kept (f : Nat → Fibre → W64) : (s.jump f).vfs = s.vfs := rfl
@[simp] theorem State.jump_mem_kept (f : Nat → Fibre → W64) : (s.jump f).mem = s.mem := rfl
@[simp] theorem State.jump_poison_kept (f : Nat → Fibre → W64) : (s.jump f).poison = s.poison := rfl
@[simp] theorem State.jump_seals_kept (f : Nat → Fibre → W64) : (s.jump f).seals = s.seals := rfl
@[simp] theorem State.jump_host_kept (f : Nat → Fibre → W64) : (s.jump f).host = s.host := rfl
@[simp] theorem State.jump_slots_kept (f : Nat → Fibre → W64) : (s.jump f).slots = s.slots := rfl
@[simp] theorem State.jump_calls_kept (f : Nat → Fibre → W64) : (s.jump f).calls = s.calls := rfl
@[simp] theorem State.jump_signals_kept (f : Nat → Fibre → W64) : (s.jump f).signals = s.signals := rfl
@[simp] theorem State.jump_posts_kept (f : Nat → Fibre → W64) : (s.jump f).posts = s.posts := rfl
@[simp] theorem State.jump_sent_kept (f : Nat → Fibre → W64) : (s.jump f).sent = s.sent := rfl
@[simp] theorem State.jump_pkg_kept (f : Nat → Fibre → W64) : (s.jump f).pkg = s.pkg := rfl
@[simp] theorem State.updGrid_agenda_kept (n : Nat) (f : Grid → Grid) : (s.updGrid n f).agenda = s.agenda := rfl
@[simp] theorem State.updGrid_clocks_kept (n : Nat) (f : Grid → Grid) : (s.updGrid n f).clocks = s.clocks := rfl
@[simp] theorem State.updGrid_free_kept (n : Nat) (f : Grid → Grid) : (s.updGrid n f).free = s.free := rfl
@[simp] theorem State.updGrid_cur_kept (n : Nat) (f : Grid → Grid) : (s.updGrid n f).cur = s.cur := rfl
@[simp] theorem State.updGrid_ids_kept (n : Nat) (f : Grid → Grid) : (s.updGrid n f).ids = s.ids := rfl
@[simp] theorem State.updGrid_groups_kept (n : Nat) (f : Grid → Grid) : (s.updGrid n f).groups = s.groups := rfl
@[simp] theorem State.updGrid_grids_eq (n : Nat) (f : Grid → Grid) : (s.updGrid n f).grids = s.grids.adjust n f := rfl
@[simp] theorem State.updGrid_ctxs_kept (n : Nat) (f : Grid → Grid) : (s.updGrid n f).ctxs = s.ctxs := rfl
@[simp] theorem State.updGrid_cores_kept (n : Nat) (f : Grid → Grid) : (s.updGrid n f).cores = s.cores := rfl
@[simp] theorem State.updGrid_dies_kept (n : Nat) (f : Grid → Grid) : (s.updGrid n f).dies = s.dies := rfl
@[simp] theorem State.updGrid_vfs_kept (n : Nat) (f : Grid → Grid) : (s.updGrid n f).vfs = s.vfs := rfl
@[simp] theorem State.updGrid_mem_kept (n : Nat) (f : Grid → Grid) : (s.updGrid n f).mem = s.mem := rfl
@[simp] theorem State.updGrid_poison_kept (n : Nat) (f : Grid → Grid) : (s.updGrid n f).poison = s.poison := rfl
@[simp] theorem State.updGrid_seals_kept (n : Nat) (f : Grid → Grid) : (s.updGrid n f).seals = s.seals := rfl
@[simp] theorem State.updGrid_host_kept (n : Nat) (f : Grid → Grid) : (s.updGrid n f).host = s.host := rfl
@[simp] theorem State.updGrid_slots_kept (n : Nat) (f : Grid → Grid) : (s.updGrid n f).slots = s.slots := rfl
@[simp] theorem State.updGrid_calls_kept (n : Nat) (f : Grid → Grid) : (s.updGrid n f).calls = s.calls := rfl
@[simp] theorem State.updGrid_signals_kept (n : Nat) (f : Grid → Grid) : (s.updGrid n f).signals = s.signals := rfl
@[simp] theorem State.updGrid_posts_kept (n : Nat) (f : Grid → Grid) : (s.updGrid n f).posts = s.posts := rfl
@[simp] theorem State.updGrid_sent_kept (n : Nat) (f : Grid → Grid) : (s.updGrid n f).sent = s.sent := rfl
@[simp] theorem State.updGrid_pkg_kept (n : Nat) (f : Grid → Grid) : (s.updGrid n f).pkg = s.pkg := rfl
@[simp] theorem State.updCore_agenda_kept (c : Nat) (f : Core → Core) : (s.updCore c f).agenda = s.agenda := rfl
@[simp] theorem State.updCore_clocks_kept (c : Nat) (f : Core → Core) : (s.updCore c f).clocks = s.clocks := rfl
@[simp] theorem State.updCore_free_kept (c : Nat) (f : Core → Core) : (s.updCore c f).free = s.free := rfl
@[simp] theorem State.updCore_cur_kept (c : Nat) (f : Core → Core) : (s.updCore c f).cur = s.cur := rfl
@[simp] theorem State.updCore_ids_kept (c : Nat) (f : Core → Core) : (s.updCore c f).ids = s.ids := rfl
@[simp] theorem State.updCore_groups_kept (c : Nat) (f : Core → Core) : (s.updCore c f).groups = s.groups := rfl
@[simp] theorem State.updCore_grids_kept (c : Nat) (f : Core → Core) : (s.updCore c f).grids = s.grids := rfl
@[simp] theorem State.updCore_ctxs_kept (c : Nat) (f : Core → Core) : (s.updCore c f).ctxs = s.ctxs := rfl
@[simp] theorem State.updCore_cores_eq (c : Nat) (f : Core → Core) : (s.updCore c f).cores = s.cores.upd c Core.reset f := rfl
@[simp] theorem State.updCore_dies_kept (c : Nat) (f : Core → Core) : (s.updCore c f).dies = s.dies := rfl
@[simp] theorem State.updCore_vfs_kept (c : Nat) (f : Core → Core) : (s.updCore c f).vfs = s.vfs := rfl
@[simp] theorem State.updCore_mem_kept (c : Nat) (f : Core → Core) : (s.updCore c f).mem = s.mem := rfl
@[simp] theorem State.updCore_poison_kept (c : Nat) (f : Core → Core) : (s.updCore c f).poison = s.poison := rfl
@[simp] theorem State.updCore_seals_kept (c : Nat) (f : Core → Core) : (s.updCore c f).seals = s.seals := rfl
@[simp] theorem State.updCore_host_kept (c : Nat) (f : Core → Core) : (s.updCore c f).host = s.host := rfl
@[simp] theorem State.updCore_slots_kept (c : Nat) (f : Core → Core) : (s.updCore c f).slots = s.slots := rfl
@[simp] theorem State.updCore_calls_kept (c : Nat) (f : Core → Core) : (s.updCore c f).calls = s.calls := rfl
@[simp] theorem State.updCore_signals_kept (c : Nat) (f : Core → Core) : (s.updCore c f).signals = s.signals := rfl
@[simp] theorem State.updCore_posts_kept (c : Nat) (f : Core → Core) : (s.updCore c f).posts = s.posts := rfl
@[simp] theorem State.updCore_sent_kept (c : Nat) (f : Core → Core) : (s.updCore c f).sent = s.sent := rfl
@[simp] theorem State.updCore_pkg_kept (c : Nat) (f : Core → Core) : (s.updCore c f).pkg = s.pkg := rfl
@[simp] theorem State.updDie_agenda_kept (d : Nat) (f : Die → Die) : (s.updDie d f).agenda = s.agenda := rfl
@[simp] theorem State.updDie_clocks_kept (d : Nat) (f : Die → Die) : (s.updDie d f).clocks = s.clocks := rfl
@[simp] theorem State.updDie_free_kept (d : Nat) (f : Die → Die) : (s.updDie d f).free = s.free := rfl
@[simp] theorem State.updDie_cur_kept (d : Nat) (f : Die → Die) : (s.updDie d f).cur = s.cur := rfl
@[simp] theorem State.updDie_ids_kept (d : Nat) (f : Die → Die) : (s.updDie d f).ids = s.ids := rfl
@[simp] theorem State.updDie_groups_kept (d : Nat) (f : Die → Die) : (s.updDie d f).groups = s.groups := rfl
@[simp] theorem State.updDie_grids_kept (d : Nat) (f : Die → Die) : (s.updDie d f).grids = s.grids := rfl
@[simp] theorem State.updDie_ctxs_kept (d : Nat) (f : Die → Die) : (s.updDie d f).ctxs = s.ctxs := rfl
@[simp] theorem State.updDie_cores_kept (d : Nat) (f : Die → Die) : (s.updDie d f).cores = s.cores := rfl
@[simp] theorem State.updDie_dies_eq (d : Nat) (f : Die → Die) : (s.updDie d f).dies = s.dies.upd d Die.reset f := rfl
@[simp] theorem State.updDie_vfs_kept (d : Nat) (f : Die → Die) : (s.updDie d f).vfs = s.vfs := rfl
@[simp] theorem State.updDie_mem_kept (d : Nat) (f : Die → Die) : (s.updDie d f).mem = s.mem := rfl
@[simp] theorem State.updDie_poison_kept (d : Nat) (f : Die → Die) : (s.updDie d f).poison = s.poison := rfl
@[simp] theorem State.updDie_seals_kept (d : Nat) (f : Die → Die) : (s.updDie d f).seals = s.seals := rfl
@[simp] theorem State.updDie_host_kept (d : Nat) (f : Die → Die) : (s.updDie d f).host = s.host := rfl
@[simp] theorem State.updDie_slots_kept (d : Nat) (f : Die → Die) : (s.updDie d f).slots = s.slots := rfl
@[simp] theorem State.updDie_calls_kept (d : Nat) (f : Die → Die) : (s.updDie d f).calls = s.calls := rfl
@[simp] theorem State.updDie_signals_kept (d : Nat) (f : Die → Die) : (s.updDie d f).signals = s.signals := rfl
@[simp] theorem State.updDie_posts_kept (d : Nat) (f : Die → Die) : (s.updDie d f).posts = s.posts := rfl
@[simp] theorem State.updDie_sent_kept (d : Nat) (f : Die → Die) : (s.updDie d f).sent = s.sent := rfl
@[simp] theorem State.updDie_pkg_kept (d : Nat) (f : Die → Die) : (s.updDie d f).pkg = s.pkg := rfl
@[simp] theorem State.updVf_agenda_kept (v : Nat) (f : Vf → Vf) : (s.updVf v f).agenda = s.agenda := rfl
@[simp] theorem State.updVf_clocks_kept (v : Nat) (f : Vf → Vf) : (s.updVf v f).clocks = s.clocks := rfl
@[simp] theorem State.updVf_free_kept (v : Nat) (f : Vf → Vf) : (s.updVf v f).free = s.free := rfl
@[simp] theorem State.updVf_cur_kept (v : Nat) (f : Vf → Vf) : (s.updVf v f).cur = s.cur := rfl
@[simp] theorem State.updVf_ids_kept (v : Nat) (f : Vf → Vf) : (s.updVf v f).ids = s.ids := rfl
@[simp] theorem State.updVf_groups_kept (v : Nat) (f : Vf → Vf) : (s.updVf v f).groups = s.groups := rfl
@[simp] theorem State.updVf_grids_kept (v : Nat) (f : Vf → Vf) : (s.updVf v f).grids = s.grids := rfl
@[simp] theorem State.updVf_ctxs_kept (v : Nat) (f : Vf → Vf) : (s.updVf v f).ctxs = s.ctxs := rfl
@[simp] theorem State.updVf_cores_kept (v : Nat) (f : Vf → Vf) : (s.updVf v f).cores = s.cores := rfl
@[simp] theorem State.updVf_dies_kept (v : Nat) (f : Vf → Vf) : (s.updVf v f).dies = s.dies := rfl
@[simp] theorem State.updVf_vfs_eq (v : Nat) (f : Vf → Vf) : (s.updVf v f).vfs = s.vfs.adjust v (fun v => if v.alive then f v else v) := rfl
@[simp] theorem State.updVf_mem_kept (v : Nat) (f : Vf → Vf) : (s.updVf v f).mem = s.mem := rfl
@[simp] theorem State.updVf_poison_kept (v : Nat) (f : Vf → Vf) : (s.updVf v f).poison = s.poison := rfl
@[simp] theorem State.updVf_seals_kept (v : Nat) (f : Vf → Vf) : (s.updVf v f).seals = s.seals := rfl
@[simp] theorem State.updVf_host_kept (v : Nat) (f : Vf → Vf) : (s.updVf v f).host = s.host := rfl
@[simp] theorem State.updVf_slots_kept (v : Nat) (f : Vf → Vf) : (s.updVf v f).slots = s.slots := rfl
@[simp] theorem State.updVf_calls_kept (v : Nat) (f : Vf → Vf) : (s.updVf v f).calls = s.calls := rfl
@[simp] theorem State.updVf_signals_kept (v : Nat) (f : Vf → Vf) : (s.updVf v f).signals = s.signals := rfl
@[simp] theorem State.updVf_posts_kept (v : Nat) (f : Vf → Vf) : (s.updVf v f).posts = s.posts := rfl
@[simp] theorem State.updVf_sent_kept (v : Nat) (f : Vf → Vf) : (s.updVf v f).sent = s.sent := rfl
@[simp] theorem State.updVf_pkg_kept (v : Nat) (f : Vf → Vf) : (s.updVf v f).pkg = s.pkg := rfl
@[simp] theorem State.updPkg_agenda_kept (f : Package → Package) : (s.updPkg f).agenda = s.agenda := rfl
@[simp] theorem State.updPkg_clocks_kept (f : Package → Package) : (s.updPkg f).clocks = s.clocks := rfl
@[simp] theorem State.updPkg_free_kept (f : Package → Package) : (s.updPkg f).free = s.free := rfl
@[simp] theorem State.updPkg_cur_kept (f : Package → Package) : (s.updPkg f).cur = s.cur := rfl
@[simp] theorem State.updPkg_ids_kept (f : Package → Package) : (s.updPkg f).ids = s.ids := rfl
@[simp] theorem State.updPkg_groups_kept (f : Package → Package) : (s.updPkg f).groups = s.groups := rfl
@[simp] theorem State.updPkg_grids_kept (f : Package → Package) : (s.updPkg f).grids = s.grids := rfl
@[simp] theorem State.updPkg_ctxs_kept (f : Package → Package) : (s.updPkg f).ctxs = s.ctxs := rfl
@[simp] theorem State.updPkg_cores_kept (f : Package → Package) : (s.updPkg f).cores = s.cores := rfl
@[simp] theorem State.updPkg_dies_kept (f : Package → Package) : (s.updPkg f).dies = s.dies := rfl
@[simp] theorem State.updPkg_vfs_kept (f : Package → Package) : (s.updPkg f).vfs = s.vfs := rfl
@[simp] theorem State.updPkg_mem_kept (f : Package → Package) : (s.updPkg f).mem = s.mem := rfl
@[simp] theorem State.updPkg_poison_kept (f : Package → Package) : (s.updPkg f).poison = s.poison := rfl
@[simp] theorem State.updPkg_seals_kept (f : Package → Package) : (s.updPkg f).seals = s.seals := rfl
@[simp] theorem State.updPkg_host_kept (f : Package → Package) : (s.updPkg f).host = s.host := rfl
@[simp] theorem State.updPkg_slots_kept (f : Package → Package) : (s.updPkg f).slots = s.slots := rfl
@[simp] theorem State.updPkg_calls_kept (f : Package → Package) : (s.updPkg f).calls = s.calls := rfl
@[simp] theorem State.updPkg_signals_kept (f : Package → Package) : (s.updPkg f).signals = s.signals := rfl
@[simp] theorem State.updPkg_posts_kept (f : Package → Package) : (s.updPkg f).posts = s.posts := rfl
@[simp] theorem State.updPkg_sent_kept (f : Package → Package) : (s.updPkg f).sent = s.sent := rfl
@[simp] theorem State.updPkg_pkg_eq (f : Package → Package) : (s.updPkg f).pkg = f s.pkg := rfl
@[simp] theorem State.updSlot_agenda_kept (n : Nat) (f : Slot → Slot) : (s.updSlot n f).agenda = s.agenda := rfl
@[simp] theorem State.updSlot_clocks_kept (n : Nat) (f : Slot → Slot) : (s.updSlot n f).clocks = s.clocks := rfl
@[simp] theorem State.updSlot_free_kept (n : Nat) (f : Slot → Slot) : (s.updSlot n f).free = s.free := rfl
@[simp] theorem State.updSlot_cur_kept (n : Nat) (f : Slot → Slot) : (s.updSlot n f).cur = s.cur := rfl
@[simp] theorem State.updSlot_ids_kept (n : Nat) (f : Slot → Slot) : (s.updSlot n f).ids = s.ids := rfl
@[simp] theorem State.updSlot_groups_kept (n : Nat) (f : Slot → Slot) : (s.updSlot n f).groups = s.groups := rfl
@[simp] theorem State.updSlot_grids_kept (n : Nat) (f : Slot → Slot) : (s.updSlot n f).grids = s.grids := rfl
@[simp] theorem State.updSlot_ctxs_kept (n : Nat) (f : Slot → Slot) : (s.updSlot n f).ctxs = s.ctxs := rfl
@[simp] theorem State.updSlot_cores_kept (n : Nat) (f : Slot → Slot) : (s.updSlot n f).cores = s.cores := rfl
@[simp] theorem State.updSlot_dies_kept (n : Nat) (f : Slot → Slot) : (s.updSlot n f).dies = s.dies := rfl
@[simp] theorem State.updSlot_vfs_kept (n : Nat) (f : Slot → Slot) : (s.updSlot n f).vfs = s.vfs := rfl
@[simp] theorem State.updSlot_mem_kept (n : Nat) (f : Slot → Slot) : (s.updSlot n f).mem = s.mem := rfl
@[simp] theorem State.updSlot_poison_kept (n : Nat) (f : Slot → Slot) : (s.updSlot n f).poison = s.poison := rfl
@[simp] theorem State.updSlot_seals_kept (n : Nat) (f : Slot → Slot) : (s.updSlot n f).seals = s.seals := rfl
@[simp] theorem State.updSlot_host_kept (n : Nat) (f : Slot → Slot) : (s.updSlot n f).host = s.host := rfl
@[simp] theorem State.updSlot_slots_eq (n : Nat) (f : Slot → Slot) : (s.updSlot n f).slots = s.slots.adjust n f := rfl
@[simp] theorem State.updSlot_calls_kept (n : Nat) (f : Slot → Slot) : (s.updSlot n f).calls = s.calls := rfl
@[simp] theorem State.updSlot_signals_kept (n : Nat) (f : Slot → Slot) : (s.updSlot n f).signals = s.signals := rfl
@[simp] theorem State.updSlot_posts_kept (n : Nat) (f : Slot → Slot) : (s.updSlot n f).posts = s.posts := rfl
@[simp] theorem State.updSlot_sent_kept (n : Nat) (f : Slot → Slot) : (s.updSlot n f).sent = s.sent := rfl
@[simp] theorem State.updSlot_pkg_kept (n : Nat) (f : Slot → Slot) : (s.updSlot n f).pkg = s.pkg := rfl
@[simp] theorem State.updHalt_agenda_kept (c : Nat) (f : Halt → Halt) : (s.updHalt c f).agenda = s.agenda := rfl
@[simp] theorem State.updHalt_clocks_kept (c : Nat) (f : Halt → Halt) : (s.updHalt c f).clocks = s.clocks := rfl
@[simp] theorem State.updHalt_free_kept (c : Nat) (f : Halt → Halt) : (s.updHalt c f).free = s.free := rfl
@[simp] theorem State.updHalt_cur_kept (c : Nat) (f : Halt → Halt) : (s.updHalt c f).cur = s.cur := rfl
@[simp] theorem State.updHalt_ids_kept (c : Nat) (f : Halt → Halt) : (s.updHalt c f).ids = s.ids := rfl
@[simp] theorem State.updHalt_groups_kept (c : Nat) (f : Halt → Halt) : (s.updHalt c f).groups = s.groups := rfl
@[simp] theorem State.updHalt_grids_kept (c : Nat) (f : Halt → Halt) : (s.updHalt c f).grids = s.grids := rfl
@[simp] theorem State.updHalt_ctxs_eq (c : Nat) (f : Halt → Halt) : (s.updHalt c f).ctxs = s.ctxs.adjust c (fun c => { c with halt := c.halt.map f }) := rfl
@[simp] theorem State.updHalt_cores_kept (c : Nat) (f : Halt → Halt) : (s.updHalt c f).cores = s.cores := rfl
@[simp] theorem State.updHalt_dies_kept (c : Nat) (f : Halt → Halt) : (s.updHalt c f).dies = s.dies := rfl
@[simp] theorem State.updHalt_vfs_kept (c : Nat) (f : Halt → Halt) : (s.updHalt c f).vfs = s.vfs := rfl
@[simp] theorem State.updHalt_mem_kept (c : Nat) (f : Halt → Halt) : (s.updHalt c f).mem = s.mem := rfl
@[simp] theorem State.updHalt_poison_kept (c : Nat) (f : Halt → Halt) : (s.updHalt c f).poison = s.poison := rfl
@[simp] theorem State.updHalt_seals_kept (c : Nat) (f : Halt → Halt) : (s.updHalt c f).seals = s.seals := rfl
@[simp] theorem State.updHalt_host_kept (c : Nat) (f : Halt → Halt) : (s.updHalt c f).host = s.host := rfl
@[simp] theorem State.updHalt_slots_kept (c : Nat) (f : Halt → Halt) : (s.updHalt c f).slots = s.slots := rfl
@[simp] theorem State.updHalt_calls_kept (c : Nat) (f : Halt → Halt) : (s.updHalt c f).calls = s.calls := rfl
@[simp] theorem State.updHalt_signals_kept (c : Nat) (f : Halt → Halt) : (s.updHalt c f).signals = s.signals := rfl
@[simp] theorem State.updHalt_posts_kept (c : Nat) (f : Halt → Halt) : (s.updHalt c f).posts = s.posts := rfl
@[simp] theorem State.updHalt_sent_kept (c : Nat) (f : Halt → Halt) : (s.updHalt c f).sent = s.sent := rfl
@[simp] theorem State.updHalt_pkg_kept (c : Nat) (f : Halt → Halt) : (s.updHalt c f).pkg = s.pkg := rfl
@[simp] theorem State.narrow_agenda_kept (lanes : List Nat) : (s.narrow lanes).agenda = s.agenda := rfl
@[simp] theorem State.narrow_clocks_kept (lanes : List Nat) : (s.narrow lanes).clocks = s.clocks := rfl
@[simp] theorem State.narrow_free_kept (lanes : List Nat) : (s.narrow lanes).free = s.free := rfl
@[simp] theorem State.narrow_cur_eq (lanes : List Nat) : (s.narrow lanes).cur = { s.cur with lanes := lanes } := rfl
@[simp] theorem State.narrow_ids_kept (lanes : List Nat) : (s.narrow lanes).ids = s.ids := rfl
@[simp] theorem State.narrow_groups_kept (lanes : List Nat) : (s.narrow lanes).groups = s.groups := rfl
@[simp] theorem State.narrow_grids_kept (lanes : List Nat) : (s.narrow lanes).grids = s.grids := rfl
@[simp] theorem State.narrow_ctxs_kept (lanes : List Nat) : (s.narrow lanes).ctxs = s.ctxs := rfl
@[simp] theorem State.narrow_cores_kept (lanes : List Nat) : (s.narrow lanes).cores = s.cores := rfl
@[simp] theorem State.narrow_dies_kept (lanes : List Nat) : (s.narrow lanes).dies = s.dies := rfl
@[simp] theorem State.narrow_vfs_kept (lanes : List Nat) : (s.narrow lanes).vfs = s.vfs := rfl
@[simp] theorem State.narrow_mem_kept (lanes : List Nat) : (s.narrow lanes).mem = s.mem := rfl
@[simp] theorem State.narrow_poison_kept (lanes : List Nat) : (s.narrow lanes).poison = s.poison := rfl
@[simp] theorem State.narrow_seals_kept (lanes : List Nat) : (s.narrow lanes).seals = s.seals := rfl
@[simp] theorem State.narrow_host_kept (lanes : List Nat) : (s.narrow lanes).host = s.host := rfl
@[simp] theorem State.narrow_slots_kept (lanes : List Nat) : (s.narrow lanes).slots = s.slots := rfl
@[simp] theorem State.narrow_calls_kept (lanes : List Nat) : (s.narrow lanes).calls = s.calls := rfl
@[simp] theorem State.narrow_signals_kept (lanes : List Nat) : (s.narrow lanes).signals = s.signals := rfl
@[simp] theorem State.narrow_posts_kept (lanes : List Nat) : (s.narrow lanes).posts = s.posts := rfl
@[simp] theorem State.narrow_sent_kept (lanes : List Nat) : (s.narrow lanes).sent = s.sent := rfl
@[simp] theorem State.narrow_pkg_kept (lanes : List Nat) : (s.narrow lanes).pkg = s.pkg := rfl
@[simp] theorem State.moveGroup_agenda_kept (g : Nat) (x : GSet) : (s.moveGroup g x).agenda = s.agenda := rfl
@[simp] theorem State.moveGroup_clocks_kept (g : Nat) (x : GSet) : (s.moveGroup g x).clocks = s.clocks := rfl
@[simp] theorem State.moveGroup_free_kept (g : Nat) (x : GSet) : (s.moveGroup g x).free = s.free := rfl
@[simp] theorem State.moveGroup_cur_kept (g : Nat) (x : GSet) : (s.moveGroup g x).cur = s.cur := rfl
@[simp] theorem State.moveGroup_ids_kept (g : Nat) (x : GSet) : (s.moveGroup g x).ids = s.ids := rfl
@[simp] theorem State.moveGroup_grids_kept (g : Nat) (x : GSet) : (s.moveGroup g x).grids = s.grids := rfl
@[simp] theorem State.moveGroup_ctxs_kept (g : Nat) (x : GSet) : (s.moveGroup g x).ctxs = s.ctxs := rfl
@[simp] theorem State.moveGroup_cores_kept (g : Nat) (x : GSet) : (s.moveGroup g x).cores = s.cores := rfl
@[simp] theorem State.moveGroup_dies_kept (g : Nat) (x : GSet) : (s.moveGroup g x).dies = s.dies := rfl
@[simp] theorem State.moveGroup_vfs_kept (g : Nat) (x : GSet) : (s.moveGroup g x).vfs = s.vfs := rfl
@[simp] theorem State.moveGroup_mem_kept (g : Nat) (x : GSet) : (s.moveGroup g x).mem = s.mem := rfl
@[simp] theorem State.moveGroup_poison_kept (g : Nat) (x : GSet) : (s.moveGroup g x).poison = s.poison := rfl
@[simp] theorem State.moveGroup_seals_kept (g : Nat) (x : GSet) : (s.moveGroup g x).seals = s.seals := rfl
@[simp] theorem State.moveGroup_host_kept (g : Nat) (x : GSet) : (s.moveGroup g x).host = s.host := rfl
@[simp] theorem State.moveGroup_slots_kept (g : Nat) (x : GSet) : (s.moveGroup g x).slots = s.slots := rfl
@[simp] theorem State.moveGroup_calls_kept (g : Nat) (x : GSet) : (s.moveGroup g x).calls = s.calls := rfl
@[simp] theorem State.moveGroup_signals_kept (g : Nat) (x : GSet) : (s.moveGroup g x).signals = s.signals := rfl
@[simp] theorem State.moveGroup_posts_kept (g : Nat) (x : GSet) : (s.moveGroup g x).posts = s.posts := rfl
@[simp] theorem State.moveGroup_sent_kept (g : Nat) (x : GSet) : (s.moveGroup g x).sent = s.sent := rfl
@[simp] theorem State.moveGroup_pkg_kept (g : Nat) (x : GSet) : (s.moveGroup g x).pkg = s.pkg := rfl

end Sys2Proof.Machine
end

