-- ==== Sys2Proof/Laws/Lookup.lean ====
section
/-! SUPPORT. Reading groups and fibres after a change of one group or of some lanes. -/

namespace Sys2Proof.Machine

theorem has_iff (l : List Nat) (n : Nat) : has l n = true ↔ n ∈ l := by simp [has]

theorem State.group_updGroup_ne (s : State) {g h : Nat} (f : Group → Group) (hne : h ≠ g) : (s.updGroup g f).group h = s.group h :=
  Map.get_adjust_ne _ _ _ hne

theorem State.group_updGroup_self (s : State) {g : Nat} (f : Group → Group) (h : (s.groups.find? g).isSome = true) :
    (s.updGroup g f).group g = f (s.group g) := Map.get_adjust_self _ _ _ _ h

theorem State.resident_of_liveAt {s : State} {g l : Nat} (h : s.liveAt g l) : (s.groups.find? g).isSome = true := by
  unfold State.liveAt State.group Map.get at h
  cases hg : s.groups.find? g with
  | none => simp [hg, Group.none, Map.find?] at h
  | some x => rfl

theorem State.lane_congr {s t : State} (h : t.groups = s.groups) (g l : Nat) : t.lane g l = s.lane g l := by
  unfold State.lane State.group; rw [h]

theorem State.liveAt_congr {s t : State} (h : t.groups = s.groups) (g l : Nat) : t.liveAt g l ↔ s.liveAt g l := by
  unfold State.liveAt State.group; rw [h]

/-- A change of the group that keeps the fibres' lanes. -/
theorem State.lane_updGroup {s : State} {g l : Nat} (f : Group → Group) (h : s.liveAt g l) (hf : (f (s.group g)).fibres = (s.group g).fibres) :
    (s.updGroup g f).lane g l = s.lane g l := by
  unfold State.lane Group.fibre; rw [State.group_updGroup_self s f (State.resident_of_liveAt h), hf]

theorem State.liveAt_updGroup {s : State} {g l : Nat} (f : Group → Group) (h : s.liveAt g l) (hf : (f (s.group g)).fibres = (s.group g).fibres) :
    (s.updGroup g f).liveAt g l := by
  unfold State.liveAt; rw [State.group_updGroup_self s f (State.resident_of_liveAt h), hf]; exact h

theorem Group.fibre_mapLanes (x : Group) (lanes : List Nat) (f : Nat → Fibre → Fibre) {l : Nat} (h : (x.fibres.find? l).isSome = true) :
    (x.mapLanes lanes f).fibre l = if l ∈ lanes then f l (x.fibre l) else x.fibre l := by
  obtain ⟨b, hb⟩ := Option.isSome_iff_exists.1 h
  by_cases hl : l ∈ lanes
  · simp [Group.mapLanes, Group.fibre, Map.get, hb, (has_iff _ _).2 hl, hl]
  · have : has lanes l = false := by rw [← Bool.not_eq_true, has_iff]; exact hl
    simp [Group.mapLanes, Group.fibre, Map.get, hb, this, hl]

theorem State.lane_mapLanes {s : State} {g l : Nat} (lanes : List Nat) (f : Nat → Fibre → Fibre) (h : s.liveAt g l) :
    (s.mapLanes g lanes f).lane g l = if l ∈ lanes then f l (s.lane g l) else s.lane g l := by
  unfold State.mapLanes State.lane
  rw [State.group_updGroup_self s _ (State.resident_of_liveAt h)]
  exact Group.fibre_mapLanes _ _ _ h

theorem State.liveAt_mapLanes {s : State} {g l : Nat} (lanes : List Nat) (f : Nat → Fibre → Fibre) (h : s.liveAt g l) :
    (s.mapLanes g lanes f).liveAt g l := by
  unfold State.mapLanes State.liveAt
  rw [State.group_updGroup_self s _ (State.resident_of_liveAt h)]
  simp only [Group.mapLanes, Map.find?_mapVals]
  obtain ⟨b, hb⟩ := Option.isSome_iff_exists.1 h
  simp [hb]

theorem State.lane_mapLanes_ne {s : State} {g h l : Nat} (lanes : List Nat) (f : Nat → Fibre → Fibre) (hne : h ≠ g) :
    (s.mapLanes g lanes f).lane h l = s.lane h l := by
  unfold State.mapLanes State.lane; rw [State.group_updGroup_ne s _ hne]

theorem State.lane_warn {s : State} {l : Nat} (w : W32) (h : s.liveAt s.cur.g l) : (s.warn w).lane s.cur.g l = s.lane s.cur.g l :=
  State.lane_updGroup _ h rfl

theorem State.liveAt_warn {s : State} {l : Nat} (w : W32) (h : s.liveAt s.cur.g l) : (s.warn w).liveAt s.cur.g l :=
  State.liveAt_updGroup _ h rfl

end Sys2Proof.Machine
end

