-- ==== Sys2Proof/Laws/Registers.lean ====
section
/-! SUPPORT. Registers of a fibre: reading after a write, after a tag and after a register is freed, and what a destination reads as. -/

namespace Sys2Proof.Machine

-- ## One register

theorem getLsbD_setBit8 (x : BitVec 8) (i j : Nat) (b : Bool) (hi : i < 8) (hj : j < 8) :
    (setBit8 x i b).getLsbD j = if j = i then b else x.getLsbD j := by
  have : ∀ (i j : Fin 8) (b : Bool), (setBit8 x i b).getLsbD j = if (j : Nat) = i then b else x.getLsbD j := by
    intro i j b
    unfold setBit8
    cases b <;> fin_cases i <;> fin_cases j <;> simp
  exact this ⟨i, hi⟩ ⟨j, hj⟩ b

theorem Fibre.vRow_freeReg (b : Fibre) (r : Reg) (j : Nat) (h : r ≠ ⟨.v, j⟩) : (b.freeReg r).vRow j = b.vRow j := by
  obtain ⟨f, i⟩ := r
  cases f with
  | v =>
    have : j ≠ i := fun e => h (by rw [e])
    exact Map.get_del_ne _ _ this
  | k => rfl
  | w => rfl
  | q => rfl

theorem Fibre.kReg_freeReg (b : Fibre) (r : Reg) (j : Nat) (h : r ≠ ⟨.k, j⟩) : (b.freeReg r).kReg j = b.kReg j := by
  obtain ⟨f, i⟩ := r
  cases f with
  | v => rfl
  | k =>
    have : j ≠ i := fun e => h (by rw [e])
    exact Map.get_del_ne _ _ this
  | w => rfl
  | q => rfl

theorem Fibre.wReg_freeReg (b : Fibre) (r : Reg) (j : Nat) (h : r ≠ ⟨.w, j⟩) : (b.freeReg r).wReg j = b.wReg j := by
  obtain ⟨f, i⟩ := r
  cases f with
  | v => rfl
  | k => rfl
  | w =>
    have : j ≠ i := fun e => h (by rw [e])
    exact Map.get_del_ne _ _ this
  | q => rfl

theorem Fibre.cw_freeReg (b : Fibre) (r : Reg) : (b.freeReg r).cw = b.cw := by
  obtain ⟨f, i⟩ := r; cases f <;> rfl

theorem Fibre.regVal_freeReg (b : Fibre) (r x : Reg) (h : x ≠ r) : (b.freeReg x).regVal r = b.regVal r := by
  obtain ⟨f, i⟩ := r
  cases f with
  | v => simp only [Fibre.regVal, Fibre.vRow_freeReg b x i h]
  | k => simp only [Fibre.regVal, Fibre.kReg_freeReg b x i h]
  | w => simp only [Fibre.regVal, Fibre.wReg_freeReg b x i h]
  | q => simp only [Fibre.regVal, Fibre.qBit, Fibre.cw_freeReg]

/-- Freeing registers leaves the others. -/
theorem Fibre.regVal_freeRegs (l : List Reg) (b : Fibre) (r : Reg) (h : r ∉ l) : (l.foldl Fibre.freeReg b).regVal r = b.regVal r := by
  induction l generalizing b with
  | nil => rfl
  | cons x l ih =>
    simp only [List.mem_cons, not_or] at h
    rw [List.foldl_cons, ih _ h.2, Fibre.regVal_freeReg b r x (Ne.symm h.1)]

theorem Fibre.cw_freeRegs (l : List Reg) (b : Fibre) : (l.foldl Fibre.freeReg b).cw = b.cw := by
  induction l generalizing b with
  | nil => rfl
  | cons x l ih => rw [List.foldl_cons, ih, Fibre.cw_freeReg]

/-- A freed register reads 0 with clear tags (R54). -/
theorem Fibre.regVal_freed (l : List Reg) (b : Fibre) (r : Reg) (h : r ∈ l) (hq : r.file ≠ .q) : (l.foldl Fibre.freeReg b).regVal r = Val.zero := by
  induction l generalizing b with
  | nil => simp at h
  | cons x l ih =>
    rw [List.foldl_cons]
    by_cases hl : r ∈ l
    · exact ih _ hl
    · have hx : r = x := by simpa [hl] using h
      rw [Fibre.regVal_freeRegs l _ r hl]
      subst hx
      obtain ⟨f, i⟩ := r
      cases f <;> simp_all [Fibre.regVal, Fibre.freeReg, Fibre.vRow, Fibre.kReg, Fibre.wReg, Elem.zero, Val.zero]

-- ## Consecutive v registers

/-- The registers of consecutive rows. -/
theorem Fibre.vRows_congr (b c : Fibre) (n r : Nat) (h : ∀ i, i < n → b.vRow (r + i) = c.vRow (r + i)) : b.vRows r n = c.vRows r n := by
  induction n generalizing r with
  | zero => rfl
  | succ n ih =>
    have h0 : b.vRow r = c.vRow r := by simpa using h 0 (by omega)
    have ht : b.vRows (r + 1) n = c.vRows (r + 1) n := ih (r + 1) (fun i hi => by have := h (i + 1) (by omega); rwa [show r + 1 + i = r + (i + 1) by omega])
    simp only [Fibre.vRows, h0, ht]

theorem Fibre.vRows_lt (b : Fibre) (n r : Nat) : (b.vRows r n).bits < 2 ^ (32 * n) := by
  induction n generalizing r with
  | zero => simp [Fibre.vRows, Val.zero]
  | succ n ih =>
    have h := ih (r + 1)
    have h0 : (b.vRow r).val.toNat < 2 ^ 32 := (b.vRow r).val.isLt
    simp only [Fibre.vRows]
    have : 2 ^ (32 * (n + 1)) = 2 ^ 32 * 2 ^ (32 * n) := by rw [← Nat.pow_add]; congr 1; omega
    rw [this]
    nlinarith

theorem Fibre.vRow_writeRows_ne (v : Val) (n : Nat) (b : Fibre) (r bits j : Nat) (h : j < r ∨ r + n ≤ j) : (b.writeRows v r bits n).vRow j = b.vRow j := by
  induction n generalizing b r bits with
  | zero => rfl
  | succ n ih =>
    simp only [Fibre.writeRows]
    rw [ih _ _ _ (by omega)]
    exact Map.get_put_ne _ _ _ (by omega)

theorem Fibre.writeRows_cw (v : Val) (n : Nat) (b : Fibre) (r bits : Nat) : (b.writeRows v r bits n).cw = b.cw := by
  induction n generalizing b r bits with
  | zero => rfl
  | succ n ih => simp only [Fibre.writeRows, ih]

theorem Fibre.writeRows_k (v : Val) (n : Nat) (b : Fibre) (r bits : Nat) : (b.writeRows v r bits n).k = b.k := by
  induction n generalizing b r bits with
  | zero => rfl
  | succ n ih => simp only [Fibre.writeRows, ih]

theorem Fibre.writeRows_w (v : Val) (n : Nat) (b : Fibre) (r bits : Nat) : (b.writeRows v r bits n).w = b.w := by
  induction n generalizing b r bits with
  | zero => rfl
  | succ n ih => simp only [Fibre.writeRows, ih]

/-- Rows written read back: the low bits, and the tags in every row. -/
theorem Fibre.vRows_writeRows (v : Val) (n : Nat) (b : Fibre) (r bits : Nat) :
    (b.writeRows v r bits n).vRows r n = ⟨bits % 2 ^ (32 * n), decide (0 < n) && v.g, decide (0 < n) && v.p⟩ := by
  induction n generalizing b r bits with
  | zero => simp [Fibre.vRows, Val.zero, Nat.mod_one]
  | succ n ih =>
    have h0 : (b.writeRows v r bits (n + 1)).vRow r = ⟨BitVec.ofNat 32 bits, v.g, v.p⟩ := by
      simp only [Fibre.writeRows]
      rw [Fibre.vRow_writeRows_ne _ _ _ _ _ _ (by omega)]
      exact Map.get_put_self _ _ _ _
    have ht := ih ({ b with v := b.v.put r ⟨BitVec.ofNat 32 bits, v.g, v.p⟩ }) (r + 1) (bits / 2 ^ 32)
    simp only [Fibre.vRows]
    rw [h0]
    simp only [Fibre.writeRows] at ht ⊢
    rw [ht]
    have e : 2 ^ (32 * (n + 1)) = 2 ^ 32 * 2 ^ (32 * n) := by rw [← Nat.pow_add]; congr 1; omega
    simp only [BitVec.toNat_ofNat, e, Nat.mod_mul]
    cases v.g <;> cases v.p <;> simp

-- ## Destinations

/-- The number of consecutive v registers of a destination is not 0. -/
def Dst.ok : Dst → Prop
  | .v _ n => 0 < n
  | .vk _ n => 0 < n
  | _ => True

theorem Dst.cw_wb_write (d : Dst) (b : Fibre) (v : Val) : (d.write b v).cw.wb = b.cw.wb := by
  cases d with
  | v c n => simp only [Dst.write]; split <;> simp [Fibre.writeRows_cw]
  | vk c n => simp only [Dst.write]; split; · simp [Fibre.writeRows_cw]
              split <;> simp [Fibre.writeK]
  | k c => simp only [Dst.write]; split <;> simp [Fibre.writeK]
  | q c => simp only [Dst.write]; split <;> simp [Fibre.writeQ]
  | w i => rfl
  | none => rfl

/-- A destination reads back what was written. -/
theorem Dst.read_write (d : Dst) (b : Fibre) (v : Val) (h : d.ok) : d.read (d.write b v) = d.holds v := by
  cases d with
  | v c n =>
    simp only [Dst.read, Dst.write, Dst.holds]
    by_cases hc : c < 96
    · simp only [hc, if_true]
      rw [show Fibre.row (b.writeRows v (b.row c) v.bits n) c = b.row c by simp [Fibre.row, Fibre.writeRows_cw], Fibre.vRows_writeRows]
      simp [show 0 < n from h]
    · simp [hc]
  | vk c n =>
    simp only [Dst.read, Dst.write, Dst.holds]
    by_cases hc : c < 96
    · simp only [hc, if_true]
      rw [show Fibre.row (b.writeRows v (b.row c) v.bits n) c = b.row c by simp [Fibre.row, Fibre.writeRows_cw], Fibre.vRows_writeRows]
      simp [show 0 < n from h]
    · by_cases hk : c < 112
      · simp [hc, hk, Fibre.writeK, Fibre.kReg]
      · simp [hc, hk]
  | k c =>
    simp only [Dst.read, Dst.write, Dst.holds]
    by_cases hc : 96 ≤ c ∧ c < 112
    · simp [hc, Fibre.writeK, Fibre.kReg]
    · simp [hc]
  | q c =>
    simp only [Dst.read, Dst.write, Dst.holds]
    by_cases hc : 112 ≤ c ∧ c < 120
    · simp only [hc, if_true, and_self, Fibre.writeQ, Fibre.qBit]
      rw [getLsbD_setBit8 _ _ _ _ (by omega) (by omega), getLsbD_setBit8 _ _ _ _ (by omega) (by omega), getLsbD_setBit8 _ _ _ _ (by omega) (by omega)]
      simp only [if_true, decide_eq_true_eq]
      rcases Nat.mod_two_eq_zero_or_one v.bits with h2 | h2 <;> simp [h2]
    · simp [hc]
  | w i => simp [Dst.read, Dst.write, Dst.holds, Fibre.writeW, Fibre.wReg]
  | none => rfl

/-- Two fibres in which a destination names the same registers, with the same contents. -/
theorem Dst.read_congr (d : Dst) (b c : Fibre) (hwb : b.cw.wb = c.cw.wb) (h : ∀ r ∈ d.regs c, b.regVal r = c.regVal r) : d.read b = d.read c := by
  have hrow : ∀ n, b.row n = c.row n := fun n => by simp [Fibre.row, hwb]
  have key : ∀ r n, (∀ i, i < n → b.regVal ⟨.v, r + i⟩ = c.regVal ⟨.v, r + i⟩) → b.vRows r n = c.vRows r n := by
    intro r n hh
    refine Fibre.vRows_congr _ _ _ _ (fun i hi => ?_)
    have := hh i hi
    simp only [Fibre.regVal, Val.mk.injEq] at this
    obtain ⟨h1, h2, h3⟩ := this
    have hv := BitVec.eq_of_toNat_eq h1
    cases hb : b.vRow (r + i); cases hc : c.vRow (r + i); simp_all
  cases d with
  | v n m =>
    simp only [Dst.read, Dst.regs] at h ⊢
    split
    · rename_i hn
      simp only [hn, if_true, List.mem_map, upTo, List.mem_range, forall_exists_index, and_imp, forall_apply_eq_imp_iff₂] at h
      rw [hrow]; exact key _ _ h
    · rfl
  | vk n m =>
    simp only [Dst.read, Dst.regs] at h ⊢
    split
    · rename_i hn
      simp only [hn, if_true, List.mem_map, upTo, List.mem_range, forall_exists_index, and_imp, forall_apply_eq_imp_iff₂] at h
      rw [hrow]; exact key _ _ h
    · split
      · rename_i h1 h2; exact h ⟨.k, n - 96⟩ (by simp [h1, h2])
      · rfl
  | k n =>
    simp only [Dst.read, Dst.regs] at h ⊢
    split
    · rename_i h1; exact h ⟨.k, n - 96⟩ (by simp [h1])
    · rfl
  | q n =>
    simp only [Dst.read, Dst.regs] at h ⊢
    split
    · rename_i h1; exact h ⟨.q, n - 112⟩ (by simp [h1])
    · rfl
  | w i => exact h ⟨.w, i⟩ (by simp [Dst.regs])
  | none => rfl

theorem Dst.regs_congr (d : Dst) (b c : Fibre) (hwb : b.cw.wb = c.cw.wb) : d.regs b = d.regs c := by
  cases d <;> simp [Dst.regs, Fibre.row, hwb]

/-- A value already held reads as itself. -/
theorem Dst.read_lt (d : Dst) (b : Fibre) : d.holds (d.read b) = d.read b := by
  cases d with
  | v c n => simp only [Dst.read, Dst.holds]; split <;> simp [Nat.mod_eq_of_lt (Fibre.vRows_lt b n _)]
  | vk c n =>
    simp only [Dst.read, Dst.holds]
    split
    · simp [Nat.mod_eq_of_lt (Fibre.vRows_lt b n _)]
    · split
      · exact congrArg (Val.mk · _ _) (Nat.mod_eq_of_lt (b.kReg (c - 96)).val.isLt)
      · rfl
  | k c => simp only [Dst.read, Dst.holds]; split
           · exact congrArg (Val.mk · _ _) (Nat.mod_eq_of_lt (b.kReg (c - 96)).val.isLt)
           · rfl
  | q c => simp only [Dst.read, Dst.holds]; split
           · simp only [Fibre.qBit]; split <;> rfl
           · rfl
  | w i => exact congrArg (Val.mk · _ _) (Nat.mod_eq_of_lt (b.wReg i).val.isLt)
  | none => rfl

-- ## Tags of a mask on kept elements (R155)

/-- A register's value with two tags ORed in. -/
def Val.tag (v : Val) (g p : Bool) : Val := ⟨v.bits, v.g || g, v.p || p⟩

theorem Fibre.regVal_tagReg_self (b : Fibre) (r : Reg) (g p : Bool) (hq : r.file = .q → r.idx < 8) : (b.tagReg r g p).regVal r = (b.regVal r).tag g p := by
  obtain ⟨f, i⟩ := r
  cases f with
  | v => simp [Fibre.regVal, Fibre.tagReg, Fibre.vRow, Val.tag]
  | k => simp [Fibre.regVal, Fibre.tagReg, Fibre.kReg, Val.tag]
  | w => simp [Fibre.regVal, Fibre.tagReg, Fibre.wReg, Val.tag]
  | q =>
    have h8 : i < 8 := hq rfl
    simp only [Fibre.regVal, Fibre.tagReg, Fibre.qBit, Val.tag, getLsbD_setBit8 _ _ _ _ h8 h8, if_true]
    rfl

theorem Fibre.regVal_tagReg_ne (b : Fibre) (r x : Reg) (g p : Bool) (h : r ≠ x) (hq : r.file = .q → r.idx < 8) (hx : x.file = .q → x.idx < 8) :
    (b.tagReg x g p).regVal r = b.regVal r := by
  obtain ⟨f, i⟩ := r
  obtain ⟨e, j⟩ := x
  cases e <;> cases f <;> simp only [Fibre.regVal, Fibre.tagReg, Fibre.vRow, Fibre.kReg, Fibre.wReg, Fibre.qBit] <;> try rfl
  · have : i ≠ j := fun e => h (by rw [e])
    rw [Map.get_put_ne _ _ _ this]
  · have : i ≠ j := fun e => h (by rw [e])
    rw [Map.get_put_ne _ _ _ this]
  · have : i ≠ j := fun e => h (by rw [e])
    rw [Map.get_put_ne _ _ _ this]
  · have hi : i < 8 := hq rfl
    have hj : j < 8 := hx rfl
    have : i ≠ j := fun e => h (by rw [e])
    rw [getLsbD_setBit8 _ _ _ _ hj hi, getLsbD_setBit8 _ _ _ _ hj hi]
    simp only [this, if_false]
    rfl

theorem Fibre.cw_wb_tagReg (b : Fibre) (r : Reg) (g p : Bool) : (b.tagReg r g p).cw.wb = b.cw.wb := by
  obtain ⟨f, i⟩ := r; cases f <;> rfl

theorem Fibre.cw_wb_tagRegs (l : List Reg) (b : Fibre) (g p : Bool) : (l.foldl (fun b r => b.tagReg r g p) b).cw.wb = b.cw.wb := by
  induction l generalizing b with
  | nil => rfl
  | cons x l ih => rw [List.foldl_cons, ih, Fibre.cw_wb_tagReg]

/-- Tagging a list of registers without repeats. -/
theorem Fibre.regVal_tagRegs (l : List Reg) (b : Fibre) (r : Reg) (g p : Bool) (hl : ∀ x ∈ l, x.file = .q → x.idx < 8)
    (hq : r.file = .q → r.idx < 8) (hn : l.Nodup) :
    (l.foldl (fun b r => b.tagReg r g p) b).regVal r = if r ∈ l then (b.regVal r).tag g p else b.regVal r := by
  induction l generalizing b with
  | nil => rfl
  | cons x l ih =>
    have hx := hl x (by simp)
    rw [List.foldl_cons, ih _ (fun y hy => hl y (by simp [hy])) (List.nodup_cons.1 hn).2]
    by_cases h : r = x
    · subst h
      simp [(List.nodup_cons.1 hn).1, Fibre.regVal_tagReg_self b r g p hq]
    · simp [h, Fibre.regVal_tagReg_ne b r x g p h hq hx]

theorem Fibre.vRows_tag (b c : Fibre) (n r : Nat) (g p : Bool) (h : ∀ i, i < n → b.regVal ⟨.v, r + i⟩ = (c.regVal ⟨.v, r + i⟩).tag g p) (hn : 0 < n) :
    b.vRows r n = (c.vRows r n).tag g p := by
  induction n generalizing r with
  | zero => omega
  | succ n ih =>
    have h0 := h 0 (by omega)
    simp only [Fibre.regVal, Val.tag, Val.mk.injEq, Nat.add_zero] at h0
    rcases Nat.eq_zero_or_pos n with e | e
    · subst e
      simp only [Fibre.vRows, Val.tag, Val.zero, Val.mk.injEq, h0, true_and]
      simp
    · have ht := ih (r + 1) (fun i hi => by have := h (i + 1) (by omega); rwa [show r + 1 + i = r + (i + 1) by omega]) e
      simp only [Fibre.vRows, ht, Val.tag, Val.mk.injEq, h0, true_and]
      constructor <;> simp only [Bool.or_assoc, Bool.or_left_comm, Bool.or_comm]
      · cases (c.vRow r).g <;> cases (c.vRows (r + 1) n).g <;> cases g <;> rfl
      · cases (c.vRow r).p <;> cases (c.vRows (r + 1) n).p <;> cases p <;> rfl

theorem Dst.regs_nodup (d : Dst) (b : Fibre) : (d.regs b).Nodup := by
  cases d <;> simp only [Dst.regs] <;> (try split) <;> (try split) <;> (try simp) <;>
    exact List.Nodup.map (fun a c h => by simpa using h) List.nodup_range

theorem Dst.regs_q (d : Dst) (b : Fibre) : ∀ r ∈ d.regs b, r.file = .q → r.idx < 8 := by
  intro r hr hf
  cases d with
  | v c n =>
    simp only [Dst.regs] at hr; split at hr
    · obtain ⟨i, _, rfl⟩ := List.mem_map.1 hr; cases hf
    · simp at hr
  | vk c n =>
    simp only [Dst.regs] at hr; split at hr
    · obtain ⟨i, _, rfl⟩ := List.mem_map.1 hr; cases hf
    · split at hr
      · rw [List.mem_singleton.1 hr] at hf; cases hf
      · simp at hr
  | k c =>
    simp only [Dst.regs] at hr; split at hr
    · rw [List.mem_singleton.1 hr] at hf; cases hf
    · simp at hr
  | q c =>
    simp only [Dst.regs] at hr; split at hr
    · rename_i hc; rw [List.mem_singleton.1 hr]; have := hc.2; simp only []; omega
    · simp at hr
  | w i => rw [List.mem_singleton.1 hr] at hf; cases hf
  | none => simp [Dst.regs] at hr

/-- A destination that is kept reads as before, with the mask's tags ORed in; z as z (R155). -/
theorem Dst.read_tag (d : Dst) (b : Fibre) (g p : Bool) (h : d.ok) :
    d.read ((d.regs b).foldl (fun b r => b.tagReg r g p) b) = d.holds ((d.read b).tag g p) := by
  have hb : ∀ r ∈ d.regs b, ((d.regs b).foldl (fun b r => b.tagReg r g p) b).regVal r = (b.regVal r).tag g p := by
    intro r hr
    rw [Fibre.regVal_tagRegs _ _ _ _ _ (Dst.regs_q d b) (Dst.regs_q d b r hr) (Dst.regs_nodup d b), if_pos hr]
  have hwb := Fibre.cw_wb_tagRegs (d.regs b) b g p
  have hh : d.holds ((d.read b).tag g p) = (match d with
      | .v c _ => if c < 96 then (d.read b).tag g p else Val.zero | .vk c _ => if c < 112 then (d.read b).tag g p else Val.zero
      | .k c => if 96 ≤ c ∧ c < 112 then (d.read b).tag g p else Val.zero | .q c => if 112 ≤ c ∧ c < 120 then (d.read b).tag g p else Val.zero
      | .w _ => (d.read b).tag g p | .none => Val.zero) := by
    have := congrArg Val.bits (Dst.read_lt d b)
    cases d with
    | v c n =>
      simp only [Dst.holds] at this ⊢
      by_cases hc : c < 96
      · simp only [hc, if_true] at this ⊢; simp only [Val.tag, this]
      · simp [hc]
    | vk c n =>
      simp only [Dst.holds] at this ⊢
      by_cases hc : c < 96
      · have h2 : c < 112 := by omega
        simp only [hc, h2, if_true] at this ⊢; simp only [Val.tag, this]
      · by_cases h2 : c < 112
        · simp only [hc, h2, if_true, if_false] at this ⊢; simp only [Val.tag, this]
        · simp [hc, h2]
    | k c =>
      simp only [Dst.holds] at this ⊢
      by_cases hc : 96 ≤ c ∧ c < 112
      · rw [if_pos hc] at this ⊢; rw [if_pos hc]; simp only [] at this; simp only [Val.tag, this]
      · rw [if_neg hc, if_neg hc]
    | q c =>
      simp only [Dst.holds] at this ⊢
      by_cases hc : 112 ≤ c ∧ c < 120
      · rw [if_pos hc] at this ⊢; rw [if_pos hc]; simp only [] at this; simp only [Val.tag, this]
      · rw [if_neg hc, if_neg hc]
    | w i => simp only [Dst.holds] at this ⊢; simp only [Val.tag, this]
    | none => rfl
  rw [hh]
  generalize (d.regs b).foldl (fun b r => b.tagReg r g p) b = b' at hb hwb
  have hrow : ∀ n, b'.row n = b.row n := fun n => by simp [Fibre.row, hwb]
  cases d with
  | v c n =>
    simp only [Dst.read, Dst.regs] at hb ⊢
    split
    · rename_i hc
      simp only [hc, if_true, List.mem_map, upTo, List.mem_range, forall_exists_index, and_imp, forall_apply_eq_imp_iff₂] at hb
      rw [hrow]; exact Fibre.vRows_tag _ _ _ _ _ _ hb h
    · rfl
  | vk c n =>
    simp only [Dst.read, Dst.regs] at hb ⊢
    by_cases hc : c < 96
    · have h2 : c < 112 := by omega
      simp only [hc, h2, if_true, List.mem_map, upTo, List.mem_range, forall_exists_index, and_imp, forall_apply_eq_imp_iff₂] at hb ⊢
      rw [hrow]; exact Fibre.vRows_tag _ _ _ _ _ _ hb h
    · by_cases h2 : c < 112
      · simp only [hc, h2, if_true, if_false] at hb ⊢
        exact hb ⟨.k, c - 96⟩ (by simp)
      · simp [hc, h2]
  | k c =>
    simp only [Dst.read, Dst.regs] at hb ⊢
    split
    · rename_i hc; exact hb ⟨.k, c - 96⟩ (by simp [hc])
    · rfl
  | q c =>
    simp only [Dst.read, Dst.regs] at hb ⊢
    split
    · rename_i hc; exact hb ⟨.q, c - 112⟩ (by simp [hc])
    · rfl
  | w i => exact hb ⟨.w, i⟩ (by simp [Dst.regs])
  | none => rfl

end Sys2Proof.Machine
end

