-- ==== Sys2Proof/Laws/Alu.lean ====
section
/-! SUPPORT. What completing an instruction and the common execution leave in a fibre of the issue set. -/

namespace Sys2Proof.Machine

/-- The registers that the last-use bits free in a fibre (R54). -/
def freedRegs (e : Eff) (written : Fibre → List Reg) (b : Fibre) : List Reg :=
  (e.last.flatMap (fun o => operandRegs o b)).filter (fun r => !hasReg (written b) r)

theorem freedRegs_not_written (e : Eff) (written : Fibre → List Reg) (b : Fibre) (r : Reg) (h : r ∈ written b) : r ∉ freedRegs e written b := by
  have : hasReg (written b) r = true := by simpa [hasReg] using h
  simp [freedRegs, this]

theorem State.cur_freeLast (s : State) (old : Group) (e : Eff) (w : Fibre → List Reg) : (s.freeLast old e w).cur = s.cur :=
  State.freeLast_cur s old e w

theorem State.releaseFold_groups (s : State) (g : Nat) (l : List Nat) (u : Nat → Nat) (r : Nat → List Reg) (k : Bool) :
    (l.foldl (fun t l => t.releaseHolders g (u l) (r l) k) s).groups = s.groups :=
  foldl_groups _ _ _ (fun _ _ => State.releaseHolders_groups _ _ _ _ _)

theorem State.releaseFold_cur (s : State) (g : Nat) (l : List Nat) (u : Nat → Nat) (r : Nat → List Reg) (k : Bool) :
    (l.foldl (fun t l => t.releaseHolders g (u l) (r l) k) s).cur = s.cur :=
  foldl_cur _ _ _ (fun _ _ => State.releaseHolders_cur _ _ _ _ _)

theorem State.freeLast_eq (s : State) (old : Group) (e : Eff) (w : Fibre → List Reg) (he : e.last.isEmpty = false) :
    s.freeLast old e w = (s.cur.lanes.foldl (fun t l => t.releaseHolders s.cur.g (old.fibre l).uid (freedRegs e w (old.fibre l)) true) s).mapLanes s.cur.g s.cur.lanes
      (fun l b => (freedRegs e w (old.fibre l)).foldl Fibre.freeReg b) := by
  unfold State.freeLast
  rw [he]
  have hc := State.releaseFold_cur s s.cur.g s.cur.lanes (fun l => (old.fibre l).uid) (fun l => freedRegs e w (old.fibre l)) true
  simp only [Bool.false_eq_true, if_false]
  show State.mapLanes (s.cur.lanes.foldl (fun t l => t.releaseHolders s.cur.g (old.fibre l).uid (freedRegs e w (old.fibre l)) true) s)
    (s.cur.lanes.foldl (fun t l => t.releaseHolders s.cur.g (old.fibre l).uid (freedRegs e w (old.fibre l)) true) s).cur.g
    (s.cur.lanes.foldl (fun t l => t.releaseHolders s.cur.g (old.fibre l).uid (freedRegs e w (old.fibre l)) true) s).cur.lanes
    (fun l b => (freedRegs e w (old.fibre l)).foldl Fibre.freeReg b) = _
  rw [hc]

theorem State.liveAt_freeLast {s : State} {l : Nat} (old : Group) (e : Eff) (w : Fibre → List Reg) (h : s.liveAt s.cur.g l) :
    (s.freeLast old e w).liveAt s.cur.g l := by
  cases he : e.last.isEmpty with
  | true => unfold State.freeLast; rw [he]; exact h
  | false =>
    rw [State.freeLast_eq s old e w he]
    exact State.liveAt_mapLanes _ _ ((State.liveAt_congr (State.releaseFold_groups _ _ _ _ _ _) _ _).2 h)

theorem State.lane_freeLast {s : State} {l : Nat} (old : Group) (e : Eff) (w : Fibre → List Reg) (h : s.live l) :
    (s.freeLast old e w).lane s.cur.g l = (freedRegs e w (old.fibre l)).foldl Fibre.freeReg (s.lane s.cur.g l) := by
  cases he : e.last.isEmpty with
  | true =>
    have : e.last = [] := by simpa using he
    unfold State.freeLast; rw [he]; simp [freedRegs, this]
  | false =>
    have hg := State.releaseFold_groups s s.cur.g s.cur.lanes (fun l => (old.fibre l).uid) (fun l => freedRegs e w (old.fibre l)) true
    rw [State.freeLast_eq s old e w he, State.lane_mapLanes _ _ ((State.liveAt_congr hg _ _).2 h.2), if_pos h.1, State.lane_congr hg]

theorem State.lane_settleGm {s : State} {g l : Nat} (h : s.liveAt g l) : ∃ gm, (s.settleGm g).lane g l = { s.lane g l with gm := gm } := by
  unfold State.settleGm
  dsimp only
  split
  · rw [State.lane_mapLanes _ _ h]
    split
    · split
      · exact ⟨false, rfl⟩
      · exact ⟨(s.lane g l).gm, rfl⟩
    · exact ⟨(s.lane g l).gm, rfl⟩
  · exact ⟨(s.lane g l).gm, rfl⟩

theorem State.liveAt_settleGm {s : State} {g l : Nat} (h : s.liveAt g l) : (s.settleGm g).liveAt g l := by
  unfold State.settleGm
  dsimp only
  split
  · exact State.liveAt_mapLanes _ _ h
  · exact h

/-- COMPLETING: the freed registers, the PC and the wait of a live fibre of the issue set; nothing else but its guess-miss bit. -/
theorem State.lane_complete {s : State} {l : Nat} (old : Group) (e : Eff) (w : Fibre → List Reg) (h : s.live l) :
    ∃ gm, (s.complete old e w).lane s.cur.g l =
      { (freedRegs e w (old.fibre l)).foldl Fibre.freeReg (s.lane s.cur.g l) with pc := s.nextPc, wait := .free, gm := gm } := by
  have h1 := State.liveAt_freeLast old e w h.2
  have hc := State.cur_freeLast s old e w
  unfold State.complete
  have h2 : ((s.freeLast old e w).advance s.cur.lanes).liveAt s.cur.g l := by
    unfold State.advance; rw [hc]; exact State.liveAt_mapLanes _ _ h1
  obtain ⟨gm, hgm⟩ := State.lane_settleGm h2
  refine ⟨gm, hgm.trans ?_⟩
  unfold State.advance State.nextPc
  rw [hc, State.lane_mapLanes _ _ h1, if_pos h.1, State.lane_freeLast old e w h]

theorem Fibre.freeReg_locks (x : Reg) (b : Fibre) (k : List Lock) : Fibre.freeReg { b with locks := k } x = { Fibre.freeReg b x with locks := k } := by
  obtain ⟨f, i⟩ := x
  cases f <;> rfl

theorem Fibre.freeRegs_locks (l : List Reg) (b : Fibre) (k : List Lock) :
    l.foldl Fibre.freeReg { b with locks := k } = { l.foldl Fibre.freeReg b with locks := k } := by
  induction l generalizing b with
  | nil => rfl
  | cons x l ih =>
    rw [List.foldl_cons, Fibre.freeReg_locks, ih, List.foldl_cons]

-- ## The common execution

/-- A field of the group that a change keeps. -/
theorem State.group_updGroup_field {β : Type} (φ : Group → β) (s : State) (g h : Nat) (f : Group → Group) (hf : ∀ x, φ (f x) = φ x) :
    φ ((s.updGroup g f).group h) = φ (s.group h) := by
  by_cases hh : h = g
  · subst hh
    unfold State.updGroup State.group Map.get
    simp only [Map.find?_adjust_self]
    cases s.groups.find? h with
    | none => rfl
    | some x => exact hf x
  · rw [State.group_updGroup_ne s f hh]

theorem State.here_warn_field {β : Type} (φ : Group → β) (s : State) (w : W32) (hf : ∀ x y, φ { x with warn := y } = φ x) : φ (s.warn w).here = φ s.here :=
  State.group_updGroup_field φ s s.cur.g s.cur.g _ (fun x => hf x _)

theorem State.fibre_warn (s : State) (w : W32) (l : Nat) : (s.warn w).here.fibre l = s.here.fibre l :=
  congrArg (fun m => Map.get m l (Fibre.new 0 0 0)) (State.here_warn_field Group.fibres s w (fun _ _ => rfl))

theorem State.src_warn (s : State) (w : W32) (l : Nat) (b : Fibre) (x : Src) : (s.warn w).src (s.warn w).here l b x = s.src s.here l b x := by
  cases x with
  | none => rfl
  | reg c r =>
    have h1 := State.here_warn_field Group.grp s w (fun _ _ => rfl)
    have h2 := State.here_warn_field Group.team s w (fun _ _ => rfl)
    have h3 := State.here_warn_field Group.role s w (fun _ _ => rfl)
    simp only [State.src, State.readCode, h1, h2, h3]
    rfl
  | acc i => rfl
  | imm n => rfl

theorem State.env_warn (s : State) (w : W32) (z : Alu) (e : Eff) (l : Nat) : (s.warn w).env (s.warn w).here z e l = s.env s.here z e l := by
  have h1 := State.here_warn_field Group.fpmode s w (fun _ _ => rfl)
  unfold State.env Group.rounding
  simp only [State.fibre_warn, State.src_warn, h1]
  rfl

theorem activeLanes_warn (s : State) (w : W32) (e : Eff) : activeLanes (s.warn w) e = activeLanes s e := by
  unfold activeLanes
  simp only [State.fibre_warn]
  rfl

/-- What the active lanes of an instruction read. -/
def State.aluEnvs (s : State) (z : Alu) : List Env := (activeLanes s (fallback z.ins).2).map (s.env s.here z (fallback z.ins).2)

/-- Their results, and whether a result is clean of tags. -/
def State.aluOuts (s : State) (z : Alu) : List (Nat × Out × Bool) :=
  (s.aluEnvs z).map (fun v => (v.lane, z.op (s.aluEnvs z) v,
    !((z.op (s.aluEnvs z) v).val.g || ((s.here.fibre v.lane).maskBit (fallback z.ins).2.mask).g) &&
    !((z.op (s.aluEnvs z) v).val.p || ((s.here.fibre v.lane).maskBit (fallback z.ins).2.mask).p)))

/-- No exception of the instruction traps. -/
def State.aluQuiet (s : State) (z : Alu) : Prop := z.fp = true → fpTrap s.here.fpmode (s.aluOuts z) = none

/-- The state in which the common execution writes its results. -/
def State.aluMid (s : State) (z : Alu) : State :=
  let s1 := (s.warn ((fallback z.ins).1 ||| z.warn)).warn (warnIf ((s.aluOuts z).any (fun o => o.2.1.divz)) warnDivz)
  if z.fp then { s1 with free := s1.free + 64 } else s1

/-- The common execution with no trap, in one line. -/
theorem State.alu_eq (s : State) (z : Alu) (h : s.aluQuiet z) :
    s.alu z =
      let x := (s.warn ((fallback z.ins).1 ||| z.warn)).here
      let e := (fallback z.ins).2
      let m := s.aluMid z
      let r := m.cur.lanes.foldl (fun t l => if (x.fibre l).active e.mask || e.mz then t.releaseHolders m.cur.g (x.fibre l).uid (z.dst.regs (x.fibre l)) true else t) m
      let t := r.mapLanes r.cur.g r.cur.lanes (fun l b => aluFibre z e (s.aluEnvs z) b (s.env s.here z e l))
      let t := if z.now then t else t.pending z x r.cur.lanes (flagWord (s.aluOuts z)) none
      t.complete x e z.dst.regs := by
  have h1 := State.here_warn_field Group.fpmode s ((fallback z.ins).1 ||| z.warn) (fun _ _ => rfl)
  have hq : (if z.fp = true then fpTrap s.here.fpmode (s.aluOuts z) else none) = none := by
    split
    · rename_i hf; exact h hf
    · rfl
  unfold State.alu
  simp only [activeLanes_warn, State.env_warn, State.fibre_warn]
  have e1 : (activeLanes s (fallback z.ins).2).map ((s.warn ((fallback z.ins).1 ||| z.warn)).env (s.warn ((fallback z.ins).1 ||| z.warn)).here z (fallback z.ins).2) = s.aluEnvs z :=
    List.map_congr_left (fun l _ => State.env_warn s _ z _ l)
  rw [e1]
  change (match (if z.fp = true then fpTrap (s.warn ((fallback z.ins).1 ||| z.warn)).here.fpmode (s.aluOuts z) else none) with
    | some (_, _) => _ | none => _) = _
  rw [h1, hq]
  rfl

theorem State.aluMid_cur (s : State) (z : Alu) : (s.aluMid z).cur = s.cur := by unfold State.aluMid; dsimp only; split <;> rfl

theorem State.lane_aluMid {s : State} {l : Nat} (z : Alu) (h : s.liveAt s.cur.g l) : (s.aluMid z).lane s.cur.g l = s.lane s.cur.g l := by
  have : ∀ w v, ((s.warn w).warn v).lane s.cur.g l = s.lane s.cur.g l := fun w v =>
    (State.lane_warn (s := s.warn w) v (State.liveAt_warn w h)).trans (State.lane_warn w h)
  unfold State.aluMid; dsimp only; split
  · exact (State.lane_congr rfl _ _).trans (this _ _)
  · exact this _ _

theorem State.liveAt_aluMid {s : State} {l : Nat} (z : Alu) (h : s.liveAt s.cur.g l) : (s.aluMid z).liveAt s.cur.g l := by
  have : ∀ w v, ((s.warn w).warn v).liveAt s.cur.g l := fun w v => State.liveAt_warn (s := s.warn w) v (State.liveAt_warn w h)
  unfold State.aluMid; dsimp only; split
  · exact (State.liveAt_congr rfl _ _).2 (this _ _)
  · exact this _ _

theorem State.lane_pending {s : State} {l : Nat} (z : Alu) (old : Group) (lanes : List Nat) (f : W32) (tr : Option (Trap × List Nat)) (h : s.liveAt s.cur.g l) :
    ∃ locks, (s.pending z old lanes f tr).lane s.cur.g l = { s.lane s.cur.g l with locks := locks } := by
  refine ⟨if l ∈ lanes then (s.lane s.cur.g l).locks ++ (z.dst.regs (s.lane s.cur.g l)).map (fun r => ⟨r, false, s.clocks⟩) else (s.lane s.cur.g l).locks, ?_⟩
  have e : (s.pending z old lanes f tr).lane s.cur.g l = (s.mapLanes s.cur.g lanes
    (fun _ b => { b with locks := b.locks ++ (z.dst.regs b).map (fun r => ⟨r, false, s.clocks⟩) })).lane s.cur.g l := rfl
  rw [e, State.lane_mapLanes _ _ h]
  split <;> rfl

theorem State.liveAt_pending {s : State} {l : Nat} (z : Alu) (old : Group) (lanes : List Nat) (f : W32) (tr : Option (Trap × List Nat)) (h : s.liveAt s.cur.g l) :
    (s.pending z old lanes f tr).liveAt s.cur.g l := by
  exact (State.liveAt_congr (s := s.mapLanes s.cur.g lanes (fun _ b => { b with locks := b.locks ++ (z.dst.regs b).map (fun r => ⟨r, false, s.clocks⟩) }))
    rfl s.cur.g l).2 (State.liveAt_mapLanes _ _ h)

/-- WHAT THE COMMON EXECUTION LEAVES in a live fibre of the issue set, where no exception traps: the result or the kept destination of R155, the
freed registers, the PC and the wait, and beside them only the interlocks and the guess-miss bit. -/
theorem State.lane_alu {s : State} {l : Nat} (z : Alu) (hq : s.aluQuiet z) (h : s.live l) :
    ∃ gm locks, (s.alu z).lane s.cur.g l =
      { (freedRegs (fallback z.ins).2 z.dst.regs (s.lane s.cur.g l)).foldl Fibre.freeReg
          (aluFibre z (fallback z.ins).2 (s.aluEnvs z) (s.lane s.cur.g l) (s.env s.here z (fallback z.ins).2 l)) with
        pc := s.nextPc, wait := .free, gm := gm, locks := locks } := by
  rw [State.alu_eq s z hq]
  dsimp only
  have hmc := State.aluMid_cur s z
  generalize hr : (s.aluMid z).cur.lanes.foldl _ (s.aluMid z) = r
  have hrc : r.cur = s.cur := by
    rw [← hmc, ← hr]
    refine foldl_cur _ _ _ ?_
    intro t a
    split
    · exact State.releaseHolders_cur _ _ _ _ _
    · rfl
  have hrg : r.groups = (s.aluMid z).groups := by
    rw [← hr]
    refine foldl_groups _ _ _ ?_
    intro t a
    split
    · exact State.releaseHolders_groups _ _ _ _ _
    · rfl
  rw [hrc]
  have hrl : r.liveAt s.cur.g l := (State.liveAt_congr hrg _ _).2 (State.liveAt_aluMid z h.2)
  have hre : r.lane s.cur.g l = s.lane s.cur.g l := (State.lane_congr hrg _ _).trans (State.lane_aluMid z h.2)
  generalize ht : r.mapLanes s.cur.g s.cur.lanes _ = t
  have htc : t.cur = s.cur := by rw [← ht]; exact hrc
  have htl : t.liveAt s.cur.g l := by rw [← ht]; exact State.liveAt_mapLanes _ _ hrl
  have hte : t.lane s.cur.g l = aluFibre z (fallback z.ins).2 (s.aluEnvs z) (s.lane s.cur.g l) (s.env s.here z (fallback z.ins).2 l) := by
    rw [← ht, State.lane_mapLanes _ _ hrl, if_pos h.1, hre]
  have hold : (s.warn ((fallback z.ins).1 ||| z.warn)).here.fibre l = s.lane s.cur.g l := State.fibre_warn _ _ _
  by_cases hn : z.now = true
  · simp only [hn, if_true]
    have hlive : t.live l := ⟨by rw [htc]; exact h.1, by rw [htc]; exact htl⟩
    obtain ⟨gm, hgm⟩ := State.lane_complete (s.warn ((fallback z.ins).1 ||| z.warn)).here (fallback z.ins).2 z.dst.regs hlive
    rw [htc, hte, hold] at hgm
    exact ⟨gm, _, hgm.trans (by unfold State.nextPc; rw [htc])⟩
  · simp only [hn]
    have htl' : t.liveAt t.cur.g l := by rw [htc]; exact htl
    obtain ⟨locks, hlk⟩ := State.lane_pending z (s.warn ((fallback z.ins).1 ||| z.warn)).here s.cur.lanes (flagWord (s.aluOuts z)) none htl'
    have hpc := State.pending_cur t z (s.warn ((fallback z.ins).1 ||| z.warn)).here s.cur.lanes (flagWord (s.aluOuts z)) none
    have hpl := State.liveAt_pending z (s.warn ((fallback z.ins).1 ||| z.warn)).here s.cur.lanes (flagWord (s.aluOuts z)) none htl'
    generalize t.pending z (s.warn ((fallback z.ins).1 ||| z.warn)).here s.cur.lanes (flagWord (s.aluOuts z)) none = p at hlk hpc hpl
    rw [htc] at hlk hpc hpl
    have hlive : p.live l := ⟨by rw [hpc]; exact h.1, by rw [hpc]; exact hpl⟩
    obtain ⟨gm, hgm⟩ := State.lane_complete (s.warn ((fallback z.ins).1 ||| z.warn)).here (fallback z.ins).2 z.dst.regs hlive
    rw [hpc, hlk, hte, hold] at hgm
    refine ⟨gm, locks, hgm.trans ?_⟩
    rw [Fibre.freeRegs_locks]
    unfold State.nextPc; rw [hpc]

/-- A destination that was not freed reads as before the last uses, whatever the PC, the wait, the interlocks and the guess-miss bit. -/
theorem Dst.read_freed (d : Dst) (e : Eff) (b b' : Fibre) (hwb : b'.cw.wb = b.cw.wb) (pc : W64) (w : Wait) (gm : Bool) (locks : List Lock) :
    d.read { (freedRegs e d.regs b).foldl Fibre.freeReg b' with pc := pc, wait := w, gm := gm, locks := locks } = d.read b' := by
  have h1 : d.read { (freedRegs e d.regs b).foldl Fibre.freeReg b' with pc := pc, wait := w, gm := gm, locks := locks }
      = d.read ((freedRegs e d.regs b).foldl Fibre.freeReg b') :=
    Dst.read_congr _ _ _ rfl (fun r _ => by obtain ⟨f, i⟩ := r; cases f <;> rfl)
  rw [h1]
  refine Dst.read_congr _ _ _ (by rw [Fibre.cw_freeRegs]) (fun r hr => ?_)
  refine Fibre.regVal_freeRegs _ _ _ (freedRegs_not_written e d.regs b r ?_)
  rwa [Dst.regs_congr d b b' hwb.symm]

theorem Dst.cw_wb_aluFibre (z : Alu) (e : Eff) (envs : List Env) (b : Fibre) (env : Env) : (aluFibre z e envs b env).cw.wb = b.cw.wb := by
  unfold aluFibre
  dsimp only
  split
  · exact Dst.cw_wb_write _ _ _
  · split
    · exact Dst.cw_wb_write _ _ _
    · exact Fibre.cw_wb_tagRegs _ _ _ _

/-- THE RESULT OF THE COMMON EXECUTION (R83, R155), where no exception traps. -/
theorem State.alu_delivers {s : State} {l : Nat} (z : Alu) (hd : z.dst.ok) (hq : s.aluQuiet z) (h : s.live l) :
    s.delivers (s.alu z) z.ins z.dst l (z.op (s.aluEnvs z) (s.env s.here z (fallback z.ins).2 l)).val := by
  obtain ⟨gm, locks, hl⟩ := State.lane_alu z hq h
  refine ⟨?_, ?_⟩
  · unfold State.passed
    rw [hl]
    exact ⟨rfl, rfl⟩
  · rw [hl, Dst.read_freed _ _ _ _ (Dst.cw_wb_aluFibre _ _ _ _ _)]
    unfold aluFibre Instr.maskBit Instr.zeroes
    dsimp only
    split
    · exact Dst.read_write _ _ _ hd
    · split
      · exact Dst.read_write _ _ _ hd
      · exact Dst.read_tag _ _ _ _ hd

/-- An instruction of the common execution without traps has the results its operation gives. -/
theorem State.results_alu {s : State} {i : Instr} {d : Dst} {z : Alu} {v : Nat → Val} (hx : exec i s = .next (s.alu z)) (hi : z.ins = i) (hz : z.dst = d)
    (hd : d.ok) (hq : s.aluQuiet z) (hv : ∀ l, s.live l → (z.op (s.aluEnvs z) (s.env s.here z (fallback i).2 l)).val = v l) : s.results i d v := by
  subst hi hz
  exact ⟨_, hx, fun l hl => hv l hl ▸ State.alu_delivers z hd hq hl⟩

/-- An instruction that raises no floating-point exception does not trap. -/
theorem State.aluQuiet_int {s : State} {z : Alu} (h : z.fp = false) : s.aluQuiet z := fun hf => by rw [h] at hf; cases hf

end Sys2Proof.Machine
end

