-- ==== Sys2Proof/Laws/Memory.lean ====
section
/-! SUPPORT. Memory: reading after writing, and that every memory operation keeps the canonical form. -/

namespace Sys2Proof.Machine

/-- A byte reads as it was last written. -/
@[simp] theorem Memory.read_write_self (m : Map Byte) (a : Nat) (b : Byte) : Memory.read (Memory.write m a b) a = b := by
  unfold Memory.read Memory.write
  split
  · next h => simp [h]
  · simp

/-- Writing a byte leaves every other address as it was. -/
theorem Memory.read_write_ne (m : Map Byte) {a c : Nat} (b : Byte) (h : c ≠ a) : Memory.read (Memory.write m a b) c = Memory.read m c := by
  unfold Memory.read Memory.write
  split
  · exact Map.get_del_ne m _ h
  · exact Map.get_put_ne m _ _ h

/-- Writing bytes leaves every address outside them as it was. -/
theorem Memory.read_writeN_out (l : List Byte) (m : Map Byte) (a c : Nat) (h : c < a ∨ a + l.length ≤ c) :
    Memory.read (Memory.writeN m a l) c = Memory.read m c := by
  induction l generalizing m a with
  | nil => rfl
  | cons b t ih =>
    simp only [List.length_cons] at h
    rw [Memory.writeN, ih _ _ (by omega), Memory.read_write_ne _ _ (by omega)]

/-- Bytes written from an address on read back. -/
theorem Memory.read_writeN_in (l : List Byte) (m : Map Byte) (a i : Nat) (h : i < l.length) :
    Memory.read (Memory.writeN m a l) (a + i) = l.getD i 0 := by
  induction l generalizing m a i with
  | nil => simp at h
  | cons b t ih =>
    cases i with
    | zero => rw [Memory.writeN, Memory.read_writeN_out _ _ _ _ (by omega)]; simp
    | succ i =>
      have := ih (Memory.write m a b) (a + 1) i (by simpa using h)
      rw [Memory.writeN, show a + (i + 1) = a + 1 + i by omega, this]; simp

theorem Memory.wf_iff (m : Map Byte) : Memory.wf m = true ↔ m.rising = true ∧ ∀ p ∈ m, p.2 ≠ Config.unlistedByte := by
  simp [Memory.wf, Map.vals]

theorem Memory.wf_nil : Memory.wf [] = true := rfl

/-- Writing a byte keeps the canonical form. -/
theorem Memory.wf_write {m : Map Byte} (a : Nat) (b : Byte) (h : Memory.wf m = true) : Memory.wf (Memory.write m a b) = true := by
  rw [Memory.wf_iff] at h ⊢
  unfold Memory.write
  split
  · exact ⟨Map.rising_del a h.1, fun p hp => h.2 p (Map.mem_del hp).1⟩
  · next hb =>
    refine ⟨Map.rising_put a b h.1, fun p hp => ?_⟩
    rcases Map.mem_put hp with e | e
    · exact e ▸ hb
    · exact h.2 p e

/-- Writing bytes keeps the canonical form. -/
theorem Memory.wf_writeN (l : List Byte) {m : Map Byte} (a : Nat) (h : Memory.wf m = true) : Memory.wf (Memory.writeN m a l) = true := by
  induction l generalizing m a with
  | nil => exact h
  | cons b t ih => exact ih (a + 1) (Memory.wf_write a b h)

end Sys2Proof.Machine
end

