-- ==== Sys2Proof/Laws/Canonical.lean ====
section
/-! SUPPORT. Every operation and every meaning keeps the memory in its canonical form, one lemma for each. -/

set_option linter.all false

namespace Sys2Proof.Machine

theorem foldl_wf {α : Type} (f : State → α → State) (l : List α) (s : State) (hs : Memory.wf s.mem = true)
    (h : ∀ t a, Memory.wf t.mem = true → Memory.wf (f t a).mem = true) : Memory.wf (l.foldl f s).mem = true := by
  induction l generalizing s with
  | nil => exact hs
  | cons a l ih => exact ih _ (h _ _ hs)

theorem foldl_fst_wf {α β : Type} (f : State × β → α → State × β) (l : List α) (s : State × β) (hs : Memory.wf s.1.mem = true)
    (h : ∀ t a, Memory.wf t.1.mem = true → Memory.wf (f t a).1.mem = true) : Memory.wf (l.foldl f s).1.mem = true := by
  induction l generalizing s with
  | nil => exact hs
  | cons a l ih => exact ih _ (h _ _ hs)

theorem foldl_snd_wf {α β : Type} (f : β × State → α → β × State) (l : List α) (s : β × State) (hs : Memory.wf s.2.mem = true)
    (h : ∀ t a, Memory.wf t.2.mem = true → Memory.wf (f t a).2.mem = true) : Memory.wf (l.foldl f s).2.mem = true := by
  induction l generalizing s with
  | nil => exact hs
  | cons a l ih => exact ih _ (h _ _ hs)

/-- An outcome whose next state, if it has one, has its memory in canonical form. -/
def NextWf (o : Host.Outcome State Fault Refusal) : Prop := ∀ t, o = .next t → Memory.wf t.mem = true

theorem nextWf_next {t : State} (h : Memory.wf t.mem = true) : NextWf (.next t) := by
  intro u e; injection e with e; exact e ▸ h

theorem State.reportSupervisor_wf (s : State) (type vf sev : Nat) (addr : W64) (place : W32) (hs : Memory.wf s.mem = true) : Memory.wf (State.reportSupervisor s type vf sev addr place).mem = true := by
  unfold State.reportSupervisor
  repeat' (first | with_reducible assumption | intro _ | with_reducible apply foldl_wf | with_reducible apply foldl_fst_wf | with_reducible apply foldl_snd_wf | dsimp only | split)

theorem State.updCore_wf (s : State) (c : Nat) (f : Core → Core) (hs : Memory.wf s.mem = true) : Memory.wf (State.updCore s c f).mem = true := by
  unfold State.updCore
  repeat' (first | with_reducible assumption | intro _ | with_reducible apply foldl_wf | with_reducible apply foldl_fst_wf | with_reducible apply foldl_snd_wf | dsimp only | split)

theorem State.updDie_wf (s : State) (d : Nat) (f : Die → Die) (hs : Memory.wf s.mem = true) : Memory.wf (State.updDie s d f).mem = true := by
  unfold State.updDie
  repeat' (first | with_reducible assumption | intro _ | with_reducible apply foldl_wf | with_reducible apply foldl_fst_wf | with_reducible apply foldl_snd_wf | dsimp only | split)

theorem State.countPacket_wf (s : State) (la : Nat) (conf : Bool) (hs : Memory.wf s.mem = true) : Memory.wf (State.countPacket s la conf).mem = true := by
  unfold State.countPacket
  repeat' (first | with_reducible assumption | intro _ | with_reducible apply foldl_wf | with_reducible apply foldl_fst_wf | with_reducible apply foldl_snd_wf | dsimp only | split)

theorem State.writeLine_wf (s : State) (la : Nat) (data : List Byte) (poison : Bool) (hs : Memory.wf s.mem = true) : Memory.wf (s.writeLine la data poison).mem = true :=
  Memory.wf_writeN _ _ hs

theorem State.reportDies_wf (s : State) (la : Nat) (dies : List Nat) (hs : Memory.wf s.mem = true) : Memory.wf (State.reportDies s la dies).mem = true := by
  unfold State.reportDies
  repeat' (first | with_reducible assumption | intro _ | with_reducible apply foldl_wf | with_reducible apply State.reportSupervisor_wf | with_reducible apply foldl_fst_wf | with_reducible apply foldl_snd_wf | dsimp only | split)

theorem State.noteLlc_wf (s : State) (la : Nat) (hs : Memory.wf s.mem = true) : Memory.wf (State.noteLlc s la).mem = true := by
  unfold State.noteLlc
  repeat' (first | with_reducible assumption | intro _ | with_reducible apply foldl_wf | with_reducible apply State.updDie_wf | with_reducible apply foldl_fst_wf | with_reducible apply foldl_snd_wf | dsimp only | split)

theorem State.cleanLine_wf (s : State) (d la : Nat) (hs : Memory.wf s.mem = true) : Memory.wf (State.cleanLine s d la).mem = true := by
  unfold State.cleanLine
  repeat' (first | with_reducible assumption | intro _ | with_reducible apply foldl_wf | with_reducible apply State.countPacket_wf | with_reducible apply State.noteLlc_wf | with_reducible apply State.updDie_wf | with_reducible apply State.writeLine_wf | with_reducible apply foldl_fst_wf | with_reducible apply foldl_snd_wf | dsimp only | split)

theorem State.giveBack_wf (s : State) (d la : Nat) (hs : Memory.wf s.mem = true) : Memory.wf (State.giveBack s d la).mem = true := by
  unfold State.giveBack
  repeat' (first | with_reducible assumption | intro _ | with_reducible apply foldl_wf | with_reducible apply State.cleanLine_wf | with_reducible apply State.reportDies_wf | with_reducible apply foldl_fst_wf | with_reducible apply foldl_snd_wf | dsimp only | split)

theorem State.l2Room_wf (s : State) (d la : Nat) (hs : Memory.wf s.mem = true) : Memory.wf (State.l2Room s d la).mem = true := by
  unfold State.l2Room
  repeat' (first | with_reducible assumption | intro _ | with_reducible apply foldl_wf | with_reducible apply State.giveBack_wf | with_reducible apply State.updDie_wf | with_reducible apply foldl_fst_wf | with_reducible apply foldl_snd_wf | dsimp only | split)

theorem State.l2Fetch_wf (s : State) (d la pol : Nat) (conf : Bool) (hs : Memory.wf s.mem = true) : Memory.wf (State.l2Fetch s d la pol conf).mem = true := by
  unfold State.l2Fetch
  repeat' (first | with_reducible assumption | intro _ | with_reducible apply foldl_wf | with_reducible apply State.countPacket_wf | with_reducible apply State.l2Room_wf | with_reducible apply State.noteLlc_wf | with_reducible apply State.updDie_wf | with_reducible apply foldl_fst_wf | with_reducible apply foldl_snd_wf | dsimp only | split)

theorem State.readLine_wf (s : State) (d la pol : Nat) (alloc conf : Bool) (hs : Memory.wf s.mem = true) : Memory.wf (State.readLine s d la pol alloc conf).mem = true := by
  unfold State.readLine
  repeat' (first | with_reducible assumption | intro _ | with_reducible apply foldl_wf | with_reducible apply State.countPacket_wf | with_reducible apply State.l2Fetch_wf | with_reducible apply foldl_fst_wf | with_reducible apply foldl_snd_wf | dsimp only | split)

theorem State.cleanAll_wf (s : State) (la : Nat) (hs : Memory.wf s.mem = true) : Memory.wf (State.cleanAll s la).mem = true := by
  unfold State.cleanAll
  repeat' (first | with_reducible assumption | intro _ | with_reducible apply foldl_wf | with_reducible apply State.cleanLine_wf | with_reducible apply State.reportDies_wf | with_reducible apply foldl_fst_wf | with_reducible apply foldl_snd_wf | dsimp only | split)

theorem State.invalidateL1s_wf (s : State) (d la except : Nat) (hs : Memory.wf s.mem = true) : Memory.wf (State.invalidateL1s s d la except).mem = true := by
  unfold State.invalidateL1s
  repeat' (first | with_reducible assumption | intro _ | with_reducible apply foldl_wf | with_reducible apply foldl_fst_wf | with_reducible apply foldl_snd_wf | dsimp only | split)

theorem State.homeWrite_wf (s : State) (a : Nat) (data : List Byte) (poison conf : Bool) (hs : Memory.wf s.mem = true) : Memory.wf (s.homeWrite a data poison conf).mem = true :=
  Memory.wf_writeN _ _ (State.countPacket_wf _ _ _ hs)

theorem State.refreshCopies_wf (s : State) (la : Nat) (hs : Memory.wf s.mem = true) : Memory.wf (State.refreshCopies s la).mem = true := by
  unfold State.refreshCopies
  repeat' (first | with_reducible assumption | intro _ | with_reducible apply foldl_wf | with_reducible apply State.reportDies_wf | with_reducible apply foldl_fst_wf | with_reducible apply foldl_snd_wf | dsimp only | split)

theorem State.l2WriteLine_wf (s : State) (d core la off : Nat) (data : List Byte) (poison : Bool) (pol : Nat) (alloc conf : Bool) (hs : Memory.wf s.mem = true) : Memory.wf (State.l2WriteLine s d core la off data poison pol alloc conf).mem = true := by
  unfold State.l2WriteLine
  repeat' (first | with_reducible assumption | intro _ | with_reducible apply foldl_wf | with_reducible apply State.cleanAll_wf | with_reducible apply State.countPacket_wf | with_reducible apply State.homeWrite_wf | with_reducible apply State.invalidateL1s_wf | with_reducible apply State.l2Room_wf | with_reducible apply State.refreshCopies_wf | with_reducible apply State.updDie_wf | with_reducible apply foldl_fst_wf | with_reducible apply foldl_snd_wf | dsimp only | split)

theorem State.l2Write_wf (s : State) (d core pol : Nat) (alloc conf : Bool) (a : Nat) (data : List Byte) (poison : Bool) (hs : Memory.wf s.mem = true) :
    Memory.wf (s.l2Write d core pol alloc conf a data poison).mem = true := by
  unfold State.l2Write
  split
  · exact hs
  · dsimp only
    split <;> (repeat' (with_reducible apply State.l2WriteLine_wf)) <;> exact hs

theorem State.dropCopies_wf (s : State) (d la : Nat) (hs : Memory.wf s.mem = true) : Memory.wf (State.dropCopies s d la).mem = true := by
  unfold State.dropCopies
  repeat' (first | with_reducible assumption | intro _ | with_reducible apply foldl_wf | with_reducible apply State.reportDies_wf | with_reducible apply foldl_fst_wf | with_reducible apply foldl_snd_wf | dsimp only | split)

theorem State.sysWrite_wf (s : State) (a : Nat) (data : List Byte) (poison : Bool) (hs : Memory.wf s.mem = true) : Memory.wf (s.sysWrite a data poison).mem = true := by
  unfold State.sysWrite
  dsimp only
  apply foldl_wf
  · exact Memory.wf_writeN _ _ (foldl_wf _ _ _ hs (fun t la h => State.cleanAll_wf t la h))
  · exact fun t la h => State.refreshCopies_wf t la h

theorem State.fillTlb_wf (s : State) (ctx core : Nat) (va : W64) (hs : Memory.wf s.mem = true) : Memory.wf (State.fillTlb s ctx core va).mem = true := by
  unfold State.fillTlb
  repeat' (first | with_reducible assumption | intro _ | with_reducible apply foldl_wf | with_reducible apply State.updCore_wf | with_reducible apply State.updDie_wf | with_reducible apply foldl_fst_wf | with_reducible apply foldl_snd_wf | dsimp only | split)

theorem State.askSupervisor_wf (s : State) (ctx : Nat) (va : W64) (hs : Memory.wf s.mem = true) : Memory.wf (State.askSupervisor s ctx va).mem = true := by
  unfold State.askSupervisor
  repeat' (first | with_reducible assumption | intro _ | with_reducible apply foldl_wf | with_reducible apply foldl_fst_wf | with_reducible apply foldl_snd_wf | dsimp only | split)

theorem State.forget_wf (s : State) (ctx : Nat) (va : W64) (hs : Memory.wf s.mem = true) : Memory.wf (State.forget s ctx va).mem = true := by
  unfold State.forget
  repeat' (first | with_reducible assumption | intro _ | with_reducible apply foldl_wf | with_reducible apply foldl_fst_wf | with_reducible apply foldl_snd_wf | dsimp only | split)

theorem State.updGroup_wf (s : State) (g : Nat) (f : Group → Group) (hs : Memory.wf s.mem = true) : Memory.wf (State.updGroup s g f).mem = true := by
  unfold State.updGroup
  repeat' (first | with_reducible assumption | intro _ | with_reducible apply foldl_wf | with_reducible apply foldl_fst_wf | with_reducible apply foldl_snd_wf | dsimp only | split)

theorem State.mapLanes_wf (s : State) (g : Nat) (lanes : List Nat) (f : Nat → Fibre → Fibre) (hs : Memory.wf s.mem = true) : Memory.wf (State.mapLanes s g lanes f).mem = true := by
  unfold State.mapLanes
  repeat' (first | with_reducible assumption | intro _ | with_reducible apply foldl_wf | with_reducible apply State.updGroup_wf | with_reducible apply foldl_fst_wf | with_reducible apply foldl_snd_wf | dsimp only | split)

theorem State.updFibre_wf (s : State) (g lane : Nat) (f : Fibre → Fibre) (hs : Memory.wf s.mem = true) : Memory.wf (State.updFibre s g lane f).mem = true := by
  unfold State.updFibre
  repeat' (first | with_reducible assumption | intro _ | with_reducible apply foldl_wf | with_reducible apply State.mapLanes_wf | with_reducible apply foldl_fst_wf | with_reducible apply foldl_snd_wf | dsimp only | split)

theorem State.updGrid_wf (s : State) (n : Nat) (f : Grid → Grid) (hs : Memory.wf s.mem = true) : Memory.wf (State.updGrid s n f).mem = true := by
  unfold State.updGrid
  repeat' (first | with_reducible assumption | intro _ | with_reducible apply foldl_wf | with_reducible apply foldl_fst_wf | with_reducible apply foldl_snd_wf | dsimp only | split)

theorem State.releaseHolders_wf (s : State) (g uid : Nat) (regs : List Reg) (counts : Bool) (hs : Memory.wf s.mem = true) : Memory.wf (State.releaseHolders s g uid regs counts).mem = true := by
  unfold State.releaseHolders
  repeat' (first | with_reducible assumption | intro _ | with_reducible apply foldl_wf | with_reducible apply State.updCore_wf | with_reducible apply State.updGrid_wf | with_reducible apply foldl_fst_wf | with_reducible apply foldl_snd_wf | dsimp only | split)

theorem State.releaseFibre_wf (s : State) (g uid : Nat) (hs : Memory.wf s.mem = true) : Memory.wf (State.releaseFibre s g uid).mem = true := by
  unfold State.releaseFibre
  repeat' (first | with_reducible assumption | intro _ | with_reducible apply foldl_wf | with_reducible apply State.updCore_wf | with_reducible apply State.updGrid_wf | with_reducible apply foldl_fst_wf | with_reducible apply foldl_snd_wf | dsimp only | split)

theorem State.settleGm_wf (s : State) (g : Nat) (hs : Memory.wf s.mem = true) : Memory.wf (State.settleGm s g).mem = true := by
  unfold State.settleGm
  repeat' (first | with_reducible assumption | intro _ | with_reducible apply foldl_wf | with_reducible apply State.mapLanes_wf | with_reducible apply foldl_fst_wf | with_reducible apply foldl_snd_wf | dsimp only | split)

theorem State.advance_wf (s : State) (lanes : List Nat) (hs : Memory.wf s.mem = true) : Memory.wf (State.advance s lanes).mem = true := by
  unfold State.advance
  repeat' (first | with_reducible assumption | intro _ | with_reducible apply foldl_wf | with_reducible apply State.mapLanes_wf | with_reducible apply foldl_fst_wf | with_reducible apply foldl_snd_wf | dsimp only | split)

theorem State.warn_wf (s : State) (w : W32) (hs : Memory.wf s.mem = true) : Memory.wf (State.warn s w).mem = true := by
  unfold State.warn
  repeat' (first | with_reducible assumption | intro _ | with_reducible apply foldl_wf | with_reducible apply State.updGroup_wf | with_reducible apply foldl_fst_wf | with_reducible apply foldl_snd_wf | dsimp only | split)

theorem State.wait_wf (s : State) (lanes : List Nat) (w : Wait) (hs : Memory.wf s.mem = true) : Memory.wf (State.wait s lanes w).mem = true := by
  unfold State.wait
  repeat' (first | with_reducible assumption | intro _ | with_reducible apply foldl_wf | with_reducible apply State.mapLanes_wf | with_reducible apply foldl_fst_wf | with_reducible apply foldl_snd_wf | dsimp only | split)

theorem State.dropLater_wf (s : State) (g : Nat) (h : Held) (hs : Memory.wf s.mem = true) : Memory.wf (State.dropLater s g h).mem = true := by
  unfold State.dropLater
  repeat' (first | with_reducible assumption | intro _ | with_reducible apply foldl_wf | with_reducible apply State.updCore_wf | with_reducible apply foldl_fst_wf | with_reducible apply foldl_snd_wf | dsimp only | split)

theorem State.undoHeld_wf (s : State) (g : Nat) (hs : Memory.wf s.mem = true) : Memory.wf (State.undoHeld s g).mem = true := by
  unfold State.undoHeld
  repeat' (first | with_reducible assumption | intro _ | with_reducible apply foldl_wf | with_reducible apply State.dropLater_wf | with_reducible apply State.mapLanes_wf | with_reducible apply State.updGroup_wf | with_reducible apply State.wait_wf | with_reducible apply foldl_fst_wf | with_reducible apply foldl_snd_wf | dsimp only | split)

theorem State.scrub_wf (s : State) (la a n generation : Nat) (hs : Memory.wf s.mem = true) : Memory.wf (s.scrub la a n generation).mem = true :=
  Memory.wf_writeN _ _ hs

theorem State.sealFor_wf (s : State) (generation a n : Nat) (hs : Memory.wf s.mem = true) : Memory.wf (State.sealFor s generation a n).mem = true := by
  unfold State.sealFor
  repeat' (first | with_reducible assumption | intro _ | with_reducible apply foldl_wf | with_reducible apply State.scrub_wf | with_reducible apply foldl_fst_wf | with_reducible apply foldl_snd_wf | dsimp only | split)

theorem State.seal_wf (s : State) (ctx a n : Nat) (hs : Memory.wf s.mem = true) : Memory.wf (State.seal s ctx a n).mem = true := by
  unfold State.seal
  repeat' (first | with_reducible assumption | intro _ | with_reducible apply foldl_wf | with_reducible apply State.sealFor_wf | with_reducible apply foldl_fst_wf | with_reducible apply foldl_snd_wf | dsimp only | split)

theorem State.reportRefused_wf (s : State) (ctx core : Nat) (lines : List Nat) (hs : Memory.wf s.mem = true) : Memory.wf (State.reportRefused s ctx core lines).mem = true := by
  unfold State.reportRefused
  repeat' (first | with_reducible assumption | intro _ | with_reducible apply foldl_wf | with_reducible apply State.reportSupervisor_wf | with_reducible apply foldl_fst_wf | with_reducible apply foldl_snd_wf | dsimp only | split)

theorem State.reportReads_wf (s : State) (ctx core : Nat) (lines : List Nat) (hs : Memory.wf s.mem = true) : Memory.wf (State.reportReads s ctx core lines).mem = true := by
  unfold State.reportReads
  repeat' (first | with_reducible assumption | intro _ | with_reducible apply foldl_wf | with_reducible apply State.reportRefused_wf | with_reducible apply foldl_fst_wf | with_reducible apply foldl_snd_wf | dsimp only | split)

theorem State.reportWrites_wf (s : State) (ctx core : Nat) (lines : List Nat) (hs : Memory.wf s.mem = true) : Memory.wf (State.reportWrites s ctx core lines).mem = true := by
  unfold State.reportWrites
  repeat' (first | with_reducible assumption | intro _ | with_reducible apply foldl_wf | with_reducible apply State.reportRefused_wf | with_reducible apply foldl_fst_wf | with_reducible apply foldl_snd_wf | dsimp only | split)

theorem State.reportWalk_wf (s : State) (ctx core : Nat) (va : W64) (hs : Memory.wf s.mem = true) : Memory.wf (State.reportWalk s ctx core va).mem = true := by
  unfold State.reportWalk
  repeat' (first | with_reducible assumption | intro _ | with_reducible apply foldl_wf | with_reducible apply State.reportReads_wf | with_reducible apply foldl_fst_wf | with_reducible apply foldl_snd_wf | dsimp only | split)

theorem State.deviceWrite_wf (s : State) (ctx : Nat) (va : W64) (data : List Byte) (hs : Memory.wf s.mem = true) : Memory.wf (State.deviceWrite s ctx va data).mem = true := by
  unfold State.deviceWrite
  repeat' (first | with_reducible assumption | intro _ | with_reducible apply foldl_wf | with_reducible apply State.reportWalk_wf | with_reducible apply State.seal_wf | with_reducible apply State.sysWrite_wf | with_reducible apply foldl_fst_wf | with_reducible apply foldl_snd_wf | dsimp only | split)

theorem State.shiftTimes_wf (s : State) (ctx : Nat) (hs : Memory.wf s.mem = true) : Memory.wf (State.shiftTimes s ctx).mem = true := by
  unfold State.shiftTimes
  repeat' (first | with_reducible assumption | intro _ | with_reducible apply foldl_wf | with_reducible apply State.wait_wf | with_reducible apply foldl_fst_wf | with_reducible apply foldl_snd_wf | dsimp only | split)

theorem State.raiseHalt_wf (s : State) (ctx reason g : Nat) (t : Trap) (lanes : List Nat) (incomplete : Bool) (epc : W64) (hs : Memory.wf s.mem = true) : Memory.wf (State.raiseHalt s ctx reason g t lanes incomplete epc).mem = true := by
  unfold State.raiseHalt
  repeat' (first | with_reducible assumption | intro _ | with_reducible apply foldl_wf | with_reducible apply State.shiftTimes_wf | with_reducible apply foldl_fst_wf | with_reducible apply foldl_snd_wf | dsimp only | split)

theorem State.keep_wf (s : State) (g : Nat) (t : Trap) (lanes : List Nat) (hs : Memory.wf s.mem = true) : Memory.wf (State.keep s g t lanes).mem = true := by
  unfold State.keep
  repeat' (first | with_reducible assumption | intro _ | with_reducible apply foldl_wf | with_reducible apply State.updGroup_wf | with_reducible apply foldl_fst_wf | with_reducible apply foldl_snd_wf | dsimp only | split)

theorem State.updHalt_wf (s : State) (ctx : Nat) (f : Halt → Halt) (hs : Memory.wf s.mem = true) : Memory.wf (State.updHalt s ctx f).mem = true := by
  unfold State.updHalt
  repeat' (first | with_reducible assumption | intro _ | with_reducible apply foldl_wf | with_reducible apply foldl_fst_wf | with_reducible apply foldl_snd_wf | dsimp only | split)

theorem State.fault_wf (s : State) (g : Nat) (t : Trap) (lanes : List Nat) (incomplete : Bool) (hs : Memory.wf s.mem = true) : Memory.wf (State.fault s g t lanes incomplete).mem = true := by
  unfold State.fault
  repeat' (first | with_reducible assumption | intro _ | with_reducible apply foldl_wf | with_reducible apply State.keep_wf | with_reducible apply State.raiseHalt_wf | with_reducible apply State.updHalt_wf | with_reducible apply foldl_fst_wf | with_reducible apply foldl_snd_wf | dsimp only | split)

theorem State.precise_wf (s : State) (cause sub info eng : Nat) (lanes : List Nat) (val : W64) (hs : Memory.wf s.mem = true) : Memory.wf (State.precise s cause sub info eng lanes val).mem = true := by
  unfold State.precise
  repeat' (first | with_reducible assumption | intro _ | with_reducible apply foldl_wf | with_reducible apply State.fault_wf | with_reducible apply foldl_fst_wf | with_reducible apply foldl_snd_wf | dsimp only | split)

theorem State.walkPoison_wf (s : State) (eng field lane : Nat) (va : W64) (hs : Memory.wf s.mem = true) : Memory.wf (State.walkPoison s eng field lane va).mem = true := by
  unfold State.walkPoison
  repeat' (first | with_reducible assumption | intro _ | with_reducible apply foldl_wf | with_reducible apply State.precise_wf | with_reducible apply State.reportWalk_wf | with_reducible apply foldl_fst_wf | with_reducible apply foldl_snd_wf | dsimp only | split)

theorem State.deferred_wf (s : State) (ctx g cause sub info eng lane : Nat) (val : W64) (hs : Memory.wf s.mem = true) : Memory.wf (State.deferred s ctx g cause sub info eng lane val).mem = true := by
  unfold State.deferred
  repeat' (first | with_reducible assumption | intro _ | with_reducible apply foldl_wf | with_reducible apply State.fault_wf | with_reducible apply State.raiseHalt_wf | with_reducible apply foldl_fst_wf | with_reducible apply foldl_snd_wf | dsimp only | split)

theorem State.raisePending_wf (s : State) (g : Nat) (hs : Memory.wf s.mem = true) : Memory.wf (State.raisePending s g).mem = true := by
  unfold State.raisePending
  repeat' (first | with_reducible assumption | intro _ | with_reducible apply foldl_wf | with_reducible apply State.deferred_wf | with_reducible apply State.fault_wf | with_reducible apply State.raiseHalt_wf | with_reducible apply State.updGroup_wf | with_reducible apply foldl_fst_wf | with_reducible apply foldl_snd_wf | dsimp only | split)

theorem State.report_wf (s : State) (vf type : Nat) (addr : W64) (place : W32) (hs : Memory.wf s.mem = true) : Memory.wf (State.report s vf type addr place).mem = true := by
  unfold State.report
  repeat' (first | with_reducible assumption | intro _ | with_reducible apply foldl_wf | with_reducible apply State.reportSupervisor_wf | with_reducible apply foldl_fst_wf | with_reducible apply foldl_snd_wf | dsimp only | split)

theorem State.writeHeader_wf (s : State) (ctx : Nat) (h : Halt) (hs : Memory.wf s.mem = true) : Memory.wf (State.writeHeader s ctx h).mem = true := by
  unfold State.writeHeader
  repeat' (first | with_reducible assumption | intro _ | with_reducible apply foldl_wf | with_reducible apply State.deviceWrite_wf | with_reducible apply foldl_fst_wf | with_reducible apply foldl_snd_wf | dsimp only | split)

theorem State.moveLinks_wf (s : State) (g uid : Nat) (f : Nat → Nat) (hs : Memory.wf s.mem = true) : Memory.wf (State.moveLinks s g uid f).mem = true := by
  unfold State.moveLinks
  repeat' (first | with_reducible assumption | intro _ | with_reducible apply foldl_wf | with_reducible apply State.updCore_wf | with_reducible apply foldl_fst_wf | with_reducible apply foldl_snd_wf | dsimp only | split)

theorem State.parkGroups_wf (s : State) (ctx : Nat) (but : Option Nat) (hs : Memory.wf s.mem = true) : Memory.wf (State.parkGroups s ctx but).mem = true := by
  unfold State.parkGroups
  repeat' (first | with_reducible assumption | intro _ | with_reducible apply foldl_wf | with_reducible apply foldl_fst_wf | with_reducible apply foldl_snd_wf | dsimp only | split)

theorem State.unparkGroups_wf (s : State) (ctx : Nat) (hs : Memory.wf s.mem = true) : Memory.wf (State.unparkGroups s ctx).mem = true := by
  unfold State.unparkGroups
  repeat' (first | with_reducible assumption | intro _ | with_reducible apply foldl_wf | with_reducible apply foldl_fst_wf | with_reducible apply foldl_snd_wf | dsimp only | split)

theorem State.enterHandler_wf (s : State) (ctx : Nat) (h : Halt) (hs : Memory.wf s.mem = true) : Memory.wf (State.enterHandler s ctx h).mem = true := by
  unfold State.enterHandler
  repeat' (first | with_reducible assumption | intro _ | with_reducible apply foldl_wf | with_reducible apply State.mapLanes_wf | with_reducible apply State.moveLinks_wf | with_reducible apply State.parkGroups_wf | with_reducible apply State.releaseHolders_wf | with_reducible apply State.shiftTimes_wf | with_reducible apply State.undoHeld_wf | with_reducible apply State.updGroup_wf | with_reducible apply State.writeHeader_wf | with_reducible apply foldl_fst_wf | with_reducible apply foldl_snd_wf | dsimp only | split)

theorem State.serveLatched_wf (s : State) (ctx : Nat) (hs : Memory.wf s.mem = true) : Memory.wf (State.serveLatched s ctx).mem = true := by
  unfold State.serveLatched
  repeat' (first | with_reducible assumption | intro _ | with_reducible apply foldl_wf | with_reducible apply State.raiseHalt_wf | with_reducible apply foldl_fst_wf | with_reducible apply foldl_snd_wf | dsimp only | split)

theorem State.quitLanes_wf (s : State) (g : Nat) (lanes : List Nat) (hs : Memory.wf s.mem = true) : Memory.wf (State.quitLanes s g lanes).mem = true := by
  unfold State.quitLanes
  repeat' (first | with_reducible assumption | intro _ | with_reducible apply foldl_wf | with_reducible apply State.keep_wf | with_reducible apply State.releaseFibre_wf | with_reducible apply State.updGroup_wf | with_reducible apply foldl_fst_wf | with_reducible apply foldl_snd_wf | dsimp only | split)

theorem State.raiseEnded_wf (s : State) (ctx : Nat) (hs : Memory.wf s.mem = true) : Memory.wf (State.raiseEnded s ctx).mem = true := by
  unfold State.raiseEnded
  repeat' (first | with_reducible assumption | intro _ | with_reducible apply foldl_wf | with_reducible apply State.raiseHalt_wf | with_reducible apply foldl_fst_wf | with_reducible apply foldl_snd_wf | dsimp only | split)

theorem State.releaseHalt_wf (s : State) (ctx : Nat) (hs : Memory.wf s.mem = true) : Memory.wf (State.releaseHalt s ctx).mem = true := by
  unfold State.releaseHalt
  repeat' (first | with_reducible assumption | intro _ | with_reducible apply foldl_wf | with_reducible apply State.raiseEnded_wf | with_reducible apply State.serveLatched_wf | with_reducible apply State.unparkGroups_wf | with_reducible apply State.updHalt_wf | with_reducible apply foldl_fst_wf | with_reducible apply foldl_snd_wf | dsimp only | split)

theorem State.endHandler_wf (s : State) (ctx g : Nat) (hs : Memory.wf s.mem = true) : Memory.wf (State.endHandler s ctx g).mem = true := by
  unfold State.endHandler
  repeat' (first | with_reducible assumption | intro _ | with_reducible apply foldl_wf | with_reducible apply State.releaseHalt_wf | with_reducible apply State.updHalt_wf | with_reducible apply foldl_fst_wf | with_reducible apply foldl_snd_wf | dsimp only | split)

theorem State.leaveHandler_wf (s : State) (g : Nat) (hs : Memory.wf s.mem = true) : Memory.wf (State.leaveHandler s g).mem = true := by
  unfold State.leaveHandler
  repeat' (first | with_reducible assumption | intro _ | with_reducible apply foldl_wf | with_reducible apply State.endHandler_wf | with_reducible apply State.mapLanes_wf | with_reducible apply State.moveLinks_wf | with_reducible apply State.quitLanes_wf | with_reducible apply State.releaseHolders_wf | with_reducible apply State.shiftTimes_wf | with_reducible apply State.updGroup_wf | with_reducible apply foldl_fst_wf | with_reducible apply foldl_snd_wf | dsimp only | split)

theorem State.freeLast_wf (s : State) (old : Group) (e : Eff) (written : Fibre → List Reg) (hs : Memory.wf s.mem = true) : Memory.wf (State.freeLast s old e written).mem = true := by
  unfold State.freeLast
  repeat' (first | with_reducible assumption | intro _ | with_reducible apply foldl_wf | with_reducible apply State.mapLanes_wf | with_reducible apply State.releaseHolders_wf | with_reducible apply foldl_fst_wf | with_reducible apply foldl_snd_wf | dsimp only | split)

theorem State.complete_wf (s : State) (old : Group) (e : Eff) (written : Fibre → List Reg) (hs : Memory.wf s.mem = true) : Memory.wf (State.complete s old e written).mem = true := by
  unfold State.complete
  repeat' (first | with_reducible assumption | intro _ | with_reducible apply foldl_wf | with_reducible apply State.advance_wf | with_reducible apply State.freeLast_wf | with_reducible apply State.settleGm_wf | with_reducible apply foldl_fst_wf | with_reducible apply foldl_snd_wf | dsimp only | split)

theorem State.narrow_wf (s : State) (lanes : List Nat) (hs : Memory.wf s.mem = true) : Memory.wf (State.narrow s lanes).mem = true := by
  unfold State.narrow
  repeat' (first | with_reducible assumption | intro _ | with_reducible apply foldl_wf | with_reducible apply foldl_fst_wf | with_reducible apply foldl_snd_wf | dsimp only | split)

theorem State.control_wf (s : State) (eng : Nat) (ops : Group → Nat → Fibre → List Ctl) (go : State → State) (hs : Memory.wf s.mem = true) (hgo : ∀ x0, Memory.wf x0.mem = true → Memory.wf (go x0).mem = true) : Memory.wf (State.control s eng ops go).mem = true := by
  unfold State.control
  repeat' (first | with_reducible assumption | intro _ | with_reducible apply foldl_wf | with_reducible apply State.mapLanes_wf | with_reducible apply State.narrow_wf | with_reducible apply State.precise_wf | with_reducible apply State.releaseHolders_wf | with_reducible apply State.wait_wf | with_reducible apply hgo | with_reducible apply foldl_fst_wf | with_reducible apply foldl_snd_wf | dsimp only | split)

theorem State.pending_wf (s : State) (z : Alu) (old : Group) (lanes : List Nat) (flags : W32) (trap : Option (Trap × List Nat)) (hs : Memory.wf s.mem = true) : Memory.wf (State.pending s z old lanes flags trap).mem = true := by
  unfold State.pending
  repeat' (first | with_reducible assumption | intro _ | with_reducible apply foldl_wf | with_reducible apply State.mapLanes_wf | with_reducible apply State.updCore_wf | with_reducible apply foldl_fst_wf | with_reducible apply foldl_snd_wf | dsimp only | split)

theorem State.alu_wf (s : State) (z : Alu) (hs : Memory.wf s.mem = true) : Memory.wf (State.alu s z).mem = true := by
  unfold State.alu
  repeat' (first | with_reducible assumption | intro _ | with_reducible apply foldl_wf | with_reducible apply State.complete_wf | with_reducible apply State.fault_wf | with_reducible apply State.mapLanes_wf | with_reducible apply State.pending_wf | with_reducible apply State.releaseHolders_wf | with_reducible apply State.warn_wf | with_reducible apply foldl_fst_wf | with_reducible apply foldl_snd_wf | dsimp only | split)

theorem State.acquireL1_wf (s : State) (core scope : Nat) (teamCores : Nat) (hs : Memory.wf s.mem = true) : Memory.wf (State.acquireL1 s core scope teamCores).mem = true := by
  unfold State.acquireL1
  repeat' (first | with_reducible assumption | intro _ | with_reducible apply foldl_wf | with_reducible apply State.updCore_wf | with_reducible apply foldl_fst_wf | with_reducible apply foldl_snd_wf | dsimp only | split)

theorem State.updTeam_wf (s : State) (x : Group) (f : Team → Team) (hs : Memory.wf s.mem = true) : Memory.wf (State.updTeam s x f).mem = true := by
  unfold State.updTeam
  repeat' (first | with_reducible assumption | intro _ | with_reducible apply foldl_wf | with_reducible apply State.updGrid_wf | with_reducible apply foldl_fst_wf | with_reducible apply foldl_snd_wf | dsimp only | split)

theorem State.checkGroup_wf (s : State) (g : Nat) (hs : Memory.wf s.mem = true) : Memory.wf (State.checkGroup s g).mem = true := by
  unfold State.checkGroup
  repeat' (first | with_reducible assumption | intro _ | with_reducible apply foldl_wf | with_reducible apply State.acquireL1_wf | with_reducible apply State.mapLanes_wf | with_reducible apply State.updGroup_wf | with_reducible apply State.wait_wf | with_reducible apply foldl_fst_wf | with_reducible apply foldl_snd_wf | dsimp only | split)

theorem State.checkTeam_wf (s : State) (g : Nat) (hs : Memory.wf s.mem = true) : Memory.wf (State.checkTeam s g).mem = true := by
  unfold State.checkTeam
  repeat' (first | with_reducible assumption | intro _ | with_reducible apply foldl_wf | with_reducible apply State.acquireL1_wf | with_reducible apply State.updTeam_wf | with_reducible apply foldl_fst_wf | with_reducible apply foldl_snd_wf | dsimp only | split)

theorem State.checkGrid_wf (s : State) (grid : Nat) (hs : Memory.wf s.mem = true) : Memory.wf (State.checkGrid s grid).mem = true := by
  unfold State.checkGrid
  repeat' (first | with_reducible assumption | intro _ | with_reducible apply foldl_wf | with_reducible apply State.updGrid_wf | with_reducible apply foldl_fst_wf | with_reducible apply foldl_snd_wf | dsimp only | split)

theorem State.checkBarriers_wf (s : State) (g : Nat) (hs : Memory.wf s.mem = true) : Memory.wf (State.checkBarriers s g).mem = true := by
  unfold State.checkBarriers
  repeat' (first | with_reducible assumption | intro _ | with_reducible apply foldl_wf | with_reducible apply State.checkGrid_wf | with_reducible apply State.checkGroup_wf | with_reducible apply State.checkTeam_wf | with_reducible apply foldl_fst_wf | with_reducible apply foldl_snd_wf | dsimp only | split)

theorem State.checkContext_wf (s : State) (ctx : Nat) (hs : Memory.wf s.mem = true) : Memory.wf (State.checkContext s ctx).mem = true := by
  unfold State.checkContext
  repeat' (first | with_reducible assumption | intro _ | with_reducible apply foldl_wf | with_reducible apply State.checkBarriers_wf | with_reducible apply foldl_fst_wf | with_reducible apply foldl_snd_wf | dsimp only | split)

theorem State.checkReturn_wf (s : State) (g : Nat) (hs : Memory.wf s.mem = true) : Memory.wf (State.checkReturn s g).mem = true := by
  unfold State.checkReturn
  repeat' (first | with_reducible assumption | intro _ | with_reducible apply foldl_wf | with_reducible apply State.checkBarriers_wf | with_reducible apply State.checkContext_wf | with_reducible apply State.leaveHandler_wf | with_reducible apply State.wait_wf | with_reducible apply foldl_fst_wf | with_reducible apply foldl_snd_wf | dsimp only | split)

theorem State.pushStore_wf (s : State) (core : Nat) (t : Store) (hs : Memory.wf s.mem = true) : Memory.wf (State.pushStore s core t).mem = true := by
  unfold State.pushStore
  repeat' (first | with_reducible assumption | intro _ | with_reducible apply foldl_wf | with_reducible apply State.updCore_wf | with_reducible apply foldl_fst_wf | with_reducible apply foldl_snd_wf | dsimp only | split)

theorem State.portTake_wf (s : State) (ctx core n : Nat) (a : Ask) (hs : Memory.wf s.mem = true) : Memory.wf (State.portTake s ctx core n a).mem = true := by
  unfold State.portTake
  repeat' (first | with_reducible assumption | intro _ | with_reducible apply foldl_wf | with_reducible apply State.updCore_wf | with_reducible apply foldl_fst_wf | with_reducible apply foldl_snd_wf | dsimp only | split)

theorem State.portQueue_wf (s : State) (ctx core n : Nat) (a : Ask) (hs : Memory.wf s.mem = true) : Memory.wf (State.portQueue s ctx core n a).mem = true := by
  unfold State.portQueue
  repeat' (first | with_reducible assumption | intro _ | with_reducible apply foldl_wf | with_reducible apply State.updCore_wf | with_reducible apply foldl_fst_wf | with_reducible apply foldl_snd_wf | dsimp only | split)

theorem State.port_wf (s : State) (ctx core n : Nat) (a : Ask) (hs : Memory.wf s.mem = true) : Memory.wf (s.port ctx core n a).1.mem = true := by
  unfold State.port
  split
  · exact State.portTake_wf _ _ _ _ _ hs
  · exact State.portQueue_wf _ _ _ _ _ hs

theorem State.reportDead_wf (s : State) (ctx core : Nat) (lines : List Nat) (hs : Memory.wf s.mem = true) : Memory.wf (State.reportDead s ctx core lines).mem = true := by
  unfold State.reportDead
  repeat' (first | with_reducible assumption | intro _ | with_reducible apply foldl_wf | with_reducible apply State.reportSupervisor_wf | with_reducible apply foldl_fst_wf | with_reducible apply foldl_snd_wf | dsimp only | split)

theorem State.dropRequests_wf (s : State) (ctx core : Nat) (hs : Memory.wf s.mem = true) : Memory.wf (State.dropRequests s ctx core).mem = true := by
  unfold State.dropRequests
  repeat' (first | with_reducible assumption | intro _ | with_reducible apply foldl_wf | with_reducible apply State.forget_wf | with_reducible apply State.reportDead_wf | with_reducible apply State.updCore_wf | with_reducible apply foldl_fst_wf | with_reducible apply foldl_snd_wf | dsimp only | split)

theorem State.send_wf (s : State) (ctx core n : Nat) (a : Ask) (go : State → State) (hs : Memory.wf s.mem = true) (hgo : ∀ x0, Memory.wf x0.mem = true → Memory.wf (go x0).mem = true) : Memory.wf (State.send s ctx core n a go).mem = true := by
  unfold State.send
  repeat' (first | with_reducible assumption | intro _ | with_reducible apply foldl_wf | with_reducible apply State.dropRequests_wf | with_reducible apply State.port_wf | with_reducible apply hgo | with_reducible apply foldl_fst_wf | with_reducible apply foldl_snd_wf | dsimp only | split)

theorem State.throughPort_wf (s : State) (ctx core n : Nat) (go : State → State) (hs : Memory.wf s.mem = true) (hgo : ∀ x0, Memory.wf x0.mem = true → Memory.wf (go x0).mem = true) : Memory.wf (State.throughPort s ctx core n go).mem = true := by
  unfold State.throughPort
  repeat' (first | with_reducible assumption | intro _ | with_reducible apply foldl_wf | with_reducible apply State.send_wf | with_reducible apply hgo | with_reducible apply foldl_fst_wf | with_reducible apply foldl_snd_wf | dsimp only | split)

theorem State.waitReplay_wf (s : State) (ctx : Nat) (addrs : List (Nat × W64)) (faulting : List Nat) (hs : Memory.wf s.mem = true) : Memory.wf (State.waitReplay s ctx addrs faulting).mem = true := by
  unfold State.waitReplay
  repeat' (first | with_reducible assumption | intro _ | with_reducible apply foldl_wf | with_reducible apply State.askSupervisor_wf | with_reducible apply State.wait_wf | with_reducible apply foldl_fst_wf | with_reducible apply foldl_snd_wf | dsimp only | split)

theorem State.suspend_wf (s : State) (i : Instr) (e : Eff) (load : Bool) (dst : Fibre → List Reg) (ctx : Nat) (addrs : List (Nat × W64)) (faulting : List Nat) (hs : Memory.wf s.mem = true) : Memory.wf (State.suspend s i e load dst ctx addrs faulting).mem = true := by
  unfold State.suspend
  repeat' (first | with_reducible assumption | intro _ | with_reducible apply foldl_wf | with_reducible apply State.advance_wf | with_reducible apply State.askSupervisor_wf | with_reducible apply State.keep_wf | with_reducible apply State.mapLanes_wf | with_reducible apply State.updGroup_wf | with_reducible apply foldl_fst_wf | with_reducible apply foldl_snd_wf | dsimp only | split)

theorem State.claimScratch_wf (s : State) (core ctx : Nat) (keep : List Nat) (hs : Memory.wf s.mem = true) : Memory.wf (State.claimScratch s core ctx keep).mem = true := by
  unfold State.claimScratch
  repeat' (first | with_reducible assumption | intro _ | with_reducible apply foldl_wf | with_reducible apply State.keep_wf | with_reducible apply State.updCore_wf | with_reducible apply foldl_fst_wf | with_reducible apply foldl_snd_wf | dsimp only | split)

theorem State.recallScratch_wf (s : State) (core ctx off n : Nat) (hs : Memory.wf s.mem = true) : Memory.wf (State.recallScratch s core ctx off n).mem = true := by
  unfold State.recallScratch
  repeat' (first | with_reducible assumption | intro _ | with_reducible apply foldl_wf | with_reducible apply State.claimScratch_wf | with_reducible apply State.updCore_wf | with_reducible apply foldl_fst_wf | with_reducible apply foldl_snd_wf | dsimp only | split)

theorem State.patchL1_wf (s : State) (core a : Nat) (data : List Byte) (poison : Bool) (hs : Memory.wf s.mem = true) : Memory.wf (State.patchL1 s core a data poison).mem = true := by
  unfold State.patchL1
  repeat' (first | with_reducible assumption | intro _ | with_reducible apply foldl_wf | with_reducible apply State.updCore_wf | with_reducible apply foldl_fst_wf | with_reducible apply foldl_snd_wf | dsimp only | split)

theorem State.sample_wf (s : State) (core g la : Nat) (hs : Memory.wf s.mem = true) : Memory.wf (State.sample s core g la).mem = true := by
  unfold State.sample
  repeat' (first | with_reducible assumption | intro _ | with_reducible apply foldl_wf | with_reducible apply State.updGroup_wf | with_reducible apply foldl_fst_wf | with_reducible apply foldl_snd_wf | dsimp only | split)

theorem State.install_wf (s : State) (core la : Nat) (l : L1Line) (g pol : Nat) (hs : Memory.wf s.mem = true) : Memory.wf (State.install s core la l g pol).mem = true := by
  unfold State.install
  repeat' (first | with_reducible assumption | intro _ | with_reducible apply foldl_wf | with_reducible apply State.keep_wf | with_reducible apply State.updCore_wf | with_reducible apply State.updGroup_wf | with_reducible apply foldl_fst_wf | with_reducible apply foldl_snd_wf | dsimp only | split)

theorem State.allocL1_wf (s : State) (core la g pol : Nat) (l1 : Bool) (hs : Memory.wf s.mem = true) : Memory.wf (State.allocL1 s core la g pol l1).mem = true := by
  unfold State.allocL1
  repeat' (first | with_reducible assumption | intro _ | with_reducible apply foldl_wf | with_reducible apply State.install_wf | with_reducible apply State.updCore_wf | with_reducible apply foldl_fst_wf | with_reducible apply foldl_snd_wf | dsimp only | split)

theorem State.plain_wf (s : State) (i : Instr) (go : Eff → State → State) (hs : Memory.wf s.mem = true) (hgo : ∀ x0 x1, Memory.wf x1.mem = true → Memory.wf (go x0 x1).mem = true) : Memory.wf (State.plain s i go).mem = true := by
  unfold State.plain
  repeat' (first | with_reducible assumption | intro _ | with_reducible apply foldl_wf | with_reducible apply State.warn_wf | with_reducible apply hgo | with_reducible apply foldl_fst_wf | with_reducible apply foldl_snd_wf | dsimp only | split)

theorem State.only_wf (s : State) (i : Instr) (hs : Memory.wf s.mem = true) : Memory.wf (State.only s i).mem = true := by
  unfold State.only
  repeat' (first | with_reducible assumption | intro _ | with_reducible apply foldl_wf | with_reducible apply State.complete_wf | with_reducible apply State.plain_wf | with_reducible apply foldl_fst_wf | with_reducible apply foldl_snd_wf | dsimp only | split)

theorem State.jump_wf (s : State) (target : Nat → Fibre → W64) (hs : Memory.wf s.mem = true) : Memory.wf (State.jump s target).mem = true := by
  unfold State.jump
  repeat' (first | with_reducible assumption | intro _ | with_reducible apply foldl_wf | with_reducible apply State.mapLanes_wf | with_reducible apply State.wait_wf | with_reducible apply foldl_fst_wf | with_reducible apply foldl_snd_wf | dsimp only | split)

theorem execNop_wf (m : Mods) (s : State) (hs : Memory.wf s.mem = true) (t' : State) : execNop m s = .next t' → Memory.wf t'.mem = true := by
  unfold execNop
  intro ht
  (repeat' (first | split at ht | dsimp only at ht)) <;> (injection ht with ht; subst ht) <;> 
  (repeat' (first | with_reducible assumption | intro _ | with_reducible apply foldl_wf | with_reducible apply State.only_wf | with_reducible apply foldl_fst_wf | with_reducible apply foldl_snd_wf | dsimp only | split))

theorem execBra_wf (m : Mods) (o : BitVec 24) (s : State) (hs : Memory.wf s.mem = true) (t' : State) : execBra m o s = .next t' → Memory.wf t'.mem = true := by
  unfold execBra
  intro ht
  (repeat' (first | split at ht | dsimp only at ht)) <;> (injection ht with ht; subst ht) <;> 
  (repeat' (first | with_reducible assumption | intro _ | with_reducible apply foldl_wf | with_reducible apply State.jump_wf | with_reducible apply State.plain_wf | with_reducible apply foldl_fst_wf | with_reducible apply foldl_snd_wf | dsimp only | split))

theorem execBrq_wf (m : Mods) (q : BitVec 3) (sense : BitVec 1) (o : BitVec 20) (s : State) (hs : Memory.wf s.mem = true) (t' : State) : execBrq m q sense o s = .next t' → Memory.wf t'.mem = true := by
  unfold execBrq
  intro ht
  (repeat' (first | split at ht | dsimp only at ht)) <;> (injection ht with ht; subst ht) <;> 
  (repeat' (first | with_reducible assumption | intro _ | with_reducible apply foldl_wf | with_reducible apply State.control_wf | with_reducible apply State.jump_wf | with_reducible apply State.plain_wf | with_reducible apply State.settleGm_wf | with_reducible apply foldl_fst_wf | with_reducible apply foldl_snd_wf | dsimp only | split))

theorem State.checkTarget_wf (s : State) (f : BitVec 3) (a : BitVec 7) (go : State → State) (hs : Memory.wf s.mem = true) (hgo : ∀ x0, Memory.wf x0.mem = true → Memory.wf (go x0).mem = true) : Memory.wf (State.checkTarget s f a go).mem = true := by
  unfold State.checkTarget
  repeat' (first | with_reducible assumption | intro _ | with_reducible apply foldl_wf | with_reducible apply State.control_wf | with_reducible apply State.precise_wf | with_reducible apply hgo | with_reducible apply foldl_fst_wf | with_reducible apply foldl_snd_wf | dsimp only | split)

theorem execJmp_wf (m : Mods) (f : BitVec 3) (a : BitVec 7) (s : State) (hs : Memory.wf s.mem = true) (t' : State) : execJmp m f a s = .next t' → Memory.wf t'.mem = true := by
  unfold execJmp
  intro ht
  (repeat' (first | split at ht | dsimp only at ht)) <;> (injection ht with ht; subst ht) <;> 
  (repeat' (first | with_reducible assumption | intro _ | with_reducible apply foldl_wf | with_reducible apply State.checkTarget_wf | with_reducible apply State.freeLast_wf | with_reducible apply State.jump_wf | with_reducible apply State.plain_wf | with_reducible apply State.settleGm_wf | with_reducible apply foldl_fst_wf | with_reducible apply foldl_snd_wf | dsimp only | split))

theorem State.call_wf (s : State) (target : Nat → W64) (last : State → State) (hs : Memory.wf s.mem = true) (hlast : ∀ x0, Memory.wf x0.mem = true → Memory.wf (last x0).mem = true) : Memory.wf (State.call s target last).mem = true := by
  unfold State.call
  repeat' (first | with_reducible assumption | intro _ | with_reducible apply foldl_wf | with_reducible apply State.fillTlb_wf | with_reducible apply State.forget_wf | with_reducible apply State.mapLanes_wf | with_reducible apply State.precise_wf | with_reducible apply State.pushStore_wf | with_reducible apply State.sample_wf | with_reducible apply State.wait_wf | with_reducible apply State.waitReplay_wf | with_reducible apply State.walkPoison_wf | with_reducible apply hlast | with_reducible apply foldl_fst_wf | with_reducible apply foldl_snd_wf | dsimp only | split)

theorem execCall_wf (m : Mods) (o : BitVec 24) (s : State) (hs : Memory.wf s.mem = true) (t' : State) : execCall m o s = .next t' → Memory.wf t'.mem = true := by
  intro h; injection h with h; subst h
  exact State.plain_wf _ _ _ hs (fun _ _ h => State.call_wf _ _ _ h (fun _ h => h))

theorem execCallr_wf (m : Mods) (f : BitVec 3) (a : BitVec 7) (s : State) (hs : Memory.wf s.mem = true) (t' : State) : execCallr m f a s = .next t' → Memory.wf t'.mem = true := by
  unfold execCallr
  intro ht
  (repeat' (first | split at ht | dsimp only at ht)) <;> (injection ht with ht; subst ht) <;> 
  (repeat' (first | with_reducible assumption | intro _ | with_reducible apply foldl_wf | with_reducible apply State.call_wf | with_reducible apply State.checkTarget_wf | with_reducible apply State.freeLast_wf | with_reducible apply State.plain_wf | with_reducible apply State.settleGm_wf | with_reducible apply foldl_fst_wf | with_reducible apply foldl_snd_wf | dsimp only | split))

theorem execRet_wf (m : Mods) (s : State) (hs : Memory.wf s.mem = true) (t' : State) : execRet m s = .next t' → Memory.wf t'.mem = true := by
  unfold execRet
  intro ht
  (repeat' (first | split at ht | dsimp only at ht)) <;> (injection ht with ht; subst ht) <;> 
  (repeat' (first | with_reducible assumption | intro _ | with_reducible apply foldl_wf | with_reducible apply State.fillTlb_wf | with_reducible apply State.forget_wf | with_reducible apply State.mapLanes_wf | with_reducible apply State.plain_wf | with_reducible apply State.precise_wf | with_reducible apply State.wait_wf | with_reducible apply State.waitReplay_wf | with_reducible apply State.walkPoison_wf | with_reducible apply foldl_fst_wf | with_reducible apply foldl_snd_wf | dsimp only | split))

theorem State.fillL1_wf (s : State) (core g la : Nat) (p : Page) (hs : Memory.wf s.mem = true) : Memory.wf (State.fillL1 s core g la p).mem = true := by
  unfold State.fillL1
  repeat' (first | with_reducible assumption | intro _ | with_reducible apply foldl_wf | with_reducible apply State.allocL1_wf | with_reducible apply State.countPacket_wf | with_reducible apply State.readLine_wf | with_reducible apply State.sample_wf | with_reducible apply foldl_fst_wf | with_reducible apply foldl_snd_wf | dsimp only | split)

theorem firstSome_some {α : Type} (l : List (Option α)) (x : α) (h : firstSome l = some x) : some x ∈ l := by
  induction l with
  | nil => cases h
  | cons a l ih =>
    cases a with
    | none => exact List.mem_cons_of_mem _ (ih h)
    | some y => injection h with h; subst h; exact List.mem_cons_self

theorem State.landFills_wf {s t : State} {g : Nat} {pc : W64} {lanes : List Nat} (hs : Memory.wf s.mem = true) (h : s.landFills g pc lanes = some t) : Memory.wf t.mem = true := by
  have h0 : ∀ c, Memory.wf (({ s with cur := c } : State)).mem = true := fun _ => hs
  unfold State.landFills at h
  (repeat' (first | split at h | dsimp only at h)) <;> (try cases h) <;>
    (repeat' (first | with_reducible assumption | with_reducible exact h0 _ | intro _ | with_reducible apply State.forget_wf | with_reducible apply State.precise_wf | with_reducible apply State.wait_wf | with_reducible apply State.mapLanes_wf | with_reducible apply State.waitReplay_wf | with_reducible apply State.walkPoison_wf | with_reducible apply State.dropRequests_wf | with_reducible apply State.portTake_wf | with_reducible apply State.portQueue_wf | with_reducible apply State.reportReads_wf | with_reducible apply State.fillL1_wf | with_reducible apply foldl_wf | dsimp only | split))

theorem execReturnFillArrival_wf (g : Nat) (pc : W64) (s : State) (hs : Memory.wf s.mem = true) (t' : State) : execReturnFillArrival g pc s = .next t' → Memory.wf t'.mem = true := by
  intro h
  unfold execReturnFillArrival at h
  dsimp only at h
  split at h
  · injection h with h; exact h ▸ hs
  · injection h with h; subst h
    cases e : firstSome ((Group.fillSets (s.group g) pc).map (fun p => s.landFills g pc p.2)) with
    | none => exact hs
    | some u =>
      obtain ⟨p, _, hp⟩ := List.mem_map.1 (firstSome_some _ _ e)
      exact State.landFills_wf hs hp

theorem execJct_wf (m : Mods) (s : State) (hs : Memory.wf s.mem = true) (t' : State) : execJct m s = .next t' → Memory.wf t'.mem = true := by
  unfold execJct
  intro ht
  (repeat' (first | split at ht | dsimp only at ht)) <;> (injection ht with ht; subst ht) <;> 
  (repeat' (first | with_reducible assumption | intro _ | with_reducible apply foldl_wf | with_reducible apply State.mapLanes_wf | with_reducible apply State.plain_wf | with_reducible apply State.wait_wf | with_reducible apply foldl_fst_wf | with_reducible apply foldl_snd_wf | dsimp only | split))

theorem State.releaseJunction_wf (s : State) (g : Nat) (pc : W64) (hs : Memory.wf s.mem = true) : Memory.wf (State.releaseJunction s g pc).mem = true := by
  unfold State.releaseJunction
  repeat' (first | with_reducible assumption | intro _ | with_reducible apply foldl_wf | with_reducible apply State.mapLanes_wf | with_reducible apply foldl_fst_wf | with_reducible apply foldl_snd_wf | dsimp only | split)

theorem execJunctionRelease_wf (g : Nat) (pc : W64) (s : State) (hs : Memory.wf s.mem = true) (t' : State) : execJunctionRelease g pc s = .next t' → Memory.wf t'.mem = true := by
  unfold execJunctionRelease
  intro ht
  (repeat' (first | split at ht | dsimp only at ht)) <;> (injection ht with ht; subst ht) <;> 
  (repeat' (first | with_reducible assumption | intro _ | with_reducible apply foldl_wf | with_reducible apply State.releaseJunction_wf | with_reducible apply foldl_fst_wf | with_reducible apply foldl_snd_wf | dsimp only | split))

theorem execJunctionTimeout_wf (g : Nat) (pc : W64) (s : State) (hs : Memory.wf s.mem = true) (t' : State) : execJunctionTimeout g pc s = .next t' → Memory.wf t'.mem = true := by
  unfold execJunctionTimeout
  intro ht
  (repeat' (first | split at ht | dsimp only at ht)) <;> (injection ht with ht; subst ht) <;> 
  (repeat' (first | with_reducible assumption | intro _ | with_reducible apply foldl_wf | with_reducible apply State.releaseJunction_wf | with_reducible apply foldl_fst_wf | with_reducible apply foldl_snd_wf | dsimp only | split))

theorem State.illegalHere_wf (s : State) (info : Nat) (hs : Memory.wf s.mem = true) : Memory.wf (State.illegalHere s info).mem = true := by
  unfold State.illegalHere
  repeat' (first | with_reducible assumption | intro _ | with_reducible apply foldl_wf | with_reducible apply State.precise_wf | with_reducible apply foldl_fst_wf | with_reducible apply foldl_snd_wf | dsimp only | split)

theorem State.copyHolders_wf (s : State) (core g uid new : Nat) (hs : Memory.wf s.mem = true) : Memory.wf (State.copyHolders s core g uid new).mem = true := by
  unfold State.copyHolders
  repeat' (first | with_reducible assumption | intro _ | with_reducible apply foldl_wf | with_reducible apply State.updCore_wf | with_reducible apply foldl_fst_wf | with_reducible apply foldl_snd_wf | dsimp only | split)

theorem State.forkOne_wf (s : State) (f : BitVec 3) (d a b : BitVec 7) (x : Group) (lane : Nat) (hs : Memory.wf s.mem = true) : Memory.wf (State.forkOne s f d a b x lane).mem = true := by
  unfold State.forkOne
  repeat' (first | with_reducible assumption | intro _ | with_reducible apply foldl_wf | with_reducible apply State.copyHolders_wf | with_reducible apply State.releaseHolders_wf | with_reducible apply State.updFibre_wf | with_reducible apply State.updGroup_wf | with_reducible apply foldl_fst_wf | with_reducible apply foldl_snd_wf | dsimp only | split)

theorem State.zeroMasked_wf (s : State) (e : Eff) (act : List Nat) (d : Dst) (old : Group) (hs : Memory.wf s.mem = true) : Memory.wf (State.zeroMasked s e act d old).mem = true := by
  unfold State.zeroMasked
  repeat' (first | with_reducible assumption | intro _ | with_reducible apply foldl_wf | with_reducible apply State.mapLanes_wf | with_reducible apply State.releaseHolders_wf | with_reducible apply foldl_fst_wf | with_reducible apply foldl_snd_wf | dsimp only | split)

theorem execFork_wf (m : Mods) (f : BitVec 3) (d a b : BitVec 7) (s : State) (hs : Memory.wf s.mem = true) (t' : State) : execFork m f d a b s = .next t' → Memory.wf t'.mem = true := by
  unfold execFork
  intro ht
  (repeat' (first | split at ht | dsimp only at ht)) <;> (injection ht with ht; subst ht) <;> 
  (repeat' (first | with_reducible assumption | intro _ | with_reducible apply foldl_wf | with_reducible apply State.complete_wf | with_reducible apply State.control_wf | with_reducible apply State.forkOne_wf | with_reducible apply State.illegalHere_wf | with_reducible apply State.plain_wf | with_reducible apply State.precise_wf | with_reducible apply State.zeroMasked_wf | with_reducible apply foldl_fst_wf | with_reducible apply foldl_snd_wf | dsimp only | split))

theorem execQuit_wf (m : Mods) (s : State) (hs : Memory.wf s.mem = true) (t' : State) : execQuit m s = .next t' → Memory.wf t'.mem = true := by
  unfold execQuit
  intro ht
  (repeat' (first | split at ht | dsimp only at ht)) <;> (injection ht with ht; subst ht) <;> 
  (repeat' (first | with_reducible assumption | intro _ | with_reducible apply foldl_wf | with_reducible apply State.checkReturn_wf | with_reducible apply State.complete_wf | with_reducible apply State.control_wf | with_reducible apply State.plain_wf | with_reducible apply State.quitLanes_wf | with_reducible apply foldl_fst_wf | with_reducible apply foldl_snd_wf | dsimp only | split))

theorem State.window_wf (s : State) (e : Eff) (base : Fibre → Int) (req : Fibre → W64) (hs : Memory.wf s.mem = true) : Memory.wf (State.window s e base req).mem = true := by
  unfold State.window
  repeat' (first | with_reducible assumption | intro _ | with_reducible apply foldl_wf | with_reducible apply State.complete_wf | with_reducible apply State.mapLanes_wf | with_reducible apply State.precise_wf | with_reducible apply foldl_fst_wf | with_reducible apply foldl_snd_wf | dsimp only | split)

theorem execWin_wf (m : Mods) (i : BitVec 7) (s : State) (hs : Memory.wf s.mem = true) (t' : State) : execWin m i s = .next t' → Memory.wf t'.mem = true := by
  unfold execWin
  intro ht
  (repeat' (first | split at ht | dsimp only at ht)) <;> (injection ht with ht; subst ht) <;> 
  (repeat' (first | with_reducible assumption | intro _ | with_reducible apply foldl_wf | with_reducible apply State.plain_wf | with_reducible apply State.window_wf | with_reducible apply foldl_fst_wf | with_reducible apply foldl_snd_wf | dsimp only | split))

theorem execWinK_wf (m : Mods) (a : BitVec 7) (s : State) (hs : Memory.wf s.mem = true) (t' : State) : execWinK m a s = .next t' → Memory.wf t'.mem = true := by
  unfold execWinK
  intro ht
  (repeat' (first | split at ht | dsimp only at ht)) <;> (injection ht with ht; subst ht) <;> 
  (repeat' (first | with_reducible assumption | intro _ | with_reducible apply foldl_wf | with_reducible apply State.control_wf | with_reducible apply State.plain_wf | with_reducible apply State.window_wf | with_reducible apply foldl_fst_wf | with_reducible apply foldl_snd_wf | dsimp only | split))

theorem execWadd_wf (m : Mods) (i : BitVec 7) (s : State) (hs : Memory.wf s.mem = true) (t' : State) : execWadd m i s = .next t' → Memory.wf t'.mem = true := by
  unfold execWadd
  intro ht
  (repeat' (first | split at ht | dsimp only at ht)) <;> (injection ht with ht; subst ht) <;> 
  (repeat' (first | with_reducible assumption | intro _ | with_reducible apply foldl_wf | with_reducible apply State.plain_wf | with_reducible apply State.window_wf | with_reducible apply foldl_fst_wf | with_reducible apply foldl_snd_wf | dsimp only | split))

theorem State.setDest_wf (s : State) (d : Dst) (v : Nat → Fibre → Val) (hs : Memory.wf s.mem = true) : Memory.wf (State.setDest s d v).mem = true := by
  unfold State.setDest
  repeat' (first | with_reducible assumption | intro _ | with_reducible apply foldl_wf | with_reducible apply State.mapLanes_wf | with_reducible apply State.releaseHolders_wf | with_reducible apply foldl_fst_wf | with_reducible apply foldl_snd_wf | dsimp only | split)

theorem State.writeSys_wf (s : State) (n lane : Nat) (v : W64) (hs : Memory.wf s.mem = true) : Memory.wf (State.writeSys s n lane v).mem = true := by
  unfold State.writeSys
  repeat' (first | with_reducible assumption | intro _ | with_reducible apply foldl_wf | with_reducible apply State.releaseHolders_wf | with_reducible apply State.updFibre_wf | with_reducible apply State.updGroup_wf | with_reducible apply foldl_fst_wf | with_reducible apply foldl_snd_wf | dsimp only | split)

theorem execSrd_wf (m : Mods) (d n : BitVec 7) (s : State) (hs : Memory.wf s.mem = true) (t' : State) : execSrd m d n s = .next t' → Memory.wf t'.mem = true := by
  unfold execSrd
  intro ht
  (repeat' (first | split at ht | dsimp only at ht)) <;> (injection ht with ht; subst ht) <;> 
  (repeat' (first | with_reducible assumption | intro _ | with_reducible apply foldl_wf | with_reducible apply State.complete_wf | with_reducible apply State.plain_wf | with_reducible apply State.setDest_wf | with_reducible apply foldl_fst_wf | with_reducible apply foldl_snd_wf | dsimp only | split))

theorem State.swr_wf (s : State) (i : Instr) (m : Mods) (a n : BitVec 7) (f : W64 → W64 → W64) (hs : Memory.wf s.mem = true) : Memory.wf (State.swr s i m a n f).mem = true := by
  unfold State.swr
  repeat' (first | with_reducible assumption | intro _ | with_reducible apply foldl_wf | with_reducible apply State.complete_wf | with_reducible apply State.control_wf | with_reducible apply State.illegalHere_wf | with_reducible apply State.plain_wf | with_reducible apply State.precise_wf | with_reducible apply State.writeSys_wf | with_reducible apply foldl_fst_wf | with_reducible apply foldl_snd_wf | dsimp only | split)

theorem execSwr_wf (m : Mods) (a n : BitVec 7) (s : State) (hs : Memory.wf s.mem = true) (t' : State) : execSwr m a n s = .next t' → Memory.wf t'.mem = true := by
  unfold execSwr
  intro ht
  (repeat' (first | split at ht | dsimp only at ht)) <;> (injection ht with ht; subst ht) <;> 
  (repeat' (first | with_reducible assumption | intro _ | with_reducible apply foldl_wf | with_reducible apply State.swr_wf | with_reducible apply foldl_fst_wf | with_reducible apply foldl_snd_wf | dsimp only | split))

theorem execSwrOr_wf (m : Mods) (a n : BitVec 7) (s : State) (hs : Memory.wf s.mem = true) (t' : State) : execSwrOr m a n s = .next t' → Memory.wf t'.mem = true := by
  unfold execSwrOr
  intro ht
  (repeat' (first | split at ht | dsimp only at ht)) <;> (injection ht with ht; subst ht) <;> 
  (repeat' (first | with_reducible assumption | intro _ | with_reducible apply foldl_wf | with_reducible apply State.swr_wf | with_reducible apply foldl_fst_wf | with_reducible apply foldl_snd_wf | dsimp only | split))

theorem execSwrClr_wf (m : Mods) (a n : BitVec 7) (s : State) (hs : Memory.wf s.mem = true) (t' : State) : execSwrClr m a n s = .next t' → Memory.wf t'.mem = true := by
  unfold execSwrClr
  intro ht
  (repeat' (first | split at ht | dsimp only at ht)) <;> (injection ht with ht; subst ht) <;> 
  (repeat' (first | with_reducible assumption | intro _ | with_reducible apply foldl_wf | with_reducible apply State.swr_wf | with_reducible apply foldl_fst_wf | with_reducible apply foldl_snd_wf | dsimp only | split))

theorem execTmsk_wf (m : Mods) (d : BitVec 7) (i : BitVec 1) (s : State) (hs : Memory.wf s.mem = true) (t' : State) : execTmsk m d i s = .next t' → Memory.wf t'.mem = true := by
  unfold execTmsk
  intro ht
  (repeat' (first | split at ht | dsimp only at ht)) <;> (injection ht with ht; subst ht) <;> 
  (repeat' (first | with_reducible assumption | intro _ | with_reducible apply foldl_wf | with_reducible apply State.complete_wf | with_reducible apply State.plain_wf | with_reducible apply State.serveLatched_wf | with_reducible apply State.setDest_wf | with_reducible apply State.updGroup_wf | with_reducible apply foldl_fst_wf | with_reducible apply foldl_snd_wf | dsimp only | split))

theorem execTrap_wf (m : Mods) (i : BitVec 7) (s : State) (hs : Memory.wf s.mem = true) (t' : State) : execTrap m i s = .next t' → Memory.wf t'.mem = true := by
  unfold execTrap
  intro ht
  (repeat' (first | split at ht | dsimp only at ht)) <;> (injection ht with ht; subst ht) <;> 
  (repeat' (first | with_reducible assumption | intro _ | with_reducible apply foldl_wf | with_reducible apply State.complete_wf | with_reducible apply State.fault_wf | with_reducible apply State.plain_wf | with_reducible apply foldl_fst_wf | with_reducible apply foldl_snd_wf | dsimp only | split))

theorem execBrk_wf (m : Mods) (i : BitVec 7) (s : State) (hs : Memory.wf s.mem = true) (t' : State) : execBrk m i s = .next t' → Memory.wf t'.mem = true := by
  unfold execBrk
  intro ht
  (repeat' (first | split at ht | dsimp only at ht)) <;> (injection ht with ht; subst ht) <;> 
  (repeat' (first | with_reducible assumption | intro _ | with_reducible apply foldl_wf | with_reducible apply State.plain_wf | with_reducible apply State.precise_wf | with_reducible apply foldl_fst_wf | with_reducible apply foldl_snd_wf | dsimp only | split))

theorem execAssertQ_wf (m : Mods) (f : BitVec 1) (a b : BitVec 7) (s : State) (hs : Memory.wf s.mem = true) (t' : State) : execAssertQ m f a b s = .next t' → Memory.wf t'.mem = true := by
  unfold execAssertQ
  intro ht
  (repeat' (first | split at ht | dsimp only at ht)) <;> (injection ht with ht; subst ht) <;> 
  (repeat' (first | with_reducible assumption | intro _ | with_reducible apply foldl_wf | with_reducible apply State.complete_wf | with_reducible apply State.control_wf | with_reducible apply State.plain_wf | with_reducible apply State.raiseHalt_wf | with_reducible apply foldl_fst_wf | with_reducible apply foldl_snd_wf | dsimp only | split))

theorem execTret_wf (m : Mods) (s : State) (hs : Memory.wf s.mem = true) (t' : State) : execTret m s = .next t' → Memory.wf t'.mem = true := by
  unfold execTret
  intro ht
  (repeat' (first | split at ht | dsimp only at ht)) <;> (injection ht with ht; subst ht) <;> 
  (repeat' (first | with_reducible assumption | intro _ | with_reducible apply foldl_wf | with_reducible apply State.checkReturn_wf | with_reducible apply State.illegalHere_wf | with_reducible apply State.plain_wf | with_reducible apply State.wait_wf | with_reducible apply foldl_fst_wf | with_reducible apply foldl_snd_wf | dsimp only | split))

theorem execHalt_wf (m : Mods) (s : State) (hs : Memory.wf s.mem = true) (t' : State) : execHalt m s = .next t' → Memory.wf t'.mem = true := by
  unfold execHalt
  intro ht
  (repeat' (first | split at ht | dsimp only at ht)) <;> (injection ht with ht; subst ht) <;> 
  (repeat' (first | with_reducible assumption | intro _ | with_reducible apply foldl_wf | with_reducible apply State.complete_wf | with_reducible apply State.keep_wf | with_reducible apply State.plain_wf | with_reducible apply State.raiseHalt_wf | with_reducible apply State.updHalt_wf | with_reducible apply foldl_fst_wf | with_reducible apply foldl_snd_wf | dsimp only | split))

theorem execHaltLineArrival_wf (ctx core : Nat) (s : State) (hs : Memory.wf s.mem = true) (t' : State) : execHaltLineArrival ctx core s = .next t' → Memory.wf t'.mem = true := by
  unfold execHaltLineArrival
  intro ht
  (repeat' (first | split at ht | dsimp only at ht)) <;> (injection ht with ht; subst ht) <;> 
  (repeat' (first | with_reducible assumption | intro _ | with_reducible apply foldl_wf | with_reducible apply State.updHalt_wf | with_reducible apply foldl_fst_wf | with_reducible apply foldl_snd_wf | dsimp only | split))

theorem State.retireResult_wf (s : State) (core id : Nat) (hs : Memory.wf s.mem = true) : Memory.wf (State.retireResult s core id).mem = true := by
  unfold State.retireResult
  repeat' (first | with_reducible assumption | intro _ | with_reducible apply foldl_wf | with_reducible apply State.fault_wf | with_reducible apply State.updCore_wf | with_reducible apply State.updFibre_wf | with_reducible apply State.updGroup_wf | with_reducible apply foldl_fst_wf | with_reducible apply foldl_snd_wf | dsimp only | split)

theorem State.freezeTiles_wf (s : State) (ctx core : Nat) (hs : Memory.wf s.mem = true) : Memory.wf (State.freezeTiles s ctx core).mem = true := by
  unfold State.freezeTiles
  repeat' (first | with_reducible assumption | intro _ | with_reducible apply foldl_wf | with_reducible apply foldl_fst_wf | with_reducible apply foldl_snd_wf | dsimp only | split)

theorem State.writeStops_wf (s : State) (ctx : Nat) (l : List Stop) (first : Nat) (hs : Memory.wf s.mem = true) : Memory.wf (State.writeStops s ctx l first).mem = true := by
  unfold State.writeStops
  repeat' (first | with_reducible assumption | intro _ | with_reducible apply foldl_wf | with_reducible apply State.deviceWrite_wf | with_reducible apply foldl_fst_wf | with_reducible apply foldl_snd_wf | dsimp only | split)

theorem execEngineStop_wf (ctx core track engine : Nat) (s : State) (hs : Memory.wf s.mem = true) (t' : State) : execEngineStop ctx core track engine s = .next t' → Memory.wf t'.mem = true := by
  unfold execEngineStop
  intro ht
  (repeat' (first | split at ht | dsimp only at ht)) <;> (injection ht with ht; subst ht) <;> 
  (repeat' (first | with_reducible assumption | intro _ | with_reducible apply foldl_wf | with_reducible apply State.freezeTiles_wf | with_reducible apply State.keep_wf | with_reducible apply State.retireResult_wf | with_reducible apply State.updHalt_wf | with_reducible apply State.writeStops_wf | with_reducible apply foldl_fst_wf | with_reducible apply foldl_snd_wf | dsimp only | split))

theorem execHaltCompletion_wf (ctx : Nat) (s : State) (hs : Memory.wf s.mem = true) (t' : State) : execHaltCompletion ctx s = .next t' → Memory.wf t'.mem = true := by
  unfold execHaltCompletion
  intro ht
  (repeat' (first | split at ht | dsimp only at ht)) <;> (injection ht with ht; subst ht) <;> 
  (repeat' (first | with_reducible assumption | intro _ | with_reducible apply foldl_wf | with_reducible apply State.enterHandler_wf | with_reducible apply State.parkGroups_wf | with_reducible apply State.report_wf | with_reducible apply State.updHalt_wf | with_reducible apply State.writeHeader_wf | with_reducible apply foldl_fst_wf | with_reducible apply foldl_snd_wf | dsimp only | split))

theorem execContextResume_wf (ctx : Nat) (s : State) (hs : Memory.wf s.mem = true) (t' : State) : execContextResume ctx s = .next t' → Memory.wf t'.mem = true := by
  unfold execContextResume
  intro ht
  (repeat' (first | split at ht | dsimp only at ht)) <;> (injection ht with ht; subst ht) <;> 
  (repeat' (first | with_reducible assumption | intro _ | with_reducible apply foldl_wf | with_reducible apply State.checkContext_wf | with_reducible apply State.releaseHalt_wf | with_reducible apply State.serveLatched_wf | with_reducible apply State.shiftTimes_wf | with_reducible apply State.updGroup_wf | with_reducible apply State.updHalt_wf | with_reducible apply foldl_fst_wf | with_reducible apply foldl_snd_wf | dsimp only | split))

theorem execPreemptionRequest_wf (ctx : Nat) (s : State) (hs : Memory.wf s.mem = true) (t' : State) : execPreemptionRequest ctx s = .next t' → Memory.wf t'.mem = true := by
  unfold execPreemptionRequest
  intro ht
  (repeat' (first | split at ht | dsimp only at ht)) <;> (injection ht with ht; subst ht) <;> 
  (repeat' (first | with_reducible assumption | intro _ | with_reducible apply foldl_wf | with_reducible apply State.raiseHalt_wf | with_reducible apply foldl_fst_wf | with_reducible apply foldl_snd_wf | dsimp only | split))

theorem execPreemptionTimeout_wf (ctx : Nat) (s : State) (hs : Memory.wf s.mem = true) (t' : State) : execPreemptionTimeout ctx s = .next t' → Memory.wf t'.mem = true := by
  unfold execPreemptionTimeout
  intro ht
  (repeat' (first | split at ht | dsimp only at ht)) <;> (injection ht with ht; subst ht) <;> 
  (repeat' (first | with_reducible assumption | intro _ | with_reducible apply foldl_wf | with_reducible apply State.raiseHalt_wf | with_reducible apply foldl_fst_wf | with_reducible apply foldl_snd_wf | dsimp only | split))

theorem execSupervisorStop_wf (ctx : Nat) (s : State) (hs : Memory.wf s.mem = true) (t' : State) : execSupervisorStop ctx s = .next t' → Memory.wf t'.mem = true := by
  unfold execSupervisorStop
  intro ht
  (repeat' (first | split at ht | dsimp only at ht)) <;> (injection ht with ht; subst ht) <;> 
  (repeat' (first | with_reducible assumption | intro _ | with_reducible apply foldl_wf | with_reducible apply State.raiseHalt_wf | with_reducible apply foldl_fst_wf | with_reducible apply foldl_snd_wf | dsimp only | split))

theorem execPendingResultRetire_wf (core res : Nat) (s : State) (hs : Memory.wf s.mem = true) (t' : State) : execPendingResultRetire core res s = .next t' → Memory.wf t'.mem = true := by
  unfold execPendingResultRetire
  intro ht
  (repeat' (first | split at ht | dsimp only at ht)) <;> (injection ht with ht; subst ht) <;> 
  (repeat' (first | with_reducible assumption | intro _ | with_reducible apply foldl_wf | with_reducible apply State.retireResult_wf | with_reducible apply foldl_fst_wf | with_reducible apply foldl_snd_wf | dsimp only | split))

theorem State.updLoad_wf (s : State) (core id : Nat) (f : Load → Load) (hs : Memory.wf s.mem = true) : Memory.wf (State.updLoad s core id f).mem = true := by
  unfold State.updLoad
  repeat' (first | with_reducible assumption | intro _ | with_reducible apply foldl_wf | with_reducible apply State.updCore_wf | with_reducible apply foldl_fst_wf | with_reducible apply foldl_snd_wf | dsimp only | split)

theorem State.updLane_wf (s : State) (core id lane : Nat) (f : LaneLoad → LaneLoad) (hs : Memory.wf s.mem = true) : Memory.wf (State.updLane s core id lane f).mem = true := by
  unfold State.updLane
  repeat' (first | with_reducible assumption | intro _ | with_reducible apply foldl_wf | with_reducible apply State.updLoad_wf | with_reducible apply foldl_fst_wf | with_reducible apply foldl_snd_wf | dsimp only | split)

theorem State.landReg_wf (s : State) (g lane uid : Nat) (r : Option Reg) (form : LoadForm) (v : Val) (hs : Memory.wf s.mem = true) : Memory.wf (State.landReg s g lane uid r form v).mem = true := by
  unfold State.landReg
  repeat' (first | with_reducible assumption | intro _ | with_reducible apply foldl_wf | with_reducible apply State.releaseHolders_wf | with_reducible apply State.updFibre_wf | with_reducible apply foldl_fst_wf | with_reducible apply foldl_snd_wf | dsimp only | split)

theorem State.updateGuess_wf (s : State) (core : Nat) (l : Load) (hs : Memory.wf s.mem = true) : Memory.wf (State.updateGuess s core l).mem = true := by
  unfold State.updateGuess
  repeat' (first | with_reducible assumption | intro _ | with_reducible apply foldl_wf | with_reducible apply State.updCore_wf | with_reducible apply foldl_fst_wf | with_reducible apply foldl_snd_wf | dsimp only | split)

theorem State.settleLoad_wf (s : State) (core id : Nat) (was : Bool) (hs : Memory.wf s.mem = true) : Memory.wf (State.settleLoad s core id was).mem = true := by
  unfold State.settleLoad
  repeat' (first | with_reducible assumption | intro _ | with_reducible apply foldl_wf | with_reducible apply State.updCore_wf | with_reducible apply State.updGroup_wf | with_reducible apply State.updLoad_wf | with_reducible apply State.updateGuess_wf | with_reducible apply foldl_fst_wf | with_reducible apply foldl_snd_wf | dsimp only | split)

theorem State.takeTicket_wf (s : State) (core id : Nat) (l : Load) (lane : Nat) (e : LaneLoad) (hs : Memory.wf s.mem = true) : Memory.wf (State.takeTicket s core id l lane e).mem = true := by
  unfold State.takeTicket
  repeat' (first | with_reducible assumption | intro _ | with_reducible apply foldl_wf | with_reducible apply State.landReg_wf | with_reducible apply State.updCore_wf | with_reducible apply State.updLane_wf | with_reducible apply foldl_fst_wf | with_reducible apply foldl_snd_wf | dsimp only | split)

theorem State.expire_wf (s : State) (core id limit : Nat) (hs : Memory.wf s.mem = true) : Memory.wf (State.expire s core id limit).mem = true := by
  unfold State.expire
  repeat' (first | with_reducible assumption | intro _ | with_reducible apply foldl_wf | with_reducible apply State.landReg_wf | with_reducible apply State.settleLoad_wf | with_reducible apply State.takeTicket_wf | with_reducible apply State.updLane_wf | with_reducible apply foldl_fst_wf | with_reducible apply foldl_snd_wf | dsimp only | split)

theorem State.truthFor_wf (s : State) (core ticket v : Nat) (p : Bool) (hs : Memory.wf s.mem = true) : Memory.wf (State.truthFor s core ticket v p).mem = true := by
  unfold State.truthFor
  repeat' (first | with_reducible assumption | intro _ | with_reducible apply foldl_wf | with_reducible apply State.mapLanes_wf | with_reducible apply State.updCore_wf | with_reducible apply foldl_fst_wf | with_reducible apply foldl_snd_wf | dsimp only | split)

theorem State.unhookAfter_wf (s : State) (core g uid seq : Nat) (hs : Memory.wf s.mem = true) : Memory.wf (State.unhookAfter s core g uid seq).mem = true := by
  unfold State.unhookAfter
  repeat' (first | with_reducible assumption | intro _ | with_reducible apply foldl_wf | with_reducible apply State.updCore_wf | with_reducible apply foldl_fst_wf | with_reducible apply foldl_snd_wf | dsimp only | split)

theorem State.deliver_wf (s : State) (core id lane v : Nat) (p : Bool) (hs : Memory.wf s.mem = true) : Memory.wf (State.deliver s core id lane v p).mem = true := by
  unfold State.deliver
  repeat' (first | with_reducible assumption | intro _ | with_reducible apply foldl_wf | with_reducible apply State.acquireL1_wf | with_reducible apply State.expire_wf | with_reducible apply State.landReg_wf | with_reducible apply State.settleGm_wf | with_reducible apply State.settleLoad_wf | with_reducible apply State.truthFor_wf | with_reducible apply State.unhookAfter_wf | with_reducible apply State.updLane_wf | with_reducible apply foldl_fst_wf | with_reducible apply foldl_snd_wf | dsimp only | split)

theorem State.unhook_wf (s : State) (core la uid : Nat) (hs : Memory.wf s.mem = true) : Memory.wf (State.unhook s core la uid).mem = true := by
  unfold State.unhook
  repeat' (first | with_reducible assumption | intro _ | with_reducible apply foldl_wf | with_reducible apply State.updCore_wf | with_reducible apply foldl_fst_wf | with_reducible apply foldl_snd_wf | dsimp only | split)

theorem State.arrive_wf (s : State) (core id lane : Nat) (hs : Memory.wf s.mem = true) : Memory.wf (State.arrive s core id lane).mem = true := by
  unfold State.arrive
  repeat' (first | with_reducible assumption | intro _ | with_reducible apply foldl_wf | with_reducible apply State.allocL1_wf | with_reducible apply State.countPacket_wf | with_reducible apply State.deliver_wf | with_reducible apply State.readLine_wf | with_reducible apply State.recallScratch_wf | with_reducible apply State.reportReads_wf | with_reducible apply State.send_wf | with_reducible apply State.unhook_wf | with_reducible apply foldl_fst_wf | with_reducible apply foldl_snd_wf | dsimp only | split)

theorem State.memFault_wf (s : State) (ctx eng info lane sub : Nat) (va : W64) (hs : Memory.wf s.mem = true) : Memory.wf (State.memFault s ctx eng info lane sub va).mem = true := by
  unfold State.memFault
  repeat' (first | with_reducible assumption | intro _ | with_reducible apply foldl_wf | with_reducible apply State.forget_wf | with_reducible apply State.precise_wf | with_reducible apply foldl_fst_wf | with_reducible apply foldl_snd_wf | dsimp only | split)

theorem State.askFills_wf (s : State) (core id : Nat) (hs : Memory.wf s.mem = true) : Memory.wf (State.askFills s core id).mem = true := by
  unfold State.askFills
  repeat' (first | with_reducible assumption | intro _ | with_reducible apply foldl_wf | with_reducible apply State.install_wf | with_reducible apply State.sample_wf | with_reducible apply State.updCore_wf | with_reducible apply State.updLane_wf | with_reducible apply foldl_fst_wf | with_reducible apply foldl_snd_wf | dsimp only | split)

theorem State.maskedOff_wf (s : State) (e : Eff) (act : List Nat) (d : Dst) (old : Group) (hs : Memory.wf s.mem = true) : Memory.wf (State.maskedOff s e act d old).mem = true := by
  unfold State.maskedOff
  repeat' (first | with_reducible assumption | intro _ | with_reducible apply foldl_wf | with_reducible apply State.mapLanes_wf | with_reducible apply State.zeroMasked_wf | with_reducible apply foldl_fst_wf | with_reducible apply foldl_snd_wf | dsimp only | split)

theorem State.sendLoad_wf (s : State) (z : LoadIns) (e : Eff) (x : Group) (act : List Nat) (pas : List (Nat × Nat × Page)) (addr : Nat → Val) (hs : Memory.wf s.mem = true) : Memory.wf (State.sendLoad s z e x act pas addr).mem = true := by
  unfold State.sendLoad
  repeat' (first | with_reducible assumption | intro _ | with_reducible apply foldl_wf | with_reducible apply State.askFills_wf | with_reducible apply State.landReg_wf | with_reducible apply State.mapLanes_wf | with_reducible apply State.settleLoad_wf | with_reducible apply State.updCore_wf | with_reducible apply State.updGroup_wf | with_reducible apply State.updLane_wf | with_reducible apply foldl_fst_wf | with_reducible apply foldl_snd_wf | dsimp only | split)

theorem State.load_wf (s : State) (z : LoadIns) (hs : Memory.wf s.mem = true) : Memory.wf (State.load s z).mem = true := by
  unfold State.load
  repeat' (first | with_reducible assumption | intro _ | with_reducible apply foldl_wf | with_reducible apply State.complete_wf | with_reducible apply State.fillTlb_wf | with_reducible apply State.maskedOff_wf | with_reducible apply State.memFault_wf | with_reducible apply State.plain_wf | with_reducible apply State.precise_wf | with_reducible apply State.sendLoad_wf | with_reducible apply State.suspend_wf | with_reducible apply State.walkPoison_wf | with_reducible apply State.warn_wf | with_reducible apply foldl_fst_wf | with_reducible apply foldl_snd_wf | dsimp only | split)

theorem execLdN8_wf (m : Mods) (l : BitVec 3) (d b : BitVec 7) (p : BitVec 2) (o : BitVec 5) (s : State) (hs : Memory.wf s.mem = true) (t' : State) : execLdN8 m l d b p o s = .next t' → Memory.wf t'.mem = true := by
  unfold execLdN8
  intro ht
  (repeat' (first | split at ht | dsimp only at ht)) <;> (injection ht with ht; subst ht) <;> 
  (repeat' (first | with_reducible assumption | intro _ | with_reducible apply foldl_wf | with_reducible apply State.load_wf | with_reducible apply foldl_fst_wf | with_reducible apply foldl_snd_wf | dsimp only | split))

theorem execLdS8_wf (m : Mods) (l : BitVec 3) (d b : BitVec 7) (p : BitVec 2) (o : BitVec 5) (s : State) (hs : Memory.wf s.mem = true) (t' : State) : execLdS8 m l d b p o s = .next t' → Memory.wf t'.mem = true := by
  unfold execLdS8
  intro ht
  (repeat' (first | split at ht | dsimp only at ht)) <;> (injection ht with ht; subst ht) <;> 
  (repeat' (first | with_reducible assumption | intro _ | with_reducible apply foldl_wf | with_reducible apply State.load_wf | with_reducible apply foldl_fst_wf | with_reducible apply foldl_snd_wf | dsimp only | split))

theorem execLdN16_wf (m : Mods) (l : BitVec 3) (d b : BitVec 7) (p : BitVec 2) (o : BitVec 5) (s : State) (hs : Memory.wf s.mem = true) (t' : State) : execLdN16 m l d b p o s = .next t' → Memory.wf t'.mem = true := by
  unfold execLdN16
  intro ht
  (repeat' (first | split at ht | dsimp only at ht)) <;> (injection ht with ht; subst ht) <;> 
  (repeat' (first | with_reducible assumption | intro _ | with_reducible apply foldl_wf | with_reducible apply State.load_wf | with_reducible apply foldl_fst_wf | with_reducible apply foldl_snd_wf | dsimp only | split))

theorem execLdS16_wf (m : Mods) (l : BitVec 3) (d b : BitVec 7) (p : BitVec 2) (o : BitVec 5) (s : State) (hs : Memory.wf s.mem = true) (t' : State) : execLdS16 m l d b p o s = .next t' → Memory.wf t'.mem = true := by
  unfold execLdS16
  intro ht
  (repeat' (first | split at ht | dsimp only at ht)) <;> (injection ht with ht; subst ht) <;> 
  (repeat' (first | with_reducible assumption | intro _ | with_reducible apply foldl_wf | with_reducible apply State.load_wf | with_reducible apply foldl_fst_wf | with_reducible apply foldl_snd_wf | dsimp only | split))

theorem execLd32_wf (m : Mods) (l : BitVec 3) (d b : BitVec 7) (p : BitVec 2) (o : BitVec 5) (s : State) (hs : Memory.wf s.mem = true) (t' : State) : execLd32 m l d b p o s = .next t' → Memory.wf t'.mem = true := by
  unfold execLd32
  intro ht
  (repeat' (first | split at ht | dsimp only at ht)) <;> (injection ht with ht; subst ht) <;> 
  (repeat' (first | with_reducible assumption | intro _ | with_reducible apply foldl_wf | with_reducible apply State.load_wf | with_reducible apply foldl_fst_wf | with_reducible apply foldl_snd_wf | dsimp only | split))

theorem execLd64_wf (m : Mods) (l : BitVec 3) (d b : BitVec 7) (p : BitVec 2) (o : BitVec 5) (s : State) (hs : Memory.wf s.mem = true) (t' : State) : execLd64 m l d b p o s = .next t' → Memory.wf t'.mem = true := by
  unfold execLd64
  intro ht
  (repeat' (first | split at ht | dsimp only at ht)) <;> (injection ht with ht; subst ht) <;> 
  (repeat' (first | with_reducible assumption | intro _ | with_reducible apply foldl_wf | with_reducible apply State.load_wf | with_reducible apply foldl_fst_wf | with_reducible apply foldl_snd_wf | dsimp only | split))

theorem execLdv_wf (m : Mods) (l : BitVec 3) (d b : BitVec 7) (p : BitVec 2) (o : BitVec 5) (s : State) (hs : Memory.wf s.mem = true) (t' : State) : execLdv m l d b p o s = .next t' → Memory.wf t'.mem = true := by
  unfold execLdv
  intro ht
  (repeat' (first | split at ht | dsimp only at ht)) <;> (injection ht with ht; subst ht) <;> 
  (repeat' (first | with_reducible assumption | intro _ | with_reducible apply foldl_wf | with_reducible apply State.load_wf | with_reducible apply foldl_fst_wf | with_reducible apply foldl_snd_wf | dsimp only | split))

theorem execLdk_wf (m : Mods) (l : BitVec 3) (d b : BitVec 7) (p : BitVec 2) (o : BitVec 5) (s : State) (hs : Memory.wf s.mem = true) (t' : State) : execLdk m l d b p o s = .next t' → Memory.wf t'.mem = true := by
  unfold execLdk
  intro ht
  (repeat' (first | split at ht | dsimp only at ht)) <;> (injection ht with ht; subst ht) <;> 
  (repeat' (first | with_reducible assumption | intro _ | with_reducible apply foldl_wf | with_reducible apply State.load_wf | with_reducible apply foldl_fst_wf | with_reducible apply foldl_snd_wf | dsimp only | split))

theorem execLdx_wf (m : Mods) (l : BitVec 3) (d b : BitVec 7) (p : BitVec 2) (o : BitVec 5) (s : State) (hs : Memory.wf s.mem = true) (t' : State) : execLdx m l d b p o s = .next t' → Memory.wf t'.mem = true := by
  unfold execLdx
  intro ht
  (repeat' (first | split at ht | dsimp only at ht)) <;> (injection ht with ht; subst ht) <;> 
  (repeat' (first | with_reducible assumption | intro _ | with_reducible apply foldl_wf | with_reducible apply State.load_wf | with_reducible apply foldl_fst_wf | with_reducible apply foldl_snd_wf | dsimp only | split))

theorem execLds_wf (m : Mods) (f : BitVec 3) (d b : BitVec 7) (o : BitVec 5) (s : State) (hs : Memory.wf s.mem = true) (t' : State) : execLds m f d b o s = .next t' → Memory.wf t'.mem = true := by
  unfold execLds
  intro ht
  (repeat' (first | split at ht | dsimp only at ht)) <;> (injection ht with ht; subst ht) <;> 
  (repeat' (first | with_reducible assumption | intro _ | with_reducible apply foldl_wf | with_reducible apply State.load_wf | with_reducible apply foldl_fst_wf | with_reducible apply foldl_snd_wf | dsimp only | split))

theorem execPf_wf (m : Mods) (l : BitVec 3) (b : BitVec 7) (p : BitVec 2) (o : BitVec 5) (s : State) (hs : Memory.wf s.mem = true) (t' : State) : execPf m l b p o s = .next t' → Memory.wf t'.mem = true := by
  unfold execPf
  intro ht
  (repeat' (first | split at ht | dsimp only at ht)) <;> (injection ht with ht; subst ht) <;> 
  (repeat' (first | with_reducible assumption | intro _ | with_reducible apply foldl_wf | with_reducible apply State.complete_wf | with_reducible apply State.plain_wf | with_reducible apply State.precise_wf | with_reducible apply State.sample_wf | with_reducible apply State.updCore_wf | with_reducible apply State.warn_wf | with_reducible apply foldl_fst_wf | with_reducible apply foldl_snd_wf | dsimp only | split))

theorem State.dataArrives_wf (s : State) (core id lane : Nat) (hs : Memory.wf s.mem = true) : Memory.wf (State.dataArrives s core id lane).mem = true := by
  unfold State.dataArrives
  repeat' (first | with_reducible assumption | intro _ | with_reducible apply foldl_wf | with_reducible apply State.arrive_wf | with_reducible apply foldl_fst_wf | with_reducible apply foldl_snd_wf | dsimp only | split)

theorem execDeadlineExpiry_wf (core load lane : Nat) (s : State) (hs : Memory.wf s.mem = true) (t' : State) : execDeadlineExpiry core load lane s = .next t' → Memory.wf t'.mem = true := by
  unfold execDeadlineExpiry
  intro ht
  (repeat' (first | split at ht | dsimp only at ht)) <;> (injection ht with ht; subst ht) <;> 
  (repeat' (first | with_reducible assumption | intro _ | with_reducible apply foldl_wf | with_reducible apply State.expire_wf | with_reducible apply State.load_wf | with_reducible apply foldl_fst_wf | with_reducible apply foldl_snd_wf | dsimp only | split))

theorem execTicketTruthArrival_wf (core ticket : Nat) (s : State) (hs : Memory.wf s.mem = true) (t' : State) : execTicketTruthArrival core ticket s = .next t' → Memory.wf t'.mem = true := by
  unfold execTicketTruthArrival
  intro ht
  (repeat' (first | split at ht | dsimp only at ht)) <;> (injection ht with ht; subst ht) <;> 
  (repeat' (first | with_reducible assumption | intro _ | with_reducible apply foldl_wf | with_reducible apply State.arrive_wf | with_reducible apply State.load_wf | with_reducible apply foldl_fst_wf | with_reducible apply foldl_snd_wf | dsimp only | split))

theorem execL1InvalidationArrival_wf (core line : Nat) (s : State) (hs : Memory.wf s.mem = true) (t' : State) : execL1InvalidationArrival core line s = .next t' → Memory.wf t'.mem = true := by
  unfold execL1InvalidationArrival
  intro ht
  (repeat' (first | split at ht | dsimp only at ht)) <;> (injection ht with ht; subst ht) <;> 
  (repeat' (first | with_reducible assumption | intro _ | with_reducible apply foldl_wf | with_reducible apply State.updCore_wf | with_reducible apply foldl_fst_wf | with_reducible apply foldl_snd_wf | dsimp only | split))

theorem State.consume_wf (s : State) (core la id lane : Nat) (line : L1Line) (hs : Memory.wf s.mem = true) : Memory.wf (State.consume s core la id lane line).mem = true := by
  unfold State.consume
  repeat' (first | with_reducible assumption | intro _ | with_reducible apply foldl_wf | with_reducible apply State.deliver_wf | with_reducible apply State.updLane_wf | with_reducible apply foldl_fst_wf | with_reducible apply foldl_snd_wf | dsimp only | split)

theorem execL1FillArrival_wf (core line : Nat) (s : State) (hs : Memory.wf s.mem = true) (t' : State) : execL1FillArrival core line s = .next t' → Memory.wf t'.mem = true := by
  unfold execL1FillArrival
  intro ht
  (repeat' (first | split at ht | dsimp only at ht)) <;> (injection ht with ht; subst ht) <;> 
  (repeat' (first | with_reducible assumption | intro _ | with_reducible apply foldl_wf | with_reducible apply State.consume_wf | with_reducible apply State.install_wf | with_reducible apply State.readLine_wf | with_reducible apply State.reportReads_wf | with_reducible apply State.send_wf | with_reducible apply State.updCore_wf | with_reducible apply foldl_fst_wf | with_reducible apply foldl_snd_wf | dsimp only | split))

theorem execPageWalk_wf (ctx core : Nat) (va : W64) (s : State) (hs : Memory.wf s.mem = true) (t' : State) : execPageWalk ctx core va s = .next t' → Memory.wf t'.mem = true := by
  unfold execPageWalk
  intro ht
  (repeat' (first | split at ht | dsimp only at ht)) <;> (injection ht with ht; subst ht) <;> 
  (repeat' (first | with_reducible assumption | intro _ | with_reducible apply foldl_wf | with_reducible apply State.askSupervisor_wf | with_reducible apply State.fillTlb_wf | with_reducible apply foldl_fst_wf | with_reducible apply foldl_snd_wf | dsimp only | split))

theorem execTranslationFaultResolved_wf (ctx : Nat) (va : W64) (s : State) (hs : Memory.wf s.mem = true) (t' : State) : execTranslationFaultResolved ctx va s = .next t' → Memory.wf t'.mem = true := by
  unfold execTranslationFaultResolved
  intro ht
  (repeat' (first | split at ht | dsimp only at ht)) <;> (injection ht with ht; subst ht) <;> 
  (repeat' (first | with_reducible assumption | intro _ | with_reducible apply foldl_wf | with_reducible apply foldl_fst_wf | with_reducible apply foldl_snd_wf | dsimp only | split))

theorem execTranslationFaultUnresolved_wf (ctx : Nat) (va : W64) (s : State) (hs : Memory.wf s.mem = true) (t' : State) : execTranslationFaultUnresolved ctx va s = .next t' → Memory.wf t'.mem = true := by
  unfold execTranslationFaultUnresolved
  intro ht
  (repeat' (first | split at ht | dsimp only at ht)) <;> (injection ht with ht; subst ht) <;> 
  (repeat' (first | with_reducible assumption | intro _ | with_reducible apply foldl_wf | with_reducible apply foldl_fst_wf | with_reducible apply foldl_snd_wf | dsimp only | split))

theorem State.accept_wf (s : State) (g uid : Nat) (regs : List Reg) (hs : Memory.wf s.mem = true) : Memory.wf (State.accept s g uid regs).mem = true := by
  unfold State.accept
  repeat' (first | with_reducible assumption | intro _ | with_reducible apply foldl_wf | with_reducible apply State.updCore_wf | with_reducible apply foldl_fst_wf | with_reducible apply foldl_snd_wf | dsimp only | split)

theorem State.testTags_wf (s : State) (i : Instr) (d a b : BitVec 7) (f : Val → Bool) (hs : Memory.wf s.mem = true) : Memory.wf (State.testTags s i d a b f).mem = true := by
  unfold State.testTags
  repeat' (first | with_reducible assumption | intro _ | with_reducible apply foldl_wf | with_reducible apply State.complete_wf | with_reducible apply State.mapLanes_wf | with_reducible apply State.plain_wf | with_reducible apply foldl_fst_wf | with_reducible apply foldl_snd_wf | dsimp only | split)

theorem execGtest_wf (m : Mods) (d a sel : BitVec 7) (s : State) (hs : Memory.wf s.mem = true) (t' : State) : execGtest m d a sel s = .next t' → Memory.wf t'.mem = true := by
  unfold execGtest
  intro ht
  (repeat' (first | split at ht | dsimp only at ht)) <;> (injection ht with ht; subst ht) <;> 
  (repeat' (first | with_reducible assumption | intro _ | with_reducible apply foldl_wf | with_reducible apply State.testTags_wf | with_reducible apply foldl_fst_wf | with_reducible apply foldl_snd_wf | dsimp only | split))

theorem execPtest_wf (m : Mods) (d a sel : BitVec 7) (s : State) (hs : Memory.wf s.mem = true) (t' : State) : execPtest m d a sel s = .next t' → Memory.wf t'.mem = true := by
  unfold execPtest
  intro ht
  (repeat' (first | split at ht | dsimp only at ht)) <;> (injection ht with ht; subst ht) <;> 
  (repeat' (first | with_reducible assumption | intro _ | with_reducible apply foldl_wf | with_reducible apply State.testTags_wf | with_reducible apply foldl_fst_wf | with_reducible apply foldl_snd_wf | dsimp only | split))

theorem execGacc_wf (m : Mods) (a sel : BitVec 7) (s : State) (hs : Memory.wf s.mem = true) (t' : State) : execGacc m a sel s = .next t' → Memory.wf t'.mem = true := by
  unfold execGacc
  intro ht
  (repeat' (first | split at ht | dsimp only at ht)) <;> (injection ht with ht; subst ht) <;> 
  (repeat' (first | with_reducible assumption | intro _ | with_reducible apply foldl_wf | with_reducible apply State.accept_wf | with_reducible apply State.complete_wf | with_reducible apply State.control_wf | with_reducible apply State.mapLanes_wf | with_reducible apply State.plain_wf | with_reducible apply foldl_fst_wf | with_reducible apply foldl_snd_wf | dsimp only | split))

theorem State.demand_wf (s : State) (e : Eff) (a sel : BitVec 7) (blocks : Bool) (finish : List Nat → State → State) (hs : Memory.wf s.mem = true) (hfinish : ∀ x0 x1, Memory.wf x1.mem = true → Memory.wf (finish x0 x1).mem = true) : Memory.wf (State.demand s e a sel blocks finish).mem = true := by
  unfold State.demand
  repeat' (first | with_reducible assumption | intro _ | with_reducible apply foldl_wf | with_reducible apply State.narrow_wf | with_reducible apply State.wait_wf | with_reducible apply hfinish | with_reducible apply foldl_fst_wf | with_reducible apply foldl_snd_wf | dsimp only | split)

theorem State.finishLanes_wf (s : State) (lanes : List Nat) (hs : Memory.wf s.mem = true) : Memory.wf (State.finishLanes s lanes).mem = true := by
  unfold State.finishLanes
  repeat' (first | with_reducible assumption | intro _ | with_reducible apply foldl_wf | with_reducible apply State.advance_wf | with_reducible apply State.settleGm_wf | with_reducible apply foldl_fst_wf | with_reducible apply foldl_snd_wf | dsimp only | split)

theorem State.writeTruth_wf (s : State) (lane : Nat) (regs : List Reg) (hs : Memory.wf s.mem = true) : Memory.wf (State.writeTruth s lane regs).mem = true := by
  unfold State.writeTruth
  repeat' (first | with_reducible assumption | intro _ | with_reducible apply foldl_wf | with_reducible apply State.accept_wf | with_reducible apply State.mapLanes_wf | with_reducible apply foldl_fst_wf | with_reducible apply foldl_snd_wf | dsimp only | split)

theorem execGdem_wf (m : Mods) (a sel : BitVec 7) (s : State) (hs : Memory.wf s.mem = true) (t' : State) : execGdem m a sel s = .next t' → Memory.wf t'.mem = true := by
  unfold execGdem
  intro ht
  (repeat' (first | split at ht | dsimp only at ht)) <;> (injection ht with ht; subst ht) <;> 
  (repeat' (first | with_reducible assumption | intro _ | with_reducible apply foldl_wf | with_reducible apply State.control_wf | with_reducible apply State.demand_wf | with_reducible apply State.finishLanes_wf | with_reducible apply State.mapLanes_wf | with_reducible apply State.plain_wf | with_reducible apply State.precise_wf | with_reducible apply State.writeTruth_wf | with_reducible apply foldl_fst_wf | with_reducible apply foldl_snd_wf | dsimp only | split))

theorem execGchk_wf (m : Mods) (d a sel : BitVec 7) (s : State) (hs : Memory.wf s.mem = true) (t' : State) : execGchk m d a sel s = .next t' → Memory.wf t'.mem = true := by
  unfold execGchk
  intro ht
  (repeat' (first | split at ht | dsimp only at ht)) <;> (injection ht with ht; subst ht) <;> 
  (repeat' (first | with_reducible assumption | intro _ | with_reducible apply foldl_wf | with_reducible apply State.control_wf | with_reducible apply State.demand_wf | with_reducible apply State.finishLanes_wf | with_reducible apply State.mapLanes_wf | with_reducible apply State.plain_wf | with_reducible apply foldl_fst_wf | with_reducible apply foldl_snd_wf | dsimp only | split))

theorem State.check_wf (s : State) (cause sub info eng : Nat) (lanes : List Nat) (go : State → State) (hs : Memory.wf s.mem = true) (hgo : ∀ x0, Memory.wf x0.mem = true → Memory.wf (go x0).mem = true) : Memory.wf (State.check s cause sub info eng lanes go).mem = true := by
  unfold State.check
  repeat' (first | with_reducible assumption | intro _ | with_reducible apply foldl_wf | with_reducible apply State.precise_wf | with_reducible apply hgo | with_reducible apply foldl_fst_wf | with_reducible apply foldl_snd_wf | dsimp only | split)

theorem State.storeChecks_wf (s : State) (z : StoreIns) (e : Eff) (go : List (Nat × Nat × Option Page) → State → State) (hs : Memory.wf s.mem = true) (hgo : ∀ x0 x1, Memory.wf x1.mem = true → Memory.wf (go x0 x1).mem = true) : Memory.wf (State.storeChecks s z e go).mem = true := by
  unfold State.storeChecks
  repeat' (first | with_reducible assumption | intro _ | with_reducible apply foldl_wf | with_reducible apply State.check_wf | with_reducible apply State.control_wf | with_reducible apply State.fillTlb_wf | with_reducible apply State.memFault_wf | with_reducible apply State.suspend_wf | with_reducible apply State.walkPoison_wf | with_reducible apply hgo | with_reducible apply foldl_fst_wf | with_reducible apply foldl_snd_wf | dsimp only | split)

theorem State.sendStores_wf (s : State) (z : StoreIns) (need : Nat) (x : Group) (lanes : List (Nat × Nat × Option Page)) (hs : Memory.wf s.mem = true) : Memory.wf (State.sendStores s z need x lanes).mem = true := by
  unfold State.sendStores
  repeat' (first | with_reducible assumption | intro _ | with_reducible apply foldl_wf | with_reducible apply State.pushStore_wf | with_reducible apply State.sample_wf | with_reducible apply State.updGroup_wf | with_reducible apply foldl_fst_wf | with_reducible apply foldl_snd_wf | dsimp only | split)

theorem State.store_wf (s : State) (z : StoreIns) (hs : Memory.wf s.mem = true) : Memory.wf (State.store s z).mem = true := by
  unfold State.store
  repeat' (first | with_reducible assumption | intro _ | with_reducible apply foldl_wf | with_reducible apply State.complete_wf | with_reducible apply State.plain_wf | with_reducible apply State.sendStores_wf | with_reducible apply State.storeChecks_wf | with_reducible apply State.warn_wf | with_reducible apply foldl_fst_wf | with_reducible apply foldl_snd_wf | dsimp only | split)

theorem execSt_wf (m : Mods) (w : BitVec 2) (d b : BitVec 7) (p : BitVec 2) (o : BitVec 5) (s : State) (hs : Memory.wf s.mem = true) (t' : State) : execSt m w d b p o s = .next t' → Memory.wf t'.mem = true := by
  unfold execSt
  intro ht
  (repeat' (first | split at ht | dsimp only at ht)) <;> (injection ht with ht; subst ht) <;> 
  (repeat' (first | with_reducible assumption | intro _ | with_reducible apply foldl_wf | with_reducible apply State.store_wf | with_reducible apply foldl_fst_wf | with_reducible apply foldl_snd_wf | dsimp only | split))

theorem execStv_wf (m : Mods) (d b : BitVec 7) (p : BitVec 2) (o : BitVec 5) (s : State) (hs : Memory.wf s.mem = true) (t' : State) : execStv m d b p o s = .next t' → Memory.wf t'.mem = true := by
  unfold execStv
  intro ht
  (repeat' (first | split at ht | dsimp only at ht)) <;> (injection ht with ht; subst ht) <;> 
  (repeat' (first | with_reducible assumption | intro _ | with_reducible apply foldl_wf | with_reducible apply State.store_wf | with_reducible apply foldl_fst_wf | with_reducible apply foldl_snd_wf | dsimp only | split))

theorem execStg_wf (m : Mods) (w : BitVec 2) (d b : BitVec 7) (p : BitVec 2) (o : BitVec 5) (s : State) (hs : Memory.wf s.mem = true) (t' : State) : execStg m w d b p o s = .next t' → Memory.wf t'.mem = true := by
  unfold execStg
  intro ht
  (repeat' (first | split at ht | dsimp only at ht)) <;> (injection ht with ht; subst ht) <;> 
  (repeat' (first | with_reducible assumption | intro _ | with_reducible apply foldl_wf | with_reducible apply State.store_wf | with_reducible apply foldl_fst_wf | with_reducible apply foldl_snd_wf | dsimp only | split))

theorem execSts_wf (m : Mods) (w : BitVec 3) (d b : BitVec 7) (o : BitVec 5) (s : State) (hs : Memory.wf s.mem = true) (t' : State) : execSts m w d b o s = .next t' → Memory.wf t'.mem = true := by
  unfold execSts
  intro ht
  (repeat' (first | split at ht | dsimp only at ht)) <;> (injection ht with ht; subst ht) <;> 
  (repeat' (first | with_reducible assumption | intro _ | with_reducible apply foldl_wf | with_reducible apply State.store_wf | with_reducible apply foldl_fst_wf | with_reducible apply foldl_snd_wf | dsimp only | split))

theorem State.scratchWrite_wf (s : State) (core ctx off : Nat) (data : List Byte) (poison : Bool) (hs : Memory.wf s.mem = true) : Memory.wf (State.scratchWrite s core ctx off data poison).mem = true := by
  unfold State.scratchWrite
  repeat' (first | with_reducible assumption | intro _ | with_reducible apply foldl_wf | with_reducible apply State.updCore_wf | with_reducible apply foldl_fst_wf | with_reducible apply foldl_snd_wf | dsimp only | split)

theorem State.dropHost_wf (s : State) (a n : Nat) (hs : Memory.wf s.mem = true) : Memory.wf (State.dropHost s a n).mem = true := by
  unfold State.dropHost
  repeat' (first | with_reducible assumption | intro _ | with_reducible apply foldl_wf | with_reducible apply State.keep_wf | with_reducible apply foldl_fst_wf | with_reducible apply foldl_snd_wf | dsimp only | split)

theorem State.settleStore_wf (s : State) (core op g : Nat) (hs : Memory.wf s.mem = true) : Memory.wf (State.settleStore s core op g).mem = true := by
  unfold State.settleStore
  repeat' (first | with_reducible assumption | intro _ | with_reducible apply foldl_wf | with_reducible apply State.updGroup_wf | with_reducible apply foldl_fst_wf | with_reducible apply foldl_snd_wf | dsimp only | split)

theorem State.raiseStore_wf (s : State) (core id : Nat) (t : Store) (level : Nat) (hs : Memory.wf s.mem = true) : Memory.wf (State.raiseStore s core id t level).mem = true := by
  unfold State.raiseStore
  repeat' (first | with_reducible assumption | intro _ | with_reducible apply foldl_wf | with_reducible apply State.settleStore_wf | with_reducible apply State.updCore_wf | with_reducible apply foldl_fst_wf | with_reducible apply foldl_snd_wf | dsimp only | split)

theorem State.endStore_wf (s : State) (core id : Nat) (t : Store) (hs : Memory.wf s.mem = true) : Memory.wf (State.endStore s core id t).mem = true := by
  unfold State.endStore
  repeat' (first | with_reducible assumption | intro _ | with_reducible apply foldl_wf | with_reducible apply State.settleStore_wf | with_reducible apply State.updCore_wf | with_reducible apply foldl_fst_wf | with_reducible apply foldl_snd_wf | dsimp only | split)

theorem State.writeBackLine_wf (s : State) (core la : Nat) (drop' : Bool) (hs : Memory.wf s.mem = true) : Memory.wf (State.writeBackLine s core la drop').mem = true := by
  unfold State.writeBackLine
  repeat' (first | with_reducible assumption | intro _ | with_reducible apply foldl_wf | with_reducible apply State.giveBack_wf | with_reducible apply State.install_wf | with_reducible apply State.updCore_wf | with_reducible apply State.updDie_wf | with_reducible apply foldl_fst_wf | with_reducible apply foldl_snd_wf | dsimp only | split)

theorem State.writeStore_wf (s : State) (core : Nat) (t : Store) (hs : Memory.wf s.mem = true) : Memory.wf (State.writeStore s core t).mem = true := by
  unfold State.writeStore
  repeat' (first | with_reducible assumption | intro _ | with_reducible apply foldl_wf | with_reducible apply State.dropHost_wf | with_reducible apply State.homeWrite_wf | with_reducible apply State.l2Write_wf | with_reducible apply State.patchL1_wf | with_reducible apply State.reportWrites_wf | with_reducible apply State.seal_wf | with_reducible apply foldl_fst_wf | with_reducible apply foldl_snd_wf | dsimp only | split)

theorem State.performStore_wf (s : State) (core id : Nat) (t : Store) (hs : Memory.wf s.mem = true) : Memory.wf (State.performStore s core id t).mem = true := by
  unfold State.performStore
  repeat' (first | with_reducible assumption | intro _ | with_reducible apply foldl_wf | with_reducible apply State.cleanAll_wf | with_reducible apply State.dropCopies_wf | with_reducible apply State.endStore_wf | with_reducible apply State.raiseStore_wf | with_reducible apply State.recallScratch_wf | with_reducible apply State.scratchWrite_wf | with_reducible apply State.send_wf | with_reducible apply State.updCore_wf | with_reducible apply State.writeBackLine_wf | with_reducible apply State.writeStore_wf | with_reducible apply foldl_fst_wf | with_reducible apply foldl_snd_wf | dsimp only | split)

theorem execStorePerformed_wf (core store : Nat) (s : State) (hs : Memory.wf s.mem = true) (t' : State) : execStorePerformed core store s = .next t' → Memory.wf t'.mem = true := by
  unfold execStorePerformed
  intro ht
  (repeat' (first | split at ht | dsimp only at ht)) <;> (injection ht with ht; subst ht) <;> 
  (repeat' (first | with_reducible assumption | intro _ | with_reducible apply foldl_wf | with_reducible apply State.performStore_wf | with_reducible apply State.store_wf | with_reducible apply foldl_fst_wf | with_reducible apply foldl_snd_wf | dsimp only | split))

theorem State.baseChecks_wf (s : State) (act : List Nat) (addr : Nat → Val) (go : State → State) (hs : Memory.wf s.mem = true) (hgo : ∀ x0, Memory.wf x0.mem = true → Memory.wf (go x0).mem = true) : Memory.wf (State.baseChecks s act addr go).mem = true := by
  unfold State.baseChecks
  repeat' (first | with_reducible assumption | intro _ | with_reducible apply foldl_wf | with_reducible apply State.precise_wf | with_reducible apply hgo | with_reducible apply foldl_fst_wf | with_reducible apply foldl_snd_wf | dsimp only | split)

theorem State.sendAtomic_wf (s : State) (z : AtomicIns) (x : Group) (pas : List (Nat × Nat × Page)) (va : Nat → W64) (hs : Memory.wf s.mem = true) : Memory.wf (State.sendAtomic s z x pas va).mem = true := by
  unfold State.sendAtomic
  repeat' (first | with_reducible assumption | intro _ | with_reducible apply foldl_wf | with_reducible apply State.mapLanes_wf | with_reducible apply State.sample_wf | with_reducible apply State.updCore_wf | with_reducible apply State.updGroup_wf | with_reducible apply foldl_fst_wf | with_reducible apply foldl_snd_wf | dsimp only | split)

theorem State.atomic_wf (s : State) (z : AtomicIns) (hs : Memory.wf s.mem = true) : Memory.wf (State.atomic s z).mem = true := by
  unfold State.atomic
  repeat' (first | with_reducible assumption | intro _ | with_reducible apply foldl_wf | with_reducible apply State.complete_wf | with_reducible apply State.control_wf | with_reducible apply State.fillTlb_wf | with_reducible apply State.memFault_wf | with_reducible apply State.plain_wf | with_reducible apply State.precise_wf | with_reducible apply State.sendAtomic_wf | with_reducible apply State.suspend_wf | with_reducible apply State.walkPoison_wf | with_reducible apply State.warn_wf | with_reducible apply State.zeroMasked_wf | with_reducible apply foldl_fst_wf | with_reducible apply foldl_snd_wf | dsimp only | split)

theorem execAadd_wf (m : Mods) (w : BitVec 1) (d : BitVec 7) (k : BitVec 4) (sc : BitVec 3) (b : BitVec 7) (s : State) (hs : Memory.wf s.mem = true) (t' : State) : execAadd m w d k sc b s = .next t' → Memory.wf t'.mem = true := by
  unfold execAadd
  intro ht
  (repeat' (first | split at ht | dsimp only at ht)) <;> (injection ht with ht; subst ht) <;> 
  (repeat' (first | with_reducible assumption | intro _ | with_reducible apply foldl_wf | with_reducible apply State.atomic_wf | with_reducible apply foldl_fst_wf | with_reducible apply foldl_snd_wf | dsimp only | split))

theorem execAmin_wf (m : Mods) (w : BitVec 1) (d : BitVec 7) (k : BitVec 4) (sc : BitVec 3) (b : BitVec 7) (s : State) (hs : Memory.wf s.mem = true) (t' : State) : execAmin m w d k sc b s = .next t' → Memory.wf t'.mem = true := by
  unfold execAmin
  intro ht
  (repeat' (first | split at ht | dsimp only at ht)) <;> (injection ht with ht; subst ht) <;> 
  (repeat' (first | with_reducible assumption | intro _ | with_reducible apply foldl_wf | with_reducible apply State.atomic_wf | with_reducible apply foldl_fst_wf | with_reducible apply foldl_snd_wf | dsimp only | split))

theorem execAmax_wf (m : Mods) (w : BitVec 1) (d : BitVec 7) (k : BitVec 4) (sc : BitVec 3) (b : BitVec 7) (s : State) (hs : Memory.wf s.mem = true) (t' : State) : execAmax m w d k sc b s = .next t' → Memory.wf t'.mem = true := by
  unfold execAmax
  intro ht
  (repeat' (first | split at ht | dsimp only at ht)) <;> (injection ht with ht; subst ht) <;> 
  (repeat' (first | with_reducible assumption | intro _ | with_reducible apply foldl_wf | with_reducible apply State.atomic_wf | with_reducible apply foldl_fst_wf | with_reducible apply foldl_snd_wf | dsimp only | split))

theorem execAand_wf (m : Mods) (w : BitVec 1) (d : BitVec 7) (k : BitVec 4) (sc : BitVec 3) (b : BitVec 7) (s : State) (hs : Memory.wf s.mem = true) (t' : State) : execAand m w d k sc b s = .next t' → Memory.wf t'.mem = true := by
  unfold execAand
  intro ht
  (repeat' (first | split at ht | dsimp only at ht)) <;> (injection ht with ht; subst ht) <;> 
  (repeat' (first | with_reducible assumption | intro _ | with_reducible apply foldl_wf | with_reducible apply State.atomic_wf | with_reducible apply foldl_fst_wf | with_reducible apply foldl_snd_wf | dsimp only | split))

theorem execAor_wf (m : Mods) (w : BitVec 1) (d : BitVec 7) (k : BitVec 4) (sc : BitVec 3) (b : BitVec 7) (s : State) (hs : Memory.wf s.mem = true) (t' : State) : execAor m w d k sc b s = .next t' → Memory.wf t'.mem = true := by
  unfold execAor
  intro ht
  (repeat' (first | split at ht | dsimp only at ht)) <;> (injection ht with ht; subst ht) <;> 
  (repeat' (first | with_reducible assumption | intro _ | with_reducible apply foldl_wf | with_reducible apply State.atomic_wf | with_reducible apply foldl_fst_wf | with_reducible apply foldl_snd_wf | dsimp only | split))

theorem execAxor_wf (m : Mods) (w : BitVec 1) (d : BitVec 7) (k : BitVec 4) (sc : BitVec 3) (b : BitVec 7) (s : State) (hs : Memory.wf s.mem = true) (t' : State) : execAxor m w d k sc b s = .next t' → Memory.wf t'.mem = true := by
  unfold execAxor
  intro ht
  (repeat' (first | split at ht | dsimp only at ht)) <;> (injection ht with ht; subst ht) <;> 
  (repeat' (first | with_reducible assumption | intro _ | with_reducible apply foldl_wf | with_reducible apply State.atomic_wf | with_reducible apply foldl_fst_wf | with_reducible apply foldl_snd_wf | dsimp only | split))

theorem execAxchg_wf (m : Mods) (w : BitVec 1) (d : BitVec 7) (k : BitVec 4) (sc : BitVec 3) (b : BitVec 7) (s : State) (hs : Memory.wf s.mem = true) (t' : State) : execAxchg m w d k sc b s = .next t' → Memory.wf t'.mem = true := by
  unfold execAxchg
  intro ht
  (repeat' (first | split at ht | dsimp only at ht)) <;> (injection ht with ht; subst ht) <;> 
  (repeat' (first | with_reducible assumption | intro _ | with_reducible apply foldl_wf | with_reducible apply State.atomic_wf | with_reducible apply foldl_fst_wf | with_reducible apply foldl_snd_wf | dsimp only | split))

theorem execAcas_wf (m : Mods) (w : BitVec 1) (d : BitVec 7) (k : BitVec 4) (sc : BitVec 3) (b : BitVec 7) (s : State) (hs : Memory.wf s.mem = true) (t' : State) : execAcas m w d k sc b s = .next t' → Memory.wf t'.mem = true := by
  unfold execAcas
  intro ht
  (repeat' (first | split at ht | dsimp only at ht)) <;> (injection ht with ht; subst ht) <;> 
  (repeat' (first | with_reducible assumption | intro _ | with_reducible apply foldl_wf | with_reducible apply State.atomic_wf | with_reducible apply foldl_fst_wf | with_reducible apply foldl_snd_wf | dsimp only | split))

theorem execAminN_wf (m : Mods) (w : BitVec 1) (d : BitVec 7) (k : BitVec 4) (sc : BitVec 3) (b : BitVec 7) (s : State) (hs : Memory.wf s.mem = true) (t' : State) : execAminN m w d k sc b s = .next t' → Memory.wf t'.mem = true := by
  unfold execAminN
  intro ht
  (repeat' (first | split at ht | dsimp only at ht)) <;> (injection ht with ht; subst ht) <;> 
  (repeat' (first | with_reducible assumption | intro _ | with_reducible apply foldl_wf | with_reducible apply State.atomic_wf | with_reducible apply foldl_fst_wf | with_reducible apply foldl_snd_wf | dsimp only | split))

theorem execAmaxN_wf (m : Mods) (w : BitVec 1) (d : BitVec 7) (k : BitVec 4) (sc : BitVec 3) (b : BitVec 7) (s : State) (hs : Memory.wf s.mem = true) (t' : State) : execAmaxN m w d k sc b s = .next t' → Memory.wf t'.mem = true := by
  unfold execAmaxN
  intro ht
  (repeat' (first | split at ht | dsimp only at ht)) <;> (injection ht with ht; subst ht) <;> 
  (repeat' (first | with_reducible assumption | intro _ | with_reducible apply foldl_wf | with_reducible apply State.atomic_wf | with_reducible apply foldl_fst_wf | with_reducible apply foldl_snd_wf | dsimp only | split))

theorem execAfadd_wf (m : Mods) (w : BitVec 1) (d : BitVec 7) (k : BitVec 4) (sc : BitVec 3) (b : BitVec 7) (s : State) (hs : Memory.wf s.mem = true) (t' : State) : execAfadd m w d k sc b s = .next t' → Memory.wf t'.mem = true := by
  unfold execAfadd
  intro ht
  (repeat' (first | split at ht | dsimp only at ht)) <;> (injection ht with ht; subst ht) <;> 
  (repeat' (first | with_reducible assumption | intro _ | with_reducible apply foldl_wf | with_reducible apply State.atomic_wf | with_reducible apply foldl_fst_wf | with_reducible apply foldl_snd_wf | dsimp only | split))

theorem execAfaddPair_wf (m : Mods) (t : BitVec 1) (d : BitVec 7) (k : BitVec 4) (sc : BitVec 3) (b : BitVec 7) (s : State) (hs : Memory.wf s.mem = true) (t' : State) : execAfaddPair m t d k sc b s = .next t' → Memory.wf t'.mem = true := by
  unfold execAfaddPair
  intro ht
  (repeat' (first | split at ht | dsimp only at ht)) <;> (injection ht with ht; subst ht) <;> 
  (repeat' (first | with_reducible assumption | intro _ | with_reducible apply foldl_wf | with_reducible apply State.atomic_wf | with_reducible apply foldl_fst_wf | with_reducible apply foldl_snd_wf | dsimp only | split))

theorem State.updAtomic_wf (s : State) (core id : Nat) (f : Atomic → Atomic) (hs : Memory.wf s.mem = true) : Memory.wf (State.updAtomic s core id f).mem = true := by
  unfold State.updAtomic
  repeat' (first | with_reducible assumption | intro _ | with_reducible apply foldl_wf | with_reducible apply State.updCore_wf | with_reducible apply foldl_fst_wf | with_reducible apply foldl_snd_wf | dsimp only | split)

theorem State.countAtomic_wf (s : State) (a : Atomic) (hs : Memory.wf s.mem = true) : Memory.wf (State.countAtomic s a).mem = true := by
  unfold State.countAtomic
  repeat' (first | with_reducible assumption | intro _ | with_reducible apply foldl_wf | with_reducible apply State.updGroup_wf | with_reducible apply foldl_fst_wf | with_reducible apply foldl_snd_wf | dsimp only | split)

theorem State.writeAtPlace_wf (s : State) (core : Nat) (a mtype : Nat) (conf : Bool) (data : List Byte) (hs : Memory.wf s.mem = true) : Memory.wf (State.writeAtPlace s core a mtype conf data).mem = true := by
  unfold State.writeAtPlace
  repeat' (first | with_reducible assumption | intro _ | with_reducible apply foldl_wf | with_reducible apply State.countPacket_wf | with_reducible apply State.dropCopies_wf | with_reducible apply State.homeWrite_wf | with_reducible apply State.l2Write_wf | with_reducible apply State.patchL1_wf | with_reducible apply State.sysWrite_wf | with_reducible apply foldl_fst_wf | with_reducible apply foldl_snd_wf | dsimp only | split)

theorem State.endAtomic_wf (s : State) (core id : Nat) (hs : Memory.wf s.mem = true) : Memory.wf (State.endAtomic s core id).mem = true := by
  unfold State.endAtomic
  repeat' (first | with_reducible assumption | intro _ | with_reducible apply foldl_wf | with_reducible apply State.countAtomic_wf | with_reducible apply State.deferred_wf | with_reducible apply State.updCore_wf | with_reducible apply foldl_fst_wf | with_reducible apply foldl_snd_wf | dsimp only | split)

theorem State.unlock_wf (s : State) (g lane uid : Nat) (regs : List Reg) (hs : Memory.wf s.mem = true) : Memory.wf (State.unlock s g lane uid regs).mem = true := by
  unfold State.unlock
  repeat' (first | with_reducible assumption | intro _ | with_reducible apply foldl_wf | with_reducible apply State.updFibre_wf | with_reducible apply foldl_fst_wf | with_reducible apply foldl_snd_wf | dsimp only | split)

theorem State.performLane_wf (s : State) (core id lane : Nat) (a : Atomic) (e : LaneAtomic) (hs : Memory.wf s.mem = true) : Memory.wf (State.performLane s core id lane a e).mem = true := by
  unfold State.performLane
  repeat' (first | with_reducible assumption | intro _ | with_reducible apply foldl_wf | with_reducible apply State.dropHost_wf | with_reducible apply State.endAtomic_wf | with_reducible apply State.landReg_wf | with_reducible apply State.reportWrites_wf | with_reducible apply State.seal_wf | with_reducible apply State.settleGm_wf | with_reducible apply State.unlock_wf | with_reducible apply State.updAtomic_wf | with_reducible apply State.writeAtPlace_wf | with_reducible apply foldl_fst_wf | with_reducible apply foldl_snd_wf | dsimp only | split)

theorem State.acceptLane_wf (s : State) (core id lane : Nat) (a : Atomic) (hs : Memory.wf s.mem = true) : Memory.wf (State.acceptLane s core id lane a).mem = true := by
  unfold State.acceptLane
  repeat' (first | with_reducible assumption | intro _ | with_reducible apply foldl_wf | with_reducible apply State.countAtomic_wf | with_reducible apply State.updAtomic_wf | with_reducible apply foldl_fst_wf | with_reducible apply foldl_snd_wf | dsimp only | split)

theorem State.atomicAtPort_wf (s : State) (core op lane n : Nat) (a : Atomic) (e : LaneAtomic) (hs : Memory.wf s.mem = true) : Memory.wf (State.atomicAtPort s core op lane n a e).mem = true := by
  unfold State.atomicAtPort
  repeat' (first | with_reducible assumption | intro _ | with_reducible apply foldl_wf | with_reducible apply State.performLane_wf | with_reducible apply State.send_wf | with_reducible apply foldl_fst_wf | with_reducible apply foldl_snd_wf | dsimp only | split)

theorem execAtomicPerformed_wf (core op lane : Nat) (s : State) (hs : Memory.wf s.mem = true) (t' : State) : execAtomicPerformed core op lane s = .next t' → Memory.wf t'.mem = true := by
  unfold execAtomicPerformed
  intro ht
  (repeat' (first | split at ht | dsimp only at ht)) <;> (injection ht with ht; subst ht) <;> 
  (repeat' (first | with_reducible assumption | intro _ | with_reducible apply foldl_wf | with_reducible apply State.acceptLane_wf | with_reducible apply State.atomicAtPort_wf | with_reducible apply foldl_fst_wf | with_reducible apply foldl_snd_wf | dsimp only | split))

theorem State.updSlot_wf (s : State) (id : Nat) (f : Slot → Slot) (hs : Memory.wf s.mem = true) : Memory.wf (State.updSlot s id f).mem = true := by
  unfold State.updSlot
  repeat' (first | with_reducible assumption | intro _ | with_reducible apply foldl_wf | with_reducible apply foldl_fst_wf | with_reducible apply foldl_snd_wf | dsimp only | split)

theorem State.unbind_wf (s : State) (v : Slot) (hs : Memory.wf s.mem = true) : Memory.wf (State.unbind s v).mem = true := by
  unfold State.unbind
  repeat' (first | with_reducible assumption | intro _ | with_reducible apply foldl_wf | with_reducible apply State.updDie_wf | with_reducible apply foldl_fst_wf | with_reducible apply foldl_snd_wf | dsimp only | split)

theorem State.reapSlots_wf (s : State) (hs : Memory.wf s.mem = true) : Memory.wf (State.reapSlots s).mem = true := by
  unfold State.reapSlots
  repeat' (first | with_reducible assumption | intro _ | with_reducible apply foldl_wf | with_reducible apply State.unbind_wf | with_reducible apply foldl_fst_wf | with_reducible apply foldl_snd_wf | dsimp only | split)

theorem State.takeBack_wf (s : State) (new : Nat) (hs : Memory.wf s.mem = true) : Memory.wf (State.takeBack s new).mem = true := by
  unfold State.takeBack
  repeat' (first | with_reducible assumption | intro _ | with_reducible apply foldl_wf | with_reducible apply foldl_fst_wf | with_reducible apply foldl_snd_wf | dsimp only | split)

theorem State.makeRoom_wf {s t : State} {core : Nat} {acc : Bool} (hs : Memory.wf s.mem = true) (h : s.makeRoom core acc = some t) : Memory.wf t.mem = true := by
  unfold State.makeRoom at h
  dsimp only at h
  by_cases c : (s.slots.filter (fun p => p.2.res && p.2.core == core && p.2.acc == acc)).length < (if acc then Config.accumulatorSlots else Config.operandSlots)
  · rw [if_pos c] at h; injection h with h; exact h ▸ hs
  · rw [if_neg c] at h
    split at h
    · cases h
    · injection h with h; subst h; exact hs

theorem State.touchSlot_wf (s : State) (core : Nat) (r : Option Nat) (hs : Memory.wf s.mem = true) : Memory.wf (s.touchSlot core r).mem = true := by
  unfold State.touchSlot
  (repeat' split) <;> (first | with_reducible exact hs | exact State.updSlot_wf _ _ _ hs | exact State.updSlot_wf _ _ _ (State.makeRoom_wf hs (by with_reducible assumption)))

theorem execWaitc_wf (m : Mods) (l st c t : BitVec 6) (s : State) (hs : Memory.wf s.mem = true) (t' : State) : execWaitc m l st c t s = .next t' → Memory.wf t'.mem = true := by
  unfold execWaitc
  intro ht
  (repeat' (first | split at ht | dsimp only at ht)) <;> (injection ht with ht; subst ht) <;> 
  (repeat' (first | with_reducible assumption | intro _ | with_reducible apply foldl_wf | with_reducible apply State.complete_wf | with_reducible apply State.plain_wf | with_reducible apply State.wait_wf | with_reducible apply foldl_fst_wf | with_reducible apply foldl_snd_wf | dsimp only | split))

theorem State.arriving_wf (s : State) (bar : Bar) (d : Nat) (hs : Memory.wf s.mem = true) : Memory.wf (State.arriving s bar d).mem = true := by
  unfold State.arriving
  repeat' (first | with_reducible assumption | intro _ | with_reducible apply foldl_wf | with_reducible apply State.wait_wf | with_reducible apply foldl_fst_wf | with_reducible apply foldl_snd_wf | dsimp only | split)

theorem execGbar_wf (m : Mods) (s : State) (hs : Memory.wf s.mem = true) (t' : State) : execGbar m s = .next t' → Memory.wf t'.mem = true := by
  unfold execGbar
  intro ht
  (repeat' (first | split at ht | dsimp only at ht)) <;> (injection ht with ht; subst ht) <;> 
  (repeat' (first | with_reducible assumption | intro _ | with_reducible apply foldl_wf | with_reducible apply State.arriving_wf | with_reducible apply State.plain_wf | with_reducible apply foldl_fst_wf | with_reducible apply foldl_snd_wf | dsimp only | split))

theorem execTarr_wf (m : Mods) (d : BitVec 7) (s : State) (hs : Memory.wf s.mem = true) (t' : State) : execTarr m d s = .next t' → Memory.wf t'.mem = true := by
  unfold execTarr
  intro ht
  (repeat' (first | split at ht | dsimp only at ht)) <;> (injection ht with ht; subst ht) <;> 
  (repeat' (first | with_reducible assumption | intro _ | with_reducible apply foldl_wf | with_reducible apply State.arriving_wf | with_reducible apply State.illegalHere_wf | with_reducible apply State.narrow_wf | with_reducible apply State.plain_wf | with_reducible apply State.wait_wf | with_reducible apply foldl_fst_wf | with_reducible apply foldl_snd_wf | dsimp only | split))

theorem execTwait_wf (m : Mods) (s : State) (hs : Memory.wf s.mem = true) (t' : State) : execTwait m s = .next t' → Memory.wf t'.mem = true := by
  unfold execTwait
  intro ht
  (repeat' (first | split at ht | dsimp only at ht)) <;> (injection ht with ht; subst ht) <;> 
  (repeat' (first | with_reducible assumption | intro _ | with_reducible apply foldl_wf | with_reducible apply State.complete_wf | with_reducible apply State.illegalHere_wf | with_reducible apply State.narrow_wf | with_reducible apply State.plain_wf | with_reducible apply State.wait_wf | with_reducible apply foldl_fst_wf | with_reducible apply foldl_snd_wf | dsimp only | split))

theorem execMbar_wf (m : Mods) (s : State) (hs : Memory.wf s.mem = true) (t' : State) : execMbar m s = .next t' → Memory.wf t'.mem = true := by
  unfold execMbar
  intro ht
  (repeat' (first | split at ht | dsimp only at ht)) <;> (injection ht with ht; subst ht) <;> 
  (repeat' (first | with_reducible assumption | intro _ | with_reducible apply foldl_wf | with_reducible apply State.arriving_wf | with_reducible apply State.illegalHere_wf | with_reducible apply State.plain_wf | with_reducible apply foldl_fst_wf | with_reducible apply foldl_snd_wf | dsimp only | split))

theorem execBarrierArrival_wf (g lane : Nat) (s : State) (hs : Memory.wf s.mem = true) (t' : State) : execBarrierArrival g lane s = .next t' → Memory.wf t'.mem = true := by
  unfold execBarrierArrival
  intro ht
  (repeat' (first | split at ht | dsimp only at ht)) <;> (injection ht with ht; subst ht) <;> 
  (repeat' (first | with_reducible assumption | intro _ | with_reducible apply foldl_wf | with_reducible apply State.arriving_wf | with_reducible apply State.checkGrid_wf | with_reducible apply State.checkGroup_wf | with_reducible apply State.checkTeam_wf | with_reducible apply State.releaseHolders_wf | with_reducible apply State.settleGm_wf | with_reducible apply State.updFibre_wf | with_reducible apply State.updGroup_wf | with_reducible apply State.wait_wf | with_reducible apply foldl_fst_wf | with_reducible apply foldl_snd_wf | dsimp only | split))

theorem State.releaseCore_wf (s : State) (grid core : Nat) (hs : Memory.wf s.mem = true) : Memory.wf (State.releaseCore s grid core).mem = true := by
  unfold State.releaseCore
  repeat' (first | with_reducible assumption | intro _ | with_reducible apply foldl_wf | with_reducible apply State.acquireL1_wf | with_reducible apply State.mapLanes_wf | with_reducible apply State.wait_wf | with_reducible apply foldl_fst_wf | with_reducible apply foldl_snd_wf | dsimp only | split)

theorem execMbarReleaseStep_wf (grid : Nat) (s : State) (hs : Memory.wf s.mem = true) (t' : State) : execMbarReleaseStep grid s = .next t' → Memory.wf t'.mem = true := by
  unfold execMbarReleaseStep
  intro ht
  (repeat' (first | split at ht | dsimp only at ht)) <;> (injection ht with ht; subst ht) <;> 
  (repeat' (first | with_reducible assumption | intro _ | with_reducible apply foldl_wf | with_reducible apply State.releaseCore_wf | with_reducible apply State.updGrid_wf | with_reducible apply foldl_fst_wf | with_reducible apply foldl_snd_wf | dsimp only | split))

theorem State.lease_wf (s : State) (e : Eff) (d : BitVec 7) (v : Option Nat) (hs : Memory.wf s.mem = true) : Memory.wf (State.lease s e d v).mem = true := by
  unfold State.lease
  repeat' (first | with_reducible assumption | intro _ | with_reducible apply foldl_wf | with_reducible apply State.complete_wf | with_reducible apply State.setDest_wf | with_reducible apply State.updGroup_wf | with_reducible apply foldl_fst_wf | with_reducible apply foldl_snd_wf | dsimp only | split)

theorem execLease_wf (m : Mods) (d i : BitVec 7) (s : State) (hs : Memory.wf s.mem = true) (t' : State) : execLease m d i s = .next t' → Memory.wf t'.mem = true := by
  unfold execLease
  intro ht
  (repeat' (first | split at ht | dsimp only at ht)) <;> (injection ht with ht; subst ht) <;> 
  (repeat' (first | with_reducible assumption | intro _ | with_reducible apply foldl_wf | with_reducible apply State.lease_wf | with_reducible apply State.plain_wf | with_reducible apply foldl_fst_wf | with_reducible apply foldl_snd_wf | dsimp only | split))

theorem execLeaseK_wf (m : Mods) (d a : BitVec 7) (s : State) (hs : Memory.wf s.mem = true) (t' : State) : execLeaseK m d a s = .next t' → Memory.wf t'.mem = true := by
  unfold execLeaseK
  intro ht
  (repeat' (first | split at ht | dsimp only at ht)) <;> (injection ht with ht; subst ht) <;> 
  (repeat' (first | with_reducible assumption | intro _ | with_reducible apply foldl_wf | with_reducible apply State.control_wf | with_reducible apply State.lease_wf | with_reducible apply State.plain_wf | with_reducible apply foldl_fst_wf | with_reducible apply foldl_snd_wf | dsimp only | split))

theorem execLeaseRd_wf (m : Mods) (d : BitVec 7) (s : State) (hs : Memory.wf s.mem = true) (t' : State) : execLeaseRd m d s = .next t' → Memory.wf t'.mem = true := by
  unfold execLeaseRd
  intro ht
  (repeat' (first | split at ht | dsimp only at ht)) <;> (injection ht with ht; subst ht) <;> 
  (repeat' (first | with_reducible assumption | intro _ | with_reducible apply foldl_wf | with_reducible apply State.lease_wf | with_reducible apply State.plain_wf | with_reducible apply foldl_fst_wf | with_reducible apply foldl_snd_wf | dsimp only | split))

theorem execLeaseWindowEnd_wf (g : Nat) (s : State) (hs : Memory.wf s.mem = true) (t' : State) : execLeaseWindowEnd g s = .next t' → Memory.wf t'.mem = true := by
  unfold execLeaseWindowEnd
  intro ht
  (repeat' (first | split at ht | dsimp only at ht)) <;> (injection ht with ht; subst ht) <;> 
  (repeat' (first | with_reducible assumption | intro _ | with_reducible apply foldl_wf | with_reducible apply State.updGroup_wf | with_reducible apply foldl_fst_wf | with_reducible apply foldl_snd_wf | dsimp only | split))

theorem execAgeCounterExpiry_wf (g slice : Nat) (s : State) (hs : Memory.wf s.mem = true) (t' : State) : execAgeCounterExpiry g slice s = .next t' → Memory.wf t'.mem = true := by
  unfold execAgeCounterExpiry
  intro ht
  (repeat' (first | split at ht | dsimp only at ht)) <;> (injection ht with ht; subst ht) <;> 
  (repeat' (first | with_reducible assumption | intro _ | with_reducible apply foldl_wf | with_reducible apply State.updGroup_wf | with_reducible apply foldl_fst_wf | with_reducible apply foldl_snd_wf | dsimp only | split))

theorem execLeasewWrite_wf (core : Nat) (value : W32) (s : State) (hs : Memory.wf s.mem = true) (t' : State) : execLeasewWrite core value s = .next t' → Memory.wf t'.mem = true := by
  unfold execLeasewWrite
  intro ht
  (repeat' (first | split at ht | dsimp only at ht)) <;> (injection ht with ht; subst ht) <;> 
  (repeat' (first | with_reducible assumption | intro _ | with_reducible apply foldl_wf | with_reducible apply State.updCore_wf | with_reducible apply foldl_fst_wf | with_reducible apply foldl_snd_wf | dsimp only | split))

theorem State.writeQueue_wf (s : State) (vf q field value : Nat) (hs : Memory.wf s.mem = true) : Memory.wf (State.writeQueue s vf q field value).mem = true := by
  unfold State.writeQueue
  repeat' (first | with_reducible assumption | intro _ | with_reducible apply foldl_wf | with_reducible apply State.sysWrite_wf | with_reducible apply foldl_fst_wf | with_reducible apply foldl_snd_wf | dsimp only | split)

theorem State.readTail_wf (s : State) (vf q : Nat) (hs : Memory.wf s.mem = true) : Memory.wf (State.readTail s vf q).mem = true := by
  unfold State.readTail
  repeat' (first | with_reducible assumption | intro _ | with_reducible apply foldl_wf | with_reducible apply State.report_wf | with_reducible apply foldl_fst_wf | with_reducible apply foldl_snd_wf | dsimp only | split)

theorem State.writeCompletion_wf {s t : State} {ctx : Nat} {r : Grid} {status : Nat} (hs : Memory.wf s.mem = true) (h : s.writeCompletion ctx r status = some t) : Memory.wf t.mem = true := by
  unfold State.writeCompletion at h
  dsimp only at h
  split at h
  · injection h with h; exact h ▸ hs
  · split at h
    · injection h with h; subst h
      exact State.seal_wf _ _ _ _ (State.sysWrite_wf _ _ _ _ (State.sysWrite_wf _ _ _ _ hs))
    · cases h
    · cases h
    · injection h with h; subst h; exact State.report_wf _ _ _ _ _ hs

theorem State.released_wf (s : State) (level : Nat) (lanes : List Nat) (go : State → State) (hs : Memory.wf s.mem = true) (hgo : ∀ x0, Memory.wf x0.mem = true → Memory.wf (go x0).mem = true) : Memory.wf (State.released s level lanes go).mem = true := by
  unfold State.released
  repeat' (first | with_reducible assumption | intro _ | with_reducible apply foldl_wf | with_reducible apply State.mapLanes_wf | with_reducible apply State.wait_wf | with_reducible apply hgo | with_reducible apply foldl_fst_wf | with_reducible apply foldl_snd_wf | dsimp only | split)

theorem State.appendRecord_wf (s : State) (vf ctx : Nat) (rec : List Byte) (q : Nat) (hs : Memory.wf s.mem = true) : Memory.wf (s.appendRecord vf ctx rec q).2.mem = true := by
  unfold State.appendRecord
  (repeat' split) <;> (first | exact hs | exact State.readTail_wf _ _ _ (State.writeQueue_wf _ _ _ _ _ (State.sysWrite_wf _ _ _ _ hs)))

theorem execLnch_wf (m : Mods) (d a b : BitVec 7) (s : State) (hs : Memory.wf s.mem = true) (t' : State) : execLnch m d a b s = .next t' → Memory.wf t'.mem = true := by
  unfold execLnch
  intro ht
  (repeat' (first | split at ht | dsimp only at ht)) <;> (injection ht with ht; subst ht) <;> 
  (repeat' (first | with_reducible assumption | intro _ | with_reducible apply foldl_wf | with_reducible apply State.appendRecord_wf | with_reducible apply State.complete_wf | with_reducible apply State.control_wf | with_reducible apply State.dropRequests_wf | with_reducible apply State.illegalHere_wf | with_reducible apply State.plain_wf | with_reducible apply State.precise_wf | with_reducible apply State.readLine_wf | with_reducible apply State.released_wf | with_reducible apply State.reportReads_wf | with_reducible apply State.setDest_wf | with_reducible apply State.throughPort_wf | with_reducible apply State.waitReplay_wf | with_reducible apply State.walkPoison_wf | with_reducible apply foldl_fst_wf | with_reducible apply foldl_snd_wf | dsimp only | split))

theorem execLaunchRecordTake_wf (vf queue : Nat) (s : State) (hs : Memory.wf s.mem = true) (t' : State) : execLaunchRecordTake vf queue s = .next t' → Memory.wf t'.mem = true := by
  suffices h : NextWf (execLaunchRecordTake vf queue s) from h t'
  unfold execLaunchRecordTake
  repeat' (first | with_reducible assumption | with_reducible apply nextWf_next | with_reducible apply State.writeQueue_wf | with_reducible apply State.report_wf | with_reducible apply State.askSupervisor_wf | refine State.writeCompletion_wf ?_ (by with_reducible assumption) | dsimp only | split)

theorem State.newGroup_wf (s : State) (grid : Nat) (team index core track : Nat) (hs : Memory.wf s.mem = true) : Memory.wf (State.newGroup s grid team index core track).mem = true := by
  unfold State.newGroup
  repeat' (first | with_reducible assumption | intro _ | with_reducible apply foldl_wf | with_reducible apply State.lease_wf | with_reducible apply State.updCore_wf | with_reducible apply foldl_fst_wf | with_reducible apply foldl_snd_wf | dsimp only | split)

theorem State.claimRows_wf (s : State) (core track g : Nat) (hs : Memory.wf s.mem = true) : Memory.wf (State.claimRows s core track g).mem = true := by
  unfold State.claimRows
  repeat' (first | with_reducible assumption | intro _ | with_reducible apply foldl_wf | with_reducible apply State.updGroup_wf | with_reducible apply foldl_fst_wf | with_reducible apply foldl_snd_wf | dsimp only | split)

theorem State.recallRows_wf (s : State) (g : Nat) (hs : Memory.wf s.mem = true) : Memory.wf (State.recallRows s g).mem = true := by
  unfold State.recallRows
  repeat' (first | with_reducible assumption | intro _ | with_reducible apply foldl_wf | with_reducible apply State.claimRows_wf | with_reducible apply State.updGroup_wf | with_reducible apply foldl_fst_wf | with_reducible apply foldl_snd_wf | dsimp only | split)

theorem State.placeTeam_wf (s : State) (grid : Nat) (where' : List (Nat × Nat)) (hs : Memory.wf s.mem = true) : Memory.wf (s.placeTeam grid where').mem = true := by
  unfold State.placeTeam
  dsimp only
  refine foldl_wf _ _ _ ?_ (fun t p h => State.claimScratch_wf _ _ _ _ (State.claimRows_wf _ _ _ _ h))
  apply State.updGrid_wf
  exact foldl_fst_wf _ _ _ hs (fun t a h => State.newGroup_wf _ _ _ _ _ _ h)

theorem execTeamPlacement_wf (grid : Nat) (s : State) (hs : Memory.wf s.mem = true) (t' : State) : execTeamPlacement grid s = .next t' → Memory.wf t'.mem = true := by
  unfold execTeamPlacement
  intro ht
  (repeat' (first | split at ht | dsimp only at ht)) <;> (injection ht with ht; subst ht) <;> 
  (repeat' (first | with_reducible assumption | intro _ | with_reducible apply foldl_wf | with_reducible apply State.placeTeam_wf | with_reducible apply foldl_fst_wf | with_reducible apply foldl_snd_wf | dsimp only | split))

theorem State.removeGroup_wf (s : State) (g : Nat) (hs : Memory.wf s.mem = true) : Memory.wf (State.removeGroup s g).mem = true := by
  unfold State.removeGroup
  repeat' (first | with_reducible assumption | intro _ | with_reducible apply foldl_wf | with_reducible apply State.keep_wf | with_reducible apply State.updCore_wf | with_reducible apply foldl_fst_wf | with_reducible apply foldl_snd_wf | dsimp only | split)

theorem execGroupEnd_wf (g : Nat) (s : State) (hs : Memory.wf s.mem = true) (t' : State) : execGroupEnd g s = .next t' → Memory.wf t'.mem = true := by
  unfold execGroupEnd
  intro ht
  (repeat' (first | split at ht | dsimp only at ht)) <;> (injection ht with ht; subst ht) <;> 
  (repeat' (first | with_reducible assumption | intro _ | with_reducible apply foldl_wf | with_reducible apply State.reapSlots_wf | with_reducible apply State.removeGroup_wf | with_reducible apply State.serveLatched_wf | with_reducible apply State.updGrid_wf | with_reducible apply State.warn_wf | with_reducible apply foldl_fst_wf | with_reducible apply foldl_snd_wf | dsimp only | split))

theorem execGridEnd_wf (grid : Nat) (s : State) (hs : Memory.wf s.mem = true) (t' : State) : execGridEnd grid s = .next t' → Memory.wf t'.mem = true := by
  unfold execGridEnd
  intro ht
  (repeat' (first | split at ht | dsimp only at ht)) <;> (injection ht with ht; subst ht) <;> 
  (repeat' (first | with_reducible assumption | intro _ | with_reducible apply foldl_wf | with_reducible apply State.askSupervisor_wf | with_reducible apply State.readTail_wf | refine State.writeCompletion_wf ?_ (by with_reducible assumption) | with_reducible apply foldl_fst_wf | with_reducible apply foldl_snd_wf | dsimp only | split))

theorem State.removeContext_wf (s : State) (ctx : Nat) (hs : Memory.wf s.mem = true) : Memory.wf (State.removeContext s ctx).mem = true := by
  unfold State.removeContext
  repeat' (first | with_reducible assumption | intro _ | with_reducible apply foldl_wf | with_reducible apply State.forget_wf | with_reducible apply State.keep_wf | with_reducible apply State.reapSlots_wf | with_reducible apply State.removeGroup_wf | with_reducible apply foldl_fst_wf | with_reducible apply foldl_snd_wf | dsimp only | split)

theorem execContextSetup_wf (ctx vf : Nat) (ptroot stopa : W64) (scratch lockLimit : Nat) (tvec : W64) (s : State) (hs : Memory.wf s.mem = true) (t' : State) : execContextSetup ctx vf ptroot stopa scratch lockLimit tvec s = .next t' → Memory.wf t'.mem = true := by
  unfold execContextSetup
  intro ht
  (repeat' (first | split at ht | dsimp only at ht)) <;> (injection ht with ht; subst ht) <;> 
  (repeat' (first | with_reducible assumption | intro _ | with_reducible apply foldl_wf | with_reducible apply foldl_fst_wf | with_reducible apply foldl_snd_wf | dsimp only | split))

theorem State.sendAcquire_wf (s : State) (x : Group) (dst : Dst) (form : LoadForm) (bytes scope : Nat) (victims : List Nat) (pas : List (Nat × Nat × Page)) (va : Nat → W64) (hs : Memory.wf s.mem = true) : Memory.wf (State.sendAcquire s x dst form bytes scope victims pas va).mem = true := by
  unfold State.sendAcquire
  repeat' (first | with_reducible assumption | intro _ | with_reducible apply foldl_wf | with_reducible apply State.load_wf | with_reducible apply State.mapLanes_wf | with_reducible apply State.sample_wf | with_reducible apply State.updCore_wf | with_reducible apply State.updGroup_wf | with_reducible apply foldl_fst_wf | with_reducible apply foldl_snd_wf | dsimp only | split)

theorem execLdaq_wf (m : Mods) (w : BitVec 1) (d : BitVec 7) (k : BitVec 4) (sc : BitVec 3) (v : BitVec 7) (s : State) (hs : Memory.wf s.mem = true) (t' : State) : execLdaq m w d k sc v s = .next t' → Memory.wf t'.mem = true := by
  unfold execLdaq
  intro ht
  (repeat' (first | split at ht | dsimp only at ht)) <;> (injection ht with ht; subst ht) <;> 
  (repeat' (first | with_reducible assumption | intro _ | with_reducible apply foldl_wf | with_reducible apply State.baseChecks_wf | with_reducible apply State.complete_wf | with_reducible apply State.control_wf | with_reducible apply State.fillTlb_wf | with_reducible apply State.memFault_wf | with_reducible apply State.plain_wf | with_reducible apply State.precise_wf | with_reducible apply State.sendAcquire_wf | with_reducible apply State.suspend_wf | with_reducible apply State.walkPoison_wf | with_reducible apply State.zeroMasked_wf | with_reducible apply foldl_fst_wf | with_reducible apply foldl_snd_wf | dsimp only | split))

theorem State.acquireLine_wf (s : State) (ctx core la mtype scope : Nat) (l2 conf : Bool) (hs : Memory.wf s.mem = true) : Memory.wf (s.acquireLine ctx core la mtype scope l2 conf).1.mem = true := by
  unfold State.acquireLine
  (repeat' (first | with_reducible exact hs | with_reducible apply State.countPacket_wf | with_reducible apply State.reportRefused_wf | with_reducible apply State.cleanAll_wf | with_reducible apply State.readLine_wf | dsimp only | split))

theorem State.acquireArrives_wf (s : State) (core id lane scope : Nat) (l : Load) (e : LaneLoad) (hs : Memory.wf s.mem = true) : Memory.wf (State.acquireArrives s core id lane scope l e).mem = true := by
  unfold State.acquireArrives
  repeat' (first | with_reducible assumption | intro _ | with_reducible apply foldl_wf | with_reducible apply State.acquireLine_wf | with_reducible apply State.arrive_wf | with_reducible apply State.deliver_wf | with_reducible apply State.send_wf | with_reducible apply State.updCore_wf | with_reducible apply foldl_fst_wf | with_reducible apply foldl_snd_wf | dsimp only | split)

theorem execLoadDataArrival_wf (core load lane : Nat) (s : State) (hs : Memory.wf s.mem = true) (t' : State) : execLoadDataArrival core load lane s = .next t' → Memory.wf t'.mem = true := by
  unfold execLoadDataArrival
  intro ht
  (repeat' (first | split at ht | dsimp only at ht)) <;> (injection ht with ht; subst ht) <;> 
  (repeat' (first | with_reducible assumption | intro _ | with_reducible apply foldl_wf | with_reducible apply State.acquireArrives_wf | with_reducible apply State.dataArrives_wf | with_reducible apply State.load_wf | with_reducible apply foldl_fst_wf | with_reducible apply foldl_snd_wf | dsimp only | split))

theorem State.drainCore_wf (s : State) (core level : Nat) (hs : Memory.wf s.mem = true) : Memory.wf (State.drainCore s core level).mem = true := by
  unfold State.drainCore
  repeat' (first | with_reducible assumption | intro _ | with_reducible apply foldl_wf | with_reducible apply State.atomicAtPort_wf | with_reducible apply State.performStore_wf | with_reducible apply foldl_fst_wf | with_reducible apply foldl_snd_wf | dsimp only | split)

theorem execPromotionDrain_wf (core load victim : Nat) (s : State) (hs : Memory.wf s.mem = true) (t' : State) : execPromotionDrain core load victim s = .next t' → Memory.wf t'.mem = true := by
  unfold execPromotionDrain
  intro ht
  (repeat' (first | split at ht | dsimp only at ht)) <;> (injection ht with ht; subst ht) <;> 
  (repeat' (first | with_reducible assumption | intro _ | with_reducible apply foldl_wf | with_reducible apply State.drainCore_wf | with_reducible apply State.load_wf | with_reducible apply State.updCore_wf | with_reducible apply State.updLoad_wf | with_reducible apply foldl_fst_wf | with_reducible apply foldl_snd_wf | dsimp only | split))

theorem execStrl_wf (m : Mods) (w : BitVec 2) (k : BitVec 4) (sc : BitVec 3) (b : BitVec 7) (s : State) (hs : Memory.wf s.mem = true) (t' : State) : execStrl m w k sc b s = .next t' → Memory.wf t'.mem = true := by
  unfold execStrl
  intro ht
  (repeat' (first | split at ht | dsimp only at ht)) <;> (injection ht with ht; subst ht) <;> 
  (repeat' (first | with_reducible assumption | intro _ | with_reducible apply foldl_wf | with_reducible apply State.complete_wf | with_reducible apply State.plain_wf | with_reducible apply State.released_wf | with_reducible apply State.sendStores_wf | with_reducible apply State.storeChecks_wf | with_reducible apply foldl_fst_wf | with_reducible apply foldl_snd_wf | dsimp only | split))

theorem State.fence_wf (s : State) (e : Eff) (kind scope : Nat) (range : Fibre → Option (W64 × Nat)) (hs : Memory.wf s.mem = true) : Memory.wf (State.fence s e kind scope range).mem = true := by
  unfold State.fence
  repeat' (first | with_reducible assumption | intro _ | with_reducible apply foldl_wf | with_reducible apply State.acquireL1_wf | with_reducible apply State.complete_wf | with_reducible apply State.mapLanes_wf | with_reducible apply State.narrow_wf | with_reducible apply State.wait_wf | with_reducible apply foldl_fst_wf | with_reducible apply foldl_snd_wf | dsimp only | split)

theorem execFence_wf (m : Mods) (n : BitVec 2) (sc : BitVec 3) (s : State) (hs : Memory.wf s.mem = true) (t' : State) : execFence m n sc s = .next t' → Memory.wf t'.mem = true := by
  unfold execFence
  intro ht
  (repeat' (first | split at ht | dsimp only at ht)) <;> (injection ht with ht; subst ht) <;> 
  (repeat' (first | with_reducible assumption | intro _ | with_reducible apply foldl_wf | with_reducible apply State.fence_wf | with_reducible apply State.plain_wf | with_reducible apply foldl_fst_wf | with_reducible apply foldl_snd_wf | dsimp only | split))

theorem execRfence_wf (m : Mods) (n : BitVec 2) (sc : BitVec 3) (a b : BitVec 7) (s : State) (hs : Memory.wf s.mem = true) (t' : State) : execRfence m n sc a b s = .next t' → Memory.wf t'.mem = true := by
  unfold execRfence
  intro ht
  (repeat' (first | split at ht | dsimp only at ht)) <;> (injection ht with ht; subst ht) <;> 
  (repeat' (first | with_reducible assumption | intro _ | with_reducible apply foldl_wf | with_reducible apply State.control_wf | with_reducible apply State.fence_wf | with_reducible apply State.plain_wf | with_reducible apply foldl_fst_wf | with_reducible apply foldl_snd_wf | dsimp only | split))

theorem execXfence_wf (m : Mods) (sc : BitVec 3) (p : BitVec 5) (s : State) (hs : Memory.wf s.mem = true) (t' : State) : execXfence m sc p s = .next t' → Memory.wf t'.mem = true := by
  unfold execXfence
  intro ht
  (repeat' (first | split at ht | dsimp only at ht)) <;> (injection ht with ht; subst ht) <;> 
  (repeat' (first | with_reducible assumption | intro _ | with_reducible apply foldl_wf | with_reducible apply State.complete_wf | with_reducible apply State.mapLanes_wf | with_reducible apply State.narrow_wf | with_reducible apply State.plain_wf | with_reducible apply State.wait_wf | with_reducible apply foldl_fst_wf | with_reducible apply foldl_snd_wf | dsimp only | split))

theorem State.lockLine_wf (s : State) (ctx core la : Nat) (p : Page) (hs : Memory.wf s.mem = true) : Memory.wf (s.lockLine ctx core la p).2.mem = true := by
  unfold State.lockLine
  dsimp only
  (repeat' (first | with_reducible exact hs | with_reducible apply State.l2Fetch_wf | with_reducible apply State.reportReads_wf | with_reducible apply State.updDie_wf | split))

theorem State.unlockLine_wf (s : State) (ctx la : Nat) (hs : Memory.wf s.mem = true) : Memory.wf (s.unlockLine ctx la).2.mem = true := by
  unfold State.unlockLine
  (repeat' split) <;> exact hs

theorem State.cacheOp_wf (s : State) (i : Instr) (load : Bool) (dst : Fibre → List Reg) (b : BitVec 7) (off : W64) (go : Eff → List (Nat × Nat × Page) → State → State) (hs : Memory.wf s.mem = true) (hgo : ∀ x0 x1 x2, Memory.wf x2.mem = true → Memory.wf (go x0 x1 x2).mem = true) : Memory.wf (State.cacheOp s i load dst b off go).mem = true := by
  unfold State.cacheOp
  repeat' (first | with_reducible assumption | intro _ | with_reducible apply foldl_wf | with_reducible apply State.baseChecks_wf | with_reducible apply State.fillTlb_wf | with_reducible apply State.load_wf | with_reducible apply State.memFault_wf | with_reducible apply State.plain_wf | with_reducible apply State.suspend_wf | with_reducible apply State.walkPoison_wf | with_reducible apply hgo | with_reducible apply foldl_fst_wf | with_reducible apply foldl_snd_wf | dsimp only | split)

theorem State.pinOp_wf (s : State) (i : Instr) (d b : BitVec 7) (off : W64) (reads : Nat → Page → Bool) (op : State → Nat → Page → Nat × State) (hs : Memory.wf s.mem = true)
    (hop : ∀ t la p, Memory.wf t.mem = true → Memory.wf (op t la p).2.mem = true) : Memory.wf (s.pinOp i d b off reads op).mem = true := by
  unfold State.pinOp
  apply State.cacheOp_wf _ _ _ _ _ _ _ hs
  intro e l t ht
  dsimp only
  split
  · exact State.dropRequests_wf _ _ _ ht
  · split
    · exact ht
    · refine State.throughPort_wf _ _ _ _ _ ht (fun u hu => ?_)
      exact State.complete_wf _ _ _ _ (State.setDest_wf _ _ _ (foldl_snd_wf _ _ _ hu (fun t a h => hop _ _ _ h)))

theorem execLock_wf (m : Mods) (d b : BitVec 7) (o : BitVec 5) (s : State) (hs : Memory.wf s.mem = true) (t' : State) : execLock m d b o s = .next t' → Memory.wf t'.mem = true := by
  intro h; injection h with h; subst h
  exact State.pinOp_wf _ _ _ _ _ _ _ hs (fun t la p h => State.lockLine_wf _ _ _ _ _ h)

theorem execUnlock_wf (m : Mods) (d b : BitVec 7) (o : BitVec 5) (s : State) (hs : Memory.wf s.mem = true) (t' : State) : execUnlock m d b o s = .next t' → Memory.wf t'.mem = true := by
  intro h; injection h with h; subst h
  exact State.pinOp_wf _ _ _ _ _ _ _ hs (fun t la p h => State.unlockLine_wf _ _ _ h)

theorem State.writeBacks_wf (s : State) (i : Instr) (b : BitVec 7) (off : W64) (inv : Bool) (hs : Memory.wf s.mem = true) : Memory.wf (State.writeBacks s i b off inv).mem = true := by
  unfold State.writeBacks
  repeat' (first | with_reducible assumption | intro _ | with_reducible apply foldl_wf | with_reducible apply State.cacheOp_wf | with_reducible apply State.complete_wf | with_reducible apply State.pushStore_wf | with_reducible apply State.updGroup_wf | with_reducible apply foldl_fst_wf | with_reducible apply foldl_snd_wf | dsimp only | split)

theorem execCinv_wf (m : Mods) (b : BitVec 7) (o : BitVec 5) (s : State) (hs : Memory.wf s.mem = true) (t' : State) : execCinv m b o s = .next t' → Memory.wf t'.mem = true := by
  unfold execCinv
  intro ht
  (repeat' (first | split at ht | dsimp only at ht)) <;> (injection ht with ht; subst ht) <;> 
  (repeat' (first | with_reducible assumption | intro _ | with_reducible apply foldl_wf | with_reducible apply State.writeBacks_wf | with_reducible apply foldl_fst_wf | with_reducible apply foldl_snd_wf | dsimp only | split))

theorem execCwb_wf (m : Mods) (b : BitVec 7) (o : BitVec 5) (s : State) (hs : Memory.wf s.mem = true) (t' : State) : execCwb m b o s = .next t' → Memory.wf t'.mem = true := by
  unfold execCwb
  intro ht
  (repeat' (first | split at ht | dsimp only at ht)) <;> (injection ht with ht; subst ht) <;> 
  (repeat' (first | with_reducible assumption | intro _ | with_reducible apply foldl_wf | with_reducible apply State.writeBacks_wf | with_reducible apply foldl_fst_wf | with_reducible apply foldl_snd_wf | dsimp only | split))

theorem State.controlUnit_wf (s : State) (eng : Nat) (ops : Fibre → List Ctl) (go : State → State) (hs : Memory.wf s.mem = true) (hgo : ∀ x0, Memory.wf x0.mem = true → Memory.wf (go x0).mem = true) : Memory.wf (State.controlUnit s eng ops go).mem = true := by
  unfold State.controlUnit
  repeat' (first | with_reducible assumption | intro _ | with_reducible apply foldl_wf | with_reducible apply State.mapLanes_wf | with_reducible apply State.precise_wf | with_reducible apply State.releaseHolders_wf | with_reducible apply State.wait_wf | with_reducible apply hgo | with_reducible apply foldl_fst_wf | with_reducible apply foldl_snd_wf | dsimp only | split)

theorem State.copy_wf (s : State) (z : CopyIns) (hs : Memory.wf s.mem = true) : Memory.wf (State.copy s z).mem = true := by
  unfold State.copy
  repeat' (first | with_reducible assumption | intro _ | with_reducible apply foldl_wf | with_reducible apply State.complete_wf | with_reducible apply State.controlUnit_wf | with_reducible apply State.plain_wf | with_reducible apply State.precise_wf | with_reducible apply State.updCore_wf | with_reducible apply State.updGroup_wf | with_reducible apply foldl_fst_wf | with_reducible apply foldl_snd_wf | dsimp only | split)

theorem execCpy_wf (m : Mods) (f : BitVec 3) (d a b : BitVec 7) (s : State) (hs : Memory.wf s.mem = true) (t' : State) : execCpy m f d a b s = .next t' → Memory.wf t'.mem = true := by
  unfold execCpy
  intro ht
  (repeat' (first | split at ht | dsimp only at ht)) <;> (injection ht with ht; subst ht) <;> 
  (repeat' (first | with_reducible assumption | intro _ | with_reducible apply foldl_wf | with_reducible apply State.copy_wf | with_reducible apply foldl_fst_wf | with_reducible apply foldl_snd_wf | dsimp only | split))

theorem execCpy2_wf (m : Mods) (f : BitVec 3) (d a b : BitVec 7) (s : State) (hs : Memory.wf s.mem = true) (t' : State) : execCpy2 m f d a b s = .next t' → Memory.wf t'.mem = true := by
  unfold execCpy2
  intro ht
  (repeat' (first | split at ht | dsimp only at ht)) <;> (injection ht with ht; subst ht) <;> 
  (repeat' (first | with_reducible assumption | intro _ | with_reducible apply foldl_wf | with_reducible apply State.copy_wf | with_reducible apply foldl_fst_wf | with_reducible apply foldl_snd_wf | dsimp only | split))

theorem execGath_wf (m : Mods) (sc : BitVec 1) (z : BitVec 2) (d a b : BitVec 7) (s : State) (hs : Memory.wf s.mem = true) (t' : State) : execGath m sc z d a b s = .next t' → Memory.wf t'.mem = true := by
  unfold execGath
  intro ht
  (repeat' (first | split at ht | dsimp only at ht)) <;> (injection ht with ht; subst ht) <;> 
  (repeat' (first | with_reducible assumption | intro _ | with_reducible apply foldl_wf | with_reducible apply State.copy_wf | with_reducible apply foldl_fst_wf | with_reducible apply foldl_snd_wf | dsimp only | split))

theorem execScat_wf (m : Mods) (sc : BitVec 1) (z : BitVec 2) (d a b : BitVec 7) (s : State) (hs : Memory.wf s.mem = true) (t' : State) : execScat m sc z d a b s = .next t' → Memory.wf t'.mem = true := by
  unfold execScat
  intro ht
  (repeat' (first | split at ht | dsimp only at ht)) <;> (injection ht with ht; subst ht) <;> 
  (repeat' (first | with_reducible assumption | intro _ | with_reducible apply foldl_wf | with_reducible apply State.copy_wf | with_reducible apply foldl_fst_wf | with_reducible apply foldl_snd_wf | dsimp only | split))

theorem execCfill_wf (m : Mods) (f : BitVec 1) (d a b : BitVec 7) (s : State) (hs : Memory.wf s.mem = true) (t' : State) : execCfill m f d a b s = .next t' → Memory.wf t'.mem = true := by
  unfold execCfill
  intro ht
  (repeat' (first | split at ht | dsimp only at ht)) <;> (injection ht with ht; subst ht) <;> 
  (repeat' (first | with_reducible assumption | intro _ | with_reducible apply foldl_wf | with_reducible apply State.copy_wf | with_reducible apply foldl_fst_wf | with_reducible apply foldl_snd_wf | dsimp only | split))

theorem execCstat_wf (m : Mods) (d : BitVec 7) (s : State) (hs : Memory.wf s.mem = true) (t' : State) : execCstat m d s = .next t' → Memory.wf t'.mem = true := by
  unfold execCstat
  intro ht
  (repeat' (first | split at ht | dsimp only at ht)) <;> (injection ht with ht; subst ht) <;> 
  (repeat' (first | with_reducible assumption | intro _ | with_reducible apply foldl_wf | with_reducible apply State.complete_wf | with_reducible apply State.plain_wf | with_reducible apply State.setDest_wf | with_reducible apply foldl_fst_wf | with_reducible apply foldl_snd_wf | dsimp only | split))

theorem State.fetchSegs_wf (s : State) (core : Nat) (l : List Seg) (hs : Memory.wf s.mem = true) : Memory.wf (State.fetchSegs s core l).mem = true := by
  unfold State.fetchSegs
  repeat' (first | with_reducible assumption | intro _ | with_reducible apply foldl_wf | with_reducible apply State.readLine_wf | with_reducible apply foldl_fst_wf | with_reducible apply foldl_snd_wf | dsimp only | split)

theorem State.reportSegs_wf (s : State) (ctx core : Nat) (write : Bool) (l : List Seg) (hs : Memory.wf s.mem = true) : Memory.wf (State.reportSegs s ctx core write l).mem = true := by
  unfold State.reportSegs
  repeat' (first | with_reducible assumption | intro _ | with_reducible apply foldl_wf | with_reducible apply State.reportReads_wf | with_reducible apply State.reportWrites_wf | with_reducible apply foldl_fst_wf | with_reducible apply foldl_snd_wf | dsimp only | split)

theorem State.engineWrite_wf (ctx core pol : Nat) (l : List Seg) (s : State) (b : List (Byte × Bool)) (hs : Memory.wf s.mem = true) :
    Memory.wf (s.engineWrite ctx core pol l b).mem = true := by
  induction l generalizing s b with
  | nil => exact hs
  | cons g rest ih =>
    unfold State.engineWrite
    dsimp only
    apply ih
    split
    · exact foldl_wf _ _ _ hs (fun t a h => State.scratchWrite_wf _ _ _ _ _ _ h)
    · repeat' (first | with_reducible exact hs | with_reducible apply State.seal_wf | with_reducible apply State.dropHost_wf | with_reducible apply State.homeWrite_wf | with_reducible apply State.l2WriteLine_wf | split)

theorem State.updCopy_wf (s : State) (core id : Nat) (f : Copy → Copy) (hs : Memory.wf s.mem = true) : Memory.wf (State.updCopy s core id f).mem = true := by
  unfold State.updCopy
  repeat' (first | with_reducible assumption | intro _ | with_reducible apply foldl_wf | with_reducible apply State.updCore_wf | with_reducible apply foldl_fst_wf | with_reducible apply foldl_snd_wf | dsimp only | split)

theorem State.publish_wf (s : State) (core : Nat) (lines : List Nat) (hs : Memory.wf s.mem = true) : Memory.wf (State.publish s core lines).mem = true := by
  unfold State.publish
  repeat' (first | with_reducible assumption | intro _ | with_reducible apply foldl_wf | with_reducible apply State.cleanAll_wf | with_reducible apply State.dropCopies_wf | with_reducible apply foldl_fst_wf | with_reducible apply foldl_snd_wf | dsimp only | split)

theorem State.retireCopy_wf (s : State) (core id : Nat) (c : Copy) (hs : Memory.wf s.mem = true) : Memory.wf (State.retireCopy s core id c).mem = true := by
  unfold State.retireCopy
  repeat' (first | with_reducible assumption | intro _ | with_reducible apply foldl_wf | with_reducible apply State.publish_wf | with_reducible apply State.updCore_wf | with_reducible apply State.updGroup_wf | with_reducible apply foldl_fst_wf | with_reducible apply foldl_snd_wf | dsimp only | split)

theorem State.endCopy_wf (s : State) (core id : Nat) (c : Copy) (cause sub info : Nat) (val : W64) (hs : Memory.wf s.mem = true) : Memory.wf (State.endCopy s core id c cause sub info val).mem = true := by
  unfold State.endCopy
  repeat' (first | with_reducible assumption | intro _ | with_reducible apply foldl_wf | with_reducible apply State.deferred_wf | with_reducible apply State.forget_wf | with_reducible apply State.retireCopy_wf | with_reducible apply State.updCore_wf | with_reducible apply foldl_fst_wf | with_reducible apply foldl_snd_wf | dsimp only | split)

theorem State.movePiece_wf (s : State) (core id : Nat) (c : Copy) (index extra : Nat) (hs : Memory.wf s.mem = true) : Memory.wf (State.movePiece s core id c index extra).mem = true := by
  unfold State.movePiece
  repeat' (first | with_reducible assumption | intro _ | with_reducible apply foldl_wf | with_reducible apply State.askSupervisor_wf | with_reducible apply State.endCopy_wf | with_reducible apply State.engineWrite_wf | with_reducible apply State.fetchSegs_wf | with_reducible apply State.fillTlb_wf | with_reducible apply State.recallScratch_wf | with_reducible apply State.reportSegs_wf | with_reducible apply State.reportWalk_wf | with_reducible apply State.send_wf | with_reducible apply State.updCopy_wf | with_reducible apply foldl_fst_wf | with_reducible apply foldl_snd_wf | dsimp only | split)

theorem execCopyPiece_wf (core copy : Nat) (s : State) (hs : Memory.wf s.mem = true) (t' : State) : execCopyPiece core copy s = .next t' → Memory.wf t'.mem = true := by
  unfold execCopyPiece
  intro ht
  (repeat' (first | split at ht | dsimp only at ht)) <;> (injection ht with ht; subst ht) <;> 
  (repeat' (first | with_reducible assumption | intro _ | with_reducible apply foldl_wf | with_reducible apply State.askSupervisor_wf | with_reducible apply State.copy_wf | with_reducible apply State.endCopy_wf | with_reducible apply State.fetchSegs_wf | with_reducible apply State.movePiece_wf | with_reducible apply State.reportSegs_wf | with_reducible apply State.reportWalk_wf | with_reducible apply State.updCopy_wf | with_reducible apply foldl_fst_wf | with_reducible apply foldl_snd_wf | dsimp only | split))

theorem execCopyRetire_wf (core copy : Nat) (s : State) (hs : Memory.wf s.mem = true) (t' : State) : execCopyRetire core copy s = .next t' → Memory.wf t'.mem = true := by
  unfold execCopyRetire
  intro ht
  (repeat' (first | split at ht | dsimp only at ht)) <;> (injection ht with ht; subst ht) <;> 
  (repeat' (first | with_reducible assumption | intro _ | with_reducible apply foldl_wf | with_reducible apply State.copy_wf | with_reducible apply State.retireCopy_wf | with_reducible apply foldl_fst_wf | with_reducible apply foldl_snd_wf | dsimp only | split))

theorem State.setHandle_wf (s : State) (h : Nat) (v : Handle) (hs : Memory.wf s.mem = true) : Memory.wf (State.setHandle s h v).mem = true := by
  unfold State.setHandle
  repeat' (first | with_reducible assumption | intro _ | with_reducible apply foldl_wf | with_reducible apply State.updGroup_wf | with_reducible apply foldl_fst_wf | with_reducible apply foldl_snd_wf | dsimp only | split)

theorem State.handleFault_wf (s : State) (sub : Nat) (c : HandleCheck) (hs : Memory.wf s.mem = true) : Memory.wf (State.handleFault s sub c).mem = true := by
  unfold State.handleFault
  repeat' (first | with_reducible assumption | intro _ | with_reducible apply foldl_wf | with_reducible apply State.precise_wf | with_reducible apply foldl_fst_wf | with_reducible apply foldl_snd_wf | dsimp only | split)

theorem State.checkHandles_wf (s : State) (checks : List HandleCheck) (go : State → State) (hs : Memory.wf s.mem = true) (hgo : ∀ x0, Memory.wf x0.mem = true → Memory.wf (go x0).mem = true) : Memory.wf (State.checkHandles s checks go).mem = true := by
  unfold State.checkHandles
  repeat' (first | with_reducible assumption | intro _ | with_reducible apply foldl_wf | with_reducible apply State.handleFault_wf | with_reducible apply hgo | with_reducible apply foldl_fst_wf | with_reducible apply foldl_snd_wf | dsimp only | split)

theorem execHalloc_wf (m : Mods) (d : BitVec 6) (k : BitVec 2) (s : State) (hs : Memory.wf s.mem = true) (t' : State) : execHalloc m d k s = .next t' → Memory.wf t'.mem = true := by
  unfold execHalloc
  intro ht
  (repeat' (first | split at ht | dsimp only at ht)) <;> (injection ht with ht; subst ht) <;> 
  (repeat' (first | with_reducible assumption | intro _ | with_reducible apply foldl_wf | with_reducible apply State.complete_wf | with_reducible apply State.handleFault_wf | with_reducible apply State.plain_wf | with_reducible apply State.reapSlots_wf | with_reducible apply State.setHandle_wf | with_reducible apply foldl_fst_wf | with_reducible apply foldl_snd_wf | dsimp only | split))

theorem execHrel_wf (m : Mods) (d : BitVec 6) (s : State) (hs : Memory.wf s.mem = true) (t' : State) : execHrel m d s = .next t' → Memory.wf t'.mem = true := by
  unfold execHrel
  intro ht
  (repeat' (first | split at ht | dsimp only at ht)) <;> (injection ht with ht; subst ht) <;> 
  (repeat' (first | with_reducible assumption | intro _ | with_reducible apply foldl_wf | with_reducible apply State.checkHandles_wf | with_reducible apply State.complete_wf | with_reducible apply State.plain_wf | with_reducible apply State.reapSlots_wf | with_reducible apply State.setHandle_wf | with_reducible apply foldl_fst_wf | with_reducible apply foldl_snd_wf | dsimp only | split))

theorem execHgive_wf (m : Mods) (k : BitVec 1) (a n c : BitVec 6) (s : State) (hs : Memory.wf s.mem = true) (t' : State) : execHgive m k a n c s = .next t' → Memory.wf t'.mem = true := by
  unfold execHgive
  intro ht
  (repeat' (first | split at ht | dsimp only at ht)) <;> (injection ht with ht; subst ht) <;> 
  (repeat' (first | with_reducible assumption | intro _ | with_reducible apply foldl_wf | with_reducible apply State.checkHandles_wf | with_reducible apply State.complete_wf | with_reducible apply State.handleFault_wf | with_reducible apply State.plain_wf | with_reducible apply State.setHandle_wf | with_reducible apply State.updTeam_wf | with_reducible apply foldl_fst_wf | with_reducible apply foldl_snd_wf | dsimp only | split))

theorem execHtake_wf (m : Mods) (d c : BitVec 6) (s : State) (hs : Memory.wf s.mem = true) (t' : State) : execHtake m d c s = .next t' → Memory.wf t'.mem = true := by
  unfold execHtake
  intro ht
  (repeat' (first | split at ht | dsimp only at ht)) <;> (injection ht with ht; subst ht) <;> 
  (repeat' (first | with_reducible assumption | intro _ | with_reducible apply foldl_wf | with_reducible apply State.check_wf | with_reducible apply State.complete_wf | with_reducible apply State.handleFault_wf | with_reducible apply State.plain_wf | with_reducible apply State.setHandle_wf | with_reducible apply State.updTeam_wf | with_reducible apply foldl_fst_wf | with_reducible apply foldl_snd_wf | dsimp only | split))

theorem execHinfo_wf (m : Mods) (k : BitVec 4) (a : BitVec 6) (s : State) (hs : Memory.wf s.mem = true) (t' : State) : execHinfo m k a s = .next t' → Memory.wf t'.mem = true := by
  unfold execHinfo
  intro ht
  (repeat' (first | split at ht | dsimp only at ht)) <;> (injection ht with ht; subst ht) <;> 
  (repeat' (first | with_reducible assumption | intro _ | with_reducible apply foldl_wf | with_reducible apply State.complete_wf | with_reducible apply State.plain_wf | with_reducible apply State.setDest_wf | with_reducible apply foldl_fst_wf | with_reducible apply foldl_snd_wf | dsimp only | split))

theorem State.sendTile_wf (s : State) (e : Eff) (o : TileOp) (fresh : Option (Bool × Nat)) (written : Fibre → List Reg) (hs : Memory.wf s.mem = true) : Memory.wf (State.sendTile s e o fresh written).mem = true := by
  unfold State.sendTile
  repeat' (first | with_reducible assumption | intro _ | with_reducible apply foldl_wf | with_reducible apply State.complete_wf | with_reducible apply State.setHandle_wf | with_reducible apply State.updCore_wf | with_reducible apply State.updGroup_wf | with_reducible apply State.wait_wf | with_reducible apply foldl_fst_wf | with_reducible apply foldl_snd_wf | dsimp only | split)

theorem State.tileBase_wf (s : State) (b : BitVec 7) (off : W64) (rowBytes : Nat) (write : Bool) (go : W64 → W64 → State → State) (hs : Memory.wf s.mem = true) (hgo : ∀ x0 x1 x2, Memory.wf x2.mem = true → Memory.wf (go x0 x1 x2).mem = true) : Memory.wf (State.tileBase s b off rowBytes write go).mem = true := by
  unfold State.tileBase
  repeat' (first | with_reducible assumption | intro _ | with_reducible apply foldl_wf | with_reducible apply State.precise_wf | with_reducible apply hgo | with_reducible apply foldl_fst_wf | with_reducible apply foldl_snd_wf | dsimp only | split)

theorem execTld_wf (m : Mods) (f : BitVec 3) (h : BitVec 6) (b : BitVec 7) (p : BitVec 2) (o : BitVec 5) (s : State) (hs : Memory.wf s.mem = true) (t' : State) : execTld m f h b p o s = .next t' → Memory.wf t'.mem = true := by
  unfold execTld
  intro ht
  (repeat' (first | split at ht | dsimp only at ht)) <;> (injection ht with ht; subst ht) <;> 
  (repeat' (first | with_reducible assumption | intro _ | with_reducible apply foldl_wf | with_reducible apply State.checkHandles_wf | with_reducible apply State.plain_wf | with_reducible apply State.sendTile_wf | with_reducible apply State.tileBase_wf | with_reducible apply foldl_fst_wf | with_reducible apply foldl_snd_wf | dsimp only | split))

theorem execTsto_wf (m : Mods) (h : BitVec 6) (b : BitVec 7) (p : BitVec 2) (o : BitVec 5) (s : State) (hs : Memory.wf s.mem = true) (t' : State) : execTsto m h b p o s = .next t' → Memory.wf t'.mem = true := by
  unfold execTsto
  intro ht
  (repeat' (first | split at ht | dsimp only at ht)) <;> (injection ht with ht; subst ht) <;> 
  (repeat' (first | with_reducible assumption | intro _ | with_reducible apply foldl_wf | with_reducible apply State.checkHandles_wf | with_reducible apply State.plain_wf | with_reducible apply State.sendTile_wf | with_reducible apply State.tileBase_wf | with_reducible apply foldl_fst_wf | with_reducible apply foldl_snd_wf | dsimp only | split))

theorem State.scratchBase_wf (s : State) (b : BitVec 7) (off : W64) (tag : Option Nat) (transposed write : Bool) (go : W64 → State → State) (hs : Memory.wf s.mem = true) (hgo : ∀ x0 x1, Memory.wf x1.mem = true → Memory.wf (go x0 x1).mem = true) : Memory.wf (State.scratchBase s b off tag transposed write go).mem = true := by
  unfold State.scratchBase
  repeat' (first | with_reducible assumption | intro _ | with_reducible apply foldl_wf | with_reducible apply State.precise_wf | with_reducible apply hgo | with_reducible apply foldl_fst_wf | with_reducible apply foldl_snd_wf | dsimp only | split)

theorem execTlds_wf (m : Mods) (f : BitVec 3) (h : BitVec 6) (b : BitVec 7) (t : BitVec 1) (o : BitVec 5) (s : State) (hs : Memory.wf s.mem = true) (t' : State) : execTlds m f h b t o s = .next t' → Memory.wf t'.mem = true := by
  unfold execTlds
  intro ht
  (repeat' (first | split at ht | dsimp only at ht)) <;> (injection ht with ht; subst ht) <;> 
  (repeat' (first | with_reducible assumption | intro _ | with_reducible apply foldl_wf | with_reducible apply State.checkHandles_wf | with_reducible apply State.plain_wf | with_reducible apply State.scratchBase_wf | with_reducible apply State.sendTile_wf | with_reducible apply foldl_fst_wf | with_reducible apply foldl_snd_wf | dsimp only | split))

theorem execTsts_wf (m : Mods) (h : BitVec 6) (b : BitVec 7) (t : BitVec 1) (o : BitVec 5) (s : State) (hs : Memory.wf s.mem = true) (t' : State) : execTsts m h b t o s = .next t' → Memory.wf t'.mem = true := by
  unfold execTsts
  intro ht
  (repeat' (first | split at ht | dsimp only at ht)) <;> (injection ht with ht; subst ht) <;> 
  (repeat' (first | with_reducible assumption | intro _ | with_reducible apply foldl_wf | with_reducible apply State.checkHandles_wf | with_reducible apply State.plain_wf | with_reducible apply State.scratchBase_wf | with_reducible apply State.sendTile_wf | with_reducible apply foldl_fst_wf | with_reducible apply foldl_snd_wf | dsimp only | split))

theorem execTzero_wf (m : Mods) (d mo : BitVec 6) (s : State) (hs : Memory.wf s.mem = true) (t' : State) : execTzero m d mo s = .next t' → Memory.wf t'.mem = true := by
  unfold execTzero
  intro ht
  (repeat' (first | split at ht | dsimp only at ht)) <;> (injection ht with ht; subst ht) <;> 
  (repeat' (first | with_reducible assumption | intro _ | with_reducible apply foldl_wf | with_reducible apply State.checkHandles_wf | with_reducible apply State.plain_wf | with_reducible apply State.sendTile_wf | with_reducible apply foldl_fst_wf | with_reducible apply foldl_snd_wf | dsimp only | split))

theorem execTrd_wf (m : Mods) (f : BitVec 3) (d : BitVec 7) (h : BitVec 6) (i : BitVec 7) (s : State) (hs : Memory.wf s.mem = true) (t' : State) : execTrd m f d h i s = .next t' → Memory.wf t'.mem = true := by
  unfold execTrd
  intro ht
  (repeat' (first | split at ht | dsimp only at ht)) <;> (injection ht with ht; subst ht) <;> 
  (repeat' (first | with_reducible assumption | intro _ | with_reducible apply foldl_wf | with_reducible apply State.checkHandles_wf | with_reducible apply State.mapLanes_wf | with_reducible apply State.plain_wf | with_reducible apply State.releaseHolders_wf | with_reducible apply State.sendTile_wf | with_reducible apply foldl_fst_wf | with_reducible apply foldl_snd_wf | dsimp only | split))

theorem execTwr_wf (m : Mods) (f : BitVec 3) (h : BitVec 6) (a i : BitVec 7) (s : State) (hs : Memory.wf s.mem = true) (t' : State) : execTwr m f h a i s = .next t' → Memory.wf t'.mem = true := by
  unfold execTwr
  intro ht
  (repeat' (first | split at ht | dsimp only at ht)) <;> (injection ht with ht; subst ht) <;> 
  (repeat' (first | with_reducible assumption | intro _ | with_reducible apply foldl_wf | with_reducible apply State.check_wf | with_reducible apply State.checkHandles_wf | with_reducible apply State.control_wf | with_reducible apply State.plain_wf | with_reducible apply State.sendTile_wf | with_reducible apply foldl_fst_wf | with_reducible apply foldl_snd_wf | dsimp only | split))

theorem State.sendQuarter_wf (s : State) (z : MatrixIns) (old : Group) (id n : Nat) (hs : Memory.wf s.mem = true) : Memory.wf (State.sendQuarter s z old id n).mem = true := by
  unfold State.sendQuarter
  repeat' (first | with_reducible assumption | intro _ | with_reducible apply foldl_wf | with_reducible apply State.setHandle_wf | with_reducible apply State.updCore_wf | with_reducible apply foldl_fst_wf | with_reducible apply foldl_snd_wf | dsimp only | split)

theorem State.matrix_wf (s : State) (z : MatrixIns) (hs : Memory.wf s.mem = true) : Memory.wf (State.matrix s z).mem = true := by
  unfold State.matrix
  repeat' (first | with_reducible assumption | intro _ | with_reducible apply foldl_wf | with_reducible apply State.checkHandles_wf | with_reducible apply State.complete_wf | with_reducible apply State.plain_wf | with_reducible apply State.sendQuarter_wf | with_reducible apply State.updCore_wf | with_reducible apply State.updGroup_wf | with_reducible apply State.wait_wf | with_reducible apply foldl_fst_wf | with_reducible apply foldl_snd_wf | dsimp only | split)

theorem execMma_wf (m : Mods) (d a b : BitVec 6) (y : BitVec 2) (x : BitVec 3) (s : State) (hs : Memory.wf s.mem = true) (t' : State) : execMma m d a b y x s = .next t' → Memory.wf t'.mem = true := by
  unfold execMma
  intro ht
  (repeat' (first | split at ht | dsimp only at ht)) <;> (injection ht with ht; subst ht) <;> 
  (repeat' (first | with_reducible assumption | intro _ | with_reducible apply foldl_wf | with_reducible apply State.matrix_wf | with_reducible apply foldl_fst_wf | with_reducible apply foldl_snd_wf | dsimp only | split))

theorem execMmas_wf (m : Mods) (d a b : BitVec 6) (y : BitVec 2) (x : BitVec 3) (s : State) (hs : Memory.wf s.mem = true) (t' : State) : execMmas m d a b y x s = .next t' → Memory.wf t'.mem = true := by
  unfold execMmas
  intro ht
  (repeat' (first | split at ht | dsimp only at ht)) <;> (injection ht with ht; subst ht) <;> 
  (repeat' (first | with_reducible assumption | intro _ | with_reducible apply foldl_wf | with_reducible apply State.matrix_wf | with_reducible apply foldl_fst_wf | with_reducible apply foldl_snd_wf | dsimp only | split))

theorem execMmac_wf (m : Mods) (d a b : BitVec 6) (h : BitVec 1) (x : BitVec 3) (s : State) (hs : Memory.wf s.mem = true) (t' : State) : execMmac m d a b h x s = .next t' → Memory.wf t'.mem = true := by
  unfold execMmac
  intro ht
  (repeat' (first | split at ht | dsimp only at ht)) <;> (injection ht with ht; subst ht) <;> 
  (repeat' (first | with_reducible assumption | intro _ | with_reducible apply foldl_wf | with_reducible apply State.matrix_wf | with_reducible apply foldl_fst_wf | with_reducible apply foldl_snd_wf | dsimp only | split))

theorem execTscl_wf (m : Mods) (d a ex : BitVec 6) (s : State) (hs : Memory.wf s.mem = true) (t' : State) : execTscl m d a ex s = .next t' → Memory.wf t'.mem = true := by
  unfold execTscl
  intro ht
  (repeat' (first | split at ht | dsimp only at ht)) <;> (injection ht with ht; subst ht) <;> 
  (repeat' (first | with_reducible assumption | intro _ | with_reducible apply foldl_wf | with_reducible apply State.matrix_wf | with_reducible apply foldl_fst_wf | with_reducible apply foldl_snd_wf | dsimp only | split))

theorem execTacc_wf (m : Mods) (d a b : BitVec 6) (s : State) (hs : Memory.wf s.mem = true) (t' : State) : execTacc m d a b s = .next t' → Memory.wf t'.mem = true := by
  unfold execTacc
  intro ht
  (repeat' (first | split at ht | dsimp only at ht)) <;> (injection ht with ht; subst ht) <;> 
  (repeat' (first | with_reducible assumption | intro _ | with_reducible apply foldl_wf | with_reducible apply State.matrix_wf | with_reducible apply foldl_fst_wf | with_reducible apply foldl_snd_wf | dsimp only | split))

theorem State.endTile_wf (s : State) (core id : Nat) (o : TileOp) (hs : Memory.wf s.mem = true) : Memory.wf (State.endTile s core id o).mem = true := by
  unfold State.endTile
  repeat' (first | with_reducible assumption | intro _ | with_reducible apply foldl_wf | with_reducible apply State.deferred_wf | with_reducible apply State.reapSlots_wf | with_reducible apply State.updCore_wf | with_reducible apply State.updGroup_wf | with_reducible apply foldl_fst_wf | with_reducible apply foldl_snd_wf | dsimp only | split)

theorem State.failTile_wf (s : State) (core id : Nat) (o : TileOp) (cause sub info : Nat) (val : W64) (hs : Memory.wf s.mem = true) : Memory.wf (State.failTile s core id o cause sub info val).mem = true := by
  unfold State.failTile
  repeat' (first | with_reducible assumption | intro _ | with_reducible apply foldl_wf | with_reducible apply State.deferred_wf | with_reducible apply State.endTile_wf | with_reducible apply State.forget_wf | with_reducible apply State.takeBack_wf | with_reducible apply foldl_fst_wf | with_reducible apply foldl_snd_wf | dsimp only | split)

theorem State.failRows_wf (s : State) (core id : Nat) (o : TileOp) (cause sub info : Nat) (va : W64) (hs : Memory.wf s.mem = true) : Memory.wf (State.failRows s core id o cause sub info va).mem = true := by
  unfold State.failRows
  repeat' (first | with_reducible assumption | intro _ | with_reducible apply foldl_wf | with_reducible apply State.failTile_wf | with_reducible apply State.reportWalk_wf | with_reducible apply foldl_fst_wf | with_reducible apply foldl_snd_wf | dsimp only | split)

theorem State.fillSlot_wf {s t : State} {core new : Nat} {data side : List Byte} {poison : Bool} {bound : Option Binding} (hs : Memory.wf s.mem = true)
    (h : s.fillSlot core new data side poison bound = some t) : Memory.wf t.mem = true := by
  unfold State.fillSlot at h
  dsimp only at h
  split at h
  · injection h with h; exact h ▸ hs
  · split at h
    · injection h with h; subst h; exact hs
    · obtain ⟨u, hu, h⟩ := Option.map_eq_some_iff.1 h
      subst h; exact State.updSlot_wf _ _ _ (State.makeRoom_wf hs hu)

theorem State.fillSlot_getD_wf (s : State) (core new : Nat) (data side : List Byte) (poison : Bool) (bound : Option Binding) (hs : Memory.wf s.mem = true) :
    Memory.wf ((s.fillSlot core new data side poison bound).getD s).mem = true := by
  cases h : s.fillSlot core new data side poison bound with
  | none => exact hs
  | some t => exact State.fillSlot_wf hs h

theorem State.pinLines_wf {d : Nat} (l : List (Nat × Nat)) {s t : State} (hs : Memory.wf s.mem = true) (h : s.pinLines d l = some t) : Memory.wf t.mem = true := by
  induction l generalizing s with
  | nil => injection h with h; exact h ▸ hs
  | cons la rest ih =>
    unfold State.pinLines at h
    dsimp only at h
    split at h
    · cases h
    · split at h
      · cases h
      · exact ih (State.updDie_wf _ _ _ (State.l2Fetch_wf _ _ _ _ _ hs)) h

theorem State.bindTile_wf {s : State} {core pol geo : Nat} {l : List Piece} {r : State × Binding} (hs : Memory.wf s.mem = true) (h : s.bindTile core pol geo l = some r) :
    Memory.wf r.1.mem = true := by
  unfold State.bindTile at h
  dsimp only at h
  split at h
  · obtain ⟨u, hu, h⟩ := Option.map_eq_some_iff.1 h
    subst h; exact State.pinLines_wf _ hs hu
  · cases h

theorem State.warnGroup_wf (s : State) (g : Nat) (w : W32) (hs : Memory.wf s.mem = true) : Memory.wf (State.warnGroup s g w).mem = true := by
  unfold State.warnGroup
  repeat' (first | with_reducible assumption | intro _ | with_reducible apply foldl_wf | with_reducible apply State.updGroup_wf | with_reducible apply State.warn_wf | with_reducible apply foldl_fst_wf | with_reducible apply foldl_snd_wf | dsimp only | split)

theorem State.loadTile_wf (s : State) (core id : Nat) (o : TileOp) (geo : Nat) (l : List Piece) (hs : Memory.wf s.mem = true) : Memory.wf (s.loadTile core id o geo l).mem = true := by
  unfold State.loadTile
  dsimp only
  have h1 := fun w => State.warnGroup_wf s o.g w hs
  split
  · next hb =>
    apply State.endTile_wf
    apply State.fillSlot_getD_wf
    split at hb
    · exact State.bindTile_wf (h1 _) hb
    · cases hb
  · have h2 : ∀ t : State, Memory.wf t.mem = true → Memory.wf (l.foldl (fun t q => (pieceLines [q]).foldl (fun t la => t.readLine (dieOf core) la (polIn q.page o.pol) q.page.l2Ok q.page.conf) t) t).mem = true :=
      fun t ht => foldl_wf _ _ _ ht (fun t q h => foldl_wf _ _ _ h (fun t la h => State.readLine_wf _ _ _ _ _ _ h))
    split
    · next hf => exact State.endTile_wf _ _ _ _ (State.fillSlot_wf (h2 _ (State.reportReads_wf _ _ _ _ (h1 _))) hf)
    · exact h2 _ (State.reportReads_wf _ _ _ _ (h1 _))

theorem State.performTld_wf (s : State) (core id : Nat) (o : TileOp) (hs : Memory.wf s.mem = true) : Memory.wf (State.performTld s core id o).mem = true := by
  unfold State.performTld
  repeat' (first | with_reducible assumption | intro _ | with_reducible apply foldl_wf | with_reducible apply State.askSupervisor_wf | with_reducible apply State.failRows_wf | with_reducible apply State.fault_wf | with_reducible apply State.loadTile_wf | with_reducible apply State.send_wf | refine State.makeRoom_wf ?_ (by with_reducible assumption) | refine State.bindTile_wf ?_ (by with_reducible assumption) | with_reducible apply foldl_fst_wf | with_reducible apply foldl_snd_wf | dsimp only | split)

theorem State.clearMark_wf (s : State) (core la : Nat) (hs : Memory.wf s.mem = true) : Memory.wf (State.clearMark s core la).mem = true := by
  unfold State.clearMark
  repeat' (first | with_reducible assumption | intro _ | with_reducible apply foldl_wf | with_reducible apply State.updDie_wf | with_reducible apply foldl_fst_wf | with_reducible apply foldl_snd_wf | dsimp only | split)

theorem State.performTsto_wf (s : State) (core id : Nat) (o : TileOp) (hs : Memory.wf s.mem = true) : Memory.wf (State.performTsto s core id o).mem = true := by
  unfold State.performTsto
  repeat' (first | with_reducible assumption | intro _ | with_reducible apply foldl_wf | with_reducible apply State.askSupervisor_wf | with_reducible apply State.clearMark_wf | with_reducible apply State.endTile_wf | with_reducible apply State.engineWrite_wf | with_reducible apply State.failRows_wf | with_reducible apply State.failTile_wf | with_reducible apply State.fault_wf | with_reducible apply State.publish_wf | with_reducible apply State.reportWrites_wf | with_reducible apply State.send_wf | with_reducible apply State.touchSlot_wf | with_reducible apply State.warnGroup_wf | with_reducible apply foldl_fst_wf | with_reducible apply foldl_snd_wf | dsimp only | split)

theorem State.recallTile_wf (s : State) (core ctx : Nat) (offs : List Nat) (hs : Memory.wf s.mem = true) : Memory.wf (State.recallTile s core ctx offs).mem = true := by
  unfold State.recallTile
  repeat' (first | with_reducible assumption | intro _ | with_reducible apply foldl_wf | with_reducible apply State.recallScratch_wf | with_reducible apply foldl_fst_wf | with_reducible apply foldl_snd_wf | dsimp only | split)

theorem State.performTlds_wf (s : State) (core id : Nat) (o : TileOp) (hs : Memory.wf s.mem = true) : Memory.wf (State.performTlds s core id o).mem = true := by
  unfold State.performTlds
  repeat' (first | with_reducible assumption | intro _ | with_reducible apply foldl_wf | with_reducible apply State.endTile_wf | with_reducible apply State.recallTile_wf | refine State.fillSlot_wf ?_ (by with_reducible assumption) | with_reducible apply foldl_fst_wf | with_reducible apply foldl_snd_wf | dsimp only | split)

theorem State.performTsts_wf (s : State) (core id : Nat) (o : TileOp) (hs : Memory.wf s.mem = true) : Memory.wf (State.performTsts s core id o).mem = true := by
  unfold State.performTsts
  repeat' (first | with_reducible assumption | intro _ | with_reducible apply foldl_wf | with_reducible apply State.endTile_wf | with_reducible apply State.failTile_wf | with_reducible apply State.recallTile_wf | with_reducible apply State.scratchWrite_wf | with_reducible apply State.touchSlot_wf | with_reducible apply State.updCore_wf | with_reducible apply foldl_fst_wf | with_reducible apply foldl_snd_wf | dsimp only | split)

theorem State.performTzero_wf (s : State) (core id : Nat) (o : TileOp) (hs : Memory.wf s.mem = true) : Memory.wf (State.performTzero s core id o).mem = true := by
  unfold State.performTzero
  repeat' (first | with_reducible assumption | intro _ | with_reducible apply foldl_wf | with_reducible apply State.endTile_wf | refine State.fillSlot_wf ?_ (by with_reducible assumption) | with_reducible apply foldl_fst_wf | with_reducible apply foldl_snd_wf | dsimp only | split)

theorem State.performTrd_wf (s : State) (core id : Nat) (o : TileOp) (hs : Memory.wf s.mem = true) : Memory.wf (State.performTrd s core id o).mem = true := by
  unfold State.performTrd
  repeat' (first | with_reducible assumption | intro _ | with_reducible apply foldl_wf | with_reducible apply State.endTile_wf | with_reducible apply State.landReg_wf | with_reducible apply State.settleGm_wf | with_reducible apply State.touchSlot_wf | with_reducible apply foldl_fst_wf | with_reducible apply foldl_snd_wf | dsimp only | split)

theorem State.performTwr_wf (s : State) (core id : Nat) (o : TileOp) (hs : Memory.wf s.mem = true) : Memory.wf (State.performTwr s core id o).mem = true := by
  unfold State.performTwr
  repeat' (first | with_reducible assumption | intro _ | with_reducible apply foldl_wf | with_reducible apply State.endTile_wf | with_reducible apply State.touchSlot_wf | refine State.fillSlot_wf ?_ (by with_reducible assumption) | with_reducible apply foldl_fst_wf | with_reducible apply foldl_snd_wf | dsimp only | split)

theorem State.updQuarter_wf (s : State) (core id n : Nat) (f : Quarter → Quarter) (hs : Memory.wf s.mem = true) : Memory.wf (State.updQuarter s core id n f).mem = true := by
  unfold State.updQuarter
  repeat' (first | with_reducible assumption | intro _ | with_reducible apply foldl_wf | with_reducible apply State.updCore_wf | with_reducible apply foldl_fst_wf | with_reducible apply foldl_snd_wf | dsimp only | split)

theorem State.thaw_wf (s : State) (ctx id n : Nat) (hs : Memory.wf s.mem = true) : Memory.wf (State.thaw s ctx id n).mem = true := by
  unfold State.thaw
  repeat' (first | with_reducible assumption | intro _ | with_reducible apply foldl_wf | with_reducible apply foldl_fst_wf | with_reducible apply foldl_snd_wf | dsimp only | split)

theorem State.runQuarter_wf (s : State) (core id n : Nat) (paid : Bool) (hs : Memory.wf s.mem = true) : Memory.wf (State.runQuarter s core id n paid).mem = true := by
  unfold State.runQuarter
  repeat' (first | with_reducible assumption | intro _ | with_reducible apply foldl_wf | with_reducible apply State.deferred_wf | with_reducible apply State.send_wf | with_reducible apply State.takeBack_wf | with_reducible apply State.thaw_wf | with_reducible apply State.touchSlot_wf | with_reducible apply State.updCore_wf | with_reducible apply State.updQuarter_wf | with_reducible apply State.warnGroup_wf | refine State.makeRoom_wf ?_ (by with_reducible assumption) | refine State.fillSlot_wf ?_ (by with_reducible assumption) | with_reducible apply foldl_fst_wf | with_reducible apply foldl_snd_wf | dsimp only | split)

theorem passStep_wf (core : Nat) (r : State × Bool) (k : Nat) (hs : Memory.wf r.1.mem = true) : Memory.wf (passStep core r k).1.mem = true := by
  unfold passStep
  repeat' (first | with_reducible exact hs | with_reducible apply State.runQuarter_wf | dsimp only | split)

theorem execMatrixPass_wf (core : Nat) (quarters : List Nat) (s : State) (hs : Memory.wf s.mem = true) (t' : State) : execMatrixPass core quarters s = .next t' → Memory.wf t'.mem = true := by
  suffices h : NextWf (execMatrixPass core quarters s) from h t'
  unfold execMatrixPass
  repeat' (first | with_reducible assumption | with_reducible apply nextWf_next | with_reducible apply foldl_fst_wf | (with_reducible refine fun t a h => ?_) | with_reducible apply passStep_wf | dsimp only | split)

theorem execTileOperationRetire_wf (core op : Nat) (s : State) (hs : Memory.wf s.mem = true) (t' : State) : execTileOperationRetire core op s = .next t' → Memory.wf t'.mem = true := by
  unfold execTileOperationRetire
  intro ht
  (repeat' (first | split at ht | dsimp only at ht)) <;> (injection ht with ht; subst ht) <;> 
  (repeat' (first | with_reducible assumption | intro _ | with_reducible apply foldl_wf | with_reducible apply State.endTile_wf | with_reducible apply State.performTld_wf | with_reducible apply State.performTlds_wf | with_reducible apply State.performTrd_wf | with_reducible apply State.performTsto_wf | with_reducible apply State.performTsts_wf | with_reducible apply State.performTwr_wf | with_reducible apply State.performTzero_wf | with_reducible apply foldl_fst_wf | with_reducible apply foldl_snd_wf | dsimp only | split))

theorem State.dropTlb_wf (s : State) (ctx : Nat) (va : W64) (len : Nat) (hs : Memory.wf s.mem = true) : Memory.wf (State.dropTlb s ctx va len).mem = true := by
  unfold State.dropTlb
  repeat' (first | with_reducible assumption | intro _ | with_reducible apply foldl_wf | with_reducible apply foldl_fst_wf | with_reducible apply foldl_snd_wf | dsimp only | split)

theorem State.publishCopies_wf (s : State) (ctx : Nat) (hs : Memory.wf s.mem = true) : Memory.wf (State.publishCopies s ctx).mem = true := by
  unfold State.publishCopies
  repeat' (first | with_reducible assumption | intro _ | with_reducible apply foldl_wf | with_reducible apply State.publish_wf | with_reducible apply foldl_fst_wf | with_reducible apply foldl_snd_wf | dsimp only | split)

theorem State.endCopies_wf (s : State) (ctx : Nat) (hs : Memory.wf s.mem = true) : Memory.wf (State.endCopies s ctx).mem = true := by
  unfold State.endCopies
  repeat' (first | with_reducible assumption | intro _ | with_reducible apply foldl_wf | with_reducible apply State.keep_wf | with_reducible apply State.publishCopies_wf | with_reducible apply foldl_fst_wf | with_reducible apply foldl_snd_wf | dsimp only | split)

theorem State.writeCompletion_getD_wf (s : State) (ctx : Nat) (r : Grid) (status : Nat) (hs : Memory.wf s.mem = true) :
    Memory.wf ((s.writeCompletion ctx r status).getD s).mem = true := by
  cases h : s.writeCompletion ctx r status with
  | none => exact hs
  | some t => exact State.writeCompletion_wf hs h

theorem execContextEnd_wf (ctx : Nat) (s : State) (hs : Memory.wf s.mem = true) (t' : State) : execContextEnd ctx s = .next t' → Memory.wf t'.mem = true := by
  suffices h : NextWf (execContextEnd ctx s) from h t'
  unfold execContextEnd
  repeat' (first | with_reducible assumption | with_reducible apply nextWf_next | with_reducible apply State.askSupervisor_wf | with_reducible apply foldl_wf | with_reducible apply State.removeContext_wf | with_reducible apply State.writeCompletion_getD_wf | with_reducible apply State.readTail_wf | with_reducible apply State.endCopies_wf | dsimp only | split | (with_reducible refine fun _ _ _ => ?_))

theorem execInvalidation_wf (ctx : Nat) (va : W64) (len : Nat) (writes : List (Nat × W64)) (s : State) (hs : Memory.wf s.mem = true) (t' : State) : execInvalidation ctx va len writes s = .next t' → Memory.wf t'.mem = true := by
  unfold execInvalidation
  intro ht
  (repeat' (first | split at ht | dsimp only at ht)) <;> (injection ht with ht; subst ht) <;> 
  (repeat' (first | with_reducible assumption | intro _ | with_reducible apply foldl_wf | with_reducible apply State.dropTlb_wf | with_reducible apply State.publishCopies_wf | with_reducible apply State.sysWrite_wf | with_reducible apply foldl_fst_wf | with_reducible apply foldl_snd_wf | dsimp only | split))

theorem State.flipCopies_wf (s : State) (ctx : Nat) (va : W64) (len : Nat) (on : Bool) (hs : Memory.wf s.mem = true) : Memory.wf (State.flipCopies s ctx va len on).mem = true := by
  unfold State.flipCopies
  repeat' (first | with_reducible assumption | intro _ | with_reducible apply foldl_wf | with_reducible apply foldl_fst_wf | with_reducible apply foldl_snd_wf | dsimp only | split)

theorem State.evictLine_wf (s : State) (la : Nat) (hs : Memory.wf s.mem = true) : Memory.wf (State.evictLine s la).mem = true := by
  unfold State.evictLine
  repeat' (first | with_reducible assumption | intro _ | with_reducible apply foldl_wf | with_reducible apply State.cleanAll_wf | with_reducible apply State.install_wf | with_reducible apply State.reportDies_wf | with_reducible apply foldl_fst_wf | with_reducible apply foldl_snd_wf | dsimp only | split)

theorem execBiasFlip_wf (ctx : Nat) (va : W64) (bias : Bool) (s : State) (hs : Memory.wf s.mem = true) (t' : State) : execBiasFlip ctx va bias s = .next t' → Memory.wf t'.mem = true := by
  unfold execBiasFlip
  intro ht
  (repeat' (first | split at ht | dsimp only at ht)) <;> (injection ht with ht; subst ht) <;> 
  (repeat' (first | with_reducible assumption | intro _ | with_reducible apply foldl_wf | with_reducible apply State.dropTlb_wf | with_reducible apply State.evictLine_wf | with_reducible apply State.flipCopies_wf | with_reducible apply State.keep_wf | with_reducible apply State.publishCopies_wf | with_reducible apply State.sysWrite_wf | with_reducible apply foldl_fst_wf | with_reducible apply foldl_snd_wf | dsimp only | split))

theorem State.sealHost_wf (s : State) (key : Option Nat) (a n : Nat) (hs : Memory.wf s.mem = true) : Memory.wf (State.sealHost s key a n).mem = true := by
  unfold State.sealHost
  repeat' (first | with_reducible assumption | intro _ | with_reducible apply foldl_wf | with_reducible apply State.sealFor_wf | with_reducible apply foldl_fst_wf | with_reducible apply foldl_snd_wf | dsimp only | split)

theorem State.answerHost_wf (s : State) (a n : Nat) (hs : Memory.wf s.mem = true) : Memory.wf (State.answerHost s a n).mem = true := by
  unfold State.answerHost
  repeat' (first | with_reducible assumption | intro _ | with_reducible apply foldl_wf | with_reducible apply foldl_fst_wf | with_reducible apply foldl_snd_wf | dsimp only | split)

theorem execHostSharedRequest_wf (addr : Nat) (s : State) (hs : Memory.wf s.mem = true) (t' : State) : execHostSharedRequest addr s = .next t' → Memory.wf t'.mem = true := by
  unfold execHostSharedRequest
  intro ht
  (repeat' (first | split at ht | dsimp only at ht)) <;> (injection ht with ht; subst ht) <;> 
  (repeat' (first | with_reducible assumption | intro _ | with_reducible apply foldl_wf | with_reducible apply State.answerHost_wf | with_reducible apply State.cleanAll_wf | with_reducible apply foldl_fst_wf | with_reducible apply foldl_snd_wf | dsimp only | split))

theorem execHostExclusiveRequest_wf (addr : Nat) (s : State) (hs : Memory.wf s.mem = true) (t' : State) : execHostExclusiveRequest addr s = .next t' → Memory.wf t'.mem = true := by
  unfold execHostExclusiveRequest
  intro ht
  (repeat' (first | split at ht | dsimp only at ht)) <;> (injection ht with ht; subst ht) <;> 
  (repeat' (first | with_reducible assumption | intro _ | with_reducible apply foldl_wf | with_reducible apply State.answerHost_wf | with_reducible apply State.evictLine_wf | with_reducible apply foldl_fst_wf | with_reducible apply foldl_snd_wf | dsimp only | split))

theorem execHostWriteBack_wf (addr : Nat) (data : List Byte) (poisoned : Bool) (s : State) (hs : Memory.wf s.mem = true) (t' : State) : execHostWriteBack addr data poisoned s = .next t' → Memory.wf t'.mem = true := by
  unfold execHostWriteBack
  intro ht
  (repeat' (first | split at ht | dsimp only at ht)) <;> (injection ht with ht; subst ht) <;> 
  (repeat' (first | with_reducible assumption | intro _ | with_reducible apply foldl_wf | with_reducible apply State.sealHost_wf | with_reducible apply State.sysWrite_wf | with_reducible apply foldl_fst_wf | with_reducible apply foldl_snd_wf | dsimp only | split))

theorem execHostMemoryAccess_wf (addr len : Nat) (data : List Byte) (s : State) (hs : Memory.wf s.mem = true) (t' : State) : execHostMemoryAccess addr len data s = .next t' → Memory.wf t'.mem = true := by
  unfold execHostMemoryAccess
  intro ht
  (repeat' (first | split at ht | dsimp only at ht)) <;> (injection ht with ht; subst ht) <;> 
  (repeat' (first | with_reducible assumption | intro _ | with_reducible apply foldl_wf | with_reducible apply State.answerHost_wf | with_reducible apply State.cleanAll_wf | with_reducible apply State.sealHost_wf | with_reducible apply State.sysWrite_wf | with_reducible apply foldl_fst_wf | with_reducible apply foldl_snd_wf | dsimp only | split))

theorem execRdmaAccess_wf (vf addr len : Nat) (data : List Byte) (s : State) (hs : Memory.wf s.mem = true) (t' : State) : execRdmaAccess vf addr len data s = .next t' → Memory.wf t'.mem = true := by
  unfold execRdmaAccess
  intro ht
  (repeat' (first | split at ht | dsimp only at ht)) <;> (injection ht with ht; subst ht) <;> 
  (repeat' (first | with_reducible assumption | intro _ | with_reducible apply foldl_wf | with_reducible apply State.sealFor_wf | with_reducible apply State.sysWrite_wf | with_reducible apply foldl_fst_wf | with_reducible apply foldl_snd_wf | dsimp only | split))

theorem execDieLinkRequest_wf (src dst kind addr : Nat) (data : List Byte) (s : State) (hs : Memory.wf s.mem = true) (t' : State) : execDieLinkRequest src dst kind addr data s = .next t' → Memory.wf t'.mem = true := by
  unfold execDieLinkRequest
  intro ht
  (repeat' (first | split at ht | dsimp only at ht)) <;> (injection ht with ht; subst ht) <;> 
  (repeat' (first | with_reducible assumption | intro _ | with_reducible apply foldl_wf | with_reducible apply State.cleanLine_wf | with_reducible apply State.invalidateL1s_wf | with_reducible apply State.l2Fetch_wf | with_reducible apply State.reportSupervisor_wf | with_reducible apply State.sysWrite_wf | with_reducible apply State.updDie_wf | with_reducible apply foldl_fst_wf | with_reducible apply foldl_snd_wf | dsimp only | split))

theorem State.reportLine_wf (s : State) (type la : Nat) (hs : Memory.wf s.mem = true) : Memory.wf (State.reportLine s type la).mem = true := by
  unfold State.reportLine
  repeat' (first | with_reducible assumption | intro _ | with_reducible apply foldl_wf | with_reducible apply State.report_wf | with_reducible apply State.reportSupervisor_wf | with_reducible apply foldl_fst_wf | with_reducible apply foldl_snd_wf | dsimp only | split)

theorem State.loseLine_wf (s : State) (la : Nat) (hs : Memory.wf s.mem = true) : Memory.wf (State.loseLine s la).mem = true := by
  unfold State.loseLine
  repeat' (first | with_reducible assumption | intro _ | with_reducible apply foldl_wf | with_reducible apply State.writeLine_wf | with_reducible apply foldl_fst_wf | with_reducible apply foldl_snd_wf | dsimp only | split)

theorem execUncorrectableMemoryError_wf (addr : Nat) (s : State) (hs : Memory.wf s.mem = true) (t' : State) : execUncorrectableMemoryError addr s = .next t' → Memory.wf t'.mem = true := by
  unfold execUncorrectableMemoryError
  intro ht
  (repeat' (first | split at ht | dsimp only at ht)) <;> (injection ht with ht; subst ht) <;> 
  (repeat' (first | with_reducible assumption | intro _ | with_reducible apply foldl_wf | with_reducible apply State.loseLine_wf | with_reducible apply State.reportLine_wf | with_reducible apply foldl_fst_wf | with_reducible apply foldl_snd_wf | dsimp only | split))

theorem execCorrectedMemoryError_wf (addr : Nat) (s : State) (hs : Memory.wf s.mem = true) (t' : State) : execCorrectedMemoryError addr s = .next t' → Memory.wf t'.mem = true := by
  unfold execCorrectedMemoryError
  intro ht
  (repeat' (first | split at ht | dsimp only at ht)) <;> (injection ht with ht; subst ht) <;> 
  (repeat' (first | with_reducible assumption | intro _ | with_reducible apply foldl_wf | with_reducible apply State.reportLine_wf | with_reducible apply foldl_fst_wf | with_reducible apply foldl_snd_wf | dsimp only | split))

theorem State.fabric_wf (s : State) (z : FabricIns) (go : Eff → State → State) (hs : Memory.wf s.mem = true) (hgo : ∀ x0 x1, Memory.wf x1.mem = true → Memory.wf (go x0 x1).mem = true) : Memory.wf (State.fabric s z go).mem = true := by
  unfold State.fabric
  repeat' (first | with_reducible assumption | intro _ | with_reducible apply foldl_wf | with_reducible apply State.controlUnit_wf | with_reducible apply State.plain_wf | with_reducible apply State.precise_wf | with_reducible apply hgo | with_reducible apply foldl_fst_wf | with_reducible apply foldl_snd_wf | dsimp only | split)

theorem State.readAtIssue_wf (s : State) (va : W64) (n : Nat) (go : List Byte → State → State) (hs : Memory.wf s.mem = true) (hgo : ∀ x0 x1, Memory.wf x1.mem = true → Memory.wf (go x0 x1).mem = true) : Memory.wf (State.readAtIssue s va n go).mem = true := by
  unfold State.readAtIssue
  repeat' (first | with_reducible assumption | intro _ | with_reducible apply foldl_wf | with_reducible apply State.fillTlb_wf | with_reducible apply State.memFault_wf | with_reducible apply State.precise_wf | with_reducible apply State.readLine_wf | with_reducible apply State.reportReads_wf | with_reducible apply State.throughPort_wf | with_reducible apply State.waitReplay_wf | with_reducible apply State.walkPoison_wf | with_reducible apply hgo | with_reducible apply foldl_fst_wf | with_reducible apply foldl_snd_wf | dsimp only | split)

theorem State.writeStatus_wf (s : State) (ctx : Nat) (addr : W64) (status : Nat) (hs : Memory.wf s.mem = true) : Memory.wf (State.writeStatus s ctx addr status).mem = true := by
  unfold State.writeStatus
  repeat' (first | with_reducible assumption | intro _ | with_reducible apply foldl_wf | with_reducible apply State.deviceWrite_wf | with_reducible apply foldl_fst_wf | with_reducible apply foldl_snd_wf | dsimp only | split)

theorem execColl_wf (m : Mods) (d a : BitVec 7) (s : State) (hs : Memory.wf s.mem = true) (t' : State) : execColl m d a s = .next t' → Memory.wf t'.mem = true := by
  unfold execColl
  intro ht
  (repeat' (first | split at ht | dsimp only at ht)) <;> (injection ht with ht; subst ht) <;> 
  (repeat' (first | with_reducible assumption | intro _ | with_reducible apply foldl_wf | with_reducible apply State.complete_wf | with_reducible apply State.fabric_wf | with_reducible apply State.readAtIssue_wf | with_reducible apply State.setDest_wf | with_reducible apply State.writeStatus_wf | with_reducible apply foldl_fst_wf | with_reducible apply foldl_snd_wf | dsimp only | split))

theorem State.endCall_wf (s : State) (id : Nat) (c : Call) (status : Nat) (hs : Memory.wf s.mem = true) : Memory.wf (State.endCall s id c status).mem = true := by
  unfold State.endCall
  repeat' (first | with_reducible assumption | intro _ | with_reducible apply foldl_wf | with_reducible apply State.writeStatus_wf | with_reducible apply foldl_fst_wf | with_reducible apply foldl_snd_wf | dsimp only | split)

theorem State.failCall_wf (s : State) (id : Nat) (c : Call) (cause sub info : Nat) (va : W64) (hs : Memory.wf s.mem = true) : Memory.wf (State.failCall s id c cause sub info va).mem = true := by
  unfold State.failCall
  repeat' (first | with_reducible assumption | intro _ | with_reducible apply foldl_wf | with_reducible apply State.deferred_wf | with_reducible apply State.endCall_wf | with_reducible apply State.forget_wf | with_reducible apply foldl_fst_wf | with_reducible apply foldl_snd_wf | dsimp only | split)

theorem State.updCall_wf (s : State) (id : Nat) (f : Call → Call) (hs : Memory.wf s.mem = true) : Memory.wf (State.updCall s id f).mem = true := by
  unfold State.updCall
  repeat' (first | with_reducible assumption | intro _ | with_reducible apply foldl_wf | with_reducible apply foldl_fst_wf | with_reducible apply foldl_snd_wf | dsimp only | split)

theorem State.callPiece_wf (s : State) (id : Nat) (c : Call) (kind : Kind) (p : W64 × Nat) (go : List Seg → State → State) (hs : Memory.wf s.mem = true) (hgo : ∀ x0 x1, Memory.wf x1.mem = true → Memory.wf (go x0 x1).mem = true) : Memory.wf (State.callPiece s id c kind p go).mem = true := by
  unfold State.callPiece
  repeat' (first | with_reducible assumption | intro _ | with_reducible apply foldl_wf | with_reducible apply State.askSupervisor_wf | with_reducible apply State.failCall_wf | with_reducible apply State.reportSegs_wf | with_reducible apply State.reportWalk_wf | with_reducible apply State.send_wf | with_reducible apply hgo | with_reducible apply foldl_fst_wf | with_reducible apply foldl_snd_wf | dsimp only | split)

theorem State.readPiece_wf (s : State) (id : Nat) (c : Call) (hs : Memory.wf s.mem = true) : Memory.wf (State.readPiece s id c).mem = true := by
  unfold State.readPiece
  repeat' (first | with_reducible assumption | intro _ | with_reducible apply foldl_wf | with_reducible apply State.callPiece_wf | with_reducible apply State.fetchSegs_wf | with_reducible apply State.updCall_wf | with_reducible apply foldl_fst_wf | with_reducible apply foldl_snd_wf | dsimp only | split)

theorem State.finishCall_wf (s : State) (id : Nat) (c : Call) (hs : Memory.wf s.mem = true) : Memory.wf (State.finishCall s id c).mem = true := by
  unfold State.finishCall
  repeat' (first | with_reducible assumption | intro _ | with_reducible apply foldl_wf | with_reducible apply State.deferred_wf | with_reducible apply State.endCall_wf | with_reducible apply foldl_fst_wf | with_reducible apply foldl_snd_wf | dsimp only | split)

theorem State.writePiece_wf (s : State) (id : Nat) (c : Call) (ranks : Nat) (out : List (Byte × Bool)) (hs : Memory.wf s.mem = true) : Memory.wf (State.writePiece s id c ranks out).mem = true := by
  unfold State.writePiece
  repeat' (first | with_reducible assumption | intro _ | with_reducible apply foldl_wf | with_reducible apply State.callPiece_wf | with_reducible apply State.engineWrite_wf | with_reducible apply State.finishCall_wf | with_reducible apply State.publish_wf | with_reducible apply State.updCall_wf | with_reducible apply foldl_fst_wf | with_reducible apply foldl_snd_wf | dsimp only | split)

theorem State.sendPut_wf (s : State) (id : Nat) (c : Call) (m : Comm) (hs : Memory.wf s.mem = true) : Memory.wf (State.sendPut s id c m).mem = true := by
  unfold State.sendPut
  repeat' (first | with_reducible assumption | intro _ | with_reducible apply foldl_wf | with_reducible apply State.updCall_wf | with_reducible apply foldl_fst_wf | with_reducible apply foldl_snd_wf | dsimp only | split)

theorem State.advanceCall_wf (s : State) (id : Nat) (c : Call) (m : Comm) (hs : Memory.wf s.mem = true) : Memory.wf (State.advanceCall s id c m).mem = true := by
  unfold State.advanceCall
  repeat' (first | with_reducible assumption | intro _ | with_reducible apply foldl_wf | with_reducible apply State.readPiece_wf | with_reducible apply State.sendPut_wf | with_reducible apply State.writePiece_wf | with_reducible apply foldl_fst_wf | with_reducible apply foldl_snd_wf | dsimp only | split)

theorem State.joinCall_wf (s : State) (id : Nat) (c : Call) (m : Comm) (others : List (Nat × List Byte)) (hs : Memory.wf s.mem = true) : Memory.wf (State.joinCall s id c m others).mem = true := by
  unfold State.joinCall
  repeat' (first | with_reducible assumption | intro _ | with_reducible apply foldl_wf | with_reducible apply State.updCall_wf | with_reducible apply foldl_fst_wf | with_reducible apply foldl_snd_wf | dsimp only | split)

theorem execCollCompletion_wf (vf comm seq : Nat) (others : List (Nat × List Byte)) (s : State) (hs : Memory.wf s.mem = true) (t' : State) : execCollCompletion vf comm seq others s = .next t' → Memory.wf t'.mem = true := by
  unfold execCollCompletion
  intro ht
  (repeat' (first | split at ht | dsimp only at ht)) <;> (injection ht with ht; subst ht) <;> 
  (repeat' (first | with_reducible assumption | intro _ | with_reducible apply foldl_wf | with_reducible apply State.advanceCall_wf | with_reducible apply State.deferred_wf | with_reducible apply State.endCall_wf | with_reducible apply State.failCall_wf | with_reducible apply State.finishCall_wf | with_reducible apply State.joinCall_wf | with_reducible apply foldl_fst_wf | with_reducible apply foldl_snd_wf | dsimp only | split))

theorem execCollTimeout_wf (vf comm seq ctx : Nat) (s : State) (hs : Memory.wf s.mem = true) (t' : State) : execCollTimeout vf comm seq ctx s = .next t' → Memory.wf t'.mem = true := by
  unfold execCollTimeout
  intro ht
  (repeat' (first | split at ht | dsimp only at ht)) <;> (injection ht with ht; subst ht) <;> 
  (repeat' (first | with_reducible assumption | intro _ | with_reducible apply foldl_wf | with_reducible apply State.deferred_wf | with_reducible apply State.endCall_wf | with_reducible apply foldl_fst_wf | with_reducible apply foldl_snd_wf | dsimp only | split))

theorem State.sending_wf (s : State) (target : Nat) (go : State → State) (hs : Memory.wf s.mem = true) (hgo : ∀ x0, Memory.wf x0.mem = true → Memory.wf (go x0).mem = true) : Memory.wf (State.sending s target go).mem = true := by
  unfold State.sending
  repeat' (first | with_reducible assumption | intro _ | with_reducible apply foldl_wf | with_reducible apply State.dropRequests_wf | with_reducible apply State.send_wf | with_reducible apply State.wait_wf | with_reducible apply hgo | with_reducible apply foldl_fst_wf | with_reducible apply foldl_snd_wf | dsimp only | split)

theorem State.csig_wf (s : State) (i : Instr) (m : Mods) (d a b : BitVec 7) (add : Bool) (hs : Memory.wf s.mem = true) : Memory.wf (State.csig s i m d a b add).mem = true := by
  unfold State.csig
  repeat' (first | with_reducible assumption | intro _ | with_reducible apply foldl_wf | with_reducible apply State.complete_wf | with_reducible apply State.fabric_wf | with_reducible apply State.sending_wf | with_reducible apply foldl_fst_wf | with_reducible apply foldl_snd_wf | dsimp only | split)

theorem execCsigAdd_wf (m : Mods) (d a b : BitVec 7) (s : State) (hs : Memory.wf s.mem = true) (t' : State) : execCsigAdd m d a b s = .next t' → Memory.wf t'.mem = true := by
  unfold execCsigAdd
  intro ht
  (repeat' (first | split at ht | dsimp only at ht)) <;> (injection ht with ht; subst ht) <;> 
  (repeat' (first | with_reducible assumption | intro _ | with_reducible apply foldl_wf | with_reducible apply State.csig_wf | with_reducible apply foldl_fst_wf | with_reducible apply foldl_snd_wf | dsimp only | split))

theorem execCsigSet_wf (m : Mods) (d a b : BitVec 7) (s : State) (hs : Memory.wf s.mem = true) (t' : State) : execCsigSet m d a b s = .next t' → Memory.wf t'.mem = true := by
  unfold execCsigSet
  intro ht
  (repeat' (first | split at ht | dsimp only at ht)) <;> (injection ht with ht; subst ht) <;> 
  (repeat' (first | with_reducible assumption | intro _ | with_reducible apply foldl_wf | with_reducible apply State.csig_wf | with_reducible apply foldl_fst_wf | with_reducible apply foldl_snd_wf | dsimp only | split))

theorem State.lockDest_wf (s : State) (d : Nat) (hs : Memory.wf s.mem = true) : Memory.wf (s.lockDest d).1.mem = true := hs

theorem execRpost_wf (m : Mods) (d a b : BitVec 7) (s : State) (hs : Memory.wf s.mem = true) (t' : State) : execRpost m d a b s = .next t' → Memory.wf t'.mem = true := by
  unfold execRpost
  intro ht
  (repeat' (first | split at ht | dsimp only at ht)) <;> (injection ht with ht; subst ht) <;> 
  (repeat' (first | with_reducible assumption | intro _ | with_reducible apply foldl_wf | with_reducible apply State.complete_wf | with_reducible apply State.fabric_wf | with_reducible apply State.lockDest_wf | with_reducible apply State.readAtIssue_wf | with_reducible apply State.sending_wf | with_reducible apply State.lockDest_wf | with_reducible apply foldl_fst_wf | with_reducible apply foldl_snd_wf | dsimp only | split))

theorem State.answer_wf (s : State) (g : Nat) (dst : List (Nat × Nat × Reg)) (v : Nat) (hs : Memory.wf s.mem = true) : Memory.wf (State.answer s g dst v).mem = true := by
  unfold State.answer
  repeat' (first | with_reducible assumption | intro _ | with_reducible apply foldl_wf | with_reducible apply State.landReg_wf | with_reducible apply State.settleGm_wf | with_reducible apply foldl_fst_wf | with_reducible apply foldl_snd_wf | dsimp only | split)

theorem execRpostReply_wf (id status : Nat) (s : State) (hs : Memory.wf s.mem = true) (t' : State) : execRpostReply id status s = .next t' → Memory.wf t'.mem = true := by
  unfold execRpostReply
  intro ht
  (repeat' (first | split at ht | dsimp only at ht)) <;> (injection ht with ht; subst ht) <;> 
  (repeat' (first | with_reducible assumption | intro _ | with_reducible apply foldl_wf | with_reducible apply State.answer_wf | with_reducible apply foldl_fst_wf | with_reducible apply foldl_snd_wf | dsimp only | split))

theorem execRpostTimeout_wf (id : Nat) (s : State) (hs : Memory.wf s.mem = true) (t' : State) : execRpostTimeout id s = .next t' → Memory.wf t'.mem = true := by
  unfold execRpostTimeout
  intro ht
  (repeat' (first | split at ht | dsimp only at ht)) <;> (injection ht with ht; subst ht) <;> 
  (repeat' (first | with_reducible assumption | intro _ | with_reducible apply foldl_wf | with_reducible apply State.answer_wf | with_reducible apply foldl_fst_wf | with_reducible apply foldl_snd_wf | dsimp only | split))

theorem execCsigReply_wf (id status : Nat) (s : State) (hs : Memory.wf s.mem = true) (t' : State) : execCsigReply id status s = .next t' → Memory.wf t'.mem = true := by
  unfold execCsigReply
  intro ht
  (repeat' (first | split at ht | dsimp only at ht)) <;> (injection ht with ht; subst ht) <;> 
  (repeat' (first | with_reducible assumption | intro _ | with_reducible apply foldl_wf | with_reducible apply State.deferred_wf | with_reducible apply foldl_fst_wf | with_reducible apply foldl_snd_wf | dsimp only | split))

theorem execCsigTimeout_wf (id : Nat) (s : State) (hs : Memory.wf s.mem = true) (t' : State) : execCsigTimeout id s = .next t' → Memory.wf t'.mem = true := by
  unfold execCsigTimeout
  intro ht
  (repeat' (first | split at ht | dsimp only at ht)) <;> (injection ht with ht; subst ht) <;> 
  (repeat' (first | with_reducible assumption | intro _ | with_reducible apply foldl_wf | with_reducible apply State.deferred_wf | with_reducible apply foldl_fst_wf | with_reducible apply foldl_snd_wf | dsimp only | split))

theorem State.cwait_wf (s : State) (i : Instr) (d a : BitVec 7) (n : Nat) (ctls : Fibre → List Ctl) (value : Fibre → Option W64) (hs : Memory.wf s.mem = true) : Memory.wf (State.cwait s i d a n ctls value).mem = true := by
  unfold State.cwait
  repeat' (first | with_reducible assumption | intro _ | with_reducible apply foldl_wf | with_reducible apply State.control_wf | with_reducible apply State.fillTlb_wf | with_reducible apply State.mapLanes_wf | with_reducible apply State.memFault_wf | with_reducible apply State.plain_wf | with_reducible apply State.precise_wf | with_reducible apply State.wait_wf | with_reducible apply State.waitReplay_wf | with_reducible apply State.walkPoison_wf | with_reducible apply foldl_fst_wf | with_reducible apply foldl_snd_wf | dsimp only | split)

theorem execCwaitRec_wf (m : Mods) (d a : BitVec 7) (s : State) (hs : Memory.wf s.mem = true) (t' : State) : execCwaitRec m d a s = .next t' → Memory.wf t'.mem = true := by
  unfold execCwaitRec
  intro ht
  (repeat' (first | split at ht | dsimp only at ht)) <;> (injection ht with ht; subst ht) <;> 
  (repeat' (first | with_reducible assumption | intro _ | with_reducible apply foldl_wf | with_reducible apply State.cwait_wf | with_reducible apply foldl_fst_wf | with_reducible apply foldl_snd_wf | dsimp only | split))

theorem execCwaitGe_wf (m : Mods) (d a b : BitVec 7) (s : State) (hs : Memory.wf s.mem = true) (t' : State) : execCwaitGe m d a b s = .next t' → Memory.wf t'.mem = true := by
  unfold execCwaitGe
  intro ht
  (repeat' (first | split at ht | dsimp only at ht)) <;> (injection ht with ht; subst ht) <;> 
  (repeat' (first | with_reducible assumption | intro _ | with_reducible apply foldl_wf | with_reducible apply State.cwait_wf | with_reducible apply foldl_fst_wf | with_reducible apply foldl_snd_wf | dsimp only | split))

theorem State.endWait_wf (s : State) (g lane core : Nat) (b : Fibre) (d words v : Nat) (last : List Reg) (hs : Memory.wf s.mem = true) : Memory.wf (State.endWait s g lane core b d words v last).mem = true := by
  unfold State.endWait
  repeat' (first | with_reducible assumption | intro _ | with_reducible apply foldl_wf | with_reducible apply State.acquireL1_wf | with_reducible apply State.releaseHolders_wf | with_reducible apply State.settleGm_wf | with_reducible apply State.updFibre_wf | with_reducible apply State.wait_wf | with_reducible apply foldl_fst_wf | with_reducible apply foldl_snd_wf | dsimp only | split)

theorem State.unasked_wf (s : State) (g lane : Nat) (hs : Memory.wf s.mem = true) : Memory.wf (State.unasked s g lane).mem = true := by
  unfold State.unasked
  repeat' (first | with_reducible assumption | intro _ | with_reducible apply foldl_wf | with_reducible apply State.updGroup_wf | with_reducible apply foldl_fst_wf | with_reducible apply foldl_snd_wf | dsimp only | split)

theorem execCwaitReread_wf (g lane : Nat) (s : State) (hs : Memory.wf s.mem = true) (t' : State) : execCwaitReread g lane s = .next t' → Memory.wf t'.mem = true := by
  suffices h : NextWf (execCwaitReread g lane s) from h t'
  unfold execCwaitReread
  repeat' (first | with_reducible assumption | with_reducible apply nextWf_next | with_reducible apply State.memFault_wf | with_reducible apply State.walkPoison_wf | with_reducible apply State.askSupervisor_wf | with_reducible apply State.endWait_wf | with_reducible apply State.acquireLine_wf | with_reducible apply State.reportLink_wf | with_reducible apply State.send_wf | with_reducible apply State.precise_wf | with_reducible apply State.reportReads_wf | with_reducible apply State.unasked_wf | with_reducible apply State.wait_wf | dsimp only | split | (with_reducible refine fun _ _ => ?_))

theorem State.finishStep_wf (s : State) (p : Pending) (hs : Memory.wf s.mem = true) : Memory.wf (State.finishStep s p).mem = true := by
  unfold State.finishStep
  repeat' (first | with_reducible assumption | intro _ | with_reducible apply foldl_wf | with_reducible apply State.answer_wf | with_reducible apply foldl_fst_wf | with_reducible apply foldl_snd_wf | dsimp only | split)

theorem execStep_wf (m : Mods) (d a b : BitVec 7) (s : State) (hs : Memory.wf s.mem = true) (t' : State) : execStep m d a b s = .next t' → Memory.wf t'.mem = true := by
  unfold execStep
  intro ht
  (repeat' (first | split at ht | dsimp only at ht)) <;> (injection ht with ht; subst ht) <;> 
  (repeat' (first | with_reducible assumption | intro _ | with_reducible apply foldl_wf | with_reducible apply State.complete_wf | with_reducible apply State.fabric_wf | with_reducible apply State.finishStep_wf | with_reducible apply State.lockDest_wf | with_reducible apply State.updGrid_wf | with_reducible apply State.lockDest_wf | with_reducible apply foldl_fst_wf | with_reducible apply foldl_snd_wf | dsimp only | split))

theorem State.applyStep_wf (s : State) (core track grid : Nat) (hs : Memory.wf s.mem = true) : Memory.wf (State.applyStep s core track grid).mem = true := by
  unfold State.applyStep
  repeat' (first | with_reducible assumption | intro _ | with_reducible apply foldl_wf | with_reducible apply State.finishStep_wf | with_reducible apply State.updCore_wf | with_reducible apply State.updGrid_wf | with_reducible apply foldl_fst_wf | with_reducible apply foldl_snd_wf | dsimp only | split)

theorem execStepApply_wf (core track : Nat) (s : State) (hs : Memory.wf s.mem = true) (t' : State) : execStepApply core track s = .next t' → Memory.wf t'.mem = true := by
  unfold execStepApply
  intro ht
  (repeat' (first | split at ht | dsimp only at ht)) <;> (injection ht with ht; subst ht) <;> 
  (repeat' (first | with_reducible assumption | intro _ | with_reducible apply foldl_wf | with_reducible apply State.applyStep_wf | with_reducible apply State.updCore_wf | with_reducible apply foldl_fst_wf | with_reducible apply foldl_snd_wf | dsimp only | split))

theorem State.reply_wf (s : State) (endpoint id status : Nat) (hs : Memory.wf s.mem = true) : Memory.wf (State.reply s endpoint id status).mem = true := by
  unfold State.reply
  repeat' (first | with_reducible assumption | intro _ | with_reducible apply foldl_wf | with_reducible apply foldl_fst_wf | with_reducible apply foldl_snd_wf | dsimp only | split)

theorem State.refuseMessage_wf (s : State) (vf endpoint id : Nat) (hs : Memory.wf s.mem = true) : Memory.wf (State.refuseMessage s vf endpoint id).mem = true := by
  unfold State.refuseMessage
  repeat' (first | with_reducible assumption | intro _ | with_reducible apply foldl_wf | with_reducible apply State.reply_wf | with_reducible apply State.report_wf | with_reducible apply State.reportSupervisor_wf | with_reducible apply foldl_fst_wf | with_reducible apply foldl_snd_wf | dsimp only | split)

theorem execNotifyMessage_wf (vf endpoint id : Nat) (queue : Nat × Nat × List Byte) (s : State) (hs : Memory.wf s.mem = true) (t' : State) : execNotifyMessage vf endpoint id queue s = .next t' → Memory.wf t'.mem = true := by
  unfold execNotifyMessage
  intro ht
  (repeat' (first | split at ht | dsimp only at ht)) <;> (injection ht with ht; subst ht) <;> 
  (repeat' (first | with_reducible assumption | intro _ | with_reducible apply foldl_wf | with_reducible apply State.readTail_wf | with_reducible apply State.refuseMessage_wf | with_reducible apply State.reply_wf | with_reducible apply foldl_fst_wf | with_reducible apply foldl_snd_wf | dsimp only | split))

theorem execLaunchMessage_wf (vf endpoint id : Nat) (queue : Nat × Nat) (rec : List Byte) (s : State) (hs : Memory.wf s.mem = true) (t' : State) : execLaunchMessage vf endpoint id queue rec s = .next t' → Memory.wf t'.mem = true := by
  unfold execLaunchMessage
  intro ht
  (repeat' (first | split at ht | dsimp only at ht)) <;> (injection ht with ht; subst ht) <;> 
  (repeat' (first | with_reducible assumption | intro _ | with_reducible apply foldl_wf | with_reducible apply State.appendRecord_wf | with_reducible apply State.refuseMessage_wf | with_reducible apply State.reply_wf | with_reducible apply foldl_fst_wf | with_reducible apply foldl_snd_wf | dsimp only | split))

theorem execRemoteMessageDropped_wf (vf endpoint id : Nat) (kind : Nat × Nat × List Byte) (s : State) (hs : Memory.wf s.mem = true) (t' : State) : execRemoteMessageDropped vf endpoint id kind s = .next t' → Memory.wf t'.mem = true := by
  unfold execRemoteMessageDropped
  intro ht
  (repeat' (first | split at ht | dsimp only at ht)) <;> (injection ht with ht; subst ht) <;> 
  (repeat' (first | with_reducible assumption | intro _ | with_reducible apply foldl_wf | with_reducible apply State.refuseMessage_wf | with_reducible apply State.reply_wf | with_reducible apply foldl_fst_wf | with_reducible apply foldl_snd_wf | dsimp only | split))

theorem State.answerTo_wf (s : State) (endpoint id : Nat) (error : Bool) (hs : Memory.wf s.mem = true) : Memory.wf (State.answerTo s endpoint id error).mem = true := by
  unfold State.answerTo
  repeat' (first | with_reducible assumption | intro _ | with_reducible apply foldl_wf | with_reducible apply State.answer_wf | with_reducible apply foldl_fst_wf | with_reducible apply foldl_snd_wf | dsimp only | split)

theorem State.writePut_wf (ctx : Nat) (l : List Seg) (s : State) (data marks : List Byte) (hs : Memory.wf s.mem = true) :
    Memory.wf (s.writePut ctx l data marks).mem = true := by
  induction l generalizing s data marks with
  | nil => exact hs
  | cons g rest ih =>
    unfold State.writePut
    exact ih _ _ _ (State.seal_wf _ _ _ _ (State.sysWrite_wf _ _ _ _ hs))

theorem execRemotePutArrival_wf (src : Nat × Nat) (dst : Nat × W64) (data : List Byte × List Byte) (s : State) (hs : Memory.wf s.mem = true) (t' : State) : execRemotePutArrival src dst data s = .next t' → Memory.wf t'.mem = true := by
  unfold execRemotePutArrival
  intro ht
  (repeat' (first | split at ht | dsimp only at ht)) <;> (injection ht with ht; subst ht) <;> 
  (repeat' (first | with_reducible assumption | intro _ | with_reducible apply foldl_wf | with_reducible apply State.answerTo_wf | with_reducible apply State.askSupervisor_wf | with_reducible apply State.forget_wf | with_reducible apply State.reportWalk_wf | with_reducible apply State.writePut_wf | with_reducible apply foldl_fst_wf | with_reducible apply foldl_snd_wf | dsimp only | split))

theorem execRemoteSignalArrival_wf (src : Nat × Nat) (dst : Nat × W64) (value : W64) (add : Bool) (s : State) (hs : Memory.wf s.mem = true) (t' : State) : execRemoteSignalArrival src dst value add s = .next t' → Memory.wf t'.mem = true := by
  unfold execRemoteSignalArrival
  intro ht
  (repeat' (first | split at ht | dsimp only at ht)) <;> (injection ht with ht; subst ht) <;> 
  (repeat' (first | with_reducible assumption | intro _ | with_reducible apply foldl_wf | with_reducible apply State.answerTo_wf | with_reducible apply State.askSupervisor_wf | with_reducible apply State.forget_wf | with_reducible apply State.reportWalk_wf | with_reducible apply State.seal_wf | with_reducible apply State.sysWrite_wf | with_reducible apply foldl_fst_wf | with_reducible apply foldl_snd_wf | dsimp only | split))

theorem State.reportSparing_wf (s : State) (what : Nat) (addr : W64) (place : Nat) (hs : Memory.wf s.mem = true) : Memory.wf (State.reportSparing s what addr place).mem = true := by
  unfold State.reportSparing
  repeat' (first | with_reducible assumption | intro _ | with_reducible apply foldl_wf | with_reducible apply State.reportSupervisor_wf | with_reducible apply foldl_fst_wf | with_reducible apply foldl_snd_wf | dsimp only | split)

theorem execPortFailover_wf (port : Nat) (s : State) (hs : Memory.wf s.mem = true) (t' : State) : execPortFailover port s = .next t' → Memory.wf t'.mem = true := by
  unfold execPortFailover
  intro ht
  (repeat' (first | split at ht | dsimp only at ht)) <;> (injection ht with ht; subst ht) <;> 
  (repeat' (first | with_reducible assumption | intro _ | with_reducible apply foldl_wf | with_reducible apply State.port_wf | with_reducible apply State.reportSparing_wf | with_reducible apply foldl_fst_wf | with_reducible apply foldl_snd_wf | dsimp only | split))

theorem State.cacheCode_wf (s : State) (x : Group) (l : List (Nat × Bool)) (hs : Memory.wf s.mem = true) : Memory.wf (State.cacheCode s x l).mem = true := by
  unfold State.cacheCode
  repeat' (first | with_reducible assumption | intro _ | with_reducible apply foldl_wf | with_reducible apply State.readLine_wf | with_reducible apply State.reportReads_wf | with_reducible apply State.updCore_wf | with_reducible apply foldl_fst_wf | with_reducible apply foldl_snd_wf | dsimp only | split)

theorem State.fetched_wf (s : State) (g : Nat) (x : Group) (pc : W64) (n : Nat) (hs : Memory.wf s.mem = true) : Memory.wf (State.fetched s g x pc n).mem = true := by
  unfold State.fetched
  repeat' (first | with_reducible assumption | intro _ | with_reducible apply foldl_wf | with_reducible apply State.cacheCode_wf | with_reducible apply State.portTake_wf | with_reducible apply foldl_fst_wf | with_reducible apply foldl_snd_wf | dsimp only | split)

theorem State.fetchTried_wf (s : State) (g : Nat) (x : Group) (pc val : W64) (cause sub n : Nat) (hs : Memory.wf s.mem = true) : Memory.wf (State.fetchTried s g x pc val cause sub n).mem = true := by
  unfold State.fetchTried
  repeat' (first | with_reducible assumption | intro _ | with_reducible apply foldl_wf | with_reducible apply State.fetched_wf | with_reducible apply State.reportWalk_wf | with_reducible apply foldl_fst_wf | with_reducible apply foldl_snd_wf | dsimp only | split)

theorem State.fetchAhead_wf (s : State) (g : Nat) (hs : Memory.wf s.mem = true) : Memory.wf (State.fetchAhead s g).mem = true := by
  unfold State.fetchAhead
  repeat' (first | with_reducible assumption | intro _ | with_reducible apply foldl_wf | with_reducible apply State.cacheCode_wf | with_reducible apply State.portQueue_wf | with_reducible apply State.send_wf | with_reducible apply State.wait_wf | with_reducible apply foldl_fst_wf | with_reducible apply foldl_snd_wf | dsimp only | split)

theorem State.updRequest_wf (s : State) (core id lane : Nat) (f : Option Nat → Option Nat) (n : Nat) (hs : Memory.wf s.mem = true) : Memory.wf (State.updRequest s core id lane f n).mem = true := by
  unfold State.updRequest
  repeat' (first | with_reducible assumption | intro _ | with_reducible apply foldl_wf | with_reducible apply State.updCall_wf | with_reducible apply State.updCore_wf | with_reducible apply State.updGroup_wf | with_reducible apply foldl_fst_wf | with_reducible apply foldl_snd_wf | dsimp only | split)

theorem State.noteSent_wf (s : State) (hs : Memory.wf s.mem = true) : Memory.wf (State.noteSent s).mem = true := by
  unfold State.noteSent
  repeat' (first | with_reducible assumption | intro _ | with_reducible apply foldl_wf | with_reducible apply State.updRequest_wf | with_reducible apply foldl_fst_wf | with_reducible apply foldl_snd_wf | dsimp only | split)

theorem State.failReading_wf (s : State) (g : Nat) (x : Group) (lane sub port : Nat) (r : Reading) (hs : Memory.wf s.mem = true) : Memory.wf (State.failReading s g x lane sub port r).mem = true := by
  unfold State.failReading
  repeat' (first | with_reducible assumption | intro _ | with_reducible apply foldl_wf | with_reducible apply State.deferred_wf | with_reducible apply State.keep_wf | with_reducible apply State.port_wf | with_reducible apply State.precise_wf | with_reducible apply State.updGroup_wf | with_reducible apply State.wait_wf | with_reducible apply foldl_fst_wf | with_reducible apply foldl_snd_wf | dsimp only | split)

theorem State.failPiece_wf (s : State) (id : Nat) (q : Call) (hs : Memory.wf s.mem = true) : Memory.wf (State.failPiece s id q).mem = true := by
  unfold State.failPiece
  repeat' (first | with_reducible assumption | intro _ | with_reducible apply foldl_wf | with_reducible apply State.engineWrite_wf | with_reducible apply State.finishCall_wf | with_reducible apply State.publish_wf | with_reducible apply State.updCall_wf | with_reducible apply foldl_fst_wf | with_reducible apply foldl_snd_wf | dsimp only | split)

theorem State.failRequest_wf (s : State) (core id lane sub : Nat) (r : Request) (hs : Memory.wf s.mem = true) : Memory.wf (State.failRequest s core id lane sub r).mem = true := by
  unfold State.failRequest
  repeat' (first | with_reducible assumption | intro _ | with_reducible apply foldl_wf | with_reducible apply State.cleanAll_wf | with_reducible apply State.countPacket_wf | with_reducible apply State.deferred_wf | with_reducible apply State.deliver_wf | with_reducible apply State.endAtomic_wf | with_reducible apply State.endCopy_wf | with_reducible apply State.endStore_wf | with_reducible apply State.failPiece_wf | with_reducible apply State.failReading_wf | with_reducible apply State.failTile_wf | with_reducible apply State.homeWrite_wf | with_reducible apply State.landReg_wf | with_reducible apply State.performLane_wf | with_reducible apply State.port_wf | with_reducible apply State.seal_wf | with_reducible apply State.settleGm_wf | with_reducible apply State.updAtomic_wf | with_reducible apply foldl_fst_wf | with_reducible apply foldl_snd_wf | dsimp only | split)

theorem execCausewayAbandon_wf (core : Nat) (request : Nat × Nat) (s : State) (hs : Memory.wf s.mem = true) (t' : State) : execCausewayAbandon core request s = .next t' → Memory.wf t'.mem = true := by
  unfold execCausewayAbandon
  intro ht
  (repeat' (first | split at ht | dsimp only at ht)) <;> (injection ht with ht; subst ht) <;> 
  (repeat' (first | with_reducible assumption | intro _ | with_reducible apply foldl_wf | with_reducible apply State.failRequest_wf | with_reducible apply State.report_wf | with_reducible apply foldl_fst_wf | with_reducible apply foldl_snd_wf | dsimp only | split))

theorem execNodeErrorReply_wf (core : Nat) (request : Nat × Nat) (s : State) (hs : Memory.wf s.mem = true) (t' : State) : execNodeErrorReply core request s = .next t' → Memory.wf t'.mem = true := by
  unfold execNodeErrorReply
  intro ht
  (repeat' (first | split at ht | dsimp only at ht)) <;> (injection ht with ht; subst ht) <;> 
  (repeat' (first | with_reducible assumption | intro _ | with_reducible apply foldl_wf | with_reducible apply State.failRequest_wf | with_reducible apply foldl_fst_wf | with_reducible apply foldl_snd_wf | dsimp only | split))

theorem execTagCheckFailure_wf (core : Nat) (request : Nat × Nat) (s : State) (hs : Memory.wf s.mem = true) (t' : State) : execTagCheckFailure core request s = .next t' → Memory.wf t'.mem = true := by
  unfold execTagCheckFailure
  intro ht
  (repeat' (first | split at ht | dsimp only at ht)) <;> (injection ht with ht; subst ht) <;> 
  (repeat' (first | with_reducible assumption | intro _ | with_reducible apply foldl_wf | with_reducible apply State.countPacket_wf | with_reducible apply State.failRequest_wf | with_reducible apply State.updRequest_wf | with_reducible apply foldl_fst_wf | with_reducible apply foldl_snd_wf | dsimp only | split))

theorem execVfBringup_wf (vf : Nat) (part : List Nat) (queues : List (List W64)) (s : State) (hs : Memory.wf s.mem = true) (t' : State) : execVfBringup vf part queues s = .next t' → Memory.wf t'.mem = true := by
  unfold execVfBringup
  intro ht
  (repeat' (first | split at ht | dsimp only at ht)) <;> (injection ht with ht; subst ht) <;> 
  (repeat' (first | with_reducible assumption | intro _ | with_reducible apply foldl_wf | with_reducible apply foldl_fst_wf | with_reducible apply foldl_snd_wf | dsimp only | split))

theorem State.revokeContext_wf (s : State) (ctx : Nat) (hs : Memory.wf s.mem = true) : Memory.wf (State.revokeContext s ctx).mem = true := by
  unfold State.revokeContext
  repeat' (first | with_reducible assumption | intro _ | with_reducible apply foldl_wf | with_reducible apply State.forget_wf | with_reducible apply State.keep_wf | with_reducible apply State.reportDead_wf | with_reducible apply foldl_fst_wf | with_reducible apply foldl_snd_wf | dsimp only | split)

theorem State.haltDead_wf (s : State) (ctx : Nat) (hs : Memory.wf s.mem = true) : Memory.wf (State.haltDead s ctx).mem = true := by
  unfold State.haltDead
  repeat' (first | with_reducible assumption | intro _ | with_reducible apply foldl_wf | with_reducible apply State.raiseHalt_wf | with_reducible apply State.updHalt_wf | with_reducible apply foldl_fst_wf | with_reducible apply foldl_snd_wf | dsimp only | split)

theorem execVfTeardown_wf (vf : Nat) (s : State) (hs : Memory.wf s.mem = true) (t' : State) : execVfTeardown vf s = .next t' → Memory.wf t'.mem = true := by
  unfold execVfTeardown
  intro ht
  (repeat' (first | split at ht | dsimp only at ht)) <;> (injection ht with ht; subst ht) <;> 
  (repeat' (first | with_reducible assumption | intro _ | with_reducible apply foldl_wf | with_reducible apply State.haltDead_wf | with_reducible apply State.keep_wf | with_reducible apply State.reapSlots_wf | with_reducible apply State.revokeContext_wf | with_reducible apply foldl_fst_wf | with_reducible apply foldl_snd_wf | dsimp only | split))

theorem execAllowanceReclaim_wf (vf : Nat) (s : State) (hs : Memory.wf s.mem = true) (t' : State) : execAllowanceReclaim vf s = .next t' → Memory.wf t'.mem = true := by
  unfold execAllowanceReclaim
  intro ht
  (repeat' (first | split at ht | dsimp only at ht)) <;> (injection ht with ht; subst ht) <;> 
  (repeat' (first | with_reducible assumption | intro _ | with_reducible apply foldl_wf | with_reducible apply foldl_fst_wf | with_reducible apply foldl_snd_wf | dsimp only | split))

theorem execQuarantineEnd_wf (vf : Nat) (s : State) (hs : Memory.wf s.mem = true) (t' : State) : execQuarantineEnd vf s = .next t' → Memory.wf t'.mem = true := by
  unfold execQuarantineEnd
  intro ht
  (repeat' (first | split at ht | dsimp only at ht)) <;> (injection ht with ht; subst ht) <;> 
  (repeat' (first | with_reducible assumption | intro _ | with_reducible apply foldl_wf | with_reducible apply foldl_fst_wf | with_reducible apply foldl_snd_wf | dsimp only | split))

theorem execDeadOwnerPacket_wf (vf : Nat) (info : W64) (s : State) (hs : Memory.wf s.mem = true) (t' : State) : execDeadOwnerPacket vf info s = .next t' → Memory.wf t'.mem = true := by
  unfold execDeadOwnerPacket
  intro ht
  (repeat' (first | split at ht | dsimp only at ht)) <;> (injection ht with ht; subst ht) <;> 
  (repeat' (first | with_reducible assumption | intro _ | with_reducible apply foldl_wf | with_reducible apply State.reportSupervisor_wf | with_reducible apply foldl_fst_wf | with_reducible apply foldl_snd_wf | dsimp only | split))

theorem execDfwWrite_wf (die : Nat) (value : W32) (s : State) (hs : Memory.wf s.mem = true) (t' : State) : execDfwWrite die value s = .next t' → Memory.wf t'.mem = true := by
  unfold execDfwWrite
  intro ht
  (repeat' (first | split at ht | dsimp only at ht)) <;> (injection ht with ht; subst ht) <;> 
  (repeat' (first | with_reducible assumption | intro _ | with_reducible apply foldl_wf | with_reducible apply State.updDie_wf | with_reducible apply foldl_fst_wf | with_reducible apply foldl_snd_wf | dsimp only | split))

theorem execVuesClear_wf (vf : Nat) (value : W32) (s : State) (hs : Memory.wf s.mem = true) (t' : State) : execVuesClear vf value s = .next t' → Memory.wf t'.mem = true := by
  unfold execVuesClear
  intro ht
  (repeat' (first | split at ht | dsimp only at ht)) <;> (injection ht with ht; subst ht) <;> 
  (repeat' (first | with_reducible assumption | intro _ | with_reducible apply foldl_wf | with_reducible apply foldl_fst_wf | with_reducible apply foldl_snd_wf | dsimp only | split))

theorem execVovfClear_wf (vf : Nat) (_value : W32) (s : State) (hs : Memory.wf s.mem = true) (t' : State) : execVovfClear vf _value s = .next t' → Memory.wf t'.mem = true := by
  unfold execVovfClear
  intro ht
  (repeat' (first | split at ht | dsimp only at ht)) <;> (injection ht with ht; subst ht) <;> 
  (repeat' (first | with_reducible assumption | intro _ | with_reducible apply foldl_wf | with_reducible apply foldl_fst_wf | with_reducible apply foldl_snd_wf | dsimp only | split))

theorem State.updVf_wf (s : State) (vf : Nat) (f : Vf → Vf) (hs : Memory.wf s.mem = true) : Memory.wf (State.updVf s vf f).mem = true := by
  unfold State.updVf
  repeat' (first | with_reducible assumption | intro _ | with_reducible apply foldl_wf | with_reducible apply foldl_fst_wf | with_reducible apply foldl_snd_wf | dsimp only | split)

theorem execRegisterWrite_wf (reg index : Nat) (value : W64) (s : State) (hs : Memory.wf s.mem = true) (t' : State) : execRegisterWrite reg index value s = .next t' → Memory.wf t'.mem = true := by
  unfold execRegisterWrite
  intro ht
  (repeat' (first | split at ht | dsimp only at ht)) <;> (injection ht with ht; subst ht) <;> 
  (repeat' (first | with_reducible assumption | intro _ | with_reducible apply foldl_wf | with_reducible apply State.updCore_wf | with_reducible apply State.updDie_wf | with_reducible apply State.updVf_wf | with_reducible apply foldl_fst_wf | with_reducible apply foldl_snd_wf | dsimp only | split))

theorem State.refillPort_wf (s : State) (core boundary : Nat) (hs : Memory.wf s.mem = true) : Memory.wf (State.refillPort s core boundary).mem = true := by
  unfold State.refillPort
  repeat' (first | with_reducible assumption | intro _ | with_reducible apply foldl_wf | with_reducible apply State.keep_wf | with_reducible apply State.updCore_wf | with_reducible apply foldl_fst_wf | with_reducible apply foldl_snd_wf | dsimp only | split)

theorem State.refillAt_wf (s : State) (boundary core : Nat) (hs : Memory.wf s.mem = true) : Memory.wf (State.refillAt s boundary core).mem = true := by
  unfold State.refillAt
  repeat' (first | with_reducible assumption | intro _ | with_reducible apply foldl_wf | with_reducible apply State.refillPort_wf | with_reducible apply foldl_fst_wf | with_reducible apply foldl_snd_wf | dsimp only | split)

theorem execBucketRefill_wf (core : Nat) (s : State) (hs : Memory.wf s.mem = true) (t' : State) : execBucketRefill core s = .next t' → Memory.wf t'.mem = true := by
  unfold execBucketRefill
  intro ht
  (repeat' (first | split at ht | dsimp only at ht)) <;> (injection ht with ht; subst ht) <;> 
  (repeat' (first | with_reducible assumption | intro _ | with_reducible apply foldl_wf | with_reducible apply State.refillAt_wf | with_reducible apply foldl_fst_wf | with_reducible apply foldl_snd_wf | dsimp only | split))

theorem State.refillDue_wf (s : State) (n : Nat) (hs : Memory.wf s.mem = true) : Memory.wf (State.refillDue s n).mem = true := by
  unfold State.refillDue
  repeat' (first | with_reducible assumption | intro _ | with_reducible apply foldl_wf | with_reducible apply State.refillAt_wf | with_reducible apply foldl_fst_wf | with_reducible apply foldl_snd_wf | dsimp only | split)

theorem State.updPkg_wf (s : State) (f : Package → Package) (hs : Memory.wf s.mem = true) : Memory.wf (State.updPkg s f).mem = true := by
  unfold State.updPkg
  repeat' (first | with_reducible assumption | intro _ | with_reducible apply foldl_wf | with_reducible apply foldl_fst_wf | with_reducible apply foldl_snd_wf | dsimp only | split)

theorem execPallowSetWrite_wf (watts : Nat) (s : State) (hs : Memory.wf s.mem = true) (t' : State) : execPallowSetWrite watts s = .next t' → Memory.wf t'.mem = true := by
  unfold execPallowSetWrite
  intro ht
  (repeat' (first | split at ht | dsimp only at ht)) <;> (injection ht with ht; subst ht) <;> 
  (repeat' (first | with_reducible assumption | intro _ | with_reducible apply foldl_wf | with_reducible apply State.updPkg_wf | with_reducible apply foldl_fst_wf | with_reducible apply foldl_snd_wf | dsimp only | split))

theorem execPallowTripClear_wf (mask : Nat) (s : State) (hs : Memory.wf s.mem = true) (t' : State) : execPallowTripClear mask s = .next t' → Memory.wf t'.mem = true := by
  unfold execPallowTripClear
  intro ht
  (repeat' (first | split at ht | dsimp only at ht)) <;> (injection ht with ht; subst ht) <;> 
  (repeat' (first | with_reducible assumption | intro _ | with_reducible apply foldl_wf | with_reducible apply State.updPkg_wf | with_reducible apply foldl_fst_wf | with_reducible apply foldl_snd_wf | dsimp only | split))

theorem execAllowanceCut_wf (s : State) (hs : Memory.wf s.mem = true) (t' : State) : execAllowanceCut s = .next t' → Memory.wf t'.mem = true := by
  unfold execAllowanceCut
  intro ht
  (repeat' (first | split at ht | dsimp only at ht)) <;> (injection ht with ht; subst ht) <;> 
  (repeat' (first | with_reducible assumption | intro _ | with_reducible apply foldl_wf | with_reducible apply State.updPkg_wf | with_reducible apply foldl_fst_wf | with_reducible apply foldl_snd_wf | dsimp only | split))

theorem execHeartbeatWrite_wf (s : State) (hs : Memory.wf s.mem = true) (t' : State) : execHeartbeatWrite s = .next t' → Memory.wf t'.mem = true := by
  unfold execHeartbeatWrite
  intro ht
  (repeat' (first | split at ht | dsimp only at ht)) <;> (injection ht with ht; subst ht) <;> 
  (repeat' (first | with_reducible assumption | intro _ | with_reducible apply foldl_wf | with_reducible apply State.updPkg_wf | with_reducible apply foldl_fst_wf | with_reducible apply foldl_snd_wf | dsimp only | split))

theorem execHeartbeatMiss_wf (s : State) (hs : Memory.wf s.mem = true) (t' : State) : execHeartbeatMiss s = .next t' → Memory.wf t'.mem = true := by
  unfold execHeartbeatMiss
  intro ht
  (repeat' (first | split at ht | dsimp only at ht)) <;> (injection ht with ht; subst ht) <;> 
  (repeat' (first | with_reducible assumption | intro _ | with_reducible apply foldl_wf | with_reducible apply State.updPkg_wf | with_reducible apply foldl_fst_wf | with_reducible apply foldl_snd_wf | dsimp only | split))

theorem State.mapTracks_wf (s : State) (cores : List Nat) (f : Track → Track) (hs : Memory.wf s.mem = true) : Memory.wf (State.mapTracks s cores f).mem = true := by
  unfold State.mapTracks
  repeat' (first | with_reducible assumption | intro _ | with_reducible apply foldl_wf | with_reducible apply State.updCore_wf | with_reducible apply foldl_fst_wf | with_reducible apply foldl_snd_wf | dsimp only | split)

theorem execPowerControlStep_wf (milliwatts : Nat) (s : State) (hs : Memory.wf s.mem = true) (t' : State) : execPowerControlStep milliwatts s = .next t' → Memory.wf t'.mem = true := by
  unfold execPowerControlStep
  intro ht
  (repeat' (first | split at ht | dsimp only at ht)) <;> (injection ht with ht; subst ht) <;> 
  (repeat' (first | with_reducible assumption | intro _ | with_reducible apply foldl_wf | with_reducible apply State.mapTracks_wf | with_reducible apply State.updPkg_wf | with_reducible apply foldl_fst_wf | with_reducible apply foldl_snd_wf | dsimp only | split))

theorem execCurrentLimiter_wf (milliwatts : Nat) (s : State) (hs : Memory.wf s.mem = true) (t' : State) : execCurrentLimiter milliwatts s = .next t' → Memory.wf t'.mem = true := by
  unfold execCurrentLimiter
  intro ht
  (repeat' (first | split at ht | dsimp only at ht)) <;> (injection ht with ht; subst ht) <;> 
  (repeat' (first | with_reducible assumption | intro _ | with_reducible apply foldl_wf | with_reducible apply State.mapTracks_wf | with_reducible apply State.updPkg_wf | with_reducible apply foldl_fst_wf | with_reducible apply foldl_snd_wf | dsimp only | split))

theorem execRatioChange_wf (core track : Nat) (s : State) (hs : Memory.wf s.mem = true) (t' : State) : execRatioChange core track s = .next t' → Memory.wf t'.mem = true := by
  unfold execRatioChange
  intro ht
  (repeat' (first | split at ht | dsimp only at ht)) <;> (injection ht with ht; subst ht) <;> 
  (repeat' (first | with_reducible assumption | intro _ | with_reducible apply foldl_wf | with_reducible apply State.updCore_wf | with_reducible apply foldl_fst_wf | with_reducible apply foldl_snd_wf | dsimp only | split))

theorem execEnergyCharge_wf (charges : List (Nat × Nat)) (s : State) (hs : Memory.wf s.mem = true) (t' : State) : execEnergyCharge charges s = .next t' → Memory.wf t'.mem = true := by
  unfold execEnergyCharge
  intro ht
  (repeat' (first | split at ht | dsimp only at ht)) <;> (injection ht with ht; subst ht) <;> 
  (repeat' (first | with_reducible assumption | intro _ | with_reducible apply foldl_wf | with_reducible apply State.updGrid_wf | with_reducible apply State.updPkg_wf | with_reducible apply foldl_fst_wf | with_reducible apply foldl_snd_wf | dsimp only | split))

theorem execEnergyScaling_wf (microjoules : Nat) (s : State) (hs : Memory.wf s.mem = true) (t' : State) : execEnergyScaling microjoules s = .next t' → Memory.wf t'.mem = true := by
  unfold execEnergyScaling
  intro ht
  (repeat' (first | split at ht | dsimp only at ht)) <;> (injection ht with ht; subst ht) <;> 
  (repeat' (first | with_reducible assumption | intro _ | with_reducible apply foldl_wf | with_reducible apply State.updPkg_wf | with_reducible apply foldl_fst_wf | with_reducible apply foldl_snd_wf | dsimp only | split))

theorem State.noteNoise_wf (s : State) (die : Nat) (cores : List (Nat × Nat)) (hs : Memory.wf s.mem = true) : Memory.wf (State.noteNoise s die cores).mem = true := by
  unfold State.noteNoise
  repeat' (first | with_reducible assumption | intro _ | with_reducible apply foldl_wf | with_reducible apply State.updCore_wf | with_reducible apply foldl_fst_wf | with_reducible apply foldl_snd_wf | dsimp only | split)

theorem execSramRailStep_wf (die : Nat) (corrected : Nat × List (Nat × Nat)) (s : State) (hs : Memory.wf s.mem = true) (t' : State) : execSramRailStep die corrected s = .next t' → Memory.wf t'.mem = true := by
  unfold execSramRailStep
  intro ht
  (repeat' (first | split at ht | dsimp only at ht)) <;> (injection ht with ht; subst ht) <;> 
  (repeat' (first | with_reducible assumption | intro _ | with_reducible apply foldl_wf | with_reducible apply State.noteNoise_wf | with_reducible apply State.updDie_wf | with_reducible apply foldl_fst_wf | with_reducible apply foldl_snd_wf | dsimp only | split))

theorem execRailHoldEnd_wf (die : Nat) (s : State) (hs : Memory.wf s.mem = true) (t' : State) : execRailHoldEnd die s = .next t' → Memory.wf t'.mem = true := by
  unfold execRailHoldEnd
  intro ht
  (repeat' (first | split at ht | dsimp only at ht)) <;> (injection ht with ht; subst ht) <;> 
  (repeat' (first | with_reducible assumption | intro _ | with_reducible apply foldl_wf | with_reducible apply State.updDie_wf | with_reducible apply foldl_fst_wf | with_reducible apply foldl_snd_wf | dsimp only | split))

theorem State.strikeArray_wf (s : State) (die core array : Nat) (va : W64) (hs : Memory.wf s.mem = true) : Memory.wf (State.strikeArray s die core array va).mem = true := by
  unfold State.strikeArray
  repeat' (first | with_reducible assumption | intro _ | with_reducible apply foldl_wf | with_reducible apply State.deferred_wf | with_reducible apply State.reportLine_wf | with_reducible apply State.updCore_wf | with_reducible apply State.updDie_wf | with_reducible apply State.updSlot_wf | with_reducible apply foldl_fst_wf | with_reducible apply foldl_snd_wf | dsimp only | split)

theorem execUncorrectableSramError_wf (die core array : Nat) (va : W64) (s : State) (hs : Memory.wf s.mem = true) (t' : State) : execUncorrectableSramError die core array va s = .next t' → Memory.wf t'.mem = true := by
  unfold execUncorrectableSramError
  intro ht
  (repeat' (first | split at ht | dsimp only at ht)) <;> (injection ht with ht; subst ht) <;> 
  (repeat' (first | with_reducible assumption | intro _ | with_reducible apply foldl_wf | with_reducible apply State.strikeArray_wf | with_reducible apply State.updDie_wf | with_reducible apply foldl_fst_wf | with_reducible apply foldl_snd_wf | dsimp only | split))

theorem execHbmTemperatureSample_wf (die stack degrees : Nat) (s : State) (hs : Memory.wf s.mem = true) (t' : State) : execHbmTemperatureSample die stack degrees s = .next t' → Memory.wf t'.mem = true := by
  unfold execHbmTemperatureSample
  intro ht
  (repeat' (first | split at ht | dsimp only at ht)) <;> (injection ht with ht; subst ht) <;> 
  (repeat' (first | with_reducible assumption | intro _ | with_reducible apply foldl_wf | with_reducible apply State.updDie_wf | with_reducible apply State.updPkg_wf | with_reducible apply foldl_fst_wf | with_reducible apply foldl_snd_wf | dsimp only | split))

theorem execDieThermalTrip_wf (die : Nat) (s : State) (hs : Memory.wf s.mem = true) (t' : State) : execDieThermalTrip die s = .next t' → Memory.wf t'.mem = true := by
  unfold execDieThermalTrip
  intro ht
  (repeat' (first | split at ht | dsimp only at ht)) <;> (injection ht with ht; subst ht) <;> 
  (repeat' (first | with_reducible assumption | intro _ | with_reducible apply foldl_wf | with_reducible apply State.updDie_wf | with_reducible apply State.updPkg_wf | with_reducible apply foldl_fst_wf | with_reducible apply foldl_snd_wf | dsimp only | split))

theorem execDieThermalRecovery_wf (die : Nat) (s : State) (hs : Memory.wf s.mem = true) (t' : State) : execDieThermalRecovery die s = .next t' → Memory.wf t'.mem = true := by
  unfold execDieThermalRecovery
  intro ht
  (repeat' (first | split at ht | dsimp only at ht)) <;> (injection ht with ht; subst ht) <;> 
  (repeat' (first | with_reducible assumption | intro _ | with_reducible apply foldl_wf | with_reducible apply State.mapTracks_wf | with_reducible apply State.updDie_wf | with_reducible apply foldl_fst_wf | with_reducible apply foldl_snd_wf | dsimp only | split))

theorem execCoreRetirement_wf (core : Nat) (s : State) (hs : Memory.wf s.mem = true) (t' : State) : execCoreRetirement core s = .next t' → Memory.wf t'.mem = true := by
  unfold execCoreRetirement
  intro ht
  (repeat' (first | split at ht | dsimp only at ht)) <;> (injection ht with ht; subst ht) <;> 
  (repeat' (first | with_reducible assumption | intro _ | with_reducible apply foldl_wf | with_reducible apply State.raiseHalt_wf | with_reducible apply State.reportSupervisor_wf | with_reducible apply State.updCore_wf | with_reducible apply State.updDie_wf | with_reducible apply foldl_fst_wf | with_reducible apply foldl_snd_wf | dsimp only | split))

theorem execHbmChannelSparing_wf (die stack : Nat) (channel : Nat × List Nat) (s : State) (hs : Memory.wf s.mem = true) (t' : State) : execHbmChannelSparing die stack channel s = .next t' → Memory.wf t'.mem = true := by
  unfold execHbmChannelSparing
  intro ht
  (repeat' (first | split at ht | dsimp only at ht)) <;> (injection ht with ht; subst ht) <;> 
  (repeat' (first | with_reducible assumption | intro _ | with_reducible apply foldl_wf | with_reducible apply State.loseLine_wf | with_reducible apply State.reportSparing_wf | with_reducible apply State.updDie_wf | with_reducible apply foldl_fst_wf | with_reducible apply foldl_snd_wf | dsimp only | split))

theorem execLlcWayDisable_wf (die : Nat) (way : Nat × Nat) (s : State) (hs : Memory.wf s.mem = true) (t' : State) : execLlcWayDisable die way s = .next t' → Memory.wf t'.mem = true := by
  unfold execLlcWayDisable
  intro ht
  (repeat' (first | split at ht | dsimp only at ht)) <;> (injection ht with ht; subst ht) <;> 
  (repeat' (first | with_reducible assumption | intro _ | with_reducible apply foldl_wf | with_reducible apply State.reportSparing_wf | with_reducible apply State.updDie_wf | with_reducible apply foldl_fst_wf | with_reducible apply foldl_snd_wf | dsimp only | split))

theorem execCausewayLaneSpare_wf (port : Nat) (lane : Nat × Nat) (s : State) (hs : Memory.wf s.mem = true) (t' : State) : execCausewayLaneSpare port lane s = .next t' → Memory.wf t'.mem = true := by
  unfold execCausewayLaneSpare
  intro ht
  (repeat' (first | split at ht | dsimp only at ht)) <;> (injection ht with ht; subst ht) <;> 
  (repeat' (first | with_reducible assumption | intro _ | with_reducible apply foldl_wf | with_reducible apply State.port_wf | with_reducible apply State.reportSparing_wf | with_reducible apply State.updPkg_wf | with_reducible apply foldl_fst_wf | with_reducible apply foldl_snd_wf | dsimp only | split))

theorem State.selfTest_wf (s : State) (core : Nat) (hs : Memory.wf s.mem = true) : Memory.wf (State.selfTest s core).mem = true := by
  unfold State.selfTest
  repeat' (first | with_reducible assumption | intro _ | with_reducible apply foldl_wf | with_reducible apply State.updCore_wf | with_reducible apply State.updDie_wf | with_reducible apply foldl_fst_wf | with_reducible apply foldl_snd_wf | dsimp only | split)

theorem State.train_wf (s : State) (c : Nat × Nat × Nat) (hs : Memory.wf s.mem = true) : Memory.wf (State.train s c).mem = true := by
  unfold State.train
  repeat' (first | with_reducible assumption | intro _ | with_reducible apply foldl_wf | with_reducible apply State.updDie_wf | with_reducible apply foldl_fst_wf | with_reducible apply foldl_snd_wf | dsimp only | split)

theorem execColdReset_wf (s : State) (t' : State) : execColdReset s = .next t' → Memory.wf t'.mem = true := by
  intro h
  injection h with h
  subst h
  rfl

theorem execRailPowerDown_wf (s : State) (t' : State) : execRailPowerDown s = .next t' → Memory.wf t'.mem = true := by
  intro h; injection h with h; subst h; rfl

theorem State.releaseJunctions_wf (s : State) (g : Nat) (hs : Memory.wf s.mem = true) : Memory.wf (State.releaseJunctions s g).mem = true := by
  unfold State.releaseJunctions
  repeat' (first | with_reducible assumption | intro _ | with_reducible apply foldl_wf | with_reducible apply State.releaseJunction_wf | with_reducible apply foldl_fst_wf | with_reducible apply foldl_snd_wf | dsimp only | split)

theorem State.countPort_wf (s : State) (g : Nat) (w : W32) (lanes : Nat) (hs : Memory.wf s.mem = true) : Memory.wf (State.countPort s g w lanes).mem = true := by
  unfold State.countPort
  repeat' (first | with_reducible assumption | intro _ | with_reducible apply foldl_wf | with_reducible apply State.port_wf | with_reducible apply State.updCore_wf | with_reducible apply foldl_fst_wf | with_reducible apply foldl_snd_wf | dsimp only | split)

theorem State.illegal_wf (s : State) (r : Reject) (words : List W32) (hs : Memory.wf s.mem = true) : Memory.wf (State.illegal s r words).mem = true := by
  unfold State.illegal
  repeat' (first | with_reducible assumption | intro _ | with_reducible apply foldl_wf | with_reducible apply State.precise_wf | with_reducible apply foldl_fst_wf | with_reducible apply foldl_snd_wf | dsimp only | split)

theorem State.releaseCounters_wf (s : State) (g : Nat) (hs : Memory.wf s.mem = true) : Memory.wf (State.releaseCounters s g).mem = true := by
  unfold State.releaseCounters
  repeat' (first | with_reducible assumption | intro _ | with_reducible apply foldl_wf | with_reducible apply State.updGroup_wf | with_reducible apply foldl_fst_wf | with_reducible apply foldl_snd_wf | dsimp only | split)

theorem State.settleReplay_wf (ran t u : State) (h : Held) (hu : Memory.wf u.mem = true) : Memory.wf (ran.settleReplay t u h).mem = true := by
  unfold State.settleReplay
  dsimp only
  repeat' (first | with_reducible exact hu | with_reducible apply State.updGroup_wf | with_reducible apply State.dropLater_wf | split)

theorem State.tick_wf (s : State) (n : Nat) (hs : Memory.wf s.mem = true) : Memory.wf (State.tick s n).mem = true := by
  unfold State.tick
  repeat' (first | with_reducible assumption | intro _ | with_reducible apply foldl_wf | with_reducible apply State.fetchAhead_wf | with_reducible apply State.noteSent_wf | with_reducible apply State.refillDue_wf | with_reducible apply foldl_fst_wf | with_reducible apply foldl_snd_wf | dsimp only | split)

theorem execYield_wf (m : Mods) (s : State) (hs : Memory.wf s.mem = true) (t' : State) : execYield m s = .next t' → Memory.wf t'.mem = true := by
  unfold execYield
  intro ht
  (repeat' (first | split at ht | dsimp only at ht)) <;> (injection ht with ht; subst ht) <;> 
  (repeat' (first | with_reducible assumption | intro _ | with_reducible apply foldl_wf | with_reducible apply State.complete_wf | with_reducible apply State.plain_wf | with_reducible apply State.updGroup_wf | with_reducible apply foldl_fst_wf | with_reducible apply foldl_snd_wf | dsimp only | split))

theorem State.moveGroup_wf (s : State) (g : Nat) (set : GSet) (hs : Memory.wf s.mem = true) : Memory.wf (State.moveGroup s g set).mem = true := by
  unfold State.moveGroup
  repeat' (first | with_reducible assumption | intro _ | with_reducible apply foldl_wf | with_reducible apply State.updGroup_wf | with_reducible apply foldl_fst_wf | with_reducible apply foldl_snd_wf | dsimp only | split)

theorem execLaybyMove_wf (g : Nat) (s : State) (hs : Memory.wf s.mem = true) (t' : State) : execLaybyMove g s = .next t' → Memory.wf t'.mem = true := by
  unfold execLaybyMove
  intro ht
  (repeat' (first | split at ht | dsimp only at ht)) <;> (injection ht with ht; subst ht) <;> 
  (repeat' (first | with_reducible assumption | intro _ | with_reducible apply foldl_wf | with_reducible apply State.moveGroup_wf | with_reducible apply State.updGroup_wf | with_reducible apply foldl_fst_wf | with_reducible apply foldl_snd_wf | dsimp only | split))

theorem execCarriagewayAdmission_wf (g : Nat) (s : State) (hs : Memory.wf s.mem = true) (t' : State) : execCarriagewayAdmission g s = .next t' → Memory.wf t'.mem = true := by
  unfold execCarriagewayAdmission
  intro ht
  (repeat' (first | split at ht | dsimp only at ht)) <;> (injection ht with ht; subst ht) <;> 
  (repeat' (first | with_reducible assumption | intro _ | with_reducible apply foldl_wf | with_reducible apply State.moveGroup_wf | with_reducible apply foldl_fst_wf | with_reducible apply foldl_snd_wf | dsimp only | split))

theorem execLaybyPending_wf (g : Nat) (s : State) (hs : Memory.wf s.mem = true) (t' : State) : execLaybyPending g s = .next t' → Memory.wf t'.mem = true := by
  unfold execLaybyPending
  intro ht
  (repeat' (first | split at ht | dsimp only at ht)) <;> (injection ht with ht; subst ht) <;> 
  (repeat' (first | with_reducible assumption | intro _ | with_reducible apply foldl_wf | with_reducible apply State.updGroup_wf | with_reducible apply foldl_fst_wf | with_reducible apply foldl_snd_wf | dsimp only | split))

theorem State.evictFor_wf (g n : Nat) (s : State) (hs : Memory.wf s.mem = true) : Memory.wf (s.evictFor g n).mem = true := by
  induction n generalizing s with
  | zero => exact hs
  | succ n ih =>
    unfold State.evictFor
    dsimp only
    split
    · exact hs
    · split
      · exact hs
      · exact ih _ (State.moveGroup_wf _ _ _ hs)

theorem execPendingEviction_wf (g : Nat) (s : State) (hs : Memory.wf s.mem = true) (t' : State) : execPendingEviction g s = .next t' → Memory.wf t'.mem = true := by
  unfold execPendingEviction
  intro ht
  (repeat' (first | split at ht | dsimp only at ht)) <;> (injection ht with ht; subst ht) <;> 
  (repeat' (first | with_reducible assumption | intro _ | with_reducible apply foldl_wf | with_reducible apply State.evictFor_wf | with_reducible apply State.moveGroup_wf | with_reducible apply foldl_fst_wf | with_reducible apply foldl_snd_wf | dsimp only | split))

theorem State.place_wf (s : State) (code : List Byte) (hs : Memory.wf s.mem = true) : Memory.wf (State.place s code).mem = true := by
  unfold State.place
  repeat' (first | with_reducible assumption | intro _ | with_reducible apply foldl_wf | with_reducible apply State.sysWrite_wf | with_reducible apply State.updCore_wf | with_reducible apply foldl_fst_wf | with_reducible apply foldl_snd_wf | dsimp only | split)

theorem scalar_wf (i : Instr) (dst : Dst) (a b : Src) (q : Option Nat) (op : Env → Out) (s : State) (hs : Memory.wf s.mem = true) : Memory.wf (scalar i dst a b q op s).mem = true := by
  unfold scalar
  repeat' (first | with_reducible assumption | intro _ | with_reducible apply foldl_wf | with_reducible apply State.alu_wf | with_reducible apply foldl_fst_wf | with_reducible apply foldl_snd_wf | dsimp only | split)

theorem scalar2_wf (i : Instr) (m : Mods) (t : BitVec 2) (d a b : BitVec 7) (op : Bool → Int → Int → Nat) (s : State) (hs : Memory.wf s.mem = true) : Memory.wf (scalar2 i m t d a b op s).mem = true := by
  unfold scalar2
  repeat' (first | with_reducible assumption | intro _ | with_reducible apply foldl_wf | with_reducible apply scalar_wf | with_reducible apply foldl_fst_wf | with_reducible apply foldl_snd_wf | dsimp only | split)

theorem execKadd_wf (m : Mods) (t : BitVec 2) (d a b : BitVec 7) (s : State) (hs : Memory.wf s.mem = true) (t' : State) : execKadd m t d a b s = .next t' → Memory.wf t'.mem = true := by
  unfold execKadd
  intro ht
  (repeat' (first | split at ht | dsimp only at ht)) <;> (injection ht with ht; subst ht) <;> 
  (repeat' (first | with_reducible assumption | intro _ | with_reducible apply foldl_wf | with_reducible apply scalar2_wf | with_reducible apply foldl_fst_wf | with_reducible apply foldl_snd_wf | dsimp only | split))

theorem execKsub_wf (m : Mods) (t : BitVec 2) (d a b : BitVec 7) (s : State) (hs : Memory.wf s.mem = true) (t' : State) : execKsub m t d a b s = .next t' → Memory.wf t'.mem = true := by
  unfold execKsub
  intro ht
  (repeat' (first | split at ht | dsimp only at ht)) <;> (injection ht with ht; subst ht) <;> 
  (repeat' (first | with_reducible assumption | intro _ | with_reducible apply foldl_wf | with_reducible apply scalar2_wf | with_reducible apply foldl_fst_wf | with_reducible apply foldl_snd_wf | dsimp only | split))

theorem execKmul_wf (m : Mods) (t : BitVec 2) (d a b : BitVec 7) (s : State) (hs : Memory.wf s.mem = true) (t' : State) : execKmul m t d a b s = .next t' → Memory.wf t'.mem = true := by
  unfold execKmul
  intro ht
  (repeat' (first | split at ht | dsimp only at ht)) <;> (injection ht with ht; subst ht) <;> 
  (repeat' (first | with_reducible assumption | intro _ | with_reducible apply foldl_wf | with_reducible apply scalar2_wf | with_reducible apply foldl_fst_wf | with_reducible apply foldl_snd_wf | dsimp only | split))

theorem execKmulh_wf (m : Mods) (t : BitVec 2) (d a b : BitVec 7) (s : State) (hs : Memory.wf s.mem = true) (t' : State) : execKmulh m t d a b s = .next t' → Memory.wf t'.mem = true := by
  unfold execKmulh
  intro ht
  (repeat' (first | split at ht | dsimp only at ht)) <;> (injection ht with ht; subst ht) <;> 
  (repeat' (first | with_reducible assumption | intro _ | with_reducible apply foldl_wf | with_reducible apply scalar2_wf | with_reducible apply foldl_fst_wf | with_reducible apply foldl_snd_wf | dsimp only | split))

theorem execKdiv_wf (m : Mods) (t : BitVec 2) (d a b : BitVec 7) (s : State) (hs : Memory.wf s.mem = true) (t' : State) : execKdiv m t d a b s = .next t' → Memory.wf t'.mem = true := by
  unfold execKdiv
  intro ht
  (repeat' (first | split at ht | dsimp only at ht)) <;> (injection ht with ht; subst ht) <;> 
  (repeat' (first | with_reducible assumption | intro _ | with_reducible apply foldl_wf | with_reducible apply scalar_wf | with_reducible apply foldl_fst_wf | with_reducible apply foldl_snd_wf | dsimp only | split))

theorem execKrem_wf (m : Mods) (t : BitVec 2) (d a b : BitVec 7) (s : State) (hs : Memory.wf s.mem = true) (t' : State) : execKrem m t d a b s = .next t' → Memory.wf t'.mem = true := by
  unfold execKrem
  intro ht
  (repeat' (first | split at ht | dsimp only at ht)) <;> (injection ht with ht; subst ht) <;> 
  (repeat' (first | with_reducible assumption | intro _ | with_reducible apply foldl_wf | with_reducible apply scalar_wf | with_reducible apply foldl_fst_wf | with_reducible apply foldl_snd_wf | dsimp only | split))

theorem scalarBits_wf (i : Instr) (m : Mods) (d a b : BitVec 7) (op : Nat → Nat → Nat) (s : State) (hs : Memory.wf s.mem = true) : Memory.wf (scalarBits i m d a b op s).mem = true := by
  unfold scalarBits
  repeat' (first | with_reducible assumption | intro _ | with_reducible apply foldl_wf | with_reducible apply scalar_wf | with_reducible apply foldl_fst_wf | with_reducible apply foldl_snd_wf | dsimp only | split)

theorem execKand_wf (m : Mods) (d a b : BitVec 7) (s : State) (hs : Memory.wf s.mem = true) (t' : State) : execKand m d a b s = .next t' → Memory.wf t'.mem = true := by
  unfold execKand
  intro ht
  (repeat' (first | split at ht | dsimp only at ht)) <;> (injection ht with ht; subst ht) <;> 
  (repeat' (first | with_reducible assumption | intro _ | with_reducible apply foldl_wf | with_reducible apply scalarBits_wf | with_reducible apply foldl_fst_wf | with_reducible apply foldl_snd_wf | dsimp only | split))

theorem execKor_wf (m : Mods) (d a b : BitVec 7) (s : State) (hs : Memory.wf s.mem = true) (t' : State) : execKor m d a b s = .next t' → Memory.wf t'.mem = true := by
  unfold execKor
  intro ht
  (repeat' (first | split at ht | dsimp only at ht)) <;> (injection ht with ht; subst ht) <;> 
  (repeat' (first | with_reducible assumption | intro _ | with_reducible apply foldl_wf | with_reducible apply scalarBits_wf | with_reducible apply foldl_fst_wf | with_reducible apply foldl_snd_wf | dsimp only | split))

theorem execKxor_wf (m : Mods) (d a b : BitVec 7) (s : State) (hs : Memory.wf s.mem = true) (t' : State) : execKxor m d a b s = .next t' → Memory.wf t'.mem = true := by
  unfold execKxor
  intro ht
  (repeat' (first | split at ht | dsimp only at ht)) <;> (injection ht with ht; subst ht) <;> 
  (repeat' (first | with_reducible assumption | intro _ | with_reducible apply foldl_wf | with_reducible apply scalarBits_wf | with_reducible apply foldl_fst_wf | with_reducible apply foldl_snd_wf | dsimp only | split))

theorem scalarShift_wf (i : Instr) (m : Mods) (kty : Nat) (d a b : BitVec 7) (op : Int → Nat → Int) (s : State) (hs : Memory.wf s.mem = true) : Memory.wf (scalarShift i m kty d a b op s).mem = true := by
  unfold scalarShift
  repeat' (first | with_reducible assumption | intro _ | with_reducible apply foldl_wf | with_reducible apply scalar_wf | with_reducible apply foldl_fst_wf | with_reducible apply foldl_snd_wf | dsimp only | split)

theorem execKshl_wf (m : Mods) (t : BitVec 1) (d a b : BitVec 7) (s : State) (hs : Memory.wf s.mem = true) (t' : State) : execKshl m t d a b s = .next t' → Memory.wf t'.mem = true := by
  unfold execKshl
  intro ht
  (repeat' (first | split at ht | dsimp only at ht)) <;> (injection ht with ht; subst ht) <;> 
  (repeat' (first | with_reducible assumption | intro _ | with_reducible apply foldl_wf | with_reducible apply scalarShift_wf | with_reducible apply foldl_fst_wf | with_reducible apply foldl_snd_wf | dsimp only | split))

theorem execKshr_wf (m : Mods) (t : BitVec 1) (d a b : BitVec 7) (s : State) (hs : Memory.wf s.mem = true) (t' : State) : execKshr m t d a b s = .next t' → Memory.wf t'.mem = true := by
  unfold execKshr
  intro ht
  (repeat' (first | split at ht | dsimp only at ht)) <;> (injection ht with ht; subst ht) <;> 
  (repeat' (first | with_reducible assumption | intro _ | with_reducible apply foldl_wf | with_reducible apply scalarShift_wf | with_reducible apply foldl_fst_wf | with_reducible apply foldl_snd_wf | dsimp only | split))

theorem execKsra_wf (m : Mods) (t : BitVec 1) (d a b : BitVec 7) (s : State) (hs : Memory.wf s.mem = true) (t' : State) : execKsra m t d a b s = .next t' → Memory.wf t'.mem = true := by
  unfold execKsra
  intro ht
  (repeat' (first | split at ht | dsimp only at ht)) <;> (injection ht with ht; subst ht) <;> 
  (repeat' (first | with_reducible assumption | intro _ | with_reducible apply foldl_wf | with_reducible apply scalarShift_wf | with_reducible apply foldl_fst_wf | with_reducible apply foldl_snd_wf | dsimp only | split))

theorem execKmin_wf (m : Mods) (t : BitVec 2) (d a b : BitVec 7) (s : State) (hs : Memory.wf s.mem = true) (t' : State) : execKmin m t d a b s = .next t' → Memory.wf t'.mem = true := by
  unfold execKmin
  intro ht
  (repeat' (first | split at ht | dsimp only at ht)) <;> (injection ht with ht; subst ht) <;> 
  (repeat' (first | with_reducible assumption | intro _ | with_reducible apply foldl_wf | with_reducible apply scalar2_wf | with_reducible apply foldl_fst_wf | with_reducible apply foldl_snd_wf | dsimp only | split))

theorem execKmax_wf (m : Mods) (t : BitVec 2) (d a b : BitVec 7) (s : State) (hs : Memory.wf s.mem = true) (t' : State) : execKmax m t d a b s = .next t' → Memory.wf t'.mem = true := by
  unfold execKmax
  intro ht
  (repeat' (first | split at ht | dsimp only at ht)) <;> (injection ht with ht; subst ht) <;> 
  (repeat' (first | with_reducible assumption | intro _ | with_reducible apply foldl_wf | with_reducible apply scalar2_wf | with_reducible apply foldl_fst_wf | with_reducible apply foldl_snd_wf | dsimp only | split))

theorem execKcmp_wf (m : Mods) (c : BitVec 3) (d a b : BitVec 7) (s : State) (hs : Memory.wf s.mem = true) (t' : State) : execKcmp m c d a b s = .next t' → Memory.wf t'.mem = true := by
  unfold execKcmp
  intro ht
  (repeat' (first | split at ht | dsimp only at ht)) <;> (injection ht with ht; subst ht) <;> 
  (repeat' (first | with_reducible assumption | intro _ | with_reducible apply foldl_wf | with_reducible apply scalar_wf | with_reducible apply foldl_fst_wf | with_reducible apply foldl_snd_wf | dsimp only | split))

theorem execKsel_wf (m : Mods) (q : BitVec 3) (d a b : BitVec 7) (s : State) (hs : Memory.wf s.mem = true) (t' : State) : execKsel m q d a b s = .next t' → Memory.wf t'.mem = true := by
  unfold execKsel
  intro ht
  (repeat' (first | split at ht | dsimp only at ht)) <;> (injection ht with ht; subst ht) <;> 
  (repeat' (first | with_reducible assumption | intro _ | with_reducible apply foldl_wf | with_reducible apply scalar_wf | with_reducible apply foldl_fst_wf | with_reducible apply foldl_snd_wf | dsimp only | split))

theorem execKclz_wf (m : Mods) (t : BitVec 1) (d a : BitVec 7) (s : State) (hs : Memory.wf s.mem = true) (t' : State) : execKclz m t d a s = .next t' → Memory.wf t'.mem = true := by
  unfold execKclz
  intro ht
  (repeat' (first | split at ht | dsimp only at ht)) <;> (injection ht with ht; subst ht) <;> 
  (repeat' (first | with_reducible assumption | intro _ | with_reducible apply foldl_wf | with_reducible apply scalar_wf | with_reducible apply foldl_fst_wf | with_reducible apply foldl_snd_wf | dsimp only | split))

theorem execKpopc_wf (m : Mods) (t : BitVec 1) (d a : BitVec 7) (s : State) (hs : Memory.wf s.mem = true) (t' : State) : execKpopc m t d a s = .next t' → Memory.wf t'.mem = true := by
  unfold execKpopc
  intro ht
  (repeat' (first | split at ht | dsimp only at ht)) <;> (injection ht with ht; subst ht) <;> 
  (repeat' (first | with_reducible assumption | intro _ | with_reducible apply foldl_wf | with_reducible apply scalar_wf | with_reducible apply foldl_fst_wf | with_reducible apply foldl_snd_wf | dsimp only | split))

theorem execKli_wf (m : Mods) (d i : BitVec 7) (s : State) (hs : Memory.wf s.mem = true) (t' : State) : execKli m d i s = .next t' → Memory.wf t'.mem = true := by
  unfold execKli
  intro ht
  (repeat' (first | split at ht | dsimp only at ht)) <;> (injection ht with ht; subst ht) <;> 
  (repeat' (first | with_reducible assumption | intro _ | with_reducible apply foldl_wf | with_reducible apply scalar_wf | with_reducible apply foldl_fst_wf | with_reducible apply foldl_snd_wf | dsimp only | split))

theorem execKhi_wf (m : Mods) (n : BitVec 2) (d a i : BitVec 7) (s : State) (hs : Memory.wf s.mem = true) (t' : State) : execKhi m n d a i s = .next t' → Memory.wf t'.mem = true := by
  unfold execKhi
  intro ht
  (repeat' (first | split at ht | dsimp only at ht)) <;> (injection ht with ht; subst ht) <;> 
  (repeat' (first | with_reducible assumption | intro _ | with_reducible apply foldl_wf | with_reducible apply scalar_wf | with_reducible apply foldl_fst_wf | with_reducible apply foldl_snd_wf | dsimp only | split))

theorem execKmov_wf (m : Mods) (d a : BitVec 7) (s : State) (hs : Memory.wf s.mem = true) (t' : State) : execKmov m d a s = .next t' → Memory.wf t'.mem = true := by
  unfold execKmov
  intro ht
  (repeat' (first | split at ht | dsimp only at ht)) <;> (injection ht with ht; subst ht) <;> 
  (repeat' (first | with_reducible assumption | intro _ | with_reducible apply foldl_wf | with_reducible apply scalar_wf | with_reducible apply foldl_fst_wf | with_reducible apply foldl_snd_wf | dsimp only | split))

theorem execKfromv_wf (m : Mods) (f : BitVec 3) (d a : BitVec 7) (s : State) (hs : Memory.wf s.mem = true) (t' : State) : execKfromv m f d a s = .next t' → Memory.wf t'.mem = true := by
  unfold execKfromv
  intro ht
  (repeat' (first | split at ht | dsimp only at ht)) <;> (injection ht with ht; subst ht) <;> 
  (repeat' (first | with_reducible assumption | intro _ | with_reducible apply foldl_wf | with_reducible apply scalar_wf | with_reducible apply foldl_fst_wf | with_reducible apply foldl_snd_wf | dsimp only | split))

theorem execKfromq_wf (m : Mods) (f : BitVec 1) (d : BitVec 7) (s : State) (hs : Memory.wf s.mem = true) (t' : State) : execKfromq m f d s = .next t' → Memory.wf t'.mem = true := by
  unfold execKfromq
  intro ht
  (repeat' (first | split at ht | dsimp only at ht)) <;> (injection ht with ht; subst ht) <;> 
  (repeat' (first | with_reducible assumption | intro _ | with_reducible apply foldl_wf | with_reducible apply scalar_wf | with_reducible apply foldl_fst_wf | with_reducible apply foldl_snd_wf | dsimp only | split))

theorem execKtoq_wf (m : Mods) (f : BitVec 1) (d a : BitVec 7) (s : State) (hs : Memory.wf s.mem = true) (t' : State) : execKtoq m f d a s = .next t' → Memory.wf t'.mem = true := by
  unfold execKtoq
  intro ht
  (repeat' (first | split at ht | dsimp only at ht)) <;> (injection ht with ht; subst ht) <;> 
  (repeat' (first | with_reducible assumption | intro _ | with_reducible apply foldl_wf | with_reducible apply scalar_wf | with_reducible apply foldl_fst_wf | with_reducible apply foldl_snd_wf | dsimp only | split))

theorem vec_wf (i : Instr) (dst : Dst) (a b c : Src) (q : Option Nat) (op : Env → Out) (s : State) (hs : Memory.wf s.mem = true) : Memory.wf (vec i dst a b c q op s).mem = true := by
  unfold vec
  repeat' (first | with_reducible assumption | intro _ | with_reducible apply foldl_wf | with_reducible apply State.alu_wf | with_reducible apply foldl_fst_wf | with_reducible apply foldl_snd_wf | dsimp only | split)

theorem vec2_wf (i : Instr) (m : Mods) (t : BitVec 3) (d a b : BitVec 7) (op : Bool → Int → Int → Int) (s : State) (hs : Memory.wf s.mem = true) : Memory.wf (vec2 i m t d a b op s).mem = true := by
  unfold vec2
  repeat' (first | with_reducible assumption | intro _ | with_reducible apply foldl_wf | with_reducible apply vec_wf | with_reducible apply foldl_fst_wf | with_reducible apply foldl_snd_wf | dsimp only | split)

theorem vec1_wf (i : Instr) (t : BitVec 3) (d a : BitVec 7) (op : Int → Int) (s : State) (hs : Memory.wf s.mem = true) : Memory.wf (vec1 i t d a op s).mem = true := by
  unfold vec1
  repeat' (first | with_reducible assumption | intro _ | with_reducible apply foldl_wf | with_reducible apply vec_wf | with_reducible apply foldl_fst_wf | with_reducible apply foldl_snd_wf | dsimp only | split)

theorem vecBits_wf (i : Instr) (m : Mods) (t : BitVec 3) (d a b : BitVec 7) (op : Nat → Nat → Nat) (s : State) (hs : Memory.wf s.mem = true) : Memory.wf (vecBits i m t d a b op s).mem = true := by
  unfold vecBits
  repeat' (first | with_reducible assumption | intro _ | with_reducible apply foldl_wf | with_reducible apply vec_wf | with_reducible apply foldl_fst_wf | with_reducible apply foldl_snd_wf | dsimp only | split)

theorem vecShift_wf (i : Instr) (m : Mods) (t : BitVec 3) (d a b : BitVec 7) (op : Nat → Nat → Int) (s : State) (hs : Memory.wf s.mem = true) : Memory.wf (vecShift i m t d a b op s).mem = true := by
  unfold vecShift
  repeat' (first | with_reducible assumption | intro _ | with_reducible apply foldl_wf | with_reducible apply vec_wf | with_reducible apply foldl_fst_wf | with_reducible apply foldl_snd_wf | dsimp only | split)

theorem vecCount_wf (i : Instr) (t : BitVec 3) (d a : BitVec 7) (op : Nat → Nat → Nat) (s : State) (hs : Memory.wf s.mem = true) : Memory.wf (vecCount i t d a op s).mem = true := by
  unfold vecCount
  repeat' (first | with_reducible assumption | intro _ | with_reducible apply foldl_wf | with_reducible apply vec_wf | with_reducible apply foldl_fst_wf | with_reducible apply foldl_snd_wf | dsimp only | split)

theorem vecCmp_wf (i : Instr) (m : Mods) (t : BitVec 3) (d a b : BitVec 7) (op : Int → Int → Bool) (s : State) (hs : Memory.wf s.mem = true) : Memory.wf (vecCmp i m t d a b op s).mem = true := by
  unfold vecCmp
  repeat' (first | with_reducible assumption | intro _ | with_reducible apply foldl_wf | with_reducible apply vec_wf | with_reducible apply foldl_fst_wf | with_reducible apply foldl_snd_wf | dsimp only | split)

theorem execVadd_wf (m : Mods) (t : BitVec 3) (d a b : BitVec 7) (s : State) (hs : Memory.wf s.mem = true) (t' : State) : execVadd m t d a b s = .next t' → Memory.wf t'.mem = true := by
  unfold execVadd
  intro ht
  (repeat' (first | split at ht | dsimp only at ht)) <;> (injection ht with ht; subst ht) <;> 
  (repeat' (first | with_reducible assumption | intro _ | with_reducible apply foldl_wf | with_reducible apply vec2_wf | with_reducible apply foldl_fst_wf | with_reducible apply foldl_snd_wf | dsimp only | split))

theorem execVsub_wf (m : Mods) (t : BitVec 3) (d a b : BitVec 7) (s : State) (hs : Memory.wf s.mem = true) (t' : State) : execVsub m t d a b s = .next t' → Memory.wf t'.mem = true := by
  unfold execVsub
  intro ht
  (repeat' (first | split at ht | dsimp only at ht)) <;> (injection ht with ht; subst ht) <;> 
  (repeat' (first | with_reducible assumption | intro _ | with_reducible apply foldl_wf | with_reducible apply vec2_wf | with_reducible apply foldl_fst_wf | with_reducible apply foldl_snd_wf | dsimp only | split))

theorem execVmul_wf (m : Mods) (t : BitVec 3) (d a b : BitVec 7) (s : State) (hs : Memory.wf s.mem = true) (t' : State) : execVmul m t d a b s = .next t' → Memory.wf t'.mem = true := by
  unfold execVmul
  intro ht
  (repeat' (first | split at ht | dsimp only at ht)) <;> (injection ht with ht; subst ht) <;> 
  (repeat' (first | with_reducible assumption | intro _ | with_reducible apply foldl_wf | with_reducible apply vec2_wf | with_reducible apply foldl_fst_wf | with_reducible apply foldl_snd_wf | dsimp only | split))

theorem execVmulh_wf (m : Mods) (t : BitVec 3) (d a b : BitVec 7) (s : State) (hs : Memory.wf s.mem = true) (t' : State) : execVmulh m t d a b s = .next t' → Memory.wf t'.mem = true := by
  unfold execVmulh
  intro ht
  (repeat' (first | split at ht | dsimp only at ht)) <;> (injection ht with ht; subst ht) <;> 
  (repeat' (first | with_reducible assumption | intro _ | with_reducible apply foldl_wf | with_reducible apply vec2_wf | with_reducible apply foldl_fst_wf | with_reducible apply foldl_snd_wf | dsimp only | split))

theorem execVmad_wf (m : Mods) (t : BitVec 3) (d a b : BitVec 7) (s : State) (hs : Memory.wf s.mem = true) (t' : State) : execVmad m t d a b s = .next t' → Memory.wf t'.mem = true := by
  unfold execVmad
  intro ht
  (repeat' (first | split at ht | dsimp only at ht)) <;> (injection ht with ht; subst ht) <;> 
  (repeat' (first | with_reducible assumption | intro _ | with_reducible apply foldl_wf | with_reducible apply vec_wf | with_reducible apply foldl_fst_wf | with_reducible apply foldl_snd_wf | dsimp only | split))

theorem execVdiv_wf (m : Mods) (t : BitVec 3) (d a b : BitVec 7) (s : State) (hs : Memory.wf s.mem = true) (t' : State) : execVdiv m t d a b s = .next t' → Memory.wf t'.mem = true := by
  unfold execVdiv
  intro ht
  (repeat' (first | split at ht | dsimp only at ht)) <;> (injection ht with ht; subst ht) <;> 
  (repeat' (first | with_reducible assumption | intro _ | with_reducible apply foldl_wf | with_reducible apply vec_wf | with_reducible apply foldl_fst_wf | with_reducible apply foldl_snd_wf | dsimp only | split))

theorem execVrem_wf (m : Mods) (t : BitVec 3) (d a b : BitVec 7) (s : State) (hs : Memory.wf s.mem = true) (t' : State) : execVrem m t d a b s = .next t' → Memory.wf t'.mem = true := by
  unfold execVrem
  intro ht
  (repeat' (first | split at ht | dsimp only at ht)) <;> (injection ht with ht; subst ht) <;> 
  (repeat' (first | with_reducible assumption | intro _ | with_reducible apply foldl_wf | with_reducible apply vec_wf | with_reducible apply foldl_fst_wf | with_reducible apply foldl_snd_wf | dsimp only | split))

theorem execVmin_wf (m : Mods) (t : BitVec 3) (d a b : BitVec 7) (s : State) (hs : Memory.wf s.mem = true) (t' : State) : execVmin m t d a b s = .next t' → Memory.wf t'.mem = true := by
  unfold execVmin
  intro ht
  (repeat' (first | split at ht | dsimp only at ht)) <;> (injection ht with ht; subst ht) <;> 
  (repeat' (first | with_reducible assumption | intro _ | with_reducible apply foldl_wf | with_reducible apply vec2_wf | with_reducible apply foldl_fst_wf | with_reducible apply foldl_snd_wf | dsimp only | split))

theorem execVmax_wf (m : Mods) (t : BitVec 3) (d a b : BitVec 7) (s : State) (hs : Memory.wf s.mem = true) (t' : State) : execVmax m t d a b s = .next t' → Memory.wf t'.mem = true := by
  unfold execVmax
  intro ht
  (repeat' (first | split at ht | dsimp only at ht)) <;> (injection ht with ht; subst ht) <;> 
  (repeat' (first | with_reducible assumption | intro _ | with_reducible apply foldl_wf | with_reducible apply vec2_wf | with_reducible apply foldl_fst_wf | with_reducible apply foldl_snd_wf | dsimp only | split))

theorem execVabs_wf (m : Mods) (t : BitVec 3) (d a : BitVec 7) (s : State) (hs : Memory.wf s.mem = true) (t' : State) : execVabs m t d a s = .next t' → Memory.wf t'.mem = true := by
  unfold execVabs
  intro ht
  (repeat' (first | split at ht | dsimp only at ht)) <;> (injection ht with ht; subst ht) <;> 
  (repeat' (first | with_reducible assumption | intro _ | with_reducible apply foldl_wf | with_reducible apply vec1_wf | with_reducible apply foldl_fst_wf | with_reducible apply foldl_snd_wf | dsimp only | split))

theorem execVand_wf (m : Mods) (t : BitVec 3) (d a b : BitVec 7) (s : State) (hs : Memory.wf s.mem = true) (t' : State) : execVand m t d a b s = .next t' → Memory.wf t'.mem = true := by
  unfold execVand
  intro ht
  (repeat' (first | split at ht | dsimp only at ht)) <;> (injection ht with ht; subst ht) <;> 
  (repeat' (first | with_reducible assumption | intro _ | with_reducible apply foldl_wf | with_reducible apply vecBits_wf | with_reducible apply foldl_fst_wf | with_reducible apply foldl_snd_wf | dsimp only | split))

theorem execVor_wf (m : Mods) (t : BitVec 3) (d a b : BitVec 7) (s : State) (hs : Memory.wf s.mem = true) (t' : State) : execVor m t d a b s = .next t' → Memory.wf t'.mem = true := by
  unfold execVor
  intro ht
  (repeat' (first | split at ht | dsimp only at ht)) <;> (injection ht with ht; subst ht) <;> 
  (repeat' (first | with_reducible assumption | intro _ | with_reducible apply foldl_wf | with_reducible apply vecBits_wf | with_reducible apply foldl_fst_wf | with_reducible apply foldl_snd_wf | dsimp only | split))

theorem execVxor_wf (m : Mods) (t : BitVec 3) (d a b : BitVec 7) (s : State) (hs : Memory.wf s.mem = true) (t' : State) : execVxor m t d a b s = .next t' → Memory.wf t'.mem = true := by
  unfold execVxor
  intro ht
  (repeat' (first | split at ht | dsimp only at ht)) <;> (injection ht with ht; subst ht) <;> 
  (repeat' (first | with_reducible assumption | intro _ | with_reducible apply foldl_wf | with_reducible apply vecBits_wf | with_reducible apply foldl_fst_wf | with_reducible apply foldl_snd_wf | dsimp only | split))

theorem execVnot_wf (m : Mods) (t : BitVec 3) (d a : BitVec 7) (s : State) (hs : Memory.wf s.mem = true) (t' : State) : execVnot m t d a s = .next t' → Memory.wf t'.mem = true := by
  unfold execVnot
  intro ht
  (repeat' (first | split at ht | dsimp only at ht)) <;> (injection ht with ht; subst ht) <;> 
  (repeat' (first | with_reducible assumption | intro _ | with_reducible apply foldl_wf | with_reducible apply vec1_wf | with_reducible apply foldl_fst_wf | with_reducible apply foldl_snd_wf | dsimp only | split))

theorem execVshl_wf (m : Mods) (t : BitVec 3) (d a b : BitVec 7) (s : State) (hs : Memory.wf s.mem = true) (t' : State) : execVshl m t d a b s = .next t' → Memory.wf t'.mem = true := by
  unfold execVshl
  intro ht
  (repeat' (first | split at ht | dsimp only at ht)) <;> (injection ht with ht; subst ht) <;> 
  (repeat' (first | with_reducible assumption | intro _ | with_reducible apply foldl_wf | with_reducible apply vec_wf | with_reducible apply foldl_fst_wf | with_reducible apply foldl_snd_wf | dsimp only | split))

theorem execVshr_wf (m : Mods) (t : BitVec 3) (d a b : BitVec 7) (s : State) (hs : Memory.wf s.mem = true) (t' : State) : execVshr m t d a b s = .next t' → Memory.wf t'.mem = true := by
  unfold execVshr
  intro ht
  (repeat' (first | split at ht | dsimp only at ht)) <;> (injection ht with ht; subst ht) <;> 
  (repeat' (first | with_reducible assumption | intro _ | with_reducible apply foldl_wf | with_reducible apply vecShift_wf | with_reducible apply foldl_fst_wf | with_reducible apply foldl_snd_wf | dsimp only | split))

theorem execVsra_wf (m : Mods) (t : BitVec 3) (d a b : BitVec 7) (s : State) (hs : Memory.wf s.mem = true) (t' : State) : execVsra m t d a b s = .next t' → Memory.wf t'.mem = true := by
  unfold execVsra
  intro ht
  (repeat' (first | split at ht | dsimp only at ht)) <;> (injection ht with ht; subst ht) <;> 
  (repeat' (first | with_reducible assumption | intro _ | with_reducible apply foldl_wf | with_reducible apply vecShift_wf | with_reducible apply foldl_fst_wf | with_reducible apply foldl_snd_wf | dsimp only | split))

theorem execVrot_wf (m : Mods) (t : BitVec 3) (d a b : BitVec 7) (s : State) (hs : Memory.wf s.mem = true) (t' : State) : execVrot m t d a b s = .next t' → Memory.wf t'.mem = true := by
  unfold execVrot
  intro ht
  (repeat' (first | split at ht | dsimp only at ht)) <;> (injection ht with ht; subst ht) <;> 
  (repeat' (first | with_reducible assumption | intro _ | with_reducible apply foldl_wf | with_reducible apply vecShift_wf | with_reducible apply foldl_fst_wf | with_reducible apply foldl_snd_wf | dsimp only | split))

theorem execVclz_wf (m : Mods) (t : BitVec 3) (d a : BitVec 7) (s : State) (hs : Memory.wf s.mem = true) (t' : State) : execVclz m t d a s = .next t' → Memory.wf t'.mem = true := by
  unfold execVclz
  intro ht
  (repeat' (first | split at ht | dsimp only at ht)) <;> (injection ht with ht; subst ht) <;> 
  (repeat' (first | with_reducible assumption | intro _ | with_reducible apply foldl_wf | with_reducible apply vecCount_wf | with_reducible apply foldl_fst_wf | with_reducible apply foldl_snd_wf | dsimp only | split))

theorem execVpopc_wf (m : Mods) (t : BitVec 3) (d a : BitVec 7) (s : State) (hs : Memory.wf s.mem = true) (t' : State) : execVpopc m t d a s = .next t' → Memory.wf t'.mem = true := by
  unfold execVpopc
  intro ht
  (repeat' (first | split at ht | dsimp only at ht)) <;> (injection ht with ht; subst ht) <;> 
  (repeat' (first | with_reducible assumption | intro _ | with_reducible apply foldl_wf | with_reducible apply vecCount_wf | with_reducible apply foldl_fst_wf | with_reducible apply foldl_snd_wf | dsimp only | split))

theorem execVbrev_wf (m : Mods) (t : BitVec 3) (d a : BitVec 7) (s : State) (hs : Memory.wf s.mem = true) (t' : State) : execVbrev m t d a s = .next t' → Memory.wf t'.mem = true := by
  unfold execVbrev
  intro ht
  (repeat' (first | split at ht | dsimp only at ht)) <;> (injection ht with ht; subst ht) <;> 
  (repeat' (first | with_reducible assumption | intro _ | with_reducible apply foldl_wf | with_reducible apply vec_wf | with_reducible apply foldl_fst_wf | with_reducible apply foldl_snd_wf | dsimp only | split))

theorem execVsel_wf (m : Mods) (q : BitVec 3) (d a b : BitVec 7) (s : State) (hs : Memory.wf s.mem = true) (t' : State) : execVsel m q d a b s = .next t' → Memory.wf t'.mem = true := by
  unfold execVsel
  intro ht
  (repeat' (first | split at ht | dsimp only at ht)) <;> (injection ht with ht; subst ht) <;> 
  (repeat' (first | with_reducible assumption | intro _ | with_reducible apply foldl_wf | with_reducible apply vec_wf | with_reducible apply foldl_fst_wf | with_reducible apply foldl_snd_wf | dsimp only | split))

theorem execVmov_wf (m : Mods) (w : BitVec 1) (d a : BitVec 7) (s : State) (hs : Memory.wf s.mem = true) (t' : State) : execVmov m w d a s = .next t' → Memory.wf t'.mem = true := by
  unfold execVmov
  intro ht
  (repeat' (first | split at ht | dsimp only at ht)) <;> (injection ht with ht; subst ht) <;> 
  (repeat' (first | with_reducible assumption | intro _ | with_reducible apply foldl_wf | with_reducible apply vec_wf | with_reducible apply foldl_fst_wf | with_reducible apply foldl_snd_wf | dsimp only | split))

theorem execVbcast_wf (m : Mods) (w : BitVec 1) (d a : BitVec 7) (s : State) (hs : Memory.wf s.mem = true) (t' : State) : execVbcast m w d a s = .next t' → Memory.wf t'.mem = true := by
  unfold execVbcast
  intro ht
  (repeat' (first | split at ht | dsimp only at ht)) <;> (injection ht with ht; subst ht) <;> 
  (repeat' (first | with_reducible assumption | intro _ | with_reducible apply foldl_wf | with_reducible apply vec_wf | with_reducible apply foldl_fst_wf | with_reducible apply foldl_snd_wf | dsimp only | split))

theorem execVli_wf (m : Mods) (d i : BitVec 7) (s : State) (hs : Memory.wf s.mem = true) (t' : State) : execVli m d i s = .next t' → Memory.wf t'.mem = true := by
  unfold execVli
  intro ht
  (repeat' (first | split at ht | dsimp only at ht)) <;> (injection ht with ht; subst ht) <;> 
  (repeat' (first | with_reducible assumption | intro _ | with_reducible apply foldl_wf | with_reducible apply vec_wf | with_reducible apply foldl_fst_wf | with_reducible apply foldl_snd_wf | dsimp only | split))

theorem execVliHi_wf (m : Mods) (d i : BitVec 7) (s : State) (hs : Memory.wf s.mem = true) (t' : State) : execVliHi m d i s = .next t' → Memory.wf t'.mem = true := by
  unfold execVliHi
  intro ht
  (repeat' (first | split at ht | dsimp only at ht)) <;> (injection ht with ht; subst ht) <;> 
  (repeat' (first | with_reducible assumption | intro _ | with_reducible apply foldl_wf | with_reducible apply vec_wf | with_reducible apply foldl_fst_wf | with_reducible apply foldl_snd_wf | dsimp only | split))

theorem execVcmpEq_wf (m : Mods) (t : BitVec 3) (d a b : BitVec 7) (s : State) (hs : Memory.wf s.mem = true) (t' : State) : execVcmpEq m t d a b s = .next t' → Memory.wf t'.mem = true := by
  unfold execVcmpEq
  intro ht
  (repeat' (first | split at ht | dsimp only at ht)) <;> (injection ht with ht; subst ht) <;> 
  (repeat' (first | with_reducible assumption | intro _ | with_reducible apply foldl_wf | with_reducible apply vecCmp_wf | with_reducible apply foldl_fst_wf | with_reducible apply foldl_snd_wf | dsimp only | split))

theorem execVcmpNe_wf (m : Mods) (t : BitVec 3) (d a b : BitVec 7) (s : State) (hs : Memory.wf s.mem = true) (t' : State) : execVcmpNe m t d a b s = .next t' → Memory.wf t'.mem = true := by
  unfold execVcmpNe
  intro ht
  (repeat' (first | split at ht | dsimp only at ht)) <;> (injection ht with ht; subst ht) <;> 
  (repeat' (first | with_reducible assumption | intro _ | with_reducible apply foldl_wf | with_reducible apply vecCmp_wf | with_reducible apply foldl_fst_wf | with_reducible apply foldl_snd_wf | dsimp only | split))

theorem execVcmpLt_wf (m : Mods) (t : BitVec 3) (d a b : BitVec 7) (s : State) (hs : Memory.wf s.mem = true) (t' : State) : execVcmpLt m t d a b s = .next t' → Memory.wf t'.mem = true := by
  unfold execVcmpLt
  intro ht
  (repeat' (first | split at ht | dsimp only at ht)) <;> (injection ht with ht; subst ht) <;> 
  (repeat' (first | with_reducible assumption | intro _ | with_reducible apply foldl_wf | with_reducible apply vecCmp_wf | with_reducible apply foldl_fst_wf | with_reducible apply foldl_snd_wf | dsimp only | split))

theorem execVcmpLe_wf (m : Mods) (t : BitVec 3) (d a b : BitVec 7) (s : State) (hs : Memory.wf s.mem = true) (t' : State) : execVcmpLe m t d a b s = .next t' → Memory.wf t'.mem = true := by
  unfold execVcmpLe
  intro ht
  (repeat' (first | split at ht | dsimp only at ht)) <;> (injection ht with ht; subst ht) <;> 
  (repeat' (first | with_reducible assumption | intro _ | with_reducible apply foldl_wf | with_reducible apply vecCmp_wf | with_reducible apply foldl_fst_wf | with_reducible apply foldl_snd_wf | dsimp only | split))

theorem execVcmpGt_wf (m : Mods) (t : BitVec 3) (d a b : BitVec 7) (s : State) (hs : Memory.wf s.mem = true) (t' : State) : execVcmpGt m t d a b s = .next t' → Memory.wf t'.mem = true := by
  unfold execVcmpGt
  intro ht
  (repeat' (first | split at ht | dsimp only at ht)) <;> (injection ht with ht; subst ht) <;> 
  (repeat' (first | with_reducible assumption | intro _ | with_reducible apply foldl_wf | with_reducible apply vecCmp_wf | with_reducible apply foldl_fst_wf | with_reducible apply foldl_snd_wf | dsimp only | split))

theorem execVcmpGe_wf (m : Mods) (t : BitVec 3) (d a b : BitVec 7) (s : State) (hs : Memory.wf s.mem = true) (t' : State) : execVcmpGe m t d a b s = .next t' → Memory.wf t'.mem = true := by
  unfold execVcmpGe
  intro ht
  (repeat' (first | split at ht | dsimp only at ht)) <;> (injection ht with ht; subst ht) <;> 
  (repeat' (first | with_reducible assumption | intro _ | with_reducible apply foldl_wf | with_reducible apply vecCmp_wf | with_reducible apply foldl_fst_wf | with_reducible apply foldl_snd_wf | dsimp only | split))

theorem execVcvti_wf (m : Mods) (t : BitVec 3) (d a : BitVec 7) (src : BitVec 3) (s : State) (hs : Memory.wf s.mem = true) (t' : State) : execVcvti m t d a src s = .next t' → Memory.wf t'.mem = true := by
  unfold execVcvti
  intro ht
  (repeat' (first | split at ht | dsimp only at ht)) <;> (injection ht with ht; subst ht) <;> 
  (repeat' (first | with_reducible assumption | intro _ | with_reducible apply foldl_wf | with_reducible apply vec_wf | with_reducible apply foldl_fst_wf | with_reducible apply foldl_snd_wf | dsimp only | split))

theorem pred_wf (i : Instr) (d a b : BitVec 7) (op : Nat → Nat → Nat) (s : State) (hs : Memory.wf s.mem = true) : Memory.wf (pred i d a b op s).mem = true := by
  unfold pred
  repeat' (first | with_reducible assumption | intro _ | with_reducible apply foldl_wf | with_reducible apply vec_wf | with_reducible apply foldl_fst_wf | with_reducible apply foldl_snd_wf | dsimp only | split)

theorem execQand_wf (m : Mods) (d a b : BitVec 7) (s : State) (hs : Memory.wf s.mem = true) (t' : State) : execQand m d a b s = .next t' → Memory.wf t'.mem = true := by
  unfold execQand
  intro ht
  (repeat' (first | split at ht | dsimp only at ht)) <;> (injection ht with ht; subst ht) <;> 
  (repeat' (first | with_reducible assumption | intro _ | with_reducible apply foldl_wf | with_reducible apply pred_wf | with_reducible apply foldl_fst_wf | with_reducible apply foldl_snd_wf | dsimp only | split))

theorem execQor_wf (m : Mods) (d a b : BitVec 7) (s : State) (hs : Memory.wf s.mem = true) (t' : State) : execQor m d a b s = .next t' → Memory.wf t'.mem = true := by
  unfold execQor
  intro ht
  (repeat' (first | split at ht | dsimp only at ht)) <;> (injection ht with ht; subst ht) <;> 
  (repeat' (first | with_reducible assumption | intro _ | with_reducible apply foldl_wf | with_reducible apply pred_wf | with_reducible apply foldl_fst_wf | with_reducible apply foldl_snd_wf | dsimp only | split))

theorem execQxor_wf (m : Mods) (d a b : BitVec 7) (s : State) (hs : Memory.wf s.mem = true) (t' : State) : execQxor m d a b s = .next t' → Memory.wf t'.mem = true := by
  unfold execQxor
  intro ht
  (repeat' (first | split at ht | dsimp only at ht)) <;> (injection ht with ht; subst ht) <;> 
  (repeat' (first | with_reducible assumption | intro _ | with_reducible apply foldl_wf | with_reducible apply vec_wf | with_reducible apply foldl_fst_wf | with_reducible apply foldl_snd_wf | dsimp only | split))

theorem execQnot_wf (m : Mods) (d a : BitVec 7) (s : State) (hs : Memory.wf s.mem = true) (t' : State) : execQnot m d a s = .next t' → Memory.wf t'.mem = true := by
  unfold execQnot
  intro ht
  (repeat' (first | split at ht | dsimp only at ht)) <;> (injection ht with ht; subst ht) <;> 
  (repeat' (first | with_reducible assumption | intro _ | with_reducible apply foldl_wf | with_reducible apply vec_wf | with_reducible apply foldl_fst_wf | with_reducible apply foldl_snd_wf | dsimp only | split))

theorem execQmov_wf (m : Mods) (d a : BitVec 7) (s : State) (hs : Memory.wf s.mem = true) (t' : State) : execQmov m d a s = .next t' → Memory.wf t'.mem = true := by
  unfold execQmov
  intro ht
  (repeat' (first | split at ht | dsimp only at ht)) <;> (injection ht with ht; subst ht) <;> 
  (repeat' (first | with_reducible assumption | intro _ | with_reducible apply foldl_wf | with_reducible apply vec_wf | with_reducible apply foldl_fst_wf | with_reducible apply foldl_snd_wf | dsimp only | split))

theorem flt_wf (i : Instr) (dst : Dst) (a b c : Src) (warn : W32) (op : Env → Out) (s : State) (hs : Memory.wf s.mem = true) : Memory.wf (flt i dst a b c warn op s).mem = true := by
  unfold flt
  repeat' (first | with_reducible assumption | intro _ | with_reducible apply foldl_wf | with_reducible apply State.alu_wf | with_reducible apply State.warn_wf | with_reducible apply foldl_fst_wf | with_reducible apply foldl_snd_wf | dsimp only | split)

theorem flt2_wf (i : Instr) (m : Mods) (t : BitVec 2) (d a b : BitVec 7) (op : Env → Num → Num → Nat × Nat) (s : State) (hs : Memory.wf s.mem = true) : Memory.wf (flt2 i m t d a b op s).mem = true := by
  unfold flt2
  repeat' (first | with_reducible assumption | intro _ | with_reducible apply foldl_wf | with_reducible apply flt_wf | with_reducible apply foldl_fst_wf | with_reducible apply foldl_snd_wf | dsimp only | split)

theorem fltBits_wf (i : Instr) (m : Mods) (t : BitVec 2) (d a b : BitVec 7) (op : Nat → Nat → Nat × Nat) (s : State) (hs : Memory.wf s.mem = true) : Memory.wf (fltBits i m t d a b op s).mem = true := by
  unfold fltBits
  repeat' (first | with_reducible assumption | intro _ | with_reducible apply foldl_wf | with_reducible apply flt_wf | with_reducible apply foldl_fst_wf | with_reducible apply foldl_snd_wf | dsimp only | split)

theorem fltCmp_wf (i : Instr) (m : Mods) (t : BitVec 2) (d a b : BitVec 7) (c : Nat) (s : State) (hs : Memory.wf s.mem = true) : Memory.wf (fltCmp i m t d a b c s).mem = true := by
  unfold fltCmp
  repeat' (first | with_reducible assumption | intro _ | with_reducible apply foldl_wf | with_reducible apply flt_wf | with_reducible apply foldl_fst_wf | with_reducible apply foldl_snd_wf | dsimp only | split)

theorem execFadd_wf (m : Mods) (t : BitVec 2) (d a b : BitVec 7) (s : State) (hs : Memory.wf s.mem = true) (t' : State) : execFadd m t d a b s = .next t' → Memory.wf t'.mem = true := by
  unfold execFadd
  intro ht
  (repeat' (first | split at ht | dsimp only at ht)) <;> (injection ht with ht; subst ht) <;> 
  (repeat' (first | with_reducible assumption | intro _ | with_reducible apply foldl_wf | with_reducible apply flt2_wf | with_reducible apply foldl_fst_wf | with_reducible apply foldl_snd_wf | dsimp only | split))

theorem execFsub_wf (m : Mods) (t : BitVec 2) (d a b : BitVec 7) (s : State) (hs : Memory.wf s.mem = true) (t' : State) : execFsub m t d a b s = .next t' → Memory.wf t'.mem = true := by
  unfold execFsub
  intro ht
  (repeat' (first | split at ht | dsimp only at ht)) <;> (injection ht with ht; subst ht) <;> 
  (repeat' (first | with_reducible assumption | intro _ | with_reducible apply foldl_wf | with_reducible apply flt2_wf | with_reducible apply foldl_fst_wf | with_reducible apply foldl_snd_wf | dsimp only | split))

theorem execFmul_wf (m : Mods) (t : BitVec 2) (d a b : BitVec 7) (s : State) (hs : Memory.wf s.mem = true) (t' : State) : execFmul m t d a b s = .next t' → Memory.wf t'.mem = true := by
  unfold execFmul
  intro ht
  (repeat' (first | split at ht | dsimp only at ht)) <;> (injection ht with ht; subst ht) <;> 
  (repeat' (first | with_reducible assumption | intro _ | with_reducible apply foldl_wf | with_reducible apply flt2_wf | with_reducible apply foldl_fst_wf | with_reducible apply foldl_snd_wf | dsimp only | split))

theorem execFfma_wf (m : Mods) (t : BitVec 2) (d a b : BitVec 7) (s : State) (hs : Memory.wf s.mem = true) (t' : State) : execFfma m t d a b s = .next t' → Memory.wf t'.mem = true := by
  unfold execFfma
  intro ht
  (repeat' (first | split at ht | dsimp only at ht)) <;> (injection ht with ht; subst ht) <;> 
  (repeat' (first | with_reducible assumption | intro _ | with_reducible apply foldl_wf | with_reducible apply flt_wf | with_reducible apply foldl_fst_wf | with_reducible apply foldl_snd_wf | dsimp only | split))

theorem execFmin_wf (m : Mods) (t : BitVec 2) (d a b : BitVec 7) (s : State) (hs : Memory.wf s.mem = true) (t' : State) : execFmin m t d a b s = .next t' → Memory.wf t'.mem = true := by
  unfold execFmin
  intro ht
  (repeat' (first | split at ht | dsimp only at ht)) <;> (injection ht with ht; subst ht) <;> 
  (repeat' (first | with_reducible assumption | intro _ | with_reducible apply foldl_wf | with_reducible apply fltBits_wf | with_reducible apply foldl_fst_wf | with_reducible apply foldl_snd_wf | dsimp only | split))

theorem execFmax_wf (m : Mods) (t : BitVec 2) (d a b : BitVec 7) (s : State) (hs : Memory.wf s.mem = true) (t' : State) : execFmax m t d a b s = .next t' → Memory.wf t'.mem = true := by
  unfold execFmax
  intro ht
  (repeat' (first | split at ht | dsimp only at ht)) <;> (injection ht with ht; subst ht) <;> 
  (repeat' (first | with_reducible assumption | intro _ | with_reducible apply foldl_wf | with_reducible apply fltBits_wf | with_reducible apply foldl_fst_wf | with_reducible apply foldl_snd_wf | dsimp only | split))

theorem execFsgn_wf (m : Mods) (t : BitVec 2) (d a b : BitVec 7) (s : State) (hs : Memory.wf s.mem = true) (t' : State) : execFsgn m t d a b s = .next t' → Memory.wf t'.mem = true := by
  unfold execFsgn
  intro ht
  (repeat' (first | split at ht | dsimp only at ht)) <;> (injection ht with ht; subst ht) <;> 
  (repeat' (first | with_reducible assumption | intro _ | with_reducible apply foldl_wf | with_reducible apply fltBits_wf | with_reducible apply foldl_fst_wf | with_reducible apply foldl_snd_wf | dsimp only | split))

theorem execFsgnNeg_wf (m : Mods) (t : BitVec 2) (d a b : BitVec 7) (s : State) (hs : Memory.wf s.mem = true) (t' : State) : execFsgnNeg m t d a b s = .next t' → Memory.wf t'.mem = true := by
  unfold execFsgnNeg
  intro ht
  (repeat' (first | split at ht | dsimp only at ht)) <;> (injection ht with ht; subst ht) <;> 
  (repeat' (first | with_reducible assumption | intro _ | with_reducible apply foldl_wf | with_reducible apply fltBits_wf | with_reducible apply foldl_fst_wf | with_reducible apply foldl_snd_wf | dsimp only | split))

theorem execFsgnXor_wf (m : Mods) (t : BitVec 2) (d a b : BitVec 7) (s : State) (hs : Memory.wf s.mem = true) (t' : State) : execFsgnXor m t d a b s = .next t' → Memory.wf t'.mem = true := by
  unfold execFsgnXor
  intro ht
  (repeat' (first | split at ht | dsimp only at ht)) <;> (injection ht with ht; subst ht) <;> 
  (repeat' (first | with_reducible assumption | intro _ | with_reducible apply foldl_wf | with_reducible apply fltBits_wf | with_reducible apply foldl_fst_wf | with_reducible apply foldl_snd_wf | dsimp only | split))

theorem execFcmpEq_wf (m : Mods) (t : BitVec 2) (d a b : BitVec 7) (s : State) (hs : Memory.wf s.mem = true) (t' : State) : execFcmpEq m t d a b s = .next t' → Memory.wf t'.mem = true := by
  unfold execFcmpEq
  intro ht
  (repeat' (first | split at ht | dsimp only at ht)) <;> (injection ht with ht; subst ht) <;> 
  (repeat' (first | with_reducible assumption | intro _ | with_reducible apply foldl_wf | with_reducible apply fltCmp_wf | with_reducible apply foldl_fst_wf | with_reducible apply foldl_snd_wf | dsimp only | split))

theorem execFcmpNe_wf (m : Mods) (t : BitVec 2) (d a b : BitVec 7) (s : State) (hs : Memory.wf s.mem = true) (t' : State) : execFcmpNe m t d a b s = .next t' → Memory.wf t'.mem = true := by
  unfold execFcmpNe
  intro ht
  (repeat' (first | split at ht | dsimp only at ht)) <;> (injection ht with ht; subst ht) <;> 
  (repeat' (first | with_reducible assumption | intro _ | with_reducible apply foldl_wf | with_reducible apply fltCmp_wf | with_reducible apply foldl_fst_wf | with_reducible apply foldl_snd_wf | dsimp only | split))

theorem execFcmpLt_wf (m : Mods) (t : BitVec 2) (d a b : BitVec 7) (s : State) (hs : Memory.wf s.mem = true) (t' : State) : execFcmpLt m t d a b s = .next t' → Memory.wf t'.mem = true := by
  unfold execFcmpLt
  intro ht
  (repeat' (first | split at ht | dsimp only at ht)) <;> (injection ht with ht; subst ht) <;> 
  (repeat' (first | with_reducible assumption | intro _ | with_reducible apply foldl_wf | with_reducible apply fltCmp_wf | with_reducible apply foldl_fst_wf | with_reducible apply foldl_snd_wf | dsimp only | split))

theorem execFcmpLe_wf (m : Mods) (t : BitVec 2) (d a b : BitVec 7) (s : State) (hs : Memory.wf s.mem = true) (t' : State) : execFcmpLe m t d a b s = .next t' → Memory.wf t'.mem = true := by
  unfold execFcmpLe
  intro ht
  (repeat' (first | split at ht | dsimp only at ht)) <;> (injection ht with ht; subst ht) <;> 
  (repeat' (first | with_reducible assumption | intro _ | with_reducible apply foldl_wf | with_reducible apply fltCmp_wf | with_reducible apply foldl_fst_wf | with_reducible apply foldl_snd_wf | dsimp only | split))

theorem execFcmpGt_wf (m : Mods) (t : BitVec 2) (d a b : BitVec 7) (s : State) (hs : Memory.wf s.mem = true) (t' : State) : execFcmpGt m t d a b s = .next t' → Memory.wf t'.mem = true := by
  unfold execFcmpGt
  intro ht
  (repeat' (first | split at ht | dsimp only at ht)) <;> (injection ht with ht; subst ht) <;> 
  (repeat' (first | with_reducible assumption | intro _ | with_reducible apply foldl_wf | with_reducible apply fltCmp_wf | with_reducible apply foldl_fst_wf | with_reducible apply foldl_snd_wf | dsimp only | split))

theorem execFcmpGe_wf (m : Mods) (t : BitVec 2) (d a b : BitVec 7) (s : State) (hs : Memory.wf s.mem = true) (t' : State) : execFcmpGe m t d a b s = .next t' → Memory.wf t'.mem = true := by
  unfold execFcmpGe
  intro ht
  (repeat' (first | split at ht | dsimp only at ht)) <;> (injection ht with ht; subst ht) <;> 
  (repeat' (first | with_reducible assumption | intro _ | with_reducible apply foldl_wf | with_reducible apply fltCmp_wf | with_reducible apply foldl_fst_wf | with_reducible apply foldl_snd_wf | dsimp only | split))

theorem execFcmpUn_wf (m : Mods) (t : BitVec 2) (d a b : BitVec 7) (s : State) (hs : Memory.wf s.mem = true) (t' : State) : execFcmpUn m t d a b s = .next t' → Memory.wf t'.mem = true := by
  unfold execFcmpUn
  intro ht
  (repeat' (first | split at ht | dsimp only at ht)) <;> (injection ht with ht; subst ht) <;> 
  (repeat' (first | with_reducible assumption | intro _ | with_reducible apply foldl_wf | with_reducible apply fltCmp_wf | with_reducible apply foldl_fst_wf | with_reducible apply foldl_snd_wf | dsimp only | split))

theorem execFcmpOr_wf (m : Mods) (t : BitVec 2) (d a b : BitVec 7) (s : State) (hs : Memory.wf s.mem = true) (t' : State) : execFcmpOr m t d a b s = .next t' → Memory.wf t'.mem = true := by
  unfold execFcmpOr
  intro ht
  (repeat' (first | split at ht | dsimp only at ht)) <;> (injection ht with ht; subst ht) <;> 
  (repeat' (first | with_reducible assumption | intro _ | with_reducible apply foldl_wf | with_reducible apply fltCmp_wf | with_reducible apply foldl_fst_wf | with_reducible apply foldl_snd_wf | dsimp only | split))

theorem execFclass_wf (m : Mods) (t : BitVec 2) (d a : BitVec 7) (s : State) (hs : Memory.wf s.mem = true) (t' : State) : execFclass m t d a s = .next t' → Memory.wf t'.mem = true := by
  unfold execFclass
  intro ht
  (repeat' (first | split at ht | dsimp only at ht)) <;> (injection ht with ht; subst ht) <;> 
  (repeat' (first | with_reducible assumption | intro _ | with_reducible apply foldl_wf | with_reducible apply flt_wf | with_reducible apply foldl_fst_wf | with_reducible apply foldl_snd_wf | dsimp only | split))

theorem execFcvt_wf (m : Mods) (f : BitVec 3) (d a : BitVec 7) (src : BitVec 3) (s : State) (hs : Memory.wf s.mem = true) (t' : State) : execFcvt m f d a src s = .next t' → Memory.wf t'.mem = true := by
  unfold execFcvt
  intro ht
  (repeat' (first | split at ht | dsimp only at ht)) <;> (injection ht with ht; subst ht) <;> 
  (repeat' (first | with_reducible assumption | intro _ | with_reducible apply foldl_wf | with_reducible apply flt_wf | with_reducible apply foldl_fst_wf | with_reducible apply foldl_snd_wf | dsimp only | split))

theorem execFcvtToInt_wf (m : Mods) (f : BitVec 3) (d a : BitVec 7) (src : BitVec 3) (s : State) (hs : Memory.wf s.mem = true) (t' : State) : execFcvtToInt m f d a src s = .next t' → Memory.wf t'.mem = true := by
  unfold execFcvtToInt
  intro ht
  (repeat' (first | split at ht | dsimp only at ht)) <;> (injection ht with ht; subst ht) <;> 
  (repeat' (first | with_reducible assumption | intro _ | with_reducible apply foldl_wf | with_reducible apply flt_wf | with_reducible apply foldl_fst_wf | with_reducible apply foldl_snd_wf | dsimp only | split))

theorem execFcvtFromInt_wf (m : Mods) (f : BitVec 3) (d a : BitVec 7) (src : BitVec 3) (s : State) (hs : Memory.wf s.mem = true) (t' : State) : execFcvtFromInt m f d a src s = .next t' → Memory.wf t'.mem = true := by
  unfold execFcvtFromInt
  intro ht
  (repeat' (first | split at ht | dsimp only at ht)) <;> (injection ht with ht; subst ht) <;> 
  (repeat' (first | with_reducible assumption | intro _ | with_reducible apply foldl_wf | with_reducible apply flt_wf | with_reducible apply foldl_fst_wf | with_reducible apply foldl_snd_wf | dsimp only | split))

theorem execFrnd_wf (m : Mods) (t : BitVec 2) (d a : BitVec 7) (s : State) (hs : Memory.wf s.mem = true) (t' : State) : execFrnd m t d a s = .next t' → Memory.wf t'.mem = true := by
  unfold execFrnd
  intro ht
  (repeat' (first | split at ht | dsimp only at ht)) <;> (injection ht with ht; subst ht) <;> 
  (repeat' (first | with_reducible assumption | intro _ | with_reducible apply foldl_wf | with_reducible apply flt_wf | with_reducible apply foldl_fst_wf | with_reducible apply foldl_snd_wf | dsimp only | split))

theorem packed_wf (i : Instr) (m : Mods) (f : BitVec 1) (d a b : BitVec 7) (c : Src) (srcs : Env → List Val) (op : Env → Bool → Nat × Nat) (s : State) (hs : Memory.wf s.mem = true) : Memory.wf (packed i m f d a b c srcs op s).mem = true := by
  unfold packed
  repeat' (first | with_reducible assumption | intro _ | with_reducible apply foldl_wf | with_reducible apply flt_wf | with_reducible apply foldl_fst_wf | with_reducible apply foldl_snd_wf | dsimp only | split)

theorem execHadd2_wf (m : Mods) (f : BitVec 1) (d a b : BitVec 7) (s : State) (hs : Memory.wf s.mem = true) (t' : State) : execHadd2 m f d a b s = .next t' → Memory.wf t'.mem = true := by
  unfold execHadd2
  intro ht
  (repeat' (first | split at ht | dsimp only at ht)) <;> (injection ht with ht; subst ht) <;> 
  (repeat' (first | with_reducible assumption | intro _ | with_reducible apply foldl_wf | with_reducible apply packed_wf | with_reducible apply foldl_fst_wf | with_reducible apply foldl_snd_wf | dsimp only | split))

theorem execHmul2_wf (m : Mods) (f : BitVec 1) (d a b : BitVec 7) (s : State) (hs : Memory.wf s.mem = true) (t' : State) : execHmul2 m f d a b s = .next t' → Memory.wf t'.mem = true := by
  unfold execHmul2
  intro ht
  (repeat' (first | split at ht | dsimp only at ht)) <;> (injection ht with ht; subst ht) <;> 
  (repeat' (first | with_reducible assumption | intro _ | with_reducible apply foldl_wf | with_reducible apply packed_wf | with_reducible apply foldl_fst_wf | with_reducible apply foldl_snd_wf | dsimp only | split))

theorem execHfma2_wf (m : Mods) (f : BitVec 1) (d a b : BitVec 7) (s : State) (hs : Memory.wf s.mem = true) (t' : State) : execHfma2 m f d a b s = .next t' → Memory.wf t'.mem = true := by
  unfold execHfma2
  intro ht
  (repeat' (first | split at ht | dsimp only at ht)) <;> (injection ht with ht; subst ht) <;> 
  (repeat' (first | with_reducible assumption | intro _ | with_reducible apply foldl_wf | with_reducible apply packed_wf | with_reducible apply foldl_fst_wf | with_reducible apply foldl_snd_wf | dsimp only | split))

theorem execHcmp2_wf (m : Mods) (c : BitVec 2) (f : BitVec 1) (d a b : BitVec 7) (s : State) (hs : Memory.wf s.mem = true) (t' : State) : execHcmp2 m c f d a b s = .next t' → Memory.wf t'.mem = true := by
  unfold execHcmp2
  intro ht
  (repeat' (first | split at ht | dsimp only at ht)) <;> (injection ht with ht; subst ht) <;> 
  (repeat' (first | with_reducible assumption | intro _ | with_reducible apply foldl_wf | with_reducible apply packed_wf | with_reducible apply foldl_fst_wf | with_reducible apply foldl_snd_wf | dsimp only | split))

theorem execWmad_wf (m : Mods) (f : BitVec 3) (w : BitVec 4) (a b : BitVec 7) (s : State) (hs : Memory.wf s.mem = true) (t' : State) : execWmad m f w a b s = .next t' → Memory.wf t'.mem = true := by
  unfold execWmad
  intro ht
  (repeat' (first | split at ht | dsimp only at ht)) <;> (injection ht with ht; subst ht) <;> 
  (repeat' (first | with_reducible assumption | intro _ | with_reducible apply foldl_wf | with_reducible apply flt_wf | with_reducible apply vec_wf | with_reducible apply foldl_fst_wf | with_reducible apply foldl_snd_wf | dsimp only | split))

theorem execWdot4_wf (m : Mods) (f : BitVec 3) (w : BitVec 4) (a b : BitVec 7) (s : State) (hs : Memory.wf s.mem = true) (t' : State) : execWdot4 m f w a b s = .next t' → Memory.wf t'.mem = true := by
  unfold execWdot4
  intro ht
  (repeat' (first | split at ht | dsimp only at ht)) <;> (injection ht with ht; subst ht) <;> 
  (repeat' (first | with_reducible assumption | intro _ | with_reducible apply foldl_wf | with_reducible apply vec_wf | with_reducible apply foldl_fst_wf | with_reducible apply foldl_snd_wf | dsimp only | split))

theorem execWaddAccumulator_wf (m : Mods) (f : BitVec 1) (d a b : BitVec 4) (s : State) (hs : Memory.wf s.mem = true) (t' : State) : execWaddAccumulator m f d a b s = .next t' → Memory.wf t'.mem = true := by
  unfold execWaddAccumulator
  intro ht
  (repeat' (first | split at ht | dsimp only at ht)) <;> (injection ht with ht; subst ht) <;> 
  (repeat' (first | with_reducible assumption | intro _ | with_reducible apply foldl_wf | with_reducible apply flt_wf | with_reducible apply foldl_fst_wf | with_reducible apply foldl_snd_wf | dsimp only | split))

theorem execWclr_wf (m : Mods) (d : BitVec 4) (s : State) (hs : Memory.wf s.mem = true) (t' : State) : execWclr m d s = .next t' → Memory.wf t'.mem = true := by
  unfold execWclr
  intro ht
  (repeat' (first | split at ht | dsimp only at ht)) <;> (injection ht with ht; subst ht) <;> 
  (repeat' (first | with_reducible assumption | intro _ | with_reducible apply foldl_wf | with_reducible apply vec_wf | with_reducible apply foldl_fst_wf | with_reducible apply foldl_snd_wf | dsimp only | split))

theorem execNarrow_wf (m : Mods) (f : BitVec 3) (d : BitVec 7) (a : BitVec 4) (s : State) (hs : Memory.wf s.mem = true) (t' : State) : execNarrow m f d a s = .next t' → Memory.wf t'.mem = true := by
  unfold execNarrow
  intro ht
  (repeat' (first | split at ht | dsimp only at ht)) <;> (injection ht with ht; subst ht) <;> 
  (repeat' (first | with_reducible assumption | intro _ | with_reducible apply foldl_wf | with_reducible apply State.narrow_wf | with_reducible apply flt_wf | with_reducible apply foldl_fst_wf | with_reducible apply foldl_snd_wf | dsimp only | split))

theorem execWiden_wf (m : Mods) (f : BitVec 3) (d : BitVec 4) (a : BitVec 7) (s : State) (hs : Memory.wf s.mem = true) (t' : State) : execWiden m f d a s = .next t' → Memory.wf t'.mem = true := by
  unfold execWiden
  intro ht
  (repeat' (first | split at ht | dsimp only at ht)) <;> (injection ht with ht; subst ht) <;> 
  (repeat' (first | with_reducible assumption | intro _ | with_reducible apply foldl_wf | with_reducible apply flt_wf | with_reducible apply foldl_fst_wf | with_reducible apply foldl_snd_wf | dsimp only | split))

theorem cross_wf (i : Instr) (dst : Dst) (a b : Src) (fp : Bool) (srcs : Env → List Val) (op : List Env → Env → Nat × Nat) (s : State) (hs : Memory.wf s.mem = true) : Memory.wf (cross i dst a b fp srcs op s).mem = true := by
  unfold cross
  repeat' (first | with_reducible assumption | intro _ | with_reducible apply foldl_wf | with_reducible apply State.alu_wf | with_reducible apply foldl_fst_wf | with_reducible apply foldl_snd_wf | dsimp only | split)

theorem execShfl_wf (m : Mods) (w : BitVec 1) (d a b : BitVec 7) (s : State) (hs : Memory.wf s.mem = true) (t' : State) : execShfl m w d a b s = .next t' → Memory.wf t'.mem = true := by
  unfold execShfl
  intro ht
  (repeat' (first | split at ht | dsimp only at ht)) <;> (injection ht with ht; subst ht) <;> 
  (repeat' (first | with_reducible assumption | intro _ | with_reducible apply foldl_wf | with_reducible apply cross_wf | with_reducible apply foldl_fst_wf | with_reducible apply foldl_snd_wf | dsimp only | split))

theorem execShflx_wf (m : Mods) (w : BitVec 1) (d a b : BitVec 7) (s : State) (hs : Memory.wf s.mem = true) (t' : State) : execShflx m w d a b s = .next t' → Memory.wf t'.mem = true := by
  unfold execShflx
  intro ht
  (repeat' (first | split at ht | dsimp only at ht)) <;> (injection ht with ht; subst ht) <;> 
  (repeat' (first | with_reducible assumption | intro _ | with_reducible apply foldl_wf | with_reducible apply cross_wf | with_reducible apply foldl_fst_wf | with_reducible apply foldl_snd_wf | dsimp only | split))

theorem execShflu_wf (m : Mods) (w : BitVec 1) (d a b : BitVec 7) (s : State) (hs : Memory.wf s.mem = true) (t' : State) : execShflu m w d a b s = .next t' → Memory.wf t'.mem = true := by
  unfold execShflu
  intro ht
  (repeat' (first | split at ht | dsimp only at ht)) <;> (injection ht with ht; subst ht) <;> 
  (repeat' (first | with_reducible assumption | intro _ | with_reducible apply foldl_wf | with_reducible apply cross_wf | with_reducible apply foldl_fst_wf | with_reducible apply foldl_snd_wf | dsimp only | split))

theorem execShfld_wf (m : Mods) (w : BitVec 1) (d a b : BitVec 7) (s : State) (hs : Memory.wf s.mem = true) (t' : State) : execShfld m w d a b s = .next t' → Memory.wf t'.mem = true := by
  unfold execShfld
  intro ht
  (repeat' (first | split at ht | dsimp only at ht)) <;> (injection ht with ht; subst ht) <;> 
  (repeat' (first | with_reducible assumption | intro _ | with_reducible apply foldl_wf | with_reducible apply cross_wf | with_reducible apply foldl_fst_wf | with_reducible apply foldl_snd_wf | dsimp only | split))

theorem execVote_wf (m : Mods) (f : BitVec 3) (d a : BitVec 7) (s : State) (hs : Memory.wf s.mem = true) (t' : State) : execVote m f d a s = .next t' → Memory.wf t'.mem = true := by
  unfold execVote
  intro ht
  (repeat' (first | split at ht | dsimp only at ht)) <;> (injection ht with ht; subst ht) <;> 
  (repeat' (first | with_reducible assumption | intro _ | with_reducible apply foldl_wf | with_reducible apply cross_wf | with_reducible apply foldl_fst_wf | with_reducible apply foldl_snd_wf | dsimp only | split))

theorem execRedg_wf (m : Mods) (f : BitVec 3) (d a : BitVec 7) (s : State) (hs : Memory.wf s.mem = true) (t' : State) : execRedg m f d a s = .next t' → Memory.wf t'.mem = true := by
  unfold execRedg
  intro ht
  (repeat' (first | split at ht | dsimp only at ht)) <;> (injection ht with ht; subst ht) <;> 
  (repeat' (first | with_reducible assumption | intro _ | with_reducible apply foldl_wf | with_reducible apply cross_wf | with_reducible apply foldl_fst_wf | with_reducible apply foldl_snd_wf | dsimp only | split))

theorem execScang_wf (m : Mods) (f : BitVec 3) (d a : BitVec 7) (s : State) (hs : Memory.wf s.mem = true) (t' : State) : execScang m f d a s = .next t' → Memory.wf t'.mem = true := by
  unfold execScang
  intro ht
  (repeat' (first | split at ht | dsimp only at ht)) <;> (injection ht with ht; subst ht) <;> 
  (repeat' (first | with_reducible assumption | intro _ | with_reducible apply foldl_wf | with_reducible apply cross_wf | with_reducible apply foldl_fst_wf | with_reducible apply foldl_snd_wf | dsimp only | split))

theorem execMatchLanes_wf (m : Mods) (f : BitVec 1) (d a : BitVec 7) (s : State) (hs : Memory.wf s.mem = true) (t' : State) : execMatchLanes m f d a s = .next t' → Memory.wf t'.mem = true := by
  unfold execMatchLanes
  intro ht
  (repeat' (first | split at ht | dsimp only at ht)) <;> (injection ht with ht; subst ht) <;> 
  (repeat' (first | with_reducible assumption | intro _ | with_reducible apply foldl_wf | with_reducible apply cross_wf | with_reducible apply foldl_fst_wf | with_reducible apply foldl_snd_wf | dsimp only | split))

theorem execVkey_wf (m : Mods) (t : BitVec 2) (d a : BitVec 7) (s : State) (hs : Memory.wf s.mem = true) (t' : State) : execVkey m t d a s = .next t' → Memory.wf t'.mem = true := by
  unfold execVkey
  intro ht
  (repeat' (first | split at ht | dsimp only at ht)) <;> (injection ht with ht; subst ht) <;> 
  (repeat' (first | with_reducible assumption | intro _ | with_reducible apply foldl_wf | with_reducible apply vec_wf | with_reducible apply foldl_fst_wf | with_reducible apply foldl_snd_wf | dsimp only | split))

theorem sfu_wf (i : Instr) (k : Special) (t : BitVec 2) (d a : BitVec 7) (s : State) (hs : Memory.wf s.mem = true) : Memory.wf (sfu i k t d a s).mem = true := by
  unfold sfu
  repeat' (first | with_reducible assumption | intro _ | with_reducible apply foldl_wf | with_reducible apply State.alu_wf | with_reducible apply foldl_fst_wf | with_reducible apply foldl_snd_wf | dsimp only | split)

theorem execSrcp_wf (m : Mods) (t : BitVec 2) (d a : BitVec 7) (s : State) (hs : Memory.wf s.mem = true) (t' : State) : execSrcp m t d a s = .next t' → Memory.wf t'.mem = true := by
  unfold execSrcp
  intro ht
  (repeat' (first | split at ht | dsimp only at ht)) <;> (injection ht with ht; subst ht) <;> 
  (repeat' (first | with_reducible assumption | intro _ | with_reducible apply foldl_wf | with_reducible apply sfu_wf | with_reducible apply foldl_fst_wf | with_reducible apply foldl_snd_wf | dsimp only | split))

theorem execSrsq_wf (m : Mods) (t : BitVec 2) (d a : BitVec 7) (s : State) (hs : Memory.wf s.mem = true) (t' : State) : execSrsq m t d a s = .next t' → Memory.wf t'.mem = true := by
  unfold execSrsq
  intro ht
  (repeat' (first | split at ht | dsimp only at ht)) <;> (injection ht with ht; subst ht) <;> 
  (repeat' (first | with_reducible assumption | intro _ | with_reducible apply foldl_wf | with_reducible apply sfu_wf | with_reducible apply foldl_fst_wf | with_reducible apply foldl_snd_wf | dsimp only | split))

theorem execSsqrt_wf (m : Mods) (t : BitVec 2) (d a : BitVec 7) (s : State) (hs : Memory.wf s.mem = true) (t' : State) : execSsqrt m t d a s = .next t' → Memory.wf t'.mem = true := by
  unfold execSsqrt
  intro ht
  (repeat' (first | split at ht | dsimp only at ht)) <;> (injection ht with ht; subst ht) <;> 
  (repeat' (first | with_reducible assumption | intro _ | with_reducible apply foldl_wf | with_reducible apply sfu_wf | with_reducible apply foldl_fst_wf | with_reducible apply foldl_snd_wf | dsimp only | split))

theorem execSexp2_wf (m : Mods) (t : BitVec 2) (d a : BitVec 7) (s : State) (hs : Memory.wf s.mem = true) (t' : State) : execSexp2 m t d a s = .next t' → Memory.wf t'.mem = true := by
  unfold execSexp2
  intro ht
  (repeat' (first | split at ht | dsimp only at ht)) <;> (injection ht with ht; subst ht) <;> 
  (repeat' (first | with_reducible assumption | intro _ | with_reducible apply foldl_wf | with_reducible apply sfu_wf | with_reducible apply foldl_fst_wf | with_reducible apply foldl_snd_wf | dsimp only | split))

theorem execSlog2_wf (m : Mods) (t : BitVec 2) (d a : BitVec 7) (s : State) (hs : Memory.wf s.mem = true) (t' : State) : execSlog2 m t d a s = .next t' → Memory.wf t'.mem = true := by
  unfold execSlog2
  intro ht
  (repeat' (first | split at ht | dsimp only at ht)) <;> (injection ht with ht; subst ht) <;> 
  (repeat' (first | with_reducible assumption | intro _ | with_reducible apply foldl_wf | with_reducible apply sfu_wf | with_reducible apply foldl_fst_wf | with_reducible apply foldl_snd_wf | dsimp only | split))

theorem execSsin_wf (m : Mods) (t : BitVec 2) (d a : BitVec 7) (s : State) (hs : Memory.wf s.mem = true) (t' : State) : execSsin m t d a s = .next t' → Memory.wf t'.mem = true := by
  unfold execSsin
  intro ht
  (repeat' (first | split at ht | dsimp only at ht)) <;> (injection ht with ht; subst ht) <;> 
  (repeat' (first | with_reducible assumption | intro _ | with_reducible apply foldl_wf | with_reducible apply sfu_wf | with_reducible apply foldl_fst_wf | with_reducible apply foldl_snd_wf | dsimp only | split))

theorem execScos_wf (m : Mods) (t : BitVec 2) (d a : BitVec 7) (s : State) (hs : Memory.wf s.mem = true) (t' : State) : execScos m t d a s = .next t' → Memory.wf t'.mem = true := by
  unfold execScos
  intro ht
  (repeat' (first | split at ht | dsimp only at ht)) <;> (injection ht with ht; subst ht) <;> 
  (repeat' (first | with_reducible assumption | intro _ | with_reducible apply foldl_wf | with_reducible apply sfu_wf | with_reducible apply foldl_fst_wf | with_reducible apply foldl_snd_wf | dsimp only | split))

theorem execStanh_wf (m : Mods) (t : BitVec 2) (d a : BitVec 7) (s : State) (hs : Memory.wf s.mem = true) (t' : State) : execStanh m t d a s = .next t' → Memory.wf t'.mem = true := by
  unfold execStanh
  intro ht
  (repeat' (first | split at ht | dsimp only at ht)) <;> (injection ht with ht; subst ht) <;> 
  (repeat' (first | with_reducible assumption | intro _ | with_reducible apply foldl_wf | with_reducible apply sfu_wf | with_reducible apply foldl_fst_wf | with_reducible apply foldl_snd_wf | dsimp only | split))

end Sys2Proof.Machine
end

