-- ==== Sys2Proof/Laws/KeepCtxs.lean ====
section
/-! SUPPORT. The operations that leave the contexts as they were, one lemma for each. -/

set_option linter.all false

namespace Sys2Proof.Machine

theorem foldl_ctxs {α : Type} (f : State → α → State) (l : List α) (s : State) (h : ∀ t a, (f t a).ctxs = t.ctxs) : (l.foldl f s).ctxs = s.ctxs := by
  induction l generalizing s with
  | nil => rfl
  | cons a l ih => exact (ih _).trans (h _ _)

theorem foldl_fst_ctxs {α β : Type} (f : State × β → α → State × β) (l : List α) (s : State × β) (h : ∀ t a, (f t a).1.ctxs = t.1.ctxs) : (l.foldl f s).1.ctxs = s.1.ctxs := by
  induction l generalizing s with
  | nil => rfl
  | cons a l ih => exact (ih _).trans (h _ _)

theorem foldl_snd_ctxs {α β : Type} (f : β × State → α → β × State) (l : List α) (s : β × State) (h : ∀ t a, (f t a).2.ctxs = t.2.ctxs) : (l.foldl f s).2.ctxs = s.2.ctxs := by
  induction l generalizing s with
  | nil => rfl
  | cons a l ih => exact (ih _).trans (h _ _)

theorem State.reportSupervisor_ctxs (s : State) (type vf sev : Nat) (addr : W64) (place : W32) : (State.reportSupervisor s type vf sev addr place).ctxs = s.ctxs := by
  unfold State.reportSupervisor
  repeat' (first | with_reducible rfl | intro _ | with_reducible refine (foldl_ctxs _ _ _ ?_).trans ?_ | dsimp only | split)

theorem State.updCore_ctxs (s : State) (c : Nat) (f : Core → Core) : (State.updCore s c f).ctxs = s.ctxs := by
  unfold State.updCore
  repeat' (first | with_reducible rfl | intro _ | with_reducible refine (foldl_ctxs _ _ _ ?_).trans ?_ | dsimp only | split)

theorem State.updDie_ctxs (s : State) (d : Nat) (f : Die → Die) : (State.updDie s d f).ctxs = s.ctxs := by
  unfold State.updDie
  repeat' (first | with_reducible rfl | intro _ | with_reducible refine (foldl_ctxs _ _ _ ?_).trans ?_ | dsimp only | split)

theorem State.countPacket_ctxs (s : State) (la : Nat) (conf : Bool) : (State.countPacket s la conf).ctxs = s.ctxs := by
  unfold State.countPacket
  repeat' (first | with_reducible rfl | intro _ | with_reducible refine (foldl_ctxs _ _ _ ?_).trans ?_ | dsimp only | split)

theorem State.writeLine_ctxs (s : State) (la : Nat) (data : List Byte) (poison : Bool) : (State.writeLine s la data poison).ctxs = s.ctxs := by
  unfold State.writeLine
  repeat' (first | with_reducible rfl | intro _ | with_reducible refine (foldl_ctxs _ _ _ ?_).trans ?_ | dsimp only | split)

theorem State.reportDies_ctxs (s : State) (la : Nat) (dies : List Nat) : (State.reportDies s la dies).ctxs = s.ctxs := by
  unfold State.reportDies
  repeat' (first | with_reducible rfl | intro _ | with_reducible refine (foldl_ctxs _ _ _ ?_).trans ?_ | with_reducible refine (State.reportSupervisor_ctxs _ _ _ _ _ _).trans ?_ | dsimp only | split)

theorem State.noteLlc_ctxs (s : State) (la : Nat) : (State.noteLlc s la).ctxs = s.ctxs := by
  unfold State.noteLlc
  repeat' (first | with_reducible rfl | intro _ | with_reducible refine (foldl_ctxs _ _ _ ?_).trans ?_ | with_reducible refine (State.updDie_ctxs _ _ _).trans ?_ | dsimp only | split)

theorem State.cleanLine_ctxs (s : State) (d la : Nat) : (State.cleanLine s d la).ctxs = s.ctxs := by
  unfold State.cleanLine
  repeat' (first | with_reducible rfl | intro _ | with_reducible refine (foldl_ctxs _ _ _ ?_).trans ?_ | with_reducible refine (State.countPacket_ctxs _ _ _).trans ?_ | with_reducible refine (State.noteLlc_ctxs _ _).trans ?_ | with_reducible refine (State.updDie_ctxs _ _ _).trans ?_ | with_reducible refine (State.writeLine_ctxs _ _ _ _).trans ?_ | dsimp only | split)

theorem State.giveBack_ctxs (s : State) (d la : Nat) : (State.giveBack s d la).ctxs = s.ctxs := by
  unfold State.giveBack
  repeat' (first | with_reducible rfl | intro _ | with_reducible refine (foldl_ctxs _ _ _ ?_).trans ?_ | with_reducible refine (State.cleanLine_ctxs _ _ _).trans ?_ | with_reducible refine (State.reportDies_ctxs _ _ _).trans ?_ | dsimp only | split)

theorem State.l2Room_ctxs (s : State) (d la : Nat) : (State.l2Room s d la).ctxs = s.ctxs := by
  unfold State.l2Room
  repeat' (first | with_reducible rfl | intro _ | with_reducible refine (foldl_ctxs _ _ _ ?_).trans ?_ | with_reducible refine (State.giveBack_ctxs _ _ _).trans ?_ | with_reducible refine (State.updDie_ctxs _ _ _).trans ?_ | dsimp only | split)

theorem State.l2Fetch_ctxs (s : State) (d la pol : Nat) (conf : Bool) : (State.l2Fetch s d la pol conf).ctxs = s.ctxs := by
  unfold State.l2Fetch
  repeat' (first | with_reducible rfl | intro _ | with_reducible refine (foldl_ctxs _ _ _ ?_).trans ?_ | with_reducible refine (State.countPacket_ctxs _ _ _).trans ?_ | with_reducible refine (State.l2Room_ctxs _ _ _).trans ?_ | with_reducible refine (State.noteLlc_ctxs _ _).trans ?_ | with_reducible refine (State.updDie_ctxs _ _ _).trans ?_ | dsimp only | split)

theorem State.readLine_ctxs (s : State) (d la pol : Nat) (alloc conf : Bool) : (State.readLine s d la pol alloc conf).ctxs = s.ctxs := by
  unfold State.readLine
  repeat' (first | with_reducible rfl | intro _ | with_reducible refine (foldl_ctxs _ _ _ ?_).trans ?_ | with_reducible refine (State.countPacket_ctxs _ _ _).trans ?_ | with_reducible refine (State.l2Fetch_ctxs _ _ _ _ _).trans ?_ | dsimp only | split)

theorem State.cleanAll_ctxs (s : State) (la : Nat) : (State.cleanAll s la).ctxs = s.ctxs := by
  unfold State.cleanAll
  repeat' (first | with_reducible rfl | intro _ | with_reducible refine (foldl_ctxs _ _ _ ?_).trans ?_ | with_reducible refine (State.cleanLine_ctxs _ _ _).trans ?_ | with_reducible refine (State.reportDies_ctxs _ _ _).trans ?_ | dsimp only | split)

theorem State.invalidateL1s_ctxs (s : State) (d la except : Nat) : (State.invalidateL1s s d la except).ctxs = s.ctxs := by
  unfold State.invalidateL1s
  repeat' (first | with_reducible rfl | intro _ | with_reducible refine (foldl_ctxs _ _ _ ?_).trans ?_ | dsimp only | split)

theorem State.homeWrite_ctxs (s : State) (a : Nat) (data : List Byte) (poison conf : Bool) : (State.homeWrite s a data poison conf).ctxs = s.ctxs := by
  unfold State.homeWrite
  repeat' (first | with_reducible rfl | intro _ | with_reducible refine (foldl_ctxs _ _ _ ?_).trans ?_ | with_reducible refine (State.countPacket_ctxs _ _ _).trans ?_ | dsimp only | split)

theorem State.refreshCopies_ctxs (s : State) (la : Nat) : (State.refreshCopies s la).ctxs = s.ctxs := by
  unfold State.refreshCopies
  repeat' (first | with_reducible rfl | intro _ | with_reducible refine (foldl_ctxs _ _ _ ?_).trans ?_ | with_reducible refine (State.reportDies_ctxs _ _ _).trans ?_ | dsimp only | split)

theorem State.l2WriteLine_ctxs (s : State) (d core la off : Nat) (data : List Byte) (poison : Bool) (pol : Nat) (alloc conf : Bool) : (State.l2WriteLine s d core la off data poison pol alloc conf).ctxs = s.ctxs := by
  unfold State.l2WriteLine
  repeat' (first | with_reducible rfl | intro _ | with_reducible refine (foldl_ctxs _ _ _ ?_).trans ?_ | with_reducible refine (State.cleanAll_ctxs _ _).trans ?_ | with_reducible refine (State.countPacket_ctxs _ _ _).trans ?_ | with_reducible refine (State.homeWrite_ctxs _ _ _ _ _).trans ?_ | with_reducible refine (State.invalidateL1s_ctxs _ _ _ _).trans ?_ | with_reducible refine (State.l2Room_ctxs _ _ _).trans ?_ | with_reducible refine (State.refreshCopies_ctxs _ _).trans ?_ | with_reducible refine (State.updDie_ctxs _ _ _).trans ?_ | dsimp only | split)

theorem State.l2Write_ctxs (s : State) (d core pol : Nat) (alloc conf : Bool) (a : Nat) (data : List Byte) (poison : Bool) : (s.l2Write d core pol alloc conf a data poison).ctxs = s.ctxs := by
  unfold State.l2Write
  split
  · rfl
  · dsimp only
    split
    · exact State.l2WriteLine_ctxs ..
    · exact (State.l2WriteLine_ctxs ..).trans (State.l2WriteLine_ctxs ..)

theorem State.dropCopies_ctxs (s : State) (d la : Nat) : (State.dropCopies s d la).ctxs = s.ctxs := by
  unfold State.dropCopies
  repeat' (first | with_reducible rfl | intro _ | with_reducible refine (foldl_ctxs _ _ _ ?_).trans ?_ | with_reducible refine (State.reportDies_ctxs _ _ _).trans ?_ | dsimp only | split)

theorem State.sysWrite_ctxs (s : State) (a : Nat) (data : List Byte) (poison : Bool) : (State.sysWrite s a data poison).ctxs = s.ctxs := by
  unfold State.sysWrite
  repeat' (first | with_reducible rfl | intro _ | with_reducible refine (foldl_ctxs _ _ _ ?_).trans ?_ | with_reducible refine (State.cleanAll_ctxs _ _).trans ?_ | with_reducible refine (State.refreshCopies_ctxs _ _).trans ?_ | dsimp only | split)

theorem State.fillTlb_ctxs (s : State) (ctx core : Nat) (va : W64) : (State.fillTlb s ctx core va).ctxs = s.ctxs := by
  unfold State.fillTlb
  repeat' (first | with_reducible rfl | intro _ | with_reducible refine (foldl_ctxs _ _ _ ?_).trans ?_ | with_reducible refine (State.updCore_ctxs _ _ _).trans ?_ | with_reducible refine (State.updDie_ctxs _ _ _).trans ?_ | dsimp only | split)

theorem State.updGroup_ctxs (s : State) (g : Nat) (f : Group → Group) : (State.updGroup s g f).ctxs = s.ctxs := by
  unfold State.updGroup
  repeat' (first | with_reducible rfl | intro _ | with_reducible refine (foldl_ctxs _ _ _ ?_).trans ?_ | dsimp only | split)

theorem State.mapLanes_ctxs (s : State) (g : Nat) (lanes : List Nat) (f : Nat → Fibre → Fibre) : (State.mapLanes s g lanes f).ctxs = s.ctxs := by
  unfold State.mapLanes
  repeat' (first | with_reducible rfl | intro _ | with_reducible refine (foldl_ctxs _ _ _ ?_).trans ?_ | with_reducible refine (State.updGroup_ctxs _ _ _).trans ?_ | dsimp only | split)

theorem State.updFibre_ctxs (s : State) (g lane : Nat) (f : Fibre → Fibre) : (State.updFibre s g lane f).ctxs = s.ctxs := by
  unfold State.updFibre
  repeat' (first | with_reducible rfl | intro _ | with_reducible refine (foldl_ctxs _ _ _ ?_).trans ?_ | with_reducible refine (State.mapLanes_ctxs _ _ _ _).trans ?_ | dsimp only | split)

theorem State.updGrid_ctxs (s : State) (n : Nat) (f : Grid → Grid) : (State.updGrid s n f).ctxs = s.ctxs := by
  unfold State.updGrid
  repeat' (first | with_reducible rfl | intro _ | with_reducible refine (foldl_ctxs _ _ _ ?_).trans ?_ | dsimp only | split)

theorem State.releaseHolders_ctxs (s : State) (g uid : Nat) (regs : List Reg) (counts : Bool) : (State.releaseHolders s g uid regs counts).ctxs = s.ctxs := by
  unfold State.releaseHolders
  repeat' (first | with_reducible rfl | intro _ | with_reducible refine (foldl_ctxs _ _ _ ?_).trans ?_ | with_reducible refine (State.updCore_ctxs _ _ _).trans ?_ | with_reducible refine (State.updGrid_ctxs _ _ _).trans ?_ | dsimp only | split)

theorem State.releaseFibre_ctxs (s : State) (g uid : Nat) : (State.releaseFibre s g uid).ctxs = s.ctxs := by
  unfold State.releaseFibre
  repeat' (first | with_reducible rfl | intro _ | with_reducible refine (foldl_ctxs _ _ _ ?_).trans ?_ | with_reducible refine (State.updCore_ctxs _ _ _).trans ?_ | with_reducible refine (State.updGrid_ctxs _ _ _).trans ?_ | dsimp only | split)

theorem State.settleGm_ctxs (s : State) (g : Nat) : (State.settleGm s g).ctxs = s.ctxs := by
  unfold State.settleGm
  repeat' (first | with_reducible rfl | intro _ | with_reducible refine (foldl_ctxs _ _ _ ?_).trans ?_ | with_reducible refine (State.mapLanes_ctxs _ _ _ _).trans ?_ | dsimp only | split)

theorem State.advance_ctxs (s : State) (lanes : List Nat) : (State.advance s lanes).ctxs = s.ctxs := by
  unfold State.advance
  repeat' (first | with_reducible rfl | intro _ | with_reducible refine (foldl_ctxs _ _ _ ?_).trans ?_ | with_reducible refine (State.mapLanes_ctxs _ _ _ _).trans ?_ | dsimp only | split)

theorem State.warn_ctxs (s : State) (w : W32) : (State.warn s w).ctxs = s.ctxs := by
  unfold State.warn
  repeat' (first | with_reducible rfl | intro _ | with_reducible refine (foldl_ctxs _ _ _ ?_).trans ?_ | with_reducible refine (State.updGroup_ctxs _ _ _).trans ?_ | dsimp only | split)

theorem State.wait_ctxs (s : State) (lanes : List Nat) (w : Wait) : (State.wait s lanes w).ctxs = s.ctxs := by
  unfold State.wait
  repeat' (first | with_reducible rfl | intro _ | with_reducible refine (foldl_ctxs _ _ _ ?_).trans ?_ | with_reducible refine (State.mapLanes_ctxs _ _ _ _).trans ?_ | dsimp only | split)

theorem State.dropLater_ctxs (s : State) (g : Nat) (h : Held) : (State.dropLater s g h).ctxs = s.ctxs := by
  unfold State.dropLater
  repeat' (first | with_reducible rfl | intro _ | with_reducible refine (foldl_ctxs _ _ _ ?_).trans ?_ | with_reducible refine (State.updCore_ctxs _ _ _).trans ?_ | dsimp only | split)

theorem State.undoHeld_ctxs (s : State) (g : Nat) : (State.undoHeld s g).ctxs = s.ctxs := by
  unfold State.undoHeld
  repeat' (first | with_reducible rfl | intro _ | with_reducible refine (foldl_ctxs _ _ _ ?_).trans ?_ | with_reducible refine (State.dropLater_ctxs _ _ _).trans ?_ | with_reducible refine (State.mapLanes_ctxs _ _ _ _).trans ?_ | with_reducible refine (State.updGroup_ctxs _ _ _).trans ?_ | with_reducible refine (State.wait_ctxs _ _ _).trans ?_ | dsimp only | split)

theorem State.scrub_ctxs (s : State) (la a n generation : Nat) : (State.scrub s la a n generation).ctxs = s.ctxs := by
  unfold State.scrub
  repeat' (first | with_reducible rfl | intro _ | with_reducible refine (foldl_ctxs _ _ _ ?_).trans ?_ | dsimp only | split)

theorem State.sealFor_ctxs (s : State) (generation a n : Nat) : (State.sealFor s generation a n).ctxs = s.ctxs := by
  unfold State.sealFor
  repeat' (first | with_reducible rfl | intro _ | with_reducible refine (foldl_ctxs _ _ _ ?_).trans ?_ | with_reducible refine (State.scrub_ctxs _ _ _ _ _).trans ?_ | dsimp only | split)

theorem State.seal_ctxs (s : State) (ctx a n : Nat) : (State.seal s ctx a n).ctxs = s.ctxs := by
  unfold State.seal
  repeat' (first | with_reducible rfl | intro _ | with_reducible refine (foldl_ctxs _ _ _ ?_).trans ?_ | with_reducible refine (State.sealFor_ctxs _ _ _ _).trans ?_ | dsimp only | split)

theorem State.reportRefused_ctxs (s : State) (ctx core : Nat) (lines : List Nat) : (State.reportRefused s ctx core lines).ctxs = s.ctxs := by
  unfold State.reportRefused
  repeat' (first | with_reducible rfl | intro _ | with_reducible refine (foldl_ctxs _ _ _ ?_).trans ?_ | with_reducible refine (State.reportSupervisor_ctxs _ _ _ _ _ _).trans ?_ | dsimp only | split)

theorem State.reportReads_ctxs (s : State) (ctx core : Nat) (lines : List Nat) : (State.reportReads s ctx core lines).ctxs = s.ctxs := by
  unfold State.reportReads
  repeat' (first | with_reducible rfl | intro _ | with_reducible refine (foldl_ctxs _ _ _ ?_).trans ?_ | with_reducible refine (State.reportRefused_ctxs _ _ _ _).trans ?_ | dsimp only | split)

theorem State.reportWrites_ctxs (s : State) (ctx core : Nat) (lines : List Nat) : (State.reportWrites s ctx core lines).ctxs = s.ctxs := by
  unfold State.reportWrites
  repeat' (first | with_reducible rfl | intro _ | with_reducible refine (foldl_ctxs _ _ _ ?_).trans ?_ | with_reducible refine (State.reportRefused_ctxs _ _ _ _).trans ?_ | dsimp only | split)

theorem State.reportWalk_ctxs (s : State) (ctx core : Nat) (va : W64) : (State.reportWalk s ctx core va).ctxs = s.ctxs := by
  unfold State.reportWalk
  repeat' (first | with_reducible rfl | intro _ | with_reducible refine (foldl_ctxs _ _ _ ?_).trans ?_ | with_reducible refine (State.reportReads_ctxs _ _ _ _).trans ?_ | dsimp only | split)

theorem State.deviceWrite_ctxs (s : State) (ctx : Nat) (va : W64) (data : List Byte) : (State.deviceWrite s ctx va data).ctxs = s.ctxs := by
  unfold State.deviceWrite
  repeat' (first | with_reducible rfl | intro _ | with_reducible refine (foldl_ctxs _ _ _ ?_).trans ?_ | with_reducible refine (State.reportWalk_ctxs _ _ _ _).trans ?_ | with_reducible refine (State.seal_ctxs _ _ _ _).trans ?_ | with_reducible refine (State.sysWrite_ctxs _ _ _ _).trans ?_ | dsimp only | split)

theorem State.shiftTimes_ctxs (s : State) (ctx : Nat) : (State.shiftTimes s ctx).ctxs = s.ctxs := by
  unfold State.shiftTimes
  repeat' (first | with_reducible rfl | intro _ | with_reducible refine (foldl_ctxs _ _ _ ?_).trans ?_ | with_reducible refine (State.wait_ctxs _ _ _).trans ?_ | dsimp only | split)

theorem State.keep_ctxs (s : State) (g : Nat) (t : Trap) (lanes : List Nat) : (State.keep s g t lanes).ctxs = s.ctxs := by
  unfold State.keep
  repeat' (first | with_reducible rfl | intro _ | with_reducible refine (foldl_ctxs _ _ _ ?_).trans ?_ | with_reducible refine (State.updGroup_ctxs _ _ _).trans ?_ | dsimp only | split)

theorem State.report_ctxs (s : State) (vf type : Nat) (addr : W64) (place : W32) : (State.report s vf type addr place).ctxs = s.ctxs := by
  unfold State.report
  repeat' (first | with_reducible rfl | intro _ | with_reducible refine (foldl_ctxs _ _ _ ?_).trans ?_ | with_reducible refine (State.reportSupervisor_ctxs _ _ _ _ _ _).trans ?_ | dsimp only | split)

theorem State.moveLinks_ctxs (s : State) (g uid : Nat) (f : Nat → Nat) : (State.moveLinks s g uid f).ctxs = s.ctxs := by
  unfold State.moveLinks
  repeat' (first | with_reducible rfl | intro _ | with_reducible refine (foldl_ctxs _ _ _ ?_).trans ?_ | with_reducible refine (State.updCore_ctxs _ _ _).trans ?_ | dsimp only | split)

theorem State.parkGroups_ctxs (s : State) (ctx : Nat) (but : Option Nat) : (State.parkGroups s ctx but).ctxs = s.ctxs := by
  unfold State.parkGroups
  repeat' (first | with_reducible rfl | intro _ | with_reducible refine (foldl_ctxs _ _ _ ?_).trans ?_ | dsimp only | split)

theorem State.unparkGroups_ctxs (s : State) (ctx : Nat) : (State.unparkGroups s ctx).ctxs = s.ctxs := by
  unfold State.unparkGroups
  repeat' (first | with_reducible rfl | intro _ | with_reducible refine (foldl_ctxs _ _ _ ?_).trans ?_ | dsimp only | split)

theorem State.quitLanes_ctxs (s : State) (g : Nat) (lanes : List Nat) : (State.quitLanes s g lanes).ctxs = s.ctxs := by
  unfold State.quitLanes
  repeat' (first | with_reducible rfl | intro _ | with_reducible refine (foldl_ctxs _ _ _ ?_).trans ?_ | with_reducible refine (State.keep_ctxs _ _ _ _).trans ?_ | with_reducible refine (State.releaseFibre_ctxs _ _ _).trans ?_ | with_reducible refine (State.updGroup_ctxs _ _ _).trans ?_ | dsimp only | split)

theorem State.freeLast_ctxs (s : State) (old : Group) (e : Eff) (written : Fibre → List Reg) : (State.freeLast s old e written).ctxs = s.ctxs := by
  unfold State.freeLast
  repeat' (first | with_reducible rfl | intro _ | with_reducible refine (foldl_ctxs _ _ _ ?_).trans ?_ | with_reducible refine (State.mapLanes_ctxs _ _ _ _).trans ?_ | with_reducible refine (State.releaseHolders_ctxs _ _ _ _ _).trans ?_ | dsimp only | split)

theorem State.complete_ctxs (s : State) (old : Group) (e : Eff) (written : Fibre → List Reg) : (State.complete s old e written).ctxs = s.ctxs := by
  unfold State.complete
  repeat' (first | with_reducible rfl | intro _ | with_reducible refine (foldl_ctxs _ _ _ ?_).trans ?_ | with_reducible refine (State.advance_ctxs _ _).trans ?_ | with_reducible refine (State.freeLast_ctxs _ _ _ _).trans ?_ | with_reducible refine (State.settleGm_ctxs _ _).trans ?_ | dsimp only | split)

theorem State.narrow_ctxs (s : State) (lanes : List Nat) : (State.narrow s lanes).ctxs = s.ctxs := by
  unfold State.narrow
  repeat' (first | with_reducible rfl | intro _ | with_reducible refine (foldl_ctxs _ _ _ ?_).trans ?_ | dsimp only | split)

theorem State.pending_ctxs (s : State) (z : Alu) (old : Group) (lanes : List Nat) (flags : W32) (trap : Option (Trap × List Nat)) : (State.pending s z old lanes flags trap).ctxs = s.ctxs := by
  unfold State.pending
  repeat' (first | with_reducible rfl | intro _ | with_reducible refine (foldl_ctxs _ _ _ ?_).trans ?_ | with_reducible refine (State.mapLanes_ctxs _ _ _ _).trans ?_ | with_reducible refine (State.updCore_ctxs _ _ _).trans ?_ | dsimp only | split)

theorem State.acquireL1_ctxs (s : State) (core scope : Nat) (teamCores : Nat) : (State.acquireL1 s core scope teamCores).ctxs = s.ctxs := by
  unfold State.acquireL1
  repeat' (first | with_reducible rfl | intro _ | with_reducible refine (foldl_ctxs _ _ _ ?_).trans ?_ | with_reducible refine (State.updCore_ctxs _ _ _).trans ?_ | dsimp only | split)

theorem State.updTeam_ctxs (s : State) (x : Group) (f : Team → Team) : (State.updTeam s x f).ctxs = s.ctxs := by
  unfold State.updTeam
  repeat' (first | with_reducible rfl | intro _ | with_reducible refine (foldl_ctxs _ _ _ ?_).trans ?_ | with_reducible refine (State.updGrid_ctxs _ _ _).trans ?_ | dsimp only | split)

theorem State.checkGroup_ctxs (s : State) (g : Nat) : (State.checkGroup s g).ctxs = s.ctxs := by
  unfold State.checkGroup
  repeat' (first | with_reducible rfl | intro _ | with_reducible refine (foldl_ctxs _ _ _ ?_).trans ?_ | with_reducible refine (State.acquireL1_ctxs _ _ _ _).trans ?_ | with_reducible refine (State.mapLanes_ctxs _ _ _ _).trans ?_ | with_reducible refine (State.updGroup_ctxs _ _ _).trans ?_ | with_reducible refine (State.wait_ctxs _ _ _).trans ?_ | dsimp only | split)

theorem State.checkTeam_ctxs (s : State) (g : Nat) : (State.checkTeam s g).ctxs = s.ctxs := by
  unfold State.checkTeam
  repeat' (first | with_reducible rfl | intro _ | with_reducible refine (foldl_ctxs _ _ _ ?_).trans ?_ | with_reducible refine (State.acquireL1_ctxs _ _ _ _).trans ?_ | with_reducible refine (State.updTeam_ctxs _ _ _).trans ?_ | dsimp only | split)

theorem State.checkGrid_ctxs (s : State) (grid : Nat) : (State.checkGrid s grid).ctxs = s.ctxs := by
  unfold State.checkGrid
  repeat' (first | with_reducible rfl | intro _ | with_reducible refine (foldl_ctxs _ _ _ ?_).trans ?_ | with_reducible refine (State.updGrid_ctxs _ _ _).trans ?_ | dsimp only | split)

theorem State.checkBarriers_ctxs (s : State) (g : Nat) : (State.checkBarriers s g).ctxs = s.ctxs := by
  unfold State.checkBarriers
  repeat' (first | with_reducible rfl | intro _ | with_reducible refine (foldl_ctxs _ _ _ ?_).trans ?_ | with_reducible refine (State.checkGrid_ctxs _ _).trans ?_ | with_reducible refine (State.checkGroup_ctxs _ _).trans ?_ | with_reducible refine (State.checkTeam_ctxs _ _).trans ?_ | dsimp only | split)

theorem State.checkContext_ctxs (s : State) (ctx : Nat) : (State.checkContext s ctx).ctxs = s.ctxs := by
  unfold State.checkContext
  repeat' (first | with_reducible rfl | intro _ | with_reducible refine (foldl_ctxs _ _ _ ?_).trans ?_ | with_reducible refine (State.checkBarriers_ctxs _ _).trans ?_ | dsimp only | split)

theorem State.pushStore_ctxs (s : State) (core : Nat) (t : Store) : (State.pushStore s core t).ctxs = s.ctxs := by
  unfold State.pushStore
  repeat' (first | with_reducible rfl | intro _ | with_reducible refine (foldl_ctxs _ _ _ ?_).trans ?_ | with_reducible refine (State.updCore_ctxs _ _ _).trans ?_ | dsimp only | split)

theorem State.portTake_ctxs (s : State) (ctx core n : Nat) (a : Ask) : (State.portTake s ctx core n a).ctxs = s.ctxs := by
  unfold State.portTake
  repeat' (first | with_reducible rfl | intro _ | with_reducible refine (foldl_ctxs _ _ _ ?_).trans ?_ | with_reducible refine (State.updCore_ctxs _ _ _).trans ?_ | dsimp only | split)

theorem State.portQueue_ctxs (s : State) (ctx core n : Nat) (a : Ask) : (State.portQueue s ctx core n a).ctxs = s.ctxs := by
  unfold State.portQueue
  repeat' (first | with_reducible rfl | intro _ | with_reducible refine (foldl_ctxs _ _ _ ?_).trans ?_ | with_reducible refine (State.updCore_ctxs _ _ _).trans ?_ | dsimp only | split)

theorem State.port_ctxs (s : State) (ctx core n : Nat) (a : Ask) : (s.port ctx core n a).1.ctxs = s.ctxs := by
  unfold State.port
  split
  · exact State.portTake_ctxs ..
  · exact State.portQueue_ctxs ..

theorem State.reportDead_ctxs (s : State) (ctx core : Nat) (lines : List Nat) : (State.reportDead s ctx core lines).ctxs = s.ctxs := by
  unfold State.reportDead
  repeat' (first | with_reducible rfl | intro _ | with_reducible refine (foldl_ctxs _ _ _ ?_).trans ?_ | with_reducible refine (State.reportSupervisor_ctxs _ _ _ _ _ _).trans ?_ | dsimp only | split)

theorem State.dropRequests_ctxs (s : State) (ctx core : Nat) : (State.dropRequests s ctx core).ctxs = s.ctxs := by
  unfold State.dropRequests
  repeat' (first | with_reducible rfl | intro _ | with_reducible refine (foldl_ctxs _ _ _ ?_).trans ?_ | with_reducible refine (State.reportDead_ctxs _ _ _ _).trans ?_ | with_reducible refine (State.updCore_ctxs _ _ _).trans ?_ | dsimp only | split)

theorem State.send_ctxs (s : State) (ctx core n : Nat) (a : Ask) (go : State → State) (hgo : ∀ x0, (go x0).ctxs = x0.ctxs) : (State.send s ctx core n a go).ctxs = s.ctxs := by
  unfold State.send
  repeat' (first | with_reducible rfl | intro _ | with_reducible refine (foldl_ctxs _ _ _ ?_).trans ?_ | with_reducible refine (State.dropRequests_ctxs _ _ _).trans ?_ | with_reducible refine (State.port_ctxs _ _ _ _ _).trans ?_ | with_reducible refine (hgo _).trans ?_ | dsimp only | split)

theorem State.throughPort_ctxs (s : State) (ctx core n : Nat) (go : State → State) (hgo : ∀ x0, (go x0).ctxs = x0.ctxs) : (State.throughPort s ctx core n go).ctxs = s.ctxs := by
  unfold State.throughPort
  repeat' (first | with_reducible rfl | intro _ | with_reducible refine (foldl_ctxs _ _ _ ?_).trans ?_ | with_reducible refine (State.send_ctxs _ _ _ _ _ _ ?_).trans ?_ | with_reducible refine (hgo _).trans ?_ | dsimp only | split)

theorem State.claimScratch_ctxs (s : State) (core ctx : Nat) (keep : List Nat) : (State.claimScratch s core ctx keep).ctxs = s.ctxs := by
  unfold State.claimScratch
  repeat' (first | with_reducible rfl | intro _ | with_reducible refine (foldl_ctxs _ _ _ ?_).trans ?_ | with_reducible refine (State.keep_ctxs _ _ _ _).trans ?_ | with_reducible refine (State.updCore_ctxs _ _ _).trans ?_ | dsimp only | split)

theorem State.recallScratch_ctxs (s : State) (core ctx off n : Nat) : (State.recallScratch s core ctx off n).ctxs = s.ctxs := by
  unfold State.recallScratch
  repeat' (first | with_reducible rfl | intro _ | with_reducible refine (foldl_ctxs _ _ _ ?_).trans ?_ | with_reducible refine (State.claimScratch_ctxs _ _ _ _).trans ?_ | with_reducible refine (State.updCore_ctxs _ _ _).trans ?_ | dsimp only | split)

theorem State.patchL1_ctxs (s : State) (core a : Nat) (data : List Byte) (poison : Bool) : (State.patchL1 s core a data poison).ctxs = s.ctxs := by
  unfold State.patchL1
  repeat' (first | with_reducible rfl | intro _ | with_reducible refine (foldl_ctxs _ _ _ ?_).trans ?_ | with_reducible refine (State.updCore_ctxs _ _ _).trans ?_ | dsimp only | split)

theorem State.sample_ctxs (s : State) (core g la : Nat) : (State.sample s core g la).ctxs = s.ctxs := by
  unfold State.sample
  repeat' (first | with_reducible rfl | intro _ | with_reducible refine (foldl_ctxs _ _ _ ?_).trans ?_ | with_reducible refine (State.updGroup_ctxs _ _ _).trans ?_ | dsimp only | split)

theorem State.install_ctxs (s : State) (core la : Nat) (l : L1Line) (g pol : Nat) : (State.install s core la l g pol).ctxs = s.ctxs := by
  unfold State.install
  repeat' (first | with_reducible rfl | intro _ | with_reducible refine (foldl_ctxs _ _ _ ?_).trans ?_ | with_reducible refine (State.keep_ctxs _ _ _ _).trans ?_ | with_reducible refine (State.updCore_ctxs _ _ _).trans ?_ | with_reducible refine (State.updGroup_ctxs _ _ _).trans ?_ | dsimp only | split)

theorem State.allocL1_ctxs (s : State) (core la g pol : Nat) (l1 : Bool) : (State.allocL1 s core la g pol l1).ctxs = s.ctxs := by
  unfold State.allocL1
  repeat' (first | with_reducible rfl | intro _ | with_reducible refine (foldl_ctxs _ _ _ ?_).trans ?_ | with_reducible refine (State.install_ctxs _ _ _ _ _ _).trans ?_ | with_reducible refine (State.updCore_ctxs _ _ _).trans ?_ | dsimp only | split)

theorem State.plain_ctxs (s : State) (i : Instr) (go : Eff → State → State) (hgo : ∀ x0 x1, (go x0 x1).ctxs = x1.ctxs) : (State.plain s i go).ctxs = s.ctxs := by
  unfold State.plain
  repeat' (first | with_reducible rfl | intro _ | with_reducible refine (foldl_ctxs _ _ _ ?_).trans ?_ | with_reducible refine (State.warn_ctxs _ _).trans ?_ | with_reducible refine (hgo _ _).trans ?_ | dsimp only | split)

theorem State.only_ctxs (s : State) (i : Instr) : (State.only s i).ctxs = s.ctxs := by
  unfold State.only
  repeat' (first | with_reducible rfl | intro _ | with_reducible refine (foldl_ctxs _ _ _ ?_).trans ?_ | with_reducible refine (State.complete_ctxs _ _ _ _).trans ?_ | with_reducible refine (State.plain_ctxs _ _ _ ?_).trans ?_ | dsimp only | split)

theorem State.jump_ctxs (s : State) (target : Nat → Fibre → W64) : (State.jump s target).ctxs = s.ctxs := by
  unfold State.jump
  repeat' (first | with_reducible rfl | intro _ | with_reducible refine (foldl_ctxs _ _ _ ?_).trans ?_ | with_reducible refine (State.mapLanes_ctxs _ _ _ _).trans ?_ | with_reducible refine (State.wait_ctxs _ _ _).trans ?_ | dsimp only | split)

theorem State.fillL1_ctxs (s : State) (core g la : Nat) (p : Page) : (State.fillL1 s core g la p).ctxs = s.ctxs := by
  unfold State.fillL1
  repeat' (first | with_reducible rfl | intro _ | with_reducible refine (foldl_ctxs _ _ _ ?_).trans ?_ | with_reducible refine (State.allocL1_ctxs _ _ _ _ _ _).trans ?_ | with_reducible refine (State.countPacket_ctxs _ _ _).trans ?_ | with_reducible refine (State.readLine_ctxs _ _ _ _ _ _).trans ?_ | with_reducible refine (State.sample_ctxs _ _ _ _).trans ?_ | dsimp only | split)

theorem State.releaseJunction_ctxs (s : State) (g : Nat) (pc : W64) : (State.releaseJunction s g pc).ctxs = s.ctxs := by
  unfold State.releaseJunction
  repeat' (first | with_reducible rfl | intro _ | with_reducible refine (foldl_ctxs _ _ _ ?_).trans ?_ | with_reducible refine (State.mapLanes_ctxs _ _ _ _).trans ?_ | dsimp only | split)

theorem State.copyHolders_ctxs (s : State) (core g uid new : Nat) : (State.copyHolders s core g uid new).ctxs = s.ctxs := by
  unfold State.copyHolders
  repeat' (first | with_reducible rfl | intro _ | with_reducible refine (foldl_ctxs _ _ _ ?_).trans ?_ | with_reducible refine (State.updCore_ctxs _ _ _).trans ?_ | dsimp only | split)

theorem State.forkOne_ctxs (s : State) (f : BitVec 3) (d a b : BitVec 7) (x : Group) (lane : Nat) : (State.forkOne s f d a b x lane).ctxs = s.ctxs := by
  unfold State.forkOne
  repeat' (first | with_reducible rfl | intro _ | with_reducible refine (foldl_ctxs _ _ _ ?_).trans ?_ | with_reducible refine (State.copyHolders_ctxs _ _ _ _ _).trans ?_ | with_reducible refine (State.releaseHolders_ctxs _ _ _ _ _).trans ?_ | with_reducible refine (State.updFibre_ctxs _ _ _ _).trans ?_ | with_reducible refine (State.updGroup_ctxs _ _ _).trans ?_ | dsimp only | split)

theorem State.zeroMasked_ctxs (s : State) (e : Eff) (act : List Nat) (d : Dst) (old : Group) : (State.zeroMasked s e act d old).ctxs = s.ctxs := by
  unfold State.zeroMasked
  repeat' (first | with_reducible rfl | intro _ | with_reducible refine (foldl_ctxs _ _ _ ?_).trans ?_ | with_reducible refine (State.mapLanes_ctxs _ _ _ _).trans ?_ | with_reducible refine (State.releaseHolders_ctxs _ _ _ _ _).trans ?_ | dsimp only | split)

theorem State.setDest_ctxs (s : State) (d : Dst) (v : Nat → Fibre → Val) : (State.setDest s d v).ctxs = s.ctxs := by
  unfold State.setDest
  repeat' (first | with_reducible rfl | intro _ | with_reducible refine (foldl_ctxs _ _ _ ?_).trans ?_ | with_reducible refine (State.mapLanes_ctxs _ _ _ _).trans ?_ | with_reducible refine (State.releaseHolders_ctxs _ _ _ _ _).trans ?_ | dsimp only | split)

theorem State.updLoad_ctxs (s : State) (core id : Nat) (f : Load → Load) : (State.updLoad s core id f).ctxs = s.ctxs := by
  unfold State.updLoad
  repeat' (first | with_reducible rfl | intro _ | with_reducible refine (foldl_ctxs _ _ _ ?_).trans ?_ | with_reducible refine (State.updCore_ctxs _ _ _).trans ?_ | dsimp only | split)

theorem State.updLane_ctxs (s : State) (core id lane : Nat) (f : LaneLoad → LaneLoad) : (State.updLane s core id lane f).ctxs = s.ctxs := by
  unfold State.updLane
  repeat' (first | with_reducible rfl | intro _ | with_reducible refine (foldl_ctxs _ _ _ ?_).trans ?_ | with_reducible refine (State.updLoad_ctxs _ _ _ _).trans ?_ | dsimp only | split)

theorem State.landReg_ctxs (s : State) (g lane uid : Nat) (r : Option Reg) (form : LoadForm) (v : Val) : (State.landReg s g lane uid r form v).ctxs = s.ctxs := by
  unfold State.landReg
  repeat' (first | with_reducible rfl | intro _ | with_reducible refine (foldl_ctxs _ _ _ ?_).trans ?_ | with_reducible refine (State.releaseHolders_ctxs _ _ _ _ _).trans ?_ | with_reducible refine (State.updFibre_ctxs _ _ _ _).trans ?_ | dsimp only | split)

theorem State.updateGuess_ctxs (s : State) (core : Nat) (l : Load) : (State.updateGuess s core l).ctxs = s.ctxs := by
  unfold State.updateGuess
  repeat' (first | with_reducible rfl | intro _ | with_reducible refine (foldl_ctxs _ _ _ ?_).trans ?_ | with_reducible refine (State.updCore_ctxs _ _ _).trans ?_ | dsimp only | split)

theorem State.settleLoad_ctxs (s : State) (core id : Nat) (was : Bool) : (State.settleLoad s core id was).ctxs = s.ctxs := by
  unfold State.settleLoad
  repeat' (first | with_reducible rfl | intro _ | with_reducible refine (foldl_ctxs _ _ _ ?_).trans ?_ | with_reducible refine (State.updCore_ctxs _ _ _).trans ?_ | with_reducible refine (State.updGroup_ctxs _ _ _).trans ?_ | with_reducible refine (State.updLoad_ctxs _ _ _ _).trans ?_ | with_reducible refine (State.updateGuess_ctxs _ _ _).trans ?_ | dsimp only | split)

theorem State.takeTicket_ctxs (s : State) (core id : Nat) (l : Load) (lane : Nat) (e : LaneLoad) : (State.takeTicket s core id l lane e).ctxs = s.ctxs := by
  unfold State.takeTicket
  repeat' (first | with_reducible rfl | intro _ | with_reducible refine (foldl_ctxs _ _ _ ?_).trans ?_ | with_reducible refine (State.landReg_ctxs _ _ _ _ _ _ _).trans ?_ | with_reducible refine (State.updCore_ctxs _ _ _).trans ?_ | with_reducible refine (State.updLane_ctxs _ _ _ _ _).trans ?_ | dsimp only | split)

theorem State.expire_ctxs (s : State) (core id limit : Nat) : (State.expire s core id limit).ctxs = s.ctxs := by
  unfold State.expire
  repeat' (first | with_reducible rfl | intro _ | with_reducible refine (foldl_ctxs _ _ _ ?_).trans ?_ | with_reducible refine (State.landReg_ctxs _ _ _ _ _ _ _).trans ?_ | with_reducible refine (State.settleLoad_ctxs _ _ _ _).trans ?_ | with_reducible refine (State.takeTicket_ctxs _ _ _ _ _ _).trans ?_ | with_reducible refine (State.updLane_ctxs _ _ _ _ _).trans ?_ | dsimp only | split)

theorem State.truthFor_ctxs (s : State) (core ticket v : Nat) (p : Bool) : (State.truthFor s core ticket v p).ctxs = s.ctxs := by
  unfold State.truthFor
  repeat' (first | with_reducible rfl | intro _ | with_reducible refine (foldl_ctxs _ _ _ ?_).trans ?_ | with_reducible refine (State.mapLanes_ctxs _ _ _ _).trans ?_ | with_reducible refine (State.updCore_ctxs _ _ _).trans ?_ | dsimp only | split)

theorem State.unhookAfter_ctxs (s : State) (core g uid seq : Nat) : (State.unhookAfter s core g uid seq).ctxs = s.ctxs := by
  unfold State.unhookAfter
  repeat' (first | with_reducible rfl | intro _ | with_reducible refine (foldl_ctxs _ _ _ ?_).trans ?_ | with_reducible refine (State.updCore_ctxs _ _ _).trans ?_ | dsimp only | split)

theorem State.deliver_ctxs (s : State) (core id lane v : Nat) (p : Bool) : (State.deliver s core id lane v p).ctxs = s.ctxs := by
  unfold State.deliver
  repeat' (first | with_reducible rfl | intro _ | with_reducible refine (foldl_ctxs _ _ _ ?_).trans ?_ | with_reducible refine (State.acquireL1_ctxs _ _ _ _).trans ?_ | with_reducible refine (State.expire_ctxs _ _ _ _).trans ?_ | with_reducible refine (State.landReg_ctxs _ _ _ _ _ _ _).trans ?_ | with_reducible refine (State.settleGm_ctxs _ _).trans ?_ | with_reducible refine (State.settleLoad_ctxs _ _ _ _).trans ?_ | with_reducible refine (State.truthFor_ctxs _ _ _ _ _).trans ?_ | with_reducible refine (State.unhookAfter_ctxs _ _ _ _ _).trans ?_ | with_reducible refine (State.updLane_ctxs _ _ _ _ _).trans ?_ | dsimp only | split)

theorem State.unhook_ctxs (s : State) (core la uid : Nat) : (State.unhook s core la uid).ctxs = s.ctxs := by
  unfold State.unhook
  repeat' (first | with_reducible rfl | intro _ | with_reducible refine (foldl_ctxs _ _ _ ?_).trans ?_ | with_reducible refine (State.updCore_ctxs _ _ _).trans ?_ | dsimp only | split)

theorem State.arrive_ctxs (s : State) (core id lane : Nat) : (State.arrive s core id lane).ctxs = s.ctxs := by
  unfold State.arrive
  repeat' (first | with_reducible rfl | intro _ | with_reducible refine (foldl_ctxs _ _ _ ?_).trans ?_ | with_reducible refine (State.allocL1_ctxs _ _ _ _ _ _).trans ?_ | with_reducible refine (State.countPacket_ctxs _ _ _).trans ?_ | with_reducible refine (State.deliver_ctxs _ _ _ _ _ _).trans ?_ | with_reducible refine (State.readLine_ctxs _ _ _ _ _ _).trans ?_ | with_reducible refine (State.recallScratch_ctxs _ _ _ _ _).trans ?_ | with_reducible refine (State.reportReads_ctxs _ _ _ _).trans ?_ | with_reducible refine (State.send_ctxs _ _ _ _ _ _ ?_).trans ?_ | with_reducible refine (State.unhook_ctxs _ _ _ _).trans ?_ | dsimp only | split)

theorem State.askFills_ctxs (s : State) (core id : Nat) : (State.askFills s core id).ctxs = s.ctxs := by
  unfold State.askFills
  repeat' (first | with_reducible rfl | intro _ | with_reducible refine (foldl_ctxs _ _ _ ?_).trans ?_ | with_reducible refine (State.install_ctxs _ _ _ _ _ _).trans ?_ | with_reducible refine (State.sample_ctxs _ _ _ _).trans ?_ | with_reducible refine (State.updCore_ctxs _ _ _).trans ?_ | with_reducible refine (State.updLane_ctxs _ _ _ _ _).trans ?_ | dsimp only | split)

theorem State.maskedOff_ctxs (s : State) (e : Eff) (act : List Nat) (d : Dst) (old : Group) : (State.maskedOff s e act d old).ctxs = s.ctxs := by
  unfold State.maskedOff
  repeat' (first | with_reducible rfl | intro _ | with_reducible refine (foldl_ctxs _ _ _ ?_).trans ?_ | with_reducible refine (State.mapLanes_ctxs _ _ _ _).trans ?_ | with_reducible refine (State.zeroMasked_ctxs _ _ _ _ _).trans ?_ | dsimp only | split)

theorem State.sendLoad_ctxs (s : State) (z : LoadIns) (e : Eff) (x : Group) (act : List Nat) (pas : List (Nat × Nat × Page)) (addr : Nat → Val) : (State.sendLoad s z e x act pas addr).ctxs = s.ctxs := by
  unfold State.sendLoad
  repeat' (first | with_reducible rfl | intro _ | with_reducible refine (foldl_ctxs _ _ _ ?_).trans ?_ | with_reducible refine (State.askFills_ctxs _ _ _).trans ?_ | with_reducible refine (State.landReg_ctxs _ _ _ _ _ _ _).trans ?_ | with_reducible refine (State.mapLanes_ctxs _ _ _ _).trans ?_ | with_reducible refine (State.settleLoad_ctxs _ _ _ _).trans ?_ | with_reducible refine (State.updCore_ctxs _ _ _).trans ?_ | with_reducible refine (State.updGroup_ctxs _ _ _).trans ?_ | with_reducible refine (State.updLane_ctxs _ _ _ _ _).trans ?_ | dsimp only | split)

theorem State.dataArrives_ctxs (s : State) (core id lane : Nat) : (State.dataArrives s core id lane).ctxs = s.ctxs := by
  unfold State.dataArrives
  repeat' (first | with_reducible rfl | intro _ | with_reducible refine (foldl_ctxs _ _ _ ?_).trans ?_ | with_reducible refine (State.arrive_ctxs _ _ _ _).trans ?_ | dsimp only | split)

theorem State.consume_ctxs (s : State) (core la id lane : Nat) (line : L1Line) : (State.consume s core la id lane line).ctxs = s.ctxs := by
  unfold State.consume
  repeat' (first | with_reducible rfl | intro _ | with_reducible refine (foldl_ctxs _ _ _ ?_).trans ?_ | with_reducible refine (State.deliver_ctxs _ _ _ _ _ _).trans ?_ | with_reducible refine (State.updLane_ctxs _ _ _ _ _).trans ?_ | dsimp only | split)

theorem State.accept_ctxs (s : State) (g uid : Nat) (regs : List Reg) : (State.accept s g uid regs).ctxs = s.ctxs := by
  unfold State.accept
  repeat' (first | with_reducible rfl | intro _ | with_reducible refine (foldl_ctxs _ _ _ ?_).trans ?_ | with_reducible refine (State.updCore_ctxs _ _ _).trans ?_ | dsimp only | split)

theorem State.testTags_ctxs (s : State) (i : Instr) (d a b : BitVec 7) (f : Val → Bool) : (State.testTags s i d a b f).ctxs = s.ctxs := by
  unfold State.testTags
  repeat' (first | with_reducible rfl | intro _ | with_reducible refine (foldl_ctxs _ _ _ ?_).trans ?_ | with_reducible refine (State.complete_ctxs _ _ _ _).trans ?_ | with_reducible refine (State.mapLanes_ctxs _ _ _ _).trans ?_ | with_reducible refine (State.plain_ctxs _ _ _ ?_).trans ?_ | dsimp only | split)

theorem State.demand_ctxs (s : State) (e : Eff) (a sel : BitVec 7) (blocks : Bool) (finish : List Nat → State → State) (hfinish : ∀ x0 x1, (finish x0 x1).ctxs = x1.ctxs) : (State.demand s e a sel blocks finish).ctxs = s.ctxs := by
  unfold State.demand
  repeat' (first | with_reducible rfl | intro _ | with_reducible refine (foldl_ctxs _ _ _ ?_).trans ?_ | with_reducible refine (State.narrow_ctxs _ _).trans ?_ | with_reducible refine (State.wait_ctxs _ _ _).trans ?_ | with_reducible refine (hfinish _ _).trans ?_ | dsimp only | split)

theorem State.finishLanes_ctxs (s : State) (lanes : List Nat) : (State.finishLanes s lanes).ctxs = s.ctxs := by
  unfold State.finishLanes
  repeat' (first | with_reducible rfl | intro _ | with_reducible refine (foldl_ctxs _ _ _ ?_).trans ?_ | with_reducible refine (State.advance_ctxs _ _).trans ?_ | with_reducible refine (State.settleGm_ctxs _ _).trans ?_ | dsimp only | split)

theorem State.writeTruth_ctxs (s : State) (lane : Nat) (regs : List Reg) : (State.writeTruth s lane regs).ctxs = s.ctxs := by
  unfold State.writeTruth
  repeat' (first | with_reducible rfl | intro _ | with_reducible refine (foldl_ctxs _ _ _ ?_).trans ?_ | with_reducible refine (State.accept_ctxs _ _ _ _).trans ?_ | with_reducible refine (State.mapLanes_ctxs _ _ _ _).trans ?_ | dsimp only | split)

theorem State.sendStores_ctxs (s : State) (z : StoreIns) (need : Nat) (x : Group) (lanes : List (Nat × Nat × Option Page)) : (State.sendStores s z need x lanes).ctxs = s.ctxs := by
  unfold State.sendStores
  repeat' (first | with_reducible rfl | intro _ | with_reducible refine (foldl_ctxs _ _ _ ?_).trans ?_ | with_reducible refine (State.pushStore_ctxs _ _ _).trans ?_ | with_reducible refine (State.sample_ctxs _ _ _ _).trans ?_ | with_reducible refine (State.updGroup_ctxs _ _ _).trans ?_ | dsimp only | split)

theorem State.scratchWrite_ctxs (s : State) (core ctx off : Nat) (data : List Byte) (poison : Bool) : (State.scratchWrite s core ctx off data poison).ctxs = s.ctxs := by
  unfold State.scratchWrite
  repeat' (first | with_reducible rfl | intro _ | with_reducible refine (foldl_ctxs _ _ _ ?_).trans ?_ | with_reducible refine (State.updCore_ctxs _ _ _).trans ?_ | dsimp only | split)

theorem State.dropHost_ctxs (s : State) (a n : Nat) : (State.dropHost s a n).ctxs = s.ctxs := by
  unfold State.dropHost
  repeat' (first | with_reducible rfl | intro _ | with_reducible refine (foldl_ctxs _ _ _ ?_).trans ?_ | with_reducible refine (State.keep_ctxs _ _ _ _).trans ?_ | dsimp only | split)

theorem State.settleStore_ctxs (s : State) (core op g : Nat) : (State.settleStore s core op g).ctxs = s.ctxs := by
  unfold State.settleStore
  repeat' (first | with_reducible rfl | intro _ | with_reducible refine (foldl_ctxs _ _ _ ?_).trans ?_ | with_reducible refine (State.updGroup_ctxs _ _ _).trans ?_ | dsimp only | split)

theorem State.raiseStore_ctxs (s : State) (core id : Nat) (t : Store) (level : Nat) : (State.raiseStore s core id t level).ctxs = s.ctxs := by
  unfold State.raiseStore
  repeat' (first | with_reducible rfl | intro _ | with_reducible refine (foldl_ctxs _ _ _ ?_).trans ?_ | with_reducible refine (State.settleStore_ctxs _ _ _ _).trans ?_ | with_reducible refine (State.updCore_ctxs _ _ _).trans ?_ | dsimp only | split)

theorem State.endStore_ctxs (s : State) (core id : Nat) (t : Store) : (State.endStore s core id t).ctxs = s.ctxs := by
  unfold State.endStore
  repeat' (first | with_reducible rfl | intro _ | with_reducible refine (foldl_ctxs _ _ _ ?_).trans ?_ | with_reducible refine (State.settleStore_ctxs _ _ _ _).trans ?_ | with_reducible refine (State.updCore_ctxs _ _ _).trans ?_ | dsimp only | split)

theorem State.writeBackLine_ctxs (s : State) (core la : Nat) (drop' : Bool) : (State.writeBackLine s core la drop').ctxs = s.ctxs := by
  unfold State.writeBackLine
  repeat' (first | with_reducible rfl | intro _ | with_reducible refine (foldl_ctxs _ _ _ ?_).trans ?_ | with_reducible refine (State.giveBack_ctxs _ _ _).trans ?_ | with_reducible refine (State.install_ctxs _ _ _ _ _ _).trans ?_ | with_reducible refine (State.updCore_ctxs _ _ _).trans ?_ | with_reducible refine (State.updDie_ctxs _ _ _).trans ?_ | dsimp only | split)

theorem State.sendAtomic_ctxs (s : State) (z : AtomicIns) (x : Group) (pas : List (Nat × Nat × Page)) (va : Nat → W64) : (State.sendAtomic s z x pas va).ctxs = s.ctxs := by
  unfold State.sendAtomic
  repeat' (first | with_reducible rfl | intro _ | with_reducible refine (foldl_ctxs _ _ _ ?_).trans ?_ | with_reducible refine (State.mapLanes_ctxs _ _ _ _).trans ?_ | with_reducible refine (State.sample_ctxs _ _ _ _).trans ?_ | with_reducible refine (State.updCore_ctxs _ _ _).trans ?_ | with_reducible refine (State.updGroup_ctxs _ _ _).trans ?_ | dsimp only | split)

theorem State.updAtomic_ctxs (s : State) (core id : Nat) (f : Atomic → Atomic) : (State.updAtomic s core id f).ctxs = s.ctxs := by
  unfold State.updAtomic
  repeat' (first | with_reducible rfl | intro _ | with_reducible refine (foldl_ctxs _ _ _ ?_).trans ?_ | with_reducible refine (State.updCore_ctxs _ _ _).trans ?_ | dsimp only | split)

theorem State.countAtomic_ctxs (s : State) (a : Atomic) : (State.countAtomic s a).ctxs = s.ctxs := by
  unfold State.countAtomic
  repeat' (first | with_reducible rfl | intro _ | with_reducible refine (foldl_ctxs _ _ _ ?_).trans ?_ | with_reducible refine (State.updGroup_ctxs _ _ _).trans ?_ | dsimp only | split)

theorem State.unlock_ctxs (s : State) (g lane uid : Nat) (regs : List Reg) : (State.unlock s g lane uid regs).ctxs = s.ctxs := by
  unfold State.unlock
  repeat' (first | with_reducible rfl | intro _ | with_reducible refine (foldl_ctxs _ _ _ ?_).trans ?_ | with_reducible refine (State.updFibre_ctxs _ _ _ _).trans ?_ | dsimp only | split)

theorem State.acceptLane_ctxs (s : State) (core id lane : Nat) (a : Atomic) : (State.acceptLane s core id lane a).ctxs = s.ctxs := by
  unfold State.acceptLane
  repeat' (first | with_reducible rfl | intro _ | with_reducible refine (foldl_ctxs _ _ _ ?_).trans ?_ | with_reducible refine (State.countAtomic_ctxs _ _).trans ?_ | with_reducible refine (State.updAtomic_ctxs _ _ _ _).trans ?_ | dsimp only | split)

theorem State.updSlot_ctxs (s : State) (id : Nat) (f : Slot → Slot) : (State.updSlot s id f).ctxs = s.ctxs := by
  unfold State.updSlot
  repeat' (first | with_reducible rfl | intro _ | with_reducible refine (foldl_ctxs _ _ _ ?_).trans ?_ | dsimp only | split)

theorem State.unbind_ctxs (s : State) (v : Slot) : (State.unbind s v).ctxs = s.ctxs := by
  unfold State.unbind
  repeat' (first | with_reducible rfl | intro _ | with_reducible refine (foldl_ctxs _ _ _ ?_).trans ?_ | with_reducible refine (State.updDie_ctxs _ _ _).trans ?_ | dsimp only | split)

theorem State.reapSlots_ctxs (s : State) : (State.reapSlots s).ctxs = s.ctxs := by
  unfold State.reapSlots
  repeat' (first | with_reducible rfl | intro _ | with_reducible refine (foldl_ctxs _ _ _ ?_).trans ?_ | with_reducible refine (State.unbind_ctxs _ _).trans ?_ | dsimp only | split)

theorem State.takeBack_ctxs (s : State) (new : Nat) : (State.takeBack s new).ctxs = s.ctxs := by
  unfold State.takeBack
  repeat' (first | with_reducible rfl | intro _ | with_reducible refine (foldl_ctxs _ _ _ ?_).trans ?_ | dsimp only | split)

theorem State.arriving_ctxs (s : State) (bar : Bar) (d : Nat) : (State.arriving s bar d).ctxs = s.ctxs := by
  unfold State.arriving
  repeat' (first | with_reducible rfl | intro _ | with_reducible refine (foldl_ctxs _ _ _ ?_).trans ?_ | with_reducible refine (State.wait_ctxs _ _ _).trans ?_ | dsimp only | split)

theorem State.releaseCore_ctxs (s : State) (grid core : Nat) : (State.releaseCore s grid core).ctxs = s.ctxs := by
  unfold State.releaseCore
  repeat' (first | with_reducible rfl | intro _ | with_reducible refine (foldl_ctxs _ _ _ ?_).trans ?_ | with_reducible refine (State.acquireL1_ctxs _ _ _ _).trans ?_ | with_reducible refine (State.mapLanes_ctxs _ _ _ _).trans ?_ | with_reducible refine (State.wait_ctxs _ _ _).trans ?_ | dsimp only | split)

theorem State.lease_ctxs (s : State) (e : Eff) (d : BitVec 7) (v : Option Nat) : (State.lease s e d v).ctxs = s.ctxs := by
  unfold State.lease
  repeat' (first | with_reducible rfl | intro _ | with_reducible refine (foldl_ctxs _ _ _ ?_).trans ?_ | with_reducible refine (State.complete_ctxs _ _ _ _).trans ?_ | with_reducible refine (State.setDest_ctxs _ _ _).trans ?_ | with_reducible refine (State.updGroup_ctxs _ _ _).trans ?_ | dsimp only | split)

theorem State.writeQueue_ctxs (s : State) (vf q field value : Nat) : (State.writeQueue s vf q field value).ctxs = s.ctxs := by
  unfold State.writeQueue
  repeat' (first | with_reducible rfl | intro _ | with_reducible refine (foldl_ctxs _ _ _ ?_).trans ?_ | with_reducible refine (State.sysWrite_ctxs _ _ _ _).trans ?_ | dsimp only | split)

theorem State.readTail_ctxs (s : State) (vf q : Nat) : (State.readTail s vf q).ctxs = s.ctxs := by
  unfold State.readTail
  repeat' (first | with_reducible rfl | intro _ | with_reducible refine (foldl_ctxs _ _ _ ?_).trans ?_ | with_reducible refine (State.report_ctxs _ _ _ _ _).trans ?_ | dsimp only | split)

theorem State.released_ctxs (s : State) (level : Nat) (lanes : List Nat) (go : State → State) (hgo : ∀ x0, (go x0).ctxs = x0.ctxs) : (State.released s level lanes go).ctxs = s.ctxs := by
  unfold State.released
  repeat' (first | with_reducible rfl | intro _ | with_reducible refine (foldl_ctxs _ _ _ ?_).trans ?_ | with_reducible refine (State.mapLanes_ctxs _ _ _ _).trans ?_ | with_reducible refine (State.wait_ctxs _ _ _).trans ?_ | with_reducible refine (hgo _).trans ?_ | dsimp only | split)

theorem State.newGroup_ctxs (s : State) (grid : Nat) (team index core track : Nat) : (State.newGroup s grid team index core track).ctxs = s.ctxs := by
  unfold State.newGroup
  repeat' (first | with_reducible rfl | intro _ | with_reducible refine (foldl_ctxs _ _ _ ?_).trans ?_ | with_reducible refine (State.lease_ctxs _ _ _ _).trans ?_ | with_reducible refine (State.updCore_ctxs _ _ _).trans ?_ | dsimp only | split)

theorem State.claimRows_ctxs (s : State) (core track g : Nat) : (State.claimRows s core track g).ctxs = s.ctxs := by
  unfold State.claimRows
  repeat' (first | with_reducible rfl | intro _ | with_reducible refine (foldl_ctxs _ _ _ ?_).trans ?_ | with_reducible refine (State.updGroup_ctxs _ _ _).trans ?_ | dsimp only | split)

theorem State.recallRows_ctxs (s : State) (g : Nat) : (State.recallRows s g).ctxs = s.ctxs := by
  unfold State.recallRows
  repeat' (first | with_reducible rfl | intro _ | with_reducible refine (foldl_ctxs _ _ _ ?_).trans ?_ | with_reducible refine (State.claimRows_ctxs _ _ _ _).trans ?_ | with_reducible refine (State.updGroup_ctxs _ _ _).trans ?_ | dsimp only | split)

theorem State.removeGroup_ctxs (s : State) (g : Nat) : (State.removeGroup s g).ctxs = s.ctxs := by
  unfold State.removeGroup
  repeat' (first | with_reducible rfl | intro _ | with_reducible refine (foldl_ctxs _ _ _ ?_).trans ?_ | with_reducible refine (State.keep_ctxs _ _ _ _).trans ?_ | with_reducible refine (State.updCore_ctxs _ _ _).trans ?_ | dsimp only | split)

theorem State.sendAcquire_ctxs (s : State) (x : Group) (dst : Dst) (form : LoadForm) (bytes scope : Nat) (victims : List Nat) (pas : List (Nat × Nat × Page)) (va : Nat → W64) : (State.sendAcquire s x dst form bytes scope victims pas va).ctxs = s.ctxs := by
  unfold State.sendAcquire
  repeat' (first | with_reducible rfl | intro _ | with_reducible refine (foldl_ctxs _ _ _ ?_).trans ?_ | with_reducible refine (State.mapLanes_ctxs _ _ _ _).trans ?_ | with_reducible refine (State.sample_ctxs _ _ _ _).trans ?_ | with_reducible refine (State.updCore_ctxs _ _ _).trans ?_ | with_reducible refine (State.updGroup_ctxs _ _ _).trans ?_ | dsimp only | split)

theorem State.acquireLine_ctxs (s : State) (ctx core la mtype scope : Nat) (l2 conf : Bool) : (s.acquireLine ctx core la mtype scope l2 conf).1.ctxs = s.ctxs := by
  unfold State.acquireLine
  (repeat' (first | with_reducible rfl | with_reducible refine (State.countPacket_ctxs _ _ _).trans ?_ | with_reducible refine (State.reportRefused_ctxs _ _ _ _).trans ?_ | with_reducible refine (State.cleanAll_ctxs _ _).trans ?_ | with_reducible refine (State.readLine_ctxs _ _ _ _ _ _).trans ?_ | dsimp only | split))

theorem State.acquireArrives_ctxs (s : State) (core id lane scope : Nat) (l : Load) (e : LaneLoad) : (State.acquireArrives s core id lane scope l e).ctxs = s.ctxs := by
  unfold State.acquireArrives
  repeat' (first | with_reducible rfl | intro _ | with_reducible refine (foldl_ctxs _ _ _ ?_).trans ?_ | with_reducible refine (State.acquireLine_ctxs _ _ _ _ _ _ _ _).trans ?_ | with_reducible refine (State.arrive_ctxs _ _ _ _).trans ?_ | with_reducible refine (State.deliver_ctxs _ _ _ _ _ _).trans ?_ | with_reducible refine (State.send_ctxs _ _ _ _ _ _ ?_).trans ?_ | with_reducible refine (State.updCore_ctxs _ _ _).trans ?_ | dsimp only | split)

theorem State.fence_ctxs (s : State) (e : Eff) (kind scope : Nat) (range : Fibre → Option (W64 × Nat)) : (State.fence s e kind scope range).ctxs = s.ctxs := by
  unfold State.fence
  repeat' (first | with_reducible rfl | intro _ | with_reducible refine (foldl_ctxs _ _ _ ?_).trans ?_ | with_reducible refine (State.acquireL1_ctxs _ _ _ _).trans ?_ | with_reducible refine (State.complete_ctxs _ _ _ _).trans ?_ | with_reducible refine (State.mapLanes_ctxs _ _ _ _).trans ?_ | with_reducible refine (State.narrow_ctxs _ _).trans ?_ | with_reducible refine (State.wait_ctxs _ _ _).trans ?_ | dsimp only | split)

theorem State.fetchSegs_ctxs (s : State) (core : Nat) (l : List Seg) : (State.fetchSegs s core l).ctxs = s.ctxs := by
  unfold State.fetchSegs
  repeat' (first | with_reducible rfl | intro _ | with_reducible refine (foldl_ctxs _ _ _ ?_).trans ?_ | with_reducible refine (State.readLine_ctxs _ _ _ _ _ _).trans ?_ | dsimp only | split)

theorem State.reportSegs_ctxs (s : State) (ctx core : Nat) (write : Bool) (l : List Seg) : (State.reportSegs s ctx core write l).ctxs = s.ctxs := by
  unfold State.reportSegs
  repeat' (first | with_reducible rfl | intro _ | with_reducible refine (foldl_ctxs _ _ _ ?_).trans ?_ | with_reducible refine (State.reportReads_ctxs _ _ _ _).trans ?_ | with_reducible refine (State.reportWrites_ctxs _ _ _ _).trans ?_ | dsimp only | split)

theorem State.updCopy_ctxs (s : State) (core id : Nat) (f : Copy → Copy) : (State.updCopy s core id f).ctxs = s.ctxs := by
  unfold State.updCopy
  repeat' (first | with_reducible rfl | intro _ | with_reducible refine (foldl_ctxs _ _ _ ?_).trans ?_ | with_reducible refine (State.updCore_ctxs _ _ _).trans ?_ | dsimp only | split)

theorem State.publish_ctxs (s : State) (core : Nat) (lines : List Nat) : (State.publish s core lines).ctxs = s.ctxs := by
  unfold State.publish
  repeat' (first | with_reducible rfl | intro _ | with_reducible refine (foldl_ctxs _ _ _ ?_).trans ?_ | with_reducible refine (State.cleanAll_ctxs _ _).trans ?_ | with_reducible refine (State.dropCopies_ctxs _ _ _).trans ?_ | dsimp only | split)

theorem State.retireCopy_ctxs (s : State) (core id : Nat) (c : Copy) : (State.retireCopy s core id c).ctxs = s.ctxs := by
  unfold State.retireCopy
  repeat' (first | with_reducible rfl | intro _ | with_reducible refine (foldl_ctxs _ _ _ ?_).trans ?_ | with_reducible refine (State.publish_ctxs _ _ _).trans ?_ | with_reducible refine (State.updCore_ctxs _ _ _).trans ?_ | with_reducible refine (State.updGroup_ctxs _ _ _).trans ?_ | dsimp only | split)

theorem State.setHandle_ctxs (s : State) (h : Nat) (v : Handle) : (State.setHandle s h v).ctxs = s.ctxs := by
  unfold State.setHandle
  repeat' (first | with_reducible rfl | intro _ | with_reducible refine (foldl_ctxs _ _ _ ?_).trans ?_ | with_reducible refine (State.updGroup_ctxs _ _ _).trans ?_ | dsimp only | split)

theorem State.sendTile_ctxs (s : State) (e : Eff) (o : TileOp) (fresh : Option (Bool × Nat)) (written : Fibre → List Reg) : (State.sendTile s e o fresh written).ctxs = s.ctxs := by
  unfold State.sendTile
  repeat' (first | with_reducible rfl | intro _ | with_reducible refine (foldl_ctxs _ _ _ ?_).trans ?_ | with_reducible refine (State.complete_ctxs _ _ _ _).trans ?_ | with_reducible refine (State.setHandle_ctxs _ _ _).trans ?_ | with_reducible refine (State.updCore_ctxs _ _ _).trans ?_ | with_reducible refine (State.updGroup_ctxs _ _ _).trans ?_ | with_reducible refine (State.wait_ctxs _ _ _).trans ?_ | dsimp only | split)

theorem State.sendQuarter_ctxs (s : State) (z : MatrixIns) (old : Group) (id n : Nat) : (State.sendQuarter s z old id n).ctxs = s.ctxs := by
  unfold State.sendQuarter
  repeat' (first | with_reducible rfl | intro _ | with_reducible refine (foldl_ctxs _ _ _ ?_).trans ?_ | with_reducible refine (State.setHandle_ctxs _ _ _).trans ?_ | with_reducible refine (State.updCore_ctxs _ _ _).trans ?_ | dsimp only | split)

theorem State.warnGroup_ctxs (s : State) (g : Nat) (w : W32) : (State.warnGroup s g w).ctxs = s.ctxs := by
  unfold State.warnGroup
  repeat' (first | with_reducible rfl | intro _ | with_reducible refine (foldl_ctxs _ _ _ ?_).trans ?_ | with_reducible refine (State.updGroup_ctxs _ _ _).trans ?_ | with_reducible refine (State.warn_ctxs _ _).trans ?_ | dsimp only | split)

theorem State.clearMark_ctxs (s : State) (core la : Nat) : (State.clearMark s core la).ctxs = s.ctxs := by
  unfold State.clearMark
  repeat' (first | with_reducible rfl | intro _ | with_reducible refine (foldl_ctxs _ _ _ ?_).trans ?_ | with_reducible refine (State.updDie_ctxs _ _ _).trans ?_ | dsimp only | split)

theorem State.recallTile_ctxs (s : State) (core ctx : Nat) (offs : List Nat) : (State.recallTile s core ctx offs).ctxs = s.ctxs := by
  unfold State.recallTile
  repeat' (first | with_reducible rfl | intro _ | with_reducible refine (foldl_ctxs _ _ _ ?_).trans ?_ | with_reducible refine (State.recallScratch_ctxs _ _ _ _ _).trans ?_ | dsimp only | split)

theorem State.updQuarter_ctxs (s : State) (core id n : Nat) (f : Quarter → Quarter) : (State.updQuarter s core id n f).ctxs = s.ctxs := by
  unfold State.updQuarter
  repeat' (first | with_reducible rfl | intro _ | with_reducible refine (foldl_ctxs _ _ _ ?_).trans ?_ | with_reducible refine (State.updCore_ctxs _ _ _).trans ?_ | dsimp only | split)

theorem State.dropTlb_ctxs (s : State) (ctx : Nat) (va : W64) (len : Nat) : (State.dropTlb s ctx va len).ctxs = s.ctxs := by
  unfold State.dropTlb
  repeat' (first | with_reducible rfl | intro _ | with_reducible refine (foldl_ctxs _ _ _ ?_).trans ?_ | dsimp only | split)

theorem State.publishCopies_ctxs (s : State) (ctx : Nat) : (State.publishCopies s ctx).ctxs = s.ctxs := by
  unfold State.publishCopies
  repeat' (first | with_reducible rfl | intro _ | with_reducible refine (foldl_ctxs _ _ _ ?_).trans ?_ | with_reducible refine (State.publish_ctxs _ _ _).trans ?_ | dsimp only | split)

theorem State.endCopies_ctxs (s : State) (ctx : Nat) : (State.endCopies s ctx).ctxs = s.ctxs := by
  unfold State.endCopies
  repeat' (first | with_reducible rfl | intro _ | with_reducible refine (foldl_ctxs _ _ _ ?_).trans ?_ | with_reducible refine (State.keep_ctxs _ _ _ _).trans ?_ | with_reducible refine (State.publishCopies_ctxs _ _).trans ?_ | dsimp only | split)

theorem State.flipCopies_ctxs (s : State) (ctx : Nat) (va : W64) (len : Nat) (on : Bool) : (State.flipCopies s ctx va len on).ctxs = s.ctxs := by
  unfold State.flipCopies
  repeat' (first | with_reducible rfl | intro _ | with_reducible refine (foldl_ctxs _ _ _ ?_).trans ?_ | dsimp only | split)

theorem State.evictLine_ctxs (s : State) (la : Nat) : (State.evictLine s la).ctxs = s.ctxs := by
  unfold State.evictLine
  repeat' (first | with_reducible rfl | intro _ | with_reducible refine (foldl_ctxs _ _ _ ?_).trans ?_ | with_reducible refine (State.cleanAll_ctxs _ _).trans ?_ | with_reducible refine (State.install_ctxs _ _ _ _ _ _).trans ?_ | with_reducible refine (State.reportDies_ctxs _ _ _).trans ?_ | dsimp only | split)

theorem State.sealHost_ctxs (s : State) (key : Option Nat) (a n : Nat) : (State.sealHost s key a n).ctxs = s.ctxs := by
  unfold State.sealHost
  repeat' (first | with_reducible rfl | intro _ | with_reducible refine (foldl_ctxs _ _ _ ?_).trans ?_ | with_reducible refine (State.sealFor_ctxs _ _ _ _).trans ?_ | dsimp only | split)

theorem State.answerHost_ctxs (s : State) (a n : Nat) : (State.answerHost s a n).ctxs = s.ctxs := by
  unfold State.answerHost
  repeat' (first | with_reducible rfl | intro _ | with_reducible refine (foldl_ctxs _ _ _ ?_).trans ?_ | dsimp only | split)

theorem State.reportLine_ctxs (s : State) (type la : Nat) : (State.reportLine s type la).ctxs = s.ctxs := by
  unfold State.reportLine
  repeat' (first | with_reducible rfl | intro _ | with_reducible refine (foldl_ctxs _ _ _ ?_).trans ?_ | with_reducible refine (State.report_ctxs _ _ _ _ _).trans ?_ | with_reducible refine (State.reportSupervisor_ctxs _ _ _ _ _ _).trans ?_ | dsimp only | split)

theorem State.loseLine_ctxs (s : State) (la : Nat) : (State.loseLine s la).ctxs = s.ctxs := by
  unfold State.loseLine
  repeat' (first | with_reducible rfl | intro _ | with_reducible refine (foldl_ctxs _ _ _ ?_).trans ?_ | with_reducible refine (State.writeLine_ctxs _ _ _ _).trans ?_ | dsimp only | split)

theorem State.writeStatus_ctxs (s : State) (ctx : Nat) (addr : W64) (status : Nat) : (State.writeStatus s ctx addr status).ctxs = s.ctxs := by
  unfold State.writeStatus
  repeat' (first | with_reducible rfl | intro _ | with_reducible refine (foldl_ctxs _ _ _ ?_).trans ?_ | with_reducible refine (State.deviceWrite_ctxs _ _ _ _).trans ?_ | dsimp only | split)

theorem State.endCall_ctxs (s : State) (id : Nat) (c : Call) (status : Nat) : (State.endCall s id c status).ctxs = s.ctxs := by
  unfold State.endCall
  repeat' (first | with_reducible rfl | intro _ | with_reducible refine (foldl_ctxs _ _ _ ?_).trans ?_ | with_reducible refine (State.writeStatus_ctxs _ _ _ _).trans ?_ | dsimp only | split)

theorem State.updCall_ctxs (s : State) (id : Nat) (f : Call → Call) : (State.updCall s id f).ctxs = s.ctxs := by
  unfold State.updCall
  repeat' (first | with_reducible rfl | intro _ | with_reducible refine (foldl_ctxs _ _ _ ?_).trans ?_ | dsimp only | split)

theorem State.sendPut_ctxs (s : State) (id : Nat) (c : Call) (m : Comm) : (State.sendPut s id c m).ctxs = s.ctxs := by
  unfold State.sendPut
  repeat' (first | with_reducible rfl | intro _ | with_reducible refine (foldl_ctxs _ _ _ ?_).trans ?_ | with_reducible refine (State.updCall_ctxs _ _ _).trans ?_ | dsimp only | split)

theorem State.joinCall_ctxs (s : State) (id : Nat) (c : Call) (m : Comm) (others : List (Nat × List Byte)) : (State.joinCall s id c m others).ctxs = s.ctxs := by
  unfold State.joinCall
  repeat' (first | with_reducible rfl | intro _ | with_reducible refine (foldl_ctxs _ _ _ ?_).trans ?_ | with_reducible refine (State.updCall_ctxs _ _ _).trans ?_ | dsimp only | split)

theorem State.sending_ctxs (s : State) (target : Nat) (go : State → State) (hgo : ∀ x0, (go x0).ctxs = x0.ctxs) : (State.sending s target go).ctxs = s.ctxs := by
  unfold State.sending
  repeat' (first | with_reducible rfl | intro _ | with_reducible refine (foldl_ctxs _ _ _ ?_).trans ?_ | with_reducible refine (State.dropRequests_ctxs _ _ _).trans ?_ | with_reducible refine (State.send_ctxs _ _ _ _ _ _ ?_).trans ?_ | with_reducible refine (State.wait_ctxs _ _ _).trans ?_ | with_reducible refine (hgo _).trans ?_ | dsimp only | split)

theorem State.answer_ctxs (s : State) (g : Nat) (dst : List (Nat × Nat × Reg)) (v : Nat) : (State.answer s g dst v).ctxs = s.ctxs := by
  unfold State.answer
  repeat' (first | with_reducible rfl | intro _ | with_reducible refine (foldl_ctxs _ _ _ ?_).trans ?_ | with_reducible refine (State.landReg_ctxs _ _ _ _ _ _ _).trans ?_ | with_reducible refine (State.settleGm_ctxs _ _).trans ?_ | dsimp only | split)

theorem State.endWait_ctxs (s : State) (g lane core : Nat) (b : Fibre) (d words v : Nat) (last : List Reg) : (State.endWait s g lane core b d words v last).ctxs = s.ctxs := by
  unfold State.endWait
  repeat' (first | with_reducible rfl | intro _ | with_reducible refine (foldl_ctxs _ _ _ ?_).trans ?_ | with_reducible refine (State.acquireL1_ctxs _ _ _ _).trans ?_ | with_reducible refine (State.releaseHolders_ctxs _ _ _ _ _).trans ?_ | with_reducible refine (State.settleGm_ctxs _ _).trans ?_ | with_reducible refine (State.updFibre_ctxs _ _ _ _).trans ?_ | with_reducible refine (State.wait_ctxs _ _ _).trans ?_ | dsimp only | split)

theorem State.unasked_ctxs (s : State) (g lane : Nat) : (State.unasked s g lane).ctxs = s.ctxs := by
  unfold State.unasked
  repeat' (first | with_reducible rfl | intro _ | with_reducible refine (foldl_ctxs _ _ _ ?_).trans ?_ | with_reducible refine (State.updGroup_ctxs _ _ _).trans ?_ | dsimp only | split)

theorem State.finishStep_ctxs (s : State) (p : Pending) : (State.finishStep s p).ctxs = s.ctxs := by
  unfold State.finishStep
  repeat' (first | with_reducible rfl | intro _ | with_reducible refine (foldl_ctxs _ _ _ ?_).trans ?_ | with_reducible refine (State.answer_ctxs _ _ _ _).trans ?_ | dsimp only | split)

theorem State.applyStep_ctxs (s : State) (core track grid : Nat) : (State.applyStep s core track grid).ctxs = s.ctxs := by
  unfold State.applyStep
  repeat' (first | with_reducible rfl | intro _ | with_reducible refine (foldl_ctxs _ _ _ ?_).trans ?_ | with_reducible refine (State.finishStep_ctxs _ _).trans ?_ | with_reducible refine (State.updCore_ctxs _ _ _).trans ?_ | with_reducible refine (State.updGrid_ctxs _ _ _).trans ?_ | dsimp only | split)

theorem State.reply_ctxs (s : State) (endpoint id status : Nat) : (State.reply s endpoint id status).ctxs = s.ctxs := by
  unfold State.reply
  repeat' (first | with_reducible rfl | intro _ | with_reducible refine (foldl_ctxs _ _ _ ?_).trans ?_ | dsimp only | split)

theorem State.refuseMessage_ctxs (s : State) (vf endpoint id : Nat) : (State.refuseMessage s vf endpoint id).ctxs = s.ctxs := by
  unfold State.refuseMessage
  repeat' (first | with_reducible rfl | intro _ | with_reducible refine (foldl_ctxs _ _ _ ?_).trans ?_ | with_reducible refine (State.reply_ctxs _ _ _ _).trans ?_ | with_reducible refine (State.report_ctxs _ _ _ _ _).trans ?_ | with_reducible refine (State.reportSupervisor_ctxs _ _ _ _ _ _).trans ?_ | dsimp only | split)

theorem State.answerTo_ctxs (s : State) (endpoint id : Nat) (error : Bool) : (State.answerTo s endpoint id error).ctxs = s.ctxs := by
  unfold State.answerTo
  repeat' (first | with_reducible rfl | intro _ | with_reducible refine (foldl_ctxs _ _ _ ?_).trans ?_ | with_reducible refine (State.answer_ctxs _ _ _ _).trans ?_ | dsimp only | split)

theorem State.reportSparing_ctxs (s : State) (what : Nat) (addr : W64) (place : Nat) : (State.reportSparing s what addr place).ctxs = s.ctxs := by
  unfold State.reportSparing
  repeat' (first | with_reducible rfl | intro _ | with_reducible refine (foldl_ctxs _ _ _ ?_).trans ?_ | with_reducible refine (State.reportSupervisor_ctxs _ _ _ _ _ _).trans ?_ | dsimp only | split)

theorem State.cacheCode_ctxs (s : State) (x : Group) (l : List (Nat × Bool)) : (State.cacheCode s x l).ctxs = s.ctxs := by
  unfold State.cacheCode
  repeat' (first | with_reducible rfl | intro _ | with_reducible refine (foldl_ctxs _ _ _ ?_).trans ?_ | with_reducible refine (State.readLine_ctxs _ _ _ _ _ _).trans ?_ | with_reducible refine (State.reportReads_ctxs _ _ _ _).trans ?_ | with_reducible refine (State.updCore_ctxs _ _ _).trans ?_ | dsimp only | split)

theorem State.fetched_ctxs (s : State) (g : Nat) (x : Group) (pc : W64) (n : Nat) : (State.fetched s g x pc n).ctxs = s.ctxs := by
  unfold State.fetched
  repeat' (first | with_reducible rfl | intro _ | with_reducible refine (foldl_ctxs _ _ _ ?_).trans ?_ | with_reducible refine (State.cacheCode_ctxs _ _ _).trans ?_ | with_reducible refine (State.portTake_ctxs _ _ _ _ _).trans ?_ | dsimp only | split)

theorem State.fetchTried_ctxs (s : State) (g : Nat) (x : Group) (pc val : W64) (cause sub n : Nat) : (State.fetchTried s g x pc val cause sub n).ctxs = s.ctxs := by
  unfold State.fetchTried
  repeat' (first | with_reducible rfl | intro _ | with_reducible refine (foldl_ctxs _ _ _ ?_).trans ?_ | with_reducible refine (State.fetched_ctxs _ _ _ _ _).trans ?_ | with_reducible refine (State.reportWalk_ctxs _ _ _ _).trans ?_ | dsimp only | split)

theorem State.fetchAhead_ctxs (s : State) (g : Nat) : (State.fetchAhead s g).ctxs = s.ctxs := by
  unfold State.fetchAhead
  repeat' (first | with_reducible rfl | intro _ | with_reducible refine (foldl_ctxs _ _ _ ?_).trans ?_ | with_reducible refine (State.cacheCode_ctxs _ _ _).trans ?_ | with_reducible refine (State.portQueue_ctxs _ _ _ _ _).trans ?_ | with_reducible refine (State.send_ctxs _ _ _ _ _ _ ?_).trans ?_ | with_reducible refine (State.wait_ctxs _ _ _).trans ?_ | dsimp only | split)

theorem State.updRequest_ctxs (s : State) (core id lane : Nat) (f : Option Nat → Option Nat) (n : Nat) : (State.updRequest s core id lane f n).ctxs = s.ctxs := by
  unfold State.updRequest
  repeat' (first | with_reducible rfl | intro _ | with_reducible refine (foldl_ctxs _ _ _ ?_).trans ?_ | with_reducible refine (State.updCall_ctxs _ _ _).trans ?_ | with_reducible refine (State.updCore_ctxs _ _ _).trans ?_ | with_reducible refine (State.updGroup_ctxs _ _ _).trans ?_ | dsimp only | split)

theorem State.noteSent_ctxs (s : State) : (State.noteSent s).ctxs = s.ctxs := by
  unfold State.noteSent
  repeat' (first | with_reducible rfl | intro _ | with_reducible refine (foldl_ctxs _ _ _ ?_).trans ?_ | with_reducible refine (State.updRequest_ctxs _ _ _ _ _ _).trans ?_ | dsimp only | split)

theorem State.updVf_ctxs (s : State) (vf : Nat) (f : Vf → Vf) : (State.updVf s vf f).ctxs = s.ctxs := by
  unfold State.updVf
  repeat' (first | with_reducible rfl | intro _ | with_reducible refine (foldl_ctxs _ _ _ ?_).trans ?_ | dsimp only | split)

theorem State.refillPort_ctxs (s : State) (core boundary : Nat) : (State.refillPort s core boundary).ctxs = s.ctxs := by
  unfold State.refillPort
  repeat' (first | with_reducible rfl | intro _ | with_reducible refine (foldl_ctxs _ _ _ ?_).trans ?_ | with_reducible refine (State.keep_ctxs _ _ _ _).trans ?_ | with_reducible refine (State.updCore_ctxs _ _ _).trans ?_ | dsimp only | split)

theorem State.refillAt_ctxs (s : State) (boundary core : Nat) : (State.refillAt s boundary core).ctxs = s.ctxs := by
  unfold State.refillAt
  repeat' (first | with_reducible rfl | intro _ | with_reducible refine (foldl_ctxs _ _ _ ?_).trans ?_ | with_reducible refine (State.refillPort_ctxs _ _ _).trans ?_ | dsimp only | split)

theorem State.refillDue_ctxs (s : State) (n : Nat) : (State.refillDue s n).ctxs = s.ctxs := by
  unfold State.refillDue
  repeat' (first | with_reducible rfl | intro _ | with_reducible refine (foldl_ctxs _ _ _ ?_).trans ?_ | with_reducible refine (State.refillAt_ctxs _ _ _).trans ?_ | dsimp only | split)

theorem State.updPkg_ctxs (s : State) (f : Package → Package) : (State.updPkg s f).ctxs = s.ctxs := by
  unfold State.updPkg
  repeat' (first | with_reducible rfl | intro _ | with_reducible refine (foldl_ctxs _ _ _ ?_).trans ?_ | dsimp only | split)

theorem State.mapTracks_ctxs (s : State) (cores : List Nat) (f : Track → Track) : (State.mapTracks s cores f).ctxs = s.ctxs := by
  unfold State.mapTracks
  repeat' (first | with_reducible rfl | intro _ | with_reducible refine (foldl_ctxs _ _ _ ?_).trans ?_ | with_reducible refine (State.updCore_ctxs _ _ _).trans ?_ | dsimp only | split)

theorem State.noteNoise_ctxs (s : State) (die : Nat) (cores : List (Nat × Nat)) : (State.noteNoise s die cores).ctxs = s.ctxs := by
  unfold State.noteNoise
  repeat' (first | with_reducible rfl | intro _ | with_reducible refine (foldl_ctxs _ _ _ ?_).trans ?_ | with_reducible refine (State.updCore_ctxs _ _ _).trans ?_ | dsimp only | split)

theorem State.selfTest_ctxs (s : State) (core : Nat) : (State.selfTest s core).ctxs = s.ctxs := by
  unfold State.selfTest
  repeat' (first | with_reducible rfl | intro _ | with_reducible refine (foldl_ctxs _ _ _ ?_).trans ?_ | with_reducible refine (State.updCore_ctxs _ _ _).trans ?_ | with_reducible refine (State.updDie_ctxs _ _ _).trans ?_ | dsimp only | split)

theorem State.train_ctxs (s : State) (c : Nat × Nat × Nat) : (State.train s c).ctxs = s.ctxs := by
  unfold State.train
  repeat' (first | with_reducible rfl | intro _ | with_reducible refine (foldl_ctxs _ _ _ ?_).trans ?_ | with_reducible refine (State.updDie_ctxs _ _ _).trans ?_ | dsimp only | split)

theorem State.releaseJunctions_ctxs (s : State) (g : Nat) : (State.releaseJunctions s g).ctxs = s.ctxs := by
  unfold State.releaseJunctions
  repeat' (first | with_reducible rfl | intro _ | with_reducible refine (foldl_ctxs _ _ _ ?_).trans ?_ | with_reducible refine (State.releaseJunction_ctxs _ _ _).trans ?_ | dsimp only | split)

theorem State.countPort_ctxs (s : State) (g : Nat) (w : W32) (lanes : Nat) : (State.countPort s g w lanes).ctxs = s.ctxs := by
  unfold State.countPort
  repeat' (first | with_reducible rfl | intro _ | with_reducible refine (foldl_ctxs _ _ _ ?_).trans ?_ | with_reducible refine (State.port_ctxs _ _ _ _ _).trans ?_ | with_reducible refine (State.updCore_ctxs _ _ _).trans ?_ | dsimp only | split)

theorem State.releaseCounters_ctxs (s : State) (g : Nat) : (State.releaseCounters s g).ctxs = s.ctxs := by
  unfold State.releaseCounters
  repeat' (first | with_reducible rfl | intro _ | with_reducible refine (foldl_ctxs _ _ _ ?_).trans ?_ | with_reducible refine (State.updGroup_ctxs _ _ _).trans ?_ | dsimp only | split)

theorem State.tick_ctxs (s : State) (n : Nat) : (State.tick s n).ctxs = s.ctxs := by
  unfold State.tick
  repeat' (first | with_reducible rfl | intro _ | with_reducible refine (foldl_ctxs _ _ _ ?_).trans ?_ | with_reducible refine (State.fetchAhead_ctxs _ _).trans ?_ | with_reducible refine (State.noteSent_ctxs _).trans ?_ | with_reducible refine (State.refillDue_ctxs _ _).trans ?_ | dsimp only | split)

theorem State.moveGroup_ctxs (s : State) (g : Nat) (set : GSet) : (State.moveGroup s g set).ctxs = s.ctxs := by
  unfold State.moveGroup
  repeat' (first | with_reducible rfl | intro _ | with_reducible refine (foldl_ctxs _ _ _ ?_).trans ?_ | with_reducible refine (State.updGroup_ctxs _ _ _).trans ?_ | dsimp only | split)

end Sys2Proof.Machine
end

