-- ==== Sys2Proof/Laws/KeepMem.lean ====
section
/-! SUPPORT. The operations that leave the memory as it was, one lemma for each. -/

set_option linter.all false

namespace Sys2Proof.Machine

theorem foldl_mem {α : Type} (f : State → α → State) (l : List α) (s : State) (h : ∀ t a, (f t a).mem = t.mem) : (l.foldl f s).mem = s.mem := by
  induction l generalizing s with
  | nil => rfl
  | cons a l ih => exact (ih _).trans (h _ _)

theorem foldl_fst_mem {α β : Type} (f : State × β → α → State × β) (l : List α) (s : State × β) (h : ∀ t a, (f t a).1.mem = t.1.mem) : (l.foldl f s).1.mem = s.1.mem := by
  induction l generalizing s with
  | nil => rfl
  | cons a l ih => exact (ih _).trans (h _ _)

theorem foldl_snd_mem {α β : Type} (f : β × State → α → β × State) (l : List α) (s : β × State) (h : ∀ t a, (f t a).2.mem = t.2.mem) : (l.foldl f s).2.mem = s.2.mem := by
  induction l generalizing s with
  | nil => rfl
  | cons a l ih => exact (ih _).trans (h _ _)

theorem State.reportSupervisor_mem (s : State) (type vf sev : Nat) (addr : W64) (place : W32) : (State.reportSupervisor s type vf sev addr place).mem = s.mem := by
  unfold State.reportSupervisor
  repeat' (first | with_reducible rfl | intro _ | with_reducible refine (foldl_mem _ _ _ ?_).trans ?_ | dsimp only | split)

theorem State.updCore_mem (s : State) (c : Nat) (f : Core → Core) : (State.updCore s c f).mem = s.mem := by
  unfold State.updCore
  repeat' (first | with_reducible rfl | intro _ | with_reducible refine (foldl_mem _ _ _ ?_).trans ?_ | dsimp only | split)

theorem State.updDie_mem (s : State) (d : Nat) (f : Die → Die) : (State.updDie s d f).mem = s.mem := by
  unfold State.updDie
  repeat' (first | with_reducible rfl | intro _ | with_reducible refine (foldl_mem _ _ _ ?_).trans ?_ | dsimp only | split)

theorem State.countPacket_mem (s : State) (la : Nat) (conf : Bool) : (State.countPacket s la conf).mem = s.mem := by
  unfold State.countPacket
  repeat' (first | with_reducible rfl | intro _ | with_reducible refine (foldl_mem _ _ _ ?_).trans ?_ | dsimp only | split)

theorem State.reportDies_mem (s : State) (la : Nat) (dies : List Nat) : (State.reportDies s la dies).mem = s.mem := by
  unfold State.reportDies
  repeat' (first | with_reducible rfl | intro _ | with_reducible refine (foldl_mem _ _ _ ?_).trans ?_ | with_reducible refine (State.reportSupervisor_mem _ _ _ _ _ _).trans ?_ | dsimp only | split)

theorem State.noteLlc_mem (s : State) (la : Nat) : (State.noteLlc s la).mem = s.mem := by
  unfold State.noteLlc
  repeat' (first | with_reducible rfl | intro _ | with_reducible refine (foldl_mem _ _ _ ?_).trans ?_ | with_reducible refine (State.updDie_mem _ _ _).trans ?_ | dsimp only | split)

theorem State.invalidateL1s_mem (s : State) (d la except : Nat) : (State.invalidateL1s s d la except).mem = s.mem := by
  unfold State.invalidateL1s
  repeat' (first | with_reducible rfl | intro _ | with_reducible refine (foldl_mem _ _ _ ?_).trans ?_ | dsimp only | split)

theorem State.refreshCopies_mem (s : State) (la : Nat) : (State.refreshCopies s la).mem = s.mem := by
  unfold State.refreshCopies
  repeat' (first | with_reducible rfl | intro _ | with_reducible refine (foldl_mem _ _ _ ?_).trans ?_ | with_reducible refine (State.reportDies_mem _ _ _).trans ?_ | dsimp only | split)

theorem State.dropCopies_mem (s : State) (d la : Nat) : (State.dropCopies s d la).mem = s.mem := by
  unfold State.dropCopies
  repeat' (first | with_reducible rfl | intro _ | with_reducible refine (foldl_mem _ _ _ ?_).trans ?_ | with_reducible refine (State.reportDies_mem _ _ _).trans ?_ | dsimp only | split)

theorem State.fillTlb_mem (s : State) (ctx core : Nat) (va : W64) : (State.fillTlb s ctx core va).mem = s.mem := by
  unfold State.fillTlb
  repeat' (first | with_reducible rfl | intro _ | with_reducible refine (foldl_mem _ _ _ ?_).trans ?_ | with_reducible refine (State.updCore_mem _ _ _).trans ?_ | with_reducible refine (State.updDie_mem _ _ _).trans ?_ | dsimp only | split)

theorem State.askSupervisor_mem (s : State) (ctx : Nat) (va : W64) : (State.askSupervisor s ctx va).mem = s.mem := by
  unfold State.askSupervisor
  repeat' (first | with_reducible rfl | intro _ | with_reducible refine (foldl_mem _ _ _ ?_).trans ?_ | dsimp only | split)

theorem State.forget_mem (s : State) (ctx : Nat) (va : W64) : (State.forget s ctx va).mem = s.mem := by
  unfold State.forget
  repeat' (first | with_reducible rfl | intro _ | with_reducible refine (foldl_mem _ _ _ ?_).trans ?_ | dsimp only | split)

theorem State.updGroup_mem (s : State) (g : Nat) (f : Group → Group) : (State.updGroup s g f).mem = s.mem := by
  unfold State.updGroup
  repeat' (first | with_reducible rfl | intro _ | with_reducible refine (foldl_mem _ _ _ ?_).trans ?_ | dsimp only | split)

theorem State.mapLanes_mem (s : State) (g : Nat) (lanes : List Nat) (f : Nat → Fibre → Fibre) : (State.mapLanes s g lanes f).mem = s.mem := by
  unfold State.mapLanes
  repeat' (first | with_reducible rfl | intro _ | with_reducible refine (foldl_mem _ _ _ ?_).trans ?_ | with_reducible refine (State.updGroup_mem _ _ _).trans ?_ | dsimp only | split)

theorem State.updFibre_mem (s : State) (g lane : Nat) (f : Fibre → Fibre) : (State.updFibre s g lane f).mem = s.mem := by
  unfold State.updFibre
  repeat' (first | with_reducible rfl | intro _ | with_reducible refine (foldl_mem _ _ _ ?_).trans ?_ | with_reducible refine (State.mapLanes_mem _ _ _ _).trans ?_ | dsimp only | split)

theorem State.updGrid_mem (s : State) (n : Nat) (f : Grid → Grid) : (State.updGrid s n f).mem = s.mem := by
  unfold State.updGrid
  repeat' (first | with_reducible rfl | intro _ | with_reducible refine (foldl_mem _ _ _ ?_).trans ?_ | dsimp only | split)

theorem State.releaseHolders_mem (s : State) (g uid : Nat) (regs : List Reg) (counts : Bool) : (State.releaseHolders s g uid regs counts).mem = s.mem := by
  unfold State.releaseHolders
  repeat' (first | with_reducible rfl | intro _ | with_reducible refine (foldl_mem _ _ _ ?_).trans ?_ | with_reducible refine (State.updCore_mem _ _ _).trans ?_ | with_reducible refine (State.updGrid_mem _ _ _).trans ?_ | dsimp only | split)

theorem State.releaseFibre_mem (s : State) (g uid : Nat) : (State.releaseFibre s g uid).mem = s.mem := by
  unfold State.releaseFibre
  repeat' (first | with_reducible rfl | intro _ | with_reducible refine (foldl_mem _ _ _ ?_).trans ?_ | with_reducible refine (State.updCore_mem _ _ _).trans ?_ | with_reducible refine (State.updGrid_mem _ _ _).trans ?_ | dsimp only | split)

theorem State.settleGm_mem (s : State) (g : Nat) : (State.settleGm s g).mem = s.mem := by
  unfold State.settleGm
  repeat' (first | with_reducible rfl | intro _ | with_reducible refine (foldl_mem _ _ _ ?_).trans ?_ | with_reducible refine (State.mapLanes_mem _ _ _ _).trans ?_ | dsimp only | split)

theorem State.advance_mem (s : State) (lanes : List Nat) : (State.advance s lanes).mem = s.mem := by
  unfold State.advance
  repeat' (first | with_reducible rfl | intro _ | with_reducible refine (foldl_mem _ _ _ ?_).trans ?_ | with_reducible refine (State.mapLanes_mem _ _ _ _).trans ?_ | dsimp only | split)

theorem State.warn_mem (s : State) (w : W32) : (State.warn s w).mem = s.mem := by
  unfold State.warn
  repeat' (first | with_reducible rfl | intro _ | with_reducible refine (foldl_mem _ _ _ ?_).trans ?_ | with_reducible refine (State.updGroup_mem _ _ _).trans ?_ | dsimp only | split)

theorem State.wait_mem (s : State) (lanes : List Nat) (w : Wait) : (State.wait s lanes w).mem = s.mem := by
  unfold State.wait
  repeat' (first | with_reducible rfl | intro _ | with_reducible refine (foldl_mem _ _ _ ?_).trans ?_ | with_reducible refine (State.mapLanes_mem _ _ _ _).trans ?_ | dsimp only | split)

theorem State.dropLater_mem (s : State) (g : Nat) (h : Held) : (State.dropLater s g h).mem = s.mem := by
  unfold State.dropLater
  repeat' (first | with_reducible rfl | intro _ | with_reducible refine (foldl_mem _ _ _ ?_).trans ?_ | with_reducible refine (State.updCore_mem _ _ _).trans ?_ | dsimp only | split)

theorem State.undoHeld_mem (s : State) (g : Nat) : (State.undoHeld s g).mem = s.mem := by
  unfold State.undoHeld
  repeat' (first | with_reducible rfl | intro _ | with_reducible refine (foldl_mem _ _ _ ?_).trans ?_ | with_reducible refine (State.dropLater_mem _ _ _).trans ?_ | with_reducible refine (State.mapLanes_mem _ _ _ _).trans ?_ | with_reducible refine (State.updGroup_mem _ _ _).trans ?_ | with_reducible refine (State.wait_mem _ _ _).trans ?_ | dsimp only | split)

theorem State.reportRefused_mem (s : State) (ctx core : Nat) (lines : List Nat) : (State.reportRefused s ctx core lines).mem = s.mem := by
  unfold State.reportRefused
  repeat' (first | with_reducible rfl | intro _ | with_reducible refine (foldl_mem _ _ _ ?_).trans ?_ | with_reducible refine (State.reportSupervisor_mem _ _ _ _ _ _).trans ?_ | dsimp only | split)

theorem State.reportReads_mem (s : State) (ctx core : Nat) (lines : List Nat) : (State.reportReads s ctx core lines).mem = s.mem := by
  unfold State.reportReads
  repeat' (first | with_reducible rfl | intro _ | with_reducible refine (foldl_mem _ _ _ ?_).trans ?_ | with_reducible refine (State.reportRefused_mem _ _ _ _).trans ?_ | dsimp only | split)

theorem State.reportWrites_mem (s : State) (ctx core : Nat) (lines : List Nat) : (State.reportWrites s ctx core lines).mem = s.mem := by
  unfold State.reportWrites
  repeat' (first | with_reducible rfl | intro _ | with_reducible refine (foldl_mem _ _ _ ?_).trans ?_ | with_reducible refine (State.reportRefused_mem _ _ _ _).trans ?_ | dsimp only | split)

theorem State.reportWalk_mem (s : State) (ctx core : Nat) (va : W64) : (State.reportWalk s ctx core va).mem = s.mem := by
  unfold State.reportWalk
  repeat' (first | with_reducible rfl | intro _ | with_reducible refine (foldl_mem _ _ _ ?_).trans ?_ | with_reducible refine (State.reportReads_mem _ _ _ _).trans ?_ | dsimp only | split)

theorem State.shiftTimes_mem (s : State) (ctx : Nat) : (State.shiftTimes s ctx).mem = s.mem := by
  unfold State.shiftTimes
  repeat' (first | with_reducible rfl | intro _ | with_reducible refine (foldl_mem _ _ _ ?_).trans ?_ | with_reducible refine (State.wait_mem _ _ _).trans ?_ | dsimp only | split)

theorem State.raiseHalt_mem (s : State) (ctx reason g : Nat) (t : Trap) (lanes : List Nat) (incomplete : Bool) (epc : W64) : (State.raiseHalt s ctx reason g t lanes incomplete epc).mem = s.mem := by
  unfold State.raiseHalt
  repeat' (first | with_reducible rfl | intro _ | with_reducible refine (foldl_mem _ _ _ ?_).trans ?_ | with_reducible refine (State.shiftTimes_mem _ _).trans ?_ | dsimp only | split)

theorem State.keep_mem (s : State) (g : Nat) (t : Trap) (lanes : List Nat) : (State.keep s g t lanes).mem = s.mem := by
  unfold State.keep
  repeat' (first | with_reducible rfl | intro _ | with_reducible refine (foldl_mem _ _ _ ?_).trans ?_ | with_reducible refine (State.updGroup_mem _ _ _).trans ?_ | dsimp only | split)

theorem State.updHalt_mem (s : State) (ctx : Nat) (f : Halt → Halt) : (State.updHalt s ctx f).mem = s.mem := by
  unfold State.updHalt
  repeat' (first | with_reducible rfl | intro _ | with_reducible refine (foldl_mem _ _ _ ?_).trans ?_ | dsimp only | split)

theorem State.fault_mem (s : State) (g : Nat) (t : Trap) (lanes : List Nat) (incomplete : Bool) : (State.fault s g t lanes incomplete).mem = s.mem := by
  unfold State.fault
  repeat' (first | with_reducible rfl | intro _ | with_reducible refine (foldl_mem _ _ _ ?_).trans ?_ | with_reducible refine (State.keep_mem _ _ _ _).trans ?_ | with_reducible refine (State.raiseHalt_mem _ _ _ _ _ _ _ _).trans ?_ | with_reducible refine (State.updHalt_mem _ _ _).trans ?_ | dsimp only | split)

theorem State.precise_mem (s : State) (cause sub info eng : Nat) (lanes : List Nat) (val : W64) : (State.precise s cause sub info eng lanes val).mem = s.mem := by
  unfold State.precise
  repeat' (first | with_reducible rfl | intro _ | with_reducible refine (foldl_mem _ _ _ ?_).trans ?_ | with_reducible refine (State.fault_mem _ _ _ _ _).trans ?_ | dsimp only | split)

theorem State.walkPoison_mem (s : State) (eng field lane : Nat) (va : W64) : (State.walkPoison s eng field lane va).mem = s.mem := by
  unfold State.walkPoison
  repeat' (first | with_reducible rfl | intro _ | with_reducible refine (foldl_mem _ _ _ ?_).trans ?_ | with_reducible refine (State.precise_mem _ _ _ _ _ _ _).trans ?_ | with_reducible refine (State.reportWalk_mem _ _ _ _).trans ?_ | dsimp only | split)

theorem State.deferred_mem (s : State) (ctx g cause sub info eng lane : Nat) (val : W64) : (State.deferred s ctx g cause sub info eng lane val).mem = s.mem := by
  unfold State.deferred
  repeat' (first | with_reducible rfl | intro _ | with_reducible refine (foldl_mem _ _ _ ?_).trans ?_ | with_reducible refine (State.fault_mem _ _ _ _ _).trans ?_ | with_reducible refine (State.raiseHalt_mem _ _ _ _ _ _ _ _).trans ?_ | dsimp only | split)

theorem State.raisePending_mem (s : State) (g : Nat) : (State.raisePending s g).mem = s.mem := by
  unfold State.raisePending
  repeat' (first | with_reducible rfl | intro _ | with_reducible refine (foldl_mem _ _ _ ?_).trans ?_ | with_reducible refine (State.deferred_mem _ _ _ _ _ _ _ _ _).trans ?_ | with_reducible refine (State.fault_mem _ _ _ _ _).trans ?_ | with_reducible refine (State.raiseHalt_mem _ _ _ _ _ _ _ _).trans ?_ | with_reducible refine (State.updGroup_mem _ _ _).trans ?_ | dsimp only | split)

theorem State.report_mem (s : State) (vf type : Nat) (addr : W64) (place : W32) : (State.report s vf type addr place).mem = s.mem := by
  unfold State.report
  repeat' (first | with_reducible rfl | intro _ | with_reducible refine (foldl_mem _ _ _ ?_).trans ?_ | with_reducible refine (State.reportSupervisor_mem _ _ _ _ _ _).trans ?_ | dsimp only | split)

theorem State.moveLinks_mem (s : State) (g uid : Nat) (f : Nat → Nat) : (State.moveLinks s g uid f).mem = s.mem := by
  unfold State.moveLinks
  repeat' (first | with_reducible rfl | intro _ | with_reducible refine (foldl_mem _ _ _ ?_).trans ?_ | with_reducible refine (State.updCore_mem _ _ _).trans ?_ | dsimp only | split)

theorem State.parkGroups_mem (s : State) (ctx : Nat) (but : Option Nat) : (State.parkGroups s ctx but).mem = s.mem := by
  unfold State.parkGroups
  repeat' (first | with_reducible rfl | intro _ | with_reducible refine (foldl_mem _ _ _ ?_).trans ?_ | dsimp only | split)

theorem State.unparkGroups_mem (s : State) (ctx : Nat) : (State.unparkGroups s ctx).mem = s.mem := by
  unfold State.unparkGroups
  repeat' (first | with_reducible rfl | intro _ | with_reducible refine (foldl_mem _ _ _ ?_).trans ?_ | dsimp only | split)

theorem State.serveLatched_mem (s : State) (ctx : Nat) : (State.serveLatched s ctx).mem = s.mem := by
  unfold State.serveLatched
  repeat' (first | with_reducible rfl | intro _ | with_reducible refine (foldl_mem _ _ _ ?_).trans ?_ | with_reducible refine (State.raiseHalt_mem _ _ _ _ _ _ _ _).trans ?_ | dsimp only | split)

theorem State.quitLanes_mem (s : State) (g : Nat) (lanes : List Nat) : (State.quitLanes s g lanes).mem = s.mem := by
  unfold State.quitLanes
  repeat' (first | with_reducible rfl | intro _ | with_reducible refine (foldl_mem _ _ _ ?_).trans ?_ | with_reducible refine (State.keep_mem _ _ _ _).trans ?_ | with_reducible refine (State.releaseFibre_mem _ _ _).trans ?_ | with_reducible refine (State.updGroup_mem _ _ _).trans ?_ | dsimp only | split)

theorem State.raiseEnded_mem (s : State) (ctx : Nat) : (State.raiseEnded s ctx).mem = s.mem := by
  unfold State.raiseEnded
  repeat' (first | with_reducible rfl | intro _ | with_reducible refine (foldl_mem _ _ _ ?_).trans ?_ | with_reducible refine (State.raiseHalt_mem _ _ _ _ _ _ _ _).trans ?_ | dsimp only | split)

theorem State.releaseHalt_mem (s : State) (ctx : Nat) : (State.releaseHalt s ctx).mem = s.mem := by
  unfold State.releaseHalt
  repeat' (first | with_reducible rfl | intro _ | with_reducible refine (foldl_mem _ _ _ ?_).trans ?_ | with_reducible refine (State.raiseEnded_mem _ _).trans ?_ | with_reducible refine (State.serveLatched_mem _ _).trans ?_ | with_reducible refine (State.unparkGroups_mem _ _).trans ?_ | with_reducible refine (State.updHalt_mem _ _ _).trans ?_ | dsimp only | split)

theorem State.endHandler_mem (s : State) (ctx g : Nat) : (State.endHandler s ctx g).mem = s.mem := by
  unfold State.endHandler
  repeat' (first | with_reducible rfl | intro _ | with_reducible refine (foldl_mem _ _ _ ?_).trans ?_ | with_reducible refine (State.releaseHalt_mem _ _).trans ?_ | with_reducible refine (State.updHalt_mem _ _ _).trans ?_ | dsimp only | split)

theorem State.leaveHandler_mem (s : State) (g : Nat) : (State.leaveHandler s g).mem = s.mem := by
  unfold State.leaveHandler
  repeat' (first | with_reducible rfl | intro _ | with_reducible refine (foldl_mem _ _ _ ?_).trans ?_ | with_reducible refine (State.endHandler_mem _ _ _).trans ?_ | with_reducible refine (State.mapLanes_mem _ _ _ _).trans ?_ | with_reducible refine (State.moveLinks_mem _ _ _ _).trans ?_ | with_reducible refine (State.quitLanes_mem _ _ _).trans ?_ | with_reducible refine (State.releaseHolders_mem _ _ _ _ _).trans ?_ | with_reducible refine (State.shiftTimes_mem _ _).trans ?_ | with_reducible refine (State.updGroup_mem _ _ _).trans ?_ | dsimp only | split)

theorem State.freeLast_mem (s : State) (old : Group) (e : Eff) (written : Fibre → List Reg) : (State.freeLast s old e written).mem = s.mem := by
  unfold State.freeLast
  repeat' (first | with_reducible rfl | intro _ | with_reducible refine (foldl_mem _ _ _ ?_).trans ?_ | with_reducible refine (State.mapLanes_mem _ _ _ _).trans ?_ | with_reducible refine (State.releaseHolders_mem _ _ _ _ _).trans ?_ | dsimp only | split)

theorem State.complete_mem (s : State) (old : Group) (e : Eff) (written : Fibre → List Reg) : (State.complete s old e written).mem = s.mem := by
  unfold State.complete
  repeat' (first | with_reducible rfl | intro _ | with_reducible refine (foldl_mem _ _ _ ?_).trans ?_ | with_reducible refine (State.advance_mem _ _).trans ?_ | with_reducible refine (State.freeLast_mem _ _ _ _).trans ?_ | with_reducible refine (State.settleGm_mem _ _).trans ?_ | dsimp only | split)

theorem State.narrow_mem (s : State) (lanes : List Nat) : (State.narrow s lanes).mem = s.mem := by
  unfold State.narrow
  repeat' (first | with_reducible rfl | intro _ | with_reducible refine (foldl_mem _ _ _ ?_).trans ?_ | dsimp only | split)

theorem State.control_mem (s : State) (eng : Nat) (ops : Group → Nat → Fibre → List Ctl) (go : State → State) (hgo : ∀ x0, (go x0).mem = x0.mem) : (State.control s eng ops go).mem = s.mem := by
  unfold State.control
  repeat' (first | with_reducible rfl | intro _ | with_reducible refine (foldl_mem _ _ _ ?_).trans ?_ | with_reducible refine (State.mapLanes_mem _ _ _ _).trans ?_ | with_reducible refine (State.narrow_mem _ _).trans ?_ | with_reducible refine (State.precise_mem _ _ _ _ _ _ _).trans ?_ | with_reducible refine (State.releaseHolders_mem _ _ _ _ _).trans ?_ | with_reducible refine (State.wait_mem _ _ _).trans ?_ | with_reducible refine (hgo _).trans ?_ | dsimp only | split)

theorem State.pending_mem (s : State) (z : Alu) (old : Group) (lanes : List Nat) (flags : W32) (trap : Option (Trap × List Nat)) : (State.pending s z old lanes flags trap).mem = s.mem := by
  unfold State.pending
  repeat' (first | with_reducible rfl | intro _ | with_reducible refine (foldl_mem _ _ _ ?_).trans ?_ | with_reducible refine (State.mapLanes_mem _ _ _ _).trans ?_ | with_reducible refine (State.updCore_mem _ _ _).trans ?_ | dsimp only | split)

theorem State.alu_mem (s : State) (z : Alu) : (State.alu s z).mem = s.mem := by
  unfold State.alu
  repeat' (first | with_reducible rfl | intro _ | with_reducible refine (foldl_mem _ _ _ ?_).trans ?_ | with_reducible refine (State.complete_mem _ _ _ _).trans ?_ | with_reducible refine (State.fault_mem _ _ _ _ _).trans ?_ | with_reducible refine (State.mapLanes_mem _ _ _ _).trans ?_ | with_reducible refine (State.pending_mem _ _ _ _ _ _).trans ?_ | with_reducible refine (State.releaseHolders_mem _ _ _ _ _).trans ?_ | with_reducible refine (State.warn_mem _ _).trans ?_ | dsimp only | split)

theorem State.acquireL1_mem (s : State) (core scope : Nat) (teamCores : Nat) : (State.acquireL1 s core scope teamCores).mem = s.mem := by
  unfold State.acquireL1
  repeat' (first | with_reducible rfl | intro _ | with_reducible refine (foldl_mem _ _ _ ?_).trans ?_ | with_reducible refine (State.updCore_mem _ _ _).trans ?_ | dsimp only | split)

theorem State.updTeam_mem (s : State) (x : Group) (f : Team → Team) : (State.updTeam s x f).mem = s.mem := by
  unfold State.updTeam
  repeat' (first | with_reducible rfl | intro _ | with_reducible refine (foldl_mem _ _ _ ?_).trans ?_ | with_reducible refine (State.updGrid_mem _ _ _).trans ?_ | dsimp only | split)

theorem State.checkGroup_mem (s : State) (g : Nat) : (State.checkGroup s g).mem = s.mem := by
  unfold State.checkGroup
  repeat' (first | with_reducible rfl | intro _ | with_reducible refine (foldl_mem _ _ _ ?_).trans ?_ | with_reducible refine (State.acquireL1_mem _ _ _ _).trans ?_ | with_reducible refine (State.mapLanes_mem _ _ _ _).trans ?_ | with_reducible refine (State.updGroup_mem _ _ _).trans ?_ | with_reducible refine (State.wait_mem _ _ _).trans ?_ | dsimp only | split)

theorem State.checkTeam_mem (s : State) (g : Nat) : (State.checkTeam s g).mem = s.mem := by
  unfold State.checkTeam
  repeat' (first | with_reducible rfl | intro _ | with_reducible refine (foldl_mem _ _ _ ?_).trans ?_ | with_reducible refine (State.acquireL1_mem _ _ _ _).trans ?_ | with_reducible refine (State.updTeam_mem _ _ _).trans ?_ | dsimp only | split)

theorem State.checkGrid_mem (s : State) (grid : Nat) : (State.checkGrid s grid).mem = s.mem := by
  unfold State.checkGrid
  repeat' (first | with_reducible rfl | intro _ | with_reducible refine (foldl_mem _ _ _ ?_).trans ?_ | with_reducible refine (State.updGrid_mem _ _ _).trans ?_ | dsimp only | split)

theorem State.checkBarriers_mem (s : State) (g : Nat) : (State.checkBarriers s g).mem = s.mem := by
  unfold State.checkBarriers
  repeat' (first | with_reducible rfl | intro _ | with_reducible refine (foldl_mem _ _ _ ?_).trans ?_ | with_reducible refine (State.checkGrid_mem _ _).trans ?_ | with_reducible refine (State.checkGroup_mem _ _).trans ?_ | with_reducible refine (State.checkTeam_mem _ _).trans ?_ | dsimp only | split)

theorem State.checkContext_mem (s : State) (ctx : Nat) : (State.checkContext s ctx).mem = s.mem := by
  unfold State.checkContext
  repeat' (first | with_reducible rfl | intro _ | with_reducible refine (foldl_mem _ _ _ ?_).trans ?_ | with_reducible refine (State.checkBarriers_mem _ _).trans ?_ | dsimp only | split)

theorem State.checkReturn_mem (s : State) (g : Nat) : (State.checkReturn s g).mem = s.mem := by
  unfold State.checkReturn
  repeat' (first | with_reducible rfl | intro _ | with_reducible refine (foldl_mem _ _ _ ?_).trans ?_ | with_reducible refine (State.checkBarriers_mem _ _).trans ?_ | with_reducible refine (State.checkContext_mem _ _).trans ?_ | with_reducible refine (State.leaveHandler_mem _ _).trans ?_ | with_reducible refine (State.wait_mem _ _ _).trans ?_ | dsimp only | split)

theorem State.pushStore_mem (s : State) (core : Nat) (t : Store) : (State.pushStore s core t).mem = s.mem := by
  unfold State.pushStore
  repeat' (first | with_reducible rfl | intro _ | with_reducible refine (foldl_mem _ _ _ ?_).trans ?_ | with_reducible refine (State.updCore_mem _ _ _).trans ?_ | dsimp only | split)

theorem State.portTake_mem (s : State) (ctx core n : Nat) (a : Ask) : (State.portTake s ctx core n a).mem = s.mem := by
  unfold State.portTake
  repeat' (first | with_reducible rfl | intro _ | with_reducible refine (foldl_mem _ _ _ ?_).trans ?_ | with_reducible refine (State.updCore_mem _ _ _).trans ?_ | dsimp only | split)

theorem State.portQueue_mem (s : State) (ctx core n : Nat) (a : Ask) : (State.portQueue s ctx core n a).mem = s.mem := by
  unfold State.portQueue
  repeat' (first | with_reducible rfl | intro _ | with_reducible refine (foldl_mem _ _ _ ?_).trans ?_ | with_reducible refine (State.updCore_mem _ _ _).trans ?_ | dsimp only | split)

theorem State.port_mem (s : State) (ctx core n : Nat) (a : Ask) : (s.port ctx core n a).1.mem = s.mem := by
  unfold State.port
  split
  · exact State.portTake_mem ..
  · exact State.portQueue_mem ..

theorem State.reportDead_mem (s : State) (ctx core : Nat) (lines : List Nat) : (State.reportDead s ctx core lines).mem = s.mem := by
  unfold State.reportDead
  repeat' (first | with_reducible rfl | intro _ | with_reducible refine (foldl_mem _ _ _ ?_).trans ?_ | with_reducible refine (State.reportSupervisor_mem _ _ _ _ _ _).trans ?_ | dsimp only | split)

theorem State.dropRequests_mem (s : State) (ctx core : Nat) : (State.dropRequests s ctx core).mem = s.mem := by
  unfold State.dropRequests
  repeat' (first | with_reducible rfl | intro _ | with_reducible refine (foldl_mem _ _ _ ?_).trans ?_ | with_reducible refine (State.forget_mem _ _ _).trans ?_ | with_reducible refine (State.reportDead_mem _ _ _ _).trans ?_ | with_reducible refine (State.updCore_mem _ _ _).trans ?_ | dsimp only | split)

theorem State.send_mem (s : State) (ctx core n : Nat) (a : Ask) (go : State → State) (hgo : ∀ x0, (go x0).mem = x0.mem) : (State.send s ctx core n a go).mem = s.mem := by
  unfold State.send
  repeat' (first | with_reducible rfl | intro _ | with_reducible refine (foldl_mem _ _ _ ?_).trans ?_ | with_reducible refine (State.dropRequests_mem _ _ _).trans ?_ | with_reducible refine (State.port_mem _ _ _ _ _).trans ?_ | with_reducible refine (hgo _).trans ?_ | dsimp only | split)

theorem State.throughPort_mem (s : State) (ctx core n : Nat) (go : State → State) (hgo : ∀ x0, (go x0).mem = x0.mem) : (State.throughPort s ctx core n go).mem = s.mem := by
  unfold State.throughPort
  repeat' (first | with_reducible rfl | intro _ | with_reducible refine (foldl_mem _ _ _ ?_).trans ?_ | with_reducible refine (State.send_mem _ _ _ _ _ _ ?_).trans ?_ | with_reducible refine (hgo _).trans ?_ | dsimp only | split)

theorem State.waitReplay_mem (s : State) (ctx : Nat) (addrs : List (Nat × W64)) (faulting : List Nat) : (State.waitReplay s ctx addrs faulting).mem = s.mem := by
  unfold State.waitReplay
  repeat' (first | with_reducible rfl | intro _ | with_reducible refine (foldl_mem _ _ _ ?_).trans ?_ | with_reducible refine (State.askSupervisor_mem _ _ _).trans ?_ | with_reducible refine (State.wait_mem _ _ _).trans ?_ | dsimp only | split)

theorem State.suspend_mem (s : State) (i : Instr) (e : Eff) (load : Bool) (dst : Fibre → List Reg) (ctx : Nat) (addrs : List (Nat × W64)) (faulting : List Nat) : (State.suspend s i e load dst ctx addrs faulting).mem = s.mem := by
  unfold State.suspend
  repeat' (first | with_reducible rfl | intro _ | with_reducible refine (foldl_mem _ _ _ ?_).trans ?_ | with_reducible refine (State.advance_mem _ _).trans ?_ | with_reducible refine (State.askSupervisor_mem _ _ _).trans ?_ | with_reducible refine (State.keep_mem _ _ _ _).trans ?_ | with_reducible refine (State.mapLanes_mem _ _ _ _).trans ?_ | with_reducible refine (State.updGroup_mem _ _ _).trans ?_ | dsimp only | split)

theorem State.claimScratch_mem (s : State) (core ctx : Nat) (keep : List Nat) : (State.claimScratch s core ctx keep).mem = s.mem := by
  unfold State.claimScratch
  repeat' (first | with_reducible rfl | intro _ | with_reducible refine (foldl_mem _ _ _ ?_).trans ?_ | with_reducible refine (State.keep_mem _ _ _ _).trans ?_ | with_reducible refine (State.updCore_mem _ _ _).trans ?_ | dsimp only | split)

theorem State.recallScratch_mem (s : State) (core ctx off n : Nat) : (State.recallScratch s core ctx off n).mem = s.mem := by
  unfold State.recallScratch
  repeat' (first | with_reducible rfl | intro _ | with_reducible refine (foldl_mem _ _ _ ?_).trans ?_ | with_reducible refine (State.claimScratch_mem _ _ _ _).trans ?_ | with_reducible refine (State.updCore_mem _ _ _).trans ?_ | dsimp only | split)

theorem State.patchL1_mem (s : State) (core a : Nat) (data : List Byte) (poison : Bool) : (State.patchL1 s core a data poison).mem = s.mem := by
  unfold State.patchL1
  repeat' (first | with_reducible rfl | intro _ | with_reducible refine (foldl_mem _ _ _ ?_).trans ?_ | with_reducible refine (State.updCore_mem _ _ _).trans ?_ | dsimp only | split)

theorem State.sample_mem (s : State) (core g la : Nat) : (State.sample s core g la).mem = s.mem := by
  unfold State.sample
  repeat' (first | with_reducible rfl | intro _ | with_reducible refine (foldl_mem _ _ _ ?_).trans ?_ | with_reducible refine (State.updGroup_mem _ _ _).trans ?_ | dsimp only | split)

theorem State.install_mem (s : State) (core la : Nat) (l : L1Line) (g pol : Nat) : (State.install s core la l g pol).mem = s.mem := by
  unfold State.install
  repeat' (first | with_reducible rfl | intro _ | with_reducible refine (foldl_mem _ _ _ ?_).trans ?_ | with_reducible refine (State.keep_mem _ _ _ _).trans ?_ | with_reducible refine (State.updCore_mem _ _ _).trans ?_ | with_reducible refine (State.updGroup_mem _ _ _).trans ?_ | dsimp only | split)

theorem State.allocL1_mem (s : State) (core la g pol : Nat) (l1 : Bool) : (State.allocL1 s core la g pol l1).mem = s.mem := by
  unfold State.allocL1
  repeat' (first | with_reducible rfl | intro _ | with_reducible refine (foldl_mem _ _ _ ?_).trans ?_ | with_reducible refine (State.install_mem _ _ _ _ _ _).trans ?_ | with_reducible refine (State.updCore_mem _ _ _).trans ?_ | dsimp only | split)

theorem State.plain_mem (s : State) (i : Instr) (go : Eff → State → State) (hgo : ∀ x0 x1, (go x0 x1).mem = x1.mem) : (State.plain s i go).mem = s.mem := by
  unfold State.plain
  repeat' (first | with_reducible rfl | intro _ | with_reducible refine (foldl_mem _ _ _ ?_).trans ?_ | with_reducible refine (State.warn_mem _ _).trans ?_ | with_reducible refine (hgo _ _).trans ?_ | dsimp only | split)

theorem State.only_mem (s : State) (i : Instr) : (State.only s i).mem = s.mem := by
  unfold State.only
  repeat' (first | with_reducible rfl | intro _ | with_reducible refine (foldl_mem _ _ _ ?_).trans ?_ | with_reducible refine (State.complete_mem _ _ _ _).trans ?_ | with_reducible refine (State.plain_mem _ _ _ ?_).trans ?_ | dsimp only | split)

theorem State.jump_mem (s : State) (target : Nat → Fibre → W64) : (State.jump s target).mem = s.mem := by
  unfold State.jump
  repeat' (first | with_reducible rfl | intro _ | with_reducible refine (foldl_mem _ _ _ ?_).trans ?_ | with_reducible refine (State.mapLanes_mem _ _ _ _).trans ?_ | with_reducible refine (State.wait_mem _ _ _).trans ?_ | dsimp only | split)

theorem State.checkTarget_mem (s : State) (f : BitVec 3) (a : BitVec 7) (go : State → State) (hgo : ∀ x0, (go x0).mem = x0.mem) : (State.checkTarget s f a go).mem = s.mem := by
  unfold State.checkTarget
  repeat' (first | with_reducible rfl | intro _ | with_reducible refine (foldl_mem _ _ _ ?_).trans ?_ | with_reducible refine (State.control_mem _ _ _ _ ?_).trans ?_ | with_reducible refine (State.precise_mem _ _ _ _ _ _ _).trans ?_ | with_reducible refine (hgo _).trans ?_ | dsimp only | split)

theorem State.call_mem (s : State) (target : Nat → W64) (last : State → State) (hlast : ∀ x0, (last x0).mem = x0.mem) : (State.call s target last).mem = s.mem := by
  unfold State.call
  repeat' (first | with_reducible rfl | intro _ | with_reducible refine (foldl_mem _ _ _ ?_).trans ?_ | with_reducible refine (State.fillTlb_mem _ _ _ _).trans ?_ | with_reducible refine (State.forget_mem _ _ _).trans ?_ | with_reducible refine (State.mapLanes_mem _ _ _ _).trans ?_ | with_reducible refine (State.precise_mem _ _ _ _ _ _ _).trans ?_ | with_reducible refine (State.pushStore_mem _ _ _).trans ?_ | with_reducible refine (State.sample_mem _ _ _ _).trans ?_ | with_reducible refine (State.wait_mem _ _ _).trans ?_ | with_reducible refine (State.waitReplay_mem _ _ _ _).trans ?_ | with_reducible refine (State.walkPoison_mem _ _ _ _ _).trans ?_ | with_reducible refine (hlast _).trans ?_ | dsimp only | split)

theorem State.releaseJunction_mem (s : State) (g : Nat) (pc : W64) : (State.releaseJunction s g pc).mem = s.mem := by
  unfold State.releaseJunction
  repeat' (first | with_reducible rfl | intro _ | with_reducible refine (foldl_mem _ _ _ ?_).trans ?_ | with_reducible refine (State.mapLanes_mem _ _ _ _).trans ?_ | dsimp only | split)

theorem State.illegalHere_mem (s : State) (info : Nat) : (State.illegalHere s info).mem = s.mem := by
  unfold State.illegalHere
  repeat' (first | with_reducible rfl | intro _ | with_reducible refine (foldl_mem _ _ _ ?_).trans ?_ | with_reducible refine (State.precise_mem _ _ _ _ _ _ _).trans ?_ | dsimp only | split)

theorem State.copyHolders_mem (s : State) (core g uid new : Nat) : (State.copyHolders s core g uid new).mem = s.mem := by
  unfold State.copyHolders
  repeat' (first | with_reducible rfl | intro _ | with_reducible refine (foldl_mem _ _ _ ?_).trans ?_ | with_reducible refine (State.updCore_mem _ _ _).trans ?_ | dsimp only | split)

theorem State.forkOne_mem (s : State) (f : BitVec 3) (d a b : BitVec 7) (x : Group) (lane : Nat) : (State.forkOne s f d a b x lane).mem = s.mem := by
  unfold State.forkOne
  repeat' (first | with_reducible rfl | intro _ | with_reducible refine (foldl_mem _ _ _ ?_).trans ?_ | with_reducible refine (State.copyHolders_mem _ _ _ _ _).trans ?_ | with_reducible refine (State.releaseHolders_mem _ _ _ _ _).trans ?_ | with_reducible refine (State.updFibre_mem _ _ _ _).trans ?_ | with_reducible refine (State.updGroup_mem _ _ _).trans ?_ | dsimp only | split)

theorem State.zeroMasked_mem (s : State) (e : Eff) (act : List Nat) (d : Dst) (old : Group) : (State.zeroMasked s e act d old).mem = s.mem := by
  unfold State.zeroMasked
  repeat' (first | with_reducible rfl | intro _ | with_reducible refine (foldl_mem _ _ _ ?_).trans ?_ | with_reducible refine (State.mapLanes_mem _ _ _ _).trans ?_ | with_reducible refine (State.releaseHolders_mem _ _ _ _ _).trans ?_ | dsimp only | split)

theorem State.window_mem (s : State) (e : Eff) (base : Fibre → Int) (req : Fibre → W64) : (State.window s e base req).mem = s.mem := by
  unfold State.window
  repeat' (first | with_reducible rfl | intro _ | with_reducible refine (foldl_mem _ _ _ ?_).trans ?_ | with_reducible refine (State.complete_mem _ _ _ _).trans ?_ | with_reducible refine (State.mapLanes_mem _ _ _ _).trans ?_ | with_reducible refine (State.precise_mem _ _ _ _ _ _ _).trans ?_ | dsimp only | split)

theorem State.setDest_mem (s : State) (d : Dst) (v : Nat → Fibre → Val) : (State.setDest s d v).mem = s.mem := by
  unfold State.setDest
  repeat' (first | with_reducible rfl | intro _ | with_reducible refine (foldl_mem _ _ _ ?_).trans ?_ | with_reducible refine (State.mapLanes_mem _ _ _ _).trans ?_ | with_reducible refine (State.releaseHolders_mem _ _ _ _ _).trans ?_ | dsimp only | split)

theorem State.writeSys_mem (s : State) (n lane : Nat) (v : W64) : (State.writeSys s n lane v).mem = s.mem := by
  unfold State.writeSys
  repeat' (first | with_reducible rfl | intro _ | with_reducible refine (foldl_mem _ _ _ ?_).trans ?_ | with_reducible refine (State.releaseHolders_mem _ _ _ _ _).trans ?_ | with_reducible refine (State.updFibre_mem _ _ _ _).trans ?_ | with_reducible refine (State.updGroup_mem _ _ _).trans ?_ | dsimp only | split)

theorem State.swr_mem (s : State) (i : Instr) (m : Mods) (a n : BitVec 7) (f : W64 → W64 → W64) : (State.swr s i m a n f).mem = s.mem := by
  unfold State.swr
  repeat' (first | with_reducible rfl | intro _ | with_reducible refine (foldl_mem _ _ _ ?_).trans ?_ | with_reducible refine (State.complete_mem _ _ _ _).trans ?_ | with_reducible refine (State.control_mem _ _ _ _ ?_).trans ?_ | with_reducible refine (State.illegalHere_mem _ _).trans ?_ | with_reducible refine (State.plain_mem _ _ _ ?_).trans ?_ | with_reducible refine (State.precise_mem _ _ _ _ _ _ _).trans ?_ | with_reducible refine (State.writeSys_mem _ _ _ _).trans ?_ | dsimp only | split)

theorem State.retireResult_mem (s : State) (core id : Nat) : (State.retireResult s core id).mem = s.mem := by
  unfold State.retireResult
  repeat' (first | with_reducible rfl | intro _ | with_reducible refine (foldl_mem _ _ _ ?_).trans ?_ | with_reducible refine (State.fault_mem _ _ _ _ _).trans ?_ | with_reducible refine (State.updCore_mem _ _ _).trans ?_ | with_reducible refine (State.updFibre_mem _ _ _ _).trans ?_ | with_reducible refine (State.updGroup_mem _ _ _).trans ?_ | dsimp only | split)

theorem State.freezeTiles_mem (s : State) (ctx core : Nat) : (State.freezeTiles s ctx core).mem = s.mem := by
  unfold State.freezeTiles
  repeat' (first | with_reducible rfl | intro _ | with_reducible refine (foldl_mem _ _ _ ?_).trans ?_ | dsimp only | split)

theorem State.updLoad_mem (s : State) (core id : Nat) (f : Load → Load) : (State.updLoad s core id f).mem = s.mem := by
  unfold State.updLoad
  repeat' (first | with_reducible rfl | intro _ | with_reducible refine (foldl_mem _ _ _ ?_).trans ?_ | with_reducible refine (State.updCore_mem _ _ _).trans ?_ | dsimp only | split)

theorem State.updLane_mem (s : State) (core id lane : Nat) (f : LaneLoad → LaneLoad) : (State.updLane s core id lane f).mem = s.mem := by
  unfold State.updLane
  repeat' (first | with_reducible rfl | intro _ | with_reducible refine (foldl_mem _ _ _ ?_).trans ?_ | with_reducible refine (State.updLoad_mem _ _ _ _).trans ?_ | dsimp only | split)

theorem State.landReg_mem (s : State) (g lane uid : Nat) (r : Option Reg) (form : LoadForm) (v : Val) : (State.landReg s g lane uid r form v).mem = s.mem := by
  unfold State.landReg
  repeat' (first | with_reducible rfl | intro _ | with_reducible refine (foldl_mem _ _ _ ?_).trans ?_ | with_reducible refine (State.releaseHolders_mem _ _ _ _ _).trans ?_ | with_reducible refine (State.updFibre_mem _ _ _ _).trans ?_ | dsimp only | split)

theorem State.updateGuess_mem (s : State) (core : Nat) (l : Load) : (State.updateGuess s core l).mem = s.mem := by
  unfold State.updateGuess
  repeat' (first | with_reducible rfl | intro _ | with_reducible refine (foldl_mem _ _ _ ?_).trans ?_ | with_reducible refine (State.updCore_mem _ _ _).trans ?_ | dsimp only | split)

theorem State.settleLoad_mem (s : State) (core id : Nat) (was : Bool) : (State.settleLoad s core id was).mem = s.mem := by
  unfold State.settleLoad
  repeat' (first | with_reducible rfl | intro _ | with_reducible refine (foldl_mem _ _ _ ?_).trans ?_ | with_reducible refine (State.updCore_mem _ _ _).trans ?_ | with_reducible refine (State.updGroup_mem _ _ _).trans ?_ | with_reducible refine (State.updLoad_mem _ _ _ _).trans ?_ | with_reducible refine (State.updateGuess_mem _ _ _).trans ?_ | dsimp only | split)

theorem State.takeTicket_mem (s : State) (core id : Nat) (l : Load) (lane : Nat) (e : LaneLoad) : (State.takeTicket s core id l lane e).mem = s.mem := by
  unfold State.takeTicket
  repeat' (first | with_reducible rfl | intro _ | with_reducible refine (foldl_mem _ _ _ ?_).trans ?_ | with_reducible refine (State.landReg_mem _ _ _ _ _ _ _).trans ?_ | with_reducible refine (State.updCore_mem _ _ _).trans ?_ | with_reducible refine (State.updLane_mem _ _ _ _ _).trans ?_ | dsimp only | split)

theorem State.expire_mem (s : State) (core id limit : Nat) : (State.expire s core id limit).mem = s.mem := by
  unfold State.expire
  repeat' (first | with_reducible rfl | intro _ | with_reducible refine (foldl_mem _ _ _ ?_).trans ?_ | with_reducible refine (State.landReg_mem _ _ _ _ _ _ _).trans ?_ | with_reducible refine (State.settleLoad_mem _ _ _ _).trans ?_ | with_reducible refine (State.takeTicket_mem _ _ _ _ _ _).trans ?_ | with_reducible refine (State.updLane_mem _ _ _ _ _).trans ?_ | dsimp only | split)

theorem State.truthFor_mem (s : State) (core ticket v : Nat) (p : Bool) : (State.truthFor s core ticket v p).mem = s.mem := by
  unfold State.truthFor
  repeat' (first | with_reducible rfl | intro _ | with_reducible refine (foldl_mem _ _ _ ?_).trans ?_ | with_reducible refine (State.mapLanes_mem _ _ _ _).trans ?_ | with_reducible refine (State.updCore_mem _ _ _).trans ?_ | dsimp only | split)

theorem State.unhookAfter_mem (s : State) (core g uid seq : Nat) : (State.unhookAfter s core g uid seq).mem = s.mem := by
  unfold State.unhookAfter
  repeat' (first | with_reducible rfl | intro _ | with_reducible refine (foldl_mem _ _ _ ?_).trans ?_ | with_reducible refine (State.updCore_mem _ _ _).trans ?_ | dsimp only | split)

theorem State.deliver_mem (s : State) (core id lane v : Nat) (p : Bool) : (State.deliver s core id lane v p).mem = s.mem := by
  unfold State.deliver
  repeat' (first | with_reducible rfl | intro _ | with_reducible refine (foldl_mem _ _ _ ?_).trans ?_ | with_reducible refine (State.acquireL1_mem _ _ _ _).trans ?_ | with_reducible refine (State.expire_mem _ _ _ _).trans ?_ | with_reducible refine (State.landReg_mem _ _ _ _ _ _ _).trans ?_ | with_reducible refine (State.settleGm_mem _ _).trans ?_ | with_reducible refine (State.settleLoad_mem _ _ _ _).trans ?_ | with_reducible refine (State.truthFor_mem _ _ _ _ _).trans ?_ | with_reducible refine (State.unhookAfter_mem _ _ _ _ _).trans ?_ | with_reducible refine (State.updLane_mem _ _ _ _ _).trans ?_ | dsimp only | split)

theorem State.unhook_mem (s : State) (core la uid : Nat) : (State.unhook s core la uid).mem = s.mem := by
  unfold State.unhook
  repeat' (first | with_reducible rfl | intro _ | with_reducible refine (foldl_mem _ _ _ ?_).trans ?_ | with_reducible refine (State.updCore_mem _ _ _).trans ?_ | dsimp only | split)

theorem State.memFault_mem (s : State) (ctx eng info lane sub : Nat) (va : W64) : (State.memFault s ctx eng info lane sub va).mem = s.mem := by
  unfold State.memFault
  repeat' (first | with_reducible rfl | intro _ | with_reducible refine (foldl_mem _ _ _ ?_).trans ?_ | with_reducible refine (State.forget_mem _ _ _).trans ?_ | with_reducible refine (State.precise_mem _ _ _ _ _ _ _).trans ?_ | dsimp only | split)

theorem State.askFills_mem (s : State) (core id : Nat) : (State.askFills s core id).mem = s.mem := by
  unfold State.askFills
  repeat' (first | with_reducible rfl | intro _ | with_reducible refine (foldl_mem _ _ _ ?_).trans ?_ | with_reducible refine (State.install_mem _ _ _ _ _ _).trans ?_ | with_reducible refine (State.sample_mem _ _ _ _).trans ?_ | with_reducible refine (State.updCore_mem _ _ _).trans ?_ | with_reducible refine (State.updLane_mem _ _ _ _ _).trans ?_ | dsimp only | split)

theorem State.maskedOff_mem (s : State) (e : Eff) (act : List Nat) (d : Dst) (old : Group) : (State.maskedOff s e act d old).mem = s.mem := by
  unfold State.maskedOff
  repeat' (first | with_reducible rfl | intro _ | with_reducible refine (foldl_mem _ _ _ ?_).trans ?_ | with_reducible refine (State.mapLanes_mem _ _ _ _).trans ?_ | with_reducible refine (State.zeroMasked_mem _ _ _ _ _).trans ?_ | dsimp only | split)

theorem State.sendLoad_mem (s : State) (z : LoadIns) (e : Eff) (x : Group) (act : List Nat) (pas : List (Nat × Nat × Page)) (addr : Nat → Val) : (State.sendLoad s z e x act pas addr).mem = s.mem := by
  unfold State.sendLoad
  repeat' (first | with_reducible rfl | intro _ | with_reducible refine (foldl_mem _ _ _ ?_).trans ?_ | with_reducible refine (State.askFills_mem _ _ _).trans ?_ | with_reducible refine (State.landReg_mem _ _ _ _ _ _ _).trans ?_ | with_reducible refine (State.mapLanes_mem _ _ _ _).trans ?_ | with_reducible refine (State.settleLoad_mem _ _ _ _).trans ?_ | with_reducible refine (State.updCore_mem _ _ _).trans ?_ | with_reducible refine (State.updGroup_mem _ _ _).trans ?_ | with_reducible refine (State.updLane_mem _ _ _ _ _).trans ?_ | dsimp only | split)

theorem State.load_mem (s : State) (z : LoadIns) : (State.load s z).mem = s.mem := by
  unfold State.load
  repeat' (first | with_reducible rfl | intro _ | with_reducible refine (foldl_mem _ _ _ ?_).trans ?_ | with_reducible refine (State.complete_mem _ _ _ _).trans ?_ | with_reducible refine (State.fillTlb_mem _ _ _ _).trans ?_ | with_reducible refine (State.maskedOff_mem _ _ _ _ _).trans ?_ | with_reducible refine (State.memFault_mem _ _ _ _ _ _ _).trans ?_ | with_reducible refine (State.plain_mem _ _ _ ?_).trans ?_ | with_reducible refine (State.precise_mem _ _ _ _ _ _ _).trans ?_ | with_reducible refine (State.sendLoad_mem _ _ _ _ _ _ _).trans ?_ | with_reducible refine (State.suspend_mem _ _ _ _ _ _ _ _).trans ?_ | with_reducible refine (State.walkPoison_mem _ _ _ _ _).trans ?_ | with_reducible refine (State.warn_mem _ _).trans ?_ | dsimp only | split)

theorem State.consume_mem (s : State) (core la id lane : Nat) (line : L1Line) : (State.consume s core la id lane line).mem = s.mem := by
  unfold State.consume
  repeat' (first | with_reducible rfl | intro _ | with_reducible refine (foldl_mem _ _ _ ?_).trans ?_ | with_reducible refine (State.deliver_mem _ _ _ _ _ _).trans ?_ | with_reducible refine (State.updLane_mem _ _ _ _ _).trans ?_ | dsimp only | split)

theorem State.accept_mem (s : State) (g uid : Nat) (regs : List Reg) : (State.accept s g uid regs).mem = s.mem := by
  unfold State.accept
  repeat' (first | with_reducible rfl | intro _ | with_reducible refine (foldl_mem _ _ _ ?_).trans ?_ | with_reducible refine (State.updCore_mem _ _ _).trans ?_ | dsimp only | split)

theorem State.testTags_mem (s : State) (i : Instr) (d a b : BitVec 7) (f : Val → Bool) : (State.testTags s i d a b f).mem = s.mem := by
  unfold State.testTags
  repeat' (first | with_reducible rfl | intro _ | with_reducible refine (foldl_mem _ _ _ ?_).trans ?_ | with_reducible refine (State.complete_mem _ _ _ _).trans ?_ | with_reducible refine (State.mapLanes_mem _ _ _ _).trans ?_ | with_reducible refine (State.plain_mem _ _ _ ?_).trans ?_ | dsimp only | split)

theorem State.demand_mem (s : State) (e : Eff) (a sel : BitVec 7) (blocks : Bool) (finish : List Nat → State → State) (hfinish : ∀ x0 x1, (finish x0 x1).mem = x1.mem) : (State.demand s e a sel blocks finish).mem = s.mem := by
  unfold State.demand
  repeat' (first | with_reducible rfl | intro _ | with_reducible refine (foldl_mem _ _ _ ?_).trans ?_ | with_reducible refine (State.narrow_mem _ _).trans ?_ | with_reducible refine (State.wait_mem _ _ _).trans ?_ | with_reducible refine (hfinish _ _).trans ?_ | dsimp only | split)

theorem State.finishLanes_mem (s : State) (lanes : List Nat) : (State.finishLanes s lanes).mem = s.mem := by
  unfold State.finishLanes
  repeat' (first | with_reducible rfl | intro _ | with_reducible refine (foldl_mem _ _ _ ?_).trans ?_ | with_reducible refine (State.advance_mem _ _).trans ?_ | with_reducible refine (State.settleGm_mem _ _).trans ?_ | dsimp only | split)

theorem State.writeTruth_mem (s : State) (lane : Nat) (regs : List Reg) : (State.writeTruth s lane regs).mem = s.mem := by
  unfold State.writeTruth
  repeat' (first | with_reducible rfl | intro _ | with_reducible refine (foldl_mem _ _ _ ?_).trans ?_ | with_reducible refine (State.accept_mem _ _ _ _).trans ?_ | with_reducible refine (State.mapLanes_mem _ _ _ _).trans ?_ | dsimp only | split)

theorem State.check_mem (s : State) (cause sub info eng : Nat) (lanes : List Nat) (go : State → State) (hgo : ∀ x0, (go x0).mem = x0.mem) : (State.check s cause sub info eng lanes go).mem = s.mem := by
  unfold State.check
  repeat' (first | with_reducible rfl | intro _ | with_reducible refine (foldl_mem _ _ _ ?_).trans ?_ | with_reducible refine (State.precise_mem _ _ _ _ _ _ _).trans ?_ | with_reducible refine (hgo _).trans ?_ | dsimp only | split)

theorem State.storeChecks_mem (s : State) (z : StoreIns) (e : Eff) (go : List (Nat × Nat × Option Page) → State → State) (hgo : ∀ x0 x1, (go x0 x1).mem = x1.mem) : (State.storeChecks s z e go).mem = s.mem := by
  unfold State.storeChecks
  repeat' (first | with_reducible rfl | intro _ | with_reducible refine (foldl_mem _ _ _ ?_).trans ?_ | with_reducible refine (State.check_mem _ _ _ _ _ _ _ ?_).trans ?_ | with_reducible refine (State.control_mem _ _ _ _ ?_).trans ?_ | with_reducible refine (State.fillTlb_mem _ _ _ _).trans ?_ | with_reducible refine (State.memFault_mem _ _ _ _ _ _ _).trans ?_ | with_reducible refine (State.suspend_mem _ _ _ _ _ _ _ _).trans ?_ | with_reducible refine (State.walkPoison_mem _ _ _ _ _).trans ?_ | with_reducible refine (hgo _ _).trans ?_ | dsimp only | split)

theorem State.sendStores_mem (s : State) (z : StoreIns) (need : Nat) (x : Group) (lanes : List (Nat × Nat × Option Page)) : (State.sendStores s z need x lanes).mem = s.mem := by
  unfold State.sendStores
  repeat' (first | with_reducible rfl | intro _ | with_reducible refine (foldl_mem _ _ _ ?_).trans ?_ | with_reducible refine (State.pushStore_mem _ _ _).trans ?_ | with_reducible refine (State.sample_mem _ _ _ _).trans ?_ | with_reducible refine (State.updGroup_mem _ _ _).trans ?_ | dsimp only | split)

theorem State.store_mem (s : State) (z : StoreIns) : (State.store s z).mem = s.mem := by
  unfold State.store
  repeat' (first | with_reducible rfl | intro _ | with_reducible refine (foldl_mem _ _ _ ?_).trans ?_ | with_reducible refine (State.complete_mem _ _ _ _).trans ?_ | with_reducible refine (State.plain_mem _ _ _ ?_).trans ?_ | with_reducible refine (State.sendStores_mem _ _ _ _ _).trans ?_ | with_reducible refine (State.storeChecks_mem _ _ _ _ ?_).trans ?_ | with_reducible refine (State.warn_mem _ _).trans ?_ | dsimp only | split)

theorem State.scratchWrite_mem (s : State) (core ctx off : Nat) (data : List Byte) (poison : Bool) : (State.scratchWrite s core ctx off data poison).mem = s.mem := by
  unfold State.scratchWrite
  repeat' (first | with_reducible rfl | intro _ | with_reducible refine (foldl_mem _ _ _ ?_).trans ?_ | with_reducible refine (State.updCore_mem _ _ _).trans ?_ | dsimp only | split)

theorem State.dropHost_mem (s : State) (a n : Nat) : (State.dropHost s a n).mem = s.mem := by
  unfold State.dropHost
  repeat' (first | with_reducible rfl | intro _ | with_reducible refine (foldl_mem _ _ _ ?_).trans ?_ | with_reducible refine (State.keep_mem _ _ _ _).trans ?_ | dsimp only | split)

theorem State.settleStore_mem (s : State) (core op g : Nat) : (State.settleStore s core op g).mem = s.mem := by
  unfold State.settleStore
  repeat' (first | with_reducible rfl | intro _ | with_reducible refine (foldl_mem _ _ _ ?_).trans ?_ | with_reducible refine (State.updGroup_mem _ _ _).trans ?_ | dsimp only | split)

theorem State.raiseStore_mem (s : State) (core id : Nat) (t : Store) (level : Nat) : (State.raiseStore s core id t level).mem = s.mem := by
  unfold State.raiseStore
  repeat' (first | with_reducible rfl | intro _ | with_reducible refine (foldl_mem _ _ _ ?_).trans ?_ | with_reducible refine (State.settleStore_mem _ _ _ _).trans ?_ | with_reducible refine (State.updCore_mem _ _ _).trans ?_ | dsimp only | split)

theorem State.endStore_mem (s : State) (core id : Nat) (t : Store) : (State.endStore s core id t).mem = s.mem := by
  unfold State.endStore
  repeat' (first | with_reducible rfl | intro _ | with_reducible refine (foldl_mem _ _ _ ?_).trans ?_ | with_reducible refine (State.settleStore_mem _ _ _ _).trans ?_ | with_reducible refine (State.updCore_mem _ _ _).trans ?_ | dsimp only | split)

theorem State.baseChecks_mem (s : State) (act : List Nat) (addr : Nat → Val) (go : State → State) (hgo : ∀ x0, (go x0).mem = x0.mem) : (State.baseChecks s act addr go).mem = s.mem := by
  unfold State.baseChecks
  repeat' (first | with_reducible rfl | intro _ | with_reducible refine (foldl_mem _ _ _ ?_).trans ?_ | with_reducible refine (State.precise_mem _ _ _ _ _ _ _).trans ?_ | with_reducible refine (hgo _).trans ?_ | dsimp only | split)

theorem State.sendAtomic_mem (s : State) (z : AtomicIns) (x : Group) (pas : List (Nat × Nat × Page)) (va : Nat → W64) : (State.sendAtomic s z x pas va).mem = s.mem := by
  unfold State.sendAtomic
  repeat' (first | with_reducible rfl | intro _ | with_reducible refine (foldl_mem _ _ _ ?_).trans ?_ | with_reducible refine (State.mapLanes_mem _ _ _ _).trans ?_ | with_reducible refine (State.sample_mem _ _ _ _).trans ?_ | with_reducible refine (State.updCore_mem _ _ _).trans ?_ | with_reducible refine (State.updGroup_mem _ _ _).trans ?_ | dsimp only | split)

theorem State.atomic_mem (s : State) (z : AtomicIns) : (State.atomic s z).mem = s.mem := by
  unfold State.atomic
  repeat' (first | with_reducible rfl | intro _ | with_reducible refine (foldl_mem _ _ _ ?_).trans ?_ | with_reducible refine (State.complete_mem _ _ _ _).trans ?_ | with_reducible refine (State.control_mem _ _ _ _ ?_).trans ?_ | with_reducible refine (State.fillTlb_mem _ _ _ _).trans ?_ | with_reducible refine (State.memFault_mem _ _ _ _ _ _ _).trans ?_ | with_reducible refine (State.plain_mem _ _ _ ?_).trans ?_ | with_reducible refine (State.precise_mem _ _ _ _ _ _ _).trans ?_ | with_reducible refine (State.sendAtomic_mem _ _ _ _ _).trans ?_ | with_reducible refine (State.suspend_mem _ _ _ _ _ _ _ _).trans ?_ | with_reducible refine (State.walkPoison_mem _ _ _ _ _).trans ?_ | with_reducible refine (State.warn_mem _ _).trans ?_ | with_reducible refine (State.zeroMasked_mem _ _ _ _ _).trans ?_ | dsimp only | split)

theorem State.updAtomic_mem (s : State) (core id : Nat) (f : Atomic → Atomic) : (State.updAtomic s core id f).mem = s.mem := by
  unfold State.updAtomic
  repeat' (first | with_reducible rfl | intro _ | with_reducible refine (foldl_mem _ _ _ ?_).trans ?_ | with_reducible refine (State.updCore_mem _ _ _).trans ?_ | dsimp only | split)

theorem State.countAtomic_mem (s : State) (a : Atomic) : (State.countAtomic s a).mem = s.mem := by
  unfold State.countAtomic
  repeat' (first | with_reducible rfl | intro _ | with_reducible refine (foldl_mem _ _ _ ?_).trans ?_ | with_reducible refine (State.updGroup_mem _ _ _).trans ?_ | dsimp only | split)

theorem State.endAtomic_mem (s : State) (core id : Nat) : (State.endAtomic s core id).mem = s.mem := by
  unfold State.endAtomic
  repeat' (first | with_reducible rfl | intro _ | with_reducible refine (foldl_mem _ _ _ ?_).trans ?_ | with_reducible refine (State.countAtomic_mem _ _).trans ?_ | with_reducible refine (State.deferred_mem _ _ _ _ _ _ _ _ _).trans ?_ | with_reducible refine (State.updCore_mem _ _ _).trans ?_ | dsimp only | split)

theorem State.unlock_mem (s : State) (g lane uid : Nat) (regs : List Reg) : (State.unlock s g lane uid regs).mem = s.mem := by
  unfold State.unlock
  repeat' (first | with_reducible rfl | intro _ | with_reducible refine (foldl_mem _ _ _ ?_).trans ?_ | with_reducible refine (State.updFibre_mem _ _ _ _).trans ?_ | dsimp only | split)

theorem State.acceptLane_mem (s : State) (core id lane : Nat) (a : Atomic) : (State.acceptLane s core id lane a).mem = s.mem := by
  unfold State.acceptLane
  repeat' (first | with_reducible rfl | intro _ | with_reducible refine (foldl_mem _ _ _ ?_).trans ?_ | with_reducible refine (State.countAtomic_mem _ _).trans ?_ | with_reducible refine (State.updAtomic_mem _ _ _ _).trans ?_ | dsimp only | split)

theorem State.updSlot_mem (s : State) (id : Nat) (f : Slot → Slot) : (State.updSlot s id f).mem = s.mem := by
  unfold State.updSlot
  repeat' (first | with_reducible rfl | intro _ | with_reducible refine (foldl_mem _ _ _ ?_).trans ?_ | dsimp only | split)

theorem State.unbind_mem (s : State) (v : Slot) : (State.unbind s v).mem = s.mem := by
  unfold State.unbind
  repeat' (first | with_reducible rfl | intro _ | with_reducible refine (foldl_mem _ _ _ ?_).trans ?_ | with_reducible refine (State.updDie_mem _ _ _).trans ?_ | dsimp only | split)

theorem State.reapSlots_mem (s : State) : (State.reapSlots s).mem = s.mem := by
  unfold State.reapSlots
  repeat' (first | with_reducible rfl | intro _ | with_reducible refine (foldl_mem _ _ _ ?_).trans ?_ | with_reducible refine (State.unbind_mem _ _).trans ?_ | dsimp only | split)

theorem State.takeBack_mem (s : State) (new : Nat) : (State.takeBack s new).mem = s.mem := by
  unfold State.takeBack
  repeat' (first | with_reducible rfl | intro _ | with_reducible refine (foldl_mem _ _ _ ?_).trans ?_ | dsimp only | split)

theorem State.arriving_mem (s : State) (bar : Bar) (d : Nat) : (State.arriving s bar d).mem = s.mem := by
  unfold State.arriving
  repeat' (first | with_reducible rfl | intro _ | with_reducible refine (foldl_mem _ _ _ ?_).trans ?_ | with_reducible refine (State.wait_mem _ _ _).trans ?_ | dsimp only | split)

theorem State.releaseCore_mem (s : State) (grid core : Nat) : (State.releaseCore s grid core).mem = s.mem := by
  unfold State.releaseCore
  repeat' (first | with_reducible rfl | intro _ | with_reducible refine (foldl_mem _ _ _ ?_).trans ?_ | with_reducible refine (State.acquireL1_mem _ _ _ _).trans ?_ | with_reducible refine (State.mapLanes_mem _ _ _ _).trans ?_ | with_reducible refine (State.wait_mem _ _ _).trans ?_ | dsimp only | split)

theorem State.lease_mem (s : State) (e : Eff) (d : BitVec 7) (v : Option Nat) : (State.lease s e d v).mem = s.mem := by
  unfold State.lease
  repeat' (first | with_reducible rfl | intro _ | with_reducible refine (foldl_mem _ _ _ ?_).trans ?_ | with_reducible refine (State.complete_mem _ _ _ _).trans ?_ | with_reducible refine (State.setDest_mem _ _ _).trans ?_ | with_reducible refine (State.updGroup_mem _ _ _).trans ?_ | dsimp only | split)

theorem State.readTail_mem (s : State) (vf q : Nat) : (State.readTail s vf q).mem = s.mem := by
  unfold State.readTail
  repeat' (first | with_reducible rfl | intro _ | with_reducible refine (foldl_mem _ _ _ ?_).trans ?_ | with_reducible refine (State.report_mem _ _ _ _ _).trans ?_ | dsimp only | split)

theorem State.released_mem (s : State) (level : Nat) (lanes : List Nat) (go : State → State) (hgo : ∀ x0, (go x0).mem = x0.mem) : (State.released s level lanes go).mem = s.mem := by
  unfold State.released
  repeat' (first | with_reducible rfl | intro _ | with_reducible refine (foldl_mem _ _ _ ?_).trans ?_ | with_reducible refine (State.mapLanes_mem _ _ _ _).trans ?_ | with_reducible refine (State.wait_mem _ _ _).trans ?_ | with_reducible refine (hgo _).trans ?_ | dsimp only | split)

theorem State.newGroup_mem (s : State) (grid : Nat) (team index core track : Nat) : (State.newGroup s grid team index core track).mem = s.mem := by
  unfold State.newGroup
  repeat' (first | with_reducible rfl | intro _ | with_reducible refine (foldl_mem _ _ _ ?_).trans ?_ | with_reducible refine (State.lease_mem _ _ _ _).trans ?_ | with_reducible refine (State.updCore_mem _ _ _).trans ?_ | dsimp only | split)

theorem State.claimRows_mem (s : State) (core track g : Nat) : (State.claimRows s core track g).mem = s.mem := by
  unfold State.claimRows
  repeat' (first | with_reducible rfl | intro _ | with_reducible refine (foldl_mem _ _ _ ?_).trans ?_ | with_reducible refine (State.updGroup_mem _ _ _).trans ?_ | dsimp only | split)

theorem State.recallRows_mem (s : State) (g : Nat) : (State.recallRows s g).mem = s.mem := by
  unfold State.recallRows
  repeat' (first | with_reducible rfl | intro _ | with_reducible refine (foldl_mem _ _ _ ?_).trans ?_ | with_reducible refine (State.claimRows_mem _ _ _ _).trans ?_ | with_reducible refine (State.updGroup_mem _ _ _).trans ?_ | dsimp only | split)

theorem State.removeGroup_mem (s : State) (g : Nat) : (State.removeGroup s g).mem = s.mem := by
  unfold State.removeGroup
  repeat' (first | with_reducible rfl | intro _ | with_reducible refine (foldl_mem _ _ _ ?_).trans ?_ | with_reducible refine (State.keep_mem _ _ _ _).trans ?_ | with_reducible refine (State.updCore_mem _ _ _).trans ?_ | dsimp only | split)

theorem State.removeContext_mem (s : State) (ctx : Nat) : (State.removeContext s ctx).mem = s.mem := by
  unfold State.removeContext
  repeat' (first | with_reducible rfl | intro _ | with_reducible refine (foldl_mem _ _ _ ?_).trans ?_ | with_reducible refine (State.forget_mem _ _ _).trans ?_ | with_reducible refine (State.keep_mem _ _ _ _).trans ?_ | with_reducible refine (State.reapSlots_mem _).trans ?_ | with_reducible refine (State.removeGroup_mem _ _).trans ?_ | dsimp only | split)

theorem State.sendAcquire_mem (s : State) (x : Group) (dst : Dst) (form : LoadForm) (bytes scope : Nat) (victims : List Nat) (pas : List (Nat × Nat × Page)) (va : Nat → W64) : (State.sendAcquire s x dst form bytes scope victims pas va).mem = s.mem := by
  unfold State.sendAcquire
  repeat' (first | with_reducible rfl | intro _ | with_reducible refine (foldl_mem _ _ _ ?_).trans ?_ | with_reducible refine (State.load_mem _ _).trans ?_ | with_reducible refine (State.mapLanes_mem _ _ _ _).trans ?_ | with_reducible refine (State.sample_mem _ _ _ _).trans ?_ | with_reducible refine (State.updCore_mem _ _ _).trans ?_ | with_reducible refine (State.updGroup_mem _ _ _).trans ?_ | dsimp only | split)

theorem State.fence_mem (s : State) (e : Eff) (kind scope : Nat) (range : Fibre → Option (W64 × Nat)) : (State.fence s e kind scope range).mem = s.mem := by
  unfold State.fence
  repeat' (first | with_reducible rfl | intro _ | with_reducible refine (foldl_mem _ _ _ ?_).trans ?_ | with_reducible refine (State.acquireL1_mem _ _ _ _).trans ?_ | with_reducible refine (State.complete_mem _ _ _ _).trans ?_ | with_reducible refine (State.mapLanes_mem _ _ _ _).trans ?_ | with_reducible refine (State.narrow_mem _ _).trans ?_ | with_reducible refine (State.wait_mem _ _ _).trans ?_ | dsimp only | split)

theorem State.cacheOp_mem (s : State) (i : Instr) (load : Bool) (dst : Fibre → List Reg) (b : BitVec 7) (off : W64) (go : Eff → List (Nat × Nat × Page) → State → State) (hgo : ∀ x0 x1 x2, (go x0 x1 x2).mem = x2.mem) : (State.cacheOp s i load dst b off go).mem = s.mem := by
  unfold State.cacheOp
  repeat' (first | with_reducible rfl | intro _ | with_reducible refine (foldl_mem _ _ _ ?_).trans ?_ | with_reducible refine (State.baseChecks_mem _ _ _ _ ?_).trans ?_ | with_reducible refine (State.fillTlb_mem _ _ _ _).trans ?_ | with_reducible refine (State.load_mem _ _).trans ?_ | with_reducible refine (State.memFault_mem _ _ _ _ _ _ _).trans ?_ | with_reducible refine (State.plain_mem _ _ _ ?_).trans ?_ | with_reducible refine (State.suspend_mem _ _ _ _ _ _ _ _).trans ?_ | with_reducible refine (State.walkPoison_mem _ _ _ _ _).trans ?_ | with_reducible refine (hgo _ _ _).trans ?_ | dsimp only | split)

theorem State.writeBacks_mem (s : State) (i : Instr) (b : BitVec 7) (off : W64) (inv : Bool) : (State.writeBacks s i b off inv).mem = s.mem := by
  unfold State.writeBacks
  repeat' (first | with_reducible rfl | intro _ | with_reducible refine (foldl_mem _ _ _ ?_).trans ?_ | with_reducible refine (State.cacheOp_mem _ _ _ _ _ _ _ ?_).trans ?_ | with_reducible refine (State.complete_mem _ _ _ _).trans ?_ | with_reducible refine (State.pushStore_mem _ _ _).trans ?_ | with_reducible refine (State.updGroup_mem _ _ _).trans ?_ | dsimp only | split)

theorem State.controlUnit_mem (s : State) (eng : Nat) (ops : Fibre → List Ctl) (go : State → State) (hgo : ∀ x0, (go x0).mem = x0.mem) : (State.controlUnit s eng ops go).mem = s.mem := by
  unfold State.controlUnit
  repeat' (first | with_reducible rfl | intro _ | with_reducible refine (foldl_mem _ _ _ ?_).trans ?_ | with_reducible refine (State.mapLanes_mem _ _ _ _).trans ?_ | with_reducible refine (State.precise_mem _ _ _ _ _ _ _).trans ?_ | with_reducible refine (State.releaseHolders_mem _ _ _ _ _).trans ?_ | with_reducible refine (State.wait_mem _ _ _).trans ?_ | with_reducible refine (hgo _).trans ?_ | dsimp only | split)

theorem State.copy_mem (s : State) (z : CopyIns) : (State.copy s z).mem = s.mem := by
  unfold State.copy
  repeat' (first | with_reducible rfl | intro _ | with_reducible refine (foldl_mem _ _ _ ?_).trans ?_ | with_reducible refine (State.complete_mem _ _ _ _).trans ?_ | with_reducible refine (State.controlUnit_mem _ _ _ _ ?_).trans ?_ | with_reducible refine (State.plain_mem _ _ _ ?_).trans ?_ | with_reducible refine (State.precise_mem _ _ _ _ _ _ _).trans ?_ | with_reducible refine (State.updCore_mem _ _ _).trans ?_ | with_reducible refine (State.updGroup_mem _ _ _).trans ?_ | dsimp only | split)

theorem State.reportSegs_mem (s : State) (ctx core : Nat) (write : Bool) (l : List Seg) : (State.reportSegs s ctx core write l).mem = s.mem := by
  unfold State.reportSegs
  repeat' (first | with_reducible rfl | intro _ | with_reducible refine (foldl_mem _ _ _ ?_).trans ?_ | with_reducible refine (State.reportReads_mem _ _ _ _).trans ?_ | with_reducible refine (State.reportWrites_mem _ _ _ _).trans ?_ | dsimp only | split)

theorem State.updCopy_mem (s : State) (core id : Nat) (f : Copy → Copy) : (State.updCopy s core id f).mem = s.mem := by
  unfold State.updCopy
  repeat' (first | with_reducible rfl | intro _ | with_reducible refine (foldl_mem _ _ _ ?_).trans ?_ | with_reducible refine (State.updCore_mem _ _ _).trans ?_ | dsimp only | split)

theorem State.setHandle_mem (s : State) (h : Nat) (v : Handle) : (State.setHandle s h v).mem = s.mem := by
  unfold State.setHandle
  repeat' (first | with_reducible rfl | intro _ | with_reducible refine (foldl_mem _ _ _ ?_).trans ?_ | with_reducible refine (State.updGroup_mem _ _ _).trans ?_ | dsimp only | split)

theorem State.handleFault_mem (s : State) (sub : Nat) (c : HandleCheck) : (State.handleFault s sub c).mem = s.mem := by
  unfold State.handleFault
  repeat' (first | with_reducible rfl | intro _ | with_reducible refine (foldl_mem _ _ _ ?_).trans ?_ | with_reducible refine (State.precise_mem _ _ _ _ _ _ _).trans ?_ | dsimp only | split)

theorem State.checkHandles_mem (s : State) (checks : List HandleCheck) (go : State → State) (hgo : ∀ x0, (go x0).mem = x0.mem) : (State.checkHandles s checks go).mem = s.mem := by
  unfold State.checkHandles
  repeat' (first | with_reducible rfl | intro _ | with_reducible refine (foldl_mem _ _ _ ?_).trans ?_ | with_reducible refine (State.handleFault_mem _ _ _).trans ?_ | with_reducible refine (hgo _).trans ?_ | dsimp only | split)

theorem State.sendTile_mem (s : State) (e : Eff) (o : TileOp) (fresh : Option (Bool × Nat)) (written : Fibre → List Reg) : (State.sendTile s e o fresh written).mem = s.mem := by
  unfold State.sendTile
  repeat' (first | with_reducible rfl | intro _ | with_reducible refine (foldl_mem _ _ _ ?_).trans ?_ | with_reducible refine (State.complete_mem _ _ _ _).trans ?_ | with_reducible refine (State.setHandle_mem _ _ _).trans ?_ | with_reducible refine (State.updCore_mem _ _ _).trans ?_ | with_reducible refine (State.updGroup_mem _ _ _).trans ?_ | with_reducible refine (State.wait_mem _ _ _).trans ?_ | dsimp only | split)

theorem State.tileBase_mem (s : State) (b : BitVec 7) (off : W64) (rowBytes : Nat) (write : Bool) (go : W64 → W64 → State → State) (hgo : ∀ x0 x1 x2, (go x0 x1 x2).mem = x2.mem) : (State.tileBase s b off rowBytes write go).mem = s.mem := by
  unfold State.tileBase
  repeat' (first | with_reducible rfl | intro _ | with_reducible refine (foldl_mem _ _ _ ?_).trans ?_ | with_reducible refine (State.precise_mem _ _ _ _ _ _ _).trans ?_ | with_reducible refine (hgo _ _ _).trans ?_ | dsimp only | split)

theorem State.scratchBase_mem (s : State) (b : BitVec 7) (off : W64) (tag : Option Nat) (transposed write : Bool) (go : W64 → State → State) (hgo : ∀ x0 x1, (go x0 x1).mem = x1.mem) : (State.scratchBase s b off tag transposed write go).mem = s.mem := by
  unfold State.scratchBase
  repeat' (first | with_reducible rfl | intro _ | with_reducible refine (foldl_mem _ _ _ ?_).trans ?_ | with_reducible refine (State.precise_mem _ _ _ _ _ _ _).trans ?_ | with_reducible refine (hgo _ _).trans ?_ | dsimp only | split)

theorem State.sendQuarter_mem (s : State) (z : MatrixIns) (old : Group) (id n : Nat) : (State.sendQuarter s z old id n).mem = s.mem := by
  unfold State.sendQuarter
  repeat' (first | with_reducible rfl | intro _ | with_reducible refine (foldl_mem _ _ _ ?_).trans ?_ | with_reducible refine (State.setHandle_mem _ _ _).trans ?_ | with_reducible refine (State.updCore_mem _ _ _).trans ?_ | dsimp only | split)

theorem State.matrix_mem (s : State) (z : MatrixIns) : (State.matrix s z).mem = s.mem := by
  unfold State.matrix
  repeat' (first | with_reducible rfl | intro _ | with_reducible refine (foldl_mem _ _ _ ?_).trans ?_ | with_reducible refine (State.checkHandles_mem _ _ _ ?_).trans ?_ | with_reducible refine (State.complete_mem _ _ _ _).trans ?_ | with_reducible refine (State.plain_mem _ _ _ ?_).trans ?_ | with_reducible refine (State.sendQuarter_mem _ _ _ _ _).trans ?_ | with_reducible refine (State.updCore_mem _ _ _).trans ?_ | with_reducible refine (State.updGroup_mem _ _ _).trans ?_ | with_reducible refine (State.wait_mem _ _ _).trans ?_ | dsimp only | split)

theorem State.endTile_mem (s : State) (core id : Nat) (o : TileOp) : (State.endTile s core id o).mem = s.mem := by
  unfold State.endTile
  repeat' (first | with_reducible rfl | intro _ | with_reducible refine (foldl_mem _ _ _ ?_).trans ?_ | with_reducible refine (State.deferred_mem _ _ _ _ _ _ _ _ _).trans ?_ | with_reducible refine (State.reapSlots_mem _).trans ?_ | with_reducible refine (State.updCore_mem _ _ _).trans ?_ | with_reducible refine (State.updGroup_mem _ _ _).trans ?_ | dsimp only | split)

theorem State.failTile_mem (s : State) (core id : Nat) (o : TileOp) (cause sub info : Nat) (val : W64) : (State.failTile s core id o cause sub info val).mem = s.mem := by
  unfold State.failTile
  repeat' (first | with_reducible rfl | intro _ | with_reducible refine (foldl_mem _ _ _ ?_).trans ?_ | with_reducible refine (State.deferred_mem _ _ _ _ _ _ _ _ _).trans ?_ | with_reducible refine (State.endTile_mem _ _ _ _).trans ?_ | with_reducible refine (State.forget_mem _ _ _).trans ?_ | with_reducible refine (State.takeBack_mem _ _).trans ?_ | dsimp only | split)

theorem State.failRows_mem (s : State) (core id : Nat) (o : TileOp) (cause sub info : Nat) (va : W64) : (State.failRows s core id o cause sub info va).mem = s.mem := by
  unfold State.failRows
  repeat' (first | with_reducible rfl | intro _ | with_reducible refine (foldl_mem _ _ _ ?_).trans ?_ | with_reducible refine (State.failTile_mem _ _ _ _ _ _ _ _).trans ?_ | with_reducible refine (State.reportWalk_mem _ _ _ _).trans ?_ | dsimp only | split)

theorem State.warnGroup_mem (s : State) (g : Nat) (w : W32) : (State.warnGroup s g w).mem = s.mem := by
  unfold State.warnGroup
  repeat' (first | with_reducible rfl | intro _ | with_reducible refine (foldl_mem _ _ _ ?_).trans ?_ | with_reducible refine (State.updGroup_mem _ _ _).trans ?_ | with_reducible refine (State.warn_mem _ _).trans ?_ | dsimp only | split)

theorem State.clearMark_mem (s : State) (core la : Nat) : (State.clearMark s core la).mem = s.mem := by
  unfold State.clearMark
  repeat' (first | with_reducible rfl | intro _ | with_reducible refine (foldl_mem _ _ _ ?_).trans ?_ | with_reducible refine (State.updDie_mem _ _ _).trans ?_ | dsimp only | split)

theorem State.recallTile_mem (s : State) (core ctx : Nat) (offs : List Nat) : (State.recallTile s core ctx offs).mem = s.mem := by
  unfold State.recallTile
  repeat' (first | with_reducible rfl | intro _ | with_reducible refine (foldl_mem _ _ _ ?_).trans ?_ | with_reducible refine (State.recallScratch_mem _ _ _ _ _).trans ?_ | dsimp only | split)

theorem State.updQuarter_mem (s : State) (core id n : Nat) (f : Quarter → Quarter) : (State.updQuarter s core id n f).mem = s.mem := by
  unfold State.updQuarter
  repeat' (first | with_reducible rfl | intro _ | with_reducible refine (foldl_mem _ _ _ ?_).trans ?_ | with_reducible refine (State.updCore_mem _ _ _).trans ?_ | dsimp only | split)

theorem State.thaw_mem (s : State) (ctx id n : Nat) : (State.thaw s ctx id n).mem = s.mem := by
  unfold State.thaw
  repeat' (first | with_reducible rfl | intro _ | with_reducible refine (foldl_mem _ _ _ ?_).trans ?_ | dsimp only | split)

theorem State.dropTlb_mem (s : State) (ctx : Nat) (va : W64) (len : Nat) : (State.dropTlb s ctx va len).mem = s.mem := by
  unfold State.dropTlb
  repeat' (first | with_reducible rfl | intro _ | with_reducible refine (foldl_mem _ _ _ ?_).trans ?_ | dsimp only | split)

theorem State.flipCopies_mem (s : State) (ctx : Nat) (va : W64) (len : Nat) (on : Bool) : (State.flipCopies s ctx va len on).mem = s.mem := by
  unfold State.flipCopies
  repeat' (first | with_reducible rfl | intro _ | with_reducible refine (foldl_mem _ _ _ ?_).trans ?_ | dsimp only | split)

theorem State.answerHost_mem (s : State) (a n : Nat) : (State.answerHost s a n).mem = s.mem := by
  unfold State.answerHost
  repeat' (first | with_reducible rfl | intro _ | with_reducible refine (foldl_mem _ _ _ ?_).trans ?_ | dsimp only | split)

theorem State.reportLine_mem (s : State) (type la : Nat) : (State.reportLine s type la).mem = s.mem := by
  unfold State.reportLine
  repeat' (first | with_reducible rfl | intro _ | with_reducible refine (foldl_mem _ _ _ ?_).trans ?_ | with_reducible refine (State.report_mem _ _ _ _ _).trans ?_ | with_reducible refine (State.reportSupervisor_mem _ _ _ _ _ _).trans ?_ | dsimp only | split)

theorem State.fabric_mem (s : State) (z : FabricIns) (go : Eff → State → State) (hgo : ∀ x0 x1, (go x0 x1).mem = x1.mem) : (State.fabric s z go).mem = s.mem := by
  unfold State.fabric
  repeat' (first | with_reducible rfl | intro _ | with_reducible refine (foldl_mem _ _ _ ?_).trans ?_ | with_reducible refine (State.controlUnit_mem _ _ _ _ ?_).trans ?_ | with_reducible refine (State.plain_mem _ _ _ ?_).trans ?_ | with_reducible refine (State.precise_mem _ _ _ _ _ _ _).trans ?_ | with_reducible refine (hgo _ _).trans ?_ | dsimp only | split)

theorem State.updCall_mem (s : State) (id : Nat) (f : Call → Call) : (State.updCall s id f).mem = s.mem := by
  unfold State.updCall
  repeat' (first | with_reducible rfl | intro _ | with_reducible refine (foldl_mem _ _ _ ?_).trans ?_ | dsimp only | split)

theorem State.sendPut_mem (s : State) (id : Nat) (c : Call) (m : Comm) : (State.sendPut s id c m).mem = s.mem := by
  unfold State.sendPut
  repeat' (first | with_reducible rfl | intro _ | with_reducible refine (foldl_mem _ _ _ ?_).trans ?_ | with_reducible refine (State.updCall_mem _ _ _).trans ?_ | dsimp only | split)

theorem State.joinCall_mem (s : State) (id : Nat) (c : Call) (m : Comm) (others : List (Nat × List Byte)) : (State.joinCall s id c m others).mem = s.mem := by
  unfold State.joinCall
  repeat' (first | with_reducible rfl | intro _ | with_reducible refine (foldl_mem _ _ _ ?_).trans ?_ | with_reducible refine (State.updCall_mem _ _ _).trans ?_ | dsimp only | split)

theorem State.sending_mem (s : State) (target : Nat) (go : State → State) (hgo : ∀ x0, (go x0).mem = x0.mem) : (State.sending s target go).mem = s.mem := by
  unfold State.sending
  repeat' (first | with_reducible rfl | intro _ | with_reducible refine (foldl_mem _ _ _ ?_).trans ?_ | with_reducible refine (State.dropRequests_mem _ _ _).trans ?_ | with_reducible refine (State.send_mem _ _ _ _ _ _ ?_).trans ?_ | with_reducible refine (State.wait_mem _ _ _).trans ?_ | with_reducible refine (hgo _).trans ?_ | dsimp only | split)

theorem State.csig_mem (s : State) (i : Instr) (m : Mods) (d a b : BitVec 7) (add : Bool) : (State.csig s i m d a b add).mem = s.mem := by
  unfold State.csig
  repeat' (first | with_reducible rfl | intro _ | with_reducible refine (foldl_mem _ _ _ ?_).trans ?_ | with_reducible refine (State.complete_mem _ _ _ _).trans ?_ | with_reducible refine (State.fabric_mem _ _ _ ?_).trans ?_ | with_reducible refine (State.sending_mem _ _ _ ?_).trans ?_ | dsimp only | split)

theorem State.answer_mem (s : State) (g : Nat) (dst : List (Nat × Nat × Reg)) (v : Nat) : (State.answer s g dst v).mem = s.mem := by
  unfold State.answer
  repeat' (first | with_reducible rfl | intro _ | with_reducible refine (foldl_mem _ _ _ ?_).trans ?_ | with_reducible refine (State.landReg_mem _ _ _ _ _ _ _).trans ?_ | with_reducible refine (State.settleGm_mem _ _).trans ?_ | dsimp only | split)

theorem State.cwait_mem (s : State) (i : Instr) (d a : BitVec 7) (n : Nat) (ctls : Fibre → List Ctl) (value : Fibre → Option W64) : (State.cwait s i d a n ctls value).mem = s.mem := by
  unfold State.cwait
  repeat' (first | with_reducible rfl | intro _ | with_reducible refine (foldl_mem _ _ _ ?_).trans ?_ | with_reducible refine (State.control_mem _ _ _ _ ?_).trans ?_ | with_reducible refine (State.fillTlb_mem _ _ _ _).trans ?_ | with_reducible refine (State.mapLanes_mem _ _ _ _).trans ?_ | with_reducible refine (State.memFault_mem _ _ _ _ _ _ _).trans ?_ | with_reducible refine (State.plain_mem _ _ _ ?_).trans ?_ | with_reducible refine (State.precise_mem _ _ _ _ _ _ _).trans ?_ | with_reducible refine (State.wait_mem _ _ _).trans ?_ | with_reducible refine (State.waitReplay_mem _ _ _ _).trans ?_ | with_reducible refine (State.walkPoison_mem _ _ _ _ _).trans ?_ | dsimp only | split)

theorem State.endWait_mem (s : State) (g lane core : Nat) (b : Fibre) (d words v : Nat) (last : List Reg) : (State.endWait s g lane core b d words v last).mem = s.mem := by
  unfold State.endWait
  repeat' (first | with_reducible rfl | intro _ | with_reducible refine (foldl_mem _ _ _ ?_).trans ?_ | with_reducible refine (State.acquireL1_mem _ _ _ _).trans ?_ | with_reducible refine (State.releaseHolders_mem _ _ _ _ _).trans ?_ | with_reducible refine (State.settleGm_mem _ _).trans ?_ | with_reducible refine (State.updFibre_mem _ _ _ _).trans ?_ | with_reducible refine (State.wait_mem _ _ _).trans ?_ | dsimp only | split)

theorem State.unasked_mem (s : State) (g lane : Nat) : (State.unasked s g lane).mem = s.mem := by
  unfold State.unasked
  repeat' (first | with_reducible rfl | intro _ | with_reducible refine (foldl_mem _ _ _ ?_).trans ?_ | with_reducible refine (State.updGroup_mem _ _ _).trans ?_ | dsimp only | split)

theorem State.finishStep_mem (s : State) (p : Pending) : (State.finishStep s p).mem = s.mem := by
  unfold State.finishStep
  repeat' (first | with_reducible rfl | intro _ | with_reducible refine (foldl_mem _ _ _ ?_).trans ?_ | with_reducible refine (State.answer_mem _ _ _ _).trans ?_ | dsimp only | split)

theorem State.applyStep_mem (s : State) (core track grid : Nat) : (State.applyStep s core track grid).mem = s.mem := by
  unfold State.applyStep
  repeat' (first | with_reducible rfl | intro _ | with_reducible refine (foldl_mem _ _ _ ?_).trans ?_ | with_reducible refine (State.finishStep_mem _ _).trans ?_ | with_reducible refine (State.updCore_mem _ _ _).trans ?_ | with_reducible refine (State.updGrid_mem _ _ _).trans ?_ | dsimp only | split)

theorem State.reply_mem (s : State) (endpoint id status : Nat) : (State.reply s endpoint id status).mem = s.mem := by
  unfold State.reply
  repeat' (first | with_reducible rfl | intro _ | with_reducible refine (foldl_mem _ _ _ ?_).trans ?_ | dsimp only | split)

theorem State.refuseMessage_mem (s : State) (vf endpoint id : Nat) : (State.refuseMessage s vf endpoint id).mem = s.mem := by
  unfold State.refuseMessage
  repeat' (first | with_reducible rfl | intro _ | with_reducible refine (foldl_mem _ _ _ ?_).trans ?_ | with_reducible refine (State.reply_mem _ _ _ _).trans ?_ | with_reducible refine (State.report_mem _ _ _ _ _).trans ?_ | with_reducible refine (State.reportSupervisor_mem _ _ _ _ _ _).trans ?_ | dsimp only | split)

theorem State.answerTo_mem (s : State) (endpoint id : Nat) (error : Bool) : (State.answerTo s endpoint id error).mem = s.mem := by
  unfold State.answerTo
  repeat' (first | with_reducible rfl | intro _ | with_reducible refine (foldl_mem _ _ _ ?_).trans ?_ | with_reducible refine (State.answer_mem _ _ _ _).trans ?_ | dsimp only | split)

theorem State.reportSparing_mem (s : State) (what : Nat) (addr : W64) (place : Nat) : (State.reportSparing s what addr place).mem = s.mem := by
  unfold State.reportSparing
  repeat' (first | with_reducible rfl | intro _ | with_reducible refine (foldl_mem _ _ _ ?_).trans ?_ | with_reducible refine (State.reportSupervisor_mem _ _ _ _ _ _).trans ?_ | dsimp only | split)

theorem State.updRequest_mem (s : State) (core id lane : Nat) (f : Option Nat → Option Nat) (n : Nat) : (State.updRequest s core id lane f n).mem = s.mem := by
  unfold State.updRequest
  repeat' (first | with_reducible rfl | intro _ | with_reducible refine (foldl_mem _ _ _ ?_).trans ?_ | with_reducible refine (State.updCall_mem _ _ _).trans ?_ | with_reducible refine (State.updCore_mem _ _ _).trans ?_ | with_reducible refine (State.updGroup_mem _ _ _).trans ?_ | dsimp only | split)

theorem State.noteSent_mem (s : State) : (State.noteSent s).mem = s.mem := by
  unfold State.noteSent
  repeat' (first | with_reducible rfl | intro _ | with_reducible refine (foldl_mem _ _ _ ?_).trans ?_ | with_reducible refine (State.updRequest_mem _ _ _ _ _ _).trans ?_ | dsimp only | split)

theorem State.failReading_mem (s : State) (g : Nat) (x : Group) (lane sub port : Nat) (r : Reading) : (State.failReading s g x lane sub port r).mem = s.mem := by
  unfold State.failReading
  repeat' (first | with_reducible rfl | intro _ | with_reducible refine (foldl_mem _ _ _ ?_).trans ?_ | with_reducible refine (State.deferred_mem _ _ _ _ _ _ _ _ _).trans ?_ | with_reducible refine (State.keep_mem _ _ _ _).trans ?_ | with_reducible refine (State.port_mem _ _ _ _ _).trans ?_ | with_reducible refine (State.precise_mem _ _ _ _ _ _ _).trans ?_ | with_reducible refine (State.updGroup_mem _ _ _).trans ?_ | with_reducible refine (State.wait_mem _ _ _).trans ?_ | dsimp only | split)

theorem State.revokeContext_mem (s : State) (ctx : Nat) : (State.revokeContext s ctx).mem = s.mem := by
  unfold State.revokeContext
  repeat' (first | with_reducible rfl | intro _ | with_reducible refine (foldl_mem _ _ _ ?_).trans ?_ | with_reducible refine (State.forget_mem _ _ _).trans ?_ | with_reducible refine (State.keep_mem _ _ _ _).trans ?_ | with_reducible refine (State.reportDead_mem _ _ _ _).trans ?_ | dsimp only | split)

theorem State.haltDead_mem (s : State) (ctx : Nat) : (State.haltDead s ctx).mem = s.mem := by
  unfold State.haltDead
  repeat' (first | with_reducible rfl | intro _ | with_reducible refine (foldl_mem _ _ _ ?_).trans ?_ | with_reducible refine (State.raiseHalt_mem _ _ _ _ _ _ _ _).trans ?_ | with_reducible refine (State.updHalt_mem _ _ _).trans ?_ | dsimp only | split)

theorem State.updVf_mem (s : State) (vf : Nat) (f : Vf → Vf) : (State.updVf s vf f).mem = s.mem := by
  unfold State.updVf
  repeat' (first | with_reducible rfl | intro _ | with_reducible refine (foldl_mem _ _ _ ?_).trans ?_ | dsimp only | split)

theorem State.refillPort_mem (s : State) (core boundary : Nat) : (State.refillPort s core boundary).mem = s.mem := by
  unfold State.refillPort
  repeat' (first | with_reducible rfl | intro _ | with_reducible refine (foldl_mem _ _ _ ?_).trans ?_ | with_reducible refine (State.keep_mem _ _ _ _).trans ?_ | with_reducible refine (State.updCore_mem _ _ _).trans ?_ | dsimp only | split)

theorem State.refillAt_mem (s : State) (boundary core : Nat) : (State.refillAt s boundary core).mem = s.mem := by
  unfold State.refillAt
  repeat' (first | with_reducible rfl | intro _ | with_reducible refine (foldl_mem _ _ _ ?_).trans ?_ | with_reducible refine (State.refillPort_mem _ _ _).trans ?_ | dsimp only | split)

theorem State.refillDue_mem (s : State) (n : Nat) : (State.refillDue s n).mem = s.mem := by
  unfold State.refillDue
  repeat' (first | with_reducible rfl | intro _ | with_reducible refine (foldl_mem _ _ _ ?_).trans ?_ | with_reducible refine (State.refillAt_mem _ _ _).trans ?_ | dsimp only | split)

theorem State.updPkg_mem (s : State) (f : Package → Package) : (State.updPkg s f).mem = s.mem := by
  unfold State.updPkg
  repeat' (first | with_reducible rfl | intro _ | with_reducible refine (foldl_mem _ _ _ ?_).trans ?_ | dsimp only | split)

theorem State.mapTracks_mem (s : State) (cores : List Nat) (f : Track → Track) : (State.mapTracks s cores f).mem = s.mem := by
  unfold State.mapTracks
  repeat' (first | with_reducible rfl | intro _ | with_reducible refine (foldl_mem _ _ _ ?_).trans ?_ | with_reducible refine (State.updCore_mem _ _ _).trans ?_ | dsimp only | split)

theorem State.noteNoise_mem (s : State) (die : Nat) (cores : List (Nat × Nat)) : (State.noteNoise s die cores).mem = s.mem := by
  unfold State.noteNoise
  repeat' (first | with_reducible rfl | intro _ | with_reducible refine (foldl_mem _ _ _ ?_).trans ?_ | with_reducible refine (State.updCore_mem _ _ _).trans ?_ | dsimp only | split)

theorem State.strikeArray_mem (s : State) (die core array : Nat) (va : W64) : (State.strikeArray s die core array va).mem = s.mem := by
  unfold State.strikeArray
  repeat' (first | with_reducible rfl | intro _ | with_reducible refine (foldl_mem _ _ _ ?_).trans ?_ | with_reducible refine (State.deferred_mem _ _ _ _ _ _ _ _ _).trans ?_ | with_reducible refine (State.reportLine_mem _ _ _).trans ?_ | with_reducible refine (State.updCore_mem _ _ _).trans ?_ | with_reducible refine (State.updDie_mem _ _ _).trans ?_ | with_reducible refine (State.updSlot_mem _ _ _).trans ?_ | dsimp only | split)

theorem State.selfTest_mem (s : State) (core : Nat) : (State.selfTest s core).mem = s.mem := by
  unfold State.selfTest
  repeat' (first | with_reducible rfl | intro _ | with_reducible refine (foldl_mem _ _ _ ?_).trans ?_ | with_reducible refine (State.updCore_mem _ _ _).trans ?_ | with_reducible refine (State.updDie_mem _ _ _).trans ?_ | dsimp only | split)

theorem State.train_mem (s : State) (c : Nat × Nat × Nat) : (State.train s c).mem = s.mem := by
  unfold State.train
  repeat' (first | with_reducible rfl | intro _ | with_reducible refine (foldl_mem _ _ _ ?_).trans ?_ | with_reducible refine (State.updDie_mem _ _ _).trans ?_ | dsimp only | split)

theorem State.releaseJunctions_mem (s : State) (g : Nat) : (State.releaseJunctions s g).mem = s.mem := by
  unfold State.releaseJunctions
  repeat' (first | with_reducible rfl | intro _ | with_reducible refine (foldl_mem _ _ _ ?_).trans ?_ | with_reducible refine (State.releaseJunction_mem _ _ _).trans ?_ | dsimp only | split)

theorem State.countPort_mem (s : State) (g : Nat) (w : W32) (lanes : Nat) : (State.countPort s g w lanes).mem = s.mem := by
  unfold State.countPort
  repeat' (first | with_reducible rfl | intro _ | with_reducible refine (foldl_mem _ _ _ ?_).trans ?_ | with_reducible refine (State.port_mem _ _ _ _ _).trans ?_ | with_reducible refine (State.updCore_mem _ _ _).trans ?_ | dsimp only | split)

theorem State.illegal_mem (s : State) (r : Reject) (words : List W32) : (State.illegal s r words).mem = s.mem := by
  unfold State.illegal
  repeat' (first | with_reducible rfl | intro _ | with_reducible refine (foldl_mem _ _ _ ?_).trans ?_ | with_reducible refine (State.precise_mem _ _ _ _ _ _ _).trans ?_ | dsimp only | split)

theorem State.releaseCounters_mem (s : State) (g : Nat) : (State.releaseCounters s g).mem = s.mem := by
  unfold State.releaseCounters
  repeat' (first | with_reducible rfl | intro _ | with_reducible refine (foldl_mem _ _ _ ?_).trans ?_ | with_reducible refine (State.updGroup_mem _ _ _).trans ?_ | dsimp only | split)

theorem State.moveGroup_mem (s : State) (g : Nat) (set : GSet) : (State.moveGroup s g set).mem = s.mem := by
  unfold State.moveGroup
  repeat' (first | with_reducible rfl | intro _ | with_reducible refine (foldl_mem _ _ _ ?_).trans ?_ | with_reducible refine (State.updGroup_mem _ _ _).trans ?_ | dsimp only | split)

theorem scalar_mem (i : Instr) (dst : Dst) (a b : Src) (q : Option Nat) (op : Env → Out) (s : State) : (scalar i dst a b q op s).mem = s.mem := by
  unfold scalar
  repeat' (first | with_reducible rfl | intro _ | with_reducible refine (foldl_mem _ _ _ ?_).trans ?_ | with_reducible refine (State.alu_mem _ _).trans ?_ | dsimp only | split)

theorem scalar2_mem (i : Instr) (m : Mods) (t : BitVec 2) (d a b : BitVec 7) (op : Bool → Int → Int → Nat) (s : State) : (scalar2 i m t d a b op s).mem = s.mem := by
  unfold scalar2
  repeat' (first | with_reducible rfl | intro _ | with_reducible refine (foldl_mem _ _ _ ?_).trans ?_ | with_reducible refine (scalar_mem _ _ _ _ _ _ _).trans ?_ | dsimp only | split)

theorem scalarBits_mem (i : Instr) (m : Mods) (d a b : BitVec 7) (op : Nat → Nat → Nat) (s : State) : (scalarBits i m d a b op s).mem = s.mem := by
  unfold scalarBits
  repeat' (first | with_reducible rfl | intro _ | with_reducible refine (foldl_mem _ _ _ ?_).trans ?_ | with_reducible refine (scalar_mem _ _ _ _ _ _ _).trans ?_ | dsimp only | split)

theorem scalarShift_mem (i : Instr) (m : Mods) (kty : Nat) (d a b : BitVec 7) (op : Int → Nat → Int) (s : State) : (scalarShift i m kty d a b op s).mem = s.mem := by
  unfold scalarShift
  repeat' (first | with_reducible rfl | intro _ | with_reducible refine (foldl_mem _ _ _ ?_).trans ?_ | with_reducible refine (scalar_mem _ _ _ _ _ _ _).trans ?_ | dsimp only | split)

theorem vec_mem (i : Instr) (dst : Dst) (a b c : Src) (q : Option Nat) (op : Env → Out) (s : State) : (vec i dst a b c q op s).mem = s.mem := by
  unfold vec
  repeat' (first | with_reducible rfl | intro _ | with_reducible refine (foldl_mem _ _ _ ?_).trans ?_ | with_reducible refine (State.alu_mem _ _).trans ?_ | dsimp only | split)

theorem vec2_mem (i : Instr) (m : Mods) (t : BitVec 3) (d a b : BitVec 7) (op : Bool → Int → Int → Int) (s : State) : (vec2 i m t d a b op s).mem = s.mem := by
  unfold vec2
  repeat' (first | with_reducible rfl | intro _ | with_reducible refine (foldl_mem _ _ _ ?_).trans ?_ | with_reducible refine (vec_mem _ _ _ _ _ _ _ _).trans ?_ | dsimp only | split)

theorem vec1_mem (i : Instr) (t : BitVec 3) (d a : BitVec 7) (op : Int → Int) (s : State) : (vec1 i t d a op s).mem = s.mem := by
  unfold vec1
  repeat' (first | with_reducible rfl | intro _ | with_reducible refine (foldl_mem _ _ _ ?_).trans ?_ | with_reducible refine (vec_mem _ _ _ _ _ _ _ _).trans ?_ | dsimp only | split)

theorem vecBits_mem (i : Instr) (m : Mods) (t : BitVec 3) (d a b : BitVec 7) (op : Nat → Nat → Nat) (s : State) : (vecBits i m t d a b op s).mem = s.mem := by
  unfold vecBits
  repeat' (first | with_reducible rfl | intro _ | with_reducible refine (foldl_mem _ _ _ ?_).trans ?_ | with_reducible refine (vec_mem _ _ _ _ _ _ _ _).trans ?_ | dsimp only | split)

theorem vecShift_mem (i : Instr) (m : Mods) (t : BitVec 3) (d a b : BitVec 7) (op : Nat → Nat → Int) (s : State) : (vecShift i m t d a b op s).mem = s.mem := by
  unfold vecShift
  repeat' (first | with_reducible rfl | intro _ | with_reducible refine (foldl_mem _ _ _ ?_).trans ?_ | with_reducible refine (vec_mem _ _ _ _ _ _ _ _).trans ?_ | dsimp only | split)

theorem vecCount_mem (i : Instr) (t : BitVec 3) (d a : BitVec 7) (op : Nat → Nat → Nat) (s : State) : (vecCount i t d a op s).mem = s.mem := by
  unfold vecCount
  repeat' (first | with_reducible rfl | intro _ | with_reducible refine (foldl_mem _ _ _ ?_).trans ?_ | with_reducible refine (vec_mem _ _ _ _ _ _ _ _).trans ?_ | dsimp only | split)

theorem vecCmp_mem (i : Instr) (m : Mods) (t : BitVec 3) (d a b : BitVec 7) (op : Int → Int → Bool) (s : State) : (vecCmp i m t d a b op s).mem = s.mem := by
  unfold vecCmp
  repeat' (first | with_reducible rfl | intro _ | with_reducible refine (foldl_mem _ _ _ ?_).trans ?_ | with_reducible refine (vec_mem _ _ _ _ _ _ _ _).trans ?_ | dsimp only | split)

theorem pred_mem (i : Instr) (d a b : BitVec 7) (op : Nat → Nat → Nat) (s : State) : (pred i d a b op s).mem = s.mem := by
  unfold pred
  repeat' (first | with_reducible rfl | intro _ | with_reducible refine (foldl_mem _ _ _ ?_).trans ?_ | with_reducible refine (vec_mem _ _ _ _ _ _ _ _).trans ?_ | dsimp only | split)

theorem flt_mem (i : Instr) (dst : Dst) (a b c : Src) (warn : W32) (op : Env → Out) (s : State) : (flt i dst a b c warn op s).mem = s.mem := by
  unfold flt
  repeat' (first | with_reducible rfl | intro _ | with_reducible refine (foldl_mem _ _ _ ?_).trans ?_ | with_reducible refine (State.alu_mem _ _).trans ?_ | with_reducible refine (State.warn_mem _ _).trans ?_ | dsimp only | split)

theorem flt2_mem (i : Instr) (m : Mods) (t : BitVec 2) (d a b : BitVec 7) (op : Env → Num → Num → Nat × Nat) (s : State) : (flt2 i m t d a b op s).mem = s.mem := by
  unfold flt2
  repeat' (first | with_reducible rfl | intro _ | with_reducible refine (foldl_mem _ _ _ ?_).trans ?_ | with_reducible refine (flt_mem _ _ _ _ _ _ _ _).trans ?_ | dsimp only | split)

theorem fltBits_mem (i : Instr) (m : Mods) (t : BitVec 2) (d a b : BitVec 7) (op : Nat → Nat → Nat × Nat) (s : State) : (fltBits i m t d a b op s).mem = s.mem := by
  unfold fltBits
  repeat' (first | with_reducible rfl | intro _ | with_reducible refine (foldl_mem _ _ _ ?_).trans ?_ | with_reducible refine (flt_mem _ _ _ _ _ _ _ _).trans ?_ | dsimp only | split)

theorem fltCmp_mem (i : Instr) (m : Mods) (t : BitVec 2) (d a b : BitVec 7) (c : Nat) (s : State) : (fltCmp i m t d a b c s).mem = s.mem := by
  unfold fltCmp
  repeat' (first | with_reducible rfl | intro _ | with_reducible refine (foldl_mem _ _ _ ?_).trans ?_ | with_reducible refine (flt_mem _ _ _ _ _ _ _ _).trans ?_ | dsimp only | split)

theorem packed_mem (i : Instr) (m : Mods) (f : BitVec 1) (d a b : BitVec 7) (c : Src) (srcs : Env → List Val) (op : Env → Bool → Nat × Nat) (s : State) : (packed i m f d a b c srcs op s).mem = s.mem := by
  unfold packed
  repeat' (first | with_reducible rfl | intro _ | with_reducible refine (foldl_mem _ _ _ ?_).trans ?_ | with_reducible refine (flt_mem _ _ _ _ _ _ _ _).trans ?_ | dsimp only | split)

theorem cross_mem (i : Instr) (dst : Dst) (a b : Src) (fp : Bool) (srcs : Env → List Val) (op : List Env → Env → Nat × Nat) (s : State) : (cross i dst a b fp srcs op s).mem = s.mem := by
  unfold cross
  repeat' (first | with_reducible rfl | intro _ | with_reducible refine (foldl_mem _ _ _ ?_).trans ?_ | with_reducible refine (State.alu_mem _ _).trans ?_ | dsimp only | split)

theorem sfu_mem (i : Instr) (k : Special) (t : BitVec 2) (d a : BitVec 7) (s : State) : (sfu i k t d a s).mem = s.mem := by
  unfold sfu
  repeat' (first | with_reducible rfl | intro _ | with_reducible refine (foldl_mem _ _ _ ?_).trans ?_ | with_reducible refine (State.alu_mem _ _).trans ?_ | dsimp only | split)

end Sys2Proof.Machine
end

