-- ==== Sys2Proof/Laws/KeepOwn.lean ====
section
/-! SUPPORT. The operations that leave what a program reads of every group as it was, one lemma for each. -/

set_option linter.all false

namespace Sys2Proof.Machine

/-- What a program or a handler reads of a group. -/
@[reducible] def Group.own (x : Group) := (x.fpmode, x.cause, x.det0, x.det1, x.det2, x.h, x.m, x.handles, x.loads, x.stores, x.copies, x.tiles, x.declared, x.arrivals)

/-- That of a group, in a map of groups. -/
def ownIn (m : Map Group) (g : Nat) := (m.get g Group.none).own

theorem ownIn_adjust (m : Map Group) (g g0 : Nat) (f : Group → Group) (h : ∀ x, (f x).own = x.own) : ownIn (m.adjust g f) g0 = ownIn m g0 := by
  unfold ownIn
  by_cases e : g0 = g
  · subst e
    simp only [Map.get, Map.find?_adjust_self]
    cases m.find? g0 with
    | none => rfl
    | some x => exact h x
  · rw [Map.get_adjust_ne m _ _ e]

theorem ownIn_mapVals (m : Map Group) (g0 : Nat) (f : Nat → Group → Group) (h : ∀ g x, (f g x).own = x.own) : ownIn (m.mapVals f) g0 = ownIn m g0 := by
  unfold ownIn
  simp only [Map.get, Map.find?_mapVals]
  cases m.find? g0 with
  | none => rfl
  | some x => exact h _ x

theorem foldl_ownIn {α : Type} (f : State → α → State) (l : List α) (s : State) (g0 : Nat) (h : ∀ t a, ownIn (f t a).groups g0 = ownIn t.groups g0) : ownIn (l.foldl f s).groups g0 = ownIn s.groups g0 := by
  induction l generalizing s with
  | nil => rfl
  | cons a l ih => exact (ih _).trans (h _ _)

theorem State.reportSupervisor_ownIn (s : State) (type vf sev : Nat) (addr : W64) (place : W32) (g0 : Nat) : ownIn (State.reportSupervisor s type vf sev addr place).groups g0 = ownIn s.groups g0 := congrArg (fun m => ownIn m g0) (State.reportSupervisor_groups s type vf sev addr place)

theorem State.updCore_ownIn (s : State) (c : Nat) (f : Core → Core) (g0 : Nat) : ownIn (State.updCore s c f).groups g0 = ownIn s.groups g0 := congrArg (fun m => ownIn m g0) (State.updCore_groups s c f)

theorem State.updDie_ownIn (s : State) (d : Nat) (f : Die → Die) (g0 : Nat) : ownIn (State.updDie s d f).groups g0 = ownIn s.groups g0 := congrArg (fun m => ownIn m g0) (State.updDie_groups s d f)

theorem State.countPacket_ownIn (s : State) (la : Nat) (conf : Bool) (g0 : Nat) : ownIn (State.countPacket s la conf).groups g0 = ownIn s.groups g0 := congrArg (fun m => ownIn m g0) (State.countPacket_groups s la conf)

theorem State.writeLine_ownIn (s : State) (la : Nat) (data : List Byte) (poison : Bool) (g0 : Nat) : ownIn (State.writeLine s la data poison).groups g0 = ownIn s.groups g0 := congrArg (fun m => ownIn m g0) (State.writeLine_groups s la data poison)

theorem State.reportDies_ownIn (s : State) (la : Nat) (dies : List Nat) (g0 : Nat) : ownIn (State.reportDies s la dies).groups g0 = ownIn s.groups g0 := congrArg (fun m => ownIn m g0) (State.reportDies_groups s la dies)

theorem State.noteLlc_ownIn (s : State) (la : Nat) (g0 : Nat) : ownIn (State.noteLlc s la).groups g0 = ownIn s.groups g0 := congrArg (fun m => ownIn m g0) (State.noteLlc_groups s la)

theorem State.cleanLine_ownIn (s : State) (d la : Nat) (g0 : Nat) : ownIn (State.cleanLine s d la).groups g0 = ownIn s.groups g0 := congrArg (fun m => ownIn m g0) (State.cleanLine_groups s d la)

theorem State.giveBack_ownIn (s : State) (d la : Nat) (g0 : Nat) : ownIn (State.giveBack s d la).groups g0 = ownIn s.groups g0 := congrArg (fun m => ownIn m g0) (State.giveBack_groups s d la)

theorem State.l2Room_ownIn (s : State) (d la : Nat) (g0 : Nat) : ownIn (State.l2Room s d la).groups g0 = ownIn s.groups g0 := congrArg (fun m => ownIn m g0) (State.l2Room_groups s d la)

theorem State.l2Fetch_ownIn (s : State) (d la pol : Nat) (conf : Bool) (g0 : Nat) : ownIn (State.l2Fetch s d la pol conf).groups g0 = ownIn s.groups g0 := congrArg (fun m => ownIn m g0) (State.l2Fetch_groups s d la pol conf)

theorem State.readLine_ownIn (s : State) (d la pol : Nat) (alloc conf : Bool) (g0 : Nat) : ownIn (State.readLine s d la pol alloc conf).groups g0 = ownIn s.groups g0 := congrArg (fun m => ownIn m g0) (State.readLine_groups s d la pol alloc conf)

theorem State.cleanAll_ownIn (s : State) (la : Nat) (g0 : Nat) : ownIn (State.cleanAll s la).groups g0 = ownIn s.groups g0 := congrArg (fun m => ownIn m g0) (State.cleanAll_groups s la)

theorem State.invalidateL1s_ownIn (s : State) (d la except : Nat) (g0 : Nat) : ownIn (State.invalidateL1s s d la except).groups g0 = ownIn s.groups g0 := congrArg (fun m => ownIn m g0) (State.invalidateL1s_groups s d la except)

theorem State.homeWrite_ownIn (s : State) (a : Nat) (data : List Byte) (poison conf : Bool) (g0 : Nat) : ownIn (State.homeWrite s a data poison conf).groups g0 = ownIn s.groups g0 := congrArg (fun m => ownIn m g0) (State.homeWrite_groups s a data poison conf)

theorem State.refreshCopies_ownIn (s : State) (la : Nat) (g0 : Nat) : ownIn (State.refreshCopies s la).groups g0 = ownIn s.groups g0 := congrArg (fun m => ownIn m g0) (State.refreshCopies_groups s la)

theorem State.l2WriteLine_ownIn (s : State) (d core la off : Nat) (data : List Byte) (poison : Bool) (pol : Nat) (alloc conf : Bool) (g0 : Nat) : ownIn (State.l2WriteLine s d core la off data poison pol alloc conf).groups g0 = ownIn s.groups g0 := congrArg (fun m => ownIn m g0) (State.l2WriteLine_groups s d core la off data poison pol alloc conf)

theorem State.dropCopies_ownIn (s : State) (d la : Nat) (g0 : Nat) : ownIn (State.dropCopies s d la).groups g0 = ownIn s.groups g0 := congrArg (fun m => ownIn m g0) (State.dropCopies_groups s d la)

theorem State.sysWrite_ownIn (s : State) (a : Nat) (data : List Byte) (poison : Bool) (g0 : Nat) : ownIn (State.sysWrite s a data poison).groups g0 = ownIn s.groups g0 := congrArg (fun m => ownIn m g0) (State.sysWrite_groups s a data poison)

theorem State.fillTlb_ownIn (s : State) (ctx core : Nat) (va : W64) (g0 : Nat) : ownIn (State.fillTlb s ctx core va).groups g0 = ownIn s.groups g0 := congrArg (fun m => ownIn m g0) (State.fillTlb_groups s ctx core va)

theorem State.askSupervisor_ownIn (s : State) (ctx : Nat) (va : W64) (g0 : Nat) : ownIn (State.askSupervisor s ctx va).groups g0 = ownIn s.groups g0 := congrArg (fun m => ownIn m g0) (State.askSupervisor_groups s ctx va)

theorem State.forget_ownIn (s : State) (ctx : Nat) (va : W64) (g0 : Nat) : ownIn (State.forget s ctx va).groups g0 = ownIn s.groups g0 := congrArg (fun m => ownIn m g0) (State.forget_groups s ctx va)

theorem State.updGroup_ownIn (s : State) (g : Nat) (f : Group → Group) (g0 : Nat) (h : ∀ x, (f x).own = x.own) : ownIn (s.updGroup g f).groups g0 = ownIn s.groups g0 :=
  ownIn_adjust _ _ _ _ h

theorem State.mapLanes_ownIn (s : State) (g : Nat) (lanes : List Nat) (f : Nat → Fibre → Fibre) (g0 : Nat) : ownIn (s.mapLanes g lanes f).groups g0 = ownIn s.groups g0 :=
  ownIn_adjust _ _ _ _ (fun x => rfl)

theorem State.updFibre_ownIn (s : State) (g lane : Nat) (f : Fibre → Fibre) (g0 : Nat) : ownIn (State.updFibre s g lane f).groups g0 = ownIn s.groups g0 := by
  unfold State.updFibre
  repeat' (first | with_reducible rfl | intro _ | with_reducible refine (foldl_ownIn _ _ _ _ ?_).trans ?_ | with_reducible refine (State.mapLanes_ownIn _ _ _ _ _).trans ?_ | dsimp only | split)

theorem State.updGrid_ownIn (s : State) (n : Nat) (f : Grid → Grid) (g0 : Nat) : ownIn (State.updGrid s n f).groups g0 = ownIn s.groups g0 := congrArg (fun m => ownIn m g0) (State.updGrid_groups s n f)

theorem State.releaseHolders_ownIn (s : State) (g uid : Nat) (regs : List Reg) (counts : Bool) (g0 : Nat) : ownIn (State.releaseHolders s g uid regs counts).groups g0 = ownIn s.groups g0 := congrArg (fun m => ownIn m g0) (State.releaseHolders_groups s g uid regs counts)

theorem State.releaseFibre_ownIn (s : State) (g uid : Nat) (g0 : Nat) : ownIn (State.releaseFibre s g uid).groups g0 = ownIn s.groups g0 := congrArg (fun m => ownIn m g0) (State.releaseFibre_groups s g uid)

theorem State.settleGm_ownIn (s : State) (g : Nat) (g0 : Nat) : ownIn (State.settleGm s g).groups g0 = ownIn s.groups g0 := by
  unfold State.settleGm
  repeat' (first | with_reducible rfl | intro _ | with_reducible refine (foldl_ownIn _ _ _ _ ?_).trans ?_ | with_reducible refine (State.mapLanes_ownIn _ _ _ _ _).trans ?_ | dsimp only | split)

theorem State.advance_ownIn (s : State) (lanes : List Nat) (g0 : Nat) : ownIn (State.advance s lanes).groups g0 = ownIn s.groups g0 := by
  unfold State.advance
  repeat' (first | with_reducible rfl | intro _ | with_reducible refine (foldl_ownIn _ _ _ _ ?_).trans ?_ | with_reducible refine (State.mapLanes_ownIn _ _ _ _ _).trans ?_ | dsimp only | split)

theorem State.warn_ownIn (s : State) (w : W32) (g0 : Nat) : ownIn (State.warn s w).groups g0 = ownIn s.groups g0 := by
  unfold State.warn
  repeat' (first | with_reducible rfl | intro _ | with_reducible refine (foldl_ownIn _ _ _ _ ?_).trans ?_ | with_reducible refine (State.updGroup_ownIn _ _ _ _ (by first | exact fun _ => rfl | (intro x; dsimp only; (repeat' split) <;> rfl))).trans ?_ | dsimp only | split)

theorem State.wait_ownIn (s : State) (lanes : List Nat) (w : Wait) (g0 : Nat) : ownIn (State.wait s lanes w).groups g0 = ownIn s.groups g0 := by
  unfold State.wait
  repeat' (first | with_reducible rfl | intro _ | with_reducible refine (foldl_ownIn _ _ _ _ ?_).trans ?_ | with_reducible refine (State.mapLanes_ownIn _ _ _ _ _).trans ?_ | dsimp only | split)

theorem State.dropLater_ownIn (s : State) (g : Nat) (h : Held) (g0 : Nat) : ownIn (State.dropLater s g h).groups g0 = ownIn s.groups g0 := congrArg (fun m => ownIn m g0) (State.dropLater_groups s g h)

theorem State.scrub_ownIn (s : State) (la a n generation : Nat) (g0 : Nat) : ownIn (State.scrub s la a n generation).groups g0 = ownIn s.groups g0 := congrArg (fun m => ownIn m g0) (State.scrub_groups s la a n generation)

theorem State.sealFor_ownIn (s : State) (generation a n : Nat) (g0 : Nat) : ownIn (State.sealFor s generation a n).groups g0 = ownIn s.groups g0 := congrArg (fun m => ownIn m g0) (State.sealFor_groups s generation a n)

theorem State.seal_ownIn (s : State) (ctx a n : Nat) (g0 : Nat) : ownIn (State.seal s ctx a n).groups g0 = ownIn s.groups g0 := congrArg (fun m => ownIn m g0) (State.seal_groups s ctx a n)

theorem State.reportRefused_ownIn (s : State) (ctx core : Nat) (lines : List Nat) (g0 : Nat) : ownIn (State.reportRefused s ctx core lines).groups g0 = ownIn s.groups g0 := congrArg (fun m => ownIn m g0) (State.reportRefused_groups s ctx core lines)

theorem State.reportReads_ownIn (s : State) (ctx core : Nat) (lines : List Nat) (g0 : Nat) : ownIn (State.reportReads s ctx core lines).groups g0 = ownIn s.groups g0 := congrArg (fun m => ownIn m g0) (State.reportReads_groups s ctx core lines)

theorem State.reportWrites_ownIn (s : State) (ctx core : Nat) (lines : List Nat) (g0 : Nat) : ownIn (State.reportWrites s ctx core lines).groups g0 = ownIn s.groups g0 := congrArg (fun m => ownIn m g0) (State.reportWrites_groups s ctx core lines)

theorem State.reportWalk_ownIn (s : State) (ctx core : Nat) (va : W64) (g0 : Nat) : ownIn (State.reportWalk s ctx core va).groups g0 = ownIn s.groups g0 := congrArg (fun m => ownIn m g0) (State.reportWalk_groups s ctx core va)

theorem State.deviceWrite_ownIn (s : State) (ctx : Nat) (va : W64) (data : List Byte) (g0 : Nat) : ownIn (State.deviceWrite s ctx va data).groups g0 = ownIn s.groups g0 := congrArg (fun m => ownIn m g0) (State.deviceWrite_groups s ctx va data)

theorem State.shiftTimes_ownIn (s : State) (ctx : Nat) (g0 : Nat) : ownIn (s.shiftTimes ctx).groups g0 = ownIn s.groups g0 := by
  unfold State.shiftTimes
  split
  · rfl
  · dsimp only
    refine ownIn_mapVals _ _ _ (fun g x => ?_)
    split
    · rfl
    · rfl

theorem State.raiseHalt_ownIn (s : State) (ctx reason g : Nat) (t : Trap) (lanes : List Nat) (incomplete : Bool) (epc : W64) (g0 : Nat) : ownIn (State.raiseHalt s ctx reason g t lanes incomplete epc).groups g0 = ownIn s.groups g0 := by
  unfold State.raiseHalt
  repeat' (first | with_reducible rfl | intro _ | with_reducible refine (foldl_ownIn _ _ _ _ ?_).trans ?_ | with_reducible refine (State.shiftTimes_ownIn _ _ _).trans ?_ | dsimp only | split)

theorem State.keep_ownIn (s : State) (g : Nat) (t : Trap) (lanes : List Nat) (g0 : Nat) : ownIn (State.keep s g t lanes).groups g0 = ownIn s.groups g0 := by
  unfold State.keep
  repeat' (first | with_reducible rfl | intro _ | with_reducible refine (foldl_ownIn _ _ _ _ ?_).trans ?_ | with_reducible refine (State.updGroup_ownIn _ _ _ _ (by first | exact fun _ => rfl | (intro x; dsimp only; (repeat' split) <;> rfl))).trans ?_ | dsimp only | split)

theorem State.updHalt_ownIn (s : State) (ctx : Nat) (f : Halt → Halt) (g0 : Nat) : ownIn (State.updHalt s ctx f).groups g0 = ownIn s.groups g0 := congrArg (fun m => ownIn m g0) (State.updHalt_groups s ctx f)

theorem State.fault_ownIn (s : State) (g : Nat) (t : Trap) (lanes : List Nat) (incomplete : Bool) (g0 : Nat) : ownIn (State.fault s g t lanes incomplete).groups g0 = ownIn s.groups g0 := by
  unfold State.fault
  repeat' (first | with_reducible rfl | intro _ | with_reducible refine (foldl_ownIn _ _ _ _ ?_).trans ?_ | with_reducible refine (State.keep_ownIn _ _ _ _ _).trans ?_ | with_reducible refine (State.raiseHalt_ownIn _ _ _ _ _ _ _ _ _).trans ?_ | with_reducible refine (State.updHalt_ownIn _ _ _ _).trans ?_ | dsimp only | split)

theorem State.precise_ownIn (s : State) (cause sub info eng : Nat) (lanes : List Nat) (val : W64) (g0 : Nat) : ownIn (State.precise s cause sub info eng lanes val).groups g0 = ownIn s.groups g0 := by
  unfold State.precise
  repeat' (first | with_reducible rfl | intro _ | with_reducible refine (foldl_ownIn _ _ _ _ ?_).trans ?_ | with_reducible refine (State.fault_ownIn _ _ _ _ _ _).trans ?_ | dsimp only | split)

theorem State.walkPoison_ownIn (s : State) (eng field lane : Nat) (va : W64) (g0 : Nat) : ownIn (State.walkPoison s eng field lane va).groups g0 = ownIn s.groups g0 := by
  unfold State.walkPoison
  repeat' (first | with_reducible rfl | intro _ | with_reducible refine (foldl_ownIn _ _ _ _ ?_).trans ?_ | with_reducible refine (State.precise_ownIn _ _ _ _ _ _ _ _).trans ?_ | with_reducible refine (State.reportWalk_ownIn _ _ _ _ _).trans ?_ | dsimp only | split)

theorem State.deferred_ownIn (s : State) (ctx g cause sub info eng lane : Nat) (val : W64) (g0 : Nat) : ownIn (State.deferred s ctx g cause sub info eng lane val).groups g0 = ownIn s.groups g0 := by
  unfold State.deferred
  repeat' (first | with_reducible rfl | intro _ | with_reducible refine (foldl_ownIn _ _ _ _ ?_).trans ?_ | with_reducible refine (State.fault_ownIn _ _ _ _ _ _).trans ?_ | with_reducible refine (State.raiseHalt_ownIn _ _ _ _ _ _ _ _ _).trans ?_ | dsimp only | split)

theorem State.raisePending_ownIn (s : State) (g : Nat) (g0 : Nat) : ownIn (State.raisePending s g).groups g0 = ownIn s.groups g0 := by
  unfold State.raisePending
  repeat' (first | with_reducible rfl | intro _ | with_reducible refine (foldl_ownIn _ _ _ _ ?_).trans ?_ | with_reducible refine (State.deferred_ownIn _ _ _ _ _ _ _ _ _ _).trans ?_ | with_reducible refine (State.fault_ownIn _ _ _ _ _ _).trans ?_ | with_reducible refine (State.raiseHalt_ownIn _ _ _ _ _ _ _ _ _).trans ?_ | with_reducible refine (State.updGroup_ownIn _ _ _ _ (by first | exact fun _ => rfl | (intro x; dsimp only; (repeat' split) <;> rfl))).trans ?_ | dsimp only | split)

theorem State.report_ownIn (s : State) (vf type : Nat) (addr : W64) (place : W32) (g0 : Nat) : ownIn (State.report s vf type addr place).groups g0 = ownIn s.groups g0 := congrArg (fun m => ownIn m g0) (State.report_groups s vf type addr place)

theorem State.writeHeader_ownIn (s : State) (ctx : Nat) (h : Halt) (g0 : Nat) : ownIn (State.writeHeader s ctx h).groups g0 = ownIn s.groups g0 := congrArg (fun m => ownIn m g0) (State.writeHeader_groups s ctx h)

theorem State.moveLinks_ownIn (s : State) (g uid : Nat) (f : Nat → Nat) (g0 : Nat) : ownIn (State.moveLinks s g uid f).groups g0 = ownIn s.groups g0 := congrArg (fun m => ownIn m g0) (State.moveLinks_groups s g uid f)

theorem State.parkGroups_ownIn (s : State) (ctx : Nat) (but : Option Nat) (g0 : Nat) : ownIn (s.parkGroups ctx but).groups g0 = ownIn s.groups g0 := by
  unfold State.parkGroups
  dsimp only
  refine ownIn_mapVals _ _ _ ?_
  intro g x
  first | rfl | (split <;> rfl)

theorem State.unparkGroups_ownIn (s : State) (ctx : Nat) (g0 : Nat) : ownIn (s.unparkGroups ctx).groups g0 = ownIn s.groups g0 := by
  unfold State.unparkGroups
  dsimp only
  refine ownIn_mapVals _ _ _ ?_
  intro g x
  first | rfl | (split <;> rfl)

theorem State.serveLatched_ownIn (s : State) (ctx : Nat) (g0 : Nat) : ownIn (State.serveLatched s ctx).groups g0 = ownIn s.groups g0 := by
  unfold State.serveLatched
  repeat' (first | with_reducible rfl | intro _ | with_reducible refine (foldl_ownIn _ _ _ _ ?_).trans ?_ | with_reducible refine (State.raiseHalt_ownIn _ _ _ _ _ _ _ _ _).trans ?_ | dsimp only | split)

theorem State.raiseEnded_ownIn (s : State) (ctx : Nat) (g0 : Nat) : ownIn (State.raiseEnded s ctx).groups g0 = ownIn s.groups g0 := by
  unfold State.raiseEnded
  repeat' (first | with_reducible rfl | intro _ | with_reducible refine (foldl_ownIn _ _ _ _ ?_).trans ?_ | with_reducible refine (State.raiseHalt_ownIn _ _ _ _ _ _ _ _ _).trans ?_ | dsimp only | split)

theorem State.releaseHalt_ownIn (s : State) (ctx : Nat) (g0 : Nat) : ownIn (State.releaseHalt s ctx).groups g0 = ownIn s.groups g0 := by
  unfold State.releaseHalt
  repeat' (first | with_reducible rfl | intro _ | with_reducible refine (foldl_ownIn _ _ _ _ ?_).trans ?_ | with_reducible refine (State.raiseEnded_ownIn _ _ _).trans ?_ | with_reducible refine (State.serveLatched_ownIn _ _ _).trans ?_ | with_reducible refine (State.unparkGroups_ownIn _ _ _).trans ?_ | with_reducible refine (State.updHalt_ownIn _ _ _ _).trans ?_ | dsimp only | split)

theorem State.endHandler_ownIn (s : State) (ctx g : Nat) (g0 : Nat) : ownIn (State.endHandler s ctx g).groups g0 = ownIn s.groups g0 := by
  unfold State.endHandler
  repeat' (first | with_reducible rfl | intro _ | with_reducible refine (foldl_ownIn _ _ _ _ ?_).trans ?_ | with_reducible refine (State.releaseHalt_ownIn _ _ _).trans ?_ | with_reducible refine (State.updHalt_ownIn _ _ _ _).trans ?_ | dsimp only | split)

theorem State.freeLast_ownIn (s : State) (old : Group) (e : Eff) (written : Fibre → List Reg) (g0 : Nat) : ownIn (State.freeLast s old e written).groups g0 = ownIn s.groups g0 := by
  unfold State.freeLast
  repeat' (first | with_reducible rfl | intro _ | with_reducible refine (foldl_ownIn _ _ _ _ ?_).trans ?_ | with_reducible refine (State.mapLanes_ownIn _ _ _ _ _).trans ?_ | with_reducible refine (State.releaseHolders_ownIn _ _ _ _ _ _).trans ?_ | dsimp only | split)

theorem State.complete_ownIn (s : State) (old : Group) (e : Eff) (written : Fibre → List Reg) (g0 : Nat) : ownIn (State.complete s old e written).groups g0 = ownIn s.groups g0 := by
  unfold State.complete
  repeat' (first | with_reducible rfl | intro _ | with_reducible refine (foldl_ownIn _ _ _ _ ?_).trans ?_ | with_reducible refine (State.advance_ownIn _ _ _).trans ?_ | with_reducible refine (State.freeLast_ownIn _ _ _ _ _).trans ?_ | with_reducible refine (State.settleGm_ownIn _ _ _).trans ?_ | dsimp only | split)

theorem State.narrow_ownIn (s : State) (lanes : List Nat) (g0 : Nat) : ownIn (State.narrow s lanes).groups g0 = ownIn s.groups g0 := congrArg (fun m => ownIn m g0) (State.narrow_groups s lanes)

theorem State.control_ownIn (s : State) (eng : Nat) (ops : Group → Nat → Fibre → List Ctl) (go : State → State) (g0 : Nat) (hgo : ∀ x0, ownIn (go x0).groups g0 = ownIn x0.groups g0) : ownIn (State.control s eng ops go).groups g0 = ownIn s.groups g0 := by
  unfold State.control
  repeat' (first | with_reducible rfl | intro _ | with_reducible refine (foldl_ownIn _ _ _ _ ?_).trans ?_ | with_reducible refine (State.mapLanes_ownIn _ _ _ _ _).trans ?_ | with_reducible refine (State.narrow_ownIn _ _ _).trans ?_ | with_reducible refine (State.precise_ownIn _ _ _ _ _ _ _ _).trans ?_ | with_reducible refine (State.releaseHolders_ownIn _ _ _ _ _ _).trans ?_ | with_reducible refine (State.wait_ownIn _ _ _ _).trans ?_ | with_reducible refine (hgo _).trans ?_ | dsimp only | split)

theorem State.pending_ownIn (s : State) (z : Alu) (old : Group) (lanes : List Nat) (flags : W32) (trap : Option (Trap × List Nat)) (g0 : Nat) : ownIn (State.pending s z old lanes flags trap).groups g0 = ownIn s.groups g0 := by
  unfold State.pending
  repeat' (first | with_reducible rfl | intro _ | with_reducible refine (foldl_ownIn _ _ _ _ ?_).trans ?_ | with_reducible refine (State.mapLanes_ownIn _ _ _ _ _).trans ?_ | with_reducible refine (State.updCore_ownIn _ _ _ _).trans ?_ | dsimp only | split)

theorem State.alu_ownIn (s : State) (z : Alu) (g0 : Nat) : ownIn (State.alu s z).groups g0 = ownIn s.groups g0 := by
  unfold State.alu
  repeat' (first | with_reducible rfl | intro _ | with_reducible refine (foldl_ownIn _ _ _ _ ?_).trans ?_ | with_reducible refine (State.complete_ownIn _ _ _ _ _).trans ?_ | with_reducible refine (State.fault_ownIn _ _ _ _ _ _).trans ?_ | with_reducible refine (State.mapLanes_ownIn _ _ _ _ _).trans ?_ | with_reducible refine (State.pending_ownIn _ _ _ _ _ _ _).trans ?_ | with_reducible refine (State.releaseHolders_ownIn _ _ _ _ _ _).trans ?_ | with_reducible refine (State.warn_ownIn _ _ _).trans ?_ | dsimp only | split)

theorem State.acquireL1_ownIn (s : State) (core scope : Nat) (teamCores : Nat) (g0 : Nat) : ownIn (State.acquireL1 s core scope teamCores).groups g0 = ownIn s.groups g0 := congrArg (fun m => ownIn m g0) (State.acquireL1_groups s core scope teamCores)

theorem State.updTeam_ownIn (s : State) (x : Group) (f : Team → Team) (g0 : Nat) : ownIn (State.updTeam s x f).groups g0 = ownIn s.groups g0 := congrArg (fun m => ownIn m g0) (State.updTeam_groups s x f)

theorem State.checkTeam_ownIn (s : State) (g : Nat) (g0 : Nat) : ownIn (State.checkTeam s g).groups g0 = ownIn s.groups g0 := congrArg (fun m => ownIn m g0) (State.checkTeam_groups s g)

theorem State.checkGrid_ownIn (s : State) (grid : Nat) (g0 : Nat) : ownIn (State.checkGrid s grid).groups g0 = ownIn s.groups g0 := congrArg (fun m => ownIn m g0) (State.checkGrid_groups s grid)

theorem State.pushStore_ownIn (s : State) (core : Nat) (t : Store) (g0 : Nat) : ownIn (State.pushStore s core t).groups g0 = ownIn s.groups g0 := congrArg (fun m => ownIn m g0) (State.pushStore_groups s core t)

theorem State.portTake_ownIn (s : State) (ctx core n : Nat) (a : Ask) (g0 : Nat) : ownIn (State.portTake s ctx core n a).groups g0 = ownIn s.groups g0 := congrArg (fun m => ownIn m g0) (State.portTake_groups s ctx core n a)

theorem State.portQueue_ownIn (s : State) (ctx core n : Nat) (a : Ask) (g0 : Nat) : ownIn (State.portQueue s ctx core n a).groups g0 = ownIn s.groups g0 := congrArg (fun m => ownIn m g0) (State.portQueue_groups s ctx core n a)

theorem State.port_ownIn (s : State) (ctx core n : Nat) (a : Ask) (g0 : Nat) : ownIn (s.port ctx core n a).1.groups g0 = ownIn s.groups g0 :=
  congrArg (fun m => ownIn m g0) (State.port_groups s ctx core n a)

theorem State.reportDead_ownIn (s : State) (ctx core : Nat) (lines : List Nat) (g0 : Nat) : ownIn (State.reportDead s ctx core lines).groups g0 = ownIn s.groups g0 := congrArg (fun m => ownIn m g0) (State.reportDead_groups s ctx core lines)

theorem State.dropRequests_ownIn (s : State) (ctx core : Nat) (g0 : Nat) : ownIn (State.dropRequests s ctx core).groups g0 = ownIn s.groups g0 := congrArg (fun m => ownIn m g0) (State.dropRequests_groups s ctx core)

theorem State.send_ownIn (s : State) (ctx core n : Nat) (a : Ask) (go : State → State) (g0 : Nat) (hgo : ∀ x0, ownIn (go x0).groups g0 = ownIn x0.groups g0) : ownIn (State.send s ctx core n a go).groups g0 = ownIn s.groups g0 := by
  unfold State.send
  repeat' (first | with_reducible rfl | intro _ | with_reducible refine (foldl_ownIn _ _ _ _ ?_).trans ?_ | with_reducible refine (State.dropRequests_ownIn _ _ _ _).trans ?_ | with_reducible refine (State.port_ownIn _ _ _ _ _ _).trans ?_ | with_reducible refine (hgo _).trans ?_ | dsimp only | split)

theorem State.throughPort_ownIn (s : State) (ctx core n : Nat) (go : State → State) (g0 : Nat) (hgo : ∀ x0, ownIn (go x0).groups g0 = ownIn x0.groups g0) : ownIn (State.throughPort s ctx core n go).groups g0 = ownIn s.groups g0 := by
  unfold State.throughPort
  repeat' (first | with_reducible rfl | intro _ | with_reducible refine (foldl_ownIn _ _ _ _ ?_).trans ?_ | with_reducible refine (State.send_ownIn _ _ _ _ _ _ _ ?_).trans ?_ | with_reducible refine (hgo _).trans ?_ | dsimp only | split)

theorem State.waitReplay_ownIn (s : State) (ctx : Nat) (addrs : List (Nat × W64)) (faulting : List Nat) (g0 : Nat) : ownIn (State.waitReplay s ctx addrs faulting).groups g0 = ownIn s.groups g0 := by
  unfold State.waitReplay
  repeat' (first | with_reducible rfl | intro _ | with_reducible refine (foldl_ownIn _ _ _ _ ?_).trans ?_ | with_reducible refine (State.askSupervisor_ownIn _ _ _ _).trans ?_ | with_reducible refine (State.wait_ownIn _ _ _ _).trans ?_ | dsimp only | split)

theorem State.claimScratch_ownIn (s : State) (core ctx : Nat) (keep : List Nat) (g0 : Nat) : ownIn (State.claimScratch s core ctx keep).groups g0 = ownIn s.groups g0 := congrArg (fun m => ownIn m g0) (State.claimScratch_groups s core ctx keep)

theorem State.recallScratch_ownIn (s : State) (core ctx off n : Nat) (g0 : Nat) : ownIn (State.recallScratch s core ctx off n).groups g0 = ownIn s.groups g0 := congrArg (fun m => ownIn m g0) (State.recallScratch_groups s core ctx off n)

theorem State.patchL1_ownIn (s : State) (core a : Nat) (data : List Byte) (poison : Bool) (g0 : Nat) : ownIn (State.patchL1 s core a data poison).groups g0 = ownIn s.groups g0 := congrArg (fun m => ownIn m g0) (State.patchL1_groups s core a data poison)

theorem State.sample_ownIn (s : State) (core g la : Nat) (g0 : Nat) : ownIn (State.sample s core g la).groups g0 = ownIn s.groups g0 := by
  unfold State.sample
  repeat' (first | with_reducible rfl | intro _ | with_reducible refine (foldl_ownIn _ _ _ _ ?_).trans ?_ | with_reducible refine (State.updGroup_ownIn _ _ _ _ (by first | exact fun _ => rfl | (intro x; dsimp only; (repeat' split) <;> rfl))).trans ?_ | dsimp only | split)

theorem State.install_ownIn (s : State) (core la : Nat) (l : L1Line) (g pol : Nat) (g0 : Nat) : ownIn (State.install s core la l g pol).groups g0 = ownIn s.groups g0 := by
  unfold State.install
  repeat' (first | with_reducible rfl | intro _ | with_reducible refine (foldl_ownIn _ _ _ _ ?_).trans ?_ | with_reducible refine (State.keep_ownIn _ _ _ _ _).trans ?_ | with_reducible refine (State.updCore_ownIn _ _ _ _).trans ?_ | with_reducible refine (State.updGroup_ownIn _ _ _ _ (by first | exact fun _ => rfl | (intro x; dsimp only; (repeat' split) <;> rfl))).trans ?_ | dsimp only | split)

theorem State.allocL1_ownIn (s : State) (core la g pol : Nat) (l1 : Bool) (g0 : Nat) : ownIn (State.allocL1 s core la g pol l1).groups g0 = ownIn s.groups g0 := by
  unfold State.allocL1
  repeat' (first | with_reducible rfl | intro _ | with_reducible refine (foldl_ownIn _ _ _ _ ?_).trans ?_ | with_reducible refine (State.install_ownIn _ _ _ _ _ _ _).trans ?_ | with_reducible refine (State.updCore_ownIn _ _ _ _).trans ?_ | dsimp only | split)

theorem State.plain_ownIn (s : State) (i : Instr) (go : Eff → State → State) (g0 : Nat) (hgo : ∀ x0 x1, ownIn (go x0 x1).groups g0 = ownIn x1.groups g0) : ownIn (State.plain s i go).groups g0 = ownIn s.groups g0 := by
  unfold State.plain
  repeat' (first | with_reducible rfl | intro _ | with_reducible refine (foldl_ownIn _ _ _ _ ?_).trans ?_ | with_reducible refine (State.warn_ownIn _ _ _).trans ?_ | with_reducible refine (hgo _ _).trans ?_ | dsimp only | split)

theorem State.only_ownIn (s : State) (i : Instr) (g0 : Nat) : ownIn (State.only s i).groups g0 = ownIn s.groups g0 := by
  unfold State.only
  repeat' (first | with_reducible rfl | intro _ | with_reducible refine (foldl_ownIn _ _ _ _ ?_).trans ?_ | with_reducible refine (State.complete_ownIn _ _ _ _ _).trans ?_ | with_reducible refine (State.plain_ownIn _ _ _ _ ?_).trans ?_ | dsimp only | split)

theorem State.jump_ownIn (s : State) (target : Nat → Fibre → W64) (g0 : Nat) : ownIn (State.jump s target).groups g0 = ownIn s.groups g0 := by
  unfold State.jump
  repeat' (first | with_reducible rfl | intro _ | with_reducible refine (foldl_ownIn _ _ _ _ ?_).trans ?_ | with_reducible refine (State.mapLanes_ownIn _ _ _ _ _).trans ?_ | with_reducible refine (State.wait_ownIn _ _ _ _).trans ?_ | dsimp only | split)

theorem State.checkTarget_ownIn (s : State) (f : BitVec 3) (a : BitVec 7) (go : State → State) (g0 : Nat) (hgo : ∀ x0, ownIn (go x0).groups g0 = ownIn x0.groups g0) : ownIn (State.checkTarget s f a go).groups g0 = ownIn s.groups g0 := by
  unfold State.checkTarget
  repeat' (first | with_reducible rfl | intro _ | with_reducible refine (foldl_ownIn _ _ _ _ ?_).trans ?_ | with_reducible refine (State.control_ownIn _ _ _ _ _ ?_).trans ?_ | with_reducible refine (State.precise_ownIn _ _ _ _ _ _ _ _).trans ?_ | with_reducible refine (hgo _).trans ?_ | dsimp only | split)

theorem State.call_ownIn (s : State) (target : Nat → W64) (last : State → State) (g0 : Nat) (hlast : ∀ x0, ownIn (last x0).groups g0 = ownIn x0.groups g0) : ownIn (State.call s target last).groups g0 = ownIn s.groups g0 := by
  unfold State.call
  repeat' (first | with_reducible rfl | intro _ | with_reducible refine (foldl_ownIn _ _ _ _ ?_).trans ?_ | with_reducible refine (State.fillTlb_ownIn _ _ _ _ _).trans ?_ | with_reducible refine (State.forget_ownIn _ _ _ _).trans ?_ | with_reducible refine (State.mapLanes_ownIn _ _ _ _ _).trans ?_ | with_reducible refine (State.precise_ownIn _ _ _ _ _ _ _ _).trans ?_ | with_reducible refine (State.pushStore_ownIn _ _ _ _).trans ?_ | with_reducible refine (State.sample_ownIn _ _ _ _ _).trans ?_ | with_reducible refine (State.wait_ownIn _ _ _ _).trans ?_ | with_reducible refine (State.waitReplay_ownIn _ _ _ _ _).trans ?_ | with_reducible refine (State.walkPoison_ownIn _ _ _ _ _ _).trans ?_ | with_reducible refine (hlast _).trans ?_ | dsimp only | split)

theorem State.fillL1_ownIn (s : State) (core g la : Nat) (p : Page) (g0 : Nat) : ownIn (State.fillL1 s core g la p).groups g0 = ownIn s.groups g0 := by
  unfold State.fillL1
  repeat' (first | with_reducible rfl | intro _ | with_reducible refine (foldl_ownIn _ _ _ _ ?_).trans ?_ | with_reducible refine (State.allocL1_ownIn _ _ _ _ _ _ _).trans ?_ | with_reducible refine (State.countPacket_ownIn _ _ _ _).trans ?_ | with_reducible refine (State.readLine_ownIn _ _ _ _ _ _ _).trans ?_ | with_reducible refine (State.sample_ownIn _ _ _ _ _).trans ?_ | dsimp only | split)

theorem State.releaseJunction_ownIn (s : State) (g : Nat) (pc : W64) (g0 : Nat) : ownIn (State.releaseJunction s g pc).groups g0 = ownIn s.groups g0 := by
  unfold State.releaseJunction
  repeat' (first | with_reducible rfl | intro _ | with_reducible refine (foldl_ownIn _ _ _ _ ?_).trans ?_ | with_reducible refine (State.mapLanes_ownIn _ _ _ _ _).trans ?_ | dsimp only | split)

theorem State.illegalHere_ownIn (s : State) (info : Nat) (g0 : Nat) : ownIn (State.illegalHere s info).groups g0 = ownIn s.groups g0 := by
  unfold State.illegalHere
  repeat' (first | with_reducible rfl | intro _ | with_reducible refine (foldl_ownIn _ _ _ _ ?_).trans ?_ | with_reducible refine (State.precise_ownIn _ _ _ _ _ _ _ _).trans ?_ | dsimp only | split)

theorem State.copyHolders_ownIn (s : State) (core g uid new : Nat) (g0 : Nat) : ownIn (State.copyHolders s core g uid new).groups g0 = ownIn s.groups g0 := congrArg (fun m => ownIn m g0) (State.copyHolders_groups s core g uid new)

theorem State.forkOne_ownIn (s : State) (f : BitVec 3) (d a b : BitVec 7) (x : Group) (lane : Nat) (g0 : Nat) : ownIn (State.forkOne s f d a b x lane).groups g0 = ownIn s.groups g0 := by
  unfold State.forkOne
  repeat' (first | with_reducible rfl | intro _ | with_reducible refine (foldl_ownIn _ _ _ _ ?_).trans ?_ | with_reducible refine (State.copyHolders_ownIn _ _ _ _ _ _).trans ?_ | with_reducible refine (State.releaseHolders_ownIn _ _ _ _ _ _).trans ?_ | with_reducible refine (State.updFibre_ownIn _ _ _ _ _).trans ?_ | with_reducible refine (State.updGroup_ownIn _ _ _ _ (by first | exact fun _ => rfl | (intro x; dsimp only; (repeat' split) <;> rfl))).trans ?_ | dsimp only | split)

theorem State.zeroMasked_ownIn (s : State) (e : Eff) (act : List Nat) (d : Dst) (old : Group) (g0 : Nat) : ownIn (State.zeroMasked s e act d old).groups g0 = ownIn s.groups g0 := by
  unfold State.zeroMasked
  repeat' (first | with_reducible rfl | intro _ | with_reducible refine (foldl_ownIn _ _ _ _ ?_).trans ?_ | with_reducible refine (State.mapLanes_ownIn _ _ _ _ _).trans ?_ | with_reducible refine (State.releaseHolders_ownIn _ _ _ _ _ _).trans ?_ | dsimp only | split)

theorem State.window_ownIn (s : State) (e : Eff) (base : Fibre → Int) (req : Fibre → W64) (g0 : Nat) : ownIn (State.window s e base req).groups g0 = ownIn s.groups g0 := by
  unfold State.window
  repeat' (first | with_reducible rfl | intro _ | with_reducible refine (foldl_ownIn _ _ _ _ ?_).trans ?_ | with_reducible refine (State.complete_ownIn _ _ _ _ _).trans ?_ | with_reducible refine (State.mapLanes_ownIn _ _ _ _ _).trans ?_ | with_reducible refine (State.precise_ownIn _ _ _ _ _ _ _ _).trans ?_ | dsimp only | split)

theorem State.setDest_ownIn (s : State) (d : Dst) (v : Nat → Fibre → Val) (g0 : Nat) : ownIn (State.setDest s d v).groups g0 = ownIn s.groups g0 := by
  unfold State.setDest
  repeat' (first | with_reducible rfl | intro _ | with_reducible refine (foldl_ownIn _ _ _ _ ?_).trans ?_ | with_reducible refine (State.mapLanes_ownIn _ _ _ _ _).trans ?_ | with_reducible refine (State.releaseHolders_ownIn _ _ _ _ _ _).trans ?_ | dsimp only | split)

theorem State.freezeTiles_ownIn (s : State) (ctx core : Nat) (g0 : Nat) : ownIn (State.freezeTiles s ctx core).groups g0 = ownIn s.groups g0 := congrArg (fun m => ownIn m g0) (State.freezeTiles_groups s ctx core)

theorem State.writeStops_ownIn (s : State) (ctx : Nat) (l : List Stop) (first : Nat) (g0 : Nat) : ownIn (State.writeStops s ctx l first).groups g0 = ownIn s.groups g0 := congrArg (fun m => ownIn m g0) (State.writeStops_groups s ctx l first)

theorem State.updLoad_ownIn (s : State) (core id : Nat) (f : Load → Load) (g0 : Nat) : ownIn (State.updLoad s core id f).groups g0 = ownIn s.groups g0 := congrArg (fun m => ownIn m g0) (State.updLoad_groups s core id f)

theorem State.updLane_ownIn (s : State) (core id lane : Nat) (f : LaneLoad → LaneLoad) (g0 : Nat) : ownIn (State.updLane s core id lane f).groups g0 = ownIn s.groups g0 := congrArg (fun m => ownIn m g0) (State.updLane_groups s core id lane f)

theorem State.landReg_ownIn (s : State) (g lane uid : Nat) (r : Option Reg) (form : LoadForm) (v : Val) (g0 : Nat) : ownIn (State.landReg s g lane uid r form v).groups g0 = ownIn s.groups g0 := by
  unfold State.landReg
  repeat' (first | with_reducible rfl | intro _ | with_reducible refine (foldl_ownIn _ _ _ _ ?_).trans ?_ | with_reducible refine (State.releaseHolders_ownIn _ _ _ _ _ _).trans ?_ | with_reducible refine (State.updFibre_ownIn _ _ _ _ _).trans ?_ | dsimp only | split)

theorem State.updateGuess_ownIn (s : State) (core : Nat) (l : Load) (g0 : Nat) : ownIn (State.updateGuess s core l).groups g0 = ownIn s.groups g0 := congrArg (fun m => ownIn m g0) (State.updateGuess_groups s core l)

theorem State.takeTicket_ownIn (s : State) (core id : Nat) (l : Load) (lane : Nat) (e : LaneLoad) (g0 : Nat) : ownIn (State.takeTicket s core id l lane e).groups g0 = ownIn s.groups g0 := by
  unfold State.takeTicket
  repeat' (first | with_reducible rfl | intro _ | with_reducible refine (foldl_ownIn _ _ _ _ ?_).trans ?_ | with_reducible refine (State.landReg_ownIn _ _ _ _ _ _ _ _).trans ?_ | with_reducible refine (State.updCore_ownIn _ _ _ _).trans ?_ | with_reducible refine (State.updLane_ownIn _ _ _ _ _ _).trans ?_ | dsimp only | split)

theorem State.truthFor_ownIn (s : State) (core ticket v : Nat) (p : Bool) (g0 : Nat) : ownIn (State.truthFor s core ticket v p).groups g0 = ownIn s.groups g0 := by
  unfold State.truthFor
  repeat' (first | with_reducible rfl | intro _ | with_reducible refine (foldl_ownIn _ _ _ _ ?_).trans ?_ | with_reducible refine (State.mapLanes_ownIn _ _ _ _ _).trans ?_ | with_reducible refine (State.updCore_ownIn _ _ _ _).trans ?_ | dsimp only | split)

theorem State.unhookAfter_ownIn (s : State) (core g uid seq : Nat) (g0 : Nat) : ownIn (State.unhookAfter s core g uid seq).groups g0 = ownIn s.groups g0 := congrArg (fun m => ownIn m g0) (State.unhookAfter_groups s core g uid seq)

theorem State.unhook_ownIn (s : State) (core la uid : Nat) (g0 : Nat) : ownIn (State.unhook s core la uid).groups g0 = ownIn s.groups g0 := congrArg (fun m => ownIn m g0) (State.unhook_groups s core la uid)

theorem State.memFault_ownIn (s : State) (ctx eng info lane sub : Nat) (va : W64) (g0 : Nat) : ownIn (State.memFault s ctx eng info lane sub va).groups g0 = ownIn s.groups g0 := by
  unfold State.memFault
  repeat' (first | with_reducible rfl | intro _ | with_reducible refine (foldl_ownIn _ _ _ _ ?_).trans ?_ | with_reducible refine (State.forget_ownIn _ _ _ _).trans ?_ | with_reducible refine (State.precise_ownIn _ _ _ _ _ _ _ _).trans ?_ | dsimp only | split)

theorem State.askFills_ownIn (s : State) (core id : Nat) (g0 : Nat) : ownIn (State.askFills s core id).groups g0 = ownIn s.groups g0 := by
  unfold State.askFills
  repeat' (first | with_reducible rfl | intro _ | with_reducible refine (foldl_ownIn _ _ _ _ ?_).trans ?_ | with_reducible refine (State.install_ownIn _ _ _ _ _ _ _).trans ?_ | with_reducible refine (State.sample_ownIn _ _ _ _ _).trans ?_ | with_reducible refine (State.updCore_ownIn _ _ _ _).trans ?_ | with_reducible refine (State.updLane_ownIn _ _ _ _ _ _).trans ?_ | dsimp only | split)

theorem State.maskedOff_ownIn (s : State) (e : Eff) (act : List Nat) (d : Dst) (old : Group) (g0 : Nat) : ownIn (State.maskedOff s e act d old).groups g0 = ownIn s.groups g0 := by
  unfold State.maskedOff
  repeat' (first | with_reducible rfl | intro _ | with_reducible refine (foldl_ownIn _ _ _ _ ?_).trans ?_ | with_reducible refine (State.mapLanes_ownIn _ _ _ _ _).trans ?_ | with_reducible refine (State.zeroMasked_ownIn _ _ _ _ _ _).trans ?_ | dsimp only | split)

theorem State.accept_ownIn (s : State) (g uid : Nat) (regs : List Reg) (g0 : Nat) : ownIn (State.accept s g uid regs).groups g0 = ownIn s.groups g0 := congrArg (fun m => ownIn m g0) (State.accept_groups s g uid regs)

theorem State.testTags_ownIn (s : State) (i : Instr) (d a b : BitVec 7) (f : Val → Bool) (g0 : Nat) : ownIn (State.testTags s i d a b f).groups g0 = ownIn s.groups g0 := by
  unfold State.testTags
  repeat' (first | with_reducible rfl | intro _ | with_reducible refine (foldl_ownIn _ _ _ _ ?_).trans ?_ | with_reducible refine (State.complete_ownIn _ _ _ _ _).trans ?_ | with_reducible refine (State.mapLanes_ownIn _ _ _ _ _).trans ?_ | with_reducible refine (State.plain_ownIn _ _ _ _ ?_).trans ?_ | dsimp only | split)

theorem State.demand_ownIn (s : State) (e : Eff) (a sel : BitVec 7) (blocks : Bool) (finish : List Nat → State → State) (g0 : Nat) (hfinish : ∀ x0 x1, ownIn (finish x0 x1).groups g0 = ownIn x1.groups g0) : ownIn (State.demand s e a sel blocks finish).groups g0 = ownIn s.groups g0 := by
  unfold State.demand
  repeat' (first | with_reducible rfl | intro _ | with_reducible refine (foldl_ownIn _ _ _ _ ?_).trans ?_ | with_reducible refine (State.narrow_ownIn _ _ _).trans ?_ | with_reducible refine (State.wait_ownIn _ _ _ _).trans ?_ | with_reducible refine (hfinish _ _).trans ?_ | dsimp only | split)

theorem State.finishLanes_ownIn (s : State) (lanes : List Nat) (g0 : Nat) : ownIn (State.finishLanes s lanes).groups g0 = ownIn s.groups g0 := by
  unfold State.finishLanes
  repeat' (first | with_reducible rfl | intro _ | with_reducible refine (foldl_ownIn _ _ _ _ ?_).trans ?_ | with_reducible refine (State.advance_ownIn _ _ _).trans ?_ | with_reducible refine (State.settleGm_ownIn _ _ _).trans ?_ | dsimp only | split)

theorem State.writeTruth_ownIn (s : State) (lane : Nat) (regs : List Reg) (g0 : Nat) : ownIn (State.writeTruth s lane regs).groups g0 = ownIn s.groups g0 := by
  unfold State.writeTruth
  repeat' (first | with_reducible rfl | intro _ | with_reducible refine (foldl_ownIn _ _ _ _ ?_).trans ?_ | with_reducible refine (State.accept_ownIn _ _ _ _ _).trans ?_ | with_reducible refine (State.mapLanes_ownIn _ _ _ _ _).trans ?_ | dsimp only | split)

theorem State.check_ownIn (s : State) (cause sub info eng : Nat) (lanes : List Nat) (go : State → State) (g0 : Nat) (hgo : ∀ x0, ownIn (go x0).groups g0 = ownIn x0.groups g0) : ownIn (State.check s cause sub info eng lanes go).groups g0 = ownIn s.groups g0 := by
  unfold State.check
  repeat' (first | with_reducible rfl | intro _ | with_reducible refine (foldl_ownIn _ _ _ _ ?_).trans ?_ | with_reducible refine (State.precise_ownIn _ _ _ _ _ _ _ _).trans ?_ | with_reducible refine (hgo _).trans ?_ | dsimp only | split)

theorem State.scratchWrite_ownIn (s : State) (core ctx off : Nat) (data : List Byte) (poison : Bool) (g0 : Nat) : ownIn (State.scratchWrite s core ctx off data poison).groups g0 = ownIn s.groups g0 := congrArg (fun m => ownIn m g0) (State.scratchWrite_groups s core ctx off data poison)

theorem State.dropHost_ownIn (s : State) (a n : Nat) (g0 : Nat) : ownIn (State.dropHost s a n).groups g0 = ownIn s.groups g0 := congrArg (fun m => ownIn m g0) (State.dropHost_groups s a n)

theorem State.writeBackLine_ownIn (s : State) (core la : Nat) (drop' : Bool) (g0 : Nat) : ownIn (State.writeBackLine s core la drop').groups g0 = ownIn s.groups g0 := congrArg (fun m => ownIn m g0) (State.writeBackLine_groups s core la drop')

theorem State.baseChecks_ownIn (s : State) (act : List Nat) (addr : Nat → Val) (go : State → State) (g0 : Nat) (hgo : ∀ x0, ownIn (go x0).groups g0 = ownIn x0.groups g0) : ownIn (State.baseChecks s act addr go).groups g0 = ownIn s.groups g0 := by
  unfold State.baseChecks
  repeat' (first | with_reducible rfl | intro _ | with_reducible refine (foldl_ownIn _ _ _ _ ?_).trans ?_ | with_reducible refine (State.precise_ownIn _ _ _ _ _ _ _ _).trans ?_ | with_reducible refine (hgo _).trans ?_ | dsimp only | split)

theorem State.updAtomic_ownIn (s : State) (core id : Nat) (f : Atomic → Atomic) (g0 : Nat) : ownIn (State.updAtomic s core id f).groups g0 = ownIn s.groups g0 := congrArg (fun m => ownIn m g0) (State.updAtomic_groups s core id f)

theorem State.unlock_ownIn (s : State) (g lane uid : Nat) (regs : List Reg) (g0 : Nat) : ownIn (State.unlock s g lane uid regs).groups g0 = ownIn s.groups g0 := by
  unfold State.unlock
  repeat' (first | with_reducible rfl | intro _ | with_reducible refine (foldl_ownIn _ _ _ _ ?_).trans ?_ | with_reducible refine (State.updFibre_ownIn _ _ _ _ _).trans ?_ | dsimp only | split)

theorem State.updSlot_ownIn (s : State) (id : Nat) (f : Slot → Slot) (g0 : Nat) : ownIn (State.updSlot s id f).groups g0 = ownIn s.groups g0 := congrArg (fun m => ownIn m g0) (State.updSlot_groups s id f)

theorem State.unbind_ownIn (s : State) (v : Slot) (g0 : Nat) : ownIn (State.unbind s v).groups g0 = ownIn s.groups g0 := congrArg (fun m => ownIn m g0) (State.unbind_groups s v)

theorem State.reapSlots_ownIn (s : State) (g0 : Nat) : ownIn (State.reapSlots s).groups g0 = ownIn s.groups g0 := congrArg (fun m => ownIn m g0) (State.reapSlots_groups s)

theorem State.arriving_ownIn (s : State) (bar : Bar) (d : Nat) (g0 : Nat) : ownIn (State.arriving s bar d).groups g0 = ownIn s.groups g0 := by
  unfold State.arriving
  repeat' (first | with_reducible rfl | intro _ | with_reducible refine (foldl_ownIn _ _ _ _ ?_).trans ?_ | with_reducible refine (State.wait_ownIn _ _ _ _).trans ?_ | dsimp only | split)

theorem State.releaseCore_ownIn (s : State) (grid core : Nat) (g0 : Nat) : ownIn (State.releaseCore s grid core).groups g0 = ownIn s.groups g0 := by
  unfold State.releaseCore
  repeat' (first | with_reducible rfl | intro _ | with_reducible refine (foldl_ownIn _ _ _ _ ?_).trans ?_ | with_reducible refine (State.acquireL1_ownIn _ _ _ _ _).trans ?_ | with_reducible refine (State.mapLanes_ownIn _ _ _ _ _).trans ?_ | with_reducible refine (State.wait_ownIn _ _ _ _).trans ?_ | dsimp only | split)

theorem State.writeQueue_ownIn (s : State) (vf q field value : Nat) (g0 : Nat) : ownIn (State.writeQueue s vf q field value).groups g0 = ownIn s.groups g0 := congrArg (fun m => ownIn m g0) (State.writeQueue_groups s vf q field value)

theorem State.readTail_ownIn (s : State) (vf q : Nat) (g0 : Nat) : ownIn (State.readTail s vf q).groups g0 = ownIn s.groups g0 := congrArg (fun m => ownIn m g0) (State.readTail_groups s vf q)

theorem State.released_ownIn (s : State) (level : Nat) (lanes : List Nat) (go : State → State) (g0 : Nat) (hgo : ∀ x0, ownIn (go x0).groups g0 = ownIn x0.groups g0) : ownIn (State.released s level lanes go).groups g0 = ownIn s.groups g0 := by
  unfold State.released
  repeat' (first | with_reducible rfl | intro _ | with_reducible refine (foldl_ownIn _ _ _ _ ?_).trans ?_ | with_reducible refine (State.mapLanes_ownIn _ _ _ _ _).trans ?_ | with_reducible refine (State.wait_ownIn _ _ _ _).trans ?_ | with_reducible refine (hgo _).trans ?_ | dsimp only | split)

theorem State.claimRows_ownIn (s : State) (core track g : Nat) (g0 : Nat) : ownIn (State.claimRows s core track g).groups g0 = ownIn s.groups g0 := by
  unfold State.claimRows
  repeat' (first | with_reducible rfl | intro _ | with_reducible refine (foldl_ownIn _ _ _ _ ?_).trans ?_ | with_reducible refine (State.updGroup_ownIn _ _ _ _ (by first | exact fun _ => rfl | (intro x; dsimp only; (repeat' split) <;> rfl))).trans ?_ | dsimp only | split)

theorem State.recallRows_ownIn (s : State) (g : Nat) (g0 : Nat) : ownIn (State.recallRows s g).groups g0 = ownIn s.groups g0 := by
  unfold State.recallRows
  repeat' (first | with_reducible rfl | intro _ | with_reducible refine (foldl_ownIn _ _ _ _ ?_).trans ?_ | with_reducible refine (State.claimRows_ownIn _ _ _ _ _).trans ?_ | with_reducible refine (State.updGroup_ownIn _ _ _ _ (by first | exact fun _ => rfl | (intro x; dsimp only; (repeat' split) <;> rfl))).trans ?_ | dsimp only | split)

theorem State.acquireLine_ownIn (s : State) (ctx core la mtype scope : Nat) (l2 conf : Bool) (g0 : Nat) : ownIn (s.acquireLine ctx core la mtype scope l2 conf).1.groups g0 = ownIn s.groups g0 :=
  congrArg (fun m => ownIn m g0) (State.acquireLine_groups s ctx core la mtype scope l2 conf)

theorem State.fence_ownIn (s : State) (e : Eff) (kind scope : Nat) (range : Fibre → Option (W64 × Nat)) (g0 : Nat) : ownIn (State.fence s e kind scope range).groups g0 = ownIn s.groups g0 := by
  unfold State.fence
  repeat' (first | with_reducible rfl | intro _ | with_reducible refine (foldl_ownIn _ _ _ _ ?_).trans ?_ | with_reducible refine (State.acquireL1_ownIn _ _ _ _ _).trans ?_ | with_reducible refine (State.complete_ownIn _ _ _ _ _).trans ?_ | with_reducible refine (State.mapLanes_ownIn _ _ _ _ _).trans ?_ | with_reducible refine (State.narrow_ownIn _ _ _).trans ?_ | with_reducible refine (State.wait_ownIn _ _ _ _).trans ?_ | dsimp only | split)

theorem State.controlUnit_ownIn (s : State) (eng : Nat) (ops : Fibre → List Ctl) (go : State → State) (g0 : Nat) (hgo : ∀ x0, ownIn (go x0).groups g0 = ownIn x0.groups g0) : ownIn (State.controlUnit s eng ops go).groups g0 = ownIn s.groups g0 := by
  unfold State.controlUnit
  repeat' (first | with_reducible rfl | intro _ | with_reducible refine (foldl_ownIn _ _ _ _ ?_).trans ?_ | with_reducible refine (State.mapLanes_ownIn _ _ _ _ _).trans ?_ | with_reducible refine (State.precise_ownIn _ _ _ _ _ _ _ _).trans ?_ | with_reducible refine (State.releaseHolders_ownIn _ _ _ _ _ _).trans ?_ | with_reducible refine (State.wait_ownIn _ _ _ _).trans ?_ | with_reducible refine (hgo _).trans ?_ | dsimp only | split)

theorem State.fetchSegs_ownIn (s : State) (core : Nat) (l : List Seg) (g0 : Nat) : ownIn (State.fetchSegs s core l).groups g0 = ownIn s.groups g0 := congrArg (fun m => ownIn m g0) (State.fetchSegs_groups s core l)

theorem State.reportSegs_ownIn (s : State) (ctx core : Nat) (write : Bool) (l : List Seg) (g0 : Nat) : ownIn (State.reportSegs s ctx core write l).groups g0 = ownIn s.groups g0 := congrArg (fun m => ownIn m g0) (State.reportSegs_groups s ctx core write l)

theorem State.updCopy_ownIn (s : State) (core id : Nat) (f : Copy → Copy) (g0 : Nat) : ownIn (State.updCopy s core id f).groups g0 = ownIn s.groups g0 := congrArg (fun m => ownIn m g0) (State.updCopy_groups s core id f)

theorem State.publish_ownIn (s : State) (core : Nat) (lines : List Nat) (g0 : Nat) : ownIn (State.publish s core lines).groups g0 = ownIn s.groups g0 := congrArg (fun m => ownIn m g0) (State.publish_groups s core lines)

theorem State.handleFault_ownIn (s : State) (sub : Nat) (c : HandleCheck) (g0 : Nat) : ownIn (State.handleFault s sub c).groups g0 = ownIn s.groups g0 := by
  unfold State.handleFault
  repeat' (first | with_reducible rfl | intro _ | with_reducible refine (foldl_ownIn _ _ _ _ ?_).trans ?_ | with_reducible refine (State.precise_ownIn _ _ _ _ _ _ _ _).trans ?_ | dsimp only | split)

theorem State.checkHandles_ownIn (s : State) (checks : List HandleCheck) (go : State → State) (g0 : Nat) (hgo : ∀ x0, ownIn (go x0).groups g0 = ownIn x0.groups g0) : ownIn (State.checkHandles s checks go).groups g0 = ownIn s.groups g0 := by
  unfold State.checkHandles
  repeat' (first | with_reducible rfl | intro _ | with_reducible refine (foldl_ownIn _ _ _ _ ?_).trans ?_ | with_reducible refine (State.handleFault_ownIn _ _ _ _).trans ?_ | with_reducible refine (hgo _).trans ?_ | dsimp only | split)

theorem State.tileBase_ownIn (s : State) (b : BitVec 7) (off : W64) (rowBytes : Nat) (write : Bool) (go : W64 → W64 → State → State) (g0 : Nat) (hgo : ∀ x0 x1 x2, ownIn (go x0 x1 x2).groups g0 = ownIn x2.groups g0) : ownIn (State.tileBase s b off rowBytes write go).groups g0 = ownIn s.groups g0 := by
  unfold State.tileBase
  repeat' (first | with_reducible rfl | intro _ | with_reducible refine (foldl_ownIn _ _ _ _ ?_).trans ?_ | with_reducible refine (State.precise_ownIn _ _ _ _ _ _ _ _).trans ?_ | with_reducible refine (hgo _ _ _).trans ?_ | dsimp only | split)

theorem State.scratchBase_ownIn (s : State) (b : BitVec 7) (off : W64) (tag : Option Nat) (transposed write : Bool) (go : W64 → State → State) (g0 : Nat) (hgo : ∀ x0 x1, ownIn (go x0 x1).groups g0 = ownIn x1.groups g0) : ownIn (State.scratchBase s b off tag transposed write go).groups g0 = ownIn s.groups g0 := by
  unfold State.scratchBase
  repeat' (first | with_reducible rfl | intro _ | with_reducible refine (foldl_ownIn _ _ _ _ ?_).trans ?_ | with_reducible refine (State.precise_ownIn _ _ _ _ _ _ _ _).trans ?_ | with_reducible refine (hgo _ _).trans ?_ | dsimp only | split)

theorem State.warnGroup_ownIn (s : State) (g : Nat) (w : W32) (g0 : Nat) : ownIn (State.warnGroup s g w).groups g0 = ownIn s.groups g0 := by
  unfold State.warnGroup
  repeat' (first | with_reducible rfl | intro _ | with_reducible refine (foldl_ownIn _ _ _ _ ?_).trans ?_ | with_reducible refine (State.updGroup_ownIn _ _ _ _ (by first | exact fun _ => rfl | (intro x; dsimp only; (repeat' split) <;> rfl))).trans ?_ | with_reducible refine (State.warn_ownIn _ _ _).trans ?_ | dsimp only | split)

theorem State.clearMark_ownIn (s : State) (core la : Nat) (g0 : Nat) : ownIn (State.clearMark s core la).groups g0 = ownIn s.groups g0 := congrArg (fun m => ownIn m g0) (State.clearMark_groups s core la)

theorem State.recallTile_ownIn (s : State) (core ctx : Nat) (offs : List Nat) (g0 : Nat) : ownIn (State.recallTile s core ctx offs).groups g0 = ownIn s.groups g0 := congrArg (fun m => ownIn m g0) (State.recallTile_groups s core ctx offs)

theorem State.updQuarter_ownIn (s : State) (core id n : Nat) (f : Quarter → Quarter) (g0 : Nat) : ownIn (State.updQuarter s core id n f).groups g0 = ownIn s.groups g0 := congrArg (fun m => ownIn m g0) (State.updQuarter_groups s core id n f)

theorem State.thaw_ownIn (s : State) (ctx id n : Nat) (g0 : Nat) : ownIn (State.thaw s ctx id n).groups g0 = ownIn s.groups g0 := congrArg (fun m => ownIn m g0) (State.thaw_groups s ctx id n)

theorem State.dropTlb_ownIn (s : State) (ctx : Nat) (va : W64) (len : Nat) (g0 : Nat) : ownIn (State.dropTlb s ctx va len).groups g0 = ownIn s.groups g0 := congrArg (fun m => ownIn m g0) (State.dropTlb_groups s ctx va len)

theorem State.publishCopies_ownIn (s : State) (ctx : Nat) (g0 : Nat) : ownIn (State.publishCopies s ctx).groups g0 = ownIn s.groups g0 := congrArg (fun m => ownIn m g0) (State.publishCopies_groups s ctx)

theorem State.endCopies_ownIn (s : State) (ctx : Nat) (g0 : Nat) : ownIn (State.endCopies s ctx).groups g0 = ownIn s.groups g0 := congrArg (fun m => ownIn m g0) (State.endCopies_groups s ctx)

theorem State.flipCopies_ownIn (s : State) (ctx : Nat) (va : W64) (len : Nat) (on : Bool) (g0 : Nat) : ownIn (State.flipCopies s ctx va len on).groups g0 = ownIn s.groups g0 := congrArg (fun m => ownIn m g0) (State.flipCopies_groups s ctx va len on)

theorem State.evictLine_ownIn (s : State) (la : Nat) (g0 : Nat) : ownIn (State.evictLine s la).groups g0 = ownIn s.groups g0 := congrArg (fun m => ownIn m g0) (State.evictLine_groups s la)

theorem State.sealHost_ownIn (s : State) (key : Option Nat) (a n : Nat) (g0 : Nat) : ownIn (State.sealHost s key a n).groups g0 = ownIn s.groups g0 := congrArg (fun m => ownIn m g0) (State.sealHost_groups s key a n)

theorem State.answerHost_ownIn (s : State) (a n : Nat) (g0 : Nat) : ownIn (State.answerHost s a n).groups g0 = ownIn s.groups g0 := congrArg (fun m => ownIn m g0) (State.answerHost_groups s a n)

theorem State.reportLine_ownIn (s : State) (type la : Nat) (g0 : Nat) : ownIn (State.reportLine s type la).groups g0 = ownIn s.groups g0 := congrArg (fun m => ownIn m g0) (State.reportLine_groups s type la)

theorem State.loseLine_ownIn (s : State) (la : Nat) (g0 : Nat) : ownIn (State.loseLine s la).groups g0 = ownIn s.groups g0 := congrArg (fun m => ownIn m g0) (State.loseLine_groups s la)

theorem State.fabric_ownIn (s : State) (z : FabricIns) (go : Eff → State → State) (g0 : Nat) (hgo : ∀ x0 x1, ownIn (go x0 x1).groups g0 = ownIn x1.groups g0) : ownIn (State.fabric s z go).groups g0 = ownIn s.groups g0 := by
  unfold State.fabric
  repeat' (first | with_reducible rfl | intro _ | with_reducible refine (foldl_ownIn _ _ _ _ ?_).trans ?_ | with_reducible refine (State.controlUnit_ownIn _ _ _ _ _ ?_).trans ?_ | with_reducible refine (State.plain_ownIn _ _ _ _ ?_).trans ?_ | with_reducible refine (State.precise_ownIn _ _ _ _ _ _ _ _).trans ?_ | with_reducible refine (hgo _ _).trans ?_ | dsimp only | split)

theorem State.readAtIssue_ownIn (s : State) (va : W64) (n : Nat) (go : List Byte → State → State) (g0 : Nat) (hgo : ∀ x0 x1, ownIn (go x0 x1).groups g0 = ownIn x1.groups g0) : ownIn (State.readAtIssue s va n go).groups g0 = ownIn s.groups g0 := by
  unfold State.readAtIssue
  repeat' (first | with_reducible rfl | intro _ | with_reducible refine (foldl_ownIn _ _ _ _ ?_).trans ?_ | with_reducible refine (State.fillTlb_ownIn _ _ _ _ _).trans ?_ | with_reducible refine (State.memFault_ownIn _ _ _ _ _ _ _ _).trans ?_ | with_reducible refine (State.precise_ownIn _ _ _ _ _ _ _ _).trans ?_ | with_reducible refine (State.readLine_ownIn _ _ _ _ _ _ _).trans ?_ | with_reducible refine (State.reportReads_ownIn _ _ _ _ _).trans ?_ | with_reducible refine (State.throughPort_ownIn _ _ _ _ _ _ ?_).trans ?_ | with_reducible refine (State.waitReplay_ownIn _ _ _ _ _).trans ?_ | with_reducible refine (State.walkPoison_ownIn _ _ _ _ _ _).trans ?_ | with_reducible refine (hgo _ _).trans ?_ | dsimp only | split)

theorem State.writeStatus_ownIn (s : State) (ctx : Nat) (addr : W64) (status : Nat) (g0 : Nat) : ownIn (State.writeStatus s ctx addr status).groups g0 = ownIn s.groups g0 := congrArg (fun m => ownIn m g0) (State.writeStatus_groups s ctx addr status)

theorem State.endCall_ownIn (s : State) (id : Nat) (c : Call) (status : Nat) (g0 : Nat) : ownIn (State.endCall s id c status).groups g0 = ownIn s.groups g0 := congrArg (fun m => ownIn m g0) (State.endCall_groups s id c status)

theorem State.failCall_ownIn (s : State) (id : Nat) (c : Call) (cause sub info : Nat) (va : W64) (g0 : Nat) : ownIn (State.failCall s id c cause sub info va).groups g0 = ownIn s.groups g0 := by
  unfold State.failCall
  repeat' (first | with_reducible rfl | intro _ | with_reducible refine (foldl_ownIn _ _ _ _ ?_).trans ?_ | with_reducible refine (State.deferred_ownIn _ _ _ _ _ _ _ _ _ _).trans ?_ | with_reducible refine (State.endCall_ownIn _ _ _ _ _).trans ?_ | with_reducible refine (State.forget_ownIn _ _ _ _).trans ?_ | dsimp only | split)

theorem State.updCall_ownIn (s : State) (id : Nat) (f : Call → Call) (g0 : Nat) : ownIn (State.updCall s id f).groups g0 = ownIn s.groups g0 := congrArg (fun m => ownIn m g0) (State.updCall_groups s id f)

theorem State.callPiece_ownIn (s : State) (id : Nat) (c : Call) (kind : Kind) (p : W64 × Nat) (go : List Seg → State → State) (g0 : Nat) (hgo : ∀ x0 x1, ownIn (go x0 x1).groups g0 = ownIn x1.groups g0) : ownIn (State.callPiece s id c kind p go).groups g0 = ownIn s.groups g0 := by
  unfold State.callPiece
  repeat' (first | with_reducible rfl | intro _ | with_reducible refine (foldl_ownIn _ _ _ _ ?_).trans ?_ | with_reducible refine (State.askSupervisor_ownIn _ _ _ _).trans ?_ | with_reducible refine (State.failCall_ownIn _ _ _ _ _ _ _ _).trans ?_ | with_reducible refine (State.reportSegs_ownIn _ _ _ _ _ _).trans ?_ | with_reducible refine (State.reportWalk_ownIn _ _ _ _ _).trans ?_ | with_reducible refine (State.send_ownIn _ _ _ _ _ _ _ ?_).trans ?_ | with_reducible refine (hgo _ _).trans ?_ | dsimp only | split)

theorem State.readPiece_ownIn (s : State) (id : Nat) (c : Call) (g0 : Nat) : ownIn (State.readPiece s id c).groups g0 = ownIn s.groups g0 := by
  unfold State.readPiece
  repeat' (first | with_reducible rfl | intro _ | with_reducible refine (foldl_ownIn _ _ _ _ ?_).trans ?_ | with_reducible refine (State.callPiece_ownIn _ _ _ _ _ _ _ ?_).trans ?_ | with_reducible refine (State.fetchSegs_ownIn _ _ _ _).trans ?_ | with_reducible refine (State.updCall_ownIn _ _ _ _).trans ?_ | dsimp only | split)

theorem State.finishCall_ownIn (s : State) (id : Nat) (c : Call) (g0 : Nat) : ownIn (State.finishCall s id c).groups g0 = ownIn s.groups g0 := by
  unfold State.finishCall
  repeat' (first | with_reducible rfl | intro _ | with_reducible refine (foldl_ownIn _ _ _ _ ?_).trans ?_ | with_reducible refine (State.deferred_ownIn _ _ _ _ _ _ _ _ _ _).trans ?_ | with_reducible refine (State.endCall_ownIn _ _ _ _ _).trans ?_ | dsimp only | split)

theorem State.sendPut_ownIn (s : State) (id : Nat) (c : Call) (m : Comm) (g0 : Nat) : ownIn (State.sendPut s id c m).groups g0 = ownIn s.groups g0 := congrArg (fun m => ownIn m g0) (State.sendPut_groups s id c m)

theorem State.joinCall_ownIn (s : State) (id : Nat) (c : Call) (m : Comm) (others : List (Nat × List Byte)) (g0 : Nat) : ownIn (State.joinCall s id c m others).groups g0 = ownIn s.groups g0 := congrArg (fun m => ownIn m g0) (State.joinCall_groups s id c m others)

theorem State.sending_ownIn (s : State) (target : Nat) (go : State → State) (g0 : Nat) (hgo : ∀ x0, ownIn (go x0).groups g0 = ownIn x0.groups g0) : ownIn (State.sending s target go).groups g0 = ownIn s.groups g0 := by
  unfold State.sending
  repeat' (first | with_reducible rfl | intro _ | with_reducible refine (foldl_ownIn _ _ _ _ ?_).trans ?_ | with_reducible refine (State.dropRequests_ownIn _ _ _ _).trans ?_ | with_reducible refine (State.send_ownIn _ _ _ _ _ _ _ ?_).trans ?_ | with_reducible refine (State.wait_ownIn _ _ _ _).trans ?_ | with_reducible refine (hgo _).trans ?_ | dsimp only | split)

theorem State.csig_ownIn (s : State) (i : Instr) (m : Mods) (d a b : BitVec 7) (add : Bool) (g0 : Nat) : ownIn (State.csig s i m d a b add).groups g0 = ownIn s.groups g0 := by
  unfold State.csig
  repeat' (first | with_reducible rfl | intro _ | with_reducible refine (foldl_ownIn _ _ _ _ ?_).trans ?_ | with_reducible refine (State.complete_ownIn _ _ _ _ _).trans ?_ | with_reducible refine (State.fabric_ownIn _ _ _ _ ?_).trans ?_ | with_reducible refine (State.sending_ownIn _ _ _ _ ?_).trans ?_ | dsimp only | split)

theorem State.answer_ownIn (s : State) (g : Nat) (dst : List (Nat × Nat × Reg)) (v : Nat) (g0 : Nat) : ownIn (State.answer s g dst v).groups g0 = ownIn s.groups g0 := by
  unfold State.answer
  repeat' (first | with_reducible rfl | intro _ | with_reducible refine (foldl_ownIn _ _ _ _ ?_).trans ?_ | with_reducible refine (State.landReg_ownIn _ _ _ _ _ _ _ _).trans ?_ | with_reducible refine (State.settleGm_ownIn _ _ _).trans ?_ | dsimp only | split)

theorem State.cwait_ownIn (s : State) (i : Instr) (d a : BitVec 7) (n : Nat) (ctls : Fibre → List Ctl) (value : Fibre → Option W64) (g0 : Nat) : ownIn (State.cwait s i d a n ctls value).groups g0 = ownIn s.groups g0 := by
  unfold State.cwait
  repeat' (first | with_reducible rfl | intro _ | with_reducible refine (foldl_ownIn _ _ _ _ ?_).trans ?_ | with_reducible refine (State.control_ownIn _ _ _ _ _ ?_).trans ?_ | with_reducible refine (State.fillTlb_ownIn _ _ _ _ _).trans ?_ | with_reducible refine (State.mapLanes_ownIn _ _ _ _ _).trans ?_ | with_reducible refine (State.memFault_ownIn _ _ _ _ _ _ _ _).trans ?_ | with_reducible refine (State.plain_ownIn _ _ _ _ ?_).trans ?_ | with_reducible refine (State.precise_ownIn _ _ _ _ _ _ _ _).trans ?_ | with_reducible refine (State.wait_ownIn _ _ _ _).trans ?_ | with_reducible refine (State.waitReplay_ownIn _ _ _ _ _).trans ?_ | with_reducible refine (State.walkPoison_ownIn _ _ _ _ _ _).trans ?_ | dsimp only | split)

theorem State.endWait_ownIn (s : State) (g lane core : Nat) (b : Fibre) (d words v : Nat) (last : List Reg) (g0 : Nat) : ownIn (State.endWait s g lane core b d words v last).groups g0 = ownIn s.groups g0 := by
  unfold State.endWait
  repeat' (first | with_reducible rfl | intro _ | with_reducible refine (foldl_ownIn _ _ _ _ ?_).trans ?_ | with_reducible refine (State.acquireL1_ownIn _ _ _ _ _).trans ?_ | with_reducible refine (State.releaseHolders_ownIn _ _ _ _ _ _).trans ?_ | with_reducible refine (State.settleGm_ownIn _ _ _).trans ?_ | with_reducible refine (State.updFibre_ownIn _ _ _ _ _).trans ?_ | with_reducible refine (State.wait_ownIn _ _ _ _).trans ?_ | dsimp only | split)

theorem State.unasked_ownIn (s : State) (g lane : Nat) (g0 : Nat) : ownIn (State.unasked s g lane).groups g0 = ownIn s.groups g0 := by
  unfold State.unasked
  repeat' (first | with_reducible rfl | intro _ | with_reducible refine (foldl_ownIn _ _ _ _ ?_).trans ?_ | with_reducible refine (State.updGroup_ownIn _ _ _ _ (by first | exact fun _ => rfl | (intro x; dsimp only; (repeat' split) <;> rfl))).trans ?_ | dsimp only | split)

theorem State.finishStep_ownIn (s : State) (p : Pending) (g0 : Nat) : ownIn (State.finishStep s p).groups g0 = ownIn s.groups g0 := by
  unfold State.finishStep
  repeat' (first | with_reducible rfl | intro _ | with_reducible refine (foldl_ownIn _ _ _ _ ?_).trans ?_ | with_reducible refine (State.answer_ownIn _ _ _ _ _).trans ?_ | dsimp only | split)

theorem State.applyStep_ownIn (s : State) (core track grid : Nat) (g0 : Nat) : ownIn (State.applyStep s core track grid).groups g0 = ownIn s.groups g0 := by
  unfold State.applyStep
  repeat' (first | with_reducible rfl | intro _ | with_reducible refine (foldl_ownIn _ _ _ _ ?_).trans ?_ | with_reducible refine (State.finishStep_ownIn _ _ _).trans ?_ | with_reducible refine (State.updCore_ownIn _ _ _ _).trans ?_ | with_reducible refine (State.updGrid_ownIn _ _ _ _).trans ?_ | dsimp only | split)

theorem State.reply_ownIn (s : State) (endpoint id status : Nat) (g0 : Nat) : ownIn (State.reply s endpoint id status).groups g0 = ownIn s.groups g0 := congrArg (fun m => ownIn m g0) (State.reply_groups s endpoint id status)

theorem State.refuseMessage_ownIn (s : State) (vf endpoint id : Nat) (g0 : Nat) : ownIn (State.refuseMessage s vf endpoint id).groups g0 = ownIn s.groups g0 := congrArg (fun m => ownIn m g0) (State.refuseMessage_groups s vf endpoint id)

theorem State.answerTo_ownIn (s : State) (endpoint id : Nat) (error : Bool) (g0 : Nat) : ownIn (State.answerTo s endpoint id error).groups g0 = ownIn s.groups g0 := congrArg (fun m => ownIn m g0) (State.answerTo_groups s endpoint id error)

theorem State.reportSparing_ownIn (s : State) (what : Nat) (addr : W64) (place : Nat) (g0 : Nat) : ownIn (State.reportSparing s what addr place).groups g0 = ownIn s.groups g0 := congrArg (fun m => ownIn m g0) (State.reportSparing_groups s what addr place)

theorem State.cacheCode_ownIn (s : State) (x : Group) (l : List (Nat × Bool)) (g0 : Nat) : ownIn (State.cacheCode s x l).groups g0 = ownIn s.groups g0 := congrArg (fun m => ownIn m g0) (State.cacheCode_groups s x l)

theorem State.fetched_ownIn (s : State) (g : Nat) (x : Group) (pc : W64) (n : Nat) (g0 : Nat) : ownIn (State.fetched s g x pc n).groups g0 = ownIn s.groups g0 := congrArg (fun m => ownIn m g0) (State.fetched_groups s g x pc n)

theorem State.fetchTried_ownIn (s : State) (g : Nat) (x : Group) (pc val : W64) (cause sub n : Nat) (g0 : Nat) : ownIn (State.fetchTried s g x pc val cause sub n).groups g0 = ownIn s.groups g0 := congrArg (fun m => ownIn m g0) (State.fetchTried_groups s g x pc val cause sub n)

theorem State.fetchAhead_ownIn (s : State) (g : Nat) (g0 : Nat) : ownIn (State.fetchAhead s g).groups g0 = ownIn s.groups g0 := congrArg (fun m => ownIn m g0) (State.fetchAhead_groups s g)

theorem State.updRequest_ownIn (s : State) (core id lane : Nat) (f : Option Nat → Option Nat) (n : Nat) (g0 : Nat) : ownIn (State.updRequest s core id lane f n).groups g0 = ownIn s.groups g0 := by
  unfold State.updRequest
  repeat' (first | with_reducible rfl | intro _ | with_reducible refine (foldl_ownIn _ _ _ _ ?_).trans ?_ | with_reducible refine (State.updCall_ownIn _ _ _ _).trans ?_ | with_reducible refine (State.updCore_ownIn _ _ _ _).trans ?_ | with_reducible refine (State.updGroup_ownIn _ _ _ _ (by first | exact fun _ => rfl | (intro x; dsimp only; (repeat' split) <;> rfl))).trans ?_ | dsimp only | split)

theorem State.noteSent_ownIn (s : State) (g0 : Nat) : ownIn s.noteSent.groups g0 = ownIn s.groups g0 := by
  unfold State.noteSent
  dsimp only
  refine (ownIn_mapVals _ _ _ (fun g x => by split <;> rfl)).trans ?_
  repeat' (first | with_reducible rfl | intro _ | with_reducible refine (foldl_ownIn _ _ _ _ ?_).trans ?_ | with_reducible refine (State.updRequest_ownIn _ _ _ _ _ _ _).trans ?_ | dsimp only | split)

theorem State.failReading_ownIn (s : State) (g : Nat) (x : Group) (lane sub port : Nat) (r : Reading) (g0 : Nat) : ownIn (State.failReading s g x lane sub port r).groups g0 = ownIn s.groups g0 := by
  unfold State.failReading
  repeat' (first | with_reducible rfl | intro _ | with_reducible refine (foldl_ownIn _ _ _ _ ?_).trans ?_ | with_reducible refine (State.deferred_ownIn _ _ _ _ _ _ _ _ _ _).trans ?_ | with_reducible refine (State.keep_ownIn _ _ _ _ _).trans ?_ | with_reducible refine (State.port_ownIn _ _ _ _ _ _).trans ?_ | with_reducible refine (State.precise_ownIn _ _ _ _ _ _ _ _).trans ?_ | with_reducible refine (State.updGroup_ownIn _ _ _ _ (by first | exact fun _ => rfl | (intro x; dsimp only; (repeat' split) <;> rfl))).trans ?_ | with_reducible refine (State.wait_ownIn _ _ _ _).trans ?_ | dsimp only | split)

theorem State.revokeContext_ownIn (s : State) (ctx : Nat) (g0 : Nat) : ownIn (State.revokeContext s ctx).groups g0 = ownIn s.groups g0 := congrArg (fun m => ownIn m g0) (State.revokeContext_groups s ctx)

theorem State.haltDead_ownIn (s : State) (ctx : Nat) (g0 : Nat) : ownIn (State.haltDead s ctx).groups g0 = ownIn s.groups g0 := by
  unfold State.haltDead
  repeat' (first | with_reducible rfl | intro _ | with_reducible refine (foldl_ownIn _ _ _ _ ?_).trans ?_ | with_reducible refine (State.raiseHalt_ownIn _ _ _ _ _ _ _ _ _).trans ?_ | with_reducible refine (State.updHalt_ownIn _ _ _ _).trans ?_ | dsimp only | split)

theorem State.updVf_ownIn (s : State) (vf : Nat) (f : Vf → Vf) (g0 : Nat) : ownIn (State.updVf s vf f).groups g0 = ownIn s.groups g0 := congrArg (fun m => ownIn m g0) (State.updVf_groups s vf f)

theorem State.refillPort_ownIn (s : State) (core boundary : Nat) (g0 : Nat) : ownIn (State.refillPort s core boundary).groups g0 = ownIn s.groups g0 := congrArg (fun m => ownIn m g0) (State.refillPort_groups s core boundary)

theorem State.refillAt_ownIn (s : State) (boundary core : Nat) (g0 : Nat) : ownIn (State.refillAt s boundary core).groups g0 = ownIn s.groups g0 := congrArg (fun m => ownIn m g0) (State.refillAt_groups s boundary core)

theorem State.refillDue_ownIn (s : State) (n : Nat) (g0 : Nat) : ownIn (State.refillDue s n).groups g0 = ownIn s.groups g0 := congrArg (fun m => ownIn m g0) (State.refillDue_groups s n)

theorem State.updPkg_ownIn (s : State) (f : Package → Package) (g0 : Nat) : ownIn (State.updPkg s f).groups g0 = ownIn s.groups g0 := congrArg (fun m => ownIn m g0) (State.updPkg_groups s f)

theorem State.mapTracks_ownIn (s : State) (cores : List Nat) (f : Track → Track) (g0 : Nat) : ownIn (State.mapTracks s cores f).groups g0 = ownIn s.groups g0 := congrArg (fun m => ownIn m g0) (State.mapTracks_groups s cores f)

theorem State.noteNoise_ownIn (s : State) (die : Nat) (cores : List (Nat × Nat)) (g0 : Nat) : ownIn (State.noteNoise s die cores).groups g0 = ownIn s.groups g0 := congrArg (fun m => ownIn m g0) (State.noteNoise_groups s die cores)

theorem State.strikeArray_ownIn (s : State) (die core array : Nat) (va : W64) (g0 : Nat) : ownIn (State.strikeArray s die core array va).groups g0 = ownIn s.groups g0 := by
  unfold State.strikeArray
  repeat' (first | with_reducible rfl | intro _ | with_reducible refine (foldl_ownIn _ _ _ _ ?_).trans ?_ | with_reducible refine (State.deferred_ownIn _ _ _ _ _ _ _ _ _ _).trans ?_ | with_reducible refine (State.reportLine_ownIn _ _ _ _).trans ?_ | with_reducible refine (State.updCore_ownIn _ _ _ _).trans ?_ | with_reducible refine (State.updDie_ownIn _ _ _ _).trans ?_ | with_reducible refine (State.updSlot_ownIn _ _ _ _).trans ?_ | dsimp only | split)

theorem State.selfTest_ownIn (s : State) (core : Nat) (g0 : Nat) : ownIn (State.selfTest s core).groups g0 = ownIn s.groups g0 := congrArg (fun m => ownIn m g0) (State.selfTest_groups s core)

theorem State.train_ownIn (s : State) (c : Nat × Nat × Nat) (g0 : Nat) : ownIn (State.train s c).groups g0 = ownIn s.groups g0 := congrArg (fun m => ownIn m g0) (State.train_groups s c)

theorem State.releaseJunctions_ownIn (s : State) (g : Nat) (g0 : Nat) : ownIn (State.releaseJunctions s g).groups g0 = ownIn s.groups g0 := by
  unfold State.releaseJunctions
  repeat' (first | with_reducible rfl | intro _ | with_reducible refine (foldl_ownIn _ _ _ _ ?_).trans ?_ | with_reducible refine (State.releaseJunction_ownIn _ _ _ _).trans ?_ | dsimp only | split)

theorem State.countPort_ownIn (s : State) (g : Nat) (w : W32) (lanes : Nat) (g0 : Nat) : ownIn (State.countPort s g w lanes).groups g0 = ownIn s.groups g0 := congrArg (fun m => ownIn m g0) (State.countPort_groups s g w lanes)

theorem State.illegal_ownIn (s : State) (r : Reject) (words : List W32) (g0 : Nat) : ownIn (State.illegal s r words).groups g0 = ownIn s.groups g0 := by
  unfold State.illegal
  repeat' (first | with_reducible rfl | intro _ | with_reducible refine (foldl_ownIn _ _ _ _ ?_).trans ?_ | with_reducible refine (State.precise_ownIn _ _ _ _ _ _ _ _).trans ?_ | dsimp only | split)

theorem State.moveGroup_ownIn (s : State) (g : Nat) (set : GSet) (g0 : Nat) : ownIn (State.moveGroup s g set).groups g0 = ownIn s.groups g0 := by
  unfold State.moveGroup
  repeat' (first | with_reducible rfl | intro _ | with_reducible refine (foldl_ownIn _ _ _ _ ?_).trans ?_ | with_reducible refine (State.updGroup_ownIn _ _ _ _ (by first | exact fun _ => rfl | (intro x; dsimp only; (repeat' split) <;> rfl))).trans ?_ | dsimp only | split)

theorem scalar_ownIn (i : Instr) (dst : Dst) (a b : Src) (q : Option Nat) (op : Env → Out) (s : State) (g0 : Nat) : ownIn (scalar i dst a b q op s).groups g0 = ownIn s.groups g0 := by
  unfold scalar
  repeat' (first | with_reducible rfl | intro _ | with_reducible refine (foldl_ownIn _ _ _ _ ?_).trans ?_ | with_reducible refine (State.alu_ownIn _ _ _).trans ?_ | dsimp only | split)

theorem scalar2_ownIn (i : Instr) (m : Mods) (t : BitVec 2) (d a b : BitVec 7) (op : Bool → Int → Int → Nat) (s : State) (g0 : Nat) : ownIn (scalar2 i m t d a b op s).groups g0 = ownIn s.groups g0 := by
  unfold scalar2
  repeat' (first | with_reducible rfl | intro _ | with_reducible refine (foldl_ownIn _ _ _ _ ?_).trans ?_ | with_reducible refine (scalar_ownIn _ _ _ _ _ _ _ _).trans ?_ | dsimp only | split)

theorem scalarBits_ownIn (i : Instr) (m : Mods) (d a b : BitVec 7) (op : Nat → Nat → Nat) (s : State) (g0 : Nat) : ownIn (scalarBits i m d a b op s).groups g0 = ownIn s.groups g0 := by
  unfold scalarBits
  repeat' (first | with_reducible rfl | intro _ | with_reducible refine (foldl_ownIn _ _ _ _ ?_).trans ?_ | with_reducible refine (scalar_ownIn _ _ _ _ _ _ _ _).trans ?_ | dsimp only | split)

theorem scalarShift_ownIn (i : Instr) (m : Mods) (kty : Nat) (d a b : BitVec 7) (op : Int → Nat → Int) (s : State) (g0 : Nat) : ownIn (scalarShift i m kty d a b op s).groups g0 = ownIn s.groups g0 := by
  unfold scalarShift
  repeat' (first | with_reducible rfl | intro _ | with_reducible refine (foldl_ownIn _ _ _ _ ?_).trans ?_ | with_reducible refine (scalar_ownIn _ _ _ _ _ _ _ _).trans ?_ | dsimp only | split)

theorem vec_ownIn (i : Instr) (dst : Dst) (a b c : Src) (q : Option Nat) (op : Env → Out) (s : State) (g0 : Nat) : ownIn (vec i dst a b c q op s).groups g0 = ownIn s.groups g0 := by
  unfold vec
  repeat' (first | with_reducible rfl | intro _ | with_reducible refine (foldl_ownIn _ _ _ _ ?_).trans ?_ | with_reducible refine (State.alu_ownIn _ _ _).trans ?_ | dsimp only | split)

theorem vec2_ownIn (i : Instr) (m : Mods) (t : BitVec 3) (d a b : BitVec 7) (op : Bool → Int → Int → Int) (s : State) (g0 : Nat) : ownIn (vec2 i m t d a b op s).groups g0 = ownIn s.groups g0 := by
  unfold vec2
  repeat' (first | with_reducible rfl | intro _ | with_reducible refine (foldl_ownIn _ _ _ _ ?_).trans ?_ | with_reducible refine (vec_ownIn _ _ _ _ _ _ _ _ _).trans ?_ | dsimp only | split)

theorem vec1_ownIn (i : Instr) (t : BitVec 3) (d a : BitVec 7) (op : Int → Int) (s : State) (g0 : Nat) : ownIn (vec1 i t d a op s).groups g0 = ownIn s.groups g0 := by
  unfold vec1
  repeat' (first | with_reducible rfl | intro _ | with_reducible refine (foldl_ownIn _ _ _ _ ?_).trans ?_ | with_reducible refine (vec_ownIn _ _ _ _ _ _ _ _ _).trans ?_ | dsimp only | split)

theorem vecBits_ownIn (i : Instr) (m : Mods) (t : BitVec 3) (d a b : BitVec 7) (op : Nat → Nat → Nat) (s : State) (g0 : Nat) : ownIn (vecBits i m t d a b op s).groups g0 = ownIn s.groups g0 := by
  unfold vecBits
  repeat' (first | with_reducible rfl | intro _ | with_reducible refine (foldl_ownIn _ _ _ _ ?_).trans ?_ | with_reducible refine (vec_ownIn _ _ _ _ _ _ _ _ _).trans ?_ | dsimp only | split)

theorem vecShift_ownIn (i : Instr) (m : Mods) (t : BitVec 3) (d a b : BitVec 7) (op : Nat → Nat → Int) (s : State) (g0 : Nat) : ownIn (vecShift i m t d a b op s).groups g0 = ownIn s.groups g0 := by
  unfold vecShift
  repeat' (first | with_reducible rfl | intro _ | with_reducible refine (foldl_ownIn _ _ _ _ ?_).trans ?_ | with_reducible refine (vec_ownIn _ _ _ _ _ _ _ _ _).trans ?_ | dsimp only | split)

theorem vecCount_ownIn (i : Instr) (t : BitVec 3) (d a : BitVec 7) (op : Nat → Nat → Nat) (s : State) (g0 : Nat) : ownIn (vecCount i t d a op s).groups g0 = ownIn s.groups g0 := by
  unfold vecCount
  repeat' (first | with_reducible rfl | intro _ | with_reducible refine (foldl_ownIn _ _ _ _ ?_).trans ?_ | with_reducible refine (vec_ownIn _ _ _ _ _ _ _ _ _).trans ?_ | dsimp only | split)

theorem vecCmp_ownIn (i : Instr) (m : Mods) (t : BitVec 3) (d a b : BitVec 7) (op : Int → Int → Bool) (s : State) (g0 : Nat) : ownIn (vecCmp i m t d a b op s).groups g0 = ownIn s.groups g0 := by
  unfold vecCmp
  repeat' (first | with_reducible rfl | intro _ | with_reducible refine (foldl_ownIn _ _ _ _ ?_).trans ?_ | with_reducible refine (vec_ownIn _ _ _ _ _ _ _ _ _).trans ?_ | dsimp only | split)

theorem pred_ownIn (i : Instr) (d a b : BitVec 7) (op : Nat → Nat → Nat) (s : State) (g0 : Nat) : ownIn (pred i d a b op s).groups g0 = ownIn s.groups g0 := by
  unfold pred
  repeat' (first | with_reducible rfl | intro _ | with_reducible refine (foldl_ownIn _ _ _ _ ?_).trans ?_ | with_reducible refine (vec_ownIn _ _ _ _ _ _ _ _ _).trans ?_ | dsimp only | split)

theorem flt_ownIn (i : Instr) (dst : Dst) (a b c : Src) (warn : W32) (op : Env → Out) (s : State) (g0 : Nat) : ownIn (flt i dst a b c warn op s).groups g0 = ownIn s.groups g0 := by
  unfold flt
  repeat' (first | with_reducible rfl | intro _ | with_reducible refine (foldl_ownIn _ _ _ _ ?_).trans ?_ | with_reducible refine (State.alu_ownIn _ _ _).trans ?_ | with_reducible refine (State.warn_ownIn _ _ _).trans ?_ | dsimp only | split)

theorem flt2_ownIn (i : Instr) (m : Mods) (t : BitVec 2) (d a b : BitVec 7) (op : Env → Num → Num → Nat × Nat) (s : State) (g0 : Nat) : ownIn (flt2 i m t d a b op s).groups g0 = ownIn s.groups g0 := by
  unfold flt2
  repeat' (first | with_reducible rfl | intro _ | with_reducible refine (foldl_ownIn _ _ _ _ ?_).trans ?_ | with_reducible refine (flt_ownIn _ _ _ _ _ _ _ _ _).trans ?_ | dsimp only | split)

theorem fltBits_ownIn (i : Instr) (m : Mods) (t : BitVec 2) (d a b : BitVec 7) (op : Nat → Nat → Nat × Nat) (s : State) (g0 : Nat) : ownIn (fltBits i m t d a b op s).groups g0 = ownIn s.groups g0 := by
  unfold fltBits
  repeat' (first | with_reducible rfl | intro _ | with_reducible refine (foldl_ownIn _ _ _ _ ?_).trans ?_ | with_reducible refine (flt_ownIn _ _ _ _ _ _ _ _ _).trans ?_ | dsimp only | split)

theorem fltCmp_ownIn (i : Instr) (m : Mods) (t : BitVec 2) (d a b : BitVec 7) (c : Nat) (s : State) (g0 : Nat) : ownIn (fltCmp i m t d a b c s).groups g0 = ownIn s.groups g0 := by
  unfold fltCmp
  repeat' (first | with_reducible rfl | intro _ | with_reducible refine (foldl_ownIn _ _ _ _ ?_).trans ?_ | with_reducible refine (flt_ownIn _ _ _ _ _ _ _ _ _).trans ?_ | dsimp only | split)

theorem packed_ownIn (i : Instr) (m : Mods) (f : BitVec 1) (d a b : BitVec 7) (c : Src) (srcs : Env → List Val) (op : Env → Bool → Nat × Nat) (s : State) (g0 : Nat) : ownIn (packed i m f d a b c srcs op s).groups g0 = ownIn s.groups g0 := by
  unfold packed
  repeat' (first | with_reducible rfl | intro _ | with_reducible refine (foldl_ownIn _ _ _ _ ?_).trans ?_ | with_reducible refine (flt_ownIn _ _ _ _ _ _ _ _ _).trans ?_ | dsimp only | split)

theorem cross_ownIn (i : Instr) (dst : Dst) (a b : Src) (fp : Bool) (srcs : Env → List Val) (op : List Env → Env → Nat × Nat) (s : State) (g0 : Nat) : ownIn (cross i dst a b fp srcs op s).groups g0 = ownIn s.groups g0 := by
  unfold cross
  repeat' (first | with_reducible rfl | intro _ | with_reducible refine (foldl_ownIn _ _ _ _ ?_).trans ?_ | with_reducible refine (State.alu_ownIn _ _ _).trans ?_ | dsimp only | split)

theorem sfu_ownIn (i : Instr) (k : Special) (t : BitVec 2) (d a : BitVec 7) (s : State) (g0 : Nat) : ownIn (sfu i k t d a s).groups g0 = ownIn s.groups g0 := by
  unfold sfu
  repeat' (first | with_reducible rfl | intro _ | with_reducible refine (foldl_ownIn _ _ _ _ ?_).trans ?_ | with_reducible refine (State.alu_ownIn _ _ _).trans ?_ | dsimp only | split)

end Sys2Proof.Machine
end

