-- ==== Sys2Proof/Laws/KeepRest.lean ====
section
/-! SUPPORT. The operations that leave everything beside groups, grids, contexts, cores and memory as it was, one lemma for each. -/

set_option linter.all false

namespace Sys2Proof.Machine

@[reducible] def State.rest (s : State) := (s.poison, s.host, s.slots, s.calls, s.signals, s.posts, s.sent, s.pkg, s.vfs, s.dies)

theorem foldl_rest {α : Type} (f : State → α → State) (l : List α) (s : State) (h : ∀ t a, (f t a).rest = t.rest) : (l.foldl f s).rest = s.rest := by
  induction l generalizing s with
  | nil => rfl
  | cons a l ih => exact (ih _).trans (h _ _)

theorem foldl_fst_rest {α β : Type} (f : State × β → α → State × β) (l : List α) (s : State × β) (h : ∀ t a, (f t a).1.rest = t.1.rest) : (l.foldl f s).1.rest = s.1.rest := by
  induction l generalizing s with
  | nil => rfl
  | cons a l ih => exact (ih _).trans (h _ _)

theorem foldl_snd_rest {α β : Type} (f : β × State → α → β × State) (l : List α) (s : β × State) (h : ∀ t a, (f t a).2.rest = t.2.rest) : (l.foldl f s).2.rest = s.2.rest := by
  induction l generalizing s with
  | nil => rfl
  | cons a l ih => exact (ih _).trans (h _ _)

theorem State.updCore_rest (s : State) (c : Nat) (f : Core → Core) : (State.updCore s c f).rest = s.rest := by
  unfold State.updCore
  repeat' (first | with_reducible rfl | intro _ | with_reducible refine (foldl_rest _ _ _ ?_).trans ?_ | dsimp only | split)

theorem State.invalidateL1s_rest (s : State) (d la except : Nat) : (State.invalidateL1s s d la except).rest = s.rest := by
  unfold State.invalidateL1s
  repeat' (first | with_reducible rfl | intro _ | with_reducible refine (foldl_rest _ _ _ ?_).trans ?_ | dsimp only | split)

theorem State.askSupervisor_rest (s : State) (ctx : Nat) (va : W64) : (State.askSupervisor s ctx va).rest = s.rest := by
  unfold State.askSupervisor
  repeat' (first | with_reducible rfl | intro _ | with_reducible refine (foldl_rest _ _ _ ?_).trans ?_ | dsimp only | split)

theorem State.forget_rest (s : State) (ctx : Nat) (va : W64) : (State.forget s ctx va).rest = s.rest := by
  unfold State.forget
  repeat' (first | with_reducible rfl | intro _ | with_reducible refine (foldl_rest _ _ _ ?_).trans ?_ | dsimp only | split)

theorem State.updGroup_rest (s : State) (g : Nat) (f : Group → Group) : (State.updGroup s g f).rest = s.rest := by
  unfold State.updGroup
  repeat' (first | with_reducible rfl | intro _ | with_reducible refine (foldl_rest _ _ _ ?_).trans ?_ | dsimp only | split)

theorem State.mapLanes_rest (s : State) (g : Nat) (lanes : List Nat) (f : Nat → Fibre → Fibre) : (State.mapLanes s g lanes f).rest = s.rest := by
  unfold State.mapLanes
  repeat' (first | with_reducible rfl | intro _ | with_reducible refine (foldl_rest _ _ _ ?_).trans ?_ | with_reducible refine (State.updGroup_rest _ _ _).trans ?_ | dsimp only | split)

theorem State.updFibre_rest (s : State) (g lane : Nat) (f : Fibre → Fibre) : (State.updFibre s g lane f).rest = s.rest := by
  unfold State.updFibre
  repeat' (first | with_reducible rfl | intro _ | with_reducible refine (foldl_rest _ _ _ ?_).trans ?_ | with_reducible refine (State.mapLanes_rest _ _ _ _).trans ?_ | dsimp only | split)

theorem State.updGrid_rest (s : State) (n : Nat) (f : Grid → Grid) : (State.updGrid s n f).rest = s.rest := by
  unfold State.updGrid
  repeat' (first | with_reducible rfl | intro _ | with_reducible refine (foldl_rest _ _ _ ?_).trans ?_ | dsimp only | split)

theorem State.releaseHolders_rest (s : State) (g uid : Nat) (regs : List Reg) (counts : Bool) : (State.releaseHolders s g uid regs counts).rest = s.rest := by
  unfold State.releaseHolders
  repeat' (first | with_reducible rfl | intro _ | with_reducible refine (foldl_rest _ _ _ ?_).trans ?_ | with_reducible refine (State.updCore_rest _ _ _).trans ?_ | with_reducible refine (State.updGrid_rest _ _ _).trans ?_ | dsimp only | split)

theorem State.releaseFibre_rest (s : State) (g uid : Nat) : (State.releaseFibre s g uid).rest = s.rest := by
  unfold State.releaseFibre
  repeat' (first | with_reducible rfl | intro _ | with_reducible refine (foldl_rest _ _ _ ?_).trans ?_ | with_reducible refine (State.updCore_rest _ _ _).trans ?_ | with_reducible refine (State.updGrid_rest _ _ _).trans ?_ | dsimp only | split)

theorem State.settleGm_rest (s : State) (g : Nat) : (State.settleGm s g).rest = s.rest := by
  unfold State.settleGm
  repeat' (first | with_reducible rfl | intro _ | with_reducible refine (foldl_rest _ _ _ ?_).trans ?_ | with_reducible refine (State.mapLanes_rest _ _ _ _).trans ?_ | dsimp only | split)

theorem State.advance_rest (s : State) (lanes : List Nat) : (State.advance s lanes).rest = s.rest := by
  unfold State.advance
  repeat' (first | with_reducible rfl | intro _ | with_reducible refine (foldl_rest _ _ _ ?_).trans ?_ | with_reducible refine (State.mapLanes_rest _ _ _ _).trans ?_ | dsimp only | split)

theorem State.warn_rest (s : State) (w : W32) : (State.warn s w).rest = s.rest := by
  unfold State.warn
  repeat' (first | with_reducible rfl | intro _ | with_reducible refine (foldl_rest _ _ _ ?_).trans ?_ | with_reducible refine (State.updGroup_rest _ _ _).trans ?_ | dsimp only | split)

theorem State.wait_rest (s : State) (lanes : List Nat) (w : Wait) : (State.wait s lanes w).rest = s.rest := by
  unfold State.wait
  repeat' (first | with_reducible rfl | intro _ | with_reducible refine (foldl_rest _ _ _ ?_).trans ?_ | with_reducible refine (State.mapLanes_rest _ _ _ _).trans ?_ | dsimp only | split)

theorem State.dropLater_rest (s : State) (g : Nat) (h : Held) : (State.dropLater s g h).rest = s.rest := by
  unfold State.dropLater
  repeat' (first | with_reducible rfl | intro _ | with_reducible refine (foldl_rest _ _ _ ?_).trans ?_ | with_reducible refine (State.updCore_rest _ _ _).trans ?_ | dsimp only | split)

theorem State.undoHeld_rest (s : State) (g : Nat) : (State.undoHeld s g).rest = s.rest := by
  unfold State.undoHeld
  repeat' (first | with_reducible rfl | intro _ | with_reducible refine (foldl_rest _ _ _ ?_).trans ?_ | with_reducible refine (State.dropLater_rest _ _ _).trans ?_ | with_reducible refine (State.mapLanes_rest _ _ _ _).trans ?_ | with_reducible refine (State.updGroup_rest _ _ _).trans ?_ | with_reducible refine (State.wait_rest _ _ _).trans ?_ | dsimp only | split)

theorem State.shiftTimes_rest (s : State) (ctx : Nat) : (State.shiftTimes s ctx).rest = s.rest := by
  unfold State.shiftTimes
  repeat' (first | with_reducible rfl | intro _ | with_reducible refine (foldl_rest _ _ _ ?_).trans ?_ | with_reducible refine (State.wait_rest _ _ _).trans ?_ | dsimp only | split)

theorem State.raiseHalt_rest (s : State) (ctx reason g : Nat) (t : Trap) (lanes : List Nat) (incomplete : Bool) (epc : W64) : (State.raiseHalt s ctx reason g t lanes incomplete epc).rest = s.rest := by
  unfold State.raiseHalt
  repeat' (first | with_reducible rfl | intro _ | with_reducible refine (foldl_rest _ _ _ ?_).trans ?_ | with_reducible refine (State.shiftTimes_rest _ _).trans ?_ | dsimp only | split)

theorem State.keep_rest (s : State) (g : Nat) (t : Trap) (lanes : List Nat) : (State.keep s g t lanes).rest = s.rest := by
  unfold State.keep
  repeat' (first | with_reducible rfl | intro _ | with_reducible refine (foldl_rest _ _ _ ?_).trans ?_ | with_reducible refine (State.updGroup_rest _ _ _).trans ?_ | dsimp only | split)

theorem State.updHalt_rest (s : State) (ctx : Nat) (f : Halt → Halt) : (State.updHalt s ctx f).rest = s.rest := by
  unfold State.updHalt
  repeat' (first | with_reducible rfl | intro _ | with_reducible refine (foldl_rest _ _ _ ?_).trans ?_ | dsimp only | split)

theorem State.fault_rest (s : State) (g : Nat) (t : Trap) (lanes : List Nat) (incomplete : Bool) : (State.fault s g t lanes incomplete).rest = s.rest := by
  unfold State.fault
  repeat' (first | with_reducible rfl | intro _ | with_reducible refine (foldl_rest _ _ _ ?_).trans ?_ | with_reducible refine (State.keep_rest _ _ _ _).trans ?_ | with_reducible refine (State.raiseHalt_rest _ _ _ _ _ _ _ _).trans ?_ | with_reducible refine (State.updHalt_rest _ _ _).trans ?_ | dsimp only | split)

theorem State.precise_rest (s : State) (cause sub info eng : Nat) (lanes : List Nat) (val : W64) : (State.precise s cause sub info eng lanes val).rest = s.rest := by
  unfold State.precise
  repeat' (first | with_reducible rfl | intro _ | with_reducible refine (foldl_rest _ _ _ ?_).trans ?_ | with_reducible refine (State.fault_rest _ _ _ _ _).trans ?_ | dsimp only | split)

theorem State.deferred_rest (s : State) (ctx g cause sub info eng lane : Nat) (val : W64) : (State.deferred s ctx g cause sub info eng lane val).rest = s.rest := by
  unfold State.deferred
  repeat' (first | with_reducible rfl | intro _ | with_reducible refine (foldl_rest _ _ _ ?_).trans ?_ | with_reducible refine (State.fault_rest _ _ _ _ _).trans ?_ | with_reducible refine (State.raiseHalt_rest _ _ _ _ _ _ _ _).trans ?_ | dsimp only | split)

theorem State.raisePending_rest (s : State) (g : Nat) : (State.raisePending s g).rest = s.rest := by
  unfold State.raisePending
  repeat' (first | with_reducible rfl | intro _ | with_reducible refine (foldl_rest _ _ _ ?_).trans ?_ | with_reducible refine (State.deferred_rest _ _ _ _ _ _ _ _ _).trans ?_ | with_reducible refine (State.fault_rest _ _ _ _ _).trans ?_ | with_reducible refine (State.raiseHalt_rest _ _ _ _ _ _ _ _).trans ?_ | with_reducible refine (State.updGroup_rest _ _ _).trans ?_ | dsimp only | split)

theorem State.moveLinks_rest (s : State) (g uid : Nat) (f : Nat → Nat) : (State.moveLinks s g uid f).rest = s.rest := by
  unfold State.moveLinks
  repeat' (first | with_reducible rfl | intro _ | with_reducible refine (foldl_rest _ _ _ ?_).trans ?_ | with_reducible refine (State.updCore_rest _ _ _).trans ?_ | dsimp only | split)

theorem State.parkGroups_rest (s : State) (ctx : Nat) (but : Option Nat) : (State.parkGroups s ctx but).rest = s.rest := by
  unfold State.parkGroups
  repeat' (first | with_reducible rfl | intro _ | with_reducible refine (foldl_rest _ _ _ ?_).trans ?_ | dsimp only | split)

theorem State.unparkGroups_rest (s : State) (ctx : Nat) : (State.unparkGroups s ctx).rest = s.rest := by
  unfold State.unparkGroups
  repeat' (first | with_reducible rfl | intro _ | with_reducible refine (foldl_rest _ _ _ ?_).trans ?_ | dsimp only | split)

theorem State.serveLatched_rest (s : State) (ctx : Nat) : (State.serveLatched s ctx).rest = s.rest := by
  unfold State.serveLatched
  repeat' (first | with_reducible rfl | intro _ | with_reducible refine (foldl_rest _ _ _ ?_).trans ?_ | with_reducible refine (State.raiseHalt_rest _ _ _ _ _ _ _ _).trans ?_ | dsimp only | split)

theorem State.quitLanes_rest (s : State) (g : Nat) (lanes : List Nat) : (State.quitLanes s g lanes).rest = s.rest := by
  unfold State.quitLanes
  repeat' (first | with_reducible rfl | intro _ | with_reducible refine (foldl_rest _ _ _ ?_).trans ?_ | with_reducible refine (State.keep_rest _ _ _ _).trans ?_ | with_reducible refine (State.releaseFibre_rest _ _ _).trans ?_ | with_reducible refine (State.updGroup_rest _ _ _).trans ?_ | dsimp only | split)

theorem State.raiseEnded_rest (s : State) (ctx : Nat) : (State.raiseEnded s ctx).rest = s.rest := by
  unfold State.raiseEnded
  repeat' (first | with_reducible rfl | intro _ | with_reducible refine (foldl_rest _ _ _ ?_).trans ?_ | with_reducible refine (State.raiseHalt_rest _ _ _ _ _ _ _ _).trans ?_ | dsimp only | split)

theorem State.releaseHalt_rest (s : State) (ctx : Nat) : (State.releaseHalt s ctx).rest = s.rest := by
  unfold State.releaseHalt
  repeat' (first | with_reducible rfl | intro _ | with_reducible refine (foldl_rest _ _ _ ?_).trans ?_ | with_reducible refine (State.raiseEnded_rest _ _).trans ?_ | with_reducible refine (State.serveLatched_rest _ _).trans ?_ | with_reducible refine (State.unparkGroups_rest _ _).trans ?_ | with_reducible refine (State.updHalt_rest _ _ _).trans ?_ | dsimp only | split)

theorem State.endHandler_rest (s : State) (ctx g : Nat) : (State.endHandler s ctx g).rest = s.rest := by
  unfold State.endHandler
  repeat' (first | with_reducible rfl | intro _ | with_reducible refine (foldl_rest _ _ _ ?_).trans ?_ | with_reducible refine (State.releaseHalt_rest _ _).trans ?_ | with_reducible refine (State.updHalt_rest _ _ _).trans ?_ | dsimp only | split)

theorem State.leaveHandler_rest (s : State) (g : Nat) : (State.leaveHandler s g).rest = s.rest := by
  unfold State.leaveHandler
  repeat' (first | with_reducible rfl | intro _ | with_reducible refine (foldl_rest _ _ _ ?_).trans ?_ | with_reducible refine (State.endHandler_rest _ _ _).trans ?_ | with_reducible refine (State.mapLanes_rest _ _ _ _).trans ?_ | with_reducible refine (State.moveLinks_rest _ _ _ _).trans ?_ | with_reducible refine (State.quitLanes_rest _ _ _).trans ?_ | with_reducible refine (State.releaseHolders_rest _ _ _ _ _).trans ?_ | with_reducible refine (State.shiftTimes_rest _ _).trans ?_ | with_reducible refine (State.updGroup_rest _ _ _).trans ?_ | dsimp only | split)

theorem State.freeLast_rest (s : State) (old : Group) (e : Eff) (written : Fibre → List Reg) : (State.freeLast s old e written).rest = s.rest := by
  unfold State.freeLast
  repeat' (first | with_reducible rfl | intro _ | with_reducible refine (foldl_rest _ _ _ ?_).trans ?_ | with_reducible refine (State.mapLanes_rest _ _ _ _).trans ?_ | with_reducible refine (State.releaseHolders_rest _ _ _ _ _).trans ?_ | dsimp only | split)

theorem State.complete_rest (s : State) (old : Group) (e : Eff) (written : Fibre → List Reg) : (State.complete s old e written).rest = s.rest := by
  unfold State.complete
  repeat' (first | with_reducible rfl | intro _ | with_reducible refine (foldl_rest _ _ _ ?_).trans ?_ | with_reducible refine (State.advance_rest _ _).trans ?_ | with_reducible refine (State.freeLast_rest _ _ _ _).trans ?_ | with_reducible refine (State.settleGm_rest _ _).trans ?_ | dsimp only | split)

theorem State.narrow_rest (s : State) (lanes : List Nat) : (State.narrow s lanes).rest = s.rest := by
  unfold State.narrow
  repeat' (first | with_reducible rfl | intro _ | with_reducible refine (foldl_rest _ _ _ ?_).trans ?_ | dsimp only | split)

theorem State.control_rest (s : State) (eng : Nat) (ops : Group → Nat → Fibre → List Ctl) (go : State → State) (hgo : ∀ x0, (go x0).rest = x0.rest) : (State.control s eng ops go).rest = s.rest := by
  unfold State.control
  repeat' (first | with_reducible rfl | intro _ | with_reducible refine (foldl_rest _ _ _ ?_).trans ?_ | with_reducible refine (State.mapLanes_rest _ _ _ _).trans ?_ | with_reducible refine (State.narrow_rest _ _).trans ?_ | with_reducible refine (State.precise_rest _ _ _ _ _ _ _).trans ?_ | with_reducible refine (State.releaseHolders_rest _ _ _ _ _).trans ?_ | with_reducible refine (State.wait_rest _ _ _).trans ?_ | with_reducible refine (hgo _).trans ?_ | dsimp only | split)

theorem State.pending_rest (s : State) (z : Alu) (old : Group) (lanes : List Nat) (flags : W32) (trap : Option (Trap × List Nat)) : (State.pending s z old lanes flags trap).rest = s.rest := by
  unfold State.pending
  repeat' (first | with_reducible rfl | intro _ | with_reducible refine (foldl_rest _ _ _ ?_).trans ?_ | with_reducible refine (State.mapLanes_rest _ _ _ _).trans ?_ | with_reducible refine (State.updCore_rest _ _ _).trans ?_ | dsimp only | split)

theorem State.alu_rest (s : State) (z : Alu) : (State.alu s z).rest = s.rest := by
  unfold State.alu
  repeat' (first | with_reducible rfl | intro _ | with_reducible refine (foldl_rest _ _ _ ?_).trans ?_ | with_reducible refine (State.complete_rest _ _ _ _).trans ?_ | with_reducible refine (State.fault_rest _ _ _ _ _).trans ?_ | with_reducible refine (State.mapLanes_rest _ _ _ _).trans ?_ | with_reducible refine (State.pending_rest _ _ _ _ _ _).trans ?_ | with_reducible refine (State.releaseHolders_rest _ _ _ _ _).trans ?_ | with_reducible refine (State.warn_rest _ _).trans ?_ | dsimp only | split)

theorem State.acquireL1_rest (s : State) (core scope : Nat) (teamCores : Nat) : (State.acquireL1 s core scope teamCores).rest = s.rest := by
  unfold State.acquireL1
  repeat' (first | with_reducible rfl | intro _ | with_reducible refine (foldl_rest _ _ _ ?_).trans ?_ | with_reducible refine (State.updCore_rest _ _ _).trans ?_ | dsimp only | split)

theorem State.updTeam_rest (s : State) (x : Group) (f : Team → Team) : (State.updTeam s x f).rest = s.rest := by
  unfold State.updTeam
  repeat' (first | with_reducible rfl | intro _ | with_reducible refine (foldl_rest _ _ _ ?_).trans ?_ | with_reducible refine (State.updGrid_rest _ _ _).trans ?_ | dsimp only | split)

theorem State.checkGroup_rest (s : State) (g : Nat) : (State.checkGroup s g).rest = s.rest := by
  unfold State.checkGroup
  repeat' (first | with_reducible rfl | intro _ | with_reducible refine (foldl_rest _ _ _ ?_).trans ?_ | with_reducible refine (State.acquireL1_rest _ _ _ _).trans ?_ | with_reducible refine (State.mapLanes_rest _ _ _ _).trans ?_ | with_reducible refine (State.updGroup_rest _ _ _).trans ?_ | with_reducible refine (State.wait_rest _ _ _).trans ?_ | dsimp only | split)

theorem State.checkTeam_rest (s : State) (g : Nat) : (State.checkTeam s g).rest = s.rest := by
  unfold State.checkTeam
  repeat' (first | with_reducible rfl | intro _ | with_reducible refine (foldl_rest _ _ _ ?_).trans ?_ | with_reducible refine (State.acquireL1_rest _ _ _ _).trans ?_ | with_reducible refine (State.updTeam_rest _ _ _).trans ?_ | dsimp only | split)

theorem State.checkGrid_rest (s : State) (grid : Nat) : (State.checkGrid s grid).rest = s.rest := by
  unfold State.checkGrid
  repeat' (first | with_reducible rfl | intro _ | with_reducible refine (foldl_rest _ _ _ ?_).trans ?_ | with_reducible refine (State.updGrid_rest _ _ _).trans ?_ | dsimp only | split)

theorem State.checkBarriers_rest (s : State) (g : Nat) : (State.checkBarriers s g).rest = s.rest := by
  unfold State.checkBarriers
  repeat' (first | with_reducible rfl | intro _ | with_reducible refine (foldl_rest _ _ _ ?_).trans ?_ | with_reducible refine (State.checkGrid_rest _ _).trans ?_ | with_reducible refine (State.checkGroup_rest _ _).trans ?_ | with_reducible refine (State.checkTeam_rest _ _).trans ?_ | dsimp only | split)

theorem State.checkContext_rest (s : State) (ctx : Nat) : (State.checkContext s ctx).rest = s.rest := by
  unfold State.checkContext
  repeat' (first | with_reducible rfl | intro _ | with_reducible refine (foldl_rest _ _ _ ?_).trans ?_ | with_reducible refine (State.checkBarriers_rest _ _).trans ?_ | dsimp only | split)

theorem State.checkReturn_rest (s : State) (g : Nat) : (State.checkReturn s g).rest = s.rest := by
  unfold State.checkReturn
  repeat' (first | with_reducible rfl | intro _ | with_reducible refine (foldl_rest _ _ _ ?_).trans ?_ | with_reducible refine (State.checkBarriers_rest _ _).trans ?_ | with_reducible refine (State.checkContext_rest _ _).trans ?_ | with_reducible refine (State.leaveHandler_rest _ _).trans ?_ | with_reducible refine (State.wait_rest _ _ _).trans ?_ | dsimp only | split)

theorem State.pushStore_rest (s : State) (core : Nat) (t : Store) : (State.pushStore s core t).rest = s.rest := by
  unfold State.pushStore
  repeat' (first | with_reducible rfl | intro _ | with_reducible refine (foldl_rest _ _ _ ?_).trans ?_ | with_reducible refine (State.updCore_rest _ _ _).trans ?_ | dsimp only | split)

theorem State.portTake_rest (s : State) (ctx core n : Nat) (a : Ask) : (State.portTake s ctx core n a).rest = s.rest := by
  unfold State.portTake
  repeat' (first | with_reducible rfl | intro _ | with_reducible refine (foldl_rest _ _ _ ?_).trans ?_ | with_reducible refine (State.updCore_rest _ _ _).trans ?_ | dsimp only | split)

theorem State.portQueue_rest (s : State) (ctx core n : Nat) (a : Ask) : (State.portQueue s ctx core n a).rest = s.rest := by
  unfold State.portQueue
  repeat' (first | with_reducible rfl | intro _ | with_reducible refine (foldl_rest _ _ _ ?_).trans ?_ | with_reducible refine (State.updCore_rest _ _ _).trans ?_ | dsimp only | split)

theorem State.port_rest (s : State) (ctx core n : Nat) (a : Ask) : (s.port ctx core n a).1.rest = s.rest := by
  unfold State.port
  split
  · exact State.portTake_rest ..
  · exact State.portQueue_rest ..

theorem State.waitReplay_rest (s : State) (ctx : Nat) (addrs : List (Nat × W64)) (faulting : List Nat) : (State.waitReplay s ctx addrs faulting).rest = s.rest := by
  unfold State.waitReplay
  repeat' (first | with_reducible rfl | intro _ | with_reducible refine (foldl_rest _ _ _ ?_).trans ?_ | with_reducible refine (State.askSupervisor_rest _ _ _).trans ?_ | with_reducible refine (State.wait_rest _ _ _).trans ?_ | dsimp only | split)

theorem State.suspend_rest (s : State) (i : Instr) (e : Eff) (load : Bool) (dst : Fibre → List Reg) (ctx : Nat) (addrs : List (Nat × W64)) (faulting : List Nat) : (State.suspend s i e load dst ctx addrs faulting).rest = s.rest := by
  unfold State.suspend
  repeat' (first | with_reducible rfl | intro _ | with_reducible refine (foldl_rest _ _ _ ?_).trans ?_ | with_reducible refine (State.advance_rest _ _).trans ?_ | with_reducible refine (State.askSupervisor_rest _ _ _).trans ?_ | with_reducible refine (State.keep_rest _ _ _ _).trans ?_ | with_reducible refine (State.mapLanes_rest _ _ _ _).trans ?_ | with_reducible refine (State.updGroup_rest _ _ _).trans ?_ | dsimp only | split)

theorem State.claimScratch_rest (s : State) (core ctx : Nat) (keep : List Nat) : (State.claimScratch s core ctx keep).rest = s.rest := by
  unfold State.claimScratch
  repeat' (first | with_reducible rfl | intro _ | with_reducible refine (foldl_rest _ _ _ ?_).trans ?_ | with_reducible refine (State.keep_rest _ _ _ _).trans ?_ | with_reducible refine (State.updCore_rest _ _ _).trans ?_ | dsimp only | split)

theorem State.recallScratch_rest (s : State) (core ctx off n : Nat) : (State.recallScratch s core ctx off n).rest = s.rest := by
  unfold State.recallScratch
  repeat' (first | with_reducible rfl | intro _ | with_reducible refine (foldl_rest _ _ _ ?_).trans ?_ | with_reducible refine (State.claimScratch_rest _ _ _ _).trans ?_ | with_reducible refine (State.updCore_rest _ _ _).trans ?_ | dsimp only | split)

theorem State.patchL1_rest (s : State) (core a : Nat) (data : List Byte) (poison : Bool) : (State.patchL1 s core a data poison).rest = s.rest := by
  unfold State.patchL1
  repeat' (first | with_reducible rfl | intro _ | with_reducible refine (foldl_rest _ _ _ ?_).trans ?_ | with_reducible refine (State.updCore_rest _ _ _).trans ?_ | dsimp only | split)

theorem State.sample_rest (s : State) (core g la : Nat) : (State.sample s core g la).rest = s.rest := by
  unfold State.sample
  repeat' (first | with_reducible rfl | intro _ | with_reducible refine (foldl_rest _ _ _ ?_).trans ?_ | with_reducible refine (State.updGroup_rest _ _ _).trans ?_ | dsimp only | split)

theorem State.install_rest (s : State) (core la : Nat) (l : L1Line) (g pol : Nat) : (State.install s core la l g pol).rest = s.rest := by
  unfold State.install
  repeat' (first | with_reducible rfl | intro _ | with_reducible refine (foldl_rest _ _ _ ?_).trans ?_ | with_reducible refine (State.keep_rest _ _ _ _).trans ?_ | with_reducible refine (State.updCore_rest _ _ _).trans ?_ | with_reducible refine (State.updGroup_rest _ _ _).trans ?_ | dsimp only | split)

theorem State.allocL1_rest (s : State) (core la g pol : Nat) (l1 : Bool) : (State.allocL1 s core la g pol l1).rest = s.rest := by
  unfold State.allocL1
  repeat' (first | with_reducible rfl | intro _ | with_reducible refine (foldl_rest _ _ _ ?_).trans ?_ | with_reducible refine (State.install_rest _ _ _ _ _ _).trans ?_ | with_reducible refine (State.updCore_rest _ _ _).trans ?_ | dsimp only | split)

theorem State.plain_rest (s : State) (i : Instr) (go : Eff → State → State) (hgo : ∀ x0 x1, (go x0 x1).rest = x1.rest) : (State.plain s i go).rest = s.rest := by
  unfold State.plain
  repeat' (first | with_reducible rfl | intro _ | with_reducible refine (foldl_rest _ _ _ ?_).trans ?_ | with_reducible refine (State.warn_rest _ _).trans ?_ | with_reducible refine (hgo _ _).trans ?_ | dsimp only | split)

theorem State.only_rest (s : State) (i : Instr) : (State.only s i).rest = s.rest := by
  unfold State.only
  repeat' (first | with_reducible rfl | intro _ | with_reducible refine (foldl_rest _ _ _ ?_).trans ?_ | with_reducible refine (State.complete_rest _ _ _ _).trans ?_ | with_reducible refine (State.plain_rest _ _ _ ?_).trans ?_ | dsimp only | split)

theorem State.jump_rest (s : State) (target : Nat → Fibre → W64) : (State.jump s target).rest = s.rest := by
  unfold State.jump
  repeat' (first | with_reducible rfl | intro _ | with_reducible refine (foldl_rest _ _ _ ?_).trans ?_ | with_reducible refine (State.mapLanes_rest _ _ _ _).trans ?_ | with_reducible refine (State.wait_rest _ _ _).trans ?_ | dsimp only | split)

theorem State.checkTarget_rest (s : State) (f : BitVec 3) (a : BitVec 7) (go : State → State) (hgo : ∀ x0, (go x0).rest = x0.rest) : (State.checkTarget s f a go).rest = s.rest := by
  unfold State.checkTarget
  repeat' (first | with_reducible rfl | intro _ | with_reducible refine (foldl_rest _ _ _ ?_).trans ?_ | with_reducible refine (State.control_rest _ _ _ _ ?_).trans ?_ | with_reducible refine (State.precise_rest _ _ _ _ _ _ _).trans ?_ | with_reducible refine (hgo _).trans ?_ | dsimp only | split)

theorem State.releaseJunction_rest (s : State) (g : Nat) (pc : W64) : (State.releaseJunction s g pc).rest = s.rest := by
  unfold State.releaseJunction
  repeat' (first | with_reducible rfl | intro _ | with_reducible refine (foldl_rest _ _ _ ?_).trans ?_ | with_reducible refine (State.mapLanes_rest _ _ _ _).trans ?_ | dsimp only | split)

theorem State.illegalHere_rest (s : State) (info : Nat) : (State.illegalHere s info).rest = s.rest := by
  unfold State.illegalHere
  repeat' (first | with_reducible rfl | intro _ | with_reducible refine (foldl_rest _ _ _ ?_).trans ?_ | with_reducible refine (State.precise_rest _ _ _ _ _ _ _).trans ?_ | dsimp only | split)

theorem State.copyHolders_rest (s : State) (core g uid new : Nat) : (State.copyHolders s core g uid new).rest = s.rest := by
  unfold State.copyHolders
  repeat' (first | with_reducible rfl | intro _ | with_reducible refine (foldl_rest _ _ _ ?_).trans ?_ | with_reducible refine (State.updCore_rest _ _ _).trans ?_ | dsimp only | split)

theorem State.forkOne_rest (s : State) (f : BitVec 3) (d a b : BitVec 7) (x : Group) (lane : Nat) : (State.forkOne s f d a b x lane).rest = s.rest := by
  unfold State.forkOne
  repeat' (first | with_reducible rfl | intro _ | with_reducible refine (foldl_rest _ _ _ ?_).trans ?_ | with_reducible refine (State.copyHolders_rest _ _ _ _ _).trans ?_ | with_reducible refine (State.releaseHolders_rest _ _ _ _ _).trans ?_ | with_reducible refine (State.updFibre_rest _ _ _ _).trans ?_ | with_reducible refine (State.updGroup_rest _ _ _).trans ?_ | dsimp only | split)

theorem State.zeroMasked_rest (s : State) (e : Eff) (act : List Nat) (d : Dst) (old : Group) : (State.zeroMasked s e act d old).rest = s.rest := by
  unfold State.zeroMasked
  repeat' (first | with_reducible rfl | intro _ | with_reducible refine (foldl_rest _ _ _ ?_).trans ?_ | with_reducible refine (State.mapLanes_rest _ _ _ _).trans ?_ | with_reducible refine (State.releaseHolders_rest _ _ _ _ _).trans ?_ | dsimp only | split)

theorem State.window_rest (s : State) (e : Eff) (base : Fibre → Int) (req : Fibre → W64) : (State.window s e base req).rest = s.rest := by
  unfold State.window
  repeat' (first | with_reducible rfl | intro _ | with_reducible refine (foldl_rest _ _ _ ?_).trans ?_ | with_reducible refine (State.complete_rest _ _ _ _).trans ?_ | with_reducible refine (State.mapLanes_rest _ _ _ _).trans ?_ | with_reducible refine (State.precise_rest _ _ _ _ _ _ _).trans ?_ | dsimp only | split)

theorem State.setDest_rest (s : State) (d : Dst) (v : Nat → Fibre → Val) : (State.setDest s d v).rest = s.rest := by
  unfold State.setDest
  repeat' (first | with_reducible rfl | intro _ | with_reducible refine (foldl_rest _ _ _ ?_).trans ?_ | with_reducible refine (State.mapLanes_rest _ _ _ _).trans ?_ | with_reducible refine (State.releaseHolders_rest _ _ _ _ _).trans ?_ | dsimp only | split)

theorem State.writeSys_rest (s : State) (n lane : Nat) (v : W64) : (State.writeSys s n lane v).rest = s.rest := by
  unfold State.writeSys
  repeat' (first | with_reducible rfl | intro _ | with_reducible refine (foldl_rest _ _ _ ?_).trans ?_ | with_reducible refine (State.releaseHolders_rest _ _ _ _ _).trans ?_ | with_reducible refine (State.updFibre_rest _ _ _ _).trans ?_ | with_reducible refine (State.updGroup_rest _ _ _).trans ?_ | dsimp only | split)

theorem State.swr_rest (s : State) (i : Instr) (m : Mods) (a n : BitVec 7) (f : W64 → W64 → W64) : (State.swr s i m a n f).rest = s.rest := by
  unfold State.swr
  repeat' (first | with_reducible rfl | intro _ | with_reducible refine (foldl_rest _ _ _ ?_).trans ?_ | with_reducible refine (State.complete_rest _ _ _ _).trans ?_ | with_reducible refine (State.control_rest _ _ _ _ ?_).trans ?_ | with_reducible refine (State.illegalHere_rest _ _).trans ?_ | with_reducible refine (State.plain_rest _ _ _ ?_).trans ?_ | with_reducible refine (State.precise_rest _ _ _ _ _ _ _).trans ?_ | with_reducible refine (State.writeSys_rest _ _ _ _).trans ?_ | dsimp only | split)

theorem State.retireResult_rest (s : State) (core id : Nat) : (State.retireResult s core id).rest = s.rest := by
  unfold State.retireResult
  repeat' (first | with_reducible rfl | intro _ | with_reducible refine (foldl_rest _ _ _ ?_).trans ?_ | with_reducible refine (State.fault_rest _ _ _ _ _).trans ?_ | with_reducible refine (State.updCore_rest _ _ _).trans ?_ | with_reducible refine (State.updFibre_rest _ _ _ _).trans ?_ | with_reducible refine (State.updGroup_rest _ _ _).trans ?_ | dsimp only | split)

theorem State.freezeTiles_rest (s : State) (ctx core : Nat) : (State.freezeTiles s ctx core).rest = s.rest := by
  unfold State.freezeTiles
  repeat' (first | with_reducible rfl | intro _ | with_reducible refine (foldl_rest _ _ _ ?_).trans ?_ | dsimp only | split)

theorem State.updLoad_rest (s : State) (core id : Nat) (f : Load → Load) : (State.updLoad s core id f).rest = s.rest := by
  unfold State.updLoad
  repeat' (first | with_reducible rfl | intro _ | with_reducible refine (foldl_rest _ _ _ ?_).trans ?_ | with_reducible refine (State.updCore_rest _ _ _).trans ?_ | dsimp only | split)

theorem State.updLane_rest (s : State) (core id lane : Nat) (f : LaneLoad → LaneLoad) : (State.updLane s core id lane f).rest = s.rest := by
  unfold State.updLane
  repeat' (first | with_reducible rfl | intro _ | with_reducible refine (foldl_rest _ _ _ ?_).trans ?_ | with_reducible refine (State.updLoad_rest _ _ _ _).trans ?_ | dsimp only | split)

theorem State.landReg_rest (s : State) (g lane uid : Nat) (r : Option Reg) (form : LoadForm) (v : Val) : (State.landReg s g lane uid r form v).rest = s.rest := by
  unfold State.landReg
  repeat' (first | with_reducible rfl | intro _ | with_reducible refine (foldl_rest _ _ _ ?_).trans ?_ | with_reducible refine (State.releaseHolders_rest _ _ _ _ _).trans ?_ | with_reducible refine (State.updFibre_rest _ _ _ _).trans ?_ | dsimp only | split)

theorem State.updateGuess_rest (s : State) (core : Nat) (l : Load) : (State.updateGuess s core l).rest = s.rest := by
  unfold State.updateGuess
  repeat' (first | with_reducible rfl | intro _ | with_reducible refine (foldl_rest _ _ _ ?_).trans ?_ | with_reducible refine (State.updCore_rest _ _ _).trans ?_ | dsimp only | split)

theorem State.settleLoad_rest (s : State) (core id : Nat) (was : Bool) : (State.settleLoad s core id was).rest = s.rest := by
  unfold State.settleLoad
  repeat' (first | with_reducible rfl | intro _ | with_reducible refine (foldl_rest _ _ _ ?_).trans ?_ | with_reducible refine (State.updCore_rest _ _ _).trans ?_ | with_reducible refine (State.updGroup_rest _ _ _).trans ?_ | with_reducible refine (State.updLoad_rest _ _ _ _).trans ?_ | with_reducible refine (State.updateGuess_rest _ _ _).trans ?_ | dsimp only | split)

theorem State.takeTicket_rest (s : State) (core id : Nat) (l : Load) (lane : Nat) (e : LaneLoad) : (State.takeTicket s core id l lane e).rest = s.rest := by
  unfold State.takeTicket
  repeat' (first | with_reducible rfl | intro _ | with_reducible refine (foldl_rest _ _ _ ?_).trans ?_ | with_reducible refine (State.landReg_rest _ _ _ _ _ _ _).trans ?_ | with_reducible refine (State.updCore_rest _ _ _).trans ?_ | with_reducible refine (State.updLane_rest _ _ _ _ _).trans ?_ | dsimp only | split)

theorem State.expire_rest (s : State) (core id limit : Nat) : (State.expire s core id limit).rest = s.rest := by
  unfold State.expire
  repeat' (first | with_reducible rfl | intro _ | with_reducible refine (foldl_rest _ _ _ ?_).trans ?_ | with_reducible refine (State.landReg_rest _ _ _ _ _ _ _).trans ?_ | with_reducible refine (State.settleLoad_rest _ _ _ _).trans ?_ | with_reducible refine (State.takeTicket_rest _ _ _ _ _ _).trans ?_ | with_reducible refine (State.updLane_rest _ _ _ _ _).trans ?_ | dsimp only | split)

theorem State.truthFor_rest (s : State) (core ticket v : Nat) (p : Bool) : (State.truthFor s core ticket v p).rest = s.rest := by
  unfold State.truthFor
  repeat' (first | with_reducible rfl | intro _ | with_reducible refine (foldl_rest _ _ _ ?_).trans ?_ | with_reducible refine (State.mapLanes_rest _ _ _ _).trans ?_ | with_reducible refine (State.updCore_rest _ _ _).trans ?_ | dsimp only | split)

theorem State.unhookAfter_rest (s : State) (core g uid seq : Nat) : (State.unhookAfter s core g uid seq).rest = s.rest := by
  unfold State.unhookAfter
  repeat' (first | with_reducible rfl | intro _ | with_reducible refine (foldl_rest _ _ _ ?_).trans ?_ | with_reducible refine (State.updCore_rest _ _ _).trans ?_ | dsimp only | split)

theorem State.deliver_rest (s : State) (core id lane v : Nat) (p : Bool) : (State.deliver s core id lane v p).rest = s.rest := by
  unfold State.deliver
  repeat' (first | with_reducible rfl | intro _ | with_reducible refine (foldl_rest _ _ _ ?_).trans ?_ | with_reducible refine (State.acquireL1_rest _ _ _ _).trans ?_ | with_reducible refine (State.expire_rest _ _ _ _).trans ?_ | with_reducible refine (State.landReg_rest _ _ _ _ _ _ _).trans ?_ | with_reducible refine (State.settleGm_rest _ _).trans ?_ | with_reducible refine (State.settleLoad_rest _ _ _ _).trans ?_ | with_reducible refine (State.truthFor_rest _ _ _ _ _).trans ?_ | with_reducible refine (State.unhookAfter_rest _ _ _ _ _).trans ?_ | with_reducible refine (State.updLane_rest _ _ _ _ _).trans ?_ | dsimp only | split)

theorem State.unhook_rest (s : State) (core la uid : Nat) : (State.unhook s core la uid).rest = s.rest := by
  unfold State.unhook
  repeat' (first | with_reducible rfl | intro _ | with_reducible refine (foldl_rest _ _ _ ?_).trans ?_ | with_reducible refine (State.updCore_rest _ _ _).trans ?_ | dsimp only | split)

theorem State.memFault_rest (s : State) (ctx eng info lane sub : Nat) (va : W64) : (State.memFault s ctx eng info lane sub va).rest = s.rest := by
  unfold State.memFault
  repeat' (first | with_reducible rfl | intro _ | with_reducible refine (foldl_rest _ _ _ ?_).trans ?_ | with_reducible refine (State.forget_rest _ _ _).trans ?_ | with_reducible refine (State.precise_rest _ _ _ _ _ _ _).trans ?_ | dsimp only | split)

theorem State.askFills_rest (s : State) (core id : Nat) : (State.askFills s core id).rest = s.rest := by
  unfold State.askFills
  repeat' (first | with_reducible rfl | intro _ | with_reducible refine (foldl_rest _ _ _ ?_).trans ?_ | with_reducible refine (State.install_rest _ _ _ _ _ _).trans ?_ | with_reducible refine (State.sample_rest _ _ _ _).trans ?_ | with_reducible refine (State.updCore_rest _ _ _).trans ?_ | with_reducible refine (State.updLane_rest _ _ _ _ _).trans ?_ | dsimp only | split)

theorem State.maskedOff_rest (s : State) (e : Eff) (act : List Nat) (d : Dst) (old : Group) : (State.maskedOff s e act d old).rest = s.rest := by
  unfold State.maskedOff
  repeat' (first | with_reducible rfl | intro _ | with_reducible refine (foldl_rest _ _ _ ?_).trans ?_ | with_reducible refine (State.mapLanes_rest _ _ _ _).trans ?_ | with_reducible refine (State.zeroMasked_rest _ _ _ _ _).trans ?_ | dsimp only | split)

theorem State.sendLoad_rest (s : State) (z : LoadIns) (e : Eff) (x : Group) (act : List Nat) (pas : List (Nat × Nat × Page)) (addr : Nat → Val) : (State.sendLoad s z e x act pas addr).rest = s.rest := by
  unfold State.sendLoad
  repeat' (first | with_reducible rfl | intro _ | with_reducible refine (foldl_rest _ _ _ ?_).trans ?_ | with_reducible refine (State.askFills_rest _ _ _).trans ?_ | with_reducible refine (State.landReg_rest _ _ _ _ _ _ _).trans ?_ | with_reducible refine (State.mapLanes_rest _ _ _ _).trans ?_ | with_reducible refine (State.settleLoad_rest _ _ _ _).trans ?_ | with_reducible refine (State.updCore_rest _ _ _).trans ?_ | with_reducible refine (State.updGroup_rest _ _ _).trans ?_ | with_reducible refine (State.updLane_rest _ _ _ _ _).trans ?_ | dsimp only | split)

theorem State.consume_rest (s : State) (core la id lane : Nat) (line : L1Line) : (State.consume s core la id lane line).rest = s.rest := by
  unfold State.consume
  repeat' (first | with_reducible rfl | intro _ | with_reducible refine (foldl_rest _ _ _ ?_).trans ?_ | with_reducible refine (State.deliver_rest _ _ _ _ _ _).trans ?_ | with_reducible refine (State.updLane_rest _ _ _ _ _).trans ?_ | dsimp only | split)

theorem State.accept_rest (s : State) (g uid : Nat) (regs : List Reg) : (State.accept s g uid regs).rest = s.rest := by
  unfold State.accept
  repeat' (first | with_reducible rfl | intro _ | with_reducible refine (foldl_rest _ _ _ ?_).trans ?_ | with_reducible refine (State.updCore_rest _ _ _).trans ?_ | dsimp only | split)

theorem State.testTags_rest (s : State) (i : Instr) (d a b : BitVec 7) (f : Val → Bool) : (State.testTags s i d a b f).rest = s.rest := by
  unfold State.testTags
  repeat' (first | with_reducible rfl | intro _ | with_reducible refine (foldl_rest _ _ _ ?_).trans ?_ | with_reducible refine (State.complete_rest _ _ _ _).trans ?_ | with_reducible refine (State.mapLanes_rest _ _ _ _).trans ?_ | with_reducible refine (State.plain_rest _ _ _ ?_).trans ?_ | dsimp only | split)

theorem State.demand_rest (s : State) (e : Eff) (a sel : BitVec 7) (blocks : Bool) (finish : List Nat → State → State) (hfinish : ∀ x0 x1, (finish x0 x1).rest = x1.rest) : (State.demand s e a sel blocks finish).rest = s.rest := by
  unfold State.demand
  repeat' (first | with_reducible rfl | intro _ | with_reducible refine (foldl_rest _ _ _ ?_).trans ?_ | with_reducible refine (State.narrow_rest _ _).trans ?_ | with_reducible refine (State.wait_rest _ _ _).trans ?_ | with_reducible refine (hfinish _ _).trans ?_ | dsimp only | split)

theorem State.finishLanes_rest (s : State) (lanes : List Nat) : (State.finishLanes s lanes).rest = s.rest := by
  unfold State.finishLanes
  repeat' (first | with_reducible rfl | intro _ | with_reducible refine (foldl_rest _ _ _ ?_).trans ?_ | with_reducible refine (State.advance_rest _ _).trans ?_ | with_reducible refine (State.settleGm_rest _ _).trans ?_ | dsimp only | split)

theorem State.writeTruth_rest (s : State) (lane : Nat) (regs : List Reg) : (State.writeTruth s lane regs).rest = s.rest := by
  unfold State.writeTruth
  repeat' (first | with_reducible rfl | intro _ | with_reducible refine (foldl_rest _ _ _ ?_).trans ?_ | with_reducible refine (State.accept_rest _ _ _ _).trans ?_ | with_reducible refine (State.mapLanes_rest _ _ _ _).trans ?_ | dsimp only | split)

theorem State.check_rest (s : State) (cause sub info eng : Nat) (lanes : List Nat) (go : State → State) (hgo : ∀ x0, (go x0).rest = x0.rest) : (State.check s cause sub info eng lanes go).rest = s.rest := by
  unfold State.check
  repeat' (first | with_reducible rfl | intro _ | with_reducible refine (foldl_rest _ _ _ ?_).trans ?_ | with_reducible refine (State.precise_rest _ _ _ _ _ _ _).trans ?_ | with_reducible refine (hgo _).trans ?_ | dsimp only | split)

theorem State.sendStores_rest (s : State) (z : StoreIns) (need : Nat) (x : Group) (lanes : List (Nat × Nat × Option Page)) : (State.sendStores s z need x lanes).rest = s.rest := by
  unfold State.sendStores
  repeat' (first | with_reducible rfl | intro _ | with_reducible refine (foldl_rest _ _ _ ?_).trans ?_ | with_reducible refine (State.pushStore_rest _ _ _).trans ?_ | with_reducible refine (State.sample_rest _ _ _ _).trans ?_ | with_reducible refine (State.updGroup_rest _ _ _).trans ?_ | dsimp only | split)

theorem State.scratchWrite_rest (s : State) (core ctx off : Nat) (data : List Byte) (poison : Bool) : (State.scratchWrite s core ctx off data poison).rest = s.rest := by
  unfold State.scratchWrite
  repeat' (first | with_reducible rfl | intro _ | with_reducible refine (foldl_rest _ _ _ ?_).trans ?_ | with_reducible refine (State.updCore_rest _ _ _).trans ?_ | dsimp only | split)

theorem State.settleStore_rest (s : State) (core op g : Nat) : (State.settleStore s core op g).rest = s.rest := by
  unfold State.settleStore
  repeat' (first | with_reducible rfl | intro _ | with_reducible refine (foldl_rest _ _ _ ?_).trans ?_ | with_reducible refine (State.updGroup_rest _ _ _).trans ?_ | dsimp only | split)

theorem State.raiseStore_rest (s : State) (core id : Nat) (t : Store) (level : Nat) : (State.raiseStore s core id t level).rest = s.rest := by
  unfold State.raiseStore
  repeat' (first | with_reducible rfl | intro _ | with_reducible refine (foldl_rest _ _ _ ?_).trans ?_ | with_reducible refine (State.settleStore_rest _ _ _ _).trans ?_ | with_reducible refine (State.updCore_rest _ _ _).trans ?_ | dsimp only | split)

theorem State.endStore_rest (s : State) (core id : Nat) (t : Store) : (State.endStore s core id t).rest = s.rest := by
  unfold State.endStore
  repeat' (first | with_reducible rfl | intro _ | with_reducible refine (foldl_rest _ _ _ ?_).trans ?_ | with_reducible refine (State.settleStore_rest _ _ _ _).trans ?_ | with_reducible refine (State.updCore_rest _ _ _).trans ?_ | dsimp only | split)

theorem State.baseChecks_rest (s : State) (act : List Nat) (addr : Nat → Val) (go : State → State) (hgo : ∀ x0, (go x0).rest = x0.rest) : (State.baseChecks s act addr go).rest = s.rest := by
  unfold State.baseChecks
  repeat' (first | with_reducible rfl | intro _ | with_reducible refine (foldl_rest _ _ _ ?_).trans ?_ | with_reducible refine (State.precise_rest _ _ _ _ _ _ _).trans ?_ | with_reducible refine (hgo _).trans ?_ | dsimp only | split)

theorem State.sendAtomic_rest (s : State) (z : AtomicIns) (x : Group) (pas : List (Nat × Nat × Page)) (va : Nat → W64) : (State.sendAtomic s z x pas va).rest = s.rest := by
  unfold State.sendAtomic
  repeat' (first | with_reducible rfl | intro _ | with_reducible refine (foldl_rest _ _ _ ?_).trans ?_ | with_reducible refine (State.mapLanes_rest _ _ _ _).trans ?_ | with_reducible refine (State.sample_rest _ _ _ _).trans ?_ | with_reducible refine (State.updCore_rest _ _ _).trans ?_ | with_reducible refine (State.updGroup_rest _ _ _).trans ?_ | dsimp only | split)

theorem State.updAtomic_rest (s : State) (core id : Nat) (f : Atomic → Atomic) : (State.updAtomic s core id f).rest = s.rest := by
  unfold State.updAtomic
  repeat' (first | with_reducible rfl | intro _ | with_reducible refine (foldl_rest _ _ _ ?_).trans ?_ | with_reducible refine (State.updCore_rest _ _ _).trans ?_ | dsimp only | split)

theorem State.countAtomic_rest (s : State) (a : Atomic) : (State.countAtomic s a).rest = s.rest := by
  unfold State.countAtomic
  repeat' (first | with_reducible rfl | intro _ | with_reducible refine (foldl_rest _ _ _ ?_).trans ?_ | with_reducible refine (State.updGroup_rest _ _ _).trans ?_ | dsimp only | split)

theorem State.endAtomic_rest (s : State) (core id : Nat) : (State.endAtomic s core id).rest = s.rest := by
  unfold State.endAtomic
  repeat' (first | with_reducible rfl | intro _ | with_reducible refine (foldl_rest _ _ _ ?_).trans ?_ | with_reducible refine (State.countAtomic_rest _ _).trans ?_ | with_reducible refine (State.deferred_rest _ _ _ _ _ _ _ _ _).trans ?_ | with_reducible refine (State.updCore_rest _ _ _).trans ?_ | dsimp only | split)

theorem State.unlock_rest (s : State) (g lane uid : Nat) (regs : List Reg) : (State.unlock s g lane uid regs).rest = s.rest := by
  unfold State.unlock
  repeat' (first | with_reducible rfl | intro _ | with_reducible refine (foldl_rest _ _ _ ?_).trans ?_ | with_reducible refine (State.updFibre_rest _ _ _ _).trans ?_ | dsimp only | split)

theorem State.acceptLane_rest (s : State) (core id lane : Nat) (a : Atomic) : (State.acceptLane s core id lane a).rest = s.rest := by
  unfold State.acceptLane
  repeat' (first | with_reducible rfl | intro _ | with_reducible refine (foldl_rest _ _ _ ?_).trans ?_ | with_reducible refine (State.countAtomic_rest _ _).trans ?_ | with_reducible refine (State.updAtomic_rest _ _ _ _).trans ?_ | dsimp only | split)

theorem State.arriving_rest (s : State) (bar : Bar) (d : Nat) : (State.arriving s bar d).rest = s.rest := by
  unfold State.arriving
  repeat' (first | with_reducible rfl | intro _ | with_reducible refine (foldl_rest _ _ _ ?_).trans ?_ | with_reducible refine (State.wait_rest _ _ _).trans ?_ | dsimp only | split)

theorem State.releaseCore_rest (s : State) (grid core : Nat) : (State.releaseCore s grid core).rest = s.rest := by
  unfold State.releaseCore
  repeat' (first | with_reducible rfl | intro _ | with_reducible refine (foldl_rest _ _ _ ?_).trans ?_ | with_reducible refine (State.acquireL1_rest _ _ _ _).trans ?_ | with_reducible refine (State.mapLanes_rest _ _ _ _).trans ?_ | with_reducible refine (State.wait_rest _ _ _).trans ?_ | dsimp only | split)

theorem State.lease_rest (s : State) (e : Eff) (d : BitVec 7) (v : Option Nat) : (State.lease s e d v).rest = s.rest := by
  unfold State.lease
  repeat' (first | with_reducible rfl | intro _ | with_reducible refine (foldl_rest _ _ _ ?_).trans ?_ | with_reducible refine (State.complete_rest _ _ _ _).trans ?_ | with_reducible refine (State.setDest_rest _ _ _).trans ?_ | with_reducible refine (State.updGroup_rest _ _ _).trans ?_ | dsimp only | split)

theorem State.released_rest (s : State) (level : Nat) (lanes : List Nat) (go : State → State) (hgo : ∀ x0, (go x0).rest = x0.rest) : (State.released s level lanes go).rest = s.rest := by
  unfold State.released
  repeat' (first | with_reducible rfl | intro _ | with_reducible refine (foldl_rest _ _ _ ?_).trans ?_ | with_reducible refine (State.mapLanes_rest _ _ _ _).trans ?_ | with_reducible refine (State.wait_rest _ _ _).trans ?_ | with_reducible refine (hgo _).trans ?_ | dsimp only | split)

theorem State.newGroup_rest (s : State) (grid : Nat) (team index core track : Nat) : (State.newGroup s grid team index core track).rest = s.rest := by
  unfold State.newGroup
  repeat' (first | with_reducible rfl | intro _ | with_reducible refine (foldl_rest _ _ _ ?_).trans ?_ | with_reducible refine (State.lease_rest _ _ _ _).trans ?_ | with_reducible refine (State.updCore_rest _ _ _).trans ?_ | dsimp only | split)

theorem State.claimRows_rest (s : State) (core track g : Nat) : (State.claimRows s core track g).rest = s.rest := by
  unfold State.claimRows
  repeat' (first | with_reducible rfl | intro _ | with_reducible refine (foldl_rest _ _ _ ?_).trans ?_ | with_reducible refine (State.updGroup_rest _ _ _).trans ?_ | dsimp only | split)

theorem State.recallRows_rest (s : State) (g : Nat) : (State.recallRows s g).rest = s.rest := by
  unfold State.recallRows
  repeat' (first | with_reducible rfl | intro _ | with_reducible refine (foldl_rest _ _ _ ?_).trans ?_ | with_reducible refine (State.claimRows_rest _ _ _ _).trans ?_ | with_reducible refine (State.updGroup_rest _ _ _).trans ?_ | dsimp only | split)

theorem State.removeGroup_rest (s : State) (g : Nat) : (State.removeGroup s g).rest = s.rest := by
  unfold State.removeGroup
  repeat' (first | with_reducible rfl | intro _ | with_reducible refine (foldl_rest _ _ _ ?_).trans ?_ | with_reducible refine (State.keep_rest _ _ _ _).trans ?_ | with_reducible refine (State.updCore_rest _ _ _).trans ?_ | dsimp only | split)

theorem State.sendAcquire_rest (s : State) (x : Group) (dst : Dst) (form : LoadForm) (bytes scope : Nat) (victims : List Nat) (pas : List (Nat × Nat × Page)) (va : Nat → W64) : (State.sendAcquire s x dst form bytes scope victims pas va).rest = s.rest := by
  unfold State.sendAcquire
  repeat' (first | with_reducible rfl | intro _ | with_reducible refine (foldl_rest _ _ _ ?_).trans ?_ | with_reducible refine (State.mapLanes_rest _ _ _ _).trans ?_ | with_reducible refine (State.sample_rest _ _ _ _).trans ?_ | with_reducible refine (State.updCore_rest _ _ _).trans ?_ | with_reducible refine (State.updGroup_rest _ _ _).trans ?_ | dsimp only | split)

theorem State.fence_rest (s : State) (e : Eff) (kind scope : Nat) (range : Fibre → Option (W64 × Nat)) : (State.fence s e kind scope range).rest = s.rest := by
  unfold State.fence
  repeat' (first | with_reducible rfl | intro _ | with_reducible refine (foldl_rest _ _ _ ?_).trans ?_ | with_reducible refine (State.acquireL1_rest _ _ _ _).trans ?_ | with_reducible refine (State.complete_rest _ _ _ _).trans ?_ | with_reducible refine (State.mapLanes_rest _ _ _ _).trans ?_ | with_reducible refine (State.narrow_rest _ _).trans ?_ | with_reducible refine (State.wait_rest _ _ _).trans ?_ | dsimp only | split)

theorem State.controlUnit_rest (s : State) (eng : Nat) (ops : Fibre → List Ctl) (go : State → State) (hgo : ∀ x0, (go x0).rest = x0.rest) : (State.controlUnit s eng ops go).rest = s.rest := by
  unfold State.controlUnit
  repeat' (first | with_reducible rfl | intro _ | with_reducible refine (foldl_rest _ _ _ ?_).trans ?_ | with_reducible refine (State.mapLanes_rest _ _ _ _).trans ?_ | with_reducible refine (State.precise_rest _ _ _ _ _ _ _).trans ?_ | with_reducible refine (State.releaseHolders_rest _ _ _ _ _).trans ?_ | with_reducible refine (State.wait_rest _ _ _).trans ?_ | with_reducible refine (hgo _).trans ?_ | dsimp only | split)

theorem State.copy_rest (s : State) (z : CopyIns) : (State.copy s z).rest = s.rest := by
  unfold State.copy
  repeat' (first | with_reducible rfl | intro _ | with_reducible refine (foldl_rest _ _ _ ?_).trans ?_ | with_reducible refine (State.complete_rest _ _ _ _).trans ?_ | with_reducible refine (State.controlUnit_rest _ _ _ _ ?_).trans ?_ | with_reducible refine (State.plain_rest _ _ _ ?_).trans ?_ | with_reducible refine (State.precise_rest _ _ _ _ _ _ _).trans ?_ | with_reducible refine (State.updCore_rest _ _ _).trans ?_ | with_reducible refine (State.updGroup_rest _ _ _).trans ?_ | dsimp only | split)

theorem State.updCopy_rest (s : State) (core id : Nat) (f : Copy → Copy) : (State.updCopy s core id f).rest = s.rest := by
  unfold State.updCopy
  repeat' (first | with_reducible rfl | intro _ | with_reducible refine (foldl_rest _ _ _ ?_).trans ?_ | with_reducible refine (State.updCore_rest _ _ _).trans ?_ | dsimp only | split)

theorem State.setHandle_rest (s : State) (h : Nat) (v : Handle) : (State.setHandle s h v).rest = s.rest := by
  unfold State.setHandle
  repeat' (first | with_reducible rfl | intro _ | with_reducible refine (foldl_rest _ _ _ ?_).trans ?_ | with_reducible refine (State.updGroup_rest _ _ _).trans ?_ | dsimp only | split)

theorem State.handleFault_rest (s : State) (sub : Nat) (c : HandleCheck) : (State.handleFault s sub c).rest = s.rest := by
  unfold State.handleFault
  repeat' (first | with_reducible rfl | intro _ | with_reducible refine (foldl_rest _ _ _ ?_).trans ?_ | with_reducible refine (State.precise_rest _ _ _ _ _ _ _).trans ?_ | dsimp only | split)

theorem State.checkHandles_rest (s : State) (checks : List HandleCheck) (go : State → State) (hgo : ∀ x0, (go x0).rest = x0.rest) : (State.checkHandles s checks go).rest = s.rest := by
  unfold State.checkHandles
  repeat' (first | with_reducible rfl | intro _ | with_reducible refine (foldl_rest _ _ _ ?_).trans ?_ | with_reducible refine (State.handleFault_rest _ _ _).trans ?_ | with_reducible refine (hgo _).trans ?_ | dsimp only | split)

theorem State.tileBase_rest (s : State) (b : BitVec 7) (off : W64) (rowBytes : Nat) (write : Bool) (go : W64 → W64 → State → State) (hgo : ∀ x0 x1 x2, (go x0 x1 x2).rest = x2.rest) : (State.tileBase s b off rowBytes write go).rest = s.rest := by
  unfold State.tileBase
  repeat' (first | with_reducible rfl | intro _ | with_reducible refine (foldl_rest _ _ _ ?_).trans ?_ | with_reducible refine (State.precise_rest _ _ _ _ _ _ _).trans ?_ | with_reducible refine (hgo _ _ _).trans ?_ | dsimp only | split)

theorem State.scratchBase_rest (s : State) (b : BitVec 7) (off : W64) (tag : Option Nat) (transposed write : Bool) (go : W64 → State → State) (hgo : ∀ x0 x1, (go x0 x1).rest = x1.rest) : (State.scratchBase s b off tag transposed write go).rest = s.rest := by
  unfold State.scratchBase
  repeat' (first | with_reducible rfl | intro _ | with_reducible refine (foldl_rest _ _ _ ?_).trans ?_ | with_reducible refine (State.precise_rest _ _ _ _ _ _ _).trans ?_ | with_reducible refine (hgo _ _).trans ?_ | dsimp only | split)

theorem State.warnGroup_rest (s : State) (g : Nat) (w : W32) : (State.warnGroup s g w).rest = s.rest := by
  unfold State.warnGroup
  repeat' (first | with_reducible rfl | intro _ | with_reducible refine (foldl_rest _ _ _ ?_).trans ?_ | with_reducible refine (State.updGroup_rest _ _ _).trans ?_ | with_reducible refine (State.warn_rest _ _).trans ?_ | dsimp only | split)

theorem State.recallTile_rest (s : State) (core ctx : Nat) (offs : List Nat) : (State.recallTile s core ctx offs).rest = s.rest := by
  unfold State.recallTile
  repeat' (first | with_reducible rfl | intro _ | with_reducible refine (foldl_rest _ _ _ ?_).trans ?_ | with_reducible refine (State.recallScratch_rest _ _ _ _ _).trans ?_ | dsimp only | split)

theorem State.updQuarter_rest (s : State) (core id n : Nat) (f : Quarter → Quarter) : (State.updQuarter s core id n f).rest = s.rest := by
  unfold State.updQuarter
  repeat' (first | with_reducible rfl | intro _ | with_reducible refine (foldl_rest _ _ _ ?_).trans ?_ | with_reducible refine (State.updCore_rest _ _ _).trans ?_ | dsimp only | split)

theorem State.thaw_rest (s : State) (ctx id n : Nat) : (State.thaw s ctx id n).rest = s.rest := by
  unfold State.thaw
  repeat' (first | with_reducible rfl | intro _ | with_reducible refine (foldl_rest _ _ _ ?_).trans ?_ | dsimp only | split)

theorem State.flipCopies_rest (s : State) (ctx : Nat) (va : W64) (len : Nat) (on : Bool) : (State.flipCopies s ctx va len on).rest = s.rest := by
  unfold State.flipCopies
  repeat' (first | with_reducible rfl | intro _ | with_reducible refine (foldl_rest _ _ _ ?_).trans ?_ | dsimp only | split)

theorem State.fabric_rest (s : State) (z : FabricIns) (go : Eff → State → State) (hgo : ∀ x0 x1, (go x0 x1).rest = x1.rest) : (State.fabric s z go).rest = s.rest := by
  unfold State.fabric
  repeat' (first | with_reducible rfl | intro _ | with_reducible refine (foldl_rest _ _ _ ?_).trans ?_ | with_reducible refine (State.controlUnit_rest _ _ _ _ ?_).trans ?_ | with_reducible refine (State.plain_rest _ _ _ ?_).trans ?_ | with_reducible refine (State.precise_rest _ _ _ _ _ _ _).trans ?_ | with_reducible refine (hgo _ _).trans ?_ | dsimp only | split)

theorem State.answer_rest (s : State) (g : Nat) (dst : List (Nat × Nat × Reg)) (v : Nat) : (State.answer s g dst v).rest = s.rest := by
  unfold State.answer
  repeat' (first | with_reducible rfl | intro _ | with_reducible refine (foldl_rest _ _ _ ?_).trans ?_ | with_reducible refine (State.landReg_rest _ _ _ _ _ _ _).trans ?_ | with_reducible refine (State.settleGm_rest _ _).trans ?_ | dsimp only | split)

theorem State.endWait_rest (s : State) (g lane core : Nat) (b : Fibre) (d words v : Nat) (last : List Reg) : (State.endWait s g lane core b d words v last).rest = s.rest := by
  unfold State.endWait
  repeat' (first | with_reducible rfl | intro _ | with_reducible refine (foldl_rest _ _ _ ?_).trans ?_ | with_reducible refine (State.acquireL1_rest _ _ _ _).trans ?_ | with_reducible refine (State.releaseHolders_rest _ _ _ _ _).trans ?_ | with_reducible refine (State.settleGm_rest _ _).trans ?_ | with_reducible refine (State.updFibre_rest _ _ _ _).trans ?_ | with_reducible refine (State.wait_rest _ _ _).trans ?_ | dsimp only | split)

theorem State.unasked_rest (s : State) (g lane : Nat) : (State.unasked s g lane).rest = s.rest := by
  unfold State.unasked
  repeat' (first | with_reducible rfl | intro _ | with_reducible refine (foldl_rest _ _ _ ?_).trans ?_ | with_reducible refine (State.updGroup_rest _ _ _).trans ?_ | dsimp only | split)

theorem State.finishStep_rest (s : State) (p : Pending) : (State.finishStep s p).rest = s.rest := by
  unfold State.finishStep
  repeat' (first | with_reducible rfl | intro _ | with_reducible refine (foldl_rest _ _ _ ?_).trans ?_ | with_reducible refine (State.answer_rest _ _ _ _).trans ?_ | dsimp only | split)

theorem State.applyStep_rest (s : State) (core track grid : Nat) : (State.applyStep s core track grid).rest = s.rest := by
  unfold State.applyStep
  repeat' (first | with_reducible rfl | intro _ | with_reducible refine (foldl_rest _ _ _ ?_).trans ?_ | with_reducible refine (State.finishStep_rest _ _).trans ?_ | with_reducible refine (State.updCore_rest _ _ _).trans ?_ | with_reducible refine (State.updGrid_rest _ _ _).trans ?_ | dsimp only | split)

theorem State.failReading_rest (s : State) (g : Nat) (x : Group) (lane sub port : Nat) (r : Reading) : (State.failReading s g x lane sub port r).rest = s.rest := by
  unfold State.failReading
  repeat' (first | with_reducible rfl | intro _ | with_reducible refine (foldl_rest _ _ _ ?_).trans ?_ | with_reducible refine (State.deferred_rest _ _ _ _ _ _ _ _ _).trans ?_ | with_reducible refine (State.keep_rest _ _ _ _).trans ?_ | with_reducible refine (State.port_rest _ _ _ _ _).trans ?_ | with_reducible refine (State.precise_rest _ _ _ _ _ _ _).trans ?_ | with_reducible refine (State.updGroup_rest _ _ _).trans ?_ | with_reducible refine (State.wait_rest _ _ _).trans ?_ | dsimp only | split)

theorem State.haltDead_rest (s : State) (ctx : Nat) : (State.haltDead s ctx).rest = s.rest := by
  unfold State.haltDead
  repeat' (first | with_reducible rfl | intro _ | with_reducible refine (foldl_rest _ _ _ ?_).trans ?_ | with_reducible refine (State.raiseHalt_rest _ _ _ _ _ _ _ _).trans ?_ | with_reducible refine (State.updHalt_rest _ _ _).trans ?_ | dsimp only | split)

theorem State.refillPort_rest (s : State) (core boundary : Nat) : (State.refillPort s core boundary).rest = s.rest := by
  unfold State.refillPort
  repeat' (first | with_reducible rfl | intro _ | with_reducible refine (foldl_rest _ _ _ ?_).trans ?_ | with_reducible refine (State.keep_rest _ _ _ _).trans ?_ | with_reducible refine (State.updCore_rest _ _ _).trans ?_ | dsimp only | split)

theorem State.refillAt_rest (s : State) (boundary core : Nat) : (State.refillAt s boundary core).rest = s.rest := by
  unfold State.refillAt
  repeat' (first | with_reducible rfl | intro _ | with_reducible refine (foldl_rest _ _ _ ?_).trans ?_ | with_reducible refine (State.refillPort_rest _ _ _).trans ?_ | dsimp only | split)

theorem State.refillDue_rest (s : State) (n : Nat) : (State.refillDue s n).rest = s.rest := by
  unfold State.refillDue
  repeat' (first | with_reducible rfl | intro _ | with_reducible refine (foldl_rest _ _ _ ?_).trans ?_ | with_reducible refine (State.refillAt_rest _ _ _).trans ?_ | dsimp only | split)

theorem State.mapTracks_rest (s : State) (cores : List Nat) (f : Track → Track) : (State.mapTracks s cores f).rest = s.rest := by
  unfold State.mapTracks
  repeat' (first | with_reducible rfl | intro _ | with_reducible refine (foldl_rest _ _ _ ?_).trans ?_ | with_reducible refine (State.updCore_rest _ _ _).trans ?_ | dsimp only | split)

theorem State.noteNoise_rest (s : State) (die : Nat) (cores : List (Nat × Nat)) : (State.noteNoise s die cores).rest = s.rest := by
  unfold State.noteNoise
  repeat' (first | with_reducible rfl | intro _ | with_reducible refine (foldl_rest _ _ _ ?_).trans ?_ | with_reducible refine (State.updCore_rest _ _ _).trans ?_ | dsimp only | split)

theorem State.releaseJunctions_rest (s : State) (g : Nat) : (State.releaseJunctions s g).rest = s.rest := by
  unfold State.releaseJunctions
  repeat' (first | with_reducible rfl | intro _ | with_reducible refine (foldl_rest _ _ _ ?_).trans ?_ | with_reducible refine (State.releaseJunction_rest _ _ _).trans ?_ | dsimp only | split)

theorem State.countPort_rest (s : State) (g : Nat) (w : W32) (lanes : Nat) : (State.countPort s g w lanes).rest = s.rest := by
  unfold State.countPort
  repeat' (first | with_reducible rfl | intro _ | with_reducible refine (foldl_rest _ _ _ ?_).trans ?_ | with_reducible refine (State.port_rest _ _ _ _ _).trans ?_ | with_reducible refine (State.updCore_rest _ _ _).trans ?_ | dsimp only | split)

theorem State.illegal_rest (s : State) (r : Reject) (words : List W32) : (State.illegal s r words).rest = s.rest := by
  unfold State.illegal
  repeat' (first | with_reducible rfl | intro _ | with_reducible refine (foldl_rest _ _ _ ?_).trans ?_ | with_reducible refine (State.precise_rest _ _ _ _ _ _ _).trans ?_ | dsimp only | split)

theorem State.releaseCounters_rest (s : State) (g : Nat) : (State.releaseCounters s g).rest = s.rest := by
  unfold State.releaseCounters
  repeat' (first | with_reducible rfl | intro _ | with_reducible refine (foldl_rest _ _ _ ?_).trans ?_ | with_reducible refine (State.updGroup_rest _ _ _).trans ?_ | dsimp only | split)

theorem State.moveGroup_rest (s : State) (g : Nat) (set : GSet) : (State.moveGroup s g set).rest = s.rest := by
  unfold State.moveGroup
  repeat' (first | with_reducible rfl | intro _ | with_reducible refine (foldl_rest _ _ _ ?_).trans ?_ | with_reducible refine (State.updGroup_rest _ _ _).trans ?_ | dsimp only | split)

theorem scalar_rest (i : Instr) (dst : Dst) (a b : Src) (q : Option Nat) (op : Env → Out) (s : State) : (scalar i dst a b q op s).rest = s.rest := by
  unfold scalar
  repeat' (first | with_reducible rfl | intro _ | with_reducible refine (foldl_rest _ _ _ ?_).trans ?_ | with_reducible refine (State.alu_rest _ _).trans ?_ | dsimp only | split)

theorem scalar2_rest (i : Instr) (m : Mods) (t : BitVec 2) (d a b : BitVec 7) (op : Bool → Int → Int → Nat) (s : State) : (scalar2 i m t d a b op s).rest = s.rest := by
  unfold scalar2
  repeat' (first | with_reducible rfl | intro _ | with_reducible refine (foldl_rest _ _ _ ?_).trans ?_ | with_reducible refine (scalar_rest _ _ _ _ _ _ _).trans ?_ | dsimp only | split)

theorem scalarBits_rest (i : Instr) (m : Mods) (d a b : BitVec 7) (op : Nat → Nat → Nat) (s : State) : (scalarBits i m d a b op s).rest = s.rest := by
  unfold scalarBits
  repeat' (first | with_reducible rfl | intro _ | with_reducible refine (foldl_rest _ _ _ ?_).trans ?_ | with_reducible refine (scalar_rest _ _ _ _ _ _ _).trans ?_ | dsimp only | split)

theorem scalarShift_rest (i : Instr) (m : Mods) (kty : Nat) (d a b : BitVec 7) (op : Int → Nat → Int) (s : State) : (scalarShift i m kty d a b op s).rest = s.rest := by
  unfold scalarShift
  repeat' (first | with_reducible rfl | intro _ | with_reducible refine (foldl_rest _ _ _ ?_).trans ?_ | with_reducible refine (scalar_rest _ _ _ _ _ _ _).trans ?_ | dsimp only | split)

theorem vec_rest (i : Instr) (dst : Dst) (a b c : Src) (q : Option Nat) (op : Env → Out) (s : State) : (vec i dst a b c q op s).rest = s.rest := by
  unfold vec
  repeat' (first | with_reducible rfl | intro _ | with_reducible refine (foldl_rest _ _ _ ?_).trans ?_ | with_reducible refine (State.alu_rest _ _).trans ?_ | dsimp only | split)

theorem vec2_rest (i : Instr) (m : Mods) (t : BitVec 3) (d a b : BitVec 7) (op : Bool → Int → Int → Int) (s : State) : (vec2 i m t d a b op s).rest = s.rest := by
  unfold vec2
  repeat' (first | with_reducible rfl | intro _ | with_reducible refine (foldl_rest _ _ _ ?_).trans ?_ | with_reducible refine (vec_rest _ _ _ _ _ _ _ _).trans ?_ | dsimp only | split)

theorem vec1_rest (i : Instr) (t : BitVec 3) (d a : BitVec 7) (op : Int → Int) (s : State) : (vec1 i t d a op s).rest = s.rest := by
  unfold vec1
  repeat' (first | with_reducible rfl | intro _ | with_reducible refine (foldl_rest _ _ _ ?_).trans ?_ | with_reducible refine (vec_rest _ _ _ _ _ _ _ _).trans ?_ | dsimp only | split)

theorem vecBits_rest (i : Instr) (m : Mods) (t : BitVec 3) (d a b : BitVec 7) (op : Nat → Nat → Nat) (s : State) : (vecBits i m t d a b op s).rest = s.rest := by
  unfold vecBits
  repeat' (first | with_reducible rfl | intro _ | with_reducible refine (foldl_rest _ _ _ ?_).trans ?_ | with_reducible refine (vec_rest _ _ _ _ _ _ _ _).trans ?_ | dsimp only | split)

theorem vecShift_rest (i : Instr) (m : Mods) (t : BitVec 3) (d a b : BitVec 7) (op : Nat → Nat → Int) (s : State) : (vecShift i m t d a b op s).rest = s.rest := by
  unfold vecShift
  repeat' (first | with_reducible rfl | intro _ | with_reducible refine (foldl_rest _ _ _ ?_).trans ?_ | with_reducible refine (vec_rest _ _ _ _ _ _ _ _).trans ?_ | dsimp only | split)

theorem vecCount_rest (i : Instr) (t : BitVec 3) (d a : BitVec 7) (op : Nat → Nat → Nat) (s : State) : (vecCount i t d a op s).rest = s.rest := by
  unfold vecCount
  repeat' (first | with_reducible rfl | intro _ | with_reducible refine (foldl_rest _ _ _ ?_).trans ?_ | with_reducible refine (vec_rest _ _ _ _ _ _ _ _).trans ?_ | dsimp only | split)

theorem vecCmp_rest (i : Instr) (m : Mods) (t : BitVec 3) (d a b : BitVec 7) (op : Int → Int → Bool) (s : State) : (vecCmp i m t d a b op s).rest = s.rest := by
  unfold vecCmp
  repeat' (first | with_reducible rfl | intro _ | with_reducible refine (foldl_rest _ _ _ ?_).trans ?_ | with_reducible refine (vec_rest _ _ _ _ _ _ _ _).trans ?_ | dsimp only | split)

theorem pred_rest (i : Instr) (d a b : BitVec 7) (op : Nat → Nat → Nat) (s : State) : (pred i d a b op s).rest = s.rest := by
  unfold pred
  repeat' (first | with_reducible rfl | intro _ | with_reducible refine (foldl_rest _ _ _ ?_).trans ?_ | with_reducible refine (vec_rest _ _ _ _ _ _ _ _).trans ?_ | dsimp only | split)

theorem flt_rest (i : Instr) (dst : Dst) (a b c : Src) (warn : W32) (op : Env → Out) (s : State) : (flt i dst a b c warn op s).rest = s.rest := by
  unfold flt
  repeat' (first | with_reducible rfl | intro _ | with_reducible refine (foldl_rest _ _ _ ?_).trans ?_ | with_reducible refine (State.alu_rest _ _).trans ?_ | with_reducible refine (State.warn_rest _ _).trans ?_ | dsimp only | split)

theorem flt2_rest (i : Instr) (m : Mods) (t : BitVec 2) (d a b : BitVec 7) (op : Env → Num → Num → Nat × Nat) (s : State) : (flt2 i m t d a b op s).rest = s.rest := by
  unfold flt2
  repeat' (first | with_reducible rfl | intro _ | with_reducible refine (foldl_rest _ _ _ ?_).trans ?_ | with_reducible refine (flt_rest _ _ _ _ _ _ _ _).trans ?_ | dsimp only | split)

theorem fltBits_rest (i : Instr) (m : Mods) (t : BitVec 2) (d a b : BitVec 7) (op : Nat → Nat → Nat × Nat) (s : State) : (fltBits i m t d a b op s).rest = s.rest := by
  unfold fltBits
  repeat' (first | with_reducible rfl | intro _ | with_reducible refine (foldl_rest _ _ _ ?_).trans ?_ | with_reducible refine (flt_rest _ _ _ _ _ _ _ _).trans ?_ | dsimp only | split)

theorem fltCmp_rest (i : Instr) (m : Mods) (t : BitVec 2) (d a b : BitVec 7) (c : Nat) (s : State) : (fltCmp i m t d a b c s).rest = s.rest := by
  unfold fltCmp
  repeat' (first | with_reducible rfl | intro _ | with_reducible refine (foldl_rest _ _ _ ?_).trans ?_ | with_reducible refine (flt_rest _ _ _ _ _ _ _ _).trans ?_ | dsimp only | split)

theorem packed_rest (i : Instr) (m : Mods) (f : BitVec 1) (d a b : BitVec 7) (c : Src) (srcs : Env → List Val) (op : Env → Bool → Nat × Nat) (s : State) : (packed i m f d a b c srcs op s).rest = s.rest := by
  unfold packed
  repeat' (first | with_reducible rfl | intro _ | with_reducible refine (foldl_rest _ _ _ ?_).trans ?_ | with_reducible refine (flt_rest _ _ _ _ _ _ _ _).trans ?_ | dsimp only | split)

theorem cross_rest (i : Instr) (dst : Dst) (a b : Src) (fp : Bool) (srcs : Env → List Val) (op : List Env → Env → Nat × Nat) (s : State) : (cross i dst a b fp srcs op s).rest = s.rest := by
  unfold cross
  repeat' (first | with_reducible rfl | intro _ | with_reducible refine (foldl_rest _ _ _ ?_).trans ?_ | with_reducible refine (State.alu_rest _ _).trans ?_ | dsimp only | split)

theorem sfu_rest (i : Instr) (k : Special) (t : BitVec 2) (d a : BitVec 7) (s : State) : (sfu i k t d a s).rest = s.rest := by
  unfold sfu
  repeat' (first | with_reducible rfl | intro _ | with_reducible refine (foldl_rest _ _ _ ?_).trans ?_ | with_reducible refine (State.alu_rest _ _).trans ?_ | dsimp only | split)

end Sys2Proof.Machine
end

