-- ==== Sys2Proof/Laws/KeepView.lean ====
section
/-! SUPPORT. The operations that leave what a program reads of every fibre as it was, one lemma for each. -/

set_option linter.all false

namespace Sys2Proof.Machine

/-- What a program reads of a fibre, and its PC. -/
@[reducible] def Fibre.view (b : Fibre) := (b.pc, b.v, b.k, b.w, b.cw, b.stack, b.stackBase, b.depth, b.glim, b.epc, b.fcw, b.tsc0, b.tsc1, b.faulted)

/-- That of every fibre of a group, in a map of groups. -/
def viewIn (m : Map Group) (g : Nat) := (m.get g Group.none).fibres.mapVals (fun _ b => b.view)

theorem viewIn_adjust (m : Map Group) (g g0 : Nat) (f : Group → Group) (h : ∀ x, (f x).fibres.mapVals (fun _ b => b.view) = x.fibres.mapVals (fun _ b => b.view)) : viewIn (m.adjust g f) g0 = viewIn m g0 := by
  unfold viewIn
  by_cases e : g0 = g
  · subst e
    simp only [Map.get, Map.find?_adjust_self]
    cases m.find? g0 with
    | none => rfl
    | some x => exact h x
  · rw [Map.get_adjust_ne m _ _ e]

theorem viewIn_mapVals (m : Map Group) (g0 : Nat) (f : Nat → Group → Group) (h : ∀ g x, (f g x).fibres.mapVals (fun _ b => b.view) = x.fibres.mapVals (fun _ b => b.view)) : viewIn (m.mapVals f) g0 = viewIn m g0 := by
  unfold viewIn
  simp only [Map.get, Map.find?_mapVals]
  cases m.find? g0 with
  | none => rfl
  | some x => exact h _ x

theorem view_mapVals (m : Map Fibre) (f : Nat → Fibre → Fibre) (h : ∀ l b, (f l b).view = b.view) : (m.mapVals f).mapVals (fun _ b => b.view) = m.mapVals (fun _ b => b.view) := by
  unfold Map.mapVals
  rw [List.map_map]
  exact List.map_congr_left (fun p _ => by simp only [Function.comp_apply, h])

theorem foldl_viewIn {α : Type} (f : State → α → State) (l : List α) (s : State) (g0 : Nat) (h : ∀ t a, viewIn (f t a).groups g0 = viewIn t.groups g0) : viewIn (l.foldl f s).groups g0 = viewIn s.groups g0 := by
  induction l generalizing s with
  | nil => rfl
  | cons a l ih => exact (ih _).trans (h _ _)

theorem State.reportSupervisor_viewIn (s : State) (type vf sev : Nat) (addr : W64) (place : W32) (g0 : Nat) : viewIn (State.reportSupervisor s type vf sev addr place).groups g0 = viewIn s.groups g0 := congrArg (fun m => viewIn m g0) (State.reportSupervisor_groups s type vf sev addr place)

theorem State.updCore_viewIn (s : State) (c : Nat) (f : Core → Core) (g0 : Nat) : viewIn (State.updCore s c f).groups g0 = viewIn s.groups g0 := congrArg (fun m => viewIn m g0) (State.updCore_groups s c f)

theorem State.updDie_viewIn (s : State) (d : Nat) (f : Die → Die) (g0 : Nat) : viewIn (State.updDie s d f).groups g0 = viewIn s.groups g0 := congrArg (fun m => viewIn m g0) (State.updDie_groups s d f)

theorem State.countPacket_viewIn (s : State) (la : Nat) (conf : Bool) (g0 : Nat) : viewIn (State.countPacket s la conf).groups g0 = viewIn s.groups g0 := congrArg (fun m => viewIn m g0) (State.countPacket_groups s la conf)

theorem State.writeLine_viewIn (s : State) (la : Nat) (data : List Byte) (poison : Bool) (g0 : Nat) : viewIn (State.writeLine s la data poison).groups g0 = viewIn s.groups g0 := congrArg (fun m => viewIn m g0) (State.writeLine_groups s la data poison)

theorem State.reportDies_viewIn (s : State) (la : Nat) (dies : List Nat) (g0 : Nat) : viewIn (State.reportDies s la dies).groups g0 = viewIn s.groups g0 := congrArg (fun m => viewIn m g0) (State.reportDies_groups s la dies)

theorem State.noteLlc_viewIn (s : State) (la : Nat) (g0 : Nat) : viewIn (State.noteLlc s la).groups g0 = viewIn s.groups g0 := congrArg (fun m => viewIn m g0) (State.noteLlc_groups s la)

theorem State.cleanLine_viewIn (s : State) (d la : Nat) (g0 : Nat) : viewIn (State.cleanLine s d la).groups g0 = viewIn s.groups g0 := congrArg (fun m => viewIn m g0) (State.cleanLine_groups s d la)

theorem State.giveBack_viewIn (s : State) (d la : Nat) (g0 : Nat) : viewIn (State.giveBack s d la).groups g0 = viewIn s.groups g0 := congrArg (fun m => viewIn m g0) (State.giveBack_groups s d la)

theorem State.l2Room_viewIn (s : State) (d la : Nat) (g0 : Nat) : viewIn (State.l2Room s d la).groups g0 = viewIn s.groups g0 := congrArg (fun m => viewIn m g0) (State.l2Room_groups s d la)

theorem State.l2Fetch_viewIn (s : State) (d la pol : Nat) (conf : Bool) (g0 : Nat) : viewIn (State.l2Fetch s d la pol conf).groups g0 = viewIn s.groups g0 := congrArg (fun m => viewIn m g0) (State.l2Fetch_groups s d la pol conf)

theorem State.readLine_viewIn (s : State) (d la pol : Nat) (alloc conf : Bool) (g0 : Nat) : viewIn (State.readLine s d la pol alloc conf).groups g0 = viewIn s.groups g0 := congrArg (fun m => viewIn m g0) (State.readLine_groups s d la pol alloc conf)

theorem State.cleanAll_viewIn (s : State) (la : Nat) (g0 : Nat) : viewIn (State.cleanAll s la).groups g0 = viewIn s.groups g0 := congrArg (fun m => viewIn m g0) (State.cleanAll_groups s la)

theorem State.invalidateL1s_viewIn (s : State) (d la except : Nat) (g0 : Nat) : viewIn (State.invalidateL1s s d la except).groups g0 = viewIn s.groups g0 := congrArg (fun m => viewIn m g0) (State.invalidateL1s_groups s d la except)

theorem State.homeWrite_viewIn (s : State) (a : Nat) (data : List Byte) (poison conf : Bool) (g0 : Nat) : viewIn (State.homeWrite s a data poison conf).groups g0 = viewIn s.groups g0 := congrArg (fun m => viewIn m g0) (State.homeWrite_groups s a data poison conf)

theorem State.refreshCopies_viewIn (s : State) (la : Nat) (g0 : Nat) : viewIn (State.refreshCopies s la).groups g0 = viewIn s.groups g0 := congrArg (fun m => viewIn m g0) (State.refreshCopies_groups s la)

theorem State.l2WriteLine_viewIn (s : State) (d core la off : Nat) (data : List Byte) (poison : Bool) (pol : Nat) (alloc conf : Bool) (g0 : Nat) : viewIn (State.l2WriteLine s d core la off data poison pol alloc conf).groups g0 = viewIn s.groups g0 := congrArg (fun m => viewIn m g0) (State.l2WriteLine_groups s d core la off data poison pol alloc conf)

theorem State.dropCopies_viewIn (s : State) (d la : Nat) (g0 : Nat) : viewIn (State.dropCopies s d la).groups g0 = viewIn s.groups g0 := congrArg (fun m => viewIn m g0) (State.dropCopies_groups s d la)

theorem State.sysWrite_viewIn (s : State) (a : Nat) (data : List Byte) (poison : Bool) (g0 : Nat) : viewIn (State.sysWrite s a data poison).groups g0 = viewIn s.groups g0 := congrArg (fun m => viewIn m g0) (State.sysWrite_groups s a data poison)

theorem State.fillTlb_viewIn (s : State) (ctx core : Nat) (va : W64) (g0 : Nat) : viewIn (State.fillTlb s ctx core va).groups g0 = viewIn s.groups g0 := congrArg (fun m => viewIn m g0) (State.fillTlb_groups s ctx core va)

theorem State.askSupervisor_viewIn (s : State) (ctx : Nat) (va : W64) (g0 : Nat) : viewIn (State.askSupervisor s ctx va).groups g0 = viewIn s.groups g0 := congrArg (fun m => viewIn m g0) (State.askSupervisor_groups s ctx va)

theorem State.forget_viewIn (s : State) (ctx : Nat) (va : W64) (g0 : Nat) : viewIn (State.forget s ctx va).groups g0 = viewIn s.groups g0 := congrArg (fun m => viewIn m g0) (State.forget_groups s ctx va)

theorem State.updGroup_viewIn (s : State) (g : Nat) (f : Group → Group) (g0 : Nat) (h : ∀ x, (f x).fibres.mapVals (fun _ b => b.view) = x.fibres.mapVals (fun _ b => b.view)) : viewIn (s.updGroup g f).groups g0 = viewIn s.groups g0 :=
  viewIn_adjust _ _ _ _ h

theorem State.mapLanes_viewIn (s : State) (g : Nat) (lanes : List Nat) (f : Nat → Fibre → Fibre) (g0 : Nat) (h : ∀ l b, (f l b).view = b.view) : viewIn (s.mapLanes g lanes f).groups g0 = viewIn s.groups g0 :=
  viewIn_adjust _ _ _ _ (fun x => view_mapVals x.fibres (fun l b => if has lanes l then f l b else b) (fun l b => by
    split
    · exact h _ _
    · rfl))

theorem State.updFibre_viewIn (s : State) (g lane : Nat) (f : Fibre → Fibre) (g0 : Nat) (h : ∀ b, (f b).view = b.view) : viewIn (s.updFibre g lane f).groups g0 = viewIn s.groups g0 :=
  State.mapLanes_viewIn _ _ _ _ _ (fun _ b => h b)

theorem State.updGrid_viewIn (s : State) (n : Nat) (f : Grid → Grid) (g0 : Nat) : viewIn (State.updGrid s n f).groups g0 = viewIn s.groups g0 := congrArg (fun m => viewIn m g0) (State.updGrid_groups s n f)

theorem State.releaseHolders_viewIn (s : State) (g uid : Nat) (regs : List Reg) (counts : Bool) (g0 : Nat) : viewIn (State.releaseHolders s g uid regs counts).groups g0 = viewIn s.groups g0 := congrArg (fun m => viewIn m g0) (State.releaseHolders_groups s g uid regs counts)

theorem State.releaseFibre_viewIn (s : State) (g uid : Nat) (g0 : Nat) : viewIn (State.releaseFibre s g uid).groups g0 = viewIn s.groups g0 := congrArg (fun m => viewIn m g0) (State.releaseFibre_groups s g uid)

theorem State.settleGm_viewIn (s : State) (g g0 : Nat) : viewIn (s.settleGm g).groups g0 = viewIn s.groups g0 := by
  unfold State.settleGm
  dsimp only
  split
  · refine State.mapLanes_viewIn _ _ _ _ _ (fun l b => ?_)
    split
    · rfl
    · rfl
  · rfl

theorem State.warn_viewIn (s : State) (w : W32) (g0 : Nat) : viewIn (State.warn s w).groups g0 = viewIn s.groups g0 := by
  unfold State.warn
  repeat' (first | with_reducible rfl | intro _ | with_reducible refine (foldl_viewIn _ _ _ _ ?_).trans ?_ | with_reducible refine (State.updGroup_viewIn _ _ _ _ (by first | exact fun _ => rfl | (intro x; dsimp only; (repeat' split) <;> rfl))).trans ?_ | dsimp only | split)

theorem State.wait_viewIn (s : State) (lanes : List Nat) (w : Wait) (g0 : Nat) : viewIn (State.wait s lanes w).groups g0 = viewIn s.groups g0 := by
  unfold State.wait
  repeat' (first | with_reducible rfl | intro _ | with_reducible refine (foldl_viewIn _ _ _ _ ?_).trans ?_ | with_reducible refine (State.mapLanes_viewIn _ _ _ _ _ (by first | exact fun _ _ => rfl | (intro l b; dsimp only; (repeat' split) <;> rfl))).trans ?_ | dsimp only | split)

theorem State.dropLater_viewIn (s : State) (g : Nat) (h : Held) (g0 : Nat) : viewIn (State.dropLater s g h).groups g0 = viewIn s.groups g0 := congrArg (fun m => viewIn m g0) (State.dropLater_groups s g h)

theorem State.scrub_viewIn (s : State) (la a n generation : Nat) (g0 : Nat) : viewIn (State.scrub s la a n generation).groups g0 = viewIn s.groups g0 := congrArg (fun m => viewIn m g0) (State.scrub_groups s la a n generation)

theorem State.sealFor_viewIn (s : State) (generation a n : Nat) (g0 : Nat) : viewIn (State.sealFor s generation a n).groups g0 = viewIn s.groups g0 := congrArg (fun m => viewIn m g0) (State.sealFor_groups s generation a n)

theorem State.seal_viewIn (s : State) (ctx a n : Nat) (g0 : Nat) : viewIn (State.seal s ctx a n).groups g0 = viewIn s.groups g0 := congrArg (fun m => viewIn m g0) (State.seal_groups s ctx a n)

theorem State.reportRefused_viewIn (s : State) (ctx core : Nat) (lines : List Nat) (g0 : Nat) : viewIn (State.reportRefused s ctx core lines).groups g0 = viewIn s.groups g0 := congrArg (fun m => viewIn m g0) (State.reportRefused_groups s ctx core lines)

theorem State.reportReads_viewIn (s : State) (ctx core : Nat) (lines : List Nat) (g0 : Nat) : viewIn (State.reportReads s ctx core lines).groups g0 = viewIn s.groups g0 := congrArg (fun m => viewIn m g0) (State.reportReads_groups s ctx core lines)

theorem State.reportWrites_viewIn (s : State) (ctx core : Nat) (lines : List Nat) (g0 : Nat) : viewIn (State.reportWrites s ctx core lines).groups g0 = viewIn s.groups g0 := congrArg (fun m => viewIn m g0) (State.reportWrites_groups s ctx core lines)

theorem State.reportWalk_viewIn (s : State) (ctx core : Nat) (va : W64) (g0 : Nat) : viewIn (State.reportWalk s ctx core va).groups g0 = viewIn s.groups g0 := congrArg (fun m => viewIn m g0) (State.reportWalk_groups s ctx core va)

theorem State.deviceWrite_viewIn (s : State) (ctx : Nat) (va : W64) (data : List Byte) (g0 : Nat) : viewIn (State.deviceWrite s ctx va data).groups g0 = viewIn s.groups g0 := congrArg (fun m => viewIn m g0) (State.deviceWrite_groups s ctx va data)

theorem State.shiftTimes_viewIn (s : State) (ctx : Nat) (g0 : Nat) : viewIn (s.shiftTimes ctx).groups g0 = viewIn s.groups g0 := by
  unfold State.shiftTimes
  split
  · rfl
  · dsimp only
    refine viewIn_mapVals _ _ _ (fun g x => ?_)
    by_cases hc : x.ctx = ctx
    · rw [if_pos hc]
      dsimp only
      unfold Map.mapVals
      rw [List.map_map]
      rfl
    · rw [if_neg hc]

theorem State.raiseHalt_viewIn (s : State) (ctx reason g : Nat) (t : Trap) (lanes : List Nat) (incomplete : Bool) (epc : W64) (g0 : Nat) : viewIn (State.raiseHalt s ctx reason g t lanes incomplete epc).groups g0 = viewIn s.groups g0 := by
  unfold State.raiseHalt
  repeat' (first | with_reducible rfl | intro _ | with_reducible refine (foldl_viewIn _ _ _ _ ?_).trans ?_ | with_reducible refine (State.shiftTimes_viewIn _ _ _).trans ?_ | dsimp only | split)

theorem State.keep_viewIn (s : State) (g : Nat) (t : Trap) (lanes : List Nat) (g0 : Nat) : viewIn (State.keep s g t lanes).groups g0 = viewIn s.groups g0 := by
  unfold State.keep
  repeat' (first | with_reducible rfl | intro _ | with_reducible refine (foldl_viewIn _ _ _ _ ?_).trans ?_ | with_reducible refine (State.updGroup_viewIn _ _ _ _ (by first | exact fun _ => rfl | (intro x; dsimp only; (repeat' split) <;> rfl))).trans ?_ | dsimp only | split)

theorem State.updHalt_viewIn (s : State) (ctx : Nat) (f : Halt → Halt) (g0 : Nat) : viewIn (State.updHalt s ctx f).groups g0 = viewIn s.groups g0 := congrArg (fun m => viewIn m g0) (State.updHalt_groups s ctx f)

theorem State.fault_viewIn (s : State) (g : Nat) (t : Trap) (lanes : List Nat) (incomplete : Bool) (g0 : Nat) : viewIn (State.fault s g t lanes incomplete).groups g0 = viewIn s.groups g0 := by
  unfold State.fault
  repeat' (first | with_reducible rfl | intro _ | with_reducible refine (foldl_viewIn _ _ _ _ ?_).trans ?_ | with_reducible refine (State.keep_viewIn _ _ _ _ _).trans ?_ | with_reducible refine (State.raiseHalt_viewIn _ _ _ _ _ _ _ _ _).trans ?_ | with_reducible refine (State.updHalt_viewIn _ _ _ _).trans ?_ | dsimp only | split)

theorem State.precise_viewIn (s : State) (cause sub info eng : Nat) (lanes : List Nat) (val : W64) (g0 : Nat) : viewIn (State.precise s cause sub info eng lanes val).groups g0 = viewIn s.groups g0 := by
  unfold State.precise
  repeat' (first | with_reducible rfl | intro _ | with_reducible refine (foldl_viewIn _ _ _ _ ?_).trans ?_ | with_reducible refine (State.fault_viewIn _ _ _ _ _ _).trans ?_ | dsimp only | split)

theorem State.walkPoison_viewIn (s : State) (eng field lane : Nat) (va : W64) (g0 : Nat) : viewIn (State.walkPoison s eng field lane va).groups g0 = viewIn s.groups g0 := by
  unfold State.walkPoison
  repeat' (first | with_reducible rfl | intro _ | with_reducible refine (foldl_viewIn _ _ _ _ ?_).trans ?_ | with_reducible refine (State.precise_viewIn _ _ _ _ _ _ _ _).trans ?_ | with_reducible refine (State.reportWalk_viewIn _ _ _ _ _).trans ?_ | dsimp only | split)

theorem State.deferred_viewIn (s : State) (ctx g cause sub info eng lane : Nat) (val : W64) (g0 : Nat) : viewIn (State.deferred s ctx g cause sub info eng lane val).groups g0 = viewIn s.groups g0 := by
  unfold State.deferred
  repeat' (first | with_reducible rfl | intro _ | with_reducible refine (foldl_viewIn _ _ _ _ ?_).trans ?_ | with_reducible refine (State.fault_viewIn _ _ _ _ _ _).trans ?_ | with_reducible refine (State.raiseHalt_viewIn _ _ _ _ _ _ _ _ _).trans ?_ | dsimp only | split)

theorem State.raisePending_viewIn (s : State) (g : Nat) (g0 : Nat) : viewIn (State.raisePending s g).groups g0 = viewIn s.groups g0 := by
  unfold State.raisePending
  repeat' (first | with_reducible rfl | intro _ | with_reducible refine (foldl_viewIn _ _ _ _ ?_).trans ?_ | with_reducible refine (State.deferred_viewIn _ _ _ _ _ _ _ _ _ _).trans ?_ | with_reducible refine (State.fault_viewIn _ _ _ _ _ _).trans ?_ | with_reducible refine (State.raiseHalt_viewIn _ _ _ _ _ _ _ _ _).trans ?_ | with_reducible refine (State.updGroup_viewIn _ _ _ _ (by first | exact fun _ => rfl | (intro x; dsimp only; (repeat' split) <;> rfl))).trans ?_ | dsimp only | split)

theorem State.report_viewIn (s : State) (vf type : Nat) (addr : W64) (place : W32) (g0 : Nat) : viewIn (State.report s vf type addr place).groups g0 = viewIn s.groups g0 := congrArg (fun m => viewIn m g0) (State.report_groups s vf type addr place)

theorem State.writeHeader_viewIn (s : State) (ctx : Nat) (h : Halt) (g0 : Nat) : viewIn (State.writeHeader s ctx h).groups g0 = viewIn s.groups g0 := congrArg (fun m => viewIn m g0) (State.writeHeader_groups s ctx h)

theorem State.moveLinks_viewIn (s : State) (g uid : Nat) (f : Nat → Nat) (g0 : Nat) : viewIn (State.moveLinks s g uid f).groups g0 = viewIn s.groups g0 := congrArg (fun m => viewIn m g0) (State.moveLinks_groups s g uid f)

theorem State.parkGroups_viewIn (s : State) (ctx : Nat) (but : Option Nat) (g0 : Nat) : viewIn (s.parkGroups ctx but).groups g0 = viewIn s.groups g0 := by
  unfold State.parkGroups
  dsimp only
  refine viewIn_mapVals _ _ _ ?_
  intro g x
  first | rfl | (split <;> rfl)

theorem State.unparkGroups_viewIn (s : State) (ctx : Nat) (g0 : Nat) : viewIn (s.unparkGroups ctx).groups g0 = viewIn s.groups g0 := by
  unfold State.unparkGroups
  dsimp only
  refine viewIn_mapVals _ _ _ ?_
  intro g x
  first | rfl | (split <;> rfl)

theorem State.serveLatched_viewIn (s : State) (ctx : Nat) (g0 : Nat) : viewIn (State.serveLatched s ctx).groups g0 = viewIn s.groups g0 := by
  unfold State.serveLatched
  repeat' (first | with_reducible rfl | intro _ | with_reducible refine (foldl_viewIn _ _ _ _ ?_).trans ?_ | with_reducible refine (State.raiseHalt_viewIn _ _ _ _ _ _ _ _ _).trans ?_ | dsimp only | split)

theorem State.raiseEnded_viewIn (s : State) (ctx : Nat) (g0 : Nat) : viewIn (State.raiseEnded s ctx).groups g0 = viewIn s.groups g0 := by
  unfold State.raiseEnded
  repeat' (first | with_reducible rfl | intro _ | with_reducible refine (foldl_viewIn _ _ _ _ ?_).trans ?_ | with_reducible refine (State.raiseHalt_viewIn _ _ _ _ _ _ _ _ _).trans ?_ | dsimp only | split)

theorem State.releaseHalt_viewIn (s : State) (ctx : Nat) (g0 : Nat) : viewIn (State.releaseHalt s ctx).groups g0 = viewIn s.groups g0 := by
  unfold State.releaseHalt
  repeat' (first | with_reducible rfl | intro _ | with_reducible refine (foldl_viewIn _ _ _ _ ?_).trans ?_ | with_reducible refine (State.raiseEnded_viewIn _ _ _).trans ?_ | with_reducible refine (State.serveLatched_viewIn _ _ _).trans ?_ | with_reducible refine (State.unparkGroups_viewIn _ _ _).trans ?_ | with_reducible refine (State.updHalt_viewIn _ _ _ _).trans ?_ | dsimp only | split)

theorem State.endHandler_viewIn (s : State) (ctx g : Nat) (g0 : Nat) : viewIn (State.endHandler s ctx g).groups g0 = viewIn s.groups g0 := by
  unfold State.endHandler
  repeat' (first | with_reducible rfl | intro _ | with_reducible refine (foldl_viewIn _ _ _ _ ?_).trans ?_ | with_reducible refine (State.releaseHalt_viewIn _ _ _).trans ?_ | with_reducible refine (State.updHalt_viewIn _ _ _ _).trans ?_ | dsimp only | split)

theorem State.narrow_viewIn (s : State) (lanes : List Nat) (g0 : Nat) : viewIn (State.narrow s lanes).groups g0 = viewIn s.groups g0 := congrArg (fun m => viewIn m g0) (State.narrow_groups s lanes)

theorem State.pending_viewIn (s : State) (z : Alu) (old : Group) (lanes : List Nat) (flags : W32) (trap : Option (Trap × List Nat)) (g0 : Nat) : viewIn (State.pending s z old lanes flags trap).groups g0 = viewIn s.groups g0 := by
  unfold State.pending
  repeat' (first | with_reducible rfl | intro _ | with_reducible refine (foldl_viewIn _ _ _ _ ?_).trans ?_ | with_reducible refine (State.mapLanes_viewIn _ _ _ _ _ (by first | exact fun _ _ => rfl | (intro l b; dsimp only; (repeat' split) <;> rfl))).trans ?_ | with_reducible refine (State.updCore_viewIn _ _ _ _).trans ?_ | dsimp only | split)

theorem State.acquireL1_viewIn (s : State) (core scope : Nat) (teamCores : Nat) (g0 : Nat) : viewIn (State.acquireL1 s core scope teamCores).groups g0 = viewIn s.groups g0 := congrArg (fun m => viewIn m g0) (State.acquireL1_groups s core scope teamCores)

theorem State.updTeam_viewIn (s : State) (x : Group) (f : Team → Team) (g0 : Nat) : viewIn (State.updTeam s x f).groups g0 = viewIn s.groups g0 := congrArg (fun m => viewIn m g0) (State.updTeam_groups s x f)

theorem State.checkTeam_viewIn (s : State) (g : Nat) (g0 : Nat) : viewIn (State.checkTeam s g).groups g0 = viewIn s.groups g0 := congrArg (fun m => viewIn m g0) (State.checkTeam_groups s g)

theorem State.checkGrid_viewIn (s : State) (grid : Nat) (g0 : Nat) : viewIn (State.checkGrid s grid).groups g0 = viewIn s.groups g0 := congrArg (fun m => viewIn m g0) (State.checkGrid_groups s grid)

theorem State.pushStore_viewIn (s : State) (core : Nat) (t : Store) (g0 : Nat) : viewIn (State.pushStore s core t).groups g0 = viewIn s.groups g0 := congrArg (fun m => viewIn m g0) (State.pushStore_groups s core t)

theorem State.portTake_viewIn (s : State) (ctx core n : Nat) (a : Ask) (g0 : Nat) : viewIn (State.portTake s ctx core n a).groups g0 = viewIn s.groups g0 := congrArg (fun m => viewIn m g0) (State.portTake_groups s ctx core n a)

theorem State.portQueue_viewIn (s : State) (ctx core n : Nat) (a : Ask) (g0 : Nat) : viewIn (State.portQueue s ctx core n a).groups g0 = viewIn s.groups g0 := congrArg (fun m => viewIn m g0) (State.portQueue_groups s ctx core n a)

theorem State.port_viewIn (s : State) (ctx core n : Nat) (a : Ask) (g0 : Nat) : viewIn (s.port ctx core n a).1.groups g0 = viewIn s.groups g0 :=
  congrArg (fun m => viewIn m g0) (State.port_groups s ctx core n a)

theorem State.reportDead_viewIn (s : State) (ctx core : Nat) (lines : List Nat) (g0 : Nat) : viewIn (State.reportDead s ctx core lines).groups g0 = viewIn s.groups g0 := congrArg (fun m => viewIn m g0) (State.reportDead_groups s ctx core lines)

theorem State.dropRequests_viewIn (s : State) (ctx core : Nat) (g0 : Nat) : viewIn (State.dropRequests s ctx core).groups g0 = viewIn s.groups g0 := congrArg (fun m => viewIn m g0) (State.dropRequests_groups s ctx core)

theorem State.send_viewIn (s : State) (ctx core n : Nat) (a : Ask) (go : State → State) (g0 : Nat) (hgo : ∀ x0, viewIn (go x0).groups g0 = viewIn x0.groups g0) : viewIn (State.send s ctx core n a go).groups g0 = viewIn s.groups g0 := by
  unfold State.send
  repeat' (first | with_reducible rfl | intro _ | with_reducible refine (foldl_viewIn _ _ _ _ ?_).trans ?_ | with_reducible refine (State.dropRequests_viewIn _ _ _ _).trans ?_ | with_reducible refine (State.port_viewIn _ _ _ _ _ _).trans ?_ | with_reducible refine (hgo _).trans ?_ | dsimp only | split)

theorem State.throughPort_viewIn (s : State) (ctx core n : Nat) (go : State → State) (g0 : Nat) (hgo : ∀ x0, viewIn (go x0).groups g0 = viewIn x0.groups g0) : viewIn (State.throughPort s ctx core n go).groups g0 = viewIn s.groups g0 := by
  unfold State.throughPort
  repeat' (first | with_reducible rfl | intro _ | with_reducible refine (foldl_viewIn _ _ _ _ ?_).trans ?_ | with_reducible refine (State.send_viewIn _ _ _ _ _ _ _ ?_).trans ?_ | with_reducible refine (hgo _).trans ?_ | dsimp only | split)

theorem State.waitReplay_viewIn (s : State) (ctx : Nat) (addrs : List (Nat × W64)) (faulting : List Nat) (g0 : Nat) : viewIn (State.waitReplay s ctx addrs faulting).groups g0 = viewIn s.groups g0 := by
  unfold State.waitReplay
  repeat' (first | with_reducible rfl | intro _ | with_reducible refine (foldl_viewIn _ _ _ _ ?_).trans ?_ | with_reducible refine (State.askSupervisor_viewIn _ _ _ _).trans ?_ | with_reducible refine (State.wait_viewIn _ _ _ _).trans ?_ | dsimp only | split)

theorem State.claimScratch_viewIn (s : State) (core ctx : Nat) (keep : List Nat) (g0 : Nat) : viewIn (State.claimScratch s core ctx keep).groups g0 = viewIn s.groups g0 := congrArg (fun m => viewIn m g0) (State.claimScratch_groups s core ctx keep)

theorem State.recallScratch_viewIn (s : State) (core ctx off n : Nat) (g0 : Nat) : viewIn (State.recallScratch s core ctx off n).groups g0 = viewIn s.groups g0 := congrArg (fun m => viewIn m g0) (State.recallScratch_groups s core ctx off n)

theorem State.patchL1_viewIn (s : State) (core a : Nat) (data : List Byte) (poison : Bool) (g0 : Nat) : viewIn (State.patchL1 s core a data poison).groups g0 = viewIn s.groups g0 := congrArg (fun m => viewIn m g0) (State.patchL1_groups s core a data poison)

theorem State.sample_viewIn (s : State) (core g la : Nat) (g0 : Nat) : viewIn (State.sample s core g la).groups g0 = viewIn s.groups g0 := by
  unfold State.sample
  repeat' (first | with_reducible rfl | intro _ | with_reducible refine (foldl_viewIn _ _ _ _ ?_).trans ?_ | with_reducible refine (State.updGroup_viewIn _ _ _ _ (by first | exact fun _ => rfl | (intro x; dsimp only; (repeat' split) <;> rfl))).trans ?_ | dsimp only | split)

theorem State.install_viewIn (s : State) (core la : Nat) (l : L1Line) (g pol : Nat) (g0 : Nat) : viewIn (State.install s core la l g pol).groups g0 = viewIn s.groups g0 := by
  unfold State.install
  repeat' (first | with_reducible rfl | intro _ | with_reducible refine (foldl_viewIn _ _ _ _ ?_).trans ?_ | with_reducible refine (State.keep_viewIn _ _ _ _ _).trans ?_ | with_reducible refine (State.updCore_viewIn _ _ _ _).trans ?_ | with_reducible refine (State.updGroup_viewIn _ _ _ _ (by first | exact fun _ => rfl | (intro x; dsimp only; (repeat' split) <;> rfl))).trans ?_ | dsimp only | split)

theorem State.allocL1_viewIn (s : State) (core la g pol : Nat) (l1 : Bool) (g0 : Nat) : viewIn (State.allocL1 s core la g pol l1).groups g0 = viewIn s.groups g0 := by
  unfold State.allocL1
  repeat' (first | with_reducible rfl | intro _ | with_reducible refine (foldl_viewIn _ _ _ _ ?_).trans ?_ | with_reducible refine (State.install_viewIn _ _ _ _ _ _ _).trans ?_ | with_reducible refine (State.updCore_viewIn _ _ _ _).trans ?_ | dsimp only | split)

theorem State.plain_viewIn (s : State) (i : Instr) (go : Eff → State → State) (g0 : Nat) (hgo : ∀ x0 x1, viewIn (go x0 x1).groups g0 = viewIn x1.groups g0) : viewIn (State.plain s i go).groups g0 = viewIn s.groups g0 := by
  unfold State.plain
  repeat' (first | with_reducible rfl | intro _ | with_reducible refine (foldl_viewIn _ _ _ _ ?_).trans ?_ | with_reducible refine (State.warn_viewIn _ _ _).trans ?_ | with_reducible refine (hgo _ _).trans ?_ | dsimp only | split)

theorem State.fillL1_viewIn (s : State) (core g la : Nat) (p : Page) (g0 : Nat) : viewIn (State.fillL1 s core g la p).groups g0 = viewIn s.groups g0 := by
  unfold State.fillL1
  repeat' (first | with_reducible rfl | intro _ | with_reducible refine (foldl_viewIn _ _ _ _ ?_).trans ?_ | with_reducible refine (State.allocL1_viewIn _ _ _ _ _ _ _).trans ?_ | with_reducible refine (State.countPacket_viewIn _ _ _ _).trans ?_ | with_reducible refine (State.readLine_viewIn _ _ _ _ _ _ _).trans ?_ | with_reducible refine (State.sample_viewIn _ _ _ _ _).trans ?_ | dsimp only | split)

theorem State.illegalHere_viewIn (s : State) (info : Nat) (g0 : Nat) : viewIn (State.illegalHere s info).groups g0 = viewIn s.groups g0 := by
  unfold State.illegalHere
  repeat' (first | with_reducible rfl | intro _ | with_reducible refine (foldl_viewIn _ _ _ _ ?_).trans ?_ | with_reducible refine (State.precise_viewIn _ _ _ _ _ _ _ _).trans ?_ | dsimp only | split)

theorem State.copyHolders_viewIn (s : State) (core g uid new : Nat) (g0 : Nat) : viewIn (State.copyHolders s core g uid new).groups g0 = viewIn s.groups g0 := congrArg (fun m => viewIn m g0) (State.copyHolders_groups s core g uid new)

theorem State.freezeTiles_viewIn (s : State) (ctx core : Nat) (g0 : Nat) : viewIn (State.freezeTiles s ctx core).groups g0 = viewIn s.groups g0 := congrArg (fun m => viewIn m g0) (State.freezeTiles_groups s ctx core)

theorem State.writeStops_viewIn (s : State) (ctx : Nat) (l : List Stop) (first : Nat) (g0 : Nat) : viewIn (State.writeStops s ctx l first).groups g0 = viewIn s.groups g0 := congrArg (fun m => viewIn m g0) (State.writeStops_groups s ctx l first)

theorem State.updLoad_viewIn (s : State) (core id : Nat) (f : Load → Load) (g0 : Nat) : viewIn (State.updLoad s core id f).groups g0 = viewIn s.groups g0 := congrArg (fun m => viewIn m g0) (State.updLoad_groups s core id f)

theorem State.updLane_viewIn (s : State) (core id lane : Nat) (f : LaneLoad → LaneLoad) (g0 : Nat) : viewIn (State.updLane s core id lane f).groups g0 = viewIn s.groups g0 := congrArg (fun m => viewIn m g0) (State.updLane_groups s core id lane f)

theorem State.updateGuess_viewIn (s : State) (core : Nat) (l : Load) (g0 : Nat) : viewIn (State.updateGuess s core l).groups g0 = viewIn s.groups g0 := congrArg (fun m => viewIn m g0) (State.updateGuess_groups s core l)

theorem State.settleLoad_viewIn (s : State) (core id : Nat) (was : Bool) (g0 : Nat) : viewIn (State.settleLoad s core id was).groups g0 = viewIn s.groups g0 := by
  unfold State.settleLoad
  repeat' (first | with_reducible rfl | intro _ | with_reducible refine (foldl_viewIn _ _ _ _ ?_).trans ?_ | with_reducible refine (State.updCore_viewIn _ _ _ _).trans ?_ | with_reducible refine (State.updGroup_viewIn _ _ _ _ (by first | exact fun _ => rfl | (intro x; dsimp only; (repeat' split) <;> rfl))).trans ?_ | with_reducible refine (State.updLoad_viewIn _ _ _ _ _).trans ?_ | with_reducible refine (State.updateGuess_viewIn _ _ _ _).trans ?_ | dsimp only | split)

theorem State.unhookAfter_viewIn (s : State) (core g uid seq : Nat) (g0 : Nat) : viewIn (State.unhookAfter s core g uid seq).groups g0 = viewIn s.groups g0 := congrArg (fun m => viewIn m g0) (State.unhookAfter_groups s core g uid seq)

theorem State.unhook_viewIn (s : State) (core la uid : Nat) (g0 : Nat) : viewIn (State.unhook s core la uid).groups g0 = viewIn s.groups g0 := congrArg (fun m => viewIn m g0) (State.unhook_groups s core la uid)

theorem State.memFault_viewIn (s : State) (ctx eng info lane sub : Nat) (va : W64) (g0 : Nat) : viewIn (State.memFault s ctx eng info lane sub va).groups g0 = viewIn s.groups g0 := by
  unfold State.memFault
  repeat' (first | with_reducible rfl | intro _ | with_reducible refine (foldl_viewIn _ _ _ _ ?_).trans ?_ | with_reducible refine (State.forget_viewIn _ _ _ _).trans ?_ | with_reducible refine (State.precise_viewIn _ _ _ _ _ _ _ _).trans ?_ | dsimp only | split)

theorem State.askFills_viewIn (s : State) (core id : Nat) (g0 : Nat) : viewIn (State.askFills s core id).groups g0 = viewIn s.groups g0 := by
  unfold State.askFills
  repeat' (first | with_reducible rfl | intro _ | with_reducible refine (foldl_viewIn _ _ _ _ ?_).trans ?_ | with_reducible refine (State.install_viewIn _ _ _ _ _ _ _).trans ?_ | with_reducible refine (State.sample_viewIn _ _ _ _ _).trans ?_ | with_reducible refine (State.updCore_viewIn _ _ _ _).trans ?_ | with_reducible refine (State.updLane_viewIn _ _ _ _ _ _).trans ?_ | dsimp only | split)

theorem State.accept_viewIn (s : State) (g uid : Nat) (regs : List Reg) (g0 : Nat) : viewIn (State.accept s g uid regs).groups g0 = viewIn s.groups g0 := congrArg (fun m => viewIn m g0) (State.accept_groups s g uid regs)

theorem State.demand_viewIn (s : State) (e : Eff) (a sel : BitVec 7) (blocks : Bool) (finish : List Nat → State → State) (g0 : Nat) (hfinish : ∀ x0 x1, viewIn (finish x0 x1).groups g0 = viewIn x1.groups g0) : viewIn (State.demand s e a sel blocks finish).groups g0 = viewIn s.groups g0 := by
  unfold State.demand
  repeat' (first | with_reducible rfl | intro _ | with_reducible refine (foldl_viewIn _ _ _ _ ?_).trans ?_ | with_reducible refine (State.narrow_viewIn _ _ _).trans ?_ | with_reducible refine (State.wait_viewIn _ _ _ _).trans ?_ | with_reducible refine (hfinish _ _).trans ?_ | dsimp only | split)

theorem State.check_viewIn (s : State) (cause sub info eng : Nat) (lanes : List Nat) (go : State → State) (g0 : Nat) (hgo : ∀ x0, viewIn (go x0).groups g0 = viewIn x0.groups g0) : viewIn (State.check s cause sub info eng lanes go).groups g0 = viewIn s.groups g0 := by
  unfold State.check
  repeat' (first | with_reducible rfl | intro _ | with_reducible refine (foldl_viewIn _ _ _ _ ?_).trans ?_ | with_reducible refine (State.precise_viewIn _ _ _ _ _ _ _ _).trans ?_ | with_reducible refine (hgo _).trans ?_ | dsimp only | split)

theorem State.sendStores_viewIn (s : State) (z : StoreIns) (need : Nat) (x : Group) (lanes : List (Nat × Nat × Option Page)) (g0 : Nat) : viewIn (State.sendStores s z need x lanes).groups g0 = viewIn s.groups g0 := by
  unfold State.sendStores
  repeat' (first | with_reducible rfl | intro _ | with_reducible refine (foldl_viewIn _ _ _ _ ?_).trans ?_ | with_reducible refine (State.pushStore_viewIn _ _ _ _).trans ?_ | with_reducible refine (State.sample_viewIn _ _ _ _ _).trans ?_ | with_reducible refine (State.updGroup_viewIn _ _ _ _ (by first | exact fun _ => rfl | (intro x; dsimp only; (repeat' split) <;> rfl))).trans ?_ | dsimp only | split)

theorem State.scratchWrite_viewIn (s : State) (core ctx off : Nat) (data : List Byte) (poison : Bool) (g0 : Nat) : viewIn (State.scratchWrite s core ctx off data poison).groups g0 = viewIn s.groups g0 := congrArg (fun m => viewIn m g0) (State.scratchWrite_groups s core ctx off data poison)

theorem State.dropHost_viewIn (s : State) (a n : Nat) (g0 : Nat) : viewIn (State.dropHost s a n).groups g0 = viewIn s.groups g0 := congrArg (fun m => viewIn m g0) (State.dropHost_groups s a n)

theorem State.settleStore_viewIn (s : State) (core op g : Nat) (g0 : Nat) : viewIn (State.settleStore s core op g).groups g0 = viewIn s.groups g0 := by
  unfold State.settleStore
  repeat' (first | with_reducible rfl | intro _ | with_reducible refine (foldl_viewIn _ _ _ _ ?_).trans ?_ | with_reducible refine (State.updGroup_viewIn _ _ _ _ (by first | exact fun _ => rfl | (intro x; dsimp only; (repeat' split) <;> rfl))).trans ?_ | dsimp only | split)

theorem State.raiseStore_viewIn (s : State) (core id : Nat) (t : Store) (level : Nat) (g0 : Nat) : viewIn (State.raiseStore s core id t level).groups g0 = viewIn s.groups g0 := by
  unfold State.raiseStore
  repeat' (first | with_reducible rfl | intro _ | with_reducible refine (foldl_viewIn _ _ _ _ ?_).trans ?_ | with_reducible refine (State.settleStore_viewIn _ _ _ _ _).trans ?_ | with_reducible refine (State.updCore_viewIn _ _ _ _).trans ?_ | dsimp only | split)

theorem State.endStore_viewIn (s : State) (core id : Nat) (t : Store) (g0 : Nat) : viewIn (State.endStore s core id t).groups g0 = viewIn s.groups g0 := by
  unfold State.endStore
  repeat' (first | with_reducible rfl | intro _ | with_reducible refine (foldl_viewIn _ _ _ _ ?_).trans ?_ | with_reducible refine (State.settleStore_viewIn _ _ _ _ _).trans ?_ | with_reducible refine (State.updCore_viewIn _ _ _ _).trans ?_ | dsimp only | split)

theorem State.writeBackLine_viewIn (s : State) (core la : Nat) (drop' : Bool) (g0 : Nat) : viewIn (State.writeBackLine s core la drop').groups g0 = viewIn s.groups g0 := congrArg (fun m => viewIn m g0) (State.writeBackLine_groups s core la drop')

theorem State.baseChecks_viewIn (s : State) (act : List Nat) (addr : Nat → Val) (go : State → State) (g0 : Nat) (hgo : ∀ x0, viewIn (go x0).groups g0 = viewIn x0.groups g0) : viewIn (State.baseChecks s act addr go).groups g0 = viewIn s.groups g0 := by
  unfold State.baseChecks
  repeat' (first | with_reducible rfl | intro _ | with_reducible refine (foldl_viewIn _ _ _ _ ?_).trans ?_ | with_reducible refine (State.precise_viewIn _ _ _ _ _ _ _ _).trans ?_ | with_reducible refine (hgo _).trans ?_ | dsimp only | split)

theorem State.sendAtomic_viewIn (s : State) (z : AtomicIns) (x : Group) (pas : List (Nat × Nat × Page)) (va : Nat → W64) (g0 : Nat) : viewIn (State.sendAtomic s z x pas va).groups g0 = viewIn s.groups g0 := by
  unfold State.sendAtomic
  repeat' (first | with_reducible rfl | intro _ | with_reducible refine (foldl_viewIn _ _ _ _ ?_).trans ?_ | with_reducible refine (State.mapLanes_viewIn _ _ _ _ _ (by first | exact fun _ _ => rfl | (intro l b; dsimp only; (repeat' split) <;> rfl))).trans ?_ | with_reducible refine (State.sample_viewIn _ _ _ _ _).trans ?_ | with_reducible refine (State.updCore_viewIn _ _ _ _).trans ?_ | with_reducible refine (State.updGroup_viewIn _ _ _ _ (by first | exact fun _ => rfl | (intro x; dsimp only; (repeat' split) <;> rfl))).trans ?_ | dsimp only | split)

theorem State.updAtomic_viewIn (s : State) (core id : Nat) (f : Atomic → Atomic) (g0 : Nat) : viewIn (State.updAtomic s core id f).groups g0 = viewIn s.groups g0 := congrArg (fun m => viewIn m g0) (State.updAtomic_groups s core id f)

theorem State.countAtomic_viewIn (s : State) (a : Atomic) (g0 : Nat) : viewIn (State.countAtomic s a).groups g0 = viewIn s.groups g0 := by
  unfold State.countAtomic
  repeat' (first | with_reducible rfl | intro _ | with_reducible refine (foldl_viewIn _ _ _ _ ?_).trans ?_ | with_reducible refine (State.updGroup_viewIn _ _ _ _ (by first | exact fun _ => rfl | (intro x; dsimp only; (repeat' split) <;> rfl))).trans ?_ | dsimp only | split)

theorem State.endAtomic_viewIn (s : State) (core id : Nat) (g0 : Nat) : viewIn (State.endAtomic s core id).groups g0 = viewIn s.groups g0 := by
  unfold State.endAtomic
  repeat' (first | with_reducible rfl | intro _ | with_reducible refine (foldl_viewIn _ _ _ _ ?_).trans ?_ | with_reducible refine (State.countAtomic_viewIn _ _ _).trans ?_ | with_reducible refine (State.deferred_viewIn _ _ _ _ _ _ _ _ _ _).trans ?_ | with_reducible refine (State.updCore_viewIn _ _ _ _).trans ?_ | dsimp only | split)

theorem State.acceptLane_viewIn (s : State) (core id lane : Nat) (a : Atomic) (g0 : Nat) : viewIn (State.acceptLane s core id lane a).groups g0 = viewIn s.groups g0 := by
  unfold State.acceptLane
  repeat' (first | with_reducible rfl | intro _ | with_reducible refine (foldl_viewIn _ _ _ _ ?_).trans ?_ | with_reducible refine (State.countAtomic_viewIn _ _ _).trans ?_ | with_reducible refine (State.updAtomic_viewIn _ _ _ _ _).trans ?_ | dsimp only | split)

theorem State.updSlot_viewIn (s : State) (id : Nat) (f : Slot → Slot) (g0 : Nat) : viewIn (State.updSlot s id f).groups g0 = viewIn s.groups g0 := congrArg (fun m => viewIn m g0) (State.updSlot_groups s id f)

theorem State.unbind_viewIn (s : State) (v : Slot) (g0 : Nat) : viewIn (State.unbind s v).groups g0 = viewIn s.groups g0 := congrArg (fun m => viewIn m g0) (State.unbind_groups s v)

theorem State.reapSlots_viewIn (s : State) (g0 : Nat) : viewIn (State.reapSlots s).groups g0 = viewIn s.groups g0 := congrArg (fun m => viewIn m g0) (State.reapSlots_groups s)

theorem State.arriving_viewIn (s : State) (bar : Bar) (d : Nat) (g0 : Nat) : viewIn (State.arriving s bar d).groups g0 = viewIn s.groups g0 := by
  unfold State.arriving
  repeat' (first | with_reducible rfl | intro _ | with_reducible refine (foldl_viewIn _ _ _ _ ?_).trans ?_ | with_reducible refine (State.wait_viewIn _ _ _ _).trans ?_ | dsimp only | split)

theorem State.writeQueue_viewIn (s : State) (vf q field value : Nat) (g0 : Nat) : viewIn (State.writeQueue s vf q field value).groups g0 = viewIn s.groups g0 := congrArg (fun m => viewIn m g0) (State.writeQueue_groups s vf q field value)

theorem State.readTail_viewIn (s : State) (vf q : Nat) (g0 : Nat) : viewIn (State.readTail s vf q).groups g0 = viewIn s.groups g0 := congrArg (fun m => viewIn m g0) (State.readTail_groups s vf q)

theorem State.released_viewIn (s : State) (level : Nat) (lanes : List Nat) (go : State → State) (g0 : Nat) (hgo : ∀ x0, viewIn (go x0).groups g0 = viewIn x0.groups g0) : viewIn (State.released s level lanes go).groups g0 = viewIn s.groups g0 := by
  unfold State.released
  repeat' (first | with_reducible rfl | intro _ | with_reducible refine (foldl_viewIn _ _ _ _ ?_).trans ?_ | with_reducible refine (State.mapLanes_viewIn _ _ _ _ _ (by first | exact fun _ _ => rfl | (intro l b; dsimp only; (repeat' split) <;> rfl))).trans ?_ | with_reducible refine (State.wait_viewIn _ _ _ _).trans ?_ | with_reducible refine (hgo _).trans ?_ | dsimp only | split)

theorem State.claimRows_viewIn (s : State) (core track g : Nat) (g0 : Nat) : viewIn (State.claimRows s core track g).groups g0 = viewIn s.groups g0 := by
  unfold State.claimRows
  repeat' (first | with_reducible rfl | intro _ | with_reducible refine (foldl_viewIn _ _ _ _ ?_).trans ?_ | with_reducible refine (State.updGroup_viewIn _ _ _ _ (by first | exact fun _ => rfl | (intro x; dsimp only; (repeat' split) <;> rfl))).trans ?_ | dsimp only | split)

theorem State.recallRows_viewIn (s : State) (g : Nat) (g0 : Nat) : viewIn (State.recallRows s g).groups g0 = viewIn s.groups g0 := by
  unfold State.recallRows
  repeat' (first | with_reducible rfl | intro _ | with_reducible refine (foldl_viewIn _ _ _ _ ?_).trans ?_ | with_reducible refine (State.claimRows_viewIn _ _ _ _ _).trans ?_ | with_reducible refine (State.updGroup_viewIn _ _ _ _ (by first | exact fun _ => rfl | (intro x; dsimp only; (repeat' split) <;> rfl))).trans ?_ | dsimp only | split)

theorem State.sendAcquire_viewIn (s : State) (x : Group) (dst : Dst) (form : LoadForm) (bytes scope : Nat) (victims : List Nat) (pas : List (Nat × Nat × Page)) (va : Nat → W64) (g0 : Nat) : viewIn (State.sendAcquire s x dst form bytes scope victims pas va).groups g0 = viewIn s.groups g0 := by
  unfold State.sendAcquire
  repeat' (first | with_reducible rfl | intro _ | with_reducible refine (foldl_viewIn _ _ _ _ ?_).trans ?_ | with_reducible refine (State.mapLanes_viewIn _ _ _ _ _ (by first | exact fun _ _ => rfl | (intro l b; dsimp only; (repeat' split) <;> rfl))).trans ?_ | with_reducible refine (State.sample_viewIn _ _ _ _ _).trans ?_ | with_reducible refine (State.updCore_viewIn _ _ _ _).trans ?_ | with_reducible refine (State.updGroup_viewIn _ _ _ _ (by first | exact fun _ => rfl | (intro x; dsimp only; (repeat' split) <;> rfl))).trans ?_ | dsimp only | split)

theorem State.acquireLine_viewIn (s : State) (ctx core la mtype scope : Nat) (l2 conf : Bool) (g0 : Nat) : viewIn (s.acquireLine ctx core la mtype scope l2 conf).1.groups g0 = viewIn s.groups g0 :=
  congrArg (fun m => viewIn m g0) (State.acquireLine_groups s ctx core la mtype scope l2 conf)

theorem State.fetchSegs_viewIn (s : State) (core : Nat) (l : List Seg) (g0 : Nat) : viewIn (State.fetchSegs s core l).groups g0 = viewIn s.groups g0 := congrArg (fun m => viewIn m g0) (State.fetchSegs_groups s core l)

theorem State.reportSegs_viewIn (s : State) (ctx core : Nat) (write : Bool) (l : List Seg) (g0 : Nat) : viewIn (State.reportSegs s ctx core write l).groups g0 = viewIn s.groups g0 := congrArg (fun m => viewIn m g0) (State.reportSegs_groups s ctx core write l)

theorem State.updCopy_viewIn (s : State) (core id : Nat) (f : Copy → Copy) (g0 : Nat) : viewIn (State.updCopy s core id f).groups g0 = viewIn s.groups g0 := congrArg (fun m => viewIn m g0) (State.updCopy_groups s core id f)

theorem State.publish_viewIn (s : State) (core : Nat) (lines : List Nat) (g0 : Nat) : viewIn (State.publish s core lines).groups g0 = viewIn s.groups g0 := congrArg (fun m => viewIn m g0) (State.publish_groups s core lines)

theorem State.retireCopy_viewIn (s : State) (core id : Nat) (c : Copy) (g0 : Nat) : viewIn (State.retireCopy s core id c).groups g0 = viewIn s.groups g0 := by
  unfold State.retireCopy
  repeat' (first | with_reducible rfl | intro _ | with_reducible refine (foldl_viewIn _ _ _ _ ?_).trans ?_ | with_reducible refine (State.publish_viewIn _ _ _ _).trans ?_ | with_reducible refine (State.updCore_viewIn _ _ _ _).trans ?_ | with_reducible refine (State.updGroup_viewIn _ _ _ _ (by first | exact fun _ => rfl | (intro x; dsimp only; (repeat' split) <;> rfl))).trans ?_ | dsimp only | split)

theorem State.endCopy_viewIn (s : State) (core id : Nat) (c : Copy) (cause sub info : Nat) (val : W64) (g0 : Nat) : viewIn (State.endCopy s core id c cause sub info val).groups g0 = viewIn s.groups g0 := by
  unfold State.endCopy
  repeat' (first | with_reducible rfl | intro _ | with_reducible refine (foldl_viewIn _ _ _ _ ?_).trans ?_ | with_reducible refine (State.deferred_viewIn _ _ _ _ _ _ _ _ _ _).trans ?_ | with_reducible refine (State.forget_viewIn _ _ _ _).trans ?_ | with_reducible refine (State.retireCopy_viewIn _ _ _ _ _).trans ?_ | with_reducible refine (State.updCore_viewIn _ _ _ _).trans ?_ | dsimp only | split)

theorem State.setHandle_viewIn (s : State) (h : Nat) (v : Handle) (g0 : Nat) : viewIn (State.setHandle s h v).groups g0 = viewIn s.groups g0 := by
  unfold State.setHandle
  repeat' (first | with_reducible rfl | intro _ | with_reducible refine (foldl_viewIn _ _ _ _ ?_).trans ?_ | with_reducible refine (State.updGroup_viewIn _ _ _ _ (by first | exact fun _ => rfl | (intro x; dsimp only; (repeat' split) <;> rfl))).trans ?_ | dsimp only | split)

theorem State.handleFault_viewIn (s : State) (sub : Nat) (c : HandleCheck) (g0 : Nat) : viewIn (State.handleFault s sub c).groups g0 = viewIn s.groups g0 := by
  unfold State.handleFault
  repeat' (first | with_reducible rfl | intro _ | with_reducible refine (foldl_viewIn _ _ _ _ ?_).trans ?_ | with_reducible refine (State.precise_viewIn _ _ _ _ _ _ _ _).trans ?_ | dsimp only | split)

theorem State.checkHandles_viewIn (s : State) (checks : List HandleCheck) (go : State → State) (g0 : Nat) (hgo : ∀ x0, viewIn (go x0).groups g0 = viewIn x0.groups g0) : viewIn (State.checkHandles s checks go).groups g0 = viewIn s.groups g0 := by
  unfold State.checkHandles
  repeat' (first | with_reducible rfl | intro _ | with_reducible refine (foldl_viewIn _ _ _ _ ?_).trans ?_ | with_reducible refine (State.handleFault_viewIn _ _ _ _).trans ?_ | with_reducible refine (hgo _).trans ?_ | dsimp only | split)

theorem State.tileBase_viewIn (s : State) (b : BitVec 7) (off : W64) (rowBytes : Nat) (write : Bool) (go : W64 → W64 → State → State) (g0 : Nat) (hgo : ∀ x0 x1 x2, viewIn (go x0 x1 x2).groups g0 = viewIn x2.groups g0) : viewIn (State.tileBase s b off rowBytes write go).groups g0 = viewIn s.groups g0 := by
  unfold State.tileBase
  repeat' (first | with_reducible rfl | intro _ | with_reducible refine (foldl_viewIn _ _ _ _ ?_).trans ?_ | with_reducible refine (State.precise_viewIn _ _ _ _ _ _ _ _).trans ?_ | with_reducible refine (hgo _ _ _).trans ?_ | dsimp only | split)

theorem State.scratchBase_viewIn (s : State) (b : BitVec 7) (off : W64) (tag : Option Nat) (transposed write : Bool) (go : W64 → State → State) (g0 : Nat) (hgo : ∀ x0 x1, viewIn (go x0 x1).groups g0 = viewIn x1.groups g0) : viewIn (State.scratchBase s b off tag transposed write go).groups g0 = viewIn s.groups g0 := by
  unfold State.scratchBase
  repeat' (first | with_reducible rfl | intro _ | with_reducible refine (foldl_viewIn _ _ _ _ ?_).trans ?_ | with_reducible refine (State.precise_viewIn _ _ _ _ _ _ _ _).trans ?_ | with_reducible refine (hgo _ _).trans ?_ | dsimp only | split)

theorem State.sendQuarter_viewIn (s : State) (z : MatrixIns) (old : Group) (id n : Nat) (g0 : Nat) : viewIn (State.sendQuarter s z old id n).groups g0 = viewIn s.groups g0 := by
  unfold State.sendQuarter
  repeat' (first | with_reducible rfl | intro _ | with_reducible refine (foldl_viewIn _ _ _ _ ?_).trans ?_ | with_reducible refine (State.setHandle_viewIn _ _ _ _).trans ?_ | with_reducible refine (State.updCore_viewIn _ _ _ _).trans ?_ | dsimp only | split)

theorem State.endTile_viewIn (s : State) (core id : Nat) (o : TileOp) (g0 : Nat) : viewIn (State.endTile s core id o).groups g0 = viewIn s.groups g0 := by
  unfold State.endTile
  repeat' (first | with_reducible rfl | intro _ | with_reducible refine (foldl_viewIn _ _ _ _ ?_).trans ?_ | with_reducible refine (State.deferred_viewIn _ _ _ _ _ _ _ _ _ _).trans ?_ | with_reducible refine (State.reapSlots_viewIn _ _).trans ?_ | with_reducible refine (State.updCore_viewIn _ _ _ _).trans ?_ | with_reducible refine (State.updGroup_viewIn _ _ _ _ (by first | exact fun _ => rfl | (intro x; dsimp only; (repeat' split) <;> rfl))).trans ?_ | dsimp only | split)

theorem State.warnGroup_viewIn (s : State) (g : Nat) (w : W32) (g0 : Nat) : viewIn (State.warnGroup s g w).groups g0 = viewIn s.groups g0 := by
  unfold State.warnGroup
  repeat' (first | with_reducible rfl | intro _ | with_reducible refine (foldl_viewIn _ _ _ _ ?_).trans ?_ | with_reducible refine (State.updGroup_viewIn _ _ _ _ (by first | exact fun _ => rfl | (intro x; dsimp only; (repeat' split) <;> rfl))).trans ?_ | with_reducible refine (State.warn_viewIn _ _ _).trans ?_ | dsimp only | split)

theorem State.clearMark_viewIn (s : State) (core la : Nat) (g0 : Nat) : viewIn (State.clearMark s core la).groups g0 = viewIn s.groups g0 := congrArg (fun m => viewIn m g0) (State.clearMark_groups s core la)

theorem State.recallTile_viewIn (s : State) (core ctx : Nat) (offs : List Nat) (g0 : Nat) : viewIn (State.recallTile s core ctx offs).groups g0 = viewIn s.groups g0 := congrArg (fun m => viewIn m g0) (State.recallTile_groups s core ctx offs)

theorem State.updQuarter_viewIn (s : State) (core id n : Nat) (f : Quarter → Quarter) (g0 : Nat) : viewIn (State.updQuarter s core id n f).groups g0 = viewIn s.groups g0 := congrArg (fun m => viewIn m g0) (State.updQuarter_groups s core id n f)

theorem State.thaw_viewIn (s : State) (ctx id n : Nat) (g0 : Nat) : viewIn (State.thaw s ctx id n).groups g0 = viewIn s.groups g0 := congrArg (fun m => viewIn m g0) (State.thaw_groups s ctx id n)

theorem State.dropTlb_viewIn (s : State) (ctx : Nat) (va : W64) (len : Nat) (g0 : Nat) : viewIn (State.dropTlb s ctx va len).groups g0 = viewIn s.groups g0 := congrArg (fun m => viewIn m g0) (State.dropTlb_groups s ctx va len)

theorem State.publishCopies_viewIn (s : State) (ctx : Nat) (g0 : Nat) : viewIn (State.publishCopies s ctx).groups g0 = viewIn s.groups g0 := congrArg (fun m => viewIn m g0) (State.publishCopies_groups s ctx)

theorem State.endCopies_viewIn (s : State) (ctx : Nat) (g0 : Nat) : viewIn (State.endCopies s ctx).groups g0 = viewIn s.groups g0 := congrArg (fun m => viewIn m g0) (State.endCopies_groups s ctx)

theorem State.flipCopies_viewIn (s : State) (ctx : Nat) (va : W64) (len : Nat) (on : Bool) (g0 : Nat) : viewIn (State.flipCopies s ctx va len on).groups g0 = viewIn s.groups g0 := congrArg (fun m => viewIn m g0) (State.flipCopies_groups s ctx va len on)

theorem State.evictLine_viewIn (s : State) (la : Nat) (g0 : Nat) : viewIn (State.evictLine s la).groups g0 = viewIn s.groups g0 := congrArg (fun m => viewIn m g0) (State.evictLine_groups s la)

theorem State.sealHost_viewIn (s : State) (key : Option Nat) (a n : Nat) (g0 : Nat) : viewIn (State.sealHost s key a n).groups g0 = viewIn s.groups g0 := congrArg (fun m => viewIn m g0) (State.sealHost_groups s key a n)

theorem State.answerHost_viewIn (s : State) (a n : Nat) (g0 : Nat) : viewIn (State.answerHost s a n).groups g0 = viewIn s.groups g0 := congrArg (fun m => viewIn m g0) (State.answerHost_groups s a n)

theorem State.reportLine_viewIn (s : State) (type la : Nat) (g0 : Nat) : viewIn (State.reportLine s type la).groups g0 = viewIn s.groups g0 := congrArg (fun m => viewIn m g0) (State.reportLine_groups s type la)

theorem State.loseLine_viewIn (s : State) (la : Nat) (g0 : Nat) : viewIn (State.loseLine s la).groups g0 = viewIn s.groups g0 := congrArg (fun m => viewIn m g0) (State.loseLine_groups s la)

theorem State.readAtIssue_viewIn (s : State) (va : W64) (n : Nat) (go : List Byte → State → State) (g0 : Nat) (hgo : ∀ x0 x1, viewIn (go x0 x1).groups g0 = viewIn x1.groups g0) : viewIn (State.readAtIssue s va n go).groups g0 = viewIn s.groups g0 := by
  unfold State.readAtIssue
  repeat' (first | with_reducible rfl | intro _ | with_reducible refine (foldl_viewIn _ _ _ _ ?_).trans ?_ | with_reducible refine (State.fillTlb_viewIn _ _ _ _ _).trans ?_ | with_reducible refine (State.memFault_viewIn _ _ _ _ _ _ _ _).trans ?_ | with_reducible refine (State.precise_viewIn _ _ _ _ _ _ _ _).trans ?_ | with_reducible refine (State.readLine_viewIn _ _ _ _ _ _ _).trans ?_ | with_reducible refine (State.reportReads_viewIn _ _ _ _ _).trans ?_ | with_reducible refine (State.throughPort_viewIn _ _ _ _ _ _ ?_).trans ?_ | with_reducible refine (State.waitReplay_viewIn _ _ _ _ _).trans ?_ | with_reducible refine (State.walkPoison_viewIn _ _ _ _ _ _).trans ?_ | with_reducible refine (hgo _ _).trans ?_ | dsimp only | split)

theorem State.writeStatus_viewIn (s : State) (ctx : Nat) (addr : W64) (status : Nat) (g0 : Nat) : viewIn (State.writeStatus s ctx addr status).groups g0 = viewIn s.groups g0 := congrArg (fun m => viewIn m g0) (State.writeStatus_groups s ctx addr status)

theorem State.endCall_viewIn (s : State) (id : Nat) (c : Call) (status : Nat) (g0 : Nat) : viewIn (State.endCall s id c status).groups g0 = viewIn s.groups g0 := congrArg (fun m => viewIn m g0) (State.endCall_groups s id c status)

theorem State.failCall_viewIn (s : State) (id : Nat) (c : Call) (cause sub info : Nat) (va : W64) (g0 : Nat) : viewIn (State.failCall s id c cause sub info va).groups g0 = viewIn s.groups g0 := by
  unfold State.failCall
  repeat' (first | with_reducible rfl | intro _ | with_reducible refine (foldl_viewIn _ _ _ _ ?_).trans ?_ | with_reducible refine (State.deferred_viewIn _ _ _ _ _ _ _ _ _ _).trans ?_ | with_reducible refine (State.endCall_viewIn _ _ _ _ _).trans ?_ | with_reducible refine (State.forget_viewIn _ _ _ _).trans ?_ | dsimp only | split)

theorem State.updCall_viewIn (s : State) (id : Nat) (f : Call → Call) (g0 : Nat) : viewIn (State.updCall s id f).groups g0 = viewIn s.groups g0 := congrArg (fun m => viewIn m g0) (State.updCall_groups s id f)

theorem State.callPiece_viewIn (s : State) (id : Nat) (c : Call) (kind : Kind) (p : W64 × Nat) (go : List Seg → State → State) (g0 : Nat) (hgo : ∀ x0 x1, viewIn (go x0 x1).groups g0 = viewIn x1.groups g0) : viewIn (State.callPiece s id c kind p go).groups g0 = viewIn s.groups g0 := by
  unfold State.callPiece
  repeat' (first | with_reducible rfl | intro _ | with_reducible refine (foldl_viewIn _ _ _ _ ?_).trans ?_ | with_reducible refine (State.askSupervisor_viewIn _ _ _ _).trans ?_ | with_reducible refine (State.failCall_viewIn _ _ _ _ _ _ _ _).trans ?_ | with_reducible refine (State.reportSegs_viewIn _ _ _ _ _ _).trans ?_ | with_reducible refine (State.reportWalk_viewIn _ _ _ _ _).trans ?_ | with_reducible refine (State.send_viewIn _ _ _ _ _ _ _ ?_).trans ?_ | with_reducible refine (hgo _ _).trans ?_ | dsimp only | split)

theorem State.readPiece_viewIn (s : State) (id : Nat) (c : Call) (g0 : Nat) : viewIn (State.readPiece s id c).groups g0 = viewIn s.groups g0 := by
  unfold State.readPiece
  repeat' (first | with_reducible rfl | intro _ | with_reducible refine (foldl_viewIn _ _ _ _ ?_).trans ?_ | with_reducible refine (State.callPiece_viewIn _ _ _ _ _ _ _ ?_).trans ?_ | with_reducible refine (State.fetchSegs_viewIn _ _ _ _).trans ?_ | with_reducible refine (State.updCall_viewIn _ _ _ _).trans ?_ | dsimp only | split)

theorem State.finishCall_viewIn (s : State) (id : Nat) (c : Call) (g0 : Nat) : viewIn (State.finishCall s id c).groups g0 = viewIn s.groups g0 := by
  unfold State.finishCall
  repeat' (first | with_reducible rfl | intro _ | with_reducible refine (foldl_viewIn _ _ _ _ ?_).trans ?_ | with_reducible refine (State.deferred_viewIn _ _ _ _ _ _ _ _ _ _).trans ?_ | with_reducible refine (State.endCall_viewIn _ _ _ _ _).trans ?_ | dsimp only | split)

theorem State.sendPut_viewIn (s : State) (id : Nat) (c : Call) (m : Comm) (g0 : Nat) : viewIn (State.sendPut s id c m).groups g0 = viewIn s.groups g0 := congrArg (fun m => viewIn m g0) (State.sendPut_groups s id c m)

theorem State.joinCall_viewIn (s : State) (id : Nat) (c : Call) (m : Comm) (others : List (Nat × List Byte)) (g0 : Nat) : viewIn (State.joinCall s id c m others).groups g0 = viewIn s.groups g0 := congrArg (fun m => viewIn m g0) (State.joinCall_groups s id c m others)

theorem State.sending_viewIn (s : State) (target : Nat) (go : State → State) (g0 : Nat) (hgo : ∀ x0, viewIn (go x0).groups g0 = viewIn x0.groups g0) : viewIn (State.sending s target go).groups g0 = viewIn s.groups g0 := by
  unfold State.sending
  repeat' (first | with_reducible rfl | intro _ | with_reducible refine (foldl_viewIn _ _ _ _ ?_).trans ?_ | with_reducible refine (State.dropRequests_viewIn _ _ _ _).trans ?_ | with_reducible refine (State.send_viewIn _ _ _ _ _ _ _ ?_).trans ?_ | with_reducible refine (State.wait_viewIn _ _ _ _).trans ?_ | with_reducible refine (hgo _).trans ?_ | dsimp only | split)

theorem State.unasked_viewIn (s : State) (g lane : Nat) (g0 : Nat) : viewIn (State.unasked s g lane).groups g0 = viewIn s.groups g0 := by
  unfold State.unasked
  repeat' (first | with_reducible rfl | intro _ | with_reducible refine (foldl_viewIn _ _ _ _ ?_).trans ?_ | with_reducible refine (State.updGroup_viewIn _ _ _ _ (by first | exact fun _ => rfl | (intro x; dsimp only; (repeat' split) <;> rfl))).trans ?_ | dsimp only | split)

theorem State.reply_viewIn (s : State) (endpoint id status : Nat) (g0 : Nat) : viewIn (State.reply s endpoint id status).groups g0 = viewIn s.groups g0 := congrArg (fun m => viewIn m g0) (State.reply_groups s endpoint id status)

theorem State.refuseMessage_viewIn (s : State) (vf endpoint id : Nat) (g0 : Nat) : viewIn (State.refuseMessage s vf endpoint id).groups g0 = viewIn s.groups g0 := congrArg (fun m => viewIn m g0) (State.refuseMessage_groups s vf endpoint id)

theorem State.answerTo_viewIn (s : State) (endpoint id : Nat) (error : Bool) (g0 : Nat) : viewIn (State.answerTo s endpoint id error).groups g0 = viewIn s.groups g0 := congrArg (fun m => viewIn m g0) (State.answerTo_groups s endpoint id error)

theorem State.reportSparing_viewIn (s : State) (what : Nat) (addr : W64) (place : Nat) (g0 : Nat) : viewIn (State.reportSparing s what addr place).groups g0 = viewIn s.groups g0 := congrArg (fun m => viewIn m g0) (State.reportSparing_groups s what addr place)

theorem State.cacheCode_viewIn (s : State) (x : Group) (l : List (Nat × Bool)) (g0 : Nat) : viewIn (State.cacheCode s x l).groups g0 = viewIn s.groups g0 := congrArg (fun m => viewIn m g0) (State.cacheCode_groups s x l)

theorem State.fetched_viewIn (s : State) (g : Nat) (x : Group) (pc : W64) (n : Nat) (g0 : Nat) : viewIn (State.fetched s g x pc n).groups g0 = viewIn s.groups g0 := congrArg (fun m => viewIn m g0) (State.fetched_groups s g x pc n)

theorem State.fetchTried_viewIn (s : State) (g : Nat) (x : Group) (pc val : W64) (cause sub n : Nat) (g0 : Nat) : viewIn (State.fetchTried s g x pc val cause sub n).groups g0 = viewIn s.groups g0 := congrArg (fun m => viewIn m g0) (State.fetchTried_groups s g x pc val cause sub n)

theorem State.fetchAhead_viewIn (s : State) (g : Nat) (g0 : Nat) : viewIn (State.fetchAhead s g).groups g0 = viewIn s.groups g0 := congrArg (fun m => viewIn m g0) (State.fetchAhead_groups s g)

theorem State.updRequest_viewIn (s : State) (core id lane : Nat) (f : Option Nat → Option Nat) (n : Nat) (g0 : Nat) : viewIn (State.updRequest s core id lane f n).groups g0 = viewIn s.groups g0 := by
  unfold State.updRequest
  repeat' (first | with_reducible rfl | intro _ | with_reducible refine (foldl_viewIn _ _ _ _ ?_).trans ?_ | with_reducible refine (State.updCall_viewIn _ _ _ _).trans ?_ | with_reducible refine (State.updCore_viewIn _ _ _ _).trans ?_ | with_reducible refine (State.updGroup_viewIn _ _ _ _ (by first | exact fun _ => rfl | (intro x; dsimp only; (repeat' split) <;> rfl))).trans ?_ | dsimp only | split)

theorem State.noteSent_viewIn (s : State) (g0 : Nat) : viewIn s.noteSent.groups g0 = viewIn s.groups g0 := by
  unfold State.noteSent
  dsimp only
  refine (viewIn_mapVals _ _ _ (fun g x => by split <;> rfl)).trans ?_
  repeat' (first | with_reducible rfl | intro _ | with_reducible refine (foldl_viewIn _ _ _ _ ?_).trans ?_ | with_reducible refine (State.updRequest_viewIn _ _ _ _ _ _ _).trans ?_ | dsimp only | split)

theorem State.failReading_viewIn (s : State) (g : Nat) (x : Group) (lane sub port : Nat) (r : Reading) (g0 : Nat) : viewIn (State.failReading s g x lane sub port r).groups g0 = viewIn s.groups g0 := by
  unfold State.failReading
  repeat' (first | with_reducible rfl | intro _ | with_reducible refine (foldl_viewIn _ _ _ _ ?_).trans ?_ | with_reducible refine (State.deferred_viewIn _ _ _ _ _ _ _ _ _ _).trans ?_ | with_reducible refine (State.keep_viewIn _ _ _ _ _).trans ?_ | with_reducible refine (State.port_viewIn _ _ _ _ _ _).trans ?_ | with_reducible refine (State.precise_viewIn _ _ _ _ _ _ _ _).trans ?_ | with_reducible refine (State.updGroup_viewIn _ _ _ _ (by first | exact fun _ => rfl | (intro x; dsimp only; (repeat' split) <;> rfl))).trans ?_ | with_reducible refine (State.wait_viewIn _ _ _ _).trans ?_ | dsimp only | split)

theorem State.revokeContext_viewIn (s : State) (ctx : Nat) (g0 : Nat) : viewIn (State.revokeContext s ctx).groups g0 = viewIn s.groups g0 := congrArg (fun m => viewIn m g0) (State.revokeContext_groups s ctx)

theorem State.haltDead_viewIn (s : State) (ctx : Nat) (g0 : Nat) : viewIn (State.haltDead s ctx).groups g0 = viewIn s.groups g0 := by
  unfold State.haltDead
  repeat' (first | with_reducible rfl | intro _ | with_reducible refine (foldl_viewIn _ _ _ _ ?_).trans ?_ | with_reducible refine (State.raiseHalt_viewIn _ _ _ _ _ _ _ _ _).trans ?_ | with_reducible refine (State.updHalt_viewIn _ _ _ _).trans ?_ | dsimp only | split)

theorem State.updVf_viewIn (s : State) (vf : Nat) (f : Vf → Vf) (g0 : Nat) : viewIn (State.updVf s vf f).groups g0 = viewIn s.groups g0 := congrArg (fun m => viewIn m g0) (State.updVf_groups s vf f)

theorem State.refillPort_viewIn (s : State) (core boundary : Nat) (g0 : Nat) : viewIn (State.refillPort s core boundary).groups g0 = viewIn s.groups g0 := congrArg (fun m => viewIn m g0) (State.refillPort_groups s core boundary)

theorem State.refillAt_viewIn (s : State) (boundary core : Nat) (g0 : Nat) : viewIn (State.refillAt s boundary core).groups g0 = viewIn s.groups g0 := congrArg (fun m => viewIn m g0) (State.refillAt_groups s boundary core)

theorem State.refillDue_viewIn (s : State) (n : Nat) (g0 : Nat) : viewIn (State.refillDue s n).groups g0 = viewIn s.groups g0 := congrArg (fun m => viewIn m g0) (State.refillDue_groups s n)

theorem State.updPkg_viewIn (s : State) (f : Package → Package) (g0 : Nat) : viewIn (State.updPkg s f).groups g0 = viewIn s.groups g0 := congrArg (fun m => viewIn m g0) (State.updPkg_groups s f)

theorem State.mapTracks_viewIn (s : State) (cores : List Nat) (f : Track → Track) (g0 : Nat) : viewIn (State.mapTracks s cores f).groups g0 = viewIn s.groups g0 := congrArg (fun m => viewIn m g0) (State.mapTracks_groups s cores f)

theorem State.noteNoise_viewIn (s : State) (die : Nat) (cores : List (Nat × Nat)) (g0 : Nat) : viewIn (State.noteNoise s die cores).groups g0 = viewIn s.groups g0 := congrArg (fun m => viewIn m g0) (State.noteNoise_groups s die cores)

theorem State.strikeArray_viewIn (s : State) (die core array : Nat) (va : W64) (g0 : Nat) : viewIn (State.strikeArray s die core array va).groups g0 = viewIn s.groups g0 := by
  unfold State.strikeArray
  repeat' (first | with_reducible rfl | intro _ | with_reducible refine (foldl_viewIn _ _ _ _ ?_).trans ?_ | with_reducible refine (State.deferred_viewIn _ _ _ _ _ _ _ _ _ _).trans ?_ | with_reducible refine (State.reportLine_viewIn _ _ _ _).trans ?_ | with_reducible refine (State.updCore_viewIn _ _ _ _).trans ?_ | with_reducible refine (State.updDie_viewIn _ _ _ _).trans ?_ | with_reducible refine (State.updSlot_viewIn _ _ _ _).trans ?_ | dsimp only | split)

theorem State.selfTest_viewIn (s : State) (core : Nat) (g0 : Nat) : viewIn (State.selfTest s core).groups g0 = viewIn s.groups g0 := congrArg (fun m => viewIn m g0) (State.selfTest_groups s core)

theorem State.train_viewIn (s : State) (c : Nat × Nat × Nat) (g0 : Nat) : viewIn (State.train s c).groups g0 = viewIn s.groups g0 := congrArg (fun m => viewIn m g0) (State.train_groups s c)

theorem State.countPort_viewIn (s : State) (g : Nat) (w : W32) (lanes : Nat) (g0 : Nat) : viewIn (State.countPort s g w lanes).groups g0 = viewIn s.groups g0 := congrArg (fun m => viewIn m g0) (State.countPort_groups s g w lanes)

theorem State.illegal_viewIn (s : State) (r : Reject) (words : List W32) (g0 : Nat) : viewIn (State.illegal s r words).groups g0 = viewIn s.groups g0 := by
  unfold State.illegal
  repeat' (first | with_reducible rfl | intro _ | with_reducible refine (foldl_viewIn _ _ _ _ ?_).trans ?_ | with_reducible refine (State.precise_viewIn _ _ _ _ _ _ _ _).trans ?_ | dsimp only | split)

theorem State.moveGroup_viewIn (s : State) (g : Nat) (set : GSet) (g0 : Nat) : viewIn (State.moveGroup s g set).groups g0 = viewIn s.groups g0 := by
  unfold State.moveGroup
  repeat' (first | with_reducible rfl | intro _ | with_reducible refine (foldl_viewIn _ _ _ _ ?_).trans ?_ | with_reducible refine (State.updGroup_viewIn _ _ _ _ (by first | exact fun _ => rfl | (intro x; dsimp only; (repeat' split) <;> rfl))).trans ?_ | dsimp only | split)

end Sys2Proof.Machine
end

