-- ==== Sys2Proof/Laws/Numbers.lean ====
section
/-! SUPPORT. The model's integer arithmetic on natural numbers beside the bit vectors and integers of the statements. -/

namespace Sys2Proof.Machine

theorem toSigned_eq {w : Nat} (hw : 0 < w) (x : Nat) : toSigned w x = (BitVec.ofNat w x).toInt := by
  obtain ⟨k, rfl⟩ : ∃ k, w = k + 1 := ⟨w - 1, by omega⟩
  rw [BitVec.toInt_eq_toNat_cond, BitVec.toNat_ofNat]
  unfold toSigned
  have h2 : 2 ^ (k + 1) = 2 * 2 ^ k := by rw [Nat.pow_succ]; omega
  have e : (x % 2 ^ (k + 1) < 2 ^ (k + 1 - 1)) ↔ (2 * (x % 2 ^ (k + 1)) < 2 ^ (k + 1)) := by
    rw [h2, Nat.add_sub_cancel]; constructor <;> omega
  by_cases h : x % 2 ^ (k + 1) < 2 ^ (k + 1 - 1)
  · rw [if_pos h, if_pos (e.1 h)]
  · rw [if_neg h, if_neg (fun h' => h (e.2 h'))]

theorem ofInt_eq (w : Nat) (x : Int) : ofInt w x = (BitVec.ofInt w x).toNat := by
  unfold ofInt
  rw [BitVec.toNat_ofInt]

theorem intVal_eq {w : Nat} (hw : 0 < w) (signed : Bool) (x : Nat) : intVal w signed x = numOf w signed x := by
  unfold intVal numOf
  rw [toSigned_eq hw, BitVec.toNat_ofNat]

theorem clamp_eq {w : Nat} (_ : 0 < w) (signed : Bool) (x : Int) : clamp w signed x = saturated w signed true x := by
  have h1 : (1 : Int) ≤ 2 ^ (w - 1) := one_le_pow₀ (by norm_num)
  have h2 : (1 : Int) ≤ 2 ^ w := one_le_pow₀ (by norm_num)
  unfold clamp saturated intMin intMax
  cases signed <;> simp only [if_true, Bool.false_eq_true, if_false] <;> push_cast <;> split <;> (try split) <;> omega

theorem saturated_false (w : Nat) (signed : Bool) (x : Int) : saturated w signed false x = x := rfl

/-- A result cut to a type and extended (R83, R146). -/
theorem ofInt_intVal {w n : Nat} (hw : 0 < w) (_ : w ≤ n) (signed : Bool) (x : Int) : ofInt n (intVal w signed (ofInt w x)) = patternOf w signed n x := by
  rw [intVal_eq hw, ofInt_eq, ofInt_eq]
  unfold numOf patternOf extended
  cases signed with
  | true => simp only [if_true, BitVec.ofNat_toNat, BitVec.setWidth_eq, BitVec.signExtend]
  | false =>
    simp only [Bool.false_eq_true, if_false, BitVec.toNat_setWidth, BitVec.toNat_ofNat, Nat.mod_eq_of_lt (BitVec.isLt _)]
    rw [BitVec.toNat_ofInt, BitVec.toNat_ofInt]
    norm_cast

theorem kres_eq (t : BitVec 2) (sat : Bool) (x : Int) :
    kres t.toNat sat x = patternOf (ktyWidth t.toNat) (ktySigned t.toNat) 64 (saturated (ktyWidth t.toNat) (ktySigned t.toNat) sat x) := by
  have h0 : 0 < ktyWidth t.toNat := by unfold ktyWidth; split <;> omega
  have h1 : ktyWidth t.toNat ≤ 64 := by unfold ktyWidth; split <;> omega
  unfold kres
  cases sat with
  | true => simp only [if_true, clamp_eq h0]; exact ofInt_intVal h0 h1 _ _
  | false => exact ofInt_intVal h0 h1 _ _

theorem kval_eq (t : BitVec 2) (v : Val) : kval t.toNat v = numOf (ktyWidth t.toNat) (ktySigned t.toNat) v.bits :=
  intVal_eq (by unfold ktyWidth; split <;> omega) _ _

theorem patternOf_id {w : Nat} (signed : Bool) (x : Int) : patternOf w signed w x = ofInt w x := by
  unfold patternOf extended; rw [ofInt_eq]; cases signed <;> simp

theorem ityWidth_pos (t : Nat) : 0 < ityWidth t := by unfold ityWidth; split <;> omega

/-- A vector integer result in its element (R146, R157). -/
theorem ires_eq (t : BitVec 3) (sat : Bool) (x : Int) :
    ires t sat x = patternOf (ityWidth t.toNat) (itySigned t.toNat) (max 32 (ityWidth t.toNat)) (saturated (ityWidth t.toNat) (itySigned t.toNat) sat x) := by
  have h0 := ityWidth_pos t.toNat
  have hs : (if sat = true then clamp (ityWidth t.toNat) (itySigned t.toNat) x else x) = saturated (ityWidth t.toNat) (itySigned t.toNat) sat x := by
    cases sat with
    | true => exact clamp_eq h0 _ _
    | false => rfl
  unfold ires narrowInt
  rw [hs]
  unfold intElem
  split
  · rename_i h
    rw [Nat.max_eq_left (Nat.le_of_lt h), ← ofInt_intVal h0 (Nat.le_of_lt h)]
    generalize saturated (ityWidth t.toNat) (itySigned t.toNat) sat x = y
    unfold intVal
    have : ofInt (ityWidth t.toNat) y < 2 ^ ityWidth t.toNat := by rw [ofInt_eq]; exact BitVec.isLt _
    rw [Nat.mod_eq_of_lt this]
  · rename_i h
    rw [Nat.max_eq_right (Nat.le_of_not_lt h), patternOf_id]

theorem ival_eq (t : BitVec 3) (v : Val) : ival t v = numOf (ityWidth t.toNat) (itySigned t.toNat) v.bits := intVal_eq (ityWidth_pos _) _ _

theorem ktyOf_eq (t : BitVec 2) : ktyOf t = (ktyWidth t.toNat, ktySigned t.toNat) := by
  unfold ktyOf ktyWidth ktySigned; simp only [Prod.mk.injEq, true_and]; rfl

theorem ityOf_eq (t : BitVec 3) : ityOf t = (ityWidth t.toNat, itySigned t.toNat) := by
  unfold ityOf ityWidth itySigned
  have := Nat.mod_lt t.toNat (show 0 < 4 by omega)
  interval_cases h : t.toNat % 4 <;> simp

theorem scalarVal_eq (t : BitVec 2) (sat : Bool) (f : Int → Int → Int) (a b : Val) :
    scalarVal t sat f a b = withTags (kres t.toNat sat (f (kval t.toNat a) (kval t.toNat b))) [a, b] := by
  unfold scalarVal; rw [ktyOf_eq, kres_eq, kval_eq, kval_eq]

theorem vectorNum_eq (t : BitVec 3) (v : Val) : vectorNum t v = ival t v := by unfold vectorNum; rw [ityOf_eq, ival_eq]

theorem vectorVal_eq (t : BitVec 3) (sat : Bool) (x : Int) (srcs : List Val) : vectorVal t sat x srcs = withTags (ires t sat x) srcs := by
  unfold vectorVal; rw [ityOf_eq, ires_eq]

-- ## Shifts and counts

theorem ktyWidth_odd (n : BitVec 1) : ktyWidth (2 * n.toNat + 1) = if n = 0#1 then 64 else 32 := by
  have : n = 0#1 ∨ n = 1#1 := by revert n; decide
  rcases this with rfl | rfl <;> rfl

theorem ktyWidth_even (n : BitVec 1) : ktyWidth (2 * n.toNat) = if n = 0#1 then 64 else 32 := by
  have : n = 0#1 ∨ n = 1#1 := by revert n; decide
  rcases this with rfl | rfl <;> rfl


theorem extended_shl (w n x : Nat) (h0 : 0 < w) (h : w ≤ 64) : ofInt 64 (intVal w false (ofInt w (intVal w false x * ((2 ^ n : Nat) : Int)))) = extended false 64 (BitVec.ofNat w x <<< n) := by
  rw [ofInt_intVal h0 h]
  unfold patternOf
  congr 1
  unfold intVal
  simp only [Bool.false_eq_true, if_false]
  apply BitVec.eq_of_toNat_eq
  rw [BitVec.toNat_ofInt, BitVec.toNat_shiftLeft, BitVec.toNat_ofNat, Nat.shiftLeft_eq]
  norm_cast

theorem extended_shr (w n x : Nat) (h0 : 0 < w) (h : w ≤ 64) : ofInt 64 (intVal w false (ofInt w (intVal w false x / ((2 ^ n : Nat) : Int)))) = extended false 64 (BitVec.ofNat w x >>> n) := by
  rw [ofInt_intVal h0 h]
  unfold patternOf
  congr 1
  unfold intVal
  simp only [Bool.false_eq_true, if_false]
  apply BitVec.eq_of_toNat_eq
  rw [BitVec.toNat_ofInt, BitVec.toNat_ushiftRight, BitVec.toNat_ofNat, Nat.shiftRight_eq_div_pow]
  norm_cast
  rw [Nat.mod_eq_of_lt]
  exact Nat.lt_of_le_of_lt (Nat.div_le_self _ _) (Nat.mod_lt _ (Nat.two_pow_pos w))

theorem extended_sra (w n x : Nat) (h0 : 0 < w) (h : w ≤ 64) : ofInt 64 (intVal w true (ofInt w (intVal w true x / ((2 ^ n : Nat) : Int)))) = extended true 64 ((BitVec.ofNat w x).sshiftRight n) := by
  rw [ofInt_intVal h0 h]
  unfold patternOf
  congr 1
  rw [intVal_eq h0]
  unfold numOf BitVec.sshiftRight
  simp only [if_true]
  rw [Int.shiftRight_eq_div_pow]

theorem size_log2 (x : Nat) (h : x ≠ 0) : x.size = Nat.log2 x + 1 := by
  apply Nat.le_antisymm
  · exact Nat.size_le.2 Nat.lt_log2_self
  · exact Nat.lt_size.2 (Nat.log2_self_le h)

theorem leadingZeros_eq (w x : Nat) : leadingZeros w (x % 2 ^ w) = leadingZerosOf w x := by
  unfold leadingZeros leadingZerosOf
  split
  · rename_i h; rw [h]; simp
  · rename_i h; rw [size_log2 _ h]; omega

theorem bitAt_eq (x i : Nat) : bitAt x i = x.testBit i := by
  unfold bitAt; rw [Nat.testBit_eq_decide_div_mod_eq]

theorem ones_eq (w x : Nat) : ones w x = onesOf w x := by
  unfold ones onesOf; simp only [bitAt_eq]; rfl


end Sys2Proof.Machine
end

