-- ==== Sys2Proof/Laws/Results.lean ====
section
/-! SUPPORT. The results of the instructions of the common execution, for each of the shared operations their meanings call. -/

namespace Sys2Proof.Machine

/-- What an active lane reads. -/
def State.reads (s : State) (i : Instr) (dst : Dst) (a b c : Src) (q : Option Nat) (l : Nat) : Env :=
  ⟨l, s.opnd l a, s.opnd l b, s.opnd l c, dst.read (s.lane s.cur.g l), match q with | some q => (s.lane s.cur.g l).qBit q | none => Val.zero,
    s.rm i, Instr.sat i, s.drawn l 0, s.drawn l 1⟩

theorem State.env_reads (s : State) (z : Alu) (l : Nat) : s.env s.here z (fallback z.ins).2 l = s.reads z.ins z.dst z.a z.b z.c z.q l := rfl

@[simp] theorem State.reads_lane (s : State) (i : Instr) (dst : Dst) (a b c : Src) (q : Option Nat) (l : Nat) : (s.reads i dst a b c q l).lane = l := rfl
@[simp] theorem State.reads_a (s : State) (i : Instr) (dst : Dst) (a b c : Src) (q : Option Nat) (l : Nat) : (s.reads i dst a b c q l).a = s.opnd l a := rfl
@[simp] theorem State.reads_b (s : State) (i : Instr) (dst : Dst) (a b c : Src) (q : Option Nat) (l : Nat) : (s.reads i dst a b c q l).b = s.opnd l b := rfl
@[simp] theorem State.reads_c (s : State) (i : Instr) (dst : Dst) (a b c : Src) (q : Option Nat) (l : Nat) : (s.reads i dst a b c q l).c = s.opnd l c := rfl
@[simp] theorem State.reads_d (s : State) (i : Instr) (dst : Dst) (a b c : Src) (q : Option Nat) (l : Nat) : (s.reads i dst a b c q l).d = dst.read (s.lane s.cur.g l) := rfl
@[simp] theorem State.reads_rm (s : State) (i : Instr) (dst : Dst) (a b c : Src) (q : Option Nat) (l : Nat) : (s.reads i dst a b c q l).rm = s.rm i := rfl
@[simp] theorem State.reads_sat (s : State) (i : Instr) (dst : Dst) (a b c : Src) (q : Option Nat) (l : Nat) : (s.reads i dst a b c q l).sat = Instr.sat i := rfl
@[simp] theorem State.reads_rand0 (s : State) (i : Instr) (dst : Dst) (a b c : Src) (q : Option Nat) (l : Nat) : (s.reads i dst a b c q l).rand0 = s.drawn l 0 := rfl
@[simp] theorem State.reads_rand1 (s : State) (i : Instr) (dst : Dst) (a b c : Src) (q : Option Nat) (l : Nat) : (s.reads i dst a b c q l).rand1 = s.drawn l 1 := rfl
@[simp] theorem State.reads_q (s : State) (i : Instr) (dst : Dst) (a b c : Src) (q l : Nat) : (s.reads i dst a b c (some q) l).q = (s.lane s.cur.g l).qBit q := rfl
@[simp] theorem Out.of_val (bits flags : Nat) (srcs : List Val) : (Out.of bits flags srcs).val = withTags bits srcs := rfl
@[simp] theorem Out.fp_val (r : Nat × Nat) (srcs : List Val) : (Out.fp r srcs).val = withTags r.1 srcs := rfl

theorem Dst.holds_k {c x y : Nat} (h : x % 2 ^ 64 = y % 2 ^ 64) (g p : Bool) : (Dst.k c).holds ⟨x, g, p⟩ = (Dst.k c).holds ⟨y, g, p⟩ := by
  unfold Dst.holds; simp only [h]

/-- A source register gives at most 64 bits. -/
theorem State.readCode_lt (s : State) (x : Group) (l : Nat) (b : Fibre) (c : Nat) {r : Nat} (hr : r ≤ 2) : (s.readCode x l b c r).bits < 2 ^ 64 := by
  unfold State.readCode
  split
  · exact Nat.lt_of_lt_of_le (Fibre.vRows_lt b r _) (Nat.pow_le_pow_right (by omega) (by omega))
  · split
    · exact (b.kReg (c - 96)).val.isLt
    · split
      · unfold Fibre.qBit; dsimp only; split <;> omega
      · exact Nat.mod_lt _ (by omega)

theorem State.opnd_srcR_lt (s : State) (l : Nat) (a : BitVec 7) {r : Nat} (hr : r ≤ 2) : (s.opnd l (srcR a r)).bits < 2 ^ 64 :=
  State.readCode_lt _ _ _ _ _ hr

theorem State.opnd_srcB_lt (s : State) (l : Nat) (m : Mods) (b : BitVec 7) {r : Nat} (hr : r ≤ 2) : (s.opnd l (srcB' m b r)).bits < 2 ^ 64 := by
  unfold srcB'
  split
  · exact BitVec.isLt _
  · exact State.readCode_lt _ _ _ _ _ hr

theorem State.results_congr {s : State} {i : Instr} {d : Dst} {v w : Nat → Val} (h : s.results i d v) (hv : ∀ l, v l = w l) : s.results i d w := by
  rwa [funext hv] at h

/-- Results that a destination holds alike are alike. -/
theorem State.results_holds {s : State} {i : Instr} {d : Dst} {v w : Nat → Val} (h : s.results i d v) (hb : ∀ l g p, d.holds ⟨(v l).bits, g, p⟩ = d.holds ⟨(w l).bits, g, p⟩)
    (hg : ∀ l, (v l).g = (w l).g) (hp : ∀ l, (v l).p = (w l).p) : s.results i d w := by
  obtain ⟨t, ht, hl⟩ := h
  refine ⟨t, ht, fun l hlive => ?_⟩
  have := hl l hlive
  unfold State.delivers at this ⊢
  dsimp only at this ⊢
  simp only [hb l, hg l, hp l] at this
  exact this

/-- A scalar instruction (R83). -/
theorem State.results_scalar {s : State} {i : Instr} {dst : Dst} {a b : Src} {q : Option Nat} {op : Env → Out}
    (hx : exec i s = .next (scalar i dst a b q op s)) (hd : dst.ok) : s.results i dst (fun l => (op (s.reads i dst a b .none q l)).val) :=
  State.results_alu (z := ⟨i, dst, a, b, .none, q, 0, false, false, true, 0, fun _ e => op e⟩) hx rfl rfl hd (State.aluQuiet_int rfl) (fun _ _ => rfl)

/-- A vector instruction of integer kind (R155). -/
theorem State.results_vec {s : State} {i : Instr} {dst : Dst} {a b c : Src} {q : Option Nat} {op : Env → Out}
    (hx : exec i s = .next (vec i dst a b c q op s)) (hd : dst.ok) : s.results i dst (fun l => (op (s.reads i dst a b c q l)).val) :=
  State.results_alu (z := ⟨i, dst, a, b, c, q, 1, false, false, false, 0, fun _ e => op e⟩) hx rfl rfl hd (State.aluQuiet_int rfl) (fun _ _ => rfl)

-- ## Instructions that can trap (R153)

theorem fpTrap_none (fpmode : W32) (outs : List (Nat × Out × Bool))
    (h : ∀ o ∈ outs, o.2.2 = true → (fpmode.getLsbD 7 = true → bitAt o.2.1.flags 14 = false) ∧ (fpmode.getLsbD 6 = true → bitAt o.2.1.flags 13 = false) ∧
      (fpmode.getLsbD 5 = true → bitAt o.2.1.flags 12 = false) ∧ (fpmode.getLsbD 4 = true → bitAt o.2.1.flags 11 = false)) : fpTrap fpmode outs = none := by
  have key : ∀ n e, (∀ o ∈ outs, o.2.2 = true → (fpmode.getLsbD e = true → bitAt o.2.1.flags n = false)) →
      (fpmode.getLsbD e && !((outs.filter (fun o => o.2.2 && bitAt o.2.1.flags n)).map Prod.fst).isEmpty) = false := by
    intro n e hh
    cases he : fpmode.getLsbD e with
    | false => rfl
    | true =>
      have : outs.filter (fun o => o.2.2 && bitAt o.2.1.flags n) = [] := by
        rw [List.filter_eq_nil_iff]
        intro o ho hc
        rw [Bool.and_eq_true] at hc
        rw [hh o ho hc.1 he] at hc
        exact absurd hc.2 (by decide)
      rw [this]; rfl
  unfold fpTrap trapBits
  simp only [List.map_cons, List.map_nil]
  rw [key 14 7 (fun o ho hc => (h o ho hc).1), key 13 6 (fun o ho hc => (h o ho hc).2.1), key 12 5 (fun o ho hc => (h o ho hc).2.2.1),
    key 11 4 (fun o ho hc => (h o ho hc).2.2.2)]
  rfl

theorem State.aluQuiet_untrapped {s : State} {z : Alu} {r : Nat → Nat × Nat} {v : Nat → List Val}
    (hr : ∀ l ∈ activeLanes s (fallback z.ins).2, (z.op (s.aluEnvs z) (s.env s.here z (fallback z.ins).2 l)).flags = (r l).2)
    (hg : ∀ l ∈ activeLanes s (fallback z.ins).2, ((z.op (s.aluEnvs z) (s.env s.here z (fallback z.ins).2 l)).val.g ||
        (Instr.maskBit z.ins (s.lane s.cur.g l)).g) = (withTags 0 (Instr.maskBit z.ins (s.lane s.cur.g l) :: v l)).g)
    (hp : ∀ l ∈ activeLanes s (fallback z.ins).2, ((z.op (s.aluEnvs z) (s.env s.here z (fallback z.ins).2 l)).val.p ||
        (Instr.maskBit z.ins (s.lane s.cur.g l)).p) = (withTags 0 (Instr.maskBit z.ins (s.lane s.cur.g l) :: v l)).p)
    (h : s.untrapped z.ins r v) : s.aluQuiet z := by
  intro _
  refine fpTrap_none _ _ (fun o ho hc => ?_)
  simp only [State.aluOuts, State.aluEnvs, List.map_map, List.mem_map, Function.comp_apply] at ho
  obtain ⟨l, hl, rfl⟩ := ho
  have hl' := List.mem_filter.1 hl
  have hc' : (!((withTags 0 (Instr.maskBit z.ins (s.lane s.cur.g l) :: v l)).g) && !((withTags 0 (Instr.maskBit z.ins (s.lane s.cur.g l) :: v l)).p)) = true := by
    rw [← hg l hl, ← hp l hl]; exact hc
  simp only [Bool.and_eq_true, Bool.not_eq_true'] at hc'
  have := h l hl'.1 (eq_of_beq hl'.2) hc'.1 hc'.2
  rw [← hr l hl] at this
  exact this

theorem withTags_cons_g (n : Nat) (x : Val) (l : List Val) : (withTags n (x :: l)).g = (l.any Val.g || x.g) := by simp [withTags, Bool.or_comm]
theorem withTags_cons_p (n : Nat) (x : Val) (l : List Val) : (withTags n (x :: l)).p = (l.any Val.p || x.p) := by simp [withTags, Bool.or_comm]

/-- A floating-point instruction (R153, R155). -/
theorem State.resultsFp_flt {s : State} {i : Instr} {dst : Dst} {a b c : Src} {w : W32} {op : Env → Out} {r : Nat → Nat × Nat} {v : Nat → List Val}
    (hx : exec i s = .next (flt i dst a b c w op s)) (hd : dst.ok)
    (hr : ∀ l, op (s.reads i dst a b c none l) = Out.fp (r l) (v l)) : s.resultsFp i dst r v := by
  intro hu
  refine State.results_alu (z := ⟨i, dst, a, b, c, none, 1, true, false, false, w, fun _ e => op e⟩) hx rfl rfl hd (State.aluQuiet_untrapped ?_ ?_ ?_ hu) ?_
  · intro l _; rw [State.env_reads]; exact congrArg Out.flags (hr l)
  · intro l _; rw [State.env_reads, withTags_cons_g]; exact congrArg (fun o => o.val.g || _) (hr l)
  · intro l _; rw [State.env_reads, withTags_cons_p]; exact congrArg (fun o => o.val.p || _) (hr l)
  · intro l _; exact congrArg Out.val (hr l)

/-- A special function (R173). -/
theorem State.resultsFp_sfu {s : State} {i : Instr} {k : Special} {t : BitVec 2} {d a : BitVec 7} (hx : exec i s = .next (sfu i k t d a s)) :
    s.resultsFp i (.v d.toNat 1) (fun l => k.result (ftyFmt t.toNat) ((s.opnd l (srcR a 1)).bits % 2 ^ (ftyFmt t.toNat).width)) (fun l => [s.opnd l (srcR a 1)]) := by
  intro hu
  refine State.results_alu (z := ⟨i, .v d.toNat 1, srcR a 1, .none, .none, none, 1, true, true, false, 0,
    fun _ e => let r := k.result (ftyFmt t.toNat) (e.a.bits % 2 ^ (ftyFmt t.toNat).width)
      Out.of r.1 r.2 [e.a]⟩) hx rfl rfl (show 0 < 1 by omega) (State.aluQuiet_untrapped ?_ ?_ ?_ hu) (fun _ _ => rfl)
  · intro l _; rfl
  · intro l _; rw [withTags_cons_g]; rfl
  · intro l _; rw [withTags_cons_p]; rfl

/-- What the active lanes read, and the tags they spread (R186). -/
theorem State.aluEnvs_reads (s : State) (z : Alu) : s.aluEnvs z = (s.actives z.ins).map (s.reads z.ins z.dst z.a z.b z.c z.q) := by
  unfold State.aluEnvs activeLanes State.actives
  refine congrArg₂ List.map rfl (List.filter_congr (fun l _ => ?_))
  show ((Instr.maskBit z.ins (s.lane s.cur.g l)).bits == 1) = _
  rw [beq_eq_decide]

/-- A cross-lane instruction (R185, R186). -/
theorem State.resultsFp_cross {s : State} {i : Instr} {dst : Dst} {a b : Src} {fp : Bool} {srcs : Env → List Val} {op : List Env → Env → Nat × Nat}
    (hx : exec i s = .next (cross i dst a b fp srcs op s)) (hd : dst.ok) :
    s.resultsFp i dst (fun l => op ((s.actives i).map (s.reads i dst a b .none none)) (s.reads i dst a b .none none l))
      (fun _ => s.spread i (fun l => srcs (s.reads i dst a b .none none l))) := by
  intro hu
  have hg : ∀ (f : Val → Bool), (((s.actives i).map (s.reads i dst a b .none none)).any (fun e => (srcs e).any f || f ((s.here.fibre e.lane).maskBit (fallback i).2.mask)))
      = (s.spread i (fun l => srcs (s.reads i dst a b .none none l))).any f := by
    intro f
    unfold State.spread
    rw [List.any_map, List.any_flatMap]
    refine congrArg (List.any _) (funext fun l => ?_)
    simp only [Function.comp_apply, List.any_append, List.any_cons, List.any_nil, Bool.or_false]
    rfl
  have hself : ∀ (f : Val → Bool), ∀ l ∈ activeLanes s (fallback i).2, (s.spread i (fun l => srcs (s.reads i dst a b .none none l))).any f =
      ((s.spread i (fun l => srcs (s.reads i dst a b .none none l))).any f || f (Instr.maskBit i (s.lane s.cur.g l))) := by
    intro f l hl
    have hl' : l ∈ s.actives i := by
      have := List.mem_filter.1 hl
      exact List.mem_filter.2 ⟨this.1, decide_eq_true (eq_of_beq this.2)⟩
    cases hm : f (Instr.maskBit i (s.lane s.cur.g l)) with
    | false => simp
    | true =>
      have : (s.spread i (fun l => srcs (s.reads i dst a b .none none l))).any f = true := by
        rw [List.any_eq_true]
        exact ⟨_, List.mem_flatMap.2 ⟨l, hl', by simp⟩, hm⟩
      rw [this]; rfl
  refine State.results_alu (z := ⟨i, dst, a, b, .none, none, 1, fp, false, false, 0, fun all e =>
    let r := op all e
    ⟨⟨r.1, all.any (fun v => (srcs v).any Val.g || ((s.here.fibre v.lane).maskBit (fallback i).2.mask).g),
      all.any (fun v => (srcs v).any Val.p || ((s.here.fibre v.lane).maskBit (fallback i).2.mask).p)⟩, r.2, false⟩⟩) hx rfl rfl hd
      (State.aluQuiet_untrapped (r := fun l => op ((s.actives i).map (s.reads i dst a b .none none)) (s.reads i dst a b .none none l))
        (v := fun _ => s.spread i (fun l => srcs (s.reads i dst a b .none none l))) ?_ ?_ ?_ hu) ?_
  · intro l _; rw [State.aluEnvs_reads]; rfl
  · intro l hl; rw [State.aluEnvs_reads, withTags_cons_g]; exact congrArg (· || _) (hg Val.g)
  · intro l hl; rw [State.aluEnvs_reads, withTags_cons_p]; exact congrArg (· || _) (hg Val.p)
  · intro l _
    rw [State.aluEnvs_reads]
    unfold withTags
    exact congrArg₂ (fun x y => (⟨_, x, y⟩ : Val)) (hg Val.g) (hg Val.p)

end Sys2Proof.Machine
end

