-- ==== Sys2Proof/Laws/Frame.lean ====
section
/-! SUPPORT. What operations leave alone, in the words of the statements. -/

namespace Sys2Proof.Machine

/-- Two fibres with the same view agree. -/
theorem Fibre.agree_of_view {b c : Fibre} (h : b.view = c.view) (l : List Reg) : b.pc = c.pc ∧ b.agree c l := by
  simp only [Fibre.view, Prod.mk.injEq] at h
  obtain ⟨h1, h2, h3, h4, h5, h6, h7, h8, h9, h10, h11, h12, h13, h14⟩ := h
  refine ⟨h1, fun r _ => ?_, ?_, ?_, ?_, h6, h7, h8, h9, h10, h11, h12, h13, h14⟩
  · obtain ⟨f, i⟩ := r
    cases f <;> simp only [Fibre.regVal, Fibre.vRow, Fibre.kReg, Fibre.wReg, Fibre.qBit, h2, h3, h4, h5]
  all_goals rw [h5]

theorem Fibre.agree_refl (b : Fibre) (l : List Reg) : b.agree b l := (Fibre.agree_of_view rfl l).2

/-- The view of a lane from that of its group. -/
theorem State.view_lane {s t : State} {g : Nat} (h : viewIn t.groups g = viewIn s.groups g) (l : Nat) : (t.lane g l).view = (s.lane g l).view := by
  have := congrArg (fun m => Map.find? m l) h
  simp only [viewIn, Map.find?_mapVals] at this
  unfold State.lane Group.fibre State.group Map.get
  unfold Map.get at this
  cases h1 : ((Option.getD (s.groups.find? g) Group.none).fibres.find? l) with
  | none =>
    rw [h1] at this
    cases h2 : ((Option.getD (t.groups.find? g) Group.none).fibres.find? l) with
    | none => rfl
    | some b => rw [h2] at this; cases this
  | some c =>
    rw [h1] at this
    cases h2 : ((Option.getD (t.groups.find? g) Group.none).fibres.find? l) with
    | none => rw [h2] at this; cases this
    | some b => rw [h2] at this; exact Option.some.inj this

theorem State.stays_of_view {s t : State} {l : Nat} (h : viewIn t.groups s.cur.g = viewIn s.groups s.cur.g) : s.stays t l := by
  have := State.view_lane h l
  simp only [Fibre.view, Prod.mk.injEq] at this
  exact ⟨this.1, this.2.1, this.2.2.1, this.2.2.2.1, this.2.2.2.2.1⟩

/-- Two groups with the same own registers agree. -/
theorem State.agree_of_own {s t : State} {g : Nat} (h : ownIn t.groups g = ownIn s.groups g) : (t.group g).agree (s.group g) := by
  simp only [ownIn, Group.own, Prod.mk.injEq] at h
  exact h

theorem State.quiet_of_rest {s t : State} (h : t.rest = s.rest) (hm : t.mem = s.mem) : s.quiet t := by
  simp only [State.rest, Prod.mk.injEq] at h
  obtain ⟨h1, h2, h3, h4, h5, h6, h7, h8, h9, h10⟩ := h
  exact ⟨fun a => by rw [hm], h1, h2, h3, h4, h5, h6, h7, h8, h9, h10⟩

end Sys2Proof.Machine
end

