-- ==== Sys2Proof/Laws/KeepDies.lean ====
section
/-! SUPPORT. The operations that leave the dies and their L2s as they were, one lemma for each. -/

set_option linter.all false

namespace Sys2Proof.Machine

theorem foldl_dies {α : Type} (f : State → α → State) (l : List α) (s : State) (h : ∀ t a, (f t a).dies = t.dies) : (l.foldl f s).dies = s.dies := by
  induction l generalizing s with
  | nil => rfl
  | cons a l ih => exact (ih _).trans (h _ _)

theorem foldl_fst_dies {α β : Type} (f : State × β → α → State × β) (l : List α) (s : State × β) (h : ∀ t a, (f t a).1.dies = t.1.dies) : (l.foldl f s).1.dies = s.1.dies := by
  induction l generalizing s with
  | nil => rfl
  | cons a l ih => exact (ih _).trans (h _ _)

theorem foldl_snd_dies {α β : Type} (f : β × State → α → β × State) (l : List α) (s : β × State) (h : ∀ t a, (f t a).2.dies = t.2.dies) : (l.foldl f s).2.dies = s.2.dies := by
  induction l generalizing s with
  | nil => rfl
  | cons a l ih => exact (ih _).trans (h _ _)

theorem State.reportSupervisor_dies (s : State) (type vf sev : Nat) (addr : W64) (place : W32) : (State.reportSupervisor s type vf sev addr place).dies = s.dies := by
  unfold State.reportSupervisor
  repeat' (first | with_reducible rfl | intro _ | with_reducible refine (foldl_dies _ _ _ ?_).trans ?_ | dsimp only | split)

theorem State.updCore_dies (s : State) (c : Nat) (f : Core → Core) : (State.updCore s c f).dies = s.dies := by
  unfold State.updCore
  repeat' (first | with_reducible rfl | intro _ | with_reducible refine (foldl_dies _ _ _ ?_).trans ?_ | dsimp only | split)

theorem State.countPacket_dies (s : State) (la : Nat) (conf : Bool) : (State.countPacket s la conf).dies = s.dies := by
  unfold State.countPacket
  repeat' (first | with_reducible rfl | intro _ | with_reducible refine (foldl_dies _ _ _ ?_).trans ?_ | dsimp only | split)

theorem State.writeLine_dies (s : State) (la : Nat) (data : List Byte) (poison : Bool) : (State.writeLine s la data poison).dies = s.dies := by
  unfold State.writeLine
  repeat' (first | with_reducible rfl | intro _ | with_reducible refine (foldl_dies _ _ _ ?_).trans ?_ | dsimp only | split)

theorem State.reportDies_dies (s : State) (la : Nat) (dies : List Nat) : (State.reportDies s la dies).dies = s.dies := by
  unfold State.reportDies
  repeat' (first | with_reducible rfl | intro _ | with_reducible refine (foldl_dies _ _ _ ?_).trans ?_ | with_reducible refine (State.reportSupervisor_dies _ _ _ _ _ _).trans ?_ | dsimp only | split)

theorem State.invalidateL1s_dies (s : State) (d la except : Nat) : (State.invalidateL1s s d la except).dies = s.dies := by
  unfold State.invalidateL1s
  repeat' (first | with_reducible rfl | intro _ | with_reducible refine (foldl_dies _ _ _ ?_).trans ?_ | dsimp only | split)

theorem State.homeWrite_dies (s : State) (a : Nat) (data : List Byte) (poison conf : Bool) : (State.homeWrite s a data poison conf).dies = s.dies := by
  unfold State.homeWrite
  repeat' (first | with_reducible rfl | intro _ | with_reducible refine (foldl_dies _ _ _ ?_).trans ?_ | with_reducible refine (State.countPacket_dies _ _ _).trans ?_ | dsimp only | split)

theorem State.askSupervisor_dies (s : State) (ctx : Nat) (va : W64) : (State.askSupervisor s ctx va).dies = s.dies := by
  unfold State.askSupervisor
  repeat' (first | with_reducible rfl | intro _ | with_reducible refine (foldl_dies _ _ _ ?_).trans ?_ | dsimp only | split)

theorem State.forget_dies (s : State) (ctx : Nat) (va : W64) : (State.forget s ctx va).dies = s.dies := by
  unfold State.forget
  repeat' (first | with_reducible rfl | intro _ | with_reducible refine (foldl_dies _ _ _ ?_).trans ?_ | dsimp only | split)

theorem State.updGroup_dies (s : State) (g : Nat) (f : Group → Group) : (State.updGroup s g f).dies = s.dies := by
  unfold State.updGroup
  repeat' (first | with_reducible rfl | intro _ | with_reducible refine (foldl_dies _ _ _ ?_).trans ?_ | dsimp only | split)

theorem State.mapLanes_dies (s : State) (g : Nat) (lanes : List Nat) (f : Nat → Fibre → Fibre) : (State.mapLanes s g lanes f).dies = s.dies := by
  unfold State.mapLanes
  repeat' (first | with_reducible rfl | intro _ | with_reducible refine (foldl_dies _ _ _ ?_).trans ?_ | with_reducible refine (State.updGroup_dies _ _ _).trans ?_ | dsimp only | split)

theorem State.updFibre_dies (s : State) (g lane : Nat) (f : Fibre → Fibre) : (State.updFibre s g lane f).dies = s.dies := by
  unfold State.updFibre
  repeat' (first | with_reducible rfl | intro _ | with_reducible refine (foldl_dies _ _ _ ?_).trans ?_ | with_reducible refine (State.mapLanes_dies _ _ _ _).trans ?_ | dsimp only | split)

theorem State.updGrid_dies (s : State) (n : Nat) (f : Grid → Grid) : (State.updGrid s n f).dies = s.dies := by
  unfold State.updGrid
  repeat' (first | with_reducible rfl | intro _ | with_reducible refine (foldl_dies _ _ _ ?_).trans ?_ | dsimp only | split)

theorem State.releaseHolders_dies (s : State) (g uid : Nat) (regs : List Reg) (counts : Bool) : (State.releaseHolders s g uid regs counts).dies = s.dies := by
  unfold State.releaseHolders
  repeat' (first | with_reducible rfl | intro _ | with_reducible refine (foldl_dies _ _ _ ?_).trans ?_ | with_reducible refine (State.updCore_dies _ _ _).trans ?_ | with_reducible refine (State.updGrid_dies _ _ _).trans ?_ | dsimp only | split)

theorem State.releaseFibre_dies (s : State) (g uid : Nat) : (State.releaseFibre s g uid).dies = s.dies := by
  unfold State.releaseFibre
  repeat' (first | with_reducible rfl | intro _ | with_reducible refine (foldl_dies _ _ _ ?_).trans ?_ | with_reducible refine (State.updCore_dies _ _ _).trans ?_ | with_reducible refine (State.updGrid_dies _ _ _).trans ?_ | dsimp only | split)

theorem State.settleGm_dies (s : State) (g : Nat) : (State.settleGm s g).dies = s.dies := by
  unfold State.settleGm
  repeat' (first | with_reducible rfl | intro _ | with_reducible refine (foldl_dies _ _ _ ?_).trans ?_ | with_reducible refine (State.mapLanes_dies _ _ _ _).trans ?_ | dsimp only | split)

theorem State.advance_dies (s : State) (lanes : List Nat) : (State.advance s lanes).dies = s.dies := by
  unfold State.advance
  repeat' (first | with_reducible rfl | intro _ | with_reducible refine (foldl_dies _ _ _ ?_).trans ?_ | with_reducible refine (State.mapLanes_dies _ _ _ _).trans ?_ | dsimp only | split)

theorem State.warn_dies (s : State) (w : W32) : (State.warn s w).dies = s.dies := by
  unfold State.warn
  repeat' (first | with_reducible rfl | intro _ | with_reducible refine (foldl_dies _ _ _ ?_).trans ?_ | with_reducible refine (State.updGroup_dies _ _ _).trans ?_ | dsimp only | split)

theorem State.wait_dies (s : State) (lanes : List Nat) (w : Wait) : (State.wait s lanes w).dies = s.dies := by
  unfold State.wait
  repeat' (first | with_reducible rfl | intro _ | with_reducible refine (foldl_dies _ _ _ ?_).trans ?_ | with_reducible refine (State.mapLanes_dies _ _ _ _).trans ?_ | dsimp only | split)

theorem State.dropLater_dies (s : State) (g : Nat) (h : Held) : (State.dropLater s g h).dies = s.dies := by
  unfold State.dropLater
  repeat' (first | with_reducible rfl | intro _ | with_reducible refine (foldl_dies _ _ _ ?_).trans ?_ | with_reducible refine (State.updCore_dies _ _ _).trans ?_ | dsimp only | split)

theorem State.undoHeld_dies (s : State) (g : Nat) : (State.undoHeld s g).dies = s.dies := by
  unfold State.undoHeld
  repeat' (first | with_reducible rfl | intro _ | with_reducible refine (foldl_dies _ _ _ ?_).trans ?_ | with_reducible refine (State.dropLater_dies _ _ _).trans ?_ | with_reducible refine (State.mapLanes_dies _ _ _ _).trans ?_ | with_reducible refine (State.updGroup_dies _ _ _).trans ?_ | with_reducible refine (State.wait_dies _ _ _).trans ?_ | dsimp only | split)

theorem State.reportRefused_dies (s : State) (ctx core : Nat) (lines : List Nat) : (State.reportRefused s ctx core lines).dies = s.dies := by
  unfold State.reportRefused
  repeat' (first | with_reducible rfl | intro _ | with_reducible refine (foldl_dies _ _ _ ?_).trans ?_ | with_reducible refine (State.reportSupervisor_dies _ _ _ _ _ _).trans ?_ | dsimp only | split)

theorem State.reportReads_dies (s : State) (ctx core : Nat) (lines : List Nat) : (State.reportReads s ctx core lines).dies = s.dies := by
  unfold State.reportReads
  repeat' (first | with_reducible rfl | intro _ | with_reducible refine (foldl_dies _ _ _ ?_).trans ?_ | with_reducible refine (State.reportRefused_dies _ _ _ _).trans ?_ | dsimp only | split)

theorem State.reportWrites_dies (s : State) (ctx core : Nat) (lines : List Nat) : (State.reportWrites s ctx core lines).dies = s.dies := by
  unfold State.reportWrites
  repeat' (first | with_reducible rfl | intro _ | with_reducible refine (foldl_dies _ _ _ ?_).trans ?_ | with_reducible refine (State.reportRefused_dies _ _ _ _).trans ?_ | dsimp only | split)

theorem State.reportWalk_dies (s : State) (ctx core : Nat) (va : W64) : (State.reportWalk s ctx core va).dies = s.dies := by
  unfold State.reportWalk
  repeat' (first | with_reducible rfl | intro _ | with_reducible refine (foldl_dies _ _ _ ?_).trans ?_ | with_reducible refine (State.reportReads_dies _ _ _ _).trans ?_ | dsimp only | split)

theorem State.shiftTimes_dies (s : State) (ctx : Nat) : (State.shiftTimes s ctx).dies = s.dies := by
  unfold State.shiftTimes
  repeat' (first | with_reducible rfl | intro _ | with_reducible refine (foldl_dies _ _ _ ?_).trans ?_ | with_reducible refine (State.wait_dies _ _ _).trans ?_ | dsimp only | split)

theorem State.raiseHalt_dies (s : State) (ctx reason g : Nat) (t : Trap) (lanes : List Nat) (incomplete : Bool) (epc : W64) : (State.raiseHalt s ctx reason g t lanes incomplete epc).dies = s.dies := by
  unfold State.raiseHalt
  repeat' (first | with_reducible rfl | intro _ | with_reducible refine (foldl_dies _ _ _ ?_).trans ?_ | with_reducible refine (State.shiftTimes_dies _ _).trans ?_ | dsimp only | split)

theorem State.keep_dies (s : State) (g : Nat) (t : Trap) (lanes : List Nat) : (State.keep s g t lanes).dies = s.dies := by
  unfold State.keep
  repeat' (first | with_reducible rfl | intro _ | with_reducible refine (foldl_dies _ _ _ ?_).trans ?_ | with_reducible refine (State.updGroup_dies _ _ _).trans ?_ | dsimp only | split)

theorem State.updHalt_dies (s : State) (ctx : Nat) (f : Halt → Halt) : (State.updHalt s ctx f).dies = s.dies := by
  unfold State.updHalt
  repeat' (first | with_reducible rfl | intro _ | with_reducible refine (foldl_dies _ _ _ ?_).trans ?_ | dsimp only | split)

theorem State.fault_dies (s : State) (g : Nat) (t : Trap) (lanes : List Nat) (incomplete : Bool) : (State.fault s g t lanes incomplete).dies = s.dies := by
  unfold State.fault
  repeat' (first | with_reducible rfl | intro _ | with_reducible refine (foldl_dies _ _ _ ?_).trans ?_ | with_reducible refine (State.keep_dies _ _ _ _).trans ?_ | with_reducible refine (State.raiseHalt_dies _ _ _ _ _ _ _ _).trans ?_ | with_reducible refine (State.updHalt_dies _ _ _).trans ?_ | dsimp only | split)

theorem State.precise_dies (s : State) (cause sub info eng : Nat) (lanes : List Nat) (val : W64) : (State.precise s cause sub info eng lanes val).dies = s.dies := by
  unfold State.precise
  repeat' (first | with_reducible rfl | intro _ | with_reducible refine (foldl_dies _ _ _ ?_).trans ?_ | with_reducible refine (State.fault_dies _ _ _ _ _).trans ?_ | dsimp only | split)

theorem State.walkPoison_dies (s : State) (eng field lane : Nat) (va : W64) : (State.walkPoison s eng field lane va).dies = s.dies := by
  unfold State.walkPoison
  repeat' (first | with_reducible rfl | intro _ | with_reducible refine (foldl_dies _ _ _ ?_).trans ?_ | with_reducible refine (State.precise_dies _ _ _ _ _ _ _).trans ?_ | with_reducible refine (State.reportWalk_dies _ _ _ _).trans ?_ | dsimp only | split)

theorem State.deferred_dies (s : State) (ctx g cause sub info eng lane : Nat) (val : W64) : (State.deferred s ctx g cause sub info eng lane val).dies = s.dies := by
  unfold State.deferred
  repeat' (first | with_reducible rfl | intro _ | with_reducible refine (foldl_dies _ _ _ ?_).trans ?_ | with_reducible refine (State.fault_dies _ _ _ _ _).trans ?_ | with_reducible refine (State.raiseHalt_dies _ _ _ _ _ _ _ _).trans ?_ | dsimp only | split)

theorem State.raisePending_dies (s : State) (g : Nat) : (State.raisePending s g).dies = s.dies := by
  unfold State.raisePending
  repeat' (first | with_reducible rfl | intro _ | with_reducible refine (foldl_dies _ _ _ ?_).trans ?_ | with_reducible refine (State.deferred_dies _ _ _ _ _ _ _ _ _).trans ?_ | with_reducible refine (State.fault_dies _ _ _ _ _).trans ?_ | with_reducible refine (State.raiseHalt_dies _ _ _ _ _ _ _ _).trans ?_ | with_reducible refine (State.updGroup_dies _ _ _).trans ?_ | dsimp only | split)

theorem State.report_dies (s : State) (vf type : Nat) (addr : W64) (place : W32) : (State.report s vf type addr place).dies = s.dies := by
  unfold State.report
  repeat' (first | with_reducible rfl | intro _ | with_reducible refine (foldl_dies _ _ _ ?_).trans ?_ | with_reducible refine (State.reportSupervisor_dies _ _ _ _ _ _).trans ?_ | dsimp only | split)

theorem State.moveLinks_dies (s : State) (g uid : Nat) (f : Nat → Nat) : (State.moveLinks s g uid f).dies = s.dies := by
  unfold State.moveLinks
  repeat' (first | with_reducible rfl | intro _ | with_reducible refine (foldl_dies _ _ _ ?_).trans ?_ | with_reducible refine (State.updCore_dies _ _ _).trans ?_ | dsimp only | split)

theorem State.parkGroups_dies (s : State) (ctx : Nat) (but : Option Nat) : (State.parkGroups s ctx but).dies = s.dies := by
  unfold State.parkGroups
  repeat' (first | with_reducible rfl | intro _ | with_reducible refine (foldl_dies _ _ _ ?_).trans ?_ | dsimp only | split)

theorem State.unparkGroups_dies (s : State) (ctx : Nat) : (State.unparkGroups s ctx).dies = s.dies := by
  unfold State.unparkGroups
  repeat' (first | with_reducible rfl | intro _ | with_reducible refine (foldl_dies _ _ _ ?_).trans ?_ | dsimp only | split)

theorem State.serveLatched_dies (s : State) (ctx : Nat) : (State.serveLatched s ctx).dies = s.dies := by
  unfold State.serveLatched
  repeat' (first | with_reducible rfl | intro _ | with_reducible refine (foldl_dies _ _ _ ?_).trans ?_ | with_reducible refine (State.raiseHalt_dies _ _ _ _ _ _ _ _).trans ?_ | dsimp only | split)

theorem State.quitLanes_dies (s : State) (g : Nat) (lanes : List Nat) : (State.quitLanes s g lanes).dies = s.dies := by
  unfold State.quitLanes
  repeat' (first | with_reducible rfl | intro _ | with_reducible refine (foldl_dies _ _ _ ?_).trans ?_ | with_reducible refine (State.keep_dies _ _ _ _).trans ?_ | with_reducible refine (State.releaseFibre_dies _ _ _).trans ?_ | with_reducible refine (State.updGroup_dies _ _ _).trans ?_ | dsimp only | split)

theorem State.raiseEnded_dies (s : State) (ctx : Nat) : (State.raiseEnded s ctx).dies = s.dies := by
  unfold State.raiseEnded
  repeat' (first | with_reducible rfl | intro _ | with_reducible refine (foldl_dies _ _ _ ?_).trans ?_ | with_reducible refine (State.raiseHalt_dies _ _ _ _ _ _ _ _).trans ?_ | dsimp only | split)

theorem State.releaseHalt_dies (s : State) (ctx : Nat) : (State.releaseHalt s ctx).dies = s.dies := by
  unfold State.releaseHalt
  repeat' (first | with_reducible rfl | intro _ | with_reducible refine (foldl_dies _ _ _ ?_).trans ?_ | with_reducible refine (State.raiseEnded_dies _ _).trans ?_ | with_reducible refine (State.serveLatched_dies _ _).trans ?_ | with_reducible refine (State.unparkGroups_dies _ _).trans ?_ | with_reducible refine (State.updHalt_dies _ _ _).trans ?_ | dsimp only | split)

theorem State.endHandler_dies (s : State) (ctx g : Nat) : (State.endHandler s ctx g).dies = s.dies := by
  unfold State.endHandler
  repeat' (first | with_reducible rfl | intro _ | with_reducible refine (foldl_dies _ _ _ ?_).trans ?_ | with_reducible refine (State.releaseHalt_dies _ _).trans ?_ | with_reducible refine (State.updHalt_dies _ _ _).trans ?_ | dsimp only | split)

theorem State.leaveHandler_dies (s : State) (g : Nat) : (State.leaveHandler s g).dies = s.dies := by
  unfold State.leaveHandler
  repeat' (first | with_reducible rfl | intro _ | with_reducible refine (foldl_dies _ _ _ ?_).trans ?_ | with_reducible refine (State.endHandler_dies _ _ _).trans ?_ | with_reducible refine (State.mapLanes_dies _ _ _ _).trans ?_ | with_reducible refine (State.moveLinks_dies _ _ _ _).trans ?_ | with_reducible refine (State.quitLanes_dies _ _ _).trans ?_ | with_reducible refine (State.releaseHolders_dies _ _ _ _ _).trans ?_ | with_reducible refine (State.shiftTimes_dies _ _).trans ?_ | with_reducible refine (State.updGroup_dies _ _ _).trans ?_ | dsimp only | split)

theorem State.freeLast_dies (s : State) (old : Group) (e : Eff) (written : Fibre → List Reg) : (State.freeLast s old e written).dies = s.dies := by
  unfold State.freeLast
  repeat' (first | with_reducible rfl | intro _ | with_reducible refine (foldl_dies _ _ _ ?_).trans ?_ | with_reducible refine (State.mapLanes_dies _ _ _ _).trans ?_ | with_reducible refine (State.releaseHolders_dies _ _ _ _ _).trans ?_ | dsimp only | split)

theorem State.complete_dies (s : State) (old : Group) (e : Eff) (written : Fibre → List Reg) : (State.complete s old e written).dies = s.dies := by
  unfold State.complete
  repeat' (first | with_reducible rfl | intro _ | with_reducible refine (foldl_dies _ _ _ ?_).trans ?_ | with_reducible refine (State.advance_dies _ _).trans ?_ | with_reducible refine (State.freeLast_dies _ _ _ _).trans ?_ | with_reducible refine (State.settleGm_dies _ _).trans ?_ | dsimp only | split)

theorem State.narrow_dies (s : State) (lanes : List Nat) : (State.narrow s lanes).dies = s.dies := by
  unfold State.narrow
  repeat' (first | with_reducible rfl | intro _ | with_reducible refine (foldl_dies _ _ _ ?_).trans ?_ | dsimp only | split)

theorem State.control_dies (s : State) (eng : Nat) (ops : Group → Nat → Fibre → List Ctl) (go : State → State) (hgo : ∀ x0, (go x0).dies = x0.dies) : (State.control s eng ops go).dies = s.dies := by
  unfold State.control
  repeat' (first | with_reducible rfl | intro _ | with_reducible refine (foldl_dies _ _ _ ?_).trans ?_ | with_reducible refine (State.mapLanes_dies _ _ _ _).trans ?_ | with_reducible refine (State.narrow_dies _ _).trans ?_ | with_reducible refine (State.precise_dies _ _ _ _ _ _ _).trans ?_ | with_reducible refine (State.releaseHolders_dies _ _ _ _ _).trans ?_ | with_reducible refine (State.wait_dies _ _ _).trans ?_ | with_reducible refine (hgo _).trans ?_ | dsimp only | split)

theorem State.pending_dies (s : State) (z : Alu) (old : Group) (lanes : List Nat) (flags : W32) (trap : Option (Trap × List Nat)) : (State.pending s z old lanes flags trap).dies = s.dies := by
  unfold State.pending
  repeat' (first | with_reducible rfl | intro _ | with_reducible refine (foldl_dies _ _ _ ?_).trans ?_ | with_reducible refine (State.mapLanes_dies _ _ _ _).trans ?_ | with_reducible refine (State.updCore_dies _ _ _).trans ?_ | dsimp only | split)

theorem State.alu_dies (s : State) (z : Alu) : (State.alu s z).dies = s.dies := by
  unfold State.alu
  repeat' (first | with_reducible rfl | intro _ | with_reducible refine (foldl_dies _ _ _ ?_).trans ?_ | with_reducible refine (State.complete_dies _ _ _ _).trans ?_ | with_reducible refine (State.fault_dies _ _ _ _ _).trans ?_ | with_reducible refine (State.mapLanes_dies _ _ _ _).trans ?_ | with_reducible refine (State.pending_dies _ _ _ _ _ _).trans ?_ | with_reducible refine (State.releaseHolders_dies _ _ _ _ _).trans ?_ | with_reducible refine (State.warn_dies _ _).trans ?_ | dsimp only | split)

theorem State.acquireL1_dies (s : State) (core scope : Nat) (teamCores : Nat) : (State.acquireL1 s core scope teamCores).dies = s.dies := by
  unfold State.acquireL1
  repeat' (first | with_reducible rfl | intro _ | with_reducible refine (foldl_dies _ _ _ ?_).trans ?_ | with_reducible refine (State.updCore_dies _ _ _).trans ?_ | dsimp only | split)

theorem State.updTeam_dies (s : State) (x : Group) (f : Team → Team) : (State.updTeam s x f).dies = s.dies := by
  unfold State.updTeam
  repeat' (first | with_reducible rfl | intro _ | with_reducible refine (foldl_dies _ _ _ ?_).trans ?_ | with_reducible refine (State.updGrid_dies _ _ _).trans ?_ | dsimp only | split)

theorem State.checkGroup_dies (s : State) (g : Nat) : (State.checkGroup s g).dies = s.dies := by
  unfold State.checkGroup
  repeat' (first | with_reducible rfl | intro _ | with_reducible refine (foldl_dies _ _ _ ?_).trans ?_ | with_reducible refine (State.acquireL1_dies _ _ _ _).trans ?_ | with_reducible refine (State.mapLanes_dies _ _ _ _).trans ?_ | with_reducible refine (State.updGroup_dies _ _ _).trans ?_ | with_reducible refine (State.wait_dies _ _ _).trans ?_ | dsimp only | split)

theorem State.checkTeam_dies (s : State) (g : Nat) : (State.checkTeam s g).dies = s.dies := by
  unfold State.checkTeam
  repeat' (first | with_reducible rfl | intro _ | with_reducible refine (foldl_dies _ _ _ ?_).trans ?_ | with_reducible refine (State.acquireL1_dies _ _ _ _).trans ?_ | with_reducible refine (State.updTeam_dies _ _ _).trans ?_ | dsimp only | split)

theorem State.checkGrid_dies (s : State) (grid : Nat) : (State.checkGrid s grid).dies = s.dies := by
  unfold State.checkGrid
  repeat' (first | with_reducible rfl | intro _ | with_reducible refine (foldl_dies _ _ _ ?_).trans ?_ | with_reducible refine (State.updGrid_dies _ _ _).trans ?_ | dsimp only | split)

theorem State.checkBarriers_dies (s : State) (g : Nat) : (State.checkBarriers s g).dies = s.dies := by
  unfold State.checkBarriers
  repeat' (first | with_reducible rfl | intro _ | with_reducible refine (foldl_dies _ _ _ ?_).trans ?_ | with_reducible refine (State.checkGrid_dies _ _).trans ?_ | with_reducible refine (State.checkGroup_dies _ _).trans ?_ | with_reducible refine (State.checkTeam_dies _ _).trans ?_ | dsimp only | split)

theorem State.checkContext_dies (s : State) (ctx : Nat) : (State.checkContext s ctx).dies = s.dies := by
  unfold State.checkContext
  repeat' (first | with_reducible rfl | intro _ | with_reducible refine (foldl_dies _ _ _ ?_).trans ?_ | with_reducible refine (State.checkBarriers_dies _ _).trans ?_ | dsimp only | split)

theorem State.checkReturn_dies (s : State) (g : Nat) : (State.checkReturn s g).dies = s.dies := by
  unfold State.checkReturn
  repeat' (first | with_reducible rfl | intro _ | with_reducible refine (foldl_dies _ _ _ ?_).trans ?_ | with_reducible refine (State.checkBarriers_dies _ _).trans ?_ | with_reducible refine (State.checkContext_dies _ _).trans ?_ | with_reducible refine (State.leaveHandler_dies _ _).trans ?_ | with_reducible refine (State.wait_dies _ _ _).trans ?_ | dsimp only | split)

theorem State.pushStore_dies (s : State) (core : Nat) (t : Store) : (State.pushStore s core t).dies = s.dies := by
  unfold State.pushStore
  repeat' (first | with_reducible rfl | intro _ | with_reducible refine (foldl_dies _ _ _ ?_).trans ?_ | with_reducible refine (State.updCore_dies _ _ _).trans ?_ | dsimp only | split)

theorem State.portTake_dies (s : State) (ctx core n : Nat) (a : Ask) : (State.portTake s ctx core n a).dies = s.dies := by
  unfold State.portTake
  repeat' (first | with_reducible rfl | intro _ | with_reducible refine (foldl_dies _ _ _ ?_).trans ?_ | with_reducible refine (State.updCore_dies _ _ _).trans ?_ | dsimp only | split)

theorem State.portQueue_dies (s : State) (ctx core n : Nat) (a : Ask) : (State.portQueue s ctx core n a).dies = s.dies := by
  unfold State.portQueue
  repeat' (first | with_reducible rfl | intro _ | with_reducible refine (foldl_dies _ _ _ ?_).trans ?_ | with_reducible refine (State.updCore_dies _ _ _).trans ?_ | dsimp only | split)

theorem State.port_dies (s : State) (ctx core n : Nat) (a : Ask) : (s.port ctx core n a).1.dies = s.dies := by
  unfold State.port
  split
  · exact State.portTake_dies ..
  · exact State.portQueue_dies ..

theorem State.reportDead_dies (s : State) (ctx core : Nat) (lines : List Nat) : (State.reportDead s ctx core lines).dies = s.dies := by
  unfold State.reportDead
  repeat' (first | with_reducible rfl | intro _ | with_reducible refine (foldl_dies _ _ _ ?_).trans ?_ | with_reducible refine (State.reportSupervisor_dies _ _ _ _ _ _).trans ?_ | dsimp only | split)

theorem State.dropRequests_dies (s : State) (ctx core : Nat) : (State.dropRequests s ctx core).dies = s.dies := by
  unfold State.dropRequests
  repeat' (first | with_reducible rfl | intro _ | with_reducible refine (foldl_dies _ _ _ ?_).trans ?_ | with_reducible refine (State.forget_dies _ _ _).trans ?_ | with_reducible refine (State.reportDead_dies _ _ _ _).trans ?_ | with_reducible refine (State.updCore_dies _ _ _).trans ?_ | dsimp only | split)

theorem State.send_dies (s : State) (ctx core n : Nat) (a : Ask) (go : State → State) (hgo : ∀ x0, (go x0).dies = x0.dies) : (State.send s ctx core n a go).dies = s.dies := by
  unfold State.send
  repeat' (first | with_reducible rfl | intro _ | with_reducible refine (foldl_dies _ _ _ ?_).trans ?_ | with_reducible refine (State.dropRequests_dies _ _ _).trans ?_ | with_reducible refine (State.port_dies _ _ _ _ _).trans ?_ | with_reducible refine (hgo _).trans ?_ | dsimp only | split)

theorem State.throughPort_dies (s : State) (ctx core n : Nat) (go : State → State) (hgo : ∀ x0, (go x0).dies = x0.dies) : (State.throughPort s ctx core n go).dies = s.dies := by
  unfold State.throughPort
  repeat' (first | with_reducible rfl | intro _ | with_reducible refine (foldl_dies _ _ _ ?_).trans ?_ | with_reducible refine (State.send_dies _ _ _ _ _ _ ?_).trans ?_ | with_reducible refine (hgo _).trans ?_ | dsimp only | split)

theorem State.waitReplay_dies (s : State) (ctx : Nat) (addrs : List (Nat × W64)) (faulting : List Nat) : (State.waitReplay s ctx addrs faulting).dies = s.dies := by
  unfold State.waitReplay
  repeat' (first | with_reducible rfl | intro _ | with_reducible refine (foldl_dies _ _ _ ?_).trans ?_ | with_reducible refine (State.askSupervisor_dies _ _ _).trans ?_ | with_reducible refine (State.wait_dies _ _ _).trans ?_ | dsimp only | split)

theorem State.suspend_dies (s : State) (i : Instr) (e : Eff) (load : Bool) (dst : Fibre → List Reg) (ctx : Nat) (addrs : List (Nat × W64)) (faulting : List Nat) : (State.suspend s i e load dst ctx addrs faulting).dies = s.dies := by
  unfold State.suspend
  repeat' (first | with_reducible rfl | intro _ | with_reducible refine (foldl_dies _ _ _ ?_).trans ?_ | with_reducible refine (State.advance_dies _ _).trans ?_ | with_reducible refine (State.askSupervisor_dies _ _ _).trans ?_ | with_reducible refine (State.keep_dies _ _ _ _).trans ?_ | with_reducible refine (State.mapLanes_dies _ _ _ _).trans ?_ | with_reducible refine (State.updGroup_dies _ _ _).trans ?_ | dsimp only | split)

theorem State.claimScratch_dies (s : State) (core ctx : Nat) (keep : List Nat) : (State.claimScratch s core ctx keep).dies = s.dies := by
  unfold State.claimScratch
  repeat' (first | with_reducible rfl | intro _ | with_reducible refine (foldl_dies _ _ _ ?_).trans ?_ | with_reducible refine (State.keep_dies _ _ _ _).trans ?_ | with_reducible refine (State.updCore_dies _ _ _).trans ?_ | dsimp only | split)

theorem State.recallScratch_dies (s : State) (core ctx off n : Nat) : (State.recallScratch s core ctx off n).dies = s.dies := by
  unfold State.recallScratch
  repeat' (first | with_reducible rfl | intro _ | with_reducible refine (foldl_dies _ _ _ ?_).trans ?_ | with_reducible refine (State.claimScratch_dies _ _ _ _).trans ?_ | with_reducible refine (State.updCore_dies _ _ _).trans ?_ | dsimp only | split)

theorem State.patchL1_dies (s : State) (core a : Nat) (data : List Byte) (poison : Bool) : (State.patchL1 s core a data poison).dies = s.dies := by
  unfold State.patchL1
  repeat' (first | with_reducible rfl | intro _ | with_reducible refine (foldl_dies _ _ _ ?_).trans ?_ | with_reducible refine (State.updCore_dies _ _ _).trans ?_ | dsimp only | split)

theorem State.sample_dies (s : State) (core g la : Nat) : (State.sample s core g la).dies = s.dies := by
  unfold State.sample
  repeat' (first | with_reducible rfl | intro _ | with_reducible refine (foldl_dies _ _ _ ?_).trans ?_ | with_reducible refine (State.updGroup_dies _ _ _).trans ?_ | dsimp only | split)

theorem State.install_dies (s : State) (core la : Nat) (l : L1Line) (g pol : Nat) : (State.install s core la l g pol).dies = s.dies := by
  unfold State.install
  repeat' (first | with_reducible rfl | intro _ | with_reducible refine (foldl_dies _ _ _ ?_).trans ?_ | with_reducible refine (State.keep_dies _ _ _ _).trans ?_ | with_reducible refine (State.updCore_dies _ _ _).trans ?_ | with_reducible refine (State.updGroup_dies _ _ _).trans ?_ | dsimp only | split)

theorem State.allocL1_dies (s : State) (core la g pol : Nat) (l1 : Bool) : (State.allocL1 s core la g pol l1).dies = s.dies := by
  unfold State.allocL1
  repeat' (first | with_reducible rfl | intro _ | with_reducible refine (foldl_dies _ _ _ ?_).trans ?_ | with_reducible refine (State.install_dies _ _ _ _ _ _).trans ?_ | with_reducible refine (State.updCore_dies _ _ _).trans ?_ | dsimp only | split)

theorem State.plain_dies (s : State) (i : Instr) (go : Eff → State → State) (hgo : ∀ x0 x1, (go x0 x1).dies = x1.dies) : (State.plain s i go).dies = s.dies := by
  unfold State.plain
  repeat' (first | with_reducible rfl | intro _ | with_reducible refine (foldl_dies _ _ _ ?_).trans ?_ | with_reducible refine (State.warn_dies _ _).trans ?_ | with_reducible refine (hgo _ _).trans ?_ | dsimp only | split)

theorem State.only_dies (s : State) (i : Instr) : (State.only s i).dies = s.dies := by
  unfold State.only
  repeat' (first | with_reducible rfl | intro _ | with_reducible refine (foldl_dies _ _ _ ?_).trans ?_ | with_reducible refine (State.complete_dies _ _ _ _).trans ?_ | with_reducible refine (State.plain_dies _ _ _ ?_).trans ?_ | dsimp only | split)

theorem State.jump_dies (s : State) (target : Nat → Fibre → W64) : (State.jump s target).dies = s.dies := by
  unfold State.jump
  repeat' (first | with_reducible rfl | intro _ | with_reducible refine (foldl_dies _ _ _ ?_).trans ?_ | with_reducible refine (State.mapLanes_dies _ _ _ _).trans ?_ | with_reducible refine (State.wait_dies _ _ _).trans ?_ | dsimp only | split)

theorem State.checkTarget_dies (s : State) (f : BitVec 3) (a : BitVec 7) (go : State → State) (hgo : ∀ x0, (go x0).dies = x0.dies) : (State.checkTarget s f a go).dies = s.dies := by
  unfold State.checkTarget
  repeat' (first | with_reducible rfl | intro _ | with_reducible refine (foldl_dies _ _ _ ?_).trans ?_ | with_reducible refine (State.control_dies _ _ _ _ ?_).trans ?_ | with_reducible refine (State.precise_dies _ _ _ _ _ _ _).trans ?_ | with_reducible refine (hgo _).trans ?_ | dsimp only | split)

theorem State.releaseJunction_dies (s : State) (g : Nat) (pc : W64) : (State.releaseJunction s g pc).dies = s.dies := by
  unfold State.releaseJunction
  repeat' (first | with_reducible rfl | intro _ | with_reducible refine (foldl_dies _ _ _ ?_).trans ?_ | with_reducible refine (State.mapLanes_dies _ _ _ _).trans ?_ | dsimp only | split)

theorem State.illegalHere_dies (s : State) (info : Nat) : (State.illegalHere s info).dies = s.dies := by
  unfold State.illegalHere
  repeat' (first | with_reducible rfl | intro _ | with_reducible refine (foldl_dies _ _ _ ?_).trans ?_ | with_reducible refine (State.precise_dies _ _ _ _ _ _ _).trans ?_ | dsimp only | split)

theorem State.copyHolders_dies (s : State) (core g uid new : Nat) : (State.copyHolders s core g uid new).dies = s.dies := by
  unfold State.copyHolders
  repeat' (first | with_reducible rfl | intro _ | with_reducible refine (foldl_dies _ _ _ ?_).trans ?_ | with_reducible refine (State.updCore_dies _ _ _).trans ?_ | dsimp only | split)

theorem State.forkOne_dies (s : State) (f : BitVec 3) (d a b : BitVec 7) (x : Group) (lane : Nat) : (State.forkOne s f d a b x lane).dies = s.dies := by
  unfold State.forkOne
  repeat' (first | with_reducible rfl | intro _ | with_reducible refine (foldl_dies _ _ _ ?_).trans ?_ | with_reducible refine (State.copyHolders_dies _ _ _ _ _).trans ?_ | with_reducible refine (State.releaseHolders_dies _ _ _ _ _).trans ?_ | with_reducible refine (State.updFibre_dies _ _ _ _).trans ?_ | with_reducible refine (State.updGroup_dies _ _ _).trans ?_ | dsimp only | split)

theorem State.zeroMasked_dies (s : State) (e : Eff) (act : List Nat) (d : Dst) (old : Group) : (State.zeroMasked s e act d old).dies = s.dies := by
  unfold State.zeroMasked
  repeat' (first | with_reducible rfl | intro _ | with_reducible refine (foldl_dies _ _ _ ?_).trans ?_ | with_reducible refine (State.mapLanes_dies _ _ _ _).trans ?_ | with_reducible refine (State.releaseHolders_dies _ _ _ _ _).trans ?_ | dsimp only | split)

theorem State.window_dies (s : State) (e : Eff) (base : Fibre → Int) (req : Fibre → W64) : (State.window s e base req).dies = s.dies := by
  unfold State.window
  repeat' (first | with_reducible rfl | intro _ | with_reducible refine (foldl_dies _ _ _ ?_).trans ?_ | with_reducible refine (State.complete_dies _ _ _ _).trans ?_ | with_reducible refine (State.mapLanes_dies _ _ _ _).trans ?_ | with_reducible refine (State.precise_dies _ _ _ _ _ _ _).trans ?_ | dsimp only | split)

theorem State.setDest_dies (s : State) (d : Dst) (v : Nat → Fibre → Val) : (State.setDest s d v).dies = s.dies := by
  unfold State.setDest
  repeat' (first | with_reducible rfl | intro _ | with_reducible refine (foldl_dies _ _ _ ?_).trans ?_ | with_reducible refine (State.mapLanes_dies _ _ _ _).trans ?_ | with_reducible refine (State.releaseHolders_dies _ _ _ _ _).trans ?_ | dsimp only | split)

theorem State.writeSys_dies (s : State) (n lane : Nat) (v : W64) : (State.writeSys s n lane v).dies = s.dies := by
  unfold State.writeSys
  repeat' (first | with_reducible rfl | intro _ | with_reducible refine (foldl_dies _ _ _ ?_).trans ?_ | with_reducible refine (State.releaseHolders_dies _ _ _ _ _).trans ?_ | with_reducible refine (State.updFibre_dies _ _ _ _).trans ?_ | with_reducible refine (State.updGroup_dies _ _ _).trans ?_ | dsimp only | split)

theorem State.swr_dies (s : State) (i : Instr) (m : Mods) (a n : BitVec 7) (f : W64 → W64 → W64) : (State.swr s i m a n f).dies = s.dies := by
  unfold State.swr
  repeat' (first | with_reducible rfl | intro _ | with_reducible refine (foldl_dies _ _ _ ?_).trans ?_ | with_reducible refine (State.complete_dies _ _ _ _).trans ?_ | with_reducible refine (State.control_dies _ _ _ _ ?_).trans ?_ | with_reducible refine (State.illegalHere_dies _ _).trans ?_ | with_reducible refine (State.plain_dies _ _ _ ?_).trans ?_ | with_reducible refine (State.precise_dies _ _ _ _ _ _ _).trans ?_ | with_reducible refine (State.writeSys_dies _ _ _ _).trans ?_ | dsimp only | split)

theorem State.retireResult_dies (s : State) (core id : Nat) : (State.retireResult s core id).dies = s.dies := by
  unfold State.retireResult
  repeat' (first | with_reducible rfl | intro _ | with_reducible refine (foldl_dies _ _ _ ?_).trans ?_ | with_reducible refine (State.fault_dies _ _ _ _ _).trans ?_ | with_reducible refine (State.updCore_dies _ _ _).trans ?_ | with_reducible refine (State.updFibre_dies _ _ _ _).trans ?_ | with_reducible refine (State.updGroup_dies _ _ _).trans ?_ | dsimp only | split)

theorem State.freezeTiles_dies (s : State) (ctx core : Nat) : (State.freezeTiles s ctx core).dies = s.dies := by
  unfold State.freezeTiles
  repeat' (first | with_reducible rfl | intro _ | with_reducible refine (foldl_dies _ _ _ ?_).trans ?_ | dsimp only | split)

theorem State.updLoad_dies (s : State) (core id : Nat) (f : Load → Load) : (State.updLoad s core id f).dies = s.dies := by
  unfold State.updLoad
  repeat' (first | with_reducible rfl | intro _ | with_reducible refine (foldl_dies _ _ _ ?_).trans ?_ | with_reducible refine (State.updCore_dies _ _ _).trans ?_ | dsimp only | split)

theorem State.updLane_dies (s : State) (core id lane : Nat) (f : LaneLoad → LaneLoad) : (State.updLane s core id lane f).dies = s.dies := by
  unfold State.updLane
  repeat' (first | with_reducible rfl | intro _ | with_reducible refine (foldl_dies _ _ _ ?_).trans ?_ | with_reducible refine (State.updLoad_dies _ _ _ _).trans ?_ | dsimp only | split)

theorem State.landReg_dies (s : State) (g lane uid : Nat) (r : Option Reg) (form : LoadForm) (v : Val) : (State.landReg s g lane uid r form v).dies = s.dies := by
  unfold State.landReg
  repeat' (first | with_reducible rfl | intro _ | with_reducible refine (foldl_dies _ _ _ ?_).trans ?_ | with_reducible refine (State.releaseHolders_dies _ _ _ _ _).trans ?_ | with_reducible refine (State.updFibre_dies _ _ _ _).trans ?_ | dsimp only | split)

theorem State.updateGuess_dies (s : State) (core : Nat) (l : Load) : (State.updateGuess s core l).dies = s.dies := by
  unfold State.updateGuess
  repeat' (first | with_reducible rfl | intro _ | with_reducible refine (foldl_dies _ _ _ ?_).trans ?_ | with_reducible refine (State.updCore_dies _ _ _).trans ?_ | dsimp only | split)

theorem State.settleLoad_dies (s : State) (core id : Nat) (was : Bool) : (State.settleLoad s core id was).dies = s.dies := by
  unfold State.settleLoad
  repeat' (first | with_reducible rfl | intro _ | with_reducible refine (foldl_dies _ _ _ ?_).trans ?_ | with_reducible refine (State.updCore_dies _ _ _).trans ?_ | with_reducible refine (State.updGroup_dies _ _ _).trans ?_ | with_reducible refine (State.updLoad_dies _ _ _ _).trans ?_ | with_reducible refine (State.updateGuess_dies _ _ _).trans ?_ | dsimp only | split)

theorem State.takeTicket_dies (s : State) (core id : Nat) (l : Load) (lane : Nat) (e : LaneLoad) : (State.takeTicket s core id l lane e).dies = s.dies := by
  unfold State.takeTicket
  repeat' (first | with_reducible rfl | intro _ | with_reducible refine (foldl_dies _ _ _ ?_).trans ?_ | with_reducible refine (State.landReg_dies _ _ _ _ _ _ _).trans ?_ | with_reducible refine (State.updCore_dies _ _ _).trans ?_ | with_reducible refine (State.updLane_dies _ _ _ _ _).trans ?_ | dsimp only | split)

theorem State.expire_dies (s : State) (core id limit : Nat) : (State.expire s core id limit).dies = s.dies := by
  unfold State.expire
  repeat' (first | with_reducible rfl | intro _ | with_reducible refine (foldl_dies _ _ _ ?_).trans ?_ | with_reducible refine (State.landReg_dies _ _ _ _ _ _ _).trans ?_ | with_reducible refine (State.settleLoad_dies _ _ _ _).trans ?_ | with_reducible refine (State.takeTicket_dies _ _ _ _ _ _).trans ?_ | with_reducible refine (State.updLane_dies _ _ _ _ _).trans ?_ | dsimp only | split)

theorem State.truthFor_dies (s : State) (core ticket v : Nat) (p : Bool) : (State.truthFor s core ticket v p).dies = s.dies := by
  unfold State.truthFor
  repeat' (first | with_reducible rfl | intro _ | with_reducible refine (foldl_dies _ _ _ ?_).trans ?_ | with_reducible refine (State.mapLanes_dies _ _ _ _).trans ?_ | with_reducible refine (State.updCore_dies _ _ _).trans ?_ | dsimp only | split)

theorem State.unhookAfter_dies (s : State) (core g uid seq : Nat) : (State.unhookAfter s core g uid seq).dies = s.dies := by
  unfold State.unhookAfter
  repeat' (first | with_reducible rfl | intro _ | with_reducible refine (foldl_dies _ _ _ ?_).trans ?_ | with_reducible refine (State.updCore_dies _ _ _).trans ?_ | dsimp only | split)

theorem State.deliver_dies (s : State) (core id lane v : Nat) (p : Bool) : (State.deliver s core id lane v p).dies = s.dies := by
  unfold State.deliver
  repeat' (first | with_reducible rfl | intro _ | with_reducible refine (foldl_dies _ _ _ ?_).trans ?_ | with_reducible refine (State.acquireL1_dies _ _ _ _).trans ?_ | with_reducible refine (State.expire_dies _ _ _ _).trans ?_ | with_reducible refine (State.landReg_dies _ _ _ _ _ _ _).trans ?_ | with_reducible refine (State.settleGm_dies _ _).trans ?_ | with_reducible refine (State.settleLoad_dies _ _ _ _).trans ?_ | with_reducible refine (State.truthFor_dies _ _ _ _ _).trans ?_ | with_reducible refine (State.unhookAfter_dies _ _ _ _ _).trans ?_ | with_reducible refine (State.updLane_dies _ _ _ _ _).trans ?_ | dsimp only | split)

theorem State.unhook_dies (s : State) (core la uid : Nat) : (State.unhook s core la uid).dies = s.dies := by
  unfold State.unhook
  repeat' (first | with_reducible rfl | intro _ | with_reducible refine (foldl_dies _ _ _ ?_).trans ?_ | with_reducible refine (State.updCore_dies _ _ _).trans ?_ | dsimp only | split)

theorem State.memFault_dies (s : State) (ctx eng info lane sub : Nat) (va : W64) : (State.memFault s ctx eng info lane sub va).dies = s.dies := by
  unfold State.memFault
  repeat' (first | with_reducible rfl | intro _ | with_reducible refine (foldl_dies _ _ _ ?_).trans ?_ | with_reducible refine (State.forget_dies _ _ _).trans ?_ | with_reducible refine (State.precise_dies _ _ _ _ _ _ _).trans ?_ | dsimp only | split)

theorem State.askFills_dies (s : State) (core id : Nat) : (State.askFills s core id).dies = s.dies := by
  unfold State.askFills
  repeat' (first | with_reducible rfl | intro _ | with_reducible refine (foldl_dies _ _ _ ?_).trans ?_ | with_reducible refine (State.install_dies _ _ _ _ _ _).trans ?_ | with_reducible refine (State.sample_dies _ _ _ _).trans ?_ | with_reducible refine (State.updCore_dies _ _ _).trans ?_ | with_reducible refine (State.updLane_dies _ _ _ _ _).trans ?_ | dsimp only | split)

theorem State.maskedOff_dies (s : State) (e : Eff) (act : List Nat) (d : Dst) (old : Group) : (State.maskedOff s e act d old).dies = s.dies := by
  unfold State.maskedOff
  repeat' (first | with_reducible rfl | intro _ | with_reducible refine (foldl_dies _ _ _ ?_).trans ?_ | with_reducible refine (State.mapLanes_dies _ _ _ _).trans ?_ | with_reducible refine (State.zeroMasked_dies _ _ _ _ _).trans ?_ | dsimp only | split)

theorem State.sendLoad_dies (s : State) (z : LoadIns) (e : Eff) (x : Group) (act : List Nat) (pas : List (Nat × Nat × Page)) (addr : Nat → Val) : (State.sendLoad s z e x act pas addr).dies = s.dies := by
  unfold State.sendLoad
  repeat' (first | with_reducible rfl | intro _ | with_reducible refine (foldl_dies _ _ _ ?_).trans ?_ | with_reducible refine (State.askFills_dies _ _ _).trans ?_ | with_reducible refine (State.landReg_dies _ _ _ _ _ _ _).trans ?_ | with_reducible refine (State.mapLanes_dies _ _ _ _).trans ?_ | with_reducible refine (State.settleLoad_dies _ _ _ _).trans ?_ | with_reducible refine (State.updCore_dies _ _ _).trans ?_ | with_reducible refine (State.updGroup_dies _ _ _).trans ?_ | with_reducible refine (State.updLane_dies _ _ _ _ _).trans ?_ | dsimp only | split)

theorem State.consume_dies (s : State) (core la id lane : Nat) (line : L1Line) : (State.consume s core la id lane line).dies = s.dies := by
  unfold State.consume
  repeat' (first | with_reducible rfl | intro _ | with_reducible refine (foldl_dies _ _ _ ?_).trans ?_ | with_reducible refine (State.deliver_dies _ _ _ _ _ _).trans ?_ | with_reducible refine (State.updLane_dies _ _ _ _ _).trans ?_ | dsimp only | split)

theorem State.accept_dies (s : State) (g uid : Nat) (regs : List Reg) : (State.accept s g uid regs).dies = s.dies := by
  unfold State.accept
  repeat' (first | with_reducible rfl | intro _ | with_reducible refine (foldl_dies _ _ _ ?_).trans ?_ | with_reducible refine (State.updCore_dies _ _ _).trans ?_ | dsimp only | split)

theorem State.testTags_dies (s : State) (i : Instr) (d a b : BitVec 7) (f : Val → Bool) : (State.testTags s i d a b f).dies = s.dies := by
  unfold State.testTags
  repeat' (first | with_reducible rfl | intro _ | with_reducible refine (foldl_dies _ _ _ ?_).trans ?_ | with_reducible refine (State.complete_dies _ _ _ _).trans ?_ | with_reducible refine (State.mapLanes_dies _ _ _ _).trans ?_ | with_reducible refine (State.plain_dies _ _ _ ?_).trans ?_ | dsimp only | split)

theorem State.demand_dies (s : State) (e : Eff) (a sel : BitVec 7) (blocks : Bool) (finish : List Nat → State → State) (hfinish : ∀ x0 x1, (finish x0 x1).dies = x1.dies) : (State.demand s e a sel blocks finish).dies = s.dies := by
  unfold State.demand
  repeat' (first | with_reducible rfl | intro _ | with_reducible refine (foldl_dies _ _ _ ?_).trans ?_ | with_reducible refine (State.narrow_dies _ _).trans ?_ | with_reducible refine (State.wait_dies _ _ _).trans ?_ | with_reducible refine (hfinish _ _).trans ?_ | dsimp only | split)

theorem State.finishLanes_dies (s : State) (lanes : List Nat) : (State.finishLanes s lanes).dies = s.dies := by
  unfold State.finishLanes
  repeat' (first | with_reducible rfl | intro _ | with_reducible refine (foldl_dies _ _ _ ?_).trans ?_ | with_reducible refine (State.advance_dies _ _).trans ?_ | with_reducible refine (State.settleGm_dies _ _).trans ?_ | dsimp only | split)

theorem State.writeTruth_dies (s : State) (lane : Nat) (regs : List Reg) : (State.writeTruth s lane regs).dies = s.dies := by
  unfold State.writeTruth
  repeat' (first | with_reducible rfl | intro _ | with_reducible refine (foldl_dies _ _ _ ?_).trans ?_ | with_reducible refine (State.accept_dies _ _ _ _).trans ?_ | with_reducible refine (State.mapLanes_dies _ _ _ _).trans ?_ | dsimp only | split)

theorem State.check_dies (s : State) (cause sub info eng : Nat) (lanes : List Nat) (go : State → State) (hgo : ∀ x0, (go x0).dies = x0.dies) : (State.check s cause sub info eng lanes go).dies = s.dies := by
  unfold State.check
  repeat' (first | with_reducible rfl | intro _ | with_reducible refine (foldl_dies _ _ _ ?_).trans ?_ | with_reducible refine (State.precise_dies _ _ _ _ _ _ _).trans ?_ | with_reducible refine (hgo _).trans ?_ | dsimp only | split)

theorem State.sendStores_dies (s : State) (z : StoreIns) (need : Nat) (x : Group) (lanes : List (Nat × Nat × Option Page)) : (State.sendStores s z need x lanes).dies = s.dies := by
  unfold State.sendStores
  repeat' (first | with_reducible rfl | intro _ | with_reducible refine (foldl_dies _ _ _ ?_).trans ?_ | with_reducible refine (State.pushStore_dies _ _ _).trans ?_ | with_reducible refine (State.sample_dies _ _ _ _).trans ?_ | with_reducible refine (State.updGroup_dies _ _ _).trans ?_ | dsimp only | split)

theorem State.scratchWrite_dies (s : State) (core ctx off : Nat) (data : List Byte) (poison : Bool) : (State.scratchWrite s core ctx off data poison).dies = s.dies := by
  unfold State.scratchWrite
  repeat' (first | with_reducible rfl | intro _ | with_reducible refine (foldl_dies _ _ _ ?_).trans ?_ | with_reducible refine (State.updCore_dies _ _ _).trans ?_ | dsimp only | split)

theorem State.dropHost_dies (s : State) (a n : Nat) : (State.dropHost s a n).dies = s.dies := by
  unfold State.dropHost
  repeat' (first | with_reducible rfl | intro _ | with_reducible refine (foldl_dies _ _ _ ?_).trans ?_ | with_reducible refine (State.keep_dies _ _ _ _).trans ?_ | dsimp only | split)

theorem State.settleStore_dies (s : State) (core op g : Nat) : (State.settleStore s core op g).dies = s.dies := by
  unfold State.settleStore
  repeat' (first | with_reducible rfl | intro _ | with_reducible refine (foldl_dies _ _ _ ?_).trans ?_ | with_reducible refine (State.updGroup_dies _ _ _).trans ?_ | dsimp only | split)

theorem State.raiseStore_dies (s : State) (core id : Nat) (t : Store) (level : Nat) : (State.raiseStore s core id t level).dies = s.dies := by
  unfold State.raiseStore
  repeat' (first | with_reducible rfl | intro _ | with_reducible refine (foldl_dies _ _ _ ?_).trans ?_ | with_reducible refine (State.settleStore_dies _ _ _ _).trans ?_ | with_reducible refine (State.updCore_dies _ _ _).trans ?_ | dsimp only | split)

theorem State.endStore_dies (s : State) (core id : Nat) (t : Store) : (State.endStore s core id t).dies = s.dies := by
  unfold State.endStore
  repeat' (first | with_reducible rfl | intro _ | with_reducible refine (foldl_dies _ _ _ ?_).trans ?_ | with_reducible refine (State.settleStore_dies _ _ _ _).trans ?_ | with_reducible refine (State.updCore_dies _ _ _).trans ?_ | dsimp only | split)

theorem State.baseChecks_dies (s : State) (act : List Nat) (addr : Nat → Val) (go : State → State) (hgo : ∀ x0, (go x0).dies = x0.dies) : (State.baseChecks s act addr go).dies = s.dies := by
  unfold State.baseChecks
  repeat' (first | with_reducible rfl | intro _ | with_reducible refine (foldl_dies _ _ _ ?_).trans ?_ | with_reducible refine (State.precise_dies _ _ _ _ _ _ _).trans ?_ | with_reducible refine (hgo _).trans ?_ | dsimp only | split)

theorem State.sendAtomic_dies (s : State) (z : AtomicIns) (x : Group) (pas : List (Nat × Nat × Page)) (va : Nat → W64) : (State.sendAtomic s z x pas va).dies = s.dies := by
  unfold State.sendAtomic
  repeat' (first | with_reducible rfl | intro _ | with_reducible refine (foldl_dies _ _ _ ?_).trans ?_ | with_reducible refine (State.mapLanes_dies _ _ _ _).trans ?_ | with_reducible refine (State.sample_dies _ _ _ _).trans ?_ | with_reducible refine (State.updCore_dies _ _ _).trans ?_ | with_reducible refine (State.updGroup_dies _ _ _).trans ?_ | dsimp only | split)

theorem State.updAtomic_dies (s : State) (core id : Nat) (f : Atomic → Atomic) : (State.updAtomic s core id f).dies = s.dies := by
  unfold State.updAtomic
  repeat' (first | with_reducible rfl | intro _ | with_reducible refine (foldl_dies _ _ _ ?_).trans ?_ | with_reducible refine (State.updCore_dies _ _ _).trans ?_ | dsimp only | split)

theorem State.countAtomic_dies (s : State) (a : Atomic) : (State.countAtomic s a).dies = s.dies := by
  unfold State.countAtomic
  repeat' (first | with_reducible rfl | intro _ | with_reducible refine (foldl_dies _ _ _ ?_).trans ?_ | with_reducible refine (State.updGroup_dies _ _ _).trans ?_ | dsimp only | split)

theorem State.endAtomic_dies (s : State) (core id : Nat) : (State.endAtomic s core id).dies = s.dies := by
  unfold State.endAtomic
  repeat' (first | with_reducible rfl | intro _ | with_reducible refine (foldl_dies _ _ _ ?_).trans ?_ | with_reducible refine (State.countAtomic_dies _ _).trans ?_ | with_reducible refine (State.deferred_dies _ _ _ _ _ _ _ _ _).trans ?_ | with_reducible refine (State.updCore_dies _ _ _).trans ?_ | dsimp only | split)

theorem State.unlock_dies (s : State) (g lane uid : Nat) (regs : List Reg) : (State.unlock s g lane uid regs).dies = s.dies := by
  unfold State.unlock
  repeat' (first | with_reducible rfl | intro _ | with_reducible refine (foldl_dies _ _ _ ?_).trans ?_ | with_reducible refine (State.updFibre_dies _ _ _ _).trans ?_ | dsimp only | split)

theorem State.acceptLane_dies (s : State) (core id lane : Nat) (a : Atomic) : (State.acceptLane s core id lane a).dies = s.dies := by
  unfold State.acceptLane
  repeat' (first | with_reducible rfl | intro _ | with_reducible refine (foldl_dies _ _ _ ?_).trans ?_ | with_reducible refine (State.countAtomic_dies _ _).trans ?_ | with_reducible refine (State.updAtomic_dies _ _ _ _).trans ?_ | dsimp only | split)

theorem State.updSlot_dies (s : State) (id : Nat) (f : Slot → Slot) : (State.updSlot s id f).dies = s.dies := by
  unfold State.updSlot
  repeat' (first | with_reducible rfl | intro _ | with_reducible refine (foldl_dies _ _ _ ?_).trans ?_ | dsimp only | split)

theorem State.takeBack_dies (s : State) (new : Nat) : (State.takeBack s new).dies = s.dies := by
  unfold State.takeBack
  repeat' (first | with_reducible rfl | intro _ | with_reducible refine (foldl_dies _ _ _ ?_).trans ?_ | dsimp only | split)

theorem State.arriving_dies (s : State) (bar : Bar) (d : Nat) : (State.arriving s bar d).dies = s.dies := by
  unfold State.arriving
  repeat' (first | with_reducible rfl | intro _ | with_reducible refine (foldl_dies _ _ _ ?_).trans ?_ | with_reducible refine (State.wait_dies _ _ _).trans ?_ | dsimp only | split)

theorem State.releaseCore_dies (s : State) (grid core : Nat) : (State.releaseCore s grid core).dies = s.dies := by
  unfold State.releaseCore
  repeat' (first | with_reducible rfl | intro _ | with_reducible refine (foldl_dies _ _ _ ?_).trans ?_ | with_reducible refine (State.acquireL1_dies _ _ _ _).trans ?_ | with_reducible refine (State.mapLanes_dies _ _ _ _).trans ?_ | with_reducible refine (State.wait_dies _ _ _).trans ?_ | dsimp only | split)

theorem State.lease_dies (s : State) (e : Eff) (d : BitVec 7) (v : Option Nat) : (State.lease s e d v).dies = s.dies := by
  unfold State.lease
  repeat' (first | with_reducible rfl | intro _ | with_reducible refine (foldl_dies _ _ _ ?_).trans ?_ | with_reducible refine (State.complete_dies _ _ _ _).trans ?_ | with_reducible refine (State.setDest_dies _ _ _).trans ?_ | with_reducible refine (State.updGroup_dies _ _ _).trans ?_ | dsimp only | split)

theorem State.readTail_dies (s : State) (vf q : Nat) : (State.readTail s vf q).dies = s.dies := by
  unfold State.readTail
  repeat' (first | with_reducible rfl | intro _ | with_reducible refine (foldl_dies _ _ _ ?_).trans ?_ | with_reducible refine (State.report_dies _ _ _ _ _).trans ?_ | dsimp only | split)

theorem State.released_dies (s : State) (level : Nat) (lanes : List Nat) (go : State → State) (hgo : ∀ x0, (go x0).dies = x0.dies) : (State.released s level lanes go).dies = s.dies := by
  unfold State.released
  repeat' (first | with_reducible rfl | intro _ | with_reducible refine (foldl_dies _ _ _ ?_).trans ?_ | with_reducible refine (State.mapLanes_dies _ _ _ _).trans ?_ | with_reducible refine (State.wait_dies _ _ _).trans ?_ | with_reducible refine (hgo _).trans ?_ | dsimp only | split)

theorem State.newGroup_dies (s : State) (grid : Nat) (team index core track : Nat) : (State.newGroup s grid team index core track).dies = s.dies := by
  unfold State.newGroup
  repeat' (first | with_reducible rfl | intro _ | with_reducible refine (foldl_dies _ _ _ ?_).trans ?_ | with_reducible refine (State.lease_dies _ _ _ _).trans ?_ | with_reducible refine (State.updCore_dies _ _ _).trans ?_ | dsimp only | split)

theorem State.claimRows_dies (s : State) (core track g : Nat) : (State.claimRows s core track g).dies = s.dies := by
  unfold State.claimRows
  repeat' (first | with_reducible rfl | intro _ | with_reducible refine (foldl_dies _ _ _ ?_).trans ?_ | with_reducible refine (State.updGroup_dies _ _ _).trans ?_ | dsimp only | split)

theorem State.recallRows_dies (s : State) (g : Nat) : (State.recallRows s g).dies = s.dies := by
  unfold State.recallRows
  repeat' (first | with_reducible rfl | intro _ | with_reducible refine (foldl_dies _ _ _ ?_).trans ?_ | with_reducible refine (State.claimRows_dies _ _ _ _).trans ?_ | with_reducible refine (State.updGroup_dies _ _ _).trans ?_ | dsimp only | split)

theorem State.removeGroup_dies (s : State) (g : Nat) : (State.removeGroup s g).dies = s.dies := by
  unfold State.removeGroup
  repeat' (first | with_reducible rfl | intro _ | with_reducible refine (foldl_dies _ _ _ ?_).trans ?_ | with_reducible refine (State.keep_dies _ _ _ _).trans ?_ | with_reducible refine (State.updCore_dies _ _ _).trans ?_ | dsimp only | split)

theorem State.sendAcquire_dies (s : State) (x : Group) (dst : Dst) (form : LoadForm) (bytes scope : Nat) (victims : List Nat) (pas : List (Nat × Nat × Page)) (va : Nat → W64) : (State.sendAcquire s x dst form bytes scope victims pas va).dies = s.dies := by
  unfold State.sendAcquire
  repeat' (first | with_reducible rfl | intro _ | with_reducible refine (foldl_dies _ _ _ ?_).trans ?_ | with_reducible refine (State.mapLanes_dies _ _ _ _).trans ?_ | with_reducible refine (State.sample_dies _ _ _ _).trans ?_ | with_reducible refine (State.updCore_dies _ _ _).trans ?_ | with_reducible refine (State.updGroup_dies _ _ _).trans ?_ | dsimp only | split)

theorem State.fence_dies (s : State) (e : Eff) (kind scope : Nat) (range : Fibre → Option (W64 × Nat)) : (State.fence s e kind scope range).dies = s.dies := by
  unfold State.fence
  repeat' (first | with_reducible rfl | intro _ | with_reducible refine (foldl_dies _ _ _ ?_).trans ?_ | with_reducible refine (State.acquireL1_dies _ _ _ _).trans ?_ | with_reducible refine (State.complete_dies _ _ _ _).trans ?_ | with_reducible refine (State.mapLanes_dies _ _ _ _).trans ?_ | with_reducible refine (State.narrow_dies _ _).trans ?_ | with_reducible refine (State.wait_dies _ _ _).trans ?_ | dsimp only | split)

theorem State.controlUnit_dies (s : State) (eng : Nat) (ops : Fibre → List Ctl) (go : State → State) (hgo : ∀ x0, (go x0).dies = x0.dies) : (State.controlUnit s eng ops go).dies = s.dies := by
  unfold State.controlUnit
  repeat' (first | with_reducible rfl | intro _ | with_reducible refine (foldl_dies _ _ _ ?_).trans ?_ | with_reducible refine (State.mapLanes_dies _ _ _ _).trans ?_ | with_reducible refine (State.precise_dies _ _ _ _ _ _ _).trans ?_ | with_reducible refine (State.releaseHolders_dies _ _ _ _ _).trans ?_ | with_reducible refine (State.wait_dies _ _ _).trans ?_ | with_reducible refine (hgo _).trans ?_ | dsimp only | split)

theorem State.copy_dies (s : State) (z : CopyIns) : (State.copy s z).dies = s.dies := by
  unfold State.copy
  repeat' (first | with_reducible rfl | intro _ | with_reducible refine (foldl_dies _ _ _ ?_).trans ?_ | with_reducible refine (State.complete_dies _ _ _ _).trans ?_ | with_reducible refine (State.controlUnit_dies _ _ _ _ ?_).trans ?_ | with_reducible refine (State.plain_dies _ _ _ ?_).trans ?_ | with_reducible refine (State.precise_dies _ _ _ _ _ _ _).trans ?_ | with_reducible refine (State.updCore_dies _ _ _).trans ?_ | with_reducible refine (State.updGroup_dies _ _ _).trans ?_ | dsimp only | split)

theorem State.reportSegs_dies (s : State) (ctx core : Nat) (write : Bool) (l : List Seg) : (State.reportSegs s ctx core write l).dies = s.dies := by
  unfold State.reportSegs
  repeat' (first | with_reducible rfl | intro _ | with_reducible refine (foldl_dies _ _ _ ?_).trans ?_ | with_reducible refine (State.reportReads_dies _ _ _ _).trans ?_ | with_reducible refine (State.reportWrites_dies _ _ _ _).trans ?_ | dsimp only | split)

theorem State.updCopy_dies (s : State) (core id : Nat) (f : Copy → Copy) : (State.updCopy s core id f).dies = s.dies := by
  unfold State.updCopy
  repeat' (first | with_reducible rfl | intro _ | with_reducible refine (foldl_dies _ _ _ ?_).trans ?_ | with_reducible refine (State.updCore_dies _ _ _).trans ?_ | dsimp only | split)

theorem State.setHandle_dies (s : State) (h : Nat) (v : Handle) : (State.setHandle s h v).dies = s.dies := by
  unfold State.setHandle
  repeat' (first | with_reducible rfl | intro _ | with_reducible refine (foldl_dies _ _ _ ?_).trans ?_ | with_reducible refine (State.updGroup_dies _ _ _).trans ?_ | dsimp only | split)

theorem State.handleFault_dies (s : State) (sub : Nat) (c : HandleCheck) : (State.handleFault s sub c).dies = s.dies := by
  unfold State.handleFault
  repeat' (first | with_reducible rfl | intro _ | with_reducible refine (foldl_dies _ _ _ ?_).trans ?_ | with_reducible refine (State.precise_dies _ _ _ _ _ _ _).trans ?_ | dsimp only | split)

theorem State.checkHandles_dies (s : State) (checks : List HandleCheck) (go : State → State) (hgo : ∀ x0, (go x0).dies = x0.dies) : (State.checkHandles s checks go).dies = s.dies := by
  unfold State.checkHandles
  repeat' (first | with_reducible rfl | intro _ | with_reducible refine (foldl_dies _ _ _ ?_).trans ?_ | with_reducible refine (State.handleFault_dies _ _ _).trans ?_ | with_reducible refine (hgo _).trans ?_ | dsimp only | split)

theorem State.sendTile_dies (s : State) (e : Eff) (o : TileOp) (fresh : Option (Bool × Nat)) (written : Fibre → List Reg) : (State.sendTile s e o fresh written).dies = s.dies := by
  unfold State.sendTile
  repeat' (first | with_reducible rfl | intro _ | with_reducible refine (foldl_dies _ _ _ ?_).trans ?_ | with_reducible refine (State.complete_dies _ _ _ _).trans ?_ | with_reducible refine (State.setHandle_dies _ _ _).trans ?_ | with_reducible refine (State.updCore_dies _ _ _).trans ?_ | with_reducible refine (State.updGroup_dies _ _ _).trans ?_ | with_reducible refine (State.wait_dies _ _ _).trans ?_ | dsimp only | split)

theorem State.tileBase_dies (s : State) (b : BitVec 7) (off : W64) (rowBytes : Nat) (write : Bool) (go : W64 → W64 → State → State) (hgo : ∀ x0 x1 x2, (go x0 x1 x2).dies = x2.dies) : (State.tileBase s b off rowBytes write go).dies = s.dies := by
  unfold State.tileBase
  repeat' (first | with_reducible rfl | intro _ | with_reducible refine (foldl_dies _ _ _ ?_).trans ?_ | with_reducible refine (State.precise_dies _ _ _ _ _ _ _).trans ?_ | with_reducible refine (hgo _ _ _).trans ?_ | dsimp only | split)

theorem State.scratchBase_dies (s : State) (b : BitVec 7) (off : W64) (tag : Option Nat) (transposed write : Bool) (go : W64 → State → State) (hgo : ∀ x0 x1, (go x0 x1).dies = x1.dies) : (State.scratchBase s b off tag transposed write go).dies = s.dies := by
  unfold State.scratchBase
  repeat' (first | with_reducible rfl | intro _ | with_reducible refine (foldl_dies _ _ _ ?_).trans ?_ | with_reducible refine (State.precise_dies _ _ _ _ _ _ _).trans ?_ | with_reducible refine (hgo _ _).trans ?_ | dsimp only | split)

theorem State.sendQuarter_dies (s : State) (z : MatrixIns) (old : Group) (id n : Nat) : (State.sendQuarter s z old id n).dies = s.dies := by
  unfold State.sendQuarter
  repeat' (first | with_reducible rfl | intro _ | with_reducible refine (foldl_dies _ _ _ ?_).trans ?_ | with_reducible refine (State.setHandle_dies _ _ _).trans ?_ | with_reducible refine (State.updCore_dies _ _ _).trans ?_ | dsimp only | split)

theorem State.matrix_dies (s : State) (z : MatrixIns) : (State.matrix s z).dies = s.dies := by
  unfold State.matrix
  repeat' (first | with_reducible rfl | intro _ | with_reducible refine (foldl_dies _ _ _ ?_).trans ?_ | with_reducible refine (State.checkHandles_dies _ _ _ ?_).trans ?_ | with_reducible refine (State.complete_dies _ _ _ _).trans ?_ | with_reducible refine (State.plain_dies _ _ _ ?_).trans ?_ | with_reducible refine (State.sendQuarter_dies _ _ _ _ _).trans ?_ | with_reducible refine (State.updCore_dies _ _ _).trans ?_ | with_reducible refine (State.updGroup_dies _ _ _).trans ?_ | with_reducible refine (State.wait_dies _ _ _).trans ?_ | dsimp only | split)

theorem State.warnGroup_dies (s : State) (g : Nat) (w : W32) : (State.warnGroup s g w).dies = s.dies := by
  unfold State.warnGroup
  repeat' (first | with_reducible rfl | intro _ | with_reducible refine (foldl_dies _ _ _ ?_).trans ?_ | with_reducible refine (State.updGroup_dies _ _ _).trans ?_ | with_reducible refine (State.warn_dies _ _).trans ?_ | dsimp only | split)

theorem State.recallTile_dies (s : State) (core ctx : Nat) (offs : List Nat) : (State.recallTile s core ctx offs).dies = s.dies := by
  unfold State.recallTile
  repeat' (first | with_reducible rfl | intro _ | with_reducible refine (foldl_dies _ _ _ ?_).trans ?_ | with_reducible refine (State.recallScratch_dies _ _ _ _ _).trans ?_ | dsimp only | split)

theorem State.updQuarter_dies (s : State) (core id n : Nat) (f : Quarter → Quarter) : (State.updQuarter s core id n f).dies = s.dies := by
  unfold State.updQuarter
  repeat' (first | with_reducible rfl | intro _ | with_reducible refine (foldl_dies _ _ _ ?_).trans ?_ | with_reducible refine (State.updCore_dies _ _ _).trans ?_ | dsimp only | split)

theorem State.thaw_dies (s : State) (ctx id n : Nat) : (State.thaw s ctx id n).dies = s.dies := by
  unfold State.thaw
  repeat' (first | with_reducible rfl | intro _ | with_reducible refine (foldl_dies _ _ _ ?_).trans ?_ | dsimp only | split)

theorem State.flipCopies_dies (s : State) (ctx : Nat) (va : W64) (len : Nat) (on : Bool) : (State.flipCopies s ctx va len on).dies = s.dies := by
  unfold State.flipCopies
  repeat' (first | with_reducible rfl | intro _ | with_reducible refine (foldl_dies _ _ _ ?_).trans ?_ | dsimp only | split)

theorem State.answerHost_dies (s : State) (a n : Nat) : (State.answerHost s a n).dies = s.dies := by
  unfold State.answerHost
  repeat' (first | with_reducible rfl | intro _ | with_reducible refine (foldl_dies _ _ _ ?_).trans ?_ | dsimp only | split)

theorem State.reportLine_dies (s : State) (type la : Nat) : (State.reportLine s type la).dies = s.dies := by
  unfold State.reportLine
  repeat' (first | with_reducible rfl | intro _ | with_reducible refine (foldl_dies _ _ _ ?_).trans ?_ | with_reducible refine (State.report_dies _ _ _ _ _).trans ?_ | with_reducible refine (State.reportSupervisor_dies _ _ _ _ _ _).trans ?_ | dsimp only | split)

theorem State.loseLine_dies (s : State) (la : Nat) : (State.loseLine s la).dies = s.dies := by
  unfold State.loseLine
  repeat' (first | with_reducible rfl | intro _ | with_reducible refine (foldl_dies _ _ _ ?_).trans ?_ | with_reducible refine (State.writeLine_dies _ _ _ _).trans ?_ | dsimp only | split)

theorem State.fabric_dies (s : State) (z : FabricIns) (go : Eff → State → State) (hgo : ∀ x0 x1, (go x0 x1).dies = x1.dies) : (State.fabric s z go).dies = s.dies := by
  unfold State.fabric
  repeat' (first | with_reducible rfl | intro _ | with_reducible refine (foldl_dies _ _ _ ?_).trans ?_ | with_reducible refine (State.controlUnit_dies _ _ _ _ ?_).trans ?_ | with_reducible refine (State.plain_dies _ _ _ ?_).trans ?_ | with_reducible refine (State.precise_dies _ _ _ _ _ _ _).trans ?_ | with_reducible refine (hgo _ _).trans ?_ | dsimp only | split)

theorem State.updCall_dies (s : State) (id : Nat) (f : Call → Call) : (State.updCall s id f).dies = s.dies := by
  unfold State.updCall
  repeat' (first | with_reducible rfl | intro _ | with_reducible refine (foldl_dies _ _ _ ?_).trans ?_ | dsimp only | split)

theorem State.sendPut_dies (s : State) (id : Nat) (c : Call) (m : Comm) : (State.sendPut s id c m).dies = s.dies := by
  unfold State.sendPut
  repeat' (first | with_reducible rfl | intro _ | with_reducible refine (foldl_dies _ _ _ ?_).trans ?_ | with_reducible refine (State.updCall_dies _ _ _).trans ?_ | dsimp only | split)

theorem State.joinCall_dies (s : State) (id : Nat) (c : Call) (m : Comm) (others : List (Nat × List Byte)) : (State.joinCall s id c m others).dies = s.dies := by
  unfold State.joinCall
  repeat' (first | with_reducible rfl | intro _ | with_reducible refine (foldl_dies _ _ _ ?_).trans ?_ | with_reducible refine (State.updCall_dies _ _ _).trans ?_ | dsimp only | split)

theorem State.sending_dies (s : State) (target : Nat) (go : State → State) (hgo : ∀ x0, (go x0).dies = x0.dies) : (State.sending s target go).dies = s.dies := by
  unfold State.sending
  repeat' (first | with_reducible rfl | intro _ | with_reducible refine (foldl_dies _ _ _ ?_).trans ?_ | with_reducible refine (State.dropRequests_dies _ _ _).trans ?_ | with_reducible refine (State.send_dies _ _ _ _ _ _ ?_).trans ?_ | with_reducible refine (State.wait_dies _ _ _).trans ?_ | with_reducible refine (hgo _).trans ?_ | dsimp only | split)

theorem State.csig_dies (s : State) (i : Instr) (m : Mods) (d a b : BitVec 7) (add : Bool) : (State.csig s i m d a b add).dies = s.dies := by
  unfold State.csig
  repeat' (first | with_reducible rfl | intro _ | with_reducible refine (foldl_dies _ _ _ ?_).trans ?_ | with_reducible refine (State.complete_dies _ _ _ _).trans ?_ | with_reducible refine (State.fabric_dies _ _ _ ?_).trans ?_ | with_reducible refine (State.sending_dies _ _ _ ?_).trans ?_ | dsimp only | split)

theorem State.answer_dies (s : State) (g : Nat) (dst : List (Nat × Nat × Reg)) (v : Nat) : (State.answer s g dst v).dies = s.dies := by
  unfold State.answer
  repeat' (first | with_reducible rfl | intro _ | with_reducible refine (foldl_dies _ _ _ ?_).trans ?_ | with_reducible refine (State.landReg_dies _ _ _ _ _ _ _).trans ?_ | with_reducible refine (State.settleGm_dies _ _).trans ?_ | dsimp only | split)

theorem State.endWait_dies (s : State) (g lane core : Nat) (b : Fibre) (d words v : Nat) (last : List Reg) : (State.endWait s g lane core b d words v last).dies = s.dies := by
  unfold State.endWait
  repeat' (first | with_reducible rfl | intro _ | with_reducible refine (foldl_dies _ _ _ ?_).trans ?_ | with_reducible refine (State.acquireL1_dies _ _ _ _).trans ?_ | with_reducible refine (State.releaseHolders_dies _ _ _ _ _).trans ?_ | with_reducible refine (State.settleGm_dies _ _).trans ?_ | with_reducible refine (State.updFibre_dies _ _ _ _).trans ?_ | with_reducible refine (State.wait_dies _ _ _).trans ?_ | dsimp only | split)

theorem State.unasked_dies (s : State) (g lane : Nat) : (State.unasked s g lane).dies = s.dies := by
  unfold State.unasked
  repeat' (first | with_reducible rfl | intro _ | with_reducible refine (foldl_dies _ _ _ ?_).trans ?_ | with_reducible refine (State.updGroup_dies _ _ _).trans ?_ | dsimp only | split)

theorem State.finishStep_dies (s : State) (p : Pending) : (State.finishStep s p).dies = s.dies := by
  unfold State.finishStep
  repeat' (first | with_reducible rfl | intro _ | with_reducible refine (foldl_dies _ _ _ ?_).trans ?_ | with_reducible refine (State.answer_dies _ _ _ _).trans ?_ | dsimp only | split)

theorem State.applyStep_dies (s : State) (core track grid : Nat) : (State.applyStep s core track grid).dies = s.dies := by
  unfold State.applyStep
  repeat' (first | with_reducible rfl | intro _ | with_reducible refine (foldl_dies _ _ _ ?_).trans ?_ | with_reducible refine (State.finishStep_dies _ _).trans ?_ | with_reducible refine (State.updCore_dies _ _ _).trans ?_ | with_reducible refine (State.updGrid_dies _ _ _).trans ?_ | dsimp only | split)

theorem State.reply_dies (s : State) (endpoint id status : Nat) : (State.reply s endpoint id status).dies = s.dies := by
  unfold State.reply
  repeat' (first | with_reducible rfl | intro _ | with_reducible refine (foldl_dies _ _ _ ?_).trans ?_ | dsimp only | split)

theorem State.refuseMessage_dies (s : State) (vf endpoint id : Nat) : (State.refuseMessage s vf endpoint id).dies = s.dies := by
  unfold State.refuseMessage
  repeat' (first | with_reducible rfl | intro _ | with_reducible refine (foldl_dies _ _ _ ?_).trans ?_ | with_reducible refine (State.reply_dies _ _ _ _).trans ?_ | with_reducible refine (State.report_dies _ _ _ _ _).trans ?_ | with_reducible refine (State.reportSupervisor_dies _ _ _ _ _ _).trans ?_ | dsimp only | split)

theorem State.answerTo_dies (s : State) (endpoint id : Nat) (error : Bool) : (State.answerTo s endpoint id error).dies = s.dies := by
  unfold State.answerTo
  repeat' (first | with_reducible rfl | intro _ | with_reducible refine (foldl_dies _ _ _ ?_).trans ?_ | with_reducible refine (State.answer_dies _ _ _ _).trans ?_ | dsimp only | split)

theorem State.reportSparing_dies (s : State) (what : Nat) (addr : W64) (place : Nat) : (State.reportSparing s what addr place).dies = s.dies := by
  unfold State.reportSparing
  repeat' (first | with_reducible rfl | intro _ | with_reducible refine (foldl_dies _ _ _ ?_).trans ?_ | with_reducible refine (State.reportSupervisor_dies _ _ _ _ _ _).trans ?_ | dsimp only | split)

theorem State.updRequest_dies (s : State) (core id lane : Nat) (f : Option Nat → Option Nat) (n : Nat) : (State.updRequest s core id lane f n).dies = s.dies := by
  unfold State.updRequest
  repeat' (first | with_reducible rfl | intro _ | with_reducible refine (foldl_dies _ _ _ ?_).trans ?_ | with_reducible refine (State.updCall_dies _ _ _).trans ?_ | with_reducible refine (State.updCore_dies _ _ _).trans ?_ | with_reducible refine (State.updGroup_dies _ _ _).trans ?_ | dsimp only | split)

theorem State.noteSent_dies (s : State) : (State.noteSent s).dies = s.dies := by
  unfold State.noteSent
  repeat' (first | with_reducible rfl | intro _ | with_reducible refine (foldl_dies _ _ _ ?_).trans ?_ | with_reducible refine (State.updRequest_dies _ _ _ _ _ _).trans ?_ | dsimp only | split)

theorem State.failReading_dies (s : State) (g : Nat) (x : Group) (lane sub port : Nat) (r : Reading) : (State.failReading s g x lane sub port r).dies = s.dies := by
  unfold State.failReading
  repeat' (first | with_reducible rfl | intro _ | with_reducible refine (foldl_dies _ _ _ ?_).trans ?_ | with_reducible refine (State.deferred_dies _ _ _ _ _ _ _ _ _).trans ?_ | with_reducible refine (State.keep_dies _ _ _ _).trans ?_ | with_reducible refine (State.port_dies _ _ _ _ _).trans ?_ | with_reducible refine (State.precise_dies _ _ _ _ _ _ _).trans ?_ | with_reducible refine (State.updGroup_dies _ _ _).trans ?_ | with_reducible refine (State.wait_dies _ _ _).trans ?_ | dsimp only | split)

theorem State.haltDead_dies (s : State) (ctx : Nat) : (State.haltDead s ctx).dies = s.dies := by
  unfold State.haltDead
  repeat' (first | with_reducible rfl | intro _ | with_reducible refine (foldl_dies _ _ _ ?_).trans ?_ | with_reducible refine (State.raiseHalt_dies _ _ _ _ _ _ _ _).trans ?_ | with_reducible refine (State.updHalt_dies _ _ _).trans ?_ | dsimp only | split)

theorem State.updVf_dies (s : State) (vf : Nat) (f : Vf → Vf) : (State.updVf s vf f).dies = s.dies := by
  unfold State.updVf
  repeat' (first | with_reducible rfl | intro _ | with_reducible refine (foldl_dies _ _ _ ?_).trans ?_ | dsimp only | split)

theorem State.refillPort_dies (s : State) (core boundary : Nat) : (State.refillPort s core boundary).dies = s.dies := by
  unfold State.refillPort
  repeat' (first | with_reducible rfl | intro _ | with_reducible refine (foldl_dies _ _ _ ?_).trans ?_ | with_reducible refine (State.keep_dies _ _ _ _).trans ?_ | with_reducible refine (State.updCore_dies _ _ _).trans ?_ | dsimp only | split)

theorem State.refillAt_dies (s : State) (boundary core : Nat) : (State.refillAt s boundary core).dies = s.dies := by
  unfold State.refillAt
  repeat' (first | with_reducible rfl | intro _ | with_reducible refine (foldl_dies _ _ _ ?_).trans ?_ | with_reducible refine (State.refillPort_dies _ _ _).trans ?_ | dsimp only | split)

theorem State.refillDue_dies (s : State) (n : Nat) : (State.refillDue s n).dies = s.dies := by
  unfold State.refillDue
  repeat' (first | with_reducible rfl | intro _ | with_reducible refine (foldl_dies _ _ _ ?_).trans ?_ | with_reducible refine (State.refillAt_dies _ _ _).trans ?_ | dsimp only | split)

theorem State.updPkg_dies (s : State) (f : Package → Package) : (State.updPkg s f).dies = s.dies := by
  unfold State.updPkg
  repeat' (first | with_reducible rfl | intro _ | with_reducible refine (foldl_dies _ _ _ ?_).trans ?_ | dsimp only | split)

theorem State.mapTracks_dies (s : State) (cores : List Nat) (f : Track → Track) : (State.mapTracks s cores f).dies = s.dies := by
  unfold State.mapTracks
  repeat' (first | with_reducible rfl | intro _ | with_reducible refine (foldl_dies _ _ _ ?_).trans ?_ | with_reducible refine (State.updCore_dies _ _ _).trans ?_ | dsimp only | split)

theorem State.noteNoise_dies (s : State) (die : Nat) (cores : List (Nat × Nat)) : (State.noteNoise s die cores).dies = s.dies := by
  unfold State.noteNoise
  repeat' (first | with_reducible rfl | intro _ | with_reducible refine (foldl_dies _ _ _ ?_).trans ?_ | with_reducible refine (State.updCore_dies _ _ _).trans ?_ | dsimp only | split)

theorem State.releaseJunctions_dies (s : State) (g : Nat) : (State.releaseJunctions s g).dies = s.dies := by
  unfold State.releaseJunctions
  repeat' (first | with_reducible rfl | intro _ | with_reducible refine (foldl_dies _ _ _ ?_).trans ?_ | with_reducible refine (State.releaseJunction_dies _ _ _).trans ?_ | dsimp only | split)

theorem State.countPort_dies (s : State) (g : Nat) (w : W32) (lanes : Nat) : (State.countPort s g w lanes).dies = s.dies := by
  unfold State.countPort
  repeat' (first | with_reducible rfl | intro _ | with_reducible refine (foldl_dies _ _ _ ?_).trans ?_ | with_reducible refine (State.port_dies _ _ _ _ _).trans ?_ | with_reducible refine (State.updCore_dies _ _ _).trans ?_ | dsimp only | split)

theorem State.illegal_dies (s : State) (r : Reject) (words : List W32) : (State.illegal s r words).dies = s.dies := by
  unfold State.illegal
  repeat' (first | with_reducible rfl | intro _ | with_reducible refine (foldl_dies _ _ _ ?_).trans ?_ | with_reducible refine (State.precise_dies _ _ _ _ _ _ _).trans ?_ | dsimp only | split)

theorem State.releaseCounters_dies (s : State) (g : Nat) : (State.releaseCounters s g).dies = s.dies := by
  unfold State.releaseCounters
  repeat' (first | with_reducible rfl | intro _ | with_reducible refine (foldl_dies _ _ _ ?_).trans ?_ | with_reducible refine (State.updGroup_dies _ _ _).trans ?_ | dsimp only | split)

theorem State.moveGroup_dies (s : State) (g : Nat) (set : GSet) : (State.moveGroup s g set).dies = s.dies := by
  unfold State.moveGroup
  repeat' (first | with_reducible rfl | intro _ | with_reducible refine (foldl_dies _ _ _ ?_).trans ?_ | with_reducible refine (State.updGroup_dies _ _ _).trans ?_ | dsimp only | split)

theorem scalar_dies (i : Instr) (dst : Dst) (a b : Src) (q : Option Nat) (op : Env → Out) (s : State) : (scalar i dst a b q op s).dies = s.dies := by
  unfold scalar
  repeat' (first | with_reducible rfl | intro _ | with_reducible refine (foldl_dies _ _ _ ?_).trans ?_ | with_reducible refine (State.alu_dies _ _).trans ?_ | dsimp only | split)

theorem scalar2_dies (i : Instr) (m : Mods) (t : BitVec 2) (d a b : BitVec 7) (op : Bool → Int → Int → Nat) (s : State) : (scalar2 i m t d a b op s).dies = s.dies := by
  unfold scalar2
  repeat' (first | with_reducible rfl | intro _ | with_reducible refine (foldl_dies _ _ _ ?_).trans ?_ | with_reducible refine (scalar_dies _ _ _ _ _ _ _).trans ?_ | dsimp only | split)

theorem scalarBits_dies (i : Instr) (m : Mods) (d a b : BitVec 7) (op : Nat → Nat → Nat) (s : State) : (scalarBits i m d a b op s).dies = s.dies := by
  unfold scalarBits
  repeat' (first | with_reducible rfl | intro _ | with_reducible refine (foldl_dies _ _ _ ?_).trans ?_ | with_reducible refine (scalar_dies _ _ _ _ _ _ _).trans ?_ | dsimp only | split)

theorem scalarShift_dies (i : Instr) (m : Mods) (kty : Nat) (d a b : BitVec 7) (op : Int → Nat → Int) (s : State) : (scalarShift i m kty d a b op s).dies = s.dies := by
  unfold scalarShift
  repeat' (first | with_reducible rfl | intro _ | with_reducible refine (foldl_dies _ _ _ ?_).trans ?_ | with_reducible refine (scalar_dies _ _ _ _ _ _ _).trans ?_ | dsimp only | split)

theorem vec_dies (i : Instr) (dst : Dst) (a b c : Src) (q : Option Nat) (op : Env → Out) (s : State) : (vec i dst a b c q op s).dies = s.dies := by
  unfold vec
  repeat' (first | with_reducible rfl | intro _ | with_reducible refine (foldl_dies _ _ _ ?_).trans ?_ | with_reducible refine (State.alu_dies _ _).trans ?_ | dsimp only | split)

theorem vec2_dies (i : Instr) (m : Mods) (t : BitVec 3) (d a b : BitVec 7) (op : Bool → Int → Int → Int) (s : State) : (vec2 i m t d a b op s).dies = s.dies := by
  unfold vec2
  repeat' (first | with_reducible rfl | intro _ | with_reducible refine (foldl_dies _ _ _ ?_).trans ?_ | with_reducible refine (vec_dies _ _ _ _ _ _ _ _).trans ?_ | dsimp only | split)

theorem vec1_dies (i : Instr) (t : BitVec 3) (d a : BitVec 7) (op : Int → Int) (s : State) : (vec1 i t d a op s).dies = s.dies := by
  unfold vec1
  repeat' (first | with_reducible rfl | intro _ | with_reducible refine (foldl_dies _ _ _ ?_).trans ?_ | with_reducible refine (vec_dies _ _ _ _ _ _ _ _).trans ?_ | dsimp only | split)

theorem vecBits_dies (i : Instr) (m : Mods) (t : BitVec 3) (d a b : BitVec 7) (op : Nat → Nat → Nat) (s : State) : (vecBits i m t d a b op s).dies = s.dies := by
  unfold vecBits
  repeat' (first | with_reducible rfl | intro _ | with_reducible refine (foldl_dies _ _ _ ?_).trans ?_ | with_reducible refine (vec_dies _ _ _ _ _ _ _ _).trans ?_ | dsimp only | split)

theorem vecShift_dies (i : Instr) (m : Mods) (t : BitVec 3) (d a b : BitVec 7) (op : Nat → Nat → Int) (s : State) : (vecShift i m t d a b op s).dies = s.dies := by
  unfold vecShift
  repeat' (first | with_reducible rfl | intro _ | with_reducible refine (foldl_dies _ _ _ ?_).trans ?_ | with_reducible refine (vec_dies _ _ _ _ _ _ _ _).trans ?_ | dsimp only | split)

theorem vecCount_dies (i : Instr) (t : BitVec 3) (d a : BitVec 7) (op : Nat → Nat → Nat) (s : State) : (vecCount i t d a op s).dies = s.dies := by
  unfold vecCount
  repeat' (first | with_reducible rfl | intro _ | with_reducible refine (foldl_dies _ _ _ ?_).trans ?_ | with_reducible refine (vec_dies _ _ _ _ _ _ _ _).trans ?_ | dsimp only | split)

theorem vecCmp_dies (i : Instr) (m : Mods) (t : BitVec 3) (d a b : BitVec 7) (op : Int → Int → Bool) (s : State) : (vecCmp i m t d a b op s).dies = s.dies := by
  unfold vecCmp
  repeat' (first | with_reducible rfl | intro _ | with_reducible refine (foldl_dies _ _ _ ?_).trans ?_ | with_reducible refine (vec_dies _ _ _ _ _ _ _ _).trans ?_ | dsimp only | split)

theorem pred_dies (i : Instr) (d a b : BitVec 7) (op : Nat → Nat → Nat) (s : State) : (pred i d a b op s).dies = s.dies := by
  unfold pred
  repeat' (first | with_reducible rfl | intro _ | with_reducible refine (foldl_dies _ _ _ ?_).trans ?_ | with_reducible refine (vec_dies _ _ _ _ _ _ _ _).trans ?_ | dsimp only | split)

theorem flt_dies (i : Instr) (dst : Dst) (a b c : Src) (warn : W32) (op : Env → Out) (s : State) : (flt i dst a b c warn op s).dies = s.dies := by
  unfold flt
  repeat' (first | with_reducible rfl | intro _ | with_reducible refine (foldl_dies _ _ _ ?_).trans ?_ | with_reducible refine (State.alu_dies _ _).trans ?_ | with_reducible refine (State.warn_dies _ _).trans ?_ | dsimp only | split)

theorem flt2_dies (i : Instr) (m : Mods) (t : BitVec 2) (d a b : BitVec 7) (op : Env → Num → Num → Nat × Nat) (s : State) : (flt2 i m t d a b op s).dies = s.dies := by
  unfold flt2
  repeat' (first | with_reducible rfl | intro _ | with_reducible refine (foldl_dies _ _ _ ?_).trans ?_ | with_reducible refine (flt_dies _ _ _ _ _ _ _ _).trans ?_ | dsimp only | split)

theorem fltBits_dies (i : Instr) (m : Mods) (t : BitVec 2) (d a b : BitVec 7) (op : Nat → Nat → Nat × Nat) (s : State) : (fltBits i m t d a b op s).dies = s.dies := by
  unfold fltBits
  repeat' (first | with_reducible rfl | intro _ | with_reducible refine (foldl_dies _ _ _ ?_).trans ?_ | with_reducible refine (flt_dies _ _ _ _ _ _ _ _).trans ?_ | dsimp only | split)

theorem fltCmp_dies (i : Instr) (m : Mods) (t : BitVec 2) (d a b : BitVec 7) (c : Nat) (s : State) : (fltCmp i m t d a b c s).dies = s.dies := by
  unfold fltCmp
  repeat' (first | with_reducible rfl | intro _ | with_reducible refine (foldl_dies _ _ _ ?_).trans ?_ | with_reducible refine (flt_dies _ _ _ _ _ _ _ _).trans ?_ | dsimp only | split)

theorem packed_dies (i : Instr) (m : Mods) (f : BitVec 1) (d a b : BitVec 7) (c : Src) (srcs : Env → List Val) (op : Env → Bool → Nat × Nat) (s : State) : (packed i m f d a b c srcs op s).dies = s.dies := by
  unfold packed
  repeat' (first | with_reducible rfl | intro _ | with_reducible refine (foldl_dies _ _ _ ?_).trans ?_ | with_reducible refine (flt_dies _ _ _ _ _ _ _ _).trans ?_ | dsimp only | split)

theorem cross_dies (i : Instr) (dst : Dst) (a b : Src) (fp : Bool) (srcs : Env → List Val) (op : List Env → Env → Nat × Nat) (s : State) : (cross i dst a b fp srcs op s).dies = s.dies := by
  unfold cross
  repeat' (first | with_reducible rfl | intro _ | with_reducible refine (foldl_dies _ _ _ ?_).trans ?_ | with_reducible refine (State.alu_dies _ _).trans ?_ | dsimp only | split)

theorem sfu_dies (i : Instr) (k : Special) (t : BitVec 2) (d a : BitVec 7) (s : State) : (sfu i k t d a s).dies = s.dies := by
  unfold sfu
  repeat' (first | with_reducible rfl | intro _ | with_reducible refine (foldl_dies _ _ _ ?_).trans ?_ | with_reducible refine (State.alu_dies _ _).trans ?_ | dsimp only | split)

end Sys2Proof.Machine
end

