-- ==== Sys2Proof/Laws/KeepLanes.lean ====
section
/-! SUPPORT. The operations that leave the live lanes of every group as they were, one lemma for each. -/

set_option linter.all false

namespace Sys2Proof.Machine

/-- The live lanes of a group, in a map of groups. -/
def lanesIn (m : Map Group) (g : Nat) : List Nat := (m.get g Group.none).fibres.keys

theorem lanesIn_adjust (m : Map Group) (g g0 : Nat) (f : Group → Group) (h : ∀ x, (f x).fibres.keys = x.fibres.keys) : lanesIn (m.adjust g f) g0 = lanesIn m g0 := by
  unfold lanesIn
  by_cases e : g0 = g
  · subst e
    simp only [Map.get, Map.find?_adjust_self]
    cases m.find? g0 <;> simp [h]
  · rw [Map.get_adjust_ne m _ _ e]

theorem lanesIn_mapVals (m : Map Group) (g0 : Nat) (f : Nat → Group → Group) (h : ∀ g x, (f g x).fibres.keys = x.fibres.keys) : lanesIn (m.mapVals f) g0 = lanesIn m g0 := by
  unfold lanesIn
  simp only [Map.get, Map.find?_mapVals]
  cases m.find? g0 <;> simp [h]

theorem foldl_lanesIn {α : Type} (f : State → α → State) (l : List α) (s : State) (g0 : Nat) (h : ∀ t a, lanesIn (f t a).groups g0 = lanesIn t.groups g0) : lanesIn (l.foldl f s).groups g0 = lanesIn s.groups g0 := by
  induction l generalizing s with
  | nil => rfl
  | cons a l ih => exact (ih _).trans (h _ _)

theorem State.reportSupervisor_lanesIn (s : State) (type vf sev : Nat) (addr : W64) (place : W32) (g0 : Nat) : lanesIn (State.reportSupervisor s type vf sev addr place).groups g0 = lanesIn s.groups g0 := congrArg (fun m => lanesIn m g0) (State.reportSupervisor_groups s type vf sev addr place)

theorem State.updCore_lanesIn (s : State) (c : Nat) (f : Core → Core) (g0 : Nat) : lanesIn (State.updCore s c f).groups g0 = lanesIn s.groups g0 := congrArg (fun m => lanesIn m g0) (State.updCore_groups s c f)

theorem State.updDie_lanesIn (s : State) (d : Nat) (f : Die → Die) (g0 : Nat) : lanesIn (State.updDie s d f).groups g0 = lanesIn s.groups g0 := congrArg (fun m => lanesIn m g0) (State.updDie_groups s d f)

theorem State.countPacket_lanesIn (s : State) (la : Nat) (conf : Bool) (g0 : Nat) : lanesIn (State.countPacket s la conf).groups g0 = lanesIn s.groups g0 := congrArg (fun m => lanesIn m g0) (State.countPacket_groups s la conf)

theorem State.writeLine_lanesIn (s : State) (la : Nat) (data : List Byte) (poison : Bool) (g0 : Nat) : lanesIn (State.writeLine s la data poison).groups g0 = lanesIn s.groups g0 := congrArg (fun m => lanesIn m g0) (State.writeLine_groups s la data poison)

theorem State.reportDies_lanesIn (s : State) (la : Nat) (dies : List Nat) (g0 : Nat) : lanesIn (State.reportDies s la dies).groups g0 = lanesIn s.groups g0 := congrArg (fun m => lanesIn m g0) (State.reportDies_groups s la dies)

theorem State.noteLlc_lanesIn (s : State) (la : Nat) (g0 : Nat) : lanesIn (State.noteLlc s la).groups g0 = lanesIn s.groups g0 := congrArg (fun m => lanesIn m g0) (State.noteLlc_groups s la)

theorem State.cleanLine_lanesIn (s : State) (d la : Nat) (g0 : Nat) : lanesIn (State.cleanLine s d la).groups g0 = lanesIn s.groups g0 := congrArg (fun m => lanesIn m g0) (State.cleanLine_groups s d la)

theorem State.giveBack_lanesIn (s : State) (d la : Nat) (g0 : Nat) : lanesIn (State.giveBack s d la).groups g0 = lanesIn s.groups g0 := congrArg (fun m => lanesIn m g0) (State.giveBack_groups s d la)

theorem State.l2Room_lanesIn (s : State) (d la : Nat) (g0 : Nat) : lanesIn (State.l2Room s d la).groups g0 = lanesIn s.groups g0 := congrArg (fun m => lanesIn m g0) (State.l2Room_groups s d la)

theorem State.l2Fetch_lanesIn (s : State) (d la pol : Nat) (conf : Bool) (g0 : Nat) : lanesIn (State.l2Fetch s d la pol conf).groups g0 = lanesIn s.groups g0 := congrArg (fun m => lanesIn m g0) (State.l2Fetch_groups s d la pol conf)

theorem State.readLine_lanesIn (s : State) (d la pol : Nat) (alloc conf : Bool) (g0 : Nat) : lanesIn (State.readLine s d la pol alloc conf).groups g0 = lanesIn s.groups g0 := congrArg (fun m => lanesIn m g0) (State.readLine_groups s d la pol alloc conf)

theorem State.cleanAll_lanesIn (s : State) (la : Nat) (g0 : Nat) : lanesIn (State.cleanAll s la).groups g0 = lanesIn s.groups g0 := congrArg (fun m => lanesIn m g0) (State.cleanAll_groups s la)

theorem State.invalidateL1s_lanesIn (s : State) (d la except : Nat) (g0 : Nat) : lanesIn (State.invalidateL1s s d la except).groups g0 = lanesIn s.groups g0 := congrArg (fun m => lanesIn m g0) (State.invalidateL1s_groups s d la except)

theorem State.homeWrite_lanesIn (s : State) (a : Nat) (data : List Byte) (poison conf : Bool) (g0 : Nat) : lanesIn (State.homeWrite s a data poison conf).groups g0 = lanesIn s.groups g0 := congrArg (fun m => lanesIn m g0) (State.homeWrite_groups s a data poison conf)

theorem State.refreshCopies_lanesIn (s : State) (la : Nat) (g0 : Nat) : lanesIn (State.refreshCopies s la).groups g0 = lanesIn s.groups g0 := congrArg (fun m => lanesIn m g0) (State.refreshCopies_groups s la)

theorem State.l2WriteLine_lanesIn (s : State) (d core la off : Nat) (data : List Byte) (poison : Bool) (pol : Nat) (alloc conf : Bool) (g0 : Nat) : lanesIn (State.l2WriteLine s d core la off data poison pol alloc conf).groups g0 = lanesIn s.groups g0 := congrArg (fun m => lanesIn m g0) (State.l2WriteLine_groups s d core la off data poison pol alloc conf)

theorem State.dropCopies_lanesIn (s : State) (d la : Nat) (g0 : Nat) : lanesIn (State.dropCopies s d la).groups g0 = lanesIn s.groups g0 := congrArg (fun m => lanesIn m g0) (State.dropCopies_groups s d la)

theorem State.sysWrite_lanesIn (s : State) (a : Nat) (data : List Byte) (poison : Bool) (g0 : Nat) : lanesIn (State.sysWrite s a data poison).groups g0 = lanesIn s.groups g0 := congrArg (fun m => lanesIn m g0) (State.sysWrite_groups s a data poison)

theorem State.fillTlb_lanesIn (s : State) (ctx core : Nat) (va : W64) (g0 : Nat) : lanesIn (State.fillTlb s ctx core va).groups g0 = lanesIn s.groups g0 := congrArg (fun m => lanesIn m g0) (State.fillTlb_groups s ctx core va)

theorem State.askSupervisor_lanesIn (s : State) (ctx : Nat) (va : W64) (g0 : Nat) : lanesIn (State.askSupervisor s ctx va).groups g0 = lanesIn s.groups g0 := congrArg (fun m => lanesIn m g0) (State.askSupervisor_groups s ctx va)

theorem State.forget_lanesIn (s : State) (ctx : Nat) (va : W64) (g0 : Nat) : lanesIn (State.forget s ctx va).groups g0 = lanesIn s.groups g0 := congrArg (fun m => lanesIn m g0) (State.forget_groups s ctx va)

theorem State.updGroup_lanesIn (s : State) (g : Nat) (f : Group → Group) (g0 : Nat) (h : ∀ x, (f x).fibres.keys = x.fibres.keys) : lanesIn (s.updGroup g f).groups g0 = lanesIn s.groups g0 :=
  lanesIn_adjust _ _ _ _ h

theorem State.mapLanes_lanesIn (s : State) (g : Nat) (lanes : List Nat) (f : Nat → Fibre → Fibre) (g0 : Nat) : lanesIn (s.mapLanes g lanes f).groups g0 = lanesIn s.groups g0 :=
  lanesIn_adjust _ _ _ _ (fun x => by simp [Group.mapLanes])

theorem State.updFibre_lanesIn (s : State) (g lane : Nat) (f : Fibre → Fibre) (g0 : Nat) : lanesIn (State.updFibre s g lane f).groups g0 = lanesIn s.groups g0 := by
  unfold State.updFibre
  repeat' (first | with_reducible rfl | intro _ | with_reducible refine (foldl_lanesIn _ _ _ _ ?_).trans ?_ | with_reducible refine (State.mapLanes_lanesIn _ _ _ _ _).trans ?_ | dsimp only | split)

theorem State.updGrid_lanesIn (s : State) (n : Nat) (f : Grid → Grid) (g0 : Nat) : lanesIn (State.updGrid s n f).groups g0 = lanesIn s.groups g0 := congrArg (fun m => lanesIn m g0) (State.updGrid_groups s n f)

theorem State.releaseHolders_lanesIn (s : State) (g uid : Nat) (regs : List Reg) (counts : Bool) (g0 : Nat) : lanesIn (State.releaseHolders s g uid regs counts).groups g0 = lanesIn s.groups g0 := congrArg (fun m => lanesIn m g0) (State.releaseHolders_groups s g uid regs counts)

theorem State.releaseFibre_lanesIn (s : State) (g uid : Nat) (g0 : Nat) : lanesIn (State.releaseFibre s g uid).groups g0 = lanesIn s.groups g0 := congrArg (fun m => lanesIn m g0) (State.releaseFibre_groups s g uid)

theorem State.settleGm_lanesIn (s : State) (g : Nat) (g0 : Nat) : lanesIn (State.settleGm s g).groups g0 = lanesIn s.groups g0 := by
  unfold State.settleGm
  repeat' (first | with_reducible rfl | intro _ | with_reducible refine (foldl_lanesIn _ _ _ _ ?_).trans ?_ | with_reducible refine (State.mapLanes_lanesIn _ _ _ _ _).trans ?_ | dsimp only | split)

theorem State.advance_lanesIn (s : State) (lanes : List Nat) (g0 : Nat) : lanesIn (State.advance s lanes).groups g0 = lanesIn s.groups g0 := by
  unfold State.advance
  repeat' (first | with_reducible rfl | intro _ | with_reducible refine (foldl_lanesIn _ _ _ _ ?_).trans ?_ | with_reducible refine (State.mapLanes_lanesIn _ _ _ _ _).trans ?_ | dsimp only | split)

theorem State.warn_lanesIn (s : State) (w : W32) (g0 : Nat) : lanesIn (State.warn s w).groups g0 = lanesIn s.groups g0 := by
  unfold State.warn
  repeat' (first | with_reducible rfl | intro _ | with_reducible refine (foldl_lanesIn _ _ _ _ ?_).trans ?_ | with_reducible refine (State.updGroup_lanesIn _ _ _ _ (by first | exact fun _ => rfl | (intro x; dsimp only; (repeat' split) <;> first | rfl | (simp; done)))).trans ?_ | dsimp only | split)

theorem State.wait_lanesIn (s : State) (lanes : List Nat) (w : Wait) (g0 : Nat) : lanesIn (State.wait s lanes w).groups g0 = lanesIn s.groups g0 := by
  unfold State.wait
  repeat' (first | with_reducible rfl | intro _ | with_reducible refine (foldl_lanesIn _ _ _ _ ?_).trans ?_ | with_reducible refine (State.mapLanes_lanesIn _ _ _ _ _).trans ?_ | dsimp only | split)

theorem State.dropLater_lanesIn (s : State) (g : Nat) (h : Held) (g0 : Nat) : lanesIn (State.dropLater s g h).groups g0 = lanesIn s.groups g0 := congrArg (fun m => lanesIn m g0) (State.dropLater_groups s g h)

theorem State.scrub_lanesIn (s : State) (la a n generation : Nat) (g0 : Nat) : lanesIn (State.scrub s la a n generation).groups g0 = lanesIn s.groups g0 := congrArg (fun m => lanesIn m g0) (State.scrub_groups s la a n generation)

theorem State.sealFor_lanesIn (s : State) (generation a n : Nat) (g0 : Nat) : lanesIn (State.sealFor s generation a n).groups g0 = lanesIn s.groups g0 := congrArg (fun m => lanesIn m g0) (State.sealFor_groups s generation a n)

theorem State.seal_lanesIn (s : State) (ctx a n : Nat) (g0 : Nat) : lanesIn (State.seal s ctx a n).groups g0 = lanesIn s.groups g0 := congrArg (fun m => lanesIn m g0) (State.seal_groups s ctx a n)

theorem State.reportRefused_lanesIn (s : State) (ctx core : Nat) (lines : List Nat) (g0 : Nat) : lanesIn (State.reportRefused s ctx core lines).groups g0 = lanesIn s.groups g0 := congrArg (fun m => lanesIn m g0) (State.reportRefused_groups s ctx core lines)

theorem State.reportReads_lanesIn (s : State) (ctx core : Nat) (lines : List Nat) (g0 : Nat) : lanesIn (State.reportReads s ctx core lines).groups g0 = lanesIn s.groups g0 := congrArg (fun m => lanesIn m g0) (State.reportReads_groups s ctx core lines)

theorem State.reportWrites_lanesIn (s : State) (ctx core : Nat) (lines : List Nat) (g0 : Nat) : lanesIn (State.reportWrites s ctx core lines).groups g0 = lanesIn s.groups g0 := congrArg (fun m => lanesIn m g0) (State.reportWrites_groups s ctx core lines)

theorem State.reportWalk_lanesIn (s : State) (ctx core : Nat) (va : W64) (g0 : Nat) : lanesIn (State.reportWalk s ctx core va).groups g0 = lanesIn s.groups g0 := congrArg (fun m => lanesIn m g0) (State.reportWalk_groups s ctx core va)

theorem State.deviceWrite_lanesIn (s : State) (ctx : Nat) (va : W64) (data : List Byte) (g0 : Nat) : lanesIn (State.deviceWrite s ctx va data).groups g0 = lanesIn s.groups g0 := congrArg (fun m => lanesIn m g0) (State.deviceWrite_groups s ctx va data)

theorem State.shiftTimes_lanesIn (s : State) (ctx : Nat) (g0 : Nat) : lanesIn (s.shiftTimes ctx).groups g0 = lanesIn s.groups g0 := by
  unfold State.shiftTimes
  split
  · rfl
  · dsimp only
    refine lanesIn_mapVals _ _ _ (fun g x => ?_)
    split
    · simp
    · rfl

theorem State.raiseHalt_lanesIn (s : State) (ctx reason g : Nat) (t : Trap) (lanes : List Nat) (incomplete : Bool) (epc : W64) (g0 : Nat) : lanesIn (State.raiseHalt s ctx reason g t lanes incomplete epc).groups g0 = lanesIn s.groups g0 := by
  unfold State.raiseHalt
  repeat' (first | with_reducible rfl | intro _ | with_reducible refine (foldl_lanesIn _ _ _ _ ?_).trans ?_ | with_reducible refine (State.shiftTimes_lanesIn _ _ _).trans ?_ | dsimp only | split)

theorem State.keep_lanesIn (s : State) (g : Nat) (t : Trap) (lanes : List Nat) (g0 : Nat) : lanesIn (State.keep s g t lanes).groups g0 = lanesIn s.groups g0 := by
  unfold State.keep
  repeat' (first | with_reducible rfl | intro _ | with_reducible refine (foldl_lanesIn _ _ _ _ ?_).trans ?_ | with_reducible refine (State.updGroup_lanesIn _ _ _ _ (by first | exact fun _ => rfl | (intro x; dsimp only; (repeat' split) <;> first | rfl | (simp; done)))).trans ?_ | dsimp only | split)

theorem State.updHalt_lanesIn (s : State) (ctx : Nat) (f : Halt → Halt) (g0 : Nat) : lanesIn (State.updHalt s ctx f).groups g0 = lanesIn s.groups g0 := congrArg (fun m => lanesIn m g0) (State.updHalt_groups s ctx f)

theorem State.fault_lanesIn (s : State) (g : Nat) (t : Trap) (lanes : List Nat) (incomplete : Bool) (g0 : Nat) : lanesIn (State.fault s g t lanes incomplete).groups g0 = lanesIn s.groups g0 := by
  unfold State.fault
  repeat' (first | with_reducible rfl | intro _ | with_reducible refine (foldl_lanesIn _ _ _ _ ?_).trans ?_ | with_reducible refine (State.keep_lanesIn _ _ _ _ _).trans ?_ | with_reducible refine (State.raiseHalt_lanesIn _ _ _ _ _ _ _ _ _).trans ?_ | with_reducible refine (State.updHalt_lanesIn _ _ _ _).trans ?_ | dsimp only | split)

theorem State.precise_lanesIn (s : State) (cause sub info eng : Nat) (lanes : List Nat) (val : W64) (g0 : Nat) : lanesIn (State.precise s cause sub info eng lanes val).groups g0 = lanesIn s.groups g0 := by
  unfold State.precise
  repeat' (first | with_reducible rfl | intro _ | with_reducible refine (foldl_lanesIn _ _ _ _ ?_).trans ?_ | with_reducible refine (State.fault_lanesIn _ _ _ _ _ _).trans ?_ | dsimp only | split)

theorem State.walkPoison_lanesIn (s : State) (eng field lane : Nat) (va : W64) (g0 : Nat) : lanesIn (State.walkPoison s eng field lane va).groups g0 = lanesIn s.groups g0 := by
  unfold State.walkPoison
  repeat' (first | with_reducible rfl | intro _ | with_reducible refine (foldl_lanesIn _ _ _ _ ?_).trans ?_ | with_reducible refine (State.precise_lanesIn _ _ _ _ _ _ _ _).trans ?_ | with_reducible refine (State.reportWalk_lanesIn _ _ _ _ _).trans ?_ | dsimp only | split)

theorem State.deferred_lanesIn (s : State) (ctx g cause sub info eng lane : Nat) (val : W64) (g0 : Nat) : lanesIn (State.deferred s ctx g cause sub info eng lane val).groups g0 = lanesIn s.groups g0 := by
  unfold State.deferred
  repeat' (first | with_reducible rfl | intro _ | with_reducible refine (foldl_lanesIn _ _ _ _ ?_).trans ?_ | with_reducible refine (State.fault_lanesIn _ _ _ _ _ _).trans ?_ | with_reducible refine (State.raiseHalt_lanesIn _ _ _ _ _ _ _ _ _).trans ?_ | dsimp only | split)

theorem State.raisePending_lanesIn (s : State) (g : Nat) (g0 : Nat) : lanesIn (State.raisePending s g).groups g0 = lanesIn s.groups g0 := by
  unfold State.raisePending
  repeat' (first | with_reducible rfl | intro _ | with_reducible refine (foldl_lanesIn _ _ _ _ ?_).trans ?_ | with_reducible refine (State.deferred_lanesIn _ _ _ _ _ _ _ _ _ _).trans ?_ | with_reducible refine (State.fault_lanesIn _ _ _ _ _ _).trans ?_ | with_reducible refine (State.raiseHalt_lanesIn _ _ _ _ _ _ _ _ _).trans ?_ | with_reducible refine (State.updGroup_lanesIn _ _ _ _ (by first | exact fun _ => rfl | (intro x; dsimp only; (repeat' split) <;> first | rfl | (simp; done)))).trans ?_ | dsimp only | split)

theorem State.report_lanesIn (s : State) (vf type : Nat) (addr : W64) (place : W32) (g0 : Nat) : lanesIn (State.report s vf type addr place).groups g0 = lanesIn s.groups g0 := congrArg (fun m => lanesIn m g0) (State.report_groups s vf type addr place)

theorem State.writeHeader_lanesIn (s : State) (ctx : Nat) (h : Halt) (g0 : Nat) : lanesIn (State.writeHeader s ctx h).groups g0 = lanesIn s.groups g0 := congrArg (fun m => lanesIn m g0) (State.writeHeader_groups s ctx h)

theorem State.moveLinks_lanesIn (s : State) (g uid : Nat) (f : Nat → Nat) (g0 : Nat) : lanesIn (State.moveLinks s g uid f).groups g0 = lanesIn s.groups g0 := congrArg (fun m => lanesIn m g0) (State.moveLinks_groups s g uid f)

theorem State.parkGroups_lanesIn (s : State) (ctx : Nat) (but : Option Nat) (g0 : Nat) : lanesIn (s.parkGroups ctx but).groups g0 = lanesIn s.groups g0 := by
  unfold State.parkGroups
  dsimp only
  refine lanesIn_mapVals _ _ _ ?_
  intro g x
  first | rfl | (split <;> rfl)

theorem State.unparkGroups_lanesIn (s : State) (ctx : Nat) (g0 : Nat) : lanesIn (s.unparkGroups ctx).groups g0 = lanesIn s.groups g0 := by
  unfold State.unparkGroups
  dsimp only
  refine lanesIn_mapVals _ _ _ ?_
  intro g x
  first | rfl | (split <;> rfl)

theorem State.serveLatched_lanesIn (s : State) (ctx : Nat) (g0 : Nat) : lanesIn (State.serveLatched s ctx).groups g0 = lanesIn s.groups g0 := by
  unfold State.serveLatched
  repeat' (first | with_reducible rfl | intro _ | with_reducible refine (foldl_lanesIn _ _ _ _ ?_).trans ?_ | with_reducible refine (State.raiseHalt_lanesIn _ _ _ _ _ _ _ _ _).trans ?_ | dsimp only | split)

theorem State.raiseEnded_lanesIn (s : State) (ctx : Nat) (g0 : Nat) : lanesIn (State.raiseEnded s ctx).groups g0 = lanesIn s.groups g0 := by
  unfold State.raiseEnded
  repeat' (first | with_reducible rfl | intro _ | with_reducible refine (foldl_lanesIn _ _ _ _ ?_).trans ?_ | with_reducible refine (State.raiseHalt_lanesIn _ _ _ _ _ _ _ _ _).trans ?_ | dsimp only | split)

theorem State.releaseHalt_lanesIn (s : State) (ctx : Nat) (g0 : Nat) : lanesIn (State.releaseHalt s ctx).groups g0 = lanesIn s.groups g0 := by
  unfold State.releaseHalt
  repeat' (first | with_reducible rfl | intro _ | with_reducible refine (foldl_lanesIn _ _ _ _ ?_).trans ?_ | with_reducible refine (State.raiseEnded_lanesIn _ _ _).trans ?_ | with_reducible refine (State.serveLatched_lanesIn _ _ _).trans ?_ | with_reducible refine (State.unparkGroups_lanesIn _ _ _).trans ?_ | with_reducible refine (State.updHalt_lanesIn _ _ _ _).trans ?_ | dsimp only | split)

theorem State.endHandler_lanesIn (s : State) (ctx g : Nat) (g0 : Nat) : lanesIn (State.endHandler s ctx g).groups g0 = lanesIn s.groups g0 := by
  unfold State.endHandler
  repeat' (first | with_reducible rfl | intro _ | with_reducible refine (foldl_lanesIn _ _ _ _ ?_).trans ?_ | with_reducible refine (State.releaseHalt_lanesIn _ _ _).trans ?_ | with_reducible refine (State.updHalt_lanesIn _ _ _ _).trans ?_ | dsimp only | split)

theorem State.freeLast_lanesIn (s : State) (old : Group) (e : Eff) (written : Fibre → List Reg) (g0 : Nat) : lanesIn (State.freeLast s old e written).groups g0 = lanesIn s.groups g0 := by
  unfold State.freeLast
  repeat' (first | with_reducible rfl | intro _ | with_reducible refine (foldl_lanesIn _ _ _ _ ?_).trans ?_ | with_reducible refine (State.mapLanes_lanesIn _ _ _ _ _).trans ?_ | with_reducible refine (State.releaseHolders_lanesIn _ _ _ _ _ _).trans ?_ | dsimp only | split)

theorem State.complete_lanesIn (s : State) (old : Group) (e : Eff) (written : Fibre → List Reg) (g0 : Nat) : lanesIn (State.complete s old e written).groups g0 = lanesIn s.groups g0 := by
  unfold State.complete
  repeat' (first | with_reducible rfl | intro _ | with_reducible refine (foldl_lanesIn _ _ _ _ ?_).trans ?_ | with_reducible refine (State.advance_lanesIn _ _ _).trans ?_ | with_reducible refine (State.freeLast_lanesIn _ _ _ _ _).trans ?_ | with_reducible refine (State.settleGm_lanesIn _ _ _).trans ?_ | dsimp only | split)

theorem State.narrow_lanesIn (s : State) (lanes : List Nat) (g0 : Nat) : lanesIn (State.narrow s lanes).groups g0 = lanesIn s.groups g0 := congrArg (fun m => lanesIn m g0) (State.narrow_groups s lanes)

theorem State.control_lanesIn (s : State) (eng : Nat) (ops : Group → Nat → Fibre → List Ctl) (go : State → State) (g0 : Nat) (hgo : ∀ x0, lanesIn (go x0).groups g0 = lanesIn x0.groups g0) : lanesIn (State.control s eng ops go).groups g0 = lanesIn s.groups g0 := by
  unfold State.control
  repeat' (first | with_reducible rfl | intro _ | with_reducible refine (foldl_lanesIn _ _ _ _ ?_).trans ?_ | with_reducible refine (State.mapLanes_lanesIn _ _ _ _ _).trans ?_ | with_reducible refine (State.narrow_lanesIn _ _ _).trans ?_ | with_reducible refine (State.precise_lanesIn _ _ _ _ _ _ _ _).trans ?_ | with_reducible refine (State.releaseHolders_lanesIn _ _ _ _ _ _).trans ?_ | with_reducible refine (State.wait_lanesIn _ _ _ _).trans ?_ | with_reducible refine (hgo _).trans ?_ | dsimp only | split)

theorem State.pending_lanesIn (s : State) (z : Alu) (old : Group) (lanes : List Nat) (flags : W32) (trap : Option (Trap × List Nat)) (g0 : Nat) : lanesIn (State.pending s z old lanes flags trap).groups g0 = lanesIn s.groups g0 := by
  unfold State.pending
  repeat' (first | with_reducible rfl | intro _ | with_reducible refine (foldl_lanesIn _ _ _ _ ?_).trans ?_ | with_reducible refine (State.mapLanes_lanesIn _ _ _ _ _).trans ?_ | with_reducible refine (State.updCore_lanesIn _ _ _ _).trans ?_ | dsimp only | split)

theorem State.alu_lanesIn (s : State) (z : Alu) (g0 : Nat) : lanesIn (State.alu s z).groups g0 = lanesIn s.groups g0 := by
  unfold State.alu
  repeat' (first | with_reducible rfl | intro _ | with_reducible refine (foldl_lanesIn _ _ _ _ ?_).trans ?_ | with_reducible refine (State.complete_lanesIn _ _ _ _ _).trans ?_ | with_reducible refine (State.fault_lanesIn _ _ _ _ _ _).trans ?_ | with_reducible refine (State.mapLanes_lanesIn _ _ _ _ _).trans ?_ | with_reducible refine (State.pending_lanesIn _ _ _ _ _ _ _).trans ?_ | with_reducible refine (State.releaseHolders_lanesIn _ _ _ _ _ _).trans ?_ | with_reducible refine (State.warn_lanesIn _ _ _).trans ?_ | dsimp only | split)

theorem State.acquireL1_lanesIn (s : State) (core scope : Nat) (teamCores : Nat) (g0 : Nat) : lanesIn (State.acquireL1 s core scope teamCores).groups g0 = lanesIn s.groups g0 := congrArg (fun m => lanesIn m g0) (State.acquireL1_groups s core scope teamCores)

theorem State.updTeam_lanesIn (s : State) (x : Group) (f : Team → Team) (g0 : Nat) : lanesIn (State.updTeam s x f).groups g0 = lanesIn s.groups g0 := congrArg (fun m => lanesIn m g0) (State.updTeam_groups s x f)

theorem State.checkGroup_lanesIn (s : State) (g : Nat) (g0 : Nat) : lanesIn (State.checkGroup s g).groups g0 = lanesIn s.groups g0 := by
  unfold State.checkGroup
  repeat' (first | with_reducible rfl | intro _ | with_reducible refine (foldl_lanesIn _ _ _ _ ?_).trans ?_ | with_reducible refine (State.acquireL1_lanesIn _ _ _ _ _).trans ?_ | with_reducible refine (State.mapLanes_lanesIn _ _ _ _ _).trans ?_ | with_reducible refine (State.updGroup_lanesIn _ _ _ _ (by first | exact fun _ => rfl | (intro x; dsimp only; (repeat' split) <;> first | rfl | (simp; done)))).trans ?_ | with_reducible refine (State.wait_lanesIn _ _ _ _).trans ?_ | dsimp only | split)

theorem State.checkTeam_lanesIn (s : State) (g : Nat) (g0 : Nat) : lanesIn (State.checkTeam s g).groups g0 = lanesIn s.groups g0 := congrArg (fun m => lanesIn m g0) (State.checkTeam_groups s g)

theorem State.checkGrid_lanesIn (s : State) (grid : Nat) (g0 : Nat) : lanesIn (State.checkGrid s grid).groups g0 = lanesIn s.groups g0 := congrArg (fun m => lanesIn m g0) (State.checkGrid_groups s grid)

theorem State.checkBarriers_lanesIn (s : State) (g : Nat) (g0 : Nat) : lanesIn (State.checkBarriers s g).groups g0 = lanesIn s.groups g0 := by
  unfold State.checkBarriers
  repeat' (first | with_reducible rfl | intro _ | with_reducible refine (foldl_lanesIn _ _ _ _ ?_).trans ?_ | with_reducible refine (State.checkGrid_lanesIn _ _ _).trans ?_ | with_reducible refine (State.checkGroup_lanesIn _ _ _).trans ?_ | with_reducible refine (State.checkTeam_lanesIn _ _ _).trans ?_ | dsimp only | split)

theorem State.checkContext_lanesIn (s : State) (ctx : Nat) (g0 : Nat) : lanesIn (State.checkContext s ctx).groups g0 = lanesIn s.groups g0 := by
  unfold State.checkContext
  repeat' (first | with_reducible rfl | intro _ | with_reducible refine (foldl_lanesIn _ _ _ _ ?_).trans ?_ | with_reducible refine (State.checkBarriers_lanesIn _ _ _).trans ?_ | dsimp only | split)

theorem State.pushStore_lanesIn (s : State) (core : Nat) (t : Store) (g0 : Nat) : lanesIn (State.pushStore s core t).groups g0 = lanesIn s.groups g0 := congrArg (fun m => lanesIn m g0) (State.pushStore_groups s core t)

theorem State.portTake_lanesIn (s : State) (ctx core n : Nat) (a : Ask) (g0 : Nat) : lanesIn (State.portTake s ctx core n a).groups g0 = lanesIn s.groups g0 := congrArg (fun m => lanesIn m g0) (State.portTake_groups s ctx core n a)

theorem State.portQueue_lanesIn (s : State) (ctx core n : Nat) (a : Ask) (g0 : Nat) : lanesIn (State.portQueue s ctx core n a).groups g0 = lanesIn s.groups g0 := congrArg (fun m => lanesIn m g0) (State.portQueue_groups s ctx core n a)

theorem State.port_lanesIn (s : State) (ctx core n : Nat) (a : Ask) (g0 : Nat) : lanesIn (s.port ctx core n a).1.groups g0 = lanesIn s.groups g0 :=
  congrArg (fun m => lanesIn m g0) (State.port_groups s ctx core n a)

theorem State.reportDead_lanesIn (s : State) (ctx core : Nat) (lines : List Nat) (g0 : Nat) : lanesIn (State.reportDead s ctx core lines).groups g0 = lanesIn s.groups g0 := congrArg (fun m => lanesIn m g0) (State.reportDead_groups s ctx core lines)

theorem State.dropRequests_lanesIn (s : State) (ctx core : Nat) (g0 : Nat) : lanesIn (State.dropRequests s ctx core).groups g0 = lanesIn s.groups g0 := congrArg (fun m => lanesIn m g0) (State.dropRequests_groups s ctx core)

theorem State.send_lanesIn (s : State) (ctx core n : Nat) (a : Ask) (go : State → State) (g0 : Nat) (hgo : ∀ x0, lanesIn (go x0).groups g0 = lanesIn x0.groups g0) : lanesIn (State.send s ctx core n a go).groups g0 = lanesIn s.groups g0 := by
  unfold State.send
  repeat' (first | with_reducible rfl | intro _ | with_reducible refine (foldl_lanesIn _ _ _ _ ?_).trans ?_ | with_reducible refine (State.dropRequests_lanesIn _ _ _ _).trans ?_ | with_reducible refine (State.port_lanesIn _ _ _ _ _ _).trans ?_ | with_reducible refine (hgo _).trans ?_ | dsimp only | split)

theorem State.throughPort_lanesIn (s : State) (ctx core n : Nat) (go : State → State) (g0 : Nat) (hgo : ∀ x0, lanesIn (go x0).groups g0 = lanesIn x0.groups g0) : lanesIn (State.throughPort s ctx core n go).groups g0 = lanesIn s.groups g0 := by
  unfold State.throughPort
  repeat' (first | with_reducible rfl | intro _ | with_reducible refine (foldl_lanesIn _ _ _ _ ?_).trans ?_ | with_reducible refine (State.send_lanesIn _ _ _ _ _ _ _ ?_).trans ?_ | with_reducible refine (hgo _).trans ?_ | dsimp only | split)

theorem State.waitReplay_lanesIn (s : State) (ctx : Nat) (addrs : List (Nat × W64)) (faulting : List Nat) (g0 : Nat) : lanesIn (State.waitReplay s ctx addrs faulting).groups g0 = lanesIn s.groups g0 := by
  unfold State.waitReplay
  repeat' (first | with_reducible rfl | intro _ | with_reducible refine (foldl_lanesIn _ _ _ _ ?_).trans ?_ | with_reducible refine (State.askSupervisor_lanesIn _ _ _ _).trans ?_ | with_reducible refine (State.wait_lanesIn _ _ _ _).trans ?_ | dsimp only | split)

theorem State.claimScratch_lanesIn (s : State) (core ctx : Nat) (keep : List Nat) (g0 : Nat) : lanesIn (State.claimScratch s core ctx keep).groups g0 = lanesIn s.groups g0 := congrArg (fun m => lanesIn m g0) (State.claimScratch_groups s core ctx keep)

theorem State.recallScratch_lanesIn (s : State) (core ctx off n : Nat) (g0 : Nat) : lanesIn (State.recallScratch s core ctx off n).groups g0 = lanesIn s.groups g0 := congrArg (fun m => lanesIn m g0) (State.recallScratch_groups s core ctx off n)

theorem State.patchL1_lanesIn (s : State) (core a : Nat) (data : List Byte) (poison : Bool) (g0 : Nat) : lanesIn (State.patchL1 s core a data poison).groups g0 = lanesIn s.groups g0 := congrArg (fun m => lanesIn m g0) (State.patchL1_groups s core a data poison)

theorem State.sample_lanesIn (s : State) (core g la : Nat) (g0 : Nat) : lanesIn (State.sample s core g la).groups g0 = lanesIn s.groups g0 := by
  unfold State.sample
  repeat' (first | with_reducible rfl | intro _ | with_reducible refine (foldl_lanesIn _ _ _ _ ?_).trans ?_ | with_reducible refine (State.updGroup_lanesIn _ _ _ _ (by first | exact fun _ => rfl | (intro x; dsimp only; (repeat' split) <;> first | rfl | (simp; done)))).trans ?_ | dsimp only | split)

theorem State.install_lanesIn (s : State) (core la : Nat) (l : L1Line) (g pol : Nat) (g0 : Nat) : lanesIn (State.install s core la l g pol).groups g0 = lanesIn s.groups g0 := by
  unfold State.install
  repeat' (first | with_reducible rfl | intro _ | with_reducible refine (foldl_lanesIn _ _ _ _ ?_).trans ?_ | with_reducible refine (State.keep_lanesIn _ _ _ _ _).trans ?_ | with_reducible refine (State.updCore_lanesIn _ _ _ _).trans ?_ | with_reducible refine (State.updGroup_lanesIn _ _ _ _ (by first | exact fun _ => rfl | (intro x; dsimp only; (repeat' split) <;> first | rfl | (simp; done)))).trans ?_ | dsimp only | split)

theorem State.allocL1_lanesIn (s : State) (core la g pol : Nat) (l1 : Bool) (g0 : Nat) : lanesIn (State.allocL1 s core la g pol l1).groups g0 = lanesIn s.groups g0 := by
  unfold State.allocL1
  repeat' (first | with_reducible rfl | intro _ | with_reducible refine (foldl_lanesIn _ _ _ _ ?_).trans ?_ | with_reducible refine (State.install_lanesIn _ _ _ _ _ _ _).trans ?_ | with_reducible refine (State.updCore_lanesIn _ _ _ _).trans ?_ | dsimp only | split)

theorem State.plain_lanesIn (s : State) (i : Instr) (go : Eff → State → State) (g0 : Nat) (hgo : ∀ x0 x1, lanesIn (go x0 x1).groups g0 = lanesIn x1.groups g0) : lanesIn (State.plain s i go).groups g0 = lanesIn s.groups g0 := by
  unfold State.plain
  repeat' (first | with_reducible rfl | intro _ | with_reducible refine (foldl_lanesIn _ _ _ _ ?_).trans ?_ | with_reducible refine (State.warn_lanesIn _ _ _).trans ?_ | with_reducible refine (hgo _ _).trans ?_ | dsimp only | split)

theorem State.only_lanesIn (s : State) (i : Instr) (g0 : Nat) : lanesIn (State.only s i).groups g0 = lanesIn s.groups g0 := by
  unfold State.only
  repeat' (first | with_reducible rfl | intro _ | with_reducible refine (foldl_lanesIn _ _ _ _ ?_).trans ?_ | with_reducible refine (State.complete_lanesIn _ _ _ _ _).trans ?_ | with_reducible refine (State.plain_lanesIn _ _ _ _ ?_).trans ?_ | dsimp only | split)

theorem State.jump_lanesIn (s : State) (target : Nat → Fibre → W64) (g0 : Nat) : lanesIn (State.jump s target).groups g0 = lanesIn s.groups g0 := by
  unfold State.jump
  repeat' (first | with_reducible rfl | intro _ | with_reducible refine (foldl_lanesIn _ _ _ _ ?_).trans ?_ | with_reducible refine (State.mapLanes_lanesIn _ _ _ _ _).trans ?_ | with_reducible refine (State.wait_lanesIn _ _ _ _).trans ?_ | dsimp only | split)

theorem State.checkTarget_lanesIn (s : State) (f : BitVec 3) (a : BitVec 7) (go : State → State) (g0 : Nat) (hgo : ∀ x0, lanesIn (go x0).groups g0 = lanesIn x0.groups g0) : lanesIn (State.checkTarget s f a go).groups g0 = lanesIn s.groups g0 := by
  unfold State.checkTarget
  repeat' (first | with_reducible rfl | intro _ | with_reducible refine (foldl_lanesIn _ _ _ _ ?_).trans ?_ | with_reducible refine (State.control_lanesIn _ _ _ _ _ ?_).trans ?_ | with_reducible refine (State.precise_lanesIn _ _ _ _ _ _ _ _).trans ?_ | with_reducible refine (hgo _).trans ?_ | dsimp only | split)

theorem State.call_lanesIn (s : State) (target : Nat → W64) (last : State → State) (g0 : Nat) (hlast : ∀ x0, lanesIn (last x0).groups g0 = lanesIn x0.groups g0) : lanesIn (State.call s target last).groups g0 = lanesIn s.groups g0 := by
  unfold State.call
  repeat' (first | with_reducible rfl | intro _ | with_reducible refine (foldl_lanesIn _ _ _ _ ?_).trans ?_ | with_reducible refine (State.fillTlb_lanesIn _ _ _ _ _).trans ?_ | with_reducible refine (State.forget_lanesIn _ _ _ _).trans ?_ | with_reducible refine (State.mapLanes_lanesIn _ _ _ _ _).trans ?_ | with_reducible refine (State.precise_lanesIn _ _ _ _ _ _ _ _).trans ?_ | with_reducible refine (State.pushStore_lanesIn _ _ _ _).trans ?_ | with_reducible refine (State.sample_lanesIn _ _ _ _ _).trans ?_ | with_reducible refine (State.wait_lanesIn _ _ _ _).trans ?_ | with_reducible refine (State.waitReplay_lanesIn _ _ _ _ _).trans ?_ | with_reducible refine (State.walkPoison_lanesIn _ _ _ _ _ _).trans ?_ | with_reducible refine (hlast _).trans ?_ | dsimp only | split)

theorem State.fillL1_lanesIn (s : State) (core g la : Nat) (p : Page) (g0 : Nat) : lanesIn (State.fillL1 s core g la p).groups g0 = lanesIn s.groups g0 := by
  unfold State.fillL1
  repeat' (first | with_reducible rfl | intro _ | with_reducible refine (foldl_lanesIn _ _ _ _ ?_).trans ?_ | with_reducible refine (State.allocL1_lanesIn _ _ _ _ _ _ _).trans ?_ | with_reducible refine (State.countPacket_lanesIn _ _ _ _).trans ?_ | with_reducible refine (State.readLine_lanesIn _ _ _ _ _ _ _).trans ?_ | with_reducible refine (State.sample_lanesIn _ _ _ _ _).trans ?_ | dsimp only | split)

theorem State.releaseJunction_lanesIn (s : State) (g : Nat) (pc : W64) (g0 : Nat) : lanesIn (State.releaseJunction s g pc).groups g0 = lanesIn s.groups g0 := by
  unfold State.releaseJunction
  repeat' (first | with_reducible rfl | intro _ | with_reducible refine (foldl_lanesIn _ _ _ _ ?_).trans ?_ | with_reducible refine (State.mapLanes_lanesIn _ _ _ _ _).trans ?_ | dsimp only | split)

theorem State.illegalHere_lanesIn (s : State) (info : Nat) (g0 : Nat) : lanesIn (State.illegalHere s info).groups g0 = lanesIn s.groups g0 := by
  unfold State.illegalHere
  repeat' (first | with_reducible rfl | intro _ | with_reducible refine (foldl_lanesIn _ _ _ _ ?_).trans ?_ | with_reducible refine (State.precise_lanesIn _ _ _ _ _ _ _ _).trans ?_ | dsimp only | split)

theorem State.copyHolders_lanesIn (s : State) (core g uid new : Nat) (g0 : Nat) : lanesIn (State.copyHolders s core g uid new).groups g0 = lanesIn s.groups g0 := congrArg (fun m => lanesIn m g0) (State.copyHolders_groups s core g uid new)

theorem State.zeroMasked_lanesIn (s : State) (e : Eff) (act : List Nat) (d : Dst) (old : Group) (g0 : Nat) : lanesIn (State.zeroMasked s e act d old).groups g0 = lanesIn s.groups g0 := by
  unfold State.zeroMasked
  repeat' (first | with_reducible rfl | intro _ | with_reducible refine (foldl_lanesIn _ _ _ _ ?_).trans ?_ | with_reducible refine (State.mapLanes_lanesIn _ _ _ _ _).trans ?_ | with_reducible refine (State.releaseHolders_lanesIn _ _ _ _ _ _).trans ?_ | dsimp only | split)

theorem State.window_lanesIn (s : State) (e : Eff) (base : Fibre → Int) (req : Fibre → W64) (g0 : Nat) : lanesIn (State.window s e base req).groups g0 = lanesIn s.groups g0 := by
  unfold State.window
  repeat' (first | with_reducible rfl | intro _ | with_reducible refine (foldl_lanesIn _ _ _ _ ?_).trans ?_ | with_reducible refine (State.complete_lanesIn _ _ _ _ _).trans ?_ | with_reducible refine (State.mapLanes_lanesIn _ _ _ _ _).trans ?_ | with_reducible refine (State.precise_lanesIn _ _ _ _ _ _ _ _).trans ?_ | dsimp only | split)

theorem State.setDest_lanesIn (s : State) (d : Dst) (v : Nat → Fibre → Val) (g0 : Nat) : lanesIn (State.setDest s d v).groups g0 = lanesIn s.groups g0 := by
  unfold State.setDest
  repeat' (first | with_reducible rfl | intro _ | with_reducible refine (foldl_lanesIn _ _ _ _ ?_).trans ?_ | with_reducible refine (State.mapLanes_lanesIn _ _ _ _ _).trans ?_ | with_reducible refine (State.releaseHolders_lanesIn _ _ _ _ _ _).trans ?_ | dsimp only | split)

theorem Group.writeSys_fibres (x : Group) (n : Nat) (v : W64) : (x.writeSys n v).fibres = x.fibres := by
  unfold Group.writeSys; split <;> rfl

theorem State.writeSys_lanesIn (s : State) (n lane : Nat) (v : W64) (g0 : Nat) : lanesIn (s.writeSys n lane v).groups g0 = lanesIn s.groups g0 := by
  unfold State.writeSys
  split
  · rfl
  · dsimp only
    exact (State.mapLanes_lanesIn _ _ _ _ _).trans ((State.updGroup_lanesIn _ _ _ _ (fun x => by rw [Group.writeSys_fibres])).trans (congrArg (fun m => lanesIn m g0) (State.releaseHolders_groups _ _ _ _ _)))

theorem State.swr_lanesIn (s : State) (i : Instr) (m : Mods) (a n : BitVec 7) (f : W64 → W64 → W64) (g0 : Nat) : lanesIn (State.swr s i m a n f).groups g0 = lanesIn s.groups g0 := by
  unfold State.swr
  repeat' (first | with_reducible rfl | intro _ | with_reducible refine (foldl_lanesIn _ _ _ _ ?_).trans ?_ | with_reducible refine (State.complete_lanesIn _ _ _ _ _).trans ?_ | with_reducible refine (State.control_lanesIn _ _ _ _ _ ?_).trans ?_ | with_reducible refine (State.illegalHere_lanesIn _ _ _).trans ?_ | with_reducible refine (State.plain_lanesIn _ _ _ _ ?_).trans ?_ | with_reducible refine (State.precise_lanesIn _ _ _ _ _ _ _ _).trans ?_ | with_reducible refine (State.writeSys_lanesIn _ _ _ _ _).trans ?_ | dsimp only | split)

theorem State.retireResult_lanesIn (s : State) (core id : Nat) (g0 : Nat) : lanesIn (State.retireResult s core id).groups g0 = lanesIn s.groups g0 := by
  unfold State.retireResult
  repeat' (first | with_reducible rfl | intro _ | with_reducible refine (foldl_lanesIn _ _ _ _ ?_).trans ?_ | with_reducible refine (State.fault_lanesIn _ _ _ _ _ _).trans ?_ | with_reducible refine (State.updCore_lanesIn _ _ _ _).trans ?_ | with_reducible refine (State.updFibre_lanesIn _ _ _ _ _).trans ?_ | with_reducible refine (State.updGroup_lanesIn _ _ _ _ (by first | exact fun _ => rfl | (intro x; dsimp only; (repeat' split) <;> first | rfl | (simp; done)))).trans ?_ | dsimp only | split)

theorem State.freezeTiles_lanesIn (s : State) (ctx core : Nat) (g0 : Nat) : lanesIn (State.freezeTiles s ctx core).groups g0 = lanesIn s.groups g0 := congrArg (fun m => lanesIn m g0) (State.freezeTiles_groups s ctx core)

theorem State.writeStops_lanesIn (s : State) (ctx : Nat) (l : List Stop) (first : Nat) (g0 : Nat) : lanesIn (State.writeStops s ctx l first).groups g0 = lanesIn s.groups g0 := congrArg (fun m => lanesIn m g0) (State.writeStops_groups s ctx l first)

theorem State.updLoad_lanesIn (s : State) (core id : Nat) (f : Load → Load) (g0 : Nat) : lanesIn (State.updLoad s core id f).groups g0 = lanesIn s.groups g0 := congrArg (fun m => lanesIn m g0) (State.updLoad_groups s core id f)

theorem State.updLane_lanesIn (s : State) (core id lane : Nat) (f : LaneLoad → LaneLoad) (g0 : Nat) : lanesIn (State.updLane s core id lane f).groups g0 = lanesIn s.groups g0 := congrArg (fun m => lanesIn m g0) (State.updLane_groups s core id lane f)

theorem State.landReg_lanesIn (s : State) (g lane uid : Nat) (r : Option Reg) (form : LoadForm) (v : Val) (g0 : Nat) : lanesIn (State.landReg s g lane uid r form v).groups g0 = lanesIn s.groups g0 := by
  unfold State.landReg
  repeat' (first | with_reducible rfl | intro _ | with_reducible refine (foldl_lanesIn _ _ _ _ ?_).trans ?_ | with_reducible refine (State.releaseHolders_lanesIn _ _ _ _ _ _).trans ?_ | with_reducible refine (State.updFibre_lanesIn _ _ _ _ _).trans ?_ | dsimp only | split)

theorem State.updateGuess_lanesIn (s : State) (core : Nat) (l : Load) (g0 : Nat) : lanesIn (State.updateGuess s core l).groups g0 = lanesIn s.groups g0 := congrArg (fun m => lanesIn m g0) (State.updateGuess_groups s core l)

theorem State.settleLoad_lanesIn (s : State) (core id : Nat) (was : Bool) (g0 : Nat) : lanesIn (State.settleLoad s core id was).groups g0 = lanesIn s.groups g0 := by
  unfold State.settleLoad
  repeat' (first | with_reducible rfl | intro _ | with_reducible refine (foldl_lanesIn _ _ _ _ ?_).trans ?_ | with_reducible refine (State.updCore_lanesIn _ _ _ _).trans ?_ | with_reducible refine (State.updGroup_lanesIn _ _ _ _ (by first | exact fun _ => rfl | (intro x; dsimp only; (repeat' split) <;> first | rfl | (simp; done)))).trans ?_ | with_reducible refine (State.updLoad_lanesIn _ _ _ _ _).trans ?_ | with_reducible refine (State.updateGuess_lanesIn _ _ _ _).trans ?_ | dsimp only | split)

theorem State.takeTicket_lanesIn (s : State) (core id : Nat) (l : Load) (lane : Nat) (e : LaneLoad) (g0 : Nat) : lanesIn (State.takeTicket s core id l lane e).groups g0 = lanesIn s.groups g0 := by
  unfold State.takeTicket
  repeat' (first | with_reducible rfl | intro _ | with_reducible refine (foldl_lanesIn _ _ _ _ ?_).trans ?_ | with_reducible refine (State.landReg_lanesIn _ _ _ _ _ _ _ _).trans ?_ | with_reducible refine (State.updCore_lanesIn _ _ _ _).trans ?_ | with_reducible refine (State.updLane_lanesIn _ _ _ _ _ _).trans ?_ | dsimp only | split)

theorem State.expire_lanesIn (s : State) (core id limit : Nat) (g0 : Nat) : lanesIn (State.expire s core id limit).groups g0 = lanesIn s.groups g0 := by
  unfold State.expire
  repeat' (first | with_reducible rfl | intro _ | with_reducible refine (foldl_lanesIn _ _ _ _ ?_).trans ?_ | with_reducible refine (State.landReg_lanesIn _ _ _ _ _ _ _ _).trans ?_ | with_reducible refine (State.settleLoad_lanesIn _ _ _ _ _).trans ?_ | with_reducible refine (State.takeTicket_lanesIn _ _ _ _ _ _ _).trans ?_ | with_reducible refine (State.updLane_lanesIn _ _ _ _ _ _).trans ?_ | dsimp only | split)

theorem State.truthFor_lanesIn (s : State) (core ticket v : Nat) (p : Bool) (g0 : Nat) : lanesIn (State.truthFor s core ticket v p).groups g0 = lanesIn s.groups g0 := by
  unfold State.truthFor
  repeat' (first | with_reducible rfl | intro _ | with_reducible refine (foldl_lanesIn _ _ _ _ ?_).trans ?_ | with_reducible refine (State.mapLanes_lanesIn _ _ _ _ _).trans ?_ | with_reducible refine (State.updCore_lanesIn _ _ _ _).trans ?_ | dsimp only | split)

theorem State.unhookAfter_lanesIn (s : State) (core g uid seq : Nat) (g0 : Nat) : lanesIn (State.unhookAfter s core g uid seq).groups g0 = lanesIn s.groups g0 := congrArg (fun m => lanesIn m g0) (State.unhookAfter_groups s core g uid seq)

theorem State.deliver_lanesIn (s : State) (core id lane v : Nat) (p : Bool) (g0 : Nat) : lanesIn (State.deliver s core id lane v p).groups g0 = lanesIn s.groups g0 := by
  unfold State.deliver
  repeat' (first | with_reducible rfl | intro _ | with_reducible refine (foldl_lanesIn _ _ _ _ ?_).trans ?_ | with_reducible refine (State.acquireL1_lanesIn _ _ _ _ _).trans ?_ | with_reducible refine (State.expire_lanesIn _ _ _ _ _).trans ?_ | with_reducible refine (State.landReg_lanesIn _ _ _ _ _ _ _ _).trans ?_ | with_reducible refine (State.settleGm_lanesIn _ _ _).trans ?_ | with_reducible refine (State.settleLoad_lanesIn _ _ _ _ _).trans ?_ | with_reducible refine (State.truthFor_lanesIn _ _ _ _ _ _).trans ?_ | with_reducible refine (State.unhookAfter_lanesIn _ _ _ _ _ _).trans ?_ | with_reducible refine (State.updLane_lanesIn _ _ _ _ _ _).trans ?_ | dsimp only | split)

theorem State.unhook_lanesIn (s : State) (core la uid : Nat) (g0 : Nat) : lanesIn (State.unhook s core la uid).groups g0 = lanesIn s.groups g0 := congrArg (fun m => lanesIn m g0) (State.unhook_groups s core la uid)

theorem State.arrive_lanesIn (s : State) (core id lane : Nat) (g0 : Nat) : lanesIn (State.arrive s core id lane).groups g0 = lanesIn s.groups g0 := by
  unfold State.arrive
  repeat' (first | with_reducible rfl | intro _ | with_reducible refine (foldl_lanesIn _ _ _ _ ?_).trans ?_ | with_reducible refine (State.allocL1_lanesIn _ _ _ _ _ _ _).trans ?_ | with_reducible refine (State.countPacket_lanesIn _ _ _ _).trans ?_ | with_reducible refine (State.deliver_lanesIn _ _ _ _ _ _ _).trans ?_ | with_reducible refine (State.readLine_lanesIn _ _ _ _ _ _ _).trans ?_ | with_reducible refine (State.recallScratch_lanesIn _ _ _ _ _ _).trans ?_ | with_reducible refine (State.reportReads_lanesIn _ _ _ _ _).trans ?_ | with_reducible refine (State.send_lanesIn _ _ _ _ _ _ _ ?_).trans ?_ | with_reducible refine (State.unhook_lanesIn _ _ _ _ _).trans ?_ | dsimp only | split)

theorem State.memFault_lanesIn (s : State) (ctx eng info lane sub : Nat) (va : W64) (g0 : Nat) : lanesIn (State.memFault s ctx eng info lane sub va).groups g0 = lanesIn s.groups g0 := by
  unfold State.memFault
  repeat' (first | with_reducible rfl | intro _ | with_reducible refine (foldl_lanesIn _ _ _ _ ?_).trans ?_ | with_reducible refine (State.forget_lanesIn _ _ _ _).trans ?_ | with_reducible refine (State.precise_lanesIn _ _ _ _ _ _ _ _).trans ?_ | dsimp only | split)

theorem State.askFills_lanesIn (s : State) (core id : Nat) (g0 : Nat) : lanesIn (State.askFills s core id).groups g0 = lanesIn s.groups g0 := by
  unfold State.askFills
  repeat' (first | with_reducible rfl | intro _ | with_reducible refine (foldl_lanesIn _ _ _ _ ?_).trans ?_ | with_reducible refine (State.install_lanesIn _ _ _ _ _ _ _).trans ?_ | with_reducible refine (State.sample_lanesIn _ _ _ _ _).trans ?_ | with_reducible refine (State.updCore_lanesIn _ _ _ _).trans ?_ | with_reducible refine (State.updLane_lanesIn _ _ _ _ _ _).trans ?_ | dsimp only | split)

theorem State.maskedOff_lanesIn (s : State) (e : Eff) (act : List Nat) (d : Dst) (old : Group) (g0 : Nat) : lanesIn (State.maskedOff s e act d old).groups g0 = lanesIn s.groups g0 := by
  unfold State.maskedOff
  repeat' (first | with_reducible rfl | intro _ | with_reducible refine (foldl_lanesIn _ _ _ _ ?_).trans ?_ | with_reducible refine (State.mapLanes_lanesIn _ _ _ _ _).trans ?_ | with_reducible refine (State.zeroMasked_lanesIn _ _ _ _ _ _).trans ?_ | dsimp only | split)

theorem State.sendLoad_lanesIn (s : State) (z : LoadIns) (e : Eff) (x : Group) (act : List Nat) (pas : List (Nat × Nat × Page)) (addr : Nat → Val) (g0 : Nat) : lanesIn (State.sendLoad s z e x act pas addr).groups g0 = lanesIn s.groups g0 := by
  unfold State.sendLoad
  repeat' (first | with_reducible rfl | intro _ | with_reducible refine (foldl_lanesIn _ _ _ _ ?_).trans ?_ | with_reducible refine (State.askFills_lanesIn _ _ _ _).trans ?_ | with_reducible refine (State.landReg_lanesIn _ _ _ _ _ _ _ _).trans ?_ | with_reducible refine (State.mapLanes_lanesIn _ _ _ _ _).trans ?_ | with_reducible refine (State.settleLoad_lanesIn _ _ _ _ _).trans ?_ | with_reducible refine (State.updCore_lanesIn _ _ _ _).trans ?_ | with_reducible refine (State.updGroup_lanesIn _ _ _ _ (by first | exact fun _ => rfl | (intro x; dsimp only; (repeat' split) <;> first | rfl | (simp; done)))).trans ?_ | with_reducible refine (State.updLane_lanesIn _ _ _ _ _ _).trans ?_ | dsimp only | split)

theorem State.dataArrives_lanesIn (s : State) (core id lane : Nat) (g0 : Nat) : lanesIn (State.dataArrives s core id lane).groups g0 = lanesIn s.groups g0 := by
  unfold State.dataArrives
  repeat' (first | with_reducible rfl | intro _ | with_reducible refine (foldl_lanesIn _ _ _ _ ?_).trans ?_ | with_reducible refine (State.arrive_lanesIn _ _ _ _ _).trans ?_ | dsimp only | split)

theorem State.consume_lanesIn (s : State) (core la id lane : Nat) (line : L1Line) (g0 : Nat) : lanesIn (State.consume s core la id lane line).groups g0 = lanesIn s.groups g0 := by
  unfold State.consume
  repeat' (first | with_reducible rfl | intro _ | with_reducible refine (foldl_lanesIn _ _ _ _ ?_).trans ?_ | with_reducible refine (State.deliver_lanesIn _ _ _ _ _ _ _).trans ?_ | with_reducible refine (State.updLane_lanesIn _ _ _ _ _ _).trans ?_ | dsimp only | split)

theorem State.accept_lanesIn (s : State) (g uid : Nat) (regs : List Reg) (g0 : Nat) : lanesIn (State.accept s g uid regs).groups g0 = lanesIn s.groups g0 := congrArg (fun m => lanesIn m g0) (State.accept_groups s g uid regs)

theorem State.testTags_lanesIn (s : State) (i : Instr) (d a b : BitVec 7) (f : Val → Bool) (g0 : Nat) : lanesIn (State.testTags s i d a b f).groups g0 = lanesIn s.groups g0 := by
  unfold State.testTags
  repeat' (first | with_reducible rfl | intro _ | with_reducible refine (foldl_lanesIn _ _ _ _ ?_).trans ?_ | with_reducible refine (State.complete_lanesIn _ _ _ _ _).trans ?_ | with_reducible refine (State.mapLanes_lanesIn _ _ _ _ _).trans ?_ | with_reducible refine (State.plain_lanesIn _ _ _ _ ?_).trans ?_ | dsimp only | split)

theorem State.demand_lanesIn (s : State) (e : Eff) (a sel : BitVec 7) (blocks : Bool) (finish : List Nat → State → State) (g0 : Nat) (hfinish : ∀ x0 x1, lanesIn (finish x0 x1).groups g0 = lanesIn x1.groups g0) : lanesIn (State.demand s e a sel blocks finish).groups g0 = lanesIn s.groups g0 := by
  unfold State.demand
  repeat' (first | with_reducible rfl | intro _ | with_reducible refine (foldl_lanesIn _ _ _ _ ?_).trans ?_ | with_reducible refine (State.narrow_lanesIn _ _ _).trans ?_ | with_reducible refine (State.wait_lanesIn _ _ _ _).trans ?_ | with_reducible refine (hfinish _ _).trans ?_ | dsimp only | split)

theorem State.finishLanes_lanesIn (s : State) (lanes : List Nat) (g0 : Nat) : lanesIn (State.finishLanes s lanes).groups g0 = lanesIn s.groups g0 := by
  unfold State.finishLanes
  repeat' (first | with_reducible rfl | intro _ | with_reducible refine (foldl_lanesIn _ _ _ _ ?_).trans ?_ | with_reducible refine (State.advance_lanesIn _ _ _).trans ?_ | with_reducible refine (State.settleGm_lanesIn _ _ _).trans ?_ | dsimp only | split)

theorem State.writeTruth_lanesIn (s : State) (lane : Nat) (regs : List Reg) (g0 : Nat) : lanesIn (State.writeTruth s lane regs).groups g0 = lanesIn s.groups g0 := by
  unfold State.writeTruth
  repeat' (first | with_reducible rfl | intro _ | with_reducible refine (foldl_lanesIn _ _ _ _ ?_).trans ?_ | with_reducible refine (State.accept_lanesIn _ _ _ _ _).trans ?_ | with_reducible refine (State.mapLanes_lanesIn _ _ _ _ _).trans ?_ | dsimp only | split)

theorem State.check_lanesIn (s : State) (cause sub info eng : Nat) (lanes : List Nat) (go : State → State) (g0 : Nat) (hgo : ∀ x0, lanesIn (go x0).groups g0 = lanesIn x0.groups g0) : lanesIn (State.check s cause sub info eng lanes go).groups g0 = lanesIn s.groups g0 := by
  unfold State.check
  repeat' (first | with_reducible rfl | intro _ | with_reducible refine (foldl_lanesIn _ _ _ _ ?_).trans ?_ | with_reducible refine (State.precise_lanesIn _ _ _ _ _ _ _ _).trans ?_ | with_reducible refine (hgo _).trans ?_ | dsimp only | split)

theorem State.sendStores_lanesIn (s : State) (z : StoreIns) (need : Nat) (x : Group) (lanes : List (Nat × Nat × Option Page)) (g0 : Nat) : lanesIn (State.sendStores s z need x lanes).groups g0 = lanesIn s.groups g0 := by
  unfold State.sendStores
  repeat' (first | with_reducible rfl | intro _ | with_reducible refine (foldl_lanesIn _ _ _ _ ?_).trans ?_ | with_reducible refine (State.pushStore_lanesIn _ _ _ _).trans ?_ | with_reducible refine (State.sample_lanesIn _ _ _ _ _).trans ?_ | with_reducible refine (State.updGroup_lanesIn _ _ _ _ (by first | exact fun _ => rfl | (intro x; dsimp only; (repeat' split) <;> first | rfl | (simp; done)))).trans ?_ | dsimp only | split)

theorem State.scratchWrite_lanesIn (s : State) (core ctx off : Nat) (data : List Byte) (poison : Bool) (g0 : Nat) : lanesIn (State.scratchWrite s core ctx off data poison).groups g0 = lanesIn s.groups g0 := congrArg (fun m => lanesIn m g0) (State.scratchWrite_groups s core ctx off data poison)

theorem State.dropHost_lanesIn (s : State) (a n : Nat) (g0 : Nat) : lanesIn (State.dropHost s a n).groups g0 = lanesIn s.groups g0 := congrArg (fun m => lanesIn m g0) (State.dropHost_groups s a n)

theorem State.settleStore_lanesIn (s : State) (core op g : Nat) (g0 : Nat) : lanesIn (State.settleStore s core op g).groups g0 = lanesIn s.groups g0 := by
  unfold State.settleStore
  repeat' (first | with_reducible rfl | intro _ | with_reducible refine (foldl_lanesIn _ _ _ _ ?_).trans ?_ | with_reducible refine (State.updGroup_lanesIn _ _ _ _ (by first | exact fun _ => rfl | (intro x; dsimp only; (repeat' split) <;> first | rfl | (simp; done)))).trans ?_ | dsimp only | split)

theorem State.raiseStore_lanesIn (s : State) (core id : Nat) (t : Store) (level : Nat) (g0 : Nat) : lanesIn (State.raiseStore s core id t level).groups g0 = lanesIn s.groups g0 := by
  unfold State.raiseStore
  repeat' (first | with_reducible rfl | intro _ | with_reducible refine (foldl_lanesIn _ _ _ _ ?_).trans ?_ | with_reducible refine (State.settleStore_lanesIn _ _ _ _ _).trans ?_ | with_reducible refine (State.updCore_lanesIn _ _ _ _).trans ?_ | dsimp only | split)

theorem State.endStore_lanesIn (s : State) (core id : Nat) (t : Store) (g0 : Nat) : lanesIn (State.endStore s core id t).groups g0 = lanesIn s.groups g0 := by
  unfold State.endStore
  repeat' (first | with_reducible rfl | intro _ | with_reducible refine (foldl_lanesIn _ _ _ _ ?_).trans ?_ | with_reducible refine (State.settleStore_lanesIn _ _ _ _ _).trans ?_ | with_reducible refine (State.updCore_lanesIn _ _ _ _).trans ?_ | dsimp only | split)

theorem State.writeBackLine_lanesIn (s : State) (core la : Nat) (drop' : Bool) (g0 : Nat) : lanesIn (State.writeBackLine s core la drop').groups g0 = lanesIn s.groups g0 := congrArg (fun m => lanesIn m g0) (State.writeBackLine_groups s core la drop')

theorem State.baseChecks_lanesIn (s : State) (act : List Nat) (addr : Nat → Val) (go : State → State) (g0 : Nat) (hgo : ∀ x0, lanesIn (go x0).groups g0 = lanesIn x0.groups g0) : lanesIn (State.baseChecks s act addr go).groups g0 = lanesIn s.groups g0 := by
  unfold State.baseChecks
  repeat' (first | with_reducible rfl | intro _ | with_reducible refine (foldl_lanesIn _ _ _ _ ?_).trans ?_ | with_reducible refine (State.precise_lanesIn _ _ _ _ _ _ _ _).trans ?_ | with_reducible refine (hgo _).trans ?_ | dsimp only | split)

theorem State.sendAtomic_lanesIn (s : State) (z : AtomicIns) (x : Group) (pas : List (Nat × Nat × Page)) (va : Nat → W64) (g0 : Nat) : lanesIn (State.sendAtomic s z x pas va).groups g0 = lanesIn s.groups g0 := by
  unfold State.sendAtomic
  repeat' (first | with_reducible rfl | intro _ | with_reducible refine (foldl_lanesIn _ _ _ _ ?_).trans ?_ | with_reducible refine (State.mapLanes_lanesIn _ _ _ _ _).trans ?_ | with_reducible refine (State.sample_lanesIn _ _ _ _ _).trans ?_ | with_reducible refine (State.updCore_lanesIn _ _ _ _).trans ?_ | with_reducible refine (State.updGroup_lanesIn _ _ _ _ (by first | exact fun _ => rfl | (intro x; dsimp only; (repeat' split) <;> first | rfl | (simp; done)))).trans ?_ | dsimp only | split)

theorem State.updAtomic_lanesIn (s : State) (core id : Nat) (f : Atomic → Atomic) (g0 : Nat) : lanesIn (State.updAtomic s core id f).groups g0 = lanesIn s.groups g0 := congrArg (fun m => lanesIn m g0) (State.updAtomic_groups s core id f)

theorem State.countAtomic_lanesIn (s : State) (a : Atomic) (g0 : Nat) : lanesIn (State.countAtomic s a).groups g0 = lanesIn s.groups g0 := by
  unfold State.countAtomic
  repeat' (first | with_reducible rfl | intro _ | with_reducible refine (foldl_lanesIn _ _ _ _ ?_).trans ?_ | with_reducible refine (State.updGroup_lanesIn _ _ _ _ (by first | exact fun _ => rfl | (intro x; dsimp only; (repeat' split) <;> first | rfl | (simp; done)))).trans ?_ | dsimp only | split)

theorem State.endAtomic_lanesIn (s : State) (core id : Nat) (g0 : Nat) : lanesIn (State.endAtomic s core id).groups g0 = lanesIn s.groups g0 := by
  unfold State.endAtomic
  repeat' (first | with_reducible rfl | intro _ | with_reducible refine (foldl_lanesIn _ _ _ _ ?_).trans ?_ | with_reducible refine (State.countAtomic_lanesIn _ _ _).trans ?_ | with_reducible refine (State.deferred_lanesIn _ _ _ _ _ _ _ _ _ _).trans ?_ | with_reducible refine (State.updCore_lanesIn _ _ _ _).trans ?_ | dsimp only | split)

theorem State.unlock_lanesIn (s : State) (g lane uid : Nat) (regs : List Reg) (g0 : Nat) : lanesIn (State.unlock s g lane uid regs).groups g0 = lanesIn s.groups g0 := by
  unfold State.unlock
  repeat' (first | with_reducible rfl | intro _ | with_reducible refine (foldl_lanesIn _ _ _ _ ?_).trans ?_ | with_reducible refine (State.updFibre_lanesIn _ _ _ _ _).trans ?_ | dsimp only | split)

theorem State.acceptLane_lanesIn (s : State) (core id lane : Nat) (a : Atomic) (g0 : Nat) : lanesIn (State.acceptLane s core id lane a).groups g0 = lanesIn s.groups g0 := by
  unfold State.acceptLane
  repeat' (first | with_reducible rfl | intro _ | with_reducible refine (foldl_lanesIn _ _ _ _ ?_).trans ?_ | with_reducible refine (State.countAtomic_lanesIn _ _ _).trans ?_ | with_reducible refine (State.updAtomic_lanesIn _ _ _ _ _).trans ?_ | dsimp only | split)

theorem State.updSlot_lanesIn (s : State) (id : Nat) (f : Slot → Slot) (g0 : Nat) : lanesIn (State.updSlot s id f).groups g0 = lanesIn s.groups g0 := congrArg (fun m => lanesIn m g0) (State.updSlot_groups s id f)

theorem State.unbind_lanesIn (s : State) (v : Slot) (g0 : Nat) : lanesIn (State.unbind s v).groups g0 = lanesIn s.groups g0 := congrArg (fun m => lanesIn m g0) (State.unbind_groups s v)

theorem State.reapSlots_lanesIn (s : State) (g0 : Nat) : lanesIn (State.reapSlots s).groups g0 = lanesIn s.groups g0 := congrArg (fun m => lanesIn m g0) (State.reapSlots_groups s)

theorem State.takeBack_lanesIn (s : State) (new : Nat) (g0 : Nat) : lanesIn (s.takeBack new).groups g0 = lanesIn s.groups g0 := by
  unfold State.takeBack
  dsimp only
  refine lanesIn_mapVals _ _ _ ?_
  intro g x
  first | rfl | (split <;> rfl)

theorem State.arriving_lanesIn (s : State) (bar : Bar) (d : Nat) (g0 : Nat) : lanesIn (State.arriving s bar d).groups g0 = lanesIn s.groups g0 := by
  unfold State.arriving
  repeat' (first | with_reducible rfl | intro _ | with_reducible refine (foldl_lanesIn _ _ _ _ ?_).trans ?_ | with_reducible refine (State.wait_lanesIn _ _ _ _).trans ?_ | dsimp only | split)

theorem State.releaseCore_lanesIn (s : State) (grid core : Nat) (g0 : Nat) : lanesIn (State.releaseCore s grid core).groups g0 = lanesIn s.groups g0 := by
  unfold State.releaseCore
  repeat' (first | with_reducible rfl | intro _ | with_reducible refine (foldl_lanesIn _ _ _ _ ?_).trans ?_ | with_reducible refine (State.acquireL1_lanesIn _ _ _ _ _).trans ?_ | with_reducible refine (State.mapLanes_lanesIn _ _ _ _ _).trans ?_ | with_reducible refine (State.wait_lanesIn _ _ _ _).trans ?_ | dsimp only | split)

theorem State.lease_lanesIn (s : State) (e : Eff) (d : BitVec 7) (v : Option Nat) (g0 : Nat) : lanesIn (State.lease s e d v).groups g0 = lanesIn s.groups g0 := by
  unfold State.lease
  repeat' (first | with_reducible rfl | intro _ | with_reducible refine (foldl_lanesIn _ _ _ _ ?_).trans ?_ | with_reducible refine (State.complete_lanesIn _ _ _ _ _).trans ?_ | with_reducible refine (State.setDest_lanesIn _ _ _ _).trans ?_ | with_reducible refine (State.updGroup_lanesIn _ _ _ _ (by first | exact fun _ => rfl | (intro x; dsimp only; (repeat' split) <;> first | rfl | (simp; done)))).trans ?_ | dsimp only | split)

theorem State.writeQueue_lanesIn (s : State) (vf q field value : Nat) (g0 : Nat) : lanesIn (State.writeQueue s vf q field value).groups g0 = lanesIn s.groups g0 := congrArg (fun m => lanesIn m g0) (State.writeQueue_groups s vf q field value)

theorem State.readTail_lanesIn (s : State) (vf q : Nat) (g0 : Nat) : lanesIn (State.readTail s vf q).groups g0 = lanesIn s.groups g0 := congrArg (fun m => lanesIn m g0) (State.readTail_groups s vf q)

theorem State.released_lanesIn (s : State) (level : Nat) (lanes : List Nat) (go : State → State) (g0 : Nat) (hgo : ∀ x0, lanesIn (go x0).groups g0 = lanesIn x0.groups g0) : lanesIn (State.released s level lanes go).groups g0 = lanesIn s.groups g0 := by
  unfold State.released
  repeat' (first | with_reducible rfl | intro _ | with_reducible refine (foldl_lanesIn _ _ _ _ ?_).trans ?_ | with_reducible refine (State.mapLanes_lanesIn _ _ _ _ _).trans ?_ | with_reducible refine (State.wait_lanesIn _ _ _ _).trans ?_ | with_reducible refine (hgo _).trans ?_ | dsimp only | split)

theorem State.claimRows_lanesIn (s : State) (core track g : Nat) (g0 : Nat) : lanesIn (State.claimRows s core track g).groups g0 = lanesIn s.groups g0 := by
  unfold State.claimRows
  repeat' (first | with_reducible rfl | intro _ | with_reducible refine (foldl_lanesIn _ _ _ _ ?_).trans ?_ | with_reducible refine (State.updGroup_lanesIn _ _ _ _ (by first | exact fun _ => rfl | (intro x; dsimp only; (repeat' split) <;> first | rfl | (simp; done)))).trans ?_ | dsimp only | split)

theorem State.recallRows_lanesIn (s : State) (g : Nat) (g0 : Nat) : lanesIn (State.recallRows s g).groups g0 = lanesIn s.groups g0 := by
  unfold State.recallRows
  repeat' (first | with_reducible rfl | intro _ | with_reducible refine (foldl_lanesIn _ _ _ _ ?_).trans ?_ | with_reducible refine (State.claimRows_lanesIn _ _ _ _ _).trans ?_ | with_reducible refine (State.updGroup_lanesIn _ _ _ _ (by first | exact fun _ => rfl | (intro x; dsimp only; (repeat' split) <;> first | rfl | (simp; done)))).trans ?_ | dsimp only | split)

theorem State.sendAcquire_lanesIn (s : State) (x : Group) (dst : Dst) (form : LoadForm) (bytes scope : Nat) (victims : List Nat) (pas : List (Nat × Nat × Page)) (va : Nat → W64) (g0 : Nat) : lanesIn (State.sendAcquire s x dst form bytes scope victims pas va).groups g0 = lanesIn s.groups g0 := by
  unfold State.sendAcquire
  repeat' (first | with_reducible rfl | intro _ | with_reducible refine (foldl_lanesIn _ _ _ _ ?_).trans ?_ | with_reducible refine (State.mapLanes_lanesIn _ _ _ _ _).trans ?_ | with_reducible refine (State.sample_lanesIn _ _ _ _ _).trans ?_ | with_reducible refine (State.updCore_lanesIn _ _ _ _).trans ?_ | with_reducible refine (State.updGroup_lanesIn _ _ _ _ (by first | exact fun _ => rfl | (intro x; dsimp only; (repeat' split) <;> first | rfl | (simp; done)))).trans ?_ | dsimp only | split)

theorem State.acquireLine_lanesIn (s : State) (ctx core la mtype scope : Nat) (l2 conf : Bool) (g0 : Nat) : lanesIn (s.acquireLine ctx core la mtype scope l2 conf).1.groups g0 = lanesIn s.groups g0 :=
  congrArg (fun m => lanesIn m g0) (State.acquireLine_groups s ctx core la mtype scope l2 conf)

theorem State.acquireArrives_lanesIn (s : State) (core id lane scope : Nat) (l : Load) (e : LaneLoad) (g0 : Nat) : lanesIn (State.acquireArrives s core id lane scope l e).groups g0 = lanesIn s.groups g0 := by
  unfold State.acquireArrives
  repeat' (first | with_reducible rfl | intro _ | with_reducible refine (foldl_lanesIn _ _ _ _ ?_).trans ?_ | with_reducible refine (State.acquireLine_lanesIn _ _ _ _ _ _ _ _ _).trans ?_ | with_reducible refine (State.arrive_lanesIn _ _ _ _ _).trans ?_ | with_reducible refine (State.deliver_lanesIn _ _ _ _ _ _ _).trans ?_ | with_reducible refine (State.send_lanesIn _ _ _ _ _ _ _ ?_).trans ?_ | with_reducible refine (State.updCore_lanesIn _ _ _ _).trans ?_ | dsimp only | split)

theorem State.fence_lanesIn (s : State) (e : Eff) (kind scope : Nat) (range : Fibre → Option (W64 × Nat)) (g0 : Nat) : lanesIn (State.fence s e kind scope range).groups g0 = lanesIn s.groups g0 := by
  unfold State.fence
  repeat' (first | with_reducible rfl | intro _ | with_reducible refine (foldl_lanesIn _ _ _ _ ?_).trans ?_ | with_reducible refine (State.acquireL1_lanesIn _ _ _ _ _).trans ?_ | with_reducible refine (State.complete_lanesIn _ _ _ _ _).trans ?_ | with_reducible refine (State.mapLanes_lanesIn _ _ _ _ _).trans ?_ | with_reducible refine (State.narrow_lanesIn _ _ _).trans ?_ | with_reducible refine (State.wait_lanesIn _ _ _ _).trans ?_ | dsimp only | split)

theorem State.controlUnit_lanesIn (s : State) (eng : Nat) (ops : Fibre → List Ctl) (go : State → State) (g0 : Nat) (hgo : ∀ x0, lanesIn (go x0).groups g0 = lanesIn x0.groups g0) : lanesIn (State.controlUnit s eng ops go).groups g0 = lanesIn s.groups g0 := by
  unfold State.controlUnit
  repeat' (first | with_reducible rfl | intro _ | with_reducible refine (foldl_lanesIn _ _ _ _ ?_).trans ?_ | with_reducible refine (State.mapLanes_lanesIn _ _ _ _ _).trans ?_ | with_reducible refine (State.precise_lanesIn _ _ _ _ _ _ _ _).trans ?_ | with_reducible refine (State.releaseHolders_lanesIn _ _ _ _ _ _).trans ?_ | with_reducible refine (State.wait_lanesIn _ _ _ _).trans ?_ | with_reducible refine (hgo _).trans ?_ | dsimp only | split)

theorem State.copy_lanesIn (s : State) (z : CopyIns) (g0 : Nat) : lanesIn (State.copy s z).groups g0 = lanesIn s.groups g0 := by
  unfold State.copy
  repeat' (first | with_reducible rfl | intro _ | with_reducible refine (foldl_lanesIn _ _ _ _ ?_).trans ?_ | with_reducible refine (State.complete_lanesIn _ _ _ _ _).trans ?_ | with_reducible refine (State.controlUnit_lanesIn _ _ _ _ _ ?_).trans ?_ | with_reducible refine (State.plain_lanesIn _ _ _ _ ?_).trans ?_ | with_reducible refine (State.precise_lanesIn _ _ _ _ _ _ _ _).trans ?_ | with_reducible refine (State.updCore_lanesIn _ _ _ _).trans ?_ | with_reducible refine (State.updGroup_lanesIn _ _ _ _ (by first | exact fun _ => rfl | (intro x; dsimp only; (repeat' split) <;> first | rfl | (simp; done)))).trans ?_ | dsimp only | split)

theorem State.fetchSegs_lanesIn (s : State) (core : Nat) (l : List Seg) (g0 : Nat) : lanesIn (State.fetchSegs s core l).groups g0 = lanesIn s.groups g0 := congrArg (fun m => lanesIn m g0) (State.fetchSegs_groups s core l)

theorem State.reportSegs_lanesIn (s : State) (ctx core : Nat) (write : Bool) (l : List Seg) (g0 : Nat) : lanesIn (State.reportSegs s ctx core write l).groups g0 = lanesIn s.groups g0 := congrArg (fun m => lanesIn m g0) (State.reportSegs_groups s ctx core write l)

theorem State.updCopy_lanesIn (s : State) (core id : Nat) (f : Copy → Copy) (g0 : Nat) : lanesIn (State.updCopy s core id f).groups g0 = lanesIn s.groups g0 := congrArg (fun m => lanesIn m g0) (State.updCopy_groups s core id f)

theorem State.publish_lanesIn (s : State) (core : Nat) (lines : List Nat) (g0 : Nat) : lanesIn (State.publish s core lines).groups g0 = lanesIn s.groups g0 := congrArg (fun m => lanesIn m g0) (State.publish_groups s core lines)

theorem State.retireCopy_lanesIn (s : State) (core id : Nat) (c : Copy) (g0 : Nat) : lanesIn (State.retireCopy s core id c).groups g0 = lanesIn s.groups g0 := by
  unfold State.retireCopy
  repeat' (first | with_reducible rfl | intro _ | with_reducible refine (foldl_lanesIn _ _ _ _ ?_).trans ?_ | with_reducible refine (State.publish_lanesIn _ _ _ _).trans ?_ | with_reducible refine (State.updCore_lanesIn _ _ _ _).trans ?_ | with_reducible refine (State.updGroup_lanesIn _ _ _ _ (by first | exact fun _ => rfl | (intro x; dsimp only; (repeat' split) <;> first | rfl | (simp; done)))).trans ?_ | dsimp only | split)

theorem State.endCopy_lanesIn (s : State) (core id : Nat) (c : Copy) (cause sub info : Nat) (val : W64) (g0 : Nat) : lanesIn (State.endCopy s core id c cause sub info val).groups g0 = lanesIn s.groups g0 := by
  unfold State.endCopy
  repeat' (first | with_reducible rfl | intro _ | with_reducible refine (foldl_lanesIn _ _ _ _ ?_).trans ?_ | with_reducible refine (State.deferred_lanesIn _ _ _ _ _ _ _ _ _ _).trans ?_ | with_reducible refine (State.forget_lanesIn _ _ _ _).trans ?_ | with_reducible refine (State.retireCopy_lanesIn _ _ _ _ _).trans ?_ | with_reducible refine (State.updCore_lanesIn _ _ _ _).trans ?_ | dsimp only | split)

theorem State.setHandle_lanesIn (s : State) (h : Nat) (v : Handle) (g0 : Nat) : lanesIn (State.setHandle s h v).groups g0 = lanesIn s.groups g0 := by
  unfold State.setHandle
  repeat' (first | with_reducible rfl | intro _ | with_reducible refine (foldl_lanesIn _ _ _ _ ?_).trans ?_ | with_reducible refine (State.updGroup_lanesIn _ _ _ _ (by first | exact fun _ => rfl | (intro x; dsimp only; (repeat' split) <;> first | rfl | (simp; done)))).trans ?_ | dsimp only | split)

theorem State.handleFault_lanesIn (s : State) (sub : Nat) (c : HandleCheck) (g0 : Nat) : lanesIn (State.handleFault s sub c).groups g0 = lanesIn s.groups g0 := by
  unfold State.handleFault
  repeat' (first | with_reducible rfl | intro _ | with_reducible refine (foldl_lanesIn _ _ _ _ ?_).trans ?_ | with_reducible refine (State.precise_lanesIn _ _ _ _ _ _ _ _).trans ?_ | dsimp only | split)

theorem State.checkHandles_lanesIn (s : State) (checks : List HandleCheck) (go : State → State) (g0 : Nat) (hgo : ∀ x0, lanesIn (go x0).groups g0 = lanesIn x0.groups g0) : lanesIn (State.checkHandles s checks go).groups g0 = lanesIn s.groups g0 := by
  unfold State.checkHandles
  repeat' (first | with_reducible rfl | intro _ | with_reducible refine (foldl_lanesIn _ _ _ _ ?_).trans ?_ | with_reducible refine (State.handleFault_lanesIn _ _ _ _).trans ?_ | with_reducible refine (hgo _).trans ?_ | dsimp only | split)

theorem State.sendTile_lanesIn (s : State) (e : Eff) (o : TileOp) (fresh : Option (Bool × Nat)) (written : Fibre → List Reg) (g0 : Nat) : lanesIn (State.sendTile s e o fresh written).groups g0 = lanesIn s.groups g0 := by
  unfold State.sendTile
  repeat' (first | with_reducible rfl | intro _ | with_reducible refine (foldl_lanesIn _ _ _ _ ?_).trans ?_ | with_reducible refine (State.complete_lanesIn _ _ _ _ _).trans ?_ | with_reducible refine (State.setHandle_lanesIn _ _ _ _).trans ?_ | with_reducible refine (State.updCore_lanesIn _ _ _ _).trans ?_ | with_reducible refine (State.updGroup_lanesIn _ _ _ _ (by first | exact fun _ => rfl | (intro x; dsimp only; (repeat' split) <;> first | rfl | (simp; done)))).trans ?_ | with_reducible refine (State.wait_lanesIn _ _ _ _).trans ?_ | dsimp only | split)

theorem State.tileBase_lanesIn (s : State) (b : BitVec 7) (off : W64) (rowBytes : Nat) (write : Bool) (go : W64 → W64 → State → State) (g0 : Nat) (hgo : ∀ x0 x1 x2, lanesIn (go x0 x1 x2).groups g0 = lanesIn x2.groups g0) : lanesIn (State.tileBase s b off rowBytes write go).groups g0 = lanesIn s.groups g0 := by
  unfold State.tileBase
  repeat' (first | with_reducible rfl | intro _ | with_reducible refine (foldl_lanesIn _ _ _ _ ?_).trans ?_ | with_reducible refine (State.precise_lanesIn _ _ _ _ _ _ _ _).trans ?_ | with_reducible refine (hgo _ _ _).trans ?_ | dsimp only | split)

theorem State.scratchBase_lanesIn (s : State) (b : BitVec 7) (off : W64) (tag : Option Nat) (transposed write : Bool) (go : W64 → State → State) (g0 : Nat) (hgo : ∀ x0 x1, lanesIn (go x0 x1).groups g0 = lanesIn x1.groups g0) : lanesIn (State.scratchBase s b off tag transposed write go).groups g0 = lanesIn s.groups g0 := by
  unfold State.scratchBase
  repeat' (first | with_reducible rfl | intro _ | with_reducible refine (foldl_lanesIn _ _ _ _ ?_).trans ?_ | with_reducible refine (State.precise_lanesIn _ _ _ _ _ _ _ _).trans ?_ | with_reducible refine (hgo _ _).trans ?_ | dsimp only | split)

theorem State.sendQuarter_lanesIn (s : State) (z : MatrixIns) (old : Group) (id n : Nat) (g0 : Nat) : lanesIn (State.sendQuarter s z old id n).groups g0 = lanesIn s.groups g0 := by
  unfold State.sendQuarter
  repeat' (first | with_reducible rfl | intro _ | with_reducible refine (foldl_lanesIn _ _ _ _ ?_).trans ?_ | with_reducible refine (State.setHandle_lanesIn _ _ _ _).trans ?_ | with_reducible refine (State.updCore_lanesIn _ _ _ _).trans ?_ | dsimp only | split)

theorem State.matrix_lanesIn (s : State) (z : MatrixIns) (g0 : Nat) : lanesIn (State.matrix s z).groups g0 = lanesIn s.groups g0 := by
  unfold State.matrix
  repeat' (first | with_reducible rfl | intro _ | with_reducible refine (foldl_lanesIn _ _ _ _ ?_).trans ?_ | with_reducible refine (State.checkHandles_lanesIn _ _ _ _ ?_).trans ?_ | with_reducible refine (State.complete_lanesIn _ _ _ _ _).trans ?_ | with_reducible refine (State.plain_lanesIn _ _ _ _ ?_).trans ?_ | with_reducible refine (State.sendQuarter_lanesIn _ _ _ _ _ _).trans ?_ | with_reducible refine (State.updCore_lanesIn _ _ _ _).trans ?_ | with_reducible refine (State.updGroup_lanesIn _ _ _ _ (by first | exact fun _ => rfl | (intro x; dsimp only; (repeat' split) <;> first | rfl | (simp; done)))).trans ?_ | with_reducible refine (State.wait_lanesIn _ _ _ _).trans ?_ | dsimp only | split)

theorem State.endTile_lanesIn (s : State) (core id : Nat) (o : TileOp) (g0 : Nat) : lanesIn (State.endTile s core id o).groups g0 = lanesIn s.groups g0 := by
  unfold State.endTile
  repeat' (first | with_reducible rfl | intro _ | with_reducible refine (foldl_lanesIn _ _ _ _ ?_).trans ?_ | with_reducible refine (State.deferred_lanesIn _ _ _ _ _ _ _ _ _ _).trans ?_ | with_reducible refine (State.reapSlots_lanesIn _ _).trans ?_ | with_reducible refine (State.updCore_lanesIn _ _ _ _).trans ?_ | with_reducible refine (State.updGroup_lanesIn _ _ _ _ (by first | exact fun _ => rfl | (intro x; dsimp only; (repeat' split) <;> first | rfl | (simp; done)))).trans ?_ | dsimp only | split)

theorem State.failTile_lanesIn (s : State) (core id : Nat) (o : TileOp) (cause sub info : Nat) (val : W64) (g0 : Nat) : lanesIn (State.failTile s core id o cause sub info val).groups g0 = lanesIn s.groups g0 := by
  unfold State.failTile
  repeat' (first | with_reducible rfl | intro _ | with_reducible refine (foldl_lanesIn _ _ _ _ ?_).trans ?_ | with_reducible refine (State.deferred_lanesIn _ _ _ _ _ _ _ _ _ _).trans ?_ | with_reducible refine (State.endTile_lanesIn _ _ _ _ _).trans ?_ | with_reducible refine (State.forget_lanesIn _ _ _ _).trans ?_ | with_reducible refine (State.takeBack_lanesIn _ _ _).trans ?_ | dsimp only | split)

theorem State.failRows_lanesIn (s : State) (core id : Nat) (o : TileOp) (cause sub info : Nat) (va : W64) (g0 : Nat) : lanesIn (State.failRows s core id o cause sub info va).groups g0 = lanesIn s.groups g0 := by
  unfold State.failRows
  repeat' (first | with_reducible rfl | intro _ | with_reducible refine (foldl_lanesIn _ _ _ _ ?_).trans ?_ | with_reducible refine (State.failTile_lanesIn _ _ _ _ _ _ _ _ _).trans ?_ | with_reducible refine (State.reportWalk_lanesIn _ _ _ _ _).trans ?_ | dsimp only | split)

theorem State.warnGroup_lanesIn (s : State) (g : Nat) (w : W32) (g0 : Nat) : lanesIn (State.warnGroup s g w).groups g0 = lanesIn s.groups g0 := by
  unfold State.warnGroup
  repeat' (first | with_reducible rfl | intro _ | with_reducible refine (foldl_lanesIn _ _ _ _ ?_).trans ?_ | with_reducible refine (State.updGroup_lanesIn _ _ _ _ (by first | exact fun _ => rfl | (intro x; dsimp only; (repeat' split) <;> first | rfl | (simp; done)))).trans ?_ | with_reducible refine (State.warn_lanesIn _ _ _).trans ?_ | dsimp only | split)

theorem State.clearMark_lanesIn (s : State) (core la : Nat) (g0 : Nat) : lanesIn (State.clearMark s core la).groups g0 = lanesIn s.groups g0 := congrArg (fun m => lanesIn m g0) (State.clearMark_groups s core la)

theorem State.recallTile_lanesIn (s : State) (core ctx : Nat) (offs : List Nat) (g0 : Nat) : lanesIn (State.recallTile s core ctx offs).groups g0 = lanesIn s.groups g0 := congrArg (fun m => lanesIn m g0) (State.recallTile_groups s core ctx offs)

theorem State.updQuarter_lanesIn (s : State) (core id n : Nat) (f : Quarter → Quarter) (g0 : Nat) : lanesIn (State.updQuarter s core id n f).groups g0 = lanesIn s.groups g0 := congrArg (fun m => lanesIn m g0) (State.updQuarter_groups s core id n f)

theorem State.thaw_lanesIn (s : State) (ctx id n : Nat) (g0 : Nat) : lanesIn (State.thaw s ctx id n).groups g0 = lanesIn s.groups g0 := congrArg (fun m => lanesIn m g0) (State.thaw_groups s ctx id n)

theorem State.dropTlb_lanesIn (s : State) (ctx : Nat) (va : W64) (len : Nat) (g0 : Nat) : lanesIn (State.dropTlb s ctx va len).groups g0 = lanesIn s.groups g0 := congrArg (fun m => lanesIn m g0) (State.dropTlb_groups s ctx va len)

theorem State.publishCopies_lanesIn (s : State) (ctx : Nat) (g0 : Nat) : lanesIn (State.publishCopies s ctx).groups g0 = lanesIn s.groups g0 := congrArg (fun m => lanesIn m g0) (State.publishCopies_groups s ctx)

theorem State.endCopies_lanesIn (s : State) (ctx : Nat) (g0 : Nat) : lanesIn (State.endCopies s ctx).groups g0 = lanesIn s.groups g0 := congrArg (fun m => lanesIn m g0) (State.endCopies_groups s ctx)

theorem State.flipCopies_lanesIn (s : State) (ctx : Nat) (va : W64) (len : Nat) (on : Bool) (g0 : Nat) : lanesIn (State.flipCopies s ctx va len on).groups g0 = lanesIn s.groups g0 := congrArg (fun m => lanesIn m g0) (State.flipCopies_groups s ctx va len on)

theorem State.evictLine_lanesIn (s : State) (la : Nat) (g0 : Nat) : lanesIn (State.evictLine s la).groups g0 = lanesIn s.groups g0 := congrArg (fun m => lanesIn m g0) (State.evictLine_groups s la)

theorem State.sealHost_lanesIn (s : State) (key : Option Nat) (a n : Nat) (g0 : Nat) : lanesIn (State.sealHost s key a n).groups g0 = lanesIn s.groups g0 := congrArg (fun m => lanesIn m g0) (State.sealHost_groups s key a n)

theorem State.answerHost_lanesIn (s : State) (a n : Nat) (g0 : Nat) : lanesIn (State.answerHost s a n).groups g0 = lanesIn s.groups g0 := congrArg (fun m => lanesIn m g0) (State.answerHost_groups s a n)

theorem State.reportLine_lanesIn (s : State) (type la : Nat) (g0 : Nat) : lanesIn (State.reportLine s type la).groups g0 = lanesIn s.groups g0 := congrArg (fun m => lanesIn m g0) (State.reportLine_groups s type la)

theorem State.loseLine_lanesIn (s : State) (la : Nat) (g0 : Nat) : lanesIn (State.loseLine s la).groups g0 = lanesIn s.groups g0 := congrArg (fun m => lanesIn m g0) (State.loseLine_groups s la)

theorem State.fabric_lanesIn (s : State) (z : FabricIns) (go : Eff → State → State) (g0 : Nat) (hgo : ∀ x0 x1, lanesIn (go x0 x1).groups g0 = lanesIn x1.groups g0) : lanesIn (State.fabric s z go).groups g0 = lanesIn s.groups g0 := by
  unfold State.fabric
  repeat' (first | with_reducible rfl | intro _ | with_reducible refine (foldl_lanesIn _ _ _ _ ?_).trans ?_ | with_reducible refine (State.controlUnit_lanesIn _ _ _ _ _ ?_).trans ?_ | with_reducible refine (State.plain_lanesIn _ _ _ _ ?_).trans ?_ | with_reducible refine (State.precise_lanesIn _ _ _ _ _ _ _ _).trans ?_ | with_reducible refine (hgo _ _).trans ?_ | dsimp only | split)

theorem State.readAtIssue_lanesIn (s : State) (va : W64) (n : Nat) (go : List Byte → State → State) (g0 : Nat) (hgo : ∀ x0 x1, lanesIn (go x0 x1).groups g0 = lanesIn x1.groups g0) : lanesIn (State.readAtIssue s va n go).groups g0 = lanesIn s.groups g0 := by
  unfold State.readAtIssue
  repeat' (first | with_reducible rfl | intro _ | with_reducible refine (foldl_lanesIn _ _ _ _ ?_).trans ?_ | with_reducible refine (State.fillTlb_lanesIn _ _ _ _ _).trans ?_ | with_reducible refine (State.memFault_lanesIn _ _ _ _ _ _ _ _).trans ?_ | with_reducible refine (State.precise_lanesIn _ _ _ _ _ _ _ _).trans ?_ | with_reducible refine (State.readLine_lanesIn _ _ _ _ _ _ _).trans ?_ | with_reducible refine (State.reportReads_lanesIn _ _ _ _ _).trans ?_ | with_reducible refine (State.throughPort_lanesIn _ _ _ _ _ _ ?_).trans ?_ | with_reducible refine (State.waitReplay_lanesIn _ _ _ _ _).trans ?_ | with_reducible refine (State.walkPoison_lanesIn _ _ _ _ _ _).trans ?_ | with_reducible refine (hgo _ _).trans ?_ | dsimp only | split)

theorem State.writeStatus_lanesIn (s : State) (ctx : Nat) (addr : W64) (status : Nat) (g0 : Nat) : lanesIn (State.writeStatus s ctx addr status).groups g0 = lanesIn s.groups g0 := congrArg (fun m => lanesIn m g0) (State.writeStatus_groups s ctx addr status)

theorem State.endCall_lanesIn (s : State) (id : Nat) (c : Call) (status : Nat) (g0 : Nat) : lanesIn (State.endCall s id c status).groups g0 = lanesIn s.groups g0 := congrArg (fun m => lanesIn m g0) (State.endCall_groups s id c status)

theorem State.failCall_lanesIn (s : State) (id : Nat) (c : Call) (cause sub info : Nat) (va : W64) (g0 : Nat) : lanesIn (State.failCall s id c cause sub info va).groups g0 = lanesIn s.groups g0 := by
  unfold State.failCall
  repeat' (first | with_reducible rfl | intro _ | with_reducible refine (foldl_lanesIn _ _ _ _ ?_).trans ?_ | with_reducible refine (State.deferred_lanesIn _ _ _ _ _ _ _ _ _ _).trans ?_ | with_reducible refine (State.endCall_lanesIn _ _ _ _ _).trans ?_ | with_reducible refine (State.forget_lanesIn _ _ _ _).trans ?_ | dsimp only | split)

theorem State.updCall_lanesIn (s : State) (id : Nat) (f : Call → Call) (g0 : Nat) : lanesIn (State.updCall s id f).groups g0 = lanesIn s.groups g0 := congrArg (fun m => lanesIn m g0) (State.updCall_groups s id f)

theorem State.callPiece_lanesIn (s : State) (id : Nat) (c : Call) (kind : Kind) (p : W64 × Nat) (go : List Seg → State → State) (g0 : Nat) (hgo : ∀ x0 x1, lanesIn (go x0 x1).groups g0 = lanesIn x1.groups g0) : lanesIn (State.callPiece s id c kind p go).groups g0 = lanesIn s.groups g0 := by
  unfold State.callPiece
  repeat' (first | with_reducible rfl | intro _ | with_reducible refine (foldl_lanesIn _ _ _ _ ?_).trans ?_ | with_reducible refine (State.askSupervisor_lanesIn _ _ _ _).trans ?_ | with_reducible refine (State.failCall_lanesIn _ _ _ _ _ _ _ _).trans ?_ | with_reducible refine (State.reportSegs_lanesIn _ _ _ _ _ _).trans ?_ | with_reducible refine (State.reportWalk_lanesIn _ _ _ _ _).trans ?_ | with_reducible refine (State.send_lanesIn _ _ _ _ _ _ _ ?_).trans ?_ | with_reducible refine (hgo _ _).trans ?_ | dsimp only | split)

theorem State.readPiece_lanesIn (s : State) (id : Nat) (c : Call) (g0 : Nat) : lanesIn (State.readPiece s id c).groups g0 = lanesIn s.groups g0 := by
  unfold State.readPiece
  repeat' (first | with_reducible rfl | intro _ | with_reducible refine (foldl_lanesIn _ _ _ _ ?_).trans ?_ | with_reducible refine (State.callPiece_lanesIn _ _ _ _ _ _ _ ?_).trans ?_ | with_reducible refine (State.fetchSegs_lanesIn _ _ _ _).trans ?_ | with_reducible refine (State.updCall_lanesIn _ _ _ _).trans ?_ | dsimp only | split)

theorem State.finishCall_lanesIn (s : State) (id : Nat) (c : Call) (g0 : Nat) : lanesIn (State.finishCall s id c).groups g0 = lanesIn s.groups g0 := by
  unfold State.finishCall
  repeat' (first | with_reducible rfl | intro _ | with_reducible refine (foldl_lanesIn _ _ _ _ ?_).trans ?_ | with_reducible refine (State.deferred_lanesIn _ _ _ _ _ _ _ _ _ _).trans ?_ | with_reducible refine (State.endCall_lanesIn _ _ _ _ _).trans ?_ | dsimp only | split)

theorem State.sendPut_lanesIn (s : State) (id : Nat) (c : Call) (m : Comm) (g0 : Nat) : lanesIn (State.sendPut s id c m).groups g0 = lanesIn s.groups g0 := congrArg (fun m => lanesIn m g0) (State.sendPut_groups s id c m)

theorem State.joinCall_lanesIn (s : State) (id : Nat) (c : Call) (m : Comm) (others : List (Nat × List Byte)) (g0 : Nat) : lanesIn (State.joinCall s id c m others).groups g0 = lanesIn s.groups g0 := congrArg (fun m => lanesIn m g0) (State.joinCall_groups s id c m others)

theorem State.sending_lanesIn (s : State) (target : Nat) (go : State → State) (g0 : Nat) (hgo : ∀ x0, lanesIn (go x0).groups g0 = lanesIn x0.groups g0) : lanesIn (State.sending s target go).groups g0 = lanesIn s.groups g0 := by
  unfold State.sending
  repeat' (first | with_reducible rfl | intro _ | with_reducible refine (foldl_lanesIn _ _ _ _ ?_).trans ?_ | with_reducible refine (State.dropRequests_lanesIn _ _ _ _).trans ?_ | with_reducible refine (State.send_lanesIn _ _ _ _ _ _ _ ?_).trans ?_ | with_reducible refine (State.wait_lanesIn _ _ _ _).trans ?_ | with_reducible refine (hgo _).trans ?_ | dsimp only | split)

theorem State.csig_lanesIn (s : State) (i : Instr) (m : Mods) (d a b : BitVec 7) (add : Bool) (g0 : Nat) : lanesIn (State.csig s i m d a b add).groups g0 = lanesIn s.groups g0 := by
  unfold State.csig
  repeat' (first | with_reducible rfl | intro _ | with_reducible refine (foldl_lanesIn _ _ _ _ ?_).trans ?_ | with_reducible refine (State.complete_lanesIn _ _ _ _ _).trans ?_ | with_reducible refine (State.fabric_lanesIn _ _ _ _ ?_).trans ?_ | with_reducible refine (State.sending_lanesIn _ _ _ _ ?_).trans ?_ | dsimp only | split)

theorem State.answer_lanesIn (s : State) (g : Nat) (dst : List (Nat × Nat × Reg)) (v : Nat) (g0 : Nat) : lanesIn (State.answer s g dst v).groups g0 = lanesIn s.groups g0 := by
  unfold State.answer
  repeat' (first | with_reducible rfl | intro _ | with_reducible refine (foldl_lanesIn _ _ _ _ ?_).trans ?_ | with_reducible refine (State.landReg_lanesIn _ _ _ _ _ _ _ _).trans ?_ | with_reducible refine (State.settleGm_lanesIn _ _ _).trans ?_ | dsimp only | split)

theorem State.cwait_lanesIn (s : State) (i : Instr) (d a : BitVec 7) (n : Nat) (ctls : Fibre → List Ctl) (value : Fibre → Option W64) (g0 : Nat) : lanesIn (State.cwait s i d a n ctls value).groups g0 = lanesIn s.groups g0 := by
  unfold State.cwait
  repeat' (first | with_reducible rfl | intro _ | with_reducible refine (foldl_lanesIn _ _ _ _ ?_).trans ?_ | with_reducible refine (State.control_lanesIn _ _ _ _ _ ?_).trans ?_ | with_reducible refine (State.fillTlb_lanesIn _ _ _ _ _).trans ?_ | with_reducible refine (State.mapLanes_lanesIn _ _ _ _ _).trans ?_ | with_reducible refine (State.memFault_lanesIn _ _ _ _ _ _ _ _).trans ?_ | with_reducible refine (State.plain_lanesIn _ _ _ _ ?_).trans ?_ | with_reducible refine (State.precise_lanesIn _ _ _ _ _ _ _ _).trans ?_ | with_reducible refine (State.wait_lanesIn _ _ _ _).trans ?_ | with_reducible refine (State.waitReplay_lanesIn _ _ _ _ _).trans ?_ | with_reducible refine (State.walkPoison_lanesIn _ _ _ _ _ _).trans ?_ | dsimp only | split)

theorem State.endWait_lanesIn (s : State) (g lane core : Nat) (b : Fibre) (d words v : Nat) (last : List Reg) (g0 : Nat) : lanesIn (State.endWait s g lane core b d words v last).groups g0 = lanesIn s.groups g0 := by
  unfold State.endWait
  repeat' (first | with_reducible rfl | intro _ | with_reducible refine (foldl_lanesIn _ _ _ _ ?_).trans ?_ | with_reducible refine (State.acquireL1_lanesIn _ _ _ _ _).trans ?_ | with_reducible refine (State.releaseHolders_lanesIn _ _ _ _ _ _).trans ?_ | with_reducible refine (State.settleGm_lanesIn _ _ _).trans ?_ | with_reducible refine (State.updFibre_lanesIn _ _ _ _ _).trans ?_ | with_reducible refine (State.wait_lanesIn _ _ _ _).trans ?_ | dsimp only | split)

theorem State.unasked_lanesIn (s : State) (g lane : Nat) (g0 : Nat) : lanesIn (State.unasked s g lane).groups g0 = lanesIn s.groups g0 := by
  unfold State.unasked
  repeat' (first | with_reducible rfl | intro _ | with_reducible refine (foldl_lanesIn _ _ _ _ ?_).trans ?_ | with_reducible refine (State.updGroup_lanesIn _ _ _ _ (by first | exact fun _ => rfl | (intro x; dsimp only; (repeat' split) <;> first | rfl | (simp; done)))).trans ?_ | dsimp only | split)

theorem State.finishStep_lanesIn (s : State) (p : Pending) (g0 : Nat) : lanesIn (State.finishStep s p).groups g0 = lanesIn s.groups g0 := by
  unfold State.finishStep
  repeat' (first | with_reducible rfl | intro _ | with_reducible refine (foldl_lanesIn _ _ _ _ ?_).trans ?_ | with_reducible refine (State.answer_lanesIn _ _ _ _ _).trans ?_ | dsimp only | split)

theorem State.applyStep_lanesIn (s : State) (core track grid : Nat) (g0 : Nat) : lanesIn (State.applyStep s core track grid).groups g0 = lanesIn s.groups g0 := by
  unfold State.applyStep
  repeat' (first | with_reducible rfl | intro _ | with_reducible refine (foldl_lanesIn _ _ _ _ ?_).trans ?_ | with_reducible refine (State.finishStep_lanesIn _ _ _).trans ?_ | with_reducible refine (State.updCore_lanesIn _ _ _ _).trans ?_ | with_reducible refine (State.updGrid_lanesIn _ _ _ _).trans ?_ | dsimp only | split)

theorem State.reply_lanesIn (s : State) (endpoint id status : Nat) (g0 : Nat) : lanesIn (State.reply s endpoint id status).groups g0 = lanesIn s.groups g0 := congrArg (fun m => lanesIn m g0) (State.reply_groups s endpoint id status)

theorem State.refuseMessage_lanesIn (s : State) (vf endpoint id : Nat) (g0 : Nat) : lanesIn (State.refuseMessage s vf endpoint id).groups g0 = lanesIn s.groups g0 := congrArg (fun m => lanesIn m g0) (State.refuseMessage_groups s vf endpoint id)

theorem State.answerTo_lanesIn (s : State) (endpoint id : Nat) (error : Bool) (g0 : Nat) : lanesIn (State.answerTo s endpoint id error).groups g0 = lanesIn s.groups g0 := congrArg (fun m => lanesIn m g0) (State.answerTo_groups s endpoint id error)

theorem State.reportSparing_lanesIn (s : State) (what : Nat) (addr : W64) (place : Nat) (g0 : Nat) : lanesIn (State.reportSparing s what addr place).groups g0 = lanesIn s.groups g0 := congrArg (fun m => lanesIn m g0) (State.reportSparing_groups s what addr place)

theorem State.cacheCode_lanesIn (s : State) (x : Group) (l : List (Nat × Bool)) (g0 : Nat) : lanesIn (State.cacheCode s x l).groups g0 = lanesIn s.groups g0 := congrArg (fun m => lanesIn m g0) (State.cacheCode_groups s x l)

theorem State.fetched_lanesIn (s : State) (g : Nat) (x : Group) (pc : W64) (n : Nat) (g0 : Nat) : lanesIn (State.fetched s g x pc n).groups g0 = lanesIn s.groups g0 := congrArg (fun m => lanesIn m g0) (State.fetched_groups s g x pc n)

theorem State.fetchTried_lanesIn (s : State) (g : Nat) (x : Group) (pc val : W64) (cause sub n : Nat) (g0 : Nat) : lanesIn (State.fetchTried s g x pc val cause sub n).groups g0 = lanesIn s.groups g0 := congrArg (fun m => lanesIn m g0) (State.fetchTried_groups s g x pc val cause sub n)

theorem State.fetchAhead_lanesIn (s : State) (g : Nat) (g0 : Nat) : lanesIn (State.fetchAhead s g).groups g0 = lanesIn s.groups g0 := congrArg (fun m => lanesIn m g0) (State.fetchAhead_groups s g)

theorem State.updRequest_lanesIn (s : State) (core id lane : Nat) (f : Option Nat → Option Nat) (n : Nat) (g0 : Nat) : lanesIn (State.updRequest s core id lane f n).groups g0 = lanesIn s.groups g0 := by
  unfold State.updRequest
  repeat' (first | with_reducible rfl | intro _ | with_reducible refine (foldl_lanesIn _ _ _ _ ?_).trans ?_ | with_reducible refine (State.updCall_lanesIn _ _ _ _).trans ?_ | with_reducible refine (State.updCore_lanesIn _ _ _ _).trans ?_ | with_reducible refine (State.updGroup_lanesIn _ _ _ _ (by first | exact fun _ => rfl | (intro x; dsimp only; (repeat' split) <;> first | rfl | (simp; done)))).trans ?_ | dsimp only | split)

theorem State.noteSent_lanesIn (s : State) (g0 : Nat) : lanesIn s.noteSent.groups g0 = lanesIn s.groups g0 := by
  unfold State.noteSent
  dsimp only
  refine (lanesIn_mapVals _ _ _ (fun g x => by split <;> rfl)).trans ?_
  repeat' (first | with_reducible rfl | intro _ | with_reducible refine (foldl_lanesIn _ _ _ _ ?_).trans ?_ | with_reducible refine (State.updRequest_lanesIn _ _ _ _ _ _ _).trans ?_ | dsimp only | split)

theorem State.failReading_lanesIn (s : State) (g : Nat) (x : Group) (lane sub port : Nat) (r : Reading) (g0 : Nat) : lanesIn (State.failReading s g x lane sub port r).groups g0 = lanesIn s.groups g0 := by
  unfold State.failReading
  repeat' (first | with_reducible rfl | intro _ | with_reducible refine (foldl_lanesIn _ _ _ _ ?_).trans ?_ | with_reducible refine (State.deferred_lanesIn _ _ _ _ _ _ _ _ _ _).trans ?_ | with_reducible refine (State.keep_lanesIn _ _ _ _ _).trans ?_ | with_reducible refine (State.port_lanesIn _ _ _ _ _ _).trans ?_ | with_reducible refine (State.precise_lanesIn _ _ _ _ _ _ _ _).trans ?_ | with_reducible refine (State.updGroup_lanesIn _ _ _ _ (by first | exact fun _ => rfl | (intro x; dsimp only; (repeat' split) <;> first | rfl | (simp; done)))).trans ?_ | with_reducible refine (State.wait_lanesIn _ _ _ _).trans ?_ | dsimp only | split)

theorem State.revokeContext_lanesIn (s : State) (ctx : Nat) (g0 : Nat) : lanesIn (State.revokeContext s ctx).groups g0 = lanesIn s.groups g0 := congrArg (fun m => lanesIn m g0) (State.revokeContext_groups s ctx)

theorem State.haltDead_lanesIn (s : State) (ctx : Nat) (g0 : Nat) : lanesIn (State.haltDead s ctx).groups g0 = lanesIn s.groups g0 := by
  unfold State.haltDead
  repeat' (first | with_reducible rfl | intro _ | with_reducible refine (foldl_lanesIn _ _ _ _ ?_).trans ?_ | with_reducible refine (State.raiseHalt_lanesIn _ _ _ _ _ _ _ _ _).trans ?_ | with_reducible refine (State.updHalt_lanesIn _ _ _ _).trans ?_ | dsimp only | split)

theorem State.updVf_lanesIn (s : State) (vf : Nat) (f : Vf → Vf) (g0 : Nat) : lanesIn (State.updVf s vf f).groups g0 = lanesIn s.groups g0 := congrArg (fun m => lanesIn m g0) (State.updVf_groups s vf f)

theorem State.refillPort_lanesIn (s : State) (core boundary : Nat) (g0 : Nat) : lanesIn (State.refillPort s core boundary).groups g0 = lanesIn s.groups g0 := congrArg (fun m => lanesIn m g0) (State.refillPort_groups s core boundary)

theorem State.refillAt_lanesIn (s : State) (boundary core : Nat) (g0 : Nat) : lanesIn (State.refillAt s boundary core).groups g0 = lanesIn s.groups g0 := congrArg (fun m => lanesIn m g0) (State.refillAt_groups s boundary core)

theorem State.refillDue_lanesIn (s : State) (n : Nat) (g0 : Nat) : lanesIn (State.refillDue s n).groups g0 = lanesIn s.groups g0 := congrArg (fun m => lanesIn m g0) (State.refillDue_groups s n)

theorem State.updPkg_lanesIn (s : State) (f : Package → Package) (g0 : Nat) : lanesIn (State.updPkg s f).groups g0 = lanesIn s.groups g0 := congrArg (fun m => lanesIn m g0) (State.updPkg_groups s f)

theorem State.mapTracks_lanesIn (s : State) (cores : List Nat) (f : Track → Track) (g0 : Nat) : lanesIn (State.mapTracks s cores f).groups g0 = lanesIn s.groups g0 := congrArg (fun m => lanesIn m g0) (State.mapTracks_groups s cores f)

theorem State.noteNoise_lanesIn (s : State) (die : Nat) (cores : List (Nat × Nat)) (g0 : Nat) : lanesIn (State.noteNoise s die cores).groups g0 = lanesIn s.groups g0 := congrArg (fun m => lanesIn m g0) (State.noteNoise_groups s die cores)

theorem State.strikeArray_lanesIn (s : State) (die core array : Nat) (va : W64) (g0 : Nat) : lanesIn (State.strikeArray s die core array va).groups g0 = lanesIn s.groups g0 := by
  unfold State.strikeArray
  repeat' (first | with_reducible rfl | intro _ | with_reducible refine (foldl_lanesIn _ _ _ _ ?_).trans ?_ | with_reducible refine (State.deferred_lanesIn _ _ _ _ _ _ _ _ _ _).trans ?_ | with_reducible refine (State.reportLine_lanesIn _ _ _ _).trans ?_ | with_reducible refine (State.updCore_lanesIn _ _ _ _).trans ?_ | with_reducible refine (State.updDie_lanesIn _ _ _ _).trans ?_ | with_reducible refine (State.updSlot_lanesIn _ _ _ _).trans ?_ | dsimp only | split)

theorem State.selfTest_lanesIn (s : State) (core : Nat) (g0 : Nat) : lanesIn (State.selfTest s core).groups g0 = lanesIn s.groups g0 := congrArg (fun m => lanesIn m g0) (State.selfTest_groups s core)

theorem State.train_lanesIn (s : State) (c : Nat × Nat × Nat) (g0 : Nat) : lanesIn (State.train s c).groups g0 = lanesIn s.groups g0 := congrArg (fun m => lanesIn m g0) (State.train_groups s c)

theorem State.releaseJunctions_lanesIn (s : State) (g : Nat) (g0 : Nat) : lanesIn (State.releaseJunctions s g).groups g0 = lanesIn s.groups g0 := by
  unfold State.releaseJunctions
  repeat' (first | with_reducible rfl | intro _ | with_reducible refine (foldl_lanesIn _ _ _ _ ?_).trans ?_ | with_reducible refine (State.releaseJunction_lanesIn _ _ _ _).trans ?_ | dsimp only | split)

theorem State.countPort_lanesIn (s : State) (g : Nat) (w : W32) (lanes : Nat) (g0 : Nat) : lanesIn (State.countPort s g w lanes).groups g0 = lanesIn s.groups g0 := congrArg (fun m => lanesIn m g0) (State.countPort_groups s g w lanes)

theorem State.illegal_lanesIn (s : State) (r : Reject) (words : List W32) (g0 : Nat) : lanesIn (State.illegal s r words).groups g0 = lanesIn s.groups g0 := by
  unfold State.illegal
  repeat' (first | with_reducible rfl | intro _ | with_reducible refine (foldl_lanesIn _ _ _ _ ?_).trans ?_ | with_reducible refine (State.precise_lanesIn _ _ _ _ _ _ _ _).trans ?_ | dsimp only | split)

theorem State.moveGroup_lanesIn (s : State) (g : Nat) (set : GSet) (g0 : Nat) : lanesIn (State.moveGroup s g set).groups g0 = lanesIn s.groups g0 := by
  unfold State.moveGroup
  repeat' (first | with_reducible rfl | intro _ | with_reducible refine (foldl_lanesIn _ _ _ _ ?_).trans ?_ | with_reducible refine (State.updGroup_lanesIn _ _ _ _ (by first | exact fun _ => rfl | (intro x; dsimp only; (repeat' split) <;> first | rfl | (simp; done)))).trans ?_ | dsimp only | split)

theorem scalar_lanesIn (i : Instr) (dst : Dst) (a b : Src) (q : Option Nat) (op : Env → Out) (s : State) (g0 : Nat) : lanesIn (scalar i dst a b q op s).groups g0 = lanesIn s.groups g0 := by
  unfold scalar
  repeat' (first | with_reducible rfl | intro _ | with_reducible refine (foldl_lanesIn _ _ _ _ ?_).trans ?_ | with_reducible refine (State.alu_lanesIn _ _ _).trans ?_ | dsimp only | split)

theorem scalar2_lanesIn (i : Instr) (m : Mods) (t : BitVec 2) (d a b : BitVec 7) (op : Bool → Int → Int → Nat) (s : State) (g0 : Nat) : lanesIn (scalar2 i m t d a b op s).groups g0 = lanesIn s.groups g0 := by
  unfold scalar2
  repeat' (first | with_reducible rfl | intro _ | with_reducible refine (foldl_lanesIn _ _ _ _ ?_).trans ?_ | with_reducible refine (scalar_lanesIn _ _ _ _ _ _ _ _).trans ?_ | dsimp only | split)

theorem scalarBits_lanesIn (i : Instr) (m : Mods) (d a b : BitVec 7) (op : Nat → Nat → Nat) (s : State) (g0 : Nat) : lanesIn (scalarBits i m d a b op s).groups g0 = lanesIn s.groups g0 := by
  unfold scalarBits
  repeat' (first | with_reducible rfl | intro _ | with_reducible refine (foldl_lanesIn _ _ _ _ ?_).trans ?_ | with_reducible refine (scalar_lanesIn _ _ _ _ _ _ _ _).trans ?_ | dsimp only | split)

theorem scalarShift_lanesIn (i : Instr) (m : Mods) (kty : Nat) (d a b : BitVec 7) (op : Int → Nat → Int) (s : State) (g0 : Nat) : lanesIn (scalarShift i m kty d a b op s).groups g0 = lanesIn s.groups g0 := by
  unfold scalarShift
  repeat' (first | with_reducible rfl | intro _ | with_reducible refine (foldl_lanesIn _ _ _ _ ?_).trans ?_ | with_reducible refine (scalar_lanesIn _ _ _ _ _ _ _ _).trans ?_ | dsimp only | split)

theorem vec_lanesIn (i : Instr) (dst : Dst) (a b c : Src) (q : Option Nat) (op : Env → Out) (s : State) (g0 : Nat) : lanesIn (vec i dst a b c q op s).groups g0 = lanesIn s.groups g0 := by
  unfold vec
  repeat' (first | with_reducible rfl | intro _ | with_reducible refine (foldl_lanesIn _ _ _ _ ?_).trans ?_ | with_reducible refine (State.alu_lanesIn _ _ _).trans ?_ | dsimp only | split)

theorem vec2_lanesIn (i : Instr) (m : Mods) (t : BitVec 3) (d a b : BitVec 7) (op : Bool → Int → Int → Int) (s : State) (g0 : Nat) : lanesIn (vec2 i m t d a b op s).groups g0 = lanesIn s.groups g0 := by
  unfold vec2
  repeat' (first | with_reducible rfl | intro _ | with_reducible refine (foldl_lanesIn _ _ _ _ ?_).trans ?_ | with_reducible refine (vec_lanesIn _ _ _ _ _ _ _ _ _).trans ?_ | dsimp only | split)

theorem vec1_lanesIn (i : Instr) (t : BitVec 3) (d a : BitVec 7) (op : Int → Int) (s : State) (g0 : Nat) : lanesIn (vec1 i t d a op s).groups g0 = lanesIn s.groups g0 := by
  unfold vec1
  repeat' (first | with_reducible rfl | intro _ | with_reducible refine (foldl_lanesIn _ _ _ _ ?_).trans ?_ | with_reducible refine (vec_lanesIn _ _ _ _ _ _ _ _ _).trans ?_ | dsimp only | split)

theorem vecBits_lanesIn (i : Instr) (m : Mods) (t : BitVec 3) (d a b : BitVec 7) (op : Nat → Nat → Nat) (s : State) (g0 : Nat) : lanesIn (vecBits i m t d a b op s).groups g0 = lanesIn s.groups g0 := by
  unfold vecBits
  repeat' (first | with_reducible rfl | intro _ | with_reducible refine (foldl_lanesIn _ _ _ _ ?_).trans ?_ | with_reducible refine (vec_lanesIn _ _ _ _ _ _ _ _ _).trans ?_ | dsimp only | split)

theorem vecShift_lanesIn (i : Instr) (m : Mods) (t : BitVec 3) (d a b : BitVec 7) (op : Nat → Nat → Int) (s : State) (g0 : Nat) : lanesIn (vecShift i m t d a b op s).groups g0 = lanesIn s.groups g0 := by
  unfold vecShift
  repeat' (first | with_reducible rfl | intro _ | with_reducible refine (foldl_lanesIn _ _ _ _ ?_).trans ?_ | with_reducible refine (vec_lanesIn _ _ _ _ _ _ _ _ _).trans ?_ | dsimp only | split)

theorem vecCount_lanesIn (i : Instr) (t : BitVec 3) (d a : BitVec 7) (op : Nat → Nat → Nat) (s : State) (g0 : Nat) : lanesIn (vecCount i t d a op s).groups g0 = lanesIn s.groups g0 := by
  unfold vecCount
  repeat' (first | with_reducible rfl | intro _ | with_reducible refine (foldl_lanesIn _ _ _ _ ?_).trans ?_ | with_reducible refine (vec_lanesIn _ _ _ _ _ _ _ _ _).trans ?_ | dsimp only | split)

theorem vecCmp_lanesIn (i : Instr) (m : Mods) (t : BitVec 3) (d a b : BitVec 7) (op : Int → Int → Bool) (s : State) (g0 : Nat) : lanesIn (vecCmp i m t d a b op s).groups g0 = lanesIn s.groups g0 := by
  unfold vecCmp
  repeat' (first | with_reducible rfl | intro _ | with_reducible refine (foldl_lanesIn _ _ _ _ ?_).trans ?_ | with_reducible refine (vec_lanesIn _ _ _ _ _ _ _ _ _).trans ?_ | dsimp only | split)

theorem pred_lanesIn (i : Instr) (d a b : BitVec 7) (op : Nat → Nat → Nat) (s : State) (g0 : Nat) : lanesIn (pred i d a b op s).groups g0 = lanesIn s.groups g0 := by
  unfold pred
  repeat' (first | with_reducible rfl | intro _ | with_reducible refine (foldl_lanesIn _ _ _ _ ?_).trans ?_ | with_reducible refine (vec_lanesIn _ _ _ _ _ _ _ _ _).trans ?_ | dsimp only | split)

theorem flt_lanesIn (i : Instr) (dst : Dst) (a b c : Src) (warn : W32) (op : Env → Out) (s : State) (g0 : Nat) : lanesIn (flt i dst a b c warn op s).groups g0 = lanesIn s.groups g0 := by
  unfold flt
  repeat' (first | with_reducible rfl | intro _ | with_reducible refine (foldl_lanesIn _ _ _ _ ?_).trans ?_ | with_reducible refine (State.alu_lanesIn _ _ _).trans ?_ | with_reducible refine (State.warn_lanesIn _ _ _).trans ?_ | dsimp only | split)

theorem flt2_lanesIn (i : Instr) (m : Mods) (t : BitVec 2) (d a b : BitVec 7) (op : Env → Num → Num → Nat × Nat) (s : State) (g0 : Nat) : lanesIn (flt2 i m t d a b op s).groups g0 = lanesIn s.groups g0 := by
  unfold flt2
  repeat' (first | with_reducible rfl | intro _ | with_reducible refine (foldl_lanesIn _ _ _ _ ?_).trans ?_ | with_reducible refine (flt_lanesIn _ _ _ _ _ _ _ _ _).trans ?_ | dsimp only | split)

theorem fltBits_lanesIn (i : Instr) (m : Mods) (t : BitVec 2) (d a b : BitVec 7) (op : Nat → Nat → Nat × Nat) (s : State) (g0 : Nat) : lanesIn (fltBits i m t d a b op s).groups g0 = lanesIn s.groups g0 := by
  unfold fltBits
  repeat' (first | with_reducible rfl | intro _ | with_reducible refine (foldl_lanesIn _ _ _ _ ?_).trans ?_ | with_reducible refine (flt_lanesIn _ _ _ _ _ _ _ _ _).trans ?_ | dsimp only | split)

theorem fltCmp_lanesIn (i : Instr) (m : Mods) (t : BitVec 2) (d a b : BitVec 7) (c : Nat) (s : State) (g0 : Nat) : lanesIn (fltCmp i m t d a b c s).groups g0 = lanesIn s.groups g0 := by
  unfold fltCmp
  repeat' (first | with_reducible rfl | intro _ | with_reducible refine (foldl_lanesIn _ _ _ _ ?_).trans ?_ | with_reducible refine (flt_lanesIn _ _ _ _ _ _ _ _ _).trans ?_ | dsimp only | split)

theorem packed_lanesIn (i : Instr) (m : Mods) (f : BitVec 1) (d a b : BitVec 7) (c : Src) (srcs : Env → List Val) (op : Env → Bool → Nat × Nat) (s : State) (g0 : Nat) : lanesIn (packed i m f d a b c srcs op s).groups g0 = lanesIn s.groups g0 := by
  unfold packed
  repeat' (first | with_reducible rfl | intro _ | with_reducible refine (foldl_lanesIn _ _ _ _ ?_).trans ?_ | with_reducible refine (flt_lanesIn _ _ _ _ _ _ _ _ _).trans ?_ | dsimp only | split)

theorem cross_lanesIn (i : Instr) (dst : Dst) (a b : Src) (fp : Bool) (srcs : Env → List Val) (op : List Env → Env → Nat × Nat) (s : State) (g0 : Nat) : lanesIn (cross i dst a b fp srcs op s).groups g0 = lanesIn s.groups g0 := by
  unfold cross
  repeat' (first | with_reducible rfl | intro _ | with_reducible refine (foldl_lanesIn _ _ _ _ ?_).trans ?_ | with_reducible refine (State.alu_lanesIn _ _ _).trans ?_ | dsimp only | split)

theorem sfu_lanesIn (i : Instr) (k : Special) (t : BitVec 2) (d a : BitVec 7) (s : State) (g0 : Nat) : lanesIn (sfu i k t d a s).groups g0 = lanesIn s.groups g0 := by
  unfold sfu
  repeat' (first | with_reducible rfl | intro _ | with_reducible refine (foldl_lanesIn _ _ _ _ ?_).trans ?_ | with_reducible refine (State.alu_lanesIn _ _ _).trans ?_ | dsimp only | split)

end Sys2Proof.Machine
end

