-- ==== Sys2Proof/Laws/Layout.lean ====
section
/-! SUPPORT. What the fields of a word laid out as a list of parts read, for every layout of the encoding tables. -/

namespace Sys2Proof.Laws

theorem fld_7_1_3_7_4_3_7_at_0_7 (p0 : BitVec 7) (p1 : BitVec 1) (p2 : BitVec 3) (p3 : BitVec 7) (p4 : BitVec 4) (p5 : BitVec 3) (p6 : BitVec 7) :
    fld (p0 ++ p1 ++ p2 ++ p3 ++ p4 ++ p5 ++ p6) 0 7 = p6 := by
  change @BitVec.extractLsb' (7+1+3+7+4+3+7) 0 7 (p0 ++ p1 ++ p2 ++ p3 ++ p4 ++ p5 ++ p6) = p6
  exact BitVec.extractLsb'_append_eq_right
theorem fld_7_1_3_7_4_3_7_at_7_3 (p0 : BitVec 7) (p1 : BitVec 1) (p2 : BitVec 3) (p3 : BitVec 7) (p4 : BitVec 4) (p5 : BitVec 3) (p6 : BitVec 7) :
    fld (p0 ++ p1 ++ p2 ++ p3 ++ p4 ++ p5 ++ p6) 7 3 = p5 := by
  change @BitVec.extractLsb' (7+1+3+7+4+3+7) 7 3 (p0 ++ p1 ++ p2 ++ p3 ++ p4 ++ p5 ++ p6) = p5
  rw [BitVec.extractLsb'_append_eq_of_le (by decide)]
  exact BitVec.extractLsb'_append_eq_right
theorem fld_7_1_3_7_4_3_7_at_10_4 (p0 : BitVec 7) (p1 : BitVec 1) (p2 : BitVec 3) (p3 : BitVec 7) (p4 : BitVec 4) (p5 : BitVec 3) (p6 : BitVec 7) :
    fld (p0 ++ p1 ++ p2 ++ p3 ++ p4 ++ p5 ++ p6) 10 4 = p4 := by
  change @BitVec.extractLsb' (7+1+3+7+4+3+7) 10 4 (p0 ++ p1 ++ p2 ++ p3 ++ p4 ++ p5 ++ p6) = p4
  rw [BitVec.extractLsb'_append_eq_of_le (by decide), BitVec.extractLsb'_append_eq_of_le (by decide)]
  exact BitVec.extractLsb'_append_eq_right
theorem fld_7_1_3_7_4_3_7_at_14_7 (p0 : BitVec 7) (p1 : BitVec 1) (p2 : BitVec 3) (p3 : BitVec 7) (p4 : BitVec 4) (p5 : BitVec 3) (p6 : BitVec 7) :
    fld (p0 ++ p1 ++ p2 ++ p3 ++ p4 ++ p5 ++ p6) 14 7 = p3 := by
  change @BitVec.extractLsb' (7+1+3+7+4+3+7) 14 7 (p0 ++ p1 ++ p2 ++ p3 ++ p4 ++ p5 ++ p6) = p3
  rw [BitVec.extractLsb'_append_eq_of_le (by decide), BitVec.extractLsb'_append_eq_of_le (by decide), BitVec.extractLsb'_append_eq_of_le (by decide)]
  exact BitVec.extractLsb'_append_eq_right
theorem fld_7_1_3_7_4_3_7_at_21_3 (p0 : BitVec 7) (p1 : BitVec 1) (p2 : BitVec 3) (p3 : BitVec 7) (p4 : BitVec 4) (p5 : BitVec 3) (p6 : BitVec 7) :
    fld (p0 ++ p1 ++ p2 ++ p3 ++ p4 ++ p5 ++ p6) 21 3 = p2 := by
  change @BitVec.extractLsb' (7+1+3+7+4+3+7) 21 3 (p0 ++ p1 ++ p2 ++ p3 ++ p4 ++ p5 ++ p6) = p2
  rw [BitVec.extractLsb'_append_eq_of_le (by decide), BitVec.extractLsb'_append_eq_of_le (by decide), BitVec.extractLsb'_append_eq_of_le (by decide), BitVec.extractLsb'_append_eq_of_le (by decide)]
  exact BitVec.extractLsb'_append_eq_right
theorem fld_7_1_3_7_4_3_7_at_24_1 (p0 : BitVec 7) (p1 : BitVec 1) (p2 : BitVec 3) (p3 : BitVec 7) (p4 : BitVec 4) (p5 : BitVec 3) (p6 : BitVec 7) :
    fld (p0 ++ p1 ++ p2 ++ p3 ++ p4 ++ p5 ++ p6) 24 1 = p1 := by
  change @BitVec.extractLsb' (7+1+3+7+4+3+7) 24 1 (p0 ++ p1 ++ p2 ++ p3 ++ p4 ++ p5 ++ p6) = p1
  rw [BitVec.extractLsb'_append_eq_of_le (by decide), BitVec.extractLsb'_append_eq_of_le (by decide), BitVec.extractLsb'_append_eq_of_le (by decide), BitVec.extractLsb'_append_eq_of_le (by decide), BitVec.extractLsb'_append_eq_of_le (by decide)]
  exact BitVec.extractLsb'_append_eq_right
theorem fld_8_1_1_1_7_4_3_7_at_0_7 (p0 : BitVec 8) (p1 : BitVec 1) (p2 : BitVec 1) (p3 : BitVec 1) (p4 : BitVec 7) (p5 : BitVec 4) (p6 : BitVec 3) (p7 : BitVec 7) :
    fld (p0 ++ p1 ++ p2 ++ p3 ++ p4 ++ p5 ++ p6 ++ p7) 0 7 = p7 := by
  change @BitVec.extractLsb' (8+1+1+1+7+4+3+7) 0 7 (p0 ++ p1 ++ p2 ++ p3 ++ p4 ++ p5 ++ p6 ++ p7) = p7
  exact BitVec.extractLsb'_append_eq_right
theorem fld_8_1_1_1_7_4_3_7_at_7_3 (p0 : BitVec 8) (p1 : BitVec 1) (p2 : BitVec 1) (p3 : BitVec 1) (p4 : BitVec 7) (p5 : BitVec 4) (p6 : BitVec 3) (p7 : BitVec 7) :
    fld (p0 ++ p1 ++ p2 ++ p3 ++ p4 ++ p5 ++ p6 ++ p7) 7 3 = p6 := by
  change @BitVec.extractLsb' (8+1+1+1+7+4+3+7) 7 3 (p0 ++ p1 ++ p2 ++ p3 ++ p4 ++ p5 ++ p6 ++ p7) = p6
  rw [BitVec.extractLsb'_append_eq_of_le (by decide)]
  exact BitVec.extractLsb'_append_eq_right
theorem fld_8_1_1_1_7_4_3_7_at_10_4 (p0 : BitVec 8) (p1 : BitVec 1) (p2 : BitVec 1) (p3 : BitVec 1) (p4 : BitVec 7) (p5 : BitVec 4) (p6 : BitVec 3) (p7 : BitVec 7) :
    fld (p0 ++ p1 ++ p2 ++ p3 ++ p4 ++ p5 ++ p6 ++ p7) 10 4 = p5 := by
  change @BitVec.extractLsb' (8+1+1+1+7+4+3+7) 10 4 (p0 ++ p1 ++ p2 ++ p3 ++ p4 ++ p5 ++ p6 ++ p7) = p5
  rw [BitVec.extractLsb'_append_eq_of_le (by decide), BitVec.extractLsb'_append_eq_of_le (by decide)]
  exact BitVec.extractLsb'_append_eq_right
theorem fld_8_1_1_1_7_4_3_7_at_14_7 (p0 : BitVec 8) (p1 : BitVec 1) (p2 : BitVec 1) (p3 : BitVec 1) (p4 : BitVec 7) (p5 : BitVec 4) (p6 : BitVec 3) (p7 : BitVec 7) :
    fld (p0 ++ p1 ++ p2 ++ p3 ++ p4 ++ p5 ++ p6 ++ p7) 14 7 = p4 := by
  change @BitVec.extractLsb' (8+1+1+1+7+4+3+7) 14 7 (p0 ++ p1 ++ p2 ++ p3 ++ p4 ++ p5 ++ p6 ++ p7) = p4
  rw [BitVec.extractLsb'_append_eq_of_le (by decide), BitVec.extractLsb'_append_eq_of_le (by decide), BitVec.extractLsb'_append_eq_of_le (by decide)]
  exact BitVec.extractLsb'_append_eq_right
theorem fld_8_1_1_1_7_4_3_7_at_21_1 (p0 : BitVec 8) (p1 : BitVec 1) (p2 : BitVec 1) (p3 : BitVec 1) (p4 : BitVec 7) (p5 : BitVec 4) (p6 : BitVec 3) (p7 : BitVec 7) :
    fld (p0 ++ p1 ++ p2 ++ p3 ++ p4 ++ p5 ++ p6 ++ p7) 21 1 = p3 := by
  change @BitVec.extractLsb' (8+1+1+1+7+4+3+7) 21 1 (p0 ++ p1 ++ p2 ++ p3 ++ p4 ++ p5 ++ p6 ++ p7) = p3
  rw [BitVec.extractLsb'_append_eq_of_le (by decide), BitVec.extractLsb'_append_eq_of_le (by decide), BitVec.extractLsb'_append_eq_of_le (by decide), BitVec.extractLsb'_append_eq_of_le (by decide)]
  exact BitVec.extractLsb'_append_eq_right
theorem fld_8_1_1_1_7_4_3_7_at_22_1 (p0 : BitVec 8) (p1 : BitVec 1) (p2 : BitVec 1) (p3 : BitVec 1) (p4 : BitVec 7) (p5 : BitVec 4) (p6 : BitVec 3) (p7 : BitVec 7) :
    fld (p0 ++ p1 ++ p2 ++ p3 ++ p4 ++ p5 ++ p6 ++ p7) 22 1 = p2 := by
  change @BitVec.extractLsb' (8+1+1+1+7+4+3+7) 22 1 (p0 ++ p1 ++ p2 ++ p3 ++ p4 ++ p5 ++ p6 ++ p7) = p2
  rw [BitVec.extractLsb'_append_eq_of_le (by decide), BitVec.extractLsb'_append_eq_of_le (by decide), BitVec.extractLsb'_append_eq_of_le (by decide), BitVec.extractLsb'_append_eq_of_le (by decide), BitVec.extractLsb'_append_eq_of_le (by decide)]
  exact BitVec.extractLsb'_append_eq_right
theorem fld_8_1_1_1_7_4_3_7_at_23_1 (p0 : BitVec 8) (p1 : BitVec 1) (p2 : BitVec 1) (p3 : BitVec 1) (p4 : BitVec 7) (p5 : BitVec 4) (p6 : BitVec 3) (p7 : BitVec 7) :
    fld (p0 ++ p1 ++ p2 ++ p3 ++ p4 ++ p5 ++ p6 ++ p7) 23 1 = p1 := by
  change @BitVec.extractLsb' (8+1+1+1+7+4+3+7) 23 1 (p0 ++ p1 ++ p2 ++ p3 ++ p4 ++ p5 ++ p6 ++ p7) = p1
  rw [BitVec.extractLsb'_append_eq_of_le (by decide), BitVec.extractLsb'_append_eq_of_le (by decide), BitVec.extractLsb'_append_eq_of_le (by decide), BitVec.extractLsb'_append_eq_of_le (by decide), BitVec.extractLsb'_append_eq_of_le (by decide), BitVec.extractLsb'_append_eq_of_le (by decide)]
  exact BitVec.extractLsb'_append_eq_right
theorem fld_8_1_1_1_7_4_3_7_at_24_8 (p0 : BitVec 8) (p1 : BitVec 1) (p2 : BitVec 1) (p3 : BitVec 1) (p4 : BitVec 7) (p5 : BitVec 4) (p6 : BitVec 3) (p7 : BitVec 7) :
    fld (p0 ++ p1 ++ p2 ++ p3 ++ p4 ++ p5 ++ p6 ++ p7) 24 8 = p0 := by
  change @BitVec.extractLsb' (8+1+1+1+7+4+3+7) 24 8 (p0 ++ p1 ++ p2 ++ p3 ++ p4 ++ p5 ++ p6 ++ p7) = p0
  rw [BitVec.extractLsb'_append_eq_of_le (by decide), BitVec.extractLsb'_append_eq_of_le (by decide), BitVec.extractLsb'_append_eq_of_le (by decide), BitVec.extractLsb'_append_eq_of_le (by decide), BitVec.extractLsb'_append_eq_of_le (by decide), BitVec.extractLsb'_append_eq_of_le (by decide)]
  exact BitVec.extractLsb'_append_eq_left
theorem fld_8_1_1_1_7_7_7_at_0_7 (p0 : BitVec 8) (p1 : BitVec 1) (p2 : BitVec 1) (p3 : BitVec 1) (p4 : BitVec 7) (p5 : BitVec 7) (p6 : BitVec 7) :
    fld (p0 ++ p1 ++ p2 ++ p3 ++ p4 ++ p5 ++ p6) 0 7 = p6 := by
  change @BitVec.extractLsb' (8+1+1+1+7+7+7) 0 7 (p0 ++ p1 ++ p2 ++ p3 ++ p4 ++ p5 ++ p6) = p6
  exact BitVec.extractLsb'_append_eq_right
theorem fld_8_1_1_1_7_7_7_at_7_7 (p0 : BitVec 8) (p1 : BitVec 1) (p2 : BitVec 1) (p3 : BitVec 1) (p4 : BitVec 7) (p5 : BitVec 7) (p6 : BitVec 7) :
    fld (p0 ++ p1 ++ p2 ++ p3 ++ p4 ++ p5 ++ p6) 7 7 = p5 := by
  change @BitVec.extractLsb' (8+1+1+1+7+7+7) 7 7 (p0 ++ p1 ++ p2 ++ p3 ++ p4 ++ p5 ++ p6) = p5
  rw [BitVec.extractLsb'_append_eq_of_le (by decide)]
  exact BitVec.extractLsb'_append_eq_right
theorem fld_8_1_1_1_7_7_7_at_14_7 (p0 : BitVec 8) (p1 : BitVec 1) (p2 : BitVec 1) (p3 : BitVec 1) (p4 : BitVec 7) (p5 : BitVec 7) (p6 : BitVec 7) :
    fld (p0 ++ p1 ++ p2 ++ p3 ++ p4 ++ p5 ++ p6) 14 7 = p4 := by
  change @BitVec.extractLsb' (8+1+1+1+7+7+7) 14 7 (p0 ++ p1 ++ p2 ++ p3 ++ p4 ++ p5 ++ p6) = p4
  rw [BitVec.extractLsb'_append_eq_of_le (by decide), BitVec.extractLsb'_append_eq_of_le (by decide)]
  exact BitVec.extractLsb'_append_eq_right
theorem fld_8_1_1_1_7_7_7_at_21_1 (p0 : BitVec 8) (p1 : BitVec 1) (p2 : BitVec 1) (p3 : BitVec 1) (p4 : BitVec 7) (p5 : BitVec 7) (p6 : BitVec 7) :
    fld (p0 ++ p1 ++ p2 ++ p3 ++ p4 ++ p5 ++ p6) 21 1 = p3 := by
  change @BitVec.extractLsb' (8+1+1+1+7+7+7) 21 1 (p0 ++ p1 ++ p2 ++ p3 ++ p4 ++ p5 ++ p6) = p3
  rw [BitVec.extractLsb'_append_eq_of_le (by decide), BitVec.extractLsb'_append_eq_of_le (by decide), BitVec.extractLsb'_append_eq_of_le (by decide)]
  exact BitVec.extractLsb'_append_eq_right
theorem fld_8_1_1_1_7_7_7_at_22_1 (p0 : BitVec 8) (p1 : BitVec 1) (p2 : BitVec 1) (p3 : BitVec 1) (p4 : BitVec 7) (p5 : BitVec 7) (p6 : BitVec 7) :
    fld (p0 ++ p1 ++ p2 ++ p3 ++ p4 ++ p5 ++ p6) 22 1 = p2 := by
  change @BitVec.extractLsb' (8+1+1+1+7+7+7) 22 1 (p0 ++ p1 ++ p2 ++ p3 ++ p4 ++ p5 ++ p6) = p2
  rw [BitVec.extractLsb'_append_eq_of_le (by decide), BitVec.extractLsb'_append_eq_of_le (by decide), BitVec.extractLsb'_append_eq_of_le (by decide), BitVec.extractLsb'_append_eq_of_le (by decide)]
  exact BitVec.extractLsb'_append_eq_right
theorem fld_8_1_1_1_7_7_7_at_23_1 (p0 : BitVec 8) (p1 : BitVec 1) (p2 : BitVec 1) (p3 : BitVec 1) (p4 : BitVec 7) (p5 : BitVec 7) (p6 : BitVec 7) :
    fld (p0 ++ p1 ++ p2 ++ p3 ++ p4 ++ p5 ++ p6) 23 1 = p1 := by
  change @BitVec.extractLsb' (8+1+1+1+7+7+7) 23 1 (p0 ++ p1 ++ p2 ++ p3 ++ p4 ++ p5 ++ p6) = p1
  rw [BitVec.extractLsb'_append_eq_of_le (by decide), BitVec.extractLsb'_append_eq_of_le (by decide), BitVec.extractLsb'_append_eq_of_le (by decide), BitVec.extractLsb'_append_eq_of_le (by decide), BitVec.extractLsb'_append_eq_of_le (by decide)]
  exact BitVec.extractLsb'_append_eq_right
theorem fld_8_1_1_1_7_7_7_at_24_8 (p0 : BitVec 8) (p1 : BitVec 1) (p2 : BitVec 1) (p3 : BitVec 1) (p4 : BitVec 7) (p5 : BitVec 7) (p6 : BitVec 7) :
    fld (p0 ++ p1 ++ p2 ++ p3 ++ p4 ++ p5 ++ p6) 24 8 = p0 := by
  change @BitVec.extractLsb' (8+1+1+1+7+7+7) 24 8 (p0 ++ p1 ++ p2 ++ p3 ++ p4 ++ p5 ++ p6) = p0
  rw [BitVec.extractLsb'_append_eq_of_le (by decide), BitVec.extractLsb'_append_eq_of_le (by decide), BitVec.extractLsb'_append_eq_of_le (by decide), BitVec.extractLsb'_append_eq_of_le (by decide), BitVec.extractLsb'_append_eq_of_le (by decide)]
  exact BitVec.extractLsb'_append_eq_left
theorem fld_8_1_2_7_4_3_7_at_0_7 (p0 : BitVec 8) (p1 : BitVec 1) (p2 : BitVec 2) (p3 : BitVec 7) (p4 : BitVec 4) (p5 : BitVec 3) (p6 : BitVec 7) :
    fld (p0 ++ p1 ++ p2 ++ p3 ++ p4 ++ p5 ++ p6) 0 7 = p6 := by
  change @BitVec.extractLsb' (8+1+2+7+4+3+7) 0 7 (p0 ++ p1 ++ p2 ++ p3 ++ p4 ++ p5 ++ p6) = p6
  exact BitVec.extractLsb'_append_eq_right
theorem fld_8_1_2_7_4_3_7_at_7_3 (p0 : BitVec 8) (p1 : BitVec 1) (p2 : BitVec 2) (p3 : BitVec 7) (p4 : BitVec 4) (p5 : BitVec 3) (p6 : BitVec 7) :
    fld (p0 ++ p1 ++ p2 ++ p3 ++ p4 ++ p5 ++ p6) 7 3 = p5 := by
  change @BitVec.extractLsb' (8+1+2+7+4+3+7) 7 3 (p0 ++ p1 ++ p2 ++ p3 ++ p4 ++ p5 ++ p6) = p5
  rw [BitVec.extractLsb'_append_eq_of_le (by decide)]
  exact BitVec.extractLsb'_append_eq_right
theorem fld_8_1_2_7_4_3_7_at_10_4 (p0 : BitVec 8) (p1 : BitVec 1) (p2 : BitVec 2) (p3 : BitVec 7) (p4 : BitVec 4) (p5 : BitVec 3) (p6 : BitVec 7) :
    fld (p0 ++ p1 ++ p2 ++ p3 ++ p4 ++ p5 ++ p6) 10 4 = p4 := by
  change @BitVec.extractLsb' (8+1+2+7+4+3+7) 10 4 (p0 ++ p1 ++ p2 ++ p3 ++ p4 ++ p5 ++ p6) = p4
  rw [BitVec.extractLsb'_append_eq_of_le (by decide), BitVec.extractLsb'_append_eq_of_le (by decide)]
  exact BitVec.extractLsb'_append_eq_right
theorem fld_8_1_2_7_4_3_7_at_14_7 (p0 : BitVec 8) (p1 : BitVec 1) (p2 : BitVec 2) (p3 : BitVec 7) (p4 : BitVec 4) (p5 : BitVec 3) (p6 : BitVec 7) :
    fld (p0 ++ p1 ++ p2 ++ p3 ++ p4 ++ p5 ++ p6) 14 7 = p3 := by
  change @BitVec.extractLsb' (8+1+2+7+4+3+7) 14 7 (p0 ++ p1 ++ p2 ++ p3 ++ p4 ++ p5 ++ p6) = p3
  rw [BitVec.extractLsb'_append_eq_of_le (by decide), BitVec.extractLsb'_append_eq_of_le (by decide), BitVec.extractLsb'_append_eq_of_le (by decide)]
  exact BitVec.extractLsb'_append_eq_right
theorem fld_8_1_2_7_4_3_7_at_21_2 (p0 : BitVec 8) (p1 : BitVec 1) (p2 : BitVec 2) (p3 : BitVec 7) (p4 : BitVec 4) (p5 : BitVec 3) (p6 : BitVec 7) :
    fld (p0 ++ p1 ++ p2 ++ p3 ++ p4 ++ p5 ++ p6) 21 2 = p2 := by
  change @BitVec.extractLsb' (8+1+2+7+4+3+7) 21 2 (p0 ++ p1 ++ p2 ++ p3 ++ p4 ++ p5 ++ p6) = p2
  rw [BitVec.extractLsb'_append_eq_of_le (by decide), BitVec.extractLsb'_append_eq_of_le (by decide), BitVec.extractLsb'_append_eq_of_le (by decide), BitVec.extractLsb'_append_eq_of_le (by decide)]
  exact BitVec.extractLsb'_append_eq_right
theorem fld_8_1_2_7_4_3_7_at_23_1 (p0 : BitVec 8) (p1 : BitVec 1) (p2 : BitVec 2) (p3 : BitVec 7) (p4 : BitVec 4) (p5 : BitVec 3) (p6 : BitVec 7) :
    fld (p0 ++ p1 ++ p2 ++ p3 ++ p4 ++ p5 ++ p6) 23 1 = p1 := by
  change @BitVec.extractLsb' (8+1+2+7+4+3+7) 23 1 (p0 ++ p1 ++ p2 ++ p3 ++ p4 ++ p5 ++ p6) = p1
  rw [BitVec.extractLsb'_append_eq_of_le (by decide), BitVec.extractLsb'_append_eq_of_le (by decide), BitVec.extractLsb'_append_eq_of_le (by decide), BitVec.extractLsb'_append_eq_of_le (by decide), BitVec.extractLsb'_append_eq_of_le (by decide)]
  exact BitVec.extractLsb'_append_eq_right
theorem fld_8_1_2_7_4_3_7_at_24_8 (p0 : BitVec 8) (p1 : BitVec 1) (p2 : BitVec 2) (p3 : BitVec 7) (p4 : BitVec 4) (p5 : BitVec 3) (p6 : BitVec 7) :
    fld (p0 ++ p1 ++ p2 ++ p3 ++ p4 ++ p5 ++ p6) 24 8 = p0 := by
  change @BitVec.extractLsb' (8+1+2+7+4+3+7) 24 8 (p0 ++ p1 ++ p2 ++ p3 ++ p4 ++ p5 ++ p6) = p0
  rw [BitVec.extractLsb'_append_eq_of_le (by decide), BitVec.extractLsb'_append_eq_of_le (by decide), BitVec.extractLsb'_append_eq_of_le (by decide), BitVec.extractLsb'_append_eq_of_le (by decide), BitVec.extractLsb'_append_eq_of_le (by decide)]
  exact BitVec.extractLsb'_append_eq_left
theorem fld_8_1_2_7_7_2_5_at_0_5 (p0 : BitVec 8) (p1 : BitVec 1) (p2 : BitVec 2) (p3 : BitVec 7) (p4 : BitVec 7) (p5 : BitVec 2) (p6 : BitVec 5) :
    fld (p0 ++ p1 ++ p2 ++ p3 ++ p4 ++ p5 ++ p6) 0 5 = p6 := by
  change @BitVec.extractLsb' (8+1+2+7+7+2+5) 0 5 (p0 ++ p1 ++ p2 ++ p3 ++ p4 ++ p5 ++ p6) = p6
  exact BitVec.extractLsb'_append_eq_right
theorem fld_8_1_2_7_7_2_5_at_5_2 (p0 : BitVec 8) (p1 : BitVec 1) (p2 : BitVec 2) (p3 : BitVec 7) (p4 : BitVec 7) (p5 : BitVec 2) (p6 : BitVec 5) :
    fld (p0 ++ p1 ++ p2 ++ p3 ++ p4 ++ p5 ++ p6) 5 2 = p5 := by
  change @BitVec.extractLsb' (8+1+2+7+7+2+5) 5 2 (p0 ++ p1 ++ p2 ++ p3 ++ p4 ++ p5 ++ p6) = p5
  rw [BitVec.extractLsb'_append_eq_of_le (by decide)]
  exact BitVec.extractLsb'_append_eq_right
theorem fld_8_1_2_7_7_2_5_at_7_7 (p0 : BitVec 8) (p1 : BitVec 1) (p2 : BitVec 2) (p3 : BitVec 7) (p4 : BitVec 7) (p5 : BitVec 2) (p6 : BitVec 5) :
    fld (p0 ++ p1 ++ p2 ++ p3 ++ p4 ++ p5 ++ p6) 7 7 = p4 := by
  change @BitVec.extractLsb' (8+1+2+7+7+2+5) 7 7 (p0 ++ p1 ++ p2 ++ p3 ++ p4 ++ p5 ++ p6) = p4
  rw [BitVec.extractLsb'_append_eq_of_le (by decide), BitVec.extractLsb'_append_eq_of_le (by decide)]
  exact BitVec.extractLsb'_append_eq_right
theorem fld_8_1_2_7_7_2_5_at_14_7 (p0 : BitVec 8) (p1 : BitVec 1) (p2 : BitVec 2) (p3 : BitVec 7) (p4 : BitVec 7) (p5 : BitVec 2) (p6 : BitVec 5) :
    fld (p0 ++ p1 ++ p2 ++ p3 ++ p4 ++ p5 ++ p6) 14 7 = p3 := by
  change @BitVec.extractLsb' (8+1+2+7+7+2+5) 14 7 (p0 ++ p1 ++ p2 ++ p3 ++ p4 ++ p5 ++ p6) = p3
  rw [BitVec.extractLsb'_append_eq_of_le (by decide), BitVec.extractLsb'_append_eq_of_le (by decide), BitVec.extractLsb'_append_eq_of_le (by decide)]
  exact BitVec.extractLsb'_append_eq_right
theorem fld_8_1_2_7_7_2_5_at_21_2 (p0 : BitVec 8) (p1 : BitVec 1) (p2 : BitVec 2) (p3 : BitVec 7) (p4 : BitVec 7) (p5 : BitVec 2) (p6 : BitVec 5) :
    fld (p0 ++ p1 ++ p2 ++ p3 ++ p4 ++ p5 ++ p6) 21 2 = p2 := by
  change @BitVec.extractLsb' (8+1+2+7+7+2+5) 21 2 (p0 ++ p1 ++ p2 ++ p3 ++ p4 ++ p5 ++ p6) = p2
  rw [BitVec.extractLsb'_append_eq_of_le (by decide), BitVec.extractLsb'_append_eq_of_le (by decide), BitVec.extractLsb'_append_eq_of_le (by decide), BitVec.extractLsb'_append_eq_of_le (by decide)]
  exact BitVec.extractLsb'_append_eq_right
theorem fld_8_1_2_7_7_2_5_at_23_1 (p0 : BitVec 8) (p1 : BitVec 1) (p2 : BitVec 2) (p3 : BitVec 7) (p4 : BitVec 7) (p5 : BitVec 2) (p6 : BitVec 5) :
    fld (p0 ++ p1 ++ p2 ++ p3 ++ p4 ++ p5 ++ p6) 23 1 = p1 := by
  change @BitVec.extractLsb' (8+1+2+7+7+2+5) 23 1 (p0 ++ p1 ++ p2 ++ p3 ++ p4 ++ p5 ++ p6) = p1
  rw [BitVec.extractLsb'_append_eq_of_le (by decide), BitVec.extractLsb'_append_eq_of_le (by decide), BitVec.extractLsb'_append_eq_of_le (by decide), BitVec.extractLsb'_append_eq_of_le (by decide), BitVec.extractLsb'_append_eq_of_le (by decide)]
  exact BitVec.extractLsb'_append_eq_right
theorem fld_8_1_2_7_7_2_5_at_24_8 (p0 : BitVec 8) (p1 : BitVec 1) (p2 : BitVec 2) (p3 : BitVec 7) (p4 : BitVec 7) (p5 : BitVec 2) (p6 : BitVec 5) :
    fld (p0 ++ p1 ++ p2 ++ p3 ++ p4 ++ p5 ++ p6) 24 8 = p0 := by
  change @BitVec.extractLsb' (8+1+2+7+7+2+5) 24 8 (p0 ++ p1 ++ p2 ++ p3 ++ p4 ++ p5 ++ p6) = p0
  rw [BitVec.extractLsb'_append_eq_of_le (by decide), BitVec.extractLsb'_append_eq_of_le (by decide), BitVec.extractLsb'_append_eq_of_le (by decide), BitVec.extractLsb'_append_eq_of_le (by decide), BitVec.extractLsb'_append_eq_of_le (by decide)]
  exact BitVec.extractLsb'_append_eq_left
theorem fld_8_1_2_7_7_7_at_0_7 (p0 : BitVec 8) (p1 : BitVec 1) (p2 : BitVec 2) (p3 : BitVec 7) (p4 : BitVec 7) (p5 : BitVec 7) :
    fld (p0 ++ p1 ++ p2 ++ p3 ++ p4 ++ p5) 0 7 = p5 := by
  change @BitVec.extractLsb' (8+1+2+7+7+7) 0 7 (p0 ++ p1 ++ p2 ++ p3 ++ p4 ++ p5) = p5
  exact BitVec.extractLsb'_append_eq_right
theorem fld_8_1_2_7_7_7_at_7_7 (p0 : BitVec 8) (p1 : BitVec 1) (p2 : BitVec 2) (p3 : BitVec 7) (p4 : BitVec 7) (p5 : BitVec 7) :
    fld (p0 ++ p1 ++ p2 ++ p3 ++ p4 ++ p5) 7 7 = p4 := by
  change @BitVec.extractLsb' (8+1+2+7+7+7) 7 7 (p0 ++ p1 ++ p2 ++ p3 ++ p4 ++ p5) = p4
  rw [BitVec.extractLsb'_append_eq_of_le (by decide)]
  exact BitVec.extractLsb'_append_eq_right
theorem fld_8_1_2_7_7_7_at_14_7 (p0 : BitVec 8) (p1 : BitVec 1) (p2 : BitVec 2) (p3 : BitVec 7) (p4 : BitVec 7) (p5 : BitVec 7) :
    fld (p0 ++ p1 ++ p2 ++ p3 ++ p4 ++ p5) 14 7 = p3 := by
  change @BitVec.extractLsb' (8+1+2+7+7+7) 14 7 (p0 ++ p1 ++ p2 ++ p3 ++ p4 ++ p5) = p3
  rw [BitVec.extractLsb'_append_eq_of_le (by decide), BitVec.extractLsb'_append_eq_of_le (by decide)]
  exact BitVec.extractLsb'_append_eq_right
theorem fld_8_1_2_7_7_7_at_21_2 (p0 : BitVec 8) (p1 : BitVec 1) (p2 : BitVec 2) (p3 : BitVec 7) (p4 : BitVec 7) (p5 : BitVec 7) :
    fld (p0 ++ p1 ++ p2 ++ p3 ++ p4 ++ p5) 21 2 = p2 := by
  change @BitVec.extractLsb' (8+1+2+7+7+7) 21 2 (p0 ++ p1 ++ p2 ++ p3 ++ p4 ++ p5) = p2
  rw [BitVec.extractLsb'_append_eq_of_le (by decide), BitVec.extractLsb'_append_eq_of_le (by decide), BitVec.extractLsb'_append_eq_of_le (by decide)]
  exact BitVec.extractLsb'_append_eq_right
theorem fld_8_1_2_7_7_7_at_23_1 (p0 : BitVec 8) (p1 : BitVec 1) (p2 : BitVec 2) (p3 : BitVec 7) (p4 : BitVec 7) (p5 : BitVec 7) :
    fld (p0 ++ p1 ++ p2 ++ p3 ++ p4 ++ p5) 23 1 = p1 := by
  change @BitVec.extractLsb' (8+1+2+7+7+7) 23 1 (p0 ++ p1 ++ p2 ++ p3 ++ p4 ++ p5) = p1
  rw [BitVec.extractLsb'_append_eq_of_le (by decide), BitVec.extractLsb'_append_eq_of_le (by decide), BitVec.extractLsb'_append_eq_of_le (by decide), BitVec.extractLsb'_append_eq_of_le (by decide)]
  exact BitVec.extractLsb'_append_eq_right
theorem fld_8_1_2_7_7_7_at_24_8 (p0 : BitVec 8) (p1 : BitVec 1) (p2 : BitVec 2) (p3 : BitVec 7) (p4 : BitVec 7) (p5 : BitVec 7) :
    fld (p0 ++ p1 ++ p2 ++ p3 ++ p4 ++ p5) 24 8 = p0 := by
  change @BitVec.extractLsb' (8+1+2+7+7+7) 24 8 (p0 ++ p1 ++ p2 ++ p3 ++ p4 ++ p5) = p0
  rw [BitVec.extractLsb'_append_eq_of_le (by decide), BitVec.extractLsb'_append_eq_of_le (by decide), BitVec.extractLsb'_append_eq_of_le (by decide), BitVec.extractLsb'_append_eq_of_le (by decide)]
  exact BitVec.extractLsb'_append_eq_left
theorem fld_8_2_1_3_4_3_4_3_4_at_0_4 (p0 : BitVec 8) (p1 : BitVec 2) (p2 : BitVec 1) (p3 : BitVec 3) (p4 : BitVec 4) (p5 : BitVec 3) (p6 : BitVec 4) (p7 : BitVec 3) (p8 : BitVec 4) :
    fld (p0 ++ p1 ++ p2 ++ p3 ++ p4 ++ p5 ++ p6 ++ p7 ++ p8) 0 4 = p8 := by
  change @BitVec.extractLsb' (8+2+1+3+4+3+4+3+4) 0 4 (p0 ++ p1 ++ p2 ++ p3 ++ p4 ++ p5 ++ p6 ++ p7 ++ p8) = p8
  exact BitVec.extractLsb'_append_eq_right
theorem fld_8_2_1_3_4_3_4_3_4_at_4_3 (p0 : BitVec 8) (p1 : BitVec 2) (p2 : BitVec 1) (p3 : BitVec 3) (p4 : BitVec 4) (p5 : BitVec 3) (p6 : BitVec 4) (p7 : BitVec 3) (p8 : BitVec 4) :
    fld (p0 ++ p1 ++ p2 ++ p3 ++ p4 ++ p5 ++ p6 ++ p7 ++ p8) 4 3 = p7 := by
  change @BitVec.extractLsb' (8+2+1+3+4+3+4+3+4) 4 3 (p0 ++ p1 ++ p2 ++ p3 ++ p4 ++ p5 ++ p6 ++ p7 ++ p8) = p7
  rw [BitVec.extractLsb'_append_eq_of_le (by decide)]
  exact BitVec.extractLsb'_append_eq_right
theorem fld_8_2_1_3_4_3_4_3_4_at_7_4 (p0 : BitVec 8) (p1 : BitVec 2) (p2 : BitVec 1) (p3 : BitVec 3) (p4 : BitVec 4) (p5 : BitVec 3) (p6 : BitVec 4) (p7 : BitVec 3) (p8 : BitVec 4) :
    fld (p0 ++ p1 ++ p2 ++ p3 ++ p4 ++ p5 ++ p6 ++ p7 ++ p8) 7 4 = p6 := by
  change @BitVec.extractLsb' (8+2+1+3+4+3+4+3+4) 7 4 (p0 ++ p1 ++ p2 ++ p3 ++ p4 ++ p5 ++ p6 ++ p7 ++ p8) = p6
  rw [BitVec.extractLsb'_append_eq_of_le (by decide), BitVec.extractLsb'_append_eq_of_le (by decide)]
  exact BitVec.extractLsb'_append_eq_right
theorem fld_8_2_1_3_4_3_4_3_4_at_11_3 (p0 : BitVec 8) (p1 : BitVec 2) (p2 : BitVec 1) (p3 : BitVec 3) (p4 : BitVec 4) (p5 : BitVec 3) (p6 : BitVec 4) (p7 : BitVec 3) (p8 : BitVec 4) :
    fld (p0 ++ p1 ++ p2 ++ p3 ++ p4 ++ p5 ++ p6 ++ p7 ++ p8) 11 3 = p5 := by
  change @BitVec.extractLsb' (8+2+1+3+4+3+4+3+4) 11 3 (p0 ++ p1 ++ p2 ++ p3 ++ p4 ++ p5 ++ p6 ++ p7 ++ p8) = p5
  rw [BitVec.extractLsb'_append_eq_of_le (by decide), BitVec.extractLsb'_append_eq_of_le (by decide), BitVec.extractLsb'_append_eq_of_le (by decide)]
  exact BitVec.extractLsb'_append_eq_right
theorem fld_8_2_1_3_4_3_4_3_4_at_14_4 (p0 : BitVec 8) (p1 : BitVec 2) (p2 : BitVec 1) (p3 : BitVec 3) (p4 : BitVec 4) (p5 : BitVec 3) (p6 : BitVec 4) (p7 : BitVec 3) (p8 : BitVec 4) :
    fld (p0 ++ p1 ++ p2 ++ p3 ++ p4 ++ p5 ++ p6 ++ p7 ++ p8) 14 4 = p4 := by
  change @BitVec.extractLsb' (8+2+1+3+4+3+4+3+4) 14 4 (p0 ++ p1 ++ p2 ++ p3 ++ p4 ++ p5 ++ p6 ++ p7 ++ p8) = p4
  rw [BitVec.extractLsb'_append_eq_of_le (by decide), BitVec.extractLsb'_append_eq_of_le (by decide), BitVec.extractLsb'_append_eq_of_le (by decide), BitVec.extractLsb'_append_eq_of_le (by decide)]
  exact BitVec.extractLsb'_append_eq_right
theorem fld_8_2_1_3_4_3_4_3_4_at_18_3 (p0 : BitVec 8) (p1 : BitVec 2) (p2 : BitVec 1) (p3 : BitVec 3) (p4 : BitVec 4) (p5 : BitVec 3) (p6 : BitVec 4) (p7 : BitVec 3) (p8 : BitVec 4) :
    fld (p0 ++ p1 ++ p2 ++ p3 ++ p4 ++ p5 ++ p6 ++ p7 ++ p8) 18 3 = p3 := by
  change @BitVec.extractLsb' (8+2+1+3+4+3+4+3+4) 18 3 (p0 ++ p1 ++ p2 ++ p3 ++ p4 ++ p5 ++ p6 ++ p7 ++ p8) = p3
  rw [BitVec.extractLsb'_append_eq_of_le (by decide), BitVec.extractLsb'_append_eq_of_le (by decide), BitVec.extractLsb'_append_eq_of_le (by decide), BitVec.extractLsb'_append_eq_of_le (by decide), BitVec.extractLsb'_append_eq_of_le (by decide)]
  exact BitVec.extractLsb'_append_eq_right
theorem fld_8_2_1_3_4_3_4_3_4_at_21_1 (p0 : BitVec 8) (p1 : BitVec 2) (p2 : BitVec 1) (p3 : BitVec 3) (p4 : BitVec 4) (p5 : BitVec 3) (p6 : BitVec 4) (p7 : BitVec 3) (p8 : BitVec 4) :
    fld (p0 ++ p1 ++ p2 ++ p3 ++ p4 ++ p5 ++ p6 ++ p7 ++ p8) 21 1 = p2 := by
  change @BitVec.extractLsb' (8+2+1+3+4+3+4+3+4) 21 1 (p0 ++ p1 ++ p2 ++ p3 ++ p4 ++ p5 ++ p6 ++ p7 ++ p8) = p2
  rw [BitVec.extractLsb'_append_eq_of_le (by decide), BitVec.extractLsb'_append_eq_of_le (by decide), BitVec.extractLsb'_append_eq_of_le (by decide), BitVec.extractLsb'_append_eq_of_le (by decide), BitVec.extractLsb'_append_eq_of_le (by decide), BitVec.extractLsb'_append_eq_of_le (by decide)]
  exact BitVec.extractLsb'_append_eq_right
theorem fld_8_2_1_3_4_3_4_3_4_at_22_2 (p0 : BitVec 8) (p1 : BitVec 2) (p2 : BitVec 1) (p3 : BitVec 3) (p4 : BitVec 4) (p5 : BitVec 3) (p6 : BitVec 4) (p7 : BitVec 3) (p8 : BitVec 4) :
    fld (p0 ++ p1 ++ p2 ++ p3 ++ p4 ++ p5 ++ p6 ++ p7 ++ p8) 22 2 = p1 := by
  change @BitVec.extractLsb' (8+2+1+3+4+3+4+3+4) 22 2 (p0 ++ p1 ++ p2 ++ p3 ++ p4 ++ p5 ++ p6 ++ p7 ++ p8) = p1
  rw [BitVec.extractLsb'_append_eq_of_le (by decide), BitVec.extractLsb'_append_eq_of_le (by decide), BitVec.extractLsb'_append_eq_of_le (by decide), BitVec.extractLsb'_append_eq_of_le (by decide), BitVec.extractLsb'_append_eq_of_le (by decide), BitVec.extractLsb'_append_eq_of_le (by decide), BitVec.extractLsb'_append_eq_of_le (by decide)]
  exact BitVec.extractLsb'_append_eq_right
theorem fld_8_2_1_3_4_3_4_3_4_at_24_8 (p0 : BitVec 8) (p1 : BitVec 2) (p2 : BitVec 1) (p3 : BitVec 3) (p4 : BitVec 4) (p5 : BitVec 3) (p6 : BitVec 4) (p7 : BitVec 3) (p8 : BitVec 4) :
    fld (p0 ++ p1 ++ p2 ++ p3 ++ p4 ++ p5 ++ p6 ++ p7 ++ p8) 24 8 = p0 := by
  change @BitVec.extractLsb' (8+2+1+3+4+3+4+3+4) 24 8 (p0 ++ p1 ++ p2 ++ p3 ++ p4 ++ p5 ++ p6 ++ p7 ++ p8) = p0
  rw [BitVec.extractLsb'_append_eq_of_le (by decide), BitVec.extractLsb'_append_eq_of_le (by decide), BitVec.extractLsb'_append_eq_of_le (by decide), BitVec.extractLsb'_append_eq_of_le (by decide), BitVec.extractLsb'_append_eq_of_le (by decide), BitVec.extractLsb'_append_eq_of_le (by decide), BitVec.extractLsb'_append_eq_of_le (by decide)]
  exact BitVec.extractLsb'_append_eq_left
theorem fld_8_2_1_7_4_3_7_at_0_7 (p0 : BitVec 8) (p1 : BitVec 2) (p2 : BitVec 1) (p3 : BitVec 7) (p4 : BitVec 4) (p5 : BitVec 3) (p6 : BitVec 7) :
    fld (p0 ++ p1 ++ p2 ++ p3 ++ p4 ++ p5 ++ p6) 0 7 = p6 := by
  change @BitVec.extractLsb' (8+2+1+7+4+3+7) 0 7 (p0 ++ p1 ++ p2 ++ p3 ++ p4 ++ p5 ++ p6) = p6
  exact BitVec.extractLsb'_append_eq_right
theorem fld_8_2_1_7_4_3_7_at_7_3 (p0 : BitVec 8) (p1 : BitVec 2) (p2 : BitVec 1) (p3 : BitVec 7) (p4 : BitVec 4) (p5 : BitVec 3) (p6 : BitVec 7) :
    fld (p0 ++ p1 ++ p2 ++ p3 ++ p4 ++ p5 ++ p6) 7 3 = p5 := by
  change @BitVec.extractLsb' (8+2+1+7+4+3+7) 7 3 (p0 ++ p1 ++ p2 ++ p3 ++ p4 ++ p5 ++ p6) = p5
  rw [BitVec.extractLsb'_append_eq_of_le (by decide)]
  exact BitVec.extractLsb'_append_eq_right
theorem fld_8_2_1_7_4_3_7_at_10_4 (p0 : BitVec 8) (p1 : BitVec 2) (p2 : BitVec 1) (p3 : BitVec 7) (p4 : BitVec 4) (p5 : BitVec 3) (p6 : BitVec 7) :
    fld (p0 ++ p1 ++ p2 ++ p3 ++ p4 ++ p5 ++ p6) 10 4 = p4 := by
  change @BitVec.extractLsb' (8+2+1+7+4+3+7) 10 4 (p0 ++ p1 ++ p2 ++ p3 ++ p4 ++ p5 ++ p6) = p4
  rw [BitVec.extractLsb'_append_eq_of_le (by decide), BitVec.extractLsb'_append_eq_of_le (by decide)]
  exact BitVec.extractLsb'_append_eq_right
theorem fld_8_2_1_7_4_3_7_at_14_7 (p0 : BitVec 8) (p1 : BitVec 2) (p2 : BitVec 1) (p3 : BitVec 7) (p4 : BitVec 4) (p5 : BitVec 3) (p6 : BitVec 7) :
    fld (p0 ++ p1 ++ p2 ++ p3 ++ p4 ++ p5 ++ p6) 14 7 = p3 := by
  change @BitVec.extractLsb' (8+2+1+7+4+3+7) 14 7 (p0 ++ p1 ++ p2 ++ p3 ++ p4 ++ p5 ++ p6) = p3
  rw [BitVec.extractLsb'_append_eq_of_le (by decide), BitVec.extractLsb'_append_eq_of_le (by decide), BitVec.extractLsb'_append_eq_of_le (by decide)]
  exact BitVec.extractLsb'_append_eq_right
theorem fld_8_2_1_7_4_3_7_at_21_1 (p0 : BitVec 8) (p1 : BitVec 2) (p2 : BitVec 1) (p3 : BitVec 7) (p4 : BitVec 4) (p5 : BitVec 3) (p6 : BitVec 7) :
    fld (p0 ++ p1 ++ p2 ++ p3 ++ p4 ++ p5 ++ p6) 21 1 = p2 := by
  change @BitVec.extractLsb' (8+2+1+7+4+3+7) 21 1 (p0 ++ p1 ++ p2 ++ p3 ++ p4 ++ p5 ++ p6) = p2
  rw [BitVec.extractLsb'_append_eq_of_le (by decide), BitVec.extractLsb'_append_eq_of_le (by decide), BitVec.extractLsb'_append_eq_of_le (by decide), BitVec.extractLsb'_append_eq_of_le (by decide)]
  exact BitVec.extractLsb'_append_eq_right
theorem fld_8_2_1_7_4_3_7_at_22_2 (p0 : BitVec 8) (p1 : BitVec 2) (p2 : BitVec 1) (p3 : BitVec 7) (p4 : BitVec 4) (p5 : BitVec 3) (p6 : BitVec 7) :
    fld (p0 ++ p1 ++ p2 ++ p3 ++ p4 ++ p5 ++ p6) 22 2 = p1 := by
  change @BitVec.extractLsb' (8+2+1+7+4+3+7) 22 2 (p0 ++ p1 ++ p2 ++ p3 ++ p4 ++ p5 ++ p6) = p1
  rw [BitVec.extractLsb'_append_eq_of_le (by decide), BitVec.extractLsb'_append_eq_of_le (by decide), BitVec.extractLsb'_append_eq_of_le (by decide), BitVec.extractLsb'_append_eq_of_le (by decide), BitVec.extractLsb'_append_eq_of_le (by decide)]
  exact BitVec.extractLsb'_append_eq_right
theorem fld_8_2_1_7_4_3_7_at_24_8 (p0 : BitVec 8) (p1 : BitVec 2) (p2 : BitVec 1) (p3 : BitVec 7) (p4 : BitVec 4) (p5 : BitVec 3) (p6 : BitVec 7) :
    fld (p0 ++ p1 ++ p2 ++ p3 ++ p4 ++ p5 ++ p6) 24 8 = p0 := by
  change @BitVec.extractLsb' (8+2+1+7+4+3+7) 24 8 (p0 ++ p1 ++ p2 ++ p3 ++ p4 ++ p5 ++ p6) = p0
  rw [BitVec.extractLsb'_append_eq_of_le (by decide), BitVec.extractLsb'_append_eq_of_le (by decide), BitVec.extractLsb'_append_eq_of_le (by decide), BitVec.extractLsb'_append_eq_of_le (by decide), BitVec.extractLsb'_append_eq_of_le (by decide)]
  exact BitVec.extractLsb'_append_eq_left
theorem fld_8_2_1_7_7_7_at_0_7 (p0 : BitVec 8) (p1 : BitVec 2) (p2 : BitVec 1) (p3 : BitVec 7) (p4 : BitVec 7) (p5 : BitVec 7) :
    fld (p0 ++ p1 ++ p2 ++ p3 ++ p4 ++ p5) 0 7 = p5 := by
  change @BitVec.extractLsb' (8+2+1+7+7+7) 0 7 (p0 ++ p1 ++ p2 ++ p3 ++ p4 ++ p5) = p5
  exact BitVec.extractLsb'_append_eq_right
theorem fld_8_2_1_7_7_7_at_7_7 (p0 : BitVec 8) (p1 : BitVec 2) (p2 : BitVec 1) (p3 : BitVec 7) (p4 : BitVec 7) (p5 : BitVec 7) :
    fld (p0 ++ p1 ++ p2 ++ p3 ++ p4 ++ p5) 7 7 = p4 := by
  change @BitVec.extractLsb' (8+2+1+7+7+7) 7 7 (p0 ++ p1 ++ p2 ++ p3 ++ p4 ++ p5) = p4
  rw [BitVec.extractLsb'_append_eq_of_le (by decide)]
  exact BitVec.extractLsb'_append_eq_right
theorem fld_8_2_1_7_7_7_at_14_7 (p0 : BitVec 8) (p1 : BitVec 2) (p2 : BitVec 1) (p3 : BitVec 7) (p4 : BitVec 7) (p5 : BitVec 7) :
    fld (p0 ++ p1 ++ p2 ++ p3 ++ p4 ++ p5) 14 7 = p3 := by
  change @BitVec.extractLsb' (8+2+1+7+7+7) 14 7 (p0 ++ p1 ++ p2 ++ p3 ++ p4 ++ p5) = p3
  rw [BitVec.extractLsb'_append_eq_of_le (by decide), BitVec.extractLsb'_append_eq_of_le (by decide)]
  exact BitVec.extractLsb'_append_eq_right
theorem fld_8_2_1_7_7_7_at_21_1 (p0 : BitVec 8) (p1 : BitVec 2) (p2 : BitVec 1) (p3 : BitVec 7) (p4 : BitVec 7) (p5 : BitVec 7) :
    fld (p0 ++ p1 ++ p2 ++ p3 ++ p4 ++ p5) 21 1 = p2 := by
  change @BitVec.extractLsb' (8+2+1+7+7+7) 21 1 (p0 ++ p1 ++ p2 ++ p3 ++ p4 ++ p5) = p2
  rw [BitVec.extractLsb'_append_eq_of_le (by decide), BitVec.extractLsb'_append_eq_of_le (by decide), BitVec.extractLsb'_append_eq_of_le (by decide)]
  exact BitVec.extractLsb'_append_eq_right
theorem fld_8_2_1_7_7_7_at_22_2 (p0 : BitVec 8) (p1 : BitVec 2) (p2 : BitVec 1) (p3 : BitVec 7) (p4 : BitVec 7) (p5 : BitVec 7) :
    fld (p0 ++ p1 ++ p2 ++ p3 ++ p4 ++ p5) 22 2 = p1 := by
  change @BitVec.extractLsb' (8+2+1+7+7+7) 22 2 (p0 ++ p1 ++ p2 ++ p3 ++ p4 ++ p5) = p1
  rw [BitVec.extractLsb'_append_eq_of_le (by decide), BitVec.extractLsb'_append_eq_of_le (by decide), BitVec.extractLsb'_append_eq_of_le (by decide), BitVec.extractLsb'_append_eq_of_le (by decide)]
  exact BitVec.extractLsb'_append_eq_right
theorem fld_8_2_1_7_7_7_at_24_8 (p0 : BitVec 8) (p1 : BitVec 2) (p2 : BitVec 1) (p3 : BitVec 7) (p4 : BitVec 7) (p5 : BitVec 7) :
    fld (p0 ++ p1 ++ p2 ++ p3 ++ p4 ++ p5) 24 8 = p0 := by
  change @BitVec.extractLsb' (8+2+1+7+7+7) 24 8 (p0 ++ p1 ++ p2 ++ p3 ++ p4 ++ p5) = p0
  rw [BitVec.extractLsb'_append_eq_of_le (by decide), BitVec.extractLsb'_append_eq_of_le (by decide), BitVec.extractLsb'_append_eq_of_le (by decide), BitVec.extractLsb'_append_eq_of_le (by decide)]
  exact BitVec.extractLsb'_append_eq_left
theorem fld_8_2_4_6_6_6_at_0_6 (p0 : BitVec 8) (p1 : BitVec 2) (p2 : BitVec 4) (p3 : BitVec 6) (p4 : BitVec 6) (p5 : BitVec 6) :
    fld (p0 ++ p1 ++ p2 ++ p3 ++ p4 ++ p5) 0 6 = p5 := by
  change @BitVec.extractLsb' (8+2+4+6+6+6) 0 6 (p0 ++ p1 ++ p2 ++ p3 ++ p4 ++ p5) = p5
  exact BitVec.extractLsb'_append_eq_right
theorem fld_8_2_4_6_6_6_at_6_6 (p0 : BitVec 8) (p1 : BitVec 2) (p2 : BitVec 4) (p3 : BitVec 6) (p4 : BitVec 6) (p5 : BitVec 6) :
    fld (p0 ++ p1 ++ p2 ++ p3 ++ p4 ++ p5) 6 6 = p4 := by
  change @BitVec.extractLsb' (8+2+4+6+6+6) 6 6 (p0 ++ p1 ++ p2 ++ p3 ++ p4 ++ p5) = p4
  rw [BitVec.extractLsb'_append_eq_of_le (by decide)]
  exact BitVec.extractLsb'_append_eq_right
theorem fld_8_2_4_6_6_6_at_12_6 (p0 : BitVec 8) (p1 : BitVec 2) (p2 : BitVec 4) (p3 : BitVec 6) (p4 : BitVec 6) (p5 : BitVec 6) :
    fld (p0 ++ p1 ++ p2 ++ p3 ++ p4 ++ p5) 12 6 = p3 := by
  change @BitVec.extractLsb' (8+2+4+6+6+6) 12 6 (p0 ++ p1 ++ p2 ++ p3 ++ p4 ++ p5) = p3
  rw [BitVec.extractLsb'_append_eq_of_le (by decide), BitVec.extractLsb'_append_eq_of_le (by decide)]
  exact BitVec.extractLsb'_append_eq_right
theorem fld_8_2_4_6_6_6_at_18_4 (p0 : BitVec 8) (p1 : BitVec 2) (p2 : BitVec 4) (p3 : BitVec 6) (p4 : BitVec 6) (p5 : BitVec 6) :
    fld (p0 ++ p1 ++ p2 ++ p3 ++ p4 ++ p5) 18 4 = p2 := by
  change @BitVec.extractLsb' (8+2+4+6+6+6) 18 4 (p0 ++ p1 ++ p2 ++ p3 ++ p4 ++ p5) = p2
  rw [BitVec.extractLsb'_append_eq_of_le (by decide), BitVec.extractLsb'_append_eq_of_le (by decide), BitVec.extractLsb'_append_eq_of_le (by decide)]
  exact BitVec.extractLsb'_append_eq_right
theorem fld_8_2_4_6_6_6_at_22_2 (p0 : BitVec 8) (p1 : BitVec 2) (p2 : BitVec 4) (p3 : BitVec 6) (p4 : BitVec 6) (p5 : BitVec 6) :
    fld (p0 ++ p1 ++ p2 ++ p3 ++ p4 ++ p5) 22 2 = p1 := by
  change @BitVec.extractLsb' (8+2+4+6+6+6) 22 2 (p0 ++ p1 ++ p2 ++ p3 ++ p4 ++ p5) = p1
  rw [BitVec.extractLsb'_append_eq_of_le (by decide), BitVec.extractLsb'_append_eq_of_le (by decide), BitVec.extractLsb'_append_eq_of_le (by decide), BitVec.extractLsb'_append_eq_of_le (by decide)]
  exact BitVec.extractLsb'_append_eq_right
theorem fld_8_2_4_6_6_6_at_24_8 (p0 : BitVec 8) (p1 : BitVec 2) (p2 : BitVec 4) (p3 : BitVec 6) (p4 : BitVec 6) (p5 : BitVec 6) :
    fld (p0 ++ p1 ++ p2 ++ p3 ++ p4 ++ p5) 24 8 = p0 := by
  change @BitVec.extractLsb' (8+2+4+6+6+6) 24 8 (p0 ++ p1 ++ p2 ++ p3 ++ p4 ++ p5) = p0
  rw [BitVec.extractLsb'_append_eq_of_le (by decide), BitVec.extractLsb'_append_eq_of_le (by decide), BitVec.extractLsb'_append_eq_of_le (by decide), BitVec.extractLsb'_append_eq_of_le (by decide)]
  exact BitVec.extractLsb'_append_eq_left
theorem fld_8_3_1_6_7_1_1_5_at_0_5 (p0 : BitVec 8) (p1 : BitVec 3) (p2 : BitVec 1) (p3 : BitVec 6) (p4 : BitVec 7) (p5 : BitVec 1) (p6 : BitVec 1) (p7 : BitVec 5) :
    fld (p0 ++ p1 ++ p2 ++ p3 ++ p4 ++ p5 ++ p6 ++ p7) 0 5 = p7 := by
  change @BitVec.extractLsb' (8+3+1+6+7+1+1+5) 0 5 (p0 ++ p1 ++ p2 ++ p3 ++ p4 ++ p5 ++ p6 ++ p7) = p7
  exact BitVec.extractLsb'_append_eq_right
theorem fld_8_3_1_6_7_1_1_5_at_5_1 (p0 : BitVec 8) (p1 : BitVec 3) (p2 : BitVec 1) (p3 : BitVec 6) (p4 : BitVec 7) (p5 : BitVec 1) (p6 : BitVec 1) (p7 : BitVec 5) :
    fld (p0 ++ p1 ++ p2 ++ p3 ++ p4 ++ p5 ++ p6 ++ p7) 5 1 = p6 := by
  change @BitVec.extractLsb' (8+3+1+6+7+1+1+5) 5 1 (p0 ++ p1 ++ p2 ++ p3 ++ p4 ++ p5 ++ p6 ++ p7) = p6
  rw [BitVec.extractLsb'_append_eq_of_le (by decide)]
  exact BitVec.extractLsb'_append_eq_right
theorem fld_8_3_1_6_7_1_1_5_at_6_1 (p0 : BitVec 8) (p1 : BitVec 3) (p2 : BitVec 1) (p3 : BitVec 6) (p4 : BitVec 7) (p5 : BitVec 1) (p6 : BitVec 1) (p7 : BitVec 5) :
    fld (p0 ++ p1 ++ p2 ++ p3 ++ p4 ++ p5 ++ p6 ++ p7) 6 1 = p5 := by
  change @BitVec.extractLsb' (8+3+1+6+7+1+1+5) 6 1 (p0 ++ p1 ++ p2 ++ p3 ++ p4 ++ p5 ++ p6 ++ p7) = p5
  rw [BitVec.extractLsb'_append_eq_of_le (by decide), BitVec.extractLsb'_append_eq_of_le (by decide)]
  exact BitVec.extractLsb'_append_eq_right
theorem fld_8_3_1_6_7_1_1_5_at_7_7 (p0 : BitVec 8) (p1 : BitVec 3) (p2 : BitVec 1) (p3 : BitVec 6) (p4 : BitVec 7) (p5 : BitVec 1) (p6 : BitVec 1) (p7 : BitVec 5) :
    fld (p0 ++ p1 ++ p2 ++ p3 ++ p4 ++ p5 ++ p6 ++ p7) 7 7 = p4 := by
  change @BitVec.extractLsb' (8+3+1+6+7+1+1+5) 7 7 (p0 ++ p1 ++ p2 ++ p3 ++ p4 ++ p5 ++ p6 ++ p7) = p4
  rw [BitVec.extractLsb'_append_eq_of_le (by decide), BitVec.extractLsb'_append_eq_of_le (by decide), BitVec.extractLsb'_append_eq_of_le (by decide)]
  exact BitVec.extractLsb'_append_eq_right
theorem fld_8_3_1_6_7_1_1_5_at_14_6 (p0 : BitVec 8) (p1 : BitVec 3) (p2 : BitVec 1) (p3 : BitVec 6) (p4 : BitVec 7) (p5 : BitVec 1) (p6 : BitVec 1) (p7 : BitVec 5) :
    fld (p0 ++ p1 ++ p2 ++ p3 ++ p4 ++ p5 ++ p6 ++ p7) 14 6 = p3 := by
  change @BitVec.extractLsb' (8+3+1+6+7+1+1+5) 14 6 (p0 ++ p1 ++ p2 ++ p3 ++ p4 ++ p5 ++ p6 ++ p7) = p3
  rw [BitVec.extractLsb'_append_eq_of_le (by decide), BitVec.extractLsb'_append_eq_of_le (by decide), BitVec.extractLsb'_append_eq_of_le (by decide), BitVec.extractLsb'_append_eq_of_le (by decide)]
  exact BitVec.extractLsb'_append_eq_right
theorem fld_8_3_1_6_7_1_1_5_at_20_1 (p0 : BitVec 8) (p1 : BitVec 3) (p2 : BitVec 1) (p3 : BitVec 6) (p4 : BitVec 7) (p5 : BitVec 1) (p6 : BitVec 1) (p7 : BitVec 5) :
    fld (p0 ++ p1 ++ p2 ++ p3 ++ p4 ++ p5 ++ p6 ++ p7) 20 1 = p2 := by
  change @BitVec.extractLsb' (8+3+1+6+7+1+1+5) 20 1 (p0 ++ p1 ++ p2 ++ p3 ++ p4 ++ p5 ++ p6 ++ p7) = p2
  rw [BitVec.extractLsb'_append_eq_of_le (by decide), BitVec.extractLsb'_append_eq_of_le (by decide), BitVec.extractLsb'_append_eq_of_le (by decide), BitVec.extractLsb'_append_eq_of_le (by decide), BitVec.extractLsb'_append_eq_of_le (by decide)]
  exact BitVec.extractLsb'_append_eq_right
theorem fld_8_3_1_6_7_1_1_5_at_21_3 (p0 : BitVec 8) (p1 : BitVec 3) (p2 : BitVec 1) (p3 : BitVec 6) (p4 : BitVec 7) (p5 : BitVec 1) (p6 : BitVec 1) (p7 : BitVec 5) :
    fld (p0 ++ p1 ++ p2 ++ p3 ++ p4 ++ p5 ++ p6 ++ p7) 21 3 = p1 := by
  change @BitVec.extractLsb' (8+3+1+6+7+1+1+5) 21 3 (p0 ++ p1 ++ p2 ++ p3 ++ p4 ++ p5 ++ p6 ++ p7) = p1
  rw [BitVec.extractLsb'_append_eq_of_le (by decide), BitVec.extractLsb'_append_eq_of_le (by decide), BitVec.extractLsb'_append_eq_of_le (by decide), BitVec.extractLsb'_append_eq_of_le (by decide), BitVec.extractLsb'_append_eq_of_le (by decide), BitVec.extractLsb'_append_eq_of_le (by decide)]
  exact BitVec.extractLsb'_append_eq_right
theorem fld_8_3_1_6_7_1_1_5_at_24_8 (p0 : BitVec 8) (p1 : BitVec 3) (p2 : BitVec 1) (p3 : BitVec 6) (p4 : BitVec 7) (p5 : BitVec 1) (p6 : BitVec 1) (p7 : BitVec 5) :
    fld (p0 ++ p1 ++ p2 ++ p3 ++ p4 ++ p5 ++ p6 ++ p7) 24 8 = p0 := by
  change @BitVec.extractLsb' (8+3+1+6+7+1+1+5) 24 8 (p0 ++ p1 ++ p2 ++ p3 ++ p4 ++ p5 ++ p6 ++ p7) = p0
  rw [BitVec.extractLsb'_append_eq_of_le (by decide), BitVec.extractLsb'_append_eq_of_le (by decide), BitVec.extractLsb'_append_eq_of_le (by decide), BitVec.extractLsb'_append_eq_of_le (by decide), BitVec.extractLsb'_append_eq_of_le (by decide), BitVec.extractLsb'_append_eq_of_le (by decide)]
  exact BitVec.extractLsb'_append_eq_left
theorem fld_8_3_1_6_7_2_5_at_0_5 (p0 : BitVec 8) (p1 : BitVec 3) (p2 : BitVec 1) (p3 : BitVec 6) (p4 : BitVec 7) (p5 : BitVec 2) (p6 : BitVec 5) :
    fld (p0 ++ p1 ++ p2 ++ p3 ++ p4 ++ p5 ++ p6) 0 5 = p6 := by
  change @BitVec.extractLsb' (8+3+1+6+7+2+5) 0 5 (p0 ++ p1 ++ p2 ++ p3 ++ p4 ++ p5 ++ p6) = p6
  exact BitVec.extractLsb'_append_eq_right
theorem fld_8_3_1_6_7_2_5_at_5_2 (p0 : BitVec 8) (p1 : BitVec 3) (p2 : BitVec 1) (p3 : BitVec 6) (p4 : BitVec 7) (p5 : BitVec 2) (p6 : BitVec 5) :
    fld (p0 ++ p1 ++ p2 ++ p3 ++ p4 ++ p5 ++ p6) 5 2 = p5 := by
  change @BitVec.extractLsb' (8+3+1+6+7+2+5) 5 2 (p0 ++ p1 ++ p2 ++ p3 ++ p4 ++ p5 ++ p6) = p5
  rw [BitVec.extractLsb'_append_eq_of_le (by decide)]
  exact BitVec.extractLsb'_append_eq_right
theorem fld_8_3_1_6_7_2_5_at_7_7 (p0 : BitVec 8) (p1 : BitVec 3) (p2 : BitVec 1) (p3 : BitVec 6) (p4 : BitVec 7) (p5 : BitVec 2) (p6 : BitVec 5) :
    fld (p0 ++ p1 ++ p2 ++ p3 ++ p4 ++ p5 ++ p6) 7 7 = p4 := by
  change @BitVec.extractLsb' (8+3+1+6+7+2+5) 7 7 (p0 ++ p1 ++ p2 ++ p3 ++ p4 ++ p5 ++ p6) = p4
  rw [BitVec.extractLsb'_append_eq_of_le (by decide), BitVec.extractLsb'_append_eq_of_le (by decide)]
  exact BitVec.extractLsb'_append_eq_right
theorem fld_8_3_1_6_7_2_5_at_14_6 (p0 : BitVec 8) (p1 : BitVec 3) (p2 : BitVec 1) (p3 : BitVec 6) (p4 : BitVec 7) (p5 : BitVec 2) (p6 : BitVec 5) :
    fld (p0 ++ p1 ++ p2 ++ p3 ++ p4 ++ p5 ++ p6) 14 6 = p3 := by
  change @BitVec.extractLsb' (8+3+1+6+7+2+5) 14 6 (p0 ++ p1 ++ p2 ++ p3 ++ p4 ++ p5 ++ p6) = p3
  rw [BitVec.extractLsb'_append_eq_of_le (by decide), BitVec.extractLsb'_append_eq_of_le (by decide), BitVec.extractLsb'_append_eq_of_le (by decide)]
  exact BitVec.extractLsb'_append_eq_right
theorem fld_8_3_1_6_7_2_5_at_20_1 (p0 : BitVec 8) (p1 : BitVec 3) (p2 : BitVec 1) (p3 : BitVec 6) (p4 : BitVec 7) (p5 : BitVec 2) (p6 : BitVec 5) :
    fld (p0 ++ p1 ++ p2 ++ p3 ++ p4 ++ p5 ++ p6) 20 1 = p2 := by
  change @BitVec.extractLsb' (8+3+1+6+7+2+5) 20 1 (p0 ++ p1 ++ p2 ++ p3 ++ p4 ++ p5 ++ p6) = p2
  rw [BitVec.extractLsb'_append_eq_of_le (by decide), BitVec.extractLsb'_append_eq_of_le (by decide), BitVec.extractLsb'_append_eq_of_le (by decide), BitVec.extractLsb'_append_eq_of_le (by decide)]
  exact BitVec.extractLsb'_append_eq_right
theorem fld_8_3_1_6_7_2_5_at_21_3 (p0 : BitVec 8) (p1 : BitVec 3) (p2 : BitVec 1) (p3 : BitVec 6) (p4 : BitVec 7) (p5 : BitVec 2) (p6 : BitVec 5) :
    fld (p0 ++ p1 ++ p2 ++ p3 ++ p4 ++ p5 ++ p6) 21 3 = p1 := by
  change @BitVec.extractLsb' (8+3+1+6+7+2+5) 21 3 (p0 ++ p1 ++ p2 ++ p3 ++ p4 ++ p5 ++ p6) = p1
  rw [BitVec.extractLsb'_append_eq_of_le (by decide), BitVec.extractLsb'_append_eq_of_le (by decide), BitVec.extractLsb'_append_eq_of_le (by decide), BitVec.extractLsb'_append_eq_of_le (by decide), BitVec.extractLsb'_append_eq_of_le (by decide)]
  exact BitVec.extractLsb'_append_eq_right
theorem fld_8_3_1_6_7_2_5_at_24_8 (p0 : BitVec 8) (p1 : BitVec 3) (p2 : BitVec 1) (p3 : BitVec 6) (p4 : BitVec 7) (p5 : BitVec 2) (p6 : BitVec 5) :
    fld (p0 ++ p1 ++ p2 ++ p3 ++ p4 ++ p5 ++ p6) 24 8 = p0 := by
  change @BitVec.extractLsb' (8+3+1+6+7+2+5) 24 8 (p0 ++ p1 ++ p2 ++ p3 ++ p4 ++ p5 ++ p6) = p0
  rw [BitVec.extractLsb'_append_eq_of_le (by decide), BitVec.extractLsb'_append_eq_of_le (by decide), BitVec.extractLsb'_append_eq_of_le (by decide), BitVec.extractLsb'_append_eq_of_le (by decide), BitVec.extractLsb'_append_eq_of_le (by decide)]
  exact BitVec.extractLsb'_append_eq_left
theorem fld_8_3_1_6_7_7_at_0_7 (p0 : BitVec 8) (p1 : BitVec 3) (p2 : BitVec 1) (p3 : BitVec 6) (p4 : BitVec 7) (p5 : BitVec 7) :
    fld (p0 ++ p1 ++ p2 ++ p3 ++ p4 ++ p5) 0 7 = p5 := by
  change @BitVec.extractLsb' (8+3+1+6+7+7) 0 7 (p0 ++ p1 ++ p2 ++ p3 ++ p4 ++ p5) = p5
  exact BitVec.extractLsb'_append_eq_right
theorem fld_8_3_1_6_7_7_at_7_7 (p0 : BitVec 8) (p1 : BitVec 3) (p2 : BitVec 1) (p3 : BitVec 6) (p4 : BitVec 7) (p5 : BitVec 7) :
    fld (p0 ++ p1 ++ p2 ++ p3 ++ p4 ++ p5) 7 7 = p4 := by
  change @BitVec.extractLsb' (8+3+1+6+7+7) 7 7 (p0 ++ p1 ++ p2 ++ p3 ++ p4 ++ p5) = p4
  rw [BitVec.extractLsb'_append_eq_of_le (by decide)]
  exact BitVec.extractLsb'_append_eq_right
theorem fld_8_3_1_6_7_7_at_14_6 (p0 : BitVec 8) (p1 : BitVec 3) (p2 : BitVec 1) (p3 : BitVec 6) (p4 : BitVec 7) (p5 : BitVec 7) :
    fld (p0 ++ p1 ++ p2 ++ p3 ++ p4 ++ p5) 14 6 = p3 := by
  change @BitVec.extractLsb' (8+3+1+6+7+7) 14 6 (p0 ++ p1 ++ p2 ++ p3 ++ p4 ++ p5) = p3
  rw [BitVec.extractLsb'_append_eq_of_le (by decide), BitVec.extractLsb'_append_eq_of_le (by decide)]
  exact BitVec.extractLsb'_append_eq_right
theorem fld_8_3_1_6_7_7_at_20_1 (p0 : BitVec 8) (p1 : BitVec 3) (p2 : BitVec 1) (p3 : BitVec 6) (p4 : BitVec 7) (p5 : BitVec 7) :
    fld (p0 ++ p1 ++ p2 ++ p3 ++ p4 ++ p5) 20 1 = p2 := by
  change @BitVec.extractLsb' (8+3+1+6+7+7) 20 1 (p0 ++ p1 ++ p2 ++ p3 ++ p4 ++ p5) = p2
  rw [BitVec.extractLsb'_append_eq_of_le (by decide), BitVec.extractLsb'_append_eq_of_le (by decide), BitVec.extractLsb'_append_eq_of_le (by decide)]
  exact BitVec.extractLsb'_append_eq_right
theorem fld_8_3_1_6_7_7_at_21_3 (p0 : BitVec 8) (p1 : BitVec 3) (p2 : BitVec 1) (p3 : BitVec 6) (p4 : BitVec 7) (p5 : BitVec 7) :
    fld (p0 ++ p1 ++ p2 ++ p3 ++ p4 ++ p5) 21 3 = p1 := by
  change @BitVec.extractLsb' (8+3+1+6+7+7) 21 3 (p0 ++ p1 ++ p2 ++ p3 ++ p4 ++ p5) = p1
  rw [BitVec.extractLsb'_append_eq_of_le (by decide), BitVec.extractLsb'_append_eq_of_le (by decide), BitVec.extractLsb'_append_eq_of_le (by decide), BitVec.extractLsb'_append_eq_of_le (by decide)]
  exact BitVec.extractLsb'_append_eq_right
theorem fld_8_3_1_6_7_7_at_24_8 (p0 : BitVec 8) (p1 : BitVec 3) (p2 : BitVec 1) (p3 : BitVec 6) (p4 : BitVec 7) (p5 : BitVec 7) :
    fld (p0 ++ p1 ++ p2 ++ p3 ++ p4 ++ p5) 24 8 = p0 := by
  change @BitVec.extractLsb' (8+3+1+6+7+7) 24 8 (p0 ++ p1 ++ p2 ++ p3 ++ p4 ++ p5) = p0
  rw [BitVec.extractLsb'_append_eq_of_le (by decide), BitVec.extractLsb'_append_eq_of_le (by decide), BitVec.extractLsb'_append_eq_of_le (by decide), BitVec.extractLsb'_append_eq_of_le (by decide)]
  exact BitVec.extractLsb'_append_eq_left
theorem fld_8_3_1_20_at_0_20 (p0 : BitVec 8) (p1 : BitVec 3) (p2 : BitVec 1) (p3 : BitVec 20) :
    fld (p0 ++ p1 ++ p2 ++ p3) 0 20 = p3 := by
  change @BitVec.extractLsb' (8+3+1+20) 0 20 (p0 ++ p1 ++ p2 ++ p3) = p3
  exact BitVec.extractLsb'_append_eq_right
theorem fld_8_3_1_20_at_20_1 (p0 : BitVec 8) (p1 : BitVec 3) (p2 : BitVec 1) (p3 : BitVec 20) :
    fld (p0 ++ p1 ++ p2 ++ p3) 20 1 = p2 := by
  change @BitVec.extractLsb' (8+3+1+20) 20 1 (p0 ++ p1 ++ p2 ++ p3) = p2
  rw [BitVec.extractLsb'_append_eq_of_le (by decide)]
  exact BitVec.extractLsb'_append_eq_right
theorem fld_8_3_1_20_at_21_3 (p0 : BitVec 8) (p1 : BitVec 3) (p2 : BitVec 1) (p3 : BitVec 20) :
    fld (p0 ++ p1 ++ p2 ++ p3) 21 3 = p1 := by
  change @BitVec.extractLsb' (8+3+1+20) 21 3 (p0 ++ p1 ++ p2 ++ p3) = p1
  rw [BitVec.extractLsb'_append_eq_of_le (by decide), BitVec.extractLsb'_append_eq_of_le (by decide)]
  exact BitVec.extractLsb'_append_eq_right
theorem fld_8_3_1_20_at_24_8 (p0 : BitVec 8) (p1 : BitVec 3) (p2 : BitVec 1) (p3 : BitVec 20) :
    fld (p0 ++ p1 ++ p2 ++ p3) 24 8 = p0 := by
  change @BitVec.extractLsb' (8+3+1+20) 24 8 (p0 ++ p1 ++ p2 ++ p3) = p0
  rw [BitVec.extractLsb'_append_eq_of_le (by decide), BitVec.extractLsb'_append_eq_of_le (by decide)]
  exact BitVec.extractLsb'_append_eq_left
theorem fld_8_3_2_2_3_7_7_at_0_7 (p0 : BitVec 8) (p1 : BitVec 3) (p2 : BitVec 2) (p3 : BitVec 2) (p4 : BitVec 3) (p5 : BitVec 7) (p6 : BitVec 7) :
    fld (p0 ++ p1 ++ p2 ++ p3 ++ p4 ++ p5 ++ p6) 0 7 = p6 := by
  change @BitVec.extractLsb' (8+3+2+2+3+7+7) 0 7 (p0 ++ p1 ++ p2 ++ p3 ++ p4 ++ p5 ++ p6) = p6
  exact BitVec.extractLsb'_append_eq_right
theorem fld_8_3_2_2_3_7_7_at_7_7 (p0 : BitVec 8) (p1 : BitVec 3) (p2 : BitVec 2) (p3 : BitVec 2) (p4 : BitVec 3) (p5 : BitVec 7) (p6 : BitVec 7) :
    fld (p0 ++ p1 ++ p2 ++ p3 ++ p4 ++ p5 ++ p6) 7 7 = p5 := by
  change @BitVec.extractLsb' (8+3+2+2+3+7+7) 7 7 (p0 ++ p1 ++ p2 ++ p3 ++ p4 ++ p5 ++ p6) = p5
  rw [BitVec.extractLsb'_append_eq_of_le (by decide)]
  exact BitVec.extractLsb'_append_eq_right
theorem fld_8_3_2_2_3_7_7_at_14_3 (p0 : BitVec 8) (p1 : BitVec 3) (p2 : BitVec 2) (p3 : BitVec 2) (p4 : BitVec 3) (p5 : BitVec 7) (p6 : BitVec 7) :
    fld (p0 ++ p1 ++ p2 ++ p3 ++ p4 ++ p5 ++ p6) 14 3 = p4 := by
  change @BitVec.extractLsb' (8+3+2+2+3+7+7) 14 3 (p0 ++ p1 ++ p2 ++ p3 ++ p4 ++ p5 ++ p6) = p4
  rw [BitVec.extractLsb'_append_eq_of_le (by decide), BitVec.extractLsb'_append_eq_of_le (by decide)]
  exact BitVec.extractLsb'_append_eq_right
theorem fld_8_3_2_2_3_7_7_at_17_2 (p0 : BitVec 8) (p1 : BitVec 3) (p2 : BitVec 2) (p3 : BitVec 2) (p4 : BitVec 3) (p5 : BitVec 7) (p6 : BitVec 7) :
    fld (p0 ++ p1 ++ p2 ++ p3 ++ p4 ++ p5 ++ p6) 17 2 = p3 := by
  change @BitVec.extractLsb' (8+3+2+2+3+7+7) 17 2 (p0 ++ p1 ++ p2 ++ p3 ++ p4 ++ p5 ++ p6) = p3
  rw [BitVec.extractLsb'_append_eq_of_le (by decide), BitVec.extractLsb'_append_eq_of_le (by decide), BitVec.extractLsb'_append_eq_of_le (by decide)]
  exact BitVec.extractLsb'_append_eq_right
theorem fld_8_3_2_2_3_7_7_at_19_2 (p0 : BitVec 8) (p1 : BitVec 3) (p2 : BitVec 2) (p3 : BitVec 2) (p4 : BitVec 3) (p5 : BitVec 7) (p6 : BitVec 7) :
    fld (p0 ++ p1 ++ p2 ++ p3 ++ p4 ++ p5 ++ p6) 19 2 = p2 := by
  change @BitVec.extractLsb' (8+3+2+2+3+7+7) 19 2 (p0 ++ p1 ++ p2 ++ p3 ++ p4 ++ p5 ++ p6) = p2
  rw [BitVec.extractLsb'_append_eq_of_le (by decide), BitVec.extractLsb'_append_eq_of_le (by decide), BitVec.extractLsb'_append_eq_of_le (by decide), BitVec.extractLsb'_append_eq_of_le (by decide)]
  exact BitVec.extractLsb'_append_eq_right
theorem fld_8_3_2_2_3_7_7_at_21_3 (p0 : BitVec 8) (p1 : BitVec 3) (p2 : BitVec 2) (p3 : BitVec 2) (p4 : BitVec 3) (p5 : BitVec 7) (p6 : BitVec 7) :
    fld (p0 ++ p1 ++ p2 ++ p3 ++ p4 ++ p5 ++ p6) 21 3 = p1 := by
  change @BitVec.extractLsb' (8+3+2+2+3+7+7) 21 3 (p0 ++ p1 ++ p2 ++ p3 ++ p4 ++ p5 ++ p6) = p1
  rw [BitVec.extractLsb'_append_eq_of_le (by decide), BitVec.extractLsb'_append_eq_of_le (by decide), BitVec.extractLsb'_append_eq_of_le (by decide), BitVec.extractLsb'_append_eq_of_le (by decide), BitVec.extractLsb'_append_eq_of_le (by decide)]
  exact BitVec.extractLsb'_append_eq_right
theorem fld_8_3_2_2_3_7_7_at_24_8 (p0 : BitVec 8) (p1 : BitVec 3) (p2 : BitVec 2) (p3 : BitVec 2) (p4 : BitVec 3) (p5 : BitVec 7) (p6 : BitVec 7) :
    fld (p0 ++ p1 ++ p2 ++ p3 ++ p4 ++ p5 ++ p6) 24 8 = p0 := by
  change @BitVec.extractLsb' (8+3+2+2+3+7+7) 24 8 (p0 ++ p1 ++ p2 ++ p3 ++ p4 ++ p5 ++ p6) = p0
  rw [BitVec.extractLsb'_append_eq_of_le (by decide), BitVec.extractLsb'_append_eq_of_le (by decide), BitVec.extractLsb'_append_eq_of_le (by decide), BitVec.extractLsb'_append_eq_of_le (by decide), BitVec.extractLsb'_append_eq_of_le (by decide)]
  exact BitVec.extractLsb'_append_eq_left
theorem fld_8_3_3_4_7_7_at_0_7 (p0 : BitVec 8) (p1 : BitVec 3) (p2 : BitVec 3) (p3 : BitVec 4) (p4 : BitVec 7) (p5 : BitVec 7) :
    fld (p0 ++ p1 ++ p2 ++ p3 ++ p4 ++ p5) 0 7 = p5 := by
  change @BitVec.extractLsb' (8+3+3+4+7+7) 0 7 (p0 ++ p1 ++ p2 ++ p3 ++ p4 ++ p5) = p5
  exact BitVec.extractLsb'_append_eq_right
theorem fld_8_3_3_4_7_7_at_7_7 (p0 : BitVec 8) (p1 : BitVec 3) (p2 : BitVec 3) (p3 : BitVec 4) (p4 : BitVec 7) (p5 : BitVec 7) :
    fld (p0 ++ p1 ++ p2 ++ p3 ++ p4 ++ p5) 7 7 = p4 := by
  change @BitVec.extractLsb' (8+3+3+4+7+7) 7 7 (p0 ++ p1 ++ p2 ++ p3 ++ p4 ++ p5) = p4
  rw [BitVec.extractLsb'_append_eq_of_le (by decide)]
  exact BitVec.extractLsb'_append_eq_right
theorem fld_8_3_3_4_7_7_at_14_4 (p0 : BitVec 8) (p1 : BitVec 3) (p2 : BitVec 3) (p3 : BitVec 4) (p4 : BitVec 7) (p5 : BitVec 7) :
    fld (p0 ++ p1 ++ p2 ++ p3 ++ p4 ++ p5) 14 4 = p3 := by
  change @BitVec.extractLsb' (8+3+3+4+7+7) 14 4 (p0 ++ p1 ++ p2 ++ p3 ++ p4 ++ p5) = p3
  rw [BitVec.extractLsb'_append_eq_of_le (by decide), BitVec.extractLsb'_append_eq_of_le (by decide)]
  exact BitVec.extractLsb'_append_eq_right
theorem fld_8_3_3_4_7_7_at_18_3 (p0 : BitVec 8) (p1 : BitVec 3) (p2 : BitVec 3) (p3 : BitVec 4) (p4 : BitVec 7) (p5 : BitVec 7) :
    fld (p0 ++ p1 ++ p2 ++ p3 ++ p4 ++ p5) 18 3 = p2 := by
  change @BitVec.extractLsb' (8+3+3+4+7+7) 18 3 (p0 ++ p1 ++ p2 ++ p3 ++ p4 ++ p5) = p2
  rw [BitVec.extractLsb'_append_eq_of_le (by decide), BitVec.extractLsb'_append_eq_of_le (by decide), BitVec.extractLsb'_append_eq_of_le (by decide)]
  exact BitVec.extractLsb'_append_eq_right
theorem fld_8_3_3_4_7_7_at_21_3 (p0 : BitVec 8) (p1 : BitVec 3) (p2 : BitVec 3) (p3 : BitVec 4) (p4 : BitVec 7) (p5 : BitVec 7) :
    fld (p0 ++ p1 ++ p2 ++ p3 ++ p4 ++ p5) 21 3 = p1 := by
  change @BitVec.extractLsb' (8+3+3+4+7+7) 21 3 (p0 ++ p1 ++ p2 ++ p3 ++ p4 ++ p5) = p1
  rw [BitVec.extractLsb'_append_eq_of_le (by decide), BitVec.extractLsb'_append_eq_of_le (by decide), BitVec.extractLsb'_append_eq_of_le (by decide), BitVec.extractLsb'_append_eq_of_le (by decide)]
  exact BitVec.extractLsb'_append_eq_right
theorem fld_8_3_3_4_7_7_at_24_8 (p0 : BitVec 8) (p1 : BitVec 3) (p2 : BitVec 3) (p3 : BitVec 4) (p4 : BitVec 7) (p5 : BitVec 7) :
    fld (p0 ++ p1 ++ p2 ++ p3 ++ p4 ++ p5) 24 8 = p0 := by
  change @BitVec.extractLsb' (8+3+3+4+7+7) 24 8 (p0 ++ p1 ++ p2 ++ p3 ++ p4 ++ p5) = p0
  rw [BitVec.extractLsb'_append_eq_of_le (by decide), BitVec.extractLsb'_append_eq_of_le (by decide), BitVec.extractLsb'_append_eq_of_le (by decide), BitVec.extractLsb'_append_eq_of_le (by decide)]
  exact BitVec.extractLsb'_append_eq_left
theorem fld_8_3_4_3_7_2_5_at_0_5 (p0 : BitVec 8) (p1 : BitVec 3) (p2 : BitVec 4) (p3 : BitVec 3) (p4 : BitVec 7) (p5 : BitVec 2) (p6 : BitVec 5) :
    fld (p0 ++ p1 ++ p2 ++ p3 ++ p4 ++ p5 ++ p6) 0 5 = p6 := by
  change @BitVec.extractLsb' (8+3+4+3+7+2+5) 0 5 (p0 ++ p1 ++ p2 ++ p3 ++ p4 ++ p5 ++ p6) = p6
  exact BitVec.extractLsb'_append_eq_right
theorem fld_8_3_4_3_7_2_5_at_5_2 (p0 : BitVec 8) (p1 : BitVec 3) (p2 : BitVec 4) (p3 : BitVec 3) (p4 : BitVec 7) (p5 : BitVec 2) (p6 : BitVec 5) :
    fld (p0 ++ p1 ++ p2 ++ p3 ++ p4 ++ p5 ++ p6) 5 2 = p5 := by
  change @BitVec.extractLsb' (8+3+4+3+7+2+5) 5 2 (p0 ++ p1 ++ p2 ++ p3 ++ p4 ++ p5 ++ p6) = p5
  rw [BitVec.extractLsb'_append_eq_of_le (by decide)]
  exact BitVec.extractLsb'_append_eq_right
theorem fld_8_3_4_3_7_2_5_at_7_7 (p0 : BitVec 8) (p1 : BitVec 3) (p2 : BitVec 4) (p3 : BitVec 3) (p4 : BitVec 7) (p5 : BitVec 2) (p6 : BitVec 5) :
    fld (p0 ++ p1 ++ p2 ++ p3 ++ p4 ++ p5 ++ p6) 7 7 = p4 := by
  change @BitVec.extractLsb' (8+3+4+3+7+2+5) 7 7 (p0 ++ p1 ++ p2 ++ p3 ++ p4 ++ p5 ++ p6) = p4
  rw [BitVec.extractLsb'_append_eq_of_le (by decide), BitVec.extractLsb'_append_eq_of_le (by decide)]
  exact BitVec.extractLsb'_append_eq_right
theorem fld_8_3_4_3_7_2_5_at_14_3 (p0 : BitVec 8) (p1 : BitVec 3) (p2 : BitVec 4) (p3 : BitVec 3) (p4 : BitVec 7) (p5 : BitVec 2) (p6 : BitVec 5) :
    fld (p0 ++ p1 ++ p2 ++ p3 ++ p4 ++ p5 ++ p6) 14 3 = p3 := by
  change @BitVec.extractLsb' (8+3+4+3+7+2+5) 14 3 (p0 ++ p1 ++ p2 ++ p3 ++ p4 ++ p5 ++ p6) = p3
  rw [BitVec.extractLsb'_append_eq_of_le (by decide), BitVec.extractLsb'_append_eq_of_le (by decide), BitVec.extractLsb'_append_eq_of_le (by decide)]
  exact BitVec.extractLsb'_append_eq_right
theorem fld_8_3_4_3_7_2_5_at_17_4 (p0 : BitVec 8) (p1 : BitVec 3) (p2 : BitVec 4) (p3 : BitVec 3) (p4 : BitVec 7) (p5 : BitVec 2) (p6 : BitVec 5) :
    fld (p0 ++ p1 ++ p2 ++ p3 ++ p4 ++ p5 ++ p6) 17 4 = p2 := by
  change @BitVec.extractLsb' (8+3+4+3+7+2+5) 17 4 (p0 ++ p1 ++ p2 ++ p3 ++ p4 ++ p5 ++ p6) = p2
  rw [BitVec.extractLsb'_append_eq_of_le (by decide), BitVec.extractLsb'_append_eq_of_le (by decide), BitVec.extractLsb'_append_eq_of_le (by decide), BitVec.extractLsb'_append_eq_of_le (by decide)]
  exact BitVec.extractLsb'_append_eq_right
theorem fld_8_3_4_3_7_2_5_at_21_3 (p0 : BitVec 8) (p1 : BitVec 3) (p2 : BitVec 4) (p3 : BitVec 3) (p4 : BitVec 7) (p5 : BitVec 2) (p6 : BitVec 5) :
    fld (p0 ++ p1 ++ p2 ++ p3 ++ p4 ++ p5 ++ p6) 21 3 = p1 := by
  change @BitVec.extractLsb' (8+3+4+3+7+2+5) 21 3 (p0 ++ p1 ++ p2 ++ p3 ++ p4 ++ p5 ++ p6) = p1
  rw [BitVec.extractLsb'_append_eq_of_le (by decide), BitVec.extractLsb'_append_eq_of_le (by decide), BitVec.extractLsb'_append_eq_of_le (by decide), BitVec.extractLsb'_append_eq_of_le (by decide), BitVec.extractLsb'_append_eq_of_le (by decide)]
  exact BitVec.extractLsb'_append_eq_right
theorem fld_8_3_4_3_7_2_5_at_24_8 (p0 : BitVec 8) (p1 : BitVec 3) (p2 : BitVec 4) (p3 : BitVec 3) (p4 : BitVec 7) (p5 : BitVec 2) (p6 : BitVec 5) :
    fld (p0 ++ p1 ++ p2 ++ p3 ++ p4 ++ p5 ++ p6) 24 8 = p0 := by
  change @BitVec.extractLsb' (8+3+4+3+7+2+5) 24 8 (p0 ++ p1 ++ p2 ++ p3 ++ p4 ++ p5 ++ p6) = p0
  rw [BitVec.extractLsb'_append_eq_of_le (by decide), BitVec.extractLsb'_append_eq_of_le (by decide), BitVec.extractLsb'_append_eq_of_le (by decide), BitVec.extractLsb'_append_eq_of_le (by decide), BitVec.extractLsb'_append_eq_of_le (by decide)]
  exact BitVec.extractLsb'_append_eq_left
theorem fld_8_3_7_1_6_7_at_0_7 (p0 : BitVec 8) (p1 : BitVec 3) (p2 : BitVec 7) (p3 : BitVec 1) (p4 : BitVec 6) (p5 : BitVec 7) :
    fld (p0 ++ p1 ++ p2 ++ p3 ++ p4 ++ p5) 0 7 = p5 := by
  change @BitVec.extractLsb' (8+3+7+1+6+7) 0 7 (p0 ++ p1 ++ p2 ++ p3 ++ p4 ++ p5) = p5
  exact BitVec.extractLsb'_append_eq_right
theorem fld_8_3_7_1_6_7_at_7_6 (p0 : BitVec 8) (p1 : BitVec 3) (p2 : BitVec 7) (p3 : BitVec 1) (p4 : BitVec 6) (p5 : BitVec 7) :
    fld (p0 ++ p1 ++ p2 ++ p3 ++ p4 ++ p5) 7 6 = p4 := by
  change @BitVec.extractLsb' (8+3+7+1+6+7) 7 6 (p0 ++ p1 ++ p2 ++ p3 ++ p4 ++ p5) = p4
  rw [BitVec.extractLsb'_append_eq_of_le (by decide)]
  exact BitVec.extractLsb'_append_eq_right
theorem fld_8_3_7_1_6_7_at_13_1 (p0 : BitVec 8) (p1 : BitVec 3) (p2 : BitVec 7) (p3 : BitVec 1) (p4 : BitVec 6) (p5 : BitVec 7) :
    fld (p0 ++ p1 ++ p2 ++ p3 ++ p4 ++ p5) 13 1 = p3 := by
  change @BitVec.extractLsb' (8+3+7+1+6+7) 13 1 (p0 ++ p1 ++ p2 ++ p3 ++ p4 ++ p5) = p3
  rw [BitVec.extractLsb'_append_eq_of_le (by decide), BitVec.extractLsb'_append_eq_of_le (by decide)]
  exact BitVec.extractLsb'_append_eq_right
theorem fld_8_3_7_1_6_7_at_14_7 (p0 : BitVec 8) (p1 : BitVec 3) (p2 : BitVec 7) (p3 : BitVec 1) (p4 : BitVec 6) (p5 : BitVec 7) :
    fld (p0 ++ p1 ++ p2 ++ p3 ++ p4 ++ p5) 14 7 = p2 := by
  change @BitVec.extractLsb' (8+3+7+1+6+7) 14 7 (p0 ++ p1 ++ p2 ++ p3 ++ p4 ++ p5) = p2
  rw [BitVec.extractLsb'_append_eq_of_le (by decide), BitVec.extractLsb'_append_eq_of_le (by decide), BitVec.extractLsb'_append_eq_of_le (by decide)]
  exact BitVec.extractLsb'_append_eq_right
theorem fld_8_3_7_1_6_7_at_21_3 (p0 : BitVec 8) (p1 : BitVec 3) (p2 : BitVec 7) (p3 : BitVec 1) (p4 : BitVec 6) (p5 : BitVec 7) :
    fld (p0 ++ p1 ++ p2 ++ p3 ++ p4 ++ p5) 21 3 = p1 := by
  change @BitVec.extractLsb' (8+3+7+1+6+7) 21 3 (p0 ++ p1 ++ p2 ++ p3 ++ p4 ++ p5) = p1
  rw [BitVec.extractLsb'_append_eq_of_le (by decide), BitVec.extractLsb'_append_eq_of_le (by decide), BitVec.extractLsb'_append_eq_of_le (by decide), BitVec.extractLsb'_append_eq_of_le (by decide)]
  exact BitVec.extractLsb'_append_eq_right
theorem fld_8_3_7_1_6_7_at_24_8 (p0 : BitVec 8) (p1 : BitVec 3) (p2 : BitVec 7) (p3 : BitVec 1) (p4 : BitVec 6) (p5 : BitVec 7) :
    fld (p0 ++ p1 ++ p2 ++ p3 ++ p4 ++ p5) 24 8 = p0 := by
  change @BitVec.extractLsb' (8+3+7+1+6+7) 24 8 (p0 ++ p1 ++ p2 ++ p3 ++ p4 ++ p5) = p0
  rw [BitVec.extractLsb'_append_eq_of_le (by decide), BitVec.extractLsb'_append_eq_of_le (by decide), BitVec.extractLsb'_append_eq_of_le (by decide), BitVec.extractLsb'_append_eq_of_le (by decide)]
  exact BitVec.extractLsb'_append_eq_left
theorem fld_8_3_7_3_4_7_at_0_7 (p0 : BitVec 8) (p1 : BitVec 3) (p2 : BitVec 7) (p3 : BitVec 3) (p4 : BitVec 4) (p5 : BitVec 7) :
    fld (p0 ++ p1 ++ p2 ++ p3 ++ p4 ++ p5) 0 7 = p5 := by
  change @BitVec.extractLsb' (8+3+7+3+4+7) 0 7 (p0 ++ p1 ++ p2 ++ p3 ++ p4 ++ p5) = p5
  exact BitVec.extractLsb'_append_eq_right
theorem fld_8_3_7_3_4_7_at_7_4 (p0 : BitVec 8) (p1 : BitVec 3) (p2 : BitVec 7) (p3 : BitVec 3) (p4 : BitVec 4) (p5 : BitVec 7) :
    fld (p0 ++ p1 ++ p2 ++ p3 ++ p4 ++ p5) 7 4 = p4 := by
  change @BitVec.extractLsb' (8+3+7+3+4+7) 7 4 (p0 ++ p1 ++ p2 ++ p3 ++ p4 ++ p5) = p4
  rw [BitVec.extractLsb'_append_eq_of_le (by decide)]
  exact BitVec.extractLsb'_append_eq_right
theorem fld_8_3_7_3_4_7_at_11_3 (p0 : BitVec 8) (p1 : BitVec 3) (p2 : BitVec 7) (p3 : BitVec 3) (p4 : BitVec 4) (p5 : BitVec 7) :
    fld (p0 ++ p1 ++ p2 ++ p3 ++ p4 ++ p5) 11 3 = p3 := by
  change @BitVec.extractLsb' (8+3+7+3+4+7) 11 3 (p0 ++ p1 ++ p2 ++ p3 ++ p4 ++ p5) = p3
  rw [BitVec.extractLsb'_append_eq_of_le (by decide), BitVec.extractLsb'_append_eq_of_le (by decide)]
  exact BitVec.extractLsb'_append_eq_right
theorem fld_8_3_7_3_4_7_at_14_7 (p0 : BitVec 8) (p1 : BitVec 3) (p2 : BitVec 7) (p3 : BitVec 3) (p4 : BitVec 4) (p5 : BitVec 7) :
    fld (p0 ++ p1 ++ p2 ++ p3 ++ p4 ++ p5) 14 7 = p2 := by
  change @BitVec.extractLsb' (8+3+7+3+4+7) 14 7 (p0 ++ p1 ++ p2 ++ p3 ++ p4 ++ p5) = p2
  rw [BitVec.extractLsb'_append_eq_of_le (by decide), BitVec.extractLsb'_append_eq_of_le (by decide), BitVec.extractLsb'_append_eq_of_le (by decide)]
  exact BitVec.extractLsb'_append_eq_right
theorem fld_8_3_7_3_4_7_at_21_3 (p0 : BitVec 8) (p1 : BitVec 3) (p2 : BitVec 7) (p3 : BitVec 3) (p4 : BitVec 4) (p5 : BitVec 7) :
    fld (p0 ++ p1 ++ p2 ++ p3 ++ p4 ++ p5) 21 3 = p1 := by
  change @BitVec.extractLsb' (8+3+7+3+4+7) 21 3 (p0 ++ p1 ++ p2 ++ p3 ++ p4 ++ p5) = p1
  rw [BitVec.extractLsb'_append_eq_of_le (by decide), BitVec.extractLsb'_append_eq_of_le (by decide), BitVec.extractLsb'_append_eq_of_le (by decide), BitVec.extractLsb'_append_eq_of_le (by decide)]
  exact BitVec.extractLsb'_append_eq_right
theorem fld_8_3_7_3_4_7_at_24_8 (p0 : BitVec 8) (p1 : BitVec 3) (p2 : BitVec 7) (p3 : BitVec 3) (p4 : BitVec 4) (p5 : BitVec 7) :
    fld (p0 ++ p1 ++ p2 ++ p3 ++ p4 ++ p5) 24 8 = p0 := by
  change @BitVec.extractLsb' (8+3+7+3+4+7) 24 8 (p0 ++ p1 ++ p2 ++ p3 ++ p4 ++ p5) = p0
  rw [BitVec.extractLsb'_append_eq_of_le (by decide), BitVec.extractLsb'_append_eq_of_le (by decide), BitVec.extractLsb'_append_eq_of_le (by decide), BitVec.extractLsb'_append_eq_of_le (by decide)]
  exact BitVec.extractLsb'_append_eq_left
theorem fld_8_3_7_7_2_2_3_at_0_3 (p0 : BitVec 8) (p1 : BitVec 3) (p2 : BitVec 7) (p3 : BitVec 7) (p4 : BitVec 2) (p5 : BitVec 2) (p6 : BitVec 3) :
    fld (p0 ++ p1 ++ p2 ++ p3 ++ p4 ++ p5 ++ p6) 0 3 = p6 := by
  change @BitVec.extractLsb' (8+3+7+7+2+2+3) 0 3 (p0 ++ p1 ++ p2 ++ p3 ++ p4 ++ p5 ++ p6) = p6
  exact BitVec.extractLsb'_append_eq_right
theorem fld_8_3_7_7_2_2_3_at_3_2 (p0 : BitVec 8) (p1 : BitVec 3) (p2 : BitVec 7) (p3 : BitVec 7) (p4 : BitVec 2) (p5 : BitVec 2) (p6 : BitVec 3) :
    fld (p0 ++ p1 ++ p2 ++ p3 ++ p4 ++ p5 ++ p6) 3 2 = p5 := by
  change @BitVec.extractLsb' (8+3+7+7+2+2+3) 3 2 (p0 ++ p1 ++ p2 ++ p3 ++ p4 ++ p5 ++ p6) = p5
  rw [BitVec.extractLsb'_append_eq_of_le (by decide)]
  exact BitVec.extractLsb'_append_eq_right
theorem fld_8_3_7_7_2_2_3_at_5_2 (p0 : BitVec 8) (p1 : BitVec 3) (p2 : BitVec 7) (p3 : BitVec 7) (p4 : BitVec 2) (p5 : BitVec 2) (p6 : BitVec 3) :
    fld (p0 ++ p1 ++ p2 ++ p3 ++ p4 ++ p5 ++ p6) 5 2 = p4 := by
  change @BitVec.extractLsb' (8+3+7+7+2+2+3) 5 2 (p0 ++ p1 ++ p2 ++ p3 ++ p4 ++ p5 ++ p6) = p4
  rw [BitVec.extractLsb'_append_eq_of_le (by decide), BitVec.extractLsb'_append_eq_of_le (by decide)]
  exact BitVec.extractLsb'_append_eq_right
theorem fld_8_3_7_7_2_2_3_at_7_7 (p0 : BitVec 8) (p1 : BitVec 3) (p2 : BitVec 7) (p3 : BitVec 7) (p4 : BitVec 2) (p5 : BitVec 2) (p6 : BitVec 3) :
    fld (p0 ++ p1 ++ p2 ++ p3 ++ p4 ++ p5 ++ p6) 7 7 = p3 := by
  change @BitVec.extractLsb' (8+3+7+7+2+2+3) 7 7 (p0 ++ p1 ++ p2 ++ p3 ++ p4 ++ p5 ++ p6) = p3
  rw [BitVec.extractLsb'_append_eq_of_le (by decide), BitVec.extractLsb'_append_eq_of_le (by decide), BitVec.extractLsb'_append_eq_of_le (by decide)]
  exact BitVec.extractLsb'_append_eq_right
theorem fld_8_3_7_7_2_2_3_at_14_7 (p0 : BitVec 8) (p1 : BitVec 3) (p2 : BitVec 7) (p3 : BitVec 7) (p4 : BitVec 2) (p5 : BitVec 2) (p6 : BitVec 3) :
    fld (p0 ++ p1 ++ p2 ++ p3 ++ p4 ++ p5 ++ p6) 14 7 = p2 := by
  change @BitVec.extractLsb' (8+3+7+7+2+2+3) 14 7 (p0 ++ p1 ++ p2 ++ p3 ++ p4 ++ p5 ++ p6) = p2
  rw [BitVec.extractLsb'_append_eq_of_le (by decide), BitVec.extractLsb'_append_eq_of_le (by decide), BitVec.extractLsb'_append_eq_of_le (by decide), BitVec.extractLsb'_append_eq_of_le (by decide)]
  exact BitVec.extractLsb'_append_eq_right
theorem fld_8_3_7_7_2_2_3_at_21_3 (p0 : BitVec 8) (p1 : BitVec 3) (p2 : BitVec 7) (p3 : BitVec 7) (p4 : BitVec 2) (p5 : BitVec 2) (p6 : BitVec 3) :
    fld (p0 ++ p1 ++ p2 ++ p3 ++ p4 ++ p5 ++ p6) 21 3 = p1 := by
  change @BitVec.extractLsb' (8+3+7+7+2+2+3) 21 3 (p0 ++ p1 ++ p2 ++ p3 ++ p4 ++ p5 ++ p6) = p1
  rw [BitVec.extractLsb'_append_eq_of_le (by decide), BitVec.extractLsb'_append_eq_of_le (by decide), BitVec.extractLsb'_append_eq_of_le (by decide), BitVec.extractLsb'_append_eq_of_le (by decide), BitVec.extractLsb'_append_eq_of_le (by decide)]
  exact BitVec.extractLsb'_append_eq_right
theorem fld_8_3_7_7_2_2_3_at_24_8 (p0 : BitVec 8) (p1 : BitVec 3) (p2 : BitVec 7) (p3 : BitVec 7) (p4 : BitVec 2) (p5 : BitVec 2) (p6 : BitVec 3) :
    fld (p0 ++ p1 ++ p2 ++ p3 ++ p4 ++ p5 ++ p6) 24 8 = p0 := by
  change @BitVec.extractLsb' (8+3+7+7+2+2+3) 24 8 (p0 ++ p1 ++ p2 ++ p3 ++ p4 ++ p5 ++ p6) = p0
  rw [BitVec.extractLsb'_append_eq_of_le (by decide), BitVec.extractLsb'_append_eq_of_le (by decide), BitVec.extractLsb'_append_eq_of_le (by decide), BitVec.extractLsb'_append_eq_of_le (by decide), BitVec.extractLsb'_append_eq_of_le (by decide)]
  exact BitVec.extractLsb'_append_eq_left
theorem fld_8_3_7_7_2_5_at_0_5 (p0 : BitVec 8) (p1 : BitVec 3) (p2 : BitVec 7) (p3 : BitVec 7) (p4 : BitVec 2) (p5 : BitVec 5) :
    fld (p0 ++ p1 ++ p2 ++ p3 ++ p4 ++ p5) 0 5 = p5 := by
  change @BitVec.extractLsb' (8+3+7+7+2+5) 0 5 (p0 ++ p1 ++ p2 ++ p3 ++ p4 ++ p5) = p5
  exact BitVec.extractLsb'_append_eq_right
theorem fld_8_3_7_7_2_5_at_5_2 (p0 : BitVec 8) (p1 : BitVec 3) (p2 : BitVec 7) (p3 : BitVec 7) (p4 : BitVec 2) (p5 : BitVec 5) :
    fld (p0 ++ p1 ++ p2 ++ p3 ++ p4 ++ p5) 5 2 = p4 := by
  change @BitVec.extractLsb' (8+3+7+7+2+5) 5 2 (p0 ++ p1 ++ p2 ++ p3 ++ p4 ++ p5) = p4
  rw [BitVec.extractLsb'_append_eq_of_le (by decide)]
  exact BitVec.extractLsb'_append_eq_right
theorem fld_8_3_7_7_2_5_at_7_7 (p0 : BitVec 8) (p1 : BitVec 3) (p2 : BitVec 7) (p3 : BitVec 7) (p4 : BitVec 2) (p5 : BitVec 5) :
    fld (p0 ++ p1 ++ p2 ++ p3 ++ p4 ++ p5) 7 7 = p3 := by
  change @BitVec.extractLsb' (8+3+7+7+2+5) 7 7 (p0 ++ p1 ++ p2 ++ p3 ++ p4 ++ p5) = p3
  rw [BitVec.extractLsb'_append_eq_of_le (by decide), BitVec.extractLsb'_append_eq_of_le (by decide)]
  exact BitVec.extractLsb'_append_eq_right
theorem fld_8_3_7_7_2_5_at_14_7 (p0 : BitVec 8) (p1 : BitVec 3) (p2 : BitVec 7) (p3 : BitVec 7) (p4 : BitVec 2) (p5 : BitVec 5) :
    fld (p0 ++ p1 ++ p2 ++ p3 ++ p4 ++ p5) 14 7 = p2 := by
  change @BitVec.extractLsb' (8+3+7+7+2+5) 14 7 (p0 ++ p1 ++ p2 ++ p3 ++ p4 ++ p5) = p2
  rw [BitVec.extractLsb'_append_eq_of_le (by decide), BitVec.extractLsb'_append_eq_of_le (by decide), BitVec.extractLsb'_append_eq_of_le (by decide)]
  exact BitVec.extractLsb'_append_eq_right
theorem fld_8_3_7_7_2_5_at_21_3 (p0 : BitVec 8) (p1 : BitVec 3) (p2 : BitVec 7) (p3 : BitVec 7) (p4 : BitVec 2) (p5 : BitVec 5) :
    fld (p0 ++ p1 ++ p2 ++ p3 ++ p4 ++ p5) 21 3 = p1 := by
  change @BitVec.extractLsb' (8+3+7+7+2+5) 21 3 (p0 ++ p1 ++ p2 ++ p3 ++ p4 ++ p5) = p1
  rw [BitVec.extractLsb'_append_eq_of_le (by decide), BitVec.extractLsb'_append_eq_of_le (by decide), BitVec.extractLsb'_append_eq_of_le (by decide), BitVec.extractLsb'_append_eq_of_le (by decide)]
  exact BitVec.extractLsb'_append_eq_right
theorem fld_8_3_7_7_2_5_at_24_8 (p0 : BitVec 8) (p1 : BitVec 3) (p2 : BitVec 7) (p3 : BitVec 7) (p4 : BitVec 2) (p5 : BitVec 5) :
    fld (p0 ++ p1 ++ p2 ++ p3 ++ p4 ++ p5) 24 8 = p0 := by
  change @BitVec.extractLsb' (8+3+7+7+2+5) 24 8 (p0 ++ p1 ++ p2 ++ p3 ++ p4 ++ p5) = p0
  rw [BitVec.extractLsb'_append_eq_of_le (by decide), BitVec.extractLsb'_append_eq_of_le (by decide), BitVec.extractLsb'_append_eq_of_le (by decide), BitVec.extractLsb'_append_eq_of_le (by decide)]
  exact BitVec.extractLsb'_append_eq_left
theorem fld_8_3_7_7_4_3_at_0_3 (p0 : BitVec 8) (p1 : BitVec 3) (p2 : BitVec 7) (p3 : BitVec 7) (p4 : BitVec 4) (p5 : BitVec 3) :
    fld (p0 ++ p1 ++ p2 ++ p3 ++ p4 ++ p5) 0 3 = p5 := by
  change @BitVec.extractLsb' (8+3+7+7+4+3) 0 3 (p0 ++ p1 ++ p2 ++ p3 ++ p4 ++ p5) = p5
  exact BitVec.extractLsb'_append_eq_right
theorem fld_8_3_7_7_4_3_at_3_4 (p0 : BitVec 8) (p1 : BitVec 3) (p2 : BitVec 7) (p3 : BitVec 7) (p4 : BitVec 4) (p5 : BitVec 3) :
    fld (p0 ++ p1 ++ p2 ++ p3 ++ p4 ++ p5) 3 4 = p4 := by
  change @BitVec.extractLsb' (8+3+7+7+4+3) 3 4 (p0 ++ p1 ++ p2 ++ p3 ++ p4 ++ p5) = p4
  rw [BitVec.extractLsb'_append_eq_of_le (by decide)]
  exact BitVec.extractLsb'_append_eq_right
theorem fld_8_3_7_7_4_3_at_7_7 (p0 : BitVec 8) (p1 : BitVec 3) (p2 : BitVec 7) (p3 : BitVec 7) (p4 : BitVec 4) (p5 : BitVec 3) :
    fld (p0 ++ p1 ++ p2 ++ p3 ++ p4 ++ p5) 7 7 = p3 := by
  change @BitVec.extractLsb' (8+3+7+7+4+3) 7 7 (p0 ++ p1 ++ p2 ++ p3 ++ p4 ++ p5) = p3
  rw [BitVec.extractLsb'_append_eq_of_le (by decide), BitVec.extractLsb'_append_eq_of_le (by decide)]
  exact BitVec.extractLsb'_append_eq_right
theorem fld_8_3_7_7_4_3_at_14_7 (p0 : BitVec 8) (p1 : BitVec 3) (p2 : BitVec 7) (p3 : BitVec 7) (p4 : BitVec 4) (p5 : BitVec 3) :
    fld (p0 ++ p1 ++ p2 ++ p3 ++ p4 ++ p5) 14 7 = p2 := by
  change @BitVec.extractLsb' (8+3+7+7+4+3) 14 7 (p0 ++ p1 ++ p2 ++ p3 ++ p4 ++ p5) = p2
  rw [BitVec.extractLsb'_append_eq_of_le (by decide), BitVec.extractLsb'_append_eq_of_le (by decide), BitVec.extractLsb'_append_eq_of_le (by decide)]
  exact BitVec.extractLsb'_append_eq_right
theorem fld_8_3_7_7_4_3_at_21_3 (p0 : BitVec 8) (p1 : BitVec 3) (p2 : BitVec 7) (p3 : BitVec 7) (p4 : BitVec 4) (p5 : BitVec 3) :
    fld (p0 ++ p1 ++ p2 ++ p3 ++ p4 ++ p5) 21 3 = p1 := by
  change @BitVec.extractLsb' (8+3+7+7+4+3) 21 3 (p0 ++ p1 ++ p2 ++ p3 ++ p4 ++ p5) = p1
  rw [BitVec.extractLsb'_append_eq_of_le (by decide), BitVec.extractLsb'_append_eq_of_le (by decide), BitVec.extractLsb'_append_eq_of_le (by decide), BitVec.extractLsb'_append_eq_of_le (by decide)]
  exact BitVec.extractLsb'_append_eq_right
theorem fld_8_3_7_7_4_3_at_24_8 (p0 : BitVec 8) (p1 : BitVec 3) (p2 : BitVec 7) (p3 : BitVec 7) (p4 : BitVec 4) (p5 : BitVec 3) :
    fld (p0 ++ p1 ++ p2 ++ p3 ++ p4 ++ p5) 24 8 = p0 := by
  change @BitVec.extractLsb' (8+3+7+7+4+3) 24 8 (p0 ++ p1 ++ p2 ++ p3 ++ p4 ++ p5) = p0
  rw [BitVec.extractLsb'_append_eq_of_le (by decide), BitVec.extractLsb'_append_eq_of_le (by decide), BitVec.extractLsb'_append_eq_of_le (by decide), BitVec.extractLsb'_append_eq_of_le (by decide)]
  exact BitVec.extractLsb'_append_eq_left
theorem fld_8_3_7_7_6_1_at_0_1 (p0 : BitVec 8) (p1 : BitVec 3) (p2 : BitVec 7) (p3 : BitVec 7) (p4 : BitVec 6) (p5 : BitVec 1) :
    fld (p0 ++ p1 ++ p2 ++ p3 ++ p4 ++ p5) 0 1 = p5 := by
  change @BitVec.extractLsb' (8+3+7+7+6+1) 0 1 (p0 ++ p1 ++ p2 ++ p3 ++ p4 ++ p5) = p5
  exact BitVec.extractLsb'_append_eq_right
theorem fld_8_3_7_7_6_1_at_1_6 (p0 : BitVec 8) (p1 : BitVec 3) (p2 : BitVec 7) (p3 : BitVec 7) (p4 : BitVec 6) (p5 : BitVec 1) :
    fld (p0 ++ p1 ++ p2 ++ p3 ++ p4 ++ p5) 1 6 = p4 := by
  change @BitVec.extractLsb' (8+3+7+7+6+1) 1 6 (p0 ++ p1 ++ p2 ++ p3 ++ p4 ++ p5) = p4
  rw [BitVec.extractLsb'_append_eq_of_le (by decide)]
  exact BitVec.extractLsb'_append_eq_right
theorem fld_8_3_7_7_6_1_at_7_7 (p0 : BitVec 8) (p1 : BitVec 3) (p2 : BitVec 7) (p3 : BitVec 7) (p4 : BitVec 6) (p5 : BitVec 1) :
    fld (p0 ++ p1 ++ p2 ++ p3 ++ p4 ++ p5) 7 7 = p3 := by
  change @BitVec.extractLsb' (8+3+7+7+6+1) 7 7 (p0 ++ p1 ++ p2 ++ p3 ++ p4 ++ p5) = p3
  rw [BitVec.extractLsb'_append_eq_of_le (by decide), BitVec.extractLsb'_append_eq_of_le (by decide)]
  exact BitVec.extractLsb'_append_eq_right
theorem fld_8_3_7_7_6_1_at_14_7 (p0 : BitVec 8) (p1 : BitVec 3) (p2 : BitVec 7) (p3 : BitVec 7) (p4 : BitVec 6) (p5 : BitVec 1) :
    fld (p0 ++ p1 ++ p2 ++ p3 ++ p4 ++ p5) 14 7 = p2 := by
  change @BitVec.extractLsb' (8+3+7+7+6+1) 14 7 (p0 ++ p1 ++ p2 ++ p3 ++ p4 ++ p5) = p2
  rw [BitVec.extractLsb'_append_eq_of_le (by decide), BitVec.extractLsb'_append_eq_of_le (by decide), BitVec.extractLsb'_append_eq_of_le (by decide)]
  exact BitVec.extractLsb'_append_eq_right
theorem fld_8_3_7_7_6_1_at_21_3 (p0 : BitVec 8) (p1 : BitVec 3) (p2 : BitVec 7) (p3 : BitVec 7) (p4 : BitVec 6) (p5 : BitVec 1) :
    fld (p0 ++ p1 ++ p2 ++ p3 ++ p4 ++ p5) 21 3 = p1 := by
  change @BitVec.extractLsb' (8+3+7+7+6+1) 21 3 (p0 ++ p1 ++ p2 ++ p3 ++ p4 ++ p5) = p1
  rw [BitVec.extractLsb'_append_eq_of_le (by decide), BitVec.extractLsb'_append_eq_of_le (by decide), BitVec.extractLsb'_append_eq_of_le (by decide), BitVec.extractLsb'_append_eq_of_le (by decide)]
  exact BitVec.extractLsb'_append_eq_right
theorem fld_8_3_7_7_6_1_at_24_8 (p0 : BitVec 8) (p1 : BitVec 3) (p2 : BitVec 7) (p3 : BitVec 7) (p4 : BitVec 6) (p5 : BitVec 1) :
    fld (p0 ++ p1 ++ p2 ++ p3 ++ p4 ++ p5) 24 8 = p0 := by
  change @BitVec.extractLsb' (8+3+7+7+6+1) 24 8 (p0 ++ p1 ++ p2 ++ p3 ++ p4 ++ p5) = p0
  rw [BitVec.extractLsb'_append_eq_of_le (by decide), BitVec.extractLsb'_append_eq_of_le (by decide), BitVec.extractLsb'_append_eq_of_le (by decide), BitVec.extractLsb'_append_eq_of_le (by decide)]
  exact BitVec.extractLsb'_append_eq_left
theorem fld_8_3_7_7_7_at_0_7 (p0 : BitVec 8) (p1 : BitVec 3) (p2 : BitVec 7) (p3 : BitVec 7) (p4 : BitVec 7) :
    fld (p0 ++ p1 ++ p2 ++ p3 ++ p4) 0 7 = p4 := by
  change @BitVec.extractLsb' (8+3+7+7+7) 0 7 (p0 ++ p1 ++ p2 ++ p3 ++ p4) = p4
  exact BitVec.extractLsb'_append_eq_right
theorem fld_8_3_7_7_7_at_7_7 (p0 : BitVec 8) (p1 : BitVec 3) (p2 : BitVec 7) (p3 : BitVec 7) (p4 : BitVec 7) :
    fld (p0 ++ p1 ++ p2 ++ p3 ++ p4) 7 7 = p3 := by
  change @BitVec.extractLsb' (8+3+7+7+7) 7 7 (p0 ++ p1 ++ p2 ++ p3 ++ p4) = p3
  rw [BitVec.extractLsb'_append_eq_of_le (by decide)]
  exact BitVec.extractLsb'_append_eq_right
theorem fld_8_3_7_7_7_at_14_7 (p0 : BitVec 8) (p1 : BitVec 3) (p2 : BitVec 7) (p3 : BitVec 7) (p4 : BitVec 7) :
    fld (p0 ++ p1 ++ p2 ++ p3 ++ p4) 14 7 = p2 := by
  change @BitVec.extractLsb' (8+3+7+7+7) 14 7 (p0 ++ p1 ++ p2 ++ p3 ++ p4) = p2
  rw [BitVec.extractLsb'_append_eq_of_le (by decide), BitVec.extractLsb'_append_eq_of_le (by decide)]
  exact BitVec.extractLsb'_append_eq_right
theorem fld_8_3_7_7_7_at_21_3 (p0 : BitVec 8) (p1 : BitVec 3) (p2 : BitVec 7) (p3 : BitVec 7) (p4 : BitVec 7) :
    fld (p0 ++ p1 ++ p2 ++ p3 ++ p4) 21 3 = p1 := by
  change @BitVec.extractLsb' (8+3+7+7+7) 21 3 (p0 ++ p1 ++ p2 ++ p3 ++ p4) = p1
  rw [BitVec.extractLsb'_append_eq_of_le (by decide), BitVec.extractLsb'_append_eq_of_le (by decide), BitVec.extractLsb'_append_eq_of_le (by decide)]
  exact BitVec.extractLsb'_append_eq_right
theorem fld_8_3_7_7_7_at_24_8 (p0 : BitVec 8) (p1 : BitVec 3) (p2 : BitVec 7) (p3 : BitVec 7) (p4 : BitVec 7) :
    fld (p0 ++ p1 ++ p2 ++ p3 ++ p4) 24 8 = p0 := by
  change @BitVec.extractLsb' (8+3+7+7+7) 24 8 (p0 ++ p1 ++ p2 ++ p3 ++ p4) = p0
  rw [BitVec.extractLsb'_append_eq_of_le (by decide), BitVec.extractLsb'_append_eq_of_le (by decide), BitVec.extractLsb'_append_eq_of_le (by decide)]
  exact BitVec.extractLsb'_append_eq_left
theorem fld_8_5_1_6_6_6_at_0_6 (p0 : BitVec 8) (p1 : BitVec 5) (p2 : BitVec 1) (p3 : BitVec 6) (p4 : BitVec 6) (p5 : BitVec 6) :
    fld (p0 ++ p1 ++ p2 ++ p3 ++ p4 ++ p5) 0 6 = p5 := by
  change @BitVec.extractLsb' (8+5+1+6+6+6) 0 6 (p0 ++ p1 ++ p2 ++ p3 ++ p4 ++ p5) = p5
  exact BitVec.extractLsb'_append_eq_right
theorem fld_8_5_1_6_6_6_at_6_6 (p0 : BitVec 8) (p1 : BitVec 5) (p2 : BitVec 1) (p3 : BitVec 6) (p4 : BitVec 6) (p5 : BitVec 6) :
    fld (p0 ++ p1 ++ p2 ++ p3 ++ p4 ++ p5) 6 6 = p4 := by
  change @BitVec.extractLsb' (8+5+1+6+6+6) 6 6 (p0 ++ p1 ++ p2 ++ p3 ++ p4 ++ p5) = p4
  rw [BitVec.extractLsb'_append_eq_of_le (by decide)]
  exact BitVec.extractLsb'_append_eq_right
theorem fld_8_5_1_6_6_6_at_12_6 (p0 : BitVec 8) (p1 : BitVec 5) (p2 : BitVec 1) (p3 : BitVec 6) (p4 : BitVec 6) (p5 : BitVec 6) :
    fld (p0 ++ p1 ++ p2 ++ p3 ++ p4 ++ p5) 12 6 = p3 := by
  change @BitVec.extractLsb' (8+5+1+6+6+6) 12 6 (p0 ++ p1 ++ p2 ++ p3 ++ p4 ++ p5) = p3
  rw [BitVec.extractLsb'_append_eq_of_le (by decide), BitVec.extractLsb'_append_eq_of_le (by decide)]
  exact BitVec.extractLsb'_append_eq_right
theorem fld_8_5_1_6_6_6_at_18_1 (p0 : BitVec 8) (p1 : BitVec 5) (p2 : BitVec 1) (p3 : BitVec 6) (p4 : BitVec 6) (p5 : BitVec 6) :
    fld (p0 ++ p1 ++ p2 ++ p3 ++ p4 ++ p5) 18 1 = p2 := by
  change @BitVec.extractLsb' (8+5+1+6+6+6) 18 1 (p0 ++ p1 ++ p2 ++ p3 ++ p4 ++ p5) = p2
  rw [BitVec.extractLsb'_append_eq_of_le (by decide), BitVec.extractLsb'_append_eq_of_le (by decide), BitVec.extractLsb'_append_eq_of_le (by decide)]
  exact BitVec.extractLsb'_append_eq_right
theorem fld_8_5_1_6_6_6_at_19_5 (p0 : BitVec 8) (p1 : BitVec 5) (p2 : BitVec 1) (p3 : BitVec 6) (p4 : BitVec 6) (p5 : BitVec 6) :
    fld (p0 ++ p1 ++ p2 ++ p3 ++ p4 ++ p5) 19 5 = p1 := by
  change @BitVec.extractLsb' (8+5+1+6+6+6) 19 5 (p0 ++ p1 ++ p2 ++ p3 ++ p4 ++ p5) = p1
  rw [BitVec.extractLsb'_append_eq_of_le (by decide), BitVec.extractLsb'_append_eq_of_le (by decide), BitVec.extractLsb'_append_eq_of_le (by decide), BitVec.extractLsb'_append_eq_of_le (by decide)]
  exact BitVec.extractLsb'_append_eq_right
theorem fld_8_5_1_6_6_6_at_24_8 (p0 : BitVec 8) (p1 : BitVec 5) (p2 : BitVec 1) (p3 : BitVec 6) (p4 : BitVec 6) (p5 : BitVec 6) :
    fld (p0 ++ p1 ++ p2 ++ p3 ++ p4 ++ p5) 24 8 = p0 := by
  change @BitVec.extractLsb' (8+5+1+6+6+6) 24 8 (p0 ++ p1 ++ p2 ++ p3 ++ p4 ++ p5) = p0
  rw [BitVec.extractLsb'_append_eq_of_le (by decide), BitVec.extractLsb'_append_eq_of_le (by decide), BitVec.extractLsb'_append_eq_of_le (by decide), BitVec.extractLsb'_append_eq_of_le (by decide)]
  exact BitVec.extractLsb'_append_eq_left
theorem fld_8_6_6_6_1_2_3_at_0_3 (p0 : BitVec 8) (p1 : BitVec 6) (p2 : BitVec 6) (p3 : BitVec 6) (p4 : BitVec 1) (p5 : BitVec 2) (p6 : BitVec 3) :
    fld (p0 ++ p1 ++ p2 ++ p3 ++ p4 ++ p5 ++ p6) 0 3 = p6 := by
  change @BitVec.extractLsb' (8+6+6+6+1+2+3) 0 3 (p0 ++ p1 ++ p2 ++ p3 ++ p4 ++ p5 ++ p6) = p6
  exact BitVec.extractLsb'_append_eq_right
theorem fld_8_6_6_6_1_2_3_at_3_2 (p0 : BitVec 8) (p1 : BitVec 6) (p2 : BitVec 6) (p3 : BitVec 6) (p4 : BitVec 1) (p5 : BitVec 2) (p6 : BitVec 3) :
    fld (p0 ++ p1 ++ p2 ++ p3 ++ p4 ++ p5 ++ p6) 3 2 = p5 := by
  change @BitVec.extractLsb' (8+6+6+6+1+2+3) 3 2 (p0 ++ p1 ++ p2 ++ p3 ++ p4 ++ p5 ++ p6) = p5
  rw [BitVec.extractLsb'_append_eq_of_le (by decide)]
  exact BitVec.extractLsb'_append_eq_right
theorem fld_8_6_6_6_1_2_3_at_5_1 (p0 : BitVec 8) (p1 : BitVec 6) (p2 : BitVec 6) (p3 : BitVec 6) (p4 : BitVec 1) (p5 : BitVec 2) (p6 : BitVec 3) :
    fld (p0 ++ p1 ++ p2 ++ p3 ++ p4 ++ p5 ++ p6) 5 1 = p4 := by
  change @BitVec.extractLsb' (8+6+6+6+1+2+3) 5 1 (p0 ++ p1 ++ p2 ++ p3 ++ p4 ++ p5 ++ p6) = p4
  rw [BitVec.extractLsb'_append_eq_of_le (by decide), BitVec.extractLsb'_append_eq_of_le (by decide)]
  exact BitVec.extractLsb'_append_eq_right
theorem fld_8_6_6_6_1_2_3_at_6_6 (p0 : BitVec 8) (p1 : BitVec 6) (p2 : BitVec 6) (p3 : BitVec 6) (p4 : BitVec 1) (p5 : BitVec 2) (p6 : BitVec 3) :
    fld (p0 ++ p1 ++ p2 ++ p3 ++ p4 ++ p5 ++ p6) 6 6 = p3 := by
  change @BitVec.extractLsb' (8+6+6+6+1+2+3) 6 6 (p0 ++ p1 ++ p2 ++ p3 ++ p4 ++ p5 ++ p6) = p3
  rw [BitVec.extractLsb'_append_eq_of_le (by decide), BitVec.extractLsb'_append_eq_of_le (by decide), BitVec.extractLsb'_append_eq_of_le (by decide)]
  exact BitVec.extractLsb'_append_eq_right
theorem fld_8_6_6_6_1_2_3_at_12_6 (p0 : BitVec 8) (p1 : BitVec 6) (p2 : BitVec 6) (p3 : BitVec 6) (p4 : BitVec 1) (p5 : BitVec 2) (p6 : BitVec 3) :
    fld (p0 ++ p1 ++ p2 ++ p3 ++ p4 ++ p5 ++ p6) 12 6 = p2 := by
  change @BitVec.extractLsb' (8+6+6+6+1+2+3) 12 6 (p0 ++ p1 ++ p2 ++ p3 ++ p4 ++ p5 ++ p6) = p2
  rw [BitVec.extractLsb'_append_eq_of_le (by decide), BitVec.extractLsb'_append_eq_of_le (by decide), BitVec.extractLsb'_append_eq_of_le (by decide), BitVec.extractLsb'_append_eq_of_le (by decide)]
  exact BitVec.extractLsb'_append_eq_right
theorem fld_8_6_6_6_1_2_3_at_18_6 (p0 : BitVec 8) (p1 : BitVec 6) (p2 : BitVec 6) (p3 : BitVec 6) (p4 : BitVec 1) (p5 : BitVec 2) (p6 : BitVec 3) :
    fld (p0 ++ p1 ++ p2 ++ p3 ++ p4 ++ p5 ++ p6) 18 6 = p1 := by
  change @BitVec.extractLsb' (8+6+6+6+1+2+3) 18 6 (p0 ++ p1 ++ p2 ++ p3 ++ p4 ++ p5 ++ p6) = p1
  rw [BitVec.extractLsb'_append_eq_of_le (by decide), BitVec.extractLsb'_append_eq_of_le (by decide), BitVec.extractLsb'_append_eq_of_le (by decide), BitVec.extractLsb'_append_eq_of_le (by decide), BitVec.extractLsb'_append_eq_of_le (by decide)]
  exact BitVec.extractLsb'_append_eq_right
theorem fld_8_6_6_6_1_2_3_at_24_8 (p0 : BitVec 8) (p1 : BitVec 6) (p2 : BitVec 6) (p3 : BitVec 6) (p4 : BitVec 1) (p5 : BitVec 2) (p6 : BitVec 3) :
    fld (p0 ++ p1 ++ p2 ++ p3 ++ p4 ++ p5 ++ p6) 24 8 = p0 := by
  change @BitVec.extractLsb' (8+6+6+6+1+2+3) 24 8 (p0 ++ p1 ++ p2 ++ p3 ++ p4 ++ p5 ++ p6) = p0
  rw [BitVec.extractLsb'_append_eq_of_le (by decide), BitVec.extractLsb'_append_eq_of_le (by decide), BitVec.extractLsb'_append_eq_of_le (by decide), BitVec.extractLsb'_append_eq_of_le (by decide), BitVec.extractLsb'_append_eq_of_le (by decide)]
  exact BitVec.extractLsb'_append_eq_left
theorem fld_8_6_6_6_2_1_3_at_0_3 (p0 : BitVec 8) (p1 : BitVec 6) (p2 : BitVec 6) (p3 : BitVec 6) (p4 : BitVec 2) (p5 : BitVec 1) (p6 : BitVec 3) :
    fld (p0 ++ p1 ++ p2 ++ p3 ++ p4 ++ p5 ++ p6) 0 3 = p6 := by
  change @BitVec.extractLsb' (8+6+6+6+2+1+3) 0 3 (p0 ++ p1 ++ p2 ++ p3 ++ p4 ++ p5 ++ p6) = p6
  exact BitVec.extractLsb'_append_eq_right
theorem fld_8_6_6_6_2_1_3_at_3_1 (p0 : BitVec 8) (p1 : BitVec 6) (p2 : BitVec 6) (p3 : BitVec 6) (p4 : BitVec 2) (p5 : BitVec 1) (p6 : BitVec 3) :
    fld (p0 ++ p1 ++ p2 ++ p3 ++ p4 ++ p5 ++ p6) 3 1 = p5 := by
  change @BitVec.extractLsb' (8+6+6+6+2+1+3) 3 1 (p0 ++ p1 ++ p2 ++ p3 ++ p4 ++ p5 ++ p6) = p5
  rw [BitVec.extractLsb'_append_eq_of_le (by decide)]
  exact BitVec.extractLsb'_append_eq_right
theorem fld_8_6_6_6_2_1_3_at_4_2 (p0 : BitVec 8) (p1 : BitVec 6) (p2 : BitVec 6) (p3 : BitVec 6) (p4 : BitVec 2) (p5 : BitVec 1) (p6 : BitVec 3) :
    fld (p0 ++ p1 ++ p2 ++ p3 ++ p4 ++ p5 ++ p6) 4 2 = p4 := by
  change @BitVec.extractLsb' (8+6+6+6+2+1+3) 4 2 (p0 ++ p1 ++ p2 ++ p3 ++ p4 ++ p5 ++ p6) = p4
  rw [BitVec.extractLsb'_append_eq_of_le (by decide), BitVec.extractLsb'_append_eq_of_le (by decide)]
  exact BitVec.extractLsb'_append_eq_right
theorem fld_8_6_6_6_2_1_3_at_6_6 (p0 : BitVec 8) (p1 : BitVec 6) (p2 : BitVec 6) (p3 : BitVec 6) (p4 : BitVec 2) (p5 : BitVec 1) (p6 : BitVec 3) :
    fld (p0 ++ p1 ++ p2 ++ p3 ++ p4 ++ p5 ++ p6) 6 6 = p3 := by
  change @BitVec.extractLsb' (8+6+6+6+2+1+3) 6 6 (p0 ++ p1 ++ p2 ++ p3 ++ p4 ++ p5 ++ p6) = p3
  rw [BitVec.extractLsb'_append_eq_of_le (by decide), BitVec.extractLsb'_append_eq_of_le (by decide), BitVec.extractLsb'_append_eq_of_le (by decide)]
  exact BitVec.extractLsb'_append_eq_right
theorem fld_8_6_6_6_2_1_3_at_12_6 (p0 : BitVec 8) (p1 : BitVec 6) (p2 : BitVec 6) (p3 : BitVec 6) (p4 : BitVec 2) (p5 : BitVec 1) (p6 : BitVec 3) :
    fld (p0 ++ p1 ++ p2 ++ p3 ++ p4 ++ p5 ++ p6) 12 6 = p2 := by
  change @BitVec.extractLsb' (8+6+6+6+2+1+3) 12 6 (p0 ++ p1 ++ p2 ++ p3 ++ p4 ++ p5 ++ p6) = p2
  rw [BitVec.extractLsb'_append_eq_of_le (by decide), BitVec.extractLsb'_append_eq_of_le (by decide), BitVec.extractLsb'_append_eq_of_le (by decide), BitVec.extractLsb'_append_eq_of_le (by decide)]
  exact BitVec.extractLsb'_append_eq_right
theorem fld_8_6_6_6_2_1_3_at_18_6 (p0 : BitVec 8) (p1 : BitVec 6) (p2 : BitVec 6) (p3 : BitVec 6) (p4 : BitVec 2) (p5 : BitVec 1) (p6 : BitVec 3) :
    fld (p0 ++ p1 ++ p2 ++ p3 ++ p4 ++ p5 ++ p6) 18 6 = p1 := by
  change @BitVec.extractLsb' (8+6+6+6+2+1+3) 18 6 (p0 ++ p1 ++ p2 ++ p3 ++ p4 ++ p5 ++ p6) = p1
  rw [BitVec.extractLsb'_append_eq_of_le (by decide), BitVec.extractLsb'_append_eq_of_le (by decide), BitVec.extractLsb'_append_eq_of_le (by decide), BitVec.extractLsb'_append_eq_of_le (by decide), BitVec.extractLsb'_append_eq_of_le (by decide)]
  exact BitVec.extractLsb'_append_eq_right
theorem fld_8_6_6_6_2_1_3_at_24_8 (p0 : BitVec 8) (p1 : BitVec 6) (p2 : BitVec 6) (p3 : BitVec 6) (p4 : BitVec 2) (p5 : BitVec 1) (p6 : BitVec 3) :
    fld (p0 ++ p1 ++ p2 ++ p3 ++ p4 ++ p5 ++ p6) 24 8 = p0 := by
  change @BitVec.extractLsb' (8+6+6+6+2+1+3) 24 8 (p0 ++ p1 ++ p2 ++ p3 ++ p4 ++ p5 ++ p6) = p0
  rw [BitVec.extractLsb'_append_eq_of_le (by decide), BitVec.extractLsb'_append_eq_of_le (by decide), BitVec.extractLsb'_append_eq_of_le (by decide), BitVec.extractLsb'_append_eq_of_le (by decide), BitVec.extractLsb'_append_eq_of_le (by decide)]
  exact BitVec.extractLsb'_append_eq_left
theorem fld_8_6_6_6_4_2_at_0_2 (p0 : BitVec 8) (p1 : BitVec 6) (p2 : BitVec 6) (p3 : BitVec 6) (p4 : BitVec 4) (p5 : BitVec 2) :
    fld (p0 ++ p1 ++ p2 ++ p3 ++ p4 ++ p5) 0 2 = p5 := by
  change @BitVec.extractLsb' (8+6+6+6+4+2) 0 2 (p0 ++ p1 ++ p2 ++ p3 ++ p4 ++ p5) = p5
  exact BitVec.extractLsb'_append_eq_right
theorem fld_8_6_6_6_4_2_at_2_4 (p0 : BitVec 8) (p1 : BitVec 6) (p2 : BitVec 6) (p3 : BitVec 6) (p4 : BitVec 4) (p5 : BitVec 2) :
    fld (p0 ++ p1 ++ p2 ++ p3 ++ p4 ++ p5) 2 4 = p4 := by
  change @BitVec.extractLsb' (8+6+6+6+4+2) 2 4 (p0 ++ p1 ++ p2 ++ p3 ++ p4 ++ p5) = p4
  rw [BitVec.extractLsb'_append_eq_of_le (by decide)]
  exact BitVec.extractLsb'_append_eq_right
theorem fld_8_6_6_6_4_2_at_6_6 (p0 : BitVec 8) (p1 : BitVec 6) (p2 : BitVec 6) (p3 : BitVec 6) (p4 : BitVec 4) (p5 : BitVec 2) :
    fld (p0 ++ p1 ++ p2 ++ p3 ++ p4 ++ p5) 6 6 = p3 := by
  change @BitVec.extractLsb' (8+6+6+6+4+2) 6 6 (p0 ++ p1 ++ p2 ++ p3 ++ p4 ++ p5) = p3
  rw [BitVec.extractLsb'_append_eq_of_le (by decide), BitVec.extractLsb'_append_eq_of_le (by decide)]
  exact BitVec.extractLsb'_append_eq_right
theorem fld_8_6_6_6_4_2_at_12_6 (p0 : BitVec 8) (p1 : BitVec 6) (p2 : BitVec 6) (p3 : BitVec 6) (p4 : BitVec 4) (p5 : BitVec 2) :
    fld (p0 ++ p1 ++ p2 ++ p3 ++ p4 ++ p5) 12 6 = p2 := by
  change @BitVec.extractLsb' (8+6+6+6+4+2) 12 6 (p0 ++ p1 ++ p2 ++ p3 ++ p4 ++ p5) = p2
  rw [BitVec.extractLsb'_append_eq_of_le (by decide), BitVec.extractLsb'_append_eq_of_le (by decide), BitVec.extractLsb'_append_eq_of_le (by decide)]
  exact BitVec.extractLsb'_append_eq_right
theorem fld_8_6_6_6_4_2_at_18_6 (p0 : BitVec 8) (p1 : BitVec 6) (p2 : BitVec 6) (p3 : BitVec 6) (p4 : BitVec 4) (p5 : BitVec 2) :
    fld (p0 ++ p1 ++ p2 ++ p3 ++ p4 ++ p5) 18 6 = p1 := by
  change @BitVec.extractLsb' (8+6+6+6+4+2) 18 6 (p0 ++ p1 ++ p2 ++ p3 ++ p4 ++ p5) = p1
  rw [BitVec.extractLsb'_append_eq_of_le (by decide), BitVec.extractLsb'_append_eq_of_le (by decide), BitVec.extractLsb'_append_eq_of_le (by decide), BitVec.extractLsb'_append_eq_of_le (by decide)]
  exact BitVec.extractLsb'_append_eq_right
theorem fld_8_6_6_6_4_2_at_24_8 (p0 : BitVec 8) (p1 : BitVec 6) (p2 : BitVec 6) (p3 : BitVec 6) (p4 : BitVec 4) (p5 : BitVec 2) :
    fld (p0 ++ p1 ++ p2 ++ p3 ++ p4 ++ p5) 24 8 = p0 := by
  change @BitVec.extractLsb' (8+6+6+6+4+2) 24 8 (p0 ++ p1 ++ p2 ++ p3 ++ p4 ++ p5) = p0
  rw [BitVec.extractLsb'_append_eq_of_le (by decide), BitVec.extractLsb'_append_eq_of_le (by decide), BitVec.extractLsb'_append_eq_of_le (by decide), BitVec.extractLsb'_append_eq_of_le (by decide)]
  exact BitVec.extractLsb'_append_eq_left
theorem fld_8_6_6_6_6_at_0_6 (p0 : BitVec 8) (p1 : BitVec 6) (p2 : BitVec 6) (p3 : BitVec 6) (p4 : BitVec 6) :
    fld (p0 ++ p1 ++ p2 ++ p3 ++ p4) 0 6 = p4 := by
  change @BitVec.extractLsb' (8+6+6+6+6) 0 6 (p0 ++ p1 ++ p2 ++ p3 ++ p4) = p4
  exact BitVec.extractLsb'_append_eq_right
theorem fld_8_6_6_6_6_at_6_6 (p0 : BitVec 8) (p1 : BitVec 6) (p2 : BitVec 6) (p3 : BitVec 6) (p4 : BitVec 6) :
    fld (p0 ++ p1 ++ p2 ++ p3 ++ p4) 6 6 = p3 := by
  change @BitVec.extractLsb' (8+6+6+6+6) 6 6 (p0 ++ p1 ++ p2 ++ p3 ++ p4) = p3
  rw [BitVec.extractLsb'_append_eq_of_le (by decide)]
  exact BitVec.extractLsb'_append_eq_right
theorem fld_8_6_6_6_6_at_12_6 (p0 : BitVec 8) (p1 : BitVec 6) (p2 : BitVec 6) (p3 : BitVec 6) (p4 : BitVec 6) :
    fld (p0 ++ p1 ++ p2 ++ p3 ++ p4) 12 6 = p2 := by
  change @BitVec.extractLsb' (8+6+6+6+6) 12 6 (p0 ++ p1 ++ p2 ++ p3 ++ p4) = p2
  rw [BitVec.extractLsb'_append_eq_of_le (by decide), BitVec.extractLsb'_append_eq_of_le (by decide)]
  exact BitVec.extractLsb'_append_eq_right
theorem fld_8_6_6_6_6_at_18_6 (p0 : BitVec 8) (p1 : BitVec 6) (p2 : BitVec 6) (p3 : BitVec 6) (p4 : BitVec 6) :
    fld (p0 ++ p1 ++ p2 ++ p3 ++ p4) 18 6 = p1 := by
  change @BitVec.extractLsb' (8+6+6+6+6) 18 6 (p0 ++ p1 ++ p2 ++ p3 ++ p4) = p1
  rw [BitVec.extractLsb'_append_eq_of_le (by decide), BitVec.extractLsb'_append_eq_of_le (by decide), BitVec.extractLsb'_append_eq_of_le (by decide)]
  exact BitVec.extractLsb'_append_eq_right
theorem fld_8_6_6_6_6_at_24_8 (p0 : BitVec 8) (p1 : BitVec 6) (p2 : BitVec 6) (p3 : BitVec 6) (p4 : BitVec 6) :
    fld (p0 ++ p1 ++ p2 ++ p3 ++ p4) 24 8 = p0 := by
  change @BitVec.extractLsb' (8+6+6+6+6) 24 8 (p0 ++ p1 ++ p2 ++ p3 ++ p4) = p0
  rw [BitVec.extractLsb'_append_eq_of_le (by decide), BitVec.extractLsb'_append_eq_of_le (by decide), BitVec.extractLsb'_append_eq_of_le (by decide)]
  exact BitVec.extractLsb'_append_eq_left
theorem fld_8_24_at_0_24 (p0 : BitVec 8) (p1 : BitVec 24) :
    fld (p0 ++ p1) 0 24 = p1 := by
  change @BitVec.extractLsb' (8+24) 0 24 (p0 ++ p1) = p1
  exact BitVec.extractLsb'_append_eq_right
theorem fld_8_24_at_24_8 (p0 : BitVec 8) (p1 : BitVec 24) :
    fld (p0 ++ p1) 24 8 = p0 := by
  change @BitVec.extractLsb' (8+24) 24 8 (p0 ++ p1) = p0
  exact BitVec.extractLsb'_append_eq_left
theorem fld_8_2_1_7_4_3_7_high (p0 : BitVec 8) (p1 : BitVec 2) (p2 : BitVec 1) (p3 : BitVec 7) (p4 : BitVec 4) (p5 : BitVec 3) (p6 : BitVec 7) :
    fld (p0 ++ p1 ++ p2 ++ p3 ++ p4 ++ p5 ++ p6) 23 1 = p1.extractLsb' 1 1 := by
  change @BitVec.extractLsb' (8+2+1+7+4+3+7) 23 1 (p0 ++ p1 ++ p2 ++ p3 ++ p4 ++ p5 ++ p6) = _
  rw [BitVec.extractLsb'_append_eq_of_le (by decide), BitVec.extractLsb'_append_eq_of_le (by decide), BitVec.extractLsb'_append_eq_of_le (by decide),
    BitVec.extractLsb'_append_eq_of_le (by decide), BitVec.extractLsb'_append_eq_of_le (by decide)]
  exact BitVec.extractLsb'_append_eq_of_add_le (by decide)
theorem fld_7_1_3_7_4_3_7_at_24_8 (p0 : BitVec 7) (p1 : BitVec 1) (p2 : BitVec 3) (p3 : BitVec 7) (p4 : BitVec 4) (p5 : BitVec 3) (p6 : BitVec 7) :
    fld (p0 ++ p1 ++ p2 ++ p3 ++ p4 ++ p5 ++ p6) 24 8 = p0 ++ p1 := by
  change @BitVec.extractLsb' (7+1+3+7+4+3+7) 24 8 (p0 ++ p1 ++ p2 ++ p3 ++ p4 ++ p5 ++ p6) = p0 ++ p1
  rw [BitVec.extractLsb'_append_eq_of_le (by decide), BitVec.extractLsb'_append_eq_of_le (by decide), BitVec.extractLsb'_append_eq_of_le (by decide), BitVec.extractLsb'_append_eq_of_le (by decide), BitVec.extractLsb'_append_eq_of_le (by decide)]
  exact BitVec.extractLsb'_eq_self

end Sys2Proof.Laws
end

