-- ==== Sys2Proof/Laws/PerInstr.lean ====
section
/-! SUPPORT. The family `Encoding`, one lemma per constructor: the decoder reads the word of an encoded instruction as that instruction,
and its fixed fields pass. -/

namespace Sys2Proof.Laws

/-- The base word of an encoded instruction decodes, before the checks of its operands, to the instruction itself (R47, R61). -/
def Encoding.Statement (i : Instr) : Prop :=
  i.encoded = true → ∃ cs, decodeBase i.mods i.word = .row cs i ∧ cs.all Check.ok = true

theorem Encoding.nop (mods : Mods) : Encoding.Statement (.nop mods) := fun _ => by
  let wd : W32 := 0x0#8 ++ 0#3 ++ 0#7 ++ 0#7 ++ 0#7
  refine ⟨[zero wd .reserved 3 14 7, zero wd .reserved 0 7 7, zero wd .reserved 1 0 7], ?_, ?_⟩
  · refine (congrArg (decodeOpcode mods wd) (congrArg BitVec.toNat (show fld wd 24 8 = _ from fld_8_3_7_7_7_at_24_8 ..))).trans ?_
    show (if fld wd 21 3 = 0#3 then .row [zero wd .reserved 3 14 7, zero wd .reserved 0 7 7, zero wd .reserved 1 0 7] (.nop mods) else .bad .fn 10) = Raw.row _ _
    simp only [wd, fld_8_3_7_7_7_at_21_3]
    rfl
  · simp only [List.all_cons, zero, wd, fld_8_3_7_7_7_at_14_7, fld_8_3_7_7_7_at_7_7, fld_8_3_7_7_7_at_0_7]
    rfl
theorem Encoding.bra (mods : Mods) (o : BitVec 24) : Encoding.Statement (.bra mods o) := fun _ => by
  let wd : W32 := 0x1#8 ++ o
  refine ⟨[], ?_, ?_⟩
  · refine (congrArg (decodeOpcode mods wd) (congrArg BitVec.toNat (show fld wd 24 8 = _ from fld_8_24_at_24_8 ..))).trans ?_
    show (.row [] (.bra mods (fld wd 0 24))) = Raw.row _ _
    simp only [wd, fld_8_24_at_0_24]
  · rfl
theorem Encoding.brq (mods : Mods) (q : BitVec 3) (s : BitVec 1) (o : BitVec 20) : Encoding.Statement (.brq mods q s o) := fun _ => by
  let wd : W32 := 0x2#8 ++ q ++ s ++ o
  refine ⟨[], ?_, ?_⟩
  · refine (congrArg (decodeOpcode mods wd) (congrArg BitVec.toNat (show fld wd 24 8 = _ from fld_8_3_1_20_at_24_8 ..))).trans ?_
    show (.row [] (.brq mods (fld wd 21 3) (fld wd 20 1) (fld wd 0 20))) = Raw.row _ _
    simp only [wd, fld_8_3_1_20_at_0_20, fld_8_3_1_20_at_20_1, fld_8_3_1_20_at_21_3]
  · rfl
theorem Encoding.jmp (mods : Mods) (f : BitVec 3) (a : BitVec 7) : Encoding.Statement (.jmp mods f a) := fun _ => by
  let wd : W32 := 0x3#8 ++ f ++ 0#7 ++ a ++ 0#7
  refine ⟨[zero wd .reserved 3 14 7, zero wd .reserved 1 0 7], ?_, ?_⟩
  · refine (congrArg (decodeOpcode mods wd) (congrArg BitVec.toNat (show fld wd 24 8 = _ from fld_8_3_7_7_7_at_24_8 ..))).trans ?_
    show (.row [zero wd .reserved 3 14 7, zero wd .reserved 1 0 7] (.jmp mods (fld wd 21 3) (fld wd 7 7))) = Raw.row _ _
    simp only [wd, fld_8_3_7_7_7_at_7_7, fld_8_3_7_7_7_at_21_3]
  · simp only [List.all_cons, zero, wd, fld_8_3_7_7_7_at_14_7, fld_8_3_7_7_7_at_0_7]
    rfl
theorem Encoding.call (mods : Mods) (o : BitVec 24) : Encoding.Statement (.call mods o) := fun _ => by
  let wd : W32 := 0x4#8 ++ o
  refine ⟨[], ?_, ?_⟩
  · refine (congrArg (decodeOpcode mods wd) (congrArg BitVec.toNat (show fld wd 24 8 = _ from fld_8_24_at_24_8 ..))).trans ?_
    show (.row [] (.call mods (fld wd 0 24))) = Raw.row _ _
    simp only [wd, fld_8_24_at_0_24]
  · rfl
theorem Encoding.callr (mods : Mods) (f : BitVec 3) (a : BitVec 7) : Encoding.Statement (.callr mods f a) := fun _ => by
  let wd : W32 := 0x5#8 ++ f ++ 0#7 ++ a ++ 0#7
  refine ⟨[zero wd .reserved 3 14 7, zero wd .reserved 1 0 7], ?_, ?_⟩
  · refine (congrArg (decodeOpcode mods wd) (congrArg BitVec.toNat (show fld wd 24 8 = _ from fld_8_3_7_7_7_at_24_8 ..))).trans ?_
    show (.row [zero wd .reserved 3 14 7, zero wd .reserved 1 0 7] (.callr mods (fld wd 21 3) (fld wd 7 7))) = Raw.row _ _
    simp only [wd, fld_8_3_7_7_7_at_7_7, fld_8_3_7_7_7_at_21_3]
  · simp only [List.all_cons, zero, wd, fld_8_3_7_7_7_at_14_7, fld_8_3_7_7_7_at_0_7]
    rfl
theorem Encoding.ret (mods : Mods) : Encoding.Statement (.ret mods) := fun _ => by
  let wd : W32 := 0x6#8 ++ 0#3 ++ 0#7 ++ 0#7 ++ 0#7
  refine ⟨[zero wd .reserved 3 14 7, zero wd .reserved 0 7 7, zero wd .reserved 1 0 7], ?_, ?_⟩
  · refine (congrArg (decodeOpcode mods wd) (congrArg BitVec.toNat (show fld wd 24 8 = _ from fld_8_3_7_7_7_at_24_8 ..))).trans ?_
    show (if fld wd 21 3 = 0#3 then .row [zero wd .reserved 3 14 7, zero wd .reserved 0 7 7, zero wd .reserved 1 0 7] (.ret mods) else .bad .fn 10) = Raw.row _ _
    simp only [wd, fld_8_3_7_7_7_at_21_3]
    rfl
  · simp only [List.all_cons, zero, wd, fld_8_3_7_7_7_at_14_7, fld_8_3_7_7_7_at_7_7, fld_8_3_7_7_7_at_0_7]
    rfl
/-- An event has no word. -/
theorem Encoding.returnFillArrival (g : Nat) (pc : W64) : Encoding.Statement (.returnFillArrival g pc) := fun h => nomatch (show false = true from h)
theorem Encoding.jct (mods : Mods) : Encoding.Statement (.jct mods) := fun _ => by
  let wd : W32 := 0x7#8 ++ 0#3 ++ 0#7 ++ 0#7 ++ 0#7
  refine ⟨[zero wd .reserved 3 14 7, zero wd .reserved 0 7 7, zero wd .reserved 1 0 7], ?_, ?_⟩
  · refine (congrArg (decodeOpcode mods wd) (congrArg BitVec.toNat (show fld wd 24 8 = _ from fld_8_3_7_7_7_at_24_8 ..))).trans ?_
    show (if fld wd 21 3 = 0#3 then .row [zero wd .reserved 3 14 7, zero wd .reserved 0 7 7, zero wd .reserved 1 0 7] (.jct mods) else .bad .fn 10) = Raw.row _ _
    simp only [wd, fld_8_3_7_7_7_at_21_3]
    rfl
  · simp only [List.all_cons, zero, wd, fld_8_3_7_7_7_at_14_7, fld_8_3_7_7_7_at_7_7, fld_8_3_7_7_7_at_0_7]
    rfl
/-- An event has no word. -/
theorem Encoding.junctionRelease (g : Nat) (pc : W64) : Encoding.Statement (.junctionRelease g pc) := fun h => nomatch (show false = true from h)
/-- An event has no word. -/
theorem Encoding.junctionTimeout (g : Nat) (pc : W64) : Encoding.Statement (.junctionTimeout g pc) := fun h => nomatch (show false = true from h)
theorem Encoding.fork (mods : Mods) (f : BitVec 3) (d : BitVec 7) (a : BitVec 7) (b : BitVec 7) : Encoding.Statement (.fork mods f d a b) := fun _ => by
  let wd : W32 := 0x8#8 ++ f ++ d ++ a ++ b
  refine ⟨[], ?_, ?_⟩
  · refine (congrArg (decodeOpcode mods wd) (congrArg BitVec.toNat (show fld wd 24 8 = _ from fld_8_3_7_7_7_at_24_8 ..))).trans ?_
    show (.row [] (.fork mods (fld wd 21 3) (fld wd 14 7) (fld wd 7 7) (fld wd 0 7))) = Raw.row _ _
    simp only [wd, fld_8_3_7_7_7_at_0_7, fld_8_3_7_7_7_at_7_7, fld_8_3_7_7_7_at_14_7, fld_8_3_7_7_7_at_21_3]
  · rfl
theorem Encoding.quit (mods : Mods) : Encoding.Statement (.quit mods) := fun _ => by
  let wd : W32 := 0x9#8 ++ 0#3 ++ 0#7 ++ 0#7 ++ 0#7
  refine ⟨[zero wd .reserved 3 14 7, zero wd .reserved 0 7 7, zero wd .reserved 1 0 7], ?_, ?_⟩
  · refine (congrArg (decodeOpcode mods wd) (congrArg BitVec.toNat (show fld wd 24 8 = _ from fld_8_3_7_7_7_at_24_8 ..))).trans ?_
    show (if fld wd 21 3 = 0#3 then .row [zero wd .reserved 3 14 7, zero wd .reserved 0 7 7, zero wd .reserved 1 0 7] (.quit mods) else .bad .fn 10) = Raw.row _ _
    simp only [wd, fld_8_3_7_7_7_at_21_3]
    rfl
  · simp only [List.all_cons, zero, wd, fld_8_3_7_7_7_at_14_7, fld_8_3_7_7_7_at_7_7, fld_8_3_7_7_7_at_0_7]
    rfl
theorem Encoding.yield (mods : Mods) : Encoding.Statement (.yield mods) := fun _ => by
  let wd : W32 := 0xA#8 ++ 0#3 ++ 0#7 ++ 0#7 ++ 0#7
  refine ⟨[zero wd .reserved 3 14 7, zero wd .reserved 0 7 7, zero wd .reserved 1 0 7], ?_, ?_⟩
  · refine (congrArg (decodeOpcode mods wd) (congrArg BitVec.toNat (show fld wd 24 8 = _ from fld_8_3_7_7_7_at_24_8 ..))).trans ?_
    show (if fld wd 21 3 = 0#3 then .row [zero wd .reserved 3 14 7, zero wd .reserved 0 7 7, zero wd .reserved 1 0 7] (.yield mods) else .bad .fn 10) = Raw.row _ _
    simp only [wd, fld_8_3_7_7_7_at_21_3]
    rfl
  · simp only [List.all_cons, zero, wd, fld_8_3_7_7_7_at_14_7, fld_8_3_7_7_7_at_7_7, fld_8_3_7_7_7_at_0_7]
    rfl
theorem Encoding.win (mods : Mods) (i : BitVec 7) : Encoding.Statement (.win mods i) := fun _ => by
  let wd : W32 := 0xB#8 ++ 0#3 ++ 0#7 ++ 0#7 ++ i
  refine ⟨[zero wd .reserved 3 14 7, zero wd .reserved 0 7 7], ?_, ?_⟩
  · refine (congrArg (decodeOpcode mods wd) (congrArg BitVec.toNat (show fld wd 24 8 = _ from fld_8_3_7_7_7_at_24_8 ..))).trans ?_
    show (if fld wd 21 3 = 0#3 then .row [zero wd .reserved 3 14 7, zero wd .reserved 0 7 7] (.win mods (fld wd 0 7)) else if fld wd 21 3 = 1#3 then .row [zero wd .reserved 3 14 7, zero wd .reserved 12 0 7] (.winK mods (fld wd 7 7)) else .bad .fn 10) = Raw.row _ _
    simp only [wd, fld_8_3_7_7_7_at_0_7, fld_8_3_7_7_7_at_7_7, fld_8_3_7_7_7_at_21_3]
    rfl
  · simp only [List.all_cons, zero, wd, fld_8_3_7_7_7_at_14_7, fld_8_3_7_7_7_at_7_7]
    rfl
theorem Encoding.winK (mods : Mods) (a : BitVec 7) : Encoding.Statement (.winK mods a) := fun _ => by
  let wd : W32 := 0xB#8 ++ 1#3 ++ 0#7 ++ a ++ 0#7
  refine ⟨[zero wd .reserved 3 14 7, zero wd .reserved 12 0 7], ?_, ?_⟩
  · refine (congrArg (decodeOpcode mods wd) (congrArg BitVec.toNat (show fld wd 24 8 = _ from fld_8_3_7_7_7_at_24_8 ..))).trans ?_
    show (if fld wd 21 3 = 0#3 then .row [zero wd .reserved 3 14 7, zero wd .reserved 0 7 7] (.win mods (fld wd 0 7)) else if fld wd 21 3 = 1#3 then .row [zero wd .reserved 3 14 7, zero wd .reserved 12 0 7] (.winK mods (fld wd 7 7)) else .bad .fn 10) = Raw.row _ _
    simp only [wd, fld_8_3_7_7_7_at_0_7, fld_8_3_7_7_7_at_7_7, fld_8_3_7_7_7_at_21_3]
    rfl
  · simp only [List.all_cons, zero, wd, fld_8_3_7_7_7_at_14_7, fld_8_3_7_7_7_at_0_7]
    rfl
theorem Encoding.wadd (mods : Mods) (i : BitVec 7) : Encoding.Statement (.wadd mods i) := fun _ => by
  let wd : W32 := 0xC#8 ++ 0#3 ++ 0#7 ++ 0#7 ++ i
  refine ⟨[zero wd .reserved 3 14 7, zero wd .reserved 0 7 7], ?_, ?_⟩
  · refine (congrArg (decodeOpcode mods wd) (congrArg BitVec.toNat (show fld wd 24 8 = _ from fld_8_3_7_7_7_at_24_8 ..))).trans ?_
    show (if fld wd 21 3 = 0#3 then .row [zero wd .reserved 3 14 7, zero wd .reserved 0 7 7] (.wadd mods (fld wd 0 7)) else .bad .fn 10) = Raw.row _ _
    simp only [wd, fld_8_3_7_7_7_at_0_7, fld_8_3_7_7_7_at_21_3]
    rfl
  · simp only [List.all_cons, zero, wd, fld_8_3_7_7_7_at_14_7, fld_8_3_7_7_7_at_7_7]
    rfl
theorem Encoding.kli (mods : Mods) (d : BitVec 7) (i : BitVec 7) : Encoding.Statement (.kli mods d i) := fun _ => by
  let wd : W32 := 0x10#8 ++ 0#3 ++ d ++ 0#7 ++ i
  refine ⟨[zero wd .reserved 0 7 7], ?_, ?_⟩
  · refine (congrArg (decodeOpcode mods wd) (congrArg BitVec.toNat (show fld wd 24 8 = _ from fld_8_3_7_7_7_at_24_8 ..))).trans ?_
    show (if fld wd 21 3 = 0#3 then .row [zero wd .reserved 0 7 7] (.kli mods (fld wd 14 7) (fld wd 0 7)) else .bad .fn 10) = Raw.row _ _
    simp only [wd, fld_8_3_7_7_7_at_0_7, fld_8_3_7_7_7_at_14_7, fld_8_3_7_7_7_at_21_3]
    rfl
  · simp only [List.all_cons, zero, wd, fld_8_3_7_7_7_at_7_7]
    rfl
theorem Encoding.khi (mods : Mods) (n : BitVec 2) (d : BitVec 7) (a : BitVec 7) (i : BitVec 7) : Encoding.Statement (.khi mods n d a i) := fun _ => by
  let wd : W32 := 0x11#8 ++ 0#1 ++ n ++ d ++ a ++ i
  refine ⟨[], ?_, ?_⟩
  · refine (congrArg (decodeOpcode mods wd) (congrArg BitVec.toNat (show fld wd 24 8 = _ from fld_8_1_2_7_7_7_at_24_8 ..))).trans ?_
    show (if fld wd 23 1 = 0#1 then .row [] (.khi mods (fld wd 21 2) (fld wd 14 7) (fld wd 7 7) (fld wd 0 7)) else .bad .fn 10) = Raw.row _ _
    simp only [wd, fld_8_1_2_7_7_7_at_0_7, fld_8_1_2_7_7_7_at_7_7, fld_8_1_2_7_7_7_at_14_7, fld_8_1_2_7_7_7_at_21_2, fld_8_1_2_7_7_7_at_23_1]
    rfl
  · rfl
theorem Encoding.kmov (mods : Mods) (d : BitVec 7) (a : BitVec 7) : Encoding.Statement (.kmov mods d a) := fun _ => by
  let wd : W32 := 0x12#8 ++ 0#3 ++ d ++ a ++ 0#7
  refine ⟨[zero wd .reserved 1 0 7], ?_, ?_⟩
  · refine (congrArg (decodeOpcode mods wd) (congrArg BitVec.toNat (show fld wd 24 8 = _ from fld_8_3_7_7_7_at_24_8 ..))).trans ?_
    show (if fld wd 21 3 = 0#3 then .row [zero wd .reserved 1 0 7] (.kmov mods (fld wd 14 7) (fld wd 7 7)) else .bad .fn 10) = Raw.row _ _
    simp only [wd, fld_8_3_7_7_7_at_7_7, fld_8_3_7_7_7_at_14_7, fld_8_3_7_7_7_at_21_3]
    rfl
  · simp only [List.all_cons, zero, wd, fld_8_3_7_7_7_at_0_7]
    rfl
theorem Encoding.kadd (mods : Mods) (t : BitVec 2) (d : BitVec 7) (a : BitVec 7) (b : BitVec 7) : Encoding.Statement (.kadd mods t d a b) := fun _ => by
  let wd : W32 := 0x13#8 ++ 0#1 ++ t ++ d ++ a ++ b
  refine ⟨[], ?_, ?_⟩
  · refine (congrArg (decodeOpcode mods wd) (congrArg BitVec.toNat (show fld wd 24 8 = _ from fld_8_1_2_7_7_7_at_24_8 ..))).trans ?_
    show (if fld wd 23 1 = 0#1 then .row [] (.kadd mods (fld wd 21 2) (fld wd 14 7) (fld wd 7 7) (fld wd 0 7)) else .bad .fn 10) = Raw.row _ _
    simp only [wd, fld_8_1_2_7_7_7_at_0_7, fld_8_1_2_7_7_7_at_7_7, fld_8_1_2_7_7_7_at_14_7, fld_8_1_2_7_7_7_at_21_2, fld_8_1_2_7_7_7_at_23_1]
    rfl
  · rfl
theorem Encoding.ksub (mods : Mods) (t : BitVec 2) (d : BitVec 7) (a : BitVec 7) (b : BitVec 7) : Encoding.Statement (.ksub mods t d a b) := fun _ => by
  let wd : W32 := 0x14#8 ++ 0#1 ++ t ++ d ++ a ++ b
  refine ⟨[], ?_, ?_⟩
  · refine (congrArg (decodeOpcode mods wd) (congrArg BitVec.toNat (show fld wd 24 8 = _ from fld_8_1_2_7_7_7_at_24_8 ..))).trans ?_
    show (if fld wd 23 1 = 0#1 then .row [] (.ksub mods (fld wd 21 2) (fld wd 14 7) (fld wd 7 7) (fld wd 0 7)) else .bad .fn 10) = Raw.row _ _
    simp only [wd, fld_8_1_2_7_7_7_at_0_7, fld_8_1_2_7_7_7_at_7_7, fld_8_1_2_7_7_7_at_14_7, fld_8_1_2_7_7_7_at_21_2, fld_8_1_2_7_7_7_at_23_1]
    rfl
  · rfl
theorem Encoding.kmul (mods : Mods) (t : BitVec 2) (d : BitVec 7) (a : BitVec 7) (b : BitVec 7) : Encoding.Statement (.kmul mods t d a b) := fun _ => by
  let wd : W32 := 0x15#8 ++ 0#1 ++ t ++ d ++ a ++ b
  refine ⟨[], ?_, ?_⟩
  · refine (congrArg (decodeOpcode mods wd) (congrArg BitVec.toNat (show fld wd 24 8 = _ from fld_8_1_2_7_7_7_at_24_8 ..))).trans ?_
    show (if fld wd 23 1 = 0#1 then .row [] (.kmul mods (fld wd 21 2) (fld wd 14 7) (fld wd 7 7) (fld wd 0 7)) else .bad .fn 10) = Raw.row _ _
    simp only [wd, fld_8_1_2_7_7_7_at_0_7, fld_8_1_2_7_7_7_at_7_7, fld_8_1_2_7_7_7_at_14_7, fld_8_1_2_7_7_7_at_21_2, fld_8_1_2_7_7_7_at_23_1]
    rfl
  · rfl
theorem Encoding.kmulh (mods : Mods) (t : BitVec 2) (d : BitVec 7) (a : BitVec 7) (b : BitVec 7) : Encoding.Statement (.kmulh mods t d a b) := fun _ => by
  let wd : W32 := 0x16#8 ++ 0#1 ++ t ++ d ++ a ++ b
  refine ⟨[], ?_, ?_⟩
  · refine (congrArg (decodeOpcode mods wd) (congrArg BitVec.toNat (show fld wd 24 8 = _ from fld_8_1_2_7_7_7_at_24_8 ..))).trans ?_
    show (if fld wd 23 1 = 0#1 then .row [] (.kmulh mods (fld wd 21 2) (fld wd 14 7) (fld wd 7 7) (fld wd 0 7)) else .bad .fn 10) = Raw.row _ _
    simp only [wd, fld_8_1_2_7_7_7_at_0_7, fld_8_1_2_7_7_7_at_7_7, fld_8_1_2_7_7_7_at_14_7, fld_8_1_2_7_7_7_at_21_2, fld_8_1_2_7_7_7_at_23_1]
    rfl
  · rfl
theorem Encoding.kdiv (mods : Mods) (t : BitVec 2) (d : BitVec 7) (a : BitVec 7) (b : BitVec 7) : Encoding.Statement (.kdiv mods t d a b) := fun _ => by
  let wd : W32 := 0x17#8 ++ 0#1 ++ t ++ d ++ a ++ b
  refine ⟨[], ?_, ?_⟩
  · refine (congrArg (decodeOpcode mods wd) (congrArg BitVec.toNat (show fld wd 24 8 = _ from fld_8_1_2_7_7_7_at_24_8 ..))).trans ?_
    show (if fld wd 23 1 = 0#1 then .row [] (.kdiv mods (fld wd 21 2) (fld wd 14 7) (fld wd 7 7) (fld wd 0 7)) else .bad .fn 10) = Raw.row _ _
    simp only [wd, fld_8_1_2_7_7_7_at_0_7, fld_8_1_2_7_7_7_at_7_7, fld_8_1_2_7_7_7_at_14_7, fld_8_1_2_7_7_7_at_21_2, fld_8_1_2_7_7_7_at_23_1]
    rfl
  · rfl
theorem Encoding.krem (mods : Mods) (t : BitVec 2) (d : BitVec 7) (a : BitVec 7) (b : BitVec 7) : Encoding.Statement (.krem mods t d a b) := fun _ => by
  let wd : W32 := 0x18#8 ++ 0#1 ++ t ++ d ++ a ++ b
  refine ⟨[], ?_, ?_⟩
  · refine (congrArg (decodeOpcode mods wd) (congrArg BitVec.toNat (show fld wd 24 8 = _ from fld_8_1_2_7_7_7_at_24_8 ..))).trans ?_
    show (if fld wd 23 1 = 0#1 then .row [] (.krem mods (fld wd 21 2) (fld wd 14 7) (fld wd 7 7) (fld wd 0 7)) else .bad .fn 10) = Raw.row _ _
    simp only [wd, fld_8_1_2_7_7_7_at_0_7, fld_8_1_2_7_7_7_at_7_7, fld_8_1_2_7_7_7_at_14_7, fld_8_1_2_7_7_7_at_21_2, fld_8_1_2_7_7_7_at_23_1]
    rfl
  · rfl
theorem Encoding.kand (mods : Mods) (d : BitVec 7) (a : BitVec 7) (b : BitVec 7) : Encoding.Statement (.kand mods d a b) := fun _ => by
  let wd : W32 := 0x19#8 ++ 0#3 ++ d ++ a ++ b
  refine ⟨[], ?_, ?_⟩
  · refine (congrArg (decodeOpcode mods wd) (congrArg BitVec.toNat (show fld wd 24 8 = _ from fld_8_3_7_7_7_at_24_8 ..))).trans ?_
    show (if fld wd 21 3 = 0#3 then .row [] (.kand mods (fld wd 14 7) (fld wd 7 7) (fld wd 0 7)) else .bad .fn 10) = Raw.row _ _
    simp only [wd, fld_8_3_7_7_7_at_0_7, fld_8_3_7_7_7_at_7_7, fld_8_3_7_7_7_at_14_7, fld_8_3_7_7_7_at_21_3]
    rfl
  · rfl
theorem Encoding.kor (mods : Mods) (d : BitVec 7) (a : BitVec 7) (b : BitVec 7) : Encoding.Statement (.kor mods d a b) := fun _ => by
  let wd : W32 := 0x1A#8 ++ 0#3 ++ d ++ a ++ b
  refine ⟨[], ?_, ?_⟩
  · refine (congrArg (decodeOpcode mods wd) (congrArg BitVec.toNat (show fld wd 24 8 = _ from fld_8_3_7_7_7_at_24_8 ..))).trans ?_
    show (if fld wd 21 3 = 0#3 then .row [] (.kor mods (fld wd 14 7) (fld wd 7 7) (fld wd 0 7)) else .bad .fn 10) = Raw.row _ _
    simp only [wd, fld_8_3_7_7_7_at_0_7, fld_8_3_7_7_7_at_7_7, fld_8_3_7_7_7_at_14_7, fld_8_3_7_7_7_at_21_3]
    rfl
  · rfl
theorem Encoding.kxor (mods : Mods) (d : BitVec 7) (a : BitVec 7) (b : BitVec 7) : Encoding.Statement (.kxor mods d a b) := fun _ => by
  let wd : W32 := 0x1B#8 ++ 0#3 ++ d ++ a ++ b
  refine ⟨[], ?_, ?_⟩
  · refine (congrArg (decodeOpcode mods wd) (congrArg BitVec.toNat (show fld wd 24 8 = _ from fld_8_3_7_7_7_at_24_8 ..))).trans ?_
    show (if fld wd 21 3 = 0#3 then .row [] (.kxor mods (fld wd 14 7) (fld wd 7 7) (fld wd 0 7)) else .bad .fn 10) = Raw.row _ _
    simp only [wd, fld_8_3_7_7_7_at_0_7, fld_8_3_7_7_7_at_7_7, fld_8_3_7_7_7_at_14_7, fld_8_3_7_7_7_at_21_3]
    rfl
  · rfl
theorem Encoding.kshl (mods : Mods) (t : BitVec 1) (d : BitVec 7) (a : BitVec 7) (b : BitVec 7) : Encoding.Statement (.kshl mods t d a b) := fun _ => by
  let wd : W32 := 0x1C#8 ++ 0#1 ++ t ++ 1#1 ++ d ++ a ++ b
  refine ⟨[], ?_, ?_⟩
  · refine (congrArg (decodeOpcode mods wd) (congrArg BitVec.toNat (show fld wd 24 8 = _ from fld_8_1_1_1_7_7_7_at_24_8 ..))).trans ?_
    show (if fld wd 23 1 = 0#1 ∧ fld wd 21 1 = 1#1 then .row [] (.kshl mods (fld wd 22 1) (fld wd 14 7) (fld wd 7 7) (fld wd 0 7)) else .bad .fn 10) = Raw.row _ _
    simp only [wd, fld_8_1_1_1_7_7_7_at_0_7, fld_8_1_1_1_7_7_7_at_7_7, fld_8_1_1_1_7_7_7_at_14_7, fld_8_1_1_1_7_7_7_at_21_1, fld_8_1_1_1_7_7_7_at_22_1, fld_8_1_1_1_7_7_7_at_23_1]
    rfl
  · rfl
theorem Encoding.kshr (mods : Mods) (t : BitVec 1) (d : BitVec 7) (a : BitVec 7) (b : BitVec 7) : Encoding.Statement (.kshr mods t d a b) := fun _ => by
  let wd : W32 := 0x1D#8 ++ 0#1 ++ t ++ 1#1 ++ d ++ a ++ b
  refine ⟨[], ?_, ?_⟩
  · refine (congrArg (decodeOpcode mods wd) (congrArg BitVec.toNat (show fld wd 24 8 = _ from fld_8_1_1_1_7_7_7_at_24_8 ..))).trans ?_
    show (if fld wd 23 1 = 0#1 ∧ fld wd 21 1 = 1#1 then .row [] (.kshr mods (fld wd 22 1) (fld wd 14 7) (fld wd 7 7) (fld wd 0 7)) else .bad .fn 10) = Raw.row _ _
    simp only [wd, fld_8_1_1_1_7_7_7_at_0_7, fld_8_1_1_1_7_7_7_at_7_7, fld_8_1_1_1_7_7_7_at_14_7, fld_8_1_1_1_7_7_7_at_21_1, fld_8_1_1_1_7_7_7_at_22_1, fld_8_1_1_1_7_7_7_at_23_1]
    rfl
  · rfl
theorem Encoding.ksra (mods : Mods) (t : BitVec 1) (d : BitVec 7) (a : BitVec 7) (b : BitVec 7) : Encoding.Statement (.ksra mods t d a b) := fun _ => by
  let wd : W32 := 0x1E#8 ++ 0#1 ++ t ++ 0#1 ++ d ++ a ++ b
  refine ⟨[], ?_, ?_⟩
  · refine (congrArg (decodeOpcode mods wd) (congrArg BitVec.toNat (show fld wd 24 8 = _ from fld_8_1_1_1_7_7_7_at_24_8 ..))).trans ?_
    show (if fld wd 23 1 = 0#1 ∧ fld wd 21 1 = 0#1 then .row [] (.ksra mods (fld wd 22 1) (fld wd 14 7) (fld wd 7 7) (fld wd 0 7)) else .bad .fn 10) = Raw.row _ _
    simp only [wd, fld_8_1_1_1_7_7_7_at_0_7, fld_8_1_1_1_7_7_7_at_7_7, fld_8_1_1_1_7_7_7_at_14_7, fld_8_1_1_1_7_7_7_at_21_1, fld_8_1_1_1_7_7_7_at_22_1, fld_8_1_1_1_7_7_7_at_23_1]
    rfl
  · rfl
theorem Encoding.kmin (mods : Mods) (t : BitVec 2) (d : BitVec 7) (a : BitVec 7) (b : BitVec 7) : Encoding.Statement (.kmin mods t d a b) := fun _ => by
  let wd : W32 := 0x1F#8 ++ 0#1 ++ t ++ d ++ a ++ b
  refine ⟨[], ?_, ?_⟩
  · refine (congrArg (decodeOpcode mods wd) (congrArg BitVec.toNat (show fld wd 24 8 = _ from fld_8_1_2_7_7_7_at_24_8 ..))).trans ?_
    show (if fld wd 23 1 = 0#1 then .row [] (.kmin mods (fld wd 21 2) (fld wd 14 7) (fld wd 7 7) (fld wd 0 7)) else .bad .fn 10) = Raw.row _ _
    simp only [wd, fld_8_1_2_7_7_7_at_0_7, fld_8_1_2_7_7_7_at_7_7, fld_8_1_2_7_7_7_at_14_7, fld_8_1_2_7_7_7_at_21_2, fld_8_1_2_7_7_7_at_23_1]
    rfl
  · rfl
theorem Encoding.kmax (mods : Mods) (t : BitVec 2) (d : BitVec 7) (a : BitVec 7) (b : BitVec 7) : Encoding.Statement (.kmax mods t d a b) := fun _ => by
  let wd : W32 := 0x20#8 ++ 0#1 ++ t ++ d ++ a ++ b
  refine ⟨[], ?_, ?_⟩
  · refine (congrArg (decodeOpcode mods wd) (congrArg BitVec.toNat (show fld wd 24 8 = _ from fld_8_1_2_7_7_7_at_24_8 ..))).trans ?_
    show (if fld wd 23 1 = 0#1 then .row [] (.kmax mods (fld wd 21 2) (fld wd 14 7) (fld wd 7 7) (fld wd 0 7)) else .bad .fn 10) = Raw.row _ _
    simp only [wd, fld_8_1_2_7_7_7_at_0_7, fld_8_1_2_7_7_7_at_7_7, fld_8_1_2_7_7_7_at_14_7, fld_8_1_2_7_7_7_at_21_2, fld_8_1_2_7_7_7_at_23_1]
    rfl
  · rfl
theorem Encoding.kcmp (mods : Mods) (c : BitVec 3) (d : BitVec 7) (a : BitVec 7) (b : BitVec 7) : Encoding.Statement (.kcmp mods c d a b) := fun _ => by
  let wd : W32 := 0x21#8 ++ c ++ d ++ a ++ b
  refine ⟨[], ?_, ?_⟩
  · refine (congrArg (decodeOpcode mods wd) (congrArg BitVec.toNat (show fld wd 24 8 = _ from fld_8_3_7_7_7_at_24_8 ..))).trans ?_
    show (.row [] (.kcmp mods (fld wd 21 3) (fld wd 14 7) (fld wd 7 7) (fld wd 0 7))) = Raw.row _ _
    simp only [wd, fld_8_3_7_7_7_at_0_7, fld_8_3_7_7_7_at_7_7, fld_8_3_7_7_7_at_14_7, fld_8_3_7_7_7_at_21_3]
  · rfl
theorem Encoding.ksel (mods : Mods) (q : BitVec 3) (d : BitVec 7) (a : BitVec 7) (b : BitVec 7) : Encoding.Statement (.ksel mods q d a b) := fun _ => by
  let wd : W32 := 0x22#8 ++ q ++ d ++ a ++ b
  refine ⟨[], ?_, ?_⟩
  · refine (congrArg (decodeOpcode mods wd) (congrArg BitVec.toNat (show fld wd 24 8 = _ from fld_8_3_7_7_7_at_24_8 ..))).trans ?_
    show (.row [] (.ksel mods (fld wd 21 3) (fld wd 14 7) (fld wd 7 7) (fld wd 0 7))) = Raw.row _ _
    simp only [wd, fld_8_3_7_7_7_at_0_7, fld_8_3_7_7_7_at_7_7, fld_8_3_7_7_7_at_14_7, fld_8_3_7_7_7_at_21_3]
  · rfl
theorem Encoding.kclz (mods : Mods) (t : BitVec 1) (d : BitVec 7) (a : BitVec 7) : Encoding.Statement (.kclz mods t d a) := fun _ => by
  let wd : W32 := 0x23#8 ++ 0#1 ++ t ++ 1#1 ++ d ++ a ++ 0#7
  refine ⟨[zero wd .reserved 1 0 7], ?_, ?_⟩
  · refine (congrArg (decodeOpcode mods wd) (congrArg BitVec.toNat (show fld wd 24 8 = _ from fld_8_1_1_1_7_7_7_at_24_8 ..))).trans ?_
    show (if fld wd 23 1 = 0#1 ∧ fld wd 21 1 = 1#1 then .row [zero wd .reserved 1 0 7] (.kclz mods (fld wd 22 1) (fld wd 14 7) (fld wd 7 7)) else .bad .fn 10) = Raw.row _ _
    simp only [wd, fld_8_1_1_1_7_7_7_at_7_7, fld_8_1_1_1_7_7_7_at_14_7, fld_8_1_1_1_7_7_7_at_21_1, fld_8_1_1_1_7_7_7_at_22_1, fld_8_1_1_1_7_7_7_at_23_1]
    rfl
  · simp only [List.all_cons, zero, wd, fld_8_1_1_1_7_7_7_at_0_7]
    rfl
theorem Encoding.kpopc (mods : Mods) (t : BitVec 1) (d : BitVec 7) (a : BitVec 7) : Encoding.Statement (.kpopc mods t d a) := fun _ => by
  let wd : W32 := 0x24#8 ++ 0#1 ++ t ++ 1#1 ++ d ++ a ++ 0#7
  refine ⟨[zero wd .reserved 1 0 7], ?_, ?_⟩
  · refine (congrArg (decodeOpcode mods wd) (congrArg BitVec.toNat (show fld wd 24 8 = _ from fld_8_1_1_1_7_7_7_at_24_8 ..))).trans ?_
    show (if fld wd 23 1 = 0#1 ∧ fld wd 21 1 = 1#1 then .row [zero wd .reserved 1 0 7] (.kpopc mods (fld wd 22 1) (fld wd 14 7) (fld wd 7 7)) else .bad .fn 10) = Raw.row _ _
    simp only [wd, fld_8_1_1_1_7_7_7_at_7_7, fld_8_1_1_1_7_7_7_at_14_7, fld_8_1_1_1_7_7_7_at_21_1, fld_8_1_1_1_7_7_7_at_22_1, fld_8_1_1_1_7_7_7_at_23_1]
    rfl
  · simp only [List.all_cons, zero, wd, fld_8_1_1_1_7_7_7_at_0_7]
    rfl
theorem Encoding.kfromv (mods : Mods) (f : BitVec 3) (d : BitVec 7) (a : BitVec 7) : Encoding.Statement (.kfromv mods f d a) := fun _ => by
  let wd : W32 := 0x25#8 ++ f ++ d ++ a ++ 0#7
  refine ⟨[zero wd .reserved 1 0 7], ?_, ?_⟩
  · refine (congrArg (decodeOpcode mods wd) (congrArg BitVec.toNat (show fld wd 24 8 = _ from fld_8_3_7_7_7_at_24_8 ..))).trans ?_
    show (.row [zero wd .reserved 1 0 7] (.kfromv mods (fld wd 21 3) (fld wd 14 7) (fld wd 7 7))) = Raw.row _ _
    simp only [wd, fld_8_3_7_7_7_at_7_7, fld_8_3_7_7_7_at_14_7, fld_8_3_7_7_7_at_21_3]
  · simp only [List.all_cons, zero, wd, fld_8_3_7_7_7_at_0_7]
    rfl
theorem Encoding.kfromq (mods : Mods) (f : BitVec 1) (d : BitVec 7) : Encoding.Statement (.kfromq mods f d) := fun _ => by
  let wd : W32 := 0x26#8 ++ 0#2 ++ f ++ d ++ 0#7 ++ 0#7
  refine ⟨[zero wd .reserved 0 7 7, zero wd .reserved 1 0 7], ?_, ?_⟩
  · refine (congrArg (decodeOpcode mods wd) (congrArg BitVec.toNat (show fld wd 24 8 = _ from fld_8_2_1_7_7_7_at_24_8 ..))).trans ?_
    show (if fld wd 22 2 = 0#2 then .row [zero wd .reserved 0 7 7, zero wd .reserved 1 0 7] (.kfromq mods (fld wd 21 1) (fld wd 14 7)) else .bad .fn 10) = Raw.row _ _
    simp only [wd, fld_8_2_1_7_7_7_at_14_7, fld_8_2_1_7_7_7_at_21_1, fld_8_2_1_7_7_7_at_22_2]
    rfl
  · simp only [List.all_cons, zero, wd, fld_8_2_1_7_7_7_at_7_7, fld_8_2_1_7_7_7_at_0_7]
    rfl
theorem Encoding.ktoq (mods : Mods) (f : BitVec 1) (d : BitVec 7) (a : BitVec 7) : Encoding.Statement (.ktoq mods f d a) := fun _ => by
  let wd : W32 := 0x27#8 ++ 0#2 ++ f ++ d ++ a ++ 0#7
  refine ⟨[zero wd .reserved 1 0 7], ?_, ?_⟩
  · refine (congrArg (decodeOpcode mods wd) (congrArg BitVec.toNat (show fld wd 24 8 = _ from fld_8_2_1_7_7_7_at_24_8 ..))).trans ?_
    show (if fld wd 22 2 = 0#2 then .row [zero wd .reserved 1 0 7] (.ktoq mods (fld wd 21 1) (fld wd 14 7) (fld wd 7 7)) else .bad .fn 10) = Raw.row _ _
    simp only [wd, fld_8_2_1_7_7_7_at_7_7, fld_8_2_1_7_7_7_at_14_7, fld_8_2_1_7_7_7_at_21_1, fld_8_2_1_7_7_7_at_22_2]
    rfl
  · simp only [List.all_cons, zero, wd, fld_8_2_1_7_7_7_at_0_7]
    rfl
theorem Encoding.waitc (mods : Mods) (l : BitVec 6) (s : BitVec 6) (c : BitVec 6) (t : BitVec 6) : Encoding.Statement (.waitc mods l s c t) := fun _ => by
  let wd : W32 := 0x28#8 ++ l ++ s ++ c ++ t
  refine ⟨[], ?_, ?_⟩
  · refine (congrArg (decodeOpcode mods wd) (congrArg BitVec.toNat (show fld wd 24 8 = _ from fld_8_6_6_6_6_at_24_8 ..))).trans ?_
    show (.row [] (.waitc mods (fld wd 18 6) (fld wd 12 6) (fld wd 6 6) (fld wd 0 6))) = Raw.row _ _
    simp only [wd, fld_8_6_6_6_6_at_0_6, fld_8_6_6_6_6_at_6_6, fld_8_6_6_6_6_at_12_6, fld_8_6_6_6_6_at_18_6]
  · rfl
theorem Encoding.gbar (mods : Mods) : Encoding.Statement (.gbar mods) := fun _ => by
  let wd : W32 := 0x29#8 ++ 0#3 ++ 0#7 ++ 0#7 ++ 0#7
  refine ⟨[zero wd .reserved 3 14 7, zero wd .reserved 0 7 7, zero wd .reserved 1 0 7], ?_, ?_⟩
  · refine (congrArg (decodeOpcode mods wd) (congrArg BitVec.toNat (show fld wd 24 8 = _ from fld_8_3_7_7_7_at_24_8 ..))).trans ?_
    show (if fld wd 21 3 = 0#3 then .row [zero wd .reserved 3 14 7, zero wd .reserved 0 7 7, zero wd .reserved 1 0 7] (.gbar mods) else .bad .fn 10) = Raw.row _ _
    simp only [wd, fld_8_3_7_7_7_at_21_3]
    rfl
  · simp only [List.all_cons, zero, wd, fld_8_3_7_7_7_at_14_7, fld_8_3_7_7_7_at_7_7, fld_8_3_7_7_7_at_0_7]
    rfl
theorem Encoding.tarr (mods : Mods) (d : BitVec 7) : Encoding.Statement (.tarr mods d) := fun _ => by
  let wd : W32 := 0x2A#8 ++ 0#3 ++ d ++ 0#7 ++ 0#7
  refine ⟨[zero wd .reserved 0 7 7, zero wd .reserved 1 0 7], ?_, ?_⟩
  · refine (congrArg (decodeOpcode mods wd) (congrArg BitVec.toNat (show fld wd 24 8 = _ from fld_8_3_7_7_7_at_24_8 ..))).trans ?_
    show (if fld wd 21 3 = 0#3 then .row [zero wd .reserved 0 7 7, zero wd .reserved 1 0 7] (.tarr mods (fld wd 14 7)) else .bad .fn 10) = Raw.row _ _
    simp only [wd, fld_8_3_7_7_7_at_14_7, fld_8_3_7_7_7_at_21_3]
    rfl
  · simp only [List.all_cons, zero, wd, fld_8_3_7_7_7_at_7_7, fld_8_3_7_7_7_at_0_7]
    rfl
theorem Encoding.twait (mods : Mods) : Encoding.Statement (.twait mods) := fun _ => by
  let wd : W32 := 0x2B#8 ++ 0#3 ++ 0#7 ++ 0#7 ++ 0#7
  refine ⟨[zero wd .reserved 3 14 7, zero wd .reserved 0 7 7, zero wd .reserved 1 0 7], ?_, ?_⟩
  · refine (congrArg (decodeOpcode mods wd) (congrArg BitVec.toNat (show fld wd 24 8 = _ from fld_8_3_7_7_7_at_24_8 ..))).trans ?_
    show (if fld wd 21 3 = 0#3 then .row [zero wd .reserved 3 14 7, zero wd .reserved 0 7 7, zero wd .reserved 1 0 7] (.twait mods) else .bad .fn 10) = Raw.row _ _
    simp only [wd, fld_8_3_7_7_7_at_21_3]
    rfl
  · simp only [List.all_cons, zero, wd, fld_8_3_7_7_7_at_14_7, fld_8_3_7_7_7_at_7_7, fld_8_3_7_7_7_at_0_7]
    rfl
theorem Encoding.mbar (mods : Mods) : Encoding.Statement (.mbar mods) := fun _ => by
  let wd : W32 := 0x2C#8 ++ 0#3 ++ 0#7 ++ 0#7 ++ 0#7
  refine ⟨[zero wd .reserved 3 14 7, zero wd .reserved 0 7 7, zero wd .reserved 1 0 7], ?_, ?_⟩
  · refine (congrArg (decodeOpcode mods wd) (congrArg BitVec.toNat (show fld wd 24 8 = _ from fld_8_3_7_7_7_at_24_8 ..))).trans ?_
    show (if fld wd 21 3 = 0#3 then .row [zero wd .reserved 3 14 7, zero wd .reserved 0 7 7, zero wd .reserved 1 0 7] (.mbar mods) else .bad .fn 10) = Raw.row _ _
    simp only [wd, fld_8_3_7_7_7_at_21_3]
    rfl
  · simp only [List.all_cons, zero, wd, fld_8_3_7_7_7_at_14_7, fld_8_3_7_7_7_at_7_7, fld_8_3_7_7_7_at_0_7]
    rfl
/-- An event has no word. -/
theorem Encoding.barrierArrival (g : Nat) (lane : Nat) : Encoding.Statement (.barrierArrival g lane) := fun h => nomatch (show false = true from h)
/-- An event has no word. -/
theorem Encoding.mbarReleaseStep (grid : Nat) : Encoding.Statement (.mbarReleaseStep grid) := fun h => nomatch (show false = true from h)
theorem Encoding.lease (mods : Mods) (d : BitVec 7) (i : BitVec 7) : Encoding.Statement (.lease mods d i) := fun _ => by
  let wd : W32 := 0x2D#8 ++ 0#3 ++ d ++ 0#7 ++ i
  refine ⟨[zero wd .reserved 0 7 7], ?_, ?_⟩
  · refine (congrArg (decodeOpcode mods wd) (congrArg BitVec.toNat (show fld wd 24 8 = _ from fld_8_3_7_7_7_at_24_8 ..))).trans ?_
    show (if fld wd 21 3 = 0#3 then .row [zero wd .reserved 0 7 7] (.lease mods (fld wd 14 7) (fld wd 0 7)) else if fld wd 21 3 = 1#3 then .row [zero wd .reserved 12 0 7] (.leaseK mods (fld wd 14 7) (fld wd 7 7)) else if fld wd 21 3 = 2#3 then .row [zero wd .reserved 0 7 7, zero wd .reserved 12 0 7] (.leaseRd mods (fld wd 14 7)) else .bad .fn 10) = Raw.row _ _
    simp only [wd, fld_8_3_7_7_7_at_0_7, fld_8_3_7_7_7_at_7_7, fld_8_3_7_7_7_at_14_7, fld_8_3_7_7_7_at_21_3]
    rfl
  · simp only [List.all_cons, zero, wd, fld_8_3_7_7_7_at_7_7]
    rfl
theorem Encoding.leaseK (mods : Mods) (d : BitVec 7) (a : BitVec 7) : Encoding.Statement (.leaseK mods d a) := fun _ => by
  let wd : W32 := 0x2D#8 ++ 1#3 ++ d ++ a ++ 0#7
  refine ⟨[zero wd .reserved 12 0 7], ?_, ?_⟩
  · refine (congrArg (decodeOpcode mods wd) (congrArg BitVec.toNat (show fld wd 24 8 = _ from fld_8_3_7_7_7_at_24_8 ..))).trans ?_
    show (if fld wd 21 3 = 0#3 then .row [zero wd .reserved 0 7 7] (.lease mods (fld wd 14 7) (fld wd 0 7)) else if fld wd 21 3 = 1#3 then .row [zero wd .reserved 12 0 7] (.leaseK mods (fld wd 14 7) (fld wd 7 7)) else if fld wd 21 3 = 2#3 then .row [zero wd .reserved 0 7 7, zero wd .reserved 12 0 7] (.leaseRd mods (fld wd 14 7)) else .bad .fn 10) = Raw.row _ _
    simp only [wd, fld_8_3_7_7_7_at_0_7, fld_8_3_7_7_7_at_7_7, fld_8_3_7_7_7_at_14_7, fld_8_3_7_7_7_at_21_3]
    rfl
  · simp only [List.all_cons, zero, wd, fld_8_3_7_7_7_at_0_7]
    rfl
theorem Encoding.leaseRd (mods : Mods) (d : BitVec 7) : Encoding.Statement (.leaseRd mods d) := fun _ => by
  let wd : W32 := 0x2D#8 ++ 2#3 ++ d ++ 0#7 ++ 0#7
  refine ⟨[zero wd .reserved 0 7 7, zero wd .reserved 12 0 7], ?_, ?_⟩
  · refine (congrArg (decodeOpcode mods wd) (congrArg BitVec.toNat (show fld wd 24 8 = _ from fld_8_3_7_7_7_at_24_8 ..))).trans ?_
    show (if fld wd 21 3 = 0#3 then .row [zero wd .reserved 0 7 7] (.lease mods (fld wd 14 7) (fld wd 0 7)) else if fld wd 21 3 = 1#3 then .row [zero wd .reserved 12 0 7] (.leaseK mods (fld wd 14 7) (fld wd 7 7)) else if fld wd 21 3 = 2#3 then .row [zero wd .reserved 0 7 7, zero wd .reserved 12 0 7] (.leaseRd mods (fld wd 14 7)) else .bad .fn 10) = Raw.row _ _
    simp only [wd, fld_8_3_7_7_7_at_0_7, fld_8_3_7_7_7_at_7_7, fld_8_3_7_7_7_at_14_7, fld_8_3_7_7_7_at_21_3]
    rfl
  · simp only [List.all_cons, zero, wd, fld_8_3_7_7_7_at_7_7, fld_8_3_7_7_7_at_0_7]
    rfl
theorem Encoding.lnch (mods : Mods) (d : BitVec 7) (a : BitVec 7) (b : BitVec 7) : Encoding.Statement (.lnch mods d a b) := fun _ => by
  let wd : W32 := 0x2E#8 ++ 0#3 ++ d ++ a ++ b
  refine ⟨[], ?_, ?_⟩
  · refine (congrArg (decodeOpcode mods wd) (congrArg BitVec.toNat (show fld wd 24 8 = _ from fld_8_3_7_7_7_at_24_8 ..))).trans ?_
    show (if fld wd 21 3 = 0#3 then .row [] (.lnch mods (fld wd 14 7) (fld wd 7 7) (fld wd 0 7)) else .bad .fn 10) = Raw.row _ _
    simp only [wd, fld_8_3_7_7_7_at_0_7, fld_8_3_7_7_7_at_7_7, fld_8_3_7_7_7_at_14_7, fld_8_3_7_7_7_at_21_3]
    rfl
  · rfl
theorem Encoding.trap (mods : Mods) (i : BitVec 7) : Encoding.Statement (.trap mods i) := fun _ => by
  let wd : W32 := 0x30#8 ++ 0#3 ++ 0#7 ++ 0#7 ++ i
  refine ⟨[zero wd .reserved 3 14 7, zero wd .reserved 0 7 7], ?_, ?_⟩
  · refine (congrArg (decodeOpcode mods wd) (congrArg BitVec.toNat (show fld wd 24 8 = _ from fld_8_3_7_7_7_at_24_8 ..))).trans ?_
    show (if fld wd 21 3 = 0#3 then .row [zero wd .reserved 3 14 7, zero wd .reserved 0 7 7] (.trap mods (fld wd 0 7)) else .bad .fn 10) = Raw.row _ _
    simp only [wd, fld_8_3_7_7_7_at_0_7, fld_8_3_7_7_7_at_21_3]
    rfl
  · simp only [List.all_cons, zero, wd, fld_8_3_7_7_7_at_14_7, fld_8_3_7_7_7_at_7_7]
    rfl
theorem Encoding.assertQ (mods : Mods) (f : BitVec 1) (a : BitVec 7) (b : BitVec 7) : Encoding.Statement (.assertQ mods f a b) := fun _ => by
  let wd : W32 := 0x31#8 ++ 0#2 ++ f ++ 0#7 ++ a ++ b
  refine ⟨[zero wd .reserved 3 14 7], ?_, ?_⟩
  · refine (congrArg (decodeOpcode mods wd) (congrArg BitVec.toNat (show fld wd 24 8 = _ from fld_8_2_1_7_7_7_at_24_8 ..))).trans ?_
    show (if fld wd 22 2 = 0#2 then .row [zero wd .reserved 3 14 7] (.assertQ mods (fld wd 21 1) (fld wd 7 7) (fld wd 0 7)) else .bad .fn 10) = Raw.row _ _
    simp only [wd, fld_8_2_1_7_7_7_at_0_7, fld_8_2_1_7_7_7_at_7_7, fld_8_2_1_7_7_7_at_21_1, fld_8_2_1_7_7_7_at_22_2]
    rfl
  · simp only [List.all_cons, zero, wd, fld_8_2_1_7_7_7_at_14_7]
    rfl
theorem Encoding.tret (mods : Mods) : Encoding.Statement (.tret mods) := fun _ => by
  let wd : W32 := 0x32#8 ++ 0#3 ++ 0#7 ++ 0#7 ++ 0#7
  refine ⟨[zero wd .reserved 3 14 7, zero wd .reserved 0 7 7, zero wd .reserved 1 0 7], ?_, ?_⟩
  · refine (congrArg (decodeOpcode mods wd) (congrArg BitVec.toNat (show fld wd 24 8 = _ from fld_8_3_7_7_7_at_24_8 ..))).trans ?_
    show (if fld wd 21 3 = 0#3 then .row [zero wd .reserved 3 14 7, zero wd .reserved 0 7 7, zero wd .reserved 1 0 7] (.tret mods) else .bad .fn 10) = Raw.row _ _
    simp only [wd, fld_8_3_7_7_7_at_21_3]
    rfl
  · simp only [List.all_cons, zero, wd, fld_8_3_7_7_7_at_14_7, fld_8_3_7_7_7_at_7_7, fld_8_3_7_7_7_at_0_7]
    rfl
theorem Encoding.tmsk (mods : Mods) (d : BitVec 7) (i : BitVec 1) : Encoding.Statement (.tmsk mods d i) := fun _ => by
  let wd : W32 := 0x33#8 ++ 0#3 ++ d ++ 0#7 ++ 0#6 ++ i
  refine ⟨[zero wd .reserved 0 7 7, zero wd .typeCode 12 1 6], ?_, ?_⟩
  · refine (congrArg (decodeOpcode mods wd) (congrArg BitVec.toNat (show fld wd 24 8 = _ from fld_8_3_7_7_6_1_at_24_8 ..))).trans ?_
    show (if fld wd 21 3 = 0#3 then .row [zero wd .reserved 0 7 7, zero wd .typeCode 12 1 6] (.tmsk mods (fld wd 14 7) (fld wd 0 1)) else .bad .fn 10) = Raw.row _ _
    simp only [wd, fld_8_3_7_7_6_1_at_0_1, fld_8_3_7_7_6_1_at_14_7, fld_8_3_7_7_6_1_at_21_3]
    rfl
  · simp only [List.all_cons, zero, wd, fld_8_3_7_7_6_1_at_7_7, fld_8_3_7_7_6_1_at_1_6]
    rfl
theorem Encoding.srd (mods : Mods) (d : BitVec 7) (n : BitVec 7) : Encoding.Statement (.srd mods d n) := fun _ => by
  let wd : W32 := 0x34#8 ++ 0#3 ++ d ++ 0#7 ++ n
  refine ⟨[zero wd .reserved 0 7 7], ?_, ?_⟩
  · refine (congrArg (decodeOpcode mods wd) (congrArg BitVec.toNat (show fld wd 24 8 = _ from fld_8_3_7_7_7_at_24_8 ..))).trans ?_
    show (if fld wd 21 3 = 0#3 then .row [zero wd .reserved 0 7 7] (.srd mods (fld wd 14 7) (fld wd 0 7)) else .bad .fn 10) = Raw.row _ _
    simp only [wd, fld_8_3_7_7_7_at_0_7, fld_8_3_7_7_7_at_14_7, fld_8_3_7_7_7_at_21_3]
    rfl
  · simp only [List.all_cons, zero, wd, fld_8_3_7_7_7_at_7_7]
    rfl
theorem Encoding.swr (mods : Mods) (a : BitVec 7) (n : BitVec 7) : Encoding.Statement (.swr mods a n) := fun _ => by
  let wd : W32 := 0x35#8 ++ 0#3 ++ 0#7 ++ a ++ n
  refine ⟨[zero wd .reserved 3 14 7], ?_, ?_⟩
  · refine (congrArg (decodeOpcode mods wd) (congrArg BitVec.toNat (show fld wd 24 8 = _ from fld_8_3_7_7_7_at_24_8 ..))).trans ?_
    show (if fld wd 21 3 = 0#3 then .row [zero wd .reserved 3 14 7] (.swr mods (fld wd 7 7) (fld wd 0 7)) else if fld wd 21 3 = 1#3 then .row [zero wd .reserved 3 14 7] (.swrOr mods (fld wd 7 7) (fld wd 0 7)) else if fld wd 21 3 = 2#3 then .row [zero wd .reserved 3 14 7] (.swrClr mods (fld wd 7 7) (fld wd 0 7)) else .bad .fn 10) = Raw.row _ _
    simp only [wd, fld_8_3_7_7_7_at_0_7, fld_8_3_7_7_7_at_7_7, fld_8_3_7_7_7_at_21_3]
    rfl
  · simp only [List.all_cons, zero, wd, fld_8_3_7_7_7_at_14_7]
    rfl
theorem Encoding.swrOr (mods : Mods) (a : BitVec 7) (n : BitVec 7) : Encoding.Statement (.swrOr mods a n) := fun _ => by
  let wd : W32 := 0x35#8 ++ 1#3 ++ 0#7 ++ a ++ n
  refine ⟨[zero wd .reserved 3 14 7], ?_, ?_⟩
  · refine (congrArg (decodeOpcode mods wd) (congrArg BitVec.toNat (show fld wd 24 8 = _ from fld_8_3_7_7_7_at_24_8 ..))).trans ?_
    show (if fld wd 21 3 = 0#3 then .row [zero wd .reserved 3 14 7] (.swr mods (fld wd 7 7) (fld wd 0 7)) else if fld wd 21 3 = 1#3 then .row [zero wd .reserved 3 14 7] (.swrOr mods (fld wd 7 7) (fld wd 0 7)) else if fld wd 21 3 = 2#3 then .row [zero wd .reserved 3 14 7] (.swrClr mods (fld wd 7 7) (fld wd 0 7)) else .bad .fn 10) = Raw.row _ _
    simp only [wd, fld_8_3_7_7_7_at_0_7, fld_8_3_7_7_7_at_7_7, fld_8_3_7_7_7_at_21_3]
    rfl
  · simp only [List.all_cons, zero, wd, fld_8_3_7_7_7_at_14_7]
    rfl
theorem Encoding.swrClr (mods : Mods) (a : BitVec 7) (n : BitVec 7) : Encoding.Statement (.swrClr mods a n) := fun _ => by
  let wd : W32 := 0x35#8 ++ 2#3 ++ 0#7 ++ a ++ n
  refine ⟨[zero wd .reserved 3 14 7], ?_, ?_⟩
  · refine (congrArg (decodeOpcode mods wd) (congrArg BitVec.toNat (show fld wd 24 8 = _ from fld_8_3_7_7_7_at_24_8 ..))).trans ?_
    show (if fld wd 21 3 = 0#3 then .row [zero wd .reserved 3 14 7] (.swr mods (fld wd 7 7) (fld wd 0 7)) else if fld wd 21 3 = 1#3 then .row [zero wd .reserved 3 14 7] (.swrOr mods (fld wd 7 7) (fld wd 0 7)) else if fld wd 21 3 = 2#3 then .row [zero wd .reserved 3 14 7] (.swrClr mods (fld wd 7 7) (fld wd 0 7)) else .bad .fn 10) = Raw.row _ _
    simp only [wd, fld_8_3_7_7_7_at_0_7, fld_8_3_7_7_7_at_7_7, fld_8_3_7_7_7_at_21_3]
    rfl
  · simp only [List.all_cons, zero, wd, fld_8_3_7_7_7_at_14_7]
    rfl
theorem Encoding.brk (mods : Mods) (i : BitVec 7) : Encoding.Statement (.brk mods i) := fun _ => by
  let wd : W32 := 0x36#8 ++ 0#3 ++ 0#7 ++ 0#7 ++ i
  refine ⟨[zero wd .reserved 3 14 7, zero wd .reserved 0 7 7], ?_, ?_⟩
  · refine (congrArg (decodeOpcode mods wd) (congrArg BitVec.toNat (show fld wd 24 8 = _ from fld_8_3_7_7_7_at_24_8 ..))).trans ?_
    show (if fld wd 21 3 = 0#3 then .row [zero wd .reserved 3 14 7, zero wd .reserved 0 7 7] (.brk mods (fld wd 0 7)) else .bad .fn 10) = Raw.row _ _
    simp only [wd, fld_8_3_7_7_7_at_0_7, fld_8_3_7_7_7_at_21_3]
    rfl
  · simp only [List.all_cons, zero, wd, fld_8_3_7_7_7_at_14_7, fld_8_3_7_7_7_at_7_7]
    rfl
theorem Encoding.halt (mods : Mods) : Encoding.Statement (.halt mods) := fun _ => by
  let wd : W32 := 0x37#8 ++ 0#3 ++ 0#7 ++ 0#7 ++ 0#7
  refine ⟨[zero wd .reserved 3 14 7, zero wd .reserved 0 7 7, zero wd .reserved 1 0 7], ?_, ?_⟩
  · refine (congrArg (decodeOpcode mods wd) (congrArg BitVec.toNat (show fld wd 24 8 = _ from fld_8_3_7_7_7_at_24_8 ..))).trans ?_
    show (if fld wd 21 3 = 0#3 then .row [zero wd .reserved 3 14 7, zero wd .reserved 0 7 7, zero wd .reserved 1 0 7] (.halt mods) else .bad .fn 10) = Raw.row _ _
    simp only [wd, fld_8_3_7_7_7_at_21_3]
    rfl
  · simp only [List.all_cons, zero, wd, fld_8_3_7_7_7_at_14_7, fld_8_3_7_7_7_at_7_7, fld_8_3_7_7_7_at_0_7]
    rfl
theorem Encoding.vadd (mods : Mods) (t : BitVec 3) (d : BitVec 7) (a : BitVec 7) (b : BitVec 7) : Encoding.Statement (.vadd mods t d a b) := fun _ => by
  let wd : W32 := 0x40#8 ++ t ++ d ++ a ++ b
  refine ⟨[], ?_, ?_⟩
  · refine (congrArg (decodeOpcode mods wd) (congrArg BitVec.toNat (show fld wd 24 8 = _ from fld_8_3_7_7_7_at_24_8 ..))).trans ?_
    show (.row [] (.vadd mods (fld wd 21 3) (fld wd 14 7) (fld wd 7 7) (fld wd 0 7))) = Raw.row _ _
    simp only [wd, fld_8_3_7_7_7_at_0_7, fld_8_3_7_7_7_at_7_7, fld_8_3_7_7_7_at_14_7, fld_8_3_7_7_7_at_21_3]
  · rfl
theorem Encoding.vsub (mods : Mods) (t : BitVec 3) (d : BitVec 7) (a : BitVec 7) (b : BitVec 7) : Encoding.Statement (.vsub mods t d a b) := fun _ => by
  let wd : W32 := 0x41#8 ++ t ++ d ++ a ++ b
  refine ⟨[], ?_, ?_⟩
  · refine (congrArg (decodeOpcode mods wd) (congrArg BitVec.toNat (show fld wd 24 8 = _ from fld_8_3_7_7_7_at_24_8 ..))).trans ?_
    show (.row [] (.vsub mods (fld wd 21 3) (fld wd 14 7) (fld wd 7 7) (fld wd 0 7))) = Raw.row _ _
    simp only [wd, fld_8_3_7_7_7_at_0_7, fld_8_3_7_7_7_at_7_7, fld_8_3_7_7_7_at_14_7, fld_8_3_7_7_7_at_21_3]
  · rfl
theorem Encoding.vmul (mods : Mods) (t : BitVec 3) (d : BitVec 7) (a : BitVec 7) (b : BitVec 7) : Encoding.Statement (.vmul mods t d a b) := fun _ => by
  let wd : W32 := 0x42#8 ++ t ++ d ++ a ++ b
  refine ⟨[], ?_, ?_⟩
  · refine (congrArg (decodeOpcode mods wd) (congrArg BitVec.toNat (show fld wd 24 8 = _ from fld_8_3_7_7_7_at_24_8 ..))).trans ?_
    show (.row [] (.vmul mods (fld wd 21 3) (fld wd 14 7) (fld wd 7 7) (fld wd 0 7))) = Raw.row _ _
    simp only [wd, fld_8_3_7_7_7_at_0_7, fld_8_3_7_7_7_at_7_7, fld_8_3_7_7_7_at_14_7, fld_8_3_7_7_7_at_21_3]
  · rfl
theorem Encoding.vmulh (mods : Mods) (t : BitVec 3) (d : BitVec 7) (a : BitVec 7) (b : BitVec 7) : Encoding.Statement (.vmulh mods t d a b) := fun _ => by
  let wd : W32 := 0x43#8 ++ t ++ d ++ a ++ b
  refine ⟨[], ?_, ?_⟩
  · refine (congrArg (decodeOpcode mods wd) (congrArg BitVec.toNat (show fld wd 24 8 = _ from fld_8_3_7_7_7_at_24_8 ..))).trans ?_
    show (.row [] (.vmulh mods (fld wd 21 3) (fld wd 14 7) (fld wd 7 7) (fld wd 0 7))) = Raw.row _ _
    simp only [wd, fld_8_3_7_7_7_at_0_7, fld_8_3_7_7_7_at_7_7, fld_8_3_7_7_7_at_14_7, fld_8_3_7_7_7_at_21_3]
  · rfl
theorem Encoding.vmad (mods : Mods) (t : BitVec 3) (d : BitVec 7) (a : BitVec 7) (b : BitVec 7) : Encoding.Statement (.vmad mods t d a b) := fun _ => by
  let wd : W32 := 0x44#8 ++ t ++ d ++ a ++ b
  refine ⟨[], ?_, ?_⟩
  · refine (congrArg (decodeOpcode mods wd) (congrArg BitVec.toNat (show fld wd 24 8 = _ from fld_8_3_7_7_7_at_24_8 ..))).trans ?_
    show (.row [] (.vmad mods (fld wd 21 3) (fld wd 14 7) (fld wd 7 7) (fld wd 0 7))) = Raw.row _ _
    simp only [wd, fld_8_3_7_7_7_at_0_7, fld_8_3_7_7_7_at_7_7, fld_8_3_7_7_7_at_14_7, fld_8_3_7_7_7_at_21_3]
  · rfl
theorem Encoding.vdiv (mods : Mods) (t : BitVec 3) (d : BitVec 7) (a : BitVec 7) (b : BitVec 7) : Encoding.Statement (.vdiv mods t d a b) := fun _ => by
  let wd : W32 := 0x45#8 ++ t ++ d ++ a ++ b
  refine ⟨[], ?_, ?_⟩
  · refine (congrArg (decodeOpcode mods wd) (congrArg BitVec.toNat (show fld wd 24 8 = _ from fld_8_3_7_7_7_at_24_8 ..))).trans ?_
    show (.row [] (.vdiv mods (fld wd 21 3) (fld wd 14 7) (fld wd 7 7) (fld wd 0 7))) = Raw.row _ _
    simp only [wd, fld_8_3_7_7_7_at_0_7, fld_8_3_7_7_7_at_7_7, fld_8_3_7_7_7_at_14_7, fld_8_3_7_7_7_at_21_3]
  · rfl
theorem Encoding.vrem (mods : Mods) (t : BitVec 3) (d : BitVec 7) (a : BitVec 7) (b : BitVec 7) : Encoding.Statement (.vrem mods t d a b) := fun _ => by
  let wd : W32 := 0x46#8 ++ t ++ d ++ a ++ b
  refine ⟨[], ?_, ?_⟩
  · refine (congrArg (decodeOpcode mods wd) (congrArg BitVec.toNat (show fld wd 24 8 = _ from fld_8_3_7_7_7_at_24_8 ..))).trans ?_
    show (.row [] (.vrem mods (fld wd 21 3) (fld wd 14 7) (fld wd 7 7) (fld wd 0 7))) = Raw.row _ _
    simp only [wd, fld_8_3_7_7_7_at_0_7, fld_8_3_7_7_7_at_7_7, fld_8_3_7_7_7_at_14_7, fld_8_3_7_7_7_at_21_3]
  · rfl
theorem Encoding.vmin (mods : Mods) (t : BitVec 3) (d : BitVec 7) (a : BitVec 7) (b : BitVec 7) : Encoding.Statement (.vmin mods t d a b) := fun _ => by
  let wd : W32 := 0x47#8 ++ t ++ d ++ a ++ b
  refine ⟨[], ?_, ?_⟩
  · refine (congrArg (decodeOpcode mods wd) (congrArg BitVec.toNat (show fld wd 24 8 = _ from fld_8_3_7_7_7_at_24_8 ..))).trans ?_
    show (.row [] (.vmin mods (fld wd 21 3) (fld wd 14 7) (fld wd 7 7) (fld wd 0 7))) = Raw.row _ _
    simp only [wd, fld_8_3_7_7_7_at_0_7, fld_8_3_7_7_7_at_7_7, fld_8_3_7_7_7_at_14_7, fld_8_3_7_7_7_at_21_3]
  · rfl
theorem Encoding.vmax (mods : Mods) (t : BitVec 3) (d : BitVec 7) (a : BitVec 7) (b : BitVec 7) : Encoding.Statement (.vmax mods t d a b) := fun _ => by
  let wd : W32 := 0x48#8 ++ t ++ d ++ a ++ b
  refine ⟨[], ?_, ?_⟩
  · refine (congrArg (decodeOpcode mods wd) (congrArg BitVec.toNat (show fld wd 24 8 = _ from fld_8_3_7_7_7_at_24_8 ..))).trans ?_
    show (.row [] (.vmax mods (fld wd 21 3) (fld wd 14 7) (fld wd 7 7) (fld wd 0 7))) = Raw.row _ _
    simp only [wd, fld_8_3_7_7_7_at_0_7, fld_8_3_7_7_7_at_7_7, fld_8_3_7_7_7_at_14_7, fld_8_3_7_7_7_at_21_3]
  · rfl
theorem Encoding.vabs (mods : Mods) (t : BitVec 3) (d : BitVec 7) (a : BitVec 7) : Encoding.Statement (.vabs mods t d a) := fun _ => by
  let wd : W32 := 0x49#8 ++ t ++ d ++ a ++ 0#7
  refine ⟨[zero wd .reserved 1 0 7], ?_, ?_⟩
  · refine (congrArg (decodeOpcode mods wd) (congrArg BitVec.toNat (show fld wd 24 8 = _ from fld_8_3_7_7_7_at_24_8 ..))).trans ?_
    show (.row [zero wd .reserved 1 0 7] (.vabs mods (fld wd 21 3) (fld wd 14 7) (fld wd 7 7))) = Raw.row _ _
    simp only [wd, fld_8_3_7_7_7_at_7_7, fld_8_3_7_7_7_at_14_7, fld_8_3_7_7_7_at_21_3]
  · simp only [List.all_cons, zero, wd, fld_8_3_7_7_7_at_0_7]
    rfl
theorem Encoding.vand (mods : Mods) (t : BitVec 3) (d : BitVec 7) (a : BitVec 7) (b : BitVec 7) : Encoding.Statement (.vand mods t d a b) := fun _ => by
  let wd : W32 := 0x4A#8 ++ t ++ d ++ a ++ b
  refine ⟨[], ?_, ?_⟩
  · refine (congrArg (decodeOpcode mods wd) (congrArg BitVec.toNat (show fld wd 24 8 = _ from fld_8_3_7_7_7_at_24_8 ..))).trans ?_
    show (.row [] (.vand mods (fld wd 21 3) (fld wd 14 7) (fld wd 7 7) (fld wd 0 7))) = Raw.row _ _
    simp only [wd, fld_8_3_7_7_7_at_0_7, fld_8_3_7_7_7_at_7_7, fld_8_3_7_7_7_at_14_7, fld_8_3_7_7_7_at_21_3]
  · rfl
theorem Encoding.vor (mods : Mods) (t : BitVec 3) (d : BitVec 7) (a : BitVec 7) (b : BitVec 7) : Encoding.Statement (.vor mods t d a b) := fun _ => by
  let wd : W32 := 0x4B#8 ++ t ++ d ++ a ++ b
  refine ⟨[], ?_, ?_⟩
  · refine (congrArg (decodeOpcode mods wd) (congrArg BitVec.toNat (show fld wd 24 8 = _ from fld_8_3_7_7_7_at_24_8 ..))).trans ?_
    show (.row [] (.vor mods (fld wd 21 3) (fld wd 14 7) (fld wd 7 7) (fld wd 0 7))) = Raw.row _ _
    simp only [wd, fld_8_3_7_7_7_at_0_7, fld_8_3_7_7_7_at_7_7, fld_8_3_7_7_7_at_14_7, fld_8_3_7_7_7_at_21_3]
  · rfl
theorem Encoding.vxor (mods : Mods) (t : BitVec 3) (d : BitVec 7) (a : BitVec 7) (b : BitVec 7) : Encoding.Statement (.vxor mods t d a b) := fun _ => by
  let wd : W32 := 0x4C#8 ++ t ++ d ++ a ++ b
  refine ⟨[], ?_, ?_⟩
  · refine (congrArg (decodeOpcode mods wd) (congrArg BitVec.toNat (show fld wd 24 8 = _ from fld_8_3_7_7_7_at_24_8 ..))).trans ?_
    show (.row [] (.vxor mods (fld wd 21 3) (fld wd 14 7) (fld wd 7 7) (fld wd 0 7))) = Raw.row _ _
    simp only [wd, fld_8_3_7_7_7_at_0_7, fld_8_3_7_7_7_at_7_7, fld_8_3_7_7_7_at_14_7, fld_8_3_7_7_7_at_21_3]
  · rfl
theorem Encoding.vnot (mods : Mods) (t : BitVec 3) (d : BitVec 7) (a : BitVec 7) : Encoding.Statement (.vnot mods t d a) := fun _ => by
  let wd : W32 := 0x4D#8 ++ t ++ d ++ a ++ 0#7
  refine ⟨[zero wd .reserved 1 0 7], ?_, ?_⟩
  · refine (congrArg (decodeOpcode mods wd) (congrArg BitVec.toNat (show fld wd 24 8 = _ from fld_8_3_7_7_7_at_24_8 ..))).trans ?_
    show (.row [zero wd .reserved 1 0 7] (.vnot mods (fld wd 21 3) (fld wd 14 7) (fld wd 7 7))) = Raw.row _ _
    simp only [wd, fld_8_3_7_7_7_at_7_7, fld_8_3_7_7_7_at_14_7, fld_8_3_7_7_7_at_21_3]
  · simp only [List.all_cons, zero, wd, fld_8_3_7_7_7_at_0_7]
    rfl
theorem Encoding.vshl (mods : Mods) (t : BitVec 3) (d : BitVec 7) (a : BitVec 7) (b : BitVec 7) : Encoding.Statement (.vshl mods t d a b) := fun _ => by
  let wd : W32 := 0x4E#8 ++ t ++ d ++ a ++ b
  refine ⟨[], ?_, ?_⟩
  · refine (congrArg (decodeOpcode mods wd) (congrArg BitVec.toNat (show fld wd 24 8 = _ from fld_8_3_7_7_7_at_24_8 ..))).trans ?_
    show (.row [] (.vshl mods (fld wd 21 3) (fld wd 14 7) (fld wd 7 7) (fld wd 0 7))) = Raw.row _ _
    simp only [wd, fld_8_3_7_7_7_at_0_7, fld_8_3_7_7_7_at_7_7, fld_8_3_7_7_7_at_14_7, fld_8_3_7_7_7_at_21_3]
  · rfl
theorem Encoding.vshr (mods : Mods) (t : BitVec 3) (d : BitVec 7) (a : BitVec 7) (b : BitVec 7) : Encoding.Statement (.vshr mods t d a b) := fun _ => by
  let wd : W32 := 0x4F#8 ++ t ++ d ++ a ++ b
  refine ⟨[], ?_, ?_⟩
  · refine (congrArg (decodeOpcode mods wd) (congrArg BitVec.toNat (show fld wd 24 8 = _ from fld_8_3_7_7_7_at_24_8 ..))).trans ?_
    show (.row [] (.vshr mods (fld wd 21 3) (fld wd 14 7) (fld wd 7 7) (fld wd 0 7))) = Raw.row _ _
    simp only [wd, fld_8_3_7_7_7_at_0_7, fld_8_3_7_7_7_at_7_7, fld_8_3_7_7_7_at_14_7, fld_8_3_7_7_7_at_21_3]
  · rfl
theorem Encoding.vsra (mods : Mods) (t : BitVec 3) (d : BitVec 7) (a : BitVec 7) (b : BitVec 7) : Encoding.Statement (.vsra mods t d a b) := fun _ => by
  let wd : W32 := 0x50#8 ++ t ++ d ++ a ++ b
  refine ⟨[], ?_, ?_⟩
  · refine (congrArg (decodeOpcode mods wd) (congrArg BitVec.toNat (show fld wd 24 8 = _ from fld_8_3_7_7_7_at_24_8 ..))).trans ?_
    show (.row [] (.vsra mods (fld wd 21 3) (fld wd 14 7) (fld wd 7 7) (fld wd 0 7))) = Raw.row _ _
    simp only [wd, fld_8_3_7_7_7_at_0_7, fld_8_3_7_7_7_at_7_7, fld_8_3_7_7_7_at_14_7, fld_8_3_7_7_7_at_21_3]
  · rfl
theorem Encoding.vrot (mods : Mods) (t : BitVec 3) (d : BitVec 7) (a : BitVec 7) (b : BitVec 7) : Encoding.Statement (.vrot mods t d a b) := fun _ => by
  let wd : W32 := 0x51#8 ++ t ++ d ++ a ++ b
  refine ⟨[], ?_, ?_⟩
  · refine (congrArg (decodeOpcode mods wd) (congrArg BitVec.toNat (show fld wd 24 8 = _ from fld_8_3_7_7_7_at_24_8 ..))).trans ?_
    show (.row [] (.vrot mods (fld wd 21 3) (fld wd 14 7) (fld wd 7 7) (fld wd 0 7))) = Raw.row _ _
    simp only [wd, fld_8_3_7_7_7_at_0_7, fld_8_3_7_7_7_at_7_7, fld_8_3_7_7_7_at_14_7, fld_8_3_7_7_7_at_21_3]
  · rfl
theorem Encoding.vclz (mods : Mods) (t : BitVec 3) (d : BitVec 7) (a : BitVec 7) : Encoding.Statement (.vclz mods t d a) := fun _ => by
  let wd : W32 := 0x52#8 ++ t ++ d ++ a ++ 0#7
  refine ⟨[zero wd .reserved 1 0 7], ?_, ?_⟩
  · refine (congrArg (decodeOpcode mods wd) (congrArg BitVec.toNat (show fld wd 24 8 = _ from fld_8_3_7_7_7_at_24_8 ..))).trans ?_
    show (.row [zero wd .reserved 1 0 7] (.vclz mods (fld wd 21 3) (fld wd 14 7) (fld wd 7 7))) = Raw.row _ _
    simp only [wd, fld_8_3_7_7_7_at_7_7, fld_8_3_7_7_7_at_14_7, fld_8_3_7_7_7_at_21_3]
  · simp only [List.all_cons, zero, wd, fld_8_3_7_7_7_at_0_7]
    rfl
theorem Encoding.vpopc (mods : Mods) (t : BitVec 3) (d : BitVec 7) (a : BitVec 7) : Encoding.Statement (.vpopc mods t d a) := fun _ => by
  let wd : W32 := 0x53#8 ++ t ++ d ++ a ++ 0#7
  refine ⟨[zero wd .reserved 1 0 7], ?_, ?_⟩
  · refine (congrArg (decodeOpcode mods wd) (congrArg BitVec.toNat (show fld wd 24 8 = _ from fld_8_3_7_7_7_at_24_8 ..))).trans ?_
    show (.row [zero wd .reserved 1 0 7] (.vpopc mods (fld wd 21 3) (fld wd 14 7) (fld wd 7 7))) = Raw.row _ _
    simp only [wd, fld_8_3_7_7_7_at_7_7, fld_8_3_7_7_7_at_14_7, fld_8_3_7_7_7_at_21_3]
  · simp only [List.all_cons, zero, wd, fld_8_3_7_7_7_at_0_7]
    rfl
theorem Encoding.vbrev (mods : Mods) (t : BitVec 3) (d : BitVec 7) (a : BitVec 7) : Encoding.Statement (.vbrev mods t d a) := fun _ => by
  let wd : W32 := 0x54#8 ++ t ++ d ++ a ++ 0#7
  refine ⟨[zero wd .reserved 1 0 7], ?_, ?_⟩
  · refine (congrArg (decodeOpcode mods wd) (congrArg BitVec.toNat (show fld wd 24 8 = _ from fld_8_3_7_7_7_at_24_8 ..))).trans ?_
    show (.row [zero wd .reserved 1 0 7] (.vbrev mods (fld wd 21 3) (fld wd 14 7) (fld wd 7 7))) = Raw.row _ _
    simp only [wd, fld_8_3_7_7_7_at_7_7, fld_8_3_7_7_7_at_14_7, fld_8_3_7_7_7_at_21_3]
  · simp only [List.all_cons, zero, wd, fld_8_3_7_7_7_at_0_7]
    rfl
theorem Encoding.vsel (mods : Mods) (q : BitVec 3) (d : BitVec 7) (a : BitVec 7) (b : BitVec 7) : Encoding.Statement (.vsel mods q d a b) := fun _ => by
  let wd : W32 := 0x55#8 ++ q ++ d ++ a ++ b
  refine ⟨[], ?_, ?_⟩
  · refine (congrArg (decodeOpcode mods wd) (congrArg BitVec.toNat (show fld wd 24 8 = _ from fld_8_3_7_7_7_at_24_8 ..))).trans ?_
    show (.row [] (.vsel mods (fld wd 21 3) (fld wd 14 7) (fld wd 7 7) (fld wd 0 7))) = Raw.row _ _
    simp only [wd, fld_8_3_7_7_7_at_0_7, fld_8_3_7_7_7_at_7_7, fld_8_3_7_7_7_at_14_7, fld_8_3_7_7_7_at_21_3]
  · rfl
theorem Encoding.vmov (mods : Mods) (w : BitVec 1) (d : BitVec 7) (a : BitVec 7) : Encoding.Statement (.vmov mods w d a) := fun _ => by
  let wd : W32 := 0x56#8 ++ 0#2 ++ w ++ d ++ a ++ 0#7
  refine ⟨[zero wd .reserved 1 0 7], ?_, ?_⟩
  · refine (congrArg (decodeOpcode mods wd) (congrArg BitVec.toNat (show fld wd 24 8 = _ from fld_8_2_1_7_7_7_at_24_8 ..))).trans ?_
    show (if fld wd 22 2 = 0#2 then .row [zero wd .reserved 1 0 7] (.vmov mods (fld wd 21 1) (fld wd 14 7) (fld wd 7 7)) else .bad .fn 10) = Raw.row _ _
    simp only [wd, fld_8_2_1_7_7_7_at_7_7, fld_8_2_1_7_7_7_at_14_7, fld_8_2_1_7_7_7_at_21_1, fld_8_2_1_7_7_7_at_22_2]
    rfl
  · simp only [List.all_cons, zero, wd, fld_8_2_1_7_7_7_at_0_7]
    rfl
theorem Encoding.vli (mods : Mods) (d : BitVec 7) (i : BitVec 7) : Encoding.Statement (.vli mods d i) := fun _ => by
  let wd : W32 := 0x57#8 ++ 0#3 ++ d ++ 0#7 ++ i
  refine ⟨[zero wd .reserved 0 7 7], ?_, ?_⟩
  · refine (congrArg (decodeOpcode mods wd) (congrArg BitVec.toNat (show fld wd 24 8 = _ from fld_8_3_7_7_7_at_24_8 ..))).trans ?_
    show (if fld wd 21 3 = 0#3 then .row [zero wd .reserved 0 7 7] (.vli mods (fld wd 14 7) (fld wd 0 7)) else if fld wd 21 3 = 1#3 then .row [zero wd .reserved 0 7 7] (.vliHi mods (fld wd 14 7) (fld wd 0 7)) else .bad .fn 10) = Raw.row _ _
    simp only [wd, fld_8_3_7_7_7_at_0_7, fld_8_3_7_7_7_at_14_7, fld_8_3_7_7_7_at_21_3]
    rfl
  · simp only [List.all_cons, zero, wd, fld_8_3_7_7_7_at_7_7]
    rfl
theorem Encoding.vliHi (mods : Mods) (d : BitVec 7) (i : BitVec 7) : Encoding.Statement (.vliHi mods d i) := fun _ => by
  let wd : W32 := 0x57#8 ++ 1#3 ++ d ++ 0#7 ++ i
  refine ⟨[zero wd .reserved 0 7 7], ?_, ?_⟩
  · refine (congrArg (decodeOpcode mods wd) (congrArg BitVec.toNat (show fld wd 24 8 = _ from fld_8_3_7_7_7_at_24_8 ..))).trans ?_
    show (if fld wd 21 3 = 0#3 then .row [zero wd .reserved 0 7 7] (.vli mods (fld wd 14 7) (fld wd 0 7)) else if fld wd 21 3 = 1#3 then .row [zero wd .reserved 0 7 7] (.vliHi mods (fld wd 14 7) (fld wd 0 7)) else .bad .fn 10) = Raw.row _ _
    simp only [wd, fld_8_3_7_7_7_at_0_7, fld_8_3_7_7_7_at_14_7, fld_8_3_7_7_7_at_21_3]
    rfl
  · simp only [List.all_cons, zero, wd, fld_8_3_7_7_7_at_7_7]
    rfl
theorem Encoding.vcmpEq (mods : Mods) (t : BitVec 3) (d : BitVec 7) (a : BitVec 7) (b : BitVec 7) : Encoding.Statement (.vcmpEq mods t d a b) := fun _ => by
  let wd : W32 := 0x58#8 ++ t ++ d ++ a ++ b
  refine ⟨[], ?_, ?_⟩
  · refine (congrArg (decodeOpcode mods wd) (congrArg BitVec.toNat (show fld wd 24 8 = _ from fld_8_3_7_7_7_at_24_8 ..))).trans ?_
    show (.row [] (.vcmpEq mods (fld wd 21 3) (fld wd 14 7) (fld wd 7 7) (fld wd 0 7))) = Raw.row _ _
    simp only [wd, fld_8_3_7_7_7_at_0_7, fld_8_3_7_7_7_at_7_7, fld_8_3_7_7_7_at_14_7, fld_8_3_7_7_7_at_21_3]
  · rfl
theorem Encoding.vcmpNe (mods : Mods) (t : BitVec 3) (d : BitVec 7) (a : BitVec 7) (b : BitVec 7) : Encoding.Statement (.vcmpNe mods t d a b) := fun _ => by
  let wd : W32 := 0x59#8 ++ t ++ d ++ a ++ b
  refine ⟨[], ?_, ?_⟩
  · refine (congrArg (decodeOpcode mods wd) (congrArg BitVec.toNat (show fld wd 24 8 = _ from fld_8_3_7_7_7_at_24_8 ..))).trans ?_
    show (.row [] (.vcmpNe mods (fld wd 21 3) (fld wd 14 7) (fld wd 7 7) (fld wd 0 7))) = Raw.row _ _
    simp only [wd, fld_8_3_7_7_7_at_0_7, fld_8_3_7_7_7_at_7_7, fld_8_3_7_7_7_at_14_7, fld_8_3_7_7_7_at_21_3]
  · rfl
theorem Encoding.vcmpLt (mods : Mods) (t : BitVec 3) (d : BitVec 7) (a : BitVec 7) (b : BitVec 7) : Encoding.Statement (.vcmpLt mods t d a b) := fun _ => by
  let wd : W32 := 0x5A#8 ++ t ++ d ++ a ++ b
  refine ⟨[], ?_, ?_⟩
  · refine (congrArg (decodeOpcode mods wd) (congrArg BitVec.toNat (show fld wd 24 8 = _ from fld_8_3_7_7_7_at_24_8 ..))).trans ?_
    show (.row [] (.vcmpLt mods (fld wd 21 3) (fld wd 14 7) (fld wd 7 7) (fld wd 0 7))) = Raw.row _ _
    simp only [wd, fld_8_3_7_7_7_at_0_7, fld_8_3_7_7_7_at_7_7, fld_8_3_7_7_7_at_14_7, fld_8_3_7_7_7_at_21_3]
  · rfl
theorem Encoding.vcmpLe (mods : Mods) (t : BitVec 3) (d : BitVec 7) (a : BitVec 7) (b : BitVec 7) : Encoding.Statement (.vcmpLe mods t d a b) := fun _ => by
  let wd : W32 := 0x5B#8 ++ t ++ d ++ a ++ b
  refine ⟨[], ?_, ?_⟩
  · refine (congrArg (decodeOpcode mods wd) (congrArg BitVec.toNat (show fld wd 24 8 = _ from fld_8_3_7_7_7_at_24_8 ..))).trans ?_
    show (.row [] (.vcmpLe mods (fld wd 21 3) (fld wd 14 7) (fld wd 7 7) (fld wd 0 7))) = Raw.row _ _
    simp only [wd, fld_8_3_7_7_7_at_0_7, fld_8_3_7_7_7_at_7_7, fld_8_3_7_7_7_at_14_7, fld_8_3_7_7_7_at_21_3]
  · rfl
theorem Encoding.vcmpGt (mods : Mods) (t : BitVec 3) (d : BitVec 7) (a : BitVec 7) (b : BitVec 7) : Encoding.Statement (.vcmpGt mods t d a b) := fun _ => by
  let wd : W32 := 0x5C#8 ++ t ++ d ++ a ++ b
  refine ⟨[], ?_, ?_⟩
  · refine (congrArg (decodeOpcode mods wd) (congrArg BitVec.toNat (show fld wd 24 8 = _ from fld_8_3_7_7_7_at_24_8 ..))).trans ?_
    show (.row [] (.vcmpGt mods (fld wd 21 3) (fld wd 14 7) (fld wd 7 7) (fld wd 0 7))) = Raw.row _ _
    simp only [wd, fld_8_3_7_7_7_at_0_7, fld_8_3_7_7_7_at_7_7, fld_8_3_7_7_7_at_14_7, fld_8_3_7_7_7_at_21_3]
  · rfl
theorem Encoding.vcmpGe (mods : Mods) (t : BitVec 3) (d : BitVec 7) (a : BitVec 7) (b : BitVec 7) : Encoding.Statement (.vcmpGe mods t d a b) := fun _ => by
  let wd : W32 := 0x5D#8 ++ t ++ d ++ a ++ b
  refine ⟨[], ?_, ?_⟩
  · refine (congrArg (decodeOpcode mods wd) (congrArg BitVec.toNat (show fld wd 24 8 = _ from fld_8_3_7_7_7_at_24_8 ..))).trans ?_
    show (.row [] (.vcmpGe mods (fld wd 21 3) (fld wd 14 7) (fld wd 7 7) (fld wd 0 7))) = Raw.row _ _
    simp only [wd, fld_8_3_7_7_7_at_0_7, fld_8_3_7_7_7_at_7_7, fld_8_3_7_7_7_at_14_7, fld_8_3_7_7_7_at_21_3]
  · rfl
theorem Encoding.vbcast (mods : Mods) (w : BitVec 1) (d : BitVec 7) (a : BitVec 7) : Encoding.Statement (.vbcast mods w d a) := fun _ => by
  let wd : W32 := 0x5E#8 ++ 0#2 ++ w ++ d ++ a ++ 0#7
  refine ⟨[zero wd .reserved 1 0 7], ?_, ?_⟩
  · refine (congrArg (decodeOpcode mods wd) (congrArg BitVec.toNat (show fld wd 24 8 = _ from fld_8_2_1_7_7_7_at_24_8 ..))).trans ?_
    show (if fld wd 22 2 = 0#2 then .row [zero wd .reserved 1 0 7] (.vbcast mods (fld wd 21 1) (fld wd 14 7) (fld wd 7 7)) else .bad .fn 10) = Raw.row _ _
    simp only [wd, fld_8_2_1_7_7_7_at_7_7, fld_8_2_1_7_7_7_at_14_7, fld_8_2_1_7_7_7_at_21_1, fld_8_2_1_7_7_7_at_22_2]
    rfl
  · simp only [List.all_cons, zero, wd, fld_8_2_1_7_7_7_at_0_7]
    rfl
theorem Encoding.vcvti (mods : Mods) (t : BitVec 3) (d : BitVec 7) (a : BitVec 7) (s : BitVec 3) : Encoding.Statement (.vcvti mods t d a s) := fun _ => by
  let wd : W32 := 0x5F#8 ++ t ++ d ++ a ++ 0#4 ++ s
  refine ⟨[zero wd .reserved 1 3 4], ?_, ?_⟩
  · refine (congrArg (decodeOpcode mods wd) (congrArg BitVec.toNat (show fld wd 24 8 = _ from fld_8_3_7_7_4_3_at_24_8 ..))).trans ?_
    show (.row [zero wd .reserved 1 3 4] (.vcvti mods (fld wd 21 3) (fld wd 14 7) (fld wd 7 7) (fld wd 0 3))) = Raw.row _ _
    simp only [wd, fld_8_3_7_7_4_3_at_0_3, fld_8_3_7_7_4_3_at_7_7, fld_8_3_7_7_4_3_at_14_7, fld_8_3_7_7_4_3_at_21_3]
  · simp only [List.all_cons, zero, wd, fld_8_3_7_7_4_3_at_3_4]
    rfl
theorem Encoding.qand (mods : Mods) (d : BitVec 7) (a : BitVec 7) (b : BitVec 7) : Encoding.Statement (.qand mods d a b) := fun _ => by
  let wd : W32 := 0x60#8 ++ 0#3 ++ d ++ a ++ b
  refine ⟨[], ?_, ?_⟩
  · refine (congrArg (decodeOpcode mods wd) (congrArg BitVec.toNat (show fld wd 24 8 = _ from fld_8_3_7_7_7_at_24_8 ..))).trans ?_
    show (if fld wd 21 3 = 0#3 then .row [] (.qand mods (fld wd 14 7) (fld wd 7 7) (fld wd 0 7)) else .bad .fn 10) = Raw.row _ _
    simp only [wd, fld_8_3_7_7_7_at_0_7, fld_8_3_7_7_7_at_7_7, fld_8_3_7_7_7_at_14_7, fld_8_3_7_7_7_at_21_3]
    rfl
  · rfl
theorem Encoding.qor (mods : Mods) (d : BitVec 7) (a : BitVec 7) (b : BitVec 7) : Encoding.Statement (.qor mods d a b) := fun _ => by
  let wd : W32 := 0x61#8 ++ 0#3 ++ d ++ a ++ b
  refine ⟨[], ?_, ?_⟩
  · refine (congrArg (decodeOpcode mods wd) (congrArg BitVec.toNat (show fld wd 24 8 = _ from fld_8_3_7_7_7_at_24_8 ..))).trans ?_
    show (if fld wd 21 3 = 0#3 then .row [] (.qor mods (fld wd 14 7) (fld wd 7 7) (fld wd 0 7)) else .bad .fn 10) = Raw.row _ _
    simp only [wd, fld_8_3_7_7_7_at_0_7, fld_8_3_7_7_7_at_7_7, fld_8_3_7_7_7_at_14_7, fld_8_3_7_7_7_at_21_3]
    rfl
  · rfl
theorem Encoding.qxor (mods : Mods) (d : BitVec 7) (a : BitVec 7) (b : BitVec 7) : Encoding.Statement (.qxor mods d a b) := fun _ => by
  let wd : W32 := 0x62#8 ++ 0#3 ++ d ++ a ++ b
  refine ⟨[], ?_, ?_⟩
  · refine (congrArg (decodeOpcode mods wd) (congrArg BitVec.toNat (show fld wd 24 8 = _ from fld_8_3_7_7_7_at_24_8 ..))).trans ?_
    show (if fld wd 21 3 = 0#3 then .row [] (.qxor mods (fld wd 14 7) (fld wd 7 7) (fld wd 0 7)) else .bad .fn 10) = Raw.row _ _
    simp only [wd, fld_8_3_7_7_7_at_0_7, fld_8_3_7_7_7_at_7_7, fld_8_3_7_7_7_at_14_7, fld_8_3_7_7_7_at_21_3]
    rfl
  · rfl
theorem Encoding.qnot (mods : Mods) (d : BitVec 7) (a : BitVec 7) : Encoding.Statement (.qnot mods d a) := fun _ => by
  let wd : W32 := 0x63#8 ++ 0#3 ++ d ++ a ++ 0#7
  refine ⟨[zero wd .reserved 1 0 7], ?_, ?_⟩
  · refine (congrArg (decodeOpcode mods wd) (congrArg BitVec.toNat (show fld wd 24 8 = _ from fld_8_3_7_7_7_at_24_8 ..))).trans ?_
    show (if fld wd 21 3 = 0#3 then .row [zero wd .reserved 1 0 7] (.qnot mods (fld wd 14 7) (fld wd 7 7)) else .bad .fn 10) = Raw.row _ _
    simp only [wd, fld_8_3_7_7_7_at_7_7, fld_8_3_7_7_7_at_14_7, fld_8_3_7_7_7_at_21_3]
    rfl
  · simp only [List.all_cons, zero, wd, fld_8_3_7_7_7_at_0_7]
    rfl
theorem Encoding.qmov (mods : Mods) (d : BitVec 7) (a : BitVec 7) : Encoding.Statement (.qmov mods d a) := fun _ => by
  let wd : W32 := 0x64#8 ++ 0#3 ++ d ++ a ++ 0#7
  refine ⟨[zero wd .reserved 1 0 7], ?_, ?_⟩
  · refine (congrArg (decodeOpcode mods wd) (congrArg BitVec.toNat (show fld wd 24 8 = _ from fld_8_3_7_7_7_at_24_8 ..))).trans ?_
    show (if fld wd 21 3 = 0#3 then .row [zero wd .reserved 1 0 7] (.qmov mods (fld wd 14 7) (fld wd 7 7)) else .bad .fn 10) = Raw.row _ _
    simp only [wd, fld_8_3_7_7_7_at_7_7, fld_8_3_7_7_7_at_14_7, fld_8_3_7_7_7_at_21_3]
    rfl
  · simp only [List.all_cons, zero, wd, fld_8_3_7_7_7_at_0_7]
    rfl
theorem Encoding.fadd (mods : Mods) (t : BitVec 2) (d : BitVec 7) (a : BitVec 7) (b : BitVec 7) : Encoding.Statement (.fadd mods t d a b) := fun _ => by
  let wd : W32 := 0x70#8 ++ 0#1 ++ t ++ d ++ a ++ b
  refine ⟨[zero wd .typeCode 10 23 1], ?_, ?_⟩
  · refine (congrArg (decodeOpcode mods wd) (congrArg BitVec.toNat (show fld wd 24 8 = _ from fld_8_1_2_7_7_7_at_24_8 ..))).trans ?_
    show (.row [zero wd .typeCode 10 23 1] (.fadd mods (fld wd 21 2) (fld wd 14 7) (fld wd 7 7) (fld wd 0 7))) = Raw.row _ _
    simp only [wd, fld_8_1_2_7_7_7_at_0_7, fld_8_1_2_7_7_7_at_7_7, fld_8_1_2_7_7_7_at_14_7, fld_8_1_2_7_7_7_at_21_2]
  · simp only [List.all_cons, zero, wd, fld_8_1_2_7_7_7_at_23_1]
    rfl
theorem Encoding.fsub (mods : Mods) (t : BitVec 2) (d : BitVec 7) (a : BitVec 7) (b : BitVec 7) : Encoding.Statement (.fsub mods t d a b) := fun _ => by
  let wd : W32 := 0x71#8 ++ 0#1 ++ t ++ d ++ a ++ b
  refine ⟨[zero wd .typeCode 10 23 1], ?_, ?_⟩
  · refine (congrArg (decodeOpcode mods wd) (congrArg BitVec.toNat (show fld wd 24 8 = _ from fld_8_1_2_7_7_7_at_24_8 ..))).trans ?_
    show (.row [zero wd .typeCode 10 23 1] (.fsub mods (fld wd 21 2) (fld wd 14 7) (fld wd 7 7) (fld wd 0 7))) = Raw.row _ _
    simp only [wd, fld_8_1_2_7_7_7_at_0_7, fld_8_1_2_7_7_7_at_7_7, fld_8_1_2_7_7_7_at_14_7, fld_8_1_2_7_7_7_at_21_2]
  · simp only [List.all_cons, zero, wd, fld_8_1_2_7_7_7_at_23_1]
    rfl
theorem Encoding.fmul (mods : Mods) (t : BitVec 2) (d : BitVec 7) (a : BitVec 7) (b : BitVec 7) : Encoding.Statement (.fmul mods t d a b) := fun _ => by
  let wd : W32 := 0x72#8 ++ 0#1 ++ t ++ d ++ a ++ b
  refine ⟨[zero wd .typeCode 10 23 1], ?_, ?_⟩
  · refine (congrArg (decodeOpcode mods wd) (congrArg BitVec.toNat (show fld wd 24 8 = _ from fld_8_1_2_7_7_7_at_24_8 ..))).trans ?_
    show (.row [zero wd .typeCode 10 23 1] (.fmul mods (fld wd 21 2) (fld wd 14 7) (fld wd 7 7) (fld wd 0 7))) = Raw.row _ _
    simp only [wd, fld_8_1_2_7_7_7_at_0_7, fld_8_1_2_7_7_7_at_7_7, fld_8_1_2_7_7_7_at_14_7, fld_8_1_2_7_7_7_at_21_2]
  · simp only [List.all_cons, zero, wd, fld_8_1_2_7_7_7_at_23_1]
    rfl
theorem Encoding.ffma (mods : Mods) (t : BitVec 2) (d : BitVec 7) (a : BitVec 7) (b : BitVec 7) : Encoding.Statement (.ffma mods t d a b) := fun _ => by
  let wd : W32 := 0x73#8 ++ 0#1 ++ t ++ d ++ a ++ b
  refine ⟨[zero wd .typeCode 10 23 1], ?_, ?_⟩
  · refine (congrArg (decodeOpcode mods wd) (congrArg BitVec.toNat (show fld wd 24 8 = _ from fld_8_1_2_7_7_7_at_24_8 ..))).trans ?_
    show (.row [zero wd .typeCode 10 23 1] (.ffma mods (fld wd 21 2) (fld wd 14 7) (fld wd 7 7) (fld wd 0 7))) = Raw.row _ _
    simp only [wd, fld_8_1_2_7_7_7_at_0_7, fld_8_1_2_7_7_7_at_7_7, fld_8_1_2_7_7_7_at_14_7, fld_8_1_2_7_7_7_at_21_2]
  · simp only [List.all_cons, zero, wd, fld_8_1_2_7_7_7_at_23_1]
    rfl
theorem Encoding.fmin (mods : Mods) (t : BitVec 2) (d : BitVec 7) (a : BitVec 7) (b : BitVec 7) : Encoding.Statement (.fmin mods t d a b) := fun _ => by
  let wd : W32 := 0x74#8 ++ 0#1 ++ t ++ d ++ a ++ b
  refine ⟨[zero wd .typeCode 10 23 1], ?_, ?_⟩
  · refine (congrArg (decodeOpcode mods wd) (congrArg BitVec.toNat (show fld wd 24 8 = _ from fld_8_1_2_7_7_7_at_24_8 ..))).trans ?_
    show (.row [zero wd .typeCode 10 23 1] (.fmin mods (fld wd 21 2) (fld wd 14 7) (fld wd 7 7) (fld wd 0 7))) = Raw.row _ _
    simp only [wd, fld_8_1_2_7_7_7_at_0_7, fld_8_1_2_7_7_7_at_7_7, fld_8_1_2_7_7_7_at_14_7, fld_8_1_2_7_7_7_at_21_2]
  · simp only [List.all_cons, zero, wd, fld_8_1_2_7_7_7_at_23_1]
    rfl
theorem Encoding.fmax (mods : Mods) (t : BitVec 2) (d : BitVec 7) (a : BitVec 7) (b : BitVec 7) : Encoding.Statement (.fmax mods t d a b) := fun _ => by
  let wd : W32 := 0x75#8 ++ 0#1 ++ t ++ d ++ a ++ b
  refine ⟨[zero wd .typeCode 10 23 1], ?_, ?_⟩
  · refine (congrArg (decodeOpcode mods wd) (congrArg BitVec.toNat (show fld wd 24 8 = _ from fld_8_1_2_7_7_7_at_24_8 ..))).trans ?_
    show (.row [zero wd .typeCode 10 23 1] (.fmax mods (fld wd 21 2) (fld wd 14 7) (fld wd 7 7) (fld wd 0 7))) = Raw.row _ _
    simp only [wd, fld_8_1_2_7_7_7_at_0_7, fld_8_1_2_7_7_7_at_7_7, fld_8_1_2_7_7_7_at_14_7, fld_8_1_2_7_7_7_at_21_2]
  · simp only [List.all_cons, zero, wd, fld_8_1_2_7_7_7_at_23_1]
    rfl
theorem Encoding.fsgn (mods : Mods) (t : BitVec 2) (d : BitVec 7) (a : BitVec 7) (b : BitVec 7) : Encoding.Statement (.fsgn mods t d a b) := fun _ => by
  let wd : W32 := 0x76#8 ++ 0#1 ++ t ++ d ++ a ++ b
  refine ⟨[zero wd .typeCode 10 23 1], ?_, ?_⟩
  · refine (congrArg (decodeOpcode mods wd) (congrArg BitVec.toNat (show fld wd 24 8 = _ from fld_8_1_2_7_7_7_at_24_8 ..))).trans ?_
    show (.row [zero wd .typeCode 10 23 1] (.fsgn mods (fld wd 21 2) (fld wd 14 7) (fld wd 7 7) (fld wd 0 7))) = Raw.row _ _
    simp only [wd, fld_8_1_2_7_7_7_at_0_7, fld_8_1_2_7_7_7_at_7_7, fld_8_1_2_7_7_7_at_14_7, fld_8_1_2_7_7_7_at_21_2]
  · simp only [List.all_cons, zero, wd, fld_8_1_2_7_7_7_at_23_1]
    rfl
theorem Encoding.fsgnNeg (mods : Mods) (t : BitVec 2) (d : BitVec 7) (a : BitVec 7) (b : BitVec 7) : Encoding.Statement (.fsgnNeg mods t d a b) := fun _ => by
  let wd : W32 := 0x77#8 ++ 0#1 ++ t ++ d ++ a ++ b
  refine ⟨[zero wd .typeCode 10 23 1], ?_, ?_⟩
  · refine (congrArg (decodeOpcode mods wd) (congrArg BitVec.toNat (show fld wd 24 8 = _ from fld_8_1_2_7_7_7_at_24_8 ..))).trans ?_
    show (.row [zero wd .typeCode 10 23 1] (.fsgnNeg mods (fld wd 21 2) (fld wd 14 7) (fld wd 7 7) (fld wd 0 7))) = Raw.row _ _
    simp only [wd, fld_8_1_2_7_7_7_at_0_7, fld_8_1_2_7_7_7_at_7_7, fld_8_1_2_7_7_7_at_14_7, fld_8_1_2_7_7_7_at_21_2]
  · simp only [List.all_cons, zero, wd, fld_8_1_2_7_7_7_at_23_1]
    rfl
theorem Encoding.fsgnXor (mods : Mods) (t : BitVec 2) (d : BitVec 7) (a : BitVec 7) (b : BitVec 7) : Encoding.Statement (.fsgnXor mods t d a b) := fun _ => by
  let wd : W32 := 0x78#8 ++ 0#1 ++ t ++ d ++ a ++ b
  refine ⟨[zero wd .typeCode 10 23 1], ?_, ?_⟩
  · refine (congrArg (decodeOpcode mods wd) (congrArg BitVec.toNat (show fld wd 24 8 = _ from fld_8_1_2_7_7_7_at_24_8 ..))).trans ?_
    show (.row [zero wd .typeCode 10 23 1] (.fsgnXor mods (fld wd 21 2) (fld wd 14 7) (fld wd 7 7) (fld wd 0 7))) = Raw.row _ _
    simp only [wd, fld_8_1_2_7_7_7_at_0_7, fld_8_1_2_7_7_7_at_7_7, fld_8_1_2_7_7_7_at_14_7, fld_8_1_2_7_7_7_at_21_2]
  · simp only [List.all_cons, zero, wd, fld_8_1_2_7_7_7_at_23_1]
    rfl
theorem Encoding.fcmpEq (mods : Mods) (t : BitVec 2) (d : BitVec 7) (a : BitVec 7) (b : BitVec 7) : Encoding.Statement (.fcmpEq mods t d a b) := fun _ => by
  let wd : W32 := 0x79#8 ++ 0#1 ++ t ++ d ++ a ++ b
  refine ⟨[zero wd .typeCode 10 23 1], ?_, ?_⟩
  · refine (congrArg (decodeOpcode mods wd) (congrArg BitVec.toNat (show fld wd 24 8 = _ from fld_8_1_2_7_7_7_at_24_8 ..))).trans ?_
    show (.row [zero wd .typeCode 10 23 1] (.fcmpEq mods (fld wd 21 2) (fld wd 14 7) (fld wd 7 7) (fld wd 0 7))) = Raw.row _ _
    simp only [wd, fld_8_1_2_7_7_7_at_0_7, fld_8_1_2_7_7_7_at_7_7, fld_8_1_2_7_7_7_at_14_7, fld_8_1_2_7_7_7_at_21_2]
  · simp only [List.all_cons, zero, wd, fld_8_1_2_7_7_7_at_23_1]
    rfl
theorem Encoding.fcmpNe (mods : Mods) (t : BitVec 2) (d : BitVec 7) (a : BitVec 7) (b : BitVec 7) : Encoding.Statement (.fcmpNe mods t d a b) := fun _ => by
  let wd : W32 := 0x7A#8 ++ 0#1 ++ t ++ d ++ a ++ b
  refine ⟨[zero wd .typeCode 10 23 1], ?_, ?_⟩
  · refine (congrArg (decodeOpcode mods wd) (congrArg BitVec.toNat (show fld wd 24 8 = _ from fld_8_1_2_7_7_7_at_24_8 ..))).trans ?_
    show (.row [zero wd .typeCode 10 23 1] (.fcmpNe mods (fld wd 21 2) (fld wd 14 7) (fld wd 7 7) (fld wd 0 7))) = Raw.row _ _
    simp only [wd, fld_8_1_2_7_7_7_at_0_7, fld_8_1_2_7_7_7_at_7_7, fld_8_1_2_7_7_7_at_14_7, fld_8_1_2_7_7_7_at_21_2]
  · simp only [List.all_cons, zero, wd, fld_8_1_2_7_7_7_at_23_1]
    rfl
theorem Encoding.fcmpLt (mods : Mods) (t : BitVec 2) (d : BitVec 7) (a : BitVec 7) (b : BitVec 7) : Encoding.Statement (.fcmpLt mods t d a b) := fun _ => by
  let wd : W32 := 0x7B#8 ++ 0#1 ++ t ++ d ++ a ++ b
  refine ⟨[zero wd .typeCode 10 23 1], ?_, ?_⟩
  · refine (congrArg (decodeOpcode mods wd) (congrArg BitVec.toNat (show fld wd 24 8 = _ from fld_8_1_2_7_7_7_at_24_8 ..))).trans ?_
    show (.row [zero wd .typeCode 10 23 1] (.fcmpLt mods (fld wd 21 2) (fld wd 14 7) (fld wd 7 7) (fld wd 0 7))) = Raw.row _ _
    simp only [wd, fld_8_1_2_7_7_7_at_0_7, fld_8_1_2_7_7_7_at_7_7, fld_8_1_2_7_7_7_at_14_7, fld_8_1_2_7_7_7_at_21_2]
  · simp only [List.all_cons, zero, wd, fld_8_1_2_7_7_7_at_23_1]
    rfl
theorem Encoding.fcmpLe (mods : Mods) (t : BitVec 2) (d : BitVec 7) (a : BitVec 7) (b : BitVec 7) : Encoding.Statement (.fcmpLe mods t d a b) := fun _ => by
  let wd : W32 := 0x7C#8 ++ 0#1 ++ t ++ d ++ a ++ b
  refine ⟨[zero wd .typeCode 10 23 1], ?_, ?_⟩
  · refine (congrArg (decodeOpcode mods wd) (congrArg BitVec.toNat (show fld wd 24 8 = _ from fld_8_1_2_7_7_7_at_24_8 ..))).trans ?_
    show (.row [zero wd .typeCode 10 23 1] (.fcmpLe mods (fld wd 21 2) (fld wd 14 7) (fld wd 7 7) (fld wd 0 7))) = Raw.row _ _
    simp only [wd, fld_8_1_2_7_7_7_at_0_7, fld_8_1_2_7_7_7_at_7_7, fld_8_1_2_7_7_7_at_14_7, fld_8_1_2_7_7_7_at_21_2]
  · simp only [List.all_cons, zero, wd, fld_8_1_2_7_7_7_at_23_1]
    rfl
theorem Encoding.fcmpGt (mods : Mods) (t : BitVec 2) (d : BitVec 7) (a : BitVec 7) (b : BitVec 7) : Encoding.Statement (.fcmpGt mods t d a b) := fun _ => by
  let wd : W32 := 0x7D#8 ++ 0#1 ++ t ++ d ++ a ++ b
  refine ⟨[zero wd .typeCode 10 23 1], ?_, ?_⟩
  · refine (congrArg (decodeOpcode mods wd) (congrArg BitVec.toNat (show fld wd 24 8 = _ from fld_8_1_2_7_7_7_at_24_8 ..))).trans ?_
    show (.row [zero wd .typeCode 10 23 1] (.fcmpGt mods (fld wd 21 2) (fld wd 14 7) (fld wd 7 7) (fld wd 0 7))) = Raw.row _ _
    simp only [wd, fld_8_1_2_7_7_7_at_0_7, fld_8_1_2_7_7_7_at_7_7, fld_8_1_2_7_7_7_at_14_7, fld_8_1_2_7_7_7_at_21_2]
  · simp only [List.all_cons, zero, wd, fld_8_1_2_7_7_7_at_23_1]
    rfl
theorem Encoding.fcmpGe (mods : Mods) (t : BitVec 2) (d : BitVec 7) (a : BitVec 7) (b : BitVec 7) : Encoding.Statement (.fcmpGe mods t d a b) := fun _ => by
  let wd : W32 := 0x7E#8 ++ 0#1 ++ t ++ d ++ a ++ b
  refine ⟨[zero wd .typeCode 10 23 1], ?_, ?_⟩
  · refine (congrArg (decodeOpcode mods wd) (congrArg BitVec.toNat (show fld wd 24 8 = _ from fld_8_1_2_7_7_7_at_24_8 ..))).trans ?_
    show (.row [zero wd .typeCode 10 23 1] (.fcmpGe mods (fld wd 21 2) (fld wd 14 7) (fld wd 7 7) (fld wd 0 7))) = Raw.row _ _
    simp only [wd, fld_8_1_2_7_7_7_at_0_7, fld_8_1_2_7_7_7_at_7_7, fld_8_1_2_7_7_7_at_14_7, fld_8_1_2_7_7_7_at_21_2]
  · simp only [List.all_cons, zero, wd, fld_8_1_2_7_7_7_at_23_1]
    rfl
theorem Encoding.fcmpUn (mods : Mods) (t : BitVec 2) (d : BitVec 7) (a : BitVec 7) (b : BitVec 7) : Encoding.Statement (.fcmpUn mods t d a b) := fun _ => by
  let wd : W32 := 0x7F#8 ++ 0#1 ++ t ++ d ++ a ++ b
  refine ⟨[zero wd .typeCode 10 23 1], ?_, ?_⟩
  · refine (congrArg (decodeOpcode mods wd) (congrArg BitVec.toNat (show fld wd 24 8 = _ from fld_8_1_2_7_7_7_at_24_8 ..))).trans ?_
    show (.row [zero wd .typeCode 10 23 1] (.fcmpUn mods (fld wd 21 2) (fld wd 14 7) (fld wd 7 7) (fld wd 0 7))) = Raw.row _ _
    simp only [wd, fld_8_1_2_7_7_7_at_0_7, fld_8_1_2_7_7_7_at_7_7, fld_8_1_2_7_7_7_at_14_7, fld_8_1_2_7_7_7_at_21_2]
  · simp only [List.all_cons, zero, wd, fld_8_1_2_7_7_7_at_23_1]
    rfl
theorem Encoding.fcmpOr (mods : Mods) (t : BitVec 2) (d : BitVec 7) (a : BitVec 7) (b : BitVec 7) : Encoding.Statement (.fcmpOr mods t d a b) := fun _ => by
  let wd : W32 := 0x80#8 ++ 0#1 ++ t ++ d ++ a ++ b
  refine ⟨[zero wd .typeCode 10 23 1], ?_, ?_⟩
  · refine (congrArg (decodeOpcode mods wd) (congrArg BitVec.toNat (show fld wd 24 8 = _ from fld_8_1_2_7_7_7_at_24_8 ..))).trans ?_
    show (.row [zero wd .typeCode 10 23 1] (.fcmpOr mods (fld wd 21 2) (fld wd 14 7) (fld wd 7 7) (fld wd 0 7))) = Raw.row _ _
    simp only [wd, fld_8_1_2_7_7_7_at_0_7, fld_8_1_2_7_7_7_at_7_7, fld_8_1_2_7_7_7_at_14_7, fld_8_1_2_7_7_7_at_21_2]
  · simp only [List.all_cons, zero, wd, fld_8_1_2_7_7_7_at_23_1]
    rfl
theorem Encoding.fclass (mods : Mods) (t : BitVec 2) (d : BitVec 7) (a : BitVec 7) : Encoding.Statement (.fclass mods t d a) := fun _ => by
  let wd : W32 := 0x81#8 ++ 0#1 ++ t ++ d ++ a ++ 0#7
  refine ⟨[zero wd .typeCode 10 23 1, zero wd .reserved 1 0 7], ?_, ?_⟩
  · refine (congrArg (decodeOpcode mods wd) (congrArg BitVec.toNat (show fld wd 24 8 = _ from fld_8_1_2_7_7_7_at_24_8 ..))).trans ?_
    show (.row [zero wd .typeCode 10 23 1, zero wd .reserved 1 0 7] (.fclass mods (fld wd 21 2) (fld wd 14 7) (fld wd 7 7))) = Raw.row _ _
    simp only [wd, fld_8_1_2_7_7_7_at_7_7, fld_8_1_2_7_7_7_at_14_7, fld_8_1_2_7_7_7_at_21_2]
  · simp only [List.all_cons, zero, wd, fld_8_1_2_7_7_7_at_23_1, fld_8_1_2_7_7_7_at_0_7]
    rfl
theorem Encoding.fcvt (mods : Mods) (f : BitVec 3) (d : BitVec 7) (a : BitVec 7) (s : BitVec 3) : Encoding.Statement (.fcvt mods f d a s) := fun _ => by
  let wd : W32 := 0x82#8 ++ f ++ d ++ a ++ 0#2 ++ 0#2 ++ s
  refine ⟨[zero wd .reserved 1 5 2], ?_, ?_⟩
  · refine (congrArg (decodeOpcode mods wd) (congrArg BitVec.toNat (show fld wd 24 8 = _ from fld_8_3_7_7_2_2_3_at_24_8 ..))).trans ?_
    show (if fld wd 3 2 = 0#2 then .row [zero wd .reserved 1 5 2] (.fcvt mods (fld wd 21 3) (fld wd 14 7) (fld wd 7 7) (fld wd 0 3)) else if fld wd 3 2 = 1#2 then .row [zero wd .reserved 1 5 2] (.fcvtToInt mods (fld wd 21 3) (fld wd 14 7) (fld wd 7 7) (fld wd 0 3)) else if fld wd 3 2 = 2#2 then .row [zero wd .reserved 1 5 2] (.fcvtFromInt mods (fld wd 21 3) (fld wd 14 7) (fld wd 7 7) (fld wd 0 3)) else .row [zero wd .reserved 1 5 2, ⟨.typeCode, 1, false⟩] (.fcvt mods (fld wd 21 3) (fld wd 14 7) (fld wd 7 7) (fld wd 0 3))) = Raw.row _ _
    simp only [wd, fld_8_3_7_7_2_2_3_at_0_3, fld_8_3_7_7_2_2_3_at_3_2, fld_8_3_7_7_2_2_3_at_7_7, fld_8_3_7_7_2_2_3_at_14_7, fld_8_3_7_7_2_2_3_at_21_3]
    rfl
  · simp only [List.all_cons, zero, wd, fld_8_3_7_7_2_2_3_at_5_2]
    rfl
theorem Encoding.fcvtToInt (mods : Mods) (f : BitVec 3) (d : BitVec 7) (a : BitVec 7) (s : BitVec 3) : Encoding.Statement (.fcvtToInt mods f d a s) := fun _ => by
  let wd : W32 := 0x82#8 ++ f ++ d ++ a ++ 0#2 ++ 1#2 ++ s
  refine ⟨[zero wd .reserved 1 5 2], ?_, ?_⟩
  · refine (congrArg (decodeOpcode mods wd) (congrArg BitVec.toNat (show fld wd 24 8 = _ from fld_8_3_7_7_2_2_3_at_24_8 ..))).trans ?_
    show (if fld wd 3 2 = 0#2 then .row [zero wd .reserved 1 5 2] (.fcvt mods (fld wd 21 3) (fld wd 14 7) (fld wd 7 7) (fld wd 0 3)) else if fld wd 3 2 = 1#2 then .row [zero wd .reserved 1 5 2] (.fcvtToInt mods (fld wd 21 3) (fld wd 14 7) (fld wd 7 7) (fld wd 0 3)) else if fld wd 3 2 = 2#2 then .row [zero wd .reserved 1 5 2] (.fcvtFromInt mods (fld wd 21 3) (fld wd 14 7) (fld wd 7 7) (fld wd 0 3)) else .row [zero wd .reserved 1 5 2, ⟨.typeCode, 1, false⟩] (.fcvt mods (fld wd 21 3) (fld wd 14 7) (fld wd 7 7) (fld wd 0 3))) = Raw.row _ _
    simp only [wd, fld_8_3_7_7_2_2_3_at_0_3, fld_8_3_7_7_2_2_3_at_3_2, fld_8_3_7_7_2_2_3_at_7_7, fld_8_3_7_7_2_2_3_at_14_7, fld_8_3_7_7_2_2_3_at_21_3]
    rfl
  · simp only [List.all_cons, zero, wd, fld_8_3_7_7_2_2_3_at_5_2]
    rfl
theorem Encoding.fcvtFromInt (mods : Mods) (f : BitVec 3) (d : BitVec 7) (a : BitVec 7) (s : BitVec 3) : Encoding.Statement (.fcvtFromInt mods f d a s) := fun _ => by
  let wd : W32 := 0x82#8 ++ f ++ d ++ a ++ 0#2 ++ 2#2 ++ s
  refine ⟨[zero wd .reserved 1 5 2], ?_, ?_⟩
  · refine (congrArg (decodeOpcode mods wd) (congrArg BitVec.toNat (show fld wd 24 8 = _ from fld_8_3_7_7_2_2_3_at_24_8 ..))).trans ?_
    show (if fld wd 3 2 = 0#2 then .row [zero wd .reserved 1 5 2] (.fcvt mods (fld wd 21 3) (fld wd 14 7) (fld wd 7 7) (fld wd 0 3)) else if fld wd 3 2 = 1#2 then .row [zero wd .reserved 1 5 2] (.fcvtToInt mods (fld wd 21 3) (fld wd 14 7) (fld wd 7 7) (fld wd 0 3)) else if fld wd 3 2 = 2#2 then .row [zero wd .reserved 1 5 2] (.fcvtFromInt mods (fld wd 21 3) (fld wd 14 7) (fld wd 7 7) (fld wd 0 3)) else .row [zero wd .reserved 1 5 2, ⟨.typeCode, 1, false⟩] (.fcvt mods (fld wd 21 3) (fld wd 14 7) (fld wd 7 7) (fld wd 0 3))) = Raw.row _ _
    simp only [wd, fld_8_3_7_7_2_2_3_at_0_3, fld_8_3_7_7_2_2_3_at_3_2, fld_8_3_7_7_2_2_3_at_7_7, fld_8_3_7_7_2_2_3_at_14_7, fld_8_3_7_7_2_2_3_at_21_3]
    rfl
  · simp only [List.all_cons, zero, wd, fld_8_3_7_7_2_2_3_at_5_2]
    rfl
theorem Encoding.frnd (mods : Mods) (t : BitVec 2) (d : BitVec 7) (a : BitVec 7) : Encoding.Statement (.frnd mods t d a) := fun _ => by
  let wd : W32 := 0x83#8 ++ 0#1 ++ t ++ d ++ a ++ 0#7
  refine ⟨[zero wd .typeCode 10 23 1, zero wd .reserved 1 0 7], ?_, ?_⟩
  · refine (congrArg (decodeOpcode mods wd) (congrArg BitVec.toNat (show fld wd 24 8 = _ from fld_8_1_2_7_7_7_at_24_8 ..))).trans ?_
    show (.row [zero wd .typeCode 10 23 1, zero wd .reserved 1 0 7] (.frnd mods (fld wd 21 2) (fld wd 14 7) (fld wd 7 7))) = Raw.row _ _
    simp only [wd, fld_8_1_2_7_7_7_at_7_7, fld_8_1_2_7_7_7_at_14_7, fld_8_1_2_7_7_7_at_21_2]
  · simp only [List.all_cons, zero, wd, fld_8_1_2_7_7_7_at_23_1, fld_8_1_2_7_7_7_at_0_7]
    rfl
theorem Encoding.hadd2 (mods : Mods) (f : BitVec 1) (d : BitVec 7) (a : BitVec 7) (b : BitVec 7) : Encoding.Statement (.hadd2 mods f d a b) := fun _ => by
  let wd : W32 := 0x84#8 ++ 0#2 ++ f ++ d ++ a ++ b
  refine ⟨[], ?_, ?_⟩
  · refine (congrArg (decodeOpcode mods wd) (congrArg BitVec.toNat (show fld wd 24 8 = _ from fld_8_2_1_7_7_7_at_24_8 ..))).trans ?_
    show (if fld wd 22 2 = 0#2 then .row [] (.hadd2 mods (fld wd 21 1) (fld wd 14 7) (fld wd 7 7) (fld wd 0 7)) else .bad .fn 10) = Raw.row _ _
    simp only [wd, fld_8_2_1_7_7_7_at_0_7, fld_8_2_1_7_7_7_at_7_7, fld_8_2_1_7_7_7_at_14_7, fld_8_2_1_7_7_7_at_21_1, fld_8_2_1_7_7_7_at_22_2]
    rfl
  · rfl
theorem Encoding.hmul2 (mods : Mods) (f : BitVec 1) (d : BitVec 7) (a : BitVec 7) (b : BitVec 7) : Encoding.Statement (.hmul2 mods f d a b) := fun _ => by
  let wd : W32 := 0x85#8 ++ 0#2 ++ f ++ d ++ a ++ b
  refine ⟨[], ?_, ?_⟩
  · refine (congrArg (decodeOpcode mods wd) (congrArg BitVec.toNat (show fld wd 24 8 = _ from fld_8_2_1_7_7_7_at_24_8 ..))).trans ?_
    show (if fld wd 22 2 = 0#2 then .row [] (.hmul2 mods (fld wd 21 1) (fld wd 14 7) (fld wd 7 7) (fld wd 0 7)) else .bad .fn 10) = Raw.row _ _
    simp only [wd, fld_8_2_1_7_7_7_at_0_7, fld_8_2_1_7_7_7_at_7_7, fld_8_2_1_7_7_7_at_14_7, fld_8_2_1_7_7_7_at_21_1, fld_8_2_1_7_7_7_at_22_2]
    rfl
  · rfl
theorem Encoding.hfma2 (mods : Mods) (f : BitVec 1) (d : BitVec 7) (a : BitVec 7) (b : BitVec 7) : Encoding.Statement (.hfma2 mods f d a b) := fun _ => by
  let wd : W32 := 0x86#8 ++ 0#2 ++ f ++ d ++ a ++ b
  refine ⟨[], ?_, ?_⟩
  · refine (congrArg (decodeOpcode mods wd) (congrArg BitVec.toNat (show fld wd 24 8 = _ from fld_8_2_1_7_7_7_at_24_8 ..))).trans ?_
    show (if fld wd 22 2 = 0#2 then .row [] (.hfma2 mods (fld wd 21 1) (fld wd 14 7) (fld wd 7 7) (fld wd 0 7)) else .bad .fn 10) = Raw.row _ _
    simp only [wd, fld_8_2_1_7_7_7_at_0_7, fld_8_2_1_7_7_7_at_7_7, fld_8_2_1_7_7_7_at_14_7, fld_8_2_1_7_7_7_at_21_1, fld_8_2_1_7_7_7_at_22_2]
    rfl
  · rfl
theorem Encoding.hcmp2 (mods : Mods) (c : BitVec 2) (f : BitVec 1) (d : BitVec 7) (a : BitVec 7) (b : BitVec 7) : Encoding.Statement (.hcmp2 mods c f d a b) := fun _ => by
  let wd : W32 := 0x87#8 ++ c ++ f ++ d ++ a ++ b
  refine ⟨[], ?_, ?_⟩
  · refine (congrArg (decodeOpcode mods wd) (congrArg BitVec.toNat (show fld wd 24 8 = _ from fld_8_2_1_7_7_7_at_24_8 ..))).trans ?_
    show (.row [] (.hcmp2 mods (fld wd 22 2) (fld wd 21 1) (fld wd 14 7) (fld wd 7 7) (fld wd 0 7))) = Raw.row _ _
    simp only [wd, fld_8_2_1_7_7_7_at_0_7, fld_8_2_1_7_7_7_at_7_7, fld_8_2_1_7_7_7_at_14_7, fld_8_2_1_7_7_7_at_21_1, fld_8_2_1_7_7_7_at_22_2]
  · rfl
theorem Encoding.srcp (mods : Mods) (t : BitVec 2) (d : BitVec 7) (a : BitVec 7) : Encoding.Statement (.srcp mods t d a) := fun _ => by
  let wd : W32 := 0x90#8 ++ 0#1 ++ t ++ d ++ a ++ 0#7
  refine ⟨[zero wd .typeCode 10 23 1, zero wd .reserved 1 0 7], ?_, ?_⟩
  · refine (congrArg (decodeOpcode mods wd) (congrArg BitVec.toNat (show fld wd 24 8 = _ from fld_8_1_2_7_7_7_at_24_8 ..))).trans ?_
    show (.row [zero wd .typeCode 10 23 1, zero wd .reserved 1 0 7] (.srcp mods (fld wd 21 2) (fld wd 14 7) (fld wd 7 7))) = Raw.row _ _
    simp only [wd, fld_8_1_2_7_7_7_at_7_7, fld_8_1_2_7_7_7_at_14_7, fld_8_1_2_7_7_7_at_21_2]
  · simp only [List.all_cons, zero, wd, fld_8_1_2_7_7_7_at_23_1, fld_8_1_2_7_7_7_at_0_7]
    rfl
theorem Encoding.srsq (mods : Mods) (t : BitVec 2) (d : BitVec 7) (a : BitVec 7) : Encoding.Statement (.srsq mods t d a) := fun _ => by
  let wd : W32 := 0x91#8 ++ 0#1 ++ t ++ d ++ a ++ 0#7
  refine ⟨[zero wd .typeCode 10 23 1, zero wd .reserved 1 0 7], ?_, ?_⟩
  · refine (congrArg (decodeOpcode mods wd) (congrArg BitVec.toNat (show fld wd 24 8 = _ from fld_8_1_2_7_7_7_at_24_8 ..))).trans ?_
    show (.row [zero wd .typeCode 10 23 1, zero wd .reserved 1 0 7] (.srsq mods (fld wd 21 2) (fld wd 14 7) (fld wd 7 7))) = Raw.row _ _
    simp only [wd, fld_8_1_2_7_7_7_at_7_7, fld_8_1_2_7_7_7_at_14_7, fld_8_1_2_7_7_7_at_21_2]
  · simp only [List.all_cons, zero, wd, fld_8_1_2_7_7_7_at_23_1, fld_8_1_2_7_7_7_at_0_7]
    rfl
theorem Encoding.ssqrt (mods : Mods) (t : BitVec 2) (d : BitVec 7) (a : BitVec 7) : Encoding.Statement (.ssqrt mods t d a) := fun _ => by
  let wd : W32 := 0x92#8 ++ 0#1 ++ t ++ d ++ a ++ 0#7
  refine ⟨[zero wd .typeCode 10 23 1, zero wd .reserved 1 0 7], ?_, ?_⟩
  · refine (congrArg (decodeOpcode mods wd) (congrArg BitVec.toNat (show fld wd 24 8 = _ from fld_8_1_2_7_7_7_at_24_8 ..))).trans ?_
    show (.row [zero wd .typeCode 10 23 1, zero wd .reserved 1 0 7] (.ssqrt mods (fld wd 21 2) (fld wd 14 7) (fld wd 7 7))) = Raw.row _ _
    simp only [wd, fld_8_1_2_7_7_7_at_7_7, fld_8_1_2_7_7_7_at_14_7, fld_8_1_2_7_7_7_at_21_2]
  · simp only [List.all_cons, zero, wd, fld_8_1_2_7_7_7_at_23_1, fld_8_1_2_7_7_7_at_0_7]
    rfl
theorem Encoding.sexp2 (mods : Mods) (t : BitVec 2) (d : BitVec 7) (a : BitVec 7) : Encoding.Statement (.sexp2 mods t d a) := fun _ => by
  let wd : W32 := 0x93#8 ++ 0#1 ++ t ++ d ++ a ++ 0#7
  refine ⟨[zero wd .typeCode 10 23 1, zero wd .reserved 1 0 7], ?_, ?_⟩
  · refine (congrArg (decodeOpcode mods wd) (congrArg BitVec.toNat (show fld wd 24 8 = _ from fld_8_1_2_7_7_7_at_24_8 ..))).trans ?_
    show (.row [zero wd .typeCode 10 23 1, zero wd .reserved 1 0 7] (.sexp2 mods (fld wd 21 2) (fld wd 14 7) (fld wd 7 7))) = Raw.row _ _
    simp only [wd, fld_8_1_2_7_7_7_at_7_7, fld_8_1_2_7_7_7_at_14_7, fld_8_1_2_7_7_7_at_21_2]
  · simp only [List.all_cons, zero, wd, fld_8_1_2_7_7_7_at_23_1, fld_8_1_2_7_7_7_at_0_7]
    rfl
theorem Encoding.slog2 (mods : Mods) (t : BitVec 2) (d : BitVec 7) (a : BitVec 7) : Encoding.Statement (.slog2 mods t d a) := fun _ => by
  let wd : W32 := 0x94#8 ++ 0#1 ++ t ++ d ++ a ++ 0#7
  refine ⟨[zero wd .typeCode 10 23 1, zero wd .reserved 1 0 7], ?_, ?_⟩
  · refine (congrArg (decodeOpcode mods wd) (congrArg BitVec.toNat (show fld wd 24 8 = _ from fld_8_1_2_7_7_7_at_24_8 ..))).trans ?_
    show (.row [zero wd .typeCode 10 23 1, zero wd .reserved 1 0 7] (.slog2 mods (fld wd 21 2) (fld wd 14 7) (fld wd 7 7))) = Raw.row _ _
    simp only [wd, fld_8_1_2_7_7_7_at_7_7, fld_8_1_2_7_7_7_at_14_7, fld_8_1_2_7_7_7_at_21_2]
  · simp only [List.all_cons, zero, wd, fld_8_1_2_7_7_7_at_23_1, fld_8_1_2_7_7_7_at_0_7]
    rfl
theorem Encoding.ssin (mods : Mods) (t : BitVec 2) (d : BitVec 7) (a : BitVec 7) : Encoding.Statement (.ssin mods t d a) := fun _ => by
  let wd : W32 := 0x95#8 ++ 0#1 ++ t ++ d ++ a ++ 0#7
  refine ⟨[zero wd .typeCode 10 23 1, zero wd .reserved 1 0 7], ?_, ?_⟩
  · refine (congrArg (decodeOpcode mods wd) (congrArg BitVec.toNat (show fld wd 24 8 = _ from fld_8_1_2_7_7_7_at_24_8 ..))).trans ?_
    show (.row [zero wd .typeCode 10 23 1, zero wd .reserved 1 0 7] (.ssin mods (fld wd 21 2) (fld wd 14 7) (fld wd 7 7))) = Raw.row _ _
    simp only [wd, fld_8_1_2_7_7_7_at_7_7, fld_8_1_2_7_7_7_at_14_7, fld_8_1_2_7_7_7_at_21_2]
  · simp only [List.all_cons, zero, wd, fld_8_1_2_7_7_7_at_23_1, fld_8_1_2_7_7_7_at_0_7]
    rfl
theorem Encoding.scos (mods : Mods) (t : BitVec 2) (d : BitVec 7) (a : BitVec 7) : Encoding.Statement (.scos mods t d a) := fun _ => by
  let wd : W32 := 0x96#8 ++ 0#1 ++ t ++ d ++ a ++ 0#7
  refine ⟨[zero wd .typeCode 10 23 1, zero wd .reserved 1 0 7], ?_, ?_⟩
  · refine (congrArg (decodeOpcode mods wd) (congrArg BitVec.toNat (show fld wd 24 8 = _ from fld_8_1_2_7_7_7_at_24_8 ..))).trans ?_
    show (.row [zero wd .typeCode 10 23 1, zero wd .reserved 1 0 7] (.scos mods (fld wd 21 2) (fld wd 14 7) (fld wd 7 7))) = Raw.row _ _
    simp only [wd, fld_8_1_2_7_7_7_at_7_7, fld_8_1_2_7_7_7_at_14_7, fld_8_1_2_7_7_7_at_21_2]
  · simp only [List.all_cons, zero, wd, fld_8_1_2_7_7_7_at_23_1, fld_8_1_2_7_7_7_at_0_7]
    rfl
theorem Encoding.stanh (mods : Mods) (t : BitVec 2) (d : BitVec 7) (a : BitVec 7) : Encoding.Statement (.stanh mods t d a) := fun _ => by
  let wd : W32 := 0x97#8 ++ 0#1 ++ t ++ d ++ a ++ 0#7
  refine ⟨[zero wd .typeCode 10 23 1, zero wd .reserved 1 0 7], ?_, ?_⟩
  · refine (congrArg (decodeOpcode mods wd) (congrArg BitVec.toNat (show fld wd 24 8 = _ from fld_8_1_2_7_7_7_at_24_8 ..))).trans ?_
    show (.row [zero wd .typeCode 10 23 1, zero wd .reserved 1 0 7] (.stanh mods (fld wd 21 2) (fld wd 14 7) (fld wd 7 7))) = Raw.row _ _
    simp only [wd, fld_8_1_2_7_7_7_at_7_7, fld_8_1_2_7_7_7_at_14_7, fld_8_1_2_7_7_7_at_21_2]
  · simp only [List.all_cons, zero, wd, fld_8_1_2_7_7_7_at_23_1, fld_8_1_2_7_7_7_at_0_7]
    rfl
theorem Encoding.wmad (mods : Mods) (f : BitVec 3) (w : BitVec 4) (a : BitVec 7) (b : BitVec 7) : Encoding.Statement (.wmad mods f w a b) := fun _ => by
  let wd : W32 := 0x98#8 ++ f ++ 0#3 ++ w ++ a ++ b
  refine ⟨[zero wd .highBits 3 18 3], ?_, ?_⟩
  · refine (congrArg (decodeOpcode mods wd) (congrArg BitVec.toNat (show fld wd 24 8 = _ from fld_8_3_3_4_7_7_at_24_8 ..))).trans ?_
    show (.row [zero wd .highBits 3 18 3] (.wmad mods (fld wd 21 3) (fld wd 14 4) (fld wd 7 7) (fld wd 0 7))) = Raw.row _ _
    simp only [wd, fld_8_3_3_4_7_7_at_0_7, fld_8_3_3_4_7_7_at_7_7, fld_8_3_3_4_7_7_at_14_4, fld_8_3_3_4_7_7_at_21_3]
  · simp only [List.all_cons, zero, wd, fld_8_3_3_4_7_7_at_18_3]
    rfl
theorem Encoding.wdot4 (mods : Mods) (f : BitVec 3) (w : BitVec 4) (a : BitVec 7) (b : BitVec 7) : Encoding.Statement (.wdot4 mods f w a b) := fun _ => by
  let wd : W32 := 0x99#8 ++ f ++ 0#3 ++ w ++ a ++ b
  refine ⟨[zero wd .highBits 3 18 3], ?_, ?_⟩
  · refine (congrArg (decodeOpcode mods wd) (congrArg BitVec.toNat (show fld wd 24 8 = _ from fld_8_3_3_4_7_7_at_24_8 ..))).trans ?_
    show (.row [zero wd .highBits 3 18 3] (.wdot4 mods (fld wd 21 3) (fld wd 14 4) (fld wd 7 7) (fld wd 0 7))) = Raw.row _ _
    simp only [wd, fld_8_3_3_4_7_7_at_0_7, fld_8_3_3_4_7_7_at_7_7, fld_8_3_3_4_7_7_at_14_4, fld_8_3_3_4_7_7_at_21_3]
  · simp only [List.all_cons, zero, wd, fld_8_3_3_4_7_7_at_18_3]
    rfl
theorem Encoding.waddAccumulator (mods : Mods) (f : BitVec 1) (d : BitVec 4) (a : BitVec 4) (b : BitVec 4) : Encoding.Statement (.waddAccumulator mods f d a b) := fun _ => by
  let wd : W32 := 0x9A#8 ++ 0#2 ++ f ++ 0#3 ++ d ++ 0#3 ++ a ++ 0#3 ++ b
  refine ⟨[zero wd .highBits 3 18 3, zero wd .highBits 0 11 3, zero wd .highBits 1 4 3], ?_, ?_⟩
  · refine (congrArg (decodeOpcode mods wd) (congrArg BitVec.toNat (show fld wd 24 8 = _ from fld_8_2_1_3_4_3_4_3_4_at_24_8 ..))).trans ?_
    show (if fld wd 22 2 = 0#2 then .row [zero wd .highBits 3 18 3, zero wd .highBits 0 11 3, zero wd .highBits 1 4 3] (.waddAccumulator mods (fld wd 21 1) (fld wd 14 4) (fld wd 7 4) (fld wd 0 4)) else .bad .fn 10) = Raw.row _ _
    simp only [wd, fld_8_2_1_3_4_3_4_3_4_at_0_4, fld_8_2_1_3_4_3_4_3_4_at_7_4, fld_8_2_1_3_4_3_4_3_4_at_14_4, fld_8_2_1_3_4_3_4_3_4_at_21_1, fld_8_2_1_3_4_3_4_3_4_at_22_2]
    rfl
  · simp only [List.all_cons, zero, wd, fld_8_2_1_3_4_3_4_3_4_at_18_3, fld_8_2_1_3_4_3_4_3_4_at_11_3, fld_8_2_1_3_4_3_4_3_4_at_4_3]
    rfl
theorem Encoding.wclr (mods : Mods) (d : BitVec 4) : Encoding.Statement (.wclr mods d) := fun _ => by
  let wd : W32 := 0x9B#8 ++ 0#3 ++ 0#3 ++ d ++ 0#7 ++ 0#7
  refine ⟨[zero wd .highBits 3 18 3, zero wd .reserved 0 7 7, zero wd .reserved 1 0 7], ?_, ?_⟩
  · refine (congrArg (decodeOpcode mods wd) (congrArg BitVec.toNat (show fld wd 24 8 = _ from fld_8_3_3_4_7_7_at_24_8 ..))).trans ?_
    show (if fld wd 21 3 = 0#3 then .row [zero wd .highBits 3 18 3, zero wd .reserved 0 7 7, zero wd .reserved 1 0 7] (.wclr mods (fld wd 14 4)) else .bad .fn 10) = Raw.row _ _
    simp only [wd, fld_8_3_3_4_7_7_at_14_4, fld_8_3_3_4_7_7_at_21_3]
    rfl
  · simp only [List.all_cons, zero, wd, fld_8_3_3_4_7_7_at_18_3, fld_8_3_3_4_7_7_at_7_7, fld_8_3_3_4_7_7_at_0_7]
    rfl
theorem Encoding.narrow (mods : Mods) (f : BitVec 3) (d : BitVec 7) (a : BitVec 4) : Encoding.Statement (.narrow mods f d a) := fun _ => by
  let wd : W32 := 0x9C#8 ++ f ++ d ++ 0#3 ++ a ++ 0#7
  refine ⟨[zero wd .highBits 0 11 3, zero wd .reserved 1 0 7], ?_, ?_⟩
  · refine (congrArg (decodeOpcode mods wd) (congrArg BitVec.toNat (show fld wd 24 8 = _ from fld_8_3_7_3_4_7_at_24_8 ..))).trans ?_
    show (.row [zero wd .highBits 0 11 3, zero wd .reserved 1 0 7] (.narrow mods (fld wd 21 3) (fld wd 14 7) (fld wd 7 4))) = Raw.row _ _
    simp only [wd, fld_8_3_7_3_4_7_at_7_4, fld_8_3_7_3_4_7_at_14_7, fld_8_3_7_3_4_7_at_21_3]
  · simp only [List.all_cons, zero, wd, fld_8_3_7_3_4_7_at_11_3, fld_8_3_7_3_4_7_at_0_7]
    rfl
theorem Encoding.widen (mods : Mods) (f : BitVec 3) (d : BitVec 4) (a : BitVec 7) : Encoding.Statement (.widen mods f d a) := fun _ => by
  let wd : W32 := 0x9D#8 ++ f ++ 0#3 ++ d ++ a ++ 0#7
  refine ⟨[zero wd .highBits 3 18 3, zero wd .reserved 1 0 7], ?_, ?_⟩
  · refine (congrArg (decodeOpcode mods wd) (congrArg BitVec.toNat (show fld wd 24 8 = _ from fld_8_3_3_4_7_7_at_24_8 ..))).trans ?_
    show (.row [zero wd .highBits 3 18 3, zero wd .reserved 1 0 7] (.widen mods (fld wd 21 3) (fld wd 14 4) (fld wd 7 7))) = Raw.row _ _
    simp only [wd, fld_8_3_3_4_7_7_at_7_7, fld_8_3_3_4_7_7_at_14_4, fld_8_3_3_4_7_7_at_21_3]
  · simp only [List.all_cons, zero, wd, fld_8_3_3_4_7_7_at_18_3, fld_8_3_3_4_7_7_at_0_7]
    rfl
theorem Encoding.shfl (mods : Mods) (w : BitVec 1) (d : BitVec 7) (a : BitVec 7) (b : BitVec 7) : Encoding.Statement (.shfl mods w d a b) := fun _ => by
  let wd : W32 := 0xA0#8 ++ w ++ 0#2 ++ d ++ a ++ b
  refine ⟨[], ?_, ?_⟩
  · refine (congrArg (decodeOpcode mods wd) (congrArg BitVec.toNat (show fld wd 24 8 = _ from fld_8_1_2_7_7_7_at_24_8 ..))).trans ?_
    show (if fld wd 21 2 = 0#2 then .row [] (.shfl mods (fld wd 23 1) (fld wd 14 7) (fld wd 7 7) (fld wd 0 7)) else if fld wd 21 2 = 1#2 then .row [] (.shflx mods (fld wd 23 1) (fld wd 14 7) (fld wd 7 7) (fld wd 0 7)) else if fld wd 21 2 = 2#2 then .row [] (.shflu mods (fld wd 23 1) (fld wd 14 7) (fld wd 7 7) (fld wd 0 7)) else if fld wd 21 2 = 3#2 then .row [] (.shfld mods (fld wd 23 1) (fld wd 14 7) (fld wd 7 7) (fld wd 0 7)) else .bad .fn 10) = Raw.row _ _
    simp only [wd, fld_8_1_2_7_7_7_at_0_7, fld_8_1_2_7_7_7_at_7_7, fld_8_1_2_7_7_7_at_14_7, fld_8_1_2_7_7_7_at_21_2, fld_8_1_2_7_7_7_at_23_1]
    rfl
  · rfl
theorem Encoding.shflx (mods : Mods) (w : BitVec 1) (d : BitVec 7) (a : BitVec 7) (b : BitVec 7) : Encoding.Statement (.shflx mods w d a b) := fun _ => by
  let wd : W32 := 0xA0#8 ++ w ++ 1#2 ++ d ++ a ++ b
  refine ⟨[], ?_, ?_⟩
  · refine (congrArg (decodeOpcode mods wd) (congrArg BitVec.toNat (show fld wd 24 8 = _ from fld_8_1_2_7_7_7_at_24_8 ..))).trans ?_
    show (if fld wd 21 2 = 0#2 then .row [] (.shfl mods (fld wd 23 1) (fld wd 14 7) (fld wd 7 7) (fld wd 0 7)) else if fld wd 21 2 = 1#2 then .row [] (.shflx mods (fld wd 23 1) (fld wd 14 7) (fld wd 7 7) (fld wd 0 7)) else if fld wd 21 2 = 2#2 then .row [] (.shflu mods (fld wd 23 1) (fld wd 14 7) (fld wd 7 7) (fld wd 0 7)) else if fld wd 21 2 = 3#2 then .row [] (.shfld mods (fld wd 23 1) (fld wd 14 7) (fld wd 7 7) (fld wd 0 7)) else .bad .fn 10) = Raw.row _ _
    simp only [wd, fld_8_1_2_7_7_7_at_0_7, fld_8_1_2_7_7_7_at_7_7, fld_8_1_2_7_7_7_at_14_7, fld_8_1_2_7_7_7_at_21_2, fld_8_1_2_7_7_7_at_23_1]
    rfl
  · rfl
theorem Encoding.shflu (mods : Mods) (w : BitVec 1) (d : BitVec 7) (a : BitVec 7) (b : BitVec 7) : Encoding.Statement (.shflu mods w d a b) := fun _ => by
  let wd : W32 := 0xA0#8 ++ w ++ 2#2 ++ d ++ a ++ b
  refine ⟨[], ?_, ?_⟩
  · refine (congrArg (decodeOpcode mods wd) (congrArg BitVec.toNat (show fld wd 24 8 = _ from fld_8_1_2_7_7_7_at_24_8 ..))).trans ?_
    show (if fld wd 21 2 = 0#2 then .row [] (.shfl mods (fld wd 23 1) (fld wd 14 7) (fld wd 7 7) (fld wd 0 7)) else if fld wd 21 2 = 1#2 then .row [] (.shflx mods (fld wd 23 1) (fld wd 14 7) (fld wd 7 7) (fld wd 0 7)) else if fld wd 21 2 = 2#2 then .row [] (.shflu mods (fld wd 23 1) (fld wd 14 7) (fld wd 7 7) (fld wd 0 7)) else if fld wd 21 2 = 3#2 then .row [] (.shfld mods (fld wd 23 1) (fld wd 14 7) (fld wd 7 7) (fld wd 0 7)) else .bad .fn 10) = Raw.row _ _
    simp only [wd, fld_8_1_2_7_7_7_at_0_7, fld_8_1_2_7_7_7_at_7_7, fld_8_1_2_7_7_7_at_14_7, fld_8_1_2_7_7_7_at_21_2, fld_8_1_2_7_7_7_at_23_1]
    rfl
  · rfl
theorem Encoding.shfld (mods : Mods) (w : BitVec 1) (d : BitVec 7) (a : BitVec 7) (b : BitVec 7) : Encoding.Statement (.shfld mods w d a b) := fun _ => by
  let wd : W32 := 0xA0#8 ++ w ++ 3#2 ++ d ++ a ++ b
  refine ⟨[], ?_, ?_⟩
  · refine (congrArg (decodeOpcode mods wd) (congrArg BitVec.toNat (show fld wd 24 8 = _ from fld_8_1_2_7_7_7_at_24_8 ..))).trans ?_
    show (if fld wd 21 2 = 0#2 then .row [] (.shfl mods (fld wd 23 1) (fld wd 14 7) (fld wd 7 7) (fld wd 0 7)) else if fld wd 21 2 = 1#2 then .row [] (.shflx mods (fld wd 23 1) (fld wd 14 7) (fld wd 7 7) (fld wd 0 7)) else if fld wd 21 2 = 2#2 then .row [] (.shflu mods (fld wd 23 1) (fld wd 14 7) (fld wd 7 7) (fld wd 0 7)) else if fld wd 21 2 = 3#2 then .row [] (.shfld mods (fld wd 23 1) (fld wd 14 7) (fld wd 7 7) (fld wd 0 7)) else .bad .fn 10) = Raw.row _ _
    simp only [wd, fld_8_1_2_7_7_7_at_0_7, fld_8_1_2_7_7_7_at_7_7, fld_8_1_2_7_7_7_at_14_7, fld_8_1_2_7_7_7_at_21_2, fld_8_1_2_7_7_7_at_23_1]
    rfl
  · rfl
theorem Encoding.vote (mods : Mods) (f : BitVec 3) (d : BitVec 7) (a : BitVec 7) : Encoding.Statement (.vote mods f d a) := fun _ => by
  let wd : W32 := 0xA1#8 ++ f ++ d ++ a ++ 0#7
  refine ⟨[zero wd .reserved 1 0 7], ?_, ?_⟩
  · refine (congrArg (decodeOpcode mods wd) (congrArg BitVec.toNat (show fld wd 24 8 = _ from fld_8_3_7_7_7_at_24_8 ..))).trans ?_
    show (.row [zero wd .reserved 1 0 7] (.vote mods (fld wd 21 3) (fld wd 14 7) (fld wd 7 7))) = Raw.row _ _
    simp only [wd, fld_8_3_7_7_7_at_7_7, fld_8_3_7_7_7_at_14_7, fld_8_3_7_7_7_at_21_3]
  · simp only [List.all_cons, zero, wd, fld_8_3_7_7_7_at_0_7]
    rfl
theorem Encoding.redg (mods : Mods) (f : BitVec 3) (d : BitVec 7) (a : BitVec 7) : Encoding.Statement (.redg mods f d a) := fun _ => by
  let wd : W32 := 0xA2#8 ++ f ++ d ++ a ++ 0#7
  refine ⟨[zero wd .reserved 1 0 7], ?_, ?_⟩
  · refine (congrArg (decodeOpcode mods wd) (congrArg BitVec.toNat (show fld wd 24 8 = _ from fld_8_3_7_7_7_at_24_8 ..))).trans ?_
    show (.row [zero wd .reserved 1 0 7] (.redg mods (fld wd 21 3) (fld wd 14 7) (fld wd 7 7))) = Raw.row _ _
    simp only [wd, fld_8_3_7_7_7_at_7_7, fld_8_3_7_7_7_at_14_7, fld_8_3_7_7_7_at_21_3]
  · simp only [List.all_cons, zero, wd, fld_8_3_7_7_7_at_0_7]
    rfl
theorem Encoding.scang (mods : Mods) (f : BitVec 3) (d : BitVec 7) (a : BitVec 7) : Encoding.Statement (.scang mods f d a) := fun _ => by
  let wd : W32 := 0xA3#8 ++ f ++ d ++ a ++ 0#7
  refine ⟨[zero wd .reserved 1 0 7], ?_, ?_⟩
  · refine (congrArg (decodeOpcode mods wd) (congrArg BitVec.toNat (show fld wd 24 8 = _ from fld_8_3_7_7_7_at_24_8 ..))).trans ?_
    show (.row [zero wd .reserved 1 0 7] (.scang mods (fld wd 21 3) (fld wd 14 7) (fld wd 7 7))) = Raw.row _ _
    simp only [wd, fld_8_3_7_7_7_at_7_7, fld_8_3_7_7_7_at_14_7, fld_8_3_7_7_7_at_21_3]
  · simp only [List.all_cons, zero, wd, fld_8_3_7_7_7_at_0_7]
    rfl
theorem Encoding.matchLanes (mods : Mods) (f : BitVec 1) (d : BitVec 7) (a : BitVec 7) : Encoding.Statement (.matchLanes mods f d a) := fun _ => by
  let wd : W32 := 0xA4#8 ++ 0#2 ++ f ++ d ++ a ++ 0#7
  refine ⟨[zero wd .reserved 1 0 7], ?_, ?_⟩
  · refine (congrArg (decodeOpcode mods wd) (congrArg BitVec.toNat (show fld wd 24 8 = _ from fld_8_2_1_7_7_7_at_24_8 ..))).trans ?_
    show (if fld wd 22 2 = 0#2 then .row [zero wd .reserved 1 0 7] (.matchLanes mods (fld wd 21 1) (fld wd 14 7) (fld wd 7 7)) else .bad .fn 10) = Raw.row _ _
    simp only [wd, fld_8_2_1_7_7_7_at_7_7, fld_8_2_1_7_7_7_at_14_7, fld_8_2_1_7_7_7_at_21_1, fld_8_2_1_7_7_7_at_22_2]
    rfl
  · simp only [List.all_cons, zero, wd, fld_8_2_1_7_7_7_at_0_7]
    rfl
theorem Encoding.vkey (mods : Mods) (t : BitVec 2) (d : BitVec 7) (a : BitVec 7) : Encoding.Statement (.vkey mods t d a) := fun _ => by
  let wd : W32 := 0xA5#8 ++ 0#1 ++ t ++ d ++ a ++ 0#7
  refine ⟨[zero wd .typeCode 10 23 1, zero wd .reserved 1 0 7], ?_, ?_⟩
  · refine (congrArg (decodeOpcode mods wd) (congrArg BitVec.toNat (show fld wd 24 8 = _ from fld_8_1_2_7_7_7_at_24_8 ..))).trans ?_
    show (.row [zero wd .typeCode 10 23 1, zero wd .reserved 1 0 7] (.vkey mods (fld wd 21 2) (fld wd 14 7) (fld wd 7 7))) = Raw.row _ _
    simp only [wd, fld_8_1_2_7_7_7_at_7_7, fld_8_1_2_7_7_7_at_14_7, fld_8_1_2_7_7_7_at_21_2]
  · simp only [List.all_cons, zero, wd, fld_8_1_2_7_7_7_at_23_1, fld_8_1_2_7_7_7_at_0_7]
    rfl
theorem Encoding.ldN8 (mods : Mods) (l : BitVec 3) (d : BitVec 7) (b : BitVec 7) (p : BitVec 2) (o : BitVec 5) : Encoding.Statement (.ldN8 mods l d b p o) := fun _ => by
  let wd : W32 := 0xA8#8 ++ l ++ d ++ b ++ p ++ o
  refine ⟨[], ?_, ?_⟩
  · refine (congrArg (decodeOpcode mods wd) (congrArg BitVec.toNat (show fld wd 24 8 = _ from fld_8_3_7_7_2_5_at_24_8 ..))).trans ?_
    show (.row [] (.ldN8 mods (fld wd 21 3) (fld wd 14 7) (fld wd 7 7) (fld wd 5 2) (fld wd 0 5))) = Raw.row _ _
    simp only [wd, fld_8_3_7_7_2_5_at_0_5, fld_8_3_7_7_2_5_at_5_2, fld_8_3_7_7_2_5_at_7_7, fld_8_3_7_7_2_5_at_14_7, fld_8_3_7_7_2_5_at_21_3]
  · rfl
theorem Encoding.ldS8 (mods : Mods) (l : BitVec 3) (d : BitVec 7) (b : BitVec 7) (p : BitVec 2) (o : BitVec 5) : Encoding.Statement (.ldS8 mods l d b p o) := fun _ => by
  let wd : W32 := 0xA9#8 ++ l ++ d ++ b ++ p ++ o
  refine ⟨[], ?_, ?_⟩
  · refine (congrArg (decodeOpcode mods wd) (congrArg BitVec.toNat (show fld wd 24 8 = _ from fld_8_3_7_7_2_5_at_24_8 ..))).trans ?_
    show (.row [] (.ldS8 mods (fld wd 21 3) (fld wd 14 7) (fld wd 7 7) (fld wd 5 2) (fld wd 0 5))) = Raw.row _ _
    simp only [wd, fld_8_3_7_7_2_5_at_0_5, fld_8_3_7_7_2_5_at_5_2, fld_8_3_7_7_2_5_at_7_7, fld_8_3_7_7_2_5_at_14_7, fld_8_3_7_7_2_5_at_21_3]
  · rfl
theorem Encoding.ldN16 (mods : Mods) (l : BitVec 3) (d : BitVec 7) (b : BitVec 7) (p : BitVec 2) (o : BitVec 5) : Encoding.Statement (.ldN16 mods l d b p o) := fun _ => by
  let wd : W32 := 0xAA#8 ++ l ++ d ++ b ++ p ++ o
  refine ⟨[], ?_, ?_⟩
  · refine (congrArg (decodeOpcode mods wd) (congrArg BitVec.toNat (show fld wd 24 8 = _ from fld_8_3_7_7_2_5_at_24_8 ..))).trans ?_
    show (.row [] (.ldN16 mods (fld wd 21 3) (fld wd 14 7) (fld wd 7 7) (fld wd 5 2) (fld wd 0 5))) = Raw.row _ _
    simp only [wd, fld_8_3_7_7_2_5_at_0_5, fld_8_3_7_7_2_5_at_5_2, fld_8_3_7_7_2_5_at_7_7, fld_8_3_7_7_2_5_at_14_7, fld_8_3_7_7_2_5_at_21_3]
  · rfl
theorem Encoding.ldS16 (mods : Mods) (l : BitVec 3) (d : BitVec 7) (b : BitVec 7) (p : BitVec 2) (o : BitVec 5) : Encoding.Statement (.ldS16 mods l d b p o) := fun _ => by
  let wd : W32 := 0xAB#8 ++ l ++ d ++ b ++ p ++ o
  refine ⟨[], ?_, ?_⟩
  · refine (congrArg (decodeOpcode mods wd) (congrArg BitVec.toNat (show fld wd 24 8 = _ from fld_8_3_7_7_2_5_at_24_8 ..))).trans ?_
    show (.row [] (.ldS16 mods (fld wd 21 3) (fld wd 14 7) (fld wd 7 7) (fld wd 5 2) (fld wd 0 5))) = Raw.row _ _
    simp only [wd, fld_8_3_7_7_2_5_at_0_5, fld_8_3_7_7_2_5_at_5_2, fld_8_3_7_7_2_5_at_7_7, fld_8_3_7_7_2_5_at_14_7, fld_8_3_7_7_2_5_at_21_3]
  · rfl
theorem Encoding.ld32 (mods : Mods) (l : BitVec 3) (d : BitVec 7) (b : BitVec 7) (p : BitVec 2) (o : BitVec 5) : Encoding.Statement (.ld32 mods l d b p o) := fun _ => by
  let wd : W32 := 0xAC#8 ++ l ++ d ++ b ++ p ++ o
  refine ⟨[], ?_, ?_⟩
  · refine (congrArg (decodeOpcode mods wd) (congrArg BitVec.toNat (show fld wd 24 8 = _ from fld_8_3_7_7_2_5_at_24_8 ..))).trans ?_
    show (.row [] (.ld32 mods (fld wd 21 3) (fld wd 14 7) (fld wd 7 7) (fld wd 5 2) (fld wd 0 5))) = Raw.row _ _
    simp only [wd, fld_8_3_7_7_2_5_at_0_5, fld_8_3_7_7_2_5_at_5_2, fld_8_3_7_7_2_5_at_7_7, fld_8_3_7_7_2_5_at_14_7, fld_8_3_7_7_2_5_at_21_3]
  · rfl
theorem Encoding.ld64 (mods : Mods) (l : BitVec 3) (d : BitVec 7) (b : BitVec 7) (p : BitVec 2) (o : BitVec 5) : Encoding.Statement (.ld64 mods l d b p o) := fun _ => by
  let wd : W32 := 0xAD#8 ++ l ++ d ++ b ++ p ++ o
  refine ⟨[], ?_, ?_⟩
  · refine (congrArg (decodeOpcode mods wd) (congrArg BitVec.toNat (show fld wd 24 8 = _ from fld_8_3_7_7_2_5_at_24_8 ..))).trans ?_
    show (.row [] (.ld64 mods (fld wd 21 3) (fld wd 14 7) (fld wd 7 7) (fld wd 5 2) (fld wd 0 5))) = Raw.row _ _
    simp only [wd, fld_8_3_7_7_2_5_at_0_5, fld_8_3_7_7_2_5_at_5_2, fld_8_3_7_7_2_5_at_7_7, fld_8_3_7_7_2_5_at_14_7, fld_8_3_7_7_2_5_at_21_3]
  · rfl
theorem Encoding.ldv (mods : Mods) (l : BitVec 3) (d : BitVec 7) (b : BitVec 7) (p : BitVec 2) (o : BitVec 5) : Encoding.Statement (.ldv mods l d b p o) := fun _ => by
  let wd : W32 := 0xAE#8 ++ l ++ d ++ b ++ p ++ o
  refine ⟨[], ?_, ?_⟩
  · refine (congrArg (decodeOpcode mods wd) (congrArg BitVec.toNat (show fld wd 24 8 = _ from fld_8_3_7_7_2_5_at_24_8 ..))).trans ?_
    show (.row [] (.ldv mods (fld wd 21 3) (fld wd 14 7) (fld wd 7 7) (fld wd 5 2) (fld wd 0 5))) = Raw.row _ _
    simp only [wd, fld_8_3_7_7_2_5_at_0_5, fld_8_3_7_7_2_5_at_5_2, fld_8_3_7_7_2_5_at_7_7, fld_8_3_7_7_2_5_at_14_7, fld_8_3_7_7_2_5_at_21_3]
  · rfl
theorem Encoding.ldk (mods : Mods) (l : BitVec 3) (d : BitVec 7) (b : BitVec 7) (p : BitVec 2) (o : BitVec 5) : Encoding.Statement (.ldk mods l d b p o) := fun _ => by
  let wd : W32 := 0xAF#8 ++ l ++ d ++ b ++ p ++ o
  refine ⟨[], ?_, ?_⟩
  · refine (congrArg (decodeOpcode mods wd) (congrArg BitVec.toNat (show fld wd 24 8 = _ from fld_8_3_7_7_2_5_at_24_8 ..))).trans ?_
    show (.row [] (.ldk mods (fld wd 21 3) (fld wd 14 7) (fld wd 7 7) (fld wd 5 2) (fld wd 0 5))) = Raw.row _ _
    simp only [wd, fld_8_3_7_7_2_5_at_0_5, fld_8_3_7_7_2_5_at_5_2, fld_8_3_7_7_2_5_at_7_7, fld_8_3_7_7_2_5_at_14_7, fld_8_3_7_7_2_5_at_21_3]
  · rfl
theorem Encoding.ldx (mods : Mods) (l : BitVec 3) (d : BitVec 7) (b : BitVec 7) (p : BitVec 2) (o : BitVec 5) : Encoding.Statement (.ldx mods l d b p o) := fun _ => by
  let wd : W32 := 0xB0#8 ++ l ++ d ++ b ++ p ++ o
  refine ⟨[], ?_, ?_⟩
  · refine (congrArg (decodeOpcode mods wd) (congrArg BitVec.toNat (show fld wd 24 8 = _ from fld_8_3_7_7_2_5_at_24_8 ..))).trans ?_
    show (.row [] (.ldx mods (fld wd 21 3) (fld wd 14 7) (fld wd 7 7) (fld wd 5 2) (fld wd 0 5))) = Raw.row _ _
    simp only [wd, fld_8_3_7_7_2_5_at_0_5, fld_8_3_7_7_2_5_at_5_2, fld_8_3_7_7_2_5_at_7_7, fld_8_3_7_7_2_5_at_14_7, fld_8_3_7_7_2_5_at_21_3]
  · rfl
theorem Encoding.pf (mods : Mods) (l : BitVec 3) (b : BitVec 7) (p : BitVec 2) (o : BitVec 5) : Encoding.Statement (.pf mods l b p o) := fun _ => by
  let wd : W32 := 0xB1#8 ++ l ++ 0#7 ++ b ++ p ++ o
  refine ⟨[zero wd .reserved 3 14 7], ?_, ?_⟩
  · refine (congrArg (decodeOpcode mods wd) (congrArg BitVec.toNat (show fld wd 24 8 = _ from fld_8_3_7_7_2_5_at_24_8 ..))).trans ?_
    show (.row [zero wd .reserved 3 14 7] (.pf mods (fld wd 21 3) (fld wd 7 7) (fld wd 5 2) (fld wd 0 5))) = Raw.row _ _
    simp only [wd, fld_8_3_7_7_2_5_at_0_5, fld_8_3_7_7_2_5_at_5_2, fld_8_3_7_7_2_5_at_7_7, fld_8_3_7_7_2_5_at_21_3]
  · simp only [List.all_cons, zero, wd, fld_8_3_7_7_2_5_at_14_7]
    rfl
theorem Encoding.lds (mods : Mods) (f : BitVec 3) (d : BitVec 7) (b : BitVec 7) (o : BitVec 5) : Encoding.Statement (.lds mods f d b o) := fun _ => by
  let wd : W32 := 0xB2#8 ++ f ++ d ++ b ++ 0#2 ++ o
  refine ⟨[zero wd .reserved 12 5 2], ?_, ?_⟩
  · refine (congrArg (decodeOpcode mods wd) (congrArg BitVec.toNat (show fld wd 24 8 = _ from fld_8_3_7_7_2_5_at_24_8 ..))).trans ?_
    show (.row [zero wd .reserved 12 5 2] (.lds mods (fld wd 21 3) (fld wd 14 7) (fld wd 7 7) (fld wd 0 5))) = Raw.row _ _
    simp only [wd, fld_8_3_7_7_2_5_at_0_5, fld_8_3_7_7_2_5_at_7_7, fld_8_3_7_7_2_5_at_14_7, fld_8_3_7_7_2_5_at_21_3]
  · simp only [List.all_cons, zero, wd, fld_8_3_7_7_2_5_at_5_2]
    rfl
theorem Encoding.gtest (mods : Mods) (d : BitVec 7) (a : BitVec 7) (s : BitVec 7) : Encoding.Statement (.gtest mods d a s) := fun _ => by
  let wd : W32 := 0xB3#8 ++ 0#3 ++ d ++ a ++ s
  refine ⟨[], ?_, ?_⟩
  · refine (congrArg (decodeOpcode mods wd) (congrArg BitVec.toNat (show fld wd 24 8 = _ from fld_8_3_7_7_7_at_24_8 ..))).trans ?_
    show (if fld wd 21 3 = 0#3 then .row [] (.gtest mods (fld wd 14 7) (fld wd 7 7) (fld wd 0 7)) else if fld wd 21 3 = 1#3 then .row [zero wd .reserved 3 14 7] (.gacc mods (fld wd 7 7) (fld wd 0 7)) else if fld wd 21 3 = 2#3 then .row [zero wd .reserved 3 14 7] (.gdem mods (fld wd 7 7) (fld wd 0 7)) else if fld wd 21 3 = 3#3 then .row [] (.gchk mods (fld wd 14 7) (fld wd 7 7) (fld wd 0 7)) else if fld wd 21 3 = 4#3 then .row [] (.ptest mods (fld wd 14 7) (fld wd 7 7) (fld wd 0 7)) else .bad .fn 10) = Raw.row _ _
    simp only [wd, fld_8_3_7_7_7_at_0_7, fld_8_3_7_7_7_at_7_7, fld_8_3_7_7_7_at_14_7, fld_8_3_7_7_7_at_21_3]
    rfl
  · rfl
theorem Encoding.gacc (mods : Mods) (a : BitVec 7) (s : BitVec 7) : Encoding.Statement (.gacc mods a s) := fun _ => by
  let wd : W32 := 0xB3#8 ++ 1#3 ++ 0#7 ++ a ++ s
  refine ⟨[zero wd .reserved 3 14 7], ?_, ?_⟩
  · refine (congrArg (decodeOpcode mods wd) (congrArg BitVec.toNat (show fld wd 24 8 = _ from fld_8_3_7_7_7_at_24_8 ..))).trans ?_
    show (if fld wd 21 3 = 0#3 then .row [] (.gtest mods (fld wd 14 7) (fld wd 7 7) (fld wd 0 7)) else if fld wd 21 3 = 1#3 then .row [zero wd .reserved 3 14 7] (.gacc mods (fld wd 7 7) (fld wd 0 7)) else if fld wd 21 3 = 2#3 then .row [zero wd .reserved 3 14 7] (.gdem mods (fld wd 7 7) (fld wd 0 7)) else if fld wd 21 3 = 3#3 then .row [] (.gchk mods (fld wd 14 7) (fld wd 7 7) (fld wd 0 7)) else if fld wd 21 3 = 4#3 then .row [] (.ptest mods (fld wd 14 7) (fld wd 7 7) (fld wd 0 7)) else .bad .fn 10) = Raw.row _ _
    simp only [wd, fld_8_3_7_7_7_at_0_7, fld_8_3_7_7_7_at_7_7, fld_8_3_7_7_7_at_14_7, fld_8_3_7_7_7_at_21_3]
    rfl
  · simp only [List.all_cons, zero, wd, fld_8_3_7_7_7_at_14_7]
    rfl
theorem Encoding.gdem (mods : Mods) (a : BitVec 7) (s : BitVec 7) : Encoding.Statement (.gdem mods a s) := fun _ => by
  let wd : W32 := 0xB3#8 ++ 2#3 ++ 0#7 ++ a ++ s
  refine ⟨[zero wd .reserved 3 14 7], ?_, ?_⟩
  · refine (congrArg (decodeOpcode mods wd) (congrArg BitVec.toNat (show fld wd 24 8 = _ from fld_8_3_7_7_7_at_24_8 ..))).trans ?_
    show (if fld wd 21 3 = 0#3 then .row [] (.gtest mods (fld wd 14 7) (fld wd 7 7) (fld wd 0 7)) else if fld wd 21 3 = 1#3 then .row [zero wd .reserved 3 14 7] (.gacc mods (fld wd 7 7) (fld wd 0 7)) else if fld wd 21 3 = 2#3 then .row [zero wd .reserved 3 14 7] (.gdem mods (fld wd 7 7) (fld wd 0 7)) else if fld wd 21 3 = 3#3 then .row [] (.gchk mods (fld wd 14 7) (fld wd 7 7) (fld wd 0 7)) else if fld wd 21 3 = 4#3 then .row [] (.ptest mods (fld wd 14 7) (fld wd 7 7) (fld wd 0 7)) else .bad .fn 10) = Raw.row _ _
    simp only [wd, fld_8_3_7_7_7_at_0_7, fld_8_3_7_7_7_at_7_7, fld_8_3_7_7_7_at_14_7, fld_8_3_7_7_7_at_21_3]
    rfl
  · simp only [List.all_cons, zero, wd, fld_8_3_7_7_7_at_14_7]
    rfl
theorem Encoding.gchk (mods : Mods) (d : BitVec 7) (a : BitVec 7) (s : BitVec 7) : Encoding.Statement (.gchk mods d a s) := fun _ => by
  let wd : W32 := 0xB3#8 ++ 3#3 ++ d ++ a ++ s
  refine ⟨[], ?_, ?_⟩
  · refine (congrArg (decodeOpcode mods wd) (congrArg BitVec.toNat (show fld wd 24 8 = _ from fld_8_3_7_7_7_at_24_8 ..))).trans ?_
    show (if fld wd 21 3 = 0#3 then .row [] (.gtest mods (fld wd 14 7) (fld wd 7 7) (fld wd 0 7)) else if fld wd 21 3 = 1#3 then .row [zero wd .reserved 3 14 7] (.gacc mods (fld wd 7 7) (fld wd 0 7)) else if fld wd 21 3 = 2#3 then .row [zero wd .reserved 3 14 7] (.gdem mods (fld wd 7 7) (fld wd 0 7)) else if fld wd 21 3 = 3#3 then .row [] (.gchk mods (fld wd 14 7) (fld wd 7 7) (fld wd 0 7)) else if fld wd 21 3 = 4#3 then .row [] (.ptest mods (fld wd 14 7) (fld wd 7 7) (fld wd 0 7)) else .bad .fn 10) = Raw.row _ _
    simp only [wd, fld_8_3_7_7_7_at_0_7, fld_8_3_7_7_7_at_7_7, fld_8_3_7_7_7_at_14_7, fld_8_3_7_7_7_at_21_3]
    rfl
  · rfl
theorem Encoding.ptest (mods : Mods) (d : BitVec 7) (a : BitVec 7) (s : BitVec 7) : Encoding.Statement (.ptest mods d a s) := fun _ => by
  let wd : W32 := 0xB3#8 ++ 4#3 ++ d ++ a ++ s
  refine ⟨[], ?_, ?_⟩
  · refine (congrArg (decodeOpcode mods wd) (congrArg BitVec.toNat (show fld wd 24 8 = _ from fld_8_3_7_7_7_at_24_8 ..))).trans ?_
    show (if fld wd 21 3 = 0#3 then .row [] (.gtest mods (fld wd 14 7) (fld wd 7 7) (fld wd 0 7)) else if fld wd 21 3 = 1#3 then .row [zero wd .reserved 3 14 7] (.gacc mods (fld wd 7 7) (fld wd 0 7)) else if fld wd 21 3 = 2#3 then .row [zero wd .reserved 3 14 7] (.gdem mods (fld wd 7 7) (fld wd 0 7)) else if fld wd 21 3 = 3#3 then .row [] (.gchk mods (fld wd 14 7) (fld wd 7 7) (fld wd 0 7)) else if fld wd 21 3 = 4#3 then .row [] (.ptest mods (fld wd 14 7) (fld wd 7 7) (fld wd 0 7)) else .bad .fn 10) = Raw.row _ _
    simp only [wd, fld_8_3_7_7_7_at_0_7, fld_8_3_7_7_7_at_7_7, fld_8_3_7_7_7_at_14_7, fld_8_3_7_7_7_at_21_3]
    rfl
  · rfl
theorem Encoding.st (mods : Mods) (w : BitVec 2) (d : BitVec 7) (b : BitVec 7) (p : BitVec 2) (o : BitVec 5) : Encoding.Statement (.st mods w d b p o) := fun _ => by
  let wd : W32 := 0xB4#8 ++ 0#1 ++ w ++ d ++ b ++ p ++ o
  refine ⟨[], ?_, ?_⟩
  · refine (congrArg (decodeOpcode mods wd) (congrArg BitVec.toNat (show fld wd 24 8 = _ from fld_8_1_2_7_7_2_5_at_24_8 ..))).trans ?_
    show (if fld wd 23 1 = 0#1 then .row [] (.st mods (fld wd 21 2) (fld wd 14 7) (fld wd 7 7) (fld wd 5 2) (fld wd 0 5)) else .bad .fn 10) = Raw.row _ _
    simp only [wd, fld_8_1_2_7_7_2_5_at_0_5, fld_8_1_2_7_7_2_5_at_5_2, fld_8_1_2_7_7_2_5_at_7_7, fld_8_1_2_7_7_2_5_at_14_7, fld_8_1_2_7_7_2_5_at_21_2, fld_8_1_2_7_7_2_5_at_23_1]
    rfl
  · rfl
theorem Encoding.stv (mods : Mods) (d : BitVec 7) (b : BitVec 7) (p : BitVec 2) (o : BitVec 5) : Encoding.Statement (.stv mods d b p o) := fun _ => by
  let wd : W32 := 0xB5#8 ++ 0#3 ++ d ++ b ++ p ++ o
  refine ⟨[], ?_, ?_⟩
  · refine (congrArg (decodeOpcode mods wd) (congrArg BitVec.toNat (show fld wd 24 8 = _ from fld_8_3_7_7_2_5_at_24_8 ..))).trans ?_
    show (if fld wd 21 3 = 0#3 then .row [] (.stv mods (fld wd 14 7) (fld wd 7 7) (fld wd 5 2) (fld wd 0 5)) else .bad .fn 10) = Raw.row _ _
    simp only [wd, fld_8_3_7_7_2_5_at_0_5, fld_8_3_7_7_2_5_at_5_2, fld_8_3_7_7_2_5_at_7_7, fld_8_3_7_7_2_5_at_14_7, fld_8_3_7_7_2_5_at_21_3]
    rfl
  · rfl
theorem Encoding.stg (mods : Mods) (w : BitVec 2) (d : BitVec 7) (b : BitVec 7) (p : BitVec 2) (o : BitVec 5) : Encoding.Statement (.stg mods w d b p o) := fun _ => by
  let wd : W32 := 0xB6#8 ++ 0#1 ++ w ++ d ++ b ++ p ++ o
  refine ⟨[], ?_, ?_⟩
  · refine (congrArg (decodeOpcode mods wd) (congrArg BitVec.toNat (show fld wd 24 8 = _ from fld_8_1_2_7_7_2_5_at_24_8 ..))).trans ?_
    show (if fld wd 23 1 = 0#1 then .row [] (.stg mods (fld wd 21 2) (fld wd 14 7) (fld wd 7 7) (fld wd 5 2) (fld wd 0 5)) else .bad .fn 10) = Raw.row _ _
    simp only [wd, fld_8_1_2_7_7_2_5_at_0_5, fld_8_1_2_7_7_2_5_at_5_2, fld_8_1_2_7_7_2_5_at_7_7, fld_8_1_2_7_7_2_5_at_14_7, fld_8_1_2_7_7_2_5_at_21_2, fld_8_1_2_7_7_2_5_at_23_1]
    rfl
  · rfl
theorem Encoding.sts (mods : Mods) (w : BitVec 3) (d : BitVec 7) (b : BitVec 7) (o : BitVec 5) : Encoding.Statement (.sts mods w d b o) := fun _ => by
  let wd : W32 := 0xB7#8 ++ w ++ d ++ b ++ 0#2 ++ o
  refine ⟨[zero wd .reserved 12 5 2], ?_, ?_⟩
  · refine (congrArg (decodeOpcode mods wd) (congrArg BitVec.toNat (show fld wd 24 8 = _ from fld_8_3_7_7_2_5_at_24_8 ..))).trans ?_
    show (.row [zero wd .reserved 12 5 2] (.sts mods (fld wd 21 3) (fld wd 14 7) (fld wd 7 7) (fld wd 0 5))) = Raw.row _ _
    simp only [wd, fld_8_3_7_7_2_5_at_0_5, fld_8_3_7_7_2_5_at_7_7, fld_8_3_7_7_2_5_at_14_7, fld_8_3_7_7_2_5_at_21_3]
  · simp only [List.all_cons, zero, wd, fld_8_3_7_7_2_5_at_5_2]
    rfl
theorem Encoding.aadd (mods : Mods) (w : BitVec 1) (d : BitVec 7) (k : BitVec 4) (s : BitVec 3) (b : BitVec 7) : Encoding.Statement (.aadd mods w d k s b) := fun _ => by
  refine ⟨[], ?_, rfl⟩
  have h : w = 0#1 ∨ w = 1#1 := (by decide : ∀ x : BitVec 1, x = 0#1 ∨ x = 1#1) w
  let x : W32 := 0x5C#7 ++ w ++ 0#3 ++ d ++ k ++ s ++ b
  refine (congrArg (decodeOpcode mods x) (congrArg BitVec.toNat (show fld x 24 8 = _ from fld_7_1_3_7_4_3_7_at_24_8 ..))).trans ?_
  rcases h with h | h <;> subst h
  · show (if fld x 21 3 = 0#3 then .row [] (.aadd mods (fld x 24 1) (fld x 14 7) (fld x 10 4) (fld x 7 3) (fld x 0 7)) else if fld x 21 3 = 1#3 then .row [] (.amin mods (fld x 24 1) (fld x 14 7) (fld x 10 4) (fld x 7 3) (fld x 0 7)) else if fld x 21 3 = 2#3 then .row [] (.amax mods (fld x 24 1) (fld x 14 7) (fld x 10 4) (fld x 7 3) (fld x 0 7)) else if fld x 21 3 = 3#3 then .row [] (.aand mods (fld x 24 1) (fld x 14 7) (fld x 10 4) (fld x 7 3) (fld x 0 7)) else if fld x 21 3 = 4#3 then .row [] (.aor mods (fld x 24 1) (fld x 14 7) (fld x 10 4) (fld x 7 3) (fld x 0 7)) else if fld x 21 3 = 5#3 then .row [] (.axor mods (fld x 24 1) (fld x 14 7) (fld x 10 4) (fld x 7 3) (fld x 0 7)) else if fld x 21 3 = 6#3 then .row [] (.axchg mods (fld x 24 1) (fld x 14 7) (fld x 10 4) (fld x 7 3) (fld x 0 7)) else if fld x 21 3 = 7#3 then .row [] (.acas mods (fld x 24 1) (fld x 14 7) (fld x 10 4) (fld x 7 3) (fld x 0 7)) else .bad .fn 10) = Raw.row _ _
    simp only [x, fld_7_1_3_7_4_3_7_at_0_7, fld_7_1_3_7_4_3_7_at_7_3, fld_7_1_3_7_4_3_7_at_10_4, fld_7_1_3_7_4_3_7_at_14_7, fld_7_1_3_7_4_3_7_at_21_3, fld_7_1_3_7_4_3_7_at_24_1]
    rfl
  · show (if fld x 21 3 = 0#3 then .row [] (.aadd mods (fld x 24 1) (fld x 14 7) (fld x 10 4) (fld x 7 3) (fld x 0 7)) else if fld x 21 3 = 1#3 then .row [] (.amin mods (fld x 24 1) (fld x 14 7) (fld x 10 4) (fld x 7 3) (fld x 0 7)) else if fld x 21 3 = 2#3 then .row [] (.amax mods (fld x 24 1) (fld x 14 7) (fld x 10 4) (fld x 7 3) (fld x 0 7)) else if fld x 21 3 = 3#3 then .row [] (.aand mods (fld x 24 1) (fld x 14 7) (fld x 10 4) (fld x 7 3) (fld x 0 7)) else if fld x 21 3 = 4#3 then .row [] (.aor mods (fld x 24 1) (fld x 14 7) (fld x 10 4) (fld x 7 3) (fld x 0 7)) else if fld x 21 3 = 5#3 then .row [] (.axor mods (fld x 24 1) (fld x 14 7) (fld x 10 4) (fld x 7 3) (fld x 0 7)) else if fld x 21 3 = 6#3 then .row [] (.axchg mods (fld x 24 1) (fld x 14 7) (fld x 10 4) (fld x 7 3) (fld x 0 7)) else if fld x 21 3 = 7#3 then .row [] (.acas mods (fld x 24 1) (fld x 14 7) (fld x 10 4) (fld x 7 3) (fld x 0 7)) else .bad .fn 10) = Raw.row _ _
    simp only [x, fld_7_1_3_7_4_3_7_at_0_7, fld_7_1_3_7_4_3_7_at_7_3, fld_7_1_3_7_4_3_7_at_10_4, fld_7_1_3_7_4_3_7_at_14_7, fld_7_1_3_7_4_3_7_at_21_3, fld_7_1_3_7_4_3_7_at_24_1]
    rfl
theorem Encoding.amin (mods : Mods) (w : BitVec 1) (d : BitVec 7) (k : BitVec 4) (s : BitVec 3) (b : BitVec 7) : Encoding.Statement (.amin mods w d k s b) := fun _ => by
  refine ⟨[], ?_, rfl⟩
  have h : w = 0#1 ∨ w = 1#1 := (by decide : ∀ x : BitVec 1, x = 0#1 ∨ x = 1#1) w
  let x : W32 := 0x5C#7 ++ w ++ 1#3 ++ d ++ k ++ s ++ b
  refine (congrArg (decodeOpcode mods x) (congrArg BitVec.toNat (show fld x 24 8 = _ from fld_7_1_3_7_4_3_7_at_24_8 ..))).trans ?_
  rcases h with h | h <;> subst h
  · show (if fld x 21 3 = 0#3 then .row [] (.aadd mods (fld x 24 1) (fld x 14 7) (fld x 10 4) (fld x 7 3) (fld x 0 7)) else if fld x 21 3 = 1#3 then .row [] (.amin mods (fld x 24 1) (fld x 14 7) (fld x 10 4) (fld x 7 3) (fld x 0 7)) else if fld x 21 3 = 2#3 then .row [] (.amax mods (fld x 24 1) (fld x 14 7) (fld x 10 4) (fld x 7 3) (fld x 0 7)) else if fld x 21 3 = 3#3 then .row [] (.aand mods (fld x 24 1) (fld x 14 7) (fld x 10 4) (fld x 7 3) (fld x 0 7)) else if fld x 21 3 = 4#3 then .row [] (.aor mods (fld x 24 1) (fld x 14 7) (fld x 10 4) (fld x 7 3) (fld x 0 7)) else if fld x 21 3 = 5#3 then .row [] (.axor mods (fld x 24 1) (fld x 14 7) (fld x 10 4) (fld x 7 3) (fld x 0 7)) else if fld x 21 3 = 6#3 then .row [] (.axchg mods (fld x 24 1) (fld x 14 7) (fld x 10 4) (fld x 7 3) (fld x 0 7)) else if fld x 21 3 = 7#3 then .row [] (.acas mods (fld x 24 1) (fld x 14 7) (fld x 10 4) (fld x 7 3) (fld x 0 7)) else .bad .fn 10) = Raw.row _ _
    simp only [x, fld_7_1_3_7_4_3_7_at_0_7, fld_7_1_3_7_4_3_7_at_7_3, fld_7_1_3_7_4_3_7_at_10_4, fld_7_1_3_7_4_3_7_at_14_7, fld_7_1_3_7_4_3_7_at_21_3, fld_7_1_3_7_4_3_7_at_24_1]
    rfl
  · show (if fld x 21 3 = 0#3 then .row [] (.aadd mods (fld x 24 1) (fld x 14 7) (fld x 10 4) (fld x 7 3) (fld x 0 7)) else if fld x 21 3 = 1#3 then .row [] (.amin mods (fld x 24 1) (fld x 14 7) (fld x 10 4) (fld x 7 3) (fld x 0 7)) else if fld x 21 3 = 2#3 then .row [] (.amax mods (fld x 24 1) (fld x 14 7) (fld x 10 4) (fld x 7 3) (fld x 0 7)) else if fld x 21 3 = 3#3 then .row [] (.aand mods (fld x 24 1) (fld x 14 7) (fld x 10 4) (fld x 7 3) (fld x 0 7)) else if fld x 21 3 = 4#3 then .row [] (.aor mods (fld x 24 1) (fld x 14 7) (fld x 10 4) (fld x 7 3) (fld x 0 7)) else if fld x 21 3 = 5#3 then .row [] (.axor mods (fld x 24 1) (fld x 14 7) (fld x 10 4) (fld x 7 3) (fld x 0 7)) else if fld x 21 3 = 6#3 then .row [] (.axchg mods (fld x 24 1) (fld x 14 7) (fld x 10 4) (fld x 7 3) (fld x 0 7)) else if fld x 21 3 = 7#3 then .row [] (.acas mods (fld x 24 1) (fld x 14 7) (fld x 10 4) (fld x 7 3) (fld x 0 7)) else .bad .fn 10) = Raw.row _ _
    simp only [x, fld_7_1_3_7_4_3_7_at_0_7, fld_7_1_3_7_4_3_7_at_7_3, fld_7_1_3_7_4_3_7_at_10_4, fld_7_1_3_7_4_3_7_at_14_7, fld_7_1_3_7_4_3_7_at_21_3, fld_7_1_3_7_4_3_7_at_24_1]
    rfl
theorem Encoding.amax (mods : Mods) (w : BitVec 1) (d : BitVec 7) (k : BitVec 4) (s : BitVec 3) (b : BitVec 7) : Encoding.Statement (.amax mods w d k s b) := fun _ => by
  refine ⟨[], ?_, rfl⟩
  have h : w = 0#1 ∨ w = 1#1 := (by decide : ∀ x : BitVec 1, x = 0#1 ∨ x = 1#1) w
  let x : W32 := 0x5C#7 ++ w ++ 2#3 ++ d ++ k ++ s ++ b
  refine (congrArg (decodeOpcode mods x) (congrArg BitVec.toNat (show fld x 24 8 = _ from fld_7_1_3_7_4_3_7_at_24_8 ..))).trans ?_
  rcases h with h | h <;> subst h
  · show (if fld x 21 3 = 0#3 then .row [] (.aadd mods (fld x 24 1) (fld x 14 7) (fld x 10 4) (fld x 7 3) (fld x 0 7)) else if fld x 21 3 = 1#3 then .row [] (.amin mods (fld x 24 1) (fld x 14 7) (fld x 10 4) (fld x 7 3) (fld x 0 7)) else if fld x 21 3 = 2#3 then .row [] (.amax mods (fld x 24 1) (fld x 14 7) (fld x 10 4) (fld x 7 3) (fld x 0 7)) else if fld x 21 3 = 3#3 then .row [] (.aand mods (fld x 24 1) (fld x 14 7) (fld x 10 4) (fld x 7 3) (fld x 0 7)) else if fld x 21 3 = 4#3 then .row [] (.aor mods (fld x 24 1) (fld x 14 7) (fld x 10 4) (fld x 7 3) (fld x 0 7)) else if fld x 21 3 = 5#3 then .row [] (.axor mods (fld x 24 1) (fld x 14 7) (fld x 10 4) (fld x 7 3) (fld x 0 7)) else if fld x 21 3 = 6#3 then .row [] (.axchg mods (fld x 24 1) (fld x 14 7) (fld x 10 4) (fld x 7 3) (fld x 0 7)) else if fld x 21 3 = 7#3 then .row [] (.acas mods (fld x 24 1) (fld x 14 7) (fld x 10 4) (fld x 7 3) (fld x 0 7)) else .bad .fn 10) = Raw.row _ _
    simp only [x, fld_7_1_3_7_4_3_7_at_0_7, fld_7_1_3_7_4_3_7_at_7_3, fld_7_1_3_7_4_3_7_at_10_4, fld_7_1_3_7_4_3_7_at_14_7, fld_7_1_3_7_4_3_7_at_21_3, fld_7_1_3_7_4_3_7_at_24_1]
    rfl
  · show (if fld x 21 3 = 0#3 then .row [] (.aadd mods (fld x 24 1) (fld x 14 7) (fld x 10 4) (fld x 7 3) (fld x 0 7)) else if fld x 21 3 = 1#3 then .row [] (.amin mods (fld x 24 1) (fld x 14 7) (fld x 10 4) (fld x 7 3) (fld x 0 7)) else if fld x 21 3 = 2#3 then .row [] (.amax mods (fld x 24 1) (fld x 14 7) (fld x 10 4) (fld x 7 3) (fld x 0 7)) else if fld x 21 3 = 3#3 then .row [] (.aand mods (fld x 24 1) (fld x 14 7) (fld x 10 4) (fld x 7 3) (fld x 0 7)) else if fld x 21 3 = 4#3 then .row [] (.aor mods (fld x 24 1) (fld x 14 7) (fld x 10 4) (fld x 7 3) (fld x 0 7)) else if fld x 21 3 = 5#3 then .row [] (.axor mods (fld x 24 1) (fld x 14 7) (fld x 10 4) (fld x 7 3) (fld x 0 7)) else if fld x 21 3 = 6#3 then .row [] (.axchg mods (fld x 24 1) (fld x 14 7) (fld x 10 4) (fld x 7 3) (fld x 0 7)) else if fld x 21 3 = 7#3 then .row [] (.acas mods (fld x 24 1) (fld x 14 7) (fld x 10 4) (fld x 7 3) (fld x 0 7)) else .bad .fn 10) = Raw.row _ _
    simp only [x, fld_7_1_3_7_4_3_7_at_0_7, fld_7_1_3_7_4_3_7_at_7_3, fld_7_1_3_7_4_3_7_at_10_4, fld_7_1_3_7_4_3_7_at_14_7, fld_7_1_3_7_4_3_7_at_21_3, fld_7_1_3_7_4_3_7_at_24_1]
    rfl
theorem Encoding.aand (mods : Mods) (w : BitVec 1) (d : BitVec 7) (k : BitVec 4) (s : BitVec 3) (b : BitVec 7) : Encoding.Statement (.aand mods w d k s b) := fun _ => by
  refine ⟨[], ?_, rfl⟩
  have h : w = 0#1 ∨ w = 1#1 := (by decide : ∀ x : BitVec 1, x = 0#1 ∨ x = 1#1) w
  let x : W32 := 0x5C#7 ++ w ++ 3#3 ++ d ++ k ++ s ++ b
  refine (congrArg (decodeOpcode mods x) (congrArg BitVec.toNat (show fld x 24 8 = _ from fld_7_1_3_7_4_3_7_at_24_8 ..))).trans ?_
  rcases h with h | h <;> subst h
  · show (if fld x 21 3 = 0#3 then .row [] (.aadd mods (fld x 24 1) (fld x 14 7) (fld x 10 4) (fld x 7 3) (fld x 0 7)) else if fld x 21 3 = 1#3 then .row [] (.amin mods (fld x 24 1) (fld x 14 7) (fld x 10 4) (fld x 7 3) (fld x 0 7)) else if fld x 21 3 = 2#3 then .row [] (.amax mods (fld x 24 1) (fld x 14 7) (fld x 10 4) (fld x 7 3) (fld x 0 7)) else if fld x 21 3 = 3#3 then .row [] (.aand mods (fld x 24 1) (fld x 14 7) (fld x 10 4) (fld x 7 3) (fld x 0 7)) else if fld x 21 3 = 4#3 then .row [] (.aor mods (fld x 24 1) (fld x 14 7) (fld x 10 4) (fld x 7 3) (fld x 0 7)) else if fld x 21 3 = 5#3 then .row [] (.axor mods (fld x 24 1) (fld x 14 7) (fld x 10 4) (fld x 7 3) (fld x 0 7)) else if fld x 21 3 = 6#3 then .row [] (.axchg mods (fld x 24 1) (fld x 14 7) (fld x 10 4) (fld x 7 3) (fld x 0 7)) else if fld x 21 3 = 7#3 then .row [] (.acas mods (fld x 24 1) (fld x 14 7) (fld x 10 4) (fld x 7 3) (fld x 0 7)) else .bad .fn 10) = Raw.row _ _
    simp only [x, fld_7_1_3_7_4_3_7_at_0_7, fld_7_1_3_7_4_3_7_at_7_3, fld_7_1_3_7_4_3_7_at_10_4, fld_7_1_3_7_4_3_7_at_14_7, fld_7_1_3_7_4_3_7_at_21_3, fld_7_1_3_7_4_3_7_at_24_1]
    rfl
  · show (if fld x 21 3 = 0#3 then .row [] (.aadd mods (fld x 24 1) (fld x 14 7) (fld x 10 4) (fld x 7 3) (fld x 0 7)) else if fld x 21 3 = 1#3 then .row [] (.amin mods (fld x 24 1) (fld x 14 7) (fld x 10 4) (fld x 7 3) (fld x 0 7)) else if fld x 21 3 = 2#3 then .row [] (.amax mods (fld x 24 1) (fld x 14 7) (fld x 10 4) (fld x 7 3) (fld x 0 7)) else if fld x 21 3 = 3#3 then .row [] (.aand mods (fld x 24 1) (fld x 14 7) (fld x 10 4) (fld x 7 3) (fld x 0 7)) else if fld x 21 3 = 4#3 then .row [] (.aor mods (fld x 24 1) (fld x 14 7) (fld x 10 4) (fld x 7 3) (fld x 0 7)) else if fld x 21 3 = 5#3 then .row [] (.axor mods (fld x 24 1) (fld x 14 7) (fld x 10 4) (fld x 7 3) (fld x 0 7)) else if fld x 21 3 = 6#3 then .row [] (.axchg mods (fld x 24 1) (fld x 14 7) (fld x 10 4) (fld x 7 3) (fld x 0 7)) else if fld x 21 3 = 7#3 then .row [] (.acas mods (fld x 24 1) (fld x 14 7) (fld x 10 4) (fld x 7 3) (fld x 0 7)) else .bad .fn 10) = Raw.row _ _
    simp only [x, fld_7_1_3_7_4_3_7_at_0_7, fld_7_1_3_7_4_3_7_at_7_3, fld_7_1_3_7_4_3_7_at_10_4, fld_7_1_3_7_4_3_7_at_14_7, fld_7_1_3_7_4_3_7_at_21_3, fld_7_1_3_7_4_3_7_at_24_1]
    rfl
theorem Encoding.aor (mods : Mods) (w : BitVec 1) (d : BitVec 7) (k : BitVec 4) (s : BitVec 3) (b : BitVec 7) : Encoding.Statement (.aor mods w d k s b) := fun _ => by
  refine ⟨[], ?_, rfl⟩
  have h : w = 0#1 ∨ w = 1#1 := (by decide : ∀ x : BitVec 1, x = 0#1 ∨ x = 1#1) w
  let x : W32 := 0x5C#7 ++ w ++ 4#3 ++ d ++ k ++ s ++ b
  refine (congrArg (decodeOpcode mods x) (congrArg BitVec.toNat (show fld x 24 8 = _ from fld_7_1_3_7_4_3_7_at_24_8 ..))).trans ?_
  rcases h with h | h <;> subst h
  · show (if fld x 21 3 = 0#3 then .row [] (.aadd mods (fld x 24 1) (fld x 14 7) (fld x 10 4) (fld x 7 3) (fld x 0 7)) else if fld x 21 3 = 1#3 then .row [] (.amin mods (fld x 24 1) (fld x 14 7) (fld x 10 4) (fld x 7 3) (fld x 0 7)) else if fld x 21 3 = 2#3 then .row [] (.amax mods (fld x 24 1) (fld x 14 7) (fld x 10 4) (fld x 7 3) (fld x 0 7)) else if fld x 21 3 = 3#3 then .row [] (.aand mods (fld x 24 1) (fld x 14 7) (fld x 10 4) (fld x 7 3) (fld x 0 7)) else if fld x 21 3 = 4#3 then .row [] (.aor mods (fld x 24 1) (fld x 14 7) (fld x 10 4) (fld x 7 3) (fld x 0 7)) else if fld x 21 3 = 5#3 then .row [] (.axor mods (fld x 24 1) (fld x 14 7) (fld x 10 4) (fld x 7 3) (fld x 0 7)) else if fld x 21 3 = 6#3 then .row [] (.axchg mods (fld x 24 1) (fld x 14 7) (fld x 10 4) (fld x 7 3) (fld x 0 7)) else if fld x 21 3 = 7#3 then .row [] (.acas mods (fld x 24 1) (fld x 14 7) (fld x 10 4) (fld x 7 3) (fld x 0 7)) else .bad .fn 10) = Raw.row _ _
    simp only [x, fld_7_1_3_7_4_3_7_at_0_7, fld_7_1_3_7_4_3_7_at_7_3, fld_7_1_3_7_4_3_7_at_10_4, fld_7_1_3_7_4_3_7_at_14_7, fld_7_1_3_7_4_3_7_at_21_3, fld_7_1_3_7_4_3_7_at_24_1]
    rfl
  · show (if fld x 21 3 = 0#3 then .row [] (.aadd mods (fld x 24 1) (fld x 14 7) (fld x 10 4) (fld x 7 3) (fld x 0 7)) else if fld x 21 3 = 1#3 then .row [] (.amin mods (fld x 24 1) (fld x 14 7) (fld x 10 4) (fld x 7 3) (fld x 0 7)) else if fld x 21 3 = 2#3 then .row [] (.amax mods (fld x 24 1) (fld x 14 7) (fld x 10 4) (fld x 7 3) (fld x 0 7)) else if fld x 21 3 = 3#3 then .row [] (.aand mods (fld x 24 1) (fld x 14 7) (fld x 10 4) (fld x 7 3) (fld x 0 7)) else if fld x 21 3 = 4#3 then .row [] (.aor mods (fld x 24 1) (fld x 14 7) (fld x 10 4) (fld x 7 3) (fld x 0 7)) else if fld x 21 3 = 5#3 then .row [] (.axor mods (fld x 24 1) (fld x 14 7) (fld x 10 4) (fld x 7 3) (fld x 0 7)) else if fld x 21 3 = 6#3 then .row [] (.axchg mods (fld x 24 1) (fld x 14 7) (fld x 10 4) (fld x 7 3) (fld x 0 7)) else if fld x 21 3 = 7#3 then .row [] (.acas mods (fld x 24 1) (fld x 14 7) (fld x 10 4) (fld x 7 3) (fld x 0 7)) else .bad .fn 10) = Raw.row _ _
    simp only [x, fld_7_1_3_7_4_3_7_at_0_7, fld_7_1_3_7_4_3_7_at_7_3, fld_7_1_3_7_4_3_7_at_10_4, fld_7_1_3_7_4_3_7_at_14_7, fld_7_1_3_7_4_3_7_at_21_3, fld_7_1_3_7_4_3_7_at_24_1]
    rfl
theorem Encoding.axor (mods : Mods) (w : BitVec 1) (d : BitVec 7) (k : BitVec 4) (s : BitVec 3) (b : BitVec 7) : Encoding.Statement (.axor mods w d k s b) := fun _ => by
  refine ⟨[], ?_, rfl⟩
  have h : w = 0#1 ∨ w = 1#1 := (by decide : ∀ x : BitVec 1, x = 0#1 ∨ x = 1#1) w
  let x : W32 := 0x5C#7 ++ w ++ 5#3 ++ d ++ k ++ s ++ b
  refine (congrArg (decodeOpcode mods x) (congrArg BitVec.toNat (show fld x 24 8 = _ from fld_7_1_3_7_4_3_7_at_24_8 ..))).trans ?_
  rcases h with h | h <;> subst h
  · show (if fld x 21 3 = 0#3 then .row [] (.aadd mods (fld x 24 1) (fld x 14 7) (fld x 10 4) (fld x 7 3) (fld x 0 7)) else if fld x 21 3 = 1#3 then .row [] (.amin mods (fld x 24 1) (fld x 14 7) (fld x 10 4) (fld x 7 3) (fld x 0 7)) else if fld x 21 3 = 2#3 then .row [] (.amax mods (fld x 24 1) (fld x 14 7) (fld x 10 4) (fld x 7 3) (fld x 0 7)) else if fld x 21 3 = 3#3 then .row [] (.aand mods (fld x 24 1) (fld x 14 7) (fld x 10 4) (fld x 7 3) (fld x 0 7)) else if fld x 21 3 = 4#3 then .row [] (.aor mods (fld x 24 1) (fld x 14 7) (fld x 10 4) (fld x 7 3) (fld x 0 7)) else if fld x 21 3 = 5#3 then .row [] (.axor mods (fld x 24 1) (fld x 14 7) (fld x 10 4) (fld x 7 3) (fld x 0 7)) else if fld x 21 3 = 6#3 then .row [] (.axchg mods (fld x 24 1) (fld x 14 7) (fld x 10 4) (fld x 7 3) (fld x 0 7)) else if fld x 21 3 = 7#3 then .row [] (.acas mods (fld x 24 1) (fld x 14 7) (fld x 10 4) (fld x 7 3) (fld x 0 7)) else .bad .fn 10) = Raw.row _ _
    simp only [x, fld_7_1_3_7_4_3_7_at_0_7, fld_7_1_3_7_4_3_7_at_7_3, fld_7_1_3_7_4_3_7_at_10_4, fld_7_1_3_7_4_3_7_at_14_7, fld_7_1_3_7_4_3_7_at_21_3, fld_7_1_3_7_4_3_7_at_24_1]
    rfl
  · show (if fld x 21 3 = 0#3 then .row [] (.aadd mods (fld x 24 1) (fld x 14 7) (fld x 10 4) (fld x 7 3) (fld x 0 7)) else if fld x 21 3 = 1#3 then .row [] (.amin mods (fld x 24 1) (fld x 14 7) (fld x 10 4) (fld x 7 3) (fld x 0 7)) else if fld x 21 3 = 2#3 then .row [] (.amax mods (fld x 24 1) (fld x 14 7) (fld x 10 4) (fld x 7 3) (fld x 0 7)) else if fld x 21 3 = 3#3 then .row [] (.aand mods (fld x 24 1) (fld x 14 7) (fld x 10 4) (fld x 7 3) (fld x 0 7)) else if fld x 21 3 = 4#3 then .row [] (.aor mods (fld x 24 1) (fld x 14 7) (fld x 10 4) (fld x 7 3) (fld x 0 7)) else if fld x 21 3 = 5#3 then .row [] (.axor mods (fld x 24 1) (fld x 14 7) (fld x 10 4) (fld x 7 3) (fld x 0 7)) else if fld x 21 3 = 6#3 then .row [] (.axchg mods (fld x 24 1) (fld x 14 7) (fld x 10 4) (fld x 7 3) (fld x 0 7)) else if fld x 21 3 = 7#3 then .row [] (.acas mods (fld x 24 1) (fld x 14 7) (fld x 10 4) (fld x 7 3) (fld x 0 7)) else .bad .fn 10) = Raw.row _ _
    simp only [x, fld_7_1_3_7_4_3_7_at_0_7, fld_7_1_3_7_4_3_7_at_7_3, fld_7_1_3_7_4_3_7_at_10_4, fld_7_1_3_7_4_3_7_at_14_7, fld_7_1_3_7_4_3_7_at_21_3, fld_7_1_3_7_4_3_7_at_24_1]
    rfl
theorem Encoding.axchg (mods : Mods) (w : BitVec 1) (d : BitVec 7) (k : BitVec 4) (s : BitVec 3) (b : BitVec 7) : Encoding.Statement (.axchg mods w d k s b) := fun _ => by
  refine ⟨[], ?_, rfl⟩
  have h : w = 0#1 ∨ w = 1#1 := (by decide : ∀ x : BitVec 1, x = 0#1 ∨ x = 1#1) w
  let x : W32 := 0x5C#7 ++ w ++ 6#3 ++ d ++ k ++ s ++ b
  refine (congrArg (decodeOpcode mods x) (congrArg BitVec.toNat (show fld x 24 8 = _ from fld_7_1_3_7_4_3_7_at_24_8 ..))).trans ?_
  rcases h with h | h <;> subst h
  · show (if fld x 21 3 = 0#3 then .row [] (.aadd mods (fld x 24 1) (fld x 14 7) (fld x 10 4) (fld x 7 3) (fld x 0 7)) else if fld x 21 3 = 1#3 then .row [] (.amin mods (fld x 24 1) (fld x 14 7) (fld x 10 4) (fld x 7 3) (fld x 0 7)) else if fld x 21 3 = 2#3 then .row [] (.amax mods (fld x 24 1) (fld x 14 7) (fld x 10 4) (fld x 7 3) (fld x 0 7)) else if fld x 21 3 = 3#3 then .row [] (.aand mods (fld x 24 1) (fld x 14 7) (fld x 10 4) (fld x 7 3) (fld x 0 7)) else if fld x 21 3 = 4#3 then .row [] (.aor mods (fld x 24 1) (fld x 14 7) (fld x 10 4) (fld x 7 3) (fld x 0 7)) else if fld x 21 3 = 5#3 then .row [] (.axor mods (fld x 24 1) (fld x 14 7) (fld x 10 4) (fld x 7 3) (fld x 0 7)) else if fld x 21 3 = 6#3 then .row [] (.axchg mods (fld x 24 1) (fld x 14 7) (fld x 10 4) (fld x 7 3) (fld x 0 7)) else if fld x 21 3 = 7#3 then .row [] (.acas mods (fld x 24 1) (fld x 14 7) (fld x 10 4) (fld x 7 3) (fld x 0 7)) else .bad .fn 10) = Raw.row _ _
    simp only [x, fld_7_1_3_7_4_3_7_at_0_7, fld_7_1_3_7_4_3_7_at_7_3, fld_7_1_3_7_4_3_7_at_10_4, fld_7_1_3_7_4_3_7_at_14_7, fld_7_1_3_7_4_3_7_at_21_3, fld_7_1_3_7_4_3_7_at_24_1]
    rfl
  · show (if fld x 21 3 = 0#3 then .row [] (.aadd mods (fld x 24 1) (fld x 14 7) (fld x 10 4) (fld x 7 3) (fld x 0 7)) else if fld x 21 3 = 1#3 then .row [] (.amin mods (fld x 24 1) (fld x 14 7) (fld x 10 4) (fld x 7 3) (fld x 0 7)) else if fld x 21 3 = 2#3 then .row [] (.amax mods (fld x 24 1) (fld x 14 7) (fld x 10 4) (fld x 7 3) (fld x 0 7)) else if fld x 21 3 = 3#3 then .row [] (.aand mods (fld x 24 1) (fld x 14 7) (fld x 10 4) (fld x 7 3) (fld x 0 7)) else if fld x 21 3 = 4#3 then .row [] (.aor mods (fld x 24 1) (fld x 14 7) (fld x 10 4) (fld x 7 3) (fld x 0 7)) else if fld x 21 3 = 5#3 then .row [] (.axor mods (fld x 24 1) (fld x 14 7) (fld x 10 4) (fld x 7 3) (fld x 0 7)) else if fld x 21 3 = 6#3 then .row [] (.axchg mods (fld x 24 1) (fld x 14 7) (fld x 10 4) (fld x 7 3) (fld x 0 7)) else if fld x 21 3 = 7#3 then .row [] (.acas mods (fld x 24 1) (fld x 14 7) (fld x 10 4) (fld x 7 3) (fld x 0 7)) else .bad .fn 10) = Raw.row _ _
    simp only [x, fld_7_1_3_7_4_3_7_at_0_7, fld_7_1_3_7_4_3_7_at_7_3, fld_7_1_3_7_4_3_7_at_10_4, fld_7_1_3_7_4_3_7_at_14_7, fld_7_1_3_7_4_3_7_at_21_3, fld_7_1_3_7_4_3_7_at_24_1]
    rfl
theorem Encoding.acas (mods : Mods) (w : BitVec 1) (d : BitVec 7) (k : BitVec 4) (s : BitVec 3) (b : BitVec 7) : Encoding.Statement (.acas mods w d k s b) := fun _ => by
  refine ⟨[], ?_, rfl⟩
  have h : w = 0#1 ∨ w = 1#1 := (by decide : ∀ x : BitVec 1, x = 0#1 ∨ x = 1#1) w
  let x : W32 := 0x5C#7 ++ w ++ 7#3 ++ d ++ k ++ s ++ b
  refine (congrArg (decodeOpcode mods x) (congrArg BitVec.toNat (show fld x 24 8 = _ from fld_7_1_3_7_4_3_7_at_24_8 ..))).trans ?_
  rcases h with h | h <;> subst h
  · show (if fld x 21 3 = 0#3 then .row [] (.aadd mods (fld x 24 1) (fld x 14 7) (fld x 10 4) (fld x 7 3) (fld x 0 7)) else if fld x 21 3 = 1#3 then .row [] (.amin mods (fld x 24 1) (fld x 14 7) (fld x 10 4) (fld x 7 3) (fld x 0 7)) else if fld x 21 3 = 2#3 then .row [] (.amax mods (fld x 24 1) (fld x 14 7) (fld x 10 4) (fld x 7 3) (fld x 0 7)) else if fld x 21 3 = 3#3 then .row [] (.aand mods (fld x 24 1) (fld x 14 7) (fld x 10 4) (fld x 7 3) (fld x 0 7)) else if fld x 21 3 = 4#3 then .row [] (.aor mods (fld x 24 1) (fld x 14 7) (fld x 10 4) (fld x 7 3) (fld x 0 7)) else if fld x 21 3 = 5#3 then .row [] (.axor mods (fld x 24 1) (fld x 14 7) (fld x 10 4) (fld x 7 3) (fld x 0 7)) else if fld x 21 3 = 6#3 then .row [] (.axchg mods (fld x 24 1) (fld x 14 7) (fld x 10 4) (fld x 7 3) (fld x 0 7)) else if fld x 21 3 = 7#3 then .row [] (.acas mods (fld x 24 1) (fld x 14 7) (fld x 10 4) (fld x 7 3) (fld x 0 7)) else .bad .fn 10) = Raw.row _ _
    simp only [x, fld_7_1_3_7_4_3_7_at_0_7, fld_7_1_3_7_4_3_7_at_7_3, fld_7_1_3_7_4_3_7_at_10_4, fld_7_1_3_7_4_3_7_at_14_7, fld_7_1_3_7_4_3_7_at_21_3, fld_7_1_3_7_4_3_7_at_24_1]
    rfl
  · show (if fld x 21 3 = 0#3 then .row [] (.aadd mods (fld x 24 1) (fld x 14 7) (fld x 10 4) (fld x 7 3) (fld x 0 7)) else if fld x 21 3 = 1#3 then .row [] (.amin mods (fld x 24 1) (fld x 14 7) (fld x 10 4) (fld x 7 3) (fld x 0 7)) else if fld x 21 3 = 2#3 then .row [] (.amax mods (fld x 24 1) (fld x 14 7) (fld x 10 4) (fld x 7 3) (fld x 0 7)) else if fld x 21 3 = 3#3 then .row [] (.aand mods (fld x 24 1) (fld x 14 7) (fld x 10 4) (fld x 7 3) (fld x 0 7)) else if fld x 21 3 = 4#3 then .row [] (.aor mods (fld x 24 1) (fld x 14 7) (fld x 10 4) (fld x 7 3) (fld x 0 7)) else if fld x 21 3 = 5#3 then .row [] (.axor mods (fld x 24 1) (fld x 14 7) (fld x 10 4) (fld x 7 3) (fld x 0 7)) else if fld x 21 3 = 6#3 then .row [] (.axchg mods (fld x 24 1) (fld x 14 7) (fld x 10 4) (fld x 7 3) (fld x 0 7)) else if fld x 21 3 = 7#3 then .row [] (.acas mods (fld x 24 1) (fld x 14 7) (fld x 10 4) (fld x 7 3) (fld x 0 7)) else .bad .fn 10) = Raw.row _ _
    simp only [x, fld_7_1_3_7_4_3_7_at_0_7, fld_7_1_3_7_4_3_7_at_7_3, fld_7_1_3_7_4_3_7_at_10_4, fld_7_1_3_7_4_3_7_at_14_7, fld_7_1_3_7_4_3_7_at_21_3, fld_7_1_3_7_4_3_7_at_24_1]
    rfl
theorem Encoding.aminN (mods : Mods) (w : BitVec 1) (d : BitVec 7) (k : BitVec 4) (s : BitVec 3) (b : BitVec 7) : Encoding.Statement (.aminN mods w d k s b) := fun _ => by
  let wd : W32 := 0xBA#8 ++ 0#1 ++ w ++ 0#1 ++ d ++ k ++ s ++ b
  refine ⟨[], ?_, ?_⟩
  · refine (congrArg (decodeOpcode mods wd) (congrArg BitVec.toNat (show fld wd 24 8 = _ from fld_8_1_1_1_7_4_3_7_at_24_8 ..))).trans ?_
    show (if fld wd 23 1 = 0#1 ∧ fld wd 21 1 = 0#1 then .row [] (.aminN mods (fld wd 22 1) (fld wd 14 7) (fld wd 10 4) (fld wd 7 3) (fld wd 0 7)) else if fld wd 23 1 = 0#1 ∧ fld wd 21 1 = 1#1 then .row [] (.amaxN mods (fld wd 22 1) (fld wd 14 7) (fld wd 10 4) (fld wd 7 3) (fld wd 0 7)) else if fld wd 22 2 = 2#2 then .row [] (.afadd mods (fld wd 21 1) (fld wd 14 7) (fld wd 10 4) (fld wd 7 3) (fld wd 0 7)) else if fld wd 22 2 = 3#2 then .row [] (.afaddPair mods (fld wd 21 1) (fld wd 14 7) (fld wd 10 4) (fld wd 7 3) (fld wd 0 7)) else .bad .fn 10) = Raw.row _ _
    simp only [wd, fld_8_1_1_1_7_4_3_7_at_0_7, fld_8_1_1_1_7_4_3_7_at_7_3, fld_8_1_1_1_7_4_3_7_at_10_4, fld_8_1_1_1_7_4_3_7_at_14_7, fld_8_1_1_1_7_4_3_7_at_21_1, fld_8_1_1_1_7_4_3_7_at_22_1, fld_8_1_1_1_7_4_3_7_at_23_1]
    rfl
  · rfl
theorem Encoding.amaxN (mods : Mods) (w : BitVec 1) (d : BitVec 7) (k : BitVec 4) (s : BitVec 3) (b : BitVec 7) : Encoding.Statement (.amaxN mods w d k s b) := fun _ => by
  let wd : W32 := 0xBA#8 ++ 0#1 ++ w ++ 1#1 ++ d ++ k ++ s ++ b
  refine ⟨[], ?_, ?_⟩
  · refine (congrArg (decodeOpcode mods wd) (congrArg BitVec.toNat (show fld wd 24 8 = _ from fld_8_1_1_1_7_4_3_7_at_24_8 ..))).trans ?_
    show (if fld wd 23 1 = 0#1 ∧ fld wd 21 1 = 0#1 then .row [] (.aminN mods (fld wd 22 1) (fld wd 14 7) (fld wd 10 4) (fld wd 7 3) (fld wd 0 7)) else if fld wd 23 1 = 0#1 ∧ fld wd 21 1 = 1#1 then .row [] (.amaxN mods (fld wd 22 1) (fld wd 14 7) (fld wd 10 4) (fld wd 7 3) (fld wd 0 7)) else if fld wd 22 2 = 2#2 then .row [] (.afadd mods (fld wd 21 1) (fld wd 14 7) (fld wd 10 4) (fld wd 7 3) (fld wd 0 7)) else if fld wd 22 2 = 3#2 then .row [] (.afaddPair mods (fld wd 21 1) (fld wd 14 7) (fld wd 10 4) (fld wd 7 3) (fld wd 0 7)) else .bad .fn 10) = Raw.row _ _
    simp only [wd, fld_8_1_1_1_7_4_3_7_at_0_7, fld_8_1_1_1_7_4_3_7_at_7_3, fld_8_1_1_1_7_4_3_7_at_10_4, fld_8_1_1_1_7_4_3_7_at_14_7, fld_8_1_1_1_7_4_3_7_at_21_1, fld_8_1_1_1_7_4_3_7_at_22_1, fld_8_1_1_1_7_4_3_7_at_23_1]
    rfl
  · rfl
theorem Encoding.afadd (mods : Mods) (w : BitVec 1) (d : BitVec 7) (k : BitVec 4) (s : BitVec 3) (b : BitVec 7) : Encoding.Statement (.afadd mods w d k s b) := fun _ => by
  let wd : W32 := 0xBA#8 ++ 2#2 ++ w ++ d ++ k ++ s ++ b
  refine ⟨[], ?_, ?_⟩
  · refine (congrArg (decodeOpcode mods wd) (congrArg BitVec.toNat (show fld wd 24 8 = _ from fld_8_2_1_7_4_3_7_at_24_8 ..))).trans ?_
    show (if fld wd 23 1 = 0#1 ∧ fld wd 21 1 = 0#1 then .row [] (.aminN mods (fld wd 22 1) (fld wd 14 7) (fld wd 10 4) (fld wd 7 3) (fld wd 0 7)) else if fld wd 23 1 = 0#1 ∧ fld wd 21 1 = 1#1 then .row [] (.amaxN mods (fld wd 22 1) (fld wd 14 7) (fld wd 10 4) (fld wd 7 3) (fld wd 0 7)) else if fld wd 22 2 = 2#2 then .row [] (.afadd mods (fld wd 21 1) (fld wd 14 7) (fld wd 10 4) (fld wd 7 3) (fld wd 0 7)) else if fld wd 22 2 = 3#2 then .row [] (.afaddPair mods (fld wd 21 1) (fld wd 14 7) (fld wd 10 4) (fld wd 7 3) (fld wd 0 7)) else .bad .fn 10) = Raw.row _ _
    simp only [wd, fld_8_2_1_7_4_3_7_at_0_7, fld_8_2_1_7_4_3_7_at_7_3, fld_8_2_1_7_4_3_7_at_10_4, fld_8_2_1_7_4_3_7_at_14_7, fld_8_2_1_7_4_3_7_at_21_1, fld_8_2_1_7_4_3_7_at_22_2, fld_8_2_1_7_4_3_7_high]
    rfl
  · rfl
theorem Encoding.afaddPair (mods : Mods) (t : BitVec 1) (d : BitVec 7) (k : BitVec 4) (s : BitVec 3) (b : BitVec 7) : Encoding.Statement (.afaddPair mods t d k s b) := fun _ => by
  let wd : W32 := 0xBA#8 ++ 3#2 ++ t ++ d ++ k ++ s ++ b
  refine ⟨[], ?_, ?_⟩
  · refine (congrArg (decodeOpcode mods wd) (congrArg BitVec.toNat (show fld wd 24 8 = _ from fld_8_2_1_7_4_3_7_at_24_8 ..))).trans ?_
    show (if fld wd 23 1 = 0#1 ∧ fld wd 21 1 = 0#1 then .row [] (.aminN mods (fld wd 22 1) (fld wd 14 7) (fld wd 10 4) (fld wd 7 3) (fld wd 0 7)) else if fld wd 23 1 = 0#1 ∧ fld wd 21 1 = 1#1 then .row [] (.amaxN mods (fld wd 22 1) (fld wd 14 7) (fld wd 10 4) (fld wd 7 3) (fld wd 0 7)) else if fld wd 22 2 = 2#2 then .row [] (.afadd mods (fld wd 21 1) (fld wd 14 7) (fld wd 10 4) (fld wd 7 3) (fld wd 0 7)) else if fld wd 22 2 = 3#2 then .row [] (.afaddPair mods (fld wd 21 1) (fld wd 14 7) (fld wd 10 4) (fld wd 7 3) (fld wd 0 7)) else .bad .fn 10) = Raw.row _ _
    simp only [wd, fld_8_2_1_7_4_3_7_at_0_7, fld_8_2_1_7_4_3_7_at_7_3, fld_8_2_1_7_4_3_7_at_10_4, fld_8_2_1_7_4_3_7_at_14_7, fld_8_2_1_7_4_3_7_at_21_1, fld_8_2_1_7_4_3_7_at_22_2, fld_8_2_1_7_4_3_7_high]
    rfl
  · rfl
theorem Encoding.ldaq (mods : Mods) (w : BitVec 1) (d : BitVec 7) (k : BitVec 4) (s : BitVec 3) (v : BitVec 7) : Encoding.Statement (.ldaq mods w d k s v) := fun _ => by
  let wd : W32 := 0xBB#8 ++ 0#2 ++ w ++ d ++ k ++ s ++ v
  refine ⟨[], ?_, ?_⟩
  · refine (congrArg (decodeOpcode mods wd) (congrArg BitVec.toNat (show fld wd 24 8 = _ from fld_8_2_1_7_4_3_7_at_24_8 ..))).trans ?_
    show (if fld wd 22 2 = 0#2 then .row [] (.ldaq mods (fld wd 21 1) (fld wd 14 7) (fld wd 10 4) (fld wd 7 3) (fld wd 0 7)) else .bad .fn 10) = Raw.row _ _
    simp only [wd, fld_8_2_1_7_4_3_7_at_0_7, fld_8_2_1_7_4_3_7_at_7_3, fld_8_2_1_7_4_3_7_at_10_4, fld_8_2_1_7_4_3_7_at_14_7, fld_8_2_1_7_4_3_7_at_21_1, fld_8_2_1_7_4_3_7_at_22_2]
    rfl
  · rfl
theorem Encoding.strl (mods : Mods) (w : BitVec 2) (k : BitVec 4) (s : BitVec 3) (b : BitVec 7) : Encoding.Statement (.strl mods w k s b) := fun _ => by
  let wd : W32 := 0xBC#8 ++ 0#1 ++ w ++ 0#7 ++ k ++ s ++ b
  refine ⟨[zero wd .reserved 3 14 7], ?_, ?_⟩
  · refine (congrArg (decodeOpcode mods wd) (congrArg BitVec.toNat (show fld wd 24 8 = _ from fld_8_1_2_7_4_3_7_at_24_8 ..))).trans ?_
    show (if fld wd 23 1 = 0#1 then .row [zero wd .reserved 3 14 7] (.strl mods (fld wd 21 2) (fld wd 10 4) (fld wd 7 3) (fld wd 0 7)) else .bad .fn 10) = Raw.row _ _
    simp only [wd, fld_8_1_2_7_4_3_7_at_0_7, fld_8_1_2_7_4_3_7_at_7_3, fld_8_1_2_7_4_3_7_at_10_4, fld_8_1_2_7_4_3_7_at_21_2, fld_8_1_2_7_4_3_7_at_23_1]
    rfl
  · simp only [List.all_cons, zero, wd, fld_8_1_2_7_4_3_7_at_14_7]
    rfl
theorem Encoding.fence (mods : Mods) (n : BitVec 2) (s : BitVec 3) : Encoding.Statement (.fence mods n s) := fun _ => by
  let wd : W32 := 0xBD#8 ++ 0#3 ++ 0#2 ++ n ++ s ++ 0#7 ++ 0#7
  refine ⟨[zero wd .reserved 3 19 2, zero wd .reserved 0 7 7, zero wd .reserved 1 0 7], ?_, ?_⟩
  · refine (congrArg (decodeOpcode mods wd) (congrArg BitVec.toNat (show fld wd 24 8 = _ from fld_8_3_2_2_3_7_7_at_24_8 ..))).trans ?_
    show (if fld wd 21 3 = 0#3 then .row [zero wd .reserved 3 19 2, zero wd .reserved 0 7 7, zero wd .reserved 1 0 7] (.fence mods (fld wd 17 2) (fld wd 14 3)) else if fld wd 21 3 = 1#3 then .row [zero wd .reserved 3 19 2] (.rfence mods (fld wd 17 2) (fld wd 14 3) (fld wd 7 7) (fld wd 0 7)) else if fld wd 21 3 = 2#3 then .row [zero wd .reserved 3 17 4, zero wd .reserved 0 7 7, zero wd .reserved 1 5 2] (.xfence mods (fld wd 14 3) (fld wd 0 5)) else .bad .fn 10) = Raw.row _ _
    simp only [wd, fld_8_3_2_2_3_7_7_at_0_7, fld_8_3_2_2_3_7_7_at_7_7, fld_8_3_2_2_3_7_7_at_14_3, fld_8_3_2_2_3_7_7_at_17_2, fld_8_3_2_2_3_7_7_at_21_3]
    rfl
  · simp only [List.all_cons, zero, wd, fld_8_3_2_2_3_7_7_at_19_2, fld_8_3_2_2_3_7_7_at_7_7, fld_8_3_2_2_3_7_7_at_0_7]
    rfl
theorem Encoding.rfence (mods : Mods) (n : BitVec 2) (s : BitVec 3) (a : BitVec 7) (b : BitVec 7) : Encoding.Statement (.rfence mods n s a b) := fun _ => by
  let wd : W32 := 0xBD#8 ++ 1#3 ++ 0#2 ++ n ++ s ++ a ++ b
  refine ⟨[zero wd .reserved 3 19 2], ?_, ?_⟩
  · refine (congrArg (decodeOpcode mods wd) (congrArg BitVec.toNat (show fld wd 24 8 = _ from fld_8_3_2_2_3_7_7_at_24_8 ..))).trans ?_
    show (if fld wd 21 3 = 0#3 then .row [zero wd .reserved 3 19 2, zero wd .reserved 0 7 7, zero wd .reserved 1 0 7] (.fence mods (fld wd 17 2) (fld wd 14 3)) else if fld wd 21 3 = 1#3 then .row [zero wd .reserved 3 19 2] (.rfence mods (fld wd 17 2) (fld wd 14 3) (fld wd 7 7) (fld wd 0 7)) else if fld wd 21 3 = 2#3 then .row [zero wd .reserved 3 17 4, zero wd .reserved 0 7 7, zero wd .reserved 1 5 2] (.xfence mods (fld wd 14 3) (fld wd 0 5)) else .bad .fn 10) = Raw.row _ _
    simp only [wd, fld_8_3_2_2_3_7_7_at_0_7, fld_8_3_2_2_3_7_7_at_7_7, fld_8_3_2_2_3_7_7_at_14_3, fld_8_3_2_2_3_7_7_at_17_2, fld_8_3_2_2_3_7_7_at_21_3]
    rfl
  · simp only [List.all_cons, zero, wd, fld_8_3_2_2_3_7_7_at_19_2]
    rfl
theorem Encoding.xfence (mods : Mods) (s : BitVec 3) (p : BitVec 5) : Encoding.Statement (.xfence mods s p) := fun _ => by
  let wd : W32 := 0xBD#8 ++ 2#3 ++ 0#4 ++ s ++ 0#7 ++ 0#2 ++ p
  refine ⟨[zero wd .reserved 3 17 4, zero wd .reserved 0 7 7, zero wd .reserved 1 5 2], ?_, ?_⟩
  · refine (congrArg (decodeOpcode mods wd) (congrArg BitVec.toNat (show fld wd 24 8 = _ from fld_8_3_4_3_7_2_5_at_24_8 ..))).trans ?_
    show (if fld wd 21 3 = 0#3 then .row [zero wd .reserved 3 19 2, zero wd .reserved 0 7 7, zero wd .reserved 1 0 7] (.fence mods (fld wd 17 2) (fld wd 14 3)) else if fld wd 21 3 = 1#3 then .row [zero wd .reserved 3 19 2] (.rfence mods (fld wd 17 2) (fld wd 14 3) (fld wd 7 7) (fld wd 0 7)) else if fld wd 21 3 = 2#3 then .row [zero wd .reserved 3 17 4, zero wd .reserved 0 7 7, zero wd .reserved 1 5 2] (.xfence mods (fld wd 14 3) (fld wd 0 5)) else .bad .fn 10) = Raw.row _ _
    simp only [wd, fld_8_3_4_3_7_2_5_at_0_5, fld_8_3_4_3_7_2_5_at_7_7, fld_8_3_4_3_7_2_5_at_14_3, fld_8_3_4_3_7_2_5_at_21_3]
    rfl
  · simp only [List.all_cons, zero, wd, fld_8_3_4_3_7_2_5_at_17_4, fld_8_3_4_3_7_2_5_at_7_7, fld_8_3_4_3_7_2_5_at_5_2]
    rfl
theorem Encoding.lock (mods : Mods) (d : BitVec 7) (b : BitVec 7) (o : BitVec 5) : Encoding.Statement (.lock mods d b o) := fun _ => by
  let wd : W32 := 0xBE#8 ++ 0#3 ++ d ++ b ++ 0#2 ++ o
  refine ⟨[zero wd .reserved 12 5 2], ?_, ?_⟩
  · refine (congrArg (decodeOpcode mods wd) (congrArg BitVec.toNat (show fld wd 24 8 = _ from fld_8_3_7_7_2_5_at_24_8 ..))).trans ?_
    show (if fld wd 21 3 = 0#3 then .row [zero wd .reserved 12 5 2] (.lock mods (fld wd 14 7) (fld wd 7 7) (fld wd 0 5)) else if fld wd 21 3 = 1#3 then .row [zero wd .reserved 12 5 2] (.unlock mods (fld wd 14 7) (fld wd 7 7) (fld wd 0 5)) else if fld wd 21 3 = 2#3 then .row [zero wd .reserved 3 14 7, zero wd .reserved 12 5 2] (.cinv mods (fld wd 7 7) (fld wd 0 5)) else if fld wd 21 3 = 3#3 then .row [zero wd .reserved 3 14 7, zero wd .reserved 12 5 2] (.cwb mods (fld wd 7 7) (fld wd 0 5)) else .bad .fn 10) = Raw.row _ _
    simp only [wd, fld_8_3_7_7_2_5_at_0_5, fld_8_3_7_7_2_5_at_7_7, fld_8_3_7_7_2_5_at_14_7, fld_8_3_7_7_2_5_at_21_3]
    rfl
  · simp only [List.all_cons, zero, wd, fld_8_3_7_7_2_5_at_5_2]
    rfl
theorem Encoding.unlock (mods : Mods) (d : BitVec 7) (b : BitVec 7) (o : BitVec 5) : Encoding.Statement (.unlock mods d b o) := fun _ => by
  let wd : W32 := 0xBE#8 ++ 1#3 ++ d ++ b ++ 0#2 ++ o
  refine ⟨[zero wd .reserved 12 5 2], ?_, ?_⟩
  · refine (congrArg (decodeOpcode mods wd) (congrArg BitVec.toNat (show fld wd 24 8 = _ from fld_8_3_7_7_2_5_at_24_8 ..))).trans ?_
    show (if fld wd 21 3 = 0#3 then .row [zero wd .reserved 12 5 2] (.lock mods (fld wd 14 7) (fld wd 7 7) (fld wd 0 5)) else if fld wd 21 3 = 1#3 then .row [zero wd .reserved 12 5 2] (.unlock mods (fld wd 14 7) (fld wd 7 7) (fld wd 0 5)) else if fld wd 21 3 = 2#3 then .row [zero wd .reserved 3 14 7, zero wd .reserved 12 5 2] (.cinv mods (fld wd 7 7) (fld wd 0 5)) else if fld wd 21 3 = 3#3 then .row [zero wd .reserved 3 14 7, zero wd .reserved 12 5 2] (.cwb mods (fld wd 7 7) (fld wd 0 5)) else .bad .fn 10) = Raw.row _ _
    simp only [wd, fld_8_3_7_7_2_5_at_0_5, fld_8_3_7_7_2_5_at_7_7, fld_8_3_7_7_2_5_at_14_7, fld_8_3_7_7_2_5_at_21_3]
    rfl
  · simp only [List.all_cons, zero, wd, fld_8_3_7_7_2_5_at_5_2]
    rfl
theorem Encoding.cinv (mods : Mods) (b : BitVec 7) (o : BitVec 5) : Encoding.Statement (.cinv mods b o) := fun _ => by
  let wd : W32 := 0xBE#8 ++ 2#3 ++ 0#7 ++ b ++ 0#2 ++ o
  refine ⟨[zero wd .reserved 3 14 7, zero wd .reserved 12 5 2], ?_, ?_⟩
  · refine (congrArg (decodeOpcode mods wd) (congrArg BitVec.toNat (show fld wd 24 8 = _ from fld_8_3_7_7_2_5_at_24_8 ..))).trans ?_
    show (if fld wd 21 3 = 0#3 then .row [zero wd .reserved 12 5 2] (.lock mods (fld wd 14 7) (fld wd 7 7) (fld wd 0 5)) else if fld wd 21 3 = 1#3 then .row [zero wd .reserved 12 5 2] (.unlock mods (fld wd 14 7) (fld wd 7 7) (fld wd 0 5)) else if fld wd 21 3 = 2#3 then .row [zero wd .reserved 3 14 7, zero wd .reserved 12 5 2] (.cinv mods (fld wd 7 7) (fld wd 0 5)) else if fld wd 21 3 = 3#3 then .row [zero wd .reserved 3 14 7, zero wd .reserved 12 5 2] (.cwb mods (fld wd 7 7) (fld wd 0 5)) else .bad .fn 10) = Raw.row _ _
    simp only [wd, fld_8_3_7_7_2_5_at_0_5, fld_8_3_7_7_2_5_at_7_7, fld_8_3_7_7_2_5_at_14_7, fld_8_3_7_7_2_5_at_21_3]
    rfl
  · simp only [List.all_cons, zero, wd, fld_8_3_7_7_2_5_at_14_7, fld_8_3_7_7_2_5_at_5_2]
    rfl
theorem Encoding.cwb (mods : Mods) (b : BitVec 7) (o : BitVec 5) : Encoding.Statement (.cwb mods b o) := fun _ => by
  let wd : W32 := 0xBE#8 ++ 3#3 ++ 0#7 ++ b ++ 0#2 ++ o
  refine ⟨[zero wd .reserved 3 14 7, zero wd .reserved 12 5 2], ?_, ?_⟩
  · refine (congrArg (decodeOpcode mods wd) (congrArg BitVec.toNat (show fld wd 24 8 = _ from fld_8_3_7_7_2_5_at_24_8 ..))).trans ?_
    show (if fld wd 21 3 = 0#3 then .row [zero wd .reserved 12 5 2] (.lock mods (fld wd 14 7) (fld wd 7 7) (fld wd 0 5)) else if fld wd 21 3 = 1#3 then .row [zero wd .reserved 12 5 2] (.unlock mods (fld wd 14 7) (fld wd 7 7) (fld wd 0 5)) else if fld wd 21 3 = 2#3 then .row [zero wd .reserved 3 14 7, zero wd .reserved 12 5 2] (.cinv mods (fld wd 7 7) (fld wd 0 5)) else if fld wd 21 3 = 3#3 then .row [zero wd .reserved 3 14 7, zero wd .reserved 12 5 2] (.cwb mods (fld wd 7 7) (fld wd 0 5)) else .bad .fn 10) = Raw.row _ _
    simp only [wd, fld_8_3_7_7_2_5_at_0_5, fld_8_3_7_7_2_5_at_7_7, fld_8_3_7_7_2_5_at_14_7, fld_8_3_7_7_2_5_at_21_3]
    rfl
  · simp only [List.all_cons, zero, wd, fld_8_3_7_7_2_5_at_14_7, fld_8_3_7_7_2_5_at_5_2]
    rfl
theorem Encoding.halloc (mods : Mods) (d : BitVec 6) (k : BitVec 2) : Encoding.Statement (.halloc mods d k) := fun _ => by
  let wd : W32 := 0xC0#8 ++ d ++ 0#6 ++ 0#6 ++ 0#4 ++ k
  refine ⟨[zero wd .reserved 7 12 6, zero wd .reserved 8 6 6, zero wd .reserved 12 2 4], ?_, ?_⟩
  · refine (congrArg (decodeOpcode mods wd) (congrArg BitVec.toNat (show fld wd 24 8 = _ from fld_8_6_6_6_4_2_at_24_8 ..))).trans ?_
    show (.row [zero wd .reserved 7 12 6, zero wd .reserved 8 6 6, zero wd .reserved 12 2 4] (.halloc mods (fld wd 18 6) (fld wd 0 2))) = Raw.row _ _
    simp only [wd, fld_8_6_6_6_4_2_at_0_2, fld_8_6_6_6_4_2_at_18_6]
  · simp only [List.all_cons, zero, wd, fld_8_6_6_6_4_2_at_12_6, fld_8_6_6_6_4_2_at_6_6, fld_8_6_6_6_4_2_at_2_4]
    rfl
theorem Encoding.hrel (mods : Mods) (d : BitVec 6) : Encoding.Statement (.hrel mods d) := fun _ => by
  let wd : W32 := 0xC1#8 ++ d ++ 0#6 ++ 0#6 ++ 0#6
  refine ⟨[zero wd .reserved 7 12 6, zero wd .reserved 8 6 6, zero wd .reserved 12 0 6], ?_, ?_⟩
  · refine (congrArg (decodeOpcode mods wd) (congrArg BitVec.toNat (show fld wd 24 8 = _ from fld_8_6_6_6_6_at_24_8 ..))).trans ?_
    show (.row [zero wd .reserved 7 12 6, zero wd .reserved 8 6 6, zero wd .reserved 12 0 6] (.hrel mods (fld wd 18 6))) = Raw.row _ _
    simp only [wd, fld_8_6_6_6_6_at_18_6]
  · simp only [List.all_cons, zero, wd, fld_8_6_6_6_6_at_12_6, fld_8_6_6_6_6_at_6_6, fld_8_6_6_6_6_at_0_6]
    rfl
theorem Encoding.hgive (mods : Mods) (k : BitVec 1) (a : BitVec 6) (n : BitVec 6) (c : BitVec 6) : Encoding.Statement (.hgive mods k a n c) := fun _ => by
  let wd : W32 := 0xC2#8 ++ 0#5 ++ k ++ a ++ n ++ c
  refine ⟨[zero wd .reserved 6 19 5], ?_, ?_⟩
  · refine (congrArg (decodeOpcode mods wd) (congrArg BitVec.toNat (show fld wd 24 8 = _ from fld_8_5_1_6_6_6_at_24_8 ..))).trans ?_
    show (.row [zero wd .reserved 6 19 5] (.hgive mods (fld wd 18 1) (fld wd 12 6) (fld wd 6 6) (fld wd 0 6))) = Raw.row _ _
    simp only [wd, fld_8_5_1_6_6_6_at_0_6, fld_8_5_1_6_6_6_at_6_6, fld_8_5_1_6_6_6_at_12_6, fld_8_5_1_6_6_6_at_18_1]
  · simp only [List.all_cons, zero, wd, fld_8_5_1_6_6_6_at_19_5]
    rfl
theorem Encoding.htake (mods : Mods) (d : BitVec 6) (c : BitVec 6) : Encoding.Statement (.htake mods d c) := fun _ => by
  let wd : W32 := 0xC3#8 ++ d ++ 0#6 ++ 0#6 ++ c
  refine ⟨[zero wd .reserved 7 12 6, zero wd .reserved 8 6 6], ?_, ?_⟩
  · refine (congrArg (decodeOpcode mods wd) (congrArg BitVec.toNat (show fld wd 24 8 = _ from fld_8_6_6_6_6_at_24_8 ..))).trans ?_
    show (.row [zero wd .reserved 7 12 6, zero wd .reserved 8 6 6] (.htake mods (fld wd 18 6) (fld wd 0 6))) = Raw.row _ _
    simp only [wd, fld_8_6_6_6_6_at_0_6, fld_8_6_6_6_6_at_18_6]
  · simp only [List.all_cons, zero, wd, fld_8_6_6_6_6_at_12_6, fld_8_6_6_6_6_at_6_6]
    rfl
theorem Encoding.hinfo (mods : Mods) (k : BitVec 4) (a : BitVec 6) : Encoding.Statement (.hinfo mods k a) := fun _ => by
  let wd : W32 := 0xC4#8 ++ 0#2 ++ k ++ a ++ 0#6 ++ 0#6
  refine ⟨[zero wd .reserved 6 22 2, zero wd .reserved 8 6 6, zero wd .reserved 12 0 6], ?_, ?_⟩
  · refine (congrArg (decodeOpcode mods wd) (congrArg BitVec.toNat (show fld wd 24 8 = _ from fld_8_2_4_6_6_6_at_24_8 ..))).trans ?_
    show (.row [zero wd .reserved 6 22 2, zero wd .reserved 8 6 6, zero wd .reserved 12 0 6] (.hinfo mods (fld wd 18 4) (fld wd 12 6))) = Raw.row _ _
    simp only [wd, fld_8_2_4_6_6_6_at_12_6, fld_8_2_4_6_6_6_at_18_4]
  · simp only [List.all_cons, zero, wd, fld_8_2_4_6_6_6_at_22_2, fld_8_2_4_6_6_6_at_6_6, fld_8_2_4_6_6_6_at_0_6]
    rfl
theorem Encoding.tld (mods : Mods) (f : BitVec 3) (h : BitVec 6) (b : BitVec 7) (p : BitVec 2) (o : BitVec 5) : Encoding.Statement (.tld mods f h b p o) := fun _ => by
  let wd : W32 := 0xC5#8 ++ f ++ 0#1 ++ h ++ b ++ p ++ o
  refine ⟨[zero wd .highBits 3 20 1], ?_, ?_⟩
  · refine (congrArg (decodeOpcode mods wd) (congrArg BitVec.toNat (show fld wd 24 8 = _ from fld_8_3_1_6_7_2_5_at_24_8 ..))).trans ?_
    show (.row [zero wd .highBits 3 20 1] (.tld mods (fld wd 21 3) (fld wd 14 6) (fld wd 7 7) (fld wd 5 2) (fld wd 0 5))) = Raw.row _ _
    simp only [wd, fld_8_3_1_6_7_2_5_at_0_5, fld_8_3_1_6_7_2_5_at_5_2, fld_8_3_1_6_7_2_5_at_7_7, fld_8_3_1_6_7_2_5_at_14_6, fld_8_3_1_6_7_2_5_at_21_3]
  · simp only [List.all_cons, zero, wd, fld_8_3_1_6_7_2_5_at_20_1]
    rfl
theorem Encoding.tlds (mods : Mods) (f : BitVec 3) (h : BitVec 6) (b : BitVec 7) (t : BitVec 1) (o : BitVec 5) : Encoding.Statement (.tlds mods f h b t o) := fun _ => by
  let wd : W32 := 0xC6#8 ++ f ++ 0#1 ++ h ++ b ++ 0#1 ++ t ++ o
  refine ⟨[zero wd .highBits 3 20 1, zero wd .reserved 12 6 1], ?_, ?_⟩
  · refine (congrArg (decodeOpcode mods wd) (congrArg BitVec.toNat (show fld wd 24 8 = _ from fld_8_3_1_6_7_1_1_5_at_24_8 ..))).trans ?_
    show (.row [zero wd .highBits 3 20 1, zero wd .reserved 12 6 1] (.tlds mods (fld wd 21 3) (fld wd 14 6) (fld wd 7 7) (fld wd 5 1) (fld wd 0 5))) = Raw.row _ _
    simp only [wd, fld_8_3_1_6_7_1_1_5_at_0_5, fld_8_3_1_6_7_1_1_5_at_5_1, fld_8_3_1_6_7_1_1_5_at_7_7, fld_8_3_1_6_7_1_1_5_at_14_6, fld_8_3_1_6_7_1_1_5_at_21_3]
  · simp only [List.all_cons, zero, wd, fld_8_3_1_6_7_1_1_5_at_20_1, fld_8_3_1_6_7_1_1_5_at_6_1]
    rfl
theorem Encoding.tsto (mods : Mods) (h : BitVec 6) (b : BitVec 7) (p : BitVec 2) (o : BitVec 5) : Encoding.Statement (.tsto mods h b p o) := fun _ => by
  let wd : W32 := 0xC7#8 ++ 0#3 ++ 0#1 ++ h ++ b ++ p ++ o
  refine ⟨[zero wd .highBits 3 20 1], ?_, ?_⟩
  · refine (congrArg (decodeOpcode mods wd) (congrArg BitVec.toNat (show fld wd 24 8 = _ from fld_8_3_1_6_7_2_5_at_24_8 ..))).trans ?_
    show (if fld wd 21 3 = 0#3 then .row [zero wd .highBits 3 20 1] (.tsto mods (fld wd 14 6) (fld wd 7 7) (fld wd 5 2) (fld wd 0 5)) else .bad .fn 10) = Raw.row _ _
    simp only [wd, fld_8_3_1_6_7_2_5_at_0_5, fld_8_3_1_6_7_2_5_at_5_2, fld_8_3_1_6_7_2_5_at_7_7, fld_8_3_1_6_7_2_5_at_14_6, fld_8_3_1_6_7_2_5_at_21_3]
    rfl
  · simp only [List.all_cons, zero, wd, fld_8_3_1_6_7_2_5_at_20_1]
    rfl
theorem Encoding.tsts (mods : Mods) (h : BitVec 6) (b : BitVec 7) (t : BitVec 1) (o : BitVec 5) : Encoding.Statement (.tsts mods h b t o) := fun _ => by
  let wd : W32 := 0xC8#8 ++ 0#3 ++ 0#1 ++ h ++ b ++ 0#1 ++ t ++ o
  refine ⟨[zero wd .highBits 3 20 1, zero wd .reserved 12 6 1], ?_, ?_⟩
  · refine (congrArg (decodeOpcode mods wd) (congrArg BitVec.toNat (show fld wd 24 8 = _ from fld_8_3_1_6_7_1_1_5_at_24_8 ..))).trans ?_
    show (if fld wd 21 3 = 0#3 then .row [zero wd .highBits 3 20 1, zero wd .reserved 12 6 1] (.tsts mods (fld wd 14 6) (fld wd 7 7) (fld wd 5 1) (fld wd 0 5)) else .bad .fn 10) = Raw.row _ _
    simp only [wd, fld_8_3_1_6_7_1_1_5_at_0_5, fld_8_3_1_6_7_1_1_5_at_5_1, fld_8_3_1_6_7_1_1_5_at_7_7, fld_8_3_1_6_7_1_1_5_at_14_6, fld_8_3_1_6_7_1_1_5_at_21_3]
    rfl
  · simp only [List.all_cons, zero, wd, fld_8_3_1_6_7_1_1_5_at_20_1, fld_8_3_1_6_7_1_1_5_at_6_1]
    rfl
theorem Encoding.trd (mods : Mods) (f : BitVec 3) (d : BitVec 7) (h : BitVec 6) (i : BitVec 7) : Encoding.Statement (.trd mods f d h i) := fun _ => by
  let wd : W32 := 0xC9#8 ++ f ++ d ++ 0#1 ++ h ++ i
  refine ⟨[zero wd .highBits 0 13 1], ?_, ?_⟩
  · refine (congrArg (decodeOpcode mods wd) (congrArg BitVec.toNat (show fld wd 24 8 = _ from fld_8_3_7_1_6_7_at_24_8 ..))).trans ?_
    show (.row [zero wd .highBits 0 13 1] (.trd mods (fld wd 21 3) (fld wd 14 7) (fld wd 7 6) (fld wd 0 7))) = Raw.row _ _
    simp only [wd, fld_8_3_7_1_6_7_at_0_7, fld_8_3_7_1_6_7_at_7_6, fld_8_3_7_1_6_7_at_14_7, fld_8_3_7_1_6_7_at_21_3]
  · simp only [List.all_cons, zero, wd, fld_8_3_7_1_6_7_at_13_1]
    rfl
theorem Encoding.twr (mods : Mods) (f : BitVec 3) (h : BitVec 6) (a : BitVec 7) (i : BitVec 7) : Encoding.Statement (.twr mods f h a i) := fun _ => by
  let wd : W32 := 0xCA#8 ++ f ++ 0#1 ++ h ++ a ++ i
  refine ⟨[zero wd .highBits 3 20 1], ?_, ?_⟩
  · refine (congrArg (decodeOpcode mods wd) (congrArg BitVec.toNat (show fld wd 24 8 = _ from fld_8_3_1_6_7_7_at_24_8 ..))).trans ?_
    show (.row [zero wd .highBits 3 20 1] (.twr mods (fld wd 21 3) (fld wd 14 6) (fld wd 7 7) (fld wd 0 7))) = Raw.row _ _
    simp only [wd, fld_8_3_1_6_7_7_at_0_7, fld_8_3_1_6_7_7_at_7_7, fld_8_3_1_6_7_7_at_14_6, fld_8_3_1_6_7_7_at_21_3]
  · simp only [List.all_cons, zero, wd, fld_8_3_1_6_7_7_at_20_1]
    rfl
theorem Encoding.tzero (mods : Mods) (d : BitVec 6) (m : BitVec 6) : Encoding.Statement (.tzero mods d m) := fun _ => by
  let wd : W32 := 0xCB#8 ++ d ++ 0#6 ++ 0#6 ++ m
  refine ⟨[zero wd .reserved 7 12 6, zero wd .reserved 8 6 6], ?_, ?_⟩
  · refine (congrArg (decodeOpcode mods wd) (congrArg BitVec.toNat (show fld wd 24 8 = _ from fld_8_6_6_6_6_at_24_8 ..))).trans ?_
    show (.row [zero wd .reserved 7 12 6, zero wd .reserved 8 6 6] (.tzero mods (fld wd 18 6) (fld wd 0 6))) = Raw.row _ _
    simp only [wd, fld_8_6_6_6_6_at_0_6, fld_8_6_6_6_6_at_18_6]
  · simp only [List.all_cons, zero, wd, fld_8_6_6_6_6_at_12_6, fld_8_6_6_6_6_at_6_6]
    rfl
theorem Encoding.mma (mods : Mods) (d : BitVec 6) (a : BitVec 6) (b : BitVec 6) (y : BitVec 2) (x : BitVec 3) : Encoding.Statement (.mma mods d a b y x) := fun _ => by
  let wd : W32 := 0xCC#8 ++ d ++ a ++ b ++ 0#1 ++ y ++ x
  refine ⟨[], ?_, ?_⟩
  · refine (congrArg (decodeOpcode mods wd) (congrArg BitVec.toNat (show fld wd 24 8 = _ from fld_8_6_6_6_1_2_3_at_24_8 ..))).trans ?_
    show (if fld wd 5 1 = 0#1 then .row [] (.mma mods (fld wd 18 6) (fld wd 12 6) (fld wd 6 6) (fld wd 3 2) (fld wd 0 3)) else if fld wd 5 1 = 1#1 then .row [] (.mmas mods (fld wd 18 6) (fld wd 12 6) (fld wd 6 6) (fld wd 3 2) (fld wd 0 3)) else .bad .fn 10) = Raw.row _ _
    simp only [wd, fld_8_6_6_6_1_2_3_at_0_3, fld_8_6_6_6_1_2_3_at_3_2, fld_8_6_6_6_1_2_3_at_5_1, fld_8_6_6_6_1_2_3_at_6_6, fld_8_6_6_6_1_2_3_at_12_6, fld_8_6_6_6_1_2_3_at_18_6]
    rfl
  · rfl
theorem Encoding.mmas (mods : Mods) (d : BitVec 6) (a : BitVec 6) (b : BitVec 6) (y : BitVec 2) (x : BitVec 3) : Encoding.Statement (.mmas mods d a b y x) := fun _ => by
  let wd : W32 := 0xCC#8 ++ d ++ a ++ b ++ 1#1 ++ y ++ x
  refine ⟨[], ?_, ?_⟩
  · refine (congrArg (decodeOpcode mods wd) (congrArg BitVec.toNat (show fld wd 24 8 = _ from fld_8_6_6_6_1_2_3_at_24_8 ..))).trans ?_
    show (if fld wd 5 1 = 0#1 then .row [] (.mma mods (fld wd 18 6) (fld wd 12 6) (fld wd 6 6) (fld wd 3 2) (fld wd 0 3)) else if fld wd 5 1 = 1#1 then .row [] (.mmas mods (fld wd 18 6) (fld wd 12 6) (fld wd 6 6) (fld wd 3 2) (fld wd 0 3)) else .bad .fn 10) = Raw.row _ _
    simp only [wd, fld_8_6_6_6_1_2_3_at_0_3, fld_8_6_6_6_1_2_3_at_3_2, fld_8_6_6_6_1_2_3_at_5_1, fld_8_6_6_6_1_2_3_at_6_6, fld_8_6_6_6_1_2_3_at_12_6, fld_8_6_6_6_1_2_3_at_18_6]
    rfl
  · rfl
theorem Encoding.mmac (mods : Mods) (d : BitVec 6) (a : BitVec 6) (b : BitVec 6) (h : BitVec 1) (x : BitVec 3) : Encoding.Statement (.mmac mods d a b h x) := fun _ => by
  let wd : W32 := 0xCD#8 ++ d ++ a ++ b ++ 0#2 ++ h ++ x
  refine ⟨[zero wd .reserved 12 4 2], ?_, ?_⟩
  · refine (congrArg (decodeOpcode mods wd) (congrArg BitVec.toNat (show fld wd 24 8 = _ from fld_8_6_6_6_2_1_3_at_24_8 ..))).trans ?_
    show (.row [zero wd .reserved 12 4 2] (.mmac mods (fld wd 18 6) (fld wd 12 6) (fld wd 6 6) (fld wd 3 1) (fld wd 0 3))) = Raw.row _ _
    simp only [wd, fld_8_6_6_6_2_1_3_at_0_3, fld_8_6_6_6_2_1_3_at_3_1, fld_8_6_6_6_2_1_3_at_6_6, fld_8_6_6_6_2_1_3_at_12_6, fld_8_6_6_6_2_1_3_at_18_6]
  · simp only [List.all_cons, zero, wd, fld_8_6_6_6_2_1_3_at_4_2]
    rfl
theorem Encoding.tscl (mods : Mods) (d : BitVec 6) (a : BitVec 6) (e : BitVec 6) : Encoding.Statement (.tscl mods d a e) := fun _ => by
  let wd : W32 := 0xCE#8 ++ d ++ a ++ 0#6 ++ e
  refine ⟨[zero wd .reserved 8 6 6], ?_, ?_⟩
  · refine (congrArg (decodeOpcode mods wd) (congrArg BitVec.toNat (show fld wd 24 8 = _ from fld_8_6_6_6_6_at_24_8 ..))).trans ?_
    show (.row [zero wd .reserved 8 6 6] (.tscl mods (fld wd 18 6) (fld wd 12 6) (fld wd 0 6))) = Raw.row _ _
    simp only [wd, fld_8_6_6_6_6_at_0_6, fld_8_6_6_6_6_at_12_6, fld_8_6_6_6_6_at_18_6]
  · simp only [List.all_cons, zero, wd, fld_8_6_6_6_6_at_6_6]
    rfl
theorem Encoding.tacc (mods : Mods) (d : BitVec 6) (a : BitVec 6) (b : BitVec 6) : Encoding.Statement (.tacc mods d a b) := fun _ => by
  let wd : W32 := 0xCF#8 ++ d ++ a ++ b ++ 0#6
  refine ⟨[zero wd .reserved 12 0 6], ?_, ?_⟩
  · refine (congrArg (decodeOpcode mods wd) (congrArg BitVec.toNat (show fld wd 24 8 = _ from fld_8_6_6_6_6_at_24_8 ..))).trans ?_
    show (.row [zero wd .reserved 12 0 6] (.tacc mods (fld wd 18 6) (fld wd 12 6) (fld wd 6 6))) = Raw.row _ _
    simp only [wd, fld_8_6_6_6_6_at_6_6, fld_8_6_6_6_6_at_12_6, fld_8_6_6_6_6_at_18_6]
  · simp only [List.all_cons, zero, wd, fld_8_6_6_6_6_at_0_6]
    rfl
theorem Encoding.cpy (mods : Mods) (f : BitVec 3) (d : BitVec 7) (a : BitVec 7) (b : BitVec 7) : Encoding.Statement (.cpy mods f d a b) := fun _ => by
  let wd : W32 := 0xD0#8 ++ f ++ d ++ a ++ b
  refine ⟨[], ?_, ?_⟩
  · refine (congrArg (decodeOpcode mods wd) (congrArg BitVec.toNat (show fld wd 24 8 = _ from fld_8_3_7_7_7_at_24_8 ..))).trans ?_
    show (.row [] (.cpy mods (fld wd 21 3) (fld wd 14 7) (fld wd 7 7) (fld wd 0 7))) = Raw.row _ _
    simp only [wd, fld_8_3_7_7_7_at_0_7, fld_8_3_7_7_7_at_7_7, fld_8_3_7_7_7_at_14_7, fld_8_3_7_7_7_at_21_3]
  · rfl
theorem Encoding.cpy2 (mods : Mods) (f : BitVec 3) (d : BitVec 7) (a : BitVec 7) (b : BitVec 7) : Encoding.Statement (.cpy2 mods f d a b) := fun _ => by
  let wd : W32 := 0xD1#8 ++ f ++ d ++ a ++ b
  refine ⟨[], ?_, ?_⟩
  · refine (congrArg (decodeOpcode mods wd) (congrArg BitVec.toNat (show fld wd 24 8 = _ from fld_8_3_7_7_7_at_24_8 ..))).trans ?_
    show (.row [] (.cpy2 mods (fld wd 21 3) (fld wd 14 7) (fld wd 7 7) (fld wd 0 7))) = Raw.row _ _
    simp only [wd, fld_8_3_7_7_7_at_0_7, fld_8_3_7_7_7_at_7_7, fld_8_3_7_7_7_at_14_7, fld_8_3_7_7_7_at_21_3]
  · rfl
theorem Encoding.gath (mods : Mods) (s : BitVec 1) (z : BitVec 2) (d : BitVec 7) (a : BitVec 7) (b : BitVec 7) : Encoding.Statement (.gath mods s z d a b) := fun _ => by
  let wd : W32 := 0xD2#8 ++ s ++ z ++ d ++ a ++ b
  refine ⟨[], ?_, ?_⟩
  · refine (congrArg (decodeOpcode mods wd) (congrArg BitVec.toNat (show fld wd 24 8 = _ from fld_8_1_2_7_7_7_at_24_8 ..))).trans ?_
    show (.row [] (.gath mods (fld wd 23 1) (fld wd 21 2) (fld wd 14 7) (fld wd 7 7) (fld wd 0 7))) = Raw.row _ _
    simp only [wd, fld_8_1_2_7_7_7_at_0_7, fld_8_1_2_7_7_7_at_7_7, fld_8_1_2_7_7_7_at_14_7, fld_8_1_2_7_7_7_at_21_2, fld_8_1_2_7_7_7_at_23_1]
  · rfl
theorem Encoding.scat (mods : Mods) (s : BitVec 1) (z : BitVec 2) (d : BitVec 7) (a : BitVec 7) (b : BitVec 7) : Encoding.Statement (.scat mods s z d a b) := fun _ => by
  let wd : W32 := 0xD3#8 ++ s ++ z ++ d ++ a ++ b
  refine ⟨[], ?_, ?_⟩
  · refine (congrArg (decodeOpcode mods wd) (congrArg BitVec.toNat (show fld wd 24 8 = _ from fld_8_1_2_7_7_7_at_24_8 ..))).trans ?_
    show (.row [] (.scat mods (fld wd 23 1) (fld wd 21 2) (fld wd 14 7) (fld wd 7 7) (fld wd 0 7))) = Raw.row _ _
    simp only [wd, fld_8_1_2_7_7_7_at_0_7, fld_8_1_2_7_7_7_at_7_7, fld_8_1_2_7_7_7_at_14_7, fld_8_1_2_7_7_7_at_21_2, fld_8_1_2_7_7_7_at_23_1]
  · rfl
theorem Encoding.cfill (mods : Mods) (f : BitVec 1) (d : BitVec 7) (a : BitVec 7) (b : BitVec 7) : Encoding.Statement (.cfill mods f d a b) := fun _ => by
  let wd : W32 := 0xD4#8 ++ 0#2 ++ f ++ d ++ a ++ b
  refine ⟨[], ?_, ?_⟩
  · refine (congrArg (decodeOpcode mods wd) (congrArg BitVec.toNat (show fld wd 24 8 = _ from fld_8_2_1_7_7_7_at_24_8 ..))).trans ?_
    show (if fld wd 22 2 = 0#2 then .row [] (.cfill mods (fld wd 21 1) (fld wd 14 7) (fld wd 7 7) (fld wd 0 7)) else .bad .fn 10) = Raw.row _ _
    simp only [wd, fld_8_2_1_7_7_7_at_0_7, fld_8_2_1_7_7_7_at_7_7, fld_8_2_1_7_7_7_at_14_7, fld_8_2_1_7_7_7_at_21_1, fld_8_2_1_7_7_7_at_22_2]
    rfl
  · rfl
theorem Encoding.cstat (mods : Mods) (d : BitVec 7) : Encoding.Statement (.cstat mods d) := fun _ => by
  let wd : W32 := 0xD5#8 ++ 0#3 ++ d ++ 0#7 ++ 0#7
  refine ⟨[zero wd .reserved 0 7 7, zero wd .reserved 1 0 7], ?_, ?_⟩
  · refine (congrArg (decodeOpcode mods wd) (congrArg BitVec.toNat (show fld wd 24 8 = _ from fld_8_3_7_7_7_at_24_8 ..))).trans ?_
    show (if fld wd 21 3 = 0#3 then .row [zero wd .reserved 0 7 7, zero wd .reserved 1 0 7] (.cstat mods (fld wd 14 7)) else .bad .fn 10) = Raw.row _ _
    simp only [wd, fld_8_3_7_7_7_at_14_7, fld_8_3_7_7_7_at_21_3]
    rfl
  · simp only [List.all_cons, zero, wd, fld_8_3_7_7_7_at_7_7, fld_8_3_7_7_7_at_0_7]
    rfl
theorem Encoding.coll (mods : Mods) (d : BitVec 7) (a : BitVec 7) : Encoding.Statement (.coll mods d a) := fun _ => by
  let wd : W32 := 0xD8#8 ++ 0#3 ++ d ++ a ++ 0#7
  refine ⟨[zero wd .reserved 1 0 7], ?_, ?_⟩
  · refine (congrArg (decodeOpcode mods wd) (congrArg BitVec.toNat (show fld wd 24 8 = _ from fld_8_3_7_7_7_at_24_8 ..))).trans ?_
    show (if fld wd 21 3 = 0#3 then .row [zero wd .reserved 1 0 7] (.coll mods (fld wd 14 7) (fld wd 7 7)) else .bad .fn 10) = Raw.row _ _
    simp only [wd, fld_8_3_7_7_7_at_7_7, fld_8_3_7_7_7_at_14_7, fld_8_3_7_7_7_at_21_3]
    rfl
  · simp only [List.all_cons, zero, wd, fld_8_3_7_7_7_at_0_7]
    rfl
theorem Encoding.csigAdd (mods : Mods) (d : BitVec 7) (a : BitVec 7) (b : BitVec 7) : Encoding.Statement (.csigAdd mods d a b) := fun _ => by
  let wd : W32 := 0xD9#8 ++ 0#3 ++ d ++ a ++ b
  refine ⟨[], ?_, ?_⟩
  · refine (congrArg (decodeOpcode mods wd) (congrArg BitVec.toNat (show fld wd 24 8 = _ from fld_8_3_7_7_7_at_24_8 ..))).trans ?_
    show (if fld wd 21 3 = 0#3 then .row [] (.csigAdd mods (fld wd 14 7) (fld wd 7 7) (fld wd 0 7)) else if fld wd 21 3 = 1#3 then .row [] (.csigSet mods (fld wd 14 7) (fld wd 7 7) (fld wd 0 7)) else .bad .fn 10) = Raw.row _ _
    simp only [wd, fld_8_3_7_7_7_at_0_7, fld_8_3_7_7_7_at_7_7, fld_8_3_7_7_7_at_14_7, fld_8_3_7_7_7_at_21_3]
    rfl
  · rfl
theorem Encoding.csigSet (mods : Mods) (d : BitVec 7) (a : BitVec 7) (b : BitVec 7) : Encoding.Statement (.csigSet mods d a b) := fun _ => by
  let wd : W32 := 0xD9#8 ++ 1#3 ++ d ++ a ++ b
  refine ⟨[], ?_, ?_⟩
  · refine (congrArg (decodeOpcode mods wd) (congrArg BitVec.toNat (show fld wd 24 8 = _ from fld_8_3_7_7_7_at_24_8 ..))).trans ?_
    show (if fld wd 21 3 = 0#3 then .row [] (.csigAdd mods (fld wd 14 7) (fld wd 7 7) (fld wd 0 7)) else if fld wd 21 3 = 1#3 then .row [] (.csigSet mods (fld wd 14 7) (fld wd 7 7) (fld wd 0 7)) else .bad .fn 10) = Raw.row _ _
    simp only [wd, fld_8_3_7_7_7_at_0_7, fld_8_3_7_7_7_at_7_7, fld_8_3_7_7_7_at_14_7, fld_8_3_7_7_7_at_21_3]
    rfl
  · rfl
theorem Encoding.cwaitRec (mods : Mods) (d : BitVec 7) (a : BitVec 7) : Encoding.Statement (.cwaitRec mods d a) := fun _ => by
  let wd : W32 := 0xDA#8 ++ 0#3 ++ d ++ a ++ 0#7
  refine ⟨[zero wd .reserved 1 0 7], ?_, ?_⟩
  · refine (congrArg (decodeOpcode mods wd) (congrArg BitVec.toNat (show fld wd 24 8 = _ from fld_8_3_7_7_7_at_24_8 ..))).trans ?_
    show (if fld wd 21 3 = 0#3 then .row [zero wd .reserved 1 0 7] (.cwaitRec mods (fld wd 14 7) (fld wd 7 7)) else if fld wd 21 3 = 1#3 then .row [] (.cwaitGe mods (fld wd 14 7) (fld wd 7 7) (fld wd 0 7)) else .bad .fn 10) = Raw.row _ _
    simp only [wd, fld_8_3_7_7_7_at_0_7, fld_8_3_7_7_7_at_7_7, fld_8_3_7_7_7_at_14_7, fld_8_3_7_7_7_at_21_3]
    rfl
  · simp only [List.all_cons, zero, wd, fld_8_3_7_7_7_at_0_7]
    rfl
theorem Encoding.cwaitGe (mods : Mods) (d : BitVec 7) (a : BitVec 7) (b : BitVec 7) : Encoding.Statement (.cwaitGe mods d a b) := fun _ => by
  let wd : W32 := 0xDA#8 ++ 1#3 ++ d ++ a ++ b
  refine ⟨[], ?_, ?_⟩
  · refine (congrArg (decodeOpcode mods wd) (congrArg BitVec.toNat (show fld wd 24 8 = _ from fld_8_3_7_7_7_at_24_8 ..))).trans ?_
    show (if fld wd 21 3 = 0#3 then .row [zero wd .reserved 1 0 7] (.cwaitRec mods (fld wd 14 7) (fld wd 7 7)) else if fld wd 21 3 = 1#3 then .row [] (.cwaitGe mods (fld wd 14 7) (fld wd 7 7) (fld wd 0 7)) else .bad .fn 10) = Raw.row _ _
    simp only [wd, fld_8_3_7_7_7_at_0_7, fld_8_3_7_7_7_at_7_7, fld_8_3_7_7_7_at_14_7, fld_8_3_7_7_7_at_21_3]
    rfl
  · rfl
theorem Encoding.step (mods : Mods) (d : BitVec 7) (a : BitVec 7) (b : BitVec 7) : Encoding.Statement (.step mods d a b) := fun _ => by
  let wd : W32 := 0xDB#8 ++ 0#3 ++ d ++ a ++ b
  refine ⟨[], ?_, ?_⟩
  · refine (congrArg (decodeOpcode mods wd) (congrArg BitVec.toNat (show fld wd 24 8 = _ from fld_8_3_7_7_7_at_24_8 ..))).trans ?_
    show (if fld wd 21 3 = 0#3 then .row [] (.step mods (fld wd 14 7) (fld wd 7 7) (fld wd 0 7)) else .bad .fn 10) = Raw.row _ _
    simp only [wd, fld_8_3_7_7_7_at_0_7, fld_8_3_7_7_7_at_7_7, fld_8_3_7_7_7_at_14_7, fld_8_3_7_7_7_at_21_3]
    rfl
  · rfl
theorem Encoding.rpost (mods : Mods) (d : BitVec 7) (a : BitVec 7) (b : BitVec 7) : Encoding.Statement (.rpost mods d a b) := fun _ => by
  let wd : W32 := 0xDC#8 ++ 0#3 ++ d ++ a ++ b
  refine ⟨[], ?_, ?_⟩
  · refine (congrArg (decodeOpcode mods wd) (congrArg BitVec.toNat (show fld wd 24 8 = _ from fld_8_3_7_7_7_at_24_8 ..))).trans ?_
    show (if fld wd 21 3 = 0#3 then .row [] (.rpost mods (fld wd 14 7) (fld wd 7 7) (fld wd 0 7)) else .bad .fn 10) = Raw.row _ _
    simp only [wd, fld_8_3_7_7_7_at_0_7, fld_8_3_7_7_7_at_7_7, fld_8_3_7_7_7_at_14_7, fld_8_3_7_7_7_at_21_3]
    rfl
  · rfl
/-- An event has no word. -/
theorem Encoding.ageCounterExpiry (g : Nat) (slice : Nat) : Encoding.Statement (.ageCounterExpiry g slice) := fun h => nomatch (show false = true from h)
/-- An event has no word. -/
theorem Encoding.launchRecordTake (vf : Nat) (queue : Nat) : Encoding.Statement (.launchRecordTake vf queue) := fun h => nomatch (show false = true from h)
/-- An event has no word. -/
theorem Encoding.teamPlacement (grid : Nat) : Encoding.Statement (.teamPlacement grid) := fun h => nomatch (show false = true from h)
/-- An event has no word. -/
theorem Encoding.laybyMove (g : Nat) : Encoding.Statement (.laybyMove g) := fun h => nomatch (show false = true from h)
/-- An event has no word. -/
theorem Encoding.carriagewayAdmission (g : Nat) : Encoding.Statement (.carriagewayAdmission g) := fun h => nomatch (show false = true from h)
/-- An event has no word. -/
theorem Encoding.laybyPending (g : Nat) : Encoding.Statement (.laybyPending g) := fun h => nomatch (show false = true from h)
/-- An event has no word. -/
theorem Encoding.pendingEviction (g : Nat) : Encoding.Statement (.pendingEviction g) := fun h => nomatch (show false = true from h)
/-- An event has no word. -/
theorem Encoding.leaseWindowEnd (g : Nat) : Encoding.Statement (.leaseWindowEnd g) := fun h => nomatch (show false = true from h)
/-- An event has no word. -/
theorem Encoding.groupEnd (g : Nat) : Encoding.Statement (.groupEnd g) := fun h => nomatch (show false = true from h)
/-- An event has no word. -/
theorem Encoding.gridEnd (grid : Nat) : Encoding.Statement (.gridEnd grid) := fun h => nomatch (show false = true from h)
/-- An event has no word. -/
theorem Encoding.preemptionRequest (ctx : Nat) : Encoding.Statement (.preemptionRequest ctx) := fun h => nomatch (show false = true from h)
/-- An event has no word. -/
theorem Encoding.preemptionTimeout (ctx : Nat) : Encoding.Statement (.preemptionTimeout ctx) := fun h => nomatch (show false = true from h)
/-- An event has no word. -/
theorem Encoding.supervisorStop (ctx : Nat) : Encoding.Statement (.supervisorStop ctx) := fun h => nomatch (show false = true from h)
/-- An event has no word. -/
theorem Encoding.haltLineArrival (ctx : Nat) (core : Nat) : Encoding.Statement (.haltLineArrival ctx core) := fun h => nomatch (show false = true from h)
/-- An event has no word. -/
theorem Encoding.engineStop (ctx : Nat) (core : Nat) (track : Nat) (engine : Nat) : Encoding.Statement (.engineStop ctx core track engine) := fun h => nomatch (show false = true from h)
/-- An event has no word. -/
theorem Encoding.haltCompletion (ctx : Nat) : Encoding.Statement (.haltCompletion ctx) := fun h => nomatch (show false = true from h)
/-- An event has no word. -/
theorem Encoding.contextResume (ctx : Nat) : Encoding.Statement (.contextResume ctx) := fun h => nomatch (show false = true from h)
/-- An event has no word. -/
theorem Encoding.contextEnd (ctx : Nat) : Encoding.Statement (.contextEnd ctx) := fun h => nomatch (show false = true from h)
/-- An event has no word. -/
theorem Encoding.pageWalk (ctx : Nat) (core : Nat) (va : W64) : Encoding.Statement (.pageWalk ctx core va) := fun h => nomatch (show false = true from h)
/-- An event has no word. -/
theorem Encoding.translationFaultResolved (ctx : Nat) (va : W64) : Encoding.Statement (.translationFaultResolved ctx va) := fun h => nomatch (show false = true from h)
/-- An event has no word. -/
theorem Encoding.translationFaultUnresolved (ctx : Nat) (va : W64) : Encoding.Statement (.translationFaultUnresolved ctx va) := fun h => nomatch (show false = true from h)
/-- An event has no word. -/
theorem Encoding.invalidation (ctx : Nat) (va : W64) (len : Nat) (writes : List (Nat × W64)) : Encoding.Statement (.invalidation ctx va len writes) := fun h => nomatch (show false = true from h)
/-- An event has no word. -/
theorem Encoding.biasFlip (ctx : Nat) (va : W64) (bias : Bool) : Encoding.Statement (.biasFlip ctx va bias) := fun h => nomatch (show false = true from h)
/-- An event has no word. -/
theorem Encoding.deadlineExpiry (core : Nat) (load : Nat) (lane : Nat) : Encoding.Statement (.deadlineExpiry core load lane) := fun h => nomatch (show false = true from h)
/-- An event has no word. -/
theorem Encoding.loadDataArrival (core : Nat) (load : Nat) (lane : Nat) : Encoding.Statement (.loadDataArrival core load lane) := fun h => nomatch (show false = true from h)
/-- An event has no word. -/
theorem Encoding.ticketTruthArrival (core : Nat) (ticket : Nat) : Encoding.Statement (.ticketTruthArrival core ticket) := fun h => nomatch (show false = true from h)
/-- An event has no word. -/
theorem Encoding.storePerformed (core : Nat) (store : Nat) : Encoding.Statement (.storePerformed core store) := fun h => nomatch (show false = true from h)
/-- An event has no word. -/
theorem Encoding.atomicPerformed (core : Nat) (op : Nat) (lane : Nat) : Encoding.Statement (.atomicPerformed core op lane) := fun h => nomatch (show false = true from h)
/-- An event has no word. -/
theorem Encoding.promotionDrain (core : Nat) (load : Nat) (victim : Nat) : Encoding.Statement (.promotionDrain core load victim) := fun h => nomatch (show false = true from h)
/-- An event has no word. -/
theorem Encoding.l1InvalidationArrival (core : Nat) (line : Nat) : Encoding.Statement (.l1InvalidationArrival core line) := fun h => nomatch (show false = true from h)
/-- An event has no word. -/
theorem Encoding.l1FillArrival (core : Nat) (line : Nat) : Encoding.Statement (.l1FillArrival core line) := fun h => nomatch (show false = true from h)
/-- An event has no word. -/
theorem Encoding.hostSharedRequest (addr : Nat) : Encoding.Statement (.hostSharedRequest addr) := fun h => nomatch (show false = true from h)
/-- An event has no word. -/
theorem Encoding.hostExclusiveRequest (addr : Nat) : Encoding.Statement (.hostExclusiveRequest addr) := fun h => nomatch (show false = true from h)
/-- An event has no word. -/
theorem Encoding.hostWriteBack (addr : Nat) (data : List Byte) (poisoned : Bool) : Encoding.Statement (.hostWriteBack addr data poisoned) := fun h => nomatch (show false = true from h)
/-- An event has no word. -/
theorem Encoding.hostMemoryAccess (addr : Nat) (len : Nat) (data : List Byte) : Encoding.Statement (.hostMemoryAccess addr len data) := fun h => nomatch (show false = true from h)
/-- An event has no word. -/
theorem Encoding.dieLinkRequest (src : Nat) (dst : Nat) (kind : Nat) (addr : Nat) (data : List Byte) : Encoding.Statement (.dieLinkRequest src dst kind addr data) := fun h => nomatch (show false = true from h)
/-- An event has no word. -/
theorem Encoding.copyPiece (core : Nat) (copy : Nat) : Encoding.Statement (.copyPiece core copy) := fun h => nomatch (show false = true from h)
/-- An event has no word. -/
theorem Encoding.copyRetire (core : Nat) (copy : Nat) : Encoding.Statement (.copyRetire core copy) := fun h => nomatch (show false = true from h)
/-- An event has no word. -/
theorem Encoding.matrixPass (core : Nat) (quarters : List Nat) : Encoding.Statement (.matrixPass core quarters) := fun h => nomatch (show false = true from h)
/-- An event has no word. -/
theorem Encoding.tileOperationRetire (core : Nat) (op : Nat) : Encoding.Statement (.tileOperationRetire core op) := fun h => nomatch (show false = true from h)
/-- An event has no word. -/
theorem Encoding.causewayAbandon (core : Nat) (request : Nat × Nat) : Encoding.Statement (.causewayAbandon core request) := fun h => nomatch (show false = true from h)
/-- An event has no word. -/
theorem Encoding.nodeErrorReply (core : Nat) (request : Nat × Nat) : Encoding.Statement (.nodeErrorReply core request) := fun h => nomatch (show false = true from h)
/-- An event has no word. -/
theorem Encoding.notifyMessage (vf : Nat) (endpoint : Nat) (id : Nat) (queue : Nat × Nat × List Byte) : Encoding.Statement (.notifyMessage vf endpoint id queue) := fun h => nomatch (show false = true from h)
/-- An event has no word. -/
theorem Encoding.launchMessage (vf : Nat) (endpoint : Nat) (id : Nat) (queue : Nat × Nat) (rec : List Byte) : Encoding.Statement (.launchMessage vf endpoint id queue rec) := fun h => nomatch (show false = true from h)
/-- An event has no word. -/
theorem Encoding.rpostReply (id : Nat) (status : Nat) : Encoding.Statement (.rpostReply id status) := fun h => nomatch (show false = true from h)
/-- An event has no word. -/
theorem Encoding.rpostTimeout (id : Nat) : Encoding.Statement (.rpostTimeout id) := fun h => nomatch (show false = true from h)
/-- An event has no word. -/
theorem Encoding.collCompletion (vf : Nat) (comm : Nat) (seq : Nat) (others : List (Nat × List Byte)) : Encoding.Statement (.collCompletion vf comm seq others) := fun h => nomatch (show false = true from h)
/-- An event has no word. -/
theorem Encoding.collTimeout (vf : Nat) (comm : Nat) (seq : Nat) (ctx : Nat) : Encoding.Statement (.collTimeout vf comm seq ctx) := fun h => nomatch (show false = true from h)
/-- An event has no word. -/
theorem Encoding.remotePutArrival (src : Nat × Nat) (dst : Nat × W64) (data : List Byte × List Byte) : Encoding.Statement (.remotePutArrival src dst data) := fun h => nomatch (show false = true from h)
/-- An event has no word. -/
theorem Encoding.remoteSignalArrival (src : Nat × Nat) (dst : Nat × W64) (value : W64) (add : Bool) : Encoding.Statement (.remoteSignalArrival src dst value add) := fun h => nomatch (show false = true from h)
/-- An event has no word. -/
theorem Encoding.cwaitReread (g : Nat) (lane : Nat) : Encoding.Statement (.cwaitReread g lane) := fun h => nomatch (show false = true from h)
/-- An event has no word. -/
theorem Encoding.stepApply (core : Nat) (track : Nat) : Encoding.Statement (.stepApply core track) := fun h => nomatch (show false = true from h)
/-- An event has no word. -/
theorem Encoding.bucketRefill (core : Nat) : Encoding.Statement (.bucketRefill core) := fun h => nomatch (show false = true from h)
/-- An event has no word. -/
theorem Encoding.vfBringup (vf : Nat) (part : List Nat) (queues : List (List W64)) : Encoding.Statement (.vfBringup vf part queues) := fun h => nomatch (show false = true from h)
/-- An event has no word. -/
theorem Encoding.vfTeardown (vf : Nat) : Encoding.Statement (.vfTeardown vf) := fun h => nomatch (show false = true from h)
/-- An event has no word. -/
theorem Encoding.allowanceReclaim (vf : Nat) : Encoding.Statement (.allowanceReclaim vf) := fun h => nomatch (show false = true from h)
/-- An event has no word. -/
theorem Encoding.quarantineEnd (vf : Nat) : Encoding.Statement (.quarantineEnd vf) := fun h => nomatch (show false = true from h)
/-- An event has no word. -/
theorem Encoding.deadOwnerPacket (vf : Nat) (info : W64) : Encoding.Statement (.deadOwnerPacket vf info) := fun h => nomatch (show false = true from h)
/-- An event has no word. -/
theorem Encoding.uncorrectableMemoryError (addr : Nat) : Encoding.Statement (.uncorrectableMemoryError addr) := fun h => nomatch (show false = true from h)
/-- An event has no word. -/
theorem Encoding.correctedMemoryError (addr : Nat) : Encoding.Statement (.correctedMemoryError addr) := fun h => nomatch (show false = true from h)
/-- An event has no word. -/
theorem Encoding.pallowSetWrite (watts : Nat) : Encoding.Statement (.pallowSetWrite watts) := fun h => nomatch (show false = true from h)
/-- An event has no word. -/
theorem Encoding.pallowTripClear (mask : Nat) : Encoding.Statement (.pallowTripClear mask) := fun h => nomatch (show false = true from h)
/-- An event has no word. -/
theorem Encoding.allowanceCut : Encoding.Statement (.allowanceCut) := fun h => nomatch (show false = true from h)
/-- An event has no word. -/
theorem Encoding.powerControlStep (milliwatts : Nat) : Encoding.Statement (.powerControlStep milliwatts) := fun h => nomatch (show false = true from h)
/-- An event has no word. -/
theorem Encoding.currentLimiter (milliwatts : Nat) : Encoding.Statement (.currentLimiter milliwatts) := fun h => nomatch (show false = true from h)
/-- An event has no word. -/
theorem Encoding.ratioChange (core : Nat) (track : Nat) : Encoding.Statement (.ratioChange core track) := fun h => nomatch (show false = true from h)
/-- An event has no word. -/
theorem Encoding.energyCharge (charges : List (Nat × Nat)) : Encoding.Statement (.energyCharge charges) := fun h => nomatch (show false = true from h)
/-- An event has no word. -/
theorem Encoding.energyScaling (microjoules : Nat) : Encoding.Statement (.energyScaling microjoules) := fun h => nomatch (show false = true from h)
/-- An event has no word. -/
theorem Encoding.sramRailStep (die : Nat) (corrected : Nat × List (Nat × Nat)) : Encoding.Statement (.sramRailStep die corrected) := fun h => nomatch (show false = true from h)
/-- An event has no word. -/
theorem Encoding.uncorrectableSramError (die : Nat) (core : Nat) (array : Nat) (va : W64) : Encoding.Statement (.uncorrectableSramError die core array va) := fun h => nomatch (show false = true from h)
/-- An event has no word. -/
theorem Encoding.railHoldEnd (die : Nat) : Encoding.Statement (.railHoldEnd die) := fun h => nomatch (show false = true from h)
/-- An event has no word. -/
theorem Encoding.hbmTemperatureSample (die : Nat) (stack : Nat) (degrees : Nat) : Encoding.Statement (.hbmTemperatureSample die stack degrees) := fun h => nomatch (show false = true from h)
/-- An event has no word. -/
theorem Encoding.dieThermalTrip (die : Nat) : Encoding.Statement (.dieThermalTrip die) := fun h => nomatch (show false = true from h)
/-- An event has no word. -/
theorem Encoding.heartbeatWrite : Encoding.Statement (.heartbeatWrite) := fun h => nomatch (show false = true from h)
/-- An event has no word. -/
theorem Encoding.heartbeatMiss : Encoding.Statement (.heartbeatMiss) := fun h => nomatch (show false = true from h)
/-- An event has no word. -/
theorem Encoding.coreRetirement (core : Nat) : Encoding.Statement (.coreRetirement core) := fun h => nomatch (show false = true from h)
/-- An event has no word. -/
theorem Encoding.hbmChannelSparing (die : Nat) (stack : Nat) (channel : Nat × List Nat) : Encoding.Statement (.hbmChannelSparing die stack channel) := fun h => nomatch (show false = true from h)
/-- An event has no word. -/
theorem Encoding.llcWayDisable (die : Nat) (way : Nat × Nat) : Encoding.Statement (.llcWayDisable die way) := fun h => nomatch (show false = true from h)
/-- An event has no word. -/
theorem Encoding.causewayLaneSpare (port : Nat) (lane : Nat × Nat) : Encoding.Statement (.causewayLaneSpare port lane) := fun h => nomatch (show false = true from h)
/-- An event has no word. -/
theorem Encoding.portFailover (port : Nat) : Encoding.Statement (.portFailover port) := fun h => nomatch (show false = true from h)
/-- An event has no word. -/
theorem Encoding.coldReset : Encoding.Statement .coldReset := fun h => nomatch (show false = true from h)
/-- An event has no word. -/
theorem Encoding.railPowerDown : Encoding.Statement (.railPowerDown) := fun h => nomatch (show false = true from h)
/-- An event has no word. -/
theorem Encoding.leasewWrite (core : Nat) (value : W32) : Encoding.Statement (.leasewWrite core value) := fun h => nomatch (show false = true from h)
/-- An event has no word. -/
theorem Encoding.dfwWrite (die : Nat) (value : W32) : Encoding.Statement (.dfwWrite die value) := fun h => nomatch (show false = true from h)
/-- An event has no word. -/
theorem Encoding.vuesClear (vf : Nat) (value : W32) : Encoding.Statement (.vuesClear vf value) := fun h => nomatch (show false = true from h)
/-- An event has no word. -/
theorem Encoding.vovfClear (vf : Nat) (value : W32) : Encoding.Statement (.vovfClear vf value) := fun h => nomatch (show false = true from h)
/-- An event has no word. -/
theorem Encoding.registerWrite (reg : Nat) (index : Nat) (value : W64) : Encoding.Statement (.registerWrite reg index value) := fun h => nomatch (show false = true from h)
/-- An event has no word. -/
theorem Encoding.pendingResultRetire (core : Nat) (res : Nat) : Encoding.Statement (.pendingResultRetire core res) := fun h => nomatch (show false = true from h)
/-- An event has no word. -/
theorem Encoding.contextSetup (ctx : Nat) (vf : Nat) (ptroot : W64) (stopa : W64) (scratch : Nat) (lockLimit : Nat) (tvec : W64) : Encoding.Statement (.contextSetup ctx vf ptroot stopa scratch lockLimit tvec) := fun h => nomatch (show false = true from h)
/-- An event has no word. -/
theorem Encoding.rdmaAccess (vf : Nat) (addr : Nat) (len : Nat) (data : List Byte) : Encoding.Statement (.rdmaAccess vf addr len data) := fun h => nomatch (show false = true from h)
/-- An event has no word. -/
theorem Encoding.remoteMessageDropped (vf : Nat) (endpoint : Nat) (id : Nat) (kind : Nat × Nat × List Byte) : Encoding.Statement (.remoteMessageDropped vf endpoint id kind) := fun h => nomatch (show false = true from h)
/-- An event has no word. -/
theorem Encoding.tagCheckFailure (core : Nat) (request : Nat × Nat) : Encoding.Statement (.tagCheckFailure core request) := fun h => nomatch (show false = true from h)
/-- An event has no word. -/
theorem Encoding.csigReply (id : Nat) (status : Nat) : Encoding.Statement (.csigReply id status) := fun h => nomatch (show false = true from h)
/-- An event has no word. -/
theorem Encoding.csigTimeout (id : Nat) : Encoding.Statement (.csigTimeout id) := fun h => nomatch (show false = true from h)
/-- An event has no word. -/
theorem Encoding.dieThermalRecovery (die : Nat) : Encoding.Statement (.dieThermalRecovery die) := fun h => nomatch (show false = true from h)

end Sys2Proof.Laws
end

