-- ==== Sys2Proof/Tests/Slice0.lean ====
section
/-! SUPPORT. The model's own tests: decoding against the words that the manual writes out, ill-formed terms, one step each of the instructions,
and for every statement with hypotheses a state and operands that meet them. -/

open Sys2Proof Sys2Proof.Machine

namespace Sys2Proof.Tests

set_option Elab.async false

-- ## Decoding: the words are the manual's own, from its worked encodings and programs

theorem test_decode_nop : decodeWords [0x00000000#32] = .ins (.nop Mods.none) 1 := rfl
theorem test_decode_bra : decodeWords [0x01000003#32] = .ins (.bra Mods.none 3) 1 := rfl
theorem test_decode_brq : decodeWords [0x02300007#32] = .ins (.brq Mods.none 1 1 7) 1 := rfl
theorem test_decode_call : decodeWords [0x04FFFFFB#32] = .ins (.call Mods.none 0xFFFFFB) 1 := rfl
theorem test_decode_callr : decodeWords [0x05003200#32] = .ins (.callr Mods.none 0 100) 1 := rfl
theorem test_decode_jct : decodeWords [0x07000000#32] = .ins (.jct Mods.none) 1 := rfl
theorem test_decode_quit : decodeWords [0x09000000#32] = .ins (.quit Mods.none) 1 := rfl
theorem test_decode_kli : decodeWords [0xFE000020#32, 0x10184000#32] = .ins (.kli ⟨some 0x20, none⟩ 97 0) 2 := rfl
theorem test_decode_khi : decodeWords [0xFE000000#32, 0x115870C0#32] = .ins (.khi ⟨some 0, none⟩ 2 97 97 0x40) 2 := rfl
theorem test_decode_kadd : decodeWords [0x1338B160#32] = .ins (.kadd Mods.none 1 98 98 96) 1 := rfl
theorem test_decode_ksub : decodeWords [0xFE000000#32, 0x1439B301#32] = .ins (.ksub ⟨some 0, none⟩ 1 102 102 1) 2 := rfl
theorem test_decode_kshl : decodeWords [0xFE000000#32, 0x1C38FD03#32] = .ins (.kshl ⟨some 0, none⟩ 0 99 122 3) 2 := rfl
theorem test_decode_kcmp : decodeWords [0x213CBE78#32] = .ins (.kcmp Mods.none 1 114 124 120) 1 := rfl
theorem test_decode_kfromv : decodeWords [0x25394080#32] = .ins (.kfromv Mods.none 1 101 1) 1 := rfl
theorem test_decode_waitc : decodeWords [0x2803F03F#32] = .ins (.waitc Mods.none 0 63 0 63) 1 := rfl
theorem test_decode_gbar : decodeWords [0x29000000#32] = .ins (.gbar Mods.none) 1 := rfl
theorem test_decode_tarr : decodeWords [0x2A1E0000#32] = .ins (.tarr Mods.none 120) 1 := rfl
theorem test_decode_lease : decodeWords [0x2D184001#32] = .ins (.lease Mods.none 97 1) 1 := rfl
theorem test_decode_tmsk : decodeWords [0x33184001#32] = .ins (.tmsk Mods.none 97 1) 1 := rfl
theorem test_decode_srd : decodeWords [0x341B8016#32] = .ins (.srd Mods.none 110 0x16) 1 := rfl
theorem test_decode_swr : decodeWords [0x35003716#32] = .ins (.swr Mods.none 110 0x16) 1 := rfl
theorem test_decode_brk : decodeWords [0x36000005#32] = .ins (.brk Mods.none 5) 1 := rfl
theorem test_decode_tret : decodeWords [0x32000000#32] = .ins (.tret Mods.none) 1 := rfl
theorem test_decode_vadd : decodeWords [0xFE000000#32, 0x40414181#32] = .ins (.vadd ⟨some 0, none⟩ 2 5 3 1) 2 := rfl
theorem test_decode_vmax : decodeWords [0x48C24388#32] = .ins (.vmax Mods.none 6 9 7 8) 1 := rfl
theorem test_decode_vxor : decodeWords [0xFE0001FF#32, 0x4CC182FF#32] = .ins (.vxor ⟨some 0x1FF, none⟩ 6 6 5 0x7F) 2 := rfl
theorem test_decode_vclz : decodeWords [0x52C30580#32] = .ins (.vclz Mods.none 6 12 11) 1 := rfl
theorem test_decode_vli : decodeWords [0xFE7E0000#32, 0x57028000#32] = .ins (.vli ⟨some 0x7E0000, none⟩ 10 0) 2 := rfl
theorem test_decode_vcmpEq : decodeWords [0x58DC7CF8#32] = .ins (.vcmpEq Mods.none 6 113 121 120) 1 := rfl
theorem test_decode_qnot : decodeWords [0x631CB880#32] = .ins (.qnot Mods.none 114 113) 1 := rfl
theorem test_decode_ffma : decodeWords [0xFF521D10#32, 0x73210286#32] = .ins (.ffma ⟨none, some ⟨2, 1, 1, 7, 0, 4, 2⟩⟩ 1 4 5 6) 2 := rfl
theorem test_decode_fmax : decodeWords [0x752080F8#32] = .ins (.fmax Mods.none 1 2 1 120) 1 := rfl
theorem test_decode_fcvt : decodeWords [0xFF000200#32, 0x82814301#32] = .ins (.fcvt ⟨none, some ⟨0, 0, 0, 0, 1, 0, 0⟩⟩ 4 5 6 1) 2 := rfl
theorem test_decode_fcvtFromInt : decodeWords [0x82238712#32] = .ins (.fcvtFromInt Mods.none 1 14 14 2) 1 := rfl
theorem test_decode_srcp : decodeWords [0x90208180#32] = .ins (.srcp Mods.none 1 2 3) 1 := rfl
theorem test_decode_wmad : decodeWords [0x9800C205#32] = .ins (.wmad Mods.none 0 3 4 5) 1 := rfl
theorem test_decode_narrow : decodeWords [0x9C21C180#32] = .ins (.narrow Mods.none 1 7 3) 1 := rfl
theorem test_decode_shfl : decodeWords [0xA00080F8#32] = .ins (.shfl Mods.none 0 2 1 120) 1 := rfl
theorem test_decode_redg : decodeWords [0xA2A08080#32] = .ins (.redg Mods.none 5 2 1) 1 := rfl
theorem test_decode_vote : decodeWords [0xA142F980#32] = .ins (.vote Mods.none 2 11 115) 1 := rfl
theorem test_decode_vkey : decodeWords [0xA5408080#32] = .ins (.vkey Mods.none 2 2 1) 1 := rfl
theorem test_decode_ld32 : decodeWords [0xACA0F082#32] = .ins (.ld32 Mods.none 5 3 97 0 2) 1 := rfl
theorem test_decode_ldk : decodeWords [0xAF193180#32] = .ins (.ldk Mods.none 0 100 99 0 0) 1 := rfl
theorem test_decode_lds : decodeWords [0xB240B183#32] = .ins (.lds Mods.none 2 2 99 3) 1 := rfl
theorem test_decode_gtest : decodeWords [0xB31C4200#32] = .ins (.gtest Mods.none 113 4 0) 1 := rfl
theorem test_decode_gdem : decodeWords [0xFF400000#32, 0xB3400180#32] = .ins (.gdem ⟨none, some ⟨2, 0, 0, 0, 0, 0, 0⟩⟩ 3 0) 2 := rfl
theorem test_decode_st : decodeWords [0xFE000001#32, 0xFF200000#32, 0xB4427402#32] = .ins (.st ⟨some 1, some ⟨1, 0, 0, 0, 0, 0, 0⟩⟩ 2 9 104 0 2) 3 := rfl
theorem test_decode_stg : decodeWords [0xB640F100#32] = .ins (.stg Mods.none 2 3 98 0 0) 1 := rfl
theorem test_decode_sts : decodeWords [0xFF200000#32, 0xB740B200#32] = .ins (.sts ⟨none, some ⟨1, 0, 0, 0, 0, 0, 0⟩⟩ 2 2 100 0) 2 := rfl
theorem test_decode_aadd : decodeWords [0xFE000000#32, 0xB8010D01#32] = .ins (.aadd ⟨some 0, none⟩ 0 4 3 2 1) 2 := rfl
theorem test_decode_afadd : decodeWords [0xFF800000#32, 0xBA9E1987#32] = .ins (.afadd ⟨none, some ⟨4, 0, 0, 0, 0, 0, 0⟩⟩ 0 120 6 3 7) 2 := rfl
theorem test_decode_ldaq : decodeWords [0xBB004D66#32] = .ins (.ldaq Mods.none 0 1 3 2 102) 1 := rfl
theorem test_decode_strl : decodeWords [0xFE000000#32, 0xBC400A01#32] = .ins (.strl ⟨some 0, none⟩ 2 2 4 1) 2 := rfl
theorem test_decode_rfence : decodeWords [0xBD24F265#32] = .ins (.rfence Mods.none 2 3 100 101) 1 := rfl
theorem test_decode_xfence : decodeWords [0xBD408006#32] = .ins (.xfence Mods.none 2 6) 1 := rfl
theorem test_decode_lock : decodeWords [0xBE187100#32] = .ins (.lock Mods.none 97 98 0) 1 := rfl
theorem test_decode_hgive : decodeWords [0xC2048083#32] = .ins (.hgive Mods.none 1 8 2 3) 1 := rfl
theorem test_decode_tlds : decodeWords [0xC6627220#32] = .ins (.tlds Mods.none 3 9 100 1 0) 1 := rfl
theorem test_decode_twr : decodeWords [0xCA014386#32] = .ins (.twr Mods.none 0 5 7 6) 1 := rfl
theorem test_decode_mma : decodeWords [0xCC108309#32] = .ins (.mma Mods.none 4 8 12 1 1) 1 := rfl
theorem test_decode_mmac : decodeWords [0xCD108301#32] = .ins (.mmac Mods.none 4 8 12 0 1) 1 := rfl
theorem test_decode_tscl : decodeWords [0xCE14403D#32] = .ins (.tscl Mods.none 5 4 0x3D) 1 := rfl
theorem test_decode_cpy : decodeWords [0xD0393163#32] = .ins (.cpy Mods.none 1 100 98 99) 1 := rfl
theorem test_decode_cfill : decodeWords [0xD41933E3#32] = .ins (.cfill Mods.none 0 100 103 99) 1 := rfl
theorem test_decode_cstat : decodeWords [0xD5184000#32] = .ins (.cstat Mods.none 97) 1 := rfl
theorem test_decode_coll : decodeWords [0xD8187100#32] = .ins (.coll Mods.none 97 98) 1 := rfl
theorem test_decode_csigAdd : decodeWords [0xFE000000#32, 0xD9193281#32] = .ins (.csigAdd ⟨some 0, none⟩ 100 101 1) 2 := rfl
theorem test_decode_cwaitGe : decodeWords [0xDA3872E6#32] = .ins (.cwaitGe Mods.none 97 101 102) 1 := rfl
theorem test_decode_step : decodeWords [0xFE000000#32, 0xDB187108#32] = .ins (.step ⟨some 0, none⟩ 97 98 8) 2 := rfl
theorem test_decode_rpost : decodeWords [0xDC187163#32] = .ins (.rpost Mods.none 97 98 99) 1 := rfl

-- ## Words that are not instructions

/-- 0x3900_0000 has a reserved opcode byte (worked encodings). -/
theorem test_illegal_opcode : decodeWords [0x39000000#32] = .illegal ⟨.opcode, 15⟩ 1 := rfl
/-- Bits [2:0] of an OPX must be 0 (R52). -/
theorem test_illegal_opx_bits : decodeWords [0xFF000001#32, 0x40204081#32] = .illegal ⟨.reserved, 11⟩ 2 := rfl
/-- Two IMX in a row (R45). -/
theorem test_illegal_prefixes : decodeWords [0xFE000000#32, 0xFE000000#32] = .illegal ⟨.prefixSequence, 15⟩ 2 := rfl
/-- An IMX alone is not an instruction yet. -/
theorem test_short : decodeWords [0xFE000000#32] = .short := rfl
/-- The four words of the load at C + 0x58, byte by byte, low byte first (R9). -/
theorem test_decode_bytes : decodeBytes [1, 0, 0, 0xFE, 0x80, 0x72, 0, 0xAC, 7] = some (.ld32 ⟨some 1, none⟩ 0 1 101 0 0, [7]) := rfl
theorem test_table_word : decodeTableWord 32 0x1338B160 = some (.kadd Mods.none 1 98 98 96) := rfl
/-- 128 / 4 = 32 words: the IMX holds bits above the five of off5. -/
theorem test_encode : encode (.ld32 ⟨some 1, none⟩ 0 1 101 0 0) = [0xFE000001#32, 0xAC007280#32] := rfl

-- ## Ill-formed terms, one for each check of R62

/-- OPX rm = 7 is reserved. -/
theorem test_wf_rm : Instr.wf (.fadd ⟨none, some ⟨0, 0, 7, 0, 0, 0, 0⟩⟩ 1 1 2 3) = false := rfl
/-- fn 2 of JMP is not assigned. -/
theorem test_wf_fn : Instr.wf (.jmp Mods.none 2 97) = false := rfl
/-- Type code 6 is reserved for floating point. -/
theorem test_wf_type : Instr.wf (.fcvt Mods.none 6 1 2 1) = false := rfl
/-- System register 0x0A does not exist. -/
theorem test_wf_number : Instr.wf (.srd Mods.none 97 0x0A) = false := rfl
/-- Scope 5 is reserved. -/
theorem test_wf_scope : Instr.wf (.aadd Mods.none 0 1 2 5 3) = false := rfl
/-- An XFENCE names at least two paths. -/
theorem test_wf_paths : Instr.wf (.xfence Mods.none 2 4) = false := rfl
/-- HGIVE needs at least one taker. -/
theorem test_wf_takers : Instr.wf (.hgive Mods.none 0 8 0 3) = false := rfl
/-- Mode 6 of TZERO is ILLEGAL (R318). -/
theorem test_wf_mode : Instr.wf (.tzero Mods.none 4 6) = false := rfl
theorem test_wf_code127 : Instr.wf (.kadd Mods.none 1 97 127 98) = false := rfl
/-- A v register is no scalar source. -/
theorem test_wf_class : Instr.wf (.kadd Mods.none 1 97 5 98) = false := rfl
/-- A lane number is no destination. -/
theorem test_wf_dest : Instr.wf (.vadd Mods.none 2 121 1 2) = false := rfl
theorem test_wf_odd_pair : Instr.wf (.vadd Mods.none 3 3 2 4) = false := rfl
theorem test_wf_quad : Instr.wf (.ldv Mods.none 0 6 97 0 0) = false := rfl
theorem test_wf_base : Instr.wf (.ld32 Mods.none 0 1 5 0 0) = false := rfl
/-- An event has no encoding. -/
theorem test_wf_event : Instr.wf .heartbeatMiss = false := rfl
theorem test_wf_good : Instr.wf (.vadd Mods.none 3 4 2 6) = true := rfl

-- ## Small states

/-- One fibre, in lane 0 of group 0 of context 1 and grid 2 on core 0, about to issue at 0x8000; addresses 0 to 0xFFFF are mapped to themselves. -/
def lab : State := { State.reset.place [] with agenda := [], cur := ⟨0, [0], 0x8000, 1, 0, none, none⟩ }
/-- The fibre of `lab` changed. -/
def labOf (f : Fibre → Fibre) : State := lab.mapLanes 0 [0] (fun _ b => f b)
/-- The group of `lab` changed. -/
def labGroup (f : Group → Group) : State := lab.updGroup 0 f
/-- Two fibres in lanes 0 and 1. -/
def duo (f g : Fibre → Fibre) : State :=
  { labGroup (fun x => { x with fibres := [(0, f (x.fibre 0)), (1, g { (x.fibre 0) with uid := 9 })] }) with cur := ⟨0, [0, 1], 0x8000, 1, 0, none, none⟩ }
/-- A v register set. -/
def setV (i : Nat) (x : W32) (b : Fibre) : Fibre := { b with v := b.v.put i ⟨x, false, false⟩ }
/-- A v register set to a guessed value. -/
def setG (i : Nat) (x : W32) (b : Fibre) : Fibre := { b with v := b.v.put i ⟨x, true, false⟩ }
/-- A k register set. -/
def setK (i : Nat) (x : W64) (b : Fibre) : Fibre := { b with k := b.k.put i ⟨x, false, false⟩ }
/-- An accumulator set. -/
def setW (i : Nat) (x : W64) (b : Fibre) : Fibre := { b with w := b.w.put i ⟨x, false, false⟩ }
/-- What one reads off the next state, if there is one. -/
def after {α : Type} (o : Host.Outcome State Fault Refusal) (f : State → α) : Option α := match o with | .next t => some (f t) | _ => none
/-- A register of lane 0: its bits and tags. -/
def reg (r : Reg) (t : State) : Nat × Bool × Bool := let v := (t.lane 0 0).regVal r; (v.bits, v.g, v.p)
/-- The cause and subcode of the halt of context 1. -/
def trap (t : State) : Option (Nat × Nat) := (t.ctx 1).halt.map (fun h => (h.trap.cause, h.trap.sub))
/-- An OPX with sat. -/
def sat : Mods := ⟨none, some ⟨0, 0, 0, 0, 1, 0, 0⟩⟩
/-- An IMX of 0: b is an immediate of 7 bits. -/
def imm : Mods := ⟨some 0, none⟩

-- ## Control (R64 to R81)

theorem test_nop : after (exec (.nop Mods.none) lab) (fun t => (t.lane 0 0).pc) = some 0x8004 := by decide +kernel
/-- An IMX before NOP only sets WARN.IMX (R64). -/
theorem test_nop_imx : after (exec (.nop imm) lab) (fun t => t.here.warn != 0) = some true := by decide +kernel
theorem test_bra : after (exec (.bra Mods.none 0xFFFFFF) lab) (fun t => (t.lane 0 0).pc) = some 0x7FFC := by decide +kernel
theorem test_brq_falls : after (exec (.brq Mods.none 1 1 7) lab) (fun t => (t.lane 0 0).pc) = some 0x8004 := by decide +kernel
theorem test_jmp_misaligned : after (exec (.jmp Mods.none 0 97) (labOf (setK 1 0x9002))) trap = some (some (4, 2)) := by decide +kernel
theorem test_call : after (exec (.call Mods.none 4) lab) (fun t => ((t.lane 0 0).pc, (t.lane 0 0).stack)) = some (0x8010, [0x8004]) := by decide +kernel
/-- The fifth call spills the oldest entry (R73). -/
theorem test_call_spills : after (exec (.call Mods.none 4) ({ labOf (fun b => { b with stack := [4, 3, 2, 1] }) with grids := [(2, { Grid.none with ctx := 1, record := { Record.none with limit := 2 } })] }))
    (fun t => ((t.lane 0 0).stack, (t.lane 0 0).depth, (t.core 0).stores.vals.map Store.data)) = some ([0x8004, 4, 3, 2], 1, [[1, 0, 0, 0, 0, 0, 0, 0]]) := by decide +kernel
/-- With DEPTH = L the call traps (R73). -/
theorem test_call_full : after (exec (.call Mods.none 4) (labOf (fun b => { b with stack := [4, 3, 2, 1] }))) trap = some (some (11, 0)) := by decide +kernel
theorem test_ret : after (exec (.ret Mods.none) (labOf (fun b => { b with stack := [0x9000, 0x8800] }))) (fun t => ((t.lane 0 0).pc, (t.lane 0 0).stack)) = some (0x9000, [0x8800]) := by decide +kernel
theorem test_ret_empty : after (exec (.ret Mods.none) lab) trap = some (some (11, 1)) := by decide +kernel
theorem test_jct : after (exec (.jct Mods.none) lab) (fun t => ((t.lane 0 0).cw.ja, (t.lane 0 0).pc)) = some (true, 0x8000) := by decide +kernel
theorem test_junction_release : after (exec (.junctionRelease 0 0x8000) (labOf (fun b => { b with cw := { b.cw with ja := true } }))) (fun t => ((t.lane 0 0).cw.ja, (t.lane 0 0).pc)) = some (false, 0x8004) := by
  decide +kernel
theorem test_fork : after (exec (.fork Mods.none 0 101 102 103) (labOf (fun b => setK 7 0x300000 (setK 6 0x9000 b)))) (fun t => ((t.lane 0 1).pc, (t.lane 0 1).stackBase, reg ⟨.k, 5⟩ t)) =
    some (0x9000, 0x300, (1, false, false)) := by decide +kernel
theorem test_quit : after (exec (.quit Mods.none) lab) (fun t => t.here.live) = some [] := by decide +kernel
theorem test_win : after (exec (.win Mods.none 2) lab) (fun t => (t.lane 0 0).cw.wb) = some 2 := by decide +kernel
/-- 16 is no window base (R81). -/
theorem test_wadd_fault : after (exec (.wadd Mods.none 1) (labOf (fun b => { b with cw := { b.cw with wb := 15 } }))) trap = some (some (11, 2)) := by decide +kernel

-- ## Scalar instructions (R83 to R88)

/-- The constant of the worked encoding: 0x40_0000_1000. -/
theorem test_kli : after (exec (.kli ⟨some 0x20, none⟩ 97 0) lab) (reg ⟨.k, 1⟩) = some (0x1000, false, false) := by decide +kernel
theorem test_khi : after (exec (.khi imm 2 97 97 0x40) (labOf (setK 1 0x1000))) (reg ⟨.k, 1⟩) = some (0x4000001000, false, false) := by decide +kernel
theorem test_kadd_sat : after (exec (.kadd sat 2 97 98 99) (labOf (fun b => setK 3 1 (setK 2 0x7FFFFFFF b)))) (reg ⟨.k, 1⟩) = some (0x7FFFFFFF, false, false) := by decide +kernel
theorem test_kadd_wraps : after (exec (.kadd Mods.none 2 97 98 99) (labOf (fun b => setK 3 1 (setK 2 0x7FFFFFFF b)))) (reg ⟨.k, 1⟩) = some (0xFFFFFFFF80000000, false, false) := by decide +kernel
/-- z as destination discards (R56). -/
theorem test_kadd_z : after (exec (.kadd Mods.none 1 120 98 99) (labOf (setK 2 5))) (fun t => ((t.lane 0 0).k.keys, (t.lane 0 0).pc)) = some ([2], 0x8004) := by decide +kernel
theorem test_kmulh : after (exec (.kmulh Mods.none 0 97 98 99) (labOf (fun b => setK 3 2 (setK 2 (-1) b)))) (reg ⟨.k, 1⟩) = some (0xFFFFFFFFFFFFFFFF, false, false) := by decide +kernel
/-- A zero divisor gives all ones in the width (R85). -/
theorem test_kdiv_zero : after (exec (.kdiv Mods.none 3 97 98 99) (labOf (setK 2 7))) (reg ⟨.k, 1⟩) = some (0xFFFFFFFF, false, false) := by decide +kernel
theorem test_krem_sign : after (exec (.krem imm 0 97 98 2) (labOf (setK 2 (-7)))) (reg ⟨.k, 1⟩) = some (0xFFFFFFFFFFFFFFFF, false, false) := by decide +kernel
theorem test_kshl_width : after (exec (.kshl imm 1 97 98 33) (labOf (setK 2 0x80000001))) (reg ⟨.k, 1⟩) = some (2, false, false) := by decide +kernel
theorem test_kclz_zero : after (exec (.kclz Mods.none 1 97 98) lab) (reg ⟨.k, 1⟩) = some (32, false, false) := by decide +kernel
theorem test_kcmp : after (exec (.kcmp Mods.none 2 113 98 99) (labOf (setK 2 (-1)))) (reg ⟨.q, 1⟩) = some (1, false, false) := by decide +kernel
/-- Only the selected source's tags count, with those of the predicate (R87). -/
theorem test_kfromv : after (exec (.kfromv Mods.none 1 101 1) (labOf (setG 1 0x80000000))) (reg ⟨.k, 5⟩) = some (0xFFFFFFFF80000000, true, false) := by decide +kernel

-- ## Vector integers (R157 to R162), with the lanes of the manual's example

theorem test_vadd_sat : after (exec (.vadd sat 2 3 1 2) (labOf (fun b => setV 2 0x20 (setV 1 0x7FFFFFF0 b)))) (reg ⟨.v, 3⟩) = some (0x7FFFFFFF, false, false) := by decide +kernel
theorem test_vadd_wraps : after (exec (.vadd Mods.none 2 3 1 2) (labOf (fun b => setV 2 0x20 (setV 1 0x7FFFFFF0 b)))) (reg ⟨.v, 3⟩) = some (0x80000010, false, false) := by decide +kernel
theorem test_vdiv_trunc : after (exec (.vdiv Mods.none 2 3 1 2) (labOf (fun b => setV 2 2 (setV 1 (-7) b)))) (reg ⟨.v, 3⟩) = some (0xFFFFFFFD, false, false) := by decide +kernel
theorem test_vdiv_least : after (exec (.vdiv Mods.none 2 3 1 2) (labOf (fun b => setV 2 (-1) (setV 1 0x80000000 b)))) (reg ⟨.v, 3⟩) = some (0x80000000, false, false) := by decide +kernel
theorem test_vrem_zero : after (exec (.vrem Mods.none 2 3 1 2) (labOf (setG 1 9))) (fun t => (reg ⟨.v, 3⟩ t, t.here.warn.getLsbD 6)) = some ((0xFFFFFFFF, true, false), true) := by decide +kernel
/-- An 8-bit signed result is sign-extended (R146). -/
theorem test_vshl_s8 : after (exec (.vshl imm 0 3 1 1) (labOf (setV 1 0x40))) (reg ⟨.v, 3⟩) = some (0xFFFFFF80, false, false) := by decide +kernel
theorem test_vabs_least : after (exec (.vabs sat 2 3 1) (labOf (setV 1 0x80000000))) (reg ⟨.v, 3⟩) = some (0x7FFFFFFF, false, false) := by decide +kernel
theorem test_vmad_pair : after (exec (.vmad Mods.none 3 4 6 8) (labOf (fun b => setV 8 (-1) (setV 9 (-1) (setV 6 3 b))))) (fun t => (reg ⟨.v, 4⟩ t, reg ⟨.v, 5⟩ t)) =
    some ((0xFFFFFFFD, false, false), (0xFFFFFFFF, false, false)) := by decide +kernel
theorem test_vclz : after (exec (.vclz Mods.none 6 12 11) (labOf (setV 11 0x100))) (reg ⟨.v, 12⟩) = some (23, false, false) := by decide +kernel
theorem test_vli : after (exec (.vli ⟨some 0x7E0000, none⟩ 10 0) lab) (reg ⟨.v, 10⟩) = some (0x3F000000, false, false) := by decide +kernel
theorem test_vcmp : after (exec (.vcmpLt imm 6 115 121 4) (duo id id)) (fun t => ((t.lane 0 0).cw.q.toNat, (t.lane 0 1).cw.q.toNat)) = some (8, 8) := by decide +kernel
/-- A masked-off lane keeps its destination, with the mask's tags (R155). -/
theorem test_masked : after (exec (.vmov ⟨none, some ⟨1, 0, 0, 0, 0, 0, 0⟩⟩ 0 3 1) (labOf (fun b => setV 3 7 (setV 1 5 b)))) (reg ⟨.v, 3⟩) = some (7, false, false) := by decide +kernel
theorem test_masked_zero : after (exec (.vmov ⟨none, some ⟨1, 1, 0, 0, 0, 0, 0⟩⟩ 0 3 1) (labOf (fun b => setV 3 7 (setV 1 5 b)))) (reg ⟨.v, 3⟩) = some (0, false, false) := by decide +kernel
/-- last:a frees the source (R54). -/
theorem test_last_use : after (exec (.vmov ⟨none, some ⟨0, 0, 0, 0, 0, 4, 0⟩⟩ 0 3 1) (labOf (setV 1 5))) (fun t => (reg ⟨.v, 3⟩ t, reg ⟨.v, 1⟩ t)) = some ((5, false, false), (0, false, false)) := by
  decide +kernel

-- ## Floating point, special functions, accumulators (R147 to R184)

/-- 1.0 + 2^24 rounds to even, with NX (the accumulator example). -/
theorem test_ffma : after (exec (.ffma Mods.none 1 8 6 6) (labOf (fun b => setV 8 0x4B800000 (setV 6 0x3F800000 b)))) (fun t => (reg ⟨.v, 8⟩ t)) = some (0x4B800000, false, false) := by decide +kernel
theorem test_fmax_zero : after (exec (.fmax Mods.none 1 2 1 120) (labOf (setV 1 0x80000000))) (reg ⟨.v, 2⟩) = some (0, false, false) := by decide +kernel
theorem test_fmax_nan : after (exec (.fmax Mods.none 1 2 1 120) (labOf (setV 1 0x7FC01234))) (reg ⟨.v, 2⟩) = some (0x7FC00000, false, false) := by decide +kernel
theorem test_fcvt_300 : after (exec (.fcvt sat 4 5 6 1) (labOf (setV 6 0x43960000))) (reg ⟨.v, 5⟩) = some (0x79, false, false) := by decide +kernel
theorem test_fcvt_500 : after (exec (.fcvt sat 4 5 6 1) (labOf (setV 6 0x43FA0000))) (reg ⟨.v, 5⟩) = some (0x7E, false, false) := by decide +kernel
theorem test_fcvt_to_int : after (exec (.fcvtToInt Mods.none 2 5 6 1) (labOf (setV 6 0xC0200000))) (reg ⟨.v, 5⟩) = some (0xFFFFFFFE, false, false) := by decide +kernel
theorem test_fcmp_nan : after (exec (.fcmpUn Mods.none 1 113 1 2) (labOf (setV 1 0x7FC00000))) (reg ⟨.q, 1⟩) = some (1, false, false) := by decide +kernel
theorem test_hadd2 : after (exec (.hadd2 Mods.none 0 3 1 2) (labOf (fun b => setV 2 0x3C003C00 (setV 1 0x40003C00 b)))) (reg ⟨.v, 3⟩) = some (0x42004000, false, false) := by decide +kernel
/-- SRCP of 4.0 is exact, and SEXP2 of 3.0 (R175). -/
theorem test_srcp : after (exec (.srcp Mods.none 1 2 3) (labOf (setV 3 0x40800000))) (reg ⟨.v, 2⟩) = some (0x3E800000, false, false) := by decide +kernel
theorem test_sexp2 : after (exec (.sexp2 Mods.none 1 2 3) (labOf (setV 3 0x40400000))) (reg ⟨.v, 2⟩) = some (0x41000000, false, false) := by decide +kernel
theorem test_ssin : after (exec (.ssin Mods.none 1 2 3) (labOf (setV 3 0xC0400000))) (reg ⟨.v, 2⟩) = some (0x80000000, false, false) := by decide +kernel
/-- SRCP of 2^126 is 2^-126, the least normal number (R175). -/
theorem test_srcp_least : after (exec (.srcp Mods.none 1 2 3) (labOf (setV 3 0x7E800000))) (reg ⟨.v, 2⟩) = some (0x00800000, false, false) := by decide +kernel
/-- `qxor q2, q2, q2` clears q2 together with its tags (R172). -/
theorem test_qxor_clears : after (exec (.qxor Mods.none 114 114 114) (labOf (fun b => { b with cw := { b.cw with q := 4, qg := 4, qp := 4 } }))) (reg ⟨.q, 2⟩) = some (0, false, false) := by decide +kernel
/-- 16,777,217 in binary64, and narrowed from 16,777,218 (the accumulator example). -/
theorem test_wmad : after (exec (.wmad Mods.none 0 3 6 6) (labOf (fun b => setV 6 0x3F800000 (setW 3 0x4170000000000000 b)))) (reg ⟨.w, 3⟩) = some (0x4170000010000000, false, false) := by decide +kernel
theorem test_narrow : after (exec (.narrow Mods.none 1 7 3) (labOf (setW 3 0x4170000020000000))) (reg ⟨.v, 7⟩) = some (0x4B800001, false, false) := by decide +kernel
theorem test_wclr : after (exec (.wclr Mods.none 3) (labOf (setW 3 5))) (reg ⟨.w, 3⟩) = some (0, false, false) := by decide +kernel
/-- An enabled invalid operation with a clean result traps (R153). -/
theorem test_fp_trap : after (exec (.fadd Mods.none 1 3 1 2) { labOf (fun b => setV 2 0xFF800000 (setV 1 0x7F800000 b)) with groups := (labOf (fun b => setV 2 0xFF800000 (setV 1 0x7F800000 b))).groups.adjust 0 (fun x => { x with fpmode := 0x80 }) })
    (fun t => (trap t).isSome) = some true := by decide +kernel

-- ## The cross-lane network (R185 to R195)

/-- Lane 1 is guessed, so every lane's result is (R186). -/
theorem test_shflx : after (exec (.shflx imm 0 6 5 1) (duo (setV 5 10) (setG 5 20))) (fun t => (reg ⟨.v, 6⟩ t, ((t.lane 0 1).regVal ⟨.v, 6⟩).bits)) = some ((20, true, false), 10) := by decide +kernel
theorem test_vote_ballot : after (exec (.vote Mods.none 2 11 115) (duo (fun b => { b with cw := { b.cw with q := 8 } }) id)) (reg ⟨.v, 11⟩) = some (1, false, false) := by decide +kernel
theorem test_vkey_minus_one : after (exec (.vkey Mods.none 2 2 1) (labOf (setV 1 0xBC00))) (reg ⟨.v, 2⟩) = some (0x43FF, false, false) := by decide +kernel
theorem test_vkey_nan : after (exec (.vkey Mods.none 2 2 1) (labOf (setV 1 0xFE01))) (reg ⟨.v, 2⟩) = some (0xFFFF, false, false) := by decide +kernel

-- ## Memory (R197 to R262)

/-- The state after an instruction or event, for building small states. -/
def next (i : Instr) (s : State) : State := match exec i s with | .next t => t | _ => s
/-- Bytes put into memory. -/
def put (a : Nat) (bytes : List Byte) (s : State) : State := s.sysWrite a bytes false
/-- `lab` with k1 at 0x1000, k2 = 7, and a scratch window of 4 KiB for its context. -/
def mem : State := { labOf (fun b => setK 2 7 (setK 1 0x1000 b)) with ctxs := [(1, { Ctx.none with stopSize := 13, scratch := 0x1000 })] }
/-- 11 22 33 … 88 at 0x1008. -/
def eight : List Byte := [0x11, 0x22, 0x33, 0x44, 0x55, 0x66, 0x77, 0x88]
/-- A 32-bit load from 0x1008 into v3, with limit code 1, in flight. -/
def loading : State := next (.ld32 Mods.none 1 3 97 3 2) (put 0x1008 eight mem)
/-- As many clocks on. -/
def later (n : Nat) (s : State) : State := { s with clocks := s.clocks + n }

/-- The offset of LD is counted in accesses (R226), the load is counted (R19) and v3 is interlocked (R16). -/
theorem test_ld32 : (loading.here.loads, (loading.core 0).loads.vals.flatMap (fun w => w.lanes.vals.map LaneLoad.pa), (loading.lane 0 0).locks.map Lock.reg) =
    (1, [some 0x1008], [⟨.v, 3⟩]) := by decide +kernel
theorem test_ld64_misaligned : after (exec (.ld64 Mods.none 0 4 97 0 0) (labOf (setK 1 0x1004))) trap = some (some (4, 2)) := by decide +kernel
/-- Nothing maps 0x2_0000: the load waits for the supervisor, and its fibre runs on (R208). -/
theorem test_ld_unmapped : after (exec (.ld32 Mods.none 0 3 97 0 0) (labOf (setK 1 0x20000))) (fun t => (t.here.held.map Held.vas, (t.lane 0 0).pc, t.here.loads)) =
    some ([[0x20000]], 0x8004, 1) := by decide +kernel
/-- A poisoned base is HWERR with SUB 1 (R226, R133). -/
theorem test_ld_poisoned : after (exec (.ld32 Mods.none 0 3 97 0 0) (labOf (fun b => { b with k := b.k.put 1 ⟨0x1000, false, true⟩ }))) trap = some (some (8, 1)) := by
  decide +kernel
theorem test_load_arrives : after (exec (.loadDataArrival 0 4 0) loading) (fun t => (reg ⟨.v, 3⟩ t, t.here.loads, (t.lane 0 0).locks)) = some ((0x44332211, false, false), 0, []) := by
  decide +kernel
theorem test_ld_s16 : after (exec (.loadDataArrival 0 4 0) (next (.ldS16 Mods.none 0 3 97 3 7) (put 0x1008 eight mem))) (reg ⟨.v, 3⟩) = some (0xFFFF8877, false, false) := by
  decide +kernel
theorem test_ldk : after (exec (.loadDataArrival 0 4 0) (next (.ldk Mods.none 0 99 97 3 1) (put 0x1008 eight mem))) (reg ⟨.k, 3⟩) = some (0x8877665544332211, false, false) := by
  decide +kernel
/-- The deadline of limit code 1: nothing before it, and after it the guess 0 with G = 1 and a ticket (R222, R230, R233). -/
theorem test_deadline : after (exec (.deadlineExpiry 0 4 0) (later 1000000 loading)) (fun t => (reg ⟨.v, 3⟩ t, (t.core 0).tickets.length)) = some ((0, true, false), 1) := by
  decide +kernel
theorem test_deadline_early : after (exec (.deadlineExpiry 0 4 0) loading) (fun t => (t.core 0).tickets.length) = some 0 := by decide +kernel
/-- The truth 0x44332211 is not the guess: the guess-miss bit is set (R232). -/
theorem test_truth : after (exec (.ticketTruthArrival 0 5) (next (.deadlineExpiry 0 4 0) (later 1000000 loading))) (fun t => ((t.lane 0 0).gm, t.here.loads)) = some (true, 0) := by
  decide +kernel
/-- GDEM with the truth there gives it (R240). -/
theorem test_gdem : after (exec (.gdem Mods.none 3 0) (next (.ticketTruthArrival 0 5) (next (.deadlineExpiry 0 4 0) (later 1000000 loading)))) (reg ⟨.v, 3⟩) =
    some (0x44332211, false, false) := by decide +kernel
theorem test_gchk : after (exec (.gchk Mods.none 113 3 0) (next (.ticketTruthArrival 0 5) (next (.deadlineExpiry 0 4 0) (later 1000000 loading)))) (reg ⟨.q, 1⟩) =
    some (1, false, false) := by decide +kernel
theorem test_gtest : after (exec (.gtest Mods.none 113 4 0) (labOf (setG 4 9))) (reg ⟨.q, 1⟩) = some (1, false, false) := by decide +kernel
theorem test_gacc : after (exec (.gacc Mods.none 4 0) (labOf (setG 4 9))) (reg ⟨.v, 4⟩) = some (9, false, false) := by decide +kernel

/-- A store of the low two bytes of v2 at k1 + 2 × 3, not yet performed (R241). -/
theorem test_st : after (exec (.st Mods.none 1 2 97 0 3) (labOf (fun b => setV 2 0xAABBCCDD (setK 1 0x1000 b)))) (fun t => ((t.core 0).stores.vals.map (fun w => (w.pa, w.data)),
    t.here.stores, t.byteAt 0x1006)) = some ([(0x1006, [0xDD, 0xCC])], 1, 0) := by decide +kernel
/-- A guessed datum is GUESS with SUB 1 (R241), but STG stores it. -/
theorem test_st_guessed : after (exec (.st Mods.none 2 2 97 0 0) (labOf (fun b => setG 2 5 (setK 1 0x1000 b)))) trap = some (some (3, 1)) := by decide +kernel
theorem test_stg : after (exec (.stg Mods.none 2 2 97 0 0) (labOf (fun b => setG 2 5 (setK 1 0x1000 b)))) (fun t => (t.core 0).stores.vals.map Store.data) = some [[5, 0, 0, 0]] := by
  decide +kernel
/-- Accepted and then performed for the die: the L2 owns the line and memory is older (R201, R244). -/
theorem test_store_performed : after (exec (.storePerformed 0 5) (next (.storePerformed 0 4) (next (.st Mods.none 2 2 97 0 0) (labOf (fun b => setV 2 5 (setK 1 0x1000 b))))))
    (fun t => (t.byteAt 0x1000, Memory.read t.mem 0x1000, ((t.die 0).l2.find? 0x1000).map L2Line.dirty)) = some (5, 0, some true) := by decide +kernel
/-- A range beyond the scratch window is MEMORY with SUB 1 (R197). -/
theorem test_sts_window : after (exec (.sts Mods.none 2 2 97 0) mem) trap = some (some (4, 1)) := by decide +kernel
/-- A poisoned operand is HWERR with SUB 2 (R249). -/
theorem test_aadd_poisoned : after (exec (.aadd Mods.none 0 3 1 3 2) (labOf (fun b => { setK 1 0x1000 b with v := b.v.put 2 ⟨5, false, true⟩ }))) trap = some (some (8, 2)) := by
  decide +kernel
/-- v3 receives the old value and memory the sum (R248). -/
theorem test_aadd : after (exec (.atomicPerformed 0 4 0) (next (.atomicPerformed 0 4 0) (next (.aadd Mods.none 0 3 1 3 2) (put 0x1000 [9] (labOf (fun b => setV 2 5 (setK 1 0x1000 b)))))))
    (fun t => (reg ⟨.v, 3⟩ t, t.byteAt 0x1000, t.here.loads)) = some ((9, false, false), 14, 0) := by decide +kernel
/-- The immediate of AFADD `.f32` supplies the upper 31 bits of the binary32 value, here 1.0 (R50). -/
theorem test_afadd_imm : after (exec (.afadd ⟨some 0x3F8000, none⟩ 0 3 1 3 0) (labOf (setK 1 0x1000))) (fun t => (t.core 0).atomics.vals.flatMap (fun w => w.lanes.vals.map LaneAtomic.b)) = some [0x3F800000] := by
  decide +kernel
/-- ACAS compares with d: 9 is not 8, so memory stays (R248). -/
theorem test_acas : after (exec (.atomicPerformed 0 4 0) (next (.atomicPerformed 0 4 0) (next (.acas Mods.none 0 3 1 3 2) (put 0x1000 [9] (labOf (fun b => setV 3 8 (setV 2 5 (setK 1 0x1000 b))))))))
    (fun t => (reg ⟨.v, 3⟩ t, t.byteAt 0x1000)) = some ((9, false, false), 9) := by decide +kernel
theorem test_fence : after (exec (.fence Mods.none 0 3) lab) (fun t => (t.lane 0 0).pc) = some 0x8004 := by decide +kernel
/-- A store before it is not performed: the fibre waits (R257). -/
theorem test_fence_waits : after (exec (.fence Mods.none 2 3) (next (.st Mods.none 2 2 97 0 0) mem)) (fun t => (t.lane 0 0).wait != .free) = some true := by decide +kernel
/-- LK = 0 in the page: status 3 (R220). -/
theorem test_lock : after (exec (.lock Mods.none 99 97 0) mem) (reg ⟨.k, 3⟩) = some (3, false, false) := by decide +kernel
theorem test_unlock : after (exec (.unlock Mods.none 99 97 0) mem) (reg ⟨.k, 3⟩) = some (1, false, false) := by decide +kernel
/-- Nothing holds the line: there is no write-back to wait for (R262). -/
theorem test_cinv : after (exec (.cinv Mods.none 97 0) mem) (fun t => (t.here.stores, (t.lane 0 0).pc)) = some (0, 0x8004) := by decide +kernel
/-- A value of which LDAQ waits for an earlier load of the fibre (R253). -/
theorem test_ldaq : after (exec (.loadDataArrival 0 5 0) (next (.ldaq Mods.none 0 4 1 3 120) loading)) (fun t => t.here.loads) = some 2 := by decide +kernel
/-- PF asks for the line (R229). -/
theorem test_pf : after (exec (.pf Mods.none 0 97 0 1) mem) (fun t => ((t.core 0).fills.keys, t.here.loads)) = some ([0x1080], 0) := by decide +kernel

-- ## Traps, halts and system registers (R118 to R145)

theorem test_trap : after (exec (.trap Mods.none 5) lab) (fun t => ((t.ctx 1).halt.map (fun h => (h.trap.cause, h.trap.sub, h.trap.val, h.epc)), (t.lane 0 0).pc)) =
    some (some (10, 1, 5, 0x8004), 0x8004) := by decide +kernel
theorem test_brk : after (exec (.brk Mods.none 5) lab) (fun t => ((t.ctx 1).halt.map (fun h => (h.trap.cause, h.trap.sub, h.epc)), (t.lane 0 0).pc)) = some (some (10, 0, 0x8000), 0x8000) := by
  decide +kernel
/-- q1 = 0 is not the wanted 1: the context halts with REASON 4 (R141). -/
theorem test_assert : after (exec (.assertQ Mods.none 0 113 97) (labOf (setK 1 0x1234))) (fun t => (t.ctx 1).halt.map (fun h => (h.reason, h.trap.cause, h.trap.val))) = some (some (4, 9, 0x1234)) := by
  decide +kernel
theorem test_halt : after (exec (.halt Mods.none) lab) (fun t => (t.ctx 1).halt.map (fun h => (h.reason, h.incomplete))) = some (some (3, false)) := by decide +kernel
theorem test_tmsk : after (exec (.tmsk Mods.none 97 1) lab) (fun t => (reg ⟨.k, 1⟩ t, t.here.m)) = some ((0, false, false), true) := by decide +kernel
/-- Outside a handler TRET is ILLEGAL with SUB 1 (R144). -/
theorem test_tret_outside : after (exec (.tret Mods.none) lab) trap = some (some (1, 1)) := by decide +kernel
theorem test_tret : after (exec (.tret Mods.none) { labOf (fun b => { b with epc := 0x9000, fcw := Fcw.reset, tsc0 := ⟨7, true, false⟩ }) with
    groups := (labOf (fun b => { b with epc := 0x9000, fcw := Fcw.reset, tsc0 := ⟨7, true, false⟩ })).groups.adjust 0 (fun x => { x with h := true, m := true }) })
    (fun t => ((t.lane 0 0).pc, reg ⟨.k, 14⟩ t, t.here.h, t.here.m)) = some (0x9000, (7, true, false), false, false) := by decide +kernel
theorem test_srd_vfid : after (exec (.srd Mods.none 97 6) lab) (reg ⟨.k, 1⟩) = some (1, false, false) := by decide +kernel
/-- LIMIT of GLIM has 24 bits (R223). -/
theorem test_swr : after (exec (.swr Mods.none 97 1) (labOf (setK 1 0xFF000123))) (fun t => (t.lane 0 0).glim) = some 0x123 := by decide +kernel
theorem test_swr_illegal : after (exec (.swr Mods.none 97 0x12) lab) trap = some (some (1, 1)) := by decide +kernel
/-- A halt of context 1 for a trap or for another reason, in a phase. -/
def aHalt (reason : Nat) (phase : Phase) (reached : List (Nat × Nat)) (due : List Due) (stopped : List Stop) : Halt :=
  ⟨reason, 0, ⟨10, 1, 0, 0, 0, 1, 5, false⟩, [0], false, none, 0x8004, phase, 0, reached, none, [], due, stopped, 0⟩
def halted (h : Halt) : State := { lab with ctxs := [(1, { Ctx.none with stopSize := 13, stopBase := 0x40000, entry := 0x2400#62, halt := some h })] }
def settled (reason : Nat) : Halt := aHalt reason .stopping [(0, 0)] [⟨0, 0, 0, 0⟩] [⟨0, 0, 0, 0, (0, 0, 0, 0)⟩]
/-- The handler is entered: EPC, the save slot in k14 and the handler's address (R136, R138). -/
theorem test_handler : after (exec (.haltCompletion 1) (halted (settled 0))) (fun t => ((t.lane 0 0).pc, (t.lane 0 0).epc, reg ⟨.k, 14⟩ t, t.here.cause.toNat, t.here.h)) = some (0x9000, 0x8000, (0x40800, false, false), 10, true) := by
  decide +kernel

-- ## Barriers, waits and leases (R106, R112 to R119)

theorem test_waitc : after (exec (.waitc Mods.none 0 63 63 63) loading) (fun t => (t.lane 0 0).wait) = some (.counters 0 63 63 63 1) := by decide +kernel
theorem test_gbar : after (exec (.barrierArrival 0 0) (next (.gbar Mods.none) lab)) (fun t => (t.lane 0 0).pc) = some 0x8004 := by decide +kernel
theorem test_gbar_two : after (exec (.barrierArrival 0 0) (next (.gbar Mods.none) (duo id id))) (fun t => ((t.lane 0 0).pc, (t.group 0).arrivals)) = some (0x8000, [0]) := by decide +kernel
theorem test_tarr : after (exec (.barrierArrival 0 0) (next (.tarr Mods.none 97) lab)) (fun t => (reg ⟨.k, 1⟩ t, (t.teamOf t.here).phase)) = some ((0, false, false), 1) := by decide +kernel
/-- The budget of a track is an eighth of 192 KiB (R104), and a lease is at most that. -/
theorem test_lease : after (exec (.lease Mods.none 97 63) lab) (reg ⟨.k, 1⟩) = some (24, false, false) := by decide +kernel

-- ## Tiles (R301 to R325)

/-- Handle h4 owned, of kind accumulator. -/
def tiled : State := labGroup (fun x => { x with handles := [(4, ⟨true, false, 2, none⟩), (8, ⟨true, false, 0, none⟩), (12, ⟨true, false, 1, none⟩)] })
theorem test_halloc : after (exec (.halloc Mods.none 5 1) lab) (fun t => t.here.handle 5) = some ⟨true, false, 1, none⟩ := by decide +kernel
theorem test_halloc_owned : after (exec (.halloc Mods.none 4 1) tiled) trap = some (some (5, 3)) := by decide +kernel
theorem test_hrel : after (exec (.hrel Mods.none 4) tiled) (fun t => t.here.handle 4) = some ⟨false, true, 0, none⟩ := by decide +kernel
theorem test_htake : after (exec (.htake Mods.none 6 3) (next (.hgive Mods.none 0 4 1 3) tiled)) (fun t => (t.here.handle 4, t.here.handle 6)) = some (⟨false, true, 0, none⟩, ⟨true, false, 2, none⟩) := by
  decide +kernel
theorem test_hinfo : after (exec (.hinfo Mods.none 1 4) tiled) (reg ⟨.k, 1⟩) = some (0x21, false, false) := by decide +kernel
/-- TZERO of an accumulator: mode 0 (R318), a version of zeros once it is performed. -/
theorem test_tzero : after (exec (.tileOperationRetire 0 4) (next (.tzero Mods.none 4 0) tiled)) (fun t => (t.here.tiles, t.slots.vals.map (fun v => (v.acc, v.tag, v.data.length)))) =
    some (0, [(true, 0, 1024)]) := by decide +kernel
/-- h8 holds no kind that TZERO of an accumulator takes: HANDLE with SUB 2 (R306). -/
theorem test_tzero_kind : after (exec (.tzero Mods.none 8 0) tiled) trap = some (some (5, 2)) := by decide +kernel
/-- An e4m3 A of ones (0x38) and a B of twos (0x40), with an MMA of them in flight. -/
def product : State :=
  let u := labGroup (fun x => { x with handles := [(4, ⟨true, false, 2, none⟩), (8, ⟨true, false, 0, some 90⟩), (12, ⟨true, false, 1, some 91⟩)] })
  let tile := fun (b : Byte) => (⟨1, 0, false, 1, List.replicate 512 b, [], false, none, none, true, 0, none⟩ : Slot)
  next (.mma Mods.none 4 8 12 0 1) { u with slots := [(90, tile 0x38), (91, tile 0x40)] }
/-- Each element is 32 × 1 × 2 = 64.0 (R296). -/
theorem test_mma : after (exec (.matrixPass 0 [16]) product) (fun t => (t.slots.vals.filter (fun v => v.acc)).map (fun v => v.data.take 8)) = some [[0, 0, 0x80, 0x42, 0, 0, 0x80, 0x42]] := by
  decide +kernel
theorem test_mma_retires : after (exec (.tileOperationRetire 0 4) (next (.matrixPass 0 [16]) product)) (fun t => t.here.tiles) = some 0 := by decide +kernel
/-- It waits for its quarters (R324). -/
theorem test_mma_waits : after (exec (.tileOperationRetire 0 4) product) (fun t => t.here.tiles) = some 1 := by decide +kernel

-- ## Copies (R330 to R343)

/-- A copy of 8 bytes from 0x1008 to 0x1100. -/
def copying : State := next (.cpy ⟨some 0, none⟩ 0 98 97 8) (put 0x1008 eight (labOf (fun b => setK 2 0x1100 (setK 1 0x1008 b))))
theorem test_cpy : (copying.here.copies, copying.byteAt 0x1100, (copying.core 0).copies.vals.map (fun c => (c.rows, c.rowBytes))) = (1, 0, [(1, 8)]) := by decide +kernel
theorem test_copy_piece : after (exec (.copyPiece 0 ((copying.core 0).copies.keys.headD 0)) copying) (fun t => (t.byteAt 0x1100, t.byteAt 0x1107, (t.core 0).copies.vals.map Copy.ended)) =
    some (0x11, 0x88, [true]) := by decide +kernel
theorem test_copy_retires : after (exec (.copyRetire 0 ((copying.core 0).copies.keys.headD 0)) (next (.copyPiece 0 ((copying.core 0).copies.keys.headD 0)) copying)) (fun t => t.here.copies) = some 0 := by
  decide +kernel
/-- LEN must be a multiple of 4 (R331). -/
theorem test_cpy_misaligned : after (exec (.cpy ⟨some 0, none⟩ 0 98 97 6) (labOf (fun b => setK 2 0x1100 (setK 1 0x1008 b)))) trap = some (some (4, 2)) := by decide +kernel
theorem test_cfill : after (exec (.copyPiece 0 4) (next (.cfill ⟨some 0, none⟩ 0 98 97 8) (labOf (fun b => setK 2 0x1100 (setK 1 0x0807060504030201 b))))) (fun t => (t.byteAt 0x1100, t.byteAt 0x1107)) =
    some (1, 8) := by decide +kernel
/-- COUNT in [31:16] (R343). -/
theorem test_cstat : after (exec (.cstat Mods.none 99) copying) (reg ⟨.k, 3⟩) = some (0x800010000, false, false) := by decide +kernel

-- ## The fabric (R345 to R363)

/-- A record of zeros is malformed: its count is 0 (R355). -/
theorem test_coll : after (exec (.coll Mods.none 97 98) (labOf (setK 2 0x1000))) (fun t => (reg ⟨.k, 1⟩ t, t.byteAt 0x1000)) = some ((2, false, false), 3) := by decide +kernel
theorem test_csig_target : after (exec (.csigSet Mods.none 97 98 99) (labOf (setK 2 0x1000))) trap = some (some (6, 1)) := by decide +kernel
/-- A communicator 0 of two ranks for VF 0. -/
def ranked : State := { labOf (setK 2 0x1000) with vfs := lab.vfs.adjust 0 (fun v => { v with comms := [(0, ⟨0, [(5, 1), (6, 2)]⟩)] }) }
theorem test_csig : after (exec (.csigAdd ⟨some 0, none⟩ 97 98 3) ranked) (fun t => (t.sent, (t.lane 0 0).pc)) = some ([.signal 5 1 0x1000 3 true], 0x8004) := by decide +kernel
theorem test_rpost : after (exec (.rpostReply 4 7) (next (.rpost Mods.none 97 98 99) ranked)) (reg ⟨.k, 1⟩) = some (7, false, false) := by decide +kernel
/-- The word 0 is at least 0: the wait ends with the word in d (R361). -/
theorem test_cwait : after (exec (.cwaitReread 0 0) (next (.cwaitGe ⟨some 0, none⟩ 97 98 0) ranked)) (fun t => (reg ⟨.k, 1⟩ t, (t.lane 0 0).pc)) = some ((0, false, false), 0x8004) := by decide +kernel
theorem test_step_ratio : after (exec (.step ⟨some 0, none⟩ 97 98 3) ranked) trap = some (some (6, 1)) := by decide +kernel
theorem test_step : after (exec (.stepApply 0 0) (next (.step ⟨some 0, none⟩ 97 99 8) ranked)) (reg ⟨.k, 1⟩) = some (8, false, false) := by decide +kernel
/-- LNCH to a queue that is not there: status 3 (R119). -/
theorem test_lnch : after (exec (.lnch Mods.none 97 98 99) ranked) (reg ⟨.k, 1⟩) = some (3, false, false) := by decide +kernel

-- ## Power, heat, errors and tenancy (R365 to R387)

/-- EFF of 2,400 W as the heartbeat fails is 1,680 W after 7,000,000 ticks and 960 W after 12,000,000 (R383). -/
def hung : State := { lab with clocks := 0, pkg := { Package.reset with set := 2400, eff := 2400, hangEff := 2400, hung := true } }
theorem test_hang : ([11900000, 20400000].map (fun n => after (exec .allowanceCut { hung with clocks := n }) (fun t => (t.ticks, t.pkg.eff)))) = [some (7000000, 1680), some (12000000, 960)] := by decide +kernel
theorem test_set_low : after (exec (.pallowSetWrite 100) lab) (fun t => (t.pkg.set, t.pkg.eff)) = some (600, 3200) := by decide +kernel
theorem test_power_step : after (exec (.powerControlStep 3300000) lab) (fun t => ((t.core 0).track 3).gr) = some 11 := by decide +kernel
theorem test_rail : after (exec (.sramRailStep 1 (0, [])) lab) (fun t => (t.die 1).railDrop) = some 5 := by decide +kernel
theorem test_hot : after (exec (.dieThermalTrip 1) lab) (fun t => (t.pkg.trip, (t.die 1).hot)) = some (true, true) := by decide +kernel
theorem test_hbm : after (exec (.hbmTemperatureSample 0 0 96) lab) (fun t => (((t.die 0).memStacks.get 0 Stack.reset).refresh, ((t.die 0).memStacks.get 0 Stack.reset).cap)) = some (4, 50) := by decide +kernel
/-- TYPE 2 for the owner of the line or the supervisor (R373, R381). -/
theorem test_memory_error : after (exec (.uncorrectableMemoryError 0x1000) lab) (fun t => (t.poison, t.pkg.ring.latest.map Event.type)) = some ([0x1000], some 2) := by decide +kernel
theorem test_bringup : after (exec (.vfBringup 3 [2] (List.replicate 8 [0x6000, 0x7000])) lab) (fun t => ((t.vf 3).alive, (t.vf 3).dies)) = some (true, [2]) := by decide +kernel
/-- A partition shares all of its dies with another or none (R366). -/
theorem test_bringup_overlap : after (exec (.vfBringup 3 [0, 2] (List.replicate 8 [0x6000, 0x7000])) lab) (fun t => (t.vf 3).alive) = some false := by decide +kernel
theorem test_teardown : after (exec (.vfTeardown 0) lab) (fun t => ((t.vf 0).alive, (t.vf 0).dead, (t.ctx 1).halt.map Halt.reason)) = some (false, some 0, some 2) := by decide +kernel
/-- Two VFs with a group and a request each at the port of core 0, at its first boundary. -/
def shared : State :=
  let vfs := [(0, { Vf.none with alive := true, share := 3 }), (1, { Vf.none with alive := true })]
  let groups := [(0, lab.group 0), (1, { lab.group 0 with ctx := 3 })]
  let core := { Core.reset with buckets := [(0, ⟨0, true⟩), (1, ⟨0, true⟩)] }
  { lab with clocks := 1024, groups := groups, ctxs := [(1, Ctx.none), (3, { Ctx.none with vf := 1 })], cores := [(0, core)], vfs := vfs }
/-- The shares 3 and 1 of one VF each give 768 and 256 of the 1,024 tokens (R370). -/
theorem test_bucket : after (exec (.bucketRefill 0) shared) (fun t => (t.core 0).buckets.vals.map Bucket.balance) = some [768, 256] := by decide +kernel
theorem test_dfw : after (exec (.dfwWrite 2 0) lab) (fun t => ((t.die 2).allow, (t.die 2).snoop)) = some (4, 4) := by decide +kernel
theorem test_host : after (exec (.hostExclusiveRequest 0x1040) lab) (fun t => t.host) = some [(0x1040, 2)] := by decide +kernel
theorem test_cold_reset : after (exec (.coldReset) lab) (fun t => (t.groups, t.ctxs)) = some ([], []) := by decide +kernel

-- ## Steps

/-- The word of KLI stored where the next issue cycle fetches is run by the next step. -/
theorem test_step_runs : after (step (State.reset.withFetchWord 32 0x10184005)) (fun t => (reg ⟨.k, 1⟩ t, (t.lane 0 0).pc)) = some ((5, false, false), 0x8004) := by decide +kernel
/-- A reserved opcode byte raises ILLEGAL with SUB 0. -/
theorem test_step_illegal : after (step (State.reset.withFetchWord 32 0x39000000)) trap = some (some (1, 0)) := by decide +kernel
/-- From reset with nothing placed, a step only passes a clock. -/
theorem test_step_idle : after (step State.reset) (fun t => (t.clocks, t.groups)) = some (1, []) := by decide +kernel
theorem test_no_power : step { State.reset with pkg := { Package.reset with railsUp := false } } = .fault .noPower := rfl

-- ## Witnesses: for every statement with hypotheses, states and operands that meet them together, clause by clause

theorem witness_lanes : lab.live 0 ∧ (duo id id).live 0 ∧ (duo id id).live 1 := by
  simp only [State.live, State.liveAt]; decide +kernel

/-- What the only listed core and a core as after reset have, every core has. -/
theorem everyCore (s : State) (c : Core) (h : s.cores = [(0, c)]) (p : Core → Prop) (h0 : p c) (h1 : p Core.reset) (n : Nat) : p (s.core n) := by
  by_cases hn : n = 0
  · subst hn; simpa [State.core, h, Map.get, Map.find?] using h0
  · simpa [State.core, h, Map.get, Map.find?, Ne.symm hn] using h1
/-- A port without a bucket of the VF has room. -/
theorem rooms (s : State) (ctx core n : Nat) (h : (s.core core).buckets.find? (s.ctx ctx).vf = none) (ha : (s.vf (s.ctx ctx).vf).alive = true) : s.roomy ctx core n := by
  refine ⟨ha, fun b hb => ?_⟩
  simp [h] at hb
/-- And so has one whose bucket holds the tokens. -/
theorem roomsOf (s : State) (ctx core n : Nat) (b : Bucket) (h : (s.core core).buckets.find? (s.ctx ctx).vf = some b) (ha : (s.vf (s.ctx ctx).vf).alive = true)
    (h1 : s.wanted core = [] ∧ n ≤ b.balance ∧ (s.core core).carried + n ≤ 1024) : s.roomy ctx core n := by
  refine ⟨ha, fun c hc => ?_⟩
  rw [h] at hc; cases hc; exact h1
/-- A port without a bucket of the VF serves it. -/
theorem served (s : State) (ctx core n : Nat) (a : Ask) (h : (s.core core).buckets.find? (s.ctx ctx).vf = none) (ha : (s.vf (s.ctx ctx).vf).alive = true) : s.serves ctx core n a := by
  refine ⟨ha, fun b hb => ?_⟩
  simp [h] at hb
/-- And so does one whose bucket holds the tokens, for the request that waits first. -/
theorem servedOf (s : State) (ctx core n : Nat) (a : Ask) (b : Bucket) (h : (s.core core).buckets.find? (s.ctx ctx).vf = some b) (ha : (s.vf (s.ctx ctx).vf).alive = true)
    (h1 : (s.wanted core).head?.map Wanted.ask = some a ∧ n ≤ b.balance ∧ (s.core core).carried + n ≤ 1024) : s.serves ctx core n a := by
  refine ⟨ha, fun c hc => ?_⟩
  rw [h] at hc; cases hc
  exact ⟨fun q hq => by have h2 := h1.1; rw [hq] at h2; exact Option.some.inj h2, h1.2⟩

theorem witness_DecodeEncode : Instr.wf (.nop Mods.none) = true ∧ Instr.wf (.ffma ⟨some 0xFFFFFF#24, some ⟨7, 1, 5, 15, 1, 7, 127⟩⟩ 1 94 95 95) = true := by decide +kernel

/-- The ends of every range of reserved opcode bytes (R61), and the prefix sequences (R45). -/
theorem witness_ReservedEncodings : (∀ n ∈ [0x0D, 0x0F, 0x2F, 0x38, 0x3F, 0x65, 0x6F, 0x88, 0x8F, 0x9E, 0x9F, 0xA6, 0xA7, 0xBF, 0xD6, 0xD7, 0xDD, 0xFD], decodeWords [BitVec.ofNat 32 (n * 2 ^ 24)] = .illegal ⟨.opcode, 15⟩ 1) ∧
    decodeWords [0xFE000000#32, 0xFE000001#32] = .illegal ⟨.prefixSequence, 15⟩ 2 ∧ decodeWords [0xFF000000#32, 0xFE000000#32] = .illegal ⟨.prefixSequence, 15⟩ 2 ∧
    decodeWords [0xFE000000#32, 0xFF000000#32, 0xFF000000#32] = .illegal ⟨.prefixSequence, 15⟩ 3 ∧ (0xFF000004#32).extractLsb' 0 3 ≠ 0#3 ∧ decodeWords [0#32] = .ins (.nop Mods.none) 1 := by decide +kernel

/-- The machine of `withFetchWord` with the word of `KLI k1, 5`. -/
def placed : State := State.reset.withFetchWord 32 0x10184005
theorem witness_StepRunsDecoded_fetch : (0x8000#64).toNat % 4 = 0 ∧ decodeWords [0x10184005#32] = .ins (.kli Mods.none 97 5) 1 ∧
    placed.xlate 1 0 0x8000 .fetch = .ok 0x8000 (placedPage 1) ∧ placed.fabricRead 1 0 0x8000 4 (placedPage 1) = (bytesOf 4 0x10184005, false) ∧
    lineOf 0x8000 ∉ (placed.core 0).badLines ∧ placed.hostHolds (lineOf 0x8000) = false ∧ 0x8000 ∈ (placed.core 0).icache ∧
    (let s : State := { placed with cores := [(0, { placed.core 0 with icache := [], buckets := [(0, ⟨6, false⟩)] })] }; s.vfUp 1 = true ∧ s.portTurn 1 0 6 ⟨8, 0, 0x8000⟩ = true ∧ s.xlate 1 0 0x8000 .fetch = .ok 0x8000 (placedPage 1)) := by decide +kernel
theorem witness_StepRunsDecoded_issue : placed.agenda = [.issue 0] ∧ placed.pkg.railsUp = true ∧ (placed.groups.find? 0).isSome = true ∧ (placed.group 0).set = .carriageway ∧ placed.mayIssue 0 = true ∧
    (placed.group 0).lastIssue ≤ placed.clocks ∧ ((placed.core 0).track 0).runsOn placed.clocks = true ∧ (placed.group 0).track = 0 ∧ (placed.group 0).pend = [] ∧ (placed.group 0).yielding = false ∧
    (let u := (({ placed with agenda := [] } : State).releaseCounters 0).releaseJunctions 0
     (choosePc (u.cands 0 (u.group 0)) (u.group 0).aged).map (fun c => decide (c.fetch = .done (.ins (.kli Mods.none 97 5) 1) [0x10184005#32] ∧ u.grants 0 c = true)) = some true) := by decide +kernel
/-- The same with a reserved opcode byte. -/
def wrong : State := State.reset.withFetchWord 32 0x39000000
theorem witness_StepRunsDecoded_illegal : wrong.running ∧ (wrong.group 0).aged = [] ∧
    (let u := (({ wrong with agenda := [] } : State).releaseCounters 0).releaseJunctions 0
     (choosePc (u.cands 0 (u.group 0)) (u.group 0).aged).map (fun c => decide (c.fetch = .done (.illegal ⟨.opcode, 15⟩ 1) [0x39000000#32] ∧ u.grants 0 c = true)) = some true) := by
  simp only [State.running]; decide +kernel
theorem witness_StepKeepsInvariant : Memory.wf placed.mem = true ∧ (after (step placed) (fun t => Memory.wf t.mem)) = some true := by decide +kernel

-- Integers and selections hold in every state; a lane of the issue set is live in `lab`. A zero divisor, and none.
theorem witness_ScalarDivision : (Instr.maskBit (.kdiv Mods.none 3 97 98 99) (lab.lane 0 0)).bits = 1 ∧ numOf (ktyOf 3).1 (ktyOf 3).2 (lab.opnd 0 (srcB' Mods.none 99 1)).bits = 0 ∧
    (after (exec (.kdiv Mods.none 3 97 98 99) lab) (fun _ => true)) = some true ∧
    numOf (ktyOf 3).1 (ktyOf 3).2 ((labOf (setK 3 2)).opnd 0 (srcB' Mods.none 99 1)).bits = 2 ∧ (after (exec (.kdiv Mods.none 3 97 98 99) (labOf (setK 3 2))) (fun _ => true)) = some true := by decide +kernel
theorem witness_VectorDivision : (Instr.maskBit (.vdiv Mods.none 2 3 1 2) (lab.lane 0 0)).bits = 1 ∧ vectorNum 2 (lab.opnd 0 (srcB' Mods.none 2 1)) = 0 ∧ (after (exec (.vdiv Mods.none 2 3 1 2) lab) (fun _ => true)) = some true ∧
    vectorNum 2 ((labOf (setV 2 5)).opnd 0 (srcB' Mods.none 2 1)) = 5 ∧ (after (exec (.vdiv Mods.none 2 3 1 2) (labOf (setV 2 5))) (fun _ => true)) = some true := by decide +kernel
/-- FPMODE of `lab` enables no trap: the hypothesis of every floating-point result. -/
theorem witness_Float (i : Instr) (r : Nat → Nat × Nat) (v : Nat → List Val) : lab.untrapped i r v ∧ lab.noFpTraps := by
  have h : lab.here.fpmode = 0#32 := by decide +kernel
  constructor
  · intro l _ _ _ _
    simp [h]
  · simp [State.noFpTraps, h]
/-- An enabled exception is not raised by 1 + 1. -/
def strict : State := { lab with groups := (labOf (fun b => setV 2 0x3F800000 (setV 1 0x3F800000 b))).groups.adjust 0 (fun x => { x with fpmode := 0xF0 }) }
theorem witness_FloatArithmetic_enabled : let i := Instr.fadd Mods.none 1 3 1 2
    let r := f32.add (strict.rm i) false 0 (f32.of (strict.opnd 0 (srcR 1 1))) (f32.of (strict.opnd 0 (srcF Mods.none 2 f32)))
    strict.here.fpmode = 0xF0 ∧ r = (0x40000000, 0) := by decide +kernel
theorem witness_CrossLane : (∀ y ∈ [1, 2 ^ 32 - 1], y < 2 ^ 32) ∧ (duo id id).actives (.redg Mods.none 0 3 1) = [0, 1] ∧ [1, 2].Perm [2, 1] ∧ (5#3).toNat < 6 := by decide +kernel
theorem witness_FrameOfResults_fallback : (Instr.nop imm).mods.imx.isSome = true ∧ (Instr.nop imm).accepts.imx = false ∧ (Instr.nop Mods.none).mods.opx = none ∧
    (Instr.nop sat).mods.opx = some ⟨0, 0, 0, 0, 1, 0, 0⟩ ∧ (Instr.nop sat).accepts.opx = false ∧ (Instr.vmov sat 0 3 1).accepts.opx = true := by decide +kernel
theorem witness_FrameOfResults : Instr.dest (.kadd Mods.none 1 97 98 99) = some (.k 97) ∧ (after (exec (.kadd Mods.none 1 97 98 99) lab) (fun _ => true)) = some true ∧ lab.live 0 ∧ lab.liveAt 0 0 ∧
    (1 : Nat) ≠ lab.cur.g ∧ lab.noFpTraps ∧ Instr.dest (.vmov ⟨none, some ⟨0, 0, 0, 0, 0, 4, 0⟩⟩ 0 3 1) = some (.v 3 1) ∧
    ⟨.v, 1⟩ ∈ Instr.frees (.vmov ⟨none, some ⟨0, 0, 0, 0, 0, 4, 0⟩⟩ 0 3 1) (.v 3 1) (lab.lane 0 0) := by
  simp only [State.live, State.liveAt, State.noFpTraps]; decide +kernel

/-- v1 = ∞, v2 = −∞, v4 = 0, v5 a signalling NaN, and FPMODE enables the invalid operation. -/
def traps : State :=
  { lab with groups := (labOf (fun b => setV 5 0x7F800001 (setV 2 0xFF800000 (setV 1 0x7F800000 b)))).groups.adjust 0 (fun x => { x with fpmode := 0x80 }) }
theorem witness_FloatTraps : traps.running ∧
    traps.raised (.fadd Mods.none 1 3 1 2) (fun l => f32.add 0 false 0 (f32.of (traps.opnd l (srcR 1 1))) (f32.of (traps.opnd l (srcF Mods.none 2 f32)))) (fun l => [traps.opnd l (srcR 1 1), traps.opnd l (srcF Mods.none 2 f32)]) = some (1, [0]) ∧
    traps.raised (.fmul Mods.none 1 3 1 4) (fun l => f32.mul 0 false 0 (f32.of (traps.opnd l (srcR 1 1))) (f32.of (traps.opnd l (srcF Mods.none 4 f32)))) (fun l => [traps.opnd l (srcR 1 1), traps.opnd l (srcF Mods.none 4 f32)]) = some (1, [0]) ∧
    traps.raised (.ffma Mods.none 1 2 1 1) (fun l => f32.fma 0 false 0 (f32.of (traps.opnd l (srcR 1 1))) (f32.of (traps.opnd l (srcF Mods.none 1 f32))) (f32.of (traps.opnd l (srcC' Mods.none 2 1)))) (fun l => [traps.opnd l (srcR 1 1)]) = some (1, [0]) ∧
    traps.raised (.frnd Mods.none 1 3 5) (fun l => f32.rint 0 0 ((traps.opnd l (srcR 5 1)).bits % 2 ^ 32)) (fun l => [traps.opnd l (srcR 5 1)]) = some (1, [0]) := by
  simp only [State.running]; decide +kernel
/-- A result on its way to v3 of `lab`'s fibre, with flag NX. -/
def result : Result := ⟨0, 1, false, [(0, 3, ⟨.v, 3⟩)], 0x400, none⟩
def retiring : State := { labOf (fun b => { b with locks := [⟨⟨.v, 3⟩, false, 0⟩] }) with cores := [(0, { lab.core 0 with results := [(4, result)] })] }
theorem witness_Retirement : (retiring.core 0).results.find? 4 = some result ∧ result.trap = none ∧ (retiring.groups.find? 0).isSome = true ∧ (0, 3, ⟨.v, 3⟩) ∈ result.locks ∧ retiring.liveAt 0 0 ∧
    (retiring.lane 0 0).uid = 3 := by
  simp only [State.liveAt]; decide +kernel

theorem witness_Branches : lab.untagged (fun l => [(lab.lane 0 l).qBit 1]) ∧ (labOf (setK 1 0x9000)).untagged (fun l => [((labOf (setK 1 0x9000)).lane 0 l).kOf 97]) ∧
    (∀ l ∈ (labOf (setK 1 0x9000)).cur.lanes, (((labOf (setK 1 0x9000)).lane 0 l).kAddr 97).toNat % 4 = 0 ∧ (lab.cur.pc + ((labOf (setK 1 0x9000)).lane 0 l).kAddr 97).toNat % 4 = 0) := by
  simp only [State.untagged]; decide +kernel
/-- A full return stack, and a grid that lets it spill `n` entries. -/
def stacked (n : Nat) : State := { labOf (fun b => { b with stack := [4, 3, 2, 1] }) with grids := [(2, { Grid.none with ctx := 1, record := { Record.none with limit := n } })] }
theorem witness_Calls : lab.cur.lanes.filter (fun l => (lab.lane 0 l).stack.length = 4 ∧ 0 ≤ (lab.lane 0 l).depth.toNat) = [] ∧ (∀ l ∈ lab.cur.lanes, (lab.lane 0 l).stack.length ≤ 4 ∧ (lab.lane 0 l).stack.length ≠ 4) := by decide +kernel
theorem witness_Calls_spill : (stacked 1).cur.lanes.filter (fun l => ((stacked 1).lane 0 l).stack.length = 4 ∧ ((stacked 1).grid 2).record.limit ≤ ((stacked 1).lane 0 l).depth.toNat) = [] ∧
    (∀ l ∈ (stacked 1).cur.lanes, ((stacked 1).lane 0 l).stack.length = 4 ∧
      (stacked 1).xlate 1 0 ((((stacked 1).lane 0 l).stackBase ++ 0#12) + BitVec.ofNat 64 (8 * ((stacked 1).lane 0 l).depth.toNat)) .write = .ok 0 (placedPage 1)) := by decide +kernel
theorem witness_Calls_full : (stacked 0).running ∧ (stacked 0).cur.lanes.filter (fun l => ((stacked 0).lane 0 l).stack.length = 4 ∧ ((stacked 0).grid 2).record.limit ≤ ((stacked 0).lane 0 l).depth.toNat) ≠ [] := by
  simp only [State.running]; decide +kernel
/-- A fibre with an on-chip entry, one with an entry in the spill area, and one with none. -/
def returns (stack : List W64) (depth : BitVec 9) : State := labOf (fun b => { b with stack := stack, depth := depth })
theorem witness_Returns : (returns [0x9000] 0).cur.lanes.filter (fun l => ((returns [0x9000] 0).lane 0 l).stack = [] ∧ ((returns [0x9000] 0).lane 0 l).depth = 0) = [] ∧
    (∀ l ∈ (returns [0x9000] 0).cur.lanes, ((returns [0x9000] 0).lane 0 l).stack ≠ [] ∧ ((((returns [0x9000] 0).lane 0 l).stack.headD 0).toNat % 4 = 0)) := by decide +kernel
theorem witness_Returns_fill : ((returns [] 1).lane 0 0).stack = [] ∧ ((returns [] 1).lane 0 0).depth ≠ 0 ∧
    (returns [] 1).xlate 1 0 ((((returns [] 1).lane 0 0).stackBase ++ 0#12) + BitVec.ofNat 64 (8 * (((returns [] 1).lane 0 0).depth - 1).toNat)) .read = .ok 0 (placedPage 1) := by decide +kernel
theorem witness_Returns_empty : (returns [] 0).running ∧ (returns [] 0).cur.lanes.filter (fun l => ((returns [] 0).lane 0 l).stack = [] ∧ ((returns [] 0).lane 0 l).depth = 0) ≠ [] := by
  simp only [State.running]; decide +kernel
/-- The fill of 0x9000 from the spill area at 0. -/
def filling : State := put 0 [0, 0x90] (labOf (fun b => { b with depth := 1, wait := .fill 1 0 }))
theorem witness_ReturnFill : filling.runs 1 0 = true ∧ filling.liveAt 0 0 ∧ (filling.lane 0 0).pc = 0x8000 ∧ (filling.lane 0 0).wait = .fill 1 0 ∧ (0x9000 : Nat) < 2 ^ 64 ∧ (0x9000 : Nat) % 4 = 0 ∧ (filling.lane 0 0).stack = [] ∧
    filling.xlate 1 0 0 .read = .ok 0 (placedPage 1) ∧ (filling.core 0).mayRead 1 0 3 filling.ids false 0 0 8 filling.ids = true ∧ filling.coreRead 1 0 0 8 0 true = (bytesOf 8 0x9000, false) ∧
    filling.hostHolds 0 = false := by
  simp only [State.liveAt]; decide +kernel
/-- Its set is the only one, and the port takes the fill: with no bucket of the VF, and with one that holds a token for each fibre. -/
theorem witness_ReturnFill_port : filling.roomy 1 0 (filling.group 0).fibres.length ∧
    ({ filling with cores := [(0, { filling.core 0 with buckets := [(0, ⟨1, false⟩)] })] } : State).roomy 1 0 (filling.group 0).fibres.length ∧
    ∀ l w e, filling.liveAt 0 l → (filling.lane 0 l).pc = 0x8000 → (filling.lane 0 l).wait = .fill w e → 0 ≤ e :=
  ⟨rooms _ _ _ _ (by decide +kernel) (by decide +kernel), roomsOf _ _ _ _ ⟨1, false⟩ (by decide +kernel) (by decide +kernel) (by decide +kernel), fun _ _ _ _ _ _ => Nat.zero_le _⟩
/-- The line of the fill is not in the L1, no firewall refuses it, and the L2 holds it or has room; or the L1 holds it. -/
theorem witness_ReturnFill_line : lineOf 0 = 0 ∧ (filling.core 0).l1.find? 0 = none ∧ filling.barred 0 0 = false ∧ (filling.die 0).l2.length < Config.l2Ways ∧ (placedPage 1).mtype ≠ 2 ∧
    (let s : State := { filling with cores := [(0, { filling.core 0 with l1 := [(0, ⟨bytesOf 8 0x9000 ++ List.replicate 120 0, false⟩)] })] }
     ((s.core 0).l1.find? 0).isSome = true ∧ s.coreRead 1 0 0 8 0 true = (bytesOf 8 0x9000, false)) := by decide +kernel

/-- k1 = 0x9002 and k2 = 0x300000. -/
def askew : State := labOf (fun b => setK 2 0x300000 (setK 1 0x9002 b))
theorem witness_MisalignedTargets : askew.running ∧ askew.untagged (fun l => [(askew.lane 0 l).kOf 97, (askew.lane 0 l).kOf 98]) ∧ askew.cur.lanes.filter (fun l => ((askew.lane 0 l).kAddr 97).toNat % 4 ≠ 0) ≠ [] ∧
    askew.cur.lanes.filter (fun l => (askew.cur.pc + (askew.lane 0 l).kAddr 97).toNat % 4 ≠ 0) ≠ [] ∧ askew.here.h = false ∧
    askew.untagged (fun l => [Instr.maskBit (.fork Mods.none 0 99 97 98) (askew.lane 0 l)]) ∧ (askew.actives (.fork Mods.none 0 99 97 98)).filter (fun l => ((askew.lane 0 l).kAddr 97).toNat % 4 ≠ 0) ≠ [] := by
  simp only [State.untagged, State.running]; decide +kernel
/-- k1 and q1 poisoned. -/
def poisonous : State := labOf (fun b => { b with k := b.k.put 1 ⟨0, false, true⟩, cw := { b.cw with qp := 2 } })
theorem witness_PoisonedControl : poisonous.running ∧ poisonous.cur.lanes.filter (fun l => ((poisonous.lane 0 l).kOf 97).p) ≠ [] ∧ poisonous.cur.lanes.filter (fun l => ((poisonous.lane 0 l).qBit 1).p) ≠ [] ∧
    (riImm Mods.none 1).toNat ≤ 1 ∧ poisonous.cur.lanes.filter (fun l => (Instr.maskBit (.quit ⟨none, some ⟨1, 0, 0, 0, 0, 0, 0⟩⟩) (poisonous.lane 0 l)).p) ≠ [] := by
  simp only [State.running]; decide +kernel
/-- q1 guessed in lane 1 and certain in lane 0. -/
def halfGuessed : State := duo id (fun b => { b with cw := { b.cw with qg := 2 } })
/-- q1 guessed in the only lane, with a guess-miss bit or without one, and with a ticket that has no truth or without any. -/
def guessed (gm : Bool) (tickets : Map Ticket) : State :=
  { labOf (fun b => { b with gm := gm, cw := { b.cw with qg := 2 } }) with cores := [(0, { lab.core 0 with tickets := tickets })] }
/-- A ticket of the fibre's v3, without its truth. -/
def ticket : Ticket := ⟨0, 4, 0, 4, 0x1008, 4, 0, .v 4 false, none, [⟨0, 3, ⟨.v, 3⟩, 1, 0, 0⟩]⟩
theorem witness_GuessedControl : (∀ l ∈ halfGuessed.cur.lanes, ((halfGuessed.lane 0 l).qBit 1).p = false) ∧ (∃ l ∈ halfGuessed.cur.lanes, ((halfGuessed.lane 0 l).qBit 1).g = false) ∧
    (∃ l ∈ halfGuessed.cur.lanes, ((halfGuessed.lane 0 l).qBit 1).g = true) := by decide +kernel
theorem witness_GuessedControl_unknown : ∀ l ∈ (guessed false [(5, ticket)]).cur.lanes, (((guessed false [(5, ticket)]).lane 0 l).qBit 1).p = false ∧ (((guessed false [(5, ticket)]).lane 0 l).qBit 1).g = true ∧
    ¬ ((guessed false [(5, ticket)]).core 0).truthful 0 ((guessed false [(5, ticket)]).lane 0 l).uid = true := by decide +kernel
theorem witness_GuessedControl_known : (∀ l ∈ (guessed false []).cur.lanes, (((guessed false []).lane 0 l).qBit 1).g = true ∧ ((guessed false []).core 0).truthful 0 ((guessed false []).lane 0 l).uid = true ∧ ((guessed false []).lane 0 l).gm = false) := by decide +kernel
theorem witness_GuessedControl_missed : (guessed true []).running ∧ ∀ l ∈ (guessed true []).cur.lanes, (((guessed true []).lane 0 l).qBit 1).g = true ∧ ((guessed true []).core 0).truthful 0 ((guessed true []).lane 0 l).uid = true ∧
    ((guessed true []).lane 0 l).gm = true := by
  simp only [State.running]; decide +kernel
/-- `lab`'s group in its handler. -/
def handling : State := labGroup (fun x => { x with h := true, m := true })
theorem witness_NotAllowed : handling.running ∧ handling.here.h = true ∧ lab.running ∧ lab.here.h = false ∧ (lab.grid 2).record.cosched = false ∧ (riImm Mods.none 4).toNat = 4 ∧ (riImm Mods.none 26).toNat = 26 := by
  simp only [State.running]; decide +kernel

/-- Lane 0 at a junction at 0x8000 since clock 0, lane 1 elsewhere. -/
def junction (pc : W64) (clocks : Nat) : State := { duo (fun b => { b with cw := { b.cw with ja := true } }) (fun b => { b with pc := pc }) with clocks := clocks }
theorem witness_Junctions : lab.live 0 ∧ (junction 0x8000 0).runs 1 0 = true ∧ (∀ l ∈ [0, 1], (0x8000#64).toNat ≤ ((junction 0x8000 0).lane 0 l).pc.toNat) ∧ ((junction 0x7FFC 0).lane 0 1).pc.toNat < (0x8000#64).toNat ∧
    (junction 0x7FFC 0).liveAt 0 1 ∧ ((junction 0x7FFC 1024).lane 0 0).cw.ja = true ∧ ((junction 0x7FFC 1024).lane 0 0).junctionSince + 1024 ≤ (junction 0x7FFC 1024).clocks ∧
    (junction 0x7FFC 1023).clocks < ((junction 0x7FFC 1023).lane 0 0).junctionSince + 1024 := by
  simp only [State.live, State.liveAt]; decide +kernel
/-- k1 = 0x9000, the target, and k2 = 0x300000, the stack. -/
def forks : State := labOf (fun b => setK 2 0x300000 (setK 1 0x9000 b))
theorem witness_Fork : forks.issued ∧ forks.here.h = false ∧ forks.actives (.fork Mods.none 1 99 97 98) = [0] ∧
    forks.untagged (fun l => [Instr.maskBit (.fork Mods.none 1 99 97 98) (forks.lane 0 l), (forks.lane 0 l).kOf 97, (forks.lane 0 l).kOf 98]) ∧ ((forks.lane 0 0).kAddr 97).toNat % 4 = 0 ∧
    ((List.range 32).filter (fun l => ((forks.group 0).fibres.find? l).isNone))[0]? = some 1 := by
  simp only [State.issued, State.liveAt, State.untagged]; decide +kernel
theorem witness_Quit : lab.untagged (fun l => [Instr.maskBit (.quit Mods.none) (lab.lane 0 l)]) ∧ lab.actives (.quit Mods.none) = [0] ∧
    lab.untagged (fun l => [Instr.maskBit (.quit ⟨none, some ⟨1, 0, 0, 0, 0, 0, 0⟩⟩) (lab.lane 0 l)]) ∧ lab.actives (.quit ⟨none, some ⟨1, 0, 0, 0, 0, 0, 0⟩⟩) = [] ∧ lab.live 0 := by
  simp only [State.untagged, State.live, State.liveAt]; decide +kernel
/-- The greatest window of a budget of 512 v registers, and the one above it. -/
theorem witness_WindowBase : lab.running ∧ lab.here.budget = 512 ∧ ¬ ((13 : Int) < 0 ∨ 15 < (13 : Int) ∨ (lab.here.budget : Int) < 32 * 13 + 96) ∧ ((lab.here.budget : Int) < 32 * 14 + 96) ∧
    lab.untagged (fun l => [(lab.lane 0 l).kOf 97]) := by
  simp only [State.untagged, State.running]; decide +kernel
/-- A ready lay-by group of the track fits beside the group that yields, or there is none. -/
theorem witness_WaitsAndYields_fits : (let s := { lab with groups := [(0, lab.group 0), (1, { lab.group 0 with set := .layby })] }
      ∃ g y, (g, y) ∈ s.groups ∧ g ≠ s.cur.g ∧ y.core = s.here.core ∧ y.track = s.here.track ∧ y.set = .layby ∧ s.hasReady g = true ∧ s.leaving y = false ∧ s.leaseFits y s.cur.g = true) ∧
    ¬ ∃ p ∈ lab.groups, p.1 ≠ lab.cur.g :=
  ⟨⟨1, { lab.group 0 with set := .layby }, by decide +kernel⟩, by decide +kernel⟩
theorem witness_WaitsAndYields : lab.here.loads ≤ (0#6).toNat ∧ lab.here.stores ≤ (0#6).toNat ∧ lab.here.copies ≤ (0#6).toNat ∧ lab.here.tiles ≤ (0#6).toNat ∧ ¬ (loading.here.loads ≤ (0#6).toNat) ∧ lab.live 0 := by
  simp only [State.live, State.liveAt]; decide +kernel

theorem witness_BarrierIssue : lab.here.h = false ∧ lab.live 0 ∧ ({ lab with grids := [(2, { Grid.none with ctx := 1, record := { Record.none with cosched := true } })] } : State).here.h = false ∧
    (({ lab with grids := [(2, { Grid.none with ctx := 1, record := { Record.none with cosched := true } })] } : State).grid 2).record.cosched = true := by
  simp only [State.live, State.liveAt]; decide +kernel
/-- Lane 0 arrives at a barrier: alone, and with lane 1 on its way; and with a store of its core not yet performed. -/
def arriving (bar : Bar) : State := labOf (fun b => { b with wait := .arriving bar 1 97 4 })
def arrivingTwo (bar : Bar) : State := duo (fun b => { b with wait := .arriving bar 1 97 4 }) id
/-- A store to 0x1000 that is issued and not accepted. -/
def aStore : Store := { Store.none with op := 4, g := 0, ctx := 1, uid := 3, seq := 4, va := 0x1000, pa := 0x1000, data := [5, 0, 0, 0], level := 0, counted := true, need := 3 }
def arrivingLate (bar : Bar) : State := { labOf (fun b => { b with wait := .arriving bar 1 97 5 }) with cores := [(0, { lab.core 0 with stores := [(4, aStore)] })] }
theorem witness_Arrivals : ∀ bar ∈ [Bar.group, Bar.team, Bar.grid], ((arriving bar).group 0).fibres.rising = true ∧ ((arriving bar).lane 0 0).wait = .arriving bar 1 97 4 ∧ (arriving bar).runs 1 0 = true ∧
    (arriving bar).releaseDone 0 0 3 bar.level 4 none = true ∧ (arrivingTwo bar).releaseDone 0 0 3 bar.level 4 none = true ∧ (arrivingLate bar).releaseDone 0 0 3 bar.level 5 none = false ∧
    ((arriving bar).core 0).atomicsDone 0 3 4 none = true ∧ ((arrivingTwo bar).core 0).atomicsDone 0 3 4 none = true := by decide +kernel
theorem witness_Arrivals_team : 0 ∈ ((arriving .team).teamOf ((arriving .team).group 0)).groups ∧ (((arriving .team).grid 2).teams.find? 0).isSome = true ∧ ((arriving .team).ctx 1).halt = none ∧
    (arriving .team).liveAt 0 0 ∧ (arrivingTwo .team).liveAt 0 1 ∧ ((arrivingTwo .team).lane 0 1).lastPhase ≠ some ((arrivingTwo .team).teamOf ((arrivingTwo .team).group 0)).phase := by
  simp only [State.liveAt]; decide +kernel
theorem witness_Milestone : ((arriving .grid).ctx 1).halt = none ∧ ((arriving .grid).grid 2).ctx = 1 ∧ ((arriving .grid).grids.find? 2).isSome = true ∧ (arriving .grid).groups.rising = true ∧
    ((arriving .grid).grid 2).releasing = none ∧ ((arrivingTwo .grid).lane 0 1).atMilestone = false := by decide +kernel
/-- A release over the cores 0 and 1 whose first step has been taken, at a clock. -/
def releasing (clocks : Nat) : State :=
  { lab with clocks := clocks, pkg := { Package.reset with ramp := 1 }, grids := [(2, { Grid.none with ctx := 1, releasing := some (0, [0, 1], 1) })] }
theorem witness_Release : ((releasing 255).grid 2).releasing = some (0, [0, 1], 1) ∧ ((releasing 255).ctx 1).halt = none ∧ (releasing 255).groups.rising = true ∧
    (releasing 255).clocks < 0 + 256 * ((1 + 1 - 1) / 1) ∧ 0 + 256 * ((1 + 1 - 1) / 1) ≤ (releasing 256).clocks := by decide +kernel
theorem witness_Leases : lab.live 0 ∧ lab.untagged (fun l => [(lab.lane 0 l).kOf 97]) := by
  simp only [State.untagged, State.live, State.liveAt]; decide +kernel

/-- A launch record: one team of one fibre at 0x8000 on one core, with DONE at the address. -/
def record (done : Nat) : List Byte := bytesOf 8 0x8000 ++ bytesOf 8 0x55 ++ bytesOf 8 0 ++ bytesOf 8 done ++ bytesOf 8 0 ++ bytesOf 2 0 ++ [3, 3] ++ bytesOf 4 0 ++ bytesOf 16 1
/-- Queue 0 of VF 0: its descriptor at 0x2000, its ring of 16 records at 0x3000, with HEAD and TAIL; k1 = 0x1000, and the record stands there and as the first of the ring. -/
def queued (done head tail : Nat) : State :=
  put 0x3000 (record done) (put 0x1000 (record done) (put 0x2000 (bytesOf 8 0x3000 ++ bytesOf 8 4 ++ bytesOf 8 head ++ bytesOf 8 tail)
    { labOf (setK 1 0x1000) with vfs := [(0, { Vf.none with alive := true, dies := [0], queues := [0x2000], contexts := [1], tails := [(0, tail)] })] }))
theorem whole (s : State) (h : s.dies = []) (la : Nat) : s.wholeLine la := by
  have h0 : ∀ e, (s.die e).l2 = [] := fun e => by simp [State.die, h, Map.get, Map.find?, Die.reset]
  refine ⟨?_, ?_, ?_⟩
  · intro e y h1; simp [h0, Map.find?] at h1
  · intro e f y z h1; simp [h0, Map.find?] at h1
  · intro e y h1; simp [h0, Map.find?] at h1
/-- With every die as after reset, no firewall refuses a die of the package. -/
theorem unbarred (s : State) (h : s.dies = []) (d : Nat) (hd : d < 4) (la : Nat) : s.barred d la = false := by
  have h0 : ∀ e, s.die e = Die.reset := fun e => by simp [State.die, h, Map.get, Map.find?]
  have h1 : s.ownerOf la = none := by
    unfold State.ownerOf
    exact List.find?_eq_none.2 (fun e _ => by simp [h0, Die.reset, Map.find?])
  have h2 : s.linkOk d la = true := by
    unfold State.linkOk
    split
    · simp only [h0, Die.takes, Die.reset]
      interval_cases d <;> simp
    · rfl
  simp [State.barred, h1, h2]
theorem sound (s : State) (h : s.dies = []) (d : Nat) (hd : d < 4) (la : Nat) : s.lineSound d la := by
  have h0 : ∀ e, (s.die e).l2 = [] := fun e => by simp [State.die, h, Map.get, Map.find?, Die.reset]
  exact ⟨hd, (whole s h la).1, (whole s h la).2.1, by simp [h0, Config.l2Ways], unbarred s h d hd la⟩
theorem witness_Launch : (queued 0x5000 0 0).issued ∧ (queued 0x5000 0 0).here.h = false ∧ (queued 0x5000 0 0).untagged (fun l => [((queued 0x5000 0 0).lane 0 l).kOf 97, ((queued 0x5000 0 0).lane 0 l).kOf 98]) ∧
    (((queued 0x5000 0 0).lane 0 0).kAddr 97).toNat % 64 = 0 ∧ (queued 0x5000 0 0).xlate 1 0 (((queued 0x5000 0 0).lane 0 0).kAddr 97) .read = .ok 0x1000 (placedPage 1) ∧
    (queued 0x5000 0 0).coreRead 1 0 0x1000 64 0 true = (record 0x5000, false) ∧ (queued 0x5000 0 0).releaseDone 0 0 3 3 (((queued 0x5000 0 0).lane 0 0).upto (queued 0x5000 0 0).ids) none = true ∧ (queued 0x5000 0 0).bytesHeld 0x1000 64 = false ∧
    (∀ q ∈ ((queued 0x5000 0 0).vf ((queued 0x5000 0 0).ctx 1).vf).queues, (queued 0x5000 0 0).bytesHeld q 32 = false) := by
  simp only [State.issued, State.liveAt, State.untagged]; decide +kernel
theorem witness_Launch_port : (queued 0x5000 0 0).roomy 1 0 (queued 0x5000 0 0).cur.lanes.length ∧ (queued 0x5000 0 0).refusedRead 0 0x1000 = false :=
  ⟨rooms _ _ _ _ (by decide +kernel) (by decide +kernel), by decide +kernel⟩
/-- The first and the last number of a queue, one that is absent, a malformed record, a full queue, and one with room. -/
theorem witness_Append : (queued 0x5000 0 0).queue 0 8 = none ∧ (queued 0x5000 0 0).queue 0 1 = none ∧ (queued 0x5000 0 0).queue 0 0 = some ⟨0x3000, 4, 0, 0⟩ ∧ (queued 0x5001 0 0).malformed 0 (record 0x5001) = true ∧
    (queued 0x5000 0 0).malformed 0 (record 0x5000) = false ∧ (queued 0x5000 0 16).queue 0 0 = some ⟨0x3000, 4, 0, 16⟩ ∧ ((queued 0x5000 0 0).vf 0).queues[0]? = some 0x2000 ∧ (record 0x5000).length = 64 ∧
    (∀ k, k < 64 → ∀ j, j < 32 → 0x3000 + 64 * (0 % 2 ^ 4) + k ≠ 0x2000 + j) := by decide +kernel
theorem witness_Take : (queued 0x5000 0 1).queue 0 0 = some ⟨0x3000, 4, 0, 1⟩ ∧ ((queued 0x5000 0 1).vf 0).queues[0]? = some 0x2000 ∧ ((queued 0x5000 0 1).vf 0).alive = true ∧
    ((queued 0x5000 0 1).vf 0).tails.get 0 0 = 1 ∧ ((queued 0x5000 0 0).vf 0).tails.get 0 0 ≤ 0 ∧ ((queued 0x5000 0 1).ctxs.find? 1).isSome = true ∧ (queued 0x5000 0 1).dies = [] ∧
    (queued 0x5000 0 1).malformed 0 ((queued 0x5000 0 1).sysRead 0x3000 64).1 = false ∧ (queued 0x5001 0 1).malformed 0 ((queued 0x5001 0 1).sysRead 0x3000 64).1 = true ∧
    (0x5001 : Nat) % 64 ≠ 0 ∧ (queued 0x5000 0 1).queueHeld 0 0 = false ∧ (queued 0x5000 0 1).bytesHeld 0x3000 64 = false ∧ ({ queued 0x5000 0 1 with host := [(0x2000, 2)] } : State).queueHeld 0 0 = true := by decide +kernel
/-- A record that is malformed by a reserved byte, with DONE on its page, in the queue's ring. -/
def reserved : State := put 0x303F [1] (queued 0x5000 0 1)
theorem witness_Take_malformed : reserved.queue 0 0 = some ⟨0x3000, 4, 0, 1⟩ ∧ reserved.malformed 0 (reserved.sysRead 0x3000 64).1 = true ∧ (recordOf (reserved.sysRead 0x3000 64).1).done = 0x5000 ∧ (reserved.ctx 1).vf = 0 ∧
    reserved.queueHeld 0 0 = false ∧ reserved.bytesHeld 0x3000 64 = false ∧ reserved.deviceHeld 1 0x5000 64 = false ∧ reserved.xlateNow 1 0 0x5000 .write = .ok 0x5000 (placedPage 1) ∧ 0x2000 + 24 ≤ (0x5000 : Nat) ∧ reserved.dies = [] := by decide +kernel
/-- A grid of one team that is not placed yet; with an earlier one of its queue before it, whole or not. -/
def waiting (cosched : Bool) : Grid := { Grid.none with ctx := 1, record := { Record.none with cosched := cosched, cores := 1 } }
def placing (cosched : Bool) : State := { lab with groups := [], grids := [(2, waiting cosched)] }
theorem witness_Placement : (placing false).grids.find? 2 = some (waiting false) ∧ (∀ q ∈ (placing false).grids.vals, q.vf = 0 → q.queue = 0 → q.number < (waiting false).number → False) ∧ ((placing false).ctx 1).halt = none ∧
    (waiting false).nextTeam < (waiting false).record.teams ∧ ((placing false).ctx 1).ending = false ∧ (waiting false).record.cosched = false ∧ (waiting false).record.cores = 1 ∧ 0 / 80 ∈ ((placing false).vf (waiting false).vf).dies ∧ ((placing false).core 0).retired = false ∧
    (waiting true).record.cosched = true := by decide +kernel
/-- A grid whose team has ended, with DONE at an address. -/
def closing (done : W64) : Grid := { Grid.none with ctx := 1, nextTeam := 1, record := { Record.none with done := done } }
/-- A SERIAL grid whose predecessor is still there. -/
theorem witness_Placement_serial : let r : Grid := { waiting false with number := 1, record := { (waiting false).record with serial := true } }
    let s : State := { placing false with grids := [(2, { closing 0x5000 with nextTeam := 1 }), (3, r)] }
    s.grids.find? 3 = some r ∧ ∃ q ∈ s.grids.vals, q.vf = r.vf ∧ q.queue = r.queue ∧ q.number < r.number ∧ r.record.serial = true ∧ q.number + 1 = r.number ∧ q.record.teams ≤ q.nextTeam := by decide +kernel
/-- A grid of a team of 64 fibres on two cores, or more than there are. -/
def spreading (n : Nat) : State := { placing false with grids := [(2, { waiting false with record := { (waiting false).record with cores := n, fibres := 64 } })] }
theorem witness_Placement_cores : let s := spreading 2
    let r := { waiting false with record := { (waiting false).record with cores := 2, fibres := 64 } }
    let resident := fun (c : Nat) => (s.groups.vals.filter (fun x => x.core == c)).length
    let before := fun (c e : Nat) => resident c < resident e ∨ (resident c = resident e ∧ c < e)
    let free := fun (c : Nat) => (((List.range 8).filter (fun t => decide ((s.core c).leasew.toNat / 2 ^ (4 * t) % 16 ≠ 0 ∨ (s.core c).leasew = 0))).map (fun t => 32 - (s.groups.vals.filter (fun x => x.core == c && x.track == t)).length)).sum
    let fits := fun (d c : Nat) => (c / 80 ∈ (s.vf r.vf).dies ∧ (s.core c).retired = false) ∧ c / 80 = d ∧ ((r.record.fibres + 31) / 32 + 2 - 1) / 2 ≤ free c
    let chosen := fun (d : Nat) (l : List Nat) => d < 4 ∧ l.length = 2 ∧ l.Pairwise before ∧ (∀ c ∈ l, fits d c) ∧ ∀ e, fits d e → e ∉ l → ∀ c ∈ l, before c e
    let total := fun (l : List Nat) => (l.map resident).sum
    s.grids.find? 2 = some r ∧ (s.ctx r.ctx).ending = false ∧ r.nextTeam < r.record.teams ∧ r.record.cosched = false ∧ 1 < r.record.cores ∧ chosen 0 [0, 1] ∧
      ∀ e m, chosen e m → total [0, 1] < total m ∨ (total [0, 1] = total m ∧ 0 ≤ e) := by
  intro s r resident before free fits chosen total
  have h0 : ∀ c, resident c = 0 := fun c => rfl
  refine ⟨by decide +kernel, by decide +kernel, by decide, rfl, by decide, ⟨by decide, rfl, by decide +kernel, by decide +kernel, ?_⟩, ?_⟩
  · intro e _ he c hc
    refine .inr ⟨rfl, ?_⟩
    simp only [List.mem_cons, List.not_mem_nil, or_false, not_or] at he hc
    omega
  · intro e m _
    refine .inr ⟨?_, Nat.zero_le e⟩
    have h1 : ∀ l : List Nat, total l = 0 := fun l => by
      show (l.map resident).sum = 0
      rw [show l.map resident = l.map (fun _ => 0) from List.map_congr_left (fun c _ => h0 c)]
      simp
    rw [h1, h1]
theorem witness_Placement_none : ({ placing false with vfs := [] } : State).grids.find? 2 = some (waiting false) ∧ (({ placing false with vfs := [] } : State).vf 0).dies = [] ∧
    (lab.grid 2).record.teams ≤ (lab.grid 2).nextTeam := by decide +kernel

/-- A group whose fibres have quit, with and without an unfinished load. -/
def empty (loads : Nat) : State := labGroup (fun x => { x with fibres := [], loads := loads })
theorem witness_GroupEnd : ((empty 0).groups.find? 0).isSome = true ∧ ((empty 0).group 0).fibres = [] ∧ ((empty 0).group 0).loads = 0 ∧ ((empty 0).group 0).stores = 0 ∧ ((empty 0).group 0).copies = 0 ∧ ((empty 0).group 0).tiles = 0 ∧
    ((empty 0).core 0).tickets.vals = [] ∧ (empty 0).runs 1 0 = true ∧ ((empty 0).grids.find? 2).isSome = true ∧ (∀ h ∈ (((empty 0).grid 2).teams.get 0 Team.none).groups, h = 0) ∧ ((empty 1).group 0).loads ≠ 0 := by decide +kernel
def ended (done : W64) (fib : List (Nat × Group)) : State := { lab with groups := fib, grids := [(2, closing done)] }
theorem witness_GridEnd : (ended 0x5000 []).grids.find? 2 = some (closing 0x5000) ∧ (ended 0x5000 []).dies = [] ∧ (closing 0x5000).record.teams ≤ (closing 0x5000).nextTeam ∧ (closing 0x5000).teams = [] ∧ (closing 0x5000).charge = 0 ∧
    ((ended 0x5000 []).vf ((ended 0x5000 []).ctx 1).vf).alive = true ∧ (ended 0x5000 []).xlate 1 0 0x5000 .write = .ok 0x5000 (placedPage 1) ∧ (ended 0x20000 []).xlate 1 0 0x20000 .write = .replay ∧
    ((ended 0x20000 []).ctxs.find? 1).isSome = true ∧ (ended 0x4000000000000000 []).xlate 1 0 0x4000000000000000 .write = .trap 1 ∧ (lab.grid 2).teams ≠ [] ∧ (ended 0x5000 []).deviceHeld 1 0x5000 64 = false ∧
    (ended 0x20000 []).deviceHeld 1 0x20000 64 = false ∧ (ended 0x4000000000000000 []).deviceHeld 1 0x4000000000000000 64 = false ∧ (ended 0x5000 []).queueHeld 0 0 = false ∧ (ended 0x5000 []).xlateNow 1 0 0x5000 .write = .ok 0x5000 (placedPage 1) ∧
    (ended 0x20000 []).xlateNow 1 0 0x20000 .write = .replay ∧ (ended 0x4000000000000000 []).xlateNow 1 0 0x4000000000000000 .write = .trap 1 := by decide +kernel
/-- No store or atomic of the grid 2 is left in any core, or one is. -/
theorem witness_GridEnd_settled : (∀ c, (∀ w ∈ ((ended 0x5000 []).core c).stores.vals, w.grid ≠ 2) ∧ ∀ w ∈ ((ended 0x5000 []).core c).atomics.vals, w.grid ≠ 2) ∧
    ∃ w ∈ (({ ended 0x5000 [] with cores := [(0, { lab.core 0 with stores := [(4, { aStore with grid := 2 })] })] } : State).core 0).stores.vals, w.grid = 2 :=
  ⟨everyCore _ _ (by rfl) (fun c => (∀ w ∈ c.stores.vals, w.grid ≠ 2) ∧ ∀ w ∈ c.atomics.vals, w.grid ≠ 2) (by decide +kernel) (by decide +kernel), by decide +kernel⟩
/-- Where no line is sealed, every byte's value is known after a write. -/
theorem keepsAll (s : State) (key : Nat) (f : Nat → Nat) (n a : Nat) (h : s.seals = []) : s.keeps key f n a := by
  refine .inr (.inr fun g hg => ?_)
  rw [h] at hg; cases hg
/-- Every byte's value is known after the write of the record: nothing was sealed, or the line by the VF's own key. -/
theorem witness_GridEnd_keeps (a : Nat) : (ended 0x5000 []).keeps ((ended 0x5000 []).keyOf 1) (fun i => 0x5000 + i) 64 a ∧
    ({ ended 0x5000 [] with seals := [(0x5000, (ended 0x5000 []).keyOf 1)] } : State).keeps ((ended 0x5000 []).keyOf 1) (fun i => 0x5000 + i) 64 0x5040 := by
  refine ⟨keepsAll _ _ _ _ _ (by decide +kernel), .inr (.inr fun g hg => ?_)⟩
  · have h1 : (Map.find? [(0x5000, (ended 0x5000 []).keyOf 1)] (lineOf 0x5040)) = some g := hg
    rw [show lineOf 0x5040 = 0x5000 by decide] at h1
    simpa [Map.find?] using h1.symm
/-- `ended` with the copies of the context over. -/
def ending : State := { ended 0x5000 [] with ctxs := (ended 0x5000 []).ctxs.adjust 1 (fun c => { c with ending := true }) }
/-- Nothing holds the end of context 1 up, or a store of it does, or a charge. -/
theorem witness_ContextEnd_waits : ¬ ((∃ c, (∃ w ∈ (ending.core c).stores.vals, w.ctx = 1) ∨ ∃ w ∈ (ending.core c).atomics.vals, w.ctx = 1) ∨
      ∃ r ∈ ending.grids.vals, r.ctx = 1 ∧ (r.charge ≠ 0 ∨ ending.deviceHeld 1 r.record.done 64 = true ∨ ending.queueHeld r.vf r.queue = true)) ∧
    (∃ w ∈ (({ ending with cores := [(0, { lab.core 0 with stores := [(4, aStore)] })] } : State).core 0).stores.vals, w.ctx = 1) ∧
    (∃ r ∈ ({ ending with grids := [(2, { closing 0x5000 with charge := 3 })] } : State).grids.vals, r.ctx = 1 ∧ r.charge ≠ 0) := by
  have h := everyCore ending _ (by rfl) (fun c => c.stores.vals = [] ∧ c.atomics.vals = []) (by decide +kernel) (by decide +kernel)
  refine ⟨?_, by decide +kernel, by decide +kernel⟩
  rintro (⟨c, ⟨w, hw, -⟩ | ⟨w, hw, -⟩⟩ | hr)
  · exact List.ne_nil_of_mem hw (h c).1
  · exact List.ne_nil_of_mem hw (h c).2
  · revert hr; decide +kernel
theorem witness_ContextEnd_course : ((ended 0x5000 []).ctx 1).ending = false ∧ (ending.ctx 1).ending = true ∧ (ending.ctxs.find? 1).isSome = true ∧ ending.groups.rising = true ∧ (ending.ctx 1).halt = none ∧ (∀ x ∈ ending.groups.vals, x.ctx ≠ 1) ∧
    ending.grids = [(2, closing 0x5000)] ∧ (closing 0x5000).ctx = 1 ∧ (ending.vf (ending.ctx 1).vf).alive = true ∧ ending.xlateNow 1 0 0x5000 .write = .ok 0x5000 (placedPage 1) ∧ ending.dies = [] := by decide +kernel
theorem witness_ContextEnd : ((ended 0x5000 []).ctxs.find? 1).isSome = true ∧ (ended 0x5000 []).groups.rising = true ∧ ((ended 0x5000 []).ctx 1).halt = none ∧ (∀ x ∈ (ended 0x5000 []).groups.vals, x.ctx ≠ 1) ∧
    (ended 0x5000 []).xlateNow 1 0 0x5000 .write ≠ .replay ∧ (∀ r ∈ (ended 0x5000 []).grids.vals, (ended 0x5000 []).deviceHeld 1 r.record.done 64 = false ∧ (ended 0x5000 []).queueHeld r.vf r.queue = false) ∧ (ended 0x5000 []).grids = [(2, closing 0x5000)] ∧ (∃ x ∈ lab.groups.vals, x.ctx = 1) ∧ lab.groups.rising = true := by decide +kernel
theorem witness_ContextSetup : (7 : Nat) < 2 ^ 32 ∧ ¬ (2 ^ 32 + 7 : Nat) < 2 ^ 32 ∧ lab.ctxs.find? 7 = none ∧ (lab.vf 0).alive = true ∧ (lab.ctxs.vals.filter (fun c => c.vf == 0)).length < 16 ∧ (lab.vf 1).alive = false ∧ lab.ctxs.find? 1 ≠ none ∧
    (∀ n ∈ [4096, 262144], n % 4096 = 0 ∧ 4096 ≤ n ∧ n ≤ 262144) ∧ ¬ 266240 ≤ 262144 ∧ (6144 : Nat) % 4096 ≠ 0 := by decide +kernel

/-- Group 0 changed, and a lay-by group 1 of the same track beside it, changed as well. -/
def twoGroups (f h : Group → Group) (clocks : Nat) : State := { lab with clocks := clocks, groups := [(0, f (lab.group 0)), (1, h { lab.group 0 with set := .layby })] }
/-- A long wait: for a counter of 1 to reach 0. -/
def stalled (x : Group) : Group := { x with loads := 1, fibres := [(0, { x.fibre 0 with wait := .counters 0 63 63 63 1 })] }
theorem witness_Layby : ((twoGroups (fun x => { x with yielding := true }) id 0).groups.find? 0).isSome = true ∧ (twoGroups id id 0).groups.rising = true ∧ ((twoGroups (fun x => { x with yielding := true }) id 0).group 0).set = .carriageway ∧
    ((twoGroups (fun x => { x with yielding := true }) id 0).group 0).yielding = true ∧ ((twoGroups stalled id 0).group 0).fibres ≠ [] ∧ (twoGroups stalled id 0).allStalled 0 ((twoGroups stalled id 0).group 0) = true ∧
    (∀ l ∈ ((twoGroups stalled id 0).group 0).live, (((twoGroups stalled id 0).group 0).fibre l).wait.long 0 = true ∧
      (twoGroups stalled id 0).waitOver 0 ((twoGroups stalled id 0).group 0) (((twoGroups stalled id 0).group 0).fibre l) = false) ∧
    (lab.group 0).yielding = false ∧ lab.readyLanes 0 ≠ [] ∧ ((twoGroups id id 0).group 1).set ≠ .carriageway := by decide +kernel
/-- On clock 9, with the group of the carriageway admitted before it, or on it. -/
theorem witness_Admission : let s := twoGroups (fun x => { x with entered := 0 }) id 9
    let x := s.group 1
    let there := fun (y : Group) => y.core == x.core && y.track == x.track && (y.set == .carriageway || y.left == some s.clocks)
    (s.groups.find? 1).isSome = true ∧ s.groups.rising = true ∧ x.set = .layby ∧ x.left ≠ some s.clocks ∧ s.readyLanes 1 ≠ [] ∧ s.runs x.ctx 1 = true ∧ s.pendingOn x = none ∧
      ((s.groups.filter (fun p => there p.2 && p.1 != 1)).map (fun p => s.leaseNow p.2)).sum + s.leaseNow x ≤ trackBudget (s.leasewNow x.core) x.track ∧ (∀ p ∈ s.groups, p.2.set = .layby → p.1 = 1) ∧
      (∀ p ∈ s.carriageway x, p.2.entered ≠ s.clocks) ∧ (s.groups.filter (fun p => there p.2)).length < 8 ∧ (s.group 0).set ≠ .layby ∧
      (∃ p ∈ (twoGroups (fun x => { x with entered := 9 }) id 9).carriageway ((twoGroups id id 9).group 1), p.2.entered = 9) := by decide +kernel
/-- A group that left on the clock still takes its place, and does not come back on it. -/
theorem witness_Admission_left : let s := twoGroups (fun x => { x with set := .layby, left := some 9 }) id 9
    (s.group 0).left = some s.clocks ∧ (s.groups.filter (fun p => p.2.core == 0 && p.2.track == 0 && (p.2.set == .carriageway || p.2.left == some s.clocks))).length = 1 := by decide +kernel
theorem witness_Pending : ((twoGroups id id 0).group 1).readySince = none ∧ ((twoGroups id (fun x => { x with readySince := some 1 }) 4097).group 1).readySince = some 1 ∧
    ((twoGroups id (fun x => { x with readySince := some 1 }) 4097).group 1).pendingSince = none ∧
    (twoGroups id (fun x => { x with readySince := some 1 }) 4097).pendingOn ((twoGroups id (fun x => { x with readySince := some 1 }) 4097).group 1) = none ∧
    1 + 4096 ≤ (twoGroups id (fun x => { x with readySince := some 1 }) 4097).clocks ∧ (twoGroups id (fun x => { x with readySince := some 1 }) 4096).clocks < 1 + 4096 ∧ (twoGroups id id 0).readyLanes 1 ≠ [] := by decide +kernel
theorem witness_Eviction : (let s := twoGroups (fun x => { x with entered := 0 }) (fun x => { x with pendingSince := some 1 }) 4097
      (∀ p ∈ s.carriageway (s.group 1), p.2.entered ≠ s.clocks) ∧ s.runs (s.group 1).ctx 1 = true ∧ s.readyLanes 1 ≠ [] ∧ (s.group 1).set = .layby ∧ (s.group 1).pendingSince = some 1 ∧ 1 + 4096 ≤ s.clocks ∧
        (s.carriageway (s.group 1)).length ≤ 8 ∧ ((s.carriageway (s.group 1)).map (fun p => s.leaseNow p.2)).sum + s.leaseNow (s.group 1) ≤ trackBudget (s.leasewNow 0) 0) ∧
    ((twoGroups id (fun x => { x with pendingSince := some 1 }) 4097).group 1).pendingSince = some 1 ∧ 1 + 4096 ≤ (twoGroups id (fun x => { x with pendingSince := some 1 }) 4097).clocks ∧
    ((twoGroups id (fun x => { x with pendingSince := some 1 }) 4097).group 1).set = .layby ∧ (twoGroups id (fun x => { x with pendingSince := some 1 }) 4096).clocks < 1 + 4096 ∧
    ((twoGroups id id 4097).carriageway ((twoGroups id id 4097).group 1)).length < 8 := by decide +kernel
theorem witness_Windows : 256 ≤ ((labGroup (fun x => { x with ages := [(3, 256)] })).group 0).ages.get 3 0 ∧ 3 ∉ ((labGroup (fun x => { x with ages := [(3, 256)] })).group 0).aged ∧ ¬ 256 ≤ (lab.group 0).ages.get 3 0 ∧
    4096 ≤ ((labGroup (fun x => { x with windowIssues := 4096 })).group 0).windowIssues ∧ ¬ 4096 ≤ (lab.group 0).windowIssues ∧ (lab.groups.find? 0).isSome = true := by decide +kernel
/-- Buckets of an active VF, an idle one, and those of removed ones, at the first boundary or before it. -/
def buckets (sent : Bool) (clocks : Nat) : State := { lab with clocks := clocks, cores := [(0, { lab.core 0 with icache := [0x8000], buckets := [(0, ⟨5, sent⟩), (1, ⟨7, false⟩), (64, ⟨9, false⟩)] })] }
theorem witness_Buckets : ((buckets true 1024).core 0).buckets.rising = true ∧ ((buckets true 1024).core 0).buckets.find? 0 = some ⟨5, true⟩ ∧ ((buckets true 1024).core 0).buckets.find? 1 = some ⟨7, false⟩ ∧
    (∀ p ∈ ((buckets true 1024).core 0).buckets, ((p.1 < 64 ∧ (p.2.sent = true ∨ ∃ q ∈ ((buckets true 1024).core 0).waiting, q.vf = p.1)) ↔ p.1 = 0)) ∧
    (∀ p ∈ ((buckets false 1024).core 0).buckets, ¬ (p.1 < 64 ∧ (p.2.sent = true ∨ ∃ q ∈ ((buckets false 1024).core 0).waiting, q.vf = p.1))) ∧ [0].Pairwise (· < ·) ∧
    (buckets true 1024).clocks = (buckets true 1024).clocks / 1024 * 1024 ∧ ((buckets true 1024).core 0).refilled < (buckets true 1024).clocks / 1024 * 1024 ∧ (buckets true 1023).clocks ≠ (buckets true 1023).clocks / 1024 * 1024 ∧
    ((buckets true 0).core 0).refilled = 0 ∧ (∃ x ∈ (buckets true 1024).groups.vals, x.core = 0 ∧ ((buckets true 1024).ctx x.ctx).vf = 0) ∧ ¬ ∃ x ∈ (buckets true 1024).groups.vals, x.core = 0 ∧ ((buckets true 1024).ctx x.ctx).vf = 1 := by decide +kernel
/-- A fill of VF 0 that waits at the port of core 0 counts as its request. -/
theorem witness_Buckets_waits : let s : State := { lab with cores := [(0, { lab.core 0 with buckets := [(0, ⟨0, false⟩)], waiting := [⟨0, 2, ⟨1, 0x1000, 0⟩⟩], fills := [(0x1000, ⟨none, true, 0, 0, true, false, 1, false⟩)] })] }
    ∃ q ∈ (s.core 0).waiting, q.vf = 0 ∧ s.asking 0 q.ask = true := by decide +kernel

theorem witness_SystemRegisters : lab.issued ∧ lab.untagged (fun l => [(lab.lane 0 l).kOf 97]) ∧ (riImm Mods.none 3).toNat = 3 ∧ handling.issued ∧ handling.here.h = true ∧ handling.untagged (fun l => [(handling.lane 0 l).kOf 97]) ∧
    (riImm Mods.none 18).toNat = 18 ∧ (riImm Mods.none 25).toNat = 25 ∧ (riImm Mods.none 16).toNat = 16 ∧ (handling.ctxs.find? 1).isSome = true ∧ ((0x84000000#64).extractLsb' 26 4).toNat * 32 + 96 ≤ handling.here.budget := by
  simp only [State.issued, State.liveAt, State.untagged]; decide +kernel
theorem witness_SystemForms : lab.issued ∧ lab.untagged (fun l => [(lab.lane 0 l).kOf 97]) ∧ (∀ n ∈ [0#7, 1#7, 3#7], (riImm Mods.none n).toNat = n.toNat) ∧ handling.issued ∧ handling.here.h = true ∧
    handling.untagged (fun l => [(handling.lane 0 l).kOf 97]) ∧ (riImm Mods.none 25).toNat = 25 ∧ (3 : Nat) < 4 ∧ (lab.vfs.find? 0).isSome = true := by
  simp only [State.issued, State.liveAt, State.untagged]; decide +kernel
theorem witness_Traps : lab.running ∧ lab.live (lab.cur.lanes.headD 0) ∧ lab.untagged (fun l => [(lab.lane 0 l).qBit (113 - 112)]) ∧ lab.cur.lanes.filter (fun l => ((lab.lane 0 l).qBit 1).bits = 1) = [] ∧
    lab.cur.lanes.filter (fun l => ((lab.lane 0 l).qBit 1).bits = 0) ≠ [] := by
  simp only [State.untagged, State.running, State.live, State.liveAt]; decide +kernel
/-- A fibre in its handler, and one whose control word has X = 0 beside it. -/
def leaving (x : Bool) : State := { labOf (fun b => { b with epc := 0x9000, fcw := { Fcw.reset with x := x } }) with
  groups := (labOf (fun b => { b with epc := 0x9000, fcw := { Fcw.reset with x := x } })).groups.adjust 0 (fun y => { y with h := true, m := true }) }
theorem witness_Returns_handler : (leaving true).here.h = true ∧ (leaving true).live 0 ∧ (leaving true).here.fibres.rising = true ∧ (leaving true).cur.lanes = [0] ∧ (leaving true).here.live = [0] ∧ ((leaving true).lane 0 0).fcw.x = true ∧
    ((leaving true).lane 0 0).savedWait = .free ∧ ((leaving true).ctx 1).pl = none ∧ ((leaving false).lane 0 0).fcw.x = false := by
  simp only [State.live, State.liveAt]; decide +kernel
/-- Another halt, on its way as the handler's group issues TRET. -/
theorem witness_Returns_handler_other : let h := aHalt 2 .stopping [] [] []
    let s : State := { leaving true with ctxs := [(1, { Ctx.none with halt := some { h with running := some 0 } })] }
    s.here.h = true ∧ s.live 0 ∧ s.here.fibres.rising = true ∧ (s.ctx s.here.ctx).halt = some { h with running := some 0 } ∧ h.phase = .stopping ∧
      (∀ k, (({ s with ctxs := [(1, { Ctx.none with halt := some (aHalt 0 (.handler 0) [] [] []) })] } : State).ctx 1).halt = some k → k.phase ≠ .stopping) := by
  refine ⟨by decide +kernel, ?_, by decide +kernel, by decide +kernel, rfl, ?_⟩
  · simp only [State.live, State.liveAt]; decide +kernel
  · intro k hk
    rw [show (({ leaving true with ctxs := [(1, { Ctx.none with halt := some (aHalt 0 (.handler 0) [] [] []) })] } : State).ctx 1).halt = some (aHalt 0 (.handler 0) [] [] []) by decide +kernel] at hk
    cases hk; decide
/-- Lane 1 of the group has not issued TRET. -/
theorem witness_Returns_handler_waits : let s := { duo id id with cur := lab.cur }; s.here.live = [0, 1] ∧ s.cur.lanes = [0] ∧ (s.lane 0 1).wait ≠ .handler := by decide +kernel
theorem witness_HandlerEntry : ((halted (settled 0)).ctx 1).halt = some (settled 0) ∧ (settled 0).phase = .stopping ∧ (settled 0).reason = 0 ∧ (halted (settled 0)).atRest 1 (settled 0) = true ∧ (halted (settled 0)).liveAt 0 0 ∧
    ((halted (settled 0)).group 0).held = [] := by
  simp only [State.liveAt]; decide +kernel
/-- The group of the trap has a load that waits for the supervisor, as which its fibre ran on. -/
theorem witness_HandlerEntry_ran : let s : State := { next (.ld32 Mods.none 0 3 97 0 0) (labOf (setK 1 0x20000)) with ctxs := (halted (settled 0)).ctxs }
    ∃ k, (s.group 0).held = [k] ∧ k.issue.lanes = [0] ∧ k.issue.lanes.Nodup ∧ s.liveAt 0 0 ∧ (s.ctx 1).halt = some (settled 0) ∧ s.atRest 1 (settled 0) = true ∧ s.stopHeld 1 0 64 = false := by
  refine ⟨((next (.ld32 Mods.none 0 3 97 0 0) (labOf (setK 1 0x20000))).group 0).held.headD ⟨.nop Mods.none, lab.cur, 0, 0, [], [], [], false⟩, ?_⟩
  simp only [State.liveAt]; decide +kernel
def due (eng : Nat) : Halt := aHalt 2 .stopping [(0, 0)] [⟨0, if eng = 0 then 0 else 255, eng, 0⟩] []
/-- No host holds a line of the stop area; a group of a context being halted issues to its 63rd clock, where the line has not reached its core. -/
theorem witness_HandlerEntry_held : (halted (settled 0)).stopHeld 1 0 64 = false ∧ (halted (due 0)).stopHeld 1 0x1000 (32 * ((due 0).stopped.length + 1)) = false ∧ (halted (due 0)).groups.rising = true ∧
    (aHalt 2 .stopping [] [] []).since + 64 ≤ ({ halted (aHalt 2 .stopping [] [] []) with clocks := 64 } : State).clocks ∧ ((halted (aHalt 2 .stopping [] [] [])).group 0).ctx = 1 ∧ ((leaving true).ctx 1).pend = [] := by decide +kernel
theorem witness_HaltCourse : (aHalt 2 .stopping [] [] []).phase = .stopping ∧ ((halted (aHalt 2 .stopping [] [] [])).ctx 1).halt = some (aHalt 2 .stopping [] [] []) ∧ (∀ p ∈ (aHalt 2 .stopping [] [] []).reached, p.1 ≠ 0) ∧
    (0, lab.group 0) ∈ (halted (aHalt 2 .stopping [] [] [])).groups ∧ (halted (aHalt 2 .stopping [] [] [])).groups.find? 0 = some (lab.group 0) ∧ (halted (aHalt 2 .stopping [] [] [])).atRest 1 (aHalt 2 .stopping [] [] []) = false ∧
    (settled 2).reason ≠ 0 ∧ (halted (settled 2)).atRest 1 (settled 2) = true ∧ ((halted (settled 2)).vf ((halted (settled 2)).ctx 1).vf).alive = true := by decide +kernel
/-- An engine at rest, and the load-store engine with a store on its way. -/
theorem witness_EngineStop : ((halted (due 0)).ctx 1).halt = some (due 0) ∧ (due 0).due.find? (fun d => d.core == 0 && d.track == 0 && d.eng == 0) = some ⟨0, 0, 0, 0⟩ ∧ (due 0).hasStopped 0 0 0 = false ∧
    (halted (due 0)).canStop 1 ⟨0, 0, 0, 0⟩ = true ∧ ({ halted (due 2) with cores := [(0, { lab.core 0 with stores := [(4, { aStore with level := 1 })] })] } : State).canStop 1 ⟨0, 255, 2, 0⟩ = false := by decide +kernel
theorem witness_Resume : ((halted (aHalt 2 .supervisor [(0, 0)] [] [])).ctx 1).halt = some (aHalt 2 .supervisor [(0, 0)] [] []) ∧ (aHalt 2 .supervisor [(0, 0)] [] []).phase = .supervisor ∧
    ((halted (aHalt 2 .supervisor [(0, 0)] [] [])).ctx 1).pl = none ∧ ((halted (aHalt 2 .supervisor [(0, 0)] [] [])).ctx 1).ending = false ∧ ((halted (aHalt 2 .supervisor [(0, 0)] [] [])).ctx 1).pend = [] ∧ (ending.ctx 1).ending = true ∧
    (let h : Halt := { aHalt 2 .supervisor [(0, 0)] [] [] with running := some 0 }; ((halted h).ctx 1).halt = some h ∧ h.running = some 0) := by decide +kernel
theorem witness_Preemption : (lab.ctxs.find? 1).isSome = true ∧ (lab.ctx 1).halt = none ∧ (∀ p ∈ lab.groups, p.2.ctx = 1 → p.2.m = false) ∧ ((halted (aHalt 0 (.handler 0) [(0, 0)] [] [])).ctx 1).halt = some (aHalt 0 (.handler 0) [(0, 0)] [] []) ∧
    (∃ p ∈ handling.groups, p.2.ctx = 1 ∧ p.2.m = true) ∧ (({ handling with ctxs := [(1, { Ctx.none with pl := some 0 })], clocks := 85000 } : State).ctx 1).pl = some 0 ∧
    0 + 50000 ≤ ({ handling with clocks := 85000 } : State).ticks ∧ ({ handling with clocks := 84999 } : State).ticks < 0 + 50000 := by decide +kernel

theorem witness_LoadsIssue : mem.issued ∧ mem.actives (.ld32 Mods.none 1 3 97 0 2) = [0] ∧ (mem.addr (srcR 97 1) 8 0).p = false ∧ (mem.addr (srcR 97 1) 8 0).g = false ∧ (mem.addr (srcR 97 1) 8 0).bits % 4 = 0 ∧
    mem.xlate 1 0 0x1008 .read = .ok 0x1008 (placedPage 1) ∧ (mem.addr (srcR 97 1) 16 0).bits % 16 = 0 ∧ mem.xlate 1 0 0x1010 .read = .ok 0x1010 (placedPage 1) := by
  simp only [State.issued, State.liveAt]; decide +kernel
/-- The last 8 bytes of the scratch window of 4 KiB, and LDX of an FMT 6 page within the first 7/8 of it. -/
theorem witness_LoadsIssue_scratch : (let s := labOf (setK 1 0xFF8); let t : State := { s with ctxs := mem.ctxs }; t.issued ∧ (t.addr (srcR 97 1) 0 0).bits % 8 = 0 ∧ (t.addr (srcR 97 1) 0 0).bits + 8 ≤ (t.ctx 1).scratch) := by
  simp only [State.issued, State.liveAt]; decide +kernel
theorem witness_LoadsIssue_x : (placedPage 1).fmt = 0 ∧ (0x1008 : Nat) % 4 = 0 := by decide +kernel
theorem witness_Prefetch : (∀ l ∈ mem.actives (.pf Mods.none 0 97 0 1), (mem.opnd l (srcR 97 1)).p = false ∧ (mem.opnd l (srcR 97 1)).g = false) ∧ mem.xlate 1 0 0x1080 .read = .ok 0x1080 (placedPage 1) ∧
    (placedPage 1).mtype ≠ 2 ∧ (placedPage 1).alloc ≤ 1 ∧ (0 : BitVec 2) ≠ 3#2 ∧ (mem.die 0).l2.length + mem.cur.lanes.length < Config.l2Ways := by decide +kernel

/-- A lane of a load from 0x1008 into v3, outside the caches, and its load. -/
def aLane (limit : Nat) (state : LaneState) : LaneLoad := ⟨3, 0x1008, some 0x1008, 0, false, true, 0, none, false, limit, .v 4 false, some ⟨.v, 3⟩, false, false, state, false, false, none, false, false, none, 0⟩
def aLoad (limit : Nat) (state : LaneState) : Load := ⟨0, 1, 0x8000, 4, false, 4, 0, false, none, [], [(0, aLane limit state)]⟩
def aLine : L1Line := ⟨List.replicate 128 7, false⟩
/-- The core of `lab` changed, and k1, k2 and the window of `mem`. -/
def memCore (f : Core → Core) (clocks : Nat) : State := { mem with cores := [(0, f (mem.core 0))], ids := 10, clocks := clocks }
def inFlight (limit clocks : Nat) : State := memCore (fun c => { c with loads := [(4, aLoad limit .waiting)] }) clocks
theorem witness_LoadData : ((inFlight 0 0).core 0).loads.find? 4 = some (aLoad 0 .waiting) ∧ (aLoad 0 .waiting).lanes.find? 0 = some (aLane 0 .waiting) ∧ (aLoad 0 .waiting).acquire = none ∧ (aLane 0 .waiting).state = .waiting ∧
    (aLoad 0 .waiting).lanes.rising = true ∧ ¬ ((aLane 0 .waiting).limit ≠ 0 ∧ (aLane 0 .waiting).demand = false ∧ (aLoad 0 .waiting).t0 + (aLane 0 .waiting).limit < (inFlight 0 0).ticks) := by decide +kernel
/-- The lane is read at once through the port, or with its line in the L1. -/
theorem witness_LoadData_readable : (inFlight 0 0).readable 0 4 0 (aLoad 0 .waiting) (aLane 0 .waiting) ∧
    (let s := memCore (fun c => { c with loads := [(4, aLoad 0 .waiting)], l1 := [(0x1000, aLine)] }) 0; s.hits 0 { aLane 0 .waiting with l1 := true }) :=
  ⟨⟨by decide +kernel, .inr (.inr ⟨rfl, nofun, served _ _ _ _ _ (by decide +kernel) (by decide +kernel), by decide +kernel, .inr ⟨by decide, by decide, .inr (.inr (by decide +kernel))⟩⟩)⟩,
    by simp only [State.hits]; decide +kernel⟩
theorem witness_LoadData_host : (aLoad 0 .waiting).scratch = false ∧ (aLane 0 .waiting).l1 = false ∧ { aLane 0 .waiting with host := true }.host = true ∧ ({ inFlight 0 0 with host := [(0x1000, 2)] } : State).hostHolds (lineOf 0x1008) = true ∧ (inFlight 0 0).holdsFibre 0 0 3 := by
  simp only [State.holdsFibre, State.liveAt]; decide +kernel
/-- At the limit of 64 ticks the deadline is not past, one tick later it is (110 and 111 clocks). -/
theorem witness_Deadline : ((inFlight 64 110).core 0).loads.find? 4 = some (aLoad 64 .waiting) ∧ ¬ ((aLoad 64 .waiting).t0 + 64 < (inFlight 64 110).ticks) ∧ (aLoad 64 .waiting).t0 + 64 < (inFlight 64 111).ticks ∧
    ((aLoad 64 .waiting).lanes.map (fun p => p.2.uid)).Nodup ∧ ((inFlight 64 111).core 0).tickets.length + 1 ≤ Config.tickets ∧ (inFlight 64 111).holdsFibre 0 0 3 ∧ (aLane 64 .waiting).guessed = false := by
  simp only [State.holdsFibre, State.liveAt]; decide +kernel
/-- As many tickets as a core has, none of them of this load. -/
def exhausted : State := memCore (fun c => { c with loads := [(4, aLoad 64 .waiting)], tickets := (List.range 4096).map (fun n => (n + 100, { ticket with load := n + 100 })) }) 111
theorem witness_Deadline_exhausted : Config.tickets < (exhausted.core 0).tickets.length + 1 := by
  simp [exhausted, memCore, State.core, Map.get, Map.find?, Config.tickets]
def ticketed : State := memCore (fun c => { c with loads := [(4, aLoad 64 (.ticket 5))], tickets := [(5, ticket)] }) 0
theorem witness_Truth : (ticketed.core 0).tickets.find? 5 = some ticket ∧ ticket.truth = none ∧ (ticketed.core 0).loads.find? ticket.load = some (aLoad 64 (.ticket 5)) ∧ (aLoad 64 (.ticket 5)).lanes.find? ticket.lane = some (aLane 64 (.ticket 5)) ∧
    (aLane 64 (.ticket 5)).state = .ticket 5 ∧ (aLoad 64 (.ticket 5)).acquire = none ∧ ticket.holders ≠ [] ∧ ticketed.holdsFibre 0 0 3 := by
  simp only [State.holdsFibre, State.liveAt]; decide +kernel
theorem witness_Truth_readable : ticketed.readable 0 ticket.load ticket.lane (aLoad 64 (.ticket 5)) (aLane 64 (.ticket 5)) :=
  ⟨by decide +kernel, .inr (.inr ⟨rfl, nofun, served _ _ _ _ _ (by decide +kernel) (by decide +kernel), by decide +kernel, .inr ⟨by decide, by decide, .inr (.inr (by decide +kernel))⟩⟩)⟩

/-- A fill of the line at 0x1000 that the L2 has not sent, and one that it has. -/
def filled (sent : Option L1Line) : State := memCore (fun c => { c with fills := [(0x1000, ⟨sent, true, 0, 0, true, true, 1, false⟩)], invalidations := [0x1000] }) 0
theorem witness_Fills : ((filled none).core 0).fills.find? 0x1000 = some ⟨none, true, 0, 0, true, true, 1, false⟩ ∧ (filled none).hostHolds 0x1000 = false ∧ ((filled none).die 0).l2.length < Config.l2Ways ∧
    ({ filled none with host := [(0x1040, 2)] } : State).hostHolds 0x1000 = true ∧ ((filled (some aLine)).core 0).fills.find? 0x1000 = some ⟨some aLine, true, 0, 0, true, true, 1, false⟩ ∧
    ((filled (some aLine)).core 0).onFill 0x1000 = [] ∧ ((filled (some aLine)).core 0).l1.length < Config.l1Lines ∧ 0x1000 ∈ ((filled (some aLine)).core 0).invalidations ∧
    (filled none).linkOk 0 0x1000 = true := by decide +kernel
/-- The port serves the fill: with no bucket of the VF, and with one of two tokens where the fill waits first. -/
theorem witness_Fills_port : (filled none).serves 1 0 2 ⟨1, 0x1000, 0⟩ ∧
    (memCore (fun c => { c with fills := [(0x1000, ⟨none, true, 0, 0, true, true, 1, false⟩)], buckets := [(0, ⟨2, false⟩)], waiting := [⟨0, 2, ⟨1, 0x1000, 0⟩⟩] }) 0).serves 1 0 2 ⟨1, 0x1000, 0⟩ :=
  ⟨served _ _ _ _ _ (by decide +kernel) (by decide +kernel), servedOf _ _ _ _ _ ⟨2, false⟩ (by decide +kernel) (by decide +kernel) (by decide +kernel)⟩
/-- A fill of core 80, of die 1, of a line of die 0, whose firewall does not take die 1. -/
def refusing : State := { lab with cores := [(80, { Core.reset with fills := [(0x1000, ⟨none, true, 0, 0, true, false, 1, false⟩)] })], dies := [(0, { Die.reset with allow := 1 })] }
theorem witness_Fills_refused : (refusing.core 80).fills.find? 0x1000 = some ⟨none, true, 0, 0, true, false, 1, false⟩ ∧ refusing.linkOk (dieOf 80) 0x1000 = false ∧ (refusing.die (dieOf 80)).l2.find? 0x1000 = none := by decide +kernel
theorem witness_Fills_refused_port : refusing.serves 1 80 2 ⟨1, 0x1000, 0⟩ := served _ _ _ _ _ (by decide +kernel) (by decide +kernel)
def asked : State := { mem with ctxs := [(1, { Ctx.none with scratch := 0x1000, faults := [0x20000] })] }
theorem witness_Walks : mem.pageOf 1 0 0x1008 = .page (placedPage 1) ∧ (placedPage 1).ctx = 1 ∧ (0x1008 : Nat) / 2 ^ (placedPage 1).bits * 2 ^ (placedPage 1).bits = (placedPage 1).va ∧ mem.pageOf 1 0 0x20000 = .missing ∧
    (mem.ctxs.find? 1).isSome = true ∧ 0x20000 ∈ (asked.ctx 1).faults ∧ asked.xlate 1 0 0x20000 .read = .replay := by decide +kernel
/-- k1 at addresses that are misaligned, refused and missing. -/
def base (a : W64) : State := labOf (setK 1 a)
/-- `lab` with its page readable only. -/
def readOnly : State := { base 0x1000 with cores := [(0, { lab.core 0 with tlb := [{ placedPage 1 with w := false }] })] }
theorem witness_AccessFaults : (base 0x1004).running ∧ (base 0x1004).untagged (fun l => [Instr.maskBit (.ld64 Mods.none 0 4 97 0 0) ((base 0x1004).lane 0 l), (base 0x1004).opnd l (srcR 97 1)]) ∧
    (base 0x1004).actives (.ld64 Mods.none 0 4 97 0 0) = [] ++ 0 :: [] ∧ ((base 0x1004).addr (srcR 97 1) 0 0).bits % 8 ≠ 0 ∧ readOnly.xlate 1 0 0x1000 .write = .trap 1 ∧ readOnly.running ∧
    readOnly.untagged (fun l => [readOnly.opnd l (srcR 8 4)]) ∧ (base 0x20000).xlate 1 0 0x20000 .read = .replay ∧ (base 0x20000).actives (.ld32 Mods.none 0 3 97 0 0) = [0] ∧ ((base 0x20000).ctxs.find? 1).isSome = true := by
  simp only [State.untagged, State.running]; decide +kernel
/-- Lane 0 reads, lane 1 faults. -/
theorem witness_AccessFaults_second : let s := duo (setK 1 0x1000) (setK 1 0x1002)
    s.actives (.ld32 Mods.none 0 3 97 0 0) = [0] ++ 1 :: [] ∧ s.xlate 1 0 0x1000 .read = .ok 0x1000 (placedPage 1) ∧ (s.addr (srcR 97 1) 0 1).bits % 4 ≠ 0 ∧ (placedPage 1).rd = true := by decide +kernel

/-- v3 guessed, with a ticket that holds the truth or not, or with none. -/
def guessing (tickets : Map Ticket) : State := { labOf (setG 3 0) with cores := [(0, { lab.core 0 with tickets := tickets })] }
def truth : Ticket := { ticket with truth := some (9, false) }
theorem witness_GuessInstructions : (guessing []).issued ∧ (guessing []).untagged (fun l => [Instr.maskBit (.gacc Mods.none 3 0) ((guessing []).lane 0 l)]) ∧ ((guessing []).cur.lanes.map (fun l => ((guessing []).lane 0 l).uid)).Nodup ∧
    (∀ l ∈ (guessing []).cur.lanes, ((guessing []).lane 0 l).wait = .free) ∧ (∀ l ∈ (guessing []).cur.lanes, ((guessing []).opnd l (srcR 3 1)).g = true ∧ ((guessing []).lane 0 l).gm = false ∧
      ((guessing []).core 0).links 0 ((guessing []).lane 0 l).uid (codeRegs ((guessing []).lane 0 l) 3 1) = [] ∧ ((guessing []).core 0).linked 0 ((guessing []).lane 0 l).uid = []) := by
  simp only [State.issued, State.liveAt, State.untagged]; decide +kernel
theorem witness_GuessInstructions_truth : (guessing [(5, truth)]).issued ∧ ((guessing [(5, truth)]).core 0).links 0 3 (codeRegs ((guessing [(5, truth)]).lane 0 0) 3 1) = [(5, truth, ⟨0, 3, ⟨.v, 3⟩, 1, 0, 0⟩)] ∧
    ((guessing [(5, truth)]).core 0).tickets.find? 5 = some truth ∧ truth.truth.isSome = true ∧ (1 : Nat) ≤ (codeRegs ((guessing [(5, truth)]).lane 0 0) 3 1).length ∧ lab.live 0 := by
  simp only [State.issued, State.liveAt, State.live]; decide +kernel
theorem witness_GuessInstructions_waits : (guessing [(5, ticket)]).issued ∧ ((guessing [(5, ticket)]).core 0).links 0 3 (codeRegs ((guessing [(5, ticket)]).lane 0 0) 3 1) = [(5, ticket, ⟨0, 3, ⟨.v, 3⟩, 1, 0, 0⟩)] ∧ ticket.truth = none ∧
    ((guessing [(5, ticket)]).opnd 0 (srcR 3 1)).g = true := by
  simp only [State.issued, State.liveAt]; decide +kernel

theorem witness_StoresIssue : mem.issued ∧ mem.untagged (fun l => [Instr.maskBit (.st Mods.none 2 2 97 0 0) (mem.lane 0 l)]) ∧ mem.actives (.st Mods.none 2 2 97 0 0) = [0] ∧ (mem.addr (srcR 97 1) 0 0).p = false ∧
    (mem.addr (srcR 97 1) 0 0).g = false ∧ (mem.opnd 0 (srcR 2 1)).g = false ∧ (mem.addr (srcR 97 1) 0 0).bits % 16 = 0 ∧ mem.xlate 1 0 0x1000 .write = .ok 0x1000 (placedPage 1) ∧
    mem.releaseDone 0 0 3 4 ((mem.lane 0 0).upto mem.ids) none = true := by
  simp only [State.issued, State.liveAt, State.untagged]; decide +kernel
theorem witness_StoresIssue_scratch : let s : State := { labOf (setK 1 0xFF0) with ctxs := mem.ctxs }; (s.addr (srcR 97 1) 0 0).bits % 16 = 0 ∧ (s.addr (srcR 97 1) 0 0).bits + 16 ≤ (s.ctx 1).scratch := by decide +kernel
def storing (w : Store) : State := memCore (fun c => { c with stores := [(4, w)] }) 0
theorem witness_StorePerformed : ((storing aStore).core 0).stores.find? 4 = some aStore ∧ aStore.level = 0 ∧ ((storing aStore).core 0).mayAccept 4 aStore = true ∧ (storing aStore).engineRuns 1 0 0 255 2 false = true ∧ aStore.scratch = false ∧
    ((storing { aStore with level := 1 }).core 0).queuedBefore 4 0x1000 4 = false ∧ (∀ l ∈ linesOf 0x1000 4, (storing { aStore with level := 1 }).hostHolds l = false) ∧ aStore.pa % 128 + 4 ≤ 128 ∧ aStore.mtype ≠ 2 ∧
    isCauseway aStore.pa = false ∧ (storing aStore).dies = [] ∧
    ((storing aStore).core 0).stores.find? (storing aStore).ids = none := by decide +kernel
/-- The store at the port, and one at its node. -/
theorem witness_StorePerformed_port : (storing { aStore with level := 1 }).serves 1 0 (tokens 4) ⟨2, 4, 0⟩ ∧ (∀ a, (storing { aStore with level := 1 }).keeps ((storing aStore).keyOf 1) (fun i => 0x1000 + i) 4 a) ∧
    (∀ l ∈ linesOf 0x1000 4, (storing { aStore with level := 1 }).linkOk 0 l = true) ∧ { aStore with host := true }.host = true ∧ { aStore with level := 3 }.level = 3 :=
  ⟨served _ _ _ _ _ (by decide +kernel) (by decide +kernel), fun a => keepsAll _ _ _ _ _ (by decide +kernel), by decide +kernel, rfl, rfl⟩
/-- A store that the halted context may not accept. -/
theorem witness_StorePerformed_not : ({ storing aStore with ctxs := [(1, { Ctx.none with halt := some (aHalt 2 .supervisor [] [] []) })] } : State).engineRuns 1 0 0 255 2 false = false := by decide +kernel

theorem witness_AtomicsIssue : mem.issued ∧ mem.untagged (fun l => [Instr.maskBit (.acas Mods.none 0 3 1 3 2) (mem.lane 0 l)]) ∧ mem.actives (.acas Mods.none 0 3 1 3 2) = [0] ∧
    (∀ v ∈ [(mem.lane 0 0).regVal ⟨.k, 1⟩, mem.opnd 0 (srcB' Mods.none 2 1), (Dst.vk 3 1).read (mem.lane 0 0)], v.g = false ∧ v.p = false) ∧ ((mem.lane 0 0).regVal ⟨.k, 1⟩).bits % 8 = 0 ∧
    mem.xlate 1 0 0x1000 .write = .ok 0x1000 (placedPage 1) ∧ (placedPage 1).rd = true := by
  simp only [State.issued, State.liveAt, State.untagged]; decide +kernel
def atomicLane (pa : Nat) (order : Option Nat) : LaneAtomic := ⟨3, BitVec.ofNat 64 pa, pa, 0, 5, 0, some ⟨.v, 3⟩, order, false, false, none, 0⟩
def anAtomic (order : Option Nat) : Atomic := ⟨0, 1, 4, .add, 4, 3, true, [(0, atomicLane 0x1000 order)], none, 2⟩
def atomicAt (a : Atomic) : State := memCore (fun c => { c with atomics := [(4, a)] }) 0
theorem witness_AtomicPerformed : ((atomicAt (anAtomic none)).core 0).atomics.find? 4 = some (anAtomic none) ∧ ((atomicAt (anAtomic none)).core 0).laneAccepts (anAtomic none) 0 (atomicLane 0x1000 none) = true ∧
    (atomicAt (anAtomic none)).engineRuns 1 0 0 255 2 false = true ∧ (anAtomic none).lanes.find? 0 = some (atomicLane 0x1000 none) ∧ (anAtomic (some 4)).lanes.find? 0 = some (atomicLane 0x1000 (some 4)) ∧
    ((atomicAt (anAtomic (some 4))).core 0).queuedBefore 4 0x1000 4 = false ∧ (atomicAt (anAtomic (some 4))).hostHolds 0x1000 = false ∧ (atomicAt (anAtomic (some 4))).linkOk 0 0x1000 = true ∧
    (atomicLane 0x1000 (some 4)).pa % 4 = 0 ∧ (atomicAt (anAtomic (some 4))).dies = [] ∧ ((atomicAt (anAtomic (some 4))).directoryLine 0x1000).poison = false ∧ (atomicAt (anAtomic (some 4))).sealed 1 0x1000 = false ∧
    (atomicAt (anAtomic (some 4))).holdsFibre 0 0 3 := by
  simp only [State.holdsFibre, State.liveAt]; decide +kernel
theorem witness_AtomicPerformed_port : (atomicAt (anAtomic (some 4))).serves 1 0 1 ⟨3, 4, 0⟩ := served _ _ _ _ _ (by decide +kernel) (by decide +kernel)
/-- Two lanes on one place: the upper waits for the lower. -/
theorem witness_AtomicPerformed_lower : let a : Atomic := { anAtomic none with lanes := [(0, atomicLane 0x1000 none), (1, atomicLane 0x1000 none)] }
    ∃ k f, a.lanes.find? k = some f ∧ f.order = none ∧ k < 1 ∧ f.pa < 0x1000 + a.bytes ∧ 0x1000 < f.pa + a.bytes :=
  ⟨0, atomicLane 0x1000 none, rfl, rfl, by decide, by decide, by decide⟩
theorem witness_AtomicPerformed_held : ({ atomicAt (anAtomic (some 4)) with host := [(0x1000, 2)] } : State).hostHolds (lineOf 0x1000) = true ∧ { atomicLane 0x1000 (some 4) with host := true }.host = true ∧
    (({ atomicAt (anAtomic (some 4)) with poison := [0x1000] } : State).directoryLine 0x1000).poison = true := by decide +kernel

/-- Without victims, and with the victim core 1 of die 0 in k2. -/
theorem witness_AcquireIssue : mem.issued ∧ mem.untagged (fun l => [Instr.maskBit (.ldaq Mods.none 0 4 1 3 120) (mem.lane 0 l)]) ∧ ((mem.lane 0 0).regVal ⟨.k, 1⟩).bits % 8 = 0 ∧ mem.xlate 1 0 0x1000 .read = .ok 0x1000 (placedPage 1) ∧
    (let s := labOf (fun b => setK 2 1 (setK 1 0x1000 b))
     s.untagged (fun l => [(s.lane 0 l).kOf 98]) ∧ ((s.lane 0 0).kOf 98).bits < 2 ^ 16 ∧ ((s.lane 0 0).kOf 98).bits % 2 ^ 8 < Config.coresPerDie ∧ ((s.lane 0 0).kOf 98).bits / 2 ^ 8 ∈ (s.vf (s.ctx 1).vf).dies ∧ (s.core 1).retired = false) := by
  simp only [State.issued, State.liveAt, State.untagged]; decide +kernel
def acquire (victims : List Nat) : Load := { aLoad 0 .waiting with acquire := some 3, victims := victims }
def acquiring (victims : List Nat) : State := memCore (fun c => { c with loads := [(4, acquire victims)] }) 0
theorem witness_Drain : ((acquiring [1]).core 0).loads.find? 4 = some (acquire [1]) ∧ 1 ∈ (acquire [1]).victims ∧ ((acquiring [1]).core 1).drained 2 = true ∧
    (({ acquiring [1] with cores := [(0, (acquiring [1]).core 0), (1, { Core.reset with stores := [(7, { aStore with level := 1 })] })] } : State).core 1).drained 2 = false := by decide +kernel
theorem witness_Acquire : (acquire []).acquire = some 3 ∧ (acquire []).victims = [] ∧ ((acquiring []).core 0).loadsDone 0 3 4 none = true ∧ ((acquiring []).core 0).atomicsDone 0 3 4 none = true ∧
    (acquiring []).laneReady 0 (acquire []) (aLane 0 .waiting) = true ∧ (acquiring []).linkOk 0 (lineOf 0x1008) = true ∧ isCauseway (lineOf 0x1008) = false ∧ ((acquiring []).core 0).queuedBefore 10 0x1008 4 = false ∧ (acquiring []).hostHolds (lineOf 0x1008) = false ∧
    (acquiring []).unacknowledged (lineOf 0x1008) 128 = false ∧ (aLane 0 .waiting).mtype ≠ 2 ∧ (aLane 0 .waiting).scale = none ∧ (acquiring []).sealed 1 (lineOf 0x1008) = false ∧ ((acquiring []).core 0).stores = [] ∧
    (acquire [1]).victims ≠ [] ∧ ({ acquiring [] with cores := [(0, { (acquiring []).core 0 with stores := [(7, { aStore with level := 2 })] })] } : State).unacknowledged (lineOf 0x1008) 128 = true := by decide +kernel
theorem witness_Acquire_port : (acquiring []).serves 1 0 1 ⟨0, 4, 0⟩ := served _ _ _ _ _ (by decide +kernel) (by decide +kernel)
theorem witness_Acquire_queued (n : Nat) : ((acquiring []).core 0).queued n = none ∧ ((acquiring []).core 0).queuedPoison n 4 = false := by
  have h : ((acquiring []).core 0).stores = [] := by decide +kernel
  simp [Core.queued, Core.queuedPoison, h, Map.vals]
theorem witness_Fences : mem.releaseDone 0 0 3 4 ((mem.lane 0 0).upto mem.ids) none = true ∧ (mem.core 0).loadsDone 0 3 ((mem.lane 0 0).upto mem.ids) none = true ∧ (mem.core 0).atomicsDone 0 3 ((mem.lane 0 0).upto mem.ids) none = true ∧
    (storing aStore).releaseDone 0 0 3 3 (((storing aStore).lane 0 0).upto (storing aStore).ids) none = false ∧ mem.untagged (fun l => [(mem.lane 0 l).kOf 97, (mem.lane 0 l).kOf 98]) ∧ mem.live 0 ∧
    mem.pathsDone 0 3 3 4 ((mem.lane 0 0).upto mem.ids) = true := by
  simp only [State.untagged, State.live, State.liveAt]; decide +kernel
/-- `mem` with a page that allows pins and one line of it in the L2, pinned or not. -/
def line2 (pin : Option Nat) : L2Line := ⟨List.replicate 128 0, false, true, pin, 0, 0, false⟩
def cached (pin : Option Nat) : State :=
  { mem with cores := [(0, { mem.core 0 with tlb := [{ placedPage 1 with lk := true }] })], dies := [(0, { Die.reset with l2 := [(0x1000, line2 pin)] })], ctxs := [(1, { Ctx.none with lockLimit := 4 })] }
theorem witness_CacheControl : (cached none).issued ∧ ((cached none).addr (srcR 97 1) 0 0).p = false ∧ ((cached none).addr (srcR 97 1) 0 0).g = false ∧ (cached none).xlate 1 0 0x1000 .read = .ok 0x1000 { placedPage 1 with lk := true } ∧
    (cached none).hostHolds 0x1000 = false ∧ (cached none).cur.lanes = [0] ∧ (cached none).pinOf 0x1000 = none ∧ (((cached none).die 0).l2.find? 0x1000).isSome = true ∧ (cached (some 1)).pinOf 0x1000 = some (0, 1) ∧
    ((cached none).ctxs.find? 1).isSome = true ∧ (cached none).writeBackDue 0 0x1000 true = true ∧ (cached none).writeBackDue 0 0x1000 false = true ∧ mem.writeBackDue 0 0x1000 false = false ∧
    ((cached none).core 0).acquired 0 3 (cached none).ids = true ∧ (cached none).linkOk 0 0x1000 = true ∧ (placedPage 1).alloc ≤ 3 := by
  simp only [State.issued, State.liveAt]; decide +kernel
def back : Store := { aStore with data := List.replicate 128 0, mtype := 3, level := 1, writeBack := true }
def backing : State := { cached none with cores := [(0, { (cached none).core 0 with stores := [(4, back)] })] }
theorem witness_WriteBack_port : backing.serves 1 0 2 ⟨2, 4, 0⟩ := served _ _ _ _ _ (by decide +kernel) (by decide +kernel)
theorem witness_WriteBack : let s := backing
    (s.core 0).stores.find? 4 = some back ∧ back.level = 1 ∧ back.writeBack = true ∧ back.data.length = 128 ∧ back.pa % 128 = 0 ∧ (s.core 0).queuedBefore 4 0x1000 128 = false ∧ s.hostHolds 0x1000 = false ∧
    (s.die 0).l2.find? 0x1000 = some (line2 none) ∧ (line2 none).dirty = true ∧ (line2 none).data.length = 128 := by decide +kernel

/-- `tiled` with a channel 3 of its team that holds an accumulator for one taker. -/
def given : State := { tiled with grids := [(2, { lab.grid 2 with teams := [(0, { Team.none with groups := [0], cores := [0], channels := [(3, ⟨none, 2, 1⟩)] })] })] }
theorem witness_HandleInstructions : tiled.live 0 ∧ (tiled.here.handle 5).owned = false ∧ (tiled.here.handle 4).owned = true ∧ (tiled.teamOf tiled.here).channels.find? 3 = none ∧ ((tiled.grid 2).teams.find? 0).isSome = true ∧
    (tiled.grids.find? 2).isSome = true ∧ (given.teamOf given.here).channels.find? 3 = some ⟨none, 2, 1⟩ ∧ (given.here.handle 5).owned = false := by
  simp only [State.live, State.liveAt]; decide +kernel
/-- A handle that maps a version which nothing else refers to. -/
def aSlot (data : List Byte) : Slot := ⟨1, 0, true, 0, data, [], false, none, none, true, 0, none⟩
def mapped : State := { labGroup (fun x => { x with handles := [(4, ⟨true, false, 2, some 90⟩)] }) with slots := [(90, aSlot [])] }
theorem witness_HandleRelease : (mapped.here.handle 4).owned = true ∧ (mapped.here.handle 4).slot = some 90 ∧ mapped.sharers 90 = 1 ∧ (∀ y ∈ mapped.cores.vals, y.tileOps.vals = []) ∧ (∀ v ∈ mapped.slots.vals, v.writer = none) := by decide +kernel
theorem witness_HandleFaults : tiled.running ∧ (tiled.here.handle 4).owned = true ∧ (tiled.here.handle 4).kind < 4 ∧ (tiled.here.handle 5).owned = false ∧ (tiled.here.handle 5).released = false ∧
    ((next (.hrel Mods.none 4) tiled).here.handle 4).released = true ∧ (next (.hrel Mods.none 4) tiled).running ∧ (tiled.here.handle 8).kind ∉ [2] ∧ ((given.teamOf given.here).channels.find? 3).isSome = true ∧
    (tiled.teamOf tiled.here).channels.find? 3 = none ∧ given.running := by
  simp only [State.running]; decide +kernel
/-- The first failure of an MMA D = h62: h62 is free; and of the quarter 3 of D = h62, h65 does not exist. -/
theorem witness_HandleFaults_matrix : (List.range 4).filter (fun n => tiled.cur.lanes.any (fun l => l / 8 = n)) = [0] ∧ (tiled.here.handle 62).owned = false ∧ 63 < 62 + 3 ∧ 63 < 61 + 3 ∧ ¬ 63 < 60 + 3 := by decide +kernel
/-- k1 and k2 with tags. -/
def tags (x y : Elem 64) : State := { labOf (fun b => { b with k := (b.k.put 1 x).put 2 y }) with ctxs := mem.ctxs }
/-- The limits of the copies: the greatest length, one above it, misaligned and beyond the window. -/
theorem witness_CopyFaults : (tags ⟨0, false, true⟩ ⟨0, true, false⟩).running ∧ (((tags ⟨0, false, true⟩ ⟨0, true, false⟩).lane 0 0).kOf 97).p = true ∧ (((tags ⟨0, false, true⟩ ⟨0, true, false⟩).lane 0 0).kOf 98).g = true ∧
    (((tags ⟨0, false, true⟩ ⟨0, true, false⟩).lane 0 0).kOf 98).p = false ∧ (((tags ⟨0x1002, false, false⟩ ⟨0x1000, false, false⟩).lane 0 0).kOf 97).bits % 4 ≠ 0 ∧
    (((tags ⟨0x1002, false, false⟩ ⟨0x1000, false, false⟩).lane 0 0).kOf 98).bits % 4 = 0 ∧ (2 : Nat) ^ 24 < ((0x20000#24 ++ 4#7).signExtend 64).toNat ∧ ¬ 2 ^ 24 < ((0x20000#24 ++ 0#7).signExtend 64).toNat ∧
    ((tags ⟨0x1002, false, false⟩ ⟨0x1000, false, false⟩).ctx 1).scratch < 0x1000 + 4 ∧ ¬ ((tags ⟨0x1002, false, false⟩ ⟨0x1000, false, false⟩).ctx 1).scratch < 0xFFC + 4 := by
  simp only [State.running]; decide +kernel
theorem witness_FabricFaults : askew.running ∧ ((askew.lane 0 0).kOf 97).bits % 64 ≠ 0 ∧ ((askew.lane 0 0).kOf 97).bits % 8 ≠ 0 ∧ ((askew.lane 0 0).kOf 97).bits % 128 ≠ 0 ∧ ((askew.lane 0 0).kOf 97).p = false ∧ ((askew.lane 0 0).kOf 97).g = false ∧
    ((askew.vf (askew.ctx 1).vf).comms.find? (0x300000 / 2 ^ 32)).isNone = true ∧ ((askew.lane 0 0).kOf 98).bits = 0x300000 ∧ ((3 : Nat) < 4 ∨ 16 < (3 : Nat)) ∧ ¬ ((4 : Nat) < 4 ∨ 16 < (4 : Nat)) ∧ ((17 : Nat) < 4 ∨ 16 < (17 : Nat)) ∧
    (base 0x4000000000000000).xlate 1 0 0x4000000000000000 .read = .trap 1 ∧ (0x4000000000000000 : Nat) % 64 = 0 ∧ (base 0x1000).xlate 1 0 0x1000 .read = .ok 0x1000 (placedPage 1) ∧
    (let s : State := { base 0x1000 with poison := [0x1000] }; s.hostHolds 0x1000 = false ∧ (s.fabricRead 1 0 0x1000 64 (placedPage 1)).2 = true) := by
  simp only [State.running]; decide +kernel

/-- h4 accumulator, h8 A, h12 B, and a clean aligned base in k1 with a pitch of 32 in k2. -/
def tiling : State := { labOf (fun b => setK 2 32 (setK 1 0x800 b)) with groups := (labOf (fun b => setK 2 32 (setK 1 0x800 b))).groups.adjust 0 (fun x => { x with handles := tiled.here.handles }), ctxs := [(1, { Ctx.none with scratch := 0x2000 })] }
theorem witness_TileIssue : tiling.live 0 ∧ tiling.issued ∧ (tiling.here.handle 4).owned = true ∧ (tiling.here.handle 4).kind = 2 ∧ (tiling.here.handle 8).owned = true ∧ (tiling.here.handle 8).kind ∈ [0, 1, 3] ∧
    (tiling.versionsOf 0).length < 256 ∧ (tiling.opnd 0 (srcR 97 1)).p = false ∧ (tiling.opnd 0 (srcR 97 1)).g = false ∧ (tiling.opnd 0 (.reg 98 1)) = ⟨32, false, false⟩ ∧ (tiling.opnd 0 (srcR 97 1)).bits % 32 = 0 ∧
    0x800 + (256 * 15 + 16 * 4) ≤ (tiling.ctx 1).scratch ∧ tiling.untagged (fun l => [Instr.maskBit (.twr Mods.none 0 4 5 6) (tiling.lane 0 l)]) ∧ (tiling.opnd 0 (srcB' Mods.none 6 1)).g = false ∧ (tiling.opnd 0 (srcR 5 1)).g = false ∧
    (tiling.here.handle 12).owned = true ∧ (tiling.here.handle 12).kind ∈ [1, 3] ∧ 4 + 0 ≤ 63 ∧ (tiling.versionsOf 0).length + 1 ≤ 256 := by
  simp only [State.issued, State.liveAt, State.untagged, State.live]; decide +kernel
/-- A matrix operation on `tiled`'s handles: the versions 90 of A, 91 of B, and 92, which it writes. -/
def operand (b : Byte) : Slot := ⟨1, 0, false, 1, List.replicate 512 b, [], false, none, none, true, 0, none⟩
def quarter (done : Bool) : Quarter := ⟨[some 90], some 91, none, 92, 8, 12, done, 0⟩
def tileOp (kind : TileKind) (mode : Nat) (quarters : Map Quarter) : TileOp := ⟨0, 1, 4, kind, mode, 0, false, 0, 4, none, none, 0x1000, 32, false, 0, false, false, [], quarters, 0, none, 0⟩
/-- A group that holds as many versions as it may, in an operation in flight. -/
def heavy : State :=
  let o := tileOp .mma 1 ((List.range 256).map (fun n => (n, { quarter false with a := [], b := none, new := n + 100 })))
  { tiling with cores := [(0, { tiling.core 0 with tileOps := [(4, o)] })] }
theorem witness_TileIssue_held : (heavy.versionsOf 0).length = 256 ∧ (heavy.here.handle 4).owned = true ∧ heavy.live 0 := by
  simp only [State.live, State.liveAt]; decide +kernel
def written : Slot := { aSlot [] with writer := some 4 }
def passing (kind : TileKind) (mode : Nat) (a : Slot) (done : Bool) : State :=
  { memCore (fun c => { c with tileOps := [(4, tileOp kind mode [(0, quarter done)])] }) 0 with slots := [(90, a), (91, operand 0x40), (92, written)], groups := tiled.groups.adjust 0 (fun x => { x with handles := [(4, ⟨true, false, 2, some 92⟩), (8, ⟨true, false, 0, some 90⟩), (12, ⟨true, false, 1, some 91⟩)], tiles := 1 }) }
theorem witness_MatrixPasses : ((passing .mma 1 (operand 0x38) false).core 0).tileOps.find? 4 = some (tileOp .mma 1 [(0, quarter false)]) ∧ (tileOp .mma 1 [(0, quarter false)]).quarters.find? 0 = some (quarter false) ∧ (quarter false).done = false ∧
    (passing .mma 1 (operand 0x38) false).engineRuns 1 0 0 255 3 false = true ∧ (passing .mma 1 (operand 0x38) false).slots.find? 92 = some written ∧ written.acc = true ∧ (passing .mma 1 (operand 0x38) false).slots.rising = true ∧
    ((passing .mma 1 (operand 0x38) false).slots.filter (fun p => p.2.res && p.2.core == 0 && p.2.acc)).length + (quarter false).a.length + 3 ≤ 768 ∧ (operand 0x38).writer = none ∧ (operand 0x38).bound = none ∧
    (operand 0x38).acc = false ∧ (operand 0x38).tag = 1 ∧ (quarter false).a.length = 1 ∧
    (passing .mma 1 (operand 0x38) false).tileTurn 0 (tileOp .mma 1 [(0, quarter false)]) = true := by decide +kernel
/-- A frozen quarter of an earlier operation of the group. -/
theorem witness_MatrixPasses_frozen : let o := { tileOp .mma 1 [(0, quarter false)] with seq := 9 }
    let s : State := { passing .mma 1 (operand 0x38) false with ctxs := [(1, { Ctx.none with images := [(0, ⟨1, 32, [(4, 0)]⟩)] })] }
    ∃ c i r p, (s.ctx 1).images.find? c = some i ∧ r ∈ i.records ∧ (s.core 0).tileOps.find? r.1 = some p ∧ p.g = o.g ∧ r.1 < o.seq :=
  ⟨0, ⟨1, 32, [(4, 0)]⟩, (4, 0), tileOp .mma 1 [(0, quarter false)], by decide +kernel, by decide, by decide +kernel, rfl, by decide⟩
/-- A version that is still to be written, an A of another tag, and two quarters that may not fuse. -/
theorem witness_MatrixPasses_not : { operand 0x38 with writer := some 7 }.writer ≠ none ∧ { operand 0x38 with tag := 2 }.tag ≠ 1 ∧ (passing .mma 1 (operand 0x38) false).mayFuse 0 [] = false := by decide +kernel
theorem witness_TilePerformed : ((passing .mma 1 (operand 0x38) true).core 0).tileOps.find? 4 = some (tileOp .mma 1 [(0, quarter true)]) ∧ (passing .mma 1 (operand 0x38) true).engineRuns 1 0 0 255 3 false = true ∧
    (passing .mma 1 (operand 0x38) true).tileTurn 0 (tileOp .mma 1 [(0, quarter true)]) = true ∧ ((passing .mma 1 (operand 0x38) true).groups.find? 0).isSome = true ∧ (∀ q ∈ (tileOp .mma 1 [(0, quarter true)]).quarters.vals, q.done = true ∧ q.bad = 0) ∧ (∃ q ∈ (tileOp .mma 1 [(0, quarter false)]).quarters.vals, q.done = false) ∧
    (tileOp .mma 1 []).src = none ∧ { quarter true with bad := 1 }.bad ≠ 0 ∧ { tileOp .mmas 1 [(0, { quarter true with bad := 1 })] with spt := true }.spt = true ∧
    ({ passing .mma 1 (operand 0x38) true with ctxs := [(1, { Ctx.none with halt := some (aHalt 2 .supervisor [] [] []) })] } : State).engineRuns 1 0 0 255 3 false = false := by decide +kernel
/-- An operation of one of the other kinds on the handle h4, which maps 92; 93 is the version a store or an access reads. -/
def single (kind : TileKind) (mode : Nat) (src dst : Option Nat) (lanes : List TileLane) : TileOp := { tileOp kind mode [] with src := src, dst := dst, lanes := lanes }
def performing (o : TileOp) : State :=
  { memCore (fun c => { c with tileOps := [(4, o)] }) 0 with slots := [(92, written), (93, aSlot (List.replicate 1024 1))], ctxs := [(1, { Ctx.none with scratch := 0x4000 })], groups := lab.groups.adjust 0 (fun x => { x with handles := [(4, ⟨true, false, 2, some 92⟩), (5, ⟨true, false, 2, some 93⟩)], tiles := 1 }) }
theorem witness_TilePerformed_writes : ((performing (single .zero 0 none (some 92) [])).core 0).tileOps.find? 4 = some (single .zero 0 none (some 92) []) ∧ (performing (single .zero 0 none (some 92) [])).slots.find? 92 = some written ∧
    92 ∈ (performing (single .zero 0 none (some 92) [])).groups.vals.flatMap Group.slots ∧ (performing (single .zero 0 none (some 92) [])).slots.rising = true ∧
    ((performing (single .zero 0 none (some 92) [])).slots.filter (fun p => p.2.res && p.2.core == 0 && p.2.acc == written.acc)).length + 2 ≤ 768 := by decide +kernel
def element (reg : Option Reg) : TileLane := ⟨0, 3, reg, 255, 7, false, false⟩
theorem witness_TilePerformed_accesses : ((single .wr 0 (some 93) (some 92) [element none]).lanes.map TileLane.index).Nodup ∧ (∀ l ∈ (single .wr 0 (some 93) (some 92) [element none]).lanes, l.index < 256) ∧
    (performing (single .rd 0 (some 93) none [element (some ⟨.v, 3⟩)])).slots.find? 93 = some (aSlot (List.replicate 1024 1)) ∧ (aSlot (List.replicate 1024 1)).data.length = 1024 ∧ (aSlot (List.replicate 1024 1)).writer = none ∧
    ([element (some ⟨.v, 3⟩)].map TileLane.lane).Nodup ∧ ([element (some ⟨.v, 3⟩)].map TileLane.uid).Nodup ∧ (performing (single .rd 0 (some 93) none [element (some ⟨.v, 3⟩)])).holdsFibre 0 0 3 := by
  simp only [State.holdsFibre, State.liveAt]; decide +kernel
/-- Rows at 0x1000 with a pitch of 32, all on one page, and a scratch place within the window. -/
theorem witness_TilePerformed_memory : (∀ r, r < 32 → lab.xlate 1 0 (0x1000 + BitVec.ofNat 64 (r / 2) * 64 + BitVec.ofNat 64 (32 * (r % 2))) .read = .ok (0x1000 + 32 * r) (placedPage 1) ∧
      lab.xlate 1 0 (0x1000 + BitVec.ofNat 64 (r / 2) * 64 + BitVec.ofNat 64 (32 * (r % 2))) .write = .ok (0x1000 + 32 * r) (placedPage 1) ∧ lab.hostHolds (lineOf (0x1000 + 32 * r)) = false ∧ (0x1000 + 32 * r) % 32 = 0) ∧
    (placedPage 1).geo = 0 ∧ (placedPage 1).fmt ∈ [0] ∧ (placedPage 1).mtype ≠ 2 ∧ (∀ k, k < 1024 → 0x1000 + (256 * (k / 4 / 16) + 4 * (k / 4 % 16)) + k % 4 < 0x4000) := by decide +kernel
/-- The port takes the 16 rows of a tile and the 32 of an accumulator. -/
theorem witness_TilePerformed_port : (performing (single .ld 1 none (some 92) [])).serves 1 0 16 ⟨5, 4, 0⟩ ∧ (performing (single .sto 0 (some 93) none [])).serves 1 0 32 ⟨5, 4, 0⟩ ∧
    (∀ r, r < 32 → (performing (single .ld 1 none (some 92) [])).linkOk 0 (lineOf (0x1000 + 32 * r)) = true) ∧ (∀ q r, q < 32 → r < 32 → r ≠ q → 0x1000 + 32 * r ≠ 0x1000 + 32 * q) ∧
    ∀ a, (performing (single .sto 0 (some 93) none [])).keeps ((performing (single .sto 0 (some 93) none [])).keyOf 1) (fun i => 0x1000 + 32 * (i / 32) + i % 32) 1024 a :=
  ⟨served _ _ _ _ _ (by decide +kernel) (by decide +kernel), served _ _ _ _ _ (by decide +kernel) (by decide +kernel), by decide +kernel, by omega, fun a => keepsAll _ _ _ _ _ (by decide +kernel)⟩
theorem witness_TilePerformed_streamed : let y : L2Line := { line2 none with bound := 1 }
    let s : State := { lab with dies := [(0, { Die.reset with l2 := [(0x1000, y)] })], cores := [(0, { lab.core 0 with tlb := [{ placedPage 1 with lk := true }] })] }
    (∀ r, r < 4 → s.xlate 1 0 (0x1000 + BitVec.ofNat 64 r * 32) .read = .ok (0x1000 + 32 * r) { placedPage 1 with lk := true } ∧ ((s.die 0).l2.find? (lineOf (0x1000 + 32 * r))) = some y) ∧ y.bound ≠ 0 ∧
      { placedPage 1 with lk := true }.l2Ok = true ∧ isCauseway 0x1000 = false := by decide +kernel

/-- k1 = 0x1000, k2 = 0x1100, k3 a length, an index table or a shape, and k4 a count. -/
def copies (k3 k4 : W64) : State := { labOf (fun b => setK 4 k4 (setK 3 k3 (setK 2 0x1100 (setK 1 0x1000 b)))) with ctxs := [(1, { Ctx.none with scratch := 0x2000 })] }
/-- Copies of 2^24 bytes, of a shape of two rows of 8 bytes, of 65,536 elements and of none. -/
theorem witness_CopiesIssue : (∀ r ∈ [97#7, 98#7, 99#7, 100#7], (((copies (2 ^ 24) 65536).lane 0 0).kOf r).p = false ∧ (((copies (2 ^ 24) 65536).lane 0 0).kOf r).g = false) ∧ (((copies (2 ^ 24) 65536).lane 0 0).kOf 99).bits ≤ 2 ^ 24 ∧
    (((copies (2 ^ 24) 65536).lane 0 0).kOf 97).bits % 128 = 0 ∧ (((copies (2 ^ 24) 65536).lane 0 0).kOf 98).bits % 4 = 0 ∧ (((copies (2 ^ 24) 65536).lane 0 0).kOf 99).bits % 4 = 0 ∧
    (((copies (2 ^ 24) 65536).lane 0 0).kOf 100).bits ≤ 65536 ∧ (copies 0 0).live 0 ∧ (((copies (2 * 2 ^ 32 + 8) (64 * 2 ^ 32 + 64)).lane 0 0).kOf 99).bits < 2 ^ 48 ∧
    (((copies (2 * 2 ^ 32 + 8) 0).lane 0 0).kOf 99).bits / 2 ^ 32 % 2 ^ 16 * ((((copies (2 * 2 ^ 32 + 8) 0).lane 0 0).kOf 99).bits % 2 ^ 32) = 16 ∧ 0x1100 + (1 * 64 + 8) ≤ ((copies 0 0).ctx 1).scratch ∧
    ((copies 0 0).core 0).copies.length < 256 ∧ (((copies 0 0).core 0).copies.vals.map (fun o => o.ranges.length)).sum + 2 ≤ 256 := by
  simp only [State.live, State.liveAt]; decide +kernel
/-- A copy of 8 bytes from 0x1000 to 0x1100, between memory or scratch, or a gather of one element of 8 bytes by the table at 0x1200. -/
def aCopy (kind : Nat) (scratch : Bool) (off : Nat) (ended : Bool) : Copy :=
  ⟨0, 1, 4, 0, kind, scratch, scratch, 0x1100, 0x1000, 1, 8, if kind = 2 then 8 else 0, 0, 0x1200, false, if ended then 1 else 0, off, [], none, false, ended, none, 0⟩
def moving (c : Copy) : State := memCore (fun k => { k with copies := [(4, c)] }) 0
theorem witness_CopiesIssue_full : 256 ≤ ((memCore (fun k => { k with copies := (List.range 256).map (fun n => (n, aCopy 0 false 0 false)) }) 0).core 0).copies.length := by
  simp [memCore, State.core, Map.get, Map.find?]
theorem witness_CopyPiece : ((moving (aCopy 0 false 0 false)).core 0).copies.find? 4 = some (aCopy 0 false 0 false) ∧ (aCopy 0 false 0 false).ended = false ∧ (aCopy 0 false 0 false).paused = none ∧ (aCopy 0 false 0 false).flip = false ∧
    (moving (aCopy 0 false 0 false)).opRuns 1 0 4 0 4 false = true ∧ 0 < min (8 - 0) (128 - (0x1100#64).toNat % 128) ∧ min (8 - 0) (128 - (0x1100#64).toNat % 128) ≤ 128 ∧ (moving (aCopy 0 false 0 false)).dies = [] ∧
    (moving (aCopy 0 false 0 false)).xlate 1 0 (0x1000 + BitVec.ofNat 64 0) .read = .ok 0x1000 (placedPage 1) ∧ (moving (aCopy 0 false 0 false)).xlate 1 0 (0x1100 + BitVec.ofNat 64 0) .write = .ok 0x1100 (placedPage 1) ∧
    (∀ i, i < 8 → (0x1000 + i) % 128 = ((0x1000#64).toNat + i) % 128 ∧ i < 128 - (0x1000#64).toNat % 128 ∧ (moving (aCopy 0 false 0 false)).hostHolds (lineOf (0x1000 + i)) = false ∧ (moving (aCopy 0 false 0 false)).hostHolds (lineOf (0x1100 + i)) = false ∧
      (moving (aCopy 0 false 0 false)).linkOk 0 (lineOf (0x1000 + i)) = true ∧ (moving (aCopy 0 false 0 false)).linkOk 0 (lineOf (0x1100 + i)) = true) ∧
    (∀ i, i < 8 → ∀ j, j < 8 → i ≠ j → (0x1100 + i : Nat) ≠ 0x1100 + j) := by decide +kernel
/-- The port takes the two tokens of the piece, and three for an indexed one; between scratch windows it needs none. -/
theorem witness_CopyPiece_port : (moving (aCopy 0 false 0 false)).serves 1 0 (tokens 8 * (1 + 1)) ⟨4, 4, 0⟩ ∧ (moving (aCopy 2 false 0 false)).serves 1 0 (tokens 8 * (1 + 1) + 1) ⟨4, 4, 0⟩ ∧ tokens 8 * (0 + 0) = 0 ∧
    ∀ a, (moving (aCopy 0 false 0 false)).keeps ((moving (aCopy 0 false 0 false)).keyOf 1) (fun i => 0x1100 + i) 8 a :=
  ⟨served _ _ _ _ _ (by decide +kernel) (by decide +kernel), served _ _ _ _ _ (by decide +kernel) (by decide +kernel), rfl, fun a => keepsAll _ _ _ _ _ (by decide +kernel)⟩
/-- The lines a copy reads and writes are in the L2, as where they are fetched. -/
def near : State := { moving (aCopy 0 false 0 false) with dies := [(0, { Die.reset with l2 := [(0x1000, line2 none), (0x1100, line2 none), (0x1200, line2 none)] })] }
theorem near_sound (la : Nat) (h : la = 0x1000 ∨ la = 0x1100 ∨ la = 0x1200) : near.lineSound 0 la := by
  refine ⟨by decide, ?_, ?_, .inl (by rcases h with rfl | rfl | rfl <;> decide +kernel), by rcases h with rfl | rfl | rfl <;> decide +kernel⟩
  · intro e y hy
    by_cases he : e = 0
    · subst he
      have : ∀ p ∈ (near.die 0).l2, p.2.data.length = 128 := by decide +kernel
      rcases h with rfl | rfl | rfl <;> (have h1 : y = line2 none := by have h2 := hy; rw [show (near.die 0).l2.find? _ = some (line2 none) by decide +kernel] at h2; exact (Option.some.inj h2).symm) <;> subst h1 <;> decide +kernel
    · have : (near.die e).l2 = [] := by simp [near, State.die, Map.get, Map.find?, Ne.symm he, Die.reset]
      simp [this, Map.find?] at hy
  · intro e f y z h1 h2 _ _
    have hz : ∀ e y, (near.die e).l2.find? la = some y → e = 0 := by
      intro e y hy
      by_contra he
      have : (near.die e).l2 = [] := by simp [near, State.die, Map.get, Map.find?, Ne.symm he, Die.reset]
      simp [this, Map.find?] at hy
    rw [hz e y h1, hz f z h2]
theorem witness_CopyPiece_near : (∀ la ∈ [0x1000, 0x1100, 0x1200], ((near.die 0).l2.find? la).isSome = true) ∧ (∀ i, i < 4 → near.xlate 1 0 (0x1200 + BitVec.ofNat 64 (4 * 0)) .read = .ok 0x1200 (placedPage 1) ∧ (near.engineByte 1 0 (0x1200 + i, some (placedPage 1))) = (0, false)) ∧
    ofBytes ((List.range 4).map (fun i => (near.engineByte 1 0 (0x1200 + i, some (placedPage 1))).1)) = 0 := by decide +kernel
/-- A scratch copy, a pause, a fault, and a copy whose pieces are all written. -/
theorem witness_CopyPiece_others : (∀ i, i < 8 → 0x1000 + i = (0x1000#64).toNat + i) ∧ (moving (aCopy 0 true 0 false)).opRuns 1 0 4 0 4 false = true ∧ (moving (aCopy 0 false 0 false)).xlate 1 0 0x20000 .read = .replay ∧
    (moving (aCopy 0 false 0 false)).xlate 1 0 0x4000000000000000 .read = .trap 1 ∧ (aCopy 0 false 0 true).ended = true ∧ (moving (aCopy 0 false 0 true)).opRuns 1 0 4 0 4 false = true ∧ (aCopy 0 false 0 true).lines = [] ∧
    ((moving (aCopy 0 false 0 true)).groups.find? 0).isSome = true ∧ ({ aCopy 0 false 0 true with lines := [0x1000] }.lines.any (fun la => la ∈ ((filled none).core 0).invalidations)) = true := by decide +kernel

/-- `ranked` with k1 = 0x1000 and k2 a target, k3 a value. -/
def fabric (comm : Nat) (rec' : List Byte) : State :=
  put 0x1000 rec' { labOf (fun b => setK 3 8 (setK 2 1 (setK 1 0x1000 b))) with vfs := lab.vfs.adjust 0 (fun v => { v with comms := [(comm, ⟨0, [(5, 1), (6, 2)]⟩)] }) }
/-- The port takes the read of a record and of a message. -/
theorem witness_FabricInstructions_port (comm : Nat) (rec' : List Byte) (h : ((fabric comm rec').core 0).buckets.find? ((fabric comm rec').ctx 1).vf = none)
    (ha : ((fabric comm rec').vf ((fabric comm rec').ctx 1).vf).alive = true) : (fabric comm rec').roomy 1 0 1 ∧ (fabric comm rec').roomy 1 0 2 :=
  ⟨rooms _ _ _ _ h ha, rooms _ _ _ _ h ha⟩
/-- An all-reduce of 4 elements of type 0 in communicator 0. -/
def callRecord : List Byte := bytesOf 8 0 ++ bytesOf 8 0x1100 ++ bytesOf 8 0x1180 ++ bytesOf 8 4 ++ bytesOf 32 0
theorem callRecord_ok : callRecord.length = 64 := rfl
theorem witness_FabricInstructions_room : (fabric 0 callRecord).roomy 1 0 1 ∧ (fabric 0 callRecord).roomy 1 0 2 := witness_FabricInstructions_port _ _ (by decide +kernel) (by decide +kernel)
theorem witness_FabricInstructions : (fabric 0 callRecord).issued ∧ (fabric 0 callRecord).cur.lanes ≠ [] ∧ ((fabric 0 callRecord).lane 0 0).kOf 97 = ⟨0x1000, false, false⟩ ∧ ((fabric 0 callRecord).lane 0 0).kOf 98 = ⟨1, false, false⟩ ∧
    (fabric 0 callRecord).xlate 1 0 0x1000 .read = .ok 0x1000 (placedPage 1) ∧ (fabric 0 callRecord).hostHolds 0x1000 = false ∧ (fabric 0 callRecord).fabricRead 1 0 0x1000 64 (placedPage 1) = (callRecord, false) ∧
    ((fabric 0 callRecord).vf 0).comms.find? 0 = some ⟨0, [(5, 1), (6, 2)]⟩ ∧ (fabric 0 callRecord).calls = [] ∧ ((fabric 1 callRecord).vf 0).comms.find? 0 = none ∧
    (fabric 0 callRecord).releaseDone 0 0 3 4 (fabric 0 callRecord).ids none = true ∧ (storing aStore).releaseDone 0 0 3 4 (storing aStore).ids none = false ∧
    ((fabric 0 callRecord).fabricRead 1 0 0x1000 80 (placedPage 1)).2 = false ∧ ((fabric 0 callRecord).l2Line 0 0x1000).poison = false ∧ ((fabric 0 callRecord).grids.find? 2).isSome = true ∧ ((fabric 0 callRecord).grid 2).step = none ∧
    4 ≤ (((fabric 0 callRecord).lane 0 0).kOf 99).bits ∧ (((fabric 0 callRecord).lane 0 0).kOf 99).bits ≤ 16 := by
  simp only [State.issued, State.liveAt]; decide +kernel
def aCall (op : Nat) : Call := ⟨0, 1, 0, 0, 0, op, 0, 0x1100, 0x1180, 4, 0, 1, 0, 0, 0x1000, 0, [], none, none, 0⟩
def calling (op clocks : Nat) : State := { fabric 0 callRecord with calls := [(4, aCall op)], clocks := clocks }
/-- COLL calls: records of the rank 1 that agree or differ, none from it, a refused put, and a refused source. -/
theorem witness_Calls_end : (calling 0 0).openCall 0 0 0 = some (4, aCall 0) ∧ (calling 0 0).calls.rising = true ∧ ((calling 0 0).vf 0).comms.find? 0 = some ⟨0, [(5, 1), (6, 2)]⟩ ∧ (aCall 0).op ≠ 3 ∧ (1 : Nat) ≠ 0 ∧
    ofBytes ((callRecord.drop 4).take 1) = 0 ∧ ofBytes ((callRecord.drop 24).take 8) = 4 ∧ ofBytes ((callRecord.drop 36).take 4) = 0 ∧ ¬ (aCall 0).peer = 0 ∧ (aCall 3).op = 3 ∧ (aCall 3).peer = 1 ∧ [(1 : Byte)].headD 0 ≠ 0 ∧
    (calling 0 0).xlate 1 0 0x4000000000000000 .read = .trap 1 := by decide +kernel
/-- An all-reduce that reads its SRC, has read it, and writes its DST, whose lines are in the L2. -/
def reducing (got : List (Byte × Bool)) (out : Option (List (Byte × Bool))) : State :=
  { calling 0 0 with calls := [(4, { aCall 0 with peer := 0, got := got, out := out })], dies := [(0, { Die.reset with l2 := [(0x1100, line2 none), (0x1180, line2 none)] })] }
def contribution : List (Byte × Bool) := List.replicate 16 (7, false)
theorem witness_Calls_pieces : (reducing [] none).openCall 0 0 0 = some (4, { aCall 0 with peer := 0 }) ∧ (reducing [] none).deviceHeld 1 0x1000 4 = false ∧ 4 * collSize 0 0 = 16 ∧ ([] : List (Byte × Bool)).length < 16 ∧ contribution.length = 16 ∧
    min (128 - (0x1100#64).toNat % 128) (16 - 0) = 16 ∧ (reducing [] none).xlate 1 0 0x1100 .read = .ok 0x1100 (placedPage 1) ∧ (reducing contribution (some contribution)).xlate 1 0 0x1180 .write = .ok 0x1180 (placedPage 1) ∧
    (∀ la ∈ [0x1100, 0x1180], (reducing [] none).linkOk 0 la = true ∧ (reducing [] none).hostHolds la = false ∧ (((reducing [] none).die 0).l2.find? la).isSome = true) ∧ contribution ≠ [] ∧ contribution.length ≤ 16 ∧
    (∀ q ∈ contribution, q.2 = false) ∧ ((7 : Byte), true) ∈ [((7 : Byte), true)] ∧ (placedPage 1).mtype ≠ 2 ∧ ((calling 3 0).vf 0).comms.find? 0 = some ⟨0, [(5, 1), (6, 2)]⟩ ∧ [(5, 1), (6, 2)][1]? = some (6, 2) ∧
    ({ calling 0 0 with host := [(0x1000, 2)], cores := [(0, { lab.core 0 with tlb := [{ placedPage 1 with bias := true }] })] } : State).deviceHeld 1 0x1000 4 = true := by decide +kernel
theorem witness_Calls_port : (reducing [] none).serves 1 0 (tokens 16) ⟨6, 4, 0⟩ ∧ (reducing contribution (some contribution)).serves 1 0 (tokens 16) ⟨6, 4, 0⟩ ∧
    ∀ a, (reducing contribution (some contribution)).keeps ((reducing [] none).keyOf 1) (fun i => 0x1180 + i) 16 a :=
  ⟨served _ _ _ _ _ (by decide +kernel) (by decide +kernel), served _ _ _ _ _ (by decide +kernel) (by decide +kernel), fun a => keepsAll _ _ _ _ _ (by decide +kernel)⟩
/-- The record of rank 1 agrees with the call; with it every rank has joined. -/
theorem witness_Calls_joined : (∀ r, r < 2 → r = 0 ∨ ∃ o ∈ [(1, bytesOf 8 0 ++ bytesOf 8 0x1100 ++ bytesOf 8 0x1180 ++ bytesOf 8 4 ++ bytesOf 32 0)], o.1 = r) ∧
    ofBytes ((callRecord.drop 4).take 1) = (aCall 0).op ∧ ofBytes ((callRecord.drop 5).take 1) = (aCall 0).type ∧ ofBytes ((callRecord.drop 24).take 8) = (aCall 0).count ∧ ofBytes ((callRecord.drop 36).take 4) = { aCall 0 with peer := 0 }.peer := by decide +kernel
/-- The timeout of 1,000,000 µs, a tick before and at it. -/
theorem witness_Calls_timeout : (aCall 0).ctx = 1 ∧ (calling 0 1699999999).ticks < 0 + 1000000 * 1000 ∧ 0 + 1000000 * 1000 ≤ (calling 0 1700000000).ticks ∧ (aCall 0).out = none ∧
    (calling 0 1700000000).deviceHeld 1 0x1000 4 = false := by decide +kernel
def signalling (clocks : Nat) : State := { lab with signals := [(4, ⟨0, 1, 0, 0, 0, 1, 0x1000, 0⟩)], posts := [(5, ⟨0, 1, 0, [(0, 3, ⟨.k, 1⟩)], 0⟩)], clocks := clocks }
theorem witness_SignalsAndPosts : (signalling 0).signals.find? 4 = some ⟨0, 1, 0, 0, 0, 1, 0x1000, 0⟩ ∧ (signalling 3399999).ticks < 0 + 2000000 ∧ 0 + 2000000 ≤ (signalling 3400000).ticks ∧
    (signalling 0).posts.find? 5 = some ⟨0, 1, 0, [(0, 3, ⟨.k, 1⟩)], 0⟩ ∧ ([(0, 3, (⟨.k, 1⟩ : Reg))].map Prod.fst).Nodup ∧ (signalling 0).holdsFibre 0 0 3 := by
  simp only [State.holdsFibre, State.liveAt]; decide +kernel
/-- A fibre that waits until the word at 0x1000 is at least `n`. -/
def watching (n : W64) : State := put 0x1000 [5] (labOf (fun b => { b with wait := .word 0x1000 (some n) 97 1 [] }))
theorem witness_Rereads : (watching 5).liveAt 0 0 ∧ ((watching 5).lane 0 0).wait = .word 0x1000 (some 5) 97 1 [] ∧ (watching 5).runs 1 0 = true ∧ (watching 5).xlate 1 0 0x1000 .read = .ok 0x1000 (placedPage 1) ∧ (watching 5).hostHolds 0x1000 = false ∧
    (watching 5).unacknowledged 0x1000 128 = false ∧ ((watching 5).core 0).loadsDone 0 3 (watching 5).ids none = true ∧ ((watching 5).core 0).atomicsDone 0 3 (watching 5).ids none = true ∧
    ((watching 5).core 0).mayLook 0 3 (watching 5).ids false 0x1000 8 (watching 5).ids = true ∧ (watching 5).linkOk 0 0x1000 = true ∧ ((watching 5).core 0).queuedBefore (watching 5).ids 0x1000 8 = false ∧ isCauseway 0x1000 = false ∧ (watching 5).sealed 1 0x1000 = false ∧
    ((watching 5).directoryLine 0x1000).poison = false ∧ ofBytes ((List.range 8).map (fun i => (watching 5).byteAt (0x1000 + i))) = 5 ∧ (5 : Nat) ≤ 5 ∧ ¬ (6 : Nat) ≤ 5 := by
  simp only [State.liveAt]; decide +kernel
theorem witness_Rereads_port : (watching 5).serves 1 0 1 ⟨7, 0, 0⟩ := served _ _ _ _ _ (by decide +kernel) (by decide +kernel)
def pending : Pending := ⟨100, 8, [0, 1], 0, 0, [(0, 3, ⟨.k, 1⟩)]⟩
def stepping (clocks : Nat) : State := { lab with clocks := clocks, grids := [(2, { Grid.none with ctx := 1, step := some pending })] }
theorem witness_Steps : ((stepping 0).grid 2).step = some pending ∧ (stepping 0).grids.rising = true ∧ 0 * 8 + 0 ∈ pending.tracks ∧ 0 * 8 + 2 ∉ pending.tracks ∧ (stepping 169).ticks < pending.time.toNat ∧ pending.time.toNat ≤ (stepping 170).ticks ∧
    (∃ k ∈ pending.tracks, k ≠ 0) ∧ pending.home = 0 ∧ (pending.dst.map Prod.fst).Nodup ∧ (stepping 0).holdsFibre pending.group 0 3 := by
  simp only [State.holdsFibre, State.liveAt]; decide +kernel
theorem witness_Steps_alone (k : Nat) (h : k ≠ 2) : ((stepping 0).grid k).step = none := by
  simp [stepping, State.grid, Map.get, Map.find?, Ne.symm h, Grid.none]

/-- The device is up; the endpoint 9 is bound, and no host holds the queue. -/
theorem witness_Messages_up : lab.pkg.booted = true ∧ (let s : State := { queued 0x5000 0 0 with vfs := (queued 0x5000 0 0).vfs.adjust 0 (fun v => { v with bound := [9] }) }
    s.pkg.booted = true ∧ s.appendHeld 0 0 = false ∧ s.queueHeld 0 0 = false ∧ (s.ctxs.find? 1).isSome = true ∧ (s.ctx 1).vf ≤ 63 ∧ 9 ∈ (s.vf (s.ctx 1).vf).bound ∧ s.dies = [] ∧
      s.xlate 1 0 0x4000000000000000 .write = .trap 1 ∧ s.xlate 1 0 (0x1000 + BitVec.ofNat 64 ((0x1000 + 3) / 128 * 128 - 0x1000)) .write = .ok 0x1000 (placedPage 1) ∧ s.hostHolds 0x1000 = false) ∧
    ({ queued 0x5000 0 0 with host := [(0x2000, 2)] } : State).appendHeld 0 0 = true := by decide +kernel
theorem witness_Messages : (¬ ((0 : Nat) ≤ 63 ∧ 9 ∈ (lab.vf 0).bound)) ∧ (let s : State := { queued 0x5000 0 0 with vfs := (queued 0x5000 0 0).vfs.adjust 0 (fun v => { v with bound := [9] }) }
    9 ∈ (s.vf 0).bound ∧ s.queue 0 0 = some ⟨0x3000, 4, 0, 0⟩ ∧ s.malformed 0 (record 0x5000) = false ∧ s.malformed 0 (record 0x5001) = true ∧ (⟨0x3000, 4, 0, 0⟩ : Queue).full = false ∧ (⟨0x3000, 4, 0, 16⟩ : Queue).full = true ∧
      s.queue 0 7 = none ∧ (record 0x5000).length = 64) := by decide +kernel
theorem witness_PutsAndSignals : (lab.ctxs.find? 1).isSome = true ∧ lab.dies = [] ∧ lab.xlate 1 0 (0x1000 + BitVec.ofNat 64 ((0x1000 + 3) / 128 * 128 - 0x1000)) .write = .ok 0x1000 (placedPage 1) ∧ lab.hostHolds (lineOf 0x1003) = false ∧
    lab.xlate 1 0 0x1008 .write = .ok 0x1008 (placedPage 1) ∧ (0x1008#64).toNat % 8 = 0 ∧ (0x1004#64).toNat % 8 ≠ 0 ∧ (lab.directoryLine 0x1000).poison = false ∧ lab.sealed 1 0x1000 = false ∧
    (({ lab with poison := [0x1000] } : State).directoryLine 0x1000).poison = true := by decide +kernel
/-- A load, a store and an atomic on a Causeway node, in flight since tick 0, on a confidential page, with failed tag checks. -/
def faraway : Nat := 0x100000000000
def farLane (fails : Nat) : LaneLoad := { aLane 0 .waiting with pa := some faraway, va := 0x2000, conf := true, sent := some 0, fails := fails }
def farLoad (fails : Nat) : Load := { aLoad 0 .waiting with lanes := [(0, farLane fails)] }
def farStore : Store := { aStore with pa := faraway, level := 2, sent := some 0 }
def farAtomic : Atomic := { anAtomic (some 4) with lanes := [(0, { atomicLane faraway (some 4) with sent := some 0 })] }
def far (clocks : Nat) (f : Core → Core) : State := memCore f clocks
/-- What a request is known by: since when, whether it is out, its failed checks, and whether its page is confidential. -/
def known (s : State) : Option (Option Nat × Bool × Nat × Bool) := (s.request 0 4 0).map (fun r => (r.since, r.out, r.fails, r.conf))
theorem witness_Causeway : known (far 0 (fun c => { c with loads := [(4, farLoad 2)] })) = some (some 0, true, 2, true) ∧ known (far 0 (fun c => { c with loads := [(4, farLoad 1)] })) = some (some 0, true, 1, true) ∧
    known (far 0 (fun c => { c with stores := [(4, farStore)] })) = some (some 0, true, 0, false) ∧ known (far 0 (fun c => { c with atomics := [(4, farAtomic)] })) = some (some 0, true, 0, false) ∧
    (known (far 0 (fun c => { c with stores := [(4, { farStore with sent := none })] }))).map Prod.fst = some none ∧ (far 3399999 id).ticks < 0 + 2000000 ∧ 0 + 2000000 ≤ (far 3400000 id).ticks := by decide +kernel
/-- A copy and a tile operation on the node, by way of a page of the window. -/
def windowed : Page := { placedPage 1 with pa := faraway }
theorem witness_Causeway_engines : known (far 0 (fun c => { c with tlb := [windowed], copies := [(4, { aCopy 0 false 0 false with sent := some 0 })] })) = some (some 0, true, 0, false) ∧
    known (far 0 (fun c => { c with tlb := [windowed], tileOps := [(4, { tileOp .ld 1 [] with sent := some 0 })] })) = some (some 0, true, 0, false) := by decide +kernel
theorem witness_Causeway_ends : (farLoad 2).lanes.rising = true ∧ (farLoad 2).acquire = none ∧ (farLane 2).state = .waiting ∧ (farLane 2).limit = 0 ∧ (far 0 id).holdsFibre 0 0 3 ∧ farAtomic.refused = none ∧
    ((far 0 id).atPlace faraway 0 4).2 = false ∧ (far 0 id).linkOk 0 faraway = true ∧ (tileOp .ld 1 []).spt = false ∧ 7 ∉ (far 0 id).pkg.uePorts ∧ 7 ≤ 7 := by
  simp only [State.holdsFibre, State.liveAt]; decide +kernel
theorem witness_HostsAndLinks : lab.dies = [] ∧ (region 0x1040).isSome = true ∧ isCauseway 0x1040 = false ∧ region 0xFFFFFFFFFF = none ∧ ({ lab with host := [(0x1040, 2)] } : State).host.get 0x1040 0 = 2 ∧ (List.replicate 64 (0 : Byte)).length = 64 ∧
    (∀ l ∈ linesOf 0x1000 (max 16 4), (region l).isSome = true ∧ lab.hostHolds l = false) ∧ (lab.vf 0).alive = true ∧ (region 0x1000).map Region.home = some 0 ∧ 0 ∈ (lab.vf 0).dies ∧ (lab.vf 5).alive = false := by decide +kernel
/-- A page table whose walk of the page at 0x1_0000 gives the leaf at 0x8008: four levels at 0xA000, 0xB000, 0xC000 and 0x8000. -/
def tables : State :=
  put 0x8008 (bytesOf 8 (3 + 0x100000)) (put 0xC000 (bytesOf 8 0x8001) (put 0xB000 (bytesOf 8 0xC001) (put 0xA000 (bytesOf 8 0xB001)
    { lab with ctxs := [(1, { Ctx.none with ptroot := 0xA000 })] })))
/-- Both hosts' requests on a line that no page maps, and the pages that map a line: in host bias, or not; without a seal every byte is known. -/
def shareable (bias : Nat) : State := put 0x8008 (bytesOf 8 (3 + 0x100000 + bias * 2 ^ 50)) tables
theorem witness_Hosts_may : lab.unacknowledged 0x1000 128 = false ∧ lab.host.get 0x1040 0 ≠ 2 ∧ (∀ p ∈ lab.pagesAt 0x1040, p.bias = true ∧ p.mtype ≠ 1) ∧ lab.hostKey 0x1040 = none ∧ (shareable 1).pagesAt 0x100040 ≠ [] ∧
    (∀ p ∈ (shareable 1).pagesAt 0x100040, p.bias = true ∧ p.mtype ≠ 1) ∧ (∃ p ∈ (shareable 0).pagesAt 0x100040, p.bias = false) ∧ (shareable 1).hostKey 0x100040 ≠ none ∧
    (storing { aStore with level := 2 }).unacknowledged 0x1000 128 = true ∧ (region 0x100040).isSome = true ∧ (shareable 1).seals = [] := by decide +kernel
/-- Requests from die 1 to die 0 on a line of die 0, and of die 0 to die 1 for its own line, taken or refused. -/
theorem witness_Links : (1 : Nat) < 4 ∧ (lab.die 0).allow.getLsbD 1 = true ∧ (lab.die 1).snoop.getLsbD 0 = true ∧ (region 0x1000).map Region.home = some 0 ∧ lab.hostHolds 0x1000 = false ∧ (lab.die 1).l2.length < Config.l2Ways ∧
    (({ lab with dies := [(0, { Die.reset with allow := 1, snoop := 1 })] } : State).die 0).allow.getLsbD 1 = false ∧ 0x1000 % 128 + 8 ≤ 128 := by decide +kernel
theorem witness_Mappings : (tables.ctxs.find? 1).isSome = true ∧ tables.dies = [] ∧ (∀ c ∈ tables.cores.vals, c.copies = []) ∧ tables.inFlight 1 0x1000 64 = false ∧
    (storing aStore).inFlight 1 0x1000 64 = true ∧ (∀ w ∈ [(0x8008, (0 : W64))], tables.bytesHeld w.1 8 = false) ∧ ({ tables with host := [(0x8000, 2)] } : State).bytesHeld 0x8008 8 = true := by decide +kernel
theorem witness_Mappings_flip : tables.leafFrom 0x10000 3 (tables.ctx 1).ptroot = some (0x8008, 0) ∧ ofBytes ((List.range 8).map (fun i => tables.byteAt (0x8008 + i))) = 0x100003 ∧ (0x100003 : Nat) % 4 = 3 ∧
    leafPage 1 0x10000 0 0x100003 = tables.pageOf 1 0 0x10000 ∧ tables.pageOf 1 0 0x10000 ≠ .missing ∧ tables.inFlight 1 0x10000 (2 ^ 16) = false ∧ tables.host = [] ∧ tables.bytesHeld 0x8008 8 = false ∧
    (∀ c ∈ tables.cores.vals, ∀ o ∈ c.copies.vals, o.touches 1 0x10000 (2 ^ 16) = false) ∧
    (({ tables with host := [(0x100040, 2)] } : State).host.any (fun h => decide (0x100000 ≤ h.1 ∧ h.1 < 0x100000 + 2 ^ 16 ∧ h.2 = 2))) = true := by decide +kernel

/-- `lab` with VF 5 torn down at tick 0, its allowances reclaimed or not. -/
def dying (reclaimed : Bool) (clocks : Nat) : State := { lab with clocks := clocks, vfs := [(0, lab.vf 0), (5, { Vf.none with dead := some 0, reclaimed := reclaimed })] }
/-- The partition of VF 63 is dies 1 to 3, apart from that of VF 0; the quarantine of 10 ms and the reclaim after 100 µs, a tick before and at their ends. -/
theorem witness_VirtualFunctions : (63 : Nat) < 64 ∧ (lab.vf 63).alive = false ∧ (lab.vf 63).dead = none ∧ [1, 2, 3] ≠ [] ∧ (∀ d ∈ [1, 2, 3], d < 4) ∧ (∀ c ∈ lab.ctxs.vals, c.vf ≠ 63) ∧ (∀ w ∈ lab.vfs.vals, w.alive = true → ∀ d ∈ [1, 2, 3], d ∉ w.dies) ∧
    ¬ (64 : Nat) < 64 ∧ (lab.vf 0).alive = true ∧ ((dying false 0).vf 5).dead = some 0 ∧ (dying false 169999).ticks < 0 + 100000 ∧ 0 + 100000 ≤ (dying false 170000).ticks ∧ (dying true 16999999).ticks < 0 + 10000000 ∧
    0 + 10000000 ≤ (dying true 17000000).ticks ∧ ((dying true 0).vf 5).reclaimed = true ∧ (0x8000000000000000#64).getLsbD 63 = true ∧ lab.ctxs.find? 1 ≠ none ∧
    (List.replicate 8 [(0x6000 : W64), 7]).length = 8 ∧ lab.pkg.booted = true := by decide +kernel
theorem witness_SupervisorRegisters : (3 : Nat) < 4 ∧ 4 ≤ (4 : Nat) ∧ (lab.vfs.find? 0).isSome = true ∧ (lab.vf (0 / 2 ^ 32)).alive = true ∧ (lab.vf 0).comms.length < 256 ∧ (64 : Nat) ≠ 1 ∧ 18 < 19 ∧ 2559 < 2560 ∧ ((1 : Nat) < 4 ∧ 1 ≤ (255 : Nat) ∧ (255 : Nat) ≤ 255) := by decide +kernel
theorem witness_SupervisorRegisters_full : 256 ≤ (({ lab with vfs := [(0, { lab.vf 0 with comms := (List.range 256).map (fun n => (n, ⟨0, []⟩)) })] } : State).vf 0).comms.length := by
  simp [State.vf, Map.get, Map.find?]
theorem witness_Errors : region 0xFFFFFFFFFF = none ∧ region 0x1000 ≠ none ∧ (lab.groups.find? 0).isSome = true ∧ (((cached none).die 0).l2.find? 0x1000).isSome = true ∧ 5 < 6 := by decide +kernel
def emptyCore (spares : Nat) : State := { lab with dies := [(0, { Die.reset with sparesUsed := spares })] }
theorem witness_Retire : 319 < 320 ∧ (lab.core 319).retired = false ∧ (∀ x ∈ lab.groups.vals, x.core ≠ 319) ∧ (∃ x ∈ lab.groups.vals, x.core = 0) ∧ (lab.ctx 1).halt = none ∧ (lab.ctxs.find? 1).isSome = true ∧ ((emptyCore 3).die (79 / 80)).sparesUsed < 4 ∧
    4 ≤ ((emptyCore 4).die (79 / 80)).sparesUsed ∧ ({ lab with cores := [(319, { Core.reset with retired := true })] } : State).core 319 ≠ lab.core 319 ∧
    (let s : State := { lab with cores := [(319, { Core.reset with failed := true })] }; (s.core 319).failed = true ∧ (s.core 319).retired = false) ∧
    (let s : State := { lab with clocks := 1700000000, cores := [(319, { Core.reset with noisy := some 0 })] }; (s.core 319).noisy = some 0 ∧ 0 + 1000000000 ≤ s.ticks) ∧ (lab.core 319).failed = false ∧ (lab.core 319).noisy = none := by decide +kernel
theorem witness_Sparing : ((lab.die 3).memStacks.get 0 Stack.reset).spared = none ∧ (0, 7) ∉ (lab.die 3).waysOff ∧ (1 : Nat) ≤ 1 ∧ (2 : Nat) < 3 ∧ (∀ p ∈ lab.pkg.lanes, p.1 ≠ 11) ∧ 11 ≤ 11 ∧ ¬ 12 ≤ 11 ∧ (3 : Nat) < 4 := by decide +kernel
/-- The heartbeat a tick before it is missed and then; GR 2 everywhere; a 16-clock boundary; power over EFF by more than 10% since 20 µs. -/
theorem witness_Power : lab.pkg.hung = false ∧ ({ lab with clocks := 3399999 } : State).ticks < lab.pkg.phb + 2000000 ∧ lab.pkg.phb + 2000000 ≤ ({ lab with clocks := 3400000 } : State).ticks ∧ 3200 * 1000 < 3200001 ∧ (3040000 : Nat) ≤ 3200 * 950 ∧
    ¬ 3200 * 1100 < 3520000 ∧ 3200 * 1100 < 3520001 ∧ (0 : Nat) + 20000 ≤ ({ lab with clocks := 34000 } : State).ticks ∧ ({ lab with clocks := 33999 } : State).ticks < 0 + 20000 ∧ ({ lab with clocks := 16 } : State).clocks % 16 = 0 ∧
    lab.clocks % 16 = 0 ∧ ¬ ((lab.core 0).tracks.get 0 Track.reset).gr = 2 ∧ hung.pkg.hung = true ∧ (lab.grids.find? 2).isSome = true ∧ lab.takesCharge 2 = true ∧
    lab.takesCharge 5 = false ∧ lab.pkg.charged < ({ lab with clocks := 1024 } : State).clocks / 1024 * 1024 ∧ ({ lab with clocks := 1023 } : State).clocks / 1024 * 1024 ≤ lab.pkg.charged ∧
    lab.pkg.scaled < ({ lab with clocks := 1700000 } : State).ticks / 1000000 * 1000000 ∧ ({ lab with clocks := 1699999 } : State).ticks / 1000000 * 1000000 ≤ lab.pkg.scaled ∧ 7 < 8 ∧ ¬ 8 ≤ 7 := by decide +kernel
theorem witness_Power_all (c k : Nat) : ((State.reset.core c).tracks.get k Track.reset).gr = 12 := by
  simp [State.reset, State.core, Map.get, Map.find?, Core.reset, Track.reset]
/-- GR 2 on every track of the package. -/
def slowed : State := { lab with cores := (List.range 320).map (fun c => (c, { Core.reset with tracks := (List.range 8).map (fun k => (k, { Track.reset with gr := 2 })) })) }
theorem witness_Power_low : ∀ c, c < 320 → ∀ k, k < 8 → ((slowed.core c).tracks.get k Track.reset).gr = 2 := by decide +kernel
/-- Stacks at each rate and cap, and a threshold that has been missed for 10 ms or not. -/
theorem witness_Heat : (∀ n ∈ [0, 1, 2, 3], let u : Stack := ⟨if n = 0 then 1 else if n = 1 then 2 else 4, if n = 3 then 25 else if n = 2 then 50 else 100, [], none⟩
      (u.refresh = if n = 0 then 1 else if n = 1 then 2 else 4) ∧ u.cap = if n = 3 then 25 else if n = 2 then 50 else 100) ∧ 82 + 3 ≤ 75 + 10 * 1 ∧ ¬ 83 + 3 ≤ 75 + 10 * 1 ∧
    (0 : Nat) + 10000000 ≤ ({ lab with clocks := 17000000 } : State).ticks ∧ ({ lab with clocks := 16999999 } : State).ticks < 0 + 10000000 := by decide +kernel
def dark (agenda : List Action) : State := { lab with agenda := agenda, pkg := { Package.reset with railsUp := false } }
theorem witness_Rails : (dark []).pkg.railsUp = false ∧ (dark []).agenda.head? ≠ some (.event .coldReset) ∧ (dark [.event .coldReset]).agenda = .event .coldReset :: [] :=
  ⟨rfl, nofun, rfl⟩
/-- A die that is hot while the heartbeat is missed, or while it is not. -/
theorem witness_Heat_die : let s : State := { hung with dies := [(1, { Die.reset with hot := true })] }
    (s.die 1).hot = true ∧ s.pkg.hung = true ∧ (lab.die 1).hot = false ∧ lab.pkg.hung = false ∧ 80 / 80 = 1 ∧ (319 < 320 ∧ 319 / 80 = 3) := by decide +kernel
-- ## More witnesses, for the clauses that speak of operands and of what is refused

theorem witness_StepRunsDecoded_unbarred (la : Nat) : placed.barred 0 la = false := unbarred _ (by decide +kernel) 0 (by decide) la
/-- The least and the greatest rounding mode, and a format of each kind. -/
theorem witness_Rounding : (0 : Nat) < 6 ∧ (5 : Nat) < 6 ∧ f64 ∈ [f64, f32, f16, bf16, e4m3, e5m2] ∧ e5m2 ∈ [f64, f32, f16, bf16, e4m3, e5m2] := by decide +kernel
/-- An immediate that binary16 cannot hold, and one that it can. -/
theorem witness_FrameOfResults_imm : (⟨some 0x3F8001, none⟩ : Mods).imx = some 0x3F8001 ∧ lab.live 0 ∧ (after (exec (.fadd ⟨some 0x3F8001, none⟩ 2 3 1 1) lab) (fun u => u.here.warn.getLsbD 5)) = some true ∧
    (after (exec (.hadd2 ⟨some 0x3F8000, none⟩ 0 3 1 0) lab) (fun u => u.here.warn.getLsbD 5)) = some false ∧ (after (exec (.wmad ⟨some 0x3F8000, none⟩ 0 3 1 0) lab) (fun _ => true)) = some true := by
  simp only [State.live, State.liveAt]; decide +kernel
/-- An OPX that sets rm, sat and last use where none is taken sets WARN.OPX alone (log entry 108). -/
theorem witness_FrameOfResults_opx : (Instr.kadd sat 1 97 98 99).accepts.opx = true ∧ Instr.dest (.kadd sat 1 97 98 99) = some (.k 97) ∧ (after (exec (.kadd sat 1 97 98 99) lab) (fun _ => true)) = some true := by decide +kernel

/-- `traps` with w1 = ∞, w2 = −∞, w4 a signalling NaN, v4 = 0 and v6 a signalling NaN of bfloat16 in its high half. -/
def trapsMore : State :=
  { lab with groups := (labOf (fun b => setW 4 0x7FF0000000000001 (setW 2 0xFFF0000000000000 (setW 1 0x7FF0000000000000 (setV 6 0x7F810000 (setV 5 0x7F800001 (setV 2 0xFF800000 (setV 1 0x7F800000 b)))))))).groups.adjust 0 (fun x => { x with fpmode := 0x80 }) }
theorem witness_FloatTraps_others : trapsMore.running ∧ (let s := trapsMore
    let W := fun (n : Nat) l => (s.lane s.cur.g l).regVal ⟨.w, n⟩
    let A := fun (c : BitVec 7) l => s.opnd l (srcR c 1)
    let lo := fun (v : Val) => bf16.num (bitsAt v.bits 15 0)
    let hi := fun (v : Val) => bf16.num (bitsAt v.bits 31 16)
    let both := fun (x y : Nat × Nat) => (x.1 + 2 ^ 16 * y.1, Nat.lor x.2 y.2)
    s.raised (.wmad Mods.none 0 3 1 4) (fun l => f64.fma 0 false 0 (f32.of (A 1 l)) (f32.of (A 4 l)) (f64.of (W 3 l))) (fun l => [A 1 l, A 4 l, W 3 l]) = some (1, [0]) ∧
    s.raised (.waddAccumulator Mods.none 0 3 1 2) (fun l => f64.add 0 false 0 (f64.of (W 1 l)) (f64.of (W 2 l))) (fun l => [W 1 l, W 2 l, W 3 l]) = some (1, [0]) ∧
    s.raised (.narrow Mods.none 1 7 4) (fun l => f32.convert 0 false 0 (f64.of (W 4 l))) (fun l => [W 4 l]) = some (1, [0]) ∧
    s.raised (.widen Mods.none 1 3 5) (fun l => f64.convert 0 false 0 (f32.of (A 5 l))) (fun l => [A 5 l]) = some (1, [0]) ∧
    s.raised (.hadd2 Mods.none 1 3 1 2) (fun l => both (bf16.add 0 false 0 (lo (A 1 l)) (lo (A 2 l))) (bf16.add 0 false 0 (hi (A 1 l)) (hi (A 2 l)))) (fun l => [A 1 l, A 2 l]) = some (1, [0]) ∧
    s.raised (.hmul2 Mods.none 1 3 1 4) (fun l => both (bf16.mul 0 false 0 (lo (A 1 l)) (lo (A 4 l))) (bf16.mul 0 false 0 (hi (A 1 l)) (hi (A 4 l)))) (fun l => [A 1 l, A 4 l]) = some (1, [0]) ∧
    s.raised (.hfma2 Mods.none 1 3 1 4) (fun l => both (bf16.fma 0 false 0 (lo (A 1 l)) (lo (A 4 l)) (lo (A 3 l))) (bf16.fma 0 false 0 (hi (A 1 l)) (hi (A 4 l)) (hi (A 3 l)))) (fun l => [A 1 l, A 4 l, A 3 l]) = some (1, [0]) ∧
    s.raised (.hcmp2 Mods.none 0 1 3 6 4) (fun l => (0, Nat.lor (fcompare 0 (lo (A 6 l)) (lo (A 4 l))).2 (fcompare 0 (hi (A 6 l)) (hi (A 4 l))).2)) (fun l => [A 6 l, A 4 l]) = some (1, [0])) := by
  simp only [State.running]; decide +kernel
theorem witness_FloatTraps_special : (∀ k ∈ [Special.rcp, .rsq, .sqrt, .exp2, .log2, .sin, .cos, .tanh],
    trapsMore.raised (.srcp Mods.none 1 3 5) (fun l => k.result f32 ((trapsMore.opnd l (srcR 5 1)).bits % 2 ^ 32)) (fun l => [trapsMore.opnd l (srcR 5 1)]) = some (1, [0])) ∧ (3#7).toNat < 96 := by decide +kernel
/-- A special function's trap on its way. -/
def retiringTrap : State := { labOf (fun b => { b with locks := [⟨⟨.v, 3⟩, false, 0⟩] }) with cores := [(0, { lab.core 0 with results := [(4, { result with flags := 0, trap := some (⟨2, 1, 5, 0, 1, 1, 1, false⟩, [0]) })] })] }
theorem witness_Retirement_trap : (retiringTrap.core 0).results.find? 4 = some { result with flags := 0, trap := some (⟨2, 1, 5, 0, 1, 1, 1, false⟩, [0]) } ∧ (retiringTrap.ctxs.find? (retiringTrap.group 0).ctx).isSome = true ∧
    retiringTrap.runs (retiringTrap.group 0).ctx 0 = true ∧ retiringTrap.liveAt 0 0 := by
  simp only [State.liveAt]; decide +kernel

/-- k1, k2 or the mask q1 with tags, in the only lane or in lane 1. -/
def suspect (one : Bool) (k : Elem 64) (gm : Bool) (tickets : Map Ticket) : State :=
  let f := fun (b : Fibre) => { b with k := (b.k.put 1 k).put 2 k, gm := gm }
  { (if one then labOf f else duo id f) with cores := [(0, { lab.core 0 with tickets := tickets })] }
theorem witness_ControlOperands : (let s := suspect true ⟨0x9000, false, true⟩ false []; s.running ∧ s.cur.lanes.filter (fun l => ((s.lane 0 l).kOf 97).p) ≠ []) ∧
    (let s := suspect false ⟨0x9000, true, false⟩ false []; s.cur.lanes.filter (fun l => ((s.lane 0 l).kOf 97).p) = [] ∧ s.cur.lanes.filter (fun l => ((s.lane 0 l).kOf 97).g) = [1] ∧ s.cur.lanes.filter (fun l => !((s.lane 0 l).kOf 97).g) = [0]) ∧
    (let s := suspect true ⟨0x9000, true, false⟩ false [(5, ticket)]; s.cur.lanes.filter (fun l => !((s.lane 0 l).kOf 97).g) = [] ∧ (s.cur.lanes.filter (fun l => ((s.lane 0 l).kOf 97).g)).filter (fun l => (s.core 0).truthful 0 (s.lane 0 l).uid) = [] ∧ s.live 0) ∧
    (let s := suspect true ⟨0x9000, true, false⟩ false []; (s.cur.lanes.filter (fun l => ((s.lane 0 l).kOf 97).g)).filter (fun l => (s.core 0).truthful 0 (s.lane 0 l).uid) = [0] ∧ (s.lane 0 0).gm = false ∧ s.live 0 ∧ s.here.h = false) ∧
    (let s := suspect true ⟨0x9000, true, false⟩ true []; (s.cur.lanes.filter (fun l => ((s.lane 0 l).kOf 97).g)).filter (fun l => (s.core 0).truthful 0 (s.lane 0 l).uid) = [0] ∧ (s.lane 0 0).gm = true ∧ s.running ∧ s.live 0) := by
  simp only [State.running, State.live, State.liveAt]; decide +kernel
/-- The target of FORK, which its active fibre reads, poisoned or guessed, and its mask. -/
theorem witness_ControlOperands_fork : (let s := suspect true ⟨0x9000, false, true⟩ false []; s.here.h = false ∧ (Instr.maskBit (.fork Mods.none 0 99 97 98) (s.lane 0 0)).bits = 1 ∧ ((s.lane 0 0).kOf 97).p = true) ∧
    (poisonous.here.h = false ∧ (Instr.maskBit (.fork ⟨none, some ⟨1, 0, 0, 0, 0, 0, 0⟩⟩ 0 99 98 98) (poisonous.lane 0 0)).p = true) ∧ (riImm Mods.none 1).toNat ≤ 1 := by decide +kernel

theorem witness_Fills_refusedRead : refusing.refusedRead (dieOf 80) 0x1000 = true ∧ (filled none).refusedRead 0 0x1000 = false ∧ ((filled none).die 0).l2.length < Config.l2Ways := by decide +kernel

/-- k1 = 0x1000 and v2 with tags, and the address with them. -/
def operands (k : Elem 64) (v : Elem 32) : State := labOf (fun b => { b with k := b.k.put 1 k, v := b.v.put 2 v })
/-- Poisoned and guessed bases and data of loads, stores and atomics; data with both bits count as poisoned. -/
theorem witness_AccessFaults_tags : (let s := operands ⟨0x1000, false, true⟩ ⟨0, false, false⟩; s.running ∧ (s.actives (.ld32 Mods.none 0 3 97 0 0)).filter (fun l => (s.opnd l (srcR 97 1)).p) = [0]) ∧
    (let s := operands ⟨0x1000, true, false⟩ ⟨0, false, false⟩; (s.actives (.st Mods.none 2 2 97 0 0)).filter (fun l => (s.opnd l (srcR 97 1)).g) = [0] ∧ ∀ l ∈ s.actives (.st Mods.none 2 2 97 0 0), (s.opnd l (srcR 97 1)).p = false) ∧
    (let s := operands ⟨0x1000, false, false⟩ ⟨5, true, false⟩
     (s.actives (.st Mods.none 2 2 97 0 0)).filter (fun l => !false && (s.opnd l (srcR 2 1)).g && !(s.opnd l (srcR 2 1)).p) = [0] ∧ s.untagged (fun l => [Instr.maskBit (.st Mods.none 2 2 97 0 0) (s.lane 0 l)]) ∧
      (∀ l ∈ s.actives (.st Mods.none 2 2 97 0 0), (s.opnd l (srcR 97 1)).p = false ∧ (s.opnd l (srcR 97 1)).g = false) ∧ (s.actives (.aadd Mods.none 0 3 1 3 2)).filter (fun l => (s.opnd l (srcB' Mods.none 2 1)).g) = [0]) ∧
    (let s := operands ⟨0x1000, false, false⟩ ⟨5, true, true⟩
     (s.actives (.aadd Mods.none 0 3 1 3 2)).filter (fun l => (s.opnd l (srcB' Mods.none 2 1)).p) = [0] ∧ (∀ l ∈ s.actives (.st Mods.none 2 2 97 0 0), (!false && (s.opnd l (srcR 2 1)).g && !(s.opnd l (srcR 2 1)).p) = false) ∧
      (∀ l ∈ s.actives (.aadd Mods.none 0 3 1 3 2), (s.opnd l (.reg 97 1)).p = false)) := by
  simp only [State.untagged, State.running]; decide +kernel
/-- A page whose bias flips, a table that is poisoned, a page that is missing, and an address above 48 bits. -/
theorem witness_AccessFaults_translation : ({ base 0x1000 with ctxs := [(1, { Ctx.none with flips := [(0x1000, 4096)] })] } : State).xlate 1 0 0x1000 .read = .held ∧
    ({ tables with poison := [0xA000] } : State).xlate 1 0 0x10000 .read = .poisoned ∧ (base 0x20000).xlate 1 0 0x20000 .write = .replay ∧ (base 0x20000).here.held = [] ∧ ((base 0x20000).ctxs.find? 1).isSome = true ∧
    (base 0x20000).actives (.st Mods.none 2 2 97 0 0) = [0] ∧ 2 ^ 48 ≤ (0x1000000000000 : Nat) ∧ (readOnly.actives (.st Mods.none 2 2 97 0 0)) = [] ++ 0 :: [] ∧ readOnly.xlate 1 0 0x1000 .write = .trap 1 := by decide +kernel
/-- A scale beyond the first 7/8 of an FMT 6 page, and scratch addresses that are misaligned and beyond the window. -/
theorem witness_AccessFaults_window : (let pg : Page := { placedPage 1 with fmt := 6 }; pg.fmt = 6 ∧ 7 * 2 ^ pg.bits / 8 < 0xFFFC % 2 ^ pg.bits + 4 ∧ ¬ 7 * 2 ^ pg.bits / 8 < 0x1000 % 2 ^ pg.bits + 4) ∧
    (let s : State := { base 0x1002 with ctxs := mem.ctxs }; (s.actives (.lds Mods.none 4 3 97 0)).filter (fun l => (BitVec.ofNat 64 (s.addr (srcR 97 1) 0 l).bits).toNat % 4 != 0) = [0]) ∧
    (let s : State := { base 0x1000 with ctxs := mem.ctxs }; (s.actives (.lds Mods.none 4 3 97 0)).filter (fun l => (BitVec.ofNat 64 (s.addr (srcR 97 1) 0 l).bits).toNat % 4 != 0) = [] ∧
      (s.actives (.lds Mods.none 4 3 97 0)).filter (fun l => decide ((s.ctx 1).scratch < (BitVec.ofNat 64 (s.addr (srcR 97 1) 0 l).bits).toNat + 4)) = [0]) := by decide +kernel

/-- A guess that was missed, and whose element has no ticket any more. -/
theorem witness_GuessInstructions_missed : (let s := { guessing [] with groups := (guessing []).groups.adjust 0 (fun x => x.mapLanes [0] (fun _ b => { b with gm := true })) }
    s.issued ∧ s.running ∧ s.untagged (fun l => [Instr.maskBit (.gdem Mods.none 3 0) (s.lane 0 l)]) ∧ ((s.actives (.gdem Mods.none 3 0)).filter (fun l => (s.opnd l (srcR 3 1)).g)).filter
      (fun l => decide ((s.core 0).links 0 (s.lane 0 l).uid (codeRegs (s.lane 0 l) 3 1) = []) && (s.lane 0 l).gm) = [0] ∧ (s.core 0).truthful 0 3 = true) ∧
    ((guessing [(5, truth)]).core 0).known 5 = true ∧ ((guessing [(5, ticket)]).core 0).known 5 = false := by
  simp only [State.issued, State.liveAt, State.untagged, State.running]; decide +kernel
/-- A store of which a firewall refuses a line, by the die 1 to a line of die 0. -/
theorem witness_StorePerformed_barred : (∃ l ∈ linesOf 0x1000 4, refusing.barred (dieOf 80) l = true) ∧ (∀ l ∈ linesOf 0x1000 4, (storing { aStore with level := 1 }).barred 0 l = false) ∧ (storing aStore).seals = [] := by decide +kernel
theorem witness_Acquire_goes : (acquiring []).barred 0 (lineOf 0x1008) = false ∧ (acquire []).bytes ∈ [4, 8] ∧ (aLane 0 .waiting).host = false ∧ (1 : Nat) ≤ 3 := by decide +kernel
theorem witness_CacheControl_port : (cached none).roomy 1 0 (2 * (cached none).cur.lanes.length) ∧ (cached none).barred 0 0x1000 = false ∧ (placedPage 1).alloc ≤ 3 ∧ mem.barred 0 0x1000 = false ∧ (mem.die 0).l2.length < Config.l2Ways :=
  ⟨rooms _ _ _ _ (by decide +kernel) (by decide +kernel), by decide +kernel⟩
theorem witness_LineNotBarred : (acquiring []).barred 0 (lineOf 0x1008) = false ∧ (atomicAt (anAtomic (some 4))).barred 0 0x1000 = false ∧ (watching 5).barred 0 0x1000 = false ∧ (inFlight 0 0).barred 0 0x1000 = false ∧
    (moving (aCopy 0 false 0 false)).barred 0 0x1100 = false ∧ (reducing [] none).barred 0 0x1180 = false ∧ (∀ r, r < 32 → (performing (single .ld 1 none (some 92) [])).barred 0 (lineOf (0x1000 + 32 * r)) = false) := by decide +kernel

/-- A poisoned length, a guessed pattern, and a pattern with both bits, which counts as poisoned. -/
theorem witness_CopyFaults_operands : (let s := labOf (fun b => { b with k := (b.k.put 3 ⟨8, false, true⟩) })
      s.running ∧ (([(3, 97#7), (0, 98#7)].find? (fun q => ((s.lane 0 0).kOf q.2).p)).map Prod.fst = none ∧ ([(3, 97#7), (0, 98#7)].find? (fun q => ((s.lane 0 0).kOf q.2).g)).map Prod.fst = none) ∧
        ([(1, 99#7)].find? (fun q => ((s.lane 0 0).kOf q.2).p)).map Prod.fst = some 1) ∧
    (let s := labOf (fun b => { b with k := (b.k.put 3 ⟨8, true, false⟩) }); (((s.lane 0 0).kOf 99).g && !((s.lane 0 0).kOf 99).p) = true) ∧
    (let s := labOf (fun b => { b with k := (b.k.put 3 ⟨8, true, true⟩) }); (((s.lane 0 0).kOf 99).g && !((s.lane 0 0).kOf 99).p) = false) ∧
    (let s := labOf (fun b => setK 3 (2 * 2 ^ 48) (setK 4 65537 b)); ¬ ((s.lane 0 0).kOf 99).bits / 2 ^ 48 % 2 ^ 16 = 0 ∧ ¬ ((s.lane 0 0).kOf 100).bits ≤ 65536) ∧
    [(true, 0x1000, 4), (false, 0x1002, 4)] = [(true, 0x1000, 4)] ++ (false, 0x1002, 4) :: [] ∧ 0x1002 % 4 ≠ 0 ∧ (∀ y ∈ [(true, 0x1000, 4)], y.2.1 % y.2.2 = 0) := by
  simp only [State.running]; decide +kernel

/-- A gather between two boundaries goes on through a flip of its page, and a copy of another kind does not. -/
theorem witness_CopyPiece_flip : (let c := { aCopy 2 false 0 false with row := 1, rows := 2 }
      let s := { moving c with ctxs := [(1, { (moving c).ctx 1 with flips := [(0x1000, 4096)] })] }
      c.atBoundary = false ∧ s.copyRuns 0 c = true ∧ s.xlate 1 0 0x1000 .read = .held ∧ s.xlateNow 1 0 0x1000 .read = .ok 0x1000 (placedPage 1)) ∧
    (aCopy 0 false 0 false).atBoundary = true ∧ (moving (aCopy 0 false 0 false)).copyRuns 0 (aCopy 0 false 0 false) = true ∧ (moving (aCopy 0 false 0 true)).copyRuns 0 (aCopy 0 false 0 true) = true := by decide +kernel
/-- A destination that is missing, refused or behind a poisoned table, and an index that is poisoned, in a copy that runs. -/
theorem witness_CopyPiece_destination : (moving (aCopy 0 false 0 false)).xlate 1 0 0x20000 .write = .replay ∧ (moving (aCopy 0 false 0 false)).xlate 1 0 0x4000000000000000 .write = .trap 1 ∧
    ({ tables with poison := [0xA000] } : State).xlate 1 0 0x10000 .write = .poisoned ∧ ({ near with poison := [] } : State).xlate 1 0 0x1200 .read = .ok 0x1200 (placedPage 1) ∧
    (let s : State := { near with dies := [(0, { Die.reset with l2 := [(0x1200, { line2 none with poison := true })] })] }; ∃ i, i < 4 ∧ (s.engineByte 1 0 (0x1200 + i, some (placedPage 1))).2 = true) ∧
    ((moving (aCopy 0 false 0 false)).groups.find? 0).isSome = true ∧ ((moving (aCopy 0 false 0 false)).ctxs.find? 1).isSome = true :=
  ⟨by decide +kernel, by decide +kernel, by decide +kernel, by decide +kernel, ⟨0, by decide +kernel⟩, by decide +kernel, by decide +kernel⟩

/-- A release that waits for an earlier store, and a VF that has been torn down. -/
theorem witness_FabricInstructions_waits : (let s : State := { fabric 0 callRecord with cores := [(0, { lab.core 0 with stores := [(4, aStore)] })], ids := 10 }
      (s.vf 0).alive = true ∧ s.issued ∧ s.cur.lanes ≠ [] ∧ s.releaseDone 0 0 3 4 ((s.lane 0 0).upto s.ids) none = false) ∧
    (let s : State := { fabric 0 callRecord with vfs := (fabric 0 callRecord).vfs.adjust 0 (fun v => { v with alive := false }) }
     (s.vf 0).alive = false ∧ (s.vf 0).comms.find? 0 = some ⟨0, [(5, 1), (6, 2)]⟩ ∧ ((s.lane 0 0).kOf 97).bits % 128 = 0) := by
  simp only [State.issued, State.liveAt]; decide +kernel

/-- Pieces of a call whose translation is refused, poisoned or missing, and a call that is past its timeout while a piece of DST waits. -/
theorem witness_Calls_refused : (reducing [] none).xlate 1 0 0x4000000000000000 .write = .trap 1 ∧ ({ tables with poison := [0xA000] } : State).xlate 1 0 0x10000 .read = .poisoned ∧ (reducing [] none).xlate 1 0 0x20000 .read = .replay ∧
    (let c := { aCall 0 with dst := 0x20000, out := some contribution }
     let s : State := { calling 0 1700000000 with calls := [(4, c)] }
     s.calls.find? 4 = some c ∧ c.out ≠ none ∧ (1 * (c.count * collSize c.op c.type)) = 16 ∧ contribution.length ≤ 16 ∧ s.xlate 1 0 (c.dst + BitVec.ofNat 64 (16 - contribution.length)) .write = .replay ∧ c.since + 1000000 * 1000 ≤ s.ticks) ∧
    (let c := { aCall 0 with out := some contribution }
     c.out ≠ none ∧ c.op ≠ 3 ∧ (calling 0 1700000000).xlate 1 0 (c.dst + BitVec.ofNat 64 (16 - contribution.length)) .write ≠ .replay) := by decide +kernel

/-- The piece of a call, and the word of a fibre's CWAIT, at a node of a window. -/
theorem witness_Causeway_calls : let s : State := { calling 0 0 with cores := [(0, { lab.core 0 with tlb := [windowed] })] }
    s.callAddr (aCall 0) = some (0x1100, false) ∧ (s.request 0 4 0).map (fun r => (r.since, r.out, r.fails)) = some (none, true, 0) ∧ (s.core 0).loads.find? 4 = none ∧ (s.core 0).tileOps.find? 4 = none := by decide +kernel
theorem witness_Causeway_fibres : let s : State := { labOf (fun b => { b with wait := .word 0x1000 (some 5) 97 1 [] }) with cores := [(0, { lab.core 0 with tlb := [windowed] })] }
    (s.request 0 0 0).map (fun r => (r.since, r.out, r.g, r.lane)) = some (none, true, 0, 0) ∧ (s.fibreReading 0 (s.group 0) 0).isSome = true ∧ (s.groups.find? 0).isSome = true ∧ ((s.group 0).fibre 0).cw.ja = false ∧
      (s.ctxs.find? 1).isSome = true ∧ s.runs 1 0 = true ∧ s.calls.find? 0 = none ∧ (s.core 0).copies.find? 0 = none := by decide +kernel
/-- A half of a line under no key, and a die whose firewall takes the messages of the directory. -/
theorem witness_Hosts_keys : lab.seals = [] ∧ lab.snoopOk 0 0x1000 = true ∧ lab.snoopOk 3 0x1000 = true ∧ (∀ g, lab.seals.find? (lineOf 0x1040) = some g → lab.hostKey 0x1040 = some g) :=
  ⟨by decide +kernel, by decide +kernel, by decide +kernel, fun g h => by rw [show lab.seals = [] by decide +kernel] at h; cases h⟩
end Sys2Proof.Tests
end

section
/-! SUPPORT. Decoding and encoding agree (R44, R45, R47, R52): the report of failed checks, the words of the prefixes, the base word
behind them, and the words of a list of bytes. -/

namespace Sys2Proof.Laws

/-- No check is reported exactly where all are passed (R62). -/
theorem firstBad_eq_none_iff (cs : List Check) : firstBad cs = none ↔ cs.all Check.ok = true := by
  induction cs with
  | nil => simp [firstBad]
  | cons c t ih =>
    rw [firstBad, List.all_cons, Bool.and_eq_true, ← ih]
    cases firstBad t with
    | none => cases c.ok <;> simp
    | some d =>
      cases c.ok
      · by_cases hb : d.before c = true <;> simp [hb]
      · simp

/-- The opcode byte of an IMX stands for no instruction (R61). -/
theorem decodeBase_of_isImx {w : W32} (mods : Mods) (h : isImx w = true) : decodeBase mods w = .bad .opcode 15 := by
  rw [decodeBase, eq_of_beq h]
  rfl

/-- The opcode byte of an OPX stands for no instruction (R61). -/
theorem decodeBase_of_isOpx {w : W32} (mods : Mods) (h : isOpx w = true) : decodeBase mods w = .bad .opcode 15 := by
  rw [decodeBase, eq_of_beq h]
  rfl

/-- A word that stands for an instruction is neither an IMX nor an OPX. -/
theorem not_prefix_of_decodeBase {mods : Mods} {w : W32} {cs : List Check} {i : Instr} (h : decodeBase mods w = .row cs i) :
    isImx w = false ∧ isOpx w = false :=
  ⟨Bool.eq_false_iff.mpr fun hx => Raw.noConfusion ((decodeBase_of_isImx mods hx).symm.trans h),
    Bool.eq_false_iff.mpr fun hx => Raw.noConfusion ((decodeBase_of_isOpx mods hx).symm.trans h)⟩

@[simp] theorem isImx_imxWord (x : BitVec 24) : isImx (imxWord x) = true :=
  beq_iff_eq.mpr (fld_8_24_at_24_8 ..)

@[simp] theorem fld_imxWord_imm (x : BitVec 24) : fld (imxWord x) 0 24 = x :=
  fld_8_24_at_0_24 ..

theorem fld_opxWord_opcode (o : Opx) : fld o.word 24 8 = 0xFF#8 := by
  simp only [fld, Opx.word, BitVec.extractLsb'_append_eq_of_le, Nat.reduceLeDiff, Nat.reduceSub, -Nat.reduceAdd]
  rfl

@[simp] theorem fld_opxWord_low (o : Opx) : fld o.word 0 3 = 0#3 := by
  simp only [fld, Opx.word, BitVec.extractLsb'_append_eq_right]

@[simp] theorem decodeOpx_word (o : Opx) : decodeOpx o.word = o := by
  simp only [decodeOpx, fld, Opx.word, BitVec.extractLsb'_append_eq_of_le, BitVec.extractLsb'_append_eq_right, Nat.reduceLeDiff, Nat.reduceSub,
    Nat.le_refl, Nat.sub_self, -Nat.reduceAdd]

@[simp] theorem isOpx_opxWord (o : Opx) : isOpx o.word = true :=
  beq_iff_eq.mpr (fld_opxWord_opcode o)

@[simp] theorem isImx_opxWord (o : Opx) : isImx o.word = false := by
  rw [isImx, fld_opxWord_opcode]
  rfl

/-- The prefixes of an instruction are read back from their words, and the base word behind them is decoded under them (R44, R45). -/
theorem decodeWords_prefixed (mods : Mods) {w : W32} (t : List W32) (hw : isImx w = false ∧ isOpx w = false) :
    decodeWords (mods.words ++ w :: t) = finish mods (mods.opx.map Opx.word) w (mods.words.length + 1) := by
  obtain ⟨himx, hopx⟩ := hw
  obtain ⟨_ | x, _ | o⟩ := mods
  case none.none => simp [Mods.words, decodeWords, himx, hopx, Mods.none]
  case none.some => simp [Mods.words, decodeWords, decodeAfterOpx, himx, hopx]
  case some.none => simp [Mods.words, decodeWords, decodeAfterImx, himx, hopx]
  case some.some => simp [Mods.words, decodeWords, decodeAfterImx, decodeAfterOpx, himx, hopx]

/-- A base word whose checks, with those of its OPX word and of the instruction's fields, are all passed is that instruction (R62). -/
theorem finish_eq_ins {mods : Mods} {opx : Option Opx} {w : W32} {cs : List Check} {i : Instr} (n : Nat) (hd : decodeBase mods w = .row cs i)
    (hcs : cs.all Check.ok = true) (hi : i.checks.all Check.ok = true) : finish mods (opx.map Opx.word) w n = .ins i n := by
  have hall : firstBad (cs ++ ((opx.map Opx.word).map (fun o => zero o .reserved 11 0 3)).toList ++ i.checks) = none := by
    rw [firstBad_eq_none_iff, List.all_append, List.all_append, hcs, hi]
    cases opx <;> simp [zero]
  simp only [finish, hd, hall]

/-- Every encoded instruction is read back from its base word: one case per constructor (R47, R61). -/
theorem decodeBase_word (i : Instr) : Encoding.Statement i :=
  @Instr.casesOn Encoding.Statement i
    Encoding.nop Encoding.bra Encoding.brq Encoding.jmp Encoding.call Encoding.callr Encoding.ret Encoding.returnFillArrival Encoding.jct
    Encoding.junctionRelease Encoding.junctionTimeout Encoding.fork Encoding.quit Encoding.yield Encoding.win Encoding.winK Encoding.wadd
    Encoding.kli Encoding.khi Encoding.kmov Encoding.kadd Encoding.ksub Encoding.kmul Encoding.kmulh Encoding.kdiv Encoding.krem Encoding.kand
    Encoding.kor Encoding.kxor Encoding.kshl Encoding.kshr Encoding.ksra Encoding.kmin Encoding.kmax Encoding.kcmp Encoding.ksel Encoding.kclz
    Encoding.kpopc Encoding.kfromv Encoding.kfromq Encoding.ktoq Encoding.waitc Encoding.gbar Encoding.tarr Encoding.twait Encoding.mbar
    Encoding.barrierArrival Encoding.mbarReleaseStep Encoding.lease Encoding.leaseK Encoding.leaseRd Encoding.lnch Encoding.trap Encoding.assertQ
    Encoding.tret Encoding.tmsk Encoding.srd Encoding.swr Encoding.swrOr Encoding.swrClr Encoding.brk Encoding.halt Encoding.vadd Encoding.vsub
    Encoding.vmul Encoding.vmulh Encoding.vmad Encoding.vdiv Encoding.vrem Encoding.vmin Encoding.vmax Encoding.vabs Encoding.vand Encoding.vor
    Encoding.vxor Encoding.vnot Encoding.vshl Encoding.vshr Encoding.vsra Encoding.vrot Encoding.vclz Encoding.vpopc Encoding.vbrev Encoding.vsel
    Encoding.vmov Encoding.vli Encoding.vliHi Encoding.vcmpEq Encoding.vcmpNe Encoding.vcmpLt Encoding.vcmpLe Encoding.vcmpGt Encoding.vcmpGe
    Encoding.vbcast Encoding.vcvti Encoding.qand Encoding.qor Encoding.qxor Encoding.qnot Encoding.qmov Encoding.fadd Encoding.fsub Encoding.fmul
    Encoding.ffma Encoding.fmin Encoding.fmax Encoding.fsgn Encoding.fsgnNeg Encoding.fsgnXor Encoding.fcmpEq Encoding.fcmpNe Encoding.fcmpLt
    Encoding.fcmpLe Encoding.fcmpGt Encoding.fcmpGe Encoding.fcmpUn Encoding.fcmpOr Encoding.fclass Encoding.fcvt Encoding.fcvtToInt
    Encoding.fcvtFromInt Encoding.frnd Encoding.hadd2 Encoding.hmul2 Encoding.hfma2 Encoding.hcmp2 Encoding.srcp Encoding.srsq Encoding.ssqrt
    Encoding.sexp2 Encoding.slog2 Encoding.ssin Encoding.scos Encoding.stanh Encoding.wmad Encoding.wdot4 Encoding.waddAccumulator Encoding.wclr
    Encoding.narrow Encoding.widen Encoding.shfl Encoding.shflx Encoding.shflu Encoding.shfld Encoding.vote Encoding.redg Encoding.scang
    Encoding.matchLanes Encoding.vkey Encoding.ldN8 Encoding.ldS8 Encoding.ldN16 Encoding.ldS16 Encoding.ld32 Encoding.ld64 Encoding.ldv Encoding.ldk
    Encoding.ldx Encoding.pf Encoding.lds Encoding.gtest Encoding.gacc Encoding.gdem Encoding.gchk Encoding.ptest Encoding.st Encoding.stv
    Encoding.stg Encoding.sts Encoding.aadd Encoding.amin Encoding.amax Encoding.aand Encoding.aor Encoding.axor Encoding.axchg Encoding.acas
    Encoding.aminN Encoding.amaxN Encoding.afadd Encoding.afaddPair Encoding.ldaq Encoding.strl Encoding.fence Encoding.rfence Encoding.xfence
    Encoding.lock Encoding.unlock Encoding.cinv Encoding.cwb Encoding.halloc Encoding.hrel Encoding.hgive Encoding.htake Encoding.hinfo Encoding.tld
    Encoding.tlds Encoding.tsto Encoding.tsts Encoding.trd Encoding.twr Encoding.tzero Encoding.mma Encoding.mmas Encoding.mmac Encoding.tscl
    Encoding.tacc Encoding.cpy Encoding.cpy2 Encoding.gath Encoding.scat Encoding.cfill Encoding.cstat Encoding.coll Encoding.csigAdd
    Encoding.csigSet Encoding.cwaitRec Encoding.cwaitGe Encoding.step Encoding.rpost Encoding.ageCounterExpiry Encoding.launchRecordTake
    Encoding.teamPlacement Encoding.laybyMove Encoding.carriagewayAdmission Encoding.laybyPending Encoding.pendingEviction Encoding.leaseWindowEnd
    Encoding.groupEnd Encoding.gridEnd Encoding.preemptionRequest Encoding.preemptionTimeout Encoding.supervisorStop Encoding.haltLineArrival
    Encoding.engineStop Encoding.haltCompletion Encoding.contextResume Encoding.contextEnd Encoding.pageWalk Encoding.translationFaultResolved
    Encoding.translationFaultUnresolved Encoding.invalidation Encoding.biasFlip Encoding.deadlineExpiry Encoding.loadDataArrival
    Encoding.ticketTruthArrival Encoding.storePerformed Encoding.atomicPerformed Encoding.promotionDrain Encoding.l1InvalidationArrival
    Encoding.l1FillArrival Encoding.hostSharedRequest Encoding.hostExclusiveRequest Encoding.hostWriteBack Encoding.hostMemoryAccess
    Encoding.dieLinkRequest Encoding.copyPiece Encoding.copyRetire Encoding.matrixPass Encoding.tileOperationRetire Encoding.causewayAbandon
    Encoding.nodeErrorReply Encoding.notifyMessage Encoding.launchMessage Encoding.rpostReply Encoding.rpostTimeout Encoding.collCompletion
    Encoding.collTimeout Encoding.remotePutArrival Encoding.remoteSignalArrival Encoding.cwaitReread Encoding.stepApply Encoding.bucketRefill
    Encoding.vfBringup Encoding.vfTeardown Encoding.allowanceReclaim Encoding.quarantineEnd Encoding.deadOwnerPacket
    Encoding.uncorrectableMemoryError Encoding.correctedMemoryError Encoding.pallowSetWrite Encoding.pallowTripClear Encoding.allowanceCut
    Encoding.powerControlStep Encoding.currentLimiter Encoding.ratioChange Encoding.energyCharge Encoding.energyScaling Encoding.sramRailStep
    Encoding.uncorrectableSramError Encoding.railHoldEnd Encoding.hbmTemperatureSample Encoding.dieThermalTrip Encoding.heartbeatWrite
    Encoding.heartbeatMiss Encoding.coreRetirement Encoding.hbmChannelSparing Encoding.llcWayDisable Encoding.causewayLaneSpare Encoding.portFailover
    Encoding.coldReset Encoding.railPowerDown Encoding.leasewWrite Encoding.dfwWrite Encoding.vuesClear Encoding.vovfClear Encoding.registerWrite
    Encoding.pendingResultRetire Encoding.contextSetup Encoding.rdmaAccess Encoding.remoteMessageDropped Encoding.tagCheckFailure Encoding.csigReply
    Encoding.csigTimeout Encoding.dieThermalRecovery

/-- Every well-formed instruction is read back from its words (R44, R47). -/
theorem decodeWords_encode {i : Instr} (words : List W32) (h : i.wf = true) : decodeWords (encode i ++ words) = .ins i (encode i).length := by
  obtain ⟨henc, hchecks⟩ : i.encoded = true ∧ i.checks.all Check.ok = true := Bool.and_eq_true_iff.mp h
  obtain ⟨cs, hd, hcs⟩ := decodeBase_word i henc
  calc decodeWords (encode i ++ words)
      = decodeWords (i.mods.words ++ i.word :: words) := by simp [encode]
    _ = finish i.mods (i.mods.opx.map Opx.word) i.word (i.mods.words.length + 1) := decodeWords_prefixed _ _ (not_prefix_of_decodeBase hd)
    _ = .ins i (i.mods.words.length + 1) := finish_eq_ins _ hd hcs hchecks
    _ = .ins i (encode i).length := by simp [encode]

/-- A word is made of its bytes, low byte first (R9). -/
theorem wordOf_bytes (w : W32) :
    wordOf (BitVec.ofNat 8 w.toNat) (BitVec.ofNat 8 (w.toNat / 256)) (BitVec.ofNat 8 (w.toNat / 256 / 256))
      (BitVec.ofNat 8 (w.toNat / 256 / 256 / 256)) = w := by
  apply BitVec.eq_of_toNat_eq
  have hw := w.isLt
  simp only [wordOf, BitVec.toNat_append, BitVec.toNat_ofNat]
  rw [← Nat.shiftLeft_add_eq_or_of_lt (by omega), ← Nat.shiftLeft_add_eq_or_of_lt (by omega), ← Nat.shiftLeft_add_eq_or_of_lt (by omega)]
  simp only [Nat.shiftLeft_eq]
  omega

theorem wordsOf_bytesOf_append (w : W32) (bytes : List Byte) : wordsOf (bytesOf 4 w.toNat ++ bytes) = w :: wordsOf bytes := by
  simp only [bytesOf, List.cons_append, List.nil_append, wordsOf, wordOf_bytes]

/-- The bytes of words give the words back, whatever follows them (R9). -/
theorem wordsOf_flatMap_bytesOf (ws : List W32) (bytes : List Byte) :
    wordsOf (ws.flatMap (fun w => bytesOf 4 w.toNat) ++ bytes) = ws ++ wordsOf bytes := by
  induction ws with
  | nil => rfl
  | cons w ws ih => rw [List.flatMap_cons, List.append_assoc, wordsOf_bytesOf_append, ih, List.cons_append]

/-- Four bytes for each word. -/
theorem length_flatMap_bytesOf (ws : List W32) : (ws.flatMap (fun w => bytesOf 4 w.toNat)).length = 4 * ws.length := by
  simp [List.length_flatMap, bytesOf, Nat.mul_comm]

/-- Where words decode to an instruction of all of them, their bytes do, and the bytes behind them are left. -/
theorem decodeBytes_of_decodeWords {ws : List W32} {bytes : List Byte} {i : Instr} (h : decodeWords (ws ++ wordsOf bytes) = .ins i ws.length) :
    decodeBytes (ws.flatMap (fun w => bytesOf 4 w.toNat) ++ bytes) = some (i, bytes) := by
  simp only [decodeBytes, wordsOf_flatMap_bytesOf, h, ← length_flatMap_bytesOf, List.drop_left]

/-- Settles O2: the prefixes are read back, the base word behind them decodes to the instruction with its checks passed, and bytes give
their words back. -/
theorem decodeEncode : Obligations.DecodeEncode := by
  unfold Obligations.DecodeEncode
  intro i words bytes h
  exact ⟨decodeWords_encode words h, decodeBytes_of_decodeWords (decodeWords_encode (wordsOf bytes) h)⟩

end Sys2Proof.Laws
end
